-- ==== Sys2Proof/Machine/Tab.lean ====
section
/-! DEFINITION. Sparse tables: a list of (key, value) pairs, keys strictly rising, and the byte memory built
on the same idea. One set of operations serves every keyed piece of state. -/
namespace Sys2Proof.Machine

/-- A sparse table from natural keys, kept in strictly rising key order. -/
abbrev Tab (α : Type) := List (Nat × α)

/-- The entry at key `k`, if the table lists one. -/
def Tab.get? {α : Type} : Tab α → Nat → Option α
  | [], _ => none
  | (j, v) :: t, k => if k = j then some v else Tab.get? t k

/-- The entry at key `k`, or `d` where the table lists none. -/
def Tab.getD {α : Type} (t : Tab α) (k : Nat) (d : α) : α := (Tab.get? t k).getD d

/-- The table with `v` at key `k`; the rising order is kept. -/
def Tab.set {α : Type} : Tab α → Nat → α → Tab α
  | [], k, v => [(k, v)]
  | (j, w) :: t, k, v =>
    if k = j then (k, v) :: t
    else if k < j then (k, v) :: (j, w) :: t
    else (j, w) :: Tab.set t k v

/-- The table without an entry at key `k`. -/
def Tab.del {α : Type} : Tab α → Nat → Tab α
  | [], _ => []
  | (j, w) :: t, k => if k = j then t else (j, w) :: Tab.del t k

/-- The values whose key satisfies `p`. -/
def Tab.keep {α : Type} (t : Tab α) (p : Nat → α → Bool) : Tab α := t.filter fun e => p e.1 e.2

/-- Every value changed by `f`, keys kept. -/
def Tab.mapV {α : Type} (t : Tab α) (f : Nat → α → α) : Tab α := t.map fun e => (e.1, f e.1 e.2)

/-- Keys strictly rising: the canonical order of every table. -/
def Tab.sorted {α : Type} : Tab α → Bool
  | [] => true
  | [_] => true
  | (j, _) :: (k, w) :: t => decide (j < k) && Tab.sorted ((k, w) :: t)

/-- Byte memory in canonical form: addresses strictly rising, no listed byte equal to `Memory.blank`. -/
abbrev Memory := List Host.Cell

/-- What an address that nothing has written reads as.
DESIGN CHOICE (log entry 4), unsafe: R491 says only that DRAM contents are lost at a cold reset. -/
def Memory.blank : BitVec 8 := 0

/-- The byte at address `a`. -/
def Memory.read (m : Memory) (a : Nat) : BitVec 8 := Tab.getD m a Memory.blank

/-- The memory with byte `b` at address `a`, in canonical form. -/
def Memory.write (m : Memory) (a : Nat) (b : BitVec 8) : Memory :=
  if b = Memory.blank then Tab.del m a else Tab.set m a b

/-- The `n` bytes from address `a` on. -/
def Memory.readN (m : Memory) (a : Nat) : Nat → List (BitVec 8)
  | 0 => []
  | n + 1 => Memory.read m a :: Memory.readN m (a + 1) n

/-- The memory with the bytes of `bs` stored from address `a` on. -/
def Memory.writeN (m : Memory) (a : Nat) : List (BitVec 8) → Memory
  | [] => m
  | b :: bs => Memory.writeN (Memory.write m a b) (a + 1) bs

/-- The memory with nothing listed in the `n` addresses from `a` on. -/
def Memory.blankRange (m : Memory) (a n : Nat) : Memory := m.filter fun c => c.1 < a || a + n ≤ c.1

/-- The canonical form of a memory. -/
def Memory.wf (m : Memory) : Bool := Tab.sorted m && m.all fun c => c.2 != Memory.blank

end Sys2Proof.Machine
end

