-- ==== Sys2Proof/Word.lean ====
section
/-! DEFINITION. The two plain bit-vector widths the manual uses for data: a byte of memory and a 64-bit
register word (R10). Counts, indexes, ticks and addresses in tables are `Nat`. -/
namespace Sys2Proof

/-- One byte of memory, of a descriptor or of a flash page. -/
abbrev Byte := BitVec 8

/-- A 64-bit register value (R10). -/
abbrev Word := BitVec 64

/-- A physical address as it stands on the bus (R37). -/
abbrev PAddr := BitVec 48

/-- An origin ID (the scale of Scope, R42). -/
abbrev Origin := BitVec 16

end Sys2Proof
end

