-- ==== Sys2Proof/Syntax.lean ====
section
/-! DEFINITION. The commands of the block: one constructor of `Instr` per row of spec/opcode_table.json, in the
table's order. The table gives no operands; the operands are what the row's rule needs to be told from outside
(DESIGN CHOICE, log entry 2): the bus address and data of an access, the ring and slot of a started descriptor, the
instance a timer or an event belongs to, the data a message or a sensor brings. -/
namespace Sys2Proof

/-- The units of R9 and R39, one constructor per unit base that holds a unit. -/
inductive UnitId
  | apx | clk | pwr | drw | par | railA | railB | railC | churn | sep | press | ven | carc | cell | bld
  | ten | lease | cool | vat | ddr | sec | aud | jig | gov | wit | mtr | tal | mgt
deriving DecidableEq, Repr

/-- Size of a bus access in bytes (R41). -/
inductive AccSize | b1 | b2 | b4 | b8
deriving DecidableEq, Repr

def AccSize.bytes : AccSize → Nat
  | .b1 => 1 | .b2 => 2 | .b4 => 4 | .b8 => 8

/-- A descriptor held by a ring of a unit: the ring and the index its first image was fetched from. -/
structure DescRef where
  ring : Nat
  slot : Nat
deriving DecidableEq, Repr

/-- A Rail of the head. -/
inductive Rail | a | b
deriving DecidableEq, Repr
/-- A requester port of the network-on-chip (R354, R356): a core, the management core, or a unit's DMA. -/
inductive CoolPort
  | core (c : Nat)
  | mgmt
  | unit (n : Nat)
deriving DecidableEq, Repr

/-- What an access to the Cooler finds wrong in the line or its tag (R359). -/
inductive CoolErr | none | single | multi | tag
deriving DecidableEq, Repr

/-- Where a DRAM error lies (DDR_ERR_c). -/
structure DramLoc where
  subch : Nat
  rank : Nat
  bg : Nat
  bank : Nat
  row : Nat
  col : Nat
  device : Nat
deriving DecidableEq, Repr

/-- What a read of a DRAM line finds (R374). -/
inductive DramErr
  | none
  | corrected (loc : DramLoc)
  | uncorrectable (loc : DramLoc)
deriving DecidableEq, Repr
/-- The work a lane of an engine holds when it meets an uncorrectable error (R171, R198, R235, R407). -/
inductive LaneJob
  | idle
  | desc (d : DescRef)            -- a started descriptor
  | inline (ctx : Nat)            -- an inline job of a command context
  | legacy                        -- the legacy context of the Press
  | context (c : Nat)             -- the state of a Press context, 64 the legacy one
deriving DecidableEq, Repr
/-- What the medium of a blade does with a command (R296 to R299): it carries it out (a read reports the bits corrected and
whether a retry was used), it fails, or a page whose content is open reads as erased or with failing CRCs. -/
inductive Medium
  | done (bits : Nat) (retry : Bool)
  | failed
  | erased
  | garbled
deriving DecidableEq, Repr, Inhabited
/-- A command of the peer as it stands in its submission queue: the 64-byte image, the bytes it carries, the header. -/
structure PeerCmd where
  img : List (BitVec 8)
  out : List (BitVec 8)
  hdr : List (BitVec 8)
deriving DecidableEq, Repr
/-- Geometry and identity of a blade that is put behind a port (R301), and the error of its clock in ppm (R307). -/
structure NewBlade where
  dies : Nat
  blocks : Nat
  pagesQlc : Nat
  spare : Nat
  ratedEc : Nat
  serial : List (BitVec 8)
  ppm : Int
deriving DecidableEq, Repr
/-- A RoCEv2 packet as its headers say (R67): destination QP number, BTH opcode, PSN, acknowledge request, CE mark, RETH
(address, key, length), AETH (syndrome), immediate data or key to invalidate, payload. -/
structure RocePkt where
  qpn : Nat
  op : Nat
  psn : Nat := 0
  ackReq : Bool := false
  ce : Bool := false
  va : Nat := 0
  rkey : Nat := 0
  dmaLen : Nat := 0
  syndrome : Nat := 0
  imm : Nat := 0
  data : List (BitVec 8) := []
deriving DecidableEq, Repr
/-- A TCP segment (R82): addresses and ports as the receiver sees them, sequence numbers, unscaled window, flags,
timestamps, SACK blocks, payload. -/
structure TcpSeg where
  remote : List (BitVec 8)
  sport : Nat
  dport : Nat
  seq : Nat
  ack : Nat
  wnd : Nat
  fin : Bool := false
  syn : Bool := false
  rst : Bool := false
  ece : Bool := false
  cwr : Bool := false
  ce : Bool := false
  tsVal : Nat := 0
  tsEcr : Nat := 0
  sack : List (Nat × Nat) := []
  data : List (BitVec 8) := []
deriving DecidableEq, Repr
/-- What an Ethernet frame holds. -/
inductive Wire
  | roce (p : RocePkt)
  | tcp (t : TcpSeg)
  | other
deriving DecidableEq, Repr
/-- A frame at a logical port: its size without tags, its priority where it has no tag, whether its FCS, ICRC and fragmentation
pass (R66), its bytes for the slow path, and its 802.1Q tag as VLAN ID and priority code point (R65). A frame with a second tag is
none that the Rails know and counts as `other`. -/
structure Frame where
  lport : Nat
  size : Nat
  prio : Nat
  good : Bool
  body : Wire
  raw : List (BitVec 8) := []
  tag : Option (Nat × Nat) := none
deriving DecidableEq, Repr
/-- TAP instructions of IEEE 1149.1 (R386). -/
inductive TapInsn | bypass | idcode | sample | extest | other (code : Nat)
deriving DecidableEq, Repr

/-! ## What blades hold for a shard: an operand of SHARD_LOAD, and part of the state -/
namespace Machine

/-- Kinds of bands (R241). -/
inductive BandKind | main | journal | meta_ | anchor
deriving DecidableEq, Repr

/-- A content unit of a band: KIND and OBJECT of its header, WSEQ, first DPAGE, whether it is live. -/
structure CUnit where
  kind : Nat
  obj : Nat
  wseq : Nat
  dpage : Nat
  live : Bool := true
deriving DecidableEq, Repr

/-- Band states (R262); a FREE band is not listed. -/
inductive BandSt | open_ | closed | empty | erasing | retired
deriving DecidableEq, Repr

/-- A band of a blade (R240 to R247): `next` DPAGE, `acc`: XOR of the pages of the stripe being written. -/
structure Band where
  kind : BandKind
  shard : Nat
  pool : Nat := 0
  st : BandSt := .open_
  next : Nat := 0
  units : List CUnit := []
  fence : Nat := 0
  ec : Nat := 0
  subst : Tab Nat := []
  acc : List (BitVec 8) := []
  gc : Bool := false              -- the GC band of its shard; of a JOURNAL band: the one for intent pages
  lane : Nat := 0                 -- JOURNAL: the lane
  patch : Bool := false           -- MAIN: the band its shard patches into (log entry 137)
deriving DecidableEq, Repr

/-- Where a page of a blade stands. -/
structure PageLoc where
  blade : Nat
  band : Nat
  dpage : Nat
deriving DecidableEq, Repr

/-- What else waits for a journal record to be confirmed: a REF_ADJUST with its INFO and RESULT, an increment for the peer. -/
inductive JDone
  | none
  | refAdj (d : DescRef) (info result : Nat)
  | maint (tag : Nat)
  | fold (d : Option DescRef) (blocks : Nat) (wheels : List Nat) (old : Option Nat)   -- a fold or reclaim of `old`
deriving DecidableEq, Repr

/-- A journal record (R250, R251); `cmd`: the command and block it serves; `folded`: the LOCATOR of its block in a
wheel. -/
structure JRec where
  type : Nat
  more : Bool := false
  tshard : Nat := 0
  epoch : Nat
  pair : Nat := 0
  arg0 : Nat := 0
  arg1 : Nat := 0
  arg2 : Nat := 0
  payload : List (BitVec 8) := []
  cmd : Option (Nat × Nat) := none
  issued : Bool := false
  confirmed : Bool := false
  folded : Option Nat := none
  done : JDone := .none
  dead : Bool := false            -- a DATA record whose block has no reference left
  at_ : Nat := 0                  -- arrival
deriving DecidableEq, Repr

/-- State of one replica of a journal page (R253). -/
inductive RepSt | issued (since : Nat) | done | failed
deriving DecidableEq, Repr

/-- A journal page: its lane, its records, its image, WSEQ, replicas by place. -/
structure JPage where
  lane : Nat
  recs : List Nat
  image : List (BitVec 8)
  used : Nat
  wseq : Nat
  reps : List (PageLoc × RepSt)
  was : List Nat := []            -- records it held before they were moved or erased
  released : Bool := false
deriving DecidableEq, Repr

/-- A wheel record (R258): frame, generation, sealed or not, live curd bytes, chunk places by stripe × 16 + column. -/
structure Wheel where
  pool : Nat
  gen : Nat
  frame : Nat
  sealed : Bool := false
  sealJsn : Nat := 0              -- last SEAL record
  live : Tab Nat := []            -- curd bytes of each live block, by LOCATOR / 2^40
  bytes : Nat := 0                -- curd bytes laid out
  locs : Tab PageLoc := []
  curds : Tab (Nat × Nat) := []   -- curds by byte offset: length and tenant of the key
  from_ : List (Nat × Nat) := []  -- (LOCATOR here, an older LOCATOR of the same block)
  freed : Bool := false           -- its frame has been freed
  pre : Tab PageLoc := []         -- chunks of patches a load completed: their pre-patch places, till resynchronised (R221)
deriving DecidableEq, Repr

/-- A catalogue entry (R257). -/
structure CatEntry where
  locator : Nat
  shard : Nat
  lost : Bool := false
  app : Nat := 0
  ref : Nat := 0
  dseq : Nat := 0                 -- dispatch order of the write that set it
deriving DecidableEq, Repr

/-- What the metadata pages of a checkpoint hold (R258): their bytes have no layout in the manual. Catalogue by volume ×
2^38 + block, wheels by WHEEL, forward table, live copies as (journal JSN, records). -/
structure Snapshot where
  gen : Nat
  epoch : Nat
  cut : Nat
  wseqHw : Nat
  nextWheel : Nat
  cat : Tab CatEntry := []
  wheels : Tab Wheel := []
  fwd : Tab Nat := []
  bands : List (Nat × Nat × Band) := []   -- blade, BAND, band of the shard
  recs : Tab JRec := []           -- unreleased records below the cut
  pages : Tab JPage := []
  bits : List (Nat × Nat) := []   -- intent bits: (pool, region)
  lost : Nat := 0                 -- stripes of the shard made LOST so far
  runs : List (List (BitVec 8)) := []   -- records of the flash-tier runs
deriving DecidableEq, Repr

end Machine

/-- The commands of the block. -/
inductive Instr
  /-- CSR_WRITE (R43): A write to a CSR that has no row of its own takes effect, or is refused by lock or by its rules, and configuration-class writes are audited. -/
  | csrWrite (origin : Origin) (addr : PAddr) (size : AccSize) (value : Word)
  /-- CSR_READ_MISALIGNED (R41): A CSR read that is not naturally aligned returns no data, records KIND 1 and faults the core. -/
  | csrReadMisaligned (origin : Origin) (addr : PAddr) (size : AccSize)
  /-- HOLE_ACCESS (R38): An access to an unmapped address faults the core or fails the DMA with ADDR_INVALID and records EV_BUS_HOLE. -/
  | holeAccess (origin : Origin) (addr : PAddr) (store : Bool)
  /-- VAT_WINDOW_ACCESS (R41): A core access to the Vat window is served, or is refused when it crosses an 8-byte boundary. -/
  | vatWindowAccess (origin : Origin) (addr : PAddr) (size : AccSize) (store : Option Word)
      (ce : Bool := false)
  /-- DB_PROD_WRITE (R56): A doorbell write of the producer index publishes descriptors, or is dropped for a foreign origin. -/
  | dbProdWrite (origin : Origin) (u : UnitId) (ring value : Nat)
  /-- DB_CHEAD_WRITE (R56): A doorbell write of the completion head releases completion entries. -/
  | dbCheadWrite (origin : Origin) (u : UnitId) (ring value : Nat)
  /-- DOORBELL_BAD_ACCESS (R41): A doorbell access of the wrong size or alignment is discarded and recorded as KIND 4. -/
  | doorbellBadAccess (origin : Origin) (u : UnitId) (off : Nat) (size : AccSize) (store : Bool)
  /-- RING_ENABLE (R57): RING_CTL.EN set on a DISABLED ring resets the indices and makes it ACTIVE, or ERROR on bad configuration. -/
  | ringEnable (origin : Origin) (u : UnitId) (ring : Nat)
  /-- RING_DISABLE (R57): RING_CTL.EN cleared disables a STOPPED ring, or starts disabling a ring in ERROR. -/
  | ringDisable (origin : Origin) (u : UnitId) (ring : Nat)
  /-- RING_DISABLE_DONE (R527): A ring in ERROR becomes DISABLED once every fetched descriptor has completed. -/
  | ringDisableDone (u : UnitId) (ring : Nat)
  /-- RING_STOP (R57): RING_CTL.STOP moves an ACTIVE ring to STOPPING in drain or flush mode. -/
  | ringStop (origin : Origin) (u : UnitId) (ring : Nat) (flush : Bool)
  /-- RING_STOP_DONE (R57): A STOPPING ring becomes STOPPED when its drain or flush has finished. -/
  | ringStopDone (u : UnitId) (ring : Nat)
  /-- RING_START (R57): RING_CTL.START resumes fetching on a STOPPED ring. -/
  | ringStart (origin : Origin) (u : UnitId) (ring : Nat)
  /-- DESCRIPTOR_FETCH (R52): A unit fetches a descriptor or whole chain when the completion ring has room. -/
  | descriptorFetch (u : UnitId) (ring : Nat)
  /-- DESCRIPTOR_START (R526): A unit starts a fetched descriptor or chain, after the general checks and any FENCE wait. -/
  | descriptorStart (u : UnitId) (d : DescRef)
  /-- MSI_HOLDOFF_EXPIRY (R53): The end of a HOLDOFF period raises one MSI covering the NOTIFY completions posted meanwhile. -/
  | msiHoldoffExpiry (u : UnitId) (ring : Nat)
  /-- UNIT_ENABLE (R528): A unit's EN becomes 1 and it begins fetching and serving work held while it was disabled. -/
  | unitEnable (origin : Origin) (u : UnitId)
  /-- RAIL_ENABLE (R87): RAIL_CTL.EN starts the Rail and training of its enabled ports. -/
  | railEnable (origin : Origin) (r : Rail)
  /-- RAIL_RESET (R87): RAIL_CTL.RESET returns every context of the Rail to RESET. -/
  | railReset (origin : Origin) (r : Rail)
  /-- RAIL_FAIL (R87): RAIL_CTL.FAIL forces the Rail into FAILED with FAIL_CAUSE 1. -/
  | railFail (origin : Origin) (r : Rail)
  /-- RAIL_INTERNAL_ERROR (R87): An uncorrectable transport or context-cache error, or loss of the power domain, puts the Rail in FAILED. -/
  | railInternalError (r : Rail) (cause : Nat)
  /-- PORT_LINK_CHANGE (R91): A logical port gains or loses link. -/
  | portLinkChange (lport : Nat) (up fec : Bool) (codewords : Nat)
  /-- RX_FRAME (R66): A frame arrives at a physical port and enters the receive buffer or is dropped. -/
  | rxFrame (frame : Frame)
  /-- ROCE_PACKET_RX (R69): A RoCEv2 packet is processed for its context, running responder checks and queue-pair state changes. -/
  | rocePacketRx (port : Nat)
  /-- CTX_FETCH_DONE (R71): A context fetch from DRAM completes and its held packets are processed in arrival order. -/
  | ctxFetchDone (c : Nat) (bad : Bool)
  /-- CNP_RX (R80): A received CNP cuts the rate of the QP and restarts its rise timer. -/
  | cnpRx (port : Nat)
  /-- RATE_RISE (R80): The rise timer of a context expires and raises its rate toward the target. -/
  | rateRise (c : Nat)
  /-- LOCAL_ACK_TIMEOUT (R67): The local ACK timeout of a QP expires and triggers a resend or ERR on retry exhaustion. -/
  | localAckTimeout (c : Nat)
  /-- MR_INVALIDATE_ACK (R74): The last Rail acknowledges the invalidation, fixing the visibility point. -/
  | mrInvalidateAck (r : Rail) (key : Nat)
  /-- MR_DRAIN_LIMIT_EXPIRY (R75): The drain limit of an invalidate expires, errors the QPs still holding messages and completes it. -/
  | mrDrainLimitExpiry (key : Nat)
  /-- ODP_RESUME (R78): A write of RDMA_ODP_RESUME releases the held access of a context. -/
  | odpResume (r : Rail) (c : Nat)
  /-- ODP_TIMEOUT_EXPIRY (R78): An unresolved ODP fault times out and its QP enters ERR. -/
  | odpTimeoutExpiry (c : Nat)
  /-- TCP_SEGMENT_RX (R82): A TCP segment of an installed connection is processed, including NVMe/TCP PDU checks. -/
  | tcpSegmentRx (port : Nat)
  /-- TCP_RTO_EXPIRY (R82): The retransmission timer of an offloaded connection expires, resends and sets the rate to R_MIN. -/
  | tcpRtoExpiry (c : Nat)
  /-- QP_MODIFY (R69): Rail descriptor that changes the state of a queue pair. -/
  | qpModify (r : Rail) (d : DescRef)
  /-- QP_QUERY (R84): Rail descriptor that writes a context image to memory. -/
  | qpQuery (r : Rail) (d : DescRef)
  /-- MR_REGISTER (R84): Descriptor on a common ring that registers a memory region. -/
  | mrRegister (d : DescRef)
  /-- MR_INVALIDATE (R74): Descriptor that invalidates a region key and drains the messages checked before the visibility point. -/
  | mrInvalidate (d : DescRef)
  /-- POST_SEND (R84): Rail descriptor that posts a send, write or read work request. -/
  | postSend (r : Rail) (d : DescRef)
  /-- POST_RECV (R84): Rail descriptor that posts a receive buffer. -/
  | postRecv (r : Rail) (d : DescRef)
  /-- PKT_TX (R84): Rail descriptor that sends a slow-path frame. -/
  | pktTx (r : Rail) (d : DescRef)
  /-- PKT_RX_BUF (R86): Rail descriptor that offers a buffer for slow-path frames. -/
  | pktRxBuf (r : Rail) (d : DescRef)
  /-- TCP_INSTALL (R85): Rail descriptor chain that installs an established TCP connection. -/
  | tcpInstall (r : Rail) (d : DescRef)
  /-- TCP_RELEASE (R82): Rail descriptor that hands an offloaded connection back to software. -/
  | tcpRelease (r : Rail) (d : DescRef)
  /-- ODP_WAIT (R76): Rail descriptor that waits for the next ODP fault report. -/
  | odpWait (r : Rail) (d : DescRef)
  /-- CAPSULE_ARRIVAL (R102): A command capsule arrives, is placed in a pail and is assigned a context, or waits for one. -/
  | capsuleArrival
  /-- NVME_READ (R93): NVMe Read command executed through the write index or the map. -/
  | nvmeRead (k : Nat) (ms : List Medium)
  /-- NVME_WRITE (R93): NVMe Write command driven through fingerprint, reduction, encryption and journal. -/
  | nvmeWrite (k : Nat)
  /-- NVME_FLUSH (R114): NVMe Flush command that completes as soon as it is dispatched. -/
  | nvmeFlush (k : Nat)
  /-- NVME_WRITE_ZEROES (R98): NVMe Write Zeroes command, deallocating with DEAC. -/
  | nvmeWriteZeroes (k : Nat) (ms : List Medium)
  /-- NVME_DATASET_MANAGEMENT (R98): NVMe Dataset Management deallocate command. -/
  | nvmeDatasetManagement (k : Nat)
  /-- NVME_VERIFY (R93): NVMe Verify command that checks protection information without transfer. -/
  | nvmeVerify (k : Nat) (ms : List Medium)
  /-- SECURE_DEALLOCATE (R124): Vendor I/O command that removes a range and erases every unneeded physical copy. -/
  | secureDeallocate (k : Nat) (ms : List Medium)
  /-- NVME_ABORT (R115): Admin Abort answered in hardware as not aborted. -/
  | nvmeAbort (k : Nat)
  /-- NVME_KEEP_ALIVE (R113): Admin Keep Alive answered in hardware and restarting the keep-alive timer. -/
  | nvmeKeepAlive (k : Nat)
  /-- NVME_ASYNC_EVENT_REQUEST (R94): Admin Asynchronous Event Request held in hardware, up to four per controller. -/
  | nvmeAsyncEventRequest (k : Nat)
  /-- BUDGET_REFILL (R103): At each management tick tenant token buckets are refilled up to their bursts. -/
  | budgetRefill
  /-- BUDGET_GATE_PASS (R103): A waiting command passes its tenant's budget gate once tokens suffice. -/
  | budgetGatePass (k : Nat)
  /-- DISPATCH (R104): The Parlour dispatches the next eligible command by class and tenant arbitration. -/
  | dispatch
  /-- AGE_LIMIT_EXPIRY (R105): A command's class age limit expires and it is promoted to Urgent. -/
  | ageLimitExpiry (k : Nat)
  /-- PAYLOAD_COMPLETE (R107): A write's payload is complete in its pail and enters the Vat write index. -/
  | payloadComplete (k : Nat) (ms : List Medium)
  /-- HOLD_LIMIT_EXPIRY (R119): A command held on a moving shard times out with Asymmetric Access Transition. -/
  | holdLimitExpiry (k : Nat)
  /-- KEEP_ALIVE_EXPIRY (R113): The keep-alive timer of a controller expires and is handled as an association loss. -/
  | keepAliveExpiry (cntlid : Nat)
  /-- ASSOCIATION_LOSS (R109): Loss of a transport association cuts every queue of the controller at one cut point. -/
  | associationLoss
  /-- QUEUE_DELETION_DONE (R111): A queue deletion or controller reset completes once aborts are posted and committed commands finished. -/
  | queueDeletionDone (i : Nat)
  /-- VOL_SET (R127): Parlour descriptor that writes a volume table entry. -/
  | volSet (d : DescRef)
  /-- TENANT_SET (R100): Parlour descriptor that writes a tenant table entry. -/
  | tenantSet (d : DescRef)
  /-- QUEUE_BIND (R101): Parlour descriptor that binds an NVMe queue to a context with its class. -/
  | queueBind (d : DescRef)
  /-- QUEUE_DELETE (R109): Parlour descriptor that deletes an I/O queue at a cut point. -/
  | queueDelete (d : DescRef)
  /-- CTRL_RESET (R109): Parlour descriptor that resets a controller or signals association loss. -/
  | ctrlReset (d : DescRef)
  /-- ADMIN_FETCH (R128): Parlour descriptor that waits for and returns an admin or Fabrics capsule. -/
  | adminFetch (d : DescRef)
  /-- ADMIN_COMPLETE (R94): Parlour descriptor that sends software's answer to an admin command. -/
  | adminComplete (d : DescRef)
  /-- AEN_POST (R127): Parlour descriptor that completes an Asynchronous Event Request. -/
  | aenPost (d : DescRef)
  /-- ANA_READ (R128): Parlour descriptor that writes the ANA log page from the shard state table. -/
  | anaRead (d : DescRef)
  /-- PAR_PEAK_CLEAR (R102): A write of PAR_CTX_STATUS.PEAK_CLR sets PEAK to IN_USE. -/
  | parPeakClear (origin : Origin)
  /-- INLINE_FINGERPRINT (R180): The Press computes the HMAC fingerprint of a written block under its domain key. -/
  | inlineFingerprint (k i : Nat)
  /-- INLINE_LOOKUP (R144): A delivered fingerprint is looked up in the index and answered DUPLICATE, UNIQUE or UNIQUE_NOINSERT. -/
  | inlineLookup (k i : Nat)
  /-- INDEX_BUCKET_READ_DONE (R146): The DRAM-tier bucket reads of a filter miss complete and the lookup is answered. -/
  | indexBucketReadDone (k i : Nat)
  /-- VERIFY_COMPARE_DONE (R147): The verify-mode comparison of a duplicate candidate ends equal or unequal. -/
  | verifyCompareDone (k i : Nat) (ms : List Medium)
  /-- DOMAIN_SET (R136): Separator descriptor that writes a domain table entry. -/
  | domainSet (d : DescRef)
  /-- LOOKUP (R156): Separator descriptor that looks up a fingerprint, optionally taking a hold. -/
  | lookup (d : DescRef)
  /-- INSERT (R156): Separator descriptor that inserts an index entry. -/
  | insert (d : DescRef)
  /-- REF_ADJUST (R150): Separator descriptor that changes a reference count, releases a hold, freezes or thaws an entry. -/
  | refAdjust (d : DescRef)
  /-- RELOCATE (R152): Separator descriptor that changes the LOCATOR of a VALID entry. -/
  | relocate (d : DescRef)
  /-- MERGE_SCAN (R157): Separator descriptor that probes run records against the DRAM tier. -/
  | mergeScan (d : DescRef)
  /-- SHARD_STATE (R153): Separator descriptor that sets a shard partition state. -/
  | shardState (d : DescRef)
  /-- SHARD_DROP_DONE (R153): A DROPPING partition frees its entries and becomes ABSENT once holds and PENDING entries are zero. -/
  | shardDropDone (shard : Nat)
  /-- INLINE_COMPRESS (R159): A Churn lane compresses a written block into a JOURNAL curd on the inline path. -/
  | inlineCompress (k i : Nat)
  /-- INLINE_DECOMPRESS (R166): A Churn lane decompresses and checks a curd for a read. -/
  | inlineDecompress (k i : Nat) (ms : List Medium)
  /-- COMPRESS (R169): Churn descriptor that compresses 1 to 8 blocks into a curd. -/
  | compress (d : DescRef)
  /-- DECOMPRESS (R166): Churn descriptor that checks and decompresses a curd, or compares a block. -/
  | decompress (d : DescRef)
  /-- RECAST (R168): Churn descriptor chain that recompresses blocks from up to 8 curds into one. -/
  | recast (d : DescRef)
  /-- DICT_LOAD (R162): Churn descriptor that parses and binds a dictionary. -/
  | dictLoad (d : DescRef)
  /-- DICT_DROP (R172): Churn descriptor that drops a dictionary ID. -/
  | dictDrop (d : DescRef)
  /-- CHURN_LANE_FAULT (R171): An uncorrectable error in a Churn lane fails its work and takes the lane out of service. -/
  | churnLaneFault (lane : Fin 16) (job : LaneJob)
  /-- HASH (R186): Press descriptor that opens, feeds or finishes a hash job on a context. -/
  | hash (d : DescRef)
  /-- CTX_CLOSE (R192): Press descriptor that closes a context after its started descriptors complete. -/
  | ctxClose (d : DescRef)
  /-- PRESS_RESULT_READ (R190): A read of a result register returns the result, or 0 with EARLY_READ or FOREIGN_READ set. -/
  | pressResultRead (origin : Origin) (c : Fin 64) (w : Fin 8)
  /-- LEGACY_START (R193): PRESS_LEG_CTL.START takes the legacy lock and begins a word-feed job. -/
  | legacyStart (origin : Origin) (alg length : Nat)
  /-- LEGACY_RELEASE (R193): PRESS_LEG_CTL.RELEASE frees and zeroes the legacy context. -/
  | legacyRelease (origin : Origin)
  /-- LEGACY_FINAL (R196): PRESS_LEG_CTL.FINAL ends the message or reports an underrun. -/
  | legacyFinal (origin : Origin)
  /-- LEGACY_KEY (R195): A write of PRESS_LEG_KEY binds the key handle of a legacy HMAC job. -/
  | legacyKey (origin : Origin) (handle : Word)
  /-- LEGACY_DATA (R196): A write of PRESS_LEG_DATA feeds one message word, or records an overrun or FIFO overflow. -/
  | legacyData (origin : Origin) (word : Word) (drained : Nat)
  /-- LEGACY_HASH_DONE (R195): Processing of FINAL ends and the legacy result becomes valid. -/
  | legacyHashDone
  /-- LEGACY_RESULT_READ (R194): A read of PRESS_LEG_RESULT returns the result to the owner when DONE, and otherwise 0. -/
  | legacyResultRead (origin : Origin) (w : Fin 8)
  /-- LEGACY_IDLE_EXPIRY (R193): IDLE_LIMIT passes without owner access and the legacy lock is released. -/
  | legacyIdleExpiry
  /-- PRESS_LANE_FAULT (R198): An uncorrectable error in a Press lane fails its work and takes the lane out of service. -/
  | pressLaneFault (lane : Fin 16) (job : LaneJob)
  /-- ENCODE (R233): Carcase descriptor that computes parity chunks. -/
  | encode (d : DescRef)
  /-- DECODE (R215): Carcase descriptor that reconstructs missing columns. -/
  | decode (d : DescRef)
  /-- PATCH_DELTA (R220): Carcase descriptor that updates parities for a patched data column. -/
  | patchDelta (d : DescRef)
  /-- VERIFY (R234): Carcase descriptor that checks a stripe's syndromes and locates a wrong column. -/
  | verify (d : DescRef)
  /-- LOCATE (R233): Carcase descriptor that returns the cutting line of a stripe. -/
  | locate (d : DescRef)
  /-- INTENT_ACQUIRE (R219): Carcase descriptor that makes a region's intent bit durable. -/
  | intentAcquire (d : DescRef) (ms : List Medium)
  /-- INTENT_RELEASE (R219): Carcase descriptor that releases an open intent of a region. -/
  | intentRelease (d : DescRef)
  /-- REBUILD_CTL (R217): Carcase descriptor that starts, pauses, resumes, abandons, fails or evacuates a blade. -/
  | rebuildCtl (d : DescRef)
  /-- RESYNC (R222): Carcase descriptor that resynchronises regions of a shard. -/
  | resync (d : DescRef) (ms : List Medium)
  /-- GEN_SET (R209): Carcase descriptor that writes or releases a generation slot. -/
  | genSet (d : DescRef)
  /-- REBUILD_EN_SET (R217): Setting CARC_CTL.REBUILD_EN starts queued rebuilds and evacuations. -/
  | rebuildEnSet (origin : Origin)
  /-- GRACE_EXPIRY (R217): The grace timer of an ABSENT blade expires and it becomes FAILED. -/
  | graceExpiry (b : Fin 16)
  /-- CHUNK_READ_TIMEOUT (R236): RD_TIMEOUT expires on a chunk read and the column counts as missing. -/
  | chunkReadTimeout (k i : Nat) (ms : List Medium)
  /-- INTENT_FLUSH (R219): The FLUSH spacing ends and bitmap pages with clearable bits are programmed. -/
  | intentFlush (ms : List Medium)
  /-- PATROL_STRIPE (R224): The patrol visits a stripe, computes syndromes and repairs or flags it. -/
  | patrolStripe (ms : List Medium)
  /-- REBUILD_STRIPE (R227): Rebuild reconstructs a stripe's lost chunks onto target blades or refolds the frame. -/
  | rebuildStripe (b : Fin 16) (ms : List Medium)
  /-- RESYNC_REGION (R222): Resynchronisation of a dirty region restores missing chunks and rewrites differing parity. -/
  | resyncRegion (shard : Fin 256) (pool : Fin 16) (region : Nat) (ms : List Medium)
  /-- CARC_LANE_FAULT (R235): An uncorrectable error in a Carcase lane fails its work and takes the lane out of service. -/
  | carcLaneFault (lane : Fin 16) (job : LaneJob)
  /-- JOURNAL_PAGE_PROGRAM (R249): The Cellar programs a lane's next journal page on every replica. -/
  | journalPageProgram (shard : Fin 256) (lane : Fin 8) (ms : List Medium)
  /-- JOURNAL_HOLD_EXPIRY (R249): HOLD passes on a part-filled journal page and it is programmed. -/
  | journalHoldExpiry (shard : Fin 256) (lane : Fin 8) (ms : List Medium)
  /-- REPLICA_TIMEOUT (R253): A replica silent for TIMEOUT is declared failed and a replacement chosen. -/
  | replicaTimeout (shard : Fin 256) (page : Nat) (blade : Fin 16) (ms : List Medium)
  /-- BLADE_COMPLETION (R293): A blade completion entry arrives and is delivered to its issuing unit. -/
  | bladeCompletion (b i : Nat)
  /-- REMIRROR (R254): Unreleased pages of a lane are re-mirrored to a replacement replica. -/
  | remirror (shard : Fin 256) (lane : Fin 8) (ms : List Medium)
  /-- FOLD (R256): The Cellar folds a shard's journal records of one pool into a wheel. -/
  | fold (shard : Fin 256) (pool : Fin 16) (ms : List Medium)
  /-- FOLD_AGE_EXPIRY (R255): The oldest unfolded record reaches AGE and a fold starts. -/
  | foldAgeExpiry (shard : Fin 256) (pool : Fin 16) (ms : List Medium)
  /-- CHECKPOINT_PERIOD_EXPIRY (R259): PERIOD passes and a checkpoint of the shard starts. -/
  | checkpointPeriodExpiry (shard : Fin 256) (ms : List Medium)
  /-- CHECKPOINT_LATE_EXPIRY (R259): A checkpoint not durable within four PERIODs records EV_CKPT_LATE. -/
  | checkpointLateExpiry (shard : Fin 256)
  /-- GC_VICTIM_COLLECT (R264): Band garbage collection moves the live chunks of a victim band. -/
  | gcVictimCollect (blade : Fin 16) (shard : Fin 256) (ms : List Medium)
  /-- WEAR_LEVEL_CHECK (R269): WL_PERIOD passes and the spread of erase counts is checked. -/
  | wearLevelCheck (blade : Fin 16) (ms : List Medium)
  /-- WHEEL_RECLAIM (R265): A sparse sealed wheel is refolded and its frame freed. -/
  | wheelReclaim (shard : Fin 256) (wheel : Nat) (ms : List Medium)
  /-- HEALTH_PERIOD_EXPIRY (R278): The health PERIOD passes and a PERIODIC entry is written per attached blade. -/
  | healthPeriodExpiry
  /-- BLADE_ATTACH (R267): Cellar descriptor that attaches a blade, erasing deferred or all bands. -/
  | bladeAttach (d : DescRef) (ms : List Medium)
  /-- BLADE_DETACH (R280): Cellar descriptor that detaches a blade without live content. -/
  | bladeDetach (d : DescRef)
  /-- LANE_SET (R248): Cellar descriptor that sets or removes a journal lane of a shard. -/
  | laneSet (d : DescRef)
  /-- SHARD_LOAD (R273): Cellar descriptor that loads a shard from anchors, root, tail scan and replay. -/
  | shardLoad (d : DescRef) (img : Option Machine.Snapshot) (ms : List Medium)
  /-- SHARD_RELEASE (R277): Cellar descriptor that releases a shard with a final checkpoint. -/
  | shardRelease (d : DescRef) (ms : List Medium)
  /-- CHECKPOINT (R259): Cellar descriptor that forces a checkpoint of a shard. -/
  | checkpoint (d : DescRef) (ms : List Medium)
  /-- FOLD_NOW (R255): Cellar descriptor that folds every pool of a shard. -/
  | foldNow (d : DescRef) (ms : List Medium)
  /-- RECLAIM (R265): Cellar descriptor that forces reclaim of a wheel. -/
  | reclaim (d : DescRef) (ms : List Medium)
  /-- HEALTH_NOW (R278): Cellar descriptor that writes a health entry for a blade now. -/
  | healthNow (d : DescRef)
  /-- PRSNT_CHANGE (R288): BLD_b_PRSNT_N changes level at a Blade Port. -/
  | prsntChange (b : Fin 16) (low : Bool)
  /-- PRSNT_DEBOUNCE_EXPIRY (R288): PRSNT_N has been low for 160 ticks and the port enters RESET. -/
  | prsntDebounceExpiry (b : Fin 16)
  /-- PORT_RESET_EXPIRY (R288): 160 ticks in RESET pass and PERST_N is released for training. -/
  | portResetExpiry (b : Fin 16)
  /-- BLADE_LINK_TRAINED (R288): A blade link reaches L0 in FLIT mode and the port enters INIT. -/
  | bladeLinkTrained (b : Fin 16) (port : Fin 2) (width : Fin 4) (speed32 flit : Bool) (major : Nat)
  /-- BLADE_TRAINING_TIMEOUT (R288): Training does not succeed within 160 ticks and the port enters DOWN. -/
  | bladeTrainingTimeout (b : Fin 16)
  /-- BLADE_RDY_SEEN (R312): BCP_CS.RDY is seen set and the port completes initialisation to READY. -/
  | bladeRdySeen (b : Fin 16)
  /-- BLADE_RDY_TIMEOUT (R288): RDY is not set within 10 s and the port enters DOWN. -/
  | bladeRdyTimeout (b : Fin 16)
  /-- BLADE_FATAL_SEEN (R288): BCP_CS.FATAL is read as 1 and the port enters DOWN. -/
  | bladeFatalSeen (b : Fin 16)
  /-- DL_DOWN (R288): The data link of a READY port goes down. -/
  | dlDown (b : Fin 16)
  /-- UNREACH_EXPIRY (R288): No completion arrives for UNREACH ticks with commands outstanding. -/
  | unreachExpiry (b : Fin 16)
  /-- PORT_DOWN_EXPIRY (R288): 160 ticks in DOWN pass and the port returns to RESET or EMPTY. -/
  | portDownExpiry (b : Fin 16)
  /-- PORT_RESET (R288): BLD_PORT_CTL_b.RESET forces the port through DOWN into RESET. -/
  | portReset (b : Fin 16) (origin : Origin)
  /-- COMMAND_TIMEOUT_EXPIRY (R312): A blade command passes CMD_TIMEOUT and completes to its issuer with CMD_TIMEOUT. -/
  | commandTimeoutExpiry (b i : Nat)
  /-- PASS (R313): Blade Ports descriptor that passes a read-only BCP command to a blade. -/
  | pass (d : DescRef)
  /-- BCP_SQ_DOORBELL (R294): A write of a blade submission doorbell makes the blade take the commands up to TAIL. -/
  | bcpSqDoorbell (b port queue : Nat) (cmds : List PeerCmd)
  /-- BCP_CC_WRITE (R289): A write of BCP_CC.EN activates or empties the blade port's queues. -/
  | bcpCcWrite (b port : Nat) (en : Bool)
  /-- BCP_READ (R296): Blade command that returns one page or part of it. -/
  | bcpRead (b i : Nat) (m : Medium)
  /-- BCP_PROGRAM (R297): Blade command that programs one page. -/
  | bcpProgram (b i : Nat) (m : Medium)
  /-- BCP_ERASE (R299): Blade command that erases one block and counts it. -/
  | bcpErase (b i : Nat) (m : Medium)
  /-- BCP_CLAIM (R300): Blade command that grants a band's blocks to a shard, all or none. -/
  | bcpClaim (b i : Nat)
  /-- BCP_RETIRE (R299): Blade command that marks a claimed block bad. -/
  | bcpRetire (b i : Nat)
  /-- SET_EPOCH (R304): Blade command that installs a new epoch for a shard. -/
  | setEpoch (b i : Nat)
  /-- RENEW (R306): Blade command that renews the lease of up to 64 shards. -/
  | renew (b i : Nat)
  /-- LEASE_RELEASE (R306): Blade command that marks a shard's epoch released. -/
  | leaseRelease (b i : Nat)
  /-- EPOCH_READ (R301): Blade command that returns a shard's epoch record and silence. -/
  | epochRead (b i : Nat)
  /-- BCP_IDENTIFY (R301): Blade command that returns identify data. -/
  | bcpIdentify (b i : Nat)
  /-- BCP_HEALTH (R301): Blade command that returns health counters. -/
  | bcpHealth (b i : Nat) (temp : Int) (die : Nat)
  /-- CLAIM_LIST (R301): Blade command that lists the blocks claimed by a shard. -/
  | claimList (b i : Nat)
  /-- EC_READ (R301): Blade command that returns the erase counts of a die. -/
  | ecRead (b i : Nat)
  /-- WIPE (R308): Blade command that erases every block with the other port's consent. -/
  | wipe (b i : Nat)
  /-- WIPE_CONSENT (R308): Blade command that grants consent to a WIPE from the other port. -/
  | wipeConsent (b i : Nat)
  /-- PERST_ASSERT (R309): PERST_N or loss of link on one blade port discards that port's unaccepted commands only. -/
  | perstAssert (b port : Nat) (perst : Bool)
  /-- BLADE_POWER_UP (R302): A blade powers up, finds its durable records whole and starts every silence. -/
  | bladePowerUp (b : Nat) (fresh : Option NewBlade) (whole : Bool)
  /-- TENON_ENABLE (R319): TEN_CTL.EN set or cleared enables or disables the Tenon link. -/
  | tenonEnable (origin : Origin) (en : Bool)
  /-- TENON_RETRAIN (R319): TEN_CTL.RETRAIN forces the link into RETRAIN. -/
  | tenonRetrain (origin : Origin)
  /-- TENON_SIGNAL_DETECT (R319): Signal appears on enough lanes and training starts. -/
  | tenonSignalDetect (lanes : Nat)
  /-- TENON_TRAIN_DONE (R319): Equalisation and deskew finish and the width is chosen. -/
  | tenonTrainDone (good use : Nat) (reversed : Bool)
  /-- TENON_TRAIN_TIMEOUT (R319): Training exceeds 160 ticks and the link goes DOWN. -/
  | tenonTrainTimeout
  /-- TENON_EXCHANGE (R319): The version, head number and CHIP_TIME exchange makes the link ACTIVE or DOWN. -/
  | tenonExchange (version : Nat) (head : Fin 2) (time : Nat)
  /-- FLIT_SILENCE_EXPIRY (R319): No valid flit arrives for 16,000 ticks and the link enters RETRAIN. -/
  | flitSilenceExpiry
  /-- TENON_RETRAIN_DONE (R319): The link retrains within 1 ms and replays from the last acknowledged flit. -/
  | tenonRetrainDone (good use : Nat) (reversed : Bool)
  /-- TENON_RETRAIN_TIMEOUT (R319): RETRAIN lasts 1 ms and the link goes DOWN, discarding the replay buffer. -/
  | tenonRetrainTimeout
  /-- TENON_DOWN_EXPIRY (R319): 160 ticks in DOWN pass and detection restarts. -/
  | tenonDownExpiry
  /-- FLIT_RX (R322): A flit is checked, acknowledged or NAKed and replay requested. -/
  | flitRx (good corrected : Bool) (fseq ack : Fin 1024) (nak : Bool)
  /-- CTRL_CREDIT (R324): A CTRL message returns credits of a message class. -/
  | ctrlCredit (key n : Nat)
  /-- TIME_REQ_PERIOD (R325): The slave's exchange PERIOD passes and it sends TIME_REQ. -/
  | timeReqPeriod
  /-- TIME_REQ (R325): The master receives TIME_REQ and answers with TIME_RESP. -/
  | timeReq (t1 : Nat)
  /-- TIME_RESP (R326): The slave receives TIME_RESP, computes its offset and steps, slews or trims. -/
  | timeResp (t1 t2 t3 : Nat)
  /-- TIME_SLEW (R326): A 4,096-tick window ends and the slave adds or withholds one tick. -/
  | timeSlew
  /-- TIME_SYNC_LAPSE (R326): 16 management ticks pass without an exchange and SYNCED falls to 0. -/
  | timeSyncLapse
  /-- FWD_REQ (R327): A forwarded command capsule with its data arrives at the owner. -/
  | fwdReq (tag : Nat) (cls : Fin 4) (tenant : Nat) (shard : Fin 256) (capsule data : List (BitVec 8))
  /-- FWD_RSP (R327): A forwarded completion with read data returns to the receiving head. -/
  | fwdRsp (tag status dw0 dw1 : Nat) (data : List (BitVec 8)) (confirm : Bool)
  /-- FWD_CANCEL (R112): A cancel of a forwarded command is settled by the owner under its own commit point. -/
  | fwdCancel (tag : Nat)
  /-- FWD_WAIT_EXPIRY (R330): FWD_WAIT passes with the link down and the associations of forwarded commands are lost. -/
  | fwdWaitExpiry
  /-- REEXECUTION_DISPATCH (R329): Commands of the re-execution list are dispatched or forwarded again when the shard resolves. -/
  | reexecutionDispatch (shard : Fin 256) (ms : List Medium)
  /-- MAINT_INCREMENT (R155): A reference-count increment arrives from the peer and is journaled in the owner's shard. -/
  | maintIncrement (tag : Nat) (shard : Fin 256) (locator count : Nat)
  /-- MAINT_DEFER_ERASE (R311): A peer's request to erase a deferred band under this head's epoch arrives. -/
  | maintDeferErase (tag : Nat) (blade : Fin 16) (shard : Fin 256) (bands : List Nat) (ms : List Medium)
  /-- PEER_WIPE_CONSENT (R308): A request for WIPE consent arrives from the peer. -/
  | peerWipeConsent (tag : Nat) (blade : Fin 16)
  /-- PEER_REG_WRITE (R324): A peer register write arrives and is accepted or refused by TEN_REG_ALLOW. -/
  | peerRegWrite (tag nn : Nat) (addr : PAddr) (value : Word)
  /-- MAIL_RX (R348): A software mail message arrives and completes a MAIL_RECV. -/
  | mailRx (tag : Nat) (bytes : List (BitVec 8))
  /-- MAIL_SEND (R348): Tenon descriptor that sends a software message. -/
  | mailSend (d : DescRef)
  /-- MAIL_RECV (R348): Tenon descriptor that waits for a software message. -/
  | mailRecv (d : DescRef)
  /-- RENEW_ROUND (R332): The RENEW interval passes and a renew round and NOTE are sent. -/
  | renewRound
  /-- LEASE_EXPIRY (R333): A lease term ends without renewal and the shard is dropped. -/
  | leaseExpiry (sh : Nat)
  /-- LEASE_TAIL_END (R333): 2 ms after expiry no more data or completions of the shard may leave and pending reads are listed. -/
  | leaseTailEnd (sh : Nat)
  /-- QUIET_END (R334): 2 ms after the win the shard becomes HELD and mutations are allowed. -/
  | quietEnd (sh : Nat)
  /-- RELEASE_READ_DEADLINE (R335): 2 ms after LEASE_RELEASE the old owner's undelivered reads are discarded. -/
  | releaseReadDeadline (sh : Nat)
  /-- NOTE (R336): The peer's NOTE listing its held shards arrives. -/
  | note (shards : List (Nat × Nat × Nat)) (running : Bool)
  /-- NOTE_SILENCE_EXPIRY (R336): Two renew periods pass without a NOTE listing a PEER_HELD shard. -/
  | noteSilenceExpiry (sh : Nat)
  /-- OFFER (R336): The peer offers a shard and this head takes it or refuses. -/
  | offer (sh epoch : Nat)
  /-- WON (R336): The peer reports it won a shard being released here. -/
  | won (sh epoch w : Nat)
  /-- REFUSE (R336): The peer refuses an offer and the handoff commit fails. -/
  | refuse (sh : Nat)
  /-- LOST (R336): The peer reports a shard's lease lost. -/
  | lost (sh : Nat)
  /-- ABDICATE (R339): An ABDICATE message arrives and the peer is declared lost. -/
  | abdicate (cause : Nat)
  /-- TAKE_LIMIT_EXPIRY (R342): TAKE_LIMIT passes without a majority or without WON. -/
  | takeLimitExpiry (sh : Nat)
  /-- TAKEOVER_SILENCE_REACHED (R341): A blade's silence reaches EFFECTIVE plus 1 ms and SET_EPOCH is sent to it. -/
  | takeoverSilenceReached (sh b : Nat)
  /-- HB_OUT_TOGGLE (R338): Every 800,000 ticks HB_OUT toggles. -/
  | hbOutToggle
  /-- HB_IN_EDGE (R338): An edge on HB_IN restarts the heartbeat window. -/
  | hbInEdge
  /-- HB_LOSS_EXPIRY (R339): The heartbeat window closes without an edge. -/
  | hbLossExpiry
  /-- WATCHDOG_KICK (R340): A write of LEASE_WDOG.KICK restarts the software watchdog. -/
  | watchdogKick (origin : Origin)
  /-- WATCHDOG_EXPIRY (R340): The software watchdog runs out and the head abdicates. -/
  | watchdogExpiry
  /-- ABDICATE_WRITE (R340): A write of LEASE_CTL.ABDICATE makes the head abdicate. -/
  | abdicateWrite (origin : Origin)
  /-- FATAL_MACHINE_CHECK (R340): A machine-check error fatal to the head makes it abdicate. -/
  | fatalMachineCheck
  /-- DRILL_DUE (R345): A shard's drill instant arrives and the owner's EVENT_WAIT reports it. -/
  | drillDue (sh : Nat)
  /-- DRILL_GRACE_EXPIRY (R345): GRACE passes without the drill handoff and the drill counts as missed. -/
  | drillGraceExpiry (sh : Nat)
  /-- HANDOFF_BEGIN (R344): Lease descriptor that starts releasing a shard and holds its writes. -/
  | handoffBegin (d : DescRef)
  /-- HANDOFF_COMMIT (R344): Lease descriptor that releases the shard on every blade and offers it. -/
  | handoffCommit (d : DescRef)
  /-- HANDOFF_ABORT (R336): Lease descriptor that returns a releasing shard to HELD before commit. -/
  | handoffAbort (d : DescRef)
  /-- TAKE (R341): Lease descriptor that takes over a shard. -/
  | take (d : DescRef)
  /-- DRAIN (R346): Lease descriptor that drains the head and completes when DRAINED. -/
  | drain (d : DescRef)
  /-- UNDRAIN (R346): Lease descriptor that returns the head to RUNNING. -/
  | undrain (d : DescRef)
  /-- EVENT_WAIT (R349): Lease descriptor that waits for the next lease event. -/
  | eventWait (d : DescRef)
  /-- COOLER_ACCESS (R357): A core miss or unit DMA reaches its home slice and hits, merges or takes a miss register. -/
  | coolerAccess (port : CoolPort) (addr : Nat) (store : Option (List Byte)) (err : CoolErr)
  /-- COOLER_FILL_DONE (R357): A DRAM fill arrives and serves the merged requests in order. -/
  | coolerFillDone (line : Nat) (err : DramErr)
  /-- EVICTION_WRITE_ACCEPTED (R358): A DDR5 controller accepts a dirty victim's write from the eviction buffer. -/
  | evictionWriteAccepted (line : Nat) (together : Option (CoolPort × Nat × Option (List Byte)))
  /-- L2_WRITEBACK (R357): A core evicts a dirty L2 line into the Cooler. -/
  | l2Writeback (core : Nat) (line : Nat)
  /-- CBO_CLEAN (R360): Core instruction that writes a dirty block back to DRAM. -/
  | cboClean (addr : Nat)
  /-- CBO_FLUSH (R360): Core instruction that cleans and invalidates a block. -/
  | cboFlush (addr : Nat)
  /-- CBO_INVAL (R360): Core instruction performed as CBO.FLUSH. -/
  | cboInval (addr : Nat)
  /-- CLEAN_RANGE (R361): Cooler descriptor that cleans a range. -/
  | cleanRange (d : DescRef)
  /-- FLUSH_RANGE (R361): Cooler descriptor that flushes a range. -/
  | flushRange (d : DescRef)
  /-- CLEAN_ALL (R361): Cooler descriptor that cleans every line. -/
  | cleanAll (d : DescRef)
  /-- FLUSH_WAYS (R361): Cooler descriptor that flushes the named ways in every slice. -/
  | flushWays (d : DescRef)
  /-- SLICE_RETIRE (R363): Cooler descriptor that moves a slice's residue onto a partner. -/
  | sliceRetire (d : DescRef)
  /-- SLICE_RESTORE (R363): Cooler descriptor that returns a retired slice to service. -/
  | sliceRestore (d : DescRef)
  /-- COOLER_DISABLE (R362): COOL_CTL.EN cleared starts draining every way. -/
  | coolerDisable (origin : Origin)
  /-- COOLER_DRAIN_DONE (R362): The last way is drained and the Cooler is OFF. -/
  | coolerDrainDone
  /-- PAIL_REQUEST (R366): A unit asks the Vat for 1 to 16 pails of a class, granted at once or waiting. -/
  | pailRequest (n id cls count : Nat)
  /-- PAIL_RELEASE (R367): A pail's last user releases it and waiting requests are granted in order. -/
  | pailRelease (pail : Nat)
  /-- VAT_ALARM_EXPIRY (R366): A pail request waits longer than ALARM and EV_VAT_WAIT is recorded. -/
  | vatAlarmExpiry (index : Nat)
  /-- VAT_UE_DETECTED (R370): An uncorrectable Vat error is handled by what the pail holds. -/
  | vatUeDetected (pail : Nat)
  /-- PAIL_ALLOC (R377): Vat descriptor that allocates pails for software. -/
  | pailAlloc (d : DescRef)
  /-- PAIL_FREE (R377): Vat descriptor that frees pails the ring allocated. -/
  | pailFree (d : DescRef)
  /-- VAT_PEAK_CLEAR (R365): A write of VAT_USE_c.PEAK_CLR sets PEAK to USED. -/
  | vatPeakClear (cls : Nat)
  /-- DDR_TRAINING_START (R373): DDR_CFG.EN starts fast or full training of the channels. -/
  | ddrTrainingStart (origin : Origin)
  /-- DDR_TRAINING_DONE (R373): A channel finishes training and becomes READY or FAILED. -/
  | ddrTrainingDone (ch : Fin 12) (fast : Bool) (cause : Nat)
  /-- ZQ_CALIBRATION (R373): Every 128 ms ZQ calibration runs on a rank. -/
  | zqCalibration (ch : Fin 12) (rank : Nat)
  /-- DQS_OSC_READ (R373): Every 32 ms the DQS oscillator is read and write delays adjusted. -/
  | dqsOscRead (ch : Fin 12) (rank : Nat)
  /-- DIMM_THERMAL_READ (R371): Every 32 management ticks the DIMM sensors are read and throttling and refresh set. -/
  | dimmThermalRead (temps : List Int)
  /-- DDR_REFRESH (R371): tREFI passes and a same-bank refresh is issued. -/
  | ddrRefresh (ch : Fin 12)
  /-- DDR_SCRUB (R375): The patrol scrub reads the next line, correcting or poisoning it. -/
  | ddrScrub (err : DramErr)
  /-- RANDOM (R395): Island descriptor that returns random bytes. -/
  | random (d : DescRef)
  /-- KEY_GEN (R396): Island descriptor that generates a key into a slot and returns its blob. -/
  | keyGen (d : DescRef)
  /-- KEY_LOAD (R392): Island descriptor that unwraps a blob into a slot. -/
  | keyLoad (d : DescRef)
  /-- KEY_DESTROY (R391): Island descriptor that zeroes a slot and advances its generation. -/
  | keyDestroy (d : DescRef)
  /-- KEY_EXPORT (R395): Island descriptor that returns the wrapped blob of a slot. -/
  | keyExport (d : DescRef)
  /-- KEK_CREATE (R392): Island descriptor that generates the array KEK and returns it sealed. -/
  | kekCreate (d : DescRef)
  /-- KEK_UNSEAL (R392): Island descriptor that loads the array KEK from its sealed blob. -/
  | kekUnseal (d : DescRef)
  /-- PAIR_OFFER (R393): Island descriptor that makes a signed pairing offer. -/
  | pairOffer (d : DescRef)
  /-- PAIR_SEND (R393): Island descriptor that verifies an offer and returns the KEK wrapped for the peer. -/
  | pairSend (d : DescRef) (certKey : Option (List (BitVec 8)))
  /-- PAIR_RECEIVE (R393): Island descriptor that installs the KEK from a transfer blob. -/
  | pairReceive (d : DescRef) (certKey : Option (List (BitVec 8)))
  /-- CFG_WRITE (R398): Island descriptor that writes a locked configuration register on software's behalf. -/
  | cfgWrite (d : DescRef)
  /-- LOCK_SET (R397): Island descriptor that locks the named units. -/
  | lockSet (d : DescRef)
  /-- LOCK_CLEAR (R397): Island descriptor that unlocks the named units, with a token in DEPLOYED. -/
  | lockClear (d : DescRef)
  /-- ATTEST (R399): Island descriptor that returns a signed quote. -/
  | attest (d : DescRef)
  /-- CERT_READ (R385): Island descriptor that returns a certificate. -/
  | certRead (d : DescRef)
  /-- LIFECYCLE_ADVANCE (R386): Island descriptor that advances the lifecycle at the next power-up. -/
  | lifecycleAdvance (d : DescRef)
  /-- ENTROPY_HEALTH_FAIL (R394): An entropy health test fails and random-dependent opcodes fail until power-up. -/
  | entropyHealthFail (proportion : Bool)
  /-- DRBG_RESEED (R394): The DRBG is reseeded after 2^20 requests. -/
  | drbgReseed
  /-- JTAG_INSTRUCTION (R386): A TAP instruction is executed or refused by the debug state. -/
  | jtagInstruction (insn : TapInsn)
  /-- VENEER_INLINE_JOB (R401): A Veneer lane encrypts or decrypts a curd inline under its tenant key and tweak. -/
  | veneerInlineJob (k i : Nat)
  /-- KEY_UNWRAP_DONE (R402): A key-cache unwrap finishes and the waiting jobs proceed or fail. -/
  | keyUnwrapDone (tenant : Nat)
  /-- ENCRYPT (R406): Veneer descriptor that encrypts Vat data. -/
  | encrypt (d : DescRef)
  /-- DECRYPT (R406): Veneer descriptor that decrypts Vat data. -/
  | decrypt (d : DescRef)
  /-- KEY_EVICT (R406): Veneer descriptor that drops a tenant's cached key. -/
  | keyEvict (d : DescRef)
  /-- VEN_LANE_FAULT (R407): An uncorrectable error in a Veneer lane fails its work and takes the lane out of service. -/
  | venLaneFault (lane : Fin 16) (job : LaneJob)
  /-- AUDIT_ENTRY_WRITE (R413): A staged audit entry is written to the DRAM ring when there is room. -/
  | auditEntryWrite
  /-- AUDIT_SEAL_PERIOD (R411): The seal PERIOD passes and a SEAL entry is written. -/
  | auditSealPeriod
  /-- AUDIT_SEAL_COUNT (R411): ENTRIES entries have been made and a SEAL entry is written. -/
  | auditSealCount
  /-- AUDIT_SHUTDOWN (R412): SEC_CTL.SHUTDOWN writes a final seal and anchor. -/
  | auditShutdown (origin : Origin)
  /-- JIG_BEGIN (R424): Island descriptor that opens an update session. -/
  | jigBegin (d : DescRef)
  /-- JIG_BLOCK (R425): Island descriptor that writes one 64 KiB image block. -/
  | jigBlock (d : DescRef)
  /-- JIG_BLOCK_WRITTEN (R425): A block's erase, program and read-back finish and its bit is set. -/
  | jigBlockWritten (ok : Bool)
  /-- JIG_COMMIT (R429): Island descriptor that checks the image and marks the slot VALID. -/
  | jigCommit (d : DescRef)
  /-- JIG_ABORT (R424): Island descriptor that ends the session. -/
  | jigAbort (d : DescRef)
  /-- JIG_ACTIVATE (R431): Island descriptor that puts a committed image into service. -/
  | jigActivate (d : DescRef)
  /-- JIG_ACTIVATION_DONE (R431): An activation ends, releasing the new image and raising the rollback counter. -/
  | jigActivationDone (type : Nat)
  /-- JIG_BITMAP (R426): Island descriptor that returns the received-block bitmap. -/
  | jigBitmap (d : DescRef)
  /-- JIG_PORT_BEGIN (R427): Management-port datagram that opens an update session. -/
  | jigPortBegin
  /-- JIG_PORT_SEGMENT (R428): Management-port datagram carrying one segment of a block. -/
  | jigPortSegment
  /-- JIG_PORT_COMMIT (R429): Management-port datagram that commits the session. -/
  | jigPortCommit
  /-- JIG_PORT_ABORT (R424): Management-port datagram that aborts the session. -/
  | jigPortAbort
  /-- JIG_PORT_STATUS (R428): Management-port datagram that returns the bitmap. -/
  | jigPortStatus
  /-- JIG_IDLE_EXPIRY (R424): IDLE passes without an owner request and the session ends. -/
  | jigIdleExpiry
  /-- CORE_DIVIDER_WRITE (R440): A write of CLK_CORE_c.DIV changes the core's clock glitch-free. -/
  | coreDividerWrite (origin : Origin) (core : Fin 48) (div : Nat)
  /-- REFCLK_LOSS (R441): REFCLK or PLL lock is lost and the head isolates its domains and stops HB_OUT. -/
  | refclkLoss
  /-- DOMAIN_ON_REQUEST (R443): PWR_DOM_d.REQ_ON set asks for a domain to ramp. -/
  | domainOnRequest (d : Fin 96)
  /-- DOMAIN_OFF_REQUEST (R444): PWR_DOM_d.REQ_ON cleared switches a quiescent domain off or is refused. -/
  | domainOffRequest (origin : Origin) (d : Fin 96) (hart : Bool)
  /-- DOMAIN_RAMP_ADMIT (R445): A waiting domain is admitted to RAMP when fewer than four are ramping. -/
  | domainRampAdmit
  /-- RAMP_TIMEOUT (R443): A RAMP lasts 160 µs and the domain is TRIPPED. -/
  | rampTimeout (d : Fin 96)
  /-- GOVERNOR_SAMPLE (R448): A domain's sample slot arrives and the governor runs its control law. -/
  | governorSample (d : Fin 96) (vmeas isense : BitVec 16) (jobs : List LaneJob)
  /-- GOV_RESUME (R449): GOV_DOM_CTL_d.RESUME returns a SAFE domain to ON. -/
  | govResume (d : Fin 96)
  /-- THERMAL_READ (R453): Each management tick the thermal sensors are read and cluster throttles set. -/
  | thermalRead (temps : List Int)
  /-- THERMAL_TRIP_POWEROFF (R453): 1 ms after a trip every switched domain is turned off. -/
  | thermalTripPoweroff
  /-- WITNESS_PASS_START (R455): The witness PERIOD passes and a measurement pass starts. -/
  | witnessPassStart
  /-- MEASURE_NOW (R455): WIT_CTL.MEASURE_NOW starts a measurement pass. -/
  | measureNow (origin : Origin := 0x200)
  /-- MARK_MEASUREMENT_DONE (R455): A group of marks finishes its 1 ms count and their degradation is computed. -/
  | markMeasurementDone (marks : List (Nat × Int))
  /-- CORE_RETIREMENT (R458): A requested core's hart is stopped and its domain is turned off and marked retired. -/
  | coreRetirement (core : Fin 48)
  /-- METER_EVENT (R466): A countable event is added to its line at its counting tick. -/
  | meterEvent
  /-- CAP_TICK (R465): At each management tick CAP_NOW is added to CAP_TICKS of each counted line. -/
  | capTick
  /-- METER_CUT (R469): CHIP_TIME reaches a multiple of L and every line switches bank. -/
  | meterCut
  /-- METER_SWEEP (R470): The frozen bank is swept into records as ring space allows, ending with a trailer. -/
  | meterSweep
  /-- CAP_SET (R467): Meter descriptor that sets a line's capacity from a given time. -/
  | capSet (d : DescRef)
  /-- LINE_READ (R473): Meter descriptor that returns the active bank of a line. -/
  | lineRead (d : DescRef)
  /-- TALLY_TOKEN_REFILL (R476): At each management tick each code's bucket receives RATE/256 tokens. -/
  | tallyTokenRefill
  /-- TALLY_SPILL (R478): A due entry is copied to the DRAM spill ring when it has room. -/
  | tallySpill
  /-- TRIGGER_PULSE_END (R479): A 1 µs trigger pulse or its low time ends and a merged pulse may start. -/
  | triggerPulseEnd
  /-- LOSS_HOLD_EXPIRY (R479): LOSS_HOLD ends the lease-loss indication on EVENT_OUT. -/
  | lossHoldExpiry
  /-- TALLY_CLEAR_COUNTS (R476): TAL_CTL.CLR_COUNTS zeroes every TAL_COUNT_x. -/
  | tallyClearCounts
  /-- MGT_FRAME_RX (R481): A management-port frame is steered to the Island or the firmware. -/
  | mgtFrameRx (frame : List Byte)
  /-- MGT_LINK_CHANGE (R487): The management link goes up or down. -/
  | mgtLinkChange (up gig : Bool)
  /-- FRAME_TX (R481): Management-port descriptor that sends a frame. -/
  | frameTx (d : DescRef)
  /-- FRAME_RX_BUF (R481): Management-port descriptor that offers a receive buffer. -/
  | frameRxBuf (d : DescRef)
  /-- WALL_CLOCK_APPLY (R484): A write of MGT_WALL_REF applies the held wall-clock mapping. -/
  | wallClockApply (ref : Word)
  /-- VDD_AON_RISE (R490): VDD_AON rises and the head enters cold reset. -/
  | vddAonRise (fuses : List (Nat × BitVec 8)) (images : List (Nat × List (BitVec 8)))
  /-- PWROK_FALL (R489): PWROK falls and the head enters cold reset within 1 µs. -/
  | pwrokFall (torn : Option (DescRef × Bool))
  /-- RESET_N_ASSERT (R490): RESET_N driven low puts the head in cold reset. -/
  | resetNAssert (torn : Option (DescRef × Bool))
  /-- COLD_RESET_RELEASE (R494): PWROK and RESET_N are high and the boot sequence runs, sampling the straps. -/
  | coldResetRelease (headSel peerPrsntN norOk : Bool) (train : List (Bool × Nat))
  /-- WARM_RESET (R492): PWR_RESET_CTL.WARM stops HB_OUT, puts DRAM in self-refresh and turns domains off. -/
  | warmReset (origin : Origin)
  /-- WARM_RESET_END (R494): 100 µs after it starts a warm reset ends and boot re-enters at step 2. -/
  | warmResetEnd (norOk : Bool) (train : List (Bool × Nat))
  /-- POWER_LOSS (R489): Power is lost without PWROK falling first. -/
  | powerLoss (torn : Option (DescRef × Bool))
  /-- GROUP_WRITE (R499): Drawer descriptor that makes a settings group durable. -/
  | groupWrite (d : DescRef) (norOk : Bool)
  /-- GROUP_READ (R502): Drawer descriptor that returns a settings group. -/
  | groupRead (d : DescRef)
  /-- GROUP_DELETE (R502): Drawer descriptor that removes a settings group. -/
  | groupDelete (d : DescRef) (norOk : Bool)
  /-- RNR_TIMER_EXPIRY (R67): The RNR timer of a requester QP that received an RNR NAK expires, and the QP resends or enters ERR when its RNR retry count is exhausted. -/
  | rnrTimerExpiry (c : Nat)
  /-- TENON_LANE_ERROR_LIMIT (R320): The corrected-symbol rate of a Tenon lane in use crosses 1 in 10^5 and the link retrains without that lane, recording EV_TEN_DEGRADED. -/
  | tenonLaneErrorLimit (lane : Fin 8)
  /-- LINK_DOWN_HB_LOSS_EXPIRY (R339): The Tenon link has been out of ACTIVE and RETRAIN for HB_LOSS while HB_IN is already dead, and the peer is declared lost. -/
  | linkDownHbLossExpiry
  /-- BCP_LEASE_CFG_WRITE (R309): A write of BCP_LEASE_CFG.SILENCE through one blade port stores the value, at least 256, and updates EFFECTIVE as the larger of the two ports. -/
  | bcpLeaseCfgWrite (b port v : Nat)
  /-- BLADE_POWER_LOSS (R298): A blade loses power, cutting accepted but unacknowledged programs and record changes so they are later found whole or not at all, and dropping its volatile T_RENEW. -/
  | bladePowerLoss (b : Nat) (whole : List Nat)
  /-- MAINT_ACK (R155): A MAINT message returns from the peer: the acknowledgement that a reference-count increment is durable, the report of a deferred erase, or WIPE consent. -/
  | maintAck (tag : Nat) (ok : Bool) (bands : List Nat) (ms : List Medium)
  /-- PEER_REG_READ (R324): A REG-class register read from the peer arrives, is performed with origin 0x04nn and answered with a response message. -/
  | peerRegRead (tag nn : Nat) (addr : PAddr)
deriving DecidableEq, Repr

end Sys2Proof
end

