-- ==== Sys2Proof/Config.lean ====
section
/-! DEFINITION. What the manual leaves open and the machine nevertheless produces: opaque constants without a body, so
that nothing can be proved of their values. Log entry 8 lists them. -/
namespace Sys2Proof.Config
open Sys2Proof

/-- The free value of draw number `i`: random numbers, signatures and every other value the manual leaves open. -/
opaque freeWord : Nat → Word

/-- Byte `k` of the free bytes of draw number `i`, for outputs whose bytes the manual leaves open. -/
opaque freeByte : Nat → Nat → Byte

/-- Line of the Meter's table that probe `i` of (TENANT, SHARD) reaches in a table of `n` lines (R468 gives no hash). -/
opaque mtrProbe : Nat → Nat → Nat → Nat → Nat

/-- The pail from which draw number `i` looks for a free one: which free pail a grant takes is open (R366). -/
opaque pailStart : Nat → Nat

/-- The interrupt file (core × 6 + file) an address belongs to: R31 gives the files and no addresses. -/
opaque imsicFile : Nat → Option Nat

/-- The UDP source port of a queue pair's packets: R67 makes it a hash of the QP number and gives no hash. -/
opaque udpPort : Nat → Nat

/-- The frame the Churn writes for `data` at an effort level with a dictionary ID (0: none) and its content: R160 fixes the
form of a frame, not which frame is written. -/
opaque churnFrame : Nat → Nat → List Byte → List Byte → List Byte

/-- The bytes of group 0x0021 at draw number `i`: R461 names what the plan holds, not its layout. -/
opaque planData : Nat → List Byte

/-- The DRAM address an image type is placed at, modulo 64 MiB (R494 gives the range only). -/
opaque imageAt : Nat → Nat

/-- Byte `i` of the key that audit seals are made with in RMA, where no key is derived (R388). -/
opaque noKey : Nat → Byte

/-- What the medium does with a command a blade had taken before one that a step carries out at once (log entry 27). -/
opaque freeMedium : Nat → Medium

end Sys2Proof.Config
end

