-- ==== Sys2Proof/Machine/State.lean ====
section
/-! DEFINITION. The state of one head and of the blades it reaches, as plain data. Register fields live in
`State.csr` (Machine/Regs.lean gives their handles and reset values); everything else the chapters give the machine has
a field of its own here. Times are CHIP_TIME ticks (R14, R15); a timer is the tick at which it falls due. -/
namespace Sys2Proof.Machine
open Sys2Proof

/-- Why the block stops. -/
inductive Fault
  /-- Raised by no command of this model: kept so that the type is inhabited. Safe. -/
  | none
deriving DecidableEq, Repr

/-- Why a command has no meaning. -/
inductive Refusal
  /-- Raised by the dispatch for a command that has no meaning yet. Safe. -/
  | notModelled (mnemonic : String)
deriving DecidableEq, Repr

/-! ## The bus, the pins and the rings -/

/-- A core's load or store access fault (R38, R41, R43). -/
structure CoreFault where
  origin : Nat
  addr : Nat
  store : Bool
deriving DecidableEq, Repr

/-- A record of the IOMMU's fault queue (R32): cause, device ID, process ID if the access carried one, address, whether it
wrote. -/
structure IommuFault where
  cause : Nat
  dev : Nat
  pid : Option Nat
  addr : Nat
  write : Bool
deriving DecidableEq, Repr

/-- What the network-on-chip, the IOMMU and the interrupt files show the outside: access faults taken by cores (newest
first), the data the last read returned, MSI writes (address, identity; newest first), the identities pending in each core's
six interrupt files (key file × 2048 + identity), the MSI target of each wired source of the APLIC where one is set (address,
identity; R31), the IOMMU's fault queue (newest first), and its device directory: mode (0 Off, 1 Bare, 2 to 4 one to three
levels) and root page (R32; log entry 6). -/
structure Bus where
  faults : List CoreFault := []
  readData : Option Nat := none
  msis : List (Nat × Nat) := []
  imsic : Tab Nat := []
  aplic : Tab (Nat × Nat) := []
  iommuFaults : List IommuFault := []
  ddtMode : Nat := 1
  ddt : Nat := 0
deriving DecidableEq, Repr

/-- How far a fetched descriptor has come (R48, R526, R527). -/
inductive Phase
  | fetched   -- in the unit, not started
  | started   -- executing
  | waiting   -- started, waiting for an event outside the unit's control (R527)
deriving DecidableEq, Repr

/-- A fetched descriptor, or a whole chain (R45, R49), with the origin whose doorbell published it (R496). -/
structure Fetched where
  slot : Nat
  imgs : List (List (BitVec 8))
  phase : Phase
  origin : Nat
deriving DecidableEq, Repr

/-- What a ring holds beside its registers (R52 to R59, R527). -/
structure Ring where
  prod : Nat := 0                 -- producer index in force
  dbProd : Nat := 0               -- DB_PROD slot read-back
  dbChead : Nat := 0              -- DB_CHEAD slot read-back
  chead : Nat := 0                -- completion head
  posted : Nat := 0               -- completion entries posted and not released
  stopAt : Nat := 0               -- producer index at the STOP write
  disabling : Bool := false       -- EN ← 0 written in ERROR, waiting for fetched descriptors
  fetched : List Fetched := []    -- fetched and not completed, in ring order
  holdUntil : Option Nat := none  -- end of the HOLDOFF period
  owed : Bool := false            -- a NOTIFY completion was posted during the hold-off
  origins : Tab Nat := []         -- origin that published each index
deriving DecidableEq, Repr

/-- Balls of the head with a level the model keeps (R486 to R493, R288, R338, R453, R479). -/
structure Pins where
  vddAon : Bool := true
  pwrok : Bool := false
  resetN : Bool := true
  refclk : Bool := true
  headSel : Bool := false
  peerPrsntN : Bool := false
  thermTripN : Bool := true
  hbOut : Bool := false
  eventOut : Bool := false
  prsntN : Nat := 0xFFFF          -- bit b: level of BLD_b_PRSNT_N
  perstN : Nat := 0               -- bit b: level driven on BLD_b_PERST_N
deriving DecidableEq, Repr

/-! ## The Tally, the Meter, the management port -/

/-- One Tally entry (R474); the CRC and the reserved bytes are added when it is written out. -/
structure TallyEntry where
  code : Nat
  flags : Nat
  origin : Nat
  supp : Nat
  seq : Nat
  time : Nat
  args : List Nat
  values : List Nat
  ids : List Nat
deriving DecidableEq, Repr

/-- The Tally beside its registers (R476 to R479): the on-chip buffer, the entries due for spilling (oldest first), the
token buckets in 1/256 token (an unlisted bucket is full), events suppressed since each code's last entry, the next SEQ,
and the EVENT_OUT drive. -/
structure Tally where
  buf : Tab TallyEntry := []
  due : List Nat := []
  bucket : Tab Nat := []
  supp : Tab Nat := []
  seq : Nat := 0
  pulseEnd : Option Nat := none   -- a trigger pulse is high until then
  lowEnd : Option Nat := none     -- the low time after a pulse or an indication ends then
  merged : Nat := 0               -- triggers merged into the pulse that is owed
  lossUntil : Option Nat := none  -- lease-loss indication holds the ball until then
deriving DecidableEq, Repr

/-- One bank of a Meter line: the ten counters of R471 in its order and the 16 histogram bins. -/
structure MtrBank where
  ctr : Tab Nat := []
  hist : Tab Nat := []
deriving DecidableEq, Repr

/-- One Meter line (R468): both banks, the capacity level, and what the sweep of the frozen bank still has to say. -/
structure MtrLine where
  tenant : Nat
  shard : Nat
  active : MtrBank := {}
  frozen : MtrBank := {}
  swept : Bool := true            -- the frozen bank has been swept
  capNow : Nat := 0
  capCut : Nat := 0               -- CAP_NOW at the cut
  start : Nat := 0                -- START of the frozen bank's record
  carried : Bool := false
  backdated : Bool := false
  backdatedCut : Bool := false
  moved : Bool := false           -- the shard's lease state changed in the interval of the frozen bank
deriving DecidableEq, Repr

/-- One countable event on its way through the Meter's queue (R466, R468): line, counter (`10 + b` for histogram
bin b), amount, counting tick. -/
structure MtrEvent where
  tenant : Nat
  shard : Nat
  ctr : Nat
  amount : Nat
  tick : Nat
deriving DecidableEq, Repr

/-- The Meter beside its registers. `capFrom` lists the shards whose capacity this head counts with the win tick W. -/
structure Meter where
  queue : List MtrEvent := []     -- events not yet added, oldest first
  lines : Tab MtrLine := []
  capFrom : Tab Nat := []
  lastCut : Nat := 0              -- END of the last cut, START of the running interval
  nextCut : Option Nat := none
  len : Nat := 0                  -- L in force, in ticks
  movedNow : List Nat := []       -- shards whose lease state changed in the running interval
  prevCut : Nat := 0              -- the cut before the last: START of the interval being swept
  recNo : Nat := 0                -- RECORD index of the sweep
  sweepAt : Option Nat := none    -- line the sweep has reached
  ovfSeen : List Nat := []        -- shards whose EV_MTR_OVERFLOW was recorded in this interval
  ovfEvents : Nat := 0            -- events counted in overflow lines
  ringFull : Bool := false
deriving DecidableEq, Repr

/-- What the Island answers by itself on the management port (R482). -/
inductive IslandReply
  | arp (mac : List (BitVec 8))              -- reply to an ARP request, to this station
  | neighbor (mac : List (BitVec 8))         -- advertisement answering a Neighbor Solicitation
  | echo (mac : List (BitVec 8)) (data : List (BitVec 8))   -- ICMP or ICMPv6 Echo Reply
  | datagram (data : List (BitVec 8))        -- a response of the Jig protocol (R428)
deriving DecidableEq, Repr

/-- The management port beside its registers: frames sent (newest first), Jig datagrams for the Island (oldest first),
the Island's answers (newest first), multicast addresses the firmware has set, the wall-clock words held until
MGT_WALL_REF is written (SEC, NS, RATE), and whether the management firmware runs. -/
structure Mgmt where
  sent : List (List (BitVec 8)) := []
  jigIn : List (List (BitVec 8)) := []
  replies : List IslandReply := []
  mcast : List (List (BitVec 8)) := []
  heldSec : Nat := 0
  heldNs : Nat := 0
  heldRate : Nat := 0
  sram : Memory := []             -- the management core's 512 KiB of local SRAM (R28)
  fwRunning : Bool := false
deriving DecidableEq, Repr

/-! ## Start-up, the Drawer, the audit journal, supplies -/

/-- A record of the Drawer (R498). -/
structure GroupRec where
  group : Nat
  format : Nat
  gen : Nat
  data : List (BitVec 8)
  tomb : Bool := false
  hdrOk : Bool := true
  dataOk : Bool := true
deriving DecidableEq, Repr

/-- One half of the settings area in NOR (R498): whether its header is valid, SEQ, its records in order. -/
structure Half where
  valid : Bool := false
  seq : Nat := 0
  recs : List GroupRec := []
deriving DecidableEq, Repr

/-- The Drawer: both NOR halves, the retention SRAM (by group) and whether its directory CRC checks, the
GROUP_WRITEs that wait for a compaction. -/
structure Drawer where
  half0 : Half := {}
  half1 : Half := {}
  ret : Tab GroupRec := []
  retOk : Bool := false
deriving DecidableEq, Repr

/-- Reset and boot (R490 to R495). -/
structure Boot where
  cold : Bool := true             -- in cold reset
  warmUntil : Option Nat := none  -- end of a warm reset
  halted : Bool := false          -- a step failed and the head halts
  advance : Option Nat := none    -- lifecycle advance pending (R386)
  bootNo : Nat := 0               -- boot number of group 0x0001 (R497)
  stopped : Bool := false         -- REFCLK loss or thermal trip: stopped until a cold reset (R490)
  before : Nat := 0               -- ticks before CHIP_TIME last restarted, as the blades' clocks see them
deriving DecidableEq, Repr

/-- One entry of the audit journal before its PREV is known (R408). -/
structure AudEntry where
  seq : Nat
  time : Nat
  origin : Nat
  via : Nat
  kind : Nat
  unit : Nat
  sub : Nat
  opcode : Nat
  offset : Nat
  payload : List (BitVec 8)
deriving DecidableEq, Repr

/-- The audit journal (R408 to R413): the 512-entry FIFO (oldest first), the next SEQ, PREV, what the next seal covers,
and the seal-anchor area in NOR. -/
structure Audit where
  staged : List AudEntry := []
  nextSeq : Nat := 0
  prev : List (BitVec 8) := List.replicate 64 0
  anchorDue : List Nat := []      -- SEQ of the seals that are to be anchored
  firstSeq : Nat := 0
  sinceSeal : Nat := 0
  sealsSince : Nat := 0           -- seals since the last anchor
  sealDue : Option Nat := none
  anchor : Option (Nat × List (BitVec 8)) := none
  fullSeen : Bool := false        -- EV_AUDIT_FULL recorded for the present shortage
deriving DecidableEq, Repr

/-- The margin plan as Drawer group 0x0021 keeps it through resets (R457, R461): AGE_GB and core floors by domain or
core, retired cores and slices as masks. Its byte layout is not given (log entry 15). -/
structure Plan where
  ageGb : Tab Nat := []
  floors : Tab Nat := []
  cores : Nat := 0
  slices : Nat := 0
deriving DecidableEq, Repr

/-- Clocks, domains, governor and witness marks beside their registers (R439 to R462). -/
structure Supply where
  rampBy : Tab Nat := []          -- RAMP limit of a ramping domain
  rampWait : List Nat := []       -- domains that wait to ramp
  inBand : Tab Nat := []          -- consecutive samples inside the band while ramping
  breach : Tab Nat := []          -- consecutive samples outside the window
  stepOdd : List Nat := []        -- domains whose VREF may step at the next sample (55 codes per two samples)
  hartsStopped : List Nat := []   -- harts stopped
  mgmtInReset : Bool := true      -- management core in reset
  tripOff : Option Nat := none    -- switched domains go off then (R453)
  sensors : List Int := []        -- last readings of the thermal sensors, °C
  passAt : Option Nat := none     -- next measurement pass
  nextMark : Option Nat := none   -- first mark of the group being measured
  skipped : List Nat := []        -- marks skipped in this pass
  late : List Nat := []           -- skipped marks whose domain has reached ON since, to be measured (R455)
  plan : Option Plan := none      -- group 0x0021; none: defaults
deriving DecidableEq, Repr
/-! ## The Cooler, the Vat, DRAM -/

/-- A request to the Cooler: its port, its byte address, and the bytes it stores (none for a read). -/
structure CoolReq where
  port : CoolPort
  addr : Nat
  store : Option (List (BitVec 8))
  wb : Bool := false              -- a core's write-back of a dirty L2 line (R357)
deriving DecidableEq, Repr

/-- A way that holds a line, or awaits its fill (R353, R355). -/
structure CoolLine where
  line : Nat                      -- line address PA >> 6
  age : Nat := 2
  pf : Bool := false
  dirty : Bool := false
  filling : Bool := false
deriving DecidableEq, Repr

/-- A miss register: the line, the requests merged into it in arrival order, whether a prefetch took it, and whether the
demand fill inserts in streaming mode (R355, R357). -/
structure CoolMiss where
  slice : Nat
  line : Nat
  key : Nat                       -- way that awaits the fill
  reqs : List CoolReq
  prefetch : Bool := false
  streaming : Bool := false
deriving DecidableEq, Repr

/-- A stream tracker (R356); trackers stand in order of use, the most recent first. -/
structure Tracker where
  page : Nat
  last : Nat                      -- line of the last read
  stride : Int := 0
  run : Nat := 1                  -- reads in a row at the stride
  asked : List Nat := []          -- lines already requested
deriving DecidableEq, Repr

/-- The Cooler beside its registers. `lines` is keyed by (slice × 2048 + set) × 16 + way; `evict` lists (slice, line) of
the eviction buffers; `l2` tells of each L2 copy the snoop filters track, keyed line × 64 + core, whether it is dirty;
`retired` maps a retired slice to the residues moved. Line data stand in `State.mem` (log entry 17). -/
structure Cool where
  lines : Tab CoolLine := []
  misses : List CoolMiss := []
  evict : List (Nat × Nat) := []
  waiting : List CoolReq := []
  trackers : Tab (List Tracker) := []
  l2 : Tab Bool := []
  retired : Tab (List Nat) := []
  stopped : Option Nat := none    -- a slice that allocates no more, while a SLICE_RETIRE clears it (R363)
  enAgain : Bool := false         -- EN ← 1 written while DRAINING
  poison : List Nat := []         -- poisoned lines, in the Cooler or in DRAM
  mcheck : List (Nat × Nat) := [] -- machine-check exceptions cores took: (origin, line)
  fatal : Bool := false           -- a machine-check error fatal to the head stands
deriving DecidableEq, Repr

/-- Who asks the Vat for pails: a descriptor of a Vat ring, a command context of the Parlour, or another job of a unit. -/
inductive VatUser
  | ring (r slot : Nat)
  | ctx (c : Nat)
  | job (n id : Nat)
deriving DecidableEq, Repr

/-- What a pail holds (R370). -/
inductive PailHolds
  | readData     -- blade data for a read
  | writeData    -- a write's data before its commit point
  | committed    -- data of a write past its commit point, or a journal page
  | background   -- REBUILD or GC work
  | software
deriving DecidableEq, Repr

/-- An allocated pail. -/
structure Pail where
  cls : Nat
  user : VatUser
  holds : PailHolds
deriving DecidableEq, Repr

/-- A request that waits (R366). -/
structure VatReq where
  user : VatUser
  cls : Nat
  n : Nat
  since : Nat
  alarmed : Bool := false
deriving DecidableEq, Repr

/-- An entry of the write index (R368); `ovf`: it stands in the overflow area. -/
structure WEntry where
  vol : Nat
  block : Nat
  pail : Nat
  dseq : Nat
  pins : Nat := 0
  withdrawn : Bool := false
  confirmed : Bool := false
  mapped : Bool := false
  ovf : Bool := false
  stale : Bool := false           -- a write or deallocation dispatched later has reached the catalogue
deriving DecidableEq, Repr

/-- The Vat beside its registers; `waiting` is in the order requests began to wait. -/
structure Vat where
  pails : Tab Pail := []
  waiting : List VatReq := []
  widx : List WEntry := []
deriving DecidableEq, Repr

/-- The DDR5 controllers beside their registers: calibrations and refreshes run, the line the patrol scrub reads next,
corrected errors of each rank in this pass (by channel × 4 + rank). -/
structure Ddr where
  zq : Tab Nat := []
  dqs : Tab Nat := []
  refreshes : Tab Nat := []
  fastRefresh : Bool := false     -- tREFI 1.95 µs
  scrubLine : Nat := 0
  rankCe : Tab Nat := []
deriving DecidableEq, Repr
/-! ## The Press and the Island -/

/-- The job of a numbered context (R182): key and message part absorbed so far; TOTAL and whether keyed. -/
structure PressCtx where
  total : Nat
  keyed : Bool
  key : List (BitVec 8)
  data : List (BitVec 8)
deriving DecidableEq, Repr

/-- The legacy context while it has an owner (R193 to R197). -/
structure Legacy where
  owner : Nat
  alg : Nat
  length : Nat
  key : Option (List (BitVec 8)) := none
  data : List (BitVec 8) := []
  words : Nat := 0
  fifo : Nat := 0                 -- words in the input FIFO
  final : Bool := false           -- FINAL is being processed
  done : Bool := false
  err : Nat := 0
  idleAt : Nat                    -- the lock is released then
  early : Bool := false           -- the result was read before DONE
deriving DecidableEq, Repr

/-- The Press beside its registers. -/
structure Press where
  ctx : Tab PressCtx := []
  legacy : Option Legacy := none
  served : Nat := 64              -- context a lane last served, 64 the legacy one (R184)
deriving DecidableEq, Repr

/-- A key slot (R389, R390): its key if full, its generation in this boot, the tenant its key belongs to. -/
structure KeySlot where
  key : Option (List (BitVec 8)) := none
  gen : Nat := 0
  tenant : Nat := 0
deriving DecidableEq, Repr

/-- The Island beside its registers: key slots by class × 4096 + index, the array KEK with its KEK_ID, the X448 private key
of an open pairing offer, measurements M0 to M2, DRBG requests since the last reseed. -/
structure Sec where
  slots : Tab KeySlot := []
  kek : Option (Nat × List (BitVec 8)) := none
  pairKey : Option (List (BitVec 8)) := none
  drbgCount : Nat := 0
  tap : Option (TapInsn × Bool) := none   -- last TAP instruction, and whether it was executed
deriving DecidableEq, Repr

/-- A key in the Veneer's cache, most recently used first (R402). -/
structure VenKey where
  tenant : Nat
  key : List (BitVec 8)
deriving DecidableEq, Repr

/-- The Veneer beside its registers: cached keys, and by tenant the work that waits for an outstanding unwrap. -/
structure Ven where
  cache : List VenKey := []
  misses : Tab (List LaneJob) := []
deriving DecidableEq, Repr
/-! ## The blades and their ports -/

/-- A programmed page: its 16,384 data and 2,048 spare bytes, or a page whose program failed or was cut, which reads back
as R298 leaves open. A page that is not listed is erased. -/
inductive BPage
  | good (data spare : List (BitVec 8))
  | torn
deriving DecidableEq, Repr

/-- A block of a blade: mode and last page since its erase, pages, erase count, claim, whether it is bad, and whether a
failed erase left what it reads back open (R299). -/
structure Block where
  slc : Bool := false
  last : Option Nat := none
  pages : Tab BPage := []
  ec : Nat := 0
  claim : Option Nat := none
  bad : Bool := false
  loose : Bool := false
deriving DecidableEq, Repr

/-- The record of a shard on a blade (R302); T_RENEW in head ticks. -/
structure EpochRec where
  epoch : Nat := 0
  released : Bool := true
  tRenew : Nat := 0
deriving DecidableEq, Repr

/-- A BCP command: its 64-byte image, the bytes it carries to the blade (page data or epoch vector) and its header bytes. -/
structure BCmd where
  img : List (BitVec 8)
  out : List (BitVec 8) := []
  hdr : List (BitVec 8) := []
deriving DecidableEq, Repr

/-- A command a blade has taken: the port, queue and slot it came from; `mute`: its port was reset since, so that it finishes
and nothing is written for it (R309). -/
structure Taken where
  port : Nat
  queue : Nat
  slot : Nat
  cmd : BCmd
  mute : Bool := false
deriving DecidableEq, Repr

/-- What a blade returns for a command: STATUS, RESULT and the data it writes. -/
structure BAns where
  status : Nat
  result : Nat := 0
  data : List (BitVec 8) := []
deriving DecidableEq, Repr

/-- A completion entry a blade has written (R293), with the data written before it. -/
structure BCpl where
  queue : Nat
  slot : Nat
  cid : Nat
  head : Nat
  phase : Bool
  ans : BAns
deriving DecidableEq, Repr

/-- One port of a blade (the registers of its BAR0): `sqHead` and `wraps` by queue; `downSince`: when its link last left
L0; `consent`: when WIPE_CONSENT was issued. -/
structure BladePort where
  en : Bool := false
  cqBase : Nat := 0
  silence : Nat := 256
  linkUp : Bool := false
  downSince : Nat := 0
  consent : Option Nat := none
  sqHead : Tab Nat := []
  wraps : Tab Nat := []
deriving DecidableEq, Repr

/-- What IDENTIFY and the geometry give of a blade (R301). -/
structure BladeId where
  dies : Nat
  blocks : Nat
  pagesQlc : Nat
  spare : Nat
  ratedEc : Nat
  version : Nat := 0x0100
  serial : List (BitVec 8) := []
  model : List (BitVec 8) := []
  firmware : List (BitVec 8) := []
deriving DecidableEq, Repr

/-- A blade: blocks by die × 65,536 + block, epoch records by shard, the commands taken in acceptance order, health
counts, the hottest die and its temperature, the error of its clock in ppm (R307). Its service of R290: `turn`, the class of
JOURNAL and READ served last; `bulk`, BULK commands served since the last LOW one; `lead`, by class the commands of port 0
less those of port 1 in the period in which both wait, with their least and greatest value in it. -/
structure Blade where
  id : BladeId
  powered : Bool := false
  rdy : Bool := false
  fatal : Bool := false
  port0 : BladePort := {}
  port1 : BladePort := {}
  taken : List Taken := []
  blocks : Tab Block := []
  recs : Tab EpochRec := []
  uncorr : Nat := 0
  progFails : Nat := 0
  eraseFails : Nat := 0
  powerLosses : Nat := 0
  hotTemp : Int := 25
  hotDie : Nat := 0
  ppm : Int := 0
  turn : Option Nat := none
  bulk : Nat := 0
  lead : Tab (Int × Int × Int) := []
deriving DecidableEq, Repr

/-- Who issued a blade command. -/
inductive Issuer
  | pass (d : DescRef)              -- the PASS descriptor
  | renew (round : Nat)             -- a renew round of the Lease unit
  | setEpoch (shard : Nat)          -- an install or catch-up of the Lease unit
  | release (shard : Nat)           -- LEASE_RELEASE
  | epochRead (shard : Nat)         -- the read a takeover begins with
  | jpage (shard page : Nat)        -- a replica of a journal page
  | side (shard band : Nat)         -- a parity page or summary page of a JOURNAL band
deriving DecidableEq, Repr

/-- A command the head has issued to a blade and not yet completed; `slot` once it stands in its submission queue. -/
structure Issued where
  queue : Nat
  slot : Option Nat := none
  cmd : BCmd
  issuer : Issuer
  since : Nat
deriving DecidableEq, Repr

/-- A Blade Port beside its registers: commands issued, completions not yet delivered, the submission tail and the latest
SQ_HEAD by queue, timers, and the tick of the last completion or of the first command since none was outstanding. -/
structure HeadPort where
  issued : List Issued := []
  cq : List BCpl := []
  tail : Tab Nat := []
  seen : Tab Nat := []
  timer : Option Nat := none      -- end of the present state's limit
  lastCpl : Nat := 0
  late : List (Nat × Nat × Bool) := []  -- (queue, slot) of commands that have timed out; whether a PASS (R293)
  attach : Option DescRef := none -- BLADE_ATTACH that waits for the peer's report (R311)
  miswired : Bool := false        -- the blade's other port is wired here (R317)
deriving DecidableEq, Repr
/-! ## The Rails -/

/-- Who posted a work request: a POST_SEND descriptor, a response of the Parlour, a pull of a command's payload. -/
inductive WrOwner
  | desc (d : DescRef)
  | parlour
  | pull (c : Nat)
deriving DecidableEq, Repr

/-- The ring a work request was posted through, for its DMA (R46). -/
def WrOwner.ring : WrOwner → Option Nat
  | .desc d => some d.ring
  | _ => none

/-- A send-queue entry (R84): verb, local buffer, remote address and key, immediate data, the bytes sent; its first PSN and
packet count once sent; what a READ has returned. -/
structure SendWr where
  owner : WrOwner
  verb : Nat
  addr : Nat
  len : Nat
  lkey : Nat := 0
  raddr : Nat := 0
  rkey : Nat := 0
  imm : Nat := 0
  data : List (BitVec 8) := []
  psn : Nat := 0
  npkts : Nat := 0
  sent : Bool := false
  got : List (BitVec 8) := []
  pins : List (Nat × Nat × Nat) := []   -- write-index entries (volume, block, DSEQ) pinned until the data have left (R35)
deriving DecidableEq, Repr

/-- A receive-queue entry, with the key its buffer was checked under. -/
structure RecvWr where
  d : DescRef
  addr : Nat
  len : Nat
  key : Nat := 0
deriving DecidableEq, Repr

/-- The message a responder is receiving: whether it is an RDMA WRITE, its region key and that region's ODP bit, the PSN of its
first packet and the address that packet named, where it goes, what has arrived. -/
structure RxMsg where
  write : Bool
  key : Option Nat := none
  odp : Bool := false
  psn : Nat := 0
  va : Nat := 0
  addr : Nat := 0
  total : Nat := 0
  got : List (BitVec 8) := []
deriving DecidableEq, Repr

/-- An RDMA READ whose check has passed (R73): its first PSN, remote address and length, the IOVA they stand for, key and ODP
bit of the region, and whether its data have been sent. -/
structure RdMsg where
  psn : Nat
  va : Nat
  len : Nat
  addr : Nat
  key : Nat
  odp : Bool
  done : Bool := false
deriving DecidableEq, Repr

/-- A held access of on-demand paging (R76, R77). -/
structure OdpHold where
  responder : Bool
  iova : Nat
  since : Nat
  send : Bool := false            -- as responder: the packet of a SEND; as requester: a request not sent yet
deriving DecidableEq, Repr

/-- An RC queue pair (R67 to R69). -/
structure Qp where
  st : Nat := 0
  gid : Nat := 0
  pmtu : Nat := 1
  dqpn : Nat := 0
  sqPsn : Nat := 0
  rqPsn : Nat := 0
  timeout : Nat := 0
  retry : Nat := 0
  rnrRetry : Nat := 0
  minRnr : Nat := 0
  odp : Bool := false
  rw : Bool := false
  rr : Bool := false
  pd : Nat := 0
  path : List (BitVec 8) := []
  sq : List SendWr := []
  rq : List RecvWr := []
  cur : Option RxMsg := none
  reads : List RdMsg := []        -- READs checked, newest first, at most 16
  nakSent : Bool := false
  msn : Nat := 0
  tries : Nat := 0                -- retries left
  rnrTries : Nat := 0
  ackBy : Option Nat := none
  rnrBy : Option Nat := none
  hold : Option OdpHold := none
  sqd : List (DescRef × Nat) := []  -- QP_MODIFY to SQD that waits for the sends before a PSN
deriving DecidableEq, Repr

/-- A segment sent and not acknowledged: whether it was ever sent again, and whether it was in the recovery under way. -/
structure TcpSent where
  seq : Nat
  data : List (BitVec 8)
  since : Nat
  resent : Bool := false
  again : Bool := false
deriving DecidableEq, Repr

/-- An offloaded TCP connection (R82): `ooo` holds segments received out of order, the newest first, `stream` bytes of an
unfinished PDU; `wl1` and `wl2` are the SEQ and ACK of the last window update, `tsAt` the tick TS.Recent was taken at; `pins`
lists the sequence numbers up to which data must leave before pins on write-index entries are lowered (R35); `ic` says that the
connection's ICReq was answered here. -/
structure Tcp where
  lport : Nat                     -- local TCP port
  rport : Nat
  remote : List (BitVec 8) := []
  path : List (BitVec 8) := []
  gid : Nat := 0
  sndUna : Nat
  sndNxt : Nat
  rcvNxt : Nat
  sndWnd : Nat
  sndScale : Nat
  rcvScale : Nat
  sackOn : Bool
  tsOn : Bool
  ecnOn : Bool
  mss : Nat
  tsRecent : Nat
  hdgst : Bool
  ddgst : Bool
  wl1 : Nat := 0
  wl2 : Nat := 0
  tsAt : Nat := 0
  sent : List TcpSent := []
  sacked : List (Nat × Nat) := []
  unsent : List (BitVec 8) := []
  pins : List (Nat × List (Nat × Nat × Nat)) := []
  ooo : List (Nat × List (BitVec 8)) := []
  stream : List (BitVec 8) := []
  dupAcks : Nat := 0
  recover : Option Nat := none
  srtt : Option (Nat × Nat) := none   -- SRTT and RTTVAR
  rto : Nat := 1600000000             -- 1 s before the first measurement
  rtoBy : Option Nat := none
  rtos : Nat := 0
  ceSeen : Bool := false
  cwrDue : Bool := false
  hpda : Nat := 0
  lastEce : Option Nat := none
  ic : Bool := false
deriving DecidableEq, Repr

/-- What a transport context is. -/
inductive CtxBody
  | qp (q : Qp)
  | tcp (t : Tcp)
deriving DecidableEq, Repr

/-- A transport context bound to a Rail (R68, R70, R80): logical port, owner, residence (`used`: last use), rate control. -/
structure Ctx where
  rail : Rail
  lport : Nat
  parlour : Bool
  pin : Bool
  resident : Bool := true
  evicting : Bool := false
  used : Nat := 0
  rate : Nat
  target : Nat
  stage : Nat := 0
  lastCut : Option Nat := none
  riseAt : Option Nat := none
  lastCnp : Option Nat := none
  body : CtxBody
deriving DecidableEq, Repr

/-- A memory region (R73). -/
structure Mr where
  key : Nat
  base : Nat
  len : Nat
  pd : Nat
  localWrite : Bool
  remoteWrite : Bool
  remoteRead : Bool
  odp : Bool
  raddr : Nat
  valid : Bool := true
deriving DecidableEq, Repr

/-- An MR_INVALIDATE or SEND with Invalidate in progress (R74, R75): Rails still to acknowledge, the messages checked before the
visibility point and not finished, as (context, kind, PSN), how many of them have finished, the drain limit once it runs. -/
structure Invalidate where
  key : Nat
  desc : Option DescRef
  recv : Option (Rail × DescRef × Nat × Nat × Nat) := none  -- receive completion posted after the drain
  waitA : Bool
  waitB : Bool
  visible : Bool := false
  holders : List (Nat × Nat × Nat) := []
  drained : Nat := 0
  limit : Option Nat := none
deriving DecidableEq, Repr

/-- The headers around a packet that a Rail sends (R65, R67): station addresses, 802.1Q tag as VLAN ID and priority code point,
GIDs or IP addresses, traffic class with DSCP and ECN bits, hop limit, flow label, UDP ports of a RoCEv2 packet. -/
structure NetHdr where
  smac : Nat := 0
  dmac : List (BitVec 8) := []
  tag : Option (Nat × Nat) := none
  sgid : List (BitVec 8) := []
  dgid : List (BitVec 8) := []
  tclass : Nat := 0
  hops : Nat := 0
  flow : Nat := 0
  udp : Option (Nat × Nat) := none
deriving DecidableEq, Repr

/-- What a Rail sends. -/
inductive TxItem
  | roce (lport : Nat) (h : NetHdr) (p : RocePkt)
  | tcp (lport : Nat) (h : NetHdr) (t : TcpSeg)
  | frame (lport : Nat) (tag : Option (Nat × Nat)) (bytes : List (BitVec 8))
  | pfc (port prio : Nat) (xoff : Bool)
deriving DecidableEq, Repr

/-- The Rails beside their registers. -/
structure Rails where
  ctxs : Tab Ctx := []
  rx : Tab (List Frame) := []     -- receive buffer by physical port, oldest first
  xoff : List (Nat × Nat) := []   -- (port, priority) paused
  held : List (Nat × Nat × Frame) := []   -- fault queues: (port, context, packet), oldest first
  fetches : List Nat := []
  evict : List Nat := []          -- contexts in the eviction buffer
  mrs : Tab Mr := []              -- by index
  invs : List Invalidate := []
  tx : List TxItem := []          -- newest first
  inbox : List (Nat × List (BitVec 8) × Bool × Nat) := []  -- capsules for the Parlour, oldest first; whether the data digest failed; tick of arrival
  odpQ : List (Nat × Nat × Bool) := []        -- reports (context, IOVA, responder), in fault order
  odpPend : Tab (Nat × Bool) := []            -- pending bitmap with the report of each context
  slow : List (Nat × List (BitVec 8)) := []   -- slow-path frames (logical port, bytes) that wait for a buffer
  uses : Nat := 0                 -- use counter of the context caches
  idle : List Rail := []          -- Rails whose transmitters are in electrical idle (R87)
deriving DecidableEq, Repr

/-! ## The Parlour -/

/-- Where one 4 KiB block of a command stands on the inline path. -/
inductive BlkStep
  | wait                          -- for the payload, or for the block to be read
  | chunk (by_ : Nat)             -- its chunk read is outstanding; RD_TIMEOUT ends then
  | print                         -- for its fingerprint
  | look (fp : List (BitVec 8))   -- fingerprint delivered
  | bucket (fp : List (BitVec 8)) -- its DRAM buckets are read
  | verify (fp : List (BitVec 8)) (handle locator : Nat)
  | press                         -- for a lane of the Churn
  | crypt (curd : List (BitVec 8))    -- for the Veneer
  | record                        -- its journal record stands in a lane or is programmed
  | cipher (curd : List (BitVec 8)) (wheel unit idx : Nat)  -- read: encrypted curd from the medium
  | plain (curd : List (BitVec 8)) (idx : Nat)              -- read: for the Churn
  | fwd                           -- at the peer
  | sd (n : Nat)                  -- part of a Secure Deallocate: the step of R124 it waits in
  | done
deriving DecidableEq, Repr

/-- One block of a command, or `count` blocks that one record deallocates. `hold`: entry held for a DUPLICATE (handle,
locator); `pend`: fingerprint of its PENDING entry; `tried`: its chunk has been reconstructed once; `pin`: DSEQ of the
write-index entry a read has pinned. -/
structure Blk where
  block : Nat
  count : Nat := 1
  step : BlkStep
  tried : Bool := false
  pin : Option Nat := none
  data : List (BitVec 8) := []
  fp : List (BitVec 8) := []
  hold : Option (Nat × Nat) := none
  pend : Bool := false
  jsn : Option Nat := none
  pair : Option (Nat × Nat) := none   -- paired increment (shard, JSN)
  app : Nat := 0
  ref : Nat := 0
  pail : Option Nat := none
  dseq : Nat := 0
deriving DecidableEq, Repr

/-- How far a command has come. -/
inductive CmdStage
  | gate        -- in its tenant's hold queue
  | eligible    -- passed the gate, waits for dispatch
  | held        -- held for a moving shard
  | running     -- dispatched
deriving DecidableEq, Repr

/-- A part of a command that goes to the peer (R327 to R329): its shard, the TAG of its FWD_REQ, and whether it is queued
(0), is with the peer (1), has come back (2), was cancelled and waits for the confirmation (3), or stands in a
re-execution list (4). -/
structure FwdPart where
  shard : Nat
  tag : Nat := 0
  st : Nat := 0
deriving DecidableEq, Repr

/-- A command context (R102). `commit`: the first journal program has been issued; `cut`: settled past its commit point at
a cut, its completion suppressed; `origin`: the Tenon TAG of a command the peer forwarded. -/
structure NvmeCmd where
  sqe : List (BitVec 8)
  incap : List (BitVec 8) := []
  ctx : Option Nat
  cntlid : Nat
  qid : Nat
  cls : Nat
  tenant : Nat
  vol : Nat
  stage : CmdStage
  since : Nat
  eligibleAt : Nat := 0
  promoted : Bool := false
  heldAt : Nat := 0
  waitSh : List Nat := []         -- moving shards it is held for (R119)
  tick : Nat := 0                 -- tick of its dispatch
  charged : Bool := false         -- the byte tokens of its ranges are paid (R103)
  buf : List (BitVec 8) := []
  need : Nat := 0
  badData : Bool := false         -- a data digest failed (R83)
  blks : List Blk := []
  commit : Bool := false
  changed : Bool := false         -- a part of it has changed something at the peer
  cut : Bool := false
  silent : Bool := false          -- cut by an event that drops its completion (R109)
  past : Bool := false            -- cut, with a part at the peer past its commit point (R112)
  refused : List (Nat × Nat) := []   -- parts that ended with a path status: (shard, status) (R121)
  origin : Option Nat := none
  only : Option Nat := none       -- the shard a forwarded command is executed for
  fwds : List FwdPart := []
  retained : Nat := 0
  deferred : Nat := 0            -- mask of the blades that hold copies not erased (R123)
  dispatchNo : Nat := 0
  begun : Bool := false           -- its execution has begun
  status : Nat := 0               -- SCT × 256 + SC of the first part that failed
  reexec : Bool := false          -- executed again under R329
  asked : Bool := false           -- its pails have been asked for
  widxWait : Bool := false        -- its wait for a write-index entry has been counted
deriving DecidableEq, Repr

/-- An I/O or admin queue bound to a transport context (R101). -/
structure Queue where
  ctx : Nat
  cntlid : Nat
  qid : Nat
  size : Nat
  cls : Nat
  sqhd : Nat := 0                 -- submission queue head
deriving DecidableEq, Repr

/-- A controller (R94, R113): held Asynchronous Event Requests by command identifier, keep-alive period and deadline, ANA
notice enabled. -/
structure Ctrl where
  aers : List Nat := []
  kato : Nat := 0
  kaBy : Option Nat := none
  anaNotice : Bool := true
  en : Bool := false              -- CC.EN as the last Property Set left it
  rdy : Bool := false             -- CSTS.RDY (R111)
  lost : Bool := false            -- its association is lost
deriving DecidableEq, Repr

/-- A queue deletion or controller reset on its way (R111). -/
structure Cut where
  d : Option DescRef
  cntlid : Nat
  qid : Option Nat
  aborted : Nat
  suppressed : Nat := 0
  silent : Bool := true           -- completions dropped (R109)
  waits : List Nat                -- commands past their commit point
  cancels : List Nat              -- forwarded commands whose cancel is not confirmed
deriving DecidableEq, Repr

/-- A tenant's buckets (R103). -/
structure Budget where
  cmds : Nat := 0
  blocks : Int := 0
  urgent : Nat := 0
deriving DecidableEq, Repr

/-- A capsule the Parlour has sent: the transport context, the completion queue entry, the data transferred. -/
structure Capsule where
  ctx : Nat
  cqe : List (BitVec 8)
  data : List (BitVec 8) := []
deriving DecidableEq, Repr

/-- The Parlour beside its registers. `wrr` and `twrr` hold the units left in the present round of each class and tenant
(R104). -/
structure Par where
  cmds : Tab NvmeCmd := []
  gate : List Nat := []           -- contexts in hold queues, in arrival order
  ready : List Nat := []          -- eligible contexts, in the order they became so
  held : List Nat := []           -- commands held under R119, oldest first
  waitCap : List (Nat × List (BitVec 8) × Bool × Nat) := []   -- capsules waiting for a context, as in `Rails.inbox`
  queues : List Queue := []
  ctrls : Tab Ctrl := []
  lost : List Nat := []           -- transport contexts whose association is lost
  cuts : List Cut := []
  budgets : Tab Budget := []
  wrr : Tab Int := []
  twrr : Tab Int := []
  sent : List Capsule := []       -- newest first
  admin : List Nat := []          -- commands for ADMIN_FETCH, oldest first
  anaChanges : Nat := 0
  anaNotices : List (Nat × Nat) := []   -- notices due: (controller, group)
  dispatches : Nat := 0
  forms : Tab Nat := []           -- stored-block counts by volume
  shape : Tab (List (BitVec 8)) := []   -- volume entry whose format the stored data of a volume have (R127)
deriving DecidableEq, Repr

/-! ## The Separator and the Churn -/

/-- An entry of the on-chip filter (R141), most recently used first in its set. `slot`: its DRAM slot, none while it has
none. -/
structure FEntry where
  fp : List (BitVec 8)
  domain : Nat
  state : Nat                     -- 1 PENDING, 2 VALID, 3 FROZEN
  shard : Nat
  refs : Nat
  locator : Nat
  holds : Nat := 0
  slot : Option Nat := none
  dirty : Bool := false
  owner : Nat := 0                -- command context of a PENDING entry
  made : Nat := 0                 -- tick a PENDING entry was made
deriving DecidableEq, Repr

/-- The Separator beside its registers: the filter by set, partitions that are DROPPING with the descriptor that asked, and
the ENTRY_HANDLE of each stored copy that has an entry, by SHARD × 2^64 + LOCATOR. `orphans`: copies (shard, LOCATOR) that lost
a reference before their shard's partition was LOADED, and whose entry may still be inserted (R140, R153). -/
structure Sep where
  filter : Tab (List FEntry) := []
  byLoc : Tab Nat := []
  dropping : List (Nat × Option DescRef) := []
  orphans : List (Nat × Nat) := []
deriving DecidableEq, Repr

/-- A loaded dictionary and the domain it is bound to; the draw that gave the bytes of its encrypted parsed form in DRAM (R162). -/
structure ChurnDict where
  domain : Nat
  bytes : List (BitVec 8)
  form : Nat := 0
deriving DecidableEq, Repr

/-- The Churn beside its registers: dictionaries by DICT_ID, those on chip (most recent first). -/
structure Churn where
  dicts : Tab ChurnDict := []
  onChip : List Nat := []
deriving DecidableEq, Repr

/-! ## The Carcase -/

/-- The Carcase beside its registers: durable intent bits and open counts by (shard, pool, region), bits that wait for the
flush, grace deadlines by blade, queued and running rebuilds, progress cursors, chunks written per target. -/
structure Carc where
  bits : List (Nat × Nat × Nat) := []
  opens : Tab Nat := []           -- by (shard × 16 + pool) × 2^29 + region
  flushAt : Option Nat := none
  grace : Tab Nat := []
  queued : List Nat := []
  running : List Nat := []
  written : Tab Nat := []
  patrolAt : Nat := 0
  skipped : List (Nat × Nat × Nat) := []   -- stripes the patrol visits again: shard, wheel, stripe
  dirty : List (Nat × Nat × Nat) := []     -- regions to resynchronise before their bits may be cleared
  cursors : Tab Nat := []         -- by shard × 256 + pool × 16 + blade
  critSeen : List Nat := []
deriving DecidableEq, Repr

/-! ## The Cellar -/

/-- What the Cellar keeps of a blade: bands, when a band was last erased, spare blocks used by die, counts of R278. -/
structure CBlade where
  bands : Tab Band := []
  erasedAt : Tab Nat := []
  ecs : Tab Nat := []             -- EC of a band at its last erase
  spares : Tab Nat := []
  retired : Nat := 0
  pagesRead : Nat := 0
  pagesProg : Nat := 0
  erases : Nat := 0
  l0Repairs : Nat := 0
  uncorr : Nat := 0
  progFails : Nat := 0
  eraseFails : Nat := 0
  wlAt : Option Nat := none
  defers : List (Nat × Nat × Nat) := []  -- deferred erases: (shard, intent JSN, BAND)
deriving DecidableEq, Repr

/-- A lane of a shard (R248): its blades, the open JOURNAL band on each, records for its next page. -/
structure Lane where
  blades : List Nat
  next : List Nat := []
  holdUntil : Option Nat := none
deriving DecidableEq, Repr

/-- A patch under way (R220): its wheel, stripe and data column, the JSN of its record, the new places by column, and whether the
new pages are programmed and its done record journaled. -/
structure Patch where
  wheel : Nat
  stripe : Nat
  col : Nat
  jsn : Nat
  news : List (Nat × PageLoc)
  ran : Bool := false
deriving DecidableEq, Repr

/-- A shard in the Cellar (R244, R248 to R259). -/
structure CShard where
  lanes : Tab Lane := []
  recs : Tab JRec := []
  pages : Tab JPage := []
  nextPage : Nat := 0
  nextJsn : Nat := 0
  nextWseq : Nat := 1
  nextWheel : Nat := 0
  cat : Tab CatEntry := []
  wheels : Tab Wheel := []
  fwd : Tab Nat := []
  fwdRefs : Tab Nat := []
  frames : List (Nat × Nat) := [] -- (pool, frame) in use
  ckptAt : Option Nat := none
  ckptDue : Option Nat := none    -- EV_CKPT_LATE then
  cut : Nat := 0                  -- CUT_JSN of the latest durable checkpoint
  cutBytes : Nat := 0             -- journal bytes since the cut
  runs : List (List (BitVec 8)) := []   -- records of its flash-tier runs (R142); no command gives it any
  metaPages : List (Nat × List PageLoc) := []
  rootAt : List PageLoc := []     -- root of the latest durable checkpoint, by blade
  rootPages : Nat := 0
  opened : Tab (List Nat) := []   -- open Secure Deallocate intents by JSN, with the withdrawn copies still to erase
  deferred : Tab (List (Nat × Nat)) := [] -- by intent JSN: (blade, BAND) erases deferred (R125)
  patch : Option Patch := none    -- the patch under way; one at a time (log entry 137)
  lost : Nat := 0                 -- stripes of the shard made LOST since the array was formatted
  zeroing : List Nat := []        -- PACKED curds whose live blocks have moved and which are being zeroed (R266)
  epoch : Nat := 0
deriving DecidableEq, Repr

/-- The Cellar beside its registers. `media` holds what this head's durable checkpoints hold, by shard. -/
structure Cell where
  blades : Tab CBlade := []
  shards : Tab CShard := []
  media : Tab (List Snapshot) := []
  healthAt : Option Nat := none
  anchorNext : Tab Nat := []      -- (blade): next anchor slot of the current ANCHOR band
  fullSeen : List Nat := []       -- shards whose EV_JOURNAL_FULL stands
  script : List Medium := []      -- what the medium does with the next commands of the step under way
deriving DecidableEq, Repr

/-! ## The Lease unit and the Tenon link -/

/-- A shard in the Lease unit beside its registers (R331 to R345). -/
structure LeaseX where
  ends : Nat := 0                 -- the lease ends
  counter : Nat := 0              -- highest counter seen in blades' answers
  accepts : List Nat := []        -- blades that accepted the SET_EPOCH of the win
  sent : List Nat := []           -- blades that SET_EPOCH was sent to
  sentAt : Nat := 0
  ready : Tab Nat := []           -- takeover: tick from which SET_EPOCH may go to a blade
  takeBy : Option Nat := none     -- TAKE_LIMIT of a win or of an offer ends then
  quietEnd : Option Nat := none
  tailEnd : Option Nat := none    -- 2 ms after the lease expired (R333)
  readBy : Option Nat := none     -- 2 ms after LEASE_RELEASE was issued (R335)
  committed : Bool := false
  released : List Nat := []       -- blades that have released
  offered : Bool := false
  noteAt : Nat := 0               -- the latest NOTE that listed it
  take : Option DescRef := none
  begin_ : Option DescRef := none
  commit : Option DescRef := none
  drillBy : Option Nat := none    -- GRACE of a due drill ends then
  drillAt : Nat := 0              -- management time of the last drill that was due
deriving DecidableEq, Repr

/-- A renew round (R332): issue tick, shards with the blades that returned their bit. -/
structure Round where
  id : Nat
  at_ : Nat
  shards : List (Nat × List Nat)
deriving DecidableEq, Repr

/-- The Lease unit beside its registers. `reexec`: the re-execution lists by shard, oldest first; `events`: those no
EVENT_WAIT has taken, as (kind, shard, epoch). -/
structure LeaseU where
  shards : Tab LeaseX := []
  rounds : List Round := []
  nextRound : Nat := 0
  renewAt : Option Nat := none
  note : Tab Nat := []            -- epochs in the peer's latest NOTE
  events : List (Nat × Nat × Nat) := []
  hbOutAt : Option Nat := none
  hbInAt : Nat := 0               -- the last edge on HB_IN, or the start of its window
  linkOut : Option Nat := some 0  -- the Tenon link out of ACTIVE and RETRAIN since
  peerLost : Bool := false
  peerRunning : Bool := true      -- mode the peer's latest NOTE reports
  wdogBy : Option Nat := none
  drain : Option DescRef := none
  reexec : Tab (List Nat) := []
  lossDue : Bool := false         -- a peer loss that waits for the end of an activation (R434)
deriving DecidableEq, Repr

/-- Messages sent on the Tenon link (R323, R324). -/
inductive TenMsg
  | note (shards : List (Nat × Nat × Nat)) (running : Bool)   -- (shard, epoch, lease left)
  | offer (shard epoch : Nat)
  | won (shard epoch w : Nat)
  | refuse (shard : Nat)
  | lost (shard : Nat)
  | abdicate (cause : Nat)
  | credit (cls n : Nat)
  | timeReq (t1 : Nat)
  | timeResp (t1 t2 t3 : Nat)
  | fwdReq (tag cls tenant shard : Nat) (capsule data : List (BitVec 8))
  | fwdRsp (tag status dw0 dw1 : Nat) (data : List (BitVec 8))
  | cancel (tag : Nat)
  | cancelled (tag : Nat) (past : Bool)
  | increment (tag shard locator count : Nat)
  | incremented (tag status : Nat)
  | deferErase (tag blade shard : Nat) (bands : List Nat)
  | deferErased (tag : Nat) (bands : List Nat)
  | wipeAsk (tag blade : Nat)
  | wipeConsent (tag blade : Nat) (ok : Bool)
  | regResp (tag status value : Nat)
  | mail (tag : Nat) (bytes : List (BitVec 8))
deriving DecidableEq, Repr

/-- The Tenon link beside its registers: the limit of the present state, sequence numbers of flits, NAKs sent and received in a
row for one flit, messages sent (newest first), credits by class, time synchronisation, mail. -/
structure Tenon where
  limit : Option Nat := none
  lastFlit : Nat := 0
  rxSeq : Nat := 1023             -- last in-order good FSEQ received
  ackd : Nat := 1023              -- last FSEQ the peer acknowledged
  bad : Nat := 0                  -- lanes found bad since the link was last down (R320)
  nakRun : Nat := 0               -- NAKs sent in a row for the flit after rxSeq
  nakDue : Bool := false          -- a NAK is out and its flit has not come
  inNakRun : Nat := 0             -- NAKs received in a row for the flit after ackd
  tx : List TenMsg := []
  credits : Tab Nat := []
  out : List TenMsg := []         -- messages that wait for the link or a credit, oldest first
  timeAt : Option Nat := none     -- next TIME_REQ
  t1 : Option Nat := none
  synced : Option Nat := none     -- end of the last exchange within ±32 ticks
  exchanged : Bool := false       -- an exchange has ended
  slewAt : Nat := 0
  slewLeft : Int := 0
  mail : List (Nat × List (BitVec 8)) := []   -- (TAG, message) not yet delivered
  mailOut : List DescRef := []
  nextTag : Nat := 0
  maint : List (Nat × DescRef) := []  -- MAINT requests sent for a descriptor
deriving DecidableEq, Repr
/-! ## The Jig -/

/-- A slot of the boot NOR (R419, R422): STATE 0 EMPTY, 1 WRITING, 2 VALID; its directory fields, all ones while erased; its
64 KiB blocks (an unlisted block reads as erased). -/
structure JigSlot where
  st : Nat := 0
  len : Nat := 2 ^ 32 - 1
  rollback : Nat := 2 ^ 32 - 1
  version : Nat := 2 ^ 64 - 1
  meas : List (BitVec 8) := []
  blocks : Tab (List (BitVec 8)) := []
deriving DecidableEq, Repr

/-- Who asked the Jig: a descriptor, or a datagram of the management port with its 32-byte header. -/
inductive JigFrom
  | desc (d : DescRef)
  | port (hdr : List (BitVec 8))
deriving DecidableEq, Repr

/-- A block that is written or waits for it (R425). -/
structure JigBlock where
  asked : JigFrom
  index : Nat
  data : List (BitVec 8)
deriving DecidableEq, Repr

/-- The session (R423, R424): blocks received, blocks queued with the one being written first, the tick at which it ends
without a request of the owner. -/
structure JigSession where
  id : Nat
  type : Nat
  len : Nat
  owner : Nat
  got : List Nat := []
  queue : List JigBlock := []
  idleBy : Nat
deriving DecidableEq, Repr

/-- The Jig beside its registers: slots by TYPE, the session, the block being assembled from segments (its OFFSET and its
segments), activations by TYPE with their descriptor, audit payloads kept by the recovery jig. -/
structure Jig where
  slots : Tab JigSlot := []
  session : Option JigSession := none
  parts : Option (Nat × Tab (List (BitVec 8))) := none
  acts : List (Nat × DescRef) := []
  running : List Nat := []        -- types of which an image runs
  recovery : Bool := false
  refused : List Nat := []        -- types whose image was refused at this boot, with no valid one committed since (R384)
  isl : Bool := false             -- an activation of the Island firmware ends with this warm reset
  kept : List (List (BitVec 8)) := []
deriving DecidableEq, Repr


/-- The state of the block. -/
structure State where
  now : Nat                       -- CHIP_TIME (R15), below 2^64
  csr : Tab Nat                   -- register fields that differ from, or were written over, their reset value
  mem : Memory                    -- DRAM and the Vat, by physical address (R37)
  bus : Bus
  rings : Tab Ring                -- by unit base and ring number
  pins : Pins
  tally : Tally
  mtr : Meter
  mgt : Mgmt
  drw : Drawer
  boot : Boot
  aud : Audit
  otp : Memory                    -- one-time-programmable bytes (R383)
  sup : Supply
  cool : Cool
  vat : Vat
  ddr : Ddr
  press : Press
  sec : Sec
  ven : Ven
  blades : Tab Blade              -- the blade behind BLD_b
  ports : Tab HeadPort            -- by b
  rails : Rails
  par : Par
  sep : Sep
  churn : Churn
  carc : Carc
  cell : Cell
  leaseU : LeaseU
  ten : Tenon
  jig : Jig

  draws : Nat                     -- the model's own: free values drawn so far (log entry 8)
  pending : List Instr            -- commands that wait, first in first out
deriving DecidableEq, Repr

/-- The machine right after reset: every register field at its reset value, memory with nothing listed, every unit idle,
the queue empty. What the spec gives no reset value is named in log entry 7. -/
def State.reset : State where
  now := 0
  csr := []
  mem := []
  bus := {}
  rings := []
  pins := {}
  tally := {}
  mtr := {}
  mgt := {}
  drw := {}
  boot := {}
  aud := {}
  otp := []
  sup := {}
  cool := {}
  vat := {}
  ddr := {}
  press := {}
  sec := {}
  ven := {}
  blades := []
  ports := []
  rails := {}
  par := {}
  sep := {}
  churn := {}
  carc := {}
  cell := {}
  leaseU := {}
  ten := {}
  jig := {}

  draws := 0
  pending := []

end Sys2Proof.Machine
end

