-- ==== Sys2Proof/Machine/Iommu.lean ====
section
/-! DEFINITION. The IOMMU of R32: device and process contexts, first-stage and second-stage page tables in DRAM, MSI
translation. R32 names the RISC-V IOMMU Architecture Specification 1.0 for all of them; their formats are taken from it
(PRESUMED, log entry 6). -/
namespace Sys2Proof.Machine
open Sys2Proof

/-- The 64-bit word at a physical address. -/
def State.mem64 (s : State) (a : Nat) : Nat := leNat (Memory.readN s.mem a 8)

/-! ## Page tables -/

/-- The forms of page tables R32 allows: levels below the root, and bits the root's index is wider by. -/
inductive PtMode | bare | three | four
deriving DecidableEq, Repr

/-- MODE of `iosatp` and `iohgatp`: 0 Bare, 8 Sv39 and Sv39x4, 9 Sv48 and Sv48x4; others are reserved. -/
def ptMode (m : Nat) : Option PtMode :=
  if m = 0 then some .bare else if m = 8 then some .three else if m = 9 then some .four else none

/-- Levels of a table below its root. -/
def PtMode.depth : PtMode → Nat
  | .bare => 0
  | .three => 2
  | .four => 3

/-- A leaf entry allows an access of a unit: U and A are 1; R for a read; W and D for a write. -/
def leafAllows (pte : Nat) (write : Bool) : Bool :=
  pte.testBit 4 && pte.testBit 6 && (if write then pte.testBit 2 && pte.testBit 7 else pte.testBit 1)

/-- The address a table maps `va` to, from the entry at `base` + 8 × `ix` down; `l` levels lie below it. `step` turns the
address of a table entry into the physical address it is read at. -/
def State.ptWalk (s : State) (step : Nat → Option Nat) (va : Nat) (write : Bool) (base ix : Nat) : Nat → Option Nat
  | 0 =>
    match step (base + ix * 8) with
    | none => none
    | some p =>
      let pte := s.mem64 p
      if pte.testBit 0 && leafAllows pte write && pte / 2 ^ 54 == 0 then some (bitsOf pte 10 44 * 4096 + va % 4096) else none
  | l + 1 =>
    match step (base + ix * 8) with
    | none => none
    | some p =>
      let pte := s.mem64 p
      let span := 2 ^ (12 + 9 * (l + 1))
      if !pte.testBit 0 || pte / 2 ^ 54 != 0 || (!pte.testBit 1 && pte.testBit 2) then none
      else if pte.testBit 1 || pte.testBit 3 then
        if leafAllows pte write && bitsOf pte 10 44 * 4096 % span == 0 then some (bitsOf pte 10 44 * 4096 + va % span) else none
      else s.ptWalk step va write (bitsOf pte 10 44 * 4096) (va / 2 ^ (12 + 9 * l) % 512) l

/-- A stage of translation by `atp` (MODE, PPN); `wide`: the root's index has two bits more (Sv39x4, Sv48x4). -/
def State.atpStage (s : State) (step : Nat → Option Nat) (atp va : Nat) (wide write : Bool) : Option Nat :=
  match ptMode (atp / 2 ^ 60) with
  | none => none
  | some .bare => some va
  | some m =>
    let top := 12 + 9 * m.depth
    if va < 2 ^ (top + (if wide then 11 else 8)) then
      s.ptWalk step va write (bitsOf atp 0 44 * 4096) (va / 2 ^ top) m.depth
    else none

/-- Second stage: guest physical to physical. -/
def State.stage2 (s : State) (hgatp gpa : Nat) (write : Bool) : Option Nat := s.atpStage some hgatp gpa true write

/-! ## Contexts -/

/-- A device context: its words TC, IOHGATP, FSC, MSIPTP and the MSI address mask and pattern. -/
structure DevCtx where
  tc : Nat
  hgatp : Nat
  fsc : Nat
  msiptp : Nat
  mask : Nat
  pattern : Nat
deriving DecidableEq, Repr

/-- The page of the device directory that holds a device's context, `l` levels down from page `ppn`. -/
def State.ddtPage (s : State) (dev ppn : Nat) : Nat → Option Nat
  | 0 => some ppn
  | l + 1 =>
    let e := s.mem64 (ppn * 4096 + dev / 2 ^ (6 + 9 * l) % 512 * 8)
    if e.testBit 0 then s.ddtPage dev (bitsOf e 10 44) l else none

/-- The device context of a device, or the cause of the fault: 257 or 258 where the directory holds none, 260 where the
device number is too large for it. -/
def State.devCtx (s : State) (dev levels : Nat) : Except Nat DevCtx :=
  if 2 ^ (6 + 9 * levels) ≤ dev then .error 260
  else match s.ddtPage dev s.bus.ddt levels with
    | none => .error 258
    | some p =>
      let w := fun i => s.mem64 (p * 4096 + dev % 64 * 64 + 8 * i)
      if (w 0).testBit 0 then .ok ⟨w 0, w 1, w 3, w 4, w 5, w 6⟩ else .error 258

/-- The word FSC of a process, `l` levels down from page `ppn` of the process directory; its addresses go through the second
stage. -/
def State.pdtWalk (s : State) (hgatp pid ppn : Nat) : Nat → Except Nat Nat
  | 0 =>
    match s.stage2 hgatp (ppn * 4096 + pid % 256 * 16) false with
    | none => .error 265
    | some p => if (s.mem64 p).testBit 0 then .ok (s.mem64 (p + 8)) else .error 266
  | l + 1 =>
    match s.stage2 hgatp (ppn * 4096 + pid / 2 ^ (8 + 9 * l) % 512 * 8) false with
    | none => .error 265
    | some p => if (s.mem64 p).testBit 0 then s.pdtWalk hgatp pid (bitsOf (s.mem64 p) 10 44) l else .error 266

/-- The first-stage root of a request with an optional process ID: Bare where there is none (PDTV, DPE). -/
def State.firstStage (s : State) (c : DevCtx) (pid : Option Nat) : Except Nat Nat :=
  if !c.tc.testBit 5 then (if pid.isSome then .error 260 else .ok c.fsc)
  else match (if pid.isNone && c.tc.testBit 9 then some 0 else pid) with
    | none => .ok 0
    | some p =>
      let mode := c.fsc / 2 ^ 60
      if mode = 0 then .ok 0
      else if 3 < mode then .error 267
      else if 2 ^ (if mode = 1 then 8 else if mode = 2 then 17 else 20) ≤ p then .error 260
      else s.pdtWalk c.hgatp p (bitsOf c.fsc 0 44) (mode - 1)

/-- The guest physical address of an access: the first stage, whose table accesses go through the second. -/
def State.guestAddr (s : State) (c : DevCtx) (pid : Option Nat) (a : Nat) (write : Bool) : Except Nat Nat :=
  match s.firstStage c pid with
  | .error e => .error e
  | .ok atp =>
    match s.atpStage (fun g => s.stage2 c.hgatp g false) atp a false write with
    | none => .error (if write then 15 else 13)
    | some g => .ok g

/-- Levels of the device directory below its root, where a directory is in force (modes 2 to 4). -/
def Bus.ddtLevels (b : Bus) : Option Nat := if 2 ≤ b.ddtMode ∧ b.ddtMode ≤ 4 then some (b.ddtMode - 2) else none

/-- An IOVA of a device translated for a DMA, or the cause of the fault. -/
def State.iommu (s : State) (dev : Nat) (pid : Option Nat) (a : Nat) (write : Bool) : Except Nat Nat :=
  if s.bus.ddtMode = 1 then .ok a
  else match s.bus.ddtLevels with
    | none => .error 256
    | some l =>
      match s.devCtx dev l with
      | .error e => .error e
      | .ok c =>
        match s.guestAddr c pid a write with
        | .error e => .error e
        | .ok g =>
          match s.stage2 c.hgatp g write with
          | none => .error (if write then 23 else 21)
          | some p => .ok p

/-! ## MSI translation -/

/-- The bits of `v` that a mask names, gathered from the lowest up; `n` bits are looked at. -/
def gather (v mask : Nat) : Nat → Nat
  | 0 => 0
  | n + 1 => (if mask.testBit 0 then v % 2 + 2 * gather (v / 2) (mask / 2) n else gather (v / 2) (mask / 2) n)

/-- Where an MSI write to `a` goes: through the MSI page table where the device context enables it and the address is one of
its interrupt files, through the second stage otherwise. -/
def State.msiAddr (s : State) (dev : Nat) (pid : Option Nat) (a : Nat) : Except Nat Nat :=
  if s.bus.ddtMode = 1 then .ok a
  else match s.bus.ddtLevels with
    | none => .error 256
    | some l =>
      match s.devCtx dev l with
      | .error e => .error e
      | .ok c =>
        match s.guestAddr c pid a true with
        | .error e => .error e
        | .ok g =>
          let page := g / 4096
          if c.msiptp / 2 ^ 60 == 1 && (page ||| c.mask) == (c.pattern ||| c.mask) then
            let pte := s.mem64 (bitsOf c.msiptp 0 44 * 4096 + gather page c.mask 52 * 16)
            if pte.testBit 0 && bitsOf pte 1 2 == 3 then .ok (bitsOf pte 10 44 * 4096 + g % 4096) else .error 262
          else match s.stage2 c.hgatp g true with
            | none => .error 23
            | some p => .ok p

end Sys2Proof.Machine
end

