-- ==== Sys2Proof/Machine/Digest.lean ====
section
/-! DEFINITION. The digests of the manual by the standards it names: FIPS 202 (SHA-3, SHAKE), FIPS 180-4 (SHA-256, SHA-512)
and FIPS 198-1 (HMAC), over byte lists (R176, R177, R383). -/
namespace Sys2Proof.Machine
open Sys2Proof

/-! ## Keccak-f[1600] (FIPS 202) -/

/-- The shift register of the round constants, on the polynomial x^8 + x^6 + x^5 + x^4 + 1 (FIPS 202, 3.2.5). -/
def keccakShift (r : Nat) : Nat := if r < 128 then 2 * r else (2 * r) ^^^ 0x171

/-- A round constant, and the shift register after its seven bits: bit j of the register's output is bit 2^j - 1. -/
def keccakConst (r : Nat) : Nat × Nat :=
  (List.range 7).foldl (fun a j => (a.1 + a.2 % 2 * 2 ^ (2 ^ j - 1), keccakShift a.2)) (0, r)

/-- Round constants of `n` rounds from a register on. -/
def keccakConsts : Nat → Nat → List Nat
  | 0, _ => []
  | n + 1, r => (keccakConst r).1 :: keccakConsts n (keccakConst r).2

/-- Round constants of Keccak-f[1600]. -/
def keccakRC : List Nat := keccakConsts 24 1

/-- The walk of the step ρ: each lane it meets, as x + 5 y, with its offset, a triangular number. -/
def keccakWalk : Nat → Nat → Nat → List (Nat × Nat)
  | 0, _, _ => []
  | n + 1, x, y => (x + 5 * y, (24 - n) * (25 - n) / 2 % 64) :: keccakWalk n y ((2 * x + 3 * y) % 5)

/-- Rotation offsets, lane (x, y) at index x + 5 y. -/
def keccakRot : List Nat := (List.range 25).map fun i => (((keccakWalk 24 1 0).find? fun e => e.1 == i).map (·.2)).getD 0

/-- Lane (x, y) of a state, coordinates modulo 5. -/
def lane (a : List (BitVec 64)) (x y : Nat) : BitVec 64 := a.getD (x % 5 + 5 * (y % 5)) 0

/-- A state built lane by lane. -/
def lanes (f : Nat → Nat → BitVec 64) : List (BitVec 64) := (List.range 25).map fun i => f (i % 5) (i / 5)

/-- The step θ. -/
def keccakTheta (a : List (BitVec 64)) : List (BitVec 64) :=
  let c := (List.range 5).map fun x => lane a x 0 ^^^ lane a x 1 ^^^ lane a x 2 ^^^ lane a x 3 ^^^ lane a x 4
  lanes fun x y => lane a x y ^^^ c.getD ((x + 4) % 5) 0 ^^^ (c.getD ((x + 1) % 5) 0).rotateLeft 1

/-- The steps ρ and π. -/
def keccakRhoPi (a : List (BitVec 64)) : List (BitVec 64) :=
  lanes fun x y => (lane a (x + 3 * y) x).rotateLeft (keccakRot.getD ((x + 3 * y) % 5 + 5 * x) 0)

/-- The steps χ and ι. -/
def keccakChiIota (rc : Nat) (a : List (BitVec 64)) : List (BitVec 64) :=
  lanes fun x y =>
    let v := lane a x y ^^^ (~~~ lane a (x + 1) y &&& lane a (x + 2) y)
    if x = 0 ∧ y = 0 then v ^^^ BitVec.ofNat 64 rc else v

/-- The permutation: 24 rounds. -/
def keccakF (a : List (BitVec 64)) : List (BitVec 64) :=
  keccakRC.foldl (fun a rc => keccakChiIota rc (keccakRhoPi (keccakTheta a))) a

/-- A rate block absorbed. -/
def keccakAbsorb (a : List (BitVec 64)) (block : List Byte) : List (BitVec 64) :=
  keccakF (lanes fun x y => lane a x y ^^^ BitVec.ofNat 64 (fieldAt block (8 * (x + 5 * y)) 8))

/-- A byte list cut into blocks of `n`; `fuel` bounds their number. -/
def blocksOf (n : Nat) : Nat → List Byte → List (List Byte)
  | 0, _ => []
  | fuel + 1, bs => if bs.isEmpty then [] else bs.take n :: blocksOf n fuel (bs.drop n)

/-- The padding of FIPS 202 with a domain suffix. -/
def keccakPad (rate suffix : Nat) (m : List Byte) : List Byte :=
  let q := rate - m.length % rate
  if q = 1 then m ++ [BitVec.ofNat 8 (suffix ||| 0x80)]
  else m ++ [BitVec.ofNat 8 suffix] ++ zeros (q - 2) ++ [0x80#8]

/-- The bytes of a state. -/
def laneBytes (a : List (BitVec 64)) : List Byte := a.flatMap fun v => leBytes 8 v.toNat

/-- `n` blocks squeezed. -/
def keccakSqueeze (rate : Nat) : Nat → List (BitVec 64) → List Byte
  | 0, _ => []
  | n + 1, a => (laneBytes a).take rate ++ keccakSqueeze rate n (keccakF a)

/-- The sponge: rate, domain suffix, message, output length. -/
def sponge (rate suffix : Nat) (m : List Byte) (out : Nat) : List Byte :=
  let p := keccakPad rate suffix m
  let a := (blocksOf rate (p.length / rate) p).foldl keccakAbsorb (List.replicate 25 0)
  (keccakSqueeze rate ((out + rate - 1) / rate) a).take out

/-- SHA3 with an output of `n` bytes. -/
def sha3 (n : Nat) (m : List Byte) : List Byte := sponge (200 - 2 * n) 0x06 m n

/-- SHAKE128 and SHAKE256 with an output of `n` bytes. -/
def shake128 (m : List Byte) (n : Nat) : List Byte := sponge 168 0x1F m n
def shake256 (m : List Byte) (n : Nat) : List Byte := sponge 136 0x1F m n

/-! ## SHA-2 (FIPS 180-4) -/

/-- The integer `e`-th root of `n`, found bit by bit from bit `k - 1` down; `r` holds the bits found so far. -/
def rootFrom (e n : Nat) : Nat → Nat → Nat
  | 0, r => r
  | k + 1, r => rootFrom e n k (if (r + 2 ^ k) ^ e ≤ n then r + 2 ^ k else r)

/-- The first 64 bits of the fractional part of the `e`-th root of `n` (FIPS 180-4, 4.2 and 5.3). -/
def rootFraction (e n : Nat) : Nat := rootFrom e (n * 2 ^ (64 * e)) 70 0 % 2 ^ 64

/-- The prime numbers below 410, of which there are 80: no divisor from 2 to 20 other than the number itself. -/
def shaPrimes : List Nat :=
  (List.range 410).filter fun n => 2 ≤ n && (List.range 19).all fun d => n ≤ d + 2 || n % (d + 2) != 0

/-- Round constants of SHA-512, from the cube roots of the first 80 primes; the high halves of the first 64 are those of
SHA-256. -/
def shaK : List Nat := shaPrimes.map (rootFraction 3)

/-- Initial hash value of SHA-512, from the square roots of the first 8 primes; the high halves are that of SHA-256. -/
def shaH : List Nat := (shaPrimes.take 8).map (rootFraction 2)

/-- The parameters in which SHA-256 and SHA-512 differ. -/
structure Sha2 where
  w : Nat                         -- word width in bits
  rounds : Nat
  big0 : List Nat                 -- rotations of Σ0, Σ1, then of σ0, σ1 with their shift last
  big1 : List Nat
  small0 : List Nat
  small1 : List Nat
deriving DecidableEq, Repr

def sha256P : Sha2 := ⟨32, 64, [2, 13, 22], [6, 11, 25], [7, 18, 3], [17, 19, 10]⟩
def sha512P : Sha2 := ⟨64, 80, [28, 34, 39], [14, 18, 41], [1, 8, 7], [19, 61, 6]⟩

/-- A word rotated right. -/
def Sha2.rotr (p : Sha2) (v n : Nat) : Nat := (v / 2 ^ n + v * 2 ^ (p.w - n)) % 2 ^ p.w

/-- Σ: the exclusive or of three rotations. -/
def Sha2.sum (p : Sha2) (r : List Nat) (v : Nat) : Nat :=
  p.rotr v (r.getD 0 0) ^^^ p.rotr v (r.getD 1 0) ^^^ p.rotr v (r.getD 2 0)

/-- σ: two rotations and a shift. -/
def Sha2.sig (p : Sha2) (r : List Nat) (v : Nat) : Nat :=
  p.rotr v (r.getD 0 0) ^^^ p.rotr v (r.getD 1 0) ^^^ v / 2 ^ r.getD 2 0

/-- A round constant or an initial word, cut to the word width. -/
def Sha2.const (p : Sha2) (v : Nat) : Nat := v / 2 ^ (64 - p.w)

/-- A value as `n` big-endian bytes. -/
def beBytes (n v : Nat) : List Byte := (leBytes n v).reverse

/-- The message schedule, the latest word first. -/
def Sha2.schedule (p : Sha2) : Nat → List Nat → List Nat
  | 0, ws => ws
  | n + 1, ws =>
    p.schedule n ((p.sig p.small1 (ws.getD 1 0) + ws.getD 6 0 + p.sig p.small0 (ws.getD 14 0) + ws.getD 15 0) % 2 ^ p.w :: ws)

/-- One round on the working variables a to h. -/
def Sha2.round (p : Sha2) (v : List Nat) (kw : Nat × Nat) : List Nat :=
  let g := fun i => v.getD i 0
  let m := 2 ^ p.w
  let ch := (g 4 &&& g 5) ^^^ ((m - 1 - g 4) &&& g 6)
  let maj := (g 0 &&& g 1) ^^^ (g 0 &&& g 2) ^^^ (g 1 &&& g 2)
  let t1 := (g 7 + p.sum p.big1 (g 4) + ch + kw.1 + kw.2) % m
  let t2 := (p.sum p.big0 (g 0) + maj) % m
  [(t1 + t2) % m, g 0, g 1, g 2, (g 3 + t1) % m, g 4, g 5, g 6]

/-- One message block. -/
def Sha2.block (p : Sha2) (h : List Nat) (b : List Byte) : List Nat :=
  let w16 := (List.range 16).map fun i => beNat ((b.drop (i * (p.w / 8))).take (p.w / 8))
  let ws := (p.schedule (p.rounds - 16) w16.reverse).reverse
  let v := ((shaK.take p.rounds).map p.const |>.zip ws).foldl p.round h
  (h.zip v).map fun x => (x.1 + x.2) % 2 ^ p.w

/-- The digest with all eight words. -/
def Sha2.hash (p : Sha2) (m : List Byte) : List Byte :=
  let bl := p.w * 2
  let z := (bl - (m.length + 1 + p.w / 4) % bl) % bl
  let padded := m ++ [0x80#8] ++ zeros z ++ beBytes (p.w / 4) (m.length * 8)
  ((blocksOf bl (padded.length / bl) padded).foldl p.block (shaH.map p.const)).flatMap (beBytes (p.w / 8))

/-! ## The algorithms of R176 -/

/-- An algorithm: whether HMAC, block length B, fixed output length (0: given by OUT_LEN). -/
structure Alg where
  hmac : Bool
  block : Nat
  out : Nat
deriving DecidableEq, Repr

/-- The algorithms of R176 by ALG. -/
def algOf (a : Nat) : Option Alg :=
  if a = 0x01 then some ⟨false, 144, 28⟩ else if a = 0x02 then some ⟨false, 136, 32⟩
  else if a = 0x03 then some ⟨false, 104, 48⟩ else if a = 0x04 then some ⟨false, 72, 64⟩
  else if a = 0x05 then some ⟨false, 168, 0⟩ else if a = 0x06 then some ⟨false, 136, 0⟩
  else if a = 0x11 then some ⟨true, 136, 32⟩ else if a = 0x12 then some ⟨true, 72, 64⟩
  else if a = 0x21 then some ⟨false, 64, 32⟩ else if a = 0x22 then some ⟨false, 128, 64⟩
  else if a = 0x31 then some ⟨true, 64, 32⟩ else if a = 0x32 then some ⟨true, 128, 64⟩
  else none

/-- The unkeyed digest under an algorithm; for an HMAC algorithm, its underlying hash. -/
def plainHash (a : Nat) (m : List Byte) (out : Nat) : List Byte :=
  if a = 0x01 then sha3 28 m else if a = 0x02 ∨ a = 0x11 then sha3 32 m else if a = 0x03 then sha3 48 m
  else if a = 0x04 ∨ a = 0x12 then sha3 64 m else if a = 0x05 then shake128 m out else if a = 0x06 then shake256 m out
  else if a = 0x21 ∨ a = 0x31 then sha256P.hash m else sha512P.hash m

/-- Bytes exclusive-ored with one value. -/
def xorAll (v : Byte) (bs : List Byte) : List Byte := bs.map (· ^^^ v)

/-- HMAC (R177): K0, the inner pass, the outer pass. -/
def hmac (a b : Nat) (key m : List Byte) : List Byte :=
  let k := if b < key.length then plainHash a key 0 else key
  let k0 := k ++ zeros (b - k.length)
  plainHash a (xorAll 0x5C#8 k0 ++ plainHash a (xorAll 0x36#8 k0 ++ m) 0) 0

/-- The result of a job: message, key (HMAC only), OUT_LEN (SHAKE only). -/
def digest (a : Nat) (key m : List Byte) (out : Nat) : List Byte :=
  match algOf a with
  | none => []
  | some x => if x.hmac then hmac a x.block key m else plainHash a m out

end Sys2Proof.Machine
end

