-- ==== Sys2Proof/Machine/Codes.lean ====
section
/-! DEFINITION. The status codes and the Tally event codes of the manual, by name (the tables of R60, R61 and of each
chapter). Where two units use one name, the unit stands before it. -/
namespace Sys2Proof.Machine

/-! Status codes. -/

def St.success : Nat := 0x0000
def St.opcodeInvalid : Nat := 0x0001
def St.rsvdNonzero : Nat := 0x0002
def St.flagInvalid : Nat := 0x0003
def St.chainTooLong : Nat := 0x0004
def St.chainIncomplete : Nat := 0x0005
def St.dmaFault : Nat := 0x0006
def St.lengthMismatch : Nat := 0x0007
def St.tenantInvalid : Nat := 0x0008
def St.ringStopped : Nat := 0x0009
def St.addrInvalid : Nat := 0x000A
def St.handleInvalid : Nat := 0x000B
def St.unitFault : Nat := 0x000C
def St.qpInvalid : Nat := 0x0201
def St.qpStateInvalid : Nat := 0x0202
def St.mrInvalid : Nat := 0x0203
def St.mrAccess : Nat := 0x0204
def St.remoteAccessErr : Nat := 0x0205
def St.retryExceeded : Nat := 0x0206
def St.rnrRetryExceeded : Nat := 0x0207
def St.localProtection : Nat := 0x0208
def St.odpTimeout : Nat := 0x0209
def St.railDown : Nat := 0x020A
def St.flushed : Nat := 0x020B
def St.remoteOpErr : Nat := 0x020C
def St.remoteInvalidReq : Nat := 0x020D
def St.ctxFull : Nat := 0x020E
def St.portModeInvalid : Nat := 0x020F
def St.tcpPduInvalid : Nat := 0x0210
def St.volInvalid : Nat := 0x0101
def St.volBusy : Nat := 0x0102
def St.volFormat : Nat := 0x0103
def St.tenantEntryInvalid : Nat := 0x0104
def St.ctrlInvalid : Nat := 0x0105
def St.queueInvalid : Nat := 0x0106
def St.parClassInvalid : Nat := 0x0107
def St.ctxNotParlour : Nat := 0x0108
def St.adminNoCommand : Nat := 0x0109
def St.curdFormat : Nat := 0x0301
def St.curdCrc : Nat := 0x0302
def St.zstdUnsupported : Nat := 0x0303
def St.zstdCorrupt : Nat := 0x0304
def St.dictMissing : Nat := 0x0305
def St.dictDomain : Nat := 0x0306
def St.outputOverflow : Nat := 0x0307
def St.piGuard : Nat := 0x0308
def St.churnBlockRange : Nat := 0x0309
def St.dictInvalid : Nat := 0x030A
def St.domainInvalid : Nat := 0x0401
def St.domainBusy : Nat := 0x0402
def St.entryNotFound : Nat := 0x0403
def St.entryExists : Nat := 0x0404
def St.bucketsFull : Nat := 0x0405
def St.countUnderflow : Nat := 0x0406
def St.locatorStale : Nat := 0x0407
def St.sepShardNotOwned : Nat := 0x0408
def St.shardUnloaded : Nat := 0x0409
def St.countSaturated : Nat := 0x040A
def St.entryHeld : Nat := 0x040B
def St.algInvalid : Nat := 0x0501
def St.ctxInvalid : Nat := 0x0502
def St.ctxOwned : Nat := 0x0503
def St.ctxBusy : Nat := 0x0504
def St.ctxNotOpen : Nat := 0x0505
def St.pressOverrun : Nat := 0x0506
def St.pressUnderrun : Nat := 0x0507
def St.legacyOwned : Nat := 0x0508
def St.keyClass : Nat := 0x0509
def St.resultDestUnsupported : Nat := 0x050A
def St.outLenInvalid : Nat := 0x050B
def St.earlyRead : Nat := 0x050C
def St.legacyFifoOverflow : Nat := 0x050D
def St.keyMissing : Nat := 0x050E
def St.geometryInvalid : Nat := 0x0701
def St.decodeInsufficient : Nat := 0x0702
def St.poolInvalid : Nat := 0x0703
def St.genInvalid : Nat := 0x0704
def St.frameRange : Nat := 0x0705
def St.remapFull : Nat := 0x0706
def St.intentNotHeld : Nat := 0x0707
def St.rebuildState : Nat := 0x0708
def St.genBusy : Nat := 0x0709
def St.intentFull : Nat := 0x070A
def St.carcShardNotOwned : Nat := 0x070B
def St.geometryUnsupported : Nat := 0x0801
def St.bladeInvalid : Nat := 0x0802
def St.laneInvalid : Nat := 0x0803
def St.shardState : Nat := 0x0804
def St.epochMismatch : Nat := 0x0805
def St.rootUnreadable : Nat := 0x0806
def St.wheelInvalid : Nat := 0x0807
def St.noBand : Nat := 0x0808
def St.bladeBusy : Nat := 0x0809
def St.loadFailed : Nat := 0x080A
def St.addrRange : Nat := 0x0901
def St.bladeUnreachable : Nat := 0x0902
def St.cmdTimeout : Nat := 0x0903
def St.notClaimed : Nat := 0x0904
def St.claimConflict : Nat := 0x0905
def St.epochAhead : Nat := 0x0906
def St.leaseHeld : Nat := 0x0907
def St.epochNotNewer : Nat := 0x0908
def St.ownerMismatch : Nat := 0x0909
def St.uncorrectable : Nat := 0x090A
def St.erasedPage : Nat := 0x090B
def St.programFail : Nat := 0x090C
def St.eraseFail : Nat := 0x090D
def St.pageOrder : Nat := 0x090E
def St.blockBad : Nat := 0x090F
def St.anchorPort : Nat := 0x0910
def St.wipeNoConsent : Nat := 0x0911
def St.notOwnerLocal : Nat := 0x0912
def St.passRefused : Nat := 0x0913
def St.peerAbsent : Nat := 0x0A01
def St.linkDown : Nat := 0x0A02
def St.epochStale : Nat := 0x0A03
def St.notOwner : Nat := 0x0A04
def St.handoffRefused : Nat := 0x0A05
def St.quorumLost : Nat := 0x0A06
def St.leaseBusy : Nat := 0x0A07
def St.drainState : Nat := 0x0A08
def St.msgTooLong : Nat := 0x0A09
def St.regRefused : Nat := 0x0A0C
def St.rangeInvalid : Nat := 0x0B01
def St.sliceState : Nat := 0x0B02
def St.coolClassInvalid : Nat := 0x0B03
def St.pailInvalid : Nat := 0x0B04
def St.countInvalid : Nat := 0x0B05
def St.keyAbsent : Nat := 0x0601
def St.venUnwrapFail : Nat := 0x0602
def St.keyWeak : Nat := 0x0603
def St.lifecycleState : Nat := 0x0C01
def St.slotInvalid : Nat := 0x0C02
def St.slotOccupied : Nat := 0x0C03
def St.slotEmpty : Nat := 0x0C04
def St.kekAbsent : Nat := 0x0C05
def St.kekPresent : Nat := 0x0C06
def St.unwrapFail : Nat := 0x0C07
def St.entropyFail : Nat := 0x0C08
def St.tokenInvalid : Nat := 0x0C09
def St.cfgwRefused : Nat := 0x0C0A
def St.pairInvalid : Nat := 0x0C0B
def St.jigBusy : Nat := 0x0D01
def St.typeInvalid : Nat := 0x0D02
def St.imageTooLong : Nat := 0x0D03
def St.blockLength : Nat := 0x0D04
def St.jigBlockRange : Nat := 0x0D05
def St.incomplete : Nat := 0x0D06
def St.headerInvalid : Nat := 0x0D07
def St.imageLength : Nat := 0x0D08
def St.keyRevoked : Nat := 0x0D09
def St.signatureInvalid : Nat := 0x0D0A
def St.digestMismatch : Nat := 0x0D0B
def St.rollbackRefused : Nat := 0x0D0C
def St.notDrained : Nat := 0x0D0D
def St.activateBusy : Nat := 0x0D0E
def St.sessionInvalid : Nat := 0x0D0F
def St.norFail : Nat := 0x0D10
def St.mtrShardNotOwned : Nat := 0x0F01
def St.timeInvalid : Nat := 0x0F02
def St.lineFull : Nat := 0x0F03
def St.lineAbsent : Nat := 0x0F04
def St.frameTooLong : Nat := 0x0F05
def St.drwGroupRange : Nat := 0x0020
def St.drwTooLong : Nat := 0x0021
def St.drwSpace : Nat := 0x0022
def St.drwAbsent : Nat := 0x0023
def St.drwNorFail : Nat := 0x0024

/-! Tally event codes. -/

def Ev.busHole : Nat := 0x0001
def Ev.csrAccess : Nat := 0x0002
def Ev.dbForeign : Nat := 0x0003
def Ev.ringError : Nat := 0x0004
def Ev.railDown : Nat := 0x0201
def Ev.railUp : Nat := 0x0202
def Ev.faultqDrop : Nat := 0x0203
def Ev.qpErr : Nat := 0x0204
def Ev.odpTimeout : Nat := 0x0205
def Ev.link : Nat := 0x0206
def Ev.assocLost : Nat := 0x0101
def Ev.queueCut : Nat := 0x0102
def Ev.agePromote : Nat := 0x0103
def Ev.poolFull : Nat := 0x0104
def Ev.ctxExhausted : Nat := 0x0105
def Ev.holdExpired : Nat := 0x0106
def Ev.sdeallocDeferred : Nat := 0x0107
def Ev.curdCrc : Nat := 0x0301
def Ev.laneFault : Nat := 0x0302
def Ev.fpCollision : Nat := 0x0401
def Ev.newlogDrop : Nat := 0x0402
def Ev.countSat : Nat := 0x0403
def Ev.countUnderflow : Nat := 0x0404
def Ev.filterPinned : Nat := 0x0405
def Ev.domainMismatch : Nat := 0x0406
def Ev.shardLoaded : Nat := 0x0407
def Ev.earlyRead : Nat := 0x0501
def Ev.legacyRefused : Nat := 0x0502
def Ev.legacyIdle : Nat := 0x0503
def Ev.pressLaneFault : Nat := 0x0504
def Ev.foreignRead : Nat := 0x0505
def Ev.domainKey : Nat := 0x0506
def Ev.rebuildStart : Nat := 0x0701
def Ev.rebuildDone : Nat := 0x0702
def Ev.stripeLost : Nat := 0x0703
def Ev.critical : Nat := 0x0704
def Ev.patrolUnlocated : Nat := 0x0705
def Ev.chunkRepaired : Nat := 0x0706
def Ev.intentLost : Nat := 0x0707
def Ev.carcLaneFault : Nat := 0x0708
def Ev.resyncDone : Nat := 0x0709
def Ev.genExhausted : Nat := 0x070A
def Ev.poolNarrow : Nat := 0x070B
def Ev.replicaFailed : Nat := 0x0801
def Ev.remirrorDone : Nat := 0x0802
def Ev.journalFull : Nat := 0x0803
def Ev.blockRetired : Nat := 0x0804
def Ev.bladeExhausted : Nat := 0x0805
def Ev.ckptLate : Nat := 0x0806
def Ev.fullScan : Nat := 0x0807
def Ev.cellShardLoaded : Nat := 0x0808
def Ev.deferErased : Nat := 0x0809
def Ev.l0Unrepairable : Nat := 0x080A
def Ev.bladeLink : Nat := 0x0901
def Ev.bladeDegraded : Nat := 0x0902
def Ev.bladeTimeout : Nat := 0x0903
def Ev.epochRefused : Nat := 0x0904
def Ev.bladeFatal : Nat := 0x0905
def Ev.peerLost : Nat := 0x0A01
def Ev.tenUp : Nat := 0x0A02
def Ev.tenDown : Nat := 0x0A03
def Ev.tenDegraded : Nat := 0x0A04
def Ev.shardWon : Nat := 0x0A05
def Ev.leaseLost : Nat := 0x0A06
def Ev.takeAbandoned : Nat := 0x0A07
def Ev.abdicate : Nat := 0x0A08
def Ev.drillMissed : Nat := 0x0A09
def Ev.headConflict : Nat := 0x0A0A
def Ev.headMiswired : Nat := 0x0A0B
def Ev.timeUnsync : Nat := 0x0A0C
def Ev.hbInLost : Nat := 0x0A0D
def Ev.coolUe : Nat := 0x0B01
def Ev.coolTag : Nat := 0x0B02
def Ev.coolDrained : Nat := 0x0B03
def Ev.sliceRetired : Nat := 0x0B04
def Ev.vatUe : Nat := 0x0B05
def Ev.vatWait : Nat := 0x0B06
def Ev.widxFull : Nat := 0x0B07
def Ev.ddrUe : Nat := 0x0B08
def Ev.ddrCeThresh : Nat := 0x0B09
def Ev.ddrHot : Nat := 0x0B0A
def Ev.ddrTrain : Nat := 0x0B0B
def Ev.venUnwrap : Nat := 0x0601
def Ev.venLaneFault : Nat := 0x0602
def Ev.entropyFail : Nat := 0x0C01
def Ev.keyDestroyed : Nat := 0x0C02
def Ev.lockChange : Nat := 0x0C03
def Ev.auditFull : Nat := 0x0C04
def Ev.lifecycle : Nat := 0x0C05
def Ev.tokenRejected : Nat := 0x0C06
def Ev.bootRefused : Nat := 0x0C07
def Ev.jigCommit : Nat := 0x0D01
def Ev.jigCommitFail : Nat := 0x0D02
def Ev.jigActivate : Nat := 0x0D03
def Ev.jigRecovery : Nat := 0x0D04
def Ev.jigIdleAbort : Nat := 0x0D05
def Ev.settingsReset : Nat := 0x0D06
def Ev.slotRestored : Nat := 0x0D07
def Ev.refclkLost : Nat := 0x0E01
def Ev.govSafe : Nat := 0x0E02
def Ev.govTrip : Nat := 0x0E03
def Ev.thermThrottle : Nat := 0x0E04
def Ev.thermTrip : Nat := 0x0E05
def Ev.witOutlier : Nat := 0x0E06
def Ev.witPlan : Nat := 0x0E07
def Ev.retireReq : Nat := 0x0E08
def Ev.marginExhausted : Nat := 0x0E09
def Ev.calInvalid : Nat := 0x0E0A
def Ev.mtrCarried : Nat := 0x0F01
def Ev.mtrOverflow : Nat := 0x0F02
def Ev.mtrRingFull : Nat := 0x0F03
def Ev.mgtLink : Nat := 0x0F04
def Ev.reset : Nat := 0x0010
def Ev.bootReady : Nat := 0x0011
def Ev.drwCorrupt : Nat := 0x0020
def Ev.drwCompact : Nat := 0x0021
def Ev.drwNorFail : Nat := 0x0022

end Sys2Proof.Machine
end

