-- ==== Sys2Proof/Machine/Opcodes.lean ====
section
/-! DEFINITION. The opcode values of the units' chapters. -/
namespace Sys2Proof.Machine

/-! Opcode values (R84, R127, R156, R169, R186, R233, R280, R313, R348, R349, R361, R377, R395, R406, R426, R473, R481,
R502). -/
def Op.qpModify : Nat := 0x01
def Op.qpQuery : Nat := 0x02
def Op.mrRegister : Nat := 0x03
def Op.mrInvalidate : Nat := 0x04
def Op.postSend : Nat := 0x05
def Op.postRecv : Nat := 0x06
def Op.pktTx : Nat := 0x07
def Op.pktRxBuf : Nat := 0x08
def Op.tcpInstall : Nat := 0x09
def Op.tcpRelease : Nat := 0x0A
def Op.odpWait : Nat := 0x0B
def Op.volSet : Nat := 0x01
def Op.tenantSet : Nat := 0x02
def Op.queueBind : Nat := 0x03
def Op.queueDelete : Nat := 0x04
def Op.ctrlReset : Nat := 0x05
def Op.adminFetch : Nat := 0x06
def Op.adminComplete : Nat := 0x07
def Op.aenPost : Nat := 0x08
def Op.anaRead : Nat := 0x09
def Op.domainSet : Nat := 0x01
def Op.lookup : Nat := 0x02
def Op.insert : Nat := 0x03
def Op.refAdjust : Nat := 0x04
def Op.relocate : Nat := 0x05
def Op.mergeScan : Nat := 0x06
def Op.shardState : Nat := 0x07
def Op.compress : Nat := 0x01
def Op.decompress : Nat := 0x02
def Op.recast : Nat := 0x03
def Op.dictLoad : Nat := 0x04
def Op.dictDrop : Nat := 0x05
def Op.hash : Nat := 0x01
def Op.ctxClose : Nat := 0x02
def Op.encode : Nat := 0x01
def Op.decode : Nat := 0x02
def Op.patchDelta : Nat := 0x03
def Op.verify : Nat := 0x04
def Op.locate : Nat := 0x05
def Op.intentAcquire : Nat := 0x06
def Op.intentRelease : Nat := 0x07
def Op.rebuildCtl : Nat := 0x08
def Op.resync : Nat := 0x09
def Op.genSet : Nat := 0x0A
def Op.bladeAttach : Nat := 0x01
def Op.bladeDetach : Nat := 0x02
def Op.laneSet : Nat := 0x03
def Op.shardLoad : Nat := 0x04
def Op.shardRelease : Nat := 0x05
def Op.checkpoint : Nat := 0x06
def Op.foldNow : Nat := 0x07
def Op.reclaim : Nat := 0x08
def Op.healthNow : Nat := 0x09
def Op.pass : Nat := 0x01
def Op.mailSend : Nat := 0x01
def Op.mailRecv : Nat := 0x02
def Op.handoffBegin : Nat := 0x01
def Op.handoffCommit : Nat := 0x02
def Op.handoffAbort : Nat := 0x03
def Op.take : Nat := 0x04
def Op.drain : Nat := 0x05
def Op.undrain : Nat := 0x06
def Op.eventWait : Nat := 0x07
def Op.cleanRange : Nat := 0x01
def Op.flushRange : Nat := 0x02
def Op.cleanAll : Nat := 0x03
def Op.flushWays : Nat := 0x04
def Op.sliceRetire : Nat := 0x05
def Op.sliceRestore : Nat := 0x06
def Op.pailAlloc : Nat := 0x01
def Op.pailFree : Nat := 0x02
def Op.random : Nat := 0x01
def Op.keyGen : Nat := 0x02
def Op.keyLoad : Nat := 0x03
def Op.keyDestroy : Nat := 0x04
def Op.keyExport : Nat := 0x05
def Op.kekCreate : Nat := 0x06
def Op.kekUnseal : Nat := 0x07
def Op.pairOffer : Nat := 0x08
def Op.pairSend : Nat := 0x09
def Op.pairReceive : Nat := 0x0A
def Op.cfgWrite : Nat := 0x0B
def Op.lockSet : Nat := 0x0C
def Op.lockClear : Nat := 0x0D
def Op.attest : Nat := 0x0E
def Op.certRead : Nat := 0x0F
def Op.lifecycleAdvance : Nat := 0x10
def Op.jigBegin : Nat := 0x20
def Op.jigBlock : Nat := 0x21
def Op.jigCommit : Nat := 0x22
def Op.jigAbort : Nat := 0x23
def Op.jigActivate : Nat := 0x24
def Op.jigBitmap : Nat := 0x25
def Op.encrypt : Nat := 0x01
def Op.decrypt : Nat := 0x02
def Op.keyEvict : Nat := 0x03
def Op.capSet : Nat := 0x01
def Op.lineRead : Nat := 0x02
def Op.frameTx : Nat := 0x01
def Op.frameRxBuf : Nat := 0x02
def Op.groupWrite : Nat := 0x01
def Op.groupRead : Nat := 0x02
def Op.groupDelete : Nat := 0x03

end Sys2Proof.Machine
end

