-- ==== Sys2Proof/Machine/Regs.lean ====
section
/-! DEFINITION. The register file of the manual as data: one handle per register field (its address in the CSR
space, its lowest bit, its width and its reset value, as the field tables of the chapters give them), and one row per
register for writes that come over the bus (offset, stride, count, configuration class, access types, ranges).
The home of every field is `State.csr`; a field the file does not list holds its reset value. -/
namespace Sys2Proof.Machine

/-- A register field: byte offset of its register in the CSR space, lowest bit, width, reset value. -/
structure Fld where
  reg : Nat
  lo : Nat
  w : Nat
  reset : Nat
deriving DecidableEq, Repr

/-- The key of a field in the register file. -/
def Fld.key (f : Fld) : Nat := f.reg * 64 + f.lo

/-- Access types of R11, with the two special ones of R451/R462 (`rwMfg`) and R490 (`w1sIsland`). -/
inductive Access
  | rw | ro | wo | w1c | w1s | rwMfg | w1sIsland
deriving DecidableEq, Repr

/-- When a field may change ("written only while ..." of its table). -/
inductive Gate
  | always      -- no condition
  | unitEnZero  -- only while bit 0 of the unit's control register at 0x20_0000 is 0
  | portOff     -- RAIL_PORT_CFG_j.MODE: only while EN of that port is 0
  | railsOff    -- RDMA_CTX_TABLE: only while both Rails are OFF
  | poolInvalid -- CARC_POOL_p W, P, SEED: only while VALID is 0
  | audIdle     -- AUD_RING: only while AUD_IDX.PROD equals CONS
  | spillOff    -- TAL_RING: only while SPILL_EN is 0
deriving DecidableEq, Repr

/-- One field of a register row: position, access, reset value, the values the manual allows, and its gate. -/
structure FieldRow where
  lo : Nat
  w : Nat
  acc : Access
  reset : Nat
  min : Nat
  max : Nat
  gate : Gate
deriving DecidableEq, Repr

/-- One register row: unit `4 n + k`, offset from the unit base, up to two array strides and counts, class. -/
structure RegRow where
  unit : Nat
  off : Nat
  stride : Nat
  count : Nat
  stride2 : Nat
  count2 : Nat
  config : Bool
  fields : List FieldRow
deriving DecidableEq, Repr

/-- Default floors of the pail classes (R365). -/
def vatFloorReset (c : Nat) : Nat := if c < 2 then 6144 else 2048

/-- Default ceilings of the pail classes (R365). -/
def vatCeilReset (c : Nat) : Nat := if c < 2 then 20480 else if c = 3 then 12288 else 8192

/-- Phases of the regulator of domain `d` (R442). -/
def pwrPhases (d : Nat) : Nat :=
  if d < 66 then 2 else if d < 68 then 4 else if d < 70 then 3 else if d < 81 then 4
  else if d < 83 then 3 else if d < 87 then 4 else if d = 87 then 8 else if d < 94 then 3 else 1

/-- The domain a witness mark monitors; 96 is the always-on island (R454). -/
def markDomain (m : Nat) : Nat :=
  if m < 192 then m / 4 else if m < 288 then 54 + (m - 192) / 2 / 6
  else if m < 300 then 48 + (m - 288) / 2 else if m < 368 then 62 + (m - 300) / 2 else 96

/-- The kind of a witness mark: even ring oscillator, odd path replica (R454). -/
def markKind (m : Nat) : Nat := m % 2

/-- One entry of a default snapshot set: window, offset, INST, UNIT_REL, stride (R475). -/
structure SetRow where
  window : Nat
  offset : Nat
  inst : Nat
  unitRel : Nat
  stride : Nat
deriving DecidableEq, Repr

/-- The default snapshot sets, from the units' event tables (R475). The numbering of the sets is the model's own
(DESIGN CHOICE, log entry 12): set 0 is empty. -/
def talSets : Nat → List SetRow
  | 1 => [⟨0, 0x100020, 1, 1, 8⟩]
  | 2 => [⟨0, 0x200008, 0, 1, 0⟩]
  | 3 => [⟨5, 0x204020, 0, 0, 0⟩]
  | 4 => [⟨7, 0x201100, 1, 0, 1⟩]
  | 5 => [⟨7, 0x201000, 1, 0, 1⟩]
  | 6 => [⟨9, 0x201000, 1, 0, 1⟩]
  | 7 => [⟨10, 0x600040, 0, 0, 0⟩, ⟨10, 0x200008, 0, 0, 0⟩]
  | 8 => [⟨10, 0x200008, 0, 0, 0⟩]
  | 9 => [⟨11, 0xA01100, 1, 0, 1⟩]
  | 10 => [⟨13, 0x200100, 1, 0, 1⟩]
  | 11 => [⟨14, 0x201060, 1, 0, 16⟩, ⟨14, 0x201068, 1, 0, 16⟩]
  | 12 => [⟨15, 0xA00008, 0, 0, 0⟩]
  | 13 => [⟨0, 0xA00008, 0, 0, 0⟩, ⟨0, 0xA00010, 0, 0, 0⟩]
  | 14 => [⟨14, 0x201060, 1, 0, 16⟩, ⟨14, 0x201000, 1, 0, 16⟩]
  | 15 => [⟨14, 0x600008, 0, 0, 0⟩]
  | _ => []

/-- The default set of the code with index `x` (R475). -/
def talCodeSet (x : Nat) : Nat :=
  if x = 0x004 then 1 else if x = 0x201 then 2 else if x = 0x502 then 3 else if x = 0x701 then 4
  else if x = 0x70B then 5 else if x = 0x901 then 6 else if x = 0xA01 then 7 else if x = 0xA03 then 8
  else if x = 0xB08 ∨ x = 0xB09 then 9 else if x = 0xD01 then 10 else if x = 0xE02 then 11 else if x = 0xF04 then 12
  else if x = 0x010 then 13 else if x = 0xE03 then 14 else if x = 0xE07 then 15 else 0

/-- Entry `j` of default set `s`. -/
def talSetRow (s j : Nat) : Option SetRow := (talSets s)[j]?
def talSetOffset (s j : Nat) : Nat := ((talSetRow s j).map SetRow.offset).getD 0
def talSetWindow (s j : Nat) : Nat := ((talSetRow s j).map SetRow.window).getD 0
def talSetValid (s j : Nat) : Nat := if (talSetRow s j).isSome then 1 else 0
def talSetInst (s j : Nat) : Nat := ((talSetRow s j).map SetRow.inst).getD 0
def talSetUnitRel (s j : Nat) : Nat := ((talSetRow s j).map SetRow.unitRel).getD 0
def talSetStride (s j : Nat) : Nat := ((talSetRow s j).map SetRow.stride).getD 0


/-! Common header (R40) and ring registers (R53), by the unit's base `u` in the CSR space and ring `r`. -/

def UNIT_LOCK.LOCKED (u : Nat) : Fld := ⟨u + 0x10, 0, 1, 0⟩
def UNIT_LOCK.REFUSED (u : Nat) : Fld := ⟨u + 0x10, 16, 32, 0⟩
def UNIT_ERR.ORIGIN (u : Nat) : Fld := ⟨u + 0x18, 0, 16, 0⟩
def UNIT_ERR.OFFSET (u : Nat) : Fld := ⟨u + 0x18, 16, 24, 0⟩
def UNIT_ERR.KIND (u : Nat) : Fld := ⟨u + 0x18, 40, 4, 0⟩
def UNIT_ERR.VALID (u : Nat) : Fld := ⟨u + 0x18, 63, 1, 0⟩
def RING_DBASE.BASE (u r : Nat) : Fld := ⟨u + 0x100000 + r * 0x40 + 0x0, 12, 36, 0⟩
def RING_CBASE.BASE (u r : Nat) : Fld := ⟨u + 0x100000 + r * 0x40 + 0x8, 12, 36, 0⟩
def RING_CFG.LOG2_SIZE (u r : Nat) : Fld := ⟨u + 0x100000 + r * 0x40 + 0x10, 0, 5, 4⟩
def RING_CFG.PROCESS_ID (u r : Nat) : Fld := ⟨u + 0x100000 + r * 0x40 + 0x10, 24, 20, 0⟩
def RING_CFG.PID_VALID (u r : Nat) : Fld := ⟨u + 0x100000 + r * 0x40 + 0x10, 44, 1, 0⟩
def RING_CTL.EN (u r : Nat) : Fld := ⟨u + 0x100000 + r * 0x40 + 0x18, 0, 1, 0⟩
def RING_CTL.STOP (u r : Nat) : Fld := ⟨u + 0x100000 + r * 0x40 + 0x18, 1, 1, 0⟩
def RING_CTL.FLUSH (u r : Nat) : Fld := ⟨u + 0x100000 + r * 0x40 + 0x18, 2, 1, 0⟩
def RING_CTL.START (u r : Nat) : Fld := ⟨u + 0x100000 + r * 0x40 + 0x18, 3, 1, 0⟩
def RING_STATUS.STATE (u r : Nat) : Fld := ⟨u + 0x100000 + r * 0x40 + 0x20, 0, 3, 0⟩
def RING_STATUS.ERR_CAUSE (u r : Nat) : Fld := ⟨u + 0x100000 + r * 0x40 + 0x20, 8, 8, 0⟩
def RING_STATUS.CONS_IDX (u r : Nat) : Fld := ⟨u + 0x100000 + r * 0x40 + 0x20, 16, 16, 0⟩
def RING_STATUS.CPL_IDX (u r : Nat) : Fld := ⟨u + 0x100000 + r * 0x40 + 0x20, 32, 16, 0⟩
def RING_STATUS.CPL_PHASE (u r : Nat) : Fld := ⟨u + 0x100000 + r * 0x40 + 0x20, 48, 1, 1⟩
def RING_OWNER.ORIGIN (u r : Nat) : Fld := ⟨u + 0x100000 + r * 0x40 + 0x28, 0, 16, 0⟩
def RING_OWNER.ANY (u r : Nat) : Fld := ⟨u + 0x100000 + r * 0x40 + 0x28, 16, 1, 1⟩
def RING_MSI_ADDR.ADDR (u r : Nat) : Fld := ⟨u + 0x100000 + r * 0x40 + 0x30, 2, 46, 0⟩
def RING_MSI.IDENTITY (u r : Nat) : Fld := ⟨u + 0x100000 + r * 0x40 + 0x38, 0, 11, 0⟩
def RING_MSI.EN (u r : Nat) : Fld := ⟨u + 0x100000 + r * 0x40 + 0x38, 11, 1, 0⟩
def RING_MSI.ERR_EN (u r : Nat) : Fld := ⟨u + 0x100000 + r * 0x40 + 0x38, 12, 1, 0⟩
def RING_MSI.HOLDOFF (u r : Nat) : Fld := ⟨u + 0x100000 + r * 0x40 + 0x38, 16, 16, 0⟩

/-! Registers of the chapters. -/

def RAIL_CTL.EN (rail : Nat) : Fld := ⟨0x2200000 + rail * 0x400000, 0, 1, 0⟩
def RAIL_CTL.RESET (rail : Nat) : Fld := ⟨0x2200000 + rail * 0x400000, 1, 1, 0⟩
def RAIL_CTL.FAIL (rail : Nat) : Fld := ⟨0x2200000 + rail * 0x400000, 2, 1, 0⟩
def RAIL_STATUS.STATE (rail : Nat) : Fld := ⟨0x2200008 + rail * 0x400000, 0, 2, 0⟩
def RAIL_STATUS.FAIL_CAUSE (rail : Nat) : Fld := ⟨0x2200008 + rail * 0x400000, 8, 8, 0⟩
def RAIL_STATUS.LPORT_UP (rail : Nat) : Fld := ⟨0x2200008 + rail * 0x400000, 16, 8, 0⟩
def RAIL_PORT_CFG.MODE (rail j : Nat) : Fld := ⟨0x2200100 + rail * 0x400000 + j * 0x8, 0, 2, 3⟩
def RAIL_PORT_CFG.EN (rail j : Nat) : Fld := ⟨0x2200100 + rail * 0x400000 + j * 0x8, 2, 1, 0⟩
def RAIL_PORT_CFG.PFC_EN (rail j : Nat) : Fld := ⟨0x2200100 + rail * 0x400000 + j * 0x8, 3, 1, 0⟩
def RAIL_PORT_CFG.PFC_PRIO (rail j : Nat) : Fld := ⟨0x2200100 + rail * 0x400000 + j * 0x8, 4, 8, 0⟩
def RAIL_PORT_CFG.MTU (rail j : Nat) : Fld := ⟨0x2200100 + rail * 0x400000 + j * 0x8, 16, 14, 4200⟩
def RAIL_PORT_CFG.MEDIUM (rail j : Nat) : Fld := ⟨0x2200100 + rail * 0x400000 + j * 0x8, 30, 2, 0⟩
def RAIL_PORT_CFG.AN_EN (rail j : Nat) : Fld := ⟨0x2200100 + rail * 0x400000 + j * 0x8, 32, 1, 1⟩
def RAIL_PORT_STATUS.LINK_UP (rail j : Nat) : Fld := ⟨0x2200140 + rail * 0x400000 + j * 0x8, 0, 4, 0⟩
def RAIL_PORT_STATUS.FEC_LOCK (rail j : Nat) : Fld := ⟨0x2200140 + rail * 0x400000 + j * 0x8, 4, 4, 0⟩
def RAIL_PORT_STATUS.RX_DROP (rail j : Nat) : Fld := ⟨0x2200140 + rail * 0x400000 + j * 0x8, 8, 24, 0⟩
def RAIL_PORT_STATUS.FEC_UNCORR (rail j : Nat) : Fld := ⟨0x2200140 + rail * 0x400000 + j * 0x8, 32, 32, 0⟩
def RAIL_LPORT_MAC.MAC (rail l : Nat) : Fld := ⟨0x2200200 + rail * 0x400000 + l * 0x8, 0, 48, 0⟩
def RAIL_LPORT_MAC.VID (rail l : Nat) : Fld := ⟨0x2200200 + rail * 0x400000 + l * 0x8, 48, 12, 0⟩
def RAIL_LPORT_MAC.PCP (rail l : Nat) : Fld := ⟨0x2200200 + rail * 0x400000 + l * 0x8, 60, 3, 0⟩
def RAIL_LPORT_MAC.TAG_EN (rail l : Nat) : Fld := ⟨0x2200200 + rail * 0x400000 + l * 0x8, 63, 1, 0⟩
def RDMA_GID_CTL.VALID (rail l i : Nat) : Fld := ⟨0x2201010 + rail * 0x400000 + l * 0x200 + i * 0x20, 0, 1, 0⟩
def RDMA_GID_CTL.VID (rail l i : Nat) : Fld := ⟨0x2201010 + rail * 0x400000 + l * 0x200 + i * 0x20, 12, 12, 0⟩
def RDMA_GID_CTL.TAG_EN (rail l i : Nat) : Fld := ⟨0x2201010 + rail * 0x400000 + l * 0x200 + i * 0x20, 24, 1, 0⟩
def RDMA_CTX_TABLE.BASE : Fld := ⟨0x2A00000, 12, 36, 0⟩
def RDMA_CACHE_STATUS.RESIDENT (rail : Nat) : Fld := ⟨0x2203000 + rail * 0x400000, 0, 14, 0⟩
def RDMA_CACHE_STATUS.PINNED (rail : Nat) : Fld := ⟨0x2203000 + rail * 0x400000, 16, 13, 0⟩
def RDMA_CACHE_STATUS.FETCHES (rail : Nat) : Fld := ⟨0x2203000 + rail * 0x400000, 32, 9, 0⟩
def RDMA_FAULTQ.BYTES (rail j : Nat) : Fld := ⟨0x2203100 + rail * 0x400000 + j * 0x8, 0, 19, 0⟩
def RDMA_FAULTQ.DROPS (rail j : Nat) : Fld := ⟨0x2203100 + rail * 0x400000 + j * 0x8, 32, 32, 0⟩
def RDMA_MR_TABLE.LOG2_ENTRIES : Fld := ⟨0x2A00008, 0, 5, 10⟩
def RDMA_MR_TABLE.BASE : Fld := ⟨0x2A00008, 12, 36, 0⟩
def RDMA_MR_TABLE.DRAIN_LIMIT : Fld := ⟨0x2A00008, 48, 8, 16⟩
def RDMA_ODP_CFG.TIMEOUT (rail : Nat) : Fld := ⟨0x2203200 + rail * 0x400000, 0, 16, 160⟩
def RDMA_ODP_RESUME.CTX (rail : Nat) : Fld := ⟨0x2203208 + rail * 0x400000, 0, 17, 0⟩
def RDMA_ODP_STATUS.QUEUED (rail : Nat) : Fld := ⟨0x2203210 + rail * 0x400000, 0, 9, 0⟩
def RDMA_ODP_STATUS.PENDING (rail : Nat) : Fld := ⟨0x2203210 + rail * 0x400000, 16, 18, 0⟩
def RDMA_ODP_STATUS.OVERFLOWS (rail : Nat) : Fld := ⟨0x2203210 + rail * 0x400000, 48, 16, 0⟩
def RDMA_CC_CFG0.CUT_NUM (rail : Nat) : Fld := ⟨0x2202000 + rail * 0x400000, 0, 8, 64⟩
def RDMA_CC_CFG0.CUT_GAP (rail : Nat) : Fld := ⟨0x2202000 + rail * 0x400000, 8, 16, 50⟩
def RDMA_CC_CFG0.RISE_PERIOD (rail : Nat) : Fld := ⟨0x2202000 + rail * 0x400000, 24, 16, 80⟩
def RDMA_CC_CFG0.FAST_STAGES (rail : Nat) : Fld := ⟨0x2202000 + rail * 0x400000, 40, 3, 5⟩
def RDMA_CC_CFG1.R_AI (rail : Nat) : Fld := ⟨0x2202008 + rail * 0x400000, 0, 16, 50⟩
def RDMA_CC_CFG1.R_MIN (rail : Nat) : Fld := ⟨0x2202008 + rail * 0x400000, 16, 16, 10⟩
def RDMA_CC_CFG1.CNP_GAP (rail : Nat) : Fld := ⟨0x2202008 + rail * 0x400000, 32, 16, 40⟩
def RDMA_CC_CFG1.CC_EN (rail : Nat) : Fld := ⟨0x2202008 + rail * 0x400000, 48, 1, 1⟩
def RDMA_CC_CFG1.CNP_EN (rail : Nat) : Fld := ⟨0x2202008 + rail * 0x400000, 49, 1, 1⟩
def PAR_CTL.EN : Fld := ⟨0x1200000, 0, 1, 0⟩
def PAR_CTL.FWD_RESERVE : Fld := ⟨0x1200000, 16, 18, 16384⟩
def PAR_VOL_TABLE.BASE : Fld := ⟨0x1200008, 12, 36, 0⟩
def PAR_TENANT_TABLE.BASE : Fld := ⟨0x1200010, 12, 36, 0⟩
def PAR_CLASS_CFG.W_HIGH : Fld := ⟨0x1200018, 0, 8, 8⟩
def PAR_CLASS_CFG.W_MED : Fld := ⟨0x1200018, 8, 8, 4⟩
def PAR_CLASS_CFG.W_LOW : Fld := ⟨0x1200018, 16, 8, 1⟩
def PAR_CLASS_CFG.AGE_HIGH : Fld := ⟨0x1200018, 32, 11, 8⟩
def PAR_CLASS_CFG.AGE_MED : Fld := ⟨0x1200018, 43, 11, 32⟩
def PAR_CLASS_CFG.AGE_LOW : Fld := ⟨0x1200018, 54, 10, 160⟩
def PAR_HANDOFF_CFG.HOLD_LIMIT : Fld := ⟨0x1200020, 0, 8, 32⟩
def PAR_CTX_STATUS.IN_USE : Fld := ⟨0x1200040, 0, 19, 0⟩
def PAR_CTX_STATUS.PEAK : Fld := ⟨0x1200040, 20, 19, 0⟩
def PAR_CTX_STATUS.PEAK_CLR : Fld := ⟨0x1200040, 39, 1, 0⟩
def PAR_CTX_STATUS.WAITING : Fld := ⟨0x1200040, 40, 24, 0⟩
def PAR_PROMO_COUNT.HIGH : Fld := ⟨0x1200048, 0, 21, 0⟩
def PAR_PROMO_COUNT.MED : Fld := ⟨0x1200048, 21, 21, 0⟩
def PAR_PROMO_COUNT.LOW : Fld := ⟨0x1200048, 42, 21, 0⟩
def PAR_SHARD.STATE (s : Nat) : Fld := ⟨0x1201000 + s * 0x8, 0, 3, 5⟩
def PAR_SHARD.HELD (s : Nat) : Fld := ⟨0x1201000 + s * 0x8, 8, 20, 0⟩
def PAR_SHARD.EPOCH (s : Nat) : Fld := ⟨0x1201000 + s * 0x8, 32, 32, 0⟩
def SEP_CTL.EN : Fld := ⟨0x4200000, 0, 1, 0⟩
def SEP_CTL.INLINE_EN : Fld := ⟨0x4200000, 1, 1, 0⟩
def SEP_INDEX_BASE.BASE : Fld := ⟨0x4200008, 12, 36, 0⟩
def SEP_INDEX_CFG.LOG2_BUCKETS : Fld := ⟨0x4200010, 0, 6, 20⟩
def SEP_DOMAIN_BASE.BASE : Fld := ⟨0x4200018, 12, 36, 0⟩
def SEP_NEWLOG_BASE.LOG2_RECORDS : Fld := ⟨0x4200020, 0, 5, 16⟩
def SEP_NEWLOG_BASE.BASE : Fld := ⟨0x4200020, 12, 36, 0⟩
def SEP_NEWLOG_STATUS.PROD : Fld := ⟨0x4200028, 0, 26, 0⟩
def SEP_NEWLOG_STATUS.CONS : Fld := ⟨0x4200028, 32, 26, 0⟩
def SEP_NEWLOG_STATUS.DROPS : Fld := ⟨0x4200028, 58, 6, 0⟩
def SEP_STATUS.PINNED : Fld := ⟨0x4200040, 0, 20, 0⟩
def SEP_STATUS.IN_FLIGHT : Fld := ⟨0x4200040, 32, 13, 0⟩
def SEP_COUNT_DUP.COUNT : Fld := ⟨0x4200048, 0, 64, 0⟩
def SEP_COUNT_UNIQUE.COUNT : Fld := ⟨0x4200050, 0, 64, 0⟩
def SEP_COUNT_NOINDEX.COUNT : Fld := ⟨0x4200058, 0, 64, 0⟩
def SEP_SHARD.STATE (s : Nat) : Fld := ⟨0x4201000 + s * 0x8, 0, 2, 0⟩
def SEP_SHARD.ENTRIES (s : Nat) : Fld := ⟨0x4201000 + s * 0x8, 8, 36, 0⟩
def SEP_SHARD.HOLDS (s : Nat) : Fld := ⟨0x4201000 + s * 0x8, 44, 16, 0⟩
def CHURN_CTL.EN : Fld := ⟨0x3200000, 0, 1, 0⟩
def CHURN_CTL.RING_MIN : Fld := ⟨0x3200000, 4, 4, 2⟩
def CHURN_CTL.LANE_EN : Fld := ⟨0x3200000, 16, 16, 65535⟩
def CHURN_DICT_BASE.BASE : Fld := ⟨0x3200008, 12, 36, 0⟩
def CHURN_STATUS.LANE_BUSY : Fld := ⟨0x3200040, 0, 16, 0⟩
def CHURN_STATUS.DICT_RESIDENT : Fld := ⟨0x3200040, 16, 6, 0⟩
def CHURN_STATUS.LANE_FAULT : Fld := ⟨0x3200040, 32, 16, 0⟩
def CHURN_DICT_MISSES.VALUE : Fld := ⟨0x3200048, 0, 64, 0⟩
def PRESS_CTL.EN : Fld := ⟨0x5200000, 0, 1, 0⟩
def PRESS_CTL.LEG_EN : Fld := ⟨0x5200000, 1, 1, 0⟩
def PRESS_CTL.RING_MIN : Fld := ⟨0x5200000, 4, 4, 2⟩
def PRESS_CTL.LANE_EN : Fld := ⟨0x5200000, 16, 16, 65535⟩
def PRESS_RING_PRIV.RING : Fld := ⟨0x5200008, 0, 64, 0⟩
def PRESS_STATUS.LANE_BUSY : Fld := ⟨0x5200040, 0, 16, 0⟩
def PRESS_STATUS.LANE_FAULT : Fld := ⟨0x5200040, 16, 16, 0⟩
def PRESS_STATUS.CTX_OPEN : Fld := ⟨0x5200040, 32, 7, 0⟩
def PRESS_CTX_STATUS.STATE (c : Nat) : Fld := ⟨0x5201000 + c * 0x8, 0, 3, 0⟩
def PRESS_CTX_STATUS.OWNER_RING (c : Nat) : Fld := ⟨0x5201000 + c * 0x8, 8, 6, 0⟩
def PRESS_CTX_STATUS.ALG (c : Nat) : Fld := ⟨0x5201000 + c * 0x8, 16, 8, 0⟩
def PRESS_CTX_STATUS.EARLY_READ (c : Nat) : Fld := ⟨0x5201000 + c * 0x8, 24, 1, 0⟩
def PRESS_CTX_STATUS.FOREIGN_READ (c : Nat) : Fld := ⟨0x5201000 + c * 0x8, 25, 1, 0⟩
def PRESS_CTX_STATUS.ERR (c : Nat) : Fld := ⟨0x5201000 + c * 0x8, 32, 16, 0⟩
def PRESS_RESULT.BYTES (c w : Nat) : Fld := ⟨0x5202000 + c * 0x40 + w * 0x8, 0, 64, 0⟩
def PRESS_LEG_CTL.ALG : Fld := ⟨0x5204000, 0, 8, 0⟩
def PRESS_LEG_CTL.START : Fld := ⟨0x5204000, 8, 1, 0⟩
def PRESS_LEG_CTL.RELEASE : Fld := ⟨0x5204000, 9, 1, 0⟩
def PRESS_LEG_CTL.FINAL : Fld := ⟨0x5204000, 10, 1, 0⟩
def PRESS_LEG_CTL.LENGTH : Fld := ⟨0x5204000, 32, 32, 0⟩
def PRESS_LEG_KEY.HANDLE : Fld := ⟨0x5204008, 0, 64, 0⟩
def PRESS_LEG_DATA.WORD : Fld := ⟨0x5204010, 0, 64, 0⟩
def PRESS_LEG_STATUS.BUSY : Fld := ⟨0x5204018, 0, 1, 0⟩
def PRESS_LEG_STATUS.LOCKED : Fld := ⟨0x5204018, 1, 1, 0⟩
def PRESS_LEG_STATUS.DONE : Fld := ⟨0x5204018, 2, 1, 0⟩
def PRESS_LEG_STATUS.OWNER : Fld := ⟨0x5204018, 16, 16, 0⟩
def PRESS_LEG_STATUS.ERR : Fld := ⟨0x5204018, 32, 16, 0⟩
def PRESS_LEG_STATUS.FIFO_FREE : Fld := ⟨0x5204018, 48, 6, 32⟩
def PRESS_LEG_REFUSED.ORIGIN : Fld := ⟨0x5204020, 0, 16, 0⟩
def PRESS_LEG_REFUSED.STATUS : Fld := ⟨0x5204020, 16, 16, 0⟩
def PRESS_LEG_REFUSED.OWNER : Fld := ⟨0x5204020, 32, 16, 0⟩
def PRESS_LEG_REFUSED.COUNT : Fld := ⟨0x5204020, 48, 16, 0⟩
def PRESS_LEG_RESULT.VALUE (w : Nat) : Fld := ⟨0x5204040 + w * 0x8, 0, 64, 0⟩
def PRESS_LEG_CFG.IDLE_LIMIT : Fld := ⟨0x5204080, 0, 16, 1600⟩
def CARC_CTL.EN : Fld := ⟨0x7200000, 0, 1, 0⟩
def CARC_CTL.PATROL_EN : Fld := ⟨0x7200000, 1, 1, 0⟩
def CARC_CTL.DEEP : Fld := ⟨0x7200000, 2, 1, 0⟩
def CARC_CTL.REBUILD_EN : Fld := ⟨0x7200000, 3, 1, 1⟩
def CARC_CTL.LANE_EN : Fld := ⟨0x7200000, 32, 16, 65535⟩
def CARC_GEN_BASE.BASE : Fld := ⟨0x7200008, 12, 36, 0⟩
def CARC_REMAP_CFG.LOG2_BUCKETS : Fld := ⟨0x7200010, 0, 5, 16⟩
def CARC_REMAP_CFG.BASE : Fld := ⟨0x7200010, 12, 36, 0⟩
def CARC_INTENT_CFG.LOG2_ENTRIES : Fld := ⟨0x7200018, 0, 5, 14⟩
def CARC_INTENT_CFG.BASE : Fld := ⟨0x7200018, 12, 36, 0⟩
def CARC_INTENT_CFG.FLUSH : Fld := ⟨0x7200018, 48, 8, 16⟩
def CARC_REBUILD_CFG.PRIO : Fld := ⟨0x7200020, 0, 2, 2⟩
def CARC_REBUILD_CFG.GRACE : Fld := ⟨0x7200020, 16, 24, 48000⟩
def CARC_REBUILD_CFG.RD_TIMEOUT : Fld := ⟨0x7200020, 40, 8, 80⟩
def CARC_PATROL_CFG.PERIOD : Fld := ⟨0x7200028, 0, 8, 14⟩
def CARC_PATROL_CFG.BUDGET : Fld := ⟨0x7200028, 8, 4, 2⟩
def CARC_STATUS.LANE_BUSY : Fld := ⟨0x7200040, 0, 16, 0⟩
def CARC_STATUS.LANE_FAULT : Fld := ⟨0x7200040, 16, 16, 0⟩
def CARC_STATUS.INTENTS_OPEN : Fld := ⟨0x7200040, 32, 20, 0⟩
def CARC_PATROL_STATUS.PASSES : Fld := ⟨0x7200048, 0, 16, 0⟩
def CARC_PATROL_STATUS.REPAIRED : Fld := ⟨0x7200048, 16, 20, 0⟩
def CARC_PATROL_STATUS.UNLOCATED : Fld := ⟨0x7200048, 36, 20, 0⟩
def CARC_LOST_COUNT.VALUE : Fld := ⟨0x7200050, 0, 64, 0⟩
def CARC_POOL.W (p : Nat) : Fld := ⟨0x7201000 + p * 0x8, 0, 5, 10⟩
def CARC_POOL.P (p : Nat) : Fld := ⟨0x7201000 + p * 0x8, 5, 2, 2⟩
def CARC_POOL.VALID (p : Nat) : Fld := ⟨0x7201000 + p * 0x8, 7, 1, 0⟩
def CARC_POOL.CUR_GEN (p : Nat) : Fld := ⟨0x7201000 + p * 0x8, 8, 8, 0⟩
def CARC_POOL.MEMBERS (p : Nat) : Fld := ⟨0x7201000 + p * 0x8, 16, 16, 0⟩
def CARC_POOL.SEED (p : Nat) : Fld := ⟨0x7201000 + p * 0x8, 32, 32, 0⟩
def CARC_BLADE.STATE (b : Nat) : Fld := ⟨0x7201100 + b * 0x8, 0, 3, 0⟩
def CARC_BLADE.PAUSED (b : Nat) : Fld := ⟨0x7201100 + b * 0x8, 3, 1, 0⟩
def CARC_BLADE.REMAINING (b : Nat) : Fld := ⟨0x7201100 + b * 0x8, 8, 32, 0⟩
def CARC_BLADE.CRITICAL (b : Nat) : Fld := ⟨0x7201100 + b * 0x8, 40, 24, 0⟩
def CELL_CTL.EN : Fld := ⟨0x8200000, 0, 1, 0⟩
def CELL_CTL.GC_EN : Fld := ⟨0x8200000, 1, 1, 1⟩
def CELL_CTL.WL_EN : Fld := ⟨0x8200000, 2, 1, 1⟩
def CELL_CTL.HEAD : Fld := ⟨0x8200000, 3, 1, 0⟩
def CELL_META_CFG.LOG2_SIZE : Fld := ⟨0x8200008, 0, 6, 30⟩
def CELL_META_CFG.BASE : Fld := ⟨0x8200008, 12, 36, 0⟩
def CELL_JRN_CFG.TIMEOUT : Fld := ⟨0x8200010, 0, 8, 8⟩
def CELL_JRN_CFG.HOLD : Fld := ⟨0x8200010, 8, 16, 0⟩
def CELL_JRN_CFG.RES_BANDS : Fld := ⟨0x8200010, 32, 12, 64⟩
def CELL_CKPT_CFG.PERIOD : Fld := ⟨0x8200018, 0, 16, 1600⟩
def CELL_CKPT_CFG.TAIL_MIB : Fld := ⟨0x8200018, 16, 16, 64⟩
def CELL_FOLD_CFG.AGE : Fld := ⟨0x8200020, 0, 24, 16000⟩
def CELL_GC_CFG.VICTIM_LIVE : Fld := ⟨0x8200028, 0, 7, 30⟩
def CELL_GC_CFG.WHEEL_LIVE : Fld := ⟨0x8200028, 7, 7, 50⟩
def CELL_GC_CFG.GC_LOW : Fld := ⟨0x8200028, 14, 12, 256⟩
def CELL_GC_CFG.WL_GAP : Fld := ⟨0x8200028, 26, 12, 150⟩
def CELL_GC_CFG.WL_PERIOD : Fld := ⟨0x8200028, 38, 26, 96000⟩
def CELL_HEALTH_RING.LOG2_ENTRIES : Fld := ⟨0x8200030, 0, 5, 10⟩
def CELL_HEALTH_RING.BASE : Fld := ⟨0x8200030, 12, 36, 0⟩
def CELL_HEALTH_RING.PERIOD : Fld := ⟨0x8200030, 48, 16, 9600⟩
def CELL_HEALTH_IDX.PROD : Fld := ⟨0x8200038, 0, 20, 0⟩
def CELL_HEALTH_IDX.CONS : Fld := ⟨0x8200038, 20, 20, 0⟩
def CELL_HEALTH_IDX.DROPS : Fld := ⟨0x8200038, 40, 24, 0⟩
def CELL_POOL_RES.WR_RES (p : Nat) : Fld := ⟨0x8201000 + p * 0x8, 0, 10, 20⟩
def CELL_POOL_RES.GC_RES (p : Nat) : Fld := ⟨0x8201000 + p * 0x8, 10, 10, 30⟩
def CELL_POOL_STATUS.FREE (p : Nat) : Fld := ⟨0x8201080 + p * 0x8, 0, 40, 0⟩
def CELL_POOL_STATUS.FULL (p : Nat) : Fld := ⟨0x8201080 + p * 0x8, 40, 1, 0⟩
def CELL_BLADE.STATE (b : Nat) : Fld := ⟨0x8201100 + b * 0x8, 0, 2, 0⟩
def CELL_BLADE.FREE_BANDS (b : Nat) : Fld := ⟨0x8201100 + b * 0x8, 8, 22, 0⟩
def CELL_BLADE.SPARE_MIN (b : Nat) : Fld := ⟨0x8201100 + b * 0x8, 30, 12, 0⟩
def CELL_BLADE.RETIRED (b : Nat) : Fld := ⟨0x8201100 + b * 0x8, 42, 22, 0⟩
def CELL_SHARD.STATE (s : Nat) : Fld := ⟨0x8202000 + s * 0x8, 0, 2, 0⟩
def CELL_SHARD.LANES (s : Nat) : Fld := ⟨0x8202000 + s * 0x8, 2, 4, 0⟩
def CELL_SHARD.UNFOLDED (s : Nat) : Fld := ⟨0x8202000 + s * 0x8, 8, 24, 0⟩
def CELL_SHARD.CKPT_GEN (s : Nat) : Fld := ⟨0x8202000 + s * 0x8, 32, 32, 0⟩
def BLD_CTL.EN : Fld := ⟨0x9200000, 0, 1, 0⟩
def BLD_CTL.PORT_EN : Fld := ⟨0x9200000, 16, 16, 0⟩
def BLD_LINK_CFG.ALLOW_32GT : Fld := ⟨0x9200008, 0, 1, 1⟩
def BLD_LINK_CFG.MIN_WIDTH : Fld := ⟨0x9200008, 1, 2, 1⟩
def BLD_LINK_CFG.UNREACH : Fld := ⟨0x9200008, 8, 8, 16⟩
def BLD_LINK_CFG.CMD_TIMEOUT : Fld := ⟨0x9200008, 16, 16, 1600⟩
def BLD_LINK_CFG.LEASE_SILENCE : Fld := ⟨0x9200008, 32, 16, 256⟩
def BLD_PORT_STATUS.STATE (b : Nat) : Fld := ⟨0x9201000 + b * 0x8, 0, 3, 0⟩
def BLD_PORT_STATUS.PRSNT (b : Nat) : Fld := ⟨0x9201000 + b * 0x8, 3, 1, 0⟩
def BLD_PORT_STATUS.WIDTH (b : Nat) : Fld := ⟨0x9201000 + b * 0x8, 4, 2, 0⟩
def BLD_PORT_STATUS.SPEED32 (b : Nat) : Fld := ⟨0x9201000 + b * 0x8, 6, 1, 0⟩
def BLD_PORT_STATUS.OUTSTANDING (b : Nat) : Fld := ⟨0x9201000 + b * 0x8, 8, 13, 0⟩
def BLD_PORT_STATUS.DOWN_CAUSE (b : Nat) : Fld := ⟨0x9201000 + b * 0x8, 24, 8, 0⟩
def BLD_PORT_STATUS.FLAPS (b : Nat) : Fld := ⟨0x9201000 + b * 0x8, 32, 32, 0⟩
def BLD_PORT_CTL.RESET (b : Nat) : Fld := ⟨0x9201080 + b * 0x8, 0, 1, 0⟩
def BLD_PORT_ERR.TIMEOUTS (b : Nat) : Fld := ⟨0x9201100 + b * 0x8, 0, 16, 0⟩
def BLD_PORT_ERR.AER_UNCORR (b : Nat) : Fld := ⟨0x9201100 + b * 0x8, 16, 16, 0⟩
def BLD_PORT_ERR.EPOCH_REFUSED (b : Nat) : Fld := ⟨0x9201100 + b * 0x8, 32, 32, 0⟩
def TEN_CTL.EN : Fld := ⟨0xA200000, 0, 1, 0⟩
def TEN_CTL.RETRAIN : Fld := ⟨0xA200000, 1, 1, 0⟩
def TEN_CTL.LANE_EN : Fld := ⟨0xA200000, 8, 8, 255⟩
def TEN_CTL.MIN_WIDTH : Fld := ⟨0xA200000, 16, 2, 1⟩
def TEN_STATUS.STATE : Fld := ⟨0xA200008, 0, 3, 0⟩
def TEN_STATUS.PEER_HEAD : Fld := ⟨0xA200008, 3, 1, 0⟩
def TEN_STATUS.WIDTH : Fld := ⟨0xA200008, 4, 4, 0⟩
def TEN_STATUS.LANES : Fld := ⟨0xA200008, 8, 8, 0⟩
def TEN_STATUS.REVERSED : Fld := ⟨0xA200008, 16, 1, 0⟩
def TEN_STATUS.DOWN_CAUSE : Fld := ⟨0xA200008, 24, 8, 0⟩
def TEN_STATUS.RETRAINS : Fld := ⟨0xA200008, 32, 32, 0⟩
def TEN_ERR.FEC_CORR : Fld := ⟨0xA200010, 0, 32, 0⟩
def TEN_ERR.REPLAYS : Fld := ⟨0xA200010, 32, 16, 0⟩
def TEN_ERR.CRC_FAIL : Fld := ⟨0xA200010, 48, 16, 0⟩
def TEN_FWD_CFG.FWD_WAIT : Fld := ⟨0xA200018, 0, 8, 16⟩
def TEN_REG_ALLOW.UNIT : Fld := ⟨0xA200020, 0, 16, 0⟩
def TEN_TIME_CFG.PERIOD : Fld := ⟨0xA200040, 0, 16, 100⟩
def TEN_TIME_CFG.ASYM : Fld := ⟨0xA200040, 16, 16, 0⟩
def TEN_TIME_CFG.STEP_MIN : Fld := ⟨0xA200040, 32, 16, 2⟩
def TEN_TIME_STATUS.SYNCED : Fld := ⟨0xA200048, 0, 1, 0⟩
def TEN_TIME_STATUS.MASTER : Fld := ⟨0xA200048, 1, 1, 0⟩
def TEN_TIME_STATUS.OFFSET : Fld := ⟨0xA200048, 16, 32, 0⟩
def TEN_TIME_STATUS.RATE : Fld := ⟨0xA200048, 48, 16, 0⟩
def LEASE_CTL.EN : Fld := ⟨0xA600000, 0, 1, 0⟩
def LEASE_CTL.AUTO_TAKE : Fld := ⟨0xA600000, 1, 1, 1⟩
def LEASE_CTL.HEAD : Fld := ⟨0xA600000, 2, 1, 0⟩
def LEASE_CTL.SOLO : Fld := ⟨0xA600000, 3, 1, 0⟩
def LEASE_CTL.MODE : Fld := ⟨0xA600000, 4, 2, 0⟩
def LEASE_CTL.ABDICATE : Fld := ⟨0xA600000, 6, 1, 0⟩
def LEASE_CFG.BLADES : Fld := ⟨0xA600008, 0, 16, 0⟩
def LEASE_CFG.TERM : Fld := ⟨0xA600008, 16, 10, 400⟩
def LEASE_CFG.RENEW : Fld := ⟨0xA600008, 26, 8, 80⟩
def LEASE_CFG.TAKE_LIMIT : Fld := ⟨0xA600008, 34, 16, 1600⟩
def LEASE_HB_CFG.HB_LOSS : Fld := ⟨0xA600010, 0, 23, 4800000⟩
def LEASE_HB_CFG.HB_OUT_EN : Fld := ⟨0xA600010, 23, 1, 1⟩
def LEASE_HB_CFG.WDOG_LIMIT : Fld := ⟨0xA600010, 24, 16, 16⟩
def LEASE_WDOG.KICK : Fld := ⟨0xA600018, 0, 1, 0⟩
def LEASE_WDOG.LEFT : Fld := ⟨0xA600018, 16, 16, 16⟩
def LEASE_DRILL_CFG.EN : Fld := ⟨0xA600020, 0, 1, 1⟩
def LEASE_DRILL_CFG.PERIOD : Fld := ⟨0xA600020, 8, 32, 138240000⟩
def LEASE_DRILL_CFG.GRACE : Fld := ⟨0xA600020, 40, 16, 1600⟩
def LEASE_DRILL_CFG.DRAIN_PAR : Fld := ⟨0xA600020, 56, 8, 16⟩
def LEASE_STATUS.PEER : Fld := ⟨0xA600040, 0, 2, 0⟩
def LEASE_STATUS.HB_IN_OK : Fld := ⟨0xA600040, 2, 1, 0⟩
def LEASE_STATUS.LINK_OK : Fld := ⟨0xA600040, 3, 1, 0⟩
def LEASE_STATUS.OWNED : Fld := ⟨0xA600040, 16, 9, 0⟩
def LEASE_STATUS.DRILLS_MISSED : Fld := ⟨0xA600040, 32, 16, 0⟩
def LEASE_STATUS.ROUNDS_SHORT : Fld := ⟨0xA600040, 48, 16, 0⟩
def LEASE_SHARD.STATE (s : Nat) : Fld := ⟨0xA601000 + s * 0x8, 0, 3, 0⟩
def LEASE_SHARD.BY_TAKE (s : Nat) : Fld := ⟨0xA601000 + s * 0x8, 3, 1, 0⟩
def LEASE_SHARD.ACCEPTS (s : Nat) : Fld := ⟨0xA601000 + s * 0x8, 8, 5, 0⟩
def LEASE_SHARD.LEFT (s : Nat) : Fld := ⟨0xA601000 + s * 0x8, 16, 9, 0⟩
def LEASE_SHARD.DRILLS (s : Nat) : Fld := ⟨0xA601000 + s * 0x8, 32, 32, 0⟩
def LEASE_EPOCH.EPOCH (s : Nat) : Fld := ⟨0xA601800 + s * 0x8, 0, 64, 0⟩
def COOL_CTL.EN : Fld := ⟨0xB200000, 0, 1, 0⟩
def COOL_CTL.PF_EN : Fld := ⟨0xB200000, 1, 1, 1⟩
def COOL_STATUS.STATE : Fld := ⟨0xB200008, 0, 2, 0⟩
def COOL_STATUS.ACTIVE : Fld := ⟨0xB200008, 8, 6, 48⟩
def COOL_SLICE_MAP.SLICE (i j : Nat) : Fld := ⟨0xB200010 + i * 0x8, 8*j, 6, 8*i+j⟩
def COOL_PART_CORE.CLUS (c : Nat) : Fld := ⟨0xB200040, 3*c, 3, 0⟩
def COOL_PART_CORE.MGMT : Fld := ⟨0xB200040, 18, 3, 0⟩
def COOL_PART_UNIT.UNIT (n : Nat) : Fld := ⟨0xB200048, 3*n, 3, 0⟩
def COOL_PF_CFG.DEGREE : Fld := ⟨0xB200050, 0, 5, 4⟩
def COOL_PF_CFG.STREAM_LINES : Fld := ⟨0xB200050, 16, 12, 256⟩
def COOL_PF_CFG.MSHR_LIMIT : Fld := ⟨0xB200050, 32, 7, 48⟩
def COOL_ERR.CE : Fld := ⟨0xB200058, 0, 32, 0⟩
def COOL_ERR.UE : Fld := ⟨0xB200058, 32, 16, 0⟩
def COOL_ERR.TAG : Fld := ⟨0xB200058, 48, 16, 0⟩
def COOL_WAYMASK.MASK (p : Nat) : Fld := ⟨0xB200100 + p * 0x8, 0, 16, 65535⟩
def COOL_WAYMASK.INSERT (p : Nat) : Fld := ⟨0xB200100 + p * 0x8, 16, 2, 2⟩
def COOL_WAYMASK.PF (p : Nat) : Fld := ⟨0xB200100 + p * 0x8, 18, 1, 1⟩
def VAT_CTL.EN : Fld := ⟨0xB600000, 0, 1, 0⟩
def VAT_CTL.QUARTER_EN : Fld := ⟨0xB600000, 4, 4, 15⟩
def VAT_STATUS.FREE : Fld := ⟨0xB600008, 0, 17, 32768⟩
def VAT_STATUS.WIDX : Fld := ⟨0xB600008, 17, 17, 0⟩
def VAT_STATUS.WIDX_WAITS : Fld := ⟨0xB600008, 34, 30, 0⟩
def VAT_ERR.CE : Fld := ⟨0xB600040, 0, 32, 0⟩
def VAT_ERR.UE : Fld := ⟨0xB600040, 32, 16, 0⟩
def VAT_CLASS.FLOOR (c : Nat) : Fld := ⟨0xB600100 + c * 0x8, 0, 16, vatFloorReset c⟩
def VAT_CLASS.CEIL (c : Nat) : Fld := ⟨0xB600100 + c * 0x8, 16, 16, vatCeilReset c⟩
def VAT_CLASS.ALARM (c : Nat) : Fld := ⟨0xB600100 + c * 0x8, 32, 16, 16⟩
def VAT_USE.USED (c : Nat) : Fld := ⟨0xB600180 + c * 0x8, 0, 16, 0⟩
def VAT_USE.PEAK (c : Nat) : Fld := ⟨0xB600180 + c * 0x8, 16, 16, 0⟩
def VAT_USE.WAITING (c : Nat) : Fld := ⟨0xB600180 + c * 0x8, 32, 16, 0⟩
def VAT_USE.PEAK_CLR (c : Nat) : Fld := ⟨0xB600180 + c * 0x8, 48, 1, 0⟩
def DDR_CFG.EN : Fld := ⟨0xBA00000, 0, 1, 0⟩
def DDR_CFG.CH_MODE : Fld := ⟨0xBA00000, 1, 1, 0⟩
def DDR_CFG.SPEED : Fld := ⟨0xBA00000, 2, 2, 2⟩
def DDR_CFG.DPC2 : Fld := ⟨0xBA00000, 4, 1, 0⟩
def DDR_CFG.RANKS2 : Fld := ⟨0xBA00000, 5, 1, 0⟩
def DDR_CFG.X8 : Fld := ⟨0xBA00000, 6, 1, 0⟩
def DDR_CFG.CAP_GIB : Fld := ⟨0xBA00000, 16, 8, 0⟩
def DDR_SCRUB_CFG.EN : Fld := ⟨0xBA00008, 0, 1, 1⟩
def DDR_SCRUB_CFG.PERIOD : Fld := ⟨0xBA00008, 8, 8, 24⟩
def DDR_SCRUB_CFG.CE_THRESH : Fld := ⟨0xBA00008, 16, 16, 64⟩
def DDR_STATUS.STATE (c : Nat) : Fld := ⟨0xBA01000 + c * 0x8, 0, 2, 0⟩
def DDR_STATUS.FAST (c : Nat) : Fld := ⟨0xBA01000 + c * 0x8, 2, 1, 0⟩
def DDR_STATUS.THROTTLED (c : Nat) : Fld := ⟨0xBA01000 + c * 0x8, 3, 1, 0⟩
def DDR_STATUS.FAIL_CAUSE (c : Nat) : Fld := ⟨0xBA01000 + c * 0x8, 4, 4, 0⟩
def DDR_STATUS.TEMP (c : Nat) : Fld := ⟨0xBA01000 + c * 0x8, 8, 8, 0⟩
def DDR_ERR.VALID (c : Nat) : Fld := ⟨0xBA01100 + c * 0x8, 0, 1, 0⟩
def DDR_ERR.UE (c : Nat) : Fld := ⟨0xBA01100 + c * 0x8, 1, 1, 0⟩
def DDR_ERR.SUBCH (c : Nat) : Fld := ⟨0xBA01100 + c * 0x8, 2, 1, 0⟩
def DDR_ERR.RANK (c : Nat) : Fld := ⟨0xBA01100 + c * 0x8, 3, 2, 0⟩
def DDR_ERR.BG (c : Nat) : Fld := ⟨0xBA01100 + c * 0x8, 5, 3, 0⟩
def DDR_ERR.BANK (c : Nat) : Fld := ⟨0xBA01100 + c * 0x8, 8, 2, 0⟩
def DDR_ERR.ROW (c : Nat) : Fld := ⟨0xBA01100 + c * 0x8, 10, 18, 0⟩
def DDR_ERR.COL (c : Nat) : Fld := ⟨0xBA01100 + c * 0x8, 28, 11, 0⟩
def DDR_ERR.DEVICE (c : Nat) : Fld := ⟨0xBA01100 + c * 0x8, 39, 4, 0⟩
def DDR_ERR.CE_COUNT (c : Nat) : Fld := ⟨0xBA01100 + c * 0x8, 48, 16, 0⟩
def SEC_STATUS.LIFECYCLE : Fld := ⟨0xC200000, 0, 2, 0⟩
def SEC_STATUS.LAYER : Fld := ⟨0xC200000, 2, 2, 0⟩
def SEC_STATUS.KEK : Fld := ⟨0xC200000, 4, 1, 0⟩
def SEC_STATUS.DEBUG_OPEN : Fld := ⟨0xC200000, 5, 1, 0⟩
def SEC_STATUS.IMAGES_OK : Fld := ⟨0xC200000, 6, 1, 0⟩
def SEC_STATUS.ROLLBACK_ISL : Fld := ⟨0xC200000, 8, 9, 0⟩
def SEC_CTL.SHUTDOWN : Fld := ⟨0xC200008, 0, 1, 0⟩
def SEC_NONCE.NONCE : Fld := ⟨0xC200010, 0, 64, 0⟩
def SEC_CFGW_MASK.UNIT : Fld := ⟨0xC200018, 0, 64, 0⟩
def SEC_RNG_STATUS.FAIL : Fld := ⟨0xC200020, 0, 1, 0⟩
def SEC_RNG_STATUS.TEST : Fld := ⟨0xC200020, 1, 2, 0⟩
def SEC_RNG_STATUS.RESEEDS : Fld := ⟨0xC200020, 32, 32, 0⟩
def SEC_MEAS.BYTES (m w : Nat) : Fld := ⟨0xC201000 + m * 0x40 + w * 0x8, 0, 64, 0⟩
def AUD_RING.LOG2_ENTRIES : Fld := ⟨0xC600000, 0, 5, 14⟩
def AUD_RING.BASE : Fld := ⟨0xC600000, 12, 36, 0⟩
def AUD_IDX.PROD : Fld := ⟨0xC600008, 0, 24, 0⟩
def AUD_IDX.CONS : Fld := ⟨0xC600008, 32, 24, 0⟩
def AUD_SEAL_CFG.ENTRIES : Fld := ⟨0xC600010, 0, 16, 4096⟩
def AUD_SEAL_CFG.PERIOD : Fld := ⟨0xC600010, 16, 16, 1600⟩
def AUD_STATUS.STAGED : Fld := ⟨0xC600018, 0, 10, 0⟩
def AUD_STATUS.LAST_SEAL : Fld := ⟨0xC600018, 16, 48, 0⟩
def VEN_CTL.EN : Fld := ⟨0x6200000, 0, 1, 0⟩
def VEN_CTL.RING_MIN : Fld := ⟨0x6200000, 4, 4, 2⟩
def VEN_CTL.LANE_EN : Fld := ⟨0x6200000, 16, 16, 65535⟩
def VEN_KEYTAB_BASE.BASE : Fld := ⟨0x6200008, 12, 36, 0⟩
def VEN_STATUS.LANE_BUSY : Fld := ⟨0x6200040, 0, 16, 0⟩
def VEN_STATUS.LANE_FAULT : Fld := ⟨0x6200040, 16, 16, 0⟩
def VEN_STATUS.CACHED : Fld := ⟨0x6200040, 32, 13, 0⟩
def VEN_MISSES.VALUE : Fld := ⟨0x6200048, 0, 64, 0⟩
def JIG_STATUS.STATE : Fld := ⟨0xD200000, 0, 3, 0⟩
def JIG_STATUS.TYPE : Fld := ⟨0xD200000, 3, 2, 0⟩
def JIG_STATUS.BLOCKS : Fld := ⟨0xD200000, 8, 9, 0⟩
def JIG_STATUS.OWNER : Fld := ⟨0xD200000, 32, 16, 0⟩
def JIG_STATUS.LAST_STATUS : Fld := ⟨0xD200000, 48, 16, 0⟩
def JIG_CFG.IDLE : Fld := ⟨0xD200008, 0, 24, 96000⟩
def JIG_CFG.PORT : Fld := ⟨0xD200008, 24, 16, 7010⟩
def JIG_CFG.MGT_EN : Fld := ⟨0xD200008, 40, 1, 1⟩
def JIG_SLOT.STATE (t : Nat) : Fld := ⟨0xD200100 + t * 0x8, 0, 2, 0⟩
def JIG_SLOT.ACTIVE (t : Nat) : Fld := ⟨0xD200100 + t * 0x8, 2, 1, 0⟩
def JIG_SLOT.ROLLBACK (t : Nat) : Fld := ⟨0xD200100 + t * 0x8, 3, 9, 0⟩
def JIG_SLOT.IMAGE_LEN (t : Nat) : Fld := ⟨0xD200100 + t * 0x8, 32, 32, 0⟩
def JIG_SLOTVER.VALUE (t : Nat) : Fld := ⟨0xD200140 + t * 0x8, 0, 64, 0⟩
def CLK_STATUS.PLL_LOCK : Fld := ⟨0x600000, 0, 1, 0⟩
def CLK_STATUS.REFCLK_OK : Fld := ⟨0x600000, 1, 1, 0⟩
def CLK_STATUS.AON_OSC : Fld := ⟨0x600000, 2, 1, 0⟩
def CLK_STATUS.LOSSES : Fld := ⟨0x600000, 16, 16, 0⟩
def CLK_CORE.DIV (c : Nat) : Fld := ⟨0x601000 + c * 0x8, 0, 2, 0⟩
def CLK_CORE.FLOOR (c : Nat) : Fld := ⟨0x601000 + c * 0x8, 2, 2, 0⟩
def CLK_CORE.THROTTLE (c : Nat) : Fld := ⟨0x601000 + c * 0x8, 4, 2, 0⟩
def CLK_CORE.EFFECTIVE (c : Nat) : Fld := ⟨0x601000 + c * 0x8, 6, 2, 0⟩
def CLK_CORE.RETIRED (c : Nat) : Fld := ⟨0x601000 + c * 0x8, 8, 1, 0⟩
def PWR_DOM.REQ_ON (d : Nat) : Fld := ⟨0xA01000 + d * 0x8, 0, 1, 0⟩
def PWR_DOM.STATE (d : Nat) : Fld := ⟨0xA01000 + d * 0x8, 1, 3, 0⟩
def PWR_DOM.PHASES (d : Nat) : Fld := ⟨0xA01000 + d * 0x8, 4, 4, pwrPhases d⟩
def PWR_DOM.REFUSED (d : Nat) : Fld := ⟨0xA01000 + d * 0x8, 8, 1, 0⟩
def GOV_VREF.VREF (d : Nat) : Fld := ⟨0xE201000 + d * 0x80, 0, 16, 0⟩
def GOV_CTL.EN : Fld := ⟨0xE200000, 0, 1, 1⟩
def GOV_STATUS.SAFE : Fld := ⟨0xE200008, 0, 7, 0⟩
def GOV_STATUS.TRIPPED : Fld := ⟨0xE200008, 8, 7, 0⟩
def GOV_STATUS.SAFE_ENTRIES : Fld := ⟨0xE200008, 16, 32, 0⟩
def GOV_DOM_CTL.RESUME (d : Nat) : Fld := ⟨0xE201058 + d * 0x80, 0, 1, 0⟩
def GOV_DOM_STATUS.VMEAS (d : Nat) : Fld := ⟨0xE201060 + d * 0x80, 0, 16, 0⟩
def GOV_DOM_STATUS.ISENSE (d : Nat) : Fld := ⟨0xE201060 + d * 0x80, 16, 16, 0⟩
def GOV_DOM_STATUS.N (d : Nat) : Fld := ⟨0xE201060 + d * 0x80, 32, 4, 0⟩
def GOV_DOM_STATUS.FAILS (d : Nat) : Fld := ⟨0xE201060 + d * 0x80, 36, 8, 0⟩
def GOV_DOM_STATUS.STEPPING (d : Nat) : Fld := ⟨0xE201060 + d * 0x80, 44, 1, 0⟩
def GOV_DOM_STATUS.CREF (d : Nat) : Fld := ⟨0xE201060 + d * 0x80, 48, 16, 0⟩
def GOV_DOM_INT.I (d : Nat) : Fld := ⟨0xE201068 + d * 0x80, 0, 40, 0⟩
def WIT_CTL.EN : Fld := ⟨0xE600000, 0, 1, 1⟩
def WIT_CTL.MEASURE_NOW : Fld := ⟨0xE600000, 1, 1, 0⟩
def WIT_CTL.PERIOD : Fld := ⟨0xE600000, 32, 32, 23040000⟩
def WIT_STATUS.BUSY : Fld := ⟨0xE600008, 0, 1, 0⟩
def WIT_STATUS.PLANNED : Fld := ⟨0xE600008, 1, 1, 0⟩
def WIT_STATUS.CORE_EQ : Fld := ⟨0xE600008, 8, 8, 0⟩
def WIT_STATUS.LIFE_MONTHS : Fld := ⟨0xE600008, 16, 16, 65535⟩
def WIT_STATUS.TJ_MAX : Fld := ⟨0xE600008, 32, 8, 0⟩
def WIT_STATUS.TJ_AVG : Fld := ⟨0xE600008, 40, 8, 0⟩
def WIT_STATUS.PASSES : Fld := ⟨0xE600008, 48, 16, 0⟩
def WIT_THERM.STEP1 : Fld := ⟨0xE600010, 0, 8, 101⟩
def WIT_THERM.STEP2 : Fld := ⟨0xE600010, 8, 8, 104⟩
def WIT_THERM.RELEASE : Fld := ⟨0xE600010, 16, 8, 98⟩
def WIT_THERM.TRIP : Fld := ⟨0xE600010, 24, 8, 115⟩
def WIT_RETIRE_CORE.REQ : Fld := ⟨0xE600018, 0, 48, 0⟩
def WIT_DOM.USER_OFS (d : Nat) : Fld := ⟨0xE601000 + d * 0x8, 0, 5, 0⟩
def WIT_DOM.AGE_GB (d : Nat) : Fld := ⟨0xE601000 + d * 0x8, 8, 8, 0⟩
def WIT_DOM.VREF (d : Nat) : Fld := ⟨0xE601000 + d * 0x8, 16, 16, 0⟩
def WIT_DOM.DMAX (d : Nat) : Fld := ⟨0xE601000 + d * 0x8, 32, 20, 0⟩
def WIT_MARK.COUNT (m : Nat) : Fld := ⟨0xE602000 + m * 0x8, 0, 16, 0⟩
def WIT_MARK.DEGR (m : Nat) : Fld := ⟨0xE602000 + m * 0x8, 16, 20, 0⟩
def WIT_MARK.DOMAIN (m : Nat) : Fld := ⟨0xE602000 + m * 0x8, 36, 7, markDomain m⟩
def WIT_MARK.KIND (m : Nat) : Fld := ⟨0xE602000 + m * 0x8, 43, 1, markKind m⟩
def WIT_MARK.EXCLUDED (m : Nat) : Fld := ⟨0xE602000 + m * 0x8, 44, 1, 0⟩
def MTR_CTL.EN : Fld := ⟨0xF200000, 0, 1, 0⟩
def MTR_CTL.INTERVAL : Fld := ⟨0xF200000, 16, 12, 60⟩
def MTR_LINE_TABLE.LOG2_LINES : Fld := ⟨0xF200008, 0, 5, 14⟩
def MTR_LINE_TABLE.BASE : Fld := ⟨0xF200008, 12, 36, 0⟩
def MTR_REC_RING.LOG2_ENTRIES : Fld := ⟨0xF200010, 0, 5, 16⟩
def MTR_REC_RING.BASE : Fld := ⟨0xF200010, 12, 36, 0⟩
def MTR_REC_IDX.PROD : Fld := ⟨0xF200018, 0, 22, 0⟩
def MTR_REC_IDX.CONS : Fld := ⟨0xF200018, 32, 22, 0⟩
def MTR_STATUS.LINES : Fld := ⟨0xF200040, 0, 19, 0⟩
def MTR_STATUS.SWEEPING : Fld := ⟨0xF200040, 19, 1, 0⟩
def MTR_STATUS.RING_WAIT : Fld := ⟨0xF200040, 20, 1, 0⟩
def MTR_STATUS.CARRIES : Fld := ⟨0xF200040, 32, 16, 0⟩
def MTR_STATUS.OVERFLOWS : Fld := ⟨0xF200040, 48, 16, 0⟩
def MTR_LAST_CUT.VALUE : Fld := ⟨0xF200048, 0, 64, 0⟩
def TAL_CTL.FREEZE : Fld := ⟨0xF600000, 0, 1, 0⟩
def TAL_CTL.CLR_COUNTS : Fld := ⟨0xF600000, 1, 1, 0⟩
def TAL_CTL.EN : Fld := ⟨0xF600000, 2, 1, 1⟩
def TAL_RING.LOG2_ENTRIES : Fld := ⟨0xF600008, 0, 5, 14⟩
def TAL_RING.SPILL_EN : Fld := ⟨0xF600008, 5, 1, 0⟩
def TAL_RING.BASE : Fld := ⟨0xF600008, 12, 36, 0⟩
def TAL_IDX.WR : Fld := ⟨0xF600010, 0, 14, 0⟩
def TAL_IDX.RD : Fld := ⟨0xF600010, 16, 14, 0⟩
def TAL_RING_IDX.PROD : Fld := ⟨0xF600018, 0, 20, 0⟩
def TAL_RING_IDX.CONS : Fld := ⟨0xF600018, 32, 20, 0⟩
def TAL_OUT_CFG.TRIG_EN : Fld := ⟨0xF600020, 0, 1, 1⟩
def TAL_OUT_CFG.LEASE_EN : Fld := ⟨0xF600020, 1, 1, 1⟩
def TAL_OUT_CFG.LOSS_HOLD : Fld := ⟨0xF600020, 8, 8, 16⟩
def TAL_STATUS.LOST : Fld := ⟨0xF600040, 0, 32, 0⟩
def TAL_STATUS.TRIG_SUPP : Fld := ⟨0xF600040, 32, 16, 0⟩
def TAL_CODE.EN (x : Nat) : Fld := ⟨0xF604000 + x * 0x8, 0, 1, 1⟩
def TAL_CODE.OUT_EN (x : Nat) : Fld := ⟨0xF604000 + x * 0x8, 1, 1, 0⟩
def TAL_CODE.SET (x : Nat) : Fld := ⟨0xF604000 + x * 0x8, 8, 8, talCodeSet x⟩
def TAL_CODE.RATE (x : Nat) : Fld := ⟨0xF604000 + x * 0x8, 16, 8, 16⟩
def TAL_CODE.BURST (x : Nat) : Fld := ⟨0xF604000 + x * 0x8, 24, 8, 64⟩
def TAL_SET.OFFSET (s j : Nat) : Fld := ⟨0xF60C000 + s * 0x80 + j * 0x8, 0, 24, talSetOffset s j⟩
def TAL_SET.WINDOW (s j : Nat) : Fld := ⟨0xF60C000 + s * 0x80 + j * 0x8, 24, 4, talSetWindow s j⟩
def TAL_SET.VALID (s j : Nat) : Fld := ⟨0xF60C000 + s * 0x80 + j * 0x8, 28, 1, talSetValid s j⟩
def TAL_SET.INST (s j : Nat) : Fld := ⟨0xF60C000 + s * 0x80 + j * 0x8, 29, 1, talSetInst s j⟩
def TAL_SET.UNIT_REL (s j : Nat) : Fld := ⟨0xF60C000 + s * 0x80 + j * 0x8, 30, 1, talSetUnitRel s j⟩
def TAL_SET.STRIDE (s j : Nat) : Fld := ⟨0xF60C000 + s * 0x80 + j * 0x8, 32, 8, talSetStride s j⟩
def TAL_COUNT.SUPPRESSED (x : Nat) : Fld := ⟨0xF614000 + x * 0x8, 0, 32, 0⟩
def TAL_COUNT.FROZEN (x : Nat) : Fld := ⟨0xF614000 + x * 0x8, 32, 32, 0⟩
def MGT_CTL.EN : Fld := ⟨0xFA00000, 0, 1, 0⟩
def MGT_CTL.MODE : Fld := ⟨0xFA00000, 1, 1, 0⟩
def MGT_CTL.AN_EN : Fld := ⟨0xFA00000, 2, 1, 1⟩
def MGT_STATUS.LINK : Fld := ⟨0xFA00008, 0, 1, 0⟩
def MGT_STATUS.SPEED : Fld := ⟨0xFA00008, 1, 2, 0⟩
def MGT_STATUS.RX_DROP : Fld := ⟨0xFA00008, 16, 32, 0⟩
def MGT_MAC.MAC : Fld := ⟨0xFA00010, 0, 48, 0⟩
def MGT_IPV4.ADDR : Fld := ⟨0xFA00030, 0, 32, 0⟩
def MGT_IPV4.PREFIX : Fld := ⟨0xFA00030, 32, 6, 0⟩
def MGT_IPV4.VALID : Fld := ⟨0xFA00030, 38, 1, 0⟩
def DRW_STATUS.STATE : Fld := ⟨0xE00000, 0, 2, 0⟩
def DRW_STATUS.HALF : Fld := ⟨0xE00000, 2, 1, 0⟩
def DRW_STATUS.TORN : Fld := ⟨0xE00000, 3, 1, 0⟩
def DRW_STATUS.USED : Fld := ⟨0xE00000, 8, 22, 0⟩
def DRW_STATUS.SEQ : Fld := ⟨0xE00000, 32, 32, 0⟩
def DRW_GROUPS.GROUPS : Fld := ⟨0xE00008, 0, 16, 0⟩
def DRW_GROUPS.NOR_USED : Fld := ⟨0xE00008, 32, 23, 0⟩
def PWR_RESET_CTL.WARM : Fld := ⟨0xA00000, 0, 1, 0⟩
def PWR_RESET_CAUSE.LAST : Fld := ⟨0xA00008, 0, 2, 0⟩
def PWR_RESET_CAUSE.REFCLK_SEEN : Fld := ⟨0xA00008, 2, 1, 0⟩
def PWR_RESET_CAUSE.TRIP_SEEN : Fld := ⟨0xA00008, 3, 1, 0⟩
def PWR_RESET_CAUSE.WARM_COUNT : Fld := ⟨0xA00008, 16, 32, 0⟩
def PWR_BOOT_STATUS.STEP : Fld := ⟨0xA00010, 0, 4, 1⟩
def PWR_BOOT_STATUS.FAIL : Fld := ⟨0xA00010, 4, 3, 0⟩
def PWR_BOOT_STATUS.FAST_DDR : Fld := ⟨0xA00010, 7, 1, 0⟩
def GOV_BAND_LO.VALUE (d : Nat) : Fld := ⟨0xE201008 + d * 0x80, 0, 16, 218⟩
def GOV_BAND_HI.VALUE (d : Nat) : Fld := ⟨0xE201010 + d * 0x80, 0, 16, 218⟩
def GOV_PH_MIN.VALUE (d : Nat) : Fld := ⟨0xE201018 + d * 0x80, 0, 16, 1⟩
def GOV_PH_MAX.VALUE (d : Nat) : Fld := ⟨0xE201020 + d * 0x80, 0, 16, pwrPhases d⟩
def GOV_KI.VALUE (d : Nat) : Fld := ⟨0xE201028 + d * 0x80, 0, 16, 1024⟩
def GOV_CLAMP_LO.VALUE (d : Nat) : Fld := ⟨0xE201030 + d * 0x80, 0, 16, 64881⟩
def GOV_CLAMP_HI.VALUE (d : Nat) : Fld := ⟨0xE201038 + d * 0x80, 0, 16, 655⟩
def GOV_MODEL_R.VALUE (d : Nat) : Fld := ⟨0xE201040 + d * 0x80, 0, 16, 0⟩
def GOV_PLAUS_LIM.VALUE (d : Nat) : Fld := ⟨0xE201048 + d * 0x80, 0, 16, 164⟩
def GOV_PLAUS_N.VALUE (d : Nat) : Fld := ⟨0xE201050 + d * 0x80, 0, 16, 4⟩
def WIT_RETIRE_SLICE.REQ : Fld := ⟨0xE600020, 0, 48, 0⟩
def MGT_WALL_SEC.SEC : Fld := ⟨0xFA00018, 0, 64, 0⟩
def MGT_WALL_NS.NS : Fld := ⟨0xFA00020, 0, 30, 0⟩
def MGT_WALL_NS.RATE : Fld := ⟨0xFA00020, 32, 32, 0⟩
def MGT_WALL_REF.REF : Fld := ⟨0xFA00028, 0, 64, 0⟩
def RDMA_GID_HI.VALUE (rail l i : Nat) : Fld := ⟨0x2201000 + rail * 0x400000 + l * 0x200 + i * 0x20, 0, 64, 0⟩
def RDMA_GID_LO.VALUE (rail l i : Nat) : Fld := ⟨0x2201008 + rail * 0x400000 + l * 0x200 + i * 0x20, 0, 64, 0⟩

/-- Register rows, part 0. -/
def regRows0 : List RegRow := [
  ⟨8, 0x200000, 0x0, 1, 0x0, 1, true, [⟨0, 1, .rw, 0, 0, 1, .always⟩, ⟨1, 1, .w1s, 0, 0, 1, .always⟩, ⟨2, 1, .w1s, 0, 0, 1, .always⟩]⟩,
  ⟨9, 0x200000, 0x0, 1, 0x0, 1, true, [⟨0, 1, .rw, 0, 0, 1, .always⟩, ⟨1, 1, .w1s, 0, 0, 1, .always⟩, ⟨2, 1, .w1s, 0, 0, 1, .always⟩]⟩,
  ⟨8, 0x200008, 0x0, 1, 0x0, 1, false, [⟨0, 2, .ro, 0, 0, 3, .always⟩, ⟨8, 8, .ro, 0, 0, 255, .always⟩, ⟨16, 8, .ro, 0, 0, 255, .always⟩]⟩,
  ⟨9, 0x200008, 0x0, 1, 0x0, 1, false, [⟨0, 2, .ro, 0, 0, 3, .always⟩, ⟨8, 8, .ro, 0, 0, 255, .always⟩, ⟨16, 8, .ro, 0, 0, 255, .always⟩]⟩,
  ⟨8, 0x200100, 0x8, 2, 0x0, 1, true, [⟨0, 2, .rw, 3, 0, 3, .portOff⟩, ⟨2, 1, .rw, 0, 0, 1, .always⟩, ⟨3, 1, .rw, 0, 0, 1, .always⟩, ⟨4, 8, .rw, 0, 0, 255, .always⟩, ⟨16, 14, .rw, 4200, 1518, 9216, .always⟩, ⟨30, 2, .rw, 0, 0, 2, .always⟩, ⟨32, 1, .rw, 1, 0, 1, .always⟩]⟩,
  ⟨9, 0x200100, 0x8, 2, 0x0, 1, true, [⟨0, 2, .rw, 3, 0, 3, .portOff⟩, ⟨2, 1, .rw, 0, 0, 1, .always⟩, ⟨3, 1, .rw, 0, 0, 1, .always⟩, ⟨4, 8, .rw, 0, 0, 255, .always⟩, ⟨16, 14, .rw, 4200, 1518, 9216, .always⟩, ⟨30, 2, .rw, 0, 0, 2, .always⟩, ⟨32, 1, .rw, 1, 0, 1, .always⟩]⟩,
  ⟨8, 0x200140, 0x8, 2, 0x0, 1, false, [⟨0, 4, .ro, 0, 0, 15, .always⟩, ⟨4, 4, .ro, 0, 0, 15, .always⟩, ⟨8, 24, .ro, 0, 0, 16777215, .always⟩, ⟨32, 32, .ro, 0, 0, 4294967295, .always⟩]⟩,
  ⟨9, 0x200140, 0x8, 2, 0x0, 1, false, [⟨0, 4, .ro, 0, 0, 15, .always⟩, ⟨4, 4, .ro, 0, 0, 15, .always⟩, ⟨8, 24, .ro, 0, 0, 16777215, .always⟩, ⟨32, 32, .ro, 0, 0, 4294967295, .always⟩]⟩,
  ⟨8, 0x200200, 0x8, 8, 0x0, 1, true, [⟨0, 48, .rw, 0, 0, 281474976710655, .always⟩, ⟨48, 12, .rw, 0, 0, 4095, .always⟩, ⟨60, 3, .rw, 0, 0, 7, .always⟩, ⟨63, 1, .rw, 0, 0, 1, .always⟩]⟩,
  ⟨9, 0x200200, 0x8, 8, 0x0, 1, true, [⟨0, 48, .rw, 0, 0, 281474976710655, .always⟩, ⟨48, 12, .rw, 0, 0, 4095, .always⟩, ⟨60, 3, .rw, 0, 0, 7, .always⟩, ⟨63, 1, .rw, 0, 0, 1, .always⟩]⟩,
  ⟨8, 0x201010, 0x200, 8, 0x20, 16, false, [⟨0, 1, .rw, 0, 0, 1, .always⟩, ⟨12, 12, .rw, 0, 0, 4095, .always⟩, ⟨24, 1, .rw, 0, 0, 1, .always⟩]⟩,
  ⟨9, 0x201010, 0x200, 8, 0x20, 16, false, [⟨0, 1, .rw, 0, 0, 1, .always⟩, ⟨12, 12, .rw, 0, 0, 4095, .always⟩, ⟨24, 1, .rw, 0, 0, 1, .always⟩]⟩,
  ⟨10, 0x200000, 0x0, 1, 0x0, 1, true, [⟨12, 36, .rw, 0, 0, 68719476735, .railsOff⟩]⟩,
  ⟨8, 0x203000, 0x0, 1, 0x0, 1, false, [⟨0, 14, .ro, 0, 0, 16383, .always⟩, ⟨16, 13, .ro, 0, 0, 8191, .always⟩, ⟨32, 9, .ro, 0, 0, 511, .always⟩]⟩,
  ⟨9, 0x203000, 0x0, 1, 0x0, 1, false, [⟨0, 14, .ro, 0, 0, 16383, .always⟩, ⟨16, 13, .ro, 0, 0, 8191, .always⟩, ⟨32, 9, .ro, 0, 0, 511, .always⟩]⟩,
  ⟨8, 0x203100, 0x8, 2, 0x0, 1, false, [⟨0, 19, .ro, 0, 0, 524287, .always⟩, ⟨32, 32, .ro, 0, 0, 4294967295, .always⟩]⟩,
  ⟨9, 0x203100, 0x8, 2, 0x0, 1, false, [⟨0, 19, .ro, 0, 0, 524287, .always⟩, ⟨32, 32, .ro, 0, 0, 4294967295, .always⟩]⟩,
  ⟨10, 0x200008, 0x0, 1, 0x0, 1, true, [⟨0, 5, .rw, 10, 10, 20, .always⟩, ⟨12, 36, .rw, 0, 0, 68719476735, .always⟩, ⟨48, 8, .rw, 16, 1, 255, .always⟩]⟩,
  ⟨8, 0x203200, 0x0, 1, 0x0, 1, true, [⟨0, 16, .rw, 160, 1, 65535, .always⟩]⟩,
  ⟨9, 0x203200, 0x0, 1, 0x0, 1, true, [⟨0, 16, .rw, 160, 1, 65535, .always⟩]⟩,
  ⟨8, 0x203208, 0x0, 1, 0x0, 1, false, [⟨0, 17, .wo, 0, 0, 131071, .always⟩]⟩,
  ⟨9, 0x203208, 0x0, 1, 0x0, 1, false, [⟨0, 17, .wo, 0, 0, 131071, .always⟩]⟩,
  ⟨8, 0x203210, 0x0, 1, 0x0, 1, false, [⟨0, 9, .ro, 0, 0, 511, .always⟩, ⟨16, 18, .ro, 0, 0, 262143, .always⟩, ⟨48, 16, .ro, 0, 0, 65535, .always⟩]⟩,
  ⟨9, 0x203210, 0x0, 1, 0x0, 1, false, [⟨0, 9, .ro, 0, 0, 511, .always⟩, ⟨16, 18, .ro, 0, 0, 262143, .always⟩, ⟨48, 16, .ro, 0, 0, 65535, .always⟩]⟩]

/-- Register rows, part 1. -/
def regRows1 : List RegRow := [
  ⟨8, 0x202000, 0x0, 1, 0x0, 1, true, [⟨0, 8, .rw, 64, 0, 255, .always⟩, ⟨8, 16, .rw, 50, 0, 65535, .always⟩, ⟨24, 16, .rw, 80, 0, 65535, .always⟩, ⟨40, 3, .rw, 5, 0, 7, .always⟩]⟩,
  ⟨9, 0x202000, 0x0, 1, 0x0, 1, true, [⟨0, 8, .rw, 64, 0, 255, .always⟩, ⟨8, 16, .rw, 50, 0, 65535, .always⟩, ⟨24, 16, .rw, 80, 0, 65535, .always⟩, ⟨40, 3, .rw, 5, 0, 7, .always⟩]⟩,
  ⟨8, 0x202008, 0x0, 1, 0x0, 1, true, [⟨0, 16, .rw, 50, 0, 65535, .always⟩, ⟨16, 16, .rw, 10, 0, 65535, .always⟩, ⟨32, 16, .rw, 40, 0, 65535, .always⟩, ⟨48, 1, .rw, 1, 0, 1, .always⟩, ⟨49, 1, .rw, 1, 0, 1, .always⟩]⟩,
  ⟨9, 0x202008, 0x0, 1, 0x0, 1, true, [⟨0, 16, .rw, 50, 0, 65535, .always⟩, ⟨16, 16, .rw, 10, 0, 65535, .always⟩, ⟨32, 16, .rw, 40, 0, 65535, .always⟩, ⟨48, 1, .rw, 1, 0, 1, .always⟩, ⟨49, 1, .rw, 1, 0, 1, .always⟩]⟩,
  ⟨4, 0x200000, 0x0, 1, 0x0, 1, true, [⟨0, 1, .rw, 0, 0, 1, .always⟩, ⟨16, 18, .rw, 16384, 0, 65536, .always⟩]⟩,
  ⟨4, 0x200008, 0x0, 1, 0x0, 1, true, [⟨12, 36, .rw, 0, 0, 68719476735, .unitEnZero⟩]⟩,
  ⟨4, 0x200010, 0x0, 1, 0x0, 1, true, [⟨12, 36, .rw, 0, 0, 68719476735, .unitEnZero⟩]⟩,
  ⟨4, 0x200018, 0x0, 1, 0x0, 1, true, [⟨0, 8, .rw, 8, 1, 255, .always⟩, ⟨8, 8, .rw, 4, 1, 255, .always⟩, ⟨16, 8, .rw, 1, 1, 255, .always⟩, ⟨32, 11, .rw, 8, 1, 2047, .always⟩, ⟨43, 11, .rw, 32, 1, 2047, .always⟩, ⟨54, 10, .rw, 160, 1, 1023, .always⟩]⟩,
  ⟨4, 0x200020, 0x0, 1, 0x0, 1, true, [⟨0, 8, .rw, 32, 4, 255, .always⟩]⟩,
  ⟨4, 0x200040, 0x0, 1, 0x0, 1, false, [⟨0, 19, .ro, 0, 0, 524287, .always⟩, ⟨20, 19, .ro, 0, 0, 524287, .always⟩, ⟨39, 1, .w1c, 0, 0, 1, .always⟩, ⟨40, 24, .ro, 0, 0, 16777215, .always⟩]⟩,
  ⟨4, 0x200048, 0x0, 1, 0x0, 1, false, [⟨0, 21, .ro, 0, 0, 2097151, .always⟩, ⟨21, 21, .ro, 0, 0, 2097151, .always⟩, ⟨42, 21, .ro, 0, 0, 2097151, .always⟩]⟩,
  ⟨4, 0x201000, 0x8, 256, 0x0, 1, false, [⟨0, 3, .ro, 5, 0, 7, .always⟩, ⟨8, 20, .ro, 0, 0, 1048575, .always⟩, ⟨32, 32, .ro, 0, 0, 4294967295, .always⟩]⟩,
  ⟨16, 0x200000, 0x0, 1, 0x0, 1, true, [⟨0, 1, .rw, 0, 0, 1, .always⟩, ⟨1, 1, .rw, 0, 0, 1, .always⟩]⟩,
  ⟨16, 0x200008, 0x0, 1, 0x0, 1, true, [⟨12, 36, .rw, 0, 0, 68719476735, .unitEnZero⟩]⟩,
  ⟨16, 0x200010, 0x0, 1, 0x0, 1, true, [⟨0, 6, .rw, 20, 20, 32, .unitEnZero⟩]⟩,
  ⟨16, 0x200018, 0x0, 1, 0x0, 1, true, [⟨12, 36, .rw, 0, 0, 68719476735, .unitEnZero⟩]⟩,
  ⟨16, 0x200020, 0x0, 1, 0x0, 1, true, [⟨0, 5, .rw, 16, 16, 26, .always⟩, ⟨12, 36, .rw, 0, 0, 68719476735, .unitEnZero⟩]⟩,
  ⟨16, 0x200028, 0x0, 1, 0x0, 1, false, [⟨0, 26, .ro, 0, 0, 67108863, .always⟩, ⟨32, 26, .rw, 0, 0, 67108863, .always⟩, ⟨58, 6, .ro, 0, 0, 63, .always⟩]⟩,
  ⟨16, 0x200040, 0x0, 1, 0x0, 1, false, [⟨0, 20, .ro, 0, 0, 1048575, .always⟩, ⟨32, 13, .ro, 0, 0, 8191, .always⟩]⟩,
  ⟨16, 0x200048, 0x0, 1, 0x0, 1, false, [⟨0, 64, .ro, 0, 0, 18446744073709551615, .always⟩]⟩,
  ⟨16, 0x200050, 0x0, 1, 0x0, 1, false, [⟨0, 64, .ro, 0, 0, 18446744073709551615, .always⟩]⟩,
  ⟨16, 0x200058, 0x0, 1, 0x0, 1, false, [⟨0, 64, .ro, 0, 0, 18446744073709551615, .always⟩]⟩,
  ⟨16, 0x201000, 0x8, 256, 0x0, 1, false, [⟨0, 2, .ro, 0, 0, 3, .always⟩, ⟨8, 36, .ro, 0, 0, 68719476735, .always⟩, ⟨44, 16, .ro, 0, 0, 65535, .always⟩]⟩,
  ⟨12, 0x200000, 0x0, 1, 0x0, 1, true, [⟨0, 1, .rw, 0, 0, 1, .always⟩, ⟨4, 4, .rw, 2, 0, 8, .always⟩, ⟨16, 16, .rw, 65535, 0, 65535, .always⟩]⟩]

/-- Register rows, part 2. -/
def regRows2 : List RegRow := [
  ⟨12, 0x200008, 0x0, 1, 0x0, 1, true, [⟨12, 36, .rw, 0, 0, 68719476735, .unitEnZero⟩]⟩,
  ⟨12, 0x200040, 0x0, 1, 0x0, 1, false, [⟨0, 16, .ro, 0, 0, 65535, .always⟩, ⟨16, 6, .ro, 0, 0, 63, .always⟩, ⟨32, 16, .ro, 0, 0, 65535, .always⟩]⟩,
  ⟨12, 0x200048, 0x0, 1, 0x0, 1, false, [⟨0, 64, .ro, 0, 0, 18446744073709551615, .always⟩]⟩,
  ⟨20, 0x200000, 0x0, 1, 0x0, 1, true, [⟨0, 1, .rw, 0, 0, 1, .always⟩, ⟨1, 1, .rw, 0, 0, 1, .always⟩, ⟨4, 4, .rw, 2, 0, 8, .always⟩, ⟨16, 16, .rw, 65535, 0, 65535, .always⟩]⟩,
  ⟨20, 0x200008, 0x0, 1, 0x0, 1, true, [⟨0, 64, .rw, 0, 0, 18446744073709551615, .always⟩]⟩,
  ⟨20, 0x200040, 0x0, 1, 0x0, 1, false, [⟨0, 16, .ro, 0, 0, 65535, .always⟩, ⟨16, 16, .ro, 0, 0, 65535, .always⟩, ⟨32, 7, .ro, 0, 0, 127, .always⟩]⟩,
  ⟨20, 0x201000, 0x8, 64, 0x0, 1, false, [⟨0, 3, .ro, 0, 0, 7, .always⟩, ⟨8, 6, .ro, 0, 0, 63, .always⟩, ⟨16, 8, .ro, 0, 0, 255, .always⟩, ⟨24, 1, .w1c, 0, 0, 1, .always⟩, ⟨25, 1, .w1c, 0, 0, 1, .always⟩, ⟨32, 16, .ro, 0, 0, 65535, .always⟩]⟩,
  ⟨20, 0x202000, 0x40, 64, 0x8, 8, false, [⟨0, 64, .ro, 0, 0, 18446744073709551615, .always⟩]⟩,
  ⟨20, 0x204000, 0x0, 1, 0x0, 1, false, [⟨0, 8, .wo, 0, 0, 255, .always⟩, ⟨8, 1, .wo, 0, 0, 1, .always⟩, ⟨9, 1, .wo, 0, 0, 1, .always⟩, ⟨10, 1, .wo, 0, 0, 1, .always⟩, ⟨32, 32, .wo, 0, 0, 4294967295, .always⟩]⟩,
  ⟨20, 0x204008, 0x0, 1, 0x0, 1, false, [⟨0, 64, .wo, 0, 0, 18446744073709551615, .always⟩]⟩,
  ⟨20, 0x204010, 0x0, 1, 0x0, 1, false, [⟨0, 64, .wo, 0, 0, 18446744073709551615, .always⟩]⟩,
  ⟨20, 0x204018, 0x0, 1, 0x0, 1, false, [⟨0, 1, .ro, 0, 0, 1, .always⟩, ⟨1, 1, .ro, 0, 0, 1, .always⟩, ⟨2, 1, .ro, 0, 0, 1, .always⟩, ⟨16, 16, .ro, 0, 0, 65535, .always⟩, ⟨32, 16, .ro, 0, 0, 65535, .always⟩, ⟨48, 6, .ro, 32, 0, 63, .always⟩]⟩,
  ⟨20, 0x204020, 0x0, 1, 0x0, 1, false, [⟨0, 16, .ro, 0, 0, 65535, .always⟩, ⟨16, 16, .ro, 0, 0, 65535, .always⟩, ⟨32, 16, .ro, 0, 0, 65535, .always⟩, ⟨48, 16, .ro, 0, 0, 65535, .always⟩]⟩,
  ⟨20, 0x204040, 0x8, 8, 0x0, 1, false, [⟨0, 64, .ro, 0, 0, 18446744073709551615, .always⟩]⟩,
  ⟨20, 0x204080, 0x0, 1, 0x0, 1, true, [⟨0, 16, .rw, 1600, 16, 65535, .always⟩]⟩,
  ⟨28, 0x200000, 0x0, 1, 0x0, 1, true, [⟨0, 1, .rw, 0, 0, 1, .always⟩, ⟨1, 1, .rw, 0, 0, 1, .always⟩, ⟨2, 1, .rw, 0, 0, 1, .always⟩, ⟨3, 1, .rw, 1, 0, 1, .always⟩, ⟨32, 16, .rw, 65535, 0, 65535, .always⟩]⟩,
  ⟨28, 0x200008, 0x0, 1, 0x0, 1, true, [⟨12, 36, .rw, 0, 0, 68719476735, .unitEnZero⟩]⟩,
  ⟨28, 0x200010, 0x0, 1, 0x0, 1, true, [⟨0, 5, .rw, 16, 16, 28, .always⟩, ⟨12, 36, .rw, 0, 0, 68719476735, .unitEnZero⟩]⟩,
  ⟨28, 0x200018, 0x0, 1, 0x0, 1, true, [⟨0, 5, .rw, 14, 10, 20, .always⟩, ⟨12, 36, .rw, 0, 0, 68719476735, .unitEnZero⟩, ⟨48, 8, .rw, 16, 1, 255, .always⟩]⟩,
  ⟨28, 0x200020, 0x0, 1, 0x0, 1, true, [⟨0, 2, .rw, 2, 0, 3, .always⟩, ⟨16, 24, .rw, 48000, 1600, 16777215, .always⟩, ⟨40, 8, .rw, 80, 0, 255, .always⟩]⟩,
  ⟨28, 0x200028, 0x0, 1, 0x0, 1, true, [⟨0, 8, .rw, 14, 1, 255, .always⟩, ⟨8, 4, .rw, 2, 1, 15, .always⟩]⟩,
  ⟨28, 0x200040, 0x0, 1, 0x0, 1, false, [⟨0, 16, .ro, 0, 0, 65535, .always⟩, ⟨16, 16, .ro, 0, 0, 65535, .always⟩, ⟨32, 20, .ro, 0, 0, 1048575, .always⟩]⟩,
  ⟨28, 0x200048, 0x0, 1, 0x0, 1, false, [⟨0, 16, .ro, 0, 0, 65535, .always⟩, ⟨16, 20, .ro, 0, 0, 1048575, .always⟩, ⟨36, 20, .ro, 0, 0, 1048575, .always⟩]⟩,
  ⟨28, 0x200050, 0x0, 1, 0x0, 1, false, [⟨0, 64, .ro, 0, 0, 18446744073709551615, .always⟩]⟩]

/-- Register rows, part 3. -/
def regRows3 : List RegRow := [
  ⟨28, 0x201000, 0x8, 16, 0x0, 1, true, [⟨0, 5, .rw, 10, 6, 16, .poolInvalid⟩, ⟨5, 2, .rw, 2, 2, 3, .poolInvalid⟩, ⟨7, 1, .rw, 0, 0, 1, .always⟩, ⟨8, 8, .ro, 0, 0, 255, .always⟩, ⟨16, 16, .rw, 0, 0, 65535, .always⟩, ⟨32, 32, .rw, 0, 0, 4294967295, .poolInvalid⟩]⟩,
  ⟨28, 0x201100, 0x8, 16, 0x0, 1, false, [⟨0, 3, .ro, 0, 0, 7, .always⟩, ⟨3, 1, .ro, 0, 0, 1, .always⟩, ⟨8, 32, .ro, 0, 0, 4294967295, .always⟩, ⟨40, 24, .ro, 0, 0, 16777215, .always⟩]⟩,
  ⟨32, 0x200000, 0x0, 1, 0x0, 1, true, [⟨0, 1, .rw, 0, 0, 1, .always⟩, ⟨1, 1, .rw, 1, 0, 1, .always⟩, ⟨2, 1, .rw, 1, 0, 1, .always⟩, ⟨3, 1, .ro, 0, 0, 1, .always⟩]⟩,
  ⟨32, 0x200008, 0x0, 1, 0x0, 1, true, [⟨0, 6, .rw, 30, 30, 41, .always⟩, ⟨12, 36, .rw, 0, 0, 68719476735, .unitEnZero⟩]⟩,
  ⟨32, 0x200010, 0x0, 1, 0x0, 1, true, [⟨0, 8, .rw, 8, 1, 255, .always⟩, ⟨8, 16, .rw, 0, 0, 65535, .always⟩, ⟨32, 12, .rw, 64, 16, 4095, .always⟩]⟩,
  ⟨32, 0x200018, 0x0, 1, 0x0, 1, true, [⟨0, 16, .rw, 1600, 160, 65535, .always⟩, ⟨16, 16, .rw, 64, 8, 4096, .always⟩]⟩,
  ⟨32, 0x200020, 0x0, 1, 0x0, 1, true, [⟨0, 24, .rw, 16000, 160, 16777215, .always⟩]⟩,
  ⟨32, 0x200028, 0x0, 1, 0x0, 1, true, [⟨0, 7, .rw, 30, 1, 99, .always⟩, ⟨7, 7, .rw, 50, 1, 99, .always⟩, ⟨14, 12, .rw, 256, 0, 4095, .always⟩, ⟨26, 12, .rw, 150, 16, 4095, .always⟩, ⟨38, 26, .rw, 96000, 0, 67108863, .always⟩]⟩,
  ⟨32, 0x200030, 0x0, 1, 0x0, 1, true, [⟨0, 5, .rw, 10, 8, 20, .always⟩, ⟨12, 36, .rw, 0, 0, 68719476735, .unitEnZero⟩, ⟨48, 16, .rw, 9600, 0, 65535, .always⟩]⟩,
  ⟨32, 0x200038, 0x0, 1, 0x0, 1, false, [⟨0, 20, .ro, 0, 0, 1048575, .always⟩, ⟨20, 20, .rw, 0, 0, 1048575, .always⟩, ⟨40, 24, .ro, 0, 0, 16777215, .always⟩]⟩,
  ⟨32, 0x201000, 0x8, 16, 0x0, 1, true, [⟨0, 10, .rw, 20, 5, 500, .always⟩, ⟨10, 10, .rw, 30, 10, 500, .always⟩]⟩,
  ⟨32, 0x201080, 0x8, 16, 0x0, 1, false, [⟨0, 40, .ro, 0, 0, 1099511627775, .always⟩, ⟨40, 1, .ro, 0, 0, 1, .always⟩]⟩,
  ⟨32, 0x201100, 0x8, 16, 0x0, 1, false, [⟨0, 2, .ro, 0, 0, 3, .always⟩, ⟨8, 22, .ro, 0, 0, 4194303, .always⟩, ⟨30, 12, .ro, 0, 0, 4095, .always⟩, ⟨42, 22, .ro, 0, 0, 4194303, .always⟩]⟩,
  ⟨32, 0x202000, 0x8, 256, 0x0, 1, false, [⟨0, 2, .ro, 0, 0, 3, .always⟩, ⟨2, 4, .ro, 0, 0, 15, .always⟩, ⟨8, 24, .ro, 0, 0, 16777215, .always⟩, ⟨32, 32, .ro, 0, 0, 4294967295, .always⟩]⟩,
  ⟨36, 0x200000, 0x0, 1, 0x0, 1, true, [⟨0, 1, .rw, 0, 0, 1, .always⟩, ⟨16, 16, .rw, 0, 0, 65535, .always⟩]⟩,
  ⟨36, 0x200008, 0x0, 1, 0x0, 1, true, [⟨0, 1, .rw, 1, 0, 1, .always⟩, ⟨1, 2, .rw, 1, 0, 2, .always⟩, ⟨8, 8, .rw, 16, 2, 255, .always⟩, ⟨16, 16, .rw, 1600, 16, 65535, .always⟩, ⟨32, 16, .rw, 256, 256, 65535, .always⟩]⟩,
  ⟨36, 0x201000, 0x8, 16, 0x0, 1, false, [⟨0, 3, .ro, 0, 0, 7, .always⟩, ⟨3, 1, .ro, 0, 0, 1, .always⟩, ⟨4, 2, .ro, 0, 0, 3, .always⟩, ⟨6, 1, .ro, 0, 0, 1, .always⟩, ⟨8, 13, .ro, 0, 0, 8191, .always⟩, ⟨24, 8, .ro, 0, 0, 255, .always⟩, ⟨32, 32, .ro, 0, 0, 4294967295, .always⟩]⟩,
  ⟨36, 0x201080, 0x8, 16, 0x0, 1, false, [⟨0, 1, .w1s, 0, 0, 1, .always⟩]⟩,
  ⟨36, 0x201100, 0x8, 16, 0x0, 1, false, [⟨0, 16, .ro, 0, 0, 65535, .always⟩, ⟨16, 16, .ro, 0, 0, 65535, .always⟩, ⟨32, 32, .ro, 0, 0, 4294967295, .always⟩]⟩,
  ⟨40, 0x200000, 0x0, 1, 0x0, 1, true, [⟨0, 1, .rw, 0, 0, 1, .always⟩, ⟨1, 1, .w1s, 0, 0, 1, .always⟩, ⟨8, 8, .rw, 255, 0, 255, .always⟩, ⟨16, 2, .rw, 1, 0, 3, .always⟩]⟩,
  ⟨40, 0x200008, 0x0, 1, 0x0, 1, false, [⟨0, 3, .ro, 0, 0, 7, .always⟩, ⟨3, 1, .ro, 0, 0, 1, .always⟩, ⟨4, 4, .ro, 0, 0, 15, .always⟩, ⟨8, 8, .ro, 0, 0, 255, .always⟩, ⟨16, 1, .ro, 0, 0, 1, .always⟩, ⟨24, 8, .ro, 0, 0, 255, .always⟩, ⟨32, 32, .ro, 0, 0, 4294967295, .always⟩]⟩,
  ⟨40, 0x200010, 0x0, 1, 0x0, 1, false, [⟨0, 32, .ro, 0, 0, 4294967295, .always⟩, ⟨32, 16, .ro, 0, 0, 65535, .always⟩, ⟨48, 16, .ro, 0, 0, 65535, .always⟩]⟩,
  ⟨40, 0x200018, 0x0, 1, 0x0, 1, true, [⟨0, 8, .rw, 16, 1, 255, .always⟩]⟩,
  ⟨40, 0x200020, 0x0, 1, 0x0, 1, true, [⟨0, 16, .rw, 0, 0, 65535, .always⟩]⟩]

/-- Register rows, part 4. -/
def regRows4 : List RegRow := [
  ⟨40, 0x200040, 0x0, 1, 0x0, 1, true, [⟨0, 16, .rw, 100, 10, 1000, .always⟩, ⟨16, 16, .rw, 0, 0, 65535, .always⟩, ⟨32, 16, .rw, 2, 0, 65535, .always⟩]⟩,
  ⟨40, 0x200048, 0x0, 1, 0x0, 1, false, [⟨0, 1, .ro, 0, 0, 1, .always⟩, ⟨1, 1, .ro, 0, 0, 1, .always⟩, ⟨16, 32, .ro, 0, 0, 4294967295, .always⟩, ⟨48, 16, .ro, 0, 0, 65535, .always⟩]⟩,
  ⟨41, 0x200000, 0x0, 1, 0x0, 1, true, [⟨0, 1, .rw, 0, 0, 1, .always⟩, ⟨1, 1, .rw, 1, 0, 1, .always⟩, ⟨2, 1, .ro, 0, 0, 1, .always⟩, ⟨3, 1, .ro, 0, 0, 1, .always⟩, ⟨4, 2, .ro, 0, 0, 3, .always⟩, ⟨6, 1, .w1s, 0, 0, 1, .always⟩]⟩,
  ⟨41, 0x200008, 0x0, 1, 0x0, 1, true, [⟨0, 16, .rw, 0, 0, 65535, .unitEnZero⟩, ⟨16, 10, .ro, 400, 0, 1023, .always⟩, ⟨26, 8, .rw, 80, 16, 160, .always⟩, ⟨34, 16, .rw, 1600, 160, 65535, .always⟩]⟩,
  ⟨41, 0x200010, 0x0, 1, 0x0, 1, true, [⟨0, 23, .rw, 4800000, 1600000, 8000000, .always⟩, ⟨23, 1, .rw, 1, 0, 1, .always⟩, ⟨24, 16, .rw, 16, 2, 1600, .always⟩]⟩,
  ⟨41, 0x200018, 0x0, 1, 0x0, 1, false, [⟨0, 1, .wo, 0, 0, 1, .always⟩, ⟨16, 16, .ro, 16, 0, 65535, .always⟩]⟩,
  ⟨41, 0x200020, 0x0, 1, 0x0, 1, true, [⟨0, 1, .rw, 1, 0, 1, .always⟩, ⟨8, 32, .rw, 138240000, 2304000, 4294967295, .always⟩, ⟨40, 16, .rw, 1600, 0, 65535, .always⟩, ⟨56, 8, .rw, 16, 1, 128, .always⟩]⟩,
  ⟨41, 0x200040, 0x0, 1, 0x0, 1, false, [⟨0, 2, .ro, 0, 0, 3, .always⟩, ⟨2, 1, .ro, 0, 0, 1, .always⟩, ⟨3, 1, .ro, 0, 0, 1, .always⟩, ⟨16, 9, .ro, 0, 0, 511, .always⟩, ⟨32, 16, .ro, 0, 0, 65535, .always⟩, ⟨48, 16, .ro, 0, 0, 65535, .always⟩]⟩,
  ⟨41, 0x201000, 0x8, 256, 0x0, 1, false, [⟨0, 3, .ro, 0, 0, 7, .always⟩, ⟨3, 1, .ro, 0, 0, 1, .always⟩, ⟨8, 5, .ro, 0, 0, 31, .always⟩, ⟨16, 9, .ro, 0, 0, 511, .always⟩, ⟨32, 32, .ro, 0, 0, 4294967295, .always⟩]⟩,
  ⟨41, 0x201800, 0x8, 256, 0x0, 1, false, [⟨0, 64, .ro, 0, 0, 18446744073709551615, .always⟩]⟩,
  ⟨44, 0x200000, 0x0, 1, 0x0, 1, true, [⟨0, 1, .rw, 0, 0, 1, .always⟩, ⟨1, 1, .rw, 1, 0, 1, .always⟩]⟩,
  ⟨44, 0x200008, 0x0, 1, 0x0, 1, false, [⟨0, 2, .ro, 0, 0, 3, .always⟩, ⟨8, 6, .ro, 48, 0, 63, .always⟩]⟩,
  ⟨44, 0x200010, 0x8, 6, 0x0, 1, false, [⟨0, 6, .ro, 0, 0, 63, .always⟩, ⟨8, 6, .ro, 0, 0, 63, .always⟩, ⟨16, 6, .ro, 0, 0, 63, .always⟩, ⟨24, 6, .ro, 0, 0, 63, .always⟩, ⟨32, 6, .ro, 0, 0, 63, .always⟩, ⟨40, 6, .ro, 0, 0, 63, .always⟩, ⟨48, 6, .ro, 0, 0, 63, .always⟩, ⟨56, 6, .ro, 0, 0, 63, .always⟩]⟩,
  ⟨44, 0x200040, 0x0, 1, 0x0, 1, true, [⟨0, 3, .rw, 0, 0, 7, .always⟩, ⟨3, 3, .rw, 0, 0, 7, .always⟩, ⟨6, 3, .rw, 0, 0, 7, .always⟩, ⟨9, 3, .rw, 0, 0, 7, .always⟩, ⟨12, 3, .rw, 0, 0, 7, .always⟩, ⟨15, 3, .rw, 0, 0, 7, .always⟩, ⟨18, 3, .rw, 0, 0, 7, .always⟩]⟩,
  ⟨44, 0x200048, 0x0, 1, 0x0, 1, true, [⟨0, 3, .rw, 0, 0, 7, .always⟩, ⟨3, 3, .rw, 0, 0, 7, .always⟩, ⟨6, 3, .rw, 0, 0, 7, .always⟩, ⟨9, 3, .rw, 0, 0, 7, .always⟩, ⟨12, 3, .rw, 0, 0, 7, .always⟩, ⟨15, 3, .rw, 0, 0, 7, .always⟩, ⟨18, 3, .rw, 0, 0, 7, .always⟩, ⟨21, 3, .rw, 0, 0, 7, .always⟩, ⟨24, 3, .rw, 0, 0, 7, .always⟩, ⟨27, 3, .rw, 0, 0, 7, .always⟩, ⟨30, 3, .rw, 0, 0, 7, .always⟩, ⟨33, 3, .rw, 0, 0, 7, .always⟩, ⟨36, 3, .rw, 0, 0, 7, .always⟩, ⟨39, 3, .rw, 0, 0, 7, .always⟩, ⟨42, 3, .rw, 0, 0, 7, .always⟩, ⟨45, 3, .rw, 0, 0, 7, .always⟩]⟩,
  ⟨44, 0x200050, 0x0, 1, 0x0, 1, true, [⟨0, 5, .rw, 4, 1, 16, .always⟩, ⟨16, 12, .rw, 256, 64, 4095, .always⟩, ⟨32, 7, .rw, 48, 0, 64, .always⟩]⟩,
  ⟨44, 0x200058, 0x0, 1, 0x0, 1, false, [⟨0, 32, .ro, 0, 0, 4294967295, .always⟩, ⟨32, 16, .ro, 0, 0, 65535, .always⟩, ⟨48, 16, .ro, 0, 0, 65535, .always⟩]⟩,
  ⟨44, 0x200100, 0x8, 8, 0x0, 1, true, [⟨0, 16, .rw, 65535, 0, 65535, .always⟩, ⟨16, 2, .rw, 2, 0, 2, .always⟩, ⟨18, 1, .rw, 1, 0, 1, .always⟩]⟩,
  ⟨45, 0x200000, 0x0, 1, 0x0, 1, true, [⟨0, 1, .rw, 0, 0, 1, .always⟩, ⟨4, 4, .rw, 15, 0, 15, .always⟩]⟩,
  ⟨45, 0x200008, 0x0, 1, 0x0, 1, false, [⟨0, 17, .ro, 32768, 0, 131071, .always⟩, ⟨17, 17, .ro, 0, 0, 131071, .always⟩, ⟨34, 30, .ro, 0, 0, 1073741823, .always⟩]⟩,
  ⟨45, 0x200040, 0x0, 1, 0x0, 1, false, [⟨0, 32, .ro, 0, 0, 4294967295, .always⟩, ⟨32, 16, .ro, 0, 0, 65535, .always⟩]⟩,
  ⟨45, 0x200100, 0x8, 5, 0x0, 1, true, [⟨0, 16, .rw, 0, 0, 65535, .always⟩, ⟨16, 16, .rw, 0, 0, 65535, .always⟩, ⟨32, 16, .rw, 16, 1, 65535, .always⟩]⟩,
  ⟨45, 0x200180, 0x8, 5, 0x0, 1, false, [⟨0, 16, .ro, 0, 0, 65535, .always⟩, ⟨16, 16, .ro, 0, 0, 65535, .always⟩, ⟨32, 16, .ro, 0, 0, 65535, .always⟩, ⟨48, 1, .w1c, 0, 0, 1, .always⟩]⟩,
  ⟨46, 0x200000, 0x0, 1, 0x0, 1, true, [⟨0, 1, .rw, 0, 0, 1, .always⟩, ⟨1, 1, .rw, 0, 0, 1, .always⟩, ⟨2, 2, .rw, 2, 0, 2, .always⟩, ⟨4, 1, .rw, 0, 0, 1, .always⟩, ⟨5, 1, .rw, 0, 0, 1, .always⟩, ⟨6, 1, .rw, 0, 0, 1, .always⟩, ⟨16, 8, .rw, 0, 0, 255, .always⟩]⟩]

/-- Register rows, part 5. -/
def regRows5 : List RegRow := [
  ⟨46, 0x200008, 0x0, 1, 0x0, 1, true, [⟨0, 1, .rw, 1, 0, 1, .always⟩, ⟨8, 8, .rw, 24, 1, 255, .always⟩, ⟨16, 16, .rw, 64, 0, 65535, .always⟩]⟩,
  ⟨46, 0x201000, 0x8, 12, 0x0, 1, false, [⟨0, 2, .ro, 0, 0, 3, .always⟩, ⟨2, 1, .ro, 0, 0, 1, .always⟩, ⟨3, 1, .ro, 0, 0, 1, .always⟩, ⟨4, 4, .ro, 0, 0, 15, .always⟩, ⟨8, 8, .ro, 0, 0, 255, .always⟩]⟩,
  ⟨46, 0x201100, 0x8, 12, 0x0, 1, false, [⟨0, 1, .w1c, 0, 0, 1, .always⟩, ⟨1, 1, .ro, 0, 0, 1, .always⟩, ⟨2, 1, .ro, 0, 0, 1, .always⟩, ⟨3, 2, .ro, 0, 0, 3, .always⟩, ⟨5, 3, .ro, 0, 0, 7, .always⟩, ⟨8, 2, .ro, 0, 0, 3, .always⟩, ⟨10, 18, .ro, 0, 0, 262143, .always⟩, ⟨28, 11, .ro, 0, 0, 2047, .always⟩, ⟨39, 4, .ro, 0, 0, 15, .always⟩, ⟨48, 16, .ro, 0, 0, 65535, .always⟩]⟩,
  ⟨48, 0x200000, 0x0, 1, 0x0, 1, false, [⟨0, 2, .ro, 0, 0, 3, .always⟩, ⟨2, 2, .ro, 0, 0, 3, .always⟩, ⟨4, 1, .ro, 0, 0, 1, .always⟩, ⟨5, 1, .ro, 0, 0, 1, .always⟩, ⟨6, 1, .ro, 0, 0, 1, .always⟩, ⟨8, 9, .ro, 0, 0, 511, .always⟩]⟩,
  ⟨48, 0x200008, 0x0, 1, 0x0, 1, false, [⟨0, 1, .w1s, 0, 0, 1, .always⟩]⟩,
  ⟨48, 0x200010, 0x0, 1, 0x0, 1, false, [⟨0, 64, .ro, 0, 0, 18446744073709551615, .always⟩]⟩,
  ⟨48, 0x200018, 0x0, 1, 0x0, 1, true, [⟨0, 64, .rw, 0, 0, 18446744073709551615, .always⟩]⟩,
  ⟨48, 0x200020, 0x0, 1, 0x0, 1, false, [⟨0, 1, .ro, 0, 0, 1, .always⟩, ⟨1, 2, .ro, 0, 0, 3, .always⟩, ⟨32, 32, .ro, 0, 0, 4294967295, .always⟩]⟩,
  ⟨48, 0x201000, 0x40, 3, 0x8, 8, false, [⟨0, 64, .ro, 0, 0, 18446744073709551615, .always⟩]⟩,
  ⟨49, 0x200000, 0x0, 1, 0x0, 1, true, [⟨0, 5, .rw, 14, 10, 24, .audIdle⟩, ⟨12, 36, .rw, 0, 0, 68719476735, .audIdle⟩]⟩,
  ⟨49, 0x200008, 0x0, 1, 0x0, 1, false, [⟨0, 24, .ro, 0, 0, 16777215, .always⟩, ⟨32, 24, .rw, 0, 0, 16777215, .always⟩]⟩,
  ⟨49, 0x200010, 0x0, 1, 0x0, 1, true, [⟨0, 16, .rw, 4096, 256, 65535, .always⟩, ⟨16, 16, .rw, 1600, 160, 16000, .always⟩]⟩,
  ⟨49, 0x200018, 0x0, 1, 0x0, 1, false, [⟨0, 10, .ro, 0, 0, 1023, .always⟩, ⟨16, 48, .ro, 0, 0, 281474976710655, .always⟩]⟩,
  ⟨24, 0x200000, 0x0, 1, 0x0, 1, true, [⟨0, 1, .rw, 0, 0, 1, .always⟩, ⟨4, 4, .rw, 2, 0, 8, .always⟩, ⟨16, 16, .rw, 65535, 0, 65535, .always⟩]⟩,
  ⟨24, 0x200008, 0x0, 1, 0x0, 1, true, [⟨12, 36, .rw, 0, 0, 68719476735, .unitEnZero⟩]⟩,
  ⟨24, 0x200040, 0x0, 1, 0x0, 1, false, [⟨0, 16, .ro, 0, 0, 65535, .always⟩, ⟨16, 16, .ro, 0, 0, 65535, .always⟩, ⟨32, 13, .ro, 0, 0, 8191, .always⟩]⟩,
  ⟨24, 0x200048, 0x0, 1, 0x0, 1, false, [⟨0, 64, .ro, 0, 0, 18446744073709551615, .always⟩]⟩,
  ⟨52, 0x200000, 0x0, 1, 0x0, 1, false, [⟨0, 3, .ro, 0, 0, 7, .always⟩, ⟨3, 2, .ro, 0, 0, 3, .always⟩, ⟨8, 9, .ro, 0, 0, 511, .always⟩, ⟨32, 16, .ro, 0, 0, 65535, .always⟩, ⟨48, 16, .ro, 0, 0, 65535, .always⟩]⟩,
  ⟨52, 0x200008, 0x0, 1, 0x0, 1, true, [⟨0, 24, .rw, 96000, 1600, 16777215, .always⟩, ⟨24, 16, .rw, 7010, 1024, 65535, .always⟩, ⟨40, 1, .rw, 1, 0, 1, .always⟩]⟩,
  ⟨52, 0x200100, 0x8, 3, 0x0, 1, false, [⟨0, 2, .ro, 0, 0, 3, .always⟩, ⟨2, 1, .ro, 0, 0, 1, .always⟩, ⟨3, 9, .ro, 0, 0, 511, .always⟩, ⟨32, 32, .ro, 0, 0, 4294967295, .always⟩]⟩,
  ⟨52, 0x200140, 0x8, 3, 0x0, 1, false, [⟨0, 64, .ro, 0, 0, 18446744073709551615, .always⟩]⟩,
  ⟨1, 0x200000, 0x0, 1, 0x0, 1, false, [⟨0, 1, .ro, 0, 0, 1, .always⟩, ⟨1, 1, .ro, 0, 0, 1, .always⟩, ⟨2, 1, .ro, 0, 0, 1, .always⟩, ⟨16, 16, .ro, 0, 0, 65535, .always⟩]⟩,
  ⟨1, 0x201000, 0x8, 48, 0x0, 1, false, [⟨0, 2, .rw, 0, 0, 2, .always⟩, ⟨2, 2, .ro, 0, 0, 3, .always⟩, ⟨4, 2, .ro, 0, 0, 3, .always⟩, ⟨6, 2, .ro, 0, 0, 3, .always⟩, ⟨8, 1, .ro, 0, 0, 1, .always⟩]⟩,
  ⟨2, 0x201000, 0x8, 96, 0x0, 1, false, [⟨0, 1, .rw, 0, 0, 1, .always⟩, ⟨1, 3, .ro, 0, 0, 7, .always⟩, ⟨4, 4, .ro, 0, 0, 15, .always⟩, ⟨8, 1, .w1c, 0, 0, 1, .always⟩]⟩]

/-- Register rows, part 6. -/
def regRows6 : List RegRow := [
  ⟨56, 0x201000, 0x80, 96, 0x0, 1, false, [⟨0, 16, .ro, 0, 0, 65535, .always⟩]⟩,
  ⟨56, 0x200000, 0x0, 1, 0x0, 1, true, [⟨0, 1, .rwMfg, 1, 0, 1, .always⟩]⟩,
  ⟨56, 0x200008, 0x0, 1, 0x0, 1, false, [⟨0, 7, .ro, 0, 0, 127, .always⟩, ⟨8, 7, .ro, 0, 0, 127, .always⟩, ⟨16, 32, .ro, 0, 0, 4294967295, .always⟩]⟩,
  ⟨56, 0x201058, 0x80, 96, 0x0, 1, false, [⟨0, 1, .w1s, 0, 0, 1, .always⟩]⟩,
  ⟨56, 0x201060, 0x80, 96, 0x0, 1, false, [⟨0, 16, .ro, 0, 0, 65535, .always⟩, ⟨16, 16, .ro, 0, 0, 65535, .always⟩, ⟨32, 4, .ro, 0, 0, 15, .always⟩, ⟨36, 8, .ro, 0, 0, 255, .always⟩, ⟨44, 1, .ro, 0, 0, 1, .always⟩, ⟨48, 16, .ro, 0, 0, 65535, .always⟩]⟩,
  ⟨56, 0x201068, 0x80, 96, 0x0, 1, false, [⟨0, 40, .ro, 0, 0, 1099511627775, .always⟩]⟩,
  ⟨57, 0x200000, 0x0, 1, 0x0, 1, true, [⟨0, 1, .rwMfg, 1, 0, 1, .always⟩, ⟨1, 1, .w1s, 0, 0, 1, .always⟩, ⟨32, 32, .rw, 23040000, 1600, 4294967295, .always⟩]⟩,
  ⟨57, 0x200008, 0x0, 1, 0x0, 1, false, [⟨0, 1, .ro, 0, 0, 1, .always⟩, ⟨1, 1, .ro, 0, 0, 1, .always⟩, ⟨8, 8, .ro, 0, 0, 255, .always⟩, ⟨16, 16, .ro, 65535, 0, 65535, .always⟩, ⟨32, 8, .ro, 0, 0, 255, .always⟩, ⟨40, 8, .ro, 0, 0, 255, .always⟩, ⟨48, 16, .ro, 0, 0, 65535, .always⟩]⟩,
  ⟨57, 0x200010, 0x0, 1, 0x0, 1, true, [⟨0, 8, .rw, 101, 0, 255, .always⟩, ⟨8, 8, .rw, 104, 0, 255, .always⟩, ⟨16, 8, .rw, 98, 0, 255, .always⟩, ⟨24, 8, .ro, 115, 0, 255, .always⟩]⟩,
  ⟨57, 0x200018, 0x0, 1, 0x0, 1, false, [⟨0, 48, .ro, 0, 0, 281474976710655, .always⟩]⟩,
  ⟨57, 0x201000, 0x8, 96, 0x0, 1, true, [⟨0, 5, .rw, 0, 0, 20, .always⟩, ⟨8, 8, .ro, 0, 0, 255, .always⟩, ⟨16, 16, .ro, 0, 0, 65535, .always⟩, ⟨32, 20, .ro, 0, 0, 1048575, .always⟩]⟩,
  ⟨57, 0x202000, 0x8, 384, 0x0, 1, false, [⟨0, 16, .ro, 0, 0, 65535, .always⟩, ⟨16, 20, .ro, 0, 0, 1048575, .always⟩, ⟨36, 7, .ro, 0, 0, 127, .always⟩, ⟨43, 1, .ro, 0, 0, 1, .always⟩, ⟨44, 1, .ro, 0, 0, 1, .always⟩]⟩,
  ⟨60, 0x200000, 0x0, 1, 0x0, 1, true, [⟨0, 1, .rw, 0, 0, 1, .always⟩, ⟨16, 12, .rw, 60, 1, 3600, .always⟩]⟩,
  ⟨60, 0x200008, 0x0, 1, 0x0, 1, true, [⟨0, 5, .rw, 14, 12, 18, .always⟩, ⟨12, 36, .rw, 0, 0, 68719476735, .unitEnZero⟩]⟩,
  ⟨60, 0x200010, 0x0, 1, 0x0, 1, true, [⟨0, 5, .rw, 16, 10, 22, .always⟩, ⟨12, 36, .rw, 0, 0, 68719476735, .unitEnZero⟩]⟩,
  ⟨60, 0x200018, 0x0, 1, 0x0, 1, false, [⟨0, 22, .ro, 0, 0, 4194303, .always⟩, ⟨32, 22, .rw, 0, 0, 4194303, .always⟩]⟩,
  ⟨60, 0x200040, 0x0, 1, 0x0, 1, false, [⟨0, 19, .ro, 0, 0, 524287, .always⟩, ⟨19, 1, .ro, 0, 0, 1, .always⟩, ⟨20, 1, .ro, 0, 0, 1, .always⟩, ⟨32, 16, .ro, 0, 0, 65535, .always⟩, ⟨48, 16, .ro, 0, 0, 65535, .always⟩]⟩,
  ⟨60, 0x200048, 0x0, 1, 0x0, 1, false, [⟨0, 64, .ro, 0, 0, 18446744073709551615, .always⟩]⟩,
  ⟨61, 0x200000, 0x0, 1, 0x0, 1, false, [⟨0, 1, .rw, 0, 0, 1, .always⟩, ⟨1, 1, .w1s, 0, 0, 1, .always⟩, ⟨2, 1, .rw, 1, 0, 1, .always⟩]⟩,
  ⟨61, 0x200008, 0x0, 1, 0x0, 1, true, [⟨0, 5, .rw, 14, 10, 20, .spillOff⟩, ⟨5, 1, .rw, 0, 0, 1, .always⟩, ⟨12, 36, .rw, 0, 0, 68719476735, .spillOff⟩]⟩,
  ⟨61, 0x200010, 0x0, 1, 0x0, 1, false, [⟨0, 14, .ro, 0, 0, 16383, .always⟩, ⟨16, 14, .rw, 0, 0, 16383, .always⟩]⟩,
  ⟨61, 0x200018, 0x0, 1, 0x0, 1, false, [⟨0, 20, .ro, 0, 0, 1048575, .always⟩, ⟨32, 20, .rw, 0, 0, 1048575, .always⟩]⟩,
  ⟨61, 0x200020, 0x0, 1, 0x0, 1, true, [⟨0, 1, .rw, 1, 0, 1, .always⟩, ⟨1, 1, .rw, 1, 0, 1, .always⟩, ⟨8, 8, .rw, 16, 8, 255, .always⟩]⟩,
  ⟨61, 0x200040, 0x0, 1, 0x0, 1, false, [⟨0, 32, .ro, 0, 0, 4294967295, .always⟩, ⟨32, 16, .ro, 0, 0, 65535, .always⟩]⟩]

/-- Register rows, part 7. -/
def regRows7 : List RegRow := [
  ⟨61, 0x204000, 0x8, 4096, 0x0, 1, true, [⟨0, 1, .rw, 1, 0, 1, .always⟩, ⟨1, 1, .rw, 0, 0, 1, .always⟩, ⟨8, 8, .rw, 0, 0, 255, .always⟩, ⟨16, 8, .rw, 16, 0, 255, .always⟩, ⟨24, 8, .rw, 64, 1, 255, .always⟩]⟩,
  ⟨61, 0x20C000, 0x80, 256, 0x8, 16, true, [⟨0, 24, .rw, 0, 0, 16777215, .always⟩, ⟨24, 4, .rw, 0, 0, 15, .always⟩, ⟨28, 1, .rw, 0, 0, 1, .always⟩, ⟨29, 1, .rw, 0, 0, 1, .always⟩, ⟨30, 1, .rw, 0, 0, 1, .always⟩, ⟨32, 8, .rw, 0, 0, 255, .always⟩]⟩,
  ⟨61, 0x214000, 0x8, 4096, 0x0, 1, false, [⟨0, 32, .ro, 0, 0, 4294967295, .always⟩, ⟨32, 32, .ro, 0, 0, 4294967295, .always⟩]⟩,
  ⟨61, 0x300000, 0x8, 32, 0x0, 1, false, []⟩,
  ⟨62, 0x200000, 0x0, 1, 0x0, 1, true, [⟨0, 1, .rw, 0, 0, 1, .always⟩, ⟨1, 1, .rw, 0, 0, 1, .always⟩, ⟨2, 1, .rw, 1, 0, 1, .always⟩]⟩,
  ⟨62, 0x200008, 0x0, 1, 0x0, 1, false, [⟨0, 1, .ro, 0, 0, 1, .always⟩, ⟨1, 2, .ro, 0, 0, 3, .always⟩, ⟨16, 32, .ro, 0, 0, 4294967295, .always⟩]⟩,
  ⟨62, 0x200010, 0x0, 1, 0x0, 1, true, [⟨0, 48, .rw, 0, 0, 281474976710655, .always⟩]⟩,
  ⟨62, 0x200030, 0x0, 1, 0x0, 1, true, [⟨0, 32, .rw, 0, 0, 4294967295, .always⟩, ⟨32, 6, .rw, 0, 0, 32, .always⟩, ⟨38, 1, .rw, 0, 0, 1, .always⟩]⟩,
  ⟨3, 0x200000, 0x0, 1, 0x0, 1, false, [⟨0, 2, .ro, 0, 0, 3, .always⟩, ⟨2, 1, .ro, 0, 0, 1, .always⟩, ⟨3, 1, .ro, 0, 0, 1, .always⟩, ⟨8, 22, .ro, 0, 0, 4194303, .always⟩, ⟨32, 32, .ro, 0, 0, 4294967295, .always⟩]⟩,
  ⟨3, 0x200008, 0x0, 1, 0x0, 1, false, [⟨0, 16, .ro, 0, 0, 65535, .always⟩, ⟨32, 23, .ro, 0, 0, 8388607, .always⟩]⟩,
  ⟨2, 0x200000, 0x0, 1, 0x0, 1, false, [⟨0, 1, .w1sIsland, 0, 0, 1, .always⟩]⟩,
  ⟨2, 0x200008, 0x0, 1, 0x0, 1, false, [⟨0, 2, .ro, 0, 0, 3, .always⟩, ⟨2, 1, .ro, 0, 0, 1, .always⟩, ⟨3, 1, .ro, 0, 0, 1, .always⟩, ⟨16, 32, .ro, 0, 0, 4294967295, .always⟩]⟩,
  ⟨2, 0x200010, 0x0, 1, 0x0, 1, false, [⟨0, 4, .ro, 1, 0, 15, .always⟩, ⟨4, 3, .ro, 0, 0, 7, .always⟩, ⟨7, 1, .ro, 0, 0, 1, .always⟩]⟩,
  ⟨56, 0x201008, 0x80, 96, 0x0, 1, true, [⟨0, 16, .rw, 218, 0, 65535, .always⟩]⟩,
  ⟨56, 0x201010, 0x80, 96, 0x0, 1, true, [⟨0, 16, .rw, 218, 0, 65535, .always⟩]⟩,
  ⟨56, 0x201018, 0x80, 96, 0x0, 1, true, [⟨0, 16, .rw, 1, 0, 65535, .always⟩]⟩,
  ⟨56, 0x201020, 0x80, 96, 0x0, 1, true, [⟨0, 16, .rw, 0, 0, 65535, .always⟩]⟩,
  ⟨56, 0x201028, 0x80, 96, 0x0, 1, true, [⟨0, 16, .rw, 1024, 0, 65535, .always⟩]⟩,
  ⟨56, 0x201030, 0x80, 96, 0x0, 1, true, [⟨0, 16, .rw, 64881, 0, 65535, .always⟩]⟩,
  ⟨56, 0x201038, 0x80, 96, 0x0, 1, true, [⟨0, 16, .rw, 655, 0, 65535, .always⟩]⟩,
  ⟨56, 0x201040, 0x80, 96, 0x0, 1, true, [⟨0, 16, .rw, 0, 0, 65535, .always⟩]⟩,
  ⟨56, 0x201048, 0x80, 96, 0x0, 1, true, [⟨0, 16, .rw, 164, 0, 65535, .always⟩]⟩,
  ⟨56, 0x201050, 0x80, 96, 0x0, 1, true, [⟨0, 16, .rw, 4, 0, 65535, .always⟩]⟩,
  ⟨57, 0x200020, 0x0, 1, 0x0, 1, false, [⟨0, 48, .ro, 0, 0, 281474976710655, .always⟩]⟩]

/-- Register rows, part 8. -/
def regRows8 : List RegRow := [
  ⟨62, 0x200018, 0x0, 1, 0x0, 1, false, [⟨0, 64, .rw, 0, 0, 18446744073709551615, .always⟩]⟩,
  ⟨62, 0x200020, 0x0, 1, 0x0, 1, false, [⟨0, 30, .rw, 0, 0, 1073741823, .always⟩, ⟨32, 32, .rw, 0, 0, 4294967295, .always⟩]⟩,
  ⟨62, 0x200028, 0x0, 1, 0x0, 1, false, [⟨0, 64, .rw, 0, 0, 18446744073709551615, .always⟩]⟩,
  ⟨8, 0x201000, 0x200, 8, 0x20, 16, false, [⟨0, 64, .rw, 0, 0, 18446744073709551615, .always⟩]⟩,
  ⟨9, 0x201000, 0x200, 8, 0x20, 16, false, [⟨0, 64, .rw, 0, 0, 18446744073709551615, .always⟩]⟩,
  ⟨8, 0x201008, 0x200, 8, 0x20, 16, false, [⟨0, 64, .rw, 0, 0, 18446744073709551615, .always⟩]⟩,
  ⟨9, 0x201008, 0x200, 8, 0x20, 16, false, [⟨0, 64, .rw, 0, 0, 18446744073709551615, .always⟩]⟩]

/-- Every register row of the chapters (the common header and the ring blocks are handled apart). -/
def regRows : List RegRow :=
  regRows0 ++ regRows1 ++ regRows2 ++ regRows3 ++ regRows4 ++ regRows5 ++ regRows6 ++ regRows7 ++ regRows8

end Sys2Proof.Machine
end

