-- ==== Sys2Proof/Machine/Fields.lean ====
section
/-! DEFINITION. The units, their register fields, and time: when a timer expires beside the other commands of its cycle (R62,
R529). -/
namespace Sys2Proof.Machine
open Sys2Proof

/-! ## Units -/

/-- Unit number n of R9. -/
def unitN : UnitId → Nat
  | .apx | .clk | .pwr | .drw => 0
  | .par => 1 | .railA | .railB | .railC => 2 | .churn => 3 | .sep => 4 | .press => 5 | .ven => 6
  | .carc => 7 | .cell => 8 | .bld => 9 | .ten | .lease => 10 | .cool | .vat | .ddr => 11
  | .sec | .aud => 12 | .jig => 13 | .gov | .wit => 14 | .mtr | .tal | .mgt => 15

/-- Sub-window k of R39. -/
def unitK : UnitId → Nat
  | .clk | .railB | .lease | .vat | .aud | .wit | .tal => 1
  | .pwr | .railC | .ddr | .mgt => 2
  | .drw => 3
  | _ => 0

/-- Byte offset of the unit's base in the CSR space (R39). -/
def unitBase (u : UnitId) : Nat := unitN u * 0x1000000 + unitK u * 0x400000

/-- UNIT_CAP.RINGS: the rings each chapter gives its unit. -/
def unitRings : UnitId → Nat
  | .par | .churn => 256 | .railA | .railB => 512 | .railC | .sep | .press => 64
  | .ven => 32 | .carc | .cell => 128 | .bld | .ten | .lease | .vat | .sec => 16
  | .cool | .mtr => 8 | .mgt | .drw => 4
  | _ => 0

/-- The unit at sub-window k of window n; a window with one unit belongs to it whole (R38, R39). -/
def unitAt (n k : Nat) : Option UnitId :=
  match n, k with
  | 0, 0 => some .apx | 0, 1 => some .clk | 0, 2 => some .pwr | 0, 3 => some .drw
  | 1, _ => some .par | 2, 0 => some .railA | 2, 1 => some .railB | 2, 2 => some .railC
  | 3, _ => some .churn | 4, _ => some .sep | 5, _ => some .press | 6, _ => some .ven | 7, _ => some .carc
  | 8, _ => some .cell | 9, _ => some .bld | 10, 0 => some .ten | 10, 1 => some .lease
  | 11, 0 => some .cool | 11, 1 => some .vat | 11, 2 => some .ddr | 12, 0 => some .sec | 12, 1 => some .aud
  | 13, _ => some .jig | 14, 0 => some .gov | 14, 1 => some .wit
  | 15, 0 => some .mtr | 15, 1 => some .tal | 15, 2 => some .mgt
  | _, _ => none

/-- The unit of a Rail. -/
def railUnit : Rail → UnitId
  | .a => .railA
  | .b => .railB

/-- The Rail's index in register handles. -/
def railIx : Rail → Nat
  | .a => 0
  | .b => 1

/-- Key of a ring in `State.rings`. -/
def ringKey (u : UnitId) (r : Nat) : Nat := (unitN u * 4 + unitK u) * 4096 + r

/-! ## Register fields -/

/-- The value of a register field. -/
def State.rd (s : State) (f : Fld) : Nat := Tab.getD s.csr f.key f.reset

/-- The state with `v` in a register field, cut to the field's width. -/
def State.wr (s : State) (f : Fld) (v : Nat) : State := { s with csr := Tab.set s.csr f.key (v % 2 ^ f.w) }

/-- Whether a one-bit field is 1. -/
def State.on (s : State) (f : Fld) : Bool := s.rd f == 1

/-- A saturating count in a field raised by `n`. -/
def State.bump (s : State) (f : Fld) (n : Nat) : State := s.wr f (satAdd (s.rd f) n f.w)

/-- A level in a field lowered by `n`, not below 0. -/
def State.drop (s : State) (f : Fld) (n : Nat) : State := s.wr f (s.rd f - n)

/-- Bit `i` of a field. -/
def State.bit (s : State) (f : Fld) (i : Nat) : Bool := (s.rd f).testBit i

/-- Bit `i` of a field set to `b`. -/
def State.wrBit (s : State) (f : Fld) (i : Nat) (b : Bool) : State := s.wr f (setBitTo (s.rd f) i b)

/-! ## Images of descriptors (R45) -/

/-- The first image of a descriptor or chain. -/
def Fetched.img (f : Fetched) : List Byte := f.imgs.headD []

def Fetched.opcode (f : Fetched) : Nat := fieldAt f.img 0 1
def Fetched.tag (f : Fetched) : Nat := fieldAt f.img 2 2
def Fetched.tenant (f : Fetched) : Nat := fieldAt f.img 4 2 % 2 ^ 14
def Fetched.src (f : Fetched) : Nat := fieldAt f.img 8 8
def Fetched.dst (f : Fetched) : Nat := fieldAt f.img 16 8
def Fetched.len (f : Fetched) : Nat := fieldAt f.img 24 4

/-- The field of `n` bytes at byte `off` of the (first) image. -/
def Fetched.at (f : Fetched) (off n : Nat) : Nat := fieldAt f.img off n

def Fetched.fence (f : Fetched) : Bool := (fieldAt f.img 1 1).testBit 0
def Fetched.ntf (f : Fetched) : Bool := (fieldAt f.img 1 1).testBit 1
def Fetched.urgent (f : Fetched) : Bool := (fieldAt f.img 1 1).testBit 3

/-! ## Time -/

/-- Data-plane ticks of a management tick (R14). -/
def mgmtTick : Nat := 1000000

/-- The tick `n` management ticks from now. -/
def State.inMgmt (s : State) (n : Nat) : Nat := s.now + n * mgmtTick

/-- The tick as the blades' clocks count it: CHIP_TIME, which a cold reset restarts (R491), behind all earlier ticks. -/
def State.wireNow (s : State) : Nat := s.boot.before + s.now

/-- The queue pair of a context. -/
def Ctx.qp? (x : Ctx) : Option Qp := match x.body with
  | .qp q => some q
  | .tcp _ => none

/-- The TCP connection of a context. -/
def Ctx.tcp? (x : Ctx) : Option Tcp := match x.body with
  | .tcp t => some t
  | .qp _ => none

/-- When a block's outstanding chunk read times out. -/
def BlkStep.chunkBy : BlkStep → Option Nat
  | .chunk t => some t
  | _ => none

/-- When the replica of a journal page on a blade was issued, while it is outstanding. -/
def JPage.issuedAt (x : JPage) (b : Nat) : Option Nat :=
  (x.reps.find? (·.1.blade == b)).bind fun r => match r.2 with
    | .issued t => some t
    | _ => none

/-- Management ticks after which an eligible command of a class joins Urgent (R105). -/
def State.ageLimit (s : State) (cls : Nat) : Nat :=
  if cls = 1 then s.rd PAR_CLASS_CFG.AGE_HIGH else if cls = 2 then s.rd PAR_CLASS_CFG.AGE_MED else s.rd PAR_CLASS_CFG.AGE_LOW

/-- The tick a timer command waits for, as the timer stands; `none` for a command that is no timer's, `some none` while its
timer does not run, and for the instants of a schedule that keep no tick of their own. -/
def State.timerOf (s : State) : Instr → Option (Option Nat)
  | .msiHoldoffExpiry u r => some ((Tab.getD s.rings (ringKey u r) {}).holdUntil)
  | .rateRise c => some ((Tab.get? s.rails.ctxs c).bind (·.riseAt))
  | .localAckTimeout c => some (((Tab.get? s.rails.ctxs c).bind Ctx.qp?).bind (·.ackBy))
  | .rnrTimerExpiry c => some (((Tab.get? s.rails.ctxs c).bind Ctx.qp?).bind (·.rnrBy))
  | .tcpRtoExpiry c => some (((Tab.get? s.rails.ctxs c).bind Ctx.tcp?).bind (·.rtoBy))
  | .odpTimeoutExpiry c => some ((Tab.get? s.rails.ctxs c).bind fun x => (x.qp?.bind (·.hold)).map fun h =>
      h.since + s.rd (RDMA_ODP_CFG.TIMEOUT (railIx x.rail)) * mgmtTick)
  | .mrDrainLimitExpiry key => some ((s.rails.invs.find? (·.key == key)).bind (·.limit))
  | .ageLimitExpiry k => some ((Tab.get? s.par.cmds k).map fun c => c.eligibleAt + s.ageLimit c.cls * mgmtTick)
  | .holdLimitExpiry k => some ((Tab.get? s.par.cmds k).map fun c =>
      c.heldAt + s.rd PAR_HANDOFF_CFG.HOLD_LIMIT * mgmtTick)
  | .keepAliveExpiry n => some ((Tab.get? s.par.ctrls n).bind (·.kaBy))
  | .chunkReadTimeout k i _ => some (((Tab.get? s.par.cmds k).bind (·.blks[i]?)).bind (·.step.chunkBy))
  | .legacyIdleExpiry => some (s.press.legacy.map (·.idleAt))
  | .graceExpiry b => some (Tab.get? s.carc.grace b)
  | .intentFlush _ => some s.carc.flushAt
  | .journalHoldExpiry sh l _ => some ((Tab.get? (Tab.getD s.cell.shards sh {}).lanes l).bind (·.holdUntil))
  | .checkpointPeriodExpiry sh _ => some (Tab.getD s.cell.shards sh {}).ckptAt
  | .checkpointLateExpiry sh => some (Tab.getD s.cell.shards sh {}).ckptDue
  | .replicaTimeout sh p b _ => some (((Tab.get? (Tab.getD s.cell.shards sh {}).pages p).bind (·.issuedAt b)).map
      (· + s.rd CELL_JRN_CFG.TIMEOUT * mgmtTick))
  | .wearLevelCheck b _ => some (Tab.getD s.cell.blades b {}).wlAt
  | .healthPeriodExpiry => some s.cell.healthAt
  | .prsntDebounceExpiry b | .portResetExpiry b | .bladeTrainingTimeout b | .bladeRdyTimeout b | .portDownExpiry b =>
    some (Tab.getD s.ports b {}).timer
  | .unreachExpiry b => some (some ((Tab.getD s.ports b {}).lastCpl + s.rd BLD_LINK_CFG.UNREACH * mgmtTick))
  | .commandTimeoutExpiry b i => some (((Tab.getD s.ports b {}).issued[i]?).map fun e =>
      e.since + s.rd BLD_LINK_CFG.CMD_TIMEOUT * mgmtTick)
  | .tenonTrainTimeout | .tenonRetrainTimeout | .tenonDownExpiry => some s.ten.limit
  | .flitSilenceExpiry => some (some (s.ten.lastFlit + 16000))
  | .timeReqPeriod => some s.ten.timeAt
  | .timeSlew => some (some (s.ten.slewAt + 4096))
  | .timeSyncLapse => some (s.ten.synced.map (· + 16 * mgmtTick))
  | .fwdWaitExpiry => some (s.leaseU.linkOut.map (· + s.rd TEN_FWD_CFG.FWD_WAIT * mgmtTick))
  | .renewRound => some s.leaseU.renewAt
  | .leaseExpiry sh => some (some (Tab.getD s.leaseU.shards sh {}).ends)
  | .leaseTailEnd sh => some (Tab.getD s.leaseU.shards sh {}).tailEnd
  | .quietEnd sh => some (Tab.getD s.leaseU.shards sh {}).quietEnd
  | .releaseReadDeadline sh => some (Tab.getD s.leaseU.shards sh {}).readBy
  | .noteSilenceExpiry sh => some (some ((Tab.getD s.leaseU.shards sh {}).noteAt + 2 * s.rd LEASE_CFG.RENEW * mgmtTick))
  | .takeoverSilenceReached sh b => some (Tab.get? (Tab.getD s.leaseU.shards sh {}).ready b)
  | .takeLimitExpiry sh => some (Tab.getD s.leaseU.shards sh {}).takeBy
  | .drillGraceExpiry sh => some (Tab.getD s.leaseU.shards sh {}).drillBy
  | .hbOutToggle => some s.leaseU.hbOutAt
  | .hbLossExpiry => some (some (s.leaseU.hbInAt + s.rd LEASE_HB_CFG.HB_LOSS))
  | .watchdogExpiry => some s.leaseU.wdogBy
  | .vatAlarmExpiry i => some ((s.vat.waiting[i]?).map fun q => q.since + s.rd (VAT_CLASS.ALARM q.cls) * mgmtTick)
  | .auditSealPeriod => some s.aud.sealDue
  | .jigIdleExpiry => some (s.jig.session.map (·.idleBy))
  | .rampTimeout d => some (Tab.get? s.sup.rampBy d)
  | .thermalTripPoweroff => some s.sup.tripOff
  | .witnessPassStart => some s.sup.passAt
  | .meterCut => some s.mtr.nextCut
  | .triggerPulseEnd => some (s.tally.pulseEnd.orElse fun _ => s.tally.lowEnd)
  | .lossHoldExpiry => some s.tally.lossUntil
  | .warmResetEnd _ _ => some s.boot.warmUntil
  | .foldAgeExpiry _ _ _ | .linkDownHbLossExpiry | .drillDue _ | .governorSample _ _ _ _ | .capTick | .budgetRefill
  | .tallyTokenRefill => some none
  | _ => none

/-- Whether a waiting command goes before a timer that is due at tick `t`: every input of the cycle is sampled before a timer is
compared (R62), and timers expire in ascending order of the tick at which each was due (R529). Commands that wait together
arrive in one cycle, since time passes on an empty queue only (log entry 3). -/
def State.goesFirst (s : State) (t : Nat) (c : Instr) : Bool :=
  match s.timerOf c with
  | none => true
  | some none => false
  | some (some u) => decide (u < t)

/-- Whether a timer due at tick `t` expires now: CHIP_TIME has reached it, and nothing that waits goes first (R62, R529). -/
def State.passed (s : State) (t : Nat) : Bool := decide (t ≤ s.now) && !s.pending.any (s.goesFirst t)

/-- Whether a running timer expires now. -/
def State.due (s : State) : Option Nat → Bool
  | some t => s.passed t
  | none => false

end Sys2Proof.Machine
end

