-- ==== Sys2Proof/Machine/Lanes.lean ====
section
/-! DEFINITION. The lanes of the Churn, the Press, the Veneer and the Carcase: which of them are in service, which waiting work
they take, ring work or inline work first (R158, R159, R178, R179, R184, R216, R400). -/
namespace Sys2Proof.Machine
open Sys2Proof

/-! ## Lanes in service -/

/-- The fields that say which lanes of an engine serve: EN, LANE_EN, LANE_FAULT, RING_MIN (0 for the Carcase, which has none),
its first power domain and the lanes of each. -/
structure Engine where
  en : Fld
  laneEn : Fld
  fault : Fld
  ringMin : Option Fld
  dom : Nat
  per : Nat

def churnEngine : Engine := ⟨CHURN_CTL.EN, CHURN_CTL.LANE_EN, CHURN_STATUS.LANE_FAULT, some CHURN_CTL.RING_MIN, 70, 4⟩
def pressEngine : Engine := ⟨PRESS_CTL.EN, PRESS_CTL.LANE_EN, PRESS_STATUS.LANE_FAULT, some PRESS_CTL.RING_MIN, 74, 8⟩
def venEngine : Engine := ⟨VEN_CTL.EN, VEN_CTL.LANE_EN, VEN_STATUS.LANE_FAULT, some VEN_CTL.RING_MIN, 77, 8⟩
def carcEngine : Engine := ⟨CARC_CTL.EN, CARC_CTL.LANE_EN, CARC_STATUS.LANE_FAULT, none, 79, 8⟩

/-- Whether a power domain carries work: ON, or SAFE (R442). -/
def State.powered (s : State) (d : Nat) : Bool := s.rd (PWR_DOM.STATE d) == 2 || s.rd (PWR_DOM.STATE d) == 3

/-- LANE_EN as it reads: the bits of a gated domain's lanes are 0. -/
def State.laneEn (s : State) (e : Engine) : Nat :=
  ((List.range 16).filter fun i => s.bit e.laneEn i && s.powered (e.dom + i / e.per)).foldl (fun m i => m + 2 ^ i) 0

/-- The lanes of an engine in service. -/
def State.lanesUp (s : State) (e : Engine) : List Nat :=
  if s.on e.en then (List.range 16).filter fun i => (s.laneEn e).testBit i && !s.bit e.fault i else []

/-! ## Who takes a lane -/

/-- What a lane works on. -/
inductive LaneUser
  | desc (d : DescRef)      -- a started descriptor
  | block (k i : Nat)       -- block i of the command in context k
  | legacy                  -- the legacy context of the Press
deriving DecidableEq, Repr

/-- Whether a lane works on a descriptor. -/
def LaneUser.isDesc : LaneUser → Bool
  | .desc _ => true
  | _ => false

/-- Waiting work, and which of a lane's two pipelines it needs: a Churn lane compresses and decompresses side by side, and a
RECAST needs both (R158). A lane of another engine has one, the first. -/
structure LaneWork where
  user : LaneUser
  first : Bool := true
  second : Bool := false
deriving DecidableEq, Repr

/-- A lane and its free pipelines. -/
structure LaneFree where
  lane : Nat
  first : Bool := true
  second : Bool := true
deriving DecidableEq, Repr

/-- Whether a lane's free pipelines suffice. -/
def LaneFree.takes (l : LaneFree) (w : LaneWork) : Bool := (l.first || !w.first) && (l.second || !w.second)

/-- The lane with the pipelines taken. -/
def LaneFree.less (l : LaneFree) (w : LaneWork) : LaneFree :=
  { l with first := l.first && !w.first, second := l.second && !w.second }

/-- Work put on the first lane that can take it: that lane, and the lanes after. -/
def putWork (w : LaneWork) : List LaneFree → Option (Nat × List LaneFree)
  | [] => none
  | l :: ls => if l.takes w then some (l.lane, l.less w :: ls) else (putWork w ls).map fun x => (x.1, l :: x.2)

/-- Works put on lanes in order: who holds which lane, the lanes after, and what finds none. -/
def putWorks : List LaneWork → List LaneFree → List (Nat × LaneUser) × List LaneFree × List LaneWork
  | [], ls => ([], ls, [])
  | w :: ws, ls => match putWork w ls with
    | some (n, ls') => let x := putWorks ws ls'; ((n, w.user) :: x.1, x.2.1, x.2.2)
    | none => let x := putWorks ws ls; (x.1, x.2.1, w :: x.2.2)

/-- Which lanes take which work now: RING_MIN of the lanes in service give their free pipelines to ring work first, every other
lane to inline work first (R159, R179, R400). That those are the lowest-numbered ones is a DESIGN CHOICE (log entry 118). -/
def laneTurn (ringMin : Nat) (lanes : List Nat) (ring inline : List LaneWork) : List (Nat × LaneUser) :=
  let a := putWorks ring ((lanes.take ringMin).map fun n => { lane := n })
  let b := putWorks inline ((lanes.drop ringMin).map fun n => { lane := n })
  let c := putWorks b.2.2 a.2.1
  let e := putWorks a.2.2 b.2.1
  a.1 ++ b.1 ++ c.1 ++ e.1

/-! ## The waiting work of each engine -/

/-- The started descriptors of a unit, by ascending ring and in ring order (the order among rings: log entry 118). -/
def State.startedDescs (s : State) (u : UnitId) : List (DescRef × Fetched) :=
  s.rings.flatMap fun e => if e.1 / 4096 = unitN u * 4 + unitK u then
    (e.2.fetched.filter fun f => f.phase != .fetched).map fun f => (⟨e.1 % 4096, f.slot⟩, f) else []

/-- Blocks of commands for which `p` holds, by ascending context. -/
def State.inlineBlocks (s : State) (p : Blk → Bool) : List (Nat × Nat × Blk) :=
  s.par.cmds.flatMap fun x => (x.2.blks.zipIdx.filter fun b => p b.1).map fun b => (x.1, b.2, b.1)

/-- Descriptors and inline blocks that wait for a Churn lane. -/
def State.churnRing (s : State) : List LaneWork :=
  (s.startedDescs .churn).filterMap fun x =>
    if x.2.opcode = Op.compress then some ⟨.desc x.1, true, false⟩
    else if x.2.opcode = Op.decompress then some ⟨.desc x.1, false, true⟩
    else if x.2.opcode = Op.recast then some ⟨.desc x.1, true, true⟩ else none

def BlkStep.churnWork (st : BlkStep) : Option (Bool × Bool) := match st with
  | .press => some (true, false)
  | .plain _ _ => some (false, true)
  | _ => none

def State.churnInline (s : State) : List LaneWork :=
  (s.inlineBlocks fun b => b.step.churnWork.isSome).map fun x =>
    let p := (x.2.2.step.churnWork).getD (true, false)
    ⟨.block x.1 x.2.1, p.1, p.2⟩

/-- The lanes of the Churn and what they take. -/
def State.churnTurn (s : State) : List (Nat × LaneUser) :=
  laneTurn (s.rd CHURN_CTL.RING_MIN) (s.lanesUp churnEngine) s.churnRing s.churnInline

/-- Whether a user has a lane. -/
def takesLane (turn : List (Nat × LaneUser)) (u : LaneUser) : Bool := turn.any fun x => x.2 == u

/-- Descriptors and inline blocks that wait for a Veneer lane. -/
def BlkStep.venWork (st : BlkStep) : Bool := match st with
  | .crypt _ | .cipher _ _ _ _ => true
  | _ => false

def State.venTurn (s : State) : List (Nat × LaneUser) :=
  laneTurn (s.rd VEN_CTL.RING_MIN) (s.lanesUp venEngine)
    ((s.startedDescs .ven).filterMap fun x =>
      if x.2.opcode = Op.encrypt ∨ x.2.opcode = Op.decrypt then some ⟨.desc x.1, true, false⟩ else none)
    ((s.inlineBlocks fun b => b.step.venWork).map fun x => ⟨.block x.1 x.2.1, true, false⟩)

/-! ## The Press: contexts in turn (R183, R184) -/

/-- The context a Press descriptor names. -/
def pressCtxOf (f : Fetched) : Nat := f.at 28 1

/-- Bytes of a rate block of an algorithm. -/
def rateOf (alg : Nat) : Nat := ((algOf alg).map (·.block)).getD 64

/-- Full rate blocks in the legacy input FIFO. -/
def Legacy.blocks (l : Legacy) : Nat := 8 * l.fifo / rateOf l.alg

/-- Whether the legacy context is ready: a full rate block of words, or FINAL being processed. -/
def Legacy.ready (l : Legacy) : Bool := l.err == 0 && (l.final || decide (0 < l.blocks))

/-- The ready contexts of the Press in ascending order, with the descriptor each works on: of the started HASH descriptors that
name a context the first in ring order, lower rings first, of the owner alone once it has one (R182, R183, R200). The legacy context is number 64. -/
def State.pressReady (s : State) : List (Nat × LaneUser) :=
  let descs := (s.startedDescs .press).filter fun x => x.2.opcode == Op.hash
    && (s.rd (PRESS_CTX_STATUS.STATE (pressCtxOf x.2)) == 0 || s.rd (PRESS_CTX_STATUS.OWNER_RING (pressCtxOf x.2)) == x.1.ring)
  (List.range 65).filterMap fun c =>
    if c = 64 then (match s.press.legacy with
      | some l => if l.ready then some (64, .legacy) else none
      | none => none)
    else (descs.find? fun x => pressCtxOf x.2 == c).map fun x => (c, .desc x.1)

/-- The ready contexts in round-robin order after the context a lane last served. -/
def State.pressOrder (s : State) : List (Nat × LaneUser) :=
  (s.pressReady.filter fun x => s.press.served < x.1) ++ s.pressReady.filter fun x => x.1 ≤ s.press.served

/-- The lanes of the Press and what they take; without PRESS_0, which holds every context and the keys, none (R199). -/
def State.pressTurn (s : State) : List (Nat × LaneUser) :=
  laneTurn (s.rd PRESS_CTL.RING_MIN) (if s.powered 74 then s.lanesUp pressEngine else []) (s.pressOrder.map fun x => ⟨x.2, true, false⟩)
    ((s.inlineBlocks fun b => b.step == .print).map fun x => ⟨.block x.1 x.2.1, true, false⟩)

/-! ## LANE_BUSY -/

/-- The lanes that hold work, as a mask. -/
def laneMask (lanes : List Nat) : Nat := (List.range 16).foldl (fun m i => if lanes.contains i then m + 2 ^ i else m) 0

/-- The Carcase splits a descriptor across all its lanes (R216). -/
def State.carcTurn (s : State) : List Nat :=
  if (s.startedDescs .carc).any fun x => decide (x.2.opcode ≤ Op.verify) then s.lanesUp carcEngine else []

/-- The fields an engine's register shows of its lanes: LANE_EN with gated lanes out, LANE_BUSY; and BLD_CTL.PORT_EN, with the
ports of gated domains out. -/
def State.laneField (s : State) (f : Fld) : Option Nat :=
  if f.key == CHURN_CTL.LANE_EN.key then some (s.laneEn churnEngine)
  else if f.key == PRESS_CTL.LANE_EN.key then some (s.laneEn pressEngine)
  else if f.key == VEN_CTL.LANE_EN.key then some (s.laneEn venEngine)
  else if f.key == CARC_CTL.LANE_EN.key then some (s.laneEn carcEngine)
  else if f.key == CHURN_STATUS.LANE_BUSY.key then some (laneMask ((s.churnTurn.filter fun x => x.2.isDesc).map (·.1)))
  else if f.key == PRESS_STATUS.LANE_BUSY.key then some (laneMask (s.pressTurn.map (·.1)))
  else if f.key == VEN_STATUS.LANE_BUSY.key then some (laneMask (s.venTurn.map (·.1)))
  else if f.key == CARC_STATUS.LANE_BUSY.key then some (laneMask s.carcTurn)
  else if f.key == BLD_CTL.PORT_EN.key then
    some (laneMask ((List.range 16).filter fun b => s.bit BLD_CTL.PORT_EN b && s.rd (PWR_DOM.STATE (83 + b / 4)) != 0))
  else none

end Sys2Proof.Machine
end

