-- ==== Sys2Proof/Machine/Ops.lean ====
section
/-! DEFINITION. The operations every unit shares: register words, the Tally's recording of an event, UNIT_ERR, access
faults, DMA through the IOMMU, completions and MSIs, ring errors, the audit FIFO. -/
namespace Sys2Proof.Machine
open Sys2Proof

/-! ## Register words as the bus reads them -/

/-- Whether an origin is a core, so that it takes access faults (R42). -/
def isCore (o : Nat) : Bool := o < 48 || o == 0x100

/-- mhartid of an application core (R28). -/
def mhartid (core : Nat) : Nat := core

/-- Bytes of a core's instruction L1, data L1 and L2 (R28). -/
def coreCaches : Nat × Nat × Nat := (64 * 1024, 64 * 1024, 1024 * 1024)

/-- The count the machine-level timers of the cores read: CHIP_TIME divided by 16 (R31). -/
def State.mtime (s : State) : Nat := s.now / 16

/-- Whether the initiator of an access is there: a retired core reads as absent and makes none (R28, R458), and while debug is
closed the origin of JTAG is never generated (R386). -/
def State.originThere (s : State) (o : Nat) : Bool :=
  !(decide (o < 48) && s.on (CLK_CORE.RETIRED o)) && (o != 0x300 || s.on SEC_STATUS.DEBUG_OPEN)

/-- The byte offset of a row's first register in the CSR space. -/
def RegRow.addr (r : RegRow) : Nat := r.unit / 4 * 0x1000000 + r.unit % 4 * 0x400000 + r.off

/-- Whether CSR offset `a` is one of the row's registers. -/
def RegRow.hits (r : RegRow) (a : Nat) : Bool :=
  if a < r.addr then false
  else
    let d := a - r.addr
    let i := if r.stride = 0 then 0 else d / r.stride
    let rem := if r.stride = 0 then d else d % r.stride
    let j := if r.stride2 = 0 then 0 else rem / r.stride2
    let rem2 := if r.stride2 = 0 then rem else rem % r.stride2
    decide (i < r.count) && decide (j < r.count2) && rem2 == 0

/-- The row of a register, if one is there. -/
def findReg (a : Nat) : Option RegRow := regRows.find? (·.hits a)

/-- Reset value of the field at bit `lo` of the register at CSR offset `a`; `d` where it is the same for every instance. -/
def resetAt (a lo d : Nat) : Nat :=
  if 0xB600100 ≤ a ∧ a < 0xB600128 then
    if lo = 0 then vatFloorReset ((a - 0xB600100) / 8) else if lo = 16 then vatCeilReset ((a - 0xB600100) / 8) else d
  else if 0xB200010 ≤ a ∧ a < 0xB200040 then (a - 0xB200010) + lo / 8
  else if 0xA01000 ≤ a ∧ a < 0xA01300 then (if lo = 4 then pwrPhases ((a - 0xA01000) / 8) else d)
  else if 0xE201000 ≤ a ∧ a < 0xE204000 then (if (a - 0xE201000) % 0x80 = 0x20 then pwrPhases ((a - 0xE201000) / 0x80) else d)
  else if 0xE602000 ≤ a ∧ a < 0xE602C00 then
    if lo = 36 then markDomain ((a - 0xE602000) / 8) else if lo = 43 then markKind ((a - 0xE602000) / 8) else d
  else if 0xF604000 ≤ a ∧ a < 0xF60C000 then (if lo = 8 then talCodeSet ((a - 0xF604000) / 8) else d)
  else if 0xF60C000 ≤ a ∧ a < 0xF614000 then
    let s := (a - 0xF60C000) / 0x80
    let j := (a - 0xF60C000) % 0x80 / 8
    if lo = 0 then talSetOffset s j else if lo = 24 then talSetWindow s j else if lo = 28 then talSetValid s j
    else if lo = 29 then talSetInst s j else if lo = 30 then talSetUnitRel s j else talSetStride s j
  else d

/-- One field of a row in the register at CSR offset `a`. -/
def FieldRow.fld (f : FieldRow) (a : Nat) : Fld := ⟨a, f.lo, f.w, resetAt a f.lo f.reset⟩

/-- A field as a read finds it. Some are computed from other state: the lease left of LEASE_SHARD_s, the ticks left of
LEASE_WDOG, the epoch PAR_SHARD_s copies (R337, R340), LANE_EN and LANE_BUSY of the engines (R170, R178). -/
def State.rdNow (s : State) (f : Fld) : Nat :=
  match s.laneField f with
  | some v => v
  | none =>
  if 0xA601000 ≤ f.reg ∧ f.reg < 0xA601800 ∧ f.lo = 16 then
    match Tab.get? s.leaseU.shards ((f.reg - 0xA601000) / 8) with
    | some x => if x.committed then 0 else min ((x.ends - s.now) / mgmtTick) 400
    | none => 0
  else if f.reg = 0xA600018 ∧ f.lo = 16 then
    match s.leaseU.wdogBy with
    | some t => (t - s.now) / mgmtTick
    | none => s.rd f
  else if 0x1201000 ≤ f.reg ∧ f.reg < 0x1201800 ∧ f.lo = 32 then
    s.rd (LEASE_EPOCH.EPOCH ((f.reg - 0x1201000) / 8)) % 2 ^ 32
  else s.rd f

/-- The word a row's register at CSR offset `a` holds; write-only fields read 0 (R11). -/
def State.readRow (s : State) (r : RegRow) (a : Nat) : Nat :=
  r.fields.foldl (fun acc f => acc + (if f.acc = .wo then 0 else s.rdNow (f.fld a)) * 2 ^ f.lo) 0

/-- The common header of a unit (R40). UNIT_ID.REV reads 0 (log entry 7). -/
def State.readHeader (s : State) (u : UnitId) (off : Nat) : Nat :=
  let b := unitBase u
  if off = 0 then unitN u + unitK u * 2 ^ 8
  else if off = 8 then
    unitRings u + (if u = .carc then 2 ^ 13 else 0)
      + (if u = .churn ∨ u = .railA ∨ u = .railB then 2 ^ 14 else 0)
  else if off = 0x10 then s.rd (UNIT_LOCK.LOCKED b) + s.rd (UNIT_LOCK.REFUSED b) * 2 ^ 16
  else if off = 0x18 then
    s.rd (UNIT_ERR.ORIGIN b) + s.rd (UNIT_ERR.OFFSET b) * 2 ^ 16 + s.rd (UNIT_ERR.KIND b) * 2 ^ 40
      + s.rd (UNIT_ERR.VALID b) * 2 ^ 63
  else 0

/-- Register `off` of the block of ring `r` (R53). -/
def State.readRingReg (s : State) (u : UnitId) (r off : Nat) : Nat :=
  let b := unitBase u
  if off = 0 then s.rd (RING_DBASE.BASE b r) * 2 ^ 12
  else if off = 8 then s.rd (RING_CBASE.BASE b r) * 2 ^ 12
  else if off = 0x10 then
    s.rd (RING_CFG.LOG2_SIZE b r) + s.rd (RING_CFG.PROCESS_ID b r) * 2 ^ 24 + s.rd (RING_CFG.PID_VALID b r) * 2 ^ 44
  else if off = 0x18 then
    s.rd (RING_CTL.EN b r) + s.rd (RING_CTL.STOP b r) * 2 + s.rd (RING_CTL.FLUSH b r) * 4
  else if off = 0x20 then
    s.rd (RING_STATUS.STATE b r) + s.rd (RING_STATUS.ERR_CAUSE b r) * 2 ^ 8 + s.rd (RING_STATUS.CONS_IDX b r) * 2 ^ 16
      + s.rd (RING_STATUS.CPL_IDX b r) * 2 ^ 32 + s.rd (RING_STATUS.CPL_PHASE b r) * 2 ^ 48
  else if off = 0x28 then s.rd (RING_OWNER.ORIGIN b r) + s.rd (RING_OWNER.ANY b r) * 2 ^ 16
  else if off = 0x30 then s.rd (RING_MSI_ADDR.ADDR b r) * 4
  else if off = 0x38 then
    s.rd (RING_MSI.IDENTITY b r) + s.rd (RING_MSI.EN b r) * 2 ^ 11 + s.rd (RING_MSI.ERR_EN b r) * 2 ^ 12
      + s.rd (RING_MSI.HOLDOFF b r) * 2 ^ 16
  else 0

/-- The register word at CSR offset `a`: 0 where the unit implements nothing (R40). TAL_ENTRY_w is read in
Machine/CsrAccess.lean. -/
def State.readCsr (s : State) (a : Nat) : Nat :=
  match unitAt (a / 0x1000000) (a / 0x400000 % 4) with
  | none => 0
  | some u =>
    let off := a - unitBase u
    if off < 0x100 then s.readHeader u off
    else if 0x100000 ≤ off ∧ off < 0x140000 then
      let r := (off - 0x100000) / 0x40
      if r < unitRings u then s.readRingReg u r ((off - 0x100000) % 0x40) else 0
    else match findReg a with
      | some row => s.readRow row a
      | none => 0

/-! ## Interrupt files (R31) -/

/-- An MSI write reaches an address: it is pending in the interrupt file that stands there (R31). -/
def State.msiWrite (s : State) (a identity : Nat) : State :=
  let bus := { s.bus with msis := (a, identity) :: s.bus.msis }
  match Config.imsicFile a with
  | some f => if 1 ≤ identity ∧ identity ≤ 2047 ∧ f < 288 then
      { s with bus := { bus with imsic := Tab.set bus.imsic (f * 2048 + identity) 1 } } else { s with bus := bus }
  | none => { s with bus := bus }

/-- A wired source of the APLIC (0 UART, 1 GPIO, 2 thermal trip, 3 Tally trigger) becomes active: an MSI to its target where
one is set (R31). -/
def State.wired (s : State) (source : Nat) : State :=
  match Tab.get? s.bus.aplic source with
  | some (a, identity) => s.msiWrite a identity
  | none => s

/-! ## Recording an event in the Tally (R474 to R479) -/

/-- Index of a code's configuration entry (R475). -/
def evIndex (code : Nat) : Nat := code / 256 % 16 * 256 + code % 256

/-- An event counted as suppressed (R476). -/
def State.suppress (s : State) (x : Nat) : State :=
  let s := s.bump (TAL_COUNT.SUPPRESSED x) 1
  { s with tally := { s.tally with supp := Tab.set s.tally.supp x (satAdd (Tab.getD s.tally.supp x 0) 1 16) } }

/-- The CSR offset of entry `j` of a snapshot set for an event of unit `u` and instance `inst` (R475). -/
def State.snapAddr (s : State) (set j : Nat) (u : Option UnitId) (inst : Option Nat) : Nat :=
  let base := if s.on (TAL_SET.UNIT_REL set j) then (match u with | some u => unitBase u | none => 0)
    else s.rd (TAL_SET.WINDOW set j) * 0x1000000
  let i := if s.on (TAL_SET.INST set j) then inst.getD 0 else 0
  base + s.rd (TAL_SET.OFFSET set j) + i * s.rd (TAL_SET.STRIDE set j) * 8

/-- The CSR offsets a set names for this event: its entries up to the first invalid one, 16 at most. -/
def State.snapAddrs (s : State) (set : Nat) (u : Option UnitId) (inst : Option Nat) : List Nat :=
  ((List.range 16).takeWhile fun j => s.on (TAL_SET.VALID set j)).map fun j => s.snapAddr set j u inst

/-- ID word of a register in a Tally entry (R474). -/
def snapId (a : Nat) : Nat := a % 0x1000000 + a / 0x1000000 * 2 ^ 24 + a / 0x400000 % 4 * 2 ^ 28

/-- The first switched domain of the window a CSR offset lies in, for the GATED flag (R24, R474). -/
def windowDomain (a : Nat) : Option Nat :=
  match unitAt (a / 0x1000000) (a / 0x400000 % 4) with
  | some .par => some 68 | some .railA => some 66 | some .railB => some 67 | some .churn => some 70
  | some .sep => some 76 | some .press => some 74 | some .ven => some 77 | some .carc => some 79
  | some .cell => some 81 | some .bld => some 83 | some .ten => some 87 | some .lease => some 87
  | some .cool => some 54 | some .vat => some 62 | some .ddr => some 88 | some .mtr => some 94
  | some .mgt => some 95
  | _ => none

/-- Whether the register at a CSR offset lies in a domain whose regulator is stopped: OFF or TRIPPED. -/
def State.gated (s : State) (a : Nat) : Bool :=
  match windowDomain a with
  | some d => s.rd (PWR_DOM.STATE d) == 0 || s.rd (PWR_DOM.STATE d) == 4
  | none => false

/-- A recorded entry of a code with OUT_EN drives a trigger pulse and the trigger's wired interrupt, merges into the one owed, or is suppressed by the
lease-loss indication (R479). Answers whether TRIG_SUPPRESSED is set. -/
def State.trigger (s : State) (x : Nat) : Bool × State :=
  if !s.on (TAL_CODE.OUT_EN x) || !s.on TAL_OUT_CFG.TRIG_EN then (false, s)
  else if s.tally.lossUntil.isSome then (true, s.bump TAL_STATUS.TRIG_SUPP 1)
  else if s.tally.pulseEnd.isSome || s.tally.lowEnd.isSome then
    (false, { s with tally := { s.tally with merged := s.tally.merged + 1 } })
  else (false, ({ s with
    tally := { s.tally with pulseEnd := some (s.now + 1600) }, pins := { s.pins with eventOut := true } } : State).wired 3)

/-- The event put into the on-chip buffer: one token taken, SUPP and SEQ given, the oldest entry overwritten, the entry
due for spilling while SPILL_EN is 1 (R474, R476, R478). -/
def State.record (s : State) (code : Nat) (u : Option UnitId) (inst : Option Nat) (args : List Nat) (origin : Nat) : State :=
  let x := evIndex code
  let addrs := s.snapAddrs (s.rd (TAL_CODE.SET x)) u inst
  let gated := addrs.any s.gated
  let (ts, s1) := s.trigger x
  let slot := s1.rd TAL_IDX.WR
  let e : TallyEntry := {
    code := code, flags := (if ts then 1 else 0) + (if gated then 2 else 0), origin := origin,
    supp := Tab.getD s1.tally.supp x 0, seq := s1.tally.seq, time := s1.now, args := args,
    values := addrs.map (fun a => if s.gated a then 0 else s.readCsr a), ids := addrs.map snapId }
  let lost := s1.tally.due.contains slot
  let s2 := if lost then s1.bump TAL_STATUS.LOST 1 else s1
  let due := s2.tally.due.filter (· != slot)
  let t := s2.tally
  { s2.wr TAL_IDX.WR ((slot + 1) % 16384) with
    tally := { t with
      buf := Tab.set t.buf slot e
      due := if s2.on TAL_RING.SPILL_EN then due ++ [slot] else due
      bucket := Tab.set t.bucket x (Tab.getD t.bucket x (64 * 256) - 256)
      supp := Tab.del t.supp x
      seq := t.seq + 1 } }

/-- An event is raised: recorded if the Tally is enabled, not frozen, the code enabled and its bucket holds a token;
otherwise counted (R476, R477). `origin` is the origin of the access that raised it, if one did. -/
def State.raise (s : State) (code : Nat) (u : Option UnitId := none) (inst : Option Nat := none)
    (args : List Nat := []) (origin : Option Nat := none) : State :=
  let x := evIndex code
  if !s.on TAL_CTL.EN then s.suppress x
  else if s.on TAL_CTL.FREEZE then s.bump (TAL_COUNT.FROZEN x) 1
  else if !s.on (TAL_CODE.EN x) then s.suppress x
  else if Tab.getD s.tally.bucket x (64 * 256) < 256 then s.suppress x
  else s.record code u inst args (origin.getD (0xFF00 + (match u with | some u => unitN u | none => code / 256)))

/-! ## Access errors and faults -/

/-- An access error of a unit: kept in UNIT_ERR while it holds none, counted as EV_CSR_ACCESS otherwise (R40). -/
def State.unitErr (s : State) (u : UnitId) (origin off kind : Nat) : State :=
  let b := unitBase u
  if s.rd (UNIT_ERR.VALID b) = 0 then
    (((s.wr (UNIT_ERR.ORIGIN b) origin).wr (UNIT_ERR.OFFSET b) off).wr (UNIT_ERR.KIND b) kind).wr (UNIT_ERR.VALID b) 1
  else s.raise Ev.csrAccess (some u) none [off, kind] (some origin)

/-- The offset UNIT_ERR records for a CSR access: from the window base. -/
def errOffset (a : Nat) : Nat := a % 0x1000000

/-- A core takes a load or store access fault; no other initiator does. -/
def State.coreFault (s : State) (origin addr : Nat) (store : Bool) : State :=
  if isCore origin then { s with bus := { s.bus with faults := ⟨origin, addr, store⟩ :: s.bus.faults } } else s

/-- An access to a hole: a core faults, and EV_BUS_HOLE holds the origin and the address (R38). -/
def State.hole (s : State) (origin addr : Nat) (store : Bool) : State :=
  (s.coreFault origin addr store).raise Ev.busHole none none [addr] (some origin)

/-! ## The address map and DMA -/

/-- Populated DRAM in bytes (R372). -/
def State.populated (s : State) : Nat :=
  (if s.on DDR_CFG.CH_MODE then 6 else 12) * (if s.on DDR_CFG.DPC2 then 2 else 1) * s.rd DDR_CFG.CAP_GIB * 2 ^ 30

/-- DDR channels in use. -/
def State.channels (s : State) : Nat := if s.on DDR_CFG.CH_MODE then 6 else 12

/-- Channel of a line (R372). -/
def State.lineChannel (s : State) (line : Nat) : Nat := line / 4 % s.channels

/-- Base of the Vat window (R37). -/
def vatBase : Nat := 0xD00000000000

/-- Whether an address lies in the Vat window. -/
def inVat (a : Nat) : Bool := vatBase ≤ a && a < vatBase + 2 ^ 27

/-- Whether an address answers a DMA: populated DRAM or the Vat window. -/
def State.answers (s : State) (a : Nat) : Bool := a < s.populated || inVat a

/-- How a DMA of a unit fails. -/
inductive DmaErr
  | fault (f : IommuFault)   -- the IOMMU faulted it (R32)
  | hole (addr : Nat)    -- it reached a hole (R38)
  | poison               -- it read a poisoned line (R359)
  | dram (addr : Nat)    -- it stores to a line of a channel that is FAILED (R373; log entry 9)
deriving DecidableEq, Repr

/-- The device ID of a unit: (n << 8) | block. R32 takes the block number inside the unit; the model's block number is the
sub-window number k of R39, and the port number for a blade port (DESIGN CHOICE, log entry 6). -/
def deviceId (u : UnitId) : Nat := unitN u * 256 + unitK u

/-- The process ID a ring's DMA carries: RING_CFG.PROCESS_ID while PID_VALID is 1; none for a unit's own DMA (R46). -/
def State.ringPid (s : State) (u : UnitId) (ring : Option Nat) : Option Nat :=
  ring.bind fun r =>
    if s.on (RING_CFG.PID_VALID (unitBase u) r) then some (s.rd (RING_CFG.PROCESS_ID (unitBase u) r)) else none

/-- Translation of one address for a unit, in the process context of a ring where one asks: the Vat window is not translated
(R32, R46). -/
def State.translate (s : State) (u : UnitId) (a : Nat) (ring : Option Nat := none) (write : Bool := false) :
    Except DmaErr Nat :=
  if inVat a then .ok a
  else match s.iommu (deviceId u) (s.ringPid u ring) a write with
    | .error c => .error (.fault ⟨c, deviceId u, s.ringPid u ring, a, write⟩)
    | .ok p => if s.answers p then .ok p else .error (.hole p)

/-- The `n` bytes a unit reads by DMA from address `a` on. -/
def State.dmaRead (s : State) (u : UnitId) (a n : Nat) (ring : Option Nat := none) : Except DmaErr (List Byte) :=
  match n with
  | 0 => .ok []
  | n + 1 =>
    match s.translate u a ring with
    | .error e => .error e
    | .ok p =>
      if s.cool.poison.contains (p / 64) then .error .poison
      else
        match s.dmaRead u (a + 1) n ring with
        | .error e => .error e
        | .ok bs => .ok (Memory.read s.mem p :: bs)

/-- The physical addresses of the `n` bytes from address `a` on, as a unit's DMA that stores translates them. -/
def State.dmaAddrs (s : State) (u : UnitId) (a n : Nat) (ring : Option Nat := none) : Except DmaErr (List Nat) :=
  match n with
  | 0 => .ok []
  | n + 1 =>
    match s.translate u a ring true with
    | .error e => .error e
    | .ok p =>
      match s.dmaAddrs u (a + 1) n ring with
      | .error e => .error e
      | .ok ps => .ok (p :: ps)

/-- The Cooler after a store of a unit's DMA to the bytes at `ps`: no core keeps a copy of a line stored to, a cached line is
dirty, and a line stored whole is poisoned no more (R29, R359). -/
def Cool.stored (c : Cool) (ps : List Nat) : Cool := { c with
  l2 := Tab.keep c.l2 fun k _ => !ps.any (· / 64 == k / 64)
  lines := Tab.mapV c.lines fun _ l => if ps.any (· / 64 == l.line) then { l with dirty := true } else l
  poison := c.poison.filter fun l => !((List.range 64).all fun i => ps.contains (l * 64 + i)) }

/-- A unit's DMA write of `bs` at address `a`. A write that fails anywhere writes nothing (log entry 9). -/
def State.dmaWrite (s : State) (u : UnitId) (a : Nat) (bs : List Byte) (ring : Option Nat := none) : Except DmaErr State :=
  match s.dmaAddrs u a bs.length ring with
  | .error e => .error e
  | .ok ps =>
    match ps.find? fun p => !inVat p && s.rd (DDR_STATUS.STATE (s.lineChannel (p / 64))) == 3 with
    | some p => .error (.dram p)
    | none => .ok { s with
      mem := (ps.zip bs).foldl (fun m pb => Memory.write m pb.1 pb.2) s.mem
      cool := s.cool.stored ps }

/-- What a failed DMA leaves: an entry of the IOMMU fault queue, or EV_BUS_HOLE with the unit as origin (R32, R38). -/
def State.dmaFailed (s : State) (u : UnitId) : DmaErr → State
  | .fault f => { s with bus := { s.bus with iommuFaults := f :: s.bus.iommuFaults } }
  | .hole a => s.raise Ev.busHole (some u) none [a]
  | .poison | .dram _ => s

/-- The status of a descriptor whose DMA failed (R38, R60). -/
def DmaErr.status : DmaErr → Nat
  | .fault _ => St.dmaFault
  | .hole _ => St.addrInvalid
  | .poison | .dram _ => St.unitFault

/-! ## Rings and completions -/

/-- The ring's state beside its registers. -/
def State.ring (s : State) (u : UnitId) (r : Nat) : Ring := Tab.getD s.rings (ringKey u r) {}

/-- The state with the ring's state replaced. -/
def State.setRing (s : State) (u : UnitId) (r : Nat) (x : Ring) : State :=
  { s with rings := Tab.set s.rings (ringKey u r) x }

/-- Ring states of RING_STATUS.STATE. -/
def Rst.disabled : Nat := 0
def Rst.active : Nat := 1
def Rst.stopping : Nat := 2
def Rst.stopped : Nat := 3
def Rst.error : Nat := 4

def State.ringSt (s : State) (u : UnitId) (r : Nat) : Nat := s.rd (RING_STATUS.STATE (unitBase u) r)

/-- Entries of a ring (RING_CFG). -/
def State.ringSize (s : State) (u : UnitId) (r : Nat) : Nat := 2 ^ s.rd (RING_CFG.LOG2_SIZE (unitBase u) r)

/-- Whether RING_OWNER of a ring accepts an origin (R53, R56). -/
def State.ringAccepts (s : State) (u : UnitId) (r origin : Nat) : Bool :=
  s.on (RING_OWNER.ANY (unitBase u) r) || s.rd (RING_OWNER.ORIGIN (unitBase u) r) == origin

/-- Data returned to the initiator of a read. -/
def State.readReturn (s : State) (v : Option Nat) : State := { s with bus := { s.bus with readData := v } }

/-- The ring's MSI: one write of IDENTITY to RING_MSI_ADDR, translated where the device context enables it (R53). -/
def State.msi (s : State) (u : UnitId) (r : Nat) : State :=
  let b := unitBase u
  let a := s.rd (RING_MSI_ADDR.ADDR b r) * 4
  match s.msiAddr (deviceId u) (s.ringPid u (some r)) a with
  | .ok p => s.msiWrite p (s.rd (RING_MSI.IDENTITY b r))
  | .error c => s.dmaFailed u (.fault ⟨c, deviceId u, s.ringPid u (some r), a, true⟩)

/-- A ring fault: a ring that is not DISABLED enters ERROR with its cause, also while it is STOPPING, whose STOP request is
dropped, or STOPPED (R56, R59, R527); EV_RING_ERROR and the error MSI are raised (R53, R57). -/
def State.ringError (s : State) (u : UnitId) (r cause : Nat) : State :=
  let b := unitBase u
  if s.ringSt u r = Rst.disabled ∨ s.ringSt u r = Rst.error then s
  else
    let s := ((s.wr (RING_STATUS.STATE b r) Rst.error).wr (RING_STATUS.ERR_CAUSE b r) cause).wr (RING_CTL.STOP b r) 0
    let s := s.raise Ev.ringError (some u) (some r)
    if s.on (RING_MSI.ERR_EN b r) then s.msi u r else s

/-- A NOTIFY completion was posted: its MSI is raised, or owed until the hold-off ends (R53). -/
def State.notify (s : State) (u : UnitId) (r : Nat) : State :=
  let b := unitBase u
  if !s.on (RING_MSI.EN b r) then s
  else
    let h := s.rd (RING_MSI.HOLDOFF b r)
    if h = 0 then s.msi u r
    else if (s.ring u r).holdUntil.isSome then s.setRing u r { s.ring u r with owed := true }
    else (s.msi u r).setRing u r { s.ring u r with holdUntil := some (s.now + h * 1024) }

/-- The 16 bytes of a completion entry (R50). -/
def cplBytes (tag status info phase result : Nat) : List Byte :=
  leBytes 2 tag ++ leBytes 2 status ++ leBytes 4 (info % 2 ^ 31 + phase * 2 ^ 31) ++ leBytes 8 result

/-- The cause a failed write of a completion entry puts into ERR_CAUSE. -/
def DmaErr.postCause : DmaErr → Nat
  | .fault _ | .hole _ => 3
  | _ => 5

/-- A completion entry is posted at CPL_IDX; the index advances and the phase turns over on a wrap (R50, R51). A ring
whose completion memory faults or is a hole enters ERROR with cause 3 (R527), one whose write fails otherwise with cause 5. -/
def State.post (s : State) (u : UnitId) (r : Nat) (tag status info result : Nat) (ntf : Bool) : State :=
  let b := unitBase u
  let i := s.rd (RING_STATUS.CPL_IDX b r)
  let ph := s.rd (RING_STATUS.CPL_PHASE b r)
  match s.dmaWrite u (s.rd (RING_CBASE.BASE b r) * 4096 + i * 16) (cplBytes tag status info ph result) (some r) with
  | .error e => (s.dmaFailed u e).ringError u r e.postCause
  | .ok s =>
    let wrap := i + 1 = s.ringSize u r
    let s := s.wr (RING_STATUS.CPL_IDX b r) (if wrap then 0 else i + 1)
    let s := if wrap then s.wr (RING_STATUS.CPL_PHASE b r) (1 - ph) else s
    let s := s.setRing u r { s.ring u r with posted := (s.ring u r).posted + 1 }
    if ntf then s.notify u r else s

/-! ## The audit FIFO (R408 to R410) -/

/-- Whether the FIFO has room; while it has none, audited writes and descriptors wait (R410). -/
def State.auditRoom (s : State) : Bool := s.aud.staged.length < 512

/-- An audit entry is staged in acceptance order. -/
def State.stage (s : State) (kind : Nat) (origin via : Nat) (unit sub opcode offset : Nat) (payload : List Byte) : State :=
  let e : AudEntry := {
    seq := s.aud.nextSeq, time := s.now, origin := origin, via := via, kind := kind, unit := unit, sub := sub,
    opcode := opcode, offset := offset, payload := payload ++ zeros (160 - payload.length) }
  let s := { s with aud := { s.aud with
    staged := s.aud.staged ++ [e], nextSeq := s.aud.nextSeq + 1, sinceSeal := s.aud.sinceSeal + 1 } }
  s.wr AUD_STATUS.STAGED s.aud.staged.length

/-- An accepted configuration-class write (KIND 1). -/
def State.auditWrite (s : State) (origin via a old new : Nat) : State :=
  s.stage 1 origin via (a / 0x1000000) (a / 0x400000 % 4) 0 (errOffset a) (leBytes 8 old ++ leBytes 8 new)

/-- A refused configuration-class write (KIND 2) with its cause: 1 lock, 2 Island policy, 3 value. -/
def State.auditRefused (s : State) (origin via a value cause : Nat) : State :=
  s.stage 2 origin via (a / 0x1000000) (a / 0x400000 % 4) 0 (errOffset a)
    (zeros 8 ++ leBytes 8 value ++ leBytes 1 cause)

/-! ## Descriptors -/

/-- The fetched descriptor a reference names. -/
def State.fetchedAt (s : State) (u : UnitId) (d : DescRef) : Option Fetched :=
  (s.ring u d.ring).fetched.find? (·.slot = d.slot)

/-- Opcodes whose descriptors are journaled when they complete (R410). -/
def auditedOp (u : UnitId) (op : Nat) : Bool :=
  match u with
  | .par => op == Op.volSet || op == Op.tenantSet
  | .sep => op == Op.domainSet || op == Op.shardState
  | .churn => op == Op.dictLoad || op == Op.dictDrop
  | .carc => op == Op.genSet || op == Op.rebuildCtl
  | .cell => op == Op.bladeAttach || op == Op.bladeDetach || op == Op.laneSet
  | .lease => op == Op.handoffCommit || op == Op.take || op == Op.drain || op == Op.undrain
  | .sec => op != Op.random && op != Op.attest && op != Op.certRead
  | _ => false

/-- The entry of an audited descriptor (KIND 3): its 64 bytes and its status. -/
def State.auditDesc (s : State) (u : UnitId) (f : Fetched) (status : Nat) : State :=
  s.stage 3 f.origin 0xFFFF (unitN u) (unitK u) f.opcode 0 (f.img.take 64 ++ zeros (64 - f.img.length) ++ leBytes 2 status)

/-- The started descriptor of opcode `op` a reference names. An audited one waits in its unit while the audit FIFO has no
room (R410). -/
def State.startedAt (s : State) (u : UnitId) (d : DescRef) (op : Nat) : Option Fetched :=
  match s.fetchedAt u d with
  | some f => if f.phase ≠ .fetched ∧ f.opcode = op ∧ (auditedOp u op = false ∨ s.auditRoom = true) then some f else none
  | none => none

/-- Whether a descriptor may complete: those of one Island ring complete in ring order, the oldest fetched first (R395, R426). -/
def State.inOrder (s : State) (u : UnitId) (d : DescRef) : Bool :=
  u != .sec || (s.ring u d.ring).fetched.head?.any (·.slot == d.slot)

/-- The phase of a fetched descriptor changed. -/
def State.setPhase (s : State) (u : UnitId) (d : DescRef) (p : Phase) : State :=
  s.setRing u d.ring { s.ring u d.ring with
    fetched := (s.ring u d.ring).fetched.map fun f => if f.slot = d.slot then { f with phase := p } else f }

/-- A descriptor completes: an audited one is journaled, it leaves the ring's list, and its completion is posted. -/
def State.finish (s : State) (u : UnitId) (d : DescRef) (status : Nat) (info : Nat := 0) (result : Nat := 0) : State :=
  match s.fetchedAt u d with
  | none => s
  | some f =>
    let s := if auditedOp u f.opcode then s.auditDesc u f status else s
    (s.setRing u d.ring { s.ring u d.ring with
      fetched := (s.ring u d.ring).fetched.filter fun g => g.slot ≠ d.slot }).post u d.ring f.tag status info result f.ntf

/-- A descriptor whose DMA failed completes with the status of the failure. -/
def State.finishDma (s : State) (u : UnitId) (d : DescRef) (e : DmaErr) : State :=
  (s.dmaFailed u e).finish u d e.status

/-- The oldest waiting descriptor of an opcode in the lowest ring that holds one (log entry 14). -/
def State.firstWaiting (s : State) (u : UnitId) (op : Nat) : Option (DescRef × Fetched) :=
  (List.range (unitRings u)).findSome? fun r =>
    ((s.ring u r).fetched.find? fun f => f.phase == .waiting && f.opcode == op).map fun f => (⟨r, f.slot⟩, f)

/-! ## Free values (log entry 8) -/

/-- The next free value is drawn: the draw count advances. -/
def State.draw (s : State) : State := { s with draws := s.draws + 1 }

/-- The free word of the draw that comes next. -/
def State.freeWord (s : State) : Nat := (Config.freeWord s.draws).toNat

/-- `n` free bytes of the draw that comes next. -/
def State.freeBytes (s : State) (n : Nat) : List Byte := (List.range n).map (Config.freeByte s.draws)

end Sys2Proof.Machine
end

