-- ==== Sys2Proof/Machine/Access.lean ====
section
/-! DEFINITION. The common path of a register write: lock, audit room, audit entry (R43, R44, R387, R410). The commands
that stand for a write of one field, and the generic CSR_WRITE, go through it. -/
namespace Sys2Proof.Machine
open Sys2Proof

/-- Lifecycle states of SEC_STATUS.LIFECYCLE (R386). -/
def Life.manufacture : Nat := 0
def Life.provisioned : Nat := 1
def Life.deployed : Nat := 2
def Life.rma : Nat := 3

/-- Whether a write to a unit's configuration-class registers is refused: LOCKED and not the Island (R43). -/
def State.locked (s : State) (u : UnitId) (o : Nat) : Bool := s.on (UNIT_LOCK.LOCKED (unitBase u)) && o != 0x200

/-- Whether a write is journaled: a configuration-class register, or any write from JTAG in PROVISIONED (R387). -/
def State.audited (s : State) (cfg : Bool) (o : Nat) : Bool :=
  cfg || (o == 0x300 && s.rd SEC_STATUS.LIFECYCLE == Life.provisioned)

/-- The effects of a refusal by lock: REFUSED counts, KIND 3, a core faults, the journal holds the attempt (R43). -/
def State.lockRefusal (s : State) (u : UnitId) (o via a value : Nat) : State :=
  let s := (s.bump (UNIT_LOCK.REFUSED (unitBase u)) 1).unitErr u o (errOffset a) 3
  (s.coreFault o (0xF00000000000 + a) true).auditRefused o via a value 1

/-- A write to the register at CSR offset `a` of unit `u` by an initiator that is there: it waits for audit room, is refused by
lock, or takes the effect `eff` and is journaled with the old and the new word. The new word is the word as written, its reserved and read-only
bits included: R16 and R409 say "new value" only (DESIGN CHOICE, log entry 121). -/
def State.regWrite (s : State) (u : UnitId) (cfg : Bool) (o via a value : Nat) (eff : State → State) : State :=
  if !s.originThere o then s
  else if !s.audited cfg o then eff s
  else if !s.auditRoom then s
  else if cfg && s.locked u o then s.lockRefusal u o via a value
  else (eff s).auditWrite o via a (s.readCsr a) value

/-- A register word with one field replaced. -/
def Fld.put (f : Fld) (word v : Nat) : Nat := word - word / 2 ^ f.lo % 2 ^ f.w * 2 ^ f.lo + v % 2 ^ f.w * 2 ^ f.lo

/-- A write that changes one field of a configuration-class register to `v`, with effect `eff`. -/
def State.cfgField (s : State) (u : UnitId) (o : Origin) (f : Fld) (v : Nat) (eff : State → State) : State :=
  s.regWrite u true o.toNat 0xFFFF f.reg (f.put (s.readCsr f.reg) v) eff

/-- A write that changes one field of any other register to `v`, with effect `eff`. -/
def State.plainField (s : State) (u : UnitId) (o : Origin) (f : Fld) (v : Nat) (eff : State → State) : State :=
  s.regWrite u false o.toNat 0xFFFF f.reg (f.put (s.readCsr f.reg) v) eff

/-- A write whose value the register refuses: KIND 7, and the journal holds the attempt where the register is
configuration class (R16, R365, R409). -/
def State.refuseValue (s : State) (u : UnitId) (cfg : Bool) (o via a value : Nat) : State :=
  let s' := s.unitErr u o (errOffset a) 7
  if s.audited cfg o then s'.auditRefused o via a value 3 else s'

end Sys2Proof.Machine
end

