-- ==== Sys2Proof/Machine/Ddr.lean ====
section
/-! DEFINITION. The DDR5 controllers (R371 to R375). -/
namespace Sys2Proof.Machine
open Sys2Proof

/-- An error found on a channel is logged while DDR_ERR_c holds none. -/
def State.logDdr (s : State) (c : Nat) (ue : Bool) (l : DramLoc) : State :=
  if s.on (DDR_ERR.VALID c) then s
  else
    let s := (((s.wr (DDR_ERR.UE c) (if ue then 1 else 0)).wr (DDR_ERR.SUBCH c) l.subch).wr (DDR_ERR.RANK c) l.rank).wr
      (DDR_ERR.BG c) l.bg
    let s := ((s.wr (DDR_ERR.BANK c) l.bank).wr (DDR_ERR.ROW c) l.row).wr (DDR_ERR.COL c) l.col
    (s.wr (DDR_ERR.DEVICE c) l.device).wr (DDR_ERR.VALID c) 1

/-- Corrected errors of a rank in this pass. -/
def State.rankErrors (s : State) (c rank : Nat) : Nat := Tab.getD s.ddr.rankCe (c * 4 + rank) 0

/-- A corrected error: counted, and recorded when the rank's count of this pass reaches CE_THRESH (R375). -/
def State.ddrCorrected (s : State) (c : Nat) (l : DramLoc) : State :=
  let s := (s.logDdr c false l).bump (DDR_ERR.CE_COUNT c) 1
  let n := s.rankErrors c l.rank + 1
  let s := { s with ddr := { s.ddr with rankCe := Tab.set s.ddr.rankCe (c * 4 + l.rank) n } }
  if n = s.rd DDR_SCRUB_CFG.CE_THRESH then s.raise Ev.ddrCeThresh (some .ddr) (some c) [l.rank] else s

/-- An uncorrectable error: the line is poisoned and EV_DDR_UE recorded (R374, R375). -/
def State.ddrUncorrectable (s : State) (c line : Nat) (l : DramLoc) : State :=
  let s := s.logDdr c true l
  { s with cool := { s.cool with poison := if s.cool.poison.contains line then s.cool.poison else line :: s.cool.poison } }.raise
    Ev.ddrUe (some .ddr) (some c)

/-- What a DRAM read of a line finds is handled. -/
def State.ddrFound (s : State) (line : Nat) : DramErr → State
  | .none => s
  | .corrected l => s.ddrCorrected (s.lineChannel line) l
  | .uncorrectable l => s.ddrUncorrectable (s.lineChannel line) line l

/-- Channel states of DDR_STATUS_c.STATE. -/
def Ddr.off : Nat := 0
def Ddr.training : Nat := 1
def Ddr.ready : Nat := 2
def Ddr.failed : Nat := 3

/-- Every channel in use trains, all in parallel (R373). -/
def State.ddrTrain (s : State) : State :=
  (List.range s.channels).foldl
    (fun s c => (s.wr (DDR_STATUS.STATE c) Ddr.training).wr (DDR_STATUS.FAIL_CAUSE c) 0) (s.wr DDR_CFG.EN 1)

/-- DDR_TRAINING_START: DDR_CFG.EN ← 1. -/
def execDdrTrainingStart (origin : Origin) (s : State) : Host.Outcome State Fault Refusal :=
  .next (s.cfgField .ddr origin DDR_CFG.EN 1 fun s => if s.on DDR_CFG.EN then s else s.ddrTrain)

/-- DDR_TRAINING_DONE: a training channel becomes READY (`cause` 0, `fast` where the kept record passed) or FAILED with its
cause (R373). -/
def execDdrTrainingDone (ch : Fin 12) (fast : Bool) (cause : Nat) (s : State) : Host.Outcome State Fault Refusal :=
  if s.rd (DDR_STATUS.STATE ch) ≠ Ddr.training then .next s
  else if cause = 0 then .next ((s.wr (DDR_STATUS.STATE ch) Ddr.ready).wr (DDR_STATUS.FAST ch) (if fast then 1 else 0))
  else .next (((s.wr (DDR_STATUS.STATE ch) Ddr.failed).wr (DDR_STATUS.FAIL_CAUSE ch) cause).raise Ev.ddrTrain (some .ddr)
    (some ch.val) [cause])

/-- ZQ_CALIBRATION: a rank of a READY channel is calibrated (R373). -/
def execZqCalibration (ch : Fin 12) (rank : Nat) (s : State) : Host.Outcome State Fault Refusal :=
  if s.rd (DDR_STATUS.STATE ch) ≠ Ddr.ready then .next s
  else .next { s with ddr := { s.ddr with zq := Tab.set s.ddr.zq (ch * 4 + rank) s.now } }

/-- DQS_OSC_READ: the oscillator of a rank of a READY channel is read and the write DQ delays adjusted (R373). -/
def execDqsOscRead (ch : Fin 12) (rank : Nat) (s : State) : Host.Outcome State Fault Refusal :=
  if s.rd (DDR_STATUS.STATE ch) ≠ Ddr.ready then .next s
  else .next { s with ddr := { s.ddr with dqs := Tab.set s.ddr.dqs (ch * 4 + rank) s.now } }

/-- Throttling starts or ends on every channel in use (R371; log entry 18). -/
def State.throttleDdr (s : State) (on : Bool) : State :=
  ((List.range s.channels).foldl (fun s c => s.wr (DDR_STATUS.THROTTLED c) (if on then 1 else 0)) s).raise Ev.ddrHot (some .ddr)

/-- Whether the controllers are throttled. -/
def State.ddrThrottled (s : State) : Bool := s.on (DDR_STATUS.THROTTLED 0)

/-- DIMM_THERMAL_READ: the hottest sensor of each channel; throttling above 95 °C until all are below 90 °C, refresh at
1.95 µs above 85 °C (R371). -/
def execDimmThermalRead (temps : List Int) (s : State) : Host.Outcome State Fault Refusal :=
  let s := (List.range s.channels).foldl (fun s c => s.wr (DDR_STATUS.TEMP c) (ofSigned (temps.getD c 0) 8)) s
  let s := { s with ddr := { s.ddr with fastRefresh := temps.any fun t => decide (85 < t) } }
  if !s.ddrThrottled && temps.any (fun t => decide (95 < t)) then .next (s.throttleDdr true)
  else if s.ddrThrottled && temps.all (fun t => decide (t < 90)) then .next (s.throttleDdr false)
  else .next s

/-- DDR_REFRESH: a same-bank refresh is issued on a READY channel (R371). -/
def execDdrRefresh (ch : Fin 12) (s : State) : Host.Outcome State Fault Refusal :=
  if s.rd (DDR_STATUS.STATE ch) ≠ Ddr.ready then .next s
  else .next { s with ddr := { s.ddr with refreshes := Tab.set s.ddr.refreshes ch (Tab.getD s.ddr.refreshes ch 0 + 1) } }

/-- The patrol moves to the next populated line; a new pass counts each rank's errors anew (R375). -/
def State.scrubNext (s : State) : State :=
  if s.ddr.scrubLine + 1 < s.populated / 64 then { s with ddr := { s.ddr with scrubLine := s.ddr.scrubLine + 1 } }
  else { s with ddr := { s.ddr with scrubLine := 0, rankCe := [] } }

/-- DDR_SCRUB: the patrol scrub reads the next line and handles what it finds. -/
def execDdrScrub (err : DramErr) (s : State) : Host.Outcome State Fault Refusal :=
  let line := s.ddr.scrubLine
  if !s.on DDR_SCRUB_CFG.EN || s.rd (DDR_STATUS.STATE (s.lineChannel line)) != Ddr.ready then .next s
  else .next (s.ddrFound line err).scrubNext

end Sys2Proof.Machine
end

