-- ==== Sys2Proof/Machine/Aes.lean ====
section
/-! DEFINITION. AES-256 (FIPS 197), AES key wrap (RFC 3394) and XTS-AES-256 (IEEE 1619), as R389, R392 and R400 name them. -/
namespace Sys2Proof.Machine
open Sys2Proof

/-! ## The field and the S-box -/

/-- Multiplication by x modulo x^8 + x^4 + x^3 + x + 1. -/
def xtime (a : Nat) : Nat := if a < 128 then 2 * a else (2 * a - 256) ^^^ 0x1B

/-- The product of two bytes, over the low `n` bits of the second. -/
def gf8mul : Nat → Nat → Nat → Nat
  | 0, _, _ => 0
  | n + 1, a, b => (if b % 2 = 1 then a else 0) ^^^ gf8mul n (xtime a) (b / 2)

/-- The inverse of a byte, 0 for 0: its 254th power. -/
def gf8inv (a : Nat) : Nat :=
  let sq := fun v => gf8mul 8 v v
  let p2 := sq a
  let p3 := gf8mul 8 p2 a
  let p12 := sq (sq p3)
  let p15 := gf8mul 8 p12 p3
  let p240 := sq (sq (sq (sq p15)))
  gf8mul 8 (gf8mul 8 p240 p12) p2

/-- A byte rotated left. -/
def rotl8 (a n : Nat) : Nat := (a * 2 ^ n) % 256 ||| a / 2 ^ (8 - n)

/-- The S-box. -/
def sbox (a : Nat) : Nat :=
  let b := gf8inv a
  b ^^^ rotl8 b 1 ^^^ rotl8 b 2 ^^^ rotl8 b 3 ^^^ rotl8 b 4 ^^^ 0x63

/-- The inverse S-box. -/
def sboxInv (a : Nat) : Nat := gf8inv (rotl8 a 1 ^^^ rotl8 a 3 ^^^ rotl8 a 6 ^^^ 0x05)

/-! ## AES-256 -/

/-- Two byte rows exclusive-ored. -/
def xorRow (a b : List Nat) : List Nat := (a.zip b).map fun p => p.1 ^^^ p.2

/-- The key schedule, the latest word first: word `i` is made from the previous word and the one eight before. -/
def aesSchedule : Nat → Nat → Nat → List (List Nat) → List (List Nat)
  | 0, _, _, ws => ws
  | n + 1, i, rcon, ws =>
    let prev := ws.getD 0 []
    let t := if i % 8 = 0 then xorRow ((prev.drop 1 ++ prev.take 1).map sbox) [rcon, 0, 0, 0]
      else if i % 8 = 4 then prev.map sbox else prev
    aesSchedule n (i + 1) (if i % 8 = 0 then xtime rcon else rcon) (xorRow (ws.getD 7 []) t :: ws)

/-- The 15 round keys of a 32-byte key, 16 bytes each. -/
def aesRoundKeys (key : List Byte) : List (List Nat) :=
  let k := key.map (·.toNat)
  let first := (List.range 8).map fun i => (k.drop (4 * i)).take 4
  let ws := (aesSchedule 52 8 1 first.reverse).reverse
  (List.range 15).map fun r => (List.range 4).flatMap fun c => ws.getD (4 * r + c) []

/-- ShiftRows on a state of four columns; `dir` 1 left, 3 right. -/
def shiftRows (dir : Nat) (st : List Nat) : List Nat :=
  (List.range 16).map fun i => st.getD ((i / 4 + dir * (i % 4)) % 4 * 4 + i % 4) 0

/-- MixColumns with a row of coefficients. -/
def mixColumns (m : List Nat) (st : List Nat) : List Nat :=
  (List.range 16).map fun i =>
    (List.range 4).foldl (fun a j => a ^^^ gf8mul 8 (st.getD (i / 4 * 4 + j) 0) (m.getD ((j + 4 - i % 4) % 4) 0)) 0

/-- One block encrypted. -/
def aesEnc (rk : List (List Nat)) (block : List Byte) : List Byte :=
  let st := xorRow (block.map (·.toNat)) (rk.getD 0 [])
  let st := ((rk.drop 1).take 13).foldl (fun st k => xorRow (mixColumns [2, 3, 1, 1] (shiftRows 1 (st.map sbox))) k) st
  (xorRow (shiftRows 1 (st.map sbox)) (rk.getD 14 [])).map (BitVec.ofNat 8)

/-- One block decrypted. -/
def aesDec (rk : List (List Nat)) (block : List Byte) : List Byte :=
  let st := (shiftRows 3 (xorRow (block.map (·.toNat)) (rk.getD 14 []))).map sboxInv
  let st := ((rk.drop 1).take 13).reverse.foldl
    (fun st k => (shiftRows 3 (mixColumns [14, 11, 13, 9] (xorRow st k))).map sboxInv) st
  (xorRow st (rk.getD 0 [])).map (BitVec.ofNat 8)

/-! ## Key wrap (RFC 3394) -/

/-- The integrity value. -/
def wrapIv : List Byte := List.replicate 8 0xA6#8

/-- One wrapping step `t` on register `i`. -/
def wrapStep (rk : List (List Nat)) (x : List Byte × List (List Byte)) (t n : Nat) : List Byte × List (List Byte) :=
  let i := (t - 1) % n
  let b := aesEnc rk (x.1 ++ x.2.getD i [])
  (xorBytes (b.take 8) (beBytes 8 t), x.2.set i (b.drop 8))

/-- Data of a multiple of 8 bytes wrapped under a 32-byte key. -/
def keyWrap (kek data : List Byte) : List Byte :=
  let rk := aesRoundKeys kek
  let n := data.length / 8
  let x := (List.range (6 * n)).foldl (fun x j => wrapStep rk x (j + 1) n) (wrapIv, blocksOf 8 n data)
  x.1 ++ x.2.flatten

/-- One unwrapping step. -/
def unwrapStep (rk : List (List Nat)) (x : List Byte × List (List Byte)) (t n : Nat) : List Byte × List (List Byte) :=
  let i := (t - 1) % n
  let b := aesDec rk (xorBytes x.1 (beBytes 8 t) ++ x.2.getD i [])
  (b.take 8, x.2.set i (b.drop 8))

/-- Wrapped data unwrapped, if the integrity value holds. -/
def keyUnwrap (kek data : List Byte) : Option (List Byte) :=
  let rk := aesRoundKeys kek
  let n := data.length / 8 - 1
  let x := ((List.range (6 * n)).map fun j => 6 * n - j).foldl (fun x t => unwrapStep rk x t n)
    (data.take 8, blocksOf 8 n (data.drop 8))
  if x.1 = wrapIv then some x.2.flatten else none

/-! ## XTS -/

/-- A tweak multiplied by α in GF(2^128), little-endian. -/
def xtsMul (t : List Byte) : List Byte :=
  let v := leNat t
  leBytes 16 ((2 * v) % 2 ^ 128 ^^^ (if v < 2 ^ 127 then 0 else 0x87))

/-- The blocks of a data unit through `f`, each under its power of α. -/
def xtsBlocks (f : List Byte → List Byte) : List (List Byte) → List Byte → List (List Byte)
  | [], _ => []
  | b :: bs, t => xorBytes (f (xorBytes b t)) t :: xtsBlocks f bs (xtsMul t)

/-- A data unit of a multiple of 16 bytes encrypted or decrypted under a 64-byte key and a 16-byte tweak. -/
def xts (encrypt : Bool) (key tweak data : List Byte) : List Byte :=
  let rk1 := aesRoundKeys (key.take 32)
  let t := aesEnc (aesRoundKeys (key.drop 32)) tweak
  (xtsBlocks (if encrypt then aesEnc rk1 else aesDec rk1) (blocksOf 16 (data.length / 16) data) t).flatten

end Sys2Proof.Machine
end

