-- ==== Sys2Proof/Machine/Curve448.lean ====
section
/-! DEFINITION. Ed448 (RFC 8032, pure, empty context) and X448 (RFC 7748), as R384, R393, R397, R399 and R411 name them. -/
namespace Sys2Proof.Machine
open Sys2Proof

/-- The field prime 2^448 − 2^224 − 1. -/
def p448 : Nat := 2 ^ 448 - 2 ^ 224 - 1

/-- The group order of Ed448. -/
def ed448L : Nat := 2 ^ 446 - 13818066809895115352007386748515426880336692474882178609894547503885

/-- The curve constant −39081. -/
def ed448d : Nat := p448 - 39081

/-- A power modulo `m`, over the low `n` bits of the exponent. -/
def powMod (m : Nat) : Nat → Nat → Nat → Nat
  | 0, _, _ => 1 % m
  | n + 1, b, e => (if e % 2 = 1 then b else 1) * powMod m n (b * b % m) (e / 2) % m

/-- The inverse in the field. -/
def inv448 (a : Nat) : Nat := powMod p448 448 a (p448 - 2)

/-- Subtraction in the field. -/
def sub448 (a b : Nat) : Nat := (a + p448 - b % p448) % p448

/-- A point in projective coordinates. -/
structure EdPoint where
  x : Nat
  y : Nat
  z : Nat
deriving DecidableEq, Repr

/-- The neutral point. -/
def edZero : EdPoint := ⟨0, 1, 1⟩

/-- The base point. -/
def edBase : EdPoint := {
  x := 224580040295924300187604334099896036246789641632564134246125461686950415467406032909029192869357953282578032075146446173674602635247710
  y := 298819210078481492676017930443930673437544040154080242095928241372331506189835876003536878655418784733982303233503462500531545062832660
  z := 1 }

/-- The sum of two points. -/
def edAdd (p q : EdPoint) : EdPoint :=
  let a := p.z * q.z % p448
  let b := a * a % p448
  let c := p.x * q.x % p448
  let d := p.y * q.y % p448
  let e := ed448d * c % p448 * d % p448
  let f := sub448 b e
  let g := (b + e) % p448
  let h := (p.x + p.y) * (q.x + q.y) % p448
  ⟨a * f % p448 * sub448 (sub448 h c) d % p448, a * g % p448 * sub448 d c % p448, f * g % p448⟩

/-- A multiple of a point, over the low `n` bits of the scalar. -/
def edMul : Nat → Nat → EdPoint → EdPoint
  | 0, _, _ => edZero
  | n + 1, k, p =>
    let r := edMul n (k / 2) (edAdd p p)
    if k % 2 = 1 then edAdd p r else r

/-- The 57-byte encoding of a point. -/
def edEncode (p : EdPoint) : List Byte :=
  let zi := inv448 p.z
  leBytes 57 (p.y * zi % p448 + p.x * zi % p448 % 2 * 2 ^ 455)

/-- The point an encoding names, if it names one. -/
def edDecode (bs : List Byte) : Option EdPoint :=
  let v := leNat bs
  let y := v % 2 ^ 455
  let sign := v / 2 ^ 455
  if p448 ≤ y then none
  else
    let u := sub448 (y * y) 1
    let w := sub448 (ed448d * (y * y % p448)) 1
    let u3 := u * u % p448 * u % p448
    let w3 := w * w % p448 * w % p448
    let x := u3 * w % p448 * powMod p448 448 (u3 * (u * u % p448) % p448 * w3 % p448) ((p448 - 3) / 4) % p448
    if w * (x * x % p448) % p448 ≠ u then none
    else if x = 0 ∧ sign = 1 then none
    else some ⟨if x % 2 = sign then x else p448 - x, y, 1⟩

/-- The domain prefix dom4 with phflag 0 and an empty context. -/
def dom4 : List Byte := [0x53#8, 0x69#8, 0x67#8, 0x45#8, 0x64#8, 0x34#8, 0x34#8, 0x38#8, 0#8, 0#8]

/-- The secret scalar of a private key. -/
def edScalar (h : List Byte) : Nat := leNat (h.take 56) / 4 * 4 % 2 ^ 447 + 2 ^ 447

/-- The public key of a 57-byte private key. -/
def edPublic (k : List Byte) : List Byte := edEncode (edMul 448 (edScalar (shake256 k 114)) edBase)

/-- The 114-byte signature of a message. -/
def edSign (k m : List Byte) : List Byte :=
  let h := shake256 k 114
  let s := edScalar h
  let pub := edEncode (edMul 448 s edBase)
  let r := leNat (shake256 (dom4 ++ h.drop 57 ++ m) 114) % ed448L
  let rb := edEncode (edMul 448 r edBase)
  let c := leNat (shake256 (dom4 ++ rb ++ pub ++ m) 114) % ed448L
  rb ++ leBytes 57 ((r + c * s) % ed448L)

/-- Whether two points are the same. -/
def edSame (p q : EdPoint) : Bool := p.x * q.z % p448 == q.x * p.z % p448 && p.y * q.z % p448 == q.y * p.z % p448

/-- Whether a signature of a message verifies under a public key. -/
def edVerify (pub m sig : List Byte) : Bool :=
  match edDecode pub, edDecode (sig.take 57) with
  | some a, some r =>
    let s := leNat (sig.drop 57)
    let c := leNat (shake256 (dom4 ++ sig.take 57 ++ pub ++ m) 114) % ed448L
    sig.length == 114 && decide (s < ed448L) &&
      edSame (edMul 448 (4 * s % ed448L) edBase) (edAdd (edMul 3 4 r) (edMul 3 4 (edMul 448 c a)))
  | _, _ => false

/-! ## X448 -/

/-- One step of the Montgomery ladder on (x2, z2, x3, z3), for the bit `b`. -/
def x448Step (u : Nat) (b : Bool) (q : Nat × Nat × Nat × Nat) : Nat × Nat × Nat × Nat :=
  let (x2, z2, x3, z3) := if b then (q.2.2.1, q.2.2.2, q.1, q.2.1) else q
  let a := (x2 + z2) % p448
  let aa := a * a % p448
  let d := sub448 x2 z2
  let bb := d * d % p448
  let e := sub448 aa bb
  let da := sub448 x3 z3 * a % p448
  let cb := (x3 + z3) * d % p448
  let s := (da + cb) % p448
  let t := sub448 da cb
  let r := (aa * bb % p448, e * ((aa + 39081 * e) % p448) % p448, s * s % p448, u * (t * t % p448) % p448)
  if b then (r.2.2.1, r.2.2.2, r.1, r.2.1) else r

/-- The ladder over the bits of a scalar from bit `n - 1` down. -/
def x448Ladder (k u : Nat) : Nat → Nat × Nat × Nat × Nat → Nat × Nat × Nat × Nat
  | 0, q => q
  | n + 1, q => x448Ladder k u n (x448Step u (k.testBit n) q)

/-- X448 of a 56-byte scalar and a 56-byte coordinate. -/
def x448 (k u : List Byte) : List Byte :=
  let kn := leNat k / 4 * 4 % 2 ^ 447 + 2 ^ 447
  let un := leNat u % p448
  let q := x448Ladder kn un 448 (1, 0, un, 1)
  leBytes 56 (q.1 * inv448 q.2.1 % p448)

/-- The X448 public key of a private key. -/
def x448Public (k : List Byte) : List Byte := x448 k (leBytes 56 5)

end Sys2Proof.Machine
end

