-- ==== Sys2Proof/Machine/Keys.lean ====
section
/-! DEFINITION. Key slots, handles and the keys derived from the device secret (R383 to R392). -/
namespace Sys2Proof.Machine
open Sys2Proof

/-- Key classes of R389. -/
def Cls.tenant : Nat := 1
def Cls.domain : Nat := 2
def Cls.general : Nat := 3

/-- Slots of a class. -/
def slotCount (cls : Nat) : Nat :=
  if cls = Cls.tenant then 16384 else if cls = Cls.domain then 4096 else if cls = Cls.general then 1024 else 0

/-- Key of a slot in `Sec.slots`. -/
def slotKey (cls index : Nat) : Nat := cls * 16384 + index

/-- A slot. -/
def State.slot (s : State) (cls index : Nat) : KeySlot := Tab.getD s.sec.slots (slotKey cls index) {}

/-- The state with a slot replaced. -/
def State.setSlot (s : State) (cls index : Nat) (k : KeySlot) : State :=
  { s with sec := { s.sec with slots := Tab.set s.sec.slots (slotKey cls index) k } }

/-- The handle of a slot (R390). -/
def State.handleOf (s : State) (cls index : Nat) : Nat :=
  2 ^ 63 + cls * 2 ^ 60 + s.boot.bootNo % 2 ^ 16 * 2 ^ 44 + (s.slot cls index).gen * 2 ^ 12 + index

/-- The class and key a handle resolves to (R390). -/
def State.resolve (s : State) (h : Nat) : Option (Nat × List Byte) :=
  let cls := h / 2 ^ 60 % 8
  let index := h % 4096
  let k := s.slot cls index
  if h < 2 ^ 63 ∨ (cls ≠ Cls.domain ∧ cls ≠ Cls.general) ∨ slotCount cls ≤ index ∨ h / 2 ^ 44 % 2 ^ 16 ≠ s.boot.bootNo % 2 ^ 16
      ∨ h / 2 ^ 12 % 2 ^ 32 ≠ k.gen then none
  else k.key.map fun key => (cls, key)

/-- ASCII bytes of a label. -/
def ascii (s : String) : List Byte := s.toList.map fun c => BitVec.ofNat 8 c.toNat

/-- shake(label, x, n) of R385. -/
def shakeLabel (label : String) (x : List Byte) (n : Nat) : List Byte := shake256 (ascii label ++ x) n

/-- The unique device secret and the serial (R383). -/
def State.uds (s : State) : List Byte := Memory.readN s.otp 0 32
def State.serial (s : State) : List Byte := Memory.readN s.otp 0x30 32

/-- Measurement M_m (SEC_MEAS). -/
def State.measurement (s : State) (m : Nat) : List Byte := (List.range 8).flatMap fun w => leBytes 8 (s.rd (SEC_MEAS.BYTES m w))

/-- The keys of R385. -/
def State.deviceKey (s : State) : List Byte := shakeLabel "BRM-DEVID" s.uds 57
def State.storageKey (s : State) : List Byte := shakeLabel "BRM-STORE" s.uds 32
def State.cdi1 (s : State) : List Byte := shakeLabel "BRM-CDI1" (s.uds ++ s.measurement 0) 64
def State.aliasKey (s : State) : List Byte := shakeLabel "BRM-ALIAS1" s.cdi1 57
/-- The audit key. In RMA layer 0 derives no key (R388): what seals and anchors are made with then is open, and the key is free
bytes (log entry 108). -/
def State.auditKey (s : State) : List Byte :=
  if s.rd SEC_STATUS.LIFECYCLE = 3 then (List.range 57).map Config.noKey else shakeLabel "BRM-AUDIT" s.cdi1 57
def State.cdi2 (s : State) : List Byte := shakeLabel "BRM-CDI2" (s.cdi1 ++ s.measurement 1 ++ s.measurement 2) 64
def State.attestKey (s : State) : List Byte := shakeLabel "BRM-ATTEST" s.cdi2 57

end Sys2Proof.Machine
end

