-- ==== Sys2Proof/Machine/Audit.lean ====
section
/-! DEFINITION. The audit journal: entries, the ring, seals and anchors (R408 to R413). -/
namespace Sys2Proof.Machine
open Sys2Proof

def State.setAud (s : State) (a : Audit) : State := { s with aud := a }

/-- Bytes 0 to 95 of an entry: header and PREV (R408). -/
def AudEntry.header (e : AudEntry) (prev : List Byte) : List Byte :=
  leBytes 8 e.seq ++ leBytes 8 e.time ++ leBytes 2 e.origin ++ leBytes 2 e.via ++ leBytes 1 e.kind ++ leBytes 1 e.unit
    ++ leBytes 1 e.sub ++ leBytes 1 e.opcode ++ leBytes 4 e.offset ++ zeros 4 ++ prev

/-- The payload with the signature of a SEAL over bytes 0 to 119 (R409, R411). -/
def AudEntry.body (e : AudEntry) (key prev : List Byte) : List Byte :=
  if e.kind = 7 then e.payload.take 24 ++ edSign key (e.header prev ++ e.payload.take 24) ++ zeros 22 else e.payload

/-- The 256 bytes of an entry. -/
def AudEntry.bytes (e : AudEntry) (key prev : List Byte) : List Byte := e.header prev ++ e.body key prev

/-- The digest of an entry (R408). -/
def audDigest (bs : List Byte) : List Byte := shake256 bs 64

/-- Entries of the ring. -/
def State.audSize (s : State) : Nat := 2 ^ s.rd AUD_RING.LOG2_ENTRIES

/-- Free entries of the ring. -/
def State.audFree (s : State) : Nat :=
  s.audSize - (s.rd AUD_IDX.PROD + s.audSize - s.rd AUD_IDX.CONS % s.audSize) % s.audSize

/-- Whether the ring lies in populated DRAM of READY channels (R413). -/
def State.audRingOk (s : State) : Bool :=
  decide (s.rd AUD_RING.BASE * 4096 + s.audSize * 256 ≤ s.populated)
    && (List.range (if s.on DDR_CFG.CH_MODE then 6 else 12)).all fun c => s.rd (DDR_STATUS.STATE c) == Ddr.ready

/-- A SEAL entry is staged; `anchor` where it is to be written to the anchor area as well (R411, R412). -/
def State.seal (s : State) (anchor : Bool) : State :=
  let seq := s.aud.nextSeq
  let anchored := anchor || decide (63 ≤ s.aud.sealsSince)
  let keyId := (shake256 (edPublic s.auditKey) 64).take 16
  let first := s.aud.firstSeq
  let s := s.stage 7 0x0200 0xFFFF (unitN .aud) (unitK .aud) 0 0 (leBytes 8 first ++ keyId)
  let s := s.setAud { s.aud with
    firstSeq := seq + 1, sinceSeal := 0, sealDue := some (s.inMgmt (s.rd AUD_SEAL_CFG.PERIOD)),
    sealsSince := if anchored then 0 else s.aud.sealsSince + 1,
    anchorDue := if anchored then s.aud.anchorDue ++ [seq] else s.aud.anchorDue }
  s.wr AUD_STATUS.LAST_SEAL (seq % 2 ^ 48)

/-- AUDIT_ENTRY_WRITE: the oldest staged entry reaches the ring where it has 16 free entries or more; otherwise it stays, and
EV_AUDIT_FULL is recorded once per shortage. -/
def execAuditEntryWrite (s : State) : Host.Outcome State Fault Refusal :=
  match s.aud.staged with
  | [] => .next s
  | e :: rest =>
    if !s.audRingOk then .next s
    else if s.audFree < 16 then
      .next (if s.aud.fullSeen then s else (s.setAud { s.aud with fullSeen := true }).raise Ev.auditFull (some .aud))
    else
      let bs := e.bytes s.auditKey s.aud.prev
      let prod := s.rd AUD_IDX.PROD
      match s.dmaWrite .aud (s.rd AUD_RING.BASE * 4096 + prod * 256) bs with
      | .error _ => .next s
      | .ok s =>
        let dg := audDigest bs
        let anch := s.aud.anchorDue.contains e.seq
        let s := s.setAud { s.aud with
          staged := rest, prev := dg, fullSeen := false,
          anchor := if anch then some (e.seq, dg) else s.aud.anchor,
          anchorDue := s.aud.anchorDue.filter (· != e.seq) }
        let s := if anch && s.aud.anchorDue.isEmpty then s.wr SEC_CTL.SHUTDOWN 0 else s
        .next ((s.wr AUD_STATUS.STAGED rest.length).wr AUD_IDX.PROD ((prod + 1) % s.audSize))

/-- AUDIT_SEAL_PERIOD: PERIOD has passed since the last seal. -/
def execAuditSealPeriod (s : State) : Host.Outcome State Fault Refusal :=
  if s.due s.aud.sealDue && s.auditRoom then .next (s.seal false) else .next s

/-- AUDIT_SEAL_COUNT: ENTRIES entries have been made since the last seal. -/
def execAuditSealCount (s : State) : Host.Outcome State Fault Refusal :=
  if s.rd AUD_SEAL_CFG.ENTRIES ≤ s.aud.sinceSeal ∧ s.auditRoom then .next (s.seal false) else .next s

/-- AUDIT_SHUTDOWN: SEC_CTL.SHUTDOWN ← 1 makes a final seal that is also an anchor; the bit reads 1 until it is written. -/
def execAuditShutdown (origin : Origin) (s : State) : Host.Outcome State Fault Refusal :=
  if s.on SEC_CTL.SHUTDOWN || !s.auditRoom then .next s
  else .next (s.plainField .sec origin SEC_CTL.SHUTDOWN 1 fun s => (s.wr SEC_CTL.SHUTDOWN 1).seal true)

/-- SEQ of the latest entry and its digest (R399): the staged entries hashed behind what has been written. -/
def State.audLatest (s : State) : Nat × List Byte :=
  (s.aud.nextSeq - 1, s.aud.staged.foldl (fun p e => audDigest (e.bytes s.auditKey p)) s.aud.prev)

end Sys2Proof.Machine
end

