-- ==== Sys2Proof/Machine/BladeDev.lean ====
section
/-! DEFINITION. A blade: the checks it makes on every command and what each command does to it (R290 to R309, R530). -/
namespace Sys2Proof.Machine
open Sys2Proof

/-! ## Opcodes, flags and fields of a command (R292, R295) -/

def Bop.read : Nat := 0x01
def Bop.program : Nat := 0x02
def Bop.erase : Nat := 0x03
def Bop.claim : Nat := 0x04
def Bop.retire : Nat := 0x05
def Bop.setEpoch : Nat := 0x06
def Bop.renew : Nat := 0x07
def Bop.release : Nat := 0x08
def Bop.epochRead : Nat := 0x09
def Bop.identify : Nat := 0x0A
def Bop.health : Nat := 0x0B
def Bop.claimList : Nat := 0x0C
def Bop.ecRead : Nat := 0x0D
def Bop.wipe : Nat := 0x0E
def Bop.wipeConsent : Nat := 0x0F

def BCmd.op (c : BCmd) : Nat := fieldAt c.img 0 1
def BCmd.flag (c : BCmd) (i : Nat) : Bool := (fieldAt c.img 1 1).testBit i
def BCmd.slc (c : BCmd) : Bool := c.flag 0
def BCmd.full (c : BCmd) : Bool := c.flag 1
def BCmd.hdrOnly (c : BCmd) : Bool := c.flag 2
def BCmd.cid (c : BCmd) : Nat := fieldAt c.img 2 2
def BCmd.shard (c : BCmd) : Nat := fieldAt c.img 4 1
def BCmd.die (c : BCmd) : Nat := fieldAt c.img 6 2 % 512
def BCmd.group (c : BCmd) : Nat := fieldAt c.img 6 2 % 32
def BCmd.epoch (c : BCmd) : Nat := fieldAt c.img 8 8
def BCmd.data (c : BCmd) : Nat := fieldAt c.img 16 8
def BCmd.len (c : BCmd) : Nat := fieldAt c.img 24 4
def BCmd.block (c : BCmd) : Nat := fieldAt c.img 28 2
def BCmd.page (c : BCmd) : Nat := fieldAt c.img 30 2 % 4096
def BCmd.offset (c : BCmd) : Nat := fieldAt c.img 32 2
def BCmd.claimMask (c : BCmd) : Nat := fieldAt c.img 28 2
def BCmd.claimBlock (c : BCmd) (k : Nat) : Nat := fieldAt c.img (32 + 2 * k) 2
def BCmd.renewMask (c : BCmd) : Nat := fieldAt c.img 48 8

/-- Bits an opcode names outside OPC, FLAGS and CID, as (offset, width), and the flags it names. -/
def bcpNamed (op : Nat) : List (Nat × Nat) × Nat :=
  let die := (48, 9)
  let block := (224, 16)
  let page := (240, 12)
  let shard := (32, 8)
  let epoch := (64, 64)
  let xfer := [(128, 64), (192, 32)]
  if op = Bop.read then (xfer ++ [die, block, page, (256, 16)], 6)
  else if op = Bop.program then (xfer ++ [shard, epoch, die, block, page, (320, 64)], 3)
  else if op = Bop.erase then ([shard, epoch, die, block], 8)
  else if op = Bop.claim then ([shard, epoch, (48, 5), (224, 16), (256, 256)], 0)
  else if op = Bop.retire then ([shard, epoch, die, block], 0)
  else if op = Bop.setEpoch then ([shard, epoch], 16)
  else if op = Bop.renew then (xfer ++ [shard, (384, 64)], 0)
  else if op = Bop.release then ([shard, epoch], 0)
  else if op = Bop.epochRead ∨ op = Bop.claimList then (shard :: xfer, 0)
  else if op = Bop.identify ∨ op = Bop.health then (xfer, 0)
  else if op = Bop.ecRead then (die :: xfer, 0)
  else ([], 0)

/-- The mask of the bits named. -/
def bcpMask : List (Nat × Nat) → Nat
  | [] => 0
  | (p, w) :: t => (2 ^ w - 1) * 2 ^ p ||| bcpMask t

/-- Whether a block is one of the anchor blocks (R300). -/
def anchorBlock (die block : Nat) : Bool := decide (die < 16) && decide (block < 4)

/-- Opcodes that change flash data or claims under an epoch (R295). -/
def bcpMutating (op : Nat) : Bool := Bop.program ≤ op && op ≤ Bop.retire

/-- Step 2 of R530: a field or flag the opcode does not name, or a setting it does not allow, is not 0. SHARD of a command
on an anchor block and the low bits of SHARD_BASE count as reserved (log entry 20). -/
def BCmd.rsvd (c : BCmd) : Bool :=
  let n := bcpNamed c.op
  let mask := bcpMask ((0, 8) :: (16, 16) :: n.1) ||| n.2 * 256
  (leNat c.img &&& (2 ^ 512 - 1 - mask) != 0)
    || (c.op == Bop.read && c.full && c.hdrOnly)
    || (c.op == Bop.program && c.full && fieldAt c.img 40 8 != 0)
    || (c.op == Bop.claim && (List.range 16).any fun k => !c.claimMask.testBit k && c.claimBlock k != 0)
    || (c.op == Bop.setEpoch && !c.flag 4)
    || (c.op == Bop.renew && c.shard % 64 != 0)
    || ((c.op == Bop.program || c.op == Bop.erase) && anchorBlock c.die c.block && c.shard != 0)

/-- Step 3: whether LENGTH is allowed. -/
def BCmd.lenOk (x : Blade) (c : BCmd) : Bool :=
  let n := c.len
  if c.op = Bop.read then
    (if c.full then n == 18432 else if c.hdrOnly then n == 64 else n % 32 == 0 && decide (32 ≤ n) && decide (n ≤ 16384))
  else if c.op = Bop.program then
    (if c.full then n == 18432 else n % 4096 == 0 && decide (4096 ≤ n) && decide (n ≤ 16384))
  else if c.op = Bop.renew then n == 512
  else if c.op = Bop.epochRead then n == 16
  else if c.op = Bop.identify then n == 4096
  else if c.op = Bop.health then n == 64
  else if c.op = Bop.ecRead then n == x.id.blocks * 4
  else true

/-- Step 4: whether DIE, BLOCK, PAGE, OFFSET and the die group lie inside the geometry. -/
def BCmd.inRange (x : Blade) (c : BCmd) : Bool :=
  let dieOk := decide (c.die < x.id.dies)
  let blockOk := dieOk && decide (c.block < x.id.blocks)
  if c.op = Bop.read then
    blockOk && decide (c.page < x.id.pagesQlc)
      && (if c.full ∨ c.hdrOnly then c.offset == 0 else c.offset % 32 == 0 && decide (c.offset + c.len ≤ 16384))
  else if c.op = Bop.program then blockOk && decide (c.page < x.id.pagesQlc)
  else if c.op = Bop.erase ∨ c.op = Bop.retire then blockOk
  else if c.op = Bop.claim then
    decide (16 * c.group + 15 < x.id.dies)
      && (List.range 16).all fun k => !c.claimMask.testBit k || decide (c.claimBlock k < x.id.blocks)
  else if c.op = Bop.ecRead then dieOk
  else true

/-! ## A blade's parts -/

def Blade.port (x : Blade) (p : Nat) : BladePort := if p = 0 then x.port0 else x.port1

def Blade.setPort (x : Blade) (p : Nat) (y : BladePort) : Blade :=
  if p = 0 then { x with port0 := y } else { x with port1 := y }

def blockKey (die block : Nat) : Nat := die * 65536 + block

def Blade.block (x : Blade) (die block : Nat) : Block := Tab.getD x.blocks (blockKey die block) {}

def Blade.setBlock (x : Blade) (die block : Nat) (y : Block) : Blade :=
  { x with blocks := Tab.set x.blocks (blockKey die block) y }

def Blade.epochRec (x : Blade) (shard : Nat) : EpochRec := Tab.getD x.recs shard {}

def Blade.setRec (x : Blade) (shard : Nat) (r : EpochRec) : Blade := { x with recs := Tab.set x.recs shard r }

/-- BCP_LEASE_CFG.EFFECTIVE: the larger of the two ports' SILENCE. -/
def Blade.effective (x : Blade) : Nat := max x.port0.silence x.port1.silence

/-- Milliseconds of the blade's own clock in `n` ticks of CHIP_TIME (R307). -/
def Blade.ms (x : Blade) (n : Nat) : Nat := (((n : Int) * (1000000 + x.ppm)) / (1000000 * 1600000)).toNat

/-- Pages of a block in a mode (R239). -/
def Blade.pages (x : Blade) (slc : Bool) : Nat := if slc then x.id.pagesQlc / 4 else x.id.pagesQlc

/-! ## Ownership rules (R303 to R308) -/

/-- Step 3 of R303. -/
def Blade.epochCheck (x : Blade) (p : Nat) (c : BCmd) : Option Nat :=
  let r := x.epochRec c.shard
  if c.epoch < r.epoch ∨ (c.epoch = r.epoch ∧ r.released = true) then some St.epochStale
  else if r.epoch < c.epoch then some St.epochAhead
  else if r.epoch % 2 ≠ p then some St.ownerMismatch
  else none

/-- Whether a block of a CLAIM is claimed, bad or an anchor block (R300). -/
def Blade.claimRefused (x : Blade) (c : BCmd) : Bool :=
  (List.range 16).any fun k =>
    let die := 16 * c.group + k
    let y := x.block die (c.claimBlock k)
    c.claimMask.testBit k && (y.claim.isSome || y.bad || anchorBlock die (c.claimBlock k))

/-- Steps 2 to 4 of R303. -/
def Blade.ownerCheck (x : Blade) (p : Nat) (c : BCmd) : Option Nat :=
  if (c.op = Bop.program ∨ c.op = Bop.erase) ∧ anchorBlock c.die c.block = true then
    (if c.block / 2 = p then none else some St.anchorPort)
  else match x.epochCheck p c with
    | some e => some e
    | none =>
      if c.op = Bop.claim then (if x.claimRefused c then some St.claimConflict else none)
      else
        let y := x.block c.die c.block
        if y.bad then some St.blockBad else if y.claim = some c.shard then none else some St.notClaimed

/-- Steps 2 to 4 of R304. -/
def Blade.setEpochCheck (x : Blade) (now p : Nat) (c : BCmd) : Option Nat :=
  let r := x.epochRec c.shard
  if c.epoch % 2 ≠ p then some St.ownerMismatch
  else if c.epoch ≤ r.epoch then some St.epochNotNewer
  else if r.epoch % 2 = p ∨ r.released = true ∨ x.effective ≤ x.ms (now - r.tRenew) then none
  else some St.leaseHeld

/-- Whether a WIPE through port `p` has consent (R308). -/
def Blade.wipeAllowed (x : Blade) (now p : Nat) : Bool :=
  let o := x.port (1 - p)
  (match o.consent with
    | some t => decide (x.ms (now - t) ≤ 1000)
    | none => false)
    || (!o.linkUp && decide (x.effective ≤ x.ms (now - o.downSince)))

/-- Step 6 of R530. -/
def Blade.ownCheck (x : Blade) (c : BCmd) : Option Nat :=
  let y := x.block c.die c.block
  if c.op = Bop.program then
    (if x.pages c.slc ≤ c.page then some St.pageOrder
    else match y.last with
      | none => none
      | some l => if c.page ≤ l ∨ y.slc ≠ c.slc then some St.pageOrder else none)
  else if c.op = Bop.read then
    (if (Tab.get? y.pages c.page).isNone && !y.loose then some St.erasedPage else none)
  else none

/-- The checks of R530 in order: the status of the first that fails. -/
def Blade.check (x : Blade) (now p : Nat) (c : BCmd) : Option Nat :=
  if c.op = 0 ∨ 0x0F < c.op then some St.opcodeInvalid
  else if c.rsvd then some St.rsvdNonzero
  else if !c.lenOk x then some St.lengthMismatch
  else if !c.inRange x then some St.addrRange
  else match (if bcpMutating c.op then x.ownerCheck p c
      else if c.op = Bop.setEpoch then x.setEpochCheck now p c
      else if c.op = Bop.release then x.epochCheck p c
      else if c.op = Bop.wipe then (if x.wipeAllowed now p then none else some St.wipeNoConsent)
      else none) with
    | some e => some e
    | none => x.ownCheck c

/-! ## What each command does (R296 to R301, R304, R306, R308) -/

/-- The bytes of a page a READ returns. -/
def readBytes (c : BCmd) (data spare : List Byte) : List Byte :=
  if c.full then data ++ spare else if c.hdrOnly then spare.take 64 else slice data c.offset c.len

/-- READ: the page, or what an open page reads back as. -/
def Blade.doRead (x : Blade) (g : Nat → Byte) (m : Medium) (c : BCmd) : BAns × Blade :=
  let y := x.block c.die c.block
  let bad : BAns × Blade := (⟨St.uncorrectable, 0, []⟩, { x with uncorr := satAdd x.uncorr 1 32 })
  let info := match m with
    | .done bits retry => min bits 65535 + (if retry then 65536 else 0)
    | _ => 0
  let open_ : BAns × Blade := match m with
    | .failed => bad
    | .erased => (⟨St.erasedPage, 0, []⟩, x)
    | _ => (⟨St.success, info, (List.range c.len).map g⟩, x)
  match Tab.get? y.pages c.page with
  | some (.good data spare) =>
    match m with
    | .failed => bad
    | .done _ _ => (⟨St.success, info, readBytes c data spare⟩, x)
    | _ => if y.loose then open_ else (⟨St.success, info, readBytes c data spare⟩, x)
  | _ => open_

/-- The page a PROGRAM writes: padded, with its header, or the whole page as given (R297). -/
def programPage (c : BCmd) : BPage :=
  if c.full then .good (c.out.take 16384) (slice c.out 16384 2048)
  else .good (c.out ++ zeros (16384 - c.out.length)) (c.hdr ++ zeros (2048 - c.hdr.length))

/-- A page programmed, as `pg`: the block's mode and last page follow. -/
def Blade.program (x : Blade) (c : BCmd) (pg : BPage) : Blade :=
  let y := x.block c.die c.block
  x.setBlock c.die c.block { y with slc := c.slc, last := some c.page, pages := Tab.set y.pages c.page pg }

/-- PROGRAM: a failed one counts as programmed for the order rule. -/
def Blade.doProgram (x : Blade) (m : Medium) (c : BCmd) : BAns × Blade :=
  if m = .failed then (⟨St.programFail, 0, []⟩, { x.program c .torn with progFails := satAdd x.progFails 1 32 })
  else (⟨St.success, 0, []⟩, x.program c (programPage c))

/-- A block erased: nothing programmed, its count raised; `release` frees the claim. -/
def Block.erased (y : Block) (release : Bool) : Block :=
  { y with last := none, slc := false, pages := [], ec := y.ec + 1, loose := false, claim := if release then none else y.claim }

/-- ERASE: a failed one raises the count, keeps the claim and leaves the pages open (R299). -/
def Blade.doErase (x : Blade) (m : Medium) (c : BCmd) : BAns × Blade :=
  let y := x.block c.die c.block
  if m = .failed then
    (⟨St.eraseFail, 0, []⟩,
      { x.setBlock c.die c.block { y with ec := y.ec + 1, loose := true } with eraseFails := satAdd x.eraseFails 1 32 })
  else (⟨St.success, y.ec + 1, []⟩, x.setBlock c.die c.block (y.erased (c.flag 3)))

/-- CLAIM: every block of MASK belongs to SHARD. -/
def Blade.doClaim (x : Blade) (c : BCmd) : BAns × Blade :=
  (⟨St.success, 0, []⟩, (List.range 16).foldl (fun x k =>
    let die := 16 * c.group + k
    if c.claimMask.testBit k then
      x.setBlock die (c.claimBlock k) { x.block die (c.claimBlock k) with claim := some c.shard }
    else x) x)

/-- RETIRE: the block is bad and its claim freed. -/
def Blade.doRetire (x : Blade) (c : BCmd) : BAns × Blade :=
  (⟨St.success, 0, []⟩, x.setBlock c.die c.block { x.block c.die c.block with bad := true, claim := none })

/-- SET_EPOCH accepted: the record holds NEW_EPOCH and counts as renewed now. -/
def Blade.doSetEpoch (x : Blade) (now : Nat) (c : BCmd) : BAns × Blade :=
  (⟨St.success, c.epoch, []⟩, x.setRec c.shard ⟨c.epoch, false, now⟩)

/-- Whether RENEW renews shard `SHARD_BASE + i` (R306). -/
def Blade.renews (x : Blade) (p : Nat) (c : BCmd) (i : Nat) : Bool :=
  let r := x.epochRec (c.shard + i)
  c.renewMask.testBit i && fieldAt c.out (8 * i) 8 == r.epoch && r.epoch % 2 == p && !r.released

/-- RENEW: T_RENEW of every renewed shard is now; RESULT names them. -/
def Blade.doRenew (x : Blade) (now p : Nat) (c : BCmd) : BAns × Blade :=
  let is := (List.range 64).filter (x.renews p c)
  (⟨St.success, (is.map (2 ^ ·)).sum, []⟩,
    is.foldl (fun x i => x.setRec (c.shard + i) { x.epochRec (c.shard + i) with tRenew := now }) x)

/-- LEASE_RELEASE accepted. -/
def Blade.doRelease (x : Blade) (c : BCmd) : BAns × Blade :=
  (⟨St.success, 0, []⟩, x.setRec c.shard { x.epochRec c.shard with released := true })

/-- The 16 bytes of EPOCH_READ. -/
def Blade.epochBytes (x : Blade) (now shard : Nat) : List Byte :=
  let r := x.epochRec shard
  leBytes 8 r.epoch ++ leBytes 1 (if r.released then 1 else 0) ++ zeros 3
    ++ leBytes 4 (min (x.ms (now - r.tRenew)) (2 ^ 32 - 1))

/-- The 4,096 bytes of IDENTIFY. -/
def Blade.identify (x : Blade) : List Byte :=
  let text := fun (n : Nat) (t : List Byte) => (t ++ List.replicate n 0x20).take n
  let bs := leBytes 4 0xB1ADE5C1 ++ leBytes 2 x.id.version ++ leBytes 2 x.id.dies ++ leBytes 4 x.id.blocks
    ++ leBytes 2 x.id.pagesQlc ++ leBytes 2 x.id.spare ++ leBytes 4 x.id.ratedEc ++ text 32 x.id.serial
    ++ text 32 x.id.model ++ text 16 x.id.firmware
  bs ++ zeros (4096 - bs.length)

/-- The 64 bytes of HEALTH. -/
def Blade.health (x : Blade) : List Byte :=
  leBytes 1 (ofSigned x.hotTemp 8) ++ zeros 1 ++ leBytes 2 x.hotDie ++ leBytes 4 x.uncorr ++ leBytes 4 x.progFails
    ++ leBytes 4 x.eraseFails ++ leBytes 4 x.powerLosses ++ zeros 44

/-- The blocks a shard has claimed, in die and block order. -/
def Blade.claims (x : Blade) (shard : Nat) : List (Nat × Nat) :=
  (x.blocks.filter fun e => e.2.claim == some shard).map fun e => (e.1 / 65536, e.1 % 65536)

/-- CLAIM_LIST: as many entries as LENGTH holds; RESULT is their number in total. -/
def Blade.doClaimList (x : Blade) (c : BCmd) : BAns × Blade :=
  let es := x.claims c.shard
  (⟨St.success, es.length, (es.take (c.len / 4)).flatMap fun e => leBytes 4 (e.1 + e.2 * 65536)⟩, x)

/-- WIPE: every block but the other port's anchor blocks is erased and freed; bad blocks, counts and records stay. -/
def Blade.doWipe (x : Blade) (p : Nat) : BAns × Blade :=
  let kept := fun (die block : Nat) => anchorBlock die block && block / 2 != p
  let bad := (x.blocks.filter fun e => e.2.bad && !kept (e.1 / 65536) (e.1 % 65536)).length
  (⟨St.success, x.id.dies * x.id.blocks - 32 - bad, []⟩,
    { x with blocks := Tab.mapV x.blocks fun k y =>
        if kept (k / 65536) (k % 65536) || y.bad then y
        else { y with last := none, slc := false, pages := [], claim := none, loose := false } })

/-- A command that has passed its checks is carried out. `g` gives the free bytes of an open page. -/
def Blade.carry (x : Blade) (now p : Nat) (g : Nat → Byte) (m : Medium) (c : BCmd) : BAns × Blade :=
  if c.op = Bop.read then x.doRead g m c
  else if c.op = Bop.program then x.doProgram m c
  else if c.op = Bop.erase then x.doErase m c
  else if c.op = Bop.claim then x.doClaim c
  else if c.op = Bop.retire then x.doRetire c
  else if c.op = Bop.setEpoch then x.doSetEpoch now c
  else if c.op = Bop.renew then x.doRenew now p c
  else if c.op = Bop.release then x.doRelease c
  else if c.op = Bop.epochRead then (⟨St.success, (x.epochRec c.shard).epoch, x.epochBytes now c.shard⟩, x)
  else if c.op = Bop.identify then (⟨St.success, 0, x.identify⟩, x)
  else if c.op = Bop.health then (⟨St.success, 0, x.health⟩, x)
  else if c.op = Bop.claimList then x.doClaimList c
  else if c.op = Bop.ecRead then
    (⟨St.success, 0, (List.range x.id.blocks).flatMap fun b => leBytes 4 (x.block c.die b).ec⟩, x)
  else if c.op = Bop.wipe then x.doWipe p
  else (⟨St.success, 0, []⟩, x.setPort p { x.port p with consent := some now })

/-- A command executed: the first failing check, or its effect. RESULT of SET_EPOCH carries the epoch in force (R304). -/
def Blade.run (x : Blade) (now p : Nat) (g : Nat → Byte) (m : Medium) (c : BCmd) : BAns × Blade :=
  match x.check now p c with
  | some e => (⟨e, if c.op = Bop.setEpoch then (x.epochRec c.shard).epoch else 0, []⟩, x)
  | none => x.carry now p g m c

/-! ## Acceptance order (R305) -/

/-- Shards whose lease or epoch a command concerns. -/
def BCmd.concerns (c : BCmd) (shard : Nat) : Bool :=
  if c.op = Bop.renew then decide (c.shard ≤ shard) && decide (shard < c.shard + 64) && c.renewMask.testBit (shard - c.shard)
  else (bcpMutating c.op || c.op == Bop.setEpoch || c.op == Bop.release || c.op == Bop.epochRead) && c.shard == shard

/-- Whether a command changes a shard's epoch record. -/
def BCmd.fence (c : BCmd) : Bool := c.op == Bop.setEpoch || c.op == Bop.release

/-- Whether a command changes one block. -/
def BCmd.onBlock (c : BCmd) : Bool := c.op == Bop.program || c.op == Bop.erase || c.op == Bop.retire

/-- Whether `y` has to wait for the earlier `x`: around a fence of a shard (R305), a read behind a program of its page
(R296), claims of one group (R314), commands of one block and WIPE in the order taken. -/
def BCmd.behind (x y : BCmd) : Bool :=
  (y.fence && x.concerns y.shard) || (x.fence && y.concerns x.shard)
    || (x.op == Bop.program && y.op == Bop.read && x.die == y.die && x.block == y.block && x.page == y.page)
    || (x.onBlock && y.onBlock && x.die == y.die && x.block == y.block)
    || (x.op == Bop.claim && y.op == Bop.claim && x.group == y.group)
    || ((x.op == Bop.wipe || y.op == Bop.wipe) && (bcpMutating x.op || x.op == Bop.wipe)
        && (bcpMutating y.op || y.op == Bop.wipe))

/-- Whether the silence of a shard reaches EFFECTIVE in this very tick of the blade (R307). -/
def Blade.silenceEdge (x : Blade) (now shard : Nat) : Bool :=
  let r := x.epochRec shard
  decide (x.effective ≤ x.ms (now - r.tRenew)) && decide (x.ms (now - 1 - r.tRenew) < x.effective)

/-- Whether the command at place `i` waits for no other. A RENEW taken in the tick in which the silence reaches EFFECTIVE goes
before a SET_EPOCH of its shard (R307). -/
def Blade.clear (x : Blade) (now i : Nat) : Bool :=
  match x.taken[i]? with
  | none => false
  | some t =>
    let first := fun (y : BCmd) (z : BCmd) => y.op == Bop.renew && z.op == Bop.setEpoch && y.concerns z.shard && x.silenceEdge now z.shard
    ((x.taken.take i).all fun e => !e.cmd.behind t.cmd || first t.cmd e.cmd)
      && (x.taken.drop i).all fun e => !first e.cmd t.cmd

/-! ## Service (R290) -/

/-- The class of a submission queue: 0 LEASE, 1 JOURNAL, 2 READ, 3 BULK, 4 LOW. -/
def bcpClass (q : Nat) : Nat := if q = 0 then 0 else if q ≤ 4 then 1 else if q ≤ 8 then 2 else if q = 13 ∨ q = 14 then 4 else 3

/-- Whether a command of class `k` taken through port `p` waits for nothing but its service. -/
def Blade.waitsAt (x : Blade) (now k p : Nat) : Bool :=
  (List.range x.taken.length).any fun j => x.clear now j && match x.taken[j]? with
    | some t => bcpClass t.queue == k && t.port == p
    | none => false

def Blade.waits (x : Blade) (now k : Nat) : Bool := x.waitsAt now k 0 || x.waitsAt now k 1

/-- The class whose turn it is: LEASE strictly first, JOURNAL and READ in turn and ahead of the rest, four BULK to one LOW. -/
def Blade.classMay (x : Blade) (now k : Nat) : Bool :=
  if k = 0 then true
  else if x.waits now 0 then false
  else if k = 1 then !(x.waits now 2 && x.turn == some 1)
  else if k = 2 then !(x.waits now 1 && x.turn == some 2)
  else if x.waits now 1 || x.waits now 2 then false
  else if k = 3 then !(x.waits now 4 && decide (4 ≤ x.bulk))
  else !(x.waits now 3 && decide (x.bulk < 4))

/-- The lead of port 0 in a class after a command through port `p`: it counts while both ports wait. -/
def Blade.leadAfter (x : Blade) (now k p : Nat) : Int × Int × Int :=
  if x.waitsAt now k (1 - p) then
    let l := Tab.getD x.lead k (0, 0, 0)
    let c := if p = 0 then l.1 + 1 else l.1 - 1
    (c, min l.2.1 c, max l.2.2 c)
  else (0, 0, 0)

/-- Whether the command at place `i` may be carried out now: it waits for no other, its class has the turn, and no period in
which both ports wait gives one of them more than 16 commands above the other. -/
def Blade.mayRun (x : Blade) (now i : Nat) : Bool :=
  match x.taken[i]? with
  | none => false
  | some t =>
    let k := bcpClass t.queue
    let l := x.leadAfter now k t.port
    x.clear now i && x.classMay now k && decide (l.2.2 - l.2.1 ≤ 16)

/-- The command at place `i` leaves the acceptance order, served. -/
def Blade.leave (x : Blade) (now i : Nat) : Blade :=
  match x.taken[i]? with
  | none => x
  | some t =>
    let k := bcpClass t.queue
    { x with
      taken := x.taken.eraseIdx i
      lead := Tab.set x.lead k (x.leadAfter now k t.port)
      turn := if k = 1 ∨ k = 2 then some k else x.turn
      bulk := if k = 3 then x.bulk + 1 else if k = 4 then 0 else x.bulk }

/-! ## Taking commands (R293, R294) -/

/-- `n` entries of a queue taken from SQ_HEAD on, in order. -/
def Blade.take (x : Blade) (p q : Nat) (cs : List BCmd) : Blade :=
  cs.foldl (fun x c =>
    let y := x.port p
    let h := Tab.getD y.sqHead q 0
    let y := { y with sqHead := Tab.set y.sqHead q ((h + 1) % 256),
                      wraps := if h = 255 then Tab.set y.wraps q (Tab.getD y.wraps q 0 + 1) else y.wraps }
    { x.setPort p y with taken := x.taken ++ [⟨p, q, h, c, false⟩] }) x

/-- The completion entry of a taken command. PHASE starts at 1 and flips on each wrap of the queue. -/
def Blade.entry (x : Blade) (t : Taken) (a : BAns) : BCpl :=
  let y := x.port t.port
  let h := Tab.getD y.sqHead t.queue 0
  let laps := Tab.getD y.wraps t.queue 0 - (if h ≤ t.slot then 1 else 0)
  ⟨t.queue, t.slot, t.cmd.cid, h, laps % 2 == 0, a⟩

/-- The 16 bytes of a completion entry (R293). -/
def BCpl.bytes (e : BCpl) : List Byte :=
  leBytes 2 e.cid ++ leBytes 2 e.ans.status ++ leBytes 2 e.head ++ leBytes 1 e.queue
    ++ leBytes 1 (if e.phase then 128 else 0) ++ leBytes 8 e.ans.result

/-- A port's queues emptied: what it had not accepted is discarded; its mutations finish in their order, unreported (R309). -/
def Blade.emptyPort (x : Blade) (p : Nat) : Blade :=
  { x.setPort p { x.port p with sqHead := [], wraps := [] } with
    taken := x.taken.filterMap fun t =>
      if t.port ≠ p then some t
      else if bcpMutating t.cmd.op || t.cmd.fence || t.cmd.op == Bop.wipe then some { t with mute := true }
      else none }

end Sys2Proof.Machine
end

