-- ==== Sys2Proof/Machine/BladeRows.lean ====
section
/-! DEFINITION. What happens at a blade: its registers, doorbells, the execution of a taken command, reset and power
(R285 to R309). One head is modelled; the other head's commands and register writes arrive as operands. -/
namespace Sys2Proof.Machine
open Sys2Proof

/-- The head number, and so the blade port this head uses (R287, R317). -/
def State.headNo (s : State) : Nat := s.rd LEASE_CTL.HEAD

/-- The blade behind BLD_b. -/
def State.blade (s : State) (b : Nat) : Option Blade := Tab.get? s.blades b

def State.setBlade (s : State) (b : Nat) (x : Blade) : State := { s with blades := Tab.set s.blades b x }

def State.hport (s : State) (b : Nat) : HeadPort := Tab.getD s.ports b {}

def State.setHport (s : State) (b : Nat) (y : HeadPort) : State := { s with ports := Tab.set s.ports b y }

/-- The blade port a head's port is wired to (R287, R317). -/
def State.portNo (s : State) (b : Nat) : Nat := if (s.hport b).miswired then 1 - s.headNo else s.headNo

/-- BLD_PORT_STATUS_b.STATE values (R288). -/
def Bst.empty : Nat := 0
def Bst.reset : Nat := 1
def Bst.training : Nat := 2
def Bst.init : Nat := 3
def Bst.ready : Nat := 4
def Bst.down : Nat := 5

def State.bldSt (s : State) (b : Nat) : Nat := s.rd (BLD_PORT_STATUS.STATE b)

/-- A blade's write to a bus address, decoded by R286. -/
def State.busWrite (s : State) (b a : Nat) (bs : List Byte) : State :=
  if inVat a && inVat (a + bs.length - 1) then { s with mem := Memory.writeN s.mem a bs }
  else if a + bs.length ≤ 0x030000000000 then
    let dev := 9 * 256 + b
    (bs.zipIdx.foldl (fun s e =>
      let i := a + e.2
      match s.iommu dev none i true with
      | .error c => s.dmaFailed .bld (.fault ⟨c, dev, none, i, true⟩)
      | .ok p => if s.answers p then { s with mem := Memory.write s.mem p e.1, cool := s.cool.stored [p] } else s) s)
  else s.bump (BLD_PORT_ERR.AER_UNCORR b) 1

/-- The issued command that stands in a slot of a queue. -/
def State.issuedAt (s : State) (b q slot : Nat) : Option Issued :=
  (s.hport b).issued.find? fun e => e.queue == q && e.slot == some slot

/-- A taken command has been answered: data are written, then the completion entry, while the port's queues are active and
its link is up (R293, R309). What the peer's port returns leaves the model. -/
def State.answer (s : State) (b : Nat) (x : Blade) (t : Taken) (a : BAns) : State :=
  let s := s.setBlade b x
  let y := x.port t.port
  if t.mute ∨ t.port ≠ s.portNo b ∨ y.en = false ∨ y.linkUp = false then s
  else
    let s := match s.issuedAt b t.queue t.slot with
      | some e => (match e.issuer with
        | .pass _ => if a.data.isEmpty then s else s.busWrite b t.cmd.data a.data
        | _ => s)
      | none => if (s.hport b).late.contains (t.queue, t.slot, true) && !a.data.isEmpty then s.busWrite b t.cmd.data a.data else s
    s.setHport b { s.hport b with cq := (s.hport b).cq ++ [x.entry t a] }

/-- The command at place `i` of a blade's acceptance order is executed. -/
def State.runTaken (s : State) (b i : Nat) (m : Medium) : State :=
  match s.blade b with
  | none => s
  | some x =>
    match x.taken[i]? with
    | none => s
    | some t =>
      let (a, x') := x.run s.wireNow t.port (Config.freeByte s.draws) m t.cmd
      ({ s with draws := s.draws + 1 }).answer b (x'.leave s.wireNow i) t a

/-- The first `n` taken commands executed in order; what their media do is open. -/
def State.drainTaken (s : State) (b : Nat) : Nat → State
  | 0 => s
  | n + 1 => (s.runTaken b 0 (Config.freeMedium s.draws)).drainTaken b n

/-- The commands a blade has taken up to the last that `c` has to wait for are executed (R296, R305). -/
def State.drainFor (s : State) (b : Nat) (x : Blade) (c : BCmd) : State :=
  s.drainTaken b ((x.taken.zipIdx.filter fun e => e.1.cmd.behind c).foldl (fun n e => max n (e.2 + 1)) 0)

/-- A blade command of opcode `op` is executed once it may be; commands of one queue may complete in any order (R293). -/
def State.bladeExec (s : State) (b i op : Nat) (m : Medium) : State :=
  match s.blade b with
  | none => s
  | some x =>
    match x.taken[i]? with
    | none => s
    | some t => if t.cmd.op == op && x.powered && x.rdy && !x.fatal && x.mayRun s.wireNow i then s.runTaken b i m else s

/-- BCP_READ. -/
def execBcpRead (b i : Nat) (m : Medium) (s : State) : Host.Outcome State Fault Refusal := .next (s.bladeExec b i Bop.read m)
/-- BCP_PROGRAM. -/
def execBcpProgram (b i : Nat) (m : Medium) (s : State) : Host.Outcome State Fault Refusal :=
  .next (s.bladeExec b i Bop.program m)
/-- BCP_ERASE. -/
def execBcpErase (b i : Nat) (m : Medium) (s : State) : Host.Outcome State Fault Refusal := .next (s.bladeExec b i Bop.erase m)
/-- BCP_CLAIM. -/
def execBcpClaim (b i : Nat) (s : State) : Host.Outcome State Fault Refusal := .next (s.bladeExec b i Bop.claim (.done 0 false))
/-- BCP_RETIRE. -/
def execBcpRetire (b i : Nat) (s : State) : Host.Outcome State Fault Refusal := .next (s.bladeExec b i Bop.retire (.done 0 false))
/-- SET_EPOCH. -/
def execSetEpoch (b i : Nat) (s : State) : Host.Outcome State Fault Refusal := .next (s.bladeExec b i Bop.setEpoch (.done 0 false))
/-- RENEW. -/
def execRenew (b i : Nat) (s : State) : Host.Outcome State Fault Refusal := .next (s.bladeExec b i Bop.renew (.done 0 false))
/-- LEASE_RELEASE. -/
def execLeaseRelease (b i : Nat) (s : State) : Host.Outcome State Fault Refusal :=
  .next (s.bladeExec b i Bop.release (.done 0 false))
/-- EPOCH_READ. -/
def execEpochRead (b i : Nat) (s : State) : Host.Outcome State Fault Refusal :=
  .next (s.bladeExec b i Bop.epochRead (.done 0 false))
/-- BCP_IDENTIFY. -/
def execBcpIdentify (b i : Nat) (s : State) : Host.Outcome State Fault Refusal :=
  .next (s.bladeExec b i Bop.identify (.done 0 false))
/-- BCP_HEALTH; the hottest die and its temperature come from outside. -/
def execBcpHealth (b i : Nat) (temp : Int) (die : Nat) (s : State) : Host.Outcome State Fault Refusal :=
  let s := match s.blade b with
    | some x => s.setBlade b { x with hotTemp := temp, hotDie := die }
    | none => s
  .next (s.bladeExec b i Bop.health (.done 0 false))
/-- CLAIM_LIST. -/
def execClaimList (b i : Nat) (s : State) : Host.Outcome State Fault Refusal :=
  .next (s.bladeExec b i Bop.claimList (.done 0 false))
/-- EC_READ. -/
def execEcRead (b i : Nat) (s : State) : Host.Outcome State Fault Refusal := .next (s.bladeExec b i Bop.ecRead (.done 0 false))
/-- WIPE. -/
def execWipe (b i : Nat) (s : State) : Host.Outcome State Fault Refusal := .next (s.bladeExec b i Bop.wipe (.done 0 false))
/-- WIPE_CONSENT. -/
def execWipeConsent (b i : Nat) (s : State) : Host.Outcome State Fault Refusal :=
  .next (s.bladeExec b i Bop.wipeConsent (.done 0 false))

/-! ## Doorbells and registers of BAR0 -/

/-- The head's commands of a queue that wait for a slot. -/
def HeadPort.unsent (y : HeadPort) (q : Nat) : List Issued := y.issued.filter fun e => e.queue == q && e.slot.isNone

/-- Slots free before TAIL would stand 256 ahead of the latest SQ_HEAD received (R294). -/
def HeadPort.room (y : HeadPort) (q : Nat) : Nat := 255 - (Tab.getD y.tail q 0 + 256 - Tab.getD y.seen q 0) % 256

/-- Whether a slot's completion entry has not been read yet (R293). -/
def HeadPort.busy (y : HeadPort) (q slot : Nat) : Bool :=
  y.issued.any (fun e => e.queue == q && e.slot == some slot) || y.late.any fun e => e.1 == q && e.2.1 == slot

/-- Slots the head may fill now: as many as R294 lets it, up to the first whose completion entry has not been read. -/
def HeadPort.places (y : HeadPort) (q : Nat) : Nat :=
  ((List.range (y.room q)).takeWhile fun i => !y.busy q ((Tab.getD y.tail q 0 + i) % 256)).length

/-- The first `n` waiting commands of a queue placed in its slots from TAIL on; their CID is the slot (log entry 21). -/
def placeSlots (q : Nat) : Nat → Nat → List Issued → List Issued
  | _, _, [] => []
  | 0, _, es => es
  | n + 1, slot, e :: es =>
    if e.queue == q && e.slot.isNone then
      { e with slot := some slot, cmd := { e.cmd with img := splice e.cmd.img 2 (leBytes 2 slot) } }
        :: placeSlots q n ((slot + 1) % 256) es
    else e :: placeSlots q (n + 1) slot es

/-- BCP_SQ_DOORBELL: the blade takes the commands up to TAIL. Through this head's port they are those the head has issued,
as many as R294 lets it write; through the peer's port they are the operand's. -/
def execBcpSqDoorbell (b port queue : Nat) (cmds : List PeerCmd) (s : State) : Host.Outcome State Fault Refusal :=
  match s.blade b with
  | none => .next s
  | some x =>
    let y := x.port port
    if 1 < port || 15 < queue || !x.powered || !y.linkUp || !y.en then .next s
    else if port ≠ s.portNo b then
      .next (s.setBlade b (x.take port queue ((cmds.take 255).map fun c => ⟨(c.img ++ zeros 64).take 64, c.out, c.hdr⟩)))
    else
      let h := s.hport b
      let n := min (h.places queue) (h.unsent queue).length
      let t := Tab.getD h.tail queue 0
      let es := placeSlots queue n t h.issued
      let sent := (es.filter fun e => e.queue == queue && (h.unsent queue).length ≠ 0 && (match e.slot with
        | some i => (i + 256 - t) % 256 < n
        | none => false)).map (·.cmd)
      .next ((s.setBlade b (x.take port queue sent)).setHport b
        { h with issued := es, tail := Tab.set h.tail queue ((t + n) % 256) })

/-- BCP_CC_WRITE: EN of a blade port; 0 empties its queues (R309). -/
def execBcpCcWrite (b port : Nat) (en : Bool) (s : State) : Host.Outcome State Fault Refusal :=
  match s.blade b with
  | none => .next s
  | some x =>
    if 1 < port || !x.powered || !(x.port port).linkUp then .next s
    else
      let x := if en then x else x.emptyPort port
      .next (s.setBlade b (x.setPort port { x.port port with en := en }))

/-- SILENCE as a blade stores it: at least 256 (BCP_LEASE_CFG). -/
def silenceOf (v : Nat) : Nat := max 256 (v % 65536)

/-- BCP_LEASE_CFG_WRITE: SILENCE of one blade port; EFFECTIVE is the larger of the two. -/
def execBcpLeaseCfgWrite (b port v : Nat) (s : State) : Host.Outcome State Fault Refusal :=
  match s.blade b with
  | none => .next s
  | some x =>
    if 1 < port || !x.powered || !(x.port port).linkUp then .next s
    else .next (s.setBlade b (x.setPort port { x.port port with silence := silenceOf v }))

/-- A blade port loses its link; with `perst`, PERST_N resets it, and SILENCE returns to 256 (R309). -/
def State.cutBladePort (s : State) (b port : Nat) (perst : Bool) : State :=
  match s.blade b with
  | none => s
  | some x =>
    let x := x.emptyPort port
    let y := x.port port
    let y := { y with linkUp := false, downSince := if y.linkUp then s.wireNow else y.downSince }
    let y := if perst then { y with en := false, silence := 256, cqBase := 0 } else y
    s.setBlade b (x.setPort port y)

/-- PERST_ASSERT: PERST_N or loss of link on one blade port discards that port's commands only. -/
def execPerstAssert (b port : Nat) (perst : Bool) (s : State) : Host.Outcome State Fault Refusal :=
  if 1 < port then .next s else .next (s.cutBladePort b port perst)

/-! ## Power (R298, R302) -/

/-- The taken commands of the list `whole` are found done after the loss of power; a program that is not is torn. -/
def Blade.cut (x : Blade) (now : Nat) (g : Nat → Byte) (whole : List Nat) : Blade :=
  x.taken.zipIdx.foldl (fun x e =>
    let t := e.1
    if !(bcpMutating t.cmd.op || t.cmd.fence || t.cmd.op == Bop.wipe) then x
    else if whole.contains e.2 then (x.run now t.port g (.done 0 false) t.cmd).2
    else if t.cmd.op == Bop.program && (x.check now t.port t.cmd).isNone then x.program t.cmd .torn
    else x) x

/-- BLADE_POWER_LOSS: commands taken and not acknowledged are found whole or not at all; volatile state is dropped. -/
def execBladePowerLoss (b : Nat) (whole : List Nat) (s : State) : Host.Outcome State Fault Refusal :=
  match s.blade b with
  | none => .next s
  | some x =>
    if !x.powered then .next s
    else
      let x := x.cut s.wireNow (Config.freeByte s.draws) whole
      let down := fun (y : BladePort) => ({ downSince := if y.linkUp then s.wireNow else y.downSince } : BladePort)
      .next (({ s with draws := s.draws + 1 }).setBlade b { x with
        powered := false, rdy := false, fatal := false, taken := [], turn := none, bulk := 0, lead := [],
        port0 := down x.port0, port1 := down x.port1, powerLosses := satAdd x.powerLosses 1 32 })

/-- A blade as it leaves the factory: every shard with EPOCH 0 and RELEASED 1 (R302). -/
def factoryBlade (n : NewBlade) : Blade :=
  { id := { dies := n.dies, blocks := n.blocks, pagesQlc := n.pagesQlc, spare := n.spare, ratedEc := n.ratedEc, serial := n.serial },
    ppm := max (-500) (min 500 n.ppm) }

/-- Every shard's T_RENEW at the moment of power-up, and the ports as a reset leaves them. -/
def Blade.powerUp (x : Blade) (now : Nat) (whole : Bool) : Blade :=
  { x with
    powered := true, rdy := whole, fatal := !whole, taken := [],
    port0 := { downSince := now }, port1 := { downSince := now },
    recs := (List.range 256).foldl (fun t sh => Tab.set t sh { (Tab.getD x.recs sh ({} : EpochRec)) with tRenew := now }) x.recs }

/-- BLADE_POWER_UP: the blade behind BLD_b, or one newly put there, starts. It sets RDY once its durable records are found
whole, FATAL where they cannot be loaded (R302, R312). -/
def execBladePowerUp (b : Nat) (fresh : Option NewBlade) (whole : Bool) (s : State) : Host.Outcome State Fault Refusal :=
  if 15 < b then .next s
  else match (match fresh with
      | some n => some (factoryBlade n)
      | none => s.blade b) with
    | none => .next s
    | some x => if x.powered then .next s else .next (s.setBlade b (x.powerUp s.wireNow whole))

end Sys2Proof.Machine
end

