-- ==== Sys2Proof/Machine/Zstd.lean ====
section
/-! DEFINITION. Reading a Zstandard frame under RFC 8878, as far as the Churn reads one (R160 to R162). -/
namespace Sys2Proof.Machine
open Sys2Proof

/-- How reading a frame or a dictionary fails (R161). -/
inductive ZErr
  | unsupported
  | corrupt
  | missing    -- the frame names a dictionary that is not loaded
  | domain     -- the dictionary it names is bound to another domain
deriving DecidableEq, Repr

/-- Position of the highest 1 bit of `v` (0 for 0). -/
def topBit (v : Nat) : Nat := Nat.log2 v

/-! ## Bit readers -/

/-- A stream read from its end: the number its bytes spell and the bits not yet read, below 0 past the start. -/
structure BackBits where
  v : Nat
  left : Int
deriving DecidableEq, Repr

/-- A backward stream opens after the padding that ends with the highest 1 bit of its last byte. -/
def BackBits.open (bs : List Byte) : Except ZErr BackBits :=
  match bs.getLast? with
  | none => .error .corrupt
  | some l => if l = 0 then .error .corrupt else .ok ⟨leNat bs, (8 * (bs.length - 1) + topBit l.toNat : Nat)⟩

/-- `n` bits read backward; bits before the start read as 0. -/
def BackBits.read (b : BackBits) (n : Nat) : Nat × BackBits :=
  let p := b.left - n
  let x := if 0 ≤ p then b.v / 2 ^ p.toNat % 2 ^ n else if 0 ≤ b.left then b.v % 2 ^ b.left.toNat * 2 ^ (-p).toNat else 0
  (x, ⟨b.v, p⟩)

/-! ## FSE tables -/

/-- One state of a decoding table: symbol, bits to read, baseline of the next state. -/
structure FseRow where
  sym : Nat
  bits : Nat
  base : Nat
deriving DecidableEq, Repr

/-- A decoding table with its accuracy. -/
structure FseTab where
  al : Nat
  rows : Array FseRow
deriving DecidableEq, Repr

/-- Normalised counts read from a table description; `fuel` bounds the symbols. -/
def fseCounts (v maxSym : Nat) : Nat → Nat → Nat → List Int → Except ZErr (List Int × Nat)
  | 0, _, _, _ => .error .corrupt
  | fuel + 1, pos, remaining, acc =>
    if remaining = 0 then .ok (acc.reverse, pos)
    else if maxSym < acc.length then .error .corrupt
    else
      let bits := topBit (remaining + 1) + 1
      let raw := v / 2 ^ pos % 2 ^ bits
      let low := 2 ^ (bits - 1) - 1
      let thr := 2 ^ bits - 1 - (remaining + 1)
      let small := raw % 2 ^ (bits - 1) < thr
      let val := if small then raw % 2 ^ (bits - 1) else if low < raw then raw - thr else raw
      let pos := if small then pos + bits - 1 else pos + bits
      let p : Int := (val : Int) - 1
      let used := if val = 0 then 1 else val - 1
      if remaining < used then .error .corrupt
      else if val = 1 then
        let rec zerosAt : Nat → Nat → List Int → List Int × Nat
          | 0, pos, acc => (acc, pos)
          | f + 1, pos, acc =>
            let n := v / 2 ^ pos % 4
            let acc := List.replicate n 0 ++ acc
            if n = 3 then zerosAt f (pos + 2) acc else (acc, pos + 2)
        let (acc, pos) := zerosAt 128 pos (p :: acc)
        fseCounts v maxSym fuel pos remaining acc
      else fseCounts v maxSym fuel pos (remaining - used) (p :: acc)

/-- Places of the symbols in a table: the rare ones from its end, the others spread by the step of RFC 8878. -/
def fseSpread (size : Nat) (counts : List Int) : Array Nat :=
  let rare := (counts.zipIdx.filter fun e => e.1 == -1).map (·.2)
  let tab := rare.zipIdx.foldl (fun (t : Array Nat) e => t.setIfInBounds (size - 1 - e.2) e.1) (Array.replicate size 0)
  let high := size - rare.length
  let step := size / 2 + size / 8 + 3
  let next := fun p => (p + step) % size
  let skip := fun p => (List.range size).foldl (fun p _ => if high ≤ p then next p else p) p
  let syms := counts.zipIdx.flatMap fun e => List.replicate e.1.toNat e.2
  (syms.foldl (fun (tp : Array Nat × Nat) s => (tp.1.setIfInBounds tp.2 s, skip (next tp.2))) (tab, 0)).1

/-- The decoding table of normalised counts. -/
def fseBuild (al : Nat) (counts : List Int) : FseTab :=
  let size := 2 ^ al
  let spread := fseSpread size counts
  let next0 : Array Nat := (counts.map fun c => if c = -1 then 1 else c.toNat).toArray
  let rows := (spread.toList.foldl (fun (st : List FseRow × Array Nat) s =>
    let x := st.2.getD s 0
    let nb := al - topBit x
    (⟨s, nb, x * 2 ^ nb - size⟩ :: st.1, st.2.setIfInBounds s (x + 1))) ([], next0)).1
  ⟨al, rows.reverse.toArray⟩

/-- A table description: the table and the bytes it takes. -/
def fseRead (bs : List Byte) (maxAl maxSym : Nat) : Except ZErr (FseTab × Nat) := do
  let v := leNat (bs.take 256)
  let al := v % 16 + 5
  if maxAl < al then throw .corrupt
  let (cs, pos) ← fseCounts v maxSym 512 4 (2 ^ al) []
  if bs.length < (pos + 7) / 8 ∨ maxSym + 1 < cs.length then throw .corrupt
  return (fseBuild al cs, (pos + 7) / 8)

/-- A table whose only state gives `s`. -/
def fseRle (s : Nat) : FseTab := ⟨0, #[⟨s, 0, 0⟩]⟩

def FseTab.row (t : FseTab) (st : Nat) : FseRow := t.rows.getD st ⟨0, 0, 0⟩

/-! ## Huffman codes -/

/-- A Huffman table: entry by the next `bits` bits, as (symbol, length). -/
structure HufTab where
  bits : Nat
  rows : Array (Nat × Nat)
deriving DecidableEq, Repr

/-- The two interleaved states of a weight stream, symbol by symbol. -/
def fseWeights (t : FseTab) : Nat → BackBits → Nat → Nat → List Nat → Except ZErr (List Nat)
  | 0, _, _, _, _ => .error .corrupt
  | n + 1, b, s1, s2, acc =>
    let r := t.row s1
    let (x, b) := b.read r.bits
    let acc := r.sym :: acc
    if b.left < 0 then .ok (((t.row s2).sym :: acc).reverse)
    else fseWeights t n b s2 (r.base + x) acc

/-- The table of a list of weights; the last weight follows from the others. -/
def hufBuild (ws : List Nat) : Except ZErr HufTab := do
  let sum := (ws.map fun w => if w = 0 then 0 else 2 ^ (w - 1)).sum
  if sum = 0 then throw .corrupt
  let bits := topBit sum + 1
  let rest := 2 ^ bits - sum
  if 11 < bits ∨ 2 ^ topBit rest ≠ rest then throw .corrupt
  let ws := ws ++ [topBit rest + 1]
  let rows := (List.range bits).flatMap fun i =>
    (ws.zipIdx.filter fun e => e.1 == i + 1).flatMap fun e => List.replicate (2 ^ i) (e.2, bits - i)
  return ⟨bits, rows.toArray⟩

/-- A tree description: the table and the bytes it takes. -/
def hufRead (bs : List Byte) : Except ZErr (HufTab × Nat) := do
  let h := fieldAt bs 0 1
  if bs.isEmpty then throw .corrupt
  if 128 ≤ h then
    let n := h - 127
    let k := (n + 1) / 2
    if bs.length < 1 + k then throw .corrupt
    let ws := (List.range n).map fun i => fieldAt bs (1 + i / 2) 1 / (if i % 2 = 0 then 16 else 1) % 16
    return (← hufBuild ws, 1 + k)
  else
    let body := slice bs 1 h
    if body.length < h then throw .corrupt
    let (t, used) ← fseRead body 6 255
    let b ← BackBits.open (body.drop used)
    let (s1, b) := b.read t.al
    let (s2, b) := b.read t.al
    if b.left < 0 then throw .corrupt
    let ws ← fseWeights t 256 b s1 s2 []
    return (← hufBuild ws, 1 + h)

/-- Symbols of a Huffman stream until exactly its bits are used. -/
def hufSymbols (t : HufTab) : Nat → BackBits → Nat → List Nat → Except ZErr (List Nat)
  | 0, _, _, _ => .error .corrupt
  | n + 1, b, st, acc =>
    if b.left ≤ -(t.bits : Int) then (if b.left = -(t.bits : Int) then .ok acc.reverse else .error .corrupt)
    else
      let (s, nb) := t.rows.getD st (0, 0)
      let (x, b) := b.read nb
      hufSymbols t n b ((st * 2 ^ nb + x) % 2 ^ t.bits) (s :: acc)

/-- One Huffman stream of `n` symbols. -/
def hufStream (t : HufTab) (bs : List Byte) (n : Nat) : Except ZErr (List Byte) := do
  let b ← BackBits.open bs
  let (st, b) := b.read t.bits
  let syms ← hufSymbols t (n + 1) b st []
  if syms.length ≠ n then throw .corrupt
  return syms.map (BitVec.ofNat 8)

/-! ## Entropy state carried from block to block -/

/-- Tables for Repeat and Treeless modes, and the three recent offsets. -/
structure ZState where
  huf : Option HufTab := none
  ll : Option FseTab := none
  off : Option FseTab := none
  ml : Option FseTab := none
  r1 : Nat := 1
  r2 : Nat := 4
  r3 : Nat := 8
  win : Nat := 131072   -- Window_Size of the frame
  base : Nat := 0       -- bytes of dictionary content before its output
deriving DecidableEq, Repr

/-- The literals of a block and the bytes their section takes. -/
def litSection (z : ZState) (bs : List Byte) : Except ZErr (List Byte × Nat × ZState) := do
  if bs.isEmpty then throw .corrupt
  let b0 := fieldAt bs 0 1
  let ty := b0 % 4
  let sf := b0 / 4 % 4
  if ty < 2 then
    let (n, h) := if sf % 2 = 0 then (b0 / 8, 1) else if sf = 1 then (fieldAt bs 0 2 / 16, 2) else (fieldAt bs 0 3 / 16, 3)
    if 131072 < n then throw .corrupt
    if ty = 0 then
      if bs.length < h + n then throw .corrupt
      return (slice bs h n, h + n, z)
    else
      if bs.length < h + 1 then throw .corrupt
      return (List.replicate n (bs.getD h 0), h + 1, z)
  else
    let (h, w) := if sf < 2 then (3, 10) else if sf = 2 then (4, 14) else (5, 18)
    let x := fieldAt bs 0 h / 16
    let n := x % 2 ^ w
    let csize := x / 2 ^ w
    if bs.length < h + csize ∨ 131072 < n then throw .corrupt
    let body := slice bs h csize
    let (t, used) ← (if ty = 2 then hufRead body else match z.huf with
      | some t => .ok (t, 0)
      | none => .error .corrupt)
    let body := body.drop used
    let z := { z with huf := some t }
    if sf = 0 then return (← hufStream t body n, h + csize, z)
    else
      let n1 := fieldAt body 0 2
      let n2 := fieldAt body 2 2
      let n3 := fieldAt body 4 2
      if body.length < 6 + n1 + n2 + n3 ∨ n < 6 then throw .corrupt
      let q := (n + 3) / 4
      let a ← hufStream t (slice body 6 n1) q
      let b ← hufStream t (slice body (6 + n1) n2) q
      let c ← hufStream t (slice body (6 + n1 + n2) n3) q
      let d ← hufStream t (body.drop (6 + n1 + n2 + n3)) (n - 3 * q)
      return (a ++ b ++ c ++ d, h + csize, z)

/-- Default distributions of literal length, match length and offset codes. -/
def llDefault : FseTab := fseBuild 6 ([4, 3] ++ List.replicate 11 2 ++ List.replicate 3 1 ++ List.replicate 9 2 ++ [3, 2]
  ++ List.replicate 5 1 ++ List.replicate 4 (-1))
def mlDefault : FseTab := fseBuild 6 ([1, 4, 3, 2, 2, 2, 2, 2, 2] ++ List.replicate 37 1 ++ List.replicate 7 (-1))
def offDefault : FseTab := fseBuild 5 ([1, 1, 1, 1, 1, 1, 2, 2, 2] ++ List.replicate 15 1 ++ List.replicate 5 (-1))

/-- Baseline and extra bits of the `k`-th of the codes that have them: each baseline lies behind all values of the codes before. -/
def codeAt (base : Nat) (bits : List Nat) (k : Nat) : Nat × Nat :=
  if k < bits.length then (base + ((bits.take k).map (2 ^ ·)).sum, bits.getD k 0) else (0, 0)

/-- Baseline and extra bits of a literal length code. -/
def llCode (c : Nat) : Nat × Nat :=
  if c < 16 then (c, 0) else codeAt 16 ([1, 1, 1, 1, 2, 2, 3, 3, 4] ++ (List.range 11).map (· + 6)) (c - 16)

/-- Baseline and extra bits of a match length code. -/
def mlCode (c : Nat) : Nat × Nat :=
  if c < 32 then (c + 3, 0) else codeAt 35 ([1, 1, 1, 1, 2, 2, 3, 3, 4, 4, 5] ++ (List.range 10).map (· + 7)) (c - 32)

/-- The table a mode gives and the bytes it takes. -/
def seqTable (mode : Nat) (dflt : FseTab) (prev : Option FseTab) (bs : List Byte) (maxAl maxSym : Nat) :
    Except ZErr (FseTab × Nat) :=
  if mode = 0 then .ok (dflt, 0)
  else if mode = 1 then (match bs with
    | [] => .error .corrupt
    | b :: _ => if maxSym < b.toNat then .error .corrupt else .ok (fseRle b.toNat, 1))
  else if mode = 2 then fseRead bs maxAl maxSym
  else match prev with
    | some t => .ok (t, 0)
    | none => .error .corrupt

/-- The last `n` bytes put out, `dist` back, repeated as a match of length `len`. -/
def copyMatch (out : Array Byte) (dist : Nat) : Nat → Array Byte
  | 0 => out
  | n + 1 => copyMatch (out.push (out.getD (out.size - dist) 0)) dist n

/-- The offset of a sequence and the recent offsets after it. -/
def ZState.offset (z : ZState) (value ll : Nat) : Except ZErr (Nat × ZState) :=
  if 3 < value then .ok (value - 3, { z with r1 := value - 3, r2 := z.r1, r3 := z.r2 })
  else
    let idx := value - 1 + (if ll = 0 then 1 else 0)
    if idx = 0 then .ok (z.r1, z)
    else if idx = 1 then .ok (z.r2, { z with r1 := z.r2, r2 := z.r1 })
    else
      let o := if idx = 2 then z.r3 else z.r1 - 1
      if o = 0 then .error .corrupt else .ok (o, { z with r1 := o, r2 := z.r1, r3 := z.r2 })

/-- Whether an offset may be used with `size` bytes of dictionary and output there: it stays in the window, or reaches into the
dictionary while the output has not passed the window. -/
def ZState.reach (z : ZState) (size dist : Nat) : Bool :=
  (decide (dist ≤ size - z.base) && decide (dist ≤ z.win)) || (decide (dist ≤ size) && decide (size - z.base ≤ z.win))

/-- `n` sequences executed on the output. -/
def seqRun (tl tof tm : FseTab) : Nat → BackBits → Nat → Nat → Nat → List Byte → Array Byte → ZState →
    Except ZErr (List Byte × Array Byte × ZState)
  | 0, b, _, _, _, lits, out, z => if b.left = 0 then .ok (lits, out, z) else .error .corrupt
  | n + 1, b, sl, so, sm, lits, out, z => do
    let rl := tl.row sl
    let ro := tof.row so
    let rm := tm.row sm
    if 31 < ro.sym ∨ 35 < rl.sym ∨ 52 < rm.sym then throw .corrupt
    let (xo, b) := b.read ro.sym
    let (xm, b) := b.read (mlCode rm.sym).2
    let (xl, b) := b.read (llCode rl.sym).2
    let ll := (llCode rl.sym).1 + xl
    let mlen := (mlCode rm.sym).1 + xm
    let (dist, z) ← z.offset (2 ^ ro.sym + xo) ll
    if lits.length < ll then throw .corrupt
    let out := (lits.take ll).foldl (fun (o : Array Byte) x => o.push x) out
    if !z.reach out.size dist then throw .corrupt
    let out := copyMatch out dist mlen
    let (b, sl, so, sm) :=
      if n = 0 then (b, sl, so, sm)
      else
        let (x, b) := b.read rl.bits
        let (y, b) := b.read rm.bits
        let (w, b) := b.read ro.bits
        (b, rl.base + x, ro.base + w, rm.base + y)
    if b.left < 0 then throw .corrupt
    seqRun tl tof tm n b sl so sm (lits.drop ll) out z

/-- A compressed block appended to the output. -/
def zBlock (z : ZState) (out : Array Byte) (bs : List Byte) : Except ZErr (Array Byte × ZState) := do
  let (lits, used, z) ← litSection z bs
  let bs := bs.drop used
  if bs.isEmpty then throw .corrupt
  let b0 := fieldAt bs 0 1
  let (n, h) := if b0 < 128 then (b0, 1) else if b0 < 255 then ((b0 - 128) * 256 + fieldAt bs 1 1, 2)
    else (fieldAt bs 1 2 + 0x7F00, 3)
  if bs.length < h then throw .corrupt
  if n = 0 then
    if bs.length ≠ 1 then throw .corrupt
    return (lits.foldl (fun (o : Array Byte) x => o.push x) out, z)
  else
    let modes := fieldAt bs h 1
    if bs.length < h + 1 ∨ modes % 4 ≠ 0 then throw .corrupt
    let bs := bs.drop (h + 1)
    let (tl, k) ← seqTable (modes / 64) llDefault z.ll bs 9 35
    let bs := bs.drop k
    let (tof, k) ← seqTable (modes / 16 % 4) offDefault z.off bs 8 31
    let bs := bs.drop k
    let (tm, k) ← seqTable (modes / 4 % 4) mlDefault z.ml bs 9 52
    let bs := bs.drop k
    let b ← BackBits.open bs
    let (sl, b) := b.read tl.al
    let (so, b) := b.read tof.al
    let (sm, b) := b.read tm.al
    if b.left < 0 then throw .corrupt
    let (rest, out, z) ← seqRun tl tof tm n b sl so sm lits out { z with ll := some tl, off := some tof, ml := some tm }
    return (rest.foldl (fun (o : Array Byte) x => o.push x) out, z)

/-- The blocks of a frame, each no larger than the window or 128 KiB; `limit` is the largest content R161 allows. -/
def zBlocks (limit : Nat) : Nat → ZState → Array Byte → List Byte → Except ZErr (Array Byte × List Byte)
  | 0, _, _, _ => .error .corrupt
  | fuel + 1, z, out, bs => do
    if bs.length < 3 then throw .corrupt
    let h := fieldAt bs 0 3
    let ty := h / 2 % 4
    let n := h / 8
    let bs := bs.drop 3
    let most := min z.win 131072
    if ty = 3 ∨ most < n then throw .corrupt
    let stored := if ty = 1 then 1 else n
    if bs.length < stored then throw .corrupt
    let size := out.size
    let (out, z) ← (if ty = 0 then .ok ((bs.take n).foldl (fun (o : Array Byte) x => o.push x) out, z)
      else if ty = 1 then .ok ((List.replicate n (bs.getD 0 0)).foldl (fun (o : Array Byte) x => o.push x) out, z)
      else zBlock z out (bs.take n))
    if most < out.size - size then throw .corrupt
    if z.base + limit < out.size then throw .unsupported
    if h % 2 = 1 then return (out, bs.drop stored)
    else zBlocks limit fuel z out (bs.drop stored)

/-! ## XXH64, the Content_Checksum -/

def xxP1 : BitVec 64 := 0x9E3779B185EBCA87#64
def xxP2 : BitVec 64 := 0xC2B2AE3D27D4EB4F#64
def xxP3 : BitVec 64 := 0x165667B19E3779F9#64
def xxP4 : BitVec 64 := 0x85EBCA77C2B2AE63#64
def xxP5 : BitVec 64 := 0x27D4EB2F165667C5#64

def xxRound (acc x : BitVec 64) : BitVec 64 := (acc + x * xxP2).rotateLeft 31 * xxP1

def xxWord (bs : List Byte) (i : Nat) : BitVec 64 := BitVec.ofNat 64 (fieldAt bs (8 * i) 8)

/-- Whole 32-byte stripes into the four accumulators. -/
def xxStripes : Nat → List Byte → BitVec 64 × BitVec 64 × BitVec 64 × BitVec 64 → BitVec 64 × BitVec 64 × BitVec 64 × BitVec 64
  | 0, _, a => a
  | n + 1, bs, (a, b, c, d) =>
    xxStripes n (bs.drop 32) (xxRound a (xxWord bs 0), xxRound b (xxWord bs 1), xxRound c (xxWord bs 2), xxRound d (xxWord bs 3))

/-- The bytes after the last stripe. -/
def xxTail : Nat → List Byte → BitVec 64 → BitVec 64
  | 0, _, h => h
  | n + 1, bs, h =>
    if 8 ≤ bs.length then xxTail n (bs.drop 8) ((h ^^^ xxRound 0 (xxWord bs 0)).rotateLeft 27 * xxP1 + xxP4)
    else if 4 ≤ bs.length then
      xxTail n (bs.drop 4) ((h ^^^ (BitVec.ofNat 64 (fieldAt bs 0 4) * xxP1)).rotateLeft 23 * xxP2 + xxP3)
    else match bs with
      | [] => h
      | x :: t => xxTail n t ((h ^^^ (x.setWidth 64 * xxP5)).rotateLeft 11 * xxP1)

/-- XXH64 with seed 0. -/
def xxh64 (bs : List Byte) : BitVec 64 :=
  let n := bs.length / 32
  let h :=
    if n = 0 then xxP5
    else
      let (a, b, c, d) := xxStripes n bs (xxP1 + xxP2, xxP2, 0, 0 - xxP1)
      let h := a.rotateLeft 1 + b.rotateLeft 7 + c.rotateLeft 12 + d.rotateLeft 18
      [a, b, c, d].foldl (fun h v => (h ^^^ xxRound 0 v) * xxP1 + xxP4) h
  let h := xxTail bs.length (bs.drop (32 * n)) (h + BitVec.ofNat 64 bs.length)
  let h := (h ^^^ (h >>> 33)) * xxP2
  let h := (h ^^^ (h >>> 29)) * xxP3
  h ^^^ (h >>> 32)

/-! ## Dictionaries and frames -/

/-- A parsed dictionary: its entropy state and its content (R162). -/
structure ZDict where
  init : ZState
  content : List Byte
deriving DecidableEq, Repr

/-- A dictionary parsed: raw content, or the form of RFC 8878 with its tables and recent offsets. -/
def dictParse (bs : List Byte) : Except ZErr ZDict := do
  if fieldAt bs 0 4 ≠ 0xEC30A437 ∨ bs.length < 8 then return ⟨{}, bs⟩
  else
    let rest := bs.drop 8
    let (h, k) ← hufRead rest
    let rest := rest.drop k
    let (tof, k) ← fseRead rest 8 31
    let rest := rest.drop k
    let (tm, k) ← fseRead rest 9 52
    let rest := rest.drop k
    let (tl, k) ← fseRead rest 9 35
    let rest := rest.drop k
    let content := rest.drop 12
    let r := fun i => fieldAt rest (4 * i) 4
    if rest.length < 12 ∨ (List.range 3).any (fun i => r i = 0 ∨ content.length < r i) then throw .corrupt
    return ⟨{ huf := some h, ll := some tl, off := some tof, ml := some tm, r1 := r 0, r2 := r 1, r3 := r 2 }, content⟩

/-- The content of one whole frame. `dict` gives the dictionary of a non-zero Dictionary_ID, or says why it cannot be used. -/
def zstdDecode (dict : Nat → Except ZErr ZDict) (bs : List Byte) : Except ZErr (List Byte) := do
  let magic := fieldAt bs 0 4
  if bs.length < 6 then throw .corrupt
  if (0xFD2FB522 ≤ magic ∧ magic ≤ 0xFD2FB527) ∨ (0x184D2A50 ≤ magic ∧ magic ≤ 0x184D2A5F) then throw .unsupported
  if magic ≠ 0xFD2FB528 then throw .corrupt
  let d := fieldAt bs 4 1
  if d.testBit 3 then throw .corrupt
  let single := d.testBit 5
  let wlen := if single then 0 else 1
  let dlen := [0, 1, 2, 4].getD (d % 4) 0
  let flen := if d / 64 = 0 then (if single then 1 else 0) else 2 ^ (d / 64)
  if bs.length < 5 + wlen + dlen + flen then throw .corrupt
  let w := fieldAt bs 5 wlen
  let window := 2 ^ (10 + w / 8) + 2 ^ (10 + w / 8) / 8 * (w % 8)
  let id := fieldAt bs (5 + wlen) dlen
  let fcs := fieldAt bs (5 + wlen + dlen) flen + (if flen = 2 then 256 else 0)
  if (!single ∧ 131072 < window) ∨ (0 < flen ∧ 131072 < fcs) then throw .unsupported
  let dct ← (if id = 0 then .ok ⟨{}, []⟩ else dict id)
  let base := dct.content.length
  let z := { dct.init with win := if single then fcs else window, base := base }
  let (out, rest) ← zBlocks 131072 (bs.length + 1) z dct.content.toArray (bs.drop (5 + wlen + dlen + flen))
  let content := out.toList.drop base
  if 0 < flen ∧ content.length ≠ fcs then throw .corrupt
  if d.testBit 2 then
    if rest.length ≠ 4 ∨ fieldAt rest 0 4 ≠ (xxh64 content).toNat % 2 ^ 32 then throw .corrupt
    return content
  else if rest.isEmpty then return content
  else throw .corrupt

end Sys2Proof.Machine
end

