-- ==== Sys2Proof/Machine/Curd.lean ====
section
/-! DEFINITION. Curds: the header and payload of R164 and R165, the checks of R166, and protection information guards
(R95, R96). -/
namespace Sys2Proof.Machine
open Sys2Proof

/-! ## Guards -/

/-- One byte of the 16-bit guard: the T10-DIF CRC, polynomial 0x8BB7. -/
def crc16Byte (c : BitVec 16) (b : Byte) : BitVec 16 :=
  (List.range 8).foldl (fun c _ => if c.msb then (c <<< 1) ^^^ 0x8BB7#16 else c <<< 1) (c ^^^ (b.setWidth 16 <<< 8))

/-- The 16-bit guard of data. -/
def guard16 (bs : List Byte) : Nat := (bs.foldl crc16Byte 0).toNat

/-- One byte of the 64-bit guard: reflected, polynomial 0xAD93D23594C93659. -/
def crc64Byte (c : BitVec 64) (b : Byte) : BitVec 64 :=
  (List.range 8).foldl (fun c _ => if c.getLsbD 0 then (c >>> 1) ^^^ 0x9A6C9329AC4BC9B5#64 else c >>> 1) (c ^^^ b.setWidth 64)

/-- The 64-bit guard of data. -/
def guard64 (bs : List Byte) : Nat := (~~~ (bs.foldl crc64Byte (BitVec.allOnes 64))).toNat

/-- The 16 guard bytes of a block under a PI_KIND (R169). -/
def guardBytes (kind : Nat) (block : List Byte) : List Byte :=
  if kind = 1 then leBytes 2 (guard16 block) ++ zeros 14
  else if kind = 2 then leBytes 8 (guard64 block) ++ zeros 8
  else if kind = 3 then (List.range 8).flatMap fun i => leBytes 2 (guard16 (slice block (512 * i) 512))
  else zeros 16

/-- Guard bytes of the field that a PI_KIND uses. -/
def guardLen (kind : Nat) : Nat := if kind = 1 then 2 else if kind = 2 then 8 else if kind = 3 then 16 else 0

/-! ## Headers -/

def Ck.journal : Nat := 0
def Ck.set : Nat := 1
def Ck.packed : Nat := 2

/-- A curd header (R164). -/
structure Curd where
  kind : Nat
  count : Nat
  owner : Nat
  dict : Nat
  stored : Nat
  lens : List Nat      -- 8 frame lengths
  raws : List Bool     -- 8 RAW bits
  crcs : List Nat      -- 8 block checks
deriving DecidableEq, Repr

/-- The header read from the bytes of a curd. -/
def curdOf (bs : List Byte) : Curd where
  kind := fieldAt bs 3 1 % 4
  count := fieldAt bs 3 1 / 4 % 8 + 1
  owner := fieldAt bs 4 4
  dict := fieldAt bs 8 2
  stored := fieldAt bs 12 4
  lens := (List.range 8).map fun i => fieldAt bs (16 + 4 * i) 2
  raws := (List.range 8).map fun i => (fieldAt bs (18 + 4 * i) 1).testBit 0
  crcs := (List.range 8).map fun i => fieldAt bs (48 + 4 * i) 4

/-- Reserved bits of an OWNER field. -/
def ownerOk (o : Nat) : Bool := if o.testBit 31 then decide (o % 2 ^ 31 < 2 ^ 18) else decide (o < 2 ^ 12)

/-- Whether an entry at place `i` obeys step 2 of R166. -/
def Curd.entryOk (c : Curd) (i : Nat) : Bool :=
  let n := c.lens.getD i 0
  let raw := c.raws.getD i false
  if c.count ≤ i then n == 0 && !raw && c.crcs.getD i 0 == 0
  else if c.kind = Ck.packed then
    (if i = 0 then !raw && decide (1 ≤ n) && decide (n < c.count * 4096) else n == 0 && !raw)
  else if raw then n == 4096 else decide (1 ≤ n) && decide (n ≤ 4095)

/-- Steps 1 to 3 of R166. -/
def curdParse (bs : List Byte) : Except Nat Curd :=
  let c := curdOf bs
  if bs.length < 96 then .error St.lengthMismatch
  else if fieldAt bs 0 2 ≠ 0xC0D5 ∨ fieldAt bs 2 1 ≠ 1 ∨ 32 ≤ fieldAt bs 3 1 ∨ ownerOk c.owner = false ∨ fieldAt bs 10 2 ≠ 0
      ∨ ((List.range 8).any fun i => 2 ≤ fieldAt bs (18 + 4 * i) 2) = true ∨ fieldAt bs 80 12 ≠ 0
      ∨ fieldAt bs 92 4 ≠ crc32c (bs.take 92) ∨ 2 < c.kind ∨ (c.kind = Ck.journal ∧ c.count ≠ 1)
      ∨ (c.kind = Ck.packed ∧ c.count < 2) ∨ (c.kind = Ck.set ∧ c.dict ≠ 0)
      ∨ ((List.range 8).all c.entryOk) = false then .error St.curdFormat
  else if bs.length ≠ alignUp (96 + c.stored) 32 ∨ c.lens.sum ≠ c.stored then .error St.lengthMismatch
  else .ok c

/-- Status of a failed frame. -/
def ZErr.status : ZErr → Nat
  | .unsupported => St.zstdUnsupported
  | .corrupt => St.zstdCorrupt
  | .missing => St.dictMissing
  | .domain => St.dictDomain

/-- Dictionary_ID of a frame. -/
def frameDict (bs : List Byte) : Nat :=
  let d := fieldAt bs 4 1
  fieldAt bs (5 + if d.testBit 5 then 0 else 1) ([0, 1, 2, 4].getD (d % 4) 0)

/-- Whether an owner may use the dictionary of domain `dom` (R162). -/
def dictFits (owner dom : Nat) : Bool := !owner.testBit 31 && owner % 4096 == dom

/-- The dictionary of a Dictionary_ID for an owner: a volume uses none, a domain its own (R162). -/
def dictFor (dicts : Nat → Option ChurnDict) (owner id : Nat) : Except ZErr ZDict :=
  match dicts id with
  | none => .error (if owner.testBit 31 then .domain else .missing)
  | some d => if dictFits owner d.domain then (dictParse d.bytes).mapError fun _ => .missing else .error .domain

/-- One frame of a curd decoded to `n` blocks (step 5). -/
def curdFrame (dicts : Nat → Option ChurnDict) (owner n : Nat) (bs : List Byte) : Except Nat (List Byte) :=
  match zstdDecode (dictFor dicts owner) bs with
  | .error e => .error e.status
  | .ok out => if out.length = n * 4096 then .ok out else .error St.zstdUnsupported

/-- Where the frame of entry `i` starts. -/
def Curd.start (c : Curd) (i : Nat) : Nat := 96 + (c.lens.take i).sum

/-- Block `i` of a JOURNAL or SET curd. -/
def Curd.setBlock (dicts : Nat → Option ChurnDict) (c : Curd) (bs : List Byte) (i : Nat) : Except Nat (List Byte) :=
  let f := slice bs (c.start i) (c.lens.getD i 0)
  if c.raws.getD i false then .ok f else curdFrame dicts c.owner 1 f

/-- The check of step 6 on block `i`. -/
def Curd.checkBlock (c : Curd) (i : Nat) (b : List Byte) : Except Nat (List Byte) :=
  if crc32c b = c.crcs.getD i 0 then .ok b else .error St.curdCrc

/-- Steps 1 to 6 of R166: the blocks a DECOMPRESS of `blk` (15: all) produces, each checked. -/
def curdRead (dicts : Nat → Option ChurnDict) (bs : List Byte) (blk : Nat) : Except Nat (List (List Byte)) := do
  let c ← curdParse bs
  if c.count ≤ blk ∧ blk ≠ 15 then throw St.churnBlockRange
  let want := if blk = 15 then List.range c.count else [blk]
  if c.kind = Ck.packed then
    let all ← curdFrame dicts c.owner c.count (slice bs 96 (c.lens.getD 0 0))
    want.mapM fun i => c.checkBlock i (slice all (4096 * i) 4096)
  else
    let bks ← want.mapM (c.setBlock dicts bs)
    (want.zip bks).mapM fun e => c.checkBlock e.1 e.2

/-! ## Writing -/

/-- The bytes of a header. -/
def Curd.bytes (c : Curd) : List Byte :=
  let h := leBytes 2 0xC0D5 ++ leBytes 1 1 ++ leBytes 1 (c.kind + (c.count - 1) * 4) ++ leBytes 4 c.owner ++ leBytes 2 c.dict
    ++ zeros 2 ++ leBytes 4 c.stored
    ++ (List.range 8).flatMap (fun i => leBytes 4 (c.lens.getD i 0 + (if c.raws.getD i false then 65536 else 0)))
    ++ (List.range 8).flatMap (fun i => leBytes 4 (c.crcs.getD i 0)) ++ zeros 12
  h ++ leBytes 4 (crc32c h)

/-- A curd of a kind: entries as (bytes, RAW), the blocks it stores. -/
def curdMake (kind owner dict : Nat) (entries : List (List Byte × Bool)) (blocks : List (List Byte)) : List Byte :=
  let payload := entries.flatMap (·.1)
  let pad := fun (t : List Nat) => t ++ List.replicate (8 - t.length) 0
  let c : Curd := ⟨kind, blocks.length, owner, dict, payload.length, pad (entries.map (·.1.length)),
    entries.map (·.2), pad (blocks.map crc32c)⟩
  c.bytes ++ payload ++ zeros (alignUp (96 + payload.length) 32 - (96 + payload.length))

/-- Whether a frame has the form of R160: its first block is its last. -/
def frameForm (dict : Nat) (f : List Byte) : Bool :=
  let d := fieldAt f 4 1
  d / 64 == 1 && d.testBit 5 && !d.testBit 2 && d % 4 == (if dict = 0 then 0 else 2) && frameDict f == dict &&
    (fieldAt f (if dict = 0 then 7 else 9) 1).testBit 0

/-- The frame the Churn writes for data, if it is one that gives the data back and is shorter than them (R160, R165). -/
def churnFrame (dicts : Nat → Option ChurnDict) (owner level dict : Nat) (data : List Byte) : Option (List Byte) :=
  let f := Config.churnFrame level dict (((dicts dict).map (·.bytes)).getD []) data
  match curdFrame dicts owner (data.length / 4096) f with
  | .ok x => if x = data ∧ frameForm dict f = true ∧ f.length < data.length then some f else none
  | .error _ => none

/-- The curd of 1 to 8 blocks: JOURNAL for one, PACKED for more, or a SET of raw blocks where a frame saves nothing
(R165). -/
def curdCompress (dicts : Nat → Option ChurnDict) (owner level dict : Nat) (blocks : List (List Byte)) : List Byte :=
  let frame := churnFrame dicts owner level dict blocks.flatten
  match blocks, frame with
  | [b], some f => curdMake Ck.journal owner dict [(f, false)] [b]
  | [b], none => curdMake Ck.journal owner 0 [(b, true)] [b]
  | bs, some f => curdMake Ck.packed owner dict [(f, false)] bs
  | bs, none => curdMake Ck.set owner 0 (bs.map fun b => (b, true)) bs

/-- A SET curd of the frames of JOURNAL curds, copied unchanged (R165, R255). -/
def curdSet (owner : Nat) (curds : List (List Byte)) : List Byte :=
  let hs := curds.map curdOf
  let payload := curds.flatMap fun b => slice b 96 (curdOf b).stored
  let pad := fun (t : List Nat) => t ++ List.replicate (8 - t.length) 0
  let c : Curd := ⟨Ck.set, curds.length, owner, 0, payload.length, pad (hs.map fun h => h.lens.getD 0 0),
    hs.map fun h => h.raws.getD 0 false, pad (hs.map fun h => h.crcs.getD 0 0)⟩
  c.bytes ++ payload ++ zeros (alignUp (96 + payload.length) 32 - (96 + payload.length))

end Sys2Proof.Machine
end

