-- ==== Sys2Proof/Machine/DescTable.lean ====
section
/-! DEFINITION. The opcode tables of the chapters as data, and the general checks of R526 that every unit makes before it
starts a descriptor. -/
namespace Sys2Proof.Machine
open Sys2Proof

/-- An opcode of a unit: where CHAIN and URGENT are allowed, whether TENANT may be other than 0, which of SOURCE,
DESTINATION and LENGTH it uses, and the bits it uses outside the common header, as (bit offset, width). -/
structure OpRow where
  units : List UnitId
  opcode : Nat
  chain : Bool
  urgent : Bool
  tenant : Bool
  src : Bool
  dst : Bool
  len : Bool
  used : List (Nat × Nat)
deriving DecidableEq, Repr

/-- Opcode rows, part 0. -/
def opRows0 : List OpRow := [
  ⟨[.railA, .railB], Op.qpModify, true, false, false, false, false, false, [(224, 32), (256, 8), (264, 3), (272, 8), (280, 8), (288, 24), (320, 24), (352, 24), (384, 5), (392, 3), (396, 3), (400, 5), (408, 5), (416, 20)]⟩,
  ⟨[.railA, .railB], Op.qpQuery, false, false, false, false, true, true, [(224, 32)]⟩,
  ⟨[.railC], Op.mrRegister, false, false, false, true, false, true, [(224, 32), (256, 20), (288, 4), (320, 64)]⟩,
  ⟨[.railC], Op.mrInvalidate, false, false, false, false, false, false, [(224, 32)]⟩,
  ⟨[.railA, .railB], Op.postSend, false, false, false, true, false, true, [(48, 8), (224, 32), (256, 32), (288, 32), (320, 64), (384, 32)]⟩,
  ⟨[.railA, .railB], Op.postRecv, false, false, false, false, true, true, [(224, 32), (256, 32)]⟩,
  ⟨[.railA, .railB], Op.pktTx, false, false, false, true, false, true, [(48, 8)]⟩,
  ⟨[.railA, .railB], Op.pktRxBuf, false, false, false, false, true, true, []⟩,
  ⟨[.railA, .railB], Op.tcpInstall, true, false, false, false, false, false, [(224, 32), (256, 16), (272, 16), (288, 32), (320, 32), (352, 32), (384, 8), (392, 4), (400, 16), (416, 32), (448, 2), (456, 8), (464, 8)]⟩,
  ⟨[.railA, .railB], Op.tcpRelease, false, false, false, false, false, false, [(224, 32)]⟩,
  ⟨[.railA, .railB], Op.odpWait, false, false, false, false, false, false, []⟩,
  ⟨[.par], Op.volSet, false, false, false, true, false, true, [(224, 18)]⟩,
  ⟨[.par], Op.tenantSet, false, false, true, true, false, true, []⟩,
  ⟨[.par], Op.queueBind, false, false, false, false, false, false, [(224, 17), (256, 16), (272, 16), (288, 16), (304, 8)]⟩,
  ⟨[.par], Op.queueDelete, false, false, false, false, false, false, [(256, 16), (272, 16)]⟩,
  ⟨[.par], Op.ctrlReset, false, false, false, false, false, false, [(256, 16), (288, 1)]⟩,
  ⟨[.par], Op.adminFetch, false, false, false, false, true, true, []⟩,
  ⟨[.par], Op.adminComplete, false, false, false, true, false, true, [(256, 16), (272, 16), (288, 128)]⟩,
  ⟨[.par], Op.aenPost, false, false, false, false, false, false, [(256, 16), (288, 32)]⟩,
  ⟨[.par], Op.anaRead, false, false, false, false, true, true, [(256, 16), (288, 1)]⟩,
  ⟨[.sep], Op.domainSet, false, false, false, true, false, true, [(224, 16)]⟩,
  ⟨[.sep], Op.lookup, false, false, true, true, false, true, [(224, 16), (240, 1)]⟩,
  ⟨[.sep], Op.insert, false, false, true, true, false, true, [(224, 16), (240, 8), (256, 32), (320, 64)]⟩,
  ⟨[.sep], Op.refAdjust, false, false, false, true, false, false, [(224, 32), (256, 3), (320, 64)]⟩,
  ⟨[.sep], Op.relocate, false, false, false, true, false, false, [(320, 64), (384, 64)]⟩,
  ⟨[.sep], Op.mergeScan, false, false, false, true, true, true, [(224, 32)]⟩,
  ⟨[.sep], Op.shardState, false, false, false, false, false, false, [(224, 8), (232, 8)]⟩,
  ⟨[.churn], Op.compress, false, false, true, true, true, true, [(224, 32), (256, 16), (272, 8), (288, 32)]⟩,
  ⟨[.churn], Op.decompress, false, false, true, true, true, true, [(224, 32), (256, 8), (264, 8), (272, 2), (320, 128)]⟩,
  ⟨[.churn], Op.recast, true, false, true, true, true, true, [(224, 32), (256, 16), (272, 8), (280, 8)]⟩,
  ⟨[.churn], Op.dictLoad, false, false, true, true, false, true, [(256, 16), (272, 16)]⟩,
  ⟨[.churn], Op.dictDrop, false, false, true, false, false, false, [(256, 16)]⟩]

/-- Opcode rows, part 1. -/
def opRows1 : List OpRow := [
  ⟨[.press], Op.hash, false, false, true, true, true, true, [(48, 2), (224, 8), (232, 8), (240, 1), (256, 48), (320, 32), (384, 64)]⟩,
  ⟨[.press], Op.ctxClose, false, false, true, false, false, false, [(224, 8)]⟩,
  ⟨[.carc], Op.encode, false, false, false, true, false, true, [(224, 8), (232, 8)]⟩,
  ⟨[.carc], Op.decode, false, true, false, true, false, true, [(224, 8), (232, 8), (256, 16), (272, 16)]⟩,
  ⟨[.carc], Op.patchDelta, false, false, false, true, false, true, [(224, 8), (232, 8), (240, 8)]⟩,
  ⟨[.carc], Op.verify, false, false, false, true, false, true, [(224, 8), (232, 8)]⟩,
  ⟨[.carc], Op.locate, false, false, false, false, false, false, [(224, 8), (232, 8), (256, 32), (288, 8)]⟩,
  ⟨[.carc], Op.intentAcquire, false, false, false, false, false, false, [(224, 8), (232, 8), (256, 32)]⟩,
  ⟨[.carc], Op.intentRelease, false, false, false, false, false, false, [(224, 8), (232, 8), (256, 32)]⟩,
  ⟨[.carc], Op.rebuildCtl, false, false, false, false, false, false, [(224, 8), (232, 8), (240, 8)]⟩,
  ⟨[.carc], Op.resync, false, false, false, false, false, false, [(224, 8), (232, 8), (256, 32), (288, 32)]⟩,
  ⟨[.carc], Op.genSet, false, false, false, true, false, true, [(224, 8), (232, 8), (240, 2)]⟩,
  ⟨[.cell], Op.bladeAttach, false, false, false, false, false, false, [(224, 8), (232, 1)]⟩,
  ⟨[.cell], Op.bladeDetach, false, false, false, false, false, false, [(224, 8)]⟩,
  ⟨[.cell], Op.laneSet, false, false, false, false, false, false, [(224, 8), (232, 8), (240, 1), (256, 16)]⟩,
  ⟨[.cell], Op.shardLoad, false, false, false, false, false, false, [(224, 8), (232, 1), (256, 64)]⟩,
  ⟨[.cell], Op.shardRelease, false, false, false, false, false, false, [(224, 8)]⟩,
  ⟨[.cell], Op.checkpoint, false, false, false, false, false, false, [(224, 8)]⟩,
  ⟨[.cell], Op.foldNow, false, false, false, false, false, false, [(224, 8)]⟩,
  ⟨[.cell], Op.reclaim, false, false, false, false, false, false, [(224, 8), (256, 64)]⟩,
  ⟨[.cell], Op.healthNow, false, false, false, false, false, false, [(224, 8)]⟩,
  ⟨[.bld], Op.pass, false, false, false, true, true, true, [(224, 8)]⟩,
  ⟨[.ten], Op.mailSend, false, false, false, true, false, true, [(224, 32)]⟩,
  ⟨[.ten], Op.mailRecv, false, false, false, false, true, true, []⟩,
  ⟨[.lease], Op.handoffBegin, false, false, false, false, false, false, [(224, 8)]⟩,
  ⟨[.lease], Op.handoffCommit, false, false, false, false, false, false, [(224, 8)]⟩,
  ⟨[.lease], Op.handoffAbort, false, false, false, false, false, false, [(224, 8)]⟩,
  ⟨[.lease], Op.take, false, false, false, false, false, false, [(224, 8)]⟩,
  ⟨[.lease], Op.drain, false, false, false, false, false, false, []⟩,
  ⟨[.lease], Op.undrain, false, false, false, false, false, false, []⟩,
  ⟨[.lease], Op.eventWait, false, false, false, false, false, false, []⟩,
  ⟨[.cool], Op.cleanRange, false, false, false, true, false, true, []⟩]

/-- Opcode rows, part 2. -/
def opRows2 : List OpRow := [
  ⟨[.cool], Op.flushRange, false, false, false, true, false, true, []⟩,
  ⟨[.cool], Op.cleanAll, false, false, false, false, false, false, []⟩,
  ⟨[.cool], Op.flushWays, false, false, false, false, false, false, [(224, 16)]⟩,
  ⟨[.cool], Op.sliceRetire, false, false, false, false, false, false, [(224, 8), (232, 8)]⟩,
  ⟨[.cool], Op.sliceRestore, false, false, false, false, false, false, [(224, 8)]⟩,
  ⟨[.vat], Op.pailAlloc, false, false, false, false, true, true, [(224, 8), (232, 8)]⟩,
  ⟨[.vat], Op.pailFree, false, false, false, true, false, true, [(232, 8)]⟩,
  ⟨[.sec], Op.random, false, false, false, false, true, true, []⟩,
  ⟨[.sec], Op.keyGen, false, false, false, false, true, true, [(224, 8), (240, 16), (256, 8), (272, 16)]⟩,
  ⟨[.sec], Op.keyLoad, false, false, false, true, false, true, [(224, 8), (240, 16)]⟩,
  ⟨[.sec], Op.keyDestroy, false, false, false, false, false, false, [(224, 8), (240, 16)]⟩,
  ⟨[.sec], Op.keyExport, false, false, false, false, true, true, [(224, 8), (240, 16)]⟩,
  ⟨[.sec], Op.kekCreate, false, false, false, false, true, true, []⟩,
  ⟨[.sec], Op.kekUnseal, false, false, false, true, false, true, []⟩,
  ⟨[.sec], Op.pairOffer, false, false, false, false, true, true, []⟩,
  ⟨[.sec], Op.pairSend, false, false, false, true, true, true, [(256, 64), (320, 32)]⟩,
  ⟨[.sec], Op.pairReceive, false, false, false, true, true, true, [(256, 64), (320, 32)]⟩,
  ⟨[.sec], Op.cfgWrite, false, false, false, false, false, false, [(224, 8), (232, 8), (256, 32), (320, 64)]⟩,
  ⟨[.sec], Op.lockSet, false, false, false, false, false, false, [(384, 64)]⟩,
  ⟨[.sec], Op.lockClear, false, false, false, true, false, true, [(384, 64)]⟩,
  ⟨[.sec], Op.attest, false, false, false, true, true, true, [(224, 8)]⟩,
  ⟨[.sec], Op.certRead, false, false, false, false, true, true, [(224, 8)]⟩,
  ⟨[.sec], Op.lifecycleAdvance, false, false, false, true, false, true, [(224, 8)]⟩,
  ⟨[.sec], Op.jigBegin, false, false, false, false, false, false, [(224, 8), (256, 32)]⟩,
  ⟨[.sec], Op.jigBlock, false, false, false, true, false, true, [(224, 32), (256, 32)]⟩,
  ⟨[.sec], Op.jigCommit, false, false, false, false, false, false, [(224, 32)]⟩,
  ⟨[.sec], Op.jigAbort, false, false, false, false, false, false, [(224, 32)]⟩,
  ⟨[.sec], Op.jigActivate, false, false, false, false, false, false, [(224, 8)]⟩,
  ⟨[.sec], Op.jigBitmap, false, false, false, false, true, true, [(224, 32)]⟩,
  ⟨[.ven], Op.encrypt, false, false, true, true, true, true, [(256, 128)]⟩,
  ⟨[.ven], Op.decrypt, false, false, true, true, true, true, [(256, 128)]⟩,
  ⟨[.ven], Op.keyEvict, false, false, true, false, false, false, []⟩]

/-- Opcode rows, part 3. -/
def opRows3 : List OpRow := [
  ⟨[.mtr], Op.capSet, false, false, true, false, false, false, [(224, 8), (256, 64), (320, 64)]⟩,
  ⟨[.mtr], Op.lineRead, false, false, true, false, true, true, [(224, 8)]⟩,
  ⟨[.mgt], Op.frameTx, false, false, false, true, false, true, [(224, 1)]⟩,
  ⟨[.mgt], Op.frameRxBuf, false, false, false, false, true, true, []⟩,
  ⟨[.drw], Op.groupWrite, false, false, false, true, false, true, [(224, 16), (240, 16)]⟩,
  ⟨[.drw], Op.groupRead, false, false, false, false, true, true, [(224, 16)]⟩,
  ⟨[.drw], Op.groupDelete, false, false, false, false, false, false, [(224, 16)]⟩]

/-- Every opcode of every unit. -/
def opRows : List OpRow := opRows0 ++ opRows1 ++ opRows2 ++ opRows3

/-- The row of an opcode on a unit's rings. -/
def opRow (u : UnitId) (op : Nat) : Option OpRow := opRows.find? fun r => r.units.contains u && r.opcode == op

/-- A mask of the bits named by (offset, width) pairs. -/
def maskOf : List (Nat × Nat) → Nat
  | [] => 0
  | (p, w) :: t => (2 ^ w - 1) * 2 ^ p ||| maskOf t

/-- The bits an opcode uses in its first descriptor: the common header of R45 and its own. -/
def OpRow.mask (r : OpRow) : Nat :=
  maskOf [(0, 8), (8, 4), (16, 16), (32, 14)] ||| (if r.src then maskOf [(64, 64)] else 0)
    ||| (if r.dst then maskOf [(128, 64)] else 0) ||| (if r.len then maskOf [(192, 32)] else 0) ||| maskOf r.used

/-- The bits a continuation uses: RECAST's sources (R169) and the paths of R85. -/
def contMask (u : UnitId) : Nat :=
  maskOf [(0, 8), (8, 4), (16, 16)] |||
    (if u = .churn then maskOf [(64, 64), (192, 32), (280, 8)] else maskOf [(32, 192), (224, 20)])

/-- Bits of an image outside a mask. -/
def outside (img : List Byte) (mask : Nat) : Bool := (leNat img) &&& (2 ^ 512 - 1 - mask) != 0

/-- Bits 62:48 of an address in SOURCE or DESTINATION are not 0 (R46). -/
def badAddr (v : Nat) : Bool := v < 2 ^ 63 && 2 ^ 48 ≤ v

/-- Whether a flag that is not allowed stands in the descriptor or in a continuation (R48, R49). -/
def badFlags (r : OpRow) (f : Fetched) : Bool :=
  (f.urgent && !r.urgent) || (decide (1 < f.imgs.length) && !r.chain) ||
    (f.imgs.drop 1).any fun c =>
      fieldAt c 0 1 != f.opcode || fieldAt c 2 2 != f.tag || (fieldAt c 1 1) % 4 != 0 || (fieldAt c 1 1) / 8 != 0

/-- The general checks of R526 in order: the status of the first that fails, none where all pass. -/
def generalCheck (u : UnitId) (f : Fetched) : Option Nat :=
  if 16 < f.imgs.length then some St.chainTooLong
  else match opRow u f.opcode with
    | none => some St.opcodeInvalid
    | some r =>
      if badFlags r f then some St.flagInvalid
      else if outside f.img r.mask || (f.imgs.drop 1).any (outside · (contMask u)) then some St.rsvdNonzero
      else if badAddr f.src || badAddr f.dst || (u == .churn && (f.imgs.drop 1).any fun c => badAddr (fieldAt c 8 8)) then
        some St.addrInvalid
      else if f.tenant != 0 && !r.tenant then some St.tenantInvalid
      else none

end Sys2Proof.Machine
end

