-- ==== Sys2Proof/Machine/Meter.lean ====
section
/-! DEFINITION. The Meter (R465 to R473) and the management port (R480 to R484). -/
namespace Sys2Proof.Machine
open Sys2Proof

/-! ## Counter lines -/

/-- Lines of the table (MTR_LINE_TABLE). -/
def State.mtrSize (s : State) : Nat := 2 ^ s.rd MTR_LINE_TABLE.LOG2_LINES

/-- The lines the 16 probes of a pair reach; lines 0 to 255 are the overflow lines (R468). -/
def State.mtrProbes (s : State) (tenant shard : Nat) : List Nat :=
  (List.range 16).map fun i => 256 + Config.mtrProbe tenant shard i s.mtrSize % (s.mtrSize - 256)

/-- The line that holds a pair, if one does. -/
def State.mtrFind (s : State) (tenant shard : Nat) : Option Nat :=
  (s.mtrProbes tenant shard).find? fun i =>
    match Tab.get? s.mtr.lines i with
    | some l => l.tenant == tenant && l.shard == shard
    | none => false

/-- A free line within the probes of a pair. -/
def State.mtrFree (s : State) (tenant shard : Nat) : Option Nat :=
  (s.mtrProbes tenant shard).find? fun i => (Tab.get? s.mtr.lines i).isNone

/-- The state with a line stored and MTR_STATUS.LINES kept. -/
def State.setLine (s : State) (i : Nat) (l : MtrLine) : State :=
  let s := { s with mtr := { s.mtr with lines := Tab.set s.mtr.lines i l } }
  s.wr MTR_STATUS.LINES s.mtr.lines.length

/-- The line an event of a pair is counted in: its own, a free one, or the shard's overflow line (R468). -/
def State.mtrPlace (s : State) (tenant shard : Nat) : Nat × MtrLine :=
  match s.mtrFind tenant shard with
  | some i => (i, Tab.getD s.mtr.lines i { tenant := tenant, shard := shard })
  | none =>
    match s.mtrFree tenant shard with
    | some i => (i, { tenant := tenant, shard := shard })
    | none => (shard, Tab.getD s.mtr.lines shard { tenant := 0, shard := shard })

/-- A counter of a bank raised modulo 2^64; from 10 on, the histogram bins. -/
def MtrBank.add (b : MtrBank) (ctr amount : Nat) : MtrBank :=
  if ctr < 10 then { b with ctr := Tab.set b.ctr ctr ((Tab.getD b.ctr ctr 0 + amount) % 2 ^ 64) }
  else { b with hist := Tab.set b.hist (ctr - 10) ((Tab.getD b.hist (ctr - 10) 0 + amount) % 2 ^ 64) }

/-- Whether a bank holds any non-zero counter. -/
def MtrBank.nonzero (b : MtrBank) : Bool := b.ctr.any (·.2 != 0) || b.hist.any (·.2 != 0)

/-- Two banks added counter by counter (R470). -/
def MtrBank.plus (a b : MtrBank) : MtrBank :=
  let x := b.ctr.foldl (fun acc e => acc.add e.1 e.2) a
  b.hist.foldl (fun acc e => acc.add (10 + e.1) e.2) x

/-- Histogram bin of a latency in ticks (R465): 0 below 25,600; doubling bins; 15 from 419,430,400 on. -/
def histBin (lat : Nat) : Nat := if lat < 25600 then 0 else min 15 (Nat.log2 (lat / 25600) + 1)

/-- An event put into the Meter's queue (R468). -/
def State.meterEvent (s : State) (tenant shard ctr amount : Nat) : State :=
  { s with mtr := { s.mtr with queue := s.mtr.queue ++ [⟨tenant, shard, ctr, amount, s.now⟩] } }

/-- An event counted in an overflow line is itself counted, and recorded once per shard and interval (R468, R487). -/
def State.mtrOverflow (s : State) (shard : Nat) : State :=
  let n := s.mtr.ovfEvents + 1
  let s := { s with mtr := { s.mtr with ovfEvents := n } }
  let s := s.wr MTR_STATUS.OVERFLOWS (min (n / 1000) 65535)
  if s.mtr.ovfSeen.contains shard then s
  else { s with mtr := { s.mtr with ovfSeen := shard :: s.mtr.ovfSeen } }.raise Ev.mtrOverflow (some .mtr) none [shard]

/-- A line after a management tick: CAP_NOW added where its shard is counted since a win before this tick (R467). -/
def State.capTicked (s : State) (l : MtrLine) : MtrLine :=
  match Tab.get? s.mtr.capFrom l.shard with
  | some w => if w < s.now then { l with active := l.active.add 9 l.capNow } else l
  | none => l

/-- A bank with `n` additions of `cap` to CAP_TICKS withdrawn, modulo 2^64. -/
def MtrBank.withdraw (b : MtrBank) (n cap : Nat) : MtrBank := b.add 9 (2 ^ 64 - n * cap % 2 ^ 64)

/-- This head starts counting a shard's capacity after its win tick (R467). -/
def State.meterStart (s : State) (shard w : Nat) : State :=
  { s with mtr := { s.mtr with
    capFrom := Tab.set s.mtr.capFrom shard w
    movedNow := if s.mtr.movedNow.contains shard then s.mtr.movedNow else shard :: s.mtr.movedNow } }

/-- This head stops counting a shard: additions of ticks after `w` are withdrawn, those before the last cut from a frozen bank
that is unswept, and CAP_NOW becomes 0 (R467). -/
def State.meterStop (s : State) (shard w : Nat) : State :=
  let cut := max w (s.mtr.lastCut - 1)
  let late := s.now / mgmtTick - cut / mgmtTick
  let before := cut / mgmtTick - w / mgmtTick
  { s with mtr := { s.mtr with
    capFrom := Tab.del s.mtr.capFrom shard
    movedNow := if s.mtr.movedNow.contains shard then s.mtr.movedNow else shard :: s.mtr.movedNow
    lines := Tab.mapV s.mtr.lines fun _ l =>
      if l.shard = shard ∧ (Tab.get? s.mtr.capFrom shard).isSome then
        { l with
          active := l.active.withdraw late l.capNow
          frozen := if l.swept then l.frozen else l.frozen.withdraw before l.capNow
          capNow := 0 }
      else l } }

/-- The Cellar's change of a block's catalogue entry: CAP_NOW of its line up or down by one, modulo 2^64 (R465, R467). -/
def State.capDelta (s : State) (tenant shard : Nat) (up : Bool) : State :=
  let (i, l) := s.mtrPlace tenant shard
  let s := if i < 256 then s.mtrOverflow shard else s
  s.setLine i { l with capNow := (l.capNow + if up then 1 else 2 ^ 64 - 1) % 2 ^ 64 }

/-! ## Cuts and records -/

/-- Interval length in ticks that INTERVAL asks for (R469). -/
def State.mtrLen (s : State) : Nat := s.rd MTR_CTL.INTERVAL * 1600000000

/-- One line at a cut: its active bank is frozen, or added to a bank still unswept (R469, R470); `moved`: its shard's lease
state changed in the interval. -/
def MtrLine.cut (l : MtrLine) (start : Nat) (moved : Bool) : MtrLine :=
  if l.swept then
    { l with frozen := l.active, active := {}, swept := false, capCut := l.capNow, start := start, carried := false,
             backdatedCut := l.backdated, backdated := false, moved := moved }
  else
    { l with frozen := l.frozen.plus l.active, active := {}, capCut := l.capNow, carried := true,
             backdatedCut := l.backdatedCut || l.backdated, backdated := false, moved := l.moved || moved }

/-- A cut that is due: at a multiple of L every line switches bank in one cycle; unswept lines carry over (R469, R470). -/
def State.meterCut (s : State) : State :=
  if !s.on MTR_CTL.EN || !s.due s.mtr.nextCut then s
  else
    let t := s.now / s.mtr.len * s.mtr.len
    let late := s.mtr.lines.filter fun e => !e.2.swept
    let s1 := late.foldl (fun s e => (s.bump MTR_STATUS.CARRIES 1).raise Ev.mtrCarried (some .mtr) none
      [e.2.tenant, e.2.shard, s.mtr.lastCut]) s
    let m := s1.mtr
    { s1.wr MTR_STATUS.SWEEPING 1 with
      mtr := { m with
        lines := Tab.mapV m.lines fun _ l => l.cut m.lastCut (m.movedNow.contains l.shard)
        prevCut := m.lastCut, lastCut := t, len := s1.mtrLen, nextCut := some ((t / s1.mtrLen + 1) * s1.mtrLen)
        movedNow := [], ovfSeen := [], recNo := 0, sweepAt := some 0 } }

/-- METER_CUT. -/
def execMeterCut (s : State) : Host.Outcome State Fault Refusal := .next s.meterCut

/-- CAP_TICK: CAP_NOW added to CAP_TICKS of every line of a shard that this head counts since a win before this tick. The tick
that starts at a cut belongs to the next interval, so a cut that is due comes first (R469). -/
def execCapTick (s : State) : Host.Outcome State Fault Refusal :=
  if !s.on MTR_CTL.EN then .next s
  else
    let s := s.meterCut
    .next { s with mtr := { s.mtr with lines := Tab.mapV s.mtr.lines fun _ l => s.capTicked l } }

/-- One event added to its line: to the active bank, or, where its counting tick lies before the last cut, to the frozen bank; a
line that was not there at the cut is swept with the others (R468, R469). -/
def State.meterAdd (s : State) (e : MtrEvent) : State :=
  let (i, l) := s.mtrPlace e.tenant e.shard
  let s := if i < 256 then s.mtrOverflow e.shard else s
  if e.tick < s.mtr.lastCut && s.mtr.sweepAt.isSome then
    let l := if l.swept then { l with swept := false, start := s.mtr.prevCut, capCut := 0, carried := false, backdatedCut := false } else l
    s.setLine i { l with frozen := l.frozen.add e.ctr e.amount }
  else s.setLine i { l with active := l.active.add e.ctr e.amount }

/-- METER_EVENT: the oldest event of the queue is added to its line; one counted at or after a cut that is due follows it (R485).
While EN is 0 it waits (R528). -/
def execMeterEvent (s : State) : Host.Outcome State Fault Refusal :=
  match s.mtr.queue with
  | [] => .next s
  | e :: q =>
    if !s.on MTR_CTL.EN then .next s
    else
      let s := if s.mtr.nextCut.any (· ≤ e.tick) then s.meterCut else s
      .next ({ s with mtr := { s.mtr with queue := q } }.meterAdd e)

/-- The 256 bytes of a record (R471). -/
def recordBytes (flags tenant shard start fin recNo : Nat) (b : MtrBank) (cap : Nat) : List Byte :=
  let body := leBytes 2 0x4D31 ++ leBytes 1 1 ++ leBytes 1 flags ++ leBytes 2 tenant ++ leBytes 1 shard ++ zeros 1 ++
    leBytes 8 start ++ leBytes 8 fin ++ leBytes 4 recNo ++ zeros 4 ++
    (List.range 10).flatMap (fun i => leBytes 8 (Tab.getD b.ctr i 0)) ++ leBytes 8 cap ++
    (List.range 16).flatMap (fun i => leBytes 8 (Tab.getD b.hist i 0)) ++ zeros 4
  body ++ leBytes 4 (crc32c body)

/-- Whether the record ring has a free record; one always stays free (DEDUCED from R478, log entry 13). -/
def State.recRoom (s : State) : Bool :=
  (s.rd MTR_REC_IDX.PROD + 1) % 2 ^ s.rd MTR_REC_RING.LOG2_ENTRIES != s.rd MTR_REC_IDX.CONS

/-- One record written at PROD. -/
def State.putRecord (s : State) (bs : List Byte) : State :=
  let p := s.rd MTR_REC_IDX.PROD
  match s.dmaWrite .mtr (s.rd MTR_REC_RING.BASE * 4096 + p * 256) bs with
  | .error e => s.dmaFailed .mtr e
  | .ok s => s.wr MTR_REC_IDX.PROD ((p + 1) % 2 ^ s.rd MTR_REC_RING.LOG2_ENTRIES)

/-- The sweep waits for ring space: RING_WAIT, and EV_MTR_RING_FULL as the wait begins (R470). -/
def State.sweepWait (s : State) : State :=
  if s.mtr.ringFull then s
  else ({ s with mtr := { s.mtr with ringFull := true } }.wr MTR_STATUS.RING_WAIT 1).raise Ev.mtrRingFull (some .mtr)

/-- Flag byte of a line's record (R471). -/
def State.recFlags (s : State) (i : Nat) (l : MtrLine) : Nat :=
  s.rd LEASE_CTL.HEAD + (if l.carried then 2 else 0) + (if l.backdatedCut then 4 else 0) + (if i < 256 then 8 else 0)
    + (if l.moved then 16 else 0)

/-- The sweep over the lines still listed: a record for each non-zero frozen bank, a line with nothing counted and no
capacity freed, then the trailer; it stops where the ring is full (R470). -/
def sweepFrom : List (Nat × MtrLine) → State → State
  | [], s =>
    if !s.recRoom then s.sweepWait
    else
      let s := s.putRecord (recordBytes (s.rd LEASE_CTL.HEAD + 32) 0 0 0 s.mtr.lastCut s.mtr.recNo {} 0)
      let s := (s.wr MTR_STATUS.SWEEPING 0).wr MTR_STATUS.RING_WAIT 0
      { s.wr MTR_LAST_CUT.VALUE s.mtr.lastCut with mtr := { s.mtr with sweepAt := none, ringFull := false } }
  | (i, l) :: rest, s =>
    if l.frozen.nonzero then
      if !s.recRoom then s.sweepWait
      else
        let s := s.putRecord (recordBytes (s.recFlags i l) l.tenant l.shard l.start s.mtr.lastCut s.mtr.recNo l.frozen l.capCut)
        sweepFrom rest ({ s with mtr := { s.mtr with recNo := s.mtr.recNo + 1 } }.setLine i { l with frozen := {}, swept := true })
    else if !l.active.nonzero && l.capNow == 0 then
      let s := { s with mtr := { s.mtr with lines := Tab.del s.mtr.lines i } }
      sweepFrom rest (s.wr MTR_STATUS.LINES s.mtr.lines.length)
    else sweepFrom rest (s.setLine i { l with frozen := {}, swept := true })

/-- METER_SWEEP: the frozen bank is swept as far as ring space allows, once every event counted before the cut has reached its
line. -/
def execMeterSweep (s : State) : Host.Outcome State Fault Refusal :=
  if s.mtr.sweepAt.isNone || !s.on MTR_CTL.EN || s.mtr.queue.any (fun e => e.tick < s.mtr.lastCut) then .next s
  else
    let s := if s.recRoom then { s with mtr := { s.mtr with ringFull := false } }.wr MTR_STATUS.RING_WAIT 0 else s
    .next (sweepFrom (s.mtr.lines.filter fun e => !e.2.swept) s)

/-! ## Meter descriptors (R473) -/

/-- Lease states that allow CAP_SET: QUIET (3) and HELD (4). -/
def State.shardWon (s : State) (shard : Nat) : Bool :=
  s.rd (LEASE_SHARD.STATE shard) == 3 || s.rd (LEASE_SHARD.STATE shard) == 4

/-- CAP_SET: the line's capacity set, and every management tick after FROM_TIME credited at it. -/
def execCapSet (d : DescRef) (s : State) : Host.Outcome State Fault Refusal :=
  match s.startedAt .mtr d Op.capSet with
  | none => .next s
  | some f =>
    let shard := f.at 28 1
    let cap := f.at 32 8
    let from_ := f.at 40 8
    if !s.shardWon shard then .next (s.finish .mtr d St.mtrShardNotOwned)
    else if from_ ≠ 0 ∧ (s.now < from_ ∨ from_ < Tab.getD s.mtr.capFrom shard 0) then .next (s.finish .mtr d St.timeInvalid)
    else if (s.mtrFind f.tenant shard).isNone ∧ (s.mtrFree f.tenant shard).isNone then .next (s.finish .mtr d St.lineFull)
    else
      let (i, l) := s.mtrPlace f.tenant shard
      let n := if from_ = 0 then 0 else s.now / mgmtTick - from_ / mgmtTick
      let l := { l with capNow := cap, active := l.active.add 9 (n * cap), backdated := l.backdated || (from_ != 0 && from_ < s.mtr.lastCut) }
      .next ((s.setLine i l).finish .mtr d St.success)

/-- LINE_READ: the active bank written in the record format, START the last cut, END 0. -/
def execLineRead (d : DescRef) (s : State) : Host.Outcome State Fault Refusal :=
  match s.startedAt .mtr d Op.lineRead with
  | none => .next s
  | some f =>
    let shard := f.at 28 1
    if f.len ≠ 256 then .next (s.finish .mtr d St.lengthMismatch)
    else
      match s.mtrFind f.tenant shard with
      | none => .next (s.finish .mtr d St.lineAbsent)
      | some i =>
        let l := Tab.getD s.mtr.lines i { tenant := f.tenant, shard := shard }
        let fl := s.rd LEASE_CTL.HEAD + (if l.backdated then 4 else 0) + (if s.mtr.movedNow.contains shard then 16 else 0)
        match s.dmaWrite .mtr f.dst (recordBytes fl l.tenant l.shard s.mtr.lastCut 0 0 l.active l.capNow) (some d.ring) with
        | .error e => .next (s.finishDma .mtr d e)
        | .ok s => .next (s.finish .mtr d St.success)

end Sys2Proof.Machine
end

