-- ==== Sys2Proof/Machine/Vat.lean ====
section
/-! DEFINITION. The Vat: pails, classes, the write index, its descriptors (R364 to R369, R377). -/
namespace Sys2Proof.Machine
open Sys2Proof

/-- The state with the Vat's part replaced. -/
def State.setVat (s : State) (v : Vat) : State := { s with vat := v }

/-! ## Pails and grants (R364 to R366) -/

/-- What a class still lacks to its floor. -/
def State.deficit (s : State) (c : Nat) : Nat := s.rd (VAT_CLASS.FLOOR c) - s.rd (VAT_USE.USED c)

/-- R: the unused floors of all classes. -/
def State.reserveSum (s : State) : Nat := ((List.range 5).map s.deficit).sum

/-- Whether `n` pails may be granted to class `c` now (R366). -/
def State.grantable (s : State) (c n : Nat) : Bool :=
  s.on VAT_CTL.EN && decide (s.rd (VAT_USE.USED c) + n ≤ s.rd (VAT_CLASS.CEIL c))
    && decide (n ≤ (s.rd VAT_STATUS.FREE - s.reserveSum) + s.deficit c)

/-- Whether a pail is free and its quarter enabled. -/
def State.pailFree (s : State) (p : Nat) : Bool := s.bit VAT_CTL.QUARTER_EN (p / 8192) && (Tab.get? s.vat.pails p).isNone

/-- A free pail: the first from the open starting point on (log entry 19). -/
def State.pickPail (s : State) : Option Nat :=
  ((List.range 32768).map fun i => (Config.pailStart s.draws + i) % 32768).find? s.pailFree

/-- What a pail of a class and user holds at first. -/
def holdsFor (c : Nat) : VatUser → PailHolds
  | .ring _ _ => .software
  | _ => if c = 0 then .readData else if c = 2 ∨ c = 3 then .background else .writeData

/-- USED of a class raised by one, PEAK with it, FREE lowered. -/
def State.countPail (s : State) (c : Nat) : State :=
  let n := s.rd (VAT_USE.USED c) + 1
  ((s.wr (VAT_USE.USED c) n).wr (VAT_USE.PEAK c) (max n (s.rd (VAT_USE.PEAK c)))).drop VAT_STATUS.FREE 1

/-- `n` pails allocated to a class and user, with their numbers. -/
def State.takePails (s : State) (u : VatUser) (c : Nat) : Nat → List Nat × State
  | 0 => ([], s)
  | n + 1 =>
    match s.pickPail with
    | none => ([], s)
    | some p =>
      let s1 := { s.setVat { s.vat with pails := Tab.set s.vat.pails p ⟨c, u, holdsFor c u⟩ } with draws := s.draws + 1 }
      let (ps, s2) := (s1.countPail c).takePails u c n
      (p :: ps, s2)

/-- Pails back to FREE. -/
def State.dropPails (s : State) (ps : List Nat) : State :=
  ps.foldl (fun s p =>
    match Tab.get? s.vat.pails p with
    | none => s
    | some x => ((s.setVat { s.vat with pails := Tab.del s.vat.pails p }).drop (VAT_USE.USED x.cls) 1).wr VAT_STATUS.FREE
        (s.rd VAT_STATUS.FREE + 1)) s

/-- VAT_USE_c.WAITING kept. -/
def State.countWaiting (s : State) : State :=
  (List.range 5).foldl (fun s c => s.wr (VAT_USE.WAITING c) (s.vat.waiting.filter (·.cls == c)).length) s

/-- The list of pail numbers as PAIL_ALLOC writes it (R377). -/
def pailList (ps : List Nat) : List Byte := ps.flatMap (leBytes 2)

/-- The pails a user holds, in rising order. -/
def State.pailsOf (s : State) (u : VatUser) : List Nat :=
  (s.vat.pails.filter fun e => e.2.user == u).map (·.1)

/-- A grant delivered: a ring's descriptor completes with the list; another user finds the pails as its own. -/
def State.deliver (s : State) (u : VatUser) (ps : List Nat) : State :=
  match u with
  | .ring r slot =>
    match s.fetchedAt .vat ⟨r, slot⟩ with
    | none => s
    | some f =>
      match s.dmaWrite .vat f.dst (pailList ps) (some r) with
      | .error e => (s.dropPails ps).finishDma .vat ⟨r, slot⟩ e
      | .ok s => s.finish .vat ⟨r, slot⟩ St.success
  | _ => s

/-- The first waiting request of each class; a request never passes an earlier one of its class. -/
def State.vatHeads (s : State) : List VatReq := (List.range 5).filterMap fun c => s.vat.waiting.find? (·.cls == c)

/-- Whether request `a` is served before `b`: the class furthest below its floor, the oldest, the lower class (R366). -/
def State.vatBefore (s : State) (a b : VatReq) : Bool :=
  let da := s.deficit a.cls
  let db := s.deficit b.cls
  decide (db < da) || (da == db && (decide (a.since < b.since) || (a.since == b.since && decide (a.cls ≤ b.cls))))

/-- The request granted next, if one can be. -/
def State.vatNext (s : State) : Option VatReq :=
  (s.vatHeads.filter fun q => s.grantable q.cls q.n).foldl
    (fun best q => match best with
      | none => some q
      | some b => if s.vatBefore b q then some b else some q) none

/-- Waiting requests granted one after the other, looking again after each (R366). -/
def State.vatGrantN (s : State) : Nat → State
  | 0 => s
  | k + 1 =>
    match s.vatNext with
    | none => s
    | some q =>
      let s := (s.setVat { s.vat with waiting := s.vat.waiting.erase q }).countWaiting
      let (ps, s) := s.takePails q.user q.cls q.n
      (s.deliver q.user ps).vatGrantN k

/-- Every waiting request that can be granted is granted. -/
def State.vatGrant (s : State) : State := s.vatGrantN s.vat.waiting.length

/-- A user asks for pails: granted at once or waiting (R366). -/
def State.pailRequest (s : State) (u : VatUser) (c n : Nat) : State :=
  ((s.setVat { s.vat with waiting := s.vat.waiting ++ [⟨u, c, n, s.now, false⟩] }).countWaiting).vatGrant

/-- Pails released by their last user; waiting requests are then granted (R366, R367, R378). -/
def State.freePails (s : State) (ps : List Nat) : State := (s.dropPails ps).vatGrant

/-- Everything a user holds released, and its waiting requests withdrawn. -/
def State.freeUser (s : State) (u : VatUser) : State :=
  ((s.setVat { s.vat with waiting := s.vat.waiting.filter fun q => q.user != u }).countWaiting).freePails (s.pailsOf u)

/-- What pails hold changed (R370). -/
def State.setHolds (s : State) (ps : List Nat) (h : PailHolds) : State :=
  s.setVat { s.vat with pails := Tab.mapV s.vat.pails fun p x => if ps.contains p then { x with holds := h } else x }

/-! ## The write index (R368, R369) -/

/-- Set of a block's entries. -/
def widxSet (vol block : Nat) : Nat := (block + 617 * vol) % 16384

/-- Whether a block's set and the overflow area are both full. -/
def State.widxFull (s : State) (vol block : Nat) : Bool :=
  decide (4 ≤ (s.vat.widx.filter fun e => !e.ovf && widxSet e.vol e.block == widxSet vol block).length)
    && decide (256 ≤ (s.vat.widx.filter (·.ovf)).length)

/-- VAT_STATUS.WIDX kept. -/
def State.setWidx (s : State) (w : List WEntry) : State := (s.setVat { s.vat with widx := w }).wr VAT_STATUS.WIDX w.length

/-- An entry of a block is made in its set, or in the overflow area where the set is full. -/
def State.widxInsert (s : State) (vol block pail dseq : Nat) : State :=
  let inSet := decide ((s.vat.widx.filter fun e => !e.ovf && widxSet e.vol e.block == widxSet vol block).length < 4)
  s.setWidx (s.vat.widx ++ [{ vol := vol, block := block, pail := pail, dseq := dseq, ovf := !inSet }])

/-- The entry a lookup returns: the highest DSEQ that is not WITHDRAWN. An entry that a later command has overtaken in the
catalogue is passed over (log entry 123). -/
def State.widxLookup (s : State) (vol block : Nat) : Option WEntry :=
  (s.vat.widx.filter fun e => e.vol == vol && e.block == block && !e.withdrawn && !e.stale).foldl
    (fun best e => match best with
      | none => some e
      | some b => if b.dseq < e.dseq then some e else some b) none

/-- Entries changed by `f` where `p` holds. -/
def State.widxMap (s : State) (p : WEntry → Bool) (f : WEntry → WEntry) : State :=
  s.setVat { s.vat with widx := s.vat.widx.map fun e => if p e then f e else e }

/-- Whether an entry may be removed. -/
def WEntry.removable (e : WEntry) : Bool := e.pins == 0 && (e.withdrawn || (e.confirmed && e.mapped))

/-- The entries of a range of blocks that a command dispatched later has overtaken in the catalogue (R98, R116). -/
def State.widxSupersede (s : State) (vol block count dseq : Nat) : State :=
  s.widxMap (fun e => e.vol == vol && decide (block ≤ e.block) && decide (e.block < block + count) && decide (e.dseq < dseq))
    fun e => { e with stale := true }

/-- Removable entries leave the index and release their pails. -/
def State.widxReap (s : State) : State :=
  let gone := s.vat.widx.filter (·.removable)
  (s.setWidx (s.vat.widx.filter fun e => !e.removable)).freePails (gone.map (·.pail))

/-! ## Commands of the Vat -/

/-- PAIL_REQUEST: a unit asks for 1 to 16 pails of a class (R366); its number `n` and job `id` name the user. -/
def execPailRequest (n id cls count : Nat) (s : State) : Host.Outcome State Fault Refusal :=
  if 4 < cls ∨ count = 0 ∨ 16 < count then .next s else .next (s.pailRequest (.job n id) cls count)

/-- PAIL_RELEASE: the last user of a pail releases it. A pail of the write index goes when its entry may be removed, a
ring's pail only by PAIL_FREE (R367, R369, R377). -/
def execPailRelease (pail : Nat) (s : State) : Host.Outcome State Fault Refusal :=
  match Tab.get? s.vat.pails pail with
  | none => .next s
  | some x =>
    if s.vat.widx.any (·.pail == pail) then .next s.widxReap
    else match x.user with
      | .ring _ _ => .next s
      | _ => .next (s.freePails [pail])

/-- VAT_ALARM_EXPIRY: a request that has waited longer than ALARM records EV_VAT_WAIT, once (R366). -/
def execVatAlarmExpiry (index : Nat) (s : State) : Host.Outcome State Fault Refusal :=
  match s.vat.waiting[index]? with
  | none => .next s
  | some q =>
    if q.alarmed ∨ !s.passed (q.since + s.rd (VAT_CLASS.ALARM q.cls) * mgmtTick) then .next s
    else .next ((s.setVat { s.vat with waiting := s.vat.waiting.set index { q with alarmed := true } }).raise Ev.vatWait
      (some .vat) (some q.cls) [q.cls, q.n])

/-- PAIL_ALLOC: the request is queued under R366 and completes when it is granted. -/
def execPailAlloc (d : DescRef) (s : State) : Host.Outcome State Fault Refusal :=
  match s.startedAt .vat d Op.pailAlloc with
  | none => .next s
  | some f =>
    let c := f.at 28 1
    let n := f.at 29 1
    if f.phase = .waiting then .next s
    else if 4 < c then .next (s.finish .vat d St.coolClassInvalid)
    else if n = 0 ∨ 16 < n then .next (s.finish .vat d St.countInvalid)
    else if f.len ≠ n * 2 then .next (s.finish .vat d St.lengthMismatch)
    else .next ((s.setPhase .vat d .waiting).pailRequest (.ring d.ring d.slot) c n)

/-- Whether a pail was allocated by a ring. -/
def State.ringsPail (s : State) (r p : Nat) : Bool :=
  match Tab.get? s.vat.pails p with
  | some x => match x.user with
    | .ring q _ => q == r
    | _ => false
  | none => false

/-- Pail numbers of a list, bits 14:0 of each 2-byte entry. -/
def pailNumbers (bs : List Byte) (n : Nat) : List Nat := (List.range n).map fun i => fieldAt bs (2 * i) 2 % 2 ^ 15

/-- PAIL_FREE: the listed pails of this ring are freed, or none (R377). -/
def execPailFree (d : DescRef) (s : State) : Host.Outcome State Fault Refusal :=
  match s.startedAt .vat d Op.pailFree with
  | none => .next s
  | some f =>
    let n := f.at 29 1
    if n = 0 ∨ 16 < n then .next (s.finish .vat d St.countInvalid)
    else if f.len ≠ n * 2 then .next (s.finish .vat d St.lengthMismatch)
    else match s.dmaRead .vat f.src (n * 2) (some d.ring) with
      | .error e => .next (s.finishDma .vat d e)
      | .ok bs =>
        let ps := pailNumbers bs n
        if ps.eraseDups.length = n ∧ ps.all (s.ringsPail d.ring) then .next ((s.finish .vat d St.success).freePails ps)
        else .next (s.finish .vat d St.pailInvalid)

/-- VAT_PEAK_CLEAR: PEAK ← USED. -/
def execVatPeakClear (cls : Nat) (s : State) : Host.Outcome State Fault Refusal :=
  if 4 < cls then .next s else .next (s.wr (VAT_USE.PEAK cls) (s.rd (VAT_USE.USED cls)))

/-- A Vat ring is disabled: the pails it holds are freed (R377). -/
def State.vatRingGone (s : State) (r : Nat) : State :=
  s.freePails ((s.vat.pails.filter fun e => s.ringsPail r e.1).map (·.1))

/-- A waiting PAIL_ALLOC is withdrawn and takes no pail (R377, R527). -/
def State.vatWithdraw (s : State) (d : DescRef) : State :=
  (s.setVat { s.vat with waiting := s.vat.waiting.filter fun q => q.user != .ring d.ring d.slot }).countWaiting

end Sys2Proof.Machine
end

