-- ==== Sys2Proof/Machine/Veneer.lean ====
section
/-! DEFINITION. The Veneer: tweaks, the key table and its cache, ring jobs, lane faults (R400 to R407). -/
namespace Sys2Proof.Machine
open Sys2Proof

/-- The tweak of a curd (R401): LOCATOR with bits 62:60 cleared, TENANT, SHARD. -/
def venTweak (locator tenant shard : Nat) : List Byte :=
  leBytes 8 (locator % 2 ^ 60 + locator / 2 ^ 63 * 2 ^ 63) ++ leBytes 2 (tenant % 2 ^ 14) ++ leBytes 1 shard ++ zeros 5

/-- A unit's read of a table in DRAM; zeros where the read fails. -/
def State.tableRead (s : State) (u : UnitId) (a n : Nat) : List Byte :=
  match s.dmaRead u a n with
  | .ok bs => bs
  | .error _ => zeros n

/-- Whether a unit's read of a table meets an uncorrectable error. -/
def State.tableBad (s : State) (u : UnitId) (a n : Nat) : Bool :=
  match s.dmaRead u a n with
  | .error .poison | .error (.dram _) => true
  | _ => false

/-- A consumed uncorrectable error in metadata is a head loss: a machine-check error fatal to the head stands (R171, R340,
R376). -/
def State.headLost (s : State) : State := { s with cool := { s.cool with fatal := true } }

/-- A unit's write of a table in DRAM. -/
def State.tableWrite (s : State) (u : UnitId) (a : Nat) (bs : List Byte) : State :=
  match s.dmaWrite u a bs with
  | .ok s => s
  | .error e => s.dmaFailed u e

/-- A unit reads a table in DRAM: an access that fails is recorded as its DMA is (R32, R46). -/
def State.noteTable (s : State) (u : UnitId) (a n : Nat) : State :=
  match s.dmaRead u a n with
  | .ok _ => s
  | .error e => s.dmaFailed u e

/-- A descriptor stores into a table in DRAM and goes on, or completes with the failure of its access (R32, R46). -/
def State.tableThen (s : State) (u : UnitId) (d : DescRef) (a : Nat) (bs : List Byte) (k : State → State) : State :=
  match s.dmaWrite u a bs with
  | .error e => s.finishDma u d e
  | .ok s => k s

/-! ## The key table (R403) -/

def State.keyEntryAddr (s : State) (tenant : Nat) : Nat := s.rd VEN_KEYTAB_BASE.BASE * 4096 + tenant * 128

/-- The key-table entry of a tenant. -/
def State.keyEntry (s : State) (tenant : Nat) : List Byte := s.tableRead .ven (s.keyEntryAddr tenant) 128

/-- Whether an entry is VALID. -/
def entryValid (e : List Byte) : Bool := (fieldAt e 0 1).testBit 0

/-- Metadata wrapped before a key (R392; log entry 22): CLASS, KEY_LEN, INDEX, TENANT, zeros. -/
def keyMeta (cls len index tenant : Nat) : List Byte :=
  leBytes 1 cls ++ leBytes 1 len ++ leBytes 2 index ++ leBytes 2 tenant ++ zeros 2

/-- The XTS key an entry unwraps to under the array KEK, or the status of R402. -/
def State.unwrapEntry (s : State) (tenant : Nat) : Except Nat (List Byte) :=
  let e := s.keyEntry tenant
  if s.tableBad .ven (s.keyEntryAddr tenant) 128 then .error St.unitFault
  else if !entryValid e then .error St.keyAbsent
  else match s.sec.kek with
    | none => .error St.venUnwrapFail
    | some (id, kek) =>
      if fieldAt e 8 8 ≠ id then .error St.venUnwrapFail
      else match keyUnwrap kek (slice e 16 80) with
        | none => .error St.venUnwrapFail
        | some x =>
          if x.take 8 ≠ keyMeta Cls.tenant 64 tenant tenant then .error St.venUnwrapFail
          else if slice x 8 32 = slice x 40 32 then .error St.keyWeak
          else .ok (x.drop 8)

/-! ## The key cache (R402) -/

def State.setVen (s : State) (v : Ven) : State := { s with ven := v }

/-- The cache with CACHED kept. -/
def State.setCache (s : State) (c : List VenKey) : State := (s.setVen { s.ven with cache := c }).wr VEN_STATUS.CACHED c.length

/-- A cached key, which becomes the most recently used. -/
def State.cached (s : State) (tenant : Nat) : Option (List Byte × State) :=
  (s.ven.cache.find? (·.tenant = tenant)).map fun k => (k.key, s.setCache (k :: s.ven.cache.filter (·.tenant ≠ tenant)))

/-- A key takes the least recently used slot. -/
def State.cacheKey (s : State) (tenant : Nat) (key : List Byte) : State :=
  s.setCache (⟨tenant, key⟩ :: (s.ven.cache.filter (·.tenant ≠ tenant)).take 4095)

/-- A tenant's key leaves the cache. -/
def State.evictKey (s : State) (tenant : Nat) : State := s.setCache (s.ven.cache.filter (·.tenant ≠ tenant))

/-- A job meets a miss: the entry is read, and the job waits for the Island's unwrap; at most 64 misses are outstanding. A
missing entry gives its status at once, one that cannot be read for an uncorrectable error UNIT_FAULT. -/
def State.keyMiss (s : State) (tenant : Nat) (job : LaneJob) : Except Nat State :=
  let waits := Tab.getD s.ven.misses tenant []
  if s.tableBad .ven (s.keyEntryAddr tenant) 128 then .error St.unitFault
  else if !entryValid (s.keyEntry tenant) then .error St.keyAbsent
  else if waits.isEmpty ∧ 64 ≤ s.ven.misses.length then .ok s
  else
    let s := if waits.isEmpty then s.wr VEN_MISSES.VALUE (s.rd VEN_MISSES.VALUE + 1) else s
    .ok (s.setVen { s.ven with misses := Tab.set s.ven.misses tenant (if waits.contains job then waits else waits ++ [job]) })

/-- The key a step of the Cellar or the Churn uses at once: from the cache, or unwrapped for it. -/
def State.keyNow (s : State) (tenant : Nat) : Except Nat (List Byte) :=
  match s.ven.cache.find? (·.tenant = tenant) with
  | some k => .ok k.key
  | none => s.unwrapEntry tenant

/-! ## Ring jobs (R406) -/

/-- Whether `n` bytes from an address on lie in the Vat window. -/
def vatSpan (a n : Nat) : Bool := inVat a && (n = 0 || inVat (a + n - 1))

/-- The checks of ENCRYPT and DECRYPT. -/
def venCheck (f : Fetched) : Option Nat :=
  if f.len < 32 ∨ 65536 < f.len ∨ f.len % 16 ≠ 0 then some St.lengthMismatch
  else if !vatSpan f.src f.len || !vatSpan f.dst f.len then some St.addrInvalid
  else if f.src ≠ f.dst ∧ f.src < f.dst + f.len ∧ f.dst < f.src + f.len then some St.addrInvalid
  else none

/-- A started ENCRYPT or DECRYPT with its key. -/
def State.venRun (s : State) (d : DescRef) (f : Fetched) (enc : Bool) (key : List Byte) : State :=
  match s.dmaRead .ven f.src f.len (some d.ring) with
  | .error e => s.finishDma .ven d e
  | .ok bs =>
    match s.dmaWrite .ven f.dst (xts enc key (slice f.img 32 16) bs) (some d.ring) with
    | .error e => s.finishDma .ven d e
    | .ok s => s.finish .ven d St.success

/-- ENCRYPT or DECRYPT: checked, then run with the cached key, or waiting for its unwrap. -/
def State.venJob (s : State) (d : DescRef) (op : Nat) (enc : Bool) : State :=
  match s.startedAt .ven d op with
  | none => s
  | some f =>
    match venCheck f with
    | some e => s.finish .ven d e
    | none =>
      if !takesLane s.venTurn (.desc d) then s
      else match s.cached f.tenant with
        | some (key, s) => s.venRun d f enc key
        | none => match s.keyMiss f.tenant (.desc d) with
          | .error e => (s.noteTable .ven (s.keyEntryAddr f.tenant) 128).finish .ven d e
          | .ok s => s

/-- ENCRYPT. -/
def execEncrypt (d : DescRef) (s : State) : Host.Outcome State Fault Refusal := .next (s.venJob d Op.encrypt true)

/-- DECRYPT. -/
def execDecrypt (d : DescRef) (s : State) : Host.Outcome State Fault Refusal := .next (s.venJob d Op.decrypt false)

/-- KEY_EVICT: the tenant's cached key is dropped. -/
def execKeyEvict (d : DescRef) (s : State) : Host.Outcome State Fault Refusal :=
  match s.startedAt .ven d Op.keyEvict with
  | none => .next s
  | some f => .next ((s.evictKey f.tenant).finish .ven d St.success)

/-- A descriptor that waited for an unwrap proceeds with the key or fails. -/
def State.venResume (s : State) (d : DescRef) (r : Except Nat (List Byte)) : State :=
  match s.fetchedAt .ven d with
  | none => s
  | some f => match r with
    | .ok key => if f.opcode = Op.encrypt ∨ f.opcode = Op.decrypt then s.venRun d f (f.opcode == Op.encrypt) key else s
    | .error e => s.finish .ven d e

/-! ## Lane faults (R407) -/

/-- VEN_LANE_FAULT: an uncorrectable error in a lane fails its descriptor; inline work is reissued on another lane. -/
def State.venLaneFault (s : State) (lane : Nat) : State :=
  (s.wrBit VEN_STATUS.LANE_FAULT lane true).raise Ev.venLaneFault (some .ven) (some lane) [lane]

def execVenLaneFault (lane : Fin 16) (job : LaneJob) (s : State) : Host.Outcome State Fault Refusal :=
  let s := s.venLaneFault lane
  match job with
  | .desc d =>
    (match s.fetchedAt .ven d with
      | some f => .next (if f.phase = .fetched then s else s.finish .ven d St.unitFault)
      | none => .next s)
  | _ => .next s

end Sys2Proof.Machine
end

