-- ==== Sys2Proof/Machine/CellBase.lean ====
section
/-! DEFINITION. What the Parlour, the Separator, the Carcase and the Cellar share: table entries, LOCATORs, the catalogue,
garbage (R17 to R22, R99, R100, R135, R138, R257). -/
namespace Sys2Proof.Machine
open Sys2Proof

/-! ## The volume, tenant and domain tables (R99, R100, R135) -/

def State.volAddr (s : State) (v : Nat) : Nat := s.rd PAR_VOL_TABLE.BASE * 4096 + v * 64
def State.volEntry (s : State) (v : Nat) : List Byte := s.tableRead .par (s.volAddr v) 64
def volFlags (e : List Byte) : Nat := fieldAt e 0 2
def volValid (e : List Byte) : Bool := (volFlags e).testBit 0
def volThin (e : List Byte) : Bool := (volFlags e).testBit 1
def volDedup (e : List Byte) : Bool := (volFlags e).testBit 2
def volLbaf (e : List Byte) : Nat := bitsOf (volFlags e) 3 3
def volPi (e : List Byte) : Nat := bitsOf (volFlags e) 6 2
def volLock (e : List Byte) : Bool := (volFlags e).testBit 8
def volTenant (e : List Byte) : Nat := fieldAt e 2 2 % 2 ^ 14
def volDomain (e : List Byte) : Nat := fieldAt e 4 2 % 2 ^ 12
def volPool (e : List Byte) : Nat := fieldAt e 6 1
def volSize (e : List Byte) : Nat := fieldAt e 8 8

/-- The OWNER of a volume's curds (R164): its domain, or the volume itself. -/
def volOwner (e : List Byte) (v : Nat) : Nat := if volDedup e then volDomain e else 2 ^ 31 + v

def State.tenantEntry (s : State) (t : Nat) : List Byte := s.tableRead .par (s.rd PAR_TENANT_TABLE.BASE * 4096 + t * 64) 64

def State.domEntry (s : State) (d : Nat) : List Byte := s.tableRead .sep (s.rd SEP_DOMAIN_BASE.BASE * 4096 + d * 16) 16
def domValid (e : List Byte) : Bool := (fieldAt e 0 2).testBit 15
def domTenant (e : List Byte) : Nat := fieldAt e 0 2 % 2 ^ 14
def domInline (e : List Byte) : Bool := (fieldAt e 2 1).testBit 0
def domVerify (e : List Byte) : Bool := (fieldAt e 2 1).testBit 1
def domLevel (e : List Byte) : Nat := fieldAt e 3 1 % 4
def domDict (e : List Byte) : Nat := fieldAt e 4 2 % 2 ^ 13

/-! ## Shards and LOCATORs (R19, R138, R252) -/

/-- Shard of a block of a volume: extents are 4,096 blocks (R19). -/
def blockShard (vol block : Nat) : Nat := (vol + block / 4096) % 256

/-- Key of a block in a catalogue. -/
def catKey (vol block : Nat) : Nat := vol * 2 ^ 38 + block
def catVol (k : Nat) : Nat := k / 2 ^ 38

/-- LOCATOR of a journal record. -/
def journalLoc (shard jsn : Nat) : Nat := 2 ^ 63 + shard * 2 ^ 55 + jsn
def locJournal (l : Nat) : Bool := l.testBit 63
def locShard (l : Nat) : Nat := bitsOf l 55 8
def locJsn (l : Nat) : Nat := l % 2 ^ 55

/-- LOCATOR of block `idx` of the curd at byte `off` of a wheel. -/
def curdLoc (wheel off idx : Nat) : Nat := wheel % 2 ^ 40 + off / 32 * 2 ^ 40 + idx * 2 ^ 60
def locWheel (l : Nat) : Nat := l % 2 ^ 40

/-- WHEEL: the shard above the wheel sequence (R17, R138). -/
def wheelId (shard seq : Nat) : Nat := shard * 2 ^ 40 + seq % 2 ^ 40
def locOff (l : Nat) : Nat := bitsOf l 40 20 * 32
def locIdx (l : Nat) : Nat := bitsOf l 60 3

/-! ## Shards of the Cellar -/

def State.setCell (s : State) (c : Cell) : State := { s with cell := c }
def State.cshard (s : State) (sh : Nat) : CShard := Tab.getD s.cell.shards sh {}
def State.setCshard (s : State) (sh : Nat) (x : CShard) : State := s.setCell { s.cell with shards := Tab.set s.cell.shards sh x }
def State.cblade (s : State) (b : Nat) : CBlade := Tab.getD s.cell.blades b {}
def State.setCblade (s : State) (b : Nat) (x : CBlade) : State := s.setCell { s.cell with blades := Tab.set s.cell.blades b x }

/-- CELL_SHARD_s.STATE values (R277). -/
def State.setLease (s : State) (l : LeaseU) : State := { s with leaseU := l }
def State.cellSt (s : State) (sh : Nat) : Nat := s.rd (CELL_SHARD.STATE sh)

/-- PAR_SHARD_s.STATE values (R118). -/
def Pst.owned : Nat := 0
def Pst.peer : Nat := 1
def Pst.movingIn : Nat := 2
def Pst.movingOut : Nat := 3
def Pst.takeover : Nat := 4
def Pst.noLease : Nat := 5

/-- SEP_SHARD_s.STATE values (R153). -/
def Sst.absent : Nat := 0
def Sst.loading : Nat := 1
def Sst.loaded : Nat := 2
def Sst.dropping : Nat := 3

def Cst.absent : Nat := 0
def Cst.loading : Nat := 1
def Cst.ready : Nat := 2
def Cst.releasing : Nat := 3

/-- A record of a shard's journal. -/
def State.jrec (s : State) (sh jsn : Nat) : Option JRec := Tab.get? (s.cshard sh).recs jsn

def State.setJrec (s : State) (sh jsn : Nat) (r : JRec) : State :=
  s.setCshard sh { s.cshard sh with recs := Tab.set (s.cshard sh).recs jsn r }

def State.wheel (s : State) (sh w : Nat) : Option Wheel := Tab.get? (s.cshard sh).wheels w

def State.setWheel (s : State) (sh w : Nat) (x : Wheel) : State :=
  s.setCshard sh { s.cshard sh with wheels := Tab.set (s.cshard sh).wheels w x }

/-- A LOCATOR through the forward table of the shard that stores the copy (R256). -/
def CShard.resolveN (x : CShard) : Nat → Nat → Nat
  | 0, l => l
  | n + 1, l => match Tab.get? x.fwd l with
    | some l' => x.resolveN n l'
    | none => l

def State.locNow (s : State) (sh l : Nat) : Nat := (s.cshard sh).resolveN 64 l

/-! ## The catalogue (R257) -/

def State.catEntry (s : State) (vol block : Nat) : Option CatEntry :=
  Tab.get? (s.cshard (blockShard vol block)).cat (catKey vol block)

/-- A place in a wheel holds no live block any longer. -/
def State.placeGarbage (s : State) (sh l : Nat) : State :=
  match s.wheel sh (locWheel l) with
  | some w => s.setWheel sh (locWheel l) { w with live := Tab.del w.live (l / 2 ^ 40) }
  | none => s

/-- A copy that nothing references any longer: its journal record, or its place in its wheel, is garbage, and so is the
place a fold under way gives it. -/
def State.copyGarbage (s : State) (sh l : Nat) : State :=
  let l := s.locNow sh l
  let moved := (s.cshard sh).wheels.flatMap fun w => if w.2.sealed || w.2.freed then [] else
    (w.2.from_.filter fun p => p.2 == l).map (·.1)
  let s := if locJournal l then
      match s.jrec sh (locJsn l) with
      | some r => s.setJrec sh (locJsn l) { r with dead := true }
      | none => s
    else s.placeGarbage sh l
  moved.foldl (fun s n => s.placeGarbage sh n) s

/-- The count of references to a forwarded LOCATOR goes down; at 0 the forward entry is removed (R256). -/
def State.fwdDrop (s : State) (sh l : Nat) : State :=
  let x := s.cshard sh
  match Tab.get? x.fwd l with
  | none => s
  | some _ =>
    let n := Tab.getD x.fwdRefs l 1
    if n ≤ 1 then s.setCshard sh { x with fwd := Tab.del x.fwd l, fwdRefs := Tab.del x.fwdRefs l }
    else s.setCshard sh { x with fwdRefs := Tab.set x.fwdRefs l (n - 1) }

/-- Key of a stored copy in `Sep.byLoc`. -/
def copyKey (sh l : Nat) : Nat := sh * 2 ^ 64 + l

/-- Whether a stored copy has an index entry. -/
def State.indexed (s : State) (sh l : Nat) : Bool := (Tab.get? s.sep.byLoc (copyKey sh (s.locNow sh l))).isSome

/-- A catalogue reference removed. A copy that has no index entry is garbage then (R140); one that may still be given its entry,
since its shard's partition is not LOADED, is looked at when it is (R153). -/
def State.unref (s : State) (vol : Nat) (e : CatEntry) : State :=
  if e.locator = 0 then s
  else
    let s1 := if s.indexed e.shard e.locator then s
      else if volDedup (s.volEntry vol) ∧ s.rd (SEP_SHARD.STATE e.shard) ≠ Sst.loaded then
        { s with sep := { s.sep with orphans := (e.shard, s.locNow e.shard e.locator) :: s.sep.orphans } }
      else s.copyGarbage e.shard e.locator
    s1.fwdDrop e.shard e.locator

/-- A catalogue entry written; CAP_NOW of the tenant's line follows (R467), and the stored-block count of the volume. -/
def State.setCat (s : State) (vol block : Nat) (e : Option CatEntry) : State :=
  let sh := blockShard vol block
  let old := s.catEntry vol block
  let s := match old with
    | some o => s.unref vol o
    | none => s
  let x := s.cshard sh
  let s := s.setCshard sh { x with cat := match e with
    | some e => Tab.set x.cat (catKey vol block) e
    | none => Tab.del x.cat (catKey vol block) }
  let tenant := volTenant (s.volEntry vol)
  let n := Tab.getD s.par.forms vol 0
  match old, e with
  | none, some _ => ({ s with par := { s.par with forms := Tab.set s.par.forms vol (n + 1) } }).capDelta tenant sh true
  | some _, none => ({ s with par := { s.par with forms := Tab.set s.par.forms vol (n - 1) } }).capDelta tenant sh false
  | _, _ => s

/-- Unfolded DATA payload of a shard. -/
def CShard.unfolded (x : CShard) : Nat :=
  ((x.recs.filter fun e => e.2.type == 1 && e.2.confirmed && e.2.folded.isNone && !e.2.dead).map (·.2.payload.length)).sum

/-- CELL_SHARD_s.UNFOLDED kept. -/
def State.countUnfolded (s : State) (sh : Nat) : State :=
  s.wr (CELL_SHARD.UNFOLDED sh) (min ((s.cshard sh).unfolded / 65536) (2 ^ 24 - 1))

/-! ## Journal records (R249, R250) -/

/-- A record on the journal: its header, payload and CRC32C (R250). -/
def JRec.bytes (r : JRec) (shard jsn : Nat) : List Byte :=
  let head := leBytes 1 r.type ++ leBytes 1 (if r.more then 1 else 0) ++ leBytes 2 r.payload.length ++ leBytes 1 shard ++
    leBytes 1 r.tshard ++ zeros 2 ++ leBytes 8 jsn ++ leBytes 8 r.epoch ++ leBytes 8 r.pair ++ leBytes 8 r.arg0 ++
    leBytes 8 r.arg1 ++ leBytes 8 r.arg2 ++ zeros 4
  head ++ leBytes 4 (crc32c (head ++ r.payload)) ++ r.payload

/-- Bytes a record takes in a page. -/
def JRec.size (r : JRec) : Nat := alignUp (64 + r.payload.length) 32

/-- Pages of a lane in flight. -/
def CShard.inFlight (x : CShard) (lane : Nat) : Nat :=
  (x.pages.filter fun p => p.2.lane == lane && p.2.reps.any fun r => match r.2 with
    | .issued _ => true
    | _ => false).length

/-- The lane whose next page can take a record earliest: fewest records waiting and pages in flight, then the lower
number (R249). -/
def CShard.pickLane (x : CShard) : Option Nat :=
  x.lanes.foldl (fun best e =>
    let load := e.2.next.length + x.inFlight e.1
    match best with
    | none => some (e.1, load)
    | some b => if load < b.2 then some (e.1, load) else some b) none |>.map (·.1)

/-- A record put into a lane's next page; a HOLD starts with its first record. -/
def State.laneAdd (s : State) (sh jsn : Nat) : State :=
  let x := s.cshard sh
  match x.pickLane with
  | none => s
  | some l =>
    let y : Lane := Tab.getD x.lanes l ⟨[], [], none⟩
    let hold := if y.next.isEmpty then some (s.now + s.rd CELL_JRN_CFG.HOLD) else y.holdUntil
    s.setCshard sh { x with lanes := Tab.set x.lanes l { y with next := y.next ++ [jsn], holdUntil := hold } }

/-- A journal record made: it takes the next JSN and a lane. -/
def State.journal (s : State) (sh : Nat) (r : JRec) : Nat × State :=
  let x := s.cshard sh
  let jsn := x.nextJsn
  let s := s.setCshard sh { x with
    nextJsn := jsn + 1, recs := Tab.set x.recs jsn { r with epoch := s.rd (LEASE_EPOCH.EPOCH sh), at_ := s.now } }
  (jsn, s.laneAdd sh jsn)

end Sys2Proof.Machine
end

