-- ==== Sys2Proof/Machine/Nvme.lean ====
section
/-! DEFINITION. NVMe commands as the Parlour reads them: fields of the submission queue entry, blocks and parts, protection
information, data pointers (R92 to R98, R118, R122). Layouts of the NVMe standards the manual names are PRESUMED
(log entry 23). -/
namespace Sys2Proof.Machine
open Sys2Proof

/-! ## Statuses (R131), as SCT × 256 + SC -/

def Nv.ok : Nat := 0x000
def Nv.opcode : Nat := 0x001
def Nv.field : Nat := 0x002
def Nv.transfer : Nat := 0x004
def Nv.internal : Nat := 0x006
def Nv.sqDeletion : Nat := 0x008
def Nv.namespace_ : Nat := 0x00B
def Nv.transient : Nat := 0x022
def Nv.lbaRange : Nat := 0x080
def Nv.capacity : Nat := 0x081
def Nv.aerLimit : Nat := 0x105
def Nv.readError : Nat := 0x281
def Nv.guard : Nat := 0x282
def Nv.appTag : Nat := 0x283
def Nv.refTag : Nat := 0x284
def Nv.denied : Nat := 0x286
def Nv.inaccessible : Nat := 0x302
def Nv.transition : Nat := 0x303

/-! ## Fields of a submission queue entry -/

def NvmeCmd.op (c : NvmeCmd) : Nat := fieldAt c.sqe 0 1
def NvmeCmd.cid (c : NvmeCmd) : Nat := fieldAt c.sqe 2 2
def NvmeCmd.nsid (c : NvmeCmd) : Nat := fieldAt c.sqe 4 4
def NvmeCmd.cdw (c : NvmeCmd) (n : Nat) : Nat := fieldAt c.sqe (4 * n) 4
def NvmeCmd.slba (c : NvmeCmd) : Nat := fieldAt c.sqe 40 8
def NvmeCmd.nlb (c : NvmeCmd) : Nat := fieldAt c.sqe 48 2 + 1
def NvmeCmd.pract (c : NvmeCmd) : Bool := (c.cdw 12).testBit 29
def NvmeCmd.prchk (c : NvmeCmd) (i : Nat) : Bool := (c.cdw 12).testBit (26 + i)
def NvmeCmd.deac (c : NvmeCmd) : Bool := (c.cdw 12).testBit 25
def NvmeCmd.refBase (c : NvmeCmd) : Nat := c.cdw 14 + c.cdw 3 % 2 ^ 16 * 2 ^ 32
def NvmeCmd.appTag (c : NvmeCmd) : Nat := c.cdw 15 % 2 ^ 16
def NvmeCmd.appMask (c : NvmeCmd) : Nat := c.cdw 15 / 2 ^ 16

/-- I/O opcodes of R93, and the admin opcodes the Parlour answers itself (R94). -/
def Nop.flush : Nat := 0x00
def Nop.write : Nat := 0x01
def Nop.read : Nat := 0x02
def Nop.writeZeroes : Nat := 0x08
def Nop.dsm : Nat := 0x09
def Nop.verify : Nat := 0x0C
def Nop.secure : Nat := 0x84
def Nop.fabrics : Nat := 0x7F
def Nadm.abort : Nat := 0x08
def Nadm.aer : Nat := 0x0C
def Nadm.keepAlive : Nat := 0x18

/-- Whether a command stands on an admin queue of this head; the peer forwards I/O commands only. -/
def NvmeCmd.admin (c : NvmeCmd) : Bool := c.qid == 0 && c.origin.isNone

/-- Whether a command is an I/O command that writes, deallocates or erases. -/
def NvmeCmd.mutates (c : NvmeCmd) : Bool :=
  !c.admin && [Nop.write, Nop.writeZeroes, Nop.dsm, Nop.secure].contains c.op

/-- Whether a command names a block range in its SLBA and NLB. -/
def NvmeCmd.ranged (c : NvmeCmd) : Bool :=
  !c.admin && [Nop.write, Nop.read, Nop.writeZeroes, Nop.verify, Nop.secure].contains c.op

/-! ## Formats (R95) -/

def lbaBytes (lbaf : Nat) : Nat := if lbaf = 3 ∨ lbaf = 4 then 512 else 4096
def lbaMeta (lbaf : Nat) : Nat := if lbaf = 1 ∨ lbaf = 4 then 8 else if lbaf = 2 then 16 else 0

/-- Logical blocks in a 4 KiB block. -/
def perBlock (lbaf : Nat) : Nat := 4096 / lbaBytes lbaf

/-- PI_KIND of a format (R169). -/
def piKind (lbaf : Nat) : Nat := if lbaf = 1 then 1 else if lbaf = 2 then 2 else if lbaf = 4 then 3 else 0

/-- Metadata bytes of one logical block in a command's data stream: none where PRACT makes the Parlour insert or strip the
protection information. -/
def NvmeCmd.metaBytes (c : NvmeCmd) (e : List Byte) : Nat :=
  if volPi e ≠ 0 ∧ c.pract then 0 else lbaMeta (volLbaf e)

/-- Bytes of one logical block in a command's data stream. -/
def NvmeCmd.lbaLen (c : NvmeCmd) (e : List Byte) : Nat := lbaBytes (volLbaf e) + c.metaBytes e

/-! ## Blocks and parts (R19, R118) -/

/-- The ranges of a Dataset Management payload, as (first logical block, count). -/
def NvmeCmd.ranges (c : NvmeCmd) : List (Nat × Nat) :=
  (List.range (c.cdw 10 % 256 + 1)).map fun i => (fieldAt c.buf (16 * i + 8) 8, fieldAt c.buf (16 * i + 4) 4)

/-- Bytes of the range list of a Dataset Management. -/
def NvmeCmd.rangeBytes (c : NvmeCmd) : Nat := (c.cdw 10 % 256 + 1) * 16

/-- Whether a command is a Dataset Management whose ranges have not arrived yet. -/
def NvmeCmd.unranged (c : NvmeCmd) : Bool := !c.admin && c.op == Nop.dsm && decide (c.buf.length < c.rangeBytes)

/-- The logical-block ranges a command names; none while they are not known. -/
def NvmeCmd.lbas (c : NvmeCmd) : List (Nat × Nat) :=
  if !c.admin ∧ c.op = Nop.dsm then (if c.unranged then [] else c.ranges) else if c.ranged then [(c.slba, c.nlb)] else []

/-- The 4 KiB blocks a range of logical blocks touches, as (first, count). -/
def lbaBlocks (lbaf : Nat) (r : Nat × Nat) : Nat × Nat :=
  let p := perBlock lbaf
  (r.1 / p, if r.2 = 0 then 0 else (r.1 + r.2 - 1) / p - r.1 / p + 1)

/-- A range of blocks split at extent boundaries: (shard, first block, count). -/
def splitExtents (vol : Nat) : Nat → Nat → Nat → List (Nat × Nat × Nat)
  | 0, _, _ => []
  | fuel + 1, b, n =>
    if n = 0 then []
    else
      let here := min n (4096 - b % 4096)
      (blockShard vol b, b, here) :: splitExtents vol fuel (b + here) (n - here)

/-- The parts of a command: (shard, first block, count). -/
def NvmeCmd.parts (c : NvmeCmd) (e : List Byte) : List (Nat × Nat × Nat) :=
  let all := c.lbas.flatMap fun r =>
    let x := lbaBlocks (volLbaf e) r
    splitExtents c.vol (x.2 / 4096 + 2) x.1 x.2
  match c.only with
  | some sh => all.filter (·.1 == sh)
  | none => all

/-- The shards a command touches. -/
def NvmeCmd.shards (c : NvmeCmd) (e : List Byte) : List Nat := ((c.parts e).map (·.1)).eraseDups

/-- The shard of a command's first part, or of extent 0 where it names no block. -/
def NvmeCmd.firstShard (c : NvmeCmd) (e : List Byte) : Nat := ((c.parts e).map (·.1)).headD (c.vol % 256)

/-- Whether a command touches a run of blocks; one whose ranges are not known yet may touch any. -/
def NvmeCmd.touches (c : NvmeCmd) (e : List Byte) (block count : Nat) : Bool :=
  c.unranged || (c.parts e).any fun x => decide (x.2.1 < block + count) && decide (block < x.2.1 + x.2.2)

/-- Whether two commands of one volume overlap in 4 KiB blocks. -/
def NvmeCmd.overlaps (a b : NvmeCmd) (e : List Byte) : Bool :=
  a.vol == b.vol && (a.unranged || (a.parts e).any fun x => b.touches e x.2.1 x.2.2)

/-- The logical blocks of a command that lie in one 4 KiB block: (first, count). -/
def NvmeCmd.sectors (c : NvmeCmd) (e : List Byte) (block : Nat) : Nat × Nat :=
  let p := perBlock (volLbaf e)
  let lo := max c.slba (block * p)
  let hi := min (c.slba + c.nlb) (block * p + p)
  (lo, hi - lo)

/-- The first logical block of the command's data stream: of the whole range, or of the one part executed here. -/
def NvmeCmd.streamStart (c : NvmeCmd) (e : List Byte) : Nat :=
  match c.only with
  | none => c.slba
  | some _ => max c.slba (((c.parts e).map (·.2.1)).headD 0 * perBlock (volLbaf e))

/-- Bytes of the command's data stream: the whole range, or the part executed here. -/
def NvmeCmd.streamLen (c : NvmeCmd) (e : List Byte) : Nat :=
  ((c.parts e).map fun x => (List.range x.2.2).foldl (fun n i => n + (c.sectors e (x.2.1 + i)).2) 0).sum * c.lbaLen e

/-- Bytes of the whole transfer between the host and the command. -/
def NvmeCmd.hostLen (c : NvmeCmd) (e : List Byte) : Nat := c.nlb * c.lbaLen e

/-! ## Protection information (R96) -/

/-- Guard of a logical block in its format. -/
def lbaGuard (lbaf : Nat) (d : List Byte) : Nat := if lbaf = 2 then guard64 d else guard16 d

/-- The protection information of a logical block: guard, application tag, reference tag, most significant byte first. -/
def piBytes (lbaf guard app ref : Nat) : List Byte :=
  if lbaf = 2 then beBytes 8 guard ++ beBytes 2 app ++ beBytes 6 ref else beBytes 2 guard ++ beBytes 2 app ++ beBytes 4 ref

/-- Guard, application tag and reference tag of protection information. -/
def piRead (lbaf : Nat) (b : List Byte) : Nat × Nat × Nat :=
  if lbaf = 2 then (beNat (slice b 0 8), beNat (slice b 8 2), beNat (slice b 10 6))
  else (beNat (slice b 0 2), beNat (slice b 2 2), beNat (slice b 4 4))

/-- Reference tags wrap at their width. -/
def refWrap (lbaf ref : Nat) : Nat := if lbaf = 2 then ref % 2 ^ 48 else ref % 2 ^ 32

/-- Whether tags switch the checks off: application tag FFFFh, and for Type 3 all ones in the reference tag too. -/
def piEscape (e : List Byte) (app ref : Nat) : Bool :=
  app == 0xFFFF && (volPi e == 1 || ref == (if volLbaf e = 2 then 2 ^ 48 - 1 else 2 ^ 32 - 1))

/-- The checks of one logical block under PRCHK; `lba` is its number. 0, or the status of the first that fails. -/
def NvmeCmd.piCheck (c : NvmeCmd) (e d : List Byte) (lba guard app ref : Nat) : Nat :=
  if volPi e = 0 ∨ piEscape e app ref then 0
  else if c.prchk 2 && guard != lbaGuard (volLbaf e) d then Nv.guard
  else if c.prchk 1 && app &&& c.appMask != c.appTag &&& c.appMask then Nv.appTag
  else if c.prchk 0 && volPi e == 1 && ref != refWrap (volLbaf e) (c.refBase + (lba - c.slba)) then Nv.refTag
  else 0

/-- The first status that is not 0. -/
def firstBad (l : List Nat) : Nat := (l.find? (· != 0)).getD 0

/-- Reference tag of logical block `i` of a stored block: Type 1 counts up from the stored tag (R257). -/
def lbaRef (e : List Byte) (ref i : Nat) : Nat := if volPi e = 1 then refWrap (volLbaf e) (ref + i) else ref

/-- What a read delivers of one block to the host: the logical blocks of the range, each followed by its metadata. Metadata
of a namespace without protection information is a free value: nothing says where it is kept (log entry 24). -/
def NvmeCmd.readOut (c : NvmeCmd) (e raw : List Byte) (block app ref : Nat) (free : Nat → Byte) : List Byte :=
  let f := volLbaf e
  let x := c.sectors e block
  (List.range x.2).flatMap fun i =>
    let j := x.1 + i - block * perBlock f
    let d := slice raw (j * lbaBytes f) (lbaBytes f)
    d ++ (if c.metaBytes e = 0 then []
      else if volPi e = 0 then (List.range (lbaMeta f)).map fun k => free (j * 16 + k)
      else piBytes f (lbaGuard f d) app (lbaRef e ref j))

/-- The checks of a read or Verify on the logical blocks of one block. -/
def NvmeCmd.readCheck (c : NvmeCmd) (e raw : List Byte) (block app ref : Nat) : Nat :=
  let f := volLbaf e
  let x := c.sectors e block
  firstBad <| (List.range x.2).map fun i =>
    let j := x.1 + i - block * perBlock f
    let d := slice raw (j * lbaBytes f) (lbaBytes f)
    c.piCheck e d (x.1 + i) (lbaGuard f d) app (lbaRef e ref j)

/-- The data of logical block `lba` in the stream of a write, and its metadata. -/
def NvmeCmd.streamLba (c : NvmeCmd) (e : List Byte) (lba : Nat) : List Byte × List Byte :=
  let b := slice c.buf ((lba - c.streamStart e) * c.lbaLen e) (c.lbaLen e)
  (b.take (lbaBytes (volLbaf e)), b.drop (lbaBytes (volLbaf e)))

/-- The checks of a write on its logical blocks (R96). PRACT makes the Parlour generate the information instead. -/
def NvmeCmd.writeCheck (c : NvmeCmd) (e : List Byte) (block : Nat) : Nat :=
  if volPi e = 0 ∨ c.pract then 0
  else
    let x := c.sectors e block
    firstBad <| (List.range x.2).map fun i =>
      let (d, m) := c.streamLba e (x.1 + i)
      let t := piRead (volLbaf e) m
      c.piCheck e d (x.1 + i) t.1 t.2.1 t.2.2

/-- Application and reference tag that a write stores with a block; the reference
tag of Type 1 is that of the block's first logical block. -/
def NvmeCmd.writeTags (c : NvmeCmd) (e : List Byte) (block : Nat) : Nat × Nat :=
  if volPi e = 0 then (0, 0)
  else
    let x := c.sectors e block
    let j := x.1 - block * perBlock (volLbaf e)
    let back := fun r => if volPi e = 1 then refWrap (volLbaf e) (r + 2 ^ 48 - j) else r
    if c.pract then (c.appTag, back (if volPi e = 1 then c.refBase + (x.1 - c.slba) else c.refBase))
    else
      let t := piRead (volLbaf e) (c.streamLba e x.1).2
      (t.2.1, back t.2.2)

/-- The block a write stores: the range's logical blocks laid over `old` (R97). -/
def NvmeCmd.merged (c : NvmeCmd) (e old : List Byte) (block : Nat) : List Byte :=
  let f := volLbaf e
  let x := c.sectors e block
  (List.range x.2).foldl (fun b i =>
    splice b ((x.1 + i - block * perBlock f) * lbaBytes f)
      (if c.op = Nop.writeZeroes then zeros (lbaBytes f) else (c.streamLba e (x.1 + i)).1)) old

/-- Whether a command covers only some logical blocks of a block. -/
def NvmeCmd.partialBlk (c : NvmeCmd) (e : List Byte) (block : Nat) : Bool := (c.sectors e block).2 != perBlock (volLbaf e)

/-! ## Data pointers (R92) -/

/-- One data block of a command's data pointer: host address, length, key; in-capsule data have no address. -/
structure Seg where
  inCap : Bool
  addr : Nat
  len : Nat
  key : Nat
deriving DecidableEq, Repr

/-- A 16-byte SGL descriptor as one data block, if its type is one of R92 for the transport. -/
def sglSeg (rdma : Bool) (d : List Byte) : Option Seg :=
  let t := fieldAt d 15 1
  if t / 16 = 4 ∧ rdma then some ⟨false, fieldAt d 0 8, fieldAt d 8 3, fieldAt d 11 4⟩
  else if t = 0x5A ∧ !rdma then some ⟨false, 0, fieldAt d 8 4, 0⟩
  else if t = 0x01 ∧ fieldAt d 0 8 = 0 then some ⟨true, 0, fieldAt d 8 4, 0⟩
  else none

/-- The data blocks of a command: its descriptor, or those of a Last Segment in the capsule. -/
def NvmeCmd.segs (c : NvmeCmd) (rdma : Bool) : Option (List Seg) :=
  let d := slice c.sqe 24 16
  if fieldAt d 15 1 = 0x31 then
    let n := fieldAt d 8 4
    if n % 16 ≠ 0 ∨ n = 0 ∨ 256 < n ∨ c.incap.length < fieldAt d 0 8 + n then none
    else (List.range (n / 16)).mapM fun i => sglSeg rdma (slice c.incap (fieldAt d 0 8 + 16 * i) 16)
  else (sglSeg rdma d).map fun x => [x]

end Sys2Proof.Machine
end

