-- ==== Sys2Proof/Machine/RailOps.lean ====
section
/-! DEFINITION. The transport contexts of the Rails: residence, headers, rate control, the send queue, acknowledgement, errors,
memory regions and their invalidation, Rail failure (R65 to R81, R87). -/
namespace Sys2Proof.Machine
open Sys2Proof

/-! ## Contexts -/

def State.setRails (s : State) (r : Rails) : State := { s with rails := r }

def State.ctx (s : State) (c : Nat) : Option Ctx := Tab.get? s.rails.ctxs c

def State.setCtx (s : State) (c : Nat) (x : Ctx) : State := s.setRails { s.rails with ctxs := Tab.set s.rails.ctxs c x }

def State.dropCtx (s : State) (c : Nat) : State := s.setRails { s.rails with ctxs := Tab.del s.rails.ctxs c }

/-- Queue-pair states of R69. -/
def Qst.reset : Nat := 0
def Qst.init : Nat := 1
def Qst.rtr : Nat := 2
def Qst.rts : Nat := 3
def Qst.sqd : Nat := 4
def Qst.err : Nat := 5

/-- QP number of context 0 (R68). -/
def qpBase : Nat := 0x20000

/-- Logical port `l` of a Rail as a number of the head (R64). -/
def railLport (r : Rail) (l : Nat) : Nat := railIx r * 8 + l

/-- The Rail of a physical port. -/
def portRail (p : Nat) : Rail := if p < 2 then .a else .b

/-- Mode of the physical port that holds logical port `x`. -/
def State.portMode (s : State) (x : Nat) : Nat := s.rd (RAIL_PORT_CFG.MODE (x / 8) (x / 4 % 2))

/-- Whether logical port `x` exists in its port's mode (R64). -/
def State.lportActive (s : State) (x : Nat) : Bool :=
  let m := s.portMode x
  m == 2 || (m == 1 && x % 2 == 0) || (m == 0 && x % 4 == 0)

/-- Line rate of a logical port in 100 Mb/s (R80). -/
def State.lineRate (s : State) (x : Nat) : Nat := if s.portMode x = 0 then 4000 else if s.portMode x = 1 then 2000 else 1000

def Rst'.off : Nat := 0
def Rst'.active : Nat := 1
def Rst'.failed : Nat := 2

/-- Whether a Rail is ACTIVE. -/
def State.railActive (s : State) (r : Rail) : Bool := s.rd (RAIL_STATUS.STATE (railIx r)) == Rst'.active

/-- The queue pair of context `c`. -/
def State.qp (s : State) (c : Nat) : Option Qp := (s.ctx c).bind Ctx.qp?

/-- The state with the queue pair of `c` replaced. -/
def State.setQp (s : State) (c : Nat) (q : Qp) : State :=
  match s.ctx c with
  | some x => s.setCtx c { x with body := .qp q }
  | none => s

/-- The state with the connection of `c` replaced. -/
def State.setTcp (s : State) (c : Nat) (t : Tcp) : State :=
  match s.ctx c with
  | some x => s.setCtx c { x with body := .tcp t }
  | none => s

/-- The physical port an item leaves by. -/
def TxItem.port : TxItem → Nat
  | .roce x _ _ => x / 4
  | .tcp x _ _ => x / 4
  | .frame x _ _ => x / 4
  | .pfc p _ _ => p

/-- Something sent at a port, unless the transmitters of its Rail are in electrical idle (R87). -/
def State.emit (s : State) (i : TxItem) : State :=
  if s.rails.idle.contains (portRail i.port) then s else s.setRails { s.rails with tx := i :: s.rails.tx }

/-- The default tag of a logical port (RAIL_LPORT_MAC). -/
def State.lportTag (s : State) (x : Nat) : Option (Nat × Nat) :=
  let i := x / 8
  let l := x % 8
  if s.on (RAIL_LPORT_MAC.TAG_EN i l) then some (s.rd (RAIL_LPORT_MAC.VID i l), s.rd (RAIL_LPORT_MAC.PCP i l)) else none

/-- The tag of traffic of a GID entry: its own where TAG_EN is 1, else that of the logical port. -/
def State.gidTag (s : State) (x g : Nat) : Option (Nat × Nat) :=
  let i := x / 8
  let l := x % 8
  if s.on (RDMA_GID_CTL.TAG_EN i l g) then some (s.rd (RDMA_GID_CTL.VID i l g), s.rd (RAIL_LPORT_MAC.PCP i l)) else s.lportTag x

/-- The headers of what a context sends at logical port `x`: GID entry `gid` modulo 16, the path of R85, and the ECN bits where
they are not the path's. -/
def State.netHdr (s : State) (x gid : Nat) (path : List Byte) (ecn : Option Nat := none) (udp : Option (Nat × Nat) := none) :
    NetHdr :=
  let g := gid % 16
  let tc := fieldAt path 22 1
  { smac := s.rd (RAIL_LPORT_MAC.MAC (x / 8) (x % 8)), dmac := slice path 16 6, tag := s.gidTag x g,
    sgid := leBytes 8 (s.rd (RDMA_GID_HI.VALUE (x / 8) (x % 8) g)) ++ leBytes 8 (s.rd (RDMA_GID_LO.VALUE (x / 8) (x % 8) g)),
    dgid := path.take 16, tclass := match ecn with
      | some e => tc / 4 * 4 + e
      | none => tc
    hops := fieldAt path 23 1, flow := fieldAt path 24 4 % 2 ^ 20, udp := udp }

/-- A RoCEv2 packet of context `c`: UDP destination port 4791, the source port a hash of the QP number (R67). -/
def State.sendRoce (s : State) (c : Nat) (x : Ctx) (q : Qp) (p : RocePkt) : State :=
  s.emit (.roce x.lport (s.netHdr x.lport q.gid q.path none (some (Config.udpPort (qpBase + c) % 2 ^ 16, 4791))) p)

/-- A segment of a connection; ECT(0) marks new data where ECN is on (RFC 3168). -/
def State.sendTcp (s : State) (x : Ctx) (t : Tcp) (g : TcpSeg) (fresh : Bool) : State :=
  s.emit (.tcp x.lport (s.netHdr x.lport t.gid t.path (some (if t.ecnOn && fresh then 2 else 0))) g)

/-- Reads' pins lowered once their data have left on the Rail (R35); entries that may go are removed. -/
def State.unpin (s : State) (ps : List (Nat × Nat × Nat)) : State :=
  if ps.isEmpty then s
  else (ps.foldl (fun s p =>
    s.widxMap (fun e => e.vol == p.1 && e.block == p.2.1 && e.dseq == p.2.2) fun e => { e with pins := e.pins - 1 }) s).widxReap

/-! ## Residence (R70 to R72) -/

/-- Contexts of a Rail in its cache. -/
def State.residents (s : State) (r : Rail) : List Nat :=
  (s.rails.ctxs.filter fun e => e.2.rail == r && e.2.resident).map (·.1)

/-- RDMA_CACHE_STATUS kept. -/
def State.countCache (s : State) (r : Rail) : State :=
  let i := railIx r
  let mine := s.rails.ctxs.filter fun e => e.2.rail == r
  ((s.wr (RDMA_CACHE_STATUS.RESIDENT i) (s.residents r).length).wr (RDMA_CACHE_STATUS.PINNED i)
    (mine.filter (·.2.pin)).length).wr (RDMA_CACHE_STATUS.FETCHES i)
      (s.rails.fetches.filter fun c => mine.any (·.1 == c)).length

/-- The least recently used unpinned resident context of a Rail. -/
def State.coldest (s : State) (r : Rail) : Option Nat :=
  ((s.rails.ctxs.filter fun e => e.2.rail == r && e.2.resident && !e.2.pin).foldl
    (fun (best : Option (Nat × Nat)) e => match best with
      | some b => if e.2.used < b.2 then some (e.1, e.2.used) else best
      | none => some (e.1, e.2.used)) none).map (·.1)

/-- A context leaves its Rail's cache through the Rail's eviction buffer of 64 entries; the oldest beyond them is written
back (R70). -/
def State.evictCtx (s : State) (c : Nat) : State :=
  match s.ctx c with
  | none => s
  | some x =>
    let s := s.setCtx c { x with resident := false, evicting := true }
    let mine := (s.rails.evict.filter fun k => ((s.ctx k).map fun y => y.rail == x.rail).getD false) ++ [c]
    let out := mine.take (mine.length - 64)
    let s := s.setRails { s.rails with evict := (s.rails.evict ++ [c]).filter fun k => !out.contains k }
    out.foldl (fun s k => match s.ctx k with
      | some y => s.setCtx k { y with evicting := false }
      | none => s) s

/-- A use of a context, for the choice of the least recently used one. -/
def State.touch (s : State) (c : Nat) : State :=
  match s.ctx c with
  | none => s
  | some x =>
    let s := s.setCtx c { x with used := s.rails.uses + 1 }
    s.setRails { s.rails with uses := s.rails.uses + 1 }

/-- A context takes a slot of its Rail's cache. -/
def State.cacheCtx (s : State) (c : Nat) : State :=
  match s.ctx c with
  | none => s
  | some x =>
    let s := if 8192 ≤ (s.residents x.rail).length then (match s.coldest x.rail with
      | some k => s.evictCtx k
      | none => s) else s
    let s := s.setCtx c { x with resident := true, evicting := false }
    ((s.setRails { s.rails with evict := s.rails.evict.filter (· != c) }).touch c).countCache x.rail

/-- A context used by a descriptor or by what it sends: brought into the cache where it is not there. -/
def State.useCtx (s : State) (c : Nat) : State :=
  if ((s.ctx c).map Ctx.resident).getD true then s.touch c else s.cacheCtx c

/-- The packets of a context that a fault queue holds leave it, and its fetch ends. -/
def State.dropHeld (s : State) (c : Nat) : State :=
  let s := (s.rails.held.filter fun e => e.2.1 == c).foldl (fun s e =>
    s.drop (RDMA_FAULTQ.BYTES (railIx (portRail e.1)) (e.1 % 2)) e.2.2.size) s
  s.setRails { s.rails with held := s.rails.held.filter (fun e => e.2.1 != c), fetches := s.rails.fetches.filter (· != c) }

/-! ## Rate control (R79 to R81) -/

/-- A CNP, or an event that counts as one, at a context. -/
def State.cnp (s : State) (c : Nat) : State :=
  match s.ctx c with
  | none => s
  | some x =>
    let i := railIx x.rail
    if !s.on (RDMA_CC_CFG1.CC_EN i) then s
    else
      let gap := s.rd (RDMA_CC_CFG0.CUT_GAP i) * 1024
      let x := if (match x.lastCut with
          | some t => decide (t + gap ≤ s.now)
          | none => true) then
          { x with target := x.rate, rate := max (s.rd (RDMA_CC_CFG1.R_MIN i)) (x.rate - x.rate * s.rd (RDMA_CC_CFG0.CUT_NUM i) / 256),
                   lastCut := some s.now, stage := 0 }
        else x
      s.setCtx c { x with riseAt := some (s.now + s.rd (RDMA_CC_CFG0.RISE_PERIOD i) * 1024) }

/-- A CE-marked packet makes the Rail send a CNP to the source QP, at most once per CNP_GAP (R79). -/
def State.sendCnp (s : State) (c : Nat) : State :=
  match s.ctx c with
  | none => s
  | some x =>
    let i := railIx x.rail
    match x.qp? with
    | none => s
    | some q =>
      let ok := match x.lastCnp with
        | some t => decide (t + s.rd (RDMA_CC_CFG1.CNP_GAP i) * 1024 ≤ s.now)
        | none => true
      if s.on (RDMA_CC_CFG1.CNP_EN i) && ok then
        (s.setCtx c { x with lastCnp := some s.now }).sendRoce c x q { qpn := q.dqpn, op := 0x81 }
      else s

/-! ## Memory regions (R73) -/

/-- The region a key names. -/
def State.mr (s : State) (key : Nat) : Option Mr := (Tab.get? s.rails.mrs (key / 256)).filter fun m => m.key == key && m.valid

/-- A responder check: the IOVA of the access, or none where it fails. -/
def State.remoteCheck (s : State) (q : Qp) (key va len : Nat) (write : Bool) : Option (Mr × Nat) :=
  match s.mr key with
  | none => none
  | some m =>
    if m.pd = q.pd ∧ m.raddr ≤ va ∧ va + len ≤ m.raddr + m.len
        ∧ (if write then q.rw && m.remoteWrite else q.rr && m.remoteRead) = true then some (m, m.base + (va - m.raddr))
    else none

/-- A local key check: the status of a failure. -/
def State.localCheck (s : State) (q : Qp) (key addr len : Nat) (write : Bool) : Option Nat :=
  match s.mr key with
  | none => some St.localProtection
  | some m =>
    if m.pd ≠ q.pd ∨ addr < m.base ∨ m.base + m.len < addr + len then some St.localProtection
    else if write && !m.localWrite then some St.mrAccess else none

/-- Whether a key names a region with the ODP access bit. -/
def State.odpKey (s : State) (key : Nat) : Bool := ((s.mr key).map (·.odp)).getD false

/-- Whether a fault in a region is paged for a queue pair: the region has the ODP access bit (`odp`), the queue pair's flags
have ODP (R84), and software owns it (R76, R78). -/
def Ctx.pages (x : Ctx) (q : Qp) (odp : Bool) : Bool := odp && q.odp && !x.parlour

/-! ## Invalidation (R74, R75) -/

/-- Whether a queue pair is in RTR, RTS or SQD. -/
def Qp.live (q : Qp) : Bool := q.st == Qst.rtr || q.st == Qst.rts || q.st == Qst.sqd

/-- The unfinished messages of a queue pair on the region of a key, as (kind, PSN): 0 one that arrives, 1 a READ to be answered,
2 a request sent and not acknowledged. -/
def Qp.messages (q : Qp) (key : Nat) : List (Nat × Nat) :=
  if q.live then
    ((q.cur.toList.filter (·.key == some key)).map fun m => (0, m.psn))
      ++ ((q.reads.filter fun r => !r.done && r.key == key).map fun r => (1, r.psn))
      ++ ((q.sq.filter fun w => w.sent && w.owner.ring.isSome && w.lkey == key).map fun w => (2, w.psn))
  else []

/-- The unfinished messages of all queue pairs on the region of a key. -/
def State.messages (s : State) (key : Nat) : List (Nat × Nat × Nat) :=
  s.rails.ctxs.flatMap fun e => match e.2.qp? with
    | some q => (q.messages key).map fun m => (e.1, m)
    | none => []

/-- An invalidation has drained: its descriptor or its receive completes. -/
def State.invalDone (s : State) (v : Invalidate) : State :=
  let s := match v.desc with
    | some d => s.finish .railC d St.success 0 v.drained
    | none => s
  match v.recv with
  | some (r, d, info, len, _) => s.finish (railUnit r) d St.success info len
  | none => s

/-- What an invalidation still waits for; a message gone from a live queue pair has finished and counts as drained. -/
def State.invalLeft (s : State) (v : Invalidate) : Invalidate :=
  if v.visible then
    let now := s.messages v.key
    let gone := v.holders.filter fun h => !now.contains h
    { v with holders := v.holders.filter now.contains,
             drained := v.drained + (gone.filter fun h => ((s.qp h.1).map Qp.live).getD false).length }
  else v

/-- Invalidations whose messages are gone complete. -/
def State.invalSettle (s : State) : State :=
  let upd := s.rails.invs.map s.invalLeft
  let s := s.setRails { s.rails with invs := upd.filter fun v => !(v.visible && v.holders.isEmpty) }
  (upd.filter fun v => v.visible && v.holders.isEmpty).foldl (fun s v => s.invalDone v) s

/-- The visibility point: the entry is invalid, and the wait for the messages checked before it begins, with its limit. -/
def State.invalVisible (s : State) (v : Invalidate) : State :=
  let w := { v with visible := true, holders := s.messages v.key, limit := some (s.inMgmt (s.rd RDMA_MR_TABLE.DRAIN_LIMIT)) }
  let s := s.setRails { s.rails with
    mrs := Tab.mapV s.rails.mrs (fun _ m => if m.key = v.key then { m with valid := false } else m)
    invs := s.rails.invs.map (fun u => if u = v then w else u) }
  s.invalSettle

/-- An invalidation begins: every Rail that is not FAILED has to acknowledge it. -/
def State.invalBegin (s : State) (key : Nat) (d : Option DescRef) (recv : Option (Rail × DescRef × Nat × Nat × Nat)) : State :=
  let v : Invalidate := {
    key := key, desc := d, recv := recv, waitA := s.rd (RAIL_STATUS.STATE 0) != Rst'.failed,
    waitB := s.rd (RAIL_STATUS.STATE 1) != Rst'.failed }
  let s := s.setRails { s.rails with invs := s.rails.invs ++ [v] }
  if v.waitA ∨ v.waitB then s else s.invalVisible v

/-! ## On-demand paging (R76, R77) -/

/-- RDMA_ODP_STATUS kept. -/
def State.countOdp (s : State) (r : Rail) : State :=
  let mine := fun c => ((s.ctx c).map fun x => x.rail == r).getD false
  (s.wr (RDMA_ODP_STATUS.QUEUED (railIx r)) (s.rails.odpQ.filter fun e => mine e.1).length).wr
    (RDMA_ODP_STATUS.PENDING (railIx r)) (s.rails.odpPend.filter fun e => mine e.1).length

/-- Reports delivered to waiting ODP_WAIT descriptors, the oldest to the oldest; pending contexts follow in ascending
order. -/
def State.odpDeliver (s : State) (r : Rail) : Nat → State
  | 0 => s.countOdp r
  | n + 1 =>
    let mine := fun c => ((s.ctx c).map fun x => x.rail == r).getD false
    let q := s.rails.odpQ.filter fun e => mine e.1
    match s.rails.odpPend.find? (fun e => mine e.1), decide (q.length < 256) with
    | some (c, iova, resp), true =>
      (s.setRails { s.rails with odpQ := s.rails.odpQ ++ [(c, iova, resp)], odpPend := Tab.del s.rails.odpPend c }).odpDeliver r n
    | _, _ =>
      match q, s.firstWaiting (railUnit r) Op.odpWait with
      | e :: _, some (d, _) =>
        ((s.setRails { s.rails with odpQ := s.rails.odpQ.erase e }).finish (railUnit r) d St.success
          (e.1 + (if e.2.2 then 2 ^ 17 else 0)) e.2.1).odpDeliver r n
      | _, _ => s.countOdp r

/-- An access that meets an unmapped page of an ODP region is held and reported; `send` as in `OdpHold`. -/
def State.odpFault (s : State) (c iova : Nat) (resp : Bool) (send : Bool := false) : State :=
  match s.ctx c with
  | none => s
  | some x =>
    match x.qp? with
    | none => s
    | some q =>
      if q.hold.isSome then s
      else
        let s := s.setQp c { q with hold := some ⟨resp, iova, s.now, send⟩ }
        let full := decide (256 ≤ (s.rails.odpQ.filter fun e => ((s.ctx e.1).map fun y => y.rail == x.rail).getD false).length)
        let s := if full then
            (s.setRails { s.rails with odpPend := Tab.set s.rails.odpPend c (iova, resp) }).bump (RDMA_ODP_STATUS.OVERFLOWS (railIx x.rail)) 1
          else s.setRails { s.rails with odpQ := s.rails.odpQ ++ [(c, iova, resp)] }
        s.odpDeliver x.rail 257

/-- The report of a context is taken back: a pending context takes its place (R77). -/
def State.odpGone (s : State) (r : Rail) (c : Nat) : State :=
  let s := s.setRails { s.rails with odpQ := s.rails.odpQ.filter (fun e => e.1 != c), odpPend := Tab.del s.rails.odpPend c }
  s.odpDeliver r 257

/-! ## Errors of a queue pair (R69) -/

/-- Posted work of a queue pair completes FLUSHED, but for the send request at index `at_` where `first` gives its status, and
the oldest receive where `recv` does. -/
def State.flushQp (s : State) (r : Rail) (q : Qp) (first : Option Nat) (at_ : Nat := 0) (recv : Option Nat := none) : State :=
  let u := railUnit r
  let s := q.sq.zipIdx.foldl (fun s e => match e.1.owner with
    | .desc d => s.finish u d (if e.2 = at_ then first.getD St.flushed else St.flushed)
    | _ => s) s
  let s := q.rq.zipIdx.foldl (fun s e => s.finish u e.1.d (if e.2 = 0 then recv.getD St.flushed else St.flushed)) s
  q.sqd.foldl (fun s e => s.finish u e.1 St.flushed Qst.err) s

/-- A queue pair enters ERR: its work is flushed, the Tally records it unless QP_MODIFY asked for it, invalidations stop
waiting for it, and the Parlour is told where the context is its own. -/
def State.qpErr (s : State) (c : Nat) (first : Option Nat) (modify : Bool := false) (at_ : Nat := 0) (recv : Option Nat := none) :
    State :=
  match s.ctx c with
  | none => s
  | some x =>
    match x.qp? with
    | none => s
    | some q =>
      if q.st = Qst.err then s
      else
        let s := s.setCtx c { x with body := .qp { q with
          st := Qst.err, sq := [], rq := [], cur := none, reads := [], hold := none, ackBy := none, rnrBy := none, sqd := [] } }
        let s := (s.flushQp x.rail q first at_ recv).unpin ((q.sq.filter (!·.sent)).flatMap (·.pins))
        let s := (s.odpGone x.rail c).invalSettle
        let s := if modify then s else s.raise Ev.qpErr (some (railUnit x.rail)) (some c) [c]
        if x.parlour then { s with par := { s.par with lost := s.par.lost ++ [c] } } else s

/-! ## Sending (R67, R69) -/

/-- Path MTU in bytes. A PMTU other than 1 to 3, for which R67 gives no meaning, counts as 4,096 (log entry 57). -/
def Qp.mtu (q : Qp) : Nat := if q.pmtu = 1 then 1024 else if q.pmtu = 2 then 2048 else 4096

/-- Packets of a message: one at least. -/
def Qp.packets (q : Qp) (len : Nat) : Nat := max 1 ((len + q.mtu - 1) / q.mtu)

/-- PSN `n` after `p`. -/
def psnAdd (p n : Nat) : Nat := (p + n) % 2 ^ 24

/-- Distance from PSN `a` on to `b`. -/
def psnDist (a b : Nat) : Nat := (b + 2 ^ 24 - a) % 2 ^ 24

/-- BTH opcode of packet `i` of `n` of a verb: SEND, SEND_IMM, SEND_INV, WRITE, WRITE_IMM. -/
def bthOp (verb i n : Nat) : Nat :=
  let base := if verb < 3 then 0x00 else 0x06
  if n = 1 then
    (if verb = 0 then 0x04 else if verb = 1 then 0x05 else if verb = 2 then 0x17 else if verb = 3 then 0x0A else 0x0B)
  else if i = 0 then base
  else if i + 1 < n then base + 1
  else if verb = 0 then 0x02 else if verb = 1 then 0x03 else if verb = 2 then 0x16 else if verb = 3 then 0x08 else 0x09

/-- The packets of a work request from PSN distance `k` on. -/
def Qp.wrPackets (q : Qp) (w : SendWr) (k : Nat) : List RocePkt :=
  if w.verb = 5 then
    let done := w.got.length
    [{ qpn := q.dqpn, op := 0x0C, psn := psnAdd w.psn (done / q.mtu), va := w.raddr + done, rkey := w.rkey, dmaLen := w.len - done }]
  else
    ((List.range w.npkts).drop k).map fun i =>
      { qpn := q.dqpn, op := bthOp w.verb i w.npkts, psn := psnAdd w.psn i, ackReq := i + 1 == w.npkts,
        va := if i = 0 then w.raddr else 0, rkey := if i = 0 then w.rkey else 0, dmaLen := if i = 0 then w.len else 0,
        imm := if i + 1 = w.npkts then w.imm else 0, data := slice w.data (i * q.mtu) q.mtu }

/-- Local ACK timeout in ticks: 4.096 µs × 2^TIMEOUT for encodings 8 to 31; 0 means none. -/
def Qp.ackTicks (q : Qp) : Option Nat := if q.timeout = 0 then none else some (65536 * 2 ^ q.timeout / 10)

/-- Whether a TIMEOUT is one the Rails support (R67). -/
def timeoutOk (n : Nat) : Bool := n == 0 || decide (8 ≤ n)

/-- Whether anything sent awaits its acknowledgement. -/
def Qp.outstanding (q : Qp) : Bool := q.sq.any (·.sent)

/-- The ACK timer restarted while something is outstanding. -/
def Qp.rearm (q : Qp) (now : Nat) : Qp := { q with ackBy := if q.outstanding then q.ackTicks.map (now + ·) else none }

/-- The first unsent request made ready: its data read from memory. -/
def State.loadWr (s : State) (r : Rail) (q : Qp) (w : SendWr) : Except (Sum Nat DmaErr) SendWr :=
  match w.owner with
  | .desc _ =>
    match s.localCheck q w.lkey w.addr w.len (w.verb == 5) with
    | some e => .error (.inl e)
    | none =>
      if w.verb = 5 then .ok w
      else match s.dmaRead (railUnit r) w.addr w.len w.owner.ring with
        | .ok bs => .ok { w with data := bs }
        | .error e => .error (.inr e)
  | _ => .ok w

/-- Requests sent in order while the queue pair may send: RTS, no held access, no RNR wait, at most 16 READs (R67). Pins on
the data of a request are lowered when it has left (R35). -/
def State.pump (s : State) (c : Nat) : Nat → State
  | 0 => s
  | n + 1 =>
    match s.ctx c with
    | none => s
    | some x =>
      match x.qp? with
      | none => s
      | some q =>
        let reads := (q.sq.filter fun w => w.sent && w.verb == 5).length
        match q.sq.findIdx? (!·.sent) with
        | none => s
        | some i =>
          let w := q.sq.getD i { owner := .parlour, verb := 0, addr := 0, len := 0 }
          if q.st ≠ Qst.rts || q.rnrBy.isSome || (q.hold.map (!·.responder)).getD false || (w.verb == 5 && decide (16 ≤ reads)) then s
          else match s.loadWr x.rail q w with
            | .error (.inl e) => s.qpErr c (some e) false i
            | .error (.inr e) =>
              let t := s.dmaFailed (railUnit x.rail) e
              (match e, x.pages q (s.odpKey w.lkey) with
                | .fault a, true => t.odpFault c a.addr false true
                | _, _ => t.qpErr c (some e.status) false i)
            | .ok w =>
              let k := q.packets w.len
              let w' := { w with psn := q.sqPsn, npkts := k, sent := true, pins := [] }
              let q := ({ q with sq := q.sq.set i w', sqPsn := psnAdd q.sqPsn k, tries := if q.outstanding then q.tries else q.retry,
                                 rnrTries := if q.outstanding then q.rnrTries else q.rnrRetry } : Qp)
              let q := if q.ackBy.isSome then q else q.rearm s.now
              let s := s.setQp c q
              (((q.wrPackets w' 0).foldl (fun s p => s.sendRoce c x q p) s).unpin w.pins).pump c n

/-- Everything sent and unacknowledged is sent again from PSN `from_` on (go-back-N). -/
def State.resend (s : State) (c from_ : Nat) : State :=
  let s := s.useCtx c
  match s.ctx c with
  | none => s
  | some x =>
    match x.qp? with
    | none => s
    | some q =>
      let q := q.rearm s.now
      let s := s.setQp c q
      (q.sq.filter (·.sent)).foldl (fun s w =>
        let k := psnDist w.psn from_
        let k := if k < w.npkts then k else if k < 2 ^ 23 then w.npkts else 0
        (if k < w.npkts then q.wrPackets w k else []).foldl (fun s p => s.sendRoce c x q p) s) s

/-- The oldest PSN not acknowledged. -/
def Qp.oldest (q : Qp) : Nat := ((q.sq.find? (·.sent)).map fun w => psnAdd w.psn (w.got.length / q.mtu)).getD q.sqPsn

/-- A send request has completed successfully. -/
def State.wrDone (s : State) (r : Rail) (w : SendWr) : State :=
  match w.owner with
  | .desc d => s.finish (railUnit r) d St.success
  | _ => s

/-- Whether a send before PSN `mark` is not acknowledged. -/
def Qp.waitsBefore (q : Qp) (mark : Nat) : Bool :=
  q.sq.any fun w => w.sent && w.psn != mark && decide (psnDist w.psn mark < 2 ^ 23)

/-- A QP_MODIFY to SQD completes once the sends that were outstanding at it are acknowledged. -/
def State.sqdDone (s : State) (c : Nat) : State :=
  match s.ctx c with
  | none => s
  | some x =>
    match x.qp? with
    | none => s
    | some q =>
      let s := s.setQp c { q with sqd := q.sqd.filter fun e => q.waitsBefore e.2 }
      (q.sqd.filter fun e => !q.waitsBefore e.2).foldl (fun s e => s.finish (railUnit x.rail) e.1 St.success Qst.sqd) s

/-- Acknowledgement up to PSN `psn`: requests leave in order, up to a READ whose response is still missing. -/
def State.acked (s : State) (c psn : Nat) : State :=
  match s.ctx c with
  | none => s
  | some x =>
    match x.qp? with
    | none => s
    | some q =>
      let isDone := fun (w : SendWr) => w.sent && w.verb != 5 && decide (psnDist w.psn psn < 2 ^ 23) && decide (w.npkts ≤ psnDist w.psn psn + 1)
      let gone := q.sq.takeWhile isDone
      let q := ({ q with sq := q.sq.drop gone.length, tries := if gone.isEmpty then q.tries else q.retry,
                         rnrTries := if gone.isEmpty then q.rnrTries else q.rnrRetry } : Qp)
      let s := s.setQp c (if gone.isEmpty then q else q.rearm s.now)
      let s := gone.foldl (fun s w => s.wrDone x.rail w) s
      ((s.invalSettle).sqdDone c).pump c 4096

/-- A work request of the Parlour on one of its queue pairs; where it cannot be posted, its pins are lowered. -/
def State.postWr (s : State) (c : Nat) (w : SendWr) : State :=
  match s.qp c with
  | none => s.unpin w.pins
  | some q => if q.st = Qst.rts ∨ q.st = Qst.sqd then ((s.useCtx c).setQp c { q with sq := q.sq ++ [w] }).pump c 4096
    else s.unpin w.pins

/-! ## The end of a context -/

/-- Write-index entries that data not sent yet keep pinned. -/
def Ctx.pins (x : Ctx) : List (Nat × Nat × Nat) :=
  match x.body with
  | .qp q => (q.sq.filter (!·.sent)).flatMap (·.pins)
  | .tcp t => t.pins.flatMap (·.2)

/-- A context is unbound: held packets, its fetch, its report and its pins go with it. -/
def State.ctxGone (s : State) (c : Nat) : State :=
  match s.ctx c with
  | none => s
  | some x =>
    let s := (s.dropHeld c).dropCtx c
    let s := s.setRails { s.rails with evict := s.rails.evict.filter (· != c) }
    (((s.odpGone x.rail c).countCache x.rail).invalSettle).unpin x.pins

/-! ## Flow control (R66) -/

/-- Bytes a port's receive buffer holds, tags included. -/
def State.rxHeld (s : State) (port : Nat) : Nat :=
  ((Tab.getD s.rails.rx port []).map fun f => f.size + (if f.tag.isSome then 4 else 0)).sum

/-- XOFF at a port whose buffer holds more than 640 KiB, for every priority under priority flow control that is not paused yet. -/
def State.xoff (s : State) (port : Nat) : State :=
  let i := port / 2
  let j := port % 2
  if s.on (RAIL_PORT_CFG.PFC_EN i j) && decide (655360 < s.rxHeld port) then
    let new := (List.range 8).filter fun p => s.bit (RAIL_PORT_CFG.PFC_PRIO i j) p && !s.rails.xoff.contains (port, p)
    new.foldl (fun s p => (s.setRails { s.rails with xoff := s.rails.xoff ++ [(port, p)] }).emit (.pfc port p true)) s
  else s

/-- XON for the priorities paused at a port whose buffer has fallen below 384 KiB. -/
def State.xon (s : State) (port : Nat) : State :=
  if s.rxHeld port < 393216 then
    let mine := s.rails.xoff.filter (·.1 == port)
    let s := mine.foldl (fun s e => s.emit (.pfc e.1 e.2 false)) s
    s.setRails { s.rails with xoff := s.rails.xoff.filter (·.1 != port) }
  else s

/-- The receive buffers and fault queues of a Rail empty. -/
def State.rxFlush (s : State) (r : Rail) : State :=
  let i := railIx r
  let s := s.setRails { s.rails with
    rx := Tab.keep s.rails.rx (fun p _ => portRail p != r)
    held := s.rails.held.filter (fun e => portRail e.1 != r)
    fetches := s.rails.fetches.filter (fun c => ((s.ctx c).map fun x => x.rail != r).getD false) }
  let s := ((s.wr (RDMA_FAULTQ.BYTES i 0) 0).wr (RDMA_FAULTQ.BYTES i 1) 0).countCache r
  (s.xon (2 * i)).xon (2 * i + 1)

/-! ## Failure of a Rail (R87) -/

/-- Every descriptor a Rail's rings hold completes with RAIL_DOWN. -/
def State.railFlush (s : State) (r : Rail) : State :=
  let u := railUnit r
  (List.range (unitRings u)).foldl (fun s k =>
    (s.ring u k).fetched.foldl (fun s f => s.finish u ⟨k, f.slot⟩ St.railDown) s) s

/-- Every context bound to a Rail counts as ERR; a TCP connection's association is lost with it. -/
def State.railErrAll (s : State) (r : Rail) : State :=
  let s := (s.rails.ctxs.filter fun e => e.2.rail == r && (e.2.qp?.map fun q => q.st != Qst.reset).getD false).foldl
    (fun s e => s.qpErr e.1 none) s
  let tcps := (s.rails.ctxs.filter fun e => e.2.rail == r && e.2.tcp?.isSome).map (·.1)
  let s := { s with par := { s.par with lost := s.par.lost ++ tcps } }
  tcps.foldl (fun s c => s.ctxGone c) s

/-- RAIL_STATUS as a word. -/
def State.railStatus (s : State) (i : Nat) : Nat :=
  s.rd (RAIL_STATUS.STATE i) + s.rd (RAIL_STATUS.FAIL_CAUSE i) * 2 ^ 8 + s.rd (RAIL_STATUS.LPORT_UP i) * 2 ^ 16

/-- A Rail enters FAILED: transmitters idle, its descriptors complete RAIL_DOWN, contexts in ERR, associations lost, the event.
The effects stand in one step, so their order shows only where one names the other's descriptors: pending descriptors have
RAIL_DOWN (R87, step 4). -/
def State.railFailed (s : State) (r : Rail) (cause : Nat) : State :=
  let i := railIx r
  if s.rd (RAIL_STATUS.STATE i) = Rst'.failed then s
  else
    let s := (s.wr (RAIL_STATUS.STATE i) Rst'.failed).wr (RAIL_STATUS.FAIL_CAUSE i) cause
    let s := s.setRails { s.rails with idle := if s.rails.idle.contains r then s.rails.idle else s.rails.idle ++ [r] }
    let s := ((s.railFlush r).railErrAll r).rxFlush r
    let s := s.setRails { s.rails with
      invs := s.rails.invs.map (fun v => if r = .a then { v with waitA := false } else { v with waitB := false }) }
    let ready := s.rails.invs.filter fun v => !v.visible && !v.waitA && !v.waitB
    let s := ready.foldl (fun s v => s.invalVisible v) s
    s.invalSettle.raise Ev.railDown (some (railUnit r)) none [s.railStatus i]

end Sys2Proof.Machine
end

