-- ==== Sys2Proof/Machine/RailRx.lean ====
section
/-! DEFINITION. What a Rail does with what it receives: the slow path, RoCEv2 requests and responses, NVMe/TCP segments and
PDUs (R66 to R73, R79 to R83). -/
namespace Sys2Proof.Machine
open Sys2Proof

/-! ## The slow path (R86) -/

/-- A frame for software: into the oldest PKT_RX_BUF of the Rail, or kept until one is posted. -/
def State.slowFrame (s : State) (x : Nat) (bs : List Byte) : State :=
  let r : Rail := if x < 8 then .a else .b
  match s.firstWaiting (railUnit r) Op.pktRxBuf with
  | none => s.setRails { s.rails with slow := s.rails.slow ++ [(x, bs)] }
  | some (d, f) =>
    let cut := bs.take f.len
    match s.dmaWrite (railUnit r) f.dst cut (some d.ring) with
    | .error e => s.finishDma (railUnit r) d e
    | .ok s => s.finish (railUnit r) d (if cut.length < bs.length then St.lengthMismatch else St.success) (x % 8) cut.length

/-- A waiting PKT_RX_BUF takes the oldest frame kept for its Rail. -/
def State.slowDrain (s : State) (r : Rail) : State :=
  match s.rails.slow.find? (fun e => (e.1 < 8) == (r == .a)) with
  | none => s
  | some e => (s.setRails { s.rails with slow := s.rails.slow.erase e }).slowFrame e.1 e.2

/-! ## Responder (R67, R69, R73, R76) -/

/-- AETH syndromes: ACK, RNR NAK with a timer, NAK codes. -/
def Aeth.ack : Nat := 0x1F
def Aeth.rnr : Nat := 0x20
def Aeth.nakSeq : Nat := 0x60
def Aeth.nakInvalid : Nat := 0x61
def Aeth.nakAccess : Nat := 0x62
def Aeth.nakOp : Nat := 0x63

/-- An acknowledgement packet sent for PSN `psn`. -/
def State.sendAck (s : State) (c : Nat) (x : Ctx) (q : Qp) (psn syn : Nat) : State :=
  s.sendRoce c x q { qpn := q.dqpn, op := 0x11, psn := psn, syndrome := syn }

/-- The QP refuses a request: NAK, then ERR; the oldest receive completes with `recv` where one is given. -/
def State.nakErr (s : State) (c : Nat) (x : Ctx) (q : Qp) (psn syn : Nat) (recv : Option Nat := none) : State :=
  (s.sendAck c x q psn syn).qpErr c none false 0 recv

/-- An RNR NAK with the QP's minimum timer; the packet is dropped. -/
def State.rnrNak (s : State) (c : Nat) (x : Ctx) (q : Qp) (psn : Nat) : State := s.sendAck c x q psn (Aeth.rnr + q.minRnr)

/-- Packet shape: (is a WRITE, first, last) of a SEND or WRITE opcode. -/
def bthShape (op : Nat) : Option (Bool × Bool × Bool) :=
  if op = 0x00 then some (false, true, false) else if op = 0x01 then some (false, false, false)
  else if op = 0x02 ∨ op = 0x03 ∨ op = 0x16 then some (false, false, true)
  else if op = 0x04 ∨ op = 0x05 ∨ op = 0x17 then some (false, true, true)
  else if op = 0x06 then some (true, true, false) else if op = 0x07 then some (true, false, false)
  else if op = 0x08 ∨ op = 0x09 then some (true, false, true)
  else if op = 0x0A ∨ op = 0x0B then some (true, true, true)
  else none

/-- Whether the opcode brings immediate data. -/
def bthImm (op : Nat) : Bool := op == 0x03 || op == 0x05 || op == 0x09 || op == 0x0B

/-- Whether the opcode is a SEND with Invalidate. -/
def bthInv (op : Nat) : Bool := op == 0x16 || op == 0x17

/-- Message sizes of R67: 1 byte to 2^31 bytes. -/
def lengthOk (n : Nat) : Bool := decide (1 ≤ n) && decide (n ≤ 2 ^ 31)

/-- The message a packet starts or continues, or the NAK it draws. Software-owned queue pairs place a SEND in the oldest
receive buffer; the Parlour's keep it. A first packet sent again because its access was held belongs to the message whose check
it passed (R73, R76). -/
def State.rxMsg (s : State) (x : Ctx) (q : Qp) (p : RocePkt) (wr first : Bool) : Except (Nat × Option Nat) RxMsg :=
  match q.cur with
  | some m =>
    if m.write = wr ∧ first = (m.psn == p.psn && m.got.isEmpty) ∧ (first && wr → m.va = p.va ∧ m.total = p.dmaLen ∧ m.key = some p.rkey)
    then .ok m else .error (Aeth.nakInvalid, none)
  | none =>
    if !first then .error (Aeth.nakInvalid, none)
    else if wr then
      if !lengthOk p.dmaLen then .error (Aeth.nakInvalid, none)
      else match s.remoteCheck q p.rkey p.va p.dmaLen true with
        | none => .error (Aeth.nakAccess, none)
        | some (m, a) => .ok { write := true, key := some p.rkey, odp := m.odp, psn := p.psn, va := p.va, addr := a, total := p.dmaLen }
    else if x.parlour then .ok { write := false, psn := p.psn, total := 2 ^ 31 }
    else match q.rq with
      | [] => .error (Aeth.rnr, none)
      | w :: _ => .ok { write := false, key := some w.key, odp := s.odpKey w.key, psn := p.psn, addr := w.addr, total := w.len }

/-- The end of a message: the receive completes, the capsule goes to the Parlour, or the key is invalidated first. -/
def State.rxDone (s : State) (c : Nat) (x : Ctx) (q : Qp) (p : RocePkt) (m : RxMsg) (got : List Byte) : State :=
  let info := x.lport % 8 + (if bthImm p.op then 2 ^ 16 else 0)
  let result := got.length + (if bthImm p.op then p.imm * 2 ^ 32 else 0)
  if m.write && !bthImm p.op then s
  else if x.parlour then
    if m.write then s else s.setRails { s.rails with inbox := s.rails.inbox ++ [(c, got, false, s.now)] }
  else match q.rq with
    | [] => s
    | w :: rest =>
      let s := s.setQp c { q with rq := rest }
      if bthInv p.op then s.invalBegin p.imm none (some (x.rail, w.d, info, result, 0))
      else s.finish (railUnit x.rail) w.d St.success info result

/-- A SEND or WRITE packet with the expected PSN. A fault in a paged region holds the access: the packet is dropped with an RNR
NAK, and the check its message passed stands (R73, R76). -/
def State.rxData (s : State) (c : Nat) (x : Ctx) (q : Qp) (p : RocePkt) (wr first last : Bool) : State :=
  if last && wr && bthImm p.op && q.rq.isEmpty then s.rnrNak c x q p.psn
  else match s.rxMsg x q p wr first with
    | .error (syn, st) => if syn = Aeth.rnr then s.rnrNak c x q p.psn else s.nakErr c x q p.psn syn st
    | .ok m =>
      let at_ := m.addr + m.got.length
      let got := m.got ++ p.data
      let lerr := match wr, x.parlour, q.rq with
        | false, false, w :: _ => if m.got.length + p.data.length ≤ w.len then none else some St.lengthMismatch
        | _, _, _ => none
      if lerr.isSome then s.nakErr c x q p.psn Aeth.nakInvalid lerr
      else if (wr && decide (m.total < got.length)) || (last && !lengthOk got.length) then s.nakErr c x q p.psn Aeth.nakInvalid
      else if bthInv p.op && !((s.mr p.imm).map (fun r => r.pd == q.pd)).getD false then s.nakErr c x q p.psn Aeth.nakAccess
      else
        let ring := if wr then none else q.rq.head?.map (·.d.ring)
        let placed := if !wr && x.parlour then .ok s else s.dmaWrite (railUnit x.rail) at_ p.data ring
        match placed with
        | .error e =>
          let t := s.dmaFailed (railUnit x.rail) e
          (match e, x.pages q m.odp with
            | .fault a, true => ((t.rnrNak c x q p.psn).setQp c { q with cur := some m }).odpFault c a.addr true !wr
            | _, _ => t.nakErr c x q p.psn Aeth.nakOp)
        | .ok s =>
          let q' := ({ q with rqPsn := psnAdd q.rqPsn 1, nakSent := false, msn := if last then (q.msn + 1) % 2 ^ 24 else q.msn,
                              cur := if last then none else some { m with got := got } } : Qp)
          let s := s.setQp c q'
          let s := if p.ackReq || last then s.sendAck c x q' p.psn Aeth.ack else s
          if last then (s.rxDone c x q' p m got).invalSettle else s

/-- READ responses: the data of `len` bytes from IOVA `a` on, in packets of the path MTU. -/
def State.readReply (s : State) (c : Nat) (x : Ctx) (q : Qp) (psn : Nat) (bs : List Byte) : State :=
  let n := q.packets bs.length
  (List.range n).foldl (fun s i => s.sendRoce c x q {
    qpn := q.dqpn, psn := psnAdd psn i, syndrome := Aeth.ack, data := slice bs (i * q.mtu) q.mtu,
    op := if n = 1 then 0x10 else if i = 0 then 0x0D else if i + 1 = n then 0x0F else 0x0E }) s

/-- The READ a request belongs to: one whose check has passed, or a new one that passes it; or the NAK it draws, none where a
repeat belongs to no READ kept. The check of a READ covers its repeats (R73). -/
def State.readOf (s : State) (q : Qp) (p : RocePkt) (fresh : Bool) : Except (Option Nat) RdMsg :=
  if !lengthOk p.dmaLen then .error (some Aeth.nakInvalid)
  else match q.reads.find? (fun r => decide (psnDist r.psn p.psn < q.packets r.len) && decide (r.va ≤ p.va)
      && decide (p.va + p.dmaLen ≤ r.va + r.len) && r.key == p.rkey && (!fresh || !r.done)) with
    | some r => .ok r
    | none =>
      if !fresh then .error none
      else match s.remoteCheck q p.rkey p.va p.dmaLen false with
        | none => .error (some Aeth.nakAccess)
        | some (m, a) => .ok { psn := p.psn, va := p.va, len := p.dmaLen, addr := a, key := p.rkey, odp := m.odp }

/-- The READs of a queue pair with one put first: 16 are kept (R67). -/
def Qp.keepRead (q : Qp) (r : RdMsg) : Qp := { q with reads := (r :: q.reads.filter (·.psn != r.psn)).take 16 }

/-- A READ request, new or repeated. -/
def State.rxRead (s : State) (c : Nat) (x : Ctx) (q : Qp) (p : RocePkt) (fresh : Bool) : State :=
  match s.readOf q p fresh with
  | .error none => s
  | .error (some syn) => s.nakErr c x q p.psn syn
  | .ok r =>
    match s.dmaRead (railUnit x.rail) (r.addr + (p.va - r.va)) p.dmaLen with
    | .error e =>
      let t := s.dmaFailed (railUnit x.rail) e
      (match e, x.pages q r.odp with
        | .fault v, true => ((t.rnrNak c x q p.psn).setQp c (q.keepRead r)).odpFault c v.addr true
        | _, _ => t.nakErr c x q p.psn Aeth.nakOp)
    | .ok bs =>
      let q' := q.keepRead { r with done := true }
      let q' := if fresh then { q' with
          rqPsn := psnAdd q.rqPsn (q.packets p.dmaLen), msn := (q.msn + 1) % 2 ^ 24, nakSent := false } else q'
      ((s.setQp c q').readReply c x q' p.psn bs).invalSettle

/-- A request packet at a responder. While an access is held, the packet it waits for draws the RNR NAK again (R76). -/
def State.rxRequest (s : State) (c : Nat) (x : Ctx) (q : Qp) (p : RocePkt) : State :=
  let ahead := psnDist q.rqPsn p.psn
  if ahead ≠ 0 ∧ ahead < 2 ^ 23 then
    if q.nakSent then s else (s.setQp c { q with nakSent := true }).sendAck c x q q.rqPsn Aeth.nakSeq
  else if ahead ≠ 0 then
    if p.op = 0x0C then s.rxRead c x q p false
    else if p.ackReq then s.sendAck c x q (psnAdd q.rqPsn (2 ^ 24 - 1)) Aeth.ack else s
  else if (q.hold.map (·.responder)).getD false then s.rnrNak c x q p.psn
  else if p.op = 0x0C then s.rxRead c x q p true
  else match bthShape p.op with
    | some (wr, first, last) => s.rxData c x q p wr first last
    | none => s.sendAck c x q p.psn Aeth.nakInvalid

/-! ## Requester (R67, R69) -/

/-- The RNR timer encodings in units of 10 µs: 655.36 ms, then 10 µs, and from 20 µs on powers of two and three halves of them
in turn. -/
def rnrTable : List Nat := (List.range 32).map fun n =>
  if n = 0 then 65536 else if n = 1 then 1 else if n % 2 = 0 then 2 ^ (n / 2) else 3 * 2 ^ ((n - 3) / 2)

/-- The requests are sent again from PSN `psn`, or the retry count is exhausted. -/
def State.retryFrom (s : State) (c : Nat) (q : Qp) (psn : Nat) : State :=
  if q.tries = 0 then s.qpErr c (some St.retryExceeded)
  else (s.setQp c { q with tries := q.tries - 1 }).resend c psn

/-- An acknowledgement packet at a requester. -/
def State.rxAck (s : State) (c : Nat) (p : RocePkt) : State :=
  let prev := psnAdd p.psn (2 ^ 24 - 1)
  if p.syndrome < 0x20 then (s.acked c p.psn).invalSettle
  else if p.syndrome < 0x40 then
    let s := s.acked c prev
    match s.qp c with
    | some q => if q.outstanding && q.rnrBy.isNone then
        s.setQp c { q with ackBy := none, rnrBy := some (s.now + rnrTable.getD (p.syndrome % 32) 1 * 16000) } else s
    | none => s
  else if p.syndrome = Aeth.nakSeq then
    let s := s.acked c prev
    match s.qp c with
    | some q => if q.outstanding then s.retryFrom c q p.psn else s
    | none => s
  else
    let s := s.acked c prev
    let st := if p.syndrome = Aeth.nakInvalid then St.remoteInvalidReq else if p.syndrome = Aeth.nakAccess then St.remoteAccessErr
      else St.remoteOpErr
    s.qpErr c (some st)

/-- Data of a host read for a command's payload are appended to its buffer. -/
def State.pullData (s : State) (k : Nat) (bs : List Byte) : State :=
  match Tab.get? s.par.cmds k with
  | some cmd => { s with par := { s.par with cmds := Tab.set s.par.cmds k { cmd with buf := cmd.buf ++ bs } } }
  | none => s

/-- A READ response packet: taken by the oldest outstanding READ where its PSN is the expected one. -/
def State.rxReadResp (s : State) (c : Nat) (x : Ctx) (p : RocePkt) : State :=
  let s := s.acked c (psnAdd p.psn (2 ^ 24 - 1))
  match s.qp c with
  | none => s
  | some q =>
    match q.sq with
    | [] => s
    | w :: rest =>
      if w.verb ≠ 5 ∨ !w.sent ∨ p.psn ≠ psnAdd w.psn (w.got.length / q.mtu) ∨ (q.hold.map (!·.responder)).getD false then s
      else
        let placed := match w.owner with
          | .desc d => s.dmaWrite (railUnit x.rail) (w.addr + w.got.length) p.data (some d.ring)
          | .pull k => .ok (s.pullData k p.data)
          | .parlour => .ok s
        match placed with
        | .error e =>
          let t := s.dmaFailed (railUnit x.rail) e
          (match e, x.pages q (s.odpKey w.lkey) with
            | .fault a, true => t.odpFault c a.addr false
            | _, _ => t.qpErr c (some e.status))
        | .ok s =>
          let w' := { w with got := w.got ++ p.data }
          if w'.got.length < w.len then s.setQp c (({ q with sq := w' :: rest } : Qp).rearm s.now)
          else
            let s := (s.setQp c (({ q with sq := rest, tries := q.retry, rnrTries := q.rnrRetry } : Qp).rearm s.now)).wrDone x.rail w'
            (s.acked c p.psn).invalSettle

/-- A RoCEv2 packet at a resident context. -/
def State.roceRx (s : State) (c : Nat) (p : RocePkt) : State :=
  match s.ctx c with
  | none => s
  | some x =>
    match x.qp? with
    | none => s
    | some q =>
      if q.st ≠ Qst.rtr ∧ q.st ≠ Qst.rts ∧ q.st ≠ Qst.sqd then s
      else
        let s := if p.ce then s.sendCnp c else s
        match s.ctx c with
        | none => s
        | some x =>
          if p.op = 0x11 then s.rxAck c p
          else if 0x0D ≤ p.op ∧ p.op ≤ 0x10 then s.rxReadResp c x p
          else s.rxRequest c x q p

/-! ## NVMe/TCP (R81 to R83) -/

/-- A sequence number `n` after `a`, and how far `b` lies after `a`. -/
def seqAdd (a n : Nat) : Nat := (a + n) % 2 ^ 32
def seqDist (a b : Nat) : Nat := (b + 2 ^ 32 - a) % 2 ^ 32

/-- Whether sequence number `a` comes before `b`. -/
def seqLt (a b : Nat) : Bool := a != b && decide (seqDist a b < 2 ^ 31)

/-- A block of received bytes joined to those it touches; it becomes the first (RFC 2018). -/
def joinBlock (bs : List (Nat × Nat)) (b : Nat × Nat) : List (Nat × Nat) :=
  let touches := fun (e : Nat × Nat) => !seqLt e.2 b.1 && !seqLt b.2 e.1
  (bs.filter touches).foldl (fun a e => (if seqLt e.1 a.1 then e.1 else a.1, if seqLt a.2 e.2 then e.2 else a.2)) b
    :: bs.filter (!touches ·)

/-- The SACK blocks of a connection: at most four, three beside timestamps. -/
def Tcp.blocks (t : Tcp) : List (Nat × Nat) :=
  if t.sackOn then
    ((t.ooo.reverse.foldl (fun bs e => joinBlock bs (e.1, seqAdd e.1 e.2.length)) []).take (if t.tsOn then 3 else 4))
  else []

/-- The timestamp clock: milliseconds. -/
def tsClock (now : Nat) : Nat := now / 1600000 % 2 ^ 32

/-- A segment of a connection with its acknowledgement state. -/
def Tcp.seg (t : Tcp) (now seq : Nat) (bs : List Byte) (cwr : Bool) : TcpSeg :=
  { remote := t.remote, sport := t.lport, dport := t.rport, seq := seq, ack := t.rcvNxt, wnd := 65535, ece := t.ecnOn && t.ceSeen,
    cwr := cwr, tsVal := if t.tsOn then tsClock now else 0, tsEcr := if t.tsOn then t.tsRecent else 0, sack := t.blocks, data := bs }

/-- The retransmission timer restarted; it runs while bytes are outstanding, or while bytes wait for a peer's window (the
persist timer of RFC 9293). -/
def Tcp.rearm (t : Tcp) (now : Nat) : Tcp :=
  { t with rtoBy := if t.sent.isEmpty && t.unsent.isEmpty then none else some (now + t.rto) }

/-- An acknowledgement without data. -/
def State.tcpAckNow (s : State) (x : Ctx) (t : Tcp) : State := s.sendTcp x t (t.seg s.now t.sndNxt [] false) false

/-- Pins whose data have left (R35). -/
def Tcp.left (t : Tcp) : List (Nat × Nat × Nat) := (t.pins.filter fun e => !seqLt t.sndNxt e.1).flatMap (·.2)

/-- Unsent bytes leave in segments of at most MSS while the peer's window has room. -/
def State.tcpPump (s : State) (c : Nat) : Nat → State
  | 0 => s
  | n + 1 =>
    match s.ctx c with
    | none => s
    | some x =>
      match x.tcp? with
      | none => s
      | some t =>
        let room := t.sndWnd - seqDist t.sndUna t.sndNxt
        let len := min (min t.mss t.unsent.length) room
        if len = 0 then (if t.rtoBy.isSome then s else s.setTcp c (t.rearm s.now))
        else
          let bs := t.unsent.take len
          let t' := { t with unsent := t.unsent.drop len, sndNxt := seqAdd t.sndNxt len,
                             sent := t.sent ++ [⟨t.sndNxt, bs, s.now, false, false⟩], cwrDue := false }
          let t' := if t'.rtoBy.isSome then t' else t'.rearm s.now
          let s := (s.setTcp c { t' with pins := t'.pins.filter fun e => seqLt t'.sndNxt e.1 }).sendTcp x t'
            (t'.seg s.now t.sndNxt bs t.cwrDue) true
          (s.unpin t'.left).tcpPump c n

/-- Bytes sent on a connection; `pins` are lowered when they have left. -/
def State.tcpSend (s : State) (c : Nat) (bs : List Byte) (pins : List (Nat × Nat × Nat) := []) : State :=
  match (s.ctx c).bind Ctx.tcp? with
  | some t =>
    let t := { t with unsent := t.unsent ++ bs }
    ((s.useCtx c).setTcp c { t with
      pins := if pins.isEmpty then t.pins else t.pins ++ [(seqAdd t.sndNxt t.unsent.length, pins)] }).tcpPump c (bs.length + 1)
  | none => s.unpin pins

/-- A connection handed back to software through the slow path with its sequence state, before the segments that waited for its
context; its association is lost (R82). -/
def State.tcpHandback (s : State) (c : Nat) (status : Nat) : State :=
  match s.ctx c with
  | none => s
  | some x =>
    match x.tcp? with
    | none => s
    | some t =>
      let held := s.rails.held.filter fun e => e.2.1 == c
      let s := s.ctxGone c
      let s := { s with par := { s.par with lost := s.par.lost ++ [c] } }
      let s := s.slowFrame x.lport (leBytes 4 c ++ leBytes 4 t.sndNxt ++ leBytes 4 t.rcvNxt ++ leBytes 2 status)
      held.foldl (fun s e => s.slowFrame x.lport e.2.2.raw) s

/-- A PDU header of `hlen` bytes with its type, flags and lengths, and its digests where negotiated. -/
def pduBytes (t : Tcp) (typ : Nat) (body data : List Byte) (flags : Nat := 0) : List Byte :=
  let hlen := 8 + body.length
  let hd := if t.hdgst && typ != 1 && typ != 3 then 4 else 0
  let align := (t.hpda + 1) * 4
  let pdo := if data.isEmpty || typ == 3 then 0 else alignUp (hlen + hd) align
  let dd := if t.ddgst && !data.isEmpty && typ != 3 then 4 else 0
  let plen := if data.isEmpty then hlen + hd else if typ = 3 then hlen + data.length else pdo + data.length + dd
  let hdr := leBytes 1 typ ++ leBytes 1 ((if hd = 4 then 1 else 0) + (if dd = 4 then 2 else 0) + flags)
    ++ leBytes 1 hlen
    ++ leBytes 1 pdo ++ leBytes 4 plen ++ body
  hdr ++ (if hd = 4 then leBytes 4 (crc32c hdr) else []) ++ zeros (pdo - (hlen + hd)) ++ data
    ++ (if dd = 4 then leBytes 4 (crc32c data) else [])

/-- The binding was broken: C2HTermReq with a fatal error status and the header in error, then the hand-back. -/
def State.tcpTerm (s : State) (c : Nat) (t : Tcp) (fes : Nat) (hdr : List Byte) : State :=
  (s.tcpSend c (pduBytes t 3 (leBytes 2 fes ++ zeros 14) hdr)).tcpHandback c St.tcpPduInvalid

/-- The command of a connection with a command identifier that is receiving its payload. -/
def State.tcpCmd (s : State) (c cid : Nat) : Option (Nat × NvmeCmd) :=
  s.par.cmds.find? fun e => e.2.ctx == some c && fieldAt e.2.sqe 2 2 == cid && e.2.stage == .running

/-- Transfer tag of the R2Ts of a command context (log entry 54). -/
def ttag (k : Nat) : Nat := k % 2 ^ 16

/-- One PDU from the host, whole in `pdu`; a breach of the binding ends with its fatal error status: 1 header field, 2 sequence,
3 header digest, 4 data out of range, 5 transfer limit, 6 unsupported parameter. -/
def State.tcpPdu (s : State) (c : Nat) (t : Tcp) (pdu : List Byte) : State :=
  let typ := fieldAt pdu 0 1
  let flags := fieldAt pdu 1 1
  let hlen := fieldAt pdu 2 1
  let pdo := fieldAt pdu 3 1
  let hdr := pdu.take hlen
  let dd := flags.testBit 1 && t.ddgst
  let data := if pdo = 0 then [] else slice pdu pdo (pdu.length - pdo - (if dd then 4 else 0))
  let bad := dd && !data.isEmpty && fieldAt pdu (pdu.length - 4) 4 != crc32c data
  if t.hdgst && typ != 0 && typ != 2 && (!flags.testBit 0 || fieldAt pdu hlen 4 != crc32c hdr) then s.tcpTerm c t 3 hdr
  else if typ = 0 then
    if hlen ≠ 128 ∨ pdu.length ≠ 128 then s.tcpTerm c t 1 hdr
    else if t.ic then s.tcpTerm c t 2 hdr
    else if fieldAt pdu 8 2 ≠ 0 then s.tcpTerm c t 6 hdr
    else if 31 < fieldAt pdu 10 1 then s.tcpTerm c t 1 hdr
    else
      let t := { t with ic := true, hpda := fieldAt pdu 10 1, hdgst := (fieldAt pdu 11 1).testBit 0,
                        ddgst := (fieldAt pdu 11 1).testBit 1 }
      let body := leBytes 2 0 ++ leBytes 1 0 ++ leBytes 1 (fieldAt pdu 11 1 % 4) ++ leBytes 4 131072 ++ zeros 112
      (s.setTcp c t).tcpSend c (pduBytes { t with hdgst := false } 1 body [])
  else if typ = 2 then s.tcpHandback c St.success
  else if typ = 4 then
    if hlen ≠ 72 then s.tcpTerm c t 1 hdr
    else s.setRails { s.rails with inbox := s.rails.inbox ++ [(c, slice pdu 8 64 ++ data, bad, s.now)] }
  else if typ = 6 then
    match s.tcpCmd c (fieldAt pdu 8 2) with
    | none => s.tcpTerm c t 1 hdr
    | some (k, cmd) =>
      if hlen ≠ 24 ∨ fieldAt pdu 16 4 ≠ data.length ∨ fieldAt pdu 10 2 ≠ ttag k then s.tcpTerm c t 1 hdr
      else if 131072 < data.length then s.tcpTerm c t 5 hdr
      else if cmd.need < fieldAt pdu 12 4 + data.length then s.tcpTerm c t 4 hdr
      else if fieldAt pdu 12 4 ≠ cmd.buf.length then s.tcpTerm c t 2 hdr
      else
        let s := s.pullData k data
        if bad then { s with par := { s.par with cmds := Tab.mapV s.par.cmds (fun i e => if i = k then { e with badData := true } else e) } } else s
  else s.tcpTerm c t 1 hdr

/-- The PDUs that stand whole at the front of a connection's stream. -/
def State.tcpPdus (s : State) (c : Nat) : Nat → State
  | 0 => s
  | n + 1 =>
    match (s.ctx c).bind Ctx.tcp? with
    | none => s
    | some t =>
      if t.stream.length < 8 then s
      else
        let typ := fieldAt t.stream 0 1
        let hlen := fieldAt t.stream 2 1
        let plen := fieldAt t.stream 4 4
        if hlen < 8 ∨ plen < hlen ∨ 2 ^ 20 < plen ∨ !(typ == 0 || typ == 2 || typ == 4 || typ == 6) then
          s.tcpTerm c t 1 (t.stream.take (max hlen 8))
        else if t.stream.length < plen then s
        else ((s.setTcp c { t with stream := t.stream.drop plen }).tcpPdu c t (t.stream.take plen)).tcpPdus c n

/-- Round-trip times measured: SRTT, RTTVAR and the timeout of RFC 6298 between 1 ms and 1 s. -/
def Tcp.measure (t : Tcp) (rtt : Nat) : Tcp :=
  let (sr, rv) := match t.srtt with
    | none => (rtt, rtt / 2)
    | some (sr, rv) => ((7 * sr + rtt) / 8, (3 * rv + (if rtt < sr then sr - rtt else rtt - sr)) / 4)
  { t with srtt := some (sr, rv), rto := min 1600000000 (max 1600000 (sr + max 1600000 (4 * rv))) }

/-- Whether a sent segment is covered by a SACK block. -/
def sackCovers (blocks : List (Nat × Nat)) (e : TcpSent) : Bool :=
  blocks.any fun b => !seqLt e.seq b.1 && !seqLt b.2 (seqAdd e.seq e.data.length)

/-- Whether the segment before `above` counts as lost (RFC 6675): more than two segments' bytes, or three runs, above it are
covered by SACK blocks. -/
def Tcp.isLost (t : Tcp) (above : List TcpSent) : Bool :=
  let cov := above.map (sackCovers t.sacked)
  let bytes := ((above.filter (sackCovers t.sacked)).map (·.data.length)).sum
  let runs := ((cov.zip (false :: cov)).filter fun e => e.1 && !e.2).length
  decide (2 * t.mss < bytes) || decide (3 ≤ runs)

/-- The segments that recovery sends again: not covered, not sent again in it, and the oldest or lost. -/
def Tcp.holes (t : Tcp) : List TcpSent :=
  (t.sent.zipIdx.filter fun e => !e.1.again && !sackCovers t.sacked e.1 && (e.2 == 0 || t.isLost (t.sent.drop (e.2 + 1)))).map (·.1)

/-- A segment is sent again. -/
def State.tcpResend (s : State) (c : Nat) (e : TcpSent) : State :=
  let s := s.useCtx c
  match s.ctx c with
  | none => s
  | some x =>
    match x.tcp? with
    | none => s
    | some t =>
      let t := { t with sent := t.sent.map fun f => if f.seq = e.seq then { f with since := s.now, resent := true, again := true } else f }
      (s.setTcp c t).sendTcp x t (t.seg s.now e.seq e.data false) false

/-- Every hole of the recovery under way is sent again. -/
def State.tcpRecover (s : State) (c : Nat) : State :=
  match (s.ctx c).bind Ctx.tcp? with
  | some t => t.holes.foldl (fun s e => s.tcpResend c e) s
  | none => s

/-- The peer's window, where the segment is not older than the last that set it (RFC 9293). -/
def Tcp.window (t : Tcp) (g : TcpSeg) : Tcp :=
  if seqLt t.wl1 g.seq || (t.wl1 == g.seq && !seqLt g.ack t.wl2) then
    { t with sndWnd := g.wnd * 2 ^ t.sndScale, wl1 := g.seq, wl2 := g.ack } else t

/-- The acknowledgement of a segment: data leave, the timer restarts; three duplicates, or a lost oldest segment, start
recovery, which counts as a CNP (R81). -/
def State.tcpAck (s : State) (c : Nat) (t₀ : Tcp) (g : TcpSeg) : State :=
  let adv := seqDist t₀.sndUna g.ack
  if 2 ^ 31 ≤ adv then s
  else
    let t := t₀.window g
    let t := { t with sacked := if t.sackOn then t.sacked ++ g.sack else [], rtos := if t.sndWnd = 0 then 0 else t.rtos }
    if adv ≠ 0 then
      let gone := t.sent.takeWhile fun e => !seqLt g.ack (seqAdd e.seq e.data.length)
      let t := match gone.find? (fun e => !e.resent) with
        | some e => t.measure (s.now - e.since)
        | none => t
      let t := { t with sndUna := g.ack, sent := t.sent.drop gone.length, dupAcks := 0, rtos := 0 }
      let past : Bool := match t.recover with
        | some r => !seqLt g.ack r
        | none => true
      let t := (if past then { t with recover := none, sacked := t.sacked.filter fun b => seqLt g.ack b.2 } else t).rearm s.now
      let s := s.setTcp c t
      let s := match past with
        | true => s
        | false => s.tcpRecover c
      s.tcpPump c (t.unsent.length + 1)
    else
      let dup := g.data.isEmpty && !t.sent.isEmpty && t.sndWnd == t₀.sndWnd
      let t := { t with dupAcks := if dup then t.dupAcks + 1 else t.dupAcks }
      let starts := t.recover.isNone && ((dup && t.dupAcks == 3) || (!t.sent.isEmpty && t.isLost (t.sent.drop 1)))
      let t := if starts then { t with recover := some t.sndNxt, cwrDue := t.cwrDue || t.ecnOn,
                                       sent := t.sent.map fun e => { e with again := false } } else t
      let s := s.setTcp c t
      let s := if starts then s.cnp c else s
      (if t.recover.isSome then s.tcpRecover c else s).tcpPump c (t.unsent.length + 1)

/-- Bytes that have become contiguous: the out-of-order segments joined behind `RCV.NXT`. -/
def Tcp.join (t : Tcp) : Nat → Tcp
  | 0 => t
  | n + 1 =>
    match t.ooo.find? (fun e => seqDist e.1 t.rcvNxt < 2 ^ 31) with
    | none => t
    | some e =>
      let skip := seqDist e.1 t.rcvNxt
      let bs := e.2.drop skip
      ({ t with ooo := t.ooo.erase e, rcvNxt := seqAdd t.rcvNxt bs.length, stream := t.stream ++ bs } : Tcp).join n

/-- An ACK with ECE counts as a CNP once per CUT_GAP. -/
def State.tcpEce (s : State) (c : Nat) (x : Ctx) (t : Tcp) : State :=
  let ok := match t.lastEce with
    | some k => decide (k + s.rd (RDMA_CC_CFG0.CUT_GAP (railIx x.rail)) * 1024 ≤ s.now)
    | none => true
  if ok then (s.setTcp c { t with lastEce := some s.now, cwrDue := true }).cnp c else s

/-- Whether a segment lies in the receive window (RFC 9293). -/
def Tcp.accepts (t : Tcp) (g : TcpSeg) : Bool :=
  let wnd := 65535 * 2 ^ t.rcvScale
  let inWnd := fun n => decide (seqDist t.rcvNxt n < wnd)
  inWnd g.seq || (!g.data.isEmpty && inWnd (seqAdd g.seq (g.data.length - 1)))

/-- Ticks after which TS.Recent is not compared any more: 24 days (RFC 7323). -/
def pawsTicks : Nat := 24 * 86400 * 1600000000

/-- Whether timestamps refuse a segment (PAWS, RFC 7323). -/
def Tcp.paws (t : Tcp) (now : Nat) (g : TcpSeg) : Bool := t.tsOn && seqLt g.tsVal t.tsRecent && decide (now < t.tsAt + pawsTicks)

/-- TS.Recent and the CE state after a segment that is accepted. -/
def Tcp.note (t : Tcp) (now : Nat) (g : TcpSeg) : Tcp :=
  let t := { t with ceSeen := (t.ceSeen && !g.cwr) || g.ce }
  if t.tsOn && !seqLt g.tsVal t.tsRecent && !seqLt t.rcvNxt g.seq then { t with tsRecent := g.tsVal, tsAt := now } else t

/-- The data of an accepted segment: joined to the stream where they are next, kept where they are not, and acknowledged. -/
def State.tcpData (s : State) (c : Nat) (x : Ctx) (t : Tcp) (g : TcpSeg) : State :=
  let t := ({ t with ooo := (g.seq, g.data) :: t.ooo } : Tcp).join (t.ooo.length + 2)
  let t := { t with ooo := t.ooo.filter fun e => seqLt t.rcvNxt (seqAdd e.1 e.2.length) }
  ((s.setTcp c t).tcpAckNow x t).tcpPdus c (t.stream.length + 1)

/-- A segment at a resident connection (R82): RST and FIN in the window hand it back; one outside the window, refused by its
timestamp, with SYN, or that acknowledges what was not sent, draws an acknowledgement only. -/
def State.tcpRx (s : State) (c : Nat) (g : TcpSeg) (raw : List Byte) : State :=
  match s.ctx c with
  | none => s
  | some x =>
    match x.tcp? with
    | none => s
    | some t =>
      if g.rst then (if t.accepts g then (s.tcpHandback c St.success).slowFrame x.lport raw else s)
      else if !t.accepts g || t.paws s.now g || g.syn
          || (seqLt t.sndNxt g.ack && decide (seqDist t.sndUna g.ack < 2 ^ 31)) then s.tcpAckNow x t
      else if g.fin then (s.tcpHandback c St.success).slowFrame x.lport raw
      else
        let s := if g.ece && t.ecnOn then s.tcpEce c x t else s
        match (s.ctx c).bind Ctx.tcp? with
        | none => s
        | some t =>
          let t := t.note s.now g
          let s := (s.setTcp c t).tcpAck c t g
          match s.ctx c with
          | none => s
          | some x =>
            match x.tcp? with
            | none => s
            | some t => if g.data.isEmpty then s else s.tcpData c x t g

/-! ## Packets and the context cache (R71, R72) -/

/-- A packet at a resident context. -/
def State.packetRx (s : State) (c : Nat) (f : Frame) : State :=
  let s := s.touch c
  match f.body with
  | .roce p => if p.op = 0x81 then s.cnp c else s.roceRx c p
  | .tcp g => s.tcpRx c g f.raw
  | .other => s

/-- Packets of a context that wait in a fault queue. -/
def State.holding (s : State) (c : Nat) : Bool := s.rails.held.any fun e => e.2.1 == c

/-- A packet enters the fault queue of its port, or is dropped there. -/
def State.faultQueue (s : State) (c port : Nat) (f : Frame) : State :=
  let r := portRail port
  let i := railIx r
  let mine := s.rails.fetches.filter fun k => ((s.ctx k).map fun x => x.rail == r).getD false
  let fresh := !s.rails.fetches.contains c
  if 262144 < s.rd (RDMA_FAULTQ.BYTES i (port % 2)) + f.size ∨ (fresh ∧ 256 ≤ mine.length) then
    (s.bump (RDMA_FAULTQ.DROPS i (port % 2)) 1).raise Ev.faultqDrop (some (railUnit r)) (some (port % 2)) [port, c]
  else
    let s := s.bump (RDMA_FAULTQ.BYTES i (port % 2)) f.size
    (s.setRails { s.rails with held := s.rails.held ++ [(port, c, f)],
                               fetches := if fresh then s.rails.fetches ++ [c] else s.rails.fetches }).countCache r

/-- A packet for a context: processed, served from the eviction buffer, or held in the fault queue. -/
def State.packetFor (s : State) (c port : Nat) (f : Frame) : State :=
  match s.ctx c with
  | none => s
  | some x =>
    if x.rail ≠ portRail port then s
    else if s.holding c then s.faultQueue c port f
    else if x.resident then s.packetRx c f
    else if x.evicting then (s.cacheCtx c).packetRx c f
    else s.faultQueue c port f

/-- The connection that a segment at logical port `x` belongs to. -/
def State.tcpFor (s : State) (x : Nat) (g : TcpSeg) : Option Nat :=
  (s.rails.ctxs.find? fun e => e.2.lport == x && (match e.2.body with
    | .tcp t => t.remote == g.remote && t.lport == g.dport && t.rport == g.sport
    | .qp _ => false)).map (·.1)

/-- The front frame of a port's receive buffer leaves it. -/
def State.popFrame (s : State) (port : Nat) : Option (Frame × State) :=
  match Tab.getD s.rails.rx port [] with
  | [] => none
  | f :: rest => some (f, (s.setRails { s.rails with rx := Tab.set s.rails.rx port rest }).xon port)

end Sys2Proof.Machine
end

