-- ==== Sys2Proof/Machine/SepOps.lean ====
section
/-! DEFINITION. The deduplication index: buckets, entries, the on-chip filter, holds and PENDING entries, the new-entry log
(R137 to R145, R151). -/
namespace Sys2Proof.Machine
open Sys2Proof

def State.setSep (s : State) (x : Sep) : State := { s with sep := x }

/-! ## Buckets and entries (R137, R139) -/

def State.bucket1 (s : State) (fp : List Byte) : Nat := fieldAt fp 0 8 % 2 ^ s.rd SEP_INDEX_CFG.LOG2_BUCKETS

def State.bucket2 (s : State) (fp : List Byte) : Nat :=
  let b1 := s.bucket1 fp
  let b2 := fieldAt fp 8 8 % 2 ^ s.rd SEP_INDEX_CFG.LOG2_BUCKETS
  if b2 = b1 then b1 ^^^ 1 else b2

/-- Address of the slot an ENTRY_HANDLE names. -/
def State.slotAddr (s : State) (h : Nat) : Nat := s.rd SEP_INDEX_BASE.BASE * 4096 + h * 32

/-- Entry states. -/
def Est.free : Nat := 0
def Est.pending : Nat := 1
def Est.valid : Nat := 2
def Est.frozen : Nat := 3

/-- The 32 bytes of an entry. -/
def FEntry.bytes (e : FEntry) : List Byte :=
  slice e.fp 16 16 ++ leBytes 2 (e.domain + e.state * 2 ^ 12) ++ leBytes 1 e.shard ++ zeros 1 ++ leBytes 4 e.refs ++
    leBytes 8 e.locator

/-- The entry of a slot's bytes; bytes 0 to 15 of its fingerprint are not stored. -/
def entryOf (bs : List Byte) (h : Nat) : FEntry :=
  { fp := zeros 16 ++ bs.take 16, domain := fieldAt bs 16 2 % 2 ^ 12, state := bitsOf (fieldAt bs 16 2) 12 2,
    shard := fieldAt bs 18 1, refs := fieldAt bs 20 4, locator := fieldAt bs 24 8, slot := some h }

/-- The filter's copy of the entry in a slot. -/
def State.filterAt (s : State) (h : Nat) : Option FEntry := s.sep.filter.findSome? fun t => t.2.find? (·.slot == some h)

/-- The entry an ENTRY_HANDLE names, if its slot is not FREE. -/
def State.entryAt (s : State) (h : Nat) : Option FEntry :=
  match s.filterAt h with
  | some e => some e
  | none =>
    let e := entryOf (s.tableRead .sep (s.slotAddr h) 32) h
    if e.state = Est.free then none else some e

/-- Whether a bucket of a fingerprint cannot be read for an uncorrectable error (R171). -/
def State.bucketsBad (s : State) (fp : List Byte) : Bool :=
  s.tableBad .sep (s.slotAddr (s.bucket1 fp * 8)) 256 || s.tableBad .sep (s.slotAddr (s.bucket2 fp * 8)) 256

/-- The two buckets of a fingerprint are read: an access that fails is recorded. -/
def State.noteBuckets (s : State) (fp : List Byte) : State :=
  (s.noteTable .sep (s.slotAddr (s.bucket1 fp * 8)) 256).noteTable .sep (s.slotAddr (s.bucket2 fp * 8)) 256

/-- Whether the slot of a handle cannot be read, where the filter does not hold its entry. -/
def State.slotBad (s : State) (h : Nat) : Bool := (s.filterAt h).isNone && s.tableBad .sep (s.slotAddr h) 32

/-- The first FREE slot of the two buckets of a fingerprint, b1 before b2. -/
def State.freeSlot (s : State) (fp : List Byte) : Option Nat :=
  ((List.range 8).map (fun i => s.bucket1 fp * 8 + i) ++ (List.range 8).map fun i => s.bucket2 fp * 8 + i).find?
    fun h => (s.entryAt h).isNone

/-- The slot whose entry matches a key in the DRAM tier. -/
def State.dramMatch (s : State) (dom : Nat) (fp : List Byte) : Option FEntry :=
  ((List.range 8).map (fun i => s.bucket1 fp * 8 + i) ++ (List.range 8).map fun i => s.bucket2 fp * 8 + i).findSome? fun h =>
    match s.entryAt h with
    | some e => if e.domain = dom ∧ slice e.fp 16 16 = slice fp 16 16 then some { e with fp := fp } else none
    | none => none

/-! ## Counts shown in registers -/

/-- SEP_STATUS.PINNED and the HOLDS of a shard kept. -/
def State.countSep (s : State) (sh : Nat) : State :=
  let all := s.sep.filter.flatMap (·.2)
  (s.wr SEP_STATUS.PINNED (all.filter fun e => e.state == Est.pending || e.holds != 0).length).wr (SEP_SHARD.HOLDS sh)
    (min 65535 ((all.filter (·.shard == sh)).map (·.holds)).sum)

/-! ## The filter (R141) -/

def FEntry.pinned (e : FEntry) : Bool := e.state == Est.pending || e.holds != 0

/-- Set of a fingerprint. -/
def State.filterSet (s : State) (fp : List Byte) : Nat := s.bucket1 fp % 2 ^ 15

/-- The filter's entry of a key. -/
def State.filterFind (s : State) (dom : Nat) (fp : List Byte) : Option FEntry :=
  (Tab.getD s.sep.filter (s.filterSet fp) []).find? fun e => e.domain == dom && e.fp == fp

/-- A set of the filter replaced. -/
def State.setFilter (s : State) (i : Nat) (es : List FEntry) : State :=
  s.setSep { s.sep with filter := if es.isEmpty then Tab.del s.sep.filter i else Tab.set s.sep.filter i es }

/-- The last unpinned entry of a set, in use order. -/
def lruWay (es : List FEntry) : Option FEntry := es.reverse.find? fun e => !e.pinned

/-- An entry takes a way of its set as the most recently used; a changed entry it replaces is written back first. None where
every way is pinned. -/
def State.filterAdd (s : State) (e : FEntry) : Option State :=
  let i := s.filterSet e.fp
  let es := Tab.getD s.sep.filter i []
  if es.length < 16 then some (s.setFilter i (e :: es))
  else match lruWay es with
    | none => none
    | some v =>
      let s := match v.slot with
        | some h => if v.dirty then s.tableWrite .sep (s.slotAddr h) v.bytes else s
        | none => s
      some (s.setFilter i (e :: es.filter fun x => !(x.domain == v.domain && x.fp == v.fp)))

/-- The filter's copy of a key becomes the most recently used. -/
def State.filterTouch (s : State) (e : FEntry) : State :=
  let i := s.filterSet e.fp
  s.setFilter i (e :: (Tab.getD s.sep.filter i []).filter fun x => !(x.domain == e.domain && x.fp == e.fp))

/-- The filter's copy of a key leaves it. -/
def State.filterDrop (s : State) (e : FEntry) : State :=
  let i := s.filterSet e.fp
  s.setFilter i ((Tab.getD s.sep.filter i []).filter fun x => !(x.domain == e.domain && x.fp == e.fp))

/-- An entry with a slot changed: in the filter where it stands there, in DRAM otherwise. -/
def State.putEntry (s : State) (h : Nat) (e : FEntry) : State :=
  match s.filterAt h with
  | some _ => s.setSep { s.sep with filter := (Tab.mapV s.sep.filter fun _ es =>
      es.map fun x => if x.slot == some h then { e with fp := x.fp, dirty := true } else x) }
  | none => s.tableWrite .sep (s.slotAddr h) e.bytes

/-- ENTRIES of a shard's partition. -/
def State.entriesUp (s : State) (sh : Nat) : State := s.wr (SEP_SHARD.ENTRIES sh) (s.rd (SEP_SHARD.ENTRIES sh) + 1)

/-- A slot becomes FREE: the entry leaves the filter and DRAM. -/
def State.freeEntry (s : State) (h : Nat) (e : FEntry) : State :=
  let s := s.setSep { s.sep with
    filter := ((s.sep.filter.map fun t => (t.1, t.2.filter fun x => x.slot != some h)).filter fun t => !t.2.isEmpty)
    byLoc := Tab.del s.sep.byLoc (copyKey e.shard (s.locNow e.shard e.locator)) }
  ((s.tableWrite .sep (s.slotAddr h) (zeros 32)).drop (SEP_SHARD.ENTRIES e.shard) 1).countSep e.shard

/-- An entry whose REFCOUNT + HOLDS is 0 is withdrawn, and its copy becomes garbage (R151). Answers whether it was. -/
def State.sepWithdraw (s : State) (h : Nat) : Bool × State :=
  match s.entryAt h with
  | none => (false, s)
  | some e => if e.refs + e.holds = 0 then (true, (s.freeEntry h e).copyGarbage e.shard e.locator) else (false, s)

/-! ## Holds and PENDING entries (R144, R145) -/

/-- A hold taken on an entry. -/
def State.takeHold (s : State) (e : FEntry) : State :=
  (s.filterTouch { e with holds := e.holds + 1, dirty := true }).countSep e.shard

/-- An entry whose copy has moved while holds stood on it takes the new LOCATOR once they have settled (R152). -/
def State.settleLoc (s : State) (h : Nat) : State :=
  match s.entryAt h with
  | none => s
  | some e =>
    let l := s.locNow e.shard e.locator
    if e.holds = 0 ∧ e.state = Est.valid ∧ l ≠ e.locator then s.putEntry h { e with locator := l } else s

/-- A hold released; answers nothing where there is none (R150, R156). -/
def State.releaseHold (s : State) (h : Nat) : State :=
  match s.entryAt h with
  | none => s
  | some e =>
    if e.holds = 0 then s
    else ((((s.putEntry h { e with holds := e.holds - 1 }).countSep e.shard).sepWithdraw h).2).settleLoc h

/-- A hold becomes a reference. -/
def State.confirmHold (s : State) (h : Nat) : State :=
  match s.entryAt h with
  | none => s
  | some e =>
    ((s.putEntry h { e with holds := e.holds - 1, refs := min (2 ^ 32 - 1) (e.refs + 1) }).countSep e.shard).settleLoc h

/-- A PENDING entry made for a write. None where every way of the set is pinned. -/
def State.makePending (s : State) (dom : Nat) (fp : List Byte) (sh owner : Nat) : Option State :=
  (s.filterAdd {
    fp := fp, domain := dom, state := Est.pending, shard := sh, refs := 0, locator := 0, owner := owner, made := s.now }).map
    (·.countSep sh)

/-- A PENDING entry that a higher command context has made in this tick gives way to the lookup of a lower one (R172). -/
def State.yieldPending (s : State) (dom : Nat) (fp : List Byte) (k : Nat) : State :=
  match s.filterFind dom fp with
  | none => s
  | some e =>
    if e.state ≠ Est.pending ∨ e.made ≠ s.now ∨ e.owner ≤ k then s
    else
      let s := (s.filterDrop e).countSep e.shard
      match Tab.get? s.par.cmds e.owner with
      | none => s
      | some c => { s with par := { s.par with cmds := Tab.set s.par.cmds e.owner { c with
          blks := c.blks.map fun b => if b.pend && b.fp == fp then { b with pend := false } else b } } }

/-- A PENDING entry removed. -/
def State.dropPending (s : State) (dom : Nat) (fp : List Byte) : State :=
  match s.filterFind dom fp with
  | some e => if e.state = Est.pending then (s.filterDrop e).countSep e.shard else s
  | none => s

/-- Whether a shard's partition may hold entries: LOADING or LOADED (R153). -/
def State.partitioned (s : State) (sh : Nat) : Bool :=
  s.rd (SEP_SHARD.STATE sh) == Sst.loading || s.rd (SEP_SHARD.STATE sh) == Sst.loaded

/-- A PENDING entry becomes VALID with REFCOUNT 1 and takes a slot, or is dropped where both buckets are full. Answers
whether the block is indexed. -/
def State.confirmPending (s : State) (dom : Nat) (fp : List Byte) (sh loc : Nat) : Bool × State :=
  match s.filterFind dom fp with
  | none => (false, s)
  | some e =>
    if e.state ≠ Est.pending then (false, s)
    else if !s.partitioned sh then (false, (s.filterDrop e).countSep e.shard)
    else match s.freeSlot fp with
      | none => (false, (s.filterDrop e).countSep e.shard)
      | some h =>
        let e := { e with state := Est.valid, refs := 1, locator := loc, shard := sh, slot := some h }
        let s := (s.tableWrite .sep (s.slotAddr h) e.bytes).filterTouch e
        (true, ((s.setSep { s.sep with byLoc := Tab.set s.sep.byLoc (copyKey sh loc) h }).entriesUp sh).countSep sh)

/-! ## The new-entry log (R142, R143) -/

/-- A record for a block stored as a new copy. The fingerprint of a block that has none, for want of a domain key, is a free
value (log entry 132). -/
def State.newLog (s : State) (fp : List Byte) (dom sh loc : Nat) (unindexed : Bool) : State :=
  let size := 2 ^ s.rd SEP_NEWLOG_BASE.LOG2_RECORDS
  let p := s.rd SEP_NEWLOG_STATUS.PROD
  if (p + 1) % size = s.rd SEP_NEWLOG_STATUS.CONS then
    (s.bump SEP_NEWLOG_STATUS.DROPS 1).raise Ev.newlogDrop (some .sep) none [sh]
  else
    let (fp, s) := if fp.isEmpty then (s.freeBytes 32, s.draw) else (fp, s)
    let bs := fp.take 32 ++ leBytes 2 dom ++ leBytes 1 sh ++ leBytes 1 (if unindexed then 1 else 0) ++ leBytes 4 1 ++
      leBytes 8 loc
    (s.tableWrite .sep (s.rd SEP_NEWLOG_BASE.BASE * 4096 + p * 48) bs).wr SEP_NEWLOG_STATUS.PROD ((p + 1) % size)

/-! ## Lookups (R144) -/

/-- An answer of the Separator. -/
inductive SepAns
  | dup (handle locator shard : Nat)
  | unique
  | noInsert
deriving DecidableEq, Repr

/-- A matching entry answered; `hold`: whether a hold is taken on DUPLICATE. -/
def State.matchAns (s : State) (e : FEntry) (hold : Bool) : SepAns × State :=
  if e.state ≠ Est.valid then (.noInsert, s)
  else if s.rd (PAR_SHARD.STATE e.shard) ≠ Pst.owned ∨ s.rd (SEP_SHARD.STATE e.shard) ≠ Sst.loaded then (.noInsert, s)
  else if e.refs + e.holds = 2 ^ 32 - 1 ∨ e.holds = 65535 then (.noInsert, s.raise Ev.countSat (some .sep))
  else
    let s := s.wr SEP_COUNT_DUP.COUNT (s.rd SEP_COUNT_DUP.COUNT + 1)
    (.dup (e.slot.getD 0) e.locator e.shard, if hold then s.takeHold e else s)

/-- No match: UNIQUE with a PENDING entry for the write, or UNIQUE_NOINSERT where the set is full of pinned ways or the
shard's partition holds no entries (R153). -/
def State.noMatch (s : State) (dom : Nat) (fp : List Byte) (write : Option (Nat × Nat)) : SepAns × State :=
  let uniq := fun (s : State) => (SepAns.unique, s.wr SEP_COUNT_UNIQUE.COUNT (s.rd SEP_COUNT_UNIQUE.COUNT + 1))
  match write with
  | none => uniq s
  | some (sh, owner) => if !s.partitioned sh then (.noInsert, s) else match s.makePending dom fp sh owner with
    | some s => uniq s
    | none => (.noInsert, s.raise Ev.filterPinned (some .sep))

/-- The filter's answer to a lookup; none on a miss. The entry that matches is the most recently used (R141). -/
def State.filterLookup (s : State) (dom : Nat) (fp : List Byte) (hold : Bool) : Option (SepAns × State) :=
  (s.filterFind dom fp).map fun e => (s.filterTouch e).matchAns e hold

/-- The answer once the DRAM buckets are read; a matching entry is brought into the filter. -/
def State.dramLookup (s : State) (dom : Nat) (fp : List Byte) (hold : Bool) (write : Option (Nat × Nat)) : SepAns × State :=
  match s.filterLookup dom fp hold with
  | some r => r
  | none =>
    match s.dramMatch dom fp with
    | none => s.noMatch dom fp write
    | some e => match s.filterAdd e with
      | some s => s.matchAns e hold
      | none => (.noInsert, s.raise Ev.filterPinned (some .sep))

end Sys2Proof.Machine
end

