-- ==== Sys2Proof/Machine/ParCore.lean ====
section
/-! DEFINITION. The Parlour's shared operations: contexts, responses, completion, ANA states, held commands, cuts
(R92 to R94, R102, R106 to R113, R118 to R120). -/
namespace Sys2Proof.Machine
open Sys2Proof

def State.setPar (s : State) (p : Par) : State := { s with par := p }
def State.cmd (s : State) (k : Nat) : Option NvmeCmd := Tab.get? s.par.cmds k
def State.setCmd (s : State) (k : Nat) (c : NvmeCmd) : State := s.setPar { s.par with cmds := Tab.set s.par.cmds k c }
def State.setTen (s : State) (t : Tenon) : State := { s with ten := t }

/-! ## Sending on the Tenon link (R323, R324) -/

/-- The class of a message. -/
def TenMsg.cls : TenMsg → Nat
  | .credit _ _ => 0
  | .note _ _ | .offer _ _ | .won _ _ _ | .refuse _ | .lost _ | .abdicate _ => 1
  | .timeReq _ | .timeResp _ _ _ => 2
  | .fwdRsp _ _ _ _ _ | .cancelled _ _ => 3
  | .fwdReq _ _ _ _ _ _ | .cancel _ => 4
  | .increment _ _ _ _ | .incremented _ _ | .deferErase _ _ _ _ | .deferErased _ _ | .wipeAsk _ _ | .wipeConsent _ _ _ => 5
  | .regResp _ _ _ => 6
  | .mail _ _ => 7

/-- Bytes of a message in the slot stream: a header slot and payload slots. -/
def TenMsg.bytes : TenMsg → Nat
  | .fwdRsp _ _ _ _ data => 32 + alignUp data.length 16
  | .fwdReq _ _ _ _ _ data => alignUp data.length 16
  | .deferErase _ _ _ bands | .deferErased _ bands => 16 + alignUp (2 * bands.length) 16
  | .increment _ _ _ _ => 32
  | .mail _ bs => 16 + alignUp bs.length 16
  | _ => 16

/-- Credits of a class before the peer has returned any: its receive buffer (R324). Key 4 counts command credits, which the
peer grants by CTRL messages only, key 8 the data of FWD_REQ. -/
def creditOf (k : Nat) : Nat := [0, 64, 16, 262144, 0, 65536, 32, 65536, 1048576].getD k 0

def State.credit (s : State) (k : Nat) : Nat := Tab.getD s.ten.credits k (creditOf k)

/-- What a message takes of the credits, by key. CTRL messages, cancels and responses of class REG need none. -/
def TenMsg.takes (m : TenMsg) : List (Nat × Nat) :=
  match m with
  | .fwdReq _ _ _ _ _ _ => [(4, 1), (8, m.bytes)]
  | .credit _ _ | .cancel _ | .regResp _ _ _ => []
  | _ => if m.cls = 1 ∨ m.cls = 2 then [(m.cls, 1)] else [(m.cls, m.bytes)]

/-- A message that leaves: its credits are taken; a forwarded part is now with the peer. -/
def State.tenLeave (s : State) (m : TenMsg) : State :=
  let cr := m.takes.foldl (fun (t : Tab Nat) e => Tab.set t e.1 (s.credit e.1 - e.2)) s.ten.credits
  let s := s.setTen { s.ten with tx := m :: s.ten.tx, credits := cr }
  match m with
  | .fwdReq tag _ _ _ _ _ => s.setPar { s.par with cmds := Tab.mapV s.par.cmds fun _ (c : NvmeCmd) => { c with
      fwds := c.fwds.map fun f => if f.tag = tag ∧ f.st = 0 then { f with st := 1 } else f } }
  | _ => s

/-- Whether the credits for a message are there. -/
def State.creditFor (s : State) (m : TenMsg) : Bool := m.takes.all fun e => decide (e.2 ≤ s.credit e.1)

/-- While the link is ACTIVE, waiting messages leave: the lowest class first that has its credits, oldest first in a class. -/
def State.tenPump (s : State) : Nat → State
  | 0 => s
  | n + 1 =>
    if s.rd TEN_STATUS.STATE ≠ 4 then s
    else
      let heads := (List.range 8).filterMap fun c => s.ten.out.zipIdx.find? fun e => e.1.cls == c
      match heads.find? fun e => s.creditFor e.1 with
      | none => s
      | some (m, i) => ((s.setTen { s.ten with out := s.ten.out.eraseIdx i }).tenLeave m).tenPump n

/-- A message given to the link. Classes CTRL, LEASE and TIME are for a link that is up: ACTIVE or RETRAIN; others wait for
it (R330). -/
def State.tenSend (s : State) (m : TenMsg) : State :=
  let st := s.rd TEN_STATUS.STATE
  if m.cls ≤ 2 ∧ st ≠ 4 ∧ st ≠ 5 then s
  else
    let s := s.setTen { s.ten with out := s.ten.out ++ [m] }
    s.tenPump s.ten.out.length

/-- Queued forward requests of a command taken back. -/
def State.dropQueued (s : State) (c : NvmeCmd) : State :=
  s.setTen { s.ten with out := s.ten.out.filter fun m => match m with
    | .fwdReq tag _ _ _ _ _ => !(c.fwds.any fun f => f.tag == tag && f.st == 0)
    | _ => true }

/-- Tenant number that stands for no tenant: a command whose namespace is not valid, or that names none (log entry 25). -/
def noTenant : Nat := 2 ^ 14

/-- The volume entry of a command. -/
def State.cmdVol (s : State) (c : NvmeCmd) : List Byte := s.volEntry c.vol

/-- The namespace of a command, if its entry is VALID. -/
def State.nsOk (s : State) (c : NvmeCmd) : Bool := c.vol < 2 ^ 18 && volValid (s.cmdVol c)

/-! ## Contexts (R102) -/

/-- IN_USE, PEAK and WAITING kept. -/
def State.countCtxs (s : State) : State :=
  let n := s.par.cmds.length
  ((s.wr PAR_CTX_STATUS.IN_USE n).wr PAR_CTX_STATUS.PEAK (max n (s.rd PAR_CTX_STATUS.PEAK))).wr PAR_CTX_STATUS.WAITING
    s.par.waitCap.length

/-- The lowest context that is free. -/
def State.freeContext (s : State) : Option Nat :=
  (List.range (s.par.cmds.length + 1)).find? fun k => (s.cmd k).isNone

/-- Whether a capsule of this head can have a context: FWD_RESERVE of them are kept for the peer's commands. -/
def State.localRoom (s : State) : Bool :=
  decide ((s.par.cmds.filter fun e => e.2.origin.isNone).length < 262144 - s.rd PAR_CTL.FWD_RESERVE)

/-- Whether a forwarded command can have a context. -/
def State.peerRoom (s : State) : Bool :=
  decide ((s.par.cmds.filter fun e => e.2.origin.isSome).length < s.rd PAR_CTL.FWD_RESERVE)

/-- The queue a transport context carries. -/
def State.queueOf (s : State) (x : Nat) : Option Queue := s.par.queues.find? (·.ctx == x)

def State.ctrl (s : State) (n : Nat) : Option Ctrl := Tab.get? s.par.ctrls n
def State.setCtrl (s : State) (n : Nat) (c : Ctrl) : State := s.setPar { s.par with ctrls := Tab.set s.par.ctrls n c }

/-- Controller ID that stands for a transport context not bound yet (log entry 26). -/
def unboundCntlid : Nat := 0xFFFF

/-- The keep-alive timer of a controller restarts (R113); KATO is kept in management ticks. -/
def State.keepAlive (s : State) (n : Nat) : State :=
  match s.ctrl n with
  | some c => s.setCtrl n { c with kaBy := if c.kato = 0 then none else some (s.inMgmt c.kato) }
  | none => s

/-- Whether software answers a command (R94). -/
def NvmeCmd.software (c : NvmeCmd) : Bool :=
  c.op == Nop.fabrics || (c.admin && !([Nadm.abort, Nadm.aer, Nadm.keepAlive].contains c.op))

/-- Volume of a namespace ID; one past the last where there is none. -/
def volOfNsid (n : Nat) : Nat := if 1 ≤ n ∧ n ≤ 2 ^ 18 then n - 1 else 2 ^ 18

/-- The tenant a command's tokens come from: that of its namespace; an Abort names none, and takes that of the command in
flight it names (log entry 25). -/
def State.tenantOf (s : State) (c : NvmeCmd) : Nat :=
  if c.admin ∧ c.op = Nadm.abort then
    ((s.par.cmds.find? fun x => x.2.origin.isNone && x.2.cntlid == c.cntlid && x.2.qid == c.cdw 10 % 65536 &&
      x.2.cid == c.cdw 10 / 65536).map (·.2.tenant)).getD noTenant
  else if s.nsOk c then volTenant (s.cmdVol c) else noTenant

/-- A context assigned to a command: it goes to software, to its tenant's hold queue, or, a Keep Alive or an Asynchronous
Event Request, straight to execution. -/
def State.assign (s : State) (k : Nat) (c : NvmeCmd) : State :=
  let c := { c with vol := volOfNsid c.nsid }
  let c := { c with tenant := s.tenantOf c }
  if c.software then
    let s := s.setCmd k { c with stage := .running }
    (s.setPar { s.par with admin := s.par.admin ++ [k] }).countCtxs
  else if c.admin ∧ c.op ≠ Nadm.abort then (s.setCmd k { c with stage := .running }).countCtxs
  else
    let s := s.setCmd k { c with stage := .gate }
    (s.setPar { s.par with gate := s.par.gate ++ [k] }).countCtxs

/-- A capsule leaves its submission queue: the queue's head moves on. -/
def State.headOn (s : State) (x : Nat) : State :=
  s.setPar { s.par with queues := s.par.queues.map fun (y : Queue) =>
    if y.ctx = x then { y with sqhd := (y.sqhd + 1) % (y.size + 1) } else y }

/-- A capsule received by this head takes a context; its queue's head moves on. -/
def State.takeCapsule (s : State) (x : Nat) (bytes : List Byte) (bad : Bool) (since : Nat) : State :=
  match s.freeContext with
  | none => s
  | some k =>
    let q := s.queueOf x
    (s.headOn x).assign k {
      sqe := bytes.take 64, incap := bytes.drop 64, ctx := some x,
      cntlid := (q.map Queue.cntlid).getD unboundCntlid, qid := (q.map Queue.qid).getD 0, cls := (q.map Queue.cls).getD 0,
      tenant := noTenant, vol := 0, stage := .gate, since := since, badData := bad }

/-- Waiting capsules take contexts while this head has room, oldest first (R102). -/
def State.takeWaiting (s : State) : Nat → State
  | 0 => s
  | n + 1 => match s.par.waitCap with
    | [] => s
    | (x, bs, bad, at_) :: rest =>
      if s.localRoom then ((s.setPar { s.par with waitCap := rest }).takeCapsule x bs bad at_).takeWaiting n else s

/-! ## Responses (R106) -/

/-- A completion queue entry. -/
def cqeBytes (dw0 dw1 sqhd sqid cid status : Nat) : List Byte :=
  leBytes 4 dw0 ++ leBytes 4 dw1 ++ leBytes 2 sqhd ++ leBytes 2 sqid ++ leBytes 2 cid ++ leBytes 2 (status * 2)

/-- A response capsule handed to the Rail. -/
def State.sendCapsule (s : State) (x : Nat) (cqe : List Byte) : State :=
  let s := s.setPar { s.par with sent := ⟨x, cqe, []⟩ :: s.par.sent }
  match s.ctx x with
  | none => s
  | some y => match y.body with
    | .qp _ => s.postWr x { owner := .parlour, verb := 0, addr := 0, len := cqe.length, data := cqe }
    | .tcp t => s.tcpSend x (pduBytes t 5 cqe [])

/-- The completion queue entry of a command posted with its status. -/
def State.respond (s : State) (c : NvmeCmd) (dw0 dw1 status : Nat) : State :=
  match c.ctx with
  | none => s
  | some x =>
    let q := s.queueOf x
    s.sendCapsule x (cqeBytes dw0 dw1 ((q.map (·.sqhd)).getD 0) c.qid c.cid status)

/-- Data cut into the data blocks it fills, in order. -/
def cutSegs : List Seg → List Byte → List (Seg × List Byte)
  | [], _ => []
  | g :: gs, bs => if bs.isEmpty then [] else if g.len = 0 then cutSegs gs bs else (g, bs.take g.len) :: cutSegs gs (bs.drop g.len)

/-- Data of a read sent to the host: RDMA WRITEs into its data blocks, or C2HData. The write-index entries it came from stay
pinned until the last of it has left (R35). -/
def State.sendData (s : State) (c : NvmeCmd) (data : List Byte) (pins : List (Nat × Nat × Nat) := []) : State :=
  match c.ctx with
  | none => s.unpin pins
  | some x =>
    let s := s.setPar { s.par with sent := ⟨x, [], data⟩ :: s.par.sent }
    match (s.ctx x).map fun (y : Ctx) => y.body with
    | none => s.unpin pins
    | some (.qp _) =>
      let ps := cutSegs (((c.segs true).getD []).filter (!·.inCap)) data
      if ps.isEmpty then s.unpin pins
      else ps.zipIdx.foldl (fun s p => s.postWr x {
        owner := .parlour, verb := 3, addr := 0, len := p.1.2.length, raddr := p.1.1.addr, rkey := p.1.1.key, data := p.1.2,
        pins := if p.2 + 1 = ps.length then pins else [] }) s
    | some (.tcp t) =>
      s.tcpSend x (pduBytes t 7 (leBytes 2 c.cid ++ zeros 2 ++ leBytes 4 0 ++ leBytes 4 data.length ++ zeros 4) data 4) pins

/-! ## Releasing what a command holds -/

/-- Pails of a command that no write-index entry names are freed, its waiting requests withdrawn. -/
def State.freeCtxPails (s : State) (k : Nat) : State :=
  let mine := (s.pailsOf (.ctx k)).filter fun p => !(s.vat.widx.any (·.pail == p))
  ((s.setVat { s.vat with waiting := s.vat.waiting.filter fun q => q.user != .ctx k }).countWaiting).freePails mine

/-- Write-index entries that the reads of a command pin, as (volume, block, DSEQ) (R35). -/
def NvmeCmd.pins (c : NvmeCmd) : List (Nat × Nat × Nat) := c.blks.filterMap fun b => b.pin.map fun d => (c.vol, b.block, d)

/-- Pins of every block of a command lowered. -/
def State.unpinAll (s : State) (c : NvmeCmd) : State := (s.unpin c.pins).widxReap

/-- The domain of a command's volume. -/
def State.cmdDomain (s : State) (c : NvmeCmd) : Nat := volDomain (s.cmdVol c)

/-- Holds released and PENDING entries removed of the blocks of a command that were not confirmed (R145). -/
def State.dropHolds (s : State) (c : NvmeCmd) : State :=
  c.blks.foldl (fun s b =>
    let s := match b.hold with
      | some (h, _) => s.releaseHold h
      | none => s
    let s := match b.step with
      | .bucket _ => s.drop SEP_STATUS.IN_FLIGHT 1
      | _ => s
    if b.pend then s.dropPending (s.cmdDomain c) b.fp else s) s

/-- Write-index entries of a command withdrawn (R110). -/
def State.withdrawWidx (s : State) (c : NvmeCmd) : State :=
  (s.widxMap (fun e => e.vol == c.vol && c.blks.any fun b => b.block == e.block && b.dseq == e.dseq && c.mutates)
    (fun e => { e with withdrawn := true })).widxReap

/-- Unissued journal records of a command leave their lanes (R110). -/
def State.dropRecs (s : State) (k : Nat) : State :=
  s.setCell { s.cell with shards := (Tab.mapV s.cell.shards fun _ x =>
    let gone := (x.recs.filter fun r => !r.2.issued && (r.2.cmd.map (·.1)) == some k).map (·.1)
    { x with
      recs := Tab.keep x.recs fun j _ => !gone.contains j
      lanes := (Tab.mapV x.lanes fun _ l => { l with next := l.next.filter fun j => !gone.contains j }) }) }

/-- RDMA READs of a command's payload that were not sent are taken back. -/
def State.dropPulls (s : State) (k : Nat) : State :=
  s.setRails { s.rails with ctxs := (Tab.mapV s.rails.ctxs fun _ x => match x.body with
    | .qp q => { x with body := .qp { q with sq := q.sq.filter fun w => w.sent || w.owner != .pull k } }
    | .tcp _ => x) }

/-- A context freed; the first capsule that waits takes it (R102). One lent to the peer is a command credit again (R324). -/
def State.freeContextOf (s : State) (k : Nat) : State :=
  let lent := ((s.cmd k).map fun (c : NvmeCmd) => c.origin.isSome).getD false
  let s := match s.cmd k with
    | some c => s.dropQueued c
    | none => s
  let s := s.setPar { s.par with
    cmds := Tab.del s.par.cmds k
    gate := s.par.gate.filter (· != k)
    ready := s.par.ready.filter (· != k)
    held := s.par.held.filter (· != k)
    admin := s.par.admin.filter (· != k) }
  let s := { s with leaseU := { s.leaseU with reexec := (Tab.mapV s.leaseU.reexec fun _ l => l.filter (· != k)) } }
  let s := if lent then s.tenSend (.credit 4 1) else s
  (s.takeWaiting s.par.waitCap.length).countCtxs

/-! ## Held commands (R119) -/

/-- PAR_SHARD_s.HELD kept for the shards of a list. -/
def State.countHeld (s : State) (shards : List Nat) : State :=
  shards.foldl (fun s sh => s.wr (PAR_SHARD.HELD sh) (s.par.held.filter fun k => match s.cmd k with
    | some c => c.waitSh.contains sh
    | none => false).length) s

/-! ## Re-execution lists (R329) -/

/-- A command put into a re-execution list by its arrival. -/
def State.listReexec (s : State) (sh k : Nat) : State :=
  let at_ := ((s.cmd k).map (·.since)).getD 0
  let l := Tab.getD s.leaseU.reexec sh []
  if l.contains k then s
  else
    let before := l.filter fun j => decide (((s.cmd j).map (·.since)).getD 0 ≤ at_)
    let after := l.filter fun j => !decide (((s.cmd j).map (·.since)).getD 0 ≤ at_)
    s.setLease { s.leaseU with reexec := Tab.set s.leaseU.reexec sh (before ++ k :: after) }

/-- Whether a block of a command rests on a shard: its own, or that of its paired increment (R149). -/
def Blk.onShard (b : Blk) (vol sh : Nat) : Bool := blockShard vol b.block == sh || (b.pair.map (·.1)) == some sh

/-- A block made ready to run again from its payload. -/
def Blk.again (b : Blk) : Blk := { block := b.block, count := b.count, step := .wait, app := b.app, ref := b.ref }

/-- The unfinished blocks of a command on a shard, with their places. -/
def NvmeCmd.unfinished (c : NvmeCmd) (sh : Nat) : List (Blk × Nat) :=
  c.blks.zipIdx.filter fun e => e.1.onShard c.vol sh && e.1.step != .done && e.1.step != .fwd

/-- Parts that ended with a path status run again under R329, since another part of the command has changed something and the
status would say that nothing has (R121, log entry 124). -/
def State.retryParts (s : State) (k : Nat) (c : NvmeCmd) : State :=
  let shs := (c.refused.map (·.1)).eraseDups
  shs.foldl (fun s sh => s.listReexec sh k) (s.setCmd k { c with
    refused := [], reexec := true
    blks := c.blks.map fun b => if shs.contains (blockShard c.vol b.block) then b.again else b
    fwds := c.fwds.filter fun f => !shs.contains f.shard })

/-! ## Cuts (R109 to R112) -/

/-- What a cut waits for of command `k` is over; `sup`: its completion was suppressed. -/
def State.cutDone (s : State) (k : Nat) (sup : Bool) : State :=
  s.setPar { s.par with cuts := (s.par.cuts.map fun x =>
    if x.waits.contains k || x.cancels.contains k then
      { x with
        waits := x.waits.filter (· != k)
        cancels := x.cancels.filter (· != k)
        suppressed := if sup then x.suppressed + 1 else x.suppressed
        aborted := if sup then x.aborted else x.aborted + 1 }
    else x) }

/-- Meter counters of commands by class (R465). -/
def cmdCtr (cls : Nat) : Nat := 3 + cls

/-- A command finished with a status: its completion is posted, sent to the peer that forwarded it, or suppressed, and its
context freed (R106, R109, R466). -/
def State.complete (s : State) (k status : Nat) (dw0 : Nat := 0) (dw1 : Nat := 0) (data : List Byte := []) : State :=
  match s.cmd k with
  | none => s
  | some c =>
    let e := s.cmdVol c
    let shards := c.shards e
    let sh := c.firstShard e
    let s := s.dropHolds c
    let s := if c.begun ∧ c.tenant < noTenant ∧ !c.admin ∧ c.fwds.all (·.shard != sh) then
        s.meterEvent c.tenant sh (cmdCtr c.cls) 1 else s
    let s := if c.cut then match c.origin with
        | some tag => (s.unpinAll c).tenSend (.cancelled tag true)
        | none => (s.unpinAll c).cutDone k true
      else match c.origin with
        | some tag => (s.unpinAll c).tenSend (.fwdRsp tag status dw0 dw1 data)
        | none =>
          let s := if data.isEmpty then s.unpinAll c else s.sendData c data c.pins
          let s := s.respond c dw0 dw1 status
          if c.tenant < noTenant then s.meterEvent c.tenant sh (10 + histBin (s.now - c.since)) 1 else s
    ((s.freeCtxPails k).freeContextOf k).countHeld shards

/-- Whether every block and every forwarded part of a command is done. -/
def NvmeCmd.finished (c : NvmeCmd) : Bool :=
  c.begun && c.blks.all (fun b => b.step == .done) && c.fwds.all (·.st == 2)

/-- Whether a command returns data to the host. -/
def NvmeCmd.returnsData (c : NvmeCmd) : Bool := c.op == Nop.read

/-- The status of a finished command: of the first part that failed, or of the first that its path refused. -/
def NvmeCmd.result (c : NvmeCmd) : Nat := if c.status = 0 then (c.refused.head?.map (·.2)).getD 0 else c.status

/-- A command completes once all its parts have finished (R118). DEFERRED counts blades for the host; toward the head that
forwarded the part it is the mask of them (log entry 125). -/
def State.finishIfDone (s : State) (k : Nat) : State :=
  match s.cmd k with
  | none => s
  | some c =>
    if !c.finished then s
    else if c.status = 0 ∧ !c.refused.isEmpty ∧ (c.commit ∨ c.changed) then s.retryParts k c
    else
      let data := if c.returnsData ∧ c.result = 0 then c.blks.flatMap (·.data) else []
      let e := s.cmdVol c
      let s := if data.isEmpty then s else (c.parts e).foldl (fun s p =>
        if c.fwds.any (·.shard == p.1) then s
        else s.meterEvent c.tenant p.1 0 ((List.range p.2.2).foldl (fun n i => n + (c.sectors e (p.2.1 + i)).2) 0 *
          lbaBytes (volLbaf e))) s
      if c.op = Nop.secure then s.complete k c.result c.retained (if c.origin.isSome then c.deferred else popCount c.deferred 16)
      else s.complete k c.result 0 0 data

/-- A part of a command failed: the first failure is kept. -/
def NvmeCmd.fail (c : NvmeCmd) (st : Nat) : NvmeCmd := if c.status = 0 then { c with status := st } else c

/-- Block `i` of a command changed. -/
def NvmeCmd.setBlk (c : NvmeCmd) (i : Nat) (b : Blk) : NvmeCmd := { c with blks := c.blks.set i b }

def State.blk (s : State) (k i : Nat) : Option (NvmeCmd × Blk) := do
  let c ← s.cmd k
  let b ← c.blks[i]?
  pure (c, b)

def State.setBlk (s : State) (k i : Nat) (b : Blk) : State :=
  match s.cmd k with
  | some c => s.setCmd k (c.setBlk i b)
  | none => s

/-- Block `i` is over, with a status; the command completes if it was the last. -/
def State.blkDone (s : State) (k i st : Nat) : State :=
  match s.blk k i with
  | none => s
  | some (c, b) =>
    let c := if st = 0 then c else c.fail st
    (s.setCmd k (c.setBlk i { b with step := .done })).finishIfDone k

/-- What a command cut before its commit point has done here is undone (R110): nothing of it stays. -/
def State.dropLocal (s : State) (k : Nat) (c : NvmeCmd) : State :=
  (((((s.dropHolds c).unpinAll c).withdrawWidx c).dropRecs k).dropPulls k).freeCtxPails k

/-- A command cancelled before its commit point. -/
def State.cancel (s : State) (k : Nat) : State :=
  match s.cmd k with
  | none => s
  | some c => (s.dropLocal k c).freeContextOf k

/-- Whether a command counts as past its commit point at a cut: its first program is issued here or its part at the peer has
finished, or it stands in a re-execution list (R109, R329). -/
def State.pastCommit (s : State) (k : Nat) (c : NvmeCmd) : Bool :=
  c.commit || c.changed || s.leaseU.reexec.any fun l => l.2.contains k

/-- A command marked as cut: a cancel goes out for each of its parts that is with the peer (R112). -/
def State.sendCancels (s : State) (k : Nat) (silent : Bool) (c : NvmeCmd) : State :=
  let s := s.setCmd k { c with
    cut := true, silent := silent, fwds := c.fwds.map fun p => if p.st = 1 then { p with st := 3 } else p }
  (c.fwds.filter (·.st == 1)).foldl (fun s p => s.tenSend (.cancel p.tag)) s

/-- One command settled at a cut point; `silent`: it is dropped without a completion. Parts that are with the peer are
cancelled there, and waited for. -/
def State.cutOne (s : State) (silent : Bool) (k : Nat) : State :=
  match s.cmd k with
  | none => s
  | some c =>
    if c.cut then s
    else if s.pastCommit k c then s.sendCancels k silent c
    else if c.fwds.all (·.st != 1) then (if silent then s else s.respond c 0 0 Nv.sqDeletion).cancel k
    else
      let s := (s.dropLocal k c).dropQueued c
      let s := (s.setPar { s.par with held := s.par.held.filter (· != k) }).countHeld c.waitSh
      s.sendCancels k silent { c with
        stage := .running, begun := true, waitSh := []
        fwds := c.fwds.map fun p => if p.st = 1 then p else { p with st := 2 }
        blks := c.blks.map fun b => if b.step = .fwd then b else { b with step := .done, hold := none, pend := false, pin := none } }

/-- A cut command all of whose cancels are confirmed: what is past its commit point here finishes, what was past it at the
peer is suppressed, the rest is aborted (R111, R112). -/
def State.cutSettled (s : State) (k : Nat) (c : NvmeCmd) : State :=
  if c.fwds.any (·.st == 3) then s
  else if s.pastCommit k c then s.finishIfDone k
  else if c.past then (s.cutDone k true).cancel k
  else ((if c.silent then s else s.respond c 0 0 Nv.sqDeletion).cutDone k false).cancel k

/-- Whether a cut takes in a queue of a controller. -/
def Cut.takes (x : Cut) (cntlid qid : Nat) : Bool := x.cntlid == cntlid && (x.qid.isNone || x.qid == some qid)

/-- Whether a cut takes in a command of opcode `op` on a queue it takes in: not the Fabrics commands, whose answers are
software's, unless an association or a controller goes. -/
def Cut.settles (x : Cut) (silent : Bool) (op : Nat) : Bool := op != Nop.fabrics || (x.qid.isNone && silent)

/-- A capsule that waits for a context, or arrives on a queue that is cut, is settled: aborted, or dropped. -/
def State.abortCapsule (s : State) (silent : Bool) (x : Nat) (bs : List Byte) : State :=
  let s := s.headOn x
  match s.queueOf x with
  | some q => if silent then s else s.sendCapsule x (cqeBytes 0 0 q.sqhd q.qid (fieldAt bs 2 2) Nv.sqDeletion)
  | none => s

/-- The cut point of an event for one queue or a whole controller (R109, R112). -/
def State.cutQueues (s : State) (d : Option DescRef) (cntlid : Nat) (qid : Option Nat) (silent : Bool) : State :=
  let x : Cut := { d := d, cntlid := cntlid, qid := qid, aborted := 0, waits := [], cancels := [], silent := silent }
  let mine := s.par.cmds.filter fun e => x.takes e.2.cntlid e.2.qid && e.2.origin.isNone && x.settles silent e.2.op
  let caps := s.par.waitCap.filter fun w => (s.queueOf w.1).any (fun q => x.takes q.cntlid q.qid) &&
    x.settles silent (fieldAt w.2.1 0 1)
  let waits := (mine.filter fun e => s.pastCommit e.1 e.2).map (·.1)
  let cancels := (mine.filter fun e => !s.pastCommit e.1 e.2 && (e.2.cut || e.2.fwds.any (·.st == 1))).map (·.1)
  let s := caps.foldl (fun s w => s.abortCapsule silent w.1 w.2.1) s
  let s := s.setPar { s.par with waitCap := s.par.waitCap.filter fun w => !caps.contains w }
  let s := mine.foldl (fun s e => s.cutOne silent e.1) s
  (s.setPar { s.par with cuts := s.par.cuts ++ [{ x with
    aborted := mine.length + caps.length - waits.length - cancels.length, waits := waits, cancels := cancels }] }).countCtxs

/-- EV_ASSOC_LOST with its snapshot: controller, cause, and the counts of R109: commands before their commit point, and past
it. -/
def State.assocEvent (s : State) (cntlid cause : Nat) : State :=
  let x := s.par.cuts.getLast?
  let s := match s.ctrl cntlid with
    | some c => s.setCtrl cntlid { c with lost := true }
    | none => s
  s.raise Ev.assocLost (some .par) none
    [cntlid, cause, (x.map fun x => x.aborted + x.cancels.length).getD 0, (x.map (·.waits.length)).getD 0]

/-- An association ends, once: every queue of its controller is cut, its completions dropped (R109, R132). -/
def State.assocLoss (s : State) (cntlid cause : Nat) : State :=
  if ((s.ctrl cntlid).map (·.lost)).getD false then s else (s.cutQueues none cntlid none true).assocEvent cntlid cause

/-! ## ANA states (R118, R120) -/

/-- ANA state of a shard state. -/
def anaOf (st : Nat) : Nat :=
  if st = Pst.owned then 1 else if st = Pst.peer then 2 else if st = Pst.movingIn ∨ st = Pst.movingOut then 15 else 3

/-- Notices that are due go out on held Asynchronous Event Requests: type 2, information 03h, log page 0Ch. -/
def State.anaDeliver (s : State) : Nat → State
  | 0 => s
  | n + 1 =>
    match s.par.anaNotices.find? fun x => ((s.ctrl x.1).map fun c => !c.aers.isEmpty).getD false with
    | none => s
    | some (cntlid, _) =>
      match s.ctrl cntlid with
      | none => s
      | some c =>
        let s := s.setPar { s.par with anaNotices := s.par.anaNotices.filter (·.1 != cntlid) }
        let s := s.setCtrl cntlid { c with aers := c.aers.drop 1 }
        match s.par.cmds.find? fun e => e.2.cntlid == cntlid && e.2.admin && e.2.op == Nadm.aer && e.2.cid == c.aers.headD 0 with
        | some (k, _) => (s.complete k Nv.ok 0x000C0302).anaDeliver n
        | none => s.anaDeliver n

/-! ## Parts by shard (R118) -/

/-- Whether the blocks of a read are all in sealed wheels, so that MOVING_IN serves them (R118, R334). -/
def State.sealedRead (s : State) (c : NvmeCmd) (sh : Nat) : Bool :=
  s.cellSt sh == Cst.ready && (c.parts (s.cmdVol c)).all fun p => p.1 != sh || (List.range p.2.2).all fun i =>
    match s.catEntry c.vol (p.2.1 + i) with
    | some e => e.locator == 0 || !locJournal (s.locNow e.shard e.locator)
    | none => true

/-- What the Parlour does with a command's part in a shard. -/
inductive PartDo
  | here | peer | hold | refuse
deriving DecidableEq, Repr

def State.partDo (s : State) (c : NvmeCmd) (sh : Nat) : PartDo :=
  let st := s.rd (PAR_SHARD.STATE sh)
  if st = Pst.owned then .here
  else if st = Pst.peer then (if c.origin.isSome then .refuse else .peer)
  else if st = Pst.movingIn then (if !c.mutates ∧ s.sealedRead c sh then .here else .hold)
  else if st = Pst.movingOut then (if !c.mutates ∧ s.cellSt sh ≠ Cst.absent then .here else .hold)
  else .refuse

/-- The shards of a command whose parts are not yet with the peer. -/
def State.openShards (s : State) (c : NvmeCmd) : List Nat :=
  (c.shards (s.cmdVol c)).filter fun sh => c.fwds.all (·.shard != sh)

/-- A command held for the moving shards it touches (R119). -/
def State.hold (s : State) (k : Nat) (c : NvmeCmd) : State :=
  let shs := (s.openShards c).filter fun sh => s.partDo c sh == .hold
  let s := s.setCmd k { c with stage := .held, heldAt := s.now, waitSh := shs }
  (s.setPar { s.par with held := s.par.held ++ [k] }).countHeld shs

/-- A command begun on a shard that is now handed over, and not yet past its commit point, goes back to its start and is held;
its parts with the peer stay there (R118, R119). -/
def State.holdBegun (s : State) (sh k : Nat) : State :=
  match s.cmd k with
  | none => s
  | some c =>
    if c.stage ≠ .running ∨ !c.begun ∨ c.cut ∨ !c.mutates ∨ c.commit ∨ (c.unfinished sh).isEmpty ∨
        s.leaseU.reexec.any (fun l => l.2.contains k) then s
    else
      let s := (((s.dropHolds c).withdrawWidx c).dropRecs k).freeCtxPails k
      s.hold k { c with
        begun := false, asked := false, widxWait := false, fwds := c.fwds.filter (·.st != 4)
        blks := c.blks.map fun b =>
          if b.step == .done || b.step == .fwd && (c.fwds.any fun f => f.st != 4 && f.shard == blockShard c.vol b.block) then b
          else b.again }

/-- A shard begins to move: what is to be held for it is. -/
def State.moveStarts (s : State) (sh : Nat) : State :=
  let more := s.par.held.filter fun k => match s.cmd k with
    | some c => (s.openShards c).contains sh && !c.waitSh.contains sh && s.partDo c sh == .hold
    | none => false
  let cmds := Tab.mapV s.par.cmds fun k (c : NvmeCmd) => if more.contains k then { c with waitSh := c.waitSh ++ [sh] } else c
  let s := s.setPar { s.par with cmds := cmds }
  let s := if s.rd (PAR_SHARD.STATE sh) = Pst.movingOut then s.par.cmds.foldl (fun s e => s.holdBegun sh e.1) s else s
  s.countHeld [sh]

/-- A shard moves no longer: commands held for no other shard resume (R119). -/
def State.moveEnds (s : State) (sh : Nat) : State :=
  let s := s.setPar { s.par with cmds := Tab.mapV s.par.cmds fun _ (c : NvmeCmd) =>
    { c with waitSh := c.waitSh.filter (· != sh) } }
  let back := s.par.held.filter fun k => ((s.cmd k).map (·.waitSh.isEmpty)).getD false
  let s := s.setPar { s.par with
    held := s.par.held.filter fun k => !back.contains k
    cmds := (Tab.mapV s.par.cmds fun k c => if back.contains k then { c with stage := .running } else c) }
  s.countHeld [sh]

/-- A shard takes a state in the Parlour: ANA notices on a change of the reported state, commands held while it moves, and
resumed when it does not (R118 to R120). -/
def State.setAna (s : State) (sh st : Nat) : State :=
  let old := s.rd (PAR_SHARD.STATE sh)
  let s := s.wr (PAR_SHARD.STATE sh) st
  let s := if anaOf old = anaOf st then s
    else
      let due := (s.par.ctrls.filter (·.2.anaNotice)).map fun e => (e.1, sh + 1)
      let s := s.setPar { s.par with anaChanges := s.par.anaChanges + 1, anaNotices := s.par.anaNotices ++ due }
      s.anaDeliver due.length
  if st = Pst.movingIn ∨ st = Pst.movingOut then s.moveStarts sh else s.moveEnds sh

end Sys2Proof.Machine
end

