-- ==== Sys2Proof/Machine/BladeIssue.lean ====
section
/-! DEFINITION. Commands the head sends to blades, the leases that stamp them, and the Parlour state of a shard (R290 to
R294, R310, R311, R333, R337). A command inside a step that is one whole runs at once (log entry 27); the others are
issued, rung, executed and completed by their own commands. -/
namespace Sys2Proof.Machine
open Sys2Proof

/-! ## Lease states (R336, R337) -/

/-- LEASE_SHARD_s.STATE values. -/
def Lst.unknown : Nat := 0
def Lst.peerHeld : Nat := 1
def Lst.winning : Nat := 2
def Lst.quiet : Nat := 3
def Lst.held : Nat := 4
def Lst.releasing : Nat := 5

/-- TEN_STATUS.STATE values (R319). -/
def Tst.disabled : Nat := 0
def Tst.detect : Nat := 1
def Tst.train : Nat := 2
def Tst.exchange : Nat := 3
def Tst.active : Nat := 4
def Tst.retrain : Nat := 5
def Tst.down : Nat := 6

def State.leaseX (s : State) (sh : Nat) : LeaseX := Tab.getD s.leaseU.shards sh {}
def State.setLeaseX (s : State) (sh : Nat) (x : LeaseX) : State :=
  s.setLease { s.leaseU with shards := Tab.set s.leaseU.shards sh x }
def State.leaseSt (s : State) (sh : Nat) : Nat := s.rd (LEASE_SHARD.STATE sh)

/-- Whether the Lease unit reports a shard as held with an unexpired lease (R310). A shard released after HANDOFF_COMMIT
is held no longer. -/
def State.liveLease (s : State) (sh : Nat) : Bool :=
  (s.leaseSt sh == Lst.quiet || s.leaseSt sh == Lst.held || (s.leaseSt sh == Lst.releasing && !(s.leaseX sh).committed))
    && decide (s.now < (s.leaseX sh).ends)

/-- The Parlour state that R337 gives a shard; a link in RETRAIN has not left ACTIVE for good (log entry 92). -/
def State.parState (s : State) (sh : Nat) : Nat :=
  let l := s.leaseSt sh
  let ready := s.cellSt sh == Cst.ready
  let take := s.on (LEASE_SHARD.BY_TAKE sh)
  if l = Lst.held ∧ ready then Pst.owned
  else if l = Lst.quiet ∨ l = Lst.held then (if take then Pst.takeover else Pst.movingIn)
  else if l = Lst.winning then (if take then Pst.takeover else Pst.peer)
  else if l = Lst.releasing then Pst.movingOut
  else if l = Lst.peerHeld ∧ (s.rd TEN_STATUS.STATE = Tst.active ∨ s.rd TEN_STATUS.STATE = Tst.retrain) then Pst.peer
  else Pst.noLease

/-- The Parlour state of a shard follows the Lease unit and the Cellar. -/
def State.anaUpdate (s : State) (sh : Nat) : State :=
  if s.parState sh = s.rd (PAR_SHARD.STATE sh) then s else s.setAna sh (s.parState sh)

/-! ## Issuing (R289 to R294, R310) -/

/-- The 64-byte image of a command; `rest` is bytes 28 to 63. -/
def bcpImg (op flags shard die epoch data len : Nat) (rest : List Byte) : List Byte :=
  leBytes 1 op ++ leBytes 1 flags ++ zeros 2 ++ leBytes 1 shard ++ zeros 1 ++ leBytes 2 die ++ leBytes 8 epoch ++
    leBytes 8 data ++ leBytes 4 len ++ (rest ++ zeros (36 - rest.length))

/-- OUTSTANDING of a port kept. -/
def State.countPort (s : State) (b : Nat) : State := s.wr (BLD_PORT_STATUS.OUTSTANDING b) (s.hport b).issued.length

/-- A command issued on a queue of a READY port; whether it was. -/
def State.issue (s : State) (b q : Nat) (c : BCmd) (who : Issuer) : Bool × State :=
  if s.bldSt b ≠ Bst.ready then (false, s)
  else
    let y := s.hport b
    let y := if y.issued.isEmpty then { y with lastCpl := s.now } else y
    (true, (s.setHport b { y with issued := y.issued ++ [⟨q, none, c, who, s.now⟩] }).countPort b)

/-- A refusal on epochs counted; a blade that missed an install is brought up to date (R311). -/
def State.epochRefused (s : State) (b : Nat) (c : BCmd) (st : Nat) : State :=
  let sh := c.shard
  if st = St.epochStale ∨ st = St.epochAhead ∨ st = St.ownerMismatch then
    let s := (s.bump (BLD_PORT_ERR.EPOCH_REFUSED b) 1).raise Ev.epochRefused (some .bld) (some b)
      [b, sh, c.epoch, ((s.blade b).map fun x => (x.epochRec sh).epoch).getD 0]
    if st = St.epochAhead ∧ s.liveLease sh then
      (s.issue b 0 ⟨bcpImg Bop.setEpoch 16 sh 0 (s.rd (LEASE_EPOCH.EPOCH sh)) 0 0 [], [], []⟩ (.setEpoch sh)).2
    else s
  else s

/-- Whether a command programs or erases an anchor block, which no shard's epoch stamps. -/
def BCmd.anchor (c : BCmd) : Bool := (c.op == Bop.program || c.op == Bop.erase) && anchorBlock c.die c.block

/-- A mutating command carries the epoch the Lease unit holds at the tick of issue (R310). -/
def State.stamped (s : State) (c : BCmd) : BCmd :=
  if bcpMutating c.op && !c.anchor then { c with img := splice c.img 8 (leBytes 8 (s.rd (LEASE_EPOCH.EPOCH c.shard))) } else c

/-- Whether R310 lets a command be sent. -/
def State.maySend (s : State) (c : BCmd) : Bool := !bcpMutating c.op || c.anchor || c.op == Bop.wipe || s.liveLease c.shard

/-- The next medium outcome of the step under way. -/
def State.medium (s : State) : Medium := s.cell.script.headD (.done 0 false)

/-- A command carried out at once on a blade. A port that is not READY, and a shard without a lease, answer for it. -/
def State.bladeSync (s : State) (b : Nat) (c : BCmd) : BAns × State :=
  match s.blade b with
  | none => (⟨St.bladeUnreachable, 0, []⟩, s)
  | some x =>
    if s.bldSt b ≠ Bst.ready ∨ !x.powered ∨ !x.rdy ∨ x.fatal then (⟨St.bladeUnreachable, 0, []⟩, s)
    else if !s.maySend c then (⟨St.notOwnerLocal, 0, []⟩, s)
    else
      let c := s.stamped c
      let s := s.drainFor b x c
      let (a, x') := ((s.blade b).getD x).run s.wireNow (s.portNo b) (Config.freeByte s.draws) s.medium c
      let s := { s.setBlade b x' with draws := s.draws + 1 }
      let s := s.setCell { s.cell with script := s.cell.script.drop 1 }
      (a, s.epochRefused b c a.status)

/-- A step whose blade commands meet the outcomes of a list, in order. -/
def State.scripted (s : State) (ms : List Medium) (f : State → State) : State :=
  let s := f (s.setCell { s.cell with script := ms })
  s.setCell { s.cell with script := [] }

/-! ## Page commands -/

/-- A read of `len` bytes at `off` of a page's data. -/
def readCmd (die block page off len : Nat) : BCmd :=
  ⟨bcpImg Bop.read 0 0 die 0 0 len (leBytes 2 block ++ leBytes 2 page ++ leBytes 2 off), [], []⟩

/-- A read of the 64-byte header of a page. -/
def headCmd (die block page : Nat) : BCmd :=
  ⟨bcpImg Bop.read 4 0 die 0 0 64 (leBytes 2 block ++ leBytes 2 page), [], []⟩

/-- A program of a page's data under a shard, with its header. -/
def progCmd (shard die block page : Nat) (slc : Bool) (data hdr : List Byte) : BCmd :=
  ⟨bcpImg Bop.program (if slc then 1 else 0) shard die 0 0 data.length (leBytes 2 block ++ leBytes 2 page), data, hdr⟩

/-- An erase under a shard; `release`: the claim goes with it. -/
def eraseCmd (shard die block : Nat) (release : Bool) : BCmd :=
  ⟨bcpImg Bop.erase (if release then 8 else 0) shard die 0 0 0 (leBytes 2 block), [], []⟩

/-- A claim of one block index over a mask of a die group. -/
def claimCmd (shard group mask : Nat) (blocks : List Nat) : BCmd :=
  ⟨bcpImg Bop.claim 0 shard group 0 0 0 (leBytes 2 mask ++ zeros 2 ++ blocks.flatMap (leBytes 2)), [], []⟩

def retireCmd (shard die block : Nat) : BCmd :=
  ⟨bcpImg Bop.retire 0 shard die 0 0 0 (leBytes 2 block), [], []⟩

end Sys2Proof.Machine
end

