-- ==== Sys2Proof/Machine/Gf.lean ====
section
/-! DEFINITION. Level-1 arithmetic of the Carcase: the field and coefficients of R213 and R214, reconstruction (R215),
syndromes (R224, R225) and the cutting list (R211). -/
namespace Sys2Proof.Machine
open Sys2Proof

/-- Product with the generator, modulo 0x11D. -/
def gfDouble (a : Byte) : Byte := if a.msb then (a <<< 1) ^^^ 0x1D#8 else a <<< 1

/-- Product in the field of R213. -/
def gfMul (a b : Byte) : Byte :=
  ((List.range 8).foldl (fun (rp : Byte × Byte) i => (if b.getLsbD i then rp.1 ^^^ rp.2 else rp.1, gfDouble rp.2)) (0, a)).1

/-- `a` to the power `n`. -/
def gfPow (a : Byte) : Nat → Byte
  | 0 => 1
  | n + 1 => gfMul a (gfPow a n)

/-- Inverse of a non-zero element: its power 254. -/
def gfInv (a : Byte) : Byte := gfPow a 254

/-- Coefficient C[i][j] of parity `i` and data column `j` (R214). -/
def gfCoef (i j : Nat) : Byte :=
  let y := BitVec.ofNat 8 (j + 3)
  gfMul y (gfInv (BitVec.ofNat 8 i ^^^ y))

/-- A chunk scaled by a coefficient. -/
def gfScale (c : Byte) (a : List Byte) : List Byte := if c = 1 then a else a.map (gfMul c)

/-- Parity `i` of the data columns. -/
def parityOf (i n : Nat) (data : List (List Byte)) : List Byte :=
  data.zipIdx.foldl (fun acc e => xorBytes acc (gfScale (gfCoef i e.2) e.1)) (zeros n)

/-- The row of the generator matrix [I; C] for column `c` of a stripe with `k` data columns. -/
def genRow (k c : Nat) : List Byte :=
  (List.range k).map fun j => if c < k then (if j = c then 1 else 0) else gfCoef (c - k) j

/-- A row reduced by a pivot row at column `p`. -/
def rowReduce (p : Nat) (pivot : List Byte × List Byte) (row : List Byte × List Byte) : List Byte × List Byte :=
  let f := row.1.getD p 0
  (xorBytes row.1 (pivot.1.map (gfMul f)), xorBytes row.2 (gfScale f pivot.2))

/-- Gauss-Jordan elimination of rows (coefficients, right-hand bytes) from column `p` on: the data columns. -/
def gaussSolve : Nat → Nat → List (List Byte × List Byte) → List (List Byte × List Byte)
  | 0, _, rows => rows
  | n + 1, p, rows =>
    match (rows.drop p).findIdx? (fun r => r.1.getD p 0 != 0) with
    | none => rows
    | some i =>
      let pr := rows.getD (p + i) ([], [])
      let inv := gfInv (pr.1.getD p 0)
      let pivot := (pr.1.map (gfMul inv), gfScale inv pr.2)
      let others := rows.eraseIdx (p + i)
      let reduced := others.map (rowReduce p pivot)
      gaussSolve n (p + 1) (reduced.take p ++ [pivot] ++ reduced.drop p)

/-- The data columns from the first `k` available columns, given as (column, bytes) in column order (R215). -/
def solveData (k : Nat) (avail : List (Nat × List Byte)) : List (List Byte) :=
  (gaussSolve k 0 ((avail.take k).map fun e => (genRow k e.1, e.2))).map (·.2)

/-- Column `c` of a stripe from its data columns. -/
def columnOf (k n : Nat) (data : List (List Byte)) (c : Nat) : List Byte :=
  if c < k then data.getD c [] else parityOf (c - k) n data

/-- Syndrome `i` of a stripe given by column (R224). -/
def syndrome (k n : Nat) (cols : List (List Byte)) (i : Nat) : List Byte :=
  xorBytes (cols.getD (k + i) []) (parityOf i n (cols.take k))

/-- What the syndromes of a stripe say (R225, R234). -/
inductive Finding
  | consistent
  | parity (i : Nat)
  | data (j : Nat)
  | unlocated
deriving DecidableEq, Repr

/-- The finding of R225 for syndromes of P = `syn.length` parities. -/
def findingOf (k : Nat) (syn : List (List Byte)) : Finding :=
  let bad := fun (b : List Byte) => b.any (· != 0)
  let wrong := (List.range syn.length).filter fun i => bad (syn.getD i [])
  match wrong with
  | [] => .consistent
  | [i] => .parity i
  | _ =>
    let s0 := syn.getD 0 []
    match (List.range k).find? fun j => (List.range syn.length).all fun i => syn.getD i [] == gfScale (gfCoef i j) s0 with
    | some j => if bad s0 then .data j else .unlocated
    | none => .unlocated

/-! ## The cutting list (R211) -/

/-- mix of R211. -/
def mix (x : BitVec 64) : BitVec 64 :=
  let x := x ^^^ (x >>> 33)
  let x := x * 0xFF51AFD7ED558CCD#64
  let x := x ^^^ (x >>> 33)
  let x := x * 0xC4CEB9FE1A85EC53#64
  x ^^^ (x >>> 33)

/-- Two places of a list exchanged. -/
def swapAt (l : List Nat) (i j : Nat) : List Nat := (l.set i (l.getD j 0)).set j (l.getD i 0)

/-- The shuffle of a round, from place `i` down to 1. -/
def shuffle : Nat → BitVec 64 → List Nat → List Nat
  | 0, _, p => p
  | i + 1, x, p =>
    let x := mix x
    shuffle i x (swapAt p (i + 1) (x.toNat % (i + 2)))

/-- Blades of a mask, ascending. -/
def bladesOf (mask : Nat) : List Nat := (List.range 16).filter mask.testBit

/-- The generated line of stripe `s` of frame `f`, before the remap table. -/
def cuttingLine (seed gen members w f s : Nat) : List Nat :=
  let g := f * 32 + s
  let m := bladesOf members
  let n := m.length
  if n = 0 then []
  else
    let k := g / n
    let t := g % n
    let x := mix (BitVec.ofNat 64 seed ^^^ (BitVec.ofNat 64 gen <<< 56) ^^^ BitVec.ofNat 64 k)
    let p := shuffle (n - 1) x m
    (List.range w).map fun c => p.getD ((t * w + c) % n) 0

end Sys2Proof.Machine
end

