-- ==== Sys2Proof/Machine/CarcCore.lean ====
section
/-! DEFINITION. The Carcase's tables and states: generations, the cutting list with its remap table, blade states, rebuild
queues (R205 to R212, R217, R227, R228, R231). -/
namespace Sys2Proof.Machine
open Sys2Proof

def State.setCarc (s : State) (c : Carc) : State := { s with carc := c }

/-- CARC_BLADE_b.STATE values (R217). -/
def Cbs.none_ : Nat := 0
def Cbs.online : Nat := 1
def Cbs.absent : Nat := 2
def Cbs.failed : Nat := 3
def Cbs.exhausted : Nat := 4
def Cbs.retired : Nat := 5

def State.carcSt (s : State) (b : Nat) : Nat := s.rd (CARC_BLADE.STATE b)

/-- Whether a lane is in service: without one no stripe is written, reconstructed or patched (R235). -/
def State.carcLane (s : State) : Bool := !(s.lanesUp carcEngine).isEmpty

/-! ## Generations (R209, R210) -/

def State.genAddr (s : State) (pool gen : Nat) : Nat := s.rd CARC_GEN_BASE.BASE * 4096 + (pool * 256 + gen) * 16
def State.genEntry (s : State) (pool gen : Nat) : List Byte := s.tableRead .carc (s.genAddr pool gen) 16
def genMembers (e : List Byte) : Nat := fieldAt e 0 2
def genW (e : List Byte) : Nat := fieldAt e 2 1
def genP (e : List Byte) : Nat := fieldAt e 3 1
def genK (e : List Byte) : Nat := genW e - genP e
def genValid (e : List Byte) : Bool := (fieldAt e 4 1).testBit 0

/-- The bytes of a VALID entry. -/
def genBytes (members w p : Nat) : List Byte := leBytes 2 members ++ leBytes 1 w ++ leBytes 1 p ++ leBytes 1 1 ++ zeros 11

/-- Blades a generation names that were NONE become ONLINE when it becomes current (R217). -/
def State.genOnline (s : State) (members : Nat) : State :=
  (bladesOf members).foldl (fun s b => if s.carcSt b = Cbs.none_ then s.wr (CARC_BLADE.STATE b) Cbs.online else s) s

/-- A generation becomes the one of new frames. -/
def State.makeCurrent (s : State) (pool gen : Nat) : State :=
  (s.wr (CARC_POOL.CUR_GEN pool) gen).genOnline (genMembers (s.genEntry pool gen))

/-- A new generation of a pool without a lost blade (R210). -/
def State.newGen (s : State) (pool b : Nat) : State :=
  let e := s.genEntry pool (s.rd (CARC_POOL.CUR_GEN pool))
  if !(genMembers e).testBit b then s
  else
    let members := setBitTo (genMembers e) b false
    let p := s.rd (CARC_POOL.P pool)
    let live := ((bladesOf members).filter fun x => s.carcSt x == Cbs.online).length
    if live < p + 4 then s.raise Ev.poolNarrow (some .carc) (some pool) [pool, b]
    else match (List.range 256).find? fun g => !genValid (s.genEntry pool g) with
      | none => s.raise Ev.genExhausted (some .carc) (some pool) [pool, b]
      | some g =>
        let s := s.tableWrite .carc (s.genAddr pool g) (genBytes members (min (s.rd (CARC_POOL.W pool)) (bladesOf members).length) p)
        s.makeCurrent pool g

/-- Whether a VALID generation of any pool names a blade. -/
def State.genNames (s : State) (b : Nat) : Bool :=
  (List.range 16).any fun p => (List.range 256).any fun g =>
    let e := s.genEntry p g
    genValid e && (genMembers e).testBit b

/-! ## The remap table (R212) -/

/-- The buckets probed for a stripe, in order. -/
def State.remapBuckets (s : State) (pool f st : Nat) : List Nat :=
  let size := 2 ^ s.rd CARC_REMAP_CFG.LOG2_BUCKETS
  let h := (mix (BitVec.ofNat 64 (pool * 2 ^ 40 ||| f * 32 ||| st))).toNat % size
  (List.range 8).map fun i => (h + i) % size

/-- Addresses of the slots probed. -/
def State.remapSlots (s : State) (pool f st : Nat) : List Nat :=
  (s.remapBuckets pool f st).flatMap fun b => (List.range 4).map fun i => s.rd CARC_REMAP_CFG.BASE * 4096 + b * 64 + i * 16

def State.remapEntry (s : State) (a : Nat) : List Byte := s.tableRead .carc a 16
def remapValid (e : List Byte) : Bool := (fieldAt e 4 1).testBit 7

/-- Whether an entry is that of a stripe. -/
def remapIs (e : List Byte) (pool f st : Nat) : Bool :=
  remapValid e && fieldAt e 0 4 % 2 ^ 29 == f && fieldAt e 4 1 % 32 == st && fieldAt e 5 1 / 16 == pool

/-- The bytes of an entry. -/
def remapBytes (pool f st col blade : Nat) (lost : Bool) : List Byte :=
  leBytes 4 f ++ leBytes 1 (st + 128) ++ leBytes 1 (col + pool * 16) ++ leBytes 1 blade ++ leBytes 1 (if lost then 1 else 0) ++ zeros 8

/-- The remap entry of a column: its blade and whether the chunk is LOST. -/
def State.remapFind (s : State) (pool f st col : Nat) : Option (Nat × Bool) :=
  ((s.remapSlots pool f st).map s.remapEntry).findSome? fun e =>
    if remapIs e pool f st && fieldAt e 5 1 % 16 == col then some (fieldAt e 6 1 % 16, (fieldAt e 7 1).testBit 0) else none

/-- An entry written: over the column's own, or in the first free slot; none where all 32 slots are full. -/
def State.remapPut (s : State) (pool f st col blade : Nat) (lost : Bool) : Option State :=
  let slots := s.remapSlots pool f st
  let mine := slots.find? fun a =>
    let e := s.remapEntry a
    remapIs e pool f st && fieldAt e 5 1 % 16 == col
  let slot := match mine with
    | some a => some a
    | none => slots.find? fun a => !remapValid (s.remapEntry a)
  slot.map fun a => s.tableWrite .carc a (remapBytes pool f st col blade lost)

/-- A remap entry written: the status, REMAP_FULL where no slot is free (R212). -/
def State.remapWrite (s : State) (pool f st col blade : Nat) (lost : Bool) : Nat × State :=
  match s.remapPut pool f st col blade lost with
  | some s => (St.success, s)
  | none => (St.remapFull, s)

/-- Whether a remap entry of a column finds a slot. -/
def State.remapRoom (s : State) (pool f st col : Nat) : Bool := (s.remapWrite pool f st col 0 false).1 == St.success

/-- The entries of a frame removed. -/
def State.remapDrop (s : State) (pool f : Nat) : State :=
  (List.range 32).foldl (fun s st => (s.remapSlots pool f st).foldl (fun s a =>
    if remapIs (s.remapEntry a) pool f st then s.tableWrite .carc a (zeros 16) else s) s) s

/-! ## Cutting lines (R211) -/

/-- The blades of a stripe's columns, remap entries applied. -/
def State.line (s : State) (pool gen f st : Nat) : List Nat :=
  let e := s.genEntry pool gen
  (cuttingLine (s.rd (CARC_POOL.SEED pool)) gen (genMembers e) (genW e) f st).zipIdx.map fun x =>
    match s.remapFind pool f st x.2 with
    | some (b, _) => b
    | none => x.1

/-- Columns of a stripe marked LOST. -/
def State.lostCols (s : State) (pool gen f st : Nat) : List Nat :=
  (List.range (genW (s.genEntry pool gen))).filter fun c => match s.remapFind pool f st c with
    | some (_, lost) => lost
    | none => false

/-- Whether chunks on a blade can be read: its link is READY and the Carcase does not hold it for lost. -/
def State.readable (s : State) (b : Nat) : Bool :=
  s.bldSt b == Bst.ready && (s.carcSt b == Cbs.online || s.carcSt b == Cbs.exhausted)

/-- Columns of a stripe of a wheel that are missing (R230): LOST, never written, or on a blade that cannot be read. -/
def State.missingCols (s : State) (w : Wheel) (st : Nat) : List Nat :=
  let ln := s.line w.pool w.gen w.frame st
  let lost := s.lostCols w.pool w.gen w.frame st
  (List.range ln.length).filter fun c =>
    lost.contains c || (Tab.get? w.locs (st * 16 + c)).isNone || !s.readable (ln.getD c 0)

/-! ## Intent counts (R218, R219) -/

/-- Region of a frame. -/
def regionOf (frame : Nat) : Nat := frame / 8

/-- Key of an open-intent count. -/
def openKey (sh pool region : Nat) : Nat := (sh * 16 + pool) * 2 ^ 29 + region

/-- INTENTS_OPEN kept. -/
def State.countIntents (s : State) : State := s.wr CARC_STATUS.INTENTS_OPEN s.carc.opens.length

/-- An intent given back; a bit that may be cleared is flushed after FLUSH. False where none was open. -/
def State.giveBack (s : State) (sh pool frame : Nat) : Bool × State :=
  let key := openKey sh pool (regionOf frame)
  match Tab.get? s.carc.opens key with
  | none => (false, s)
  | some n =>
    let s := (s.setCarc { s.carc with
      opens := if n ≤ 1 then Tab.del s.carc.opens key else Tab.set s.carc.opens key (n - 1)
      flushAt := some (s.carc.flushAt.getD (s.inMgmt (s.rd CARC_INTENT_CFG.FLUSH))) }).countIntents
    (true, s)

/-! ## Rebuild queues (R217, R228) -/

/-- The stripes of this head that name a blade with a chunk to restore: (shard, wheel, stripe, column). -/
def State.rebuildWork (s : State) (b : Nat) : List (Nat × Nat × Nat × Nat) :=
  (s.cell.shards.filter fun x => s.cellSt x.1 == Cst.ready).flatMap fun x => (x.2.wheels.filter (·.2.sealed)).flatMap fun w =>
    (List.range 32).flatMap fun st =>
      let ln := s.line w.2.pool w.2.gen w.2.frame st
      let lost := s.lostCols w.2.pool w.2.gen w.2.frame st
      ((List.range ln.length).filter fun c => ln.getD c 0 == b && !lost.contains c).map fun c => (x.1, w.1, st, c)

/-- Whether a stripe has as many missing chunks as its P. -/
def State.critical (s : State) (x : Nat × Nat × Nat × Nat) : Bool :=
  match s.wheel x.1 x.2.1 with
  | some w => (s.missingCols w x.2.2.1).length == genP (s.genEntry w.pool w.gen)
  | none => false

/-- REMAINING and CRITICAL of a blade kept; a first critical stripe of its failure is recorded. -/
def State.countRebuild (s : State) (b : Nat) : State :=
  let work := s.rebuildWork b
  let crit := (work.filter s.critical).length
  let s := (s.wr (CARC_BLADE.REMAINING b) (min work.length (2 ^ 32 - 1))).wr (CARC_BLADE.CRITICAL b) (min crit (2 ^ 24 - 1))
  if 0 < crit ∧ !s.carc.critSeen.contains b then
    (s.setCarc { s.carc with critSeen := b :: s.carc.critSeen }).raise Ev.critical (some .carc) (some b) [b]
  else s

/-- A queued rebuild or evacuation starts. -/
def State.startRebuild (s : State) (b : Nat) : State :=
  let s := s.setCarc { s.carc with queued := s.carc.queued.filter (· != b), running := s.carc.running ++ [b], written := [] }
  (s.raise Ev.rebuildStart (some .carc) (some b) [b]).countRebuild b

/-- A rebuild or evacuation queued; it starts at once while REBUILD_EN is 1. -/
def State.queueRebuild (s : State) (b : Nat) : State :=
  if s.carc.running.contains b then s.countRebuild b
  else
    let s := s.setCarc { s.carc with queued := s.carc.queued.filter (· != b) ++ [b] }
    if s.on CARC_CTL.REBUILD_EN then s.startRebuild b else s

/-- A blade enters FAILED or EXHAUSTED: a new generation without it, and its chunks queued. -/
def State.bladeLost (s : State) (b st : Nat) : State :=
  let s := s.wr (CARC_BLADE.STATE b) st
  let s := s.setCarc { s.carc with grace := Tab.del s.carc.grace b, critSeen := s.carc.critSeen.filter (· != b) }
  let s := (List.range 16).foldl (fun s p => if s.on (CARC_POOL.VALID p) then s.newGen p b else s) s
  s.queueRebuild b

/-- Blade Ports report a blade unreachable (R217). -/
def State.carcUnreachable (s : State) (b : Nat) : State :=
  if s.carcSt b = Cbs.online then
    (s.wr (CARC_BLADE.STATE b) Cbs.absent).setCarc { s.carc with grace := Tab.set s.carc.grace b (s.inMgmt (s.rd CARC_REBUILD_CFG.GRACE)) }
  else if s.carcSt b = Cbs.exhausted then s.wr (CARC_BLADE.STATE b) Cbs.failed
  else s

/-- A blade is reachable again: ABSENT becomes ONLINE; its dirty regions are resynchronised by RESYNC_REGION. -/
def State.carcReachable (s : State) (b : Nat) : State :=
  if s.carcSt b = Cbs.absent then
    (s.wr (CARC_BLADE.STATE b) Cbs.online).setCarc { s.carc with grace := Tab.del s.carc.grace b }
  else s

/-- A blade reports itself failed. -/
def State.carcFailed (s : State) (b : Nat) : State :=
  if s.carcSt b = Cbs.online ∨ s.carcSt b = Cbs.absent then s.bladeLost b Cbs.failed else s

/-- The Cellar reports a blade EXHAUSTED. -/
def State.carcExhausted (s : State) (b : Nat) : State :=
  if s.carcSt b = Cbs.online then s.bladeLost b Cbs.exhausted else s

/-- The rebuilds a loaded shard's stripes still need go on (R228, R273). -/
def State.resumeRebuilds (s : State) : State :=
  (List.range 16).foldl (fun s b =>
    if (s.carcSt b = Cbs.failed ∨ s.carcSt b = Cbs.exhausted ∨ s.carcSt b = Cbs.retired) ∧ !(s.rebuildWork b).isEmpty then s.queueRebuild b
    else s) s

/-- A blade all of whose chunks are restored or LOST is RETIRED, and NONE once no VALID generation names it. -/
def State.retireDone (s : State) (b : Nat) : State :=
  if (s.carcSt b = Cbs.failed ∨ s.carcSt b = Cbs.exhausted ∨ s.carcSt b = Cbs.retired) ∧ s.carc.running.contains b ∧ (s.rebuildWork b).isEmpty then
    let s := s.wr (CARC_BLADE.STATE b) (if s.genNames b then Cbs.retired else Cbs.none_)
    let s := s.setCarc { s.carc with running := s.carc.running.filter (· != b) }
    ((s.wr (CARC_BLADE.PAUSED b) 0).raise Ev.rebuildDone (some .carc) (some b) [b]).countRebuild b
  else s

end Sys2Proof.Machine
end

