-- ==== Sys2Proof/Machine/Churn.lean ====
section
/-! DEFINITION. The Churn: dictionaries, ring descriptors, lane faults (R158 to R172). -/
namespace Sys2Proof.Machine
open Sys2Proof

/-! ## Dictionaries (R162) -/

def State.setChurn (s : State) (c : Churn) : State := { s with churn := c }

/-- The loaded dictionaries. -/
def State.dicts (s : State) (id : Nat) : Option ChurnDict := Tab.get? s.churn.dicts id

/-- Where the parsed form of a dictionary stands in DRAM. -/
def State.dictAddr (s : State) (id : Nat) : Nat := s.rd CHURN_DICT_BASE.BASE * 4096 + (id - 1) * 81920

/-- Whether a fetch of a parsed form succeeds: no DRAM error, and the bytes that were written, which is what its CRC32C checks
(R162; log entry 133). -/
def State.dictGood (s : State) (id : Nat) (d : ChurnDict) : Bool :=
  match s.dmaRead .churn (s.dictAddr id) 81920 with
  | .ok bs => bs == (List.range 81920).map (Config.freeByte d.form)
  | .error _ => false

/-- A dictionary is used: it is fetched where it is not on chip, and becomes the most recently used of 32. None where the
fetch fails. -/
def State.useDict (s : State) (id : Nat) : Option State :=
  match s.dicts id with
  | none => some s
  | some d =>
    let hit := s.churn.onChip.contains id
    let s1 := if hit then s else s.wr CHURN_DICT_MISSES.VALUE (s.rd CHURN_DICT_MISSES.VALUE + 1)
    if !hit && !s.dictGood id d then none
    else
      let on := (id :: s.churn.onChip.filter (· != id)).take 32
      some ((s1.setChurn { s1.churn with onChip := on }).wr CHURN_STATUS.DICT_RESIDENT on.length)

/-- Dictionaries used in turn; none where a fetch fails. -/
def State.useDicts (s : State) (ids : List Nat) : Option State := ids.foldl (fun s id => s.bind (·.useDict id)) (some s)

/-- The loaded dictionaries that a DECOMPRESS of block `blk` (15: all) of a curd reads and may use. -/
def curdDicts (dicts : Nat → Option ChurnDict) (bs : List Byte) (blk : Nat) : List Nat :=
  match curdParse bs with
  | .error _ => []
  | .ok c =>
    let want := if c.kind = Ck.packed then [0] else if blk = 15 then List.range c.count else [blk]
    (want.filter fun i => !(c.raws.getD i false)).filterMap fun i =>
      let id := frameDict (slice bs (c.start i) (c.lens.getD i 0))
      (dicts id).bind fun d => if dictFits c.owner d.domain then some id else none

/-- Whether a dictionary may be used for new compression by an owner: the status of a refusal. -/
def State.dictRefused (s : State) (owner id : Nat) : Option Nat :=
  if id = 0 then none
  else match s.dicts id with
    | none => some St.dictMissing
    | some d => if dictFits owner d.domain then none else some St.dictDomain

/-! ## Descriptors (R168 to R170) -/

/-- A started Churn descriptor goes on once a lane takes it; the two dictionary opcodes need none. -/
def State.churnDesc (s : State) (d : DescRef) (op : Nat) (k : Fetched → State) : Host.Outcome State Fault Refusal :=
  match s.startedAt .churn d op with
  | none => .next s
  | some f => .next (if op == Op.dictLoad || takesLane s.churnTurn (.desc d) then k f else s)

/-- Bytes a lane reads, or the completion with the failure. -/
def State.churnRead (s : State) (d : DescRef) (a n : Nat) (k : List Byte → State) : State :=
  match s.dmaRead .churn a n (some d.ring) with
  | .ok bs => k bs
  | .error e => s.finishDma .churn d e

/-- A descriptor goes on with the dictionaries it uses; a fetch that fails is a head loss, and the descriptor ends UNIT_FAULT
(R162, R376). -/
def State.withDicts (s : State) (d : DescRef) (ids : List Nat) (k : State → State) : State :=
  match s.useDicts ids with
  | some s => k s
  | none => s.headLost.finish .churn d St.unitFault

/-- The dictionaries of the curd that an image of a descriptor names as its source. -/
def State.sourceDicts (s : State) (ring blk : Nat) (img : List Byte) : List Nat :=
  match s.dmaRead .churn (fieldAt img 8 8) (fieldAt img 24 4) (some ring) with
  | .ok bs => curdDicts s.dicts bs blk
  | .error _ => []

/-- The dictionaries a COMPRESS, DECOMPRESS or RECAST uses. -/
def State.descDicts (s : State) (ring : Nat) (f : Fetched) : List Nat :=
  (if f.opcode = Op.compress ∨ f.opcode = Op.recast then [f.at 32 2] else []) ++
    (if f.opcode = Op.decompress then s.sourceDicts ring (f.at 32 1) f.img
     else if f.opcode = Op.recast then f.imgs.flatMap (s.sourceDicts ring 15) else [])

/-- Whether a started descriptor uses a dictionary: a DICT_DROP or DICT_LOAD of its ID waits for it (R172). -/
def State.dictUsed (s : State) (id : Nat) : Bool :=
  (s.startedDescs .churn).any fun x => (s.descDicts x.1.ring x.2).contains id

/-- A curd written as output, or OUTPUT_OVERFLOW where it passes OUT_CAP: then nothing is written. -/
def State.curdOut (s : State) (d : DescRef) (f : Fetched) (cap : Nat) (curd : List Byte) : State :=
  if cap < curd.length then s.finish .churn d St.outputOverflow
  else if !vatSpan f.dst curd.length then s.finish .churn d St.addrInvalid
  else match s.dmaWrite .churn f.dst curd (some d.ring) with
    | .error e => s.finishDma .churn d e
    | .ok s =>
      let c := curdOf curd
      s.finish .churn d St.success (c.count - 1 + c.kind * 8) curd.length

/-- Blocks of 4,096 bytes. -/
def blocks4k (bs : List Byte) : List (List Byte) := (List.range (bs.length / 4096)).map fun i => slice bs (4096 * i) 4096

/-- COMPRESS. -/
def execCompress (d : DescRef) (s : State) : Host.Outcome State Fault Refusal :=
  s.churnDesc d Op.compress fun f =>
    let owner := f.at 36 4
    let dict := f.at 32 2
    if f.len % 4096 ≠ 0 ∨ f.len < 4096 ∨ 32768 < f.len then s.finish .churn d St.churnBlockRange
    else if !vatSpan f.src f.len || !inVat f.dst then s.finish .churn d St.addrInvalid
    else if !ownerOk owner then s.finish .churn d St.curdFormat
    else match s.dictRefused owner dict with
      | some e => s.finish .churn d e
      | none => s.churnRead d f.src f.len fun bs =>
        s.withDicts d [dict] fun s => s.curdOut d f (f.at 28 4) (curdCompress s.dicts owner (f.at 34 1) dict (blocks4k bs))

/-- Whether a status of R166 shows corrupt stored data (R167). -/
def curdBad (st : Nat) : Bool := st == St.curdCrc || st == St.zstdCorrupt || st == St.curdFormat

/-- The step of R166 that fails with a status of R167. -/
def curdStep (st : Nat) : Nat := if st = St.curdFormat then 2 else if st = St.zstdCorrupt then 5 else 6

/-- A curd that fails its checks is recorded, with the failing step (R167, R175). -/
def State.curdEvent (s : State) (src st : Nat) : State :=
  if curdBad st then s.raise Ev.curdCrc (some .churn) none [src, curdStep st] else s

/-- DECOMPRESS: the checks of R166, then the output, the comparison or nothing. -/
def execDecompress (d : DescRef) (s : State) : Host.Outcome State Fault Refusal :=
  s.churnDesc d Op.decompress fun f =>
    let blk := f.at 32 1
    let kind := f.at 33 1
    let checkOnly := (f.at 34 1).testBit 0
    let compare := (f.at 34 1).testBit 1
    if !inVat f.src || (!checkOnly && !inVat f.dst) then s.finish .churn d St.addrInvalid
    else if f.len < 96 then s.finish .churn d St.lengthMismatch
    else if !vatSpan f.src f.len then s.finish .churn d St.addrInvalid
    else if compare && blk == 15 then s.finish .churn d St.churnBlockRange
    else s.churnRead d f.src f.len fun bs => s.withDicts d (curdDicts s.dicts bs blk) fun s =>
      match curdRead s.dicts bs blk with
      | .error e => (s.curdEvent f.src e).finish .churn d e
      | .ok blocks =>
        let guard := (slice f.img 40 16).take (guardLen kind)
        if blocks.length = 1 ∧ guardLen kind ≠ 0 ∧ (guardBytes kind (blocks.headD [])).take (guardLen kind) ≠ guard then
          s.finish .churn d St.piGuard
        else if compare then s.churnRead d f.dst 4096 fun other =>
          s.finish .churn d St.success 0 (if other = blocks.headD [] then 1 else 0)
        else if checkOnly then s.finish .churn d St.success
        else
          let out := blocks.flatten
          if f.at 28 4 < out.length then s.finish .churn d St.outputOverflow
          else if !vatSpan f.dst out.length then s.finish .churn d St.addrInvalid
          else match s.dmaWrite .churn f.dst out (some d.ring) with
            | .error e => s.finishDma .churn d e
            | .ok s => s.finish .churn d St.success out.length

/-- One source of a RECAST: the blocks its mask selects, and its owner. -/
def State.recastSource (s : State) (ring : Nat) (img : List Byte) : Except (Sum Nat DmaErr) (Nat × List (List Byte)) :=
  let src := fieldAt img 8 8
  let len := fieldAt img 24 4
  let mask := fieldAt img 35 1
  if len < 96 then .error (.inl St.lengthMismatch)
  else if !vatSpan src len then .error (.inl St.addrInvalid)
  else match s.dmaRead .churn src len (some ring) with
    | .error e => .error (.inr e)
    | .ok bs =>
      match curdRead s.dicts bs 15 with
      | .error e => .error (.inl e)
      | .ok blocks =>
        if 2 ^ blocks.length ≤ mask then .error (.inl St.churnBlockRange)
        else .ok ((curdOf bs).owner, ((List.range 8).filter mask.testBit).map fun i => blocks.getD i [])

/-- The sources of a RECAST in chain order: their blocks, or the position and status of the first that fails. -/
def State.recastAll (s : State) (ring i : Nat) (owner : Option Nat) :
    List (List Byte) → Except (Nat × Sum Nat DmaErr) (Nat × List (List Byte))
  | [] => .ok (owner.getD 0, [])
  | img :: rest =>
    match s.recastSource ring img with
    | .error e => .error (i, e)
    | .ok (o, bl) =>
      if owner.isSome ∧ owner ≠ some o then .error (i, .inl St.curdFormat)
      else match s.recastAll ring (i + 1) (some o) rest with
        | .error e => .error e
        | .ok (o', more) => .ok (o', bl ++ more)

/-- EV_CURD_CRC for a source of a RECAST that fails a check of R166; a source of another owner fails none (R167, R168). -/
def State.sourceEvent (s : State) (ring e : Nat) (img : List Byte) : State :=
  match s.recastSource ring img with
  | .error _ => s.curdEvent (fieldAt img 8 8) e
  | .ok _ => s

/-- RECAST: blocks of up to 8 curds compressed into one new curd. -/
def execRecast (d : DescRef) (s : State) : Host.Outcome State Fault Refusal :=
  s.churnDesc d Op.recast fun f =>
    let dict := f.at 32 2
    let n := (f.imgs.map fun i => popCount (fieldAt i 35 1) 8).sum
    if n = 0 ∨ 8 < n then s.finish .churn d St.churnBlockRange
    else if !inVat f.dst then s.finish .churn d St.addrInvalid
    else s.withDicts d (f.imgs.flatMap (s.sourceDicts d.ring 15)) fun s => match s.recastAll d.ring 0 none f.imgs with
      | .error (i, .inr e) => (s.dmaFailed .churn e).finish .churn d e.status (i + e.status % 65536 * 16)
      | .error (i, .inl e) => (s.sourceEvent d.ring e (f.imgs.getD i [])).finish .churn d e (i + e % 65536 * 16)
      | .ok (owner, blocks) =>
        match s.dictRefused owner dict with
        | some e => s.finish .churn d e
        | none => s.withDicts d [dict] fun s => s.curdOut d f (f.at 28 4) (curdCompress s.dicts owner (f.at 34 1) dict blocks)

/-- DICT_LOAD: parsed once and bound to an ID and a domain; the encrypted parsed form, whose bytes are open, goes to its
place in the DRAM area. A started descriptor that uses the ID finishes with the old one first (R172). -/
def execDictLoad (d : DescRef) (s : State) : Host.Outcome State Fault Refusal :=
  s.churnDesc d Op.dictLoad fun f =>
    let id := f.at 32 2
    let dom := f.at 34 2
    if f.len = 0 ∨ 65536 < f.len then s.finish .churn d St.lengthMismatch
    else if id = 0 ∨ 8191 < id ∨ 4095 < dom then s.finish .churn d St.dictInvalid
    else if s.dictUsed id then s
    else s.churnRead d f.src f.len fun bs =>
      match dictParse bs with
      | .error _ => s.finish .churn d St.dictInvalid
      | .ok _ =>
        let area := s.freeBytes 81920
        s.draw.tableThen .churn d (s.dictAddr id) area fun t =>
          let on := t.churn.onChip.filter (· != id)
          let x : ChurnDict := { domain := dom, bytes := bs, form := s.draws }
          let t := t.setChurn { t.churn with dicts := Tab.set t.churn.dicts id x, onChip := on }
          (t.wr CHURN_STATUS.DICT_RESIDENT on.length).finish .churn d St.success

/-- DICT_DROP, after the started descriptors that use the dictionary (R172). -/
def execDictDrop (d : DescRef) (s : State) : Host.Outcome State Fault Refusal :=
  match s.startedAt .churn d Op.dictDrop with
  | none => .next s
  | some f =>
    let id := f.at 32 2
    if (s.dicts id).isNone then .next (s.finish .churn d St.dictMissing)
    else if s.dictUsed id then .next s
    else
      let on := s.churn.onChip.filter (· != id)
      let s := s.setChurn { s.churn with dicts := Tab.del s.churn.dicts id, onChip := on }
      .next ((s.wr CHURN_STATUS.DICT_RESIDENT on.length).finish .churn d St.success)

/-! ## Lane faults (R171) -/

/-- A Churn lane out of service. -/
def State.churnLaneFault (s : State) (lane : Nat) : State :=
  (s.wrBit CHURN_STATUS.LANE_FAULT lane true).raise Ev.laneFault (some .churn) (some lane) [lane]

/-- CHURN_LANE_FAULT: the descriptor in the lane fails with UNIT_FAULT; inline work is reissued on another lane. -/
def execChurnLaneFault (lane : Fin 16) (job : LaneJob) (s : State) : Host.Outcome State Fault Refusal :=
  let s := s.churnLaneFault lane
  match job with
  | .desc d =>
    (match s.fetchedAt .churn d with
      | some f => .next (if f.phase = .fetched then s else s.finish .churn d St.unitFault)
      | none => .next s)
  | _ => .next s

end Sys2Proof.Machine
end

