-- ==== Sys2Proof/Machine/Bands.lean ====
section
/-! DEFINITION. Bands and pages of a blade: geometry, page headers, claims and the wear rule, programs, summaries, reads
with level-0 repair, erases, block retirement (R203, R204, R239 to R247, R262, R263, R268, R270 to R272). -/
namespace Sys2Proof.Machine
open Sys2Proof

/-! ## Geometry (R240, R241, R243) -/

/-- Die group and block index of a band; bands outside the spare blocks are the lower indices (log entry 28). -/
def bandGroup (n : Nat) : Nat := n / 65536
def bandIdx (n : Nat) : Nat := n % 65536

/-- Block indices of a blade that bands use. -/
def Blade.bandBlocks (x : Blade) : Nat := x.id.blocks - x.id.spare

/-- The blade behind a port, or an empty one. -/
def State.bladeOr (s : State) (b : Nat) : Blade := (s.blade b).getD { id := ⟨0, 0, 0, 0, 0, 0, [], [], []⟩ }

def State.band (s : State) (b n : Nat) : Option Band := Tab.get? (s.cblade b).bands n
def State.setBand (s : State) (b n : Nat) (y : Band) : State :=
  s.setCblade b { s.cblade b with bands := Tab.set (s.cblade b).bands n y }
def State.dropBand (s : State) (b n : Nat) : State :=
  s.setCblade b { s.cblade b with bands := Tab.del (s.cblade b).bands n }

/-- Whether bands of a kind are written in SLC mode. -/
def BandKind.slc : BandKind → Bool
  | .main => false
  | _ => true

/-- S: die stripes of a band of a kind on a blade. -/
def State.stripes (s : State) (b : Nat) (k : BandKind) : Nat := (s.bladeOr b).pages k.slc

/-- Data pages a content unit takes. -/
def BandKind.unit : BandKind → Nat
  | .main => 4
  | _ => 1

/-- Content units a band holds. -/
def State.bandPlaces (s : State) (b : Nat) (k : BandKind) : Nat := (s.stripes b k - 1) * 15 / k.unit

/-- Die, block and page of a data page of a band. -/
def Band.place (y : Band) (n dpage : Nat) : Nat × Nat × Nat :=
  let q := dpage / 15
  let r := dpage % 15
  let k := if r < q % 16 then r else r + 1
  (16 * bandGroup n + k, Tab.getD y.subst k (bandIdx n), q)

/-- Die, block and page of the parity page of a die stripe. -/
def Band.parityPlace (y : Band) (n q : Nat) : Nat × Nat × Nat :=
  (16 * bandGroup n + q % 16, Tab.getD y.subst (q % 16) (bandIdx n), q)

/-! ## Page headers and the summary (R245, R247) -/

/-- KIND of a band in its summary, in the order of R241. -/
def BandKind.code : BandKind → Nat
  | .main => 1
  | .journal => 2
  | .meta_ => 3
  | .anchor => 4

/-- KIND values of a page header. -/
def Pk.chunk : Nat := 1
def Pk.journal : Nat := 2
def Pk.meta_ : Nat := 3
def Pk.summary : Nat := 4
def Pk.anchor : Nat := 5
def Pk.intent : Nat := 6

/-- What a page is, beside its place: the header fields of R245. -/
structure PageHead where
  kind : Nat
  obj : Nat
  used : Nat
  wseq : Nat
  pool : Nat := 0
  jour : Bool := false
  part_ : Nat := 0
deriving DecidableEq, Repr

/-- The data of a page, padded to 16,384 bytes. -/
def fullPage (data : List Byte) : List Byte := data ++ zeros (16384 - data.length)

/-- The 64 header bytes of a page. -/
def PageHead.bytes (h : PageHead) (shard epoch band dpage : Nat) (data : List Byte) : List Byte :=
  let head := leBytes 2 0xCE1A ++ leBytes 1 1 ++ leBytes 1 h.kind ++ leBytes 1 shard ++
    leBytes 1 (h.pool + if h.jour then 16 else 0) ++ leBytes 1 h.part_ ++ zeros 1 ++ leBytes 8 epoch ++ leBytes 8 h.wseq ++
    leBytes 4 band ++ leBytes 2 dpage ++ zeros 2 ++ leBytes 8 h.obj ++ leBytes 4 h.used ++ leBytes 4 (crc32c (fullPage data)) ++
    zeros 12
  head ++ leBytes 4 (crc32c head)

/-- OBJECT of a chunk. -/
def chunkObj (frame stripe col : Nat) : Nat := frame + stripe * 2 ^ 29 + col * 2 ^ 34

/-- The summary of a band (R247): its header and one entry for each content unit. -/
def State.summaryBytes (s : State) (b n : Nat) (y : Band) : List Byte :=
  let cnt := s.bandPlaces b y.kind
  let entries := (List.range cnt).flatMap fun c =>
    match y.units.find? fun u => u.dpage == c * y.kind.unit with
    | some u => leBytes 8 u.obj ++ leBytes 8 u.wseq
    | none => zeros 16
  let ws := y.units.map (·.wseq)
  let head := leBytes 2 0xCE5B ++ leBytes 1 1 ++ leBytes 1 y.kind.code ++ leBytes 1 y.shard ++ leBytes 1 y.pool ++
    leBytes 2 cnt ++ leBytes 8 (s.rd (LEASE_EPOCH.EPOCH y.shard)) ++ leBytes 8 (ws.foldl min (ws.headD 0)) ++
    leBytes 8 (ws.foldl max 0) ++ leBytes 4 n ++ leBytes 4 y.ec ++ leBytes 2 ((y.subst.map fun e => 2 ^ e.1).sum) ++ zeros 18
  head ++ leBytes 4 (crc32c (head ++ entries)) ++ entries

/-! ## Counts (R271, R278) -/

/-- FREE bands of a blade: those not listed; a blade that is not ATTACHED has none. -/
def State.freeBands (s : State) (b : Nat) : Nat :=
  if s.rd (CELL_BLADE.STATE b) = 0 then 0
  else
    let x := s.bladeOr b
    x.id.dies / 16 * x.bandBlocks - 4 - ((s.cblade b).bands.filter (·.2.kind != .anchor)).length

/-- Spare blocks left on a die. -/
def State.sparesLeft (s : State) (b die : Nat) : Nat := (s.bladeOr b).id.spare - Tab.getD (s.cblade b).spares die 0

/-- Fewest spare blocks left on any die, with that die. -/
def State.spareMin (s : State) (b : Nat) : Nat × Nat :=
  (s.cblade b).spares.foldl (fun m e => if s.sparesLeft b e.1 < m.1 then (s.sparesLeft b e.1, e.1) else m)
    ((s.bladeOr b).id.spare, 0)

/-- The fields of CELL_BLADE_b kept. -/
def State.countBlade (s : State) (b : Nat) : State :=
  ((s.wr (CELL_BLADE.FREE_BANDS b) (s.freeBands b)).wr (CELL_BLADE.SPARE_MIN b) (min 4095 (s.spareMin b).1)).wr
    (CELL_BLADE.RETIRED b) (s.cblade b).retired

/-- Chunk places of a blade that are FREE: those of FREE bands and the unwritten ones of OPEN MAIN bands. -/
def State.freePlaces (s : State) (b : Nat) : Nat :=
  let per := s.bandPlaces b .main
  s.freeBands b * per + (((s.cblade b).bands.filter fun e => e.2.kind == .main && e.2.st == .open_).map fun e =>
    per - e.2.next / 4).sum

/-- Every chunk place of a blade. -/
def State.allPlaces (s : State) (b : Nat) : Nat :=
  let x := s.bladeOr b
  if s.rd (CELL_BLADE.STATE b) = 0 then 0 else (x.id.dies / 16 * x.bandBlocks - 4) * s.bandPlaces b .main

/-- The counts and the write-reserve flag of a pool kept; a change of the flag is recorded (R117, R271). -/
def State.countPool (s : State) (p : Nat) : State :=
  let ms := bladesOf (s.rd (CARC_POOL.MEMBERS p))
  let free := (ms.map s.freePlaces).sum
  let cap := (ms.map s.allPlaces).sum
  let low := (s.rd (CELL_POOL_RES.WR_RES p) + s.rd (CELL_POOL_RES.GC_RES p)) * cap / 1000
  let was := s.on (CELL_POOL_STATUS.FULL p)
  let full := if free < low then true else if low + s.rd (CELL_POOL_RES.WR_RES p) * cap / 4000 ≤ free then false else was
  let s := (s.wr (CELL_POOL_STATUS.FREE p) free).wr (CELL_POOL_STATUS.FULL p) (if full then 1 else 0)
  if full = was then s else s.raise Ev.poolFull (some .par) none [p, if full then 1 else 0]

/-- The pool a blade belongs to. -/
def State.bladePool (s : State) (b : Nat) : Option Nat :=
  (List.range 16).find? fun p => s.on (CARC_POOL.VALID p) && (s.rd (CARC_POOL.MEMBERS p)).testBit b

/-- Counts of a blade and its pool kept. -/
def State.countBands (s : State) (b : Nat) : State :=
  let s := s.countBlade b
  match s.bladePool b with
  | some p => s.countPool p
  | none => s

/-! ## The health ring (R276, R279) -/

/-- A 128-byte entry written to the health ring, or dropped where the ring is full. -/
def State.healthEntry (s : State) (body : List Byte) : State :=
  let size := 2 ^ s.rd CELL_HEALTH_RING.LOG2_ENTRIES
  let p := s.rd CELL_HEALTH_IDX.PROD
  if (p + 1) % size = s.rd CELL_HEALTH_IDX.CONS % size then s.bump CELL_HEALTH_IDX.DROPS 1
  else
    let bs := body ++ zeros (124 - body.length)
    (s.tableWrite .cell (s.rd CELL_HEALTH_RING.BASE * 4096 + p * 128) (bs ++ leBytes 4 (crc32c bs))).wr CELL_HEALTH_IDX.PROD
      ((p + 1) % size)

/-! ## Retired blocks (R270) -/

/-- A block of a band retired on its blade and in the Cellar: a spare block of its die takes its place; whether one was
left. -/
def State.retireBlock (s : State) (b n die block cause : Nat) : Bool × State :=
  match s.band b n with
  | none => (false, s)
  | some y =>
    let ec := ((s.bladeOr b).block die block).ec
    let s := (s.bladeSync b (retireCmd y.shard die block)).2
    let left := s.sparesLeft b die
    let sub := (s.bladeOr b).bandBlocks + Tab.getD (s.cblade b).spares die 0
    let has := decide (0 < left)
    let s := if has then
        (s.setBand b n { y with subst := Tab.set y.subst (die % 16) sub }).setCblade b
          { (s.setBand b n { y with subst := Tab.set y.subst (die % 16) sub }).cblade b with
            spares := Tab.set (s.cblade b).spares die (Tab.getD (s.cblade b).spares die 0 + 1) }
      else s
    let s := s.healthEntry (leBytes 1 2 ++ leBytes 1 b ++ leBytes 1 cause ++ zeros 1 ++ leBytes 2 die ++ zeros 2 ++
      leBytes 8 s.now ++ leBytes 4 block ++ leBytes 4 (if has then sub else 0xFFFFFFFF) ++ leBytes 4 ec ++
      leBytes 2 (s.sparesLeft b die))
    let s := s.raise Ev.blockRetired (some .cell) (some b) [b, die, block, cause]
    let s := if has then (s.bladeSync b (claimCmd y.shard (die / 16) (2 ^ (die % 16))
        ((List.range 16).map fun k => if k = die % 16 then sub else 0))).2 else s
    (has, s.countBands b)

/-- A checkpoint falls due at once for each shard with META pages or a root on a blade: it puts them, and an anchor, on the
blades its home lane is then bound to (R270; log entry 143). -/
def State.metaLeaves (s : State) (b : Nat) : State :=
  s.setCell { s.cell with shards := (Tab.mapV s.cell.shards fun _ x =>
    if x.metaPages.any (fun p => p.2.any (·.blade == b)) || x.rootAt.any (·.blade == b) then { x with ckptAt := some s.now } else x) }

/-- A blade runs out of spare blocks: no further band is claimed on it, its metadata move (R270), and the Carcase is told
(R217). -/
def State.cellExhausted (s : State) (b : Nat) : State :=
  if s.rd (CELL_BLADE.STATE b) = 2 then s
  else (((s.wr (CELL_BLADE.STATE b) 2).raise Ev.bladeExhausted (some .cell) (some b) [b]).metaLeaves b).carcExhausted b

/-! ## Claims (R242, R268, R272) -/

/-- Largest erase count of the 16 blocks of a band. -/
def State.bandEc (s : State) (b n : Nat) : Nat :=
  let x := s.bladeOr b
  let y := (s.band b n).getD { kind := .main, shard := 0 }
  (List.range 16).foldl (fun m k => max m (x.block (16 * bandGroup n + k) (Tab.getD y.subst k (bandIdx n))).ec) 0

/-- Whether a band number is free to claim, and not in `no`. -/
def State.bandFree (s : State) (b : Nat) (no : List Nat) (n : Nat) : Bool :=
  (s.band b n).isNone && !(no.contains n) && !(bandGroup n == 0 && decide (bandIdx n < 4))

/-- Whether a band was erased long enough ago. -/
def State.dwelt (s : State) (b n : Nat) : Bool :=
  match Tab.get? (s.cblade b).erasedAt n with
  | some t => decide (t + s.rd CELL_GC_CFG.WL_PERIOD * mgmtTick ≤ s.now)
  | none => true

/-- The free band of a group with the lowest EC, then the lowest index; `ok` filters candidates. The scan ends at a band
that was never erased. -/
def State.lowestEc (s : State) (b g : Nat) (no : List Nat) (ok : Nat → Bool) : Nat → Nat → Option (Nat × Nat) → Option Nat
  | 0, _, best => best.map (·.1)
  | fuel + 1, i, best =>
    let n := g * 65536 + i
    if s.bandFree b no n && ok n then
      let ec := s.bandEc b n
      if ec = 0 then (match best with
        | some (m, 0) => some m
        | _ => some n)
      else match best with
        | some (_, e) => if ec < e then s.lowestEc b g no ok fuel (i + 1) (some (n, ec)) else s.lowestEc b g no ok fuel (i + 1) best
        | none => s.lowestEc b g no ok fuel (i + 1) (some (n, ec))
    else s.lowestEc b g no ok fuel (i + 1) best

/-- Bands of a group that are listed in a state, or all. -/
def State.groupBands (s : State) (b g : Nat) (p : Band → Bool) : Nat :=
  ((s.cblade b).bands.filter fun e => bandGroup e.1 == g && e.2.kind != .anchor && p e.2).length

/-- choose_band of R268. -/
def State.chooseBand (s : State) (b : Nat) (k : BandKind) (shard : Nat) (no : List Nat) : Option Nat :=
  let x := s.bladeOr b
  let total := fun g => x.bandBlocks - (if g = 0 then 4 else 0)
  let free := fun g => total g - s.groupBands b g (fun _ => true) - (no.filter (fun n => bandGroup n == g)).length
  let groups := (List.range (x.id.dies / 16)).filter fun g => decide (0 < free g)
  let pref := groups.filter fun g => s.groupBands b g (fun y => y.shard == shard && y.st == .open_) == 0
  let groups := if k == .main ∧ !pref.isEmpty then pref else groups
  let key := fun g => (s.groupBands b g (fun y => y.st == .open_), x.id.blocks - free g)
  let best := groups.foldl (fun (m : Option Nat) g => match m with
    | none => some g
    | some h => if (key g).1 < (key h).1 ∨ ((key g).1 = (key h).1 ∧ (key g).2 < (key h).2) then some g else some h) none
  match best with
  | none => none
  | some g => match s.lowestEc b g no (s.dwelt b) x.bandBlocks 0 none with
    | some n => some n
    | none => s.lowestEc b g no (fun _ => true) x.bandBlocks 0 none

/-- A band claimed for a shard and opened. A claim the blade refuses drops the band, and another is chosen (R242). -/
def State.claimBand (s : State) (b shard : Nat) (y : Band) (no : List Nat) : Nat → Option Nat × State
  | 0 => (none, s)
  | fuel + 1 =>
    if s.rd (CELL_BLADE.STATE b) ≠ 1 then (none, s)
    else if y.kind == .main ∧ s.freeBands b ≤ s.rd CELL_JRN_CFG.RES_BANDS then (none, s)
    else match s.chooseBand b y.kind shard no with
      | none => (none, s)
      | some n =>
        let (a, s) := s.bladeSync b (claimCmd shard (bandGroup n) 0xFFFF (List.replicate 16 (bandIdx n)))
        if a.status = St.success then
          let s := s.setBand b n { y with shard := shard, ec := s.bandEc b n }
          let s := (s.journal shard { type := 0x0D, epoch := 0, arg0 := b + n * 16, arg1 := 1 }).2
          (some n, s.countBands b)
        else if a.status = St.claimConflict then s.claimBand b shard y (n :: no) fuel
        else (none, s)

/-! ## Programs (R246, R262) -/

/-- The XOR of two pages of 18,432 bytes; an empty accumulator stands for zeros. -/
def pageXor (a b : List Byte) : List Byte := if a.isEmpty then b else xorBytes a b

/-- A whole page of data and spare bytes, as the blade presents it. -/
def rawPage (data hdr : List Byte) : List Byte := fullPage data ++ hdr ++ zeros (2048 - hdr.length)

/-- A program of a whole 18,432-byte page. -/
def parityCmd (shard die block page : Nat) (slc : Bool) (raw : List Byte) : BCmd :=
  ⟨bcpImg Bop.program (2 + if slc then 1 else 0) shard die 0 0 18432 (leBytes 2 block ++ leBytes 2 page), raw, []⟩

/-- A command to a blade: carried out at once, or issued on a queue for an issuer. The status known now. -/
def State.toBlade (s : State) (b : Nat) (c : BCmd) (async : Option (Nat × Issuer)) : Nat × State :=
  match async with
  | none => let (a, s) := s.bladeSync b c
    (a.status, s)
  | some (q, who) =>
    if !s.maySend c then (St.notOwnerLocal, s)
    else
      let (ok, s) := s.issue b q (s.stamped c) who
      (if ok then St.success else St.bladeUnreachable, s)

/-- The parity page of stripe `q` programmed from what has been written of it. -/
def State.putParity (s : State) (b n q : Nat) (queue : Option Nat) : State :=
  match s.band b n with
  | none => s
  | some y =>
    let (die, block, page) := y.parityPlace n q
    let s := s.setBand b n { y with acc := [] }
    let s := s.setCblade b { s.cblade b with pagesProg := (s.cblade b).pagesProg + 1 }
    (s.toBlade b (parityCmd y.shard die block page y.kind.slc (y.acc ++ zeros (18432 - y.acc.length)))
      (queue.map fun k => (k, .side y.shard n))).2

/-- The next data page of a band programmed. The parity page follows the 15th page of its stripe. -/
def State.putPage (s : State) (b n : Nat) (h : PageHead) (data : List Byte) (async : Option (Nat × Issuer)) : Nat × State :=
  match s.band b n with
  | none => (St.notClaimed, s)
  | some y =>
    let (die, block, page) := y.place n y.next
    let epoch := if y.kind == .anchor then 0 else s.rd (LEASE_EPOCH.EPOCH y.shard)
    let hdr := h.bytes (if y.kind == .anchor then 0 else y.shard) epoch n y.next data
    let body := data ++ zeros (alignUp (max data.length 1) 4096 - data.length)
    let (st, s) := s.toBlade b (progCmd (if y.kind == .anchor then 0 else y.shard) die block page y.kind.slc body hdr) async
    if st ≠ St.success then (st, s)
    else
      let u := if h.part_ = 0 ∧ h.kind ≠ Pk.summary then y.units ++ [⟨h.kind, h.obj, h.wseq, y.next, true⟩] else y.units
      let s := s.setBand b n { y with next := y.next + 1, acc := pageXor y.acc (rawPage data hdr), units := u }
      let s := s.setCblade b { s.cblade b with pagesProg := (s.cblade b).pagesProg + 1 }
      (st, if y.next % 15 = 14 then s.putParity b n (y.next / 15) (async.map (·.1)) else s)

/-- Summary pages from DPAGE `from_` on. -/
def State.putSummary (s : State) (b n : Nat) (bytes : List Byte) (queue : Option Nat) : Nat → State
  | 0 => s
  | k + 1 =>
    let (_, s) := s.putPage b n { kind := Pk.summary, obj := 0, used := min bytes.length 16384, wseq := 0 } (fullPage (bytes.take 16384))
      (queue.map fun q => (q, .side ((s.band b n).map (·.shard) |>.getD 0) n))
    s.putSummary b n (bytes.drop 16384) queue k

/-- A band's summary stripe is written and the band CLOSED: in its last stripe, or in the next one after a block failed. A
stripe begun before is closed with its parity page. -/
def State.closeBand (s : State) (b n : Nat) (failed : Bool) (queue : Option Nat) : State :=
  match s.band b n with
  | none => s
  | some y =>
    if y.st != .open_ then s
    else
      let s := if y.next % 15 = 0 then s else s.putParity b n (y.next / 15) queue
      let at_ := if failed then (y.next + 14) / 15 * 15 else (s.stripes b y.kind - 1) * 15
      let s := match s.band b n with
        | some y => s.setBand b n { y with next := at_, acc := [] }
        | none => s
      let s := s.putSummary b n (s.summaryBytes b n y) queue 15
      match s.band b n with
      | some y => s.setBand b n { y with st := .closed }
      | none => s

/-- FENCE_GEN of a band that becomes EMPTY now: no checkpoint is ever in progress between two steps (R262). -/
def State.fenceGen (s : State) (sh : Nat) : Nat := s.rd (CELL_SHARD.CKPT_GEN sh) + 1

/-- A CLOSED band without a live content unit becomes EMPTY. -/
def State.emptyBand (s : State) (b n : Nat) : State :=
  match s.band b n with
  | some y =>
    if y.st == .closed && y.units.all (!·.live) then
      s.setBand b n { y with st := .empty, fence := s.fenceGen y.shard }
    else s
  | none => s

/-- A content unit that nothing refers to any longer stops counting as live; its band may become EMPTY. -/
def State.killUnit (s : State) (l : PageLoc) : State :=
  match s.band l.blade l.band with
  | some y => (s.setBand l.blade l.band { y with units := (y.units.map fun u =>
      if u.dpage = l.dpage then { u with live := false } else u) }).emptyBand l.blade l.band
  | none => s

/-- Whether a band has no room for another content unit. -/
def State.bandFull (s : State) (b : Nat) (y : Band) : Bool := decide (s.bandPlaces b y.kind * y.kind.unit ≤ y.next)

/-- The OPEN band of a purpose on a blade. -/
def State.openBand (s : State) (b : Nat) (p : Band → Bool) : Option Nat :=
  ((s.cblade b).bands.find? fun e => e.2.st == .open_ && p e.2).map (·.1)

/-- The open band of a purpose with room, claimed where there is none; a full one is closed first. -/
def State.bandFor (s : State) (b shard : Nat) (y : Band) (queue : Option Nat) : Option Nat × State :=
  let same := fun (z : Band) => z.kind == y.kind && z.shard == shard && z.gc == y.gc && z.lane == y.lane && z.pool == y.pool &&
    z.patch == y.patch
  match s.openBand b same with
  | some n =>
    if ((s.band b n).map (s.bandFull b)).getD false then
      ((s.closeBand b n false queue).emptyBand b n).claimBand b shard y [] 64
    else (some n, s)
  | none => s.claimBand b shard y [] 64

/-- A content unit's page or pages written at once on a blade, in the open band of its purpose. A program that fails ends
the band, its block is retired, and the unit goes to another band (R262, R270). The band and DPAGE. -/
def State.writeUnit (s : State) (b shard : Nat) (y : Band) (pages : List (PageHead × List Byte)) : Nat → Option (Nat × Nat) × State
  | 0 => (none, s)
  | fuel + 1 =>
    match s.bandFor b shard y none with
    | (none, s) => (none, s)
    | (some n, s) =>
      let d := ((s.band b n).map (·.next)).getD 0
      let (bad, s) := pages.foldl (fun (a : Option Nat × State) p =>
        match a.1 with
        | some st => (some st, a.2)
        | none =>
          let (st, s) := a.2.putPage b n p.1 p.2 none
          (if st = St.success then none else some st, s)) (none, s)
      match bad with
      | none => (some (n, d), if ((s.band b n).map (s.bandFull b)).getD false then s.closeBand b n false none else s)
      | some st =>
        if st = St.programFail then
          match s.band b n with
          | none => (none, s)
          | some z =>
            let (die, block, _) := z.place n z.next
            let s := s.setCblade b { s.cblade b with progFails := (s.cblade b).progFails + 1 }
            let s := (s.closeBand b n true none)
            let s := s.setBand b n { (s.band b n).getD z with units := (((s.band b n).getD z).units.map fun u =>
              if u.dpage = d then { u with live := false } else u) }
            let (has, s) := s.retireBlock b n die block 1
            let s := if has then s else s.cellExhausted b
            (s.emptyBand b n).writeUnit b shard y pages fuel
        else (none, s)

/-! ## Erases (R262, R267, R270) -/

/-- The 16 blocks of a band erased at once, its claim released: FREE again, or RETIRED where a failed block has no
substitute. Whether it is FREE. -/
def State.eraseBand (s : State) (b n : Nat) : Bool × State :=
  match s.band b n with
  | none => (false, s)
  | some y =>
    let (ok, s) := (List.range 16).foldl (fun (a : Bool × State) k =>
      if !a.1 then a
      else
        let z := (a.2.band b n).getD y
        let die := 16 * bandGroup n + k
        let block := Tab.getD z.subst k (bandIdx n)
        let (r, s) := a.2.bladeSync b (eraseCmd y.shard die block true)
        let s := s.setCblade b { s.cblade b with erases := (s.cblade b).erases + 1 }
        if r.status = St.success then (true, s)
        else if r.status = St.eraseFail then
          let s := s.setCblade b { s.cblade b with eraseFails := (s.cblade b).eraseFails + 1 }
          let (has, s) := s.retireBlock b n die block 2
          if has then
            let z := (s.band b n).getD y
            (true, (s.bladeSync b (eraseCmd y.shard die (Tab.getD z.subst k (bandIdx n)) true)).2)
          else (false, s.cellExhausted b)
        else (false, s)) (true, s)
    if ok then
      let s := (s.dropBand b n)
      let s := s.setCblade b { s.cblade b with erasedAt := Tab.set (s.cblade b).erasedAt n s.now, ecs := Tab.set (s.cblade b).ecs n (s.bandEc b n) }
      let s := (s.journal y.shard { type := 0x0D, epoch := 0, arg0 := b + n * 16, arg1 := 2 }).2
      (true, s.countBands b)
    else if s.rd (CELL_BLADE.STATE b) = 2 then
      let s := s.setBand b n { (s.band b n).getD y with st := .retired }
      let s := s.setCblade b { s.cblade b with retired := (s.cblade b).retired + 1 }
      (false, ((s.journal y.shard { type := 0x0D, epoch := 0, arg0 := b + n * 16, arg1 := 3 }).2).countBands b)
    else (false, s)

/-! ## Reads with level-0 repair (R204) -/

/-- Bytes of a page read at once; `raw`: the whole 18,432 bytes. -/
def State.readRaw (s : State) (b die block page off len : Nat) (raw : Bool) : Option (List Byte) × State :=
  let c := if raw then (⟨bcpImg Bop.read 2 0 die 0 0 18432 (leBytes 2 block ++ leBytes 2 page), [], []⟩ : BCmd)
    else readCmd die block page off len
  let (a, s) := s.bladeSync b c
  let s := s.setCblade b { s.cblade b with
    pagesRead := (s.cblade b).pagesRead + 1
    uncorr := if a.status = St.uncorrectable then (s.cblade b).uncorr + 1 else (s.cblade b).uncorr }
  (if a.status = St.success then some a.data else none, s)

/-- Bytes of a data page of a band; an uncorrectable page is rebuilt from the other 15 pages of its die stripe. -/
def State.readPage (s : State) (b n : Nat) (y : Band) (dpage off len : Nat) : Option (List Byte) × State :=
  let (die, block, page) := y.place n dpage
  match s.readRaw b die block page off len false with
  | (some d, s) => (some d, s)
  | (none, s) =>
    if s.bldSt b ≠ Bst.ready then (none, s)
    else
      let others := (List.range 16).filter fun k => 16 * bandGroup n + k ≠ die
      let (acc, s) := others.foldl (fun (a : Option (List Byte) × State) k =>
        match a.1 with
        | none => a
        | some x =>
          match a.2.readRaw b (16 * bandGroup n + k) (Tab.getD y.subst k (bandIdx n)) page 0 0 true with
          | (some d, s) => (some (pageXor x d), s)
          | (none, s) => (none, s)) (some [], s)
      match acc with
      | some x => (some (slice x off len), s.setCblade b { s.cblade b with l0Repairs := (s.cblade b).l0Repairs + 1 })
      | none => (none, s.raise Ev.l0Unrepairable (some .cell) (some b) [b, n, page])

/-- Bytes of a data page by its band number. A band this head does not list is read without substitutes. -/
def State.readAt (s : State) (l : PageLoc) (off len : Nat) : Option (List Byte) × State :=
  s.readPage l.blade l.band ((s.band l.blade l.band).getD { kind := .main, shard := 0 }) l.dpage off len

/-- The header of a data page, if it can be read. -/
def State.readHead (s : State) (l : PageLoc) : Option (List Byte) × State :=
  let y := (s.band l.blade l.band).getD { kind := .main, shard := 0 }
  let (die, block, page) := y.place l.band l.dpage
  let (a, s) := s.bladeSync l.blade (headCmd die block page)
  (if a.status = St.success then some a.data else none, s)

/-- Whether a page header is one of R245 and its data pass DATA_CRC. -/
def headOk (h data : List Byte) : Bool :=
  fieldAt h 0 2 == 0xCE1A && fieldAt h 2 1 == 1 && fieldAt h 60 4 == crc32c (h.take 60) && fieldAt h 44 4 == crc32c data

end Sys2Proof.Machine
end

