-- ==== Sys2Proof/Machine/Journal.lean ====
section
/-! DEFINITION. The journal: page programs, replicas, replacement, confirmation of records and what each type does then
(R33, R108, R124, R143, R145, R149, R150, R248 to R256, R271). -/
namespace Sys2Proof.Machine
open Sys2Proof

/-! ## Record types (R251) -/

def Jt.data : Nat := 0x01
def Jt.ref : Nat := 0x02
def Jt.incr : Nat := 0x03
def Jt.dealloc : Nat := 0x04
def Jt.sdIntent : Nat := 0x05
def Jt.sdDone : Nat := 0x06
def Jt.defer : Nat := 0x07
def Jt.seal : Nat := 0x08
def Jt.patch : Nat := 0x09
def Jt.patchDone : Nat := 0x0A
def Jt.move : Nat := 0x0B
def Jt.remap : Nat := 0x0C
def Jt.band : Nat := 0x0D
def Jt.frameFree : Nat := 0x0E
def Jt.cursor : Nat := 0x0F

/-- ARG0 of a record that names a block of a volume. -/
def blockArg (vol block : Nat) : Nat := vol + block * 2 ^ 18
def argVol (a : Nat) : Nat := a % 2 ^ 18
def argBlock (a : Nat) : Nat := a / 2 ^ 18 % 2 ^ 38

/-- ARG1 of DATA and REF: the tags as the catalogue stores them. -/
def tagArg (app ref : Nat) : Nat := app % 65536 + ref * 65536

/-! ## Fields of a record's bytes, as replay reads them -/

/-- A record read from a page, if it is whole and its check passes. -/
def recOf (bs : List Byte) : Option (Nat × JRec) :=
  let len := fieldAt bs 2 2
  if fieldAt bs 0 1 = 0 ∨ bs.length < 64 + len then none
  else if fieldAt bs 60 4 ≠ crc32c (bs.take 60 ++ slice bs 64 len) then none
  else some (fieldAt bs 8 8 % 2 ^ 55, {
    type := fieldAt bs 0 1, more := (fieldAt bs 1 1).testBit 0, tshard := fieldAt bs 5 1, epoch := fieldAt bs 16 8,
    pair := fieldAt bs 24 8, arg0 := fieldAt bs 32 8, arg1 := fieldAt bs 40 8, arg2 := fieldAt bs 48 8,
    payload := slice bs 64 len, issued := true })

/-- The records of a page image. -/
def recsOf : Nat → List Byte → List (Nat × JRec)
  | 0, _ => []
  | n + 1, bs => match recOf bs with
    | some (j, r) => (j, r) :: recsOf n (bs.drop (alignUp (64 + r.payload.length) 32))
    | none => []

/-! ## Seals (R256) -/

/-- A forward entry's two LOCATORs. -/
def fwdPairs (payload : List Byte) : List (Nat × Nat) :=
  (List.range (payload.length / 16)).map fun i => (fieldAt payload (16 * i) 8, fieldAt payload (16 * i + 8) 8)

/-- One copy of a shard moved: its old place in a wheel holds it no longer, its forward entry is installed with the references it stands for, and its index entry takes
the new LOCATOR, at once or once its holds have settled (R152, R256). -/
def State.forward (s : State) (sh old new : Nat) : State :=
  let s := if locJournal old then s else s.placeGarbage sh old
  match Tab.get? s.sep.byLoc (copyKey sh old) with
  | none =>
    let x := s.cshard sh
    s.setCshard sh { x with fwd := Tab.set x.fwd old new, fwdRefs := Tab.set x.fwdRefs old 1 }
  | some h =>
    let n := ((s.entryAt h).map (·.refs)).getD 1
    let x := s.cshard sh
    let s := s.setCshard sh { x with fwd := Tab.set x.fwd old new, fwdRefs := Tab.set x.fwdRefs old (max n 1) }
    let s := s.setSep { s.sep with byLoc := Tab.set (Tab.del s.sep.byLoc (copyKey sh old)) (copyKey sh new) h }
    s.settleLoc h

/-- The last SEAL record of a wheel is confirmed: the wheel is sealed, its forward entries installed. -/
def State.sealWheel (s : State) (sh wheel jsn : Nat) : State :=
  match s.wheel sh wheel with
  | none => s
  | some w =>
    if w.sealed ∨ w.freed then s
    else
      let s := s.setWheel sh wheel { w with sealed := true, sealJsn := jsn }
      let pairs := ((s.cshard sh).recs.filter fun e => e.2.type == Jt.seal && e.2.arg0 == wheelId sh wheel).flatMap fun e => fwdPairs e.2.payload
      let kept := pairs.filter fun p => (Tab.get? w.live (p.2 / 2 ^ 40)).isSome
      (kept.foldl (fun s p => s.forward sh p.1 p.2) s).countUnfolded sh

/-- The frame of a refolded wheel freed: FRAME_FREE journaled, its chunks live no longer (R265). -/
def State.freeWheel (s : State) (sh old : Nat) : State :=
  match s.wheel sh old with
  | none => s
  | some w =>
    let s := (s.journal sh { type := Jt.frameFree, epoch := 0, arg0 := w.pool + w.frame * 16 }).2
    let s := s.setWheel sh old { w with sealed := false, freed := true, live := [], locs := [], bytes := 0 }
    w.locs.foldl (fun s e => s.killUnit e.2) s

/-- What a fold or reclaim does once its last wheel is sealed: the old frame goes, the descriptor completes. -/
def State.foldDone (s : State) (sh : Nat) (r : JRec) : State :=
  match r.done with
  | .fold d blocks wheels old =>
    if wheels.any fun w => ((s.wheel sh w).map (!·.sealed)).getD true then s
    else
      let s := match old with
        | some o => s.freeWheel sh o
        | none => s
      match d with
      | some d => s.finish .cell d St.success blocks (wheelId sh (wheels.getLastD 0))
      | none => s
  | _ => s

/-! ## Secure Deallocate: steps 3 and 4 (R124, R151) -/

/-- Catalogue references of the shards loaded here to a copy, of one volume or of all. -/
def State.copyRefs (s : State) (sh l : Nat) (vol : Option Nat) : Nat :=
  (s.cell.shards.map fun x => (x.2.cat.filter fun e =>
    e.2.shard == sh && s.locNow sh e.2.locator == l && e.2.locator != 0 && (vol.isNone || vol == some (catVol e.1))).length).sum

/-- One block's write-index entries and reference removed (R124, step 3); where its copy stood. -/
def State.sdBlock (s : State) (vol block : Nat) : Option (Nat × Nat) × State :=
  let s := (s.widxMap (fun e => e.vol == vol && e.block == block) (fun e => { e with withdrawn := true })).widxReap
  match s.catEntry vol block with
  | none => (none, s)
  | some e => (if e.locator = 0 then none else some (e.shard, s.locNow e.shard e.locator), s.setCat vol block none)

/-- The blocks of a range, their references removed; where their copies stood, block by block. -/
def State.sdBlocks (s : State) (vol : Nat) : Nat → Nat → List (Nat × Nat) × State
  | _, 0 => ([], s)
  | b, n + 1 =>
    let (c, s) := s.sdBlock vol b
    let (ls, s) := s.sdBlocks vol (b + 1) n
    (c.toList ++ ls, s)

/-- The index count of a copy lowered by `n` for the removals of record `by_`; at 0 it is withdrawn (R124, step 4). A
decrement in another shard is journaled there, and made once (R20, R148). -/
def State.decrement (s : State) (by_ : Nat) (c : Nat × Nat) (n : Nat) : State :=
  match (Tab.get? s.sep.byLoc (copyKey c.1 c.2)).bind fun h => (s.entryAt h).map fun x => (h, x) with
  | none => s
  | some (h, x) =>
    let away := decide (c.1 ≠ by_ / 2 ^ 55)
    if away && (s.cshard c.1).recs.any (fun r => r.2.type == Jt.incr && r.2.pair == by_ && r.2.arg0 == x.locator) then s
    else
      let s := ((s.putEntry h { x with refs := x.refs - n }).sepWithdraw h).2
      if away then
        (s.journal c.1 { type := Jt.incr, epoch := 0, pair := by_, arg0 := x.locator, arg1 := ofSigned (-n) 64 }).2
      else s

/-- References that still need a copy, and those of one volume among them: by the index, or, of a copy it does not hold, by
the catalogues of the shards loaded here (R151, R154; log entry 29). -/
def State.copyNeed (s : State) (vol : Nat) (c : Nat × Nat) : Nat × Nat :=
  let all := match (Tab.get? s.sep.byLoc (copyKey c.1 c.2)).bind s.entryAt with
    | some x => x.refs + x.holds
    | none => s.copyRefs c.1 c.2 none
  (all, s.copyRefs c.1 c.2 (some vol))

/-- Steps 3 and 4 over a range, for the intent record `by_`: the copies that nothing needs any longer, as keys of shard and
LOCATOR, and RETAINED: the blocks whose copies another volume still references (R123). -/
def State.sdRange (s : State) (by_ vol b n : Nat) : List Nat × Nat × State :=
  let (cs, s) := s.sdBlocks vol b n
  let s := cs.eraseDups.foldl (fun s c => s.decrement by_ c (cs.filter (· == c)).length) s
  ((cs.eraseDups.filter fun c => (s.copyNeed vol c).1 == 0).map fun c => copyKey c.1 c.2,
    (cs.filter fun c => decide ((s.copyNeed vol c).2 < (s.copyNeed vol c).1)).length, s)

/-! ## Confirmation (R145, R253) -/

/-- Bytes of host data of a command in a block. -/
def State.hostBytes (s : State) (c : NvmeCmd) (block : Nat) : Nat :=
  let e := s.cmdVol c
  if c.op = Nop.write then (c.sectors e block).2 * lbaBytes (volLbaf e) else 0

/-- A write of a block to the catalogue, unless a write dispatched later has set the block already (R116, R368). Answers whether
it stands there. -/
def State.mapBlock (s : State) (c : NvmeCmd) (b : Blk) (loc copySh : Nat) : Bool × State :=
  if ((s.catEntry c.vol b.block).map fun o => decide (b.dseq < o.dseq)).getD false then (false, s)
  else (true, s.setCat c.vol b.block (some { locator := loc, shard := copySh, app := b.app, ref := b.ref, dseq := b.dseq }))

/-- The write-index entry of a confirmed block may go once no read holds it (R369); those of earlier writes are overtaken. -/
def State.widxConfirmed (s : State) (vol block dseq : Nat) : State :=
  ((s.widxMap (fun e => e.vol == vol && e.block == block && e.dseq == dseq)
    (fun e => { e with confirmed := true, mapped := true })).widxSupersede vol block 1 dseq).widxReap

/-- A block stored as a new copy is confirmed: catalogue, index entry, new-entry log, Meter. A copy that a later write has
overtaken is garbage unless its entry counts it (R140, R151). -/
def State.dataConfirmed (s : State) (sh jsn k i : Nat) (r : JRec) : State :=
  match s.blk k i with
  | none => s
  | some (c, b) =>
    let e := s.cmdVol c
    let loc := journalLoc sh jsn
    let (mapped, s) := s.mapBlock c b loc sh
    let (idx, s) := if b.pend then s.confirmPending (volDomain e) b.fp sh loc else (false, s)
    let s := if volDedup e then
        (if idx then s else s.wr SEP_COUNT_NOINDEX.COUNT (s.rd SEP_COUNT_NOINDEX.COUNT + 1)).newLog b.fp (volDomain e) sh loc (!idx)
      else s
    let s := if mapped ∨ idx then s else s.copyGarbage sh loc
    let s := (s.meterEvent c.tenant (blockShard c.vol b.block) 1 (s.hostBytes c b.block)).meterEvent c.tenant
      (blockShard c.vol b.block) 2 r.payload.length
    let s := s.widxConfirmed c.vol b.block b.dseq
    (s.setBlk k i { b with pend := false }).blkDone k i 0

/-- A duplicate's records are confirmed: the hold becomes a reference. -/
def State.refConfirmed (s : State) (k i : Nat) (r : JRec) : State :=
  match s.blk k i with
  | none => s
  | some (c, b) =>
    let s := (s.mapBlock c b r.arg2 r.tshard).2
    let s := match b.hold with
      | some (h, _) => s.confirmHold h
      | none => s
    let s := s.meterEvent c.tenant (blockShard c.vol b.block) 1 (s.hostBytes c b.block)
    let s := s.widxConfirmed c.vol b.block b.dseq
    (s.setBlk k i { b with hold := none }).blkDone k i 0

/-- Whether the record a paired record names is confirmed (R149). -/
def State.pairConfirmed (s : State) (r : JRec) : Bool :=
  r.pair == 0 || ((s.jrec (r.pair / 2 ^ 55 % 256) (r.pair % 2 ^ 55)).map (·.confirmed)).getD true

/-- Whether replay finds the record a REF names (R149): in the journal of the shard that stores the copy, or taken up by that
shard's checkpoint before it; a shard not loaded here is not asked (log entry 76). -/
def State.pairFound (s : State) (r : JRec) : Bool :=
  let t := r.pair / 2 ^ 55 % 256
  let j := r.pair % 2 ^ 55
  r.pair == 0 || (match s.jrec t j with
    | some q => q.confirmed
    | none => s.cellSt t != Cst.ready || decide (j < (s.cshard t).cut))

/-- A range of blocks deallocated in the catalogue. -/
def State.dropRange (s : State) (vol : Nat) : Nat → Nat → State
  | _, 0 => s
  | b, n + 1 => (s.setCat vol b none).dropRange vol (b + 1) n

/-- What waits for a record beside a host command is told. -/
def State.recDone (s : State) (r : JRec) : State :=
  match r.done with
  | .none => s
  | .refAdj d info result => s.finish .sep d St.success info result
  | .maint tag => s.tenSend (.incremented tag St.success)
  | .fold _ _ _ _ => s

/-- A chunk whose remap entry finds no slot stays unprotected: nothing names it where it has been written (R212). -/
def State.dropChunk (s : State) (sh pool f st c : Nat) : State :=
  match (s.cshard sh).wheels.find? fun e => e.2.pool == pool && e.2.frame == f && !e.2.freed with
  | none => s
  | some (n, w) => match Tab.get? w.locs (st * 16 + c) with
    | none => s
    | some l => (s.setWheel sh n { w with locs := Tab.del w.locs (st * 16 + c) }).killUnit l

/-- A patch's done record is on every live replica: its intent is given back (R220, step 8). -/
def State.patchSettled (s : State) (sh jsn : Nat) : State :=
  match (s.cshard sh).patch with
  | none => s
  | some p =>
    if p.jsn ≠ jsn then s
    else
      let s1 := s.setCshard sh { s.cshard sh with patch := none }
      match s.wheel sh p.wheel with
      | some w => (s1.giveBack sh w.pool w.frame).2
      | none => s1

/-- The effect of a confirmed record. -/
def State.recEffect (s : State) (sh jsn : Nat) (r : JRec) : State :=
  let s := s.recDone r
  if r.type = Jt.data then
    match r.cmd with
    | some (k, i) => (s.dataConfirmed sh jsn k i r).countUnfolded sh
    | none => s
  else if r.type = Jt.ref then
    match r.cmd with
    | some (k, i) => if s.pairConfirmed r then s.refConfirmed k i r else s
    | none => s
  else if r.type = Jt.incr then
    match r.cmd with
    | some (k, i) => match s.jrec (r.pair / 2 ^ 55 % 256) (r.pair % 2 ^ 55) with
      | some q => if q.confirmed then s.refConfirmed k i q else s
      | none => s
    | none => s
  else if r.type = Jt.dealloc then
    let s := s.dropRange (argVol r.arg0) (argBlock r.arg0) r.arg1
    match r.cmd with
    | some (k, i) =>
      let n := ((s.cmd k).map (·.dispatchNo)).getD 0
      ((s.widxSupersede (argVol r.arg0) (argBlock r.arg0) r.arg1 n).widxReap).blkDone k i 0
    | none => s
  else if r.type = Jt.sdIntent then
    let (ls, kept, s) := s.sdRange (sh * 2 ^ 55 + jsn) (argVol r.arg0) (argBlock r.arg0) r.arg1
    let x := s.cshard sh
    let s := s.setCshard sh { x with opened := Tab.set x.opened jsn ls }
    match r.cmd with
    | some (k, i) => match s.blk k i with
      | some (c, b) => s.setCmd k ({ c with retained := c.retained + kept }.setBlk i { b with step := .sd 5, jsn := some jsn })
      | none => s
    | none => s
  else if r.type = Jt.sdDone then
    let x := s.cshard sh
    let s := s.setCshard sh { x with opened := Tab.del x.opened r.arg0, deferred := Tab.del x.deferred r.arg0 }
    match r.cmd with
    | some (k, i) => s.blkDone k i 0
    | none => s
  else if r.type = Jt.defer then
    match r.cmd with
    | some (k, i) => s.blkDone k i 0
    | none => s
  else if r.type = Jt.seal then (if r.more then s else (s.sealWheel sh (r.arg0 % 2 ^ 40) jsn).foldDone sh r)
  else if r.type = Jt.remap then
    let e := r.payload
    let f := fieldAt e 0 4 % 2 ^ 29
    let st := fieldAt e 4 1 % 32
    let c := fieldAt e 5 1 % 16
    let (ok, s) := s.remapWrite (fieldAt e 5 1 / 16) f st c (fieldAt e 6 1 % 16) ((fieldAt e 7 1).testBit 0)
    if ok = St.success then s else s.dropChunk sh (fieldAt e 5 1 / 16) f st c
  else if r.type = Jt.patchDone then s.patchSettled sh r.arg0
  else if r.type = Jt.frameFree then
    let s := s.remapDrop (r.arg0 % 16) (r.arg0 / 16)
    let x := s.cshard sh
    s.setCshard sh { x with frames := x.frames.filter (· != (r.arg0 % 16, r.arg0 / 16)) }
  else s

/-- A record is on every live replica. -/
def State.confirmRec (s : State) (sh jsn : Nat) : State :=
  match s.jrec sh jsn with
  | none => s
  | some r => if r.confirmed then s else (s.setJrec sh jsn { r with confirmed := true }).recEffect sh jsn { r with confirmed := true }

/-! ## Pages (R249, R253) -/

def State.jpage (s : State) (sh p : Nat) : Option JPage := Tab.get? (s.cshard sh).pages p
def State.setJpage (s : State) (sh p : Nat) (x : JPage) : State :=
  s.setCshard sh { s.cshard sh with pages := Tab.set (s.cshard sh).pages p x }

/-- The records that fit the next page of a lane, in order. -/
def State.pageRecs (s : State) (sh : Nat) : Nat → List Nat → List (Nat × JRec)
  | _, [] => []
  | room, j :: js => match s.jrec sh j with
    | none => s.pageRecs sh room js
    | some r => if r.size ≤ room then (j, r) :: s.pageRecs sh (room - r.size) js else []

/-- The image of a page of records. -/
def pageImage (sh : Nat) (rs : List (Nat × JRec)) : List Byte :=
  rs.flatMap fun e => let bs := e.2.bytes sh e.1
    bs ++ zeros (e.2.size - bs.length)

/-- The queue of a lane's programs: one of the four JOURNAL queues (R290). -/
def laneQueue (lane : Nat) : Nat := 1 + lane % 4

/-- The purpose of a lane's band. -/
def laneBand (sh lane : Nat) : Band := { kind := .journal, shard := sh, lane := lane }

/-- Whether a blade may stay in, or join, a lane: ONLINE in the Carcase and ATTACHED. -/
def State.laneBlade (s : State) (b : Nat) : Bool :=
  s.carcSt b == Cbs.online && s.rd (CELL_BLADE.STATE b) == 1 && s.bldSt b == Bst.ready

/-- One replica of a page issued; its place. -/
def State.putReplica (s : State) (sh lane p b : Nat) (wseq obj : Nat) (image : List Byte) : Option PageLoc × State :=
  if s.bldSt b ≠ Bst.ready then (none, s)
  else match s.bandFor b sh (laneBand sh lane) (some (laneQueue lane)) with
    | (none, s) => (none, s)
    | (some n, s) =>
      let d := ((s.band b n).map (·.next)).getD 0
      let (st, s) := s.putPage b n { kind := Pk.journal, obj := obj, used := image.length, wseq := wseq } image
        (some (laneQueue lane, .jpage sh p))
      if st = St.success then (some ⟨b, n, d⟩, s) else (none, s)

/-- The replacement for a failed replica (R253, rule 2): the member of the lane's pool outside the lane that is ONLINE and
has the most FREE bands. -/
def State.replacement (s : State) (lane : Lane) (not_ : List Nat) : Option Nat :=
  match (lane.blades.head?).bind s.bladePool with
  | none => none
  | some p =>
    ((bladesOf (s.rd (CARC_POOL.MEMBERS p))).filter fun b => !(lane.blades.contains b) && !(not_.contains b) && s.laneBlade b).foldl
      (fun (m : Option Nat) b => match m with
        | none => some b
        | some c => if s.freeBands c < s.freeBands b then some b else some c) none

/-- A lane bound to another blade in place of one it has lost. -/
def State.rebind (s : State) (sh lane old new : Nat) : State :=
  let x := s.cshard sh
  match Tab.get? x.lanes lane with
  | none => s
  | some l => s.setCshard sh { x with lanes := Tab.set x.lanes lane { l with blades := (l.blades.map fun b => if b = old then new else b) } }

/-- Lanes keep no blade that is not ONLINE: each is rebound where a replacement exists. -/
def State.mendLane (s : State) (sh lane : Nat) : State :=
  match Tab.get? (s.cshard sh).lanes lane with
  | none => s
  | some l => (l.blades.filter fun b => !s.laneBlade b).foldl (fun s b =>
      match Tab.get? (s.cshard sh).lanes lane with
      | none => s
      | some l => match s.replacement l [] with
        | some c => s.rebind sh lane b c
        | none => s) s

/-- A page whose replicas have all reported is confirmed. -/
def State.settlePage (s : State) (sh p : Nat) : State :=
  match s.jpage sh p with
  | none => s
  | some x =>
    let live := x.reps.filter fun r => r.2 != RepSt.failed
    if live.isEmpty ∨ live.any (fun r => r.2 != RepSt.done) then s
    else x.recs.foldl (fun s j => s.confirmRec sh j) s

/-- EV_JOURNAL_FULL while no lane of a shard can take a record (R272). -/
def State.journalFull (s : State) (sh : Nat) : State :=
  if s.cell.fullSeen.contains sh then s
  else (s.setCell { s.cell with fullSeen := sh :: s.cell.fullSeen }).raise Ev.journalFull (some .cell) (some sh) [sh]

/-- The commit points of the commands whose records are programmed (R33). -/
def State.committed (s : State) (rs : List (Nat × JRec)) : State :=
  rs.foldl (fun s e => match e.2.cmd with
    | some (k, _) => match s.cmd k with
      | some c =>
        let s := s.setCmd k { c with commit := true }
        s.setHolds (s.pailsOf (.ctx k)) .committed
      | none => s
    | none => s) s

/-- Pages of a lane that have no replica left are programmed again where a blade can take one (R253). -/
def State.retryPages (s : State) (sh lane : Nat) : State :=
  ((s.cshard sh).pages.filter fun p => p.2.lane == lane && !p.2.released && !p.2.recs.isEmpty &&
    p.2.reps.all fun r => r.2 == .failed).foldl (fun s p =>
      let blades := ((Tab.get? (s.cshard sh).lanes lane).map (·.blades)).getD []
      (blades.filter s.laneBlade).foldl (fun s b =>
        match s.putReplica sh lane p.1 b p.2.wseq (p.2.recs.headD 0 + lane * 2 ^ 55) p.2.image with
        | (none, s) => s
        | (some pl, s) => match s.jpage sh p.1 with
          | some x => s.setJpage sh p.1 { x with reps := x.reps ++ [(pl, .issued s.now)] }
          | none => s) s) s

/-- Whether every blade of a lane that can be programmed has, or can claim, a JOURNAL band for it. -/
def State.laneRoom (s : State) (sh lane : Nat) : Bool × State :=
  match Tab.get? (s.cshard sh).lanes lane with
  | none => (false, s)
  | some l => (l.blades.filter s.laneBlade).foldl (fun (a : Bool × State) b =>
      let (n, s) := a.2.bandFor b sh (laneBand sh lane) (some (laneQueue lane))
      (a.1 && n.isSome, s)) (true, s)

/-- The records that wait in a lane which cannot claim a band go to another lane of the shard that can (R272). -/
def State.laneElsewhere (s : State) (sh lane : Nat) : State :=
  let (dest, s) := (s.cshard sh).lanes.foldl (fun (a : Option Nat × State) e =>
    match a.1 with
    | some _ => a
    | none => if e.1 = lane then a else
      let (ok, s) := a.2.laneRoom sh e.1
      (if ok then some e.1 else none, s)) (none, s)
  let x := s.cshard sh
  match dest, Tab.get? x.lanes lane with
  | some t, some l =>
    let y : Lane := Tab.getD x.lanes t ⟨[], [], none⟩
    s.setCshard sh { x with lanes := Tab.set (Tab.set x.lanes lane { l with next := [], holdUntil := none }) t { y with
      next := y.next ++ l.next, holdUntil := if y.next.isEmpty then l.holdUntil else y.holdUntil } }
  | _, _ => s.journalFull sh

/-- A lane's next page programmed on every replica (R249): the records it holds pass their commit point. Nothing is
programmed without a lease (R310), or where no band can be had (R272). -/
def State.programLane (s : State) (sh lane : Nat) : State :=
  let s := (s.mendLane sh lane).retryPages sh lane
  let x := s.cshard sh
  match Tab.get? x.lanes lane with
  | none => s
  | some l =>
    let rs := s.pageRecs sh 16384 l.next
    if rs.isEmpty ∨ 15 ≤ x.inFlight lane ∨ !s.liveLease sh then s
    else match s.laneRoom sh lane with
    | (false, s) => s.laneElsewhere sh lane
    | (true, s) =>
      let x := s.cshard sh
      let image := pageImage sh rs
      let p := x.nextPage
      let obj := (rs.map (·.1)).headD 0 + lane * 2 ^ 55
      let js := rs.map (·.1)
      let wseq := x.nextWseq
      let s := s.setCshard sh { x with nextPage := p + 1, nextWseq := wseq + 1 }
      let (reps, s) := l.blades.foldl (fun (a : List (PageLoc × RepSt) × State) b =>
        match a.2.putReplica sh lane p b wseq obj image with
        | (some pl, s) => (a.1 ++ [(pl, .issued s.now)], s)
        | (none, s) => (a.1, s)) ([], s)
      if reps.isEmpty then s.journalFull sh
      else
        let x := s.cshard sh
        let l := Tab.getD x.lanes lane l
        let rest := l.next.filter fun j => !js.contains j
        let s := s.setCshard sh { x with
          pages := Tab.set x.pages p { lane := lane, recs := js, image := image, used := image.length, wseq := wseq, reps := reps }
          lanes := Tab.set x.lanes lane { l with next := rest, holdUntil := if rest.isEmpty then none else some s.now }
          recs := (Tab.mapV x.recs fun j r => if js.contains j then { r with issued := true } else r)
          cutBytes := x.cutBytes + image.length }
        let s := s.setCell { s.cell with fullSeen := s.cell.fullSeen.filter (· != sh) }
        s.committed rs

/-- A replica declared failed (R253, R254): a replacement is programmed with the page image, on the same blade where only
the program failed. `cause`: 1 program failed, 2 unreachable, 3 timeout. -/
def State.failReplica (s : State) (sh p : Nat) (at_ : PageLoc) (cause : Nat) : State :=
  match s.jpage sh p with
  | none => s
  | some x =>
    let s := s.setJpage sh p { x with reps := (x.reps.map fun r => if r.1 = at_ then (r.1, .failed) else r) }
    let s := s.raise Ev.replicaFailed (some .cell) (some sh) [sh, x.lane, at_.blade, cause]
    let lane : Lane := Tab.getD (s.cshard sh).lanes x.lane ⟨[], [], none⟩
    let obj := (x.recs.headD 0) + x.lane * 2 ^ 55
    let used := ((x.reps.filter fun r => r.2 != RepSt.failed).map (·.1.blade)) ++ [at_.blade]
    let target := if cause = 1 ∧ s.laneBlade at_.blade then some at_.blade else s.replacement lane used
    match target with
    | none => s.settlePage sh p
    | some b =>
      let s := if b = at_.blade then s else s.rebind sh x.lane at_.blade b
      match s.putReplica sh x.lane p b x.wseq obj x.image with
      | (none, s) => s.settlePage sh p
      | (some pl, s) => match s.jpage sh p with
        | some x => s.setJpage sh p { x with reps := x.reps ++ [(pl, .issued s.now)] }
        | none => s

/-- A band whose page program failed ends, and its block is retired. -/
def State.endBand (s : State) (b n : Nat) (dpage : Nat) (queue : Option Nat) : State :=
  match s.band b n with
  | none => s
  | some y =>
    let (die, block, _) := y.place n dpage
    let s := s.setCblade b { s.cblade b with progFails := (s.cblade b).progFails + 1 }
    let s := s.closeBand b n true queue
    let (has, s) := s.retireBlock b n die block 1
    if has then s else s.cellExhausted b

/-- A replica of a journal page has reported (R253). -/
def State.replicaReport (s : State) (sh p b status : Nat) : State :=
  match s.jpage sh p with
  | none => s
  | some x =>
    match x.reps.find? fun r => r.1.blade == b && (match r.2 with
        | .issued _ => true
        | _ => false) with
    | none => s
    | some (pl, _) =>
      if status = St.success then
        (s.setJpage sh p { x with reps := (x.reps.map fun r => if r.1 = pl then (r.1, .done) else r) }).settlePage sh p
      else if status = St.programFail then
        (s.endBand b pl.band pl.dpage (some (laneQueue x.lane))).failReplica sh p pl 1
      else s.failReplica sh p pl 2

/-- Replicas that a blade's port lost fail (R253, R289). -/
def State.replicasLost (s : State) (b : Nat) : State :=
  s.cell.shards.foldl (fun s e => e.2.pages.foldl (fun s p =>
    (p.2.reps.filter fun r => r.1.blade == b && (match r.2 with
      | .issued _ => true
      | _ => false)).foldl (fun s r => s.failReplica e.1 p.1 r.1 2) s) s) s

/-- A journal record's payload read from one of its replicas on the medium. -/
def State.readRecord (s : State) (sh jsn : Nat) : Option (List Byte) × State :=
  match (s.cshard sh).pages.find? fun p => p.2.recs.contains jsn with
  | none => (none, s)
  | some (_, pg) =>
    let off := ((pg.recs.takeWhile (· != jsn)).map fun j => ((s.jrec sh j).map JRec.size).getD 0).sum
    let size := ((s.jrec sh jsn).map JRec.size).getD 0
    (pg.reps.filter fun r => r.2 == RepSt.done).foldl (fun (a : Option (List Byte) × State) r =>
      match a.1 with
      | some _ => a
      | none => match a.2.readAt r.1 off size with
        | (some bs, s) => (match recOf bs with
          | some (j, q) => (if j = jsn then some q.payload else none, s)
          | none => (none, s))
        | (none, s) => (none, s)) (none, s)

end Sys2Proof.Machine
end

