-- ==== Sys2Proof/Machine/Chunks.lean ====
section
/-! DEFINITION. Chunks, wheels and curds on the medium: reads with level-1 reconstruction, stored copies, chunk writes,
the intent bitmap, patches (R206 to R208, R215, R218 to R220, R230, R258, R264). -/
namespace Sys2Proof.Machine
open Sys2Proof

/-! ## Reads (R208, R215, R230) -/

/-- `n` bytes at `off` of the chunk at a place. -/
def State.chunkPart (s : State) (l : PageLoc) (off n : Nat) : Option (List Byte) × State :=
  let first := off / 16384
  let pages := (off + n + 16383) / 16384 - first
  let (bs, s) := (List.range pages).foldl (fun (a : Option (List Byte) × State) i =>
    match a.1 with
    | none => a
    | some x => match a.2.readAt { l with dpage := l.dpage + first + i } 0 16384 with
      | (some d, s) => (some (x ++ d), s)
      | (none, s) => (none, s)) (some [], s)
  (bs.map fun x => slice x (off - first * 16384) n, s)

/-- `n` bytes of a column that is not missing. -/
def State.colRead (s : State) (w : Wheel) (st c off n : Nat) : Option (List Byte) × State :=
  if (s.missingCols w st).contains c then (none, s)
  else match Tab.get? w.locs (st * 16 + c) with
    | some l => s.chunkPart l off n
    | none => (none, s)

/-- The first K available columns of a stripe, `no` left out. -/
def State.availCols (s : State) (w : Wheel) (st off n : Nat) (no : List Nat) : List (Nat × List Byte) × State :=
  let e := s.genEntry w.pool w.gen
  (List.range (genW e)).foldl (fun (a : List (Nat × List Byte) × State) j =>
    if no.contains j ∨ genK e ≤ a.1.length then a
    else match a.2.colRead w st j off n with
      | (some d, s) => (a.1 ++ [(j, d)], s)
      | (none, s) => (a.1, s)) ([], s)

/-- A wheel with the chunks of patched stripes that a load completed at their pre-patch places (R221). -/
def Wheel.prePatch (w : Wheel) : Wheel := { w with locs := w.pre.foldl (fun t e => Tab.set t e.1 e.2) w.locs }

/-- Columns of a stripe reconstructed from its first K available ones; none where fewer than K remain. Until resynchronisation
has passed a stripe whose patch a load completed, its pre-patch chunks are used (R221). -/
def State.decodeCols (s : State) (w : Wheel) (st off n : Nat) (cols : List Nat) : Option (List (List Byte)) × State :=
  let k := genK (s.genEntry w.pool w.gen)
  let (av, s) := s.availCols w.prePatch st off n cols
  if av.length < k ∨ !s.carcLane then (none, s)
  else
    let data := solveData k av
    (some (cols.map (columnOf k n data)), s)

/-- Bytes of a column: read, or reconstructed where it is missing or unreadable. -/
def State.colBytes (s : State) (w : Wheel) (st c off n : Nat) : Option (List Byte) × State :=
  match s.colRead w st c off n with
  | (some d, s) => (some d, s)
  | (none, s) => match s.decodeCols w st off n [c] with
    | (some ds, s) => (ds.head?, s)
    | (none, s) => (none, s)

/-- `n` bytes of a wheel's curd data at byte `x`, stripe-major (R208). -/
def State.wheelRead (s : State) (w : Wheel) : Nat → Nat → Nat → Option (List Byte) × State
  | 0, _, n => (if n = 0 then some [] else none, s)
  | fuel + 1, x, n =>
    if n = 0 then (some [], s)
    else
      let k := genK (s.genEntry w.pool w.gen)
      let m := min n (65536 - x % 65536)
      match s.colBytes w (x / (k * 65536)) (x % (k * 65536) / 65536) (x % 65536) m with
      | (none, s) => (none, s)
      | (some d, s) => match s.wheelRead w fuel (x + m) (n - m) with
        | (some r, s) => (some (d ++ r), s)
        | (none, s) => (none, s)

/-! ## Stored copies (R138, R164, R401) -/

/-- The tenant whose key encrypts a journal record's curd: that of its volume. -/
def State.recTenant (s : State) (r : JRec) : Nat := volTenant (s.volEntry (argVol r.arg0))

/-- Whether a read of a stored copy needs a reconstruction while no lane of the Carcase is in service: it waits (R235). -/
def State.laneMissing (s : State) (sh l : Nat) : Bool :=
  let l := s.locNow sh l
  !s.carcLane && !locJournal l && (match s.wheel sh (locWheel l) with
    | none => false
    | some w =>
      let k := genK (s.genEntry w.pool w.gen)
      let n := ((Tab.get? w.curds (locOff l)).map (·.1)).getD 0
      let a := locOff l / 65536
      (List.range ((locOff l + n + 65535) / 65536 - a)).any fun i => (s.missingCols w ((a + i) / k)).contains ((a + i) % k))

/-- The encrypted curd of a stored copy, with the tenant of its key. -/
def State.copyBytes (s : State) (sh l : Nat) : Option (List Byte × Nat) × State :=
  let l := s.locNow sh l
  if locJournal l then
    match s.jrec sh (locJsn l) with
    | none => (none, s)
    | some r =>
      let (bs, s) := s.readRecord sh (locJsn l)
      (bs.map fun x => (x, s.recTenant r), s)
  else match s.wheel sh (locWheel l) with
    | none => (none, s)
    | some w => match Tab.get? w.curds (locOff l) with
      | none => (none, s)
      | some (n, t) =>
        let (bs, s) := s.wheelRead w 32 (locOff l) n
        (bs.map fun x => (x, t), s)

/-- A curd encrypted or decrypted with a tenant's key for a place (R401); none where the key cannot be had. -/
def State.cryptCurd (s : State) (enc : Bool) (tenant l sh : Nat) (bs : List Byte) : Option (List Byte) :=
  match s.keyNow tenant with
  | .ok key => some (xts enc key (venTweak l tenant sh) bs)
  | .error _ => none

/-- The plain curd of a stored copy. -/
def State.copyCurd (s : State) (sh l : Nat) : Option (List Byte) × State :=
  let l := s.locNow sh l
  match s.copyBytes sh l with
  | (some (bs, t), s) => (s.cryptCurd false t l sh bs, s)
  | (none, s) => (none, s)

/-- Which block of its curd a LOCATOR names. -/
def copyIdx (l : Nat) : Nat := if locJournal l then 0 else locIdx l

/-- The plain 4 KiB block of a stored copy, or the status of R166 it fails with (0: it cannot be read). -/
def State.copyBlock (s : State) (sh l : Nat) : Except Nat (List Byte) × State :=
  let l := s.locNow sh l
  match s.copyCurd sh l with
  | (some bs, s) => (match s.useDicts (curdDicts s.dicts bs (copyIdx l)) with
    | none => (.error 0, s.headLost)
    | some s => (match curdRead s.dicts bs (copyIdx l) with
      | .ok bks => .ok (bks.headD [])
      | .error e => .error e, s))
  | (none, s) => (.error 0, s)

/-! ## Chunk writes (R243, R245, R264) -/

/-- The next WSEQ of a shard. -/
def State.takeWseq (s : State) (sh : Nat) : Nat × State :=
  let x := s.cshard sh
  (x.nextWseq, s.setCshard sh { x with nextWseq := x.nextWseq + 1 })

/-- The band a shard folds into, or its GC band. -/
def foldBand (sh pool : Nat) (gc : Bool) : Band := { kind := .main, shard := sh, pool := pool, gc := gc }

/-- A chunk programmed on a blade in the open band of a purpose. -/
def State.writeChunk (s : State) (b sh : Nat) (y : Band) (obj : Nat) (jour : Bool) (data : List Byte) : Option PageLoc × State :=
  let (ws, s) := s.takeWseq sh
  let pages := (List.range 4).map fun i =>
    (({ kind := Pk.chunk, obj := obj, used := 16384, wseq := ws, pool := y.pool, jour := jour, part_ := i } : PageHead),
      slice data (16384 * i) 16384)
  match s.writeUnit b sh y pages 16 with
  | (some (n, d), s) => (some ⟨b, n, d⟩, s)
  | (none, s) => (none, s)

/-- The location entry of a chunk changed; its old place is live no longer. -/
def State.setLoc (s : State) (sh wheel st c : Nat) (l : PageLoc) : State :=
  match s.wheel sh wheel with
  | none => s
  | some w =>
    let s := s.setWheel sh wheel { w with locs := Tab.set w.locs (st * 16 + c) l }
    match Tab.get? w.locs (st * 16 + c) with
    | some old => s.killUnit old
    | none => s

/-- Space a pool keeps back: `true` where FREE lies above `perMille` of CAP (R271). -/
def State.poolRoom (s : State) (pool perMille : Nat) : Bool :=
  let ms := bladesOf (s.rd (CARC_POOL.MEMBERS pool))
  decide (perMille * (ms.map s.allPlaces).sum < 1000 * (ms.map s.freePlaces).sum)

/-! ## Records of map switches (R220, R251) -/

/-- A location as the records carry it: blade, BAND, DPAGE and VALID as in a page-table entry (R260). -/
def locWord (l : Option PageLoc) : Nat :=
  match l with
  | some l => l.blade + l.band * 16 + l.dpage * 2 ^ 25 + 2 ^ 47
  | none => 0

/-- The key of a chunk, as OBJECT with the pool above it. -/
def chunkKey (pool obj : Nat) : Nat := obj + pool * 2 ^ 38

/-- A journaled map switch. -/
def State.journalMove (s : State) (sh key : Nat) (old : Option PageLoc) (new : PageLoc) : State :=
  (s.journal sh { type := Jt.move, epoch := 0, arg0 := key, arg1 := locWord (some new), arg2 := locWord old }).2

/-! ## The intent bitmap (R218, R219) -/

/-- The image of a bitmap page: bit i of the page is bit (i mod 8) of its byte i div 8. -/
def State.intentImage (s : State) (sh pool page : Nat) : List Byte :=
  (s.carc.bits.filter fun x => x.1 == sh && x.2.1 == pool && x.2.2 / 131072 == page).foldl (fun bs x =>
    let i := x.2.2 % 131072
    bs.set (i / 8) ((bs.getD (i / 8) 0) ||| BitVec.ofNat 8 (2 ^ (i % 8)))) (zeros 16384)

/-- The home lane of a shard: its lowest-numbered one. -/
def State.homeLane (s : State) (sh : Nat) : Option (Nat × Lane) := (s.cshard sh).lanes.head?

/-- The purpose of a band that holds intent pages. -/
def intentBand (sh lane : Nat) : Band := { kind := .journal, shard := sh, lane := lane, gc := true }

/-- Live intent pages of an object on a blade. -/
def State.intentPages (s : State) (b sh obj : Nat) : List PageLoc :=
  (s.cblade b).bands.flatMap fun e =>
    if e.2.shard == sh && e.2.kind == .journal then
      (e.2.units.filter fun u => u.kind == Pk.intent && u.obj == obj && u.live).map fun u => ⟨b, e.1, u.dpage⟩
    else []

/-- A bitmap page programmed on the blades of the home lane, its older copies live no longer; whether it is durable on
every replica. A page of zeros is not stored. -/
def State.putIntents (s : State) (sh pool page : Nat) : Bool × State :=
  match s.homeLane sh with
  | none => (false, s)
  | some (ln, _) =>
    let s := s.mendLane sh ln
    let lane : Lane := Tab.getD (s.cshard sh).lanes ln ⟨[], [], none⟩
    let obj := page + pool * 2 ^ 32
    let image := s.intentImage sh pool page
    let old := (List.range 16).flatMap fun b => s.intentPages b sh obj
    if image.all (· == 0) then (true, old.foldl State.killUnit s)
    else
      let (ws, s) := s.takeWseq sh
      let (ok, s) := (lane.blades.filter s.laneBlade).foldl (fun (a : Nat × State) b =>
        match a.2.writeUnit b sh (intentBand sh ln) [({ kind := Pk.intent, obj := obj, used := 16384, wseq := ws }, image)] 16 with
        | (some _, s) => (a.1 + 1, s)
        | (none, s) => (a.1, s)) (0, s)
      if ok = 0 ∨ ok < (lane.blades.filter s.laneBlade).length then (false, s) else (true, old.foldl State.killUnit s)

/-- Whether a chunk of a region is missing on a blade that is ONLINE or ABSENT, in a sealed wheel or one being written. -/
def State.regionMissing (s : State) (sh pool region : Nat) : Bool :=
  (s.cshard sh).wheels.any fun e => e.2.pool == pool && regionOf e.2.frame == region && !e.2.freed &&
    (List.range 32).any fun st =>
      let ln := s.line pool e.2.gen e.2.frame st
      let lost := s.lostCols pool e.2.gen e.2.frame st
      (List.range ln.length).any fun c => !lost.contains c && (Tab.get? e.2.locs (st * 16 + c)).isNone &&
        (s.carcSt (ln.getD c 0) == Cbs.online || s.carcSt (ln.getD c 0) == Cbs.absent)

/-- Whether a bit may be cleared. -/
def State.mayClear (s : State) (x : Nat × Nat × Nat) : Bool :=
  Tab.getD s.carc.opens (openKey x.1 x.2.1 x.2.2) 0 == 0 && !s.regionMissing x.1 x.2.1 x.2.2 && !s.carc.dirty.contains x

/-- Bits of a page that may be cleared leave it. -/
def State.clearBits (s : State) (sh pool page : Nat) : State :=
  s.setCarc { s.carc with bits := s.carc.bits.filter fun x =>
    !(x.1 == sh && x.2.1 == pool && x.2.2 / 131072 == page && s.mayClear x) }

/-- An intent taken on the region of a frame: whether a program was needed, or none where its bit could not be made durable
(R219). -/
def State.acquire (s : State) (sh pool frame : Nat) : Option Nat × State :=
  let r := regionOf frame
  let key := openKey sh pool r
  let up := fun (s : State) => (s.setCarc { s.carc with opens := Tab.set s.carc.opens key (Tab.getD s.carc.opens key 0 + 1) }).countIntents
  if s.carc.bits.contains (sh, pool, r) then (some 0, up s)
  else
    let s1 := (up s).clearBits sh pool (r / 131072)
    let s1 := s1.setCarc { s1.carc with bits := (sh, pool, r) :: s1.carc.bits }
    match s1.putIntents sh pool (r / 131072) with
    | (true, s) => (some 1, s)
    | (false, s2) => (none, (s2.setCarc { s2.carc with bits := s.carc.bits, opens := s.carc.opens }).countIntents)

/-! ## Patches (R220) -/

/-- Chunks of one stripe programmed to new pages on their blades and their location entries switched, each switch journaled.
Whether every one was programmed. -/
def State.rewriteCols (s : State) (sh wheel st : Nat) (cols : List (Nat × List Byte)) : Bool × State :=
  match s.wheel sh wheel with
  | none => (false, s)
  | some w =>
    let ln := s.line w.pool w.gen w.frame st
    let (news, s) := cols.foldl (fun (a : List (Nat × PageLoc) × State) c =>
      let obj := chunkObj w.frame st c.1
      match a.2.writeChunk (ln.getD c.1 0) sh (foldBand sh w.pool false) obj true c.2 with
      | (some l, s) => (a.1 ++ [(c.1, l)], s)
      | (none, s) => (a.1, s)) ([], s)
    if news.length < cols.length then (false, news.foldl (fun s x => s.killUnit x.2) s)
    else (true, news.foldl (fun s x =>
      let s := s.journalMove sh (chunkKey w.pool (chunkObj w.frame st x.1)) (Tab.get? w.locs (st * 16 + x.1)) x.2
      s.setLoc sh wheel st x.1 x.2) s)

/-- The chunks that hold a stored copy are taken for unreadable: each is reconstructed and rewritten on its blade (R167). -/
def State.repairCopy (s : State) (sh l : Nat) : State :=
  let l := s.locNow sh l
  if locJournal l then s
  else match s.wheel sh (locWheel l) with
    | none => s
    | some w => match Tab.get? w.curds (locOff l) with
      | none => s
      | some (n, _) =>
        let k := genK (s.genEntry w.pool w.gen)
        let a := locOff l / 65536
        (List.range ((locOff l + n + 65535) / 65536 - a)).foldl (fun s i =>
          match s.decodeCols w ((a + i) / k) 0 65536 [(a + i) % k] with
          | (some ds, s) => (s.rewriteCols sh (locWheel l) ((a + i) / k) (ds.map fun d => ((a + i) % k, d))).2
          | (none, s) => s) s

/-- The plain block of a stored copy, its chunks reconstructed once where it fails its checks (R167). -/
def State.storedBlock (s : State) (sh l : Nat) : Option (List Byte) × State :=
  match s.copyBlock sh l with
  | (.ok b, s) => (some b, s)
  | (.error e, s) => if curdBad e then
      (match ((s.curdEvent l e).repairCopy sh l).copyBlock sh l with
        | (.ok b, s) => (some b, s)
        | (.error e, s) => (none, s.curdEvent l e))
    else (none, s)

/-- The band a shard patches into on a blade. It takes nothing else, so the places that a patch record names stand free when
the record is durable (log entry 137). -/
def patchBand (sh pool : Nat) : Band := { kind := .main, shard := sh, pool := pool, patch := true }

/-- Columns that a patch of data column `j` writes: it and the parities. -/
def patchCols (e : List Byte) (j : Nat) : List Nat := j :: (List.range (genP e)).map (genK e + ·)

/-- Places of a stripe's columns as a record carries them. -/
def locBytes (ls : List (Option PageLoc)) : List Byte := ls.flatMap fun l => leBytes 8 (locWord l)

/-- Steps 1 and 2 of a patch (R220): the intent, the new places, the patch record. -/
def State.patchOpen (s : State) (sh wheel st j : Nat) (w : Wheel) : State :=
  let cols := patchCols (s.genEntry w.pool w.gen) j
  let ln := s.line w.pool w.gen w.frame st
  match s.acquire sh w.pool w.frame with
  | (none, s) => s
  | (some _, s) =>
    let (news, s) := cols.foldl (fun (a : List (Nat × PageLoc) × State) c =>
      match a.2.bandFor (ln.getD c 0) sh (patchBand sh w.pool) none with
      | (some n, s) => (a.1 ++ [(c, ⟨ln.getD c 0, n, ((s.band (ln.getD c 0) n).map (·.next)).getD 0⟩)], s)
      | (none, s) => (a.1, s)) ([], s)
    if news.length < cols.length then (s.giveBack sh w.pool w.frame).2
    else
      let (jsn, s) := s.journal sh {
        type := Jt.patch, epoch := 0, arg0 := chunkKey w.pool (chunkObj w.frame st j)
        payload := locBytes (cols.map fun c => Tab.get? w.locs (st * 16 + c)) ++ locBytes (news.map fun x => some x.2) }
      s.setCshard sh { s.cshard sh with patch := some { wheel := wheel, stripe := st, col := j, jsn := jsn, news := news } }

/-- A patch given up: what it wrote is garbage, and its owner begins again (R221). -/
def State.patchDrop (s : State) (sh : Nat) (w : Wheel) (wrote : List PageLoc) : State :=
  let s := wrote.foldl State.killUnit s
  ((s.setCshard sh { s.cshard sh with patch := none }).giveBack sh w.pool w.frame).2

/-- Steps 3 to 7 of a patch whose record is durable: the old chunk and parities read, the parities changed by the difference,
every new page programmed at its place, the map switched, the done record journaled. -/
def State.patchRun (s : State) (sh : Nat) (p : Patch) (w : Wheel) (new : List Byte) : State :=
  let k := genK (s.genEntry w.pool w.gen)
  let (olds, s) := (p.news.map (·.1)).foldl (fun (a : List (List Byte) × State) c =>
    match a.2.colBytes w p.stripe c 0 65536 with
    | (some d, s) => (a.1 ++ [d], s)
    | (none, s) => (a.1, s)) ([], s)
  if olds.length < p.news.length ∨ !s.carcLane then s
  else
    let delta := xorBytes (olds.headD []) new
    let out := (p.news.zip olds).map fun x =>
      (x.1.1, x.1.2, if x.1.1 < k then new else xorBytes x.2 (gfScale (gfCoef (x.1.1 - k) p.col) delta))
    let (wrote, s) := out.foldl (fun (a : List PageLoc × State) x =>
      match a.2.writeChunk x.2.1.blade sh (patchBand sh w.pool) (chunkObj w.frame p.stripe x.1) true x.2.2 with
      | (some l, s) => (a.1 ++ [l], s)
      | (none, s) => (a.1, s)) ([], s)
    if wrote ≠ out.map (·.2.1) then s.patchDrop sh w wrote
    else
      let s := out.foldl (fun s x =>
        (s.journalMove sh (chunkKey w.pool (chunkObj w.frame p.stripe x.1)) (Tab.get? w.locs (p.stripe * 16 + x.1)) x.2.1).setLoc sh
          p.wheel p.stripe x.1 x.2.1) s
      let s := (s.journal sh { type := Jt.patchDone, epoch := 0, arg0 := p.jsn }).2
      s.setCshard sh { s.cshard sh with patch := some { p with ran := true } }

/-- A data column of a sealed stripe replaced (R220): false until the patch's done record is on every live replica. A stripe
with a missing chunk waits for its rebuild (R229), and one patch of a shard waits for another. -/
def State.patch (s : State) (sh wheel st j : Nat) (new : List Byte) : Bool × State :=
  match s.wheel sh wheel with
  | none => (false, s)
  | some w =>
    if !(s.missingCols w st).isEmpty then (false, s)
    else match (s.cshard sh).patch with
      | some p =>
        if p.wheel = wheel ∧ p.stripe = st ∧ p.col = j ∧ p.ran = false ∧ ((s.jrec sh p.jsn).map (·.confirmed)) = some true then
          (false, s.patchRun sh p w new)
        else (false, s)
      | none => match s.colBytes w st j 0 65536 with
        | (none, s) => (false, s)
        | (some d, s) => if d = new then (true, s) else (false, s.patchOpen sh wheel st j w)

/-- Whether a stripe is being patched. -/
def State.patching (s : State) (sh wheel st : Nat) : Bool := match (s.cshard sh).patch with
  | some p => p.wheel == wheel && p.stripe == st
  | none => false

end Sys2Proof.Machine
end

