-- ==== Sys2Proof/Machine/Folds.lean ====
section
/-! DEFINITION. Folds, reclaim and refolding, band garbage collection and wear levelling (R208, R229, R255, R256, R264,
R265, R269, R271). -/
namespace Sys2Proof.Machine
open Sys2Proof

/-! ## New wheels (R206, R208, R256) -/

/-- A frame copied into a SET curd: its owner, the tenant of its key, the LOCATOR it leaves, its bytes, RAW and check. -/
structure FoldItem where
  owner : Nat
  tenant : Nat
  old : Nat
  bytes : List Byte
  raw : Bool
  crc : Nat
deriving DecidableEq, Repr

/-- A curd for a new wheel: its plain bytes, tenant, and by block the LOCATOR it leaves (none: a block that is not live) with
its live bytes. -/
structure NewCurd where
  bytes : List Byte
  tenant : Nat
  olds : List (Option (Nat × Nat))
deriving DecidableEq, Repr

/-- Items in groups of up to 8, in order. -/
def groups8 {α : Type} : Nat → List α → List (List α)
  | 0, _ => []
  | n + 1, l => if l.isEmpty then [] else l.take 8 :: groups8 n (l.drop 8)

/-- A SET curd of copied frames. -/
def framesCurd (owner : Nat) (xs : List FoldItem) : List Byte :=
  let payload := xs.flatMap (·.bytes)
  let pad := fun (t : List Nat) => t ++ List.replicate (8 - t.length) 0
  let c : Curd := ⟨Ck.set, xs.length, owner, 0, payload.length, pad (xs.map (·.bytes.length)), xs.map (·.raw), pad (xs.map (·.crc))⟩
  c.bytes ++ payload ++ zeros (alignUp (96 + payload.length) 32 - (96 + payload.length))

/-- The SET curds of items: each owner's, in order, by eights. -/
def setCurds (xs : List FoldItem) : List NewCurd :=
  let owners := xs.foldl (fun (a : List Nat) x => if a.contains x.owner then a else a ++ [x.owner]) []
  owners.flatMap fun o => (groups8 xs.length (xs.filter (·.owner == o))).map fun g =>
    { bytes := framesCurd o g, tenant := (g.head?.map (·.tenant)).getD 0, olds := g.map fun x => some (x.old, x.bytes.length) }

/-- Curd capacity of a wheel of a generation. -/
def State.wheelCap (s : State) (pool gen : Nat) : Nat := 32 * genK (s.genEntry pool gen) * 65536

/-- The lowest free frame of a shard in a pool. -/
def State.freeFrame (s : State) (sh pool : Nat) : Option Nat :=
  let used := (s.cshard sh).frames
  (((List.range (used.length + 1)).map fun i => i * 256 + sh).find? fun f => !used.contains (pool, f)).bind fun f =>
    if f < 2 ^ 29 then some f else none

/-- Older LOCATORs of a block: the one it leaves, and those its wheel remembers. -/
def State.olderLocs (s : State) (sh l : Nat) : List Nat :=
  l :: (if locJournal l then [] else match s.wheel sh (locWheel l) with
    | some w => (w.from_.filter fun p => p.1 == l).map (·.2)
    | none => [])

/-- One stripe of a new frame: data and parity columns programmed on the blades of its line, without those that are ABSENT
or lost (R210, R219).
None where a program cannot be made, or no lane encodes (R235). -/
def State.writeStripe (s : State) (sh pool gen frame st : Nat) (data : List (List Byte)) : Option (List (Nat × PageLoc)) × State :=
  let ln := s.line pool gen frame st
  let k := genK (s.genEntry pool gen)
  (List.range ln.length).foldl (fun (a : Option (List (Nat × PageLoc)) × State) c =>
    match a.1 with
    | none => a
    | some ls =>
      if !a.2.carcLane then (none, ls.foldl (fun s x => s.killUnit x.2) a.2)
      else if a.2.carcSt (ln.getD c 0) ≠ Cbs.online then a
      else match a.2.writeChunk (ln.getD c 0) sh (foldBand sh pool false) (chunkObj frame st c) false (columnOf k 65536 data c) with
        | (some l, s) => (some (ls ++ [(st * 16 + c, l)]), s)
        | (none, s) => (none, ls.foldl (fun s x => s.killUnit x.2) s)) (some [], s)

/-- Stripes of a new frame from `st` on; `xs` is the curd data left. -/
def State.writeStripes (s : State) (sh pool gen frame : Nat) : Nat → Nat → List Byte → List (Nat × PageLoc) →
    Option (List (Nat × PageLoc)) × State
  | 0, _, _, ls => (some ls, s)
  | n + 1, st, xs, ls =>
    let k := genK (s.genEntry pool gen)
    let part := xs.take (k * 65536) ++ zeros (k * 65536 - xs.length)
    match s.writeStripe sh pool gen frame st ((List.range k).map fun j => slice part (65536 * j) 65536) with
    | (some l, s) => s.writeStripes sh pool gen frame n (st + 1) (xs.drop (k * 65536)) (ls ++ l)
    | (none, s) => (none, ls.foldl (fun s x => s.killUnit x.2) s)

/-- A wheel of curds written, not yet sealed: its number and the pairs of LOCATORs its SEAL records name. -/
def State.newWheel (s : State) (sh pool : Nat) (cs : List NewCurd) : Option (Nat × List (Nat × Nat)) × State :=
  let gen := s.rd (CARC_POOL.CUR_GEN pool)
  match s.freeFrame sh pool with
  | none => (none, s)
  | some f =>
    let x := s.cshard sh
    let w := x.nextWheel % 2 ^ 40
    let placed := (cs.foldl (fun (a : Nat × List (Nat × NewCurd)) c => (a.1 + c.bytes.length, a.2 ++ [(a.1, c)])) (0, [])).2
    let enc := placed.filterMap fun p => s.cryptCurd true p.2.tenant (curdLoc w p.1 0) sh p.2.bytes
    if !genValid (s.genEntry pool gen) ∨ enc.length < cs.length then (none, s)
    else
      let s := s.setCshard sh { x with nextWheel := x.nextWheel + 1, frames := (pool, f) :: x.frames }
      let absent := (bladesOf (genMembers (s.genEntry pool gen))).any fun b => s.carcSt b != Cbs.online
      let (held, s) := if absent then s.acquire sh pool f else (some 0, s)
      let (ls, s) := if held.isNone then (none, s) else s.writeStripes sh pool gen f 32 0 enc.flatten []
      let s := if absent ∧ held.isSome then (s.giveBack sh pool f).2 else s
      match ls with
      | none => (none, s.setCshard sh { s.cshard sh with frames := (s.cshard sh).frames.filter (· != (pool, f)) })
      | some ls =>
        let blocks := placed.flatMap fun p => p.2.olds.zipIdx.filterMap fun o => o.1.map fun y => (y.1, curdLoc w p.1 o.2, y.2)
        let wheel : Wheel := {
          pool := pool, gen := gen, frame := f, bytes := enc.flatten.length
          live := (blocks.foldl (fun t y => Tab.set t (y.2.1 / 2 ^ 40) y.2.2) [])
          locs := (ls.foldl (fun t y => Tab.set t y.1 y.2) [])
          curds := (placed.foldl (fun t p => Tab.set t p.1 (p.2.bytes.length, p.2.tenant)) [])
          from_ := (blocks.flatMap fun y => (s.olderLocs sh y.1).map fun o => (y.2.1, o)) }
        (some (w, blocks.map fun y => (y.1, y.2.1)), s.setWheel sh w wheel)

/-- The SEAL records of a wheel journaled; the last one carries what waits for it. -/
def State.journalSeals (s : State) (sh wheel : Nat) (done : JDone) : Nat → List (Nat × Nat) → State
  | 0, _ => s
  | n + 1, ps =>
    match s.wheel sh wheel with
    | none => s
    | some w =>
      let more := decide (262 < ps.length)
      let payload := (ps.take 262).flatMap fun p => leBytes 8 p.1 ++ leBytes 8 p.2
      let s := (s.journal sh {
        type := Jt.seal, more := more, epoch := 0, arg0 := wheelId sh wheel, arg1 := w.pool + w.gen * 16 + w.frame * 2 ^ 12, arg2 := w.bytes
        payload := payload, done := if more then .none else done }).2
      if more then s.journalSeals sh wheel done n (ps.drop 262) else s

/-! ## Folds (R255, R256) -/

/-- The pool that the data of a record go to. -/
def State.recPool (s : State) (r : JRec) : Nat := volPool (s.volEntry (argVol r.arg0))

/-- The records of a pool a fold may take, in JSN order. -/
def State.foldable (s : State) (sh pool : Nat) : List (Nat × JRec) :=
  (s.cshard sh).recs.filter fun e =>
    e.2.type == Jt.data && e.2.confirmed && e.2.folded.isNone && !e.2.dead && s.recPool e.2 == pool

/-- The first records whose payloads fit a capacity. -/
def fitting : Nat → List (Nat × JRec) → List (Nat × JRec)
  | _, [] => []
  | room, e :: es => if e.2.payload.length ≤ room then e :: fitting (room - e.2.payload.length) es else []

/-- The frame a record holds, read from one live replica and decrypted. -/
def State.recItem (s : State) (sh jsn : Nat) (r : JRec) : Option FoldItem × State :=
  let l := journalLoc sh jsn
  let (bs, s) := s.copyCurd sh l
  (bs.bind fun b => match curdParse b with
    | .ok c => some {
        owner := volOwner (s.volEntry (argVol r.arg0)) (argVol r.arg0), tenant := s.recTenant r, old := l,
        bytes := slice b 96 (c.lens.getD 0 0), raw := c.raws.getD 0 false, crc := c.crcs.getD 0 0 }
    | .error _ => none, s)

/-- A fold of one pool of a shard into one wheel: the wheel, its pairs. Nothing happens where there is nothing to fold, or
the pool has no room for folding (R271). -/
def State.foldPool (s : State) (sh pool : Nat) : Option (Nat × List (Nat × Nat)) × State :=
  let rs := fitting (s.wheelCap pool (s.rd (CARC_POOL.CUR_GEN pool))) (s.foldable sh pool)
  if rs.isEmpty ∨ !s.poolRoom pool (s.rd (CELL_POOL_RES.GC_RES pool)) then (none, s)
  else
    let (items, s) := rs.foldl (fun (a : List FoldItem × State) e =>
      match a.2.recItem sh e.1 e.2 with
      | (some i, s) => (a.1 ++ [i], s)
      | (none, s) => (a.1, s)) ([], s)
    if items.isEmpty then (none, s)
    else match s.newWheel sh pool (setCurds items) with
      | (none, s) => (none, s)
      | (some (w, ps), s) =>
        let x := s.cshard sh
        let mark := fun (t : Tab JRec) (p : Nat × Nat) => match Tab.get? t (locJsn p.1) with
          | some r => Tab.set t (locJsn p.1) { r with folded := some p.2 }
          | none => t
        let s := s.setCshard sh { x with recs := ps.foldl mark x.recs }
        (some (w, ps), s.countUnfolded sh)

/-- Folds of a list of pools until each has nothing left to fold: wheels and pairs. -/
def State.foldAll (s : State) (sh : Nat) : Nat → List Nat → List (Nat × List (Nat × Nat)) × State
  | 0, _ => ([], s)
  | _, [] => ([], s)
  | n + 1, p :: ps =>
    match s.foldPool sh p with
    | (none, s) => s.foldAll sh n ps
    | (some w, s) =>
      let (ws, s) := s.foldAll sh n (p :: ps)
      (w :: ws, s)

/-- The SEAL records of folded wheels journaled for a descriptor or none. -/
def State.sealAll (s : State) (sh : Nat) (d : Option DescRef) (old : Option Nat) (ws : List (Nat × List (Nat × Nat))) : State :=
  let done := JDone.fold d ((ws.map (·.2.length)).sum) (ws.map (·.1)) old
  ws.foldl (fun s w => s.journalSeals sh w.1 done (w.2.length + 1) w.2) s

/-! ## Reclaim (R265) -/

/-- Live blocks of a curd at byte `off` of a wheel, by index. -/
def Wheel.liveIdx (w : Wheel) (off : Nat) : List Nat := (List.range 8).filter fun i => (Tab.get? w.live (off / 32 + i * 2 ^ 20)).isSome

/-- The frames of some blocks of a JOURNAL or SET curd. -/
def curdItems (bs : List Byte) (tenant : Nat) (idx : List Nat) (old : Nat → Nat) : List FoldItem :=
  let c := curdOf bs
  idx.map fun i => {
    owner := c.owner, tenant := tenant, old := old i, bytes := slice bs (c.start i) (c.lens.getD i 0)
    raw := c.raws.getD i false, crc := c.crcs.getD i 0 }

/-- Blocks of a PACKED curd recast into one new curd under its dictionary, at the level of the owner's domain (R168). -/
def State.recastBlocks (s : State) (bs : List Byte) (tenant : Nat) (idx : List Nat) (old : Nat → Nat) : Option NewCurd :=
  let c := curdOf bs
  match idx.mapM fun i => (curdRead s.dicts bs i).toOption.bind List.head? with
  | none => none
  | some bks =>
    let level := if c.owner.testBit 31 then 0 else domLevel (s.domEntry c.owner)
    let out := curdCompress s.dicts c.owner level c.dict bks
    let h := curdOf out
    some { bytes := out, tenant := tenant, olds := idx.zipIdx.map fun i => some (old i.1, if h.kind = Ck.packed then h.stored / h.count else h.lens.getD i.2 0) }

/-- What a refold takes from one curd: a whole curd, or frames, or a recast; none where it cannot be read. -/
def State.refoldCurd (s : State) (sh wheel off : Nat) (w : Wheel) (no : List Nat) : Option (List NewCurd × List FoldItem) × State :=
  let idx := (w.liveIdx off).filter fun i => !no.contains (curdLoc wheel off i)
  if idx.isEmpty then (some ([], []), s)
  else match s.copyCurd sh (curdLoc wheel off 0) with
    | (none, s) => (none, s)
    | (some bs, s) =>
      let tenant := ((Tab.get? w.curds off).map (·.2)).getD 0
      match curdParse bs with
      | .error _ => (none, s)
      | .ok c =>
        let old := curdLoc wheel off
        if idx.length = c.count then
          (some ([{ bytes := bs, tenant := tenant, olds := idx.map fun i => some (old i, Tab.getD w.live (off / 32 + i * 2 ^ 20) 0) }], []), s)
        else if c.kind = Ck.packed then
          (match s.useDicts (curdDicts s.dicts bs 15) with
            | none => (none, s.headLost)
            | some s => match s.recastBlocks bs tenant idx old with
              | some n => (some ([n], []), s)
              | none => (none, s))
        else (some ([], curdItems bs tenant idx old), s)

/-- The live blocks of a wheel refolded into a new one of the current generation. None where one cannot be read or
written; a wheel without a live block needs no new one. -/
def State.refold (s : State) (sh wheel : Nat) : Option (List (Nat × List (Nat × Nat))) × State :=
  match s.wheel sh wheel with
  | none => (none, s)
  | some w =>
    let (xs, s) := w.curds.foldl (fun (a : Option (List NewCurd × List FoldItem) × State) e =>
      match a.1 with
      | none => a
      | some (ns, is) => match a.2.refoldCurd sh wheel e.1 w [] with
        | (some (n, i), s) => (some (ns ++ n, is ++ i), s)
        | (none, s) => (none, s)) (some ([], []), s)
    match xs with
    | none => (none, s)
    | some (ns, is) =>
      let cs := ns ++ setCurds is
      if cs.isEmpty then (some [], s)
      else match s.newWheel sh w.pool cs with
        | (some x, s) => (some [x], s)
        | (none, s) => (none, s)

/-- Whether a running rebuild has pinned the frame of a wheel: its stripes are the next to be rebuilt (R229). -/
def State.pinned (s : State) (sh wheel : Nat) : Bool :=
  s.carc.running.any fun b => match (s.rebuildWork b).head? with
    | some x => x.1 == sh && x.2.1 == wheel
    | none => false

/-- Whether a wheel may be reclaimed. -/
def State.mayReclaim (s : State) (sh wheel : Nat) : Bool :=
  match s.wheel sh wheel with
  | some w => w.sealed && !w.freed && !s.pinned sh wheel && !((s.cshard sh).patch.any (·.wheel == wheel))
  | none => false

/-- A wheel reclaimed for a descriptor or none; whether it was begun. -/
def State.reclaim (s : State) (sh wheel : Nat) (d : Option DescRef) : Bool × State :=
  match s.refold sh wheel with
  | (none, s) => (false, s)
  | (some [], s) =>
    let s := s.freeWheel sh wheel
    (true, match d with
      | some d => s.finish .cell d St.success 0 0
      | none => s)
  | (some ws, s) => (true, s.sealAll sh d (some wheel) ws)

/-- Live curd bytes of a wheel. -/
def Wheel.liveBytes (w : Wheel) : Nat := (w.live.map (·.2)).sum

/-! ## Band garbage collection (R264, R269) -/

/-- The wheel whose frame a chunk belongs to. -/
def State.frameWheel (s : State) (sh pool frame : Nat) : Option (Nat × Wheel) :=
  (s.cshard sh).wheels.find? fun e => e.2.pool == pool && e.2.frame == frame && !e.2.freed

/-- One live chunk of a band moved to the GC band of its shard on the same blade. A chunk no location entry names is
garbage. -/
def State.moveChunk (s : State) (b n : Nat) (y : Band) (u : CUnit) : Bool × State :=
  let l : PageLoc := ⟨b, n, u.dpage⟩
  let key := bitsOf u.obj 29 5 * 16 + bitsOf u.obj 34 4
  match s.frameWheel y.shard y.pool (u.obj % 2 ^ 29) with
  | none => (true, s.killUnit l)
  | some (w, x) =>
    if s.patching y.shard w (key / 16) then (false, s)
    else if Tab.get? x.locs key ≠ some l then (if x.pre.any (·.2 == l) then (false, s) else (true, s.killUnit l))
    else match s.chunkPart l 0 65536 with
      | (none, s) => (false, s)
      | (some d, s) => match s.writeChunk b y.shard (foldBand y.shard y.pool true) u.obj false d with
        | (none, s) => (false, s)
        | (some new, s) => (true, s.setLoc y.shard w (key / 16) (key % 16) new)

/-- Every live chunk of a band moved; whether all were. -/
def State.emptyMain (s : State) (b n : Nat) : Bool × State :=
  match s.band b n with
  | none => (true, s)
  | some y => (y.units.filter (·.live)).foldl (fun (a : Bool × State) u =>
      let (ok, s) := a.2.moveChunk b n y u
      (a.1 && ok, s)) (true, s)

/-- Live units of a band. -/
def Band.liveUnits (y : Band) : Nat := (y.units.filter (·.live)).length

/-- The victim of a shard on a blade: the CLOSED MAIN band with the fewest live chunk places. -/
def State.victim (s : State) (b sh : Nat) : Option (Nat × Band) :=
  ((s.cblade b).bands.filter fun e => e.2.kind == .main && e.2.st == .closed && e.2.shard == sh).foldl
    (fun (m : Option (Nat × Band)) e => match m with
      | none => some e
      | some x => if e.2.liveUnits < x.2.liveUnits then some e else some x) none

/-- The CLOSED MAIN band with live chunks that has the lowest EC on a blade, and the highest EC of any band. -/
def State.wearSpread (s : State) (b : Nat) : Option (Nat × Band) × Nat :=
  let c := s.cblade b
  (((c.bands.filter fun e => e.2.kind == .main && e.2.st == .closed && 0 < e.2.liveUnits).foldl
    (fun (m : Option (Nat × Band)) e => match m with
      | none => some e
      | some x => if e.2.ec < x.2.ec then some e else some x) none),
    max ((c.bands.map (·.2.ec)).foldl max 0) ((c.ecs.map (·.2)).foldl max 0))

end Sys2Proof.Machine
end

