-- ==== Sys2Proof/Machine/Ckpt.lean ====
section
/-! DEFINITION. Checkpoints: metadata pages, root, anchors, release of journal pages, the erase fence (R258 to R263). -/
namespace Sys2Proof.Machine
open Sys2Proof

/-! ## What a checkpoint holds (R258 to R260) -/

/-- Whether a record is confirmed and applied. -/
def State.applied (s : State) (r : JRec) : Bool := r.confirmed && (r.type != Jt.ref || s.pairConfirmed r)

/-- CUT_JSN: the first record that is not confirmed and applied. -/
def State.cutJsn (s : State) (sh : Nat) : Nat :=
  (((s.cshard sh).recs.filter fun e => !s.applied e.2).head?.map (·.1)).getD (s.cshard sh).nextJsn

/-- Bands of a shard, by blade. -/
def State.shardBands (s : State) (sh : Nat) : List (Nat × Nat × Band) :=
  s.cell.blades.flatMap fun c => (c.2.bands.filter fun e => e.2.shard == sh && e.2.kind != .anchor).map fun e => (c.1, e.1, e.2)

/-- What the metadata pages of a checkpoint hold. -/
def State.snapshot (s : State) (sh cut : Nat) : Snapshot :=
  let x := s.cshard sh
  { gen := s.rd (CELL_SHARD.CKPT_GEN sh) + 1, epoch := s.rd (LEASE_EPOCH.EPOCH sh), cut := cut, wseqHw := x.nextWseq - 1
    nextWheel := x.nextWheel, cat := x.cat, wheels := x.wheels, fwd := x.fwd, bands := s.shardBands sh
    recs := x.recs.filter fun e => decide (e.1 < cut)
    pages := x.pages.filter fun p => !p.2.released
    bits := (s.carc.bits.filter (·.1 == sh)).map (·.2), runs := x.runs, lost := x.lost }

/-- Metadata pages a snapshot takes. Their layout is not given: the count follows the sizes R257 and R258 name. -/
def Snapshot.pageCount (x : Snapshot) : Nat :=
  (x.cat.length * 24 + x.wheels.length * (64 + 32 * 16 * 8) + x.fwd.length * 16 + x.bands.length * 8 + x.runs.length * 48) / 16384 + 1

/-- State of a band in a root's band entry. -/
def BandSt.code : BandSt → Nat
  | .open_ => 1
  | .closed => 2
  | .empty => 3
  | .erasing => 4
  | .retired => 5

/-- A band entry of a root. -/
def bandEntry (b n : Nat) (y : Band) : List Byte := leBytes 8 (b + n * 16 + y.st.code * 2 ^ 25 + y.fence % 2 ^ 32 * 2 ^ 28)

/-- A page-table entry of a root. -/
def pageEntry (no : Nat) (ls : List PageLoc) : List Byte :=
  leBytes 4 no ++ zeros 4 ++ (List.range 4).flatMap fun i => leBytes 6 (locWord ls[i]?)

/-- The bytes of a root. -/
def State.rootBytes (s : State) (sh : Nat) (x : Snapshot) (table : List (Nat × List PageLoc)) : List Byte :=
  let bands := (s.shardBands sh).filter fun e => e.2.2.st == .open_ || e.2.2.st == .empty || e.2.2.st == .erasing
  let entries := (bands.flatMap fun e => bandEntry e.1 e.2.1 e.2.2) ++ table.flatMap fun e => pageEntry e.1 e.2
  let head := leBytes 2 0xCE0A ++ leBytes 1 1 ++ zeros 1 ++ leBytes 1 sh ++ zeros 3 ++ leBytes 8 x.epoch ++ leBytes 4 x.gen ++
    zeros 4 ++ leBytes 8 x.cut ++ leBytes 8 x.wseqHw ++ leBytes 8 x.nextWheel ++ leBytes 4 table.length ++
    leBytes 4 bands.length ++ zeros 4
  head ++ leBytes 4 (crc32c (head ++ entries)) ++ entries

/-- A root location of an anchor record. -/
def rootLoc (l : Option PageLoc) : Nat :=
  match l with
  | some l => l.blade + l.band * 16 + l.dpage * 2 ^ 25 + 2 ^ 63
  | none => 0

/-- An anchor record. -/
def anchorBytes (head sh epoch gen pages : Nat) (roots : List PageLoc) : List Byte :=
  let bs := leBytes 2 0xCEA0 ++ leBytes 1 1 ++ leBytes 1 head ++ leBytes 1 sh ++ zeros 3 ++ leBytes 8 epoch ++ leBytes 4 gen ++
    leBytes 4 pages ++ ((List.range 4).flatMap fun i => leBytes 8 (rootLoc roots[i]?)) ++ zeros 4
  bs ++ leBytes 4 (crc32c bs)

/-! ## Writing it (R259) -/

/-- The purpose of a META band. -/
def metaBand (sh : Nat) : Band := { kind := .meta_, shard := sh }

/-- One page written to a META band of each blade: its places. None where a blade takes no band. -/
def State.putMeta (s : State) (sh no gen : Nat) (blades : List Nat) (data : List Byte) : Option (List PageLoc) × State :=
  let (ws, s) := s.takeWseq sh
  let h : PageHead := { kind := Pk.meta_, obj := no + gen * 2 ^ 32, used := min data.length 16384, wseq := ws }
  blades.foldl (fun (a : Option (List PageLoc) × State) b =>
    match a.1 with
    | none => a
    | some ls => match a.2.writeUnit b sh (metaBand sh) [(h, fullPage data)] 16 with
      | (some (n, d), s) => (some (ls ++ [⟨b, n, d⟩]), s)
      | (none, s) => (none, s)) (some [], s)

/-- The metadata pages of a checkpoint: page numbers with their places. Their bytes are free: the manual gives them no
layout. -/
def State.putMetas (s : State) (sh gen : Nat) (blades : List Nat) : Nat → Nat → List (Nat × List PageLoc) →
    Option (List (Nat × List PageLoc)) × State
  | 0, _, acc => (some acc, s)
  | n + 1, no, acc =>
    match s.draw.putMeta sh no gen blades (s.freeBytes 16384) with
    | (some ls, s) => s.putMetas sh gen blades n (no + 1) (acc ++ [(no, ls)])
    | (none, s) => (none, s)

/-- A META band of a blade with room for `n` consecutive pages is made the open one: a fuller one is closed. -/
def State.metaRoom (s : State) (b sh n : Nat) : State :=
  match s.openBand b (fun y => y.kind == .meta_ && y.shard == sh) with
  | none => s
  | some k => match s.band b k with
    | some y => if y.next + n ≤ (s.stripes b .meta_ - 1) * 15 then s else (s.closeBand b k false none).emptyBand b k
    | none => s

/-- The root written in consecutive pages of one META band of each blade: the place of its first page on each. Its pages
take the metadata page numbers that follow the last (log entry 31). -/
def State.putRoot (s : State) (sh gen no : Nat) (blades : List Nat) (bytes : List Byte) : Option (List PageLoc) × State :=
  let n := max 1 ((bytes.length + 16383) / 16384)
  let (ws, s) := s.takeWseq sh
  let pages := (List.range n).map fun i =>
    (({ kind := Pk.meta_, obj := no + i + gen * 2 ^ 32, used := min (bytes.length - 16384 * i) 16384, wseq := ws } : PageHead),
      fullPage (slice bytes (16384 * i) 16384))
  blades.foldl (fun (a : Option (List PageLoc) × State) b =>
    match a.1 with
    | none => a
    | some ls => match (a.2.metaRoom b sh n).writeUnit b sh (metaBand sh) pages 16 with
      | (some (k, d), s) => (some (ls ++ [⟨b, k, d⟩]), s)
      | (none, s) => (none, s)) (some [], s)

/-! ## Anchors (R259, R260) -/

/-- The head's two ANCHOR bands. -/
def State.anchorBands (s : State) : List Nat := [2 * s.rd CELL_CTL.HEAD, 2 * s.rd CELL_CTL.HEAD + 1]

/-- The current ANCHOR band of a blade: the one of the head's two that is open. -/
def State.anchorBand (s : State) (b : Nat) : Nat :=
  (s.anchorBands.find? fun n => ((s.band b n).map fun y => y.st == .open_).getD false).getD (2 * s.rd CELL_CTL.HEAD)

/-- A page of an anchor record appended to a band; whether it was programmed. -/
def State.appendAnchor (s : State) (b n : Nat) (bytes : List Byte) : Bool × State :=
  let s := match s.band b n with
    | some _ => s
    | none => s.setBand b n { kind := .anchor, shard := 0 }
  let (st, s) := s.putPage b n { kind := Pk.anchor, obj := 0, used := bytes.length, wseq := 0 } bytes none
  (st == St.success, s)

/-- The 16 blocks of an ANCHOR band erased. -/
def State.eraseAnchors (s : State) (b n : Nat) : State :=
  let y := (s.band b n).getD { kind := .anchor, shard := 0 }
  let s := (List.range 16).foldl (fun s k => (s.bladeSync b (eraseCmd 0 k (Tab.getD y.subst k n) false)).2) s
  s.setBand b n { kind := .anchor, shard := 0, subst := y.subst }

/-- The latest anchor of every other shard the head owns, as the current snapshots give them. -/
def State.otherAnchors (s : State) (sh : Nat) : List (List Byte) :=
  s.cell.shards.filterMap fun x =>
    if x.1 = sh ∨ s.rd (CELL_SHARD.CKPT_GEN x.1) = 0 ∨ x.2.rootAt.isEmpty then none
    else some (anchorBytes (s.rd CELL_CTL.HEAD) x.1 (s.rd (LEASE_EPOCH.EPOCH x.1)) (s.rd (CELL_SHARD.CKPT_GEN x.1)) x.2.rootPages x.2.rootAt)

/-- An anchor record appended to the head's current ANCHOR band of a blade. A full band gives way to the other one, erased
first, which begins with the latest anchors of the head's shards. -/
def State.putAnchor (s : State) (b sh : Nat) (bytes : List Byte) : Bool × State :=
  let n := s.anchorBand b
  let y := (s.band b n).getD { kind := .anchor, shard := 0 }
  if y.next < (s.stripes b .anchor - 1) * 15 then s.appendAnchor b n bytes
  else
    let m := if n = 2 * s.rd CELL_CTL.HEAD then n + 1 else n - 1
    let s := (s.eraseAnchors b m).setBand b n { y with st := .closed }
    let s := (s.otherAnchors sh).foldl (fun s a => (s.appendAnchor b m a).2) s
    s.appendAnchor b m bytes

/-! ## Release of journal pages and the erase fence (R261 to R263) -/

/-- Whether a record lets go of its page at a cut. -/
def State.recReleased (s : State) (sh cut jsn : Nat) : Bool :=
  decide (jsn < cut) && (match s.jrec sh jsn with
    | none => true
    | some r => r.type != Jt.data || r.dead || (match r.folded with
      | some l => (match s.wheel sh (locWheel l) with
        | some w => w.freed || (w.sealed && decide (w.sealJsn < cut))
        | none => true)
      | none => false))

/-- Journal pages that the latest durable checkpoint lets go are released (R261). -/
def State.releasePages (s : State) (sh cut : Nat) : State :=
  (s.cshard sh).pages.foldl (fun s p =>
    if p.2.released || !(p.2.recs.all (s.recReleased sh cut)) then s
    else
      let s := s.setJpage sh p.1 { p.2 with released := true }
      p.2.reps.foldl (fun s r => s.killUnit r.1) s) s

/-- What an erased band held is forgotten: places of journal pages, and released pages without a place with their records. -/
def State.forgetBand (s : State) (sh b n : Nat) : State :=
  let x := s.cshard sh
  let pages := Tab.mapV x.pages fun _ p => { p with reps := p.reps.filter fun r => !(r.1.blade == b && r.1.band == n) }
  let gone := pages.filter fun p => p.2.released && p.2.reps.isEmpty
  let pages := pages.filter fun p => !(p.2.released && p.2.reps.isEmpty)
  let lost := (gone.flatMap (·.2.recs)).filter fun j => !(pages.any fun p => p.2.recs.contains j)
  s.setCshard sh { x with pages := pages, recs := x.recs.filter fun e => !lost.contains e.1 }

/-- A band erased and what it held forgotten; whether it is FREE. -/
def State.wipeBand (s : State) (b n : Nat) : Bool × State :=
  match s.band b n with
  | none => (true, s)
  | some y =>
    let (ok, s) := (s.setBand b n { y with st := .erasing }).eraseBand b n
    (ok, if ok then s.forgetBand y.shard b n else s)

/-- Bands of a shard that the latest durable checkpoint no longer references are erased (R262). -/
def State.eraseFenced (s : State) (sh : Nat) : State :=
  let gen := s.rd (CELL_SHARD.CKPT_GEN sh)
  ((s.shardBands sh).filter fun e => (e.2.2.st == .empty && decide (e.2.2.fence ≤ gen)) || e.2.2.st == .erasing).foldl
    (fun s e => (s.wipeBand e.1 e.2.1).2) s

/-! ## The checkpoint (R259) -/

/-- Intent pages of a shard that are not on every blade of its home lane are written there (R248). -/
def State.homeIntents (s : State) (sh : Nat) (blades : List Nat) : State :=
  let pages := (s.carc.bits.filter (·.1 == sh)).foldl (fun (l : List (Nat × Nat)) x =>
    if l.contains (x.2.1, x.2.2 / 131072) then l else l ++ [(x.2.1, x.2.2 / 131072)]) []
  pages.foldl (fun s p =>
    if blades.all fun b => !(s.intentPages b sh (p.2 + p.1 * 2 ^ 32)).isEmpty then s else (s.putIntents sh p.1 p.2).2) s

/-- The pages of a durable checkpoint, the root among them, by number. -/
def rootTable (table : List (Nat × List PageLoc)) (no n : Nat) (roots : List PageLoc) : List (Nat × List PageLoc) :=
  table ++ (List.range n).map fun i => (no + i, roots.map fun l => { l with dpage := l.dpage + i })

/-- A checkpoint of a shard; whether it became durable. Then its journal pages are released and the fence lets bands go. -/
def State.checkpoint (s : State) (sh : Nat) : Bool × State :=
  match s.homeLane sh with
  | none => (false, s)
  | some (ln, _) =>
    let s := s.mendLane sh ln
    let lane : Lane := Tab.getD (s.cshard sh).lanes ln ⟨[], [], none⟩
    let blades := lane.blades.filter s.laneBlade
    if blades.isEmpty ∨ !s.liveLease sh then (false, s)
    else
      let cut := s.cutJsn sh
      let s := s.homeIntents sh blades
      let x := s.snapshot sh cut
      match s.putMetas sh x.gen blades x.pageCount 0 [] with
      | (none, s) => (false, s)
      | (some table, s) =>
        let x := { x with wseqHw := (s.cshard sh).nextWseq - 1 }
        let bytes := s.rootBytes sh x table
        match s.putRoot sh x.gen table.length blades bytes with
        | (none, s) => (false, s)
        | (some roots, s) =>
          let n := max 1 ((bytes.length + 16383) / 16384)
          let (ok, s) := blades.foldl (fun (a : Bool × State) b =>
            let (k, s) := a.2.putAnchor b sh (anchorBytes (s.rd CELL_CTL.HEAD) sh x.epoch x.gen n roots)
            (a.1 && k, s)) (true, s)
          if !ok then (false, s)
          else
            let old := (s.cshard sh).metaPages
            let s := s.wr (CELL_SHARD.CKPT_GEN sh) x.gen
            let s := s.setCshard sh { s.cshard sh with
              metaPages := rootTable table table.length n roots, rootAt := roots, rootPages := n, cutBytes := 0, cut := x.cut
              ckptAt := some (s.inMgmt (s.rd CELL_CKPT_CFG.PERIOD)), ckptDue := none }
            let s := s.setCell { s.cell with media := Tab.set s.cell.media sh ((x :: Tab.getD s.cell.media sh []).take 2) }
            let s := old.foldl (fun s e => e.2.foldl (fun s l => s.killUnit l) s) s
            (true, (s.releasePages sh cut).eraseFenced sh)

end Sys2Proof.Machine
end

