-- ==== Sys2Proof/Machine/Load.lean ====
section
/-! DEFINITION. Loading and dropping a shard: anchors, root, tail scan, replay, settling (R273 to R277). -/
namespace Sys2Proof.Machine
open Sys2Proof

/-! ## Reading pages for a load -/

/-- A whole page, if its header and data check: data and header. -/
def State.pageAt (s : State) (l : PageLoc) (y : Band) : Option (List Byte × List Byte) × State :=
  let (die, block, page) := y.place l.band l.dpage
  match s.readRaw l.blade die block page 0 0 true with
  | (some d, s) =>
    let h := slice d 16384 64
    (if headOk h (d.take 16384) then some (d.take 16384, h) else none, s)
  | (none, s) => (none, s)

/-- Every valid page of a band, with its DPAGE. Pages are programmed in order, so the scan of an ANCHOR band may stop at the
first that does not check (`stop`). -/
def State.scanPages (s : State) (b n : Nat) (y : Band) (stop : Bool) : Nat → Nat → List (Nat × List Byte × List Byte) × State
  | 0, _ => ([], s)
  | k + 1, d =>
    match s.pageAt ⟨b, n, d⟩ y with
    | (none, s) => if stop then ([], s) else s.scanPages b n y stop k (d + 1)
    | (some (x, h), s) =>
      let (r, s) := s.scanPages b n y stop k (d + 1)
      ((d, x, h) :: r, s)

/-- A location read from a record or a table; none where VALID is clear. -/
def locOf (v validBit : Nat) : Option PageLoc :=
  if v.testBit validBit then some ⟨v % 16, bitsOf v 4 21, bitsOf v 25 16⟩ else none

/-- Blades that can be reached. -/
def State.reachable (s : State) : List Nat := (List.range 16).filter fun b => s.bldSt b == Bst.ready

/-! ## Anchors and roots (R260, R273) -/

/-- What an anchor record says: CKPT_GEN, EPOCH, pages of the root, its places. -/
structure Anchor where
  gen : Nat
  epoch : Nat
  pages : Nat
  roots : List PageLoc
deriving DecidableEq, Repr

/-- The anchor records of a shard in a page. -/
def anchorsOf (sh : Nat) (data : List Byte) : List Anchor :=
  (List.range 256).filterMap fun i =>
    let a := slice data (64 * i) 64
    if fieldAt a 0 2 = 0xCEA0 ∧ fieldAt a 2 1 = 1 ∧ fieldAt a 4 1 = sh ∧ fieldAt a 60 4 = crc32c (a.take 60) then
      some ⟨fieldAt a 16 4, fieldAt a 8 8, fieldAt a 20 4, (List.range 4).filterMap fun j => locOf (fieldAt a (24 + 8 * j) 8) 63⟩
    else none

/-- The anchor records of a shard on every reachable blade, in the ANCHOR bands of both heads. -/
def State.findAnchors (s : State) (sh : Nat) : List Anchor × State :=
  s.reachable.foldl (fun (a : List Anchor × State) b => (List.range 4).foldl (fun a n =>
    let y := (a.2.band b n).getD { kind := .anchor, shard := 0 }
    let (ps, s) := a.2.scanPages b n y true ((a.2.stripes b .anchor - 1) * 15) 0
    (a.1 ++ ps.flatMap fun p => anchorsOf sh p.2.1, s)) a) ([], s)

/-- The bytes of a root from its consecutive pages, if they check. -/
def State.readRoot (s : State) (l : PageLoc) (n : Nat) : Option (List Byte) × State :=
  let (bs, s) := (List.range n).foldl (fun (a : Option (List Byte) × State) i =>
    match a.1 with
    | none => a
    | some x =>
      let l := { l with dpage := l.dpage + i }
      match a.2.pageAt l ((a.2.band l.blade l.band).getD { kind := .meta_, shard := 0 }) with
      | (some (d, _), s) => (some (x ++ d), s)
      | (none, s) => (none, s)) (some [], s)
  (bs.bind fun r =>
    let size := fieldAt r 52 4 * 8 + fieldAt r 48 4 * 32
    if fieldAt r 0 2 = 0xCE0A ∧ fieldAt r 2 1 = 1 ∧ fieldAt r 60 4 = crc32c (r.take 60 ++ slice r 64 size) then some (r.take (64 + size))
    else none, s)

/-- Whether every metadata page a root lists has a valid copy (R275). -/
def State.rootWhole (s : State) (r : List Byte) : Bool × State :=
  let bands := fieldAt r 52 4
  (List.range (fieldAt r 48 4)).foldl (fun (a : Bool × State) i =>
    let e := slice r (64 + 8 * bands + 32 * i) 32
    let (ok, s) := (List.range 4).foldl (fun (m : Bool × State) j => if m.1 then m else
      match locOf (fieldAt e (8 + 6 * j) 6) 47 with
      | none => m
      | some l => match m.2.pageAt l ((m.2.band l.blade l.band).getD { kind := .meta_, shard := 0 }) with
        | (some (_, h), s) => (fieldAt h 3 1 == Pk.meta_, s)
        | (none, s) => (false, s)) (false, a.2)
    (a.1 && ok, s)) (true, s)

/-- The best root of a list of anchors: the highest CKPT_GEN, then EPOCH, with a valid copy; `whole`: and every page it lists. -/
def State.bestRoot (s : State) (whole : Bool) : Nat → List Anchor → Option (Anchor × List Byte) × State
  | 0, _ => (none, s)
  | n + 1, as =>
    match as.foldl (fun (m : Option Anchor) a => match m with
      | none => some a
      | some x => if x.gen < a.gen ∨ (x.gen = a.gen ∧ x.epoch < a.epoch) then some a else some x) none with
    | none => (none, s)
    | some a =>
      let (r, s) := a.roots.foldl (fun (m : Option (List Byte) × State) l => match m.1 with
        | some _ => m
        | none => m.2.readRoot l a.pages) (none, s)
      match r with
      | some r =>
        let (ok, s) := if whole then s.rootWhole r else (true, s)
        if ok then (some (a, r), s) else s.bestRoot whole n (as.filter (· != a))
      | none => s.bestRoot whole n (as.filter (· != a))

/-! ## Bands claimed by a shard (R274, R275) -/

/-- Bands of a blade with a block the shard has claimed. -/
def State.claimed (s : State) (b sh : Nat) : List Nat :=
  let x := s.bladeOr b
  (x.blocks.filter fun e => e.2.claim == some sh && decide (e.1 % 65536 < x.bandBlocks)).foldl (fun l e =>
    let n := e.1 / 65536 / 16 * 65536 + e.1 % 65536
    if l.contains n then l else l ++ [n]) []

/-- KIND of the band a page stands in, from its header. -/
def bandKindOf (h : List Byte) : BandKind :=
  let k := fieldAt h 3 1
  if k = Pk.chunk then .main else if k = Pk.journal ∨ k = Pk.intent then .journal else .meta_

/-- Roots found in the META bands a shard has claimed, for a full scan: each as an anchor would name it. -/
def State.scanRoots (s : State) (sh : Nat) : List Anchor × State :=
  s.reachable.foldl (fun (a : List Anchor × State) b => (a.2.claimed b sh).foldl (fun a n =>
    let y := (a.2.band b n).getD { kind := .meta_, shard := sh }
    let (ps, s) := a.2.scanPages b n y false (max (a.2.stripes b .meta_) (a.2.stripes b .main) * 15) 0
    (a.1 ++ (ps.filter fun p => fieldAt p.2.1 0 2 == 0xCE0A && fieldAt p.2.1 4 1 == sh).map fun p =>
      ⟨fieldAt p.2.1 16 4, fieldAt p.2.1 8 8, (64 + fieldAt p.2.1 52 4 * 8 + fieldAt p.2.1 48 4 * 32 + 16383) / 16384, [⟨b, n, p.1⟩]⟩, s))
      a) ([], s)

/-! ## The tail scan (R274) -/

/-- A unit a scan found: its band, DPAGE, header and data. -/
structure Found where
  blade : Nat
  band : Nat
  dpage : Nat
  head : List Byte
  data : List Byte
deriving DecidableEq, Repr

def Found.kind (f : Found) : Nat := fieldAt f.head 3 1
def Found.wseq (f : Found) : Nat := fieldAt f.head 16 8
def Found.epoch (f : Found) : Nat := fieldAt f.head 8 8
def Found.obj (f : Found) : Nat := fieldAt f.head 32 8
def Found.jour (f : Found) : Bool := (fieldAt f.head 5 1).testBit 4
def Found.pool (f : Found) : Nat := fieldAt f.head 5 1 % 16
def Found.part_ (f : Found) : Nat := fieldAt f.head 6 1 % 4

/-- The bands a load scans: those open in the snapshot, and those the blades report claimed for the shard that the snapshot
does not list, which the band records name (log entry 32). -/
def State.scanSet (s : State) (sh : Nat) (x : Snapshot) (all : Bool) : List (Nat × Nat) :=
  s.reachable.flatMap fun b => ((s.claimed b sh).filter fun n =>
    all || match x.bands.find? fun e => e.1 == b && e.2.1 == n with
      | some e => e.2.2.st == .open_
      | none => true).map fun n => (b, n)

/-- Every page newer than the snapshot in the scanned bands. -/
def State.tailPages (s : State) (sh hw : Nat) (set : List (Nat × Nat)) : List Found × State :=
  set.foldl (fun (a : List Found × State) e =>
    let y := (a.2.band e.1 e.2).getD { kind := .main, shard := sh }
    let (ps, s) := a.2.scanPages e.1 e.2 y false (max (a.2.stripes e.1 .main) (a.2.stripes e.1 .journal) * 15) 0
    (a.1 ++ (ps.filter fun p => fieldAt p.2.2 4 1 == sh && decide (hw < fieldAt p.2.2 16 8)).map fun p =>
      ⟨e.1, e.2, p.1, p.2.2, p.2.1⟩, s)) ([], s)

/-- Bands a scan found that the snapshot does not list: they are listed, closed to further programs, their units live. -/
def State.listFound (s : State) (sh : Nat) (fs : List Found) : State :=
  fs.foldl (fun s f =>
    let y : Band := (s.band f.blade f.band).getD {
      kind := bandKindOf f.head, shard := sh, pool := f.pool, st := .closed, ec := s.bandEc f.blade f.band }
    if f.part_ ≠ 0 ∨ y.units.any (fun u => u.dpage == f.dpage) then s
    else s.setBand f.blade f.band { y with
      st := (if y.st == .open_ then .closed else y.st), next := max y.next (f.dpage + 1)
      units := y.units ++ [⟨f.kind, f.obj, f.wseq, f.dpage, true⟩] }) s

/-- A chunk copy of the scan is valid: four valid pages that agree. -/
def chunkWhole (fs : List Found) (f : Found) : Bool :=
  (List.range 4).all fun i => fs.any fun g => g.blade == f.blade && g.band == f.band && g.dpage == f.dpage + i && g.part_ == i &&
    g.obj == f.obj && g.epoch == f.epoch && g.wseq == f.wseq && g.kind == Pk.chunk

/-- The newest of the chunk copies garbage collection and folding wrote after the cut become the location entries. -/
def State.adoptChunks (s : State) (sh : Nat) (fs : List Found) : State :=
  let cs := fs.filter fun f => f.kind == Pk.chunk && f.part_ == 0 && !f.jour && chunkWhole fs f
  cs.foldl (fun s f =>
    let newer := cs.any fun g => g.obj == f.obj && g.pool == f.pool &&
      (decide (f.epoch < g.epoch) || (g.epoch == f.epoch && decide (f.wseq < g.wseq)))
    if newer then s
    else match s.frameWheel sh f.pool (f.obj % 2 ^ 29) with
      | none => s
      | some (w, _) => s.setLoc sh w (bitsOf f.obj 29 5) (bitsOf f.obj 34 4) ⟨f.blade, f.band, f.dpage⟩) s

/-- Records found join an index; those it holds stay. -/
def addRecs (t : Tab JRec) (rs : List (Nat × JRec)) : Tab JRec :=
  rs.foldl (fun t r => if (Tab.get? t r.1).isSome then t else Tab.set t r.1 r.2) t

/-- The journal pages of a scan join the shard's pages, replicas of one page together; their records join the index. -/
def State.adoptPages (s : State) (sh : Nat) (fs : List Found) : State :=
  (fs.filter (·.kind == Pk.journal)).foldl (fun s f =>
    let x := s.cshard sh
    let pl : PageLoc := ⟨f.blade, f.band, f.dpage⟩
    match x.pages.find? fun p => p.2.wseq == f.wseq with
    | some (k, p) => s.setJpage sh k { p with reps := p.reps ++ [(pl, .done)] }
    | none =>
      let rs := recsOf 256 (f.data.take (fieldAt f.head 40 4))
      s.setCshard sh { x with
        pages := Tab.set x.pages x.nextPage {
          lane := bitsOf f.obj 55 8, recs := rs.map (·.1), image := f.data, used := fieldAt f.head 40 4, wseq := f.wseq
          reps := [(pl, .done)] }
        nextPage := x.nextPage + 1
        recs := addRecs x.recs rs }) s

/-- The newest copies of bitmap pages replace the snapshot's bits. -/
def State.adoptBits (s : State) (sh : Nat) (fs : List Found) : State :=
  let is := fs.filter (·.kind == Pk.intent)
  is.foldl (fun s f =>
    if is.any fun g => g.obj == f.obj && decide (f.wseq < g.wseq) then s
    else
      let pool := bitsOf f.obj 32 4
      let page := f.obj % 2 ^ 32
      let bits := (List.range 131072).filter fun i => (f.data.getD (i / 8) 0).getLsbD (i % 8)
      let kept := s.carc.bits.filter fun x => !(x.1 == sh && x.2.1 == pool && x.2.2 / 131072 == page)
      s.setCarc { s.carc with bits := kept ++ bits.map fun i => (sh, pool, page * 131072 + i) }) s

/-! ## Replay (R251, R273) -/

/-- A wheel that a SEAL record describes: its curds follow from where its blocks stand. -/
def State.sealedWheel (s : State) (sh : Nat) (r : JRec) (pairs : List (Nat × Nat)) : Wheel :=
  let offs := pairs.foldl (fun (t : Tab Nat) p => Tab.set t (locOff p.2) (match s.jrec sh (locJsn p.1) with
    | some q => s.recTenant q
    | none => 0)) []
  let ends := (offs.map (·.1)).drop 1 ++ [r.arg2]
  let live := pairs.foldl (fun (t : Tab Nat) p => Tab.set t (p.2 / 2 ^ 40) (match s.jrec sh (locJsn p.1) with
    | some q => q.payload.length - 96
    | none => 0)) []
  { pool := r.arg1 % 16, gen := bitsOf r.arg1 4 8, frame := bitsOf r.arg1 12 29, bytes := r.arg2, live := live
    curds := ((offs.zip ends).map fun e => (e.1.1, (e.2 - e.1.1, e.1.2)))
    from_ := pairs.map fun p => (p.2, p.1) }

/-- A stripe of a shard made LOST counts (R231). -/
def State.countLost (s : State) (sh : Nat) : State :=
  (s.setCshard sh { s.cshard sh with lost := (s.cshard sh).lost + 1 }).wr CARC_LOST_COUNT.VALUE (s.rd CARC_LOST_COUNT.VALUE + 1)

/-- One replayed record. -/
def State.replay (s : State) (sh jsn : Nat) (r : JRec) : State :=
  let vol := argVol r.arg0
  let blk := argBlock r.arg0
  let x := s.cshard sh
  if r.type = Jt.data then
    s.setCat vol blk (some { locator := journalLoc sh jsn, shard := sh, app := r.arg1 % 65536, ref := r.arg1 / 65536 })
  else if r.type = Jt.ref then
    (if s.pairFound r then s.setCat vol blk (some { locator := r.arg2, shard := r.tshard, app := r.arg1 % 65536, ref := r.arg1 / 65536 })
     else s)
  else if r.type = Jt.dealloc then s.dropRange vol blk r.arg1
  else if r.type = Jt.sdIntent then
    let (ls, _, s) := s.sdRange (sh * 2 ^ 55 + jsn) vol blk r.arg1
    s.setCshard sh { s.cshard sh with opened := Tab.set (s.cshard sh).opened jsn ls }
  else if r.type = Jt.sdDone then
    s.setCshard sh { x with opened := Tab.del x.opened r.arg0, deferred := Tab.del x.deferred r.arg0 }
  else if r.type = Jt.defer then
    let es := (List.range (r.payload.length / 4)).map fun i => (fieldAt r.payload (4 * i) 4 % 16, bitsOf (fieldAt r.payload (4 * i) 4) 4 21)
    let s := es.foldl (fun s e => s.setCblade e.1 { s.cblade e.1 with
      defers := (s.cblade e.1).defers.filter (· != (sh, r.arg0, e.2)) ++ [(sh, r.arg0, e.2)] }) s
    s.setCshard sh { s.cshard sh with deferred := Tab.set x.deferred r.arg0 (Tab.getD x.deferred r.arg0 [] ++ es) }
  else if r.type = Jt.seal ∧ !r.more then
    let pairs := (x.recs.filter fun e => e.2.type == Jt.seal && e.2.arg0 == r.arg0).flatMap fun e => fwdPairs e.2.payload
    let w := s.sealedWheel sh r pairs
    let seq := r.arg0 % 2 ^ 40
    let s := if (s.wheel sh seq).isSome then s else s.setWheel sh seq w
    let s := s.setCshard sh { s.cshard sh with
      frames := (w.pool, w.frame) :: (s.cshard sh).frames.filter (· != (w.pool, w.frame)), nextWheel := max (s.cshard sh).nextWheel (seq + 1) }
    s.sealWheel sh seq jsn
  else if r.type = Jt.move then
    (match locOf r.arg1 47, s.frameWheel sh (bitsOf r.arg0 38 4) (r.arg0 % 2 ^ 29) with
      | some l, some (w, _) => s.setLoc sh w (bitsOf r.arg0 29 5) (bitsOf r.arg0 34 4) l
      | _, _ => s)
  else if r.type = Jt.remap then
    let e := r.payload
    let new := (fieldAt e 7 1).testBit 0 && (match s.frameWheel sh (fieldAt e 5 1 / 16) (fieldAt e 0 4 % 2 ^ 29) with
      | some (_, w) => (s.lostCols w.pool w.gen w.frame (fieldAt e 4 1 % 32)).isEmpty
      | none => false)
    (if new then s.countLost sh else s).recEffect sh jsn { r with cmd := none }
  else if r.type = Jt.band ∧ r.arg1 ≠ 1 then
    (if r.arg1 = 2 then s.dropBand (r.arg0 % 16) (r.arg0 / 16) else s)
  else if r.type = Jt.frameFree then
    let s := match s.frameWheel sh (r.arg0 % 16) (r.arg0 / 16) with
      | some (w, y) => y.locs.foldl (fun (s : State) (e : Nat × PageLoc) => s.killUnit e.2) (s.setWheel sh w { y with sealed := false, freed := true, live := [], locs := [] })
      | none => s
    s.recEffect sh jsn { r with cmd := none }
  else s

/-- Where the copy of a block's reference stands. -/
def State.copyAt (s : State) (vol block : Nat) : List (Nat × Nat) :=
  match s.catEntry vol block with
  | some e => if e.locator = 0 then [] else [(e.shard, s.locNow e.shard e.locator)]
  | none => []

/-- The copies whose references a replayed record removes: of the block a DATA or REF writes again, of the range a DEALLOC names
(R148, R251). A Secure Deallocate's are lowered by its own steps. -/
def State.removes (s : State) (r : JRec) : List (Nat × Nat) :=
  let vol := argVol r.arg0
  let blk := argBlock r.arg0
  if r.type = Jt.data ∨ (r.type = Jt.ref ∧ s.pairFound r = true) then s.copyAt vol blk
  else if r.type = Jt.dealloc then (List.range r.arg1).flatMap fun i => s.copyAt vol (blk + i)
  else []

/-- Records replayed in JSN order, and the copies they take references from. -/
def State.replayAll (s : State) (sh : Nat) : List (Nat × JRec) → List (Nat × Nat × Nat) × State
  | [] => ([], s)
  | (j, r) :: rest =>
    let gone := (s.removes r).map fun c => (j, c)
    let (more, s) := (s.replay sh j r).replayAll sh rest
    (gone ++ more, s)

/-- Decrements of a copy that its shard's journal records. -/
def State.recorded (s : State) (t l : Nat) : Nat :=
  (((s.cshard t).recs.filter fun r => r.2.type == Jt.incr && r.2.arg0 == l && decide (toSigned r.2.arg1 64 < 0)).map
    fun r => (-(toSigned r.2.arg1 64)).toNat).sum

/-- The decrements of a copy that the removals of a load name and its shard has not recorded are made, and recorded there
(R148, R273). A copy without an index entry, or in a shard not loaded here, has no count to lower. -/
def State.redecrement (s : State) (by_ : Nat) (c : Nat × Nat) (n : Nat) : State :=
  match (Tab.get? s.sep.byLoc (copyKey c.1 c.2)).bind fun h => (s.entryAt h).map fun x => (h, x) with
  | none => s
  | some (h, x) =>
    let n := n - s.recorded c.1 x.locator
    if n = 0 ∨ s.cellSt c.1 = Cst.absent then s
    else
      let s := ((s.putEntry h { x with refs := x.refs - n }).sepWithdraw h).2
      (s.journal c.1 { type := Jt.incr, epoch := 0, pair := by_, arg0 := x.locator, arg1 := ofSigned (-n) 64 }).2

/-- Whether the four pages at a place are one valid copy of a chunk. -/
def State.chunkThere (s : State) (sh : Nat) (w : Wheel) (st c : Nat) (l : PageLoc) : Bool × State :=
  let y := (s.band l.blade l.band).getD { kind := .main, shard := sh }
  let (hs, s) := (List.range 4).foldl (fun (a : List (List Byte) × State) i =>
    match a.2.pageAt { l with dpage := l.dpage + i } y with
    | (some (_, h), s) => (a.1 ++ [h], s)
    | (none, s) => (a.1, s)) ([], s)
  (hs.length == 4 && hs.all fun h => fieldAt h 3 1 == Pk.chunk && fieldAt h 32 8 == chunkObj w.frame st c &&
    slice h 8 16 == slice (hs.headD []) 8 16, s)

/-- One column of a patch settled: switched to its new place, the old one kept for reconstructions till the region is
resynchronised, or switched back. A column that a later record has moved elsewhere stays. -/
def State.settleCol (s : State) (sh wheel st c : Nat) (ok : Bool) (old new : Option PageLoc) : State :=
  match s.wheel sh wheel with
  | none => s
  | some w =>
    let key := st * 16 + c
    let cur := Tab.get? w.locs key
    if cur ≠ old ∧ cur ≠ new then s
    else match ok, old, new with
      | true, some o, some n => s.setWheel sh wheel { w with locs := Tab.set w.locs key n, pre := Tab.set w.pre key o }
      | false, some o, some n => (s.setWheel sh wheel { w with locs := Tab.set w.locs key o }).killUnit n
      | _, _, _ => s

/-- A patch without its done record is completed where every new page is there, and undone otherwise; its region is to be
resynchronised (R221). -/
def State.settlePatches (s : State) (sh : Nat) : State :=
  let rs := (s.cshard sh).recs
  (rs.filter fun e => e.2.type == Jt.patch && !rs.any fun d => d.2.type == Jt.patchDone && d.2.arg0 == e.1).foldl (fun s e =>
    let n := e.2.payload.length / 16
    let at_ := fun (i : Nat) => locOf (fieldAt e.2.payload (8 * i) 8) 47
    let j := bitsOf e.2.arg0 34 4
    let st := bitsOf e.2.arg0 29 5
    match s.frameWheel sh (bitsOf e.2.arg0 38 4) (e.2.arg0 % 2 ^ 29) with
    | none => s
    | some (w, y) =>
      let k := genK (s.genEntry y.pool y.gen)
      let news := (List.range n).filterMap fun i => (at_ (n + i)).map fun l => (if i = 0 then j else k + i - 1, l)
      let (ok, s) := news.foldl (fun (a : Bool × State) x => let (k, s) := a.2.chunkThere sh y st x.1 x.2; (a.1 && k, s))
        (decide (news.length = n), s)
      (List.range n).foldl (fun s i => s.settleCol sh w st (if i = 0 then j else k + i - 1) ok (at_ i) (at_ (n + i))) s) s

/-! ## The whole load (R273, R275) -/

/-- Stored-block counts by volume follow a catalogue that is loaded or dropped. -/
def State.countForms (s : State) (cat : Tab CatEntry) (up : Bool) : State :=
  cat.foldl (fun s e =>
    let v := e.1 / 2 ^ 38
    let n := Tab.getD s.par.forms v 0
    { s with par := { s.par with forms := Tab.set s.par.forms v (if up then n + 1 else n - 1) } }) s

/-- Regions whose bitmap page has no readable copy are dirty, those of every frame of the shard it covers (R223). -/
def State.lostBits (s : State) (sh : Nat) : State :=
  let units := (s.shardBands sh).flatMap fun e => (e.2.2.units.filter fun u => u.kind == Pk.intent && u.live).map fun u =>
    (u.obj, (⟨e.1, e.2.1, u.dpage⟩ : PageLoc), e.2.2)
  let objs := units.foldl (fun (l : List Nat) u => if l.contains u.1 then l else l ++ [u.1]) []
  objs.foldl (fun s o =>
    let (ok, s) := (units.filter (·.1 == o)).foldl (fun (a : Bool × State) u => if a.1 then a else
      match a.2.pageAt u.2.1 u.2.2 with
      | (some _, s) => (true, s)
      | (none, s) => (false, s)) (false, s)
    if ok then s
    else
      let pool := bitsOf o 32 4
      let rs := (s.cshard sh).wheels.filterMap fun w =>
        if w.2.pool = pool ∧ regionOf w.2.frame / 131072 = o % 2 ^ 32 then some (sh, pool, regionOf w.2.frame) else none
      (s.setCarc { s.carc with bits := s.carc.bits ++ rs.filter fun r => !s.carc.bits.contains r }).raise Ev.intentLost
        (some .carc) (some sh) [sh, o]) s

/-- Where no bitmap of a shard can be located at all, the regions of all its frames are dirty (R223). -/
def State.noBitmap (s : State) (sh : Nat) : State :=
  let rs := (s.cshard sh).wheels.map fun w => (sh, w.2.pool, regionOf w.2.frame)
  if rs.isEmpty then s
  else (s.setCarc { s.carc with bits := s.carc.bits ++ rs.eraseDups.filter fun r => !s.carc.bits.contains r }).raise Ev.intentLost
    (some .carc) (some sh) [sh]

/-- A snapshot becomes the shard's metadata. -/
def State.install (s : State) (sh : Nat) (x : Snapshot) : State :=
  let lanes := (s.cshard sh).lanes
  let s := x.bands.foldl (fun s e => s.setBand e.1 e.2.1 { e.2.2 with st := if e.2.2.st == .open_ then .closed else e.2.2.st }) s
  let s := s.setCshard sh {
    lanes := (Tab.mapV lanes fun _ l => { l with next := [], holdUntil := none })
    recs := x.recs, pages := x.pages, nextPage := ((x.pages.map (·.1 + 1)).foldl max 0)
    nextJsn := x.cut, nextWseq := x.wseqHw + 1, nextWheel := x.nextWheel, cat := x.cat, wheels := x.wheels, fwd := x.fwd
    fwdRefs := (x.fwd.map fun e => (e.1, max 1 (x.cat.filter fun c => c.2.shard == sh && c.2.locator == e.1).length))
    frames := (x.wheels.filter fun w => !w.2.freed).map (fun w => (w.2.pool, w.2.frame))
    cut := x.cut, runs := x.runs, lost := x.lost, epoch := s.rd (LEASE_EPOCH.EPOCH sh) }
  let s := s.setCarc { s.carc with bits := s.carc.bits.filter (·.1 != sh) ++ x.bits.map fun y => (sh, y) }
  ((s.wr (CELL_SHARD.CKPT_GEN sh) x.gen).wr CARC_LOST_COUNT.VALUE (s.rd CARC_LOST_COUNT.VALUE + x.lost)).countForms x.cat true

/-- Steps 3 to 6: tail scan, replay, settling, and the numbers continued. The count of records replayed. -/
def State.loadTail (s : State) (sh : Nat) (x : Snapshot) (full : Bool) : Nat × State :=
  let (fs, s) := s.tailPages sh x.wseqHw (s.scanSet sh x full)
  let s := ((s.listFound sh fs).adoptPages sh fs).adoptBits sh fs
  let todo := (s.cshard sh).recs.filter fun e => decide (x.cut ≤ e.1)
  let s := s.setCshard sh { s.cshard sh with recs := Tab.mapV (s.cshard sh).recs fun _ r => { r with confirmed := true, cmd := none, done := .none } }
  let (gone, s) := s.replayAll sh todo
  let s := ((s.adoptChunks sh fs).settlePatches sh).lostBits sh
  let s := if x.gen = 0 ∧ !(fs.any (·.kind == Pk.intent)) then s.noBitmap sh else s
  let s := s.setCarc { s.carc with
    dirty := s.carc.dirty.filter (·.1 != sh) ++ s.carc.bits.filter (·.1 == sh) }
  let y := s.cshard sh
  let s := s.setCshard sh { y with
    nextJsn := ((y.recs.map (·.1 + 1)).foldl max y.nextJsn)
    nextWseq := ((fs.map (·.wseq + 1)).foldl max y.nextWseq)
    ckptAt := some (s.inMgmt (s.rd CELL_CKPT_CFG.PERIOD)) }
  let s := (s.shardBands sh).foldl (fun s e => s.emptyBand e.1 e.2.1) s
  let s := (gone.map (·.2)).eraseDups.foldl (fun s c =>
    let mine := gone.filter (·.2 == c)
    s.redecrement (sh * 2 ^ 55 + ((mine.getLast?.map (·.1)).getD 0)) c mine.length) s
  (todo.length, s.countUnfolded sh)

/-- The metadata a root names: what this head's own checkpoint of that generation holds, or what stands on the medium of
the peer's (an operand). -/
def State.snapshotOf (s : State) (sh gen : Nat) (img : Option Snapshot) : Option Snapshot :=
  match (Tab.getD s.cell.media sh []).find? (·.gen == gen) with
  | some x => some x
  | none => img.bind fun x => if x.gen = gen then some x else none

/-- A shard's DRAM metadata are dropped; its lanes stay as LANE_SET left them. Its bands stay claimed on their blades. -/
def State.dropShard (s : State) (sh : Nat) : State :=
  let x := s.cshard sh
  let s := s.countForms x.cat false
  let s := s.setCell { s.cell with
    blades := (Tab.mapV s.cell.blades fun _ c => { c with bands := c.bands.filter fun e => e.2.shard != sh || e.2.kind == .anchor })
    fullSeen := s.cell.fullSeen.filter (· != sh) }
  let s := s.setCshard sh { lanes := Tab.mapV x.lanes fun _ l => { l with next := [], holdUntil := none } }
  let s := s.setSep { s.sep with orphans := s.sep.orphans.filter (·.1 != sh) }
  let s := (s.setCarc { s.carc with
    bits := s.carc.bits.filter (·.1 != sh), dirty := s.carc.dirty.filter (·.1 != sh), opens := s.carc.opens.filter fun e => e.1 / 2 ^ 33 != sh }).countIntents
  ((s.wr (CELL_SHARD.UNFOLDED sh) 0).wr (CELL_SHARD.CKPT_GEN sh) 0).wr CARC_LOST_COUNT.VALUE (s.rd CARC_LOST_COUNT.VALUE - x.lost)

/-- SHARD_LOAD: records replayed, CKPT_GEN loaded and whether a full scan was used, or a status. A full scan that finds no
band of the shard at all loads an empty shard (log entry 30). -/
def State.loadShard (s : State) (sh : Nat) (full : Bool) (img : Option Snapshot) : Except Nat (Nat × Nat × Bool) × State :=
  let (as, s) := s.findAnchors sh
  match s.bestRoot false as.length as with
  | (some (a, _), s) =>
    (match s.snapshotOf sh a.gen img with
      | none => (.error St.loadFailed, s)
      | some x =>
        let (n, s) := (s.install sh x).loadTail sh x false
        (.ok (n, a.gen, false), s))
  | (none, s) =>
    if !full then (.error St.rootUnreadable, s)
    else
      let s := s.raise Ev.fullScan (some .cell) (some sh) [sh]
      let (rs, s) := s.scanRoots sh
      match s.bestRoot true rs.length rs with
      | (some (a, _), s) =>
        (match s.snapshotOf sh a.gen img with
          | none => (.error St.loadFailed, s)
          | some x =>
            let (n, s) := (s.install sh x).loadTail sh x true
            (.ok (n, a.gen, true), s))
      | (none, s) =>
        let x : Snapshot := { gen := 0, epoch := 0, cut := 0, wseqHw := 0, nextWheel := 0 }
        let (n, s) := (s.install sh x).loadTail sh x true
        (.ok (n, 0, true), s)

end Sys2Proof.Machine
end

