-- ==== Sys2Proof/Machine/Erase.lean ====
section
/-! DEFINITION. Step 5 of Secure Deallocate and deferred erases (R124, R125, R266, R267, R311). -/
namespace Sys2Proof.Machine
open Sys2Proof

/-! ## Where copies of a block stand (R266) -/

/-- Every LOCATOR a block has had, that a fold under way gives it included. -/
def State.everyLoc (s : State) (sh l : Nat) : List Nat :=
  let ls := s.olderLocs sh l
  ls ++ ls.filterMap fun x => if locJournal x then (s.jrec sh (locJsn x)).bind (·.folded) else none

/-- Bands that hold a replica of a record. -/
def State.recBands (s : State) (sh jsn : Nat) : List (Nat × Nat) :=
  ((s.cshard sh).pages.filter fun p => p.2.recs.contains jsn || p.2.was.contains jsn).flatMap fun p =>
    p.2.reps.map fun r => (r.1.blade, r.1.band)

/-- The chunks of a wheel that hold bytes of a curd, and the parity of their stripes: pool and OBJECT. -/
def State.curdObjs (s : State) (w : Wheel) (off : Nat) : List (Nat × Nat) :=
  let e := s.genEntry w.pool w.gen
  let k := genK e
  let n := ((Tab.get? w.curds off).map (·.1)).getD 0
  let a := off / 65536
  (List.range ((off + n + 65535) / 65536 - a)).flatMap fun i =>
    ((a + i) % k :: (List.range (genP e)).map (k + ·)).map fun c => (w.pool, chunkObj w.frame ((a + i) / k) c)

/-- Bands of a shard with an old page of some chunks. -/
def State.staleBands (s : State) (sh : Nat) (objs : List (Nat × Nat)) : List (Nat × Nat) :=
  ((s.shardBands sh).filter fun e => e.2.2.units.any fun u => u.kind == Pk.chunk && !u.live && objs.contains (e.2.2.pool, u.obj)).map
    fun e => (e.1, e.2.1)

/-- A list without repeats. -/
def distinct (l : List (Nat × Nat)) : List (Nat × Nat) := l.foldl (fun a x => if a.contains x then a else a ++ [x]) []

/-! ## Journal replicas -/

/-- The other records of journal pages moved to new pages of their lane, the withdrawn ones left out. False where a page is
still in flight or cannot be written. -/
def State.movePage (s : State) (sh p : Nat) (gone : List Nat) : Bool × State :=
  match s.jpage sh p with
  | none => (true, s)
  | some x =>
    if x.reps.any (fun r => match r.2 with
        | .issued _ => true
        | _ => false) then (false, s)
    else
      let keep := x.recs.filter fun j => !gone.contains j
      let rs := keep.filterMap fun j => (s.jrec sh j).map fun r => (j, r)
      if x.released ∨ rs.isEmpty then (true, s.setJpage sh p { x with released := true, recs := [], was := x.was ++ x.recs })
      else
        let s := s.mendLane sh x.lane
        let lane : Lane := Tab.getD (s.cshard sh).lanes x.lane ⟨[], [], none⟩
        let image := pageImage sh rs
        let (ws, s) := s.takeWseq sh
        let h : PageHead := { kind := Pk.journal, obj := keep.headD 0 + x.lane * 2 ^ 55, used := image.length, wseq := ws }
        let (reps, s) := (lane.blades.filter s.laneBlade).foldl (fun (a : List (PageLoc × RepSt) × State) b =>
          match a.2.writeUnit b sh (laneBand sh x.lane) [(h, image)] 16 with
          | (some (n, d), s) => (a.1 ++ [(⟨b, n, d⟩, .done)], s)
          | (none, s) => (a.1, s)) ([], s)
        if reps.isEmpty then (false, s)
        else
          let y := s.cshard sh
          let s := s.setCshard sh { y with
            nextPage := y.nextPage + 1
            pages := Tab.set y.pages y.nextPage { lane := x.lane, recs := keep, image := image, used := image.length, wseq := ws, reps := reps } }
          let s := s.setJpage sh p { x with released := true, recs := [], was := x.was ++ x.recs }
          (true, x.reps.foldl (fun s r => s.killUnit r.1) s)

/-- Every page with a replica in some JOURNAL bands moved; an open one among these bands is closed first. -/
def State.moveRecords (s : State) (sh : Nat) (bands : List (Nat × Nat)) (gone : List Nat) : Bool × State :=
  let s := bands.foldl (fun s e => if ((s.band e.1 e.2).map fun y => y.st == .open_).getD false then s.closeBand e.1 e.2 false none
    else s) s
  ((s.cshard sh).pages.filter fun p => p.2.reps.any fun r => bands.contains (r.1.blade, r.1.band)).foldl
    (fun (a : Bool × State) p =>
      let (ok, s) := a.2.movePage sh p.1 gone
      (a.1 && ok, s)) (true, s)

/-! ## Curds rewritten (R266, points 2 and 3) -/

/-- A SET or JOURNAL curd without the frame of one block: its bytes and its BLOCK_CRC entry are zeros. The header's own
check is made anew (log entry 33). -/
def curdWithout (bs : List Byte) (i : Nat) : List Byte :=
  let c := curdOf bs
  let bs := splice bs (c.start i) (zeros (c.lens.getD i 0))
  let bs := splice bs (48 + 4 * i) (zeros 4)
  splice bs 92 (leBytes 4 (crc32c (bs.take 92)))

/-- New bytes of a stretch of a wheel written by patches of its chunks. -/
def State.patchRange (s : State) (sh wheel : Nat) : Nat → Nat → List Byte → Bool × State
  | 0, _, _ => (true, s)
  | fuel + 1, x, bs =>
    if bs.isEmpty then (true, s)
    else match s.wheel sh wheel with
      | none => (false, s)
      | some w =>
        let k := genK (s.genEntry w.pool w.gen)
        let m := min bs.length (65536 - x % 65536)
        let st := x / (k * 65536)
        let j := x % (k * 65536) / 65536
        match s.colBytes w st j 0 65536 with
        | (none, s) => (false, s)
        | (some d, s) => match s.patch sh wheel st j (splice d (x % 65536) (bs.take m)) with
          | (true, s) => s.patchRange sh wheel fuel (x + m) (bs.drop m)
          | (false, s) => (false, s)

/-- Whether a wheel that is not sealed yet takes blocks of a curd. -/
def State.moving (s : State) (sh wheel off : Nat) : Bool :=
  (s.cshard sh).wheels.any fun v => !v.2.sealed && !v.2.freed && v.2.from_.any fun p =>
    !locJournal p.2 && locWheel p.2 == wheel && locOff p.2 == off

/-- A PACKED curd is zeroed by patches; `n` its length. -/
def State.zeroCurd (s : State) (sh l n : Nat) : Bool × State :=
  let x := s.cshard sh
  let s := if x.zeroing.contains l then s else s.setCshard sh { x with zeroing := l :: x.zeroing }
  s.patchRange sh (locWheel l) 32 (locOff l) (zeros n)

/-- The other blocks of a PACKED curd recast into a new wheel, which they move to once it is sealed (R266). -/
def State.moveRest (s : State) (sh l tenant : Nat) (w : Wheel) (bs : List Byte) : State :=
  match s.useDicts (curdDicts s.dicts bs 15) with
  | none => s.headLost
  | some s => match s.recastBlocks bs tenant (w.liveIdx (locOff l)) (curdLoc (locWheel l) (locOff l)) with
    | none => s
    | some n => match s.newWheel sh w.pool [n] with
      | (none, s) => s
      | (some (v, ps), s) => s.journalSeals sh v .none 1 ps

/-- One withdrawn block taken out of its wheel, which a patch or the move of its neighbours may have to wait for. -/
def State.eraseCurd (s : State) (sh l : Nat) : Bool × State :=
  let whole := curdLoc (locWheel l) (locOff l) 0
  match s.wheel sh (locWheel l) with
  | none => (true, s)
  | some w => match Tab.get? w.curds (locOff l) with
    | none => (true, s)
    | some (n, t) =>
      if w.freed then (true, s)
      else if !w.sealed ∨ s.moving sh (locWheel l) (locOff l) then (false, s)
      else if (s.cshard sh).zeroing.contains whole then s.zeroCurd sh whole n
      else match s.copyCurd sh whole with
        | (none, s) => (false, s)
        | (some bs, s) =>
          if (curdOf bs).kind = Ck.packed then
            (if (w.liveIdx (locOff l)).isEmpty then s.zeroCurd sh whole n else (false, s.moveRest sh l t w bs))
          else match s.cryptCurd true t whole sh (curdWithout bs (locIdx l)) with
            | none => (false, s)
            | some out => s.patchRange sh (locWheel l) 32 (locOff l) out

/-! ## Step 5 (R266) -/

/-- Whether a band on a blade can be erased now; where the blade is FAILED in the Carcase, absent or cannot be reached, the
erase is deferred (R125, R266). -/
def State.erasable (s : State) (b : Nat) : Bool :=
  s.bldSt b == Bst.ready && s.carcSt b != Cbs.failed && s.carcSt b != Cbs.absent

/-- Steps taken one after the other; false from the first that has to wait. -/
def State.eachOk {α : Type} (s : State) (l : List α) (f : State → α → Bool × State) : Bool × State :=
  l.foldl (fun a x => let (k, s) := f a.2 x; (a.1 && k, s)) (true, s)

/-- A band that is open closed, and emptied of live chunks. -/
def State.clearMain (s : State) (e : Nat × Nat) : Bool × State :=
  (if ((s.band e.1 e.2).map fun y => y.st == .open_).getD false then s.closeBand e.1 e.2 false none else s).emptyMain e.1 e.2

/-- A band erased, or retired. -/
def State.wipeOk (s : State) (e : Nat × Nat) : Bool × State :=
  let (k, s) := s.wipeBand e.1 e.2
  (k || ((s.band e.1 e.2).map fun y => y.st == .retired).getD false, s)

/-- Every copy of the withdrawn blocks of an intent erased, in the shards of this head that hold them: blades whose erases
were deferred, as a mask; none where something must be waited for. -/
def State.sdErase (s : State) (sh jsn : Nat) (cmd : Option (Nat × Nat)) : Option Nat × State :=
  let ls := (Tab.getD (s.cshard sh).opened jsn []).flatMap fun c => (s.everyLoc (c / 2 ^ 64) (c % 2 ^ 64)).map fun l => (c / 2 ^ 64, l)
  let ts := (ls.map (·.1)).eraseDups
  let gone := fun t => (ls.filter fun c => c.1 == t && locJournal c.2).map fun c => locJsn c.2
  let jb := fun t => distinct ((gone t).flatMap (s.recBands t))
  let ws := ls.filter fun c => !locJournal c.2
  let objs := fun t => (ws.filter (·.1 == t)).flatMap fun c => match s.wheel t (locWheel c.2) with
    | some w => s.curdObjs w (locOff c.2)
    | none => []
  let all := ts.map fun t => (t, jb t, objs t)
  let (ok, s) := s.eachOk all fun s x => s.moveRecords x.1 x.2.1 (gone x.1)
  let (ok, s) := if ok then s.eachOk ws fun s c => s.eraseCurd c.1 c.2 else (false, s)
  if !ok then (none, s)
  else
    let mb := distinct (all.flatMap fun x => s.staleBands x.1 x.2.2)
    let (ok, s) := s.eachOk (mb.filter fun e => s.erasable e.1) State.clearMain
    let (ok, s) := if ok then s.eachOk ts State.checkpoint else (false, s)
    if !ok then (none, s)
    else
      let bands := distinct (all.flatMap (·.2.1) ++ mb)
      let (ok, s) := s.eachOk (bands.filter fun e => s.erasable e.1) State.wipeOk
      if !ok then (none, s)
      else
        let later := bands.filter fun e => !s.erasable e.1
        let mask := ((List.range 16).filter fun b => later.any fun e => e.1 == b).foldl (fun m b => m + 2 ^ b) 0
        let s := ts.foldl (fun s t => s.setCshard t { s.cshard t with recs := (s.cshard t).recs.filter fun e => !(gone t).contains e.1 }) s
        let s := ls.foldl (fun s c => s.setCshard c.1 { s.cshard c.1 with
          zeroing := (s.cshard c.1).zeroing.filter (· != curdLoc (locWheel c.2) (locOff c.2) 0) }) s
        let s := s.setCshard sh { s.cshard sh with opened := Tab.set (s.cshard sh).opened jsn [] }
        if later.isEmpty then (some 0, (s.journal sh { type := Jt.sdDone, epoch := 0, arg0 := jsn, cmd := cmd }).2)
        else
          let x := s.cshard sh
          let s := s.setCshard sh { x with deferred := Tab.set x.deferred jsn (Tab.getD x.deferred jsn [] ++ later) }
          let s := later.foldl (fun s e => s.setCblade e.1 { s.cblade e.1 with
            defers := (s.cblade e.1).defers ++ [(sh, jsn, e.2)] }) s
          let s := (s.journal sh {
            type := Jt.defer, epoch := 0, arg0 := jsn, cmd := cmd, payload := later.flatMap fun e => leBytes 4 (e.1 + e.2 * 16) }).2
          (some mask, s.raise Ev.sdeallocDeferred (some .par) (some sh) [sh, mask])

/-! ## Deferred erases (R267, R311) -/

/-- The deferred erases of the shards this head has loaded that name a blade: shard, intent, BAND. -/
def State.defersOf (s : State) (b : Nat) : List (Nat × Nat × Nat) :=
  s.cell.shards.flatMap fun x => if s.cellSt x.1 ≠ Cst.ready then [] else
    x.2.deferred.flatMap fun d => (d.2.filter (·.1 == b)).map fun e => (x.1, d.1, e.2)

/-- One deferred erase done: it leaves its intent's list, and SD_DONE is journaled when the list is empty. -/
def State.deferErased (s : State) (b sh jsn n : Nat) : State :=
  let x := s.cshard sh
  let rest := (Tab.getD x.deferred jsn []).filter (· != (b, n))
  let s := s.setCblade b { s.cblade b with defers := (s.cblade b).defers.filter (· != (sh, jsn, n)) }
  let s := (s.setCshard sh { x with deferred := Tab.set x.deferred jsn rest }).raise Ev.deferErased (some .cell) (some b) [b, sh, n]
  if rest.isEmpty then (s.journal sh { type := Jt.sdDone, epoch := 0, arg0 := jsn }).2 else s

/-- The listed bands of a blade erased. -/
def State.eraseDeferred (s : State) (b : Nat) : Nat × State :=
  (s.defersOf b).foldl (fun (a : Nat × State) e =>
    let s := match a.2.band b e.2.2 with
      | some _ => a.2
      | none => a.2.setBand b e.2.2 { kind := .main, shard := e.1, st := .closed }
    let (ok, s) := s.wipeBand b e.2.2
    if ok then (a.1 + 1, s.deferErased b e.1 e.2.1 e.2.2) else (a.1, s)) (0, s)

/-- Intents that no command of this head carries any more are finished with a checkpoint of their shard (R126, R273). -/
def State.finishIntents (s : State) (sh : Nat) : State :=
  (s.cshard sh).opened.foldl (fun s e =>
    let owned := s.par.cmds.any fun c => c.2.blks.any fun b => b.jsn == some e.1 && (match b.step with
      | .sd _ => true
      | _ => false)
    if owned ∨ (Tab.get? (s.cshard sh).deferred e.1).isSome ∨
        (s.cshard sh).recs.any (fun r => r.2.type == Jt.sdDone && r.2.arg0 == e.1) then s
    else (s.sdErase sh e.1 none).2) s

end Sys2Proof.Machine
end

