-- ==== Sys2Proof/Machine/CellRows.lean ====
section
/-! DEFINITION. The Cellar's own work: journal pages, replicas, folds, checkpoints, garbage collection, health entries
(R249, R253 to R256, R259, R264, R265, R269, R278). -/
namespace Sys2Proof.Machine
open Sys2Proof

/-- Whether the Cellar works on a shard. -/
def State.cellReady (s : State) (sh : Nat) : Bool := s.on CELL_CTL.EN && s.cellSt sh == Cst.ready

/-! ## Journal pages (R249, R253, R254) -/

/-- Whether a lane's next page is full: not every record that waits fits it. -/
def State.pageFull (s : State) (sh : Nat) (l : Lane) : Bool :=
  let rs := s.pageRecs sh 16384 l.next
  decide (rs.length < l.next.length) || ((rs.map fun e => e.2.size).sum == 16384)

/-- A lane's next page programmed while the shard may be mutated. -/
def State.laneStep (s : State) (sh lane : Nat) (ok : Lane → Bool) (ms : List Medium) : State :=
  match Tab.get? (s.cshard sh).lanes lane with
  | none => s
  | some l => if s.on CELL_CTL.EN ∧ (s.cellSt sh = Cst.ready ∨ s.cellSt sh = Cst.releasing) ∧ ok l = true then
      s.scripted ms fun s => s.programLane sh lane
    else s

/-- JOURNAL_PAGE_PROGRAM: the page is full, or HOLD is 0. -/
def execJournalPageProgram (shard : Fin 256) (lane : Fin 8) (ms : List Medium) (s : State) : Host.Outcome State Fault Refusal :=
  .next (s.laneStep shard lane (fun l => s.rd CELL_JRN_CFG.HOLD == 0 || s.pageFull shard l) ms)

/-- JOURNAL_HOLD_EXPIRY: HOLD has passed since the first record of a part-filled page. -/
def execJournalHoldExpiry (shard : Fin 256) (lane : Fin 8) (ms : List Medium) (s : State) : Host.Outcome State Fault Refusal :=
  .next (s.laneStep shard lane (fun l => s.due l.holdUntil) ms)

/-- Whether a blade's replica of a page has not reported within TIMEOUT. -/
def State.replicaLate (s : State) (blade : Nat) (r : PageLoc × RepSt) : Bool :=
  r.1.blade == blade && (match r.2 with
    | .issued t => s.passed (t + s.rd CELL_JRN_CFG.TIMEOUT * mgmtTick)
    | _ => false)

/-- REPLICA_TIMEOUT: a replica that has not reported within TIMEOUT fails. -/
def execReplicaTimeout (shard : Fin 256) (page : Nat) (blade : Fin 16) (ms : List Medium) (s : State) :
    Host.Outcome State Fault Refusal :=
  match s.jpage shard page with
  | none => .next s
  | some x => match x.reps.find? (s.replicaLate blade) with
    | some r => .next (s.scripted ms fun s => s.failReplica shard page r.1 3)
    | none => .next s

/-- Blades of a lane without a readable replica of a page. -/
def State.lacking (s : State) (l : Lane) (p : JPage) : List Nat :=
  (l.blades.filter s.laneBlade).filter fun b => !p.reps.any fun r => r.1.blade == b && r.2 != .failed

/-- A page written from a replica that can be read to the blades of its lane that lack it. -/
def State.mirrorPage (s : State) (sh p : Nat) : State :=
  match s.jpage sh p with
  | none => s
  | some x =>
    let l : Lane := Tab.getD (s.cshard sh).lanes x.lane ⟨[], [], none⟩
    let (img, s) := (x.reps.filter fun r => r.2 == .done).foldl (fun (a : Option (List Byte) × State) r =>
      match a.1 with
      | some _ => a
      | none => a.2.readAt r.1 0 16384) (none, s)
    match img with
    | none => s
    | some img =>
      let h : PageHead := { kind := Pk.journal, obj := x.recs.headD 0 + x.lane * 2 ^ 55, used := x.used, wseq := x.wseq }
      (s.lacking l x).foldl (fun s b =>
        match s.writeUnit b sh (laneBand sh x.lane) [(h, img.take x.used)] 16 with
        | (some (n, d), s) => (match s.jpage sh p with
          | some x => s.setJpage sh p { x with reps := x.reps ++ [(⟨b, n, d⟩, .done)] }
          | none => s)
        | (none, s) => s) s

/-- The unreleased pages of a lane that lack a replica and wait for none. -/
def State.mirrorNeeds (s : State) (sh lane : Nat) (l : Lane) : List (Nat × JPage) :=
  (s.cshard sh).pages.filter fun p => p.2.lane == lane && !p.2.released && !(s.lacking l p.2).isEmpty &&
    p.2.reps.all fun r => match r.2 with
      | .issued _ => false
      | _ => true

/-- REMIRROR: every unreleased page of a lane that lacks a replica is mirrored to the lane's blades. -/
def execRemirror (shard : Fin 256) (lane : Fin 8) (ms : List Medium) (s : State) : Host.Outcome State Fault Refusal :=
  let sh : Nat := shard
  if !s.cellReady sh then .next s
  else .next (s.scripted ms fun s =>
    let s := s.mendLane sh lane
    match Tab.get? (s.cshard sh).lanes lane.val with
    | none => s
    | some l =>
      let ps := s.mirrorNeeds sh lane l
      if ps.isEmpty then s
      else
        let s := ps.foldl (fun s p => s.mirrorPage sh p.1) s
        s.raise Ev.remirrorDone (some .cell) (some sh) [sh, lane])

/-! ## Folds (R255, R256) -/

/-- FOLD: the unfolded payload of a pool reaches the capacity of one of its wheels. -/
def execFold (shard : Fin 256) (pool : Fin 16) (ms : List Medium) (s : State) : Host.Outcome State Fault Refusal :=
  let total := ((s.foldable shard pool).map fun e => e.2.payload.length).sum
  if !s.cellReady shard ∨ total < s.wheelCap pool (s.rd (CARC_POOL.CUR_GEN pool)) then .next s
  else .next (s.scripted ms fun s =>
    let (w, s) := s.foldPool shard pool
    s.sealAll shard none none w.toList)

/-- FOLD_AGE_EXPIRY: the oldest unfolded record of a pool is AGE old. -/
def execFoldAgeExpiry (shard : Fin 256) (pool : Fin 16) (ms : List Medium) (s : State) : Host.Outcome State Fault Refusal :=
  match s.foldable shard pool with
  | [] => .next s
  | e :: _ =>
    if !s.cellReady shard ∨ !s.passed (e.2.at_ + s.rd CELL_FOLD_CFG.AGE * mgmtTick) then .next s
    else .next (s.scripted ms fun s =>
      let (w, s) := s.foldPool shard pool
      s.sealAll shard none none w.toList)

/-! ## Checkpoints (R259) -/

/-- A checkpoint begun: EV_CKPT_LATE falls due four PERIODs later; once it is durable, intents without a command are
finished. -/
def State.ckptStep (s : State) (sh : Nat) : Bool × State :=
  let x := s.cshard sh
  let s := s.setCshard sh { x with ckptDue := some (x.ckptDue.getD (s.inMgmt (4 * s.rd CELL_CKPT_CFG.PERIOD))) }
  let (ok, s) := s.checkpoint sh
  (ok, if ok then s.finishIntents sh else s)

/-- CHECKPOINT_PERIOD_EXPIRY: PERIOD has passed, or the journal has grown past TAIL_MIB since the last cut. -/
def execCheckpointPeriodExpiry (shard : Fin 256) (ms : List Medium) (s : State) : Host.Outcome State Fault Refusal :=
  let x := s.cshard shard
  if s.cellReady shard ∧ (s.due x.ckptAt = true ∨ s.rd CELL_CKPT_CFG.TAIL_MIB * 2 ^ 20 < x.cutBytes) then
    .next (s.scripted ms fun s => (s.ckptStep shard).2)
  else .next s

/-- CHECKPOINT_LATE_EXPIRY. -/
def execCheckpointLateExpiry (shard : Fin 256) (s : State) : Host.Outcome State Fault Refusal :=
  let x := s.cshard shard
  if s.due x.ckptDue then
    .next ((s.setCshard shard { x with ckptDue := none }).raise Ev.ckptLate (some .cell) (some shard.val) [shard.val])
  else .next s

/-! ## Garbage collection and wear (R264, R265, R269) -/

/-- Whether garbage of a shard may be collected (R154). -/
def State.gcMay (s : State) (sh : Nat) : Bool :=
  s.cellReady sh && s.on CELL_CTL.GC_EN && s.rd (SEP_SHARD.STATE sh) == Sst.loaded

/-- GC_VICTIM_COLLECT: the victim of a shard on a blade is emptied, where its live share is low or FREE bands run short. -/
def execGcVictimCollect (blade : Fin 16) (shard : Fin 256) (ms : List Medium) (s : State) : Host.Outcome State Fault Refusal :=
  if !s.gcMay shard then .next s
  else match s.victim blade shard with
    | none => .next s
    | some (n, y) =>
      if 100 * y.liveUnits ≤ s.rd CELL_GC_CFG.VICTIM_LIVE * s.bandPlaces blade .main ∨ s.freeBands blade < s.rd CELL_GC_CFG.GC_LOW then
        .next (s.scripted ms fun s => (((s.emptyMain blade n).2).emptyBand blade n).countBands blade)
      else .next s

/-- WEAR_LEVEL_CHECK: where the spread of erase counts is too wide, the band with the lowest is emptied. -/
def execWearLevelCheck (blade : Fin 16) (ms : List Medium) (s : State) : Host.Outcome State Fault Refusal :=
  let b : Nat := blade
  if s.due (s.cblade b).wlAt = false then .next s
  else
    let s := s.setCblade b { s.cblade b with wlAt := some (s.inMgmt (s.rd CELL_GC_CFG.WL_PERIOD)) }
    match s.wearSpread b with
    | (some (n, y), hi) =>
      if s.on CELL_CTL.WL_EN ∧ s.rd CELL_GC_CFG.WL_GAP < hi - y.ec ∧ s.cellReady y.shard = true then
        .next (s.scripted ms fun s => (((s.emptyMain b n).2).emptyBand b n).countBands b)
      else .next s
    | (none, _) => .next s

/-- Whether a refold of a wheel waits for its SEAL record. -/
def State.reclaiming (s : State) (sh wheel : Nat) : Bool :=
  (s.cshard sh).recs.any fun e => !e.2.confirmed && (match e.2.done with
    | .fold _ _ _ o => o == some wheel
    | _ => false)

/-- WHEEL_RECLAIM: a sealed wheel with few live curd bytes is refolded and its frame freed. -/
def execWheelReclaim (shard : Fin 256) (wheel : Nat) (ms : List Medium) (s : State) : Host.Outcome State Fault Refusal :=
  match s.wheel shard wheel with
  | none => .next s
  | some w =>
    if s.gcMay shard ∧ s.mayReclaim shard wheel = true ∧ s.reclaiming shard wheel = false ∧
        100 * w.liveBytes < s.rd CELL_GC_CFG.WHEEL_LIVE * s.wheelCap w.pool w.gen then
      .next (s.scripted ms fun s => (s.reclaim shard wheel none).2)
    else .next s

/-! ## Health (R278) -/

/-- STATE of a health entry. -/
def healthState (st : Nat) : Nat :=
  if st = Cbs.absent then 1 else if st = Cbs.failed ∨ st = Cbs.retired then 2 else if st = Cbs.exhausted then 3 else 0

/-- The PERIODIC entry of a blade. -/
def State.periodic (s : State) (b : Nat) : State :=
  let x := s.bladeOr b
  let c := s.cblade b
  let total := x.id.dies * x.id.blocks
  let ecs := x.blocks.map fun e => e.2.ec
  let mean := ecs.sum / max total 1
  let least := if x.blocks.length < total then 0 else ecs.foldl min (ecs.headD 0)
  let used := (c.spares.map (·.2)).sum
  s.healthEntry (leBytes 1 1 ++ leBytes 1 b ++ leBytes 1 (healthState (s.carcSt b)) ++ leBytes 1 (ofSigned x.hotTemp 8) ++ zeros 4 ++
    leBytes 8 s.now ++ leBytes 4 least ++ leBytes 4 (ecs.foldl max 0) ++ leBytes 4 mean ++ leBytes 4 x.id.ratedEc ++
    leBytes 4 (x.id.dies * x.id.spare - used) ++ leBytes 2 (s.spareMin b).1 ++ leBytes 2 (s.spareMin b).2 ++ leBytes 4 c.retired ++
    leBytes 4 (s.freeBands b) ++ leBytes 8 c.pagesRead ++ leBytes 8 c.pagesProg ++ leBytes 8 c.erases ++ leBytes 4 c.l0Repairs ++
    leBytes 4 c.uncorr ++ leBytes 4 c.progFails ++ leBytes 4 c.eraseFails ++ leBytes 4 (mean * 1000 / max x.id.ratedEc 1))

/-- HEALTH_PERIOD_EXPIRY: an entry for each attached blade, every PERIOD units of 10 management ticks. -/
def execHealthPeriodExpiry (s : State) : Host.Outcome State Fault Refusal :=
  if !s.on CELL_CTL.EN ∨ s.due s.cell.healthAt = false then .next s
  else
    let s := s.setCell { s.cell with healthAt := some (s.inMgmt (10 * s.rd CELL_HEALTH_RING.PERIOD)) }
    .next ((List.range 16).foldl (fun s b => if s.rd (CELL_BLADE.STATE b) = 0 then s else s.periodic b) s)

end Sys2Proof.Machine
end

