-- ==== Sys2Proof/Machine/CellDesc.lean ====
section
/-! DEFINITION. The Cellar's descriptors (R239, R248, R267, R273 to R281, R308, R311). -/
namespace Sys2Proof.Machine
open Sys2Proof

/-- A started descriptor of an opcode of the Cellar. -/
def State.cellDesc (s : State) (d : DescRef) (op : Nat) (k : Fetched → State) : Host.Outcome State Fault Refusal :=
  match s.startedAt .cell d op with
  | none => .next s
  | some f => .next (k f)

/-! ## Blades (R239, R267, R280) -/

/-- Whether a blade's geometry lies inside R239. -/
def BladeId.fits (g : BladeId) : Bool :=
  decide (16 ≤ g.dies ∧ g.dies ≤ 512 ∧ g.dies % 16 = 0 ∧ 1024 ≤ g.blocks ∧ g.blocks ≤ 65536 ∧ 768 ≤ g.pagesQlc ∧ g.pagesQlc ≤ 3072 ∧
    g.pagesQlc % 64 = 0 ∧ 8 ≤ g.spare ∧ g.spare ≤ 1024)

/-- Deferred bands of a blade that belong to shards this head has not loaded, by shard. -/
def State.peerDefers (s : State) (b : Nat) : List (Nat × List Nat) :=
  let ds := (s.cblade b).defers.filter fun e => s.cellSt e.1 != Cst.ready
  let shs := ds.foldl (fun (l : List Nat) e => if l.contains e.1 then l else l ++ [e.1]) []
  shs.map fun sh => (sh, (ds.filter (·.1 == sh)).map (·.2.2))

/-- A request to the peer on behalf of a descriptor of the Cellar. -/
def State.maintAsk (s : State) (d : DescRef) (mk : Nat → TenMsg) : State :=
  let tag := s.ten.nextTag
  (s.setTen { s.ten with nextTag := (tag + 1) % 2 ^ 32, maint := s.ten.maint ++ [(tag, d)] }).tenSend (mk tag)

/-- Every band of a blade erased by WIPE, but for the ANCHOR bands of the other head; what the Cellar kept of it goes. -/
def State.wiped (s : State) (b : Nat) : Nat × State :=
  let x := s.bladeOr b
  let c := s.cblade b
  let mine := c.bands.filter fun e => e.2.kind == .anchor && !(s.anchorBands.contains e.1)
  let s := s.setCblade b { c with bands := mine }
  let s := (s.defersOf b).foldl (fun s e => s.deferErased b e.1 e.2.1 e.2.2) s
  let s := s.setCblade b { s.cblade b with defers := [] }
  (x.id.dies / 16 * x.bandBlocks - 2, s)

/-- A blade ATTACHED: its counts, the wear timer, the completion. -/
def State.attached (s : State) (b : Nat) (d : DescRef) (erased : Nat) : State :=
  let s := s.wr (CELL_BLADE.STATE b) 1
  let s := (s.setHport b { s.hport b with attach := none }).setCblade b { s.cblade b with
    wlAt := some (s.inMgmt (s.rd CELL_GC_CFG.WL_PERIOD)) }
  let s := s.countBands b
  s.finish .cell d St.success (s.freeBands b) erased

/-- BLADE_ATTACH: deferred bands are erased here, or by the peer for the shards it owns; ERASE_ALL wipes the blade, with the
peer's consent. It waits while the peer is asked. -/
def execBladeAttach (d : DescRef) (ms : List Medium) (s : State) : Host.Outcome State Fault Refusal :=
  s.cellDesc d Op.bladeAttach fun f =>
    let b := f.at 28 1
    let all := (f.at 29 1).testBit 0
    if 15 < b ∨ s.bldSt b ≠ Bst.ready then s.finish .cell d St.bladeInvalid
    else if !(s.bladeOr b).id.fits then s.finish .cell d St.geometryUnsupported
    else if s.ten.maint.any (·.2 == d) then s
    else s.scripted ms fun s =>
      if all then
        let (a, s) := s.bladeSync b ⟨bcpImg Bop.wipe 0 0 0 0 0 0 [], [], []⟩
        if a.status = St.success then
          let (n, s) := s.wiped b
          s.attached b d n
        else if a.status = St.wipeNoConsent ∧ s.rd TEN_STATUS.STATE = Tst.active ∧ (s.hport b).attach ≠ some d then
          ((s.setHport b { s.hport b with attach := some d }).wr (CELL_BLADE.STATE b) 3).maintAsk d (fun t => .wipeAsk t b)
        else (s.wr (CELL_BLADE.STATE b) 0).finish .cell d a.status
      else
        let (n, s) := s.eraseDeferred b
        let asks := s.peerDefers b
        if asks.isEmpty then s.attached b d n
        else if s.rd TEN_STATUS.STATE = Tst.active then
          asks.foldl (fun s e => s.maintAsk d fun t => .deferErase t b e.1 e.2) (s.wr (CELL_BLADE.STATE b) 3)
        else s

/-- BLADE_DETACH: a blade without live content. -/
def execBladeDetach (d : DescRef) (s : State) : Host.Outcome State Fault Refusal :=
  s.cellDesc d Op.bladeDetach fun f =>
    let b := f.at 28 1
    if 15 < b ∨ s.rd (CELL_BLADE.STATE b) = 0 then s.finish .cell d St.bladeInvalid
    else if (s.cblade b).bands.any fun e => e.2.kind != .anchor && e.2.units.any (·.live) then s.finish .cell d St.bladeBusy
    else
      let s := (s.setCblade b {}).wr (CELL_BLADE.STATE b) 0
      (s.countBands b).finish .cell d St.success

/-! ## Lanes (R248, R280) -/

/-- The blades a LANE_SET names, if they are distinct ONLINE members of one pool, 1 + P of them. -/
def State.laneBlades (s : State) (v : Nat) : Option (List Nat) :=
  (List.range 16).findSome? fun p =>
    let n := s.rd (CARC_POOL.P p) + 1
    let bs := (List.range n).map fun i => v / 16 ^ i % 16
    if s.on (CARC_POOL.VALID p) ∧ bs.all (fun b => (s.rd (CARC_POOL.MEMBERS p)).testBit b && s.carcSt b == Cbs.online) = true ∧
        bs.eraseDups.length = n ∧ v / 16 ^ n = 0 then some bs
    else none

/-- LANES of a shard kept. -/
def State.countLanes (s : State) (sh : Nat) : State := s.wr (CELL_SHARD.LANES sh) (s.cshard sh).lanes.length

/-- LANE_SET: a lane set or removed; records that wait in a removed lane go to the others. -/
def execLaneSet (d : DescRef) (s : State) : Host.Outcome State Fault Refusal :=
  s.cellDesc d Op.laneSet fun f =>
    let sh := f.at 28 1
    let n := f.at 29 1
    let x := s.cshard sh
    if 7 < n then s.finish .cell d St.laneInvalid
    else if (f.at 30 1).testBit 0 then
      if s.cellSt sh = Cst.ready ∧ (Tab.del x.lanes n).isEmpty then s.finish .cell d St.laneInvalid
      else
        let waiting := ((Tab.get? x.lanes n).map (·.next)).getD []
        let s := s.setCshard sh { x with lanes := Tab.del x.lanes n }
        ((waiting.foldl (fun s j => s.laneAdd sh j) s).countLanes sh).finish .cell d St.success
    else match s.laneBlades (f.at 32 2) with
      | none => s.finish .cell d St.laneInvalid
      | some bs =>
        let l : Lane := Tab.getD x.lanes n ⟨[], [], none⟩
        ((s.setCshard sh { x with lanes := Tab.set x.lanes n { l with blades := bs } }).countLanes sh).finish .cell d St.success

/-! ## Shards (R273, R277) -/

/-- SHARD_LOAD: `img` is what the metadata pages on the medium hold where this head has not written them. -/
def execShardLoad (d : DescRef) (img : Option Snapshot) (ms : List Medium) (s : State) : Host.Outcome State Fault Refusal :=
  s.cellDesc d Op.shardLoad fun f =>
    let sh := f.at 28 1
    if s.cellSt sh ≠ Cst.absent then s.finish .cell d St.shardState
    else if f.at 32 8 ≠ s.rd (LEASE_EPOCH.EPOCH sh) ∨ !s.liveLease sh then s.finish .cell d St.epochMismatch
    else s.scripted ms fun s =>
      match (s.wr (CELL_SHARD.STATE sh) Cst.loading).loadShard sh ((f.at 29 1).testBit 0) img with
      | (.error e, s) => ((s.dropShard sh).wr (CELL_SHARD.STATE sh) Cst.absent).finish .cell d e
      | (.ok (n, gen, full), s) =>
        let s := (s.wr (CELL_SHARD.STATE sh) Cst.ready).resumeRebuilds
        let s := (s.raise Ev.cellShardLoaded (some .cell) (some sh) [gen, n]).anaUpdate sh
        s.finish .cell d St.success n (gen + if full then 2 ^ 32 else 0)

/-- Whether every record of a shard is confirmed and every replica has reported. -/
def State.drained (s : State) (sh : Nat) : Bool :=
  ((s.cshard sh).recs.all fun e => e.2.confirmed) && (s.cshard sh).pages.all fun p => p.2.reps.all fun r => match r.2 with
    | .issued _ => false
    | _ => true

/-- SHARD_RELEASE: RELEASING until started programs have finished and a final checkpoint is durable, then ABSENT. -/
def execShardRelease (d : DescRef) (ms : List Medium) (s : State) : Host.Outcome State Fault Refusal :=
  s.cellDesc d Op.shardRelease fun f =>
    let sh := f.at 28 1
    if s.cellSt sh ≠ Cst.ready ∧ s.cellSt sh ≠ Cst.releasing then s.finish .cell d St.shardState
    else
      let s := s.wr (CELL_SHARD.STATE sh) Cst.releasing
      if !s.drained sh then s
      else s.scripted ms fun s => match s.checkpoint sh with
        | (false, s) => s
        | (true, s) =>
          let gen := s.rd (CELL_SHARD.CKPT_GEN sh)
          (((s.dropShard sh).wr (CELL_SHARD.STATE sh) Cst.absent).anaUpdate sh).finish .cell d St.success 0 gen

/-- CHECKPOINT; like FOLD_NOW and RECLAIM it waits for a load to end (R280). -/
def execCheckpoint (d : DescRef) (ms : List Medium) (s : State) : Host.Outcome State Fault Refusal :=
  s.cellDesc d Op.checkpoint fun f =>
    let sh := f.at 28 1
    if s.cellSt sh = Cst.loading then s
    else if s.cellSt sh ≠ Cst.ready then s.finish .cell d St.shardState
    else s.scripted ms fun s => match s.ckptStep sh with
      | (false, s) => s
      | (true, s) => s.finish .cell d St.success 0 (s.rd (CELL_SHARD.CKPT_GEN sh))

/-- Whether a fold or reclaim of a descriptor waits for its SEAL records. -/
def State.foldWaits (s : State) (sh : Nat) (d : DescRef) : Bool :=
  (s.cshard sh).recs.any fun e => !e.2.confirmed && (match e.2.done with
    | .fold x _ _ _ => x == some d
    | _ => false)

/-- FOLD_NOW: every pool of the shard; it completes when the last wheel is sealed. -/
def execFoldNow (d : DescRef) (ms : List Medium) (s : State) : Host.Outcome State Fault Refusal :=
  s.cellDesc d Op.foldNow fun f =>
    let sh := f.at 28 1
    if s.cellSt sh = Cst.loading then s
    else if s.cellSt sh ≠ Cst.ready then s.finish .cell d St.shardState
    else if s.foldWaits sh d then s
    else s.scripted ms fun s =>
      let (ws, s) := s.foldAll sh ((s.cshard sh).recs.length + 17) (List.range 16)
      if ws.isEmpty then s.finish .cell d St.success 0 0 else s.sealAll sh (some d) none ws

/-- RECLAIM: a wheel refolded whatever its live share. -/
def execReclaim (d : DescRef) (ms : List Medium) (s : State) : Host.Outcome State Fault Refusal :=
  s.cellDesc d Op.reclaim fun f =>
    let sh := f.at 28 1
    let w := f.at 32 8 % 2 ^ 40
    if s.cellSt sh = Cst.loading then s
    else if s.cellSt sh ≠ Cst.ready then s.finish .cell d St.shardState
    else if s.foldWaits sh d then s
    else if f.at 32 8 ≠ wheelId sh w ∨ s.mayReclaim sh w = false then s.finish .cell d St.wheelInvalid
    else if s.rd (SEP_SHARD.STATE sh) ≠ Sst.loaded then s
    else s.scripted ms fun s => (s.reclaim sh w (some d)).2

/-- HEALTH_NOW. -/
def execHealthNow (d : DescRef) (s : State) : Host.Outcome State Fault Refusal :=
  s.cellDesc d Op.healthNow fun f =>
    let b := f.at 28 1
    if 15 < b ∨ s.rd (CELL_BLADE.STATE b) = 0 then s.finish .cell d St.bladeInvalid
    else (s.periodic b).finish .cell d St.success

end Sys2Proof.Machine
end

