-- ==== Sys2Proof/Machine/Tally.lean ====
section
/-! DEFINITION. The Tally beyond recording: refill, spilling, EVENT_OUT, the loss counts (R474 to R479). -/
namespace Sys2Proof.Machine
open Sys2Proof

/-- The 256 bytes of an entry, CRC32C last (R474). -/
def TallyEntry.bytes (e : TallyEntry) : List Byte :=
  let arg := fun i => leBytes 8 (e.args.getD i 0)
  let val := fun i => leBytes 8 (e.values.getD i 0)
  let id := fun i => leBytes 4 (e.ids.getD i 0)
  let head := leBytes 2 e.code ++ leBytes 1 e.values.length ++ leBytes 1 e.flags ++ leBytes 2 e.origin ++
    leBytes 2 e.supp ++ leBytes 8 e.seq ++ leBytes 8 e.time
  let body := head ++ (List.range 4).flatMap arg ++ (List.range 16).flatMap val ++ (List.range 16).flatMap id ++ zeros 4
  body ++ leBytes 4 (crc32c body)

/-- TAL_ENTRY_w: bytes 8w to 8w + 7 of the entry at TAL_IDX.RD; 0 where no entry stands there. -/
def State.tallyWord (s : State) (w : Nat) : Nat :=
  match Tab.get? s.tally.buf (s.rd TAL_IDX.RD) with
  | some e => fieldAt e.bytes (8 * w) 8
  | none => 0

/-- The code's bucket after one refill: RATE more, up to BURST (R476). -/
def State.refilled (s : State) (x b : Nat) : Nat :=
  min (s.rd (TAL_CODE.BURST x) * 256) (b + s.rd (TAL_CODE.RATE x))

/-- TALLY_TOKEN_REFILL: every bucket that is not full gains RATE / 256 tokens, up to BURST. -/
def execTallyTokenRefill (s : State) : Host.Outcome State Fault Refusal :=
  .next { s with tally := { s.tally with bucket := Tab.mapV s.tally.bucket s.refilled } }

/-- Whether the DRAM ring can take another entry: one entry always stays free (R478). -/
def State.spillRoom (s : State) : Bool :=
  (s.rd TAL_RING_IDX.PROD + 1) % 2 ^ s.rd TAL_RING.LOG2_ENTRIES != s.rd TAL_RING_IDX.CONS

/-- TALLY_SPILL: the oldest due entry is copied to the DRAM ring while SPILL_EN is 1 and the ring has room. -/
def execTallySpill (s : State) : Host.Outcome State Fault Refusal :=
  match s.tally.due with
  | [] => .next s
  | slot :: rest =>
    if !s.on TAL_RING.SPILL_EN || !s.spillRoom then .next s
    else
      match Tab.get? s.tally.buf slot with
      | none => .next { s with tally := { s.tally with due := rest } }
      | some e =>
        let p := s.rd TAL_RING_IDX.PROD
        match s.dmaWrite .tal (s.rd TAL_RING.BASE * 4096 + p * 256) e.bytes with
        | .error er => .next (s.dmaFailed .tal er)
        | .ok s =>
          let s := s.wr TAL_RING_IDX.PROD ((p + 1) % 2 ^ s.rd TAL_RING.LOG2_ENTRIES)
          .next { s with tally := { s.tally with due := rest } }

/-- TRIGGER_PULSE_END: a pulse that has lasted 1 µs falls and its low time runs; when the low time is over, the merged
pulse that is owed starts (R479). -/
def execTriggerPulseEnd (s : State) : Host.Outcome State Fault Refusal :=
  if s.due s.tally.pulseEnd then
    .next { s with
      tally := { s.tally with pulseEnd := none, lowEnd := some (s.now + 1600) }, pins := { s.pins with eventOut := false } }
  else if s.due s.tally.lowEnd then
    if s.tally.merged = 0 then .next { s with tally := { s.tally with lowEnd := none } }
    else .next (({ s with
      tally := { s.tally with lowEnd := none, merged := 0, pulseEnd := some (s.now + 1600) },
      pins := { s.pins with eventOut := true } } : State).wired 3)
  else .next s

/-- A lease loss drives EVENT_OUT high for LOSS_HOLD management ticks; a pulse under way counts as delivered, and a merged
pulse that is owed is dropped and counted (R479). -/
def State.leaseLossIndication (s : State) : State :=
  if !s.on TAL_OUT_CFG.LEASE_EN then s
  else
    let s1 := s.bump TAL_STATUS.TRIG_SUPP s.tally.merged
    { s1 with
      tally := { s1.tally with
        lossUntil := some (s1.inMgmt (s1.rd TAL_OUT_CFG.LOSS_HOLD)), pulseEnd := none, lowEnd := none, merged := 0 },
      pins := { s1.pins with eventOut := true } }

/-- LOSS_HOLD_EXPIRY: the indication ends and the ball stays low for at least 1 µs (R479). -/
def execLossHoldExpiry (s : State) : Host.Outcome State Fault Refusal :=
  if s.due s.tally.lossUntil then
    .next { s with
      tally := { s.tally with lossUntil := none, lowEnd := some (s.now + 1600) }, pins := { s.pins with eventOut := false } }
  else .next s

/-- TALLY_CLEAR_COUNTS: every TAL_COUNT_x becomes 0; CLR_COUNTS clears itself. -/
def execTallyClearCounts (s : State) : Host.Outcome State Fault Refusal :=
  .next { s with csr := Tab.keep s.csr fun k _ => k < 0xF614000 * 64 || 0xF61C000 * 64 ≤ k }

end Sys2Proof.Machine
end

