-- ==== Sys2Proof/Machine/LeaseOps.lean ====
section
/-! DEFINITION. The Lease unit's shared operations: messages and events, epochs, winning, renewing, losing and leaving a
shard, abdication, peer loss, the re-execution lists (R317, R329 to R342, R349). -/
namespace Sys2Proof.Machine
open Sys2Proof

/-! ## Counts and events -/

/-- Modes of LEASE_CTL.MODE. -/
def Lmode.running : Nat := 0
def Lmode.draining : Nat := 1
def Lmode.drained : Nat := 2
def Lmode.abdicated : Nat := 3

def State.leaseMode (s : State) : Nat := s.rd LEASE_CTL.MODE
def State.solo (s : State) : Bool := s.on LEASE_CTL.SOLO
def State.linkActive (s : State) : Bool := s.rd TEN_STATUS.STATE == Tst.active

/-- A message of the peer has been taken in: its credits go back (R324). -/
def State.received (s : State) (key n : Nat) : State := if s.linkActive then s.tenSend (.credit key n) else s

/-- A majority of the configured blades (R332). -/
def State.leaseMajority (s : State) : Nat := popCount (s.rd LEASE_CFG.BLADES) 16 / 2 + 1

/-- Blades counted in quorums and renewals (R317). -/
def State.counted (s : State) : List Nat :=
  (List.range 16).filter fun b => s.bit LEASE_CFG.BLADES b && !(s.hport b).miswired

/-- Whether a shard is in QUIET, HELD or RELEASING. -/
def State.holds (s : State) (sh : Nat) : Bool :=
  s.leaseSt sh == Lst.quiet || s.leaseSt sh == Lst.held || s.leaseSt sh == Lst.releasing

/-- Whether the lease of a shard is renewed: QUIET, HELD, or RELEASING before commit (R332). -/
def State.renewed (s : State) (sh : Nat) : Bool :=
  s.leaseSt sh == Lst.quiet || s.leaseSt sh == Lst.held || (s.leaseSt sh == Lst.releasing && !(s.leaseX sh).committed)

def State.heldShards (s : State) : List Nat := (List.range 256).filter s.holds

/-- DRAINED once no shard is held; the DRAIN descriptor completes (R346). -/
def State.drainCheck (s : State) : State :=
  if s.leaseMode = Lmode.draining ∧ s.rd LEASE_STATUS.OWNED = 0 then
    let s := s.wr LEASE_CTL.MODE Lmode.drained
    match s.leaseU.drain with
    | some d => (s.setLease { s.leaseU with drain := none }).finish .lease d St.success
    | none => s
  else s

/-- A lease event: the first EVENT_WAIT takes it, or it is held, 1,024 at most (R349). -/
def State.leaseEvent (s : State) (kind sh epoch : Nat) : State :=
  match s.firstWaiting .lease Op.eventWait with
  | some (d, _) => s.finish .lease d St.success (kind + sh * 256) epoch
  | none =>
    if s.leaseU.events.length < 1024 then s.setLease { s.leaseU with events := s.leaseU.events ++ [(kind, sh, epoch)] } else s

/-- A shard takes a lease state; OWNED, the Parlour state and a drain under way follow. -/
def State.setLeaseSt (s : State) (sh st : Nat) : State :=
  let s := s.wr (LEASE_SHARD.STATE sh) st
  let s := s.wr LEASE_STATUS.OWNED s.heldShards.length
  (s.anaUpdate sh).drainCheck

/-! ## Commands to blades -/

/-- SET_EPOCH with TAKEOVER (R304). -/
def setEpochCmd (sh epoch : Nat) : BCmd := ⟨bcpImg Bop.setEpoch 16 sh 0 epoch 0 0 [], [], []⟩
def epochReadCmd (sh : Nat) : BCmd := ⟨bcpImg Bop.epochRead 0 sh 0 0 0 16 [], [], []⟩
def releaseCmd (sh epoch : Nat) : BCmd := ⟨bcpImg Bop.release 0 sh 0 epoch 0 0 [], [], []⟩

/-- RENEW of the 64 shards from `base` on: `mask` of those renewed, `epochs` all 64 (R306). -/
def renewCmd (base mask : Nat) (epochs : List Nat) : BCmd :=
  ⟨bcpImg Bop.renew 0 base 0 0 0 512 (zeros 20 ++ leBytes 8 mask), epochs.flatMap (leBytes 8), []⟩

/-- LEASE_RELEASE of a shard issued to a list of blades. -/
def State.releaseOn (s : State) (sh epoch : Nat) (bs : List Nat) : State :=
  bs.foldl (fun s b => (s.issue b 0 (releaseCmd sh epoch) (.release sh)).2) s

/-- The highest counter known of a shard, plus 1, with this head's bit (R331). -/
def State.newEpoch (s : State) (sh : Nat) : Nat :=
  let own := s.rd (LEASE_EPOCH.EPOCH sh) / 2
  let note := Tab.getD s.leaseU.note sh 0 / 2
  (max (max own note) (s.leaseX sh).counter + 1) * 2 + s.headNo

/-- SET_EPOCH of the shard's epoch issued to a blade; the first one of a takeover fixes the epoch (R331, R341). -/
def State.sendEpoch (s : State) (sh b : Nat) : State :=
  let x := s.leaseX sh
  let s := if x.sent.isEmpty ∧ s.on (LEASE_SHARD.BY_TAKE sh) ∧ s.leaseSt sh = Lst.winning then
      s.wr (LEASE_EPOCH.EPOCH sh) (s.newEpoch sh) else s
  match s.issue b 0 (setEpochCmd sh (s.rd (LEASE_EPOCH.EPOCH sh))) (.setEpoch sh) with
  | (true, s) => s.setLeaseX sh { x with sent := if x.sent.contains b then x.sent else x.sent ++ [b] }
  | (false, s) => s

/-- EPOCH_READ of a shard issued to a blade. -/
def State.readEpoch (s : State) (sh b : Nat) : State := (s.issue b 0 (epochReadCmd sh) (.epochRead sh)).2

/-! ## Winning (R336, R341, R342) -/

/-- A shard enters WINNING: by OFFER with SET_EPOCH to every blade at once, by TAKE with EPOCH_READ of every blade. -/
def State.startWin (s : State) (sh : Nat) (take : Bool) (d : Option DescRef) : State :=
  let x := s.leaseX sh
  let s := s.wr (LEASE_SHARD.BY_TAKE sh) (if take then 1 else 0)
  let s := s.setLeaseX sh { x with
    accepts := [], sent := [], ready := [], takeBy := some (s.inMgmt (s.rd LEASE_CFG.TAKE_LIMIT)), committed := false,
    offered := false, released := [], take := d }
  let s := (s.wr (LEASE_SHARD.ACCEPTS sh) 0).setLeaseSt sh Lst.winning
  if take then s.counted.foldl (fun s b => s.readEpoch sh b) s
  else
    let s := s.wr (LEASE_EPOCH.EPOCH sh) (s.newEpoch sh)
    s.counted.foldl (fun s b => s.sendEpoch sh b) s

/-- A majority has accepted: QUIET, WON, the event, the TAKE descriptor. The lease runs from the issue of the SET_EPOCH that
won; the Meter counts from this tick (R332, R334, R336, R467). -/
def State.win (s : State) (sh issuedAt : Nat) : State :=
  let x := s.leaseX sh
  let epoch := s.rd (LEASE_EPOCH.EPOCH sh)
  let s := s.setLeaseX sh { x with
    ends := issuedAt + s.rd LEASE_CFG.TERM * mgmtTick, takeBy := none, quietEnd := some (s.now + 3200000), tailEnd := none,
    readBy := none, take := none }
  let s := ((s.meterStart sh s.now).setLeaseSt sh Lst.quiet).tenSend (.won sh epoch s.now)
  let s := s.raise Ev.shardWon (some .lease) (some sh) [sh, epoch, s.rd (LEASE_SHARD.BY_TAKE sh)]
  let s := s.leaseEvent 3 sh epoch
  match x.take with
  | some d => s.finish .lease d St.success 0 epoch
  | none => s

/-- EPOCH_NOT_NEWER: the counter the blade carries plus 1, sent again to every blade it was sent to (R331); an owner sends
its raised epoch to every counted blade (R342). -/
def State.raiseEpoch (s : State) (sh epoch : Nat) : State :=
  let x := s.leaseX sh
  let own := s.renewed sh
  let s := s.setLeaseX sh { x with counter := max x.counter (epoch / 2), accepts := if own then x.accepts else [] }
  let s := s.wr (LEASE_EPOCH.EPOCH sh) (s.newEpoch sh)
  (if own then s.counted else x.sent).foldl (fun s b => s.sendEpoch sh b) s

/-- The answer of a blade to SET_EPOCH (R304, R336, R341). -/
def State.epochAnswered (s : State) (sh b : Nat) (c : BCmd) (since : Nat) (a : BAns) : State :=
  let x := s.leaseX sh
  let cur := s.rd (LEASE_EPOCH.EPOCH sh)
  if a.status = St.success then
    if s.leaseSt sh = Lst.winning ∧ c.epoch = cur ∧ !(x.accepts.contains b) then
      let acc := x.accepts ++ [b]
      let s := (s.setLeaseX sh { x with accepts := acc }).wr (LEASE_SHARD.ACCEPTS sh) acc.length
      if acc.length = s.leaseMajority then s.win sh since else s
    else s
  else if a.status = St.epochNotNewer then
    if (s.leaseSt sh = Lst.winning ∨ s.renewed sh) ∧ c.epoch = cur ∧ cur < a.result then s.raiseEpoch sh a.result
    else if s.leaseSt sh = Lst.winning ∧ c.epoch = cur ∧ a.result = cur ∧ !(x.accepts.contains b) then s.raiseEpoch sh a.result
    else s
  else if a.status = St.leaseHeld ∧ s.leaseSt sh = Lst.winning then
    (s.setLeaseX sh { x with sent := x.sent.filter (· != b), ready := Tab.del x.ready b }).readEpoch sh b
  else s

/-- EPOCH_READ of a takeover answered: the counter, and when SET_EPOCH may go to the blade (R341). EFFECTIVE is the blade's
register. -/
def State.epochSeen (s : State) (sh b : Nat) (since : Nat) (a : BAns) : State :=
  if a.status ≠ St.success ∨ s.leaseSt sh ≠ Lst.winning then s
  else
    let x := s.leaseX sh
    let silence := fieldAt a.data 12 4
    let eff := ((s.blade b).map (·.effective)).getD 256
    let free := (fieldAt a.data 8 1).testBit 0
    let at_ := if free then s.now else since + (eff + 1 - silence) * 1600000
    let s := s.setLeaseX sh { x with counter := max x.counter (fieldAt a.data 0 8 / 2), ready := Tab.set x.ready b at_ }
    if free then s.sendEpoch sh b else s

/-! ## Renewing (R332) -/

/-- One renew round: RENEW to every counted blade for each group with a renewed shard, and a NOTE. A shard whose last round
found no majority counts the round as short. -/
def State.renewRound (s : State) : State :=
  let live := (List.range 256).filter fun sh => s.renewed sh && decide (s.now ≤ (s.leaseX sh).ends)
  let short := s.leaseU.rounds.getLast?.any fun r => r.shards.any fun e => decide (e.2.length < s.leaseMajority)
  let s := if short then s.bump LEASE_STATUS.ROUNDS_SHORT 1 else s
  let id := s.leaseU.nextRound
  let keep := s.leaseU.rounds.filter fun r => decide (s.now < r.at_ + s.rd LEASE_CFG.TERM * mgmtTick)
  let s := s.setLease { s.leaseU with
    nextRound := id + 1, rounds := keep ++ [⟨id, s.now, live.map fun sh => (sh, [])⟩]
    renewAt := some (s.inMgmt (s.rd LEASE_CFG.RENEW)) }
  let s := (List.range 4).foldl (fun s g =>
    let mine := live.filter fun sh => sh / 64 == g
    if mine.isEmpty then s
    else
      let mask := (mine.map fun sh => 2 ^ (sh % 64)).sum
      let epochs := (List.range 64).map fun i => s.rd (LEASE_EPOCH.EPOCH (g * 64 + i))
      s.counted.foldl (fun s b => (s.issue b 0 (renewCmd (g * 64) mask epochs) (.renew id)).2) s) s
  if s.solo then s
  else s.tenSend (.note (live.map fun sh =>
      (sh, s.rd (LEASE_EPOCH.EPOCH sh), ((s.leaseX sh).ends - s.now) / mgmtTick)) (s.leaseMode == Lmode.running))

/-- A shard's bit returned by one more blade in a round; a majority moves the end of the lease. -/
def State.renewBit (s : State) (r : Round) (sh b : Nat) : State :=
  let bs := ((r.shards.find? (·.1 == sh)).map (·.2)).getD []
  if bs.contains b then s
  else
    let bs := bs ++ [b]
    let s := s.setLease { s.leaseU with rounds := s.leaseU.rounds.map fun (q : Round) =>
      if q.id = r.id then { q with shards := q.shards.map fun e => if e.1 == sh then (sh, bs) else e } else q }
    let s := if r.id + 1 = s.leaseU.nextRound then s.wr (LEASE_SHARD.ACCEPTS sh) bs.length else s
    let x := s.leaseX sh
    if s.leaseMajority ≤ bs.length ∧ s.renewed sh ∧ s.now ≤ x.ends then
      s.setLeaseX sh { x with ends := max x.ends (r.at_ + s.rd LEASE_CFG.TERM * mgmtTick) }
    else s

/-- RENEW answered by a blade. A shard whose bit is missing is brought to its epoch there (R311, R342). -/
def State.renewAnswered (s : State) (id b : Nat) (c : BCmd) (a : BAns) : State :=
  if a.status ≠ St.success then s
  else (List.range 64).foldl (fun s i =>
    let sh := c.shard + i
    if !c.renewMask.testBit i then s
    else if a.result.testBit i then
      match s.leaseU.rounds.find? (·.id == id) with
      | some r => if r.shards.any (·.1 == sh) then s.renewBit r sh b else s
      | none => s
    else if s.liveLease sh ∧ fieldAt c.out (8 * i) 8 = s.rd (LEASE_EPOCH.EPOCH sh) then s.sendEpoch sh b
    else s) s

/-! ## Re-execution lists (R329) -/

/-- What a block holds is given back: its hold, its PENDING entry, its write-index entry, its unconfirmed records. -/
def State.dropBlk (s : State) (k i : Nat) (c : NvmeCmd) (b : Blk) : State :=
  let one := { c with blks := [b] }
  let s := (s.dropHolds one).withdrawWidx one
  s.setCell { s.cell with shards := Tab.mapV s.cell.shards fun _ x => { x with
    recs := Tab.mapV x.recs fun _ r => if r.cmd == some (k, i) && !r.confirmed then { r with cmd := none } else r } }

/-- The unfinished blocks of a command on a shard go back to their start, and the command to the shard's list. A command
that the peer forwarded is dropped: its receiving head runs it again. -/
def State.reexecBlocks (s : State) (sh k : Nat) (c : NvmeCmd) : State :=
  let todo := c.unfinished sh
  let s := todo.foldl (fun s e => s.dropBlk k e.2 c e.1) s
  if c.origin.isSome then ((s.unpinAll c).freeCtxPails k).freeContextOf k
  else
    let s := s.unpinAll { c with blks := todo.map (·.1) }
    let c := todo.foldl (fun (c : NvmeCmd) e => c.setBlk e.2 e.1.again) c
    ((s.setCmd k { c with reexec := true }).freeCtxPails k).listReexec sh k

/-- What a lapse does to one command (R333): reads go on for 2 ms, a command past its commit point is listed, one before it
ends with Asymmetric Access Inaccessible. -/
def State.lapseCmd (s : State) (sh k : Nat) : State :=
  match s.cmd k with
  | none => s
  | some c =>
    let todo := c.unfinished sh
    if !c.begun ∨ todo.isEmpty = true ∨ (c.reexec ∧ (Tab.getD s.leaseU.reexec sh []).contains k) ∨ !c.mutates then s
    else if c.commit then s.reexecBlocks sh k c
    else
      let s := todo.foldl (fun s e => s.dropBlk k e.2 c e.1) s
      let shs := (todo.map fun e => blockShard c.vol e.1.block).eraseDups
      let c := todo.foldl (fun (c : NvmeCmd) e => c.setBlk e.2 { e.1 with step := .done, hold := none, pend := false })
        { c with refused := c.refused ++ shs.map fun t => (t, Nv.inaccessible) }
      (s.setCmd k c).finishIfDone k

/-- Reads of a shard that are not finished when its data may no longer leave (R333, R335). -/
def State.listReads (s : State) (sh : Nat) : State :=
  s.par.cmds.foldl (fun s e => match s.cmd e.1 with
    | some c => if c.begun ∧ !c.mutates ∧ !(c.unfinished sh).isEmpty then s.reexecBlocks sh e.1 c else s
    | none => s) s

/-! ## Leaving a shard (R333, R336, R340) -/

/-- Descriptors and requests that wait for records of a shard that are lost end in failure. -/
def State.failRecs (s : State) (sh : Nat) : State :=
  (s.cshard sh).recs.foldl (fun s e =>
    if e.2.confirmed then s
    else match e.2.done with
      | .refAdj d _ _ => s.finish .sep d St.shardUnloaded
      | .maint tag => s.tenSend (.incremented tag St.shardState)
      | .fold (some d) _ _ _ => s.finish .cell d St.shardState
      | _ => s) s

/-- The Cellar drops a shard whose lease is gone (R277). -/
def State.dropCell (s : State) (sh : Nat) : State :=
  if s.cellSt sh = Cst.absent then s
  else
    let s := s.failRecs sh
    let s := (s.widxMap (fun e => blockShard e.vol e.block == sh && (e.confirmed || e.withdrawn)) (fun e => { e with withdrawn := true })).widxReap
    (s.dropShard sh).wr (CELL_SHARD.STATE sh) Cst.absent

/-- A shard leaves QUIET, HELD or RELEASING in the tick its lease ends: no more mutations, the Cellar drops it, commands end
or are listed, LOST goes out (R333). -/
def State.loseHold (s : State) (sh : Nat) : State :=
  let x := s.leaseX sh
  let epoch := s.rd (LEASE_EPOCH.EPOCH sh)
  let s := s.wr (LEASE_SHARD.STATE sh) Lst.unknown
  let s := s.par.cmds.foldl (fun s e => s.lapseCmd sh e.1) s
  let s := (s.dropCell sh).setLeaseX sh { x with
    quietEnd := none, tailEnd := some (s.now + 3200000), takeBy := none, committed := false, offered := false, readBy := none,
    begin_ := none, commit := none, drillBy := none }
  let s := (s.meterStop sh s.now).setLeaseSt sh Lst.unknown
  let s := ((s.tenSend (.lost sh)).raise Ev.leaseLost (some .lease) (some sh) [sh, epoch]).leaseLossIndication
  let s := s.leaseEvent 4 sh epoch
  let s := match x.begin_ with
    | some d => s.finish .lease d St.notOwner
    | none => s
  match x.commit with
  | some d => s.finish .lease d St.handoffRefused
  | none => s

/-- A released shard leaves RELEASING: PEER_HELD on WON, UNKNOWN otherwise (R336). `w`: the tick the Meter stops at. -/
def State.leaveReleased (s : State) (sh st w status epoch : Nat) : State :=
  let x := s.leaseX sh
  let drill := x.drillBy.isSome && st == Lst.peerHeld
  let s := s.par.cmds.foldl (fun s e => s.lapseCmd sh e.1) s
  let s := (s.dropCell sh).setLeaseX sh { x with
    takeBy := none, committed := false, offered := false, commit := none, drillBy := if drill then none else x.drillBy
    noteAt := s.now }
  let s := if drill then s.bump (LEASE_SHARD.DRILLS sh) 1 else s
  let s := (s.meterStop sh w).setLeaseSt sh st
  match x.commit with
  | some d => s.finish .lease d status 0 epoch
  | none => s

/-- The head abdicates (R340): every held shard is lost, HB_OUT stops, ABDICATE goes out, every released shard is released
on every blade. Causes 1 to 4 stand in the order of R340, 5: a supply or thermal trip. -/
def State.abdicate (s : State) (cause : Nat) : State :=
  if s.leaseMode = Lmode.abdicated then s
  else
    let mine := s.heldShards
    let s := mine.foldl (fun s sh => s.loseHold sh) s
    let s := s.wr LEASE_CTL.MODE Lmode.abdicated
    let s := s.setLease { s.leaseU with hbOutAt := none }
    let s := s.tenSend (.abdicate cause)
    let s := mine.foldl (fun s sh => s.releaseOn sh (s.rd (LEASE_EPOCH.EPOCH sh)) s.counted) s
    let s := s.raise Ev.abdicate (some .lease) none [cause]
    match s.leaseU.drain with
    | some d => (s.setLease { s.leaseU with drain := none }).finish .lease d St.drainState
    | none => s

/-- A Rail fails (R87); with both FAILED the head abdicates (R340). -/
def State.railLost (s : State) (r : Rail) (cause : Nat) : State :=
  let s := s.railFailed r cause
  if s.rd (RAIL_STATUS.STATE 0) = Rst'.failed ∧ s.rd (RAIL_STATUS.STATE 1) = Rst'.failed then s.abdicate 3 else s

/-! ## The peer (R329, R336, R339) -/

/-- Parts of a command that are with the peer for a shard come back for another run: those sent and those whose cancel is
not confirmed. -/
def State.reexecForwarded (s : State) (p : Nat → Bool) : State :=
  s.par.cmds.foldl (fun s e => match s.cmd e.1 with
    | none => s
    | some c =>
      let back := c.fwds.filter fun f => p f.shard && (f.st == 1 || f.st == 3)
      if back.isEmpty then s
      else
        let s := s.setCmd e.1 { c with
          reexec := true, fwds := c.fwds.map fun f => if back.contains f then { f with st := 4 } else f }
        back.foldl (fun s f => s.listReexec f.shard e.1) s) s

/-- Parts of commands that are still queued for the peer end when no lease on their shard can be confirmed (R118). -/
def State.failUnsent (s : State) (sh : Nat) : State :=
  s.par.cmds.foldl (fun s e => match s.cmd e.1 with
    | none => s
    | some c =>
      let gone := c.fwds.filter fun f => f.shard == sh && f.st == 0
      if gone.isEmpty then s
      else
        let s := s.dropQueued { c with fwds := gone }
        let c := { c with
          refused := c.refused ++ [(sh, Nv.inaccessible)]
          fwds := c.fwds.map fun f => if gone.contains f then { f with st := 2 } else f
          blks := c.blks.map fun b => if b.step = .fwd ∧ blockShard c.vol b.block = sh then { b with step := .done } else b }
        (s.setCmd e.1 c).finishIfDone e.1) s

/-- A PEER_HELD shard becomes UNKNOWN (R336). -/
def State.peerGone (s : State) (sh : Nat) : State :=
  if s.leaseSt sh = Lst.peerHeld then (s.setLeaseSt sh Lst.unknown).failUnsent sh else s

/-- The peer is declared lost: its shards become UNKNOWN, forwarded commands are listed, and with AUTO_TAKE every UNKNOWN
shard is taken over (R329, R339). -/
def State.peerLoss (s : State) : State :=
  let s := s.setLease { s.leaseU with peerLost := true }
  let s := s.wr LEASE_STATUS.PEER 2
  let s := (List.range 256).foldl (fun s sh => s.peerGone sh) s
  let s := s.reexecForwarded fun _ => true
  let s := (s.raise Ev.peerLost (some .lease)).leaseEvent 1 0 0
  if s.on LEASE_CTL.EN ∧ s.on LEASE_CTL.AUTO_TAKE ∧ s.leaseMode ≠ Lmode.abdicated then
    (List.range 256).foldl (fun s sh => if s.leaseSt sh = Lst.unknown then s.startWin sh true none else s) s
  else s

/-- Whether HB_IN is dead: no edge for HB_LOSS (R338). -/
def State.hbDead (s : State) : Bool := decide (s.leaseU.hbInAt + s.rd LEASE_HB_CFG.HB_LOSS ≤ s.now)

/-- Whether the link has been out of ACTIVE and RETRAIN for HB_LOSS. -/
def State.linkDead (s : State) : Bool :=
  match s.leaseU.linkOut with
  | some t => decide (t + s.rd LEASE_HB_CFG.HB_LOSS ≤ s.now)
  | none => false

/-- Whether an activation of UCODE or ISL runs (R434). -/
def State.activating (s : State) : Bool := s.jig.acts.any fun a => a.1 != 2

/-- The peer is lost, at the end of an activation where one runs (R434). -/
def State.declareLoss (s : State) : State :=
  if s.activating then s.setLease { s.leaseU with lossDue := true } else s.peerLoss

/-- Both channels silent for HB_LOSS: the peer is lost (R339). -/
def State.peerCheck (s : State) : State :=
  if s.on LEASE_CTL.EN ∧ !s.solo ∧ !s.leaseU.peerLost ∧ s.hbDead ∧ s.linkDead then s.declareLoss else s

/-- The link has changed state: LINK_OK, how long it has been out, the Parlour states of the peer's shards, and the peer's
return (R336, R337, R339). A link that goes to RETRAIN has not yet left ACTIVE for the peer's shards (log entry 92). -/
def State.linkChanged (s : State) : State :=
  let st := s.rd TEN_STATUS.STATE
  let up := st == Tst.active || st == Tst.retrain
  let s := s.wr LEASE_STATUS.LINK_OK (if st = Tst.active then 1 else 0)
  let s := s.setLease { s.leaseU with linkOut := if up then none else some (s.leaseU.linkOut.getD s.now) }
  if st = Tst.active then
    let back := s.leaseU.peerLost
    let s := (s.wr LEASE_STATUS.PEER 1).setLease { s.leaseU with peerLost := false, lossDue := false }
    if back then s.leaseEvent 2 0 0 else s
  else if up then s
  else (List.range 256).foldl (fun s sh => s.peerGone sh) s

end Sys2Proof.Machine
end

