-- ==== Sys2Proof/Machine/Lease.lean ====
section
/-! DEFINITION. The Lease unit: rounds, expiries, the peer's messages, takeover, heartbeat, watchdog, drills and
descriptors (R331 to R350). A message of the peer arrives only while the link is ACTIVE. -/
namespace Sys2Proof.Machine
open Sys2Proof

/-! ## Rounds and expiries -/

/-- RENEW_ROUND: not sent by an abdicated head, nor while EN is 0 (R332, R350). -/
def execRenewRound (s : State) : Host.Outcome State Fault Refusal :=
  let due : Bool := match s.leaseU.renewAt with
    | some t => s.passed t
    | none => true
  if s.on LEASE_CTL.EN ∧ s.leaseMode ≠ Lmode.abdicated ∧ due then .next s.renewRound else .next s

/-- LEASE_EXPIRY: the term of a renewed shard has ended (R333). A shard released by HANDOFF_COMMIT has no lease left. -/
def execLeaseExpiry (sh : Nat) (s : State) : Host.Outcome State Fault Refusal :=
  if s.renewed sh ∧ s.passed (s.leaseX sh).ends then .next (s.loseHold sh) else .next s

/-- LEASE_TAIL_END: what has not left 2 ms after the lapse is listed (R333). -/
def execLeaseTailEnd (sh : Nat) (s : State) : Host.Outcome State Fault Refusal :=
  if s.due (s.leaseX sh).tailEnd then .next ((s.setLeaseX sh { s.leaseX sh with tailEnd := none }).listReads sh) else .next s

/-- QUIET_END: mutations are allowed (R334); an expiry in the same tick goes first (R350). -/
def execQuietEnd (sh : Nat) (s : State) : Host.Outcome State Fault Refusal :=
  if s.leaseSt sh = Lst.quiet ∧ s.due (s.leaseX sh).quietEnd then
    if (s.leaseX sh).ends ≤ s.now then .next (s.loseHold sh)
    else .next ((s.setLeaseX sh { s.leaseX sh with quietEnd := none }).setLeaseSt sh Lst.held)
  else .next s

/-- RELEASE_READ_DEADLINE: reads undelivered 2 ms after LEASE_RELEASE are listed (R335). -/
def execReleaseReadDeadline (sh : Nat) (s : State) : Host.Outcome State Fault Refusal :=
  if s.due (s.leaseX sh).readBy then .next ((s.setLeaseX sh { s.leaseX sh with readBy := none }).listReads sh) else .next s

/-! ## The peer's messages (R336) -/

/-- A NOTE's line on one shard. -/
def State.noted (s : State) (sh epoch : Nat) : State :=
  let s := s.setLeaseX sh { s.leaseX sh with noteAt := s.now }
  let st := s.leaseSt sh
  if st = Lst.unknown ∨ st = Lst.peerHeld then
    let s := s.wr (LEASE_EPOCH.EPOCH sh) (max epoch (s.rd (LEASE_EPOCH.EPOCH sh)))
    if st = Lst.unknown then s.setLeaseSt sh Lst.peerHeld else s
  else s

/-- NOTE: the shards the peer holds, as (shard, epoch, lease left), and whether it is RUNNING. -/
def execNote (shards : List (Nat × Nat × Nat)) (running : Bool) (s : State) : Host.Outcome State Fault Refusal :=
  let s := s.received 1 1
  if !s.linkActive then .next s
  else
    let ls := shards.filter (·.1 < 256)
    let s := s.setLease { s.leaseU with
      note := ls.foldl (fun (t : Tab Nat) e => Tab.set t e.1 e.2.1) [], peerRunning := running }
    .next (ls.foldl (fun s e => s.noted e.1 e.2.1) s)

/-- NOTE_SILENCE_EXPIRY: two renew periods without a NOTE that lists a PEER_HELD shard. -/
def execNoteSilenceExpiry (sh : Nat) (s : State) : Host.Outcome State Fault Refusal :=
  if s.leaseSt sh = Lst.peerHeld ∧ s.passed ((s.leaseX sh).noteAt + 2 * s.rd LEASE_CFG.RENEW * mgmtTick) then .next (s.peerGone sh)
  else .next s

/-- Whether a DRAIN that takes effect stands in the same cycle (R350). -/
def State.drainNow (s : State) : Bool := s.pending.any fun c => match c with
  | .drain d => (s.startedAt .lease d Op.drain).isSome
  | _ => false

/-- Whether the peer's abdication stands in the same cycle (R350). -/
def State.lossNow (s : State) : Bool := s.pending.any fun c => match c with
  | .abdicate _ => true
  | _ => false

/-- OFFER: taken in mode RUNNING, refused in another. A DRAIN of the same cycle comes first; so does the loss of the peer, and
the shard is then taken over (R350). -/
def execOffer (sh epoch : Nat) (s : State) : Host.Outcome State Fault Refusal :=
  let s := s.received 1 1
  if !s.linkActive ∨ !s.on LEASE_CTL.EN ∨ (s.leaseSt sh ≠ Lst.unknown ∧ s.leaseSt sh ≠ Lst.peerHeld) then .next s
  else
  let s := s.setLeaseX sh { s.leaseX sh with counter := max (s.leaseX sh).counter (epoch / 2) }
  if s.lossNow then .next s
  else if s.leaseMode = Lmode.running ∧ !s.drainNow then
    .next (s.startWin sh false none)
  else .next (s.tenSend (.refuse sh))

/-- Whether a shard is RELEASING after commit. -/
def State.givenUp (s : State) (sh : Nat) : Bool := s.leaseSt sh == Lst.releasing && (s.leaseX sh).committed

/-- WON: the peer has a shard released here; HANDOFF_COMMIT completes with its epoch. `w`: the win tick (R467). -/
def execWon (sh epoch w : Nat) (s : State) : Host.Outcome State Fault Refusal :=
  let s := s.received 1 1
  if s.linkActive ∧ s.givenUp sh then
    .next ((s.wr (LEASE_EPOCH.EPOCH sh) epoch).leaveReleased sh Lst.peerHeld w St.success epoch)
  else .next s

/-- REFUSE: the handoff fails. -/
def execRefuse (sh : Nat) (s : State) : Host.Outcome State Fault Refusal :=
  let s := s.received 1 1
  if s.linkActive ∧ s.givenUp sh then
    .next ((s.leaveReleased sh Lst.unknown s.now St.handoffRefused 0).leaseEvent 6 sh (s.rd (LEASE_EPOCH.EPOCH sh)))
  else .next s

/-- LOST: the peer has lost a shard; its forwarded commands are listed, and with AUTO_TAKE it is taken over, in mode
RUNNING (R329, R336, R346). -/
def execLost (sh : Nat) (s : State) : Host.Outcome State Fault Refusal :=
  let s := s.received 1 1
  if !s.linkActive then .next s
  else
    let s := (s.peerGone sh).reexecForwarded (· == sh)
    if s.leaseSt sh = Lst.unknown ∧ s.on LEASE_CTL.EN ∧ s.on LEASE_CTL.AUTO_TAKE ∧ s.leaseMode = Lmode.running then
      .next (s.startWin sh true none)
    else .next s

/-- ABDICATE: the peer gives up every shard and is declared lost (R339). -/
def execAbdicate (cause : Nat) (s : State) : Host.Outcome State Fault Refusal :=
  let s := s.received 1 1
  if s.linkActive then .next (((s.raise Ev.abdicate (some .lease) none [cause]).leaseEvent 7 0 0).declareLoss) else .next s

/-! ## Takeover (R341, R342) -/

/-- TAKEOVER_SILENCE_REACHED: SET_EPOCH goes to a blade whose silence suffices: in a takeover, and again where an offered shard's
was refused with LEASE_HELD. -/
def execTakeoverSilenceReached (sh b : Nat) (s : State) : Host.Outcome State Fault Refusal :=
  if s.leaseSt sh = Lst.winning ∧ s.due (Tab.get? (s.leaseX sh).ready b) ∧
      !((s.leaseX sh).sent.contains b) then .next (s.sendEpoch sh b)
  else .next s

/-- Cause that EV_ASSOC_LOST holds for an association that ends because a forwarded command has no answer (R330, R342). -/
def assocCause.forward : Nat := 4

/-- Associations of commands that were forwarded for a shard and stand in its list end (R342). -/
def State.endListed (s : State) (sh : Nat) : State :=
  let ks := (Tab.getD s.leaseU.reexec sh []).filter fun k => match s.cmd k with
    | some c => c.origin.isNone && c.fwds.any fun f => f.shard == sh && f.st != 2
    | none => false
  let s := s.setLease { s.leaseU with
    reexec := Tab.set s.leaseU.reexec sh ((Tab.getD s.leaseU.reexec sh []).filter fun k => !ks.contains k) }
  ks.foldl (fun s k => match s.cmd k with
    | some c => s.assocLoss c.cntlid assocCause.forward
    | none => s) s

/-- TAKE_LIMIT_EXPIRY: a win without a majority is abandoned; an offer without WON fails (R336, R342). -/
def execTakeLimitExpiry (sh : Nat) (s : State) : Host.Outcome State Fault Refusal :=
  let x := s.leaseX sh
  if !s.due x.takeBy then .next s
  else if s.leaseSt sh = Lst.winning then
    let s := s.releaseOn sh (s.rd (LEASE_EPOCH.EPOCH sh)) x.accepts
    let s := s.setLeaseX sh { x with takeBy := none, take := none }
    let s := (s.setLeaseSt sh Lst.unknown).raise Ev.takeAbandoned (some .lease) (some sh) [sh]
    let s := s.endListed sh
    match x.take with
    | some d => .next (s.finish .lease d St.quorumLost)
    | none => .next s
  else if s.givenUp sh then .next (s.leaveReleased sh Lst.unknown s.now St.handoffRefused 0)
  else .next s

/-! ## Heartbeat, watchdog, abdication (R338 to R340) -/

/-- HB_OUT_TOGGLE: every 800,000 ticks, from the first tick in which the head may toggle on. -/
def execHbOutToggle (s : State) : Host.Outcome State Fault Refusal :=
  let due : Bool := match s.leaseU.hbOutAt with
    | some t => s.passed t
    | none => true
  if s.on LEASE_HB_CFG.HB_OUT_EN ∧ s.leaseMode ≠ Lmode.abdicated ∧ !s.solo ∧ !s.boot.cold ∧ s.boot.warmUntil = none ∧ due then
    .next { s.setLease { s.leaseU with hbOutAt := some (s.leaseU.hbOutAt.getD s.now + 800000) } with
      pins := { s.pins with hbOut := !s.pins.hbOut } }
  else .next s

/-- HB_IN_EDGE: the window starts again. -/
def execHbInEdge (s : State) : Host.Outcome State Fault Refusal :=
  .next ((s.setLease { s.leaseU with hbInAt := s.now }).wr LEASE_STATUS.HB_IN_OK 1)

/-- HB_LOSS_EXPIRY: HB_IN is no longer alive; with the link out as long, the peer is lost. -/
def execHbLossExpiry (s : State) : Host.Outcome State Fault Refusal :=
  if !s.hbDead ∨ !s.passed (s.leaseU.hbInAt + s.rd LEASE_HB_CFG.HB_LOSS) then .next s
  else
    let was := s.on LEASE_STATUS.HB_IN_OK
    let s := s.wr LEASE_STATUS.HB_IN_OK 0
    let s := if was ∧ s.linkActive then s.raise Ev.hbInLost (some .lease) else s
    .next s.peerCheck

/-- LINK_DOWN_HB_LOSS_EXPIRY: the link has been out for HB_LOSS with HB_IN dead. -/
def execLinkDownHbLossExpiry (s : State) : Host.Outcome State Fault Refusal := .next s.peerCheck

/-- The watchdog starts again. -/
def State.kick (s : State) : State :=
  if s.on LEASE_CTL.EN then s.setLease { s.leaseU with wdogBy := some (s.inMgmt (s.rd LEASE_HB_CFG.WDOG_LIMIT)) } else s

/-- WATCHDOG_KICK. -/
def execWatchdogKick (origin : Origin) (s : State) : Host.Outcome State Fault Refusal :=
  .next (s.plainField .lease origin LEASE_WDOG.KICK 1 fun s => s.kick)

/-- WATCHDOG_EXPIRY: software was silent; the head abdicates. -/
def execWatchdogExpiry (s : State) : Host.Outcome State Fault Refusal :=
  if s.due s.leaseU.wdogBy then .next ((s.setLease { s.leaseU with wdogBy := none }).abdicate 1) else .next s

/-- ABDICATE_WRITE: LEASE_CTL.ABDICATE ← 1. -/
def execAbdicateWrite (origin : Origin) (s : State) : Host.Outcome State Fault Refusal :=
  .next (s.cfgField .lease origin LEASE_CTL.ABDICATE 1 fun s => (s.wr LEASE_CTL.ABDICATE 1).abdicate 4)

/-- FATAL_MACHINE_CHECK: a machine-check error fatal to the head. -/
def execFatalMachineCheck (s : State) : Host.Outcome State Fault Refusal :=
  .next ({ s with cool := { s.cool with fatal := false } }.abdicate 2)

/-! ## Drills (R345) -/

/-- DRILL_DUE: the shard's instant of the period, unless the drill is skipped. -/
def execDrillDue (sh : Nat) (s : State) : Host.Outcome State Fault Refusal :=
  let t := s.now / mgmtTick
  let p := s.rd LEASE_DRILL_CFG.PERIOD
  let x := s.leaseX sh
  if s.on LEASE_CTL.EN ∧ s.on LEASE_DRILL_CFG.EN ∧ !s.solo ∧ t % p = sh * p / 256 ∧ x.drillAt ≠ t + 1 ∧ s.linkActive ∧
      s.leaseU.peerRunning ∧ s.leaseMode = Lmode.running ∧ s.rd (PAR_SHARD.STATE sh) = Pst.owned then
    .next ((s.setLeaseX sh { x with drillAt := t + 1, drillBy := some (s.inMgmt (s.rd LEASE_DRILL_CFG.GRACE)) }).leaseEvent 5 sh
      (s.rd (LEASE_EPOCH.EPOCH sh)))
  else .next s

/-- DRILL_GRACE_EXPIRY: the drill counts as missed. -/
def execDrillGraceExpiry (sh : Nat) (s : State) : Host.Outcome State Fault Refusal :=
  if s.due (s.leaseX sh).drillBy then
    let s := s.setLeaseX sh { s.leaseX sh with drillBy := none }
    .next ((s.bump LEASE_STATUS.DRILLS_MISSED 1).raise Ev.drillMissed (some .lease) (some sh) [sh])
  else .next s

/-! ## Descriptors (R344, R346, R349) -/

/-- A started descriptor of an opcode of the Lease unit; while SOLO only TAKE and EVENT_WAIT go on. -/
def State.leaseDesc (s : State) (d : DescRef) (op : Nat) (k : Fetched → State) : Host.Outcome State Fault Refusal :=
  match s.startedAt .lease d op with
  | none => .next s
  | some f =>
    if s.solo ∧ op ≠ Op.take ∧ op ≠ Op.eventWait then .next (s.finish .lease d St.peerAbsent) else .next (k f)

/-- Whether commands past their commit point are unfinished on a shard. -/
def State.commitsOpen (s : State) (sh : Nat) : Bool := s.par.cmds.any fun e => e.2.commit && !(e.2.unfinished sh).isEmpty

/-- HANDOFF_BEGIN: the shard becomes RELEASING; done once every command past its commit point has finished, looked at each
time the command is given. -/
def execHandoffBegin (d : DescRef) (s : State) : Host.Outcome State Fault Refusal :=
  s.leaseDesc d Op.handoffBegin fun f =>
    let sh := f.at 28 1
    let x := s.leaseX sh
    if x.begin_ = some d then
      if s.commitsOpen sh then s else (s.setLeaseX sh { x with begin_ := none }).finish .lease d St.success
    else if s.leaseSt sh ≠ Lst.held then s.finish .lease d St.notOwner
    else if s.rd LEASE_DRILL_CFG.DRAIN_PAR ≤ ((List.range 256).filter fun t => s.leaseSt t == Lst.releasing).length then
      s.finish .lease d St.leaseBusy
    else if !s.linkActive then s.finish .lease d St.linkDown
    else
      let s := s.setLeaseSt sh Lst.releasing
      if s.commitsOpen sh then (s.setLeaseX sh { s.leaseX sh with begin_ := some d }).setPhase .lease d .waiting
      else s.finish .lease d St.success

/-- HANDOFF_COMMIT: renewals stop, the shard is released on every blade; OFFER follows a majority. -/
def execHandoffCommit (d : DescRef) (s : State) : Host.Outcome State Fault Refusal :=
  s.leaseDesc d Op.handoffCommit fun f =>
    let sh := f.at 28 1
    let x := s.leaseX sh
    if x.commit = some d then s
    else if s.leaseSt sh ≠ Lst.releasing ∨ x.committed ∨ x.begin_.isSome then s.finish .lease d St.notOwner
    else
      let s := s.setLeaseX sh { x with
        committed := true, commit := some d, released := [], offered := false, readBy := some (s.now + 3200000),
        takeBy := some (s.inMgmt (s.rd LEASE_CFG.TAKE_LIMIT)) }
      (s.setPhase .lease d .waiting).releaseOn sh (s.rd (LEASE_EPOCH.EPOCH sh)) s.counted

/-- LEASE_RELEASE answered by a blade: OFFER goes out once a majority has released. -/
def State.releaseAnswered (s : State) (sh b : Nat) (a : BAns) : State :=
  let x := s.leaseX sh
  if !s.givenUp sh ∨ a.status ≠ St.success ∨ x.released.contains b then s
  else
    let bs := x.released ++ [b]
    let offer := s.leaseMajority ≤ bs.length && !x.offered
    let s := s.setLeaseX sh { x with released := bs, offered := x.offered || offer }
    if offer then s.tenSend (.offer sh (s.rd (LEASE_EPOCH.EPOCH sh))) else s

/-- HANDOFF_ABORT: a RELEASING shard returns to HELD before commit; a HANDOFF_BEGIN that still waits fails. -/
def execHandoffAbort (d : DescRef) (s : State) : Host.Outcome State Fault Refusal :=
  s.leaseDesc d Op.handoffAbort fun f =>
    let sh := f.at 28 1
    let x := s.leaseX sh
    if s.leaseSt sh ≠ Lst.releasing ∨ x.committed then s.finish .lease d St.notOwner
    else
      let s := (s.setLeaseX sh { x with begin_ := none }).setLeaseSt sh Lst.held
      let s := match x.begin_ with
        | some e => s.finish .lease e St.notOwner
        | none => s
      s.finish .lease d St.success

/-- TAKE: a takeover of an UNKNOWN shard. -/
def execTake (d : DescRef) (s : State) : Host.Outcome State Fault Refusal :=
  s.leaseDesc d Op.take fun f =>
    let sh := f.at 28 1
    if (s.leaseX sh).take = some d then s
    else if s.leaseMode ≠ Lmode.running then s.finish .lease d St.drainState
    else if s.leaseSt sh ≠ Lst.unknown then s.finish .lease d St.leaseBusy
    else (s.setPhase .lease d .waiting).startWin sh true (some d)

/-- DRAIN: mode DRAINING, then DRAINED. -/
def execDrain (d : DescRef) (s : State) : Host.Outcome State Fault Refusal :=
  s.leaseDesc d Op.drain fun _ =>
    if s.leaseU.drain = some d then s
    else if s.leaseMode ≠ Lmode.running then s.finish .lease d St.drainState
    else ((s.wr LEASE_CTL.MODE Lmode.draining).setLease { s.leaseU with drain := some d }).setPhase .lease d .waiting |>.drainCheck

/-- UNDRAIN: back to RUNNING; a DRAIN that still waits fails. It waits for the end of an activation (R434). -/
def execUndrain (d : DescRef) (s : State) : Host.Outcome State Fault Refusal :=
  s.leaseDesc d Op.undrain fun _ =>
    if s.activating then s
    else if s.leaseMode ≠ Lmode.draining ∧ s.leaseMode ≠ Lmode.drained then s.finish .lease d St.drainState
    else
      let w := s.leaseU.drain
      let s := (s.wr LEASE_CTL.MODE Lmode.running).setLease { s.leaseU with drain := none }
      let s := match w with
        | some e => s.finish .lease e St.drainState
        | none => s
      s.finish .lease d St.success

/-- EVENT_WAIT: the oldest event held, or the next. -/
def execEventWait (d : DescRef) (s : State) : Host.Outcome State Fault Refusal :=
  s.leaseDesc d Op.eventWait fun _ =>
    match s.leaseU.events with
    | (kind, sh, epoch) :: rest =>
      (s.setLease { s.leaseU with events := rest }).finish .lease d St.success (kind + sh * 256) epoch
    | [] => s.setPhase .lease d .waiting

end Sys2Proof.Machine
end

