-- ==== Sys2Proof/Machine/BladePort.lean ====
section
/-! DEFINITION. The Blade Ports: presence, reset, training, initialisation and loss of a port, completions of blade commands,
timeouts, PASS (R285 to R294, R311 to R317). -/
namespace Sys2Proof.Machine
open Sys2Proof

/-! ## Completions and their issuers (R289, R293, R311) -/

/-- A parity or summary page whose program failed: its band ends and the block is retired (R246, R262). -/
def State.sideFailed (s : State) (b n : Nat) (e : Issued) : State :=
  let s := s.setCblade b { s.cblade b with progFails := (s.cblade b).progFails + 1 }
  let s := s.closeBand b n true (some e.queue)
  let (has, s) := s.retireBlock b n e.cmd.die e.cmd.block 1
  if has then s else s.cellExhausted b

/-- A blade command completes to its issuer. -/
def State.bladeDeliver (s : State) (b : Nat) (e : Issued) (a : BAns) : State :=
  let s := s.epochRefused b e.cmd a.status
  match e.issuer with
  | .pass d => s.finish .bld d a.status 0 a.result
  | .renew id => s.renewAnswered id b e.cmd a
  | .setEpoch sh => s.epochAnswered sh b e.cmd e.since a
  | .release sh => s.releaseAnswered sh b a
  | .epochRead sh => s.epochSeen sh b e.since a
  | .jpage sh p => s.replicaReport sh p b a.status
  | .side _ n => if a.status = St.programFail then s.sideFailed b n e else s

/-- A completion entry the port has received: SQ_HEAD is kept, and the command in its slot completes. One whose command has
timed out is discarded. -/
def State.bladeComplete (s : State) (b : Nat) (c : BCpl) : State :=
  let y := s.hport b
  let hit := fun (e : Issued) => e.queue == c.queue && e.slot == some c.slot
  let old := y.late.any fun e => e.1 == c.queue && e.2.1 == c.slot
  let y := { y with seen := Tab.set y.seen c.queue c.head, lastCpl := s.now }
  if old then s.setHport b { y with late := y.late.filter fun e => !(e.1 == c.queue && e.2.1 == c.slot) }
  else
  let y' := { y with issued := y.issued.filter fun e => !hit e }
  let s := (s.setHport b y').countPort b
  match y.issued.find? hit with
  | some e => s.bladeDeliver b e c.ans
  | none => s

/-- BLADE_COMPLETION: completion `i` of those a blade has written is read. -/
def execBladeCompletion (b i : Nat) (s : State) : Host.Outcome State Fault Refusal :=
  match (s.hport b).cq[i]? with
  | some c => .next ((s.setHport b { s.hport b with cq := (s.hport b).cq.eraseIdx i }).bladeComplete b c)
  | none => .next s

/-- The slot a command that times out leaves taken until its late completion has been read (R293). -/
def Issued.lateSlot (e : Issued) : List (Nat × Nat × Bool) :=
  match e.slot, e.issuer with
  | some j, .pass _ => [(e.queue, j, true)]
  | some j, _ => [(e.queue, j, false)]
  | none, _ => []

/-- COMMAND_TIMEOUT_EXPIRY: command `i` of a port has passed CMD_TIMEOUT. -/
def execCommandTimeoutExpiry (b i : Nat) (s : State) : Host.Outcome State Fault Refusal :=
  match (s.hport b).issued[i]? with
  | none => .next s
  | some e =>
    if !s.passed (e.since + s.rd BLD_LINK_CFG.CMD_TIMEOUT * mgmtTick) then .next s
    else
      let s := (s.setHport b { s.hport b with issued := (s.hport b).issued.eraseIdx i, late := e.lateSlot ++ (s.hport b).late }).countPort b
      let s := (s.bump (BLD_PORT_ERR.TIMEOUTS b) 1).raise Ev.bladeTimeout (some .bld) (some b) [b, e.cmd.op]
      .next (s.bladeDeliver b e ⟨St.cmdTimeout, 0, []⟩)

/-! ## Port states (R288, R289) -/

/-- A port enters a state whose limit is `n` management ticks. -/
def State.setBld (s : State) (b st : Nat) (n : Option Nat) : State :=
  (s.wr (BLD_PORT_STATUS.STATE b) st).setHport b { s.hport b with timer := n.map s.inMgmt }

/-- The level driven on BLD_b_PERST_N. -/
def State.perst (s : State) (b : Nat) (level : Bool) : State :=
  { s with pins := { s.pins with perstN := setBitTo s.pins.perstN b level } }

/-- BLADE_ATTACH descriptors of a blade that wait for the peer. -/
def State.attachWaits (s : State) (b : Nat) : List DescRef :=
  ((s.ten.maint.map (·.2)) ++ (s.hport b).attach.toList).eraseDups.filter fun d => match s.fetchedAt .cell d with
    | some f => f.opcode == Op.bladeAttach && f.at 28 1 == b
    | none => false

/-- Entry into DOWN: completions received stand, every other command completes BLADE_UNREACHABLE, the blade is reported
unreachable, PERST_N is asserted. -/
def State.portDown (s : State) (b cause : Nat) : State :=
  let s := (s.hport b).cq.foldl (fun s c => s.bladeComplete b c) s
  let s := ((s.setBld b Bst.down (some 160)).wr (BLD_PORT_STATUS.DOWN_CAUSE b) cause).bump (BLD_PORT_STATUS.FLAPS b) 1
  let s := ((s.wr (BLD_PORT_STATUS.WIDTH b) 0).wr (BLD_PORT_STATUS.SPEED32 b) 0).perst b false
  let lost := (s.hport b).issued
  let s := (s.setHport b { s.hport b with issued := [], cq := [], tail := [], seen := [], late := [] }).countPort b
  let s := s.cutBladePort b (s.portNo b) true
  let s := (s.raise Ev.bladeLink (some .bld) (some b) [b, Bst.down]).replicasLost b
  let s := lost.foldl (fun s e => s.bladeDeliver b e ⟨St.bladeUnreachable, 0, []⟩) s
  let s := (s.attachWaits b).foldl (fun s d =>
    let s := ({ s with ten := { s.ten with maint := s.ten.maint.filter (·.2 != d) } }).wr (CELL_BLADE.STATE b) 0
    (s.setHport b { s.hport b with attach := none }).finish .cell d St.bladeInvalid) s
  s.carcUnreachable b

/-- A port enters RESET. -/
def State.portReset (s : State) (b : Nat) : State := (s.setBld b Bst.reset (some 160)).perst b false

/-- Whether PRSNT_N of a port is low. -/
def State.present (s : State) (b : Nat) : Bool := !s.pins.prsntN.testBit b

/-- Whether a port is enabled: the ports of a gated BLD_q domain are not. -/
def State.portEn (s : State) (b : Nat) : Bool :=
  s.on BLD_CTL.EN && s.bit BLD_CTL.PORT_EN b && s.rd (PWR_DOM.STATE (83 + b / 4)) != 0

/-- PRSNT_CHANGE: BLD_b_PRSNT_N goes low or high. -/
def execPrsntChange (b : Fin 16) (low : Bool) (s : State) : Host.Outcome State Fault Refusal :=
  if s.present b = low then .next s
  else
    let s := { s with pins := { s.pins with prsntN := setBitTo s.pins.prsntN b (!low) } }
    let s := s.wr (BLD_PORT_STATUS.PRSNT b) (if low then 1 else 0)
    if s.bldSt b = Bst.empty then
      .next (s.setHport b { s.hport b with timer := if low then some (s.inMgmt 160) else none })
    else if s.bldSt b = Bst.ready ∧ !low then .next (s.portDown b 2)
    else .next s

/-- PRSNT_DEBOUNCE_EXPIRY: 160 ticks of presence, and the port enabled: RESET. -/
def execPrsntDebounceExpiry (b : Fin 16) (s : State) : Host.Outcome State Fault Refusal :=
  if s.bldSt b = Bst.empty ∧ s.present b ∧ s.portEn b ∧ s.due (s.hport b).timer then .next (s.portReset b) else .next s

/-- PORT_RESET_EXPIRY: 160 ticks in RESET: PERST_N released, training begins. -/
def execPortResetExpiry (b : Fin 16) (s : State) : Host.Outcome State Fault Refusal :=
  if s.bldSt b = Bst.reset ∧ s.due (s.hport b).timer then .next ((s.setBld b Bst.training (some 160)).perst b true) else .next s

/-- Steps 1 to 3 of R312: BCP_ID is checked, the completion area named, SILENCE written, EN set. -/
def State.portInit (s : State) (b major : Nat) : State :=
  let s := s.setBld b Bst.init (some 16000)
  if major ≠ 1 then s.portDown b 8
  else match s.blade b with
    | none => s
    | some x =>
      let p := s.portNo b
      let y := { x.port p with
        cqBase := 0xC00000000, silence := silenceOf (s.rd BLD_LINK_CFG.LEASE_SILENCE), en := true }
      (s.setBlade b (x.setPort p y)).setHport b { s.hport b with cq := [], tail := [], seen := [], late := [] }

/-- BLADE_LINK_TRAINED: a link of `width` (1 x1, 2 x2, 3 x4) reaches L0 with blade port `port`; accepted, the port
initialises the blade, which reports version `major`. -/
def execBladeLinkTrained (b : Fin 16) (port : Fin 2) (width : Fin 4) (speed32 flit : Bool) (major : Nat) (s : State) :
    Host.Outcome State Fault Refusal :=
  match s.blade b with
  | none => .next s
  | some x =>
    if s.bldSt b ≠ Bst.training ∨ !x.powered ∨ width.val = 0 then .next s
    else if !flit ∨ width.val ≤ s.rd BLD_LINK_CFG.MIN_WIDTH ∨ (speed32 ∧ !s.on BLD_LINK_CFG.ALLOW_32GT) then
      .next (s.portDown b 6)
    else
      let s := s.setHport b { s.hport b with miswired := port.val != s.headNo }
      let s := s.setBlade b (x.setPort port { x.port port with linkUp := true })
      let s := (s.wr (BLD_PORT_STATUS.WIDTH b) width.val).wr (BLD_PORT_STATUS.SPEED32 b) (if speed32 then 1 else 0)
      let s := if width.val < 3 ∨ speed32 then s.raise Ev.bladeDegraded (some .bld) (some b.val) [b, width.val] else s
      .next (s.portInit b major)

/-- BLADE_TRAINING_TIMEOUT: 160 ticks in TRAINING. -/
def execBladeTrainingTimeout (b : Fin 16) (s : State) : Host.Outcome State Fault Refusal :=
  if s.bldSt b = Bst.training ∧ s.due (s.hport b).timer then .next (s.portDown b 6) else .next s

/-- BLADE_RDY_TIMEOUT: RDY not set within 10 s of EN. -/
def execBladeRdyTimeout (b : Fin 16) (s : State) : Host.Outcome State Fault Refusal :=
  if s.bldSt b = Bst.init ∧ s.due (s.hport b).timer then .next (s.portDown b 7) else .next s

/-- EPOCH_READ of a shard at initialisation, handed to the Lease unit: a takeover uses it as its own read, a shard that is
held or won by an offer is brought to its epoch (R311, R312, R341). -/
def State.epochGiven (s : State) (b sh : Nat) : State :=
  let (a, s) := s.bladeSync b (epochReadCmd sh)
  if a.status ≠ St.success then s
  else
    let e := fieldAt a.data 0 8
    let x := s.leaseX sh
    let s := s.setLeaseX sh { x with counter := max x.counter (e / 2) }
    if s.leaseSt sh = Lst.winning ∧ s.on (LEASE_SHARD.BY_TAKE sh) then s.epochSeen sh b s.now a
    else if s.leaseSt sh = Lst.winning then s.sendEpoch sh b
    else if s.renewed sh ∧ e ≠ s.rd (LEASE_EPOCH.EPOCH sh) then s.sendEpoch sh b
    else s

/-- BLADE_RDY_SEEN: RDY is set: the blade port that answers is checked, the blade identified, its epochs read, and the port is
READY (R312, R317). -/
def execBladeRdySeen (b : Fin 16) (s : State) : Host.Outcome State Fault Refusal :=
  match s.blade b with
  | none => .next s
  | some x =>
    if s.bldSt b ≠ Bst.init ∨ !x.rdy ∨ !x.powered ∨ !(x.port (s.portNo b)).linkUp then .next s
    else
      let wrong := (s.hport b).miswired
      let s := if wrong then s.raise Ev.headMiswired (some .lease) (some b.val) [b, s.portNo b] else s
      let s := (s.setBld b Bst.ready none).setHport b { s.hport b with timer := none, lastCpl := s.now }
      let s := (s.raise Ev.bladeLink (some .bld) (some b.val) [b, Bst.ready]).carcReachable b
      .next (if wrong then s else (List.range 256).foldl (fun s sh => s.epochGiven b sh) s)

/-- BLADE_FATAL_SEEN: BCP_CS.FATAL of a READY port's blade is read as 1: the blade cannot serve until a power cycle. -/
def execBladeFatalSeen (b : Fin 16) (s : State) : Host.Outcome State Fault Refusal :=
  match s.blade b with
  | none => .next s
  | some x =>
    if s.bldSt b = Bst.ready ∧ x.powered then
      let s := s.setBlade b { x with fatal := true }
      .next (((s.raise Ev.bladeFatal (some .bld) (some b.val) [b]).portDown b 3).carcFailed b)
    else .next s

/-- DL_DOWN: the data link of a READY port goes down. -/
def execDlDown (b : Fin 16) (s : State) : Host.Outcome State Fault Refusal :=
  if s.bldSt b = Bst.ready then .next (s.portDown b 1) else .next s

/-- UNREACH_EXPIRY: commands outstanding and no completion for UNREACH ticks. -/
def execUnreachExpiry (b : Fin 16) (s : State) : Host.Outcome State Fault Refusal :=
  let y := s.hport b
  if s.bldSt b = Bst.ready ∧ !y.issued.isEmpty ∧ s.passed (y.lastCpl + s.rd BLD_LINK_CFG.UNREACH * mgmtTick) then
    .next (s.portDown b 4)
  else .next s

/-- PORT_DOWN_EXPIRY: 160 ticks in DOWN: RESET where PRSNT_N is low, EMPTY otherwise. -/
def execPortDownExpiry (b : Fin 16) (s : State) : Host.Outcome State Fault Refusal :=
  if s.bldSt b = Bst.down ∧ s.due (s.hport b).timer then
    if s.present b then .next (s.portReset b) else .next (s.setBld b Bst.empty none)
  else .next s

/-- Any port but an EMPTY one goes through DOWN to RESET. -/
def State.portForced (s : State) (b : Nat) : State :=
  if s.bldSt b = Bst.empty then s else (s.portDown b 5).portReset b

/-- PORT_RESET: BLD_PORT_CTL_b.RESET takes any port but an EMPTY one through DOWN to RESET. -/
def execPortReset (b : Fin 16) (origin : Origin) (s : State) : Host.Outcome State Fault Refusal :=
  .next (s.plainField .bld origin (BLD_PORT_CTL.RESET b) 1 fun s =>
    s.portForced b)

/-! ## PASS (R313) -/

/-- Opcodes that PASS sends. -/
def passable (op : Nat) : Bool :=
  op == Bop.read || op == Bop.identify || op == Bop.health || op == Bop.epochRead || op == Bop.claimList || op == Bop.ecRead

/-- PASS: a read-only command sent on queue 15; the blade's STATUS and RESULT complete the descriptor. -/
def execPass (d : DescRef) (s : State) : Host.Outcome State Fault Refusal :=
  match s.startedAt .bld d Op.pass with
  | none => .next s
  | some f =>
    let b := f.at 28 1
    if (List.range 16).any fun b => (s.hport b).issued.any (·.issuer == .pass d) then .next s
    else match s.dmaRead .bld f.src 64 (some d.ring) with
      | .error e => .next (s.finishDma .bld d e)
      | .ok img =>
        if !passable (fieldAt img 0 1) then .next (s.finish .bld d St.passRefused)
        else if !inVat f.dst then .next (s.finish .bld d St.addrInvalid)
        else if 15 < b then .next (s.finish .bld d St.bladeUnreachable)
        else
          let img := splice (splice img 16 (leBytes 8 f.dst)) 24 (leBytes 4 f.len)
          match s.issue b 15 ⟨img, [], []⟩ (.pass d) with
          | (true, s) => .next s
          | (false, s) => .next (s.finish .bld d St.bladeUnreachable)

end Sys2Proof.Machine
end

