-- ==== Sys2Proof/Machine/Cooler.lean ====
section
/-! DEFINITION. The System Cache (R353 to R363). Line data stand in `State.mem`, the coherent view; the Cooler holds which
lines are cached, their age and their state (log entry 17). -/
namespace Sys2Proof.Machine
open Sys2Proof

/-- States of COOL_STATUS.STATE. -/
def Cst.off : Nat := 0
def Cst.on : Nat := 1
def Cst.draining : Nat := 2

def State.coolSt (s : State) : Nat := s.rd COOL_STATUS.STATE

/-- The slice that homes a residue. -/
def State.sliceOf (s : State) (r : Nat) : Nat := s.rd (COOL_SLICE_MAP.SLICE (r / 8) (r % 8))

/-- The slice that homes a line (R353). -/
def State.home (s : State) (line : Nat) : Nat := s.sliceOf (line % 48)

/-- Key of way 0 of a line's set. -/
def State.setBase (s : State) (line : Nat) : Nat := (s.home line * 2048 + line / 48 % 2048) * 16

/-- Whether a slice is retired (R363). -/
def State.sliceRetired (s : State) (i : Nat) : Bool := (Tab.get? s.cool.retired i).isSome

/-- The state with the Cooler's part replaced. -/
def State.setCool (s : State) (c : Cool) : State := { s with cool := c }

/-- The way that holds a line, with its key. -/
def State.coolFind (s : State) (line : Nat) : Option (Nat × CoolLine) :=
  (List.range 16).findSome? fun w =>
    match Tab.get? s.cool.lines (s.setBase line + w) with
    | some l => if l.line = line then some (s.setBase line + w, l) else none
    | none => none

/-- Partition of a port (R354). -/
def State.partition (s : State) : CoolPort → Nat
  | .core c => s.rd (COOL_PART_CORE.CLUS (c / 8))
  | .mgmt => s.rd COOL_PART_CORE.MGMT
  | .unit n => s.rd (COOL_PART_UNIT.UNIT n)

/-- Index of a port: the six clusters, the management core, the units (R356). -/
def portIndex : CoolPort → Nat
  | .core c => c / 8
  | .mgmt => 6
  | .unit n => 7 + n

/-! ## Victims and insertion (R355) -/

/-- The victim among the ways of a mask: the lowest invalid way, else the lowest of AGE 3, else every valid way of the mask
ages by one and the search repeats. A way that awaits its fill is never chosen. -/
def pickVictim (base mask : Nat) : Nat → Tab CoolLine → Option (Nat × Tab CoolLine)
  | 0, _ => none
  | fuel + 1, lines =>
    let ways := (List.range 16).filter fun w => mask.testBit w
    match ways.find? fun w => (Tab.get? lines (base + w)).isNone with
    | some w => some (base + w, lines)
    | none =>
      match ways.find? fun w => match Tab.get? lines (base + w) with
          | some l => l.age == 3 && !l.filling
          | none => false with
      | some w => some (base + w, lines)
      | none => pickVictim base mask fuel (Tab.mapV lines fun k l =>
          if base ≤ k ∧ k < base + 16 ∧ mask.testBit (k - base) ∧ !l.filling then { l with age := min 3 (l.age + 1) } else l)

/-- Lines in a slice's eviction buffer. -/
def State.evictCount (s : State) (slice : Nat) : Nat := (s.cool.evict.filter (·.1 == slice)).length

/-- A way of the mask made free: a dirty victim goes to the eviction buffer, which must have room (R358). -/
def State.makeRoom (s : State) (line mask : Nat) : Option (Nat × State) :=
  match pickVictim (s.setBase line) mask 4 s.cool.lines with
  | none => none
  | some (k, lines) =>
    let slice := s.home line
    match Tab.get? lines k with
    | none => some (k, s.setCool { s.cool with lines := lines })
    | some v =>
      if v.dirty then
        if 16 ≤ s.evictCount slice then none
        else some (k, s.setCool { s.cool with lines := Tab.del lines k, evict := s.cool.evict ++ [(slice, v.line)] })
      else some (k, s.setCool { s.cool with lines := Tab.del lines k })

/-- A line put into a way. -/
def State.putLine (s : State) (k : Nat) (l : CoolLine) : State := s.setCool { s.cool with lines := Tab.set s.cool.lines k l }

/-! ## Serving a request -/

/-- L2 copies after a served request of a core: a read leaves it a clean copy, a store the only copy, dirty (R29). -/
def State.l2After (s : State) (r : CoolReq) : State :=
  let line := r.addr / 64
  match r.port with
  | .core c =>
    match r.store with
    | none =>
      if (Tab.get? s.cool.l2 (line * 64 + c)).isSome then s
      else s.setCool { s.cool with l2 := Tab.set s.cool.l2 (line * 64 + c) false }
    | some _ => s.setCool { s.cool with l2 := Tab.set (Tab.keep s.cool.l2 fun k _ => k / 64 != line) (line * 64 + c) true }
  | _ =>
    match r.store with
    | none => s
    | some _ => s.setCool { s.cool with l2 := Tab.keep s.cool.l2 fun k _ => k / 64 != line }

/-- Whether a request stores a whole line. -/
def CoolReq.full (r : CoolReq) : Bool :=
  match r.store with
  | some bs => decide (r.addr % 64 = 0) && bs.length == 64
  | none => false

/-- A served request: its bytes stored, or the line's bytes returned; a core that loads from a poisoned line takes a
machine-check exception; a full-line write clears the poison (R359). The bytes of a write-back stand already, poison and all. -/
def State.serve (s : State) (r : CoolReq) : State :=
  if r.wb then s else
  let line := r.addr / 64
  let s := s.l2After r
  match r.store with
  | some bs =>
    let s := if r.full then s.setCool { s.cool with poison := s.cool.poison.filter (· ≠ line) } else s
    { s with mem := Memory.writeN s.mem r.addr bs }
  | none =>
    let s := if s.cool.poison.contains line then
        match r.port with
        | .core c => s.setCool { s.cool with mcheck := (c, line) :: s.cool.mcheck }
        | .mgmt => s.setCool { s.cool with mcheck := (0x100, line) :: s.cool.mcheck }
        | .unit _ => s
      else s
    { s with bus := { s.bus with readData := some (leNat (Memory.readN s.mem (line * 64) 64)) } }

/-- A served hit or merge in a way: age 0, no prefetch mark, dirty where it stores. -/
def CoolLine.touched (l : CoolLine) (store : Bool) : CoolLine := { l with age := 0, pf := false, dirty := l.dirty || store }

/-- A hit is served; while DRAINING the line is then cleaned and invalidated at once (R362). -/
def State.coolHit (s : State) (r : CoolReq) (k : Nat) (l : CoolLine) : State :=
  let s := s.serve r
  if s.coolSt = Cst.draining then s.setCool { s.cool with lines := Tab.del s.cool.lines k }
  else s.putLine k (l.touched r.store.isSome)

/-! ## Stride prefetch (R356) -/

/-- A tracker after a read at `line` of its page: the stride goes on, or the count starts again. -/
def Tracker.read (t : Tracker) (line : Nat) : Tracker :=
  let d : Int := (line : Int) - t.last
  if t.run = 1 then { t with last := line, stride := d, run := if d ≠ 0 ∧ d.natAbs ≤ 16 then 2 else 1 }
  else if d = t.stride then { t with last := line, run := t.run + 1 }
  else { t with last := line, stride := 0, run := 1, asked := [] }

/-- Trained: three successive reads separated by the same stride of 1 to 16 lines. -/
def Tracker.trained (t : Tracker) : Bool := 3 ≤ t.run

/-- The trackers of a port after a demand read: the page's own first, 16 at most, the least recently used dropped. -/
def trackRead (ts : List Tracker) (line : Nat) : List Tracker :=
  let page := line / 64
  match ts.find? (·.page == page) with
  | some t => t.read line :: ts.filter (·.page != page)
  | none => ({ page := page, last := line } :: ts).take 16

/-- The lines a trained tracker asks for after a read at `line`: up to DEGREE strides ahead, within the page, not asked for
before. -/
def Tracker.wants (t : Tracker) (line degree : Nat) : List Nat :=
  ((List.range degree).filterMap fun (i : Nat) =>
    let n : Int := (line : Int) + ((i : Int) + 1) * t.stride
    if n ≥ 0 ∧ n.toNat / 64 = t.page then some n.toNat else none).filter fun l => !t.asked.contains l

/-- Misses outstanding in a slice. -/
def State.missCount (s : State) (slice : Nat) : Nat := (s.cool.misses.filter (·.slice == slice)).length

/-- Whether a request of a partition allocates nothing for a line: the mask is 0, the Cooler is not ON, or the line's slice is
being retired (R354, R362, R363). -/
def State.noAlloc (s : State) (part line : Nat) : Bool :=
  s.rd (COOL_WAYMASK.MASK part) == 0 || s.coolSt != Cst.on || s.cool.stopped == some (s.home line)

/-- One prefetch: dropped where the slice has too many misses, beyond populated DRAM, or without a way or register. -/
def State.prefetch (s : State) (part line : Nat) : State :=
  let slice := s.home line
  if s.rd COOL_PF_CFG.MSHR_LIMIT < s.missCount slice || decide (s.populated ≤ line * 64) || (s.coolFind line).isSome
      || decide (64 ≤ s.missCount slice) || s.cool.evict.contains (slice, line) || s.noAlloc part line then s
  else
    match s.makeRoom line (s.rd (COOL_WAYMASK.MASK part)) with
    | none => s
    | some (k, s) =>
      (s.putLine k { line := line, age := 3, pf := true, filling := true }).setCool
        { (s.putLine k { line := line, age := 3, pf := true, filling := true }).cool with
          misses := s.cool.misses ++ [{ slice := slice, line := line, key := k, reqs := [], prefetch := true }] }

/-- The tracker of a read's page, if it is trained. -/
def State.trackerOf (s : State) (p : CoolPort) (line : Nat) : Option Tracker :=
  ((Tab.getD s.cool.trackers (portIndex p) []).find? (·.page == line / 64)).filter (·.trained)

/-- The trackers note a demand read, and a trained one prefetches. -/
def State.notePrefetch (s : State) (p : CoolPort) (line : Nat) : State :=
  let s := s.setCool { s.cool with
    trackers := Tab.set s.cool.trackers (portIndex p) (trackRead (Tab.getD s.cool.trackers (portIndex p) []) line) }
  let part := s.partition p
  if !s.on COOL_CTL.PF_EN || !s.on (COOL_WAYMASK.PF part) || s.coolSt != Cst.on then s
  else
    match s.trackerOf p line with
    | none => s
    | some t =>
      let want := t.wants line (s.rd COOL_PF_CFG.DEGREE)
      let ts := { t with asked := t.asked ++ want } :: (Tab.getD s.cool.trackers (portIndex p) []).filter (·.page != t.page)
      let s := s.setCool { s.cool with trackers := Tab.set s.cool.trackers (portIndex p) ts }
      want.foldl (fun s l => s.prefetch part l) s

/-- Whether a demand fill of a port inserts in streaming mode (R355). -/
def State.streaming (s : State) (p : CoolPort) (line : Nat) : Bool :=
  let m := s.rd (COOL_WAYMASK.INSERT (s.partition p))
  if m = 0 then false
  else if m = 1 then true
  else match s.trackerOf p line with
    | some t => (t.stride == 1 || t.stride == -1) && decide (s.rd COOL_PF_CFG.STREAM_LINES ≤ t.run)
    | none => false

/-! ## Hits, misses and merging (R357, R358) -/

/-- A request waits in the network-on-chip (R357). -/
def State.coolWait (s : State) (r : CoolReq) : State := s.setCool { s.cool with waiting := s.cool.waiting ++ [r] }

/-- A line in the eviction buffer is served from there and reinserted; `clean` where its DRAM write has been accepted and
the request reads. Without a way it waits; a request that allocates nothing is served where the line stands. -/
def State.reinsert (s : State) (r : CoolReq) (clean : Bool) : State :=
  let line := r.addr / 64
  let slice := s.home line
  if s.noAlloc (s.partition r.port) line then s.serve r
  else match s.makeRoom line (s.rd (COOL_WAYMASK.MASK (s.partition r.port))) with
  | none => s.coolWait r
  | some (k, s) =>
    let s := s.setCool { s.cool with evict := s.cool.evict.filter (· ≠ (slice, line)) }
    (s.serve r).putLine k { line := line, age := if s.streaming r.port line then 3 else 2, dirty := !clean || r.store.isSome }

/-- A request that misses: it merges into a pending fill, allocates without a read where it stores a whole line, takes a
miss register, or waits. -/
def State.coolMiss (s : State) (r : CoolReq) : State :=
  let line := r.addr / 64
  let mask := s.rd (COOL_WAYMASK.MASK (s.partition r.port))
  if s.noAlloc (s.partition r.port) line then s.serve r
  else if !r.full ∧ 64 ≤ s.missCount (s.home line) then s.coolWait r
  else
    match s.makeRoom line mask with
    | none => s.coolWait r
    | some (k, s) =>
      let stream := s.streaming r.port line
      if r.full then (s.serve r).putLine k { line := line, age := if stream then 3 else 2, dirty := true }
      else
        let s := s.putLine k { line := line, filling := true }
        s.setCool { s.cool with
          misses := s.cool.misses ++ [{ slice := s.home line, line := line, key := k, reqs := [r], streaming := stream }] }

/-- A request merges into the miss register of its line: 16 at most, beside the request that took it. -/
def State.coolMerge (s : State) (r : CoolReq) : State :=
  let line := r.addr / 64
  match s.cool.misses.find? (·.line == line) with
  | none => s.coolWait r
  | some m =>
    if 16 ≤ m.reqs.length - (if m.prefetch then 0 else 1) then s.coolWait r
    else s.setCool { s.cool with misses := s.cool.misses.map fun x =>
      if x.line = line then { x with reqs := x.reqs ++ [r] } else x }

/-- A request at its home slice, without errors. -/
def State.coolRequest (s : State) (r : CoolReq) : State :=
  match s.coolFind (r.addr / 64) with
  | some (k, l) => if l.filling then s.coolMerge r else s.coolHit r k l
  | none => if s.cool.evict.contains (s.home (r.addr / 64), r.addr / 64) then s.reinsert r false else s.coolMiss r

/-- An error found in a line or its tag (R359). Answers whether the access goes on. -/
def State.coolError (s : State) (k : Nat) (l : CoolLine) : CoolErr → Bool × State
  | .none => (true, s)
  | .single => (true, s.bump COOL_ERR.CE 1)
  | .multi =>
    if l.dirty then
      (true, (({ s with cool := { s.cool with poison := l.line :: s.cool.poison } }).bump COOL_ERR.UE 1).raise Ev.coolUe
        (some .cool) none [k / 32768, k / 16 % 2048, k % 16])
    else (true, (s.bump COOL_ERR.CE 1).setCool { s.cool with lines := Tab.del s.cool.lines k })
  | .tag =>
    if l.dirty then
      (false, (s.raise Ev.coolTag (some .cool) none [k / 32768, k / 16 % 2048, k % 16]).setCool { s.cool with fatal := true })
    else (true, (s.bump COOL_ERR.TAG 1).setCool { s.cool with lines := Tab.del s.cool.lines k })

/-- COOLER_ACCESS: a core miss or a unit's DMA reaches its home slice (R357). A store stays within its line. -/
def execCoolerAccess (port : CoolPort) (addr : Nat) (store : Option (List Byte)) (err : CoolErr) (s : State) :
    Host.Outcome State Fault Refusal :=
  let r : CoolReq := ⟨port, addr, store, false⟩
  let line := addr / 64
  if s.populated ≤ addr ∨ 64 < addr % 64 + (store.getD []).length then .next s
  else
    let (go, s) := match s.coolFind line with
      | some (k, l) => if l.filling then (true, s) else s.coolError k l err
      | none => (true, s)
    if !go then .next s
    else
      let s := s.coolRequest r
      if store.isNone then .next (s.notePrefetch port line) else .next s

/-- The requests that waited are tried again, in order. -/
def State.coolRetry (s : State) : State :=
  s.cool.waiting.foldl (fun s r => s.coolRequest r) (s.setCool { s.cool with waiting := [] })

/-- COOLER_FILL_DONE: the fill of a line arrives; merged requests are served in arrival order, a demand that merged into a
prefetch leaves the line at AGE 0 (R378). While DRAINING the line is drained. -/
def execCoolerFillDone (line : Nat) (err : DramErr) (s : State) : Host.Outcome State Fault Refusal :=
  match s.cool.misses.find? (·.line == line) with
  | none => .next s
  | some m =>
    let s := s.ddrFound line err
    let s := s.setCool { s.cool with misses := s.cool.misses.filter (·.line ≠ line) }
    let stores := m.reqs.any (·.store.isSome)
    let s := m.reqs.foldl (fun s r => s.serve r) s
    let s := if s.coolSt = Cst.on then
        s.putLine m.key { line := line, dirty := stores, pf := m.prefetch && m.reqs.isEmpty
                          age := if m.prefetch then (if m.reqs.isEmpty then 3 else 0) else if m.streaming then 3 else 2 }
      else s.setCool { s.cool with lines := Tab.del s.cool.lines m.key }
    .next s.coolRetry

/-- EVICTION_WRITE_ACCEPTED: a controller accepts the write of a buffered line, which leaves the buffer; a request that comes
together with it is served from the buffer, and the line reinserted where a way can be had (R358, R378). -/
def execEvictionWriteAccepted (line : Nat) (together : Option (CoolPort × Nat × Option (List Byte))) (s : State) :
    Host.Outcome State Fault Refusal :=
  if !s.cool.evict.contains (s.home line, line) then .next s
  else
    let out : State := s.setCool { s.cool with evict := s.cool.evict.filter (· ≠ (s.home line, line)) }
    match together with
    | none => .next out.coolRetry
    | some (p, off, st) =>
      let r : CoolReq := ⟨p, line * 64 + off % 64, st, false⟩
      if s.noAlloc (s.partition p) line then .next (out.serve r).coolRetry
      else if (s.makeRoom line (s.rd (COOL_WAYMASK.MASK (s.partition p)))).isNone then .next (out.coolWait r).coolRetry
      else .next (s.reinsert r true)

/-- L2_WRITEBACK: a core evicts a dirty L2 line into the Cooler (R357). -/
def execL2Writeback (core line : Nat) (s : State) : Host.Outcome State Fault Refusal :=
  if Tab.get? s.cool.l2 (line * 64 + core) ≠ some true then .next s
  else
    let s := s.setCool { s.cool with l2 := Tab.del s.cool.l2 (line * 64 + core) }
    match s.coolFind line with
    | some (k, l) =>
      if l.filling ∨ s.coolSt ≠ Cst.on then .next (s.coolRequest ⟨.core core, line * 64, some (Memory.readN s.mem (line * 64) 64), true⟩)
      else .next (s.putLine k { l with dirty := true })
    | none => .next (s.coolRequest ⟨.core core, line * 64, some (Memory.readN s.mem (line * 64) 64), true⟩)

/-! ## Maintenance (R360 to R363) -/

/-- Whether a line has a dirty copy in the Cooler or in an L2. -/
def State.lineDirty (s : State) (line : Nat) : Bool :=
  (s.cool.lines.any fun e => e.2.line == line && e.2.dirty) || s.cool.l2.any fun e => e.1 / 64 == line && e.2

/-- The dirty lines among those a predicate names, each once. -/
def State.dirtyLines (s : State) (p : Nat → Bool) : List Nat :=
  ((s.cool.lines.filterMap fun (e : Nat × CoolLine) => if p e.2.line && e.2.dirty then some e.2.line else none) ++
    (s.cool.l2.filterMap fun (e : Nat × Bool) => if p (e.1 / 64) && e.2 then some (e.1 / 64) else none)).eraseDups

/-- Lines cleaned, at both levels: their dirty copies are in DRAM. -/
def State.cleanLines (s : State) (p : Nat → Bool) : State :=
  s.setCool { s.cool with
    lines := Tab.mapV s.cool.lines fun _ l => if p l.line then { l with dirty := false } else l
    l2 := Tab.mapV s.cool.l2 fun k d => if p (k / 64) then false else d }

/-- Lines cleaned and invalidated at both levels; a way that awaits its fill stays (R378). -/
def State.flushLines (s : State) (p : Nat → Bool) : State :=
  s.setCool { s.cool with
    lines := Tab.keep s.cool.lines fun _ l => !p l.line || l.filling
    l2 := Tab.keep s.cool.l2 fun k _ => !p (k / 64) }

/-- CBO_CLEAN: any dirty copy of the 64-byte block is written back to DRAM. -/
def execCboClean (addr : Nat) (s : State) : Host.Outcome State Fault Refusal := .next (s.cleanLines (· == addr / 64))

/-- CBO_FLUSH: the block is cleaned and then invalidated at both levels. -/
def execCboFlush (addr : Nat) (s : State) : Host.Outcome State Fault Refusal := .next (s.flushLines (· == addr / 64))

/-- CBO_INVAL: performed as CBO.FLUSH at every privilege level. -/
def execCboInval (addr : Nat) (s : State) : Host.Outcome State Fault Refusal := .next (s.flushLines (· == addr / 64))

/-- Whether a range is refused with RANGE_INVALID (R361). -/
def badRange (start len : Nat) : Bool :=
  start % 64 != 0 || len == 0 || len % 64 != 0 || (decide (start < vatBase + 2 ^ 27) && decide (vatBase < start + len))

/-- The lines of a range as the Cooler's own translation gives them. -/
def State.rangeLines (s : State) (ring start len : Nat) : Except DmaErr (List Nat) :=
  (List.range (len / 64)).foldr (fun i acc =>
    match s.translate .cool (start + i * 64) (some ring), acc with
    | .ok p, .ok l => .ok (p / 64 :: l)
    | .error e, _ => .error e
    | _, .error e => .error e) (.ok [])

/-- CLEAN_RANGE: every cached copy of the range's lines is cleaned. -/
def execCleanRange (d : DescRef) (s : State) : Host.Outcome State Fault Refusal :=
  match s.startedAt .cool d Op.cleanRange with
  | none => .next s
  | some f =>
    if badRange f.src f.len then .next (s.finish .cool d St.rangeInvalid)
    else match s.rangeLines d.ring f.src f.len with
      | .error e => .next (s.finishDma .cool d e)
      | .ok ls => .next ((s.cleanLines (ls.contains ·)).finish .cool d St.success)

/-- FLUSH_RANGE: every cached copy of the range's lines is cleaned and invalidated; RESULT counts the dirty lines. -/
def execFlushRange (d : DescRef) (s : State) : Host.Outcome State Fault Refusal :=
  match s.startedAt .cool d Op.flushRange with
  | none => .next s
  | some f =>
    if badRange f.src f.len then .next (s.finish .cool d St.rangeInvalid)
    else match s.rangeLines d.ring f.src f.len with
      | .error e => .next (s.finishDma .cool d e)
      | .ok ls => .next ((s.flushLines (ls.contains ·)).finish .cool d St.success 0 (s.dirtyLines (ls.contains ·)).length)

/-- CLEAN_ALL: every line is cleaned; RESULT counts the dirty lines. -/
def execCleanAll (d : DescRef) (s : State) : Host.Outcome State Fault Refusal :=
  match s.startedAt .cool d Op.cleanAll with
  | none => .next s
  | some _ => .next ((s.cleanLines fun _ => true).finish .cool d St.success 0 (s.dirtyLines fun _ => true).length)

/-- FLUSH_WAYS: the named ways of every slice are cleaned and invalidated; RESULT counts the dirty lines. -/
def execFlushWays (d : DescRef) (s : State) : Host.Outcome State Fault Refusal :=
  match s.startedAt .cool d Op.flushWays with
  | none => .next s
  | some f =>
    let mask := f.at 28 2
    let hit : Nat → CoolLine → Bool := fun k l => mask.testBit (k % 16) && !l.filling
    let n := (s.cool.lines.filter fun e => hit e.1 e.2 && e.2.dirty).length
    .next ((s.setCool { s.cool with lines := Tab.keep s.cool.lines fun k l => !hit k l }).finish .cool d St.success 0 n)

/-- Residues a slice homes. -/
def State.residues (s : State) (slice : Nat) : List Nat := (List.range 48).filter fun r => s.sliceOf r == slice

/-- The map entry of a residue set. -/
def State.mapResidue (s : State) (slice r : Nat) : State := s.wr (COOL_SLICE_MAP.SLICE (r / 8) (r % 8)) slice

/-- A slice's residues move onto a partner: lines cleaned, the map entries set, the slice marked retired (R363). -/
def State.retireSlice (s : State) (i t : Nat) : State :=   -- above six retired slices, EV_MARGIN_EXHAUSTED (R459)
  let rs := s.residues i
  let s := s.flushLines fun l => rs.contains (l % 48)
  let s := rs.foldl (fun s r => s.mapResidue t r) s
  let s := s.setCool { s.cool with retired := Tab.set s.cool.retired i rs }
  let s := (s.wr COOL_STATUS.ACTIVE (48 - s.cool.retired.length)).raise Ev.sliceRetired (some .cool) (some i) [i, t]
  if 6 < s.cool.retired.length then s.raise Ev.marginExhausted (some .wit) else s

/-- Whether slice `i` may move onto `t`: an active partner that homes only its own residue; 24 slices at most (R363). -/
def State.mayRetire (s : State) (i t : Nat) : Bool :=
  decide (i < 48) && decide (t < 48) && i != t && !s.sliceRetired i && !s.sliceRetired t && s.residues t == [t]
    && decide (s.cool.retired.length < 24)

/-- Whether lines of a list of residues are in flight: fills on their way and writes in the eviction buffer. -/
def State.inFlight (s : State) (rs : List Nat) : Bool :=
  (s.cool.misses.any fun m => rs.contains (m.line % 48)) || s.cool.evict.any fun e => rs.contains (e.2 % 48)

/-- SLICE_RETIRE: the slice stops allocating; once nothing of it is in flight, its lines are cleaned and its residues move. -/
def execSliceRetire (d : DescRef) (s : State) : Host.Outcome State Fault Refusal :=
  match s.startedAt .cool d Op.sliceRetire with
  | none => .next s
  | some f =>
    let i := f.at 28 1
    let t := f.at 29 1
    if !s.mayRetire i t then .next (s.finish .cool d St.sliceState)
    else if s.inFlight (s.residues i) then .next (s.setCool { s.cool with stopped := some i })
    else .next (((s.retireSlice i t).setCool { (s.retireSlice i t).cool with stopped := none }).finish .cool d St.success)

/-- SLICE_RESTORE: the residues of a retired slice are cleaned and invalidated where they are, and move back, once nothing of
them is in flight (R363). -/
def execSliceRestore (d : DescRef) (s : State) : Host.Outcome State Fault Refusal :=
  match s.startedAt .cool d Op.sliceRestore with
  | none => .next s
  | some f =>
    let i := f.at 28 1
    match Tab.get? s.cool.retired i with
    | none => .next (s.finish .cool d St.sliceState)
    | some rs =>
      if s.inFlight rs then .next s else
      let s := s.flushLines fun l => rs.contains (l % 48)
      let s := rs.foldl (fun s r => s.mapResidue i r) s
      let s := s.setCool { s.cool with retired := Tab.del s.cool.retired i }
      let s := (s.wr COOL_STATUS.ACTIVE (48 - s.cool.retired.length)).raise Ev.sliceRetired (some .cool) (some i) [i]
      .next (s.finish .cool d St.success)

/-- The Cooler becomes OFF, or ON again where EN ← 1 was written meanwhile (R362). -/
def State.coolDrained (s : State) : State :=
  let s := (s.setCool { s.cool with lines := [] }).wr COOL_STATUS.STATE Cst.off
  let s := s.raise Ev.coolDrained (some .cool)
  if s.cool.enAgain then (s.setCool { s.cool with enAgain := false }).wr COOL_STATUS.STATE Cst.on else s

/-- COOL_CTL.EN ← 0 starts draining (R362). -/
def State.coolDisable (s : State) : State :=
  let s := s.wr COOL_CTL.EN 0
  if s.coolSt = Cst.on then s.wr COOL_STATUS.STATE Cst.draining else s.setCool { s.cool with enAgain := false }

/-- COOLER_DISABLE. -/
def execCoolerDisable (origin : Origin) (s : State) : Host.Outcome State Fault Refusal :=
  .next (s.cfgField .cool origin COOL_CTL.EN 0 fun s => s.coolDisable)

/-- COOLER_DRAIN_DONE: with no fill in flight the last way is done and STATE becomes OFF (R362). -/
def execCoolerDrainDone (s : State) : Host.Outcome State Fault Refusal :=
  if s.coolSt = Cst.draining ∧ s.cool.misses = [] then .next s.coolDrained else .next s

/-- COOL_CTL.EN ← 1: lines are cached from OFF on; during DRAINING it takes effect when OFF is reached (R362). -/
def State.coolEnable (s : State) : State :=
  let s := s.wr COOL_CTL.EN 1
  if s.coolSt = Cst.off then s.wr COOL_STATUS.STATE Cst.on
  else if s.coolSt = Cst.draining then s.setCool { s.cool with enAgain := true } else s

end Sys2Proof.Machine
end

