-- ==== Sys2Proof/Machine/Drawer.lean ====
section
/-! DEFINITION. The Drawer: settings groups in NOR and in the retention SRAM, and its descriptors (R496 to R502). -/
namespace Sys2Proof.Machine
open Sys2Proof

/-- Retention SRAM limit: the lengths of all groups plus 64 bytes each (R496). -/
def drwLimit : Nat := 2 * 2 ^ 20

/-- The size of a half of the settings area (R498). -/
def drwHalfSize : Nat := 4 * 2 ^ 20

/-- Bytes a record takes in NOR: header, data, padding to 256 (R498). -/
def GroupRec.norSize (r : GroupRec) : Nat := alignUp (64 + r.data.length) 256

/-- Bytes used in a half: its header and its records. -/
def Half.used (h : Half) : Nat := 256 + (h.recs.map GroupRec.norSize).sum

/-- The active half (R498). -/
def State.activeHalf (s : State) : Half := if s.on DRW_STATUS.HALF then s.drw.half1 else s.drw.half0

/-- The state with the active half replaced. -/
def State.setActiveHalf (s : State) (h : Half) : State :=
  if s.on DRW_STATUS.HALF then { s with drw := { s.drw with half1 := h } } else { s with drw := { s.drw with half0 := h } }

/-- Retention bytes in use. -/
def retUsed (t : Tab GroupRec) : Nat := (t.map fun e => e.2.data.length + 64).sum

/-- The counts of DRW_STATUS and DRW_GROUPS brought up to date. -/
def State.drwCounts (s : State) : State :=
  (((s.wr DRW_STATUS.USED (retUsed s.drw.ret)).wr DRW_STATUS.SEQ s.activeHalf.seq).wr DRW_GROUPS.GROUPS s.drw.ret.length).wr
    DRW_GROUPS.NOR_USED s.activeHalf.used

/-- The groups an origin may name (R496): 0 Island, 1 management firmware, 2 application cores. -/
def groupAllowed (origin group : Nat) : Bool :=
  if group < 0x1000 then origin == 0x200 else if group < 0x8000 then origin == 0x100 else decide (origin < 48)

/-- GEN of the next record of a group: one more than the latest of its records (R498). -/
def Half.nextGen (h : Half) (group : Nat) : Nat :=
  (h.recs.filter (·.group = group)).foldl (fun g r => max g (r.gen + 1)) 1

/-- A compaction: the latest record of each live group goes into the other half, which becomes active with SEQ + 1, and
the old half is erased (R499). -/
def State.drwCompact (s : State) : State :=
  let new : Half := { valid := true, seq := s.activeHalf.seq + 1, recs := s.drw.ret.map (·.2) }
  let s := s.setActiveHalf {}
  let s := (s.wr DRW_STATUS.HALF (1 - s.rd DRW_STATUS.HALF)).wr DRW_STATUS.TORN 0
  (s.setActiveHalf new).raise Ev.drwCompact (some .drw)

/-- The record appended to the active half, after a compaction where the half is torn or full (R499, R500). -/
def State.drwAppend (s : State) (r : GroupRec) : State :=
  let s := if s.on DRW_STATUS.TORN || decide (drwHalfSize < s.activeHalf.used + r.norSize) then s.drwCompact else s
  let h := s.activeHalf
  s.setActiveHalf { h with valid := true, recs := h.recs ++ [r] }

/-- A group gets a new record: appended, and copied into the retention SRAM (R499). -/
def State.keepGroup (s : State) (g format : Nat) (data : List Byte) : State :=
  let r : GroupRec := { group := g, format := format, gen := s.activeHalf.nextGen g, data := data }
  let s := s.drwAppend r
  ({ s with drw := { s.drw with ret := Tab.set s.drw.ret g r, retOk := true } } : State).drwCounts

/-- GROUP_WRITE: the record appended, read back, copied into the retention SRAM; `norOk` says whether the NOR program and
its read-back succeeded (R499, R502). -/
def execGroupWrite (d : DescRef) (norOk : Bool) (s : State) : Host.Outcome State Fault Refusal :=
  match s.startedAt .drw d Op.groupWrite with
  | none => .next s
  | some f =>
    let g := f.at 28 2
    if !groupAllowed f.origin g then .next (s.finish .drw d St.drwGroupRange)
    else if 65536 < f.len then .next (s.finish .drw d St.drwTooLong)
    else if drwLimit < retUsed (Tab.del s.drw.ret g) + f.len + 64 then .next (s.finish .drw d St.drwSpace)
    else
      match s.dmaRead .drw f.src f.len (some d.ring) with
      | .error e => .next (s.finishDma .drw d e)
      | .ok bs =>
        if !norOk then .next ((s.raise Ev.drwNorFail (some .drw)).finish .drw d St.drwNorFail)
        else
          .next ((s.keepGroup g (f.at 30 2) bs).finish .drw d St.success 0 (s.activeHalf.nextGen g))

/-- GROUP_READ: the group's data to the buffer; nothing is written where the capacity is too small (R502). -/
def execGroupRead (d : DescRef) (s : State) : Host.Outcome State Fault Refusal :=
  match s.startedAt .drw d Op.groupRead with
  | none => .next s
  | some f =>
    let g := f.at 28 2
    if !groupAllowed f.origin g then .next (s.finish .drw d St.drwGroupRange)
    else
      match Tab.get? s.drw.ret g with
      | none => .next (s.finish .drw d St.drwAbsent)
      | some r =>
        if f.len < r.data.length then .next (s.finish .drw d St.lengthMismatch)
        else
          match s.dmaWrite .drw f.dst r.data (some d.ring) with
          | .error e => .next (s.finishDma .drw d e)
          | .ok s => .next (s.finish .drw d St.success r.format (r.data.length + r.gen * 2 ^ 32))

/-- GROUP_DELETE: a TOMBSTONE record removes the group (R498, R502). -/
def execGroupDelete (d : DescRef) (norOk : Bool) (s : State) : Host.Outcome State Fault Refusal :=
  match s.startedAt .drw d Op.groupDelete with
  | none => .next s
  | some f =>
    let g := f.at 28 2
    if !groupAllowed f.origin g then .next (s.finish .drw d St.drwGroupRange)
    else
      match Tab.get? s.drw.ret g with
      | none => .next (s.finish .drw d St.drwAbsent)
      | some r =>
        if !norOk then .next ((s.raise Ev.drwNorFail (some .drw)).finish .drw d St.drwNorFail)
        else
          let s := { s with drw := { s.drw with ret := Tab.del s.drw.ret g } }
          let s := s.drwAppend { r with gen := s.activeHalf.nextGen g, data := [], tomb := true }
          .next (s.drwCounts.finish .drw d St.success)

/-! ## Restoring (R500, R501) -/

/-- The records before the first whose header does not check: the scan stops there (R500). -/
def Half.scanned (h : Half) : List GroupRec := h.recs.takeWhile (·.hdrOk)

/-- Whether the scan met a torn record. -/
def Half.torn (h : Half) : Bool := h.recs.any fun r => !r.hdrOk

/-- The groups a scan restores: of each, the valid record with the highest GEN; a tombstone removes it (R500). -/
def Half.groups (h : Half) : Tab GroupRec :=
  let best := (h.scanned.filter (·.dataOk)).foldl (fun t r =>
    match Tab.get? t r.group with
    | some o => if o.gen ≤ r.gen then Tab.set t r.group r else t
    | none => Tab.set t r.group r) ([] : Tab GroupRec)
  Tab.keep best fun _ r => !r.tomb

/-- The half a cold restore uses: the valid one with the higher SEQ (R498, R500). -/
def Drawer.pick (d : Drawer) : Option Bool :=
  match d.half0.valid, d.half1.valid with
  | false, false => none
  | true, false => some false
  | false, true => some true
  | true, true => some (decide (d.half0.seq < d.half1.seq))

/-- The Drawer restored from NOR at a cold boot, or from the retention SRAM at a warm one while its directory checks. -/
def State.drwRestore (s : State) (warm : Bool) : State :=
  if warm && s.drw.retOk then
    ((s.wr DRW_STATUS.HALF (if s.drw.pick = some true then 1 else 0)).wr DRW_STATUS.STATE 1).drwCounts
  else
    match s.drw.pick with
    | none => ({ s with drw := { s.drw with ret := [], retOk := true } }.wr DRW_STATUS.STATE 1).drwCounts
    | some h1 =>
      let h := if h1 then s.drw.half1 else s.drw.half0
      let s := (s.wr DRW_STATUS.HALF (if h1 then 1 else 0)).wr DRW_STATUS.TORN (if h.torn then 1 else 0)
      ({ s with drw := { s.drw with ret := h.groups, retOk := true } }.wr DRW_STATUS.STATE 1).drwCounts

end Sys2Proof.Machine
end

