-- ==== Sys2Proof/Machine/Island.lean ====
section
/-! DEFINITION. The Island's descriptors: random bytes, keys, the array KEK and pairing, locks, tokens, attestation,
certificates, lifecycle; entropy, DRBG and JTAG (R381 to R399). -/
namespace Sys2Proof.Machine
open Sys2Proof

/-! ## What every opcode checks first -/

/-- Lifecycle states an opcode is allowed in: all but RMA, or PROVISIONED and DEPLOYED only. -/
def State.lifeAllows (s : State) (keys : Bool) : Bool :=
  let l := s.rd SEC_STATUS.LIFECYCLE
  if keys then l == Life.provisioned || l == Life.deployed else l != Life.rma

/-- Whether the Island answers more than the Jig's opcodes: from layer 1 on, unless an image was refused at this boot and no
valid one has been committed since (R384). -/
def State.secAnswers (s : State) : Bool :=
  s.on SEC_STATUS.IMAGES_OK || (s.rd SEC_STATUS.LAYER != 0 && s.jig.refused.isEmpty)

/-- An Island descriptor goes on in its turn, once the images are verified (R384), in a lifecycle state that allows it, with a KEK
where it needs one. -/
def State.secDesc (s : State) (d : DescRef) (op : Nat) (keys kek : Bool) (k : Fetched → State) : Host.Outcome State Fault Refusal :=
  match s.startedAt .sec d op with
  | none => .next s
  | some f =>
    if !s.secAnswers || !s.inOrder .sec d then .next s
    else if !s.lifeAllows keys then .next (s.finish .sec d St.lifecycleState)
    else if kek && s.sec.kek.isNone then .next (s.finish .sec d St.kekAbsent)
    else .next (k f)

/-- The bytes a descriptor reads, or its completion with the failure. -/
def State.secRead (s : State) (d : DescRef) (a n : Nat) (k : List Byte → State) : State :=
  match s.dmaRead .sec a n (some d.ring) with
  | .ok bs => k bs
  | .error e => s.finishDma .sec d e

/-- Bytes written for a descriptor, or its completion with the failure: then nothing else of it happens. -/
def State.secWrite (s : State) (d : DescRef) (a : Nat) (bs : List Byte) (k : State → State) : State :=
  match s.dmaWrite .sec a bs (some d.ring) with
  | .ok s => k s
  | .error e => s.finishDma .sec d e

/-- A request to the DRBG: the count to the next reseed. -/
def State.drbg (s : State) : State := { s.draw with sec := { s.sec with drbgCount := s.sec.drbgCount + 1 } }

/-- RANDOM. -/
def execRandom (d : DescRef) (s : State) : Host.Outcome State Fault Refusal :=
  s.secDesc d Op.random false false fun f =>
    if f.len = 0 ∨ 4096 < f.len then s.finish .sec d St.lengthMismatch
    else if s.on SEC_RNG_STATUS.FAIL then s.finish .sec d St.entropyFail
    else s.drbg.secWrite d f.dst (s.freeBytes f.len) fun s => s.finish .sec d St.success

/-! ## Keys (R389 to R392, R396) -/

/-- The 192-byte blob of a key (R392). -/
def keyBlob (cls len index tenant kekId : Nat) (wrapped : List Byte) : List Byte :=
  leBytes 2 0x5EC1 ++ leBytes 1 cls ++ leBytes 1 len ++ leBytes 2 index ++ leBytes 2 tenant ++ leBytes 8 kekId
    ++ wrapped ++ zeros (176 - wrapped.length)

/-- Whether a key length suits a class. -/
def keyLenOk (cls len : Nat) : Bool :=
  if cls = Cls.tenant then len == 64 else if cls = Cls.domain then len == 32
  else decide (16 ≤ len) && decide (len ≤ 128) && len % 8 == 0

/-- Whether a slot is full; for TENANT the key-table entry says it (R403). -/
def State.slotFull (s : State) (cls index : Nat) : Bool :=
  if cls = Cls.tenant then entryValid (s.keyEntry index) else (s.slot cls index).key.isSome

/-- A key put into its slot or its key-table entry, after which the descriptor goes on with the handle, 0 for TENANT: the slot's
generation advances. A table entry that cannot be written fails the descriptor. -/
def State.installKey (s : State) (d : DescRef) (cls index tenant : Nat) (key : List Byte) (kekId : Nat) (wrapped : List Byte)
    (k : Nat → State → State) : State :=
  if cls = Cls.tenant then
    s.tableThen .sec d (s.keyEntryAddr index)
      (leBytes 1 1 ++ zeros 1 ++ leBytes 2 index ++ zeros 4 ++ leBytes 8 kekId ++ wrapped ++ zeros (112 - wrapped.length)) (k 0)
  else
    let s := s.setSlot cls index { key := some key, gen := (s.slot cls index).gen + 1, tenant := tenant }
    k (s.handleOf cls index) s

/-- The class and index a key opcode names are in range. -/
def slotOk (f : Fetched) : Bool := decide (f.at 30 2 < slotCount (f.at 28 1))

/-- The wrapped form of a key under the array KEK. -/
def State.wrapKey (s : State) (cls index tenant : Nat) (key : List Byte) : Nat × List Byte :=
  match s.sec.kek with
  | some (id, kek) => (id, keyWrap kek (keyMeta cls key.length index tenant ++ key))
  | none => (0, [])

/-- KEY_GEN. -/
def execKeyGen (d : DescRef) (s : State) : Host.Outcome State Fault Refusal :=
  s.secDesc d Op.keyGen true true fun f =>
    let cls := f.at 28 1
    let index := f.at 30 2
    let len := if cls = Cls.tenant then 64 else if cls = Cls.domain then 32 else f.at 32 1
    let tenant := if cls = Cls.tenant then index else f.at 34 2
    if f.len ≠ 192 then s.finish .sec d St.lengthMismatch
    else if !slotOk f || !keyLenOk cls len then s.finish .sec d St.slotInvalid
    else if s.slotFull cls index then s.finish .sec d St.slotOccupied
    else if 2 ^ 32 - 1 ≤ (s.slot cls index).gen then s.finish .sec d St.slotInvalid
    else if s.on SEC_RNG_STATUS.FAIL then s.finish .sec d St.entropyFail
    else
      let key := s.freeBytes len
      let (id, w) := s.wrapKey cls index tenant key
      s.drbg.secWrite d f.dst (keyBlob cls len index tenant id w) fun s =>
        s.installKey d cls index tenant key id w fun h s => s.finish .sec d St.success 0 h

/-- What a blob holds for a slot: the key, its tenant and the wrapped data, where every check of R392 passes. -/
def State.openBlob (s : State) (cls index : Nat) (b : List Byte) : Option (List Byte × Nat × List Byte) :=
  match s.sec.kek with
  | none => none
  | some (id, kek) =>
    let len := fieldAt b 3 1
    let tenant := fieldAt b 6 2
    let w := slice b 16 (len + 16)
    if fieldAt b 0 2 ≠ 0x5EC1 ∨ fieldAt b 2 1 ≠ cls ∨ fieldAt b 4 2 ≠ index ∨ fieldAt b 8 8 ≠ id ∨ !keyLenOk cls len
        ∨ (cls = Cls.tenant ∧ tenant ≠ index) then none
    else match keyUnwrap kek w with
      | none => none
      | some x => if x.take 8 = keyMeta cls len index tenant then some (x.drop 8, tenant, w) else none

/-- KEY_LOAD. -/
def execKeyLoad (d : DescRef) (s : State) : Host.Outcome State Fault Refusal :=
  s.secDesc d Op.keyLoad true true fun f =>
    let cls := f.at 28 1
    let index := f.at 30 2
    if f.len ≠ 192 then s.finish .sec d St.lengthMismatch
    else if !slotOk f then s.finish .sec d St.slotInvalid
    else if s.slotFull cls index then s.finish .sec d St.slotOccupied
    else if 2 ^ 32 - 1 ≤ (s.slot cls index).gen then s.finish .sec d St.slotInvalid
    else s.secRead d f.src 192 fun b =>
      match s.openBlob cls index b with
      | none => s.finish .sec d St.unwrapFail
      | some (key, tenant, w) =>
        s.installKey d cls index tenant key (fieldAt b 8 8) w fun h s => s.finish .sec d St.success 0 h

/-- KEY_DESTROY: the slot is zeroed and its generation advances; a tenant's entry is cleared and its cached key evicted. -/
def execKeyDestroy (d : DescRef) (s : State) : Host.Outcome State Fault Refusal :=
  s.secDesc d Op.keyDestroy true true fun f =>
    let cls := f.at 28 1
    let index := f.at 30 2
    if !slotOk f then s.finish .sec d St.slotInvalid
    else if !s.slotFull cls index then s.finish .sec d St.slotEmpty
    else
      let gone := fun (s : State) => (s.raise Ev.keyDestroyed (some .sec) none [cls, index]).finish .sec d St.success
      if cls = Cls.tenant then s.tableThen .sec d (s.keyEntryAddr index) (zeros 128) fun s => gone (s.evictKey index)
      else gone (s.setSlot cls index { key := none, gen := min ((s.slot cls index).gen + 1) (2 ^ 32 - 1), tenant := 0 })

/-- KEY_EXPORT. -/
def execKeyExport (d : DescRef) (s : State) : Host.Outcome State Fault Refusal :=
  s.secDesc d Op.keyExport true true fun f =>
    let cls := f.at 28 1
    let index := f.at 30 2
    if f.len ≠ 192 then s.finish .sec d St.lengthMismatch
    else if !slotOk f then s.finish .sec d St.slotInvalid
    else if !s.slotFull cls index then s.finish .sec d St.slotEmpty
    else
      let blob := if cls = Cls.tenant then
          let e := s.keyEntry index
          keyBlob cls 64 index index (fieldAt e 8 8) (slice e 16 80)
        else
          let k := s.slot cls index
          let key := k.key.getD []
          let (id, w) := s.wrapKey cls index k.tenant key
          keyBlob cls key.length index k.tenant id w
      s.secWrite d f.dst blob fun s => s.finish .sec d St.success

/-! ## The array KEK and pairing (R392, R393) -/

/-- The sealed blob of the array KEK: KEK_ID and key wrapped under the storage key (its layout: log entry 22). -/
def State.sealedKek (s : State) (id : Nat) (kek : List Byte) : List Byte :=
  keyWrap s.storageKey (leBytes 8 id ++ kek) ++ zeros 80

/-- The KEK in force. -/
def State.setKek (s : State) (id : Nat) (kek : List Byte) : State :=
  { s.wr SEC_STATUS.KEK 1 with sec := { s.sec with kek := some (id, kek) } }

/-- KEK_CREATE. -/
def execKekCreate (d : DescRef) (s : State) : Host.Outcome State Fault Refusal :=
  s.secDesc d Op.kekCreate true false fun f =>
    if f.len ≠ 128 then s.finish .sec d St.lengthMismatch
    else if s.sec.kek.isSome then s.finish .sec d St.kekPresent
    else if s.on SEC_RNG_STATUS.FAIL then s.finish .sec d St.entropyFail
    else
      let id := s.freeWord
      let kek := s.freeBytes 32
      s.drbg.secWrite d f.dst (s.sealedKek id kek) fun s => (s.setKek id kek).finish .sec d St.success

/-- KEK_UNSEAL. -/
def execKekUnseal (d : DescRef) (s : State) : Host.Outcome State Fault Refusal :=
  s.secDesc d Op.kekUnseal true false fun f =>
    if f.len ≠ 128 then s.finish .sec d St.lengthMismatch
    else s.secRead d f.src 128 fun b =>
      match keyUnwrap s.storageKey (b.take 48) with
      | none => s.finish .sec d St.unwrapFail
      | some x => (s.setKek (fieldAt x 0 8) (x.drop 8)).finish .sec d St.success

/-- The unrevoked owner digests of this head. -/
def State.ownerDigests (s : State) : List (List Byte) :=
  ((List.range 4).filter fun i => !(Memory.read s.otp 0x260).toNat.testBit i).map (fun i => Memory.readN s.otp (0x160 + 64 * i) 64)
    |>.filter fun x => x != zeros 64

/-- A 512-byte pairing message: a signed body of up to 398 bytes (its layout: log entry 22). -/
def State.pairMessage (s : State) (body : List Byte) : List Byte :=
  let b := body ++ zeros (398 - body.length)
  b ++ edSign s.deviceKey b

/-- Whether a pairing message is signed by the device key its certificate names. -/
def pairSigned (certKey : Option (List Byte)) (m : List Byte) : Bool :=
  match certKey with
  | none => false
  | some pub => edVerify pub (m.take 398) (slice m 398 114)

/-- PAIR_OFFER: an X448 key pair and the owner digests, signed with the DeviceID key. -/
def execPairOffer (d : DescRef) (s : State) : Host.Outcome State Fault Refusal :=
  s.secDesc d Op.pairOffer true false fun f =>
    if f.len ≠ 512 then s.finish .sec d St.lengthMismatch
    else if s.on SEC_RNG_STATUS.FAIL then s.finish .sec d St.entropyFail
    else
      let priv := s.freeBytes 56
      let digests := s.ownerDigests
      let body := x448Public priv ++ digests.flatten
      s.drbg.secWrite d f.dst (s.pairMessage body) fun s =>
        ({ s with sec := { s.sec with pairKey := some priv } } : State).finish .sec d St.success

/-- The transfer key of R393. -/
def transferKey (shared offerPub sendPub : List Byte) : List Byte := shakeLabel "BRM-PAIR" (shared ++ offerPub ++ sendPub) 32

/-- PAIR_SEND: the offer is verified under the peer's DeviceID key (`certKey`: the key of the supplied certificate where its
chain ends at a root named here), and the KEK returned wrapped under the transfer key. -/
def execPairSend (d : DescRef) (certKey : Option (List (BitVec 8))) (s : State) : Host.Outcome State Fault Refusal :=
  s.secDesc d Op.pairSend true false fun f =>
    if f.len ≠ 512 then s.finish .sec d St.lengthMismatch
    else if s.on SEC_RNG_STATUS.FAIL then s.finish .sec d St.entropyFail
    else match s.sec.kek with
      | none => s.finish .sec d St.kekAbsent
      | some (id, kek) =>
        s.secRead d f.src 512 fun m => s.secRead d (f.at 32 8) (f.at 40 4) fun _ =>
          let theirs := (List.range 4).map fun i => slice m (56 + 64 * i) 64
          if !pairSigned certKey m || !(s.ownerDigests.any theirs.contains) then s.finish .sec d St.pairInvalid
          else
            let priv := s.freeBytes 56
            let pub := x448Public priv
            let key := transferKey (x448 priv (m.take 56)) (m.take 56) pub
            let out := s.pairMessage (pub ++ keyWrap key (leBytes 8 id ++ kek))
            s.drbg.secWrite d f.dst out fun s => s.finish .sec d St.success

/-- The X448 private key of the last offer is zeroed (R393). -/
def State.dropPairKey (s : State) : State := { s with sec := { s.sec with pairKey := none } }

/-- PAIR_RECEIVE: the transfer blob is verified, the KEK installed and returned sealed; whatever the outcome, the private key is
zeroed when it completes. -/
def execPairReceive (d : DescRef) (certKey : Option (List (BitVec 8))) (s : State) : Host.Outcome State Fault Refusal :=
  s.secDesc d Op.pairReceive true false fun f =>
    State.dropPairKey <|
    if f.len ≠ 512 then s.finish .sec d St.lengthMismatch
    else if s.on SEC_RNG_STATUS.FAIL then s.finish .sec d St.entropyFail
    else
      s.secRead d f.src 512 fun m => s.secRead d (f.at 32 8) (f.at 40 4) fun _ =>
        match s.sec.pairKey, pairSigned certKey m with
        | some priv, true =>
          let key := transferKey (x448 priv (m.take 56)) (x448Public priv) (m.take 56)
          (match keyUnwrap key (slice m 56 48) with
            | none => s.finish .sec d St.pairInvalid
            | some x =>
              s.secWrite d f.dst (s.sealedKek (fieldAt x 0 8) (x.drop 8)) fun s =>
                (s.setKek (fieldAt x 0 8) (x.drop 8)).finish .sec d St.success)
        | _, _ => s.finish .sec d St.pairInvalid

/-! ## Locks and tokens (R397) -/

/-- Every unit base that holds a unit. -/
def allUnits : List UnitId :=
  [.apx, .clk, .pwr, .drw, .par, .railA, .railB, .railC, .churn, .sep, .press, .ven, .carc, .cell, .bld, .ten, .lease, .cool,
   .vat, .ddr, .sec, .aud, .jig, .gov, .wit, .mtr, .tal, .mgt]

/-- LOCKED of every unit a mask names; EV_LOCK_CHANGE where one changes. -/
def State.setLocks (s : State) (mask v : Nat) : State :=
  let us := allUnits.filter fun u => mask.testBit (4 * unitN u + unitK u)
  let changed := us.any fun u => s.rd (UNIT_LOCK.LOCKED (unitBase u)) != v
  let s := us.foldl (fun s u => s.wr (UNIT_LOCK.LOCKED (unitBase u)) v) s
  if changed then s.raise Ev.lockChange (some .sec) none [mask, v] else s

/-- LOCK_SET: never refused. -/
def execLockSet (d : DescRef) (s : State) : Host.Outcome State Fault Refusal :=
  s.secDesc d Op.lockSet false false fun f => (s.setLocks (f.at 48 8) 1).finish .sec d St.success

/-- The public-key digests at an OTP address that its revocation byte leaves standing. -/
def State.digestsAt (s : State) (base revoked : Nat) : List (List Byte) :=
  ((List.range 4).filter fun i => !(Memory.read s.otp revoked).toNat.testBit i).map fun i => Memory.readN s.otp (base + 64 * i) 64

/-- Whether a token passes: serial, nonce, mask, an unrevoked key digest, the signature. -/
def State.tokenOk (s : State) (t : List Byte) (mask : Nat) (digests : List (List Byte)) : Bool :=
  slice t 0 32 == s.serial && fieldAt t 32 8 == s.rd SEC_NONCE.NONCE && fieldAt t 40 8 == mask
    && digests.contains (shake256 (slice t 48 57) 64) && edVerify (slice t 48 57) (t.take 105) (slice t 105 114)

/-- A fresh nonce. -/
def State.newNonce (s : State) : State := s.draw.wr SEC_NONCE.NONCE s.freeWord

/-- A rejected token. -/
def State.tokenRejected (s : State) (d : DescRef) : State :=
  (s.raise Ev.tokenRejected (some .sec)).finish .sec d St.tokenInvalid

/-- LOCK_CLEAR: with an owner token in DEPLOYED; the nonce is renewed each time. -/
def execLockClear (d : DescRef) (s : State) : Host.Outcome State Fault Refusal :=
  s.secDesc d Op.lockClear false false fun f =>
    let mask := f.at 48 8
    if s.rd SEC_STATUS.LIFECYCLE ≠ Life.deployed then (s.newNonce.setLocks mask 0).finish .sec d St.success
    else if f.len ≠ 256 then s.newNonce.finish .sec d St.lengthMismatch
    else s.newNonce.secRead d f.src 256 fun t =>
      if s.tokenOk t mask (s.digestsAt 0x160 0x260) then (s.newNonce.setLocks mask 0).finish .sec d St.success
      else s.newNonce.tokenRejected d

/-! ## Attestation, certificates, lifecycle (R385, R386, R399) -/

/-- The quote's bytes 0 to 343. -/
def State.quoteBody (s : State) (nonce : List Byte) : List Byte :=
  let (seq, dg) := s.audLatest
  leBytes 4 0xA7750001 ++ leBytes 1 (s.rd SEC_STATUS.LIFECYCLE)
    ++ leBytes 1 (s.rd SEC_STATUS.KEK + 2 * s.rd SEC_STATUS.DEBUG_OPEN) ++ zeros 2 ++ leBytes 8 s.now
    ++ nonce ++ zeros (64 - nonce.length) ++ s.measurement 0 ++ s.measurement 1 ++ s.measurement 2 ++ leBytes 8 seq ++ dg

/-- ATTEST. -/
def execAttest (d : DescRef) (s : State) : Host.Outcome State Fault Refusal :=
  s.secDesc d Op.attest true false fun f =>
    let n := f.at 28 1
    if f.len ≠ 512 ∨ n = 0 ∨ 64 < n then s.finish .sec d St.lengthMismatch
    else s.secRead d f.src n fun nonce =>
      let body := s.quoteBody nonce
      s.secWrite d f.dst (body ++ edSign s.attestKey body ++ zeros 54) fun s => s.finish .sec d St.success

/-- CERT_READ: the certificate, whose bytes the manual does not give (log entry 8), as far as the buffer holds it. -/
def execCertRead (d : DescRef) (s : State) : Host.Outcome State Fault Refusal :=
  s.secDesc d Op.certRead false false fun f =>
    if 3 < f.at 28 1 then s.finish .sec d St.rsvdNonzero
    else s.draw.secWrite d f.dst (s.freeBytes f.len) fun s => s.finish .sec d St.success

/-- Whether the lifecycle may advance to a target (R386). -/
def State.lifeStep (s : State) (target : Nat) : Bool :=
  let l := s.rd SEC_STATUS.LIFECYCLE
  (l == Life.manufacture && target == Life.provisioned && s.ownerDigests != [])
    || (l == Life.provisioned && (target == Life.deployed || target == Life.rma)) || (l == Life.deployed && target == Life.rma)

/-- An advance accepted: it takes effect at the next power-up, with the fuses of an earlier one that waits; a LIFECYCLE entry is
made. -/
def State.lifeAccept (s : State) (d : DescRef) (target token : Nat) : State :=
  let l := s.rd SEC_STATUS.LIFECYCLE
  let s := { s with boot := { s.boot with advance := some (max target (s.boot.advance.getD 0)) } }
  let s := s.stage 4 0x0200 0xFFFF (unitN .sec) 0 0 0 (leBytes 1 l ++ leBytes 1 target ++ leBytes 1 token)
  (s.raise Ev.lifecycle (some .sec) none [target]).finish .sec d St.success

/-- LIFECYCLE_ADVANCE: with a Brembica RMA token into RMA. -/
def execLifecycleAdvance (d : DescRef) (s : State) : Host.Outcome State Fault Refusal :=
  s.secDesc d Op.lifecycleAdvance false false fun f =>
    let target := f.at 28 1
    if !s.lifeStep target then s.finish .sec d St.lifecycleState
    else if target ≠ Life.rma then
      (if f.len = 0 ∨ f.len = 256 then s.lifeAccept d target 0 else s.finish .sec d St.lengthMismatch)
    else if f.len ≠ 256 then s.finish .sec d St.lengthMismatch
    else s.secRead d f.src 256 fun t =>
      if s.tokenOk t 0 (s.digestsAt 0x50 0x150) then s.lifeAccept d target 2 else s.tokenRejected d

/-! ## Entropy and JTAG (R386, R394) -/

/-- ENTROPY_HEALTH_FAIL: a repetition-count or adaptive-proportion test fails. -/
def execEntropyHealthFail (proportion : Bool) (s : State) : Host.Outcome State Fault Refusal :=
  if s.on SEC_RNG_STATUS.FAIL then .next s
  else
    let s := (s.wr SEC_RNG_STATUS.FAIL 1).wr SEC_RNG_STATUS.TEST (if proportion then 2 else 1)
    .next (s.raise Ev.entropyFail (some .sec) none [if proportion then 2 else 1])

/-- DRBG_RESEED: after 2^20 requests. -/
def execDrbgReseed (s : State) : Host.Outcome State Fault Refusal :=
  if s.sec.drbgCount < 2 ^ 20 then .next s
  else .next (({ s with sec := { s.sec with drbgCount := 0 } } : State).bump SEC_RNG_STATUS.RESEEDS 1)

/-- JTAG_INSTRUCTION: while debug is closed, only boundary scan and the like is executed. -/
def execJtagInstruction (insn : TapInsn) (s : State) : Host.Outcome State Fault Refusal :=
  let ok := match insn with
    | .other _ => s.on SEC_STATUS.DEBUG_OPEN
    | _ => true
  .next { s with sec := { s.sec with tap := some (insn, ok) } }

end Sys2Proof.Machine
end

