-- ==== Sys2Proof/Machine/MgmtPort.lean ====
section
/-! DEFINITION. The management port: link, steering, frames and the wall clock (R480 to R484). -/
namespace Sys2Proof.Machine
open Sys2Proof

/-- The largest frame of the port in bytes (R480). -/
def mgtMaxFrame : Nat := 1522

/-- The station address as it stands in a frame. -/
def State.mgtMac (s : State) : List Byte := (leBytes 6 (s.rd MGT_MAC.MAC)).reverse

/-- The IPv6 link-local address of the port: fe80::/64 and the modified EUI-64 identifier of MGT_MAC (R482). -/
def State.mgtIpv6 (s : State) : List Byte :=
  let m := s.mgtMac
  [0xFE, 0x80] ++ zeros 6 ++ ((m.take 1).map (· ^^^ 2)) ++ slice m 1 2 ++ [0xFF, 0xFE] ++ slice m 3 3

/-- Whether the MAC accepts a destination address: its own, broadcast, or a multicast address set by firmware (R480). -/
def State.mgtAccepts (s : State) (dst : List Byte) : Bool :=
  dst == s.mgtMac || dst == List.replicate 6 0xFF || s.mgt.mcast.contains dst

/-- Where the UDP header of a frame addressed to the port stands, if it is such a frame (R482). -/
def State.mgtUdpAt (s : State) (fr : List Byte) : Option Nat :=
  let et := beNat (slice fr 12 2)
  if et = 0x0800 ∧ beNat (slice fr 23 1) = 17 ∧ s.on MGT_IPV4.VALID ∧ beNat (slice fr 30 4) = s.rd MGT_IPV4.ADDR then
    some (14 + beNat (slice fr 14 1) % 16 * 4)
  else if et = 0x86DD ∧ beNat (slice fr 20 1) = 17 ∧ slice fr 38 16 = s.mgtIpv6 then some 54
  else none

/-- The payload of a Jig datagram: UDP to one of the port's addresses and to JIG_CFG.PORT (R482). -/
def State.jigPayload (s : State) (fr : List Byte) : Option (List Byte) :=
  match s.mgtUdpAt fr with
  | some u => if beNat (slice fr (u + 2) 2) = s.rd JIG_CFG.PORT then some (slice fr (u + 8) (beNat (slice fr (u + 4) 2) - 8)) else none
  | none => none

/-- What the Island answers by itself while the firmware does not run: ARP, Neighbor Solicitation, Echo (R482). -/
def State.islandAnswer (s : State) (fr : List Byte) : Option IslandReply :=
  let et := beNat (slice fr 12 2)
  let src := slice fr 6 6
  if et = 0x0806 ∧ beNat (slice fr 20 2) = 1 ∧ s.on MGT_IPV4.VALID ∧ beNat (slice fr 38 4) = s.rd MGT_IPV4.ADDR then
    some (.arp src)
  else if et = 0x0800 ∧ beNat (slice fr 23 1) = 1 ∧ s.on MGT_IPV4.VALID ∧ beNat (slice fr 30 4) = s.rd MGT_IPV4.ADDR
      ∧ beNat (slice fr (14 + beNat (slice fr 14 1) % 16 * 4) 1) = 8 then
    some (.echo src (fr.drop (14 + beNat (slice fr 14 1) % 16 * 4 + 4)))
  else if et = 0x86DD ∧ beNat (slice fr 20 1) = 58 ∧ beNat (slice fr 54 1) = 135 ∧ slice fr 62 16 = s.mgtIpv6 then
    some (.neighbor src)
  else if et = 0x86DD ∧ beNat (slice fr 20 1) = 58 ∧ beNat (slice fr 54 1) = 128 ∧ slice fr 38 16 = s.mgtIpv6 then
    some (.echo src (fr.drop 58))
  else none

/-- An ordinary frame goes to the firmware through the oldest FRAME_RX_BUF, or is dropped and counted (R481). -/
def State.frameToFirmware (s : State) (fr : List Byte) : State :=
  match s.firstWaiting .mgt Op.frameRxBuf with
  | none => s.bump MGT_STATUS.RX_DROP 1
  | some (d, f) =>
    match s.dmaWrite .mgt f.dst fr (some d.ring) with
    | .error e => s.finishDma .mgt d e
    | .ok s => s.finish .mgt d St.success fr.length s.now

/-- MGT_FRAME_RX: a frame is steered to the Island or to the firmware. A port that is not enabled or has no link receives
nothing; frames above 1,522 bytes or to other stations are not accepted. Up to 64 Jig datagrams wait for the Island. -/
def execMgtFrameRx (frame : List Byte) (s : State) : Host.Outcome State Fault Refusal :=
  if !s.on MGT_CTL.EN || !s.on MGT_STATUS.LINK || decide (mgtMaxFrame < frame.length) || !s.mgtAccepts (frame.take 6) then .next s
  else
    match s.jigPayload frame with
    | some p =>
      if s.mgt.jigIn.length < 64 then .next { s with mgt := { s.mgt with jigIn := s.mgt.jigIn ++ [p] } } else .next s
    | none =>
      if s.mgt.fwRunning then .next (s.frameToFirmware frame)
      else
        match s.islandAnswer frame with
        | some r => .next { s with mgt := { s.mgt with replies := r :: s.mgt.replies } }
        | none => .next s

/-- MGT_LINK_CHANGE: the link of an enabled port goes up, at 2,500 Mb/s in 2500BASE-X and at 1,000 or 100 Mb/s in SGMII,
or goes down; a change records EV_MGT_LINK (R480, R487). -/
def execMgtLinkChange (up gig : Bool) (s : State) : Host.Outcome State Fault Refusal :=
  if !s.on MGT_CTL.EN || s.on MGT_STATUS.LINK == up then .next s
  else
    let speed := if !up then 0 else if s.on MGT_CTL.MODE then 3 else if gig then 2 else 1
    .next (((s.wr MGT_STATUS.LINK (if up then 1 else 0)).wr MGT_STATUS.SPEED speed).raise Ev.mgtLink (some .mgt))

/-- FRAME_TX: the frame at SOURCE is sent; bit 0 of byte 28 asks for the time at which it left (R481). -/
def execFrameTx (d : DescRef) (s : State) : Host.Outcome State Fault Refusal :=
  match s.startedAt .mgt d Op.frameTx with
  | none => .next s
  | some f =>
    if mgtMaxFrame < f.len then .next (s.finish .mgt d St.frameTooLong)
    else
      match s.dmaRead .mgt f.src f.len (some d.ring) with
      | .error e => .next (s.finishDma .mgt d e)
      | .ok bs =>
        .next ({ s with mgt := { s.mgt with sent := bs :: s.mgt.sent } }.finish .mgt d St.success 0
          (if (f.at 28 1).testBit 0 then s.now else 0))

/-- FRAME_RX_BUF: a buffer of at least 1,522 bytes waits for a frame (R481, R527). -/
def execFrameRxBuf (d : DescRef) (s : State) : Host.Outcome State Fault Refusal :=
  match s.startedAt .mgt d Op.frameRxBuf with
  | none => .next s
  | some f =>
    if f.len < mgtMaxFrame then .next (s.finish .mgt d St.lengthMismatch)
    else .next (s.setPhase .mgt d .waiting)

/-- WALL_CLOCK_APPLY: a write of MGT_WALL_REF applies it together with the held SEC, NS and RATE (R484). -/
def execWallClockApply (ref : Word) (s : State) : Host.Outcome State Fault Refusal :=
  .next ((((s.wr MGT_WALL_SEC.SEC s.mgt.heldSec).wr MGT_WALL_NS.NS s.mgt.heldNs).wr MGT_WALL_NS.RATE s.mgt.heldRate).wr
    MGT_WALL_REF.REF ref.toNat)

end Sys2Proof.Machine
end

