-- ==== Sys2Proof/Machine/CarcDesc.lean ====
section
/-! DEFINITION. The Carcase's descriptors (R209, R210, R217 to R222, R232 to R235). -/
namespace Sys2Proof.Machine
open Sys2Proof

/-! ## Chunk vectors (R232) -/

/-- K, P and LENGTH in range: the status where they are not. -/
def carcShape (f : Fetched) : Option Nat :=
  if f.len < 4096 ∨ 65536 < f.len ∨ f.len % 4096 ≠ 0 then some St.lengthMismatch
  else if f.at 28 1 < 4 ∨ 14 < f.at 28 1 ∨ f.at 29 1 < 2 ∨ 3 < f.at 29 1 ∨ 16 < f.at 28 1 + f.at 29 1 then some St.geometryInvalid
  else none

/-- The vector of a descriptor: every named entry in the Vat window, the others 0. -/
def State.carcVector (s : State) (d : DescRef) (f : Fetched) (n : Nat) (named : Nat → Bool) : Except (Sum Nat DmaErr) (List Nat) :=
  match s.dmaRead .carc f.src (8 * n) (some d.ring) with
  | .error e => .error (.inr e)
  | .ok bs =>
    let v := (List.range n).map fun i => fieldAt bs (8 * i) 8
    if (List.range n).all fun i => if named i then vatSpan (v.getD i 0) f.len else v.getD i 0 == 0 then .ok v
    else .error (.inl St.addrInvalid)

/-- The buffers at some entries of a vector. -/
def State.carcBuffers (s : State) (ring len : Nat) : List Nat → Except DmaErr (List (List Byte))
  | [] => .ok []
  | a :: as => match s.dmaRead .carc a len (some ring) with
    | .error e => .error e
    | .ok b => match s.carcBuffers ring len as with
      | .error e => .error e
      | .ok bs => .ok (b :: bs)

/-- Buffers written at some entries of a vector. -/
def State.carcStore (s : State) (ring : Nat) : List (Nat × List Byte) → Except DmaErr State
  | [] => .ok s
  | (a, b) :: xs => match s.dmaWrite .carc a b (some ring) with
    | .error e => .error e
    | .ok s => s.carcStore ring xs

/-- A started chunk descriptor: `named` entries of `n`, those read, then what it writes with INFO and RESULT. -/
def State.carcJob (s : State) (d : DescRef) (f : Fetched) (n : Nat) (named : Nat → Bool) (reads : List Nat)
    (k : List (List Byte) → List (Nat × List Byte) × Nat × Nat) : State :=
  match s.carcVector d f n named with
  | .error (.inl st) => s.finish .carc d st
  | .error (.inr e) => s.finishDma .carc d e
  | .ok v => match s.carcBuffers d.ring f.len (reads.map fun i => v.getD i 0) with
    | .error e => s.finishDma .carc d e
    | .ok bs =>
      let (out, info, result) := k bs
      match s.carcStore d.ring (out.map fun o => (v.getD o.1 0, o.2)) with
      | .error e => s.finishDma .carc d e
      | .ok s => s.finish .carc d St.success info result

/-- A started descriptor whose shape is in range, on a lane in service. -/
def State.carcStarted (s : State) (d : DescRef) (op : Nat) (k : Fetched → State) : Host.Outcome State Fault Refusal :=
  match s.startedAt .carc d op with
  | none => .next s
  | some f => match carcShape f with
    | some e => .next (s.finish .carc d e)
    | none => .next (if s.carcLane then k f else s)

/-- ENCODE. -/
def execEncode (d : DescRef) (s : State) : Host.Outcome State Fault Refusal :=
  s.carcStarted d Op.encode fun f =>
    let kk := f.at 28 1
    let p := f.at 29 1
    s.carcJob d f (kk + p) (fun _ => true) (List.range kk) fun bs =>
      ((List.range p).map fun i => (kk + i, parityOf i f.len bs), 0, 0)

/-- DECODE: the columns of OUT_MASK from the first K of AVAIL_MASK. -/
def execDecode (d : DescRef) (s : State) : Host.Outcome State Fault Refusal :=
  s.carcStarted d Op.decode fun f =>
    let kk := f.at 28 1
    let p := f.at 29 1
    let w := kk + p
    let avail := f.at 32 2
    let out := f.at 34 2
    if 2 ^ w ≤ avail ∨ 2 ^ w ≤ out ∨ avail &&& out ≠ 0 ∨ p < popCount out 16 then s.finish .carc d St.geometryInvalid
    else if popCount avail 16 < kk then s.finish .carc d St.decodeInsufficient
    else
      let cols := ((List.range w).filter avail.testBit).take kk
      let outs := (List.range w).filter out.testBit
      s.carcJob d f w (fun i => avail.testBit i || out.testBit i) cols fun bs =>
        let data := solveData kk (cols.zip bs)
        (outs.map fun c => (c, columnOf kk f.len data c), outs.length, 0)

/-- PATCH_DELTA: new parities for a replaced data column. -/
def execPatchDelta (d : DescRef) (s : State) : Host.Outcome State Fault Refusal :=
  s.carcStarted d Op.patchDelta fun f =>
    let p := f.at 29 1
    let j := f.at 30 1
    if f.at 28 1 ≤ j then s.finish .carc d St.geometryInvalid
    else s.carcJob d f (2 + 2 * p) (fun _ => true) (List.range (2 + p)) fun bs =>
      let delta := xorBytes (bs.getD 0 []) (bs.getD 1 [])
      ((List.range p).map fun i => (2 + p + i, xorBytes (bs.getD (2 + i) []) (gfScale (gfCoef i j) delta)), 0, 0)

/-- INFO of a VERIFY (R234). -/
def verifyInfo (k : Nat) : Finding → Nat
  | .consistent => 1 + 15 * 16
  | .parity i => (k + i) * 16 + 1 * 256
  | .data j => j * 16 + 2 * 256
  | .unlocated => 15 * 16 + 3 * 256

/-- The first byte offset at which some syndrome is not zero, or 0. -/
def firstWrong (n : Nat) (syn : List (List Byte)) : Nat :=
  ((List.range n).find? fun o => syn.any fun b => b.getD o 0 != 0).getD 0

/-- VERIFY. -/
def execVerify (d : DescRef) (s : State) : Host.Outcome State Fault Refusal :=
  s.carcStarted d Op.verify fun f =>
    let kk := f.at 28 1
    let p := f.at 29 1
    s.carcJob d f (kk + p) (fun _ => true) (List.range (kk + p)) fun bs =>
      let syn := (List.range p).map (syndrome kk f.len bs)
      ([], verifyInfo kk (findingOf kk syn), firstWrong f.len syn)

/-! ## LOCATE (R211, R233) -/

/-- LOCATE. -/
def execLocate (d : DescRef) (s : State) : Host.Outcome State Fault Refusal :=
  match s.startedAt .carc d Op.locate with
  | none => .next s
  | some f =>
    let pool := f.at 28 1
    let gen := f.at 29 1
    let frame := f.at 32 4
    let st := f.at 36 1
    if 2 ^ 29 ≤ frame ∨ 31 < st then .next (s.finish .carc d St.frameRange)
    else if 15 < pool ∨ !s.on (CARC_POOL.VALID pool) then .next (s.finish .carc d St.poolInvalid)
    else if !genValid (s.genEntry pool gen) then .next (s.finish .carc d St.genInvalid)
    else
      let ln := s.line pool gen frame st
      let lost := ((s.lostCols pool gen frame st).map fun c => 2 ^ c).sum
      let result := (ln.zipIdx.map fun x => x.1 * 2 ^ (4 * x.2)).sum
      .next (s.finish .carc d St.success (lost + genW (s.genEntry pool gen) * 2 ^ 16) result)

/-! ## Intents (R219) -/

/-- POOL, FRAME and SHARD of an intent descriptor checked: the status where one is not valid. -/
def State.intentCheck (s : State) (pool sh frame : Nat) : Option Nat :=
  if 15 < pool ∨ !s.on (CARC_POOL.VALID pool) then some St.poolInvalid
  else if 2 ^ 29 ≤ frame then some St.frameRange
  else if s.rd (PAR_SHARD.STATE sh) ≠ Pst.owned then some St.carcShardNotOwned
  else none

/-- INTENT_ACQUIRE: it completes when the region's bit is durable, and waits where that cannot be had. -/
def execIntentAcquire (d : DescRef) (ms : List Medium) (s : State) : Host.Outcome State Fault Refusal :=
  match s.startedAt .carc d Op.intentAcquire with
  | none => .next s
  | some f =>
    let pool := f.at 28 1
    let sh := f.at 29 1
    let frame := f.at 32 4
    match s.intentCheck pool sh frame with
    | some e => .next (s.finish .carc d e)
    | none =>
      if 2 ^ s.rd CARC_INTENT_CFG.LOG2_ENTRIES ≤ s.carc.opens.length ∧ (Tab.get? s.carc.opens (openKey sh pool (regionOf frame))).isNone then
        .next (s.finish .carc d St.intentFull)
      else .next (s.scripted ms fun s => match s.acquire sh pool frame with
        | (some n, s) => s.finish .carc d St.success n
        | (none, s) => s)

/-- INTENT_RELEASE. -/
def execIntentRelease (d : DescRef) (s : State) : Host.Outcome State Fault Refusal :=
  match s.startedAt .carc d Op.intentRelease with
  | none => .next s
  | some f =>
    match s.intentCheck (f.at 28 1) (f.at 29 1) (f.at 32 4) with
    | some e => .next (s.finish .carc d e)
    | none => match s.giveBack (f.at 29 1) (f.at 28 1) (f.at 32 4) with
      | (true, s) => .next (s.finish .carc d St.success)
      | (false, s) => .next (s.finish .carc d St.intentNotHeld)

/-! ## REBUILD_CTL and GEN_SET (R209, R217) -/

/-- What an ACTION does to a blade; none where its state does not allow it. ACTION 3 takes the blade's rebuild from the
queue or stops it (log entry 34). -/
def State.rebuildAction (s : State) (b action : Nat) : Option State :=
  let st := s.carcSt b
  let busy := s.carc.running.contains b
  let lost := decide (st = Cbs.failed) || decide (st = Cbs.exhausted)
  if action = 0 then (if lost && !busy then some (s.startRebuild b) else none)
  else if action = 1 then (if busy && !s.on (CARC_BLADE.PAUSED b) then some (s.wr (CARC_BLADE.PAUSED b) 1) else none)
  else if action = 2 then (if busy && s.on (CARC_BLADE.PAUSED b) then some (s.wr (CARC_BLADE.PAUSED b) 0) else none)
  else if action = 3 then
    (if busy || s.carc.queued.contains b then some ((s.setCarc { s.carc with
      running := s.carc.running.filter (· != b), queued := s.carc.queued.filter (· != b) }).wr (CARC_BLADE.PAUSED b) 0) else none)
  else if action = 4 then (if st = Cbs.online ∨ st = Cbs.absent then some (s.bladeLost b Cbs.failed) else none)
  else if action = 5 then (if st = Cbs.online then some (s.bladeLost b Cbs.exhausted) else none)
  else none

/-- REBUILD_CTL. -/
def execRebuildCtl (d : DescRef) (s : State) : Host.Outcome State Fault Refusal :=
  match s.startedAt .carc d Op.rebuildCtl with
  | none => .next s
  | some f =>
    let pool := f.at 28 1
    let b := f.at 29 1
    if 15 < pool ∨ 15 < b ∨ !s.on (CARC_POOL.VALID pool) ∨ !(s.rd (CARC_POOL.MEMBERS pool)).testBit b then
      .next (s.finish .carc d St.poolInvalid)
    else match s.rebuildAction b (f.at 30 1) with
      | none => .next (s.finish .carc d St.rebuildState (s.carcSt b))
      | some s => .next (s.finish .carc d St.success (s.carcSt b))

/-- RETIRED blades that no VALID generation names become NONE. -/
def State.forgetRetired (s : State) : State :=
  (List.range 16).foldl (fun s b => if s.carcSt b = Cbs.retired ∧ !s.genNames b then s.wr (CARC_BLADE.STATE b) Cbs.none_ else s) s

/-- Whether a new entry of a pool's generation table is in range. -/
def State.genEntryOk (s : State) (pool : Nat) (e : List Byte) : Bool :=
  let n := (bladesOf (genMembers e)).length
  let p := s.rd (CARC_POOL.P pool)
  genValid e && genP e == p && decide (p + 4 ≤ n) && genW e == min (s.rd (CARC_POOL.W pool)) n &&
    decide (genMembers e &&& s.rd (CARC_POOL.MEMBERS pool) = genMembers e) && fieldAt e 4 1 == 1 && (e.drop 5).all (· == 0)

/-- GEN_SET. -/
def execGenSet (d : DescRef) (s : State) : Host.Outcome State Fault Refusal :=
  match s.startedAt .carc d Op.genSet with
  | none => .next s
  | some f =>
    let pool := f.at 28 1
    let gen := f.at 29 1
    let mk := (f.at 30 1).testBit 0
    let rel := (f.at 30 1).testBit 1
    if f.len ≠ 16 then .next (s.finish .carc d St.lengthMismatch)
    else if 15 < pool ∨ !s.on (CARC_POOL.VALID pool) then .next (s.finish .carc d St.poolInvalid)
    else match s.dmaRead .carc f.src 16 (some d.ring) with
      | .error e => .next (s.finishDma .carc d e)
      | .ok e =>
        if genValid (s.genEntry pool gen) ∧ !rel then .next (s.finish .carc d St.genBusy)
        else if rel ∧ !mk ∧ !genValid e then
          .next (s.tableThen .carc d (s.genAddr pool gen) (zeros 16) fun s => s.forgetRetired.finish .carc d St.success)
        else if !s.genEntryOk pool e then .next (s.finish .carc d St.genInvalid)
        else .next (s.tableThen .carc d (s.genAddr pool gen) e fun s =>
          (if mk then s.forgetRetired.makeCurrent pool gen else s.forgetRetired).finish .carc d St.success)

end Sys2Proof.Machine
end

