-- ==== Sys2Proof/Machine/CarcRows.lean ====
section
/-! DEFINITION. Rebuild, resynchronisation, patrol, timers and lane faults of the Carcase (R217, R219, R222 to R231,
R235). -/
namespace Sys2Proof.Machine
open Sys2Proof

/-! ## Stripes on the medium -/

/-- Every readable column of a stripe. -/
def State.stripeCols (s : State) (w : Wheel) (st : Nat) : List (Nat × List Byte) × State :=
  (List.range (genW (s.genEntry w.pool w.gen))).foldl (fun (a : List (Nat × List Byte) × State) c =>
    match a.2.colRead w st c 0 65536 with
    | (some d, s) => (a.1 ++ [(c, d)], s)
    | (none, s) => (a.1, s)) ([], s)

/-- A located or missing chunk written again: counted and recorded. -/
def State.repaired (s : State) (w : Wheel) (st c : Nat) (patrol : Bool) : State :=
  let s := if patrol then s.bump CARC_PATROL_STATUS.REPAIRED 1 else s
  s.raise Ev.chunkRepaired (some .carc) (some w.pool) [w.pool, w.frame, st, c]

/-- Whether a remap record of a column waits for its confirmation. -/
def State.remapPending (s : State) (sh : Nat) (w : Wheel) (st c : Nat) : Bool :=
  (s.cshard sh).recs.any fun e => e.2.type == Jt.remap && !e.2.confirmed && remapIs e.2.payload w.pool w.frame st &&
    fieldAt e.2.payload 5 1 % 16 == c

/-- Whether a wheel is being refolded. -/
def State.refolding (s : State) (sh wheel : Nat) : Bool :=
  (s.cshard sh).recs.any fun e => e.2.type == Jt.seal && !e.2.confirmed && (match e.2.done with
    | .fold _ _ _ o => o == some wheel
    | _ => false)

/-- A remap entry journaled; the table is written when the record is on every live replica (R212). -/
def State.journalRemap (s : State) (sh : Nat) (w : Wheel) (st c b : Nat) (lost : Bool) : State :=
  (s.journal sh { type := Jt.remap, epoch := 0, payload := remapBytes w.pool w.frame st c b lost }).2

/-- The target for a chunk that cannot stay on its blade (R227). -/
def State.rebuildTarget (s : State) (w : Wheel) (st : Nat) : Option Nat :=
  let e := s.genEntry w.pool (s.rd (CARC_POOL.CUR_GEN w.pool))
  let ln := s.line w.pool w.gen w.frame st
  ((bladesOf (genMembers e)).filter fun b => s.carcSt b == Cbs.online && !ln.contains b).foldl (fun (m : Option Nat) b =>
    match m with
    | none => some b
    | some x => if Tab.getD s.carc.written b 0 < Tab.getD s.carc.written x 0 then some b else some x) none

/-- One missing chunk of a stripe restored: on its own blade where that is ONLINE, else on a target. False where there is no
target. -/
def State.restoreChunk (s : State) (sh wheel st c : Nat) (d : List Byte) : Bool × State :=
  match s.wheel sh wheel with
  | none => (true, s)
  | some w =>
    let b := (s.line w.pool w.gen w.frame st).getD c 0
    if s.carcSt b = Cbs.online then
      (match s.rewriteCols sh wheel st [(c, d)] with
        | (true, s) => (true, s.repaired w st c false)
        | (false, s) => (true, s))
    else if s.remapPending sh w st c ∨ !s.remapRoom w.pool w.frame st c then (true, s)
    else match s.rebuildTarget w st with
      | none => (false, s)
      | some t => match s.writeChunk t sh (foldBand sh w.pool false) (chunkObj w.frame st c) true d with
        | (none, s) => (true, s)
        | (some l, s) =>
          let s := s.journalMove sh (chunkKey w.pool (chunkObj w.frame st c)) (Tab.get? w.locs (st * 16 + c)) l
          let s := (s.setLoc sh wheel st c l).journalRemap sh w st c t false
          (true, s.setCarc { s.carc with written := Tab.set s.carc.written t (Tab.getD s.carc.written t 0 + 1) })

/-- A stripe with more missing columns than P: LOST in a remap entry for each (R231). -/
def State.stripeLost (s : State) (sh : Nat) (w : Wheel) (st : Nat) (cols : List Nat) : State :=
  let ln := s.line w.pool w.gen w.frame st
  let s := cols.foldl (fun s c => s.journalRemap sh w st c (ln.getD c 0) true) s
  (s.countLost sh).raise Ev.stripeLost (some .carc) (some w.pool)
    [w.pool, w.frame, st, (cols.map fun c => 2 ^ c).sum]

/-- A frame refolded because no target is left (R227); not into the generation it already has. -/
def State.rebuildRefold (s : State) (sh wheel : Nat) (w : Wheel) : State :=
  if s.rd (CARC_POOL.CUR_GEN w.pool) = w.gen ∨ s.refolding sh wheel then s else (s.reclaim sh wheel none).2

/-- The missing chunks of a stripe restored, or the stripe LOST. A column that is missing only because its blade is ABSENT
does not make a stripe LOST (log entry 35). -/
def State.rebuildStripe (s : State) (sh wheel st : Nat) (evac : Option Nat) : State :=
  match s.wheel sh wheel with
  | none => s
  | some w =>
    let e := s.genEntry w.pool w.gen
    let k := genK e
    let ln := s.line w.pool w.gen w.frame st
    let (cols, s) := s.stripeCols w st
    let lost := s.lostCols w.pool w.gen w.frame st
    let gone := (List.range ln.length).filter fun c => !(cols.any fun x => x.1 == c) && !lost.contains c
    let hard := gone.filter fun c => s.carcSt (ln.getD c 0) != Cbs.absent
    if genP e < hard.length + lost.length then
      (if hard.all fun c => s.remapPending sh w st c then s else s.stripeLost sh w st hard)
    else if cols.length < k then s
    else
      let data := solveData k cols
      let move := match evac with
        | some b => (List.range ln.length).filter fun c => ln.getD c 0 == b && cols.any fun x => x.1 == c
        | none => []
      let (ok, s) := (hard ++ move).foldl (fun (a : Bool × State) c =>
        let (x, s) := a.2.restoreChunk sh wheel st c (columnOf k 65536 data c)
        (a.1 && x, s)) (true, s)
      if ok then s else s.rebuildRefold sh wheel w

/-! ## Rebuild (R227 to R230) -/

/-- The next stripe of a blade's rebuild: critical ones first, then by shard, frame and stripe. One whose remap buckets are full
waits until space is made (R212). -/
def State.nextStripe (s : State) (b : Nat) : Option (Nat × Nat × Nat × Nat) :=
  let work := (s.rebuildWork b).filter fun x => match s.wheel x.1 x.2.1 with
    | some w => !s.remapPending x.1 w x.2.2.1 x.2.2.2 && !s.refolding x.1 x.2.1 && !s.patching x.1 x.2.1 x.2.2.1 &&
        s.remapRoom w.pool w.frame x.2.2.1 x.2.2.2
    | none => false
  let key := fun (x : Nat × Nat × Nat × Nat) =>
    let f := ((s.wheel x.1 x.2.1).map (·.frame)).getD 0
    (if s.critical x then 0 else 2 ^ 60) + x.1 * 2 ^ 40 + f * 32 + x.2.2.1
  work.foldl (fun (m : Option (Nat × Nat × Nat × Nat)) x => match m with
    | none => some x
    | some y => if key x < key y then some x else some y) none

/-- Progress journaled as a frame cursor every 4,096 stripes. -/
def State.countStripe (s : State) (b sh wheel : Nat) : State :=
  match s.wheel sh wheel with
  | none => s
  | some w =>
    let key := sh * 256 + w.pool * 16 + b
    let n := Tab.getD s.carc.cursors key 0 + 1
    let s := s.setCarc { s.carc with cursors := Tab.set s.carc.cursors key n }
    if n % 4096 = 0 then (s.journal sh { type := Jt.cursor, epoch := 0, arg0 := w.pool + b * 16 + w.frame * 256 }).2 else s

/-- REBUILD_STRIPE: the next stripe of a blade's running rebuild or evacuation. -/
def execRebuildStripe (b : Fin 16) (ms : List Medium) (s : State) : Host.Outcome State Fault Refusal :=
  let b : Nat := b
  if !s.on CARC_CTL.EN ∨ !s.carc.running.contains b ∨ s.on (CARC_BLADE.PAUSED b) then .next s
  else .next (s.scripted ms fun s =>
    let s := match s.nextStripe b with
      | none => s
      | some (sh, w, st, _) =>
        (s.rebuildStripe sh w st (if s.carcSt b = Cbs.exhausted then some b else none)).countStripe b sh w
    (s.countRebuild b).retireDone b)

/-- CARC_CTL.REBUILD_EN ← 1: queued rebuilds and evacuations start. -/
def State.rebuildOn (s : State) : State :=
  let s := s.wr CARC_CTL.REBUILD_EN 1
  s.carc.queued.foldl State.startRebuild s

/-- REBUILD_EN_SET. -/
def execRebuildEnSet (origin : Origin) (s : State) : Host.Outcome State Fault Refusal :=
  .next (s.cfgField .carc origin CARC_CTL.REBUILD_EN 1 fun s => s.rebuildOn)

/-- GRACE_EXPIRY: an ABSENT blade becomes FAILED. -/
def execGraceExpiry (b : Fin 16) (s : State) : Host.Outcome State Fault Refusal :=
  if s.carcSt b = Cbs.absent ∧ s.due (Tab.get? s.carc.grace b) = true then .next (s.bladeLost b Cbs.failed) else .next s

/-! ## Resynchronisation (R222) -/

/-- One stripe resynchronised, from its data chunks, or, where one has to be reconstructed, from its pre-patch set (R221): missing chunks of ONLINE blades written, differing parity rewritten. Whether parity was. -/
def State.resyncStripe (s : State) (sh wheel st : Nat) : Bool × State :=
  match s.wheel sh wheel with
  | none => (false, s)
  | some w =>
    let e := s.genEntry w.pool w.gen
    let k := genK e
    let ln := s.line w.pool w.gen w.frame st
    let pre := (w.pre.filter fun x => x.1 / 16 == st).map (·.2)
    let (from_, s) := s.stripeCols w.prePatch st
    let (cols, s) := s.stripeCols w st
    let whole := (List.range k).all fun j => cols.any (·.1 == j)
    let from_ := if whole then cols else from_
    if from_.length < k then (false, s)
    else
      let data := solveData k from_
      let s := (s.setWheel sh wheel { w with pre := w.pre.filter fun x => x.1 / 16 != st })
      let s := pre.foldl State.killUnit s
      let lost := s.lostCols w.pool w.gen w.frame st
      let miss := (List.range ln.length).filter fun c =>
        !(cols.any fun x => x.1 == c) && !lost.contains c && s.carcSt (ln.getD c 0) == Cbs.online
      let s := miss.foldl (fun s c => (s.restoreChunk sh wheel st c (columnOf k 65536 data c)).2) s
      let bad := (cols.filter fun x => decide (k ≤ x.1) && x.2 != columnOf k 65536 data x.1).map fun x => (x.1, columnOf k 65536 data x.1)
      if bad.isEmpty then (false, s) else (true, (s.rewriteCols sh wheel st bad).2)

/-- Wheels of a shard with a frame in a region. -/
def State.regionWheels (s : State) (sh pool region : Nat) : List Nat :=
  ((s.cshard sh).wheels.filter fun e => e.2.pool == pool && regionOf e.2.frame == region && e.2.sealed).map (·.1)

/-- A region resynchronised: stripes with parity rewritten. -/
def State.resyncRegion (s : State) (sh pool region : Nat) : Nat × State :=
  let (n, s) := (s.regionWheels sh pool region).foldl (fun (a : Nat × State) w => (List.range 32).foldl (fun a st =>
    let (x, s) := a.2.resyncStripe sh w st
    (if x then a.1 + 1 else a.1, s)) a) (0, s)
  (n, s.setCarc { s.carc with
    dirty := s.carc.dirty.filter (· != (sh, pool, region))
    flushAt := some (s.carc.flushAt.getD (s.inMgmt (s.rd CARC_INTENT_CFG.FLUSH))) })

/-- RESYNC_REGION: a dirty region of an OWNED shard. -/
def execResyncRegion (shard : Fin 256) (pool : Fin 16) (region : Nat) (ms : List Medium) (s : State) :
    Host.Outcome State Fault Refusal :=
  if !s.on CARC_CTL.EN ∨ s.rd (PAR_SHARD.STATE shard) ≠ Pst.owned ∨ !s.carc.bits.contains (shard.val, pool.val, region) then .next s
  else .next (s.scripted ms fun s =>
    let was := s.carc.dirty.any (·.1 == shard.val)
    let s := (s.resyncRegion shard pool region).2
    if was ∧ !(s.carc.dirty.any (·.1 == shard.val)) then s.raise Ev.resyncDone (some .carc) (some shard) [shard] else s)

/-- The regions of a range, all from `first` on where `n` is 0xFFFFFFFF, that hold a sealed frame of a shard. -/
def State.rangeRegions (s : State) (sh pool first n : Nat) : List Nat :=
  ((s.cshard sh).wheels.filter fun e => e.2.pool == pool && e.2.sealed).foldl (fun (l : List Nat) e =>
    let r := regionOf e.2.frame
    if l.contains r ∨ r < first ∨ (n ≠ 0xFFFFFFFF ∧ first + n ≤ r) then l else l ++ [r]) []

/-- Regions resynchronised in turn: stripes with parity rewritten. -/
def State.resyncRegions (s : State) (sh pool : Nat) (rs : List Nat) : Nat × State :=
  rs.foldl (fun (a : Nat × State) r =>
    let (x, s) := a.2.resyncRegion sh pool r
    (a.1 + x, s)) (0, s)

/-- RESYNC: the regions of its range that hold a frame of the shard. -/
def execResync (d : DescRef) (ms : List Medium) (s : State) : Host.Outcome State Fault Refusal :=
  match s.startedAt .carc d Op.resync with
  | none => .next s
  | some f =>
    let pool := f.at 28 1
    let sh := f.at 29 1
    match s.intentCheck pool sh 0 with
    | some e => .next (s.finish .carc d e)
    | none =>
      .next (s.scripted ms fun s =>
        let all := s.rangeRegions sh pool (f.at 32 4) (f.at 36 4)
        let (k, s) := s.resyncRegions sh pool all
        (s.raise Ev.resyncDone (some .carc) (some sh) [sh]).finish .carc d St.success all.length k)

/-- The bitmap pages with bits that may be cleared: shard, pool, page. -/
def State.flushPages (s : State) : List (Nat × Nat × Nat) :=
  (s.carc.bits.filter s.mayClear).foldl (fun (l : List (Nat × Nat × Nat)) x =>
    let y := (x.1, x.2.1, x.2.2 / 131072)
    if l.contains y then l else l ++ [y]) []

/-- One bitmap page programmed with its clearable bits cleared; one that cannot be keeps them. -/
def State.flushPage (s : State) (p : Nat × Nat × Nat) : State :=
  let s1 := s.clearBits p.1 p.2.1 p.2.2
  match s1.putIntents p.1 p.2.1 p.2.2 with
  | (true, s) => s
  | (false, s2) => s2.setCarc { s2.carc with bits := s.carc.bits }

/-- INTENT_FLUSH: bitmap pages with bits that may be cleared are programmed. -/
def execIntentFlush (ms : List Medium) (s : State) : Host.Outcome State Fault Refusal :=
  if s.due s.carc.flushAt = false then .next s
  else .next (s.scripted ms fun s =>
    let s := s.setCarc { s.carc with flushAt := none }
    s.flushPages.foldl State.flushPage s)

/-! ## The patrol (R224, R225) -/

/-- Every stripe the head's patrol visits, in order. -/
def State.patrolStripes (s : State) : List (Nat × Nat × Nat) :=
  (s.cell.shards.filter fun x => s.rd (PAR_SHARD.STATE x.1) == Pst.owned && s.cellSt x.1 == Cst.ready).flatMap fun x =>
    (x.2.wheels.filter (·.2.sealed)).flatMap fun w => (List.range 32).map fun st => (x.1, w.1, st)

/-- Curds of a stripe run through the Veneer and the Churn (R225). -/
def State.deepStripe (s : State) (sh wheel st : Nat) : State :=
  match s.wheel sh wheel with
  | none => s
  | some w =>
    let size := genK (s.genEntry w.pool w.gen) * 65536
    (w.curds.filter fun e => decide (st * size ≤ e.1 ∧ e.1 < (st + 1) * size)).foldl (fun s e =>
      match s.copyCurd sh (curdLoc wheel e.1 0) with
      | (none, s) => s
      | (some bs, s) => match s.useDicts (curdDicts s.dicts bs 15) with
        | none => s.headLost
        | some s => match curdRead s.dicts bs 15 with
          | .ok _ => s
          | .error st => if curdBad st then (s.curdEvent (curdLoc wheel e.1 0) st).repairCopy sh (curdLoc wheel e.1 0) else s) s

/-- A stripe whose every column was read: its syndromes judged. -/
def State.judgeStripe (s : State) (sh wheel st : Nat) (w : Wheel) (cols : List (List Byte)) : State :=
  let e := s.genEntry w.pool w.gen
  let k := genK e
  let syn := (List.range (genP e)).map (syndrome k 65536 cols)
  match findingOf k syn with
  | .consistent => s
  | .parity i => match s.rewriteCols sh wheel st [(k + i, parityOf i 65536 (cols.take k))] with
    | (true, s) => s.repaired w st (k + i) true
    | (false, s) => s
  | .data j => match s.rewriteCols sh wheel st [(j, xorBytes (cols.getD j []) (syn.getD 0 []))] with
    | (true, s) => s.repaired w st j true
    | (false, s) => s
  | .unlocated => (s.bump CARC_PATROL_STATUS.UNLOCATED 1).raise Ev.patrolUnlocated (some .carc) (some w.pool) [w.pool, w.frame, st]

/-- One stripe visited. -/
def State.patrolStripe (s : State) (sh wheel st : Nat) : State :=
  match s.wheel sh wheel with
  | none => s
  | some w =>
    let n := genW (s.genEntry w.pool w.gen)
    let (cols, s) := s.stripeCols w st
    let s := if cols.length = n then s.judgeStripe sh wheel st w (cols.map (·.2)) else s.rebuildStripe sh wheel st none
    if s.on CARC_CTL.DEEP then s.deepStripe sh wheel st else s

/-- Whether a patch or rebuild of a stripe is in progress. -/
def State.rebuilding (s : State) (x : Nat × Nat × Nat) : Bool :=
  s.patching x.1 x.2.1 x.2.2 ||
  s.carc.running.any fun b => (s.rebuildWork b).any fun y => y.1 == x.1 && y.2.1 == x.2.1 && y.2.2.1 == x.2.2

/-- A pass of the patrol ends. -/
def State.patrolEnd (s : State) : State :=
  (s.setCarc { s.carc with patrolAt := 0, skipped := [] }).bump CARC_PATROL_STATUS.PASSES 1

/-- PATROL_STRIPE: the next stripe of the pass; skipped ones come again at its end. -/
def execPatrolStripe (ms : List Medium) (s : State) : Host.Outcome State Fault Refusal :=
  if !s.on CARC_CTL.EN ∨ !s.on CARC_CTL.PATROL_EN then .next s
  else
    let all := s.patrolStripes
    match all[s.carc.patrolAt]?, s.carc.skipped with
    | some x, _ =>
      let s := s.setCarc { s.carc with patrolAt := s.carc.patrolAt + 1 }
      let s := if s.rebuilding x then s.setCarc { s.carc with skipped := s.carc.skipped ++ [x] }
        else s.scripted ms fun s => s.patrolStripe x.1 x.2.1 x.2.2
      .next (if s.carc.patrolAt = all.length ∧ s.carc.skipped.isEmpty then s.patrolEnd else s)
    | none, x :: rest =>
      let s := (s.setCarc { s.carc with skipped := rest }).scripted ms fun s => s.patrolStripe x.1 x.2.1 x.2.2
      .next (if rest.isEmpty then s.patrolEnd else s)
    | none, [] => .next (if all.isEmpty then s else s.patrolEnd)

/-! ## Lane faults (R235) -/

def State.carcLaneFault (s : State) (lane : Nat) : State :=
  (s.wrBit CARC_STATUS.LANE_FAULT lane true).raise Ev.carcLaneFault (some .carc) (some lane) [lane]

/-- CARC_LANE_FAULT: a ring descriptor fails; inline work is issued again on another lane. -/
def execCarcLaneFault (lane : Fin 16) (job : LaneJob) (s : State) : Host.Outcome State Fault Refusal :=
  let s := s.carcLaneFault lane
  match job with
  | .desc d =>
    (match s.fetchedAt .carc d with
      | some f => .next (if f.phase = .fetched then s else s.finish .carc d St.unitFault)
      | none => .next s)
  | _ => .next s

end Sys2Proof.Machine
end

