-- ==== Sys2Proof/Machine/Press.lean ====
section
/-! DEFINITION. The Press: ring jobs, the legacy word feed, lane faults (R176 to R200). The digest itself is in
Machine/Digest.lean. -/
namespace Sys2Proof.Machine
open Sys2Proof

/-- Context states of PRESS_CTX_STATUS_c.STATE. -/
def Pst.free : Nat := 0
def Pst.open_ : Nat := 1
def Pst.done : Nat := 2
def Pst.error : Nat := 3

def State.pctxSt (s : State) (c : Nat) : Nat := s.rd (PRESS_CTX_STATUS.STATE c)

/-- PRESS_STATUS.CTX_OPEN kept. -/
def State.countCtx (s : State) : State :=
  s.wr PRESS_STATUS.CTX_OPEN ((List.range 64).filter fun c => s.pctxSt c != Pst.free).length

/-- The result registers of a context set to up to 64 bytes, zeros beyond. -/
def State.setResult (s : State) (c : Nat) (bs : List Byte) : State :=
  (List.range 8).foldl (fun s w => s.wr (PRESS_RESULT.BYTES c w) (fieldAt (bs ++ zeros 64) (8 * w) 8)) s

/-- A context's job replaced or dropped. -/
def State.setPctx (s : State) (c : Nat) (j : Option PressCtx) : State :=
  { s with press := { s.press with ctx := match j with
      | some x => Tab.set s.press.ctx c x
      | none => Tab.del s.press.ctx c } }

/-- A context FREE, everything zeroed (R182). -/
def State.freeCtx (s : State) (c : Nat) : State :=
  let s := ((s.setPctx c none).setResult c []).wr (PRESS_CTX_STATUS.STATE c) Pst.free
  let s := ((s.wr (PRESS_CTX_STATUS.OWNER_RING c) 0).wr (PRESS_CTX_STATUS.ALG c) 0).wr (PRESS_CTX_STATUS.ERR c) 0
  ((s.wr (PRESS_CTX_STATUS.EARLY_READ c) 0).wr (PRESS_CTX_STATUS.FOREIGN_READ c) 0).countCtx

/-- A context in ERROR with its code, its state zeroed (R182). -/
def State.errCtx (s : State) (c err : Nat) : State :=
  (((s.setPctx c none).setResult c []).wr (PRESS_CTX_STATUS.STATE c) Pst.error).wr (PRESS_CTX_STATUS.ERR c) err

/-- INFO of a Press completion: CTX and the state after (R191). -/
def State.pressInfo (s : State) (c : Nat) : Nat := c + s.pctxSt c * 2 ^ 8

/-- Whether an earlier descriptor of the ring that names the same context is still there (R183). -/
def State.pressBehind (s : State) (d : DescRef) (c : Nat) : Bool :=
  ((s.ring .press d.ring).fetched.takeWhile (·.slot ≠ d.slot)).any fun f => pressCtxOf f == c

/-- Step 3 of R186: status of a key handle for an algorithm on a ring, none where it passes. -/
def State.keyCheck (s : State) (a : Nat) (x : Alg) (h : Nat) (privileged : Bool) : Option Nat :=
  if !x.hmac then (if h = 0 then none else some St.handleInvalid)
  else match s.resolve h with
    | none => some St.handleInvalid
    | some (cls, _) => if cls = Cls.general then none
      else if privileged && a == 0x11 then none else some St.keyClass

/-- Steps 1 to 5 of R186: the status of the first that fails. -/
def State.hashCheck (s : State) (d : DescRef) (f : Fetched) : Option Nat :=
  let c := pressCtxOf f
  let first := (f.at 6 1).testBit 0
  let last := (f.at 6 1).testBit 1
  let st := s.pctxSt c
  let a := if first then f.at 29 1 else s.rd (PRESS_CTX_STATUS.ALG c)
  if !first && (f.at 29 1 != 0 || f.at 32 6 != 0 || f.at 48 8 != 0) || (!last && f.at 40 4 != 0) then some St.rsvdNonzero
  else if 63 < c then some St.ctxInvalid
  else if st ≠ Pst.free ∧ s.rd (PRESS_CTX_STATUS.OWNER_RING c) ≠ d.ring then some St.ctxOwned
  else if first ∧ (st = Pst.open_ ∨ st = Pst.error) then some St.ctxBusy
  else if !first ∧ st ≠ Pst.open_ then some St.ctxNotOpen
  else match algOf a with
    | none => some St.algInvalid
    | some x =>
      match (if first then s.keyCheck a x (f.at 48 8) (s.bit PRESS_RING_PRIV.RING d.ring) else none) with
      | some e => some e
      | none =>
        let n := f.at 40 4
        if (f.at 30 1).testBit 0 || (x.hmac && f.dst != 0) then some St.resultDestUnsupported
        else if !last then none
        else if x.out ≠ 0 then (if n = 0 then none else some St.outLenInvalid)
        else if n = 0 ∨ 1048576 < n ∨ (64 < n ∧ f.dst = 0) then some St.outLenInvalid else none

/-- The job a HASH works on: a new one with FIRST, the context's own otherwise. -/
def State.hashJob (s : State) (f : Fetched) : PressCtx :=
  if (f.at 6 1).testBit 0 then
    let x := (algOf (f.at 29 1)).getD ⟨false, 0, 0⟩
    { total := f.at 32 6, keyed := x.hmac, key := ((s.resolve (f.at 48 8)).map (·.2)).getD [], data := [] }
  else (Tab.get? s.press.ctx (pressCtxOf f)).getD ⟨0, false, [], []⟩

/-- A context opened by its first descriptor: owner, algorithm and state bound (R182). -/
def State.openCtx (s : State) (d : DescRef) (f : Fetched) : State :=
  if (f.at 6 1).testBit 0 then
    let c := pressCtxOf f
    let s := ((s.setResult c []).wr (PRESS_CTX_STATUS.STATE c) Pst.open_).wr (PRESS_CTX_STATUS.OWNER_RING c) d.ring
    ((s.wr (PRESS_CTX_STATUS.ALG c) (f.at 29 1)).wr (PRESS_CTX_STATUS.ERR c) 0).countCtx
  else s

/-- The end of a job: the result in its registers, and at DESTINATION where it is unkeyed and asked for (R187 to R189). -/
def State.hashLast (s : State) (d : DescRef) (f : Fetched) (j : PressCtx) : State :=
  let c := pressCtxOf f
  let a := s.rd (PRESS_CTX_STATUS.ALG c)
  let r := digest a j.key j.data (f.at 40 4)
  let wrote := if j.keyed ∨ f.dst = 0 then .ok s else s.dmaWrite .press f.dst r (some d.ring)
  match wrote with
  | .error e => (((s.dmaFailed .press e).errCtx c e.status).finish .press d e.status (c + Pst.error * 2 ^ 8))
  | .ok s =>
    let s := ((s.setPctx c none).setResult c (r.take 64)).wr (PRESS_CTX_STATUS.STATE c) Pst.done
    s.finish .press d St.success (s.pressInfo c) (if j.keyed then 0 else fieldAt r 0 8)

/-- A HASH failure that moves the context to ERROR. -/
def State.hashError (s : State) (d : DescRef) (c st : Nat) : State :=
  (s.errCtx c st).finish .press d st (c + Pst.error * 2 ^ 8)

/-- A lane has served a context (R184). -/
def State.servedCtx (s : State) (c : Nat) : State := { s with press := { s.press with served := c } }

/-- HASH: once a lane takes its context, a part is fetched and absorbed; the last one finishes the job (R179, R182 to R191). The
checks of R186 need no lane. -/
def execHash (d : DescRef) (s : State) : Host.Outcome State Fault Refusal :=
  match s.startedAt .press d Op.hash with
  | none => .next s
  | some f =>
    let c := pressCtxOf f
    if s.pressBehind d c then .next s
    else match s.hashCheck d f with
      | some st => .next (s.finish .press d st (if 63 < c then 0 else s.pressInfo c))
      | none =>
        let j := s.hashJob f
        let n := j.data.length + f.len
        if !takesLane s.pressTurn (.desc d) then .next s else
        let s := (s.openCtx d f).servedCtx c
        if j.total < n then .next (s.hashError d c St.pressOverrun)
        else if (f.at 6 1).testBit 1 ∧ n < j.total then .next (s.hashError d c St.pressUnderrun)
        else match s.dmaRead .press f.src f.len (some d.ring) with
          | .error e => .next ((s.dmaFailed .press e).hashError d c (if e = .poison then St.unitFault else St.dmaFault))
          | .ok bs =>
            let j := { j with data := j.data ++ bs }
            if (f.at 6 1).testBit 1 then .next (s.hashLast d f j)
            else .next ((s.setPctx c (some j)).finish .press d St.success (s.pressInfo c) j.data.length)

/-- Descriptors of a context that are fetched and not started complete with CTX_NOT_OPEN after a close (R192). -/
def State.dropUnstarted (s : State) (r c : Nat) : State :=
  ((s.ring .press r).fetched.filter fun f => f.phase == .fetched && f.opcode == Op.hash && pressCtxOf f == c).foldl
    (fun s f => s.finish .press ⟨r, f.slot⟩ St.ctxNotOpen c) s

/-- CTX_CLOSE: after every started descriptor of the context, the context becomes FREE (R182, R192). -/
def execCtxClose (d : DescRef) (s : State) : Host.Outcome State Fault Refusal :=
  match s.startedAt .press d Op.ctxClose with
  | none => .next s
  | some f =>
    let c := pressCtxOf f
    if ((s.ring .press d.ring).fetched.any fun g => g.slot != d.slot && g.phase != .fetched && pressCtxOf g == c
        && g.opcode == Op.hash) then .next s
    else if 63 < c then .next (s.finish .press d St.ctxInvalid)
    else if s.pctxSt c = Pst.free then .next (s.finish .press d St.ctxNotOpen c)
    else if s.rd (PRESS_CTX_STATUS.OWNER_RING c) ≠ d.ring then .next (s.finish .press d St.ctxOwned c)
    else .next (((s.freeCtx c).finish .press d St.success c).dropUnstarted d.ring c)

/-- What a read of PRESS_RESULT_c_w does and returns: the result where the context is DONE and the origin accepted; 0
otherwise, with the mark (R190). -/
def State.pressResult (s : State) (o c w : Nat) : State × Nat :=
  let early := s.pctxSt c != Pst.done
  let foreign := s.pctxSt c != Pst.free && !s.ringAccepts .press (s.rd (PRESS_CTX_STATUS.OWNER_RING c)) o
  let v := if early || foreign then 0 else s.rd (PRESS_RESULT.BYTES c w)
  let s1 := if early then (s.wr (PRESS_CTX_STATUS.EARLY_READ c) 1).raise Ev.earlyRead (some .press) (some c) [c, o] (some o)
    else s
  (if foreign then (s1.wr (PRESS_CTX_STATUS.FOREIGN_READ c) 1).raise Ev.foreignRead (some .press) (some c) [c, o] (some o) else s1, v)

/-- PRESS_RESULT_READ. -/
def execPressResultRead (origin : Origin) (c : Fin 64) (w : Fin 8) (s : State) : Host.Outcome State Fault Refusal :=
  let x := s.pressResult origin.toNat c w
  .next (x.1.readReturn (some x.2))

/-! ## The legacy word feed (R193 to R197) -/

/-- Words of a legacy message. -/
def Legacy.need (l : Legacy) : Nat := (l.length + 7) / 8

/-- The legacy context replaced, with PRESS_LEG_STATUS kept. -/
def State.setLegacy (s : State) (l : Option Legacy) : State :=
  let s := { s with press := { s.press with legacy := l } }
  match l with
  | none =>
    let s := (((s.wr PRESS_LEG_STATUS.LOCKED 0).wr PRESS_LEG_STATUS.OWNER 0).wr PRESS_LEG_STATUS.DONE 0).wr PRESS_LEG_STATUS.ERR 0
    (s.wr PRESS_LEG_STATUS.BUSY 0).wr PRESS_LEG_STATUS.FIFO_FREE 32
  | some x =>
    let s := ((s.wr PRESS_LEG_STATUS.LOCKED 1).wr PRESS_LEG_STATUS.OWNER x.owner).wr PRESS_LEG_STATUS.DONE (if x.done then 1 else 0)
    let s := (s.wr PRESS_LEG_STATUS.ERR x.err).wr PRESS_LEG_STATUS.FIFO_FREE (32 - x.fifo)
    s.wr PRESS_LEG_STATUS.BUSY (if x.final || decide (32 - x.fifo < 16) then 1 else 0)

/-- The legacy result registers. -/
def State.setLegResult (s : State) (bs : List Byte) : State :=
  (List.range 8).foldl (fun s w => s.wr (PRESS_LEG_RESULT.VALUE w) (fieldAt (bs ++ zeros 64) (8 * w) 8)) s

/-- The lock released, context and results zeroed (R193). -/
def State.legacyRelease (s : State) : State := (s.setLegacy none).setLegResult []

/-- An error of the legacy job: the state zeroed, the lock kept (R196). -/
def State.legacyError (s : State) (l : Legacy) (e : Nat) : State :=
  (s.setLegacy (some { l with err := e, key := none, data := [], words := 0, fifo := 0, final := false, done := false })).setLegResult []

/-- The tick at which the lock is released for want of owner access. -/
def State.legacyIdleAt (s : State) : Nat := s.inMgmt (s.rd PRESS_LEG_CFG.IDLE_LIMIT)

/-- A legacy write of another origin while locked: discarded and recorded (R194). -/
def State.legacyRefused (s : State) (o owner : Nat) : State :=
  let s := ((s.wr PRESS_LEG_REFUSED.ORIGIN o).wr PRESS_LEG_REFUSED.STATUS St.legacyOwned).wr PRESS_LEG_REFUSED.OWNER owner
  (s.bump PRESS_LEG_REFUSED.COUNT 1).raise Ev.legacyRefused (some .press) none [o, owner] (some o)

/-- A legacy write of the owner, which restarts the idle limit; another origin is refused, and nothing happens while the
context is unlocked or the interface absent. -/
def State.legacyWrite (s : State) (o : Nat) (f : Legacy → State) : State :=
  if !s.on PRESS_CTL.LEG_EN then s
  else match s.press.legacy with
    | none => s
    | some l => if l.owner = o then f { l with idleAt := s.legacyIdleAt } else s.legacyRefused o l.owner

/-- LEGACY_START: the lock is taken, or the owner begins its next job (R193, R195). -/
def execLegacyStart (origin : Origin) (alg length : Nat) (s : State) : Host.Outcome State Fault Refusal :=
  let o := origin.toNat
  let start := fun (s : State) =>
    let l : Legacy := { owner := o, alg := alg, length := length, idleAt := s.legacyIdleAt }
    (s.setLegacy (some { l with err := if (algOf alg).isSome then 0 else St.algInvalid })).setLegResult []
  if s.on PRESS_CTL.LEG_EN && s.press.legacy.isNone then .next (start s)
  else .next (s.legacyWrite o fun _ => start s)

/-- LEGACY_RELEASE: the owner or origin 0x0200 releases the lock (R193). -/
def execLegacyRelease (origin : Origin) (s : State) : Host.Outcome State Fault Refusal :=
  if s.on PRESS_CTL.LEG_EN && s.press.legacy.isSome && origin.toNat == 0x200 then .next s.legacyRelease
  else .next (s.legacyWrite origin.toNat fun _ => s.legacyRelease)

/-- LEGACY_KEY: the owner binds the key handle of an HMAC job; the checks of R186 step 3 apply, without domain slots. -/
def execLegacyKey (origin : Origin) (handle : Word) (s : State) : Host.Outcome State Fault Refusal :=
  .next (s.legacyWrite origin.toNat fun l =>
    if l.err ≠ 0 then s.setLegacy (some l)
    else match algOf l.alg with
      | none => s.setLegacy (some l)
      | some x => match s.keyCheck l.alg x handle.toNat false with
        | some e => s.legacyError l e
        | none => s.setLegacy (some { l with key := (s.resolve handle.toNat).map (·.2) }))

/-- Whether a legacy job is keyed. -/
def Legacy.keyed (l : Legacy) : Bool := match algOf l.alg with
  | some x => x.hmac
  | none => false

/-- LEGACY_DATA: one message word; `drained` words have left the FIFO since the last write (R195 to R197). -/
def execLegacyData (origin : Origin) (word : Word) (drained : Nat) (s : State) : Host.Outcome State Fault Refusal :=
  .next (s.legacyWrite origin.toNat fun l =>
    let l := { l with fifo := l.fifo - drained }
    if l.err ≠ 0 then s.setLegacy (some l)
    else if l.need ≤ l.words then s.legacyError l St.pressOverrun
    else if l.keyed ∧ l.key.isNone then s.legacyError l St.keyMissing
    else if 32 ≤ l.fifo then s.legacyError l St.legacyFifoOverflow
    else s.setLegacy (some { l with fifo := l.fifo + 1, words := l.words + 1, data := l.data ++ leBytes 8 word.toNat }))

/-- LEGACY_FINAL: the end of the message, or an underrun (R196). A keyed job without a word and without a key has no state to
finish: KEY_MISSING (DESIGN CHOICE, log entry 122). -/
def execLegacyFinal (origin : Origin) (s : State) : Host.Outcome State Fault Refusal :=
  .next (s.legacyWrite origin.toNat fun l =>
    if l.err ≠ 0 ∨ l.final ∨ l.done then s.setLegacy (some l)
    else if l.words < l.need then s.legacyError l St.pressUnderrun
    else if l.keyed ∧ l.key.isNone then s.legacyError l St.keyMissing
    else s.setLegacy (some { l with final := true }))

/-- Words that lanes have taken from the FIFO by now: every full rate block, where a lane takes the legacy context (R184). -/
def State.legacyTaken (s : State) : Nat :=
  match s.press.legacy with
  | some l => if takesLane s.pressTurn .legacy then l.blocks * rateOf l.alg / 8 else 0
  | none => 0

/-- The FIFO as the lanes have left it when the bus looks at it. -/
def State.legacyDrain (s : State) : State :=
  match s.press.legacy with
  | some l => if s.legacyTaken = 0 then s else (s.setLegacy (some { l with fifo := l.fifo - s.legacyTaken })).servedCtx 64
  | none => s

/-- A write of PRESS_LEG_CTL, PRESS_LEG_KEY or PRESS_LEG_DATA through the bus. One write of PRESS_LEG_CTL is one access, whatever
bits it sets: of a non-owner it is refused once, of the owner it restarts the idle limit also where no bit acts (R193, R194). -/
def State.legacyCtl (s : State) (origin : Origin) (word : Nat) : State :=
  let run := fun (s : State) (b : Bool) (o : Host.Outcome State Fault Refusal) => if b then (match o with
    | .next t => t
    | _ => s) else s
  match s.press.legacy with
  | none => run s (word.testBit 8) (execLegacyStart origin (bitsOf word 0 8) (bitsOf word 32 32) s)
  | some l =>
    if l.owner ≠ origin.toNat then (if origin.toNat = 0x200 ∧ word.testBit 9 then run s true (execLegacyRelease origin s)
      else s.legacyWrite origin.toNat fun _ => s)
    else
      let s := s.legacyWrite origin.toNat fun l => s.setLegacy (some l)
      let s := run s (word.testBit 8) (execLegacyStart origin (bitsOf word 0 8) (bitsOf word 32 32) s)
      let s := run s (word.testBit 10) (execLegacyFinal origin s)
      run s (word.testBit 9) (execLegacyRelease origin s)

/-- LEGACY_HASH_DONE: processing of FINAL ends on a lane and the result becomes valid (R179, R195). A SHAKE job gives 64 bytes. -/
def execLegacyHashDone (s : State) : Host.Outcome State Fault Refusal :=
  match s.press.legacy with
  | none => .next s
  | some l =>
    if !l.final || !takesLane s.pressTurn .legacy then .next s
    else
      let s := s.servedCtx 64
      let r := digest l.alg (l.key.getD []) (l.data.take l.length) 64
      .next ((s.setLegacy (some { l with final := false, done := true, fifo := 0, key := none, data := [] })).setLegResult r)

/-- What a read of PRESS_LEG_RESULT_w does and returns: the result for the owner once DONE; 0 and EARLY_READ before, 0 for any
other origin (R194, R197). -/
def State.legacyResult (s : State) (o w : Nat) : State × Nat :=
  match s.press.legacy with
  | none => (s, 0)
  | some l =>
    if !s.on PRESS_CTL.LEG_EN || l.owner != o then (s, 0)
    else if l.done then (s.setLegacy (some { l with idleAt := s.legacyIdleAt }), s.rd (PRESS_LEG_RESULT.VALUE w))
    else
      let l := { l with idleAt := s.legacyIdleAt, early := true, err := if l.err = 0 then St.earlyRead else l.err }
      ((s.setLegacy (some l)).raise Ev.earlyRead (some .press) none [64, o] (some o), 0)

/-- LEGACY_RESULT_READ. -/
def execLegacyResultRead (origin : Origin) (w : Fin 8) (s : State) : Host.Outcome State Fault Refusal :=
  let x := s.legacyResult origin.toNat w
  .next (x.1.readReturn (some x.2))

/-- What a read of PRESS_LEG_STATUS, whose word is `w`, returns to an origin: ERR reads LEGACY_OWNED for any but the owner while
the context is locked (R194). -/
def State.legacyStatus (s : State) (o w : Nat) : Nat :=
  match s.press.legacy with
  | some l => if l.owner = o then w else w % 2 ^ 32 + St.legacyOwned * 2 ^ 32 + w / 2 ^ 48 * 2 ^ 48
  | none => w

/-- LEGACY_IDLE_EXPIRY: IDLE_LIMIT has passed without an access of the owner; the lock is released (R193). -/
def execLegacyIdleExpiry (s : State) : Host.Outcome State Fault Refusal :=
  match s.press.legacy with
  | none => .next s
  | some l => if s.passed l.idleAt then .next (s.legacyRelease.raise Ev.legacyIdle (some .press) none [l.owner]) else .next s

/-! ## Faults and power (R198, R199) -/

/-- A lane out of service (R198). -/
def State.pressLaneOut (s : State) (lane : Nat) : State :=
  (s.wrBit PRESS_STATUS.LANE_FAULT lane true).raise Ev.pressLaneFault (some .press) (some lane) [lane]

/-- A started HASH fails with UNIT_FAULT and its context enters ERROR. -/
def State.pressJobLost (s : State) (d : DescRef) : State :=
  match s.fetchedAt .press d with
  | none => s
  | some f =>
    if f.phase = .fetched then s
    else if (s.hashCheck d f).isSome then s.finish .press d St.unitFault
    else (s.openCtx d f).hashError d (pressCtxOf f) St.unitFault

/-- PRESS_LANE_FAULT: an uncorrectable error in a lane or a context fails the work it holds (R198). An inline job is reissued
on another lane (R181), so nothing of it changes. -/
def execPressLaneFault (lane : Fin 16) (job : LaneJob) (s : State) : Host.Outcome State Fault Refusal :=
  match job with
  | .idle => .next (s.pressLaneOut lane)
  | .inline _ => .next (s.pressLaneOut lane)
  | .desc d => .next ((s.pressLaneOut lane).pressJobLost d)
  | .legacy => match s.press.legacy with
    | none => .next (s.pressLaneOut lane)
    | some l => .next ((s.pressLaneOut lane).legacyError l St.unitFault)
  | .context c =>
    if c = 64 then (match s.press.legacy with
      | none => .next s
      | some l => .next (s.legacyError l St.unitFault))
    else .next (if s.pctxSt c = Pst.free then s else s.errCtx c St.unitFault)

/-- Whether PRESS_0 may be gated: every numbered context FREE and the legacy context unlocked (R199). -/
def State.pressIdle (s : State) : Bool := s.rd PRESS_STATUS.CTX_OPEN == 0 && s.press.legacy.isNone

/-- Power lost in PRESS_0: every context, lock and result erased (R199). -/
def State.pressLost (s : State) : State := ((List.range 64).foldl (fun s c => s.freeCtx c) s).legacyRelease

/-- PRESS_0 trips: every numbered context that holds work and the legacy context go to ERROR (R450). -/
def State.pressTripped (s : State) : State :=
  let s := (List.range 64).foldl (fun s c => if s.pctxSt c = Pst.free then s else s.errCtx c St.unitFault) s
  match s.press.legacy with
  | none => s
  | some l => s.legacyError l St.unitFault

/-- A ring is disabled: the contexts it owns become FREE (R182). -/
def State.pressRingGone (s : State) (r : Nat) : State :=
  (List.range 64).foldl (fun s c =>
    if s.pctxSt c ≠ Pst.free ∧ s.rd (PRESS_CTX_STATUS.OWNER_RING c) = r then s.freeCtx c else s) s

/-- The inline fingerprint of a block under a domain's key (R180); none where the slot is empty. -/
def State.fingerprint (s : State) (domain : Nat) (block : List Byte) : Option (List Byte) :=
  (s.slot Cls.domain domain).key.map fun k => digest 0x11 k block 0

end Sys2Proof.Machine
end

