-- ==== Sys2Proof/Machine/Supply.lean ====
section
/-! DEFINITION. Clocks, power domains, the supply governor, thermal sensing and the witness marks (R439 to R462). -/
namespace Sys2Proof.Machine
open Sys2Proof

/-! ## Clocks (R439 to R441) -/

/-- A core's divider in force: the largest of DIV, FLOOR and THROTTLE (R440). -/
def State.coreDiv (s : State) (c : Nat) : State :=
  s.wr (CLK_CORE.EFFECTIVE c) (max (s.rd (CLK_CORE.DIV c)) (max (s.rd (CLK_CORE.FLOOR c)) (s.rd (CLK_CORE.THROTTLE c))))

/-- CORE_DIVIDER_WRITE: DIV of a core changes; a value above 2 is refused (KIND 7). -/
def execCoreDividerWrite (origin : Origin) (core : Fin 48) (div : Nat) (s : State) : Host.Outcome State Fault Refusal :=
  let f := CLK_CORE.DIV core
  if !s.originThere origin.toNat || (s.audited false origin.toNat && !s.auditRoom) then .next s
  else if 2 < div then .next (s.refuseValue .clk false origin.toNat 0xFFFF f.reg (f.put (s.readCsr f.reg) div))
  else .next (s.plainField .clk origin f div fun s => (s.wr f div).coreDiv core)

/-- Domain states of PWR_DOM_d.STATE. -/
def Dom.off : Nat := 0
def Dom.ramp : Nat := 1
def Dom.on : Nat := 2
def Dom.safe : Nat := 3
def Dom.tripped : Nat := 4

def State.domSt (s : State) (d : Nat) : Nat := s.rd (PWR_DOM.STATE d)

/-- How many of the 96 domains are in a state. -/
def State.domCount (s : State) (st : Nat) : Nat := ((List.range 96).filter fun d => s.domSt d == st).length

/-- A domain enters a state; GOV_STATUS counts SAFE and TRIPPED. -/
def State.setDom (s : State) (d st : Nat) : State :=
  let s := s.wr (PWR_DOM.STATE d) st
  (s.wr GOV_STATUS.SAFE (s.domCount Dom.safe)).wr GOV_STATUS.TRIPPED (s.domCount Dom.tripped)

/-- A domain goes OFF: PRESS_0 loses every context, lock and result with its power (R199). -/
def State.domOff (s : State) (d : Nat) : State :=
  let s := s.setDom d Dom.off
  if d = 74 then s.pressLost else s

/-- Blade links drop with their domains or with PERST_N, which the board holds low (R493). -/
def State.dropBladeLinks (s : State) : State := (List.range 16).foldl (fun s b => s.cutBladePort b (s.portNo b) true) s

/-- Whether the register at a key of `State.csr` belongs to a unit of the two always-on complexes (R24). -/
def alwaysOn (k : Nat) : Bool :=
  match unitAt (k / 64 / 0x1000000) (k / 64 / 0x400000 % 4) with
  | some .apx | some .clk | some .pwr | some .drw | some .sec | some .aud | some .jig | some .gov | some .wit | some .tal => true
  | _ => false

/-- Every switched domain isolated and turned off (R441, R453, R492). -/
def State.allOff (s : State) : State :=
  let s := (List.range 96).foldl (fun s d => (s.wr (PWR_DOM.STATE d) Dom.off).wr (PWR_DOM.REQ_ON d) 0) s
  let s := ((s.wr GOV_STATUS.SAFE 0).wr GOV_STATUS.TRIPPED 0).pressLost
  { s with sup := { s.sup with rampBy := [], rampWait := [] } }

/-- The head is left stopped until a cold reset (R490): every switched domain is off, what its units and DRAM held is lost with
its power, their links drop, and HB_OUT stays where it stands. The always-on complexes stay (DEDUCED, log entry 148). -/
def State.headStopped (s : State) : State :=
  let s := s.dropBladeLinks
  let k : State := { State.reset with
    now := s.now, csr := Tab.keep s.csr fun k _ => alwaysOn k
    rings := Tab.keep s.rings fun k _ => alwaysOn (k / 4096 * 0x400000 * 64)
    bus := s.bus, pins := { s.pins with perstN := 0 }, tally := s.tally, mgt := { sent := s.mgt.sent, replies := s.mgt.replies }
    drw := s.drw, boot := { s.boot with stopped := true }, aud := s.aud, sec := s.sec, otp := s.otp, sup := s.sup
    jig := s.jig, blades := s.blades, ports := Tab.mapV s.ports fun _ y => { miswired := y.miswired }
    draws := s.draws, pending := s.pending }
  k.allOff

/-- REFCLK_LOSS: the island goes to its oscillator, every domain off, HB_OUT stops, EV_REFCLK_LOST; only a cold reset
brings the head back (R441). A PLL that has not locked loses nothing. -/
def execRefclkLoss (s : State) : Host.Outcome State Fault Refusal :=
  if !s.on CLK_STATUS.PLL_LOCK then .next s
  else
    let s := (((s.wr CLK_STATUS.PLL_LOCK 0).wr CLK_STATUS.REFCLK_OK 0).wr CLK_STATUS.AON_OSC 1).bump CLK_STATUS.LOSSES 1
    let s := (s.wr PWR_RESET_CAUSE.REFCLK_SEEN 1).headStopped
    .next (({ s with pins := { s.pins with refclk := false } } : State).raise Ev.refclkLost (some .gov))

/-! ## Power domains (R442 to R445) -/

/-- Whether every ring of a unit is DISABLED or STOPPED (R58). -/
def State.ringsQuiet (s : State) (u : UnitId) : Bool :=
  (List.range (unitRings u)).all fun r => s.ringSt u r == Rst.disabled || s.ringSt u r == Rst.stopped

/-- Whether bits `[lo + n - 1 : lo]` of an enable field are clear. -/
def State.lanesClear (s : State) (f : Fld) (lo n : Nat) : Bool := bitsOf (s.rd f) lo n == 0

/-- Whether no lane from `lo` on, of `n`, holds work. -/
def lanesFree (turn : List (Nat × LaneUser)) (lo n : Nat) : Bool := turn.all fun x => x.1 < lo || lo + n ≤ x.1

/-- The switch-off condition of a domain; `hart`: the hart of a core domain has stopped (R58, R444, R199,
R371). -/
def State.quiescent (s : State) (d : Nat) (hart : Bool) : Bool :=
  if d < 48 then hart || s.sup.hartsStopped.contains d
  else if d < 54 then (List.range 8).all fun i => s.domSt (8 * (d - 48) + i) == Dom.off
  else if d < 62 then s.ringsQuiet .cool && (List.range 6).all fun i => s.sliceRetired (6 * (d - 54) + i)
  else if d < 66 then s.ringsQuiet .vat && !s.bit VAT_CTL.QUARTER_EN (d - 62)
  else if d = 66 then s.ringsQuiet .railA
  else if d = 67 then s.ringsQuiet .railB
  else if d < 70 then s.ringsQuiet .par
  else if d < 74 then s.ringsQuiet .churn && s.lanesClear CHURN_CTL.LANE_EN (4 * (d - 70)) 4
  else if d = 74 then s.ringsQuiet .press && lanesFree s.pressTurn 0 8 && s.pressIdle
  else if d = 75 then s.ringsQuiet .press && s.lanesClear PRESS_CTL.LANE_EN 8 8
  else if d = 76 then s.ringsQuiet .sep
  else if d < 79 then s.ringsQuiet .ven && s.lanesClear VEN_CTL.LANE_EN (8 * (d - 77)) 8
  else if d < 81 then s.ringsQuiet .carc && s.lanesClear CARC_CTL.LANE_EN (8 * (d - 79)) 8
  else if d < 83 then s.ringsQuiet .cell
  else if d < 87 then s.ringsQuiet .bld && s.lanesClear BLD_CTL.PORT_EN (4 * (d - 83)) 4
  else if d = 87 then s.ringsQuiet .ten && s.ringsQuiet .lease && s.rd TEN_STATUS.STATE == 0
  else if d < 94 then decide (91 ≤ d) && s.on DDR_CFG.CH_MODE
  else if d = 94 then s.ringsQuiet .mtr
  else s.ringsQuiet .mgt && s.sup.mgmtInReset

/-- A list of domains in ascending order with one more. -/
def insertAsc (d : Nat) : List Nat → List Nat
  | [] => [d]
  | x :: t => if d = x then x :: t else if d < x then d :: x :: t else x :: insertAsc d t

/-- DOMAIN_ON_REQUEST: REQ_ON ← 1; an OFF domain waits to ramp (R443). A head that a lost REFCLK or a thermal trip has stopped
ramps none (R490). -/
def execDomainOnRequest (d : Fin 96) (s : State) : Host.Outcome State Fault Refusal :=
  if s.boot.stopped then .next s else
  let s := s.wr (PWR_DOM.REQ_ON d) 1
  if s.domSt d = Dom.off then .next { s with sup := { s.sup with rampWait := insertAsc d s.sup.rampWait } } else .next s

/-- What REQ_ON ← 0 does to a domain: an ON one goes off if R444 is met and refuses otherwise; a TRIPPED one goes off (R443,
R444). -/
def State.requestOff (s : State) (origin : Nat) (d : Nat) (hart : Bool) : State :=
  if s.domSt d = Dom.on then
    if s.quiescent d hart then (s.wr (PWR_DOM.REQ_ON d) 0).domOff d
    else (s.wr (PWR_DOM.REFUSED d) 1).unitErr .pwr origin (errOffset (0xA01000 + d * 8)) 8
  else
    let s := s.wr (PWR_DOM.REQ_ON d) 0
    if s.domSt d = Dom.tripped then s.domOff d
    else if s.domSt d = Dom.off then { s with sup := { s.sup with rampWait := s.sup.rampWait.filter (· ≠ d) } }
    else s

/-- DOMAIN_OFF_REQUEST: a write of REQ_ON ← 0. -/
def execDomainOffRequest (origin : Origin) (d : Fin 96) (hart : Bool) (s : State) : Host.Outcome State Fault Refusal :=
  .next (s.plainField .pwr origin (PWR_DOM.REQ_ON d) 0 fun s => s.requestOff origin.toNat d hart)

/-- DOMAIN_RAMP_ADMIT: with fewer than four domains in RAMP, the lowest that waits starts its soft start with all phases
(R443, R445). -/
def execDomainRampAdmit (s : State) : Host.Outcome State Fault Refusal :=
  match s.sup.rampWait with
  | [] => .next s
  | d :: rest =>
    if 4 ≤ s.domCount Dom.ramp || s.boot.stopped then .next s
    else
      let s := (s.setDom d Dom.ramp).wr (GOV_DOM_STATUS.N d) (pwrPhases d)
      let s := s.wr (GOV_DOM_STATUS.CREF d) (s.rd (GOV_VREF.VREF d))
      .next { s with sup := { s.sup with
        rampWait := rest, rampBy := Tab.set s.sup.rampBy d (s.now + 256000), inBand := Tab.del s.sup.inBand d } }

/-- The work a failed lane of a ring unit held is lost: its descriptor fails with UNIT_FAULT; inline work is issued again
on another lane (R171, R235, R407). -/
def State.laneWorkLost (s : State) (u : UnitId) (job : LaneJob) : State :=
  match job with
  | .desc d => match s.fetchedAt u d with
    | some f => if f.phase = .fetched then s else s.finish u d St.unitFault
    | none => s
  | _ => s

/-- The same of a lane of the Press: a HASH fails and its context enters ERROR (R198). -/
def State.pressWorkLost (s : State) (job : LaneJob) : State :=
  match job with
  | .desc d => s.pressJobLost d
  | .legacy => match s.press.legacy with
    | none => s
    | some l => s.legacyError l St.unitFault
  | _ => s

/-- What a trip costs, by domain (R450); `jobs`: what the domain's lanes hold. -/
def State.tripEffect (s : State) (d : Nat) (jobs : List LaneJob) : State :=
  if 70 ≤ d ∧ d < 74 then
    jobs.foldl (fun s j => s.laneWorkLost .churn j) ((List.range 4).foldl (fun s i => s.churnLaneFault (4 * (d - 70) + i)) s)
  else if d = 74 then
    (jobs.foldl (fun s j => s.pressWorkLost j) ((List.range 8).foldl (fun s i => s.pressLaneOut i) s)).pressTripped
  else if d = 75 then
    jobs.foldl (fun s j => s.pressWorkLost j) ((List.range 8).foldl (fun s i => s.pressLaneOut (8 + i)) s)
  else if d = 77 ∨ d = 78 then
    jobs.foldl (fun s j => s.laneWorkLost .ven j) ((List.range 8).foldl (fun s i => s.venLaneFault (8 * (d - 77) + i)) s)
  else if d = 79 ∨ d = 80 then
    jobs.foldl (fun s j => s.laneWorkLost .carc j) ((List.range 8).foldl (fun s i => s.carcLaneFault (8 * (d - 79) + i)) s)
  else if d = 66 then s.railLost .a 4
  else if d = 67 then s.railLost .b 4
  else s.abdicate 2

/-- A domain trips: isolated, stopped, recorded, with the effect of its kind (R450). -/
def State.trip (s : State) (d : Nat) (jobs : List LaneJob) : State :=
  let s := (s.setDom d Dom.tripped).raise Ev.govTrip (some .gov) (some d)
    [d, s.rd (GOV_DOM_STATUS.VMEAS d), s.rd (GOV_VREF.VREF d)]
  ({ s with sup := { s.sup with rampBy := Tab.del s.sup.rampBy d, breach := Tab.del s.sup.breach d } }).tripEffect d jobs

/-- RAMP_TIMEOUT: a RAMP that has lasted 160 µs trips its domain (R443). -/
def execRampTimeout (d : Fin 96) (s : State) : Host.Outcome State Fault Refusal :=
  if s.domSt d = Dom.ramp ∧ s.due (Tab.get? s.sup.rampBy d) then .next (s.trip d []) else .next s

/-! ## Factory calibration (R461) -/

/-- The little-endian OTP field of `n` bytes at address `a`. -/
def State.otpAt (s : State) (a n : Nat) : Nat := leNat (Memory.readN s.otp a n)

/-- Whether the calibration area's CRC checks. -/
def State.calOk (s : State) : Bool := crc32c (Memory.readN s.otp 0x400 0xBFC) == s.otpAt 0xFFC 4

def State.vNom (s : State) (d : Nat) : Nat := s.otpAt (0x410 + 8 * d) 2
def State.vMax (s : State) (d : Nat) : Nat := s.otpAt (0x412 + 8 * d) 2
def State.dAllow (s : State) (d : Nat) : Nat := s.otpAt (0x414 + 8 * d) 2 * 16
def State.kGb (s : State) (d : Nat) : Nat := s.otpAt (0x416 + 8 * d) 1
def State.markC0 (s : State) (m : Nat) : Int := s.otpAt (0x710 + 4 * m) 2
def State.markKV (s : State) (m : Nat) : Int := toSigned (s.otpAt (0x712 + 4 * m) 1) 8
def State.markKT (s : State) (m : Nat) : Int := toSigned (s.otpAt (0x713 + 4 * m) 1) 8

/-- Codes of `n` guardband steps of 2.5 mV (one code is 1.5 V / 32,768). -/
def stepsCode (n : Nat) : Nat := n * 2500 * 32768 / 1500000

/-- Millivolts as a code of R447. -/
def mvCode (mv : Nat) : Nat := mv * 32768 / 1500

/-- The setpoint target of a domain (R456, R461, R462). -/
def State.vrefTarget (s : State) (d : Nat) : Nat :=
  if !s.calOk then s.vMax d
  else
    let n := s.rd (WIT_DOM.USER_OFS d) + (if s.on WIT_STATUS.PLANNED then s.rd (WIT_DOM.AGE_GB d) else 20)
    min (s.vMax d) (s.vNom d + stepsCode n)

/-- The target written to WIT_DOM_d.VREF; the setpoint steps toward it at the samples that follow (R451). -/
def State.retarget (s : State) (d : Nat) : State :=
  let t := s.vrefTarget d
  (s.wr (WIT_DOM.VREF d) t).wr (GOV_DOM_STATUS.STEPPING d) (if s.rd (GOV_VREF.VREF d) = t then 0 else 1)

/-! ## The law (R446 to R452) -/

/-- A signed 16-bit coefficient saturated to its range (R451). -/
def clampInt (v lo hi : Int) : Int := min (max v lo) hi

/-- V_SAFE: the smaller of V_MAX and VREF + 25 mV (R449). -/
def State.vSafe (s : State) (d : Nat) : Nat := min (s.vMax d) (s.rd (GOV_VREF.VREF d) + mvCode 25)

/-- The setpoint's step at a sample: at most 55 codes toward its target every second sample (R451). -/
def State.stepVref (s : State) (d : Nat) : State :=
  let v := s.rd (GOV_VREF.VREF d)
  let t := s.rd (WIT_DOM.VREF d)
  if v = t then s.wr (GOV_DOM_STATUS.STEPPING d) 0
  else if s.sup.stepOdd.contains d then
    let v' := if v < t then min t (v + 55) else max t (v - 55)
    let s := { s with sup := { s.sup with stepOdd := s.sup.stepOdd.filter (· ≠ d) } }
    (s.wr (GOV_VREF.VREF d) v').wr (GOV_DOM_STATUS.STEPPING d) (if v' = t then 0 else 1)
  else ({ s with sup := { s.sup with stepOdd := d :: s.sup.stepOdd } }).wr (GOV_DOM_STATUS.STEPPING d) 1

/-- PH_MIN and PH_MAX as the law uses them (R448). -/
def State.phMin (s : State) (d : Nat) : Nat := min (max 1 (s.rd (GOV_PH_MIN.VALUE d))) (pwrPhases d)
def State.phMax (s : State) (d : Nat) : Nat := min (max 1 (s.rd (GOV_PH_MAX.VALUE d))) (pwrPhases d)

/-- SAFE: CREF fixed at V_SAFE, all phases, the integrator kept (R449). -/
def State.enterSafe (s : State) (d : Nat) : State :=
  let s := ((s.setDom d Dom.safe).wr (GOV_DOM_STATUS.CREF d) (s.vSafe d)).wr (GOV_DOM_STATUS.N d) (pwrPhases d)
  (s.bump GOV_STATUS.SAFE_ENTRIES 1).raise Ev.govSafe (some .gov) (some d)

/-- The law's part after the plausibility check: phases, integrator, comparator reference (R448). -/
def State.lawStep (s : State) (d : Nat) (vmeas : Int) : State :=
  let vref : Int := toSigned (s.rd (GOV_VREF.VREF d)) 16
  let i : Int := toSigned (s.rd (GOV_DOM_INT.I d)) 40
  let n := s.rd (GOV_DOM_STATUS.N d)
  let hi := clampInt (toSigned (s.rd (GOV_BAND_HI.VALUE d)) 16) 22 2185
  let lo := clampInt (toSigned (s.rd (GOV_BAND_LO.VALUE d)) 16) 22 2185
  let ki := clampInt (toSigned (s.rd (GOV_KI.VALUE d)) 16) 0 32767
  let cLo := clampInt (toSigned (s.rd (GOV_CLAMP_LO.VALUE d)) 16) (-2185) 2185
  let cHi := clampInt (toSigned (s.rd (GOV_CLAMP_HI.VALUE d)) 16) (-2185) 2185
  let e := vref - vmeas
  let add := decide (hi < e) && decide (n < s.phMax d)
  let shed := !add && decide (e < -lo) && decide (s.phMin d < n)
  let n1 := if add then n + 1 else if shed then n - 1 else n
  let i1 := if add || shed then i / 2 else i
  let n2 := min (max n1 (s.phMin d)) (s.phMax d)
  let i2 := min (max (i1 + ki * e) (cLo * 2 ^ 15)) (cHi * 2 ^ 15)
  ((s.wr (GOV_DOM_STATUS.N d) n2).wr (GOV_DOM_INT.I d) (ofSigned i2 40)).wr (GOV_DOM_STATUS.CREF d) (ofSigned (vref + i2 / 2 ^ 15) 16)

/-- The law on a sample of a domain in ON (R448). -/
def State.law (s : State) (d : Nat) (vmeas isense : Int) : State :=
  let n := s.rd (GOV_DOM_STATUS.N d)
  let cref : Int := toSigned (s.rd (GOV_DOM_STATUS.CREF d)) 16
  let vp := cref - ((s.rd (GOV_MODEL_R.VALUE d) : Int) * isense / 2 ^ 15) / (n : Int)
  let lim := clampInt (toSigned (s.rd (GOV_PLAUS_LIM.VALUE d)) 16) 22 4369
  let plausN := min (max 1 (s.rd (GOV_PLAUS_N.VALUE d))) 255
  let bad := decide (lim < vp - vmeas) || decide (lim < vmeas - vp)
  let fails := if bad then s.rd (GOV_DOM_STATUS.FAILS d) + 1 else 0
  let s := s.wr (GOV_DOM_STATUS.FAILS d) (min fails 255)
  if plausN ≤ fails then s.enterSafe d else s.lawStep d vmeas

/-- The centre of a domain's window: VREF in ON, in SAFE the V_SAFE its CREF is fixed at (R449, R450). -/
def State.windowMid (s : State) (d : Nat) : Nat :=
  if s.domSt d = Dom.safe then s.rd (GOV_DOM_STATUS.CREF d) else s.rd (GOV_VREF.VREF d)

/-- Marks the last pass skipped while their domain was OFF are due once it is ON (R455). -/
def State.marksDue (s : State) (d : Nat) : State :=
  { s with sup := { s.sup with
    late := s.sup.late ++ s.sup.skipped.filter fun m => markDomain m == d && !s.sup.late.contains m } }

/-- A sample of a ramping domain: two in the band end the ramp (R443). -/
def State.rampSample (s : State) (d : Nat) (vmeas : Int) : State :=
  let vref : Int := toSigned (s.rd (GOV_VREF.VREF d)) 16
  let hi := clampInt (toSigned (s.rd (GOV_BAND_HI.VALUE d)) 16) 22 2185
  let lo := clampInt (toSigned (s.rd (GOV_BAND_LO.VALUE d)) 16) 22 2185
  if vref - lo ≤ vmeas ∧ vmeas ≤ vref + hi then
    if 1 ≤ Tab.getD s.sup.inBand d 0 then
      let s := { s with sup := { s.sup with rampBy := Tab.del s.sup.rampBy d, inBand := Tab.del s.sup.inBand d } }
      (((s.setDom d Dom.on).wr (GOV_DOM_INT.I d) 0).wr (GOV_DOM_STATUS.FAILS d) 0).marksDue d
    else { s with sup := { s.sup with inBand := Tab.set s.sup.inBand d 1 } }
  else { s with sup := { s.sup with inBand := Tab.del s.sup.inBand d } }

/-- GOVERNOR_SAMPLE: the sample slot of a domain with its VMEAS and ISENSE, and what the lanes of its
unit hold (R446, R448, R450). -/
def execGovernorSample (d : Fin 96) (vmeas isense : BitVec 16) (jobs : List LaneJob) (s : State) : Host.Outcome State Fault Refusal :=
  let v : Int := toSigned vmeas.toNat 16
  let s := ((s.wr (GOV_DOM_STATUS.VMEAS d) vmeas.toNat).wr (GOV_DOM_STATUS.ISENSE d) isense.toNat).stepVref d
  if s.domSt d = Dom.ramp then .next (s.rampSample d v)
  else if s.domSt d = Dom.on ∨ s.domSt d = Dom.safe then
    let mid : Int := s.windowMid d
    let out := decide (v < mid - mvCode 60) || decide (mid + mvCode 60 < v)
    if out && decide (1 ≤ Tab.getD s.sup.breach d 0) then .next (s.trip d jobs)
    else
      let s := { s with sup := { s.sup with breach := if out then Tab.set s.sup.breach d 1 else Tab.del s.sup.breach d } }
      if s.domSt d = Dom.on ∧ s.on GOV_CTL.EN then .next (s.law d v (toSigned isense.toNat 16)) else .next s
  else .next s

/-- GOV_RESUME: a SAFE domain returns to ON with FAILS and I at 0 and N at PH_MAX; elsewhere nothing happens (R449). -/
def execGovResume (d : Fin 96) (s : State) : Host.Outcome State Fault Refusal :=
  if s.domSt d = Dom.safe then
    let s := (s.setDom d Dom.on).wr (GOV_DOM_STATUS.FAILS d) 0
    .next ((s.wr (GOV_DOM_INT.I d) 0).wr (GOV_DOM_STATUS.N d) (s.phMax d))
  else .next s

/-! ## Thermal sensing (R453) -/

/-- The sensors of core cluster `c`: those whose OTP record names domain group `c` (R461; log entry 16). -/
def State.clusterSensors (s : State) (c : Nat) (temps : List Int) : List Int :=
  ((List.range 64).filter fun i => s.otpAt (0xD10 + 2 * i) 2 / 2 ^ 12 == c).filterMap fun i => temps[i]?

/-- The hottest of some readings. -/
def hottest : List Int → Option Int
  | [] => none
  | t :: ts => some (ts.foldl max t)

/-- A cluster's throttle after a reading: /6 at STEP2, /4 at STEP1, kept until the sensors fall below RELEASE (R453). -/
def State.throttleFor (s : State) (cur : Nat) (t : Int) : Nat :=
  if (s.rd WIT_THERM.STEP2 : Int) ≤ t then 2
  else if (s.rd WIT_THERM.STEP1 : Int) ≤ t then max cur 1
  else if t < (s.rd WIT_THERM.RELEASE : Int) then 0 else cur

/-- One cluster throttled by its hottest sensor; a change records EV_THERM_THROTTLE. -/
def State.throttleCluster (s : State) (temps : List Int) (c : Nat) : State :=
  match hottest (s.clusterSensors c temps) with
  | none => s
  | some t =>
    let cur := s.rd (CLK_CORE.THROTTLE (8 * c))
    let new := s.throttleFor cur t
    if new = cur then s
    else ((List.range 8).foldl (fun s i => (s.wr (CLK_CORE.THROTTLE (8 * c + i)) new).coreDiv (8 * c + i)) s).raise
      Ev.thermThrottle (some .wit) (some c) [c, new]

/-- THERMAL_READ: the sensors are read; clusters are throttled, and a reading of 115 °C trips the head (R453). -/
def execThermalRead (temps : List Int) (s : State) : Host.Outcome State Fault Refusal :=
  let s := { s with sup := { s.sup with sensors := temps } }
  let s := match hottest temps with
    | some t => s.wr WIT_STATUS.TJ_MAX (ofSigned t 8)
    | none => s
  let s := (List.range 6).foldl (fun s c => s.throttleCluster temps c) s
  if temps.any (fun t => decide (115 ≤ t)) && s.pins.thermTripN then
    let s := { s with pins := { s.pins with thermTripN := false } }.raise Ev.thermTrip (some .wit)
    let s := s.wr PWR_RESET_CAUSE.TRIP_SEEN 1
    let s := s.abdicate 5
    .next (({ s with sup := { s.sup with tripOff := some (s.now + 1600000) } } : State).wired 2)
  else .next s

/-- THERMAL_TRIP_POWEROFF: 1 ms after a trip every switched domain is turned off; the head stays stopped (R453, R490). -/
def execThermalTripPoweroff (s : State) : Host.Outcome State Fault Refusal :=
  if s.due s.sup.tripOff then
    let s := s.headStopped
    .next { s with sup := { s.sup with tripOff := none } }
  else .next s

/-! ## Witness marks (R454 to R460) -/

/-- A measurement pass begins at mark 0. -/
def State.startPass (s : State) : State :=
  if !s.on WIT_CTL.EN || s.on WIT_STATUS.BUSY then s
  else
    let s := s.wr WIT_STATUS.BUSY 1
    { s with sup := { s.sup with nextMark := some 0, skipped := [] } }

/-- WITNESS_PASS_START: PERIOD has passed. -/
def execWitnessPassStart (s : State) : Host.Outcome State Fault Refusal :=
  if s.due s.sup.passAt then
    let s := { s with sup := { s.sup with passAt := some (s.inMgmt (s.rd WIT_CTL.PERIOD)) } }
    .next s.startPass
  else .next s

/-- MEASURE_NOW: a write of WIT_CTL.MEASURE_NOW starts a pass; the register is configuration class (R16, R43). -/
def execMeasureNow (s : State) (origin : Origin := 0x200) : Host.Outcome State Fault Refusal :=
  .next (s.cfgField .wit origin WIT_CTL.MEASURE_NOW 1 fun s => s.startPass)

/-- The degradation of a mark in whole ppm from its count, the domain's voltage and its hottest sensor; E is taken exactly, in
units of 1/32,768 count. None where R455 gives no value: E is 0, or the mark monitors the always-on island, whose voltage no
sample gives (log entry 149). -/
def State.markDegr (s : State) (m count : Nat) (temp : Int) : Option Nat :=
  let d := markDomain m
  let v : Int := toSigned (s.rd (GOV_DOM_STATUS.VMEAS d)) 16
  let e : Int := (s.markC0 m + s.markKT m * (temp - 85)) * 32768 + s.markKV m * (v - s.vNom d) * 1500
  if 368 ≤ m ∨ e = 0 then none
  else some (min (2 ^ 20 - 1) (max 0 (((e - (count : Int) * 32768) * 1000000).fdiv e)).toNat)

/-- Whether a mark is skipped: its domain is OFF, or it belongs to a retired core or slice (R455). -/
def State.markSkipped (s : State) (m : Nat) : Bool :=
  (decide (m < 368) && s.domSt (markDomain m) == Dom.off) || (decide (m < 192) && s.on (CLK_CORE.RETIRED (m / 4)))
    || (decide (192 ≤ m) && decide (m < 288) && s.sliceRetired ((m - 192) / 2))

/-- One mark's measurement recorded. -/
def State.measure (s : State) (m count : Nat) (temp : Int) : State :=
  if s.markSkipped m then
    { s with sup := { s.sup with skipped := if s.sup.skipped.contains m then s.sup.skipped else m :: s.sup.skipped } }
  else
    let s := ({ s with sup := { s.sup with late := s.sup.late.filter (· != m) } } : State).wr (WIT_MARK.COUNT m) count
    let s := match s.markDegr m count temp with
      | some g => s.wr (WIT_MARK.DEGR m) g
      | none => s.draw.wr (WIT_MARK.DEGR m) (s.freeWord % 2 ^ 20)
    s.wr (WIT_MARK.EXCLUDED m) 0

/-- The marks of a domain. -/
def marksOf (d : Nat) : List Nat := (List.range 384).filter fun m => markDomain m == d

/-- Insertion sort, for medians. -/
def insertSorted (x : Nat) : List Nat → List Nat
  | [] => [x]
  | y :: t => if x ≤ y then x :: y :: t else y :: insertSorted x t

/-- The median of some values: the mean of the two middle ones where their number is even. -/
def median (l : List Nat) : Nat :=
  let s := l.foldr insertSorted []
  let n := s.length
  if n % 2 = 1 then s.getD (n / 2) 0 else (s.getD (n / 2 - 1) 0 + s.getD (n / 2) 0) / 2

/-- The outliers of a domain excluded: a count of 0, or more than 20,000 ppm from the median (R455). -/
def State.excludeOutliers (s : State) (d : Nat) : State :=
  let ms := (marksOf d).filter fun m => !s.sup.skipped.contains m
  let med := median (ms.map fun m => s.rd (WIT_MARK.DEGR m))
  ms.foldl (fun s m =>
    let g := s.rd (WIT_MARK.DEGR m)
    if s.rd (WIT_MARK.COUNT m) = 0 ∨ med + 20000 < g ∨ g + 20000 < med then
      (s.wr (WIT_MARK.EXCLUDED m) 1).raise Ev.witOutlier (some .wit) (some m)
    else s) s

/-- The included marks of a domain in this pass. -/
def State.included (s : State) (d : Nat) : List Nat :=
  (marksOf d).filter fun m => !s.sup.skipped.contains m && !s.on (WIT_MARK.EXCLUDED m)

/-- The largest degradation among some marks. -/
def State.maxDegr (s : State) (ms : List Nat) : Nat := ms.foldl (fun a m => max a (s.rd (WIT_MARK.DEGR m))) 0

/-- Guardband steps needed for a degradation with a slack (R456). -/
def State.need (s : State) (d degr slack : Nat) : Nat :=
  ((degr - s.dAllow d - slack) * s.kGb d + 39999) / 40000

/-- Whole steps between the factory setpoint and V_MAX that the user offset leaves; fewer than none where it passes V_MAX
(R456). -/
def State.avail (s : State) (d : Nat) : Int :=
  ((s.vMax d : Int) - s.vNom d) * 600 / 32768 - s.rd (WIT_DOM.USER_OFS d)

/-- Slack of a divider in ppm (R456). -/
def divSlack : Nat → Nat
  | 0 => 0
  | 1 => 333333
  | _ => 1000000

/-- The first divider from the present floor on whose need fits (R456). -/
def State.fitDiv (s : State) (d degr floor : Nat) (avail : Int) : Option Nat :=
  (List.range 3).find? fun v => decide (floor ≤ v) && decide ((s.need d degr (divSlack v) : Int) ≤ avail)

/-- A retirement request (R458): 48 cores or 48 slices. -/
def State.requestCore (s : State) (c : Nat) : State :=
  if s.bit WIT_RETIRE_CORE.REQ c then s else (s.wrBit WIT_RETIRE_CORE.REQ c true).raise Ev.retireReq (some .wit) (some c) [0, c]
def State.requestSlice (s : State) (i : Nat) : State :=
  if s.bit WIT_RETIRE_SLICE.REQ i then s else (s.wrBit WIT_RETIRE_SLICE.REQ i true).raise Ev.retireReq (some .wit) (some i) [1, i]

/-- A core's FLOOR raised, never lowered (R457). -/
def State.raiseFloor (s : State) (c v : Nat) : State :=
  (s.wr (CLK_CORE.FLOOR c) (max (s.rd (CLK_CORE.FLOOR c)) v)).coreDiv c

/-- The cores whose FLOOR the plan of a domain sets: a core's own, a cluster's eight (R456; log entry 149). -/
def floorCores (d : Nat) : List Nat :=
  if d < 48 then [d] else if d < 54 then (List.range 8).map (8 * (d - 48) + ·) else []

/-- The need of one domain, with the floors and requests the plan makes for it (R456). -/
def State.planNeed (s : State) (d : Nat) : Nat × State :=
  let degr := s.maxDegr (s.included d)
  let av := s.avail d
  if d < 48 then
    match s.fitDiv d degr (s.rd (CLK_CORE.FLOOR d)) av with
    | some v => (s.need d degr (divSlack v), s.raiseFloor d v)
    | none => (av.toNat, (s.requestCore d).raiseFloor d 2)
  else if 54 ≤ d ∧ d < 62 then
    let slices := ((List.range 6).map (6 * (d - 54) + ·)).filter fun i => !s.sliceRetired i
    let own := fun i => s.need d (s.maxDegr ((s.included d).filter fun m => (m - 192) / 2 == i)) 0
    let s1 := slices.foldl (fun s i => if av < own i then s.requestSlice i else s) s
    ((slices.filter fun i => own i ≤ av).foldl (fun a i => max a (own i)) 0, s1)
  else
    let n := s.need d degr 0
    if av < n then
      (av.toNat, (floorCores d).foldl (fun s c => s.raiseFloor c ((s.fitDiv d degr 0 av).getD 2))
        (s.raise Ev.marginExhausted (some .wit) (some d) [d]))
    else (n, s)

/-- One domain of the plan: AGE_GB never falls, the target follows, a change records EV_WIT_PLAN (R456, R457). A domain none of
whose marks was measured needs nothing more; with an invalid calibration the margins of R461 stand. -/
def State.planDomain (s : State) (d : Nat) : State :=
  let s := s.excludeOutliers d
  if !s.calOk then s
  else
    let measured := (marksOf d).any fun m => !s.sup.skipped.contains m
    let old := s.rd (WIT_DOM.AGE_GB d)
    let tgt := s.rd (WIT_DOM.VREF d)
    let floors := fun (s : State) => (floorCores d).map fun c => s.rd (CLK_CORE.FLOOR c)
    let was := floors s
    let (n, s) := if measured && (s.included d).isEmpty then (old + 1, s)
      else (if measured then s.wr (WIT_DOM.DMAX d) (s.maxDegr (s.included d)) else s).planNeed d
    let age := min 255 (max old n)
    let s := (s.wr (WIT_DOM.AGE_GB d) age).retarget d
    if age ≠ old ∨ s.rd (WIT_DOM.VREF d) ≠ tgt ∨ floors s ≠ was then s.raise Ev.witPlan (some .wit) (some d) [d] else s

/-- Core equivalents lost, in quarters (R459). -/
def State.coreEq (s : State) : Nat :=
  ((List.range 48).map fun c => if s.on (CLK_CORE.RETIRED c) then 4 else
    if s.rd (CLK_CORE.FLOOR c) = 2 then 2 else s.rd (CLK_CORE.FLOOR c)).sum

/-- CORE_EQ brought up to date; above 2 cores, EV_MARGIN_EXHAUSTED (R459; the seventh retired slice: `retireSlice`). -/
def State.countCoreEq (s : State) : State :=
  let q := s.coreEq
  let was := s.rd WIT_STATUS.CORE_EQ
  let s := s.wr WIT_STATUS.CORE_EQ q
  if 8 < q ∧ was ≤ 8 then s.raise Ev.marginExhausted (some .wit) else s

/-- The plan as group 0x0021 keeps it, in format version 1; its bytes are free (R461; log entry 15). -/
def State.savePlan (s : State) : State :=
  let s := s.draw.keepGroup 0x21 1 ((Config.planData s.draws).take 65536)
  { s with sup := { s.sup with plan := some {
      ageGb := (List.range 96).map fun d => (d, s.rd (WIT_DOM.AGE_GB d))
      floors := (List.range 48).map fun c => (c, s.rd (CLK_CORE.FLOOR c))
      cores := s.rd WIT_RETIRE_CORE.REQ, slices := s.rd WIT_RETIRE_SLICE.REQ } } }

/-- The first plan replaces the boot margin: the floors begin at /3 again (R462). -/
def State.leaveBootMargin (s : State) : State :=
  if s.on WIT_STATUS.PLANNED || !s.calOk then s
  else ((List.range 48).foldl (fun s c => (s.wr (CLK_CORE.FLOOR c) 0).coreDiv c) s).wr WIT_STATUS.PLANNED 1

/-- The end of a pass: outliers, plan, targets, the summary. LIFE_MONTHS and TJ_AVG come from a fit over a history whose
method R460 leaves open: free values. -/
def State.replan (s : State) : State :=
  let s := ((s.wr WIT_STATUS.BUSY 0).bump WIT_STATUS.PASSES 1).leaveBootMargin
  let s := ((List.range 96).foldl (fun s d => s.planDomain d) s).excludeOutliers 96
  let s := if s.calOk then s.countCoreEq.savePlan else s
  let s := (s.wr WIT_STATUS.LIFE_MONTHS s.freeWord).draw
  (s.wr WIT_STATUS.TJ_AVG s.freeWord).draw

/-- MARK_MEASUREMENT_DONE: the eight marks of the running group finish their count; the last group ends the pass. Without a
pass, up to eight marks that are due since their domain reached ON. Each mark brings its count and the hottest sensor of its
domain (R455). -/
def execMarkMeasurementDone (marks : List (Nat × Int)) (s : State) : Host.Outcome State Fault Refusal :=
  match s.sup.nextMark with
  | none =>
    let due := s.sup.late.take 8
    let s : State := { s with sup := { s.sup with late := s.sup.late.drop 8 } }
    .next (due.zipIdx.foldl (fun s x => let c := marks.getD x.2 (0, 0); s.measure x.1 c.1 c.2) s)
  | some m =>
    let s := (List.range 8).foldl (fun s i => let c := marks.getD i (0, 0); s.measure (m + i) c.1 c.2) s
    if m + 8 < 384 then .next { s with sup := { s.sup with nextMark := some (m + 8) } }
    else
      let s := { s with sup := { s.sup with nextMark := none } }
      .next s.replan

/-- CORE_RETIREMENT: the hart of a core whose retirement is requested stops; its domain goes off and it is marked retired
(R458). -/
def execCoreRetirement (core : Fin 48) (s : State) : Host.Outcome State Fault Refusal :=
  if !s.bit WIT_RETIRE_CORE.REQ core then .next s
  else
    let s := { s with sup := { s.sup with hartsStopped := insertAsc core s.sup.hartsStopped } }
    let s := ((s.wr (PWR_DOM.REQ_ON core) 0).setDom core Dom.off).wr (CLK_CORE.RETIRED core) 1
    .next s.countCoreEq.savePlan

end Sys2Proof.Machine
end

