-- ==== Sys2Proof/Machine/Jig.lean ====
section
/-! DEFINITION. The Jig: slots, sessions, blocks, commit, activation, the datagrams of the management port (R419 to R438). -/
namespace Sys2Proof.Machine
open Sys2Proof

/-! ## Slots and images (R419 to R422) -/

/-- Length of an image block. -/
def jigBlockSize : Nat := 65536

/-- The origin of the management-port protocol (R423). -/
def jigPortOrigin : Nat := 0x05FF

/-- The slot of an image type. -/
def State.slotOf (s : State) (t : Nat) : JigSlot := Tab.getD s.jig.slots t {}

/-- Whether IMAGE_LEN suits a type (R420). -/
def imageLenOk (t len : Nat) : Bool :=
  if t = 1 then decide (4096 ≤ len) && decide (len ≤ 4096 + 393216)
  else if t = 2 then decide (8192 ≤ len) && decide (len ≤ 14680064)
  else decide (8192 ≤ len) && decide (len ≤ 25165824)

/-- Blocks of an image. -/
def imageBlocks (len : Nat) : Nat := (len + jigBlockSize - 1) / jigBlockSize

/-- LENGTH of block `i` (R425). -/
def blockLen (len i : Nat) : Nat := min jigBlockSize (len - i * jigBlockSize)

/-- The first `len` bytes of a slot as they read back; what was never programmed reads 0xFF. -/
def JigSlot.image (x : JigSlot) (len : Nat) : List Byte :=
  ((List.range (imageBlocks len)).flatMap fun i =>
    let b := Tab.getD x.blocks i []
    b ++ List.replicate (jigBlockSize - b.length) 0xFF).take len

/-- JIG_STATUS as the Jig stands: an activation is shown before a session (DESIGN CHOICE, log entry 36). -/
def State.jigShow (s : State) : State :=
  let j := s.jig
  let st := if j.recovery then 4 else if !j.acts.isEmpty then 3 else if j.session.isSome then 1 else 0
  let ty := match j.acts with
    | a :: _ => a.1
    | [] => (j.session.map (·.type)).getD 0
  (((s.wr JIG_STATUS.STATE st).wr JIG_STATUS.TYPE ty).wr JIG_STATUS.BLOCKS ((j.session.map (·.got.length)).getD 0)).wr
    JIG_STATUS.OWNER ((j.session.map (·.owner)).getD 0)

def State.setJig (s : State) (j : Jig) : State := ({ s with jig := j } : State).jigShow

/-- JIG_SLOT_t and JIG_SLOTVER_t show the directory entry. -/
def State.slotShow (s : State) (t : Nat) : State :=
  let x := s.slotOf t
  (((s.wr (JIG_SLOT.STATE (t - 1)) x.st).wr (JIG_SLOT.ROLLBACK (t - 1)) x.rollback).wr (JIG_SLOT.IMAGE_LEN (t - 1)) x.len).wr
    (JIG_SLOTVER.VALUE (t - 1)) x.version

def State.setSlot' (s : State) (t : Nat) (x : JigSlot) : State :=
  ({ s with jig := { s.jig with slots := Tab.set s.jig.slots t x } } : State).slotShow t

/-- The OTP counter of a type: the fuses blown (R383). -/
def State.rollbackOf (s : State) (t : Nat) : Nat :=
  ((Memory.readN s.otp (0x270 + 32 * (t - 1)) 32).map fun b => popCount b.toNat 8).sum

/-- The counter raised to `n`: its lowest `n` fuses are blown (R432). -/
def State.raiseRollback (s : State) (t n : Nat) : State :=
  let a := 0x270 + 32 * (t - 1)
  let old := leNat (Memory.readN s.otp a 32)
  let s : State := { s with otp := Memory.writeN s.otp a (leBytes 32 (old ||| (2 ^ n - 1))) }
  if t = 1 then s.wr SEC_STATUS.ROLLBACK_ISL (s.rollbackOf 1) else s

/-- Fields of an image's header (R421). -/
def imgRollback (img : List Byte) : Nat := fieldAt img 12 4
def imgVersion (img : List Byte) : Nat := fieldAt img 16 8

/-- The SETTINGS entries in use: group and format version. -/
def imgSettings (img : List Byte) : List (Nat × Nat) :=
  ((List.range 32).map fun i => (fieldAt img (160 + 4 * i) 2, fieldAt img (162 + 4 * i) 2)).filter (· != (0, 0))

/-- Whether a settings group belongs to an image type (R433). -/
def groupOfType (t g : Nat) : Bool :=
  if t = 1 then decide (g < 0x1000) else if t = 2 then decide (0x1000 ≤ g) && decide (g < 0x8000) else decide (0x8000 ≤ g)

/-- Whether the reserved fields of a header are 0. -/
def imgReservedOk (t : Nat) (img : List Byte) : Bool :=
  slice img 6 2 == zeros 2 && slice img 145 7 == zeros 7 && slice img 153 7 == zeros 7 && slice img 296 3672 == zeros 3672
    && slice img 4082 14 == zeros 14 && (t == 1 || slice img 288 8 == zeros 8)

/-- Steps 2 to 7 of a commit on an image read back from NOR: the status of the first check that fails (R429). -/
def State.checkImage (s : State) (t len : Nat) (img : List Byte) : Nat :=
  let key := slice img 88 57
  let k := fieldAt img 152 1
  if img.take 4 ≠ ascii "JIG1" ∨ fieldAt img 4 1 ≠ t ∨ fieldAt img 5 1 ≠ 1 ∨ !imgReservedOk t img ∨ 256 < imgRollback img
      ∨ (imgSettings img).any (fun e => !groupOfType t e.1) then St.headerInvalid
  else if fieldAt img 8 4 ≠ len then St.imageLength
  else if 3 < k ∨ (Memory.read s.otp 0x150).toNat.testBit k ∨ shake256 key 64 ≠ Memory.readN s.otp (0x50 + 64 * k) 64 then
    St.keyRevoked
  else if !edVerify key (img.take 3968) (slice img 3968 114) then St.signatureInvalid
  else if shake256 (img.drop 4096) 64 ≠ slice img 24 64 then St.digestMismatch
  else if imgRollback img < s.rollbackOf t then St.rollbackRefused
  else St.success

/-- The slot with the directory entry of a committed image: VALID (R422). -/
def JigSlot.committed (x : JigSlot) (img : List Byte) : JigSlot :=
  { x with st := 2, rollback := imgRollback img, version := imgVersion img, meas := shake256 img 64 }

/-! ## The audit entries (R430) -/

/-- The payload of an IMAGE entry. -/
def imagePayload (type event status len version rollback : Nat) (meas : List Byte) : List Byte :=
  leBytes 1 type ++ leBytes 1 event ++ leBytes 2 status ++ leBytes 4 len ++ leBytes 8 version ++ leBytes 4 rollback
    ++ meas ++ zeros (64 - meas.length)

/-- An IMAGE entry is staged; the recovery jig keeps it for the next boot. -/
def State.auditImage (s : State) (origin : Nat) (payload : List Byte) : State :=
  if s.jig.recovery then { s with jig := { s.jig with kept := s.jig.kept ++ [payload] } }
  else s.stage 5 origin 0xFFFF (unitN .jig) 0 0 0 payload

/-! ## Sessions (R423 to R425) -/

/-- The status of the last BEGIN, BLOCK, COMMIT or ACTIVATE. -/
def State.jigLast (s : State) (status : Nat) : State := s.wr JIG_STATUS.LAST_STATUS status

/-- BEGIN: status, RESULT and the state (R423, R424). The recovery jig accepts type 1 only (R435). -/
def State.jigBegin (s : State) (owner t len : Nat) : Nat × Nat × State :=
  let refuse := fun st r =>
    (st, r, (s.jigLast st).auditImage owner (imagePayload t 1 st len 0 0 []))
  match s.jig.session with
  | some x => refuse St.jigBusy x.owner
  | none =>
    if t = 0 ∨ 3 < t ∨ (s.jig.recovery ∧ t ≠ 1) then refuse St.typeInvalid 0
    else if !imageLenOk t len then refuse St.imageTooLong 0
    else if s.jig.acts.any (fun a => a.1 == t) then refuse St.activateBusy 0
    else
      let id := s.freeWord % 2 ^ 32
      let s := s.drbg
      let s := s.setSlot' t { len := len, st := 1, blocks := (s.slotOf t).blocks }
      let s := s.wr (JIG_SLOT.ACTIVE (t - 1)) 0
      let s := s.setJig { s.jig with parts := none, session := some {
        id := id, type := t, len := len, owner := owner, idleBy := s.inMgmt (s.rd JIG_CFG.IDLE) } }
      (St.success, id, (s.jigLast St.success).auditImage owner (imagePayload t 1 St.success len 0 0 []))

/-- The session a request names, if the requester owns it (R423). -/
def State.jigSession (s : State) (owner id : Nat) : Option JigSession :=
  match s.jig.session with
  | some x => if x.id = id ∧ x.owner = owner then some x else none
  | none => none

/-- A request of the owner: the idle limit starts anew. -/
def State.jigTouch (s : State) (x : JigSession) : State :=
  s.setJig { s.jig with session := some { x with idleBy := s.inMgmt (s.rd JIG_CFG.IDLE) } }

/-- What is wrong with a block's OFFSET and LENGTH (R425). -/
def blockFault (x : JigSession) (off len : Nat) : Nat :=
  if off % jigBlockSize ≠ 0 ∨ x.len ≤ off then St.jigBlockRange
  else if len ≠ blockLen x.len (off / jigBlockSize) then St.blockLength
  else St.success

/-- A block joins the queue. -/
def State.jigQueue (s : State) (x : JigSession) (b : JigBlock) : State :=
  s.setJig { s.jig with session := some { x with queue := x.queue ++ [b] } }

/-- A response of the Jig protocol: the request's header with OP | 0x80, SESSION, OFFSET holding RESULT, STATUS and the
CRC, then the payload (R427, R428; log entry 37). -/
def jigResponse (hdr : List Byte) (session status result : Nat) (payload : List Byte) : List Byte :=
  let h := splice (hdr.take 28 ++ zeros 4) 2 (leBytes 1 (fieldAt hdr 2 1 ||| 0x80))
  let h := splice (splice (splice h 4 (leBytes 4 session)) 8 (leBytes 4 result)) 20 (leBytes 2 status)
  h.take 28 ++ leBytes 4 (crc32c (h ++ payload)) ++ payload

/-- A response leaves through the management port. -/
def State.jigReply (s : State) (hdr : List Byte) (session status result : Nat) (payload : List Byte := []) : State :=
  { s with mgt := { s.mgt with replies := .datagram (jigResponse hdr session status result payload) :: s.mgt.replies } }

/-- A block's outcome goes to who sent it. -/
def State.jigAnswer (s : State) (x : JigSession) (b : JigBlock) (status : Nat) : State :=
  match b.asked with
  | .desc d => (s.jigLast status).finish .sec d status 0 x.got.length
  | .port hdr => (s.jigLast status).jigReply hdr x.id status 0

/-- Blocks that have not begun are given up: the session is about to end. -/
def State.jigTrim (s : State) (x : JigSession) : State :=
  let s := s.setJig { s.jig with session := some { x with queue := x.queue.take 1 } }
  (x.queue.drop 1).foldl (fun s b => s.jigAnswer x b St.sessionInvalid) s

/-- The session ends; its slot stays as it is. -/
def State.jigEnd (s : State) : State := s.setJig { s.jig with session := none, parts := none }

/-- JIG_BLOCK_WRITTEN: the erase, program and read-back of the block being written end; `ok`: they succeeded. A block that
failed reads back as anything (R425). -/
def execJigBlockWritten (ok : Bool) (s : State) : Host.Outcome State Fault Refusal :=
  match s.jig.session with
  | none => .next s
  | some x => match x.queue with
    | [] => .next s
    | b :: rest =>
      if (match b.asked with | .desc _ => !s.auditRoom | .port _ => false) then .next s
      else
        let sl := s.slotOf x.type
        let data := if ok then b.data else s.freeBytes b.data.length
        let s := if ok then s else s.draw
        let s := s.setSlot' x.type { sl with blocks := Tab.set sl.blocks b.index data }
        let others := x.got.filter (· != b.index)
        let x := { x with queue := rest, got := if ok then b.index :: others else others }
        let s := s.setJig { s.jig with session := some x }
        .next (s.jigAnswer x b (if ok then St.success else St.norFail))

/-! ## Commit, abort, idle end (R424, R429) -/

/-- The first block a session misses. -/
def JigSession.missing (x : JigSession) : Option Nat := (List.range (imageBlocks x.len)).find? fun i => !x.got.contains i

/-- COMMIT once no block is queued: status, RESULT and the state. -/
def State.jigCommit (s : State) (x : JigSession) : Nat × Nat × State :=
  let failed := fun (s : State) st =>
    ((s.raise Ev.jigCommitFail (some .jig) (some (x.type - 1)) [x.type, st]).jigLast st).auditImage x.owner
      (imagePayload x.type 3 st x.len 0 0 [])
  match x.missing with
  | some i => (St.incomplete, i * jigBlockSize, failed (s.jigTouch x) St.incomplete)
  | none =>
    let sl := s.slotOf x.type
    let img := sl.image x.len
    let st := s.checkImage x.type x.len img
    if st ≠ St.success then (st, 0, failed s.jigEnd st)
    else
      let sl := sl.committed img
      let s := (s.setSlot' x.type sl).jigEnd
      let s : State := { s with jig := { s.jig with refused := s.jig.refused.filter (· != x.type) } }
      let s := (s.raise Ev.jigCommit (some .jig) (some (x.type - 1)) [x.type]).jigLast St.success
      (St.success, 0, s.auditImage x.owner (imagePayload x.type 2 St.success x.len sl.version sl.rollback sl.meas))

/-- The session is aborted, once the block in progress is written. -/
def State.jigAbort (s : State) (x : JigSession) : State :=
  s.jigEnd.auditImage x.owner (imagePayload x.type 4 St.success x.len 0 0 [])

/-- JIG_IDLE_EXPIRY: no request of the owner for IDLE; a block in progress is written first. -/
def execJigIdleExpiry (s : State) : Host.Outcome State Fault Refusal :=
  match s.jig.session with
  | none => .next s
  | some x =>
    if !s.passed x.idleBy ∨ (!s.auditRoom ∧ !s.jig.recovery) then .next s
    else if !x.queue.isEmpty then .next (s.jigTrim x)
    else
      let s := s.jigEnd.raise Ev.jigIdleAbort (some .jig) none [x.type]
      .next (s.auditImage x.owner (imagePayload x.type 5 St.success x.len 0 0 []))

/-! ## Requests through an Island ring (R426) -/

/-- The owner a ring request acts for: the ring's owner origin. -/
def State.ringOwner (s : State) (u : UnitId) (d : DescRef) : Nat := s.rd (RING_OWNER.ORIGIN (unitBase u) d.ring)

/-- A started descriptor of the Jig in its turn; the recovery jig answers no ring (R435). -/
def State.jigDesc (s : State) (d : DescRef) (op : Nat) (k : Fetched → State) : Host.Outcome State Fault Refusal :=
  match s.startedAt .sec d op with
  | none => .next s
  | some f => if s.jig.recovery || !s.inOrder .sec d then .next s else .next (k f)

/-- The same for the owner of the session at bytes 28 to 31. -/
def State.jigOwned (s : State) (d : DescRef) (op : Nat) (k : Fetched → JigSession → State) : Host.Outcome State Fault Refusal :=
  s.jigDesc d op fun f =>
    match s.jigSession (s.ringOwner .sec d) (f.at 28 4) with
    | none => s.finish .sec d St.sessionInvalid
    | some x => k f x

/-- JIG_BEGIN. -/
def execJigBegin (d : DescRef) (s : State) : Host.Outcome State Fault Refusal :=
  s.jigDesc d Op.jigBegin fun f =>
    let (st, r, s) := s.jigBegin (s.ringOwner .sec d) (f.at 28 1) (f.at 32 4)
    s.finish .sec d st 0 r

/-- JIG_BLOCK: the block is copied from DRAM and queued. -/
def execJigBlock (d : DescRef) (s : State) : Host.Outcome State Fault Refusal :=
  s.jigOwned d Op.jigBlock fun f x =>
    if x.queue.any (·.asked == .desc d) then s
    else
      let s := s.jigTouch x
      let st := blockFault x (f.at 32 4) f.len
      if st ≠ St.success then (s.jigLast st).finish .sec d st 0 x.got.length
      else match s.dmaRead .sec f.src f.len (some d.ring) with
        | .error e => s.finishDma .sec d e
        | .ok bs =>
          let x := (s.jig.session).getD x
          (s.jigQueue x ⟨.desc d, f.at 32 4 / jigBlockSize, bs⟩).setPhase .sec d .waiting

/-- JIG_COMMIT: it waits for queued blocks, then checks. -/
def execJigCommit (d : DescRef) (s : State) : Host.Outcome State Fault Refusal :=
  s.jigOwned d Op.jigCommit fun _ x =>
    if !x.queue.isEmpty then s.setPhase .sec d .waiting
    else
      let (st, r, s) := s.jigCommit x
      s.finish .sec d st 0 r

/-- JIG_ABORT: queued blocks are given up, the one in progress is written, and the session ends. -/
def execJigAbort (d : DescRef) (s : State) : Host.Outcome State Fault Refusal :=
  s.jigOwned d Op.jigAbort fun _ x =>
    if !x.queue.isEmpty then (s.jigTrim x).setPhase .sec d .waiting
    else (s.jigAbort x).finish .sec d St.success

/-- The received-block bitmap, 48 bytes. -/
def JigSession.bitmap (x : JigSession) : List Byte := leBytes 48 ((x.got.map fun i => 2 ^ i).sum)

/-- JIG_BITMAP. -/
def execJigBitmap (d : DescRef) (s : State) : Host.Outcome State Fault Refusal :=
  s.jigOwned d Op.jigBitmap fun f x =>
    let s := s.jigTouch x
    if f.len ≠ 48 then s.finish .sec d St.lengthMismatch
    else s.secWrite d f.dst x.bitmap fun s => s.finish .sec d St.success 0 x.got.length

/-! ## Requests through the management port (R427, R428) -/

/-- Whether the Jig answers the management port: MGT_EN, which RECOVERY ignores; a head that halts at training answers
STATUS only (R495). -/
def State.jigPortOn (s : State) (op : Nat) : Bool :=
  (s.on JIG_CFG.MGT_EN || s.jig.recovery) && (!s.boot.halted || op == 5)

/-- Whether a datagram is well formed: its length, MAGIC, CRC and an OP of R427. -/
def jigGood (p : List Byte) : Bool :=
  decide (32 ≤ p.length) && decide (p.length ≤ 1056) && fieldAt p 0 2 == 0x4A47
    && fieldAt p 28 4 == crc32c (p.take 28 ++ zeros 4 ++ p.drop 32)
    && decide (1 ≤ fieldAt p 2 1) && decide (fieldAt p 2 1 ≤ 5)

/-- The oldest datagram of the Jig is taken if it holds request `op`: `k` gets its header, its payload and the state without
it. One that is not well formed, or comes while the protocol is off, is dropped. A request whose audit entry has no room
stays. -/
def State.jigPort (s : State) (op : Nat) (audit : Bool) (k : List Byte → List Byte → State → State) :
    Host.Outcome State Fault Refusal :=
  match s.mgt.jigIn with
  | [] => .next s
  | p :: rest =>
    let s' : State := { s with mgt := { s.mgt with jigIn := rest } }
    if !jigGood p || !s.jigPortOn (fieldAt p 2 1) then .next s'
    else if fieldAt p 2 1 ≠ op then .next s
    else if audit && !s.auditRoom && !s.jig.recovery then .next s
    else .next (k (p.take 32) (p.drop 32) s')

/-- The session of a datagram's header. -/
def State.portSession (s : State) (hdr : List Byte) : Option JigSession := s.jigSession jigPortOrigin (fieldAt hdr 4 4)

/-- JIG_PORT_BEGIN. -/
def execJigPortBegin (s : State) : Host.Outcome State Fault Refusal :=
  s.jigPort 1 true fun hdr _ s =>
    let (st, r, s) := s.jigBegin jigPortOrigin (fieldAt hdr 3 1) (fieldAt hdr 12 4)
    if st = St.success then s.jigReply hdr r st 0 else s.jigReply hdr (fieldAt hdr 4 4) st r

/-- Whether segment `seg` of a block of LENGTH `len` may hold `n` bytes: 1,024, the last one the rest. -/
def segOk (len seg n : Nat) : Bool :=
  let k := (len + 1023) / 1024
  decide (len ≤ jigBlockSize) && decide (seg < k) && n == (if seg + 1 < k then 1024 else len - 1024 * (k - 1))

/-- JIG_PORT_SEGMENT: a segment of a block; with its last missing segment the block is checked and queued. -/
def execJigPortSegment (s : State) : Host.Outcome State Fault Refusal :=
  s.jigPort 2 false fun hdr data s =>
    let id := fieldAt hdr 4 4
    match s.portSession hdr with
    | none => s.jigReply hdr id St.sessionInvalid 0
    | some x =>
      let s := s.jigTouch x
      let x := (s.jig.session).getD x
      let off := fieldAt hdr 8 4
      let len := fieldAt hdr 12 4
      let seg := fieldAt hdr 16 2
      if fieldAt hdr 18 2 ≠ data.length ∨ !segOk len seg data.length then s.jigReply hdr id St.blockLength 0
      else
        let old : Tab (List Byte) := match s.jig.parts with
          | some (o, t) => if o = off then t else []
          | none => []
        let parts := if (Tab.get? old seg).isSome then old else Tab.set old seg data
        if parts.length < (len + 1023) / 1024 then
          (s.setJig { s.jig with parts := some (off, parts) }).jigReply hdr id St.success 0
        else
          let s := s.setJig { s.jig with parts := none }
          let st := blockFault x off len
          if st ≠ St.success then (s.jigLast st).jigReply hdr id st 0
          else s.jigQueue x ⟨.port hdr, off / jigBlockSize, parts.flatMap (·.2)⟩

/-- JIG_PORT_ABORT. -/
def execJigPortAbort (s : State) : Host.Outcome State Fault Refusal :=
  match s.jig.session with
  | some x =>
    if !x.queue.isEmpty then
      (match s.mgt.jigIn with
        | p :: _ => .next (if jigGood p && fieldAt p 2 1 == 4 && (s.portSession p).isSome then s.jigTrim x else s)
        | [] => .next s)
    else s.jigPort 4 true fun hdr _ s => match s.portSession hdr with
      | none => s.jigReply hdr (fieldAt hdr 4 4) St.sessionInvalid 0
      | some x => (s.jigAbort x).jigReply hdr x.id St.success 0
  | none => s.jigPort 4 true fun hdr _ s => s.jigReply hdr (fieldAt hdr 4 4) St.sessionInvalid 0

/-- JIG_PORT_STATUS: the bitmap, zero where the session is not the sender's. -/
def execJigPortStatus (s : State) : Host.Outcome State Fault Refusal :=
  s.jigPort 5 false fun hdr _ s => match s.portSession hdr with
    | none => s.jigReply hdr (fieldAt hdr 4 4) St.sessionInvalid 0 (zeros 48)
    | some x => (s.jigTouch x).jigReply hdr x.id St.success 0 x.bitmap

/-! ## Settings groups (R433, R501) -/

/-- A group returns to its defaults: a record of LENGTH 0 with the listed version, EV_SETTINGS_RESET, a KIND 6 entry. -/
def State.settingsDefault (s : State) (g stored version : Nat) : State :=
  let s := (s.keepGroup g version []).raise Ev.settingsReset (some .jig) none [g, stored, version]
  let s : State := if g = 0x21 then { s with sup := { s.sup with plan := none } } else s
  s.stage 6 0x0200 0xFFFF (unitN .jig) 0 0 0 (leBytes 2 g ++ leBytes 2 stored ++ leBytes 2 version)

/-- One listed group checked against its record (R501). -/
def State.settingsCheck (s : State) (g version : Nat) : State :=
  match Tab.get? s.drw.ret g with
  | some r => if r.format = version then s else s.settingsDefault g r.format version
  | none =>
    let recs := s.activeHalf.recs.filter fun r => r.group == g
    if recs.isEmpty || recs.any (fun r => r.hdrOk && r.dataOk) then s
    else (s.raise Ev.drwCorrupt (some .drw) none [g]).settingsDefault g 0xFFFF version

/-- Every group an image lists. -/
def State.settingsApply (s : State) (img : List Byte) : State :=
  (imgSettings img).foldl (fun s e => s.settingsCheck e.1 e.2) s

/-! ## Activation (R431 to R434) -/

/-- Measurement M_(t-1) of the running image. -/
def State.setMeasurement (s : State) (t : Nat) (m : List Byte) : State :=
  (List.range 8).foldl (fun s w => s.wr (SEC_MEAS.BYTES (t - 1) w) (fieldAt m (8 * w) 8)) s

/-- An image begins to run: its measurement, its rollback counter, its settings groups, ACTIVE. -/
def State.imageRuns (s : State) (t : Nat) (x : JigSlot) (img : List Byte) : State :=
  let s := ((s.setMeasurement t x.meas).raiseRollback t x.rollback).settingsApply img
  let s := (s.wr (JIG_SLOT.ACTIVE (t - 1)) 1).setJig { s.jig with running := t :: s.jig.running.filter (· != t) }
  s.wr SEC_STATUS.IMAGES_OK (if s.jig.running.contains 2 && s.jig.running.contains 3 then 1 else 0)

/-- Whether the rings an activation of UCODE or ISL needs quiet are STOPPED or DISABLED. -/
def State.jigRingsQuiet (s : State) : Bool := s.ringsQuiet .par && s.ringsQuiet .cell && s.ringsQuiet .carc

/-- JIG_ACTIVATE: checks, then the steps of the type begin. The activation of ISL makes the shutdown seal; the warm reset
that follows is WARM_RESET. -/
def execJigActivate (d : DescRef) (s : State) : Host.Outcome State Fault Refusal :=
  s.jigDesc d Op.jigActivate fun f =>
    let t := f.at 28 1
    let refuse := fun st => (s.jigLast st).finish .sec d st
    if s.jig.acts.any (fun a => a.2 == d) then s
    else if t = 0 ∨ 3 < t then refuse St.typeInvalid
    else if t ≠ 2 ∧ (s.leaseMode ≠ Lmode.drained ∨ s.rd LEASE_STATUS.PEER ≠ 1) then refuse St.notDrained
    else if (s.slotOf t).st ≠ 2 ∨ (s.jig.session.map (·.type)) = some t ∨ s.jig.acts.any (fun a => a.1 == t)
        ∨ (t ≠ 2 ∧ !s.jigRingsQuiet) then refuse St.activateBusy
    else
      let s := (s.setJig { s.jig with acts := s.jig.acts ++ [(t, d)] }).setPhase .sec d .waiting
      if t = 2 then { s with sup := { s.sup with mgmtInReset := true }, mgt := { s.mgt with fwRunning := false } }
      else if t = 1 ∧ !s.on SEC_CTL.SHUTDOWN then (s.wr SEC_CTL.SHUTDOWN 1).seal true
      else s

/-- Whether the image of a slot may run: it passes the checks of a commit and carries its directory's MEASUREMENT. -/
def State.imageOk (s : State) (t : Nat) : Bool :=
  let x := s.slotOf t
  if x.st = 2 then
    let img := x.image x.len
    s.checkImage t x.len img == St.success && shake256 img 64 == x.meas
  else false

/-- The old or new image of a type is released: the management core, or the sequencers. -/
def State.releaseImage (s : State) (t : Nat) : State :=
  if t = 2 ∧ s.jig.running.contains 2 then
    { s with sup := { s.sup with mgmtInReset := false }, mgt := { s.mgt with fwRunning := true } }
  else s

/-- JIG_ACTIVATION_DONE: an activation of MGMT or UCODE ends with the new image, or with DIGEST_MISMATCH and the old one. A
peer lost meanwhile is handled now (R434). That of ISL ends in the boot sequence. -/
def execJigActivationDone (type : Nat) (s : State) : Host.Outcome State Fault Refusal :=
  match s.jig.acts.find? (fun a => a.1 == type) with
  | none => .next s
  | some a =>
    if type = 1 ∨ !s.auditRoom then .next s
    else
      let x := s.slotOf type
      let ok := s.imageOk type
      let s := s.setJig { s.jig with acts := s.jig.acts.filter (fun b => b.1 != type) }
      let s := if ok then s.imageRuns type x (x.image x.len) else s.setSlot' type { x with st := 1 }
      let s := s.releaseImage type
      let st := if ok then St.success else St.digestMismatch
      let s := s.raise Ev.jigActivate (some .jig) (some (type - 1)) [type, x.version, st]
      let s := (s.jigLast st).auditImage (s.ringOwner .sec a.2)
        (imagePayload type 6 st x.len x.version x.rollback (if ok then x.meas else []))
      let s := s.finish .sec a.2 st 0 (if ok then x.version else 0)
      .next (if s.leaseU.lossDue ∧ !s.activating then (s.setLease { s.leaseU with lossDue := false }).peerLoss else s)

end Sys2Proof.Machine
end

