-- ==== Sys2Proof/Machine/Boot.lean ====
section
/-! DEFINITION. Resets, the boot sequence and loss of power (R488 to R501, R435, R384, R412). -/
namespace Sys2Proof.Machine
open Sys2Proof

/-! ## What a reset clears and keeps (R491) -/

/-- Whether the register at a key of `State.csr` lies in the always-on island outside the Security Island's units, so that a
warm reset keeps it: APX, CLK, PWR and the Tally (log entry 39). -/
def keepWarm (k : Nat) : Bool :=
  match unitAt (k / 64 / 0x1000000) (k / 64 / 0x400000 % 4) with
  | some .apx | some .clk | some .pwr | some .tal => true
  | _ => false

/-- A GROUP_WRITE under way leaves a torn record in the active half; `hdr`: its header was programmed whole (R500, R505). -/
def State.tearGroup (s : State) (torn : Option (DescRef × Bool)) : State :=
  match torn with
  | none => s
  | some (d, hdr) => match s.startedAt .drw d Op.groupWrite with
    | none => s
    | some f =>
      let g := f.at 28 2
      let r : GroupRec := {
        group := g, format := f.at 30 2, gen := s.activeHalf.nextGen g, data := s.freeBytes (min f.len 65536),
        hdrOk := hdr, dataOk := false }
      let h := s.activeHalf
      s.draw.setActiveHalf { h with recs := h.recs ++ [r] }

/-- A Jig block under way is left with any content. -/
def State.tearBlock (s : State) : State :=
  match s.jig.session with
  | some x => match x.queue with
    | b :: _ =>
      let sl := s.slotOf x.type
      s.draw.setSlot' x.type { sl with blocks := Tab.set sl.blocks b.index (s.freeBytes b.data.length) }
    | [] => s
  | none => s

/-- What survives every reset: OTP and NOR, the blades and how they are wired, the margin plan of the Drawer, a pending
lifecycle advance, the model's own fields. -/
def State.keepNor (s : State) : State :=
  { State.reset with
    otp := s.otp, drw := { half0 := s.drw.half0, half1 := s.drw.half1 }, jig := { slots := s.jig.slots, kept := s.jig.kept }
    aud := { anchor := s.aud.anchor }, sup := { plan := s.sup.plan }, blades := s.blades
    ports := Tab.mapV s.ports fun _ y => { miswired := y.miswired }
    draws := s.draws, pending := s.pending }

/-- Cold reset (R490, R491): everything but OTP and NOR is cleared and DRAM lost. `last`: the cause; what was seen since
VDD_AON rose stays. -/
def State.coldReset (s : State) (torn : Option (DescRef × Bool)) (last : Nat) : State :=
  let s := ((s.tearGroup torn).tearBlock).dropBladeLinks
  let k := s.keepNor
  let k : State := { k with
    boot := { cold := true, advance := s.boot.advance, before := s.wireNow }
    pins := { s.pins with hbOut := false, eventOut := false, perstN := 0, thermTripN := true } }
  ((k.wr PWR_RESET_CAUSE.LAST last).wr PWR_RESET_CAUSE.REFCLK_SEEN (s.rd PWR_RESET_CAUSE.REFCLK_SEEN)).wr
    PWR_RESET_CAUSE.TRIP_SEEN (s.rd PWR_RESET_CAUSE.TRIP_SEEN)

/-- The fuses blown in addition. -/
def State.blowFuses (s : State) (fuses : List (Nat × Byte)) : State :=
  { s with otp := fuses.foldl (fun m e => if e.1 < 0x1000 then Memory.write m e.1 (Memory.read m e.1 ||| e.2) else m) s.otp }

/-- A slot programmed outside the head: a committed image (R422). -/
def programmedSlot (img : List Byte) : JigSlot :=
  let blocks : Tab (List Byte) := (List.range (imageBlocks img.length)).map fun i =>
    (i, (img.drop (i * jigBlockSize)).take jigBlockSize)
  ({ len := img.length, blocks := blocks } : JigSlot).committed img

/-- VDD_AON_RISE: cold reset. `fuses` and `images` are what was programmed into OTP and NOR while the head had no power
(log entry 40). -/
def execVddAonRise (fuses : List (Nat × Byte)) (images : List (Nat × List Byte)) (s : State) :
    Host.Outcome State Fault Refusal :=
  if s.pins.vddAon then .next s
  else
    let k := s.coldReset none 0
    let k := ((k.wr PWR_RESET_CAUSE.REFCLK_SEEN 0).wr PWR_RESET_CAUSE.TRIP_SEEN 0).blowFuses fuses
    let k := images.foldl (fun k e => if 1 ≤ e.1 ∧ e.1 ≤ 3 then k.setSlot' e.1 (programmedSlot e.2) else k) k
    .next { k with pins := { k.pins with vddAon := true, pwrok := false } }

/-- PWROK_FALL: cold reset within 1 µs. -/
def execPwrokFall (torn : Option (DescRef × Bool)) (s : State) : Host.Outcome State Fault Refusal :=
  if !s.pins.vddAon || !s.pins.pwrok then .next s
  else
    let k := s.coldReset torn 1
    .next { k with pins := { k.pins with pwrok := false } }

/-- RESET_N_ASSERT: cold reset. -/
def execResetNAssert (torn : Option (DescRef × Bool)) (s : State) : Host.Outcome State Fault Refusal :=
  if !s.pins.vddAon || !s.pins.resetN then .next s
  else
    let k := s.coldReset torn 1
    .next { k with pins := { k.pins with resetN := false } }

/-- POWER_LOSS: every rail is lost without PWROK falling first; only OTP and NOR stay (R489). -/
def execPowerLoss (torn : Option (DescRef × Bool)) (s : State) : Host.Outcome State Fault Refusal :=
  if !s.pins.vddAon then .next s
  else
    let k := s.coldReset torn 1
    .next { k with pins := { k.pins with vddAon := false, pwrok := false } }

/-- DRAM as self-refresh keeps it: a line dirty in the Cooler has lost what was not written back (R492); the Vat is cleared. -/
def State.dramKept (s : State) : State :=
  let lost : List Nat := (s.cool.lines.filter (fun e => e.2.dirty)).map (fun e => e.2.line)
  let s := { s with mem := Memory.blankRange s.mem vatBase (2 ^ 27) }
  lost.foldl (fun s l => { s.draw with mem := Memory.writeN s.mem (l * 64) (s.freeBytes 64) }) s

/-- A warm reset begins (R491, R492): HB_OUT stops at its level, DRAM goes to self-refresh, every switched domain goes off,
the Security Island is cleared. -/
def State.warmReset (s : State) : State :=
  let s := (s.tearBlock.dramKept).dropBladeLinks
  let k := s.keepNor
  let k : State := { k with
    now := s.now, mem := s.mem, csr := Tab.keep s.csr (fun f _ => keepWarm f), tally := s.tally, bus := { s.bus with imsic := [], aplic := [], ddtMode := 1, ddt := 0 }
    drw := s.drw, pins := { s.pins with perstN := 0 }, cool := { poison := s.cool.poison }
    jig := { k.jig with isl := s.jig.acts.any fun a => a.1 == 1 }
    mgt := { sent := s.mgt.sent, replies := s.mgt.replies }
    boot := { cold := false, warmUntil := some (s.now + 160000), advance := s.boot.advance, before := s.boot.before } }
  let k := (((k.wr SEC_RNG_STATUS.FAIL (s.rd SEC_RNG_STATUS.FAIL)).wr SEC_RNG_STATUS.TEST (s.rd SEC_RNG_STATUS.TEST)).wr
    SEC_RNG_STATUS.RESEEDS (s.rd SEC_RNG_STATUS.RESEEDS)).allOff.bump PWR_RESET_CAUSE.WARM_COUNT 1
  (k.wr PWR_RESET_CAUSE.LAST 2).wr PWR_BOOT_STATUS.STEP 2

/-- WARM_RESET: PWR_RESET_CTL.WARM, which only the Security Island may write. -/
def execWarmReset (origin : Origin) (s : State) : Host.Outcome State Fault Refusal :=
  if origin ≠ 0x200 then .next (s.unitErr .pwr origin.toNat (errOffset PWR_RESET_CTL.WARM.reg) 3)
  else if s.boot.cold ∨ s.boot.stopped ∨ s.boot.warmUntil.isSome then .next s
  else .next s.warmReset

/-- JIG_PORT_COMMIT: it waits for queued blocks. After a commit the recovery jig resets the head: a warm reset begins
(R435; log entry 38). -/
def execJigPortCommit (s : State) : Host.Outcome State Fault Refusal :=
  if (match s.jig.session with | some x => !x.queue.isEmpty | none => false) then .next s
  else s.jigPort 3 true fun hdr _ s =>
    let id := fieldAt hdr 4 4
    match s.portSession hdr with
    | none => s.jigReply hdr id St.sessionInvalid 0
    | some x =>
      let (st, r, s) := s.jigCommit x
      let s := s.jigReply hdr id st r
      if st = St.success ∧ s.jig.recovery then s.warmReset else s

/-! ## The boot sequence (R494, R495) -/

/-- STEP and FAIL of PWR_BOOT_STATUS. -/
def State.bootStep (s : State) (n : Nat) : State := s.wr PWR_BOOT_STATUS.STEP n
def State.bootFail (s : State) (n : Nat) : State := s.wr PWR_BOOT_STATUS.FAIL n

/-- The lifecycle state of the fuses: the highest field with a bit set (R386). -/
def State.otpLife (s : State) : Nat :=
  ((List.range 4).filter fun i => Memory.readN s.otp (0x20 + 4 * i) 4 != zeros 4).foldl max 0

/-- Step 1: the always-on island leaves reset, the PLL locks, the straps are sampled (R317, R318). -/
def State.bootIsland (s : State) : State :=
  let s := ((s.wr CLK_STATUS.PLL_LOCK 1).wr CLK_STATUS.REFCLK_OK 1).wr CLK_STATUS.AON_OSC 0
  let h := if s.pins.headSel then 1 else 0
  ((s.wr LEASE_CTL.HEAD h).wr CELL_CTL.HEAD h).wr LEASE_CTL.SOLO (if s.pins.peerPrsntN then 1 else 0)

/-- Step 2: the OTP is read; a pending lifecycle advance takes effect at a cold start (R386). -/
def State.bootOtp (s : State) (warm : Bool) : State :=
  let s := match warm, s.boot.advance with
    | false, some t => { s.blowFuses [(0x20 + 4 * t, 1)] with boot := { s.boot with advance := none } }
    | _, _ => s
  let life := s.otpLife
  let s := (s.wr SEC_STATUS.LIFECYCLE life).wr SEC_STATUS.DEBUG_OPEN (if life = Life.deployed then 0 else 1)
  let s := s.wr SEC_STATUS.ROLLBACK_ISL (s.rollbackOf 1)
  if s.calOk then s else s.raise Ev.calInvalid (some .wit)

/-- A slot left WRITING whose image passes in full is made VALID (R435). The audit entry is kept for the BOOT entry to go
first. -/
def State.restoreSlot (s : State) (t : Nat) : State :=
  let x := s.slotOf t
  if x.st = 1 ∧ imageLenOk t x.len ∧ s.checkImage t x.len (x.image x.len) = St.success then
    let x := x.committed (x.image x.len)
    let s := (s.setSlot' t x).raise Ev.slotRestored (some .jig) (some (t - 1)) [t]
    { s with jig := { s.jig with
      kept := s.jig.kept ++ [imagePayload t 8 St.success x.len x.version x.rollback x.meas] } }
  else s.slotShow t

/-- The BOOT entry: SEQ and PREV follow the last anchor (R412), then the entries kept by the recovery jig (R430). -/
def State.bootEntry (s : State) : State :=
  let anchor : Nat := (s.aud.anchor.map (·.1)).getD 0
  let prev : List Byte := (s.aud.anchor.map (·.2)).getD (zeros 64)
  let seq := if s.aud.anchor.isSome then anchor + 2 ^ 23 else 0
  let s := s.setAud { anchor := s.aud.anchor, prev := prev, nextSeq := seq, firstSeq := seq,
                      sealDue := some (s.inMgmt (s.rd AUD_SEAL_CFG.PERIOD)) }
  let s := s.stage 8 0x0200 0xFFFF (unitN .sec) 0 0 0 (leBytes 8 anchor ++ s.measurement 0 ++ leBytes 1 (s.rd SEC_STATUS.LIFECYCLE))
  let s := s.jig.kept.foldl (fun s p => s.stage 5 0x0200 0xFFFF (unitN .jig) 0 0 0 p) s
  { s with jig := { s.jig with kept := [] } }

/-- The management-port endpoint of group 0x0030: MAC, IPv4 address, mask, port (R497; its layout: log entry 15). -/
def State.applyEndpoint (s : State) (recovery : Bool) : State :=
  match Tab.get? s.drw.ret 0x30 with
  | some r =>
    if r.format ≠ 1 ∨ r.data.length ≠ 16 then s
    else
      let mask := fieldAt r.data 10 4
      let s := (s.wr MGT_MAC.MAC (fieldAt r.data 0 6)).wr MGT_IPV4.ADDR (fieldAt r.data 6 4)
      let s := (s.wr MGT_IPV4.PREFIX (popCount mask 32)).wr MGT_IPV4.VALID (if fieldAt r.data 6 4 = 0 then 0 else 1)
      let p := fieldAt r.data 14 2
      if 1024 ≤ p then s.wr JIG_CFG.PORT p else s
  | none =>
    if recovery then s.wr MGT_MAC.MAC (leNat ((shake256 s.serial 64).take 5).reverse + 2 * 2 ^ 40) else s

/-- The recovery jig: the MGT domain is powered and the Jig answers for type 1 only (R435). -/
def State.enterRecovery (s : State) : State :=
  let s := (s.bootFail 1).setDom 95 Dom.on
  let s := s.setJig { s.jig with recovery := true, isl := false }
  let s := (s.drwRestore true).applyEndpoint true
  let s := (s.wr MGT_CTL.EN 1).raise Ev.jigRecovery (some .jig)
  s.auditImage 0x0200 (imagePayload 1 7 St.success 0 0 0 [])

/-- Step 3 where the Island image is good: measurement, keys, layer 1, the DRBG seeded, a fresh nonce. -/
def State.bootLayer1 (s : State) : State :=
  let x := s.slotOf 1
  let s := ((s.setMeasurement 1 x.meas).raiseRollback 1 x.rollback).newNonce
  let s := (s.wr SEC_STATUS.LAYER 1).wr (JIG_SLOT.ACTIVE 0) 1
  (s.setJig { s.jig with running := [1] }).bump SEC_RNG_STATUS.RESEEDS 1

/-- An activation of the Island firmware ends once the new image is verified (R431, R432). -/
def State.islActivated (s : State) : State :=
  if s.jig.isl then
    let x := s.slotOf 1
    let s := (s.setJig { s.jig with isl := false }).raise Ev.jigActivate (some .jig) (some 0) [1, x.version, St.success]
    s.auditImage 0x0200 (imagePayload 1 6 St.success x.len x.version x.rollback x.meas)
  else s

/-- The boot number of group 0x0001, advanced and written; random where it cannot be read (R497). -/
def State.bootNumber (s : State) (norOk : Bool) : State :=
  let (n, s) := match Tab.get? s.drw.ret 1 with
    | some r => if r.data.length = 4 then ((leNat r.data + 1) % 2 ^ 32, s) else (s.freeWord % 2 ^ 32, s.draw)
    | none => (s.freeWord % 2 ^ 32, s.draw)
  let s := { s with boot := { s.boot with bootNo := n } }
  if !norOk then s else s.keepGroup 1 1 (leBytes 4 n)

/-- User calibration and the margin plan reach the registers, or the boot margin (R461, R462). -/
def State.applyPlan (s : State) : State :=
  let ofs : List Byte := ((Tab.get? s.drw.ret 0x20).map (·.data)).getD []
  let s := (List.range 96).foldl (fun s d => s.wr (WIT_DOM.USER_OFS d) (min 20 (ofs.getD d 0).toNat)) s
  let s := match s.sup.plan with
    | some p =>
      let s := (List.range 96).foldl (fun s d => s.wr (WIT_DOM.AGE_GB d) (Tab.getD p.ageGb d 0)) s
      let s := (List.range 48).foldl (fun s c => s.wr (CLK_CORE.FLOOR c) (if s.calOk then Tab.getD p.floors c 0 else 1)) s
      s.wr WIT_STATUS.PLANNED 1
    | none => ((List.range 48).foldl (fun s c => s.wr (CLK_CORE.FLOOR c) 1) s).wr WIT_STATUS.PLANNED 0
  let s := (List.range 48).foldl (fun s c => s.coreDiv c) s
  (List.range 96).foldl (fun s d =>
    let s := (s.retarget d).wr (GOV_VREF.VREF d) (s.vrefTarget d)
    (s.wr (GOV_DOM_STATUS.STEPPING d) 0).wr (GOV_DOM_STATUS.CREF d) (s.vrefTarget d)) s

/-- Step 4: the Drawer is restored and the Island's groups checked; an unreadable NOR leaves defaults (R495, R500, R501). -/
def State.bootDrawer (s : State) (warm norOk : Bool) : State :=
  let s := if norOk then (s.drwRestore warm).settingsApply ((s.slotOf 1).image (s.slotOf 1).len)
    else
      let s := (s.bootFail 2).raise Ev.drwNorFail (some .drw)
      (({ s with drw := { s.drw with ret := [], retOk := true } } : State).drwCounts).wr DRW_STATUS.STATE 3
  let s := if (Tab.get? s.drw.ret 0x21).isSome then s else { s with sup := { s.sup with plan := none } }
  ((s.bootNumber norOk).applyPlan).applyEndpoint false

/-- A core or slice of the plan is retired again before it is used (R458). Which partner takes a slice is open: the lowest
that may (log entry 41). -/
def State.retireAgain (s : State) : State :=
  match s.sup.plan with
  | none => s.wr WIT_STATUS.CORE_EQ s.coreEq
  | some p =>
    let s := (s.wr WIT_RETIRE_CORE.REQ p.cores).wr WIT_RETIRE_SLICE.REQ p.slices
    let s := (List.range 48).foldl (fun s c =>
      if p.cores.testBit c then
        let s := s.wr (CLK_CORE.RETIRED c) 1
        { s with sup := { s.sup with hartsStopped := insertAsc c s.sup.hartsStopped } }
      else s) s
    let s := (List.range 48).foldl (fun s i =>
      if p.slices.testBit i then
        match (List.range 48).find? (fun t => !p.slices.testBit t && s.mayRetire i t) with
        | some t => s.retireSlice i t
        | none => s
      else s) s
    s.wr WIT_STATUS.CORE_EQ s.coreEq

/-- Whether a domain stays off at start-up: a retired core, or six retired slices. -/
def State.domRetired (s : State) (d : Nat) : Bool :=
  (decide (d < 48) && s.on (CLK_CORE.RETIRED d))
    || (decide (54 ≤ d) && decide (d < 62) && (List.range 6).all fun i => s.sliceRetired (6 * (d - 54) + i))

/-- Step 5: every switched domain is ramped but the retired ones. -/
def State.bootDomains (s : State) : State :=
  (List.range 96).foldl (fun s d =>
    if s.domRetired d then s
    else ((s.setDom d Dom.on).wr (PWR_DOM.REQ_ON d) 1).wr (GOV_DOM_STATUS.N d) (pwrPhases d)) s

/-- One channel trained, fast only with a record in the Drawer; a full training writes the record, whose bytes are free
(R373). -/
def State.bootChannel (s : State) (norOk : Bool) (c : Nat) (r : Bool × Nat) : State :=
  let fast := r.1 && (Tab.get? s.drw.ret (0x10 + c)).isSome
  if r.2 ≠ 0 then
    ((s.wr (DDR_STATUS.STATE c) Ddr.failed).wr (DDR_STATUS.FAIL_CAUSE c) r.2).raise Ev.ddrTrain (some .ddr) (some c) [r.2]
  else
    let s := (s.wr (DDR_STATUS.STATE c) Ddr.ready).wr (DDR_STATUS.FAST c) (if fast then 1 else 0)
    if fast || !norOk then s
    else s.draw.keepGroup (0x10 + c) 1 (s.freeBytes 4096)

/-- Step 6: every channel in use trains (`train`: fast, failure cause by channel). -/
def State.bootTrain (s : State) (norOk : Bool) (train : List (Bool × Nat)) : State :=
  let s := s.wr DDR_CFG.EN 1
  let s := (List.range s.channels).foldl (fun s c => s.bootChannel norOk c (train.getD c (false, 0))) s
  s.wr PWR_BOOT_STATUS.FAST_DDR (if (List.range s.channels).all fun c => s.on (DDR_STATUS.FAST c) then 1 else 0)

/-- An image read into DRAM: its fixed address in the lowest 64 MiB is not given (log entry 147). -/
def State.imagePlaced (s : State) (t : Nat) (img : List Byte) : State :=
  { s with mem := Memory.writeN s.mem (Config.imageAt t % 2 ^ 26) img }

/-- Step 7: the images of the management core and the sequencers are read into the lowest 64 MiB of DRAM, measured and verified
(R384, R494). -/
def State.bootImages (s : State) : State :=
  [2, 3].foldl (fun s t =>
    let x := s.slotOf t
    let img := x.image x.len
    if s.imageOk t then (s.imagePlaced t img).imageRuns t x img
    else
      let s := (s.raise Ev.bootRefused (some .sec) none [t]).bootFail 4
      let s := if t = 2 then s.wr MGT_CTL.EN 1 else s   -- the Island serves the port of a head without management firmware (R435)
      { s with jig := { s.jig with refused := t :: s.jig.refused } }) s

/-- Step 8: LOCK_SET with the firmware's mask in DEPLOYED, the processors released (R397). -/
def State.bootRelease (s : State) : State :=
  let mask := fieldAt ((s.slotOf 1).image (s.slotOf 1).len) 288 8
  let s := if s.rd SEC_STATUS.LIFECYCLE = Life.deployed then s.setLocks mask 1 else s
  (s.releaseImage 2).wr SEC_STATUS.LAYER 2

/-- Steps 2 to 9. A failure at step 3 ends in the recovery jig, one at step 6 in a halt. -/
def State.bootRun (s : State) (warm norOk : Bool) (train : List (Bool × Nat)) : State :=
  let s := (s.bootStep 2).raise Ev.reset (some .pwr)
  let s := ((s.bootOtp warm).bootStep 3)
  let s := [1, 2, 3].foldl (fun s t => s.restoreSlot t) s
  if !s.imageOk 1 then s.enterRecovery
  else
    let s := s.bootLayer1.bootEntry.islActivated
    let s := (s.bootStep 4).bootDrawer warm norOk
    let s := ((s.bootStep 5).retireAgain).bootDomains
    let s := (s.bootStep 6).bootTrain norOk train
    if (List.range s.channels).any fun c => s.rd (DDR_STATUS.STATE c) == Ddr.failed then
      ({ s.bootFail 3 with boot := { s.boot with halted := true } } : State).wr MGT_CTL.EN 1
    else
      let s := ((s.bootStep 7).bootImages.bootStep 8).bootRelease.bootStep 9
      { s with sup := { s.sup with passAt := some s.now } }

/-- COLD_RESET_RELEASE: PWROK and RESET_N are high; the straps are sampled and the boot sequence runs. `norOk`: the settings
area can be read; `train`: what the training of each channel finds. -/
def execColdResetRelease (headSel peerPrsntN norOk : Bool) (train : List (Bool × Nat)) (s : State) :
    Host.Outcome State Fault Refusal :=
  if !s.boot.cold || !s.pins.vddAon then .next s
  else
    let s : State := { s with
      now := 0, boot := { s.boot with cold := false, before := s.wireNow }
      pins := { s.pins with pwrok := true, resetN := true, refclk := true, headSel := headSel, peerPrsntN := peerPrsntN } }
    .next (s.bootIsland.bootRun false norOk train)

/-- WARM_RESET_END: 100 µs after it began, a warm reset ends and the sequence is entered at step 2 with the straps of the last
cold reset. -/
def execWarmResetEnd (norOk : Bool) (train : List (Bool × Nat)) (s : State) : Host.Outcome State Fault Refusal :=
  if s.due s.boot.warmUntil then
    let s := { s with boot := { s.boot with warmUntil := none } }
    .next (s.bootIsland.bootRun true norOk train)
  else .next s

end Sys2Proof.Machine
end

