-- ==== Sys2Proof/Machine/Rails.lean ====
section
/-! DEFINITION. The commands of the Rails: enable, reset, failure, links, frames, timers and descriptors (R64 to R91). -/
namespace Sys2Proof.Machine
open Sys2Proof

/-! ## The Rail (R87) -/

/-- RAIL_CTL.EN ← 1: an OFF Rail becomes ACTIVE; a FAILED one stays FAILED until it is reset. -/
def State.railOn (s : State) (r : Rail) (origin : Nat) : State :=
  let i := railIx r
  let s := s.wr (RAIL_CTL.EN i) 1
  if s.rd (RAIL_STATUS.STATE i) = Rst'.off then
    let s := s.setRails { s.rails with idle := s.rails.idle.filter (· != r) }
    (s.wr (RAIL_STATUS.STATE i) Rst'.active).raise Ev.railUp (some (railUnit r)) none [i] (some origin)
  else s

/-- RAIL_ENABLE. -/
def execRailEnable (origin : Origin) (r : Rail) (s : State) : Host.Outcome State Fault Refusal :=
  .next (s.cfgField (railUnit r) origin (RAIL_CTL.EN (railIx r)) 1 fun s => s.railOn r origin.toNat)

/-- The descriptors that posted a queue pair's work leave their rings without completions (R69, to RESET). -/
def State.dropWork (s : State) (r : Rail) (q : Qp) : State :=
  let ds := (q.sq.filterMap fun w => match w.owner with
    | .desc d => some d
    | _ => none) ++ q.rq.map (·.d)
  ds.foldl (fun s d => s.setRing (railUnit r) d.ring { s.ring (railUnit r) d.ring with
    fetched := (s.ring (railUnit r) d.ring).fetched.filter fun g => g.slot ≠ d.slot }) s

/-- A context returns to RESET: its work is discarded and its Rail binding released. A QP_MODIFY to SQD that still waits is
no posted work of R69; it completes FLUSHED (log entry 57). -/
def State.ctxReset (s : State) (c : Nat) : State :=
  match s.ctx c with
  | none => s
  | some x =>
    let s := match x.qp? with
      | some q => q.sqd.foldl (fun (s : State) (e : DescRef × Nat) => s.finish (railUnit x.rail) e.1 St.flushed) (s.dropWork x.rail q)
      | none => s
    s.ctxGone c

/-- Every context of a Rail returns to RESET, and the Rail is OFF. Associations on it are lost. -/
def State.railReset (s : State) (r : Rail) : State :=
  let i := railIx r
  let mine : Tab Ctx := s.rails.ctxs.filter fun e => e.2.rail == r
  let gone : List Nat := (mine.filter (fun e => e.2.parlour)).map (fun e => e.1)
  let s := { s with par := { s.par with lost := s.par.lost ++ gone } }
  let s := (mine.foldl (fun s e => s.ctxReset e.1) s).rxFlush r
  ((s.wr (RAIL_CTL.EN i) 0).wr (RAIL_STATUS.STATE i) Rst'.off).wr (RAIL_STATUS.FAIL_CAUSE i) 0

/-- RAIL_RESET. -/
def execRailReset (origin : Origin) (r : Rail) (s : State) : Host.Outcome State Fault Refusal :=
  .next (s.cfgField (railUnit r) origin (RAIL_CTL.RESET (railIx r)) 1 fun s => s.railReset r)

/-- RAIL_FAIL: FAILED with FAIL_CAUSE 1. -/
def execRailFail (origin : Origin) (r : Rail) (s : State) : Host.Outcome State Fault Refusal :=
  .next (s.cfgField (railUnit r) origin (RAIL_CTL.FAIL (railIx r)) 1 fun s => s.railLost r 1)

/-- RAIL_INTERNAL_ERROR: FAILED with the cause: 2 transport engine, 3 context cache, 4 power domain. -/
def execRailInternalError (r : Rail) (cause : Nat) (s : State) : Host.Outcome State Fault Refusal :=
  .next (if cause = 2 ∨ cause = 3 ∨ cause = 4 then s.railLost r cause else s)

/-- PORT_LINK_CHANGE: a logical port of an enabled port gains or loses link; `codewords` uncorrectable FEC codewords were
counted meanwhile. -/
def execPortLinkChange (lport : Nat) (up fec : Bool) (codewords : Nat) (s : State) : Host.Outcome State Fault Refusal :=
  let i := lport / 8
  let j := lport / 4 % 2
  let r : Rail := if i = 0 then .a else .b
  if 16 ≤ lport then .next s
  else if up ∧ (!s.railActive r || !s.on (RAIL_PORT_CFG.EN i j) || !s.lportActive lport) then .next s
  else
    let was := s.bit (RAIL_STATUS.LPORT_UP i) (lport % 8)
    let s := (s.wrBit (RAIL_PORT_STATUS.LINK_UP i j) (lport % 4) up).wrBit (RAIL_PORT_STATUS.FEC_LOCK i j) (lport % 4) fec
    let s := (s.wrBit (RAIL_STATUS.LPORT_UP i) (lport % 8) up).bump (RAIL_PORT_STATUS.FEC_UNCORR i j) codewords
    .next (if was = up then s else s.raise Ev.link (some (railUnit r)) (some (lport % 8)) [lport, if up then 1 else 0])

/-! ## Frames (R66, R71) -/

/-- RX_FRAME: a frame at a logical port with link enters the receive buffer of its physical port, is dropped and counted, or
goes to software. A tag does not count for the MTU (R65); the priority is the tag's. -/
def execRxFrame (frame : Frame) (s : State) : Host.Outcome State Fault Refusal :=
  let x := frame.lport
  let p := x / 4
  let i := x / 8
  let j := p % 2
  if 16 ≤ x ∨ !s.railActive (portRail p) ∨ !s.on (RAIL_PORT_CFG.EN i j) ∨ !s.bit (RAIL_PORT_STATUS.LINK_UP i j) (x % 4) then .next s
  else if !frame.good ∨ s.rd (RAIL_PORT_CFG.MTU i j) < frame.size then .next (s.bump (RAIL_PORT_STATUS.RX_DROP i j) 1)
  else
    let t := s.setRails { s.rails with rx := Tab.set s.rails.rx p (Tab.getD s.rails.rx p [] ++ [frame]) }
    if 2 ^ 20 < t.rxHeld p then .next (s.bump (RAIL_PORT_STATUS.RX_DROP i j) 1)
    else if frame.body = .other then .next (s.slowFrame x frame.raw)
    else .next (t.xoff p)

/-- Queue pair number of QP1, the general services interface (R67). -/
def qp1 : Nat := 1

/-- ROCE_PACKET_RX: the RoCEv2 packet at the front of a port's buffer is processed for its context; QP1 goes to software. -/
def execRocePacketRx (port : Nat) (s : State) : Host.Outcome State Fault Refusal :=
  match s.popFrame port with
  | none => .next s
  | some (f, s') =>
    match f.body with
    | .roce p =>
      if p.op = 0x81 then .next s
      else if p.qpn = qp1 then .next (s'.slowFrame f.lport f.raw)
      else if p.qpn < qpBase then .next s'
      else .next (s'.packetFor (p.qpn - qpBase) port f)
    | _ => .next s

/-- CNP_RX: the CNP at the front of a port's buffer cuts the rate of its context. -/
def execCnpRx (port : Nat) (s : State) : Host.Outcome State Fault Refusal :=
  match s.popFrame port with
  | none => .next s
  | some (f, s') =>
    match f.body with
    | .roce p => if p.op = 0x81 then .next (if p.qpn < qpBase then s' else s'.packetFor (p.qpn - qpBase) port f) else .next s
    | _ => .next s

/-- TCP_SEGMENT_RX: the TCP segment at the front of a port's buffer is processed for its connection, or goes to software. -/
def execTcpSegmentRx (port : Nat) (s : State) : Host.Outcome State Fault Refusal :=
  match s.popFrame port with
  | none => .next s
  | some (f, s') =>
    match f.body with
    | .tcp g =>
      (match s'.tcpFor f.lport g with
        | some c => .next (s'.packetFor c port f)
        | none => .next (s'.slowFrame f.lport f.raw))
    | _ => .next s

/-- CTX_FETCH_DONE: the context is resident and its held packets are processed in arrival order, or it carries an
uncorrectable error: a queue pair enters ERR, a connection goes to software, and the Tally records either (R69). -/
def execCtxFetchDone (c : Nat) (bad : Bool) (s : State) : Host.Outcome State Fault Refusal :=
  match s.ctx c with
  | none => .next s
  | some x =>
    if !s.rails.fetches.contains c then .next s
    else
      let mine := s.rails.held.filter fun e => e.2.1 == c
      if bad ∧ x.tcp?.isSome = true then
        .next (((s.cacheCtx c).tcpHandback c St.unitFault).raise Ev.qpErr (some (railUnit x.rail)) (some c) [c])
      else
        let s := (s.dropHeld c).cacheCtx c
        if bad then .next (s.qpErr c (some St.unitFault)) else .next (mine.foldl (fun s e => s.packetRx c e.2.2) s)

/-! ## Timers (R62, R67, R75, R78, R80 to R82) -/

/-- RATE_RISE: the rise timer of a context raises its rate toward the target. -/
def execRateRise (c : Nat) (s : State) : Host.Outcome State Fault Refusal :=
  match s.ctx c with
  | none => .next s
  | some x =>
    if !s.due x.riseAt then .next s
    else
      let i := railIx x.rail
      let line := s.lineRate x.lport
      let t := if s.rd (RDMA_CC_CFG0.FAST_STAGES i) ≤ x.stage then min line (x.target + s.rd (RDMA_CC_CFG1.R_AI i)) else x.target
      let rate := (x.rate + t + 1) / 2
      .next (s.setCtx c { x with
        target := t, rate := rate, stage := x.stage + 1,
        riseAt := if rate = line then none else some (s.now + s.rd (RDMA_CC_CFG0.RISE_PERIOD i) * 1024) })

/-- LOCAL_ACK_TIMEOUT: what is unacknowledged is sent again, or the retry count is exhausted. -/
def execLocalAckTimeout (c : Nat) (s : State) : Host.Outcome State Fault Refusal :=
  match s.qp c with
  | none => .next s
  | some q => if s.due q.ackBy && (q.st == Qst.rts || q.st == Qst.sqd) then .next (s.retryFrom c q q.oldest) else .next s

/-- RNR_TIMER_EXPIRY: the requester resends, or its RNR retry count is exhausted; 7 means unlimited. -/
def execRnrTimerExpiry (c : Nat) (s : State) : Host.Outcome State Fault Refusal :=
  match s.qp c with
  | none => .next s
  | some q =>
    if !s.due q.rnrBy then .next s
    else if q.rnrRetry ≠ 7 ∧ q.rnrTries = 0 then .next (s.qpErr c (some St.rnrRetryExceeded))
    else
      let q := { q with rnrBy := none, rnrTries := if q.rnrRetry = 7 then q.rnrTries else q.rnrTries - 1 }
      .next (((s.setQp c q).resend c q.oldest).pump c 4096)

/-- MR_INVALIDATE_ACK: a Rail has marked its cached entry; the last one fixes the visibility point. -/
def execMrInvalidateAck (r : Rail) (key : Nat) (s : State) : Host.Outcome State Fault Refusal :=
  match s.rails.invs.find? (fun v => v.key == key && !v.visible && (if r == .a then v.waitA else v.waitB)) with
  | none => .next s
  | some v =>
    let w := if r = .a then { v with waitA := false } else { v with waitB := false }
    let s := s.setRails { s.rails with invs := s.rails.invs.map (fun u => if u = v then w else u) }
    .next (if w.waitA || w.waitB then s else s.invalVisible w)

/-- MR_DRAIN_LIMIT_EXPIRY: the queue pairs that still hold a message on the region enter ERR, and the invalidate completes. -/
def execMrDrainLimitExpiry (key : Nat) (s : State) : Host.Outcome State Fault Refusal :=
  match s.rails.invs.find? (fun v => v.key == key && v.visible && s.due v.limit) with
  | none => .next s
  | some v => .next ((((s.invalLeft v).holders.map (·.1)).eraseDups.foldl (fun s c => s.qpErr c none) s).invalSettle)

/-- ODP_RESUME: a write of RDMA_ODP_RESUME releases the held access of a context. -/
def execOdpResume (r : Rail) (c : Nat) (s : State) : Host.Outcome State Fault Refusal :=
  match s.ctx c with
  | none => .next s
  | some x =>
    match x.qp? with
    | none => .next s
    | some q =>
      if x.rail ≠ r then .next s
      else match q.hold with
        | none => .next s
        | some h =>
          let s := s.setQp c { q with hold := none }
          .next ((if !h.responder && q.outstanding then s.resend c q.oldest else s).pump c 4096)

/-- ODP_TIMEOUT_EXPIRY: an unresolved fault puts its queue pair into ERR. ODP_TIMEOUT is the status of the work request that
met the page: the send that could not be read, the READ whose data could not be placed, the receive of a SEND; a peer's WRITE or
READ has none here (log entry 57). -/
def execOdpTimeoutExpiry (c : Nat) (s : State) : Host.Outcome State Fault Refusal :=
  match s.ctx c with
  | none => .next s
  | some x =>
    match x.qp?.bind (fun q => q.hold.map (q, ·)) with
    | none => .next s
    | some (q, h) =>
      if s.passed (h.since + s.rd (RDMA_ODP_CFG.TIMEOUT (railIx x.rail)) * mgmtTick) then
        let s := s.raise Ev.odpTimeout (some (railUnit x.rail)) (some c) [c, h.iova]
        .next (if h.responder then s.qpErr c none false 0 (if h.send then some St.odpTimeout else none)
          else s.qpErr c (some St.odpTimeout) false (if h.send then (q.sq.findIdx? (!·.sent)).getD 0 else 0))
      else .next s

/-- A probe of a closed window: the next byte is sent into it (RFC 9293). -/
def State.tcpProbe (s : State) (c : Nat) (x : Ctx) (t : Tcp) : State :=
  let t' := { t with unsent := t.unsent.drop 1, sndNxt := seqAdd t.sndNxt 1, sent := [⟨t.sndNxt, t.unsent.take 1, s.now, true, true⟩] }
  ((s.setTcp c { t' with pins := t'.pins.filter fun e => seqLt t'.sndNxt e.1 }).sendTcp x t'
    (t'.seg s.now t.sndNxt (t.unsent.take 1) false) false).unpin t'.left

/-- TCP_RTO_EXPIRY: the oldest segment is sent again at the floor rate, and the rest are recovered after it; the eighth timeout in
a row hands the connection back. With nothing outstanding a closed window is probed. -/
def execTcpRtoExpiry (c : Nat) (s : State) : Host.Outcome State Fault Refusal :=
  match s.ctx c with
  | none => .next s
  | some x =>
    match x.tcp? with
    | none => .next s
    | some t =>
      if !s.due t.rtoBy then .next s
      else if t.sent.isEmpty then
        .next (s.tcpProbe c x (({ t with rto := min 1600000000 (2 * t.rto) } : Tcp).rearm s.now))
      else if 7 ≤ t.rtos then .next (s.tcpHandback c St.success)
      else
        let t := ({ t with rtos := t.rtos + 1, rto := min 1600000000 (2 * t.rto), recover := some t.sndNxt, sacked := [],
                           dupAcks := 0, cwrDue := t.cwrDue || t.ecnOn,
                           sent := t.sent.map (fun e => { e with again := false }) } : Tcp).rearm s.now
        let s := s.setCtx c { x with rate := s.rd (RDMA_CC_CFG1.R_MIN (railIx x.rail)), body := .tcp t }
        .next (match t.sent with
          | e :: _ => s.tcpResend c e
          | [] => s)

/-! ## Descriptors (R84 to R86) -/

/-- A Rail descriptor goes on where the Rail is ACTIVE; otherwise it completes RAIL_DOWN. -/
def State.railDesc (s : State) (r : Rail) (d : DescRef) (op : Nat) (k : Fetched → State) : Host.Outcome State Fault Refusal :=
  match s.startedAt (railUnit r) d op with
  | none => .next s
  | some f => .next (if s.railActive r then k f else s.finish (railUnit r) d St.railDown)

/-- Transport contexts (R68). -/
def ctxCount : Nat := 131072

/-- The context index of a descriptor, all of bytes 28 to 31: an index above 131,071 is QP_INVALID (R90). -/
def Fetched.ctx (f : Fetched) : Nat := f.at 28 4

/-- Whether one more context of a Rail may be pinned. -/
def State.pinRoom (s : State) (r : Rail) (c : Nat) : Bool :=
  decide ((s.rails.ctxs.filter fun e => e.2.rail == r && e.2.pin && e.1 != c).length < 4096)

/-- The attributes QP_MODIFY binds at INIT. -/
def Fetched.initQp (f : Fetched) (q : Qp) : Qp :=
  { q with st := Qst.init, gid := f.at 34 1, pd := f.at 52 4 % 2 ^ 20, odp := (f.at 51 1).testBit 1,
           rw := (f.at 51 1).testBit 3, rr := (f.at 51 1).testBit 4 }

/-- The attributes set with the path at RTR. -/
def Fetched.rtrQp (f : Fetched) (q : Qp) : Qp :=
  { q with st := Qst.rtr, path := slice (f.imgs.getD 1 []) 4 28, dqpn := f.at 36 4 % 2 ^ 24, rqPsn := f.at 44 4 % 2 ^ 24,
           pmtu := f.at 35 1, minRnr := f.at 50 1 % 32 }

/-- The attributes set at RTS. -/
def Fetched.rtsQp (f : Fetched) (q : Qp) : Qp :=
  { q with st := Qst.rts, sqPsn := f.at 40 4 % 2 ^ 24, timeout := f.at 48 1 % 32, retry := f.at 49 1 % 8,
           rnrRetry := f.at 49 1 / 16 % 8, tries := f.at 49 1 % 8, rnrTries := f.at 49 1 / 16 % 8 }

/-- The attributes applied in SQD. R69 names none: taken are those that a queue pair may change without losing its PSNs, which
are timeout, retry counts, minimum RNR timer, the ODP and access flags, and the path where a continuation brings one (log
entry 57). -/
def Fetched.sqdQp (f : Fetched) (q : Qp) (st : Nat) : Qp :=
  { q with st := st, timeout := f.at 48 1 % 32, retry := f.at 49 1 % 8, rnrRetry := f.at 49 1 / 16 % 8,
           minRnr := f.at 50 1 % 32, odp := (f.at 51 1).testBit 1, rw := (f.at 51 1).testBit 3, rr := (f.at 51 1).testBit 4,
           path := if f.imgs.length = 2 then slice (f.imgs.getD 1 []) 4 28 else q.path }

/-- QP_MODIFY to INIT on a context in RESET: it is bound to its logical port. -/
def State.qpInit (s : State) (r : Rail) (d : DescRef) (f : Fetched) (c : Nat) : State :=
  let x := railLport r (f.at 33 1 % 8)
  let pin := (f.at 51 1).testBit 0
  if !s.lportActive x then s.finish (railUnit r) d St.portModeInvalid
  else if pin && !s.pinRoom r c then s.finish (railUnit r) d St.ctxFull
  else
    let s := s.setCtx c {
      rail := r, lport := x, parlour := (f.at 51 1).testBit 2, pin := pin, resident := false,
      rate := s.lineRate x, target := s.lineRate x, body := .qp (f.initQp {}) }
    (s.cacheCtx c).finish (railUnit r) d St.success Qst.init

/-- The transitions of R69 on a bound queue pair, other than to RESET and ERR. INIT to INIT binds GID index, protection domain and
access flags anew; logical port, owner and pin stay as they were bound until the next RESET (R68, log entry 57). A TIMEOUT that
R67 does not support fails as a reserved value (log entry 57). -/
def State.qpMove (s : State) (r : Rail) (d : DescRef) (f : Fetched) (c : Nat) (q : Qp) (n : Nat) : State :=
  let u := railUnit r
  let toRts := (q.st == Qst.rtr && n == Qst.rts) || (q.st == Qst.sqd && (n == Qst.rts || n == Qst.sqd))
  if toRts && !timeoutOk (f.at 48 1 % 32) then s.finish u d St.rsvdNonzero
  else if q.st = Qst.init ∧ n = Qst.init then (s.setQp c (f.initQp q)).finish u d St.success Qst.init
  else if q.st = Qst.init ∧ n = Qst.rtr ∧ f.imgs.length = 2 then (s.setQp c (f.rtrQp q)).finish u d St.success Qst.rtr
  else if q.st = Qst.rtr ∧ n = Qst.rts then ((s.setQp c (f.rtsQp q)).finish u d St.success Qst.rts).pump c 4096
  else if q.st = Qst.rts ∧ n = Qst.sqd then (s.setQp c { q with st := Qst.sqd, sqd := q.sqd ++ [(d, q.sqPsn)] }).sqdDone c
  else if q.st = Qst.sqd ∧ (n = Qst.rts ∨ n = Qst.sqd) then ((s.setQp c (f.sqdQp q n)).finish u d St.success n).pump c 4096
  else s.finish u d St.qpStateInvalid

/-- QP_MODIFY. RAIL_DOWN answers it on a Rail that is FAILED or OFF (R90), but for a move to RESET on a FAILED one (R87). One that
waits for its sends (RTS to SQD) is not carried out again. -/
def execQpModify (r : Rail) (d : DescRef) (s : State) : Host.Outcome State Fault Refusal :=
  let u := railUnit r
  match s.startedAt u d Op.qpModify with
  | none => .next s
  | some f =>
    let c := f.ctx
    let n := f.at 32 1
    let failed := s.rd (RAIL_STATUS.STATE (railIx r)) == Rst'.failed
    if !s.railActive r ∧ !(failed && n == Qst.reset) then .next (s.finish u d St.railDown)
    else if ctxCount ≤ c then .next (s.finish u d St.qpInvalid)
    else match s.ctx c with
      | none =>
        if n = Qst.reset then .next (s.finish u d St.success Qst.reset)
        else if n = Qst.init then .next (s.qpInit r d f c)
        else .next (s.finish u d St.qpInvalid)
      | some x =>
        if x.rail ≠ r then .next (s.finish u d St.qpInvalid)
        else match x.qp? with
          | none => .next (s.finish u d St.qpInvalid)
          | some q =>
            if q.sqd.any (fun e => e.1 == d) then .next s
            else if n = Qst.reset then .next ((s.ctxReset c).finish u d St.success Qst.reset)
            else if n = Qst.err then .next ((s.qpErr c none true).finish u d St.success Qst.err)
            else .next ((s.useCtx c).qpMove r d f c q n)

/-- QP_QUERY: the context image, whose layout the manual does not give, goes to the buffer (log entry 8). -/
def execQpQuery (r : Rail) (d : DescRef) (s : State) : Host.Outcome State Fault Refusal :=
  let u := railUnit r
  s.railDesc r d Op.qpQuery fun f =>
    if f.len ≠ 512 then s.finish u d St.lengthMismatch
    else match s.ctx f.ctx with
      | none => s.finish u d St.qpInvalid
      | some x =>
        if x.rail ≠ r then s.finish u d St.qpInvalid
        else match s.draw.dmaWrite u f.dst (s.freeBytes 512) (some d.ring) with
          | .error e => s.finishDma u d e
          | .ok s => s.finish u d St.success

/-- MR_REGISTER. -/
def execMrRegister (d : DescRef) (s : State) : Host.Outcome State Fault Refusal :=
  match s.startedAt .railC d Op.mrRegister with
  | none => .next s
  | some f =>
    let key := f.at 28 4
    let fl := f.at 36 1
    if 2 ^ s.rd RDMA_MR_TABLE.LOG2_ENTRIES ≤ key / 256 then .next (s.finish .railC d St.mrInvalid)
    else
      let m : Mr := { key := key, base := f.src, len := f.len, pd := f.at 32 4 % 2 ^ 20, localWrite := fl.testBit 0,
                      remoteWrite := fl.testBit 1, remoteRead := fl.testBit 2, odp := fl.testBit 3, raddr := f.at 40 8 }
      .next ((s.setRails { s.rails with mrs := Tab.set s.rails.mrs (key / 256) m }).finish .railC d St.success)

/-- MR_INVALIDATE: sent to every Rail that is not FAILED. -/
def execMrInvalidate (d : DescRef) (s : State) : Host.Outcome State Fault Refusal :=
  match s.startedAt .railC d Op.mrInvalidate with
  | none => .next s
  | some f =>
    if s.rails.invs.any (fun v => v.desc == some d) then .next s
    else if (s.mr (f.at 28 4)).isNone then .next (s.finish .railC d St.mrInvalid)
    else .next (s.invalBegin (f.at 28 4) (some d) none)

/-- The queue pair a posting descriptor names, its context resident and used. -/
def State.postQp (s : State) (r : Rail) (d : DescRef) (f : Fetched) (k : State → Nat → Qp → State) : State :=
  match s.ctx f.ctx with
  | none => s.finish (railUnit r) d St.qpInvalid
  | some x =>
    match x.qp? with
    | none => s.finish (railUnit r) d St.qpInvalid
    | some q =>
      if x.rail ≠ r then s.finish (railUnit r) d St.qpInvalid
      else if q.st = Qst.err then s.finish (railUnit r) d St.flushed
      else k (s.useCtx f.ctx) f.ctx q

/-- POST_SEND: the request joins the send queue; it completes when it is acknowledged. -/
def execPostSend (r : Rail) (d : DescRef) (s : State) : Host.Outcome State Fault Refusal :=
  s.railDesc r d Op.postSend fun f => s.postQp r d f fun s c q =>
    let verb := f.at 6 1
    if 5 < verb then s.finish (railUnit r) d St.rsvdNonzero
    else if !lengthOk f.len then s.finish (railUnit r) d St.lengthMismatch
    else if q.st ≠ Qst.rts ∧ q.st ≠ Qst.sqd then s.finish (railUnit r) d St.qpStateInvalid
    else if q.sq.any (fun w => w.owner == .desc d) then s
    else
      let w : SendWr := { owner := .desc d, verb := verb, addr := f.src, len := f.len, lkey := f.at 32 4, raddr := f.at 40 8,
                          rkey := f.at 36 4, imm := if verb = 2 then f.at 36 4 else f.at 48 4 }
      (s.setQp c { q with sq := q.sq ++ [w] }).pump c 4096

/-- POST_RECV: the buffer joins the receive queue. A failed check of its key puts a queue pair in RTS or SQD into ERR (R69). -/
def execPostRecv (r : Rail) (d : DescRef) (s : State) : Host.Outcome State Fault Refusal :=
  s.railDesc r d Op.postRecv fun f => s.postQp r d f fun s c q =>
    if q.st = Qst.reset then s.finish (railUnit r) d St.qpStateInvalid
    else if q.rq.any (fun w => w.d == d) then s
    else match s.localCheck q (f.at 32 4) f.dst f.len true with
      | some e =>
        let s := s.finish (railUnit r) d e
        if q.st = Qst.rts ∨ q.st = Qst.sqd then s.qpErr c none else s
      | none => s.setQp c { q with rq := q.rq ++ [⟨d, f.dst, f.len, f.at 32 4⟩] }

/-- The default tag that a software's frame without a tag of its own (EtherType 0x8100) leaves with. -/
def State.slowTag (s : State) (x : Nat) (bs : List Byte) : Option (Nat × Nat) :=
  if (bs.drop 12).take 2 = [0x81, 0x00] then none else s.lportTag x

/-- PKT_TX: a slow-path frame is sent at a logical port. -/
def execPktTx (r : Rail) (d : DescRef) (s : State) : Host.Outcome State Fault Refusal :=
  let u := railUnit r
  s.railDesc r d Op.pktTx fun f =>
    let x := railLport r (f.at 6 1 % 8)
    if 7 < f.at 6 1 ∨ !s.lportActive x then s.finish u d St.portModeInvalid
    else if f.len = 0 ∨ s.rd (RAIL_PORT_CFG.MTU (x / 8) (x / 4 % 2)) < f.len then s.finish u d St.lengthMismatch
    else match s.dmaRead u f.src f.len (some d.ring) with
      | .error e => s.finishDma u d e
      | .ok bs => (s.emit (.frame x (s.slowTag x bs) bs)).finish u d St.success

/-- PKT_RX_BUF: a buffer for slow-path frames, used at once where one is kept. -/
def execPktRxBuf (r : Rail) (d : DescRef) (s : State) : Host.Outcome State Fault Refusal :=
  let u := railUnit r
  s.railDesc r d Op.pktRxBuf fun f =>
    if f.phase = .waiting then s
    else if f.len < 9216 then s.finish u d St.lengthMismatch
    else (s.setPhase u d .waiting).slowDrain r

/-- The connection a TCP_INSTALL describes. -/
def Fetched.tcp (f : Fetched) : Tcp :=
  let path := slice (f.imgs.getD 1 []) 4 28
  let scale := f.at 48 1
  let opt := f.at 49 1
  { lport := f.at 32 2, rport := f.at 34 2, remote := path.take 16, path := path, gid := f.at 58 1, sndUna := f.at 36 4,
    sndNxt := f.at 36 4, rcvNxt := f.at 40 4, sndWnd := f.at 44 4, sndScale := scale % 16, rcvScale := scale / 16,
    wl1 := f.at 40 4, wl2 := f.at 36 4, sackOn := opt.testBit 0, tsOn := opt.testBit 1, ecnOn := opt.testBit 2, mss := f.at 50 2, tsRecent := f.at 52 4,
    hdgst := (f.at 56 1).testBit 0, ddgst := (f.at 56 1).testBit 1 }

/-- TCP_INSTALL: an established connection takes a context that is in RESET. An LPORT above 7 is no port of the Rail. -/
def execTcpInstall (r : Rail) (d : DescRef) (s : State) : Host.Outcome State Fault Refusal :=
  let u := railUnit r
  s.railDesc r d Op.tcpInstall fun f =>
    let c := f.ctx
    let x := railLport r (f.at 57 1)
    let pin := (f.at 49 1).testBit 3
    if ctxCount ≤ c then s.finish u d St.qpInvalid
    else match s.ctx c with
    | some y => s.finish u d (if y.rail ≠ r then St.qpInvalid else St.qpStateInvalid)
    | none =>
      if f.imgs.length ≠ 2 then s.finish u d St.qpStateInvalid
      else if 7 < f.at 57 1 ∨ !s.lportActive x then s.finish u d St.portModeInvalid
      else if pin && !s.pinRoom r c then s.finish u d St.ctxFull
      else
        let s := s.setCtx c {
          rail := r, lport := x, parlour := true, pin := pin, resident := false,
          rate := s.lineRate x, target := s.lineRate x, body := .tcp { f.tcp with tsAt := s.now } }
        (s.cacheCtx c).finish u d St.success

/-- TCP_RELEASE: the connection goes back to software through the slow path, and its sequence state into the completion. -/
def execTcpRelease (r : Rail) (d : DescRef) (s : State) : Host.Outcome State Fault Refusal :=
  let u := railUnit r
  s.railDesc r d Op.tcpRelease fun f =>
    match s.ctx f.ctx with
    | none => s.finish u d St.qpInvalid
    | some x =>
      match x.tcp? with
      | none => s.finish u d St.qpInvalid
      | some t =>
        if x.rail ≠ r then s.finish u d St.qpInvalid
        else (s.tcpHandback f.ctx St.success).finish u d St.success 0 (t.sndNxt + t.rcvNxt * 2 ^ 32)

/-- ODP_WAIT: waits for the next report of the Rail. -/
def execOdpWait (r : Rail) (d : DescRef) (s : State) : Host.Outcome State Fault Refusal :=
  s.railDesc r d Op.odpWait fun f =>
    if f.phase = .waiting then s else (s.setPhase (railUnit r) d .waiting).odpDeliver r 257

end Sys2Proof.Machine
end

