-- ==== Sys2Proof/Machine/Rings.lean ====
section
/-! DEFINITION. Rings and doorbells: the slots, the ring state machine, fetching and starting descriptors (R45 to R59,
R526 to R528). -/
namespace Sys2Proof.Machine
open Sys2Proof

/-! ## Units that hold their work while EN is 0 (R528) -/

/-- The EN field of the ten units of R528. -/
def unitEn : UnitId → Option Fld
  | .par => some PAR_CTL.EN | .sep => some SEP_CTL.EN | .churn => some CHURN_CTL.EN | .press => some PRESS_CTL.EN
  | .ven => some VEN_CTL.EN | .carc => some CARC_CTL.EN | .cell => some CELL_CTL.EN | .lease => some LEASE_CTL.EN
  | .vat => some VAT_CTL.EN | .mtr => some MTR_CTL.EN
  | _ => none

/-- Whether a unit fetches and starts descriptors. -/
def State.unitWorks (s : State) (u : UnitId) : Bool :=
  match unitEn u with
  | some f => s.on f
  | none => true

/-! ## Doorbells (R55, R56) -/

/-- Offset of a doorbell register from the doorbell base of its window. -/
def doorbellOff (u : UnitId) (r reg : Nat) : Nat := unitK u * 0x40000 + r / 64 * 0x1000 + r % 64 * 0x40 + reg

/-- An access error of a ring's control write in the wrong state (KIND 6), or of a ring that is not there (KIND 5). -/
def State.ringRefused (s : State) (u : UnitId) (r : Nat) (origin : Origin) : State :=
  s.unitErr u origin.toNat (errOffset (unitBase u + 0x100018 + r * 0x40)) (if r < unitRings u then 6 else 5)

/-- Whether a doorbell write goes on: to a ring that exists, from an origin RING_OWNER accepts. -/
def State.doorbellOk (s : State) (u : UnitId) (r : Nat) (origin : Origin) : Bool :=
  decide (r < unitRings u) && s.ringAccepts u r origin.toNat

/-- A dropped doorbell write: KIND 4, and EV_DB_FOREIGN where the origin is the reason. -/
def State.doorbellDropped (s : State) (u : UnitId) (r reg : Nat) (origin : Origin) : State :=
  let s := s.unitErr u origin.toNat (doorbellOff u r reg) 4
  if r < unitRings u then s.raise Ev.dbForeign (some u) (some r) [r] (some origin.toNat) else s

/-- The indices from `a` up to but not including `b` in a ring of `size`. -/
def ringSpan (a b size : Nat) : Nat := (b + size - a) % size

/-- The origin of each newly published index. -/
def noteOrigins (t : Tab Nat) (a n size origin : Nat) : Tab Nat :=
  (List.range n).foldl (fun t i => Tab.set t ((a + i) % size) origin) t

/-- DB_PROD_WRITE: descriptors up to the new producer index are published (R56, R58). On a ring that is DISABLED or in
ERROR only the slot's read-back changes. -/
def execDbProdWrite (origin : Origin) (u : UnitId) (ring value : Nat) (s : State) : Host.Outcome State Fault Refusal :=
  if !s.originThere origin.toNat then .next s
  else if !s.doorbellOk u ring origin then .next (s.doorbellDropped u ring 0 origin)
  else
    let v := value % 65536
    let s := s.setRing u ring { s.ring u ring with dbProd := v }
    let st := s.ringSt u ring
    if st = Rst.disabled ∨ st = Rst.error then .next s
    else
      let size := s.ringSize u ring
      if size ≤ v then .next (s.ringError u ring 1)
      else
        let x := s.ring u ring
        .next (s.setRing u ring { x with
          prod := v, origins := noteOrigins x.origins x.prod (ringSpan x.prod v size) size origin.toNat })

/-- Entries a completion head of `v` releases: all of them where it equals the head and every entry is posted. -/
def releases (x : Ring) (v size : Nat) : Nat :=
  if v = x.chead then (if x.posted = size then size else 0) else ringSpan x.chead v size

/-- DB_CHEAD_WRITE: completion entries are released (R56). A value at or above the ring size names no entry; it counts as one
that would release an entry not yet posted and puts the ring into ERROR with cause 2 (DESIGN CHOICE, log entry 120). -/
def execDbCheadWrite (origin : Origin) (u : UnitId) (ring value : Nat) (s : State) : Host.Outcome State Fault Refusal :=
  if !s.originThere origin.toNat then .next s
  else if !s.doorbellOk u ring origin then .next (s.doorbellDropped u ring 8 origin)
  else
    let v := value % 65536
    let s := s.setRing u ring { s.ring u ring with dbChead := v }
    let st := s.ringSt u ring
    if st = Rst.disabled ∨ st = Rst.error then .next s
    else
      let size := s.ringSize u ring
      let x := s.ring u ring
      if size ≤ v ∨ x.posted < releases x v size then .next (s.ringError u ring 2)
      else .next (s.setRing u ring { x with chead := v, posted := x.posted - releases x v size })

/-- The word a doorbell slot returns: DB_PROD with CONS_IDX, DB_CHEAD with CPL_IDX, 0 elsewhere and for a ring that is not
there (R41, R55). `off` counts from the doorbell base of unit `u`. -/
def State.doorbellWord (s : State) (u : UnitId) (off : Nat) : Nat :=
  let r := off / 0x1000 * 64 + off % 0x1000 / 0x40
  let b := unitBase u
  if unitRings u ≤ r then 0
  else if off % 0x40 / 8 = 0 then (s.ring u r).dbProd + s.rd (RING_STATUS.CONS_IDX b r) * 2 ^ 16
  else if off % 0x40 / 8 = 1 then (s.ring u r).dbChead + s.rd (RING_STATUS.CPL_IDX b r) * 2 ^ 16
  else 0

/-- DOORBELL_BAD_ACCESS: an access of a doorbell page. One that is not a naturally aligned 4-byte or 8-byte one is discarded and
recorded as KIND 4, and as a read gives a core a load access fault. An aligned read returns the slot; an aligned write to
0x10 and above of a slot is ignored, or recorded as KIND 4 where the ring is not there (R41, R54, R55); writes of DB_PROD and
DB_CHEAD are commands of their own. `off` counts from the doorbell base of unit `u`. -/
def execDoorbellBadAccess (origin : Origin) (u : UnitId) (off : Nat) (size : AccSize) (store : Bool) (s : State) :
    Host.Outcome State Fault Refusal :=
  if 0x40000 ≤ off ∨ !s.originThere origin.toNat then .next s
  else if off % size.bytes = 0 ∧ 4 ≤ size.bytes then
    if store then
      if unitRings u ≤ off / 0x1000 * 64 + off % 0x1000 / 0x40 ∧ 0x10 ≤ off % 0x40 then
        .next (s.unitErr u origin.toNat (unitK u * 0x40000 + off) 4)
      else .next s
    else .next (s.readReturn (some (s.doorbellWord u off / 2 ^ (8 * (off % 8)) % 2 ^ (8 * size.bytes))))
  else
    let s := s.unitErr u origin.toNat (unitK u * 0x40000 + off) 4
    if store then .next s
    else .next ((s.readReturn none).coreFault origin.toNat (0xE00000000000 + unitN u * 0x100000 + unitK u * 0x40000 + off) false)

/-! ## The ring state machine (R57, R527) -/

/-- The end of the DRAM range of R37. -/
def dramEnd : Nat := 0x030000000000

/-- Whether the configuration of a ring is valid at enable (R527). -/
def State.ringValid (s : State) (u : UnitId) (r : Nat) : Bool :=
  let b := unitBase u
  let l := s.rd (RING_CFG.LOG2_SIZE b r)
  decide (4 ≤ l) && decide (l ≤ 16) && decide (s.rd (RING_DBASE.BASE b r) * 4096 + 64 * 2 ^ l ≤ dramEnd)
    && decide (s.rd (RING_CBASE.BASE b r) * 4096 + 16 * 2 ^ l ≤ dramEnd)

/-- A ring ACTIVE with its indices at 0. ERR_CAUSE keeps the cause of an earlier ERROR until here: R57 does not say when it
returns to 0 (DESIGN CHOICE, log entry 120). -/
def State.ringActivate (s : State) (u : UnitId) (r : Nat) : State :=
  let b := unitBase u
  let s := (((s.wr (RING_CTL.EN b r) 1).wr (RING_STATUS.STATE b r) Rst.active).wr (RING_STATUS.ERR_CAUSE b r) 0).wr
    (RING_STATUS.CONS_IDX b r) 0
  let s := (s.wr (RING_STATUS.CPL_IDX b r) 0).wr (RING_STATUS.CPL_PHASE b r) 1
  s.setRing u r { dbProd := (s.ring u r).dbProd, dbChead := (s.ring u r).dbChead }

/-- RING_ENABLE: a DISABLED ring becomes ACTIVE, or ERROR with cause 6 where its configuration is invalid (R57). A failed
enable resets the indices and the phase as a successful one does (DESIGN CHOICE, log entry 120). -/
def execRingEnable (origin : Origin) (u : UnitId) (ring : Nat) (s : State) : Host.Outcome State Fault Refusal :=
  if unitRings u ≤ ring ∨ s.ringSt u ring ≠ Rst.disabled then .next (s.ringRefused u ring origin)
  else if s.ringValid u ring then .next (s.ringActivate u ring)
  else .next ((s.ringActivate u ring).ringError u ring 6)

/-- What a unit gives up when one of its rings becomes DISABLED: pails (R377), Press contexts (R182). -/
def State.ringGone (s : State) (u : UnitId) (r : Nat) : State :=
  match u with
  | .vat => s.vatRingGone r
  | .press => s.pressRingGone r
  | _ => s

/-- A ring becomes DISABLED; registers keep their values. -/
def State.ringDisabled (s : State) (u : UnitId) (r : Nat) : State :=
  let s := (s.wr (RING_CTL.EN (unitBase u) r) 0).wr (RING_STATUS.STATE (unitBase u) r) Rst.disabled
  (s.setRing u r { s.ring u r with disabling := false }).ringGone u r

/-- Opcodes whose started descriptors wait for an event outside the unit's control (R527). -/
def waitsOutside (u : UnitId) (op : Nat) : Bool :=
  match u with
  | .vat => op == Op.pailAlloc
  | .par => op == Op.adminFetch
  | .railA | .railB => op == Op.postRecv || op == Op.pktRxBuf || op == Op.odpWait
  | .ten => op == Op.mailRecv
  | .lease => op == Op.eventWait
  | .mgt => op == Op.frameRxBuf
  | _ => false

/-- A queue pair without the receive a descriptor posted. -/
def Ctx.unpost (x : Ctx) (d : DescRef) : Ctx :=
  match x.body with
  | .qp q => { x with body := .qp { q with rq := q.rq.filter fun w => w.d != d } }
  | .tcp _ => x

/-- Whether a message is being placed in the buffer of a POST_RECV, which then no longer waits. -/
def Ctx.placing (x : Ctx) (d : DescRef) : Bool :=
  match x.body with
  | .qp q => (match q.cur, q.rq with
    | some m, w :: _ => !m.write && w.d == d
    | _, _ => false)
  | .tcp _ => false

/-- A waiting descriptor is withdrawn: it completes with RING_STOPPED, takes nothing and holds nothing (R527). -/
def State.withdraw (s : State) (u : UnitId) (r : Nat) (f : Fetched) : State :=
  let d : DescRef := ⟨r, f.slot⟩
  (match u with
    | .vat => s.vatWithdraw d
    | .railA | .railB => { s with rails := { s.rails with
        ctxs := Tab.mapV s.rails.ctxs fun _ x => if railUnit x.rail = u then x.unpost d else x } }
    | _ => s).finish u d St.ringStopped

/-- Whether a descriptor is still waiting in the sense of R527. -/
def State.stillWaits (s : State) (u : UnitId) (r : Nat) (f : Fetched) : Bool :=
  f.phase != .fetched && waitsOutside u f.opcode
    && !s.rails.ctxs.any fun e => railUnit e.2.rail == u && e.2.placing ⟨r, f.slot⟩

/-- Every waiting descriptor of a ring is withdrawn. -/
def State.withdrawAll (s : State) (u : UnitId) (r : Nat) : State :=
  ((s.ring u r).fetched.filter (s.stillWaits u r)).foldl (fun s f => s.withdraw u r f) s

/-- Every descriptor that is fetched and not started completes with RING_STOPPED (R57). -/
def State.flushFetched (s : State) (u : UnitId) (r : Nat) : State :=
  ((s.ring u r).fetched.filter (·.phase == .fetched)).foldl (fun s f => s.finish u ⟨r, f.slot⟩ St.ringStopped) s

/-- RING_DISABLE: RING_CTL.EN ← 0 on a STOPPED ring, or on a ring in ERROR, whose waiting descriptors are withdrawn. -/
def execRingDisable (origin : Origin) (u : UnitId) (ring : Nat) (s : State) : Host.Outcome State Fault Refusal :=
  if unitRings u ≤ ring then .next (s.ringRefused u ring origin)
  else if s.ringSt u ring = Rst.stopped then .next (s.ringDisabled u ring)
  else if s.ringSt u ring = Rst.error then
    let s := (s.wr (RING_CTL.EN (unitBase u) ring) 0).setRing u ring { s.ring u ring with disabling := true }
    .next (s.withdrawAll u ring)
  else .next (s.ringRefused u ring origin)

/-- RING_DISABLE_DONE: with every fetched descriptor completed, a ring disabled from ERROR becomes DISABLED (R527). -/
def execRingDisableDone (u : UnitId) (ring : Nat) (s : State) : Host.Outcome State Fault Refusal :=
  if s.ringSt u ring = Rst.error ∧ (s.ring u ring).disabling = true ∧ (s.ring u ring).fetched = [] then
    .next (s.ringDisabled u ring)
  else .next s

/-- RING_STOP: an ACTIVE ring becomes STOPPING, in drain or flush mode; a flush withdraws what waits and completes what has
not started (R57, R527). -/
def execRingStop (origin : Origin) (u : UnitId) (ring : Nat) (flush : Bool) (s : State) : Host.Outcome State Fault Refusal :=
  if unitRings u ≤ ring ∨ s.ringSt u ring ≠ Rst.active then .next (s.ringRefused u ring origin)
  else
    let b := unitBase u
    let s := ((s.wr (RING_STATUS.STATE b ring) Rst.stopping).wr (RING_CTL.STOP b ring) 1).wr (RING_CTL.FLUSH b ring)
      (if flush then 1 else 0)
    let s := s.setRing u ring { s.ring u ring with stopAt := (s.ring u ring).prod }
    if flush then .next ((s.withdrawAll u ring).flushFetched u ring) else .next s

/-! ## Fetching (R49, R52) -/

/-- The images of the descriptor or chain at index `i`, up to `n` descriptors: `none` inside where the chain has no end
among them. -/
def State.fetchChain (s : State) (u : UnitId) (r i : Nat) : Nat → Except DmaErr (Option (List (List Byte)))
  | 0 => .ok none
  | n + 1 =>
    match s.dmaRead u (s.rd (RING_DBASE.BASE (unitBase u) r) * 4096 + i % s.ringSize u r * 64) 64 (some r) with
    | .error e => .error e
    | .ok img =>
      if (fieldAt img 1 1).testBit 2 then
        match s.fetchChain u r (i + 1) n with
        | .ok (some rest) => .ok (some (img :: rest))
        | x => x
      else .ok (some [img])

/-- The index up to which a ring fetches: the producer index, or that of the STOP write while it drains. -/
def State.fetchLimit (s : State) (u : UnitId) (r : Nat) : Nat :=
  if s.ringSt u r = Rst.stopping then (s.ring u r).stopAt else (s.ring u r).prod

/-- Whether a ring fetches at all: ACTIVE, or draining. -/
def State.fetching (s : State) (u : UnitId) (r : Nat) : Bool :=
  s.ringSt u r == Rst.active || (s.ringSt u r == Rst.stopping && !s.on (RING_CTL.FLUSH (unitBase u) r))

/-- Descriptors published and not fetched, up to the limit. -/
def State.unfetched (s : State) (u : UnitId) (r : Nat) : Nat :=
  ringSpan (s.rd (RING_STATUS.CONS_IDX (unitBase u) r)) (s.fetchLimit u r) (s.ringSize u r)

/-- Whether the completion ring has room for one more (R52). -/
def State.cplRoom (s : State) (u : UnitId) (r : Nat) : Bool :=
  decide ((s.ring u r).posted + (s.ring u r).fetched.length < s.ringSize u r)

/-- The cause a failed fetch puts into ERR_CAUSE. -/
def DmaErr.fetchCause : DmaErr → Nat
  | .poison => 4
  | _ => 3

/-- DESCRIPTOR_FETCH: the next descriptor or whole chain is fetched where the unit works, the ring fetches, something is
published, the completion ring has room, and the chain is published whole (R49, R52, R528). -/
def execDescriptorFetch (u : UnitId) (ring : Nat) (s : State) : Host.Outcome State Fault Refusal :=
  if unitRings u ≤ ring || !s.unitWorks u || !s.fetching u ring || s.unfetched u ring == 0 || !s.cplRoom u ring then .next s
  else
    let i := s.rd (RING_STATUS.CONS_IDX (unitBase u) ring)
    match s.fetchChain u ring i (s.unfetched u ring) with
    | .error e => .next ((s.dmaFailed u e).ringError u ring e.fetchCause)
    | .ok none => .next s
    | .ok (some imgs) =>
      let x := s.ring u ring
      let f : Fetched := ⟨i, imgs, .fetched, Tab.getD x.origins i 0⟩
      .next ((s.wr (RING_STATUS.CONS_IDX (unitBase u) ring) ((i + imgs.length) % s.ringSize u ring)).setRing u ring
        { x with fetched := x.fetched ++ [f] })

/-- A ring STOPPED. -/
def State.ringStopped (s : State) (u : UnitId) (r : Nat) : State :=
  (s.wr (RING_STATUS.STATE (unitBase u) r) Rst.stopped).wr (RING_CTL.STOP (unitBase u) r) 0

/-- A STOPPING ring with nothing fetched left becomes STOPPED: in flush mode, or where nothing is left to fetch. A chain at its
front that has been published in part completes first, with CHAIN_INCOMPLETE (R49). -/
def State.stopRest (s : State) (u : UnitId) (r : Nat) : State :=
  let b := unitBase u
  let flush := s.on (RING_CTL.FLUSH b r)
  if s.unfetched u r = 0 then s.ringStopped u r
  else match s.fetchChain u r (s.rd (RING_STATUS.CONS_IDX b r)) (s.unfetched u r) with
    | .ok none =>
      if !s.cplRoom u r then s
      else match s.dmaRead u (s.rd (RING_DBASE.BASE b r) * 4096 + s.rd (RING_STATUS.CONS_IDX b r) * 64) 64 (some r) with
        | .ok img =>
          ((s.post u r (fieldAt img 2 2) St.chainIncomplete 0 0 ((fieldAt img 1 1).testBit 1)).wr (RING_STATUS.CONS_IDX b r)
            (s.fetchLimit u r)).ringStopped u r
        | .error _ => if flush then s.ringStopped u r else s
    | _ => if flush then s.ringStopped u r else s

/-- RING_STOP_DONE: a STOPPING ring becomes STOPPED: in flush mode once nothing fetched is left, in drain mode once every
descriptor up to the STOP write has completed; an incomplete chain completes with CHAIN_INCOMPLETE (R49, R57). -/
def execRingStopDone (u : UnitId) (ring : Nat) (s : State) : Host.Outcome State Fault Refusal :=
  if s.ringSt u ring ≠ Rst.stopping then .next s
  else
    let s := if s.on (RING_CTL.FLUSH (unitBase u) ring) then (s.withdrawAll u ring).flushFetched u ring else s
    if (s.ring u ring).fetched.isEmpty then .next (s.stopRest u ring) else .next s

/-- RING_START: a STOPPED ring fetches again at CONS_IDX (R57). -/
def execRingStart (origin : Origin) (u : UnitId) (ring : Nat) (s : State) : Host.Outcome State Fault Refusal :=
  if unitRings u ≤ ring ∨ s.ringSt u ring ≠ Rst.stopped then .next (s.ringRefused u ring origin)
  else .next (s.wr (RING_STATUS.STATE (unitBase u) ring) Rst.active)

/-! ## Starting (R48, R526) -/

/-- Whether a fetched descriptor may start now: a FENCE waits for every earlier completion; any other waits for the start of
the earlier ones, unless it carries URGENT. -/
def mayStart (earlier : List Fetched) (f : Fetched) : Bool :=
  if f.fence then earlier.isEmpty
  else f.urgent || earlier.all fun g => g.phase != .fetched

/-- Whether a HASH waits for an earlier descriptor of its ring that names its context: they are processed in ring order (R183). -/
def pressHeld (u : UnitId) (earlier : List Fetched) (f : Fetched) : Bool :=
  u == .press && f.opcode == Op.hash && earlier.any fun g => pressCtxOf g == pressCtxOf f

/-- DESCRIPTOR_START: a fetched descriptor starts, or completes with the first general check it fails (R526). -/
def execDescriptorStart (u : UnitId) (d : DescRef) (s : State) : Host.Outcome State Fault Refusal :=
  match s.fetchedAt u d with
  | none => .next s
  | some f =>
    let earlier := (s.ring u d.ring).fetched.takeWhile (·.slot ≠ d.slot)
    if f.phase != .fetched || !s.unitWorks u || !mayStart earlier f || pressHeld u earlier f then .next s
    else match generalCheck u f with
      | none => .next (s.setPhase u d .started)
      | some st => if (auditedOp u f.opcode && !s.auditRoom) || !s.inOrder u d then .next s else .next (s.finish u d st)

/-- MSI_HOLDOFF_EXPIRY: the hold-off ends with one MSI for the NOTIFY completions posted meanwhile (R53). -/
def execMsiHoldoffExpiry (u : UnitId) (ring : Nat) (s : State) : Host.Outcome State Fault Refusal :=
  let x := s.ring u ring
  if !s.due x.holdUntil then .next s
  else if x.owed then
    .next ((s.msi u ring).setRing u ring { x with
      owed := false, holdUntil := some (s.now + s.rd (RING_MSI.HOLDOFF (unitBase u) ring) * 1024) })
  else .next (s.setRing u ring { x with holdUntil := none })

end Sys2Proof.Machine
end

