-- ==== Sys2Proof/Machine/ParExec.lean ====
section
/-! DEFINITION. Executing a host command: its checks, its parts by shard, its pails and payload, its blocks on the read and
write paths, forwarding (R34, R93 to R98, R107, R116 to R119, R122 to R126, R327, R328). -/
namespace Sys2Proof.Machine
open Sys2Proof

/-! ## Order among commands (R116, R124) -/

/-- Whether a command removes references rather than storing data. -/
def NvmeCmd.removes (c : NvmeCmd) : Bool := [Nop.writeZeroes, Nop.dsm, Nop.secure].contains c.op

/-- Whether `x` counts as dispatched before `c`: of a Secure Deallocate not yet begun and a Write dispatched in one tick, the
Write does (R129). -/
def NvmeCmd.before (x c : NvmeCmd) : Bool :=
  if x.tick = c.tick ∧ x.op = Nop.secure ∧ c.op = Nop.write ∧ !x.begun then false
  else if x.tick = c.tick ∧ x.op = Nop.write ∧ c.op = Nop.secure then true
  else decide (x.dispatchNo < c.dispatchNo)

/-- Whether `c` has to wait for the command `x` before it where they overlap: for a Secure Deallocate until its step 3 ends
(R124), for any other until it completes. -/
def NvmeCmd.bars (x c : NvmeCmd) (e : List Byte) : Bool :=
  if x.op = Nop.secure ∧ x.begun then x.vol == c.vol && x.blks.any fun b => (match b.step with
    | .sd _ | .done => false
    | _ => true) && c.touches e b.block b.count
  else x.overlaps c e

/-- Whether a command waits for one dispatched before it: one of the two is a Write Zeroes, a Dataset Management or a Secure
Deallocate, and they overlap (R116, R124). -/
def State.behindOther (s : State) (k : Nat) (c : NvmeCmd) : Bool :=
  c.mutates && s.par.cmds.any fun x => x.1 != k && x.2.stage == .running && x.2.before c && x.2.mutates &&
    (c.removes || x.2.removes) && x.2.bars c (s.cmdVol c)

/-! ## Checks before anything is done (R131) -/

/-- Whether a command's transport is RDMA; a forwarded command has no transport of its own. -/
def State.cmdRdma (s : State) (c : NvmeCmd) : Bool := ((c.ctx.bind s.ctx).bind Ctx.qp?).isSome

/-- Whether a range lies in a volume. -/
def inVolume (e : List Byte) (r : Nat × Nat) : Bool := decide (r.1 + r.2 ≤ volSize e * perBlock (volLbaf e))

/-- The data pointer of a command that transfers `n` bytes is of a type of R92 and covers them. -/
def State.sglOk (s : State) (c : NvmeCmd) (n : Nat) : Bool :=
  c.origin.isSome || (match c.segs (s.cmdRdma c) with
    | some gs => decide (n ≤ (gs.map (·.len)).sum) && gs.all fun g => !g.inCap || decide (g.len ≤ c.incap.length)
    | none => false)

/-- Fields that must be 0 or aligned in a Secure Deallocate (R122). -/
def NvmeCmd.sdFields (c : NvmeCmd) (e : List Byte) : Bool :=
  fieldAt c.sqe 24 16 == 0 && c.cdw 12 / 65536 == 0 && c.cdw 13 == 0 && c.cdw 14 == 0 && c.cdw 15 == 0 &&
    c.slba % perBlock (volLbaf e) == 0 && c.nlb % perBlock (volLbaf e) == 0

/-- Whether the fields that the command sets reserve for a command are 0: its flags but PSDT, its metadata pointer, and the
rest of the dwords it defines (R131; log entry 23). -/
def NvmeCmd.reservedOk (c : NvmeCmd) : Bool :=
  fieldAt c.sqe 1 1 % 64 == 0 && fieldAt c.sqe 16 8 == 0 &&
    (if c.op = Nop.write ∨ c.op = Nop.read then bitsOf (c.cdw 12) 16 8 == 0 && !c.deac && c.cdw 13 / 256 == 0
    else if c.op = Nop.writeZeroes then bitsOf (c.cdw 12) 16 8 == 0 && c.cdw 13 == 0
    else if c.op = Nop.verify then bitsOf (c.cdw 12) 16 8 == 0 && !c.deac && c.cdw 13 == 0
    else if c.op = Nop.dsm then c.cdw 10 / 256 == 0 && c.cdw 11 / 8 == 0 && c.cdw 12 == 0 && c.cdw 13 == 0 && c.cdw 14 == 0 && c.cdw 15 == 0
    else true)

/-- The status a command fails with before it does anything; 0: none. -/
def State.cmdRefused (s : State) (c : NvmeCmd) : Nat :=
  let e := s.cmdVol c
  let xfer := c.op == Nop.read || c.op == Nop.write
  if !s.nsOk c then Nv.namespace_
  else if !c.reservedOk then Nv.field
  else if xfer && (decide (2 ^ 20 < c.hostLen e) || !s.sglOk c (c.hostLen e)) then Nv.field
  else if c.op == Nop.dsm && !s.sglOk c c.rangeBytes then Nv.field
  else if c.op == Nop.secure && (!c.sdFields e || decide (65536 < c.nlb / perBlock (volLbaf e))) then Nv.field
  else if c.mutates && volLock e then Nv.denied
  else if c.ranged && !inVolume e (c.slba, c.nlb) then Nv.lbaRange
  else if (c.op == Nop.write || (c.op == Nop.writeZeroes && !c.deac)) && volThin e && s.on (CELL_POOL_STATUS.FULL (volPool e)) then
    Nv.capacity
  else 0

/-! ## Pails and payload (R102, R107, R366) -/

/-- Pail classes of commands: forwarded either way 4, reads 0, writes 1 (R365). -/
def NvmeCmd.pailCls (c : NvmeCmd) : Nat := if c.origin.isSome then 4 else if c.mutates then 1 else 0

/-- Pails asked for a command in groups of up to 16. -/
def State.askPails (s : State) (k cls : Nat) : Nat → Nat → State
  | 0, _ => s
  | fuel + 1, n => if n = 0 then s else (s.pailRequest (.ctx k) cls (min n 16)).askPails k cls fuel (n - 16)

/-- The pails a command needs are there; they are asked for once. -/
def State.pailsReady (s : State) (k n : Nat) : Bool × State :=
  match s.cmd k with
  | none => (false, s)
  | some c =>
    let s := if c.asked then s else (s.setCmd k { c with asked := true }).askPails k c.pailCls (n / 16 + 1) n
    (decide (n ≤ (s.pailsOf (.ctx k)).length), s)

/-- A command's payload of `n` bytes asked from the host, once: in-capsule data are there, from offset 0, the rest is pulled by
RDMA READs or an R2T (R92). -/
def State.pull (s : State) (k : Nat) (c : NvmeCmd) (n : Nat) : State :=
  let asked := c.need != 0
  let c := { c with need := n }
  if asked ∨ c.origin.isSome ∨ n ≤ c.buf.length then s.setCmd k c
  else match c.ctx, c.segs (s.cmdRdma c) with
    | some x, some gs =>
      let ic := (gs.filter (·.inCap)).flatMap fun g => c.incap.take g.len
      let s := s.setCmd k { c with buf := ic.take n }
      let rest := n - ic.length
      if rest = 0 then s
      else match (s.ctx x).map (fun (y : Ctx) => y.body) with
        | some (.qp _) =>
          ((gs.filter (!·.inCap)).foldl (fun (a : State × Nat) g =>
            if a.2 = 0 then a
            else (a.1.postWr x { owner := .pull k, verb := 5, addr := 0, len := min g.len a.2, raddr := g.addr, rkey := g.key },
              a.2 - min g.len a.2)) (s, rest)).1
        | some (.tcp t) => s.tcpSend x (pduBytes t 9 (leBytes 2 c.cid ++ leBytes 2 0 ++ leBytes 4 ic.length ++ leBytes 4 rest ++ zeros 4) [])
        | none => s
    | _, _ => s.setCmd k c

/-- The bytes of a pail. -/
def State.pailBytes (s : State) (p : Nat) : List Byte := Memory.readN s.mem (vatBase + p * 4096) 4096

/-- A block written into a pail. -/
def State.pailPut (s : State) (p : Nat) (bs : List Byte) : State := { s with mem := Memory.writeN s.mem (vatBase + p * 4096) bs }

/-! ## The plain data of a block (R34, R35, R97, R98) -/

/-- Tags of a block that no write has set: checks are off, as the NVM command set has it for deallocated blocks. -/
def freshTags (e : List Byte) : Nat × Nat := (0xFFFF, if volLbaf e = 2 then 2 ^ 48 - 1 else 2 ^ 32 - 1)

/-- Tags of the block a write-index entry holds: of the command that wrote it, or of the catalogue. -/
def State.widxTags (s : State) (e : WEntry) : Nat × Nat :=
  match s.par.cmds.findSome? fun x => if x.2.vol = e.vol then x.2.blks.find? fun b => b.block == e.block && b.dseq == e.dseq && x.2.mutates else none with
  | some b => (b.app, b.ref)
  | none => match s.catEntry e.vol e.block with
    | some x => (x.app, x.ref)
    | none => freshTags (s.volEntry e.vol)

/-- The plain block at once: from the write index or the medium, for a read-modify-write; none where it is unreadable. -/
def State.blockNow (s : State) (vol block : Nat) : Option (List Byte) × State :=
  match s.widxLookup vol block with
  | some e => (some (s.pailBytes e.pail), s)
  | none => match s.catEntry vol block with
    | none => (some (zeros 4096), s)
    | some e => if e.lost then (none, s) else s.storedBlock e.shard e.locator

/-! ## Reading (R34, R93, R96) -/

/-- Block `i` of a read or Verify delivered from its plain bytes. -/
def State.readBlock (s : State) (k i : Nat) (raw : List Byte) (tags : Nat × Nat) : State :=
  match s.blk k i with
  | none => s
  | some (c, b) =>
    let e := s.cmdVol c
    let bad := c.readCheck e raw b.block tags.1 tags.2
    let out := if c.op = Nop.read ∧ bad = 0 then c.readOut e raw b.block tags.1 tags.2 (Config.freeByte s.draws) else []
    (({ s with draws := s.draws + 1 }).setBlk k i { b with data := out }).blkDone k i bad

/-- Whether the chunk that holds a copy lies on a blade whose port is READY while the blade does not answer (R236). -/
def State.silentChunk (s : State) (sh l : Nat) : Bool :=
  if locJournal l then false
  else match s.wheel sh (locWheel l) with
    | none => false
    | some w =>
      let k := genK (s.genEntry w.pool w.gen)
      let x := locOff l
      match Tab.get? w.locs (x / (k * 65536) * 16 + x % (k * 65536) / 65536) with
      | some p => s.bldSt p.blade == Bst.ready && ((s.blade p.blade).map fun y => !y.powered || !y.rdy).getD true
      | none => false

/-- Block `i` of a read taken from the medium: its curd, still encrypted. -/
def State.readMedium (s : State) (k i : Nat) : State :=
  match s.blk k i with
  | none => s
  | some (c, b) => match s.catEntry c.vol b.block with
    | none => s.readBlock k i (zeros 4096) (freshTags (s.cmdVol c))
    | some e =>
      if e.lost then s.blkDone k i Nv.readError
      else
        let l := s.locNow e.shard e.locator
        if s.laneMissing e.shard l then s
        else match s.copyBytes e.shard l with
        | (some (bs, _), s) => s.setBlk k i { b with step := .cipher bs e.shard l (copyIdx l) }
        | (none, s) => s.blkDone k i Nv.readError

/-- Block `i` of a read begun: a write-index hit is pinned; a silent chunk is waited for. -/
def State.readBegin (s : State) (k i : Nat) : State :=
  match s.blk k i with
  | none => s
  | some (c, b) =>
    if b.step ≠ .wait then s
    else match s.widxLookup c.vol b.block with
      | some e =>
        let s := s.widxMap (fun x => x.vol == e.vol && x.block == e.block && x.dseq == e.dseq) (fun x => { x with pins := x.pins + 1 })
        (s.setBlk k i { b with pin := some e.dseq }).readBlock k i (s.pailBytes e.pail) (s.widxTags e)
      | none =>
        let silent := match s.catEntry c.vol b.block with
          | some e => !e.lost && s.silentChunk e.shard (s.locNow e.shard e.locator)
          | none => false
        if silent then s.setBlk k i { b with step := .chunk (s.inMgmt (s.rd CARC_REBUILD_CFG.RD_TIMEOUT)) } else s.readMedium k i

/-! ## Writing (R97, R107) -/

/-- The first step of a block whose data are there: fingerprint for a volume with DEDUP, else compression. -/
def firstStep (e : List Byte) : BlkStep := if volDedup e then .print else .press

/-- Whether an earlier write of the same block has not yet entered its data, so that a merge must wait for it. -/
def State.mergeWaits (s : State) (k : Nat) (c : NvmeCmd) (block : Nat) : Bool :=
  s.par.cmds.any fun x => x.1 != k && x.2.vol == c.vol && x.2.mutates && decide (x.2.dispatchNo < c.dispatchNo) && x.2.begun &&
    x.2.blks.any fun b => b.block == block && b.step == .wait

/-- The data of block `i` of a write or Write Zeroes: merged with the present block where the range covers only part of it
(R97). None where that cannot be read. -/
def State.blockData (s : State) (c : NvmeCmd) (block : Nat) : Option (List Byte) × State :=
  let e := s.cmdVol c
  if c.partialBlk e block then
    match s.blockNow c.vol block with
    | (some old, s) => (some (c.merged e old block), s)
    | (none, s) => (none, s)
  else (some (c.merged e (zeros 4096) block), s)

/-- Block `i` of a write entered: its data in pail `p` and in the write index (R107), or with no pail for zeros. -/
def State.enterBlock (s : State) (k i : Nat) (p : Option Nat) : State :=
  match s.blk k i with
  | none => s
  | some (c, b) =>
    let e := s.cmdVol c
    match s.blockData c b.block with
    | (none, s) => s.blkDone k i Nv.readError
    | (some d, s) =>
      let tags := if c.op = Nop.write then c.writeTags e b.block else (0, 0)
      let s := match p with
        | some p => (s.pailPut p d).widxInsert c.vol b.block p c.dispatchNo
        | none => s
      s.setBlk k i { b with
        data := d, step := firstStep e, pail := p, app := tags.1, ref := tags.2, dseq := c.dispatchNo }

/-- Every waiting block of a write entered. Answers whether they could be: each needs a pail of the command and room in the
write index, and a merge the data of the writes before it. -/
def State.enterBlocks (s : State) (k : Nat) : Bool × State :=
  match s.cmd k with
  | none => (false, s)
  | some c =>
    let e := s.cmdVol c
    let todo := c.blks.zipIdx.filter fun x => x.1.step == .wait
    let pails := (s.pailsOf (.ctx k)).filter fun p => !(s.vat.widx.any (·.pail == p))
    if pails.length < todo.length then (false, s)
    else if todo.any fun x => s.widxFull c.vol x.1.block then
      if c.widxWait then (false, s)
      else (false, ((s.setCmd k { c with widxWait := true }).bump VAT_STATUS.WIDX_WAITS 1).raise Ev.widxFull (some .vat))
    else if todo.any fun x => c.partialBlk e x.1.block && s.mergeWaits k c x.1.block then (false, s)
    else (true, (todo.zip pails).foldl (fun s x => s.enterBlock k x.1.2 (some x.2)) s)

/-! ## Deallocating (R98) -/

/-- The whole 4 KiB blocks of a range of logical blocks, as (first, count). -/
def wholeBlocks (lbaf : Nat) (r : Nat × Nat) : Nat × Nat :=
  let p := perBlock lbaf
  let a := (r.1 + p - 1) / p
  (a, (r.1 + r.2) / p - a)

/-- The parts of the whole blocks a command deallocates: (shard, first block, count). -/
def NvmeCmd.cleared (c : NvmeCmd) (e : List Byte) : List (Nat × Nat × Nat) :=
  let all := c.lbas.flatMap fun r =>
    let x := wholeBlocks (volLbaf e) r
    splitExtents c.vol (x.2 / 4096 + 2) x.1 x.2
  match c.only with
  | some sh => all.filter (·.1 == sh)
  | none => all

/-- Blocks of a Write Zeroes with DEAC that are covered in part. -/
def NvmeCmd.edges (c : NvmeCmd) (e : List Byte) : List Nat :=
  let x := lbaBlocks (volLbaf e) (c.slba, c.nlb)
  ([x.1, x.1 + x.2 - 1].eraseDups).filter fun b => decide (x.2 ≠ 0) && c.partialBlk e b

/-- A DEALLOC record for block entry `i` of a command. -/
def State.deallocRec (s : State) (k i : Nat) : State :=
  match s.blk k i with
  | none => s
  | some (c, b) =>
    let (j, s) := s.journal (blockShard c.vol b.block) {
      type := Jt.dealloc, epoch := 0, arg0 := blockArg c.vol b.block, arg1 := b.count, cmd := some (k, i) }
    s.setBlk k i { b with step := .record, jsn := some j }

/-! ## Records of writes (R149, R250) -/

/-- Whether a write dispatched earlier is to make its record of the block first (R116). -/
def State.recordWaits (s : State) (k : Nat) (c : NvmeCmd) (block : Nat) : Bool :=
  s.par.cmds.any fun x => x.1 != k && x.2.vol == c.vol && x.2.mutates && decide (x.2.dispatchNo < c.dispatchNo) && x.2.begun &&
    x.2.blks.any fun b => decide (b.block ≤ block) && decide (block < b.block + b.count) && (match b.step with
      | .record | .done | .fwd | .sd _ => false
      | _ => true)

/-- The DATA record of block `i` from its plain curd, encrypted for its record (R401). -/
def State.dataRec (s : State) (k i : Nat) (key curd : List Byte) : State :=
  match s.blk k i with
  | none => s
  | some (c, b) =>
    let sh := blockShard c.vol b.block
    let l := journalLoc sh (s.cshard sh).nextJsn
    let (j, s) := s.journal sh {
      type := Jt.data, epoch := 0, arg0 := blockArg c.vol b.block, arg1 := tagArg b.app b.ref,
      payload := xts true key (venTweak l c.tenant sh) curd, cmd := some (k, i) }
    s.setBlk k i { b with step := .record, jsn := some j }

/-- The records of a duplicate stored in shard `t`: a reference, paired with an increment where `t` is another shard. -/
def State.refRec (s : State) (k i t locator : Nat) : State :=
  match s.blk k i with
  | none => s
  | some (c, b) =>
    let sh := blockShard c.vol b.block
    let r : JRec := {
      type := Jt.ref, epoch := 0, tshard := t, arg0 := blockArg c.vol b.block, arg1 := tagArg b.app b.ref, arg2 := locator,
      cmd := some (k, i) }
    if t = sh then
      let (j, s) := s.journal sh r
      s.setBlk k i { b with step := .record, jsn := some j }
    else
      let mine := (s.cshard sh).nextJsn
      let other := (s.cshard t).nextJsn
      let (j, s) := s.journal sh { r with pair := t * 2 ^ 55 + other }
      let (_, s) := s.journal t {
        type := Jt.incr, epoch := 0, pair := sh * 2 ^ 55 + mine, arg0 := locator, arg1 := 1, cmd := some (k, i) }
      s.setBlk k i { b with step := .record, jsn := some j, pair := some (t, other) }

/-! ## Forwarding (R327, R328) -/

/-- The payload a part takes with it: its share of a write's stream, the whole of a range list. -/
def NvmeCmd.partData (c : NvmeCmd) (e : List Byte) (sh : Nat) : List Byte :=
  if c.op = Nop.write then slice c.buf ((({ c with only := some sh }).streamStart e - c.slba) * c.lbaLen e) (({ c with only := some sh }).streamLen e)
  else if c.op = Nop.dsm then c.buf
  else []

/-- The part of a command in a shard goes to the peer in a FWD_REQ with a TAG of its own. -/
def State.forwardPart (s : State) (k sh : Nat) : State :=
  match s.cmd k with
  | none => s
  | some c =>
    let tag := s.ten.nextTag
    let s := s.setTen { s.ten with nextTag := (tag + 1) % 2 ^ 32 }
    let s := s.setCmd k { c with fwds := (c.fwds.filter (·.shard != sh)) ++ [⟨sh, tag, 0⟩] }
    s.tenSend (.fwdReq tag c.cls c.tenant sh (c.sqe ++ c.incap) (c.partData (s.cmdVol c) sh))

/-! ## Beginning a command -/

/-- The blocks of a command, one for each 4 KiB block of the parts, or for each part a deallocation covers: here in `.wait`,
at the peer in `.fwd`. A command that was held after it began keeps its blocks. -/
def State.makeBlks (s : State) (c : NvmeCmd) : List Blk :=
  let e := s.cmdVol c
  let step := fun sh => if s.partDo c sh = .peer then BlkStep.fwd else BlkStep.wait
  if !c.blks.isEmpty then c.blks.map fun b => if b.step = .wait then { b with step := step (blockShard c.vol b.block) } else b
  else if c.op = Nop.secure ∨ c.op = Nop.dsm ∨ (c.op = Nop.writeZeroes ∧ c.deac) then
    ((c.cleared e).map fun p => { block := p.2.1, count := p.2.2, step := step p.1 }) ++
      (if c.op = Nop.writeZeroes then (c.edges e).map fun b => { block := b, step := step (blockShard c.vol b) } else [])
  else (c.parts e).flatMap fun p => (List.range p.2.2).map fun i => { block := p.2.1 + i, step := step p.1 }

/-- Whether block entry `i` of a command clears whole blocks rather than storing data. -/
def NvmeCmd.clears (c : NvmeCmd) (e : List Byte) (b : Blk) : Bool :=
  (c.op == Nop.dsm || (c.op == Nop.writeZeroes && c.deac)) && (c.cleared e).any fun p => p.2.1 == b.block && p.2.2 == b.count

/-- The shards of a command that the peer serves, beside those whose parts are there. -/
def State.peerShards (s : State) (c : NvmeCmd) : List Nat := (s.openShards c).filter fun sh => s.partDo c sh == .peer

/-- The blocks of a command that are executed here start: reads resolve, zeros enter the write path, deallocations make
their records. Payload-bearing blocks wait. -/
def State.startBlks (s : State) (k : Nat) : State :=
  match s.cmd k with
  | none => s
  | some c =>
    let e := s.cmdVol c
    c.blks.zipIdx.foldl (fun s x =>
      if x.1.step ≠ .wait then s
      else if c.op = Nop.read ∨ c.op = Nop.verify then s.readBegin k x.2
      else if c.clears e x.1 then s.deallocRec k x.2
      else if c.op = Nop.writeZeroes then s.enterBlock k x.2 none
      else s) s

/-- What is left to do of a command ends with a path status (R118, R119, R121): it completes with it, or, where parts of it are
with the peer or have changed something there, these settle first. -/
def State.pathRefused (s : State) (k : Nat) (c : NvmeCmd) (st : Nat) : State :=
  if c.fwds.isEmpty then s.complete k st
  else
    let s := (s.setPar { s.par with held := s.par.held.filter (· != k) }).setCmd k { c with
      stage := .running, begun := true, waitSh := [], refused := c.refused ++ (s.openShards c).map fun sh => (sh, st)
      blks := c.blks.map fun b => if b.step = .wait then { b with step := .done } else b }
    (s.countHeld c.waitSh).finishIfDone k

/-- A command that has passed its checks: held, refused for its path, or begun with `k'` on the state in which its blocks
are made. -/
def State.placed (s : State) (k : Nat) (c : NvmeCmd) (go : NvmeCmd → State → State) : State :=
  let ds := (s.openShards c).map (s.partDo c)
  if ds.contains .refuse then s.pathRefused k c Nv.inaccessible
  else if ds.contains .hold then s.hold k c
  else go { c with blks := s.makeBlks c } s

/-- A command whose turn it is: dispatched, not begun, of the opcode of the row. -/
def State.turn (s : State) (k op : Nat) (f : NvmeCmd → State) : Host.Outcome State Fault Refusal :=
  match s.cmd k with
  | none => .next s
  | some c => if c.stage = .running ∧ !c.begun ∧ !c.admin ∧ c.op = op ∧ !s.behindOther k c then .next (f c) else .next s

end Sys2Proof.Machine
end

