-- ==== Sys2Proof/Machine/ParCmds.lean ====
section
/-! DEFINITION. The Parlour's commands: capsules, budgets, dispatch, the NVMe commands, held commands, keep-alive, cuts, the
re-execution lists (R92 to R126, R329). -/
namespace Sys2Proof.Machine
open Sys2Proof

/-! ## Capsules (R94, R102, R109, R113) -/

/-- What a Fabrics capsule cuts when it arrives: the I/O queue that a Disconnect ends, the controller that a Property Set of
CC resets or shuts down. CC.EN set makes the controller ready. -/
def State.capsuleCut (s : State) (q : Queue) (bs : List Byte) : State :=
  if fieldAt bs 0 1 ≠ Nop.fabrics then s
  else if fieldAt bs 4 1 = 0x08 then
    if q.qid = 0 then s
    else (s.cutQueues none q.cntlid (some q.qid) false).raise Ev.queueCut (some .par) none [q.cntlid, q.qid]
  else if fieldAt bs 4 1 = 0x00 ∧ fieldAt bs 44 4 = 0x14 then
    let en := (fieldAt bs 48 1).testBit 0
    let was := ((s.ctrl q.cntlid).map (·.en)).getD false
    let s := match s.ctrl q.cntlid with
      | some c => s.setCtrl q.cntlid { c with en := en, rdy := c.rdy || (en && !was) }
      | none => s
    if (was && !en) || fieldAt bs 48 2 / 16384 != 0 then
      (s.cutQueues none q.cntlid none true).raise Ev.queueCut (some .par) none [q.cntlid]
    else s
  else s

/-- The capsule that is next: of those that arrived in the tick of the oldest, the one of the lowest logical port, the earliest
there (R129). -/
def State.nextCapsule (s : State) : Option (Nat × List Byte × Bool × Nat) :=
  let port := fun (x : Nat) => ((s.ctx x).map fun (y : Ctx) => y.lport).getD 0
  match s.rails.inbox with
  | [] => none
  | w :: rest => some ((rest.filter fun v => v.2.2.2 == w.2.2.2).foldl (fun best v => if port v.1 < port best.1 then v else best) w)

/-- A capsule taken in: it restarts the keep-alive timer of its controller (R113), makes the cut it asks for, and waits for a
context behind those that wait already (R102). One on a queue that is being cut is settled with it (log entry 126). -/
def State.takeIn (s : State) (x : Nat) (bs : List Byte) (bad : Bool) (at_ : Nat) : State :=
  let q := s.queueOf x
  let s := match q with
    | some q => (s.keepAlive q.cntlid).capsuleCut q bs
    | none => s
  match q.bind fun q => s.par.cuts.find? fun y => y.takes q.cntlid q.qid && y.settles y.silent (fieldAt bs 0 1) with
  | some y =>
    let s := s.abortCapsule y.silent x bs
    s.setPar { s.par with cuts := s.par.cuts.map fun z => if z == y then { z with aborted := z.aborted + 1 } else z }
  | none =>
    let s := s.setPar { s.par with waitCap := s.par.waitCap ++ [(x, bs, bad, at_)] }
    let s := (s.takeWaiting s.par.waitCap.length).countCtxs
    if s.par.waitCap.isEmpty then s else s.raise Ev.ctxExhausted (some .par)

/-- CAPSULE_ARRIVAL: the next capsule a Rail holds; while EN is 0 it stays there (R528). -/
def execCapsuleArrival (s : State) : Host.Outcome State Fault Refusal :=
  match s.nextCapsule with
  | none => .next s
  | some w =>
    if !s.on PAR_CTL.EN then .next s
    else .next ((s.setRails { s.rails with inbox := s.rails.inbox.erase w }).takeIn w.1 w.2.1 w.2.2.1 w.2.2.2)

/-! ## Budgets (R100, R103) -/

def tenWeight (e : List Byte) : Nat := max 1 (fieldAt e 0 1)
def tenClasses (e : List Byte) : Nat := fieldAt e 1 1 % 16

/-- A tenant's buckets after one management tick. -/
def Budget.refill (b : Budget) (e : List Byte) : Budget where
  cmds := min (b.cmds + fieldAt e 4 4) (fieldAt e 8 4)
  blocks := min (b.blocks + fieldAt e 12 4) (fieldAt e 16 4)
  urgent := fieldAt e 20 4

/-- BUDGET_REFILL: every tenant whose entry is valid. -/
def execBudgetRefill (s : State) : Host.Outcome State Fault Refusal :=
  .next (s.setPar { s.par with budgets := (List.range 16384).foldl (fun (t : Tab Budget) n =>
    let e := s.tenantEntry n
    if fieldAt e 0 1 = 0 then t else Tab.set t n ((Tab.getD t n {}).refill e)) s.par.budgets })

/-- 4 KiB blocks a command covers. -/
def NvmeCmd.covers (c : NvmeCmd) (e : List Byte) : Nat := ((c.parts e).map (·.2.2)).sum

/-- Byte tokens a command costs at the gate. The ranges of a Dataset Management are charged when they arrive (log entry 127). -/
def NvmeCmd.tokens (c : NvmeCmd) (e : List Byte) : Nat :=
  if c.admin ∨ c.op = Nop.flush ∨ c.op = Nop.verify ∨ c.op = Nop.dsm then 0 else c.covers e

/-- A byte bucket after a cost is paid; none while it is short. A cost above the burst is paid once the bucket is full. -/
def Budget.pay (b : Budget) (t : List Byte) (cost : Nat) : Option Budget :=
  let rate := fieldAt t 12 4
  let burst : Int := (fieldAt t 16 4 : Nat)
  if cost = 0 ∨ rate = 0 then some b
  else if (cost : Int) ≤ b.blocks ∨ (burst < (cost : Int) ∧ burst ≤ b.blocks) then some { b with blocks := b.blocks - (cost : Int) }
  else none

/-- The budget of a tenant after a command passes its gate, and the class it passes in; none while tokens are short. -/
def Budget.pass (b : Budget) (t : List Byte) (cost cls : Nat) : Option (Nat × Budget) :=
  let ios := fieldAt t 4 4
  if ios ≠ 0 ∧ b.cmds = 0 then none
  else (b.pay t cost).map fun b =>
    let b := { b with cmds := if ios = 0 then b.cmds else b.cmds - 1 }
    let cls := if (tenClasses t).testBit cls then cls else 3
    if cls = 0 then (if b.urgent = 0 then (1, b) else (0, { b with urgent := b.urgent - 1 })) else (cls, b)

/-- A command is eligible from this tick on. -/
def State.eligible (s : State) (k : Nat) (c : NvmeCmd) : State :=
  let s := s.setCmd k { c with stage := .eligible, eligibleAt := s.now }
  s.setPar { s.par with gate := s.par.gate.filter (· != k), ready := s.par.ready ++ [k] }

/-- BUDGET_GATE_PASS: the first waiting command of its tenant, once its tokens suffice; nothing passes while EN is 0 (R528). -/
def execBudgetGatePass (k : Nat) (s : State) : Host.Outcome State Fault Refusal :=
  match s.cmd k with
  | none => .next s
  | some c =>
    let first := s.par.gate.find? fun j => ((s.cmd j).map (·.tenant)) == some c.tenant
    if c.stage ≠ .gate ∨ first ≠ some k ∨ !s.on PAR_CTL.EN then .next s
    else if c.tenant = noTenant then .next (s.eligible k c)
    else match (Tab.getD s.par.budgets c.tenant {}).pass (s.tenantEntry c.tenant) (c.tokens (s.cmdVol c)) c.cls with
      | none => .next s
      | some (cls, b) =>
        .next ((s.setPar { s.par with budgets := Tab.set s.par.budgets c.tenant b }).eligible k { c with cls := cls })

/-! ## Dispatch (R104, R105) -/

/-- Rounds of weight `w` that a credit needs to reach a cost. -/
def roundsFor (credit : Int) (cost w : Nat) : Nat := (((cost : Int) - credit).toNat + w - 1) / w

/-- One choice of a weighted round-robin among (key, weight, cost) in order: the first that needs the fewest rounds; every
contender's credit grows by those rounds, the chosen one's falls by its cost. Credits of others lapse. -/
def wrrChoose (credits : Tab Int) (cs : List (Nat × Nat × Nat)) : Option (Nat × Tab Int) :=
  let need := cs.map fun c => (c.1, roundsFor (Tab.getD credits c.1 0) c.2.2 c.2.1)
  let best := need.foldl (fun (a : Option (Nat × Nat)) n => match a with
    | none => some n
    | some b => if n.2 < b.2 then some n else a) none
  best.map fun b => (b.1, cs.foldl (fun (t : Tab Int) c =>
    let v : Int := Tab.getD credits c.1 0 + (b.2 * c.2.1 : Nat)
    Tab.set t c.1 (if c.1 = b.1 then v - (c.2.2 : Nat) else v)) [])

/-- Class a command is arbitrated in: Urgent once promoted. -/
def NvmeCmd.arbCls (c : NvmeCmd) : Nat := if c.promoted then 0 else c.cls

/-- Units of weight a command costs. -/
def State.arbCost (s : State) (k : Nat) : Nat := ((s.cmd k).map fun (c : NvmeCmd) => max 1 (c.covers (s.cmdVol c))).getD 1

/-- The eligible commands of a class, in order. -/
def State.readyOf (s : State) (cls : Nat) : List Nat := s.par.ready.filter fun k => ((s.cmd k).map NvmeCmd.arbCls) == some cls

/-- The tenant's turn in a class: (command, credits of the class's tenants, cost). Key of a tenant: class × 2^15 + tenant. -/
def State.tenantTurn (s : State) (cls : Nat) : Option (Nat × Tab Int × Nat) :=
  let ks := s.readyOf cls
  let tens := (ks.filterMap fun k => (s.cmd k).map (·.tenant)).foldl (fun (l : List Nat) t => if l.contains t then l else l ++ [t]) []
  let head := fun t => ks.find? fun k => ((s.cmd k).map (·.tenant)) == some t
  let cs := tens.filterMap fun t => (head t).map fun k => (cls * 32768 + t, tenWeight (s.tenantEntry t), s.arbCost k)
  match wrrChoose s.par.twrr cs with
  | none => none
  | some (key, cr) => (head (key % 32768)).map fun k => (k, cr, s.arbCost k)

/-- The command dispatched next, and the state with the credits moved on. -/
def State.nextDispatch (s : State) : Option (Nat × State) :=
  match s.readyOf 0 with
  | k :: _ => some (k, s)
  | [] =>
    let ts := [1, 2, 3].filterMap fun cls => (s.tenantTurn cls).map fun t => (cls, t)
    let w := fun cls => if cls = 1 then s.rd PAR_CLASS_CFG.W_HIGH else if cls = 2 then s.rd PAR_CLASS_CFG.W_MED else s.rd PAR_CLASS_CFG.W_LOW
    match wrrChoose s.par.wrr (ts.map fun t => (t.1, max 1 (w t.1), t.2.2.2)) with
    | none => none
    | some (cls, cr) => (ts.find? (·.1 == cls)).map fun t =>
      let keep := s.par.twrr.filter fun e => e.1 / 32768 != cls
      (t.2.1, s.setPar { s.par with wrr := cr, twrr := t.2.2.1.foldl (fun (a : Tab Int) e => Tab.set a e.1 e.2) keep })

/-- A command taken out of the ready list and numbered. -/
def State.dispatch (s : State) (k : Nat) (c : NvmeCmd) : State :=
  let n := s.par.dispatches + 1
  let s := s.setPar { s.par with ready := s.par.ready.filter (· != k), dispatches := n }
  s.setCmd k { c with stage := .running, dispatchNo := n, tick := s.now }

/-- I/O opcodes of R93. -/
def ioOpcode (op : Nat) : Bool :=
  [Nop.flush, Nop.write, Nop.read, Nop.writeZeroes, Nop.dsm, Nop.verify, Nop.secure].contains op

/-- DISPATCH: the next command by class and tenant, while EN is 1 (R528); an opcode that R93 does not name completes here. -/
def execDispatch (s : State) : Host.Outcome State Fault Refusal :=
  match if s.on PAR_CTL.EN then s.nextDispatch else none with
  | none => .next s
  | some (k, s) => match s.cmd k with
    | none => .next s
    | some c =>
      let s := s.dispatch k c
      let s := if c.admin then s else s.noteTable .par (s.volAddr c.vol) 64
      if !c.admin ∧ !ioOpcode c.op then .next (s.complete k Nv.opcode) else .next s

/-- AGE_LIMIT_EXPIRY: an eligible command that has waited its class's limit joins the tail of Urgent, once. -/
def execAgeLimitExpiry (k : Nat) (s : State) : Host.Outcome State Fault Refusal :=
  match s.cmd k with
  | none => .next s
  | some c =>
    if c.stage ≠ .eligible ∨ c.cls = 0 ∨ c.promoted ∨ !s.passed (c.eligibleAt + s.ageLimit c.cls * mgmtTick) then .next s
    else
      let s := s.setCmd k { c with promoted := true }
      let s := s.setPar { s.par with ready := s.par.ready.filter (· != k) ++ [k] }
      let s := s.bump (if c.cls = 1 then PAR_PROMO_COUNT.HIGH else if c.cls = 2 then PAR_PROMO_COUNT.MED else PAR_PROMO_COUNT.LOW) 1
      let s := if c.tenant < noTenant then s.meterEvent c.tenant (c.firstShard (s.cmdVol c)) 7 1 else s
      .next (s.raise Ev.agePromote (some .par) none [k, c.cls, c.tenant])

/-! ## The NVMe commands (R93, R94, R98) -/

/-- The blocks of a command at the peer are forwarded, those here start. -/
def State.goBlks (s : State) (k : Nat) (ps : List Nat) : State :=
  (ps.foldl (fun s sh => s.forwardPart k sh) s).startBlks k |>.finishIfDone k

/-- A command without payload begun: blocks made, parts forwarded, the rest started. -/
def State.beginPlain (s : State) (k : Nat) (c : NvmeCmd) : State :=
  let ps := s.peerShards c
  (s.setCmd k { c with begun := true, fwds := c.fwds ++ ps.map fun sh => ⟨sh, 0, 2⟩ }).goBlks k ps

/-- A read or Verify with its pails. -/
def State.runRead (s : State) (k : Nat) (c : NvmeCmd) : State :=
  let st := s.cmdRefused c
  if st ≠ 0 then s.complete k st
  else s.placed k c fun c s => match s.pailsReady k c.blks.length with
    | (false, s) => s
    | (true, s) => s.beginPlain k { c with asked := true }

/-- NVME_READ. -/
def execNvmeRead (k : Nat) (ms : List Medium) (s : State) : Host.Outcome State Fault Refusal :=
  s.turn k Nop.read fun c => s.scripted ms fun s => s.runRead k c

/-- NVME_VERIFY. -/
def execNvmeVerify (k : Nat) (ms : List Medium) (s : State) : Host.Outcome State Fault Refusal :=
  s.turn k Nop.verify fun c => s.scripted ms fun s => s.runRead k c

/-- NVME_WRITE: a pail for each block, then the payload. -/
def execNvmeWrite (k : Nat) (s : State) : Host.Outcome State Fault Refusal :=
  s.turn k Nop.write fun c =>
    let st := s.cmdRefused c
    if st ≠ 0 then s.complete k st
    else s.placed k c fun c s => match s.pailsReady k c.blks.length with
      | (false, s) => s
      | (true, s) => s.pull k { c with
          asked := true, begun := true, fwds := c.fwds ++ (s.peerShards c).map fun sh => ⟨sh, 0, 4⟩ }
          (if c.origin.isSome then c.buf.length else c.hostLen (s.cmdVol c))

/-- NVME_FLUSH: done as soon as it is dispatched (R114). -/
def execNvmeFlush (k : Nat) (s : State) : Host.Outcome State Fault Refusal :=
  s.turn k Nop.flush fun c => (s.setCmd k { c with begun := true }).complete k Nv.ok

/-- NVME_WRITE_ZEROES. -/
def execNvmeWriteZeroes (k : Nat) (ms : List Medium) (s : State) : Host.Outcome State Fault Refusal :=
  s.turn k Nop.writeZeroes fun c => s.scripted ms fun s =>
    let st := s.cmdRefused c
    if st ≠ 0 then s.complete k st else s.placed k c fun c s => s.beginPlain k c

/-- The byte tokens of the ranges of a Dataset Management paid, at the head that received it; none while they are short. -/
def State.chargeRanges (s : State) (k : Nat) (c : NvmeCmd) : Option (NvmeCmd × State) :=
  if c.charged ∨ c.origin.isSome ∨ noTenant ≤ c.tenant then some (c, s)
  else ((Tab.getD s.par.budgets c.tenant {}).pay (s.tenantEntry c.tenant) (c.covers (s.cmdVol c))).map fun b =>
    let c := { c with charged := true }
    (c, (s.setPar { s.par with budgets := Tab.set s.par.budgets c.tenant b }).setCmd k c)

/-- NVME_DATASET_MANAGEMENT: the ranges are pulled first; without the attribute AD nothing is done. -/
def execNvmeDatasetManagement (k : Nat) (s : State) : Host.Outcome State Fault Refusal :=
  match s.cmd k with
  | none => .next s
  | some c =>
    let st := s.cmdRefused c
    if c.stage ≠ .running ∨ c.admin ∨ c.op ≠ Nop.dsm ∨ c.begun then .next s
    else if c.need = 0 ∧ st ≠ 0 then .next (s.complete k st)
    else if c.unranged then .next (if c.need = 0 then s.pull k c c.rangeBytes else s)
    else if s.behindOther k c then .next s
    else match s.chargeRanges k c with
      | none => .next s
      | some (c, s) =>
        if c.badData then .next (s.complete k Nv.transient)
        else if !(c.cdw 11).testBit 2 then .next ((s.setCmd k { c with begun := true }).complete k Nv.ok)
        else if c.ranges.any fun r => !inVolume (s.cmdVol c) r then .next (s.complete k Nv.lbaRange)
        else .next (s.placed k c fun c s => s.beginPlain k c)

/-- The intent record of part `i` of a Secure Deallocate (R124, step 2). -/
def State.sdIntent (s : State) (k i : Nat) : State :=
  match s.blk k i with
  | none => s
  | some (c, b) =>
    if b.step ≠ .wait then s
    else
      let (j, s) := s.journal (blockShard c.vol b.block) {
        type := Jt.sdIntent, epoch := 0, arg0 := blockArg c.vol b.block, arg1 := b.count, cmd := some (k, i) }
      s.setBlk k i { b with step := .record, jsn := some j }

/-- Whether an intent of an earlier pass is open on a part of a Secure Deallocate (R126). -/
def State.intentOpen (s : State) (k : Nat) (c : NvmeCmd) : Bool :=
  (c.cleared (s.cmdVol c)).any fun p => (s.cshard p.1).opened.any fun o => match s.jrec p.1 o.1 with
    | some r => r.cmd.map (·.1) != some k && argVol r.arg0 == c.vol && decide (argBlock r.arg0 < p.2.1 + p.2.2) &&
        decide (p.2.1 < argBlock r.arg0 + r.arg1)
    | none => false

/-- Step 5 for part `i`: the copies erased; the done record follows, or the deferred list. The blades whose erases are deferred
stand in a mask (R123). -/
def State.sdRun (s : State) (k i : Nat) : State :=
  match s.blk k i with
  | none => s
  | some (c, b) => match b.step, b.jsn with
    | .sd 5, some j => match s.sdErase (blockShard c.vol b.block) j (some (k, i)) with
      | (none, s) => s
      | (some mask, s) => match s.blk k i with
        | some (c, b) =>
          (s.setCmd k { c with deferred := c.deferred ||| mask }).setBlk k i { b with step := .sd 6 }
        | none => s
    | _, _ => s

/-- SECURE_DEALLOCATE: the intents are journaled; given again, each confirmed part is erased. -/
def execSecureDeallocate (k : Nat) (ms : List Medium) (s : State) : Host.Outcome State Fault Refusal :=
  match s.cmd k with
  | none => .next s
  | some c =>
    if c.stage ≠ .running ∨ c.admin ∨ c.op ≠ Nop.secure then .next s
    else if c.begun then .next (s.scripted ms fun s => (List.range c.blks.length).foldl (fun s i => s.sdRun k i) s)
    else if s.behindOther k c ∨ s.intentOpen k c then .next s
    else
      let st := s.cmdRefused c
      if st ≠ 0 then .next (s.complete k st)
      else .next (s.placed k c fun c s =>
        let ps := s.peerShards c
        let s := s.setCmd k { c with begun := true, fwds := c.fwds ++ ps.map fun sh => ⟨sh, 0, 2⟩ }
        let s := ps.foldl (fun s sh => s.forwardPart k sh) s
        ((List.range c.blks.length).foldl (fun s i => s.sdIntent k i) s).finishIfDone k)

/-- NVME_ABORT: never aborts (R115). -/
def execNvmeAbort (k : Nat) (s : State) : Host.Outcome State Fault Refusal :=
  match s.cmd k with
  | none => .next s
  | some c =>
    if c.stage = .running ∧ c.admin ∧ c.op = Nadm.abort then .next ((s.setCmd k { c with begun := true }).complete k Nv.ok 1) else .next s

/-- NVME_KEEP_ALIVE: the capsule has restarted the timer (R113). -/
def execNvmeKeepAlive (k : Nat) (s : State) : Host.Outcome State Fault Refusal :=
  match s.cmd k with
  | none => .next s
  | some c => if c.admin ∧ c.op = Nadm.keepAlive then .next ((s.keepAlive c.cntlid).complete k Nv.ok) else .next s

/-- Descriptors that wait with a dword for an Asynchronous Event Request of a controller. -/
def State.aenWaiting (s : State) (cntlid : Nat) : Option (DescRef × Fetched) :=
  (List.range (unitRings .par)).findSome? fun r =>
    ((s.ring .par r).fetched.find? fun f => f.phase == .waiting && f.opcode == Op.aenPost && f.at 32 2 == cntlid).map fun f => (⟨r, f.slot⟩, f)

/-- NVME_ASYNC_EVENT_REQUEST: held, up to four per controller; a notice that waits goes out on it (R94, R120). -/
def execNvmeAsyncEventRequest (k : Nat) (s : State) : Host.Outcome State Fault Refusal :=
  match s.cmd k with
  | none => .next s
  | some c =>
    if !c.admin ∨ c.op ≠ Nadm.aer then .next s
    else match s.ctrl c.cntlid with
      | none => .next (s.complete k Nv.internal)
      | some x =>
        if x.aers.contains c.cid then .next s
        else if 4 ≤ x.aers.length then .next (s.complete k Nv.aerLimit)
        else match s.aenWaiting c.cntlid with
          | some (d, f) => .next ((s.complete k Nv.ok (f.at 36 4)).finish .par d St.success)
          | none => .next ((s.setCtrl c.cntlid { x with aers := x.aers ++ [c.cid] }).anaDeliver 1)

/-! ## Payload (R96, R97, R107) -/

/-- PAYLOAD_COMPLETE: every byte of a write's payload is in its pails. Protection information is checked, the blocks enter
the write index, and the peer's parts go to it with their data. -/
def execPayloadComplete (k : Nat) (ms : List Medium) (s : State) : Host.Outcome State Fault Refusal :=
  match s.cmd k with
  | none => .next s
  | some c =>
    let e := s.cmdVol c
    let parts := c.fwds.filter (·.st == 4)
    let listed := s.leaseU.reexec.any fun l => l.2.contains k
    if c.op ≠ Nop.write ∨ !c.begun ∨ c.buf.length < c.need ∨ listed ∨ (parts.isEmpty ∧ c.blks.all fun b => b.step != .wait) then .next s
    else
      let bad := if c.badData then Nv.transient else firstBad (c.blks.map fun b => if b.step = .wait then c.writeCheck e b.block else 0)
      if bad ≠ 0 then .next (s.complete k bad)
      else .next (s.scripted ms fun s => match s.enterBlocks k with
        | (false, s) => s
        | (true, s) => (parts.foldl (fun s p => s.forwardPart k p.shard) s).finishIfDone k)

/-- CHUNK_READ_TIMEOUT: RD_TIMEOUT has passed for the chunk of block `i`; it is read around (R236). -/
def execChunkReadTimeout (k i : Nat) (ms : List Medium) (s : State) : Host.Outcome State Fault Refusal :=
  match s.blk k i with
  | some (_, b) => match b.step with
    | .chunk t => if s.passed t then .next (s.scripted ms fun s => s.readMedium k i) else .next s
    | _ => .next s
  | none => .next s

/-! ## Held commands, keep-alive, associations, cuts (R109 to R113, R119) -/

/-- HOLD_LIMIT_EXPIRY: Asymmetric Access Transition. Commands of a re-execution list have no limit. -/
def execHoldLimitExpiry (k : Nat) (s : State) : Host.Outcome State Fault Refusal :=
  match s.cmd k with
  | none => .next s
  | some c =>
    if c.stage = .held ∧ !c.reexec ∧ s.passed (c.heldAt + s.rd PAR_HANDOFF_CFG.HOLD_LIMIT * mgmtTick) then
      .next ((s.raise Ev.holdExpired (some .par) none [k]).pathRefused k c Nv.transition)
    else .next s

/-- Causes that EV_ASSOC_LOST holds, beside that of a forwarded command. -/
def assocCause.transport : Nat := 1
def assocCause.keepAlive : Nat := 2
def assocCause.software : Nat := 3

/-- KEEP_ALIVE_EXPIRY of a controller. -/
def execKeepAliveExpiry (cntlid : Nat) (s : State) : Host.Outcome State Fault Refusal :=
  match s.ctrl cntlid with
  | none => .next s
  | some c =>
    if s.due c.kaBy then .next ((s.setCtrl cntlid { c with kaBy := none }).assocLoss cntlid assocCause.keepAlive) else .next s

/-- ASSOCIATION_LOSS: the first transport context a Rail has reported lost. -/
def execAssociationLoss (s : State) : Host.Outcome State Fault Refusal :=
  match s.par.lost with
  | [] => .next s
  | x :: rest =>
    let s := s.setPar { s.par with lost := rest }
    match s.queueOf x with
    | some q => .next (s.assocLoss q.cntlid assocCause.transport)
    | none => .next s

/-- QUEUE_DELETION_DONE: cut `i` waits for nothing any longer and its queues hold no context; they are unbound, a reset
controller is not ready, and the descriptor completes (R111). The admin queue stays but where the association is lost. -/
def execQueueDeletionDone (i : Nat) (s : State) : Host.Outcome State Fault Refusal :=
  match s.par.cuts[i]? with
  | none => .next s
  | some x =>
    if !x.waits.isEmpty ∨ !x.cancels.isEmpty ∨ s.par.cmds.any (fun e => x.takes e.2.cntlid e.2.qid && e.2.origin.isNone &&
        x.settles x.silent e.2.op) then .next s
    else
      let mine := fun (q : Queue) => q.cntlid == x.cntlid && (match x.qid with
        | some n => q.qid == n
        | none => q.qid != 0 || ((s.ctrl x.cntlid).map (·.lost)).getD false)
      let s := s.setPar { s.par with cuts := s.par.cuts.eraseIdx i, queues := s.par.queues.filter fun q => !mine q }
      let s := match x.qid, s.ctrl x.cntlid with
        | none, some c => s.setCtrl x.cntlid { c with aers := [], kaBy := none, rdy := false }
        | _, _ => s
      match x.d with
      | some d => .next (s.finish .par d St.success 0 (x.aborted + x.suppressed * 2 ^ 32))
      | none => .next s

/-! ## Re-execution (R329) -/

/-- A command of a shard's list runs again: its blocks start here in OWNED, or the part goes to the peer in PEER. -/
def State.rerun (s : State) (sh k : Nat) (peer : Bool) : State :=
  match s.cmd k with
  | none => s
  | some c =>
    let e := s.cmdVol c
    let n := s.par.dispatches + 1
    let s := s.setPar { s.par with dispatches := n }
    let s := if c.tenant < noTenant then s.meterEvent c.tenant (c.firstShard e) 8 1 else s
    let here := fun (b : Blk) => blockShard c.vol b.block == sh && (b.step == .wait || b.step == .fwd)
    let c := { c with
      dispatchNo := n, commit := if c.blks.any fun b => b.step == .record then c.commit else false
      blks := c.blks.map fun b => if here b then { b with step := if peer then .fwd else .wait } else b
      fwds := if peer then c.fwds else c.fwds.filter (·.shard != sh) }
    let s := s.setCmd k c
    if peer then s.forwardPart k sh
    else if c.op = Nop.write then ((s.askPails k 1 17 (c.blks.filter here).length).enterBlocks k).2
    else if c.op = Nop.secure then (List.range c.blks.length).foldl (fun s i => s.sdIntent k i) s
    else (s.startBlks k).finishIfDone k

/-- REEXECUTION_DISPATCH: the list of a shard that is OWNED or PEER is run again, ahead of held commands. -/
def execReexecutionDispatch (shard : Fin 256) (ms : List Medium) (s : State) : Host.Outcome State Fault Refusal :=
  let sh := shard.val
  let st := s.rd (PAR_SHARD.STATE sh)
  if st ≠ Pst.owned ∧ st ≠ Pst.peer then .next s
  else
    let l := Tab.getD s.leaseU.reexec sh []
    let s := s.setLease { s.leaseU with reexec := Tab.del s.leaseU.reexec sh }
    .next (s.scripted ms fun s => l.foldl (fun s k => s.rerun sh k (st == Pst.peer)) s)

end Sys2Proof.Machine
end

