-- ==== Sys2Proof/Machine/Inline.lean ====
section
/-! DEFINITION. The inline path of a block: fingerprint, lookup, verification, compression, encryption on a write; decryption
and decompression on a read (R144 to R149, R159 to R167, R180, R181, R401 to R405). -/
namespace Sys2Proof.Machine
open Sys2Proof

/-! ## Fingerprints and lookups (R134, R144, R180, R181) -/

/-- INLINE_FINGERPRINT: on a lane of the Press, HMAC-SHA3-256 of the block under its domain key; without a key the block is stored as
UNIQUE_NOINSERT. -/
def execInlineFingerprint (k i : Nat) (s : State) : Host.Outcome State Fault Refusal :=
  match s.blk k i with
  | some (c, b) =>
    if b.step ≠ .print ∨ !takesLane s.pressTurn (.block k i) then .next s
    else
      let dom := volDomain (s.cmdVol c)
      match (s.slot Cls.domain dom).key with
      | none => .next ((s.raise Ev.domainKey (some .press) none [dom]).setBlk k i { b with step := .press })
      | some key => .next (s.setBlk k i { b with step := .look (hmac 0x02 136 key b.data) })
  | none => .next s

/-- A write whose block is to be stored as a new copy goes on to compression. -/
def State.storeNew (s : State) (k i : Nat) (fp : List Byte) (pend : Bool) : State :=
  match s.blk k i with
  | some (_, b) => s.setBlk k i { b with step := .press, fp := fp, pend := pend }
  | none => s

/-- The write of a block goes on with the Separator's answer. -/
def State.answered (s : State) (k i : Nat) (fp : List Byte) (a : SepAns) : State :=
  match a with
  | .unique => s.storeNew k i fp true
  | .noInsert => s.storeNew k i fp false
  | .dup h l t => match s.blk k i with
    | none => s
    | some (c, b) =>
      let s := s.setBlk k i { b with fp := fp, hold := some (h, l), step := .verify fp h l }
      if domVerify (s.domEntry (s.cmdDomain c)) then s
      else s.refRec k i t l

/-- INLINE_LOOKUP: INLINE = 0, the tenant check, then the filter; a miss reads both buckets, with at most 4,096
lookups in flight (R146). The records of a duplicate wait
for the writes of the block before it (R116). -/
def execInlineLookup (k i : Nat) (s : State) : Host.Outcome State Fault Refusal :=
  match s.blk k i with
  | none => .next s
  | some (c, b) => match b.step with
    | .look fp =>
      let dom := s.cmdDomain c
      let e := s.domEntry dom
      if s.recordWaits k c b.block then .next s
      else if !s.on SEP_CTL.EN then .next s
      else if !s.on SEP_CTL.INLINE_EN ∨ !domInline e then .next (s.storeNew k i fp false)
      else if !domValid e ∨ domTenant e ≠ c.tenant then
        .next ((s.raise Ev.domainMismatch (some .sep) none [dom, c.tenant]).storeNew k i fp false)
      else match s.filterLookup dom fp true with
        | some (a, s) => .next (s.answered k i fp a)
        | none =>
          if 4096 ≤ s.rd SEP_STATUS.IN_FLIGHT then .next s
          else .next ((s.wr SEP_STATUS.IN_FLIGHT (s.rd SEP_STATUS.IN_FLIGHT + 1)).setBlk k i { b with step := .bucket fp })
    | _ => .next s

/-- INDEX_BUCKET_READ_DONE: the answer of the DRAM tier. Of two lookups of one new key in a tick the one from the lower context
gets the PENDING entry (R172); a bucket that cannot be read is a head loss (R171). -/
def execIndexBucketReadDone (k i : Nat) (s : State) : Host.Outcome State Fault Refusal :=
  match s.blk k i with
  | none => .next s
  | some (c, b) => match b.step with
    | .bucket fp =>
      if s.bucketsBad fp then .next s.headLost
      else
        let s := ((s.noteBuckets fp).drop SEP_STATUS.IN_FLIGHT 1).yieldPending (s.cmdDomain c) fp k
        let (a, s) := s.dramLookup (s.cmdDomain c) fp true (some (blockShard c.vol b.block, k))
        .next (s.answered k i fp a)
    | _ => .next s

/-- VERIFY_COMPARE_DONE: equal, the write goes on as a duplicate; unequal, or where the candidate cannot be read, its hold is
released and it is stored as a new copy. -/
def execVerifyCompareDone (k i : Nat) (ms : List Medium) (s : State) : Host.Outcome State Fault Refusal :=
  match s.blk k i with
  | none => .next s
  | some (_, b) => match b.step with
    | .verify fp h l => .next (s.scripted ms fun s =>
      let t := ((s.entryAt h).map (·.shard)).getD 0
      let (other, s) := s.storedBlock t l
      if other = some b.data then s.refRec k i t l
      else
        let s := if other.isSome then s.raise Ev.fpCollision (some .sep) none [h] else s
        ((s.setBlk k i { b with hold := none }).releaseHold h).storeNew k i fp false)
    | _ => .next s

/-! ## Compression and encryption (R159, R160, R165, R401) -/

/-- INLINE_COMPRESS: the block's JOURNAL curd at its domain's level and dictionary. -/
def execInlineCompress (k i : Nat) (s : State) : Host.Outcome State Fault Refusal :=
  match s.blk k i with
  | none => .next s
  | some (c, b) =>
    if b.step ≠ .press ∨ !takesLane s.churnTurn (.block k i) then .next s
    else
      let v := s.cmdVol c
      let e := s.domEntry (volDomain v)
      let owner := volOwner v c.vol
      let want := if volDedup v then domDict e else 0
      let dict := if (s.dictRefused owner want).isNone then want else 0
      match s.useDicts [dict] with
      | none => .next s.headLost
      | some s =>
        let curd := curdCompress s.dicts owner (if volDedup v then domLevel e else 0) dict [b.data]
        .next (s.setBlk k i { b with step := .crypt curd })

/-- NVMe status of a key fault (R405). -/
def keyFault (st : Nat) : Nat := if st = St.keyAbsent ∨ st = St.keyWeak then Nv.denied else Nv.internal

/-- The tenant whose key a command's block needs. -/
def NvmeCmd.keyTenant (c : NvmeCmd) : Nat := c.tenant

/-- A block whose key cannot be had ends with the status of R405; a write has changed nothing. -/
def State.keyFailed (s : State) (k i st : Nat) : State :=
  match s.blk k i with
  | none => s
  | some (c, b) =>
    let s := if c.mutates then s.dropBlk k i c b else s
    (s.setBlk k i { b with hold := none, pend := false }).blkDone k i (keyFault st)

/-- Block `i` with its key: a write's curd is encrypted into its record, a read's is decrypted. -/
def State.venInline (s : State) (k i : Nat) (key : List Byte) : State :=
  match s.blk k i with
  | none => s
  | some (c, b) => match b.step with
    | .crypt curd => s.dataRec k i key curd
    | .cipher bs t l idx => s.setBlk k i { b with step := .plain (xts false key (venTweak l c.tenant t) bs) idx }
    | _ => s

/-- VENEER_INLINE_JOB: with the cached key, or waiting for its unwrap. The record of a write waits for the writes of the
block before it (R116). -/
def execVeneerInlineJob (k i : Nat) (s : State) : Host.Outcome State Fault Refusal :=
  match s.blk k i with
  | none => .next s
  | some (c, b) =>
    let due := match b.step with
      | .crypt _ => !s.recordWaits k c b.block
      | .cipher _ _ _ _ => true
      | _ => false
    if !due || !takesLane s.venTurn (.block k i) then .next s
    else match s.cached c.keyTenant with
      | some (key, s) => .next (s.venInline k i key)
      | none => match s.keyMiss c.keyTenant (.inline k) with
        | .error e => .next ((s.noteTable .ven (s.keyEntryAddr c.keyTenant) 128).keyFailed k i e)
        | .ok s => .next s

/-- Whether a block is at the Veneer. -/
def Blk.atVeneer (b : Blk) : Bool := match b.step with
  | .crypt _ => true
  | .cipher _ _ _ _ => true
  | _ => false

/-- KEY_UNWRAP_DONE: the key enters the cache and what waited for it proceeds, or all of it fails (R402). Inline work then
takes the cached key at its next turn. -/
def execKeyUnwrapDone (tenant : Nat) (s : State) : Host.Outcome State Fault Refusal :=
  match Tab.get? s.ven.misses tenant with
  | none => .next s
  | some jobs =>
    let r := s.unwrapEntry tenant
    let s := s.setVen { s.ven with misses := Tab.del s.ven.misses tenant }
    let s := match r with
      | .ok key => s.cacheKey tenant key
      | .error e => if e = St.venUnwrapFail then s.raise Ev.venUnwrap (some .ven) none [tenant] else s
    .next (jobs.foldl (fun s j => match j, r with
      | .desc d, r => s.venResume d r
      | .inline k, .error e => match s.cmd k with
        | some c => c.blks.zipIdx.foldl (fun s x => if x.1.atVeneer then s.keyFailed k x.2 e else s) s
        | none => s
      | _, _ => s) s)

/-! ## Reading (R166, R167) -/

/-- INLINE_DECOMPRESS: the block of the curd checked and delivered; a curd that fails has its chunk reconstructed once. -/
def execInlineDecompress (k i : Nat) (ms : List Medium) (s : State) : Host.Outcome State Fault Refusal :=
  match s.blk k i with
  | none => .next s
  | some (c, b) => match b.step with
    | .plain curd idx =>
      if !takesLane s.churnTurn (.block k i) then .next s
      else match s.useDicts (curdDicts s.dicts curd idx) with
      | none => .next s.headLost
      | some s =>
        let entry := s.catEntry c.vol b.block
        match curdRead s.dicts curd idx with
        | .ok bks =>
          let tags := match entry with
            | some e => (e.app, e.ref)
            | none => freshTags (s.cmdVol c)
          .next (s.readBlock k i (bks.headD []) tags)
        | .error st => match entry with
          | some e =>
            let l := s.locNow e.shard e.locator
            let s := if curdBad st then s.curdEvent l st else s
            if b.tried || !curdBad st then .next (s.blkDone k i Nv.readError)
            else .next (s.scripted ms fun s => ((s.repairCopy e.shard l).setBlk k i { b with tried := true, step := .wait }).readMedium k i)
          | none => .next (s.readBlock k i (zeros 4096) (freshTags (s.cmdVol c)))
    | _ => .next s

end Sys2Proof.Machine
end

