-- ==== Sys2Proof/Machine/SepRows.lean ====
section
/-! DEFINITION. The Separator's descriptors: domains, lookups, entries, counts, relocation, merge scans, partitions (R135,
R136, R144, R150 to R157). -/
namespace Sys2Proof.Machine
open Sys2Proof

/-- A started descriptor of the Separator, or nothing. -/
def State.sepDesc (s : State) (d : DescRef) (op : Nat) (k : Fetched → State) : Host.Outcome State Fault Refusal :=
  match s.startedAt .sep d op with
  | none => .next s
  | some f => .next (k f)

def State.sepSt (s : State) (sh : Nat) : Nat := s.rd (SEP_SHARD.STATE sh)

/-- Handles of the entries this head's index holds. -/
def State.handles (s : State) : List Nat := s.sep.byLoc.map (·.2)

/-- Whether the index holds an entry, a PENDING entry or a hold of a domain (R136). -/
def State.domainUsed (s : State) (dom : Nat) : Bool :=
  (s.sep.filter.any fun t => t.2.any (·.domain == dom)) ||
    s.handles.any fun h => match s.entryAt h with
      | some e => e.domain == dom
      | none => false

/-- Whether the reserved bits of a domain entry are 0 (R135). -/
def domClean (e : List Byte) : Bool :=
  !(fieldAt e 0 2).testBit 14 && fieldAt e 2 1 / 4 == 0 && fieldAt e 3 1 / 4 == 0 && fieldAt e 4 2 / 2 ^ 13 == 0 &&
    fieldAt e 6 8 == 0 && fieldAt e 14 2 == 0

/-- DOMAIN_SET: the domain's entry is written; a change of TENANT or the end of VALID is refused while the domain is in
use. -/
def execDomainSet (d : DescRef) (s : State) : Host.Outcome State Fault Refusal :=
  s.sepDesc d Op.domainSet fun f =>
    let dom := f.at 28 2
    if f.len ≠ 16 then s.finish .sep d St.lengthMismatch
    else match s.dmaRead .sep f.src 16 (some d.ring) with
      | .error e => s.finishDma .sep d e
      | .ok new =>
        let old := s.domEntry dom
        if 4096 ≤ dom ∨ domClean new = false then s.finish .sep d St.domainInvalid
        else if (domTenant new ≠ domTenant old ∨ (domValid old ∧ !domValid new)) ∧ s.domainUsed dom then
          s.finish .sep d St.domainBusy
        else s.tableThen .sep d (s.rd SEP_DOMAIN_BASE.BASE * 4096 + dom * 16) new fun s => s.finish .sep d St.success

/-- The checks LOOKUP and INSERT make of their domain. -/
def State.domainRefused (s : State) (dom tenant : Nat) : Option Nat :=
  let e := s.domEntry dom
  if 4096 ≤ dom ∨ !domValid e then some St.domainInvalid
  else if domTenant e ≠ tenant then some St.tenantInvalid
  else none

/-- A descriptor that meets an uncorrectable error in the DRAM tier: a head loss, and UNIT_FAULT (R171; log entry 134). -/
def State.tierLost (s : State) (d : DescRef) : State := s.headLost.finish .sep d St.unitFault

/-- LOOKUP: the answer in INFO, the handle in RESULT, the LOCATOR in bytes 40 to 47 of the descriptor's slot. A LOOKUP that is to
take a hold requires an entry (log entry 131). -/
def execLookup (d : DescRef) (s : State) : Host.Outcome State Fault Refusal :=
  s.sepDesc d Op.lookup fun f =>
    let dom := f.at 28 2
    if f.len ≠ 32 then s.finish .sep d St.lengthMismatch
    else match s.domainRefused dom f.tenant with
      | some st => s.finish .sep d st
      | none => match s.dmaRead .sep f.src 32 (some d.ring) with
        | .error e => s.finishDma .sep d e
        | .ok fp =>
          let hold := (f.at 30 1).testBit 0
          if s.bucketsBad fp then s.tierLost d
          else match (s.noteBuckets fp).dramLookup dom fp hold none with
          | (.unique, s) => s.finish .sep d (if hold then St.entryNotFound else St.success) 0
          | (.noInsert, s) => s.finish .sep d St.success 2
          | (.dup h l _, s) =>
            match s.dmaWrite .sep (s.rd (RING_DBASE.BASE (unitBase .sep) d.ring) * 4096 + d.slot * 64 + 40) (leBytes 8 l) (some d.ring) with
            | .error e => s.finishDma .sep d e
            | .ok s => s.finish .sep d St.success 1 h

/-- The checks REF_ADJUST, RELOCATE and INSERT make of a shard: owned by this head, its partition LOADING or LOADED. -/
def State.sepShardRefused (s : State) (sh : Nat) : Option Nat :=
  if s.rd (PAR_SHARD.STATE sh) ≠ Pst.owned then some St.sepShardNotOwned
  else if s.sepSt sh = Sst.loading ∨ s.sepSt sh = Sst.loaded then none
  else some St.shardUnloaded

/-- INSERT: a VALID entry in a free slot of the two buckets. A copy that has an entry gets no second one. -/
def execInsert (d : DescRef) (s : State) : Host.Outcome State Fault Refusal :=
  s.sepDesc d Op.insert fun f =>
    let dom := f.at 28 2
    let sh := f.at 30 1
    let loc := f.at 40 8
    if f.len ≠ 32 then s.finish .sep d St.lengthMismatch
    else match s.domainRefused dom f.tenant with
      | some st => s.finish .sep d st
      | none => match s.sepShardRefused sh with
        | some st => s.finish .sep d st
        | none =>
          if f.at 32 4 = 0 then s.finish .sep d St.domainInvalid
          else match s.dmaRead .sep f.src 32 (some d.ring) with
            | .error e => s.finishDma .sep d e
            | .ok fp =>
              if s.bucketsBad fp then s.tierLost d
              else if (s.filterFind dom fp).isSome ∨ (s.dramMatch dom fp).isSome ∨ s.indexed sh loc then
                s.finish .sep d St.entryExists
              else match s.freeSlot fp with
                | none => (s.noteBuckets fp).finish .sep d St.bucketsFull
                | some h =>
                  let e : FEntry := {
                    fp := fp, domain := dom, state := Est.valid, shard := sh, refs := f.at 32 4, locator := loc, slot := some h }
                  s.tableThen .sep d (s.slotAddr h) e.bytes fun s =>
                    let s := s.setSep { s.sep with byLoc := Tab.set s.sep.byLoc (copyKey sh (s.locNow sh loc)) h }
                    (s.entriesUp sh).finish .sep d St.success 0 h

/-- ENTRY_HANDLE of an address word with bit 63 set (R156). -/
def entryHandle (v : Nat) : Option Nat := if v.testBit 63 then some (v % 2 ^ 35) else none

/-- Whether the slot of a descriptor's handle meets an uncorrectable error. -/
def State.handleBad (s : State) (f : Fetched) : Bool := match entryHandle f.src with
  | some h => s.slotBad h
  | none => false

/-- The entry a descriptor's handle names, its LOCATOR as expected, its shard in order; or the status that refuses it. -/
def State.entryFor (s : State) (f : Fetched) : Except Nat (Nat × FEntry) :=
  match entryHandle f.src with
  | none => .error St.addrInvalid
  | some h => match s.entryAt h with
    | none => .error St.locatorStale
    | some e =>
      match s.sepShardRefused e.shard with
      | some st => .error st
      | none => if e.locator ≠ f.at 40 8 then .error St.locatorStale else .ok (h, e)

/-- RESULT of REF_ADJUST: the counts after it. -/
def refResult (refs holds : Nat) : Nat := refs + holds * 2 ^ 32

/-- REF_ADJUST with a DELTA: the count changes at once; the descriptor completes when the change's journal record is on every
live replica (R148, R150, R155). -/
def State.adjust (s : State) (d : DescRef) (h : Nat) (e : FEntry) (delta : Int) : State :=
  let refs' := (e.refs : Int) + delta
  if refs' < 0 then (s.raise Ev.countUnderflow (some .sep) none [h]).finish .sep d St.countUnderflow
  else if 2 ^ 32 - 1 < refs' then s.finish .sep d St.countSaturated
  else
    let e' := { e with refs := refs'.toNat }
    let (gone, s') := (s.putEntry h e').sepWithdraw h
    let info := if gone then 1 else 0
    let result := refResult e'.refs e'.holds
    if delta = 0 then s'.finish .sep d St.success info result
    else if s'.cellSt e.shard = Cst.absent then s.finish .sep d St.shardUnloaded
    else (s'.journal e.shard {
      type := Jt.incr, epoch := 0, arg0 := e.locator, arg1 := ofSigned delta 64, done := .refAdj d info result }).2

/-- Whether the journal record of a REF_ADJUST is on its way to the replicas. -/
def State.refAdjusting (s : State) (d : DescRef) : Bool :=
  s.cell.shards.any fun t => t.2.recs.any fun r => match r.2.done with
    | .refAdj d' _ _ => d' == d
    | _ => false

/-- REF_ADJUST: a hold released, or FREEZE, THAW and the DELTA. -/
def execRefAdjust (d : DescRef) (s : State) : Host.Outcome State Fault Refusal :=
  s.sepDesc d Op.refAdjust fun f =>
    if s.refAdjusting d then s
    else if s.handleBad f then s.tierLost d
    else match s.entryFor f with
      | .error st => s.finish .sep d st
      | .ok (h, e) =>
        let fl := f.at 32 1
        if fl.testBit 0 then
          if e.holds = 0 then s.finish .sep d St.countUnderflow
          else
            (s.releaseHold h).finish .sep d St.success (if e.refs + e.holds = 1 then 1 else 0) (refResult e.refs (e.holds - 1))
        else
          let st := if fl.testBit 2 then Est.valid else if fl.testBit 1 then Est.frozen else e.state
          let e := { e with state := st }
          (s.putEntry h e).adjust d h e (toSigned (f.at 28 4) 32)

/-- RELOCATE: a VALID entry without holds takes a new LOCATOR. -/
def execRelocate (d : DescRef) (s : State) : Host.Outcome State Fault Refusal :=
  s.sepDesc d Op.relocate fun f =>
    if s.handleBad f then s.tierLost d
    else match s.entryFor f with
    | .error st => s.finish .sep d st
    | .ok (h, e) =>
      if e.state ≠ Est.valid then s.finish .sep d St.locatorStale
      else if e.holds ≠ 0 then s.finish .sep d St.entryHeld
      else
        let new := f.at 48 8
        let s := s.putEntry h { e with locator := new }
        let s := s.setSep { s.sep with
          byLoc := Tab.set (Tab.del s.sep.byLoc (copyKey e.shard (s.locNow e.shard e.locator)))
            (copyKey e.shard (s.locNow e.shard new)) h }
        s.finish .sep d St.success

/-- Run records probed one by one: records probed, pairs found, their bytes; the scan stops before a pair that would pass
OUT_CAP. -/
def State.mergePairs (s : State) (cap : Nat) : Nat → Nat → List Byte → Nat × List Byte
  | _, 0, _ => (0, [])
  | i, n + 1, bs =>
    let r := bs.take 48
    let go := fun (cap : Nat) (pair : List Byte) =>
      let (m, out) := s.mergePairs cap (i + 1) n (bs.drop 48)
      (m + 1, pair ++ out)
    match s.dramMatch (fieldAt r 32 2) (slice r 0 32) with
    | none => go cap []
    | some e =>
      if e.locator = fieldAt r 40 8 then go cap []
      else if cap < 16 then (0, [])
      else go (cap - 16) (leBytes 4 i ++ zeros 4 ++ leBytes 8 (e.slot.getD 0))

/-- MERGE_SCAN: pairs of a run record and a DRAM entry with one key and two LOCATORs. -/
def execMergeScan (d : DescRef) (s : State) : Host.Outcome State Fault Refusal :=
  s.sepDesc d Op.mergeScan fun f =>
    if f.len % 48 ≠ 0 then s.finish .sep d St.lengthMismatch
    else match s.dmaRead .sep f.src f.len (some d.ring) with
      | .error e => s.finishDma .sep d e
      | .ok bs =>
        if (List.range (f.len / 48)).any fun i => s.bucketsBad (slice bs (48 * i) 32) then s.tierLost d
        else
        let (n, out) := s.mergePairs (f.at 28 4) 0 (f.len / 48) bs
        match s.dmaWrite .sep f.dst out (some d.ring) with
        | .error e => s.finishDma .sep d e
        | .ok s => s.finish .sep d St.success n (out.length / 16)

/-- Copies that lost a reference while their shard's partition was loading are looked at once it is LOADED: one without an
entry that nothing references is garbage (R140, R153). -/
def State.sweepOrphans (s : State) (sh : Nat) : State :=
  let (mine, rest) := s.sep.orphans.partition (·.1 == sh)
  mine.foldl (fun s o => if s.indexed o.1 o.2 ∨ s.copyRefs o.1 o.2 none ≠ 0 then s else s.copyGarbage o.1 o.2)
    (s.setSep { s.sep with orphans := rest })

/-- A partition enters a state; LOADED is recorded when it is entered. -/
def State.enterPartition (s : State) (sh st : Nat) : State :=
  let t := s.wr (SEP_SHARD.STATE sh) st
  if st = Sst.loaded then
    let t := t.sweepOrphans sh
    if s.sepSt sh = Sst.loaded then t else t.raise Ev.shardLoaded (some .sep) (some sh) [sh]
  else t

/-- Whether a shard has entries, PENDING entries or holds. -/
def State.partHeld (s : State) (sh : Nat) : Bool :=
  s.rd (SEP_SHARD.HOLDS sh) != 0 || s.sep.filter.any fun t => t.2.any fun e => e.shard == sh && e.pinned

/-- SHARD_STATE: a change to DROPPING waits for holds and PENDING entries, and ends when the entries are freed (R153). A shard
with entries reaches ABSENT through DROPPING. -/
def execShardState (d : DescRef) (s : State) : Host.Outcome State Fault Refusal :=
  s.sepDesc d Op.shardState fun f =>
    let sh := f.at 28 1
    let st := f.at 29 1
    if 3 < st then s.finish .sep d St.domainInvalid
    else if s.sep.dropping.any (·.1 == sh) then s
    else if st = Sst.dropping ∨ (st = Sst.absent ∧ (s.rd (SEP_SHARD.ENTRIES sh) ≠ 0 ∨ s.partHeld sh)) then
      if s.partHeld sh then s.setPhase .sep d .waiting
      else
        ((s.wr (SEP_SHARD.STATE sh) Sst.dropping).setSep { s.sep with dropping := s.sep.dropping ++ [(sh, some d)] }).setPhase
          .sep d .started
    else (s.enterPartition sh st).finish .sep d St.success

/-- An entry's slot becomes FREE without any effect on its copy: a partition dropped. -/
def State.dropEntry (s : State) (sh h : Nat) : State :=
  match s.entryAt h with
  | some e => if e.shard = sh then s.freeEntry h e else s
  | none => s

/-- SHARD_DROP_DONE: a DROPPING partition has freed its entries and is ABSENT. -/
def execShardDropDone (shard : Nat) (s : State) : Host.Outcome State Fault Refusal :=
  match s.sep.dropping.find? (·.1 == shard) with
  | none => .next s
  | some p =>
    let s := s.handles.foldl (fun s h => s.dropEntry shard h) s
    let s := s.setSep { s.sep with
      dropping := s.sep.dropping.filter (·.1 != shard)
      byLoc := Tab.keep s.sep.byLoc fun k _ => k / 2 ^ 64 != shard }
    let s := (s.wr (SEP_SHARD.STATE shard) Sst.absent).wr (SEP_SHARD.ENTRIES shard) 0
    match p.2 with
    | some d => .next (s.finish .sep d St.success)
    | none => .next s

end Sys2Proof.Machine
end

