-- ==== Sys2Proof/Machine/Tenon.lean ====
section
/-! DEFINITION. The Tenon link: states, flits, credits, time synchronisation, forwarding, maintenance messages, mail (R318 to
R330, R348, R350). A message of the peer arrives only while the link is ACTIVE. -/
namespace Sys2Proof.Machine
open Sys2Proof

/-! ## Link states (R319, R320) -/

/-- SYNCED falls to 0 (R326). -/
def State.unsync (s : State) : State :=
  let s := s.setTen { s.ten with synced := none }
  if s.on TEN_TIME_STATUS.SYNCED then (s.wr TEN_TIME_STATUS.SYNCED 0).raise Ev.timeUnsync (some .ten) else s

/-- A link that is lost: what was being replayed is discarded, classes 0 to 2 are dropped, mail that has not been placed fails,
requests that waited for an answer are asked again. -/
def State.tenLost (s : State) : State :=
  let mails := s.ten.mailOut
  let s := ((s.wr TEN_STATUS.WIDTH 0).wr TEN_STATUS.LANES 0).setTen { s.ten with
    limit := some (s.inMgmt 160), bad := 0, nakDue := false, nakRun := 0, inNakRun := 0, mailOut := [], maint := [], slewLeft := 0,
    timeAt := none, t1 := none
    out := s.ten.out.filter fun m => match m with
      | .wipeAsk _ _ | .deferErase _ _ _ _ | .mail _ _ => false
      | _ => decide (2 < m.cls) }
  let s := { s with ports := Tab.mapV s.ports fun _ (y : HeadPort) => { y with attach := none } }
  (mails.foldl (fun s d => s.finish .ten d St.linkDown) s).unsync

/-- Entry into DOWN. -/
def State.tenDown (s : State) (cause : Nat) : State :=
  let s := ((s.wr TEN_STATUS.STATE Tst.down).wr TEN_STATUS.DOWN_CAUSE cause).tenLost
  (s.raise Ev.tenDown (some .ten) none [cause]).linkChanged

/-- Entry into RETRAIN: flits are kept. -/
def State.tenRetrain (s : State) : State :=
  let s := (s.wr TEN_STATUS.STATE Tst.retrain).bump TEN_STATUS.RETRAINS 1
  (s.setTen { s.ten with limit := some (s.now + 1600000), nakDue := false, nakRun := 0, inNakRun := 0 }).linkChanged

def State.tenSt (s : State) : Nat := s.rd TEN_STATUS.STATE

/-- A link without limit in a state. -/
def State.setTst (s : State) (st : Nat) (limit : Option Nat) : State :=
  (s.wr TEN_STATUS.STATE st).setTen { s.ten with limit := limit }

/-- The largest of 8, 4, 2 and 1 that is not greater than a number of good lanes. -/
def widthOf (n : Nat) : Nat := if 8 ≤ n then 8 else if 4 ≤ n then 4 else if 2 ≤ n then 2 else if 1 ≤ n then 1 else 0

/-- The width that MIN_WIDTH names. -/
def State.minWidth (s : State) : Nat := 2 ^ s.rd TEN_CTL.MIN_WIDTH

/-- Whether the lanes `use` may be the lanes in use when those of `good` are good; a lane found bad is not (R320). -/
def State.lanesFit (s : State) (good use : Nat) : Bool :=
  let ok := good &&& s.rd TEN_CTL.LANE_EN &&& (255 ^^^ s.ten.bad)
  popCount use 8 == widthOf (popCount ok 8) && (use % 256 &&& ok) == use

/-- WIDTH, LANES and REVERSED after training. -/
def State.lanesUsed (s : State) (use : Nat) (reversed : Bool) : State :=
  ((s.wr TEN_STATUS.WIDTH (popCount use 8)).wr TEN_STATUS.LANES use).wr TEN_STATUS.REVERSED (if reversed then 1 else 0)

/-- Free contexts of FWD_RESERVE, the command credits of the peer (R102, R324). -/
def State.forwardRoom (s : State) : Nat := s.rd PAR_CTL.FWD_RESERVE - (s.par.cmds.filter fun e => e.2.origin.isSome).length

/-- TEN_CTL.EN set or cleared. -/
def State.tenEnable (s : State) (en : Bool) : State :=
  let s := s.wr TEN_CTL.EN (if en then 1 else 0)
  if en then (if s.tenSt = Tst.disabled ∧ !s.solo then (s.setTst Tst.detect none).linkChanged else s)
  else
    let s := if s.tenSt = Tst.active then s.tenDown 7 else if s.tenSt = Tst.disabled then s else s.tenLost
    (s.setTst Tst.disabled none).linkChanged

/-- TENON_ENABLE: EN set or cleared. -/
def execTenonEnable (origin : Origin) (en : Bool) (s : State) : Host.Outcome State Fault Refusal :=
  .next (s.cfgField .ten origin TEN_CTL.EN (if en then 1 else 0) fun s => s.tenEnable en)

/-- TENON_RETRAIN: an ACTIVE link is forced into RETRAIN. -/
def execTenonRetrain (origin : Origin) (s : State) : Host.Outcome State Fault Refusal :=
  .next (s.cfgField .ten origin TEN_CTL.RETRAIN 1 fun s => if s.tenSt = Tst.active then s.tenRetrain else s)

/-- TENON_SIGNAL_DETECT: signal on the lanes of a mask. -/
def execTenonSignalDetect (lanes : Nat) (s : State) : Host.Outcome State Fault Refusal :=
  if s.tenSt = Tst.detect ∧ s.minWidth ≤ popCount (lanes &&& s.rd TEN_CTL.LANE_EN) 8 then
    .next (s.setTst Tst.train (some (s.inMgmt 160)))
  else .next s

/-- TENON_TRAIN_DONE: the lanes of `good` have aligned, those of `use` are put in use. -/
def execTenonTrainDone (good use : Nat) (reversed : Bool) (s : State) : Host.Outcome State Fault Refusal :=
  if s.tenSt = Tst.train ∧ s.lanesFit good use ∧ s.minWidth ≤ popCount use 8 then
    .next ((s.setTst Tst.exchange none).lanesUsed use reversed)
  else .next s

/-- TENON_TRAIN_TIMEOUT. -/
def execTenonTrainTimeout (s : State) : Host.Outcome State Fault Refusal :=
  if s.tenSt = Tst.train ∧ s.due s.ten.limit then .next (s.tenDown 2) else .next s

/-- The link enters ACTIVE after EXCHANGE: sequence numbers and credits start anew, and waiting messages leave. -/
def State.tenUp (s : State) : State :=
  let s := (s.setTst Tst.active none).setTen { s.ten with
    limit := none, lastFlit := s.now, rxSeq := 1023, ackd := 1023, nakRun := 0, inNakRun := 0, nakDue := false, credits := []
    timeAt := if s.on TEN_TIME_STATUS.MASTER then none else some s.now }
  let s := ((s.raise Ev.tenUp (some .ten)).linkChanged).tenSend (.credit 4 s.forwardRoom)
  s.tenPump s.ten.out.length

/-- TENON_EXCHANGE: the peer's version, head number and CHIP_TIME. -/
def execTenonExchange (version : Nat) (head : Fin 2) (time : Nat) (s : State) : Host.Outcome State Fault Refusal :=
  if s.tenSt ≠ Tst.exchange then .next s
  else
    let s := s.wr TEN_STATUS.PEER_HEAD head.val
    if version ≠ 1 then .next (s.tenDown 5)
    else if head.val = s.headNo then .next ((s.raise Ev.headConflict (some .ten)).tenDown 4)
    else
      let master := decide (time < s.now) || (decide (time = s.now) && s.headNo == 0)
      .next ((s.wr TEN_TIME_STATUS.MASTER (if master then 1 else 0)).tenUp)

/-- FLIT_SILENCE_EXPIRY: no valid flit for 16,000 ticks. -/
def execFlitSilenceExpiry (s : State) : Host.Outcome State Fault Refusal :=
  if s.tenSt = Tst.active ∧ s.passed (s.ten.lastFlit + 16000) then .next s.tenRetrain else .next s

/-- TENON_RETRAIN_DONE: trained again; too narrow, the link goes DOWN. -/
def execTenonRetrainDone (good use : Nat) (reversed : Bool) (s : State) : Host.Outcome State Fault Refusal :=
  if s.tenSt ≠ Tst.retrain ∨ !s.lanesFit good use then .next s
  else if popCount use 8 < s.minWidth then .next (s.tenDown 3)
  else
    let s := ((s.setTst Tst.active none).setTen { s.ten with limit := none, lastFlit := s.now }).lanesUsed use reversed
    let s := s.linkChanged
    .next (s.tenPump s.ten.out.length)

/-- TENON_RETRAIN_TIMEOUT: 1 ms in RETRAIN. -/
def execTenonRetrainTimeout (s : State) : Host.Outcome State Fault Refusal :=
  if s.tenSt = Tst.retrain ∧ s.due s.ten.limit then .next (s.tenDown 1) else .next s

/-- TENON_DOWN_EXPIRY: 160 ticks in DOWN. -/
def execTenonDownExpiry (s : State) : Host.Outcome State Fault Refusal :=
  if s.tenSt = Tst.down ∧ s.on TEN_CTL.EN ∧ s.due s.ten.limit then .next ((s.setTst Tst.detect none).linkChanged) else .next s

/-- TENON_LANE_ERROR_LIMIT: a lane in use is no longer good; the link retrains without it (R320). -/
def execTenonLaneErrorLimit (lane : Fin 8) (s : State) : Host.Outcome State Fault Refusal :=
  if s.tenSt = Tst.active ∧ s.bit TEN_STATUS.LANES lane then
    .next (((s.setTen { s.ten with bad := s.ten.bad ||| 2 ^ lane.val }).raise Ev.tenDegraded (some .ten) none [lane]).tenRetrain)
  else .next s

/-! ## Flits (R321, R322) -/

/-- A NAK set for the flit after the last good one; the eighth in a row for it ends in RETRAIN. -/
def State.nak (s : State) : State :=
  let n := s.ten.nakRun + 1
  let s := (s.bump TEN_ERR.REPLAYS 1).setTen { s.ten with nakDue := true, nakRun := n }
  if 8 ≤ n then s.tenRetrain else s

/-- FLIT_RX: a flit with its FEC and CRC outcome and the header fields of a good one. -/
def execFlitRx (good corrected : Bool) (fseq ack : Fin 1024) (nak : Bool) (s : State) : Host.Outcome State Fault Refusal :=
  if s.tenSt ≠ Tst.active then .next s
  else
    let s := if corrected then s.bump TEN_ERR.FEC_CORR 1 else s
    if !good then .next ((s.bump TEN_ERR.CRC_FAIL 1).nak)
    else
      let s := s.setTen { s.ten with lastFlit := s.now }
      let s := if fseq.val = (s.ten.rxSeq + 1) % 1024 then
          s.setTen { s.ten with rxSeq := fseq.val, nakDue := false, nakRun := 0 }
        else if s.ten.nakDue then s
        else s.nak
      if s.tenSt ≠ Tst.active then .next s
      else
        let run := if nak then (if s.ten.ackd = ack.val then s.ten.inNakRun + 1 else 1) else 0
        let s := s.setTen { s.ten with ackd := ack.val, inNakRun := run }
        if 8 ≤ run then .next s.tenRetrain else .next s

/-- CTRL_CREDIT: the peer returns credits of a class (key 4: commands of FWD_REQ, key 8: its data). Credits of MAIL say that
messages have been placed. -/
def execCtrlCredit (key n : Nat) (s : State) : Host.Outcome State Fault Refusal :=
  if !s.linkActive ∨ key = 0 ∨ 8 < key then .next s
  else
    let s := s.setTen { s.ten with credits := Tab.set s.ten.credits key (s.credit key + n) }
    let placed := if key = 7 then
        (s.ten.mailOut.foldl (fun (a : List DescRef × Nat) d =>
          let size := ((s.fetchedAt .ten d).map fun f => 16 + alignUp f.len 16).getD 0
          if size ≤ a.2 then (a.1 ++ [d], a.2 - size) else (a.1, 0)) ([], n)).1
      else []
    let s := s.setTen { s.ten with mailOut := s.ten.mailOut.filter fun d => !placed.contains d }
    let s := placed.foldl (fun s d => s.finish .ten d St.success) s
    .next (s.tenPump s.ten.out.length)

/-! ## Time synchronisation (R325, R326) -/

/-- TIME_REQ_PERIOD: the slave sends TIME_REQ. -/
def execTimeReqPeriod (s : State) : Host.Outcome State Fault Refusal :=
  if s.linkActive ∧ !s.on TEN_TIME_STATUS.MASTER ∧ s.due s.ten.timeAt then
    .next ((s.setTen { s.ten with t1 := some s.now, timeAt := some (s.now + s.rd TEN_TIME_CFG.PERIOD * 1600) }).tenSend
      (.timeReq s.now))
  else .next s

/-- TIME_REQ: the master answers with the stamps of arrival and departure. -/
def execTimeReq (t1 : Nat) (s : State) : Host.Outcome State Fault Refusal :=
  if s.linkActive ∧ s.on TEN_TIME_STATUS.MASTER then .next ((s.received 2 1).tenSend (.timeResp t1 s.now s.now)) else .next s

/-- Half of a difference in ticks; which way an odd one is rounded is open (log entry 8). -/
def State.half (s : State) (d : Int) : Int × State :=
  if d % 2 = 0 then (d / 2, s) else (d / 2 + (s.freeWord % 2 : Nat), s.draw)

/-- TIME_RESP: the slave computes its offset, steps or slews, and trims its rate after the first exchange. The trim's value
is open (log entry 8). -/
def execTimeResp (t1 t2 t3 : Nat) (s : State) : Host.Outcome State Fault Refusal :=
  if !s.linkActive ∨ s.on TEN_TIME_STATUS.MASTER ∨ s.ten.t1 ≠ some t1 then .next s
  else
    let s := s.received 2 1
    let (h, s) := s.half (((s.now : Int) - t3) - ((t2 : Int) - t1))
    let off := h + toSigned (s.rd TEN_TIME_CFG.ASYM) 16
    let step := s.heldShards.isEmpty && decide (off ≤ -((s.rd TEN_TIME_CFG.STEP_MIN * mgmtTick : Nat) : Int))
    let near := decide (-32 ≤ off) && decide (off ≤ 32)
    let s := s.wr TEN_TIME_STATUS.OFFSET (ofSigned off 32)
    let s := (s.wr TEN_TIME_STATUS.RATE s.freeWord).draw
    let s := if step then { s with now := (s.now + (-off).toNat) % 2 ^ 64 } else s
    let s := s.setTen { s.ten with
      t1 := none, exchanged := true, slewLeft := if step then 0 else off
      slewAt := if s.ten.slewLeft = 0 then s.now else s.ten.slewAt }
    if near then .next ((s.wr TEN_TIME_STATUS.SYNCED 1).setTen { s.ten with synced := some s.now }) else .next s.unsync

/-- TIME_SLEW: a window of 4,096 ticks ends; the slave adds a tick, or lets one pass that does not count. -/
def execTimeSlew (s : State) : Host.Outcome State Fault Refusal :=
  if s.on TEN_TIME_STATUS.MASTER ∨ s.ten.slewLeft = 0 ∨ !s.passed (s.ten.slewAt + 4096) then .next s
  else if s.ten.slewLeft < 0 then
    let s := { s with now := (s.now + 1) % 2 ^ 64 }
    .next (s.setTen { s.ten with slewLeft := s.ten.slewLeft + 1, slewAt := s.now })
  else .next (s.setTen { s.ten with slewLeft := s.ten.slewLeft - 1, slewAt := s.now })

/-- TIME_SYNC_LAPSE: 16 management ticks without an exchange within ±32 ticks. -/
def execTimeSyncLapse (s : State) : Host.Outcome State Fault Refusal :=
  match s.ten.synced with
  | some t => if s.passed (t + 16 * mgmtTick) then .next s.unsync else .next s
  | none => .next s

/-! ## Forwarding (R112, R327 to R330) -/

/-- FWD_REQ: a command of the peer takes a context of FWD_RESERVE and is eligible in its class. -/
def execFwdReq (tag : Nat) (cls : Fin 4) (tenant : Nat) (shard : Fin 256) (capsule data : List (BitVec 8)) (s : State) :
    Host.Outcome State Fault Refusal :=
  if !s.linkActive ∨ !s.on PAR_CTL.EN ∨ !s.peerRoom ∨ s.par.cmds.any (fun e => e.2.origin == some tag) then .next s
  else match s.freeContext with
    | none => .next s
    | some k =>
      let c : NvmeCmd := {
        sqe := capsule.take 64, incap := capsule.drop 64, ctx := none, cntlid := unboundCntlid, qid := 0, cls := cls.val,
        tenant := tenant, vol := 0, stage := .eligible, since := s.now, eligibleAt := s.now, buf := data, origin := some tag,
        only := some shard.val }
      let s := s.setCmd k { c with vol := volOfNsid c.nsid }
      let s := (s.setPar { s.par with ready := s.par.ready ++ [k] }).countCtxs
      .next (s.received 8 (alignUp data.length 16))

/-- The command and the part a TAG of this head names. -/
def State.forwarded (s : State) (tag : Nat) : Option (Nat × NvmeCmd × FwdPart) :=
  s.par.cmds.findSome? fun e => (e.2.fwds.find? fun f => f.tag == tag && (f.st == 1 || f.st == 3)).map fun f => (e.1, e.2, f)

/-- A part with the peer has finished there: its blocks are done, read data stand at their first block. A path status is kept
apart (R121); DEFERRED joins the mask. -/
def NvmeCmd.partBack (c : NvmeCmd) (f : FwdPart) (status dw0 dw1 : Nat) (data : List Byte) : NvmeCmd :=
  let path := status == Nv.inaccessible || status == Nv.transition
  let c := if status = 0 ∨ path then c else c.fail status
  let mine := fun (b : Blk) => b.step == .fwd && blockShard c.vol b.block == f.shard
  let first := c.blks.findIdx? mine
  { c with
    fwds := c.fwds.map fun g => if g.tag = f.tag then { g with st := 2 } else g
    blks := c.blks.zipIdx.map fun b => if mine b.1 then { b.1 with step := .done, data := if first = some b.2 then data else [] } else b.1
    retained := c.retained + dw0, deferred := c.deferred ||| dw1 % 65536, changed := c.changed || (status == 0 && c.mutates)
    refused := if path then c.refused ++ [(f.shard, status)] else c.refused }

/-- FWD_RSP: a completion of the owner with its read data, or the confirmation of a cancel: status 08h says that the part was
cancelled before its commit point (log entry 125). A completion that crosses a cancel is suppressed, and shows that the part
had passed it. -/
def execFwdRsp (tag status dw0 dw1 : Nat) (data : List (BitVec 8)) (confirm : Bool) (s : State) :
    Host.Outcome State Fault Refusal :=
  if !s.linkActive then .next s
  else
    let s := s.received 3 (if confirm then 16 else 32 + alignUp data.length 16)
    match s.forwarded tag with
    | none => .next s
    | some (k, c, f) =>
      if confirm then
        if f.st ≠ 3 then .next s
        else
          let c := c.partBack { f with st := 2 } Nv.sqDeletion 0 0 []
          let c := { c with past := c.past || status != Nv.sqDeletion }
          .next ((s.setCmd k c).cutSettled k c)
      else if f.st = 3 then .next (s.setCmd k { c with past := true })
      else .next ((s.setCmd k (c.partBack f status dw0 dw1 data)).finishIfDone k)

/-- FWD_CANCEL: the owner settles a forwarded command by its own commit point, and confirms. One it no longer has was past
it. -/
def execFwdCancel (tag : Nat) (s : State) : Host.Outcome State Fault Refusal :=
  if !s.linkActive then .next s
  else match s.par.cmds.find? fun e => e.2.origin == some tag with
    | none => .next (s.tenSend (.cancelled tag true))
    | some (k, c) =>
      if s.pastCommit k c then .next (s.setCmd k { c with cut := true })
      else .next ((s.cancel k).tenSend (.cancelled tag false))

/-- FWD_WAIT_EXPIRY: the link has been down for FWD_WAIT and the peer is not lost: associations with a command at the peer
end; completions for the peer are discarded (R330). -/
def execFwdWaitExpiry (s : State) : Host.Outcome State Fault Refusal :=
  match s.leaseU.linkOut with
  | none => .next s
  | some t =>
    if s.leaseU.peerLost ∨ !s.passed (t + s.rd TEN_FWD_CFG.FWD_WAIT * mgmtTick) then .next s
    else
      let gone := (s.par.cmds.filter fun e => e.2.origin.isNone && e.2.fwds.any fun f => f.st == 1).map (·.2.cntlid)
      let s := s.setPar { s.par with cmds := Tab.mapV s.par.cmds fun _ (c : NvmeCmd) => if c.origin.isSome then { c with cut := true } else c }
      let s := s.setTen { s.ten with out := s.ten.out.filter fun m => match m with
        | .fwdRsp _ _ _ _ _ | .cancelled _ _ => false
        | _ => true }
      .next (gone.eraseDups.foldl (fun s n => s.assocLoss n assocCause.forward) s)

/-! ## Maintenance (R155, R267, R308, R311) -/

/-- MAINT_INCREMENT: an increment of the peer is journaled in this head's shard; the answer goes out once it is durable. -/
def execMaintIncrement (tag : Nat) (shard : Fin 256) (locator count : Nat) (s : State) : Host.Outcome State Fault Refusal :=
  if !s.linkActive then .next s
  else
    let sh := shard.val
    let s := s.received 5 32
    match s.sepShardRefused sh with
    | some st => .next (s.tenSend (.incremented tag st))
    | none => match Tab.get? s.sep.byLoc (copyKey sh (s.locNow sh locator)) with
      | none => .next (s.tenSend (.incremented tag St.locatorStale))
      | some h => match s.entryAt h with
        | none => .next (s.tenSend (.incremented tag St.locatorStale))
        | some e =>
          if 2 ^ 32 - 1 < e.refs + count then .next (s.tenSend (.incremented tag St.countSaturated))
          else
            let s := s.putEntry h { e with refs := e.refs + count }
            .next (s.journal sh { type := Jt.incr, epoch := 0, arg0 := e.locator, arg1 := count, done := .maint tag }).2

/-- The listed bands of a blade erased for the peer, with those that could be; this head's own deferred erasures of one end with
it. -/
def State.peerErase (s : State) (blade shard : Nat) (bands : List Nat) : List Nat × State :=
  bands.foldl (fun (a : List Nat × State) n =>
    let s := match a.2.band blade n with
      | some _ => a.2
      | none => a.2.setBand blade n { kind := .main, shard := shard, st := .closed }
    let (ok, s) := s.wipeBand blade n
    if ok then (a.1 ++ [n], ((s.defersOf blade).filter fun e => e.1 == shard && e.2.2 == n).foldl
      (fun s e => s.deferErased blade shard e.2.1 n) s)
    else (a.1, s)) ([], s)

/-- MAINT_DEFER_ERASE: listed bands of a blade are erased under this head's epoch, and the peer is told which. -/
def execMaintDeferErase (tag : Nat) (blade : Fin 16) (shard : Fin 256) (bands : List Nat) (ms : List Medium) (s : State) :
    Host.Outcome State Fault Refusal :=
  if !s.linkActive then .next s
  else
    let s := s.received 5 (16 + alignUp (2 * bands.length) 16)
    if !s.liveLease shard ∨ s.cellSt shard ≠ Cst.ready then .next (s.tenSend (.deferErased tag []))
    else .next (s.scripted ms fun s =>
      let (out, s) := s.peerErase blade shard bands
      s.tenSend (.deferErased tag out))

/-- PEER_WIPE_CONSENT: the peer asks for consent to wipe a blade; WIPE_CONSENT goes to the blade, and the outcome to the
peer. -/
def execPeerWipeConsent (tag : Nat) (blade : Fin 16) (s : State) : Host.Outcome State Fault Refusal :=
  if !s.linkActive then .next s
  else
    let (a, s) := (s.received 5 16).bladeSync blade ⟨bcpImg Bop.wipeConsent 0 0 0 0 0 0 [], [], []⟩
    .next (s.tenSend (.wipeConsent tag blade (a.status == St.success)))

/-- MAINT_ACK: an answer to a request of this head: bands the peer has erased, or its consent to WIPE. An increment's
acknowledgement ends nothing here: the request is software's (R155). -/
def execMaintAck (tag : Nat) (ok : Bool) (bands : List Nat) (ms : List Medium) (s : State) : Host.Outcome State Fault Refusal :=
  if !s.linkActive then .next s
  else
    let s := s.received 5 (16 + alignUp (2 * bands.length) 16)
    match s.ten.maint.find? (·.1 == tag) with
    | none => .next s
    | some (_, d) =>
      let s := s.setTen { s.ten with maint := s.ten.maint.filter (·.1 != tag) }
      match s.fetchedAt .cell d with
      | none => .next s
      | some f =>
        let b := f.at 28 1
        if (f.at 29 1).testBit 0 then
          if ok then execBladeAttach d ms s else .next ((s.wr (CELL_BLADE.STATE b) 0).finish .cell d St.wipeNoConsent)
        else
          let s := s.setCblade b { s.cblade b with defers := (s.cblade b).defers.filter fun e => !(bands.contains e.2.2) }
          if s.ten.maint.any (·.2 == d) then .next s else execBladeAttach d ms s

/-! ## Mail (R348) -/

/-- MAIL_SEND: the message goes out; the descriptor completes when the peer has placed it. -/
def execMailSend (d : DescRef) (s : State) : Host.Outcome State Fault Refusal :=
  match s.startedAt .ten d Op.mailSend with
  | none => .next s
  | some f =>
    if s.ten.mailOut.contains d then .next s
    else if !s.linkActive then .next (s.finish .ten d St.linkDown)
    else if 4096 < f.len then .next (s.finish .ten d St.msgTooLong)
    else if f.len = 0 then .next (s.finish .ten d St.lengthMismatch)
    else match s.dmaRead .ten f.src f.len (some d.ring) with
      | .error e => .next (s.finishDma .ten d e)
      | .ok bs => .next (((s.setPhase .ten d .waiting).setTen { s.ten with mailOut := s.ten.mailOut ++ [d] }).tenSend (.mail (f.at 28 4) bs))

/-- The oldest message that has arrived is placed in the buffer of a MAIL_RECV; its credits go back. -/
def State.mailPlace (s : State) (d : DescRef) (f : Fetched) : State :=
  match s.ten.mail with
  | [] => s.setPhase .ten d .waiting
  | (tag, bs) :: rest => match s.dmaWrite .ten f.dst bs (some d.ring) with
    | .error e => s.finishDma .ten d e
    | .ok s => ((s.setTen { s.ten with mail := rest }).received 7 (16 + alignUp bs.length 16)).finish .ten d St.success 0
        (bs.length + tag * 2 ^ 32)

/-- MAIL_RECV: the oldest message, or the next. -/
def execMailRecv (d : DescRef) (s : State) : Host.Outcome State Fault Refusal :=
  match s.startedAt .ten d Op.mailRecv with
  | none => .next s
  | some f => if f.len < 4096 then .next (s.finish .ten d St.lengthMismatch) else .next (s.mailPlace d f)

/-- MAIL_RX: a message of the peer completes the first MAIL_RECV that waits, or is kept. -/
def execMailRx (tag : Nat) (bytes : List (BitVec 8)) (s : State) : Host.Outcome State Fault Refusal :=
  if !s.linkActive ∨ bytes.isEmpty ∨ 4096 < bytes.length then .next s
  else
    let s := s.setTen { s.ten with mail := s.ten.mail ++ [(tag % 2 ^ 32, bytes)] }
    match s.firstWaiting .ten Op.mailRecv with
    | some (d, f) => .next (s.mailPlace d f)
    | none => .next s

end Sys2Proof.Machine
end

