-- ==== Sys2Proof/Machine/Units.lean ====
section
/-! DEFINITION. A unit's EN becoming 1 (R528, R503, R162, R361), and uncorrectable errors of the Vat (R370). -/
namespace Sys2Proof.Machine
open Sys2Proof

/-! ## EN of a unit -/

/-- The EN bit of the units whose enable starts work. -/
def enField : UnitId → Option Fld
  | .par => some PAR_CTL.EN | .sep => some SEP_CTL.EN | .churn => some CHURN_CTL.EN | .press => some PRESS_CTL.EN
  | .ven => some VEN_CTL.EN | .carc => some CARC_CTL.EN | .cell => some CELL_CTL.EN | .lease => some LEASE_CTL.EN
  | .cool => some COOL_CTL.EN | .vat => some VAT_CTL.EN | .mtr => some MTR_CTL.EN
  | _ => none

/-- Whether the head may take a shard (R503). -/
def State.bootReady (s : State) : Bool :=
  s.rd PWR_BOOT_STATUS.STEP == 9 && s.on SEC_STATUS.IMAGES_OK && s.on SEC_STATUS.KEK
    && ((List.range (if s.on DDR_CFG.CH_MODE then 6 else 12)).all fun c => s.rd (DDR_STATUS.STATE c) == Ddr.ready)
    && s.on PAR_CTL.EN && s.on SEP_CTL.EN && s.on CELL_CTL.EN && s.on CARC_CTL.EN
    && s.rd LEASE_CFG.BLADES != 0
    && decide (s.leaseMajority ≤ (s.counted.filter fun b => s.bldSt b == Bst.ready).length)
    && (s.solo || (s.linkActive && s.on TEN_TIME_STATUS.SYNCED) || s.leaseU.peerLost)

/-- What a unit begins when its EN becomes 1: work that was held goes on by itself; timers start here. -/
def State.unitStarts (s : State) (u : UnitId) : State :=
  match u with
  | .vat => s.vatGrant
  | .churn => (s.setChurn { dicts := [], onChip := [] }).wr CHURN_STATUS.DICT_RESIDENT 0
  | .cell => s.setCell { s.cell with healthAt := some (s.inMgmt (10 * s.rd CELL_HEALTH_RING.PERIOD)) }
  | .mtr =>
    let n := s.mtrLen
    { s with mtr := { s.mtr with lastCut := s.now, len := n, nextCut := some ((s.now / n + 1) * n) } }
  | .lease =>
    let s := s.setLease { s.leaseU with
      wdogBy := some (s.inMgmt (s.rd LEASE_HB_CFG.WDOG_LIMIT)), hbInAt := s.now
      linkOut := s.leaseU.linkOut.map fun _ => s.now }
    if s.bootReady then s.raise Ev.bootReady (some .lease) else s
  | _ => s

/-- EN of a unit written to 1. -/
def State.enableUnit (s : State) (u : UnitId) : State :=
  match enField u with
  | none => s
  | some f =>
    if u = .cool then s.coolEnable
    else if s.on f then s
    else (s.wr f 1).unitStarts u

/-- UNIT_ENABLE. -/
def execUnitEnable (origin : Origin) (u : UnitId) (s : State) : Host.Outcome State Fault Refusal :=
  match enField u with
  | none => .next s
  | some f => .next (s.cfgField u origin f 1 fun s => s.enableUnit u)

/-! ## Uncorrectable errors of the Vat (R370) -/

/-- A write that has not reached its commit point fails whole with Transient Transport Error; parts at the peer are awaited. -/
def State.failWrite (s : State) (k : Nat) : State :=
  match s.cmd k with
  | none => s
  | some c =>
    let s := (((s.dropHolds c).withdrawWidx c).dropRecs k).dropPulls k
    (s.setCmd k { (c.fail Nv.transient) with
      blks := c.blks.map fun b => { b with step := .done, hold := none, pend := false } }).finishIfDone k

/-- A read served from a write-index entry fails the same way. -/
def State.failReads (s : State) (e : WEntry) : State :=
  s.par.cmds.foldl (fun s x => match s.cmd x.1 with
    | some c =>
      if c.vol = e.vol ∧ c.blks.any (fun b => b.block == e.block && b.pin == some e.dseq) then
        (s.setCmd x.1 (c.fail Nv.transient)).finishIfDone x.1
      else s
    | none => s) s

/-- VAT_UE_DETECTED: by what the pail holds. Blade data of a read and background work are fetched again from their source;
for a pail of software the manual gives no outcome beyond the record (log entry 42). -/
def execVatUeDetected (pail : Nat) (s : State) : Host.Outcome State Fault Refusal :=
  match Tab.get? s.vat.pails pail with
  | none => .next s
  | some p =>
    let s := (s.bump VAT_ERR.UE 1).raise Ev.vatUe (some .vat) none [pail, p.cls]
    match p.holds with
    | .committed => .next (s.abdicate 2)
    | .writeData =>
      let es := s.vat.widx.filter (·.pail == pail)
      let s := es.foldl (fun s e => s.failReads e) s
      let owners := (s.par.cmds.filter fun x => x.2.mutates && !x.2.commit && (p.user == .ctx x.1
        || es.any fun e => x.2.vol == e.vol && x.2.blks.any fun b => b.block == e.block && b.dseq == e.dseq)).map (·.1)
      .next (owners.foldl (fun s k => s.failWrite k) s)
    | _ => .next s

end Sys2Proof.Machine
end

