-- ==== Sys2Proof/Machine/CsrAccess.lean ====
section
/-! DEFINITION. Accesses of the bus: the generic register write with its locks, value rules and side effects, register reads,
holes, the Vat window, CFG_WRITE and the peer's register accesses (R10, R11, R16, R37 to R44, R54, R324, R365, R398). -/
namespace Sys2Proof.Machine
open Sys2Proof

/-! ## Where an address lies (R37 to R39) -/

/-- Base of the CSR space and of the doorbell pages. -/
def csrBase : Nat := 0xF00000000000
def doorbellBase : Nat := 0xE00000000000

/-- Whether an address lies in the CSR space. -/
def inCsr (a : Nat) : Bool := csrBase ≤ a && a < csrBase + 0x10000000

/-- The unit whose CSR sub-window holds an offset of the CSR space. -/
def csrUnit (a : Nat) : Option UnitId := unitAt (a / 0x1000000) (a / 0x400000 % 4)

/-- Whether the doorbell space of some unit holds an address: a window with one unit has it at k = 0 only (R38). -/
def doorbellThere (a : Nat) : Bool :=
  let x := a - doorbellBase
  doorbellBase ≤ a && a < doorbellBase + 0x1000000 && (match unitAt (x / 0x100000) (x % 0x100000 / 0x40000) with
    | some u => unitK u == x % 0x100000 / 0x40000
    | none => false)

/-- Whether an address is a hole: nothing answers there. -/
def State.isHole (s : State) (a : Nat) : Bool :=
  !(s.answers a || doorbellThere a || (inCsr a && (csrUnit (a - csrBase)).isSome))

/-! ## Reading -/

/-- Base of TAL_ENTRY_w. -/
def talEntryBase : Nat := 0xF700000

/-- Whether a unit implements the register at a CSR offset (R40). -/
def State.implemented (u : UnitId) (a : Nat) : Bool :=
  let off := a - unitBase u
  if off < 0x100 then decide (off < 0x20)
  else if 0x100000 ≤ off ∧ off < 0x140000 then decide ((off - 0x100000) / 0x40 < unitRings u)
  else (findReg a).isSome || (decide (talEntryBase ≤ a) && decide (a < talEntryBase + 256))

/-- The 64-bit register at a CSR offset. -/
def State.csrWord (s : State) (a : Nat) : Nat :=
  if talEntryBase ≤ a ∧ a < talEntryBase + 256 then s.tallyWord ((a - talEntryBase) / 8) else s.readCsr a

/-- Whether a register belongs to the legacy word feed. -/
def isLegacyReg (a : Nat) : Bool := decide (0x5204000 ≤ a) && decide (a < 0x5204088)

/-- What a read of the register at a CSR offset by an origin does and returns: the result and status registers of the Press
answer by origin, and those of the legacy word feed read 0 while LEG_EN is 0 (R190, R194); every other is its word. -/
def State.csrReadBy (s : State) (o a : Nat) : State × Nat :=
  if isLegacyReg a && !s.on PRESS_CTL.LEG_EN then (s, 0)
  else if 0x5202000 ≤ a ∧ a < 0x5203000 then s.pressResult o ((a - 0x5202000) / 0x40) ((a - 0x5202000) % 0x40 / 8)
  else if 0x5204040 ≤ a ∧ a < 0x5204080 then s.legacyResult o ((a - 0x5204040) / 8)
  else if a = 0x5204018 then let t := s.legacyDrain; (t, t.legacyStatus o (t.csrWord a))
  else (s, s.csrWord a)

/-- CSR_READ_MISALIGNED: a read of the CSR space. One that is not naturally aligned returns no data, is recorded as KIND 1 and
gives a core a load access fault; a naturally aligned one returns the addressed bytes of the register, KIND 2 where none is
implemented (R40, R41). -/
def execCsrReadMisaligned (origin : Origin) (addr : PAddr) (size : AccSize) (s : State) : Host.Outcome State Fault Refusal :=
  let o := origin.toNat
  if !inCsr addr.toNat || !s.originThere o then .next s
  else
    let a := addr.toNat - csrBase
    match csrUnit a with
    | none => .next ((s.readReturn none).hole o addr.toNat false)
    | some u =>
      if a % size.bytes ≠ 0 then .next (((s.readReturn none).unitErr u o (errOffset a) 1).coreFault o addr.toNat false)
      else
        let w := a / 8 * 8
        let s := if State.implemented u w then s else s.unitErr u o (errOffset a) 2
        let x := s.csrReadBy o w
        .next (x.1.readReturn (some (x.2 / 2 ^ (8 * (a % 8)) % 2 ^ (8 * size.bytes))))

/-! ## The rules of a value -/

/-- Whether the gate of a field is open (its table's "written only while"). -/
def State.gateOpen (s : State) (u : UnitId) (a : Nat) : Gate → Bool
  | .always => true
  | .unitEnZero => s.rd ⟨unitBase u + 0x200000, 0, 1, 0⟩ == 0
  | .portOff => s.rd ⟨a, (RAIL_PORT_CFG.EN 0 0).lo, 1, 0⟩ == 0
  | .railsOff => s.rd (RAIL_STATUS.STATE 0) == Rst'.off && s.rd (RAIL_STATUS.STATE 1) == Rst'.off
  | .poolInvalid => s.rd ⟨a, (CARC_POOL.VALID 0).lo, 1, 0⟩ == 0
  | .audIdle => s.rd AUD_IDX.PROD == s.rd AUD_IDX.CONS
  | .spillOff => s.rd TAL_RING.SPILL_EN == 0

/-- A field's value after a write of `v` to it (R11). Bits that act when written are left to `csrHook`. -/
def State.fieldAfter (s : State) (r : FieldRow) (f : Fld) (v : Nat) : Nat :=
  match r.acc with
  | .rw => v
  | .rwMfg => if s.rd SEC_STATUS.LIFECYCLE = Life.manufacture then v else s.rd f
  | .w1c => s.rd f &&& ((2 ^ f.w - 1) ^^^ v)
  | _ => s.rd f

/-- Whether a field takes a value: in its range, and unchanged where its gate is closed. -/
def State.fieldOk (s : State) (u : UnitId) (a : Nat) (r : FieldRow) (word : Nat) : Bool :=
  let v := bitsOf word r.lo r.w
  match r.acc with
  | .rw => decide (r.min ≤ v) && decide (v ≤ r.max) && (s.gateOpen u a r.gate || v == s.rd (r.fld a))
  | _ => true

/-- The register's fields after the write. -/
def State.rowAfter (s : State) (r : RegRow) (a word : Nat) : State :=
  r.fields.foldl (fun s' f => match f.acc with
    | .rw | .rwMfg | .w1c => s'.wr (f.fld a) (s.fieldAfter f (f.fld a) (bitsOf word f.lo f.w))
    | _ => s') s

/-- Sum of the pail floors. -/
def State.floorSum (s : State) : Nat := ((List.range 5).map fun c => s.rd (VAT_CLASS.FLOOR c)).sum

/-- Whether a ring of `n` bytes at `base` lies wholly in populated DRAM. -/
def State.ringThere (s : State) (base n : Nat) : Bool := base + n ≤ s.populated

/-- Rules that bind several fields or registers, on the state the write would leave: `s` before, `t` after. -/
def State.rulesHold (s t : State) (a : Nat) : Bool :=
  if a = 0xB600000 ∨ (0xB600100 ≤ a ∧ a < 0xB600128) then      -- the pail classes and quarters (R365)
    decide (t.floorSum ≤ 8192 * popCount (t.rd VAT_CTL.QUARTER_EN) 4)
      && ((List.range 5).all fun c => decide (t.rd (VAT_CLASS.FLOOR c) ≤ t.rd (VAT_CLASS.CEIL c)))
      && ((List.range 4).all fun q => t.bit VAT_CTL.QUARTER_EN q || !s.bit VAT_CTL.QUARTER_EN q
        || !(s.vat.pails.any fun e => e.1 / 8192 == q))
  else if a = AUD_RING.BASE.reg then t.ringThere (t.rd AUD_RING.BASE * 4096) (256 * 2 ^ t.rd AUD_RING.LOG2_ENTRIES)   -- R413
  else if a = TAL_RING.BASE.reg then                            -- R478
    !t.on TAL_RING.SPILL_EN || t.ringThere (t.rd TAL_RING.BASE * 4096) (256 * 2 ^ t.rd TAL_RING.LOG2_ENTRIES)
  else if a = DDR_CFG.EN.reg then                               -- fields other than EN: only while EN = 0
    !s.on DDR_CFG.EN || s.readCsr a / 2 == t.readCsr a / 2
  else if a = RDMA_CTX_TABLE.BASE.reg then t.rd RDMA_CTX_TABLE.BASE * 4096 % 2 ^ 26 == 0
  else if a = SEP_INDEX_BASE.BASE.reg ∨ a = SEP_INDEX_CFG.LOG2_BUCKETS.reg then
    t.rd SEP_INDEX_BASE.BASE * 4096 % (256 * 2 ^ t.rd SEP_INDEX_CFG.LOG2_BUCKETS) == 0
  else if a = CELL_META_CFG.BASE.reg then t.rd CELL_META_CFG.BASE * 4096 % 2 ^ t.rd CELL_META_CFG.LOG2_SIZE == 0
  else if 0x7201000 ≤ a ∧ a < 0x7201080 then                    -- CARC_POOL_p (R205)
    let p := (a - 0x7201000) / 8
    !t.on (CARC_POOL.VALID p)
      || (decide (t.rd (CARC_POOL.P p) + 4 ≤ t.rd (CARC_POOL.W p))
        && decide (t.rd (CARC_POOL.W p) ≤ popCount (t.rd (CARC_POOL.MEMBERS p)) 16)
        && (List.range 16).all fun q => q == p || !t.on (CARC_POOL.VALID q)
          || (t.rd (CARC_POOL.MEMBERS q) &&& t.rd (CARC_POOL.MEMBERS p)) == 0)
  else true

/-- Whether a register accepts a word (UNIT_ERR KIND 7 where not). -/
def State.accepts (s : State) (u : UnitId) (r : RegRow) (a word : Nat) : Bool :=
  (r.fields.all fun f => s.fieldOk u a f word) && s.rulesHold (s.rowAfter r a word) a

/-! ## What a write does beyond its fields -/

/-- The state a command ends in. -/
def stateOf (s : State) : Host.Outcome State Fault Refusal → State
  | .next t => t
  | _ => s

/-- A bit rises or falls between two states. -/
def rises (s t : State) (f : Fld) : Bool := !s.on f && t.on f
def falls (s t : State) (f : Fld) : Bool := s.on f && !t.on f

/-- USER_OFS of a domain changed: its target follows, and the user calibration is written to group 0x0020 (R461, R463). -/
def State.userOffset (s : State) (d : Nat) : State :=
  let s := s.retarget d
  s.keepGroup 0x20 1 ((List.range 96).map fun d => BitVec.ofNat 8 (s.rd (WIT_DOM.USER_OFS d)))

/-- RAIL_CTL of a Rail written. -/
def State.railCtl (s t : State) (r : Rail) (origin word : Nat) : State :=
  let i := railIx r
  let t := if rises s t (RAIL_CTL.EN i) then t.railOn r origin
    else if falls s t (RAIL_CTL.EN i) ∧ t.rd (RAIL_STATUS.STATE i) = Rst'.active then t.wr (RAIL_STATUS.STATE i) Rst'.off else t
  let t := if word.testBit (RAIL_CTL.FAIL i).lo then t.railLost r 1 else t
  if word.testBit (RAIL_CTL.RESET i).lo then t.railReset r else t

/-- A domain's REQ_ON written (R443). -/
def State.domRequest (s t : State) (d : Nat) (origin : Origin) : State :=
  let t' := t.wr (PWR_DOM.REQ_ON d) (s.rd (PWR_DOM.REQ_ON d))
  if rises s t (PWR_DOM.REQ_ON d) then stateOf t' (execDomainOnRequest (Fin.ofNat 96 d) t')
  else if falls s t (PWR_DOM.REQ_ON d) then stateOf t' (execDomainOffRequest origin (Fin.ofNat 96 d) false t')
  else t

/-- The side effects of a write: `s` before, `t` with the fields written. -/
def State.csrHook (s t : State) (origin : Origin) (u : UnitId) (a word : Nat) : State :=
  let o := origin.toNat
  let t := match enField u with
    | some f => if f.reg = a then
        if u = .cool then (if rises s t f then (t.wr f 0).coolEnable else if falls s t f then (t.wr f 1).coolDisable else t)
        else if rises s t f then t.unitStarts u else t
      else t
    | none => t
  if a = (RAIL_CTL.EN 0).reg then s.railCtl t .a o word
  else if a = (RAIL_CTL.EN 1).reg then s.railCtl t .b o word
  else if a = (RDMA_ODP_RESUME.CTX 0).reg then stateOf t (execOdpResume .a (word % 2 ^ 17) t)
  else if a = (RDMA_ODP_RESUME.CTX 1).reg then stateOf t (execOdpResume .b (word % 2 ^ 17) t)
  else if a = PAR_CTL.FWD_RESERVE.reg then (t.takeWaiting t.par.waitCap.length).countCtxs
  else if a = PAR_CTX_STATUS.PEAK_CLR.reg then
    if word.testBit PAR_CTX_STATUS.PEAK_CLR.lo then t.wr PAR_CTX_STATUS.PEAK (t.rd PAR_CTX_STATUS.IN_USE) else t
  else if a = CHURN_CTL.EN.reg then t.wr CHURN_STATUS.LANE_FAULT 0
  else if a = PRESS_CTL.EN.reg then t.wr PRESS_STATUS.LANE_FAULT 0
  else if a = VEN_CTL.EN.reg then t.wr VEN_STATUS.LANE_FAULT 0
  else if a = CARC_CTL.EN.reg then
    let t := t.wr CARC_STATUS.LANE_FAULT 0
    if rises s t CARC_CTL.REBUILD_EN then t.rebuildOn else t
  else if a = PRESS_LEG_CTL.START.reg then (if t.on PRESS_CTL.LEG_EN then t.legacyCtl origin word else t)
  else if a = PRESS_LEG_KEY.HANDLE.reg then stateOf t (execLegacyKey origin (BitVec.ofNat 64 word) t)
  else if a = 0x5204010 then stateOf t (execLegacyData origin (BitVec.ofNat 64 word) t.legacyTaken t)
  else if 0x9201080 ≤ a ∧ a < 0x9201100 then if word.testBit 0 then t.portForced ((a - 0x9201080) / 8) else t
  else if a = TEN_CTL.EN.reg then
    let t := if rises s t TEN_CTL.EN then t.tenEnable true else if falls s t TEN_CTL.EN then t.tenEnable false else t
    if word.testBit TEN_CTL.RETRAIN.lo ∧ t.tenSt = Tst.active then t.tenRetrain else t
  else if a = LEASE_CTL.EN.reg then
    if word.testBit LEASE_CTL.ABDICATE.lo then (t.wr LEASE_CTL.ABDICATE 1).abdicate 4 else t
  else if a = LEASE_HB_CFG.HB_LOSS.reg then
    if falls s t LEASE_HB_CFG.HB_OUT_EN then t.setLease { t.leaseU with hbOutAt := none } else t
  else if a = LEASE_WDOG.KICK.reg then if word.testBit 0 then t.kick else t
  else if a = VAT_CTL.EN.reg then
    (t.wr VAT_STATUS.FREE (8192 * popCount (t.rd VAT_CTL.QUARTER_EN) 4 - t.vat.pails.length)).vatGrant
  else if 0xB600100 ≤ a ∧ a < 0xB600128 then t.vatGrant
  else if 0xB600180 ≤ a ∧ a < 0xB6001A8 then
    let c := (a - 0xB600180) / 8
    if word.testBit (VAT_USE.PEAK_CLR c).lo then t.wr (VAT_USE.PEAK c) (t.rd (VAT_USE.USED c)) else t
  else if a = DDR_CFG.EN.reg then if rises s t DDR_CFG.EN then t.ddrTrain else t
  else if a = SEC_CTL.SHUTDOWN.reg then
    if word.testBit 0 ∧ !t.on SEC_CTL.SHUTDOWN ∧ t.auditRoom then (t.wr SEC_CTL.SHUTDOWN 1).seal true else t
  else if a = AUD_RING.BASE.reg then
    if s.rd AUD_RING.BASE = t.rd AUD_RING.BASE ∧ s.rd AUD_RING.LOG2_ENTRIES = t.rd AUD_RING.LOG2_ENTRIES then t
    else (t.wr AUD_IDX.PROD 0).wr AUD_IDX.CONS 0
  else if 0x601000 ≤ a ∧ a < 0x601180 then t.coreDiv ((a - 0x601000) / 8)
  else if 0xA01000 ≤ a ∧ a < 0xA01300 then s.domRequest t ((a - 0xA01000) / 8) origin
  else if a = PWR_RESET_CTL.WARM.reg then if word.testBit 0 then stateOf t (execWarmReset origin t) else t
  else if 0xE201000 ≤ a ∧ a < 0xE204000 ∧ (a - 0xE201000) % 0x80 = 0x58 then
    if word.testBit 0 then stateOf t (execGovResume (Fin.ofNat 96 ((a - 0xE201000) / 0x80)) t) else t
  else if a = WIT_CTL.EN.reg then if word.testBit WIT_CTL.MEASURE_NOW.lo then t.startPass else t
  else if 0xE601000 ≤ a ∧ a < 0xE601300 then t.userOffset ((a - 0xE601000) / 8)
  else if a = TAL_CTL.EN.reg then if word.testBit TAL_CTL.CLR_COUNTS.lo then stateOf t (execTallyClearCounts t) else t
  else if a = TAL_RING.BASE.reg then
    if s.rd TAL_RING.BASE = t.rd TAL_RING.BASE ∧ s.rd TAL_RING.LOG2_ENTRIES = t.rd TAL_RING.LOG2_ENTRIES then t
    else (t.wr TAL_RING_IDX.PROD 0).wr TAL_RING_IDX.CONS 0
  else if 0xF604000 ≤ a ∧ a < 0xF60C000 then                    -- TAL_CODE_x: the bucket keeps its tokens
    let x := (a - 0xF604000) / 8
    { t with tally := { t.tally with bucket := Tab.set t.tally.bucket x (Tab.getD t.tally.bucket x (64 * 256)) } }
  else if a = MGT_CTL.EN.reg then
    if falls s t MGT_CTL.EN ∧ t.on MGT_STATUS.LINK then
      ((t.wr MGT_STATUS.LINK 0).wr MGT_STATUS.SPEED 0).raise Ev.mgtLink (some .mgt)
    else t
  else if a = MGT_WALL_SEC.SEC.reg then { s with mgt := { s.mgt with heldSec := word } }
  else if a = MGT_WALL_NS.NS.reg then
    { s with mgt := { s.mgt with heldNs := bitsOf word 0 30, heldRate := bitsOf word 32 32 } }
  else if a = MGT_WALL_REF.REF.reg then stateOf s (execWallClockApply (BitVec.ofNat 64 word) s)
  else t

/-- A write that nothing refuses takes effect. -/
def State.csrApply (s : State) (origin : Origin) (u : UnitId) (r : RegRow) (a word : Nat) : State :=
  s.csrHook (s.rowAfter r a word) origin u a word

/-! ## The generic register write -/

/-- A write to the common header: LOCKED for origin 0x0200, the clearing of UNIT_ERR (R40). -/
def State.headerWrite (s : State) (origin : Nat) (u : UnitId) (a word : Nat) : State :=
  let b := unitBase u
  let off := a - b
  if off = 0x10 then if origin = 0x200 then s.wr (UNIT_LOCK.LOCKED b) (word % 2) else s
  else if off = 0x18 then if word.testBit 63 then s.wr (UNIT_ERR.VALID b) 0 else s
  else if off < 0x10 then s
  else s.unitErr u origin (errOffset a) 2

/-- RING_CTL written: EN, STOP and START act as their own commands do (R57). EN ← 1 on a ring that is not DISABLED, EN being 0,
is refused (R527). FLUSH is RW without a gate: written while the ring is STOPPING it changes the stop mode in force (DESIGN
CHOICE, log entry 120). -/
def State.ringCtl (s : State) (origin : Origin) (u : UnitId) (r word : Nat) : State :=
  let b := unitBase u
  let flush := word.testBit 2
  let s0 := s.wr (RING_CTL.FLUSH b r) (if flush then 1 else 0)
  let s1 := if word.testBit 0 then
      (if s0.ringSt u r = Rst.disabled then stateOf s0 (execRingEnable origin u r s0)
        else if s0.on (RING_CTL.EN b r) then s0 else s0.ringRefused u r origin)
    else if s0.on (RING_CTL.EN b r) then stateOf s0 (execRingDisable origin u r s0) else s0
  let s2 := if word.testBit 1 then stateOf s1 (execRingStop origin u r flush s1) else s1
  if word.testBit 3 then stateOf s2 (execRingStart origin u r s2) else s2

/-- A write to the register block of a ring (R53, R54). -/
def State.ringWrite (s : State) (origin : Origin) (u : UnitId) (a word : Nat) : State :=
  let b := unitBase u
  let off := a - b - 0x100000
  let r := off / 0x40
  let x := off % 0x40
  if unitRings u ≤ r then s.unitErr u origin.toNat (errOffset a) 5
  else if x < 0x18 ∧ s.ringSt u r ≠ Rst.disabled then s.unitErr u origin.toNat (errOffset a) 6
  else if x = 0 then s.wr (RING_DBASE.BASE b r) (bitsOf word 12 36)
  else if x = 8 then s.wr (RING_CBASE.BASE b r) (bitsOf word 12 36)
  else if x = 0x10 then
    ((s.wr (RING_CFG.LOG2_SIZE b r) (bitsOf word 0 5)).wr (RING_CFG.PROCESS_ID b r) (bitsOf word 24 20)).wr
      (RING_CFG.PID_VALID b r) (bitsOf word 44 1)
  else if x = 0x18 then s.ringCtl origin u r word
  else if x = 0x28 then (s.wr (RING_OWNER.ORIGIN b r) (bitsOf word 0 16)).wr (RING_OWNER.ANY b r) (bitsOf word 16 1)
  else if x = 0x30 then s.wr (RING_MSI_ADDR.ADDR b r) (bitsOf word 2 46)
  else if x = 0x38 then
    ((s.wr (RING_MSI.IDENTITY b r) (bitsOf word 0 11)).wr (RING_MSI.EN b r) (bitsOf word 11 1)).wr
      (RING_MSI.ERR_EN b r) (bitsOf word 12 1) |>.wr (RING_MSI.HOLDOFF b r) (bitsOf word 16 16)
  else s

/-- A write to a register of a unit's own chapter: it waits for audit room, is refused by lock or by the register, or takes
effect and is journaled (R16, R43, R410). The registers of the legacy word feed ignore writes while LEG_EN is 0. -/
def State.chapterWrite (s : State) (origin : Origin) (u : UnitId) (a word : Nat) : State :=
  match findReg a with
  | none => s.unitErr u origin.toNat (errOffset a) 2
  | some r =>
    let o := origin.toNat
    if s.audited r.config o && !s.auditRoom then s
    else if r.config && s.locked u o then s.lockRefusal u o 0xFFFF a word
    else if !s.accepts u r a word then s.refuseValue u r.config o 0xFFFF a word
    else if isLegacyReg a && !s.on PRESS_CTL.LEG_EN then s
    else s.regWrite u r.config o 0xFFFF a word fun s => s.csrApply origin u r a word

/-- A 64-bit write at an offset of the CSR space where unit `u` stands. -/
def State.csrStore (s : State) (origin : Origin) (u : UnitId) (a word : Nat) : State :=
  let off := a - unitBase u
  if off < 0x100 then s.headerWrite origin.toNat u a word
  else if 0x100000 ≤ off ∧ off < 0x140000 then s.ringWrite origin u a word
  else s.chapterWrite origin u a word

/-- CSR_WRITE: a write of the CSR space. Only a naturally aligned 64-bit one is accepted; another is discarded, recorded as
KIND 1 and gives a core a store access fault (R41). JTAG writes nothing while debug is closed (R386). -/
def execCsrWrite (origin : Origin) (addr : PAddr) (size : AccSize) (value : Word) (s : State) :
    Host.Outcome State Fault Refusal :=
  let o := origin.toNat
  if !inCsr addr.toNat || !s.originThere o then .next s
  else
    let a := addr.toNat - csrBase
    match csrUnit a with
    | none => .next (s.hole o addr.toNat true)
    | some u =>
      if size ≠ .b8 ∨ a % 8 ≠ 0 then .next ((s.unitErr u o (errOffset a) 1).coreFault o addr.toNat true)
      else .next (s.csrStore origin u a value.toNat)

/-- HOLE_ACCESS: an access to an address where nothing answers (R38). -/
def execHoleAccess (origin : Origin) (addr : PAddr) (store : Bool) (s : State) : Host.Outcome State Fault Refusal :=
  if s.isHole addr.toNat && s.originThere origin.toNat then .next ((if store then s else s.readReturn none).hole origin.toNat addr.toNat store) else .next s

/-- VAT_WINDOW_ACCESS: an access of 1, 2, 4 or 8 bytes to the Vat window is served, or refused where it crosses an 8-byte
boundary (R41). `store`: the value stored; `ce`: a single-bit error is met, corrected and counted (R370). The window has no unit
base, so UNIT_ERR.OFFSET of a refused access is that of the Vat's sub-window, 0x40_0000 (DESIGN CHOICE, log entry 121). -/
def execVatWindowAccess (origin : Origin) (addr : PAddr) (size : AccSize) (store : Option Word) (s : State)
    (ce : Bool := false) : Host.Outcome State Fault Refusal :=
  let a := addr.toNat
  let o := origin.toNat
  if !inVat a ∨ !s.originThere o then .next s
  else if 8 < a % 8 + size.bytes then
    let s := (s.unitErr .vat o (errOffset 0xB400000) 1).coreFault o a store.isSome
    .next (if store.isSome then s else s.readReturn none)
  else
    let s := if ce then s.bump VAT_ERR.CE 1 else s
    match store with
    | some v => .next { s with mem := Memory.writeN s.mem a (leBytes size.bytes v.toNat) }
    | none => .next (s.readReturn (some (leNat (Memory.readN s.mem a size.bytes))))

/-! ## CFG_WRITE (R398) -/

/-- A refused CFG_WRITE: a REG_REFUSED entry, then the completion with its DESC entry. -/
def State.cfgRefused (s : State) (d : DescRef) (a value cause : Nat) : State :=
  (s.auditRefused 0x200 (s.ringOwner .sec d) a value cause).finish .sec d St.cfgwRefused

/-- CFG_WRITE: the Island writes a configuration-class register of a unit that SEC_CFGW_MASK allows. -/
def execCfgWrite (d : DescRef) (s : State) : Host.Outcome State Fault Refusal :=
  s.secDesc d Op.cfgWrite false false fun f =>
    let n := f.at 28 1
    let k := f.at 29 1
    let value := f.at 40 8
    let a := n * 0x1000000 + k * 0x400000 + f.at 32 4
    match (if k < 4 then unitAt n k else none), findReg a with
    | some u, some r =>
      if !s.bit SEC_CFGW_MASK.UNIT (4 * n + k) || !r.config || a == SEC_CFGW_MASK.UNIT.reg || csrUnit a != some u then
        s.cfgRefused d a value 2
      else if !s.accepts u r a value then (s.unitErr u 0x200 (errOffset a) 7).cfgRefused d a value 3
      else
        let old := s.readCsr a
        let s := (s.csrApply 0x200 u r a value).auditWrite 0x200 (s.ringOwner .sec d) a old value
        s.finish .sec d St.success
    | _, _ => s.cfgRefused d a value 2

/-! ## The peer's register accesses (R42, R324) -/

/-- Initiators in the peer head: cores, the management core, the Security Island. -/
def peerInitiator (nn : Nat) : Bool := decide (nn < 0x30) || nn == 0x80 || nn == 0x81

/-- PEER_REG_WRITE: a write with origin 0x04nn, accepted for the windows TEN_REG_ALLOW names. -/
def execPeerRegWrite (tag nn : Nat) (addr : PAddr) (value : Word) (s : State) : Host.Outcome State Fault Refusal :=
  if !s.linkActive || !peerInitiator nn || !inCsr addr.toNat then .next s
  else
    let s := s.received 6 1
    let a := addr.toNat - csrBase
    let o : Origin := BitVec.ofNat 16 (0x400 + nn)
    match csrUnit a with
    | none => .next ((s.hole o.toNat addr.toNat true).tenSend (.regResp tag St.addrInvalid 0))
    | some u =>
      if !s.bit TEN_REG_ALLOW.UNIT (unitN u) then
        .next ((s.unitErr u o.toNat (errOffset a) 3).tenSend (.regResp tag St.regRefused 0))
      else if a % 8 ≠ 0 then .next ((s.unitErr u o.toNat (errOffset a) 1).tenSend (.regResp tag St.addrInvalid 0))
      else .next ((s.csrStore o u a value.toNat).tenSend (.regResp tag St.success 0))

/-- PEER_REG_READ: a read with origin 0x04nn, answered with its value. -/
def execPeerRegRead (tag nn : Nat) (addr : PAddr) (s : State) : Host.Outcome State Fault Refusal :=
  if !s.linkActive || !peerInitiator nn || !inCsr addr.toNat then .next s
  else
    let s := s.received 6 1
    let a := addr.toNat - csrBase
    let o := 0x400 + nn
    match csrUnit a with
    | none => .next ((s.hole o addr.toNat false).tenSend (.regResp tag St.addrInvalid 0))
    | some u =>
      if a % 8 ≠ 0 then .next ((s.unitErr u o (errOffset a) 1).tenSend (.regResp tag St.addrInvalid 0))
      else
        let s := if State.implemented u a then s else s.unitErr u o (errOffset a) 2
        let x := s.csrReadBy o a
        .next (x.1.tenSend (.regResp tag St.success x.2))

end Sys2Proof.Machine
end

