-- ==== Sys2Proof/Machine/ParDesc.lean ====
section
/-! DEFINITION. The Parlour's descriptors (R99 to R101, R109 to R111, R120, R127, R128, R130). -/
namespace Sys2Proof.Machine
open Sys2Proof

/-- A started descriptor of an opcode of the Parlour. -/
def State.parDesc (s : State) (d : DescRef) (op : Nat) (k : Fetched → State) : Host.Outcome State Fault Refusal :=
  match s.startedAt .par d op with
  | none => .next s
  | some f => .next (k f)

/-! ## The tables -/

/-- Whether the fields of a new volume entry are in range and its reserved bits 0 (R99). -/
def volEntryOk (e : List Byte) : Bool :=
  volFlags e / 512 == 0 && decide (volLbaf e ≤ 4) && decide (volPi e ≤ 2) && (volPi e == 0 || lbaMeta (volLbaf e) != 0) &&
    decide (fieldAt e 2 2 < 2 ^ 14) && decide (fieldAt e 4 2 < 2 ^ 12) && decide (volPool e < 16) && fieldAt e 7 1 == 0 &&
    decide (volSize e ≤ 2 ^ 38) && (slice e 36 28).all (· == 0)

/-- Whether a change of a stored volume's format, protection information or domain is asked (R127). -/
def formatChange (old new : List Byte) : Bool :=
  volLbaf old != volLbaf new || volPi old != volPi new || volDedup old != volDedup new || (volDedup new && volDomain old != volDomain new)

/-- VOL_SET: a volume entry written; GENERATION counts up. The format of the stored data is that of the last VALID entry
(R127). -/
def execVolSet (d : DescRef) (s : State) : Host.Outcome State Fault Refusal :=
  s.parDesc d Op.volSet fun f =>
    let v := f.at 28 4
    if f.len ≠ 64 then s.finish .par d St.lengthMismatch
    else match s.dmaRead .par f.src 64 (some d.ring) with
      | .error e => s.finishDma .par d e
      | .ok new =>
        let old := s.volEntry v
        if 2 ^ 18 ≤ v ∨ !volEntryOk new then s.finish .par d St.volInvalid
        else if !volValid new && s.par.cmds.any fun c => c.2.vol == v then s.finish .par d St.volBusy
        else if volValid new && Tab.getD s.par.forms v 0 != 0 && formatChange (Tab.getD s.par.shape v new) new then
          s.finish .par d St.volFormat
        else
          let gen := (fieldAt old 32 4 + 1) % 2 ^ 32
          s.tableThen .par d (s.volAddr v) (splice new 32 (leBytes 4 gen)) fun s =>
            (if volValid new then s.setPar { s.par with shape := Tab.set s.par.shape v new } else s).finish .par d St.success

/-- Whether a tenant entry may be set (R100). -/
def tenantEntryOk (e : List Byte) : Bool :=
  if fieldAt e 0 1 = 0 then e.all (· == 0)
  else fieldAt e 1 1 / 16 == 0 && fieldAt e 2 2 == 0 && (slice e 24 40).all (· == 0) &&
    (fieldAt e 4 4 == 0 || fieldAt e 8 4 != 0) && (fieldAt e 12 4 == 0 || fieldAt e 16 4 != 0)

/-- TENANT_SET: a tenant entry written; its buckets stay within the new bursts. -/
def execTenantSet (d : DescRef) (s : State) : Host.Outcome State Fault Refusal :=
  s.parDesc d Op.tenantSet fun f =>
    if f.len ≠ 64 then s.finish .par d St.lengthMismatch
    else match s.dmaRead .par f.src 64 (some d.ring) with
      | .error e => s.finishDma .par d e
      | .ok new =>
        if !tenantEntryOk new then s.finish .par d St.tenantEntryInvalid
        else s.tableThen .par d (s.rd PAR_TENANT_TABLE.BASE * 4096 + f.tenant * 64) new fun s => s.finish .par d St.success

/-! ## Queues and controllers -/

/-- QUEUE_BIND: a transport context carries a queue; an admin queue makes its controller. -/
def execQueueBind (d : DescRef) (s : State) : Host.Outcome State Fault Refusal :=
  s.parDesc d Op.queueBind fun f =>
    let x := f.at 28 4
    let cntlid := f.at 32 2
    let qid := f.at 34 2
    let size := f.at 36 2
    let cls := f.at 38 1
    if ((s.ctx x).map (·.parlour)) ≠ some true then s.finish .par d St.ctxNotParlour
    else if cntlid = 0 ∨ 0xFFEF < cntlid ∨ (qid ≠ 0 ∧ (s.ctrl cntlid).isNone) then s.finish .par d St.ctrlInvalid
    else if 1023 < size ∨ s.par.queues.any fun q => (q.cntlid == cntlid && q.qid == qid) || q.ctx == x then
      s.finish .par d St.queueInvalid
    else if 3 < cls then s.finish .par d St.parClassInvalid
    else
      let s := if qid = 0 then s.setCtrl cntlid {} else s
      let s := s.setPar { s.par with
        queues := s.par.queues ++ [{ ctx := x, cntlid := cntlid, qid := qid, size := size, cls := cls }]
        cmds := Tab.mapV s.par.cmds fun _ (c : NvmeCmd) =>
          if c.ctx = some x ∧ c.cntlid = unboundCntlid then { c with cntlid := cntlid, qid := qid, cls := cls } else c }
      s.finish .par d St.success

/-- QUEUE_DELETE: an I/O queue is cut; done under QUEUE_DELETION_DONE. -/
def execQueueDelete (d : DescRef) (s : State) : Host.Outcome State Fault Refusal :=
  s.parDesc d Op.queueDelete fun f =>
    let cntlid := f.at 32 2
    let qid := f.at 34 2
    if (s.ctrl cntlid).isNone then s.finish .par d St.ctrlInvalid
    else if s.par.cuts.any fun x => x.d == some d then s
    else if qid = 0 ∨ !(s.par.queues.any fun q => q.cntlid == cntlid && q.qid == qid) then s.finish .par d St.queueInvalid
    else (((s.setPhase .par d .waiting).cutQueues (some d) cntlid (some qid) false)).raise Ev.queueCut (some .par) none [cntlid, qid]

/-- CTRL_RESET: a controller reset, or an association loss that software has seen. -/
def execCtrlReset (d : DescRef) (s : State) : Host.Outcome State Fault Refusal :=
  s.parDesc d Op.ctrlReset fun f =>
    let cntlid := f.at 32 2
    if (s.ctrl cntlid).isNone then s.finish .par d St.ctrlInvalid
    else if s.par.cuts.any fun x => x.d == some d then s
    else
      let s := (s.setPhase .par d .waiting).cutQueues (some d) cntlid none true
      if (f.at 36 1).testBit 0 then
        if ((s.ctrl cntlid).map (·.lost)).getD false then s else s.assocEvent cntlid assocCause.software
      else
        let s := match s.ctrl cntlid with
          | some c => s.setCtrl cntlid { c with en := false }
          | none => s
        s.raise Ev.queueCut (some .par) none [cntlid]

/-! ## Admin commands -/

/-- ADMIN_FETCH: the oldest capsule for software, or the next. -/
def execAdminFetch (d : DescRef) (s : State) : Host.Outcome State Fault Refusal :=
  s.parDesc d Op.adminFetch fun f =>
    if f.len < 4160 then s.finish .par d St.lengthMismatch
    else match s.par.admin with
      | [] => s.setPhase .par d .waiting
      | k :: rest => match s.cmd k with
        | none => s.setPar { s.par with admin := rest }
        | some c =>
          let bs := c.sqe ++ c.incap
          match s.dmaWrite .par f.dst bs (some d.ring) with
          | .error e => s.finishDma .par d e
          | .ok s =>
            let s := (s.setCmd k { c with begun := true }).setPar { s.par with
              admin := rest, cmds := Tab.set s.par.cmds k { c with begun := true } }
            s.finish .par d St.success (c.cntlid + (bs.length + 15) / 16 * 2 ^ 16) (c.ctx.getD 0 % 65536)

/-- What a successful answer tells the Parlour of a controller: KATO of a Connect or of Set Features 0Fh, ANA notices of Set
Features 0Bh. -/
def State.adminSeen (s : State) (c : NvmeCmd) : State :=
  let kato := fun ms => (ms * 8 + 4) / 5
  match s.ctrl c.cntlid with
  | none => s
  | some x =>
    if c.op = Nop.fabrics ∧ fieldAt c.sqe 4 1 = 1 ∧ fieldAt c.sqe 42 2 = 0 then
      (s.setCtrl c.cntlid { x with kato := kato (c.cdw 12) }).keepAlive c.cntlid
    else if c.op = 0x09 ∧ c.cdw 10 % 256 = 0x0F then (s.setCtrl c.cntlid { x with kato := kato (c.cdw 11) }).keepAlive c.cntlid
    else if c.op = 0x09 ∧ c.cdw 10 % 256 = 0x0B then s.setCtrl c.cntlid { x with anaNotice := (c.cdw 11).testBit 11 }
    else s

/-- Whether the answer to a capsule waits for the cut it made (R111). -/
def State.answerWaits (s : State) (c : NvmeCmd) : Bool :=
  c.op == Nop.fabrics && (fieldAt c.sqe 4 1 == 8 || fieldAt c.sqe 4 1 == 0) && s.par.cuts.any fun x =>
    x.d.isNone && x.cntlid == c.cntlid && (x.qid.isNone || x.qid == some c.qid)

/-- ADMIN_COMPLETE: software's answer to a fetched command, with its data. -/
def execAdminComplete (d : DescRef) (s : State) : Host.Outcome State Fault Refusal :=
  s.parDesc d Op.adminComplete fun f =>
    match s.par.cmds.find? fun x => x.2.cntlid == f.at 32 2 && x.2.cid == f.at 34 2 && x.2.software && x.2.begun && !x.2.cut with
    | none => s.finish .par d St.adminNoCommand
    | some (k, c) =>
      if s.answerWaits c then s
      else match s.dmaRead .par f.src f.len (some d.ring) with
        | .error e => s.finishDma .par d e
        | .ok data =>
          let cqe := slice f.img 36 16
          let s := if fieldAt cqe 14 2 / 2 = 0 then s.adminSeen c else s
          let s := if data.isEmpty then s else s.sendData c data
          let s := match c.ctx with
            | some x => s.sendCapsule x cqe
            | none => s
          (s.freeContextOf k).finish .par d St.success

/-- AEN_POST: an Asynchronous Event Request of the controller completes; it waits while none is held. -/
def execAenPost (d : DescRef) (s : State) : Host.Outcome State Fault Refusal :=
  s.parDesc d Op.aenPost fun f =>
    let cntlid := f.at 32 2
    match s.ctrl cntlid with
    | none => s.finish .par d St.ctrlInvalid
    | some x => match x.aers with
      | [] => s.setPhase .par d .waiting
      | a :: rest =>
        let s := s.setCtrl cntlid { x with aers := rest }
        let s := match s.par.cmds.find? fun e => e.2.cntlid == cntlid && e.2.admin && e.2.op == Nadm.aer && e.2.cid == a with
          | some (k, _) => s.complete k Nv.ok (f.at 36 4)
          | none => s
        s.finish .par d St.success

/-! ## The ANA log page (R120, R128) -/

/-- A group descriptor of log page 0Ch: group, its namespaces, the change count, its state. -/
def anaGroup (g state changes : Nat) (nsids : List Nat) : List Byte :=
  leBytes 4 g ++ leBytes 4 nsids.length ++ leBytes 8 changes ++ leBytes 1 state ++ zeros 15 ++ nsids.flatMap (leBytes 4)

/-- Log page 0Ch from the shard state table. With RGO no namespaces are listed. -/
def State.anaPage (s : State) (rgo : Bool) : List Byte :=
  let groups := (List.range 256).flatMap fun g =>
    let ns := if rgo then [] else ((List.range 1024).map fun i => i * 256 + g).filter fun v => volValid (s.volEntry v)
    anaGroup (g + 1) (anaOf (s.rd (PAR_SHARD.STATE g))) s.par.anaChanges (ns.map (· + 1))
  leBytes 8 s.par.anaChanges ++ leBytes 2 256 ++ zeros 6 ++ groups

/-- ANA_READ. -/
def execAnaRead (d : DescRef) (s : State) : Host.Outcome State Fault Refusal :=
  s.parDesc d Op.anaRead fun f =>
    if (s.ctrl (f.at 32 2)).isNone then s.finish .par d St.ctrlInvalid
    else
      let bs := (s.anaPage ((f.at 36 1).testBit 0)).take f.len
      match s.dmaWrite .par f.dst bs (some d.ring) with
      | .error e => s.finishDma .par d e
      | .ok s => s.finish .par d St.success 0 bs.length

/-- PAR_PEAK_CLEAR: PEAK ← IN_USE. -/
def execParPeakClear (origin : Origin) (s : State) : Host.Outcome State Fault Refusal :=
  .next (s.plainField .par origin PAR_CTX_STATUS.PEAK_CLR 1 fun s => s.wr PAR_CTX_STATUS.PEAK (s.rd PAR_CTX_STATUS.IN_USE))

end Sys2Proof.Machine
end

