-- ==== Sys2Proof/Machine/Dispatch.lean ====
section
/-! DEFINITION. One arm per command, each a direct call of its meaning. -/
namespace Sys2Proof.Machine
open Sys2Proof

/-- The effect of a command on everything but the queue. -/
def exec (i : Instr) (s : State) : Host.Outcome State Fault Refusal :=
  match i with
  | .csrWrite origin addr size value => Sys2Proof.Machine.execCsrWrite origin addr size value s
  | .csrReadMisaligned origin addr size => Sys2Proof.Machine.execCsrReadMisaligned origin addr size s
  | .holeAccess origin addr store => Sys2Proof.Machine.execHoleAccess origin addr store s
  | .vatWindowAccess origin addr size store ce => Sys2Proof.Machine.execVatWindowAccess origin addr size store s ce
  | .dbProdWrite origin u ring value => Sys2Proof.Machine.execDbProdWrite origin u ring value s
  | .dbCheadWrite origin u ring value => Sys2Proof.Machine.execDbCheadWrite origin u ring value s
  | .doorbellBadAccess origin u off size store => Sys2Proof.Machine.execDoorbellBadAccess origin u off size store s
  | .ringEnable origin u ring => Sys2Proof.Machine.execRingEnable origin u ring s
  | .ringDisable origin u ring => Sys2Proof.Machine.execRingDisable origin u ring s
  | .ringDisableDone u ring => Sys2Proof.Machine.execRingDisableDone u ring s
  | .ringStop origin u ring flush => Sys2Proof.Machine.execRingStop origin u ring flush s
  | .ringStopDone u ring => Sys2Proof.Machine.execRingStopDone u ring s
  | .ringStart origin u ring => Sys2Proof.Machine.execRingStart origin u ring s
  | .descriptorFetch u ring => Sys2Proof.Machine.execDescriptorFetch u ring s
  | .descriptorStart u d => Sys2Proof.Machine.execDescriptorStart u d s
  | .msiHoldoffExpiry u ring => Sys2Proof.Machine.execMsiHoldoffExpiry u ring s
  | .unitEnable origin u => Sys2Proof.Machine.execUnitEnable origin u s
  | .railEnable origin r => Sys2Proof.Machine.execRailEnable origin r s
  | .railReset origin r => Sys2Proof.Machine.execRailReset origin r s
  | .railFail origin r => Sys2Proof.Machine.execRailFail origin r s
  | .railInternalError r cause => Sys2Proof.Machine.execRailInternalError r cause s
  | .portLinkChange lport up fec codewords => Sys2Proof.Machine.execPortLinkChange lport up fec codewords s
  | .rxFrame frame => Sys2Proof.Machine.execRxFrame frame s
  | .rocePacketRx port => Sys2Proof.Machine.execRocePacketRx port s
  | .ctxFetchDone c bad => Sys2Proof.Machine.execCtxFetchDone c bad s
  | .cnpRx port => Sys2Proof.Machine.execCnpRx port s
  | .rateRise c => Sys2Proof.Machine.execRateRise c s
  | .localAckTimeout c => Sys2Proof.Machine.execLocalAckTimeout c s
  | .mrInvalidateAck r key => Sys2Proof.Machine.execMrInvalidateAck r key s
  | .mrDrainLimitExpiry key => Sys2Proof.Machine.execMrDrainLimitExpiry key s
  | .odpResume r c => Sys2Proof.Machine.execOdpResume r c s
  | .odpTimeoutExpiry c => Sys2Proof.Machine.execOdpTimeoutExpiry c s
  | .tcpSegmentRx port => Sys2Proof.Machine.execTcpSegmentRx port s
  | .tcpRtoExpiry c => Sys2Proof.Machine.execTcpRtoExpiry c s
  | .qpModify r d => Sys2Proof.Machine.execQpModify r d s
  | .qpQuery r d => Sys2Proof.Machine.execQpQuery r d s
  | .mrRegister d => Sys2Proof.Machine.execMrRegister d s
  | .mrInvalidate d => Sys2Proof.Machine.execMrInvalidate d s
  | .postSend r d => Sys2Proof.Machine.execPostSend r d s
  | .postRecv r d => Sys2Proof.Machine.execPostRecv r d s
  | .pktTx r d => Sys2Proof.Machine.execPktTx r d s
  | .pktRxBuf r d => Sys2Proof.Machine.execPktRxBuf r d s
  | .tcpInstall r d => Sys2Proof.Machine.execTcpInstall r d s
  | .tcpRelease r d => Sys2Proof.Machine.execTcpRelease r d s
  | .odpWait r d => Sys2Proof.Machine.execOdpWait r d s
  | .capsuleArrival => Sys2Proof.Machine.execCapsuleArrival s
  | .nvmeRead k ms => Sys2Proof.Machine.execNvmeRead k ms s
  | .nvmeWrite k => Sys2Proof.Machine.execNvmeWrite k s
  | .nvmeFlush k => Sys2Proof.Machine.execNvmeFlush k s
  | .nvmeWriteZeroes k ms => Sys2Proof.Machine.execNvmeWriteZeroes k ms s
  | .nvmeDatasetManagement k => Sys2Proof.Machine.execNvmeDatasetManagement k s
  | .nvmeVerify k ms => Sys2Proof.Machine.execNvmeVerify k ms s
  | .secureDeallocate k ms => Sys2Proof.Machine.execSecureDeallocate k ms s
  | .nvmeAbort k => Sys2Proof.Machine.execNvmeAbort k s
  | .nvmeKeepAlive k => Sys2Proof.Machine.execNvmeKeepAlive k s
  | .nvmeAsyncEventRequest k => Sys2Proof.Machine.execNvmeAsyncEventRequest k s
  | .budgetRefill => Sys2Proof.Machine.execBudgetRefill s
  | .budgetGatePass k => Sys2Proof.Machine.execBudgetGatePass k s
  | .dispatch => Sys2Proof.Machine.execDispatch s
  | .ageLimitExpiry k => Sys2Proof.Machine.execAgeLimitExpiry k s
  | .payloadComplete k ms => Sys2Proof.Machine.execPayloadComplete k ms s
  | .holdLimitExpiry k => Sys2Proof.Machine.execHoldLimitExpiry k s
  | .keepAliveExpiry cntlid => Sys2Proof.Machine.execKeepAliveExpiry cntlid s
  | .associationLoss => Sys2Proof.Machine.execAssociationLoss s
  | .queueDeletionDone j => Sys2Proof.Machine.execQueueDeletionDone j s
  | .volSet d => Sys2Proof.Machine.execVolSet d s
  | .tenantSet d => Sys2Proof.Machine.execTenantSet d s
  | .queueBind d => Sys2Proof.Machine.execQueueBind d s
  | .queueDelete d => Sys2Proof.Machine.execQueueDelete d s
  | .ctrlReset d => Sys2Proof.Machine.execCtrlReset d s
  | .adminFetch d => Sys2Proof.Machine.execAdminFetch d s
  | .adminComplete d => Sys2Proof.Machine.execAdminComplete d s
  | .aenPost d => Sys2Proof.Machine.execAenPost d s
  | .anaRead d => Sys2Proof.Machine.execAnaRead d s
  | .parPeakClear origin => Sys2Proof.Machine.execParPeakClear origin s
  | .inlineFingerprint k j => Sys2Proof.Machine.execInlineFingerprint k j s
  | .inlineLookup k j => Sys2Proof.Machine.execInlineLookup k j s
  | .indexBucketReadDone k j => Sys2Proof.Machine.execIndexBucketReadDone k j s
  | .verifyCompareDone k j ms => Sys2Proof.Machine.execVerifyCompareDone k j ms s
  | .domainSet d => Sys2Proof.Machine.execDomainSet d s
  | .lookup d => Sys2Proof.Machine.execLookup d s
  | .insert d => Sys2Proof.Machine.execInsert d s
  | .refAdjust d => Sys2Proof.Machine.execRefAdjust d s
  | .relocate d => Sys2Proof.Machine.execRelocate d s
  | .mergeScan d => Sys2Proof.Machine.execMergeScan d s
  | .shardState d => Sys2Proof.Machine.execShardState d s
  | .shardDropDone shard => Sys2Proof.Machine.execShardDropDone shard s
  | .inlineCompress k j => Sys2Proof.Machine.execInlineCompress k j s
  | .inlineDecompress k j ms => Sys2Proof.Machine.execInlineDecompress k j ms s
  | .compress d => Sys2Proof.Machine.execCompress d s
  | .decompress d => Sys2Proof.Machine.execDecompress d s
  | .recast d => Sys2Proof.Machine.execRecast d s
  | .dictLoad d => Sys2Proof.Machine.execDictLoad d s
  | .dictDrop d => Sys2Proof.Machine.execDictDrop d s
  | .churnLaneFault lane job => Sys2Proof.Machine.execChurnLaneFault lane job s
  | .hash d => Sys2Proof.Machine.execHash d s
  | .ctxClose d => Sys2Proof.Machine.execCtxClose d s
  | .pressResultRead origin c w => Sys2Proof.Machine.execPressResultRead origin c w s
  | .legacyStart origin alg length => Sys2Proof.Machine.execLegacyStart origin alg length s
  | .legacyRelease origin => Sys2Proof.Machine.execLegacyRelease origin s
  | .legacyFinal origin => Sys2Proof.Machine.execLegacyFinal origin s
  | .legacyKey origin handle => Sys2Proof.Machine.execLegacyKey origin handle s
  | .legacyData origin word drained => Sys2Proof.Machine.execLegacyData origin word drained s
  | .legacyHashDone => Sys2Proof.Machine.execLegacyHashDone s
  | .legacyResultRead origin w => Sys2Proof.Machine.execLegacyResultRead origin w s
  | .legacyIdleExpiry => Sys2Proof.Machine.execLegacyIdleExpiry s
  | .pressLaneFault lane job => Sys2Proof.Machine.execPressLaneFault lane job s
  | .encode d => Sys2Proof.Machine.execEncode d s
  | .decode d => Sys2Proof.Machine.execDecode d s
  | .patchDelta d => Sys2Proof.Machine.execPatchDelta d s
  | .verify d => Sys2Proof.Machine.execVerify d s
  | .locate d => Sys2Proof.Machine.execLocate d s
  | .intentAcquire d ms => Sys2Proof.Machine.execIntentAcquire d ms s
  | .intentRelease d => Sys2Proof.Machine.execIntentRelease d s
  | .rebuildCtl d => Sys2Proof.Machine.execRebuildCtl d s
  | .resync d ms => Sys2Proof.Machine.execResync d ms s
  | .genSet d => Sys2Proof.Machine.execGenSet d s
  | .rebuildEnSet origin => Sys2Proof.Machine.execRebuildEnSet origin s
  | .graceExpiry b => Sys2Proof.Machine.execGraceExpiry b s
  | .chunkReadTimeout k j ms => Sys2Proof.Machine.execChunkReadTimeout k j ms s
  | .intentFlush ms => Sys2Proof.Machine.execIntentFlush ms s
  | .patrolStripe ms => Sys2Proof.Machine.execPatrolStripe ms s
  | .rebuildStripe b ms => Sys2Proof.Machine.execRebuildStripe b ms s
  | .resyncRegion shard pool region ms => Sys2Proof.Machine.execResyncRegion shard pool region ms s
  | .carcLaneFault lane job => Sys2Proof.Machine.execCarcLaneFault lane job s
  | .journalPageProgram shard lane ms => Sys2Proof.Machine.execJournalPageProgram shard lane ms s
  | .journalHoldExpiry shard lane ms => Sys2Proof.Machine.execJournalHoldExpiry shard lane ms s
  | .replicaTimeout shard page blade ms => Sys2Proof.Machine.execReplicaTimeout shard page blade ms s
  | .bladeCompletion b j => Sys2Proof.Machine.execBladeCompletion b j s
  | .remirror shard lane ms => Sys2Proof.Machine.execRemirror shard lane ms s
  | .fold shard pool ms => Sys2Proof.Machine.execFold shard pool ms s
  | .foldAgeExpiry shard pool ms => Sys2Proof.Machine.execFoldAgeExpiry shard pool ms s
  | .checkpointPeriodExpiry shard ms => Sys2Proof.Machine.execCheckpointPeriodExpiry shard ms s
  | .checkpointLateExpiry shard => Sys2Proof.Machine.execCheckpointLateExpiry shard s
  | .gcVictimCollect blade shard ms => Sys2Proof.Machine.execGcVictimCollect blade shard ms s
  | .wearLevelCheck blade ms => Sys2Proof.Machine.execWearLevelCheck blade ms s
  | .wheelReclaim shard wheel ms => Sys2Proof.Machine.execWheelReclaim shard wheel ms s
  | .healthPeriodExpiry => Sys2Proof.Machine.execHealthPeriodExpiry s
  | .bladeAttach d ms => Sys2Proof.Machine.execBladeAttach d ms s
  | .bladeDetach d => Sys2Proof.Machine.execBladeDetach d s
  | .laneSet d => Sys2Proof.Machine.execLaneSet d s
  | .shardLoad d img ms => Sys2Proof.Machine.execShardLoad d img ms s
  | .shardRelease d ms => Sys2Proof.Machine.execShardRelease d ms s
  | .checkpoint d ms => Sys2Proof.Machine.execCheckpoint d ms s
  | .foldNow d ms => Sys2Proof.Machine.execFoldNow d ms s
  | .reclaim d ms => Sys2Proof.Machine.execReclaim d ms s
  | .healthNow d => Sys2Proof.Machine.execHealthNow d s
  | .prsntChange b low => Sys2Proof.Machine.execPrsntChange b low s
  | .prsntDebounceExpiry b => Sys2Proof.Machine.execPrsntDebounceExpiry b s
  | .portResetExpiry b => Sys2Proof.Machine.execPortResetExpiry b s
  | .bladeLinkTrained b port width speed32 flit major => Sys2Proof.Machine.execBladeLinkTrained b port width speed32 flit major s
  | .bladeTrainingTimeout b => Sys2Proof.Machine.execBladeTrainingTimeout b s
  | .bladeRdySeen b => Sys2Proof.Machine.execBladeRdySeen b s
  | .bladeRdyTimeout b => Sys2Proof.Machine.execBladeRdyTimeout b s
  | .bladeFatalSeen b => Sys2Proof.Machine.execBladeFatalSeen b s
  | .dlDown b => Sys2Proof.Machine.execDlDown b s
  | .unreachExpiry b => Sys2Proof.Machine.execUnreachExpiry b s
  | .portDownExpiry b => Sys2Proof.Machine.execPortDownExpiry b s
  | .portReset b origin => Sys2Proof.Machine.execPortReset b origin s
  | .commandTimeoutExpiry b j => Sys2Proof.Machine.execCommandTimeoutExpiry b j s
  | .pass d => Sys2Proof.Machine.execPass d s
  | .bcpSqDoorbell b port queue cmds => Sys2Proof.Machine.execBcpSqDoorbell b port queue cmds s
  | .bcpCcWrite b port en => Sys2Proof.Machine.execBcpCcWrite b port en s
  | .bcpRead b j m => Sys2Proof.Machine.execBcpRead b j m s
  | .bcpProgram b j m => Sys2Proof.Machine.execBcpProgram b j m s
  | .bcpErase b j m => Sys2Proof.Machine.execBcpErase b j m s
  | .bcpClaim b j => Sys2Proof.Machine.execBcpClaim b j s
  | .bcpRetire b j => Sys2Proof.Machine.execBcpRetire b j s
  | .setEpoch b j => Sys2Proof.Machine.execSetEpoch b j s
  | .renew b j => Sys2Proof.Machine.execRenew b j s
  | .leaseRelease b j => Sys2Proof.Machine.execLeaseRelease b j s
  | .epochRead b j => Sys2Proof.Machine.execEpochRead b j s
  | .bcpIdentify b j => Sys2Proof.Machine.execBcpIdentify b j s
  | .bcpHealth b j temp die => Sys2Proof.Machine.execBcpHealth b j temp die s
  | .claimList b j => Sys2Proof.Machine.execClaimList b j s
  | .ecRead b j => Sys2Proof.Machine.execEcRead b j s
  | .wipe b j => Sys2Proof.Machine.execWipe b j s
  | .wipeConsent b j => Sys2Proof.Machine.execWipeConsent b j s
  | .perstAssert b port perst => Sys2Proof.Machine.execPerstAssert b port perst s
  | .bladePowerUp b fresh whole => Sys2Proof.Machine.execBladePowerUp b fresh whole s
  | .tenonEnable origin en => Sys2Proof.Machine.execTenonEnable origin en s
  | .tenonRetrain origin => Sys2Proof.Machine.execTenonRetrain origin s
  | .tenonSignalDetect lanes => Sys2Proof.Machine.execTenonSignalDetect lanes s
  | .tenonTrainDone good use reversed => Sys2Proof.Machine.execTenonTrainDone good use reversed s
  | .tenonTrainTimeout => Sys2Proof.Machine.execTenonTrainTimeout s
  | .tenonExchange version head time => Sys2Proof.Machine.execTenonExchange version head time s
  | .flitSilenceExpiry => Sys2Proof.Machine.execFlitSilenceExpiry s
  | .tenonRetrainDone good use reversed => Sys2Proof.Machine.execTenonRetrainDone good use reversed s
  | .tenonRetrainTimeout => Sys2Proof.Machine.execTenonRetrainTimeout s
  | .tenonDownExpiry => Sys2Proof.Machine.execTenonDownExpiry s
  | .flitRx good corrected fseq ack nak => Sys2Proof.Machine.execFlitRx good corrected fseq ack nak s
  | .ctrlCredit key n => Sys2Proof.Machine.execCtrlCredit key n s
  | .timeReqPeriod => Sys2Proof.Machine.execTimeReqPeriod s
  | .timeReq t1 => Sys2Proof.Machine.execTimeReq t1 s
  | .timeResp t1 t2 t3 => Sys2Proof.Machine.execTimeResp t1 t2 t3 s
  | .timeSlew => Sys2Proof.Machine.execTimeSlew s
  | .timeSyncLapse => Sys2Proof.Machine.execTimeSyncLapse s
  | .fwdReq tag cls tenant shard capsule data => Sys2Proof.Machine.execFwdReq tag cls tenant shard capsule data s
  | .fwdRsp tag status dw0 dw1 data confirm => Sys2Proof.Machine.execFwdRsp tag status dw0 dw1 data confirm s
  | .fwdCancel tag => Sys2Proof.Machine.execFwdCancel tag s
  | .fwdWaitExpiry => Sys2Proof.Machine.execFwdWaitExpiry s
  | .reexecutionDispatch shard ms => Sys2Proof.Machine.execReexecutionDispatch shard ms s
  | .maintIncrement tag shard locator count => Sys2Proof.Machine.execMaintIncrement tag shard locator count s
  | .maintDeferErase tag blade shard bands ms => Sys2Proof.Machine.execMaintDeferErase tag blade shard bands ms s
  | .peerWipeConsent tag blade => Sys2Proof.Machine.execPeerWipeConsent tag blade s
  | .peerRegWrite tag nn addr value => Sys2Proof.Machine.execPeerRegWrite tag nn addr value s
  | .mailRx tag bytes => Sys2Proof.Machine.execMailRx tag bytes s
  | .mailSend d => Sys2Proof.Machine.execMailSend d s
  | .mailRecv d => Sys2Proof.Machine.execMailRecv d s
  | .renewRound => Sys2Proof.Machine.execRenewRound s
  | .leaseExpiry sh => Sys2Proof.Machine.execLeaseExpiry sh s
  | .leaseTailEnd sh => Sys2Proof.Machine.execLeaseTailEnd sh s
  | .quietEnd sh => Sys2Proof.Machine.execQuietEnd sh s
  | .releaseReadDeadline sh => Sys2Proof.Machine.execReleaseReadDeadline sh s
  | .note shards running => Sys2Proof.Machine.execNote shards running s
  | .noteSilenceExpiry sh => Sys2Proof.Machine.execNoteSilenceExpiry sh s
  | .offer sh epoch => Sys2Proof.Machine.execOffer sh epoch s
  | .won sh epoch w => Sys2Proof.Machine.execWon sh epoch w s
  | .refuse sh => Sys2Proof.Machine.execRefuse sh s
  | .lost sh => Sys2Proof.Machine.execLost sh s
  | .abdicate cause => Sys2Proof.Machine.execAbdicate cause s
  | .takeLimitExpiry sh => Sys2Proof.Machine.execTakeLimitExpiry sh s
  | .takeoverSilenceReached sh b => Sys2Proof.Machine.execTakeoverSilenceReached sh b s
  | .hbOutToggle => Sys2Proof.Machine.execHbOutToggle s
  | .hbInEdge => Sys2Proof.Machine.execHbInEdge s
  | .hbLossExpiry => Sys2Proof.Machine.execHbLossExpiry s
  | .watchdogKick origin => Sys2Proof.Machine.execWatchdogKick origin s
  | .watchdogExpiry => Sys2Proof.Machine.execWatchdogExpiry s
  | .abdicateWrite origin => Sys2Proof.Machine.execAbdicateWrite origin s
  | .fatalMachineCheck => Sys2Proof.Machine.execFatalMachineCheck s
  | .drillDue sh => Sys2Proof.Machine.execDrillDue sh s
  | .drillGraceExpiry sh => Sys2Proof.Machine.execDrillGraceExpiry sh s
  | .handoffBegin d => Sys2Proof.Machine.execHandoffBegin d s
  | .handoffCommit d => Sys2Proof.Machine.execHandoffCommit d s
  | .handoffAbort d => Sys2Proof.Machine.execHandoffAbort d s
  | .take d => Sys2Proof.Machine.execTake d s
  | .drain d => Sys2Proof.Machine.execDrain d s
  | .undrain d => Sys2Proof.Machine.execUndrain d s
  | .eventWait d => Sys2Proof.Machine.execEventWait d s
  | .coolerAccess port addr store err => Sys2Proof.Machine.execCoolerAccess port addr store err s
  | .coolerFillDone line err => Sys2Proof.Machine.execCoolerFillDone line err s
  | .evictionWriteAccepted line together => Sys2Proof.Machine.execEvictionWriteAccepted line together s
  | .l2Writeback core line => Sys2Proof.Machine.execL2Writeback core line s
  | .cboClean addr => Sys2Proof.Machine.execCboClean addr s
  | .cboFlush addr => Sys2Proof.Machine.execCboFlush addr s
  | .cboInval addr => Sys2Proof.Machine.execCboInval addr s
  | .cleanRange d => Sys2Proof.Machine.execCleanRange d s
  | .flushRange d => Sys2Proof.Machine.execFlushRange d s
  | .cleanAll d => Sys2Proof.Machine.execCleanAll d s
  | .flushWays d => Sys2Proof.Machine.execFlushWays d s
  | .sliceRetire d => Sys2Proof.Machine.execSliceRetire d s
  | .sliceRestore d => Sys2Proof.Machine.execSliceRestore d s
  | .coolerDisable origin => Sys2Proof.Machine.execCoolerDisable origin s
  | .coolerDrainDone => Sys2Proof.Machine.execCoolerDrainDone s
  | .pailRequest n id cls count => Sys2Proof.Machine.execPailRequest n id cls count s
  | .pailRelease pail => Sys2Proof.Machine.execPailRelease pail s
  | .vatAlarmExpiry index => Sys2Proof.Machine.execVatAlarmExpiry index s
  | .vatUeDetected pail => Sys2Proof.Machine.execVatUeDetected pail s
  | .pailAlloc d => Sys2Proof.Machine.execPailAlloc d s
  | .pailFree d => Sys2Proof.Machine.execPailFree d s
  | .vatPeakClear cls => Sys2Proof.Machine.execVatPeakClear cls s
  | .ddrTrainingStart origin => Sys2Proof.Machine.execDdrTrainingStart origin s
  | .ddrTrainingDone ch fast cause => Sys2Proof.Machine.execDdrTrainingDone ch fast cause s
  | .zqCalibration ch rank => Sys2Proof.Machine.execZqCalibration ch rank s
  | .dqsOscRead ch rank => Sys2Proof.Machine.execDqsOscRead ch rank s
  | .dimmThermalRead temps => Sys2Proof.Machine.execDimmThermalRead temps s
  | .ddrRefresh ch => Sys2Proof.Machine.execDdrRefresh ch s
  | .ddrScrub err => Sys2Proof.Machine.execDdrScrub err s
  | .random d => Sys2Proof.Machine.execRandom d s
  | .keyGen d => Sys2Proof.Machine.execKeyGen d s
  | .keyLoad d => Sys2Proof.Machine.execKeyLoad d s
  | .keyDestroy d => Sys2Proof.Machine.execKeyDestroy d s
  | .keyExport d => Sys2Proof.Machine.execKeyExport d s
  | .kekCreate d => Sys2Proof.Machine.execKekCreate d s
  | .kekUnseal d => Sys2Proof.Machine.execKekUnseal d s
  | .pairOffer d => Sys2Proof.Machine.execPairOffer d s
  | .pairSend d certKey => Sys2Proof.Machine.execPairSend d certKey s
  | .pairReceive d certKey => Sys2Proof.Machine.execPairReceive d certKey s
  | .cfgWrite d => Sys2Proof.Machine.execCfgWrite d s
  | .lockSet d => Sys2Proof.Machine.execLockSet d s
  | .lockClear d => Sys2Proof.Machine.execLockClear d s
  | .attest d => Sys2Proof.Machine.execAttest d s
  | .certRead d => Sys2Proof.Machine.execCertRead d s
  | .lifecycleAdvance d => Sys2Proof.Machine.execLifecycleAdvance d s
  | .entropyHealthFail proportion => Sys2Proof.Machine.execEntropyHealthFail proportion s
  | .drbgReseed => Sys2Proof.Machine.execDrbgReseed s
  | .jtagInstruction insn => Sys2Proof.Machine.execJtagInstruction insn s
  | .veneerInlineJob k j => Sys2Proof.Machine.execVeneerInlineJob k j s
  | .keyUnwrapDone tenant => Sys2Proof.Machine.execKeyUnwrapDone tenant s
  | .encrypt d => Sys2Proof.Machine.execEncrypt d s
  | .decrypt d => Sys2Proof.Machine.execDecrypt d s
  | .keyEvict d => Sys2Proof.Machine.execKeyEvict d s
  | .venLaneFault lane job => Sys2Proof.Machine.execVenLaneFault lane job s
  | .auditEntryWrite => Sys2Proof.Machine.execAuditEntryWrite s
  | .auditSealPeriod => Sys2Proof.Machine.execAuditSealPeriod s
  | .auditSealCount => Sys2Proof.Machine.execAuditSealCount s
  | .auditShutdown origin => Sys2Proof.Machine.execAuditShutdown origin s
  | .jigBegin d => Sys2Proof.Machine.execJigBegin d s
  | .jigBlock d => Sys2Proof.Machine.execJigBlock d s
  | .jigBlockWritten ok => Sys2Proof.Machine.execJigBlockWritten ok s
  | .jigCommit d => Sys2Proof.Machine.execJigCommit d s
  | .jigAbort d => Sys2Proof.Machine.execJigAbort d s
  | .jigActivate d => Sys2Proof.Machine.execJigActivate d s
  | .jigActivationDone type => Sys2Proof.Machine.execJigActivationDone type s
  | .jigBitmap d => Sys2Proof.Machine.execJigBitmap d s
  | .jigPortBegin => Sys2Proof.Machine.execJigPortBegin s
  | .jigPortSegment => Sys2Proof.Machine.execJigPortSegment s
  | .jigPortCommit => Sys2Proof.Machine.execJigPortCommit s
  | .jigPortAbort => Sys2Proof.Machine.execJigPortAbort s
  | .jigPortStatus => Sys2Proof.Machine.execJigPortStatus s
  | .jigIdleExpiry => Sys2Proof.Machine.execJigIdleExpiry s
  | .coreDividerWrite origin core div => Sys2Proof.Machine.execCoreDividerWrite origin core div s
  | .refclkLoss => Sys2Proof.Machine.execRefclkLoss s
  | .domainOnRequest d => Sys2Proof.Machine.execDomainOnRequest d s
  | .domainOffRequest origin d hart => Sys2Proof.Machine.execDomainOffRequest origin d hart s
  | .domainRampAdmit => Sys2Proof.Machine.execDomainRampAdmit s
  | .rampTimeout d => Sys2Proof.Machine.execRampTimeout d s
  | .governorSample d vmeas isense jobs => Sys2Proof.Machine.execGovernorSample d vmeas isense jobs s
  | .govResume d => Sys2Proof.Machine.execGovResume d s
  | .thermalRead temps => Sys2Proof.Machine.execThermalRead temps s
  | .thermalTripPoweroff => Sys2Proof.Machine.execThermalTripPoweroff s
  | .witnessPassStart => Sys2Proof.Machine.execWitnessPassStart s
  | .measureNow origin => Sys2Proof.Machine.execMeasureNow s origin
  | .markMeasurementDone marks => Sys2Proof.Machine.execMarkMeasurementDone marks s
  | .coreRetirement core => Sys2Proof.Machine.execCoreRetirement core s
  | .meterEvent => Sys2Proof.Machine.execMeterEvent s
  | .capTick => Sys2Proof.Machine.execCapTick s
  | .meterCut => Sys2Proof.Machine.execMeterCut s
  | .meterSweep => Sys2Proof.Machine.execMeterSweep s
  | .capSet d => Sys2Proof.Machine.execCapSet d s
  | .lineRead d => Sys2Proof.Machine.execLineRead d s
  | .tallyTokenRefill => Sys2Proof.Machine.execTallyTokenRefill s
  | .tallySpill => Sys2Proof.Machine.execTallySpill s
  | .triggerPulseEnd => Sys2Proof.Machine.execTriggerPulseEnd s
  | .lossHoldExpiry => Sys2Proof.Machine.execLossHoldExpiry s
  | .tallyClearCounts => Sys2Proof.Machine.execTallyClearCounts s
  | .mgtFrameRx frame => Sys2Proof.Machine.execMgtFrameRx frame s
  | .mgtLinkChange up gig => Sys2Proof.Machine.execMgtLinkChange up gig s
  | .frameTx d => Sys2Proof.Machine.execFrameTx d s
  | .frameRxBuf d => Sys2Proof.Machine.execFrameRxBuf d s
  | .wallClockApply ref => Sys2Proof.Machine.execWallClockApply ref s
  | .vddAonRise fuses images => Sys2Proof.Machine.execVddAonRise fuses images s
  | .pwrokFall torn => Sys2Proof.Machine.execPwrokFall torn s
  | .resetNAssert torn => Sys2Proof.Machine.execResetNAssert torn s
  | .coldResetRelease headSel peerPrsntN norOk train => Sys2Proof.Machine.execColdResetRelease headSel peerPrsntN norOk train s
  | .warmReset origin => Sys2Proof.Machine.execWarmReset origin s
  | .warmResetEnd norOk train => Sys2Proof.Machine.execWarmResetEnd norOk train s
  | .powerLoss torn => Sys2Proof.Machine.execPowerLoss torn s
  | .groupWrite d norOk => Sys2Proof.Machine.execGroupWrite d norOk s
  | .groupRead d => Sys2Proof.Machine.execGroupRead d s
  | .groupDelete d norOk => Sys2Proof.Machine.execGroupDelete d norOk s
  | .rnrTimerExpiry c => Sys2Proof.Machine.execRnrTimerExpiry c s
  | .tenonLaneErrorLimit lane => Sys2Proof.Machine.execTenonLaneErrorLimit lane s
  | .linkDownHbLossExpiry => Sys2Proof.Machine.execLinkDownHbLossExpiry s
  | .bcpLeaseCfgWrite b port v => Sys2Proof.Machine.execBcpLeaseCfgWrite b port v s
  | .bladePowerLoss b whole => Sys2Proof.Machine.execBladePowerLoss b whole s
  | .maintAck tag ok bands ms => Sys2Proof.Machine.execMaintAck tag ok bands ms s
  | .peerRegRead tag nn addr => Sys2Proof.Machine.execPeerRegRead tag nn addr s

end Sys2Proof.Machine
end

