-- ==== Sys2Proof/Machine/Step.lean ====
section
/-! DEFINITION. One step of the block: the command at the front of the queue, or one tick of CHIP_TIME. -/
namespace Sys2Proof.Machine
open Sys2Proof

/-- The block with no command waiting: one data-plane tick passes and CHIP_TIME, 64 bits wide, counts it (R14, R15).
DESIGN CHOICE (log entry 3): time passes only here, and a timer's expiry is a command of its own. -/
def State.tick (s : State) : State := { s with now := (s.now + 1) % 2 ^ 64 }

/-- One step: the command at the front of the queue takes its effect on the state with the queue's rest; with an empty
queue a tick passes. -/
def step (s : State) : Host.Outcome State Fault Refusal :=
  match s.pending with
  | [] => .next s.tick
  | c :: rest => exec c { s with pending := rest }

/-- The state with the command that a word of the opcode table spells put at the front of the queue; no word spells one. -/
def State.withFetchWord (s : State) (nbits w : Nat) : State :=
  match decodeTableWord nbits w with
  | some c => { s with pending := c :: s.pending }
  | none => s

end Sys2Proof.Machine
end

