-- ==== Sys2Proof/Safety.lean ====
section
/-! DEFINITION. What a sound state of the block is, in the terms the statements use, and the words they share. -/
namespace Sys2Proof.Machine
open Sys2Proof

/-- The sparse data stand in their one canonical form: addresses strictly rising and no listed byte equal to what an
unlisted address reads as, in DRAM, the Vat and the OTP; register fields in rising order. -/
structure State.Canonical (s : State) : Prop where
  mem : Memory.wf s.mem = true
  otp : Memory.wf s.otp = true
  csr : Tab.sorted s.csr = true

/-- Every bit set in the OTP of one state is set in the other (R383). -/
def State.OtpWithin (s t : State) : Prop := ∀ a, Memory.read s.otp a ||| Memory.read t.otp a = Memory.read t.otp a

/-- Every address reads the same byte in two states. -/
def State.SameMemory (s t : State) : Prop := ∀ a, Memory.read t.mem a = Memory.read s.mem a

/-- Every register field outside the windows of the units listed reads the same in two states. -/
def State.SameRegsBut (us : List UnitId) (s t : State) : Prop :=
  ∀ f : Fld, (∀ u ∈ us, ¬ (unitBase u ≤ f.reg ∧ f.reg < unitBase u + 0x400000)) → f.lo < 64 → t.rd f = s.rd f

/-- Whether a configuration-class write from an origin to a unit takes effect now: the initiator is there, the audit FIFO has
room and the unit is not locked against the origin (R28, R43, R386, R410). -/
def State.admits (s : State) (u : UnitId) (origin : Origin) : Bool :=
  s.originThere origin.toNat && s.auditRoom && !s.locked u origin.toNat

/-- The state `t` that an accepted write of `v` to field `f` left, with the write's journal entry staged: the old word, the
new word and the origin (R43, R410). `s` is the state before the write. -/
def State.journaled (s t : State) (origin : Origin) (f : Fld) (v : Nat) : State :=
  t.auditWrite origin.toNat 0xFFFF f.reg (s.readCsr f.reg) (f.put (s.readCsr f.reg) v)

end Sys2Proof.Machine
end

