-- ==== Sys2Proof/Certificates/Slice0/Obligations.lean ====
section
/-! DEFINITION. What the provers are asked to prove of the machine, chapter by chapter. Each statement is a conjunction of
clauses; a clause that says where a command completes has hypotheses on the state and the operands alone. -/
section
open Sys2Proof Sys2Proof.Machine

/-- A step runs the command at the front of the queue on the state with the queue's rest. For every command c, every list of further commands and every state: step of the state whose queue is c followed by them is exec of c on the state whose queue is those further commands. (The queue is the model's own: log entry 3.) -/
def Obligations.StepRunsTheFrontCommand : Prop :=
  ∀ (c : Instr) (rest : List Instr) (s : State),
    step { s with pending := c :: rest } = exec c { s with pending := rest }

/-- With no command waiting a step is one tick of CHIP_TIME and changes nothing else. For every state with an empty queue, step answers the state with CHIP_TIME one higher modulo 2^64. That time passes in the steps of an empty queue is the model's choice (log entry 3, DESIGN CHOICE). -/
def Obligations.IdleStepIsATick : Prop :=
  ∀ s : State, s.pending = [] → step s = .next { s with now := (s.now + 1) % 2 ^ 64 }

/-- After reset the queue is empty, every ring is DISABLED, nothing is recorded and memory lists nothing. In State.reset the queue is empty, the head is in cold reset, the data are in canonical form, every ring of every unit is DISABLED with phase 1, UNIT_LOCK and UNIT_ERR of every unit read 0, and every address reads the same byte (the byte 0 is the model's choice, log entry 4). -/
def Obligations.ResetState : Prop :=
  State.reset.pending = [] ∧ State.reset.boot.cold = true ∧ State.reset.Canonical ∧
  (∀ (u : UnitId) (r : Nat), State.reset.ringSt u r = Rst.disabled ∧
    State.reset.rd (RING_STATUS.CPL_PHASE (unitBase u) r) = 1 ∧ State.reset.rd (RING_OWNER.ANY (unitBase u) r) = 1 ∧
    State.reset.rd (RING_CFG.LOG2_SIZE (unitBase u) r) = 4) ∧
  (∀ u : UnitId, State.reset.rd (UNIT_LOCK.LOCKED (unitBase u)) = 0 ∧ State.reset.rd (UNIT_ERR.VALID (unitBase u)) = 0) ∧
  (∀ a b : Nat, Memory.read State.reset.mem a = Memory.read State.reset.mem b)

/-- A register write takes effect and is journaled, is refused by the lock, or is discarded as misaligned. CSR_WRITE by an initiator that is there: an aligned 64-bit write of a register of a unit's chapter that the register accepts takes its effect; of a configuration-class register it is then journaled with the old and the new word (the word as written: log entry 121); a write of a ring's register block while the ring is DISABLED, of RING_OWNER and the MSI registers in any state, of UNIT_LOCK by the Island and of UNIT_ERR takes effect at once; while LOCKED is 1 and the origin is not 0x0200 a write changes no register of the chapter: REFUSED counts, UNIT_ERR holds KIND 3, a core faults and the journal holds the attempt; a write that is not an aligned 64-bit one is discarded with KIND 1 and a core faults. Completion stated for: csrWrite. -/
def Obligations.RegisterWrites : Prop :=
  (∀ (s : State) (origin : Origin) (addr : PAddr) (value : Word) (u : UnitId) (r : RegRow),
      inCsr addr.toNat = true →
      s.originThere origin.toNat = true →
      (addr.toNat - csrBase) % 8 = 0 →
      csrUnit (addr.toNat - csrBase) = some u →
      0x200000 ≤ addr.toNat - csrBase - unitBase u →
      findReg (addr.toNat - csrBase) = some r →
      (isLegacyReg (addr.toNat - csrBase) && !s.on PRESS_CTL.LEG_EN) = false →
      s.audited r.config origin.toNat = true →
      s.auditRoom = true →
      (r.config = true → s.locked u origin.toNat = false) →
      s.accepts u r (addr.toNat - csrBase) value.toNat = true →
      exec (.csrWrite origin addr .b8 value) s =
        .next ((s.csrApply origin u r (addr.toNat - csrBase) value.toNat).auditWrite origin.toNat 0xFFFF
          (addr.toNat - csrBase) (s.readCsr (addr.toNat - csrBase)) value.toNat)) ∧
  (∀ (s : State) (origin : Origin) (addr : PAddr) (value : Word) (u : UnitId) (r : RegRow),
      inCsr addr.toNat = true →
      s.originThere origin.toNat = true →
      (addr.toNat - csrBase) % 8 = 0 →
      csrUnit (addr.toNat - csrBase) = some u →
      0x200000 ≤ addr.toNat - csrBase - unitBase u →
      findReg (addr.toNat - csrBase) = some r →
      (isLegacyReg (addr.toNat - csrBase) && !s.on PRESS_CTL.LEG_EN) = false →
      s.audited r.config origin.toNat = false →
      s.accepts u r (addr.toNat - csrBase) value.toNat = true →
      exec (.csrWrite origin addr .b8 value) s = .next (s.csrApply origin u r (addr.toNat - csrBase) value.toNat)) ∧
  (∀ (s : State) (u : UnitId) (value : Word),
      exec (.csrWrite 0x200 (BitVec.ofNat 48 (csrBase + unitBase u + 0x10)) .b8 value) s =
        .next (s.wr (UNIT_LOCK.LOCKED (unitBase u)) (value.toNat % 2))) ∧
  (∀ (s : State) (origin : Origin) (u : UnitId) (value : Word),
      s.originThere origin.toNat = true →
      value.toNat.testBit 63 = true →
      exec (.csrWrite origin (BitVec.ofNat 48 (csrBase + unitBase u + 0x18)) .b8 value) s =
        .next (s.wr (UNIT_ERR.VALID (unitBase u)) 0)) ∧
  (∀ (s : State) (origin : Origin) (u : UnitId) (r x : Nat) (value : Word),
      s.originThere origin.toNat = true →
      r < unitRings u →
      s.ringSt u r = Rst.disabled ∨ 0x28 ≤ x →
      x = 0 ∨ x = 8 ∨ x = 0x10 ∨ x = 0x28 ∨ x = 0x30 ∨ x = 0x38 →
      exec (.csrWrite origin (BitVec.ofNat 48 (csrBase + unitBase u + 0x100000 + r * 0x40 + x)) .b8 value) s =
        .next (if x = 0 then s.wr (RING_DBASE.BASE (unitBase u) r) (bitsOf value.toNat 12 36)
          else if x = 8 then s.wr (RING_CBASE.BASE (unitBase u) r) (bitsOf value.toNat 12 36)
          else if x = 0x10 then
            ((s.wr (RING_CFG.LOG2_SIZE (unitBase u) r) (bitsOf value.toNat 0 5)).wr (RING_CFG.PROCESS_ID (unitBase u) r)
              (bitsOf value.toNat 24 20)).wr (RING_CFG.PID_VALID (unitBase u) r) (bitsOf value.toNat 44 1)
          else if x = 0x28 then (s.wr (RING_OWNER.ORIGIN (unitBase u) r) (bitsOf value.toNat 0 16)).wr
            (RING_OWNER.ANY (unitBase u) r) (bitsOf value.toNat 16 1)
          else if x = 0x30 then s.wr (RING_MSI_ADDR.ADDR (unitBase u) r) (bitsOf value.toNat 2 46)
          else (((s.wr (RING_MSI.IDENTITY (unitBase u) r) (bitsOf value.toNat 0 11)).wr (RING_MSI.EN (unitBase u) r)
            (bitsOf value.toNat 11 1)).wr (RING_MSI.ERR_EN (unitBase u) r) (bitsOf value.toNat 12 1)).wr
              (RING_MSI.HOLDOFF (unitBase u) r) (bitsOf value.toNat 16 16))) ∧
  (∀ (s : State) (origin : Origin) (addr : PAddr) (value : Word) (u : UnitId) (r : RegRow),
      inCsr addr.toNat = true →
      s.originThere origin.toNat = true →
      (addr.toNat - csrBase) % 8 = 0 →
      csrUnit (addr.toNat - csrBase) = some u →
      0x200000 ≤ addr.toNat - csrBase - unitBase u →
      findReg (addr.toNat - csrBase) = some r →
      r.config = true →
      s.auditRoom = true →
      s.locked u origin.toNat = true →
      exec (.csrWrite origin addr .b8 value) s =
        .next (((((s.bump (UNIT_LOCK.REFUSED (unitBase u)) 1).unitErr u origin.toNat (errOffset (addr.toNat - csrBase)) 3).coreFault
          origin.toNat (0xF00000000000 + (addr.toNat - csrBase)) true)).auditRefused origin.toNat 0xFFFF (addr.toNat - csrBase) value.toNat 1)) ∧
  (∀ (s : State) (origin : Origin) (addr : PAddr) (size : AccSize) (value : Word) (u : UnitId),
      inCsr addr.toNat = true →
      s.originThere origin.toNat = true →
      csrUnit (addr.toNat - csrBase) = some u →
      size ≠ .b8 ∨ (addr.toNat - csrBase) % 8 ≠ 0 →
      exec (.csrWrite origin addr size value) s =
        .next ((s.unitErr u origin.toNat (errOffset (addr.toNat - csrBase)) 1).coreFault origin.toNat addr.toNat true))

/-- What reads, holes, the Vat window and doorbell accesses answer. For every initiator that is there. CSR_READ_MISALIGNED of naturally aligned bytes returns those bytes of the register as the origin reads it, and records KIND 2 where the unit implements no register there; a misaligned one returns no data, records KIND 1 and faults a core. HOLE_ACCESS, load or store, faults a core and records EV_BUS_HOLE with origin and address; a load returns no data. VAT_WINDOW_ACCESS within 8 bytes stores the bytes least significant first, or returns them, and counts a corrected error; one that crosses an 8-byte boundary stores and returns nothing and records KIND 1. DOORBELL_BAD_ACCESS: an aligned 4-byte or 8-byte read returns the slot (0 for a ring that is not there), an aligned write to 0x10 and above of a slot is ignored, or recorded as KIND 4 where the ring is not there; every other access is discarded with KIND 4, and a read faults a core. Completion stated for: csrReadMisaligned, holeAccess, vatWindowAccess, doorbellBadAccess. -/
def Obligations.BusAccesses : Prop :=
  (∀ (s : State) (origin : Origin) (addr : PAddr) (size : AccSize) (u : UnitId),
      inCsr addr.toNat = true →
      s.originThere origin.toNat = true →
      csrUnit (addr.toNat - csrBase) = some u →
      (addr.toNat - csrBase) % size.bytes = 0 →
      State.implemented u ((addr.toNat - csrBase) / 8 * 8) = true →
      exec (.csrReadMisaligned origin addr size) s =
        .next ((s.csrReadBy origin.toNat ((addr.toNat - csrBase) / 8 * 8)).1.readReturn
          (some ((s.csrReadBy origin.toNat ((addr.toNat - csrBase) / 8 * 8)).2 / 2 ^ (8 * ((addr.toNat - csrBase) % 8)) % 2 ^ (8 * size.bytes))))) ∧
  (∀ (s : State) (origin : Origin) (addr : PAddr) (size : AccSize) (u : UnitId),
      inCsr addr.toNat = true →
      s.originThere origin.toNat = true →
      csrUnit (addr.toNat - csrBase) = some u →
      (addr.toNat - csrBase) % size.bytes = 0 →
      (addr.toNat - csrBase) / 8 * 8 < 0x5200000 ∨ 0x5300000 ≤ (addr.toNat - csrBase) / 8 * 8 →
      State.implemented u ((addr.toNat - csrBase) / 8 * 8) = true →
      exec (.csrReadMisaligned origin addr size) s =
        .next (s.readReturn (some (s.csrWord ((addr.toNat - csrBase) / 8 * 8) / 2 ^ (8 * ((addr.toNat - csrBase) % 8)) % 2 ^ (8 * size.bytes))))) ∧
  (∀ (s : State) (origin : Origin) (addr : PAddr) (size : AccSize) (u : UnitId),
      inCsr addr.toNat = true →
      s.originThere origin.toNat = true →
      csrUnit (addr.toNat - csrBase) = some u →
      (addr.toNat - csrBase) % size.bytes = 0 →
      State.implemented u ((addr.toNat - csrBase) / 8 * 8) = false →
      exec (.csrReadMisaligned origin addr size) s =
        .next ((s.unitErr u origin.toNat (errOffset (addr.toNat - csrBase)) 2).readReturn (some 0))) ∧
  (∀ (s : State) (origin : Origin) (addr : PAddr) (size : AccSize) (u : UnitId),
      inCsr addr.toNat = true →
      s.originThere origin.toNat = true →
      csrUnit (addr.toNat - csrBase) = some u →
      (addr.toNat - csrBase) % size.bytes ≠ 0 →
      exec (.csrReadMisaligned origin addr size) s =
        .next (((s.readReturn none).unitErr u origin.toNat (errOffset (addr.toNat - csrBase)) 1).coreFault origin.toNat addr.toNat false)) ∧
  (∀ (s : State) (origin : Origin) (addr : PAddr),
      s.originThere origin.toNat = true →
      s.isHole addr.toNat = true →
      exec (.holeAccess origin addr true) s =
        .next ((s.coreFault origin.toNat addr.toNat true).raise Ev.busHole none none [addr.toNat] (some origin.toNat)) ∧
      exec (.holeAccess origin addr false) s =
        .next (((s.readReturn none).coreFault origin.toNat addr.toNat false).raise Ev.busHole none none [addr.toNat] (some origin.toNat))) ∧
  (∀ (s : State) (origin : Origin) (addr : PAddr) (size : AccSize) (v : Word),
      s.originThere origin.toNat = true →
      inVat addr.toNat = true →
      addr.toNat % 8 + size.bytes ≤ 8 →
      ∃ t : State, exec (.vatWindowAccess origin addr size (some v) false) s = .next t ∧
        (∀ i, i < size.bytes → Memory.read t.mem (addr.toNat + i) = BitVec.ofNat 8 (v.toNat / 2 ^ (8 * i))) ∧
        (∀ a, (a < addr.toNat ∨ addr.toNat + size.bytes ≤ a) → Memory.read t.mem a = Memory.read s.mem a) ∧
        t.csr = s.csr ∧ t.bus = s.bus) ∧
  (∀ (s : State) (origin : Origin) (addr : PAddr) (size : AccSize),
      s.originThere origin.toNat = true →
      inVat addr.toNat = true →
      addr.toNat % 8 + size.bytes ≤ 8 →
      exec (.vatWindowAccess origin addr size none false) s =
        .next (s.readReturn (some (leNat (Memory.readN s.mem addr.toNat size.bytes)))) ∧
      exec (.vatWindowAccess origin addr size none true) s =
        .next ((s.bump VAT_ERR.CE 1).readReturn (some (leNat (Memory.readN s.mem addr.toNat size.bytes))))) ∧
  (∀ (s : State) (origin : Origin) (addr : PAddr) (size : AccSize) (v : Word) (ce : Bool),
      s.originThere origin.toNat = true →
      inVat addr.toNat = true →
      8 < addr.toNat % 8 + size.bytes →
      exec (.vatWindowAccess origin addr size (some v) ce) s =
        .next ((s.unitErr .vat origin.toNat 0x400000 1).coreFault origin.toNat addr.toNat true)) ∧
  (∀ (s : State) (origin : Origin) (u : UnitId) (off : Nat) (size : AccSize),
      s.originThere origin.toNat = true →
      off < 0x40000 →
      off % size.bytes = 0 →
      4 ≤ size.bytes →
      exec (.doorbellBadAccess origin u off size false) s =
        .next (s.readReturn (some (s.doorbellWord u off / 2 ^ (8 * (off % 8)) % 2 ^ (8 * size.bytes))))) ∧
  (∀ (s : State) (origin : Origin) (u : UnitId) (off : Nat) (size : AccSize),
      s.originThere origin.toNat = true →
      off < 0x40000 →
      off % size.bytes = 0 →
      4 ≤ size.bytes →
      0x10 ≤ off % 0x40 →
      exec (.doorbellBadAccess origin u off size true) s =
        .next (if off / 0x1000 * 64 + off % 0x1000 / 0x40 < unitRings u then s
          else s.unitErr u origin.toNat (unitK u * 0x40000 + off) 4)) ∧
  (∀ (s : State) (origin : Origin) (u : UnitId) (off : Nat) (size : AccSize),
      s.originThere origin.toNat = true →
      off < 0x40000 →
      off % size.bytes ≠ 0 ∨ size.bytes < 4 →
      exec (.doorbellBadAccess origin u off size true) s = .next (s.unitErr u origin.toNat (unitK u * 0x40000 + off) 4)) ∧
  (∀ (s : State) (origin : Origin) (u : UnitId) (off : Nat) (size : AccSize),
      s.originThere origin.toNat = true →
      off < 0x40000 →
      off % size.bytes ≠ 0 ∨ size.bytes < 4 →
      exec (.doorbellBadAccess origin u off size false) s =
        .next (((s.unitErr u origin.toNat (unitK u * 0x40000 + off) 4).readReturn none).coreFault origin.toNat
          (0xE00000000000 + unitN u * 0x100000 + unitK u * 0x40000 + off) false))

/-- A doorbell write publishes descriptors or releases completion entries of its ring alone. DB_PROD_WRITE with an index below the ring's size, from an origin RING_OWNER accepts, on a ring that is not DISABLED or in ERROR, makes it the producer index; DB_CHEAD_WRITE of a head that releases no more than is posted makes it the completion head and takes the released entries off. No register, no byte of memory and no other ring changes. A producer index that is not below the size puts the ring into ERROR with cause 1, a head that releases more than is posted with cause 2, and a write from a foreign origin is dropped with KIND 4 and EV_DB_FOREIGN. Completion stated for: dbProdWrite, dbCheadWrite. -/
def Obligations.DoorbellWrites : Prop :=
  (∀ (s : State) (origin : Origin) (u : UnitId) (ring value : Nat),
      s.originThere origin.toNat = true →
      s.doorbellOk u ring origin = true →
      s.ringSt u ring ≠ Rst.disabled →
      s.ringSt u ring ≠ Rst.error →
      value < 65536 →
      value < s.ringSize u ring →
      ∃ t : State, exec (.dbProdWrite origin u ring value) s = .next t ∧
        t.ring u ring = { s.ring u ring with dbProd := value, prod := value, origins := noteOrigins (s.ring u ring).origins (s.ring u ring).prod (ringSpan (s.ring u ring).prod value (s.ringSize u ring)) (s.ringSize u ring) origin.toNat } ∧
        (∀ (u' : UnitId) (r' : Nat), ringKey u' r' ≠ ringKey u ring → t.ring u' r' = s.ring u' r') ∧ t.csr = s.csr ∧ t.mem = s.mem) ∧
  (∀ (s : State) (origin : Origin) (u : UnitId) (ring value : Nat),
      s.originThere origin.toNat = true →
      s.doorbellOk u ring origin = true →
      s.ringSt u ring ≠ Rst.disabled →
      s.ringSt u ring ≠ Rst.error →
      value < 65536 →
      value < s.ringSize u ring →
      releases (s.ring u ring) value (s.ringSize u ring) ≤ (s.ring u ring).posted →
      ∃ t : State, exec (.dbCheadWrite origin u ring value) s = .next t ∧
        t.ring u ring = { s.ring u ring with dbChead := value, chead := value, posted := (s.ring u ring).posted - releases (s.ring u ring) value (s.ringSize u ring) } ∧
        (∀ (u' : UnitId) (r' : Nat), ringKey u' r' ≠ ringKey u ring → t.ring u' r' = s.ring u' r') ∧ t.csr = s.csr ∧ t.mem = s.mem) ∧
  (∀ (s : State) (origin : Origin) (u : UnitId) (ring value : Nat),
      s.originThere origin.toNat = true →
      s.doorbellOk u ring origin = true →
      s.ringSt u ring ≠ Rst.disabled →
      s.ringSt u ring ≠ Rst.error →
      value < 65536 →
      s.ringSize u ring ≤ value →
      exec (.dbProdWrite origin u ring value) s =
        .next ((s.setRing u ring { s.ring u ring with dbProd := value }).ringError u ring 1)) ∧
  (∀ (s : State) (origin : Origin) (u : UnitId) (ring value : Nat),
      s.originThere origin.toNat = true →
      s.doorbellOk u ring origin = true →
      s.ringSt u ring ≠ Rst.disabled →
      s.ringSt u ring ≠ Rst.error →
      value < 65536 →
      value < s.ringSize u ring →
      (s.ring u ring).posted < releases (s.ring u ring) value (s.ringSize u ring) →
      exec (.dbCheadWrite origin u ring value) s =
        .next ((s.setRing u ring { s.ring u ring with dbChead := value }).ringError u ring 2)) ∧
  (∀ (s : State) (origin : Origin) (u : UnitId) (ring value : Nat),
      s.originThere origin.toNat = true →
      s.doorbellOk u ring origin = true →
      s.ringSt u ring = Rst.disabled ∨ s.ringSt u ring = Rst.error →
      value < 65536 →
      exec (.dbProdWrite origin u ring value) s = .next (s.setRing u ring { s.ring u ring with dbProd := value }) ∧
      exec (.dbCheadWrite origin u ring value) s = .next (s.setRing u ring { s.ring u ring with dbChead := value })) ∧
  (∀ (s : State) (origin : Origin) (u : UnitId) (ring value : Nat),
      s.originThere origin.toNat = true →
      ring < unitRings u →
      s.ringAccepts u ring origin.toNat = false →
      exec (.dbProdWrite origin u ring value) s =
        .next ((s.unitErr u origin.toNat (doorbellOff u ring 0) 4).raise Ev.dbForeign (some u) (some ring) [ring] (some origin.toNat)))

/-- A ring moves between its states as the ring control commands and their completions say. RING_ENABLE of a DISABLED ring with a valid configuration makes it ACTIVE with its indices at 0 and its phase at 1; RING_STOP of an ACTIVE ring makes it STOPPING and a flush leaves nothing fetched that waited or had not started, each of it completed; RING_STOP_DONE makes it STOPPED once nothing fetched and nothing published is left; RING_START makes a STOPPED ring ACTIVE; RING_DISABLE of a STOPPED ring and RING_DISABLE_DONE of one disabled from ERROR make it DISABLED, and its unit gives up what the ring held (pails, Press contexts). RING_ENABLE of an invalid configuration ends in ERROR with cause 6 (that the indices are reset then too: log entry 120). A control write in a state that does not admit it records KIND 6 and changes no ring. Completion stated for: ringEnable, ringStop, ringStopDone, ringStart, ringDisable, ringDisableDone. -/
def Obligations.RingStateMachine : Prop :=
  (∀ (s : State) (origin : Origin) (u : UnitId) (ring : Nat),
      ring < unitRings u →
      s.ringSt u ring = Rst.disabled →
      s.ringValid u ring = true →
      ∃ t : State, exec (.ringEnable origin u ring) s = .next t ∧ t.ringSt u ring = Rst.active ∧ t.on (RING_CTL.EN (unitBase u) ring) = true ∧
        t.pending = s.pending ∧ t.now = s.now ∧ t.rd (RING_STATUS.CONS_IDX (unitBase u) ring) = 0 ∧ t.rd (RING_STATUS.CPL_IDX (unitBase u) ring) = 0 ∧
        t.rd (RING_STATUS.CPL_PHASE (unitBase u) ring) = 1 ∧ t.rd (RING_STATUS.ERR_CAUSE (unitBase u) ring) = 0 ∧
        (t.ring u ring).prod = 0 ∧ (t.ring u ring).chead = 0 ∧ (t.ring u ring).posted = 0 ∧ (t.ring u ring).fetched = [] ∧
        t.mem = s.mem ∧ (∀ f : Fld, (f.reg ≠ (RING_CTL.EN (unitBase u) ring).reg ∧ f.reg ≠ (RING_STATUS.STATE (unitBase u) ring).reg) → f.lo < 64 →
          t.rd f = s.rd f)) ∧
  (∀ (s : State) (origin : Origin) (u : UnitId) (ring : Nat),
      ring < unitRings u →
      s.ringSt u ring = Rst.active →
      ∃ t : State, exec (.ringStop origin u ring false) s = .next t ∧ t.ringSt u ring = Rst.stopping ∧
        t.on (RING_CTL.STOP (unitBase u) ring) = true ∧ t.on (RING_CTL.FLUSH (unitBase u) ring) = false ∧
        t.ring u ring = { s.ring u ring with stopAt := (s.ring u ring).prod } ∧ t.mem = s.mem) ∧
  (∀ (s : State) (origin : Origin) (u : UnitId) (ring : Nat),
      ring < unitRings u →
      s.ringSt u ring = Rst.active →
      (s.ring u ring).fetched = [] →
      ∃ t : State, exec (.ringStop origin u ring true) s = .next t ∧ t.ringSt u ring = Rst.stopping ∧
        t.on (RING_CTL.FLUSH (unitBase u) ring) = true ∧ t.ring u ring = { s.ring u ring with stopAt := (s.ring u ring).prod } ∧ t.mem = s.mem) ∧
  (∀ (s : State) (origin : Origin) (u : UnitId) (ring : Nat),
      ring < unitRings u →
      s.ringSt u ring = Rst.disabled →
      s.ringValid u ring = false →
      exec (.ringEnable origin u ring) s = .next ((s.ringActivate u ring).ringError u ring 6)) ∧
  (∀ (s : State) (u : UnitId) (ring : Nat),
      s.ringSt u ring = Rst.stopping →
      (s.ring u ring).fetched = [] →
      s.unfetched u ring = 0 →
      ∃ t : State, exec (.ringStopDone u ring) s = .next t ∧ t.ringSt u ring = Rst.stopped ∧ t.on (RING_CTL.STOP (unitBase u) ring) = false ∧
        t.rings = s.rings ∧ t.mem = s.mem) ∧
  (∀ (s : State) (origin : Origin) (u : UnitId) (ring : Nat),
      ring < unitRings u →
      s.ringSt u ring = Rst.stopped →
      exec (.ringStart origin u ring) s = .next (s.wr (RING_STATUS.STATE (unitBase u) ring) Rst.active)) ∧
  (∀ (s : State) (origin : Origin) (u : UnitId) (ring : Nat),
      ring < unitRings u →
      s.ringSt u ring = Rst.stopped →
      exec (.ringDisable origin u ring) s =
        .next ((((s.wr (RING_CTL.EN (unitBase u) ring) 0).wr (RING_STATUS.STATE (unitBase u) ring) Rst.disabled).setRing u ring
          { s.ring u ring with disabling := false }).ringGone u ring)) ∧
  (∀ (s : State) (origin : Origin) (u : UnitId) (ring : Nat),
      ring < unitRings u →
      s.ringSt u ring = Rst.stopped →
      u ≠ .vat →
      ∃ t : State, exec (.ringDisable origin u ring) s = .next t ∧ t.ringSt u ring = Rst.disabled ∧
        t.on (RING_CTL.EN (unitBase u) ring) = false ∧ t.ring u ring = { s.ring u ring with disabling := false } ∧ t.mem = s.mem) ∧
  (∀ (s : State) (origin : Origin) (u : UnitId) (ring : Nat),
      ring < unitRings u →
      s.ringSt u ring = Rst.error →
      (s.ring u ring).fetched = [] →
      exec (.ringDisable origin u ring) s =
        .next ((s.wr (RING_CTL.EN (unitBase u) ring) 0).setRing u ring { s.ring u ring with disabling := true })) ∧
  (∀ (s : State) (u : UnitId) (ring : Nat),
      s.ringSt u ring = Rst.error →
      (s.ring u ring).disabling = true →
      (s.ring u ring).fetched = [] →
      exec (.ringDisableDone u ring) s =
        .next ((((s.wr (RING_CTL.EN (unitBase u) ring) 0).wr (RING_STATUS.STATE (unitBase u) ring) Rst.disabled).setRing u ring
          { s.ring u ring with disabling := false }).ringGone u ring)) ∧
  (∀ (s : State) (u : UnitId) (ring : Nat),
      s.ringSt u ring = Rst.error →
      (s.ring u ring).disabling = true →
      (s.ring u ring).fetched = [] →
      u ≠ .vat →
      ∃ t : State, exec (.ringDisableDone u ring) s = .next t ∧ t.ringSt u ring = Rst.disabled ∧ (t.ring u ring).disabling = false ∧ t.mem = s.mem) ∧
  (∀ (s : State) (origin : Origin) (u : UnitId) (ring : Nat),
      unitRings u ≤ ring ∨ s.ringSt u ring ≠ Rst.disabled →
      exec (.ringEnable origin u ring) s = .next (s.ringRefused u ring origin)) ∧
  (∀ (s : State) (origin : Origin) (u : UnitId) (ring : Nat),
      ring < unitRings u →
      s.ringSt u ring ≠ Rst.stopped →
      exec (.ringStart origin u ring) s =
        .next (s.unitErr u origin.toNat (errOffset (unitBase u + 0x100018 + ring * 0x40)) 6))

/-- A published descriptor is fetched in order, starts when it may, and a hold-off ends with one MSI. DESCRIPTOR_FETCH of a descriptor without CHAIN flag, or of a whole published chain, on a ring of a working unit that is ACTIVE or draining, with room in its completion ring, appends it to what the ring has fetched with the origin that published it and advances CONS_IDX past it. DESCRIPTOR_START of a fetched descriptor whose turn it is (FENCE, URGENT, order) and that passes the general checks makes it started; one that fails a check completes with that check's status. MSI_HOLDOFF_EXPIRY with completions owed writes one MSI and starts a new hold-off. Completion stated for: descriptorFetch, descriptorStart, msiHoldoffExpiry. -/
def Obligations.DescriptorsAreFetchedAndStarted : Prop :=
  (∀ (s : State) (u : UnitId) (ring : Nat) (img : List Byte),
      ring < unitRings u →
      s.unitWorks u = true →
      s.fetching u ring = true →
      s.unfetched u ring ≠ 0 →
      s.cplRoom u ring = true →
      s.rd (RING_STATUS.CONS_IDX (unitBase u) ring) < s.ringSize u ring →
      (s.dmaRead u (s.rd (RING_DBASE.BASE (unitBase u) ring) * 4096 + s.rd (RING_STATUS.CONS_IDX (unitBase u) ring) * 64) 64 (some ring)).toOption = some img →
      (fieldAt img 1 1).testBit 2 = false →
      exec (.descriptorFetch u ring) s =
        .next ((s.wr (RING_STATUS.CONS_IDX (unitBase u) ring)
          ((s.rd (RING_STATUS.CONS_IDX (unitBase u) ring) + 1) % s.ringSize u ring)).setRing u ring
          { s.ring u ring with fetched := (s.ring u ring).fetched ++ [⟨s.rd (RING_STATUS.CONS_IDX (unitBase u) ring), [img], .fetched, Tab.getD (s.ring u ring).origins (s.rd (RING_STATUS.CONS_IDX (unitBase u) ring)) 0⟩] })) ∧
  (∀ (s : State) (u : UnitId) (ring : Nat) (imgs : List (List Byte)),
      ring < unitRings u →
      s.unitWorks u = true →
      s.fetching u ring = true →
      s.unfetched u ring ≠ 0 →
      s.cplRoom u ring = true →
      (s.fetchChain u ring (s.rd (RING_STATUS.CONS_IDX (unitBase u) ring)) (s.unfetched u ring)).toOption = some (some imgs) →
      exec (.descriptorFetch u ring) s =
        .next ((s.wr (RING_STATUS.CONS_IDX (unitBase u) ring)
          ((s.rd (RING_STATUS.CONS_IDX (unitBase u) ring) + imgs.length) % s.ringSize u ring)).setRing u ring
          { s.ring u ring with fetched := (s.ring u ring).fetched ++ [⟨s.rd (RING_STATUS.CONS_IDX (unitBase u) ring), imgs, .fetched, Tab.getD (s.ring u ring).origins (s.rd (RING_STATUS.CONS_IDX (unitBase u) ring)) 0⟩] })) ∧
  (∀ (s : State) (u : UnitId) (d : DescRef) (f : Fetched),
      s.fetchedAt u d = some f →
      f.phase = .fetched →
      s.unitWorks u = true →
      mayStart ((s.ring u d.ring).fetched.takeWhile (·.slot ≠ d.slot)) f = true →
      pressHeld u ((s.ring u d.ring).fetched.takeWhile (·.slot ≠ d.slot)) f = false →
      generalCheck u f = none →
      exec (.descriptorStart u d) s = .next (s.setPhase u d .started)) ∧
  (∀ (s : State) (u : UnitId) (d : DescRef) (f : Fetched) (st : Nat),
      s.fetchedAt u d = some f →
      f.phase = .fetched →
      s.unitWorks u = true →
      mayStart ((s.ring u d.ring).fetched.takeWhile (·.slot ≠ d.slot)) f = true →
      pressHeld u ((s.ring u d.ring).fetched.takeWhile (·.slot ≠ d.slot)) f = false →
      generalCheck u f = some st →
      (auditedOp u f.opcode = true → s.auditRoom = true) →
      s.inOrder u d = true →
      exec (.descriptorStart u d) s = .next (s.finish u d st)) ∧
  (∀ (s : State) (u : UnitId) (ring : Nat),
      s.due (s.ring u ring).holdUntil = true →
      (s.ring u ring).owed = true →
      exec (.msiHoldoffExpiry u ring) s =
        .next ((s.msi u ring).setRing u ring { s.ring u ring with owed := false, holdUntil := some (s.now + s.rd (RING_MSI.HOLDOFF (unitBase u) ring) * 1024) })) ∧
  (∀ (s : State) (u : UnitId) (ring : Nat),
      s.due (s.ring u ring).holdUntil = true →
      (s.ring u ring).owed = false →
      exec (.msiHoldoffExpiry u ring) s = .next (s.setRing u ring { s.ring u ring with holdUntil := none }))

/-- Enabling a unit sets its EN and starts what the unit does by itself. UNIT_ENABLE by an origin the lock admits, with audit room, sets EN of the unit to 1 and starts its timers and held work, then the write is journaled; a unit that is already enabled is not changed by it beyond the journal entry. Completion stated for: unitEnable. -/
def Obligations.UnitEnable : Prop :=
  (∀ (s : State) (origin : Origin) (u : UnitId) (f : Fld),
      enField u = some f →
      u ≠ .cool →
      s.on f = false →
      s.admits u origin = true →
      exec (.unitEnable origin u) s =
        .next (((s.wr f 1).unitStarts u).auditWrite origin.toNat 0xFFFF f.reg (s.readCsr f.reg) (f.put (s.readCsr f.reg) 1))) ∧
  (∀ (s : State) (origin : Origin),
      s.admits .cool origin = true →
      exec (.unitEnable origin .cool) s =
        .next (s.coolEnable.auditWrite origin.toNat 0xFFFF COOL_CTL.EN.reg (s.readCsr COOL_CTL.EN.reg) (COOL_CTL.EN.put (s.readCsr COOL_CTL.EN.reg) 1))) ∧
  (∀ (s : State) (origin : Origin) (u : UnitId) (f : Fld),
      enField u = some f →
      u ≠ .cool →
      s.on f = true →
      s.admits u origin = true →
      exec (.unitEnable origin u) s = .next (s.journaled s origin f 1))

/-- A Rail is enabled, reset and lost, and a logical port gains and loses link. RAIL_ENABLE of an OFF Rail makes it ACTIVE with EV_RAIL_UP; RAIL_RESET makes it OFF with EN and the cause 0; RAIL_FAIL and RAIL_INTERNAL_ERROR (causes 2, 3, 4) of a Rail that is not FAILED make it FAILED with its cause; each control write is journaled. PORT_LINK_CHANGE of a port of an ACTIVE Rail that is enabled and exists in its mode sets the link, the FEC lock and the port's bit, and adds the uncorrectable codewords; memory does not change. Completion stated for: railEnable, railReset, railFail, railInternalError, portLinkChange. -/
def Obligations.RailsAreEnabledResetAndLost : Prop :=
  (∀ (s : State) (origin : Origin) (r : Rail),
      s.admits (railUnit r) origin = true →
      s.rd (RAIL_STATUS.STATE (railIx r)) = Rst'.off →
      exec (.railEnable origin r) s =
        .next (s.journaled ((((s.wr (RAIL_CTL.EN (railIx r)) 1).wr (RAIL_STATUS.STATE (railIx r)) Rst'.active).raise Ev.railUp
          (some (railUnit r)) none [railIx r] (some origin.toNat))) origin (RAIL_CTL.EN (railIx r)) 1)) ∧
  (∀ (s : State) (origin : Origin) (r : Rail),
      s.admits (railUnit r) origin = true →
      ∃ t : State, exec (.railReset origin r) s = .next t ∧ t.rd (RAIL_STATUS.STATE (railIx r)) = Rst'.off ∧
        t.rd (RAIL_CTL.EN (railIx r)) = 0 ∧ t.rd (RAIL_STATUS.FAIL_CAUSE (railIx r)) = 0 ∧
        t.rd (RDMA_FAULTQ.BYTES (railIx r) 0) = 0 ∧ t.rd (RDMA_FAULTQ.BYTES (railIx r) 1) = 0) ∧
  (∀ (s : State) (origin : Origin) (r : Rail),
      s.admits (railUnit r) origin = true →
      s.rd (RAIL_STATUS.STATE (railIx r)) ≠ Rst'.failed →
      ∃ t : State, exec (.railFail origin r) s = .next t ∧ t.rd (RAIL_STATUS.STATE (railIx r)) = Rst'.failed ∧
        t.rd (RAIL_STATUS.FAIL_CAUSE (railIx r)) = 1) ∧
  (∀ (s : State) (r : Rail) (cause : Nat),
      cause = 2 ∨ cause = 3 ∨ cause = 4 →
      s.rd (RAIL_STATUS.STATE (railIx r)) ≠ Rst'.failed →
      ∃ t : State, exec (.railInternalError r cause) s = .next t ∧ t.rd (RAIL_STATUS.STATE (railIx r)) = Rst'.failed ∧
        t.rd (RAIL_STATUS.FAIL_CAUSE (railIx r)) = cause) ∧
  (∀ (s : State) (lport codewords : Nat) (up fec : Bool),
      lport < 16 →
      (up = true → s.railActive (if lport / 8 = 0 then .a else .b) = true) →
      (up = true → s.on (RAIL_PORT_CFG.EN (lport / 8) (lport / 4 % 2)) = true) →
      (up = true → s.lportActive lport = true) →
      ∃ t : State, exec (.portLinkChange lport up fec codewords) s = .next t ∧
        t.bit (RAIL_STATUS.LPORT_UP (lport / 8)) (lport % 8) = up ∧
        t.bit (RAIL_PORT_STATUS.LINK_UP (lport / 8) (lport / 4 % 2)) (lport % 4) = up ∧
        t.bit (RAIL_PORT_STATUS.FEC_LOCK (lport / 8) (lport / 4 % 2)) (lport % 4) = fec ∧
        t.rd (RAIL_PORT_STATUS.FEC_UNCORR (lport / 8) (lport / 4 % 2)) =
          satAdd (s.rd (RAIL_PORT_STATUS.FEC_UNCORR (lport / 8) (lport / 4 % 2))) codewords 32 ∧ t.mem = s.mem ∧ t.rails = s.rails)

/-- A good frame joins its port's receive buffer; the frame at its front is processed for its context or goes to software. RX_FRAME of a good RoCEv2 or TCP frame on a port with link, within the MTU, that the 1 MiB buffer holds, is appended to the physical port's buffer, and priorities are paused above 640 KiB (at most that, nothing else changes); a frame of any other kind goes to software; a bad, long or overflowing one is dropped and counted. ROCE_PACKET_RX, CNP_RX and TCP_SEGMENT_RX take the front frame of that kind: a packet for a context goes to it, one for QP 1 or a segment of no connection goes to software, one for no queue pair is dropped. Completion stated for: rxFrame, rocePacketRx, cnpRx, tcpSegmentRx. -/
def Obligations.FramesEnterAndLeaveTheReceiveBuffer : Prop :=
  (∀ (s : State) (frame : Frame) (t : State),
      frame.lport < 16 →
      s.railActive (portRail (frame.lport / 4)) = true →
      s.on (RAIL_PORT_CFG.EN (frame.lport / 8) (frame.lport / 4 % 2)) = true →
      s.bit (RAIL_PORT_STATUS.LINK_UP (frame.lport / 8) (frame.lport / 4 % 2)) (frame.lport % 4) = true →
      frame.good = true →
      frame.size ≤ s.rd (RAIL_PORT_CFG.MTU (frame.lport / 8) (frame.lport / 4 % 2)) →
      t = s.setRails { s.rails with rx := Tab.set s.rails.rx (frame.lport / 4) (Tab.getD s.rails.rx (frame.lport / 4) [] ++ [frame]) } →
      t.rxHeld (frame.lport / 4) ≤ 2 ^ 20 →
      frame.body ≠ .other →
      exec (.rxFrame frame) s = .next (t.xoff (frame.lport / 4))) ∧
  (∀ (s : State) (frame : Frame) (t : State),
      frame.lport < 16 →
      s.railActive (portRail (frame.lport / 4)) = true →
      s.on (RAIL_PORT_CFG.EN (frame.lport / 8) (frame.lport / 4 % 2)) = true →
      s.bit (RAIL_PORT_STATUS.LINK_UP (frame.lport / 8) (frame.lport / 4 % 2)) (frame.lport % 4) = true →
      frame.good = true →
      frame.size ≤ s.rd (RAIL_PORT_CFG.MTU (frame.lport / 8) (frame.lport / 4 % 2)) →
      t = s.setRails { s.rails with rx := Tab.set s.rails.rx (frame.lport / 4) (Tab.getD s.rails.rx (frame.lport / 4) [] ++ [frame]) } →
      t.rxHeld (frame.lport / 4) ≤ 655360 →
      frame.body ≠ .other →
      exec (.rxFrame frame) s = .next t) ∧
  (∀ (s : State) (frame : Frame) (t : State),
      frame.lport < 16 →
      s.railActive (portRail (frame.lport / 4)) = true →
      s.on (RAIL_PORT_CFG.EN (frame.lport / 8) (frame.lport / 4 % 2)) = true →
      s.bit (RAIL_PORT_STATUS.LINK_UP (frame.lport / 8) (frame.lport / 4 % 2)) (frame.lport % 4) = true →
      frame.good = true →
      frame.size ≤ s.rd (RAIL_PORT_CFG.MTU (frame.lport / 8) (frame.lport / 4 % 2)) →
      t = s.setRails { s.rails with rx := Tab.set s.rails.rx (frame.lport / 4) (Tab.getD s.rails.rx (frame.lport / 4) [] ++ [frame]) } →
      t.rxHeld (frame.lport / 4) ≤ 2 ^ 20 →
      frame.body = .other →
      exec (.rxFrame frame) s = .next (s.slowFrame frame.lport frame.raw)) ∧
  (∀ (s : State) (frame : Frame),
      frame.lport < 16 →
      s.railActive (portRail (frame.lport / 4)) = true →
      s.on (RAIL_PORT_CFG.EN (frame.lport / 8) (frame.lport / 4 % 2)) = true →
      s.bit (RAIL_PORT_STATUS.LINK_UP (frame.lport / 8) (frame.lport / 4 % 2)) (frame.lport % 4) = true →
      frame.good = false ∨ s.rd (RAIL_PORT_CFG.MTU (frame.lport / 8) (frame.lport / 4 % 2)) < frame.size →
      exec (.rxFrame frame) s = .next (s.bump (RAIL_PORT_STATUS.RX_DROP (frame.lport / 8) (frame.lport / 4 % 2)) 1)) ∧
  (∀ (s : State) (port : Nat) (f : Frame) (p : RocePkt) (t : State),
      s.popFrame port = some (f, t) →
      f.body = .roce p →
      p.op ≠ 0x81 →
      qpBase ≤ p.qpn →
      exec (.rocePacketRx port) s = .next (t.packetFor (p.qpn - qpBase) port f)) ∧
  (∀ (s : State) (port : Nat) (f : Frame) (p : RocePkt) (t : State),
      s.popFrame port = some (f, t) →
      f.body = .roce p →
      p.op ≠ 0x81 →
      p.qpn < qpBase →
      exec (.rocePacketRx port) s = .next (if p.qpn = 1 then t.slowFrame f.lport f.raw else t)) ∧
  (∀ (s : State) (port : Nat) (f : Frame) (p : RocePkt) (t : State),
      s.popFrame port = some (f, t) →
      f.body = .roce p →
      p.op = 0x81 →
      exec (.cnpRx port) s = .next (if p.qpn < qpBase then t else t.packetFor (p.qpn - qpBase) port f)) ∧
  (∀ (s : State) (port : Nat) (f : Frame) (g : TcpSeg) (t : State),
      s.popFrame port = some (f, t) →
      f.body = .tcp g →
      t.tcpFor f.lport g = none →
      exec (.tcpSegmentRx port) s = .next (t.slowFrame f.lport f.raw)) ∧
  (∀ (s : State) (port c : Nat) (f : Frame) (g : TcpSeg) (t : State),
      s.popFrame port = some (f, t) →
      f.body = .tcp g →
      t.tcpFor f.lport g = some c →
      exec (.tcpSegmentRx port) s = .next (t.packetFor c port f)) ∧
  (∀ (s : State) (c port : Nat) (f : Frame) (x : Ctx),
      s.ctx c = some x →
      x.rail = portRail port →
      s.holding c = false →
      x.resident = true →
      s.packetFor c port f = s.packetRx c f)

/-- Context fetches, rate rises, retransmission, RNR, on-demand paging and invalidation do what their timers and acknowledgements say. A timer acts when its tick is reached and nothing that waits goes before it (R62, R529). CTX_FETCH_DONE of a context that is being fetched makes it resident and processes the packets held for it in arrival order; one with an uncorrectable error puts a queue pair into ERR. RATE_RISE moves the rate half of the way to the target, raises the target after the fast stages, and arms the next rise below the line rate. LOCAL_ACK_TIMEOUT sends again what is unacknowledged, or puts the queue pair into ERR with no tries left; RNR_TIMER_EXPIRY likewise, 7 counting as unlimited. TCP_RTO_EXPIRY sends the oldest segment again at the floor rate, probes a closed window, and hands the connection back at the eighth in a row. MR_INVALIDATE_ACK of the last Rail fixes the visibility point; MR_DRAIN_LIMIT_EXPIRY puts into ERR the queue pairs that still hold a message on the region; ODP_RESUME takes the hold off and goes on; ODP_TIMEOUT_EXPIRY records EV_ODP_TIMEOUT and puts the queue pair into ERR (whose work request has ODP_TIMEOUT: log entry 57). Completion stated for: ctxFetchDone, rateRise, localAckTimeout, rnrTimerExpiry, mrInvalidateAck, mrDrainLimitExpiry, odpResume, odpTimeoutExpiry, tcpRtoExpiry. -/
def Obligations.TransportContextsAndTheirTimers : Prop :=
  (∀ (s : State) (c : Nat) (x : Ctx),
      s.ctx c = some x →
      s.rails.fetches.contains c = true →
      exec (.ctxFetchDone c false) s = .next ((s.rails.held.filter fun e => e.2.1 == c).foldl (fun (u : State) e => u.packetRx c e.2.2)
        ((s.dropHeld c).cacheCtx c))) ∧
  (∀ (s : State) (c : Nat) (x : Ctx) (q : Qp),
      s.ctx c = some x →
      x.body = .qp q →
      s.rails.fetches.contains c = true →
      exec (.ctxFetchDone c true) s = .next (((s.dropHeld c).cacheCtx c).qpErr c (some St.unitFault))) ∧
  (∀ (s : State) (c target rate : Nat) (x : Ctx),
      s.ctx c = some x →
      s.due x.riseAt = true →
      (target = if s.rd (RDMA_CC_CFG0.FAST_STAGES (railIx x.rail)) ≤ x.stage then min (s.lineRate x.lport) (x.target + s.rd (RDMA_CC_CFG1.R_AI (railIx x.rail))) else x.target) →
      rate = (x.rate + target + 1) / 2 →
      exec (.rateRise c) s = .next (s.setCtx c { x with target := target, rate := rate, stage := x.stage + 1, riseAt := if rate = s.lineRate x.lport then none else some (s.now + s.rd (RDMA_CC_CFG0.RISE_PERIOD (railIx x.rail)) * 1024) })) ∧
  (∀ (s : State) (c : Nat) (q : Qp),
      s.qp c = some q →
      s.due q.ackBy = true →
      q.st = Qst.rts ∨ q.st = Qst.sqd →
      q.tries = 0 →
      exec (.localAckTimeout c) s = .next (s.qpErr c (some St.retryExceeded))) ∧
  (∀ (s : State) (c : Nat) (q : Qp),
      s.qp c = some q →
      s.due q.ackBy = true →
      q.st = Qst.rts ∨ q.st = Qst.sqd →
      q.tries ≠ 0 →
      exec (.localAckTimeout c) s = .next ((s.setQp c { q with tries := q.tries - 1 }).resend c q.oldest)) ∧
  (∀ (s : State) (c : Nat) (q : Qp),
      s.qp c = some q →
      s.due q.rnrBy = true →
      q.rnrRetry ≠ 7 →
      q.rnrTries = 0 →
      exec (.rnrTimerExpiry c) s = .next (s.qpErr c (some St.rnrRetryExceeded))) ∧
  (∀ (s : State) (c : Nat) (q : Qp),
      s.qp c = some q →
      s.due q.rnrBy = true →
      q.rnrRetry = 7 ∨ q.rnrTries ≠ 0 →
      exec (.rnrTimerExpiry c) s =
        .next (((s.setQp c { q with rnrBy := none, rnrTries := if q.rnrRetry = 7 then q.rnrTries else q.rnrTries - 1 }).resend c
          q.oldest).pump c 4096)) ∧
  (∀ (s : State) (r : Rail) (key : Nat) (v w : Invalidate),
      (s.rails.invs.find? (fun v => v.key == key && !v.visible && (if r == .a then v.waitA else v.waitB)) = some v) →
      (w = if r = .a then { v with waitA := false } else { v with waitB := false }) →
      exec (.mrInvalidateAck r key) s =
        .next (if w.waitA || w.waitB then s.setRails { s.rails with invs := s.rails.invs.map (fun u => if u = v then w else u) }
          else (s.setRails { s.rails with invs := s.rails.invs.map (fun u => if u = v then w else u) }).invalVisible w)) ∧
  (∀ (s : State) (key : Nat) (v : Invalidate),
      (s.rails.invs.find? (fun v => v.key == key && v.visible && s.due v.limit) = some v) →
      exec (.mrDrainLimitExpiry key) s =
        .next ((((s.invalLeft v).holders.map (·.1)).eraseDups.foldl (fun (u : State) c => u.qpErr c none) s).invalSettle)) ∧
  (∀ (s : State) (r : Rail) (c : Nat) (x : Ctx) (q : Qp) (h : OdpHold),
      s.ctx c = some x →
      x.body = .qp q →
      x.rail = r →
      q.hold = some h →
      exec (.odpResume r c) s = .next ((if !h.responder && q.outstanding then (s.setQp c { q with hold := none }).resend c q.oldest
        else s.setQp c { q with hold := none }).pump c 4096)) ∧
  (∀ (s : State) (c : Nat) (x : Ctx) (q : Qp) (h : OdpHold),
      s.ctx c = some x →
      x.body = .qp q →
      q.hold = some h →
      s.passed (h.since + s.rd (RDMA_ODP_CFG.TIMEOUT (railIx x.rail)) * mgmtTick) = true →
      exec (.odpTimeoutExpiry c) s = .next (if h.responder then
          (s.raise Ev.odpTimeout (some (railUnit x.rail)) (some c) [c, h.iova]).qpErr c none false 0 (if h.send then some St.odpTimeout else none)
        else (s.raise Ev.odpTimeout (some (railUnit x.rail)) (some c) [c, h.iova]).qpErr c (some St.odpTimeout) false
          (if h.send then (q.sq.findIdx? (!·.sent)).getD 0 else 0))) ∧
  (∀ (s : State) (c : Nat) (x : Ctx) (y : Tcp),
      s.ctx c = some x →
      x.body = .tcp y →
      s.due y.rtoBy = true →
      y.sent ≠ [] →
      7 ≤ y.rtos →
      exec (.tcpRtoExpiry c) s = .next (s.tcpHandback c St.success)) ∧
  (∀ (s : State) (c : Nat) (x : Ctx) (y z : Tcp) (e : TcpSent) (rest : List TcpSent),
      s.ctx c = some x →
      x.body = .tcp y →
      s.due y.rtoBy = true →
      y.sent = e :: rest →
      y.rtos < 7 →
      (z = ({ y with rtos := y.rtos + 1, rto := min 1600000000 (2 * y.rto), recover := some y.sndNxt, sacked := [], dupAcks := 0, cwrDue := y.cwrDue || y.ecnOn, sent := y.sent.map (fun e => { e with again := false }) } : Tcp).rearm s.now) →
      exec (.tcpRtoExpiry c) s = .next ((s.setCtx c { x with rate := s.rd (RDMA_CC_CFG1.R_MIN (railIx x.rail)), body := .tcp z }).tcpResend c
        (z.sent.headD e))) ∧
  (∀ (s : State) (c : Nat) (x : Ctx) (y : Tcp),
      s.ctx c = some x →
      x.body = .tcp y →
      s.due y.rtoBy = true →
      y.sent = [] →
      exec (.tcpRtoExpiry c) s = .next (s.tcpProbe c x (({ y with rto := min 1600000000 (2 * y.rto) } : Tcp).rearm s.now)))

/-- What the descriptors of the Rails and of their common window do when they succeed. On an ACTIVE Rail: QP_MODIFY binds a context from RESET to INIT, sets the attributes of its transition (INIT to INIT, to RTR, to RTS, to SQD and back: which apply in SQD is the model's choice, log entry 57), releases it to RESET or puts it into ERR, and completes with SUCCESS and the new state, to SQD once the sends before it are acknowledged; QP_QUERY of 512 bytes writes the context image, whose bytes are free (log entry 8), and completes; POST_SEND joins the send queue and the requester goes on; POST_RECV joins the receive queue; PKT_TX sends its bytes as a frame and completes; PKT_RX_BUF takes the oldest frame kept for software or waits for one; TCP_INSTALL makes a context of the connection; TCP_RELEASE hands the connection back with its sequence numbers; ODP_WAIT takes the next report or waits for one. Each use makes the context the most recently used. MR_REGISTER writes the region table; MR_INVALIDATE begins an invalidation. Completion stated for: qpModify, qpQuery, mrRegister, mrInvalidate, postSend, postRecv, pktTx, pktRxBuf, tcpInstall, tcpRelease, odpWait. -/
def Obligations.RailDescriptors : Prop :=
  (∀ (s : State) (r : Rail) (d : DescRef) (f : Fetched),
      s.startedAt (railUnit r) d Op.qpModify = some f →
      s.railActive r = true →
      f.ctx < ctxCount →
      s.ctx f.ctx = none →
      f.at 32 1 = Qst.init →
      s.lportActive (railLport r (f.at 33 1 % 8)) = true →
      ((f.at 51 1).testBit 0 = true → s.pinRoom r f.ctx = true) →
      exec (.qpModify r d) s =
        .next (((s.setCtx f.ctx { rail := r, lport := railLport r (f.at 33 1 % 8), parlour := (f.at 51 1).testBit 2, pin := (f.at 51 1).testBit 0, resident := false, rate := s.lineRate (railLport r (f.at 33 1 % 8)), target := s.lineRate (railLport r (f.at 33 1 % 8)), body := .qp (f.initQp { }) }).cacheCtx f.ctx).finish (railUnit r) d St.success Qst.init)) ∧
  (∀ (s : State) (r : Rail) (d : DescRef) (f : Fetched) (x : Ctx) (q : Qp),
      s.startedAt (railUnit r) d Op.qpModify = some f →
      s.railActive r = true →
      f.ctx < ctxCount →
      s.ctx f.ctx = some x →
      x.rail = r →
      x.body = .qp q →
      (q.sqd.any (fun e => e.1 == d) = false) →
      q.st = Qst.init →
      f.at 32 1 = Qst.init →
      exec (.qpModify r d) s = .next (((s.useCtx f.ctx).setQp f.ctx (f.initQp q)).finish (railUnit r) d St.success Qst.init)) ∧
  (∀ (s : State) (r : Rail) (d : DescRef) (f : Fetched) (x : Ctx) (q : Qp),
      s.startedAt (railUnit r) d Op.qpModify = some f →
      s.railActive r = true →
      f.ctx < ctxCount →
      s.ctx f.ctx = some x →
      x.rail = r →
      x.body = .qp q →
      (q.sqd.any (fun e => e.1 == d) = false) →
      q.st = Qst.init →
      f.at 32 1 = Qst.rtr →
      f.imgs.length = 2 →
      exec (.qpModify r d) s = .next (((s.useCtx f.ctx).setQp f.ctx (f.rtrQp q)).finish (railUnit r) d St.success Qst.rtr)) ∧
  (∀ (s : State) (r : Rail) (d : DescRef) (f : Fetched) (x : Ctx) (q : Qp),
      s.startedAt (railUnit r) d Op.qpModify = some f →
      s.railActive r = true →
      f.ctx < ctxCount →
      s.ctx f.ctx = some x →
      x.rail = r →
      x.body = .qp q →
      (q.sqd.any (fun e => e.1 == d) = false) →
      q.st = Qst.rtr →
      f.at 32 1 = Qst.rts →
      timeoutOk (f.at 48 1 % 32) = true →
      exec (.qpModify r d) s = .next ((((s.useCtx f.ctx).setQp f.ctx (f.rtsQp q)).finish (railUnit r) d St.success Qst.rts).pump f.ctx 4096)) ∧
  (∀ (s : State) (r : Rail) (d : DescRef) (f : Fetched) (x : Ctx) (q : Qp),
      s.startedAt (railUnit r) d Op.qpModify = some f →
      s.railActive r = true →
      f.ctx < ctxCount →
      s.ctx f.ctx = some x →
      x.rail = r →
      x.body = .qp q →
      (q.sqd.any (fun e => e.1 == d) = false) →
      q.st = Qst.rts →
      f.at 32 1 = Qst.sqd →
      exec (.qpModify r d) s = .next (((s.useCtx f.ctx).setQp f.ctx { q with st := Qst.sqd, sqd := q.sqd ++ [(d, q.sqPsn)] }).sqdDone f.ctx)) ∧
  (∀ (s : State) (r : Rail) (d : DescRef) (f : Fetched) (x : Ctx) (q : Qp),
      s.startedAt (railUnit r) d Op.qpModify = some f →
      s.railActive r = true →
      f.ctx < ctxCount →
      s.ctx f.ctx = some x →
      x.rail = r →
      x.body = .qp q →
      (q.sqd.any (fun e => e.1 == d) = false) →
      q.st = Qst.sqd →
      f.at 32 1 = Qst.rts ∨ f.at 32 1 = Qst.sqd →
      timeoutOk (f.at 48 1 % 32) = true →
      exec (.qpModify r d) s = .next ((((s.useCtx f.ctx).setQp f.ctx (f.sqdQp q (f.at 32 1))).finish (railUnit r) d St.success (f.at 32 1)).pump f.ctx 4096)) ∧
  (∀ (s : State) (r : Rail) (d : DescRef) (f : Fetched) (x : Ctx) (q : Qp),
      s.startedAt (railUnit r) d Op.qpModify = some f →
      s.railActive r = true →
      f.ctx < ctxCount →
      s.ctx f.ctx = some x →
      x.rail = r →
      x.body = .qp q →
      (q.sqd.any (fun e => e.1 == d) = false) →
      f.at 32 1 = Qst.reset →
      exec (.qpModify r d) s = .next ((s.ctxReset f.ctx).finish (railUnit r) d St.success Qst.reset)) ∧
  (∀ (s : State) (r : Rail) (d : DescRef) (f : Fetched) (x : Ctx) (q : Qp),
      s.startedAt (railUnit r) d Op.qpModify = some f →
      s.railActive r = true →
      f.ctx < ctxCount →
      s.ctx f.ctx = some x →
      x.rail = r →
      x.body = .qp q →
      (q.sqd.any (fun e => e.1 == d) = false) →
      f.at 32 1 = Qst.err →
      exec (.qpModify r d) s = .next ((s.qpErr f.ctx none true).finish (railUnit r) d St.success Qst.err)) ∧
  (∀ (s : State) (r : Rail) (d : DescRef) (f : Fetched) (x : Ctx),
      s.startedAt (railUnit r) d Op.qpQuery = some f →
      s.railActive r = true →
      f.len = 512 →
      s.ctx f.ctx = some x →
      x.rail = r →
      (s.draw.dmaWrite (railUnit r) f.dst (s.freeBytes 512) (some d.ring)).toOption.isSome = true →
      ∃ t : State, s.draw.dmaWrite (railUnit r) f.dst (s.freeBytes 512) (some d.ring) = .ok t ∧
        exec (.qpQuery r d) s = .next (t.finish (railUnit r) d St.success)) ∧
  (∀ (s : State) (d : DescRef) (f : Fetched) (m : Mr),
      s.startedAt (.railC) d Op.mrRegister = some f →
      f.at 28 4 / 256 < 2 ^ s.rd RDMA_MR_TABLE.LOG2_ENTRIES →
      m = { key := f.at 28 4, base := f.src, len := f.len, pd := f.at 32 4 % 2 ^ 20, localWrite := (f.at 36 1).testBit 0, remoteWrite := (f.at 36 1).testBit 1, remoteRead := (f.at 36 1).testBit 2, odp := (f.at 36 1).testBit 3, raddr := f.at 40 8 } →
      exec (.mrRegister d) s =
        .next ((s.setRails { s.rails with mrs := Tab.set s.rails.mrs (f.at 28 4 / 256) m }).finish .railC d St.success)) ∧
  (∀ (s : State) (d : DescRef) (f : Fetched),
      s.startedAt (.railC) d Op.mrInvalidate = some f →
      (s.rails.invs.any (fun v => v.desc == some d) = false) →
      (s.mr (f.at 28 4)).isSome = true →
      exec (.mrInvalidate d) s = .next (s.invalBegin (f.at 28 4) (some d) none)) ∧
  (∀ (s : State) (r : Rail) (d : DescRef) (f : Fetched) (x : Ctx) (q : Qp) (w : SendWr),
      s.startedAt (railUnit r) d Op.postSend = some f →
      s.railActive r = true →
      s.ctx f.ctx = some x →
      x.rail = r →
      x.body = .qp q →
      q.st = Qst.rts ∨ q.st = Qst.sqd →
      f.at 6 1 ≤ 5 →
      1 ≤ f.len →
      f.len ≤ 2 ^ 31 →
      (q.sq.any (fun w => w.owner == .desc d) = false) →
      (w = { owner := .desc d, verb := f.at 6 1, addr := f.src, len := f.len, lkey := f.at 32 4, raddr := f.at 40 8, rkey := f.at 36 4, imm := if f.at 6 1 = 2 then f.at 36 4 else f.at 48 4 }) →
      exec (.postSend r d) s = .next (((s.useCtx f.ctx).setQp f.ctx { q with sq := q.sq ++ [w] }).pump f.ctx 4096)) ∧
  (∀ (s : State) (r : Rail) (d : DescRef) (f : Fetched) (x : Ctx) (q : Qp),
      s.startedAt (railUnit r) d Op.postRecv = some f →
      s.railActive r = true →
      s.ctx f.ctx = some x →
      x.rail = r →
      x.body = .qp q →
      q.st ≠ Qst.reset →
      q.st ≠ Qst.err →
      (q.rq.any (fun w => w.d == d) = false) →
      (s.useCtx f.ctx).localCheck q (f.at 32 4) f.dst f.len true = none →
      exec (.postRecv r d) s = .next ((s.useCtx f.ctx).setQp f.ctx { q with rq := q.rq ++ [⟨d, f.dst, f.len, f.at 32 4⟩] })) ∧
  (∀ (s : State) (r : Rail) (d : DescRef) (f : Fetched) (bs : List Byte),
      s.startedAt (railUnit r) d Op.pktTx = some f →
      s.railActive r = true →
      f.at 6 1 ≤ 7 →
      s.lportActive (railLport r (f.at 6 1)) = true →
      0 < f.len →
      f.len ≤ s.rd (RAIL_PORT_CFG.MTU (railLport r (f.at 6 1) / 8) (railLport r (f.at 6 1) / 4 % 2)) →
      (s.dmaRead (railUnit r) f.src f.len (some d.ring)).toOption = some bs →
      exec (.pktTx r d) s = .next ((s.emit (.frame (railLport r (f.at 6 1)) (s.slowTag (railLport r (f.at 6 1)) bs) bs)).finish (railUnit r) d St.success)) ∧
  (∀ (s : State) (r : Rail) (d : DescRef) (f : Fetched),
      s.startedAt (railUnit r) d Op.pktRxBuf = some f →
      s.railActive r = true →
      f.phase ≠ .waiting →
      9216 ≤ f.len →
      exec (.pktRxBuf r d) s = .next ((s.setPhase (railUnit r) d .waiting).slowDrain r)) ∧
  (∀ (s : State) (r : Rail) (d : DescRef) (f : Fetched),
      s.startedAt (railUnit r) d Op.tcpInstall = some f →
      s.railActive r = true →
      f.ctx < ctxCount →
      s.ctx f.ctx = none →
      f.imgs.length = 2 →
      f.at 57 1 ≤ 7 →
      s.lportActive (railLport r (f.at 57 1)) = true →
      ((f.at 49 1).testBit 3 = true → s.pinRoom r f.ctx = true) →
      exec (.tcpInstall r d) s =
        .next (((s.setCtx f.ctx { rail := r, lport := railLport r (f.at 57 1), parlour := true, pin := (f.at 49 1).testBit 3, resident := false, rate := s.lineRate (railLport r (f.at 57 1)), target := s.lineRate (railLport r (f.at 57 1)), body := .tcp { f.tcp with tsAt := s.now } }).cacheCtx f.ctx).finish (railUnit r) d St.success)) ∧
  (∀ (s : State) (r : Rail) (d : DescRef) (f : Fetched) (x : Ctx) (y : Tcp),
      s.startedAt (railUnit r) d Op.tcpRelease = some f →
      s.railActive r = true →
      s.ctx f.ctx = some x →
      x.rail = r →
      x.body = .tcp y →
      exec (.tcpRelease r d) s =
        .next ((s.tcpHandback f.ctx St.success).finish (railUnit r) d St.success 0 (y.sndNxt + y.rcvNxt * 2 ^ 32))) ∧
  (∀ (s : State) (r : Rail) (d : DescRef) (f : Fetched),
      s.startedAt (railUnit r) d Op.odpWait = some f →
      s.railActive r = true →
      f.phase ≠ .waiting →
      exec (.odpWait r d) s = .next ((s.setPhase (railUnit r) d .waiting).odpDeliver r 257))

/-- A capsule takes a context, passes its tenant's gate and is dispatched; an old command is promoted. While the Parlour's EN is 1: CAPSULE_ARRIVAL takes the next capsule in, gives it a context where one is free for this head, and lets it wait with EV_CTX_EXHAUSTED where none is; BUDGET_GATE_PASS of the first command of its tenant takes its tokens and makes it eligible; DISPATCH takes the next command by class and tenant out of the ready list. BUDGET_REFILL gives every tenant with a valid entry one tick's tokens within its bursts. AGE_LIMIT_EXPIRY puts an eligible command at the tail of Urgent once, counts it and records it. Completion stated for: capsuleArrival, budgetRefill, budgetGatePass, dispatch, ageLimitExpiry. -/
def Obligations.CapsulesAndDispatch : Prop :=
  (∀ (s : State) (w : Nat × List Byte × Bool × Nat),
      s.nextCapsule = some w →
      s.on PAR_CTL.EN = true →
      exec .capsuleArrival s = .next ((s.setRails { s.rails with inbox := s.rails.inbox.erase w }).takeIn w.1 w.2.1 w.2.2.1 w.2.2.2)) ∧
  (∀ (s : State) (w : Nat × List Byte × Bool × Nat) (k : Nat),
      s.nextCapsule = some w →
      s.on PAR_CTL.EN = true →
      s.queueOf w.1 = none →
      s.par.waitCap = [] →
      s.localRoom = true →
      s.freeContext = some k →
      ∃ t : State, exec .capsuleArrival s = .next t ∧ t.par.waitCap = [] ∧ t.rails.inbox = s.rails.inbox.erase w ∧
        (t.cmd k).map NvmeCmd.sqe = some (w.2.1.take 64) ∧ (t.cmd k).map NvmeCmd.ctx = some (some w.1) ∧ (t.cmd k).map NvmeCmd.badData = some w.2.2.1 ∧
        (t.cmd k).map NvmeCmd.since = some w.2.2.2 ∧ t.mem = s.mem) ∧
  (∀ (s : State) (w : Nat × List Byte × Bool × Nat),
      s.nextCapsule = some w →
      s.on PAR_CTL.EN = true →
      fieldAt w.2.1 0 1 ≠ Nop.fabrics →
      s.par.cuts = [] →
      s.localRoom = false →
      ∃ t : State, exec .capsuleArrival s = .next t ∧ t.par.waitCap = s.par.waitCap ++ [w] ∧ t.par.cmds = s.par.cmds ∧
        t.rails.inbox = s.rails.inbox.erase w ∧ t.mem = s.mem) ∧
  (∀ (s : State),
      ∃ t : State, exec .budgetRefill s = .next t ∧
        (∀ n, n < 16384 → fieldAt (s.tenantEntry n) 0 1 ≠ 0 →
          Tab.getD t.par.budgets n {} = (Tab.getD s.par.budgets n {}).refill (s.tenantEntry n)) ∧
        (∀ n, n < 16384 → fieldAt (s.tenantEntry n) 0 1 = 0 → Tab.getD t.par.budgets n {} = Tab.getD s.par.budgets n {}) ∧
        t.csr = s.csr ∧ t.mem = s.mem ∧ t.par.cmds = s.par.cmds) ∧
  (∀ (s : State) (k cls : Nat) (c : NvmeCmd) (b : Budget),
      s.cmd k = some c →
      c.stage = .gate →
      ((s.par.gate.find? fun j => ((s.cmd j).map (·.tenant)) == some c.tenant) = some k) →
      s.on PAR_CTL.EN = true →
      c.tenant ≠ noTenant →
      (Tab.getD s.par.budgets c.tenant {}).pass (s.tenantEntry c.tenant) (c.tokens (s.cmdVol c)) c.cls = some (cls, b) →
      ∃ t : State, exec (.budgetGatePass k) s = .next t ∧ t.cmd k = some { c with cls := cls, stage := .eligible, eligibleAt := s.now } ∧
        Tab.getD t.par.budgets c.tenant {} = b ∧ t.par.ready = s.par.ready ++ [k] ∧ t.par.gate = s.par.gate.filter (· != k) ∧
        t.csr = s.csr ∧ t.mem = s.mem) ∧
  (∀ (s : State) (k : Nat) (c : NvmeCmd),
      s.cmd k = some c →
      c.stage = .gate →
      ((s.par.gate.find? fun j => ((s.cmd j).map (·.tenant)) == some c.tenant) = some k) →
      s.on PAR_CTL.EN = true →
      c.tenant = noTenant →
      exec (.budgetGatePass k) s = .next (s.eligible k c)) ∧
  (∀ (s : State) (k : Nat) (c : NvmeCmd) (t : State),
      s.on PAR_CTL.EN = true →
      s.nextDispatch = some (k, t) →
      t.cmd k = some c →
      c.admin = true ∨ ioOpcode c.op = true →
      exec .dispatch s = .next (if c.admin then t.dispatch k c else (t.dispatch k c).noteTable .par ((t.dispatch k c).volAddr c.vol) 64)) ∧
  (∀ (s : State) (k : Nat) (c : NvmeCmd) (u : State),
      s.cmd k = some c →
      c.stage = .eligible →
      c.promoted = false →
      s.passed (c.eligibleAt + s.ageLimit c.cls * mgmtTick) = true →
      c.cls ≠ 0 →
      (u = ((s.setCmd k { c with promoted := true }).setPar { (s.setCmd k { c with promoted := true }).par with ready := s.par.ready.filter (· != k) ++ [k] }).bump (if c.cls = 1 then PAR_PROMO_COUNT.HIGH else if c.cls = 2 then PAR_PROMO_COUNT.MED else PAR_PROMO_COUNT.LOW) 1) →
      exec (.ageLimitExpiry k) s = .next ((if c.tenant < noTenant then u.meterEvent c.tenant (c.firstShard (u.cmdVol c)) 7 1 else u).raise
        Ev.agePromote (some .par) none [k, c.cls, c.tenant])) ∧
  (∀ (s : State) (k : Nat) (c : NvmeCmd),
      s.cmd k = some c →
      c.stage = .eligible →
      c.promoted = false →
      s.passed (c.eligibleAt + s.ageLimit c.cls * mgmtTick) = true →
      c.cls = 1 →
      ∃ t : State, exec (.ageLimitExpiry k) s = .next t ∧ t.cmd k = some { c with promoted := true } ∧
        t.par.ready = s.par.ready.filter (· != k) ++ [k] ∧
        t.rd PAR_PROMO_COUNT.HIGH = satAdd (s.rd PAR_PROMO_COUNT.HIGH) 1 PAR_PROMO_COUNT.HIGH.w ∧ t.mem = s.mem)

/-- A dispatched command that passes its checks begins: reads and Verifies with their pails, writes with their payload, the others at once. For a command whose turn it is (no earlier overlapping one bars it), that no check refuses and none of whose shards is INACCESSIBLE or moving: NVME_READ and NVME_VERIFY ask for a pail for each block, wait until all are granted, then start the blocks of this head and forward the peer's; NVME_WRITE does the same and asks for its payload; NVME_WRITE_ZEROES starts its blocks; NVME_FLUSH completes with status 0; NVME_DATASET_MANAGEMENT asks for its ranges and, once they are there, paid and inside the volume, starts its blocks, or completes with status 0 without the attribute AD; SECURE_DEALLOCATE forwards the peer's parts, journals an intent for each part of this head, and given again erases each part whose intent is confirmed. PAYLOAD_COMPLETE checks the protection information of a whole payload, enters the blocks in the write index and forwards the peer's parts; a failed check completes the command with its status. Completion stated for: nvmeRead, nvmeVerify, nvmeWrite, nvmeFlush, nvmeWriteZeroes, nvmeDatasetManagement, secureDeallocate, payloadComplete. -/
def Obligations.NvmeCommandsBegin : Prop :=
  (∀ (s : State) (k : Nat) (ms : List Medium) (c : NvmeCmd),
      s.cmd k = some c →
      c.stage = .running →
      c.begun = false →
      c.admin = false →
      c.op = Nop.read →
      s.behindOther k c = false →
      s.cmdRefused c = 0 →
      ((s.openShards c).map (s.partDo c)).contains .refuse = false →
      ((s.openShards c).map (s.partDo c)).contains .hold = false →
      exec (.nvmeRead k ms) s = .next (s.scripted ms fun s' => if (s'.pailsReady k (s'.makeBlks c).length).1 then
          (s'.pailsReady k (s'.makeBlks c).length).2.beginPlain k { c with blks := s'.makeBlks c, asked := true }
        else (s'.pailsReady k (s'.makeBlks c).length).2)) ∧
  (∀ (s : State) (k : Nat) (ms : List Medium) (c : NvmeCmd),
      s.cmd k = some c →
      c.stage = .running →
      c.begun = false →
      c.admin = false →
      c.op = Nop.verify →
      s.behindOther k c = false →
      s.cmdRefused c = 0 →
      ((s.openShards c).map (s.partDo c)).contains .refuse = false →
      ((s.openShards c).map (s.partDo c)).contains .hold = false →
      exec (.nvmeVerify k ms) s = .next (s.scripted ms fun s' => if (s'.pailsReady k (s'.makeBlks c).length).1 then
          (s'.pailsReady k (s'.makeBlks c).length).2.beginPlain k { c with blks := s'.makeBlks c, asked := true }
        else (s'.pailsReady k (s'.makeBlks c).length).2)) ∧
  (∀ (s : State) (k : Nat) (c : NvmeCmd) (t : State),
      s.cmd k = some c →
      c.stage = .running →
      c.begun = false →
      c.admin = false →
      c.op = Nop.write →
      s.behindOther k c = false →
      s.cmdRefused c = 0 →
      ((s.openShards c).map (s.partDo c)).contains .refuse = false →
      ((s.openShards c).map (s.partDo c)).contains .hold = false →
      s.pailsReady k (s.makeBlks c).length = (true, t) →
      exec (.nvmeWrite k) s = .next (t.pull k { c with blks := s.makeBlks c, asked := true, begun := true, fwds := c.fwds ++ (t.peerShards { c with blks := s.makeBlks c }).map fun sh => ⟨sh, 0, 4⟩ }
        (if c.origin.isSome then c.buf.length else c.hostLen (t.cmdVol { c with blks := s.makeBlks c })))) ∧
  (∀ (s : State) (k : Nat) (c : NvmeCmd) (t : State),
      s.cmd k = some c →
      c.stage = .running →
      c.begun = false →
      c.admin = false →
      c.op = Nop.write →
      s.behindOther k c = false →
      s.cmdRefused c = 0 →
      ((s.openShards c).map (s.partDo c)).contains .refuse = false →
      ((s.openShards c).map (s.partDo c)).contains .hold = false →
      s.pailsReady k (s.makeBlks c).length = (false, t) →
      exec (.nvmeWrite k) s = .next t) ∧
  (∀ (s : State) (k : Nat) (c : NvmeCmd),
      s.cmd k = some c →
      c.stage = .running →
      c.begun = false →
      c.admin = false →
      c.op = Nop.flush →
      s.behindOther k c = false →
      exec (.nvmeFlush k) s = .next ((s.setCmd k { c with begun := true }).complete k Nv.ok)) ∧
  (∀ (s : State) (k : Nat) (ms : List Medium) (c : NvmeCmd),
      s.cmd k = some c →
      c.stage = .running →
      c.begun = false →
      c.admin = false →
      c.op = Nop.writeZeroes →
      s.behindOther k c = false →
      s.cmdRefused c = 0 →
      ((s.openShards c).map (s.partDo c)).contains .refuse = false →
      ((s.openShards c).map (s.partDo c)).contains .hold = false →
      exec (.nvmeWriteZeroes k ms) s = .next (s.scripted ms fun s' => s'.beginPlain k { c with blks := s'.makeBlks c })) ∧
  (∀ (s : State) (k : Nat) (c : NvmeCmd),
      s.cmd k = some c →
      c.stage = .running →
      c.begun = false →
      c.admin = false →
      c.op = Nop.dsm →
      c.need = 0 →
      c.unranged = true →
      s.cmdRefused c = 0 →
      exec (.nvmeDatasetManagement k) s = .next (s.pull k c ((c.cdw 10 % 256 + 1) * 16))) ∧
  (∀ (s : State) (k : Nat) (c x : NvmeCmd) (t : State),
      s.cmd k = some c →
      c.stage = .running →
      c.begun = false →
      c.admin = false →
      c.op = Nop.dsm →
      c.need ≠ 0 →
      c.unranged = false →
      s.behindOther k c = false →
      s.chargeRanges k c = some (x, t) →
      x.badData = false →
      (x.cdw 11).testBit 2 = true →
      ((x.ranges.any fun r => !inVolume (t.cmdVol x) r) = false) →
      ((t.openShards x).map (t.partDo x)).contains .refuse = false →
      ((t.openShards x).map (t.partDo x)).contains .hold = false →
      exec (.nvmeDatasetManagement k) s = .next (t.beginPlain k { x with blks := t.makeBlks x })) ∧
  (∀ (s : State) (k : Nat) (c x : NvmeCmd) (t : State),
      s.cmd k = some c →
      c.stage = .running →
      c.begun = false →
      c.admin = false →
      c.op = Nop.dsm →
      c.need ≠ 0 →
      c.unranged = false →
      s.behindOther k c = false →
      s.chargeRanges k c = some (x, t) →
      x.badData = false →
      (x.cdw 11).testBit 2 = false →
      exec (.nvmeDatasetManagement k) s = .next ((t.setCmd k { x with begun := true }).complete k Nv.ok)) ∧
  (∀ (s : State) (k : Nat) (ms : List Medium) (c : NvmeCmd) (ps : List Nat) (t : State),
      s.cmd k = some c →
      c.stage = .running →
      c.begun = false →
      c.admin = false →
      c.op = Nop.secure →
      s.intentOpen k c = false →
      s.behindOther k c = false →
      s.cmdRefused c = 0 →
      ((s.openShards c).map (s.partDo c)).contains .refuse = false →
      ((s.openShards c).map (s.partDo c)).contains .hold = false →
      ps = s.peerShards { c with blks := s.makeBlks c } →
      (t = ps.foldl (fun (u : State) sh => u.forwardPart k sh) (s.setCmd k { c with blks := s.makeBlks c, begun := true, fwds := c.fwds ++ ps.map fun sh => ⟨sh, 0, 2⟩ })) →
      exec (.secureDeallocate k ms) s = .next (((List.range (s.makeBlks c).length).foldl (fun (u : State) i => u.sdIntent k i) t).finishIfDone k)) ∧
  (∀ (s : State) (k : Nat) (ms : List Medium) (c : NvmeCmd),
      s.cmd k = some c →
      c.stage = .running →
      c.begun = true →
      c.admin = false →
      c.op = Nop.secure →
      exec (.secureDeallocate k ms) s = .next (s.scripted ms fun s' => (List.range c.blks.length).foldl (fun (u : State) i => u.sdRun k i) s')) ∧
  (∀ (s : State) (k : Nat) (ms : List Medium) (c : NvmeCmd),
      s.cmd k = some c →
      c.op = Nop.write →
      c.begun = true →
      c.need ≤ c.buf.length →
      ((s.leaseU.reexec.any fun l => l.2.contains k) = false) →
      ((c.fwds.any fun p => p.st == 4) = true ∨ (c.blks.any fun b => b.step == .wait) = true) →
      ((if c.badData then Nv.transient else firstBad (c.blks.map fun b => if b.step = .wait then c.writeCheck (s.cmdVol c) b.block else 0)) = 0) →
      exec (.payloadComplete k ms) s = .next (s.scripted ms fun s' => if (s'.enterBlocks k).1 then
          ((c.fwds.filter (·.st == 4)).foldl (fun (u : State) p => u.forwardPart k p.shard) (s'.enterBlocks k).2).finishIfDone k
        else (s'.enterBlocks k).2)) ∧
  (∀ (s : State) (k st : Nat) (ms : List Medium) (c : NvmeCmd),
      s.cmd k = some c →
      c.op = Nop.write →
      c.begun = true →
      c.need ≤ c.buf.length →
      ((s.leaseU.reexec.any fun l => l.2.contains k) = false) →
      ((c.fwds.any fun p => p.st == 4) = true ∨ (c.blks.any fun b => b.step == .wait) = true) →
      (st = (if c.badData then Nv.transient else firstBad (c.blks.map fun b => if b.step = .wait then c.writeCheck (s.cmdVol c) b.block else 0))) →
      st ≠ 0 →
      exec (.payloadComplete k ms) s = .next (s.complete k st))

/-- Abort, Keep Alive and Asynchronous Event Request, the hold limit, keep-alive expiry, lost associations, the end of a cut and re-execution. NVME_ABORT completes with dword 0 = 1 and aborts nothing; NVME_KEEP_ALIVE restarts its controller's timer and completes; NVME_ASYNC_EVENT_REQUEST is held, answered at once where a notice waits, and a fifth completes with 105h; HOLD_LIMIT_EXPIRY of a held command that is not re-executed records EV_HOLD_EXPIRED and ends it with Asymmetric Access Transition (its parts with the peer settle first); KEEP_ALIVE_EXPIRY and ASSOCIATION_LOSS cut every queue of the controller; QUEUE_DELETION_DONE of a cut that waits for nothing and whose queues hold no context unbinds them, a reset controller no longer ready, and completes its descriptor with the counts; REEXECUTION_DISPATCH of a shard that is OWNED or PEER runs its list again. Completion stated for: nvmeAbort, nvmeKeepAlive, nvmeAsyncEventRequest, holdLimitExpiry, keepAliveExpiry, associationLoss, queueDeletionDone, reexecutionDispatch. -/
def Obligations.AdminCommandsTimersAndCuts : Prop :=
  (∀ (s : State) (k : Nat) (c : NvmeCmd),
      s.cmd k = some c →
      c.stage = .running →
      c.admin = true →
      c.op = Nadm.abort →
      exec (.nvmeAbort k) s = .next ((s.setCmd k { c with begun := true }).complete k Nv.ok 1)) ∧
  (∀ (s : State) (k : Nat) (c : NvmeCmd),
      s.cmd k = some c →
      c.admin = true →
      c.op = Nadm.keepAlive →
      exec (.nvmeKeepAlive k) s = .next ((s.keepAlive c.cntlid).complete k Nv.ok)) ∧
  (∀ (s : State) (k : Nat) (c : NvmeCmd) (x : Ctrl),
      s.cmd k = some c →
      c.admin = true →
      c.op = Nadm.aer →
      s.ctrl c.cntlid = some x →
      x.aers.contains c.cid = false →
      x.aers.length < 4 →
      s.aenWaiting c.cntlid = none →
      exec (.nvmeAsyncEventRequest k) s = .next ((s.setCtrl c.cntlid { x with aers := x.aers ++ [c.cid] }).anaDeliver 1)) ∧
  (∀ (s : State) (k : Nat) (c : NvmeCmd) (x : Ctrl) (d : DescRef) (f : Fetched),
      s.cmd k = some c →
      c.admin = true →
      c.op = Nadm.aer →
      s.ctrl c.cntlid = some x →
      x.aers.contains c.cid = false →
      x.aers.length < 4 →
      s.aenWaiting c.cntlid = some (d, f) →
      exec (.nvmeAsyncEventRequest k) s = .next ((s.complete k Nv.ok (f.at 36 4)).finish .par d St.success)) ∧
  (∀ (s : State) (k : Nat) (c : NvmeCmd) (x : Ctrl),
      s.cmd k = some c →
      c.admin = true →
      c.op = Nadm.aer →
      s.ctrl c.cntlid = some x →
      x.aers.contains c.cid = false →
      4 ≤ x.aers.length →
      exec (.nvmeAsyncEventRequest k) s = .next (s.complete k Nv.aerLimit)) ∧
  (∀ (s : State) (k : Nat) (c : NvmeCmd),
      s.cmd k = some c →
      c.stage = .held →
      c.reexec = false →
      s.passed (c.heldAt + s.rd PAR_HANDOFF_CFG.HOLD_LIMIT * mgmtTick) = true →
      exec (.holdLimitExpiry k) s = .next ((s.raise Ev.holdExpired (some .par) none [k]).pathRefused k c Nv.transition)) ∧
  (∀ (s : State) (k : Nat) (c : NvmeCmd),
      s.cmd k = some c →
      c.stage = .held →
      c.reexec = false →
      s.passed (c.heldAt + s.rd PAR_HANDOFF_CFG.HOLD_LIMIT * mgmtTick) = true →
      c.fwds = [] →
      exec (.holdLimitExpiry k) s = .next ((s.raise Ev.holdExpired (some .par) none [k]).complete k Nv.transition)) ∧
  (∀ (s : State) (cntlid : Nat) (c : Ctrl),
      s.ctrl cntlid = some c →
      s.due c.kaBy = true →
      exec (.keepAliveExpiry cntlid) s = .next ((s.setCtrl cntlid { c with kaBy := none }).assocLoss cntlid assocCause.keepAlive)) ∧
  (∀ (s : State) (x : Nat) (rest : List Nat) (q : Queue),
      s.par.lost = x :: rest →
      s.queueOf x = some q →
      exec .associationLoss s = .next ((s.setPar { s.par with lost := rest }).assocLoss q.cntlid assocCause.transport)) ∧
  (∀ (s : State) (cntlid cause : Nat) (c : Ctrl),
      s.ctrl cntlid = some c →
      c.lost = false →
      s.assocLoss cntlid cause = (s.cutQueues none cntlid none true).assocEvent cntlid cause) ∧
  (∀ (s : State) (i n : Nat) (x : Cut) (t : State),
      s.par.cuts[i]? = some x →
      x.waits = [] →
      x.cancels = [] →
      ((s.par.cmds.any fun e => x.takes e.2.cntlid e.2.qid && e.2.origin.isNone && x.settles x.silent e.2.op) = false) →
      x.qid = some n →
      (t = s.setPar { s.par with cuts := s.par.cuts.eraseIdx i, queues := s.par.queues.filter fun q => !(q.cntlid == x.cntlid && q.qid == n) }) →
      exec (.queueDeletionDone i) s = .next (match x.d with
        | some d => t.finish .par d St.success 0 (x.aborted + x.suppressed * 2 ^ 32)
        | none => t)) ∧
  (∀ (s : State) (i : Nat) (x : Cut) (c : Ctrl) (t : State),
      s.par.cuts[i]? = some x →
      x.waits = [] →
      x.cancels = [] →
      ((s.par.cmds.any fun e => x.takes e.2.cntlid e.2.qid && e.2.origin.isNone && x.settles x.silent e.2.op) = false) →
      x.qid = none →
      s.ctrl x.cntlid = some c →
      (t = (s.setPar { s.par with cuts := s.par.cuts.eraseIdx i, queues := s.par.queues.filter fun q => !(q.cntlid == x.cntlid && (q.qid != 0 || c.lost)) }).setCtrl x.cntlid { c with aers := [], kaBy := none, rdy := false }) →
      exec (.queueDeletionDone i) s = .next (match x.d with
        | some d => t.finish .par d St.success 0 (x.aborted + x.suppressed * 2 ^ 32)
        | none => t)) ∧
  (∀ (s : State) (shard : Fin 256) (ms : List Medium),
      s.rd (PAR_SHARD.STATE shard) = Pst.owned ∨ s.rd (PAR_SHARD.STATE shard) = Pst.peer →
      exec (.reexecutionDispatch shard ms) s = .next ((s.setLease { s.leaseU with reexec := Tab.del s.leaseU.reexec shard.val }).scripted ms
        fun s' => (Tab.getD s.leaseU.reexec shard.val []).foldl (fun (u : State) k => u.rerun shard.val k
          (s.rd (PAR_SHARD.STATE shard) == Pst.peer)) s'))

/-- What the Parlour's descriptors do when they succeed. VOL_SET of an entry in range that no command and no format rule holds back writes it with the next GENERATION and completes; TENANT_SET writes the tenant's entry; QUEUE_BIND binds a Parlour context to a queue of a controller, an admin queue making its controller; QUEUE_DELETE and CTRL_RESET cut, and wait for the cut; ADMIN_FETCH writes the oldest capsule's bytes to its buffer and completes, and waits where none is there; ADMIN_COMPLETE posts software's answer with its data and frees the context; AEN_POST completes the oldest held Asynchronous Event Request, and waits where none is held; ANA_READ writes the log page; PAR_PEAK_CLEAR copies IN_USE to PEAK. Completion stated for: volSet, tenantSet, queueBind, queueDelete, ctrlReset, adminFetch, adminComplete, aenPost, anaRead, parPeakClear. -/
def Obligations.ParlourDescriptors : Prop :=
  (∀ (s : State) (d : DescRef) (f : Fetched) (new : List Byte) (t : State),
      s.startedAt .par d Op.volSet = some f →
      f.len = 64 →
      (s.dmaRead .par f.src 64 (some d.ring)).toOption = some new →
      f.at 28 4 < 2 ^ 18 →
      volEntryOk new = true →
      (volValid new = false → (s.par.cmds.any fun c => c.2.vol == f.at 28 4) = false) →
      (volValid new = true → Tab.getD s.par.forms (f.at 28 4) 0 = 0 ∨ formatChange (Tab.getD s.par.shape (f.at 28 4) new) new = false) →
      (s.dmaWrite .par (s.volAddr (f.at 28 4)) (splice new 32 (leBytes 4 ((fieldAt (s.volEntry (f.at 28 4)) 32 4 + 1) % 2 ^ 32)))).toOption = some t →
      exec (.volSet d) s = .next ((if volValid new then t.setPar { t.par with shape := Tab.set t.par.shape (f.at 28 4) new } else t).finish
        .par d St.success)) ∧
  (∀ (s : State) (d : DescRef) (f : Fetched) (new : List Byte) (t : State),
      s.startedAt .par d Op.tenantSet = some f →
      f.len = 64 →
      (s.dmaRead .par f.src 64 (some d.ring)).toOption = some new →
      tenantEntryOk new = true →
      (s.dmaWrite .par (s.rd PAR_TENANT_TABLE.BASE * 4096 + f.tenant * 64) new).toOption = some t →
      exec (.tenantSet d) s = .next (t.finish .par d St.success)) ∧
  (∀ (s : State) (d : DescRef) (f : Fetched) (x : Ctx) (u : State),
      s.startedAt .par d Op.queueBind = some f →
      s.ctx (f.at 28 4) = some x →
      x.parlour = true →
      f.at 32 2 ≠ 0 →
      f.at 32 2 ≤ 0xFFEF →
      f.at 34 2 = 0 ∨ (s.ctrl (f.at 32 2)).isSome = true →
      f.at 36 2 ≤ 1023 →
      f.at 38 1 ≤ 3 →
      ((s.par.queues.any fun q => (q.cntlid == f.at 32 2 && q.qid == f.at 34 2) || q.ctx == f.at 28 4) = false) →
      (u = if f.at 34 2 = 0 then s.setCtrl (f.at 32 2) { } else s) →
      exec (.queueBind d) s = .next ((u.setPar { u.par with queues := u.par.queues ++ [{ ctx := f.at 28 4, cntlid := f.at 32 2, qid := f.at 34 2, size := f.at 36 2, cls := f.at 38 1 }], cmds := Tab.mapV u.par.cmds fun _ (c : NvmeCmd) => if c.ctx = some (f.at 28 4) ∧ c.cntlid = unboundCntlid then { c with cntlid := f.at 32 2, qid := f.at 34 2, cls := f.at 38 1 } else c }).finish .par d St.success)) ∧
  (∀ (s : State) (d : DescRef) (f : Fetched),
      s.startedAt .par d Op.queueDelete = some f →
      (s.ctrl (f.at 32 2)).isSome = true →
      ((s.par.cuts.any fun x => x.d == some d) = false) →
      f.at 34 2 ≠ 0 →
      ((s.par.queues.any fun q => q.cntlid == f.at 32 2 && q.qid == f.at 34 2) = true) →
      exec (.queueDelete d) s = .next (((s.setPhase .par d .waiting).cutQueues (some d) (f.at 32 2) (some (f.at 34 2)) false).raise Ev.queueCut
        (some .par) none [f.at 32 2, f.at 34 2])) ∧
  (∀ (s : State) (d : DescRef) (f : Fetched) (c : Ctrl) (t : State),
      s.startedAt .par d Op.ctrlReset = some f →
      (s.ctrl (f.at 32 2)).isSome = true →
      ((s.par.cuts.any fun x => x.d == some d) = false) →
      t = (s.setPhase .par d .waiting).cutQueues (some d) (f.at 32 2) none true →
      (f.at 36 1).testBit 0 = false →
      t.ctrl (f.at 32 2) = some c →
      exec (.ctrlReset d) s = .next ((t.setCtrl (f.at 32 2) { c with en := false }).raise Ev.queueCut (some .par) none [f.at 32 2])) ∧
  (∀ (s : State) (d : DescRef) (f : Fetched) (t : State),
      s.startedAt .par d Op.ctrlReset = some f →
      (s.ctrl (f.at 32 2)).isSome = true →
      ((s.par.cuts.any fun x => x.d == some d) = false) →
      t = (s.setPhase .par d .waiting).cutQueues (some d) (f.at 32 2) none true →
      (f.at 36 1).testBit 0 = true →
      exec (.ctrlReset d) s = .next (if ((t.ctrl (f.at 32 2)).map (·.lost)).getD false then t else t.assocEvent (f.at 32 2) assocCause.software)) ∧
  (∀ (s : State) (d : DescRef) (f : Fetched) (k : Nat) (rest : List Nat) (c : NvmeCmd) (t : State),
      s.startedAt .par d Op.adminFetch = some f →
      4160 ≤ f.len →
      s.par.admin = k :: rest →
      s.cmd k = some c →
      (s.dmaWrite .par f.dst (c.sqe ++ c.incap) (some d.ring)).toOption = some t →
      exec (.adminFetch d) s = .next (((t.setCmd k { c with begun := true }).setPar { t.par with admin := rest, cmds := Tab.set t.par.cmds k { c with begun := true } }).finish
          .par d St.success (c.cntlid + ((c.sqe ++ c.incap).length + 15) / 16 * 2 ^ 16) (c.ctx.getD 0 % 65536))) ∧
  (∀ (s : State) (d : DescRef) (f : Fetched),
      s.startedAt .par d Op.adminFetch = some f →
      4160 ≤ f.len →
      s.par.admin = [] →
      exec (.adminFetch d) s = .next (s.setPhase .par d .waiting)) ∧
  (∀ (s : State) (d : DescRef) (f : Fetched) (k x : Nat) (c : NvmeCmd) (data : List Byte) (u : State),
      s.startedAt .par d Op.adminComplete = some f →
      ((s.par.cmds.find? fun x => x.2.cntlid == f.at 32 2 && x.2.cid == f.at 34 2 && x.2.software && x.2.begun && !x.2.cut) = some (k, c)) →
      s.answerWaits c = false →
      (s.dmaRead .par f.src f.len (some d.ring)).toOption = some data →
      c.ctx = some x →
      (u = if fieldAt (slice f.img 36 16) 14 2 / 2 = 0 then s.adminSeen c else s) →
      exec (.adminComplete d) s = .next ((((if data.isEmpty then u else u.sendData c data).sendCapsule x (slice f.img 36 16)).freeContextOf k).finish
        .par d St.success)) ∧
  (∀ (s : State) (d : DescRef) (f : Fetched) (k a : Nat) (rest : List Nat) (x : Ctrl) (c : NvmeCmd),
      s.startedAt .par d Op.aenPost = some f →
      s.ctrl (f.at 32 2) = some x →
      x.aers = a :: rest →
      ((s.par.cmds.find? fun e => e.2.cntlid == f.at 32 2 && e.2.admin && e.2.op == Nadm.aer && e.2.cid == a) = some (k, c)) →
      exec (.aenPost d) s = .next (((s.setCtrl (f.at 32 2) { x with aers := rest }).complete k Nv.ok (f.at 36 4)).finish .par d St.success)) ∧
  (∀ (s : State) (d : DescRef) (f : Fetched) (x : Ctrl),
      s.startedAt .par d Op.aenPost = some f →
      s.ctrl (f.at 32 2) = some x →
      x.aers = [] →
      exec (.aenPost d) s = .next (s.setPhase .par d .waiting)) ∧
  (∀ (s : State) (d : DescRef) (f : Fetched),
      s.startedAt .par d Op.anaRead = some f →
      (s.ctrl (f.at 32 2)).isSome = true →
      (s.dmaWrite .par f.dst (((s.anaPage ((f.at 36 1).testBit 0)).take f.len)) (some d.ring)).toOption.isSome = true →
      ∃ t : State, s.dmaWrite .par f.dst ((s.anaPage ((f.at 36 1).testBit 0)).take f.len) (some d.ring) = .ok t ∧
        exec (.anaRead d) s = .next (t.finish .par d St.success 0 ((s.anaPage ((f.at 36 1).testBit 0)).take f.len).length)) ∧
  (∀ (s : State) (origin : Origin),
      s.originThere origin.toNat = true →
      s.audited false origin.toNat = false →
      exec (.parPeakClear origin) s = .next (s.wr PAR_CTX_STATUS.PEAK (s.rd PAR_CTX_STATUS.IN_USE)))

/-- What the Separator's descriptors do when they succeed. DOMAIN_SET writes its domain's entry; LOOKUP completes with the answer of the filter or the buckets: INFO 0 and a UNIQUE answer counted without a match (ENTRY_NOT_FOUND where a hold was asked for, the model's reading, log entry 131), INFO 2 for an entry that takes no insert, INFO 1 with the handle and the LOCATOR stored in its slot for a duplicate. INSERT puts a VALID entry with its count into the first free slot of its buckets and answers the handle; REF_ADJUST with RELEASE_HOLD gives a hold back and answers the counts, one with a DELTA of 0 thaws or freezes, any other changes the count; RELOCATE gives a VALID entry without holds a new LOCATOR. MERGE_SCAN writes its pairs. SHARD_STATE enters a state, LOADED with EV_SHARD_LOADED, and starts the drop of a partition with nothing held; SHARD_DROP_DONE frees the entries, makes the partition ABSENT with 0 entries and completes the descriptor. Completion stated for: domainSet, lookup, insert, refAdjust, relocate, mergeScan, shardState, shardDropDone. -/
def Obligations.SeparatorDescriptors : Prop :=
  (∀ (s : State) (d : DescRef) (f : Fetched) (new : List Byte) (t : State),
      s.startedAt .sep d Op.domainSet = some f →
      f.len = 16 →
      (s.dmaRead .sep f.src 16 (some d.ring)).toOption = some new →
      f.at 28 2 < 4096 →
      domClean new = true →
      domTenant new = domTenant (s.domEntry (f.at 28 2)) ∨ s.domainUsed (f.at 28 2) = false →
      domValid new = true ∨ domValid (s.domEntry (f.at 28 2)) = false ∨ s.domainUsed (f.at 28 2) = false →
      (s.dmaWrite .sep (s.rd SEP_DOMAIN_BASE.BASE * 4096 + f.at 28 2 * 16) new).toOption = some t →
      exec (.domainSet d) s = .next (t.finish .sep d St.success)) ∧
  (∀ (s : State) (d : DescRef) (f : Fetched) (fp : List Byte) (t : State),
      s.startedAt .sep d Op.lookup = some f →
      f.len = 32 →
      s.domainRefused (f.at 28 2) f.tenant = none →
      (s.dmaRead .sep f.src 32 (some d.ring)).toOption = some fp →
      s.bucketsBad fp = false →
      (f.at 30 1).testBit 0 = false →
      t = s.noteBuckets fp →
      t.filterFind (f.at 28 2) fp = none →
      t.dramMatch (f.at 28 2) fp = none →
      exec (.lookup d) s = .next ((t.wr SEP_COUNT_UNIQUE.COUNT (t.rd SEP_COUNT_UNIQUE.COUNT + 1)).finish .sep d St.success 0)) ∧
  (∀ (s : State) (d : DescRef) (f : Fetched) (fp : List Byte) (t : State),
      s.startedAt .sep d Op.lookup = some f →
      f.len = 32 →
      s.domainRefused (f.at 28 2) f.tenant = none →
      (s.dmaRead .sep f.src 32 (some d.ring)).toOption = some fp →
      s.bucketsBad fp = false →
      (s.noteBuckets fp).dramLookup (f.at 28 2) fp ((f.at 30 1).testBit 0) none = (SepAns.unique, t) →
      exec (.lookup d) s = .next (t.finish .sep d (if (f.at 30 1).testBit 0 then St.entryNotFound else St.success) 0)) ∧
  (∀ (s : State) (d : DescRef) (f : Fetched) (fp : List Byte) (t : State),
      s.startedAt .sep d Op.lookup = some f →
      f.len = 32 →
      s.domainRefused (f.at 28 2) f.tenant = none →
      (s.dmaRead .sep f.src 32 (some d.ring)).toOption = some fp →
      s.bucketsBad fp = false →
      (s.noteBuckets fp).dramLookup (f.at 28 2) fp ((f.at 30 1).testBit 0) none = (SepAns.noInsert, t) →
      exec (.lookup d) s = .next (t.finish .sep d St.success 2)) ∧
  (∀ (s : State) (d : DescRef) (f : Fetched) (fp : List Byte) (h loc sh : Nat) (t u : State),
      s.startedAt .sep d Op.lookup = some f →
      f.len = 32 →
      s.domainRefused (f.at 28 2) f.tenant = none →
      (s.dmaRead .sep f.src 32 (some d.ring)).toOption = some fp →
      s.bucketsBad fp = false →
      (s.noteBuckets fp).dramLookup (f.at 28 2) fp ((f.at 30 1).testBit 0) none = (SepAns.dup h loc sh, t) →
      (t.dmaWrite .sep (t.rd (RING_DBASE.BASE (unitBase .sep) d.ring) * 4096 + d.slot * 64 + 40) (leBytes 8 loc) (some d.ring)).toOption = some u →
      exec (.lookup d) s = .next (u.finish .sep d St.success 1 h)) ∧
  (∀ (s : State) (d : DescRef) (f : Fetched) (fp : List Byte) (h : Nat) (e : FEntry) (t : State),
      s.startedAt .sep d Op.insert = some f →
      f.len = 32 →
      s.domainRefused (f.at 28 2) f.tenant = none →
      s.sepShardRefused (f.at 30 1) = none →
      f.at 32 4 ≠ 0 →
      (s.dmaRead .sep f.src 32 (some d.ring)).toOption = some fp →
      s.bucketsBad fp = false →
      s.filterFind (f.at 28 2) fp = none →
      s.dramMatch (f.at 28 2) fp = none →
      s.indexed (f.at 30 1) (f.at 40 8) = false →
      s.freeSlot fp = some h →
      e = { fp := fp, domain := f.at 28 2, state := Est.valid, shard := f.at 30 1, refs := f.at 32 4, locator := f.at 40 8, slot := some h } →
      (s.dmaWrite .sep (s.slotAddr h) e.bytes).toOption = some t →
      exec (.insert d) s = .next (((t.setSep { t.sep with byLoc := Tab.set t.sep.byLoc (copyKey (f.at 30 1) (t.locNow (f.at 30 1) (f.at 40 8))) h }).entriesUp
          (f.at 30 1)).finish .sep d St.success 0 h)) ∧
  (∀ (s : State) (d : DescRef) (f : Fetched) (h : Nat) (e : FEntry),
      s.startedAt .sep d Op.refAdjust = some f →
      s.refAdjusting d = false →
      s.handleBad f = false →
      (s.entryFor f).toOption = some (h, e) →
      (f.at 32 1).testBit 0 = true →
      e.holds ≠ 0 →
      exec (.refAdjust d) s = .next ((s.releaseHold h).finish .sep d St.success (if e.refs + e.holds = 1 then 1 else 0)
        (refResult e.refs (e.holds - 1)))) ∧
  (∀ (s : State) (d : DescRef) (f : Fetched) (h : Nat) (e : FEntry),
      s.startedAt .sep d Op.refAdjust = some f →
      s.refAdjusting d = false →
      s.handleBad f = false →
      (s.entryFor f).toOption = some (h, e) →
      f.at 32 1 = 2 →
      f.at 28 4 = 0 →
      1 ≤ e.refs →
      e.refs < 2 ^ 32 →
      s.filterAt h = some e →
      ((s.putEntry h { e with state := Est.frozen }).putEntry h { e with state := Est.frozen }).entryAt h = some { e with state := Est.frozen, dirty := true } →
      exec (.refAdjust d) s = .next (((s.putEntry h { e with state := Est.frozen }).putEntry h { e with state := Est.frozen }).finish .sep d St.success 0
        (refResult e.refs e.holds))) ∧
  (∀ (s : State) (d : DescRef) (f : Fetched) (h : Nat) (e x : FEntry),
      s.startedAt .sep d Op.refAdjust = some f →
      s.refAdjusting d = false →
      s.handleBad f = false →
      (s.entryFor f).toOption = some (h, e) →
      (f.at 32 1).testBit 0 = false →
      (x = { e with state := if (f.at 32 1).testBit 2 then Est.valid else if (f.at 32 1).testBit 1 then Est.frozen else e.state }) →
      exec (.refAdjust d) s = .next ((s.putEntry h x).adjust d h x (toSigned (f.at 28 4) 32))) ∧
  (∀ (s : State) (d : DescRef) (f : Fetched) (h : Nat) (e : FEntry) (t : State),
      s.startedAt .sep d Op.relocate = some f →
      s.handleBad f = false →
      (s.entryFor f).toOption = some (h, e) →
      e.state = Est.valid →
      e.holds = 0 →
      t = s.putEntry h { e with locator := f.at 48 8 } →
      exec (.relocate d) s = .next ((t.setSep { t.sep with byLoc := Tab.set (Tab.del t.sep.byLoc (copyKey e.shard (t.locNow e.shard e.locator))) (copyKey e.shard (t.locNow e.shard (f.at 48 8))) h }).finish .sep d St.success)) ∧
  (∀ (s : State) (d : DescRef) (f : Fetched) (bs : List Byte) (t : State),
      s.startedAt .sep d Op.mergeScan = some f →
      f.len % 48 = 0 →
      (s.dmaRead .sep f.src f.len (some d.ring)).toOption = some bs →
      (((List.range (f.len / 48)).any fun i => s.bucketsBad (slice bs (48 * i) 32)) = false) →
      (s.dmaWrite .sep f.dst (s.mergePairs (f.at 28 4) 0 (f.len / 48) bs).2 (some d.ring)).toOption = some t →
      exec (.mergeScan d) s = .next (t.finish .sep d St.success (s.mergePairs (f.at 28 4) 0 (f.len / 48) bs).1
          ((s.mergePairs (f.at 28 4) 0 (f.len / 48) bs).2.length / 16))) ∧
  (∀ (s : State) (d : DescRef) (f : Fetched),
      s.startedAt .sep d Op.shardState = some f →
      f.at 29 1 = Sst.loaded →
      ((s.sep.dropping.any fun x => x.1 == f.at 28 1) = false) →
      s.sepSt (f.at 28 1) ≠ Sst.loaded →
      exec (.shardState d) s = .next ((((s.wr (SEP_SHARD.STATE (f.at 28 1)) Sst.loaded).sweepOrphans (f.at 28 1)).raise Ev.shardLoaded (some .sep)
        (some (f.at 28 1)) [f.at 28 1]).finish .sep d St.success)) ∧
  (∀ (s : State) (d : DescRef) (f : Fetched),
      s.startedAt .sep d Op.shardState = some f →
      f.at 29 1 ≤ 3 →
      ((s.sep.dropping.any fun x => x.1 == f.at 28 1) = false) →
      f.at 29 1 ≠ Sst.dropping →
      (f.at 29 1 = Sst.absent → s.rd (SEP_SHARD.ENTRIES (f.at 28 1)) = 0 ∧ s.partHeld (f.at 28 1) = false) →
      exec (.shardState d) s = .next ((s.enterPartition (f.at 28 1) (f.at 29 1)).finish .sep d St.success)) ∧
  (∀ (s : State) (d : DescRef) (f : Fetched),
      s.startedAt .sep d Op.shardState = some f →
      f.at 29 1 = Sst.dropping →
      ((s.sep.dropping.any fun x => x.1 == f.at 28 1) = false) →
      s.partHeld (f.at 28 1) = false →
      exec (.shardState d) s = .next (((s.wr (SEP_SHARD.STATE (f.at 28 1)) Sst.dropping).setSep { s.sep with dropping := s.sep.dropping ++ [(f.at 28 1, some d)] }).setPhase .sep d .started)) ∧
  (∀ (s : State) (shard : Nat) (d : Option DescRef) (t u : State),
      (s.sep.dropping.find? (fun x => x.1 == shard) = some (shard, d)) →
      (t = s.handles.foldl (fun (x : State) h => x.dropEntry shard h) s) →
      (u = t.setSep { t.sep with dropping := t.sep.dropping.filter (fun x => x.1 != shard), byLoc := Tab.keep t.sep.byLoc fun k _ => k / 2 ^ 64 != shard }) →
      exec (.shardDropDone shard) s = .next (match d with
        | some d => ((u.wr (SEP_SHARD.STATE shard) Sst.absent).wr (SEP_SHARD.ENTRIES shard) 0).finish .sep d St.success
        | none => (u.wr (SEP_SHARD.STATE shard) Sst.absent).wr (SEP_SHARD.ENTRIES shard) 0))

/-- The inline path of one block: fingerprint, lookup, verification, compression, encryption, and decryption and decompression back. INLINE_FINGERPRINT gives a block that has a lane and a domain key its HMAC-SHA3-256, and without a key sends it on as UNIQUE_NOINSERT with EV_DOMAIN_KEY. INLINE_LOOKUP of a filter hit goes on with its answer; a miss reads the buckets and counts it IN_FLIGHT, below 4,096; where INLINE is 0 the block is a new copy. INDEX_BUCKET_READ_DONE gives the DRAM tier's answer. VERIFY_COMPARE_DONE with equal bytes makes the reference record, otherwise a new copy, with EV_FP_COLLISION where the copy could be read. INLINE_COMPRESS makes the curd of a block that has a lane. VENEER_INLINE_JOB with the cached key, or KEY_UNWRAP_DONE for the jobs that waited, encrypts or decrypts; without the key in the cache the block waits for its unwrap or ends with the status of R405. INLINE_DECOMPRESS delivers the block of a sound curd. Completion stated for: inlineFingerprint, inlineLookup, indexBucketReadDone, verifyCompareDone, inlineCompress, veneerInlineJob, keyUnwrapDone, inlineDecompress. -/
def Obligations.InlinePathOfABlock : Prop :=
  (∀ (s : State) (k i : Nat) (c : NvmeCmd) (b : Blk) (key : List Byte),
      s.blk k i = some (c, b) →
      b.step = .print →
      takesLane s.pressTurn (.block k i) = true →
      (s.slot Cls.domain (volDomain (s.cmdVol c))).key = some key →
      exec (.inlineFingerprint k i) s = .next (s.setBlk k i { b with step := .look (hmac 0x02 136 key b.data) })) ∧
  (∀ (s : State) (k i : Nat) (c : NvmeCmd) (b : Blk),
      s.blk k i = some (c, b) →
      b.step = .print →
      takesLane s.pressTurn (.block k i) = true →
      (s.slot Cls.domain (volDomain (s.cmdVol c))).key = none →
      exec (.inlineFingerprint k i) s = .next ((s.raise Ev.domainKey (some .press) none [volDomain (s.cmdVol c)]).setBlk k i { b with step := .press })) ∧
  (∀ (s : State) (k i : Nat) (c : NvmeCmd) (b : Blk) (fp : List Byte),
      s.blk k i = some (c, b) →
      b.step = .look fp →
      s.recordWaits k c b.block = false →
      s.on SEP_CTL.EN = true →
      s.on SEP_CTL.INLINE_EN = true →
      domInline (s.domEntry (s.cmdDomain c)) = true →
      domValid (s.domEntry (s.cmdDomain c)) = true →
      domTenant (s.domEntry (s.cmdDomain c)) = c.tenant →
      s.filterFind (s.cmdDomain c) fp = none →
      s.rd SEP_STATUS.IN_FLIGHT < 4096 →
      exec (.inlineLookup k i) s = .next ((s.wr SEP_STATUS.IN_FLIGHT (s.rd SEP_STATUS.IN_FLIGHT + 1)).setBlk k i { b with step := .bucket fp })) ∧
  (∀ (s : State) (k i : Nat) (c : NvmeCmd) (b : Blk) (fp : List Byte) (a : SepAns) (t : State),
      s.blk k i = some (c, b) →
      b.step = .look fp →
      s.recordWaits k c b.block = false →
      s.on SEP_CTL.EN = true →
      s.on SEP_CTL.INLINE_EN = true →
      domInline (s.domEntry (s.cmdDomain c)) = true →
      domValid (s.domEntry (s.cmdDomain c)) = true →
      domTenant (s.domEntry (s.cmdDomain c)) = c.tenant →
      s.filterLookup (s.cmdDomain c) fp true = some (a, t) →
      exec (.inlineLookup k i) s = .next (t.answered k i fp a)) ∧
  (∀ (s : State) (k i : Nat) (c : NvmeCmd) (b : Blk) (fp : List Byte),
      s.blk k i = some (c, b) →
      b.step = .look fp →
      s.recordWaits k c b.block = false →
      s.on SEP_CTL.EN = true →
      s.on SEP_CTL.INLINE_EN = true →
      domInline (s.domEntry (s.cmdDomain c)) = true →
      domValid (s.domEntry (s.cmdDomain c)) = false ∨ domTenant (s.domEntry (s.cmdDomain c)) ≠ c.tenant →
      exec (.inlineLookup k i) s = .next ((s.raise Ev.domainMismatch (some .sep) none [s.cmdDomain c, c.tenant]).storeNew k i fp false)) ∧
  (∀ (s : State) (k i : Nat) (c : NvmeCmd) (b : Blk) (fp : List Byte),
      s.blk k i = some (c, b) →
      b.step = .look fp →
      s.recordWaits k c b.block = false →
      s.on SEP_CTL.EN = true →
      s.on SEP_CTL.INLINE_EN = false ∨ domInline (s.domEntry (s.cmdDomain c)) = false →
      exec (.inlineLookup k i) s = .next (s.storeNew k i fp false)) ∧
  (∀ (s : State) (k i : Nat) (c : NvmeCmd) (b : Blk) (fp : List Byte) (t : State),
      s.blk k i = some (c, b) →
      b.step = .bucket fp →
      s.bucketsBad fp = false →
      t = ((s.noteBuckets fp).drop SEP_STATUS.IN_FLIGHT 1).yieldPending (s.cmdDomain c) fp k →
      exec (.indexBucketReadDone k i) s = .next ((t.dramLookup (t.cmdDomain c) fp true (some (blockShard c.vol b.block, k))).2.answered k i fp
        (t.dramLookup (t.cmdDomain c) fp true (some (blockShard c.vol b.block, k))).1)) ∧
  (∀ (s : State) (k i : Nat) (c : NvmeCmd) (b : Blk) (fp : List Byte) (h l : Nat) (ms : List Medium) (a : State),
      s.blk k i = some (c, b) →
      b.step = .verify fp h l →
      a = s.setCell { s.cell with script := ms } →
      (a.storedBlock (((a.entryAt h).map FEntry.shard).getD 0) l).1 ≠ some b.data →
      exec (.verifyCompareDone k i ms) s = .next (s.scripted ms fun (s' : State) =>
        (((if (s'.storedBlock (((s'.entryAt h).map FEntry.shard).getD 0) l).1.isSome then
            (s'.storedBlock (((s'.entryAt h).map FEntry.shard).getD 0) l).2.raise Ev.fpCollision (some .sep) none [h]
          else (s'.storedBlock (((s'.entryAt h).map FEntry.shard).getD 0) l).2).setBlk k i
          { b with hold := none }).releaseHold h).storeNew k i fp false)) ∧
  (∀ (s : State) (k i : Nat) (c : NvmeCmd) (b : Blk) (fp : List Byte) (h l : Nat) (ms : List Medium),
      s.blk k i = some (c, b) →
      b.step = .verify fp h l →
      exec (.verifyCompareDone k i ms) s = .next (s.scripted ms fun (s' : State) =>
        if (s'.storedBlock (((s'.entryAt h).map FEntry.shard).getD 0) l).1 = some b.data then
          (s'.storedBlock (((s'.entryAt h).map FEntry.shard).getD 0) l).2.refRec k i (((s'.entryAt h).map FEntry.shard).getD 0) l
        else (((if (s'.storedBlock (((s'.entryAt h).map FEntry.shard).getD 0) l).1.isSome then
            (s'.storedBlock (((s'.entryAt h).map FEntry.shard).getD 0) l).2.raise Ev.fpCollision (some .sep) none [h]
          else (s'.storedBlock (((s'.entryAt h).map FEntry.shard).getD 0) l).2).setBlk k i
          { b with hold := none }).releaseHold h).storeNew k i fp false)) ∧
  (∀ (s : State) (k i : Nat) (c : NvmeCmd) (b : Blk) (dict : Nat) (curd : List Byte) (t : State),
      s.blk k i = some (c, b) →
      b.step = .press →
      takesLane s.churnTurn (.block k i) = true →
      (dict = if volDedup (s.cmdVol c) ∧ s.dictRefused (volOwner (s.cmdVol c) c.vol) (domDict (s.domEntry (volDomain (s.cmdVol c)))) = none then domDict (s.domEntry (volDomain (s.cmdVol c))) else 0) →
      s.useDicts [dict] = some t →
      curd = curdCompress t.dicts (volOwner (s.cmdVol c) c.vol) (if volDedup (s.cmdVol c) then domLevel (s.domEntry (volDomain (s.cmdVol c))) else 0) dict [b.data] →
      exec (.inlineCompress k i) s = .next (t.setBlk k i { b with step := .crypt curd })) ∧
  (∀ (s : State) (k i : Nat) (c : NvmeCmd) (b : Blk) (key : List Byte) (t : State),
      s.blk k i = some (c, b) →
      s.recordWaits k c b.block = false →
      b.atVeneer = true →
      takesLane s.venTurn (.block k i) = true →
      s.cached c.tenant = some (key, t) →
      exec (.veneerInlineJob k i) s = .next (t.venInline k i key)) ∧
  (∀ (s : State) (k i : Nat) (c : NvmeCmd) (b : Blk) (key : List Byte) (t : State) (bs : List Byte) (tw l idx : Nat),
      s.blk k i = some (c, b) →
      b.step = .cipher bs tw l idx →
      takesLane s.venTurn (.block k i) = true →
      s.cached c.tenant = some (key, t) →
      exec (.veneerInlineJob k i) s = .next (t.venInline k i key)) ∧
  (∀ (s : State) (k i : Nat) (c : NvmeCmd) (b : Blk),
      s.blk k i = some (c, b) →
      s.recordWaits k c b.block = false →
      b.atVeneer = true →
      takesLane s.venTurn (.block k i) = true →
      s.cached c.tenant = none →
      exec (.veneerInlineJob k i) s = .next (match s.keyMiss c.tenant (.inline k) with
        | .error e => (s.noteTable .ven (s.keyEntryAddr c.tenant) 128).keyFailed k i e
        | .ok t => t)) ∧
  (∀ (s : State) (tenant k : Nat),
      Tab.get? s.ven.misses tenant = some [.inline k] →
      s.cmd k = none →
      exec (.keyUnwrapDone tenant) s = .next (match s.unwrapEntry tenant with
        | .ok key => (s.setVen { s.ven with misses := Tab.del s.ven.misses tenant }).cacheKey tenant key
        | .error e => if e = St.venUnwrapFail then
            (s.setVen { s.ven with misses := Tab.del s.ven.misses tenant }).raise Ev.venUnwrap (some .ven) none [tenant]
          else s.setVen { s.ven with misses := Tab.del s.ven.misses tenant })) ∧
  (∀ (s : State) (k i : Nat) (c : NvmeCmd) (b : Blk) (ms : List Medium) (curd : List Byte) (idx : Nat) (t : State),
      s.blk k i = some (c, b) →
      b.step = .plain curd idx →
      takesLane s.churnTurn (.block k i) = true →
      s.useDicts (curdDicts s.dicts curd idx) = some t →
      t.catEntry c.vol b.block = none →
      exec (.inlineDecompress k i ms) s = .next (match curdRead t.dicts curd idx with
        | .ok bks => t.readBlock k i (bks.headD []) (freshTags (t.cmdVol c))
        | .error _ => t.readBlock k i (zeros 4096) (freshTags (t.cmdVol c)))) ∧
  (∀ (s : State) (k i : Nat) (c : NvmeCmd) (b : Blk) (ms : List Medium) (curd : List Byte) (idx : Nat) (t : State),
      s.blk k i = some (c, b) →
      b.step = .plain curd idx →
      takesLane s.churnTurn (.block k i) = true →
      s.useDicts (curdDicts s.dicts curd idx) = some t →
      exec (.inlineDecompress k i ms) s = .next (match curdRead t.dicts curd idx with
        | .ok bks => t.readBlock k i (bks.headD []) (match t.catEntry c.vol b.block with
          | some e => (e.app, e.ref)
          | none => freshTags (t.cmdVol c))
        | .error st => match t.catEntry c.vol b.block with
          | some e => if b.tried || !curdBad st then (if curdBad st then t.curdEvent (t.locNow e.shard e.locator) st else t).blkDone k i Nv.readError
            else (if curdBad st then t.curdEvent (t.locNow e.shard e.locator) st else t).scripted ms fun u =>
              ((u.repairCopy e.shard (t.locNow e.shard e.locator)).setBlk k i { b with tried := true, step := .wait }).readMedium k i
          | none => t.readBlock k i (zeros 4096) (freshTags (t.cmdVol c))))

/-- What the Churn's descriptors do when they succeed, and what a lane fault does. COMPRESS, once a lane takes it, writes the curd of its blocks, or completes with OUTPUT_OVERFLOW; DECOMPRESS checks a curd and writes its blocks, compares one, or with CHECK_ONLY completes with the status of its checks; RECAST makes one curd of the blocks its sources select, or fails with the first source that does. The dictionaries they use are fetched first where they are not on chip. DICT_LOAD parses a dictionary that no started descriptor uses, binds it to its ID and domain and takes it off the chip; DICT_DROP removes it, and of one that is not loaded completes DICT_MISSING; CHURN_LANE_FAULT takes the lane out of service with EV_LANE_FAULT and fails the descriptor that stood in it. Completion stated for: compress, decompress, recast, dictLoad, dictDrop, churnLaneFault. -/
def Obligations.ChurnDescriptors : Prop :=
  (∀ (s : State) (d : DescRef) (f : Fetched),
      s.startedAt .churn d Op.compress = some f →
      takesLane s.churnTurn (.desc d) = true →
      f.len % 4096 = 0 →
      4096 ≤ f.len →
      f.len ≤ 32768 →
      vatSpan f.src f.len = true →
      inVat f.dst = true →
      ownerOk (f.at 36 4) = true →
      s.dictRefused (f.at 36 4) (f.at 32 2) = none →
      exec (.compress d) s = .next (s.churnRead d f.src f.len fun bs => s.withDicts d [f.at 32 2] fun s => s.curdOut d f (f.at 28 4)
        (curdCompress s.dicts (f.at 36 4) (f.at 34 1) (f.at 32 2) (blocks4k bs)))) ∧
  (∀ (s : State) (d : DescRef) (f : Fetched) (bs : List Byte) (t : State),
      s.startedAt .churn d Op.decompress = some f →
      takesLane s.churnTurn (.desc d) = true →
      inVat f.src = true →
      96 ≤ f.len →
      vatSpan f.src f.len = true →
      (s.dmaRead .churn f.src f.len (some d.ring)).toOption = some bs →
      s.useDicts (curdDicts s.dicts bs (f.at 32 1)) = some t →
      (f.at 34 1).testBit 0 = true →
      (f.at 34 1).testBit 1 = false →
      f.at 33 1 = 0 →
      exec (.decompress d) s = .next (match curdRead t.dicts bs (f.at 32 1) with
        | .ok _ => t.finish .churn d St.success
        | .error e => (t.curdEvent f.src e).finish .churn d e)) ∧
  (∀ (s : State) (d : DescRef) (f : Fetched) (bs : List Byte) (t : State),
      s.startedAt .churn d Op.decompress = some f →
      takesLane s.churnTurn (.desc d) = true →
      inVat f.src = true →
      96 ≤ f.len →
      vatSpan f.src f.len = true →
      (s.dmaRead .churn f.src f.len (some d.ring)).toOption = some bs →
      s.useDicts (curdDicts s.dicts bs (f.at 32 1)) = some t →
      (f.at 34 1).testBit 0 = false →
      (f.at 34 1).testBit 1 = false →
      inVat f.dst = true →
      f.at 33 1 = 0 →
      exec (.decompress d) s = .next (match curdRead t.dicts bs (f.at 32 1) with
        | .ok blocks =>
          if f.at 28 4 < blocks.flatten.length then t.finish .churn d St.outputOverflow
          else if !vatSpan f.dst blocks.flatten.length then t.finish .churn d St.addrInvalid
          else (match t.dmaWrite .churn f.dst blocks.flatten (some d.ring) with
            | .error e => t.finishDma .churn d e
            | .ok u => u.finish .churn d St.success blocks.flatten.length)
        | .error e => (t.curdEvent f.src e).finish .churn d e)) ∧
  (∀ (s : State) (d : DescRef) (f : Fetched) (bs : List Byte) (t : State),
      s.startedAt .churn d Op.decompress = some f →
      takesLane s.churnTurn (.desc d) = true →
      inVat f.src = true →
      96 ≤ f.len →
      vatSpan f.src f.len = true →
      (s.dmaRead .churn f.src f.len (some d.ring)).toOption = some bs →
      s.useDicts (curdDicts s.dicts bs (f.at 32 1)) = some t →
      (f.at 34 1).testBit 0 = false →
      (f.at 34 1).testBit 1 = true →
      inVat f.dst = true →
      f.at 32 1 ≠ 15 →
      f.at 33 1 = 0 →
      exec (.decompress d) s = .next (match curdRead t.dicts bs (f.at 32 1) with
        | .ok blocks => t.churnRead d f.dst 4096 fun other => t.finish .churn d St.success 0 (if other = blocks.headD [] then 1 else 0)
        | .error e => (t.curdEvent f.src e).finish .churn d e)) ∧
  (∀ (s : State) (d : DescRef) (f : Fetched) (n : Nat),
      s.startedAt .churn d Op.recast = some f →
      takesLane s.churnTurn (.desc d) = true →
      (n = (f.imgs.map fun i => popCount (fieldAt i 35 1) 8).sum) →
      1 ≤ n →
      n ≤ 8 →
      inVat f.dst = true →
      exec (.recast d) s = .next (s.withDicts d (f.imgs.flatMap (s.sourceDicts d.ring 15)) fun s => match s.recastAll d.ring 0 none f.imgs with
        | .error (i, .inr e) => (s.dmaFailed .churn e).finish .churn d e.status (i + e.status % 65536 * 16)
        | .error (i, .inl e) => (s.sourceEvent d.ring e (f.imgs.getD i [])).finish .churn d e (i + e % 65536 * 16)
        | .ok (owner, blocks) => match s.dictRefused owner (f.at 32 2) with
          | some e => s.finish .churn d e
          | none => s.withDicts d [f.at 32 2] fun s => s.curdOut d f (f.at 28 4)
              (curdCompress s.dicts owner (f.at 34 1) (f.at 32 2) blocks))) ∧
  (∀ (s : State) (d : DescRef) (f : Fetched) (bs : List Byte),
      s.startedAt .churn d Op.dictLoad = some f →
      0 < f.len →
      f.len ≤ 65536 →
      1 ≤ f.at 32 2 →
      f.at 32 2 ≤ 8191 →
      f.at 34 2 ≤ 4095 →
      s.dictUsed (f.at 32 2) = false →
      (s.dmaRead .churn f.src f.len (some d.ring)).toOption = some bs →
      (dictParse bs).toBool = true →
      exec (.dictLoad d) s = .next (s.draw.tableThen .churn d (s.dictAddr (f.at 32 2)) (s.freeBytes 81920) fun t =>
        ((t.setChurn { t.churn with dicts := Tab.set t.churn.dicts (f.at 32 2) { domain := f.at 34 2, bytes := bs, form := s.draws }, onChip := t.churn.onChip.filter (· != f.at 32 2) }).wr CHURN_STATUS.DICT_RESIDENT
              (t.churn.onChip.filter (· != f.at 32 2)).length).finish .churn d St.success)) ∧
  (∀ (s : State) (d : DescRef) (f : Fetched),
      s.startedAt .churn d Op.dictDrop = some f →
      (s.dicts (f.at 32 2)).isSome = true →
      s.dictUsed (f.at 32 2) = false →
      exec (.dictDrop d) s = .next (((s.setChurn { s.churn with dicts := Tab.del s.churn.dicts (f.at 32 2), onChip := s.churn.onChip.filter (· != f.at 32 2) }).wr CHURN_STATUS.DICT_RESIDENT
          (s.churn.onChip.filter (· != f.at 32 2)).length).finish .churn d St.success)) ∧
  (∀ (s : State) (d : DescRef) (f : Fetched),
      s.startedAt .churn d Op.dictDrop = some f →
      s.dicts (f.at 32 2) = none →
      exec (.dictDrop d) s = .next (s.finish .churn d St.dictMissing)) ∧
  (∀ (s : State) (lane : Fin 16) (k : Nat),
      exec (.churnLaneFault lane (.inline k)) s = .next ((s.wrBit CHURN_STATUS.LANE_FAULT lane true).raise Ev.laneFault (some .churn)
        (some lane.val) [lane.val])) ∧
  (∀ (s : State) (lane : Fin 16) (k : Nat),
      exec (.churnLaneFault lane (.context k)) s = .next (s.churnLaneFault lane)) ∧
  (∀ (s : State) (lane : Fin 16) (d : DescRef) (f : Fetched),
      (s.churnLaneFault lane).fetchedAt .churn d = some f →
      exec (.churnLaneFault lane (.desc d)) s = .next (if f.phase = .fetched then s.churnLaneFault lane
        else (s.churnLaneFault lane).finish .churn d St.unitFault))

/-- HASH opens a context, absorbs a part and finishes; CTX_CLOSE frees the context; a result is read; a lane fault. A HASH that no earlier descriptor of its context precedes, that passes its checks and that a lane takes, absorbs its part: with FIRST and without LAST it opens the context for its ring and algorithm, keeps the part's bytes and completes with the context and its state; with LAST and all bytes there it puts the digest into the result registers, or at DESTINATION, the context is DONE and RESULT is the digest's first word where the job is unkeyed. CTX_CLOSE of a context of the ring frees it and zeroes its state. PRESS_RESULT_READ of a DONE context from an accepted origin answers the result register and changes nothing; of a FREE context it answers 0 and records EARLY_READ, from another origin 0 with FOREIGN_READ. PRESS_LANE_FAULT takes the lane out of service; with a started HASH in it the context enters ERROR with UNIT_FAULT. Completion stated for: hash, ctxClose, pressResultRead, pressLaneFault. -/
def Obligations.PressHashesAndCloses : Prop :=
  (∀ (s : State) (d : DescRef) (f : Fetched) (bs : List Byte),
      s.startedAt .press d Op.hash = some f →
      s.pressBehind d (pressCtxOf f) = false →
      s.hashCheck d f = none →
      takesLane s.pressTurn (.desc d) = true →
      (f.at 6 1).testBit 0 = true →
      (f.at 6 1).testBit 1 = false →
      f.len ≤ f.at 32 6 →
      (s.dmaRead .press f.src f.len (some d.ring)).toOption = some bs →
      ∃ t : State, exec (.hash d) s = .next (t.finish .press d St.success (pressCtxOf f + Pst.open_ * 2 ^ 8) bs.length) ∧
        t.pctxSt (pressCtxOf f) = Pst.open_ ∧ t.rd (PRESS_CTX_STATUS.OWNER_RING (pressCtxOf f)) = d.ring % 2 ^ (PRESS_CTX_STATUS.OWNER_RING (pressCtxOf f)).w ∧
        t.rd (PRESS_CTX_STATUS.ALG (pressCtxOf f)) = f.at 29 1 % 2 ^ (PRESS_CTX_STATUS.ALG (pressCtxOf f)).w ∧
        (Tab.get? t.press.ctx (pressCtxOf f)).map (·.data) = some bs ∧ t.mem = s.mem) ∧
  (∀ (s : State) (d : DescRef) (f : Fetched) (bs r : List Byte),
      s.startedAt .press d Op.hash = some f →
      s.pressBehind d (pressCtxOf f) = false →
      s.hashCheck d f = none →
      takesLane s.pressTurn (.desc d) = true →
      f.at 6 1 % 4 = 3 →
      f.len = f.at 32 6 →
      f.dst = 0 →
      (algOf (f.at 29 1)).map Alg.hmac = some false →
      (s.dmaRead .press f.src f.len (some d.ring)).toOption = some bs →
      r = digest (f.at 29 1) [] bs (f.at 40 4) →
      ∃ t : State, exec (.hash d) s = .next (t.finish .press d St.success (pressCtxOf f + Pst.done * 2 ^ 8) (fieldAt r 0 8)) ∧
        t.pctxSt (pressCtxOf f) = Pst.done ∧ Tab.get? t.press.ctx (pressCtxOf f) = none ∧
        (∀ w, w < 8 → t.rd (PRESS_RESULT.BYTES (pressCtxOf f) w) = fieldAt (r.take 64 ++ zeros 64) (8 * w) 8) ∧ t.mem = s.mem) ∧
  (∀ (s : State) (d : DescRef) (f : Fetched) (bs : List Byte) (j : PressCtx) (t : State),
      s.startedAt .press d Op.hash = some f →
      s.pressBehind d (pressCtxOf f) = false →
      s.hashCheck d f = none →
      takesLane s.pressTurn (.desc d) = true →
      j = s.hashJob f →
      t = (s.openCtx d f).servedCtx (pressCtxOf f) →
      (t.dmaRead .press f.src f.len (some d.ring)).toOption = some bs →
      (f.at 6 1).testBit 1 = false →
      j.data.length + f.len ≤ j.total →
      exec (.hash d) s = .next ((t.setPctx (pressCtxOf f) (some { j with data := j.data ++ bs })).finish .press d St.success
        ((t.setPctx (pressCtxOf f) (some { j with data := j.data ++ bs })).pressInfo (pressCtxOf f)) (j.data ++ bs).length)) ∧
  (∀ (s : State) (d : DescRef) (f : Fetched) (bs : List Byte) (j : PressCtx) (t : State),
      s.startedAt .press d Op.hash = some f →
      s.pressBehind d (pressCtxOf f) = false →
      s.hashCheck d f = none →
      takesLane s.pressTurn (.desc d) = true →
      j = s.hashJob f →
      t = (s.openCtx d f).servedCtx (pressCtxOf f) →
      (t.dmaRead .press f.src f.len (some d.ring)).toOption = some bs →
      (f.at 6 1).testBit 1 = true →
      j.data.length + f.len = j.total →
      exec (.hash d) s = .next (t.hashLast d f { j with data := j.data ++ bs })) ∧
  (∀ (s : State) (d : DescRef) (f : Fetched),
      s.startedAt .press d Op.ctxClose = some f →
      (((s.ring .press d.ring).fetched.any fun g => g.slot != d.slot && g.phase != .fetched && pressCtxOf g == pressCtxOf f && g.opcode == Op.hash) = false) →
      pressCtxOf f ≤ 63 →
      s.pctxSt (pressCtxOf f) ≠ Pst.free →
      s.rd (PRESS_CTX_STATUS.OWNER_RING (pressCtxOf f)) = d.ring →
      exec (.ctxClose d) s = .next (((s.freeCtx (pressCtxOf f)).finish .press d St.success (pressCtxOf f)).dropUnstarted d.ring (pressCtxOf f)) ∧
        (s.freeCtx (pressCtxOf f)).pctxSt (pressCtxOf f) = Pst.free ∧ Tab.get? (s.freeCtx (pressCtxOf f)).press.ctx (pressCtxOf f) = none) ∧
  (∀ (s : State) (origin : Origin) (c : Fin 64) (w : Fin 8),
      s.pctxSt c = Pst.done →
      s.ringAccepts .press (s.rd (PRESS_CTX_STATUS.OWNER_RING c)) origin.toNat = true →
      exec (.pressResultRead origin c w) s = .next (s.readReturn (some (s.rd (PRESS_RESULT.BYTES c w))))) ∧
  (∀ (s : State) (origin : Origin) (c : Fin 64) (w : Fin 8),
      s.pctxSt c = Pst.done →
      s.ringAccepts .press (s.rd (PRESS_CTX_STATUS.OWNER_RING c)) origin.toNat = false →
      exec (.pressResultRead origin c w) s = .next (((s.wr (PRESS_CTX_STATUS.FOREIGN_READ c) 1).raise Ev.foreignRead (some .press)
        (some c.val) [c.val, origin.toNat] (some origin.toNat)).readReturn (some 0))) ∧
  (∀ (s : State) (origin : Origin) (c : Fin 64) (w : Fin 8),
      exec (.pressResultRead origin c w) s = .next ((s.pressResult origin.toNat c w).1.readReturn (some (s.pressResult origin.toNat c w).2))) ∧
  (∀ (s : State) (origin : Origin) (c : Fin 64) (w : Fin 8),
      s.pctxSt c = Pst.free →
      exec (.pressResultRead origin c w) s = .next (((s.wr (PRESS_CTX_STATUS.EARLY_READ c) 1).raise Ev.earlyRead (some .press)
        (some c.val) [c.val, origin.toNat] (some origin.toNat)).readReturn (some 0))) ∧
  (∀ (s : State) (lane : Fin 16),
      exec (.pressLaneFault lane .idle) s = .next ((s.wrBit PRESS_STATUS.LANE_FAULT lane true).raise Ev.pressLaneFault (some .press)
        (some lane.val) [lane.val])) ∧
  (∀ (s : State) (lane : Fin 16) (k : Nat),
      exec (.pressLaneFault lane (.inline k)) s = .next (s.pressLaneOut lane)) ∧
  (∀ (s : State) (lane : Fin 16) (d : DescRef),
      exec (.pressLaneFault lane (.desc d)) s = .next ((s.pressLaneOut lane).pressJobLost d)) ∧
  (∀ (s : State) (lane : Fin 16) (d : DescRef) (f : Fetched),
      (s.pressLaneOut lane).fetchedAt .press d = some f →
      f.phase = .started →
      (s.pressLaneOut lane).hashCheck d f = none →
      exec (.pressLaneFault lane (.desc d)) s = .next ((((s.pressLaneOut lane).openCtx d f).errCtx (pressCtxOf f) St.unitFault).finish .press d St.unitFault
        (pressCtxOf f + Pst.error * 2 ^ 8))) ∧
  (∀ (s : State) (lane : Fin 16) (c : Nat),
      c < 64 →
      s.pctxSt c ≠ Pst.free →
      exec (.pressLaneFault lane (.context c)) s = .next (s.errCtx c St.unitFault)) ∧
  (∀ (s : State) (lane : Fin 16) (l : Legacy),
      s.press.legacy = some l →
      exec (.pressLaneFault lane .legacy) s = .next ((s.pressLaneOut lane).legacyError l St.unitFault) ∧
        exec (.pressLaneFault lane (.context 64)) s = .next (s.legacyError l St.unitFault))

/-- The legacy word feed: lock, key, words, end, result, release, idle limit. LEGACY_START of an unlocked context, or of the owner, locks it to the origin with an empty job; a write of another origin is discarded, counted and recorded with LEGACY_OWNED; LEGACY_KEY binds a key an HMAC job may use; LEGACY_DATA adds a word, and one too many is PRESS_OVERRUN; LEGACY_FINAL of a whole message begins its processing; LEGACY_HASH_DONE on a lane makes the digest readable; LEGACY_RESULT_READ answers it to the owner and 0 to others; LEGACY_RELEASE and LEGACY_IDLE_EXPIRY release the lock and zero the results. Completion stated for: legacyStart, legacyData, legacyFinal, legacyKey, legacyHashDone, legacyResultRead, legacyRelease, legacyIdleExpiry. -/
def Obligations.PressLegacyWordFeed : Prop :=
  (∀ (s : State) (origin : Origin) (alg length : Nat) (l : Legacy),
      s.on PRESS_CTL.LEG_EN = true →
      s.press.legacy = some l →
      l.owner = origin.toNat →
      exec (.legacyStart origin alg length) s = .next ((s.setLegacy (some { owner := origin.toNat, alg := alg, length := length, idleAt := s.legacyIdleAt, err := if (algOf alg).isSome then 0 else St.algInvalid })).setLegResult [])) ∧
  (∀ (s : State) (origin : Origin) (alg length : Nat),
      s.on PRESS_CTL.LEG_EN = true →
      s.press.legacy = none →
      exec (.legacyStart origin alg length) s = .next ((s.setLegacy (some { owner := origin.toNat, alg := alg, length := length, idleAt := s.legacyIdleAt, err := if (algOf alg).isSome then 0 else St.algInvalid })).setLegResult [])) ∧
  (∀ (s : State) (origin : Origin) (alg length : Nat) (l : Legacy),
      s.on PRESS_CTL.LEG_EN = true →
      s.press.legacy = some l →
      l.owner ≠ origin.toNat →
      exec (.legacyStart origin alg length) s = .next (s.legacyRefused origin.toNat l.owner) ∧
        exec (.legacyData origin 0 0) s = .next (s.legacyRefused origin.toNat l.owner) ∧
        exec (.legacyFinal origin) s = .next (s.legacyRefused origin.toNat l.owner) ∧
        (s.legacyRefused origin.toNat l.owner).press = s.press) ∧
  (∀ (s : State) (origin : Origin) (handle : Word) (l : Legacy) (x : Alg),
      s.on PRESS_CTL.LEG_EN = true →
      s.press.legacy = some l →
      l.owner = origin.toNat →
      l.err = 0 →
      algOf l.alg = some x →
      s.keyCheck l.alg x handle.toNat false = none →
      exec (.legacyKey origin handle) s = .next (s.setLegacy (some { l with idleAt := s.legacyIdleAt, key := (s.resolve handle.toNat).map Prod.snd }))) ∧
  (∀ (s : State) (origin : Origin) (word : Word) (drained : Nat) (l : Legacy),
      s.on PRESS_CTL.LEG_EN = true →
      s.press.legacy = some l →
      l.owner = origin.toNat →
      l.err = 0 →
      (l.keyed = true → l.key.isSome = true) →
      l.words < l.need →
      l.fifo - drained < 32 →
      exec (.legacyData origin word drained) s = .next (s.setLegacy (some { l with idleAt := s.legacyIdleAt, fifo := l.fifo - drained + 1, words := l.words + 1, data := l.data ++ leBytes 8 word.toNat }))) ∧
  (∀ (s : State) (origin : Origin) (word : Word) (drained : Nat) (l : Legacy),
      s.on PRESS_CTL.LEG_EN = true →
      s.press.legacy = some l →
      l.owner = origin.toNat →
      l.err = 0 →
      l.need ≤ l.words →
      exec (.legacyData origin word drained) s = .next (s.legacyError { l with idleAt := s.legacyIdleAt, fifo := l.fifo - drained } St.pressOverrun)) ∧
  (∀ (s : State) (origin : Origin) (l : Legacy),
      s.on PRESS_CTL.LEG_EN = true →
      s.press.legacy = some l →
      l.owner = origin.toNat →
      l.err = 0 →
      l.final = false →
      l.done = false →
      (l.keyed = true → l.key.isSome = true) →
      l.need ≤ l.words →
      exec (.legacyFinal origin) s = .next (s.setLegacy (some { l with idleAt := s.legacyIdleAt, final := true }))) ∧
  (∀ (s : State) (l : Legacy),
      s.press.legacy = some l →
      l.final = true →
      takesLane s.pressTurn .legacy = true →
      exec .legacyHashDone s = .next (((s.servedCtx 64).setLegacy (some { l with final := false, done := true, fifo := 0, key := none, data := [] })).setLegResult
        (digest l.alg (l.key.getD []) (l.data.take l.length) 64))) ∧
  (∀ (s : State) (origin : Origin) (w : Fin 8) (l : Legacy),
      s.on PRESS_CTL.LEG_EN = true →
      s.press.legacy = some l →
      l.owner = origin.toNat →
      l.done = false →
      exec (.legacyResultRead origin w) s = .next (((s.setLegacy (some { l with idleAt := s.legacyIdleAt, early := true, err := if l.err = 0 then St.earlyRead else l.err })).raise Ev.earlyRead (some .press) none [64, origin.toNat] (some origin.toNat)).readReturn (some 0))) ∧
  (∀ (s : State) (origin : Origin) (w : Fin 8) (l : Legacy),
      s.on PRESS_CTL.LEG_EN = true →
      s.press.legacy = some l →
      l.owner = origin.toNat →
      l.done = true →
      exec (.legacyResultRead origin w) s = .next ((s.setLegacy (some { l with idleAt := s.legacyIdleAt })).readReturn
        (some (s.rd (PRESS_LEG_RESULT.VALUE w))))) ∧
  (∀ (s : State) (origin : Origin) (w : Fin 8) (l : Legacy),
      s.on PRESS_CTL.LEG_EN = true →
      s.press.legacy = some l →
      l.owner ≠ origin.toNat →
      exec (.legacyResultRead origin w) s = .next (s.readReturn (some 0))) ∧
  (∀ (s : State) (origin : Origin) (l : Legacy),
      s.on PRESS_CTL.LEG_EN = true →
      s.press.legacy = some l →
      l.owner = origin.toNat →
      exec (.legacyRelease origin) s = .next ((s.setLegacy none).setLegResult [])) ∧
  (∀ (s : State) (origin : Origin) (l : Legacy),
      s.on PRESS_CTL.LEG_EN = true →
      s.press.legacy = some l →
      origin.toNat = 0x200 →
      exec (.legacyRelease origin) s = .next ((s.setLegacy none).setLegResult [])) ∧
  (∀ (s : State) (l : Legacy),
      s.press.legacy = some l →
      s.passed l.idleAt = true →
      exec .legacyIdleExpiry s = .next (s.legacyRelease.raise Ev.legacyIdle (some .press) none [l.owner]) ∧
        (∀ w, w < 8 → s.legacyRelease.rd (PRESS_LEG_RESULT.VALUE w) = 0))

/-- What RANDOM and the key, KEK and pairing opcodes of the Island do when they pass their checks. RANDOM writes LENGTH free bytes; KEY_GEN writes the wrapped blob of a new key and fills the slot with the next generation; KEY_LOAD opens a blob or fails with UNWRAP_FAIL; KEY_DESTROY empties the slot, advances its generation and raises EV_KEY_DESTROYED; KEY_EXPORT writes the blob of a full slot; KEK_CREATE writes the sealed KEK and puts it in force; KEK_UNSEAL installs a sealed KEK or fails; PAIR_OFFER writes a signed offer and keeps its private key; PAIR_SEND answers a signed offer of a head of the same owner with the wrapped KEK; PAIR_RECEIVE installs it, returns it sealed and zeroes the private key. The free bytes are the ones at the machine's draw count. Completion stated for: random, keyGen, keyLoad, keyDestroy, keyExport, kekCreate, kekUnseal, pairOffer, pairSend, pairReceive. -/
def Obligations.IslandKeys : Prop :=
  (∀ (s : State) (d : DescRef) (f : Fetched),
      s.startedAt .sec d Op.random = some f →
      s.secAnswers = true →
      s.inOrder .sec d = true →
      s.lifeAllows false = true →
      0 < f.len →
      f.len ≤ 4096 →
      s.on SEC_RNG_STATUS.FAIL = false →
      exec (.random d) s = .next (s.drbg.secWrite d f.dst (s.freeBytes f.len) fun t => t.finish .sec d St.success)) ∧
  (∀ (s : State) (d : DescRef) (f : Fetched),
      s.startedAt .sec d Op.keyGen = some f →
      s.secAnswers = true →
      s.inOrder .sec d = true →
      s.lifeAllows true = true →
      s.sec.kek.isSome = true →
      f.len = 192 →
      f.at 28 1 = Cls.general →
      f.at 30 2 < 1024 →
      keyLenOk Cls.general (f.at 32 1) = true →
      (s.slot Cls.general (f.at 30 2)).key = none →
      (s.slot Cls.general (f.at 30 2)).gen < 2 ^ 32 - 1 →
      s.on SEC_RNG_STATUS.FAIL = false →
      exec (.keyGen d) s = .next (s.drbg.secWrite d f.dst (keyBlob Cls.general (f.at 32 1) (f.at 30 2) (f.at 34 2)
        (s.wrapKey Cls.general (f.at 30 2) (f.at 34 2) (s.freeBytes (f.at 32 1))).1
        (s.wrapKey Cls.general (f.at 30 2) (f.at 34 2) (s.freeBytes (f.at 32 1))).2) fun t =>
        (t.setSlot Cls.general (f.at 30 2) ⟨some (s.freeBytes (f.at 32 1)), (t.slot Cls.general (f.at 30 2)).gen + 1, f.at 34 2⟩).finish .sec d
          St.success 0 ((t.setSlot Cls.general (f.at 30 2)
            ⟨some (s.freeBytes (f.at 32 1)), (t.slot Cls.general (f.at 30 2)).gen + 1, f.at 34 2⟩).handleOf Cls.general (f.at 30 2)))) ∧
  (∀ (s : State) (d : DescRef) (f : Fetched) (len tenant : Nat),
      s.startedAt .sec d Op.keyGen = some f →
      s.secAnswers = true →
      s.inOrder .sec d = true →
      s.lifeAllows true = true →
      s.sec.kek.isSome = true →
      (len = if f.at 28 1 = Cls.tenant then 64 else if f.at 28 1 = Cls.domain then 32 else f.at 32 1) →
      (tenant = if f.at 28 1 = Cls.tenant then f.at 30 2 else f.at 34 2) →
      f.len = 192 →
      slotOk f = true →
      keyLenOk (f.at 28 1) len = true →
      s.slotFull (f.at 28 1) (f.at 30 2) = false →
      (s.slot (f.at 28 1) (f.at 30 2)).gen < 2 ^ 32 - 1 →
      s.on SEC_RNG_STATUS.FAIL = false →
      exec (.keyGen d) s = .next (s.drbg.secWrite d f.dst (keyBlob (f.at 28 1) len (f.at 30 2) tenant
        (s.wrapKey (f.at 28 1) (f.at 30 2) tenant (s.freeBytes len)).1 (s.wrapKey (f.at 28 1) (f.at 30 2) tenant (s.freeBytes len)).2) fun t =>
        t.installKey d (f.at 28 1) (f.at 30 2) tenant (s.freeBytes len) (s.wrapKey (f.at 28 1) (f.at 30 2) tenant (s.freeBytes len)).1
          (s.wrapKey (f.at 28 1) (f.at 30 2) tenant (s.freeBytes len)).2 fun h u => u.finish .sec d St.success 0 h)) ∧
  (∀ (s : State) (d : DescRef) (f : Fetched) (b : List Byte),
      s.startedAt .sec d Op.keyLoad = some f →
      s.secAnswers = true →
      s.inOrder .sec d = true →
      s.lifeAllows true = true →
      s.sec.kek.isSome = true →
      f.len = 192 →
      slotOk f = true →
      s.slotFull (f.at 28 1) (f.at 30 2) = false →
      (s.slot (f.at 28 1) (f.at 30 2)).gen < 2 ^ 32 - 1 →
      (s.dmaRead .sec f.src 192 (some d.ring)).toOption = some b →
      exec (.keyLoad d) s = .next (match s.openBlob (f.at 28 1) (f.at 30 2) b with
        | none => s.finish .sec d St.unwrapFail
        | some (key, tenant, w) => s.installKey d (f.at 28 1) (f.at 30 2) tenant key (fieldAt b 8 8) w fun h u => u.finish .sec d St.success 0 h)) ∧
  (∀ (s : State) (d : DescRef) (f : Fetched),
      s.startedAt .sec d Op.keyDestroy = some f →
      s.secAnswers = true →
      s.inOrder .sec d = true →
      s.lifeAllows true = true →
      s.sec.kek.isSome = true →
      f.at 28 1 = Cls.domain →
      f.at 30 2 < 4096 →
      (s.slot Cls.domain (f.at 30 2)).key.isSome = true →
      exec (.keyDestroy d) s = .next (((s.setSlot Cls.domain (f.at 30 2) ⟨none, min ((s.slot Cls.domain (f.at 30 2)).gen + 1) (2 ^ 32 - 1), 0⟩).raise
        Ev.keyDestroyed (some .sec) none [Cls.domain, f.at 30 2]).finish .sec d St.success)) ∧
  (∀ (s : State) (d : DescRef) (f : Fetched),
      s.startedAt .sec d Op.keyDestroy = some f →
      s.secAnswers = true →
      s.inOrder .sec d = true →
      s.lifeAllows true = true →
      s.sec.kek.isSome = true →
      slotOk f = true →
      s.slotFull (f.at 28 1) (f.at 30 2) = true →
      exec (.keyDestroy d) s = .next (if f.at 28 1 = Cls.tenant then s.tableThen .sec d (s.keyEntryAddr (f.at 30 2)) (zeros 128) fun t =>
          ((t.evictKey (f.at 30 2)).raise Ev.keyDestroyed (some .sec) none [f.at 28 1, f.at 30 2]).finish .sec d St.success
        else ((s.setSlot (f.at 28 1) (f.at 30 2) ⟨none, min ((s.slot (f.at 28 1) (f.at 30 2)).gen + 1) (2 ^ 32 - 1), 0⟩).raise
          Ev.keyDestroyed (some .sec) none [f.at 28 1, f.at 30 2]).finish .sec d St.success)) ∧
  (∀ (s : State) (d : DescRef) (f : Fetched) (k : KeySlot) (key : List Byte),
      s.startedAt .sec d Op.keyExport = some f →
      s.secAnswers = true →
      s.inOrder .sec d = true →
      s.lifeAllows true = true →
      s.sec.kek.isSome = true →
      f.len = 192 →
      f.at 28 1 = Cls.domain →
      f.at 30 2 < 4096 →
      k = s.slot Cls.domain (f.at 30 2) →
      k.key = some key →
      exec (.keyExport d) s = .next (s.secWrite d f.dst (keyBlob Cls.domain key.length (f.at 30 2) k.tenant
        (s.wrapKey Cls.domain (f.at 30 2) k.tenant key).1 (s.wrapKey Cls.domain (f.at 30 2) k.tenant key).2) fun t =>
        t.finish .sec d St.success)) ∧
  (∀ (s : State) (d : DescRef) (f : Fetched),
      s.startedAt .sec d Op.keyExport = some f →
      s.secAnswers = true →
      s.inOrder .sec d = true →
      s.lifeAllows true = true →
      s.sec.kek.isSome = true →
      f.len = 192 →
      f.at 28 1 = Cls.tenant →
      slotOk f = true →
      s.slotFull Cls.tenant (f.at 30 2) = true →
      exec (.keyExport d) s = .next (s.secWrite d f.dst (keyBlob Cls.tenant 64 (f.at 30 2) (f.at 30 2) (fieldAt (s.keyEntry (f.at 30 2)) 8 8)
        (slice (s.keyEntry (f.at 30 2)) 16 80)) fun t => t.finish .sec d St.success)) ∧
  (∀ (s : State) (d : DescRef) (f : Fetched) (k : KeySlot) (key : List Byte),
      s.startedAt .sec d Op.keyExport = some f →
      s.secAnswers = true →
      s.inOrder .sec d = true →
      s.lifeAllows true = true →
      s.sec.kek.isSome = true →
      f.len = 192 →
      f.at 28 1 ≠ Cls.tenant →
      slotOk f = true →
      k = s.slot (f.at 28 1) (f.at 30 2) →
      k.key = some key →
      exec (.keyExport d) s = .next (s.secWrite d f.dst (keyBlob (f.at 28 1) key.length (f.at 30 2) k.tenant
        (s.wrapKey (f.at 28 1) (f.at 30 2) k.tenant key).1 (s.wrapKey (f.at 28 1) (f.at 30 2) k.tenant key).2) fun t =>
        t.finish .sec d St.success)) ∧
  (∀ (s : State) (d : DescRef) (f : Fetched),
      s.startedAt .sec d Op.kekCreate = some f →
      s.secAnswers = true →
      s.inOrder .sec d = true →
      s.lifeAllows true = true →
      f.len = 128 →
      s.sec.kek = none →
      s.on SEC_RNG_STATUS.FAIL = false →
      exec (.kekCreate d) s = .next (s.drbg.secWrite d f.dst (s.sealedKek s.freeWord (s.freeBytes 32)) fun t =>
        (t.setKek s.freeWord (s.freeBytes 32)).finish .sec d St.success)) ∧
  (∀ (s : State) (d : DescRef) (f : Fetched) (b : List Byte),
      s.startedAt .sec d Op.kekUnseal = some f →
      s.secAnswers = true →
      s.inOrder .sec d = true →
      s.lifeAllows true = true →
      f.len = 128 →
      (s.dmaRead .sec f.src 128 (some d.ring)).toOption = some b →
      exec (.kekUnseal d) s = .next (match keyUnwrap s.storageKey (b.take 48) with
        | none => s.finish .sec d St.unwrapFail
        | some x => (s.setKek (fieldAt x 0 8) (x.drop 8)).finish .sec d St.success)) ∧
  (∀ (s : State) (d : DescRef) (f : Fetched),
      s.startedAt .sec d Op.pairOffer = some f →
      s.secAnswers = true →
      s.inOrder .sec d = true →
      s.lifeAllows true = true →
      f.len = 512 →
      s.on SEC_RNG_STATUS.FAIL = false →
      exec (.pairOffer d) s = .next (s.drbg.secWrite d f.dst (s.pairMessage (x448Public (s.freeBytes 56) ++ s.ownerDigests.flatten)) fun (t : State) =>
        ({ t with sec := { t.sec with pairKey := some (s.freeBytes 56) } } : State).finish .sec d St.success)) ∧
  (∀ (s : State) (d : DescRef) (f : Fetched) (certKey : Option (List (BitVec 8))) (m x : List Byte) (id : Nat) (kek : List Byte),
      s.startedAt .sec d Op.pairSend = some f →
      s.secAnswers = true →
      s.inOrder .sec d = true →
      s.lifeAllows true = true →
      f.len = 512 →
      s.on SEC_RNG_STATUS.FAIL = false →
      s.sec.kek = some (id, kek) →
      (s.dmaRead .sec f.src 512 (some d.ring)).toOption = some m →
      (s.dmaRead .sec (f.at 32 8) (f.at 40 4) (some d.ring)).toOption = some x →
      exec (.pairSend d certKey) s = .next (
        if pairSigned certKey m = true ∧ s.ownerDigests.any ((List.range 4).map fun i => slice m (56 + 64 * i) 64).contains = true then
          s.drbg.secWrite d f.dst (s.pairMessage (x448Public (s.freeBytes 56) ++ keyWrap (transferKey (x448 (s.freeBytes 56) (m.take 56))
            (m.take 56) (x448Public (s.freeBytes 56))) (leBytes 8 id ++ kek))) fun t => t.finish .sec d St.success
        else s.finish .sec d St.pairInvalid)) ∧
  (∀ (s : State) (d : DescRef) (f : Fetched) (certKey : Option (List (BitVec 8))) (m x priv : List Byte),
      s.startedAt .sec d Op.pairReceive = some f →
      s.secAnswers = true →
      s.inOrder .sec d = true →
      s.lifeAllows true = true →
      f.len = 512 →
      s.on SEC_RNG_STATUS.FAIL = false →
      s.sec.pairKey = some priv →
      (s.dmaRead .sec f.src 512 (some d.ring)).toOption = some m →
      (s.dmaRead .sec (f.at 32 8) (f.at 40 4) (some d.ring)).toOption = some x →
      exec (.pairReceive d certKey) s = .next (State.dropPairKey (
        match pairSigned certKey m, keyUnwrap (transferKey (x448 priv (m.take 56)) (x448Public priv) (m.take 56)) (slice m 56 48) with
        | true, some x => s.secWrite d f.dst (s.sealedKek (fieldAt x 0 8) (x.drop 8)) fun (t : State) =>
            (t.setKek (fieldAt x 0 8) (x.drop 8)).finish .sec d St.success
        | _, _ => s.finish .sec d St.pairInvalid)))

/-- Locks, attestation, certificates, lifecycle, entropy, the DRBG and JTAG. LOCK_SET locks every unit its mask names, in every state; LOCK_CLEAR outside DEPLOYED unlocks them and renews the nonce, in DEPLOYED with a token that passes; ATTEST writes the signed quote; CERT_READ writes a certificate; LIFECYCLE_ADVANCE by a step R386 names is accepted for the next power-up with its LIFECYCLE entry, into RMA with a token that passes; ENTROPY_HEALTH_FAIL sets FAIL and TEST with EV_ENTROPY_FAIL; DRBG_RESEED after 2^20 requests counts a reseed; JTAG_INSTRUCTION runs boundary scan and the like always and other instructions only while debug is open. Completion stated for: lockSet, lockClear, attest, certRead, lifecycleAdvance, entropyHealthFail, drbgReseed, jtagInstruction. -/
def Obligations.IslandLocksAttestationLifecycle : Prop :=
  (∀ (s : State) (d : DescRef) (f : Fetched),
      s.startedAt .sec d Op.lockSet = some f →
      s.secAnswers = true →
      s.inOrder .sec d = true →
      s.lifeAllows false = true →
      exec (.lockSet d) s = .next ((s.setLocks (f.at 48 8) 1).finish .sec d St.success)) ∧
  (∀ (s : State) (d : DescRef) (f : Fetched),
      s.startedAt .sec d Op.lockClear = some f →
      s.secAnswers = true →
      s.inOrder .sec d = true →
      s.lifeAllows false = true →
      s.rd SEC_STATUS.LIFECYCLE ≠ Life.deployed →
      exec (.lockClear d) s = .next ((s.newNonce.setLocks (f.at 48 8) 0).finish .sec d St.success)) ∧
  (∀ (s : State) (d : DescRef) (f : Fetched),
      s.startedAt .sec d Op.lockClear = some f →
      s.secAnswers = true →
      s.inOrder .sec d = true →
      s.lifeAllows false = true →
      s.rd SEC_STATUS.LIFECYCLE = Life.deployed →
      f.len = 256 →
      exec (.lockClear d) s = .next (s.newNonce.secRead d f.src 256 fun t =>
        if s.tokenOk t (f.at 48 8) (s.digestsAt 0x160 0x260) then (s.newNonce.setLocks (f.at 48 8) 0).finish .sec d St.success
        else s.newNonce.tokenRejected d)) ∧
  (∀ (s : State) (mask v : Nat) (u : UnitId),
      u ∈ allUnits →
      mask.testBit (4 * unitN u + unitK u) = true →
      v < 2 →
      (s.setLocks mask v).rd (UNIT_LOCK.LOCKED (unitBase u)) = v) ∧
  (∀ (s : State) (d : DescRef) (f : Fetched) (nonce : List Byte),
      s.startedAt .sec d Op.attest = some f →
      s.secAnswers = true →
      s.inOrder .sec d = true →
      s.lifeAllows true = true →
      f.len = 512 →
      1 ≤ f.at 28 1 →
      f.at 28 1 ≤ 64 →
      (s.dmaRead .sec f.src (f.at 28 1) (some d.ring)).toOption = some nonce →
      exec (.attest d) s = .next (s.secWrite d f.dst (s.quoteBody nonce ++ edSign s.attestKey (s.quoteBody nonce) ++ zeros 54) fun t =>
        t.finish .sec d St.success)) ∧
  (∀ (s : State) (d : DescRef) (f : Fetched),
      s.startedAt .sec d Op.certRead = some f →
      s.secAnswers = true →
      s.inOrder .sec d = true →
      s.lifeAllows false = true →
      f.at 28 1 ≤ 3 →
      exec (.certRead d) s = .next (s.draw.secWrite d f.dst (s.freeBytes f.len) fun t => t.finish .sec d St.success)) ∧
  (∀ (s : State) (d : DescRef) (f : Fetched),
      s.startedAt .sec d Op.lifecycleAdvance = some f →
      s.secAnswers = true →
      s.inOrder .sec d = true →
      s.lifeAllows false = true →
      s.rd SEC_STATUS.LIFECYCLE = Life.provisioned →
      f.at 28 1 = Life.deployed →
      f.len = 0 ∨ f.len = 256 →
      exec (.lifecycleAdvance d) s = .next (s.lifeAccept d Life.deployed 0)) ∧
  (∀ (s : State) (d : DescRef) (f : Fetched),
      s.startedAt .sec d Op.lifecycleAdvance = some f →
      s.secAnswers = true →
      s.inOrder .sec d = true →
      s.lifeAllows false = true →
      s.lifeStep (f.at 28 1) = true →
      f.at 28 1 ≠ Life.rma →
      f.len = 0 ∨ f.len = 256 →
      exec (.lifecycleAdvance d) s = .next (s.lifeAccept d (f.at 28 1) 0)) ∧
  (∀ (s : State) (d : DescRef) (f : Fetched),
      s.startedAt .sec d Op.lifecycleAdvance = some f →
      s.secAnswers = true →
      s.inOrder .sec d = true →
      s.lifeAllows false = true →
      s.lifeStep Life.rma = true →
      f.at 28 1 = Life.rma →
      f.len = 256 →
      exec (.lifecycleAdvance d) s = .next (s.secRead d f.src 256 fun t => if s.tokenOk t 0 (s.digestsAt 0x50 0x150) then s.lifeAccept d Life.rma 2
        else s.tokenRejected d)) ∧
  (∀ (s : State) (d : DescRef) (f : Fetched),
      s.startedAt .sec d Op.lifecycleAdvance = some f →
      s.secAnswers = true →
      s.inOrder .sec d = true →
      s.lifeAllows false = true →
      s.lifeStep (f.at 28 1) = false →
      exec (.lifecycleAdvance d) s = .next (s.finish .sec d St.lifecycleState)) ∧
  (∀ (s : State) (proportion : Bool),
      s.on SEC_RNG_STATUS.FAIL = false →
      exec (.entropyHealthFail proportion) s = .next (((s.wr SEC_RNG_STATUS.FAIL 1).wr SEC_RNG_STATUS.TEST
        (if proportion then 2 else 1)).raise Ev.entropyFail (some .sec) none [if proportion then 2 else 1])) ∧
  (∀ (s : State) (q : Sec),
      2 ^ 20 ≤ s.sec.drbgCount →
      q = { s.sec with drbgCount := 0 } →
      exec .drbgReseed s = .next (({ s with sec := q } : State).bump SEC_RNG_STATUS.RESEEDS 1)) ∧
  (∀ (s : State) (v : Nat) (q : Sec),
      s.on SEC_STATUS.DEBUG_OPEN = false →
      q = { s.sec with tap := some (.other v, false) } →
      exec (.jtagInstruction (.other v)) s = .next { s with sec := q }) ∧
  (∀ (s : State) (v : Nat) (q : Sec),
      s.on SEC_STATUS.DEBUG_OPEN = true →
      q = { s.sec with tap := some (.other v, true) } →
      exec (.jtagInstruction (.other v)) s = .next { s with sec := q }) ∧
  (∀ (s : State) (x : TapInsn) (ok : Bool) (q : Sec),
      (ok = match x with | .other _ => s.on SEC_STATUS.DEBUG_OPEN | _ => true) →
      q = { s.sec with tap := some (x, ok) } →
      exec (.jtagInstruction x) s = .next { s with sec := q }) ∧
  (∀ (s : State) (q : Sec),
      q = { s.sec with tap := some (.bypass, true) } →
      exec (.jtagInstruction .bypass) s = .next { s with sec := q })

/-- ENCRYPT and DECRYPT with the cached key, KEY_EVICT, a lane fault; entries, seals and anchors of the audit journal. ENCRYPT and DECRYPT that pass their checks and that a lane takes run AES-XTS over the bytes with the tweak of the descriptor where their tenant's key is cached, wait for its unwrap where it is not, or fail where there is none. KEY_EVICT drops the tenant's cached key. VEN_LANE_FAULT takes the lane out of service. AUDIT_ENTRY_WRITE with at least 16 entries free writes the oldest staged entry at PROD, advances PROD and chains PREV; with fewer it stays and EV_AUDIT_FULL is recorded once. AUDIT_SEAL_PERIOD and AUDIT_SEAL_COUNT make a SEAL when due; AUDIT_SHUTDOWN makes the final seal, an anchor too. Completion stated for: encrypt, decrypt, keyEvict, venLaneFault, auditEntryWrite, auditSealPeriod, auditSealCount, auditShutdown. -/
def Obligations.VeneerJobsAndTheAuditJournal : Prop :=
  (∀ (s : State) (d : DescRef) (f : Fetched) (key : List Byte) (t : State),
      s.startedAt .ven d Op.encrypt = some f →
      venCheck f = none →
      takesLane s.venTurn (.desc d) = true →
      s.cached f.tenant = some (key, t) →
      exec (.encrypt d) s = .next (match t.dmaRead .ven f.src f.len (some d.ring) with
        | .error e => t.finishDma .ven d e
        | .ok bs => match t.dmaWrite .ven f.dst (xts true key (slice f.img 32 16) bs) (some d.ring) with
          | .error e => t.finishDma .ven d e
          | .ok u => u.finish .ven d St.success)) ∧
  (∀ (s : State) (d : DescRef) (f : Fetched),
      s.startedAt .ven d Op.encrypt = some f →
      venCheck f = none →
      takesLane s.venTurn (.desc d) = true →
      s.cached f.tenant = none →
      exec (.encrypt d) s = .next (match s.keyMiss f.tenant (.desc d) with
        | .error e => (s.noteTable .ven (s.keyEntryAddr f.tenant) 128).finish .ven d e
        | .ok t => t)) ∧
  (∀ (s : State) (d : DescRef) (f : Fetched) (key : List Byte) (t : State),
      s.startedAt .ven d Op.decrypt = some f →
      venCheck f = none →
      takesLane s.venTurn (.desc d) = true →
      s.cached f.tenant = some (key, t) →
      exec (.decrypt d) s = .next (match t.dmaRead .ven f.src f.len (some d.ring) with
        | .error e => t.finishDma .ven d e
        | .ok bs => match t.dmaWrite .ven f.dst (xts false key (slice f.img 32 16) bs) (some d.ring) with
          | .error e => t.finishDma .ven d e
          | .ok u => u.finish .ven d St.success)) ∧
  (∀ (s : State) (d : DescRef) (f : Fetched),
      s.startedAt .ven d Op.decrypt = some f →
      venCheck f = none →
      takesLane s.venTurn (.desc d) = true →
      s.cached f.tenant = none →
      exec (.decrypt d) s = .next (match s.keyMiss f.tenant (.desc d) with
        | .error e => (s.noteTable .ven (s.keyEntryAddr f.tenant) 128).finish .ven d e
        | .ok t => t)) ∧
  (∀ (s : State) (d : DescRef) (f : Fetched),
      s.startedAt .ven d Op.keyEvict = some f →
      exec (.keyEvict d) s = .next ((s.evictKey f.tenant).finish .ven d St.success)) ∧
  (∀ (s : State) (lane : Fin 16),
      exec (.venLaneFault lane .idle) s = .next ((s.wrBit VEN_STATUS.LANE_FAULT lane true).raise Ev.venLaneFault (some .ven) (some lane.val) [lane.val])) ∧
  (∀ (s : State) (lane : Fin 16) (k : Nat),
      exec (.venLaneFault lane (.inline k)) s = .next (s.venLaneFault lane)) ∧
  (∀ (s : State) (lane : Fin 16) (d : DescRef) (f : Fetched),
      (s.venLaneFault lane).fetchedAt .ven d = some f →
      f.phase ≠ .fetched →
      exec (.venLaneFault lane (.desc d)) s = .next ((s.venLaneFault lane).finish .ven d St.unitFault)) ∧
  (∀ (s : State) (e : AudEntry) (rest : List AudEntry) (bs : List Byte) (q : Audit),
      s.aud.staged = e :: rest →
      s.audRingOk = true →
      16 ≤ s.audFree →
      s.aud.anchorDue = [] →
      bs = e.bytes s.auditKey s.aud.prev →
      q = { s.aud with staged := rest, prev := audDigest bs, fullSeen := false } →
      (s.dmaWrite .aud (s.rd AUD_RING.BASE * 4096 + s.rd AUD_IDX.PROD * 256) bs).toOption.isSome = true →
      ∃ t : State, s.dmaWrite .aud (s.rd AUD_RING.BASE * 4096 + s.rd AUD_IDX.PROD * 256) bs = .ok t ∧
        exec .auditEntryWrite s = .next (((t.setAud q).wr AUD_STATUS.STAGED rest.length).wr AUD_IDX.PROD ((s.rd AUD_IDX.PROD + 1) % s.audSize))) ∧
  (∀ (s : State) (e : AudEntry) (rest : List AudEntry) (bs : List Byte) (t v : State) (q : Audit),
      s.aud.staged = e :: rest →
      s.audRingOk = true →
      16 ≤ s.audFree →
      bs = e.bytes s.auditKey s.aud.prev →
      (s.dmaWrite .aud (s.rd AUD_RING.BASE * 4096 + s.rd AUD_IDX.PROD * 256) bs).toOption = some t →
      (q = { t.aud with staged := rest, prev := audDigest bs, fullSeen := false, anchor := if t.aud.anchorDue.contains e.seq then some (e.seq, audDigest bs) else t.aud.anchor, anchorDue := t.aud.anchorDue.filter (· != e.seq) }) →
      (v = if t.aud.anchorDue.contains e.seq && q.anchorDue.isEmpty then (t.setAud q).wr SEC_CTL.SHUTDOWN 0 else t.setAud q) →
      exec .auditEntryWrite s = .next ((v.wr AUD_STATUS.STAGED rest.length).wr AUD_IDX.PROD ((s.rd AUD_IDX.PROD + 1) % v.audSize))) ∧
  (∀ (s : State) (e : AudEntry) (rest : List AudEntry) (q : Audit),
      s.aud.staged = e :: rest →
      s.audRingOk = true →
      s.audFree < 16 →
      s.aud.fullSeen = false →
      q = { s.aud with fullSeen := true } →
      exec .auditEntryWrite s = .next ((s.setAud q).raise Ev.auditFull (some .aud))) ∧
  (∀ (s : State),
      s.due s.aud.sealDue = true →
      s.auditRoom = true →
      exec .auditSealPeriod s = .next (s.seal false)) ∧
  (∀ (s : State),
      s.rd AUD_SEAL_CFG.ENTRIES ≤ s.aud.sinceSeal →
      s.auditRoom = true →
      exec .auditSealCount s = .next (s.seal false)) ∧
  (∀ (s : State) (t : State),
      s.auditRoom = true →
      t = s.seal false →
      s.aud.sealsSince < 63 →
      t.aud.nextSeq = s.aud.nextSeq + 1 ∧ t.aud.firstSeq = s.aud.nextSeq + 1 ∧ t.aud.sinceSeal = 0 ∧ t.aud.sealsSince = s.aud.sealsSince + 1 ∧
        t.aud.staged.length = s.aud.staged.length + 1 ∧ t.mem = s.mem) ∧
  (∀ (s : State) (origin : Origin),
      s.on SEC_CTL.SHUTDOWN = false →
      s.auditRoom = true →
      s.originThere origin.toNat = true →
      s.audited false origin.toNat = false →
      exec (.auditShutdown origin) s = .next ((s.wr SEC_CTL.SHUTDOWN 1).seal true)) ∧
  (∀ (s : State) (origin : Origin),
      s.on SEC_CTL.SHUTDOWN = false →
      s.auditRoom = true →
      s.originThere origin.toNat = true →
      s.audited false origin.toNat = true →
      exec (.auditShutdown origin) s = .next (s.journaled ((s.wr SEC_CTL.SHUTDOWN 1).seal true) origin SEC_CTL.SHUTDOWN 1))

/-- What the Carcase's ring descriptors do when their operands are in range. ENCODE writes P parity columns of K data columns, DECODE the wanted columns solved from the first K available ones, PATCH_DELTA the parities of a replaced column; VERIFY answers the finding of the syndromes. LOCATE answers the blades of a stripe's columns, four bits each, the LOST mask and the width. INTENT_ACQUIRE completes when its region's bit is durable, INTENT_RELEASE gives one back; REBUILD_CTL takes an action the blade's state allows and answers its state, or completes with REBUILD_STATE; GEN_SET writes or releases an entry and makes it current where asked; RESYNC visits the regions of its range with frames. Completion stated for: encode, decode, patchDelta, verify, locate, intentAcquire, intentRelease, rebuildCtl, genSet, resync. -/
def Obligations.CarcaseDescriptors : Prop :=
  (∀ (s : State) (d : DescRef) (f : Fetched),
      s.startedAt .carc d Op.encode = some f →
      carcShape f = none →
      s.carcLane = true →
      exec (.encode d) s = .next (s.carcJob d f (f.at 28 1 + f.at 29 1) (fun _ => true) (List.range (f.at 28 1)) fun bs =>
        ((List.range (f.at 29 1)).map fun i => (f.at 28 1 + i, parityOf i f.len bs), 0, 0))) ∧
  (∀ (s : State) (d : DescRef) (f : Fetched),
      s.startedAt .carc d Op.decode = some f →
      carcShape f = none →
      s.carcLane = true →
      f.at 32 2 < 2 ^ (f.at 28 1 + f.at 29 1) →
      f.at 34 2 < 2 ^ (f.at 28 1 + f.at 29 1) →
      f.at 32 2 &&& f.at 34 2 = 0 →
      popCount (f.at 34 2) 16 ≤ f.at 29 1 →
      f.at 28 1 ≤ popCount (f.at 32 2) 16 →
      exec (.decode d) s = .next (s.carcJob d f (f.at 28 1 + f.at 29 1) (fun i => (f.at 32 2).testBit i || (f.at 34 2).testBit i)
        (((List.range (f.at 28 1 + f.at 29 1)).filter (f.at 32 2).testBit).take (f.at 28 1)) fun bs =>
          (((List.range (f.at 28 1 + f.at 29 1)).filter (f.at 34 2).testBit).map fun c => (c, columnOf (f.at 28 1) f.len
            (solveData (f.at 28 1) ((((List.range (f.at 28 1 + f.at 29 1)).filter (f.at 32 2).testBit).take (f.at 28 1)).zip bs)) c),
           ((List.range (f.at 28 1 + f.at 29 1)).filter (f.at 34 2).testBit).length, 0))) ∧
  (∀ (s : State) (d : DescRef) (f : Fetched),
      s.startedAt .carc d Op.decode = some f →
      carcShape f = none →
      s.carcLane = true →
      f.at 32 2 < 2 ^ (f.at 28 1 + f.at 29 1) →
      f.at 34 2 < 2 ^ (f.at 28 1 + f.at 29 1) →
      f.at 32 2 &&& f.at 34 2 = 0 →
      popCount (f.at 34 2) 16 ≤ f.at 29 1 →
      popCount (f.at 32 2) 16 < f.at 28 1 →
      exec (.decode d) s = .next (s.finish .carc d St.decodeInsufficient)) ∧
  (∀ (s : State) (d : DescRef) (f : Fetched),
      s.startedAt .carc d Op.patchDelta = some f →
      carcShape f = none →
      s.carcLane = true →
      f.at 30 1 < f.at 28 1 →
      exec (.patchDelta d) s = .next (s.carcJob d f (2 + 2 * f.at 29 1) (fun _ => true) (List.range (2 + f.at 29 1)) fun bs =>
        ((List.range (f.at 29 1)).map fun i => (2 + f.at 29 1 + i, xorBytes (bs.getD (2 + i) [])
          (gfScale (gfCoef i (f.at 30 1)) (xorBytes (bs.getD 0 []) (bs.getD 1 [])))), 0, 0))) ∧
  (∀ (s : State) (d : DescRef) (f : Fetched),
      s.startedAt .carc d Op.verify = some f →
      carcShape f = none →
      s.carcLane = true →
      exec (.verify d) s = .next (s.carcJob d f (f.at 28 1 + f.at 29 1) (fun _ => true) (List.range (f.at 28 1 + f.at 29 1)) fun bs =>
        ([], verifyInfo (f.at 28 1) (findingOf (f.at 28 1) ((List.range (f.at 29 1)).map (syndrome (f.at 28 1) f.len bs))),
          firstWrong f.len ((List.range (f.at 29 1)).map (syndrome (f.at 28 1) f.len bs))))) ∧
  (∀ (s : State) (d : DescRef) (f : Fetched),
      s.startedAt .carc d Op.locate = some f →
      f.at 32 4 < 2 ^ 29 →
      f.at 36 1 ≤ 31 →
      f.at 28 1 ≤ 15 →
      s.on (CARC_POOL.VALID (f.at 28 1)) = true →
      genValid (s.genEntry (f.at 28 1) (f.at 29 1)) = true →
      exec (.locate d) s = .next (s.finish .carc d St.success
        (((s.lostCols (f.at 28 1) (f.at 29 1) (f.at 32 4) (f.at 36 1)).map fun c => 2 ^ c).sum + genW (s.genEntry (f.at 28 1) (f.at 29 1)) * 2 ^ 16)
        (((s.line (f.at 28 1) (f.at 29 1) (f.at 32 4) (f.at 36 1)).zipIdx.map fun (x : Nat × Nat) => x.1 * 2 ^ (4 * x.2)).sum))) ∧
  (∀ (s : State) (d : DescRef) (f : Fetched) (ms : List Medium),
      s.startedAt .carc d Op.intentAcquire = some f →
      s.intentCheck (f.at 28 1) (f.at 29 1) (f.at 32 4) = none →
      s.carc.opens.length < 2 ^ s.rd CARC_INTENT_CFG.LOG2_ENTRIES →
      s.carc.bits.contains (f.at 29 1, f.at 28 1, regionOf (f.at 32 4)) = true →
      exec (.intentAcquire d ms) s = .next (s.scripted ms fun t => (t.acquire (f.at 29 1) (f.at 28 1) (f.at 32 4)).2.finish .carc d St.success 0)) ∧
  (∀ (s : State) (d : DescRef) (f : Fetched) (ms : List Medium),
      s.startedAt .carc d Op.intentAcquire = some f →
      s.intentCheck (f.at 28 1) (f.at 29 1) (f.at 32 4) = none →
      s.carc.opens.length < 2 ^ s.rd CARC_INTENT_CFG.LOG2_ENTRIES ∨ (Tab.get? s.carc.opens (openKey (f.at 29 1) (f.at 28 1) (regionOf (f.at 32 4)))).isSome = true →
      exec (.intentAcquire d ms) s = .next (s.scripted ms fun t => match t.acquire (f.at 29 1) (f.at 28 1) (f.at 32 4) with
        | (some n, u) => u.finish .carc d St.success n
        | (none, u) => u)) ∧
  (∀ (s : State) (d : DescRef) (f : Fetched),
      s.startedAt .carc d Op.intentRelease = some f →
      s.intentCheck (f.at 28 1) (f.at 29 1) (f.at 32 4) = none →
      (Tab.get? s.carc.opens (openKey (f.at 29 1) (f.at 28 1) (regionOf (f.at 32 4)))).isSome = true →
      exec (.intentRelease d) s = .next ((s.giveBack (f.at 29 1) (f.at 28 1) (f.at 32 4)).2.finish .carc d St.success)) ∧
  (∀ (s : State) (d : DescRef) (f : Fetched) (t : State),
      s.startedAt .carc d Op.rebuildCtl = some f →
      f.at 28 1 ≤ 15 →
      f.at 29 1 ≤ 15 →
      s.on (CARC_POOL.VALID (f.at 28 1)) = true →
      (s.rd (CARC_POOL.MEMBERS (f.at 28 1))).testBit (f.at 29 1) = true →
      f.at 30 1 = 1 →
      s.carc.running.contains (f.at 29 1) = true →
      s.on (CARC_BLADE.PAUSED (f.at 29 1)) = false →
      t = s.wr (CARC_BLADE.PAUSED (f.at 29 1)) 1 →
      exec (.rebuildCtl d) s = .next (t.finish .carc d St.success (t.carcSt (f.at 29 1)))) ∧
  (∀ (s : State) (d : DescRef) (f : Fetched) (t : State),
      s.startedAt .carc d Op.rebuildCtl = some f →
      f.at 28 1 ≤ 15 →
      f.at 29 1 ≤ 15 →
      s.on (CARC_POOL.VALID (f.at 28 1)) = true →
      (s.rd (CARC_POOL.MEMBERS (f.at 28 1))).testBit (f.at 29 1) = true →
      s.rebuildAction (f.at 29 1) (f.at 30 1) = some t →
      exec (.rebuildCtl d) s = .next (t.finish .carc d St.success (t.carcSt (f.at 29 1)))) ∧
  (∀ (s : State) (d : DescRef) (f : Fetched),
      s.startedAt .carc d Op.rebuildCtl = some f →
      f.at 28 1 ≤ 15 →
      f.at 29 1 ≤ 15 →
      s.on (CARC_POOL.VALID (f.at 28 1)) = true →
      (s.rd (CARC_POOL.MEMBERS (f.at 28 1))).testBit (f.at 29 1) = true →
      s.rebuildAction (f.at 29 1) (f.at 30 1) = none →
      exec (.rebuildCtl d) s = .next (s.finish .carc d St.rebuildState (s.carcSt (f.at 29 1)))) ∧
  (∀ (s : State) (d : DescRef) (f : Fetched) (e : List Byte) (t : State),
      s.startedAt .carc d Op.genSet = some f →
      f.len = 16 →
      f.at 28 1 ≤ 15 →
      s.on (CARC_POOL.VALID (f.at 28 1)) = true →
      (s.dmaRead .carc f.src 16 (some d.ring)).toOption = some e →
      genValid (s.genEntry (f.at 28 1) (f.at 29 1)) = false ∨ (f.at 30 1).testBit 1 = true →
      s.genEntryOk (f.at 28 1) e = true →
      (s.dmaWrite .carc (s.genAddr (f.at 28 1) (f.at 29 1)) e).toOption = some t →
      exec (.genSet d) s = .next ((if (f.at 30 1).testBit 0 then t.forgetRetired.makeCurrent (f.at 28 1) (f.at 29 1) else t.forgetRetired).finish
        .carc d St.success)) ∧
  (∀ (s : State) (d : DescRef) (f : Fetched) (e : List Byte) (t : State),
      s.startedAt .carc d Op.genSet = some f →
      f.len = 16 →
      f.at 28 1 ≤ 15 →
      s.on (CARC_POOL.VALID (f.at 28 1)) = true →
      (s.dmaRead .carc f.src 16 (some d.ring)).toOption = some e →
      (f.at 30 1).testBit 1 = true →
      (f.at 30 1).testBit 0 = false →
      genValid e = false →
      (s.dmaWrite .carc (s.genAddr (f.at 28 1) (f.at 29 1)) (zeros 16)).toOption = some t →
      exec (.genSet d) s = .next (t.forgetRetired.finish .carc d St.success)) ∧
  (∀ (s : State) (d : DescRef) (f : Fetched) (ms : List Medium),
      s.startedAt .carc d Op.resync = some f →
      s.intentCheck (f.at 28 1) (f.at 29 1) 0 = none →
      s.cell.shards = [] →
      exec (.resync d ms) s = .next (s.scripted ms fun t => (t.raise Ev.resyncDone (some .carc) (some (f.at 29 1)) [f.at 29 1]).finish .carc d
        St.success 0 0)) ∧
  (∀ (s : State) (d : DescRef) (f : Fetched) (ms : List Medium),
      s.startedAt .carc d Op.resync = some f →
      s.intentCheck (f.at 28 1) (f.at 29 1) 0 = none →
      exec (.resync d ms) s = .next (s.scripted ms fun t =>
        ((t.resyncRegions (f.at 29 1) (f.at 28 1) (t.rangeRegions (f.at 29 1) (f.at 28 1) (f.at 32 4) (f.at 36 4))).2.raise Ev.resyncDone (some .carc)
          (some (f.at 29 1)) [f.at 29 1]).finish .carc d St.success (t.rangeRegions (f.at 29 1) (f.at 28 1) (f.at 32 4) (f.at 36 4)).length
            (t.resyncRegions (f.at 29 1) (f.at 28 1) (t.rangeRegions (f.at 29 1) (f.at 28 1) (f.at 32 4) (f.at 36 4))).1))

/-- Rebuild, resynchronisation, the patrol, the grace time, the intent flush, a chunk's read timeout and a lane fault. REBUILD_EN_SET starts every queued rebuild and is journaled; REBUILD_STRIPE of a running, unpaused rebuild restores its next stripe; GRACE_EXPIRY makes an ABSENT blade FAILED; RESYNC_REGION resynchronises a dirty region of an OWNED shard and records EV_RESYNC_DONE after its shard's last; INTENT_FLUSH programs the bitmap pages with bits that may be cleared; PATROL_STRIPE visits the next stripe of the pass, or ends the pass; CARC_LANE_FAULT takes the lane out of service and fails the descriptor in it; CHUNK_READ_TIMEOUT reads around the late chunk. Completion stated for: rebuildEnSet, rebuildStripe, graceExpiry, intentFlush, patrolStripe, resyncRegion, carcLaneFault, chunkReadTimeout. -/
def Obligations.CarcaseRebuildPatrolAndTimers : Prop :=
  (∀ (s : State) (origin : Origin),
      s.admits .carc origin = true →
      exec (.rebuildEnSet origin) s = .next (s.journaled (s.carc.queued.foldl State.startRebuild (s.wr CARC_CTL.REBUILD_EN 1)) origin CARC_CTL.REBUILD_EN 1)) ∧
  (∀ (s : State) (b : Fin 16) (ms : List Medium),
      s.on CARC_CTL.EN = true →
      s.carc.running.contains b.val = true →
      s.on (CARC_BLADE.PAUSED b) = false →
      exec (.rebuildStripe b ms) s = .next (s.scripted ms fun (s' : State) => ((match s'.nextStripe b with
        | none => s'
        | some (sh, w, st, _) => (s'.rebuildStripe sh w st (if s'.carcSt b = Cbs.exhausted then some b.val else none)).countStripe b sh w).countRebuild
          b).retireDone b)) ∧
  (∀ (s : State) (b : Fin 16),
      s.carcSt b = Cbs.absent →
      s.due (Tab.get? s.carc.grace b) = true →
      exec (.graceExpiry b) s = .next (s.bladeLost b Cbs.failed)) ∧
  (∀ (s : State) (b : Fin 16),
      s.carcSt b ≠ Cbs.absent →
      exec (.graceExpiry b) s = .next s) ∧
  (∀ (s : State) (ms : List Medium),
      s.due s.carc.flushAt = true →
      s.carc.bits = [] →
      exec (.intentFlush ms) s = .next (s.scripted ms fun t => t.setCarc { t.carc with flushAt := none })) ∧
  (∀ (s : State) (ms : List Medium),
      s.due s.carc.flushAt = true →
      exec (.intentFlush ms) s = .next (s.scripted ms fun t => (t.setCarc { t.carc with flushAt := none }).flushPages.foldl State.flushPage
        (t.setCarc { t.carc with flushAt := none }))) ∧
  (∀ (s : State) (ms : List Medium) (x : Nat × Nat × Nat) (t u : State),
      s.on CARC_CTL.EN = true →
      s.on CARC_CTL.PATROL_EN = true →
      s.patrolStripes[s.carc.patrolAt]? = some x →
      t = s.setCarc { s.carc with patrolAt := s.carc.patrolAt + 1 } →
      (u = if t.rebuilding x then t.setCarc { t.carc with skipped := t.carc.skipped ++ [x] } else t.scripted ms fun v => v.patrolStripe x.1 x.2.1 x.2.2) →
      exec (.patrolStripe ms) s = .next (if u.carc.patrolAt = s.patrolStripes.length ∧ u.carc.skipped.isEmpty then u.patrolEnd else u)) ∧
  (∀ (s : State) (ms : List Medium) (x : Nat × Nat × Nat) (rest : List (Nat × Nat × Nat)) (u : State),
      s.on CARC_CTL.EN = true →
      s.on CARC_CTL.PATROL_EN = true →
      s.patrolStripes[s.carc.patrolAt]? = none →
      s.carc.skipped = x :: rest →
      (u = (s.setCarc { s.carc with skipped := rest }).scripted ms fun v => v.patrolStripe x.1 x.2.1 x.2.2) →
      exec (.patrolStripe ms) s = .next (if rest.isEmpty then u.patrolEnd else u)) ∧
  (∀ (s : State) (ms : List Medium),
      s.on CARC_CTL.EN = true →
      s.on CARC_CTL.PATROL_EN = true →
      s.patrolStripes ≠ [] →
      s.patrolStripes[s.carc.patrolAt]? = none →
      s.carc.skipped = [] →
      exec (.patrolStripe ms) s = .next ((s.setCarc { s.carc with patrolAt := 0, skipped := [] }).bump CARC_PATROL_STATUS.PASSES 1)) ∧
  (∀ (s : State) (ms : List Medium) (x : Nat × Nat × Nat) (t : State),
      s.on CARC_CTL.EN = true →
      s.on CARC_CTL.PATROL_EN = true →
      s.patrolStripes[s.carc.patrolAt]? = some x →
      s.carc.patrolAt + 1 < s.patrolStripes.length →
      t = s.setCarc { s.carc with patrolAt := s.carc.patrolAt + 1 } →
      t.rebuilding x = true →
      exec (.patrolStripe ms) s = .next (t.setCarc { t.carc with skipped := t.carc.skipped ++ [x] })) ∧
  (∀ (s : State) (shard : Fin 256) (pool : Fin 16) (region : Nat) (ms : List Medium),
      s.on CARC_CTL.EN = true →
      s.rd (PAR_SHARD.STATE shard) = Pst.owned →
      s.carc.bits.contains (shard.val, pool.val, region) = true →
      exec (.resyncRegion shard pool region ms) s = .next (s.scripted ms fun t =>
        if (t.carc.dirty.any fun x => x.1 == shard.val) = true ∧ ¬ ((t.resyncRegion shard pool region).2.carc.dirty.any fun x => x.1 == shard.val) = true
        then (t.resyncRegion shard pool region).2.raise Ev.resyncDone (some .carc) (some shard.val) [shard.val]
        else (t.resyncRegion shard pool region).2)) ∧
  (∀ (s : State) (lane : Fin 16),
      exec (.carcLaneFault lane .idle) s = .next ((s.wrBit CARC_STATUS.LANE_FAULT lane true).raise Ev.carcLaneFault (some .carc) (some lane.val) [lane.val])) ∧
  (∀ (s : State) (lane : Fin 16) (k : Nat),
      exec (.carcLaneFault lane (.inline k)) s = .next (s.carcLaneFault lane)) ∧
  (∀ (s : State) (lane : Fin 16) (d : DescRef) (f : Fetched),
      (s.carcLaneFault lane).fetchedAt .carc d = some f →
      f.phase ≠ .fetched →
      exec (.carcLaneFault lane (.desc d)) s = .next ((s.carcLaneFault lane).finish .carc d St.unitFault)) ∧
  (∀ (s : State) (k i : Nat) (ms : List Medium) (c : NvmeCmd) (b : Blk) (by_ : Nat),
      s.blk k i = some (c, b) →
      b.step = .chunk by_ →
      s.passed by_ = true →
      exec (.chunkReadTimeout k i ms) s = .next (s.scripted ms fun t => t.readMedium k i))

/-- The Cellar programs journal pages, fails late replicas, mirrors, folds, checkpoints, collects garbage, levels wear and reports health. For a READY shard of an enabled Cellar: JOURNAL_PAGE_PROGRAM of a full page, or with HOLD 0, and JOURNAL_HOLD_EXPIRY of a due page program the lane's next page; REPLICA_TIMEOUT fails a replica issued TIMEOUT ago; REMIRROR mends the lane and mirrors what it lacks; FOLD and FOLD_AGE_EXPIRY fold a wheel's worth, or what is AGE old; CHECKPOINT_PERIOD_EXPIRY checkpoints, CHECKPOINT_LATE_EXPIRY raises EV_CKPT_LATE once; GC_VICTIM_COLLECT empties the victim, WEAR_LEVEL_CHECK the least-worn band; WHEEL_RECLAIM refolds a wheel with few live bytes; HEALTH_PERIOD_EXPIRY, every PERIOD units of 10 management ticks, makes an entry for each attached blade. Completion stated for: journalPageProgram, journalHoldExpiry, replicaTimeout, remirror, fold, foldAgeExpiry, checkpointPeriodExpiry, checkpointLateExpiry, gcVictimCollect, wearLevelCheck, wheelReclaim, healthPeriodExpiry. -/
def Obligations.CellarOwnWork : Prop :=
  (∀ (s : State) (shard : Fin 256) (lane : Fin 8) (ms : List Medium) (l : Lane),
      Tab.get? (s.cshard shard).lanes lane.val = some l →
      s.on CELL_CTL.EN = true →
      s.cellSt shard = Cst.ready ∨ s.cellSt shard = Cst.releasing →
      s.rd CELL_JRN_CFG.HOLD = 0 ∨ s.pageFull shard l = true →
      exec (.journalPageProgram shard lane ms) s = .next (s.scripted ms fun t => t.programLane shard lane)) ∧
  (∀ (s : State) (shard : Fin 256) (lane : Fin 8) (ms : List Medium) (l : Lane),
      Tab.get? (s.cshard shard).lanes lane.val = some l →
      s.on CELL_CTL.EN = true →
      s.cellSt shard = Cst.ready ∨ s.cellSt shard = Cst.releasing →
      s.due l.holdUntil = true →
      exec (.journalHoldExpiry shard lane ms) s = .next (s.scripted ms fun t => t.programLane shard lane)) ∧
  (∀ (s : State) (shard : Fin 256) (page : Nat) (blade : Fin 16) (ms : List Medium) (x : JPage) (r : PageLoc × RepSt),
      s.jpage shard page = some x →
      x.reps.find? (s.replicaLate blade) = some r →
      exec (.replicaTimeout shard page blade ms) s = .next (s.scripted ms fun t => t.failReplica shard page r.1 3)) ∧
  (∀ (s : State) (shard : Fin 256) (lane : Fin 8) (ms : List Medium),
      s.cellReady shard = true →
      exec (.remirror shard lane ms) s = .next (s.scripted ms fun (s' : State) => match Tab.get? ((s'.mendLane shard lane).cshard shard).lanes lane.val with
        | none => s'.mendLane shard lane
        | some l => if ((s'.mendLane shard lane).mirrorNeeds shard lane l).isEmpty then s'.mendLane shard lane
          else (((s'.mendLane shard lane).mirrorNeeds shard lane l).foldl (fun (s : State) (p : Nat × JPage) => s.mirrorPage shard p.1)
            (s'.mendLane shard lane)).raise Ev.remirrorDone (some .cell) (some shard.val) [shard.val, lane.val])) ∧
  (∀ (s : State) (shard : Fin 256) (pool : Fin 16) (ms : List Medium),
      s.cellReady shard = true →
      (s.wheelCap pool (s.rd (CARC_POOL.CUR_GEN pool)) ≤ ((s.foldable shard pool).map fun e => e.2.payload.length).sum) →
      exec (.fold shard pool ms) s = .next (s.scripted ms fun (s' : State) => (s'.foldPool shard pool).2.sealAll shard none none (s'.foldPool shard pool).1.toList)) ∧
  (∀ (s : State) (shard : Fin 256) (pool : Fin 16) (ms : List Medium) (e : Nat × JRec) (es : List (Nat × JRec)),
      s.cellReady shard = true →
      s.foldable shard pool = e :: es →
      s.passed (e.2.at_ + s.rd CELL_FOLD_CFG.AGE * mgmtTick) = true →
      exec (.foldAgeExpiry shard pool ms) s = .next (s.scripted ms fun (s' : State) => (s'.foldPool shard pool).2.sealAll shard none none (s'.foldPool shard pool).1.toList)) ∧
  (∀ (s : State) (shard : Fin 256) (ms : List Medium),
      s.cellReady shard = true →
      s.due (s.cshard shard).ckptAt = true ∨ s.rd CELL_CKPT_CFG.TAIL_MIB * 2 ^ 20 < (s.cshard shard).cutBytes →
      exec (.checkpointPeriodExpiry shard ms) s = .next (s.scripted ms fun t => (t.ckptStep shard).2)) ∧
  (∀ (s : State) (shard : Fin 256),
      s.due (s.cshard shard).ckptDue = true →
      exec (.checkpointLateExpiry shard) s = .next ((s.setCshard shard { s.cshard shard with ckptDue := none }).raise Ev.ckptLate (some .cell)
        (some shard.val) [shard.val])) ∧
  (∀ (s : State) (blade : Fin 16) (shard : Fin 256) (ms : List Medium) (n : Nat) (y : Band),
      s.gcMay shard = true →
      s.victim blade shard = some (n, y) →
      100 * y.liveUnits ≤ s.rd CELL_GC_CFG.VICTIM_LIVE * s.bandPlaces blade .main ∨ s.freeBands blade < s.rd CELL_GC_CFG.GC_LOW →
      exec (.gcVictimCollect blade shard ms) s = .next (s.scripted ms fun t => (((t.emptyMain blade n).2).emptyBand blade n).countBands blade)) ∧
  (∀ (s : State) (blade : Fin 16) (ms : List Medium),
      s.due (s.cblade blade).wlAt = true →
      s.on CELL_CTL.WL_EN = false →
      exec (.wearLevelCheck blade ms) s = .next (s.setCblade blade { s.cblade blade with wlAt := some (s.inMgmt (s.rd CELL_GC_CFG.WL_PERIOD)) })) ∧
  (∀ (s : State) (blade : Fin 16) (ms : List Medium) (t : State) (n hi : Nat) (y : Band),
      s.due (s.cblade blade).wlAt = true →
      t = s.setCblade blade { s.cblade blade with wlAt := some (s.inMgmt (s.rd CELL_GC_CFG.WL_PERIOD)) } →
      t.wearSpread blade = (some (n, y), hi) →
      t.on CELL_CTL.WL_EN = true →
      t.rd CELL_GC_CFG.WL_GAP < hi - y.ec →
      t.cellReady y.shard = true →
      exec (.wearLevelCheck blade ms) s = .next (t.scripted ms fun t' => (((t'.emptyMain blade n).2).emptyBand blade n).countBands blade)) ∧
  (∀ (s : State) (blade : Fin 16) (ms : List Medium) (t : State) (m : Option (Nat × Band)) (hi : Nat),
      s.due (s.cblade blade).wlAt = true →
      t = s.setCblade blade { s.cblade blade with wlAt := some (s.inMgmt (s.rd CELL_GC_CFG.WL_PERIOD)) } →
      t.wearSpread blade = (m, hi) →
      (∀ x, m = some x → t.on CELL_CTL.WL_EN = false ∨ hi - x.2.ec ≤ t.rd CELL_GC_CFG.WL_GAP ∨ t.cellReady x.2.shard = false) →
      exec (.wearLevelCheck blade ms) s = .next t) ∧
  (∀ (s : State) (shard : Fin 256) (wheel : Nat) (ms : List Medium) (w : Wheel),
      s.wheel shard wheel = some w →
      s.gcMay shard = true →
      s.mayReclaim shard wheel = true →
      s.reclaiming shard wheel = false →
      100 * w.liveBytes < s.rd CELL_GC_CFG.WHEEL_LIVE * s.wheelCap w.pool w.gen →
      exec (.wheelReclaim shard wheel ms) s = .next (s.scripted ms fun t => (t.reclaim shard wheel none).2)) ∧
  (∀ (s : State),
      s.on CELL_CTL.EN = true →
      s.due s.cell.healthAt = true →
      exec .healthPeriodExpiry s = .next ((List.range 16).foldl (fun (s : State) b => if s.rd (CELL_BLADE.STATE b) = 0 then s else s.periodic b)
        (s.setCell { s.cell with healthAt := some (s.inMgmt (10 * s.rd CELL_HEALTH_RING.PERIOD)) })))

/-- What the Cellar's descriptors do when their operands are in range. BLADE_ATTACH of a READY blade of a supported geometry erases its deferred bands, or with ALL wipes it, and attaches it, asking the peer where its bands or its consent are needed; BLADE_DETACH of a blade without live content detaches it; LANE_SET sets a lane's blades, or removes a lane and gives its waiting records to the others; SHARD_LOAD of an ABSENT shard under the lease's epoch loads it and makes it READY, or fails; SHARD_RELEASE of a drained shard makes a final checkpoint and drops it; CHECKPOINT, FOLD_NOW and RECLAIM do at once what the timers do; HEALTH_NOW makes a blade's entry; each in the wrong state completes with its status. Completion stated for: bladeAttach, bladeDetach, laneSet, shardLoad, shardRelease, checkpoint, foldNow, reclaim, healthNow. -/
def Obligations.CellarDescriptors : Prop :=
  (∀ (s : State) (d : DescRef) (f : Fetched) (ms : List Medium),
      s.startedAt .cell d Op.bladeAttach = some f →
      f.at 28 1 ≤ 15 →
      (f.at 29 1).testBit 0 = false →
      s.bldSt (f.at 28 1) = Bst.ready →
      (s.bladeOr (f.at 28 1)).id.fits = true →
      s.ten.maint = [] →
      s.defersOf (f.at 28 1) = [] →
      (s.cblade (f.at 28 1)).defers = [] →
      exec (.bladeAttach d ms) s = .next (s.scripted ms fun t => t.attached (f.at 28 1) d 0)) ∧
  (∀ (s : State) (d : DescRef) (f : Fetched) (ms : List Medium),
      s.startedAt .cell d Op.bladeAttach = some f →
      f.at 28 1 ≤ 15 →
      s.bldSt (f.at 28 1) = Bst.ready →
      (s.bladeOr (f.at 28 1)).id.fits = true →
      ((s.ten.maint.any fun x => x.2 == d) = false) →
      (f.at 29 1).testBit 0 = false →
      exec (.bladeAttach d ms) s = .next (s.scripted ms fun t =>
        if ((t.eraseDeferred (f.at 28 1)).2.peerDefers (f.at 28 1)).isEmpty then (t.eraseDeferred (f.at 28 1)).2.attached (f.at 28 1) d (t.eraseDeferred (f.at 28 1)).1
        else if (t.eraseDeferred (f.at 28 1)).2.rd TEN_STATUS.STATE = Tst.active then
          ((t.eraseDeferred (f.at 28 1)).2.peerDefers (f.at 28 1)).foldl (fun (u : State) e => u.maintAsk d fun g => .deferErase g (f.at 28 1) e.1 e.2)
            ((t.eraseDeferred (f.at 28 1)).2.wr (CELL_BLADE.STATE (f.at 28 1)) 3)
        else (t.eraseDeferred (f.at 28 1)).2)) ∧
  (∀ (s : State) (d : DescRef) (f : Fetched) (ms : List Medium),
      s.startedAt .cell d Op.bladeAttach = some f →
      f.at 28 1 ≤ 15 →
      s.bldSt (f.at 28 1) = Bst.ready →
      (s.bladeOr (f.at 28 1)).id.fits = true →
      ((s.ten.maint.any fun x => x.2 == d) = false) →
      (f.at 29 1).testBit 0 = true →
      exec (.bladeAttach d ms) s = .next (s.scripted ms fun t => match t.bladeSync (f.at 28 1) ⟨bcpImg Bop.wipe 0 0 0 0 0 0 [], [], []⟩ with
        | (a, u) => if a.status = St.success then (u.wiped (f.at 28 1)).2.attached (f.at 28 1) d (u.wiped (f.at 28 1)).1
          else if a.status = St.wipeNoConsent ∧ u.rd TEN_STATUS.STATE = Tst.active ∧ (u.hport (f.at 28 1)).attach ≠ some d then
            ((u.setHport (f.at 28 1) { u.hport (f.at 28 1) with attach := some d }).wr (CELL_BLADE.STATE (f.at 28 1)) 3).maintAsk d
              (fun g => .wipeAsk g (f.at 28 1))
          else (u.wr (CELL_BLADE.STATE (f.at 28 1)) 0).finish .cell d a.status)) ∧
  (∀ (s : State) (d : DescRef) (f : Fetched) (ms : List Medium),
      s.startedAt .cell d Op.bladeAttach = some f →
      15 < f.at 28 1 ∨ s.bldSt (f.at 28 1) ≠ Bst.ready →
      exec (.bladeAttach d ms) s = .next (s.finish .cell d St.bladeInvalid)) ∧
  (∀ (s : State) (d : DescRef) (f : Fetched),
      s.startedAt .cell d Op.bladeDetach = some f →
      f.at 28 1 ≤ 15 →
      s.rd (CELL_BLADE.STATE (f.at 28 1)) ≠ 0 →
      (((s.cblade (f.at 28 1)).bands.any fun e => e.2.kind != .anchor && e.2.units.any CUnit.live) = false) →
      exec (.bladeDetach d) s = .next ((((s.setCblade (f.at 28 1) {}).wr (CELL_BLADE.STATE (f.at 28 1)) 0).countBands (f.at 28 1)).finish .cell d
        St.success)) ∧
  (∀ (s : State) (d : DescRef) (f : Fetched) (bs : List Nat) (l : Lane),
      s.startedAt .cell d Op.laneSet = some f →
      f.at 29 1 ≤ 7 →
      (f.at 30 1).testBit 0 = false →
      s.laneBlades (f.at 32 2) = some bs →
      l = Tab.getD (s.cshard (f.at 28 1)).lanes (f.at 29 1) ⟨[], [], none⟩ →
      exec (.laneSet d) s = .next (((s.setCshard (f.at 28 1) { s.cshard (f.at 28 1) with lanes := Tab.set (s.cshard (f.at 28 1)).lanes (f.at 29 1) { l with blades := bs } }).countLanes (f.at 28 1)).finish .cell d St.success)) ∧
  (∀ (s : State) (d : DescRef) (f : Fetched) (t : State),
      s.startedAt .cell d Op.laneSet = some f →
      f.at 29 1 ≤ 7 →
      (f.at 30 1).testBit 0 = true →
      s.cellSt (f.at 28 1) ≠ Cst.ready ∨ (Tab.del (s.cshard (f.at 28 1)).lanes (f.at 29 1)).isEmpty = false →
      t = s.setCshard (f.at 28 1) { s.cshard (f.at 28 1) with lanes := Tab.del (s.cshard (f.at 28 1)).lanes (f.at 29 1) } →
      exec (.laneSet d) s = .next ((((((Tab.get? (s.cshard (f.at 28 1)).lanes (f.at 29 1)).map Lane.next).getD []).foldl (fun (u : State) j => u.laneAdd (f.at 28 1) j)
        t).countLanes (f.at 28 1)).finish .cell d St.success)) ∧
  (∀ (s : State) (d : DescRef) (f : Fetched) (img : Option Snapshot) (ms : List Medium),
      s.startedAt .cell d Op.shardLoad = some f →
      s.cellSt (f.at 28 1) = Cst.absent →
      f.at 32 8 = s.rd (LEASE_EPOCH.EPOCH (f.at 28 1)) →
      s.liveLease (f.at 28 1) = true →
      exec (.shardLoad d img ms) s = .next (s.scripted ms fun (s' : State) =>
        match (s'.wr (CELL_SHARD.STATE (f.at 28 1)) Cst.loading).loadShard (f.at 28 1) ((f.at 29 1).testBit 0) img with
        | (.error e, t) => ((t.dropShard (f.at 28 1)).wr (CELL_SHARD.STATE (f.at 28 1)) Cst.absent).finish .cell d e
        | (.ok (n, gen, full), t) => ((((t.wr (CELL_SHARD.STATE (f.at 28 1)) Cst.ready).resumeRebuilds).raise Ev.cellShardLoaded (some .cell) (some (f.at 28 1))
            [gen, n]).anaUpdate (f.at 28 1)).finish .cell d St.success n (gen + if full then 2 ^ 32 else 0))) ∧
  (∀ (s : State) (d : DescRef) (f : Fetched) (img : Option Snapshot) (ms : List Medium),
      s.startedAt .cell d Op.shardLoad = some f →
      s.cellSt (f.at 28 1) = Cst.absent →
      s.liveLease (f.at 28 1) = false →
      exec (.shardLoad d img ms) s = .next (s.finish .cell d St.epochMismatch)) ∧
  (∀ (s : State) (d : DescRef) (f : Fetched) (ms : List Medium) (t : State),
      s.startedAt .cell d Op.shardRelease = some f →
      s.cellSt (f.at 28 1) = Cst.ready ∨ s.cellSt (f.at 28 1) = Cst.releasing →
      t = s.wr (CELL_SHARD.STATE (f.at 28 1)) Cst.releasing →
      t.drained (f.at 28 1) = true →
      exec (.shardRelease d ms) s = .next (t.scripted ms fun (s' : State) => match s'.checkpoint (f.at 28 1) with
        | (false, u) => u
        | (true, u) => (((u.dropShard (f.at 28 1)).wr (CELL_SHARD.STATE (f.at 28 1)) Cst.absent).anaUpdate (f.at 28 1)).finish .cell d St.success 0
            (u.rd (CELL_SHARD.CKPT_GEN (f.at 28 1))))) ∧
  (∀ (s : State) (d : DescRef) (f : Fetched) (ms : List Medium),
      s.startedAt .cell d Op.checkpoint = some f →
      s.cellSt (f.at 28 1) = Cst.ready →
      exec (.checkpoint d ms) s = .next (s.scripted ms fun (s' : State) => match s'.ckptStep (f.at 28 1) with
        | (false, t) => t
        | (true, t) => t.finish .cell d St.success 0 (t.rd (CELL_SHARD.CKPT_GEN (f.at 28 1))))) ∧
  (∀ (s : State) (d : DescRef) (f : Fetched) (ms : List Medium),
      s.startedAt .cell d Op.foldNow = some f →
      s.cellSt (f.at 28 1) = Cst.ready →
      s.foldWaits (f.at 28 1) d = false →
      exec (.foldNow d ms) s = .next (s.scripted ms fun (s' : State) =>
        match s'.foldAll (f.at 28 1) ((s'.cshard (f.at 28 1)).recs.length + 17) (List.range 16) with
        | ([], t) => t.finish .cell d St.success 0 0
        | (w :: ws, t) => t.sealAll (f.at 28 1) (some d) none (w :: ws))) ∧
  (∀ (s : State) (d : DescRef) (f : Fetched) (ms : List Medium) (w : Nat),
      s.startedAt .cell d Op.reclaim = some f →
      s.cellSt (f.at 28 1) = Cst.ready →
      s.foldWaits (f.at 28 1) d = false →
      w = f.at 32 8 % 2 ^ 40 →
      f.at 32 8 = wheelId (f.at 28 1) w →
      s.mayReclaim (f.at 28 1) w = true →
      s.rd (SEP_SHARD.STATE (f.at 28 1)) = Sst.loaded →
      exec (.reclaim d ms) s = .next (s.scripted ms fun t => (t.reclaim (f.at 28 1) w (some d)).2)) ∧
  (∀ (s : State) (d : DescRef) (f : Fetched),
      s.startedAt .cell d Op.healthNow = some f →
      f.at 28 1 ≤ 15 →
      s.rd (CELL_BLADE.STATE (f.at 28 1)) ≠ 0 →
      exec (.healthNow d) s = .next ((s.periodic (f.at 28 1)).finish .cell d St.success))

/-- A taken blade command that may run and passes its checks is carried out and answered; one that fails a check only answers. For each opcode of a blade: the command at place i of the acceptance order, on a powered blade that is ready, ready and not FATAL, which may run now (it waits behind no earlier one and R290 gives its class and port the turn), passes the checks of R530, and then READ answers the page's bytes, PROGRAM writes the page, ERASE erases the block and counts it, CLAIM claims the blocks of its mask, RETIRE makes the block bad, SET_EPOCH installs the epoch, RENEW renews the shards named, LEASE_RELEASE releases, EPOCH_READ, IDENTIFY, HEALTH, CLAIM_LIST and EC_READ answer their bytes, WIPE erases what it may, WIPE_CONSENT records consent; the command leaves the order and its answer goes to the port it came from. A command that fails a check leaves the order too and answers the status of the first that fails, with no data (SET_EPOCH with the epoch in force as RESULT); nothing else on the blade changes. Completion stated for: bcpRead, bcpProgram, bcpErase, bcpClaim, bcpRetire, setEpoch, renew, leaseRelease, epochRead, bcpIdentify, claimList, ecRead, wipe, wipeConsent, bcpHealth. -/
def Obligations.BladeCommandsAreCarriedOut : Prop :=
  (∀ (s : State) (b i : Nat) (m : Medium) (x : Blade) (t : Taken),
      s.blade b = some x →
      x.powered = true →
      x.rdy = true →
      x.fatal = false →
      x.taken[i]? = some t →
      t.cmd.op = Bop.read →
      x.mayRun s.wireNow i = true →
      x.check s.wireNow t.port t.cmd = none →
      exec (.bcpRead b i m) s = .next (({ s with draws := s.draws + 1 } : State).answer b ((x.doRead (Config.freeByte s.draws) m t.cmd).2.leave s.wireNow i) t (x.doRead (Config.freeByte s.draws) m t.cmd).1)) ∧
  (∀ (s : State) (b i : Nat) (m : Medium) (x : Blade) (t : Taken) (e : Nat),
      s.blade b = some x →
      x.powered = true →
      x.rdy = true →
      x.fatal = false →
      x.taken[i]? = some t →
      t.cmd.op = Bop.read →
      x.mayRun s.wireNow i = true →
      x.check s.wireNow t.port t.cmd = some e →
      exec (.bcpRead b i m) s = .next (({ s with draws := s.draws + 1 } : State).answer b (x.leave s.wireNow i) t ⟨e, 0, []⟩)) ∧
  (∀ (s : State) (b i : Nat) (m : Medium) (x : Blade) (t : Taken),
      s.blade b = some x →
      x.powered = true →
      x.rdy = true →
      x.fatal = false →
      x.taken[i]? = some t →
      t.cmd.op = Bop.program →
      x.mayRun s.wireNow i = true →
      x.check s.wireNow t.port t.cmd = none →
      exec (.bcpProgram b i m) s = .next (({ s with draws := s.draws + 1 } : State).answer b ((x.doProgram m t.cmd).2.leave s.wireNow i) t (x.doProgram m t.cmd).1)) ∧
  (∀ (s : State) (b i : Nat) (m : Medium) (x : Blade) (t : Taken) (e : Nat),
      s.blade b = some x →
      x.powered = true →
      x.rdy = true →
      x.fatal = false →
      x.taken[i]? = some t →
      t.cmd.op = Bop.program →
      x.mayRun s.wireNow i = true →
      x.check s.wireNow t.port t.cmd = some e →
      exec (.bcpProgram b i m) s = .next (({ s with draws := s.draws + 1 } : State).answer b (x.leave s.wireNow i) t ⟨e, 0, []⟩)) ∧
  (∀ (s : State) (b i : Nat) (m : Medium) (x : Blade) (t : Taken),
      s.blade b = some x →
      x.powered = true →
      x.rdy = true →
      x.fatal = false →
      x.taken[i]? = some t →
      t.cmd.op = Bop.erase →
      x.mayRun s.wireNow i = true →
      x.check s.wireNow t.port t.cmd = none →
      exec (.bcpErase b i m) s = .next (({ s with draws := s.draws + 1 } : State).answer b ((x.doErase m t.cmd).2.leave s.wireNow i) t (x.doErase m t.cmd).1)) ∧
  (∀ (s : State) (b i : Nat) (m : Medium) (x : Blade) (t : Taken) (e : Nat),
      s.blade b = some x →
      x.powered = true →
      x.rdy = true →
      x.fatal = false →
      x.taken[i]? = some t →
      t.cmd.op = Bop.erase →
      x.mayRun s.wireNow i = true →
      x.check s.wireNow t.port t.cmd = some e →
      exec (.bcpErase b i m) s = .next (({ s with draws := s.draws + 1 } : State).answer b (x.leave s.wireNow i) t ⟨e, 0, []⟩)) ∧
  (∀ (s : State) (b i : Nat) (x : Blade) (t : Taken),
      s.blade b = some x →
      x.powered = true →
      x.rdy = true →
      x.fatal = false →
      x.taken[i]? = some t →
      t.cmd.op = Bop.claim →
      x.mayRun s.wireNow i = true →
      x.check s.wireNow t.port t.cmd = none →
      exec (.bcpClaim b i) s = .next (({ s with draws := s.draws + 1 } : State).answer b ((x.doClaim t.cmd).2.leave s.wireNow i) t (x.doClaim t.cmd).1)) ∧
  (∀ (s : State) (b i : Nat) (x : Blade) (t : Taken) (e : Nat),
      s.blade b = some x →
      x.powered = true →
      x.rdy = true →
      x.fatal = false →
      x.taken[i]? = some t →
      t.cmd.op = Bop.claim →
      x.mayRun s.wireNow i = true →
      x.check s.wireNow t.port t.cmd = some e →
      exec (.bcpClaim b i) s = .next (({ s with draws := s.draws + 1 } : State).answer b (x.leave s.wireNow i) t ⟨e, 0, []⟩)) ∧
  (∀ (s : State) (b i : Nat) (x : Blade) (t : Taken),
      s.blade b = some x →
      x.powered = true →
      x.rdy = true →
      x.fatal = false →
      x.taken[i]? = some t →
      t.cmd.op = Bop.retire →
      x.mayRun s.wireNow i = true →
      x.check s.wireNow t.port t.cmd = none →
      exec (.bcpRetire b i) s = .next (({ s with draws := s.draws + 1 } : State).answer b ((x.doRetire t.cmd).2.leave s.wireNow i) t (x.doRetire t.cmd).1)) ∧
  (∀ (s : State) (b i : Nat) (x : Blade) (t : Taken) (e : Nat),
      s.blade b = some x →
      x.powered = true →
      x.rdy = true →
      x.fatal = false →
      x.taken[i]? = some t →
      t.cmd.op = Bop.retire →
      x.mayRun s.wireNow i = true →
      x.check s.wireNow t.port t.cmd = some e →
      exec (.bcpRetire b i) s = .next (({ s with draws := s.draws + 1 } : State).answer b (x.leave s.wireNow i) t ⟨e, 0, []⟩)) ∧
  (∀ (s : State) (b i : Nat) (x : Blade) (t : Taken),
      s.blade b = some x →
      x.powered = true →
      x.rdy = true →
      x.fatal = false →
      x.taken[i]? = some t →
      t.cmd.op = Bop.setEpoch →
      x.mayRun s.wireNow i = true →
      x.check s.wireNow t.port t.cmd = none →
      exec (.setEpoch b i) s = .next (({ s with draws := s.draws + 1 } : State).answer b ((x.doSetEpoch s.wireNow t.cmd).2.leave s.wireNow i) t (x.doSetEpoch s.wireNow t.cmd).1)) ∧
  (∀ (s : State) (b i : Nat) (x : Blade) (t : Taken) (e : Nat),
      s.blade b = some x →
      x.powered = true →
      x.rdy = true →
      x.fatal = false →
      x.taken[i]? = some t →
      t.cmd.op = Bop.setEpoch →
      x.mayRun s.wireNow i = true →
      x.check s.wireNow t.port t.cmd = some e →
      exec (.setEpoch b i) s = .next (({ s with draws := s.draws + 1 } : State).answer b (x.leave s.wireNow i) t ⟨e, (x.epochRec t.cmd.shard).epoch, []⟩)) ∧
  (∀ (s : State) (b i : Nat) (x : Blade) (t : Taken),
      s.blade b = some x →
      x.powered = true →
      x.rdy = true →
      x.fatal = false →
      x.taken[i]? = some t →
      t.cmd.op = Bop.renew →
      x.mayRun s.wireNow i = true →
      x.check s.wireNow t.port t.cmd = none →
      exec (.renew b i) s = .next (({ s with draws := s.draws + 1 } : State).answer b ((x.doRenew s.wireNow t.port t.cmd).2.leave s.wireNow i) t (x.doRenew s.wireNow t.port t.cmd).1)) ∧
  (∀ (s : State) (b i : Nat) (x : Blade) (t : Taken) (e : Nat),
      s.blade b = some x →
      x.powered = true →
      x.rdy = true →
      x.fatal = false →
      x.taken[i]? = some t →
      t.cmd.op = Bop.renew →
      x.mayRun s.wireNow i = true →
      x.check s.wireNow t.port t.cmd = some e →
      exec (.renew b i) s = .next (({ s with draws := s.draws + 1 } : State).answer b (x.leave s.wireNow i) t ⟨e, 0, []⟩)) ∧
  (∀ (s : State) (b i : Nat) (x : Blade) (t : Taken),
      s.blade b = some x →
      x.powered = true →
      x.rdy = true →
      x.fatal = false →
      x.taken[i]? = some t →
      t.cmd.op = Bop.release →
      x.mayRun s.wireNow i = true →
      x.check s.wireNow t.port t.cmd = none →
      exec (.leaseRelease b i) s = .next (({ s with draws := s.draws + 1 } : State).answer b ((x.doRelease t.cmd).2.leave s.wireNow i) t (x.doRelease t.cmd).1)) ∧
  (∀ (s : State) (b i : Nat) (x : Blade) (t : Taken) (e : Nat),
      s.blade b = some x →
      x.powered = true →
      x.rdy = true →
      x.fatal = false →
      x.taken[i]? = some t →
      t.cmd.op = Bop.release →
      x.mayRun s.wireNow i = true →
      x.check s.wireNow t.port t.cmd = some e →
      exec (.leaseRelease b i) s = .next (({ s with draws := s.draws + 1 } : State).answer b (x.leave s.wireNow i) t ⟨e, 0, []⟩)) ∧
  (∀ (s : State) (b i : Nat) (x : Blade) (t : Taken),
      s.blade b = some x →
      x.powered = true →
      x.rdy = true →
      x.fatal = false →
      x.taken[i]? = some t →
      t.cmd.op = Bop.epochRead →
      x.mayRun s.wireNow i = true →
      x.check s.wireNow t.port t.cmd = none →
      exec (.epochRead b i) s = .next (({ s with draws := s.draws + 1 } : State).answer b ((((⟨St.success, (x.epochRec t.cmd.shard).epoch, x.epochBytes s.wireNow t.cmd.shard⟩, x) : BAns × Blade)).2.leave s.wireNow i) t (((⟨St.success, (x.epochRec t.cmd.shard).epoch, x.epochBytes s.wireNow t.cmd.shard⟩, x) : BAns × Blade)).1)) ∧
  (∀ (s : State) (b i : Nat) (x : Blade) (t : Taken) (e : Nat),
      s.blade b = some x →
      x.powered = true →
      x.rdy = true →
      x.fatal = false →
      x.taken[i]? = some t →
      t.cmd.op = Bop.epochRead →
      x.mayRun s.wireNow i = true →
      x.check s.wireNow t.port t.cmd = some e →
      exec (.epochRead b i) s = .next (({ s with draws := s.draws + 1 } : State).answer b (x.leave s.wireNow i) t ⟨e, 0, []⟩)) ∧
  (∀ (s : State) (b i : Nat) (x : Blade) (t : Taken),
      s.blade b = some x →
      x.powered = true →
      x.rdy = true →
      x.fatal = false →
      x.taken[i]? = some t →
      t.cmd.op = Bop.identify →
      x.mayRun s.wireNow i = true →
      x.check s.wireNow t.port t.cmd = none →
      exec (.bcpIdentify b i) s = .next (({ s with draws := s.draws + 1 } : State).answer b ((((⟨St.success, 0, x.identify⟩, x) : BAns × Blade)).2.leave s.wireNow i) t (((⟨St.success, 0, x.identify⟩, x) : BAns × Blade)).1)) ∧
  (∀ (s : State) (b i : Nat) (x : Blade) (t : Taken) (e : Nat),
      s.blade b = some x →
      x.powered = true →
      x.rdy = true →
      x.fatal = false →
      x.taken[i]? = some t →
      t.cmd.op = Bop.identify →
      x.mayRun s.wireNow i = true →
      x.check s.wireNow t.port t.cmd = some e →
      exec (.bcpIdentify b i) s = .next (({ s with draws := s.draws + 1 } : State).answer b (x.leave s.wireNow i) t ⟨e, 0, []⟩)) ∧
  (∀ (s : State) (b i : Nat) (x : Blade) (t : Taken),
      s.blade b = some x →
      x.powered = true →
      x.rdy = true →
      x.fatal = false →
      x.taken[i]? = some t →
      t.cmd.op = Bop.claimList →
      x.mayRun s.wireNow i = true →
      x.check s.wireNow t.port t.cmd = none →
      exec (.claimList b i) s = .next (({ s with draws := s.draws + 1 } : State).answer b ((x.doClaimList t.cmd).2.leave s.wireNow i) t (x.doClaimList t.cmd).1)) ∧
  (∀ (s : State) (b i : Nat) (x : Blade) (t : Taken) (e : Nat),
      s.blade b = some x →
      x.powered = true →
      x.rdy = true →
      x.fatal = false →
      x.taken[i]? = some t →
      t.cmd.op = Bop.claimList →
      x.mayRun s.wireNow i = true →
      x.check s.wireNow t.port t.cmd = some e →
      exec (.claimList b i) s = .next (({ s with draws := s.draws + 1 } : State).answer b (x.leave s.wireNow i) t ⟨e, 0, []⟩)) ∧
  (∀ (s : State) (b i : Nat) (x : Blade) (t : Taken),
      s.blade b = some x →
      x.powered = true →
      x.rdy = true →
      x.fatal = false →
      x.taken[i]? = some t →
      t.cmd.op = Bop.ecRead →
      x.mayRun s.wireNow i = true →
      x.check s.wireNow t.port t.cmd = none →
      exec (.ecRead b i) s = .next (({ s with draws := s.draws + 1 } : State).answer b ((((⟨St.success, 0, (List.range x.id.blocks).flatMap fun k => leBytes 4 (x.block t.cmd.die k).ec⟩, x) : BAns × Blade)).2.leave s.wireNow i) t (((⟨St.success, 0, (List.range x.id.blocks).flatMap fun k => leBytes 4 (x.block t.cmd.die k).ec⟩, x) : BAns × Blade)).1)) ∧
  (∀ (s : State) (b i : Nat) (x : Blade) (t : Taken) (e : Nat),
      s.blade b = some x →
      x.powered = true →
      x.rdy = true →
      x.fatal = false →
      x.taken[i]? = some t →
      t.cmd.op = Bop.ecRead →
      x.mayRun s.wireNow i = true →
      x.check s.wireNow t.port t.cmd = some e →
      exec (.ecRead b i) s = .next (({ s with draws := s.draws + 1 } : State).answer b (x.leave s.wireNow i) t ⟨e, 0, []⟩)) ∧
  (∀ (s : State) (b i : Nat) (x : Blade) (t : Taken),
      s.blade b = some x →
      x.powered = true →
      x.rdy = true →
      x.fatal = false →
      x.taken[i]? = some t →
      t.cmd.op = Bop.wipe →
      x.mayRun s.wireNow i = true →
      x.check s.wireNow t.port t.cmd = none →
      exec (.wipe b i) s = .next (({ s with draws := s.draws + 1 } : State).answer b ((x.doWipe t.port).2.leave s.wireNow i) t (x.doWipe t.port).1)) ∧
  (∀ (s : State) (b i : Nat) (x : Blade) (t : Taken) (e : Nat),
      s.blade b = some x →
      x.powered = true →
      x.rdy = true →
      x.fatal = false →
      x.taken[i]? = some t →
      t.cmd.op = Bop.wipe →
      x.mayRun s.wireNow i = true →
      x.check s.wireNow t.port t.cmd = some e →
      exec (.wipe b i) s = .next (({ s with draws := s.draws + 1 } : State).answer b (x.leave s.wireNow i) t ⟨e, 0, []⟩)) ∧
  (∀ (s : State) (b i : Nat) (x : Blade) (t : Taken),
      s.blade b = some x →
      x.powered = true →
      x.rdy = true →
      x.fatal = false →
      x.taken[i]? = some t →
      t.cmd.op = Bop.wipeConsent →
      x.mayRun s.wireNow i = true →
      x.check s.wireNow t.port t.cmd = none →
      exec (.wipeConsent b i) s = .next (({ s with draws := s.draws + 1 } : State).answer b ((((⟨St.success, 0, []⟩, x.setPort t.port { x.port t.port with consent := some s.wireNow }) : BAns × Blade)).2.leave s.wireNow i) t (((⟨St.success, 0, []⟩, x.setPort t.port { x.port t.port with consent := some s.wireNow }) : BAns × Blade)).1)) ∧
  (∀ (s : State) (b i : Nat) (x : Blade) (t : Taken) (e : Nat),
      s.blade b = some x →
      x.powered = true →
      x.rdy = true →
      x.fatal = false →
      x.taken[i]? = some t →
      t.cmd.op = Bop.wipeConsent →
      x.mayRun s.wireNow i = true →
      x.check s.wireNow t.port t.cmd = some e →
      exec (.wipeConsent b i) s = .next (({ s with draws := s.draws + 1 } : State).answer b (x.leave s.wireNow i) t ⟨e, 0, []⟩)) ∧
  (∀ (s : State) (b i : Nat) (temp : Int) (die : Nat) (x y : Blade) (t : Taken),
      s.blade b = some x →
      y = { x with hotTemp := temp, hotDie := die } →
      y.powered = true →
      y.rdy = true →
      y.fatal = false →
      y.taken[i]? = some t →
      t.cmd.op = Bop.health →
      y.mayRun s.wireNow i = true →
      y.check s.wireNow t.port t.cmd = none →
      exec (.bcpHealth b i temp die) s = .next (({ s.setBlade b y with draws := s.draws + 1 } : State).answer b (y.leave s.wireNow i) t
        ⟨St.success, 0, y.health⟩)) ∧
  (∀ (s : State) (b i : Nat) (temp : Int) (die : Nat) (x y : Blade) (t : Taken) (e : Nat),
      s.blade b = some x →
      y = { x with hotTemp := temp, hotDie := die } →
      y.powered = true →
      y.rdy = true →
      y.fatal = false →
      y.taken[i]? = some t →
      t.cmd.op = Bop.health →
      y.mayRun s.wireNow i = true →
      y.check s.wireNow t.port t.cmd = some e →
      exec (.bcpHealth b i temp die) s = .next (({ s.setBlade b y with draws := s.draws + 1 } : State).answer b (y.leave s.wireNow i) t ⟨e, 0, []⟩)) ∧
  (∀ (s : State) (b i : Nat) (m : Medium) (x : Blade) (t : Taken) (e : Nat),
      s.blade b = some x →
      x.powered = true →
      x.rdy = true →
      x.fatal = false →
      x.taken[i]? = some t →
      t.cmd.op = Bop.program →
      x.mayRun s.wireNow i = true →
      x.check s.wireNow t.port t.cmd = some e →
      ∃ u : State, exec (.bcpProgram b i m) s = .next u ∧ (u.blade b).map Blade.blocks = some x.blocks ∧ (u.blade b).map Blade.recs = some x.recs)

/-- Doorbells, CC, LEASE_CFG, PERST_N and power at a blade. BCP_SQ_DOORBELL of the peer's port takes the commands given, in order; of this head's port it takes what waits, as much as R294 lets the head write, in the slots from TAIL on: one waiting command goes into slot 0 of a fresh queue, with CID 0 (the CID is the model's choice, log entry 21), and TAIL becomes 1. BCP_CC_WRITE sets EN, and with 0 empties the port. BCP_LEASE_CFG_WRITE stores SILENCE, at least 256. PERST_ASSERT takes the link down and discards that port's commands; mutations the blade had taken finish unreported. BLADE_POWER_LOSS drops the volatile state, with every command whole or not at all; BLADE_POWER_UP starts a blade that has no power and leaves one that has it. Completion stated for: bcpSqDoorbell, bcpCcWrite, bcpLeaseCfgWrite, perstAssert, bladePowerLoss, bladePowerUp. -/
def Obligations.BladePortsAtTheBlade : Prop :=
  (∀ (s : State) (b port queue : Nat) (cmds : List PeerCmd) (x : Blade),
      s.blade b = some x →
      port ≤ 1 →
      queue ≤ 15 →
      x.powered = true →
      (x.port port).linkUp = true →
      (x.port port).en = true →
      port ≠ s.portNo b →
      exec (.bcpSqDoorbell b port queue cmds) s = .next (s.setBlade b (x.take port queue ((cmds.take 255).map fun (c : PeerCmd) =>
        ⟨(c.img ++ zeros 64).take 64, c.out, c.hdr⟩)))) ∧
  (∀ (s : State) (b queue : Nat) (cmds : List PeerCmd) (x : Blade) (e : Issued),
      s.blade b = some x →
      queue ≤ 15 →
      x.powered = true →
      (x.port (s.portNo b)).linkUp = true →
      (x.port (s.portNo b)).en = true →
      s.portNo b ≤ 1 →
      (s.hport b).issued = [e] →
      e.queue = queue →
      e.slot = none →
      (s.hport b).tail = [] →
      (s.hport b).seen = [] →
      (s.hport b).late = [] →
      exec (.bcpSqDoorbell b (s.portNo b) queue cmds) s = .next ((s.setBlade b (x.take (s.portNo b) queue
        [{ e.cmd with img := splice e.cmd.img 2 (leBytes 2 0) }])).setHport b { s.hport b with issued := [{ e with slot := some 0, cmd := { e.cmd with img := splice e.cmd.img 2 (leBytes 2 0) } }], tail := Tab.set (s.hport b).tail queue 1 })) ∧
  (∀ (s : State) (b port queue : Nat) (cmds : List PeerCmd) (x : Blade) (n tl : Nat) (es : List Issued),
      s.blade b = some x →
      port ≤ 1 →
      queue ≤ 15 →
      x.powered = true →
      (x.port port).linkUp = true →
      (x.port port).en = true →
      port = s.portNo b →
      n = min ((s.hport b).places queue) ((s.hport b).unsent queue).length →
      tl = Tab.getD (s.hport b).tail queue 0 →
      es = placeSlots queue n tl (s.hport b).issued →
      exec (.bcpSqDoorbell b port queue cmds) s = .next ((s.setBlade b (x.take port queue
        ((es.filter fun (e : Issued) => e.queue == queue && (s.hport b).unsent queue ≠ [] && e.slot.any fun i => (i + 256 - tl) % 256 < n).map (·.cmd)))).setHport b
          { s.hport b with issued := es, tail := Tab.set (s.hport b).tail queue ((tl + n) % 256) })) ∧
  (∀ (s : State) (b port : Nat) (x : Blade),
      s.blade b = some x →
      port ≤ 1 →
      x.powered = true →
      (x.port port).linkUp = true →
      exec (.bcpCcWrite b port true) s = .next (s.setBlade b (x.setPort port { x.port port with en := true }))) ∧
  (∀ (s : State) (b port : Nat) (x : Blade),
      s.blade b = some x →
      port ≤ 1 →
      x.powered = true →
      (x.port port).linkUp = true →
      exec (.bcpCcWrite b port false) s = .next (s.setBlade b ((x.emptyPort port).setPort port { (x.emptyPort port).port port with en := false }))) ∧
  (∀ (s : State) (b port v : Nat) (x : Blade),
      s.blade b = some x →
      port ≤ 1 →
      x.powered = true →
      (x.port port).linkUp = true →
      exec (.bcpLeaseCfgWrite b port v) s = .next (s.setBlade b (x.setPort port { x.port port with silence := max 256 (v % 65536) }))) ∧
  (∀ (s : State) (b port : Nat) (perst : Bool) (x : Blade),
      s.blade b = some x →
      port ≤ 1 →
      ∃ t : State, exec (.perstAssert b port perst) s = .next t ∧ (t.blade b).map (fun (y : Blade) => (y.port port).linkUp) = some false ∧
        (t.blade b).map (fun (y : Blade) => y.taken.all fun (c : Taken) => c.port != port || c.mute) = some true ∧ t.mem = s.mem ∧ t.csr = s.csr) ∧
  (∀ (s : State) (b port : Nat) (perst : Bool) (x : Blade) (y : BladePort),
      s.blade b = some x →
      port ≤ 1 →
      y = (x.emptyPort port).port port →
      exec (.perstAssert b port perst) s = .next (s.setBlade b ((x.emptyPort port).setPort port
        (if perst then { y with linkUp := false, downSince := if y.linkUp then s.wireNow else y.downSince, en := false, silence := 256, cqBase := 0 }
          else { y with linkUp := false, downSince := if y.linkUp then s.wireNow else y.downSince })))) ∧
  (∀ (s : State) (b : Nat) (whole : List Nat) (x y : Blade),
      s.blade b = some x →
      x.powered = true →
      y = x.cut s.wireNow (Config.freeByte s.draws) whole →
      exec (.bladePowerLoss b whole) s = .next (({ s with draws := s.draws + 1 } : State).setBlade b { y with powered := false, rdy := false, fatal := false, taken := [], turn := none, bulk := 0, lead := [], port0 := ({ downSince := if y.port0.linkUp then s.wireNow else y.port0.downSince } : BladePort), port1 := ({ downSince := if y.port1.linkUp then s.wireNow else y.port1.downSince } : BladePort), powerLosses := satAdd y.powerLosses 1 32 })) ∧
  (∀ (s : State) (b : Nat) (whole : List Nat) (x : Blade),
      s.blade b = some x →
      x.powered = true →
      ∃ t : State, exec (.bladePowerLoss b whole) s = .next t ∧ (t.blade b).map (fun (y : Blade) => (y.powered, y.rdy, y.fatal, y.taken)) = some (false, false, false, []) ∧
        (t.blade b).map Blade.powerLosses = some (satAdd (x.cut s.wireNow (Config.freeByte s.draws) whole).powerLosses 1 32) ∧ t.mem = s.mem) ∧
  (∀ (s : State) (b : Nat) (whole : Bool) (x : Blade),
      b ≤ 15 →
      s.blade b = some x →
      x.powered = false →
      exec (.bladePowerUp b none whole) s = .next (s.setBlade b (x.powerUp s.wireNow whole))) ∧
  (∀ (s : State) (b : Nat) (n : NewBlade) (whole : Bool),
      b ≤ 15 →
      exec (.bladePowerUp b (some n) whole) s = .next (s.setBlade b ((factoryBlade n).powerUp s.wireNow whole)) ∧ (factoryBlade n).recs = [])

/-- A Blade Port goes through its states; completions and timeouts reach their issuers; PASS sends a read-only command. PRSNT_CHANGE keeps the pin and starts or ends the debounce of an EMPTY port, and takes a READY port whose blade leaves to DOWN; PRSNT_DEBOUNCE_EXPIRY takes an enabled port to RESET, PORT_RESET_EXPIRY to TRAINING with PERST_N released, BLADE_LINK_TRAINED of an acceptable link to INIT (of another to DOWN), BLADE_RDY_SEEN to READY, with EV_HEAD_MISWIRED and no epochs where the wrong port answered; the timeouts, DL_DOWN, FATAL (which the blade keeps) and UNREACH take it to DOWN with their cause, PORT_DOWN_EXPIRY to RESET or EMPTY; PORT_RESET forces any port but an EMPTY one. BLADE_COMPLETION hands an answer to its issuer, COMMAND_TIMEOUT_EXPIRY the status CMD_TIMEOUT. PASS of a read-only command to a blade that takes it waits for its completion; of another command it ends PASS_REFUSED, with a DESTINATION outside the Vat ADDR_INVALID, of a blade whose port is not READY BLADE_UNREACHABLE (for BLADE 16 to 255 log entry 144). Completion stated for: prsntChange, prsntDebounceExpiry, portResetExpiry, bladeLinkTrained, bladeTrainingTimeout, bladeRdyTimeout, bladeRdySeen, bladeFatalSeen, dlDown, unreachExpiry, portDownExpiry, portReset, bladeCompletion, commandTimeoutExpiry, pass. -/
def Obligations.BladePortStatesAndPass : Prop :=
  (∀ (s : State) (b : Fin 16) (t : State),
      s.present b = false →
      s.bldSt b = Bst.empty →
      t = ({ s with pins := { s.pins with prsntN := setBitTo s.pins.prsntN b false } } : State).wr (BLD_PORT_STATUS.PRSNT b) 1 →
      t.bldSt b = Bst.empty →
      exec (.prsntChange b true) s = .next (t.setHport b { t.hport b with timer := some (t.inMgmt 160) })) ∧
  (∀ (s : State) (b : Fin 16),
      s.present b = false →
      s.bldSt b ≠ Bst.empty →
      (({ s with pins := { s.pins with prsntN := setBitTo s.pins.prsntN b false } } : State).wr (BLD_PORT_STATUS.PRSNT b) 1).bldSt b ≠ Bst.empty →
      exec (.prsntChange b true) s = .next (({ s with pins := { s.pins with prsntN := setBitTo s.pins.prsntN b false } } : State).wr (BLD_PORT_STATUS.PRSNT b) 1)) ∧
  (∀ (s : State) (b : Fin 16),
      s.present b = true →
      (({ s with pins := { s.pins with prsntN := setBitTo s.pins.prsntN b true } } : State).wr (BLD_PORT_STATUS.PRSNT b) 0).bldSt b ≠ Bst.empty →
      (({ s with pins := { s.pins with prsntN := setBitTo s.pins.prsntN b true } } : State).wr (BLD_PORT_STATUS.PRSNT b) 0).bldSt b ≠ Bst.ready →
      exec (.prsntChange b false) s = .next (({ s with pins := { s.pins with prsntN := setBitTo s.pins.prsntN b true } } : State).wr (BLD_PORT_STATUS.PRSNT b) 0)) ∧
  (∀ (s : State) (b : Fin 16) (t : State),
      s.present b = true →
      t = ({ s with pins := { s.pins with prsntN := setBitTo s.pins.prsntN b true } } : State).wr (BLD_PORT_STATUS.PRSNT b) 0 →
      t.bldSt b = Bst.empty →
      exec (.prsntChange b false) s = .next (t.setHport b { t.hport b with timer := none })) ∧
  (∀ (s : State) (b : Fin 16) (t : State),
      s.present b = true →
      t = ({ s with pins := { s.pins with prsntN := setBitTo s.pins.prsntN b true } } : State).wr (BLD_PORT_STATUS.PRSNT b) 0 →
      t.bldSt b = Bst.ready →
      exec (.prsntChange b false) s = .next (t.portDown b 2)) ∧
  (∀ (s : State) (b : Fin 16),
      s.bldSt b = Bst.empty →
      s.present b = true →
      s.portEn b = true →
      s.due (s.hport b).timer = true →
      exec (.prsntDebounceExpiry b) s = .next (s.portReset b)) ∧
  (∀ (s : State) (b : Fin 16),
      s.bldSt b = Bst.reset →
      s.due (s.hport b).timer = true →
      exec (.portResetExpiry b) s = .next ((s.setBld b Bst.training (some 160)).perst b true)) ∧
  (∀ (s : State) (b : Fin 16) (port : Fin 2) (width : Fin 4) (speed32 flit : Bool) (major : Nat) (x : Blade),
      s.blade b = some x →
      s.bldSt b = Bst.training →
      x.powered = true →
      width.val ≠ 0 →
      flit = false ∨ width.val ≤ s.rd BLD_LINK_CFG.MIN_WIDTH ∨ (speed32 = true ∧ s.on BLD_LINK_CFG.ALLOW_32GT = false) →
      exec (.bladeLinkTrained b port width speed32 flit major) s = .next (s.portDown b 6)) ∧
  (∀ (s : State) (b : Fin 16) (port : Fin 2) (major : Nat) (x : Blade) (t u : State),
      s.blade b = some x →
      s.bldSt b = Bst.training →
      x.powered = true →
      s.rd BLD_LINK_CFG.MIN_WIDTH < 3 →
      t = s.setHport b { s.hport b with miswired := port.val != s.headNo } →
      u = ((t.setBlade b (x.setPort port { x.port port with linkUp := true })).wr (BLD_PORT_STATUS.WIDTH b) 3).wr (BLD_PORT_STATUS.SPEED32 b) 0 →
      exec (.bladeLinkTrained b port 3 false true major) s = .next (u.portInit b major)) ∧
  (∀ (s : State) (b : Fin 16) (port : Fin 2) (width : Fin 4) (speed32 : Bool) (major : Nat) (x : Blade) (t u v : State),
      s.blade b = some x →
      s.bldSt b = Bst.training →
      x.powered = true →
      width.val ≠ 0 →
      s.rd BLD_LINK_CFG.MIN_WIDTH < width.val →
      (speed32 = true → s.on BLD_LINK_CFG.ALLOW_32GT = true) →
      t = (s.setHport b { s.hport b with miswired := port.val != s.headNo }).setBlade b (x.setPort port { x.port port with linkUp := true }) →
      u = (t.wr (BLD_PORT_STATUS.WIDTH b) width.val).wr (BLD_PORT_STATUS.SPEED32 b) (if speed32 then 1 else 0) →
      (v = if width.val < 3 ∨ speed32 = true then u.raise Ev.bladeDegraded (some .bld) (some b.val) [b, width.val] else u) →
      exec (.bladeLinkTrained b port width speed32 true major) s = .next (v.portInit b major)) ∧
  (∀ (s : State) (b : Fin 16),
      s.bldSt b = Bst.training →
      s.due (s.hport b).timer = true →
      exec (.bladeTrainingTimeout b) s = .next (s.portDown b 6)) ∧
  (∀ (s : State) (b : Fin 16),
      s.bldSt b = Bst.init →
      s.due (s.hport b).timer = true →
      exec (.bladeRdyTimeout b) s = .next (s.portDown b 7)) ∧
  (∀ (s : State) (b : Fin 16) (x : Blade) (t : State),
      s.blade b = some x →
      s.bldSt b = Bst.init →
      x.rdy = true →
      x.powered = true →
      (x.port (s.portNo b)).linkUp = true →
      (s.hport b).miswired = false →
      t = (s.setBld b Bst.ready none).setHport b { (s.setBld b Bst.ready none).hport b with timer := none, lastCpl := s.now } →
      exec (.bladeRdySeen b) s = .next ((List.range 256).foldl (fun (s : State) sh => s.epochGiven b sh)
        ((t.raise Ev.bladeLink (some .bld) (some b.val) [b.val, Bst.ready]).carcReachable b))) ∧
  (∀ (s : State) (b : Fin 16) (x : Blade) (t u : State),
      s.blade b = some x →
      s.bldSt b = Bst.init →
      x.rdy = true →
      x.powered = true →
      (x.port (s.portNo b)).linkUp = true →
      (s.hport b).miswired = true →
      t = s.raise Ev.headMiswired (some .lease) (some b.val) [b, s.portNo b] →
      u = (t.setBld b Bst.ready none).setHport b { (t.setBld b Bst.ready none).hport b with timer := none, lastCpl := t.now } →
      exec (.bladeRdySeen b) s = .next ((u.raise Ev.bladeLink (some .bld) (some b.val) [b.val, Bst.ready]).carcReachable b)) ∧
  (∀ (s : State) (b : Fin 16) (x : Blade),
      s.blade b = some x →
      s.bldSt b = Bst.ready →
      x.powered = true →
      exec (.bladeFatalSeen b) s = .next ((((s.setBlade b { x with fatal := true }).raise Ev.bladeFatal (some .bld) (some b.val) [b.val]).portDown b 3).carcFailed b)) ∧
  (∀ (s : State) (b : Fin 16),
      s.bldSt b = Bst.ready →
      exec (.dlDown b) s = .next (s.portDown b 1)) ∧
  (∀ (s : State) (b : Fin 16),
      s.bldSt b = Bst.ready →
      (s.hport b).issued ≠ [] →
      s.passed ((s.hport b).lastCpl + s.rd BLD_LINK_CFG.UNREACH * mgmtTick) = true →
      exec (.unreachExpiry b) s = .next (s.portDown b 4)) ∧
  (∀ (s : State) (b : Fin 16),
      s.bldSt b = Bst.down →
      s.due (s.hport b).timer = true →
      s.present b = false →
      exec (.portDownExpiry b) s = .next (s.setBld b Bst.empty none)) ∧
  (∀ (s : State) (b : Fin 16),
      s.bldSt b = Bst.down →
      s.due (s.hport b).timer = true →
      s.present b = true →
      exec (.portDownExpiry b) s = .next (s.portReset b)) ∧
  (∀ (s : State) (b : Fin 16) (origin : Origin),
      s.originThere origin.toNat = true →
      s.audited false origin.toNat = false →
      s.bldSt b ≠ Bst.empty →
      exec (.portReset b origin) s = .next ((s.portDown b 5).portReset b)) ∧
  (∀ (s : State) (b : Fin 16) (origin : Origin),
      s.originThere origin.toNat = true →
      s.audited false origin.toNat = false →
      s.bldSt b = Bst.empty →
      exec (.portReset b origin) s = .next s) ∧
  (∀ (s : State) (b i : Nat) (c : BCpl),
      (s.hport b).cq[i]? = some c →
      exec (.bladeCompletion b i) s = .next ((s.setHport b { s.hport b with cq := (s.hport b).cq.eraseIdx i }).bladeComplete b c)) ∧
  (∀ (s : State) (b i : Nat) (e : Issued),
      (s.hport b).issued[i]? = some e →
      s.passed (e.since + s.rd BLD_LINK_CFG.CMD_TIMEOUT * mgmtTick) = true →
      exec (.commandTimeoutExpiry b i) s = .next (((((s.setHport b { s.hport b with issued := (s.hport b).issued.eraseIdx i, late := e.lateSlot ++ (s.hport b).late }).countPort b).bump
        (BLD_PORT_ERR.TIMEOUTS b) 1).raise Ev.bladeTimeout (some .bld) (some b) [b, e.cmd.op]).bladeDeliver b e ⟨St.cmdTimeout, 0, []⟩)) ∧
  (∀ (s : State) (d : DescRef) (f : Fetched) (img : List Byte) (t : State),
      s.startedAt .bld d Op.pass = some f →
      (((List.range 16).any fun b => (s.hport b).issued.any fun e => e.issuer == .pass d) = false) →
      (s.dmaRead .bld f.src 64 (some d.ring)).toOption = some img →
      passable (fieldAt img 0 1) = true →
      inVat f.dst = true →
      f.at 28 1 ≤ 15 →
      s.issue (f.at 28 1) 15 ⟨splice (splice img 16 (leBytes 8 f.dst)) 24 (leBytes 4 f.len), [], []⟩ (.pass d) = (true, t) →
      exec (.pass d) s = .next t) ∧
  (∀ (s : State) (d : DescRef) (f : Fetched) (img : List Byte),
      s.startedAt .bld d Op.pass = some f →
      (((List.range 16).any fun b => (s.hport b).issued.any fun e => e.issuer == .pass d) = false) →
      (s.dmaRead .bld f.src 64 (some d.ring)).toOption = some img →
      passable (fieldAt img 0 1) = false →
      exec (.pass d) s = .next (s.finish .bld d St.passRefused)) ∧
  (∀ (s : State) (d : DescRef) (f : Fetched) (img : List Byte),
      s.startedAt .bld d Op.pass = some f →
      (((List.range 16).any fun b => (s.hport b).issued.any fun e => e.issuer == .pass d) = false) →
      (s.dmaRead .bld f.src 64 (some d.ring)).toOption = some img →
      passable (fieldAt img 0 1) = true →
      inVat f.dst = true →
      15 < f.at 28 1 ∨ s.bldSt (f.at 28 1) ≠ Bst.ready →
      exec (.pass d) s = .next (s.finish .bld d St.bladeUnreachable)) ∧
  (∀ (s : State) (d : DescRef) (f : Fetched) (img : List Byte),
      s.startedAt .bld d Op.pass = some f →
      (((List.range 16).any fun b => (s.hport b).issued.any fun e => e.issuer == .pass d) = false) →
      (s.dmaRead .bld f.src 64 (some d.ring)).toOption = some img →
      passable (fieldAt img 0 1) = true →
      inVat f.dst = false →
      exec (.pass d) s = .next (s.finish .bld d St.addrInvalid))

/-- The Tenon link is enabled, trains, exchanges, retrains and goes down; flits. TENON_ENABLE takes a DISABLED link to DETECT and is journaled; TENON_SIGNAL_DETECT on enough lanes takes DETECT to TRAIN; TENON_TRAIN_DONE with the widest good lanes TRAIN to EXCHANGE; TENON_EXCHANGE with version 1 and the other head number makes the link ACTIVE, with another version DOWN with cause 5, with the same head number EV_HEAD_CONFLICT and cause 4; silence, a forced retrain and a bad lane (not used again until the link is down: log entry 95) take ACTIVE to RETRAIN; TENON_RETRAIN_DONE takes it back or, too narrow, DOWN with cause 3; the timeouts take TRAIN and RETRAIN DOWN with causes 2 and 1; TENON_DOWN_EXPIRY takes DOWN to DETECT. FLIT_RX of the next good flit advances the sequence, a bad one is counted and NAKed, one out of sequence NAKed once, and the eighth NAK in a row, sent or received, retrains. Completion stated for: tenonEnable, tenonRetrain, tenonSignalDetect, tenonTrainDone, tenonTrainTimeout, tenonExchange, flitSilenceExpiry, tenonRetrainDone, tenonRetrainTimeout, tenonDownExpiry, tenonLaneErrorLimit, flitRx. -/
def Obligations.TenonLinkStates : Prop :=
  (∀ (s : State) (origin : Origin),
      s.admits .ten origin = true →
      (s.wr TEN_CTL.EN 1).tenSt = Tst.disabled →
      (s.wr TEN_CTL.EN 1).solo = false →
      exec (.tenonEnable origin true) s = .next (s.journaled (((s.wr TEN_CTL.EN 1).setTst Tst.detect none).linkChanged) origin TEN_CTL.EN 1)) ∧
  (∀ (s : State) (origin : Origin) (en : Bool),
      s.admits .ten origin = true →
      exec (.tenonEnable origin en) s = .next (s.journaled (s.tenEnable en) origin TEN_CTL.EN (if en then 1 else 0))) ∧
  (∀ (s : State) (origin : Origin),
      s.admits .ten origin = true →
      (s.wr TEN_CTL.EN 0).tenSt = Tst.active →
      exec (.tenonEnable origin false) s = .next (s.journaled (((((s.wr TEN_CTL.EN 0).tenDown 7).setTst Tst.disabled none)).linkChanged) origin TEN_CTL.EN 0)) ∧
  (∀ (s : State) (origin : Origin),
      s.admits .ten origin = true →
      s.tenSt ≠ Tst.active →
      exec (.tenonRetrain origin) s = .next (s.journaled s origin TEN_CTL.RETRAIN 1)) ∧
  (∀ (s : State) (origin : Origin),
      s.admits .ten origin = true →
      s.tenSt = Tst.active →
      exec (.tenonRetrain origin) s = .next (s.journaled s.tenRetrain origin TEN_CTL.RETRAIN 1)) ∧
  (∀ (s : State) (lanes : Nat),
      s.tenSt = Tst.detect →
      s.minWidth ≤ popCount (lanes &&& s.rd TEN_CTL.LANE_EN) 8 →
      exec (.tenonSignalDetect lanes) s = .next (s.setTst Tst.train (some (s.inMgmt 160)))) ∧
  (∀ (s : State) (lanes : Nat),
      s.tenSt = Tst.detect →
      popCount (lanes &&& s.rd TEN_CTL.LANE_EN) 8 < s.minWidth →
      exec (.tenonSignalDetect lanes) s = .next s) ∧
  (∀ (s : State) (good use : Nat) (reversed : Bool),
      s.tenSt = Tst.train →
      s.lanesFit good use = true →
      s.minWidth ≤ popCount use 8 →
      exec (.tenonTrainDone good use reversed) s = .next ((s.setTst Tst.exchange none).lanesUsed use reversed)) ∧
  (∀ (s : State),
      s.tenSt = Tst.train →
      s.due s.ten.limit = true →
      exec .tenonTrainTimeout s = .next (s.tenDown 2)) ∧
  (∀ (s : State) (head : Fin 2) (time : Nat),
      s.tenSt = Tst.exchange →
      head.val ≠ (s.wr TEN_STATUS.PEER_HEAD head.val).headNo →
      time < s.now ∨ (time = s.now ∧ (s.wr TEN_STATUS.PEER_HEAD head.val).headNo = 0) →
      exec (.tenonExchange 1 head time) s = .next ((((s.wr TEN_STATUS.PEER_HEAD head.val)).wr TEN_TIME_STATUS.MASTER 1).tenUp)) ∧
  (∀ (s : State) (head : Fin 2) (time : Nat),
      s.tenSt = Tst.exchange →
      head.val ≠ (s.wr TEN_STATUS.PEER_HEAD head.val).headNo →
      s.now < time ∨ (time = s.now ∧ (s.wr TEN_STATUS.PEER_HEAD head.val).headNo ≠ 0) →
      exec (.tenonExchange 1 head time) s = .next ((((s.wr TEN_STATUS.PEER_HEAD head.val)).wr TEN_TIME_STATUS.MASTER 0).tenUp)) ∧
  (∀ (s : State) (version time : Nat) (head : Fin 2),
      s.tenSt = Tst.exchange →
      version ≠ 1 →
      exec (.tenonExchange version head time) s = .next ((s.wr TEN_STATUS.PEER_HEAD head.val).tenDown 5)) ∧
  (∀ (s : State) (time : Nat) (head : Fin 2),
      s.tenSt = Tst.exchange →
      head.val = (s.wr TEN_STATUS.PEER_HEAD head.val).headNo →
      exec (.tenonExchange 1 head time) s = .next (((s.wr TEN_STATUS.PEER_HEAD head.val).raise Ev.headConflict (some .ten)).tenDown 4)) ∧
  (∀ (s : State),
      s.tenSt = Tst.active →
      s.passed (s.ten.lastFlit + 16000) = true →
      exec .flitSilenceExpiry s = .next s.tenRetrain) ∧
  (∀ (s : State) (good use : Nat) (reversed : Bool) (t : State),
      s.tenSt = Tst.retrain →
      s.lanesFit good use = true →
      s.minWidth ≤ popCount use 8 →
      t = ((((s.setTst Tst.active none).setTen { (s.setTst Tst.active none).ten with limit := none, lastFlit := s.now }).lanesUsed use reversed)).linkChanged →
      exec (.tenonRetrainDone good use reversed) s = .next (t.tenPump t.ten.out.length)) ∧
  (∀ (s : State) (good use : Nat) (reversed : Bool),
      s.tenSt = Tst.retrain →
      s.lanesFit good use = true →
      popCount use 8 < s.minWidth →
      exec (.tenonRetrainDone good use reversed) s = .next (s.tenDown 3)) ∧
  (∀ (s : State),
      s.tenSt = Tst.retrain →
      s.due s.ten.limit = true →
      exec .tenonRetrainTimeout s = .next (s.tenDown 1)) ∧
  (∀ (s : State),
      s.tenSt = Tst.down →
      s.on TEN_CTL.EN = true →
      s.due s.ten.limit = true →
      exec .tenonDownExpiry s = .next ((s.setTst Tst.detect none).linkChanged)) ∧
  (∀ (s : State) (lane : Fin 8),
      s.tenSt = Tst.active →
      s.bit TEN_STATUS.LANES lane = true →
      exec (.tenonLaneErrorLimit lane) s = .next (((s.setTen { s.ten with bad := s.ten.bad ||| 2 ^ lane.val }).raise Ev.tenDegraded (some .ten) none [lane.val]).tenRetrain)) ∧
  (∀ (s : State) (fseq ack : Fin 1024),
      s.tenSt = Tst.active →
      fseq.val = (s.ten.rxSeq + 1) % 1024 →
      exec (.flitRx true false fseq ack false) s = .next (s.setTen { s.ten with lastFlit := s.now, rxSeq := fseq.val, nakDue := false, nakRun := 0, ackd := ack.val, inNakRun := 0 })) ∧
  (∀ (s : State) (fseq ack : Fin 1024) (nak : Bool),
      s.tenSt = Tst.active →
      s.ten.nakRun < 7 →
      exec (.flitRx false false fseq ack nak) s = .next (((s.bump TEN_ERR.CRC_FAIL 1).bump TEN_ERR.REPLAYS 1).setTen { s.ten with nakDue := true, nakRun := s.ten.nakRun + 1 })) ∧
  (∀ (s : State) (corrected nak : Bool) (fseq ack : Fin 1024) (t : State) (run : Nat),
      s.tenSt = Tst.active →
      fseq.val = (s.ten.rxSeq + 1) % 1024 →
      t = (if corrected then s.bump TEN_ERR.FEC_CORR 1 else s).setTen { s.ten with lastFlit := s.now, rxSeq := fseq.val, nakDue := false, nakRun := 0 } →
      (run = if nak then (if t.ten.ackd = ack.val then t.ten.inNakRun + 1 else 1) else 0) →
      run < 8 →
      exec (.flitRx true corrected fseq ack nak) s = .next (t.setTen { t.ten with ackd := ack.val, inNakRun := run })) ∧
  (∀ (s : State) (corrected nak : Bool) (fseq ack : Fin 1024) (t : State) (run : Nat),
      s.tenSt = Tst.active →
      fseq.val = (s.ten.rxSeq + 1) % 1024 →
      t = (if corrected then s.bump TEN_ERR.FEC_CORR 1 else s).setTen { s.ten with lastFlit := s.now, rxSeq := fseq.val, nakDue := false, nakRun := 0 } →
      (run = if nak then (if t.ten.ackd = ack.val then t.ten.inNakRun + 1 else 1) else 0) →
      8 ≤ run →
      exec (.flitRx true corrected fseq ack nak) s = .next ((t.setTen { t.ten with ackd := ack.val, inNakRun := run }).tenRetrain)) ∧
  (∀ (s : State) (corrected nak : Bool) (fseq ack : Fin 1024) (t : State) (run : Nat),
      s.tenSt = Tst.active →
      fseq.val ≠ (s.ten.rxSeq + 1) % 1024 →
      s.ten.nakDue = true →
      t = (if corrected then s.bump TEN_ERR.FEC_CORR 1 else s).setTen { s.ten with lastFlit := s.now } →
      (run = if nak then (if t.ten.ackd = ack.val then t.ten.inNakRun + 1 else 1) else 0) →
      run < 8 →
      exec (.flitRx true corrected fseq ack nak) s = .next (t.setTen { t.ten with ackd := ack.val, inNakRun := run })) ∧
  (∀ (s : State) (corrected nak : Bool) (fseq ack : Fin 1024) (t : State) (run : Nat),
      s.tenSt = Tst.active →
      fseq.val ≠ (s.ten.rxSeq + 1) % 1024 →
      s.ten.nakDue = false →
      t = ((if corrected then s.bump TEN_ERR.FEC_CORR 1 else s).setTen { s.ten with lastFlit := s.now }).nak →
      (run = if nak then (if t.ten.ackd = ack.val then t.ten.inNakRun + 1 else 1) else 0) →
      t.tenSt = Tst.active →
      run < 8 →
      exec (.flitRx true corrected fseq ack nak) s = .next (t.setTen { t.ten with ackd := ack.val, inNakRun := run })) ∧
  (∀ (s : State) (corrected nak : Bool) (fseq ack : Fin 1024),
      s.tenSt = Tst.active →
      exec (.flitRx false corrected fseq ack nak) s = .next (((if corrected then s.bump TEN_ERR.FEC_CORR 1 else s).bump TEN_ERR.CRC_FAIL 1).nak)) ∧
  (∀ (s : State) (fseq ack : Fin 1024) (nak : Bool),
      s.tenSt = Tst.active →
      s.ten.nakRun = 7 →
      exec (.flitRx false false fseq ack nak) s = .next ((((s.bump TEN_ERR.CRC_FAIL 1).bump TEN_ERR.REPLAYS 1).setTen { s.ten with nakDue := true, nakRun := 8 }).tenRetrain))

/-- Credits and time synchronisation over the Tenon. CTRL_CREDIT adds its credits and lets waiting messages go; credits of MAIL say a message has been placed, and its MAIL_SEND completes. TIME_REQ_PERIOD of the slave sends TIME_REQ with its stamp; TIME_REQ at the master answers with arrival and departure; TIME_RESP to the request in hand ends the exchange at the slave: OFFSET is half the difference plus ASYM (an odd half's rounding and the rate are open: log entry 8), a step forward only with no lease held and from STEP_MIN on, else a slew, SYNCED within 32 ticks; TIME_SLEW moves the slave's time by one tick a window; TIME_SYNC_LAPSE after 16 management ticks without a good exchange drops SYNCED. Completion stated for: ctrlCredit, timeReqPeriod, timeReq, timeResp, timeSlew, timeSyncLapse. -/
def Obligations.TenonTimeAndCredits : Prop :=
  (∀ (s : State) (key n : Nat),
      s.linkActive = true →
      1 ≤ key →
      key ≤ 8 →
      key ≠ 7 →
      exec (.ctrlCredit key n) s = .next ((s.setTen { s.ten with credits := Tab.set s.ten.credits key (s.credit key + n) }).tenPump s.ten.out.length)) ∧
  (∀ (s : State) (n : Nat) (d : DescRef) (f : Fetched) (t : State),
      s.linkActive = true →
      s.ten.mailOut = [d] →
      s.fetchedAt .ten d = some f →
      16 + alignUp f.len 16 ≤ n →
      t = (s.setTen { s.ten with mailOut := [], credits := Tab.set s.ten.credits 7 (s.credit 7 + n) }).finish .ten d St.success →
      exec (.ctrlCredit 7 n) s = .next (t.tenPump t.ten.out.length)) ∧
  (∀ (s : State),
      s.linkActive = true →
      s.on TEN_TIME_STATUS.MASTER = false →
      s.due s.ten.timeAt = true →
      exec .timeReqPeriod s = .next ((s.setTen { s.ten with t1 := some s.now, timeAt := some (s.now + s.rd TEN_TIME_CFG.PERIOD * 1600) }).tenSend (.timeReq s.now))) ∧
  (∀ (s : State) (t1 : Nat),
      s.linkActive = true →
      s.on TEN_TIME_STATUS.MASTER = true →
      exec (.timeReq t1) s = .next ((s.received 2 1).tenSend (.timeResp t1 s.now s.now))) ∧
  (∀ (s : State) (t1 t2 t3 : Nat),
      s.linkActive = true →
      s.on TEN_TIME_STATUS.MASTER = false →
      s.ten.t1 = some t1 →
      ∃ t : State, exec (.timeResp t1 t2 t3) s = .next t ∧ t.ten.t1 = none ∧ t.ten.exchanged = true ∧ t.mem = s.mem) ∧
  (∀ (s : State) (t1 t2 t3 : Nat) (h off : Int) (u v : State),
      s.linkActive = true →
      s.on TEN_TIME_STATUS.MASTER = false →
      s.ten.t1 = some t1 →
      (h, u) = (s.received 2 1).half (((s.now : Int) - t3) - ((t2 : Int) - t1)) →
      off = h + toSigned (u.rd TEN_TIME_CFG.ASYM) 16 →
      v = ((u.wr TEN_TIME_STATUS.OFFSET (ofSigned off 32)).wr TEN_TIME_STATUS.RATE (u.wr TEN_TIME_STATUS.OFFSET (ofSigned off 32)).freeWord).draw →
      ¬ (u.heldShards = [] ∧ off ≤ -((u.rd TEN_TIME_CFG.STEP_MIN * mgmtTick : Nat) : Int)) →
      -32 ≤ off ∧ off ≤ 32 →
      exec (.timeResp t1 t2 t3) s = .next (((v.setTen { v.ten with t1 := none, exchanged := true, slewLeft := off, slewAt := if v.ten.slewLeft = 0 then v.now else v.ten.slewAt }).wr TEN_TIME_STATUS.SYNCED 1).setTen { (v.setTen { v.ten with t1 := none, exchanged := true, slewLeft := off, slewAt := if v.ten.slewLeft = 0 then v.now else v.ten.slewAt }).ten with synced := some v.now })) ∧
  (∀ (s : State) (t1 t2 t3 : Nat) (h off : Int) (u v : State),
      s.linkActive = true →
      s.on TEN_TIME_STATUS.MASTER = false →
      s.ten.t1 = some t1 →
      (h, u) = (s.received 2 1).half (((s.now : Int) - t3) - ((t2 : Int) - t1)) →
      off = h + toSigned (u.rd TEN_TIME_CFG.ASYM) 16 →
      v = ((u.wr TEN_TIME_STATUS.OFFSET (ofSigned off 32)).wr TEN_TIME_STATUS.RATE (u.wr TEN_TIME_STATUS.OFFSET (ofSigned off 32)).freeWord).draw →
      ¬ (u.heldShards = [] ∧ off ≤ -((u.rd TEN_TIME_CFG.STEP_MIN * mgmtTick : Nat) : Int)) →
      off < -32 ∨ 32 < off →
      exec (.timeResp t1 t2 t3) s = .next ((v.setTen { v.ten with t1 := none, exchanged := true, slewLeft := off, slewAt := if v.ten.slewLeft = 0 then v.now else v.ten.slewAt })).unsync) ∧
  (∀ (s : State) (t1 t2 t3 : Nat) (h off : Int) (u v : State),
      s.linkActive = true →
      s.on TEN_TIME_STATUS.MASTER = false →
      s.ten.t1 = some t1 →
      (h, u) = (s.received 2 1).half (((s.now : Int) - t3) - ((t2 : Int) - t1)) →
      off = h + toSigned (u.rd TEN_TIME_CFG.ASYM) 16 →
      v = { (((u.wr TEN_TIME_STATUS.OFFSET (ofSigned off 32)).wr TEN_TIME_STATUS.RATE (u.wr TEN_TIME_STATUS.OFFSET (ofSigned off 32)).freeWord).draw : State) with now := (u.now + (-off).toNat) % 2 ^ 64 } →
      (u.heldShards = [] ∧ off ≤ -((u.rd TEN_TIME_CFG.STEP_MIN * mgmtTick : Nat) : Int)) →
      off < -32 →
      exec (.timeResp t1 t2 t3) s = .next ((v.setTen { v.ten with t1 := none, exchanged := true, slewLeft := 0, slewAt := if v.ten.slewLeft = 0 then v.now else v.ten.slewAt })).unsync) ∧
  (∀ (s : State) (t1 t2 t3 : Nat),
      s.ten.t1 ≠ some t1 →
      exec (.timeResp t1 t2 t3) s = .next s) ∧
  (∀ (s : State),
      s.on TEN_TIME_STATUS.MASTER = false →
      s.ten.slewLeft < 0 →
      s.passed (s.ten.slewAt + 4096) = true →
      exec .timeSlew s = .next (({ s with now := (s.now + 1) % 2 ^ 64 } : State).setTen { s.ten with slewLeft := s.ten.slewLeft + 1, slewAt := (s.now + 1) % 2 ^ 64 })) ∧
  (∀ (s : State),
      s.on TEN_TIME_STATUS.MASTER = false →
      0 < s.ten.slewLeft →
      s.passed (s.ten.slewAt + 4096) = true →
      exec .timeSlew s = .next (s.setTen { s.ten with slewLeft := s.ten.slewLeft - 1, slewAt := s.now })) ∧
  (∀ (s : State) (at_ : Nat),
      s.ten.synced = some at_ →
      s.passed (at_ + 16 * mgmtTick) = true →
      exec .timeSyncLapse s = .next s.unsync)

/-- Forwarded commands, maintenance requests, mail and register access between the heads. FWD_REQ gives a command of the peer a context and makes it eligible in its class; FWD_RSP finishes the part, confirms its cancel, or shows it was past its commit point; FWD_CANCEL settles and confirms; FWD_WAIT_EXPIRY ends associations that wait on a silent peer. MAINT_INCREMENT is refused with its status or raises the count and journals it; MAINT_DEFER_ERASE erases the bands under a live lease and tells which, without one none; PEER_WIPE_CONSENT asks the blade and answers; MAINT_ACK refused ends an ERASE_ALL attach with WIPE_NO_CONSENT. MAIL_SEND leaves with its message, MAIL_RX is kept or placed, MAIL_RECV takes the oldest. A register read of the peer is served. Completion stated for: fwdReq, fwdRsp, fwdCancel, fwdWaitExpiry, maintIncrement, maintDeferErase, peerWipeConsent, maintAck, mailSend, mailRx, mailRecv, peerRegWrite, peerRegRead. -/
def Obligations.TenonForwardingMaintenanceMail : Prop :=
  (∀ (s : State) (tag k tenant : Nat) (cls : Fin 4) (shard : Fin 256) (capsule data : List (BitVec 8)) (c : NvmeCmd),
      s.linkActive = true →
      s.on PAR_CTL.EN = true →
      s.peerRoom = true →
      ((s.par.cmds.any fun e => e.2.origin == some tag) = false) →
      s.freeContext = some k →
      c = { sqe := capsule.take 64, incap := capsule.drop 64, ctx := none, cntlid := unboundCntlid, qid := 0, cls := cls.val, tenant := tenant, vol := 0, stage := .eligible, since := s.now, eligibleAt := s.now, buf := data, origin := some tag, only := some shard.val } →
      exec (.fwdReq tag cls tenant shard capsule data) s = .next ((((s.setCmd k { c with vol := volOfNsid c.nsid }).setPar { (s.setCmd k { c with vol := volOfNsid c.nsid }).par with ready := (s.setCmd k { c with vol := volOfNsid c.nsid }).par.ready ++ [k] }).countCtxs).received 8 (alignUp data.length 16))) ∧
  (∀ (s : State) (tag status dw0 dw1 k : Nat) (data : List (BitVec 8)) (c : NvmeCmd) (f : FwdPart) (t : State),
      s.linkActive = true →
      t = s.received 3 (32 + alignUp data.length 16) →
      t.forwarded tag = some (k, c, f) →
      f.st = 1 →
      exec (.fwdRsp tag status dw0 dw1 data false) s = .next ((t.setCmd k (c.partBack f status dw0 dw1 data)).finishIfDone k)) ∧
  (∀ (s : State) (tag status dw0 dw1 k : Nat) (data : List (BitVec 8)) (c : NvmeCmd) (f : FwdPart) (t : State),
      s.linkActive = true →
      t = s.received 3 (32 + alignUp data.length 16) →
      t.forwarded tag = some (k, c, f) →
      f.st = 3 →
      exec (.fwdRsp tag status dw0 dw1 data false) s = .next (t.setCmd k { c with past := true })) ∧
  (∀ (s : State) (tag status dw0 dw1 k : Nat) (data : List (BitVec 8)) (c c2 : NvmeCmd) (f : FwdPart) (t : State),
      s.linkActive = true →
      t = s.received 3 16 →
      t.forwarded tag = some (k, c, f) →
      f.st = 3 →
      c2 = { (c.partBack { f with st := 2 } Nv.sqDeletion 0 0 []) with past := (c.partBack { f with st := 2 } Nv.sqDeletion 0 0 []).past || status != Nv.sqDeletion } →
      exec (.fwdRsp tag status dw0 dw1 data true) s = .next ((t.setCmd k c2).cutSettled k c2)) ∧
  (∀ (s : State) (tag status dw0 dw1 : Nat) (data : List (BitVec 8)) (confirm : Bool) (t : State),
      s.linkActive = true →
      t = s.received 3 (if confirm then 16 else 32 + alignUp data.length 16) →
      t.forwarded tag = none →
      exec (.fwdRsp tag status dw0 dw1 data confirm) s = .next t) ∧
  (∀ (s : State) (tag : Nat),
      s.linkActive = true →
      ((s.par.cmds.any fun e => e.2.origin == some tag) = false) →
      exec (.fwdCancel tag) s = .next (s.tenSend (.cancelled tag true))) ∧
  (∀ (s : State) (tag k : Nat) (c : NvmeCmd),
      s.linkActive = true →
      ((s.par.cmds.find? fun e => e.2.origin == some tag) = some (k, c)) →
      s.pastCommit k c = false →
      exec (.fwdCancel tag) s = .next ((s.cancel k).tenSend (.cancelled tag false))) ∧
  (∀ (s : State) (tag k : Nat) (c : NvmeCmd),
      s.linkActive = true →
      ((s.par.cmds.find? fun e => e.2.origin == some tag) = some (k, c)) →
      s.pastCommit k c = true →
      exec (.fwdCancel tag) s = .next (s.setCmd k { c with cut := true })) ∧
  (∀ (s : State) (at_ : Nat) (t u : State),
      s.leaseU.linkOut = some at_ →
      s.leaseU.peerLost = false →
      s.passed (at_ + s.rd TEN_FWD_CFG.FWD_WAIT * mgmtTick) = true →
      (t = s.setPar { s.par with cmds := Tab.mapV s.par.cmds fun _ (c : NvmeCmd) => if c.origin.isSome then { c with cut := true } else c }) →
      (u = t.setTen { t.ten with out := t.ten.out.filter fun m => match m with | .fwdRsp _ _ _ _ _ | .cancelled _ _ => false | _ => true }) →
      exec .fwdWaitExpiry s = .next (((s.par.cmds.filter fun (e : Nat × NvmeCmd) => e.2.origin.isNone && e.2.fwds.any fun f => f.st == 1).map (·.2.cntlid)).eraseDups.foldl
        (fun (s : State) n => s.assocLoss n assocCause.forward) u)) ∧
  (∀ (s : State) (tag locator count st : Nat) (shard : Fin 256),
      s.linkActive = true →
      (s.received 5 32).sepShardRefused shard = some st →
      exec (.maintIncrement tag shard locator count) s = .next ((s.received 5 32).tenSend (.incremented tag st))) ∧
  (∀ (s : State) (tag locator count : Nat) (shard : Fin 256) (t : State),
      s.linkActive = true →
      t = s.received 5 32 →
      t.sepShardRefused shard = none →
      ((Tab.get? t.sep.byLoc (copyKey shard (t.locNow shard locator))).bind t.entryAt) = none →
      exec (.maintIncrement tag shard locator count) s = .next (t.tenSend (.incremented tag St.locatorStale))) ∧
  (∀ (s : State) (tag locator count h : Nat) (shard : Fin 256) (e : FEntry) (t : State),
      s.linkActive = true →
      t = s.received 5 32 →
      t.sepShardRefused shard = none →
      Tab.get? t.sep.byLoc (copyKey shard (t.locNow shard locator)) = some h →
      t.entryAt h = some e →
      2 ^ 32 - 1 < e.refs + count →
      exec (.maintIncrement tag shard locator count) s = .next (t.tenSend (.incremented tag St.countSaturated))) ∧
  (∀ (s : State) (tag locator count h : Nat) (shard : Fin 256) (e : FEntry) (t : State),
      s.linkActive = true →
      t = s.received 5 32 →
      t.sepShardRefused shard = none →
      Tab.get? t.sep.byLoc (copyKey shard (t.locNow shard locator)) = some h →
      t.entryAt h = some e →
      e.refs + count < 2 ^ 32 →
      exec (.maintIncrement tag shard locator count) s = .next ((t.putEntry h { e with refs := e.refs + count }).journal shard
        { type := Jt.incr, epoch := 0, arg0 := e.locator, arg1 := count, done := .maint tag }).2) ∧
  (∀ (s : State) (tag : Nat) (blade : Fin 16) (shard : Fin 256) (bands : List Nat) (ms : List Medium) (t : State),
      s.linkActive = true →
      t = s.received 5 (16 + alignUp (2 * bands.length) 16) →
      t.liveLease shard = true →
      t.cellSt shard = Cst.ready →
      exec (.maintDeferErase tag blade shard bands ms) s = .next (t.scripted ms fun u => (u.peerErase blade shard bands).2.tenSend (.deferErased tag (u.peerErase blade shard bands).1))) ∧
  (∀ (s : State) (tag : Nat) (blade : Fin 16) (shard : Fin 256) (bands : List Nat) (ms : List Medium) (t : State),
      s.linkActive = true →
      t = s.received 5 (16 + alignUp (2 * bands.length) 16) →
      t.liveLease shard = false ∨ t.cellSt shard ≠ Cst.ready →
      exec (.maintDeferErase tag blade shard bands ms) s = .next (t.tenSend (.deferErased tag []))) ∧
  (∀ (s : State) (tag : Nat) (blade : Fin 16),
      s.linkActive = true →
      exec (.peerWipeConsent tag blade) s = .next (((s.received 5 16).bladeSync blade ⟨bcpImg Bop.wipeConsent 0 0 0 0 0 0 [], [], []⟩).2.tenSend
        (.wipeConsent tag blade (((s.received 5 16).bladeSync blade ⟨bcpImg Bop.wipeConsent 0 0 0 0 0 0 [], [], []⟩).1.status == St.success)))) ∧
  (∀ (s : State) (tag : Nat) (ms : List Medium) (d : DescRef) (f : Fetched) (t u : State),
      s.linkActive = true →
      t = s.received 5 16 →
      t.ten.maint = [(tag, d)] →
      u = t.setTen { t.ten with maint := [] } →
      u.fetchedAt .cell d = some f →
      (f.at 29 1).testBit 0 = true →
      exec (.maintAck tag false [] ms) s = .next ((u.wr (CELL_BLADE.STATE (f.at 28 1)) 0).finish .cell d St.wipeNoConsent)) ∧
  (∀ (s : State) (tag : Nat) (ok : Bool) (bands : List Nat) (ms : List Medium) (t : State),
      s.linkActive = true →
      t = s.received 5 (16 + alignUp (2 * bands.length) 16) →
      ((t.ten.maint.find? fun e => e.1 == tag) = none) →
      exec (.maintAck tag ok bands ms) s = .next t) ∧
  (∀ (s : State) (tag : Nat) (ok : Bool) (bands : List Nat) (ms : List Medium) (d : DescRef) (f : Fetched) (t u v : State),
      s.linkActive = true →
      t = s.received 5 (16 + alignUp (2 * bands.length) 16) →
      ((t.ten.maint.find? fun e => e.1 == tag) = some (tag, d)) →
      (u = t.setTen { t.ten with maint := t.ten.maint.filter fun e => e.1 != tag }) →
      u.fetchedAt .cell d = some f →
      (f.at 29 1).testBit 0 = false →
      (v = u.setCblade (f.at 28 1) { u.cblade (f.at 28 1) with defers := (u.cblade (f.at 28 1)).defers.filter fun e => !bands.contains e.2.2 }) →
      ((v.ten.maint.any fun e => e.2 == d) = true) →
      exec (.maintAck tag ok bands ms) s = .next v) ∧
  (∀ (s : State) (d : DescRef) (f : Fetched) (bs : List Byte) (t : State),
      s.startedAt .ten d Op.mailSend = some f →
      s.ten.mailOut.contains d = false →
      s.linkActive = true →
      f.len ≤ 4096 →
      0 < f.len →
      (s.dmaRead .ten f.src f.len (some d.ring)).toOption = some bs →
      t = s.setPhase .ten d .waiting →
      exec (.mailSend d) s = .next ((t.setTen { t.ten with mailOut := t.ten.mailOut ++ [d] }).tenSend (.mail (f.at 28 4) bs))) ∧
  (∀ (s : State) (d : DescRef) (f : Fetched),
      s.startedAt .ten d Op.mailSend = some f →
      s.ten.mailOut.contains d = false →
      s.linkActive = false →
      exec (.mailSend d) s = .next (s.finish .ten d St.linkDown)) ∧
  (∀ (s : State) (d : DescRef) (f : Fetched),
      s.startedAt .ten d Op.mailSend = some f →
      s.ten.mailOut.contains d = false →
      s.linkActive = true →
      4096 < f.len →
      exec (.mailSend d) s = .next (s.finish .ten d St.msgTooLong)) ∧
  (∀ (s : State) (tag : Nat) (bytes : List (BitVec 8)) (d : DescRef) (f : Fetched) (t : State),
      s.linkActive = true →
      bytes ≠ [] →
      bytes.length ≤ 4096 →
      t = s.setTen { s.ten with mail := s.ten.mail ++ [(tag % 2 ^ 32, bytes)] } →
      t.firstWaiting .ten Op.mailRecv = some (d, f) →
      exec (.mailRx tag bytes) s = .next (t.mailPlace d f)) ∧
  (∀ (s : State) (tag : Nat) (bytes : List (BitVec 8)),
      s.linkActive = true →
      bytes ≠ [] →
      bytes.length ≤ 4096 →
      s.firstWaiting .ten Op.mailRecv = none →
      exec (.mailRx tag bytes) s = .next (s.setTen { s.ten with mail := s.ten.mail ++ [(tag % 2 ^ 32, bytes)] })) ∧
  (∀ (s : State) (d : DescRef) (f : Fetched) (tag : Nat) (bs : List Byte) (rest : List (Nat × List Byte)) (t : State),
      s.startedAt .ten d Op.mailRecv = some f →
      4096 ≤ f.len →
      s.ten.mail = (tag, bs) :: rest →
      (s.dmaWrite .ten f.dst bs (some d.ring)).toOption = some t →
      exec (.mailRecv d) s = .next (((t.setTen { t.ten with mail := rest }).received 7
        (16 + alignUp bs.length 16)).finish .ten d St.success 0 (bs.length + tag * 2 ^ 32))) ∧
  (∀ (s : State) (d : DescRef) (f : Fetched),
      s.startedAt .ten d Op.mailRecv = some f →
      4096 ≤ f.len →
      s.ten.mail = [] →
      exec (.mailRecv d) s = .next (s.setPhase .ten d .waiting)) ∧
  (∀ (s : State) (tag nn : Nat) (addr : PAddr) (value : Word) (u : UnitId),
      s.linkActive = true →
      peerInitiator nn = true →
      inCsr addr.toNat = true →
      csrUnit (addr.toNat - csrBase) = some u →
      (addr.toNat - csrBase) % 8 = 0 →
      (s.received 6 1).bit TEN_REG_ALLOW.UNIT (unitN u) = true →
      exec (.peerRegWrite tag nn addr value) s = .next (((s.received 6 1).csrStore (BitVec.ofNat 16 (0x400 + nn)) u (addr.toNat - csrBase) value.toNat).tenSend
        (.regResp tag St.success 0))) ∧
  (∀ (s : State) (tag nn : Nat) (addr : PAddr) (value : Word) (u : UnitId),
      s.linkActive = true →
      peerInitiator nn = true →
      inCsr addr.toNat = true →
      csrUnit (addr.toNat - csrBase) = some u →
      (addr.toNat - csrBase) % 8 = 0 →
      (s.received 6 1).bit TEN_REG_ALLOW.UNIT (unitN u) = false →
      exec (.peerRegWrite tag nn addr value) s = .next (((s.received 6 1).unitErr u (BitVec.ofNat 16 (0x400 + nn)).toNat (errOffset (addr.toNat - csrBase)) 3).tenSend
        (.regResp tag St.regRefused 0))) ∧
  (∀ (s : State) (tag nn : Nat) (addr : PAddr) (u : UnitId) (t : State),
      s.linkActive = true →
      peerInitiator nn = true →
      inCsr addr.toNat = true →
      csrUnit (addr.toNat - csrBase) = some u →
      (addr.toNat - csrBase) % 8 = 0 →
      (t = if State.implemented u (addr.toNat - csrBase) then s.received 6 1 else (s.received 6 1).unitErr u (0x400 + nn) (errOffset (addr.toNat - csrBase)) 2) →
      exec (.peerRegRead tag nn addr) s = .next ((t.csrReadBy (0x400 + nn) (addr.toNat - csrBase)).1.tenSend (.regResp tag St.success (t.csrReadBy (0x400 + nn) (addr.toNat - csrBase)).2))) ∧
  (∀ (s : State) (tag nn : Nat) (addr : PAddr) (u : UnitId),
      s.linkActive = true →
      peerInitiator nn = true →
      inCsr addr.toNat = true →
      csrUnit (addr.toNat - csrBase) = some u →
      (addr.toNat - csrBase) % 8 = 0 →
      State.implemented u (addr.toNat - csrBase) = true →
      addr.toNat - csrBase < 0x5202000 ∨ 0x5204088 ≤ addr.toNat - csrBase →
      exec (.peerRegRead tag nn addr) s = .next ((s.received 6 1).tenSend (.regResp tag St.success ((s.received 6 1).csrWord (addr.toNat - csrBase)))))

/-- Leases are renewed, lapse and become held; the peer's NOTE, OFFER, WON, REFUSE, LOST and ABDICATE. RENEW_ROUND of an enabled head that has not abdicated runs a round when due; LEASE_EXPIRY loses a shard whose term has ended; QUIET_END makes a QUIET shard HELD, or loses it where its term ends in the same tick; LEASE_TAIL_END and RELEASE_READ_DEADLINE list what has not left. NOTE marks its shards PEER_HELD; two renew periods of silence make them UNKNOWN. OFFER in mode RUNNING starts a win, in another is refused, as it is with a DRAIN in the same cycle, and leaves a shard to the takeover where the peer is lost in the same cycle; WON and REFUSE end a release; LOST makes the shard UNKNOWN, and with AUTO_TAKE takes it over; ABDICATE of the peer declares it lost. Completion stated for: renewRound, leaseExpiry, leaseTailEnd, quietEnd, releaseReadDeadline, note, noteSilenceExpiry, offer, won, refuse, lost, abdicate. -/
def Obligations.LeaseRoundsExpiriesAndMessages : Prop :=
  (∀ (s : State),
      s.on LEASE_CTL.EN = true →
      s.leaseMode ≠ Lmode.abdicated →
      s.leaseU.renewAt = none →
      exec .renewRound s = .next s.renewRound) ∧
  (∀ (s : State) (at_ : Nat),
      s.on LEASE_CTL.EN = true →
      s.leaseMode ≠ Lmode.abdicated →
      s.leaseU.renewAt = some at_ →
      s.passed at_ = true →
      exec .renewRound s = .next s.renewRound) ∧
  (∀ (s : State),
      s.leaseMode = Lmode.abdicated →
      exec .renewRound s = .next s) ∧
  (∀ (s : State) (sh : Nat),
      s.renewed sh = true →
      s.passed (s.leaseX sh).ends = true →
      exec (.leaseExpiry sh) s = .next (s.loseHold sh)) ∧
  (∀ (s : State) (sh : Nat),
      s.renewed sh = true →
      s.passed (s.leaseX sh).ends = false →
      exec (.leaseExpiry sh) s = .next s) ∧
  (∀ (s : State) (sh : Nat),
      s.due (s.leaseX sh).tailEnd = true →
      exec (.leaseTailEnd sh) s = .next ((s.setLeaseX sh { s.leaseX sh with tailEnd := none }).listReads sh)) ∧
  (∀ (s : State) (sh : Nat),
      s.leaseSt sh = Lst.quiet →
      s.due (s.leaseX sh).quietEnd = true →
      s.now < (s.leaseX sh).ends →
      exec (.quietEnd sh) s = .next ((s.setLeaseX sh { s.leaseX sh with quietEnd := none }).setLeaseSt sh Lst.held)) ∧
  (∀ (s : State) (sh : Nat),
      s.leaseSt sh = Lst.quiet →
      s.due (s.leaseX sh).quietEnd = true →
      (s.leaseX sh).ends ≤ s.now →
      exec (.quietEnd sh) s = .next (s.loseHold sh)) ∧
  (∀ (s : State) (sh : Nat),
      s.due (s.leaseX sh).readBy = true →
      exec (.releaseReadDeadline sh) s = .next ((s.setLeaseX sh { s.leaseX sh with readBy := none }).listReads sh)) ∧
  (∀ (s : State) (sh epoch left : Nat) (running : Bool) (t : State),
      s.linkActive = true →
      t = s.received 1 1 →
      t.linkActive = true →
      sh < 256 →
      exec (.note [(sh, epoch, left)] running) s = .next ((t.setLease { t.leaseU with note := [(sh, epoch)], peerRunning := running }).noted sh epoch)) ∧
  (∀ (s : State) (ls : List (Nat × Nat × Nat)) (running : Bool) (t u : State),
      t = s.received 1 1 →
      t.linkActive = true →
      (u = t.setLease { t.leaseU with note := (ls.filter fun e => e.1 < 256).foldl (fun (a : Tab Nat) e => Tab.set a e.1 e.2.1) [], peerRunning := running }) →
      exec (.note ls running) s = .next ((ls.filter fun (e : Nat × Nat × Nat) => e.1 < 256).foldl (fun (s : State) (e : Nat × Nat × Nat) => s.noted e.1 e.2.1) u)) ∧
  (∀ (s : State) (sh : Nat),
      s.leaseSt sh = Lst.peerHeld →
      s.passed ((s.leaseX sh).noteAt + 2 * s.rd LEASE_CFG.RENEW * mgmtTick) = true →
      exec (.noteSilenceExpiry sh) s = .next (s.peerGone sh)) ∧
  (∀ (s : State) (sh epoch : Nat) (t u : State),
      t = s.received 1 1 →
      t.linkActive = true →
      t.on LEASE_CTL.EN = true →
      t.leaseSt sh = Lst.unknown ∨ t.leaseSt sh = Lst.peerHeld →
      u = t.setLeaseX sh { t.leaseX sh with counter := max (t.leaseX sh).counter (epoch / 2) } →
      u.lossNow = false →
      u.drainNow = false →
      u.leaseMode = Lmode.running →
      exec (.offer sh epoch) s = .next (u.startWin sh false none)) ∧
  (∀ (s : State) (sh epoch : Nat) (t u : State),
      t = s.received 1 1 →
      t.linkActive = true →
      t.on LEASE_CTL.EN = true →
      t.leaseSt sh = Lst.unknown ∨ t.leaseSt sh = Lst.peerHeld →
      u = t.setLeaseX sh { t.leaseX sh with counter := max (t.leaseX sh).counter (epoch / 2) } →
      u.lossNow = false →
      u.leaseMode ≠ Lmode.running ∨ u.drainNow = true →
      exec (.offer sh epoch) s = .next (u.tenSend (.refuse sh))) ∧
  (∀ (s : State) (sh epoch : Nat) (t u : State),
      t = s.received 1 1 →
      t.linkActive = true →
      t.on LEASE_CTL.EN = true →
      t.leaseSt sh = Lst.unknown ∨ t.leaseSt sh = Lst.peerHeld →
      u = t.setLeaseX sh { t.leaseX sh with counter := max (t.leaseX sh).counter (epoch / 2) } →
      u.lossNow = true →
      exec (.offer sh epoch) s = .next u) ∧
  (∀ (s : State) (sh epoch w : Nat) (t : State),
      t = s.received 1 1 →
      s.linkActive = true →
      t.linkActive = true →
      t.givenUp sh = true →
      exec (.won sh epoch w) s = .next ((t.wr (LEASE_EPOCH.EPOCH sh) epoch).leaveReleased sh Lst.peerHeld w St.success epoch)) ∧
  (∀ (s : State) (sh : Nat) (t : State),
      t = s.received 1 1 →
      t.linkActive = true →
      t.givenUp sh = true →
      exec (.refuse sh) s = .next ((t.leaveReleased sh Lst.unknown t.now St.handoffRefused 0).leaseEvent 6 sh
        (t.rd (LEASE_EPOCH.EPOCH sh)))) ∧
  (∀ (s : State) (sh : Nat) (t : State),
      (t = ((s.received 1 1).peerGone sh).reexecForwarded (fun x => x == sh)) →
      (s.received 1 1).linkActive = true →
      t.on LEASE_CTL.AUTO_TAKE = false →
      exec (.lost sh) s = .next t) ∧
  (∀ (s : State) (sh : Nat) (t : State),
      (t = ((s.received 1 1).peerGone sh).reexecForwarded (fun x => x == sh)) →
      (s.received 1 1).linkActive = true →
      t.on LEASE_CTL.AUTO_TAKE = true →
      t.on LEASE_CTL.EN = true →
      t.leaseMode = Lmode.running →
      t.leaseSt sh = Lst.unknown →
      exec (.lost sh) s = .next (t.startWin sh true none)) ∧
  (∀ (s : State) (cause : Nat) (t : State),
      t = s.received 1 1 →
      t.linkActive = true →
      exec (.abdicate cause) s = .next (((t.raise Ev.abdicate (some .lease) none [cause]).leaseEvent 7 0 0).declareLoss))

/-- Takeovers end or go on, the heartbeat toggles and dies, the watchdog and ABDICATE give up the head, drills come due and are missed. TAKE_LIMIT_EXPIRY of an offer without WON fails the handoff, of a win abandons it; TAKEOVER_SILENCE_REACHED sends SET_EPOCH to a blade whose silence suffices. HB_OUT_TOGGLE toggles HB_OUT and is due again 800,000 ticks later; HB_IN_EDGE marks the input alive; HB_LOSS_EXPIRY with no edge for HB_LOSS marks it dead and looks for the loss of the peer, as LINK_DOWN_HB_LOSS_EXPIRY does; during an activation the loss waits for its end. WATCHDOG_KICK restarts the watchdog; its expiry, ABDICATE_WRITE and a fatal machine check abdicate with causes 1, 4 and 2. DRILL_DUE queues its event, DRILL_GRACE_EXPIRY counts a missed drill. Completion stated for: takeoverSilenceReached, takeLimitExpiry, hbOutToggle, hbInEdge, hbLossExpiry, linkDownHbLossExpiry, watchdogKick, watchdogExpiry, abdicateWrite, fatalMachineCheck, drillDue, drillGraceExpiry. -/
def Obligations.LeaseTakeoverHeartbeatDrills : Prop :=
  (∀ (s : State) (sh b : Nat),
      s.leaseSt sh = Lst.winning →
      s.due (Tab.get? (s.leaseX sh).ready b) = true →
      (s.leaseX sh).sent.contains b = false →
      exec (.takeoverSilenceReached sh b) s = .next (s.sendEpoch sh b)) ∧
  (∀ (s : State) (sh : Nat),
      s.due (s.leaseX sh).takeBy = true →
      s.leaseSt sh ≠ Lst.winning →
      s.givenUp sh = true →
      exec (.takeLimitExpiry sh) s = .next (s.leaveReleased sh Lst.unknown s.now St.handoffRefused 0)) ∧
  (∀ (s : State) (sh : Nat) (t : State),
      s.due (s.leaseX sh).takeBy = true →
      s.leaseSt sh = Lst.winning →
      (s.leaseX sh).take = none →
      t = s.releaseOn sh (s.rd (LEASE_EPOCH.EPOCH sh)) (s.leaseX sh).accepts →
      exec (.takeLimitExpiry sh) s = .next ((((t.setLeaseX sh { s.leaseX sh with takeBy := none, take := none }).setLeaseSt sh Lst.unknown).raise Ev.takeAbandoned
        (some .lease) (some sh) [sh]).endListed sh)) ∧
  (∀ (s : State) (sh : Nat) (d : DescRef) (t : State),
      s.due (s.leaseX sh).takeBy = true →
      s.leaseSt sh = Lst.winning →
      (s.leaseX sh).take = some d →
      t = s.releaseOn sh (s.rd (LEASE_EPOCH.EPOCH sh)) (s.leaseX sh).accepts →
      exec (.takeLimitExpiry sh) s = .next (((((t.setLeaseX sh { s.leaseX sh with takeBy := none, take := none }).setLeaseSt sh Lst.unknown).raise Ev.takeAbandoned
        (some .lease) (some sh) [sh]).endListed sh).finish .lease d St.quorumLost)) ∧
  (∀ (s : State) (at_ : Nat) (p : Pins),
      s.on LEASE_HB_CFG.HB_OUT_EN = true →
      s.leaseMode ≠ Lmode.abdicated →
      s.solo = false →
      s.boot.cold = false →
      s.boot.warmUntil = none →
      s.leaseU.hbOutAt = some at_ →
      s.passed at_ = true →
      p = { s.pins with hbOut := !s.pins.hbOut } →
      exec .hbOutToggle s = .next { s.setLease { s.leaseU with hbOutAt := some (at_ + 800000) } with pins := p }) ∧
  (∀ (s : State) (p : Pins),
      s.on LEASE_HB_CFG.HB_OUT_EN = true →
      s.leaseMode ≠ Lmode.abdicated →
      s.solo = false →
      s.boot.cold = false →
      s.boot.warmUntil = none →
      s.leaseU.hbOutAt = none →
      p = { s.pins with hbOut := !s.pins.hbOut } →
      exec .hbOutToggle s = .next { s.setLease { s.leaseU with hbOutAt := some (s.now + 800000) } with pins := p }) ∧
  (∀ (s : State) (at_ : Nat),
      s.leaseU.hbOutAt = some at_ →
      s.passed at_ = false →
      exec .hbOutToggle s = .next s) ∧
  (∀ (s : State),
      exec .hbInEdge s = .next ((s.setLease { s.leaseU with hbInAt := s.now }).wr LEASE_STATUS.HB_IN_OK 1)) ∧
  (∀ (s : State),
      s.hbDead = true →
      s.passed (s.leaseU.hbInAt + s.rd LEASE_HB_CFG.HB_LOSS) = true →
      s.on LEASE_STATUS.HB_IN_OK = false ∨ (s.wr LEASE_STATUS.HB_IN_OK 0).linkActive = false →
      exec .hbLossExpiry s = .next (s.wr LEASE_STATUS.HB_IN_OK 0).peerCheck) ∧
  (∀ (s : State),
      s.hbDead = true →
      s.passed (s.leaseU.hbInAt + s.rd LEASE_HB_CFG.HB_LOSS) = true →
      s.on LEASE_STATUS.HB_IN_OK = true →
      (s.wr LEASE_STATUS.HB_IN_OK 0).linkActive = true →
      exec .hbLossExpiry s = .next ((s.wr LEASE_STATUS.HB_IN_OK 0).raise Ev.hbInLost (some .lease)).peerCheck) ∧
  (∀ (s : State),
      s.hbDead = false →
      exec .hbLossExpiry s = .next s) ∧
  (∀ (s : State),
      s.on LEASE_CTL.EN = true →
      s.solo = false →
      s.leaseU.peerLost = false →
      s.hbDead = true →
      s.linkDead = true →
      s.activating = false →
      exec .linkDownHbLossExpiry s = .next s.peerLoss) ∧
  (∀ (s : State),
      s.on LEASE_CTL.EN = true →
      s.solo = false →
      s.leaseU.peerLost = false →
      s.hbDead = true →
      s.linkDead = true →
      s.activating = true →
      exec .linkDownHbLossExpiry s = .next (s.setLease { s.leaseU with lossDue := true })) ∧
  (∀ (s : State) (origin : Origin),
      s.originThere origin.toNat = true →
      s.audited false origin.toNat = false →
      s.on LEASE_CTL.EN = false →
      exec (.watchdogKick origin) s = .next s) ∧
  (∀ (s : State) (origin : Origin),
      s.originThere origin.toNat = true →
      s.audited false origin.toNat = false →
      s.on LEASE_CTL.EN = true →
      exec (.watchdogKick origin) s = .next (s.setLease { s.leaseU with wdogBy := some (s.inMgmt (s.rd LEASE_HB_CFG.WDOG_LIMIT)) })) ∧
  (∀ (s : State),
      s.due s.leaseU.wdogBy = true →
      exec .watchdogExpiry s = .next ((s.setLease { s.leaseU with wdogBy := none }).abdicate 1)) ∧
  (∀ (s : State) (origin : Origin),
      s.admits .lease origin = true →
      exec (.abdicateWrite origin) s = .next (s.journaled ((s.wr LEASE_CTL.ABDICATE 1).abdicate 4) origin LEASE_CTL.ABDICATE 1)) ∧
  (∀ (s : State) (c : Cool),
      c = { s.cool with fatal := false } →
      exec .fatalMachineCheck s = .next (({ s with cool := c } : State).abdicate 2)) ∧
  (∀ (s : State) (sh k p : Nat),
      s.on LEASE_CTL.EN = true →
      s.on LEASE_DRILL_CFG.EN = true →
      s.solo = false →
      k = s.now / mgmtTick →
      p = s.rd LEASE_DRILL_CFG.PERIOD →
      k % p = sh * p / 256 →
      (s.leaseX sh).drillAt ≠ k + 1 →
      s.linkActive = true →
      s.leaseU.peerRunning = true →
      s.leaseMode = Lmode.running →
      s.rd (PAR_SHARD.STATE sh) = Pst.owned →
      exec (.drillDue sh) s = .next ((s.setLeaseX sh { s.leaseX sh with drillAt := k + 1, drillBy := some (s.inMgmt (s.rd LEASE_DRILL_CFG.GRACE)) }).leaseEvent 5 sh
        (s.rd (LEASE_EPOCH.EPOCH sh)))) ∧
  (∀ (s : State) (sh : Nat),
      s.due (s.leaseX sh).drillBy = true →
      exec (.drillGraceExpiry sh) s = .next (((s.setLeaseX sh { s.leaseX sh with drillBy := none }).bump LEASE_STATUS.DRILLS_MISSED 1).raise Ev.drillMissed
        (some .lease) (some sh) [sh]))

/-- What the Lease unit's descriptors do. HANDOFF_BEGIN of a HELD shard makes it RELEASING and, with no command past its commit point, completes; HANDOFF_COMMIT issues LEASE_RELEASE to every counted blade and waits; HANDOFF_ABORT before commit returns the shard to HELD; TAKE of an UNKNOWN shard in mode RUNNING starts a takeover; DRAIN goes to DRAINING and, with nothing held, to DRAINED; UNDRAIN returns to RUNNING; EVENT_WAIT takes the oldest event, or waits. What the state does not allow ends with its status: NOT_OWNER, LEASE_BUSY, LINK_DOWN, DRAIN_STATE. On a SOLO head all but TAKE and EVENT_WAIT complete with PEER_ABSENT. Completion stated for: handoffBegin, handoffCommit, handoffAbort, take, drain, undrain, eventWait. -/
def Obligations.LeaseDescriptors : Prop :=
  (∀ (s : State) (d : DescRef) (f : Fetched) (t : State),
      s.startedAt .lease d Op.handoffBegin = some f →
      s.solo = false →
      (s.leaseX (f.at 28 1)).begin_ ≠ some d →
      s.leaseSt (f.at 28 1) = Lst.held →
      (((List.range 256).filter fun k => s.leaseSt k == Lst.releasing).length < s.rd LEASE_DRILL_CFG.DRAIN_PAR) →
      s.linkActive = true →
      t = s.setLeaseSt (f.at 28 1) Lst.releasing →
      t.commitsOpen (f.at 28 1) = false →
      exec (.handoffBegin d) s = .next (t.finish .lease d St.success)) ∧
  (∀ (s : State) (d : DescRef) (f : Fetched) (t : State),
      s.startedAt .lease d Op.handoffBegin = some f →
      s.solo = false →
      (s.leaseX (f.at 28 1)).begin_ ≠ some d →
      s.leaseSt (f.at 28 1) = Lst.held →
      (((List.range 256).filter fun k => s.leaseSt k == Lst.releasing).length < s.rd LEASE_DRILL_CFG.DRAIN_PAR) →
      s.linkActive = true →
      t = s.setLeaseSt (f.at 28 1) Lst.releasing →
      t.commitsOpen (f.at 28 1) = true →
      exec (.handoffBegin d) s = .next ((t.setLeaseX (f.at 28 1) { t.leaseX (f.at 28 1) with begin_ := some d }).setPhase .lease d .waiting)) ∧
  (∀ (s : State) (d : DescRef) (f : Fetched),
      s.startedAt .lease d Op.handoffBegin = some f →
      s.solo = false →
      (s.leaseX (f.at 28 1)).begin_ ≠ some d →
      s.leaseSt (f.at 28 1) = Lst.held →
      (s.rd LEASE_DRILL_CFG.DRAIN_PAR ≤ ((List.range 256).filter fun k => s.leaseSt k == Lst.releasing).length) →
      exec (.handoffBegin d) s = .next (s.finish .lease d St.leaseBusy)) ∧
  (∀ (s : State) (d : DescRef) (f : Fetched),
      s.startedAt .lease d Op.handoffBegin = some f →
      s.solo = false →
      (s.leaseX (f.at 28 1)).begin_ ≠ some d →
      s.leaseSt (f.at 28 1) = Lst.held →
      (((List.range 256).filter fun k => s.leaseSt k == Lst.releasing).length < s.rd LEASE_DRILL_CFG.DRAIN_PAR) →
      s.linkActive = false →
      exec (.handoffBegin d) s = .next (s.finish .lease d St.linkDown)) ∧
  (∀ (s : State) (d : DescRef) (f : Fetched),
      s.startedAt .lease d Op.handoffBegin = some f →
      s.solo = false →
      (s.leaseX (f.at 28 1)).begin_ = some d →
      s.commitsOpen (f.at 28 1) = false →
      exec (.handoffBegin d) s = .next ((s.setLeaseX (f.at 28 1) { s.leaseX (f.at 28 1) with begin_ := none }).finish .lease d St.success)) ∧
  (∀ (s : State) (d : DescRef) (f : Fetched),
      s.startedAt .lease d Op.handoffCommit = some f →
      s.solo = false →
      (s.leaseX (f.at 28 1)).commit ≠ some d →
      s.leaseSt (f.at 28 1) ≠ Lst.releasing ∨ (s.leaseX (f.at 28 1)).committed = true ∨ (s.leaseX (f.at 28 1)).begin_ ≠ none →
      exec (.handoffCommit d) s = .next (s.finish .lease d St.notOwner)) ∧
  (∀ (s : State) (d : DescRef) (f : Fetched),
      s.startedAt .lease d Op.handoffAbort = some f →
      s.solo = false →
      s.leaseSt (f.at 28 1) ≠ Lst.releasing ∨ (s.leaseX (f.at 28 1)).committed = true →
      exec (.handoffAbort d) s = .next (s.finish .lease d St.notOwner)) ∧
  (∀ (s : State) (d e : DescRef) (f : Fetched),
      s.startedAt .lease d Op.handoffAbort = some f →
      s.solo = false →
      s.leaseSt (f.at 28 1) = Lst.releasing →
      (s.leaseX (f.at 28 1)).committed = false →
      (s.leaseX (f.at 28 1)).begin_ = some e →
      exec (.handoffAbort d) s = .next ((((s.setLeaseX (f.at 28 1) { s.leaseX (f.at 28 1) with begin_ := none }).setLeaseSt (f.at 28 1) Lst.held).finish .lease e St.notOwner).finish .lease d
        St.success)) ∧
  (∀ (s : State) (d : DescRef) (f : Fetched),
      s.startedAt .lease d Op.take = some f →
      (s.leaseX (f.at 28 1)).take ≠ some d →
      s.leaseMode ≠ Lmode.running →
      exec (.take d) s = .next (s.finish .lease d St.drainState)) ∧
  (∀ (s : State) (d : DescRef) (f : Fetched),
      s.startedAt .lease d Op.take = some f →
      (s.leaseX (f.at 28 1)).take ≠ some d →
      s.leaseMode = Lmode.running →
      s.leaseSt (f.at 28 1) ≠ Lst.unknown →
      exec (.take d) s = .next (s.finish .lease d St.leaseBusy)) ∧
  (∀ (s : State) (d : DescRef) (f : Fetched),
      s.startedAt .lease d Op.drain = some f →
      s.solo = false →
      s.leaseU.drain ≠ some d →
      s.leaseMode ≠ Lmode.running →
      exec (.drain d) s = .next (s.finish .lease d St.drainState)) ∧
  (∀ (s : State) (d : DescRef) (f : Fetched),
      s.startedAt .lease d Op.undrain = some f →
      s.solo = false →
      s.activating = false →
      s.leaseMode ≠ Lmode.drained →
      s.leaseMode ≠ Lmode.draining →
      exec (.undrain d) s = .next (s.finish .lease d St.drainState)) ∧
  (∀ (s : State) (d e : DescRef) (f : Fetched),
      s.startedAt .lease d Op.undrain = some f →
      s.solo = false →
      s.activating = false →
      s.leaseMode = Lmode.draining →
      s.leaseU.drain = some e →
      exec (.undrain d) s = .next ((((s.wr LEASE_CTL.MODE Lmode.running).setLease { s.leaseU with drain := none }).finish .lease e St.drainState).finish .lease d St.success)) ∧
  (∀ (s : State) (d : DescRef) (f : Fetched),
      s.startedAt .lease d Op.handoffBegin = some f →
      s.solo = false →
      (s.leaseX (f.at 28 1)).begin_ ≠ some d →
      s.leaseSt (f.at 28 1) ≠ Lst.held →
      exec (.handoffBegin d) s = .next (s.finish .lease d St.notOwner)) ∧
  (∀ (s : State) (d : DescRef) (f : Fetched) (x : LeaseX),
      s.startedAt .lease d Op.handoffCommit = some f →
      s.solo = false →
      (s.leaseX (f.at 28 1)).commit ≠ some d →
      s.leaseSt (f.at 28 1) = Lst.releasing →
      (s.leaseX (f.at 28 1)).committed = false →
      (s.leaseX (f.at 28 1)).begin_ = none →
      x = { s.leaseX (f.at 28 1) with committed := true, commit := some d, released := [], offered := false, readBy := some (s.now + 3200000), takeBy := some (s.inMgmt (s.rd LEASE_CFG.TAKE_LIMIT)) } →
      exec (.handoffCommit d) s = .next (((s.setLeaseX (f.at 28 1) x).setPhase .lease d .waiting).releaseOn (f.at 28 1)
        (((s.setLeaseX (f.at 28 1) x)).rd (LEASE_EPOCH.EPOCH (f.at 28 1))) ((s.setLeaseX (f.at 28 1) x)).counted)) ∧
  (∀ (s : State) (d : DescRef) (f : Fetched),
      s.startedAt .lease d Op.handoffAbort = some f →
      s.solo = false →
      s.leaseSt (f.at 28 1) = Lst.releasing →
      (s.leaseX (f.at 28 1)).committed = false →
      (s.leaseX (f.at 28 1)).begin_ = none →
      exec (.handoffAbort d) s = .next (((s.setLeaseX (f.at 28 1) { s.leaseX (f.at 28 1) with begin_ := none }).setLeaseSt (f.at 28 1) Lst.held).finish .lease d
        St.success)) ∧
  (∀ (s : State) (d : DescRef) (f : Fetched),
      s.startedAt .lease d Op.take = some f →
      (s.leaseX (f.at 28 1)).take ≠ some d →
      s.leaseMode = Lmode.running →
      s.leaseSt (f.at 28 1) = Lst.unknown →
      exec (.take d) s = .next ((s.setPhase .lease d .waiting).startWin (f.at 28 1) true (some d))) ∧
  (∀ (s : State) (d : DescRef) (f : Fetched),
      s.startedAt .lease d Op.drain = some f →
      s.solo = false →
      s.leaseU.drain ≠ some d →
      s.leaseMode = Lmode.running →
      exec (.drain d) s = .next ((((s.wr LEASE_CTL.MODE Lmode.draining).setLease { (s.wr LEASE_CTL.MODE Lmode.draining).leaseU with drain := some d }).setPhase .lease d
        .waiting).drainCheck)) ∧
  (∀ (s : State) (d : DescRef) (f : Fetched),
      s.startedAt .lease d Op.undrain = some f →
      s.solo = false →
      s.activating = false →
      s.leaseMode = Lmode.drained ∨ s.leaseMode = Lmode.draining →
      s.leaseU.drain = none →
      exec (.undrain d) s = .next (((s.wr LEASE_CTL.MODE Lmode.running).setLease { s.leaseU with drain := none }).finish .lease d St.success)) ∧
  (∀ (s : State) (d : DescRef) (f : Fetched) (kind sh epoch : Nat) (rest : List (Nat × Nat × Nat)),
      s.startedAt .lease d Op.eventWait = some f →
      s.leaseU.events = (kind, sh, epoch) :: rest →
      exec (.eventWait d) s = .next ((s.setLease { s.leaseU with events := rest }).finish .lease d St.success (kind + sh * 256) epoch)) ∧
  (∀ (s : State) (d : DescRef) (f : Fetched),
      s.startedAt .lease d Op.eventWait = some f →
      s.leaseU.events = [] →
      exec (.eventWait d) s = .next (s.setPhase .lease d .waiting)) ∧
  (∀ (s : State) (d : DescRef) (f : Fetched),
      s.startedAt .lease d Op.drain = some f →
      s.solo = true →
      exec (.drain d) s = .next (s.finish .lease d St.peerAbsent))

/-- A request at its home slice hits or misses; fills, evictions and write-backs; cache-block operations. COOLER_ACCESS within a line of populated DRAM is served at its home slice after what its error does (corrected, poisoned, dropped, or for a dirty tag the head's loss), and a read moves the prefetcher; without an error one that stores on a hit writes exactly its bytes to memory and leaves the line dirty at AGE 0; with the Cooler OFF it is served from memory; a store that misses and is not a whole line takes a miss register and a way. COOLER_FILL_DONE handles what the DRAM read finds, serves what merged, in order, and fills the way. EVICTION_WRITE_ACCEPTED takes the line out of the eviction buffer; a request that comes with it is served from there. L2_WRITEBACK makes the Cooler's copy dirty. CBO_CLEAN cleans, CBO_FLUSH and CBO_INVAL clean and invalidate the block at both levels; memory does not change. Completion stated for: coolerAccess, coolerFillDone, evictionWriteAccepted, l2Writeback, cboClean, cboFlush, cboInval. -/
def Obligations.CoolerAccessesAndFills : Prop :=
  (∀ (s : State) (port : CoolPort) (addr : Nat) (store : Option (List Byte)) (r : CoolReq),
      addr < s.populated →
      addr % 64 + (store.getD []).length ≤ 64 →
      r = ⟨port, addr, store, false⟩ →
      exec (.coolerAccess port addr store .none) s = .next (if store.isNone then (s.coolRequest r).notePrefetch port (addr / 64) else s.coolRequest r)) ∧
  (∀ (s : State) (port : CoolPort) (addr : Nat) (store : Option (List Byte)) (r : CoolReq) (err : CoolErr),
      addr < s.populated →
      addr % 64 + (store.getD []).length ≤ 64 →
      r = ⟨port, addr, store, false⟩ →
      (s.coolFind (addr / 64) = none ∨ ((s.coolFind (addr / 64)).map fun e => e.2.filling) = some true) →
      exec (.coolerAccess port addr store err) s = .next (if store.isNone then (s.coolRequest r).notePrefetch port (addr / 64) else s.coolRequest r)) ∧
  (∀ (s : State) (port : CoolPort) (addr : Nat) (store : Option (List Byte)) (r : CoolReq) (err : CoolErr) (k : Nat) (l : CoolLine) (t : State),
      addr < s.populated →
      addr % 64 + (store.getD []).length ≤ 64 →
      r = ⟨port, addr, store, false⟩ →
      s.coolFind (addr / 64) = some (k, l) →
      l.filling = false →
      s.coolError k l err = (true, t) →
      exec (.coolerAccess port addr store err) s = .next (if store.isNone then (t.coolRequest r).notePrefetch port (addr / 64) else t.coolRequest r)) ∧
  (∀ (s : State) (port : CoolPort) (addr : Nat) (store : Option (List Byte)) (r : CoolReq) (k : Nat) (l : CoolLine),
      addr < s.populated →
      addr % 64 + (store.getD []).length ≤ 64 →
      r = ⟨port, addr, store, false⟩ →
      s.coolFind (addr / 64) = some (k, l) →
      l.filling = false →
      l.dirty = true →
      exec (.coolerAccess port addr store .tag) s = .next ((s.raise Ev.coolTag (some .cool) none [k / 32768, k / 16 % 2048, k % 16]).setCool { s.cool with fatal := true })) ∧
  (∀ (s : State) (port : CoolPort) (addr k : Nat) (bs : List Byte) (l : CoolLine) (r : CoolReq),
      addr < s.populated →
      addr % 64 + bs.length ≤ 64 →
      s.coolFind (addr / 64) = some (k, l) →
      l.filling = false →
      s.coolSt ≠ Cst.draining →
      r = ⟨port, addr, some bs, false⟩ →
      exec (.coolerAccess port addr (some bs) .none) s = .next ((s.serve r).putLine k { l with age := 0, pf := false, dirty := true }) ∧
        (s.serve r).mem = Memory.writeN s.mem addr bs) ∧
  (∀ (s : State) (port : CoolPort) (addr : Nat) (bs : List Byte) (r : CoolReq),
      addr < s.populated →
      addr % 64 + bs.length ≤ 64 →
      s.coolFind (addr / 64) = none →
      s.cool.evict = [] →
      s.coolSt = Cst.off →
      r = ⟨port, addr, some bs, false⟩ →
      exec (.coolerAccess port addr (some bs) .none) s = .next (s.serve r)) ∧
  (∀ (s : State) (port : CoolPort) (addr k : Nat) (bs : List Byte) (r : CoolReq) (t : State),
      addr < s.populated →
      addr % 64 + bs.length ≤ 64 →
      s.coolFind (addr / 64) = none →
      s.cool.evict = [] →
      s.noAlloc (s.partition port) (addr / 64) = false →
      r = ⟨port, addr, some bs, false⟩ →
      r.full = false →
      s.missCount (s.home (addr / 64)) < 64 →
      s.makeRoom (addr / 64) (s.rd (COOL_WAYMASK.MASK (s.partition port))) = some (k, t) →
      t.cool.misses = s.cool.misses →
      t.home (addr / 64) = s.home (addr / 64) →
      ∃ u : State, exec (.coolerAccess port addr (some bs) .none) s = .next u ∧ u.mem = s.mem ∧ u.cool.misses.length = s.cool.misses.length + 1 ∧
        (u.cool.misses.any fun (m : CoolMiss) => m.line == addr / 64 && m.key == k && m.reqs == [r]) = true) ∧
  (∀ (s : State) (line : Nat) (m : CoolMiss),
      ((s.cool.misses.find? fun x => x.line == line) = some m) →
      m.reqs = [] →
      m.prefetch = true →
      s.coolSt = Cst.on →
      s.cool.waiting = [] →
      exec (.coolerFillDone line .none) s = .next (((s.setCool { s.cool with misses := s.cool.misses.filter fun x => decide (x.line ≠ line) }).putLine m.key
        { line := line, dirty := false, pf := true, age := 3 }).setCool { ((s.setCool { s.cool with misses := s.cool.misses.filter fun x => decide (x.line ≠ line) }).putLine m.key { line := line, dirty := false, pf := true, age := 3 }).cool with waiting := [] })) ∧
  (∀ (s : State) (line : Nat) (m : CoolMiss) (r : CoolReq) (t : State),
      ((s.cool.misses.find? fun x => x.line == line) = some m) →
      m.reqs = [r] →
      m.prefetch = false →
      m.streaming = false →
      r.store = none →
      (t = (s.setCool { s.cool with misses := s.cool.misses.filter fun x => decide (x.line ≠ line) }).serve r) →
      t.coolSt = Cst.on →
      exec (.coolerFillDone line .none) s = .next (t.putLine m.key { line := line, dirty := false, pf := false, age := 2 }).coolRetry) ∧
  (∀ (s : State) (line : Nat) (err : DramErr) (m : CoolMiss) (t u : State),
      ((s.cool.misses.find? fun x => x.line == line) = some m) →
      (t = (s.ddrFound line err).setCool { (s.ddrFound line err).cool with misses := (s.ddrFound line err).cool.misses.filter fun x => decide (x.line ≠ line) }) →
      (u = m.reqs.foldl (fun (a : State) r => a.serve r) t) →
      u.coolSt = Cst.on →
      exec (.coolerFillDone line err) s = .next (u.putLine m.key { line := line, dirty := m.reqs.any fun (x : CoolReq) => x.store.isSome, pf := m.prefetch && m.reqs.isEmpty, age := if m.prefetch then (if m.reqs.isEmpty then 3 else 0) else if m.streaming then 3 else 2 }).coolRetry) ∧
  (∀ (s : State) (line : Nat) (err : DramErr) (m : CoolMiss) (t u : State),
      ((s.cool.misses.find? fun x => x.line == line) = some m) →
      (t = (s.ddrFound line err).setCool { (s.ddrFound line err).cool with misses := (s.ddrFound line err).cool.misses.filter fun x => decide (x.line ≠ line) }) →
      (u = m.reqs.foldl (fun (a : State) r => a.serve r) t) →
      u.coolSt ≠ Cst.on →
      exec (.coolerFillDone line err) s = .next (u.setCool { u.cool with lines := Tab.del u.cool.lines m.key }).coolRetry) ∧
  (∀ (s : State) (line off : Nat) (p : CoolPort) (st : Option (List Byte)) (r : CoolReq) (t : State),
      s.cool.evict.contains (s.home line, line) = true →
      r = ⟨p, line * 64 + off % 64, st, false⟩ →
      (t = s.setCool { s.cool with evict := s.cool.evict.filter fun x => decide (x ≠ (s.home line, line)) }) →
      s.noAlloc (s.partition p) line = true →
      exec (.evictionWriteAccepted line (some (p, off, st))) s = .next (t.serve r).coolRetry) ∧
  (∀ (s : State) (line off : Nat) (p : CoolPort) (st : Option (List Byte)) (r : CoolReq) (t : State),
      s.cool.evict.contains (s.home line, line) = true →
      r = ⟨p, line * 64 + off % 64, st, false⟩ →
      (t = s.setCool { s.cool with evict := s.cool.evict.filter fun x => decide (x ≠ (s.home line, line)) }) →
      s.noAlloc (s.partition p) line = false →
      (s.makeRoom line (s.rd (COOL_WAYMASK.MASK (s.partition p)))).isNone = true →
      exec (.evictionWriteAccepted line (some (p, off, st))) s = .next (t.coolWait r).coolRetry) ∧
  (∀ (s : State) (line off : Nat) (p : CoolPort) (st : Option (List Byte)) (r : CoolReq),
      s.cool.evict.contains (s.home line, line) = true →
      r = ⟨p, line * 64 + off % 64, st, false⟩ →
      s.noAlloc (s.partition p) line = false →
      (s.makeRoom line (s.rd (COOL_WAYMASK.MASK (s.partition p)))).isSome = true →
      exec (.evictionWriteAccepted line (some (p, off, st))) s = .next (s.reinsert r true)) ∧
  (∀ (s : State) (line : Nat),
      s.cool.evict.contains (s.home line, line) = true →
      exec (.evictionWriteAccepted line none) s = .next (s.setCool { s.cool with evict := s.cool.evict.filter fun x => decide (x ≠ (s.home line, line)) }).coolRetry) ∧
  (∀ (s : State) (core line k : Nat) (l : CoolLine) (t : State),
      Tab.get? s.cool.l2 (line * 64 + core) = some true →
      t = s.setCool { s.cool with l2 := Tab.del s.cool.l2 (line * 64 + core) } →
      t.coolFind line = some (k, l) →
      l.filling = false →
      t.coolSt = Cst.on →
      exec (.l2Writeback core line) s = .next (t.putLine k { l with dirty := true })) ∧
  (∀ (s : State) (core line : Nat) (t : State),
      Tab.get? s.cool.l2 (line * 64 + core) = some true →
      t = s.setCool { s.cool with l2 := Tab.del s.cool.l2 (line * 64 + core) } →
      (t.coolFind line = none ∨ t.coolSt ≠ Cst.on ∨ ((t.coolFind line).map fun e => e.2.filling) = some true) →
      exec (.l2Writeback core line) s = .next (t.coolRequest ⟨.core core, line * 64, some (Memory.readN t.mem (line * 64) 64), true⟩)) ∧
  (∀ (s : State) (addr : Nat),
      exec (.cboClean addr) s = .next (s.cleanLines fun x => x == addr / 64) ∧ exec (.cboFlush addr) s = .next (s.flushLines fun x => x == addr / 64) ∧ exec (.cboInval addr) s = .next (s.flushLines fun x => x == addr / 64)) ∧
  (∀ (s : State) (addr : Nat),
      ∃ t : State, exec (.cboClean addr) s = .next t ∧ t.mem = s.mem ∧ t.csr = s.csr ∧ t.lineDirty (addr / 64) = false ∧
        (∀ line, line ≠ addr / 64 → t.coolFind line = s.coolFind line)) ∧
  (∀ (s : State) (addr : Nat),
      ∃ t : State, exec (.cboFlush addr) s = .next t ∧ exec (.cboInval addr) s = .next t ∧ t.mem = s.mem ∧ t.csr = s.csr ∧
        t.cool.lines = Tab.keep s.cool.lines (fun _ (l : CoolLine) => !(l.line == addr / 64) || l.filling) ∧
        t.cool.l2 = Tab.keep s.cool.l2 (fun k _ => !(k / 64 == addr / 64)))

/-- Range and whole-cache maintenance, slices retired and restored, the Cooler drained. CLEAN_RANGE cleans the lines of a sound range, FLUSH_RANGE also invalidates them and counts the dirty ones; CLEAN_ALL cleans every line; FLUSH_WAYS empties the ways named; a bad range completes with RANGE_INVALID. SLICE_RETIRE moves a slice's residues onto an active partner that homes only its own, once nothing of the slice is in flight, SLICE_RESTORE moves them back; in another state they complete with SLICE_STATE. COOLER_DISABLE of an ON Cooler starts DRAINING; COOLER_DRAIN_DONE without a miss in flight makes it OFF. Completion stated for: cleanRange, flushRange, cleanAll, flushWays, sliceRetire, sliceRestore, coolerDisable, coolerDrainDone. -/
def Obligations.CoolerMaintenanceAndSlices : Prop :=
  (∀ (s : State) (d : DescRef) (f : Fetched) (ls : List Nat),
      s.startedAt .cool d Op.cleanRange = some f →
      badRange f.src f.len = false →
      (s.rangeLines d.ring f.src f.len).toOption = some ls →
      exec (.cleanRange d) s = .next ((s.cleanLines fun x => ls.contains x).finish .cool d St.success)) ∧
  (∀ (s : State) (d : DescRef) (f : Fetched),
      s.startedAt .cool d Op.cleanRange = some f →
      badRange f.src f.len = true →
      exec (.cleanRange d) s = .next (s.finish .cool d St.rangeInvalid)) ∧
  (∀ (s : State) (d : DescRef) (f : Fetched) (ls : List Nat),
      s.startedAt .cool d Op.flushRange = some f →
      badRange f.src f.len = false →
      (s.rangeLines d.ring f.src f.len).toOption = some ls →
      exec (.flushRange d) s = .next ((s.flushLines fun x => ls.contains x).finish .cool d St.success 0 (s.dirtyLines fun x => ls.contains x).length)) ∧
  (∀ (s : State) (d : DescRef) (f : Fetched),
      s.startedAt .cool d Op.cleanAll = some f →
      exec (.cleanAll d) s = .next ((s.cleanLines fun _ => true).finish .cool d St.success 0 (s.dirtyLines fun _ => true).length)) ∧
  (∀ (s : State) (d : DescRef) (f : Fetched),
      s.startedAt .cool d Op.flushWays = some f →
      exec (.flushWays d) s = .next ((s.setCool { s.cool with lines := Tab.keep s.cool.lines fun k l => !((f.at 28 2).testBit (k % 16) && !l.filling) }).finish .cool d St.success 0
        (s.cool.lines.filter fun (e : Nat × CoolLine) => ((f.at 28 2).testBit (e.1 % 16) && !e.2.filling) && e.2.dirty).length)) ∧
  (∀ (s : State) (d : DescRef) (f : Fetched) (t : State),
      s.startedAt .cool d Op.sliceRetire = some f →
      s.mayRetire (f.at 28 1) (f.at 29 1) = true →
      s.inFlight (s.residues (f.at 28 1)) = false →
      t = s.retireSlice (f.at 28 1) (f.at 29 1) →
      exec (.sliceRetire d) s = .next ((t.setCool { t.cool with stopped := none }).finish .cool d St.success)) ∧
  (∀ (s : State) (d : DescRef) (f : Fetched),
      s.startedAt .cool d Op.sliceRetire = some f →
      s.mayRetire (f.at 28 1) (f.at 29 1) = true →
      s.inFlight (s.residues (f.at 28 1)) = true →
      exec (.sliceRetire d) s = .next (s.setCool { s.cool with stopped := some (f.at 28 1) })) ∧
  (∀ (s : State) (d : DescRef) (f : Fetched) (rs : List Nat) (t u : State),
      s.startedAt .cool d Op.sliceRestore = some f →
      Tab.get? s.cool.retired (f.at 28 1) = some rs →
      s.inFlight rs = false →
      (t = rs.foldl (fun (a : State) r => a.mapResidue (f.at 28 1) r) (s.flushLines fun x => rs.contains (x % 48))) →
      u = t.setCool { t.cool with retired := Tab.del t.cool.retired (f.at 28 1) } →
      exec (.sliceRestore d) s = .next (((u.wr COOL_STATUS.ACTIVE (48 - u.cool.retired.length)).raise Ev.sliceRetired (some .cool) (some (f.at 28 1)) [f.at 28 1]).finish .cool d St.success)) ∧
  (∀ (s : State) (d : DescRef) (f : Fetched),
      s.startedAt .cool d Op.sliceRetire = some f →
      s.mayRetire (f.at 28 1) (f.at 29 1) = false →
      exec (.sliceRetire d) s = .next (s.finish .cool d St.sliceState)) ∧
  (∀ (s : State) (d : DescRef) (f : Fetched) (r : Nat) (t : State),
      s.startedAt .cool d Op.sliceRestore = some f →
      Tab.get? s.cool.retired (f.at 28 1) = some [r] →
      s.inFlight [r] = false →
      (t = (s.flushLines fun x => x % 48 == r).mapResidue (f.at 28 1) r) →
      ((List.range 48).all (fun x => [r].contains x == (x == r)) = true) →
      ∃ u : State, exec (.sliceRestore d) s = .next (u.finish .cool d St.success) ∧ Tab.get? u.cool.retired (f.at 28 1) = none ∧ u.mem = s.mem ∧
        u.sliceOf r = (s.mapResidue (f.at 28 1) r).sliceOf r) ∧
  (∀ (s : State) (d : DescRef) (f : Fetched),
      s.startedAt .cool d Op.sliceRestore = some f →
      Tab.get? s.cool.retired (f.at 28 1) = none →
      exec (.sliceRestore d) s = .next (s.finish .cool d St.sliceState)) ∧
  (∀ (s : State) (origin : Origin),
      s.admits .cool origin = true →
      exec (.coolerDisable origin) s = .next (s.journaled s.coolDisable origin COOL_CTL.EN 0)) ∧
  (∀ (s : State) (origin : Origin),
      s.admits .cool origin = true →
      (s.wr COOL_CTL.EN 0).coolSt = Cst.on →
      exec (.coolerDisable origin) s = .next (s.journaled ((s.wr COOL_CTL.EN 0).wr COOL_STATUS.STATE Cst.draining) origin COOL_CTL.EN 0)) ∧
  (∀ (s : State),
      s.coolSt = Cst.draining →
      s.cool.misses = [] →
      exec .coolerDrainDone s = .next s.coolDrained) ∧
  (∀ (s : State),
      s.coolSt = Cst.draining →
      s.cool.misses = [] →
      s.cool.enAgain = false →
      ∃ t : State, exec .coolerDrainDone s = .next t ∧ t.cool.lines = [] ∧ t.coolSt = Cst.off ∧ t.mem = s.mem) ∧
  (∀ (s : State),
      s.coolSt ≠ Cst.draining ∨ s.cool.misses ≠ [] →
      exec .coolerDrainDone s = .next s)

/-- Pails are requested, granted, released and freed; alarms; the DDR controllers train, calibrate, refresh, read temperatures and scrub. PAIL_REQUEST of 1 to 16 pails of a class is queued behind the class's requests and granted when the class may have them; PAIL_RELEASE frees a pail that is no ring's, one of the write index only with its entry; PAIL_ALLOC waits for its grant, PAIL_FREE frees the pails of its ring or, where one is not its own, none; VAT_ALARM_EXPIRY records EV_VAT_WAIT once; VAT_PEAK_CLEAR copies USED to PEAK. DDR_TRAINING_START trains every channel and is journaled; DDR_TRAINING_DONE makes a channel READY or FAILED with its cause; calibrations, oscillator reads and refreshes of a READY channel are noted; DIMM_THERMAL_READ throttles above 95 °C until all are below 90 °C; DDR_SCRUB handles what it finds and moves on. Completion stated for: pailRequest, pailRelease, vatAlarmExpiry, pailAlloc, pailFree, vatPeakClear, ddrTrainingStart, ddrTrainingDone, zqCalibration, dqsOscRead, ddrRefresh, dimmThermalRead, ddrScrub. -/
def Obligations.VatPailsAndDdr : Prop :=
  (∀ (s : State) (n id cls count : Nat),
      cls ≤ 4 →
      1 ≤ count →
      count ≤ 16 →
      exec (.pailRequest n id cls count) s = .next (((s.setVat { s.vat with waiting := s.vat.waiting ++ [⟨.job n id, cls, count, s.now, false⟩] }).countWaiting).vatGrant)) ∧
  (∀ (s : State) (n id cls count : Nat),
      4 < cls ∨ count = 0 ∨ 16 < count →
      exec (.pailRequest n id cls count) s = .next s) ∧
  (∀ (s : State) (pail : Nat) (x : Pail),
      Tab.get? s.vat.pails pail = some x →
      ((s.vat.widx.any fun e => e.pail == pail) = false) →
      ((match x.user with | .ring _ _ => false | _ => true) = true) →
      exec (.pailRelease pail) s = .next (s.freePails [pail])) ∧
  (∀ (s : State) (pail : Nat) (x : Pail),
      Tab.get? s.vat.pails pail = some x →
      ((s.vat.widx.any fun e => e.pail == pail) = true) →
      exec (.pailRelease pail) s = .next s.widxReap) ∧
  (∀ (s : State) (pail n id : Nat) (x : Pail),
      Tab.get? s.vat.pails pail = some x →
      ((s.vat.widx.any fun e => e.pail == pail) = false) →
      x.user = .job n id →
      s.vat.waiting = [] →
      ∃ t : State, exec (.pailRelease pail) s = .next t ∧ Tab.get? t.vat.pails pail = none ∧ t.mem = s.mem ∧
        t.rd VAT_STATUS.FREE = (s.rd VAT_STATUS.FREE + 1) % 2 ^ VAT_STATUS.FREE.w) ∧
  (∀ (s : State) (index : Nat) (q : VatReq),
      s.vat.waiting[index]? = some q →
      q.alarmed = false →
      s.passed (q.since + s.rd (VAT_CLASS.ALARM q.cls) * mgmtTick) = true →
      exec (.vatAlarmExpiry index) s = .next ((s.setVat { s.vat with waiting := s.vat.waiting.set index { q with alarmed := true } }).raise Ev.vatWait
        (some .vat) (some q.cls) [q.cls, q.n])) ∧
  (∀ (s : State) (d : DescRef) (f : Fetched),
      s.startedAt .vat d Op.pailAlloc = some f →
      f.phase = .started →
      f.at 28 1 ≤ 4 →
      1 ≤ f.at 29 1 →
      f.at 29 1 ≤ 16 →
      f.len = f.at 29 1 * 2 →
      exec (.pailAlloc d) s = .next ((s.setPhase .vat d .waiting).pailRequest (.ring d.ring d.slot) (f.at 28 1) (f.at 29 1))) ∧
  (∀ (s : State) (d : DescRef) (f : Fetched) (bs : List Byte),
      s.startedAt .vat d Op.pailFree = some f →
      1 ≤ f.at 29 1 →
      f.at 29 1 ≤ 16 →
      f.len = f.at 29 1 * 2 →
      (s.dmaRead .vat f.src (f.at 29 1 * 2) (some d.ring)).toOption = some bs →
      (pailNumbers bs (f.at 29 1)).eraseDups.length = f.at 29 1 →
      (((pailNumbers bs (f.at 29 1)).all fun p => s.ringsPail d.ring p) = true) →
      exec (.pailFree d) s = .next ((s.finish .vat d St.success).freePails (pailNumbers bs (f.at 29 1)))) ∧
  (∀ (s : State) (d : DescRef) (f : Fetched) (bs : List Byte),
      s.startedAt .vat d Op.pailFree = some f →
      1 ≤ f.at 29 1 →
      f.at 29 1 ≤ 16 →
      f.len = f.at 29 1 * 2 →
      (s.dmaRead .vat f.src (f.at 29 1 * 2) (some d.ring)).toOption = some bs →
      ((pailNumbers bs (f.at 29 1)).eraseDups.length ≠ f.at 29 1 ∨ ((pailNumbers bs (f.at 29 1)).all fun p => s.ringsPail d.ring p) = false) →
      exec (.pailFree d) s = .next (s.finish .vat d St.pailInvalid)) ∧
  (∀ (s : State) (d : DescRef) (f : Fetched),
      s.startedAt .vat d Op.pailFree = some f →
      f.at 29 1 = 0 ∨ 16 < f.at 29 1 →
      exec (.pailFree d) s = .next (s.finish .vat d St.countInvalid)) ∧
  (∀ (s : State) (d : DescRef) (f : Fetched),
      s.startedAt .vat d Op.pailAlloc = some f →
      f.phase = .started →
      4 < f.at 28 1 →
      exec (.pailAlloc d) s = .next (s.finish .vat d St.coolClassInvalid)) ∧
  (∀ (s : State) (d : DescRef) (f : Fetched),
      s.startedAt .vat d Op.pailAlloc = some f →
      f.phase = .started →
      f.at 28 1 ≤ 4 →
      f.at 29 1 = 0 ∨ 16 < f.at 29 1 →
      exec (.pailAlloc d) s = .next (s.finish .vat d St.countInvalid)) ∧
  (∀ (s : State) (cls : Nat),
      cls ≤ 4 →
      exec (.vatPeakClear cls) s = .next (s.wr (VAT_USE.PEAK cls) (s.rd (VAT_USE.USED cls)))) ∧
  (∀ (s : State) (origin : Origin),
      s.admits .ddr origin = true →
      s.on DDR_CFG.EN = false →
      exec (.ddrTrainingStart origin) s = .next (s.journaled s.ddrTrain origin DDR_CFG.EN 1)) ∧
  (∀ (s : State) (origin : Origin),
      s.admits .ddr origin = true →
      s.on DDR_CFG.EN = true →
      exec (.ddrTrainingStart origin) s = .next (s.journaled s origin DDR_CFG.EN 1)) ∧
  (∀ (s : State) (ch : Fin 12) (fast : Bool),
      s.rd (DDR_STATUS.STATE ch) = Ddr.training →
      exec (.ddrTrainingDone ch fast 0) s = .next ((s.wr (DDR_STATUS.STATE ch) Ddr.ready).wr (DDR_STATUS.FAST ch) (if fast then 1 else 0))) ∧
  (∀ (s : State) (ch : Fin 12) (fast : Bool) (cause : Nat),
      s.rd (DDR_STATUS.STATE ch) = Ddr.training →
      cause ≠ 0 →
      exec (.ddrTrainingDone ch fast cause) s = .next (((s.wr (DDR_STATUS.STATE ch) Ddr.failed).wr (DDR_STATUS.FAIL_CAUSE ch) cause).raise Ev.ddrTrain
        (some .ddr) (some ch.val) [cause])) ∧
  (∀ (s : State) (ch : Fin 12) (rank : Nat) (q : Ddr),
      s.rd (DDR_STATUS.STATE ch) = Ddr.ready →
      q = { s.ddr with zq := Tab.set s.ddr.zq (ch * 4 + rank) s.now } →
      exec (.zqCalibration ch rank) s = .next { s with ddr := q }) ∧
  (∀ (s : State) (ch : Fin 12) (rank : Nat) (q : Ddr),
      s.rd (DDR_STATUS.STATE ch) = Ddr.ready →
      q = { s.ddr with dqs := Tab.set s.ddr.dqs (ch * 4 + rank) s.now } →
      exec (.dqsOscRead ch rank) s = .next { s with ddr := q }) ∧
  (∀ (s : State) (ch : Fin 12) (q : Ddr),
      s.rd (DDR_STATUS.STATE ch) = Ddr.ready →
      q = { s.ddr with refreshes := Tab.set s.ddr.refreshes ch (Tab.getD s.ddr.refreshes ch 0 + 1) } →
      exec (.ddrRefresh ch) s = .next { s with ddr := q }) ∧
  (∀ (s : State) (temps : List Int) (t : State),
      (t = (List.range s.channels).foldl (fun s c => s.wr (DDR_STATUS.TEMP c) (ofSigned (temps.getD c 0) 8)) s) →
      t.ddrThrottled = false →
      ((temps.any fun x => decide (95 < x)) = true) →
      exec (.dimmThermalRead temps) s = .next (({ t with ddr := { t.ddr with fastRefresh := true } } : State).throttleDdr true)) ∧
  (∀ (s : State) (temps : List Int) (t u : State),
      (t = (List.range s.channels).foldl (fun s c => s.wr (DDR_STATUS.TEMP c) (ofSigned (temps.getD c 0) 8)) s) →
      (u = { t with ddr := { t.ddr with fastRefresh := temps.any fun x => decide (85 < x) } }) →
      u.ddrThrottled = true →
      ((temps.all fun x => decide (x < 90)) = true) →
      exec (.dimmThermalRead temps) s = .next (u.throttleDdr false)) ∧
  (∀ (s : State) (temps : List Int) (t u : State),
      (t = (List.range s.channels).foldl (fun s c => s.wr (DDR_STATUS.TEMP c) (ofSigned (temps.getD c 0) 8)) s) →
      (u = { t with ddr := { t.ddr with fastRefresh := temps.any fun x => decide (85 < x) } }) →
      (if u.ddrThrottled then (temps.all fun x => decide (x < 90)) = false else (temps.any fun x => decide (95 < x)) = false) →
      exec (.dimmThermalRead temps) s = .next u) ∧
  (∀ (s : State) (err : DramErr),
      s.on DDR_SCRUB_CFG.EN = true →
      s.rd (DDR_STATUS.STATE (s.lineChannel s.ddr.scrubLine)) = Ddr.ready →
      exec (.ddrScrub err) s = .next (s.ddrFound s.ddr.scrubLine err).scrubNext)

/-- Core dividers, loss of REFCLK, power domains switched, ramped, sampled, tripped and resumed. A core runs at the largest of the three dividers and nothing else of the registers changes; a DIV above 2 is refused. Loss of REFCLK turns every domain off and leaves the head stopped, its DRAM and units without content (log entry 148); a PLL that has not locked loses nothing. A stopped head ramps no domain. An OFF domain asked on waits in ascending order; it ramps only while fewer than four do, with its 256,000-tick limit; the limit trips it. An ON domain asked off goes off when quiescent and is refused with KIND 8 otherwise; a TRIPPED one goes off. A sample in the band for the second time ends a ramp; an ON domain inside its window runs the law and a SAFE one does not; a second sample outside trips. RESUME returns a SAFE domain to ON and does nothing elsewhere. Completion stated for: coreDividerWrite, refclkLoss, domainOnRequest, domainOffRequest, domainRampAdmit, rampTimeout, governorSample, govResume. -/
def Obligations.SupplyDomainsAndGovernor : Prop :=
  (∀ (s : State) (origin : Origin) (core : Fin 48) (div : Nat),
      s.originThere origin.toNat = true →
      s.audited false origin.toNat = false →
      div ≤ 2 →
      exec (.coreDividerWrite origin core div) s = .next ((s.wr (CLK_CORE.DIV core) div).coreDiv core)) ∧
  (∀ (s : State) (origin : Origin) (core : Fin 48) (div : Nat),
      s.originThere origin.toNat = true →
      s.audited false origin.toNat = false →
      div ≤ 2 →
      s.rd (CLK_CORE.FLOOR core) ≤ 2 →
      s.rd (CLK_CORE.THROTTLE core) ≤ 2 →
      ∃ t : State, exec (.coreDividerWrite origin core div) s = .next t ∧ t.rd (CLK_CORE.DIV core) = div ∧
        t.rd (CLK_CORE.EFFECTIVE core) = max div (max (s.rd (CLK_CORE.FLOOR core)) (s.rd (CLK_CORE.THROTTLE core))) ∧ t.now = s.now ∧ t.mem = s.mem ∧
        (∀ f : Fld, f.key ≠ (CLK_CORE.DIV core).key → f.key ≠ (CLK_CORE.EFFECTIVE core).key → t.rd f = s.rd f)) ∧
  (∀ (s : State) (origin : Origin) (core : Fin 48) (div : Nat),
      s.originThere origin.toNat = true →
      s.audited false origin.toNat = false →
      2 < div →
      exec (.coreDividerWrite origin core div) s = .next (s.unitErr .clk origin.toNat (0x601000 + core.val * 8) 7)) ∧
  (∀ (s : State) (t : State),
      s.on CLK_STATUS.PLL_LOCK = true →
      t = (((((s.wr CLK_STATUS.PLL_LOCK 0).wr CLK_STATUS.REFCLK_OK 0).wr CLK_STATUS.AON_OSC 1).bump CLK_STATUS.LOSSES 1).wr PWR_RESET_CAUSE.REFCLK_SEEN 1).headStopped →
      exec .refclkLoss s = .next (({ t with pins := { t.pins with refclk := false } } : State).raise Ev.refclkLost (some .gov))) ∧
  (∀ (s : State),
      s.on CLK_STATUS.PLL_LOCK = true →
      ∃ t : State, exec .refclkLoss s = .next t ∧ (∀ d, d < 96 → t.domSt d = Dom.off) ∧ t.rd CLK_STATUS.PLL_LOCK = 0 ∧ t.rd CLK_STATUS.REFCLK_OK = 0 ∧
        t.rd CLK_STATUS.AON_OSC = 1 ∧ t.boot.stopped = true ∧ t.pins.refclk = false ∧ t.mem = [] ∧ t.otp = s.otp) ∧
  (∀ (s : State),
      s.on CLK_STATUS.PLL_LOCK = false →
      exec .refclkLoss s = .next s) ∧
  (∀ (s : State) (d : Fin 96),
      s.boot.stopped = true →
      exec (.domainOnRequest d) s = .next s) ∧
  (∀ (s : State) (d : Fin 96),
      s.boot.stopped = false →
      (s.wr (PWR_DOM.REQ_ON d) 1).domSt d = Dom.off →
      exec (.domainOnRequest d) s = .next { s.wr (PWR_DOM.REQ_ON d) 1 with sup := { s.sup with rampWait := insertAsc d s.sup.rampWait } } ∧
        d.val ∈ insertAsc d s.sup.rampWait) ∧
  (∀ (s : State) (d : Fin 96),
      s.boot.stopped = false →
      (s.wr (PWR_DOM.REQ_ON d) 1).domSt d ≠ Dom.off →
      exec (.domainOnRequest d) s = .next (s.wr (PWR_DOM.REQ_ON d) 1)) ∧
  (∀ (s : State) (origin : Origin) (d : Fin 96) (hart : Bool),
      s.originThere origin.toNat = true →
      s.audited false origin.toNat = false →
      exec (.domainOffRequest origin d hart) s = .next (s.requestOff origin.toNat d hart)) ∧
  (∀ (s : State) (origin : Origin) (d : Fin 96) (hart : Bool),
      s.originThere origin.toNat = true →
      s.audited false origin.toNat = false →
      s.domSt d = Dom.on →
      s.quiescent d hart = true →
      ∃ t : State, exec (.domainOffRequest origin d hart) s = .next t ∧ t.domSt d = Dom.off ∧ t.rd (PWR_DOM.REQ_ON d) = 0 ∧ t.mem = s.mem ∧
        (∀ e : Fin 96, e ≠ d → t.domSt e = s.domSt e)) ∧
  (∀ (s : State) (origin : Origin) (d : Fin 96) (hart : Bool),
      s.originThere origin.toNat = true →
      s.audited false origin.toNat = false →
      s.domSt d = Dom.on →
      s.quiescent d hart = false →
      exec (.domainOffRequest origin d hart) s = .next ((s.wr (PWR_DOM.REFUSED d) 1).unitErr .pwr origin.toNat (0xA01000 + d.val * 8) 8) ∧
        ((s.wr (PWR_DOM.REFUSED d) 1).unitErr .pwr origin.toNat (0xA01000 + d.val * 8) 8).domSt d = Dom.on) ∧
  (∀ (s : State) (origin : Origin) (d : Fin 96) (hart : Bool),
      s.originThere origin.toNat = true →
      s.audited false origin.toNat = false →
      s.domSt d = Dom.tripped →
      ∃ t : State, exec (.domainOffRequest origin d hart) s = .next t ∧ t.domSt d = Dom.off ∧ t.rd (PWR_DOM.REQ_ON d) = 0) ∧
  (∀ (s : State) (d : Nat) (rest : List Nat),
      s.sup.rampWait = d :: rest →
      d < 96 →
      s.boot.stopped = false →
      s.domCount Dom.ramp < 4 →
      ∃ t : State, exec .domainRampAdmit s = .next t ∧ t.domSt d = Dom.ramp ∧ t.sup.rampWait = rest ∧ t.rd (GOV_DOM_STATUS.N d) = pwrPhases d ∧
        t.sup.rampBy = Tab.set s.sup.rampBy d (s.now + 256000)) ∧
  (∀ (s : State) (d : Nat) (rest : List Nat) (t u : State),
      s.sup.rampWait = d :: rest →
      s.boot.stopped = false →
      s.domCount Dom.ramp < 4 →
      t = (s.setDom d Dom.ramp).wr (GOV_DOM_STATUS.N d) (pwrPhases d) →
      u = t.wr (GOV_DOM_STATUS.CREF d) (t.rd (GOV_VREF.VREF d)) →
      exec .domainRampAdmit s = .next { u with sup := { u.sup with rampWait := rest, rampBy := Tab.set u.sup.rampBy d (u.now + 256000), inBand := Tab.del u.sup.inBand d } }) ∧
  (∀ (s : State) (d : Nat) (rest : List Nat),
      s.sup.rampWait = d :: rest →
      s.boot.stopped = true →
      exec .domainRampAdmit s = .next s) ∧
  (∀ (s : State) (d : Nat) (rest : List Nat),
      s.sup.rampWait = d :: rest →
      4 ≤ s.domCount Dom.ramp →
      exec .domainRampAdmit s = .next s) ∧
  (∀ (s : State) (d : Fin 96),
      s.domSt d = Dom.ramp →
      s.due (Tab.get? s.sup.rampBy d) = true →
      exec (.rampTimeout d) s = .next (s.trip d [])) ∧
  (∀ (s : State) (d : Fin 96),
      s.due (Tab.get? s.sup.rampBy d) = false →
      exec (.rampTimeout d) s = .next s) ∧
  (∀ (s : State) (d : Fin 96) (vmeas isense : BitVec 16) (jobs : List LaneJob) (u : State),
      u = (((s.wr (GOV_DOM_STATUS.VMEAS d) vmeas.toNat).wr (GOV_DOM_STATUS.ISENSE d) isense.toNat).stepVref d) →
      u.domSt d = Dom.ramp →
      toSigned (u.rd (GOV_VREF.VREF d)) 16 - clampInt (toSigned (u.rd (GOV_BAND_LO.VALUE d)) 16) 22 2185 ≤ toSigned vmeas.toNat 16 →
      toSigned vmeas.toNat 16 ≤ toSigned (u.rd (GOV_VREF.VREF d)) 16 + clampInt (toSigned (u.rd (GOV_BAND_HI.VALUE d)) 16) 22 2185 →
      1 ≤ Tab.getD u.sup.inBand d 0 →
      ∃ t : State, exec (.governorSample d vmeas isense jobs) s = .next t ∧ t.domSt d = Dom.on ∧ t.rd (GOV_DOM_INT.I d) = 0 ∧ t.rd (GOV_DOM_STATUS.FAILS d) = 0 ∧
        t.sup.rampBy = Tab.del s.sup.rampBy d) ∧
  (∀ (s : State) (d : Fin 96) (vmeas isense : BitVec 16) (jobs : List LaneJob) (u : State),
      u = (((s.wr (GOV_DOM_STATUS.VMEAS d) vmeas.toNat).wr (GOV_DOM_STATUS.ISENSE d) isense.toNat).stepVref d) →
      u.domSt d = Dom.ramp →
      exec (.governorSample d vmeas isense jobs) s = .next (u.rampSample d (toSigned vmeas.toNat 16))) ∧
  (∀ (s : State) (d : Fin 96) (vmeas isense : BitVec 16) (jobs : List LaneJob) (u : State),
      u = (((s.wr (GOV_DOM_STATUS.VMEAS d) vmeas.toNat).wr (GOV_DOM_STATUS.ISENSE d) isense.toNat).stepVref d) →
      u.domSt d = Dom.off ∨ u.domSt d = Dom.tripped →
      exec (.governorSample d vmeas isense jobs) s = .next u) ∧
  (∀ (s : State) (d : Fin 96) (vmeas isense : BitVec 16) (jobs : List LaneJob) (u : State),
      u = (((s.wr (GOV_DOM_STATUS.VMEAS d) vmeas.toNat).wr (GOV_DOM_STATUS.ISENSE d) isense.toNat).stepVref d) →
      u.domSt d = Dom.on →
      u.on GOV_CTL.EN = true →
      (u.windowMid d : Int) - mvCode 60 ≤ toSigned vmeas.toNat 16 →
      toSigned vmeas.toNat 16 ≤ (u.windowMid d : Int) + mvCode 60 →
      exec (.governorSample d vmeas isense jobs) s =
        .next (({ u with sup := { u.sup with breach := Tab.del u.sup.breach d } } : State).law d (toSigned vmeas.toNat 16) (toSigned isense.toNat 16))) ∧
  (∀ (s : State) (d : Fin 96) (vmeas isense : BitVec 16) (jobs : List LaneJob) (u : State),
      u = (((s.wr (GOV_DOM_STATUS.VMEAS d) vmeas.toNat).wr (GOV_DOM_STATUS.ISENSE d) isense.toNat).stepVref d) →
      u.domSt d = Dom.safe →
      (u.windowMid d : Int) - mvCode 60 ≤ toSigned vmeas.toNat 16 →
      toSigned vmeas.toNat 16 ≤ (u.windowMid d : Int) + mvCode 60 →
      ∃ t : State, exec (.governorSample d vmeas isense jobs) s = .next t ∧ t.domSt d = Dom.safe ∧ t.rd (GOV_DOM_INT.I d) = s.rd (GOV_DOM_INT.I d) ∧
        t.rd (GOV_DOM_STATUS.N d) = s.rd (GOV_DOM_STATUS.N d) ∧ t.rd (GOV_DOM_STATUS.CREF d) = s.rd (GOV_DOM_STATUS.CREF d)) ∧
  (∀ (s : State) (d : Fin 96) (vmeas isense : BitVec 16) (jobs : List LaneJob) (u w : State),
      u = (((s.wr (GOV_DOM_STATUS.VMEAS d) vmeas.toNat).wr (GOV_DOM_STATUS.ISENSE d) isense.toNat).stepVref d) →
      u.domSt d = Dom.on →
      u.on GOV_CTL.EN = true →
      toSigned vmeas.toNat 16 < (u.windowMid d : Int) - mvCode 60 ∨ (u.windowMid d : Int) + mvCode 60 < toSigned vmeas.toNat 16 →
      Tab.getD u.sup.breach d 0 = 0 →
      w = { u with sup := { u.sup with breach := Tab.set u.sup.breach d 1 } } →
      exec (.governorSample d vmeas isense jobs) s = .next (w.law d (toSigned vmeas.toNat 16) (toSigned isense.toNat 16))) ∧
  (∀ (s : State) (d : Fin 96) (vmeas isense : BitVec 16) (jobs : List LaneJob) (u : State),
      u = (((s.wr (GOV_DOM_STATUS.VMEAS d) vmeas.toNat).wr (GOV_DOM_STATUS.ISENSE d) isense.toNat).stepVref d) →
      u.domSt d = Dom.safe ∨ (u.domSt d = Dom.on ∧ u.on GOV_CTL.EN = false) →
      toSigned vmeas.toNat 16 < (u.windowMid d : Int) - mvCode 60 ∨ (u.windowMid d : Int) + mvCode 60 < toSigned vmeas.toNat 16 →
      Tab.getD u.sup.breach d 0 = 0 →
      exec (.governorSample d vmeas isense jobs) s = .next { u with sup := { u.sup with breach := Tab.set u.sup.breach d 1 } }) ∧
  (∀ (s : State) (d : Fin 96) (vmeas isense : BitVec 16) (jobs : List LaneJob) (u : State),
      u = (((s.wr (GOV_DOM_STATUS.VMEAS d) vmeas.toNat).wr (GOV_DOM_STATUS.ISENSE d) isense.toNat).stepVref d) →
      u.domSt d = Dom.safe ∨ (u.domSt d = Dom.on ∧ u.on GOV_CTL.EN = false) →
      (u.windowMid d : Int) - mvCode 60 ≤ toSigned vmeas.toNat 16 →
      toSigned vmeas.toNat 16 ≤ (u.windowMid d : Int) + mvCode 60 →
      exec (.governorSample d vmeas isense jobs) s = .next { u with sup := { u.sup with breach := Tab.del u.sup.breach d } }) ∧
  (∀ (s : State) (d : Fin 96) (vmeas isense : BitVec 16) (jobs : List LaneJob) (u : State),
      u = (((s.wr (GOV_DOM_STATUS.VMEAS d) vmeas.toNat).wr (GOV_DOM_STATUS.ISENSE d) isense.toNat).stepVref d) →
      u.domSt d = Dom.on ∨ u.domSt d = Dom.safe →
      toSigned vmeas.toNat 16 < (u.windowMid d : Int) - mvCode 60 ∨ (u.windowMid d : Int) + mvCode 60 < toSigned vmeas.toNat 16 →
      1 ≤ Tab.getD u.sup.breach d 0 →
      exec (.governorSample d vmeas isense jobs) s = .next (u.trip d jobs)) ∧
  (∀ (s : State) (d : Nat) (v i : Int),
      d < 96 →
      clampInt (toSigned (s.rd (GOV_PLAUS_LIM.VALUE d)) 16) 22 4369 < (toSigned (s.rd (GOV_DOM_STATUS.CREF d)) 16 - (s.rd (GOV_MODEL_R.VALUE d) : Int) * i / 2 ^ 15 / (s.rd (GOV_DOM_STATUS.N d) : Int)) - v →
      s.rd (GOV_PLAUS_N.VALUE d) = s.rd (GOV_DOM_STATUS.FAILS d) + 1 →
      s.rd (GOV_PLAUS_N.VALUE d) ≤ 255 →
      s.law d v i = (s.wr (GOV_DOM_STATUS.FAILS d) (s.rd (GOV_DOM_STATUS.FAILS d) + 1)).enterSafe d ∧ (s.law d v i).domSt d = Dom.safe ∧
        (s.law d v i).rd (GOV_DOM_STATUS.N d) = pwrPhases d ∧ (s.law d v i).rd (GOV_DOM_INT.I d) = s.rd (GOV_DOM_INT.I d)) ∧
  (∀ (s : State) (d : Fin 96),
      s.domSt d = Dom.safe →
      exec (.govResume d) s = .next ((((s.setDom d Dom.on).wr (GOV_DOM_STATUS.FAILS d) 0).wr (GOV_DOM_INT.I d) 0).wr (GOV_DOM_STATUS.N d) (((s.setDom d Dom.on).wr (GOV_DOM_STATUS.FAILS d) 0).phMax d))) ∧
  (∀ (s : State) (d : Fin 96),
      s.domSt d = Dom.safe →
      ∃ t : State, exec (.govResume d) s = .next t ∧ t.domSt d = Dom.on ∧ t.rd (GOV_DOM_STATUS.FAILS d) = 0 ∧ t.rd (GOV_DOM_INT.I d) = 0 ∧
        t.rd (GOV_DOM_STATUS.N d) = s.phMax d % 16 ∧ t.mem = s.mem) ∧
  (∀ (s : State) (d : Fin 96),
      s.domSt d ≠ Dom.safe →
      exec (.govResume d) s = .next s)

/-- Sensor readings and the thermal trip, measurement passes, a core retired. A reading keeps the sensors and shows the hottest; without 115 degrees the trip ball stays. A reading of 115 degrees drives THERM_TRIP_N low, abdicates and, 1 ms later, turns every domain off. A pass starts at mark 0 when it is due or asked for, unless one runs; each group of eight marks is recorded and the next one follows; the last ends the pass; without a pass the marks due since their domain came on are recorded. A core whose retirement is requested goes off and is marked retired; another stays. Completion stated for: thermalRead, thermalTripPoweroff, witnessPassStart, measureNow, markMeasurementDone, coreRetirement. -/
def Obligations.ThermalSensingWitnessPassesRetirement : Prop :=
  (∀ (s : State) (temps : List Int),
      (temps.any (fun (t : Int) => decide (115 ≤ t)) = false) →
      ∃ t : State, exec (.thermalRead temps) s = .next t ∧ t.sup.sensors = temps ∧ t.pins.thermTripN = s.pins.thermTripN ∧ t.mem = s.mem ∧ t.sup.tripOff = s.sup.tripOff ∧
        (∀ m : Int, hottest temps = some m → t.rd WIT_STATUS.TJ_MAX = ofSigned m 8 % 256)) ∧
  (∀ (s : State) (temps : List Int) (t u : State),
      (temps.any (fun (t : Int) => decide (115 ≤ t)) = false ∨ u.pins.thermTripN = false) →
      (t = match hottest temps with | some m => ({ s with sup := { s.sup with sensors := temps } } : State).wr WIT_STATUS.TJ_MAX (ofSigned m 8) | none => { s with sup := { s.sup with sensors := temps } }) →
      (u = (List.range 6).foldl (fun (s : State) c => s.throttleCluster temps c) t) →
      exec (.thermalRead temps) s = .next u) ∧
  (∀ (s : State) (temps : List Int) (m : Int) (u : State),
      (temps.any (fun (t : Int) => decide (115 ≤ t)) = true) →
      s.pins.thermTripN = true →
      hottest temps = some m →
      (u = (List.range 6).foldl (fun (s : State) c => s.throttleCluster temps c) (({ s with sup := { s.sup with sensors := temps } } : State).wr WIT_STATUS.TJ_MAX (ofSigned m 8))) →
      ∃ v : State, v = ((({ u with pins := { u.pins with thermTripN := false } } : State).raise Ev.thermTrip (some .wit)).wr PWR_RESET_CAUSE.TRIP_SEEN 1).abdicate 5 ∧
        exec (.thermalRead temps) s = .next (({ v with sup := { v.sup with tripOff := some (v.now + 1600000) } } : State).wired 2)) ∧
  (∀ (s : State),
      s.due s.sup.tripOff = true →
      ∃ t : State, exec .thermalTripPoweroff s = .next t ∧ (∀ d, d < 96 → t.domSt d = Dom.off) ∧ t.boot.stopped = true ∧ t.sup.tripOff = none ∧ t.mem = []) ∧
  (∀ (s : State) (t : State),
      s.due s.sup.tripOff = true →
      t = s.headStopped →
      exec .thermalTripPoweroff s = .next { t with sup := { t.sup with tripOff := none } }) ∧
  (∀ (s : State),
      s.due s.sup.tripOff = false →
      exec .thermalTripPoweroff s = .next s) ∧
  (∀ (s : State),
      s.due s.sup.passAt = true →
      exec .witnessPassStart s = .next ({ s with sup := { s.sup with passAt := some (s.inMgmt (s.rd WIT_CTL.PERIOD)) } } : State).startPass) ∧
  (∀ (s : State),
      s.due s.sup.passAt = true →
      s.on WIT_CTL.EN = true →
      s.on WIT_STATUS.BUSY = false →
      ∃ t : State, exec .witnessPassStart s = .next t ∧ t.on WIT_STATUS.BUSY = true ∧ t.sup.nextMark = some 0 ∧ t.sup.skipped = [] ∧
        t.sup.passAt = some (s.inMgmt (s.rd WIT_CTL.PERIOD)) ∧ t.mem = s.mem) ∧
  (∀ (s : State),
      s.due s.sup.passAt = false →
      exec .witnessPassStart s = .next s) ∧
  (∀ (s : State) (origin : Origin),
      s.admits .wit origin = true →
      s.on WIT_CTL.EN = true →
      s.on WIT_STATUS.BUSY = false →
      exec (.measureNow origin) s = .next (s.journaled { s.wr WIT_STATUS.BUSY 1 with sup := { s.sup with nextMark := some 0, skipped := [] } } origin WIT_CTL.MEASURE_NOW 1)) ∧
  (∀ (s : State) (origin : Origin),
      s.admits .wit origin = true →
      s.on WIT_STATUS.BUSY = true ∨ s.on WIT_CTL.EN = false →
      exec (.measureNow origin) s = .next (s.journaled s origin WIT_CTL.MEASURE_NOW 1)) ∧
  (∀ (s : State) (marks : List (Nat × Int)) (t : State),
      s.sup.nextMark = none →
      t = { s with sup := { s.sup with late := s.sup.late.drop 8 } } →
      exec (.markMeasurementDone marks) s = .next ((s.sup.late.take 8).zipIdx.foldl
        (fun (s : State) (x : Nat × Nat) => s.measure x.1 (marks.getD x.2 (0, 0)).1 (marks.getD x.2 (0, 0)).2) t)) ∧
  (∀ (s : State) (marks : List (Nat × Int)) (m : Nat),
      s.sup.nextMark = some m →
      m + 8 < 384 →
      ∃ u : State, u = ((List.range 8).foldl (fun (s : State) i => s.measure (m + i) (marks.getD i (0, 0)).1 (marks.getD i (0, 0)).2) s) ∧ exec (.markMeasurementDone marks) s = .next { u with sup := { u.sup with nextMark := some (m + 8) } } ∧ u.now = s.now ∧ u.mem = s.mem ∧
        (∀ i, i < 8 → s.markSkipped (m + i) = false → u.rd (WIT_MARK.COUNT (m + i)) = (marks.getD i (0, 0)).1 % 2 ^ (WIT_MARK.COUNT (m + i)).w)) ∧
  (∀ (s : State) (marks : List (Nat × Int)) (m : Nat),
      s.sup.nextMark = some m →
      384 ≤ m + 8 →
      ∃ u : State, u = ((List.range 8).foldl (fun (s : State) i => s.measure (m + i) (marks.getD i (0, 0)).1 (marks.getD i (0, 0)).2) s) ∧ exec (.markMeasurementDone marks) s = .next ({ u with sup := { u.sup with nextMark := none } } : State).replan) ∧
  (∀ (s : State) (core : Fin 48) (t : State),
      s.bit WIT_RETIRE_CORE.REQ core = true →
      t = { s with sup := { s.sup with hartsStopped := insertAsc core s.sup.hartsStopped } } →
      exec (.coreRetirement core) s = .next (((t.wr (PWR_DOM.REQ_ON core) 0).setDom core Dom.off).wr (CLK_CORE.RETIRED core) 1).countCoreEq.savePlan) ∧
  (∀ (s : State) (core : Fin 48),
      s.bit WIT_RETIRE_CORE.REQ core = true →
      ∃ t : State, exec (.coreRetirement core) s = .next t ∧ t.domSt core = Dom.off ∧ t.on (CLK_CORE.RETIRED core) = true ∧ t.rd (PWR_DOM.REQ_ON core) = 0 ∧
        t.sup.hartsStopped = insertAsc core s.sup.hartsStopped ∧ t.rd WIT_STATUS.CORE_EQ = t.coreEq % 2 ^ WIT_STATUS.CORE_EQ.w ∧ t.mem = s.mem) ∧
  (∀ (s : State) (core : Fin 48),
      s.bit WIT_RETIRE_CORE.REQ core = false →
      exec (.coreRetirement core) s = .next s)

/-- Events counted in lines, capacity ticks, the cut, the sweep, the Meter's descriptors. The oldest event of the queue reaches its line while the Meter runs, and waits otherwise; a cut due at its tick comes first, one counted before the last cut goes to the bank being swept, one without a line of its own to the overflow line. A management tick adds CAP_NOW to the lines of the shards counted since before it. A due cut freezes every line's bank at the last multiple of the interval and carries an unswept one over. A sweep waits for the events counted before the cut; a line with counts gives one record, an idle empty line is freed, the trailer ends it; without ring room it waits. CAP_SET needs the shard, a sound FROM_TIME and a line; LINE_READ needs 256 bytes and a line and writes exactly one record. Completion stated for: meterEvent, capTick, meterCut, meterSweep, capSet, lineRead. -/
def Obligations.MeterCountsCutsAndSweeps : Prop :=
  (∀ (s : State) (e : MtrEvent) (q : List MtrEvent),
      s.mtr.queue = e :: q →
      s.on MTR_CTL.EN = true →
      s.mtr.nextCut.any (· ≤ e.tick) = false →
      exec .meterEvent s = .next ({ s with mtr := { s.mtr with queue := q } }.meterAdd e)) ∧
  (∀ (s : State) (e : MtrEvent) (q : List MtrEvent) (t : State),
      s.mtr.queue = e :: q →
      s.on MTR_CTL.EN = true →
      s.mtr.nextCut.any (· ≤ e.tick) = true →
      t = s.meterCut →
      exec .meterEvent s = .next ({ t with mtr := { t.mtr with queue := q } }.meterAdd e)) ∧
  (∀ (s : State) (e : MtrEvent) (i : Nat) (l : MtrLine),
      s.mtrFind e.tenant e.shard = some i →
      Tab.get? s.mtr.lines i = some l →
      s.mtr.lastCut ≤ e.tick ∨ s.mtr.sweepAt = none →
      e.ctr < 10 →
      256 ≤ i →
      ∃ l' : MtrLine, Tab.get? (s.meterAdd e).mtr.lines i = some l' ∧ Tab.getD l'.active.ctr e.ctr 0 = (Tab.getD l.active.ctr e.ctr 0 + e.amount) % 2 ^ 64 ∧
        l'.frozen = l.frozen ∧ (∀ j, j ≠ i → Tab.get? (s.meterAdd e).mtr.lines j = Tab.get? s.mtr.lines j) ∧ (s.meterAdd e).mem = s.mem) ∧
  (∀ (s : State) (e : MtrEvent) (i : Nat) (l : MtrLine),
      s.mtrFind e.tenant e.shard = some i →
      Tab.get? s.mtr.lines i = some l →
      e.tick < s.mtr.lastCut →
      s.mtr.sweepAt.isSome = true →
      l.swept = false →
      e.ctr < 10 →
      256 ≤ i →
      ∃ l' : MtrLine, Tab.get? (s.meterAdd e).mtr.lines i = some l' ∧ Tab.getD l'.frozen.ctr e.ctr 0 = (Tab.getD l.frozen.ctr e.ctr 0 + e.amount) % 2 ^ 64 ∧
        l'.active = l.active ∧ l'.swept = false ∧ (∀ j, j ≠ i → Tab.get? (s.meterAdd e).mtr.lines j = Tab.get? s.mtr.lines j) ∧ (s.meterAdd e).mem = s.mem) ∧
  (∀ (s : State) (e : MtrEvent),
      s.mtrFind e.tenant e.shard = none →
      s.mtrFree e.tenant e.shard = none →
      s.mtr.lastCut ≤ e.tick →
      e.shard < 256 →
      s.meterAdd e = (s.mtrOverflow e.shard).setLine e.shard { Tab.getD s.mtr.lines e.shard { tenant := 0, shard := e.shard } with active := (Tab.getD s.mtr.lines e.shard { tenant := 0, shard := e.shard }).active.add e.ctr e.amount }) ∧
  (∀ (s : State),
      s.mtr.queue = [] ∨ s.on MTR_CTL.EN = false →
      exec .meterEvent s = .next s) ∧
  (∀ (s : State),
      s.on MTR_CTL.EN = false →
      exec .capTick s = .next s) ∧
  (∀ (s : State) (t : State),
      s.on MTR_CTL.EN = true →
      t = s.meterCut →
      exec .capTick s = .next { t with mtr := { t.mtr with lines := Tab.mapV t.mtr.lines (fun _ (l : MtrLine) => t.capTicked l) } }) ∧
  (∀ (s : State) (i w : Nat) (l : MtrLine),
      s.on MTR_CTL.EN = true →
      s.due s.mtr.nextCut = false →
      Tab.get? s.mtr.lines i = some l →
      Tab.get? s.mtr.capFrom l.shard = some w →
      ∃ t : State, exec .capTick s = .next t ∧ t.mem = s.mem ∧ t.csr = s.csr ∧
        Tab.get? t.mtr.lines i = some (if w < s.now then { l with active := l.active.add 9 l.capNow } else l)) ∧
  (∀ (s : State),
      s.on MTR_CTL.EN = false ∨ s.due s.mtr.nextCut = false →
      exec .meterCut s = .next s) ∧
  (∀ (s : State),
      s.on MTR_CTL.EN = true →
      s.due s.mtr.nextCut = true →
      exec .meterCut s = .next s.meterCut) ∧
  (∀ (s : State),
      s.on MTR_CTL.EN = true →
      s.due s.mtr.nextCut = true →
      ((s.mtr.lines.all fun (e : Nat × MtrLine) => e.2.swept) = true) →
      ∃ t : State, exec .meterCut s = .next t ∧ t.mtr.lastCut = s.now / s.mtr.len * s.mtr.len ∧ t.mtr.sweepAt = some 0 ∧ t.on MTR_STATUS.SWEEPING = true ∧
        t.mtr.lines = Tab.mapV s.mtr.lines (fun _ (l : MtrLine) => l.cut s.mtr.lastCut (s.mtr.movedNow.contains l.shard)) ∧ t.mtr.len = s.mtrLen ∧ t.mtr.prevCut = s.mtr.lastCut ∧ t.mem = s.mem ∧
        (∀ (l : MtrLine) (b : Bool), l.swept = true → (l.cut s.mtr.lastCut b).frozen = l.active ∧ (l.cut s.mtr.lastCut b).active = {} ∧ (l.cut s.mtr.lastCut b).capCut = l.capNow)) ∧
  (∀ (l : MtrLine) (start : Nat) (b : Bool),
      l.swept = false →
      (l.cut start b).active = {} ∧ (l.cut start b).carried = true ∧ (l.cut start b).start = l.start ∧ (l.cut start b).frozen = l.frozen.plus l.active ∧ (l.cut start b).moved = (l.moved || b)) ∧
  (∀ (s : State),
      (s.mtr.sweepAt = none ∨ s.on MTR_CTL.EN = false ∨ (s.mtr.queue.any fun (e : MtrEvent) => e.tick < s.mtr.lastCut) = true) →
      exec .meterSweep s = .next s) ∧
  (∀ (s : State) (u : State),
      s.mtr.sweepAt.isSome = true →
      s.on MTR_CTL.EN = true →
      ((s.mtr.queue.any fun (e : MtrEvent) => e.tick < s.mtr.lastCut) = false) →
      s.recRoom = true →
      u = ({ s with mtr := { s.mtr with ringFull := false } } : State).wr MTR_STATUS.RING_WAIT 0 →
      exec .meterSweep s = .next (sweepFrom (s.mtr.lines.filter fun (e : Nat × MtrLine) => !e.2.swept) u)) ∧
  (∀ (s : State) (u : State),
      s.mtr.sweepAt.isSome = true →
      s.on MTR_CTL.EN = true →
      ((s.mtr.queue.any fun (e : MtrEvent) => e.tick < s.mtr.lastCut) = false) →
      ((s.mtr.lines.all fun (e : Nat × MtrLine) => e.2.swept) = true) →
      s.recRoom = true →
      u = ({ s with mtr := { s.mtr with ringFull := false } } : State).wr MTR_STATUS.RING_WAIT 0 →
      ∃ v t : State, v = u.putRecord (recordBytes (u.rd LEASE_CTL.HEAD + 32) 0 0 0 u.mtr.lastCut u.mtr.recNo {} 0) ∧ exec .meterSweep s = .next t ∧ t.mem = v.mem ∧
        t.on MTR_STATUS.SWEEPING = false ∧ t.on MTR_STATUS.RING_WAIT = false ∧ t.mtr.sweepAt = none ∧
        t.rd MTR_LAST_CUT.VALUE = v.mtr.lastCut % 2 ^ MTR_LAST_CUT.VALUE.w ∧ t.rd MTR_REC_IDX.PROD = v.rd MTR_REC_IDX.PROD) ∧
  (∀ (s : State),
      s.mtr.sweepAt.isSome = true →
      s.on MTR_CTL.EN = true →
      ((s.mtr.queue.any fun (e : MtrEvent) => e.tick < s.mtr.lastCut) = false) →
      ((s.mtr.lines.all fun (e : Nat × MtrLine) => e.2.swept) = true) →
      s.recRoom = false →
      exec .meterSweep s = .next s.sweepWait ∧ s.sweepWait.mem = s.mem ∧ s.sweepWait.mtr.sweepAt = s.mtr.sweepAt) ∧
  (∀ (s : State),
      s.mtr.sweepAt.isSome = true →
      s.on MTR_CTL.EN = true →
      ((s.mtr.queue.any fun (e : MtrEvent) => e.tick < s.mtr.lastCut) = false) →
      s.recRoom = false →
      exec .meterSweep s = .next (sweepFrom (s.mtr.lines.filter fun (e : Nat × MtrLine) => !e.2.swept) s)) ∧
  (∀ (s : State),
      s.mtr.ringFull = false →
      s.sweepWait = (({ s with mtr := { s.mtr with ringFull := true } } : State).wr MTR_STATUS.RING_WAIT 1).raise Ev.mtrRingFull (some .mtr) ∧ s.sweepWait.on MTR_STATUS.RING_WAIT = true) ∧
  (∀ (s : State) (i : Nat) (l : MtrLine) (rest : List (Nat × MtrLine)),
      l.frozen.nonzero = true →
      s.recRoom = true →
      ∃ u : State, u = s.putRecord (recordBytes (s.recFlags i l) l.tenant l.shard l.start s.mtr.lastCut s.mtr.recNo l.frozen l.capCut) ∧
        sweepFrom ((i, l) :: rest) s = sweepFrom rest ({ u with mtr := { u.mtr with recNo := u.mtr.recNo + 1 } }.setLine i { l with frozen := {}, swept := true })) ∧
  (∀ (s : State) (i : Nat) (l : MtrLine) (rest : List (Nat × MtrLine)),
      l.frozen.nonzero = true →
      s.recRoom = false →
      sweepFrom ((i, l) :: rest) s = s.sweepWait) ∧
  (∀ (s : State) (i : Nat) (l : MtrLine) (rest : List (Nat × MtrLine)) (t : State),
      l.frozen.nonzero = false →
      l.active.nonzero = false →
      l.capNow = 0 →
      t = { s with mtr := { s.mtr with lines := Tab.del s.mtr.lines i } } →
      sweepFrom ((i, l) :: rest) s = sweepFrom rest (t.wr MTR_STATUS.LINES t.mtr.lines.length)) ∧
  (∀ (s : State) (i : Nat) (l : MtrLine) (rest : List (Nat × MtrLine)),
      l.frozen.nonzero = false →
      l.active.nonzero = true ∨ l.capNow ≠ 0 →
      sweepFrom ((i, l) :: rest) s = sweepFrom rest (s.setLine i { l with frozen := {}, swept := true })) ∧
  (∀ (s : State) (d : DescRef) (f : Fetched),
      s.startedAt .mtr d Op.capSet = some f →
      s.shardWon (f.at 28 1) = false →
      exec (.capSet d) s = .next (s.finish .mtr d St.mtrShardNotOwned)) ∧
  (∀ (s : State) (d : DescRef) (f : Fetched),
      s.startedAt .mtr d Op.capSet = some f →
      s.shardWon (f.at 28 1) = true →
      f.at 40 8 ≠ 0 →
      s.now < f.at 40 8 ∨ f.at 40 8 < Tab.getD s.mtr.capFrom (f.at 28 1) 0 →
      exec (.capSet d) s = .next (s.finish .mtr d St.timeInvalid)) ∧
  (∀ (s : State) (d : DescRef) (f : Fetched) (i : Nat) (l : MtrLine),
      s.startedAt .mtr d Op.capSet = some f →
      s.shardWon (f.at 28 1) = true →
      f.at 40 8 = 0 →
      s.mtrFind f.tenant (f.at 28 1) = some i →
      Tab.get? s.mtr.lines i = some l →
      exec (.capSet d) s = .next ((s.setLine i { l with capNow := f.at 32 8, active := l.active.add 9 0 }).finish .mtr d St.success)) ∧
  (∀ (s : State) (d : DescRef) (f : Fetched) (i : Nat) (l : MtrLine),
      s.startedAt .mtr d Op.capSet = some f →
      s.shardWon (f.at 28 1) = true →
      f.at 40 8 ≠ 0 →
      f.at 40 8 = 0 ∨ f.at 40 8 ≤ s.now ∧ Tab.getD s.mtr.capFrom (f.at 28 1) 0 ≤ f.at 40 8 →
      s.mtrFind f.tenant (f.at 28 1) = some i →
      Tab.get? s.mtr.lines i = some l →
      exec (.capSet d) s = .next ((s.setLine i { l with capNow := f.at 32 8, active := l.active.add 9 ((s.now / mgmtTick - f.at 40 8 / mgmtTick) * f.at 32 8), backdated := l.backdated || decide (f.at 40 8 < s.mtr.lastCut) }).finish .mtr d St.success)) ∧
  (∀ (s : State) (d : DescRef) (f : Fetched) (i n : Nat) (l : MtrLine),
      s.startedAt .mtr d Op.capSet = some f →
      s.shardWon (f.at 28 1) = true →
      f.at 40 8 = 0 ∨ f.at 40 8 ≤ s.now ∧ Tab.getD s.mtr.capFrom (f.at 28 1) 0 ≤ f.at 40 8 →
      s.mtrFind f.tenant (f.at 28 1) = none →
      s.mtrFree f.tenant (f.at 28 1) = some i →
      l = { tenant := f.tenant, shard := f.at 28 1 } →
      (n = if f.at 40 8 = 0 then 0 else s.now / mgmtTick - f.at 40 8 / mgmtTick) →
      exec (.capSet d) s = .next ((s.setLine i { l with capNow := f.at 32 8, active := l.active.add 9 (n * f.at 32 8), backdated := (f.at 40 8 != 0 && decide (f.at 40 8 < s.mtr.lastCut)) }).finish .mtr d St.success)) ∧
  (∀ (s : State) (d : DescRef) (f : Fetched),
      s.startedAt .mtr d Op.capSet = some f →
      s.shardWon (f.at 28 1) = true →
      f.at 40 8 = 0 ∨ f.at 40 8 ≤ s.now ∧ Tab.getD s.mtr.capFrom (f.at 28 1) 0 ≤ f.at 40 8 →
      s.mtrFind f.tenant (f.at 28 1) = none →
      s.mtrFree f.tenant (f.at 28 1) = none →
      exec (.capSet d) s = .next (s.finish .mtr d St.lineFull)) ∧
  (∀ (s : State) (d : DescRef) (f : Fetched),
      s.startedAt .mtr d Op.lineRead = some f →
      f.len ≠ 256 →
      exec (.lineRead d) s = .next (s.finish .mtr d St.lengthMismatch)) ∧
  (∀ (s : State) (d : DescRef) (f : Fetched),
      s.startedAt .mtr d Op.lineRead = some f →
      f.len = 256 →
      s.mtrFind f.tenant (f.at 28 1) = none →
      exec (.lineRead d) s = .next (s.finish .mtr d St.lineAbsent)) ∧
  (∀ (s : State) (d : DescRef) (f : Fetched) (i : Nat) (l : MtrLine) (t : State),
      s.startedAt .mtr d Op.lineRead = some f →
      f.len = 256 →
      s.mtrFind f.tenant (f.at 28 1) = some i →
      Tab.get? s.mtr.lines i = some l →
      (s.dmaWrite .mtr f.dst (recordBytes (s.rd LEASE_CTL.HEAD + (if l.backdated then 4 else 0) + (if s.mtr.movedNow.contains (f.at 28 1) then 16 else 0)) l.tenant l.shard s.mtr.lastCut 0 0 l.active l.capNow) (some d.ring)).toOption = some t →
      exec (.lineRead d) s = .next (t.finish .mtr d St.success))

/-- Token refill, spilling to DRAM, EVENT_OUT, the counts cleared. Every bucket gains its rate up to its burst. The oldest due entry is copied to the DRAM ring at PROD while SPILL_EN is 1 and an entry stays free; otherwise nothing moves. A pulse of EVENT_OUT that has lasted its 1,600 ticks falls; after as long a low time, the merged pulse that is owed starts. The lease-loss indication ends and the ball stays low. CLR_COUNTS zeroes every suppressed and frozen count and no other register. Completion stated for: tallyTokenRefill, tallySpill, triggerPulseEnd, lossHoldExpiry, tallyClearCounts. -/
def Obligations.TallySpillsRefillsAndIndicates : Prop :=
  (∀ (s : State),
      exec .tallyTokenRefill s = .next { s with tally := { s.tally with bucket := Tab.mapV s.tally.bucket s.refilled } }) ∧
  (∀ (s : State) (x b : Nat),
      Tab.get? s.tally.bucket x = some b →
      ∃ t : State, exec .tallyTokenRefill s = .next t ∧ Tab.get? t.tally.bucket x = some (min (s.rd (TAL_CODE.BURST x) * 256) (b + s.rd (TAL_CODE.RATE x))) ∧
        t.csr = s.csr ∧ t.mem = s.mem ∧ t.tally.buf = s.tally.buf) ∧
  (∀ (s : State) (slot : Nat) (rest : List Nat) (e : TallyEntry) (t : State),
      s.tally.due = slot :: rest →
      s.on TAL_RING.SPILL_EN = true →
      s.spillRoom = true →
      Tab.get? s.tally.buf slot = some e →
      (s.dmaWrite .tal (s.rd TAL_RING.BASE * 4096 + s.rd TAL_RING_IDX.PROD * 256) e.bytes).toOption = some t →
      exec .tallySpill s = .next { t.wr TAL_RING_IDX.PROD ((s.rd TAL_RING_IDX.PROD + 1) % 2 ^ s.rd TAL_RING.LOG2_ENTRIES) with tally := { t.tally with due := rest } }) ∧
  (∀ (e : TallyEntry),
      e.bytes.length = 256 ∧ e.bytes.take 2 = leBytes 2 e.code ∧ e.bytes.drop 252 = leBytes 4 (crc32c (e.bytes.take 252))) ∧
  (∀ (s : State) (slot : Nat) (rest : List Nat),
      s.tally.due = slot :: rest →
      s.on TAL_RING.SPILL_EN = true →
      s.spillRoom = true →
      Tab.get? s.tally.buf slot = none →
      exec .tallySpill s = .next { s with tally := { s.tally with due := rest } }) ∧
  (∀ (s : State),
      s.tally.due = [] ∨ s.on TAL_RING.SPILL_EN = false ∨ s.spillRoom = false →
      exec .tallySpill s = .next s) ∧
  (∀ (s : State),
      s.due s.tally.pulseEnd = true →
      exec .triggerPulseEnd s = .next { s with tally := { s.tally with pulseEnd := none, lowEnd := some (s.now + 1600) }, pins := { s.pins with eventOut := false } }) ∧
  (∀ (s : State) (t : State),
      s.due s.tally.pulseEnd = false →
      s.due s.tally.lowEnd = true →
      s.tally.merged ≠ 0 →
      t = { s with tally := { s.tally with lowEnd := none, merged := 0, pulseEnd := some (s.now + 1600) }, pins := { s.pins with eventOut := true } } →
      exec .triggerPulseEnd s = .next (t.wired 3)) ∧
  (∀ (s : State),
      s.due s.tally.pulseEnd = true →
      ∃ t : State, exec .triggerPulseEnd s = .next t ∧ t.pins.eventOut = false ∧ t.tally.pulseEnd = none ∧ t.tally.lowEnd = some (s.now + 1600) ∧ t.tally.merged = s.tally.merged ∧ t.csr = s.csr ∧ t.mem = s.mem) ∧
  (∀ (s : State),
      s.due s.tally.pulseEnd = false →
      s.due s.tally.lowEnd = true →
      s.tally.merged ≠ 0 →
      ∃ t : State, exec .triggerPulseEnd s = .next t ∧ t.pins.eventOut = true ∧ t.tally.pulseEnd = some (s.now + 1600) ∧ t.tally.lowEnd = none ∧ t.tally.merged = 0 ∧ t.csr = s.csr ∧ t.mem = s.mem) ∧
  (∀ (s : State),
      s.due s.tally.pulseEnd = false →
      s.due s.tally.lowEnd = true →
      s.tally.merged = 0 →
      exec .triggerPulseEnd s = .next { s with tally := { s.tally with lowEnd := none } }) ∧
  (∀ (s : State),
      s.due s.tally.pulseEnd = false →
      s.due s.tally.lowEnd = false →
      exec .triggerPulseEnd s = .next s) ∧
  (∀ (s : State),
      s.due s.tally.lossUntil = true →
      exec .lossHoldExpiry s = .next { s with tally := { s.tally with lossUntil := none, lowEnd := some (s.now + 1600) }, pins := { s.pins with eventOut := false } }) ∧
  (∀ (s : State),
      s.due s.tally.lossUntil = true →
      ∃ t : State, exec .lossHoldExpiry s = .next t ∧ t.pins.eventOut = false ∧ t.tally.lossUntil = none ∧ t.tally.lowEnd = some (s.now + 1600) ∧ t.csr = s.csr ∧ t.mem = s.mem) ∧
  (∀ (s : State),
      s.due s.tally.lossUntil = false →
      exec .lossHoldExpiry s = .next s) ∧
  (∀ (s : State),
      s.on TAL_OUT_CFG.LEASE_EN = true →
      s.leaseLossIndication.pins.eventOut = true ∧ s.leaseLossIndication.tally.lossUntil = some (s.inMgmt (s.rd TAL_OUT_CFG.LOSS_HOLD)) ∧
        s.leaseLossIndication.tally.merged = 0 ∧ s.leaseLossIndication.rd TAL_STATUS.TRIG_SUPP = satAdd (s.rd TAL_STATUS.TRIG_SUPP) s.tally.merged TAL_STATUS.TRIG_SUPP.w % 2 ^ TAL_STATUS.TRIG_SUPP.w) ∧
  (∀ (s : State),
      exec .tallyClearCounts s = .next { s with csr := Tab.keep s.csr (fun k _ => decide (k < 0xF614000 * 64) || decide (0xF61C000 * 64 ≤ k)) }) ∧
  (∀ (s : State) (f : Fld),
      f.lo < 64 →
      f.reg < 0xF614000 ∨ 0xF61C000 ≤ f.reg →
      ∃ t : State, exec .tallyClearCounts s = .next t ∧ t.rd f = s.rd f ∧ t.mem = s.mem ∧ t.tally = s.tally) ∧
  (∀ (s : State) (x : Nat),
      x < 4096 →
      ∃ t : State, exec .tallyClearCounts s = .next t ∧ t.rd (TAL_COUNT.SUPPRESSED x) = 0 ∧ t.rd (TAL_COUNT.FROZEN x) = 0)

/-- Frames of the management port steered, sent and received; its link; the wall clock. A port that is off or without link, a frame longer than 1,522 bytes and one to another station change nothing. A Jig datagram waits for the Island, up to 64 of them; any other frame goes to the running firmware through its oldest buffer or is counted in RX_DROP; while the firmware does not run the Island answers or the frame is lost. A link change of an enabled port shows state and speed. FRAME_TX sends the bytes at SOURCE, FRAME_RX_BUF waits for a frame. MGT_WALL_REF applies the held clock values. Completion stated for: mgtFrameRx, mgtLinkChange, frameTx, frameRxBuf, wallClockApply. -/
def Obligations.ManagementPortFramesAndClock : Prop :=
  (∀ (s : State) (frame : List Byte),
      s.on MGT_CTL.EN = false ∨ s.on MGT_STATUS.LINK = false ∨ 1522 < frame.length ∨ s.mgtAccepts (frame.take 6) = false →
      exec (.mgtFrameRx frame) s = .next s) ∧
  (∀ (s : State) (frame p : List Byte),
      frame.length ≤ 1522 →
      s.on MGT_CTL.EN = true →
      s.on MGT_STATUS.LINK = true →
      s.mgtAccepts (frame.take 6) = true →
      s.jigPayload frame = some p →
      s.mgt.jigIn.length < 64 →
      exec (.mgtFrameRx frame) s = .next { s with mgt := { s.mgt with jigIn := s.mgt.jigIn ++ [p] } }) ∧
  (∀ (s : State) (frame p : List Byte),
      s.on MGT_CTL.EN = true →
      s.on MGT_STATUS.LINK = true →
      frame.length ≤ 1522 →
      s.mgtAccepts (frame.take 6) = true →
      s.jigPayload frame = some p →
      64 ≤ s.mgt.jigIn.length →
      exec (.mgtFrameRx frame) s = .next s) ∧
  (∀ (s : State) (frame : List Byte),
      s.on MGT_CTL.EN = true →
      s.on MGT_STATUS.LINK = true →
      frame.length ≤ 1522 →
      s.mgtAccepts (frame.take 6) = true →
      s.jigPayload frame = none →
      s.mgt.fwRunning = true →
      exec (.mgtFrameRx frame) s = .next (s.frameToFirmware frame)) ∧
  (∀ (s : State) (frame : List Byte),
      s.on MGT_CTL.EN = true →
      s.on MGT_STATUS.LINK = true →
      frame.length ≤ 1522 →
      s.mgtAccepts (frame.take 6) = true →
      s.jigPayload frame = none →
      s.mgt.fwRunning = false →
      s.islandAnswer frame = none →
      exec (.mgtFrameRx frame) s = .next s) ∧
  (∀ (s : State) (frame : List Byte),
      s.on MGT_CTL.EN = true →
      s.on MGT_STATUS.LINK = true →
      frame.length ≤ 1522 →
      s.mgtAccepts (frame.take 6) = true →
      s.jigPayload frame = none →
      s.mgt.fwRunning = true →
      s.firstWaiting .mgt Op.frameRxBuf = none →
      exec (.mgtFrameRx frame) s = .next (s.bump MGT_STATUS.RX_DROP 1)) ∧
  (∀ (s : State) (frame : List Byte) (d : DescRef) (f : Fetched) (t : State),
      s.on MGT_CTL.EN = true →
      s.on MGT_STATUS.LINK = true →
      frame.length ≤ 1522 →
      s.mgtAccepts (frame.take 6) = true →
      s.jigPayload frame = none →
      s.mgt.fwRunning = true →
      s.firstWaiting .mgt Op.frameRxBuf = some (d, f) →
      (s.dmaWrite .mgt f.dst frame (some d.ring)).toOption = some t →
      exec (.mgtFrameRx frame) s = .next (t.finish .mgt d St.success frame.length s.now)) ∧
  (∀ (s : State) (frame : List Byte) (r : IslandReply),
      s.on MGT_CTL.EN = true →
      s.on MGT_STATUS.LINK = true →
      frame.length ≤ 1522 →
      s.mgtAccepts (frame.take 6) = true →
      s.jigPayload frame = none →
      s.mgt.fwRunning = false →
      s.islandAnswer frame = some r →
      exec (.mgtFrameRx frame) s = .next { s with mgt := { s.mgt with replies := r :: s.mgt.replies } }) ∧
  (∀ (s : State) (up gig : Bool),
      s.on MGT_CTL.EN = false ∨ s.on MGT_STATUS.LINK = up →
      exec (.mgtLinkChange up gig) s = .next s) ∧
  (∀ (s : State) (up gig : Bool) (n : Nat),
      s.on MGT_CTL.EN = true →
      s.on MGT_STATUS.LINK ≠ up →
      (n = if !up then 0 else if s.on MGT_CTL.MODE then 3 else if gig then 2 else 1) →
      exec (.mgtLinkChange up gig) s = .next (((s.wr MGT_STATUS.LINK (if up then 1 else 0)).wr MGT_STATUS.SPEED n).raise Ev.mgtLink (some .mgt))) ∧
  (∀ (s : State) (up gig : Bool),
      s.on MGT_CTL.EN = true →
      s.on MGT_STATUS.LINK ≠ up →
      ∃ t : State, exec (.mgtLinkChange up gig) s = .next t ∧ t.on MGT_STATUS.LINK = up ∧
        t.rd MGT_STATUS.SPEED = (if up then (if s.on MGT_CTL.MODE then 3 else if gig then 2 else 1) else 0) ∧ t.mem = s.mem ∧ t.mgt = s.mgt) ∧
  (∀ (s : State) (d : DescRef) (f : Fetched),
      s.startedAt .mgt d Op.frameTx = some f →
      1522 < f.len →
      exec (.frameTx d) s = .next (s.finish .mgt d St.frameTooLong)) ∧
  (∀ (s : State) (d : DescRef) (f : Fetched) (bs : List Byte),
      s.startedAt .mgt d Op.frameTx = some f →
      f.len ≤ 1522 →
      (s.dmaRead .mgt f.src f.len (some d.ring)).toOption = some bs →
      exec (.frameTx d) s = .next ({ s with mgt := { s.mgt with sent := bs :: s.mgt.sent } }.finish .mgt d St.success 0 (if (f.at 28 1).testBit 0 then s.now else 0))) ∧
  (∀ (s : State) (d : DescRef) (f : Fetched),
      s.startedAt .mgt d Op.frameRxBuf = some f →
      f.len < 1522 →
      exec (.frameRxBuf d) s = .next (s.finish .mgt d St.lengthMismatch)) ∧
  (∀ (s : State) (d : DescRef) (f : Fetched),
      s.startedAt .mgt d Op.frameRxBuf = some f →
      1522 ≤ f.len →
      exec (.frameRxBuf d) s = .next (s.setPhase .mgt d .waiting)) ∧
  (∀ (s : State) (ref : Word),
      exec (.wallClockApply ref) s = .next ((((s.wr MGT_WALL_SEC.SEC s.mgt.heldSec).wr MGT_WALL_NS.NS s.mgt.heldNs).wr MGT_WALL_NS.RATE s.mgt.heldRate).wr MGT_WALL_REF.REF ref.toNat)) ∧
  (∀ (s : State) (ref : Word),
      s.mgt.heldSec < 2 ^ MGT_WALL_SEC.SEC.w →
      s.mgt.heldNs < 2 ^ MGT_WALL_NS.NS.w →
      s.mgt.heldRate < 2 ^ MGT_WALL_NS.RATE.w →
      ∃ t : State, exec (.wallClockApply ref) s = .next t ∧ t.rd MGT_WALL_SEC.SEC = s.mgt.heldSec ∧ t.rd MGT_WALL_NS.NS = s.mgt.heldNs ∧ t.rd MGT_WALL_NS.RATE = s.mgt.heldRate ∧
        t.rd MGT_WALL_REF.REF = ref.toNat ∧ t.mem = s.mem ∧ t.mgt = s.mgt)

/-- Settings groups written, read and deleted; what a torn log restores. A descriptor naming a group outside its origin's range fails with DRW_GROUP_RANGE; a write of more than 65,536 bytes or beyond 2 MiB fails; a failed program keeps the previous record. A write appends a record of the next generation and puts it into the retention SRAM. A read needs a group and a buffer large enough and writes its bytes; a delete appends a tombstone and removes the group. A scan restores, of the records before the first bad header, none that a tombstone ended. Completion stated for: groupWrite, groupRead, groupDelete. -/
def Obligations.DrawerDescriptors : Prop :=
  (∀ (s : State) (d : DescRef) (f : Fetched),
      s.startedAt .drw d Op.groupWrite = some f →
      groupAllowed f.origin (f.at 28 2) = false →
      exec (.groupWrite d true) s = .next (s.finish .drw d St.drwGroupRange)) ∧
  (∀ (s : State) (d : DescRef) (f : Fetched),
      s.startedAt .drw d Op.groupRead = some f →
      groupAllowed f.origin (f.at 28 2) = false →
      exec (.groupRead d) s = .next (s.finish .drw d St.drwGroupRange)) ∧
  (∀ (s : State) (d : DescRef) (f : Fetched),
      s.startedAt .drw d Op.groupDelete = some f →
      groupAllowed f.origin (f.at 28 2) = false →
      exec (.groupDelete d true) s = .next (s.finish .drw d St.drwGroupRange)) ∧
  (∀ (s : State) (d : DescRef) (f : Fetched) (norOk : Bool),
      s.startedAt .drw d Op.groupWrite = some f →
      groupAllowed f.origin (f.at 28 2) = true →
      65536 < f.len →
      exec (.groupWrite d norOk) s = .next (s.finish .drw d St.drwTooLong)) ∧
  (∀ (s : State) (d : DescRef) (f : Fetched) (norOk : Bool),
      s.startedAt .drw d Op.groupWrite = some f →
      groupAllowed f.origin (f.at 28 2) = true →
      f.len ≤ 65536 →
      drwLimit < retUsed (Tab.del s.drw.ret (f.at 28 2)) + f.len + 64 →
      exec (.groupWrite d norOk) s = .next (s.finish .drw d St.drwSpace)) ∧
  (∀ (s : State) (d : DescRef) (f : Fetched),
      s.startedAt .drw d Op.groupWrite = some f →
      groupAllowed f.origin (f.at 28 2) = true →
      f.len ≤ 65536 →
      retUsed (Tab.del s.drw.ret (f.at 28 2)) + f.len + 64 ≤ drwLimit →
      (s.dmaRead .drw f.src f.len (some d.ring)).toOption.isSome = true →
      exec (.groupWrite d false) s = .next ((s.raise Ev.drwNorFail (some .drw)).finish .drw d St.drwNorFail) ∧ (s.raise Ev.drwNorFail (some .drw)).drw = s.drw) ∧
  (∀ (s : State) (d : DescRef) (f : Fetched) (bs : List Byte),
      s.startedAt .drw d Op.groupWrite = some f →
      groupAllowed f.origin (f.at 28 2) = true →
      f.len ≤ 65536 →
      retUsed (Tab.del s.drw.ret (f.at 28 2)) + f.len + 64 ≤ drwLimit →
      (s.dmaRead .drw f.src f.len (some d.ring)).toOption = some bs →
      exec (.groupWrite d true) s = .next ((s.keepGroup (f.at 28 2) (f.at 30 2) bs).finish .drw d St.success 0 (s.activeHalf.nextGen (f.at 28 2)))) ∧
  (∀ (s : State) (d : DescRef) (f : Fetched) (bs : List Byte) (r : GroupRec) (u : State),
      s.startedAt .drw d Op.groupWrite = some f →
      groupAllowed f.origin (f.at 28 2) = true →
      f.len ≤ 65536 →
      retUsed (Tab.del s.drw.ret (f.at 28 2)) + f.len + 64 ≤ drwLimit →
      (s.dmaRead .drw f.src f.len (some d.ring)).toOption = some bs →
      r = { group := f.at 28 2, format := f.at 30 2, gen := s.activeHalf.nextGen (f.at 28 2), data := bs } →
      u = s.drwAppend r →
      exec (.groupWrite d true) s = .next (({ u with drw := { u.drw with ret := Tab.set u.drw.ret (f.at 28 2) r, retOk := true } } : State).drwCounts.finish .drw d St.success 0 r.gen) ∧
        u.activeHalf.recs.getLast? = some r ∧ u.drw.ret = s.drw.ret) ∧
  (∀ (s : State) (d : DescRef) (f : Fetched),
      s.startedAt .drw d Op.groupRead = some f →
      groupAllowed f.origin (f.at 28 2) = true →
      Tab.get? s.drw.ret (f.at 28 2) = none →
      exec (.groupRead d) s = .next (s.finish .drw d St.drwAbsent)) ∧
  (∀ (s : State) (d : DescRef) (f : Fetched) (r : GroupRec),
      s.startedAt .drw d Op.groupRead = some f →
      groupAllowed f.origin (f.at 28 2) = true →
      Tab.get? s.drw.ret (f.at 28 2) = some r →
      f.len < r.data.length →
      exec (.groupRead d) s = .next (s.finish .drw d St.lengthMismatch)) ∧
  (∀ (s : State) (d : DescRef) (f : Fetched) (r : GroupRec) (t : State),
      s.startedAt .drw d Op.groupRead = some f →
      groupAllowed f.origin (f.at 28 2) = true →
      Tab.get? s.drw.ret (f.at 28 2) = some r →
      r.data.length ≤ f.len →
      (s.dmaWrite .drw f.dst r.data (some d.ring)).toOption = some t →
      exec (.groupRead d) s = .next (t.finish .drw d St.success r.format (r.data.length + r.gen * 2 ^ 32))) ∧
  (∀ (s : State) (d : DescRef) (f : Fetched) (norOk : Bool),
      s.startedAt .drw d Op.groupDelete = some f →
      groupAllowed f.origin (f.at 28 2) = true →
      Tab.get? s.drw.ret (f.at 28 2) = none →
      exec (.groupDelete d norOk) s = .next (s.finish .drw d St.drwAbsent)) ∧
  (∀ (s : State) (d : DescRef) (f : Fetched) (r : GroupRec),
      s.startedAt .drw d Op.groupDelete = some f →
      groupAllowed f.origin (f.at 28 2) = true →
      Tab.get? s.drw.ret (f.at 28 2) = some r →
      exec (.groupDelete d false) s = .next ((s.raise Ev.drwNorFail (some .drw)).finish .drw d St.drwNorFail)) ∧
  (∀ (s : State) (d : DescRef) (f : Fetched) (r : GroupRec) (u : State),
      s.startedAt .drw d Op.groupDelete = some f →
      groupAllowed f.origin (f.at 28 2) = true →
      Tab.get? s.drw.ret (f.at 28 2) = some r →
      u = ({ s with drw := { s.drw with ret := Tab.del s.drw.ret (f.at 28 2) } } : State) →
      exec (.groupDelete d true) s = .next ((u.drwAppend { r with gen := s.activeHalf.nextGen (f.at 28 2), data := [], tomb := true }).drwCounts.finish .drw d St.success)) ∧
  (∀ (s : State) (d : DescRef) (f : Fetched) (r : GroupRec) (u : State),
      s.startedAt .drw d Op.groupDelete = some f →
      groupAllowed f.origin (f.at 28 2) = true →
      Tab.get? s.drw.ret (f.at 28 2) = some r →
      s.on DRW_STATUS.TORN = false →
      s.activeHalf.used + 256 ≤ drwHalfSize →
      u = ({ s with drw := { s.drw with ret := Tab.del s.drw.ret (f.at 28 2) } } : State) →
      exec (.groupDelete d true) s = .next ((u.setActiveHalf { s.activeHalf with valid := true, recs := s.activeHalf.recs ++ [{ r with gen := s.activeHalf.nextGen (f.at 28 2), data := [], tomb := true }] }).drwCounts.finish .drw d St.success)) ∧
  (∀ (h : Half) (g : Nat) (r : GroupRec),
      Tab.get? h.groups g = some r →
      r ∈ h.scanned ∧ r.group = g ∧ r.dataOk = true ∧ r.hdrOk = true ∧ r.tomb = false ∧ (∀ x ∈ h.scanned, x.group = g → x.dataOk = true → x.gen ≤ r.gen))

/-- Cold and warm resets: what they clear and keep; the boot sequence; a bad Island image ends in the recovery jig. VDD_AON rising, PWROK or RESET_N falling and a loss of power put the head into cold reset: OTP stays, DRAM, Vat and CHIP_TIME are cleared, every domain is off. When all are high the boot sequence runs from the sampled straps. A warm reset, which only the Island may start and a stopped head ignores, keeps CHIP_TIME, OTP and the Drawer, counts itself, turns every domain off and ends 100 microseconds later in the boot sequence. A boot whose Island image fails ends in the recovery jig with FAIL 1. Completion stated for: vddAonRise, pwrokFall, resetNAssert, powerLoss, coldResetRelease, warmReset, warmResetEnd. -/
def Obligations.ResetsBootAndPower : Prop :=
  (∀ (s : State) (fuses : List (Nat × Byte)) (images : List (Nat × List Byte)),
      s.pins.vddAon = false →
      Memory.wf s.otp = true →
      ∃ t : State, exec (.vddAonRise fuses images) s = .next t ∧ t.boot.cold = true ∧ t.now = 0 ∧ t.mem = [] ∧ (∀ d, d < 96 → t.domSt d = Dom.off) ∧ t.pending = s.pending ∧ t.pins.vddAon = true ∧ (∀ a, Memory.read s.otp a ||| Memory.read t.otp a = Memory.read t.otp a)) ∧
  (∀ (s : State) (fuses : List (Nat × Byte)) (images : List (Nat × List Byte)),
      s.pins.vddAon = true →
      exec (.vddAonRise fuses images) s = .next s) ∧
  (∀ (s : State) (torn : Option (DescRef × Bool)) (k : State),
      s.pins.vddAon = true →
      s.pins.pwrok = true →
      k = s.coldReset torn 1 →
      exec (.pwrokFall torn) s = .next { k with pins := { k.pins with pwrok := false } }) ∧
  (∀ (s : State) (torn : Option (DescRef × Bool)) (k : State),
      s.pins.vddAon = true →
      s.pins.resetN = true →
      k = s.coldReset torn 1 →
      exec (.resetNAssert torn) s = .next { k with pins := { k.pins with resetN := false } }) ∧
  (∀ (s : State) (torn : Option (DescRef × Bool)) (k : State),
      s.pins.vddAon = true →
      k = s.coldReset torn 1 →
      exec (.powerLoss torn) s = .next { k with pins := { k.pins with vddAon := false, pwrok := false } }) ∧
  (∀ (s : State) (torn : Option (DescRef × Bool)) (last : Nat),
      (s.coldReset torn last).boot.cold = true ∧ (s.coldReset torn last).now = 0 ∧ (s.coldReset torn last).mem = [] ∧ (s.coldReset torn last).otp = s.otp ∧
        (s.coldReset torn last).rings = [] ∧ (s.coldReset torn last).pending = s.pending ∧ (s.coldReset torn last).rd PWR_RESET_CAUSE.LAST = last % 2 ^ PWR_RESET_CAUSE.LAST.w ∧
        (s.coldReset torn last).rd PWR_RESET_CAUSE.REFCLK_SEEN = s.rd PWR_RESET_CAUSE.REFCLK_SEEN % 2 ^ PWR_RESET_CAUSE.REFCLK_SEEN.w ∧ (∀ d, d < 96 → (s.coldReset torn last).domSt d = Dom.off)) ∧
  (∀ (s : State),
      s.pins.vddAon = true →
      s.pins.pwrok = true →
      ∃ t : State, exec (.pwrokFall none) s = .next t ∧ t.boot.cold = true ∧ t.now = 0 ∧ t.mem = [] ∧ (∀ d, d < 96 → t.domSt d = Dom.off) ∧ t.pending = s.pending ∧ t.otp = s.otp ∧ t.drw.half0 = s.drw.half0 ∧ t.drw.half1 = s.drw.half1 ∧ t.pins.pwrok = false ∧ t.rd PWR_RESET_CAUSE.LAST = 1) ∧
  (∀ (s : State) (torn : Option (DescRef × Bool)),
      s.pins.vddAon = false ∨ s.pins.pwrok = false →
      exec (.pwrokFall torn) s = .next s) ∧
  (∀ (s : State),
      s.pins.vddAon = true →
      s.pins.resetN = true →
      ∃ t : State, exec (.resetNAssert none) s = .next t ∧ t.boot.cold = true ∧ t.now = 0 ∧ t.mem = [] ∧ (∀ d, d < 96 → t.domSt d = Dom.off) ∧ t.pending = s.pending ∧ t.otp = s.otp ∧ t.drw.half0 = s.drw.half0 ∧ t.drw.half1 = s.drw.half1 ∧ t.pins.resetN = false ∧ t.rd PWR_RESET_CAUSE.LAST = 1) ∧
  (∀ (s : State) (torn : Option (DescRef × Bool)),
      s.pins.vddAon = false ∨ s.pins.resetN = false →
      exec (.resetNAssert torn) s = .next s) ∧
  (∀ (s : State),
      s.pins.vddAon = true →
      ∃ t : State, exec (.powerLoss none) s = .next t ∧ t.boot.cold = true ∧ t.now = 0 ∧ t.mem = [] ∧ (∀ d, d < 96 → t.domSt d = Dom.off) ∧ t.pending = s.pending ∧ t.otp = s.otp ∧ t.drw.half0 = s.drw.half0 ∧ t.drw.half1 = s.drw.half1 ∧ t.pins.vddAon = false) ∧
  (∀ (s : State) (torn : Option (DescRef × Bool)),
      s.pins.vddAon = false →
      exec (.powerLoss torn) s = .next s) ∧
  (∀ (s : State) (headSel peerPrsntN norOk : Bool) (train : List (Bool × Nat)),
      s.boot.cold = true →
      s.pins.vddAon = true →
      exec (.coldResetRelease headSel peerPrsntN norOk train) s = .next (({ s with now := 0, boot := { s.boot with cold := false, before := s.wireNow }, pins := { s.pins with pwrok := true, resetN := true, refclk := true, headSel := headSel, peerPrsntN := peerPrsntN } } : State).bootIsland.bootRun false norOk train)) ∧
  (∀ (s : State) (headSel peerPrsntN norOk : Bool) (train : List (Bool × Nat)),
      s.boot.cold = false ∨ s.pins.vddAon = false →
      exec (.coldResetRelease headSel peerPrsntN norOk train) s = .next s) ∧
  (∀ (s : State) (warm norOk : Bool) (train : List (Bool × Nat)) (v : State),
      (v = [1, 2, 3].foldl (fun (s : State) t => s.restoreSlot t) ((((s.bootStep 2).raise Ev.reset (some .pwr)).bootOtp warm).bootStep 3)) →
      v.imageOk 1 = false → s.bootRun warm norOk train = v.enterRecovery ∧ v.enterRecovery.jig.recovery = true ∧ v.enterRecovery.rd PWR_BOOT_STATUS.FAIL = 1 ∧
        v.enterRecovery.rd PWR_BOOT_STATUS.STEP = 3 ∧ v.enterRecovery.domSt 95 = Dom.on) ∧
  (∀ (s : State) (origin : Origin),
      origin ≠ 0x200 →
      exec (.warmReset origin) s = .next (s.unitErr .pwr origin.toNat (errOffset PWR_RESET_CTL.WARM.reg) 3)) ∧
  (∀ (s : State),
      s.boot.cold = true ∨ s.boot.stopped = true ∨ s.boot.warmUntil.isSome = true →
      exec (.warmReset 0x200) s = .next s) ∧
  (∀ (s : State),
      s.boot.cold = false →
      s.boot.stopped = false →
      s.boot.warmUntil = none →
      exec (.warmReset 0x200) s = .next s.warmReset) ∧
  (∀ (s : State),
      s.boot.cold = false →
      s.boot.stopped = false →
      s.boot.warmUntil = none →
      ∃ t : State, exec (.warmReset 0x200) s = .next t ∧ t.now = s.now ∧ t.otp = s.otp ∧ t.drw = s.drw ∧ t.boot.warmUntil = some (s.now + 160000) ∧
        (∀ d, d < 96 → t.domSt d = Dom.off) ∧ t.rd PWR_RESET_CAUSE.LAST = 2 ∧ t.rd PWR_BOOT_STATUS.STEP = 2 ∧
        t.rd PWR_RESET_CAUSE.WARM_COUNT = satAdd (s.rd PWR_RESET_CAUSE.WARM_COUNT) 1 32 % 2 ^ 32 ∧ t.par = State.reset.par ∧ t.rings = [] ∧ t.pending = s.pending ∧
        (s.cool.lines = [] → ∀ a, ¬ (vatBase ≤ a ∧ a < vatBase + 2 ^ 27) → Memory.read t.mem a = Memory.read s.mem a)) ∧
  (∀ (s : State) (norOk : Bool) (train : List (Bool × Nat)),
      s.due s.boot.warmUntil = true →
      exec (.warmResetEnd norOk train) s = .next (({ s with boot := { s.boot with warmUntil := none } } : State).bootIsland.bootRun true norOk train)) ∧
  (∀ (s : State) (norOk : Bool) (train : List (Bool × Nat)),
      s.due s.boot.warmUntil = false →
      exec (.warmResetEnd norOk train) s = .next s)

/-- Sessions, blocks, commit, abort, idle end, activation through an Island ring. BEGIN answers the session's owner while one is open, refuses bad types and lengths, and otherwise opens a session of the requester with the slot WRITING. A request of another origin fails with SESSION_INVALID. A block at a bad OFFSET or LENGTH fails; a sound one is queued and its descriptor waits until it is written, which sets its bit; a failed program clears it. COMMIT waits for queued blocks, answers the first missing OFFSET, ends the session when a check fails, and makes the slot VALID when all pass. ABORT and the idle limit end the session. ACTIVATE refuses as R431 says and else begins; an activation ends with the new image or the old one. Completion stated for: jigBegin, jigBlock, jigCommit, jigAbort, jigBitmap, jigBlockWritten, jigIdleExpiry, jigActivate, jigActivationDone. -/
def Obligations.JigSessionsThroughTheIslandRing : Prop :=
  (∀ (s : State) (owner t len : Nat) (x : JigSession),
      s.jig.session = some x →
      (s.jigBegin owner t len).1 = St.jigBusy ∧ (s.jigBegin owner t len).2.1 = x.owner ∧ (s.jigBegin owner t len).2.2.jig.session = s.jig.session) ∧
  (∀ (s : State) (owner t len : Nat),
      s.jig.session = none →
      t = 0 ∨ 3 < t →
      (s.jigBegin owner t len).1 = St.typeInvalid ∧ (s.jigBegin owner t len).2.2.jig.session = none) ∧
  (∀ (s : State) (owner t len : Nat),
      s.jig.session = none →
      1 ≤ t →
      t ≤ 3 →
      (s.jig.recovery = true → t = 1) →
      imageLenOk t len = false →
      (s.jigBegin owner t len).1 = St.imageTooLong ∧ (s.jigBegin owner t len).2.2.jig.session = none) ∧
  (∀ (s : State) (owner t len : Nat),
      s.jig.session = none →
      1 ≤ t →
      t ≤ 3 →
      (s.jig.recovery = true → t = 1) →
      imageLenOk t len = true →
      (s.jig.acts.any (fun (a : Nat × DescRef) => a.1 == t) = true) →
      (s.jigBegin owner t len).1 = St.activateBusy ∧ (s.jigBegin owner t len).2.2.jig.session = none) ∧
  (∀ (s : State) (owner t len : Nat),
      s.jig.session = none →
      1 ≤ t →
      t ≤ 3 →
      (s.jig.recovery = true → t = 1) →
      imageLenOk t len = true →
      (s.jig.acts.any (fun (a : Nat × DescRef) => a.1 == t) = false) →
      ∃ x : JigSession, (s.jigBegin owner t len).1 = St.success ∧ (s.jigBegin owner t len).2.1 = x.id ∧ (s.jigBegin owner t len).2.2.jig.session = some x ∧ x.type = t ∧ x.len = len ∧
        x.owner = owner ∧ x.got = [] ∧ x.queue = [] ∧ ((s.jigBegin owner t len).2.2.slotOf t).st = 1 ∧ ((s.jigBegin owner t len).2.2.slotOf t).len = len ∧
        (s.jigBegin owner t len).2.2.mem = s.mem ∧ (s.jigBegin owner t len).2.2.otp = s.otp) ∧
  (∀ (s : State) (d : DescRef) (f : Fetched),
      s.startedAt .sec d Op.jigBegin = some f →
      s.jig.recovery = false →
      s.inOrder .sec d = true →
      exec (.jigBegin d) s = .next ((s.jigBegin (s.ringOwner .sec d) (f.at 28 1) (f.at 32 4)).2.2.finish .sec d (s.jigBegin (s.ringOwner .sec d) (f.at 28 1) (f.at 32 4)).1 0 (s.jigBegin (s.ringOwner .sec d) (f.at 28 1) (f.at 32 4)).2.1)) ∧
  (∀ (s : State) (d : DescRef) (f : Fetched),
      s.startedAt .sec d Op.jigBlock = some f →
      s.jig.recovery = false →
      s.inOrder .sec d = true →
      s.jigSession (s.ringOwner .sec d) (f.at 28 4) = none →
      exec (.jigBlock d) s = .next (s.finish .sec d St.sessionInvalid)) ∧
  (∀ (s : State) (d : DescRef) (f : Fetched),
      s.startedAt .sec d Op.jigCommit = some f →
      s.jig.recovery = false →
      s.inOrder .sec d = true →
      s.jigSession (s.ringOwner .sec d) (f.at 28 4) = none →
      exec (.jigCommit d) s = .next (s.finish .sec d St.sessionInvalid)) ∧
  (∀ (s : State) (d : DescRef) (f : Fetched),
      s.startedAt .sec d Op.jigAbort = some f →
      s.jig.recovery = false →
      s.inOrder .sec d = true →
      s.jigSession (s.ringOwner .sec d) (f.at 28 4) = none →
      exec (.jigAbort d) s = .next (s.finish .sec d St.sessionInvalid)) ∧
  (∀ (s : State) (d : DescRef) (f : Fetched),
      s.startedAt .sec d Op.jigBitmap = some f →
      s.jig.recovery = false →
      s.inOrder .sec d = true →
      s.jigSession (s.ringOwner .sec d) (f.at 28 4) = none →
      exec (.jigBitmap d) s = .next (s.finish .sec d St.sessionInvalid)) ∧
  (∀ (s : State) (d : DescRef) (f : Fetched),
      s.startedAt .sec d Op.jigBegin = some f →
      s.jig.recovery = true ∨ s.inOrder .sec d = false →
      exec (.jigBegin d) s = .next s) ∧
  (∀ (s : State) (d : DescRef) (f : Fetched),
      s.startedAt .sec d Op.jigBlock = some f →
      s.jig.recovery = true ∨ s.inOrder .sec d = false →
      exec (.jigBlock d) s = .next s) ∧
  (∀ (s : State) (d : DescRef) (f : Fetched),
      s.startedAt .sec d Op.jigCommit = some f →
      s.jig.recovery = true ∨ s.inOrder .sec d = false →
      exec (.jigCommit d) s = .next s) ∧
  (∀ (s : State) (d : DescRef) (f : Fetched),
      s.startedAt .sec d Op.jigAbort = some f →
      s.jig.recovery = true ∨ s.inOrder .sec d = false →
      exec (.jigAbort d) s = .next s) ∧
  (∀ (s : State) (d : DescRef) (f : Fetched),
      s.startedAt .sec d Op.jigBitmap = some f →
      s.jig.recovery = true ∨ s.inOrder .sec d = false →
      exec (.jigBitmap d) s = .next s) ∧
  (∀ (s : State) (d : DescRef) (f : Fetched),
      s.startedAt .sec d Op.jigActivate = some f →
      s.jig.recovery = true ∨ s.inOrder .sec d = false →
      exec (.jigActivate d) s = .next s) ∧
  (∀ (x : JigSession) (off len : Nat),
      off % 65536 ≠ 0 ∨ x.len ≤ off →
      blockFault x off len = St.jigBlockRange) ∧
  (∀ (x : JigSession) (off len : Nat),
      off % 65536 = 0 →
      off < x.len →
      blockFault x off len = (if len = min 65536 (x.len - off) then St.success else St.blockLength)) ∧
  (∀ (s : State) (d : DescRef) (f : Fetched) (x : JigSession),
      s.startedAt .sec d Op.jigBlock = some f →
      s.jig.recovery = false →
      s.inOrder .sec d = true →
      s.jigSession (s.ringOwner .sec d) (f.at 28 4) = some x →
      ((x.queue.any fun (b : JigBlock) => b.asked == .desc d) = false) →
      blockFault x (f.at 32 4) f.len ≠ St.success →
      exec (.jigBlock d) s = .next (((s.jigTouch x).jigLast (blockFault x (f.at 32 4) f.len)).finish .sec d (blockFault x (f.at 32 4) f.len) 0 x.got.length)) ∧
  (∀ (s : State) (d : DescRef) (f : Fetched) (x : JigSession) (bs : List Byte),
      s.startedAt .sec d Op.jigBlock = some f →
      s.jig.recovery = false →
      s.inOrder .sec d = true →
      s.jigSession (s.ringOwner .sec d) (f.at 28 4) = some x →
      ((x.queue.any fun (b : JigBlock) => b.asked == .desc d) = false) →
      blockFault x (f.at 32 4) f.len = St.success →
      ((s.jigTouch x).dmaRead .sec f.src f.len (some d.ring)).toOption = some bs →
      ∃ (t : State) (y : JigSession), exec (.jigBlock d) s = .next t ∧ t.jig.session = some y ∧ y.queue = x.queue ++ [⟨.desc d, f.at 32 4 / 65536, bs⟩] ∧ y.got = x.got ∧ y.idleBy = s.inMgmt (s.rd JIG_CFG.IDLE) ∧
        t.mem = s.mem ∧ t.jig.slots = s.jig.slots) ∧
  (∀ (s : State) (d : DescRef) (f : Fetched) (x : JigSession),
      s.startedAt .sec d Op.jigBlock = some f →
      s.jig.recovery = false →
      s.inOrder .sec d = true →
      s.jigSession (s.ringOwner .sec d) (f.at 28 4) = some x →
      ((x.queue.any fun (b : JigBlock) => b.asked == .desc d) = true) →
      exec (.jigBlock d) s = .next s) ∧
  (∀ (s : State) (d : DescRef) (f : Fetched) (x : JigSession) (bs : List Byte) (y : JigSession) (t : State),
      s.startedAt .sec d Op.jigBlock = some f →
      s.jig.recovery = false →
      s.inOrder .sec d = true →
      s.jigSession (s.ringOwner .sec d) (f.at 28 4) = some x →
      ((x.queue.any fun (b : JigBlock) => b.asked == .desc d) = false) →
      blockFault x (f.at 32 4) f.len = St.success →
      t = s.jigTouch x →
      (t.dmaRead .sec f.src f.len (some d.ring)).toOption = some bs →
      t.jig.session = some y →
      exec (.jigBlock d) s = .next ((t.jigQueue y ⟨.desc d, f.at 32 4 / 65536, bs⟩).setPhase .sec d .waiting)) ∧
  (∀ (s : State) (ok : Bool),
      (s.jig.session = none ∨ (s.jig.session.map (fun (x : JigSession) => x.queue)) = some []) →
      exec (.jigBlockWritten ok) s = .next s) ∧
  (∀ (s : State) (x y : JigSession) (b : JigBlock) (rest : List JigBlock) (u : State),
      s.jig.session = some x →
      x.queue = b :: rest →
      (s.auditRoom = true ∨ (match b.asked with | .port _ => true | .desc _ => false) = true) →
      u = s.setSlot' x.type { s.slotOf x.type with blocks := Tab.set (s.slotOf x.type).blocks b.index b.data } →
      (y = { x with queue := rest, got := b.index :: x.got.filter (fun i => i != b.index) }) →
      exec (.jigBlockWritten true) s = .next ((u.setJig { u.jig with session := some y }).jigAnswer y b St.success)) ∧
  (∀ (s : State) (x y : JigSession) (b : JigBlock) (rest : List JigBlock) (u : State),
      s.jig.session = some x →
      x.queue = b :: rest →
      (s.auditRoom = true ∨ (match b.asked with | .port _ => true | .desc _ => false) = true) →
      u = s.draw.setSlot' x.type { s.slotOf x.type with blocks := Tab.set (s.slotOf x.type).blocks b.index (s.freeBytes b.data.length) } →
      (y = { x with queue := rest, got := x.got.filter (fun i => i != b.index) }) →
      exec (.jigBlockWritten false) s = .next ((u.setJig { u.jig with session := some y }).jigAnswer y b St.norFail)) ∧
  (∀ (s : State) (x : JigSession) (b : JigBlock) (rest : List JigBlock),
      s.jig.session = some x →
      x.queue = b :: rest →
      (s.auditRoom = true ∨ (match b.asked with | .port _ => true | .desc _ => false) = true) →
      ∃ (t : State) (y : JigSession), exec (.jigBlockWritten false) s = .next t ∧ t.jig.session = some y ∧ y.queue = rest ∧ y.got = x.got.filter (fun i => i != b.index) ∧ t.otp = s.otp) ∧
  (∀ (s : State) (ok : Bool) (x : JigSession) (d : DescRef) (i : Nat) (bs : List Byte) (rest : List JigBlock),
      s.jig.session = some x →
      x.queue = ⟨.desc d, i, bs⟩ :: rest →
      s.auditRoom = false →
      exec (.jigBlockWritten ok) s = .next s) ∧
  (∀ (s : State) (d : DescRef) (f : Fetched) (x : JigSession),
      s.startedAt .sec d Op.jigCommit = some f →
      s.jig.recovery = false →
      s.inOrder .sec d = true →
      s.jigSession (s.ringOwner .sec d) (f.at 28 4) = some x →
      x.queue ≠ [] →
      exec (.jigCommit d) s = .next (s.setPhase .sec d .waiting)) ∧
  (∀ (s : State) (d : DescRef) (f : Fetched) (x : JigSession),
      s.startedAt .sec d Op.jigCommit = some f →
      s.jig.recovery = false →
      s.inOrder .sec d = true →
      s.jigSession (s.ringOwner .sec d) (f.at 28 4) = some x →
      x.queue = [] →
      exec (.jigCommit d) s = .next ((s.jigCommit x).2.2.finish .sec d (s.jigCommit x).1 0 (s.jigCommit x).2.1)) ∧
  (∀ (s : State) (x : JigSession) (i : Nat),
      s.jig.session = some x →
      x.missing = some i →
      (s.jigCommit x).1 = St.incomplete ∧ (s.jigCommit x).2.1 = i * 65536 ∧ (s.jigCommit x).2.2.jig.session.isSome = true ∧ (s.jigCommit x).2.2.jig.slots = s.jig.slots) ∧
  (∀ (s : State) (x : JigSession),
      s.jig.session = some x →
      x.missing = none →
      match s.checkImage x.type x.len ((s.slotOf x.type).image x.len) with
        | 0 => (s.jigCommit x).1 = St.success ∧ (s.jigCommit x).2.2.jig.session = none ∧ ((s.jigCommit x).2.2.slotOf x.type).st = 2 ∧
            ((s.jigCommit x).2.2.slotOf x.type).blocks = (s.slotOf x.type).blocks ∧ (s.jigCommit x).2.2.mem = s.mem ∧ (s.jigCommit x).2.2.otp = s.otp
        | n + 1 => (s.jigCommit x).1 = n + 1 ∧ (s.jigCommit x).2.2.jig.session = none ∧ (s.jigCommit x).2.2.jig.slots = s.jig.slots ∧ (s.jigCommit x).2.2.mem = s.mem) ∧
  (∀ (s : State) (d : DescRef) (f : Fetched) (x : JigSession),
      s.startedAt .sec d Op.jigAbort = some f →
      s.jig.recovery = false →
      s.inOrder .sec d = true →
      s.jigSession (s.ringOwner .sec d) (f.at 28 4) = some x →
      x.queue ≠ [] →
      exec (.jigAbort d) s = .next ((s.jigTrim x).setPhase .sec d .waiting)) ∧
  (∀ (s : State) (d : DescRef) (f : Fetched) (x : JigSession),
      s.startedAt .sec d Op.jigAbort = some f →
      s.jig.recovery = false →
      s.inOrder .sec d = true →
      s.jigSession (s.ringOwner .sec d) (f.at 28 4) = some x →
      x.queue = [] →
      exec (.jigAbort d) s = .next ((s.jigAbort x).finish .sec d St.success) ∧ (s.jigAbort x).jig.session = none ∧ (s.jigAbort x).jig.slots = s.jig.slots) ∧
  (∀ (s : State) (d : DescRef) (f : Fetched) (x : JigSession),
      s.startedAt .sec d Op.jigBitmap = some f →
      s.jig.recovery = false →
      s.inOrder .sec d = true →
      s.jigSession (s.ringOwner .sec d) (f.at 28 4) = some x →
      f.len ≠ 48 →
      exec (.jigBitmap d) s = .next ((s.jigTouch x).finish .sec d St.lengthMismatch)) ∧
  (∀ (s : State) (d : DescRef) (f : Fetched) (x : JigSession) (t : State),
      s.startedAt .sec d Op.jigBitmap = some f →
      s.jig.recovery = false →
      s.inOrder .sec d = true →
      s.jigSession (s.ringOwner .sec d) (f.at 28 4) = some x →
      f.len = 48 →
      (((s.jigTouch x).dmaWrite .sec f.dst (leBytes 48 ((x.got.map fun (i : Nat) => 2 ^ i).sum)) (some d.ring)).toOption = some t) →
      exec (.jigBitmap d) s = .next (t.finish .sec d St.success 0 x.got.length)) ∧
  (∀ (s : State),
      s.jig.session = none →
      exec .jigIdleExpiry s = .next s) ∧
  (∀ (s : State) (x : JigSession),
      s.jig.session = some x →
      s.passed x.idleBy = false ∨ s.auditRoom = false ∧ s.jig.recovery = false →
      exec .jigIdleExpiry s = .next s) ∧
  (∀ (s : State) (x : JigSession),
      s.jig.session = some x →
      s.passed x.idleBy = true →
      s.auditRoom = true ∨ s.jig.recovery = true →
      x.queue ≠ [] →
      exec .jigIdleExpiry s = .next (s.jigTrim x)) ∧
  (∀ (s : State) (x : JigSession),
      s.jig.session = some x →
      s.passed x.idleBy = true →
      s.auditRoom = true ∨ s.jig.recovery = true →
      x.queue = [] →
      exec .jigIdleExpiry s = .next ((s.jigEnd.raise Ev.jigIdleAbort (some .jig) none [x.type]).auditImage x.owner (imagePayload x.type 5 St.success x.len 0 0 []))) ∧
  (∀ (s : State) (x : JigSession),
      s.jig.session = some x →
      s.passed x.idleBy = true →
      s.auditRoom = true ∨ s.jig.recovery = true →
      x.queue = [] →
      ∃ t : State, exec .jigIdleExpiry s = .next t ∧ t.jig.session = none ∧ t.jig.slots = s.jig.slots ∧ t.mem = s.mem ∧
        (s.jig.recovery = false → t.aud.staged.length = s.aud.staged.length + 1)) ∧
  (∀ (s : State) (d : DescRef) (f : Fetched),
      s.startedAt .sec d Op.jigActivate = some f →
      s.jig.recovery = false →
      s.inOrder .sec d = true →
      s.jig.acts = [] →
      f.at 28 1 = 0 ∨ 3 < f.at 28 1 →
      exec (.jigActivate d) s = .next ((s.jigLast St.typeInvalid).finish .sec d St.typeInvalid)) ∧
  (∀ (s : State) (d : DescRef) (f : Fetched),
      s.startedAt .sec d Op.jigActivate = some f →
      s.jig.recovery = false →
      s.inOrder .sec d = true →
      s.jig.acts = [] →
      f.at 28 1 = 1 ∨ f.at 28 1 = 3 →
      s.leaseMode ≠ Lmode.drained ∨ s.rd LEASE_STATUS.PEER ≠ 1 →
      exec (.jigActivate d) s = .next ((s.jigLast St.notDrained).finish .sec d St.notDrained)) ∧
  (∀ (s : State) (d : DescRef) (f : Fetched),
      s.startedAt .sec d Op.jigActivate = some f →
      s.jig.recovery = false →
      s.inOrder .sec d = true →
      s.jig.acts = [] →
      f.at 28 1 = 2 →
      ((s.slotOf 2).st ≠ 2 ∨ s.jig.session.map (fun (x : JigSession) => x.type) = some 2) →
      exec (.jigActivate d) s = .next ((s.jigLast St.activateBusy).finish .sec d St.activateBusy)) ∧
  (∀ (s : State) (d : DescRef) (f : Fetched),
      s.startedAt .sec d Op.jigActivate = some f →
      s.jig.recovery = false →
      s.inOrder .sec d = true →
      s.jig.acts = [] →
      f.at 28 1 = 2 →
      (s.slotOf 2).st = 2 →
      s.jig.session = none →
      ∃ t : State, exec (.jigActivate d) s = .next t ∧ t.jig.acts = [(2, d)] ∧ t.sup.mgmtInReset = true ∧ t.mgt.fwRunning = false ∧ t.mem = s.mem ∧ t.jig.slots = s.jig.slots) ∧
  (∀ (s : State) (d : DescRef) (f : Fetched),
      s.startedAt .sec d Op.jigActivate = some f →
      s.jig.recovery = false →
      s.inOrder .sec d = true →
      ((s.jig.acts.any fun (a : Nat × DescRef) => a.2 == d) = true) →
      exec (.jigActivate d) s = .next s) ∧
  (∀ (s : State) (d : DescRef) (f : Fetched),
      s.startedAt .sec d Op.jigActivate = some f →
      s.jig.recovery = false →
      s.inOrder .sec d = true →
      ((s.jig.acts.any fun (a : Nat × DescRef) => a.2 == d) = false) →
      f.at 28 1 = 1 ∨ f.at 28 1 = 3 →
      s.leaseMode = Lmode.drained →
      s.rd LEASE_STATUS.PEER = 1 →
      ((s.slotOf (f.at 28 1)).st ≠ 2 ∨ s.jig.session.map (fun (x : JigSession) => x.type) = some (f.at 28 1) ∨ (s.jig.acts.any fun (a : Nat × DescRef) => a.1 == f.at 28 1) = true ∨ s.jigRingsQuiet = false) →
      exec (.jigActivate d) s = .next ((s.jigLast St.activateBusy).finish .sec d St.activateBusy)) ∧
  (∀ (s : State) (d : DescRef) (f : Fetched) (u : State),
      s.startedAt .sec d Op.jigActivate = some f →
      s.jig.recovery = false →
      s.inOrder .sec d = true →
      ((s.jig.acts.any fun (a : Nat × DescRef) => a.2 == d) = false) →
      f.at 28 1 = 3 →
      s.leaseMode = Lmode.drained →
      s.rd LEASE_STATUS.PEER = 1 →
      (s.slotOf 3).st = 2 →
      (s.jig.session.map (fun (x : JigSession) => x.type) ≠ some 3) →
      ((s.jig.acts.any fun (a : Nat × DescRef) => a.1 == 3) = false) →
      s.jigRingsQuiet = true →
      u = s.setJig { s.jig with acts := s.jig.acts ++ [(3, d)] } →
      exec (.jigActivate d) s = .next (u.setPhase .sec d .waiting)) ∧
  (∀ (s : State) (d : DescRef) (f : Fetched) (u : State),
      s.startedAt .sec d Op.jigActivate = some f →
      s.jig.recovery = false →
      s.inOrder .sec d = true →
      ((s.jig.acts.any fun (a : Nat × DescRef) => a.2 == d) = false) →
      f.at 28 1 = 1 →
      s.leaseMode = Lmode.drained →
      s.rd LEASE_STATUS.PEER = 1 →
      (s.slotOf 1).st = 2 →
      (s.jig.session.map (fun (x : JigSession) => x.type) ≠ some 1) →
      ((s.jig.acts.any fun (a : Nat × DescRef) => a.1 == 1) = false) →
      s.jigRingsQuiet = true →
      u = (s.setJig { s.jig with acts := s.jig.acts ++ [(1, d)] }).setPhase .sec d .waiting →
      exec (.jigActivate d) s = .next (if s.on SEC_CTL.SHUTDOWN then u else (u.wr SEC_CTL.SHUTDOWN 1).seal true)) ∧
  (∀ (s : State) (type : Nat) (a : Nat × DescRef) (x : JigSlot) (st : Nat) (t u w : State),
      ((s.jig.acts.find? fun (a : Nat × DescRef) => a.1 == type) = some a) →
      type ≠ 1 →
      s.auditRoom = true →
      x = s.slotOf type →
      (st = if s.imageOk type then St.success else St.digestMismatch) →
      (t = s.setJig { s.jig with acts := s.jig.acts.filter (fun (b : Nat × DescRef) => b.1 != type) }) →
      u = ((if s.imageOk type then t.imageRuns type x (x.image x.len) else t.setSlot' type { x with st := 1 }).releaseImage type).raise Ev.jigActivate (some .jig) (some (type - 1)) [type, x.version, st] →
      w = ((u.jigLast st).auditImage (u.ringOwner .sec a.2) (imagePayload type 6 st x.len x.version x.rollback (if s.imageOk type then x.meas else []))).finish .sec a.2 st 0 (if s.imageOk type then x.version else 0) →
      exec (.jigActivationDone type) s = .next (if w.leaseU.lossDue = true ∧ w.activating = false then (w.setLease { w.leaseU with lossDue := false }).peerLoss else w)) ∧
  (∀ (s : State) (type : Nat),
      (s.jig.acts.find? (fun (a : Nat × DescRef) => a.1 == type) = none ∨ type = 1 ∨ s.auditRoom = false) →
      exec (.jigActivationDone type) s = .next s) ∧
  (∀ (s : State) (d : DescRef),
      s.jig.acts = [(2, d)] →
      s.auditRoom = true →
      s.leaseU.lossDue = false →
      ∃ t : State, exec (.jigActivationDone 2) s = .next t ∧ t.jig.acts = [] ∧ (s.imageOk 2 = false → (t.slotOf 2).st = 1 ∧ t.jig.running = s.jig.running) ∧
        (s.imageOk 2 = true → 2 ∈ t.jig.running ∧ t.sup.mgmtInReset = false ∧ t.mgt.fwRunning = true))

/-- BEGIN, SEGMENT, COMMIT, ABORT and STATUS datagrams. A malformed datagram, or one that comes while the protocol is off, is dropped without a response. Each request of the owner 0x05FF acts as its ring form does and is answered; one that names no session of the port answers SESSION_INVALID. A segment of a block is kept until its block is complete, and the complete block is checked and queued. COMMIT and ABORT wait for the block in progress. STATUS answers the bitmap. Completion stated for: jigPortBegin, jigPortSegment, jigPortCommit, jigPortAbort, jigPortStatus. -/
def Obligations.JigDatagramsOfTheManagementPort : Prop :=
  (∀ (s : State) (p : List Byte) (rest : List (List Byte)),
      s.mgt.jigIn = p :: rest →
      s.jig.session = none →
      jigGood p = false ∨ s.jigPortOn (fieldAt p 2 1) = false →
      exec .jigPortBegin s = .next { s with mgt := { s.mgt with jigIn := rest } }) ∧
  (∀ (s : State),
      s.mgt.jigIn = [] →
      s.jig.session = none →
      exec .jigPortBegin s = .next s) ∧
  (∀ (s : State) (p : List Byte) (rest : List (List Byte)),
      s.mgt.jigIn = p :: rest →
      s.jig.session = none →
      jigGood p = false ∨ s.jigPortOn (fieldAt p 2 1) = false →
      exec .jigPortSegment s = .next { s with mgt := { s.mgt with jigIn := rest } }) ∧
  (∀ (s : State),
      s.mgt.jigIn = [] →
      s.jig.session = none →
      exec .jigPortSegment s = .next s) ∧
  (∀ (s : State) (p : List Byte) (rest : List (List Byte)),
      s.mgt.jigIn = p :: rest →
      s.jig.session = none →
      jigGood p = false ∨ s.jigPortOn (fieldAt p 2 1) = false →
      exec .jigPortCommit s = .next { s with mgt := { s.mgt with jigIn := rest } }) ∧
  (∀ (s : State),
      s.mgt.jigIn = [] →
      s.jig.session = none →
      exec .jigPortCommit s = .next s) ∧
  (∀ (s : State) (p : List Byte) (rest : List (List Byte)),
      s.mgt.jigIn = p :: rest →
      s.jig.session = none →
      jigGood p = false ∨ s.jigPortOn (fieldAt p 2 1) = false →
      exec .jigPortAbort s = .next { s with mgt := { s.mgt with jigIn := rest } }) ∧
  (∀ (s : State),
      s.mgt.jigIn = [] →
      s.jig.session = none →
      exec .jigPortAbort s = .next s) ∧
  (∀ (s : State) (p : List Byte) (rest : List (List Byte)),
      s.mgt.jigIn = p :: rest →
      s.jig.session = none →
      jigGood p = false ∨ s.jigPortOn (fieldAt p 2 1) = false →
      exec .jigPortStatus s = .next { s with mgt := { s.mgt with jigIn := rest } }) ∧
  (∀ (s : State),
      s.mgt.jigIn = [] →
      s.jig.session = none →
      exec .jigPortStatus s = .next s) ∧
  (∀ (s : State) (p : List Byte) (rest : List (List Byte)),
      s.mgt.jigIn = p :: rest →
      jigGood p = true →
      s.jigPortOn (fieldAt p 2 1) = true →
      fieldAt p 2 1 ≠ 1 →
      exec .jigPortBegin s = .next s) ∧
  (∀ (s : State) (p : List Byte) (rest : List (List Byte)),
      s.mgt.jigIn = p :: rest →
      jigGood p = true →
      s.jigPortOn (fieldAt p 2 1) = true →
      fieldAt p 2 1 ≠ 2 →
      exec .jigPortSegment s = .next s) ∧
  (∀ (s : State) (p : List Byte) (rest : List (List Byte)),
      s.mgt.jigIn = p :: rest →
      jigGood p = true →
      s.jigPortOn (fieldAt p 2 1) = true →
      fieldAt p 2 1 ≠ 3 →
      exec .jigPortCommit s = .next s) ∧
  (∀ (s : State) (p : List Byte) (rest : List (List Byte)),
      s.mgt.jigIn = p :: rest →
      jigGood p = true →
      s.jigPortOn (fieldAt p 2 1) = true →
      fieldAt p 2 1 ≠ 4 →
      exec .jigPortAbort s = .next s) ∧
  (∀ (s : State) (p : List Byte) (rest : List (List Byte)),
      s.mgt.jigIn = p :: rest →
      jigGood p = true →
      s.jigPortOn (fieldAt p 2 1) = true →
      fieldAt p 2 1 ≠ 5 →
      exec .jigPortStatus s = .next s) ∧
  (∀ (s : State) (p : List Byte) (rest : List (List Byte)),
      s.mgt.jigIn = p :: rest →
      jigGood p = true →
      s.jigPortOn 1 = true →
      fieldAt p 2 1 = 1 →
      s.jig.session = none →
      s.auditRoom = false →
      s.jig.recovery = false →
      exec .jigPortBegin s = .next s) ∧
  (∀ (s : State) (p : List Byte) (rest : List (List Byte)),
      s.mgt.jigIn = p :: rest →
      jigGood p = true →
      s.jigPortOn 3 = true →
      fieldAt p 2 1 = 3 →
      s.jig.session = none →
      s.auditRoom = false →
      s.jig.recovery = false →
      exec .jigPortCommit s = .next s) ∧
  (∀ (s : State) (p : List Byte) (rest : List (List Byte)),
      s.mgt.jigIn = p :: rest →
      jigGood p = true →
      s.jigPortOn 4 = true →
      fieldAt p 2 1 = 4 →
      s.jig.session = none →
      s.auditRoom = false →
      s.jig.recovery = false →
      exec .jigPortAbort s = .next s) ∧
  (∀ (s : State) (p : List Byte) (rest : List (List Byte)) (u : State),
      s.mgt.jigIn = p :: rest →
      jigGood p = true →
      fieldAt p 2 1 = 1 →
      s.jigPortOn 1 = true →
      s.auditRoom = true ∨ s.jig.recovery = true →
      u = ({ s with mgt := { s.mgt with jigIn := rest } } : State) →
      exec .jigPortBegin s = .next (if (u.jigBegin jigPortOrigin (fieldAt (p.take 32) 3 1) (fieldAt (p.take 32) 12 4)).1 = St.success then (u.jigBegin jigPortOrigin (fieldAt (p.take 32) 3 1) (fieldAt (p.take 32) 12 4)).2.2.jigReply (p.take 32) (u.jigBegin jigPortOrigin (fieldAt (p.take 32) 3 1) (fieldAt (p.take 32) 12 4)).2.1 (u.jigBegin jigPortOrigin (fieldAt (p.take 32) 3 1) (fieldAt (p.take 32) 12 4)).1 0
          else (u.jigBegin jigPortOrigin (fieldAt (p.take 32) 3 1) (fieldAt (p.take 32) 12 4)).2.2.jigReply (p.take 32) (fieldAt (p.take 32) 4 4) (u.jigBegin jigPortOrigin (fieldAt (p.take 32) 3 1) (fieldAt (p.take 32) 12 4)).1 (u.jigBegin jigPortOrigin (fieldAt (p.take 32) 3 1) (fieldAt (p.take 32) 12 4)).2.1)) ∧
  (∀ (s : State) (p : List Byte) (rest : List (List Byte)) (u : State),
      s.mgt.jigIn = p :: rest →
      jigGood p = true →
      fieldAt p 2 1 = 2 →
      s.jigPortOn 2 = true →
      u = ({ s with mgt := { s.mgt with jigIn := rest } } : State) →
      s.jig.session = none →
      exec .jigPortSegment s = .next (u.jigReply (p.take 32) (fieldAt (p.take 32) 4 4) St.sessionInvalid 0)) ∧
  (∀ (s : State) (p : List Byte) (rest : List (List Byte)) (u : State),
      s.mgt.jigIn = p :: rest →
      jigGood p = true →
      fieldAt p 2 1 = 3 →
      s.jigPortOn 3 = true →
      s.auditRoom = true ∨ s.jig.recovery = true →
      u = ({ s with mgt := { s.mgt with jigIn := rest } } : State) →
      s.jig.session = none →
      exec .jigPortCommit s = .next (u.jigReply (p.take 32) (fieldAt (p.take 32) 4 4) St.sessionInvalid 0)) ∧
  (∀ (s : State) (p : List Byte) (rest : List (List Byte)) (u : State),
      s.mgt.jigIn = p :: rest →
      jigGood p = true →
      fieldAt p 2 1 = 4 →
      s.jigPortOn 4 = true →
      s.auditRoom = true ∨ s.jig.recovery = true →
      u = ({ s with mgt := { s.mgt with jigIn := rest } } : State) →
      s.jig.session = none →
      exec .jigPortAbort s = .next (u.jigReply (p.take 32) (fieldAt (p.take 32) 4 4) St.sessionInvalid 0)) ∧
  (∀ (s : State) (p : List Byte) (rest : List (List Byte)) (u : State),
      s.mgt.jigIn = p :: rest →
      jigGood p = true →
      fieldAt p 2 1 = 5 →
      s.jigPortOn 5 = true →
      u = ({ s with mgt := { s.mgt with jigIn := rest } } : State) →
      u.portSession (p.take 32) = none →
      exec .jigPortStatus s = .next (u.jigReply (p.take 32) (fieldAt (p.take 32) 4 4) St.sessionInvalid 0 (zeros 48))) ∧
  (∀ (s : State) (p : List Byte) (rest : List (List Byte)) (u : State) (x : JigSession),
      s.mgt.jigIn = p :: rest →
      jigGood p = true →
      fieldAt p 2 1 = 5 →
      s.jigPortOn 5 = true →
      u = ({ s with mgt := { s.mgt with jigIn := rest } } : State) →
      u.portSession (p.take 32) = some x →
      exec .jigPortStatus s = .next ((u.jigTouch x).jigReply (p.take 32) x.id St.success 0 (leBytes 48 ((x.got.map fun (i : Nat) => 2 ^ i).sum)))) ∧
  (∀ (s : State) (p : List Byte) (rest : List (List Byte)) (u : State) (x : JigSession),
      s.mgt.jigIn = p :: rest →
      jigGood p = true →
      fieldAt p 2 1 = 2 →
      s.jigPortOn 2 = true →
      u = ({ s with mgt := { s.mgt with jigIn := rest } } : State) →
      u.portSession (p.take 32) = some x →
      fieldAt (p.take 32) 18 2 = (p.drop 32).length →
      segOk (fieldAt (p.take 32) 12 4) (fieldAt (p.take 32) 16 2) (p.drop 32).length = true →
      s.jig.parts = none →
      1 < (fieldAt (p.take 32) 12 4 + 1023) / 1024 →
      ∃ t : State, exec .jigPortSegment s = .next t ∧ t.jig.parts = some (fieldAt (p.take 32) 8 4, [(fieldAt (p.take 32) 16 2, p.drop 32)]) ∧ t.mem = s.mem ∧ t.mgt.jigIn = rest ∧
        t.mgt.replies.length = s.mgt.replies.length + 1 ∧ t.jig.slots = s.jig.slots) ∧
  (∀ (s : State) (p : List Byte) (rest : List (List Byte)) (u : State) (x : JigSession),
      s.mgt.jigIn = p :: rest →
      jigGood p = true →
      fieldAt p 2 1 = 2 →
      s.jigPortOn 2 = true →
      u = ({ s with mgt := { s.mgt with jigIn := rest } } : State) →
      u.portSession (p.take 32) = some x →
      fieldAt (p.take 32) 18 2 = (p.drop 32).length →
      segOk (fieldAt (p.take 32) 12 4) (fieldAt (p.take 32) 16 2) (p.drop 32).length = true →
      s.jig.parts = none →
      fieldAt (p.take 32) 12 4 ≤ 1024 →
      blockFault x (fieldAt (p.take 32) 8 4) (fieldAt (p.take 32) 12 4) = St.success →
      ∃ (t : State) (y : JigSession), exec .jigPortSegment s = .next t ∧ t.jig.parts = none ∧ t.jig.session = some y ∧ y.queue = x.queue ++ [⟨.port (p.take 32), fieldAt (p.take 32) 8 4 / 65536, p.drop 32⟩] ∧
        y.got = x.got ∧ t.mem = s.mem) ∧
  (∀ (s : State) (p : List Byte) (rest : List (List Byte)) (u : State) (x : JigSession),
      s.mgt.jigIn = p :: rest →
      jigGood p = true →
      fieldAt p 2 1 = 2 →
      s.jigPortOn 2 = true →
      u = ({ s with mgt := { s.mgt with jigIn := rest } } : State) →
      u.portSession (p.take 32) = some x →
      fieldAt (p.take 32) 18 2 ≠ (p.drop 32).length ∨ segOk (fieldAt (p.take 32) 12 4) (fieldAt (p.take 32) 16 2) (p.drop 32).length = false →
      exec .jigPortSegment s = .next ((u.jigTouch x).jigReply (p.take 32) (fieldAt (p.take 32) 4 4) St.blockLength 0)) ∧
  (∀ (s : State) (p : List Byte) (rest : List (List Byte)) (u : State) (x y : JigSession) (t : State) (old ps : Tab (List Byte)),
      s.mgt.jigIn = p :: rest →
      jigGood p = true →
      fieldAt p 2 1 = 2 →
      s.jigPortOn 2 = true →
      u = ({ s with mgt := { s.mgt with jigIn := rest } } : State) →
      u.portSession (p.take 32) = some x →
      fieldAt (p.take 32) 18 2 = (p.drop 32).length →
      segOk (fieldAt (p.take 32) 12 4) (fieldAt (p.take 32) 16 2) (p.drop 32).length = true →
      t = u.jigTouch x →
      t.jig.session = some y →
      (old = (match t.jig.parts with | some (o, l) => if o = fieldAt (p.take 32) 8 4 then l else [] | none => [])) →
      ps = (if (Tab.get? old (fieldAt (p.take 32) 16 2)).isSome then old else Tab.set old (fieldAt (p.take 32) 16 2) (p.drop 32)) →
      ps.length < (fieldAt (p.take 32) 12 4 + 1023) / 1024 →
      exec .jigPortSegment s = .next ((t.setJig { t.jig with parts := some (fieldAt (p.take 32) 8 4, ps) }).jigReply (p.take 32) (fieldAt (p.take 32) 4 4) St.success 0)) ∧
  (∀ (s : State) (p : List Byte) (rest : List (List Byte)) (u : State) (x y : JigSession) (t : State) (old ps : Tab (List Byte)) (v : State),
      s.mgt.jigIn = p :: rest →
      jigGood p = true →
      fieldAt p 2 1 = 2 →
      s.jigPortOn 2 = true →
      u = ({ s with mgt := { s.mgt with jigIn := rest } } : State) →
      u.portSession (p.take 32) = some x →
      fieldAt (p.take 32) 18 2 = (p.drop 32).length →
      segOk (fieldAt (p.take 32) 12 4) (fieldAt (p.take 32) 16 2) (p.drop 32).length = true →
      t = u.jigTouch x →
      t.jig.session = some y →
      (old = (match t.jig.parts with | some (o, l) => if o = fieldAt (p.take 32) 8 4 then l else [] | none => [])) →
      ps = (if (Tab.get? old (fieldAt (p.take 32) 16 2)).isSome then old else Tab.set old (fieldAt (p.take 32) 16 2) (p.drop 32)) →
      (fieldAt (p.take 32) 12 4 + 1023) / 1024 ≤ ps.length →
      v = t.setJig { t.jig with parts := none } →
      blockFault y (fieldAt (p.take 32) 8 4) (fieldAt (p.take 32) 12 4) ≠ St.success →
      exec .jigPortSegment s = .next ((v.jigLast (blockFault y (fieldAt (p.take 32) 8 4) (fieldAt (p.take 32) 12 4))).jigReply (p.take 32) (fieldAt (p.take 32) 4 4) (blockFault y (fieldAt (p.take 32) 8 4) (fieldAt (p.take 32) 12 4)) 0)) ∧
  (∀ (s : State) (p : List Byte) (rest : List (List Byte)) (u : State) (x y : JigSession) (t : State) (old ps : Tab (List Byte)) (v : State),
      s.mgt.jigIn = p :: rest →
      jigGood p = true →
      fieldAt p 2 1 = 2 →
      s.jigPortOn 2 = true →
      u = ({ s with mgt := { s.mgt with jigIn := rest } } : State) →
      u.portSession (p.take 32) = some x →
      fieldAt (p.take 32) 18 2 = (p.drop 32).length →
      segOk (fieldAt (p.take 32) 12 4) (fieldAt (p.take 32) 16 2) (p.drop 32).length = true →
      t = u.jigTouch x →
      t.jig.session = some y →
      (old = (match t.jig.parts with | some (o, l) => if o = fieldAt (p.take 32) 8 4 then l else [] | none => [])) →
      ps = (if (Tab.get? old (fieldAt (p.take 32) 16 2)).isSome then old else Tab.set old (fieldAt (p.take 32) 16 2) (p.drop 32)) →
      (fieldAt (p.take 32) 12 4 + 1023) / 1024 ≤ ps.length →
      v = t.setJig { t.jig with parts := none } →
      blockFault y (fieldAt (p.take 32) 8 4) (fieldAt (p.take 32) 12 4) = St.success →
      exec .jigPortSegment s = .next (v.jigQueue y ⟨.port (p.take 32), fieldAt (p.take 32) 8 4 / 65536, ps.flatMap (fun (e : Nat × List Byte) => e.2)⟩)) ∧
  (∀ (s : State) (p : List Byte) (rest : List (List Byte)) (u : State) (x : JigSession) (v : State),
      s.mgt.jigIn = p :: rest →
      jigGood p = true →
      fieldAt p 2 1 = 3 →
      s.jigPortOn 3 = true →
      s.auditRoom = true ∨ s.jig.recovery = true →
      u = ({ s with mgt := { s.mgt with jigIn := rest } } : State) →
      ((match s.jig.session with | some x => !x.queue.isEmpty | none => false) = false) →
      u.portSession (p.take 32) = some x →
      v = (u.jigCommit x).2.2.jigReply (p.take 32) (fieldAt (p.take 32) 4 4) (u.jigCommit x).1 (u.jigCommit x).2.1 →
      exec .jigPortCommit s = .next (if (u.jigCommit x).1 = St.success ∧ v.jig.recovery = true then v.warmReset else v)) ∧
  (∀ (s : State) (p : List Byte) (rest : List (List Byte)) (u : State),
      s.mgt.jigIn = p :: rest →
      jigGood p = true →
      fieldAt p 2 1 = 3 →
      s.jigPortOn 3 = true →
      s.auditRoom = true ∨ s.jig.recovery = true →
      u = ({ s with mgt := { s.mgt with jigIn := rest } } : State) →
      ((match s.jig.session with | some x => !x.queue.isEmpty | none => false) = false) →
      u.portSession (p.take 32) = none →
      exec .jigPortCommit s = .next (u.jigReply (p.take 32) (fieldAt (p.take 32) 4 4) St.sessionInvalid 0)) ∧
  (∀ (s : State) (p : List Byte) (rest : List (List Byte)) (u : State),
      s.mgt.jigIn = p :: rest →
      jigGood p = true →
      fieldAt p 2 1 = 4 →
      s.jigPortOn 4 = true →
      s.auditRoom = true ∨ s.jig.recovery = true →
      u = ({ s with mgt := { s.mgt with jigIn := rest } } : State) →
      ((match s.jig.session with | some x => !x.queue.isEmpty | none => false) = false) →
      u.portSession (p.take 32) = none →
      exec .jigPortAbort s = .next (u.jigReply (p.take 32) (fieldAt (p.take 32) 4 4) St.sessionInvalid 0)) ∧
  (∀ (s : State) (p : List Byte) (rest : List (List Byte)) (u : State),
      s.mgt.jigIn = p :: rest →
      jigGood p = true →
      fieldAt p 2 1 = 2 →
      s.jigPortOn 2 = true →
      u = ({ s with mgt := { s.mgt with jigIn := rest } } : State) →
      u.portSession (p.take 32) = none →
      exec .jigPortSegment s = .next (u.jigReply (p.take 32) (fieldAt (p.take 32) 4 4) St.sessionInvalid 0)) ∧
  (∀ (s : State) (x : JigSession),
      s.jig.session = some x →
      x.queue ≠ [] →
      exec .jigPortCommit s = .next s) ∧
  (∀ (s : State) (p : List Byte) (rest : List (List Byte)) (u : State) (x : JigSession),
      s.mgt.jigIn = p :: rest →
      jigGood p = true →
      fieldAt p 2 1 = 3 →
      s.jigPortOn 3 = true →
      s.auditRoom = true ∨ s.jig.recovery = true →
      u = ({ s with mgt := { s.mgt with jigIn := rest } } : State) →
      u.portSession (p.take 32) = some x →
      x.queue = [] →
      s.jig.recovery = false →
      exec .jigPortCommit s = .next ((u.jigCommit x).2.2.jigReply (p.take 32) (fieldAt (p.take 32) 4 4) (u.jigCommit x).1 (u.jigCommit x).2.1)) ∧
  (∀ (s : State) (p : List Byte) (rest : List (List Byte)) (u : State) (x : JigSession),
      s.mgt.jigIn = p :: rest →
      jigGood p = true →
      fieldAt p 2 1 = 4 →
      s.jigPortOn 4 = true →
      s.auditRoom = true ∨ s.jig.recovery = true →
      u = ({ s with mgt := { s.mgt with jigIn := rest } } : State) →
      u.portSession (p.take 32) = some x →
      x.queue = [] →
      exec .jigPortAbort s = .next ((u.jigAbort x).jigReply (p.take 32) x.id St.success 0)) ∧
  (∀ (s : State) (p : List Byte) (rest : List (List Byte)) (x : JigSession),
      s.mgt.jigIn = p :: rest →
      jigGood p = true →
      fieldAt p 2 1 = 4 →
      s.portSession p = some x →
      s.jig.session = some x →
      x.queue ≠ [] →
      exec .jigPortAbort s = .next (s.jigTrim x))

/-- R54: ring registers of a ring that is not DISABLED, and rings that are not there, take no write. A 64-bit write to RING_DBASE, RING_CBASE or RING_CFG of a ring whose STATE is not DISABLED changes nothing but what UNIT_ERR records, KIND 6. A write to the block of a ring at or above UNIT_CAP.RINGS changes nothing but KIND 5, a doorbell write to such a ring nothing but KIND 4. UNIT_ERR holds the access while it held none before. A JTAG write reaches the unit only while debug is open, and one of a retired core does not. Completion stated for: csrWrite, dbProdWrite, dbCheadWrite. -/
def Obligations.RingRegisterWritesDiscarded : Prop :=
  (∀ (s : State) (origin : Origin) (u : UnitId) (r x : Nat) (value : Word),
      r < unitRings u →
      x = 0 ∨ x = 8 ∨ x = 0x10 →
      s.ringSt u r ≠ Rst.disabled →
      s.originThere origin.toNat = true →
      exec (.csrWrite origin (BitVec.ofNat 48 (csrBase + unitBase u + 0x100000 + r * 0x40 + x)) .b8 value) s = .next (s.unitErr u origin.toNat (errOffset (unitBase u + 0x100000 + r * 0x40 + x)) 6)) ∧
  (∀ (s : State) (origin : Origin) (u : UnitId) (r x : Nat) (value : Word),
      unitRings u ≤ r →
      r < 0x1000 →
      x < 0x40 →
      x % 8 = 0 →
      s.originThere origin.toNat = true →
      exec (.csrWrite origin (BitVec.ofNat 48 (csrBase + unitBase u + 0x100000 + r * 0x40 + x)) .b8 value) s = .next (s.unitErr u origin.toNat (errOffset (unitBase u + 0x100000 + r * 0x40 + x)) 5)) ∧
  (∀ (s : State) (origin : Origin) (u : UnitId) (r value : Nat),
      unitRings u ≤ r →
      exec (.dbProdWrite origin u r value) s = .next (s.unitErr u origin.toNat (doorbellOff u r 0) 4) ∧
        exec (.dbCheadWrite origin u r value) s = .next (s.unitErr u origin.toNat (doorbellOff u r 8) 4)) ∧
  (∀ (s : State) (u : UnitId) (o off k : Nat),
      s.rd (UNIT_ERR.VALID (unitBase u)) = 0 →
      o < 2 ^ 16 →
      off < 2 ^ 24 →
      k < 8 →
      (s.unitErr u o off k).rd (UNIT_ERR.KIND (unitBase u)) = k ∧ (s.unitErr u o off k).rd (UNIT_ERR.ORIGIN (unitBase u)) = o ∧
        (s.unitErr u o off k).rd (UNIT_ERR.OFFSET (unitBase u)) = off ∧ (s.unitErr u o off k).rd (UNIT_ERR.VALID (unitBase u)) = 1)

/-- R477: while the Tally is frozen, an event raises its FROZEN count and nothing else; spilling goes on; thawing replays nothing. While TAL_CTL.EN and FREEZE are 1, raising an event changes the FROZEN count of its code and nothing else, whatever its unit, instance and arguments. TALLY_SPILL copies the oldest due entry and leaves the buffer. A write of TAL_CTL that clears FREEZE changes no entry, no bucket and no count. Completion stated for: tallySpill, csrWrite. -/
def Obligations.FrozenTally : Prop :=
  (∀ (s : State) (code : Nat) (u : Option UnitId) (inst : Option Nat) (args : List Nat) (origin : Option Nat),
      s.on TAL_CTL.EN = true →
      s.on TAL_CTL.FREEZE = true →
      s.raise code u inst args origin = s.bump (TAL_COUNT.FROZEN (evIndex code)) 1) ∧
  (∀ (s : State) (slot : Nat) (rest : List Nat) (e : TallyEntry),
      s.on TAL_CTL.EN = true →
      s.on TAL_CTL.FREEZE = true →
      s.tally.due = slot :: rest →
      s.on TAL_RING.SPILL_EN = true →
      s.spillRoom = true →
      Tab.get? s.tally.buf slot = some e →
      (s.dmaWrite .tal (s.rd TAL_RING.BASE * 4096 + s.rd TAL_RING_IDX.PROD * 256) e.bytes).toOption.isSome = true →
      ∃ t : State, exec .tallySpill s = .next t ∧ t.tally.due = rest ∧ t.tally.buf = s.tally.buf ∧ t.tally.bucket = s.tally.bucket ∧ t.tally.seq = s.tally.seq) ∧
  (∀ (s : State) (origin : Origin),
      s.on TAL_CTL.EN = true →
      s.on TAL_CTL.FREEZE = true →
      s.originThere origin.toNat = true →
      origin ≠ 0x300 →
      ∃ t : State, exec (.csrWrite origin 0xF0000F600000 .b8 4) s = .next t ∧ t.on TAL_CTL.FREEZE = false ∧ t.on TAL_CTL.EN = true ∧ t.tally = s.tally ∧ t.mem = s.mem ∧
        (∀ f : Fld, f.reg ≠ 0xF600000 → f.lo < 64 → t.rd f = s.rd f))

/-- R306: which shards RENEW renews, its RESULT, and what LEASE_RELEASE does. RENEW sets T_RENEW to now for exactly the shards of MASK whose epoch-vector entry equals the record, whose owner is the receiving port and that are not released; RESULT is their mask; epochs, releases and all else of the blade stay. LEASE_RELEASE that passes its checks sets RELEASED of its shard and nothing else; it fails under step 3 otherwise. After a release a mutation under that epoch that is well formed fails with EPOCH_STALE, and SET_EPOCH by the port of its epoch needs no silence. -/
def Obligations.BladeRenewAndRelease : Prop :=
  (∀ (x : Blade) (now p : Nat) (g : Nat → Byte) (m : Medium) (c : BCmd),
      c.op = Bop.renew →
      x.check now p c = none →
      (x.run now p g m c).1.status = St.success ∧
        (∀ i, i < 64 → (x.run now p g m c).1.result.testBit i = (c.renewMask.testBit i && fieldAt c.out (8 * i) 8 == (x.epochRec (c.shard + i)).epoch &&
          (x.epochRec (c.shard + i)).epoch % 2 == p && !(x.epochRec (c.shard + i)).released)) ∧ (x.run now p g m c).1.result < 2 ^ 64 ∧
        (∀ i, i < 64 → (x.run now p g m c).2.epochRec (c.shard + i) = (if (x.run now p g m c).1.result.testBit i then { x.epochRec (c.shard + i) with tRenew := now } else x.epochRec (c.shard + i))) ∧
        (∀ j, j < c.shard ∨ c.shard + 64 ≤ j → (x.run now p g m c).2.epochRec j = x.epochRec j) ∧ { (x.run now p g m c).2 with recs := x.recs } = x) ∧
  (∀ (x : Blade) (now p : Nat) (g : Nat → Byte) (m : Medium) (c : BCmd),
      c.op = Bop.release →
      x.check now p c = none →
      (x.run now p g m c).1.status = St.success ∧ (x.run now p g m c).2.epochRec c.shard = { x.epochRec c.shard with released := true } ∧
        (∀ j, j ≠ c.shard → (x.run now p g m c).2.epochRec j = x.epochRec j) ∧ { (x.run now p g m c).2 with recs := x.recs } = x ∧
        c.epoch = (x.epochRec c.shard).epoch ∧ (x.epochRec c.shard).epoch % 2 = p) ∧
  (∀ (x : Blade) (now p : Nat) (g : Nat → Byte) (m : Medium) (c : BCmd) (e : Nat),
      c.op = Bop.release →
      c.rsvd = false →
      x.epochCheck p c = some e →
      (x.run now p g m c).1.status = e ∧ (x.run now p g m c).2 = x) ∧
  (∀ (x : Blade) (now p : Nat) (g : Nat → Byte) (m : Medium) (c : BCmd),
      bcpMutating c.op = true →
      c.op ≠ 0 →
      c.op ≤ 0x0F →
      c.rsvd = false →
      c.lenOk x = true →
      c.inRange x = true →
      ¬ ((c.op = Bop.program ∨ c.op = Bop.erase) ∧ anchorBlock c.die c.block = true) →
      c.epoch = (x.epochRec c.shard).epoch →
      (x.epochRec c.shard).released = true →
      (x.run now p g m c).1.status = St.epochStale ∧ (x.run now p g m c).2 = x) ∧
  (∀ (x : Blade) (now p : Nat) (g : Nat → Byte) (m : Medium) (c : BCmd),
      c.op = Bop.setEpoch →
      c.rsvd = false →
      (x.epochRec c.shard).released = true →
      c.epoch % 2 = p →
      (x.epochRec c.shard).epoch < c.epoch →
      x.check now p c = none ∧ (x.run now p g m c).2.epochRec c.shard = ⟨c.epoch, false, now⟩)

/-- An uncorrectable error in a pail by what it holds; CFG_WRITE under the policy mask. An uncorrectable error in a pail that is not allocated changes nothing; one in committed data makes the head abdicate; one in the data of a write fails that write; one in read data, background work or a software pail is counted and recorded. CFG_WRITE writes a configuration-class register whose unit SEC_CFGW_MASK names, with the side effects of a write of the Island, an entry with VIA the ring owner and a completion; it is refused with cause 2 by the policy and with KIND 7 and cause 3 by the register. Completion stated for: vatUeDetected, cfgWrite. -/
def Obligations.VatErrorsAndPolicyWrites : Prop :=
  (∀ (s : State) (pail : Nat),
      Tab.get? s.vat.pails pail = none →
      exec (.vatUeDetected pail) s = .next s) ∧
  (∀ (s : State) (pail : Nat) (p : Pail),
      Tab.get? s.vat.pails pail = some p →
      p.holds = .committed →
      exec (.vatUeDetected pail) s = .next (((s.bump VAT_ERR.UE 1).raise Ev.vatUe (some .vat) none [pail, p.cls]).abdicate 2)) ∧
  (∀ (s : State) (pail : Nat) (p : Pail),
      Tab.get? s.vat.pails pail = some p →
      p.holds = .readData ∨ p.holds = .background ∨ p.holds = .software →
      exec (.vatUeDetected pail) s = .next ((s.bump VAT_ERR.UE 1).raise Ev.vatUe (some .vat) none [pail, p.cls])) ∧
  (∀ (s : State) (pail k : Nat) (p : Pail) (c : NvmeCmd),
      Tab.get? s.vat.pails pail = some p →
      p.holds = .writeData →
      p.user = .ctx k →
      s.vat.widx = [] →
      s.par.cmds = [(k, c)] →
      c.mutates = true →
      c.commit = false →
      exec (.vatUeDetected pail) s = .next (((s.bump VAT_ERR.UE 1).raise Ev.vatUe (some .vat) none [pail, p.cls]).failWrite k)) ∧
  (∀ (s : State) (pail : Nat) (p : Pail) (es : List WEntry) (t u : State),
      Tab.get? s.vat.pails pail = some p →
      p.holds = .writeData →
      t = (s.bump VAT_ERR.UE 1).raise Ev.vatUe (some .vat) none [pail, p.cls] →
      (es = t.vat.widx.filter (fun (e : WEntry) => e.pail == pail)) →
      (u = es.foldl (fun (s : State) e => s.failReads e) t) →
      exec (.vatUeDetected pail) s = .next (((u.par.cmds.filter fun (x : Nat × NvmeCmd) => x.2.mutates && !x.2.commit && (p.user == .ctx x.1
        || es.any fun (e : WEntry) => x.2.vol == e.vol && x.2.blks.any fun b => b.block == e.block && b.dseq == e.dseq)).map (fun (x : Nat × NvmeCmd) => x.1)).foldl (fun (s : State) k => s.failWrite k) u)) ∧
  (∀ (s : State) (d : DescRef) (f : Fetched) (a : Nat) (u : UnitId) (r : RegRow),
      s.startedAt .sec d Op.cfgWrite = some f →
      s.secAnswers = true →
      s.inOrder .sec d = true →
      s.lifeAllows false = true →
      a = f.at 28 1 * 0x1000000 + f.at 29 1 * 0x400000 + f.at 32 4 →
      f.at 29 1 < 4 →
      unitAt (f.at 28 1) (f.at 29 1) = some u →
      findReg a = some r →
      s.bit SEC_CFGW_MASK.UNIT (4 * f.at 28 1 + f.at 29 1) = false →
      exec (.cfgWrite d) s = .next ((s.auditRefused 0x200 (s.ringOwner .sec d) a (f.at 40 8) 2).finish .sec d St.cfgwRefused)) ∧
  (∀ (s : State) (d : DescRef) (f : Fetched) (a : Nat) (u : UnitId) (r : RegRow),
      s.startedAt .sec d Op.cfgWrite = some f →
      s.secAnswers = true →
      s.inOrder .sec d = true →
      s.lifeAllows false = true →
      a = f.at 28 1 * 0x1000000 + f.at 29 1 * 0x400000 + f.at 32 4 →
      f.at 29 1 < 4 →
      unitAt (f.at 28 1) (f.at 29 1) = some u →
      findReg a = some r →
      s.bit SEC_CFGW_MASK.UNIT (4 * f.at 28 1 + f.at 29 1) = true →
      r.config = true →
      a ≠ SEC_CFGW_MASK.UNIT.reg →
      csrUnit a = some u →
      s.accepts u r a (f.at 40 8) = false →
      exec (.cfgWrite d) s = .next (((s.unitErr u 0x200 (errOffset a) 7).auditRefused 0x200 ((s.unitErr u 0x200 (errOffset a) 7).ringOwner .sec d) a (f.at 40 8) 3).finish .sec d St.cfgwRefused)) ∧
  (∀ (s : State) (d : DescRef) (f : Fetched) (a : Nat) (u : UnitId) (r : RegRow),
      s.startedAt .sec d Op.cfgWrite = some f →
      s.secAnswers = true →
      s.inOrder .sec d = true →
      s.lifeAllows false = true →
      a = f.at 28 1 * 0x1000000 + f.at 29 1 * 0x400000 + f.at 32 4 →
      f.at 29 1 < 4 →
      unitAt (f.at 28 1) (f.at 29 1) = some u →
      findReg a = some r →
      s.bit SEC_CFGW_MASK.UNIT (4 * f.at 28 1 + f.at 29 1) = true →
      r.config = true →
      a ≠ SEC_CFGW_MASK.UNIT.reg →
      csrUnit a = some u →
      s.accepts u r a (f.at 40 8) = true →
      exec (.cfgWrite d) s = .next (((s.csrApply 0x200 u r a (f.at 40 8)).auditWrite 0x200 (s.ringOwner .sec d) a (s.readCsr a) (f.at 40 8)).finish .sec d St.success))

/-- The state after reset is canonical. Memory, OTP and the register fields of the state after reset are in their one canonical form, so that the invariant of StepKeepsCanonical holds at the start. -/
def Obligations.ResetIsCanonical : Prop :=
  State.reset.Canonical

/-- Every step from every state keeps memory, OTP and the registers in canonical form. From every state whose DRAM and Vat bytes, OTP bytes and register fields are listed in strictly rising order, no listed byte equal to what an unlisted address reads as, every step, whatever command stands in front, answers a state of the same form; so two states that read the same everywhere are equal data. -/
def Obligations.StepKeepsCanonical : Prop :=
  ∀ (s t : State), s.Canonical → Machine.step s = .next t → t.Canonical

/-- No step clears a fuse. Each fuse bit can be set once and never cleared: from every state, whatever command is carried out, a bit set in OTP before the step is set after it, resets and power losses included. -/
def Obligations.FusesOnlyRise : Prop :=
  ∀ (s t : State), Memory.wf s.otp = true → Machine.step s = .next t → s.OtpWithin t

/-- Every command completes in every state and leaves the queue of waiting commands. The block never stops: whatever command is given in whatever state, exec answers a next state, and the commands that wait stand as they stood, in their order. A command whose event does not take place in a state leaves that state as it is. The model raises no fault and no refusal. The queue is the model's own (log entry 3). -/
def Obligations.EveryCommandCompletesAndLeavesTheQueue : Prop :=
  ∀ (c : Instr) (s : State), ∃ t : State, exec c s = .next t ∧ t.pending = s.pending

/-- What the commands of the supplies, the Meter, the Tally and the management port leave unchanged. Each completes in every state and leaves OTP and CHIP_TIME as they are. All but REFCLK_LOSS and THERMAL_TRIP_POWEROFF store nothing to DRAM or the Vat and change register fields only in the windows of the units named with it: the supply commands in CLK, PWR, GOV, WIT, the Tally, DRW where the plan is saved, AUD where a write is journaled and PRESS whose domain goes off, those of the Meter in MTR and the Tally, those of the Tally in the Tally, those of the management port in MGT and the Tally, and none of them changes the units' own state named beside. The two that stop the head keep the Drawer, the Island, the journal, the Jig and the registers of the always-on units but the clocks, supplies and Tally. Completion stated for: refclkLoss, thermalTripPoweroff, coreDividerWrite, domainOnRequest, domainOffRequest, domainRampAdmit, govResume, witnessPassStart, measureNow, markMeasurementDone, coreRetirement, meterEvent, capTick, meterCut, tallyTokenRefill, triggerPulseEnd, lossHoldExpiry, tallyClearCounts, mgtLinkChange, wallClockApply. -/
def Obligations.FramesOfSupplyMeterTallyAndManagement : Prop :=
  (∀ (s : State),
      ∃ t : State, exec .refclkLoss s = .next t ∧ t.otp = s.otp ∧ t.now = s.now ∧ t.drw = s.drw ∧ t.aud = s.aud ∧ t.sec = s.sec ∧ t.jig = s.jig ∧ t.pending = s.pending ∧
        (∀ (u : UnitId) (f : Fld), u ∈ [UnitId.apx, .wit, .drw, .sec, .aud, .jig] → unitBase u ≤ f.reg → f.reg < unitBase u + 0x400000 → f.lo < 64 → t.rd f = s.rd f) ∧ (∀ r, r < unitRings .sec → t.ring .sec r = s.ring .sec r)) ∧
  (∀ (s : State),
      ∃ t : State, exec .thermalTripPoweroff s = .next t ∧ t.otp = s.otp ∧ t.now = s.now ∧ t.drw = s.drw ∧ t.aud = s.aud ∧ t.sec = s.sec ∧ t.jig = s.jig ∧ t.pending = s.pending ∧
        (∀ (u : UnitId) (f : Fld), u ∈ [UnitId.apx, .wit, .drw, .sec, .aud, .jig] → unitBase u ≤ f.reg → f.reg < unitBase u + 0x400000 → f.lo < 64 → t.rd f = s.rd f) ∧ (∀ r, r < unitRings .sec → t.ring .sec r = s.ring .sec r)) ∧
  (∀ (s : State) (origin : Origin) (core : Fin 48) (div : Nat),
      ∃ t : State, exec (.coreDividerWrite origin core div) s = .next t ∧ s.SameMemory t ∧ s.SameRegsBut [.clk, .tal, .aud] t ∧ t.otp = s.otp ∧ t.now = s.now ∧ t.rings = s.rings ∧ t.par = s.par ∧ t.cell = s.cell ∧ t.blades = s.blades) ∧
  (∀ (s : State) (d : Fin 96),
      ∃ t : State, exec (.domainOnRequest d) s = .next t ∧ s.SameMemory t ∧ s.SameRegsBut [.pwr] t ∧ t.otp = s.otp ∧ t.now = s.now ∧ t.rings = s.rings ∧ t.par = s.par ∧ t.cell = s.cell ∧ t.blades = s.blades) ∧
  (∀ (s : State) (origin : Origin) (d : Fin 96) (hart : Bool),
      ∃ t : State, exec (.domainOffRequest origin d hart) s = .next t ∧ s.SameMemory t ∧ s.SameRegsBut [.pwr, .gov, .tal, .aud, .press] t ∧ t.otp = s.otp ∧ t.now = s.now ∧ t.rings = s.rings ∧ t.par = s.par ∧ t.cell = s.cell ∧ t.blades = s.blades) ∧
  (∀ (s : State),
      ∃ t : State, exec .domainRampAdmit s = .next t ∧ s.SameMemory t ∧ s.SameRegsBut [.pwr, .gov] t ∧ t.otp = s.otp ∧ t.now = s.now ∧ t.rings = s.rings ∧ t.par = s.par ∧ t.cell = s.cell ∧ t.blades = s.blades) ∧
  (∀ (s : State) (d : Fin 96),
      ∃ t : State, exec (.govResume d) s = .next t ∧ s.SameMemory t ∧ s.SameRegsBut [.pwr, .gov] t ∧ t.otp = s.otp ∧ t.now = s.now ∧ t.rings = s.rings ∧ t.par = s.par ∧ t.cell = s.cell ∧ t.blades = s.blades) ∧
  (∀ (s : State),
      ∃ t : State, exec .witnessPassStart s = .next t ∧ s.SameMemory t ∧ s.SameRegsBut [.wit] t ∧ t.otp = s.otp ∧ t.now = s.now ∧ t.rings = s.rings ∧ t.par = s.par ∧ t.cell = s.cell ∧ t.blades = s.blades) ∧
  (∀ (s : State) (origin : Origin),
      ∃ t : State, exec (.measureNow origin) s = .next t ∧ s.SameMemory t ∧ s.SameRegsBut [.wit, .tal, .aud] t ∧ t.otp = s.otp ∧ t.now = s.now ∧ t.rings = s.rings ∧ t.par = s.par ∧ t.cell = s.cell ∧ t.blades = s.blades) ∧
  (∀ (s : State) (marks : List (Nat × Int)),
      ∃ t : State, exec (.markMeasurementDone marks) s = .next t ∧ s.SameMemory t ∧ s.SameRegsBut [.clk, .pwr, .gov, .wit, .tal, .drw] t ∧ t.otp = s.otp ∧ t.now = s.now ∧ t.rings = s.rings ∧ t.par = s.par ∧ t.cell = s.cell ∧ t.blades = s.blades) ∧
  (∀ (s : State) (core : Fin 48),
      ∃ t : State, exec (.coreRetirement core) s = .next t ∧ s.SameMemory t ∧ s.SameRegsBut [.clk, .pwr, .gov, .wit, .tal, .drw] t ∧ t.otp = s.otp ∧ t.now = s.now ∧ t.rings = s.rings ∧ t.par = s.par ∧ t.cell = s.cell ∧ t.blades = s.blades) ∧
  (∀ (s : State),
      ∃ t : State, exec .meterEvent s = .next t ∧ s.SameMemory t ∧ s.SameRegsBut [.mtr, .tal] t ∧ t.otp = s.otp ∧ t.now = s.now ∧ t.rings = s.rings ∧ t.par = s.par ∧ t.cell = s.cell ∧ t.blades = s.blades) ∧
  (∀ (s : State),
      ∃ t : State, exec .capTick s = .next t ∧ s.SameMemory t ∧ s.SameRegsBut [.mtr, .tal] t ∧ t.otp = s.otp ∧ t.now = s.now ∧ t.rings = s.rings ∧ t.par = s.par ∧ t.cell = s.cell ∧ t.blades = s.blades) ∧
  (∀ (s : State),
      ∃ t : State, exec .meterCut s = .next t ∧ s.SameMemory t ∧ s.SameRegsBut [.mtr, .tal] t ∧ t.otp = s.otp ∧ t.now = s.now ∧ t.rings = s.rings ∧ t.par = s.par ∧ t.cell = s.cell ∧ t.blades = s.blades) ∧
  (∀ (s : State),
      ∃ t : State, exec .tallyTokenRefill s = .next t ∧ s.SameMemory t ∧ s.SameRegsBut [.tal] t ∧ t.otp = s.otp ∧ t.now = s.now ∧ t.rings = s.rings ∧ t.par = s.par ∧ t.cell = s.cell ∧ t.blades = s.blades ∧ t.mtr = s.mtr) ∧
  (∀ (s : State),
      ∃ t : State, exec .triggerPulseEnd s = .next t ∧ s.SameMemory t ∧ s.SameRegsBut [.tal] t ∧ t.otp = s.otp ∧ t.now = s.now ∧ t.rings = s.rings ∧ t.par = s.par ∧ t.cell = s.cell ∧ t.blades = s.blades ∧ t.mtr = s.mtr) ∧
  (∀ (s : State),
      ∃ t : State, exec .lossHoldExpiry s = .next t ∧ s.SameMemory t ∧ s.SameRegsBut [.tal] t ∧ t.otp = s.otp ∧ t.now = s.now ∧ t.rings = s.rings ∧ t.par = s.par ∧ t.cell = s.cell ∧ t.blades = s.blades ∧ t.mtr = s.mtr) ∧
  (∀ (s : State),
      ∃ t : State, exec .tallyClearCounts s = .next t ∧ s.SameMemory t ∧ s.SameRegsBut [.tal] t ∧ t.otp = s.otp ∧ t.now = s.now ∧ t.rings = s.rings ∧ t.par = s.par ∧ t.cell = s.cell ∧ t.blades = s.blades ∧ t.mtr = s.mtr) ∧
  (∀ (s : State) (up gig : Bool),
      ∃ t : State, exec (.mgtLinkChange up gig) s = .next t ∧ s.SameMemory t ∧ s.SameRegsBut [.mgt, .tal] t ∧ t.otp = s.otp ∧ t.now = s.now ∧ t.rings = s.rings ∧ t.par = s.par ∧ t.cell = s.cell ∧ t.blades = s.blades) ∧
  (∀ (s : State) (ref : Word),
      ∃ t : State, exec (.wallClockApply ref) s = .next t ∧ s.SameMemory t ∧ s.SameRegsBut [.mgt] t ∧ t.otp = s.otp ∧ t.now = s.now ∧ t.rings = s.rings ∧ t.par = s.par ∧ t.cell = s.cell ∧ t.blades = s.blades)

/-- Which bytes a DMA write, a completion and a Vat store change. A unit's DMA write that is served changes exactly the bytes it names, at the addresses the IOMMU gives, and no register; one that is not served changes no byte. Completing a descriptor changes no byte of memory outside its 16-byte completion entry at CPL_IDX, takes that descriptor and no other from the ring, and leaves OTP and CHIP_TIME; audited opcodes stage one entry, others none. A store to the Vat window changes its 1, 2, 4 or 8 bytes and nothing else. Completion stated for: vatWindowAccess. -/
def Obligations.FramesOfStoresAndCompletions : Prop :=
  (∀ (s : State) (u : UnitId) (a : Nat) (bs : List Byte) (ring : Option Nat) (ps : List Nat),
      Memory.wf s.mem = true →
      (s.dmaAddrs u a bs.length ring).toOption = some ps →
      ((ps.all fun (p : Nat) => inVat p || s.rd (DDR_STATUS.STATE (s.lineChannel (p / 64))) != 3) = true) →
      ∃ t : State, s.dmaWrite u a bs ring = .ok t ∧ t = { s with mem := t.mem, cool := s.cool.stored ps } ∧ (∀ x, x ∉ ps → Memory.read t.mem x = Memory.read s.mem x) ∧
        (ps.Nodup → ∀ i, i < bs.length → Memory.read t.mem (ps.getD i 0) = bs.getD i 0) ∧ ps.length = bs.length) ∧
  (∀ (s : State) (u : UnitId) (a : Nat) (bs : List Byte) (ring : Option Nat),
      (s.dmaAddrs u a bs.length ring).toOption = none →
      (s.dmaWrite u a bs ring).toOption.isNone = true ∧ (∀ e : DmaErr, (s.dmaFailed u e).mem = s.mem ∧ (s.dmaFailed u e).otp = s.otp)) ∧
  (∀ (s : State) (u : UnitId) (a : Nat) (bs : List Byte) (ring : Option Nat) (ps : List Nat) (p : Nat),
      (s.dmaAddrs u a bs.length ring).toOption = some ps →
      ((ps.find? fun (p : Nat) => !inVat p && s.rd (DDR_STATUS.STATE (s.lineChannel (p / 64))) == 3) = some p) →
      s.dmaWrite u a bs ring = .error (.dram p)) ∧
  (∀ (s : State) (u : UnitId) (d : DescRef) (f : Fetched) (status info result : Nat) (ps : List Nat),
      s.fetchedAt u d = some f →
      (s.dmaAddrs u (s.rd (RING_CBASE.BASE (unitBase u) d.ring) * 4096 + s.rd (RING_STATUS.CPL_IDX (unitBase u) d.ring) * 16) 16 (some d.ring)).toOption = some ps →
      (∀ x, x ∉ ps → Memory.read (s.finish u d status info result).mem x = Memory.read s.mem x) ∧ (s.finish u d status info result).otp = s.otp ∧ (s.finish u d status info result).now = s.now ∧
        ((s.finish u d status info result).ring u d.ring).fetched = (s.ring u d.ring).fetched.filter (fun (g : Fetched) => decide (g.slot ≠ d.slot)) ∧
        (∀ v r, ringKey v r ≠ ringKey u d.ring → (s.finish u d status info result).ring v r = s.ring v r) ∧
        (s.finish u d status info result).aud.staged.length = s.aud.staged.length + (if auditedOp u f.opcode then 1 else 0) ∧ s.SameRegsBut [u, .aud, .tal] (s.finish u d status info result)) ∧
  (∀ (s : State) (u : UnitId) (d : DescRef) (status info result : Nat),
      s.fetchedAt u d = none →
      s.finish u d status info result = s) ∧
  (∀ (s : State) (origin : Origin) (addr : PAddr) (size : AccSize) (v : Word) (ce : Bool) (u : State),
      Memory.wf s.mem = true →
      s.originThere origin.toNat = true →
      inVat addr.toNat = true →
      addr.toNat % 8 + size.bytes ≤ 8 →
      u = (if ce then s.bump VAT_ERR.CE 1 else s) →
      ∃ t : State, exec (.vatWindowAccess origin addr size (some v) ce) s = .next t ∧ t = { u with mem := t.mem } ∧
        (∀ x, x < addr.toNat ∨ addr.toNat + size.bytes ≤ x → Memory.read t.mem x = Memory.read s.mem x) ∧
        (∀ i, i < size.bytes → Memory.read t.mem (addr.toNat + i) = BitVec.ofNat 8 (v.toNat / 256 ^ i)))

end
end

