-- ==== Sys2Proof/Laws/Lanes.lean ====
section
/-! SUPPORT. What the timers, the lanes and the IOMMU can answer: one lemma for each shared operation. -/
namespace Sys2Proof.Machine
open Sys2Proof

/-! ## Timers -/

/-- An expiry takes place exactly when its tick has come and nothing that waits goes before it (R62, R529). -/
theorem State.passed_iff (s : State) (t : Nat) :
    s.passed t = true ↔ t ≤ s.now ∧ ∀ c ∈ s.pending, s.goesFirst t c = false := by
  simp [State.passed, List.any_eq_false]

@[simp] theorem State.due_none (s : State) : s.due none = false := rfl
@[simp] theorem State.due_some (s : State) (t : Nat) : s.due (some t) = s.passed t := rfl

/-- With an empty queue a timer expires once its tick has come. -/
theorem State.passed_alone {s : State} (h : s.pending = []) (t : Nat) : s.passed t = decide (t ≤ s.now) := by
  simp [State.passed, h]

/-! ## Lanes -/

/-- Work goes on a lane that was there and could take it, and the lanes after have the same numbers. -/
theorem putWork_some {w : LaneWork} {ls m : List LaneFree} {n : Nat} (h : putWork w ls = some (n, m)) :
    n ∈ ls.map (·.lane) ∧ m.map (·.lane) = ls.map (·.lane) := by
  induction ls generalizing m with
  | nil => simp [putWork] at h
  | cons l ls ih =>
    simp only [putWork] at h
    split at h
    · obtain ⟨rfl, rfl⟩ := by simpa using h
      simp [LaneFree.less]
    · cases k : putWork w ls with
      | none => simp [k] at h
      | some x =>
        obtain ⟨a, b⟩ := x
        simp only [k, Option.map_some, Option.some.injEq, Prod.mk.injEq] at h
        obtain ⟨rfl, rfl⟩ := h
        obtain ⟨p, q⟩ := ih k
        exact ⟨List.mem_cons_of_mem _ p, by simp [q]⟩

/-- Whoever holds a lane after a distribution holds one of its lanes and is one of its works. -/
theorem putWorks_mem {ws : List LaneWork} {ls : List LaneFree} :
    (∀ x ∈ (putWorks ws ls).1, x.1 ∈ ls.map (·.lane) ∧ x.2 ∈ ws.map (·.user)) ∧
    (putWorks ws ls).2.1.map (·.lane) = ls.map (·.lane) ∧ (∀ w ∈ (putWorks ws ls).2.2, w ∈ ws) := by
  induction ws generalizing ls with
  | nil => simp [putWorks]
  | cons w ws ih =>
    simp only [putWorks]
    split
    · rename_i n m h
      obtain ⟨p, q⟩ := putWork_some h
      obtain ⟨i, j, k⟩ := ih (ls := m)
      refine ⟨?_, j.trans q, fun x hx => List.mem_cons_of_mem _ (k x hx)⟩
      intro x hx
      simp only [List.mem_cons] at hx
      rcases hx with rfl | hx
      · exact ⟨p, by simp⟩
      · exact ⟨q ▸ (i x hx).1, List.mem_cons_of_mem _ (i x hx).2⟩
    · obtain ⟨i, j, k⟩ := ih (ls := ls)
      refine ⟨fun x hx => ⟨(i x hx).1, List.mem_cons_of_mem _ (i x hx).2⟩, j, ?_⟩
      intro x hx
      simp only [List.mem_cons] at hx ⊢
      rcases hx with rfl | hx
      · exact .inl rfl
      · exact .inr (k x hx)

/-- A turn gives lanes in service only, and only to work that waits (R158, R159, R179). -/
theorem laneTurn_mem {r : Nat} {lanes : List Nat} {ring inline : List LaneWork} {x : Nat × LaneUser}
    (h : x ∈ laneTurn r lanes ring inline) : x.1 ∈ lanes ∧ x.2 ∈ (ring ++ inline).map (·.user) := by
  have key : ∀ ls : List Nat, (ls.map fun n => ({ lane := n } : LaneFree)).map (·.lane) = ls := fun ls => by
    induction ls with
    | nil => rfl
    | cons a t ih => rw [List.map_cons, List.map_cons, ih]
  have ta : ∀ {n : Nat}, n ∈ lanes.take r → n ∈ lanes := List.mem_of_mem_take
  have td : ∀ {n : Nat}, n ∈ lanes.drop r → n ∈ lanes := List.mem_of_mem_drop
  obtain ⟨a1, a2, a3⟩ := putWorks_mem (ws := ring) (ls := (lanes.take r).map fun n => ({ lane := n } : LaneFree))
  obtain ⟨b1, b2, b3⟩ := putWorks_mem (ws := inline) (ls := (lanes.drop r).map fun n => ({ lane := n } : LaneFree))
  rw [key] at a1 a2 b1 b2
  simp only [laneTurn, List.mem_append] at h
  simp only [List.map_append, List.mem_append]
  rcases h with ((h | h) | h) | h
  · exact ⟨ta (a1 x h).1, .inl (a1 x h).2⟩
  · exact ⟨td (b1 x h).1, .inr (b1 x h).2⟩
  · obtain ⟨p, q⟩ := putWorks_mem.1 x h
    rw [a2] at p
    obtain ⟨w, hw, e⟩ := List.mem_map.1 q
    exact ⟨ta p, .inr (e ▸ List.mem_map_of_mem (b3 w hw))⟩
  · obtain ⟨p, q⟩ := putWorks_mem.1 x h
    rw [b2] at p
    obtain ⟨w, hw, e⟩ := List.mem_map.1 q
    exact ⟨td p, .inl (e ▸ List.mem_map_of_mem (a3 w hw))⟩

/-! ## Translation -/

/-- In Bare mode an address translates to itself (R32). -/
theorem State.iommu_bare {s : State} (h : s.bus.ddtMode = 1) (dev : Nat) (pid : Option Nat) (a : Nat) (w : Bool) :
    s.iommu dev pid a w = .ok a := by simp [State.iommu, h]

theorem State.msiAddr_bare {s : State} (h : s.bus.ddtMode = 1) (dev : Nat) (pid : Option Nat) (a : Nat) :
    s.msiAddr dev pid a = .ok a := by simp [State.msiAddr, h]

/-! ## Register accesses -/

/-- An initiator that is not there changes nothing (R28, R386, R458). -/
theorem State.regWrite_absent {s : State} {o : Nat} (h : s.originThere o = false) (u : UnitId) (cfg : Bool) (via a v : Nat)
    (eff : State → State) : s.regWrite u cfg o via a v eff = s := by simp [State.regWrite, h]

end Sys2Proof.Machine
end

