-- ==== Sys2Proof/Laws/Tab.lean ====
section
/-! SUPPORT. Laws of sparse tables and of memory: what a read after a write gives, and that every operation keeps the
canonical form. -/
namespace Sys2Proof.Machine

variable {α : Type}

/-! ## Tables -/

@[simp] theorem Tab.get?_set_self (t : Tab α) (k : Nat) (v : α) : Tab.get? (Tab.set t k v) k = some v := by
  induction t with
  | nil => simp [Tab.set, Tab.get?]
  | cons e t ih =>
    obtain ⟨j, w⟩ := e
    simp only [Tab.set]
    split
    · simp [Tab.get?]
    · split
      · simp [Tab.get?]
      · simp [Tab.get?, *]

theorem Tab.get?_set_ne (t : Tab α) {k i : Nat} (v : α) (h : i ≠ k) : Tab.get? (Tab.set t k v) i = Tab.get? t i := by
  induction t with
  | nil => simp [Tab.set, Tab.get?, h]
  | cons e t ih =>
    obtain ⟨j, w⟩ := e
    simp only [Tab.set]
    split
    · rename_i hk; subst hk; simp [Tab.get?, h]
    · split
      · simp [Tab.get?, h]
      · simp [Tab.get?, ih]

@[simp] theorem Tab.getD_set_self (t : Tab α) (k : Nat) (v d : α) : Tab.getD (Tab.set t k v) k d = v := by
  simp [Tab.getD]

theorem Tab.getD_set_ne (t : Tab α) {k i : Nat} (v d : α) (h : i ≠ k) :
    Tab.getD (Tab.set t k v) i d = Tab.getD t i d := by simp [Tab.getD, Tab.get?_set_ne t v h]

theorem Tab.get?_del_ne (t : Tab α) {k i : Nat} (h : i ≠ k) : Tab.get? (Tab.del t k) i = Tab.get? t i := by
  induction t with
  | nil => rfl
  | cons e t ih =>
    obtain ⟨j, w⟩ := e
    simp only [Tab.del]
    split
    · rename_i hk; subst hk; simp [Tab.get?, h]
    · simp [Tab.get?, ih]

/-- The keys of a sorted table all lie above a bound that lies below the first. -/
theorem Tab.sorted_cons (j : Nat) (w : α) (t : Tab α) :
    Tab.sorted ((j, w) :: t) = true ↔ (∀ e ∈ t, j < e.1) ∧ Tab.sorted t = true := by
  induction t generalizing j w with
  | nil => simp [Tab.sorted]
  | cons e t ih =>
    obtain ⟨k, v⟩ := e
    simp only [Tab.sorted, Bool.and_eq_true, decide_eq_true_eq, List.mem_cons, forall_eq_or_imp]
    constructor
    · rintro ⟨h1, h2⟩
      have h3 := ((ih k v).mp h2).1
      exact ⟨⟨h1, fun e he => Nat.lt_trans h1 (h3 e he)⟩, h2⟩
    · rintro ⟨⟨h1, _⟩, h2⟩; exact ⟨h1, h2⟩

/-- Every key of a table with one more entry is the new one or an old one. -/
theorem Tab.mem_set (t : Tab α) (k : Nat) (v : α) : ∀ e ∈ Tab.set t k v, e = (k, v) ∨ e ∈ t := by
  induction t with
  | nil => simp [Tab.set]
  | cons e t ih =>
    obtain ⟨j, w⟩ := e
    simp only [Tab.set]
    split
    · intro e he; rcases List.mem_cons.mp he with h | h
      · exact .inl h
      · exact .inr (List.mem_cons_of_mem _ h)
    · split
      · intro e he; rcases List.mem_cons.mp he with h | h
        · exact .inl h
        · exact .inr h
      · intro e he; rcases List.mem_cons.mp he with h | h
        · exact .inr (h ▸ List.mem_cons_self)
        · rcases ih e h with h | h
          · exact .inl h
          · exact .inr (List.mem_cons_of_mem _ h)

/-- `Tab.set` keeps the rising order. -/
theorem Tab.sorted_set (t : Tab α) (k : Nat) (v : α) (h : Tab.sorted t = true) : Tab.sorted (Tab.set t k v) = true := by
  induction t with
  | nil => rfl
  | cons e t ih =>
    obtain ⟨j, w⟩ := e
    obtain ⟨h1, h2⟩ := (Tab.sorted_cons j w t).mp h
    simp only [Tab.set]
    split
    · rename_i hk; subst hk; exact (Tab.sorted_cons _ _ _).mpr ⟨h1, h2⟩
    · split
      · rename_i hk; simp only [Tab.sorted, Bool.and_eq_true, decide_eq_true_eq]; exact ⟨hk, h⟩
      · refine (Tab.sorted_cons _ _ _).mpr ⟨fun e he => ?_, ih h2⟩
        rcases Tab.mem_set t k v e he with he | he
        · subst he; simp only; omega
        · exact h1 e he

theorem Tab.mem_of_mem_del (t : Tab α) (k : Nat) : ∀ e ∈ Tab.del t k, e ∈ t := by
  induction t with
  | nil => simp [Tab.del]
  | cons e t ih =>
    obtain ⟨j, w⟩ := e
    simp only [Tab.del]
    split
    · exact fun e he => List.mem_cons_of_mem _ he
    · intro e he; rcases List.mem_cons.mp he with h | h
      · exact h ▸ List.mem_cons_self
      · exact List.mem_cons_of_mem _ (ih e h)

/-- `Tab.del` keeps the rising order. -/
theorem Tab.sorted_del (t : Tab α) (k : Nat) (h : Tab.sorted t = true) : Tab.sorted (Tab.del t k) = true := by
  induction t with
  | nil => rfl
  | cons e t ih =>
    obtain ⟨j, w⟩ := e
    obtain ⟨h1, h2⟩ := (Tab.sorted_cons j w t).mp h
    simp only [Tab.del]
    split
    · exact h2
    · exact (Tab.sorted_cons _ _ _).mpr ⟨fun e he => h1 e (Tab.mem_of_mem_del t k e he), ih h2⟩

/-- Filtering keeps the rising order. -/
theorem Tab.sorted_filter (t : Tab α) (p : Nat × α → Bool) (h : Tab.sorted t = true) : Tab.sorted (t.filter p) = true := by
  induction t with
  | nil => rfl
  | cons e t ih =>
    obtain ⟨j, w⟩ := e
    obtain ⟨h1, h2⟩ := (Tab.sorted_cons j w t).mp h
    simp only [List.filter]
    split
    · exact (Tab.sorted_cons _ _ _).mpr ⟨fun e he => h1 e (List.mem_filter.mp he).1, ih h2⟩
    · exact ih h2

theorem Tab.sorted_keep (t : Tab α) (p : Nat → α → Bool) (h : Tab.sorted t = true) : Tab.sorted (Tab.keep t p) = true :=
  Tab.sorted_filter t _ h

/-- Below the first key of a sorted table there is nothing. -/
theorem Tab.get?_none_of_lt (t : Tab α) (k : Nat) (h : ∀ e ∈ t, k < e.1) : Tab.get? t k = none := by
  induction t with
  | nil => rfl
  | cons e t ih =>
    obtain ⟨j, w⟩ := e
    have h1 : k < j := h (j, w) List.mem_cons_self
    simp only [Tab.get?]
    rw [if_neg (by omega)]
    exact ih fun e he => h e (List.mem_cons_of_mem _ he)

theorem Tab.get?_del_self (t : Tab α) (k : Nat) (h : Tab.sorted t = true) : Tab.get? (Tab.del t k) k = none := by
  induction t with
  | nil => rfl
  | cons e t ih =>
    obtain ⟨j, w⟩ := e
    obtain ⟨h1, h2⟩ := (Tab.sorted_cons j w t).mp h
    simp only [Tab.del]
    split
    · rename_i hk; subst hk; exact Tab.get?_none_of_lt t _ h1
    · rename_i hk; simp [Tab.get?, hk, ih h2]

theorem Tab.get?_mapV (t : Tab α) (f : Nat → α → α) (k : Nat) : Tab.get? (Tab.mapV t f) k = (Tab.get? t k).map (f k) := by
  induction t with
  | nil => rfl
  | cons e t ih =>
    obtain ⟨j, w⟩ := e
    simp only [Tab.mapV, List.map_cons, Tab.get?]
    split
    · rename_i hk; subst hk; rfl
    · exact ih

/-! ## Memory -/

theorem Memory.read_write_ne (m : Memory) {a b : Nat} (v : BitVec 8) (h : b ≠ a) :
    Memory.read (Memory.write m a v) b = Memory.read m b := by
  simp only [Memory.write, Memory.read]
  split
  · simp [Tab.getD, Tab.get?_del_ne m h]
  · exact Tab.getD_set_ne m v _ h

/-- A byte reads back as it was written. -/
theorem Memory.read_write_self (m : Memory) (a : Nat) (v : BitVec 8) (h : Memory.wf m = true) :
    Memory.read (Memory.write m a v) a = v := by
  simp only [Memory.wf, Bool.and_eq_true] at h
  simp only [Memory.write, Memory.read]
  split
  · rename_i hv; simp [Tab.getD, Tab.get?_del_self m a h.1, hv]
  · simp

/-- A write keeps the canonical form. -/
theorem Memory.wf_write (m : Memory) (a : Nat) (v : BitVec 8) (h : Memory.wf m = true) :
    Memory.wf (Memory.write m a v) = true := by
  simp only [Memory.wf, Bool.and_eq_true, List.all_eq_true] at h ⊢
  simp only [Memory.write]
  split
  · exact ⟨Tab.sorted_del m a h.1, fun e he => h.2 e (Tab.mem_of_mem_del m a e he)⟩
  · refine ⟨Tab.sorted_set m a v h.1, fun e he => ?_⟩
    rcases Tab.mem_set m a v e he with rfl | he
    · simpa using by assumption
    · exact h.2 e he

theorem Memory.wf_writeN (bs : List (BitVec 8)) : ∀ (m : Memory) (a : Nat), Memory.wf m = true →
    Memory.wf (Memory.writeN m a bs) = true := by
  induction bs with
  | nil => exact fun _ _ h => h
  | cons b bs ih => exact fun m a h => ih _ _ (Memory.wf_write m a b h)

theorem Memory.read_writeN_out (bs : List (BitVec 8)) : ∀ (m : Memory) (a b : Nat), b < a ∨ a + bs.length ≤ b →
    Memory.read (Memory.writeN m a bs) b = Memory.read m b := by
  induction bs with
  | nil => exact fun _ _ _ _ => rfl
  | cons c bs ih =>
    intro m a b h
    simp only [List.length_cons] at h
    rw [Memory.writeN, ih _ _ _ (by omega), Memory.read_write_ne _ _ (by omega)]

theorem Memory.read_writeN_in (bs : List (BitVec 8)) : ∀ (m : Memory) (a i : Nat), Memory.wf m = true → i < bs.length →
    Memory.read (Memory.writeN m a bs) (a + i) = bs.getD i 0 := by
  induction bs with
  | nil => intro m a i _ h; simp at h
  | cons c bs ih =>
    intro m a i hw h
    cases i with
    | zero =>
      rw [Memory.writeN, Memory.read_writeN_out _ _ _ _ (by omega)]
      simpa using Memory.read_write_self m a c hw
    | succ i =>
      have := ih (Memory.write m a c) (a + 1) i (Memory.wf_write m a c hw) (by simpa using h)
      rw [Memory.writeN, show a + (i + 1) = a + 1 + i by omega, this]
      simp

theorem Memory.wf_blankRange (m : Memory) (a n : Nat) (h : Memory.wf m = true) :
    Memory.wf (Memory.blankRange m a n) = true := by
  simp only [Memory.wf, Bool.and_eq_true, List.all_eq_true] at h ⊢
  exact ⟨Tab.sorted_filter m _ h.1, fun e he => h.2 e (List.mem_filter.mp he).1⟩

/-- A list of single-byte writes keeps the canonical form. -/
theorem Memory.wf_foldl (l : List (Nat × BitVec 8)) : ∀ m : Memory, Memory.wf m = true →
    Memory.wf (l.foldl (fun m pb => Memory.write m pb.1 pb.2) m) = true := by
  induction l with
  | nil => exact fun _ h => h
  | cons e l ih => exact fun m h => ih _ (Memory.wf_write m _ _ h)

theorem Memory.read_foldl_out (l : List (Nat × BitVec 8)) : ∀ (m : Memory) (a : Nat), (∀ e ∈ l, e.1 ≠ a) →
    Memory.read (l.foldl (fun m pb => Memory.write m pb.1 pb.2) m) a = Memory.read m a := by
  induction l with
  | nil => exact fun _ _ _ => rfl
  | cons e l ih =>
    intro m a h
    rw [List.foldl_cons, ih _ _ fun x hx => h x (List.mem_cons_of_mem _ hx),
      Memory.read_write_ne _ _ fun he => h e List.mem_cons_self he.symm]

end Sys2Proof.Machine
end

