-- ==== Sys2Proof/Laws/State.lean ====
section
/-! SUPPORT. One lemma per field of State for each plain update, and what a register field reads after a write. -/
namespace Sys2Proof.Machine
open Sys2Proof

@[simp] theorem State.wr_now (s : State) (f : Fld) (v : Nat) : (s.wr f v).now = s.now := rfl
@[simp] theorem State.wr_csr (s : State) (f : Fld) (v : Nat) : (s.wr f v).csr = Tab.set s.csr f.key (v % 2 ^ f.w) := rfl
@[simp] theorem State.wr_mem (s : State) (f : Fld) (v : Nat) : (s.wr f v).mem = s.mem := rfl
@[simp] theorem State.wr_bus (s : State) (f : Fld) (v : Nat) : (s.wr f v).bus = s.bus := rfl
@[simp] theorem State.wr_rings (s : State) (f : Fld) (v : Nat) : (s.wr f v).rings = s.rings := rfl
@[simp] theorem State.wr_pins (s : State) (f : Fld) (v : Nat) : (s.wr f v).pins = s.pins := rfl
@[simp] theorem State.wr_tally (s : State) (f : Fld) (v : Nat) : (s.wr f v).tally = s.tally := rfl
@[simp] theorem State.wr_mtr (s : State) (f : Fld) (v : Nat) : (s.wr f v).mtr = s.mtr := rfl
@[simp] theorem State.wr_mgt (s : State) (f : Fld) (v : Nat) : (s.wr f v).mgt = s.mgt := rfl
@[simp] theorem State.wr_drw (s : State) (f : Fld) (v : Nat) : (s.wr f v).drw = s.drw := rfl
@[simp] theorem State.wr_boot (s : State) (f : Fld) (v : Nat) : (s.wr f v).boot = s.boot := rfl
@[simp] theorem State.wr_aud (s : State) (f : Fld) (v : Nat) : (s.wr f v).aud = s.aud := rfl
@[simp] theorem State.wr_otp (s : State) (f : Fld) (v : Nat) : (s.wr f v).otp = s.otp := rfl
@[simp] theorem State.wr_sup (s : State) (f : Fld) (v : Nat) : (s.wr f v).sup = s.sup := rfl
@[simp] theorem State.wr_cool (s : State) (f : Fld) (v : Nat) : (s.wr f v).cool = s.cool := rfl
@[simp] theorem State.wr_vat (s : State) (f : Fld) (v : Nat) : (s.wr f v).vat = s.vat := rfl
@[simp] theorem State.wr_ddr (s : State) (f : Fld) (v : Nat) : (s.wr f v).ddr = s.ddr := rfl
@[simp] theorem State.wr_press (s : State) (f : Fld) (v : Nat) : (s.wr f v).press = s.press := rfl
@[simp] theorem State.wr_sec (s : State) (f : Fld) (v : Nat) : (s.wr f v).sec = s.sec := rfl
@[simp] theorem State.wr_ven (s : State) (f : Fld) (v : Nat) : (s.wr f v).ven = s.ven := rfl
@[simp] theorem State.wr_blades (s : State) (f : Fld) (v : Nat) : (s.wr f v).blades = s.blades := rfl
@[simp] theorem State.wr_ports (s : State) (f : Fld) (v : Nat) : (s.wr f v).ports = s.ports := rfl
@[simp] theorem State.wr_rails (s : State) (f : Fld) (v : Nat) : (s.wr f v).rails = s.rails := rfl
@[simp] theorem State.wr_par (s : State) (f : Fld) (v : Nat) : (s.wr f v).par = s.par := rfl
@[simp] theorem State.wr_sep (s : State) (f : Fld) (v : Nat) : (s.wr f v).sep = s.sep := rfl
@[simp] theorem State.wr_churn (s : State) (f : Fld) (v : Nat) : (s.wr f v).churn = s.churn := rfl
@[simp] theorem State.wr_carc (s : State) (f : Fld) (v : Nat) : (s.wr f v).carc = s.carc := rfl
@[simp] theorem State.wr_cell (s : State) (f : Fld) (v : Nat) : (s.wr f v).cell = s.cell := rfl
@[simp] theorem State.wr_leaseU (s : State) (f : Fld) (v : Nat) : (s.wr f v).leaseU = s.leaseU := rfl
@[simp] theorem State.wr_ten (s : State) (f : Fld) (v : Nat) : (s.wr f v).ten = s.ten := rfl
@[simp] theorem State.wr_jig (s : State) (f : Fld) (v : Nat) : (s.wr f v).jig = s.jig := rfl
@[simp] theorem State.wr_draws (s : State) (f : Fld) (v : Nat) : (s.wr f v).draws = s.draws := rfl
@[simp] theorem State.wr_pending (s : State) (f : Fld) (v : Nat) : (s.wr f v).pending = s.pending := rfl

@[simp] theorem State.setRing_now (s : State) (u : UnitId) (r : Nat) (x : Ring) : (s.setRing u r x).now = s.now := rfl
@[simp] theorem State.setRing_csr (s : State) (u : UnitId) (r : Nat) (x : Ring) : (s.setRing u r x).csr = s.csr := rfl
@[simp] theorem State.setRing_mem (s : State) (u : UnitId) (r : Nat) (x : Ring) : (s.setRing u r x).mem = s.mem := rfl
@[simp] theorem State.setRing_bus (s : State) (u : UnitId) (r : Nat) (x : Ring) : (s.setRing u r x).bus = s.bus := rfl
@[simp] theorem State.setRing_rings (s : State) (u : UnitId) (r : Nat) (x : Ring) : (s.setRing u r x).rings = Tab.set s.rings (ringKey u r) x := rfl
@[simp] theorem State.setRing_pins (s : State) (u : UnitId) (r : Nat) (x : Ring) : (s.setRing u r x).pins = s.pins := rfl
@[simp] theorem State.setRing_tally (s : State) (u : UnitId) (r : Nat) (x : Ring) : (s.setRing u r x).tally = s.tally := rfl
@[simp] theorem State.setRing_mtr (s : State) (u : UnitId) (r : Nat) (x : Ring) : (s.setRing u r x).mtr = s.mtr := rfl
@[simp] theorem State.setRing_mgt (s : State) (u : UnitId) (r : Nat) (x : Ring) : (s.setRing u r x).mgt = s.mgt := rfl
@[simp] theorem State.setRing_drw (s : State) (u : UnitId) (r : Nat) (x : Ring) : (s.setRing u r x).drw = s.drw := rfl
@[simp] theorem State.setRing_boot (s : State) (u : UnitId) (r : Nat) (x : Ring) : (s.setRing u r x).boot = s.boot := rfl
@[simp] theorem State.setRing_aud (s : State) (u : UnitId) (r : Nat) (x : Ring) : (s.setRing u r x).aud = s.aud := rfl
@[simp] theorem State.setRing_otp (s : State) (u : UnitId) (r : Nat) (x : Ring) : (s.setRing u r x).otp = s.otp := rfl
@[simp] theorem State.setRing_sup (s : State) (u : UnitId) (r : Nat) (x : Ring) : (s.setRing u r x).sup = s.sup := rfl
@[simp] theorem State.setRing_cool (s : State) (u : UnitId) (r : Nat) (x : Ring) : (s.setRing u r x).cool = s.cool := rfl
@[simp] theorem State.setRing_vat (s : State) (u : UnitId) (r : Nat) (x : Ring) : (s.setRing u r x).vat = s.vat := rfl
@[simp] theorem State.setRing_ddr (s : State) (u : UnitId) (r : Nat) (x : Ring) : (s.setRing u r x).ddr = s.ddr := rfl
@[simp] theorem State.setRing_press (s : State) (u : UnitId) (r : Nat) (x : Ring) : (s.setRing u r x).press = s.press := rfl
@[simp] theorem State.setRing_sec (s : State) (u : UnitId) (r : Nat) (x : Ring) : (s.setRing u r x).sec = s.sec := rfl
@[simp] theorem State.setRing_ven (s : State) (u : UnitId) (r : Nat) (x : Ring) : (s.setRing u r x).ven = s.ven := rfl
@[simp] theorem State.setRing_blades (s : State) (u : UnitId) (r : Nat) (x : Ring) : (s.setRing u r x).blades = s.blades := rfl
@[simp] theorem State.setRing_ports (s : State) (u : UnitId) (r : Nat) (x : Ring) : (s.setRing u r x).ports = s.ports := rfl
@[simp] theorem State.setRing_rails (s : State) (u : UnitId) (r : Nat) (x : Ring) : (s.setRing u r x).rails = s.rails := rfl
@[simp] theorem State.setRing_par (s : State) (u : UnitId) (r : Nat) (x : Ring) : (s.setRing u r x).par = s.par := rfl
@[simp] theorem State.setRing_sep (s : State) (u : UnitId) (r : Nat) (x : Ring) : (s.setRing u r x).sep = s.sep := rfl
@[simp] theorem State.setRing_churn (s : State) (u : UnitId) (r : Nat) (x : Ring) : (s.setRing u r x).churn = s.churn := rfl
@[simp] theorem State.setRing_carc (s : State) (u : UnitId) (r : Nat) (x : Ring) : (s.setRing u r x).carc = s.carc := rfl
@[simp] theorem State.setRing_cell (s : State) (u : UnitId) (r : Nat) (x : Ring) : (s.setRing u r x).cell = s.cell := rfl
@[simp] theorem State.setRing_leaseU (s : State) (u : UnitId) (r : Nat) (x : Ring) : (s.setRing u r x).leaseU = s.leaseU := rfl
@[simp] theorem State.setRing_ten (s : State) (u : UnitId) (r : Nat) (x : Ring) : (s.setRing u r x).ten = s.ten := rfl
@[simp] theorem State.setRing_jig (s : State) (u : UnitId) (r : Nat) (x : Ring) : (s.setRing u r x).jig = s.jig := rfl
@[simp] theorem State.setRing_draws (s : State) (u : UnitId) (r : Nat) (x : Ring) : (s.setRing u r x).draws = s.draws := rfl
@[simp] theorem State.setRing_pending (s : State) (u : UnitId) (r : Nat) (x : Ring) : (s.setRing u r x).pending = s.pending := rfl
@[simp] theorem State.rd_setRing (s : State) (u : UnitId) (r : Nat) (x : Ring) (g : Fld) : (s.setRing u r x).rd g = s.rd g := rfl

@[simp] theorem State.draw_now (s : State) : (s.draw).now = s.now := rfl
@[simp] theorem State.draw_csr (s : State) : (s.draw).csr = s.csr := rfl
@[simp] theorem State.draw_mem (s : State) : (s.draw).mem = s.mem := rfl
@[simp] theorem State.draw_bus (s : State) : (s.draw).bus = s.bus := rfl
@[simp] theorem State.draw_rings (s : State) : (s.draw).rings = s.rings := rfl
@[simp] theorem State.draw_pins (s : State) : (s.draw).pins = s.pins := rfl
@[simp] theorem State.draw_tally (s : State) : (s.draw).tally = s.tally := rfl
@[simp] theorem State.draw_mtr (s : State) : (s.draw).mtr = s.mtr := rfl
@[simp] theorem State.draw_mgt (s : State) : (s.draw).mgt = s.mgt := rfl
@[simp] theorem State.draw_drw (s : State) : (s.draw).drw = s.drw := rfl
@[simp] theorem State.draw_boot (s : State) : (s.draw).boot = s.boot := rfl
@[simp] theorem State.draw_aud (s : State) : (s.draw).aud = s.aud := rfl
@[simp] theorem State.draw_otp (s : State) : (s.draw).otp = s.otp := rfl
@[simp] theorem State.draw_sup (s : State) : (s.draw).sup = s.sup := rfl
@[simp] theorem State.draw_cool (s : State) : (s.draw).cool = s.cool := rfl
@[simp] theorem State.draw_vat (s : State) : (s.draw).vat = s.vat := rfl
@[simp] theorem State.draw_ddr (s : State) : (s.draw).ddr = s.ddr := rfl
@[simp] theorem State.draw_press (s : State) : (s.draw).press = s.press := rfl
@[simp] theorem State.draw_sec (s : State) : (s.draw).sec = s.sec := rfl
@[simp] theorem State.draw_ven (s : State) : (s.draw).ven = s.ven := rfl
@[simp] theorem State.draw_blades (s : State) : (s.draw).blades = s.blades := rfl
@[simp] theorem State.draw_ports (s : State) : (s.draw).ports = s.ports := rfl
@[simp] theorem State.draw_rails (s : State) : (s.draw).rails = s.rails := rfl
@[simp] theorem State.draw_par (s : State) : (s.draw).par = s.par := rfl
@[simp] theorem State.draw_sep (s : State) : (s.draw).sep = s.sep := rfl
@[simp] theorem State.draw_churn (s : State) : (s.draw).churn = s.churn := rfl
@[simp] theorem State.draw_carc (s : State) : (s.draw).carc = s.carc := rfl
@[simp] theorem State.draw_cell (s : State) : (s.draw).cell = s.cell := rfl
@[simp] theorem State.draw_leaseU (s : State) : (s.draw).leaseU = s.leaseU := rfl
@[simp] theorem State.draw_ten (s : State) : (s.draw).ten = s.ten := rfl
@[simp] theorem State.draw_jig (s : State) : (s.draw).jig = s.jig := rfl
@[simp] theorem State.draw_draws (s : State) : (s.draw).draws = s.draws + 1 := rfl
@[simp] theorem State.draw_pending (s : State) : (s.draw).pending = s.pending := rfl
@[simp] theorem State.rd_draw (s : State) (g : Fld) : (s.draw).rd g = s.rd g := rfl

@[simp] theorem State.readReturn_now (s : State) (v : Option Nat) : (s.readReturn v).now = s.now := rfl
@[simp] theorem State.readReturn_csr (s : State) (v : Option Nat) : (s.readReturn v).csr = s.csr := rfl
@[simp] theorem State.readReturn_mem (s : State) (v : Option Nat) : (s.readReturn v).mem = s.mem := rfl
@[simp] theorem State.readReturn_bus (s : State) (v : Option Nat) : (s.readReturn v).bus = { s.bus with readData := v } := rfl
@[simp] theorem State.readReturn_rings (s : State) (v : Option Nat) : (s.readReturn v).rings = s.rings := rfl
@[simp] theorem State.readReturn_pins (s : State) (v : Option Nat) : (s.readReturn v).pins = s.pins := rfl
@[simp] theorem State.readReturn_tally (s : State) (v : Option Nat) : (s.readReturn v).tally = s.tally := rfl
@[simp] theorem State.readReturn_mtr (s : State) (v : Option Nat) : (s.readReturn v).mtr = s.mtr := rfl
@[simp] theorem State.readReturn_mgt (s : State) (v : Option Nat) : (s.readReturn v).mgt = s.mgt := rfl
@[simp] theorem State.readReturn_drw (s : State) (v : Option Nat) : (s.readReturn v).drw = s.drw := rfl
@[simp] theorem State.readReturn_boot (s : State) (v : Option Nat) : (s.readReturn v).boot = s.boot := rfl
@[simp] theorem State.readReturn_aud (s : State) (v : Option Nat) : (s.readReturn v).aud = s.aud := rfl
@[simp] theorem State.readReturn_otp (s : State) (v : Option Nat) : (s.readReturn v).otp = s.otp := rfl
@[simp] theorem State.readReturn_sup (s : State) (v : Option Nat) : (s.readReturn v).sup = s.sup := rfl
@[simp] theorem State.readReturn_cool (s : State) (v : Option Nat) : (s.readReturn v).cool = s.cool := rfl
@[simp] theorem State.readReturn_vat (s : State) (v : Option Nat) : (s.readReturn v).vat = s.vat := rfl
@[simp] theorem State.readReturn_ddr (s : State) (v : Option Nat) : (s.readReturn v).ddr = s.ddr := rfl
@[simp] theorem State.readReturn_press (s : State) (v : Option Nat) : (s.readReturn v).press = s.press := rfl
@[simp] theorem State.readReturn_sec (s : State) (v : Option Nat) : (s.readReturn v).sec = s.sec := rfl
@[simp] theorem State.readReturn_ven (s : State) (v : Option Nat) : (s.readReturn v).ven = s.ven := rfl
@[simp] theorem State.readReturn_blades (s : State) (v : Option Nat) : (s.readReturn v).blades = s.blades := rfl
@[simp] theorem State.readReturn_ports (s : State) (v : Option Nat) : (s.readReturn v).ports = s.ports := rfl
@[simp] theorem State.readReturn_rails (s : State) (v : Option Nat) : (s.readReturn v).rails = s.rails := rfl
@[simp] theorem State.readReturn_par (s : State) (v : Option Nat) : (s.readReturn v).par = s.par := rfl
@[simp] theorem State.readReturn_sep (s : State) (v : Option Nat) : (s.readReturn v).sep = s.sep := rfl
@[simp] theorem State.readReturn_churn (s : State) (v : Option Nat) : (s.readReturn v).churn = s.churn := rfl
@[simp] theorem State.readReturn_carc (s : State) (v : Option Nat) : (s.readReturn v).carc = s.carc := rfl
@[simp] theorem State.readReturn_cell (s : State) (v : Option Nat) : (s.readReturn v).cell = s.cell := rfl
@[simp] theorem State.readReturn_leaseU (s : State) (v : Option Nat) : (s.readReturn v).leaseU = s.leaseU := rfl
@[simp] theorem State.readReturn_ten (s : State) (v : Option Nat) : (s.readReturn v).ten = s.ten := rfl
@[simp] theorem State.readReturn_jig (s : State) (v : Option Nat) : (s.readReturn v).jig = s.jig := rfl
@[simp] theorem State.readReturn_draws (s : State) (v : Option Nat) : (s.readReturn v).draws = s.draws := rfl
@[simp] theorem State.readReturn_pending (s : State) (v : Option Nat) : (s.readReturn v).pending = s.pending := rfl
@[simp] theorem State.rd_readReturn (s : State) (v : Option Nat) (g : Fld) : (s.readReturn v).rd g = s.rd g := rfl

@[simp] theorem State.setAud_now (s : State) (x : Audit) : (s.setAud x).now = s.now := rfl
@[simp] theorem State.setAud_csr (s : State) (x : Audit) : (s.setAud x).csr = s.csr := rfl
@[simp] theorem State.setAud_mem (s : State) (x : Audit) : (s.setAud x).mem = s.mem := rfl
@[simp] theorem State.setAud_bus (s : State) (x : Audit) : (s.setAud x).bus = s.bus := rfl
@[simp] theorem State.setAud_rings (s : State) (x : Audit) : (s.setAud x).rings = s.rings := rfl
@[simp] theorem State.setAud_pins (s : State) (x : Audit) : (s.setAud x).pins = s.pins := rfl
@[simp] theorem State.setAud_tally (s : State) (x : Audit) : (s.setAud x).tally = s.tally := rfl
@[simp] theorem State.setAud_mtr (s : State) (x : Audit) : (s.setAud x).mtr = s.mtr := rfl
@[simp] theorem State.setAud_mgt (s : State) (x : Audit) : (s.setAud x).mgt = s.mgt := rfl
@[simp] theorem State.setAud_drw (s : State) (x : Audit) : (s.setAud x).drw = s.drw := rfl
@[simp] theorem State.setAud_boot (s : State) (x : Audit) : (s.setAud x).boot = s.boot := rfl
@[simp] theorem State.setAud_aud (s : State) (x : Audit) : (s.setAud x).aud = x := rfl
@[simp] theorem State.setAud_otp (s : State) (x : Audit) : (s.setAud x).otp = s.otp := rfl
@[simp] theorem State.setAud_sup (s : State) (x : Audit) : (s.setAud x).sup = s.sup := rfl
@[simp] theorem State.setAud_cool (s : State) (x : Audit) : (s.setAud x).cool = s.cool := rfl
@[simp] theorem State.setAud_vat (s : State) (x : Audit) : (s.setAud x).vat = s.vat := rfl
@[simp] theorem State.setAud_ddr (s : State) (x : Audit) : (s.setAud x).ddr = s.ddr := rfl
@[simp] theorem State.setAud_press (s : State) (x : Audit) : (s.setAud x).press = s.press := rfl
@[simp] theorem State.setAud_sec (s : State) (x : Audit) : (s.setAud x).sec = s.sec := rfl
@[simp] theorem State.setAud_ven (s : State) (x : Audit) : (s.setAud x).ven = s.ven := rfl
@[simp] theorem State.setAud_blades (s : State) (x : Audit) : (s.setAud x).blades = s.blades := rfl
@[simp] theorem State.setAud_ports (s : State) (x : Audit) : (s.setAud x).ports = s.ports := rfl
@[simp] theorem State.setAud_rails (s : State) (x : Audit) : (s.setAud x).rails = s.rails := rfl
@[simp] theorem State.setAud_par (s : State) (x : Audit) : (s.setAud x).par = s.par := rfl
@[simp] theorem State.setAud_sep (s : State) (x : Audit) : (s.setAud x).sep = s.sep := rfl
@[simp] theorem State.setAud_churn (s : State) (x : Audit) : (s.setAud x).churn = s.churn := rfl
@[simp] theorem State.setAud_carc (s : State) (x : Audit) : (s.setAud x).carc = s.carc := rfl
@[simp] theorem State.setAud_cell (s : State) (x : Audit) : (s.setAud x).cell = s.cell := rfl
@[simp] theorem State.setAud_leaseU (s : State) (x : Audit) : (s.setAud x).leaseU = s.leaseU := rfl
@[simp] theorem State.setAud_ten (s : State) (x : Audit) : (s.setAud x).ten = s.ten := rfl
@[simp] theorem State.setAud_jig (s : State) (x : Audit) : (s.setAud x).jig = s.jig := rfl
@[simp] theorem State.setAud_draws (s : State) (x : Audit) : (s.setAud x).draws = s.draws := rfl
@[simp] theorem State.setAud_pending (s : State) (x : Audit) : (s.setAud x).pending = s.pending := rfl
@[simp] theorem State.rd_setAud (s : State) (x : Audit) (g : Fld) : (s.setAud x).rd g = s.rd g := rfl

@[simp] theorem State.setLease_now (s : State) (x : LeaseU) : (s.setLease x).now = s.now := rfl
@[simp] theorem State.setLease_csr (s : State) (x : LeaseU) : (s.setLease x).csr = s.csr := rfl
@[simp] theorem State.setLease_mem (s : State) (x : LeaseU) : (s.setLease x).mem = s.mem := rfl
@[simp] theorem State.setLease_bus (s : State) (x : LeaseU) : (s.setLease x).bus = s.bus := rfl
@[simp] theorem State.setLease_rings (s : State) (x : LeaseU) : (s.setLease x).rings = s.rings := rfl
@[simp] theorem State.setLease_pins (s : State) (x : LeaseU) : (s.setLease x).pins = s.pins := rfl
@[simp] theorem State.setLease_tally (s : State) (x : LeaseU) : (s.setLease x).tally = s.tally := rfl
@[simp] theorem State.setLease_mtr (s : State) (x : LeaseU) : (s.setLease x).mtr = s.mtr := rfl
@[simp] theorem State.setLease_mgt (s : State) (x : LeaseU) : (s.setLease x).mgt = s.mgt := rfl
@[simp] theorem State.setLease_drw (s : State) (x : LeaseU) : (s.setLease x).drw = s.drw := rfl
@[simp] theorem State.setLease_boot (s : State) (x : LeaseU) : (s.setLease x).boot = s.boot := rfl
@[simp] theorem State.setLease_aud (s : State) (x : LeaseU) : (s.setLease x).aud = s.aud := rfl
@[simp] theorem State.setLease_otp (s : State) (x : LeaseU) : (s.setLease x).otp = s.otp := rfl
@[simp] theorem State.setLease_sup (s : State) (x : LeaseU) : (s.setLease x).sup = s.sup := rfl
@[simp] theorem State.setLease_cool (s : State) (x : LeaseU) : (s.setLease x).cool = s.cool := rfl
@[simp] theorem State.setLease_vat (s : State) (x : LeaseU) : (s.setLease x).vat = s.vat := rfl
@[simp] theorem State.setLease_ddr (s : State) (x : LeaseU) : (s.setLease x).ddr = s.ddr := rfl
@[simp] theorem State.setLease_press (s : State) (x : LeaseU) : (s.setLease x).press = s.press := rfl
@[simp] theorem State.setLease_sec (s : State) (x : LeaseU) : (s.setLease x).sec = s.sec := rfl
@[simp] theorem State.setLease_ven (s : State) (x : LeaseU) : (s.setLease x).ven = s.ven := rfl
@[simp] theorem State.setLease_blades (s : State) (x : LeaseU) : (s.setLease x).blades = s.blades := rfl
@[simp] theorem State.setLease_ports (s : State) (x : LeaseU) : (s.setLease x).ports = s.ports := rfl
@[simp] theorem State.setLease_rails (s : State) (x : LeaseU) : (s.setLease x).rails = s.rails := rfl
@[simp] theorem State.setLease_par (s : State) (x : LeaseU) : (s.setLease x).par = s.par := rfl
@[simp] theorem State.setLease_sep (s : State) (x : LeaseU) : (s.setLease x).sep = s.sep := rfl
@[simp] theorem State.setLease_churn (s : State) (x : LeaseU) : (s.setLease x).churn = s.churn := rfl
@[simp] theorem State.setLease_carc (s : State) (x : LeaseU) : (s.setLease x).carc = s.carc := rfl
@[simp] theorem State.setLease_cell (s : State) (x : LeaseU) : (s.setLease x).cell = s.cell := rfl
@[simp] theorem State.setLease_leaseU (s : State) (x : LeaseU) : (s.setLease x).leaseU = x := rfl
@[simp] theorem State.setLease_ten (s : State) (x : LeaseU) : (s.setLease x).ten = s.ten := rfl
@[simp] theorem State.setLease_jig (s : State) (x : LeaseU) : (s.setLease x).jig = s.jig := rfl
@[simp] theorem State.setLease_draws (s : State) (x : LeaseU) : (s.setLease x).draws = s.draws := rfl
@[simp] theorem State.setLease_pending (s : State) (x : LeaseU) : (s.setLease x).pending = s.pending := rfl
@[simp] theorem State.rd_setLease (s : State) (x : LeaseU) (g : Fld) : (s.setLease x).rd g = s.rd g := rfl

@[simp] theorem State.setBlade_now (s : State) (b : Nat) (x : Blade) : (s.setBlade b x).now = s.now := rfl
@[simp] theorem State.setBlade_csr (s : State) (b : Nat) (x : Blade) : (s.setBlade b x).csr = s.csr := rfl
@[simp] theorem State.setBlade_mem (s : State) (b : Nat) (x : Blade) : (s.setBlade b x).mem = s.mem := rfl
@[simp] theorem State.setBlade_bus (s : State) (b : Nat) (x : Blade) : (s.setBlade b x).bus = s.bus := rfl
@[simp] theorem State.setBlade_rings (s : State) (b : Nat) (x : Blade) : (s.setBlade b x).rings = s.rings := rfl
@[simp] theorem State.setBlade_pins (s : State) (b : Nat) (x : Blade) : (s.setBlade b x).pins = s.pins := rfl
@[simp] theorem State.setBlade_tally (s : State) (b : Nat) (x : Blade) : (s.setBlade b x).tally = s.tally := rfl
@[simp] theorem State.setBlade_mtr (s : State) (b : Nat) (x : Blade) : (s.setBlade b x).mtr = s.mtr := rfl
@[simp] theorem State.setBlade_mgt (s : State) (b : Nat) (x : Blade) : (s.setBlade b x).mgt = s.mgt := rfl
@[simp] theorem State.setBlade_drw (s : State) (b : Nat) (x : Blade) : (s.setBlade b x).drw = s.drw := rfl
@[simp] theorem State.setBlade_boot (s : State) (b : Nat) (x : Blade) : (s.setBlade b x).boot = s.boot := rfl
@[simp] theorem State.setBlade_aud (s : State) (b : Nat) (x : Blade) : (s.setBlade b x).aud = s.aud := rfl
@[simp] theorem State.setBlade_otp (s : State) (b : Nat) (x : Blade) : (s.setBlade b x).otp = s.otp := rfl
@[simp] theorem State.setBlade_sup (s : State) (b : Nat) (x : Blade) : (s.setBlade b x).sup = s.sup := rfl
@[simp] theorem State.setBlade_cool (s : State) (b : Nat) (x : Blade) : (s.setBlade b x).cool = s.cool := rfl
@[simp] theorem State.setBlade_vat (s : State) (b : Nat) (x : Blade) : (s.setBlade b x).vat = s.vat := rfl
@[simp] theorem State.setBlade_ddr (s : State) (b : Nat) (x : Blade) : (s.setBlade b x).ddr = s.ddr := rfl
@[simp] theorem State.setBlade_press (s : State) (b : Nat) (x : Blade) : (s.setBlade b x).press = s.press := rfl
@[simp] theorem State.setBlade_sec (s : State) (b : Nat) (x : Blade) : (s.setBlade b x).sec = s.sec := rfl
@[simp] theorem State.setBlade_ven (s : State) (b : Nat) (x : Blade) : (s.setBlade b x).ven = s.ven := rfl
@[simp] theorem State.setBlade_blades (s : State) (b : Nat) (x : Blade) : (s.setBlade b x).blades = Tab.set s.blades b x := rfl
@[simp] theorem State.setBlade_ports (s : State) (b : Nat) (x : Blade) : (s.setBlade b x).ports = s.ports := rfl
@[simp] theorem State.setBlade_rails (s : State) (b : Nat) (x : Blade) : (s.setBlade b x).rails = s.rails := rfl
@[simp] theorem State.setBlade_par (s : State) (b : Nat) (x : Blade) : (s.setBlade b x).par = s.par := rfl
@[simp] theorem State.setBlade_sep (s : State) (b : Nat) (x : Blade) : (s.setBlade b x).sep = s.sep := rfl
@[simp] theorem State.setBlade_churn (s : State) (b : Nat) (x : Blade) : (s.setBlade b x).churn = s.churn := rfl
@[simp] theorem State.setBlade_carc (s : State) (b : Nat) (x : Blade) : (s.setBlade b x).carc = s.carc := rfl
@[simp] theorem State.setBlade_cell (s : State) (b : Nat) (x : Blade) : (s.setBlade b x).cell = s.cell := rfl
@[simp] theorem State.setBlade_leaseU (s : State) (b : Nat) (x : Blade) : (s.setBlade b x).leaseU = s.leaseU := rfl
@[simp] theorem State.setBlade_ten (s : State) (b : Nat) (x : Blade) : (s.setBlade b x).ten = s.ten := rfl
@[simp] theorem State.setBlade_jig (s : State) (b : Nat) (x : Blade) : (s.setBlade b x).jig = s.jig := rfl
@[simp] theorem State.setBlade_draws (s : State) (b : Nat) (x : Blade) : (s.setBlade b x).draws = s.draws := rfl
@[simp] theorem State.setBlade_pending (s : State) (b : Nat) (x : Blade) : (s.setBlade b x).pending = s.pending := rfl
@[simp] theorem State.rd_setBlade (s : State) (b : Nat) (x : Blade) (g : Fld) : (s.setBlade b x).rd g = s.rd g := rfl

@[simp] theorem State.setHport_now (s : State) (b : Nat) (x : HeadPort) : (s.setHport b x).now = s.now := rfl
@[simp] theorem State.setHport_csr (s : State) (b : Nat) (x : HeadPort) : (s.setHport b x).csr = s.csr := rfl
@[simp] theorem State.setHport_mem (s : State) (b : Nat) (x : HeadPort) : (s.setHport b x).mem = s.mem := rfl
@[simp] theorem State.setHport_bus (s : State) (b : Nat) (x : HeadPort) : (s.setHport b x).bus = s.bus := rfl
@[simp] theorem State.setHport_rings (s : State) (b : Nat) (x : HeadPort) : (s.setHport b x).rings = s.rings := rfl
@[simp] theorem State.setHport_pins (s : State) (b : Nat) (x : HeadPort) : (s.setHport b x).pins = s.pins := rfl
@[simp] theorem State.setHport_tally (s : State) (b : Nat) (x : HeadPort) : (s.setHport b x).tally = s.tally := rfl
@[simp] theorem State.setHport_mtr (s : State) (b : Nat) (x : HeadPort) : (s.setHport b x).mtr = s.mtr := rfl
@[simp] theorem State.setHport_mgt (s : State) (b : Nat) (x : HeadPort) : (s.setHport b x).mgt = s.mgt := rfl
@[simp] theorem State.setHport_drw (s : State) (b : Nat) (x : HeadPort) : (s.setHport b x).drw = s.drw := rfl
@[simp] theorem State.setHport_boot (s : State) (b : Nat) (x : HeadPort) : (s.setHport b x).boot = s.boot := rfl
@[simp] theorem State.setHport_aud (s : State) (b : Nat) (x : HeadPort) : (s.setHport b x).aud = s.aud := rfl
@[simp] theorem State.setHport_otp (s : State) (b : Nat) (x : HeadPort) : (s.setHport b x).otp = s.otp := rfl
@[simp] theorem State.setHport_sup (s : State) (b : Nat) (x : HeadPort) : (s.setHport b x).sup = s.sup := rfl
@[simp] theorem State.setHport_cool (s : State) (b : Nat) (x : HeadPort) : (s.setHport b x).cool = s.cool := rfl
@[simp] theorem State.setHport_vat (s : State) (b : Nat) (x : HeadPort) : (s.setHport b x).vat = s.vat := rfl
@[simp] theorem State.setHport_ddr (s : State) (b : Nat) (x : HeadPort) : (s.setHport b x).ddr = s.ddr := rfl
@[simp] theorem State.setHport_press (s : State) (b : Nat) (x : HeadPort) : (s.setHport b x).press = s.press := rfl
@[simp] theorem State.setHport_sec (s : State) (b : Nat) (x : HeadPort) : (s.setHport b x).sec = s.sec := rfl
@[simp] theorem State.setHport_ven (s : State) (b : Nat) (x : HeadPort) : (s.setHport b x).ven = s.ven := rfl
@[simp] theorem State.setHport_blades (s : State) (b : Nat) (x : HeadPort) : (s.setHport b x).blades = s.blades := rfl
@[simp] theorem State.setHport_ports (s : State) (b : Nat) (x : HeadPort) : (s.setHport b x).ports = Tab.set s.ports b x := rfl
@[simp] theorem State.setHport_rails (s : State) (b : Nat) (x : HeadPort) : (s.setHport b x).rails = s.rails := rfl
@[simp] theorem State.setHport_par (s : State) (b : Nat) (x : HeadPort) : (s.setHport b x).par = s.par := rfl
@[simp] theorem State.setHport_sep (s : State) (b : Nat) (x : HeadPort) : (s.setHport b x).sep = s.sep := rfl
@[simp] theorem State.setHport_churn (s : State) (b : Nat) (x : HeadPort) : (s.setHport b x).churn = s.churn := rfl
@[simp] theorem State.setHport_carc (s : State) (b : Nat) (x : HeadPort) : (s.setHport b x).carc = s.carc := rfl
@[simp] theorem State.setHport_cell (s : State) (b : Nat) (x : HeadPort) : (s.setHport b x).cell = s.cell := rfl
@[simp] theorem State.setHport_leaseU (s : State) (b : Nat) (x : HeadPort) : (s.setHport b x).leaseU = s.leaseU := rfl
@[simp] theorem State.setHport_ten (s : State) (b : Nat) (x : HeadPort) : (s.setHport b x).ten = s.ten := rfl
@[simp] theorem State.setHport_jig (s : State) (b : Nat) (x : HeadPort) : (s.setHport b x).jig = s.jig := rfl
@[simp] theorem State.setHport_draws (s : State) (b : Nat) (x : HeadPort) : (s.setHport b x).draws = s.draws := rfl
@[simp] theorem State.setHport_pending (s : State) (b : Nat) (x : HeadPort) : (s.setHport b x).pending = s.pending := rfl
@[simp] theorem State.rd_setHport (s : State) (b : Nat) (x : HeadPort) (g : Fld) : (s.setHport b x).rd g = s.rd g := rfl

@[simp] theorem State.setCarc_now (s : State) (x : Carc) : (s.setCarc x).now = s.now := rfl
@[simp] theorem State.setCarc_csr (s : State) (x : Carc) : (s.setCarc x).csr = s.csr := rfl
@[simp] theorem State.setCarc_mem (s : State) (x : Carc) : (s.setCarc x).mem = s.mem := rfl
@[simp] theorem State.setCarc_bus (s : State) (x : Carc) : (s.setCarc x).bus = s.bus := rfl
@[simp] theorem State.setCarc_rings (s : State) (x : Carc) : (s.setCarc x).rings = s.rings := rfl
@[simp] theorem State.setCarc_pins (s : State) (x : Carc) : (s.setCarc x).pins = s.pins := rfl
@[simp] theorem State.setCarc_tally (s : State) (x : Carc) : (s.setCarc x).tally = s.tally := rfl
@[simp] theorem State.setCarc_mtr (s : State) (x : Carc) : (s.setCarc x).mtr = s.mtr := rfl
@[simp] theorem State.setCarc_mgt (s : State) (x : Carc) : (s.setCarc x).mgt = s.mgt := rfl
@[simp] theorem State.setCarc_drw (s : State) (x : Carc) : (s.setCarc x).drw = s.drw := rfl
@[simp] theorem State.setCarc_boot (s : State) (x : Carc) : (s.setCarc x).boot = s.boot := rfl
@[simp] theorem State.setCarc_aud (s : State) (x : Carc) : (s.setCarc x).aud = s.aud := rfl
@[simp] theorem State.setCarc_otp (s : State) (x : Carc) : (s.setCarc x).otp = s.otp := rfl
@[simp] theorem State.setCarc_sup (s : State) (x : Carc) : (s.setCarc x).sup = s.sup := rfl
@[simp] theorem State.setCarc_cool (s : State) (x : Carc) : (s.setCarc x).cool = s.cool := rfl
@[simp] theorem State.setCarc_vat (s : State) (x : Carc) : (s.setCarc x).vat = s.vat := rfl
@[simp] theorem State.setCarc_ddr (s : State) (x : Carc) : (s.setCarc x).ddr = s.ddr := rfl
@[simp] theorem State.setCarc_press (s : State) (x : Carc) : (s.setCarc x).press = s.press := rfl
@[simp] theorem State.setCarc_sec (s : State) (x : Carc) : (s.setCarc x).sec = s.sec := rfl
@[simp] theorem State.setCarc_ven (s : State) (x : Carc) : (s.setCarc x).ven = s.ven := rfl
@[simp] theorem State.setCarc_blades (s : State) (x : Carc) : (s.setCarc x).blades = s.blades := rfl
@[simp] theorem State.setCarc_ports (s : State) (x : Carc) : (s.setCarc x).ports = s.ports := rfl
@[simp] theorem State.setCarc_rails (s : State) (x : Carc) : (s.setCarc x).rails = s.rails := rfl
@[simp] theorem State.setCarc_par (s : State) (x : Carc) : (s.setCarc x).par = s.par := rfl
@[simp] theorem State.setCarc_sep (s : State) (x : Carc) : (s.setCarc x).sep = s.sep := rfl
@[simp] theorem State.setCarc_churn (s : State) (x : Carc) : (s.setCarc x).churn = s.churn := rfl
@[simp] theorem State.setCarc_carc (s : State) (x : Carc) : (s.setCarc x).carc = x := rfl
@[simp] theorem State.setCarc_cell (s : State) (x : Carc) : (s.setCarc x).cell = s.cell := rfl
@[simp] theorem State.setCarc_leaseU (s : State) (x : Carc) : (s.setCarc x).leaseU = s.leaseU := rfl
@[simp] theorem State.setCarc_ten (s : State) (x : Carc) : (s.setCarc x).ten = s.ten := rfl
@[simp] theorem State.setCarc_jig (s : State) (x : Carc) : (s.setCarc x).jig = s.jig := rfl
@[simp] theorem State.setCarc_draws (s : State) (x : Carc) : (s.setCarc x).draws = s.draws := rfl
@[simp] theorem State.setCarc_pending (s : State) (x : Carc) : (s.setCarc x).pending = s.pending := rfl
@[simp] theorem State.rd_setCarc (s : State) (x : Carc) (g : Fld) : (s.setCarc x).rd g = s.rd g := rfl

@[simp] theorem State.setCell_now (s : State) (x : Cell) : (s.setCell x).now = s.now := rfl
@[simp] theorem State.setCell_csr (s : State) (x : Cell) : (s.setCell x).csr = s.csr := rfl
@[simp] theorem State.setCell_mem (s : State) (x : Cell) : (s.setCell x).mem = s.mem := rfl
@[simp] theorem State.setCell_bus (s : State) (x : Cell) : (s.setCell x).bus = s.bus := rfl
@[simp] theorem State.setCell_rings (s : State) (x : Cell) : (s.setCell x).rings = s.rings := rfl
@[simp] theorem State.setCell_pins (s : State) (x : Cell) : (s.setCell x).pins = s.pins := rfl
@[simp] theorem State.setCell_tally (s : State) (x : Cell) : (s.setCell x).tally = s.tally := rfl
@[simp] theorem State.setCell_mtr (s : State) (x : Cell) : (s.setCell x).mtr = s.mtr := rfl
@[simp] theorem State.setCell_mgt (s : State) (x : Cell) : (s.setCell x).mgt = s.mgt := rfl
@[simp] theorem State.setCell_drw (s : State) (x : Cell) : (s.setCell x).drw = s.drw := rfl
@[simp] theorem State.setCell_boot (s : State) (x : Cell) : (s.setCell x).boot = s.boot := rfl
@[simp] theorem State.setCell_aud (s : State) (x : Cell) : (s.setCell x).aud = s.aud := rfl
@[simp] theorem State.setCell_otp (s : State) (x : Cell) : (s.setCell x).otp = s.otp := rfl
@[simp] theorem State.setCell_sup (s : State) (x : Cell) : (s.setCell x).sup = s.sup := rfl
@[simp] theorem State.setCell_cool (s : State) (x : Cell) : (s.setCell x).cool = s.cool := rfl
@[simp] theorem State.setCell_vat (s : State) (x : Cell) : (s.setCell x).vat = s.vat := rfl
@[simp] theorem State.setCell_ddr (s : State) (x : Cell) : (s.setCell x).ddr = s.ddr := rfl
@[simp] theorem State.setCell_press (s : State) (x : Cell) : (s.setCell x).press = s.press := rfl
@[simp] theorem State.setCell_sec (s : State) (x : Cell) : (s.setCell x).sec = s.sec := rfl
@[simp] theorem State.setCell_ven (s : State) (x : Cell) : (s.setCell x).ven = s.ven := rfl
@[simp] theorem State.setCell_blades (s : State) (x : Cell) : (s.setCell x).blades = s.blades := rfl
@[simp] theorem State.setCell_ports (s : State) (x : Cell) : (s.setCell x).ports = s.ports := rfl
@[simp] theorem State.setCell_rails (s : State) (x : Cell) : (s.setCell x).rails = s.rails := rfl
@[simp] theorem State.setCell_par (s : State) (x : Cell) : (s.setCell x).par = s.par := rfl
@[simp] theorem State.setCell_sep (s : State) (x : Cell) : (s.setCell x).sep = s.sep := rfl
@[simp] theorem State.setCell_churn (s : State) (x : Cell) : (s.setCell x).churn = s.churn := rfl
@[simp] theorem State.setCell_carc (s : State) (x : Cell) : (s.setCell x).carc = s.carc := rfl
@[simp] theorem State.setCell_cell (s : State) (x : Cell) : (s.setCell x).cell = x := rfl
@[simp] theorem State.setCell_leaseU (s : State) (x : Cell) : (s.setCell x).leaseU = s.leaseU := rfl
@[simp] theorem State.setCell_ten (s : State) (x : Cell) : (s.setCell x).ten = s.ten := rfl
@[simp] theorem State.setCell_jig (s : State) (x : Cell) : (s.setCell x).jig = s.jig := rfl
@[simp] theorem State.setCell_draws (s : State) (x : Cell) : (s.setCell x).draws = s.draws := rfl
@[simp] theorem State.setCell_pending (s : State) (x : Cell) : (s.setCell x).pending = s.pending := rfl
@[simp] theorem State.rd_setCell (s : State) (x : Cell) (g : Fld) : (s.setCell x).rd g = s.rd g := rfl

@[simp] theorem State.setChurn_now (s : State) (x : Churn) : (s.setChurn x).now = s.now := rfl
@[simp] theorem State.setChurn_csr (s : State) (x : Churn) : (s.setChurn x).csr = s.csr := rfl
@[simp] theorem State.setChurn_mem (s : State) (x : Churn) : (s.setChurn x).mem = s.mem := rfl
@[simp] theorem State.setChurn_bus (s : State) (x : Churn) : (s.setChurn x).bus = s.bus := rfl
@[simp] theorem State.setChurn_rings (s : State) (x : Churn) : (s.setChurn x).rings = s.rings := rfl
@[simp] theorem State.setChurn_pins (s : State) (x : Churn) : (s.setChurn x).pins = s.pins := rfl
@[simp] theorem State.setChurn_tally (s : State) (x : Churn) : (s.setChurn x).tally = s.tally := rfl
@[simp] theorem State.setChurn_mtr (s : State) (x : Churn) : (s.setChurn x).mtr = s.mtr := rfl
@[simp] theorem State.setChurn_mgt (s : State) (x : Churn) : (s.setChurn x).mgt = s.mgt := rfl
@[simp] theorem State.setChurn_drw (s : State) (x : Churn) : (s.setChurn x).drw = s.drw := rfl
@[simp] theorem State.setChurn_boot (s : State) (x : Churn) : (s.setChurn x).boot = s.boot := rfl
@[simp] theorem State.setChurn_aud (s : State) (x : Churn) : (s.setChurn x).aud = s.aud := rfl
@[simp] theorem State.setChurn_otp (s : State) (x : Churn) : (s.setChurn x).otp = s.otp := rfl
@[simp] theorem State.setChurn_sup (s : State) (x : Churn) : (s.setChurn x).sup = s.sup := rfl
@[simp] theorem State.setChurn_cool (s : State) (x : Churn) : (s.setChurn x).cool = s.cool := rfl
@[simp] theorem State.setChurn_vat (s : State) (x : Churn) : (s.setChurn x).vat = s.vat := rfl
@[simp] theorem State.setChurn_ddr (s : State) (x : Churn) : (s.setChurn x).ddr = s.ddr := rfl
@[simp] theorem State.setChurn_press (s : State) (x : Churn) : (s.setChurn x).press = s.press := rfl
@[simp] theorem State.setChurn_sec (s : State) (x : Churn) : (s.setChurn x).sec = s.sec := rfl
@[simp] theorem State.setChurn_ven (s : State) (x : Churn) : (s.setChurn x).ven = s.ven := rfl
@[simp] theorem State.setChurn_blades (s : State) (x : Churn) : (s.setChurn x).blades = s.blades := rfl
@[simp] theorem State.setChurn_ports (s : State) (x : Churn) : (s.setChurn x).ports = s.ports := rfl
@[simp] theorem State.setChurn_rails (s : State) (x : Churn) : (s.setChurn x).rails = s.rails := rfl
@[simp] theorem State.setChurn_par (s : State) (x : Churn) : (s.setChurn x).par = s.par := rfl
@[simp] theorem State.setChurn_sep (s : State) (x : Churn) : (s.setChurn x).sep = s.sep := rfl
@[simp] theorem State.setChurn_churn (s : State) (x : Churn) : (s.setChurn x).churn = x := rfl
@[simp] theorem State.setChurn_carc (s : State) (x : Churn) : (s.setChurn x).carc = s.carc := rfl
@[simp] theorem State.setChurn_cell (s : State) (x : Churn) : (s.setChurn x).cell = s.cell := rfl
@[simp] theorem State.setChurn_leaseU (s : State) (x : Churn) : (s.setChurn x).leaseU = s.leaseU := rfl
@[simp] theorem State.setChurn_ten (s : State) (x : Churn) : (s.setChurn x).ten = s.ten := rfl
@[simp] theorem State.setChurn_jig (s : State) (x : Churn) : (s.setChurn x).jig = s.jig := rfl
@[simp] theorem State.setChurn_draws (s : State) (x : Churn) : (s.setChurn x).draws = s.draws := rfl
@[simp] theorem State.setChurn_pending (s : State) (x : Churn) : (s.setChurn x).pending = s.pending := rfl
@[simp] theorem State.rd_setChurn (s : State) (x : Churn) (g : Fld) : (s.setChurn x).rd g = s.rd g := rfl

@[simp] theorem State.setCool_now (s : State) (x : Cool) : (s.setCool x).now = s.now := rfl
@[simp] theorem State.setCool_csr (s : State) (x : Cool) : (s.setCool x).csr = s.csr := rfl
@[simp] theorem State.setCool_mem (s : State) (x : Cool) : (s.setCool x).mem = s.mem := rfl
@[simp] theorem State.setCool_bus (s : State) (x : Cool) : (s.setCool x).bus = s.bus := rfl
@[simp] theorem State.setCool_rings (s : State) (x : Cool) : (s.setCool x).rings = s.rings := rfl
@[simp] theorem State.setCool_pins (s : State) (x : Cool) : (s.setCool x).pins = s.pins := rfl
@[simp] theorem State.setCool_tally (s : State) (x : Cool) : (s.setCool x).tally = s.tally := rfl
@[simp] theorem State.setCool_mtr (s : State) (x : Cool) : (s.setCool x).mtr = s.mtr := rfl
@[simp] theorem State.setCool_mgt (s : State) (x : Cool) : (s.setCool x).mgt = s.mgt := rfl
@[simp] theorem State.setCool_drw (s : State) (x : Cool) : (s.setCool x).drw = s.drw := rfl
@[simp] theorem State.setCool_boot (s : State) (x : Cool) : (s.setCool x).boot = s.boot := rfl
@[simp] theorem State.setCool_aud (s : State) (x : Cool) : (s.setCool x).aud = s.aud := rfl
@[simp] theorem State.setCool_otp (s : State) (x : Cool) : (s.setCool x).otp = s.otp := rfl
@[simp] theorem State.setCool_sup (s : State) (x : Cool) : (s.setCool x).sup = s.sup := rfl
@[simp] theorem State.setCool_cool (s : State) (x : Cool) : (s.setCool x).cool = x := rfl
@[simp] theorem State.setCool_vat (s : State) (x : Cool) : (s.setCool x).vat = s.vat := rfl
@[simp] theorem State.setCool_ddr (s : State) (x : Cool) : (s.setCool x).ddr = s.ddr := rfl
@[simp] theorem State.setCool_press (s : State) (x : Cool) : (s.setCool x).press = s.press := rfl
@[simp] theorem State.setCool_sec (s : State) (x : Cool) : (s.setCool x).sec = s.sec := rfl
@[simp] theorem State.setCool_ven (s : State) (x : Cool) : (s.setCool x).ven = s.ven := rfl
@[simp] theorem State.setCool_blades (s : State) (x : Cool) : (s.setCool x).blades = s.blades := rfl
@[simp] theorem State.setCool_ports (s : State) (x : Cool) : (s.setCool x).ports = s.ports := rfl
@[simp] theorem State.setCool_rails (s : State) (x : Cool) : (s.setCool x).rails = s.rails := rfl
@[simp] theorem State.setCool_par (s : State) (x : Cool) : (s.setCool x).par = s.par := rfl
@[simp] theorem State.setCool_sep (s : State) (x : Cool) : (s.setCool x).sep = s.sep := rfl
@[simp] theorem State.setCool_churn (s : State) (x : Cool) : (s.setCool x).churn = s.churn := rfl
@[simp] theorem State.setCool_carc (s : State) (x : Cool) : (s.setCool x).carc = s.carc := rfl
@[simp] theorem State.setCool_cell (s : State) (x : Cool) : (s.setCool x).cell = s.cell := rfl
@[simp] theorem State.setCool_leaseU (s : State) (x : Cool) : (s.setCool x).leaseU = s.leaseU := rfl
@[simp] theorem State.setCool_ten (s : State) (x : Cool) : (s.setCool x).ten = s.ten := rfl
@[simp] theorem State.setCool_jig (s : State) (x : Cool) : (s.setCool x).jig = s.jig := rfl
@[simp] theorem State.setCool_draws (s : State) (x : Cool) : (s.setCool x).draws = s.draws := rfl
@[simp] theorem State.setCool_pending (s : State) (x : Cool) : (s.setCool x).pending = s.pending := rfl
@[simp] theorem State.rd_setCool (s : State) (x : Cool) (g : Fld) : (s.setCool x).rd g = s.rd g := rfl

@[simp] theorem State.setPar_now (s : State) (x : Par) : (s.setPar x).now = s.now := rfl
@[simp] theorem State.setPar_csr (s : State) (x : Par) : (s.setPar x).csr = s.csr := rfl
@[simp] theorem State.setPar_mem (s : State) (x : Par) : (s.setPar x).mem = s.mem := rfl
@[simp] theorem State.setPar_bus (s : State) (x : Par) : (s.setPar x).bus = s.bus := rfl
@[simp] theorem State.setPar_rings (s : State) (x : Par) : (s.setPar x).rings = s.rings := rfl
@[simp] theorem State.setPar_pins (s : State) (x : Par) : (s.setPar x).pins = s.pins := rfl
@[simp] theorem State.setPar_tally (s : State) (x : Par) : (s.setPar x).tally = s.tally := rfl
@[simp] theorem State.setPar_mtr (s : State) (x : Par) : (s.setPar x).mtr = s.mtr := rfl
@[simp] theorem State.setPar_mgt (s : State) (x : Par) : (s.setPar x).mgt = s.mgt := rfl
@[simp] theorem State.setPar_drw (s : State) (x : Par) : (s.setPar x).drw = s.drw := rfl
@[simp] theorem State.setPar_boot (s : State) (x : Par) : (s.setPar x).boot = s.boot := rfl
@[simp] theorem State.setPar_aud (s : State) (x : Par) : (s.setPar x).aud = s.aud := rfl
@[simp] theorem State.setPar_otp (s : State) (x : Par) : (s.setPar x).otp = s.otp := rfl
@[simp] theorem State.setPar_sup (s : State) (x : Par) : (s.setPar x).sup = s.sup := rfl
@[simp] theorem State.setPar_cool (s : State) (x : Par) : (s.setPar x).cool = s.cool := rfl
@[simp] theorem State.setPar_vat (s : State) (x : Par) : (s.setPar x).vat = s.vat := rfl
@[simp] theorem State.setPar_ddr (s : State) (x : Par) : (s.setPar x).ddr = s.ddr := rfl
@[simp] theorem State.setPar_press (s : State) (x : Par) : (s.setPar x).press = s.press := rfl
@[simp] theorem State.setPar_sec (s : State) (x : Par) : (s.setPar x).sec = s.sec := rfl
@[simp] theorem State.setPar_ven (s : State) (x : Par) : (s.setPar x).ven = s.ven := rfl
@[simp] theorem State.setPar_blades (s : State) (x : Par) : (s.setPar x).blades = s.blades := rfl
@[simp] theorem State.setPar_ports (s : State) (x : Par) : (s.setPar x).ports = s.ports := rfl
@[simp] theorem State.setPar_rails (s : State) (x : Par) : (s.setPar x).rails = s.rails := rfl
@[simp] theorem State.setPar_par (s : State) (x : Par) : (s.setPar x).par = x := rfl
@[simp] theorem State.setPar_sep (s : State) (x : Par) : (s.setPar x).sep = s.sep := rfl
@[simp] theorem State.setPar_churn (s : State) (x : Par) : (s.setPar x).churn = s.churn := rfl
@[simp] theorem State.setPar_carc (s : State) (x : Par) : (s.setPar x).carc = s.carc := rfl
@[simp] theorem State.setPar_cell (s : State) (x : Par) : (s.setPar x).cell = s.cell := rfl
@[simp] theorem State.setPar_leaseU (s : State) (x : Par) : (s.setPar x).leaseU = s.leaseU := rfl
@[simp] theorem State.setPar_ten (s : State) (x : Par) : (s.setPar x).ten = s.ten := rfl
@[simp] theorem State.setPar_jig (s : State) (x : Par) : (s.setPar x).jig = s.jig := rfl
@[simp] theorem State.setPar_draws (s : State) (x : Par) : (s.setPar x).draws = s.draws := rfl
@[simp] theorem State.setPar_pending (s : State) (x : Par) : (s.setPar x).pending = s.pending := rfl
@[simp] theorem State.rd_setPar (s : State) (x : Par) (g : Fld) : (s.setPar x).rd g = s.rd g := rfl

@[simp] theorem State.setTen_now (s : State) (x : Tenon) : (s.setTen x).now = s.now := rfl
@[simp] theorem State.setTen_csr (s : State) (x : Tenon) : (s.setTen x).csr = s.csr := rfl
@[simp] theorem State.setTen_mem (s : State) (x : Tenon) : (s.setTen x).mem = s.mem := rfl
@[simp] theorem State.setTen_bus (s : State) (x : Tenon) : (s.setTen x).bus = s.bus := rfl
@[simp] theorem State.setTen_rings (s : State) (x : Tenon) : (s.setTen x).rings = s.rings := rfl
@[simp] theorem State.setTen_pins (s : State) (x : Tenon) : (s.setTen x).pins = s.pins := rfl
@[simp] theorem State.setTen_tally (s : State) (x : Tenon) : (s.setTen x).tally = s.tally := rfl
@[simp] theorem State.setTen_mtr (s : State) (x : Tenon) : (s.setTen x).mtr = s.mtr := rfl
@[simp] theorem State.setTen_mgt (s : State) (x : Tenon) : (s.setTen x).mgt = s.mgt := rfl
@[simp] theorem State.setTen_drw (s : State) (x : Tenon) : (s.setTen x).drw = s.drw := rfl
@[simp] theorem State.setTen_boot (s : State) (x : Tenon) : (s.setTen x).boot = s.boot := rfl
@[simp] theorem State.setTen_aud (s : State) (x : Tenon) : (s.setTen x).aud = s.aud := rfl
@[simp] theorem State.setTen_otp (s : State) (x : Tenon) : (s.setTen x).otp = s.otp := rfl
@[simp] theorem State.setTen_sup (s : State) (x : Tenon) : (s.setTen x).sup = s.sup := rfl
@[simp] theorem State.setTen_cool (s : State) (x : Tenon) : (s.setTen x).cool = s.cool := rfl
@[simp] theorem State.setTen_vat (s : State) (x : Tenon) : (s.setTen x).vat = s.vat := rfl
@[simp] theorem State.setTen_ddr (s : State) (x : Tenon) : (s.setTen x).ddr = s.ddr := rfl
@[simp] theorem State.setTen_press (s : State) (x : Tenon) : (s.setTen x).press = s.press := rfl
@[simp] theorem State.setTen_sec (s : State) (x : Tenon) : (s.setTen x).sec = s.sec := rfl
@[simp] theorem State.setTen_ven (s : State) (x : Tenon) : (s.setTen x).ven = s.ven := rfl
@[simp] theorem State.setTen_blades (s : State) (x : Tenon) : (s.setTen x).blades = s.blades := rfl
@[simp] theorem State.setTen_ports (s : State) (x : Tenon) : (s.setTen x).ports = s.ports := rfl
@[simp] theorem State.setTen_rails (s : State) (x : Tenon) : (s.setTen x).rails = s.rails := rfl
@[simp] theorem State.setTen_par (s : State) (x : Tenon) : (s.setTen x).par = s.par := rfl
@[simp] theorem State.setTen_sep (s : State) (x : Tenon) : (s.setTen x).sep = s.sep := rfl
@[simp] theorem State.setTen_churn (s : State) (x : Tenon) : (s.setTen x).churn = s.churn := rfl
@[simp] theorem State.setTen_carc (s : State) (x : Tenon) : (s.setTen x).carc = s.carc := rfl
@[simp] theorem State.setTen_cell (s : State) (x : Tenon) : (s.setTen x).cell = s.cell := rfl
@[simp] theorem State.setTen_leaseU (s : State) (x : Tenon) : (s.setTen x).leaseU = s.leaseU := rfl
@[simp] theorem State.setTen_ten (s : State) (x : Tenon) : (s.setTen x).ten = x := rfl
@[simp] theorem State.setTen_jig (s : State) (x : Tenon) : (s.setTen x).jig = s.jig := rfl
@[simp] theorem State.setTen_draws (s : State) (x : Tenon) : (s.setTen x).draws = s.draws := rfl
@[simp] theorem State.setTen_pending (s : State) (x : Tenon) : (s.setTen x).pending = s.pending := rfl
@[simp] theorem State.rd_setTen (s : State) (x : Tenon) (g : Fld) : (s.setTen x).rd g = s.rd g := rfl

@[simp] theorem State.setRails_now (s : State) (x : Rails) : (s.setRails x).now = s.now := rfl
@[simp] theorem State.setRails_csr (s : State) (x : Rails) : (s.setRails x).csr = s.csr := rfl
@[simp] theorem State.setRails_mem (s : State) (x : Rails) : (s.setRails x).mem = s.mem := rfl
@[simp] theorem State.setRails_bus (s : State) (x : Rails) : (s.setRails x).bus = s.bus := rfl
@[simp] theorem State.setRails_rings (s : State) (x : Rails) : (s.setRails x).rings = s.rings := rfl
@[simp] theorem State.setRails_pins (s : State) (x : Rails) : (s.setRails x).pins = s.pins := rfl
@[simp] theorem State.setRails_tally (s : State) (x : Rails) : (s.setRails x).tally = s.tally := rfl
@[simp] theorem State.setRails_mtr (s : State) (x : Rails) : (s.setRails x).mtr = s.mtr := rfl
@[simp] theorem State.setRails_mgt (s : State) (x : Rails) : (s.setRails x).mgt = s.mgt := rfl
@[simp] theorem State.setRails_drw (s : State) (x : Rails) : (s.setRails x).drw = s.drw := rfl
@[simp] theorem State.setRails_boot (s : State) (x : Rails) : (s.setRails x).boot = s.boot := rfl
@[simp] theorem State.setRails_aud (s : State) (x : Rails) : (s.setRails x).aud = s.aud := rfl
@[simp] theorem State.setRails_otp (s : State) (x : Rails) : (s.setRails x).otp = s.otp := rfl
@[simp] theorem State.setRails_sup (s : State) (x : Rails) : (s.setRails x).sup = s.sup := rfl
@[simp] theorem State.setRails_cool (s : State) (x : Rails) : (s.setRails x).cool = s.cool := rfl
@[simp] theorem State.setRails_vat (s : State) (x : Rails) : (s.setRails x).vat = s.vat := rfl
@[simp] theorem State.setRails_ddr (s : State) (x : Rails) : (s.setRails x).ddr = s.ddr := rfl
@[simp] theorem State.setRails_press (s : State) (x : Rails) : (s.setRails x).press = s.press := rfl
@[simp] theorem State.setRails_sec (s : State) (x : Rails) : (s.setRails x).sec = s.sec := rfl
@[simp] theorem State.setRails_ven (s : State) (x : Rails) : (s.setRails x).ven = s.ven := rfl
@[simp] theorem State.setRails_blades (s : State) (x : Rails) : (s.setRails x).blades = s.blades := rfl
@[simp] theorem State.setRails_ports (s : State) (x : Rails) : (s.setRails x).ports = s.ports := rfl
@[simp] theorem State.setRails_rails (s : State) (x : Rails) : (s.setRails x).rails = x := rfl
@[simp] theorem State.setRails_par (s : State) (x : Rails) : (s.setRails x).par = s.par := rfl
@[simp] theorem State.setRails_sep (s : State) (x : Rails) : (s.setRails x).sep = s.sep := rfl
@[simp] theorem State.setRails_churn (s : State) (x : Rails) : (s.setRails x).churn = s.churn := rfl
@[simp] theorem State.setRails_carc (s : State) (x : Rails) : (s.setRails x).carc = s.carc := rfl
@[simp] theorem State.setRails_cell (s : State) (x : Rails) : (s.setRails x).cell = s.cell := rfl
@[simp] theorem State.setRails_leaseU (s : State) (x : Rails) : (s.setRails x).leaseU = s.leaseU := rfl
@[simp] theorem State.setRails_ten (s : State) (x : Rails) : (s.setRails x).ten = s.ten := rfl
@[simp] theorem State.setRails_jig (s : State) (x : Rails) : (s.setRails x).jig = s.jig := rfl
@[simp] theorem State.setRails_draws (s : State) (x : Rails) : (s.setRails x).draws = s.draws := rfl
@[simp] theorem State.setRails_pending (s : State) (x : Rails) : (s.setRails x).pending = s.pending := rfl
@[simp] theorem State.rd_setRails (s : State) (x : Rails) (g : Fld) : (s.setRails x).rd g = s.rd g := rfl

@[simp] theorem State.setSep_now (s : State) (x : Sep) : (s.setSep x).now = s.now := rfl
@[simp] theorem State.setSep_csr (s : State) (x : Sep) : (s.setSep x).csr = s.csr := rfl
@[simp] theorem State.setSep_mem (s : State) (x : Sep) : (s.setSep x).mem = s.mem := rfl
@[simp] theorem State.setSep_bus (s : State) (x : Sep) : (s.setSep x).bus = s.bus := rfl
@[simp] theorem State.setSep_rings (s : State) (x : Sep) : (s.setSep x).rings = s.rings := rfl
@[simp] theorem State.setSep_pins (s : State) (x : Sep) : (s.setSep x).pins = s.pins := rfl
@[simp] theorem State.setSep_tally (s : State) (x : Sep) : (s.setSep x).tally = s.tally := rfl
@[simp] theorem State.setSep_mtr (s : State) (x : Sep) : (s.setSep x).mtr = s.mtr := rfl
@[simp] theorem State.setSep_mgt (s : State) (x : Sep) : (s.setSep x).mgt = s.mgt := rfl
@[simp] theorem State.setSep_drw (s : State) (x : Sep) : (s.setSep x).drw = s.drw := rfl
@[simp] theorem State.setSep_boot (s : State) (x : Sep) : (s.setSep x).boot = s.boot := rfl
@[simp] theorem State.setSep_aud (s : State) (x : Sep) : (s.setSep x).aud = s.aud := rfl
@[simp] theorem State.setSep_otp (s : State) (x : Sep) : (s.setSep x).otp = s.otp := rfl
@[simp] theorem State.setSep_sup (s : State) (x : Sep) : (s.setSep x).sup = s.sup := rfl
@[simp] theorem State.setSep_cool (s : State) (x : Sep) : (s.setSep x).cool = s.cool := rfl
@[simp] theorem State.setSep_vat (s : State) (x : Sep) : (s.setSep x).vat = s.vat := rfl
@[simp] theorem State.setSep_ddr (s : State) (x : Sep) : (s.setSep x).ddr = s.ddr := rfl
@[simp] theorem State.setSep_press (s : State) (x : Sep) : (s.setSep x).press = s.press := rfl
@[simp] theorem State.setSep_sec (s : State) (x : Sep) : (s.setSep x).sec = s.sec := rfl
@[simp] theorem State.setSep_ven (s : State) (x : Sep) : (s.setSep x).ven = s.ven := rfl
@[simp] theorem State.setSep_blades (s : State) (x : Sep) : (s.setSep x).blades = s.blades := rfl
@[simp] theorem State.setSep_ports (s : State) (x : Sep) : (s.setSep x).ports = s.ports := rfl
@[simp] theorem State.setSep_rails (s : State) (x : Sep) : (s.setSep x).rails = s.rails := rfl
@[simp] theorem State.setSep_par (s : State) (x : Sep) : (s.setSep x).par = s.par := rfl
@[simp] theorem State.setSep_sep (s : State) (x : Sep) : (s.setSep x).sep = x := rfl
@[simp] theorem State.setSep_churn (s : State) (x : Sep) : (s.setSep x).churn = s.churn := rfl
@[simp] theorem State.setSep_carc (s : State) (x : Sep) : (s.setSep x).carc = s.carc := rfl
@[simp] theorem State.setSep_cell (s : State) (x : Sep) : (s.setSep x).cell = s.cell := rfl
@[simp] theorem State.setSep_leaseU (s : State) (x : Sep) : (s.setSep x).leaseU = s.leaseU := rfl
@[simp] theorem State.setSep_ten (s : State) (x : Sep) : (s.setSep x).ten = s.ten := rfl
@[simp] theorem State.setSep_jig (s : State) (x : Sep) : (s.setSep x).jig = s.jig := rfl
@[simp] theorem State.setSep_draws (s : State) (x : Sep) : (s.setSep x).draws = s.draws := rfl
@[simp] theorem State.setSep_pending (s : State) (x : Sep) : (s.setSep x).pending = s.pending := rfl
@[simp] theorem State.rd_setSep (s : State) (x : Sep) (g : Fld) : (s.setSep x).rd g = s.rd g := rfl

@[simp] theorem State.setVat_now (s : State) (x : Vat) : (s.setVat x).now = s.now := rfl
@[simp] theorem State.setVat_csr (s : State) (x : Vat) : (s.setVat x).csr = s.csr := rfl
@[simp] theorem State.setVat_mem (s : State) (x : Vat) : (s.setVat x).mem = s.mem := rfl
@[simp] theorem State.setVat_bus (s : State) (x : Vat) : (s.setVat x).bus = s.bus := rfl
@[simp] theorem State.setVat_rings (s : State) (x : Vat) : (s.setVat x).rings = s.rings := rfl
@[simp] theorem State.setVat_pins (s : State) (x : Vat) : (s.setVat x).pins = s.pins := rfl
@[simp] theorem State.setVat_tally (s : State) (x : Vat) : (s.setVat x).tally = s.tally := rfl
@[simp] theorem State.setVat_mtr (s : State) (x : Vat) : (s.setVat x).mtr = s.mtr := rfl
@[simp] theorem State.setVat_mgt (s : State) (x : Vat) : (s.setVat x).mgt = s.mgt := rfl
@[simp] theorem State.setVat_drw (s : State) (x : Vat) : (s.setVat x).drw = s.drw := rfl
@[simp] theorem State.setVat_boot (s : State) (x : Vat) : (s.setVat x).boot = s.boot := rfl
@[simp] theorem State.setVat_aud (s : State) (x : Vat) : (s.setVat x).aud = s.aud := rfl
@[simp] theorem State.setVat_otp (s : State) (x : Vat) : (s.setVat x).otp = s.otp := rfl
@[simp] theorem State.setVat_sup (s : State) (x : Vat) : (s.setVat x).sup = s.sup := rfl
@[simp] theorem State.setVat_cool (s : State) (x : Vat) : (s.setVat x).cool = s.cool := rfl
@[simp] theorem State.setVat_vat (s : State) (x : Vat) : (s.setVat x).vat = x := rfl
@[simp] theorem State.setVat_ddr (s : State) (x : Vat) : (s.setVat x).ddr = s.ddr := rfl
@[simp] theorem State.setVat_press (s : State) (x : Vat) : (s.setVat x).press = s.press := rfl
@[simp] theorem State.setVat_sec (s : State) (x : Vat) : (s.setVat x).sec = s.sec := rfl
@[simp] theorem State.setVat_ven (s : State) (x : Vat) : (s.setVat x).ven = s.ven := rfl
@[simp] theorem State.setVat_blades (s : State) (x : Vat) : (s.setVat x).blades = s.blades := rfl
@[simp] theorem State.setVat_ports (s : State) (x : Vat) : (s.setVat x).ports = s.ports := rfl
@[simp] theorem State.setVat_rails (s : State) (x : Vat) : (s.setVat x).rails = s.rails := rfl
@[simp] theorem State.setVat_par (s : State) (x : Vat) : (s.setVat x).par = s.par := rfl
@[simp] theorem State.setVat_sep (s : State) (x : Vat) : (s.setVat x).sep = s.sep := rfl
@[simp] theorem State.setVat_churn (s : State) (x : Vat) : (s.setVat x).churn = s.churn := rfl
@[simp] theorem State.setVat_carc (s : State) (x : Vat) : (s.setVat x).carc = s.carc := rfl
@[simp] theorem State.setVat_cell (s : State) (x : Vat) : (s.setVat x).cell = s.cell := rfl
@[simp] theorem State.setVat_leaseU (s : State) (x : Vat) : (s.setVat x).leaseU = s.leaseU := rfl
@[simp] theorem State.setVat_ten (s : State) (x : Vat) : (s.setVat x).ten = s.ten := rfl
@[simp] theorem State.setVat_jig (s : State) (x : Vat) : (s.setVat x).jig = s.jig := rfl
@[simp] theorem State.setVat_draws (s : State) (x : Vat) : (s.setVat x).draws = s.draws := rfl
@[simp] theorem State.setVat_pending (s : State) (x : Vat) : (s.setVat x).pending = s.pending := rfl
@[simp] theorem State.rd_setVat (s : State) (x : Vat) (g : Fld) : (s.setVat x).rd g = s.rd g := rfl

@[simp] theorem State.setVen_now (s : State) (x : Ven) : (s.setVen x).now = s.now := rfl
@[simp] theorem State.setVen_csr (s : State) (x : Ven) : (s.setVen x).csr = s.csr := rfl
@[simp] theorem State.setVen_mem (s : State) (x : Ven) : (s.setVen x).mem = s.mem := rfl
@[simp] theorem State.setVen_bus (s : State) (x : Ven) : (s.setVen x).bus = s.bus := rfl
@[simp] theorem State.setVen_rings (s : State) (x : Ven) : (s.setVen x).rings = s.rings := rfl
@[simp] theorem State.setVen_pins (s : State) (x : Ven) : (s.setVen x).pins = s.pins := rfl
@[simp] theorem State.setVen_tally (s : State) (x : Ven) : (s.setVen x).tally = s.tally := rfl
@[simp] theorem State.setVen_mtr (s : State) (x : Ven) : (s.setVen x).mtr = s.mtr := rfl
@[simp] theorem State.setVen_mgt (s : State) (x : Ven) : (s.setVen x).mgt = s.mgt := rfl
@[simp] theorem State.setVen_drw (s : State) (x : Ven) : (s.setVen x).drw = s.drw := rfl
@[simp] theorem State.setVen_boot (s : State) (x : Ven) : (s.setVen x).boot = s.boot := rfl
@[simp] theorem State.setVen_aud (s : State) (x : Ven) : (s.setVen x).aud = s.aud := rfl
@[simp] theorem State.setVen_otp (s : State) (x : Ven) : (s.setVen x).otp = s.otp := rfl
@[simp] theorem State.setVen_sup (s : State) (x : Ven) : (s.setVen x).sup = s.sup := rfl
@[simp] theorem State.setVen_cool (s : State) (x : Ven) : (s.setVen x).cool = s.cool := rfl
@[simp] theorem State.setVen_vat (s : State) (x : Ven) : (s.setVen x).vat = s.vat := rfl
@[simp] theorem State.setVen_ddr (s : State) (x : Ven) : (s.setVen x).ddr = s.ddr := rfl
@[simp] theorem State.setVen_press (s : State) (x : Ven) : (s.setVen x).press = s.press := rfl
@[simp] theorem State.setVen_sec (s : State) (x : Ven) : (s.setVen x).sec = s.sec := rfl
@[simp] theorem State.setVen_ven (s : State) (x : Ven) : (s.setVen x).ven = x := rfl
@[simp] theorem State.setVen_blades (s : State) (x : Ven) : (s.setVen x).blades = s.blades := rfl
@[simp] theorem State.setVen_ports (s : State) (x : Ven) : (s.setVen x).ports = s.ports := rfl
@[simp] theorem State.setVen_rails (s : State) (x : Ven) : (s.setVen x).rails = s.rails := rfl
@[simp] theorem State.setVen_par (s : State) (x : Ven) : (s.setVen x).par = s.par := rfl
@[simp] theorem State.setVen_sep (s : State) (x : Ven) : (s.setVen x).sep = s.sep := rfl
@[simp] theorem State.setVen_churn (s : State) (x : Ven) : (s.setVen x).churn = s.churn := rfl
@[simp] theorem State.setVen_carc (s : State) (x : Ven) : (s.setVen x).carc = s.carc := rfl
@[simp] theorem State.setVen_cell (s : State) (x : Ven) : (s.setVen x).cell = s.cell := rfl
@[simp] theorem State.setVen_leaseU (s : State) (x : Ven) : (s.setVen x).leaseU = s.leaseU := rfl
@[simp] theorem State.setVen_ten (s : State) (x : Ven) : (s.setVen x).ten = s.ten := rfl
@[simp] theorem State.setVen_jig (s : State) (x : Ven) : (s.setVen x).jig = s.jig := rfl
@[simp] theorem State.setVen_draws (s : State) (x : Ven) : (s.setVen x).draws = s.draws := rfl
@[simp] theorem State.setVen_pending (s : State) (x : Ven) : (s.setVen x).pending = s.pending := rfl
@[simp] theorem State.rd_setVen (s : State) (x : Ven) (g : Fld) : (s.setVen x).rd g = s.rd g := rfl

@[simp] theorem State.tick_now (s : State) : (s.tick).now = (s.now + 1) % 2 ^ 64 := rfl
@[simp] theorem State.tick_csr (s : State) : (s.tick).csr = s.csr := rfl
@[simp] theorem State.tick_mem (s : State) : (s.tick).mem = s.mem := rfl
@[simp] theorem State.tick_bus (s : State) : (s.tick).bus = s.bus := rfl
@[simp] theorem State.tick_rings (s : State) : (s.tick).rings = s.rings := rfl
@[simp] theorem State.tick_pins (s : State) : (s.tick).pins = s.pins := rfl
@[simp] theorem State.tick_tally (s : State) : (s.tick).tally = s.tally := rfl
@[simp] theorem State.tick_mtr (s : State) : (s.tick).mtr = s.mtr := rfl
@[simp] theorem State.tick_mgt (s : State) : (s.tick).mgt = s.mgt := rfl
@[simp] theorem State.tick_drw (s : State) : (s.tick).drw = s.drw := rfl
@[simp] theorem State.tick_boot (s : State) : (s.tick).boot = s.boot := rfl
@[simp] theorem State.tick_aud (s : State) : (s.tick).aud = s.aud := rfl
@[simp] theorem State.tick_otp (s : State) : (s.tick).otp = s.otp := rfl
@[simp] theorem State.tick_sup (s : State) : (s.tick).sup = s.sup := rfl
@[simp] theorem State.tick_cool (s : State) : (s.tick).cool = s.cool := rfl
@[simp] theorem State.tick_vat (s : State) : (s.tick).vat = s.vat := rfl
@[simp] theorem State.tick_ddr (s : State) : (s.tick).ddr = s.ddr := rfl
@[simp] theorem State.tick_press (s : State) : (s.tick).press = s.press := rfl
@[simp] theorem State.tick_sec (s : State) : (s.tick).sec = s.sec := rfl
@[simp] theorem State.tick_ven (s : State) : (s.tick).ven = s.ven := rfl
@[simp] theorem State.tick_blades (s : State) : (s.tick).blades = s.blades := rfl
@[simp] theorem State.tick_ports (s : State) : (s.tick).ports = s.ports := rfl
@[simp] theorem State.tick_rails (s : State) : (s.tick).rails = s.rails := rfl
@[simp] theorem State.tick_par (s : State) : (s.tick).par = s.par := rfl
@[simp] theorem State.tick_sep (s : State) : (s.tick).sep = s.sep := rfl
@[simp] theorem State.tick_churn (s : State) : (s.tick).churn = s.churn := rfl
@[simp] theorem State.tick_carc (s : State) : (s.tick).carc = s.carc := rfl
@[simp] theorem State.tick_cell (s : State) : (s.tick).cell = s.cell := rfl
@[simp] theorem State.tick_leaseU (s : State) : (s.tick).leaseU = s.leaseU := rfl
@[simp] theorem State.tick_ten (s : State) : (s.tick).ten = s.ten := rfl
@[simp] theorem State.tick_jig (s : State) : (s.tick).jig = s.jig := rfl
@[simp] theorem State.tick_draws (s : State) : (s.tick).draws = s.draws := rfl
@[simp] theorem State.tick_pending (s : State) : (s.tick).pending = s.pending := rfl
@[simp] theorem State.rd_tick (s : State) (g : Fld) : (s.tick).rd g = s.rd g := rfl

/-- A field reads what was written to it, cut to its width. -/
@[simp] theorem State.rd_wr_self (s : State) (f : Fld) (v : Nat) : (s.wr f v).rd f = v % 2 ^ f.w := by
  simp [State.rd, State.wr]

/-- A write leaves every field at another place as it is. -/
theorem State.rd_wr_ne (s : State) {f g : Fld} (v : Nat) (h : g.key ≠ f.key) : (s.wr f v).rd g = s.rd g := by
  simp [State.rd, State.wr, Tab.getD_set_ne _ _ _ h]

/-- Registers at different offsets are different places. -/
theorem Fld.key_ne {f g : Fld} (h : f.reg ≠ g.reg) (hf : f.lo < 64) (hg : g.lo < 64) : f.key ≠ g.key := by
  simp only [Fld.key]; omega

theorem State.rd_wr_reg (s : State) {f g : Fld} (v : Nat) (h : g.reg ≠ f.reg) (hg : g.lo < 64) (hf : f.lo < 64) :
    (s.wr f v).rd g = s.rd g := s.rd_wr_ne v (Fld.key_ne h hg hf)

/-- A ring reads back as it was set; the others stay. -/
@[simp] theorem State.ring_setRing (s : State) (u : UnitId) (r : Nat) (x : Ring) : (s.setRing u r x).ring u r = x := by
  simp [State.ring, State.setRing]

theorem State.ring_setRing_ne (s : State) {u v : UnitId} {r q : Nat} (x : Ring) (h : ringKey v q ≠ ringKey u r) :
    (s.setRing u r x).ring v q = s.ring v q := by
  simp [State.ring, State.setRing, Tab.getD_set_ne _ _ _ h]

end Sys2Proof.Machine
end

