-- ==== Sys2Proof/Laws/Ops.lean ====
section
/-! SUPPORT. What each operation that the units share can do, said once: which fields of State it touches, and that it keeps
what every step keeps. -/
namespace Sys2Proof.Machine
open Sys2Proof

/-! ## What every operation keeps -/

/-- The state `t` keeps, from `s` on, the canonical form, every fuse that is set, and the queue. -/
structure State.Keeps (s t : State) : Prop where
  canonical : s.Canonical → t.Canonical
  fuses : Memory.wf s.otp = true → Memory.wf t.otp = true ∧ s.OtpWithin t
  queue : t.pending = s.pending

theorem State.OtpWithin.refl (s : State) : s.OtpWithin s := fun _ => by simp

theorem State.OtpWithin.of_eq {s t : State} (h : t.otp = s.otp) : s.OtpWithin t := fun _ => by simp [h]

theorem State.OtpWithin.trans {s t u : State} (h : s.OtpWithin t) (k : t.OtpWithin u) : s.OtpWithin u := fun a => by
  have h1 := h a
  have h2 := k a
  rw [← h2, ← BitVec.or_assoc, h1]

theorem State.Keeps.refl (s : State) : s.Keeps s := ⟨id, fun h => ⟨h, .refl s⟩, rfl⟩

theorem State.Keeps.trans {s t u : State} (h : s.Keeps t) (k : t.Keeps u) : s.Keeps u :=
  ⟨fun c => k.canonical (h.canonical c),
   fun w => ⟨(k.fuses (h.fuses w).1).1, (h.fuses w).2.trans (k.fuses (h.fuses w).1).2⟩, k.queue.trans h.queue⟩

/-- A change of any other field keeps it all. -/
theorem State.Keeps.of_eq {s t : State} (hm : t.mem = s.mem) (ho : t.otp = s.otp) (hc : t.csr = s.csr)
    (hp : t.pending = s.pending) : s.Keeps t :=
  ⟨fun c => ⟨hm ▸ c.mem, ho ▸ c.otp, hc ▸ c.csr⟩, fun w => ⟨ho ▸ w, .of_eq ho⟩, hp⟩

/-- A change of memory and registers that each keep their form. -/
theorem State.Keeps.of_forms {s t : State} (hm : Memory.wf s.mem = true → Memory.wf t.mem = true) (ho : t.otp = s.otp)
    (hc : Tab.sorted s.csr = true → Tab.sorted t.csr = true) (hp : t.pending = s.pending) : s.Keeps t :=
  ⟨fun c => ⟨hm c.mem, ho ▸ c.otp, hc c.csr⟩, fun w => ⟨ho ▸ w, .of_eq ho⟩, hp⟩

theorem State.Keeps.foldl {α : Type} (f : State → α → State) (h : ∀ (s : State) (a : α), s.Keeps (f s a)) :
    ∀ (l : List α) (s : State), s.Keeps (l.foldl f s)
  | [], s => .refl s
  | a :: l, s => (h s a).trans (State.Keeps.foldl f h l (f s a))

theorem State.Keeps.ite {s t u : State} {p : Prop} [Decidable p] (h : p → s.Keeps t) (k : ¬ p → s.Keeps u) :
    s.Keeps (if p then t else u) := by split <;> simp_all

/-! ## Registers, the Tally, access errors -/

theorem State.keeps_wr (s : State) (f : Fld) (v : Nat) : s.Keeps (s.wr f v) :=
  .of_forms id rfl (Tab.sorted_set _ _ _) rfl

theorem State.keeps_bump (s : State) (f : Fld) (n : Nat) : s.Keeps (s.bump f n) := s.keeps_wr _ _
theorem State.keeps_drop (s : State) (f : Fld) (n : Nat) : s.Keeps (s.drop f n) := s.keeps_wr _ _
theorem State.keeps_wrBit (s : State) (f : Fld) (i : Nat) (b : Bool) : s.Keeps (s.wrBit f i b) := s.keeps_wr _ _
theorem State.keeps_draw (s : State) : s.Keeps s.draw := .of_eq rfl rfl rfl rfl
theorem State.keeps_readReturn (s : State) (v : Option Nat) : s.Keeps (s.readReturn v) := .of_eq rfl rfl rfl rfl
theorem State.keeps_setRing (s : State) (u : UnitId) (r : Nat) (x : Ring) : s.Keeps (s.setRing u r x) := .of_eq rfl rfl rfl rfl
theorem State.keeps_setPhase (s : State) (u : UnitId) (d : DescRef) (p : Phase) : s.Keeps (s.setPhase u d p) := s.keeps_setRing _ _ _

/-- An MSI write changes the interrupt files and the record of the MSI writes alone. -/
theorem State.msiWrite_bus (s : State) (a i : Nat) :
    s.msiWrite a i = { s with bus := { s.bus with msis := (a, i) :: s.bus.msis, imsic := (s.msiWrite a i).bus.imsic } } := by
  simp only [State.msiWrite]
  repeat' split
  all_goals rfl

theorem State.wired_bus (s : State) (x : Nat) : s.wired x = { s with bus := (s.wired x).bus } := by
  simp only [State.wired]
  split
  · rw [State.msiWrite_bus]
  · rfl

theorem State.keeps_msiWrite (s : State) (a i : Nat) : s.Keeps (s.msiWrite a i) := by
  rw [State.msiWrite_bus]; exact .of_eq rfl rfl rfl rfl
theorem State.keeps_wired (s : State) (x : Nat) : s.Keeps (s.wired x) := by
  rw [State.wired_bus]; exact .of_eq rfl rfl rfl rfl

/-- What a field outside the Tally's window reads is not its business. -/
def outsideTally (g : Fld) : Prop := g.lo < 64 ∧ (g.reg < 0xF600000 ∨ 0xF700000 ≤ g.reg)

/-- The change that recording an event makes: Tally registers, the Tally, EVENT_OUT, and the interrupt its trigger may be
wired to. -/
structure State.TallyChange (s t : State) : Prop where
  rest : t = { s with csr := t.csr, tally := t.tally, pins := t.pins, bus := t.bus }
  pins : t.pins = { s.pins with eventOut := t.pins.eventOut }
  rd : ∀ g, outsideTally g → t.rd g = s.rd g
  sorted : Tab.sorted s.csr = true → Tab.sorted t.csr = true

theorem State.TallyChange.refl (s : State) : s.TallyChange s := ⟨rfl, rfl, fun _ _ => rfl, id⟩

theorem State.TallyChange.trans {s t u : State} (h : s.TallyChange t) (k : t.TallyChange u) : s.TallyChange u :=
  ⟨by rw [k.rest, h.rest], by rw [k.pins, h.pins], fun g hg => (k.rd g hg).trans (h.rd g hg), fun c => k.sorted (h.sorted c)⟩

theorem State.TallyChange.wr (s : State) {f : Fld} (v : Nat) (hl : f.lo < 64) (h1 : 0xF600000 ≤ f.reg) (h2 : f.reg < 0xF700000) :
    s.TallyChange (s.wr f v) :=
  ⟨rfl, rfl, fun g hg => s.rd_wr_reg v (by rcases hg.2 with h | h <;> omega) hg.1 hl, Tab.sorted_set _ _ _⟩

theorem State.TallyChange.tally (s : State) (t : Tally) : s.TallyChange { s with tally := t } := ⟨rfl, rfl, fun _ _ => rfl, id⟩

theorem evIndex_lt (code : Nat) : evIndex code < 4096 := by simp only [evIndex]; omega

theorem State.suppress_change (s : State) (code : Nat) : s.TallyChange (s.suppress (evIndex code)) := by
  have h := evIndex_lt code
  have h1 : 0xF600000 ≤ (TAL_COUNT.SUPPRESSED (evIndex code)).reg := by
    show 0xF600000 ≤ 0xF614000 + evIndex code * 8; omega
  have h2 : (TAL_COUNT.SUPPRESSED (evIndex code)).reg < 0xF700000 := by
    show 0xF614000 + evIndex code * 8 < 0xF700000; omega
  exact (State.TallyChange.wr s _ (by simp [TAL_COUNT.SUPPRESSED]) h1 h2).trans (.tally _ _)

theorem State.trigger_change (s : State) (x : Nat) : s.TallyChange (s.trigger x).2 := by
  simp only [State.trigger]
  repeat' split
  · exact .refl s
  · exact .wr s _ (by decide) (by decide) (by decide)
  · exact .tally s _
  · rw [State.wired_bus]; exact ⟨rfl, rfl, fun _ _ => rfl, id⟩

theorem State.record_change (s : State) (code : Nat) (u : Option UnitId) (inst : Option Nat) (args : List Nat) (origin : Nat) :
    s.TallyChange (s.record code u inst args origin) := by
  simp only [State.record]
  refine (s.trigger_change (evIndex code)).trans ?_
  generalize (s.trigger (evIndex code)).2 = t
  split
  · exact ((State.TallyChange.wr t _ (by decide) (by decide) (by decide)).trans (.wr _ _ (by decide) (by decide) (by decide))).trans (.tally _ _)
  · exact (State.TallyChange.wr t _ (by decide) (by decide) (by decide)).trans (.tally _ _)

/-- Raising an event touches the Tally, its registers and EVENT_OUT alone. -/
theorem State.raise_change (s : State) (code : Nat) (u : Option UnitId) (inst : Option Nat) (args : List Nat) (origin : Option Nat) :
    s.TallyChange (s.raise code u inst args origin) := by
  have h := evIndex_lt code
  simp only [State.raise]
  split
  · exact s.suppress_change code
  · split
    · have h1 : 0xF600000 ≤ (TAL_COUNT.FROZEN (evIndex code)).reg := by
        show 0xF600000 ≤ 0xF614000 + evIndex code * 8; omega
      have h2 : (TAL_COUNT.FROZEN (evIndex code)).reg < 0xF700000 := by
        show 0xF614000 + evIndex code * 8 < 0xF700000; omega
      exact .wr s _ (by simp [TAL_COUNT.FROZEN]) h1 h2
    · split
      · exact s.suppress_change code
      · split
        · exact s.suppress_change code
        · exact s.record_change ..

theorem State.TallyChange.keeps {s t : State} (h : s.TallyChange t) : s.Keeps t := by
  have e := h.rest
  exact .of_forms (fun w => by rw [e]; exact w) (by rw [e]) h.sorted (by rw [e])

theorem State.keeps_raise (s : State) (code : Nat) (u : Option UnitId) (inst : Option Nat) (args : List Nat) (origin : Option Nat) :
    s.Keeps (s.raise code u inst args origin) := (s.raise_change ..).keeps

theorem State.rd_raise (s : State) (code : Nat) (u : Option UnitId) (inst : Option Nat) (args : List Nat) (origin : Option Nat)
    (g : Fld) (h : outsideTally g) : (s.raise code u inst args origin).rd g = s.rd g := (s.raise_change ..).rd g h

@[simp] theorem State.raise_now (s : State) (code : Nat) (u : Option UnitId) (inst : Option Nat) (args : List Nat)
    (origin : Option Nat) : (s.raise code u inst args origin).now = s.now := by rw [(s.raise_change code u inst args origin).rest]
@[simp] theorem State.raise_mem (s : State) (code : Nat) (u : Option UnitId) (inst : Option Nat) (args : List Nat)
    (origin : Option Nat) : (s.raise code u inst args origin).mem = s.mem := by rw [(s.raise_change code u inst args origin).rest]
@[simp] theorem State.raise_rings (s : State) (code : Nat) (u : Option UnitId) (inst : Option Nat) (args : List Nat)
    (origin : Option Nat) : (s.raise code u inst args origin).rings = s.rings := by rw [(s.raise_change code u inst args origin).rest]
@[simp] theorem State.raise_mtr (s : State) (code : Nat) (u : Option UnitId) (inst : Option Nat) (args : List Nat)
    (origin : Option Nat) : (s.raise code u inst args origin).mtr = s.mtr := by rw [(s.raise_change code u inst args origin).rest]
@[simp] theorem State.raise_mgt (s : State) (code : Nat) (u : Option UnitId) (inst : Option Nat) (args : List Nat)
    (origin : Option Nat) : (s.raise code u inst args origin).mgt = s.mgt := by rw [(s.raise_change code u inst args origin).rest]
@[simp] theorem State.raise_drw (s : State) (code : Nat) (u : Option UnitId) (inst : Option Nat) (args : List Nat)
    (origin : Option Nat) : (s.raise code u inst args origin).drw = s.drw := by rw [(s.raise_change code u inst args origin).rest]
@[simp] theorem State.raise_boot (s : State) (code : Nat) (u : Option UnitId) (inst : Option Nat) (args : List Nat)
    (origin : Option Nat) : (s.raise code u inst args origin).boot = s.boot := by rw [(s.raise_change code u inst args origin).rest]
@[simp] theorem State.raise_aud (s : State) (code : Nat) (u : Option UnitId) (inst : Option Nat) (args : List Nat)
    (origin : Option Nat) : (s.raise code u inst args origin).aud = s.aud := by rw [(s.raise_change code u inst args origin).rest]
@[simp] theorem State.raise_otp (s : State) (code : Nat) (u : Option UnitId) (inst : Option Nat) (args : List Nat)
    (origin : Option Nat) : (s.raise code u inst args origin).otp = s.otp := by rw [(s.raise_change code u inst args origin).rest]
@[simp] theorem State.raise_sup (s : State) (code : Nat) (u : Option UnitId) (inst : Option Nat) (args : List Nat)
    (origin : Option Nat) : (s.raise code u inst args origin).sup = s.sup := by rw [(s.raise_change code u inst args origin).rest]
@[simp] theorem State.raise_cool (s : State) (code : Nat) (u : Option UnitId) (inst : Option Nat) (args : List Nat)
    (origin : Option Nat) : (s.raise code u inst args origin).cool = s.cool := by rw [(s.raise_change code u inst args origin).rest]
@[simp] theorem State.raise_vat (s : State) (code : Nat) (u : Option UnitId) (inst : Option Nat) (args : List Nat)
    (origin : Option Nat) : (s.raise code u inst args origin).vat = s.vat := by rw [(s.raise_change code u inst args origin).rest]
@[simp] theorem State.raise_ddr (s : State) (code : Nat) (u : Option UnitId) (inst : Option Nat) (args : List Nat)
    (origin : Option Nat) : (s.raise code u inst args origin).ddr = s.ddr := by rw [(s.raise_change code u inst args origin).rest]
@[simp] theorem State.raise_press (s : State) (code : Nat) (u : Option UnitId) (inst : Option Nat) (args : List Nat)
    (origin : Option Nat) : (s.raise code u inst args origin).press = s.press := by rw [(s.raise_change code u inst args origin).rest]
@[simp] theorem State.raise_sec (s : State) (code : Nat) (u : Option UnitId) (inst : Option Nat) (args : List Nat)
    (origin : Option Nat) : (s.raise code u inst args origin).sec = s.sec := by rw [(s.raise_change code u inst args origin).rest]
@[simp] theorem State.raise_ven (s : State) (code : Nat) (u : Option UnitId) (inst : Option Nat) (args : List Nat)
    (origin : Option Nat) : (s.raise code u inst args origin).ven = s.ven := by rw [(s.raise_change code u inst args origin).rest]
@[simp] theorem State.raise_blades (s : State) (code : Nat) (u : Option UnitId) (inst : Option Nat) (args : List Nat)
    (origin : Option Nat) : (s.raise code u inst args origin).blades = s.blades := by rw [(s.raise_change code u inst args origin).rest]
@[simp] theorem State.raise_ports (s : State) (code : Nat) (u : Option UnitId) (inst : Option Nat) (args : List Nat)
    (origin : Option Nat) : (s.raise code u inst args origin).ports = s.ports := by rw [(s.raise_change code u inst args origin).rest]
@[simp] theorem State.raise_rails (s : State) (code : Nat) (u : Option UnitId) (inst : Option Nat) (args : List Nat)
    (origin : Option Nat) : (s.raise code u inst args origin).rails = s.rails := by rw [(s.raise_change code u inst args origin).rest]
@[simp] theorem State.raise_par (s : State) (code : Nat) (u : Option UnitId) (inst : Option Nat) (args : List Nat)
    (origin : Option Nat) : (s.raise code u inst args origin).par = s.par := by rw [(s.raise_change code u inst args origin).rest]
@[simp] theorem State.raise_sep (s : State) (code : Nat) (u : Option UnitId) (inst : Option Nat) (args : List Nat)
    (origin : Option Nat) : (s.raise code u inst args origin).sep = s.sep := by rw [(s.raise_change code u inst args origin).rest]
@[simp] theorem State.raise_churn (s : State) (code : Nat) (u : Option UnitId) (inst : Option Nat) (args : List Nat)
    (origin : Option Nat) : (s.raise code u inst args origin).churn = s.churn := by rw [(s.raise_change code u inst args origin).rest]
@[simp] theorem State.raise_carc (s : State) (code : Nat) (u : Option UnitId) (inst : Option Nat) (args : List Nat)
    (origin : Option Nat) : (s.raise code u inst args origin).carc = s.carc := by rw [(s.raise_change code u inst args origin).rest]
@[simp] theorem State.raise_cell (s : State) (code : Nat) (u : Option UnitId) (inst : Option Nat) (args : List Nat)
    (origin : Option Nat) : (s.raise code u inst args origin).cell = s.cell := by rw [(s.raise_change code u inst args origin).rest]
@[simp] theorem State.raise_leaseU (s : State) (code : Nat) (u : Option UnitId) (inst : Option Nat) (args : List Nat)
    (origin : Option Nat) : (s.raise code u inst args origin).leaseU = s.leaseU := by rw [(s.raise_change code u inst args origin).rest]
@[simp] theorem State.raise_ten (s : State) (code : Nat) (u : Option UnitId) (inst : Option Nat) (args : List Nat)
    (origin : Option Nat) : (s.raise code u inst args origin).ten = s.ten := by rw [(s.raise_change code u inst args origin).rest]
@[simp] theorem State.raise_jig (s : State) (code : Nat) (u : Option UnitId) (inst : Option Nat) (args : List Nat)
    (origin : Option Nat) : (s.raise code u inst args origin).jig = s.jig := by rw [(s.raise_change code u inst args origin).rest]
@[simp] theorem State.raise_draws (s : State) (code : Nat) (u : Option UnitId) (inst : Option Nat) (args : List Nat)
    (origin : Option Nat) : (s.raise code u inst args origin).draws = s.draws := by rw [(s.raise_change code u inst args origin).rest]
@[simp] theorem State.raise_pending (s : State) (code : Nat) (u : Option UnitId) (inst : Option Nat) (args : List Nat)
    (origin : Option Nat) : (s.raise code u inst args origin).pending = s.pending := by rw [(s.raise_change code u inst args origin).rest]

theorem State.keeps_unitErr (s : State) (u : UnitId) (o off k : Nat) : s.Keeps (s.unitErr u o off k) := by
  simp only [State.unitErr]
  split
  · exact (((s.keeps_wr _ _).trans (State.keeps_wr _ _ _)).trans (State.keeps_wr _ _ _)).trans (State.keeps_wr _ _ _)
  · exact s.keeps_raise ..

theorem State.keeps_coreFault (s : State) (o a : Nat) (st : Bool) : s.Keeps (s.coreFault o a st) := by
  simp only [State.coreFault]
  split
  · exact .of_eq rfl rfl rfl rfl
  · exact .refl s

theorem State.keeps_hole (s : State) (o a : Nat) (st : Bool) : s.Keeps (s.hole o a st) :=
  (s.keeps_coreFault o a st).trans (State.keeps_raise ..)

/-! ## DMA -/

/-- A DMA write that is served changes the bytes it names, and nothing else but what the Cooler notes of a store. -/
theorem State.dmaWrite_ok {s t : State} {u : UnitId} {a : Nat} {bs : List Byte} {ring : Option Nat} (h : s.dmaWrite u a bs ring = .ok t) :
    ∃ ps, s.dmaAddrs u a bs.length ring = .ok ps ∧ t = { s with mem := t.mem, cool := t.cool } ∧
      t.mem = (ps.zip bs).foldl (fun m pb => Memory.write m pb.1 pb.2) s.mem ∧
      t.cool = s.cool.stored ps := by
  simp only [State.dmaWrite] at h
  split at h
  · cases h
  · rename_i ps hp
    split at h
    · cases h
    · cases h
      exact ⟨ps, hp, rfl, rfl, rfl⟩

theorem State.keeps_dmaWrite {s t : State} {u : UnitId} {a : Nat} {bs : List Byte} {ring : Option Nat}
    (h : s.dmaWrite u a bs ring = .ok t) : s.Keeps t := by
  obtain ⟨ps, _, e, hm, _⟩ := State.dmaWrite_ok h
  exact .of_forms (fun w => hm ▸ Memory.wf_foldl _ _ w) (by rw [e]) (fun w => by rw [e]; exact w) (by rw [e])

theorem State.keeps_dmaFailed (s : State) (u : UnitId) (e : DmaErr) : s.Keeps (s.dmaFailed u e) := by
  cases e
  · exact .of_eq rfl rfl rfl rfl
  · exact s.keeps_raise ..
  · exact .refl s
  · exact .refl s

/-! ## Rings and completions -/

theorem State.keeps_msi (s : State) (u : UnitId) (r : Nat) : s.Keeps (s.msi u r) := by
  simp only [State.msi]
  split
  · exact s.keeps_msiWrite ..
  · exact s.keeps_dmaFailed ..

theorem State.keeps_ringError (s : State) (u : UnitId) (r c : Nat) : s.Keeps (s.ringError u r c) := by
  simp only [State.ringError]
  split
  · exact .refl s
  · have h := (((s.keeps_wr (RING_STATUS.STATE (unitBase u) r) Rst.error).trans
      (State.keeps_wr _ (RING_STATUS.ERR_CAUSE (unitBase u) r) c)).trans
      (State.keeps_wr _ (RING_CTL.STOP (unitBase u) r) 0)).trans (State.keeps_raise _ Ev.ringError (some u) (some r) [] none)
    split
    · exact h.trans (State.keeps_msi ..)
    · exact h

theorem State.keeps_notify (s : State) (u : UnitId) (r : Nat) : s.Keeps (s.notify u r) := by
  simp only [State.notify]
  split
  · exact .refl s
  · split
    · exact s.keeps_msi u r
    · split
      · exact s.keeps_setRing ..
      · exact (s.keeps_msi u r).trans (State.keeps_setRing ..)

/-- Posting a completion keeps everything a step keeps. -/
theorem State.keeps_post (s : State) (u : UnitId) (r tag status info result : Nat) (ntf : Bool) :
    s.Keeps (s.post u r tag status info result ntf) := by
  simp only [State.post]
  split
  · exact (s.keeps_dmaFailed u _).trans (State.keeps_ringError ..)
  · rename_i t ht
    refine State.Keeps.trans ?_ (State.Keeps.ite (fun _ => State.keeps_notify ..) (fun _ => .refl _))
    refine State.Keeps.trans ?_ (State.keeps_setRing ..)
    exact (State.keeps_dmaWrite ht).trans
      (.ite (fun _ => (State.keeps_wr ..).trans (State.keeps_wr ..)) (fun _ => State.keeps_wr ..))

/-! ## The audit FIFO and descriptors -/

theorem State.keeps_stage (s : State) (k o v u b p x : Nat) (bs : List Byte) : s.Keeps (s.stage k o v u b p x bs) :=
  .of_forms id rfl (Tab.sorted_set _ _ _) rfl

theorem State.keeps_auditWrite (s : State) (o v a old new : Nat) : s.Keeps (s.auditWrite o v a old new) := s.keeps_stage ..
theorem State.keeps_auditRefused (s : State) (o v a w c : Nat) : s.Keeps (s.auditRefused o v a w c) := s.keeps_stage ..
theorem State.keeps_auditDesc (s : State) (u : UnitId) (f : Fetched) (st : Nat) : s.Keeps (s.auditDesc u f st) := s.keeps_stage ..

/-- Completing a descriptor keeps everything a step keeps. -/
theorem State.keeps_finish (s : State) (u : UnitId) (d : DescRef) (st i r : Nat) : s.Keeps (s.finish u d st i r) := by
  simp only [State.finish]
  split
  · exact .refl s
  · refine State.Keeps.trans ?_ (State.keeps_post ..)
    refine State.Keeps.trans ?_ (State.keeps_setRing ..)
    exact .ite (fun _ => s.keeps_auditDesc ..) (fun _ => .refl s)

theorem State.keeps_finishDma (s : State) (u : UnitId) (d : DescRef) (e : DmaErr) : s.Keeps (s.finishDma u d e) :=
  (s.keeps_dmaFailed u e).trans (State.keeps_finish ..)

/-- The descriptor `startedAt` gives is in the ring, started, of that opcode, and has audit room if it is audited. -/
theorem State.startedAt_some {s : State} {u : UnitId} {d : DescRef} {op : Nat} {f : Fetched} (h : s.startedAt u d op = some f) :
    s.fetchedAt u d = some f ∧ f.phase ≠ .fetched ∧ f.opcode = op ∧ (auditedOp u op = false ∨ s.auditRoom = true) := by
  simp only [State.startedAt] at h
  split at h
  · rename_i g hg
    split at h
    · cases h; exact ⟨hg, by assumption⟩
    · cases h
  · cases h

end Sys2Proof.Machine
end

