-- ==== Sys2Proof/Tests/Build.lean ====
section
/-! SUPPORT. Small states for the tests and witnesses, built from the state after reset. -/
namespace Sys2Proof.Tests
open Sys2Proof Sys2Proof.Machine

/-- Register fields given values. -/
def regs (l : List (Fld × Nat)) (s : State) : State := l.foldl (fun s e => s.wr e.1 e.2) s

/-- `n` bytes, all 0 but the fields given as (offset, length, value). -/
def image (n : Nat) (l : List (Nat × Nat × Nat)) : List Byte :=
  (List.range n).map fun i =>
    match l.find? fun e => e.1 ≤ i && i < e.1 + e.2.1 with
    | some e => BitVec.ofNat 8 (e.2.2 / 2 ^ (8 * (i - e.1)))
    | none => 0

/-- A descriptor with an opcode and the fields given, published by origin 0. -/
def desc (slot op : Nat) (l : List (Nat × Nat × Nat)) (phase : Phase := .started) : Fetched :=
  ⟨slot, [image 64 ((0, 1, op) :: l)], phase, 0⟩

/-- A Jig datagram with the header fields given and a payload, its CRC32C in place (R427). -/
def dgram (l : List (Nat × Nat × Nat)) (payload : List Byte) : List Byte :=
  let h := image 32 ((0, 2, 0x4A47) :: l)
  h.take 28 ++ leBytes 4 (crc32c (h ++ payload)) ++ payload

/-- Ring 0 of a unit holds the descriptors. -/
def holds (u : UnitId) (fs : List Fetched) (s : State) : State := s.setRing u 0 { fetched := fs, prod := fs.length }

/-- The register row at a CSR offset. -/
def reg (a : Nat) : RegRow := (findReg a).getD ⟨0, 0, 0, 0, 0, 0, false, []⟩

/-- A table of one entry. -/
theorem get?_single {α : Type} (k : Nat) (v : α) : Tab.get? [(k, v)] k = some v := by simp [Tab.get?]

/-- A value that is there is some value. -/
theorem some_getD {α : Type} (o : Option α) (d : α) (h : o.isSome = true) : o = some (o.getD d) := by cases o <;> simp_all

/-- The Meter finds a line that stands where its first probe points. -/
theorem mtrFind_of (s : State) (tn sh : Nat) (l : MtrLine)
    (h : Tab.get? s.mtr.lines (256 + Config.mtrProbe tn sh 0 s.mtrSize % (s.mtrSize - 256)) = some l)
    (ht : l.tenant = tn) (hs : l.shard = sh) :
    s.mtrFind tn sh = some (256 + Config.mtrProbe tn sh 0 s.mtrSize % (s.mtrSize - 256)) := by
  simp [State.mtrFind, State.mtrProbes, List.range, List.range.loop, List.find?, h, ht, hs]

/-- The Meter's lines where every probe of a pair points at a line of another tenant. -/
def fullLines (tn sh : Nat) : Tab MtrLine :=
  (State.reset.mtrProbes tn sh).foldl (fun t i => Tab.set t i { tenant := 0, shard := 0 }) []

/-- Every key that was set stands in the table. -/
theorem isSome_foldl_set (ps : List Nat) (v : MtrLine) : ∀ (t : Tab MtrLine) (i : Nat), i ∈ ps ∨ (Tab.get? t i).isSome = true →
    (Tab.get? (ps.foldl (fun t i => Tab.set t i v) t) i).isSome = true := by
  induction ps with
  | nil => intro t i h; simpa using h
  | cons p ps ih =>
    intro t i h
    refine ih _ i ?_
    by_cases e : i = p
    · subst e; exact .inr (by simp)
    · rw [Tab.get?_set_ne _ _ e]; simpa [e] using h

/-- Every line set is the one given. -/
theorem get?_foldl_set (ps : List Nat) (v : MtrLine) : ∀ (t : Tab MtrLine) (i : Nat), (∀ l, Tab.get? t i = some l → l = v) →
    ∀ l, Tab.get? (ps.foldl (fun t i => Tab.set t i v) t) i = some l → l = v := by
  induction ps with
  | nil => intro t i h; simpa using h
  | cons p ps ih =>
    intro t i h
    refine ih _ i fun l hl => ?_
    by_cases e : i = p
    · subst e; simpa using hl.symm
    · rw [Tab.get?_set_ne _ _ e] at hl; exact h l hl

/-- Where every probe points at a line, none is free. -/
theorem mtrFree_full (s : State) (tn sh : Nat) (h : s.mtr.lines = fullLines tn sh) (hz : s.mtrSize = State.reset.mtrSize) :
    s.mtrFree tn sh = none := by
  have e : s.mtrProbes tn sh = State.reset.mtrProbes tn sh := by simp [State.mtrProbes, hz]
  simp only [State.mtrFree, e, List.find?_eq_none, h]
  intro i hi
  have := isSome_foldl_set (State.reset.mtrProbes tn sh) { tenant := 0, shard := 0 } [] i (.inl hi)
  simp only [fullLines, this, Option.isNone_iff_eq_none]
  cases hg : Tab.get? _ i <;> simp_all

/-- Where every probe points at a line of another tenant, the Meter finds none. -/
theorem mtrFind_full (s : State) (tn sh : Nat) (h : s.mtr.lines = fullLines tn sh) (ht : tn ≠ 0) : s.mtrFind tn sh = none := by
  simp only [State.mtrFind, List.find?_eq_none, h]
  intro i _
  cases hg : Tab.get? (fullLines tn sh) i with
  | none => simp
  | some l =>
    have := get?_foldl_set (State.reset.mtrProbes tn sh) { tenant := 0, shard := 0 } [] i (by simp [Tab.get?]) l hg
    subst this; simp [Ne.symm ht]

/-- Where no line is listed, the first probe of a pair is free. -/
theorem mtrFree_nil (s : State) (tn sh : Nat) (h : s.mtr.lines = []) :
    s.mtrFree tn sh = some (256 + Config.mtrProbe tn sh 0 s.mtrSize % (s.mtrSize - 256)) := by
  simp [State.mtrFree, State.mtrProbes, List.range, List.range.loop, List.find?, h, Tab.get?]

end Sys2Proof.Tests
end

