-- ==== Sys2Proof/WellFormed.lean ====
section
/-! DEFINITION. Which commands can be spelled on this hardware at all: every operand lies in the range that the field of the
register, of the descriptor or of the message it stands for can hold. -/
namespace Sys2Proof

/-- A descriptor's ring is below 512 rings (R40) and its slot below 2^16 entries (R53). -/
def descOk (d : DescRef) : Bool := decide (d.ring < 512) && decide (d.slot < 2 ^ 16)

/-- What a faulty lane held is named by a descriptor, a command context or one of the Press's contexts, the legacy one being number 64. -/
def jobOk : LaneJob → Bool
  | .desc d => descOk d
  | .context c => decide (c ≤ 64)
  | .idle | .inline _ | .legacy => true

/-- A port of the network-on-chip: one of 48 cores, the management core, or a unit number of R9. -/
def portOk : CoolPort → Bool
  | .core c => decide (c < 48)
  | .mgmt => true
  | .unit n => decide (n < 16)

/-- A DRAM location fits the fields of DDR_ERR_c. -/
def dramErrOk : DramErr → Bool
  | .none => true
  | .corrected l | .uncorrectable l => decide (l.subch < 2) && decide (l.rank < 4) && decide (l.bg < 8) && decide (l.bank < 4) &&
    decide (l.row < 2 ^ 18)

/-- A settings write that a loss of power tears is a descriptor. -/
def tornOk (t : Option (DescRef × Bool)) : Bool :=
  match t with
  | some e => descOk e.1
  | none => true

/-- Whether every operand of a command fits the field it stands for. -/
def Instr.wf (i : Instr) : Bool :=
  match i with
  | .dbProdWrite _ _ ring value | .dbCheadWrite _ _ ring value => decide (ring < 512) && decide (value < 2 ^ 16)
  | .doorbellBadAccess _ _ off _ _ => decide (off < 2 ^ 24)
  | .ringEnable _ _ ring | .ringDisable _ _ ring | .ringDisableDone _ ring | .ringStop _ _ ring _ |
    .ringStopDone _ ring | .ringStart _ _ ring | .descriptorFetch _ ring | .msiHoldoffExpiry _ ring =>
    decide (ring < 512)
  | .descriptorStart _ d | .qpModify _ d | .qpQuery _ d | .mrRegister d | .mrInvalidate d | .postSend _ d |
    .postRecv _ d | .pktTx _ d | .pktRxBuf _ d | .tcpInstall _ d | .tcpRelease _ d | .odpWait _ d | .volSet d |
    .tenantSet d | .queueBind d | .queueDelete d | .ctrlReset d | .adminFetch d | .adminComplete d | .aenPost d |
    .anaRead d | .domainSet d | .lookup d | .insert d | .refAdjust d | .relocate d | .mergeScan d | .shardState d |
    .compress d | .decompress d | .recast d | .dictLoad d | .dictDrop d | .hash d | .ctxClose d | .encode d |
    .decode d | .patchDelta d | .verify d | .locate d | .intentAcquire d _ | .intentRelease d | .rebuildCtl d |
    .resync d _ | .genSet d | .bladeAttach d _ | .bladeDetach d | .laneSet d | .shardLoad d _ _ | .shardRelease d _ |
    .checkpoint d _ | .foldNow d _ | .reclaim d _ | .healthNow d | .pass d | .mailSend d | .mailRecv d |
    .handoffBegin d | .handoffCommit d | .handoffAbort d | .take d | .drain d | .undrain d | .eventWait d |
    .cleanRange d | .flushRange d | .cleanAll d | .flushWays d | .sliceRetire d | .sliceRestore d | .pailAlloc d |
    .pailFree d | .random d | .keyGen d | .keyLoad d | .keyDestroy d | .keyExport d | .kekCreate d | .kekUnseal d |
    .pairOffer d | .pairSend d _ | .pairReceive d _ | .cfgWrite d | .lockSet d | .lockClear d | .attest d |
    .certRead d | .lifecycleAdvance d | .encrypt d | .decrypt d | .keyEvict d | .jigBegin d | .jigBlock d |
    .jigCommit d | .jigAbort d | .jigActivate d | .jigBitmap d | .capSet d | .lineRead d | .frameTx d | .frameRxBuf d |
    .groupWrite d _ | .groupRead d | .groupDelete d _ => descOk d
  | .railInternalError _ cause | .abdicate cause | .ddrTrainingDone _ _ cause => decide (cause < 256)
  | .portLinkChange lport _ _ codewords => decide (lport < 16) && decide (codewords < 2 ^ 24)
  | .rxFrame frame => decide (frame.lport < 16) && decide (frame.prio < 8)
  | .rocePacketRx port | .cnpRx port | .tcpSegmentRx port => decide (port < 4)
  | .ctxFetchDone c _ | .rateRise c | .localAckTimeout c | .odpResume _ c | .odpTimeoutExpiry c | .tcpRtoExpiry c |
    .rnrTimerExpiry c => decide (c < 2 ^ 24)
  | .mrInvalidateAck _ key | .mrDrainLimitExpiry key => decide (key < 2 ^ 32)
  | .nvmeRead k _ | .nvmeWrite k | .nvmeFlush k | .nvmeWriteZeroes k _ | .nvmeDatasetManagement k | .nvmeVerify k _ |
    .secureDeallocate k _ | .nvmeAbort k | .nvmeKeepAlive k | .nvmeAsyncEventRequest k | .budgetGatePass k |
    .ageLimitExpiry k | .payloadComplete k _ | .holdLimitExpiry k => decide (k < 2 ^ 32)
  | .keepAliveExpiry cntlid => decide (cntlid < 2 ^ 16)
  | .queueDeletionDone i => decide (i < 2 ^ 32)
  | .inlineFingerprint k i | .inlineLookup k i | .indexBucketReadDone k i | .verifyCompareDone k i _ |
    .inlineCompress k i | .inlineDecompress k i _ | .chunkReadTimeout k i _ | .veneerInlineJob k i =>
    decide (k < 2 ^ 32) && decide (i < 2 ^ 32)
  | .shardDropDone shard => decide (shard < 256)
  | .churnLaneFault _ job | .pressLaneFault _ job | .carcLaneFault _ job | .venLaneFault _ job => jobOk job
  | .legacyStart _ alg length => decide (alg < 256) && decide (length < 2 ^ 64)
  | .legacyData _ _ drained => decide (drained < 2 ^ 16)
  | .resyncRegion _ _ region _ => decide (region < 2 ^ 29)
  | .replicaTimeout _ page _ _ => decide (page < 2 ^ 48)
  | .bladeCompletion b i | .commandTimeoutExpiry b i | .bcpRead b i _ | .bcpProgram b i _ | .bcpErase b i _ |
    .bcpClaim b i | .bcpRetire b i | .setEpoch b i | .renew b i | .leaseRelease b i | .epochRead b i |
    .bcpIdentify b i | .claimList b i | .ecRead b i | .wipe b i | .wipeConsent b i =>
    decide (b < 16) && decide (i < 2 ^ 32)
  | .wheelReclaim _ wheel _ => decide (wheel < 2 ^ 24)
  | .bladeLinkTrained _ _ _ _ _ major => decide (major < 256)
  | .bcpSqDoorbell b port queue _ => decide (b < 16) && decide (port < 2) && decide (queue < 64)
  | .bcpCcWrite b port _ | .perstAssert b port _ => decide (b < 16) && decide (port < 2)
  | .bcpHealth b i _ die => decide (b < 16) && decide (i < 2 ^ 32) && decide (die < 64)
  | .bladePowerUp b _ _ | .bladePowerLoss b _ => decide (b < 16)
  | .tenonSignalDetect lanes => decide (lanes < 256)
  | .tenonTrainDone good use _ | .tenonRetrainDone good use _ => decide (good < 256) && decide (use < 256)
  | .tenonExchange version _ time => decide (version < 256) && decide (time < 2 ^ 64)
  | .ctrlCredit key n => decide (key < 9) && decide (n < 2 ^ 32)
  | .timeReq t1 => decide (t1 < 2 ^ 64)
  | .timeResp t1 t2 t3 => decide (t1 < 2 ^ 64) && decide (t2 < 2 ^ 64) && decide (t3 < 2 ^ 64)
  | .fwdReq tag _ tenant _ _ _ => decide (tag < 2 ^ 32) && decide (tenant < 2 ^ 14)
  | .fwdRsp tag status dw0 dw1 _ _ =>
    decide (tag < 2 ^ 32) && decide (status < 2 ^ 16) && decide (dw0 < 2 ^ 32) && decide (dw1 < 2 ^ 32)
  | .fwdCancel tag | .peerWipeConsent tag _ | .mailRx tag _ => decide (tag < 2 ^ 32)
  | .maintIncrement tag _ locator count => decide (tag < 2 ^ 32) && decide (locator < 2 ^ 64) && decide (count < 2 ^ 32)
  | .maintDeferErase tag _ _ bands _ | .maintAck tag _ bands _ =>
    decide (tag < 2 ^ 32) && bands.all fun e => decide (e < 2 ^ 20)
  | .peerRegWrite tag nn _ _ | .peerRegRead tag nn _ => decide (tag < 2 ^ 32) && decide (nn < 256)
  | .leaseExpiry sh | .leaseTailEnd sh | .quietEnd sh | .releaseReadDeadline sh | .noteSilenceExpiry sh | .refuse sh |
    .lost sh | .takeLimitExpiry sh | .drillDue sh | .drillGraceExpiry sh => decide (sh < 256)
  | .note shards _ => shards.all fun e => decide (e.1 < 256)
  | .offer sh epoch => decide (sh < 256) && decide (epoch < 2 ^ 64)
  | .won sh epoch w => decide (sh < 256) && decide (epoch < 2 ^ 64) && decide (w < 2 ^ 64)
  | .takeoverSilenceReached sh b => decide (sh < 256) && decide (b < 16)
  | .coolerAccess port addr _ _ => portOk port && decide (addr < 2 ^ 48)
  | .coolerFillDone line err => decide (line < 2 ^ 42) && dramErrOk err
  | .evictionWriteAccepted line _ => decide (line < 2 ^ 42)
  | .l2Writeback core line => decide (core < 48) && decide (line < 2 ^ 42)
  | .cboClean addr | .cboFlush addr | .cboInval addr => decide (addr < 2 ^ 48)
  | .pailRequest n id cls count =>
    decide (n < 2 ^ 32) && decide (id < 2 ^ 32) && decide (cls < 5) && decide (count < 2 ^ 32)
  | .pailRelease pail | .vatUeDetected pail => decide (pail < 2 ^ 15)
  | .vatAlarmExpiry index => decide (index < 2 ^ 16)
  | .vatPeakClear cls => decide (cls < 5)
  | .zqCalibration _ rank | .dqsOscRead _ rank => decide (rank < 4)
  | .ddrScrub err => dramErrOk err
  | .keyUnwrapDone tenant => decide (tenant < 2 ^ 14)
  | .jigActivationDone type => decide (type < 8)
  | .coreDividerWrite _ _ div => decide (div < 256)
  | .governorSample _ _ _ jobs => jobs.all jobOk
  | .markMeasurementDone marks => marks.all fun e => decide (e.1 < 384)
  | .pwrokFall torn | .resetNAssert torn | .powerLoss torn => tornOk torn
  | .bcpLeaseCfgWrite b port v => decide (b < 16) && decide (port < 2) && decide (v < 2 ^ 32)
  | .csrWrite _ _ _ _ | .csrReadMisaligned _ _ _ | .holeAccess _ _ _ | .vatWindowAccess _ _ _ _ _ | .unitEnable _ _ |
    .railEnable _ _ | .railReset _ _ | .railFail _ _ | .capsuleArrival | .budgetRefill | .dispatch | .associationLoss |
    .parPeakClear _ | .pressResultRead _ _ _ | .legacyRelease _ | .legacyFinal _ | .legacyKey _ _ | .legacyHashDone |
    .legacyResultRead _ _ | .legacyIdleExpiry | .rebuildEnSet _ | .graceExpiry _ | .intentFlush _ | .patrolStripe _ |
    .rebuildStripe _ _ | .journalPageProgram _ _ _ | .journalHoldExpiry _ _ _ | .remirror _ _ _ | .fold _ _ _ |
    .foldAgeExpiry _ _ _ | .checkpointPeriodExpiry _ _ | .checkpointLateExpiry _ | .gcVictimCollect _ _ _ |
    .wearLevelCheck _ _ | .healthPeriodExpiry | .prsntChange _ _ | .prsntDebounceExpiry _ | .portResetExpiry _ |
    .bladeTrainingTimeout _ | .bladeRdySeen _ | .bladeRdyTimeout _ | .bladeFatalSeen _ | .dlDown _ | .unreachExpiry _ |
    .portDownExpiry _ | .portReset _ _ | .tenonEnable _ _ | .tenonRetrain _ | .tenonTrainTimeout | .flitSilenceExpiry |
    .tenonRetrainTimeout | .tenonDownExpiry | .flitRx _ _ _ _ _ | .timeReqPeriod | .timeSlew | .timeSyncLapse |
    .fwdWaitExpiry | .reexecutionDispatch _ _ | .renewRound | .hbOutToggle | .hbInEdge | .hbLossExpiry |
    .watchdogKick _ | .watchdogExpiry | .abdicateWrite _ | .fatalMachineCheck | .coolerDisable _ | .coolerDrainDone |
    .ddrTrainingStart _ | .dimmThermalRead _ | .ddrRefresh _ | .entropyHealthFail _ | .drbgReseed | .jtagInstruction _ |
    .auditEntryWrite | .auditSealPeriod | .auditSealCount | .auditShutdown _ | .jigBlockWritten _ | .jigPortBegin |
    .jigPortSegment | .jigPortCommit | .jigPortAbort | .jigPortStatus | .jigIdleExpiry | .refclkLoss |
    .domainOnRequest _ | .domainOffRequest _ _ _ | .domainRampAdmit | .rampTimeout _ | .govResume _ | .thermalRead _ |
    .thermalTripPoweroff | .witnessPassStart | .measureNow _ | .coreRetirement _ | .meterEvent | .capTick | .meterCut |
    .meterSweep | .tallyTokenRefill | .tallySpill | .triggerPulseEnd | .lossHoldExpiry | .tallyClearCounts |
    .mgtFrameRx _ | .mgtLinkChange _ _ | .wallClockApply _ | .vddAonRise _ _ | .coldResetRelease _ _ _ _ |
    .warmReset _ | .warmResetEnd _ _ | .tenonLaneErrorLimit _ | .linkDownHbLossExpiry => true

end Sys2Proof
end

