-- ==== Sys2Proof/Tests/Slice0.lean ====
section
/-! SUPPORT. The ill-formed terms that each check of WellFormed refuses, and small tests whose expected results come from the
manual's worked examples. -/
namespace Sys2Proof.Tests
open Sys2Proof Sys2Proof.Machine

/-! ## Ill-formed commands, one for each check -/

theorem test_wf_descriptors :
    descOk ⟨512, 0⟩ = false ∧ descOk ⟨0, 2 ^ 16⟩ = false ∧ jobOk (.desc ⟨512, 0⟩) = false ∧ jobOk (.context 65) = false ∧
    (Instr.mrRegister ⟨512, 0⟩).wf = false ∧ (Instr.intentAcquire ⟨0, 2 ^ 16⟩ []).wf = false ∧
    (Instr.descriptorStart .sep ⟨512, 0⟩).wf = false ∧ (Instr.pwrokFall (some (⟨512, 0⟩, true))).wf = false ∧
    (Instr.churnLaneFault 0 (.context 65)).wf = false ∧ (Instr.governorSample 0 0 0 [.context 65]).wf = false := by decide

theorem test_wf_rings :
    (Instr.dbProdWrite 5 .sep 512 0).wf = false ∧ (Instr.dbCheadWrite 5 .sep 0 (2 ^ 16)).wf = false ∧
    (Instr.doorbellBadAccess 5 .sep (2 ^ 24) .b1 true).wf = false ∧ (Instr.ringEnable 5 .sep 512).wf = false ∧
    (Instr.descriptorFetch .sep 512).wf = false := by decide

theorem test_wf_rails :
    (Instr.railInternalError .a 256).wf = false ∧ (Instr.portLinkChange 16 true true 0).wf = false ∧
    (Instr.portLinkChange 0 true true (2 ^ 24)).wf = false ∧ (Instr.rxFrame ⟨16, 64, 0, true, .other, [], none⟩).wf = false ∧
    (Instr.rxFrame ⟨0, 64, 8, true, .other, [], none⟩).wf = false ∧ (Instr.rocePacketRx 4).wf = false ∧
    (Instr.ctxFetchDone (2 ^ 24) false).wf = false ∧ (Instr.mrInvalidateAck .a (2 ^ 32)).wf = false ∧
    (Instr.mrDrainLimitExpiry (2 ^ 32)).wf = false := by decide

theorem test_wf_parlour :
    (Instr.nvmeFlush (2 ^ 32)).wf = false ∧ (Instr.keepAliveExpiry (2 ^ 16)).wf = false ∧
    (Instr.queueDeletionDone (2 ^ 32)).wf = false ∧ (Instr.inlineFingerprint (2 ^ 32) 0).wf = false ∧
    (Instr.inlineFingerprint 0 (2 ^ 32)).wf = false ∧ (Instr.shardDropDone 256).wf = false := by decide

theorem test_wf_engines :
    (Instr.legacyStart 5 256 0).wf = false ∧ (Instr.legacyStart 5 0 (2 ^ 64)).wf = false ∧
    (Instr.legacyData 5 0 (2 ^ 16)).wf = false ∧ (Instr.resyncRegion 0 0 (2 ^ 29) []).wf = false ∧
    (Instr.replicaTimeout 0 (2 ^ 48) 0 []).wf = false ∧ (Instr.wheelReclaim 0 (2 ^ 24) []).wf = false := by decide

theorem test_wf_blades :
    (Instr.bladeCompletion 16 0).wf = false ∧ (Instr.renew 0 (2 ^ 32)).wf = false ∧
    (Instr.bladeLinkTrained 0 0 0 true true 256).wf = false ∧ (Instr.bcpSqDoorbell 16 0 0 []).wf = false ∧
    (Instr.bcpSqDoorbell 0 2 0 []).wf = false ∧ (Instr.bcpSqDoorbell 0 0 64 []).wf = false ∧
    (Instr.bcpCcWrite 0 2 true).wf = false ∧ (Instr.perstAssert 16 0 true).wf = false ∧
    (Instr.bcpHealth 0 0 25 64).wf = false ∧ (Instr.bladePowerUp 16 none true).wf = false ∧
    (Instr.bcpLeaseCfgWrite 0 0 (2 ^ 32)).wf = false := by decide

theorem test_wf_tenon :
    (Instr.tenonSignalDetect 256).wf = false ∧ (Instr.tenonTrainDone 256 0 false).wf = false ∧
    (Instr.tenonExchange 256 0 0).wf = false ∧ (Instr.tenonExchange 0 0 (2 ^ 64)).wf = false ∧
    (Instr.ctrlCredit 9 0).wf = false ∧ (Instr.ctrlCredit 0 (2 ^ 32)).wf = false ∧ (Instr.timeReq (2 ^ 64)).wf = false ∧
    (Instr.timeResp 0 0 (2 ^ 64)).wf = false ∧ (Instr.fwdReq (2 ^ 32) 0 0 0 [] []).wf = false ∧
    (Instr.fwdReq 0 0 (2 ^ 14) 0 [] []).wf = false ∧ (Instr.fwdRsp 0 (2 ^ 16) 0 0 [] false).wf = false ∧
    (Instr.fwdCancel (2 ^ 32)).wf = false ∧ (Instr.maintIncrement 0 0 (2 ^ 64) 0).wf = false ∧
    (Instr.maintDeferErase 0 0 0 [2 ^ 20] []).wf = false ∧ (Instr.peerRegWrite 0 256 0 0).wf = false := by decide

theorem test_wf_lease :
    (Instr.leaseExpiry 256).wf = false ∧ (Instr.note [(256, 0, 0)] true).wf = false ∧ (Instr.offer 0 (2 ^ 64)).wf = false ∧
    (Instr.won 0 0 (2 ^ 64)).wf = false ∧ (Instr.takeoverSilenceReached 0 16).wf = false ∧ (Instr.abdicate 256).wf = false := by
  decide

theorem test_wf_memory :
    (Instr.coolerAccess (.core 48) 0 none .none).wf = false ∧ (Instr.coolerAccess (.unit 16) 0 none .none).wf = false ∧
    (Instr.coolerAccess .mgmt (2 ^ 48) none .none).wf = false ∧ (Instr.coolerFillDone (2 ^ 42) .none).wf = false ∧
    (Instr.coolerFillDone 0 (.corrected ⟨2, 0, 0, 0, 0, 0, 0⟩)).wf = false ∧
    (Instr.ddrScrub (.uncorrectable ⟨0, 4, 0, 0, 0, 0, 0⟩)).wf = false ∧ (Instr.evictionWriteAccepted (2 ^ 42) none).wf = false ∧
    (Instr.l2Writeback 48 0).wf = false ∧ (Instr.cboClean (2 ^ 48)).wf = false ∧ (Instr.pailRequest 0 0 5 0).wf = false ∧
    (Instr.pailRelease (2 ^ 15)).wf = false ∧ (Instr.vatAlarmExpiry (2 ^ 16)).wf = false ∧ (Instr.vatPeakClear 5).wf = false ∧
    (Instr.zqCalibration 0 4).wf = false ∧ (Instr.ddrTrainingDone 0 true 256).wf = false := by decide

theorem test_wf_island_supply :
    (Instr.keyUnwrapDone (2 ^ 14)).wf = false ∧ (Instr.jigActivationDone 8).wf = false ∧
    (Instr.coreDividerWrite 5 0 256).wf = false ∧ (Instr.markMeasurementDone [(384, 0)]).wf = false := by decide

/-! ## The manual's worked examples -/

theorem test_reset_idles : (match step State.reset with | .next s => s.now | _ => 0) = 1 := by decide

/-- Ring 70 of the Churn: its register block and its doorbell slot (R53, the example after R62). -/
theorem test_ring_70 : 0xF00000000000 + unitBase .churn + 0x100000 + 70 * 0x40 = 0xF00003101180 ∧
    0xE00000000000 + unitN .churn * 0x100000 + doorbellOff .churn 70 0 = 0xE00000301180 := by decide

/-- The buckets of a fingerprint with LOG2_BUCKETS 30 (the example after R140). -/
theorem test_buckets :
    (regs [(SEP_INDEX_CFG.LOG2_BUCKETS, 30)] State.reset).bucket1
      [0x3A, 0x91, 0x0C, 0x5E, 0x77, 0xD2, 0x18, 0xB4, 0xC5, 0x02, 0x66, 0xE9, 0x10, 0x4F, 0x8B, 0x27] = 0x1E0C913A ∧
    (regs [(SEP_INDEX_CFG.LOG2_BUCKETS, 30)] State.reset).bucket2
      [0x3A, 0x91, 0x0C, 0x5E, 0x77, 0xD2, 0x18, 0xB4, 0xC5, 0x02, 0x66, 0xE9, 0x10, 0x4F, 0x8B, 0x27] = 0x296602C5 := by
  decide +kernel

/-- Volume 9,000, extent 97: shard 137 (R19, the example after R145). -/
theorem test_block_shard : blockShard 9000 (97 * 4096) = 137 := by decide

/-- The tweak of tenant 300, shard 46 (the example of R401). -/
theorem test_tweak : venTweak 0x00A0000000001A2B 300 46 =
    [0x2B, 0x1A, 0, 0, 0, 0, 0xA0, 0, 0x2C, 1, 0x2E, 0, 0, 0, 0, 0] := by decide

/-- PA 0x4A21_0040 lies in SLICE_33, the next line in SLICE_34 (the example of R353). -/
theorem test_home_slice : State.reset.home (0x4A210040 / 64) = 33 ∧ State.reset.home (0x4A210080 / 64) = 34 ∧
    0x4A210040 / 64 / 48 % 2048 = 1386 := by decide +kernel

/-- A Vat with 4,454 free pails: 16 more for HOST_READ wait, 16 for REBUILD are granted (the example of R366). -/
theorem test_vat_reserve :
    let s := regs [(VAT_CTL.EN, 1), (VAT_STATUS.FREE, 4454), (VAT_USE.USED 0, 18614), (VAT_USE.USED 1, 8000),
      (VAT_USE.USED 2, 500), (VAT_USE.USED 3, 1200), (VAT_USE.USED 4, 0)] State.reset
    s.reserveSum = 4444 ∧ s.grantable 0 16 = false ∧ s.grantable 2 16 = true := by decide +kernel

/-- The slave is 9 ticks behind (the example of R325). -/
theorem test_time_offset : ((190 - 160 : Int) - (48 - 0)) / 2 = -9 ∧ ofSigned (-9) 32 = 4294967287 := by decide

/-- A CNP cuts R from 1,000 to 750 (the example of R81). -/
theorem test_cnp_cut : 1000 - 1000 * State.reset.rd (RDMA_CC_CFG0.CUT_NUM 0) / 256 = 750 := by decide +kernel

def core17 : State := regs [(PWR_DOM.STATE 17, 2), (GOV_CTL.EN, 1), (GOV_VREF.VREF 17, 16384), (WIT_DOM.VREF 17, 16384),
  (GOV_DOM_STATUS.N 17, 1), (GOV_MODEL_R.VALUE 17, 5103), (GOV_DOM_INT.I 17, 1310720), (GOV_DOM_STATUS.CREF 17, 16424)] State.reset

/-- A load step of CORE_17: a phase is added, I and CREF move (the example of R448). -/
theorem test_governor_sample :
    (match execGovernorSample 17 16133 1638 [] core17 with
      | .next t => (t.rd (GOV_DOM_STATUS.N 17), t.rd (GOV_DOM_INT.I 17), t.rd (GOV_DOM_STATUS.CREF 17),
          t.rd (GOV_DOM_STATUS.FAILS 17), t.domSt 17)
      | _ => (0, 0, 0, 0, 0)) = (2, 912384, 16411, 0, Dom.on) := by decide +kernel

/-- CORE_17 after six years: 2 steps at /3; 21 steps at 70,700 ppm, none at /4 (the example of R456). -/
theorem test_guardband :
    let s := { State.reset with otp := Memory.writeN [] 0x49C (leBytes 2 250 ++ leBytes 1 12) }
    s.need 17 8100 0 = 2 ∧ s.need 17 70700 0 = 21 ∧ s.need 17 70700 333333 = 0 ∧ median [6900, 7400, 8100, 7700] = 7550 := by
  decide +kernel

/-- Bin 0 ends at 25,600 ticks, bin 15 starts at 419,430,400 (R465). -/
theorem test_hist_bins : histBin 25599 = 0 ∧ histBin 25600 = 1 ∧ histBin 419430399 = 14 ∧ histBin 419430400 = 15 := by
  decide +kernel

/-- A DPAGE of a MAIN band of group 7: chunk place 1,203 starts at DPAGE 4,812, page 320 of die 125; DPAGE 4,815 lies on
page 321 of die 112 (the example of R243). -/
theorem test_dpage_place :
    (({ kind := .main, shard := 0 } : Band).place (7 * 65536 + 2301) 4812) = (125, 2301, 320) ∧
    (({ kind := .main, shard := 0 } : Band).place (7 * 65536 + 2301) 4815) = (112, 2301, 321) := by decide

/-- CRC32C of "123456789". -/
theorem test_crc32c : crc32c [0x31, 0x32, 0x33, 0x34, 0x35, 0x36, 0x37, 0x38, 0x39] = 0xE3069283 := by decide +kernel

/-- A command in front of the queue is carried out on the rest. -/
theorem test_step_front :
    (match step { State.reset with pending := [.railEnable 5 .a, .measureNow 0] } with
      | .next t => t.pending
      | _ => []) = [.measureNow 0] := by decide +kernel

end Sys2Proof.Tests
end

