-- ==== Sys2Proof/Tests/Witness.lean ====
section
/-! SUPPORT. For every clause of a statement with hypotheses, a state and operands that meet them all. -/
namespace Sys2Proof.Tests
open Sys2Proof Sys2Proof.Machine

set_option Elab.async false

theorem witness_RegisterWrites :
  (∃ (s : State) (origin : Origin) (addr : PAddr) (value : Word) (u : UnitId) (r : RegRow), (inCsr addr.toNat = true) ∧ (s.originThere origin.toNat = true) ∧ ((addr.toNat - csrBase) % 8 = 0) ∧ (csrUnit (addr.toNat - csrBase) = some u) ∧ (0x200000 ≤ addr.toNat - csrBase - unitBase u) ∧ (findReg (addr.toNat - csrBase) = some r) ∧ ((isLegacyReg (addr.toNat - csrBase) && !s.on PRESS_CTL.LEG_EN) = false) ∧ (s.audited r.config origin.toNat = true) ∧ (s.auditRoom = true) ∧ (r.config = true → s.locked u origin.toNat = false) ∧ (s.accepts u r (addr.toNat - csrBase) value.toNat = true)) ∧
  (∃ (s : State) (origin : Origin) (addr : PAddr) (value : Word) (u : UnitId) (r : RegRow), (inCsr addr.toNat = true) ∧ (s.originThere origin.toNat = true) ∧ ((addr.toNat - csrBase) % 8 = 0) ∧ (csrUnit (addr.toNat - csrBase) = some u) ∧ (0x200000 ≤ addr.toNat - csrBase - unitBase u) ∧ (findReg (addr.toNat - csrBase) = some r) ∧ ((isLegacyReg (addr.toNat - csrBase) && !s.on PRESS_CTL.LEG_EN) = false) ∧ (s.audited r.config origin.toNat = false) ∧ (s.accepts u r (addr.toNat - csrBase) value.toNat = true)) ∧
  (∃ (s : State) (origin : Origin) (u : UnitId) (value : Word), (s.originThere origin.toNat = true) ∧ (value.toNat.testBit 63 = true)) ∧
  (∃ (s : State) (origin : Origin) (u : UnitId) (r x : Nat) (value : Word), (s.originThere origin.toNat = true) ∧ (r < unitRings u) ∧ (s.ringSt u r = Rst.disabled ∨ 0x28 ≤ x) ∧ (x = 0 ∨ x = 8 ∨ x = 0x10 ∨ x = 0x28 ∨ x = 0x30 ∨ x = 0x38)) :=
  ⟨⟨State.reset, 0, 0xF00004200000, 1, .sep, reg 0x4200000, by decide +kernel⟩,
   ⟨State.reset, 0, 0xF0000FA00018, 5, .mgt, reg 0xFA00018, by decide +kernel⟩,
   ⟨State.reset, 0, .sep, 0x8000000000000000, by decide +kernel⟩,
   ⟨State.reset, 0, .sep, 0, 0x10, 8, by decide +kernel⟩⟩

theorem witness_RegisterWrites_2 :
  (∃ (s : State) (origin : Origin) (addr : PAddr) (value : Word) (u : UnitId) (r : RegRow), (inCsr addr.toNat = true) ∧ (s.originThere origin.toNat = true) ∧ ((addr.toNat - csrBase) % 8 = 0) ∧ (csrUnit (addr.toNat - csrBase) = some u) ∧ (0x200000 ≤ addr.toNat - csrBase - unitBase u) ∧ (findReg (addr.toNat - csrBase) = some r) ∧ (r.config = true) ∧ (s.auditRoom = true) ∧ (s.locked u origin.toNat = true)) ∧
  (∃ (s : State) (origin : Origin) (addr : PAddr) (size : AccSize) (value : Word) (u : UnitId), (inCsr addr.toNat = true) ∧ (s.originThere origin.toNat = true) ∧ (csrUnit (addr.toNat - csrBase) = some u) ∧ (size ≠ .b8 ∨ (addr.toNat - csrBase) % 8 ≠ 0)) :=
  ⟨⟨regs [(UNIT_LOCK.LOCKED (unitBase .sep), 1)] State.reset, 0, 0xF00004200000, 1, .sep, reg 0x4200000, by decide +kernel⟩,
   ⟨State.reset, 0, 0xF00004200004, .b8, 1, .sep, by decide +kernel⟩⟩

theorem witness_BusAccesses :
  (∃ (s : State) (origin : Origin) (addr : PAddr) (size : AccSize) (u : UnitId), (inCsr addr.toNat = true) ∧ (s.originThere origin.toNat = true) ∧ (csrUnit (addr.toNat - csrBase) = some u) ∧ ((addr.toNat - csrBase) % size.bytes = 0) ∧ (State.implemented u ((addr.toNat - csrBase) / 8 * 8) = true)) ∧
  (∃ (s : State) (origin : Origin) (addr : PAddr) (size : AccSize) (u : UnitId), (inCsr addr.toNat = true) ∧ (s.originThere origin.toNat = true) ∧ (csrUnit (addr.toNat - csrBase) = some u) ∧ ((addr.toNat - csrBase) % size.bytes = 0) ∧ ((addr.toNat - csrBase) / 8 * 8 < 0x5200000 ∨ 0x5300000 ≤ (addr.toNat - csrBase) / 8 * 8) ∧ (State.implemented u ((addr.toNat - csrBase) / 8 * 8) = true)) ∧
  (∃ (s : State) (origin : Origin) (addr : PAddr) (size : AccSize) (u : UnitId), (inCsr addr.toNat = true) ∧ (s.originThere origin.toNat = true) ∧ (csrUnit (addr.toNat - csrBase) = some u) ∧ ((addr.toNat - csrBase) % size.bytes = 0) ∧ (State.implemented u ((addr.toNat - csrBase) / 8 * 8) = false)) ∧
  (∃ (s : State) (origin : Origin) (addr : PAddr) (size : AccSize) (u : UnitId), (inCsr addr.toNat = true) ∧ (s.originThere origin.toNat = true) ∧ (csrUnit (addr.toNat - csrBase) = some u) ∧ ((addr.toNat - csrBase) % size.bytes ≠ 0)) :=
  ⟨⟨State.reset, 0, 0xF00004200004, .b4, .sep, by decide +kernel⟩,
   ⟨State.reset, 0, 0xF00004200004, .b4, .sep, by decide +kernel⟩,
   ⟨State.reset, 0, 0xF00004300000, .b4, .sep, by decide +kernel⟩,
   ⟨State.reset, 0, 0xF00004200004, .b8, .sep, by decide +kernel⟩⟩

theorem witness_BusAccesses_2 :
  (∃ (s : State) (origin : Origin) (addr : PAddr), (s.originThere origin.toNat = true) ∧ (s.isHole addr.toNat = true)) ∧
  (∃ (s : State) (origin : Origin) (addr : PAddr) (size : AccSize) (v : Word), (s.originThere origin.toNat = true) ∧ (inVat addr.toNat = true) ∧ (addr.toNat % 8 + size.bytes ≤ 8)) ∧
  (∃ (s : State) (origin : Origin) (addr : PAddr) (size : AccSize), (s.originThere origin.toNat = true) ∧ (inVat addr.toNat = true) ∧ (addr.toNat % 8 + size.bytes ≤ 8)) ∧
  (∃ (s : State) (origin : Origin) (addr : PAddr) (size : AccSize) (v : Word) (ce : Bool), (s.originThere origin.toNat = true) ∧ (inVat addr.toNat = true) ∧ (8 < addr.toNat % 8 + size.bytes)) :=
  ⟨⟨State.reset, 0, 0xC00000000000, by decide +kernel⟩,
   ⟨State.reset, 0, 0xD00000000004, .b4, 5, by decide +kernel⟩,
   ⟨State.reset, 0, 0xD00000000000, .b8, by decide +kernel⟩,
   ⟨State.reset, 0, 0xD00000000004, .b8, 5, false, by decide +kernel⟩⟩

theorem witness_BusAccesses_3 :
  (∃ (s : State) (origin : Origin) (u : UnitId) (off : Nat) (size : AccSize), (s.originThere origin.toNat = true) ∧ (off < 0x40000) ∧ (off % size.bytes = 0) ∧ (4 ≤ size.bytes)) ∧
  (∃ (s : State) (origin : Origin) (u : UnitId) (off : Nat) (size : AccSize), (s.originThere origin.toNat = true) ∧ (off < 0x40000) ∧ (off % size.bytes = 0) ∧ (4 ≤ size.bytes) ∧ (0x10 ≤ off % 0x40)) ∧
  (∃ (s : State) (origin : Origin) (u : UnitId) (off : Nat) (size : AccSize), (s.originThere origin.toNat = true) ∧ (off < 0x40000) ∧ (off % size.bytes ≠ 0 ∨ size.bytes < 4)) ∧
  (∃ (s : State) (origin : Origin) (u : UnitId) (off : Nat) (size : AccSize), (s.originThere origin.toNat = true) ∧ (off < 0x40000) ∧ (off % size.bytes ≠ 0 ∨ size.bytes < 4)) :=
  ⟨⟨State.reset, 0, .sep, 0x48, .b4, by decide +kernel⟩,
   ⟨State.reset, 0, .sep, 0x10, .b4, by decide +kernel⟩,
   ⟨State.reset, 0, .sep, 2, .b4, by decide +kernel⟩,
   ⟨State.reset, 0, .sep, 0, .b2, by decide +kernel⟩⟩

theorem witness_DoorbellWrites :
  (∃ (s : State) (origin : Origin) (u : UnitId) (ring value : Nat), (s.originThere origin.toNat = true) ∧ (s.doorbellOk u ring origin = true) ∧ (s.ringSt u ring ≠ Rst.disabled) ∧ (s.ringSt u ring ≠ Rst.error) ∧ (value < 65536) ∧ (value < s.ringSize u ring)) ∧
  (∃ (s : State) (origin : Origin) (u : UnitId) (ring value : Nat), (s.originThere origin.toNat = true) ∧ (s.doorbellOk u ring origin = true) ∧ (s.ringSt u ring ≠ Rst.disabled) ∧ (s.ringSt u ring ≠ Rst.error) ∧ (value < 65536) ∧ (value < s.ringSize u ring) ∧ (releases (s.ring u ring) value (s.ringSize u ring) ≤ (s.ring u ring).posted)) ∧
  (∃ (s : State) (origin : Origin) (u : UnitId) (ring value : Nat), (s.originThere origin.toNat = true) ∧ (s.doorbellOk u ring origin = true) ∧ (s.ringSt u ring ≠ Rst.disabled) ∧ (s.ringSt u ring ≠ Rst.error) ∧ (value < 65536) ∧ (s.ringSize u ring ≤ value)) ∧
  (∃ (s : State) (origin : Origin) (u : UnitId) (ring value : Nat), (s.originThere origin.toNat = true) ∧ (s.doorbellOk u ring origin = true) ∧ (s.ringSt u ring ≠ Rst.disabled) ∧ (s.ringSt u ring ≠ Rst.error) ∧ (value < 65536) ∧ (value < s.ringSize u ring) ∧ ((s.ring u ring).posted < releases (s.ring u ring) value (s.ringSize u ring))) :=
  ⟨⟨regs [(RING_STATUS.STATE (unitBase .sep) 0, 1)] State.reset, 0, .sep, 0, 15, by decide +kernel⟩,
   ⟨(regs [(RING_STATUS.STATE (unitBase .sep) 0, 1)] State.reset).setRing .sep 0 { posted := 4 }, 0, .sep, 0, 3, by decide +kernel⟩,
   ⟨regs [(RING_STATUS.STATE (unitBase .sep) 0, 1)] State.reset, 0, .sep, 0, 16, by decide +kernel⟩,
   ⟨regs [(RING_STATUS.STATE (unitBase .sep) 0, 1)] State.reset, 0, .sep, 0, 3, by decide +kernel⟩⟩

theorem witness_DoorbellWrites_2 :
  (∃ (s : State) (origin : Origin) (u : UnitId) (ring value : Nat), (s.originThere origin.toNat = true) ∧ (s.doorbellOk u ring origin = true) ∧ (s.ringSt u ring = Rst.disabled ∨ s.ringSt u ring = Rst.error) ∧ (value < 65536)) ∧
  (∃ (s : State) (origin : Origin) (u : UnitId) (ring value : Nat), (s.originThere origin.toNat = true) ∧ (ring < unitRings u) ∧ (s.ringAccepts u ring origin.toNat = false)) :=
  ⟨⟨State.reset, 0, .sep, 0, 3, by decide +kernel⟩,
   ⟨regs [(RING_OWNER.ANY (unitBase .sep) 0, 0)] State.reset, 7, .sep, 0, 1, by decide +kernel⟩⟩

theorem witness_RingStateMachine :
  (∃ (s : State) (origin : Origin) (u : UnitId) (ring : Nat), (ring < unitRings u) ∧ (s.ringSt u ring = Rst.disabled) ∧ (s.ringValid u ring = true)) ∧
  (∃ (s : State) (origin : Origin) (u : UnitId) (ring : Nat), (ring < unitRings u) ∧ (s.ringSt u ring = Rst.active)) ∧
  (∃ (s : State) (origin : Origin) (u : UnitId) (ring : Nat), (ring < unitRings u) ∧ (s.ringSt u ring = Rst.active) ∧ ((s.ring u ring).fetched = [])) ∧
  (∃ (s : State) (origin : Origin) (u : UnitId) (ring : Nat), (ring < unitRings u) ∧ (s.ringSt u ring = Rst.disabled) ∧ (s.ringValid u ring = false)) :=
  ⟨⟨regs [(RING_DBASE.BASE (unitBase .sep) 0, 16), (RING_CBASE.BASE (unitBase .sep) 0, 32)] State.reset, 0, .sep, 0, by decide +kernel⟩,
   ⟨regs [(RING_STATUS.STATE (unitBase .sep) 0, 1)] State.reset, 0, .sep, 0, by decide +kernel⟩,
   ⟨regs [(RING_STATUS.STATE (unitBase .sep) 0, 1)] State.reset, 0, .sep, 0, by decide +kernel⟩,
   ⟨regs [(RING_CFG.LOG2_SIZE (unitBase .sep) 0, 31)] State.reset, 0, .sep, 0, by decide +kernel⟩⟩

theorem witness_RingStateMachine_2 :
  (∃ (s : State) (u : UnitId) (ring : Nat), (s.ringSt u ring = Rst.stopping) ∧ ((s.ring u ring).fetched = []) ∧ (s.unfetched u ring = 0)) ∧
  (∃ (s : State) (origin : Origin) (u : UnitId) (ring : Nat), (ring < unitRings u) ∧ (s.ringSt u ring = Rst.stopped)) ∧
  (∃ (s : State) (origin : Origin) (u : UnitId) (ring : Nat), (ring < unitRings u) ∧ (s.ringSt u ring = Rst.stopped)) ∧
  (∃ (s : State) (origin : Origin) (u : UnitId) (ring : Nat), (ring < unitRings u) ∧ (s.ringSt u ring = Rst.stopped) ∧ (u ≠ .vat)) :=
  ⟨⟨regs [(RING_STATUS.STATE (unitBase .sep) 0, 2)] State.reset, .sep, 0, by decide +kernel⟩,
   ⟨regs [(RING_STATUS.STATE (unitBase .sep) 0, 3)] State.reset, 0, .sep, 0, by decide +kernel⟩,
   ⟨regs [(RING_STATUS.STATE (unitBase .sep) 0, 3)] State.reset, 0, .sep, 0, by decide +kernel⟩,
   ⟨regs [(RING_STATUS.STATE (unitBase .sep) 0, 3)] State.reset, 0, .sep, 0, by decide +kernel⟩⟩

theorem witness_RingStateMachine_3 :
  (∃ (s : State) (origin : Origin) (u : UnitId) (ring : Nat), (ring < unitRings u) ∧ (s.ringSt u ring = Rst.error) ∧ ((s.ring u ring).fetched = [])) ∧
  (∃ (s : State) (u : UnitId) (ring : Nat), (s.ringSt u ring = Rst.error) ∧ ((s.ring u ring).disabling = true) ∧ ((s.ring u ring).fetched = [])) ∧
  (∃ (s : State) (u : UnitId) (ring : Nat), (s.ringSt u ring = Rst.error) ∧ ((s.ring u ring).disabling = true) ∧ ((s.ring u ring).fetched = []) ∧ (u ≠ .vat)) ∧
  (∃ (s : State) (origin : Origin) (u : UnitId) (ring : Nat), (unitRings u ≤ ring ∨ s.ringSt u ring ≠ Rst.disabled)) :=
  ⟨⟨regs [(RING_STATUS.STATE (unitBase .sep) 0, 4)] State.reset, 0, .sep, 0, by decide +kernel⟩,
   ⟨(regs [(RING_STATUS.STATE (unitBase .sep) 0, 4)] State.reset).setRing .sep 0 { disabling := true }, .sep, 0, by decide +kernel⟩,
   ⟨(regs [(RING_STATUS.STATE (unitBase .sep) 0, 4)] State.reset).setRing .sep 0 { disabling := true }, .sep, 0, by decide +kernel⟩,
   ⟨regs [(RING_STATUS.STATE (unitBase .sep) 0, 1)] State.reset, 0, .sep, 0, by decide +kernel⟩⟩

theorem witness_RingStateMachine_4 :
  (∃ (s : State) (origin : Origin) (u : UnitId) (ring : Nat), (ring < unitRings u) ∧ (s.ringSt u ring ≠ Rst.stopped)) :=
  ⟨State.reset, 0, .sep, 0, by decide +kernel⟩

theorem witness_DescriptorsAreFetchedAndStarted :
  (∃ (s : State) (u : UnitId) (ring : Nat) (img : List Byte), (ring < unitRings u) ∧ (s.unitWorks u = true) ∧ (s.fetching u ring = true) ∧ (s.unfetched u ring ≠ 0) ∧ (s.cplRoom u ring = true) ∧ (s.rd (RING_STATUS.CONS_IDX (unitBase u) ring) < s.ringSize u ring) ∧ ((s.dmaRead u (s.rd (RING_DBASE.BASE (unitBase u) ring) * 4096 + s.rd (RING_STATUS.CONS_IDX (unitBase u) ring) * 64) 64 (some ring)).toOption = some img) ∧ ((fieldAt img 1 1).testBit 2 = false)) ∧
  (∃ (s : State) (u : UnitId) (ring : Nat) (imgs : List (List Byte)), (ring < unitRings u) ∧ (s.unitWorks u = true) ∧ (s.fetching u ring = true) ∧ (s.unfetched u ring ≠ 0) ∧ (s.cplRoom u ring = true) ∧ ((s.fetchChain u ring (s.rd (RING_STATUS.CONS_IDX (unitBase u) ring)) (s.unfetched u ring)).toOption = some (some imgs))) ∧
  (∃ (s : State) (u : UnitId) (d : DescRef) (f : Fetched), (s.fetchedAt u d = some f) ∧ (f.phase = .fetched) ∧ (s.unitWorks u = true) ∧ (mayStart ((s.ring u d.ring).fetched.takeWhile (·.slot ≠ d.slot)) f = true) ∧ (pressHeld u ((s.ring u d.ring).fetched.takeWhile (·.slot ≠ d.slot)) f = false) ∧ (generalCheck u f = none)) ∧
  (∃ (s : State) (u : UnitId) (d : DescRef) (f : Fetched) (st : Nat), (s.fetchedAt u d = some f) ∧ (f.phase = .fetched) ∧ (s.unitWorks u = true) ∧ (mayStart ((s.ring u d.ring).fetched.takeWhile (·.slot ≠ d.slot)) f = true) ∧ (pressHeld u ((s.ring u d.ring).fetched.takeWhile (·.slot ≠ d.slot)) f = false) ∧ (generalCheck u f = some st) ∧ (auditedOp u f.opcode = true → s.auditRoom = true) ∧ (s.inOrder u d = true)) :=
  ⟨⟨(regs [(RING_STATUS.STATE (unitBase .ten) 0, 1), (DDR_CFG.CAP_GIB, 16)] State.reset).setRing .ten 0 { prod := 1 }, .ten, 0, List.replicate 64 0, by decide +kernel⟩,
   ⟨(regs [(RING_STATUS.STATE (unitBase .ten) 0, 1), (DDR_CFG.CAP_GIB, 16)] State.reset).setRing .ten 0 { prod := 1 }, .ten, 0, [List.replicate 64 0], by decide +kernel⟩,
   ⟨holds .ten [desc 0 Op.mailRecv [] .fetched] State.reset, .ten, ⟨0, 0⟩, desc 0 Op.mailRecv [] .fetched, by decide +kernel⟩,
   ⟨holds .ten [desc 0 0xEE [] .fetched] State.reset, .ten, ⟨0, 0⟩, desc 0 0xEE [] .fetched, St.opcodeInvalid, by decide +kernel⟩⟩

theorem witness_DescriptorsAreFetchedAndStarted_2 :
  (∃ (s : State) (u : UnitId) (ring : Nat), (s.due (s.ring u ring).holdUntil = true) ∧ ((s.ring u ring).owed = true)) ∧
  (∃ (s : State) (u : UnitId) (ring : Nat), (s.due (s.ring u ring).holdUntil = true) ∧ ((s.ring u ring).owed = false)) :=
  ⟨⟨State.reset.setRing .sep 0 { holdUntil := some 0, owed := true }, .sep, 0, by decide +kernel⟩,
   ⟨State.reset.setRing .sep 0 { holdUntil := some 0 }, .sep, 0, by decide +kernel⟩⟩

theorem witness_UnitEnable :
  (∃ (s : State) (origin : Origin) (u : UnitId) (f : Fld), (enField u = some f) ∧ (u ≠ .cool) ∧ (s.on f = false) ∧ (s.admits u origin = true)) ∧
  (∃ (s : State) (origin : Origin), (s.admits .cool origin = true)) ∧
  (∃ (s : State) (origin : Origin) (u : UnitId) (f : Fld), (enField u = some f) ∧ (u ≠ .cool) ∧ (s.on f = true) ∧ (s.admits u origin = true)) :=
  ⟨⟨State.reset, 0, .sep, SEP_CTL.EN, by decide +kernel⟩,
   ⟨State.reset, 0, by decide +kernel⟩,
   ⟨regs [(SEP_CTL.EN, 1)] State.reset, 0, .sep, SEP_CTL.EN, by decide +kernel⟩⟩

theorem witness_RailsAreEnabledResetAndLost :
  (∃ (s : State) (origin : Origin) (r : Rail), (s.admits (railUnit r) origin = true) ∧ (s.rd (RAIL_STATUS.STATE (railIx r)) = Rst'.off)) ∧
  (∃ (s : State) (origin : Origin) (r : Rail), (s.admits (railUnit r) origin = true)) ∧
  (∃ (s : State) (origin : Origin) (r : Rail), (s.admits (railUnit r) origin = true) ∧ (s.rd (RAIL_STATUS.STATE (railIx r)) ≠ Rst'.failed)) ∧
  (∃ (s : State) (r : Rail) (cause : Nat), (cause = 2 ∨ cause = 3 ∨ cause = 4) ∧ (s.rd (RAIL_STATUS.STATE (railIx r)) ≠ Rst'.failed)) :=
  ⟨⟨State.reset, 0, .a, by decide +kernel⟩,
   ⟨regs [(RAIL_STATUS.STATE 0, 2)] State.reset, 0, .a, by decide +kernel⟩,
   ⟨regs [(RAIL_STATUS.STATE 0, 1)] State.reset, 0, .a, by decide +kernel⟩,
   ⟨regs [(RAIL_STATUS.STATE 0, 1)] State.reset, .a, 4, by decide +kernel⟩⟩

theorem witness_RailsAreEnabledResetAndLost_2 :
  (∃ (s : State) (lport codewords : Nat) (up fec : Bool), (lport < 16) ∧ (up = true → s.railActive (if lport / 8 = 0 then .a else .b) = true) ∧ (up = true → s.on (RAIL_PORT_CFG.EN (lport / 8) (lport / 4 % 2)) = true) ∧ (up = true → s.lportActive lport = true)) :=
  ⟨regs [(RAIL_STATUS.STATE 0, 1), (RAIL_PORT_CFG.EN 0 0, 1), (RAIL_PORT_CFG.MODE 0 0, 2)] State.reset, 3, 5, true, true, by decide +kernel⟩

theorem witness_FramesEnterAndLeaveTheReceiveBuffer :
  (∃ (s : State) (frame : Frame) (t : State), (frame.lport < 16) ∧ (s.railActive (portRail (frame.lport / 4)) = true) ∧ (s.on (RAIL_PORT_CFG.EN (frame.lport / 8) (frame.lport / 4 % 2)) = true) ∧ (s.bit (RAIL_PORT_STATUS.LINK_UP (frame.lport / 8) (frame.lport / 4 % 2)) (frame.lport % 4) = true) ∧ (frame.good = true) ∧ (frame.size ≤ s.rd (RAIL_PORT_CFG.MTU (frame.lport / 8) (frame.lport / 4 % 2))) ∧ (t = s.setRails { s.rails with rx := Tab.set s.rails.rx (frame.lport / 4) (Tab.getD s.rails.rx (frame.lport / 4) [] ++ [frame]) }) ∧ (t.rxHeld (frame.lport / 4) ≤ 2 ^ 20) ∧ (frame.body ≠ .other)) ∧
  (∃ (s : State) (frame : Frame) (t : State), (frame.lport < 16) ∧ (s.railActive (portRail (frame.lport / 4)) = true) ∧ (s.on (RAIL_PORT_CFG.EN (frame.lport / 8) (frame.lport / 4 % 2)) = true) ∧ (s.bit (RAIL_PORT_STATUS.LINK_UP (frame.lport / 8) (frame.lport / 4 % 2)) (frame.lport % 4) = true) ∧ (frame.good = true) ∧ (frame.size ≤ s.rd (RAIL_PORT_CFG.MTU (frame.lport / 8) (frame.lport / 4 % 2))) ∧ (t = s.setRails { s.rails with rx := Tab.set s.rails.rx (frame.lport / 4) (Tab.getD s.rails.rx (frame.lport / 4) [] ++ [frame]) }) ∧ (t.rxHeld (frame.lport / 4) ≤ 655360) ∧ (frame.body ≠ .other)) ∧
  (∃ (s : State) (frame : Frame) (t : State), (frame.lport < 16) ∧ (s.railActive (portRail (frame.lport / 4)) = true) ∧ (s.on (RAIL_PORT_CFG.EN (frame.lport / 8) (frame.lport / 4 % 2)) = true) ∧ (s.bit (RAIL_PORT_STATUS.LINK_UP (frame.lport / 8) (frame.lport / 4 % 2)) (frame.lport % 4) = true) ∧ (frame.good = true) ∧ (frame.size ≤ s.rd (RAIL_PORT_CFG.MTU (frame.lport / 8) (frame.lport / 4 % 2))) ∧ (t = s.setRails { s.rails with rx := Tab.set s.rails.rx (frame.lport / 4) (Tab.getD s.rails.rx (frame.lport / 4) [] ++ [frame]) }) ∧ (t.rxHeld (frame.lport / 4) ≤ 2 ^ 20) ∧ (frame.body = .other)) ∧
  (∃ (s : State) (frame : Frame), (frame.lport < 16) ∧ (s.railActive (portRail (frame.lport / 4)) = true) ∧ (s.on (RAIL_PORT_CFG.EN (frame.lport / 8) (frame.lport / 4 % 2)) = true) ∧ (s.bit (RAIL_PORT_STATUS.LINK_UP (frame.lport / 8) (frame.lport / 4 % 2)) (frame.lport % 4) = true) ∧ (frame.good = false ∨ s.rd (RAIL_PORT_CFG.MTU (frame.lport / 8) (frame.lport / 4 % 2)) < frame.size)) :=
  ⟨⟨regs [(RAIL_STATUS.STATE 0, 1), (RAIL_PORT_CFG.EN 0 0, 1), (RAIL_PORT_STATUS.LINK_UP 0 0, 1)] State.reset, { lport := 0, size := 100, prio := 0, good := true, body := .roce { qpn := 1, op := 4, psn := 0 } }, (regs [(RAIL_STATUS.STATE 0, 1), (RAIL_PORT_CFG.EN 0 0, 1), (RAIL_PORT_STATUS.LINK_UP 0 0, 1)] State.reset).setRails { rx := [(0, [{ lport := 0, size := 100, prio := 0, good := true, body := .roce { qpn := 1, op := 4, psn := 0 } }])] }, ⟨by decide +kernel, by decide +kernel, by decide +kernel, by decide +kernel, by decide +kernel, by decide +kernel, by first | with_reducible rfl | decide +kernel, by decide +kernel, by decide +kernel⟩⟩,
   ⟨regs [(RAIL_STATUS.STATE 0, 1), (RAIL_PORT_CFG.EN 0 0, 1), (RAIL_PORT_STATUS.LINK_UP 0 0, 1)] State.reset, { lport := 0, size := 100, prio := 0, good := true, body := .roce { qpn := 1, op := 4, psn := 0 } }, (regs [(RAIL_STATUS.STATE 0, 1), (RAIL_PORT_CFG.EN 0 0, 1), (RAIL_PORT_STATUS.LINK_UP 0 0, 1)] State.reset).setRails { rx := [(0, [{ lport := 0, size := 100, prio := 0, good := true, body := .roce { qpn := 1, op := 4, psn := 0 } }])] }, ⟨by decide +kernel, by decide +kernel, by decide +kernel, by decide +kernel, by decide +kernel, by decide +kernel, by first | with_reducible rfl | decide +kernel, by decide +kernel, by decide +kernel⟩⟩,
   ⟨regs [(RAIL_STATUS.STATE 0, 1), (RAIL_PORT_CFG.EN 0 0, 1), (RAIL_PORT_STATUS.LINK_UP 0 0, 1)] State.reset, { lport := 0, size := 100, prio := 0, good := true, body := .other }, (regs [(RAIL_STATUS.STATE 0, 1), (RAIL_PORT_CFG.EN 0 0, 1), (RAIL_PORT_STATUS.LINK_UP 0 0, 1)] State.reset).setRails { rx := [(0, [{ lport := 0, size := 100, prio := 0, good := true, body := .other }])] }, ⟨by decide +kernel, by decide +kernel, by decide +kernel, by decide +kernel, by decide +kernel, by decide +kernel, by first | with_reducible rfl | decide +kernel, by decide +kernel, by decide +kernel⟩⟩,
   ⟨regs [(RAIL_STATUS.STATE 0, 1), (RAIL_PORT_CFG.EN 0 0, 1), (RAIL_PORT_STATUS.LINK_UP 0 0, 1)] State.reset, { lport := 0, size := 100, prio := 0, good := false, body := .other }, by decide +kernel⟩⟩

theorem witness_FramesEnterAndLeaveTheReceiveBuffer_2 :
  (∃ (s : State) (port : Nat) (f : Frame) (p : RocePkt) (t : State), (s.popFrame port = some (f, t)) ∧ (f.body = .roce p) ∧ (p.op ≠ 0x81) ∧ (qpBase ≤ p.qpn)) ∧
  (∃ (s : State) (port : Nat) (f : Frame) (p : RocePkt) (t : State), (s.popFrame port = some (f, t)) ∧ (f.body = .roce p) ∧ (p.op ≠ 0x81) ∧ (p.qpn < qpBase)) ∧
  (∃ (s : State) (port : Nat) (f : Frame) (p : RocePkt) (t : State), (s.popFrame port = some (f, t)) ∧ (f.body = .roce p) ∧ (p.op = 0x81)) ∧
  (∃ (s : State) (port : Nat) (f : Frame) (g : TcpSeg) (t : State), (s.popFrame port = some (f, t)) ∧ (f.body = .tcp g) ∧ (t.tcpFor f.lport g = none)) :=
  ⟨⟨State.reset.setRails { rx := [(0, [{ lport := 0, size := 100, prio := 0, good := true, body := .roce { qpn := 0x20000, op := 4, psn := 0 } }])] }, 0, { lport := 0, size := 100, prio := 0, good := true, body := .roce { qpn := 0x20000, op := 4, psn := 0 } }, { qpn := 0x20000, op := 4, psn := 0 }, State.reset.setRails { rx := [(0, [])] }, by decide +kernel⟩,
   ⟨State.reset.setRails { rx := [(0, [{ lport := 0, size := 100, prio := 0, good := true, body := .roce { qpn := 1, op := 4, psn := 0 } }])] }, 0, { lport := 0, size := 100, prio := 0, good := true, body := .roce { qpn := 1, op := 4, psn := 0 } }, { qpn := 1, op := 4, psn := 0 }, State.reset.setRails { rx := [(0, [])] }, by decide +kernel⟩,
   ⟨State.reset.setRails { rx := [(0, [{ lport := 0, size := 100, prio := 0, good := true, body := .roce { qpn := 0x20000, op := 0x81, psn := 0 } }])] }, 0, { lport := 0, size := 100, prio := 0, good := true, body := .roce { qpn := 0x20000, op := 0x81, psn := 0 } }, { qpn := 0x20000, op := 0x81, psn := 0 }, State.reset.setRails { rx := [(0, [])] }, by decide +kernel⟩,
   ⟨State.reset.setRails { rx := [(0, [{ lport := 0, size := 100, prio := 0, good := true, body := .tcp { remote := [], sport := 1, dport := 2, seq := 0, ack := 0, wnd := 0 } }])] }, 0, { lport := 0, size := 100, prio := 0, good := true, body := .tcp { remote := [], sport := 1, dport := 2, seq := 0, ack := 0, wnd := 0 } }, { remote := [], sport := 1, dport := 2, seq := 0, ack := 0, wnd := 0 }, State.reset.setRails { rx := [(0, [])] }, by decide +kernel⟩⟩

theorem witness_FramesEnterAndLeaveTheReceiveBuffer_3 :
  (∃ (s : State) (port c : Nat) (f : Frame) (g : TcpSeg) (t : State), (s.popFrame port = some (f, t)) ∧ (f.body = .tcp g) ∧ (t.tcpFor f.lport g = some c)) ∧
  (∃ (s : State) (c port : Nat) (f : Frame) (x : Ctx), (s.ctx c = some x) ∧ (x.rail = portRail port) ∧ (s.holding c = false) ∧ (x.resident = true)) :=
  ⟨⟨State.reset.setRails { rx := [(0, [{ lport := 0, size := 100, prio := 0, good := true, body := .tcp { remote := [], sport := 1, dport := 2, seq := 0, ack := 0, wnd := 0 } }])], ctxs := [(7, { rail := .a, lport := 0, parlour := true, pin := false, resident := true, rate := 100, target := 50, body := .tcp { lport := 2, rport := 1, sndUna := 0, sndNxt := 0, rcvNxt := 0, sndWnd := 0, sndScale := 0, rcvScale := 0, sackOn := false, tsOn := false, ecnOn := false, mss := 1460, tsRecent := 0, hdgst := false, ddgst := false } })] }, 0, 7, { lport := 0, size := 100, prio := 0, good := true, body := .tcp { remote := [], sport := 1, dport := 2, seq := 0, ack := 0, wnd := 0 } }, { remote := [], sport := 1, dport := 2, seq := 0, ack := 0, wnd := 0 }, State.reset.setRails { rx := [(0, [])], ctxs := [(7, { rail := .a, lport := 0, parlour := true, pin := false, resident := true, rate := 100, target := 50, body := .tcp { lport := 2, rport := 1, sndUna := 0, sndNxt := 0, rcvNxt := 0, sndWnd := 0, sndScale := 0, rcvScale := 0, sackOn := false, tsOn := false, ecnOn := false, mss := 1460, tsRecent := 0, hdgst := false, ddgst := false } })] }, by decide +kernel⟩,
   ⟨State.reset.setRails { ctxs := [(7, { rail := .a, lport := 0, parlour := true, pin := false, resident := true, rate := 100, target := 50, body := .tcp { lport := 2, rport := 1, sndUna := 0, sndNxt := 0, rcvNxt := 0, sndWnd := 0, sndScale := 0, rcvScale := 0, sackOn := false, tsOn := false, ecnOn := false, mss := 1460, tsRecent := 0, hdgst := false, ddgst := false } })] }, 7, 0, { lport := 0, size := 100, prio := 0, good := true, body := .tcp { remote := [], sport := 1, dport := 2, seq := 0, ack := 0, wnd := 0 } }, { rail := .a, lport := 0, parlour := true, pin := false, resident := true, rate := 100, target := 50, body := .tcp { lport := 2, rport := 1, sndUna := 0, sndNxt := 0, rcvNxt := 0, sndWnd := 0, sndScale := 0, rcvScale := 0, sackOn := false, tsOn := false, ecnOn := false, mss := 1460, tsRecent := 0, hdgst := false, ddgst := false } }, by decide +kernel⟩⟩

theorem witness_TransportContextsAndTheirTimers :
  (∃ (s : State) (c : Nat) (x : Ctx), (s.ctx c = some x) ∧ (s.rails.fetches.contains c = true)) ∧
  (∃ (s : State) (c : Nat) (x : Ctx) (q : Qp), (s.ctx c = some x) ∧ (x.body = .qp q) ∧ (s.rails.fetches.contains c = true)) ∧
  (∃ (s : State) (c target rate : Nat) (x : Ctx), (s.ctx c = some x) ∧ (s.due x.riseAt = true) ∧ (target = if s.rd (RDMA_CC_CFG0.FAST_STAGES (railIx x.rail)) ≤ x.stage then min (s.lineRate x.lport) (x.target + s.rd (RDMA_CC_CFG1.R_AI (railIx x.rail))) else x.target) ∧ (rate = (x.rate + target + 1) / 2)) ∧
  (∃ (s : State) (c : Nat) (q : Qp), (s.qp c = some q) ∧ (s.due q.ackBy = true) ∧ (q.st = Qst.rts ∨ q.st = Qst.sqd) ∧ (q.tries = 0)) :=
  ⟨⟨State.reset.setRails { ctxs := [(7, { rail := .a, lport := 0, parlour := true, pin := false, resident := false, rate := 100, target := 50, body := .qp { } })], fetches := [7] }, 7, { rail := .a, lport := 0, parlour := true, pin := false, resident := false, rate := 100, target := 50, body := .qp { } }, by decide +kernel⟩,
   ⟨State.reset.setRails { ctxs := [(7, { rail := .a, lport := 0, parlour := true, pin := false, resident := false, rate := 100, target := 50, body := .qp { } })], fetches := [7] }, 7, { rail := .a, lport := 0, parlour := true, pin := false, resident := false, rate := 100, target := 50, body := .qp { } }, { }, by decide +kernel⟩,
   ⟨State.reset.setRails { ctxs := [(7, { rail := .a, lport := 0, parlour := true, pin := false, resident := true, rate := 100, target := 200, riseAt := some 0, body := .qp { } })] }, 7, 200, 150, { rail := .a, lport := 0, parlour := true, pin := false, resident := true, rate := 100, target := 200, riseAt := some 0, body := .qp { } }, by decide +kernel⟩,
   ⟨State.reset.setRails { ctxs := [(7, { rail := .a, lport := 0, parlour := true, pin := false, resident := true, rate := 100, target := 50, body := .qp { st := 3, ackBy := some 0 } })] }, 7, { st := 3, ackBy := some 0 }, by decide +kernel⟩⟩

theorem witness_TransportContextsAndTheirTimers_2 :
  (∃ (s : State) (c : Nat) (q : Qp), (s.qp c = some q) ∧ (s.due q.ackBy = true) ∧ (q.st = Qst.rts ∨ q.st = Qst.sqd) ∧ (q.tries ≠ 0)) ∧
  (∃ (s : State) (c : Nat) (q : Qp), (s.qp c = some q) ∧ (s.due q.rnrBy = true) ∧ (q.rnrRetry ≠ 7) ∧ (q.rnrTries = 0)) ∧
  (∃ (s : State) (c : Nat) (q : Qp), (s.qp c = some q) ∧ (s.due q.rnrBy = true) ∧ (q.rnrRetry = 7 ∨ q.rnrTries ≠ 0)) ∧
  (∃ (s : State) (r : Rail) (key : Nat) (v w : Invalidate), (s.rails.invs.find? (fun v => v.key == key && !v.visible && (if r == .a then v.waitA else v.waitB)) = some v) ∧ (w = if r = .a then { v with waitA := false } else { v with waitB := false })) :=
  ⟨⟨State.reset.setRails { ctxs := [(7, { rail := .a, lport := 0, parlour := true, pin := false, resident := true, rate := 100, target := 50, body := .qp { st := 3, ackBy := some 0, tries := 2 } })] }, 7, { st := 3, ackBy := some 0, tries := 2 }, by decide +kernel⟩,
   ⟨State.reset.setRails { ctxs := [(7, { rail := .a, lport := 0, parlour := true, pin := false, resident := true, rate := 100, target := 50, body := .qp { st := 3, rnrBy := some 0 } })] }, 7, { st := 3, rnrBy := some 0 }, by decide +kernel⟩,
   ⟨State.reset.setRails { ctxs := [(7, { rail := .a, lport := 0, parlour := true, pin := false, resident := true, rate := 100, target := 50, body := .qp { st := 3, rnrBy := some 0, rnrTries := 2 } })] }, 7, { st := 3, rnrBy := some 0, rnrTries := 2 }, by decide +kernel⟩,
   ⟨State.reset.setRails { invs := [{ key := 256, desc := none, recv := none, waitA := true, waitB := false, limit := some 0, visible := false }] }, .a, 256, { key := 256, desc := none, recv := none, waitA := true, waitB := false, limit := some 0, visible := false }, { key := 256, desc := none, recv := none, waitA := false, waitB := false, limit := some 0, visible := false }, by decide +kernel⟩⟩

theorem witness_TransportContextsAndTheirTimers_3 :
  (∃ (s : State) (key : Nat) (v : Invalidate), (s.rails.invs.find? (fun v => v.key == key && v.visible && s.due v.limit) = some v)) ∧
  (∃ (s : State) (r : Rail) (c : Nat) (x : Ctx) (q : Qp) (h : OdpHold), (s.ctx c = some x) ∧ (x.body = .qp q) ∧ (x.rail = r) ∧ (q.hold = some h)) ∧
  (∃ (s : State) (c : Nat) (x : Ctx) (q : Qp) (h : OdpHold), (s.ctx c = some x) ∧ (x.body = .qp q) ∧ (q.hold = some h) ∧ (s.passed (h.since + s.rd (RDMA_ODP_CFG.TIMEOUT (railIx x.rail)) * mgmtTick) = true)) ∧
  (∃ (s : State) (c : Nat) (x : Ctx) (y : Tcp), (s.ctx c = some x) ∧ (x.body = .tcp y) ∧ (s.due y.rtoBy = true) ∧ (y.sent ≠ []) ∧ (7 ≤ y.rtos)) :=
  ⟨⟨State.reset.setRails { invs := [{ key := 256, desc := none, recv := none, waitA := false, waitB := false, limit := some 0, visible := true }] }, 256, { key := 256, desc := none, recv := none, waitA := false, waitB := false, limit := some 0, visible := true }, by decide +kernel⟩,
   ⟨State.reset.setRails { ctxs := [(7, { rail := .a, lport := 0, parlour := true, pin := false, resident := true, rate := 100, target := 50, body := .qp { hold := some ⟨true, 0, 0, false⟩ } })] }, .a, 7, { rail := .a, lport := 0, parlour := true, pin := false, resident := true, rate := 100, target := 50, body := .qp { hold := some ⟨true, 0, 0, false⟩ } }, { hold := some ⟨true, 0, 0, false⟩ }, ⟨true, 0, 0, false⟩, by decide +kernel⟩,
   ⟨{ State.reset.setRails { ctxs := [(7, { rail := .a, lport := 0, parlour := true, pin := false, resident := true, rate := 100, target := 50, body := .qp { hold := some ⟨true, 0, 0, false⟩ } })] } with now := 200000000 }, 7, { rail := .a, lport := 0, parlour := true, pin := false, resident := true, rate := 100, target := 50, body := .qp { hold := some ⟨true, 0, 0, false⟩ } }, { hold := some ⟨true, 0, 0, false⟩ }, ⟨true, 0, 0, false⟩, by decide +kernel⟩,
   ⟨State.reset.setRails { ctxs := [(7, { rail := .a, lport := 0, parlour := true, pin := false, resident := true, rate := 100, target := 50, body := .tcp { lport := 2, rport := 1, sndUna := 0, sndNxt := 0, rcvNxt := 0, sndWnd := 0, sndScale := 0, rcvScale := 0, sackOn := false, tsOn := false, ecnOn := false, mss := 1460, tsRecent := 0, hdgst := false, ddgst := false, rtoBy := some 0, rtos := 7, sent := [⟨0, [1], 0, false, false⟩] } })] }, 7, { rail := .a, lport := 0, parlour := true, pin := false, resident := true, rate := 100, target := 50, body := .tcp { lport := 2, rport := 1, sndUna := 0, sndNxt := 0, rcvNxt := 0, sndWnd := 0, sndScale := 0, rcvScale := 0, sackOn := false, tsOn := false, ecnOn := false, mss := 1460, tsRecent := 0, hdgst := false, ddgst := false, rtoBy := some 0, rtos := 7, sent := [⟨0, [1], 0, false, false⟩] } }, { lport := 2, rport := 1, sndUna := 0, sndNxt := 0, rcvNxt := 0, sndWnd := 0, sndScale := 0, rcvScale := 0, sackOn := false, tsOn := false, ecnOn := false, mss := 1460, tsRecent := 0, hdgst := false, ddgst := false, rtoBy := some 0, rtos := 7, sent := [⟨0, [1], 0, false, false⟩] }, by decide +kernel⟩⟩

theorem witness_TransportContextsAndTheirTimers_4 :
  (∃ (s : State) (c : Nat) (x : Ctx) (y z : Tcp) (e : TcpSent) (rest : List TcpSent), (s.ctx c = some x) ∧ (x.body = .tcp y) ∧ (s.due y.rtoBy = true) ∧ (y.sent = e :: rest) ∧ (y.rtos < 7) ∧ (z = ({ y with rtos := y.rtos + 1, rto := min 1600000000 (2 * y.rto), recover := some y.sndNxt, sacked := [], dupAcks := 0, cwrDue := y.cwrDue || y.ecnOn, sent := y.sent.map (fun e => { e with again := false }) } : Tcp).rearm s.now)) ∧
  (∃ (s : State) (c : Nat) (x : Ctx) (y : Tcp), (s.ctx c = some x) ∧ (x.body = .tcp y) ∧ (s.due y.rtoBy = true) ∧ (y.sent = [])) :=
  ⟨⟨State.reset.setRails { ctxs := [(7, { rail := .a, lport := 0, parlour := true, pin := false, resident := true, rate := 100, target := 50, body := .tcp { lport := 2, rport := 1, sndUna := 0, sndNxt := 0, rcvNxt := 0, sndWnd := 0, sndScale := 0, rcvScale := 0, sackOn := false, tsOn := false, ecnOn := false, mss := 1460, tsRecent := 0, hdgst := false, ddgst := false, rtoBy := some 0, sent := [⟨0, [1], 0, false, false⟩] } })] }, 7, { rail := .a, lport := 0, parlour := true, pin := false, resident := true, rate := 100, target := 50, body := .tcp { lport := 2, rport := 1, sndUna := 0, sndNxt := 0, rcvNxt := 0, sndWnd := 0, sndScale := 0, rcvScale := 0, sackOn := false, tsOn := false, ecnOn := false, mss := 1460, tsRecent := 0, hdgst := false, ddgst := false, rtoBy := some 0, sent := [⟨0, [1], 0, false, false⟩] } }, { lport := 2, rport := 1, sndUna := 0, sndNxt := 0, rcvNxt := 0, sndWnd := 0, sndScale := 0, rcvScale := 0, sackOn := false, tsOn := false, ecnOn := false, mss := 1460, tsRecent := 0, hdgst := false, ddgst := false, rtoBy := some 0, sent := [⟨0, [1], 0, false, false⟩] }, ({ ({ lport := 2, rport := 1, sndUna := 0, sndNxt := 0, rcvNxt := 0, sndWnd := 0, sndScale := 0, rcvScale := 0, sackOn := false, tsOn := false, ecnOn := false, mss := 1460, tsRecent := 0, hdgst := false, ddgst := false, rtoBy := some 0, sent := [⟨0, [1], 0, false, false⟩] } : Tcp) with rtos := 1, rto := 1600000000, recover := some 0 } : Tcp).rearm 0, ⟨0, [1], 0, false, false⟩, [], by decide +kernel⟩,
   ⟨State.reset.setRails { ctxs := [(7, { rail := .a, lport := 0, parlour := true, pin := false, resident := true, rate := 100, target := 50, body := .tcp { lport := 2, rport := 1, sndUna := 0, sndNxt := 0, rcvNxt := 0, sndWnd := 0, sndScale := 0, rcvScale := 0, sackOn := false, tsOn := false, ecnOn := false, mss := 1460, tsRecent := 0, hdgst := false, ddgst := false, rtoBy := some 0 } })] }, 7, { rail := .a, lport := 0, parlour := true, pin := false, resident := true, rate := 100, target := 50, body := .tcp { lport := 2, rport := 1, sndUna := 0, sndNxt := 0, rcvNxt := 0, sndWnd := 0, sndScale := 0, rcvScale := 0, sackOn := false, tsOn := false, ecnOn := false, mss := 1460, tsRecent := 0, hdgst := false, ddgst := false, rtoBy := some 0 } }, { lport := 2, rport := 1, sndUna := 0, sndNxt := 0, rcvNxt := 0, sndWnd := 0, sndScale := 0, rcvScale := 0, sackOn := false, tsOn := false, ecnOn := false, mss := 1460, tsRecent := 0, hdgst := false, ddgst := false, rtoBy := some 0 }, by decide +kernel⟩⟩

theorem witness_RailDescriptors :
  (∃ (s : State) (r : Rail) (d : DescRef) (f : Fetched), (s.startedAt (railUnit r) d Op.qpModify = some f) ∧ (s.railActive r = true) ∧ (f.ctx < ctxCount) ∧ (s.ctx f.ctx = none) ∧ (f.at 32 1 = Qst.init) ∧ (s.lportActive (railLport r (f.at 33 1 % 8)) = true) ∧ ((f.at 51 1).testBit 0 = true → s.pinRoom r f.ctx = true)) ∧
  (∃ (s : State) (r : Rail) (d : DescRef) (f : Fetched) (x : Ctx) (q : Qp), (s.startedAt (railUnit r) d Op.qpModify = some f) ∧ (s.railActive r = true) ∧ (f.ctx < ctxCount) ∧ (s.ctx f.ctx = some x) ∧ (x.rail = r) ∧ (x.body = .qp q) ∧ (q.sqd.any (fun e => e.1 == d) = false) ∧ (q.st = Qst.init) ∧ (f.at 32 1 = Qst.init)) ∧
  (∃ (s : State) (r : Rail) (d : DescRef) (f : Fetched) (x : Ctx) (q : Qp), (s.startedAt (railUnit r) d Op.qpModify = some f) ∧ (s.railActive r = true) ∧ (f.ctx < ctxCount) ∧ (s.ctx f.ctx = some x) ∧ (x.rail = r) ∧ (x.body = .qp q) ∧ (q.sqd.any (fun e => e.1 == d) = false) ∧ (q.st = Qst.init) ∧ (f.at 32 1 = Qst.rtr) ∧ (f.imgs.length = 2)) ∧
  (∃ (s : State) (r : Rail) (d : DescRef) (f : Fetched) (x : Ctx) (q : Qp), (s.startedAt (railUnit r) d Op.qpModify = some f) ∧ (s.railActive r = true) ∧ (f.ctx < ctxCount) ∧ (s.ctx f.ctx = some x) ∧ (x.rail = r) ∧ (x.body = .qp q) ∧ (q.sqd.any (fun e => e.1 == d) = false) ∧ (q.st = Qst.rtr) ∧ (f.at 32 1 = Qst.rts) ∧ (timeoutOk (f.at 48 1 % 32) = true)) :=
  ⟨⟨holds .railA [desc 0 Op.qpModify [(28, 4, 7), (32, 1, 1)]] (regs [(RAIL_STATUS.STATE 0, 1), (RAIL_PORT_CFG.MODE 0 0, 2)] State.reset), .a, ⟨0, 0⟩, desc 0 Op.qpModify [(28, 4, 7), (32, 1, 1)], by decide +kernel⟩,
   ⟨holds .railA [desc 0 Op.qpModify [(28, 4, 7), (32, 1, 1)]] (regs [(RAIL_STATUS.STATE 0, 1), (RAIL_PORT_CFG.MODE 0 0, 2)] (State.reset.setRails { ctxs := [(7, { rail := .a, lport := 0, parlour := true, pin := false, resident := true, rate := 100, target := 50, body := .qp { st := 1 } })] })), .a, ⟨0, 0⟩, desc 0 Op.qpModify [(28, 4, 7), (32, 1, 1)], { rail := .a, lport := 0, parlour := true, pin := false, resident := true, rate := 100, target := 50, body := .qp { st := 1 } }, { st := 1 }, by decide +kernel⟩,
   ⟨holds .railA [(⟨0, [image 64 ((0, 1, Op.qpModify) :: [(28, 4, 7), (32, 1, 2)]), image 64 []], .started, 0⟩ : Fetched)] (regs [(RAIL_STATUS.STATE 0, 1)] (State.reset.setRails { ctxs := [(7, { rail := .a, lport := 0, parlour := true, pin := false, resident := true, rate := 100, target := 50, body := .qp { st := 1 } })] })), .a, ⟨0, 0⟩, (⟨0, [image 64 ((0, 1, Op.qpModify) :: [(28, 4, 7), (32, 1, 2)]), image 64 []], .started, 0⟩ : Fetched), { rail := .a, lport := 0, parlour := true, pin := false, resident := true, rate := 100, target := 50, body := .qp { st := 1 } }, { st := 1 }, by decide +kernel⟩,
   ⟨holds .railA [desc 0 Op.qpModify [(28, 4, 7), (32, 1, 3)]] (regs [(RAIL_STATUS.STATE 0, 1), (RAIL_PORT_CFG.MODE 0 0, 2)] (State.reset.setRails { ctxs := [(7, { rail := .a, lport := 0, parlour := true, pin := false, resident := true, rate := 100, target := 50, body := .qp { st := 2 } })] })), .a, ⟨0, 0⟩, desc 0 Op.qpModify [(28, 4, 7), (32, 1, 3)], { rail := .a, lport := 0, parlour := true, pin := false, resident := true, rate := 100, target := 50, body := .qp { st := 2 } }, { st := 2 }, by decide +kernel⟩⟩

theorem witness_RailDescriptors_2 :
  (∃ (s : State) (r : Rail) (d : DescRef) (f : Fetched) (x : Ctx) (q : Qp), (s.startedAt (railUnit r) d Op.qpModify = some f) ∧ (s.railActive r = true) ∧ (f.ctx < ctxCount) ∧ (s.ctx f.ctx = some x) ∧ (x.rail = r) ∧ (x.body = .qp q) ∧ (q.sqd.any (fun e => e.1 == d) = false) ∧ (q.st = Qst.rts) ∧ (f.at 32 1 = Qst.sqd)) ∧
  (∃ (s : State) (r : Rail) (d : DescRef) (f : Fetched) (x : Ctx) (q : Qp), (s.startedAt (railUnit r) d Op.qpModify = some f) ∧ (s.railActive r = true) ∧ (f.ctx < ctxCount) ∧ (s.ctx f.ctx = some x) ∧ (x.rail = r) ∧ (x.body = .qp q) ∧ (q.sqd.any (fun e => e.1 == d) = false) ∧ (q.st = Qst.sqd) ∧ (f.at 32 1 = Qst.rts ∨ f.at 32 1 = Qst.sqd) ∧ (timeoutOk (f.at 48 1 % 32) = true)) ∧
  (∃ (s : State) (r : Rail) (d : DescRef) (f : Fetched) (x : Ctx) (q : Qp), (s.startedAt (railUnit r) d Op.qpModify = some f) ∧ (s.railActive r = true) ∧ (f.ctx < ctxCount) ∧ (s.ctx f.ctx = some x) ∧ (x.rail = r) ∧ (x.body = .qp q) ∧ (q.sqd.any (fun e => e.1 == d) = false) ∧ (f.at 32 1 = Qst.reset)) ∧
  (∃ (s : State) (r : Rail) (d : DescRef) (f : Fetched) (x : Ctx) (q : Qp), (s.startedAt (railUnit r) d Op.qpModify = some f) ∧ (s.railActive r = true) ∧ (f.ctx < ctxCount) ∧ (s.ctx f.ctx = some x) ∧ (x.rail = r) ∧ (x.body = .qp q) ∧ (q.sqd.any (fun e => e.1 == d) = false) ∧ (f.at 32 1 = Qst.err)) :=
  ⟨⟨holds .railA [desc 0 Op.qpModify [(28, 4, 7), (32, 1, 4)]] (regs [(RAIL_STATUS.STATE 0, 1), (RAIL_PORT_CFG.MODE 0 0, 2)] (State.reset.setRails { ctxs := [(7, { rail := .a, lport := 0, parlour := true, pin := false, resident := true, rate := 100, target := 50, body := .qp { st := 3 } })] })), .a, ⟨0, 0⟩, desc 0 Op.qpModify [(28, 4, 7), (32, 1, 4)], { rail := .a, lport := 0, parlour := true, pin := false, resident := true, rate := 100, target := 50, body := .qp { st := 3 } }, { st := 3 }, by decide +kernel⟩,
   ⟨holds .railA [desc 0 Op.qpModify [(28, 4, 7), (32, 1, 3)]] (regs [(RAIL_STATUS.STATE 0, 1), (RAIL_PORT_CFG.MODE 0 0, 2)] (State.reset.setRails { ctxs := [(7, { rail := .a, lport := 0, parlour := true, pin := false, resident := true, rate := 100, target := 50, body := .qp { st := 4 } })] })), .a, ⟨0, 0⟩, desc 0 Op.qpModify [(28, 4, 7), (32, 1, 3)], { rail := .a, lport := 0, parlour := true, pin := false, resident := true, rate := 100, target := 50, body := .qp { st := 4 } }, { st := 4 }, by decide +kernel⟩,
   ⟨holds .railA [desc 0 Op.qpModify [(28, 4, 7), (32, 1, 0)]] (regs [(RAIL_STATUS.STATE 0, 1), (RAIL_PORT_CFG.MODE 0 0, 2)] (State.reset.setRails { ctxs := [(7, { rail := .a, lport := 0, parlour := true, pin := false, resident := true, rate := 100, target := 50, body := .qp { st := 3 } })] })), .a, ⟨0, 0⟩, desc 0 Op.qpModify [(28, 4, 7), (32, 1, 0)], { rail := .a, lport := 0, parlour := true, pin := false, resident := true, rate := 100, target := 50, body := .qp { st := 3 } }, { st := 3 }, by decide +kernel⟩,
   ⟨holds .railA [desc 0 Op.qpModify [(28, 4, 7), (32, 1, 5)]] (regs [(RAIL_STATUS.STATE 0, 1), (RAIL_PORT_CFG.MODE 0 0, 2)] (State.reset.setRails { ctxs := [(7, { rail := .a, lport := 0, parlour := true, pin := false, resident := true, rate := 100, target := 50, body := .qp { st := 3 } })] })), .a, ⟨0, 0⟩, desc 0 Op.qpModify [(28, 4, 7), (32, 1, 5)], { rail := .a, lport := 0, parlour := true, pin := false, resident := true, rate := 100, target := 50, body := .qp { st := 3 } }, { st := 3 }, by decide +kernel⟩⟩

theorem witness_RailDescriptors_3 :
  (∃ (s : State) (r : Rail) (d : DescRef) (f : Fetched) (x : Ctx), (s.startedAt (railUnit r) d Op.qpQuery = some f) ∧ (s.railActive r = true) ∧ (f.len = 512) ∧ (s.ctx f.ctx = some x) ∧ (x.rail = r) ∧ ((s.draw.dmaWrite (railUnit r) f.dst (s.freeBytes 512) (some d.ring)).toOption.isSome = true)) ∧
  (∃ (s : State) (d : DescRef) (f : Fetched) (m : Mr), (s.startedAt (.railC) d Op.mrRegister = some f) ∧ (f.at 28 4 / 256 < 2 ^ s.rd RDMA_MR_TABLE.LOG2_ENTRIES) ∧ (m = { key := f.at 28 4, base := f.src, len := f.len, pd := f.at 32 4 % 2 ^ 20, localWrite := (f.at 36 1).testBit 0, remoteWrite := (f.at 36 1).testBit 1, remoteRead := (f.at 36 1).testBit 2, odp := (f.at 36 1).testBit 3, raddr := f.at 40 8 })) ∧
  (∃ (s : State) (d : DescRef) (f : Fetched), (s.startedAt (.railC) d Op.mrInvalidate = some f) ∧ (s.rails.invs.any (fun v => v.desc == some d) = false) ∧ ((s.mr (f.at 28 4)).isSome = true)) ∧
  (∃ (s : State) (r : Rail) (d : DescRef) (f : Fetched) (x : Ctx) (q : Qp) (w : SendWr), (s.startedAt (railUnit r) d Op.postSend = some f) ∧ (s.railActive r = true) ∧ (s.ctx f.ctx = some x) ∧ (x.rail = r) ∧ (x.body = .qp q) ∧ (q.st = Qst.rts ∨ q.st = Qst.sqd) ∧ (f.at 6 1 ≤ 5) ∧ (1 ≤ f.len) ∧ (f.len ≤ 2 ^ 31) ∧ (q.sq.any (fun w => w.owner == .desc d) = false) ∧ (w = { owner := .desc d, verb := f.at 6 1, addr := f.src, len := f.len, lkey := f.at 32 4, raddr := f.at 40 8, rkey := f.at 36 4, imm := if f.at 6 1 = 2 then f.at 36 4 else f.at 48 4 })) :=
  ⟨⟨holds .railA [desc 0 Op.qpQuery [(28, 4, 7), (24, 4, 512)]] (regs [(RAIL_STATUS.STATE 0, 1), (DDR_CFG.CAP_GIB, 16)] (State.reset.setRails { ctxs := [(7, { rail := .a, lport := 0, parlour := true, pin := false, resident := true, rate := 100, target := 50, body := .qp { } })] })), .a, ⟨0, 0⟩, desc 0 Op.qpQuery [(28, 4, 7), (24, 4, 512)], { rail := .a, lport := 0, parlour := true, pin := false, resident := true, rate := 100, target := 50, body := .qp { } }, by decide +kernel⟩,
   ⟨holds .railC [desc 0 Op.mrRegister [(28, 4, 512)]] (State.reset), ⟨0, 0⟩, desc 0 Op.mrRegister [(28, 4, 512)], { key := 512, base := 0, len := 0, pd := 0, localWrite := false, remoteWrite := false, remoteRead := false, odp := false, raddr := 0 }, by decide +kernel⟩,
   ⟨holds .railC [desc 0 Op.mrInvalidate [(28, 4, 512)]] (State.reset.setRails { mrs := [(2, { key := 512, base := 0, len := 64, pd := 0, localWrite := true, remoteWrite := true, remoteRead := true, odp := false, raddr := 0 })] }), ⟨0, 0⟩, desc 0 Op.mrInvalidate [(28, 4, 512)], by decide +kernel⟩,
   ⟨holds .railA [desc 0 Op.postSend [(28, 4, 7), (24, 4, 16), (6, 1, 3), (32, 4, 5), (36, 4, 6), (40, 8, 9)]] (regs [(RAIL_STATUS.STATE 0, 1)] (State.reset.setRails { ctxs := [(7, { rail := .a, lport := 0, parlour := true, pin := false, resident := true, rate := 100, target := 50, body := .qp { st := 3 } })] })), .a, ⟨0, 0⟩, desc 0 Op.postSend [(28, 4, 7), (24, 4, 16), (6, 1, 3), (32, 4, 5), (36, 4, 6), (40, 8, 9)], { rail := .a, lport := 0, parlour := true, pin := false, resident := true, rate := 100, target := 50, body := .qp { st := 3 } }, { st := 3 }, { owner := .desc ⟨0, 0⟩, verb := 3, addr := 0, len := 16, lkey := 5, raddr := 9, rkey := 6, imm := 0 }, by decide +kernel⟩⟩

theorem witness_RailDescriptors_4 :
  (∃ (s : State) (r : Rail) (d : DescRef) (f : Fetched) (x : Ctx) (q : Qp), (s.startedAt (railUnit r) d Op.postRecv = some f) ∧ (s.railActive r = true) ∧ (s.ctx f.ctx = some x) ∧ (x.rail = r) ∧ (x.body = .qp q) ∧ (q.st ≠ Qst.reset) ∧ (q.st ≠ Qst.err) ∧ (q.rq.any (fun w => w.d == d) = false) ∧ ((s.useCtx f.ctx).localCheck q (f.at 32 4) f.dst f.len true = none)) ∧
  (∃ (s : State) (r : Rail) (d : DescRef) (f : Fetched) (bs : List Byte), (s.startedAt (railUnit r) d Op.pktTx = some f) ∧ (s.railActive r = true) ∧ (f.at 6 1 ≤ 7) ∧ (s.lportActive (railLport r (f.at 6 1)) = true) ∧ (0 < f.len) ∧ (f.len ≤ s.rd (RAIL_PORT_CFG.MTU (railLport r (f.at 6 1) / 8) (railLport r (f.at 6 1) / 4 % 2))) ∧ ((s.dmaRead (railUnit r) f.src f.len (some d.ring)).toOption = some bs)) ∧
  (∃ (s : State) (r : Rail) (d : DescRef) (f : Fetched), (s.startedAt (railUnit r) d Op.pktRxBuf = some f) ∧ (s.railActive r = true) ∧ (f.phase ≠ .waiting) ∧ (9216 ≤ f.len)) ∧
  (∃ (s : State) (r : Rail) (d : DescRef) (f : Fetched), (s.startedAt (railUnit r) d Op.tcpInstall = some f) ∧ (s.railActive r = true) ∧ (f.ctx < ctxCount) ∧ (s.ctx f.ctx = none) ∧ (f.imgs.length = 2) ∧ (f.at 57 1 ≤ 7) ∧ (s.lportActive (railLport r (f.at 57 1)) = true) ∧ ((f.at 49 1).testBit 3 = true → s.pinRoom r f.ctx = true)) :=
  ⟨⟨holds .railA [desc 0 Op.postRecv [(28, 4, 7), (24, 4, 16), (32, 4, 512)]] (regs [(RAIL_STATUS.STATE 0, 1)] (State.reset.setRails { ctxs := [(7, { rail := .a, lport := 0, parlour := true, pin := false, resident := true, rate := 100, target := 50, body := .qp { st := 3 } })], mrs := [(2, { key := 512, base := 0, len := 64, pd := 0, localWrite := true, remoteWrite := true, remoteRead := true, odp := false, raddr := 0 })] })), .a, ⟨0, 0⟩, desc 0 Op.postRecv [(28, 4, 7), (24, 4, 16), (32, 4, 512)], { rail := .a, lport := 0, parlour := true, pin := false, resident := true, rate := 100, target := 50, body := .qp { st := 3 } }, { st := 3 }, by decide +kernel⟩,
   ⟨holds .railA [desc 0 Op.pktTx [(24, 4, 4)]] (regs [(RAIL_STATUS.STATE 0, 1), (RAIL_PORT_CFG.MODE 0 0, 2), (DDR_CFG.CAP_GIB, 16)] State.reset), .a, ⟨0, 0⟩, desc 0 Op.pktTx [(24, 4, 4)], [0, 0, 0, 0], by decide +kernel⟩,
   ⟨holds .railA [desc 0 Op.pktRxBuf [(24, 4, 9216)]] (regs [(RAIL_STATUS.STATE 0, 1)] State.reset), .a, ⟨0, 0⟩, desc 0 Op.pktRxBuf [(24, 4, 9216)], by decide +kernel⟩,
   ⟨holds .railA [⟨0, [image 64 [(0, 1, Op.tcpInstall)], image 64 []], .started, 0⟩] (regs [(RAIL_STATUS.STATE 0, 1), (RAIL_PORT_CFG.MODE 0 0, 2)] State.reset), .a, ⟨0, 0⟩, ⟨0, [image 64 [(0, 1, Op.tcpInstall)], image 64 []], .started, 0⟩, by decide +kernel⟩⟩

theorem witness_RailDescriptors_5 :
  (∃ (s : State) (r : Rail) (d : DescRef) (f : Fetched) (x : Ctx) (y : Tcp), (s.startedAt (railUnit r) d Op.tcpRelease = some f) ∧ (s.railActive r = true) ∧ (s.ctx f.ctx = some x) ∧ (x.rail = r) ∧ (x.body = .tcp y)) ∧
  (∃ (s : State) (r : Rail) (d : DescRef) (f : Fetched), (s.startedAt (railUnit r) d Op.odpWait = some f) ∧ (s.railActive r = true) ∧ (f.phase ≠ .waiting)) :=
  ⟨⟨holds .railA [desc 0 Op.tcpRelease [(28, 4, 7)]] (regs [(RAIL_STATUS.STATE 0, 1)] (State.reset.setRails { ctxs := [(7, { rail := .a, lport := 0, parlour := true, pin := false, resident := true, rate := 100, target := 50, body := .tcp { lport := 2, rport := 1, sndUna := 0, sndNxt := 0, rcvNxt := 0, sndWnd := 0, sndScale := 0, rcvScale := 0, sackOn := false, tsOn := false, ecnOn := false, mss := 1460, tsRecent := 0, hdgst := false, ddgst := false } })] })), .a, ⟨0, 0⟩, desc 0 Op.tcpRelease [(28, 4, 7)], { rail := .a, lport := 0, parlour := true, pin := false, resident := true, rate := 100, target := 50, body := .tcp { lport := 2, rport := 1, sndUna := 0, sndNxt := 0, rcvNxt := 0, sndWnd := 0, sndScale := 0, rcvScale := 0, sackOn := false, tsOn := false, ecnOn := false, mss := 1460, tsRecent := 0, hdgst := false, ddgst := false } }, { lport := 2, rport := 1, sndUna := 0, sndNxt := 0, rcvNxt := 0, sndWnd := 0, sndScale := 0, rcvScale := 0, sackOn := false, tsOn := false, ecnOn := false, mss := 1460, tsRecent := 0, hdgst := false, ddgst := false }, by decide +kernel⟩,
   ⟨holds .railA [desc 0 Op.odpWait []] (regs [(RAIL_STATUS.STATE 0, 1)] State.reset), .a, ⟨0, 0⟩, desc 0 Op.odpWait [], by decide +kernel⟩⟩

theorem witness_CapsulesAndDispatch :
  (∃ (s : State) (w : Nat × List Byte × Bool × Nat), (s.nextCapsule = some w) ∧ (s.on PAR_CTL.EN = true)) ∧
  (∃ (s : State) (w : Nat × List Byte × Bool × Nat) (k : Nat), (s.nextCapsule = some w) ∧ (s.on PAR_CTL.EN = true) ∧ (s.queueOf w.1 = none) ∧ (s.par.waitCap = []) ∧ (s.localRoom = true) ∧ (s.freeContext = some k)) ∧
  (∃ (s : State) (w : Nat × List Byte × Bool × Nat), (s.nextCapsule = some w) ∧ (s.on PAR_CTL.EN = true) ∧ (fieldAt w.2.1 0 1 ≠ Nop.fabrics) ∧ (s.par.cuts = []) ∧ (s.localRoom = false)) ∧
  (∃ (s : State) (k cls : Nat) (c : NvmeCmd) (b : Budget), (s.cmd k = some c) ∧ (c.stage = .gate) ∧ ((s.par.gate.find? fun j => ((s.cmd j).map (·.tenant)) == some c.tenant) = some k) ∧ (s.on PAR_CTL.EN = true) ∧ (c.tenant ≠ noTenant) ∧ ((Tab.getD s.par.budgets c.tenant {}).pass (s.tenantEntry c.tenant) (c.tokens (s.cmdVol c)) c.cls = some (cls, b))) :=
  ⟨⟨regs [(DDR_CFG.CAP_GIB, 16), (PAR_CTL.EN, 1), (PAR_TENANT_TABLE.BASE, 1), (PAR_SHARD.STATE 0, Pst.owned)] (State.reset.setRails { inbox := [(3, image 64 [(0, 1, 2)], false, 0)] }), (3, image 64 [(0, 1, 2)], false, 0), by decide +kernel⟩,
   ⟨regs [(DDR_CFG.CAP_GIB, 16), (PAR_CTL.EN, 1), (PAR_TENANT_TABLE.BASE, 1), (PAR_SHARD.STATE 0, Pst.owned)] (State.reset.setRails { inbox := [(3, image 64 [(0, 1, 2)], false, 0)] }), (3, image 64 [(0, 1, 2)], false, 0), 0, by decide +kernel⟩,
   ⟨regs [(PAR_CTL.EN, 1), (PAR_CTL.FWD_RESERVE, 262143)] ((State.reset.setPar { cmds := [(0, ({ sqe := image 64 [(0, 1, 0)], ctx := none, cntlid := 1, qid := 1, cls := 0, tenant := 0, vol := 0, stage := .running, since := 0, origin := none } : NvmeCmd)), (1, ({ sqe := image 64 [(0, 1, 0)], ctx := none, cntlid := 1, qid := 1, cls := 0, tenant := 0, vol := 0, stage := .running, since := 0, origin := none } : NvmeCmd))] }).setRails { inbox := [(3, image 64 [(0, 1, 2)], false, 0)] }), (3, image 64 [(0, 1, 2)], false, 0), by decide +kernel⟩,
   ⟨(regs [(DDR_CFG.CAP_GIB, 16), (PAR_CTL.EN, 1), (PAR_TENANT_TABLE.BASE, 1), (PAR_SHARD.STATE 0, Pst.owned)] { State.reset with mem := Memory.writeN [] 0 (image 64 [(0, 2, 1), (8, 8, 4096)]) }) |>.setPar { cmds := [(0, ({ sqe := image 64 [(0, 1, Nop.read)], ctx := none, cntlid := 1, qid := 1, cls := 1, tenant := 0, vol := 0, stage := .gate, since := 0, origin := some 5 } : NvmeCmd))], gate := [0] }, 0, 3, ({ sqe := image 64 [(0, 1, Nop.read)], ctx := none, cntlid := 1, qid := 1, cls := 1, tenant := 0, vol := 0, stage := .gate, since := 0, origin := some 5 } : NvmeCmd), {}, by decide +kernel⟩⟩

theorem witness_CapsulesAndDispatch_2 :
  (∃ (s : State) (k : Nat) (c : NvmeCmd), (s.cmd k = some c) ∧ (c.stage = .gate) ∧ ((s.par.gate.find? fun j => ((s.cmd j).map (·.tenant)) == some c.tenant) = some k) ∧ (s.on PAR_CTL.EN = true) ∧ (c.tenant = noTenant)) ∧
  (∃ (s : State) (k : Nat) (c : NvmeCmd) (t : State), (s.on PAR_CTL.EN = true) ∧ (s.nextDispatch = some (k, t)) ∧ (t.cmd k = some c) ∧ (c.admin = true ∨ ioOpcode c.op = true)) ∧
  (∃ (s : State) (k : Nat) (c : NvmeCmd) (u : State), (s.cmd k = some c) ∧ (c.stage = .eligible) ∧ (c.promoted = false) ∧ (s.passed (c.eligibleAt + s.ageLimit c.cls * mgmtTick) = true) ∧ (c.cls ≠ 0) ∧ (u = ((s.setCmd k { c with promoted := true }).setPar { (s.setCmd k { c with promoted := true }).par with ready := s.par.ready.filter (· != k) ++ [k] }).bump (if c.cls = 1 then PAR_PROMO_COUNT.HIGH else if c.cls = 2 then PAR_PROMO_COUNT.MED else PAR_PROMO_COUNT.LOW) 1)) ∧
  (∃ (s : State) (k : Nat) (c : NvmeCmd), (s.cmd k = some c) ∧ (c.stage = .eligible) ∧ (c.promoted = false) ∧ (s.passed (c.eligibleAt + s.ageLimit c.cls * mgmtTick) = true) ∧ (c.cls = 1)) :=
  ⟨⟨(regs [(DDR_CFG.CAP_GIB, 16), (PAR_CTL.EN, 1), (PAR_TENANT_TABLE.BASE, 1), (PAR_SHARD.STATE 0, Pst.owned)] { State.reset with mem := Memory.writeN [] 0 (image 64 [(0, 2, 1), (8, 8, 4096)]) }) |>.setPar { cmds := [(0, ({ sqe := image 64 [(0, 1, Nop.read)], ctx := none, cntlid := 1, qid := 1, cls := 1, tenant := noTenant, vol := 0, stage := .gate, since := 0, origin := some 5 } : NvmeCmd))], gate := [0] }, 0, ({ sqe := image 64 [(0, 1, Nop.read)], ctx := none, cntlid := 1, qid := 1, cls := 1, tenant := noTenant, vol := 0, stage := .gate, since := 0, origin := some 5 } : NvmeCmd), by decide +kernel⟩,
   ⟨(regs [(DDR_CFG.CAP_GIB, 16), (PAR_CTL.EN, 1), (PAR_TENANT_TABLE.BASE, 1), (PAR_SHARD.STATE 0, Pst.owned)] { State.reset with mem := Memory.writeN [] 0 (image 64 [(0, 2, 1), (8, 8, 4096)]) }) |>.setPar { cmds := [(0, ({ sqe := image 64 [(0, 1, Nop.read)], ctx := none, cntlid := 1, qid := 1, cls := 0, tenant := 0, vol := 0, stage := .eligible, since := 0, origin := some 5 } : NvmeCmd))], ready := [0] }, 0, ({ sqe := image 64 [(0, 1, Nop.read)], ctx := none, cntlid := 1, qid := 1, cls := 0, tenant := 0, vol := 0, stage := .eligible, since := 0, origin := some 5 } : NvmeCmd), (regs [(DDR_CFG.CAP_GIB, 16), (PAR_CTL.EN, 1), (PAR_TENANT_TABLE.BASE, 1), (PAR_SHARD.STATE 0, Pst.owned)] { State.reset with mem := Memory.writeN [] 0 (image 64 [(0, 2, 1), (8, 8, 4096)]) }) |>.setPar { cmds := [(0, ({ sqe := image 64 [(0, 1, Nop.read)], ctx := none, cntlid := 1, qid := 1, cls := 0, tenant := 0, vol := 0, stage := .eligible, since := 0, origin := some 5 } : NvmeCmd))], ready := [0] }, by decide +kernel⟩,
   ⟨{ ((regs [(DDR_CFG.CAP_GIB, 16), (PAR_CTL.EN, 1), (PAR_TENANT_TABLE.BASE, 1), (PAR_SHARD.STATE 0, Pst.owned)] { State.reset with mem := Memory.writeN [] 0 (image 64 [(0, 2, 1), (8, 8, 4096)]) }) |>.setPar { cmds := [(0, ({ sqe := image 64 [(0, 1, Nop.read)], ctx := none, cntlid := 1, qid := 1, cls := 1, tenant := 0, vol := 0, stage := .eligible, since := 0, origin := some 5 } : NvmeCmd))], ready := [0] }) with now := 10 ^ 12 }, 0, ({ sqe := image 64 [(0, 1, Nop.read)], ctx := none, cntlid := 1, qid := 1, cls := 1, tenant := 0, vol := 0, stage := .eligible, since := 0, origin := some 5 } : NvmeCmd), (let s := { ((regs [(DDR_CFG.CAP_GIB, 16), (PAR_CTL.EN, 1), (PAR_TENANT_TABLE.BASE, 1), (PAR_SHARD.STATE 0, Pst.owned)] { State.reset with mem := Memory.writeN [] 0 (image 64 [(0, 2, 1), (8, 8, 4096)]) }) |>.setPar { cmds := [(0, ({ sqe := image 64 [(0, 1, Nop.read)], ctx := none, cntlid := 1, qid := 1, cls := 1, tenant := 0, vol := 0, stage := .eligible, since := 0, origin := some 5 } : NvmeCmd))], ready := [0] }) with now := 10 ^ 12 }; ((s.setCmd 0 { ({ sqe := image 64 [(0, 1, Nop.read)], ctx := none, cntlid := 1, qid := 1, cls := 1, tenant := 0, vol := 0, stage := .eligible, since := 0, origin := some 5 } : NvmeCmd) with promoted := true }).setPar { (s.setCmd 0 { ({ sqe := image 64 [(0, 1, Nop.read)], ctx := none, cntlid := 1, qid := 1, cls := 1, tenant := 0, vol := 0, stage := .eligible, since := 0, origin := some 5 } : NvmeCmd) with promoted := true }).par with ready := [0] }).bump PAR_PROMO_COUNT.HIGH 1), ⟨by decide +kernel, by decide +kernel, by decide +kernel, by decide +kernel, by decide +kernel, by first | with_reducible rfl | decide +kernel⟩⟩,
   ⟨{ ((regs [(DDR_CFG.CAP_GIB, 16), (PAR_CTL.EN, 1), (PAR_TENANT_TABLE.BASE, 1), (PAR_SHARD.STATE 0, Pst.owned)] { State.reset with mem := Memory.writeN [] 0 (image 64 [(0, 2, 1), (8, 8, 4096)]) }) |>.setPar { cmds := [(0, ({ sqe := image 64 [(0, 1, Nop.read)], ctx := none, cntlid := 1, qid := 1, cls := 1, tenant := 0, vol := 0, stage := .eligible, since := 0, origin := some 5 } : NvmeCmd))], ready := [0] }) with now := 10 ^ 12 }, 0, ({ sqe := image 64 [(0, 1, Nop.read)], ctx := none, cntlid := 1, qid := 1, cls := 1, tenant := 0, vol := 0, stage := .eligible, since := 0, origin := some 5 } : NvmeCmd), by decide +kernel⟩⟩

theorem witness_NvmeCommandsBegin :
  (∃ (s : State) (k : Nat) (ms : List Medium) (c : NvmeCmd), (s.cmd k = some c) ∧ (c.stage = .running) ∧ (c.begun = false) ∧ (c.admin = false) ∧ (c.op = Nop.read) ∧ (s.behindOther k c = false) ∧ (s.cmdRefused c = 0) ∧ (((s.openShards c).map (s.partDo c)).contains .refuse = false) ∧ (((s.openShards c).map (s.partDo c)).contains .hold = false)) ∧
  (∃ (s : State) (k : Nat) (ms : List Medium) (c : NvmeCmd), (s.cmd k = some c) ∧ (c.stage = .running) ∧ (c.begun = false) ∧ (c.admin = false) ∧ (c.op = Nop.verify) ∧ (s.behindOther k c = false) ∧ (s.cmdRefused c = 0) ∧ (((s.openShards c).map (s.partDo c)).contains .refuse = false) ∧ (((s.openShards c).map (s.partDo c)).contains .hold = false)) ∧
  (∃ (s : State) (k : Nat) (c : NvmeCmd) (t : State), (s.cmd k = some c) ∧ (c.stage = .running) ∧ (c.begun = false) ∧ (c.admin = false) ∧ (c.op = Nop.write) ∧ (s.behindOther k c = false) ∧ (s.cmdRefused c = 0) ∧ (((s.openShards c).map (s.partDo c)).contains .refuse = false) ∧ (((s.openShards c).map (s.partDo c)).contains .hold = false) ∧ (s.pailsReady k (s.makeBlks c).length = (true, t))) ∧
  (∃ (s : State) (k : Nat) (c : NvmeCmd) (t : State), (s.cmd k = some c) ∧ (c.stage = .running) ∧ (c.begun = false) ∧ (c.admin = false) ∧ (c.op = Nop.write) ∧ (s.behindOther k c = false) ∧ (s.cmdRefused c = 0) ∧ (((s.openShards c).map (s.partDo c)).contains .refuse = false) ∧ (((s.openShards c).map (s.partDo c)).contains .hold = false) ∧ (s.pailsReady k (s.makeBlks c).length = (false, t))) :=
  ⟨⟨{ ((regs [(DDR_CFG.CAP_GIB, 16), (PAR_CTL.EN, 1), (PAR_TENANT_TABLE.BASE, 1), (PAR_SHARD.STATE 0, Pst.owned)] { State.reset with mem := Memory.writeN [] 0 (image 64 [(0, 2, 1), (8, 8, 4096)]) }) |>.setPar { cmds := [(0, ({ sqe := image 64 [(0, 1, Nop.read), (4, 4, 1)], ctx := none, cntlid := 1, qid := 1, cls := 0, tenant := 0, vol := 0, stage := .running, since := 0, origin := some 5 } : NvmeCmd))] }) with vat := { pails := [(0, { cls := 4, user := .ctx 0, holds := .readData }), (1, { cls := 4, user := .ctx 0, holds := .readData })] } }, 0, [], ({ sqe := image 64 [(0, 1, Nop.read), (4, 4, 1)], ctx := none, cntlid := 1, qid := 1, cls := 0, tenant := 0, vol := 0, stage := .running, since := 0, origin := some 5 } : NvmeCmd), by decide +kernel⟩,
   ⟨{ ((regs [(DDR_CFG.CAP_GIB, 16), (PAR_CTL.EN, 1), (PAR_TENANT_TABLE.BASE, 1), (PAR_SHARD.STATE 0, Pst.owned)] { State.reset with mem := Memory.writeN [] 0 (image 64 [(0, 2, 1), (8, 8, 4096)]) }) |>.setPar { cmds := [(0, ({ sqe := image 64 [(0, 1, Nop.verify), (4, 4, 1)], ctx := none, cntlid := 1, qid := 1, cls := 0, tenant := 0, vol := 0, stage := .running, since := 0, origin := some 5 } : NvmeCmd))] }) with vat := { pails := [(0, { cls := 4, user := .ctx 0, holds := .readData }), (1, { cls := 4, user := .ctx 0, holds := .readData })] } }, 0, [], ({ sqe := image 64 [(0, 1, Nop.verify), (4, 4, 1)], ctx := none, cntlid := 1, qid := 1, cls := 0, tenant := 0, vol := 0, stage := .running, since := 0, origin := some 5 } : NvmeCmd), by decide +kernel⟩,
   ⟨{ ((regs [(DDR_CFG.CAP_GIB, 16), (PAR_CTL.EN, 1), (PAR_TENANT_TABLE.BASE, 1), (PAR_SHARD.STATE 0, Pst.owned)] { State.reset with mem := Memory.writeN [] 0 (image 64 [(0, 2, 1), (8, 8, 4096)]) }) |>.setPar { cmds := [(0, ({ sqe := image 64 [(0, 1, Nop.write), (4, 4, 1)], ctx := none, cntlid := 1, qid := 1, cls := 0, tenant := 0, vol := 0, stage := .running, since := 0, origin := some 5, asked := true } : NvmeCmd))] }) with vat := { pails := [(0, { cls := 4, user := .ctx 0, holds := .readData }), (1, { cls := 4, user := .ctx 0, holds := .readData })] } }, 0, ({ sqe := image 64 [(0, 1, Nop.write), (4, 4, 1)], ctx := none, cntlid := 1, qid := 1, cls := 0, tenant := 0, vol := 0, stage := .running, since := 0, origin := some 5, asked := true } : NvmeCmd), { ((regs [(DDR_CFG.CAP_GIB, 16), (PAR_CTL.EN, 1), (PAR_TENANT_TABLE.BASE, 1), (PAR_SHARD.STATE 0, Pst.owned)] { State.reset with mem := Memory.writeN [] 0 (image 64 [(0, 2, 1), (8, 8, 4096)]) }) |>.setPar { cmds := [(0, ({ sqe := image 64 [(0, 1, Nop.write), (4, 4, 1)], ctx := none, cntlid := 1, qid := 1, cls := 0, tenant := 0, vol := 0, stage := .running, since := 0, origin := some 5, asked := true } : NvmeCmd))] }) with vat := { pails := [(0, { cls := 4, user := .ctx 0, holds := .readData }), (1, { cls := 4, user := .ctx 0, holds := .readData })] } }, by decide +kernel⟩,
   ⟨(regs [(DDR_CFG.CAP_GIB, 16), (PAR_CTL.EN, 1), (PAR_TENANT_TABLE.BASE, 1), (PAR_SHARD.STATE 0, Pst.owned)] { State.reset with mem := Memory.writeN [] 0 (image 64 [(0, 2, 1), (8, 8, 4096)]) }) |>.setPar { cmds := [(0, ({ sqe := image 64 [(0, 1, Nop.write), (4, 4, 1)], ctx := none, cntlid := 1, qid := 1, cls := 0, tenant := 0, vol := 0, stage := .running, since := 0, origin := some 5 } : NvmeCmd))] }, 0, ({ sqe := image 64 [(0, 1, Nop.write), (4, 4, 1)], ctx := none, cntlid := 1, qid := 1, cls := 0, tenant := 0, vol := 0, stage := .running, since := 0, origin := some 5 } : NvmeCmd), (((regs [(DDR_CFG.CAP_GIB, 16), (PAR_CTL.EN, 1), (PAR_TENANT_TABLE.BASE, 1), (PAR_SHARD.STATE 0, Pst.owned)] { State.reset with mem := Memory.writeN [] 0 (image 64 [(0, 2, 1), (8, 8, 4096)]) }) |>.setPar { cmds := [(0, ({ sqe := image 64 [(0, 1, Nop.write), (4, 4, 1)], ctx := none, cntlid := 1, qid := 1, cls := 0, tenant := 0, vol := 0, stage := .running, since := 0, origin := some 5 } : NvmeCmd))] }).pailsReady 0 1).2, by decide +kernel⟩⟩

theorem witness_NvmeCommandsBegin_2 :
  (∃ (s : State) (k : Nat) (c : NvmeCmd), (s.cmd k = some c) ∧ (c.stage = .running) ∧ (c.begun = false) ∧ (c.admin = false) ∧ (c.op = Nop.flush) ∧ (s.behindOther k c = false)) ∧
  (∃ (s : State) (k : Nat) (ms : List Medium) (c : NvmeCmd), (s.cmd k = some c) ∧ (c.stage = .running) ∧ (c.begun = false) ∧ (c.admin = false) ∧ (c.op = Nop.writeZeroes) ∧ (s.behindOther k c = false) ∧ (s.cmdRefused c = 0) ∧ (((s.openShards c).map (s.partDo c)).contains .refuse = false) ∧ (((s.openShards c).map (s.partDo c)).contains .hold = false)) ∧
  (∃ (s : State) (k : Nat) (c : NvmeCmd), (s.cmd k = some c) ∧ (c.stage = .running) ∧ (c.begun = false) ∧ (c.admin = false) ∧ (c.op = Nop.dsm) ∧ (c.need = 0) ∧ (c.unranged = true) ∧ (s.cmdRefused c = 0)) ∧
  (∃ (s : State) (k : Nat) (c x : NvmeCmd) (t : State), (s.cmd k = some c) ∧ (c.stage = .running) ∧ (c.begun = false) ∧ (c.admin = false) ∧ (c.op = Nop.dsm) ∧ (c.need ≠ 0) ∧ (c.unranged = false) ∧ (s.behindOther k c = false) ∧ (s.chargeRanges k c = some (x, t)) ∧ (x.badData = false) ∧ ((x.cdw 11).testBit 2 = true) ∧ ((x.ranges.any fun r => !inVolume (t.cmdVol x) r) = false) ∧ (((t.openShards x).map (t.partDo x)).contains .refuse = false) ∧ (((t.openShards x).map (t.partDo x)).contains .hold = false)) :=
  ⟨⟨(regs [(DDR_CFG.CAP_GIB, 16), (PAR_CTL.EN, 1), (PAR_TENANT_TABLE.BASE, 1), (PAR_SHARD.STATE 0, Pst.owned)] { State.reset with mem := Memory.writeN [] 0 (image 64 [(0, 2, 1), (8, 8, 4096)]) }) |>.setPar { cmds := [(0, ({ sqe := image 64 [(0, 1, Nop.flush)], ctx := none, cntlid := 1, qid := 1, cls := 0, tenant := 0, vol := 0, stage := .running, since := 0, origin := some 5 } : NvmeCmd))] }, 0, ({ sqe := image 64 [(0, 1, Nop.flush)], ctx := none, cntlid := 1, qid := 1, cls := 0, tenant := 0, vol := 0, stage := .running, since := 0, origin := some 5 } : NvmeCmd), by decide +kernel⟩,
   ⟨(regs [(DDR_CFG.CAP_GIB, 16), (PAR_CTL.EN, 1), (PAR_TENANT_TABLE.BASE, 1), (PAR_SHARD.STATE 0, Pst.owned)] { State.reset with mem := Memory.writeN [] 0 (image 64 [(0, 2, 1), (8, 8, 4096)]) }) |>.setPar { cmds := [(0, ({ sqe := image 64 [(0, 1, Nop.writeZeroes), (4, 4, 1)], ctx := none, cntlid := 1, qid := 1, cls := 0, tenant := 0, vol := 0, stage := .running, since := 0, origin := some 5 } : NvmeCmd))] }, 0, [], ({ sqe := image 64 [(0, 1, Nop.writeZeroes), (4, 4, 1)], ctx := none, cntlid := 1, qid := 1, cls := 0, tenant := 0, vol := 0, stage := .running, since := 0, origin := some 5 } : NvmeCmd), by decide +kernel⟩,
   ⟨(regs [(DDR_CFG.CAP_GIB, 16), (PAR_CTL.EN, 1), (PAR_TENANT_TABLE.BASE, 1), (PAR_SHARD.STATE 0, Pst.owned)] { State.reset with mem := Memory.writeN [] 0 (image 64 [(0, 2, 1), (8, 8, 4096)]) }) |>.setPar { cmds := [(0, ({ sqe := image 64 [(0, 1, Nop.dsm), (4, 4, 1)], ctx := none, cntlid := 1, qid := 1, cls := 0, tenant := 0, vol := 0, stage := .running, since := 0, origin := some 5 } : NvmeCmd))] }, 0, ({ sqe := image 64 [(0, 1, Nop.dsm), (4, 4, 1)], ctx := none, cntlid := 1, qid := 1, cls := 0, tenant := 0, vol := 0, stage := .running, since := 0, origin := some 5 } : NvmeCmd), by decide +kernel⟩,
   ⟨(regs [(DDR_CFG.CAP_GIB, 16), (PAR_CTL.EN, 1), (PAR_TENANT_TABLE.BASE, 1), (PAR_SHARD.STATE 0, Pst.owned)] { State.reset with mem := Memory.writeN [] 0 (image 64 [(0, 2, 1), (8, 8, 4096)]) }) |>.setPar { cmds := [(0, ({ sqe := image 64 [(0, 1, Nop.dsm), (4, 4, 1), (44, 4, 4)], ctx := none, cntlid := 1, qid := 1, cls := 0, tenant := 0, vol := 0, stage := .running, since := 0, origin := some 5, need := 16, buf := image 16 [(4, 4, 1)] } : NvmeCmd))] }, 0, ({ sqe := image 64 [(0, 1, Nop.dsm), (4, 4, 1), (44, 4, 4)], ctx := none, cntlid := 1, qid := 1, cls := 0, tenant := 0, vol := 0, stage := .running, since := 0, origin := some 5, need := 16, buf := image 16 [(4, 4, 1)] } : NvmeCmd), ({ sqe := image 64 [(0, 1, Nop.dsm), (4, 4, 1), (44, 4, 4)], ctx := none, cntlid := 1, qid := 1, cls := 0, tenant := 0, vol := 0, stage := .running, since := 0, origin := some 5, need := 16, buf := image 16 [(4, 4, 1)] } : NvmeCmd), (regs [(DDR_CFG.CAP_GIB, 16), (PAR_CTL.EN, 1), (PAR_TENANT_TABLE.BASE, 1), (PAR_SHARD.STATE 0, Pst.owned)] { State.reset with mem := Memory.writeN [] 0 (image 64 [(0, 2, 1), (8, 8, 4096)]) }) |>.setPar { cmds := [(0, ({ sqe := image 64 [(0, 1, Nop.dsm), (4, 4, 1), (44, 4, 4)], ctx := none, cntlid := 1, qid := 1, cls := 0, tenant := 0, vol := 0, stage := .running, since := 0, origin := some 5, need := 16, buf := image 16 [(4, 4, 1)] } : NvmeCmd))] }, by decide +kernel⟩⟩

theorem witness_NvmeCommandsBegin_3 :
  (∃ (s : State) (k : Nat) (c x : NvmeCmd) (t : State), (s.cmd k = some c) ∧ (c.stage = .running) ∧ (c.begun = false) ∧ (c.admin = false) ∧ (c.op = Nop.dsm) ∧ (c.need ≠ 0) ∧ (c.unranged = false) ∧ (s.behindOther k c = false) ∧ (s.chargeRanges k c = some (x, t)) ∧ (x.badData = false) ∧ ((x.cdw 11).testBit 2 = false)) ∧
  (∃ (s : State) (k : Nat) (ms : List Medium) (c : NvmeCmd) (ps : List Nat) (t : State), (s.cmd k = some c) ∧ (c.stage = .running) ∧ (c.begun = false) ∧ (c.admin = false) ∧ (c.op = Nop.secure) ∧ (s.intentOpen k c = false) ∧ (s.behindOther k c = false) ∧ (s.cmdRefused c = 0) ∧ (((s.openShards c).map (s.partDo c)).contains .refuse = false) ∧ (((s.openShards c).map (s.partDo c)).contains .hold = false) ∧ (ps = s.peerShards { c with blks := s.makeBlks c }) ∧ (t = ps.foldl (fun (u : State) sh => u.forwardPart k sh) (s.setCmd k { c with blks := s.makeBlks c, begun := true, fwds := c.fwds ++ ps.map fun sh => ⟨sh, 0, 2⟩ }))) ∧
  (∃ (s : State) (k : Nat) (ms : List Medium) (c : NvmeCmd), (s.cmd k = some c) ∧ (c.stage = .running) ∧ (c.begun = true) ∧ (c.admin = false) ∧ (c.op = Nop.secure)) ∧
  (∃ (s : State) (k : Nat) (ms : List Medium) (c : NvmeCmd), (s.cmd k = some c) ∧ (c.op = Nop.write) ∧ (c.begun = true) ∧ (c.need ≤ c.buf.length) ∧ ((s.leaseU.reexec.any fun l => l.2.contains k) = false) ∧ ((c.fwds.any fun p => p.st == 4) = true ∨ (c.blks.any fun b => b.step == .wait) = true) ∧ ((if c.badData then Nv.transient else firstBad (c.blks.map fun b => if b.step = .wait then c.writeCheck (s.cmdVol c) b.block else 0)) = 0)) :=
  ⟨⟨(regs [(DDR_CFG.CAP_GIB, 16), (PAR_CTL.EN, 1), (PAR_TENANT_TABLE.BASE, 1), (PAR_SHARD.STATE 0, Pst.owned)] { State.reset with mem := Memory.writeN [] 0 (image 64 [(0, 2, 1), (8, 8, 4096)]) }) |>.setPar { cmds := [(0, ({ sqe := image 64 [(0, 1, Nop.dsm), (4, 4, 1), (44, 4, 1)], ctx := none, cntlid := 1, qid := 1, cls := 0, tenant := 0, vol := 0, stage := .running, since := 0, origin := some 5, need := 16, buf := image 16 [(4, 4, 1)] } : NvmeCmd))] }, 0, ({ sqe := image 64 [(0, 1, Nop.dsm), (4, 4, 1), (44, 4, 1)], ctx := none, cntlid := 1, qid := 1, cls := 0, tenant := 0, vol := 0, stage := .running, since := 0, origin := some 5, need := 16, buf := image 16 [(4, 4, 1)] } : NvmeCmd), ({ sqe := image 64 [(0, 1, Nop.dsm), (4, 4, 1), (44, 4, 1)], ctx := none, cntlid := 1, qid := 1, cls := 0, tenant := 0, vol := 0, stage := .running, since := 0, origin := some 5, need := 16, buf := image 16 [(4, 4, 1)] } : NvmeCmd), (regs [(DDR_CFG.CAP_GIB, 16), (PAR_CTL.EN, 1), (PAR_TENANT_TABLE.BASE, 1), (PAR_SHARD.STATE 0, Pst.owned)] { State.reset with mem := Memory.writeN [] 0 (image 64 [(0, 2, 1), (8, 8, 4096)]) }) |>.setPar { cmds := [(0, ({ sqe := image 64 [(0, 1, Nop.dsm), (4, 4, 1), (44, 4, 1)], ctx := none, cntlid := 1, qid := 1, cls := 0, tenant := 0, vol := 0, stage := .running, since := 0, origin := some 5, need := 16, buf := image 16 [(4, 4, 1)] } : NvmeCmd))] }, by decide +kernel⟩,
   ⟨(regs [(DDR_CFG.CAP_GIB, 16), (PAR_CTL.EN, 1), (PAR_TENANT_TABLE.BASE, 1), (PAR_SHARD.STATE 0, Pst.owned)] { State.reset with mem := Memory.writeN [] 0 (image 64 [(0, 2, 1), (8, 8, 4096)]) }) |>.setPar { cmds := [(0, ({ sqe := image 64 [(0, 1, Nop.secure), (4, 4, 1)], ctx := none, cntlid := 1, qid := 1, cls := 0, tenant := 0, vol := 0, stage := .running, since := 0, origin := some 5 } : NvmeCmd))] }, 0, [], ({ sqe := image 64 [(0, 1, Nop.secure), (4, 4, 1)], ctx := none, cntlid := 1, qid := 1, cls := 0, tenant := 0, vol := 0, stage := .running, since := 0, origin := some 5 } : NvmeCmd), [], (let s := ((regs [(DDR_CFG.CAP_GIB, 16), (PAR_CTL.EN, 1), (PAR_TENANT_TABLE.BASE, 1), (PAR_SHARD.STATE 0, Pst.owned)] { State.reset with mem := Memory.writeN [] 0 (image 64 [(0, 2, 1), (8, 8, 4096)]) }) |>.setPar { cmds := [(0, ({ sqe := image 64 [(0, 1, Nop.secure), (4, 4, 1)], ctx := none, cntlid := 1, qid := 1, cls := 0, tenant := 0, vol := 0, stage := .running, since := 0, origin := some 5 } : NvmeCmd))] }); s.setCmd 0 { ({ sqe := image 64 [(0, 1, Nop.secure), (4, 4, 1)], ctx := none, cntlid := 1, qid := 1, cls := 0, tenant := 0, vol := 0, stage := .running, since := 0, origin := some 5 } : NvmeCmd) with blks := s.makeBlks ({ sqe := image 64 [(0, 1, Nop.secure), (4, 4, 1)], ctx := none, cntlid := 1, qid := 1, cls := 0, tenant := 0, vol := 0, stage := .running, since := 0, origin := some 5 } : NvmeCmd), begun := true }), ⟨by decide +kernel, by decide +kernel, by decide +kernel, by decide +kernel, by decide +kernel, by decide +kernel, by decide +kernel, by decide +kernel, by decide +kernel, by decide +kernel, by decide +kernel, by first | with_reducible rfl | decide +kernel⟩⟩,
   ⟨(regs [(DDR_CFG.CAP_GIB, 16), (PAR_CTL.EN, 1), (PAR_TENANT_TABLE.BASE, 1), (PAR_SHARD.STATE 0, Pst.owned)] { State.reset with mem := Memory.writeN [] 0 (image 64 [(0, 2, 1), (8, 8, 4096)]) }) |>.setPar { cmds := [(0, ({ sqe := image 64 [(0, 1, Nop.secure), (4, 4, 1)], ctx := none, cntlid := 1, qid := 1, cls := 0, tenant := 0, vol := 0, stage := .running, since := 0, origin := some 5, begun := true } : NvmeCmd))] }, 0, [], ({ sqe := image 64 [(0, 1, Nop.secure), (4, 4, 1)], ctx := none, cntlid := 1, qid := 1, cls := 0, tenant := 0, vol := 0, stage := .running, since := 0, origin := some 5, begun := true } : NvmeCmd), by decide +kernel⟩,
   ⟨(regs [(DDR_CFG.CAP_GIB, 16), (PAR_CTL.EN, 1), (PAR_TENANT_TABLE.BASE, 1), (PAR_SHARD.STATE 0, Pst.owned)] { State.reset with mem := Memory.writeN [] 0 (image 64 [(0, 2, 1), (8, 8, 4096)]) }) |>.setPar { cmds := [(0, ({ sqe := image 64 [(0, 1, Nop.write), (4, 4, 1)], ctx := none, cntlid := 1, qid := 1, cls := 0, tenant := 0, vol := 0, stage := .running, since := 0, origin := some 5, begun := true, blks := [{ block := 0, step := .wait }] } : NvmeCmd))] }, 0, [], ({ sqe := image 64 [(0, 1, Nop.write), (4, 4, 1)], ctx := none, cntlid := 1, qid := 1, cls := 0, tenant := 0, vol := 0, stage := .running, since := 0, origin := some 5, begun := true, blks := [{ block := 0, step := .wait }] } : NvmeCmd), by decide +kernel⟩⟩

theorem witness_NvmeCommandsBegin_4 :
  (∃ (s : State) (k st : Nat) (ms : List Medium) (c : NvmeCmd), (s.cmd k = some c) ∧ (c.op = Nop.write) ∧ (c.begun = true) ∧ (c.need ≤ c.buf.length) ∧ ((s.leaseU.reexec.any fun l => l.2.contains k) = false) ∧ ((c.fwds.any fun p => p.st == 4) = true ∨ (c.blks.any fun b => b.step == .wait) = true) ∧ (st = (if c.badData then Nv.transient else firstBad (c.blks.map fun b => if b.step = .wait then c.writeCheck (s.cmdVol c) b.block else 0))) ∧ (st ≠ 0)) :=
  ⟨(regs [(DDR_CFG.CAP_GIB, 16), (PAR_CTL.EN, 1), (PAR_TENANT_TABLE.BASE, 1), (PAR_SHARD.STATE 0, Pst.owned)] { State.reset with mem := Memory.writeN [] 0 (image 64 [(0, 2, 1), (8, 8, 4096)]) }) |>.setPar { cmds := [(0, ({ sqe := image 64 [(0, 1, Nop.write), (4, 4, 1)], ctx := none, cntlid := 1, qid := 1, cls := 0, tenant := 0, vol := 0, stage := .running, since := 0, origin := some 5, begun := true, badData := true, blks := [{ block := 0, step := .wait }] } : NvmeCmd))] }, 0, Nv.transient, [], ({ sqe := image 64 [(0, 1, Nop.write), (4, 4, 1)], ctx := none, cntlid := 1, qid := 1, cls := 0, tenant := 0, vol := 0, stage := .running, since := 0, origin := some 5, begun := true, badData := true, blks := [{ block := 0, step := .wait }] } : NvmeCmd), by decide +kernel⟩

theorem witness_AdminCommandsTimersAndCuts :
  (∃ (s : State) (k : Nat) (c : NvmeCmd), (s.cmd k = some c) ∧ (c.stage = .running) ∧ (c.admin = true) ∧ (c.op = Nadm.abort)) ∧
  (∃ (s : State) (k : Nat) (c : NvmeCmd), (s.cmd k = some c) ∧ (c.admin = true) ∧ (c.op = Nadm.keepAlive)) ∧
  (∃ (s : State) (k : Nat) (c : NvmeCmd) (x : Ctrl), (s.cmd k = some c) ∧ (c.admin = true) ∧ (c.op = Nadm.aer) ∧ (s.ctrl c.cntlid = some x) ∧ (x.aers.contains c.cid = false) ∧ (x.aers.length < 4) ∧ (s.aenWaiting c.cntlid = none)) ∧
  (∃ (s : State) (k : Nat) (c : NvmeCmd) (x : Ctrl) (d : DescRef) (f : Fetched), (s.cmd k = some c) ∧ (c.admin = true) ∧ (c.op = Nadm.aer) ∧ (s.ctrl c.cntlid = some x) ∧ (x.aers.contains c.cid = false) ∧ (x.aers.length < 4) ∧ (s.aenWaiting c.cntlid = some (d, f))) :=
  ⟨⟨(regs [(DDR_CFG.CAP_GIB, 16), (PAR_CTL.EN, 1), (PAR_TENANT_TABLE.BASE, 1), (PAR_SHARD.STATE 0, Pst.owned)] { State.reset with mem := Memory.writeN [] 0 (image 64 [(0, 2, 1), (8, 8, 4096)]) }) |>.setPar { cmds := [(0, ({ sqe := image 64 [(0, 1, Nadm.abort)], ctx := none, cntlid := 1, qid := 0, cls := 0, tenant := 0, vol := 0, stage := .running, since := 0, origin := none } : NvmeCmd))] }, 0, ({ sqe := image 64 [(0, 1, Nadm.abort)], ctx := none, cntlid := 1, qid := 0, cls := 0, tenant := 0, vol := 0, stage := .running, since := 0, origin := none } : NvmeCmd), by decide +kernel⟩,
   ⟨(regs [(DDR_CFG.CAP_GIB, 16), (PAR_CTL.EN, 1), (PAR_TENANT_TABLE.BASE, 1), (PAR_SHARD.STATE 0, Pst.owned)] { State.reset with mem := Memory.writeN [] 0 (image 64 [(0, 2, 1), (8, 8, 4096)]) }) |>.setPar { cmds := [(0, ({ sqe := image 64 [(0, 1, Nadm.keepAlive)], ctx := none, cntlid := 1, qid := 0, cls := 0, tenant := 0, vol := 0, stage := .running, since := 0, origin := none } : NvmeCmd))] }, 0, ({ sqe := image 64 [(0, 1, Nadm.keepAlive)], ctx := none, cntlid := 1, qid := 0, cls := 0, tenant := 0, vol := 0, stage := .running, since := 0, origin := none } : NvmeCmd), by decide +kernel⟩,
   ⟨(regs [(DDR_CFG.CAP_GIB, 16), (PAR_CTL.EN, 1), (PAR_TENANT_TABLE.BASE, 1), (PAR_SHARD.STATE 0, Pst.owned)] { State.reset with mem := Memory.writeN [] 0 (image 64 [(0, 2, 1), (8, 8, 4096)]) }) |>.setPar { cmds := [(0, ({ sqe := image 64 [(0, 1, Nadm.aer)], ctx := none, cntlid := 1, qid := 0, cls := 0, tenant := 0, vol := 0, stage := .running, since := 0, origin := none } : NvmeCmd))], ctrls := [(1, {})] }, 0, ({ sqe := image 64 [(0, 1, Nadm.aer)], ctx := none, cntlid := 1, qid := 0, cls := 0, tenant := 0, vol := 0, stage := .running, since := 0, origin := none } : NvmeCmd), {}, by decide +kernel⟩,
   ⟨holds .par [desc 0 Op.aenPost [(32, 2, 1)] .waiting] ((regs [(DDR_CFG.CAP_GIB, 16), (PAR_CTL.EN, 1), (PAR_TENANT_TABLE.BASE, 1), (PAR_SHARD.STATE 0, Pst.owned)] { State.reset with mem := Memory.writeN [] 0 (image 64 [(0, 2, 1), (8, 8, 4096)]) }) |>.setPar { cmds := [(0, ({ sqe := image 64 [(0, 1, Nadm.aer)], ctx := none, cntlid := 1, qid := 0, cls := 0, tenant := 0, vol := 0, stage := .running, since := 0, origin := none } : NvmeCmd))], ctrls := [(1, {})] }), 0, ({ sqe := image 64 [(0, 1, Nadm.aer)], ctx := none, cntlid := 1, qid := 0, cls := 0, tenant := 0, vol := 0, stage := .running, since := 0, origin := none } : NvmeCmd), {}, ⟨0, 0⟩, desc 0 Op.aenPost [(32, 2, 1)] .waiting, by decide +kernel⟩⟩

theorem witness_AdminCommandsTimersAndCuts_2 :
  (∃ (s : State) (k : Nat) (c : NvmeCmd) (x : Ctrl), (s.cmd k = some c) ∧ (c.admin = true) ∧ (c.op = Nadm.aer) ∧ (s.ctrl c.cntlid = some x) ∧ (x.aers.contains c.cid = false) ∧ (4 ≤ x.aers.length)) ∧
  (∃ (s : State) (k : Nat) (c : NvmeCmd), (s.cmd k = some c) ∧ (c.stage = .held) ∧ (c.reexec = false) ∧ (s.passed (c.heldAt + s.rd PAR_HANDOFF_CFG.HOLD_LIMIT * mgmtTick) = true)) ∧
  (∃ (s : State) (k : Nat) (c : NvmeCmd), (s.cmd k = some c) ∧ (c.stage = .held) ∧ (c.reexec = false) ∧ (s.passed (c.heldAt + s.rd PAR_HANDOFF_CFG.HOLD_LIMIT * mgmtTick) = true) ∧ (c.fwds = [])) ∧
  (∃ (s : State) (cntlid : Nat) (c : Ctrl), (s.ctrl cntlid = some c) ∧ (s.due c.kaBy = true)) :=
  ⟨⟨(regs [(DDR_CFG.CAP_GIB, 16), (PAR_CTL.EN, 1), (PAR_TENANT_TABLE.BASE, 1), (PAR_SHARD.STATE 0, Pst.owned)] { State.reset with mem := Memory.writeN [] 0 (image 64 [(0, 2, 1), (8, 8, 4096)]) }) |>.setPar { cmds := [(0, ({ sqe := image 64 [(0, 1, Nadm.aer)], ctx := none, cntlid := 1, qid := 0, cls := 0, tenant := 0, vol := 0, stage := .running, since := 0, origin := none } : NvmeCmd))], ctrls := [(1, { aers := [1, 2, 3, 4] })] }, 0, ({ sqe := image 64 [(0, 1, Nadm.aer)], ctx := none, cntlid := 1, qid := 0, cls := 0, tenant := 0, vol := 0, stage := .running, since := 0, origin := none } : NvmeCmd), { aers := [1, 2, 3, 4] }, by decide +kernel⟩,
   ⟨{ ((regs [(DDR_CFG.CAP_GIB, 16), (PAR_CTL.EN, 1), (PAR_TENANT_TABLE.BASE, 1), (PAR_SHARD.STATE 0, Pst.owned)] { State.reset with mem := Memory.writeN [] 0 (image 64 [(0, 2, 1), (8, 8, 4096)]) }) |>.setPar { cmds := [(0, ({ sqe := image 64 [(0, 1, Nop.read)], ctx := none, cntlid := 1, qid := 1, cls := 0, tenant := 0, vol := 0, stage := .held, since := 0, origin := some 5 } : NvmeCmd))] }) with now := 10 ^ 12 }, 0, ({ sqe := image 64 [(0, 1, Nop.read)], ctx := none, cntlid := 1, qid := 1, cls := 0, tenant := 0, vol := 0, stage := .held, since := 0, origin := some 5 } : NvmeCmd), by decide +kernel⟩,
   ⟨{ ((regs [(DDR_CFG.CAP_GIB, 16), (PAR_CTL.EN, 1), (PAR_TENANT_TABLE.BASE, 1), (PAR_SHARD.STATE 0, Pst.owned)] { State.reset with mem := Memory.writeN [] 0 (image 64 [(0, 2, 1), (8, 8, 4096)]) }) |>.setPar { cmds := [(0, ({ sqe := image 64 [(0, 1, Nop.read)], ctx := none, cntlid := 1, qid := 1, cls := 0, tenant := 0, vol := 0, stage := .held, since := 0, origin := some 5 } : NvmeCmd))] }) with now := 10 ^ 12 }, 0, ({ sqe := image 64 [(0, 1, Nop.read)], ctx := none, cntlid := 1, qid := 1, cls := 0, tenant := 0, vol := 0, stage := .held, since := 0, origin := some 5 } : NvmeCmd), by decide +kernel⟩,
   ⟨State.reset.setPar { ctrls := [(1, { kaBy := some 0 })] }, 1, { kaBy := some 0 }, by decide +kernel⟩⟩

theorem witness_AdminCommandsTimersAndCuts_3 :
  (∃ (s : State) (x : Nat) (rest : List Nat) (q : Queue), (s.par.lost = x :: rest) ∧ (s.queueOf x = some q)) ∧
  (∃ (s : State) (cntlid cause : Nat) (c : Ctrl), (s.ctrl cntlid = some c) ∧ (c.lost = false)) ∧
  (∃ (s : State) (i n : Nat) (x : Cut) (t : State), (s.par.cuts[i]? = some x) ∧ (x.waits = []) ∧ (x.cancels = []) ∧ ((s.par.cmds.any fun e => x.takes e.2.cntlid e.2.qid && e.2.origin.isNone && x.settles x.silent e.2.op) = false) ∧ (x.qid = some n) ∧ (t = s.setPar { s.par with cuts := s.par.cuts.eraseIdx i, queues := s.par.queues.filter fun q => !(q.cntlid == x.cntlid && q.qid == n) })) ∧
  (∃ (s : State) (i : Nat) (x : Cut) (c : Ctrl) (t : State), (s.par.cuts[i]? = some x) ∧ (x.waits = []) ∧ (x.cancels = []) ∧ ((s.par.cmds.any fun e => x.takes e.2.cntlid e.2.qid && e.2.origin.isNone && x.settles x.silent e.2.op) = false) ∧ (x.qid = none) ∧ (s.ctrl x.cntlid = some c) ∧ (t = (s.setPar { s.par with cuts := s.par.cuts.eraseIdx i, queues := s.par.queues.filter fun q => !(q.cntlid == x.cntlid && (q.qid != 0 || c.lost)) }).setCtrl x.cntlid { c with aers := [], kaBy := none, rdy := false })) :=
  ⟨⟨State.reset.setPar { lost := [3], queues := [{ ctx := 3, cntlid := 1, qid := 1, size := 7, cls := 0 }] }, 3, [], { ctx := 3, cntlid := 1, qid := 1, size := 7, cls := 0 }, by decide +kernel⟩,
   ⟨State.reset.setPar { ctrls := [(1, {})] }, 1, 1, {}, by decide +kernel⟩,
   ⟨State.reset.setPar { cuts := [{ d := some ⟨0, 0⟩, cntlid := 1, qid := some 1, aborted := 2, waits := [], cancels := [] }] }, 0, 1, { d := some ⟨0, 0⟩, cntlid := 1, qid := some 1, aborted := 2, waits := [], cancels := [] }, State.reset.setPar { cuts := [] }, ⟨by decide +kernel, by decide +kernel, by decide +kernel, by decide +kernel, by decide +kernel, by first | with_reducible rfl | decide +kernel⟩⟩,
   ⟨State.reset.setPar { cuts := [{ d := some ⟨0, 0⟩, cntlid := 1, qid := none, aborted := 2, waits := [], cancels := [] }], ctrls := [(1, { rdy := true })] }, 0, { d := some ⟨0, 0⟩, cntlid := 1, qid := none, aborted := 2, waits := [], cancels := [] }, { rdy := true }, State.reset.setPar { ctrls := [(1, {})] }, ⟨by decide +kernel, by decide +kernel, by decide +kernel, by decide +kernel, by decide +kernel, by decide +kernel, by first | with_reducible rfl | decide +kernel⟩⟩⟩

theorem witness_AdminCommandsTimersAndCuts_4 :
  (∃ (s : State) (shard : Fin 256) (ms : List Medium), (s.rd (PAR_SHARD.STATE shard) = Pst.owned ∨ s.rd (PAR_SHARD.STATE shard) = Pst.peer)) :=
  ⟨regs [(PAR_SHARD.STATE 3, Pst.owned)] State.reset, 3, [], by decide +kernel⟩

theorem witness_ParlourDescriptors :
  (∃ (s : State) (d : DescRef) (f : Fetched) (new : List Byte) (t : State), (s.startedAt .par d Op.volSet = some f) ∧ (f.len = 64) ∧ ((s.dmaRead .par f.src 64 (some d.ring)).toOption = some new) ∧ (f.at 28 4 < 2 ^ 18) ∧ (volEntryOk new = true) ∧ (volValid new = false → (s.par.cmds.any fun c => c.2.vol == f.at 28 4) = false) ∧ (volValid new = true → Tab.getD s.par.forms (f.at 28 4) 0 = 0 ∨ formatChange (Tab.getD s.par.shape (f.at 28 4) new) new = false) ∧ ((s.dmaWrite .par (s.volAddr (f.at 28 4)) (splice new 32 (leBytes 4 ((fieldAt (s.volEntry (f.at 28 4)) 32 4 + 1) % 2 ^ 32)))).toOption = some t)) ∧
  (∃ (s : State) (d : DescRef) (f : Fetched) (new : List Byte) (t : State), (s.startedAt .par d Op.tenantSet = some f) ∧ (f.len = 64) ∧ ((s.dmaRead .par f.src 64 (some d.ring)).toOption = some new) ∧ (tenantEntryOk new = true) ∧ ((s.dmaWrite .par (s.rd PAR_TENANT_TABLE.BASE * 4096 + f.tenant * 64) new).toOption = some t)) ∧
  (∃ (s : State) (d : DescRef) (f : Fetched) (x : Ctx) (u : State), (s.startedAt .par d Op.queueBind = some f) ∧ (s.ctx (f.at 28 4) = some x) ∧ (x.parlour = true) ∧ (f.at 32 2 ≠ 0) ∧ (f.at 32 2 ≤ 0xFFEF) ∧ (f.at 34 2 = 0 ∨ (s.ctrl (f.at 32 2)).isSome = true) ∧ (f.at 36 2 ≤ 1023) ∧ (f.at 38 1 ≤ 3) ∧ ((s.par.queues.any fun q => (q.cntlid == f.at 32 2 && q.qid == f.at 34 2) || q.ctx == f.at 28 4) = false) ∧ (u = if f.at 34 2 = 0 then s.setCtrl (f.at 32 2) { } else s)) ∧
  (∃ (s : State) (d : DescRef) (f : Fetched), (s.startedAt .par d Op.queueDelete = some f) ∧ ((s.ctrl (f.at 32 2)).isSome = true) ∧ ((s.par.cuts.any fun x => x.d == some d) = false) ∧ (f.at 34 2 ≠ 0) ∧ ((s.par.queues.any fun q => q.cntlid == f.at 32 2 && q.qid == f.at 34 2) = true)) :=
  ⟨⟨holds .par [desc 0 Op.volSet [(24, 4, 64), (28, 4, 9), (8, 8, 4096)] .started] (regs [(DDR_CFG.CAP_GIB, 16), (PAR_CTL.EN, 1), (PAR_TENANT_TABLE.BASE, 1), (PAR_SHARD.STATE 0, Pst.owned)] { State.reset with mem := Memory.writeN [] 4096 (image 64 [(0, 2, 1), (8, 8, 4096)]) }), ⟨0, 0⟩, desc 0 Op.volSet [(24, 4, 64), (28, 4, 9), (8, 8, 4096)] .started, image 64 [(0, 2, 1), (8, 8, 4096)], (((holds .par [desc 0 Op.volSet [(24, 4, 64), (28, 4, 9), (8, 8, 4096)] .started] (regs [(DDR_CFG.CAP_GIB, 16), (PAR_CTL.EN, 1), (PAR_TENANT_TABLE.BASE, 1), (PAR_SHARD.STATE 0, Pst.owned)] { State.reset with mem := Memory.writeN [] 4096 (image 64 [(0, 2, 1), (8, 8, 4096)]) })).dmaWrite .par ((holds .par [desc 0 Op.volSet [(24, 4, 64), (28, 4, 9), (8, 8, 4096)] .started] (regs [(DDR_CFG.CAP_GIB, 16), (PAR_CTL.EN, 1), (PAR_TENANT_TABLE.BASE, 1), (PAR_SHARD.STATE 0, Pst.owned)] { State.reset with mem := Memory.writeN [] 4096 (image 64 [(0, 2, 1), (8, 8, 4096)]) })).volAddr 9) (splice (image 64 [(0, 2, 1), (8, 8, 4096)]) 32 (leBytes 4 1))).toOption.getD State.reset), by decide +kernel⟩,
   ⟨holds .par [desc 0 Op.tenantSet [(24, 4, 64), (8, 8, 4096)] .started] (regs [(DDR_CFG.CAP_GIB, 16), (PAR_CTL.EN, 1), (PAR_TENANT_TABLE.BASE, 1), (PAR_SHARD.STATE 0, Pst.owned)] { State.reset with mem := Memory.writeN [] 4096 (image 64 [(0, 1, 1)]) }), ⟨0, 0⟩, desc 0 Op.tenantSet [(24, 4, 64), (8, 8, 4096)] .started, image 64 [(0, 1, 1)], (((holds .par [desc 0 Op.tenantSet [(24, 4, 64), (8, 8, 4096)] .started] (regs [(DDR_CFG.CAP_GIB, 16), (PAR_CTL.EN, 1), (PAR_TENANT_TABLE.BASE, 1), (PAR_SHARD.STATE 0, Pst.owned)] { State.reset with mem := Memory.writeN [] 4096 (image 64 [(0, 1, 1)]) })).dmaWrite .par 4096 (image 64 [(0, 1, 1)])).toOption.getD State.reset), by decide +kernel⟩,
   ⟨holds .par [desc 0 Op.queueBind [(28, 4, 7), (32, 2, 1), (34, 2, 1), (36, 2, 31), (38, 1, 2)] .started] ((State.reset.setRails { ctxs := [(7, { rail := .a, lport := 0, parlour := true, pin := false, resident := true, rate := 100, target := 50, body := .qp {} })] }).setPar { ctrls := [(1, {})] }), ⟨0, 0⟩, desc 0 Op.queueBind [(28, 4, 7), (32, 2, 1), (34, 2, 1), (36, 2, 31), (38, 1, 2)] .started, { rail := .a, lport := 0, parlour := true, pin := false, resident := true, rate := 100, target := 50, body := .qp {} }, holds .par [desc 0 Op.queueBind [(28, 4, 7), (32, 2, 1), (34, 2, 1), (36, 2, 31), (38, 1, 2)] .started] ((State.reset.setRails { ctxs := [(7, { rail := .a, lport := 0, parlour := true, pin := false, resident := true, rate := 100, target := 50, body := .qp {} })] }).setPar { ctrls := [(1, {})] }), ⟨by decide +kernel, by decide +kernel, by decide +kernel, by decide +kernel, by decide +kernel, by decide +kernel, by decide +kernel, by decide +kernel, by decide +kernel, by first | with_reducible rfl | decide +kernel⟩⟩,
   ⟨holds .par [desc 0 Op.queueDelete [(32, 2, 1), (34, 2, 1)] .started] (State.reset.setPar { ctrls := [(1, {})], queues := [{ ctx := 3, cntlid := 1, qid := 1, size := 7, cls := 0 }] }), ⟨0, 0⟩, desc 0 Op.queueDelete [(32, 2, 1), (34, 2, 1)] .started, by decide +kernel⟩⟩

theorem witness_ParlourDescriptors_2 :
  (∃ (s : State) (d : DescRef) (f : Fetched) (c : Ctrl) (t : State), (s.startedAt .par d Op.ctrlReset = some f) ∧ ((s.ctrl (f.at 32 2)).isSome = true) ∧ ((s.par.cuts.any fun x => x.d == some d) = false) ∧ (t = (s.setPhase .par d .waiting).cutQueues (some d) (f.at 32 2) none true) ∧ ((f.at 36 1).testBit 0 = false) ∧ (t.ctrl (f.at 32 2) = some c)) ∧
  (∃ (s : State) (d : DescRef) (f : Fetched) (t : State), (s.startedAt .par d Op.ctrlReset = some f) ∧ ((s.ctrl (f.at 32 2)).isSome = true) ∧ ((s.par.cuts.any fun x => x.d == some d) = false) ∧ (t = (s.setPhase .par d .waiting).cutQueues (some d) (f.at 32 2) none true) ∧ ((f.at 36 1).testBit 0 = true)) ∧
  (∃ (s : State) (d : DescRef) (f : Fetched) (k : Nat) (rest : List Nat) (c : NvmeCmd) (t : State), (s.startedAt .par d Op.adminFetch = some f) ∧ (4160 ≤ f.len) ∧ (s.par.admin = k :: rest) ∧ (s.cmd k = some c) ∧ ((s.dmaWrite .par f.dst (c.sqe ++ c.incap) (some d.ring)).toOption = some t)) ∧
  (∃ (s : State) (d : DescRef) (f : Fetched), (s.startedAt .par d Op.adminFetch = some f) ∧ (4160 ≤ f.len) ∧ (s.par.admin = [])) :=
  ⟨⟨holds .par [desc 0 Op.ctrlReset [(32, 2, 1)] .started] (State.reset.setPar { ctrls := [(1, {})] }), ⟨0, 0⟩, desc 0 Op.ctrlReset [(32, 2, 1)] .started, {}, ((holds .par [desc 0 Op.ctrlReset [(32, 2, 1)] .started] (State.reset.setPar { ctrls := [(1, {})] })).setPhase .par ⟨0, 0⟩ .waiting).cutQueues (some ⟨0, 0⟩) 1 none true, ⟨by decide +kernel, by decide +kernel, by decide +kernel, by first | with_reducible rfl | decide +kernel, by decide +kernel, by decide +kernel⟩⟩,
   ⟨holds .par [desc 0 Op.ctrlReset [(32, 2, 1), (36, 1, 1)] .started] (State.reset.setPar { ctrls := [(1, {})] }), ⟨0, 0⟩, desc 0 Op.ctrlReset [(32, 2, 1), (36, 1, 1)] .started, ((holds .par [desc 0 Op.ctrlReset [(32, 2, 1), (36, 1, 1)] .started] (State.reset.setPar { ctrls := [(1, {})] })).setPhase .par ⟨0, 0⟩ .waiting).cutQueues (some ⟨0, 0⟩) 1 none true, ⟨by decide +kernel, by decide +kernel, by decide +kernel, by first | with_reducible rfl | decide +kernel, by decide +kernel⟩⟩,
   ⟨holds .par [desc 0 Op.adminFetch [(24, 4, 4160), (16, 8, 8192)] .started] ((regs [(DDR_CFG.CAP_GIB, 16), (PAR_CTL.EN, 1), (PAR_TENANT_TABLE.BASE, 1), (PAR_SHARD.STATE 0, Pst.owned)] { State.reset with mem := Memory.writeN [] 0 (image 64 [(0, 2, 1), (8, 8, 4096)]) }) |>.setPar { cmds := [(0, ({ sqe := image 64 [(0, 1, 0x09)], ctx := none, cntlid := 1, qid := 0, cls := 0, tenant := 0, vol := 0, stage := .running, since := 0, origin := none } : NvmeCmd))], admin := [0] }), ⟨0, 0⟩, desc 0 Op.adminFetch [(24, 4, 4160), (16, 8, 8192)] .started, 0, [], ({ sqe := image 64 [(0, 1, 0x09)], ctx := none, cntlid := 1, qid := 0, cls := 0, tenant := 0, vol := 0, stage := .running, since := 0, origin := none } : NvmeCmd), (((holds .par [desc 0 Op.adminFetch [(24, 4, 4160), (16, 8, 8192)] .started] ((regs [(DDR_CFG.CAP_GIB, 16), (PAR_CTL.EN, 1), (PAR_TENANT_TABLE.BASE, 1), (PAR_SHARD.STATE 0, Pst.owned)] { State.reset with mem := Memory.writeN [] 0 (image 64 [(0, 2, 1), (8, 8, 4096)]) }) |>.setPar { cmds := [(0, ({ sqe := image 64 [(0, 1, 0x09)], ctx := none, cntlid := 1, qid := 0, cls := 0, tenant := 0, vol := 0, stage := .running, since := 0, origin := none } : NvmeCmd))], admin := [0] })).dmaWrite .par 8192 (image 64 [(0, 1, 0x09)]) (some 0)).toOption.getD State.reset), by decide +kernel⟩,
   ⟨holds .par [desc 0 Op.adminFetch [(24, 4, 4160), (16, 8, 8192)] .started] (State.reset), ⟨0, 0⟩, desc 0 Op.adminFetch [(24, 4, 4160), (16, 8, 8192)] .started, by decide +kernel⟩⟩

theorem witness_ParlourDescriptors_3 :
  (∃ (s : State) (d : DescRef) (f : Fetched) (k x : Nat) (c : NvmeCmd) (data : List Byte) (u : State), (s.startedAt .par d Op.adminComplete = some f) ∧ ((s.par.cmds.find? fun x => x.2.cntlid == f.at 32 2 && x.2.cid == f.at 34 2 && x.2.software && x.2.begun && !x.2.cut) = some (k, c)) ∧ (s.answerWaits c = false) ∧ ((s.dmaRead .par f.src f.len (some d.ring)).toOption = some data) ∧ (c.ctx = some x) ∧ (u = if fieldAt (slice f.img 36 16) 14 2 / 2 = 0 then s.adminSeen c else s)) ∧
  (∃ (s : State) (d : DescRef) (f : Fetched) (k a : Nat) (rest : List Nat) (x : Ctrl) (c : NvmeCmd), (s.startedAt .par d Op.aenPost = some f) ∧ (s.ctrl (f.at 32 2) = some x) ∧ (x.aers = a :: rest) ∧ ((s.par.cmds.find? fun e => e.2.cntlid == f.at 32 2 && e.2.admin && e.2.op == Nadm.aer && e.2.cid == a) = some (k, c))) ∧
  (∃ (s : State) (d : DescRef) (f : Fetched) (x : Ctrl), (s.startedAt .par d Op.aenPost = some f) ∧ (s.ctrl (f.at 32 2) = some x) ∧ (x.aers = [])) ∧
  (∃ (s : State) (d : DescRef) (f : Fetched), (s.startedAt .par d Op.anaRead = some f) ∧ ((s.ctrl (f.at 32 2)).isSome = true) ∧ ((s.dmaWrite .par f.dst (((s.anaPage ((f.at 36 1).testBit 0)).take f.len)) (some d.ring)).toOption.isSome = true)) :=
  ⟨⟨holds .par [desc 0 Op.adminComplete [(32, 2, 1), (50, 2, 4)] .started] ((regs [(DDR_CFG.CAP_GIB, 16), (PAR_CTL.EN, 1), (PAR_TENANT_TABLE.BASE, 1), (PAR_SHARD.STATE 0, Pst.owned)] { State.reset with mem := Memory.writeN [] 0 (image 64 [(0, 2, 1), (8, 8, 4096)]) }) |>.setPar { cmds := [(0, ({ sqe := image 64 [(0, 1, 0x09)], ctx := some 3, cntlid := 1, qid := 0, cls := 0, tenant := 0, vol := 0, stage := .running, since := 0, origin := none, begun := true } : NvmeCmd))] }), ⟨0, 0⟩, desc 0 Op.adminComplete [(32, 2, 1), (50, 2, 4)] .started, 0, 3, ({ sqe := image 64 [(0, 1, 0x09)], ctx := some 3, cntlid := 1, qid := 0, cls := 0, tenant := 0, vol := 0, stage := .running, since := 0, origin := none, begun := true } : NvmeCmd), [], holds .par [desc 0 Op.adminComplete [(32, 2, 1), (50, 2, 4)] .started] ((regs [(DDR_CFG.CAP_GIB, 16), (PAR_CTL.EN, 1), (PAR_TENANT_TABLE.BASE, 1), (PAR_SHARD.STATE 0, Pst.owned)] { State.reset with mem := Memory.writeN [] 0 (image 64 [(0, 2, 1), (8, 8, 4096)]) }) |>.setPar { cmds := [(0, ({ sqe := image 64 [(0, 1, 0x09)], ctx := some 3, cntlid := 1, qid := 0, cls := 0, tenant := 0, vol := 0, stage := .running, since := 0, origin := none, begun := true } : NvmeCmd))] }), ⟨by decide +kernel, by decide +kernel, by decide +kernel, by decide +kernel, by decide +kernel, by first | with_reducible rfl | decide +kernel⟩⟩,
   ⟨holds .par [desc 0 Op.aenPost [(32, 2, 1)] .started] ((regs [(DDR_CFG.CAP_GIB, 16), (PAR_CTL.EN, 1), (PAR_TENANT_TABLE.BASE, 1), (PAR_SHARD.STATE 0, Pst.owned)] { State.reset with mem := Memory.writeN [] 0 (image 64 [(0, 2, 1), (8, 8, 4096)]) }) |>.setPar { cmds := [(0, ({ sqe := image 64 [(0, 1, Nadm.aer)], ctx := none, cntlid := 1, qid := 0, cls := 0, tenant := 0, vol := 0, stage := .running, since := 0, origin := none } : NvmeCmd))], ctrls := [(1, { aers := [0] })] }), ⟨0, 0⟩, desc 0 Op.aenPost [(32, 2, 1)] .started, 0, 0, [], { aers := [0] }, ({ sqe := image 64 [(0, 1, Nadm.aer)], ctx := none, cntlid := 1, qid := 0, cls := 0, tenant := 0, vol := 0, stage := .running, since := 0, origin := none } : NvmeCmd), by decide +kernel⟩,
   ⟨holds .par [desc 0 Op.aenPost [(32, 2, 1)] .started] (State.reset.setPar { ctrls := [(1, {})] }), ⟨0, 0⟩, desc 0 Op.aenPost [(32, 2, 1)] .started, {}, by decide +kernel⟩,
   ⟨holds .par [desc 0 Op.anaRead [(32, 2, 1), (36, 1, 1), (24, 4, 16), (16, 8, 8192)] .started] (regs [(DDR_CFG.CAP_GIB, 16), (PAR_CTL.EN, 1), (PAR_TENANT_TABLE.BASE, 1), (PAR_SHARD.STATE 0, Pst.owned)] (State.reset.setPar { ctrls := [(1, {})] })), ⟨0, 0⟩, desc 0 Op.anaRead [(32, 2, 1), (36, 1, 1), (24, 4, 16), (16, 8, 8192)] .started, by decide +kernel⟩⟩

theorem witness_ParlourDescriptors_4 :
  (∃ (s : State) (origin : Origin), (s.originThere origin.toNat = true) ∧ (s.audited false origin.toNat = false)) :=
  ⟨State.reset, 0, by decide +kernel⟩

theorem witness_SeparatorDescriptors :
  (∃ (s : State) (d : DescRef) (f : Fetched) (new : List Byte) (t : State), (s.startedAt .sep d Op.domainSet = some f) ∧ (f.len = 16) ∧ ((s.dmaRead .sep f.src 16 (some d.ring)).toOption = some new) ∧ (f.at 28 2 < 4096) ∧ (domClean new = true) ∧ (domTenant new = domTenant (s.domEntry (f.at 28 2)) ∨ s.domainUsed (f.at 28 2) = false) ∧ (domValid new = true ∨ domValid (s.domEntry (f.at 28 2)) = false ∨ s.domainUsed (f.at 28 2) = false) ∧ ((s.dmaWrite .sep (s.rd SEP_DOMAIN_BASE.BASE * 4096 + f.at 28 2 * 16) new).toOption = some t)) ∧
  (∃ (s : State) (d : DescRef) (f : Fetched) (fp : List Byte) (t : State), (s.startedAt .sep d Op.lookup = some f) ∧ (f.len = 32) ∧ (s.domainRefused (f.at 28 2) f.tenant = none) ∧ ((s.dmaRead .sep f.src 32 (some d.ring)).toOption = some fp) ∧ (s.bucketsBad fp = false) ∧ ((f.at 30 1).testBit 0 = false) ∧ (t = s.noteBuckets fp) ∧ (t.filterFind (f.at 28 2) fp = none) ∧ (t.dramMatch (f.at 28 2) fp = none)) ∧
  (∃ (s : State) (d : DescRef) (f : Fetched) (fp : List Byte) (t : State), (s.startedAt .sep d Op.lookup = some f) ∧ (f.len = 32) ∧ (s.domainRefused (f.at 28 2) f.tenant = none) ∧ ((s.dmaRead .sep f.src 32 (some d.ring)).toOption = some fp) ∧ (s.bucketsBad fp = false) ∧ ((s.noteBuckets fp).dramLookup (f.at 28 2) fp ((f.at 30 1).testBit 0) none = (SepAns.unique, t))) ∧
  (∃ (s : State) (d : DescRef) (f : Fetched) (fp : List Byte) (t : State), (s.startedAt .sep d Op.lookup = some f) ∧ (f.len = 32) ∧ (s.domainRefused (f.at 28 2) f.tenant = none) ∧ ((s.dmaRead .sep f.src 32 (some d.ring)).toOption = some fp) ∧ (s.bucketsBad fp = false) ∧ ((s.noteBuckets fp).dramLookup (f.at 28 2) fp ((f.at 30 1).testBit 0) none = (SepAns.noInsert, t))) :=
  ⟨⟨holds .sep [desc 0 Op.domainSet [(24, 4, 16), (28, 2, 3), (8, 8, 8192)] .started] (regs [(DDR_CFG.CAP_GIB, 16), (PAR_CTL.EN, 1), (PAR_TENANT_TABLE.BASE, 1), (SEP_CTL.EN, 1), (SEP_CTL.INLINE_EN, 1), (SEP_DOMAIN_BASE.BASE, 16), (SEP_INDEX_BASE.BASE, 32), (SEP_INDEX_CFG.LOG2_BUCKETS, 4), (SEP_SHARD.STATE 0, 2), (PAR_SHARD.STATE 0, 0), (CELL_SHARD.STATE 0, 2), (CHURN_CTL.EN, 1), (PRESS_CTL.EN, 1), (VEN_CTL.EN, 1), (PWR_DOM.STATE 70, 2), (PWR_DOM.STATE 74, 2), (PWR_DOM.STATE 77, 2), (CHURN_CTL.LANE_EN, 65535), (PRESS_CTL.LANE_EN, 65535), (VEN_CTL.LANE_EN, 65535)] ({ State.reset with mem := Memory.writeN [] 8192 (image 16 [(0, 2, 0x8004), (2, 1, 1)]) })), ⟨0, 0⟩, desc 0 Op.domainSet [(24, 4, 16), (28, 2, 3), (8, 8, 8192)] .started, image 16 [(0, 2, 0x8004), (2, 1, 1)], (((holds .sep [desc 0 Op.domainSet [(24, 4, 16), (28, 2, 3), (8, 8, 8192)] .started] (regs [(DDR_CFG.CAP_GIB, 16), (PAR_CTL.EN, 1), (PAR_TENANT_TABLE.BASE, 1), (SEP_CTL.EN, 1), (SEP_CTL.INLINE_EN, 1), (SEP_DOMAIN_BASE.BASE, 16), (SEP_INDEX_BASE.BASE, 32), (SEP_INDEX_CFG.LOG2_BUCKETS, 4), (SEP_SHARD.STATE 0, 2), (PAR_SHARD.STATE 0, 0), (CELL_SHARD.STATE 0, 2), (CHURN_CTL.EN, 1), (PRESS_CTL.EN, 1), (VEN_CTL.EN, 1), (PWR_DOM.STATE 70, 2), (PWR_DOM.STATE 74, 2), (PWR_DOM.STATE 77, 2), (CHURN_CTL.LANE_EN, 65535), (PRESS_CTL.LANE_EN, 65535), (VEN_CTL.LANE_EN, 65535)] ({ State.reset with mem := Memory.writeN [] 8192 (image 16 [(0, 2, 0x8004), (2, 1, 1)]) }))).dmaWrite .sep (16 * 4096 + 3 * 16) (image 16 [(0, 2, 0x8004), (2, 1, 1)])).toOption.getD State.reset), by decide +kernel⟩,
   ⟨holds .sep [desc 0 Op.lookup [(24, 4, 32), (28, 2, 0), (8, 8, 8192)] .started] (regs [(DDR_CFG.CAP_GIB, 16), (PAR_CTL.EN, 1), (PAR_TENANT_TABLE.BASE, 1), (SEP_CTL.EN, 1), (SEP_CTL.INLINE_EN, 1), (SEP_DOMAIN_BASE.BASE, 16), (SEP_INDEX_BASE.BASE, 32), (SEP_INDEX_CFG.LOG2_BUCKETS, 4), (SEP_SHARD.STATE 0, 2), (PAR_SHARD.STATE 0, 0), (CELL_SHARD.STATE 0, 2), (CHURN_CTL.EN, 1), (PRESS_CTL.EN, 1), (VEN_CTL.EN, 1), (PWR_DOM.STATE 70, 2), (PWR_DOM.STATE 74, 2), (PWR_DOM.STATE 77, 2), (CHURN_CTL.LANE_EN, 65535), (PRESS_CTL.LANE_EN, 65535), (VEN_CTL.LANE_EN, 65535)] ({ State.reset with mem := Memory.writeN (Memory.writeN (Memory.writeN [] 64 (image 64 [(0, 2, 5), (8, 8, 4096)])) 65536 (image 16 [(0, 2, 0x8000), (2, 1, 1)])) 8192 (image 32 [(0, 1, 7)]) })), ⟨0, 0⟩, desc 0 Op.lookup [(24, 4, 32), (28, 2, 0), (8, 8, 8192)] .started, image 32 [(0, 1, 7)], holds .sep [desc 0 Op.lookup [(24, 4, 32), (28, 2, 0), (8, 8, 8192)] .started] (regs [(DDR_CFG.CAP_GIB, 16), (PAR_CTL.EN, 1), (PAR_TENANT_TABLE.BASE, 1), (SEP_CTL.EN, 1), (SEP_CTL.INLINE_EN, 1), (SEP_DOMAIN_BASE.BASE, 16), (SEP_INDEX_BASE.BASE, 32), (SEP_INDEX_CFG.LOG2_BUCKETS, 4), (SEP_SHARD.STATE 0, 2), (PAR_SHARD.STATE 0, 0), (CELL_SHARD.STATE 0, 2), (CHURN_CTL.EN, 1), (PRESS_CTL.EN, 1), (VEN_CTL.EN, 1), (PWR_DOM.STATE 70, 2), (PWR_DOM.STATE 74, 2), (PWR_DOM.STATE 77, 2), (CHURN_CTL.LANE_EN, 65535), (PRESS_CTL.LANE_EN, 65535), (VEN_CTL.LANE_EN, 65535)] ({ State.reset with mem := Memory.writeN (Memory.writeN (Memory.writeN [] 64 (image 64 [(0, 2, 5), (8, 8, 4096)])) 65536 (image 16 [(0, 2, 0x8000), (2, 1, 1)])) 8192 (image 32 [(0, 1, 7)]) })), ⟨by decide +kernel, by decide +kernel, by decide +kernel, by decide +kernel, by decide +kernel, by decide +kernel, by first | with_reducible rfl | decide +kernel, by decide +kernel, by decide +kernel⟩⟩,
   ⟨holds .sep [desc 0 Op.lookup [(24, 4, 32), (28, 2, 0), (8, 8, 8192), (30, 1, 1)] .started] (regs [(DDR_CFG.CAP_GIB, 16), (PAR_CTL.EN, 1), (PAR_TENANT_TABLE.BASE, 1), (SEP_CTL.EN, 1), (SEP_CTL.INLINE_EN, 1), (SEP_DOMAIN_BASE.BASE, 16), (SEP_INDEX_BASE.BASE, 32), (SEP_INDEX_CFG.LOG2_BUCKETS, 4), (SEP_SHARD.STATE 0, 2), (PAR_SHARD.STATE 0, 0), (CELL_SHARD.STATE 0, 2), (CHURN_CTL.EN, 1), (PRESS_CTL.EN, 1), (VEN_CTL.EN, 1), (PWR_DOM.STATE 70, 2), (PWR_DOM.STATE 74, 2), (PWR_DOM.STATE 77, 2), (CHURN_CTL.LANE_EN, 65535), (PRESS_CTL.LANE_EN, 65535), (VEN_CTL.LANE_EN, 65535)] ({ State.reset with mem := Memory.writeN (Memory.writeN (Memory.writeN [] 64 (image 64 [(0, 2, 5), (8, 8, 4096)])) 65536 (image 16 [(0, 2, 0x8000), (2, 1, 1)])) 8192 (image 32 [(0, 1, 7)]) })), ⟨0, 0⟩, desc 0 Op.lookup [(24, 4, 32), (28, 2, 0), (8, 8, 8192), (30, 1, 1)] .started, image 32 [(0, 1, 7)], ((holds .sep [desc 0 Op.lookup [(24, 4, 32), (28, 2, 0), (8, 8, 8192), (30, 1, 1)] .started] (regs [(DDR_CFG.CAP_GIB, 16), (PAR_CTL.EN, 1), (PAR_TENANT_TABLE.BASE, 1), (SEP_CTL.EN, 1), (SEP_CTL.INLINE_EN, 1), (SEP_DOMAIN_BASE.BASE, 16), (SEP_INDEX_BASE.BASE, 32), (SEP_INDEX_CFG.LOG2_BUCKETS, 4), (SEP_SHARD.STATE 0, 2), (PAR_SHARD.STATE 0, 0), (CELL_SHARD.STATE 0, 2), (CHURN_CTL.EN, 1), (PRESS_CTL.EN, 1), (VEN_CTL.EN, 1), (PWR_DOM.STATE 70, 2), (PWR_DOM.STATE 74, 2), (PWR_DOM.STATE 77, 2), (CHURN_CTL.LANE_EN, 65535), (PRESS_CTL.LANE_EN, 65535), (VEN_CTL.LANE_EN, 65535)] ({ State.reset with mem := Memory.writeN (Memory.writeN (Memory.writeN [] 64 (image 64 [(0, 2, 5), (8, 8, 4096)])) 65536 (image 16 [(0, 2, 0x8000), (2, 1, 1)])) 8192 (image 32 [(0, 1, 7)]) }))).wr SEP_COUNT_UNIQUE.COUNT 1), by decide +kernel⟩,
   ⟨holds .sep [desc 0 Op.lookup [(24, 4, 32), (28, 2, 0), (8, 8, 8192)] .started] (regs [(DDR_CFG.CAP_GIB, 16), (PAR_CTL.EN, 1), (PAR_TENANT_TABLE.BASE, 1), (SEP_CTL.EN, 1), (SEP_CTL.INLINE_EN, 1), (SEP_DOMAIN_BASE.BASE, 16), (SEP_INDEX_BASE.BASE, 32), (SEP_INDEX_CFG.LOG2_BUCKETS, 4), (SEP_SHARD.STATE 0, 2), (PAR_SHARD.STATE 0, 0), (CELL_SHARD.STATE 0, 2), (CHURN_CTL.EN, 1), (PRESS_CTL.EN, 1), (VEN_CTL.EN, 1), (PWR_DOM.STATE 70, 2), (PWR_DOM.STATE 74, 2), (PWR_DOM.STATE 77, 2), (CHURN_CTL.LANE_EN, 65535), (PRESS_CTL.LANE_EN, 65535), (VEN_CTL.LANE_EN, 65535)] ({ State.reset with mem := Memory.writeN (Memory.writeN (Memory.writeN [] 64 (image 64 [(0, 2, 5), (8, 8, 4096)])) 65536 (image 16 [(0, 2, 0x8000), (2, 1, 1)])) 8192 (image 32 [(0, 1, 7)]), sep := { filter := [(7, [{ fp := image 32 [(0, 1, 7)], domain := 0, state := Est.frozen, shard := 0, refs := 2, locator := 77, holds := 0, slot := some 56 }])], byLoc := [(77, 56)] } })), ⟨0, 0⟩, desc 0 Op.lookup [(24, 4, 32), (28, 2, 0), (8, 8, 8192)] .started, image 32 [(0, 1, 7)], (((holds .sep [desc 0 Op.lookup [(24, 4, 32), (28, 2, 0), (8, 8, 8192)] .started] (regs [(DDR_CFG.CAP_GIB, 16), (PAR_CTL.EN, 1), (PAR_TENANT_TABLE.BASE, 1), (SEP_CTL.EN, 1), (SEP_CTL.INLINE_EN, 1), (SEP_DOMAIN_BASE.BASE, 16), (SEP_INDEX_BASE.BASE, 32), (SEP_INDEX_CFG.LOG2_BUCKETS, 4), (SEP_SHARD.STATE 0, 2), (PAR_SHARD.STATE 0, 0), (CELL_SHARD.STATE 0, 2), (CHURN_CTL.EN, 1), (PRESS_CTL.EN, 1), (VEN_CTL.EN, 1), (PWR_DOM.STATE 70, 2), (PWR_DOM.STATE 74, 2), (PWR_DOM.STATE 77, 2), (CHURN_CTL.LANE_EN, 65535), (PRESS_CTL.LANE_EN, 65535), (VEN_CTL.LANE_EN, 65535)] ({ State.reset with mem := Memory.writeN (Memory.writeN (Memory.writeN [] 64 (image 64 [(0, 2, 5), (8, 8, 4096)])) 65536 (image 16 [(0, 2, 0x8000), (2, 1, 1)])) 8192 (image 32 [(0, 1, 7)]), sep := { filter := [(7, [{ fp := image 32 [(0, 1, 7)], domain := 0, state := Est.frozen, shard := 0, refs := 2, locator := 77, holds := 0, slot := some 56 }])], byLoc := [(77, 56)] } }))).dramLookup 0 (image 32 [(0, 1, 7)]) false none).2), by decide +kernel⟩⟩

theorem witness_SeparatorDescriptors_2 :
  (∃ (s : State) (d : DescRef) (f : Fetched) (fp : List Byte) (h loc sh : Nat) (t u : State), (s.startedAt .sep d Op.lookup = some f) ∧ (f.len = 32) ∧ (s.domainRefused (f.at 28 2) f.tenant = none) ∧ ((s.dmaRead .sep f.src 32 (some d.ring)).toOption = some fp) ∧ (s.bucketsBad fp = false) ∧ ((s.noteBuckets fp).dramLookup (f.at 28 2) fp ((f.at 30 1).testBit 0) none = (SepAns.dup h loc sh, t)) ∧ ((t.dmaWrite .sep (t.rd (RING_DBASE.BASE (unitBase .sep) d.ring) * 4096 + d.slot * 64 + 40) (leBytes 8 loc) (some d.ring)).toOption = some u)) ∧
  (∃ (s : State) (d : DescRef) (f : Fetched) (fp : List Byte) (h : Nat) (e : FEntry) (t : State), (s.startedAt .sep d Op.insert = some f) ∧ (f.len = 32) ∧ (s.domainRefused (f.at 28 2) f.tenant = none) ∧ (s.sepShardRefused (f.at 30 1) = none) ∧ (f.at 32 4 ≠ 0) ∧ ((s.dmaRead .sep f.src 32 (some d.ring)).toOption = some fp) ∧ (s.bucketsBad fp = false) ∧ (s.filterFind (f.at 28 2) fp = none) ∧ (s.dramMatch (f.at 28 2) fp = none) ∧ (s.indexed (f.at 30 1) (f.at 40 8) = false) ∧ (s.freeSlot fp = some h) ∧ (e = { fp := fp, domain := f.at 28 2, state := Est.valid, shard := f.at 30 1, refs := f.at 32 4, locator := f.at 40 8, slot := some h }) ∧ ((s.dmaWrite .sep (s.slotAddr h) e.bytes).toOption = some t)) ∧
  (∃ (s : State) (d : DescRef) (f : Fetched) (h : Nat) (e : FEntry), (s.startedAt .sep d Op.refAdjust = some f) ∧ (s.refAdjusting d = false) ∧ (s.handleBad f = false) ∧ ((s.entryFor f).toOption = some (h, e)) ∧ ((f.at 32 1).testBit 0 = true) ∧ (e.holds ≠ 0)) ∧
  (∃ (s : State) (d : DescRef) (f : Fetched) (h : Nat) (e : FEntry), (s.startedAt .sep d Op.refAdjust = some f) ∧ (s.refAdjusting d = false) ∧ (s.handleBad f = false) ∧ ((s.entryFor f).toOption = some (h, e)) ∧ (f.at 32 1 = 2) ∧ (f.at 28 4 = 0) ∧ (1 ≤ e.refs) ∧ (e.refs < 2 ^ 32) ∧ (s.filterAt h = some e) ∧ (((s.putEntry h { e with state := Est.frozen }).putEntry h { e with state := Est.frozen }).entryAt h = some { e with state := Est.frozen, dirty := true })) :=
  ⟨⟨holds .sep [desc 0 Op.lookup [(24, 4, 32), (28, 2, 0), (8, 8, 8192)] .started] (regs [(DDR_CFG.CAP_GIB, 16), (PAR_CTL.EN, 1), (PAR_TENANT_TABLE.BASE, 1), (SEP_CTL.EN, 1), (SEP_CTL.INLINE_EN, 1), (SEP_DOMAIN_BASE.BASE, 16), (SEP_INDEX_BASE.BASE, 32), (SEP_INDEX_CFG.LOG2_BUCKETS, 4), (SEP_SHARD.STATE 0, 2), (PAR_SHARD.STATE 0, 0), (CELL_SHARD.STATE 0, 2), (CHURN_CTL.EN, 1), (PRESS_CTL.EN, 1), (VEN_CTL.EN, 1), (PWR_DOM.STATE 70, 2), (PWR_DOM.STATE 74, 2), (PWR_DOM.STATE 77, 2), (CHURN_CTL.LANE_EN, 65535), (PRESS_CTL.LANE_EN, 65535), (VEN_CTL.LANE_EN, 65535)] ({ State.reset with mem := Memory.writeN (Memory.writeN (Memory.writeN [] 64 (image 64 [(0, 2, 5), (8, 8, 4096)])) 65536 (image 16 [(0, 2, 0x8000), (2, 1, 1)])) 8192 (image 32 [(0, 1, 7)]), sep := { filter := [(7, [{ fp := image 32 [(0, 1, 7)], domain := 0, state := Est.valid, shard := 0, refs := 2, locator := 77, holds := 0, slot := some 56 }])], byLoc := [(77, 56)] } })), ⟨0, 0⟩, desc 0 Op.lookup [(24, 4, 32), (28, 2, 0), (8, 8, 8192)] .started, image 32 [(0, 1, 7)], 56, 77, 0, (((holds .sep [desc 0 Op.lookup [(24, 4, 32), (28, 2, 0), (8, 8, 8192)] .started] (regs [(DDR_CFG.CAP_GIB, 16), (PAR_CTL.EN, 1), (PAR_TENANT_TABLE.BASE, 1), (SEP_CTL.EN, 1), (SEP_CTL.INLINE_EN, 1), (SEP_DOMAIN_BASE.BASE, 16), (SEP_INDEX_BASE.BASE, 32), (SEP_INDEX_CFG.LOG2_BUCKETS, 4), (SEP_SHARD.STATE 0, 2), (PAR_SHARD.STATE 0, 0), (CELL_SHARD.STATE 0, 2), (CHURN_CTL.EN, 1), (PRESS_CTL.EN, 1), (VEN_CTL.EN, 1), (PWR_DOM.STATE 70, 2), (PWR_DOM.STATE 74, 2), (PWR_DOM.STATE 77, 2), (CHURN_CTL.LANE_EN, 65535), (PRESS_CTL.LANE_EN, 65535), (VEN_CTL.LANE_EN, 65535)] ({ State.reset with mem := Memory.writeN (Memory.writeN (Memory.writeN [] 64 (image 64 [(0, 2, 5), (8, 8, 4096)])) 65536 (image 16 [(0, 2, 0x8000), (2, 1, 1)])) 8192 (image 32 [(0, 1, 7)]), sep := { filter := [(7, [{ fp := image 32 [(0, 1, 7)], domain := 0, state := Est.valid, shard := 0, refs := 2, locator := 77, holds := 0, slot := some 56 }])], byLoc := [(77, 56)] } }))).dramLookup 0 (image 32 [(0, 1, 7)]) false none).2), ((((((holds .sep [desc 0 Op.lookup [(24, 4, 32), (28, 2, 0), (8, 8, 8192)] .started] (regs [(DDR_CFG.CAP_GIB, 16), (PAR_CTL.EN, 1), (PAR_TENANT_TABLE.BASE, 1), (SEP_CTL.EN, 1), (SEP_CTL.INLINE_EN, 1), (SEP_DOMAIN_BASE.BASE, 16), (SEP_INDEX_BASE.BASE, 32), (SEP_INDEX_CFG.LOG2_BUCKETS, 4), (SEP_SHARD.STATE 0, 2), (PAR_SHARD.STATE 0, 0), (CELL_SHARD.STATE 0, 2), (CHURN_CTL.EN, 1), (PRESS_CTL.EN, 1), (VEN_CTL.EN, 1), (PWR_DOM.STATE 70, 2), (PWR_DOM.STATE 74, 2), (PWR_DOM.STATE 77, 2), (CHURN_CTL.LANE_EN, 65535), (PRESS_CTL.LANE_EN, 65535), (VEN_CTL.LANE_EN, 65535)] ({ State.reset with mem := Memory.writeN (Memory.writeN (Memory.writeN [] 64 (image 64 [(0, 2, 5), (8, 8, 4096)])) 65536 (image 16 [(0, 2, 0x8000), (2, 1, 1)])) 8192 (image 32 [(0, 1, 7)]), sep := { filter := [(7, [{ fp := image 32 [(0, 1, 7)], domain := 0, state := Est.valid, shard := 0, refs := 2, locator := 77, holds := 0, slot := some 56 }])], byLoc := [(77, 56)] } }))).dramLookup 0 (image 32 [(0, 1, 7)]) false none).2)).dmaWrite .sep 40 (leBytes 8 77) (some 0)).toOption.getD State.reset), by decide +kernel⟩,
   ⟨holds .sep [desc 0 Op.insert [(24, 4, 32), (28, 2, 0), (30, 1, 0), (32, 4, 2), (40, 8, 77), (8, 8, 8192)] .started] (regs [(DDR_CFG.CAP_GIB, 16), (PAR_CTL.EN, 1), (PAR_TENANT_TABLE.BASE, 1), (SEP_CTL.EN, 1), (SEP_CTL.INLINE_EN, 1), (SEP_DOMAIN_BASE.BASE, 16), (SEP_INDEX_BASE.BASE, 32), (SEP_INDEX_CFG.LOG2_BUCKETS, 4), (SEP_SHARD.STATE 0, 2), (PAR_SHARD.STATE 0, 0), (CELL_SHARD.STATE 0, 2), (CHURN_CTL.EN, 1), (PRESS_CTL.EN, 1), (VEN_CTL.EN, 1), (PWR_DOM.STATE 70, 2), (PWR_DOM.STATE 74, 2), (PWR_DOM.STATE 77, 2), (CHURN_CTL.LANE_EN, 65535), (PRESS_CTL.LANE_EN, 65535), (VEN_CTL.LANE_EN, 65535)] ({ State.reset with mem := Memory.writeN (Memory.writeN (Memory.writeN [] 64 (image 64 [(0, 2, 5), (8, 8, 4096)])) 65536 (image 16 [(0, 2, 0x8000), (2, 1, 1)])) 8192 (image 32 [(0, 1, 7)]) })), ⟨0, 0⟩, desc 0 Op.insert [(24, 4, 32), (28, 2, 0), (30, 1, 0), (32, 4, 2), (40, 8, 77), (8, 8, 8192)] .started, image 32 [(0, 1, 7)], 7 * 8, ({ fp := image 32 [(0, 1, 7)], domain := 0, state := Est.valid, shard := 0, refs := 2, locator := 77, slot := some (7 * 8) } : FEntry), (((holds .sep [desc 0 Op.insert [(24, 4, 32), (28, 2, 0), (30, 1, 0), (32, 4, 2), (40, 8, 77), (8, 8, 8192)] .started] (regs [(DDR_CFG.CAP_GIB, 16), (PAR_CTL.EN, 1), (PAR_TENANT_TABLE.BASE, 1), (SEP_CTL.EN, 1), (SEP_CTL.INLINE_EN, 1), (SEP_DOMAIN_BASE.BASE, 16), (SEP_INDEX_BASE.BASE, 32), (SEP_INDEX_CFG.LOG2_BUCKETS, 4), (SEP_SHARD.STATE 0, 2), (PAR_SHARD.STATE 0, 0), (CELL_SHARD.STATE 0, 2), (CHURN_CTL.EN, 1), (PRESS_CTL.EN, 1), (VEN_CTL.EN, 1), (PWR_DOM.STATE 70, 2), (PWR_DOM.STATE 74, 2), (PWR_DOM.STATE 77, 2), (CHURN_CTL.LANE_EN, 65535), (PRESS_CTL.LANE_EN, 65535), (VEN_CTL.LANE_EN, 65535)] ({ State.reset with mem := Memory.writeN (Memory.writeN (Memory.writeN [] 64 (image 64 [(0, 2, 5), (8, 8, 4096)])) 65536 (image 16 [(0, 2, 0x8000), (2, 1, 1)])) 8192 (image 32 [(0, 1, 7)]) }))).dmaWrite .sep (32 * 4096 + 56 * 32) (({ fp := image 32 [(0, 1, 7)], domain := 0, state := Est.valid, shard := 0, refs := 2, locator := 77, slot := some (7 * 8) } : FEntry)).bytes).toOption.getD State.reset), by decide +kernel⟩,
   ⟨holds .sep [desc 0 Op.refAdjust [(8, 8, 0x8000000000000038), (40, 8, 77), (32, 1, 1)] .started] (regs [(DDR_CFG.CAP_GIB, 16), (PAR_CTL.EN, 1), (PAR_TENANT_TABLE.BASE, 1), (SEP_CTL.EN, 1), (SEP_CTL.INLINE_EN, 1), (SEP_DOMAIN_BASE.BASE, 16), (SEP_INDEX_BASE.BASE, 32), (SEP_INDEX_CFG.LOG2_BUCKETS, 4), (SEP_SHARD.STATE 0, 2), (PAR_SHARD.STATE 0, 0), (CELL_SHARD.STATE 0, 2), (CHURN_CTL.EN, 1), (PRESS_CTL.EN, 1), (VEN_CTL.EN, 1), (PWR_DOM.STATE 70, 2), (PWR_DOM.STATE 74, 2), (PWR_DOM.STATE 77, 2), (CHURN_CTL.LANE_EN, 65535), (PRESS_CTL.LANE_EN, 65535), (VEN_CTL.LANE_EN, 65535)] ({ State.reset with mem := Memory.writeN (Memory.writeN (Memory.writeN [] 64 (image 64 [(0, 2, 5), (8, 8, 4096)])) 65536 (image 16 [(0, 2, 0x8000), (2, 1, 1)])) 8192 (image 32 [(0, 1, 7)]), sep := { filter := [(7, [{ fp := image 32 [(0, 1, 7)], domain := 0, state := Est.valid, shard := 0, refs := 2, locator := 77, holds := 1, slot := some 56 }])], byLoc := [(77, 56)] } })), ⟨0, 0⟩, desc 0 Op.refAdjust [(8, 8, 0x8000000000000038), (40, 8, 77), (32, 1, 1)] .started, 56, { fp := image 32 [(0, 1, 7)], domain := 0, state := Est.valid, shard := 0, refs := 2, locator := 77, holds := 1, slot := some 56 }, by decide +kernel⟩,
   ⟨holds .sep [desc 0 Op.refAdjust [(8, 8, 0x8000000000000038), (40, 8, 77), (32, 1, 2)] .started] (regs [(DDR_CFG.CAP_GIB, 16), (PAR_CTL.EN, 1), (PAR_TENANT_TABLE.BASE, 1), (SEP_CTL.EN, 1), (SEP_CTL.INLINE_EN, 1), (SEP_DOMAIN_BASE.BASE, 16), (SEP_INDEX_BASE.BASE, 32), (SEP_INDEX_CFG.LOG2_BUCKETS, 4), (SEP_SHARD.STATE 0, 2), (PAR_SHARD.STATE 0, 0), (CELL_SHARD.STATE 0, 2), (CHURN_CTL.EN, 1), (PRESS_CTL.EN, 1), (VEN_CTL.EN, 1), (PWR_DOM.STATE 70, 2), (PWR_DOM.STATE 74, 2), (PWR_DOM.STATE 77, 2), (CHURN_CTL.LANE_EN, 65535), (PRESS_CTL.LANE_EN, 65535), (VEN_CTL.LANE_EN, 65535)] ({ State.reset with mem := Memory.writeN (Memory.writeN (Memory.writeN [] 64 (image 64 [(0, 2, 5), (8, 8, 4096)])) 65536 (image 16 [(0, 2, 0x8000), (2, 1, 1)])) 8192 (image 32 [(0, 1, 7)]), sep := { filter := [(7, [{ fp := image 32 [(0, 1, 7)], domain := 0, state := Est.valid, shard := 0, refs := 2, locator := 77, holds := 0, slot := some 56 }])], byLoc := [(77, 56)] } })), ⟨0, 0⟩, desc 0 Op.refAdjust [(8, 8, 0x8000000000000038), (40, 8, 77), (32, 1, 2)] .started, 56, { fp := image 32 [(0, 1, 7)], domain := 0, state := Est.valid, shard := 0, refs := 2, locator := 77, holds := 0, slot := some 56 }, by decide +kernel⟩⟩

theorem witness_SeparatorDescriptors_3 :
  (∃ (s : State) (d : DescRef) (f : Fetched) (h : Nat) (e x : FEntry), (s.startedAt .sep d Op.refAdjust = some f) ∧ (s.refAdjusting d = false) ∧ (s.handleBad f = false) ∧ ((s.entryFor f).toOption = some (h, e)) ∧ ((f.at 32 1).testBit 0 = false) ∧ (x = { e with state := if (f.at 32 1).testBit 2 then Est.valid else if (f.at 32 1).testBit 1 then Est.frozen else e.state })) ∧
  (∃ (s : State) (d : DescRef) (f : Fetched) (h : Nat) (e : FEntry) (t : State), (s.startedAt .sep d Op.relocate = some f) ∧ (s.handleBad f = false) ∧ ((s.entryFor f).toOption = some (h, e)) ∧ (e.state = Est.valid) ∧ (e.holds = 0) ∧ (t = s.putEntry h { e with locator := f.at 48 8 })) ∧
  (∃ (s : State) (d : DescRef) (f : Fetched) (bs : List Byte) (t : State), (s.startedAt .sep d Op.mergeScan = some f) ∧ (f.len % 48 = 0) ∧ ((s.dmaRead .sep f.src f.len (some d.ring)).toOption = some bs) ∧ (((List.range (f.len / 48)).any fun i => s.bucketsBad (slice bs (48 * i) 32)) = false) ∧ ((s.dmaWrite .sep f.dst (s.mergePairs (f.at 28 4) 0 (f.len / 48) bs).2 (some d.ring)).toOption = some t)) ∧
  (∃ (s : State) (d : DescRef) (f : Fetched), (s.startedAt .sep d Op.shardState = some f) ∧ (f.at 29 1 = Sst.loaded) ∧ ((s.sep.dropping.any fun x => x.1 == f.at 28 1) = false) ∧ (s.sepSt (f.at 28 1) ≠ Sst.loaded)) :=
  ⟨⟨holds .sep [desc 0 Op.refAdjust [(8, 8, 0x8000000000000038), (40, 8, 77), (28, 4, 3)] .started] (regs [(DDR_CFG.CAP_GIB, 16), (PAR_CTL.EN, 1), (PAR_TENANT_TABLE.BASE, 1), (SEP_CTL.EN, 1), (SEP_CTL.INLINE_EN, 1), (SEP_DOMAIN_BASE.BASE, 16), (SEP_INDEX_BASE.BASE, 32), (SEP_INDEX_CFG.LOG2_BUCKETS, 4), (SEP_SHARD.STATE 0, 2), (PAR_SHARD.STATE 0, 0), (CELL_SHARD.STATE 0, 2), (CHURN_CTL.EN, 1), (PRESS_CTL.EN, 1), (VEN_CTL.EN, 1), (PWR_DOM.STATE 70, 2), (PWR_DOM.STATE 74, 2), (PWR_DOM.STATE 77, 2), (CHURN_CTL.LANE_EN, 65535), (PRESS_CTL.LANE_EN, 65535), (VEN_CTL.LANE_EN, 65535)] ({ State.reset with mem := Memory.writeN (Memory.writeN (Memory.writeN [] 64 (image 64 [(0, 2, 5), (8, 8, 4096)])) 65536 (image 16 [(0, 2, 0x8000), (2, 1, 1)])) 8192 (image 32 [(0, 1, 7)]), sep := { filter := [(7, [{ fp := image 32 [(0, 1, 7)], domain := 0, state := Est.valid, shard := 0, refs := 2, locator := 77, holds := 0, slot := some 56 }])], byLoc := [(77, 56)] } })), ⟨0, 0⟩, desc 0 Op.refAdjust [(8, 8, 0x8000000000000038), (40, 8, 77), (28, 4, 3)] .started, 56, { fp := image 32 [(0, 1, 7)], domain := 0, state := Est.valid, shard := 0, refs := 2, locator := 77, holds := 0, slot := some 56 }, { fp := image 32 [(0, 1, 7)], domain := 0, state := Est.valid, shard := 0, refs := 2, locator := 77, holds := 0, slot := some 56 }, by decide +kernel⟩,
   ⟨holds .sep [desc 0 Op.relocate [(8, 8, 0x8000000000000038), (40, 8, 77), (48, 8, 99)] .started] (regs [(DDR_CFG.CAP_GIB, 16), (PAR_CTL.EN, 1), (PAR_TENANT_TABLE.BASE, 1), (SEP_CTL.EN, 1), (SEP_CTL.INLINE_EN, 1), (SEP_DOMAIN_BASE.BASE, 16), (SEP_INDEX_BASE.BASE, 32), (SEP_INDEX_CFG.LOG2_BUCKETS, 4), (SEP_SHARD.STATE 0, 2), (PAR_SHARD.STATE 0, 0), (CELL_SHARD.STATE 0, 2), (CHURN_CTL.EN, 1), (PRESS_CTL.EN, 1), (VEN_CTL.EN, 1), (PWR_DOM.STATE 70, 2), (PWR_DOM.STATE 74, 2), (PWR_DOM.STATE 77, 2), (CHURN_CTL.LANE_EN, 65535), (PRESS_CTL.LANE_EN, 65535), (VEN_CTL.LANE_EN, 65535)] ({ State.reset with mem := Memory.writeN (Memory.writeN (Memory.writeN [] 64 (image 64 [(0, 2, 5), (8, 8, 4096)])) 65536 (image 16 [(0, 2, 0x8000), (2, 1, 1)])) 8192 (image 32 [(0, 1, 7)]), sep := { filter := [(7, [{ fp := image 32 [(0, 1, 7)], domain := 0, state := Est.valid, shard := 0, refs := 2, locator := 77, holds := 0, slot := some 56 }])], byLoc := [(77, 56)] } })), ⟨0, 0⟩, desc 0 Op.relocate [(8, 8, 0x8000000000000038), (40, 8, 77), (48, 8, 99)] .started, 56, { fp := image 32 [(0, 1, 7)], domain := 0, state := Est.valid, shard := 0, refs := 2, locator := 77, holds := 0, slot := some 56 }, (holds .sep [desc 0 Op.relocate [(8, 8, 0x8000000000000038), (40, 8, 77), (48, 8, 99)] .started] (regs [(DDR_CFG.CAP_GIB, 16), (PAR_CTL.EN, 1), (PAR_TENANT_TABLE.BASE, 1), (SEP_CTL.EN, 1), (SEP_CTL.INLINE_EN, 1), (SEP_DOMAIN_BASE.BASE, 16), (SEP_INDEX_BASE.BASE, 32), (SEP_INDEX_CFG.LOG2_BUCKETS, 4), (SEP_SHARD.STATE 0, 2), (PAR_SHARD.STATE 0, 0), (CELL_SHARD.STATE 0, 2), (CHURN_CTL.EN, 1), (PRESS_CTL.EN, 1), (VEN_CTL.EN, 1), (PWR_DOM.STATE 70, 2), (PWR_DOM.STATE 74, 2), (PWR_DOM.STATE 77, 2), (CHURN_CTL.LANE_EN, 65535), (PRESS_CTL.LANE_EN, 65535), (VEN_CTL.LANE_EN, 65535)] ({ State.reset with mem := Memory.writeN (Memory.writeN (Memory.writeN [] 64 (image 64 [(0, 2, 5), (8, 8, 4096)])) 65536 (image 16 [(0, 2, 0x8000), (2, 1, 1)])) 8192 (image 32 [(0, 1, 7)]), sep := { filter := [(7, [{ fp := image 32 [(0, 1, 7)], domain := 0, state := Est.valid, shard := 0, refs := 2, locator := 77, holds := 0, slot := some 56 }])], byLoc := [(77, 56)] } }))).putEntry 56 { ({ fp := image 32 [(0, 1, 7)], domain := 0, state := Est.valid, shard := 0, refs := 2, locator := 77, holds := 0, slot := some 56 } : FEntry) with locator := 99 }, ⟨by decide +kernel, by decide +kernel, by decide +kernel, by decide +kernel, by decide +kernel, by first | with_reducible rfl | decide +kernel⟩⟩,
   ⟨holds .sep [desc 0 Op.mergeScan [(24, 4, 48), (8, 8, 8192), (16, 8, 16384), (28, 4, 16)] .started] (regs [(DDR_CFG.CAP_GIB, 16), (PAR_CTL.EN, 1), (PAR_TENANT_TABLE.BASE, 1), (SEP_CTL.EN, 1), (SEP_CTL.INLINE_EN, 1), (SEP_DOMAIN_BASE.BASE, 16), (SEP_INDEX_BASE.BASE, 32), (SEP_INDEX_CFG.LOG2_BUCKETS, 4), (SEP_SHARD.STATE 0, 2), (PAR_SHARD.STATE 0, 0), (CELL_SHARD.STATE 0, 2), (CHURN_CTL.EN, 1), (PRESS_CTL.EN, 1), (VEN_CTL.EN, 1), (PWR_DOM.STATE 70, 2), (PWR_DOM.STATE 74, 2), (PWR_DOM.STATE 77, 2), (CHURN_CTL.LANE_EN, 65535), (PRESS_CTL.LANE_EN, 65535), (VEN_CTL.LANE_EN, 65535)] ({ State.reset with mem := Memory.writeN (Memory.writeN (Memory.writeN [] 64 (image 64 [(0, 2, 5), (8, 8, 4096)])) 65536 (image 16 [(0, 2, 0x8000), (2, 1, 1)])) 8192 (image 32 [(0, 1, 7)]) })), ⟨0, 0⟩, desc 0 Op.mergeScan [(24, 4, 48), (8, 8, 8192), (16, 8, 16384), (28, 4, 16)] .started, image 48 [(0, 1, 7)], holds .sep [desc 0 Op.mergeScan [(24, 4, 48), (8, 8, 8192), (16, 8, 16384), (28, 4, 16)] .started] (regs [(DDR_CFG.CAP_GIB, 16), (PAR_CTL.EN, 1), (PAR_TENANT_TABLE.BASE, 1), (SEP_CTL.EN, 1), (SEP_CTL.INLINE_EN, 1), (SEP_DOMAIN_BASE.BASE, 16), (SEP_INDEX_BASE.BASE, 32), (SEP_INDEX_CFG.LOG2_BUCKETS, 4), (SEP_SHARD.STATE 0, 2), (PAR_SHARD.STATE 0, 0), (CELL_SHARD.STATE 0, 2), (CHURN_CTL.EN, 1), (PRESS_CTL.EN, 1), (VEN_CTL.EN, 1), (PWR_DOM.STATE 70, 2), (PWR_DOM.STATE 74, 2), (PWR_DOM.STATE 77, 2), (CHURN_CTL.LANE_EN, 65535), (PRESS_CTL.LANE_EN, 65535), (VEN_CTL.LANE_EN, 65535)] ({ State.reset with mem := Memory.writeN (Memory.writeN (Memory.writeN [] 64 (image 64 [(0, 2, 5), (8, 8, 4096)])) 65536 (image 16 [(0, 2, 0x8000), (2, 1, 1)])) 8192 (image 32 [(0, 1, 7)]) })), by decide +kernel⟩,
   ⟨holds .sep [desc 0 Op.shardState [(28, 1, 3), (29, 1, 2)] .started] (regs [(DDR_CFG.CAP_GIB, 16), (PAR_CTL.EN, 1), (PAR_TENANT_TABLE.BASE, 1), (SEP_CTL.EN, 1), (SEP_CTL.INLINE_EN, 1), (SEP_DOMAIN_BASE.BASE, 16), (SEP_INDEX_BASE.BASE, 32), (SEP_INDEX_CFG.LOG2_BUCKETS, 4), (SEP_SHARD.STATE 0, 2), (PAR_SHARD.STATE 0, 0), (CELL_SHARD.STATE 0, 2), (CHURN_CTL.EN, 1), (PRESS_CTL.EN, 1), (VEN_CTL.EN, 1), (PWR_DOM.STATE 70, 2), (PWR_DOM.STATE 74, 2), (PWR_DOM.STATE 77, 2), (CHURN_CTL.LANE_EN, 65535), (PRESS_CTL.LANE_EN, 65535), (VEN_CTL.LANE_EN, 65535)] ({ State.reset with mem := Memory.writeN (Memory.writeN (Memory.writeN [] 64 (image 64 [(0, 2, 5), (8, 8, 4096)])) 65536 (image 16 [(0, 2, 0x8000), (2, 1, 1)])) 8192 (image 32 [(0, 1, 7)]) })), ⟨0, 0⟩, desc 0 Op.shardState [(28, 1, 3), (29, 1, 2)] .started, by decide +kernel⟩⟩

theorem witness_SeparatorDescriptors_4 :
  (∃ (s : State) (d : DescRef) (f : Fetched), (s.startedAt .sep d Op.shardState = some f) ∧ (f.at 29 1 ≤ 3) ∧ ((s.sep.dropping.any fun x => x.1 == f.at 28 1) = false) ∧ (f.at 29 1 ≠ Sst.dropping) ∧ (f.at 29 1 = Sst.absent → s.rd (SEP_SHARD.ENTRIES (f.at 28 1)) = 0 ∧ s.partHeld (f.at 28 1) = false)) ∧
  (∃ (s : State) (d : DescRef) (f : Fetched), (s.startedAt .sep d Op.shardState = some f) ∧ (f.at 29 1 = Sst.dropping) ∧ ((s.sep.dropping.any fun x => x.1 == f.at 28 1) = false) ∧ (s.partHeld (f.at 28 1) = false)) ∧
  (∃ (s : State) (shard : Nat) (d : Option DescRef) (t u : State), (s.sep.dropping.find? (fun x => x.1 == shard) = some (shard, d)) ∧ (t = s.handles.foldl (fun (x : State) h => x.dropEntry shard h) s) ∧ (u = t.setSep { t.sep with dropping := t.sep.dropping.filter (fun x => x.1 != shard), byLoc := Tab.keep t.sep.byLoc fun k _ => k / 2 ^ 64 != shard })) :=
  ⟨⟨holds .sep [desc 0 Op.shardState [(28, 1, 3), (29, 1, 1)] .started] (regs [(DDR_CFG.CAP_GIB, 16), (PAR_CTL.EN, 1), (PAR_TENANT_TABLE.BASE, 1), (SEP_CTL.EN, 1), (SEP_CTL.INLINE_EN, 1), (SEP_DOMAIN_BASE.BASE, 16), (SEP_INDEX_BASE.BASE, 32), (SEP_INDEX_CFG.LOG2_BUCKETS, 4), (SEP_SHARD.STATE 0, 2), (PAR_SHARD.STATE 0, 0), (CELL_SHARD.STATE 0, 2), (CHURN_CTL.EN, 1), (PRESS_CTL.EN, 1), (VEN_CTL.EN, 1), (PWR_DOM.STATE 70, 2), (PWR_DOM.STATE 74, 2), (PWR_DOM.STATE 77, 2), (CHURN_CTL.LANE_EN, 65535), (PRESS_CTL.LANE_EN, 65535), (VEN_CTL.LANE_EN, 65535)] ({ State.reset with mem := Memory.writeN (Memory.writeN (Memory.writeN [] 64 (image 64 [(0, 2, 5), (8, 8, 4096)])) 65536 (image 16 [(0, 2, 0x8000), (2, 1, 1)])) 8192 (image 32 [(0, 1, 7)]) })), ⟨0, 0⟩, desc 0 Op.shardState [(28, 1, 3), (29, 1, 1)] .started, by decide +kernel⟩,
   ⟨holds .sep [desc 0 Op.shardState [(28, 1, 3), (29, 1, 3)] .started] (regs [(DDR_CFG.CAP_GIB, 16), (PAR_CTL.EN, 1), (PAR_TENANT_TABLE.BASE, 1), (SEP_CTL.EN, 1), (SEP_CTL.INLINE_EN, 1), (SEP_DOMAIN_BASE.BASE, 16), (SEP_INDEX_BASE.BASE, 32), (SEP_INDEX_CFG.LOG2_BUCKETS, 4), (SEP_SHARD.STATE 0, 2), (PAR_SHARD.STATE 0, 0), (CELL_SHARD.STATE 0, 2), (CHURN_CTL.EN, 1), (PRESS_CTL.EN, 1), (VEN_CTL.EN, 1), (PWR_DOM.STATE 70, 2), (PWR_DOM.STATE 74, 2), (PWR_DOM.STATE 77, 2), (CHURN_CTL.LANE_EN, 65535), (PRESS_CTL.LANE_EN, 65535), (VEN_CTL.LANE_EN, 65535)] ({ State.reset with mem := Memory.writeN (Memory.writeN (Memory.writeN [] 64 (image 64 [(0, 2, 5), (8, 8, 4096)])) 65536 (image 16 [(0, 2, 0x8000), (2, 1, 1)])) 8192 (image 32 [(0, 1, 7)]) })), ⟨0, 0⟩, desc 0 Op.shardState [(28, 1, 3), (29, 1, 3)] .started, by decide +kernel⟩,
   ⟨State.reset.setSep { dropping := [(3, some ⟨0, 0⟩)] }, 3, some ⟨0, 0⟩, State.reset.setSep { dropping := [(3, some ⟨0, 0⟩)] }, State.reset.setSep {}, ⟨by decide +kernel, by first | with_reducible rfl | decide +kernel, by first | with_reducible rfl | decide +kernel⟩⟩⟩

theorem witness_InlinePathOfABlock :
  (∃ (s : State) (k i : Nat) (c : NvmeCmd) (b : Blk) (key : List Byte), (s.blk k i = some (c, b)) ∧ (b.step = .print) ∧ (takesLane s.pressTurn (.block k i) = true) ∧ ((s.slot Cls.domain (volDomain (s.cmdVol c))).key = some key)) ∧
  (∃ (s : State) (k i : Nat) (c : NvmeCmd) (b : Blk), (s.blk k i = some (c, b)) ∧ (b.step = .print) ∧ (takesLane s.pressTurn (.block k i) = true) ∧ ((s.slot Cls.domain (volDomain (s.cmdVol c))).key = none)) ∧
  (∃ (s : State) (k i : Nat) (c : NvmeCmd) (b : Blk) (fp : List Byte), (s.blk k i = some (c, b)) ∧ (b.step = .look fp) ∧ (s.recordWaits k c b.block = false) ∧ (s.on SEP_CTL.EN = true) ∧ (s.on SEP_CTL.INLINE_EN = true) ∧ (domInline (s.domEntry (s.cmdDomain c)) = true) ∧ (domValid (s.domEntry (s.cmdDomain c)) = true) ∧ (domTenant (s.domEntry (s.cmdDomain c)) = c.tenant) ∧ (s.filterFind (s.cmdDomain c) fp = none) ∧ (s.rd SEP_STATUS.IN_FLIGHT < 4096)) ∧
  (∃ (s : State) (k i : Nat) (c : NvmeCmd) (b : Blk) (fp : List Byte) (a : SepAns) (t : State), (s.blk k i = some (c, b)) ∧ (b.step = .look fp) ∧ (s.recordWaits k c b.block = false) ∧ (s.on SEP_CTL.EN = true) ∧ (s.on SEP_CTL.INLINE_EN = true) ∧ (domInline (s.domEntry (s.cmdDomain c)) = true) ∧ (domValid (s.domEntry (s.cmdDomain c)) = true) ∧ (domTenant (s.domEntry (s.cmdDomain c)) = c.tenant) ∧ (s.filterLookup (s.cmdDomain c) fp true = some (a, t))) :=
  ⟨⟨(regs [(DDR_CFG.CAP_GIB, 16), (PAR_CTL.EN, 1), (PAR_TENANT_TABLE.BASE, 1), (SEP_CTL.EN, 1), (SEP_CTL.INLINE_EN, 1), (SEP_DOMAIN_BASE.BASE, 16), (SEP_INDEX_BASE.BASE, 32), (SEP_INDEX_CFG.LOG2_BUCKETS, 4), (SEP_SHARD.STATE 0, 2), (PAR_SHARD.STATE 0, 0), (CELL_SHARD.STATE 0, 2), (CHURN_CTL.EN, 1), (PRESS_CTL.EN, 1), (VEN_CTL.EN, 1), (PWR_DOM.STATE 70, 2), (PWR_DOM.STATE 74, 2), (PWR_DOM.STATE 77, 2), (CHURN_CTL.LANE_EN, 65535), (PRESS_CTL.LANE_EN, 65535), (VEN_CTL.LANE_EN, 65535)] ({ State.reset with mem := Memory.writeN (Memory.writeN (Memory.writeN [] 64 (image 64 [(0, 2, 5), (8, 8, 4096)])) 65536 (image 16 [(0, 2, 0x8000), (2, 1, 1)])) 8192 (image 32 [(0, 1, 7)]), sec := { slots := [(slotKey Cls.domain 0, { key := some (zeros 32) })] } })) |>.setPar { cmds := [(0, ({ sqe := image 64 [(0, 1, Nop.write)], ctx := none, cntlid := 1, qid := 1, cls := 0, tenant := 0, vol := 1, stage := .running, since := 0, origin := some 5, begun := true, blks := [{ block := 0, step := .print }] } : NvmeCmd))] }, 0, 0, ({ sqe := image 64 [(0, 1, Nop.write)], ctx := none, cntlid := 1, qid := 1, cls := 0, tenant := 0, vol := 1, stage := .running, since := 0, origin := some 5, begun := true, blks := [{ block := 0, step := .print }] } : NvmeCmd), { block := 0, step := .print }, zeros 32, by decide +kernel⟩,
   ⟨(regs [(DDR_CFG.CAP_GIB, 16), (PAR_CTL.EN, 1), (PAR_TENANT_TABLE.BASE, 1), (SEP_CTL.EN, 1), (SEP_CTL.INLINE_EN, 1), (SEP_DOMAIN_BASE.BASE, 16), (SEP_INDEX_BASE.BASE, 32), (SEP_INDEX_CFG.LOG2_BUCKETS, 4), (SEP_SHARD.STATE 0, 2), (PAR_SHARD.STATE 0, 0), (CELL_SHARD.STATE 0, 2), (CHURN_CTL.EN, 1), (PRESS_CTL.EN, 1), (VEN_CTL.EN, 1), (PWR_DOM.STATE 70, 2), (PWR_DOM.STATE 74, 2), (PWR_DOM.STATE 77, 2), (CHURN_CTL.LANE_EN, 65535), (PRESS_CTL.LANE_EN, 65535), (VEN_CTL.LANE_EN, 65535)] ({ State.reset with mem := Memory.writeN (Memory.writeN (Memory.writeN [] 64 (image 64 [(0, 2, 5), (8, 8, 4096)])) 65536 (image 16 [(0, 2, 0x8000), (2, 1, 1)])) 8192 (image 32 [(0, 1, 7)]) })) |>.setPar { cmds := [(0, ({ sqe := image 64 [(0, 1, Nop.write)], ctx := none, cntlid := 1, qid := 1, cls := 0, tenant := 0, vol := 1, stage := .running, since := 0, origin := some 5, begun := true, blks := [{ block := 0, step := .print }] } : NvmeCmd))] }, 0, 0, ({ sqe := image 64 [(0, 1, Nop.write)], ctx := none, cntlid := 1, qid := 1, cls := 0, tenant := 0, vol := 1, stage := .running, since := 0, origin := some 5, begun := true, blks := [{ block := 0, step := .print }] } : NvmeCmd), { block := 0, step := .print }, by decide +kernel⟩,
   ⟨(regs [(DDR_CFG.CAP_GIB, 16), (PAR_CTL.EN, 1), (PAR_TENANT_TABLE.BASE, 1), (SEP_CTL.EN, 1), (SEP_CTL.INLINE_EN, 1), (SEP_DOMAIN_BASE.BASE, 16), (SEP_INDEX_BASE.BASE, 32), (SEP_INDEX_CFG.LOG2_BUCKETS, 4), (SEP_SHARD.STATE 0, 2), (PAR_SHARD.STATE 0, 0), (CELL_SHARD.STATE 0, 2), (CHURN_CTL.EN, 1), (PRESS_CTL.EN, 1), (VEN_CTL.EN, 1), (PWR_DOM.STATE 70, 2), (PWR_DOM.STATE 74, 2), (PWR_DOM.STATE 77, 2), (CHURN_CTL.LANE_EN, 65535), (PRESS_CTL.LANE_EN, 65535), (VEN_CTL.LANE_EN, 65535)] ({ State.reset with mem := Memory.writeN (Memory.writeN (Memory.writeN [] 64 (image 64 [(0, 2, 5), (8, 8, 4096)])) 65536 (image 16 [(0, 2, 0x8000), (2, 1, 1)])) 8192 (image 32 [(0, 1, 7)]) })) |>.setPar { cmds := [(0, ({ sqe := image 64 [(0, 1, Nop.write)], ctx := none, cntlid := 1, qid := 1, cls := 0, tenant := 0, vol := 1, stage := .running, since := 0, origin := some 5, begun := true, blks := [{ block := 0, step := .look (image 32 [(0, 1, 7)]) }] } : NvmeCmd))] }, 0, 0, ({ sqe := image 64 [(0, 1, Nop.write)], ctx := none, cntlid := 1, qid := 1, cls := 0, tenant := 0, vol := 1, stage := .running, since := 0, origin := some 5, begun := true, blks := [{ block := 0, step := .look (image 32 [(0, 1, 7)]) }] } : NvmeCmd), { block := 0, step := .look (image 32 [(0, 1, 7)]) }, image 32 [(0, 1, 7)], by decide +kernel⟩,
   ⟨(regs [(DDR_CFG.CAP_GIB, 16), (PAR_CTL.EN, 1), (PAR_TENANT_TABLE.BASE, 1), (SEP_CTL.EN, 1), (SEP_CTL.INLINE_EN, 1), (SEP_DOMAIN_BASE.BASE, 16), (SEP_INDEX_BASE.BASE, 32), (SEP_INDEX_CFG.LOG2_BUCKETS, 4), (SEP_SHARD.STATE 0, 2), (PAR_SHARD.STATE 0, 0), (CELL_SHARD.STATE 0, 2), (CHURN_CTL.EN, 1), (PRESS_CTL.EN, 1), (VEN_CTL.EN, 1), (PWR_DOM.STATE 70, 2), (PWR_DOM.STATE 74, 2), (PWR_DOM.STATE 77, 2), (CHURN_CTL.LANE_EN, 65535), (PRESS_CTL.LANE_EN, 65535), (VEN_CTL.LANE_EN, 65535)] ({ State.reset with mem := Memory.writeN (Memory.writeN (Memory.writeN [] 64 (image 64 [(0, 2, 5), (8, 8, 4096)])) 65536 (image 16 [(0, 2, 0x8000), (2, 1, 1)])) 8192 (image 32 [(0, 1, 7)]), sep := { filter := [(7, [{ fp := image 32 [(0, 1, 7)], domain := 0, state := Est.valid, shard := 0, refs := 2, locator := 77, holds := 0, slot := some 56 }])], byLoc := [(77, 56)] } })) |>.setPar { cmds := [(0, ({ sqe := image 64 [(0, 1, Nop.write)], ctx := none, cntlid := 1, qid := 1, cls := 0, tenant := 0, vol := 1, stage := .running, since := 0, origin := some 5, begun := true, blks := [{ block := 0, step := .look (image 32 [(0, 1, 7)]) }] } : NvmeCmd))] }, 0, 0, ({ sqe := image 64 [(0, 1, Nop.write)], ctx := none, cntlid := 1, qid := 1, cls := 0, tenant := 0, vol := 1, stage := .running, since := 0, origin := some 5, begun := true, blks := [{ block := 0, step := .look (image 32 [(0, 1, 7)]) }] } : NvmeCmd), { block := 0, step := .look (image 32 [(0, 1, 7)]) }, image 32 [(0, 1, 7)], .dup 56 77 0, (match ((regs [(DDR_CFG.CAP_GIB, 16), (PAR_CTL.EN, 1), (PAR_TENANT_TABLE.BASE, 1), (SEP_CTL.EN, 1), (SEP_CTL.INLINE_EN, 1), (SEP_DOMAIN_BASE.BASE, 16), (SEP_INDEX_BASE.BASE, 32), (SEP_INDEX_CFG.LOG2_BUCKETS, 4), (SEP_SHARD.STATE 0, 2), (PAR_SHARD.STATE 0, 0), (CELL_SHARD.STATE 0, 2), (CHURN_CTL.EN, 1), (PRESS_CTL.EN, 1), (VEN_CTL.EN, 1), (PWR_DOM.STATE 70, 2), (PWR_DOM.STATE 74, 2), (PWR_DOM.STATE 77, 2), (CHURN_CTL.LANE_EN, 65535), (PRESS_CTL.LANE_EN, 65535), (VEN_CTL.LANE_EN, 65535)] ({ State.reset with mem := Memory.writeN (Memory.writeN (Memory.writeN [] 64 (image 64 [(0, 2, 5), (8, 8, 4096)])) 65536 (image 16 [(0, 2, 0x8000), (2, 1, 1)])) 8192 (image 32 [(0, 1, 7)]), sep := { filter := [(7, [{ fp := image 32 [(0, 1, 7)], domain := 0, state := Est.valid, shard := 0, refs := 2, locator := 77, holds := 0, slot := some 56 }])], byLoc := [(77, 56)] } })) |>.setPar { cmds := [(0, ({ sqe := image 64 [(0, 1, Nop.write)], ctx := none, cntlid := 1, qid := 1, cls := 0, tenant := 0, vol := 1, stage := .running, since := 0, origin := some 5, begun := true, blks := [{ block := 0, step := .look (image 32 [(0, 1, 7)]) }] } : NvmeCmd))] }).filterLookup 0 (image 32 [(0, 1, 7)]) true with | some x => x.2 | none => State.reset), by decide +kernel⟩⟩

theorem witness_InlinePathOfABlock_2 :
  (∃ (s : State) (k i : Nat) (c : NvmeCmd) (b : Blk) (fp : List Byte), (s.blk k i = some (c, b)) ∧ (b.step = .look fp) ∧ (s.recordWaits k c b.block = false) ∧ (s.on SEP_CTL.EN = true) ∧ (s.on SEP_CTL.INLINE_EN = true) ∧ (domInline (s.domEntry (s.cmdDomain c)) = true) ∧ (domValid (s.domEntry (s.cmdDomain c)) = false ∨ domTenant (s.domEntry (s.cmdDomain c)) ≠ c.tenant)) ∧
  (∃ (s : State) (k i : Nat) (c : NvmeCmd) (b : Blk) (fp : List Byte), (s.blk k i = some (c, b)) ∧ (b.step = .look fp) ∧ (s.recordWaits k c b.block = false) ∧ (s.on SEP_CTL.EN = true) ∧ (s.on SEP_CTL.INLINE_EN = false ∨ domInline (s.domEntry (s.cmdDomain c)) = false)) ∧
  (∃ (s : State) (k i : Nat) (c : NvmeCmd) (b : Blk) (fp : List Byte) (t : State), (s.blk k i = some (c, b)) ∧ (b.step = .bucket fp) ∧ (s.bucketsBad fp = false) ∧ (t = ((s.noteBuckets fp).drop SEP_STATUS.IN_FLIGHT 1).yieldPending (s.cmdDomain c) fp k)) ∧
  (∃ (s : State) (k i : Nat) (c : NvmeCmd) (b : Blk) (fp : List Byte) (h l : Nat) (ms : List Medium) (a : State), (s.blk k i = some (c, b)) ∧ (b.step = .verify fp h l) ∧ (a = s.setCell { s.cell with script := ms }) ∧ ((a.storedBlock (((a.entryAt h).map FEntry.shard).getD 0) l).1 ≠ some b.data)) :=
  ⟨⟨(regs [(DDR_CFG.CAP_GIB, 16), (PAR_CTL.EN, 1), (PAR_TENANT_TABLE.BASE, 1), (SEP_CTL.EN, 1), (SEP_CTL.INLINE_EN, 1), (SEP_DOMAIN_BASE.BASE, 16), (SEP_INDEX_BASE.BASE, 32), (SEP_INDEX_CFG.LOG2_BUCKETS, 4), (SEP_SHARD.STATE 0, 2), (PAR_SHARD.STATE 0, 0), (CELL_SHARD.STATE 0, 2), (CHURN_CTL.EN, 1), (PRESS_CTL.EN, 1), (VEN_CTL.EN, 1), (PWR_DOM.STATE 70, 2), (PWR_DOM.STATE 74, 2), (PWR_DOM.STATE 77, 2), (CHURN_CTL.LANE_EN, 65535), (PRESS_CTL.LANE_EN, 65535), (VEN_CTL.LANE_EN, 65535)] ({ State.reset with mem := Memory.writeN (Memory.writeN (Memory.writeN [] 64 (image 64 [(0, 2, 5), (8, 8, 4096)])) 65536 (image 16 [(0, 2, 0x8000), (2, 1, 1)])) 8192 (image 32 [(0, 1, 7)]) })) |>.setPar { cmds := [(0, ({ sqe := image 64 [(0, 1, Nop.write)], ctx := none, cntlid := 1, qid := 1, cls := 0, tenant := 2, vol := 1, stage := .running, since := 0, origin := some 5, begun := true, blks := [{ block := 0, step := .look (image 32 [(0, 1, 7)]) }] } : NvmeCmd))] }, 0, 0, ({ sqe := image 64 [(0, 1, Nop.write)], ctx := none, cntlid := 1, qid := 1, cls := 0, tenant := 2, vol := 1, stage := .running, since := 0, origin := some 5, begun := true, blks := [{ block := 0, step := .look (image 32 [(0, 1, 7)]) }] } : NvmeCmd), { block := 0, step := .look (image 32 [(0, 1, 7)]) }, image 32 [(0, 1, 7)], by decide +kernel⟩,
   ⟨(regs [(DDR_CFG.CAP_GIB, 16), (PAR_CTL.EN, 1), (PAR_TENANT_TABLE.BASE, 1), (SEP_CTL.EN, 1), (SEP_CTL.INLINE_EN, 0), (SEP_DOMAIN_BASE.BASE, 16), (SEP_INDEX_BASE.BASE, 32), (SEP_INDEX_CFG.LOG2_BUCKETS, 4), (SEP_SHARD.STATE 0, 2), (PAR_SHARD.STATE 0, 0), (CELL_SHARD.STATE 0, 2), (CHURN_CTL.EN, 1), (PRESS_CTL.EN, 1), (VEN_CTL.EN, 1), (PWR_DOM.STATE 70, 2), (PWR_DOM.STATE 74, 2), (PWR_DOM.STATE 77, 2), (CHURN_CTL.LANE_EN, 65535), (PRESS_CTL.LANE_EN, 65535), (VEN_CTL.LANE_EN, 65535)] ({ State.reset with mem := Memory.writeN (Memory.writeN (Memory.writeN [] 64 (image 64 [(0, 2, 5), (8, 8, 4096)])) 65536 (image 16 [(0, 2, 0x8000), (2, 1, 1)])) 8192 (image 32 [(0, 1, 7)]) })) |>.setPar { cmds := [(0, ({ sqe := image 64 [(0, 1, Nop.write)], ctx := none, cntlid := 1, qid := 1, cls := 0, tenant := 0, vol := 1, stage := .running, since := 0, origin := some 5, begun := true, blks := [{ block := 0, step := .look (image 32 [(0, 1, 7)]) }] } : NvmeCmd))] }, 0, 0, ({ sqe := image 64 [(0, 1, Nop.write)], ctx := none, cntlid := 1, qid := 1, cls := 0, tenant := 0, vol := 1, stage := .running, since := 0, origin := some 5, begun := true, blks := [{ block := 0, step := .look (image 32 [(0, 1, 7)]) }] } : NvmeCmd), { block := 0, step := .look (image 32 [(0, 1, 7)]) }, image 32 [(0, 1, 7)], by decide +kernel⟩,
   ⟨(regs [(DDR_CFG.CAP_GIB, 16), (PAR_CTL.EN, 1), (PAR_TENANT_TABLE.BASE, 1), (SEP_CTL.EN, 1), (SEP_CTL.INLINE_EN, 1), (SEP_DOMAIN_BASE.BASE, 16), (SEP_INDEX_BASE.BASE, 32), (SEP_INDEX_CFG.LOG2_BUCKETS, 4), (SEP_SHARD.STATE 0, 2), (PAR_SHARD.STATE 0, 0), (CELL_SHARD.STATE 0, 2), (CHURN_CTL.EN, 1), (PRESS_CTL.EN, 1), (VEN_CTL.EN, 1), (PWR_DOM.STATE 70, 2), (PWR_DOM.STATE 74, 2), (PWR_DOM.STATE 77, 2), (CHURN_CTL.LANE_EN, 65535), (PRESS_CTL.LANE_EN, 65535), (VEN_CTL.LANE_EN, 65535)] ({ State.reset with mem := Memory.writeN (Memory.writeN (Memory.writeN [] 64 (image 64 [(0, 2, 5), (8, 8, 4096)])) 65536 (image 16 [(0, 2, 0x8000), (2, 1, 1)])) 8192 (image 32 [(0, 1, 7)]) })) |>.setPar { cmds := [(0, ({ sqe := image 64 [(0, 1, Nop.write)], ctx := none, cntlid := 1, qid := 1, cls := 0, tenant := 0, vol := 1, stage := .running, since := 0, origin := some 5, begun := true, blks := [{ block := 0, step := .bucket (image 32 [(0, 1, 7)]) }] } : NvmeCmd))] }, 0, 0, ({ sqe := image 64 [(0, 1, Nop.write)], ctx := none, cntlid := 1, qid := 1, cls := 0, tenant := 0, vol := 1, stage := .running, since := 0, origin := some 5, begun := true, blks := [{ block := 0, step := .bucket (image 32 [(0, 1, 7)]) }] } : NvmeCmd), { block := 0, step := .bucket (image 32 [(0, 1, 7)]) }, image 32 [(0, 1, 7)], ((regs [(DDR_CFG.CAP_GIB, 16), (PAR_CTL.EN, 1), (PAR_TENANT_TABLE.BASE, 1), (SEP_CTL.EN, 1), (SEP_CTL.INLINE_EN, 1), (SEP_DOMAIN_BASE.BASE, 16), (SEP_INDEX_BASE.BASE, 32), (SEP_INDEX_CFG.LOG2_BUCKETS, 4), (SEP_SHARD.STATE 0, 2), (PAR_SHARD.STATE 0, 0), (CELL_SHARD.STATE 0, 2), (CHURN_CTL.EN, 1), (PRESS_CTL.EN, 1), (VEN_CTL.EN, 1), (PWR_DOM.STATE 70, 2), (PWR_DOM.STATE 74, 2), (PWR_DOM.STATE 77, 2), (CHURN_CTL.LANE_EN, 65535), (PRESS_CTL.LANE_EN, 65535), (VEN_CTL.LANE_EN, 65535)] ({ State.reset with mem := Memory.writeN (Memory.writeN (Memory.writeN [] 64 (image 64 [(0, 2, 5), (8, 8, 4096)])) 65536 (image 16 [(0, 2, 0x8000), (2, 1, 1)])) 8192 (image 32 [(0, 1, 7)]) })) |>.setPar { cmds := [(0, ({ sqe := image 64 [(0, 1, Nop.write)], ctx := none, cntlid := 1, qid := 1, cls := 0, tenant := 0, vol := 1, stage := .running, since := 0, origin := some 5, begun := true, blks := [{ block := 0, step := .bucket (image 32 [(0, 1, 7)]) }] } : NvmeCmd))] }).drop SEP_STATUS.IN_FLIGHT 1, ⟨by decide +kernel, by decide +kernel, by decide +kernel, by first | with_reducible rfl | decide +kernel⟩⟩,
   ⟨(regs [(DDR_CFG.CAP_GIB, 16), (PAR_CTL.EN, 1), (PAR_TENANT_TABLE.BASE, 1), (SEP_CTL.EN, 1), (SEP_CTL.INLINE_EN, 1), (SEP_DOMAIN_BASE.BASE, 16), (SEP_INDEX_BASE.BASE, 32), (SEP_INDEX_CFG.LOG2_BUCKETS, 4), (SEP_SHARD.STATE 0, 2), (PAR_SHARD.STATE 0, 0), (CELL_SHARD.STATE 0, 2), (CHURN_CTL.EN, 1), (PRESS_CTL.EN, 1), (VEN_CTL.EN, 1), (PWR_DOM.STATE 70, 2), (PWR_DOM.STATE 74, 2), (PWR_DOM.STATE 77, 2), (CHURN_CTL.LANE_EN, 65535), (PRESS_CTL.LANE_EN, 65535), (VEN_CTL.LANE_EN, 65535)] ({ State.reset with mem := Memory.writeN (Memory.writeN (Memory.writeN [] 64 (image 64 [(0, 2, 5), (8, 8, 4096)])) 65536 (image 16 [(0, 2, 0x8000), (2, 1, 1)])) 8192 (image 32 [(0, 1, 7)]) })) |>.setPar { cmds := [(0, ({ sqe := image 64 [(0, 1, Nop.write)], ctx := none, cntlid := 1, qid := 1, cls := 0, tenant := 0, vol := 1, stage := .running, since := 0, origin := some 5, begun := true, blks := [{ block := 0, step := .verify (image 32 [(0, 1, 7)]) 56 77 }] } : NvmeCmd))] }, 0, 0, ({ sqe := image 64 [(0, 1, Nop.write)], ctx := none, cntlid := 1, qid := 1, cls := 0, tenant := 0, vol := 1, stage := .running, since := 0, origin := some 5, begun := true, blks := [{ block := 0, step := .verify (image 32 [(0, 1, 7)]) 56 77 }] } : NvmeCmd), { block := 0, step := .verify (image 32 [(0, 1, 7)]) 56 77 }, image 32 [(0, 1, 7)], 56, 77, [], ((regs [(DDR_CFG.CAP_GIB, 16), (PAR_CTL.EN, 1), (PAR_TENANT_TABLE.BASE, 1), (SEP_CTL.EN, 1), (SEP_CTL.INLINE_EN, 1), (SEP_DOMAIN_BASE.BASE, 16), (SEP_INDEX_BASE.BASE, 32), (SEP_INDEX_CFG.LOG2_BUCKETS, 4), (SEP_SHARD.STATE 0, 2), (PAR_SHARD.STATE 0, 0), (CELL_SHARD.STATE 0, 2), (CHURN_CTL.EN, 1), (PRESS_CTL.EN, 1), (VEN_CTL.EN, 1), (PWR_DOM.STATE 70, 2), (PWR_DOM.STATE 74, 2), (PWR_DOM.STATE 77, 2), (CHURN_CTL.LANE_EN, 65535), (PRESS_CTL.LANE_EN, 65535), (VEN_CTL.LANE_EN, 65535)] ({ State.reset with mem := Memory.writeN (Memory.writeN (Memory.writeN [] 64 (image 64 [(0, 2, 5), (8, 8, 4096)])) 65536 (image 16 [(0, 2, 0x8000), (2, 1, 1)])) 8192 (image 32 [(0, 1, 7)]) })) |>.setPar { cmds := [(0, ({ sqe := image 64 [(0, 1, Nop.write)], ctx := none, cntlid := 1, qid := 1, cls := 0, tenant := 0, vol := 1, stage := .running, since := 0, origin := some 5, begun := true, blks := [{ block := 0, step := .verify (image 32 [(0, 1, 7)]) 56 77 }] } : NvmeCmd))] }).setCell State.reset.cell, ⟨by decide +kernel, by decide +kernel, by first | with_reducible rfl | decide +kernel, by decide +kernel⟩⟩⟩

theorem witness_InlinePathOfABlock_3 :
  (∃ (s : State) (k i : Nat) (c : NvmeCmd) (b : Blk) (fp : List Byte) (h l : Nat) (ms : List Medium), (s.blk k i = some (c, b)) ∧ (b.step = .verify fp h l)) ∧
  (∃ (s : State) (k i : Nat) (c : NvmeCmd) (b : Blk) (dict : Nat) (curd : List Byte) (t : State), (s.blk k i = some (c, b)) ∧ (b.step = .press) ∧ (takesLane s.churnTurn (.block k i) = true) ∧ (dict = if volDedup (s.cmdVol c) ∧ s.dictRefused (volOwner (s.cmdVol c) c.vol) (domDict (s.domEntry (volDomain (s.cmdVol c)))) = none then domDict (s.domEntry (volDomain (s.cmdVol c))) else 0) ∧ (s.useDicts [dict] = some t) ∧ (curd = curdCompress t.dicts (volOwner (s.cmdVol c) c.vol) (if volDedup (s.cmdVol c) then domLevel (s.domEntry (volDomain (s.cmdVol c))) else 0) dict [b.data])) ∧
  (∃ (s : State) (k i : Nat) (c : NvmeCmd) (b : Blk) (key : List Byte) (t : State), (s.blk k i = some (c, b)) ∧ (s.recordWaits k c b.block = false) ∧ (b.atVeneer = true) ∧ (takesLane s.venTurn (.block k i) = true) ∧ (s.cached c.tenant = some (key, t))) ∧
  (∃ (s : State) (k i : Nat) (c : NvmeCmd) (b : Blk) (key : List Byte) (t : State) (bs : List Byte) (tw l idx : Nat), (s.blk k i = some (c, b)) ∧ (b.step = .cipher bs tw l idx) ∧ (takesLane s.venTurn (.block k i) = true) ∧ (s.cached c.tenant = some (key, t))) :=
  ⟨⟨(regs [(DDR_CFG.CAP_GIB, 16), (PAR_CTL.EN, 1), (PAR_TENANT_TABLE.BASE, 1), (SEP_CTL.EN, 1), (SEP_CTL.INLINE_EN, 1), (SEP_DOMAIN_BASE.BASE, 16), (SEP_INDEX_BASE.BASE, 32), (SEP_INDEX_CFG.LOG2_BUCKETS, 4), (SEP_SHARD.STATE 0, 2), (PAR_SHARD.STATE 0, 0), (CELL_SHARD.STATE 0, 2), (CHURN_CTL.EN, 1), (PRESS_CTL.EN, 1), (VEN_CTL.EN, 1), (PWR_DOM.STATE 70, 2), (PWR_DOM.STATE 74, 2), (PWR_DOM.STATE 77, 2), (CHURN_CTL.LANE_EN, 65535), (PRESS_CTL.LANE_EN, 65535), (VEN_CTL.LANE_EN, 65535)] ({ State.reset with mem := Memory.writeN (Memory.writeN (Memory.writeN [] 64 (image 64 [(0, 2, 5), (8, 8, 4096)])) 65536 (image 16 [(0, 2, 0x8000), (2, 1, 1)])) 8192 (image 32 [(0, 1, 7)]) })) |>.setPar { cmds := [(0, ({ sqe := image 64 [(0, 1, Nop.write)], ctx := none, cntlid := 1, qid := 1, cls := 0, tenant := 0, vol := 1, stage := .running, since := 0, origin := some 5, begun := true, blks := [{ block := 0, step := .verify (image 32 [(0, 1, 7)]) 56 77 }] } : NvmeCmd))] }, 0, 0, ({ sqe := image 64 [(0, 1, Nop.write)], ctx := none, cntlid := 1, qid := 1, cls := 0, tenant := 0, vol := 1, stage := .running, since := 0, origin := some 5, begun := true, blks := [{ block := 0, step := .verify (image 32 [(0, 1, 7)]) 56 77 }] } : NvmeCmd), { block := 0, step := .verify (image 32 [(0, 1, 7)]) 56 77 }, image 32 [(0, 1, 7)], 56, 77, [], by decide +kernel⟩,
   ⟨(regs [(DDR_CFG.CAP_GIB, 16), (PAR_CTL.EN, 1), (PAR_TENANT_TABLE.BASE, 1), (SEP_CTL.EN, 1), (SEP_CTL.INLINE_EN, 1), (SEP_DOMAIN_BASE.BASE, 16), (SEP_INDEX_BASE.BASE, 32), (SEP_INDEX_CFG.LOG2_BUCKETS, 4), (SEP_SHARD.STATE 0, 2), (PAR_SHARD.STATE 0, 0), (CELL_SHARD.STATE 0, 2), (CHURN_CTL.EN, 1), (PRESS_CTL.EN, 1), (VEN_CTL.EN, 1), (PWR_DOM.STATE 70, 2), (PWR_DOM.STATE 74, 2), (PWR_DOM.STATE 77, 2), (CHURN_CTL.LANE_EN, 65535), (PRESS_CTL.LANE_EN, 65535), (VEN_CTL.LANE_EN, 65535)] ({ State.reset with mem := Memory.writeN (Memory.writeN (Memory.writeN [] 64 (image 64 [(0, 2, 1), (8, 8, 4096)])) 65536 (image 16 [(0, 2, 0x8000), (2, 1, 1)])) 8192 (image 32 [(0, 1, 7)]) })) |>.setPar { cmds := [(0, ({ sqe := image 64 [(0, 1, Nop.write)], ctx := none, cntlid := 1, qid := 1, cls := 0, tenant := 0, vol := 1, stage := .running, since := 0, origin := some 5, begun := true, blks := [{ block := 0, step := .press }] } : NvmeCmd))] }, 0, 0, ({ sqe := image 64 [(0, 1, Nop.write)], ctx := none, cntlid := 1, qid := 1, cls := 0, tenant := 0, vol := 1, stage := .running, since := 0, origin := some 5, begun := true, blks := [{ block := 0, step := .press }] } : NvmeCmd), { block := 0, step := .press }, 0, _, (regs [(DDR_CFG.CAP_GIB, 16), (PAR_CTL.EN, 1), (PAR_TENANT_TABLE.BASE, 1), (SEP_CTL.EN, 1), (SEP_CTL.INLINE_EN, 1), (SEP_DOMAIN_BASE.BASE, 16), (SEP_INDEX_BASE.BASE, 32), (SEP_INDEX_CFG.LOG2_BUCKETS, 4), (SEP_SHARD.STATE 0, 2), (PAR_SHARD.STATE 0, 0), (CELL_SHARD.STATE 0, 2), (CHURN_CTL.EN, 1), (PRESS_CTL.EN, 1), (VEN_CTL.EN, 1), (PWR_DOM.STATE 70, 2), (PWR_DOM.STATE 74, 2), (PWR_DOM.STATE 77, 2), (CHURN_CTL.LANE_EN, 65535), (PRESS_CTL.LANE_EN, 65535), (VEN_CTL.LANE_EN, 65535)] ({ State.reset with mem := Memory.writeN (Memory.writeN (Memory.writeN [] 64 (image 64 [(0, 2, 1), (8, 8, 4096)])) 65536 (image 16 [(0, 2, 0x8000), (2, 1, 1)])) 8192 (image 32 [(0, 1, 7)]) })) |>.setPar { cmds := [(0, ({ sqe := image 64 [(0, 1, Nop.write)], ctx := none, cntlid := 1, qid := 1, cls := 0, tenant := 0, vol := 1, stage := .running, since := 0, origin := some 5, begun := true, blks := [{ block := 0, step := .press }] } : NvmeCmd))] }, ⟨by decide +kernel, by decide +kernel, by decide +kernel, by decide +kernel, by decide +kernel, rfl⟩⟩,
   ⟨(regs [(DDR_CFG.CAP_GIB, 16), (PAR_CTL.EN, 1), (PAR_TENANT_TABLE.BASE, 1), (SEP_CTL.EN, 1), (SEP_CTL.INLINE_EN, 1), (SEP_DOMAIN_BASE.BASE, 16), (SEP_INDEX_BASE.BASE, 32), (SEP_INDEX_CFG.LOG2_BUCKETS, 4), (SEP_SHARD.STATE 0, 2), (PAR_SHARD.STATE 0, 0), (CELL_SHARD.STATE 0, 2), (CHURN_CTL.EN, 1), (PRESS_CTL.EN, 1), (VEN_CTL.EN, 1), (PWR_DOM.STATE 70, 2), (PWR_DOM.STATE 74, 2), (PWR_DOM.STATE 77, 2), (CHURN_CTL.LANE_EN, 65535), (PRESS_CTL.LANE_EN, 65535), (VEN_CTL.LANE_EN, 65535)] ({ State.reset with mem := Memory.writeN (Memory.writeN (Memory.writeN [] 64 (image 64 [(0, 2, 5), (8, 8, 4096)])) 65536 (image 16 [(0, 2, 0x8000), (2, 1, 1)])) 8192 (image 32 [(0, 1, 7)]), ven := { cache := [⟨0, zeros 64⟩] } })) |>.setPar { cmds := [(0, ({ sqe := image 64 [(0, 1, Nop.read)], ctx := none, cntlid := 1, qid := 1, cls := 0, tenant := 0, vol := 1, stage := .running, since := 0, origin := some 5, begun := true, blks := [{ block := 0, step := .cipher (zeros 32) 5 0 0 }] } : NvmeCmd))] }, 0, 0, ({ sqe := image 64 [(0, 1, Nop.read)], ctx := none, cntlid := 1, qid := 1, cls := 0, tenant := 0, vol := 1, stage := .running, since := 0, origin := some 5, begun := true, blks := [{ block := 0, step := .cipher (zeros 32) 5 0 0 }] } : NvmeCmd), { block := 0, step := .cipher (zeros 32) 5 0 0 }, zeros 64, (match ((regs [(DDR_CFG.CAP_GIB, 16), (PAR_CTL.EN, 1), (PAR_TENANT_TABLE.BASE, 1), (SEP_CTL.EN, 1), (SEP_CTL.INLINE_EN, 1), (SEP_DOMAIN_BASE.BASE, 16), (SEP_INDEX_BASE.BASE, 32), (SEP_INDEX_CFG.LOG2_BUCKETS, 4), (SEP_SHARD.STATE 0, 2), (PAR_SHARD.STATE 0, 0), (CELL_SHARD.STATE 0, 2), (CHURN_CTL.EN, 1), (PRESS_CTL.EN, 1), (VEN_CTL.EN, 1), (PWR_DOM.STATE 70, 2), (PWR_DOM.STATE 74, 2), (PWR_DOM.STATE 77, 2), (CHURN_CTL.LANE_EN, 65535), (PRESS_CTL.LANE_EN, 65535), (VEN_CTL.LANE_EN, 65535)] ({ State.reset with mem := Memory.writeN (Memory.writeN (Memory.writeN [] 64 (image 64 [(0, 2, 5), (8, 8, 4096)])) 65536 (image 16 [(0, 2, 0x8000), (2, 1, 1)])) 8192 (image 32 [(0, 1, 7)]), ven := { cache := [⟨0, zeros 64⟩] } })) |>.setPar { cmds := [(0, ({ sqe := image 64 [(0, 1, Nop.read)], ctx := none, cntlid := 1, qid := 1, cls := 0, tenant := 0, vol := 1, stage := .running, since := 0, origin := some 5, begun := true, blks := [{ block := 0, step := .cipher (zeros 32) 5 0 0 }] } : NvmeCmd))] }).cached 0 with | some x => x.2 | none => State.reset), by decide +kernel⟩,
   ⟨(regs [(DDR_CFG.CAP_GIB, 16), (PAR_CTL.EN, 1), (PAR_TENANT_TABLE.BASE, 1), (SEP_CTL.EN, 1), (SEP_CTL.INLINE_EN, 1), (SEP_DOMAIN_BASE.BASE, 16), (SEP_INDEX_BASE.BASE, 32), (SEP_INDEX_CFG.LOG2_BUCKETS, 4), (SEP_SHARD.STATE 0, 2), (PAR_SHARD.STATE 0, 0), (CELL_SHARD.STATE 0, 2), (CHURN_CTL.EN, 1), (PRESS_CTL.EN, 1), (VEN_CTL.EN, 1), (PWR_DOM.STATE 70, 2), (PWR_DOM.STATE 74, 2), (PWR_DOM.STATE 77, 2), (CHURN_CTL.LANE_EN, 65535), (PRESS_CTL.LANE_EN, 65535), (VEN_CTL.LANE_EN, 65535)] ({ State.reset with mem := Memory.writeN (Memory.writeN (Memory.writeN [] 64 (image 64 [(0, 2, 5), (8, 8, 4096)])) 65536 (image 16 [(0, 2, 0x8000), (2, 1, 1)])) 8192 (image 32 [(0, 1, 7)]), ven := { cache := [⟨0, zeros 64⟩] } })) |>.setPar { cmds := [(0, ({ sqe := image 64 [(0, 1, Nop.read)], ctx := none, cntlid := 1, qid := 1, cls := 0, tenant := 0, vol := 1, stage := .running, since := 0, origin := some 5, begun := true, blks := [{ block := 0, step := .cipher (zeros 32) 5 0 0 }] } : NvmeCmd))] }, 0, 0, ({ sqe := image 64 [(0, 1, Nop.read)], ctx := none, cntlid := 1, qid := 1, cls := 0, tenant := 0, vol := 1, stage := .running, since := 0, origin := some 5, begun := true, blks := [{ block := 0, step := .cipher (zeros 32) 5 0 0 }] } : NvmeCmd), { block := 0, step := .cipher (zeros 32) 5 0 0 }, zeros 64, (match ((regs [(DDR_CFG.CAP_GIB, 16), (PAR_CTL.EN, 1), (PAR_TENANT_TABLE.BASE, 1), (SEP_CTL.EN, 1), (SEP_CTL.INLINE_EN, 1), (SEP_DOMAIN_BASE.BASE, 16), (SEP_INDEX_BASE.BASE, 32), (SEP_INDEX_CFG.LOG2_BUCKETS, 4), (SEP_SHARD.STATE 0, 2), (PAR_SHARD.STATE 0, 0), (CELL_SHARD.STATE 0, 2), (CHURN_CTL.EN, 1), (PRESS_CTL.EN, 1), (VEN_CTL.EN, 1), (PWR_DOM.STATE 70, 2), (PWR_DOM.STATE 74, 2), (PWR_DOM.STATE 77, 2), (CHURN_CTL.LANE_EN, 65535), (PRESS_CTL.LANE_EN, 65535), (VEN_CTL.LANE_EN, 65535)] ({ State.reset with mem := Memory.writeN (Memory.writeN (Memory.writeN [] 64 (image 64 [(0, 2, 5), (8, 8, 4096)])) 65536 (image 16 [(0, 2, 0x8000), (2, 1, 1)])) 8192 (image 32 [(0, 1, 7)]), ven := { cache := [⟨0, zeros 64⟩] } })) |>.setPar { cmds := [(0, ({ sqe := image 64 [(0, 1, Nop.read)], ctx := none, cntlid := 1, qid := 1, cls := 0, tenant := 0, vol := 1, stage := .running, since := 0, origin := some 5, begun := true, blks := [{ block := 0, step := .cipher (zeros 32) 5 0 0 }] } : NvmeCmd))] }).cached 0 with | some x => x.2 | none => State.reset), zeros 32, 5, 0, 0, by decide +kernel⟩⟩

theorem witness_InlinePathOfABlock_4 :
  (∃ (s : State) (k i : Nat) (c : NvmeCmd) (b : Blk), (s.blk k i = some (c, b)) ∧ (s.recordWaits k c b.block = false) ∧ (b.atVeneer = true) ∧ (takesLane s.venTurn (.block k i) = true) ∧ (s.cached c.tenant = none)) ∧
  (∃ (s : State) (tenant k : Nat), (Tab.get? s.ven.misses tenant = some [.inline k]) ∧ (s.cmd k = none)) ∧
  (∃ (s : State) (k i : Nat) (c : NvmeCmd) (b : Blk) (ms : List Medium) (curd : List Byte) (idx : Nat) (t : State), (s.blk k i = some (c, b)) ∧ (b.step = .plain curd idx) ∧ (takesLane s.churnTurn (.block k i) = true) ∧ (s.useDicts (curdDicts s.dicts curd idx) = some t) ∧ (t.catEntry c.vol b.block = none)) ∧
  (∃ (s : State) (k i : Nat) (c : NvmeCmd) (b : Blk) (ms : List Medium) (curd : List Byte) (idx : Nat) (t : State), (s.blk k i = some (c, b)) ∧ (b.step = .plain curd idx) ∧ (takesLane s.churnTurn (.block k i) = true) ∧ (s.useDicts (curdDicts s.dicts curd idx) = some t)) :=
  ⟨⟨(regs [(DDR_CFG.CAP_GIB, 16), (PAR_CTL.EN, 1), (PAR_TENANT_TABLE.BASE, 1), (SEP_CTL.EN, 1), (SEP_CTL.INLINE_EN, 1), (SEP_DOMAIN_BASE.BASE, 16), (SEP_INDEX_BASE.BASE, 32), (SEP_INDEX_CFG.LOG2_BUCKETS, 4), (SEP_SHARD.STATE 0, 2), (PAR_SHARD.STATE 0, 0), (CELL_SHARD.STATE 0, 2), (CHURN_CTL.EN, 1), (PRESS_CTL.EN, 1), (VEN_CTL.EN, 1), (PWR_DOM.STATE 70, 2), (PWR_DOM.STATE 74, 2), (PWR_DOM.STATE 77, 2), (CHURN_CTL.LANE_EN, 65535), (PRESS_CTL.LANE_EN, 65535), (VEN_CTL.LANE_EN, 65535)] ({ State.reset with mem := Memory.writeN (Memory.writeN (Memory.writeN [] 64 (image 64 [(0, 2, 5), (8, 8, 4096)])) 65536 (image 16 [(0, 2, 0x8000), (2, 1, 1)])) 8192 (image 32 [(0, 1, 7)]) })) |>.setPar { cmds := [(0, ({ sqe := image 64 [(0, 1, Nop.read)], ctx := none, cntlid := 1, qid := 1, cls := 0, tenant := 0, vol := 1, stage := .running, since := 0, origin := some 5, begun := true, blks := [{ block := 0, step := .cipher (zeros 32) 5 0 0 }] } : NvmeCmd))] }, 0, 0, ({ sqe := image 64 [(0, 1, Nop.read)], ctx := none, cntlid := 1, qid := 1, cls := 0, tenant := 0, vol := 1, stage := .running, since := 0, origin := some 5, begun := true, blks := [{ block := 0, step := .cipher (zeros 32) 5 0 0 }] } : NvmeCmd), { block := 0, step := .cipher (zeros 32) 5 0 0 }, by decide +kernel⟩,
   ⟨regs [(DDR_CFG.CAP_GIB, 16), (PAR_CTL.EN, 1), (PAR_TENANT_TABLE.BASE, 1), (SEP_CTL.EN, 1), (SEP_CTL.INLINE_EN, 1), (SEP_DOMAIN_BASE.BASE, 16), (SEP_INDEX_BASE.BASE, 32), (SEP_INDEX_CFG.LOG2_BUCKETS, 4), (SEP_SHARD.STATE 0, 2), (PAR_SHARD.STATE 0, 0), (CELL_SHARD.STATE 0, 2), (CHURN_CTL.EN, 1), (PRESS_CTL.EN, 1), (VEN_CTL.EN, 1), (PWR_DOM.STATE 70, 2), (PWR_DOM.STATE 74, 2), (PWR_DOM.STATE 77, 2), (CHURN_CTL.LANE_EN, 65535), (PRESS_CTL.LANE_EN, 65535), (VEN_CTL.LANE_EN, 65535)] { State.reset with ven := { misses := [(5, [.inline 0])] } }, 5, 0, by decide +kernel⟩,
   ⟨(regs [(DDR_CFG.CAP_GIB, 16), (PAR_CTL.EN, 1), (PAR_TENANT_TABLE.BASE, 1), (SEP_CTL.EN, 1), (SEP_CTL.INLINE_EN, 1), (SEP_DOMAIN_BASE.BASE, 16), (SEP_INDEX_BASE.BASE, 32), (SEP_INDEX_CFG.LOG2_BUCKETS, 4), (SEP_SHARD.STATE 0, 2), (PAR_SHARD.STATE 0, 0), (CELL_SHARD.STATE 0, 2), (CHURN_CTL.EN, 1), (PRESS_CTL.EN, 1), (VEN_CTL.EN, 1), (PWR_DOM.STATE 70, 2), (PWR_DOM.STATE 74, 2), (PWR_DOM.STATE 77, 2), (CHURN_CTL.LANE_EN, 65535), (PRESS_CTL.LANE_EN, 65535), (VEN_CTL.LANE_EN, 65535)] ({ State.reset with mem := Memory.writeN (Memory.writeN (Memory.writeN [] 64 (image 64 [(0, 2, 5), (8, 8, 4096)])) 65536 (image 16 [(0, 2, 0x8000), (2, 1, 1)])) 8192 (image 32 [(0, 1, 7)]) })) |>.setPar { cmds := [(0, ({ sqe := image 64 [(0, 1, Nop.read)], ctx := none, cntlid := 1, qid := 1, cls := 0, tenant := 0, vol := 1, stage := .running, since := 0, origin := some 5, begun := true, blks := [{ block := 0, step := .plain (zeros 96) 0 }] } : NvmeCmd))] }, 0, 0, ({ sqe := image 64 [(0, 1, Nop.read)], ctx := none, cntlid := 1, qid := 1, cls := 0, tenant := 0, vol := 1, stage := .running, since := 0, origin := some 5, begun := true, blks := [{ block := 0, step := .plain (zeros 96) 0 }] } : NvmeCmd), { block := 0, step := .plain (zeros 96) 0 }, [], zeros 96, 0, (regs [(DDR_CFG.CAP_GIB, 16), (PAR_CTL.EN, 1), (PAR_TENANT_TABLE.BASE, 1), (SEP_CTL.EN, 1), (SEP_CTL.INLINE_EN, 1), (SEP_DOMAIN_BASE.BASE, 16), (SEP_INDEX_BASE.BASE, 32), (SEP_INDEX_CFG.LOG2_BUCKETS, 4), (SEP_SHARD.STATE 0, 2), (PAR_SHARD.STATE 0, 0), (CELL_SHARD.STATE 0, 2), (CHURN_CTL.EN, 1), (PRESS_CTL.EN, 1), (VEN_CTL.EN, 1), (PWR_DOM.STATE 70, 2), (PWR_DOM.STATE 74, 2), (PWR_DOM.STATE 77, 2), (CHURN_CTL.LANE_EN, 65535), (PRESS_CTL.LANE_EN, 65535), (VEN_CTL.LANE_EN, 65535)] ({ State.reset with mem := Memory.writeN (Memory.writeN (Memory.writeN [] 64 (image 64 [(0, 2, 5), (8, 8, 4096)])) 65536 (image 16 [(0, 2, 0x8000), (2, 1, 1)])) 8192 (image 32 [(0, 1, 7)]) })) |>.setPar { cmds := [(0, ({ sqe := image 64 [(0, 1, Nop.read)], ctx := none, cntlid := 1, qid := 1, cls := 0, tenant := 0, vol := 1, stage := .running, since := 0, origin := some 5, begun := true, blks := [{ block := 0, step := .plain (zeros 96) 0 }] } : NvmeCmd))] }, by decide +kernel⟩,
   ⟨(regs [(DDR_CFG.CAP_GIB, 16), (PAR_CTL.EN, 1), (PAR_TENANT_TABLE.BASE, 1), (SEP_CTL.EN, 1), (SEP_CTL.INLINE_EN, 1), (SEP_DOMAIN_BASE.BASE, 16), (SEP_INDEX_BASE.BASE, 32), (SEP_INDEX_CFG.LOG2_BUCKETS, 4), (SEP_SHARD.STATE 0, 2), (PAR_SHARD.STATE 0, 0), (CELL_SHARD.STATE 0, 2), (CHURN_CTL.EN, 1), (PRESS_CTL.EN, 1), (VEN_CTL.EN, 1), (PWR_DOM.STATE 70, 2), (PWR_DOM.STATE 74, 2), (PWR_DOM.STATE 77, 2), (CHURN_CTL.LANE_EN, 65535), (PRESS_CTL.LANE_EN, 65535), (VEN_CTL.LANE_EN, 65535)] ({ State.reset with mem := Memory.writeN (Memory.writeN (Memory.writeN [] 64 (image 64 [(0, 2, 5), (8, 8, 4096)])) 65536 (image 16 [(0, 2, 0x8000), (2, 1, 1)])) 8192 (image 32 [(0, 1, 7)]) })) |>.setPar { cmds := [(0, ({ sqe := image 64 [(0, 1, Nop.read)], ctx := none, cntlid := 1, qid := 1, cls := 0, tenant := 0, vol := 1, stage := .running, since := 0, origin := some 5, begun := true, blks := [{ block := 0, step := .plain (zeros 96) 0 }] } : NvmeCmd))] }, 0, 0, ({ sqe := image 64 [(0, 1, Nop.read)], ctx := none, cntlid := 1, qid := 1, cls := 0, tenant := 0, vol := 1, stage := .running, since := 0, origin := some 5, begun := true, blks := [{ block := 0, step := .plain (zeros 96) 0 }] } : NvmeCmd), { block := 0, step := .plain (zeros 96) 0 }, [], zeros 96, 0, (regs [(DDR_CFG.CAP_GIB, 16), (PAR_CTL.EN, 1), (PAR_TENANT_TABLE.BASE, 1), (SEP_CTL.EN, 1), (SEP_CTL.INLINE_EN, 1), (SEP_DOMAIN_BASE.BASE, 16), (SEP_INDEX_BASE.BASE, 32), (SEP_INDEX_CFG.LOG2_BUCKETS, 4), (SEP_SHARD.STATE 0, 2), (PAR_SHARD.STATE 0, 0), (CELL_SHARD.STATE 0, 2), (CHURN_CTL.EN, 1), (PRESS_CTL.EN, 1), (VEN_CTL.EN, 1), (PWR_DOM.STATE 70, 2), (PWR_DOM.STATE 74, 2), (PWR_DOM.STATE 77, 2), (CHURN_CTL.LANE_EN, 65535), (PRESS_CTL.LANE_EN, 65535), (VEN_CTL.LANE_EN, 65535)] ({ State.reset with mem := Memory.writeN (Memory.writeN (Memory.writeN [] 64 (image 64 [(0, 2, 5), (8, 8, 4096)])) 65536 (image 16 [(0, 2, 0x8000), (2, 1, 1)])) 8192 (image 32 [(0, 1, 7)]) })) |>.setPar { cmds := [(0, ({ sqe := image 64 [(0, 1, Nop.read)], ctx := none, cntlid := 1, qid := 1, cls := 0, tenant := 0, vol := 1, stage := .running, since := 0, origin := some 5, begun := true, blks := [{ block := 0, step := .plain (zeros 96) 0 }] } : NvmeCmd))] }, by decide +kernel⟩⟩

theorem witness_ChurnDescriptors :
  (∃ (s : State) (d : DescRef) (f : Fetched), (s.startedAt .churn d Op.compress = some f) ∧ (takesLane s.churnTurn (.desc d) = true) ∧ (f.len % 4096 = 0) ∧ (4096 ≤ f.len) ∧ (f.len ≤ 32768) ∧ (vatSpan f.src f.len = true) ∧ (inVat f.dst = true) ∧ (ownerOk (f.at 36 4) = true) ∧ (s.dictRefused (f.at 36 4) (f.at 32 2) = none)) ∧
  (∃ (s : State) (d : DescRef) (f : Fetched) (bs : List Byte) (t : State), (s.startedAt .churn d Op.decompress = some f) ∧ (takesLane s.churnTurn (.desc d) = true) ∧ (inVat f.src = true) ∧ (96 ≤ f.len) ∧ (vatSpan f.src f.len = true) ∧ ((s.dmaRead .churn f.src f.len (some d.ring)).toOption = some bs) ∧ (s.useDicts (curdDicts s.dicts bs (f.at 32 1)) = some t) ∧ ((f.at 34 1).testBit 0 = true) ∧ ((f.at 34 1).testBit 1 = false) ∧ (f.at 33 1 = 0)) ∧
  (∃ (s : State) (d : DescRef) (f : Fetched) (bs : List Byte) (t : State), (s.startedAt .churn d Op.decompress = some f) ∧ (takesLane s.churnTurn (.desc d) = true) ∧ (inVat f.src = true) ∧ (96 ≤ f.len) ∧ (vatSpan f.src f.len = true) ∧ ((s.dmaRead .churn f.src f.len (some d.ring)).toOption = some bs) ∧ (s.useDicts (curdDicts s.dicts bs (f.at 32 1)) = some t) ∧ ((f.at 34 1).testBit 0 = false) ∧ ((f.at 34 1).testBit 1 = false) ∧ (inVat f.dst = true) ∧ (f.at 33 1 = 0)) ∧
  (∃ (s : State) (d : DescRef) (f : Fetched) (bs : List Byte) (t : State), (s.startedAt .churn d Op.decompress = some f) ∧ (takesLane s.churnTurn (.desc d) = true) ∧ (inVat f.src = true) ∧ (96 ≤ f.len) ∧ (vatSpan f.src f.len = true) ∧ ((s.dmaRead .churn f.src f.len (some d.ring)).toOption = some bs) ∧ (s.useDicts (curdDicts s.dicts bs (f.at 32 1)) = some t) ∧ ((f.at 34 1).testBit 0 = false) ∧ ((f.at 34 1).testBit 1 = true) ∧ (inVat f.dst = true) ∧ (f.at 32 1 ≠ 15) ∧ (f.at 33 1 = 0)) :=
  ⟨⟨holds .churn [desc 0 Op.compress [(8, 8, 0xD00000008000), (16, 8, 0xD00000010000), (24, 4, 4096), (28, 4, 8192), (36, 4, 5)] .started] (regs [(DDR_CFG.CAP_GIB, 16), (PAR_CTL.EN, 1), (PAR_TENANT_TABLE.BASE, 1), (SEP_CTL.EN, 1), (SEP_CTL.INLINE_EN, 1), (SEP_DOMAIN_BASE.BASE, 16), (SEP_INDEX_BASE.BASE, 32), (SEP_INDEX_CFG.LOG2_BUCKETS, 4), (SEP_SHARD.STATE 0, 2), (PAR_SHARD.STATE 0, 0), (CELL_SHARD.STATE 0, 2), (CHURN_CTL.EN, 1), (PRESS_CTL.EN, 1), (VEN_CTL.EN, 1), (PWR_DOM.STATE 70, 2), (PWR_DOM.STATE 74, 2), (PWR_DOM.STATE 77, 2), (CHURN_CTL.LANE_EN, 65535), (PRESS_CTL.LANE_EN, 65535), (VEN_CTL.LANE_EN, 65535)] ({ State.reset with mem := Memory.writeN (Memory.writeN (Memory.writeN [] 64 (image 64 [(0, 2, 5), (8, 8, 4096)])) 65536 (image 16 [(0, 2, 0x8000), (2, 1, 1)])) 8192 (image 32 [(0, 1, 7)]) })), ⟨0, 0⟩, desc 0 Op.compress [(8, 8, 0xD00000008000), (16, 8, 0xD00000010000), (24, 4, 4096), (28, 4, 8192), (36, 4, 5)] .started, by decide +kernel⟩,
   ⟨holds .churn [desc 0 Op.decompress [(8, 8, 0xD00000008000), (24, 4, 96), (34, 1, 1)] .started] (regs [(DDR_CFG.CAP_GIB, 16), (PAR_CTL.EN, 1), (PAR_TENANT_TABLE.BASE, 1), (SEP_CTL.EN, 1), (SEP_CTL.INLINE_EN, 1), (SEP_DOMAIN_BASE.BASE, 16), (SEP_INDEX_BASE.BASE, 32), (SEP_INDEX_CFG.LOG2_BUCKETS, 4), (SEP_SHARD.STATE 0, 2), (PAR_SHARD.STATE 0, 0), (CELL_SHARD.STATE 0, 2), (CHURN_CTL.EN, 1), (PRESS_CTL.EN, 1), (VEN_CTL.EN, 1), (PWR_DOM.STATE 70, 2), (PWR_DOM.STATE 74, 2), (PWR_DOM.STATE 77, 2), (CHURN_CTL.LANE_EN, 65535), (PRESS_CTL.LANE_EN, 65535), (VEN_CTL.LANE_EN, 65535)] ({ State.reset with mem := Memory.writeN (Memory.writeN (Memory.writeN [] 64 (image 64 [(0, 2, 5), (8, 8, 4096)])) 65536 (image 16 [(0, 2, 0x8000), (2, 1, 1)])) 8192 (image 32 [(0, 1, 7)]) })), ⟨0, 0⟩, desc 0 Op.decompress [(8, 8, 0xD00000008000), (24, 4, 96), (34, 1, 1)] .started, zeros 96, holds .churn [desc 0 Op.decompress [(8, 8, 0xD00000008000), (24, 4, 96), (34, 1, 1)] .started] (regs [(DDR_CFG.CAP_GIB, 16), (PAR_CTL.EN, 1), (PAR_TENANT_TABLE.BASE, 1), (SEP_CTL.EN, 1), (SEP_CTL.INLINE_EN, 1), (SEP_DOMAIN_BASE.BASE, 16), (SEP_INDEX_BASE.BASE, 32), (SEP_INDEX_CFG.LOG2_BUCKETS, 4), (SEP_SHARD.STATE 0, 2), (PAR_SHARD.STATE 0, 0), (CELL_SHARD.STATE 0, 2), (CHURN_CTL.EN, 1), (PRESS_CTL.EN, 1), (VEN_CTL.EN, 1), (PWR_DOM.STATE 70, 2), (PWR_DOM.STATE 74, 2), (PWR_DOM.STATE 77, 2), (CHURN_CTL.LANE_EN, 65535), (PRESS_CTL.LANE_EN, 65535), (VEN_CTL.LANE_EN, 65535)] ({ State.reset with mem := Memory.writeN (Memory.writeN (Memory.writeN [] 64 (image 64 [(0, 2, 5), (8, 8, 4096)])) 65536 (image 16 [(0, 2, 0x8000), (2, 1, 1)])) 8192 (image 32 [(0, 1, 7)]) })), by decide +kernel⟩,
   ⟨holds .churn [desc 0 Op.decompress [(8, 8, 0xD00000008000), (16, 8, 0xD00000010000), (24, 4, 96), (28, 4, 8192)] .started] (regs [(DDR_CFG.CAP_GIB, 16), (PAR_CTL.EN, 1), (PAR_TENANT_TABLE.BASE, 1), (SEP_CTL.EN, 1), (SEP_CTL.INLINE_EN, 1), (SEP_DOMAIN_BASE.BASE, 16), (SEP_INDEX_BASE.BASE, 32), (SEP_INDEX_CFG.LOG2_BUCKETS, 4), (SEP_SHARD.STATE 0, 2), (PAR_SHARD.STATE 0, 0), (CELL_SHARD.STATE 0, 2), (CHURN_CTL.EN, 1), (PRESS_CTL.EN, 1), (VEN_CTL.EN, 1), (PWR_DOM.STATE 70, 2), (PWR_DOM.STATE 74, 2), (PWR_DOM.STATE 77, 2), (CHURN_CTL.LANE_EN, 65535), (PRESS_CTL.LANE_EN, 65535), (VEN_CTL.LANE_EN, 65535)] ({ State.reset with mem := Memory.writeN (Memory.writeN (Memory.writeN [] 64 (image 64 [(0, 2, 5), (8, 8, 4096)])) 65536 (image 16 [(0, 2, 0x8000), (2, 1, 1)])) 8192 (image 32 [(0, 1, 7)]) })), ⟨0, 0⟩, desc 0 Op.decompress [(8, 8, 0xD00000008000), (16, 8, 0xD00000010000), (24, 4, 96), (28, 4, 8192)] .started, zeros 96, holds .churn [desc 0 Op.decompress [(8, 8, 0xD00000008000), (16, 8, 0xD00000010000), (24, 4, 96), (28, 4, 8192)] .started] (regs [(DDR_CFG.CAP_GIB, 16), (PAR_CTL.EN, 1), (PAR_TENANT_TABLE.BASE, 1), (SEP_CTL.EN, 1), (SEP_CTL.INLINE_EN, 1), (SEP_DOMAIN_BASE.BASE, 16), (SEP_INDEX_BASE.BASE, 32), (SEP_INDEX_CFG.LOG2_BUCKETS, 4), (SEP_SHARD.STATE 0, 2), (PAR_SHARD.STATE 0, 0), (CELL_SHARD.STATE 0, 2), (CHURN_CTL.EN, 1), (PRESS_CTL.EN, 1), (VEN_CTL.EN, 1), (PWR_DOM.STATE 70, 2), (PWR_DOM.STATE 74, 2), (PWR_DOM.STATE 77, 2), (CHURN_CTL.LANE_EN, 65535), (PRESS_CTL.LANE_EN, 65535), (VEN_CTL.LANE_EN, 65535)] ({ State.reset with mem := Memory.writeN (Memory.writeN (Memory.writeN [] 64 (image 64 [(0, 2, 5), (8, 8, 4096)])) 65536 (image 16 [(0, 2, 0x8000), (2, 1, 1)])) 8192 (image 32 [(0, 1, 7)]) })), by decide +kernel⟩,
   ⟨holds .churn [desc 0 Op.decompress [(8, 8, 0xD00000008000), (16, 8, 0xD00000010000), (24, 4, 96), (28, 4, 8192), (34, 1, 2)] .started] (regs [(DDR_CFG.CAP_GIB, 16), (PAR_CTL.EN, 1), (PAR_TENANT_TABLE.BASE, 1), (SEP_CTL.EN, 1), (SEP_CTL.INLINE_EN, 1), (SEP_DOMAIN_BASE.BASE, 16), (SEP_INDEX_BASE.BASE, 32), (SEP_INDEX_CFG.LOG2_BUCKETS, 4), (SEP_SHARD.STATE 0, 2), (PAR_SHARD.STATE 0, 0), (CELL_SHARD.STATE 0, 2), (CHURN_CTL.EN, 1), (PRESS_CTL.EN, 1), (VEN_CTL.EN, 1), (PWR_DOM.STATE 70, 2), (PWR_DOM.STATE 74, 2), (PWR_DOM.STATE 77, 2), (CHURN_CTL.LANE_EN, 65535), (PRESS_CTL.LANE_EN, 65535), (VEN_CTL.LANE_EN, 65535)] ({ State.reset with mem := Memory.writeN (Memory.writeN (Memory.writeN [] 64 (image 64 [(0, 2, 5), (8, 8, 4096)])) 65536 (image 16 [(0, 2, 0x8000), (2, 1, 1)])) 8192 (image 32 [(0, 1, 7)]) })), ⟨0, 0⟩, desc 0 Op.decompress [(8, 8, 0xD00000008000), (16, 8, 0xD00000010000), (24, 4, 96), (28, 4, 8192), (34, 1, 2)] .started, zeros 96, holds .churn [desc 0 Op.decompress [(8, 8, 0xD00000008000), (16, 8, 0xD00000010000), (24, 4, 96), (28, 4, 8192), (34, 1, 2)] .started] (regs [(DDR_CFG.CAP_GIB, 16), (PAR_CTL.EN, 1), (PAR_TENANT_TABLE.BASE, 1), (SEP_CTL.EN, 1), (SEP_CTL.INLINE_EN, 1), (SEP_DOMAIN_BASE.BASE, 16), (SEP_INDEX_BASE.BASE, 32), (SEP_INDEX_CFG.LOG2_BUCKETS, 4), (SEP_SHARD.STATE 0, 2), (PAR_SHARD.STATE 0, 0), (CELL_SHARD.STATE 0, 2), (CHURN_CTL.EN, 1), (PRESS_CTL.EN, 1), (VEN_CTL.EN, 1), (PWR_DOM.STATE 70, 2), (PWR_DOM.STATE 74, 2), (PWR_DOM.STATE 77, 2), (CHURN_CTL.LANE_EN, 65535), (PRESS_CTL.LANE_EN, 65535), (VEN_CTL.LANE_EN, 65535)] ({ State.reset with mem := Memory.writeN (Memory.writeN (Memory.writeN [] 64 (image 64 [(0, 2, 5), (8, 8, 4096)])) 65536 (image 16 [(0, 2, 0x8000), (2, 1, 1)])) 8192 (image 32 [(0, 1, 7)]) })), by decide +kernel⟩⟩

theorem witness_ChurnDescriptors_2 :
  (∃ (s : State) (d : DescRef) (f : Fetched) (n : Nat), (s.startedAt .churn d Op.recast = some f) ∧ (takesLane s.churnTurn (.desc d) = true) ∧ (n = (f.imgs.map fun i => popCount (fieldAt i 35 1) 8).sum) ∧ (1 ≤ n) ∧ (n ≤ 8) ∧ (inVat f.dst = true)) ∧
  (∃ (s : State) (d : DescRef) (f : Fetched) (bs : List Byte), (s.startedAt .churn d Op.dictLoad = some f) ∧ (0 < f.len) ∧ (f.len ≤ 65536) ∧ (1 ≤ f.at 32 2) ∧ (f.at 32 2 ≤ 8191) ∧ (f.at 34 2 ≤ 4095) ∧ (s.dictUsed (f.at 32 2) = false) ∧ ((s.dmaRead .churn f.src f.len (some d.ring)).toOption = some bs) ∧ ((dictParse bs).toBool = true)) ∧
  (∃ (s : State) (d : DescRef) (f : Fetched), (s.startedAt .churn d Op.dictDrop = some f) ∧ ((s.dicts (f.at 32 2)).isSome = true) ∧ (s.dictUsed (f.at 32 2) = false)) ∧
  (∃ (s : State) (d : DescRef) (f : Fetched), (s.startedAt .churn d Op.dictDrop = some f) ∧ (s.dicts (f.at 32 2) = none)) :=
  ⟨⟨holds .churn [desc 0 Op.recast [(8, 8, 0xD00000008000), (24, 4, 96), (35, 1, 1), (16, 8, 0xD00000010000)] .started] (regs [(DDR_CFG.CAP_GIB, 16), (PAR_CTL.EN, 1), (PAR_TENANT_TABLE.BASE, 1), (SEP_CTL.EN, 1), (SEP_CTL.INLINE_EN, 1), (SEP_DOMAIN_BASE.BASE, 16), (SEP_INDEX_BASE.BASE, 32), (SEP_INDEX_CFG.LOG2_BUCKETS, 4), (SEP_SHARD.STATE 0, 2), (PAR_SHARD.STATE 0, 0), (CELL_SHARD.STATE 0, 2), (CHURN_CTL.EN, 1), (PRESS_CTL.EN, 1), (VEN_CTL.EN, 1), (PWR_DOM.STATE 70, 2), (PWR_DOM.STATE 74, 2), (PWR_DOM.STATE 77, 2), (CHURN_CTL.LANE_EN, 65535), (PRESS_CTL.LANE_EN, 65535), (VEN_CTL.LANE_EN, 65535)] ({ State.reset with mem := Memory.writeN (Memory.writeN (Memory.writeN [] 64 (image 64 [(0, 2, 5), (8, 8, 4096)])) 65536 (image 16 [(0, 2, 0x8000), (2, 1, 1)])) 8192 (image 32 [(0, 1, 7)]) })), ⟨0, 0⟩, desc 0 Op.recast [(8, 8, 0xD00000008000), (24, 4, 96), (35, 1, 1), (16, 8, 0xD00000010000)] .started, 1, by decide +kernel⟩,
   ⟨holds .churn [desc 0 Op.dictLoad [(8, 8, 8192), (24, 4, 16), (32, 2, 5), (34, 2, 0)] .started] (regs [(DDR_CFG.CAP_GIB, 16), (PAR_CTL.EN, 1), (PAR_TENANT_TABLE.BASE, 1), (SEP_CTL.EN, 1), (SEP_CTL.INLINE_EN, 1), (SEP_DOMAIN_BASE.BASE, 16), (SEP_INDEX_BASE.BASE, 32), (SEP_INDEX_CFG.LOG2_BUCKETS, 4), (SEP_SHARD.STATE 0, 2), (PAR_SHARD.STATE 0, 0), (CELL_SHARD.STATE 0, 2), (CHURN_CTL.EN, 1), (PRESS_CTL.EN, 1), (VEN_CTL.EN, 1), (PWR_DOM.STATE 70, 2), (PWR_DOM.STATE 74, 2), (PWR_DOM.STATE 77, 2), (CHURN_CTL.LANE_EN, 65535), (PRESS_CTL.LANE_EN, 65535), (VEN_CTL.LANE_EN, 65535)] ({ State.reset with mem := Memory.writeN (Memory.writeN (Memory.writeN [] 64 (image 64 [(0, 2, 5), (8, 8, 4096)])) 65536 (image 16 [(0, 2, 0x8000), (2, 1, 1)])) 8192 (image 32 [(0, 1, 7)]) })), ⟨0, 0⟩, desc 0 Op.dictLoad [(8, 8, 8192), (24, 4, 16), (32, 2, 5), (34, 2, 0)] .started, image 16 [(0, 1, 7)], by decide +kernel⟩,
   ⟨holds .churn [desc 0 Op.dictDrop [(32, 2, 5)] .started] (regs [(DDR_CFG.CAP_GIB, 16), (PAR_CTL.EN, 1), (PAR_TENANT_TABLE.BASE, 1), (SEP_CTL.EN, 1), (SEP_CTL.INLINE_EN, 1), (SEP_DOMAIN_BASE.BASE, 16), (SEP_INDEX_BASE.BASE, 32), (SEP_INDEX_CFG.LOG2_BUCKETS, 4), (SEP_SHARD.STATE 0, 2), (PAR_SHARD.STATE 0, 0), (CELL_SHARD.STATE 0, 2), (CHURN_CTL.EN, 1), (PRESS_CTL.EN, 1), (VEN_CTL.EN, 1), (PWR_DOM.STATE 70, 2), (PWR_DOM.STATE 74, 2), (PWR_DOM.STATE 77, 2), (CHURN_CTL.LANE_EN, 65535), (PRESS_CTL.LANE_EN, 65535), (VEN_CTL.LANE_EN, 65535)] ({ State.reset with mem := Memory.writeN (Memory.writeN (Memory.writeN [] 64 (image 64 [(0, 2, 5), (8, 8, 4096)])) 65536 (image 16 [(0, 2, 0x8000), (2, 1, 1)])) 8192 (image 32 [(0, 1, 7)]), churn := { dicts := [(5, { domain := 0, bytes := zeros 16, form := 0 })], onChip := [5] } })), ⟨0, 0⟩, desc 0 Op.dictDrop [(32, 2, 5)] .started, by decide +kernel⟩,
   ⟨holds .churn [desc 0 Op.dictDrop [(32, 2, 5)] .started] (regs [(DDR_CFG.CAP_GIB, 16), (PAR_CTL.EN, 1), (PAR_TENANT_TABLE.BASE, 1), (SEP_CTL.EN, 1), (SEP_CTL.INLINE_EN, 1), (SEP_DOMAIN_BASE.BASE, 16), (SEP_INDEX_BASE.BASE, 32), (SEP_INDEX_CFG.LOG2_BUCKETS, 4), (SEP_SHARD.STATE 0, 2), (PAR_SHARD.STATE 0, 0), (CELL_SHARD.STATE 0, 2), (CHURN_CTL.EN, 1), (PRESS_CTL.EN, 1), (VEN_CTL.EN, 1), (PWR_DOM.STATE 70, 2), (PWR_DOM.STATE 74, 2), (PWR_DOM.STATE 77, 2), (CHURN_CTL.LANE_EN, 65535), (PRESS_CTL.LANE_EN, 65535), (VEN_CTL.LANE_EN, 65535)] ({ State.reset with mem := Memory.writeN (Memory.writeN (Memory.writeN [] 64 (image 64 [(0, 2, 5), (8, 8, 4096)])) 65536 (image 16 [(0, 2, 0x8000), (2, 1, 1)])) 8192 (image 32 [(0, 1, 7)]) })), ⟨0, 0⟩, desc 0 Op.dictDrop [(32, 2, 5)] .started, by decide +kernel⟩⟩

theorem witness_ChurnDescriptors_3 :
  (∃ (s : State) (lane : Fin 16) (d : DescRef) (f : Fetched), ((s.churnLaneFault lane).fetchedAt .churn d = some f)) :=
  ⟨holds .churn [desc 0 Op.dictDrop [(32, 2, 5)] .started] (regs [(DDR_CFG.CAP_GIB, 16), (PAR_CTL.EN, 1), (PAR_TENANT_TABLE.BASE, 1), (SEP_CTL.EN, 1), (SEP_CTL.INLINE_EN, 1), (SEP_DOMAIN_BASE.BASE, 16), (SEP_INDEX_BASE.BASE, 32), (SEP_INDEX_CFG.LOG2_BUCKETS, 4), (SEP_SHARD.STATE 0, 2), (PAR_SHARD.STATE 0, 0), (CELL_SHARD.STATE 0, 2), (CHURN_CTL.EN, 1), (PRESS_CTL.EN, 1), (VEN_CTL.EN, 1), (PWR_DOM.STATE 70, 2), (PWR_DOM.STATE 74, 2), (PWR_DOM.STATE 77, 2), (CHURN_CTL.LANE_EN, 65535), (PRESS_CTL.LANE_EN, 65535), (VEN_CTL.LANE_EN, 65535)] ({ State.reset with mem := Memory.writeN (Memory.writeN (Memory.writeN [] 64 (image 64 [(0, 2, 5), (8, 8, 4096)])) 65536 (image 16 [(0, 2, 0x8000), (2, 1, 1)])) 8192 (image 32 [(0, 1, 7)]) })), 3, ⟨0, 0⟩, desc 0 Op.dictDrop [(32, 2, 5)] .started, by decide +kernel⟩

theorem witness_PressHashesAndCloses :
  (∃ (s : State) (d : DescRef) (f : Fetched) (bs : List Byte), (s.startedAt .press d Op.hash = some f) ∧ (s.pressBehind d (pressCtxOf f) = false) ∧ (s.hashCheck d f = none) ∧ (takesLane s.pressTurn (.desc d) = true) ∧ ((f.at 6 1).testBit 0 = true) ∧ ((f.at 6 1).testBit 1 = false) ∧ (f.len ≤ f.at 32 6) ∧ ((s.dmaRead .press f.src f.len (some d.ring)).toOption = some bs)) ∧
  (∃ (s : State) (d : DescRef) (f : Fetched) (bs r : List Byte), (s.startedAt .press d Op.hash = some f) ∧ (s.pressBehind d (pressCtxOf f) = false) ∧ (s.hashCheck d f = none) ∧ (takesLane s.pressTurn (.desc d) = true) ∧ (f.at 6 1 % 4 = 3) ∧ (f.len = f.at 32 6) ∧ (f.dst = 0) ∧ ((algOf (f.at 29 1)).map Alg.hmac = some false) ∧ ((s.dmaRead .press f.src f.len (some d.ring)).toOption = some bs) ∧ (r = digest (f.at 29 1) [] bs (f.at 40 4))) ∧
  (∃ (s : State) (d : DescRef) (f : Fetched) (bs : List Byte) (j : PressCtx) (t : State), (s.startedAt .press d Op.hash = some f) ∧ (s.pressBehind d (pressCtxOf f) = false) ∧ (s.hashCheck d f = none) ∧ (takesLane s.pressTurn (.desc d) = true) ∧ (j = s.hashJob f) ∧ (t = (s.openCtx d f).servedCtx (pressCtxOf f)) ∧ ((t.dmaRead .press f.src f.len (some d.ring)).toOption = some bs) ∧ ((f.at 6 1).testBit 1 = false) ∧ (j.data.length + f.len ≤ j.total)) ∧
  (∃ (s : State) (d : DescRef) (f : Fetched) (bs : List Byte) (j : PressCtx) (t : State), (s.startedAt .press d Op.hash = some f) ∧ (s.pressBehind d (pressCtxOf f) = false) ∧ (s.hashCheck d f = none) ∧ (takesLane s.pressTurn (.desc d) = true) ∧ (j = s.hashJob f) ∧ (t = (s.openCtx d f).servedCtx (pressCtxOf f)) ∧ ((t.dmaRead .press f.src f.len (some d.ring)).toOption = some bs) ∧ ((f.at 6 1).testBit 1 = true) ∧ (j.data.length + f.len = j.total)) :=
  ⟨⟨holds .press [desc 0 Op.hash [(6, 1, 1), (28, 1, 9), (29, 1, 2), (32, 6, 16), (8, 8, 8192), (24, 4, 8)] .started] (regs [(DDR_CFG.CAP_GIB, 16), (PRESS_CTL.EN, 1), (PRESS_CTL.LANE_EN, 65535), (PWR_DOM.STATE 74, 2), (RING_OWNER.ANY (unitBase .press) 0, 1)] ({ State.reset with mem := Memory.writeN [] 8192 (image 8 [(0, 1, 7)]) })), ⟨0, 0⟩, desc 0 Op.hash [(6, 1, 1), (28, 1, 9), (29, 1, 2), (32, 6, 16), (8, 8, 8192), (24, 4, 8)] .started, image 8 [(0, 1, 7)], by decide +kernel⟩,
   ⟨holds .press [desc 0 Op.hash [(6, 1, 3), (28, 1, 9), (29, 1, 2), (32, 6, 8), (8, 8, 8192), (24, 4, 8)] .started] (regs [(DDR_CFG.CAP_GIB, 16), (PRESS_CTL.EN, 1), (PRESS_CTL.LANE_EN, 65535), (PWR_DOM.STATE 74, 2), (RING_OWNER.ANY (unitBase .press) 0, 1)] ({ State.reset with mem := Memory.writeN [] 8192 (image 8 [(0, 1, 7)]) })), ⟨0, 0⟩, desc 0 Op.hash [(6, 1, 3), (28, 1, 9), (29, 1, 2), (32, 6, 8), (8, 8, 8192), (24, 4, 8)] .started, image 8 [(0, 1, 7)], digest 2 [] (image 8 [(0, 1, 7)]) 0, by decide +kernel⟩,
   ⟨holds .press [desc 0 Op.hash [(6, 1, 1), (28, 1, 9), (29, 1, 2), (32, 6, 16), (8, 8, 8192), (24, 4, 8)] .started] (regs [(DDR_CFG.CAP_GIB, 16), (PRESS_CTL.EN, 1), (PRESS_CTL.LANE_EN, 65535), (PWR_DOM.STATE 74, 2), (RING_OWNER.ANY (unitBase .press) 0, 1)] ({ State.reset with mem := Memory.writeN [] 8192 (image 8 [(0, 1, 7)]) })), ⟨0, 0⟩, desc 0 Op.hash [(6, 1, 1), (28, 1, 9), (29, 1, 2), (32, 6, 16), (8, 8, 8192), (24, 4, 8)] .started, image 8 [(0, 1, 7)], (holds .press [desc 0 Op.hash [(6, 1, 1), (28, 1, 9), (29, 1, 2), (32, 6, 16), (8, 8, 8192), (24, 4, 8)] .started] (regs [(DDR_CFG.CAP_GIB, 16), (PRESS_CTL.EN, 1), (PRESS_CTL.LANE_EN, 65535), (PWR_DOM.STATE 74, 2), (RING_OWNER.ANY (unitBase .press) 0, 1)] ({ State.reset with mem := Memory.writeN [] 8192 (image 8 [(0, 1, 7)]) }))).hashJob (desc 0 Op.hash [(6, 1, 1), (28, 1, 9), (29, 1, 2), (32, 6, 16), (8, 8, 8192), (24, 4, 8)] .started), ((holds .press [desc 0 Op.hash [(6, 1, 1), (28, 1, 9), (29, 1, 2), (32, 6, 16), (8, 8, 8192), (24, 4, 8)] .started] (regs [(DDR_CFG.CAP_GIB, 16), (PRESS_CTL.EN, 1), (PRESS_CTL.LANE_EN, 65535), (PWR_DOM.STATE 74, 2), (RING_OWNER.ANY (unitBase .press) 0, 1)] ({ State.reset with mem := Memory.writeN [] 8192 (image 8 [(0, 1, 7)]) }))).openCtx ⟨0, 0⟩ (desc 0 Op.hash [(6, 1, 1), (28, 1, 9), (29, 1, 2), (32, 6, 16), (8, 8, 8192), (24, 4, 8)] .started)).servedCtx 9, ⟨by decide +kernel, by decide +kernel, by decide +kernel, by decide +kernel, by decide +kernel, by first | with_reducible rfl | decide +kernel, by decide +kernel, by decide +kernel, by decide +kernel⟩⟩,
   ⟨holds .press [desc 0 Op.hash [(6, 1, 3), (28, 1, 9), (29, 1, 2), (32, 6, 8), (8, 8, 8192), (24, 4, 8)] .started] (regs [(DDR_CFG.CAP_GIB, 16), (PRESS_CTL.EN, 1), (PRESS_CTL.LANE_EN, 65535), (PWR_DOM.STATE 74, 2), (RING_OWNER.ANY (unitBase .press) 0, 1)] ({ State.reset with mem := Memory.writeN [] 8192 (image 8 [(0, 1, 7)]) })), ⟨0, 0⟩, desc 0 Op.hash [(6, 1, 3), (28, 1, 9), (29, 1, 2), (32, 6, 8), (8, 8, 8192), (24, 4, 8)] .started, image 8 [(0, 1, 7)], (holds .press [desc 0 Op.hash [(6, 1, 3), (28, 1, 9), (29, 1, 2), (32, 6, 8), (8, 8, 8192), (24, 4, 8)] .started] (regs [(DDR_CFG.CAP_GIB, 16), (PRESS_CTL.EN, 1), (PRESS_CTL.LANE_EN, 65535), (PWR_DOM.STATE 74, 2), (RING_OWNER.ANY (unitBase .press) 0, 1)] ({ State.reset with mem := Memory.writeN [] 8192 (image 8 [(0, 1, 7)]) }))).hashJob (desc 0 Op.hash [(6, 1, 3), (28, 1, 9), (29, 1, 2), (32, 6, 8), (8, 8, 8192), (24, 4, 8)] .started), ((holds .press [desc 0 Op.hash [(6, 1, 3), (28, 1, 9), (29, 1, 2), (32, 6, 8), (8, 8, 8192), (24, 4, 8)] .started] (regs [(DDR_CFG.CAP_GIB, 16), (PRESS_CTL.EN, 1), (PRESS_CTL.LANE_EN, 65535), (PWR_DOM.STATE 74, 2), (RING_OWNER.ANY (unitBase .press) 0, 1)] ({ State.reset with mem := Memory.writeN [] 8192 (image 8 [(0, 1, 7)]) }))).openCtx ⟨0, 0⟩ (desc 0 Op.hash [(6, 1, 3), (28, 1, 9), (29, 1, 2), (32, 6, 8), (8, 8, 8192), (24, 4, 8)] .started)).servedCtx 9, ⟨by decide +kernel, by decide +kernel, by decide +kernel, by decide +kernel, by decide +kernel, by first | with_reducible rfl | decide +kernel, by decide +kernel, by decide +kernel, by decide +kernel⟩⟩⟩

theorem witness_PressHashesAndCloses_2 :
  (∃ (s : State) (d : DescRef) (f : Fetched), (s.startedAt .press d Op.ctxClose = some f) ∧ (((s.ring .press d.ring).fetched.any fun g => g.slot != d.slot && g.phase != .fetched && pressCtxOf g == pressCtxOf f && g.opcode == Op.hash) = false) ∧ (pressCtxOf f ≤ 63) ∧ (s.pctxSt (pressCtxOf f) ≠ Pst.free) ∧ (s.rd (PRESS_CTX_STATUS.OWNER_RING (pressCtxOf f)) = d.ring)) ∧
  (∃ (s : State) (origin : Origin) (c : Fin 64) (w : Fin 8), (s.pctxSt c = Pst.done) ∧ (s.ringAccepts .press (s.rd (PRESS_CTX_STATUS.OWNER_RING c)) origin.toNat = true)) ∧
  (∃ (s : State) (origin : Origin) (c : Fin 64) (w : Fin 8), (s.pctxSt c = Pst.done) ∧ (s.ringAccepts .press (s.rd (PRESS_CTX_STATUS.OWNER_RING c)) origin.toNat = false)) ∧
  (∃ (s : State) (origin : Origin) (c : Fin 64) (w : Fin 8), (s.pctxSt c = Pst.free)) :=
  ⟨⟨holds .press [desc 0 Op.ctxClose [(28, 1, 9)] .started] (regs [(DDR_CFG.CAP_GIB, 16), (PRESS_CTL.EN, 1), (PRESS_CTL.LANE_EN, 65535), (PWR_DOM.STATE 74, 2), (RING_OWNER.ANY (unitBase .press) 0, 1), (PRESS_CTX_STATUS.STATE 9, 1)] ({ State.reset with mem := Memory.writeN [] 8192 (image 8 [(0, 1, 7)]) })), ⟨0, 0⟩, desc 0 Op.ctxClose [(28, 1, 9)] .started, by decide +kernel⟩,
   ⟨regs [(DDR_CFG.CAP_GIB, 16), (PRESS_CTL.EN, 1), (PRESS_CTL.LANE_EN, 65535), (PWR_DOM.STATE 74, 2), (RING_OWNER.ANY (unitBase .press) 0, 1), (PRESS_CTX_STATUS.STATE 9, 2)] ({ State.reset with mem := Memory.writeN [] 8192 (image 8 [(0, 1, 7)]) }), 0, 9, 3, by decide +kernel⟩,
   ⟨regs [(PRESS_CTX_STATUS.STATE 9, 2), (RING_OWNER.ANY (unitBase .press) 0, 0), (RING_OWNER.ORIGIN (unitBase .press) 0, 3)] State.reset, 6, 9, 3, by decide +kernel⟩,
   ⟨State.reset, 0, 9, 3, by decide +kernel⟩⟩

theorem witness_PressHashesAndCloses_3 :
  (∃ (s : State) (lane : Fin 16) (d : DescRef) (f : Fetched), ((s.pressLaneOut lane).fetchedAt .press d = some f) ∧ (f.phase = .started) ∧ ((s.pressLaneOut lane).hashCheck d f = none)) ∧
  (∃ (s : State) (lane : Fin 16) (c : Nat), (c < 64) ∧ (s.pctxSt c ≠ Pst.free)) ∧
  (∃ (s : State) (lane : Fin 16) (l : Legacy), (s.press.legacy = some l)) :=
  ⟨⟨holds .press [desc 0 Op.hash [(6, 1, 1), (28, 1, 9), (29, 1, 2), (32, 6, 16), (8, 8, 8192), (24, 4, 8)] .started] (regs [(DDR_CFG.CAP_GIB, 16), (PRESS_CTL.EN, 1), (PRESS_CTL.LANE_EN, 65535), (PWR_DOM.STATE 74, 2), (RING_OWNER.ANY (unitBase .press) 0, 1)] ({ State.reset with mem := Memory.writeN [] 8192 (image 8 [(0, 1, 7)]) })), 3, ⟨0, 0⟩, desc 0 Op.hash [(6, 1, 1), (28, 1, 9), (29, 1, 2), (32, 6, 16), (8, 8, 8192), (24, 4, 8)] .started, by decide +kernel⟩,
   ⟨regs [(PRESS_CTX_STATUS.STATE 9, 1)] State.reset, 3, 9, by decide +kernel⟩,
   ⟨State.reset.setLegacy (some { owner := 5, alg := 2, length := 8, idleAt := 0 }), 3, { owner := 5, alg := 2, length := 8, idleAt := 0 }, by decide +kernel⟩⟩

theorem witness_PressLegacyWordFeed :
  (∃ (s : State) (origin : Origin) (alg length : Nat) (l : Legacy), (s.on PRESS_CTL.LEG_EN = true) ∧ (s.press.legacy = some l) ∧ (l.owner = origin.toNat)) ∧
  (∃ (s : State) (origin : Origin) (alg length : Nat), (s.on PRESS_CTL.LEG_EN = true) ∧ (s.press.legacy = none)) ∧
  (∃ (s : State) (origin : Origin) (alg length : Nat) (l : Legacy), (s.on PRESS_CTL.LEG_EN = true) ∧ (s.press.legacy = some l) ∧ (l.owner ≠ origin.toNat)) ∧
  (∃ (s : State) (origin : Origin) (handle : Word) (l : Legacy) (x : Alg), (s.on PRESS_CTL.LEG_EN = true) ∧ (s.press.legacy = some l) ∧ (l.owner = origin.toNat) ∧ (l.err = 0) ∧ (algOf l.alg = some x) ∧ (s.keyCheck l.alg x handle.toNat false = none)) :=
  ⟨⟨(regs [(PRESS_CTL.LEG_EN, 1)] State.reset).setLegacy (some { owner := 5, alg := 2, length := 8, idleAt := 0 }), 5, 2, 8, { owner := 5, alg := 2, length := 8, idleAt := 0 }, by decide +kernel⟩,
   ⟨regs [(PRESS_CTL.LEG_EN, 1)] State.reset, 5, 2, 8, by decide +kernel⟩,
   ⟨(regs [(PRESS_CTL.LEG_EN, 1)] State.reset).setLegacy (some { owner := 5, alg := 2, length := 8, idleAt := 0 }), 6, 2, 8, { owner := 5, alg := 2, length := 8, idleAt := 0 }, by decide +kernel⟩,
   ⟨(regs [(PRESS_CTL.LEG_EN, 1)] State.reset).setLegacy (some { owner := 5, alg := 2, length := 8, idleAt := 0 }), 5, 0, { owner := 5, alg := 2, length := 8, idleAt := 0 }, (algOf 2).getD ⟨false, 0, 0⟩, by decide +kernel⟩⟩

theorem witness_PressLegacyWordFeed_2 :
  (∃ (s : State) (origin : Origin) (word : Word) (drained : Nat) (l : Legacy), (s.on PRESS_CTL.LEG_EN = true) ∧ (s.press.legacy = some l) ∧ (l.owner = origin.toNat) ∧ (l.err = 0) ∧ (l.keyed = true → l.key.isSome = true) ∧ (l.words < l.need) ∧ (l.fifo - drained < 32)) ∧
  (∃ (s : State) (origin : Origin) (word : Word) (drained : Nat) (l : Legacy), (s.on PRESS_CTL.LEG_EN = true) ∧ (s.press.legacy = some l) ∧ (l.owner = origin.toNat) ∧ (l.err = 0) ∧ (l.need ≤ l.words)) ∧
  (∃ (s : State) (origin : Origin) (l : Legacy), (s.on PRESS_CTL.LEG_EN = true) ∧ (s.press.legacy = some l) ∧ (l.owner = origin.toNat) ∧ (l.err = 0) ∧ (l.final = false) ∧ (l.done = false) ∧ (l.keyed = true → l.key.isSome = true) ∧ (l.need ≤ l.words)) ∧
  (∃ (s : State) (l : Legacy), (s.press.legacy = some l) ∧ (l.final = true) ∧ (takesLane s.pressTurn .legacy = true)) :=
  ⟨⟨(regs [(PRESS_CTL.LEG_EN, 1)] State.reset).setLegacy (some { owner := 5, alg := 2, length := 8, idleAt := 0 }), 5, 77, 0, { owner := 5, alg := 2, length := 8, idleAt := 0 }, by decide +kernel⟩,
   ⟨(regs [(PRESS_CTL.LEG_EN, 1)] State.reset).setLegacy (some { owner := 5, alg := 2, length := 0, idleAt := 0 }), 5, 77, 0, { owner := 5, alg := 2, length := 0, idleAt := 0 }, by decide +kernel⟩,
   ⟨(regs [(PRESS_CTL.LEG_EN, 1)] State.reset).setLegacy (some { owner := 5, alg := 2, length := 8, idleAt := 0, words := 1, data := zeros 8 }), 5, { owner := 5, alg := 2, length := 8, idleAt := 0, words := 1, data := zeros 8 }, by decide +kernel⟩,
   ⟨(regs [(PRESS_CTL.LEG_EN, 1), (PRESS_CTL.EN, 1), (PRESS_CTL.LANE_EN, 65535), (PWR_DOM.STATE 74, 2)] State.reset).setLegacy (some { owner := 5, alg := 2, length := 8, idleAt := 0, words := 1, data := zeros 8, final := true }), { owner := 5, alg := 2, length := 8, idleAt := 0, words := 1, data := zeros 8, final := true }, by decide +kernel⟩⟩

theorem witness_PressLegacyWordFeed_3 :
  (∃ (s : State) (origin : Origin) (w : Fin 8) (l : Legacy), (s.on PRESS_CTL.LEG_EN = true) ∧ (s.press.legacy = some l) ∧ (l.owner = origin.toNat) ∧ (l.done = false)) ∧
  (∃ (s : State) (origin : Origin) (w : Fin 8) (l : Legacy), (s.on PRESS_CTL.LEG_EN = true) ∧ (s.press.legacy = some l) ∧ (l.owner = origin.toNat) ∧ (l.done = true)) ∧
  (∃ (s : State) (origin : Origin) (w : Fin 8) (l : Legacy), (s.on PRESS_CTL.LEG_EN = true) ∧ (s.press.legacy = some l) ∧ (l.owner ≠ origin.toNat)) ∧
  (∃ (s : State) (origin : Origin) (l : Legacy), (s.on PRESS_CTL.LEG_EN = true) ∧ (s.press.legacy = some l) ∧ (l.owner = origin.toNat)) :=
  ⟨⟨(regs [(PRESS_CTL.LEG_EN, 1)] State.reset).setLegacy (some { owner := 5, alg := 2, length := 8, idleAt := 0 }), 5, 3, { owner := 5, alg := 2, length := 8, idleAt := 0 }, by decide +kernel⟩,
   ⟨(regs [(PRESS_CTL.LEG_EN, 1)] State.reset).setLegacy (some { owner := 5, alg := 2, length := 8, idleAt := 0, done := true }), 5, 3, { owner := 5, alg := 2, length := 8, idleAt := 0, done := true }, by decide +kernel⟩,
   ⟨(regs [(PRESS_CTL.LEG_EN, 1)] State.reset).setLegacy (some { owner := 5, alg := 2, length := 8, idleAt := 0, done := true }), 6, 3, { owner := 5, alg := 2, length := 8, idleAt := 0, done := true }, by decide +kernel⟩,
   ⟨(regs [(PRESS_CTL.LEG_EN, 1)] State.reset).setLegacy (some { owner := 5, alg := 2, length := 8, idleAt := 0, done := true }), 5, { owner := 5, alg := 2, length := 8, idleAt := 0, done := true }, by decide +kernel⟩⟩

theorem witness_PressLegacyWordFeed_4 :
  (∃ (s : State) (origin : Origin) (l : Legacy), (s.on PRESS_CTL.LEG_EN = true) ∧ (s.press.legacy = some l) ∧ (origin.toNat = 0x200)) ∧
  (∃ (s : State) (l : Legacy), (s.press.legacy = some l) ∧ (s.passed l.idleAt = true)) :=
  ⟨⟨(regs [(PRESS_CTL.LEG_EN, 1)] State.reset).setLegacy (some { owner := 5, alg := 2, length := 8, idleAt := 0, done := true }), 0x200, { owner := 5, alg := 2, length := 8, idleAt := 0, done := true }, by decide +kernel⟩,
   ⟨(regs [(PRESS_CTL.LEG_EN, 1)] State.reset).setLegacy (some { owner := 5, alg := 2, length := 8, idleAt := 0, done := true }), { owner := 5, alg := 2, length := 8, idleAt := 0, done := true }, by decide +kernel⟩⟩

theorem witness_IslandKeys :
  (∃ (s : State) (d : DescRef) (f : Fetched), (s.startedAt .sec d Op.random = some f) ∧ (s.secAnswers = true) ∧ (s.inOrder .sec d = true) ∧ (s.lifeAllows false = true) ∧ (0 < f.len) ∧ (f.len ≤ 4096) ∧ (s.on SEC_RNG_STATUS.FAIL = false)) ∧
  (∃ (s : State) (d : DescRef) (f : Fetched), (s.startedAt .sec d Op.keyGen = some f) ∧ (s.secAnswers = true) ∧ (s.inOrder .sec d = true) ∧ (s.lifeAllows true = true) ∧ (s.sec.kek.isSome = true) ∧ (f.len = 192) ∧ (f.at 28 1 = Cls.general) ∧ (f.at 30 2 < 1024) ∧ (keyLenOk Cls.general (f.at 32 1) = true) ∧ ((s.slot Cls.general (f.at 30 2)).key = none) ∧ ((s.slot Cls.general (f.at 30 2)).gen < 2 ^ 32 - 1) ∧ (s.on SEC_RNG_STATUS.FAIL = false)) ∧
  (∃ (s : State) (d : DescRef) (f : Fetched) (len tenant : Nat), (s.startedAt .sec d Op.keyGen = some f) ∧ (s.secAnswers = true) ∧ (s.inOrder .sec d = true) ∧ (s.lifeAllows true = true) ∧ (s.sec.kek.isSome = true) ∧ (len = if f.at 28 1 = Cls.tenant then 64 else if f.at 28 1 = Cls.domain then 32 else f.at 32 1) ∧ (tenant = if f.at 28 1 = Cls.tenant then f.at 30 2 else f.at 34 2) ∧ (f.len = 192) ∧ (slotOk f = true) ∧ (keyLenOk (f.at 28 1) len = true) ∧ (s.slotFull (f.at 28 1) (f.at 30 2) = false) ∧ ((s.slot (f.at 28 1) (f.at 30 2)).gen < 2 ^ 32 - 1) ∧ (s.on SEC_RNG_STATUS.FAIL = false)) ∧
  (∃ (s : State) (d : DescRef) (f : Fetched) (b : List Byte), (s.startedAt .sec d Op.keyLoad = some f) ∧ (s.secAnswers = true) ∧ (s.inOrder .sec d = true) ∧ (s.lifeAllows true = true) ∧ (s.sec.kek.isSome = true) ∧ (f.len = 192) ∧ (slotOk f = true) ∧ (s.slotFull (f.at 28 1) (f.at 30 2) = false) ∧ ((s.slot (f.at 28 1) (f.at 30 2)).gen < 2 ^ 32 - 1) ∧ ((s.dmaRead .sec f.src 192 (some d.ring)).toOption = some b)) :=
  ⟨⟨holds .sec [desc 0 Op.random [(24, 4, 16), (16, 8, 16384)] .started] (regs [(SEC_STATUS.IMAGES_OK, 1), (SEC_STATUS.LIFECYCLE, Life.provisioned), (SEC_STATUS.KEK, 1), (DDR_CFG.CAP_GIB, 16), (AUD_RING.LOG2_ENTRIES, 8), (VEN_CTL.LANE_EN, 65535), (VEN_CTL.EN, 1), (PWR_DOM.STATE 77, 2), (PWR_DOM.STATE 78, 2), (VEN_KEYTAB_BASE.BASE, 256)] { State.reset with sec := { kek := some (7, zeros 32) }, mem := Memory.writeN [] 8192 (image 32 [(0, 1, 7)]) }), ⟨0, 0⟩, desc 0 Op.random [(24, 4, 16), (16, 8, 16384)] .started, by decide +kernel⟩,
   ⟨holds .sec [desc 0 Op.keyGen [(24, 4, 192), (16, 8, 16384), (28, 1, 3), (30, 2, 9), (32, 1, 32), (34, 2, 5)] .started] (regs [(SEC_STATUS.IMAGES_OK, 1), (SEC_STATUS.LIFECYCLE, Life.provisioned), (SEC_STATUS.KEK, 1), (DDR_CFG.CAP_GIB, 16), (AUD_RING.LOG2_ENTRIES, 8), (VEN_CTL.LANE_EN, 65535), (VEN_CTL.EN, 1), (PWR_DOM.STATE 77, 2), (PWR_DOM.STATE 78, 2), (VEN_KEYTAB_BASE.BASE, 256)] { State.reset with sec := { kek := some (7, zeros 32) }, mem := Memory.writeN [] 8192 (image 32 [(0, 1, 7)]) }), ⟨0, 0⟩, desc 0 Op.keyGen [(24, 4, 192), (16, 8, 16384), (28, 1, 3), (30, 2, 9), (32, 1, 32), (34, 2, 5)] .started, by decide +kernel⟩,
   ⟨holds .sec [desc 0 Op.keyGen [(24, 4, 192), (16, 8, 16384), (28, 1, 1), (30, 2, 9)] .started] (regs [(SEC_STATUS.IMAGES_OK, 1), (SEC_STATUS.LIFECYCLE, Life.provisioned), (SEC_STATUS.KEK, 1), (DDR_CFG.CAP_GIB, 16), (AUD_RING.LOG2_ENTRIES, 8), (VEN_CTL.LANE_EN, 65535), (VEN_CTL.EN, 1), (PWR_DOM.STATE 77, 2), (PWR_DOM.STATE 78, 2), (VEN_KEYTAB_BASE.BASE, 256)] { State.reset with sec := { kek := some (7, zeros 32) }, mem := Memory.writeN [] 8192 (image 32 [(0, 1, 7)]) }), ⟨0, 0⟩, desc 0 Op.keyGen [(24, 4, 192), (16, 8, 16384), (28, 1, 1), (30, 2, 9)] .started, 64, 9, by decide +kernel⟩,
   ⟨holds .sec [desc 0 Op.keyLoad [(24, 4, 192), (8, 8, 8192), (28, 1, 3), (30, 2, 9)] .started] (regs [(SEC_STATUS.IMAGES_OK, 1), (SEC_STATUS.LIFECYCLE, Life.provisioned), (SEC_STATUS.KEK, 1), (DDR_CFG.CAP_GIB, 16), (AUD_RING.LOG2_ENTRIES, 8), (VEN_CTL.LANE_EN, 65535), (VEN_CTL.EN, 1), (PWR_DOM.STATE 77, 2), (PWR_DOM.STATE 78, 2), (VEN_KEYTAB_BASE.BASE, 256)] { State.reset with sec := { kek := some (7, zeros 32) }, mem := Memory.writeN [] 8192 (image 32 [(0, 1, 7)]) }), ⟨0, 0⟩, desc 0 Op.keyLoad [(24, 4, 192), (8, 8, 8192), (28, 1, 3), (30, 2, 9)] .started, image 192 [(0, 1, 7)], by decide +kernel⟩⟩

theorem witness_IslandKeys_2 :
  (∃ (s : State) (d : DescRef) (f : Fetched), (s.startedAt .sec d Op.keyDestroy = some f) ∧ (s.secAnswers = true) ∧ (s.inOrder .sec d = true) ∧ (s.lifeAllows true = true) ∧ (s.sec.kek.isSome = true) ∧ (f.at 28 1 = Cls.domain) ∧ (f.at 30 2 < 4096) ∧ ((s.slot Cls.domain (f.at 30 2)).key.isSome = true)) ∧
  (∃ (s : State) (d : DescRef) (f : Fetched), (s.startedAt .sec d Op.keyDestroy = some f) ∧ (s.secAnswers = true) ∧ (s.inOrder .sec d = true) ∧ (s.lifeAllows true = true) ∧ (s.sec.kek.isSome = true) ∧ (slotOk f = true) ∧ (s.slotFull (f.at 28 1) (f.at 30 2) = true)) ∧
  (∃ (s : State) (d : DescRef) (f : Fetched) (k : KeySlot) (key : List Byte), (s.startedAt .sec d Op.keyExport = some f) ∧ (s.secAnswers = true) ∧ (s.inOrder .sec d = true) ∧ (s.lifeAllows true = true) ∧ (s.sec.kek.isSome = true) ∧ (f.len = 192) ∧ (f.at 28 1 = Cls.domain) ∧ (f.at 30 2 < 4096) ∧ (k = s.slot Cls.domain (f.at 30 2)) ∧ (k.key = some key)) ∧
  (∃ (s : State) (d : DescRef) (f : Fetched), (s.startedAt .sec d Op.keyExport = some f) ∧ (s.secAnswers = true) ∧ (s.inOrder .sec d = true) ∧ (s.lifeAllows true = true) ∧ (s.sec.kek.isSome = true) ∧ (f.len = 192) ∧ (f.at 28 1 = Cls.tenant) ∧ (slotOk f = true) ∧ (s.slotFull Cls.tenant (f.at 30 2) = true)) :=
  ⟨⟨holds .sec [desc 0 Op.keyDestroy [(28, 1, 2), (30, 2, 9)] .started] (regs [(SEC_STATUS.IMAGES_OK, 1), (SEC_STATUS.LIFECYCLE, Life.provisioned), (SEC_STATUS.KEK, 1), (DDR_CFG.CAP_GIB, 16), (AUD_RING.LOG2_ENTRIES, 8), (VEN_CTL.LANE_EN, 65535), (VEN_CTL.EN, 1), (PWR_DOM.STATE 77, 2), (PWR_DOM.STATE 78, 2), (VEN_KEYTAB_BASE.BASE, 256)] { State.reset with sec := { kek := some (7, zeros 32), slots := [(slotKey 2 9, { key := some (zeros 32), gen := 4 })] }, mem := Memory.writeN [] 8192 (image 32 [(0, 1, 7)]) }), ⟨0, 0⟩, desc 0 Op.keyDestroy [(28, 1, 2), (30, 2, 9)] .started, by decide +kernel⟩,
   ⟨holds .sec [desc 0 Op.keyDestroy [(28, 1, 2), (30, 2, 9)] .started] (regs [(SEC_STATUS.IMAGES_OK, 1), (SEC_STATUS.LIFECYCLE, Life.provisioned), (SEC_STATUS.KEK, 1), (DDR_CFG.CAP_GIB, 16), (AUD_RING.LOG2_ENTRIES, 8), (VEN_CTL.LANE_EN, 65535), (VEN_CTL.EN, 1), (PWR_DOM.STATE 77, 2), (PWR_DOM.STATE 78, 2), (VEN_KEYTAB_BASE.BASE, 256)] { State.reset with sec := { kek := some (7, zeros 32), slots := [(slotKey 2 9, { key := some (zeros 32), gen := 4 })] }, mem := Memory.writeN [] 8192 (image 32 [(0, 1, 7)]) }), ⟨0, 0⟩, desc 0 Op.keyDestroy [(28, 1, 2), (30, 2, 9)] .started, by decide +kernel⟩,
   ⟨holds .sec [desc 0 Op.keyExport [(28, 1, 2), (30, 2, 9), (24, 4, 192), (16, 8, 16384)] .started] (regs [(SEC_STATUS.IMAGES_OK, 1), (SEC_STATUS.LIFECYCLE, Life.provisioned), (SEC_STATUS.KEK, 1), (DDR_CFG.CAP_GIB, 16), (AUD_RING.LOG2_ENTRIES, 8), (VEN_CTL.LANE_EN, 65535), (VEN_CTL.EN, 1), (PWR_DOM.STATE 77, 2), (PWR_DOM.STATE 78, 2), (VEN_KEYTAB_BASE.BASE, 256)] { State.reset with sec := { kek := some (7, zeros 32), slots := [(slotKey 2 9, { key := some (zeros 32), gen := 4 })] }, mem := Memory.writeN [] 8192 (image 32 [(0, 1, 7)]) }), ⟨0, 0⟩, desc 0 Op.keyExport [(28, 1, 2), (30, 2, 9), (24, 4, 192), (16, 8, 16384)] .started, { key := some (zeros 32), gen := 4 }, zeros 32, by decide +kernel⟩,
   ⟨holds .sec [desc 0 Op.keyExport [(28, 1, 1), (30, 2, 9), (24, 4, 192), (16, 8, 16384)] .started] (regs [(SEC_STATUS.IMAGES_OK, 1), (SEC_STATUS.LIFECYCLE, Life.provisioned), (SEC_STATUS.KEK, 1), (DDR_CFG.CAP_GIB, 16), (AUD_RING.LOG2_ENTRIES, 8), (VEN_CTL.LANE_EN, 65535), (VEN_CTL.EN, 1), (PWR_DOM.STATE 77, 2), (PWR_DOM.STATE 78, 2), (VEN_KEYTAB_BASE.BASE, 256)] { State.reset with sec := { kek := some (7, zeros 32) }, mem := Memory.writeN [] (256 * 4096 + 9 * 128) (image 16 [(0, 1, 1)]) }), ⟨0, 0⟩, desc 0 Op.keyExport [(28, 1, 1), (30, 2, 9), (24, 4, 192), (16, 8, 16384)] .started, by decide +kernel⟩⟩

theorem witness_IslandKeys_3 :
  (∃ (s : State) (d : DescRef) (f : Fetched) (k : KeySlot) (key : List Byte), (s.startedAt .sec d Op.keyExport = some f) ∧ (s.secAnswers = true) ∧ (s.inOrder .sec d = true) ∧ (s.lifeAllows true = true) ∧ (s.sec.kek.isSome = true) ∧ (f.len = 192) ∧ (f.at 28 1 ≠ Cls.tenant) ∧ (slotOk f = true) ∧ (k = s.slot (f.at 28 1) (f.at 30 2)) ∧ (k.key = some key)) ∧
  (∃ (s : State) (d : DescRef) (f : Fetched), (s.startedAt .sec d Op.kekCreate = some f) ∧ (s.secAnswers = true) ∧ (s.inOrder .sec d = true) ∧ (s.lifeAllows true = true) ∧ (f.len = 128) ∧ (s.sec.kek = none) ∧ (s.on SEC_RNG_STATUS.FAIL = false)) ∧
  (∃ (s : State) (d : DescRef) (f : Fetched) (b : List Byte), (s.startedAt .sec d Op.kekUnseal = some f) ∧ (s.secAnswers = true) ∧ (s.inOrder .sec d = true) ∧ (s.lifeAllows true = true) ∧ (f.len = 128) ∧ ((s.dmaRead .sec f.src 128 (some d.ring)).toOption = some b)) ∧
  (∃ (s : State) (d : DescRef) (f : Fetched), (s.startedAt .sec d Op.pairOffer = some f) ∧ (s.secAnswers = true) ∧ (s.inOrder .sec d = true) ∧ (s.lifeAllows true = true) ∧ (f.len = 512) ∧ (s.on SEC_RNG_STATUS.FAIL = false)) :=
  ⟨⟨holds .sec [desc 0 Op.keyExport [(28, 1, 2), (30, 2, 9), (24, 4, 192), (16, 8, 16384)] .started] (regs [(SEC_STATUS.IMAGES_OK, 1), (SEC_STATUS.LIFECYCLE, Life.provisioned), (SEC_STATUS.KEK, 1), (DDR_CFG.CAP_GIB, 16), (AUD_RING.LOG2_ENTRIES, 8), (VEN_CTL.LANE_EN, 65535), (VEN_CTL.EN, 1), (PWR_DOM.STATE 77, 2), (PWR_DOM.STATE 78, 2), (VEN_KEYTAB_BASE.BASE, 256)] { State.reset with sec := { kek := some (7, zeros 32), slots := [(slotKey 2 9, { key := some (zeros 32), gen := 4 })] }, mem := Memory.writeN [] 8192 (image 32 [(0, 1, 7)]) }), ⟨0, 0⟩, desc 0 Op.keyExport [(28, 1, 2), (30, 2, 9), (24, 4, 192), (16, 8, 16384)] .started, { key := some (zeros 32), gen := 4 }, zeros 32, by decide +kernel⟩,
   ⟨holds .sec [desc 0 Op.kekCreate [(24, 4, 128), (16, 8, 16384)] .started] (regs [(SEC_STATUS.IMAGES_OK, 1), (SEC_STATUS.LIFECYCLE, Life.provisioned), (SEC_STATUS.KEK, 1), (DDR_CFG.CAP_GIB, 16), (AUD_RING.LOG2_ENTRIES, 8), (VEN_CTL.LANE_EN, 65535), (VEN_CTL.EN, 1), (PWR_DOM.STATE 77, 2), (PWR_DOM.STATE 78, 2), (VEN_KEYTAB_BASE.BASE, 256)] { State.reset with sec := { drbgCount := 0 }, mem := Memory.writeN [] 8192 (image 32 [(0, 1, 7)]) }), ⟨0, 0⟩, desc 0 Op.kekCreate [(24, 4, 128), (16, 8, 16384)] .started, by decide +kernel⟩,
   ⟨holds .sec [desc 0 Op.kekUnseal [(24, 4, 128), (8, 8, 8192)] .started] (regs [(SEC_STATUS.IMAGES_OK, 1), (SEC_STATUS.LIFECYCLE, Life.provisioned), (SEC_STATUS.KEK, 1), (DDR_CFG.CAP_GIB, 16), (AUD_RING.LOG2_ENTRIES, 8), (VEN_CTL.LANE_EN, 65535), (VEN_CTL.EN, 1), (PWR_DOM.STATE 77, 2), (PWR_DOM.STATE 78, 2), (VEN_KEYTAB_BASE.BASE, 256)] { State.reset with sec := { kek := some (7, zeros 32) }, mem := Memory.writeN [] 8192 (image 32 [(0, 1, 7)]) }), ⟨0, 0⟩, desc 0 Op.kekUnseal [(24, 4, 128), (8, 8, 8192)] .started, image 128 [(0, 1, 7)], by decide +kernel⟩,
   ⟨holds .sec [desc 0 Op.pairOffer [(24, 4, 512), (16, 8, 16384)] .started] (regs [(SEC_STATUS.IMAGES_OK, 1), (SEC_STATUS.LIFECYCLE, Life.provisioned), (SEC_STATUS.KEK, 1), (DDR_CFG.CAP_GIB, 16), (AUD_RING.LOG2_ENTRIES, 8), (VEN_CTL.LANE_EN, 65535), (VEN_CTL.EN, 1), (PWR_DOM.STATE 77, 2), (PWR_DOM.STATE 78, 2), (VEN_KEYTAB_BASE.BASE, 256)] { State.reset with sec := { kek := some (7, zeros 32) }, mem := Memory.writeN [] 8192 (image 32 [(0, 1, 7)]) }), ⟨0, 0⟩, desc 0 Op.pairOffer [(24, 4, 512), (16, 8, 16384)] .started, by decide +kernel⟩⟩

theorem witness_IslandKeys_4 :
  (∃ (s : State) (d : DescRef) (f : Fetched) (certKey : Option (List (BitVec 8))) (m x : List Byte) (id : Nat) (kek : List Byte), (s.startedAt .sec d Op.pairSend = some f) ∧ (s.secAnswers = true) ∧ (s.inOrder .sec d = true) ∧ (s.lifeAllows true = true) ∧ (f.len = 512) ∧ (s.on SEC_RNG_STATUS.FAIL = false) ∧ (s.sec.kek = some (id, kek)) ∧ ((s.dmaRead .sec f.src 512 (some d.ring)).toOption = some m) ∧ ((s.dmaRead .sec (f.at 32 8) (f.at 40 4) (some d.ring)).toOption = some x)) ∧
  (∃ (s : State) (d : DescRef) (f : Fetched) (certKey : Option (List (BitVec 8))) (m x priv : List Byte), (s.startedAt .sec d Op.pairReceive = some f) ∧ (s.secAnswers = true) ∧ (s.inOrder .sec d = true) ∧ (s.lifeAllows true = true) ∧ (f.len = 512) ∧ (s.on SEC_RNG_STATUS.FAIL = false) ∧ (s.sec.pairKey = some priv) ∧ ((s.dmaRead .sec f.src 512 (some d.ring)).toOption = some m) ∧ ((s.dmaRead .sec (f.at 32 8) (f.at 40 4) (some d.ring)).toOption = some x)) :=
  ⟨⟨holds .sec [desc 0 Op.pairSend [(24, 4, 512), (8, 8, 8192), (16, 8, 16384), (32, 8, 8192), (40, 4, 16)] .started] (regs [(SEC_STATUS.IMAGES_OK, 1), (SEC_STATUS.LIFECYCLE, Life.provisioned), (SEC_STATUS.KEK, 1), (DDR_CFG.CAP_GIB, 16), (AUD_RING.LOG2_ENTRIES, 8), (VEN_CTL.LANE_EN, 65535), (VEN_CTL.EN, 1), (PWR_DOM.STATE 77, 2), (PWR_DOM.STATE 78, 2), (VEN_KEYTAB_BASE.BASE, 256)] { State.reset with sec := { kek := some (7, zeros 32) }, mem := Memory.writeN [] 8192 (image 32 [(0, 1, 7)]) }), ⟨0, 0⟩, desc 0 Op.pairSend [(24, 4, 512), (8, 8, 8192), (16, 8, 16384), (32, 8, 8192), (40, 4, 16)] .started, none, image 512 [(0, 1, 7)], image 16 [(0, 1, 7)], 7, zeros 32, by decide +kernel⟩,
   ⟨holds .sec [desc 0 Op.pairReceive [(24, 4, 512), (8, 8, 8192), (16, 8, 16384), (32, 8, 8192), (40, 4, 16)] .started] (regs [(SEC_STATUS.IMAGES_OK, 1), (SEC_STATUS.LIFECYCLE, Life.provisioned), (SEC_STATUS.KEK, 1), (DDR_CFG.CAP_GIB, 16), (AUD_RING.LOG2_ENTRIES, 8), (VEN_CTL.LANE_EN, 65535), (VEN_CTL.EN, 1), (PWR_DOM.STATE 77, 2), (PWR_DOM.STATE 78, 2), (VEN_KEYTAB_BASE.BASE, 256)] { State.reset with sec := { pairKey := some (zeros 56) }, mem := Memory.writeN [] 8192 (image 32 [(0, 1, 7)]) }), ⟨0, 0⟩, desc 0 Op.pairReceive [(24, 4, 512), (8, 8, 8192), (16, 8, 16384), (32, 8, 8192), (40, 4, 16)] .started, none, image 512 [(0, 1, 7)], image 16 [(0, 1, 7)], zeros 56, by decide +kernel⟩⟩

theorem witness_IslandLocksAttestationLifecycle :
  (∃ (s : State) (d : DescRef) (f : Fetched), (s.startedAt .sec d Op.lockSet = some f) ∧ (s.secAnswers = true) ∧ (s.inOrder .sec d = true) ∧ (s.lifeAllows false = true)) ∧
  (∃ (s : State) (d : DescRef) (f : Fetched), (s.startedAt .sec d Op.lockClear = some f) ∧ (s.secAnswers = true) ∧ (s.inOrder .sec d = true) ∧ (s.lifeAllows false = true) ∧ (s.rd SEC_STATUS.LIFECYCLE ≠ Life.deployed)) ∧
  (∃ (s : State) (d : DescRef) (f : Fetched), (s.startedAt .sec d Op.lockClear = some f) ∧ (s.secAnswers = true) ∧ (s.inOrder .sec d = true) ∧ (s.lifeAllows false = true) ∧ (s.rd SEC_STATUS.LIFECYCLE = Life.deployed) ∧ (f.len = 256)) ∧
  (∃ (s : State) (mask v : Nat) (u : UnitId), (u ∈ allUnits) ∧ (mask.testBit (4 * unitN u + unitK u) = true) ∧ (v < 2)) :=
  ⟨⟨holds .sec [desc 0 Op.lockSet [(48, 8, 2)] .started] (regs [(SEC_STATUS.IMAGES_OK, 1), (SEC_STATUS.LIFECYCLE, Life.provisioned), (SEC_STATUS.KEK, 1), (DDR_CFG.CAP_GIB, 16), (AUD_RING.LOG2_ENTRIES, 8), (VEN_CTL.LANE_EN, 65535), (VEN_CTL.EN, 1), (PWR_DOM.STATE 77, 2), (PWR_DOM.STATE 78, 2), (VEN_KEYTAB_BASE.BASE, 256)] { State.reset with sec := { kek := some (7, zeros 32) }, mem := Memory.writeN [] 8192 (image 32 [(0, 1, 7)]) }), ⟨0, 0⟩, desc 0 Op.lockSet [(48, 8, 2)] .started, by decide +kernel⟩,
   ⟨holds .sec [desc 0 Op.lockClear [(48, 8, 2)] .started] (regs [(SEC_STATUS.IMAGES_OK, 1), (SEC_STATUS.LIFECYCLE, Life.provisioned), (SEC_STATUS.KEK, 1), (DDR_CFG.CAP_GIB, 16), (AUD_RING.LOG2_ENTRIES, 8), (VEN_CTL.LANE_EN, 65535), (VEN_CTL.EN, 1), (PWR_DOM.STATE 77, 2), (PWR_DOM.STATE 78, 2), (VEN_KEYTAB_BASE.BASE, 256)] { State.reset with sec := { kek := some (7, zeros 32) }, mem := Memory.writeN [] 8192 (image 32 [(0, 1, 7)]) }), ⟨0, 0⟩, desc 0 Op.lockClear [(48, 8, 2)] .started, by decide +kernel⟩,
   ⟨holds .sec [desc 0 Op.lockClear [(48, 8, 2), (24, 4, 256), (8, 8, 8192)] .started] (regs [(SEC_STATUS.IMAGES_OK, 1), (SEC_STATUS.LIFECYCLE, Life.deployed), (SEC_STATUS.KEK, 1), (DDR_CFG.CAP_GIB, 16), (AUD_RING.LOG2_ENTRIES, 8), (VEN_CTL.LANE_EN, 65535), (VEN_CTL.EN, 1), (PWR_DOM.STATE 77, 2), (PWR_DOM.STATE 78, 2), (VEN_KEYTAB_BASE.BASE, 256)] { State.reset with sec := { kek := some (7, zeros 32) }, mem := Memory.writeN [] 8192 (image 32 [(0, 1, 7)]) }), ⟨0, 0⟩, desc 0 Op.lockClear [(48, 8, 2), (24, 4, 256), (8, 8, 8192)] .started, by decide +kernel⟩,
   ⟨State.reset, 2 ^ (4 * unitN .sec + unitK .sec), 1, .sec, by decide +kernel⟩⟩

theorem witness_IslandLocksAttestationLifecycle_2 :
  (∃ (s : State) (d : DescRef) (f : Fetched) (nonce : List Byte), (s.startedAt .sec d Op.attest = some f) ∧ (s.secAnswers = true) ∧ (s.inOrder .sec d = true) ∧ (s.lifeAllows true = true) ∧ (f.len = 512) ∧ (1 ≤ f.at 28 1) ∧ (f.at 28 1 ≤ 64) ∧ ((s.dmaRead .sec f.src (f.at 28 1) (some d.ring)).toOption = some nonce)) ∧
  (∃ (s : State) (d : DescRef) (f : Fetched), (s.startedAt .sec d Op.certRead = some f) ∧ (s.secAnswers = true) ∧ (s.inOrder .sec d = true) ∧ (s.lifeAllows false = true) ∧ (f.at 28 1 ≤ 3)) ∧
  (∃ (s : State) (d : DescRef) (f : Fetched), (s.startedAt .sec d Op.lifecycleAdvance = some f) ∧ (s.secAnswers = true) ∧ (s.inOrder .sec d = true) ∧ (s.lifeAllows false = true) ∧ (s.rd SEC_STATUS.LIFECYCLE = Life.provisioned) ∧ (f.at 28 1 = Life.deployed) ∧ (f.len = 0 ∨ f.len = 256)) ∧
  (∃ (s : State) (d : DescRef) (f : Fetched), (s.startedAt .sec d Op.lifecycleAdvance = some f) ∧ (s.secAnswers = true) ∧ (s.inOrder .sec d = true) ∧ (s.lifeAllows false = true) ∧ (s.lifeStep (f.at 28 1) = true) ∧ (f.at 28 1 ≠ Life.rma) ∧ (f.len = 0 ∨ f.len = 256)) :=
  ⟨⟨holds .sec [desc 0 Op.attest [(28, 1, 16), (24, 4, 512), (8, 8, 8192), (16, 8, 16384)] .started] (regs [(SEC_STATUS.IMAGES_OK, 1), (SEC_STATUS.LIFECYCLE, Life.provisioned), (SEC_STATUS.KEK, 1), (DDR_CFG.CAP_GIB, 16), (AUD_RING.LOG2_ENTRIES, 8), (VEN_CTL.LANE_EN, 65535), (VEN_CTL.EN, 1), (PWR_DOM.STATE 77, 2), (PWR_DOM.STATE 78, 2), (VEN_KEYTAB_BASE.BASE, 256)] { State.reset with sec := { kek := some (7, zeros 32) }, mem := Memory.writeN [] 8192 (image 32 [(0, 1, 7)]) }), ⟨0, 0⟩, desc 0 Op.attest [(28, 1, 16), (24, 4, 512), (8, 8, 8192), (16, 8, 16384)] .started, image 16 [(0, 1, 7)], by decide +kernel⟩,
   ⟨holds .sec [desc 0 Op.certRead [(24, 4, 512), (16, 8, 16384), (28, 1, 2)] .started] (regs [(SEC_STATUS.IMAGES_OK, 1), (SEC_STATUS.LIFECYCLE, Life.provisioned), (SEC_STATUS.KEK, 1), (DDR_CFG.CAP_GIB, 16), (AUD_RING.LOG2_ENTRIES, 8), (VEN_CTL.LANE_EN, 65535), (VEN_CTL.EN, 1), (PWR_DOM.STATE 77, 2), (PWR_DOM.STATE 78, 2), (VEN_KEYTAB_BASE.BASE, 256)] { State.reset with sec := { kek := some (7, zeros 32) }, mem := Memory.writeN [] 8192 (image 32 [(0, 1, 7)]) }), ⟨0, 0⟩, desc 0 Op.certRead [(24, 4, 512), (16, 8, 16384), (28, 1, 2)] .started, by decide +kernel⟩,
   ⟨holds .sec [desc 0 Op.lifecycleAdvance [(28, 1, Life.deployed)] .started] (regs [(SEC_STATUS.IMAGES_OK, 1), (SEC_STATUS.LIFECYCLE, Life.provisioned), (SEC_STATUS.KEK, 1), (DDR_CFG.CAP_GIB, 16), (AUD_RING.LOG2_ENTRIES, 8), (VEN_CTL.LANE_EN, 65535), (VEN_CTL.EN, 1), (PWR_DOM.STATE 77, 2), (PWR_DOM.STATE 78, 2), (VEN_KEYTAB_BASE.BASE, 256)] { State.reset with sec := { kek := some (7, zeros 32) }, mem := Memory.writeN [] 8192 (image 32 [(0, 1, 7)]) }), ⟨0, 0⟩, desc 0 Op.lifecycleAdvance [(28, 1, Life.deployed)] .started, by decide +kernel⟩,
   ⟨holds .sec [desc 0 Op.lifecycleAdvance [(28, 1, Life.deployed)] .started] (regs [(SEC_STATUS.IMAGES_OK, 1), (SEC_STATUS.LIFECYCLE, Life.provisioned), (SEC_STATUS.KEK, 1), (DDR_CFG.CAP_GIB, 16), (AUD_RING.LOG2_ENTRIES, 8), (VEN_CTL.LANE_EN, 65535), (VEN_CTL.EN, 1), (PWR_DOM.STATE 77, 2), (PWR_DOM.STATE 78, 2), (VEN_KEYTAB_BASE.BASE, 256)] { State.reset with sec := { kek := some (7, zeros 32) }, mem := Memory.writeN [] 8192 (image 32 [(0, 1, 7)]) }), ⟨0, 0⟩, desc 0 Op.lifecycleAdvance [(28, 1, Life.deployed)] .started, by decide +kernel⟩⟩

theorem witness_IslandLocksAttestationLifecycle_3 :
  (∃ (s : State) (d : DescRef) (f : Fetched), (s.startedAt .sec d Op.lifecycleAdvance = some f) ∧ (s.secAnswers = true) ∧ (s.inOrder .sec d = true) ∧ (s.lifeAllows false = true) ∧ (s.lifeStep Life.rma = true) ∧ (f.at 28 1 = Life.rma) ∧ (f.len = 256)) ∧
  (∃ (s : State) (d : DescRef) (f : Fetched), (s.startedAt .sec d Op.lifecycleAdvance = some f) ∧ (s.secAnswers = true) ∧ (s.inOrder .sec d = true) ∧ (s.lifeAllows false = true) ∧ (s.lifeStep (f.at 28 1) = false)) ∧
  (∃ (s : State) (proportion : Bool), (s.on SEC_RNG_STATUS.FAIL = false)) ∧
  (∃ (s : State) (q : Sec), (2 ^ 20 ≤ s.sec.drbgCount) ∧ (q = { s.sec with drbgCount := 0 })) :=
  ⟨⟨holds .sec [desc 0 Op.lifecycleAdvance [(28, 1, Life.rma), (24, 4, 256), (8, 8, 8192)] .started] (regs [(SEC_STATUS.IMAGES_OK, 1), (SEC_STATUS.LIFECYCLE, Life.provisioned), (SEC_STATUS.KEK, 1), (DDR_CFG.CAP_GIB, 16), (AUD_RING.LOG2_ENTRIES, 8), (VEN_CTL.LANE_EN, 65535), (VEN_CTL.EN, 1), (PWR_DOM.STATE 77, 2), (PWR_DOM.STATE 78, 2), (VEN_KEYTAB_BASE.BASE, 256)] { State.reset with sec := { kek := some (7, zeros 32) }, mem := Memory.writeN [] 8192 (image 32 [(0, 1, 7)]) }), ⟨0, 0⟩, desc 0 Op.lifecycleAdvance [(28, 1, Life.rma), (24, 4, 256), (8, 8, 8192)] .started, by decide +kernel⟩,
   ⟨holds .sec [desc 0 Op.lifecycleAdvance [(28, 1, 0)] .started] (regs [(SEC_STATUS.IMAGES_OK, 1), (SEC_STATUS.LIFECYCLE, Life.provisioned), (SEC_STATUS.KEK, 1), (DDR_CFG.CAP_GIB, 16), (AUD_RING.LOG2_ENTRIES, 8), (VEN_CTL.LANE_EN, 65535), (VEN_CTL.EN, 1), (PWR_DOM.STATE 77, 2), (PWR_DOM.STATE 78, 2), (VEN_KEYTAB_BASE.BASE, 256)] { State.reset with sec := { kek := some (7, zeros 32) }, mem := Memory.writeN [] 8192 (image 32 [(0, 1, 7)]) }), ⟨0, 0⟩, desc 0 Op.lifecycleAdvance [(28, 1, 0)] .started, by decide +kernel⟩,
   ⟨State.reset, true, by decide +kernel⟩,
   ⟨{ State.reset with sec := { drbgCount := 1048576 } }, {}, by decide +kernel⟩⟩

theorem witness_IslandLocksAttestationLifecycle_4 :
  (∃ (s : State) (v : Nat) (q : Sec), (s.on SEC_STATUS.DEBUG_OPEN = false) ∧ (q = { s.sec with tap := some (.other v, false) })) ∧
  (∃ (s : State) (v : Nat) (q : Sec), (s.on SEC_STATUS.DEBUG_OPEN = true) ∧ (q = { s.sec with tap := some (.other v, true) })) ∧
  (∃ (s : State) (x : TapInsn) (ok : Bool) (q : Sec), (ok = match x with | .other _ => s.on SEC_STATUS.DEBUG_OPEN | _ => true) ∧ (q = { s.sec with tap := some (x, ok) })) ∧
  (∃ (s : State) (q : Sec), (q = { s.sec with tap := some (.bypass, true) })) :=
  ⟨⟨State.reset, 9, { tap := some (.other 9, false) }, by decide +kernel⟩,
   ⟨regs [(SEC_STATUS.DEBUG_OPEN, 1)] State.reset, 9, { tap := some (.other 9, true) }, by decide +kernel⟩,
   ⟨State.reset, .bypass, true, { tap := some (.bypass, true) }, by decide +kernel⟩,
   ⟨State.reset, { tap := some (.bypass, true) }, by decide +kernel⟩⟩

theorem witness_VeneerJobsAndTheAuditJournal :
  (∃ (s : State) (d : DescRef) (f : Fetched) (key : List Byte) (t : State), (s.startedAt .ven d Op.encrypt = some f) ∧ (venCheck f = none) ∧ (takesLane s.venTurn (.desc d) = true) ∧ (s.cached f.tenant = some (key, t))) ∧
  (∃ (s : State) (d : DescRef) (f : Fetched), (s.startedAt .ven d Op.encrypt = some f) ∧ (venCheck f = none) ∧ (takesLane s.venTurn (.desc d) = true) ∧ (s.cached f.tenant = none)) ∧
  (∃ (s : State) (d : DescRef) (f : Fetched) (key : List Byte) (t : State), (s.startedAt .ven d Op.decrypt = some f) ∧ (venCheck f = none) ∧ (takesLane s.venTurn (.desc d) = true) ∧ (s.cached f.tenant = some (key, t))) ∧
  (∃ (s : State) (d : DescRef) (f : Fetched), (s.startedAt .ven d Op.decrypt = some f) ∧ (venCheck f = none) ∧ (takesLane s.venTurn (.desc d) = true) ∧ (s.cached f.tenant = none)) :=
  ⟨⟨holds .ven [desc 0 Op.encrypt [(8, 8, 0xD00000000000), (16, 8, 0xD00000000000), (24, 4, 32)] .started] (regs [(SEC_STATUS.IMAGES_OK, 1), (SEC_STATUS.LIFECYCLE, Life.provisioned), (SEC_STATUS.KEK, 1), (DDR_CFG.CAP_GIB, 16), (AUD_RING.LOG2_ENTRIES, 8), (VEN_CTL.LANE_EN, 65535), (VEN_CTL.EN, 1), (PWR_DOM.STATE 77, 2), (PWR_DOM.STATE 78, 2), (VEN_KEYTAB_BASE.BASE, 256)] { State.reset with ven := { cache := [⟨0, zeros 64⟩] } }), ⟨0, 0⟩, desc 0 Op.encrypt [(8, 8, 0xD00000000000), (16, 8, 0xD00000000000), (24, 4, 32)] .started, zeros 64, (match (holds .ven [desc 0 Op.encrypt [(8, 8, 0xD00000000000), (16, 8, 0xD00000000000), (24, 4, 32)] .started] (regs [(SEC_STATUS.IMAGES_OK, 1), (SEC_STATUS.LIFECYCLE, Life.provisioned), (SEC_STATUS.KEK, 1), (DDR_CFG.CAP_GIB, 16), (AUD_RING.LOG2_ENTRIES, 8), (VEN_CTL.LANE_EN, 65535), (VEN_CTL.EN, 1), (PWR_DOM.STATE 77, 2), (PWR_DOM.STATE 78, 2), (VEN_KEYTAB_BASE.BASE, 256)] { State.reset with ven := { cache := [⟨0, zeros 64⟩] } })).cached 0 with | some x => x.2 | none => State.reset), by decide +kernel⟩,
   ⟨holds .ven [desc 0 Op.encrypt [(8, 8, 0xD00000000000), (16, 8, 0xD00000000000), (24, 4, 32)] .started] (regs [(SEC_STATUS.IMAGES_OK, 1), (SEC_STATUS.LIFECYCLE, Life.provisioned), (SEC_STATUS.KEK, 1), (DDR_CFG.CAP_GIB, 16), (AUD_RING.LOG2_ENTRIES, 8), (VEN_CTL.LANE_EN, 65535), (VEN_CTL.EN, 1), (PWR_DOM.STATE 77, 2), (PWR_DOM.STATE 78, 2), (VEN_KEYTAB_BASE.BASE, 256)] State.reset), ⟨0, 0⟩, desc 0 Op.encrypt [(8, 8, 0xD00000000000), (16, 8, 0xD00000000000), (24, 4, 32)] .started, by decide +kernel⟩,
   ⟨holds .ven [desc 0 Op.decrypt [(8, 8, 0xD00000000000), (16, 8, 0xD00000000000), (24, 4, 32)] .started] (regs [(SEC_STATUS.IMAGES_OK, 1), (SEC_STATUS.LIFECYCLE, Life.provisioned), (SEC_STATUS.KEK, 1), (DDR_CFG.CAP_GIB, 16), (AUD_RING.LOG2_ENTRIES, 8), (VEN_CTL.LANE_EN, 65535), (VEN_CTL.EN, 1), (PWR_DOM.STATE 77, 2), (PWR_DOM.STATE 78, 2), (VEN_KEYTAB_BASE.BASE, 256)] { State.reset with ven := { cache := [⟨0, zeros 64⟩] } }), ⟨0, 0⟩, desc 0 Op.decrypt [(8, 8, 0xD00000000000), (16, 8, 0xD00000000000), (24, 4, 32)] .started, zeros 64, (match (holds .ven [desc 0 Op.decrypt [(8, 8, 0xD00000000000), (16, 8, 0xD00000000000), (24, 4, 32)] .started] (regs [(SEC_STATUS.IMAGES_OK, 1), (SEC_STATUS.LIFECYCLE, Life.provisioned), (SEC_STATUS.KEK, 1), (DDR_CFG.CAP_GIB, 16), (AUD_RING.LOG2_ENTRIES, 8), (VEN_CTL.LANE_EN, 65535), (VEN_CTL.EN, 1), (PWR_DOM.STATE 77, 2), (PWR_DOM.STATE 78, 2), (VEN_KEYTAB_BASE.BASE, 256)] { State.reset with ven := { cache := [⟨0, zeros 64⟩] } })).cached 0 with | some x => x.2 | none => State.reset), by decide +kernel⟩,
   ⟨holds .ven [desc 0 Op.decrypt [(8, 8, 0xD00000000000), (16, 8, 0xD00000000000), (24, 4, 32)] .started] (regs [(SEC_STATUS.IMAGES_OK, 1), (SEC_STATUS.LIFECYCLE, Life.provisioned), (SEC_STATUS.KEK, 1), (DDR_CFG.CAP_GIB, 16), (AUD_RING.LOG2_ENTRIES, 8), (VEN_CTL.LANE_EN, 65535), (VEN_CTL.EN, 1), (PWR_DOM.STATE 77, 2), (PWR_DOM.STATE 78, 2), (VEN_KEYTAB_BASE.BASE, 256)] State.reset), ⟨0, 0⟩, desc 0 Op.decrypt [(8, 8, 0xD00000000000), (16, 8, 0xD00000000000), (24, 4, 32)] .started, by decide +kernel⟩⟩

theorem witness_VeneerJobsAndTheAuditJournal_2 :
  (∃ (s : State) (d : DescRef) (f : Fetched), (s.startedAt .ven d Op.keyEvict = some f)) ∧
  (∃ (s : State) (lane : Fin 16) (d : DescRef) (f : Fetched), ((s.venLaneFault lane).fetchedAt .ven d = some f) ∧ (f.phase ≠ .fetched)) ∧
  (∃ (s : State) (e : AudEntry) (rest : List AudEntry) (bs : List Byte) (q : Audit), (s.aud.staged = e :: rest) ∧ (s.audRingOk = true) ∧ (16 ≤ s.audFree) ∧ (s.aud.anchorDue = []) ∧ (bs = e.bytes s.auditKey s.aud.prev) ∧ (q = { s.aud with staged := rest, prev := audDigest bs, fullSeen := false }) ∧ ((s.dmaWrite .aud (s.rd AUD_RING.BASE * 4096 + s.rd AUD_IDX.PROD * 256) bs).toOption.isSome = true)) ∧
  (∃ (s : State) (e : AudEntry) (rest : List AudEntry) (bs : List Byte) (t v : State) (q : Audit), (s.aud.staged = e :: rest) ∧ (s.audRingOk = true) ∧ (16 ≤ s.audFree) ∧ (bs = e.bytes s.auditKey s.aud.prev) ∧ ((s.dmaWrite .aud (s.rd AUD_RING.BASE * 4096 + s.rd AUD_IDX.PROD * 256) bs).toOption = some t) ∧ (q = { t.aud with staged := rest, prev := audDigest bs, fullSeen := false, anchor := if t.aud.anchorDue.contains e.seq then some (e.seq, audDigest bs) else t.aud.anchor, anchorDue := t.aud.anchorDue.filter (· != e.seq) }) ∧ (v = if t.aud.anchorDue.contains e.seq && q.anchorDue.isEmpty then (t.setAud q).wr SEC_CTL.SHUTDOWN 0 else t.setAud q)) :=
  ⟨⟨holds .ven [desc 0 Op.keyEvict [] .started] (regs [(SEC_STATUS.IMAGES_OK, 1), (SEC_STATUS.LIFECYCLE, Life.provisioned), (SEC_STATUS.KEK, 1), (DDR_CFG.CAP_GIB, 16), (AUD_RING.LOG2_ENTRIES, 8), (VEN_CTL.LANE_EN, 65535), (VEN_CTL.EN, 1), (PWR_DOM.STATE 77, 2), (PWR_DOM.STATE 78, 2), (VEN_KEYTAB_BASE.BASE, 256)] { State.reset with ven := { cache := [⟨0, zeros 64⟩] } }), ⟨0, 0⟩, desc 0 Op.keyEvict [] .started, by decide +kernel⟩,
   ⟨holds .ven [desc 0 Op.encrypt [(8, 8, 0xD00000000000), (16, 8, 0xD00000000000), (24, 4, 32)] .started] (regs [(SEC_STATUS.IMAGES_OK, 1), (SEC_STATUS.LIFECYCLE, Life.provisioned), (SEC_STATUS.KEK, 1), (DDR_CFG.CAP_GIB, 16), (AUD_RING.LOG2_ENTRIES, 8), (VEN_CTL.LANE_EN, 65535), (VEN_CTL.EN, 1), (PWR_DOM.STATE 77, 2), (PWR_DOM.STATE 78, 2), (VEN_KEYTAB_BASE.BASE, 256)] { State.reset with ven := { cache := [⟨0, zeros 64⟩] } }), 3, ⟨0, 0⟩, desc 0 Op.encrypt [(8, 8, 0xD00000000000), (16, 8, 0xD00000000000), (24, 4, 32)] .started, by decide +kernel⟩,
   ⟨regs ((List.range 12).map fun c => (DDR_STATUS.STATE c, Ddr.ready)) (regs [(DDR_CFG.CAP_GIB, 16), (AUD_RING.LOG2_ENTRIES, 8), (AUD_RING.BASE, 16)] (State.reset.setAud { staged := [{ seq := 5, time := 9, origin := 0, via := 0xFFFF, kind := 1, unit := 14, sub := 0, opcode := 0, offset := 0, payload := zeros 160 }], nextSeq := 6 })), { seq := 5, time := 9, origin := 0, via := 0xFFFF, kind := 1, unit := 14, sub := 0, opcode := 0, offset := 0, payload := zeros 160 }, [], ({ seq := 5, time := 9, origin := 0, via := 0xFFFF, kind := 1, unit := 14, sub := 0, opcode := 0, offset := 0, payload := zeros 160 } : AudEntry).bytes (regs ((List.range 12).map fun c => (DDR_STATUS.STATE c, Ddr.ready)) (regs [(DDR_CFG.CAP_GIB, 16), (AUD_RING.LOG2_ENTRIES, 8), (AUD_RING.BASE, 16)] (State.reset.setAud { staged := [{ seq := 5, time := 9, origin := 0, via := 0xFFFF, kind := 1, unit := 14, sub := 0, opcode := 0, offset := 0, payload := zeros 160 }], nextSeq := 6 }))).auditKey (List.replicate 64 0), { staged := [], nextSeq := 6, prev := audDigest (({ seq := 5, time := 9, origin := 0, via := 0xFFFF, kind := 1, unit := 14, sub := 0, opcode := 0, offset := 0, payload := zeros 160 } : AudEntry).bytes (regs ((List.range 12).map fun c => (DDR_STATUS.STATE c, Ddr.ready)) (regs [(DDR_CFG.CAP_GIB, 16), (AUD_RING.LOG2_ENTRIES, 8), (AUD_RING.BASE, 16)] (State.reset.setAud { staged := [{ seq := 5, time := 9, origin := 0, via := 0xFFFF, kind := 1, unit := 14, sub := 0, opcode := 0, offset := 0, payload := zeros 160 }], nextSeq := 6 }))).auditKey (List.replicate 64 0)) }, by decide +kernel⟩,
   ⟨regs ((List.range 12).map fun c => (DDR_STATUS.STATE c, Ddr.ready)) (regs [(DDR_CFG.CAP_GIB, 16), (AUD_RING.LOG2_ENTRIES, 8), (AUD_RING.BASE, 16)] (State.reset.setAud { staged := [{ seq := 5, time := 9, origin := 0, via := 0xFFFF, kind := 1, unit := 14, sub := 0, opcode := 0, offset := 0, payload := zeros 160 }], nextSeq := 6 })), { seq := 5, time := 9, origin := 0, via := 0xFFFF, kind := 1, unit := 14, sub := 0, opcode := 0, offset := 0, payload := zeros 160 }, [], ({ seq := 5, time := 9, origin := 0, via := 0xFFFF, kind := 1, unit := 14, sub := 0, opcode := 0, offset := 0, payload := zeros 160 } : AudEntry).bytes (regs ((List.range 12).map fun c => (DDR_STATUS.STATE c, Ddr.ready)) (regs [(DDR_CFG.CAP_GIB, 16), (AUD_RING.LOG2_ENTRIES, 8), (AUD_RING.BASE, 16)] (State.reset.setAud { staged := [{ seq := 5, time := 9, origin := 0, via := 0xFFFF, kind := 1, unit := 14, sub := 0, opcode := 0, offset := 0, payload := zeros 160 }], nextSeq := 6 }))).auditKey (List.replicate 64 0), (((regs ((List.range 12).map fun c => (DDR_STATUS.STATE c, Ddr.ready)) (regs [(DDR_CFG.CAP_GIB, 16), (AUD_RING.LOG2_ENTRIES, 8), (AUD_RING.BASE, 16)] (State.reset.setAud { staged := [{ seq := 5, time := 9, origin := 0, via := 0xFFFF, kind := 1, unit := 14, sub := 0, opcode := 0, offset := 0, payload := zeros 160 }], nextSeq := 6 }))).dmaWrite .aud 65536 (({ seq := 5, time := 9, origin := 0, via := 0xFFFF, kind := 1, unit := 14, sub := 0, opcode := 0, offset := 0, payload := zeros 160 } : AudEntry).bytes (regs ((List.range 12).map fun c => (DDR_STATUS.STATE c, Ddr.ready)) (regs [(DDR_CFG.CAP_GIB, 16), (AUD_RING.LOG2_ENTRIES, 8), (AUD_RING.BASE, 16)] (State.reset.setAud { staged := [{ seq := 5, time := 9, origin := 0, via := 0xFFFF, kind := 1, unit := 14, sub := 0, opcode := 0, offset := 0, payload := zeros 160 }], nextSeq := 6 }))).auditKey (List.replicate 64 0))).toOption.getD State.reset), ((((regs ((List.range 12).map fun c => (DDR_STATUS.STATE c, Ddr.ready)) (regs [(DDR_CFG.CAP_GIB, 16), (AUD_RING.LOG2_ENTRIES, 8), (AUD_RING.BASE, 16)] (State.reset.setAud { staged := [{ seq := 5, time := 9, origin := 0, via := 0xFFFF, kind := 1, unit := 14, sub := 0, opcode := 0, offset := 0, payload := zeros 160 }], nextSeq := 6 }))).dmaWrite .aud 65536 (({ seq := 5, time := 9, origin := 0, via := 0xFFFF, kind := 1, unit := 14, sub := 0, opcode := 0, offset := 0, payload := zeros 160 } : AudEntry).bytes (regs ((List.range 12).map fun c => (DDR_STATUS.STATE c, Ddr.ready)) (regs [(DDR_CFG.CAP_GIB, 16), (AUD_RING.LOG2_ENTRIES, 8), (AUD_RING.BASE, 16)] (State.reset.setAud { staged := [{ seq := 5, time := 9, origin := 0, via := 0xFFFF, kind := 1, unit := 14, sub := 0, opcode := 0, offset := 0, payload := zeros 160 }], nextSeq := 6 }))).auditKey (List.replicate 64 0))).toOption.getD State.reset)).setAud { staged := [], nextSeq := 6, prev := audDigest (({ seq := 5, time := 9, origin := 0, via := 0xFFFF, kind := 1, unit := 14, sub := 0, opcode := 0, offset := 0, payload := zeros 160 } : AudEntry).bytes (regs ((List.range 12).map fun c => (DDR_STATUS.STATE c, Ddr.ready)) (regs [(DDR_CFG.CAP_GIB, 16), (AUD_RING.LOG2_ENTRIES, 8), (AUD_RING.BASE, 16)] (State.reset.setAud { staged := [{ seq := 5, time := 9, origin := 0, via := 0xFFFF, kind := 1, unit := 14, sub := 0, opcode := 0, offset := 0, payload := zeros 160 }], nextSeq := 6 }))).auditKey (List.replicate 64 0)) }, { staged := [], nextSeq := 6, prev := audDigest (({ seq := 5, time := 9, origin := 0, via := 0xFFFF, kind := 1, unit := 14, sub := 0, opcode := 0, offset := 0, payload := zeros 160 } : AudEntry).bytes (regs ((List.range 12).map fun c => (DDR_STATUS.STATE c, Ddr.ready)) (regs [(DDR_CFG.CAP_GIB, 16), (AUD_RING.LOG2_ENTRIES, 8), (AUD_RING.BASE, 16)] (State.reset.setAud { staged := [{ seq := 5, time := 9, origin := 0, via := 0xFFFF, kind := 1, unit := 14, sub := 0, opcode := 0, offset := 0, payload := zeros 160 }], nextSeq := 6 }))).auditKey (List.replicate 64 0)) }, ⟨by decide +kernel, by decide +kernel, by decide +kernel, by decide +kernel, by decide +kernel, by decide +kernel, by first | with_reducible rfl | decide +kernel⟩⟩⟩

theorem witness_VeneerJobsAndTheAuditJournal_3 :
  (∃ (s : State) (e : AudEntry) (rest : List AudEntry) (q : Audit), (s.aud.staged = e :: rest) ∧ (s.audRingOk = true) ∧ (s.audFree < 16) ∧ (s.aud.fullSeen = false) ∧ (q = { s.aud with fullSeen := true })) ∧
  (∃ (s : State), (s.due s.aud.sealDue = true) ∧ (s.auditRoom = true)) ∧
  (∃ (s : State), (s.rd AUD_SEAL_CFG.ENTRIES ≤ s.aud.sinceSeal) ∧ (s.auditRoom = true)) ∧
  (∃ (s : State) (t : State), (s.auditRoom = true) ∧ (t = s.seal false) ∧ (s.aud.sealsSince < 63)) :=
  ⟨⟨regs ((List.range 12).map fun c => (DDR_STATUS.STATE c, Ddr.ready)) (regs [(DDR_CFG.CAP_GIB, 16), (AUD_RING.LOG2_ENTRIES, 3), (AUD_RING.BASE, 16)] (State.reset.setAud { staged := [{ seq := 5, time := 9, origin := 0, via := 0xFFFF, kind := 1, unit := 14, sub := 0, opcode := 0, offset := 0, payload := zeros 160 }], nextSeq := 6 })), { seq := 5, time := 9, origin := 0, via := 0xFFFF, kind := 1, unit := 14, sub := 0, opcode := 0, offset := 0, payload := zeros 160 }, [], { staged := [{ seq := 5, time := 9, origin := 0, via := 0xFFFF, kind := 1, unit := 14, sub := 0, opcode := 0, offset := 0, payload := zeros 160 }], nextSeq := 6, fullSeen := true }, by decide +kernel⟩,
   ⟨State.reset.setAud { sealDue := some 0 }, by decide +kernel⟩,
   ⟨State.reset.setAud { sinceSeal := 10000000 }, by decide +kernel⟩,
   ⟨State.reset, State.reset.seal false, ⟨by decide +kernel, by first | with_reducible rfl | decide +kernel, by decide +kernel⟩⟩⟩

theorem witness_VeneerJobsAndTheAuditJournal_4 :
  (∃ (s : State) (origin : Origin), (s.on SEC_CTL.SHUTDOWN = false) ∧ (s.auditRoom = true) ∧ (s.originThere origin.toNat = true) ∧ (s.audited false origin.toNat = false)) ∧
  (∃ (s : State) (origin : Origin), (s.on SEC_CTL.SHUTDOWN = false) ∧ (s.auditRoom = true) ∧ (s.originThere origin.toNat = true) ∧ (s.audited false origin.toNat = true)) :=
  ⟨⟨State.reset, 0, by decide +kernel⟩,
   ⟨regs [(SEC_STATUS.DEBUG_OPEN, 1), (SEC_STATUS.LIFECYCLE, Life.provisioned)] State.reset, 0x300, by decide +kernel⟩⟩

theorem witness_CarcaseDescriptors :
  (∃ (s : State) (d : DescRef) (f : Fetched), (s.startedAt .carc d Op.encode = some f) ∧ (carcShape f = none) ∧ (s.carcLane = true)) ∧
  (∃ (s : State) (d : DescRef) (f : Fetched), (s.startedAt .carc d Op.decode = some f) ∧ (carcShape f = none) ∧ (s.carcLane = true) ∧ (f.at 32 2 < 2 ^ (f.at 28 1 + f.at 29 1)) ∧ (f.at 34 2 < 2 ^ (f.at 28 1 + f.at 29 1)) ∧ (f.at 32 2 &&& f.at 34 2 = 0) ∧ (popCount (f.at 34 2) 16 ≤ f.at 29 1) ∧ (f.at 28 1 ≤ popCount (f.at 32 2) 16)) ∧
  (∃ (s : State) (d : DescRef) (f : Fetched), (s.startedAt .carc d Op.decode = some f) ∧ (carcShape f = none) ∧ (s.carcLane = true) ∧ (f.at 32 2 < 2 ^ (f.at 28 1 + f.at 29 1)) ∧ (f.at 34 2 < 2 ^ (f.at 28 1 + f.at 29 1)) ∧ (f.at 32 2 &&& f.at 34 2 = 0) ∧ (popCount (f.at 34 2) 16 ≤ f.at 29 1) ∧ (popCount (f.at 32 2) 16 < f.at 28 1)) ∧
  (∃ (s : State) (d : DescRef) (f : Fetched), (s.startedAt .carc d Op.patchDelta = some f) ∧ (carcShape f = none) ∧ (s.carcLane = true) ∧ (f.at 30 1 < f.at 28 1)) :=
  ⟨⟨holds .carc [desc 0 Op.encode [(24, 4, 4096), (28, 1, 4), (29, 1, 2), (8, 8, 8192)] .started] (regs [(DDR_CFG.CAP_GIB, 16), (CARC_CTL.EN, 1), (CARC_CTL.LANE_EN, 65535), (PWR_DOM.STATE 79, 2), (PWR_DOM.STATE 80, 2), (CARC_POOL.VALID 1, 1), (CARC_POOL.MEMBERS 1, 255), (CARC_POOL.P 1, 2), (CARC_POOL.W 1, 8), (CARC_GEN_BASE.BASE, 16), (PAR_SHARD.STATE 0, 0), (CARC_BLADE.STATE 3, 1), (CARC_INTENT_CFG.LOG2_ENTRIES, 6)] { State.reset with mem := Memory.writeN (Memory.writeN [] (65536 + 4096) (image 16 [(0, 2, 255), (2, 1, 8), (3, 1, 2), (4, 1, 1)])) 8192 (image 16 [(0, 2, 255), (2, 1, 8), (3, 1, 2), (4, 1, 1)]) }), ⟨0, 0⟩, desc 0 Op.encode [(24, 4, 4096), (28, 1, 4), (29, 1, 2), (8, 8, 8192)] .started, by decide +kernel⟩,
   ⟨holds .carc [desc 0 Op.decode [(24, 4, 4096), (28, 1, 4), (29, 1, 2), (8, 8, 8192), (32, 2, 0x3C), (34, 2, 3)] .started] (regs [(DDR_CFG.CAP_GIB, 16), (CARC_CTL.EN, 1), (CARC_CTL.LANE_EN, 65535), (PWR_DOM.STATE 79, 2), (PWR_DOM.STATE 80, 2), (CARC_POOL.VALID 1, 1), (CARC_POOL.MEMBERS 1, 255), (CARC_POOL.P 1, 2), (CARC_POOL.W 1, 8), (CARC_GEN_BASE.BASE, 16), (PAR_SHARD.STATE 0, 0), (CARC_BLADE.STATE 3, 1), (CARC_INTENT_CFG.LOG2_ENTRIES, 6)] { State.reset with mem := Memory.writeN (Memory.writeN [] (65536 + 4096) (image 16 [(0, 2, 255), (2, 1, 8), (3, 1, 2), (4, 1, 1)])) 8192 (image 16 [(0, 2, 255), (2, 1, 8), (3, 1, 2), (4, 1, 1)]) }), ⟨0, 0⟩, desc 0 Op.decode [(24, 4, 4096), (28, 1, 4), (29, 1, 2), (8, 8, 8192), (32, 2, 0x3C), (34, 2, 3)] .started, by decide +kernel⟩,
   ⟨holds .carc [desc 0 Op.decode [(24, 4, 4096), (28, 1, 4), (29, 1, 2), (8, 8, 8192), (32, 2, 0x1C), (34, 2, 3)] .started] (regs [(DDR_CFG.CAP_GIB, 16), (CARC_CTL.EN, 1), (CARC_CTL.LANE_EN, 65535), (PWR_DOM.STATE 79, 2), (PWR_DOM.STATE 80, 2), (CARC_POOL.VALID 1, 1), (CARC_POOL.MEMBERS 1, 255), (CARC_POOL.P 1, 2), (CARC_POOL.W 1, 8), (CARC_GEN_BASE.BASE, 16), (PAR_SHARD.STATE 0, 0), (CARC_BLADE.STATE 3, 1), (CARC_INTENT_CFG.LOG2_ENTRIES, 6)] { State.reset with mem := Memory.writeN (Memory.writeN [] (65536 + 4096) (image 16 [(0, 2, 255), (2, 1, 8), (3, 1, 2), (4, 1, 1)])) 8192 (image 16 [(0, 2, 255), (2, 1, 8), (3, 1, 2), (4, 1, 1)]) }), ⟨0, 0⟩, desc 0 Op.decode [(24, 4, 4096), (28, 1, 4), (29, 1, 2), (8, 8, 8192), (32, 2, 0x1C), (34, 2, 3)] .started, by decide +kernel⟩,
   ⟨holds .carc [desc 0 Op.patchDelta [(24, 4, 4096), (28, 1, 4), (29, 1, 2), (8, 8, 8192), (30, 1, 2)] .started] (regs [(DDR_CFG.CAP_GIB, 16), (CARC_CTL.EN, 1), (CARC_CTL.LANE_EN, 65535), (PWR_DOM.STATE 79, 2), (PWR_DOM.STATE 80, 2), (CARC_POOL.VALID 1, 1), (CARC_POOL.MEMBERS 1, 255), (CARC_POOL.P 1, 2), (CARC_POOL.W 1, 8), (CARC_GEN_BASE.BASE, 16), (PAR_SHARD.STATE 0, 0), (CARC_BLADE.STATE 3, 1), (CARC_INTENT_CFG.LOG2_ENTRIES, 6)] { State.reset with mem := Memory.writeN (Memory.writeN [] (65536 + 4096) (image 16 [(0, 2, 255), (2, 1, 8), (3, 1, 2), (4, 1, 1)])) 8192 (image 16 [(0, 2, 255), (2, 1, 8), (3, 1, 2), (4, 1, 1)]) }), ⟨0, 0⟩, desc 0 Op.patchDelta [(24, 4, 4096), (28, 1, 4), (29, 1, 2), (8, 8, 8192), (30, 1, 2)] .started, by decide +kernel⟩⟩

theorem witness_CarcaseDescriptors_2 :
  (∃ (s : State) (d : DescRef) (f : Fetched), (s.startedAt .carc d Op.verify = some f) ∧ (carcShape f = none) ∧ (s.carcLane = true)) ∧
  (∃ (s : State) (d : DescRef) (f : Fetched), (s.startedAt .carc d Op.locate = some f) ∧ (f.at 32 4 < 2 ^ 29) ∧ (f.at 36 1 ≤ 31) ∧ (f.at 28 1 ≤ 15) ∧ (s.on (CARC_POOL.VALID (f.at 28 1)) = true) ∧ (genValid (s.genEntry (f.at 28 1) (f.at 29 1)) = true)) ∧
  (∃ (s : State) (d : DescRef) (f : Fetched) (ms : List Medium), (s.startedAt .carc d Op.intentAcquire = some f) ∧ (s.intentCheck (f.at 28 1) (f.at 29 1) (f.at 32 4) = none) ∧ (s.carc.opens.length < 2 ^ s.rd CARC_INTENT_CFG.LOG2_ENTRIES) ∧ (s.carc.bits.contains (f.at 29 1, f.at 28 1, regionOf (f.at 32 4)) = true)) ∧
  (∃ (s : State) (d : DescRef) (f : Fetched) (ms : List Medium), (s.startedAt .carc d Op.intentAcquire = some f) ∧ (s.intentCheck (f.at 28 1) (f.at 29 1) (f.at 32 4) = none) ∧ (s.carc.opens.length < 2 ^ s.rd CARC_INTENT_CFG.LOG2_ENTRIES ∨ (Tab.get? s.carc.opens (openKey (f.at 29 1) (f.at 28 1) (regionOf (f.at 32 4)))).isSome = true)) :=
  ⟨⟨holds .carc [desc 0 Op.verify [(24, 4, 4096), (28, 1, 4), (29, 1, 2), (8, 8, 8192)] .started] (regs [(DDR_CFG.CAP_GIB, 16), (CARC_CTL.EN, 1), (CARC_CTL.LANE_EN, 65535), (PWR_DOM.STATE 79, 2), (PWR_DOM.STATE 80, 2), (CARC_POOL.VALID 1, 1), (CARC_POOL.MEMBERS 1, 255), (CARC_POOL.P 1, 2), (CARC_POOL.W 1, 8), (CARC_GEN_BASE.BASE, 16), (PAR_SHARD.STATE 0, 0), (CARC_BLADE.STATE 3, 1), (CARC_INTENT_CFG.LOG2_ENTRIES, 6)] { State.reset with mem := Memory.writeN (Memory.writeN [] (65536 + 4096) (image 16 [(0, 2, 255), (2, 1, 8), (3, 1, 2), (4, 1, 1)])) 8192 (image 16 [(0, 2, 255), (2, 1, 8), (3, 1, 2), (4, 1, 1)]) }), ⟨0, 0⟩, desc 0 Op.verify [(24, 4, 4096), (28, 1, 4), (29, 1, 2), (8, 8, 8192)] .started, by decide +kernel⟩,
   ⟨holds .carc [desc 0 Op.locate [(28, 1, 1), (29, 1, 0), (32, 4, 5), (36, 1, 3)] .started] (regs [(DDR_CFG.CAP_GIB, 16), (CARC_CTL.EN, 1), (CARC_CTL.LANE_EN, 65535), (PWR_DOM.STATE 79, 2), (PWR_DOM.STATE 80, 2), (CARC_POOL.VALID 1, 1), (CARC_POOL.MEMBERS 1, 255), (CARC_POOL.P 1, 2), (CARC_POOL.W 1, 8), (CARC_GEN_BASE.BASE, 16), (PAR_SHARD.STATE 0, 0), (CARC_BLADE.STATE 3, 1), (CARC_INTENT_CFG.LOG2_ENTRIES, 6)] { State.reset with mem := Memory.writeN (Memory.writeN [] (65536 + 4096) (image 16 [(0, 2, 255), (2, 1, 8), (3, 1, 2), (4, 1, 1)])) 8192 (image 16 [(0, 2, 255), (2, 1, 8), (3, 1, 2), (4, 1, 1)]) }), ⟨0, 0⟩, desc 0 Op.locate [(28, 1, 1), (29, 1, 0), (32, 4, 5), (36, 1, 3)] .started, by decide +kernel⟩,
   ⟨holds .carc [desc 0 Op.intentAcquire [(28, 1, 1), (29, 1, 0), (32, 4, 5)] .started] (regs [(DDR_CFG.CAP_GIB, 16), (CARC_CTL.EN, 1), (CARC_CTL.LANE_EN, 65535), (PWR_DOM.STATE 79, 2), (PWR_DOM.STATE 80, 2), (CARC_POOL.VALID 1, 1), (CARC_POOL.MEMBERS 1, 255), (CARC_POOL.P 1, 2), (CARC_POOL.W 1, 8), (CARC_GEN_BASE.BASE, 16), (PAR_SHARD.STATE 0, 0), (CARC_BLADE.STATE 3, 1), (CARC_INTENT_CFG.LOG2_ENTRIES, 6)] { State.reset with mem := Memory.writeN (Memory.writeN [] (65536 + 4096) (image 16 [(0, 2, 255), (2, 1, 8), (3, 1, 2), (4, 1, 1)])) 8192 (image 16 [(0, 2, 255), (2, 1, 8), (3, 1, 2), (4, 1, 1)]), carc := { bits := [(0, 1, 0)] } }), ⟨0, 0⟩, desc 0 Op.intentAcquire [(28, 1, 1), (29, 1, 0), (32, 4, 5)] .started, [], by decide +kernel⟩,
   ⟨holds .carc [desc 0 Op.intentAcquire [(28, 1, 1), (29, 1, 0), (32, 4, 5)] .started] (regs [(DDR_CFG.CAP_GIB, 16), (CARC_CTL.EN, 1), (CARC_CTL.LANE_EN, 65535), (PWR_DOM.STATE 79, 2), (PWR_DOM.STATE 80, 2), (CARC_POOL.VALID 1, 1), (CARC_POOL.MEMBERS 1, 255), (CARC_POOL.P 1, 2), (CARC_POOL.W 1, 8), (CARC_GEN_BASE.BASE, 16), (PAR_SHARD.STATE 0, 0), (CARC_BLADE.STATE 3, 1), (CARC_INTENT_CFG.LOG2_ENTRIES, 6)] { State.reset with mem := Memory.writeN (Memory.writeN [] (65536 + 4096) (image 16 [(0, 2, 255), (2, 1, 8), (3, 1, 2), (4, 1, 1)])) 8192 (image 16 [(0, 2, 255), (2, 1, 8), (3, 1, 2), (4, 1, 1)]) }), ⟨0, 0⟩, desc 0 Op.intentAcquire [(28, 1, 1), (29, 1, 0), (32, 4, 5)] .started, [], by decide +kernel⟩⟩

theorem witness_CarcaseDescriptors_3 :
  (∃ (s : State) (d : DescRef) (f : Fetched), (s.startedAt .carc d Op.intentRelease = some f) ∧ (s.intentCheck (f.at 28 1) (f.at 29 1) (f.at 32 4) = none) ∧ ((Tab.get? s.carc.opens (openKey (f.at 29 1) (f.at 28 1) (regionOf (f.at 32 4)))).isSome = true)) ∧
  (∃ (s : State) (d : DescRef) (f : Fetched) (t : State), (s.startedAt .carc d Op.rebuildCtl = some f) ∧ (f.at 28 1 ≤ 15) ∧ (f.at 29 1 ≤ 15) ∧ (s.on (CARC_POOL.VALID (f.at 28 1)) = true) ∧ ((s.rd (CARC_POOL.MEMBERS (f.at 28 1))).testBit (f.at 29 1) = true) ∧ (f.at 30 1 = 1) ∧ (s.carc.running.contains (f.at 29 1) = true) ∧ (s.on (CARC_BLADE.PAUSED (f.at 29 1)) = false) ∧ (t = s.wr (CARC_BLADE.PAUSED (f.at 29 1)) 1)) ∧
  (∃ (s : State) (d : DescRef) (f : Fetched) (t : State), (s.startedAt .carc d Op.rebuildCtl = some f) ∧ (f.at 28 1 ≤ 15) ∧ (f.at 29 1 ≤ 15) ∧ (s.on (CARC_POOL.VALID (f.at 28 1)) = true) ∧ ((s.rd (CARC_POOL.MEMBERS (f.at 28 1))).testBit (f.at 29 1) = true) ∧ (s.rebuildAction (f.at 29 1) (f.at 30 1) = some t)) ∧
  (∃ (s : State) (d : DescRef) (f : Fetched), (s.startedAt .carc d Op.rebuildCtl = some f) ∧ (f.at 28 1 ≤ 15) ∧ (f.at 29 1 ≤ 15) ∧ (s.on (CARC_POOL.VALID (f.at 28 1)) = true) ∧ ((s.rd (CARC_POOL.MEMBERS (f.at 28 1))).testBit (f.at 29 1) = true) ∧ (s.rebuildAction (f.at 29 1) (f.at 30 1) = none)) :=
  ⟨⟨holds .carc [desc 0 Op.intentRelease [(28, 1, 1), (29, 1, 0), (32, 4, 5)] .started] (regs [(DDR_CFG.CAP_GIB, 16), (CARC_CTL.EN, 1), (CARC_CTL.LANE_EN, 65535), (PWR_DOM.STATE 79, 2), (PWR_DOM.STATE 80, 2), (CARC_POOL.VALID 1, 1), (CARC_POOL.MEMBERS 1, 255), (CARC_POOL.P 1, 2), (CARC_POOL.W 1, 8), (CARC_GEN_BASE.BASE, 16), (PAR_SHARD.STATE 0, 0), (CARC_BLADE.STATE 3, 1), (CARC_INTENT_CFG.LOG2_ENTRIES, 6)] { State.reset with mem := Memory.writeN (Memory.writeN [] (65536 + 4096) (image 16 [(0, 2, 255), (2, 1, 8), (3, 1, 2), (4, 1, 1)])) 8192 (image 16 [(0, 2, 255), (2, 1, 8), (3, 1, 2), (4, 1, 1)]), carc := { bits := [(0, 1, 0)], opens := [(openKey 0 1 0, 1)] } }), ⟨0, 0⟩, desc 0 Op.intentRelease [(28, 1, 1), (29, 1, 0), (32, 4, 5)] .started, by decide +kernel⟩,
   ⟨holds .carc [desc 0 Op.rebuildCtl [(28, 1, 1), (29, 1, 3), (30, 1, 1)] .started] (regs [(DDR_CFG.CAP_GIB, 16), (CARC_CTL.EN, 1), (CARC_CTL.LANE_EN, 65535), (PWR_DOM.STATE 79, 2), (PWR_DOM.STATE 80, 2), (CARC_POOL.VALID 1, 1), (CARC_POOL.MEMBERS 1, 255), (CARC_POOL.P 1, 2), (CARC_POOL.W 1, 8), (CARC_GEN_BASE.BASE, 16), (PAR_SHARD.STATE 0, 0), (CARC_BLADE.STATE 3, 1), (CARC_INTENT_CFG.LOG2_ENTRIES, 6)] { State.reset with mem := Memory.writeN (Memory.writeN [] (65536 + 4096) (image 16 [(0, 2, 255), (2, 1, 8), (3, 1, 2), (4, 1, 1)])) 8192 (image 16 [(0, 2, 255), (2, 1, 8), (3, 1, 2), (4, 1, 1)]), carc := { running := [3] } }), ⟨0, 0⟩, desc 0 Op.rebuildCtl [(28, 1, 1), (29, 1, 3), (30, 1, 1)] .started, (holds .carc [desc 0 Op.rebuildCtl [(28, 1, 1), (29, 1, 3), (30, 1, 1)] .started] (regs [(DDR_CFG.CAP_GIB, 16), (CARC_CTL.EN, 1), (CARC_CTL.LANE_EN, 65535), (PWR_DOM.STATE 79, 2), (PWR_DOM.STATE 80, 2), (CARC_POOL.VALID 1, 1), (CARC_POOL.MEMBERS 1, 255), (CARC_POOL.P 1, 2), (CARC_POOL.W 1, 8), (CARC_GEN_BASE.BASE, 16), (PAR_SHARD.STATE 0, 0), (CARC_BLADE.STATE 3, 1), (CARC_INTENT_CFG.LOG2_ENTRIES, 6)] { State.reset with mem := Memory.writeN (Memory.writeN [] (65536 + 4096) (image 16 [(0, 2, 255), (2, 1, 8), (3, 1, 2), (4, 1, 1)])) 8192 (image 16 [(0, 2, 255), (2, 1, 8), (3, 1, 2), (4, 1, 1)]), carc := { running := [3] } })).wr (CARC_BLADE.PAUSED 3) 1, ⟨by decide +kernel, by decide +kernel, by decide +kernel, by decide +kernel, by decide +kernel, by decide +kernel, by decide +kernel, by decide +kernel, by first | with_reducible rfl | decide +kernel⟩⟩,
   ⟨holds .carc [desc 0 Op.rebuildCtl [(28, 1, 1), (29, 1, 3), (30, 1, 4)] .started] (regs [(DDR_CFG.CAP_GIB, 16), (CARC_CTL.EN, 1), (CARC_CTL.LANE_EN, 65535), (PWR_DOM.STATE 79, 2), (PWR_DOM.STATE 80, 2), (CARC_POOL.VALID 1, 1), (CARC_POOL.MEMBERS 1, 255), (CARC_POOL.P 1, 2), (CARC_POOL.W 1, 8), (CARC_GEN_BASE.BASE, 16), (PAR_SHARD.STATE 0, 0), (CARC_BLADE.STATE 3, 1), (CARC_INTENT_CFG.LOG2_ENTRIES, 6)] { State.reset with mem := Memory.writeN (Memory.writeN [] (65536 + 4096) (image 16 [(0, 2, 255), (2, 1, 8), (3, 1, 2), (4, 1, 1)])) 8192 (image 16 [(0, 2, 255), (2, 1, 8), (3, 1, 2), (4, 1, 1)]) }), ⟨0, 0⟩, desc 0 Op.rebuildCtl [(28, 1, 1), (29, 1, 3), (30, 1, 4)] .started, (holds .carc [desc 0 Op.rebuildCtl [(28, 1, 1), (29, 1, 3), (30, 1, 4)] .started] (regs [(DDR_CFG.CAP_GIB, 16), (CARC_CTL.EN, 1), (CARC_CTL.LANE_EN, 65535), (PWR_DOM.STATE 79, 2), (PWR_DOM.STATE 80, 2), (CARC_POOL.VALID 1, 1), (CARC_POOL.MEMBERS 1, 255), (CARC_POOL.P 1, 2), (CARC_POOL.W 1, 8), (CARC_GEN_BASE.BASE, 16), (PAR_SHARD.STATE 0, 0), (CARC_BLADE.STATE 3, 1), (CARC_INTENT_CFG.LOG2_ENTRIES, 6)] { State.reset with mem := Memory.writeN (Memory.writeN [] (65536 + 4096) (image 16 [(0, 2, 255), (2, 1, 8), (3, 1, 2), (4, 1, 1)])) 8192 (image 16 [(0, 2, 255), (2, 1, 8), (3, 1, 2), (4, 1, 1)]) })).bladeLost 3 Cbs.failed, by decide +kernel⟩,
   ⟨holds .carc [desc 0 Op.rebuildCtl [(28, 1, 1), (29, 1, 3), (30, 1, 1)] .started] (regs [(DDR_CFG.CAP_GIB, 16), (CARC_CTL.EN, 1), (CARC_CTL.LANE_EN, 65535), (PWR_DOM.STATE 79, 2), (PWR_DOM.STATE 80, 2), (CARC_POOL.VALID 1, 1), (CARC_POOL.MEMBERS 1, 255), (CARC_POOL.P 1, 2), (CARC_POOL.W 1, 8), (CARC_GEN_BASE.BASE, 16), (PAR_SHARD.STATE 0, 0), (CARC_BLADE.STATE 3, 1), (CARC_INTENT_CFG.LOG2_ENTRIES, 6)] { State.reset with mem := Memory.writeN (Memory.writeN [] (65536 + 4096) (image 16 [(0, 2, 255), (2, 1, 8), (3, 1, 2), (4, 1, 1)])) 8192 (image 16 [(0, 2, 255), (2, 1, 8), (3, 1, 2), (4, 1, 1)]) }), ⟨0, 0⟩, desc 0 Op.rebuildCtl [(28, 1, 1), (29, 1, 3), (30, 1, 1)] .started, by decide +kernel⟩⟩

theorem witness_CarcaseDescriptors_4 :
  (∃ (s : State) (d : DescRef) (f : Fetched) (e : List Byte) (t : State), (s.startedAt .carc d Op.genSet = some f) ∧ (f.len = 16) ∧ (f.at 28 1 ≤ 15) ∧ (s.on (CARC_POOL.VALID (f.at 28 1)) = true) ∧ ((s.dmaRead .carc f.src 16 (some d.ring)).toOption = some e) ∧ (genValid (s.genEntry (f.at 28 1) (f.at 29 1)) = false ∨ (f.at 30 1).testBit 1 = true) ∧ (s.genEntryOk (f.at 28 1) e = true) ∧ ((s.dmaWrite .carc (s.genAddr (f.at 28 1) (f.at 29 1)) e).toOption = some t)) ∧
  (∃ (s : State) (d : DescRef) (f : Fetched) (e : List Byte) (t : State), (s.startedAt .carc d Op.genSet = some f) ∧ (f.len = 16) ∧ (f.at 28 1 ≤ 15) ∧ (s.on (CARC_POOL.VALID (f.at 28 1)) = true) ∧ ((s.dmaRead .carc f.src 16 (some d.ring)).toOption = some e) ∧ ((f.at 30 1).testBit 1 = true) ∧ ((f.at 30 1).testBit 0 = false) ∧ (genValid e = false) ∧ ((s.dmaWrite .carc (s.genAddr (f.at 28 1) (f.at 29 1)) (zeros 16)).toOption = some t)) ∧
  (∃ (s : State) (d : DescRef) (f : Fetched) (ms : List Medium), (s.startedAt .carc d Op.resync = some f) ∧ (s.intentCheck (f.at 28 1) (f.at 29 1) 0 = none) ∧ (s.cell.shards = [])) ∧
  (∃ (s : State) (d : DescRef) (f : Fetched) (ms : List Medium), (s.startedAt .carc d Op.resync = some f) ∧ (s.intentCheck (f.at 28 1) (f.at 29 1) 0 = none)) :=
  ⟨⟨holds .carc [desc 0 Op.genSet [(24, 4, 16), (8, 8, 8192), (28, 1, 1), (29, 1, 4), (30, 1, 0)] .started] (regs [(DDR_CFG.CAP_GIB, 16), (CARC_CTL.EN, 1), (CARC_CTL.LANE_EN, 65535), (PWR_DOM.STATE 79, 2), (PWR_DOM.STATE 80, 2), (CARC_POOL.VALID 1, 1), (CARC_POOL.MEMBERS 1, 255), (CARC_POOL.P 1, 2), (CARC_POOL.W 1, 8), (CARC_GEN_BASE.BASE, 16), (PAR_SHARD.STATE 0, 0), (CARC_BLADE.STATE 3, 1), (CARC_INTENT_CFG.LOG2_ENTRIES, 6)] { State.reset with mem := Memory.writeN (Memory.writeN [] (65536 + 4096) (image 16 [(0, 2, 255), (2, 1, 8), (3, 1, 2), (4, 1, 1)])) 8192 (image 16 [(0, 2, 255), (2, 1, 8), (3, 1, 2), (4, 1, 1)]) }), ⟨0, 0⟩, desc 0 Op.genSet [(24, 4, 16), (8, 8, 8192), (28, 1, 1), (29, 1, 4), (30, 1, 0)] .started, image 16 [(0, 2, 255), (2, 1, 8), (3, 1, 2), (4, 1, 1)], (((holds .carc [desc 0 Op.genSet [(24, 4, 16), (8, 8, 8192), (28, 1, 1), (29, 1, 4), (30, 1, 0)] .started] (regs [(DDR_CFG.CAP_GIB, 16), (CARC_CTL.EN, 1), (CARC_CTL.LANE_EN, 65535), (PWR_DOM.STATE 79, 2), (PWR_DOM.STATE 80, 2), (CARC_POOL.VALID 1, 1), (CARC_POOL.MEMBERS 1, 255), (CARC_POOL.P 1, 2), (CARC_POOL.W 1, 8), (CARC_GEN_BASE.BASE, 16), (PAR_SHARD.STATE 0, 0), (CARC_BLADE.STATE 3, 1), (CARC_INTENT_CFG.LOG2_ENTRIES, 6)] { State.reset with mem := Memory.writeN (Memory.writeN [] (65536 + 4096) (image 16 [(0, 2, 255), (2, 1, 8), (3, 1, 2), (4, 1, 1)])) 8192 (image 16 [(0, 2, 255), (2, 1, 8), (3, 1, 2), (4, 1, 1)]) })).dmaWrite .carc (65536 + (256 + 4) * 16) (image 16 [(0, 2, 255), (2, 1, 8), (3, 1, 2), (4, 1, 1)])).toOption.getD State.reset), by decide +kernel⟩,
   ⟨holds .carc [desc 0 Op.genSet [(24, 4, 16), (8, 8, 4096), (28, 1, 1), (29, 1, 0), (30, 1, 2)] .started] (regs [(DDR_CFG.CAP_GIB, 16), (CARC_CTL.EN, 1), (CARC_CTL.LANE_EN, 65535), (PWR_DOM.STATE 79, 2), (PWR_DOM.STATE 80, 2), (CARC_POOL.VALID 1, 1), (CARC_POOL.MEMBERS 1, 255), (CARC_POOL.P 1, 2), (CARC_POOL.W 1, 8), (CARC_GEN_BASE.BASE, 16), (PAR_SHARD.STATE 0, 0), (CARC_BLADE.STATE 3, 1), (CARC_INTENT_CFG.LOG2_ENTRIES, 6)] { State.reset with mem := Memory.writeN (Memory.writeN [] (65536 + 4096) (image 16 [(0, 2, 255), (2, 1, 8), (3, 1, 2), (4, 1, 1)])) 8192 (image 16 [(0, 2, 255), (2, 1, 8), (3, 1, 2), (4, 1, 1)]) }), ⟨0, 0⟩, desc 0 Op.genSet [(24, 4, 16), (8, 8, 4096), (28, 1, 1), (29, 1, 0), (30, 1, 2)] .started, zeros 16, (((holds .carc [desc 0 Op.genSet [(24, 4, 16), (8, 8, 4096), (28, 1, 1), (29, 1, 0), (30, 1, 2)] .started] (regs [(DDR_CFG.CAP_GIB, 16), (CARC_CTL.EN, 1), (CARC_CTL.LANE_EN, 65535), (PWR_DOM.STATE 79, 2), (PWR_DOM.STATE 80, 2), (CARC_POOL.VALID 1, 1), (CARC_POOL.MEMBERS 1, 255), (CARC_POOL.P 1, 2), (CARC_POOL.W 1, 8), (CARC_GEN_BASE.BASE, 16), (PAR_SHARD.STATE 0, 0), (CARC_BLADE.STATE 3, 1), (CARC_INTENT_CFG.LOG2_ENTRIES, 6)] { State.reset with mem := Memory.writeN (Memory.writeN [] (65536 + 4096) (image 16 [(0, 2, 255), (2, 1, 8), (3, 1, 2), (4, 1, 1)])) 8192 (image 16 [(0, 2, 255), (2, 1, 8), (3, 1, 2), (4, 1, 1)]) })).dmaWrite .carc (65536 + 256 * 16) (zeros 16)).toOption.getD State.reset), by decide +kernel⟩,
   ⟨holds .carc [desc 0 Op.resync [(28, 1, 1), (29, 1, 0), (36, 4, 8)] .started] (regs [(DDR_CFG.CAP_GIB, 16), (CARC_CTL.EN, 1), (CARC_CTL.LANE_EN, 65535), (PWR_DOM.STATE 79, 2), (PWR_DOM.STATE 80, 2), (CARC_POOL.VALID 1, 1), (CARC_POOL.MEMBERS 1, 255), (CARC_POOL.P 1, 2), (CARC_POOL.W 1, 8), (CARC_GEN_BASE.BASE, 16), (PAR_SHARD.STATE 0, 0), (CARC_BLADE.STATE 3, 1), (CARC_INTENT_CFG.LOG2_ENTRIES, 6)] { State.reset with mem := Memory.writeN (Memory.writeN [] (65536 + 4096) (image 16 [(0, 2, 255), (2, 1, 8), (3, 1, 2), (4, 1, 1)])) 8192 (image 16 [(0, 2, 255), (2, 1, 8), (3, 1, 2), (4, 1, 1)]) }), ⟨0, 0⟩, desc 0 Op.resync [(28, 1, 1), (29, 1, 0), (36, 4, 8)] .started, [], by decide +kernel⟩,
   ⟨holds .carc [desc 0 Op.resync [(28, 1, 1), (29, 1, 0), (36, 4, 8)] .started] (regs [(DDR_CFG.CAP_GIB, 16), (CARC_CTL.EN, 1), (CARC_CTL.LANE_EN, 65535), (PWR_DOM.STATE 79, 2), (PWR_DOM.STATE 80, 2), (CARC_POOL.VALID 1, 1), (CARC_POOL.MEMBERS 1, 255), (CARC_POOL.P 1, 2), (CARC_POOL.W 1, 8), (CARC_GEN_BASE.BASE, 16), (PAR_SHARD.STATE 0, 0), (CARC_BLADE.STATE 3, 1), (CARC_INTENT_CFG.LOG2_ENTRIES, 6)] { State.reset with mem := Memory.writeN (Memory.writeN [] (65536 + 4096) (image 16 [(0, 2, 255), (2, 1, 8), (3, 1, 2), (4, 1, 1)])) 8192 (image 16 [(0, 2, 255), (2, 1, 8), (3, 1, 2), (4, 1, 1)]) }), ⟨0, 0⟩, desc 0 Op.resync [(28, 1, 1), (29, 1, 0), (36, 4, 8)] .started, [], by decide +kernel⟩⟩

theorem witness_CarcaseRebuildPatrolAndTimers :
  (∃ (s : State) (origin : Origin), (s.admits .carc origin = true)) ∧
  (∃ (s : State) (b : Fin 16) (ms : List Medium), (s.on CARC_CTL.EN = true) ∧ (s.carc.running.contains b.val = true) ∧ (s.on (CARC_BLADE.PAUSED b) = false)) ∧
  (∃ (s : State) (b : Fin 16), (s.carcSt b = Cbs.absent) ∧ (s.due (Tab.get? s.carc.grace b) = true)) ∧
  (∃ (s : State) (b : Fin 16), (s.carcSt b ≠ Cbs.absent)) :=
  ⟨⟨regs [(DDR_CFG.CAP_GIB, 16), (CARC_CTL.EN, 1), (CARC_CTL.LANE_EN, 65535), (PWR_DOM.STATE 79, 2), (PWR_DOM.STATE 80, 2), (CARC_POOL.VALID 1, 1), (CARC_POOL.MEMBERS 1, 255), (CARC_POOL.P 1, 2), (CARC_POOL.W 1, 8), (CARC_GEN_BASE.BASE, 16), (PAR_SHARD.STATE 0, 0), (CARC_BLADE.STATE 3, 1), (CARC_INTENT_CFG.LOG2_ENTRIES, 6)] { State.reset with carc := { queued := [3] } }, 0, by decide +kernel⟩,
   ⟨regs [(DDR_CFG.CAP_GIB, 16), (CARC_CTL.EN, 1), (CARC_CTL.LANE_EN, 65535), (PWR_DOM.STATE 79, 2), (PWR_DOM.STATE 80, 2), (CARC_POOL.VALID 1, 1), (CARC_POOL.MEMBERS 1, 255), (CARC_POOL.P 1, 2), (CARC_POOL.W 1, 8), (CARC_GEN_BASE.BASE, 16), (PAR_SHARD.STATE 0, 0), (CARC_BLADE.STATE 3, 1), (CARC_INTENT_CFG.LOG2_ENTRIES, 6)] { State.reset with carc := { running := [3] } }, 3, [], by decide +kernel⟩,
   ⟨regs [(DDR_CFG.CAP_GIB, 16), (CARC_CTL.EN, 1), (CARC_CTL.LANE_EN, 65535), (PWR_DOM.STATE 79, 2), (PWR_DOM.STATE 80, 2), (CARC_POOL.VALID 1, 1), (CARC_POOL.MEMBERS 1, 255), (CARC_POOL.P 1, 2), (CARC_POOL.W 1, 8), (CARC_GEN_BASE.BASE, 16), (PAR_SHARD.STATE 0, 0), (CARC_BLADE.STATE 3, 1), (CARC_INTENT_CFG.LOG2_ENTRIES, 6), (CARC_BLADE.STATE 3, 2)] { State.reset with carc := { grace := [(3, 0)] } }, 3, by decide +kernel⟩,
   ⟨regs [(DDR_CFG.CAP_GIB, 16), (CARC_CTL.EN, 1), (CARC_CTL.LANE_EN, 65535), (PWR_DOM.STATE 79, 2), (PWR_DOM.STATE 80, 2), (CARC_POOL.VALID 1, 1), (CARC_POOL.MEMBERS 1, 255), (CARC_POOL.P 1, 2), (CARC_POOL.W 1, 8), (CARC_GEN_BASE.BASE, 16), (PAR_SHARD.STATE 0, 0), (CARC_BLADE.STATE 3, 1), (CARC_INTENT_CFG.LOG2_ENTRIES, 6)] State.reset, 3, by decide +kernel⟩⟩

theorem witness_CarcaseRebuildPatrolAndTimers_2 :
  (∃ (s : State) (ms : List Medium), (s.due s.carc.flushAt = true) ∧ (s.carc.bits = [])) ∧
  (∃ (s : State) (ms : List Medium), (s.due s.carc.flushAt = true)) ∧
  (∃ (s : State) (ms : List Medium) (x : Nat × Nat × Nat) (t u : State), (s.on CARC_CTL.EN = true) ∧ (s.on CARC_CTL.PATROL_EN = true) ∧ (s.patrolStripes[s.carc.patrolAt]? = some x) ∧ (t = s.setCarc { s.carc with patrolAt := s.carc.patrolAt + 1 }) ∧ (u = if t.rebuilding x then t.setCarc { t.carc with skipped := t.carc.skipped ++ [x] } else t.scripted ms fun v => v.patrolStripe x.1 x.2.1 x.2.2)) ∧
  (∃ (s : State) (ms : List Medium) (x : Nat × Nat × Nat) (rest : List (Nat × Nat × Nat)) (u : State), (s.on CARC_CTL.EN = true) ∧ (s.on CARC_CTL.PATROL_EN = true) ∧ (s.patrolStripes[s.carc.patrolAt]? = none) ∧ (s.carc.skipped = x :: rest) ∧ (u = (s.setCarc { s.carc with skipped := rest }).scripted ms fun v => v.patrolStripe x.1 x.2.1 x.2.2)) :=
  ⟨⟨regs [(DDR_CFG.CAP_GIB, 16), (CARC_CTL.EN, 1), (CARC_CTL.LANE_EN, 65535), (PWR_DOM.STATE 79, 2), (PWR_DOM.STATE 80, 2), (CARC_POOL.VALID 1, 1), (CARC_POOL.MEMBERS 1, 255), (CARC_POOL.P 1, 2), (CARC_POOL.W 1, 8), (CARC_GEN_BASE.BASE, 16), (PAR_SHARD.STATE 0, 0), (CARC_BLADE.STATE 3, 1), (CARC_INTENT_CFG.LOG2_ENTRIES, 6)] { State.reset with carc := { flushAt := some 0 } }, [], by decide +kernel⟩,
   ⟨regs [(DDR_CFG.CAP_GIB, 16), (CARC_CTL.EN, 1), (CARC_CTL.LANE_EN, 65535), (PWR_DOM.STATE 79, 2), (PWR_DOM.STATE 80, 2), (CARC_POOL.VALID 1, 1), (CARC_POOL.MEMBERS 1, 255), (CARC_POOL.P 1, 2), (CARC_POOL.W 1, 8), (CARC_GEN_BASE.BASE, 16), (PAR_SHARD.STATE 0, 0), (CARC_BLADE.STATE 3, 1), (CARC_INTENT_CFG.LOG2_ENTRIES, 6)] { State.reset with carc := { flushAt := some 0 } }, [], by decide +kernel⟩,
   ⟨regs [(DDR_CFG.CAP_GIB, 16), (CARC_CTL.EN, 1), (CARC_CTL.LANE_EN, 65535), (PWR_DOM.STATE 79, 2), (PWR_DOM.STATE 80, 2), (CARC_POOL.VALID 1, 1), (CARC_POOL.MEMBERS 1, 255), (CARC_POOL.P 1, 2), (CARC_POOL.W 1, 8), (CARC_GEN_BASE.BASE, 16), (PAR_SHARD.STATE 0, 0), (CARC_BLADE.STATE 3, 1), (CARC_INTENT_CFG.LOG2_ENTRIES, 6), (CARC_CTL.PATROL_EN, 1), (CELL_SHARD.STATE 0, 2)] { State.reset with mem := Memory.writeN [] (65536 + 4096) (image 16 [(0, 2, 255), (2, 1, 8), (3, 1, 2), (4, 1, 1)]), carc := { patrolAt := 2, running := [3] }, cell := { shards := [(0, { wheels := [(4, { pool := 1, gen := 0, frame := 5, sealed := true })] })] } }, [], (0, 4, 2), (regs [(DDR_CFG.CAP_GIB, 16), (CARC_CTL.EN, 1), (CARC_CTL.LANE_EN, 65535), (PWR_DOM.STATE 79, 2), (PWR_DOM.STATE 80, 2), (CARC_POOL.VALID 1, 1), (CARC_POOL.MEMBERS 1, 255), (CARC_POOL.P 1, 2), (CARC_POOL.W 1, 8), (CARC_GEN_BASE.BASE, 16), (PAR_SHARD.STATE 0, 0), (CARC_BLADE.STATE 3, 1), (CARC_INTENT_CFG.LOG2_ENTRIES, 6), (CARC_CTL.PATROL_EN, 1), (CELL_SHARD.STATE 0, 2)] { State.reset with mem := Memory.writeN [] (65536 + 4096) (image 16 [(0, 2, 255), (2, 1, 8), (3, 1, 2), (4, 1, 1)]), carc := { patrolAt := 2, running := [3] }, cell := { shards := [(0, { wheels := [(4, { pool := 1, gen := 0, frame := 5, sealed := true })] })] } }).setCarc { running := [3], patrolAt := 3 }, (regs [(DDR_CFG.CAP_GIB, 16), (CARC_CTL.EN, 1), (CARC_CTL.LANE_EN, 65535), (PWR_DOM.STATE 79, 2), (PWR_DOM.STATE 80, 2), (CARC_POOL.VALID 1, 1), (CARC_POOL.MEMBERS 1, 255), (CARC_POOL.P 1, 2), (CARC_POOL.W 1, 8), (CARC_GEN_BASE.BASE, 16), (PAR_SHARD.STATE 0, 0), (CARC_BLADE.STATE 3, 1), (CARC_INTENT_CFG.LOG2_ENTRIES, 6), (CARC_CTL.PATROL_EN, 1), (CELL_SHARD.STATE 0, 2)] { State.reset with mem := Memory.writeN [] (65536 + 4096) (image 16 [(0, 2, 255), (2, 1, 8), (3, 1, 2), (4, 1, 1)]), carc := { patrolAt := 2, running := [3] }, cell := { shards := [(0, { wheels := [(4, { pool := 1, gen := 0, frame := 5, sealed := true })] })] } }).setCarc { running := [3], patrolAt := 3, skipped := [(0, 4, 2)] }, ⟨by decide +kernel, by decide +kernel, by decide +kernel, by first | with_reducible rfl | decide +kernel, by first | with_reducible rfl | decide +kernel⟩⟩,
   ⟨regs [(DDR_CFG.CAP_GIB, 16), (CARC_CTL.EN, 1), (CARC_CTL.LANE_EN, 65535), (PWR_DOM.STATE 79, 2), (PWR_DOM.STATE 80, 2), (CARC_POOL.VALID 1, 1), (CARC_POOL.MEMBERS 1, 255), (CARC_POOL.P 1, 2), (CARC_POOL.W 1, 8), (CARC_GEN_BASE.BASE, 16), (PAR_SHARD.STATE 0, 0), (CARC_BLADE.STATE 3, 1), (CARC_INTENT_CFG.LOG2_ENTRIES, 6), (CARC_CTL.PATROL_EN, 1), (CELL_SHARD.STATE 0, 2)] { State.reset with mem := Memory.writeN [] (65536 + 4096) (image 16 [(0, 2, 255), (2, 1, 8), (3, 1, 2), (4, 1, 1)]), carc := { patrolAt := 99, skipped := [(0, 9, 2)] }, cell := { shards := [(0, { wheels := [(4, { pool := 1, gen := 0, frame := 5, sealed := true })] })] } }, [], (0, 9, 2), [], ((regs [(DDR_CFG.CAP_GIB, 16), (CARC_CTL.EN, 1), (CARC_CTL.LANE_EN, 65535), (PWR_DOM.STATE 79, 2), (PWR_DOM.STATE 80, 2), (CARC_POOL.VALID 1, 1), (CARC_POOL.MEMBERS 1, 255), (CARC_POOL.P 1, 2), (CARC_POOL.W 1, 8), (CARC_GEN_BASE.BASE, 16), (PAR_SHARD.STATE 0, 0), (CARC_BLADE.STATE 3, 1), (CARC_INTENT_CFG.LOG2_ENTRIES, 6), (CARC_CTL.PATROL_EN, 1), (CELL_SHARD.STATE 0, 2)] { State.reset with mem := Memory.writeN [] (65536 + 4096) (image 16 [(0, 2, 255), (2, 1, 8), (3, 1, 2), (4, 1, 1)]), carc := { patrolAt := 99, skipped := [(0, 9, 2)] }, cell := { shards := [(0, { wheels := [(4, { pool := 1, gen := 0, frame := 5, sealed := true })] })] } }).setCarc { patrolAt := 99 }).scripted [] fun v => v.patrolStripe 0 9 2, ⟨by decide +kernel, by decide +kernel, by decide +kernel, by decide +kernel, by first | with_reducible rfl | decide +kernel⟩⟩⟩

theorem witness_CarcaseRebuildPatrolAndTimers_3 :
  (∃ (s : State) (ms : List Medium), (s.on CARC_CTL.EN = true) ∧ (s.on CARC_CTL.PATROL_EN = true) ∧ (s.patrolStripes ≠ []) ∧ (s.patrolStripes[s.carc.patrolAt]? = none) ∧ (s.carc.skipped = [])) ∧
  (∃ (s : State) (ms : List Medium) (x : Nat × Nat × Nat) (t : State), (s.on CARC_CTL.EN = true) ∧ (s.on CARC_CTL.PATROL_EN = true) ∧ (s.patrolStripes[s.carc.patrolAt]? = some x) ∧ (s.carc.patrolAt + 1 < s.patrolStripes.length) ∧ (t = s.setCarc { s.carc with patrolAt := s.carc.patrolAt + 1 }) ∧ (t.rebuilding x = true)) ∧
  (∃ (s : State) (shard : Fin 256) (pool : Fin 16) (region : Nat) (ms : List Medium), (s.on CARC_CTL.EN = true) ∧ (s.rd (PAR_SHARD.STATE shard) = Pst.owned) ∧ (s.carc.bits.contains (shard.val, pool.val, region) = true)) ∧
  (∃ (s : State) (lane : Fin 16) (d : DescRef) (f : Fetched), ((s.carcLaneFault lane).fetchedAt .carc d = some f) ∧ (f.phase ≠ .fetched)) :=
  ⟨⟨regs [(DDR_CFG.CAP_GIB, 16), (CARC_CTL.EN, 1), (CARC_CTL.LANE_EN, 65535), (PWR_DOM.STATE 79, 2), (PWR_DOM.STATE 80, 2), (CARC_POOL.VALID 1, 1), (CARC_POOL.MEMBERS 1, 255), (CARC_POOL.P 1, 2), (CARC_POOL.W 1, 8), (CARC_GEN_BASE.BASE, 16), (PAR_SHARD.STATE 0, 0), (CARC_BLADE.STATE 3, 1), (CARC_INTENT_CFG.LOG2_ENTRIES, 6), (CARC_CTL.PATROL_EN, 1), (CELL_SHARD.STATE 0, 2)] { State.reset with carc := { patrolAt := 99 }, cell := { shards := [(0, { wheels := [(4, { pool := 1, gen := 0, frame := 5, sealed := true })] })] } }, [], by decide +kernel⟩,
   ⟨regs [(DDR_CFG.CAP_GIB, 16), (CARC_CTL.EN, 1), (CARC_CTL.LANE_EN, 65535), (PWR_DOM.STATE 79, 2), (PWR_DOM.STATE 80, 2), (CARC_POOL.VALID 1, 1), (CARC_POOL.MEMBERS 1, 255), (CARC_POOL.P 1, 2), (CARC_POOL.W 1, 8), (CARC_GEN_BASE.BASE, 16), (PAR_SHARD.STATE 0, 0), (CARC_BLADE.STATE 3, 1), (CARC_INTENT_CFG.LOG2_ENTRIES, 6), (CARC_CTL.PATROL_EN, 1), (CELL_SHARD.STATE 0, 2)] { State.reset with mem := Memory.writeN [] (65536 + 4096) (image 16 [(0, 2, 255), (2, 1, 8), (3, 1, 2), (4, 1, 1)]), carc := { patrolAt := 2, running := [3] }, cell := { shards := [(0, { wheels := [(4, { pool := 1, gen := 0, frame := 5, sealed := true })] })] } }, [], (0, 4, 2), (regs [(DDR_CFG.CAP_GIB, 16), (CARC_CTL.EN, 1), (CARC_CTL.LANE_EN, 65535), (PWR_DOM.STATE 79, 2), (PWR_DOM.STATE 80, 2), (CARC_POOL.VALID 1, 1), (CARC_POOL.MEMBERS 1, 255), (CARC_POOL.P 1, 2), (CARC_POOL.W 1, 8), (CARC_GEN_BASE.BASE, 16), (PAR_SHARD.STATE 0, 0), (CARC_BLADE.STATE 3, 1), (CARC_INTENT_CFG.LOG2_ENTRIES, 6), (CARC_CTL.PATROL_EN, 1), (CELL_SHARD.STATE 0, 2)] { State.reset with mem := Memory.writeN [] (65536 + 4096) (image 16 [(0, 2, 255), (2, 1, 8), (3, 1, 2), (4, 1, 1)]), carc := { patrolAt := 2, running := [3] }, cell := { shards := [(0, { wheels := [(4, { pool := 1, gen := 0, frame := 5, sealed := true })] })] } }).setCarc { running := [3], patrolAt := 3 }, ⟨by decide +kernel, by decide +kernel, by decide +kernel, by decide +kernel, by first | with_reducible rfl | decide +kernel, by decide +kernel⟩⟩,
   ⟨regs [(DDR_CFG.CAP_GIB, 16), (CARC_CTL.EN, 1), (CARC_CTL.LANE_EN, 65535), (PWR_DOM.STATE 79, 2), (PWR_DOM.STATE 80, 2), (CARC_POOL.VALID 1, 1), (CARC_POOL.MEMBERS 1, 255), (CARC_POOL.P 1, 2), (CARC_POOL.W 1, 8), (CARC_GEN_BASE.BASE, 16), (PAR_SHARD.STATE 0, 0), (CARC_BLADE.STATE 3, 1), (CARC_INTENT_CFG.LOG2_ENTRIES, 6)] { State.reset with carc := { bits := [(0, 1, 4)] } }, 0, 1, 4, [], by decide +kernel⟩,
   ⟨holds .carc [desc 0 Op.verify [(24, 4, 4096), (28, 1, 4), (29, 1, 2), (8, 8, 8192)] .started] (regs [(DDR_CFG.CAP_GIB, 16), (CARC_CTL.EN, 1), (CARC_CTL.LANE_EN, 65535), (PWR_DOM.STATE 79, 2), (PWR_DOM.STATE 80, 2), (CARC_POOL.VALID 1, 1), (CARC_POOL.MEMBERS 1, 255), (CARC_POOL.P 1, 2), (CARC_POOL.W 1, 8), (CARC_GEN_BASE.BASE, 16), (PAR_SHARD.STATE 0, 0), (CARC_BLADE.STATE 3, 1), (CARC_INTENT_CFG.LOG2_ENTRIES, 6)] { State.reset with mem := Memory.writeN (Memory.writeN [] (65536 + 4096) (image 16 [(0, 2, 255), (2, 1, 8), (3, 1, 2), (4, 1, 1)])) 8192 (image 16 [(0, 2, 255), (2, 1, 8), (3, 1, 2), (4, 1, 1)]) }), 3, ⟨0, 0⟩, desc 0 Op.verify [(24, 4, 4096), (28, 1, 4), (29, 1, 2), (8, 8, 8192)] .started, by decide +kernel⟩⟩

theorem witness_CarcaseRebuildPatrolAndTimers_4 :
  (∃ (s : State) (k i : Nat) (ms : List Medium) (c : NvmeCmd) (b : Blk) (by_ : Nat), (s.blk k i = some (c, b)) ∧ (b.step = .chunk by_) ∧ (s.passed by_ = true)) :=
  ⟨(regs [(DDR_CFG.CAP_GIB, 16), (PAR_CTL.EN, 1), (PAR_TENANT_TABLE.BASE, 1), (SEP_CTL.EN, 1), (SEP_CTL.INLINE_EN, 1), (SEP_DOMAIN_BASE.BASE, 16), (SEP_INDEX_BASE.BASE, 32), (SEP_INDEX_CFG.LOG2_BUCKETS, 4), (SEP_SHARD.STATE 0, 2), (PAR_SHARD.STATE 0, 0), (CELL_SHARD.STATE 0, 2), (CHURN_CTL.EN, 1), (PRESS_CTL.EN, 1), (VEN_CTL.EN, 1), (PWR_DOM.STATE 70, 2), (PWR_DOM.STATE 74, 2), (PWR_DOM.STATE 77, 2), (CHURN_CTL.LANE_EN, 65535), (PRESS_CTL.LANE_EN, 65535), (VEN_CTL.LANE_EN, 65535)] ({ State.reset with mem := Memory.writeN (Memory.writeN (Memory.writeN [] 64 (image 64 [(0, 2, 5), (8, 8, 4096)])) 65536 (image 16 [(0, 2, 0x8000), (2, 1, 1)])) 8192 (image 32 [(0, 1, 7)]) })) |>.setPar { cmds := [(0, ({ sqe := image 64 [(0, 1, Nop.read)], ctx := none, cntlid := 1, qid := 1, cls := 0, tenant := 0, vol := 1, stage := .running, since := 0, origin := some 5, begun := true, blks := [{ block := 0, step := .chunk 0 }] } : NvmeCmd))] }, 0, 0, [], ({ sqe := image 64 [(0, 1, Nop.read)], ctx := none, cntlid := 1, qid := 1, cls := 0, tenant := 0, vol := 1, stage := .running, since := 0, origin := some 5, begun := true, blks := [{ block := 0, step := .chunk 0 }] } : NvmeCmd), { block := 0, step := .chunk 0 }, 0, by decide +kernel⟩

theorem witness_CellarOwnWork :
  (∃ (s : State) (shard : Fin 256) (lane : Fin 8) (ms : List Medium) (l : Lane), (Tab.get? (s.cshard shard).lanes lane.val = some l) ∧ (s.on CELL_CTL.EN = true) ∧ (s.cellSt shard = Cst.ready ∨ s.cellSt shard = Cst.releasing) ∧ (s.rd CELL_JRN_CFG.HOLD = 0 ∨ s.pageFull shard l = true)) ∧
  (∃ (s : State) (shard : Fin 256) (lane : Fin 8) (ms : List Medium) (l : Lane), (Tab.get? (s.cshard shard).lanes lane.val = some l) ∧ (s.on CELL_CTL.EN = true) ∧ (s.cellSt shard = Cst.ready ∨ s.cellSt shard = Cst.releasing) ∧ (s.due l.holdUntil = true)) ∧
  (∃ (s : State) (shard : Fin 256) (page : Nat) (blade : Fin 16) (ms : List Medium) (x : JPage) (r : PageLoc × RepSt), (s.jpage shard page = some x) ∧ (x.reps.find? (s.replicaLate blade) = some r)) ∧
  (∃ (s : State) (shard : Fin 256) (lane : Fin 8) (ms : List Medium), (s.cellReady shard = true)) :=
  ⟨⟨regs [(DDR_CFG.CAP_GIB, 16), (CELL_CTL.EN, 1), (CELL_CTL.GC_EN, 1), (CELL_CTL.WL_EN, 1), (CELL_SHARD.STATE 5, 2), (SEP_SHARD.STATE 5, 2), (PAR_SHARD.STATE 5, 0), (LEASE_SHARD.STATE 5, Lst.held), (CELL_BLADE.STATE 3, 1), (CARC_BLADE.STATE 3, 1), (CELL_JRN_CFG.HOLD, 0), (CELL_GC_CFG.WHEEL_LIVE, 50), (CARC_GEN_BASE.BASE, 16)] { State.reset with now := 10 ^ 15, cell := { shards := [(5, { lanes := [(1, { blades := [3], next := [0], holdUntil := some 0 })] })] } }, 5, 1, [], { blades := [3], next := [0], holdUntil := some 0 }, by decide +kernel⟩,
   ⟨regs [(DDR_CFG.CAP_GIB, 16), (CELL_CTL.EN, 1), (CELL_CTL.GC_EN, 1), (CELL_CTL.WL_EN, 1), (CELL_SHARD.STATE 5, 2), (SEP_SHARD.STATE 5, 2), (PAR_SHARD.STATE 5, 0), (LEASE_SHARD.STATE 5, Lst.held), (CELL_BLADE.STATE 3, 1), (CARC_BLADE.STATE 3, 1), (CELL_JRN_CFG.HOLD, 0), (CELL_GC_CFG.WHEEL_LIVE, 50), (CARC_GEN_BASE.BASE, 16)] { State.reset with now := 10 ^ 15, cell := { shards := [(5, { lanes := [(1, { blades := [3], next := [0], holdUntil := some 0 })] })] } }, 5, 1, [], { blades := [3], next := [0], holdUntil := some 0 }, by decide +kernel⟩,
   ⟨regs [(DDR_CFG.CAP_GIB, 16), (CELL_CTL.EN, 1), (CELL_CTL.GC_EN, 1), (CELL_CTL.WL_EN, 1), (CELL_SHARD.STATE 5, 2), (SEP_SHARD.STATE 5, 2), (PAR_SHARD.STATE 5, 0), (LEASE_SHARD.STATE 5, Lst.held), (CELL_BLADE.STATE 3, 1), (CARC_BLADE.STATE 3, 1), (CELL_JRN_CFG.HOLD, 0), (CELL_GC_CFG.WHEEL_LIVE, 50), (CARC_GEN_BASE.BASE, 16)] { State.reset with now := 10 ^ 15, cell := { shards := [(5, { pages := [(0, { lane := 1, recs := [0], image := [], used := 0, wseq := 1, reps := [⟨⟨3, 7, 0⟩, .issued 0⟩] })] })] } }, 5, 0, 3, [], { lane := 1, recs := [0], image := [], used := 0, wseq := 1, reps := [⟨⟨3, 7, 0⟩, .issued 0⟩] }, (⟨3, 7, 0⟩, .issued 0), by decide +kernel⟩,
   ⟨regs [(DDR_CFG.CAP_GIB, 16), (CELL_CTL.EN, 1), (CELL_CTL.GC_EN, 1), (CELL_CTL.WL_EN, 1), (CELL_SHARD.STATE 5, 2), (SEP_SHARD.STATE 5, 2), (PAR_SHARD.STATE 5, 0), (LEASE_SHARD.STATE 5, Lst.held), (CELL_BLADE.STATE 3, 1), (CARC_BLADE.STATE 3, 1), (CELL_JRN_CFG.HOLD, 0), (CELL_GC_CFG.WHEEL_LIVE, 50), (CARC_GEN_BASE.BASE, 16)] { State.reset with now := 10 ^ 15, cell := { shards := [(5, {  })] } }, 5, 1, [], by decide +kernel⟩⟩

theorem witness_CellarOwnWork_2 :
  (∃ (s : State) (shard : Fin 256) (pool : Fin 16) (ms : List Medium), (s.cellReady shard = true) ∧ (s.wheelCap pool (s.rd (CARC_POOL.CUR_GEN pool)) ≤ ((s.foldable shard pool).map fun e => e.2.payload.length).sum)) ∧
  (∃ (s : State) (shard : Fin 256) (pool : Fin 16) (ms : List Medium) (e : Nat × JRec) (es : List (Nat × JRec)), (s.cellReady shard = true) ∧ (s.foldable shard pool = e :: es) ∧ (s.passed (e.2.at_ + s.rd CELL_FOLD_CFG.AGE * mgmtTick) = true)) ∧
  (∃ (s : State) (shard : Fin 256) (ms : List Medium), (s.cellReady shard = true) ∧ (s.due (s.cshard shard).ckptAt = true ∨ s.rd CELL_CKPT_CFG.TAIL_MIB * 2 ^ 20 < (s.cshard shard).cutBytes)) ∧
  (∃ (s : State) (shard : Fin 256), (s.due (s.cshard shard).ckptDue = true)) :=
  ⟨⟨regs [(DDR_CFG.CAP_GIB, 16), (CELL_CTL.EN, 1), (CELL_CTL.GC_EN, 1), (CELL_CTL.WL_EN, 1), (CELL_SHARD.STATE 5, 2), (SEP_SHARD.STATE 5, 2), (PAR_SHARD.STATE 5, 0), (LEASE_SHARD.STATE 5, Lst.held), (CELL_BLADE.STATE 3, 1), (CARC_BLADE.STATE 3, 1), (CELL_JRN_CFG.HOLD, 0), (CELL_GC_CFG.WHEEL_LIVE, 50), (CARC_GEN_BASE.BASE, 16)] { State.reset with now := 10 ^ 15, cell := { shards := [(5, {  })] } }, 5, 1, [], by decide +kernel⟩,
   ⟨regs [(DDR_CFG.CAP_GIB, 16), (CELL_CTL.EN, 1), (CELL_CTL.GC_EN, 1), (CELL_CTL.WL_EN, 1), (CELL_SHARD.STATE 5, 2), (SEP_SHARD.STATE 5, 2), (PAR_SHARD.STATE 5, 0), (LEASE_SHARD.STATE 5, Lst.held), (CELL_BLADE.STATE 3, 1), (CARC_BLADE.STATE 3, 1), (CELL_JRN_CFG.HOLD, 0), (CELL_GC_CFG.WHEEL_LIVE, 50), (CARC_GEN_BASE.BASE, 16)] { State.reset with now := 10 ^ 15, cell := { shards := [(5, { recs := [(0, { type := Jt.data, epoch := 0, confirmed := true, payload := zeros 96 })] })] } }, 5, 0, [], (0, { type := Jt.data, epoch := 0, confirmed := true, payload := zeros 96 }), [], by decide +kernel⟩,
   ⟨regs [(DDR_CFG.CAP_GIB, 16), (CELL_CTL.EN, 1), (CELL_CTL.GC_EN, 1), (CELL_CTL.WL_EN, 1), (CELL_SHARD.STATE 5, 2), (SEP_SHARD.STATE 5, 2), (PAR_SHARD.STATE 5, 0), (LEASE_SHARD.STATE 5, Lst.held), (CELL_BLADE.STATE 3, 1), (CARC_BLADE.STATE 3, 1), (CELL_JRN_CFG.HOLD, 0), (CELL_GC_CFG.WHEEL_LIVE, 50), (CARC_GEN_BASE.BASE, 16)] { State.reset with now := 10 ^ 15, cell := { shards := [(5, { ckptAt := some 0 })] } }, 5, [], by decide +kernel⟩,
   ⟨regs [(DDR_CFG.CAP_GIB, 16), (CELL_CTL.EN, 1), (CELL_CTL.GC_EN, 1), (CELL_CTL.WL_EN, 1), (CELL_SHARD.STATE 5, 2), (SEP_SHARD.STATE 5, 2), (PAR_SHARD.STATE 5, 0), (LEASE_SHARD.STATE 5, Lst.held), (CELL_BLADE.STATE 3, 1), (CARC_BLADE.STATE 3, 1), (CELL_JRN_CFG.HOLD, 0), (CELL_GC_CFG.WHEEL_LIVE, 50), (CARC_GEN_BASE.BASE, 16)] { State.reset with now := 10 ^ 15, cell := { shards := [(5, { ckptDue := some 0 })] } }, 5, by decide +kernel⟩⟩

theorem witness_CellarOwnWork_3 :
  (∃ (s : State) (blade : Fin 16) (shard : Fin 256) (ms : List Medium) (n : Nat) (y : Band), (s.gcMay shard = true) ∧ (s.victim blade shard = some (n, y)) ∧ (100 * y.liveUnits ≤ s.rd CELL_GC_CFG.VICTIM_LIVE * s.bandPlaces blade .main ∨ s.freeBands blade < s.rd CELL_GC_CFG.GC_LOW)) ∧
  (∃ (s : State) (blade : Fin 16) (ms : List Medium), (s.due (s.cblade blade).wlAt = true) ∧ (s.on CELL_CTL.WL_EN = false)) ∧
  (∃ (s : State) (blade : Fin 16) (ms : List Medium) (t : State) (n hi : Nat) (y : Band), (s.due (s.cblade blade).wlAt = true) ∧ (t = s.setCblade blade { s.cblade blade with wlAt := some (s.inMgmt (s.rd CELL_GC_CFG.WL_PERIOD)) }) ∧ (t.wearSpread blade = (some (n, y), hi)) ∧ (t.on CELL_CTL.WL_EN = true) ∧ (t.rd CELL_GC_CFG.WL_GAP < hi - y.ec) ∧ (t.cellReady y.shard = true)) ∧
  (∃ (s : State) (blade : Fin 16) (ms : List Medium) (t : State) (m : Option (Nat × Band)) (hi : Nat), (s.due (s.cblade blade).wlAt = true) ∧ (t = s.setCblade blade { s.cblade blade with wlAt := some (s.inMgmt (s.rd CELL_GC_CFG.WL_PERIOD)) }) ∧ (t.wearSpread blade = (m, hi)) ∧ (∀ x, m = some x → t.on CELL_CTL.WL_EN = false ∨ hi - x.2.ec ≤ t.rd CELL_GC_CFG.WL_GAP ∨ t.cellReady x.2.shard = false)) :=
  ⟨⟨regs [(DDR_CFG.CAP_GIB, 16), (CELL_CTL.EN, 1), (CELL_CTL.GC_EN, 1), (CELL_CTL.WL_EN, 1), (CELL_SHARD.STATE 5, 2), (SEP_SHARD.STATE 5, 2), (PAR_SHARD.STATE 5, 0), (LEASE_SHARD.STATE 5, Lst.held), (CELL_BLADE.STATE 3, 1), (CARC_BLADE.STATE 3, 1), (CELL_JRN_CFG.HOLD, 0), (CELL_GC_CFG.WHEEL_LIVE, 50), (CARC_GEN_BASE.BASE, 16)] { State.reset with now := 10 ^ 15, cell := { blades := [(3, { bands := [(7, { kind := .main, shard := 5, st := .closed, ec := 4 })] })] } }, 3, 5, [], 7, { kind := .main, shard := 5, st := .closed, ec := 4 }, by decide +kernel⟩,
   ⟨regs [(DDR_CFG.CAP_GIB, 16), (CELL_CTL.EN, 1), (CELL_CTL.GC_EN, 1), (CELL_CTL.WL_EN, 1), (CELL_SHARD.STATE 5, 2), (SEP_SHARD.STATE 5, 2), (PAR_SHARD.STATE 5, 0), (LEASE_SHARD.STATE 5, Lst.held), (CELL_BLADE.STATE 3, 1), (CARC_BLADE.STATE 3, 1), (CELL_JRN_CFG.HOLD, 0), (CELL_GC_CFG.WHEEL_LIVE, 50), (CARC_GEN_BASE.BASE, 16), (CELL_CTL.WL_EN, 0)] { State.reset with now := 10 ^ 15, cell := { blades := [(3, { wlAt := some 0 })] } }, 3, [], by decide +kernel⟩,
   ⟨regs [(DDR_CFG.CAP_GIB, 16), (CELL_CTL.EN, 1), (CELL_CTL.GC_EN, 1), (CELL_CTL.WL_EN, 1), (CELL_SHARD.STATE 5, 2), (SEP_SHARD.STATE 5, 2), (PAR_SHARD.STATE 5, 0), (LEASE_SHARD.STATE 5, Lst.held), (CELL_BLADE.STATE 3, 1), (CARC_BLADE.STATE 3, 1), (CELL_JRN_CFG.HOLD, 0), (CELL_GC_CFG.WHEEL_LIVE, 50), (CARC_GEN_BASE.BASE, 16)] { State.reset with now := 10 ^ 15, cell := { blades := [(3, { wlAt := some 0, bands := [(7, { kind := .main, shard := 5, st := .closed, ec := 4, units := [{ kind := 0, obj := 0, wseq := 0, dpage := 0 }] })], ecs := [(9, 100000)] })] } }, 3, [], (regs [(DDR_CFG.CAP_GIB, 16), (CELL_CTL.EN, 1), (CELL_CTL.GC_EN, 1), (CELL_CTL.WL_EN, 1), (CELL_SHARD.STATE 5, 2), (SEP_SHARD.STATE 5, 2), (PAR_SHARD.STATE 5, 0), (LEASE_SHARD.STATE 5, Lst.held), (CELL_BLADE.STATE 3, 1), (CARC_BLADE.STATE 3, 1), (CELL_JRN_CFG.HOLD, 0), (CELL_GC_CFG.WHEEL_LIVE, 50), (CARC_GEN_BASE.BASE, 16)] { State.reset with now := 10 ^ 15, cell := { blades := [(3, { wlAt := some 0, bands := [(7, { kind := .main, shard := 5, st := .closed, ec := 4, units := [{ kind := 0, obj := 0, wseq := 0, dpage := 0 }] })], ecs := [(9, 100000)] })] } }).setCblade 3 { (regs [(DDR_CFG.CAP_GIB, 16), (CELL_CTL.EN, 1), (CELL_CTL.GC_EN, 1), (CELL_CTL.WL_EN, 1), (CELL_SHARD.STATE 5, 2), (SEP_SHARD.STATE 5, 2), (PAR_SHARD.STATE 5, 0), (LEASE_SHARD.STATE 5, Lst.held), (CELL_BLADE.STATE 3, 1), (CARC_BLADE.STATE 3, 1), (CELL_JRN_CFG.HOLD, 0), (CELL_GC_CFG.WHEEL_LIVE, 50), (CARC_GEN_BASE.BASE, 16)] { State.reset with now := 10 ^ 15, cell := { blades := [(3, { wlAt := some 0, bands := [(7, { kind := .main, shard := 5, st := .closed, ec := 4, units := [{ kind := 0, obj := 0, wseq := 0, dpage := 0 }] })], ecs := [(9, 100000)] })] } }).cblade 3 with wlAt := some ((regs [(DDR_CFG.CAP_GIB, 16), (CELL_CTL.EN, 1), (CELL_CTL.GC_EN, 1), (CELL_CTL.WL_EN, 1), (CELL_SHARD.STATE 5, 2), (SEP_SHARD.STATE 5, 2), (PAR_SHARD.STATE 5, 0), (LEASE_SHARD.STATE 5, Lst.held), (CELL_BLADE.STATE 3, 1), (CARC_BLADE.STATE 3, 1), (CELL_JRN_CFG.HOLD, 0), (CELL_GC_CFG.WHEEL_LIVE, 50), (CARC_GEN_BASE.BASE, 16)] { State.reset with now := 10 ^ 15, cell := { blades := [(3, { wlAt := some 0, bands := [(7, { kind := .main, shard := 5, st := .closed, ec := 4, units := [{ kind := 0, obj := 0, wseq := 0, dpage := 0 }] })], ecs := [(9, 100000)] })] } }).inMgmt ((regs [(DDR_CFG.CAP_GIB, 16), (CELL_CTL.EN, 1), (CELL_CTL.GC_EN, 1), (CELL_CTL.WL_EN, 1), (CELL_SHARD.STATE 5, 2), (SEP_SHARD.STATE 5, 2), (PAR_SHARD.STATE 5, 0), (LEASE_SHARD.STATE 5, Lst.held), (CELL_BLADE.STATE 3, 1), (CARC_BLADE.STATE 3, 1), (CELL_JRN_CFG.HOLD, 0), (CELL_GC_CFG.WHEEL_LIVE, 50), (CARC_GEN_BASE.BASE, 16)] { State.reset with now := 10 ^ 15, cell := { blades := [(3, { wlAt := some 0, bands := [(7, { kind := .main, shard := 5, st := .closed, ec := 4, units := [{ kind := 0, obj := 0, wseq := 0, dpage := 0 }] })], ecs := [(9, 100000)] })] } }).rd CELL_GC_CFG.WL_PERIOD)) }, 7, 100000, { kind := .main, shard := 5, st := .closed, ec := 4, units := [{ kind := 0, obj := 0, wseq := 0, dpage := 0 }] }, ⟨by decide +kernel, by first | with_reducible rfl | decide +kernel, by decide +kernel, by decide +kernel, by decide +kernel, by decide +kernel⟩⟩,
   ⟨regs [(DDR_CFG.CAP_GIB, 16), (CELL_CTL.EN, 1), (CELL_CTL.GC_EN, 1), (CELL_CTL.WL_EN, 1), (CELL_SHARD.STATE 5, 2), (SEP_SHARD.STATE 5, 2), (PAR_SHARD.STATE 5, 0), (LEASE_SHARD.STATE 5, Lst.held), (CELL_BLADE.STATE 3, 1), (CARC_BLADE.STATE 3, 1), (CELL_JRN_CFG.HOLD, 0), (CELL_GC_CFG.WHEEL_LIVE, 50), (CARC_GEN_BASE.BASE, 16)] { State.reset with now := 10 ^ 15, cell := { blades := [(3, { wlAt := some 0 })] } }, 3, [], (regs [(DDR_CFG.CAP_GIB, 16), (CELL_CTL.EN, 1), (CELL_CTL.GC_EN, 1), (CELL_CTL.WL_EN, 1), (CELL_SHARD.STATE 5, 2), (SEP_SHARD.STATE 5, 2), (PAR_SHARD.STATE 5, 0), (LEASE_SHARD.STATE 5, Lst.held), (CELL_BLADE.STATE 3, 1), (CARC_BLADE.STATE 3, 1), (CELL_JRN_CFG.HOLD, 0), (CELL_GC_CFG.WHEEL_LIVE, 50), (CARC_GEN_BASE.BASE, 16)] { State.reset with now := 10 ^ 15, cell := { blades := [(3, { wlAt := some 0 })] } }).setCblade 3 { (regs [(DDR_CFG.CAP_GIB, 16), (CELL_CTL.EN, 1), (CELL_CTL.GC_EN, 1), (CELL_CTL.WL_EN, 1), (CELL_SHARD.STATE 5, 2), (SEP_SHARD.STATE 5, 2), (PAR_SHARD.STATE 5, 0), (LEASE_SHARD.STATE 5, Lst.held), (CELL_BLADE.STATE 3, 1), (CARC_BLADE.STATE 3, 1), (CELL_JRN_CFG.HOLD, 0), (CELL_GC_CFG.WHEEL_LIVE, 50), (CARC_GEN_BASE.BASE, 16)] { State.reset with now := 10 ^ 15, cell := { blades := [(3, { wlAt := some 0 })] } }).cblade 3 with wlAt := some ((regs [(DDR_CFG.CAP_GIB, 16), (CELL_CTL.EN, 1), (CELL_CTL.GC_EN, 1), (CELL_CTL.WL_EN, 1), (CELL_SHARD.STATE 5, 2), (SEP_SHARD.STATE 5, 2), (PAR_SHARD.STATE 5, 0), (LEASE_SHARD.STATE 5, Lst.held), (CELL_BLADE.STATE 3, 1), (CARC_BLADE.STATE 3, 1), (CELL_JRN_CFG.HOLD, 0), (CELL_GC_CFG.WHEEL_LIVE, 50), (CARC_GEN_BASE.BASE, 16)] { State.reset with now := 10 ^ 15, cell := { blades := [(3, { wlAt := some 0 })] } }).inMgmt ((regs [(DDR_CFG.CAP_GIB, 16), (CELL_CTL.EN, 1), (CELL_CTL.GC_EN, 1), (CELL_CTL.WL_EN, 1), (CELL_SHARD.STATE 5, 2), (SEP_SHARD.STATE 5, 2), (PAR_SHARD.STATE 5, 0), (LEASE_SHARD.STATE 5, Lst.held), (CELL_BLADE.STATE 3, 1), (CARC_BLADE.STATE 3, 1), (CELL_JRN_CFG.HOLD, 0), (CELL_GC_CFG.WHEEL_LIVE, 50), (CARC_GEN_BASE.BASE, 16)] { State.reset with now := 10 ^ 15, cell := { blades := [(3, { wlAt := some 0 })] } }).rd CELL_GC_CFG.WL_PERIOD)) }, none, ((regs [(DDR_CFG.CAP_GIB, 16), (CELL_CTL.EN, 1), (CELL_CTL.GC_EN, 1), (CELL_CTL.WL_EN, 1), (CELL_SHARD.STATE 5, 2), (SEP_SHARD.STATE 5, 2), (PAR_SHARD.STATE 5, 0), (LEASE_SHARD.STATE 5, Lst.held), (CELL_BLADE.STATE 3, 1), (CARC_BLADE.STATE 3, 1), (CELL_JRN_CFG.HOLD, 0), (CELL_GC_CFG.WHEEL_LIVE, 50), (CARC_GEN_BASE.BASE, 16)] { State.reset with now := 10 ^ 15, cell := { blades := [(3, { wlAt := some 0 })] } }).wearSpread 3).2, ⟨by decide +kernel, by rfl, by decide +kernel, by intro x h; cases h⟩⟩⟩

theorem witness_CellarOwnWork_4 :
  (∃ (s : State) (shard : Fin 256) (wheel : Nat) (ms : List Medium) (w : Wheel), (s.wheel shard wheel = some w) ∧ (s.gcMay shard = true) ∧ (s.mayReclaim shard wheel = true) ∧ (s.reclaiming shard wheel = false) ∧ (100 * w.liveBytes < s.rd CELL_GC_CFG.WHEEL_LIVE * s.wheelCap w.pool w.gen)) ∧
  (∃ (s : State), (s.on CELL_CTL.EN = true) ∧ (s.due s.cell.healthAt = true)) :=
  ⟨⟨regs [(DDR_CFG.CAP_GIB, 16), (CELL_CTL.EN, 1), (CELL_CTL.GC_EN, 1), (CELL_CTL.WL_EN, 1), (CELL_SHARD.STATE 5, 2), (SEP_SHARD.STATE 5, 2), (PAR_SHARD.STATE 5, 0), (LEASE_SHARD.STATE 5, Lst.held), (CELL_BLADE.STATE 3, 1), (CARC_BLADE.STATE 3, 1), (CELL_JRN_CFG.HOLD, 0), (CELL_GC_CFG.WHEEL_LIVE, 50), (CARC_GEN_BASE.BASE, 16)] { State.reset with now := 10 ^ 15, cell := { shards := [(5, { wheels := [(4, { pool := 1, gen := 0, frame := 5, sealed := true })] })] }, mem := Memory.writeN [] (65536 + 4096) (image 16 [(0, 2, 255), (2, 1, 8), (3, 1, 2), (4, 1, 1)]) }, 5, 4, [], { pool := 1, gen := 0, frame := 5, sealed := true }, by decide +kernel⟩,
   ⟨regs [(DDR_CFG.CAP_GIB, 16), (CELL_CTL.EN, 1), (CELL_CTL.GC_EN, 1), (CELL_CTL.WL_EN, 1), (CELL_SHARD.STATE 5, 2), (SEP_SHARD.STATE 5, 2), (PAR_SHARD.STATE 5, 0), (LEASE_SHARD.STATE 5, Lst.held), (CELL_BLADE.STATE 3, 1), (CARC_BLADE.STATE 3, 1), (CELL_JRN_CFG.HOLD, 0), (CELL_GC_CFG.WHEEL_LIVE, 50), (CARC_GEN_BASE.BASE, 16)] { State.reset with now := 10 ^ 15, cell := { healthAt := some 0 } }, by decide +kernel⟩⟩

theorem witness_CellarDescriptors :
  (∃ (s : State) (d : DescRef) (f : Fetched) (ms : List Medium), (s.startedAt .cell d Op.bladeAttach = some f) ∧ (f.at 28 1 ≤ 15) ∧ ((f.at 29 1).testBit 0 = false) ∧ (s.bldSt (f.at 28 1) = Bst.ready) ∧ ((s.bladeOr (f.at 28 1)).id.fits = true) ∧ (s.ten.maint = []) ∧ (s.defersOf (f.at 28 1) = []) ∧ ((s.cblade (f.at 28 1)).defers = [])) ∧
  (∃ (s : State) (d : DescRef) (f : Fetched) (ms : List Medium), (s.startedAt .cell d Op.bladeAttach = some f) ∧ (f.at 28 1 ≤ 15) ∧ (s.bldSt (f.at 28 1) = Bst.ready) ∧ ((s.bladeOr (f.at 28 1)).id.fits = true) ∧ ((s.ten.maint.any fun x => x.2 == d) = false) ∧ ((f.at 29 1).testBit 0 = false)) ∧
  (∃ (s : State) (d : DescRef) (f : Fetched) (ms : List Medium), (s.startedAt .cell d Op.bladeAttach = some f) ∧ (f.at 28 1 ≤ 15) ∧ (s.bldSt (f.at 28 1) = Bst.ready) ∧ ((s.bladeOr (f.at 28 1)).id.fits = true) ∧ ((s.ten.maint.any fun x => x.2 == d) = false) ∧ ((f.at 29 1).testBit 0 = true)) ∧
  (∃ (s : State) (d : DescRef) (f : Fetched) (ms : List Medium), (s.startedAt .cell d Op.bladeAttach = some f) ∧ (15 < f.at 28 1 ∨ s.bldSt (f.at 28 1) ≠ Bst.ready)) :=
  ⟨⟨holds .cell [desc 0 Op.bladeAttach [(28, 1, 3)] .started] (regs [(DDR_CFG.CAP_GIB, 16), (CELL_CTL.EN, 1), (CELL_CTL.GC_EN, 1), (CELL_CTL.WL_EN, 1), (CELL_SHARD.STATE 5, 2), (SEP_SHARD.STATE 5, 2), (PAR_SHARD.STATE 5, 0), (LEASE_SHARD.STATE 5, Lst.held), (CELL_BLADE.STATE 3, 1), (CARC_BLADE.STATE 3, 1), (CELL_JRN_CFG.HOLD, 0), (CELL_GC_CFG.WHEEL_LIVE, 50), (CARC_GEN_BASE.BASE, 16), (BLD_PORT_STATUS.STATE 3, 4)] { State.reset with now := 10 ^ 15, cell := { blades := [] }, blades := [(3, { id := { dies := 16, blocks := 1024, pagesQlc := 768, spare := 8, ratedEc := 1000 } })] }), ⟨0, 0⟩, desc 0 Op.bladeAttach [(28, 1, 3)] .started, [], by decide +kernel⟩,
   ⟨holds .cell [desc 0 Op.bladeAttach [(28, 1, 3)] .started] (regs [(DDR_CFG.CAP_GIB, 16), (CELL_CTL.EN, 1), (CELL_CTL.GC_EN, 1), (CELL_CTL.WL_EN, 1), (CELL_SHARD.STATE 5, 2), (SEP_SHARD.STATE 5, 2), (PAR_SHARD.STATE 5, 0), (LEASE_SHARD.STATE 5, Lst.held), (CELL_BLADE.STATE 3, 1), (CARC_BLADE.STATE 3, 1), (CELL_JRN_CFG.HOLD, 0), (CELL_GC_CFG.WHEEL_LIVE, 50), (CARC_GEN_BASE.BASE, 16), (BLD_PORT_STATUS.STATE 3, 4)] { State.reset with now := 10 ^ 15, cell := { blades := [] }, blades := [(3, { id := { dies := 16, blocks := 1024, pagesQlc := 768, spare := 8, ratedEc := 1000 } })] }), ⟨0, 0⟩, desc 0 Op.bladeAttach [(28, 1, 3)] .started, [], by decide +kernel⟩,
   ⟨holds .cell [desc 0 Op.bladeAttach [(28, 1, 3), (29, 1, 1)] .started] (regs [(DDR_CFG.CAP_GIB, 16), (CELL_CTL.EN, 1), (CELL_CTL.GC_EN, 1), (CELL_CTL.WL_EN, 1), (CELL_SHARD.STATE 5, 2), (SEP_SHARD.STATE 5, 2), (PAR_SHARD.STATE 5, 0), (LEASE_SHARD.STATE 5, Lst.held), (CELL_BLADE.STATE 3, 1), (CARC_BLADE.STATE 3, 1), (CELL_JRN_CFG.HOLD, 0), (CELL_GC_CFG.WHEEL_LIVE, 50), (CARC_GEN_BASE.BASE, 16), (BLD_PORT_STATUS.STATE 3, 4)] { State.reset with now := 10 ^ 15, cell := { blades := [] }, blades := [(3, { id := { dies := 16, blocks := 1024, pagesQlc := 768, spare := 8, ratedEc := 1000 } })] }), ⟨0, 0⟩, desc 0 Op.bladeAttach [(28, 1, 3), (29, 1, 1)] .started, [], by decide +kernel⟩,
   ⟨holds .cell [desc 0 Op.bladeAttach [(28, 1, 3)] .started] (regs [(DDR_CFG.CAP_GIB, 16), (CELL_CTL.EN, 1), (CELL_CTL.GC_EN, 1), (CELL_CTL.WL_EN, 1), (CELL_SHARD.STATE 5, 2), (SEP_SHARD.STATE 5, 2), (PAR_SHARD.STATE 5, 0), (LEASE_SHARD.STATE 5, Lst.held), (CELL_BLADE.STATE 3, 1), (CARC_BLADE.STATE 3, 1), (CELL_JRN_CFG.HOLD, 0), (CELL_GC_CFG.WHEEL_LIVE, 50), (CARC_GEN_BASE.BASE, 16)] { State.reset with now := 10 ^ 15, cell := { blades := [] } }), ⟨0, 0⟩, desc 0 Op.bladeAttach [(28, 1, 3)] .started, [], by decide +kernel⟩⟩

theorem witness_CellarDescriptors_2 :
  (∃ (s : State) (d : DescRef) (f : Fetched), (s.startedAt .cell d Op.bladeDetach = some f) ∧ (f.at 28 1 ≤ 15) ∧ (s.rd (CELL_BLADE.STATE (f.at 28 1)) ≠ 0) ∧ (((s.cblade (f.at 28 1)).bands.any fun e => e.2.kind != .anchor && e.2.units.any CUnit.live) = false)) ∧
  (∃ (s : State) (d : DescRef) (f : Fetched) (bs : List Nat) (l : Lane), (s.startedAt .cell d Op.laneSet = some f) ∧ (f.at 29 1 ≤ 7) ∧ ((f.at 30 1).testBit 0 = false) ∧ (s.laneBlades (f.at 32 2) = some bs) ∧ (l = Tab.getD (s.cshard (f.at 28 1)).lanes (f.at 29 1) ⟨[], [], none⟩)) ∧
  (∃ (s : State) (d : DescRef) (f : Fetched) (t : State), (s.startedAt .cell d Op.laneSet = some f) ∧ (f.at 29 1 ≤ 7) ∧ ((f.at 30 1).testBit 0 = true) ∧ (s.cellSt (f.at 28 1) ≠ Cst.ready ∨ (Tab.del (s.cshard (f.at 28 1)).lanes (f.at 29 1)).isEmpty = false) ∧ (t = s.setCshard (f.at 28 1) { s.cshard (f.at 28 1) with lanes := Tab.del (s.cshard (f.at 28 1)).lanes (f.at 29 1) })) ∧
  (∃ (s : State) (d : DescRef) (f : Fetched) (img : Option Snapshot) (ms : List Medium), (s.startedAt .cell d Op.shardLoad = some f) ∧ (s.cellSt (f.at 28 1) = Cst.absent) ∧ (f.at 32 8 = s.rd (LEASE_EPOCH.EPOCH (f.at 28 1))) ∧ (s.liveLease (f.at 28 1) = true)) :=
  ⟨⟨holds .cell [desc 0 Op.bladeDetach [(28, 1, 3)] .started] (regs [(DDR_CFG.CAP_GIB, 16), (CELL_CTL.EN, 1), (CELL_CTL.GC_EN, 1), (CELL_CTL.WL_EN, 1), (CELL_SHARD.STATE 5, 2), (SEP_SHARD.STATE 5, 2), (PAR_SHARD.STATE 5, 0), (LEASE_SHARD.STATE 5, Lst.held), (CELL_BLADE.STATE 3, 1), (CARC_BLADE.STATE 3, 1), (CELL_JRN_CFG.HOLD, 0), (CELL_GC_CFG.WHEEL_LIVE, 50), (CARC_GEN_BASE.BASE, 16)] { State.reset with now := 10 ^ 15, cell := { blades := [] } }), ⟨0, 0⟩, desc 0 Op.bladeDetach [(28, 1, 3)] .started, by decide +kernel⟩,
   ⟨holds .cell [desc 0 Op.laneSet [(28, 1, 5), (29, 1, 2), (32, 2, 0x321)] .started] (regs [(DDR_CFG.CAP_GIB, 16), (CELL_CTL.EN, 1), (CELL_CTL.GC_EN, 1), (CELL_CTL.WL_EN, 1), (CELL_SHARD.STATE 5, 2), (SEP_SHARD.STATE 5, 2), (PAR_SHARD.STATE 5, 0), (LEASE_SHARD.STATE 5, Lst.held), (CELL_BLADE.STATE 3, 1), (CARC_BLADE.STATE 3, 1), (CELL_JRN_CFG.HOLD, 0), (CELL_GC_CFG.WHEEL_LIVE, 50), (CARC_GEN_BASE.BASE, 16), (CARC_POOL.VALID 1, 1), (CARC_POOL.P 1, 2), (CARC_POOL.MEMBERS 1, 255), (CARC_BLADE.STATE 1, 1), (CARC_BLADE.STATE 2, 1)] { State.reset with now := 10 ^ 15, cell := { blades := [] } }), ⟨0, 0⟩, desc 0 Op.laneSet [(28, 1, 5), (29, 1, 2), (32, 2, 0x321)] .started, [1, 2, 3], ⟨[], [], none⟩, by decide +kernel⟩,
   ⟨holds .cell [desc 0 Op.laneSet [(28, 1, 5), (29, 1, 2), (30, 1, 1)] .started] (regs [(DDR_CFG.CAP_GIB, 16), (CELL_CTL.EN, 1), (CELL_CTL.GC_EN, 1), (CELL_CTL.WL_EN, 1), (CELL_SHARD.STATE 5, 2), (SEP_SHARD.STATE 5, 2), (PAR_SHARD.STATE 5, 0), (LEASE_SHARD.STATE 5, Lst.held), (CELL_BLADE.STATE 3, 1), (CARC_BLADE.STATE 3, 1), (CELL_JRN_CFG.HOLD, 0), (CELL_GC_CFG.WHEEL_LIVE, 50), (CARC_GEN_BASE.BASE, 16)] { State.reset with now := 10 ^ 15, cell := { shards := [(5, { lanes := [(1, { blades := [3], next := [] }), (2, { blades := [4], next := [] })] })] } }), ⟨0, 0⟩, desc 0 Op.laneSet [(28, 1, 5), (29, 1, 2), (30, 1, 1)] .started, (holds .cell [desc 0 Op.laneSet [(28, 1, 5), (29, 1, 2), (30, 1, 1)] .started] (regs [(DDR_CFG.CAP_GIB, 16), (CELL_CTL.EN, 1), (CELL_CTL.GC_EN, 1), (CELL_CTL.WL_EN, 1), (CELL_SHARD.STATE 5, 2), (SEP_SHARD.STATE 5, 2), (PAR_SHARD.STATE 5, 0), (LEASE_SHARD.STATE 5, Lst.held), (CELL_BLADE.STATE 3, 1), (CARC_BLADE.STATE 3, 1), (CELL_JRN_CFG.HOLD, 0), (CELL_GC_CFG.WHEEL_LIVE, 50), (CARC_GEN_BASE.BASE, 16)] { State.reset with now := 10 ^ 15, cell := { shards := [(5, { lanes := [(1, { blades := [3], next := [] }), (2, { blades := [4], next := [] })] })] } })).setCshard 5 { lanes := [(1, { blades := [3], next := [] })] }, ⟨by decide +kernel, by decide +kernel, by decide +kernel, by decide +kernel, by first | with_reducible rfl | decide +kernel⟩⟩,
   ⟨holds .cell [desc 0 Op.shardLoad [(28, 1, 5), (32, 8, 9)] .started] (regs [(DDR_CFG.CAP_GIB, 16), (CELL_CTL.EN, 1), (CELL_CTL.GC_EN, 1), (CELL_CTL.WL_EN, 1), (CELL_SHARD.STATE 5, 2), (SEP_SHARD.STATE 5, 2), (PAR_SHARD.STATE 5, 0), (LEASE_SHARD.STATE 5, Lst.held), (CELL_BLADE.STATE 3, 1), (CARC_BLADE.STATE 3, 1), (CELL_JRN_CFG.HOLD, 0), (CELL_GC_CFG.WHEEL_LIVE, 50), (CARC_GEN_BASE.BASE, 16), (CELL_SHARD.STATE 5, 0), (LEASE_EPOCH.EPOCH 5, 9)] { State.reset with now := 10 ^ 15, cell := { blades := [] }, leaseU := { shards := [(5, { ends := 10 ^ 16 })] } }), ⟨0, 0⟩, desc 0 Op.shardLoad [(28, 1, 5), (32, 8, 9)] .started, none, [], by decide +kernel⟩⟩

theorem witness_CellarDescriptors_3 :
  (∃ (s : State) (d : DescRef) (f : Fetched) (img : Option Snapshot) (ms : List Medium), (s.startedAt .cell d Op.shardLoad = some f) ∧ (s.cellSt (f.at 28 1) = Cst.absent) ∧ (s.liveLease (f.at 28 1) = false)) ∧
  (∃ (s : State) (d : DescRef) (f : Fetched) (ms : List Medium) (t : State), (s.startedAt .cell d Op.shardRelease = some f) ∧ (s.cellSt (f.at 28 1) = Cst.ready ∨ s.cellSt (f.at 28 1) = Cst.releasing) ∧ (t = s.wr (CELL_SHARD.STATE (f.at 28 1)) Cst.releasing) ∧ (t.drained (f.at 28 1) = true)) ∧
  (∃ (s : State) (d : DescRef) (f : Fetched) (ms : List Medium), (s.startedAt .cell d Op.checkpoint = some f) ∧ (s.cellSt (f.at 28 1) = Cst.ready)) ∧
  (∃ (s : State) (d : DescRef) (f : Fetched) (ms : List Medium), (s.startedAt .cell d Op.foldNow = some f) ∧ (s.cellSt (f.at 28 1) = Cst.ready) ∧ (s.foldWaits (f.at 28 1) d = false)) :=
  ⟨⟨holds .cell [desc 0 Op.shardLoad [(28, 1, 5), (32, 8, 9)] .started] (regs [(DDR_CFG.CAP_GIB, 16), (CELL_CTL.EN, 1), (CELL_CTL.GC_EN, 1), (CELL_CTL.WL_EN, 1), (CELL_SHARD.STATE 5, 2), (SEP_SHARD.STATE 5, 2), (PAR_SHARD.STATE 5, 0), (LEASE_SHARD.STATE 5, Lst.held), (CELL_BLADE.STATE 3, 1), (CARC_BLADE.STATE 3, 1), (CELL_JRN_CFG.HOLD, 0), (CELL_GC_CFG.WHEEL_LIVE, 50), (CARC_GEN_BASE.BASE, 16), (CELL_SHARD.STATE 5, 0)] { State.reset with now := 10 ^ 15, cell := { blades := [] } }), ⟨0, 0⟩, desc 0 Op.shardLoad [(28, 1, 5), (32, 8, 9)] .started, none, [], by decide +kernel⟩,
   ⟨holds .cell [desc 0 Op.shardRelease [(28, 1, 5)] .started] (regs [(DDR_CFG.CAP_GIB, 16), (CELL_CTL.EN, 1), (CELL_CTL.GC_EN, 1), (CELL_CTL.WL_EN, 1), (CELL_SHARD.STATE 5, 2), (SEP_SHARD.STATE 5, 2), (PAR_SHARD.STATE 5, 0), (LEASE_SHARD.STATE 5, Lst.held), (CELL_BLADE.STATE 3, 1), (CARC_BLADE.STATE 3, 1), (CELL_JRN_CFG.HOLD, 0), (CELL_GC_CFG.WHEEL_LIVE, 50), (CARC_GEN_BASE.BASE, 16)] { State.reset with now := 10 ^ 15, cell := { shards := [(5, {  })] } }), ⟨0, 0⟩, desc 0 Op.shardRelease [(28, 1, 5)] .started, [], (holds .cell [desc 0 Op.shardRelease [(28, 1, 5)] .started] (regs [(DDR_CFG.CAP_GIB, 16), (CELL_CTL.EN, 1), (CELL_CTL.GC_EN, 1), (CELL_CTL.WL_EN, 1), (CELL_SHARD.STATE 5, 2), (SEP_SHARD.STATE 5, 2), (PAR_SHARD.STATE 5, 0), (LEASE_SHARD.STATE 5, Lst.held), (CELL_BLADE.STATE 3, 1), (CARC_BLADE.STATE 3, 1), (CELL_JRN_CFG.HOLD, 0), (CELL_GC_CFG.WHEEL_LIVE, 50), (CARC_GEN_BASE.BASE, 16)] { State.reset with now := 10 ^ 15, cell := { shards := [(5, {  })] } })).wr (CELL_SHARD.STATE 5) Cst.releasing, ⟨by decide +kernel, by decide +kernel, by first | with_reducible rfl | decide +kernel, by decide +kernel⟩⟩,
   ⟨holds .cell [desc 0 Op.checkpoint [(28, 1, 5)] .started] (regs [(DDR_CFG.CAP_GIB, 16), (CELL_CTL.EN, 1), (CELL_CTL.GC_EN, 1), (CELL_CTL.WL_EN, 1), (CELL_SHARD.STATE 5, 2), (SEP_SHARD.STATE 5, 2), (PAR_SHARD.STATE 5, 0), (LEASE_SHARD.STATE 5, Lst.held), (CELL_BLADE.STATE 3, 1), (CARC_BLADE.STATE 3, 1), (CELL_JRN_CFG.HOLD, 0), (CELL_GC_CFG.WHEEL_LIVE, 50), (CARC_GEN_BASE.BASE, 16)] { State.reset with now := 10 ^ 15, cell := { shards := [(5, {  })] } }), ⟨0, 0⟩, desc 0 Op.checkpoint [(28, 1, 5)] .started, [], by decide +kernel⟩,
   ⟨holds .cell [desc 0 Op.foldNow [(28, 1, 5)] .started] (regs [(DDR_CFG.CAP_GIB, 16), (CELL_CTL.EN, 1), (CELL_CTL.GC_EN, 1), (CELL_CTL.WL_EN, 1), (CELL_SHARD.STATE 5, 2), (SEP_SHARD.STATE 5, 2), (PAR_SHARD.STATE 5, 0), (LEASE_SHARD.STATE 5, Lst.held), (CELL_BLADE.STATE 3, 1), (CARC_BLADE.STATE 3, 1), (CELL_JRN_CFG.HOLD, 0), (CELL_GC_CFG.WHEEL_LIVE, 50), (CARC_GEN_BASE.BASE, 16)] { State.reset with now := 10 ^ 15, cell := { shards := [(5, {  })] } }), ⟨0, 0⟩, desc 0 Op.foldNow [(28, 1, 5)] .started, [], by decide +kernel⟩⟩

theorem witness_CellarDescriptors_4 :
  (∃ (s : State) (d : DescRef) (f : Fetched) (ms : List Medium) (w : Nat), (s.startedAt .cell d Op.reclaim = some f) ∧ (s.cellSt (f.at 28 1) = Cst.ready) ∧ (s.foldWaits (f.at 28 1) d = false) ∧ (w = f.at 32 8 % 2 ^ 40) ∧ (f.at 32 8 = wheelId (f.at 28 1) w) ∧ (s.mayReclaim (f.at 28 1) w = true) ∧ (s.rd (SEP_SHARD.STATE (f.at 28 1)) = Sst.loaded)) ∧
  (∃ (s : State) (d : DescRef) (f : Fetched), (s.startedAt .cell d Op.healthNow = some f) ∧ (f.at 28 1 ≤ 15) ∧ (s.rd (CELL_BLADE.STATE (f.at 28 1)) ≠ 0)) :=
  ⟨⟨holds .cell [desc 0 Op.reclaim [(28, 1, 5), (32, 5, 4), (37, 1, 5)] .started] (regs [(DDR_CFG.CAP_GIB, 16), (CELL_CTL.EN, 1), (CELL_CTL.GC_EN, 1), (CELL_CTL.WL_EN, 1), (CELL_SHARD.STATE 5, 2), (SEP_SHARD.STATE 5, 2), (PAR_SHARD.STATE 5, 0), (LEASE_SHARD.STATE 5, Lst.held), (CELL_BLADE.STATE 3, 1), (CARC_BLADE.STATE 3, 1), (CELL_JRN_CFG.HOLD, 0), (CELL_GC_CFG.WHEEL_LIVE, 50), (CARC_GEN_BASE.BASE, 16)] { State.reset with now := 10 ^ 15, cell := { shards := [(5, { wheels := [(4, { pool := 1, gen := 0, frame := 5, sealed := true })] })] } }), ⟨0, 0⟩, desc 0 Op.reclaim [(28, 1, 5), (32, 5, 4), (37, 1, 5)] .started, [], 4, by decide +kernel⟩,
   ⟨holds .cell [desc 0 Op.healthNow [(28, 1, 3)] .started] (regs [(DDR_CFG.CAP_GIB, 16), (CELL_CTL.EN, 1), (CELL_CTL.GC_EN, 1), (CELL_CTL.WL_EN, 1), (CELL_SHARD.STATE 5, 2), (SEP_SHARD.STATE 5, 2), (PAR_SHARD.STATE 5, 0), (LEASE_SHARD.STATE 5, Lst.held), (CELL_BLADE.STATE 3, 1), (CARC_BLADE.STATE 3, 1), (CELL_JRN_CFG.HOLD, 0), (CELL_GC_CFG.WHEEL_LIVE, 50), (CARC_GEN_BASE.BASE, 16)] { State.reset with now := 10 ^ 15, cell := { blades := [] } }), ⟨0, 0⟩, desc 0 Op.healthNow [(28, 1, 3)] .started, by decide +kernel⟩⟩

theorem witness_BladeCommandsAreCarriedOut :
  (∃ (s : State) (b i : Nat) (m : Medium) (x : Blade) (t : Taken), (s.blade b = some x) ∧ (x.powered = true) ∧ (x.rdy = true) ∧ (x.fatal = false) ∧ (x.taken[i]? = some t) ∧ (t.cmd.op = Bop.read) ∧ (x.mayRun s.wireNow i = true) ∧ (x.check s.wireNow t.port t.cmd = none)) ∧
  (∃ (s : State) (b i : Nat) (m : Medium) (x : Blade) (t : Taken) (e : Nat), (s.blade b = some x) ∧ (x.powered = true) ∧ (x.rdy = true) ∧ (x.fatal = false) ∧ (x.taken[i]? = some t) ∧ (t.cmd.op = Bop.read) ∧ (x.mayRun s.wireNow i = true) ∧ (x.check s.wireNow t.port t.cmd = some e)) ∧
  (∃ (s : State) (b i : Nat) (m : Medium) (x : Blade) (t : Taken), (s.blade b = some x) ∧ (x.powered = true) ∧ (x.rdy = true) ∧ (x.fatal = false) ∧ (x.taken[i]? = some t) ∧ (t.cmd.op = Bop.program) ∧ (x.mayRun s.wireNow i = true) ∧ (x.check s.wireNow t.port t.cmd = none)) ∧
  (∃ (s : State) (b i : Nat) (m : Medium) (x : Blade) (t : Taken) (e : Nat), (s.blade b = some x) ∧ (x.powered = true) ∧ (x.rdy = true) ∧ (x.fatal = false) ∧ (x.taken[i]? = some t) ∧ (t.cmd.op = Bop.program) ∧ (x.mayRun s.wireNow i = true) ∧ (x.check s.wireNow t.port t.cmd = some e)) :=
  ⟨⟨regs [(DDR_CFG.CAP_GIB, 16)] { State.reset with blades := [(3, { id := { dies := 16, blocks := 1024, pagesQlc := 768, spare := 8, ratedEc := 1000 }, powered := true, rdy := true, port1 := { consent := some 0 }, taken := [{ port := 0, queue := 1, slot := 0, cmd := { img := image 64 [(0, 1, Bop.read), (24, 4, 32), (28, 2, 10)] } }], blocks := [(10, { pages := [(0, .good (zeros 64) (zeros 64))], claim := some 5, last := some 0 })], recs := [(5, { epoch := 4, released := false })] })] }, 3, 0, .done 0 false, { id := { dies := 16, blocks := 1024, pagesQlc := 768, spare := 8, ratedEc := 1000 }, powered := true, rdy := true, port1 := { consent := some 0 }, taken := [{ port := 0, queue := 1, slot := 0, cmd := { img := image 64 [(0, 1, Bop.read), (24, 4, 32), (28, 2, 10)] } }], blocks := [(10, { pages := [(0, .good (zeros 64) (zeros 64))], claim := some 5, last := some 0 })], recs := [(5, { epoch := 4, released := false })] }, { port := 0, queue := 1, slot := 0, cmd := { img := image 64 [(0, 1, Bop.read), (24, 4, 32), (28, 2, 10)] } }, by decide +kernel⟩,
   ⟨regs [(DDR_CFG.CAP_GIB, 16)] { State.reset with blades := [(3, { id := { dies := 16, blocks := 1024, pagesQlc := 768, spare := 8, ratedEc := 1000 }, powered := true, rdy := true, port1 := { consent := some 0 }, taken := [{ port := 0, queue := 1, slot := 0, cmd := { img := image 64 [(0, 1, Bop.read), (63, 1, 1)] } }], blocks := [(10, { pages := [(0, .good (zeros 64) (zeros 64))], claim := some 5, last := some 0 })], recs := [(5, { epoch := 4, released := false })] })] }, 3, 0, .done 0 false, { id := { dies := 16, blocks := 1024, pagesQlc := 768, spare := 8, ratedEc := 1000 }, powered := true, rdy := true, port1 := { consent := some 0 }, taken := [{ port := 0, queue := 1, slot := 0, cmd := { img := image 64 [(0, 1, Bop.read), (63, 1, 1)] } }], blocks := [(10, { pages := [(0, .good (zeros 64) (zeros 64))], claim := some 5, last := some 0 })], recs := [(5, { epoch := 4, released := false })] }, { port := 0, queue := 1, slot := 0, cmd := { img := image 64 [(0, 1, Bop.read), (63, 1, 1)] } }, St.rsvdNonzero, by decide +kernel⟩,
   ⟨regs [(DDR_CFG.CAP_GIB, 16)] { State.reset with blades := [(3, { id := { dies := 16, blocks := 1024, pagesQlc := 768, spare := 8, ratedEc := 1000 }, powered := true, rdy := true, port1 := { consent := some 0 }, taken := [{ port := 0, queue := 1, slot := 0, cmd := { img := image 64 [(0, 1, Bop.program), (4, 1, 5), (8, 8, 4), (24, 4, 4096), (28, 2, 10), (30, 2, 1)] } }], blocks := [(10, { pages := [(0, .good (zeros 64) (zeros 64))], claim := some 5, last := some 0 })], recs := [(5, { epoch := 4, released := false })] })] }, 3, 0, .done 0 false, { id := { dies := 16, blocks := 1024, pagesQlc := 768, spare := 8, ratedEc := 1000 }, powered := true, rdy := true, port1 := { consent := some 0 }, taken := [{ port := 0, queue := 1, slot := 0, cmd := { img := image 64 [(0, 1, Bop.program), (4, 1, 5), (8, 8, 4), (24, 4, 4096), (28, 2, 10), (30, 2, 1)] } }], blocks := [(10, { pages := [(0, .good (zeros 64) (zeros 64))], claim := some 5, last := some 0 })], recs := [(5, { epoch := 4, released := false })] }, { port := 0, queue := 1, slot := 0, cmd := { img := image 64 [(0, 1, Bop.program), (4, 1, 5), (8, 8, 4), (24, 4, 4096), (28, 2, 10), (30, 2, 1)] } }, by decide +kernel⟩,
   ⟨regs [(DDR_CFG.CAP_GIB, 16)] { State.reset with blades := [(3, { id := { dies := 16, blocks := 1024, pagesQlc := 768, spare := 8, ratedEc := 1000 }, powered := true, rdy := true, port1 := { consent := some 0 }, taken := [{ port := 0, queue := 1, slot := 0, cmd := { img := image 64 [(0, 1, Bop.program), (63, 1, 1)] } }], blocks := [(10, { pages := [(0, .good (zeros 64) (zeros 64))], claim := some 5, last := some 0 })], recs := [(5, { epoch := 4, released := false })] })] }, 3, 0, .done 0 false, { id := { dies := 16, blocks := 1024, pagesQlc := 768, spare := 8, ratedEc := 1000 }, powered := true, rdy := true, port1 := { consent := some 0 }, taken := [{ port := 0, queue := 1, slot := 0, cmd := { img := image 64 [(0, 1, Bop.program), (63, 1, 1)] } }], blocks := [(10, { pages := [(0, .good (zeros 64) (zeros 64))], claim := some 5, last := some 0 })], recs := [(5, { epoch := 4, released := false })] }, { port := 0, queue := 1, slot := 0, cmd := { img := image 64 [(0, 1, Bop.program), (63, 1, 1)] } }, St.rsvdNonzero, by decide +kernel⟩⟩

theorem witness_BladeCommandsAreCarriedOut_2 :
  (∃ (s : State) (b i : Nat) (m : Medium) (x : Blade) (t : Taken), (s.blade b = some x) ∧ (x.powered = true) ∧ (x.rdy = true) ∧ (x.fatal = false) ∧ (x.taken[i]? = some t) ∧ (t.cmd.op = Bop.erase) ∧ (x.mayRun s.wireNow i = true) ∧ (x.check s.wireNow t.port t.cmd = none)) ∧
  (∃ (s : State) (b i : Nat) (m : Medium) (x : Blade) (t : Taken) (e : Nat), (s.blade b = some x) ∧ (x.powered = true) ∧ (x.rdy = true) ∧ (x.fatal = false) ∧ (x.taken[i]? = some t) ∧ (t.cmd.op = Bop.erase) ∧ (x.mayRun s.wireNow i = true) ∧ (x.check s.wireNow t.port t.cmd = some e)) ∧
  (∃ (s : State) (b i : Nat) (x : Blade) (t : Taken), (s.blade b = some x) ∧ (x.powered = true) ∧ (x.rdy = true) ∧ (x.fatal = false) ∧ (x.taken[i]? = some t) ∧ (t.cmd.op = Bop.claim) ∧ (x.mayRun s.wireNow i = true) ∧ (x.check s.wireNow t.port t.cmd = none)) ∧
  (∃ (s : State) (b i : Nat) (x : Blade) (t : Taken) (e : Nat), (s.blade b = some x) ∧ (x.powered = true) ∧ (x.rdy = true) ∧ (x.fatal = false) ∧ (x.taken[i]? = some t) ∧ (t.cmd.op = Bop.claim) ∧ (x.mayRun s.wireNow i = true) ∧ (x.check s.wireNow t.port t.cmd = some e)) :=
  ⟨⟨regs [(DDR_CFG.CAP_GIB, 16)] { State.reset with blades := [(3, { id := { dies := 16, blocks := 1024, pagesQlc := 768, spare := 8, ratedEc := 1000 }, powered := true, rdy := true, port1 := { consent := some 0 }, taken := [{ port := 0, queue := 1, slot := 0, cmd := { img := image 64 [(0, 1, Bop.erase), (4, 1, 5), (8, 8, 4), (28, 2, 10)] } }], blocks := [(10, { pages := [(0, .good (zeros 64) (zeros 64))], claim := some 5, last := some 0 })], recs := [(5, { epoch := 4, released := false })] })] }, 3, 0, .done 0 false, { id := { dies := 16, blocks := 1024, pagesQlc := 768, spare := 8, ratedEc := 1000 }, powered := true, rdy := true, port1 := { consent := some 0 }, taken := [{ port := 0, queue := 1, slot := 0, cmd := { img := image 64 [(0, 1, Bop.erase), (4, 1, 5), (8, 8, 4), (28, 2, 10)] } }], blocks := [(10, { pages := [(0, .good (zeros 64) (zeros 64))], claim := some 5, last := some 0 })], recs := [(5, { epoch := 4, released := false })] }, { port := 0, queue := 1, slot := 0, cmd := { img := image 64 [(0, 1, Bop.erase), (4, 1, 5), (8, 8, 4), (28, 2, 10)] } }, by decide +kernel⟩,
   ⟨regs [(DDR_CFG.CAP_GIB, 16)] { State.reset with blades := [(3, { id := { dies := 16, blocks := 1024, pagesQlc := 768, spare := 8, ratedEc := 1000 }, powered := true, rdy := true, port1 := { consent := some 0 }, taken := [{ port := 0, queue := 1, slot := 0, cmd := { img := image 64 [(0, 1, Bop.erase), (63, 1, 1)] } }], blocks := [(10, { pages := [(0, .good (zeros 64) (zeros 64))], claim := some 5, last := some 0 })], recs := [(5, { epoch := 4, released := false })] })] }, 3, 0, .done 0 false, { id := { dies := 16, blocks := 1024, pagesQlc := 768, spare := 8, ratedEc := 1000 }, powered := true, rdy := true, port1 := { consent := some 0 }, taken := [{ port := 0, queue := 1, slot := 0, cmd := { img := image 64 [(0, 1, Bop.erase), (63, 1, 1)] } }], blocks := [(10, { pages := [(0, .good (zeros 64) (zeros 64))], claim := some 5, last := some 0 })], recs := [(5, { epoch := 4, released := false })] }, { port := 0, queue := 1, slot := 0, cmd := { img := image 64 [(0, 1, Bop.erase), (63, 1, 1)] } }, St.rsvdNonzero, by decide +kernel⟩,
   ⟨regs [(DDR_CFG.CAP_GIB, 16)] { State.reset with blades := [(3, { id := { dies := 16, blocks := 1024, pagesQlc := 768, spare := 8, ratedEc := 1000 }, powered := true, rdy := true, port1 := { consent := some 0 }, taken := [{ port := 0, queue := 1, slot := 0, cmd := { img := image 64 [(0, 1, Bop.claim), (4, 1, 5), (8, 8, 4), (28, 2, 1), (32, 2, 20)] } }], blocks := [(10, { pages := [(0, .good (zeros 64) (zeros 64))], claim := some 5, last := some 0 })], recs := [(5, { epoch := 4, released := false })] })] }, 3, 0, { id := { dies := 16, blocks := 1024, pagesQlc := 768, spare := 8, ratedEc := 1000 }, powered := true, rdy := true, port1 := { consent := some 0 }, taken := [{ port := 0, queue := 1, slot := 0, cmd := { img := image 64 [(0, 1, Bop.claim), (4, 1, 5), (8, 8, 4), (28, 2, 1), (32, 2, 20)] } }], blocks := [(10, { pages := [(0, .good (zeros 64) (zeros 64))], claim := some 5, last := some 0 })], recs := [(5, { epoch := 4, released := false })] }, { port := 0, queue := 1, slot := 0, cmd := { img := image 64 [(0, 1, Bop.claim), (4, 1, 5), (8, 8, 4), (28, 2, 1), (32, 2, 20)] } }, by decide +kernel⟩,
   ⟨regs [(DDR_CFG.CAP_GIB, 16)] { State.reset with blades := [(3, { id := { dies := 16, blocks := 1024, pagesQlc := 768, spare := 8, ratedEc := 1000 }, powered := true, rdy := true, port1 := { consent := some 0 }, taken := [{ port := 0, queue := 1, slot := 0, cmd := { img := image 64 [(0, 1, Bop.claim), (63, 1, 1)] } }], blocks := [(10, { pages := [(0, .good (zeros 64) (zeros 64))], claim := some 5, last := some 0 })], recs := [(5, { epoch := 4, released := false })] })] }, 3, 0, { id := { dies := 16, blocks := 1024, pagesQlc := 768, spare := 8, ratedEc := 1000 }, powered := true, rdy := true, port1 := { consent := some 0 }, taken := [{ port := 0, queue := 1, slot := 0, cmd := { img := image 64 [(0, 1, Bop.claim), (63, 1, 1)] } }], blocks := [(10, { pages := [(0, .good (zeros 64) (zeros 64))], claim := some 5, last := some 0 })], recs := [(5, { epoch := 4, released := false })] }, { port := 0, queue := 1, slot := 0, cmd := { img := image 64 [(0, 1, Bop.claim), (63, 1, 1)] } }, St.rsvdNonzero, by decide +kernel⟩⟩

theorem witness_BladeCommandsAreCarriedOut_3 :
  (∃ (s : State) (b i : Nat) (x : Blade) (t : Taken), (s.blade b = some x) ∧ (x.powered = true) ∧ (x.rdy = true) ∧ (x.fatal = false) ∧ (x.taken[i]? = some t) ∧ (t.cmd.op = Bop.retire) ∧ (x.mayRun s.wireNow i = true) ∧ (x.check s.wireNow t.port t.cmd = none)) ∧
  (∃ (s : State) (b i : Nat) (x : Blade) (t : Taken) (e : Nat), (s.blade b = some x) ∧ (x.powered = true) ∧ (x.rdy = true) ∧ (x.fatal = false) ∧ (x.taken[i]? = some t) ∧ (t.cmd.op = Bop.retire) ∧ (x.mayRun s.wireNow i = true) ∧ (x.check s.wireNow t.port t.cmd = some e)) ∧
  (∃ (s : State) (b i : Nat) (x : Blade) (t : Taken), (s.blade b = some x) ∧ (x.powered = true) ∧ (x.rdy = true) ∧ (x.fatal = false) ∧ (x.taken[i]? = some t) ∧ (t.cmd.op = Bop.setEpoch) ∧ (x.mayRun s.wireNow i = true) ∧ (x.check s.wireNow t.port t.cmd = none)) ∧
  (∃ (s : State) (b i : Nat) (x : Blade) (t : Taken) (e : Nat), (s.blade b = some x) ∧ (x.powered = true) ∧ (x.rdy = true) ∧ (x.fatal = false) ∧ (x.taken[i]? = some t) ∧ (t.cmd.op = Bop.setEpoch) ∧ (x.mayRun s.wireNow i = true) ∧ (x.check s.wireNow t.port t.cmd = some e)) :=
  ⟨⟨regs [(DDR_CFG.CAP_GIB, 16)] { State.reset with blades := [(3, { id := { dies := 16, blocks := 1024, pagesQlc := 768, spare := 8, ratedEc := 1000 }, powered := true, rdy := true, port1 := { consent := some 0 }, taken := [{ port := 0, queue := 1, slot := 0, cmd := { img := image 64 [(0, 1, Bop.retire), (4, 1, 5), (8, 8, 4), (28, 2, 10)] } }], blocks := [(10, { pages := [(0, .good (zeros 64) (zeros 64))], claim := some 5, last := some 0 })], recs := [(5, { epoch := 4, released := false })] })] }, 3, 0, { id := { dies := 16, blocks := 1024, pagesQlc := 768, spare := 8, ratedEc := 1000 }, powered := true, rdy := true, port1 := { consent := some 0 }, taken := [{ port := 0, queue := 1, slot := 0, cmd := { img := image 64 [(0, 1, Bop.retire), (4, 1, 5), (8, 8, 4), (28, 2, 10)] } }], blocks := [(10, { pages := [(0, .good (zeros 64) (zeros 64))], claim := some 5, last := some 0 })], recs := [(5, { epoch := 4, released := false })] }, { port := 0, queue := 1, slot := 0, cmd := { img := image 64 [(0, 1, Bop.retire), (4, 1, 5), (8, 8, 4), (28, 2, 10)] } }, by decide +kernel⟩,
   ⟨regs [(DDR_CFG.CAP_GIB, 16)] { State.reset with blades := [(3, { id := { dies := 16, blocks := 1024, pagesQlc := 768, spare := 8, ratedEc := 1000 }, powered := true, rdy := true, port1 := { consent := some 0 }, taken := [{ port := 0, queue := 1, slot := 0, cmd := { img := image 64 [(0, 1, Bop.retire), (63, 1, 1)] } }], blocks := [(10, { pages := [(0, .good (zeros 64) (zeros 64))], claim := some 5, last := some 0 })], recs := [(5, { epoch := 4, released := false })] })] }, 3, 0, { id := { dies := 16, blocks := 1024, pagesQlc := 768, spare := 8, ratedEc := 1000 }, powered := true, rdy := true, port1 := { consent := some 0 }, taken := [{ port := 0, queue := 1, slot := 0, cmd := { img := image 64 [(0, 1, Bop.retire), (63, 1, 1)] } }], blocks := [(10, { pages := [(0, .good (zeros 64) (zeros 64))], claim := some 5, last := some 0 })], recs := [(5, { epoch := 4, released := false })] }, { port := 0, queue := 1, slot := 0, cmd := { img := image 64 [(0, 1, Bop.retire), (63, 1, 1)] } }, St.rsvdNonzero, by decide +kernel⟩,
   ⟨regs [(DDR_CFG.CAP_GIB, 16)] { State.reset with blades := [(3, { id := { dies := 16, blocks := 1024, pagesQlc := 768, spare := 8, ratedEc := 1000 }, powered := true, rdy := true, port1 := { consent := some 0 }, taken := [{ port := 0, queue := 1, slot := 0, cmd := { img := image 64 [(0, 1, Bop.setEpoch), (1, 1, 16), (4, 1, 5), (8, 8, 6)] } }], blocks := [(10, { pages := [(0, .good (zeros 64) (zeros 64))], claim := some 5, last := some 0 })], recs := [(5, { epoch := 4, released := false })] })] }, 3, 0, { id := { dies := 16, blocks := 1024, pagesQlc := 768, spare := 8, ratedEc := 1000 }, powered := true, rdy := true, port1 := { consent := some 0 }, taken := [{ port := 0, queue := 1, slot := 0, cmd := { img := image 64 [(0, 1, Bop.setEpoch), (1, 1, 16), (4, 1, 5), (8, 8, 6)] } }], blocks := [(10, { pages := [(0, .good (zeros 64) (zeros 64))], claim := some 5, last := some 0 })], recs := [(5, { epoch := 4, released := false })] }, { port := 0, queue := 1, slot := 0, cmd := { img := image 64 [(0, 1, Bop.setEpoch), (1, 1, 16), (4, 1, 5), (8, 8, 6)] } }, by decide +kernel⟩,
   ⟨regs [(DDR_CFG.CAP_GIB, 16)] { State.reset with blades := [(3, { id := { dies := 16, blocks := 1024, pagesQlc := 768, spare := 8, ratedEc := 1000 }, powered := true, rdy := true, port1 := { consent := some 0 }, taken := [{ port := 0, queue := 1, slot := 0, cmd := { img := image 64 [(0, 1, Bop.setEpoch), (63, 1, 1)] } }], blocks := [(10, { pages := [(0, .good (zeros 64) (zeros 64))], claim := some 5, last := some 0 })], recs := [(5, { epoch := 4, released := false })] })] }, 3, 0, { id := { dies := 16, blocks := 1024, pagesQlc := 768, spare := 8, ratedEc := 1000 }, powered := true, rdy := true, port1 := { consent := some 0 }, taken := [{ port := 0, queue := 1, slot := 0, cmd := { img := image 64 [(0, 1, Bop.setEpoch), (63, 1, 1)] } }], blocks := [(10, { pages := [(0, .good (zeros 64) (zeros 64))], claim := some 5, last := some 0 })], recs := [(5, { epoch := 4, released := false })] }, { port := 0, queue := 1, slot := 0, cmd := { img := image 64 [(0, 1, Bop.setEpoch), (63, 1, 1)] } }, St.rsvdNonzero, by decide +kernel⟩⟩

theorem witness_BladeCommandsAreCarriedOut_4 :
  (∃ (s : State) (b i : Nat) (x : Blade) (t : Taken), (s.blade b = some x) ∧ (x.powered = true) ∧ (x.rdy = true) ∧ (x.fatal = false) ∧ (x.taken[i]? = some t) ∧ (t.cmd.op = Bop.renew) ∧ (x.mayRun s.wireNow i = true) ∧ (x.check s.wireNow t.port t.cmd = none)) ∧
  (∃ (s : State) (b i : Nat) (x : Blade) (t : Taken) (e : Nat), (s.blade b = some x) ∧ (x.powered = true) ∧ (x.rdy = true) ∧ (x.fatal = false) ∧ (x.taken[i]? = some t) ∧ (t.cmd.op = Bop.renew) ∧ (x.mayRun s.wireNow i = true) ∧ (x.check s.wireNow t.port t.cmd = some e)) ∧
  (∃ (s : State) (b i : Nat) (x : Blade) (t : Taken), (s.blade b = some x) ∧ (x.powered = true) ∧ (x.rdy = true) ∧ (x.fatal = false) ∧ (x.taken[i]? = some t) ∧ (t.cmd.op = Bop.release) ∧ (x.mayRun s.wireNow i = true) ∧ (x.check s.wireNow t.port t.cmd = none)) ∧
  (∃ (s : State) (b i : Nat) (x : Blade) (t : Taken) (e : Nat), (s.blade b = some x) ∧ (x.powered = true) ∧ (x.rdy = true) ∧ (x.fatal = false) ∧ (x.taken[i]? = some t) ∧ (t.cmd.op = Bop.release) ∧ (x.mayRun s.wireNow i = true) ∧ (x.check s.wireNow t.port t.cmd = some e)) :=
  ⟨⟨regs [(DDR_CFG.CAP_GIB, 16)] { State.reset with blades := [(3, { id := { dies := 16, blocks := 1024, pagesQlc := 768, spare := 8, ratedEc := 1000 }, powered := true, rdy := true, port1 := { consent := some 0 }, taken := [{ port := 0, queue := 1, slot := 0, cmd := { img := image 64 [(0, 1, Bop.renew), (24, 4, 512), (48, 8, 32)] } }], blocks := [(10, { pages := [(0, .good (zeros 64) (zeros 64))], claim := some 5, last := some 0 })], recs := [(5, { epoch := 4, released := false })] })] }, 3, 0, { id := { dies := 16, blocks := 1024, pagesQlc := 768, spare := 8, ratedEc := 1000 }, powered := true, rdy := true, port1 := { consent := some 0 }, taken := [{ port := 0, queue := 1, slot := 0, cmd := { img := image 64 [(0, 1, Bop.renew), (24, 4, 512), (48, 8, 32)] } }], blocks := [(10, { pages := [(0, .good (zeros 64) (zeros 64))], claim := some 5, last := some 0 })], recs := [(5, { epoch := 4, released := false })] }, { port := 0, queue := 1, slot := 0, cmd := { img := image 64 [(0, 1, Bop.renew), (24, 4, 512), (48, 8, 32)] } }, by decide +kernel⟩,
   ⟨regs [(DDR_CFG.CAP_GIB, 16)] { State.reset with blades := [(3, { id := { dies := 16, blocks := 1024, pagesQlc := 768, spare := 8, ratedEc := 1000 }, powered := true, rdy := true, port1 := { consent := some 0 }, taken := [{ port := 0, queue := 1, slot := 0, cmd := { img := image 64 [(0, 1, Bop.renew), (63, 1, 1)] } }], blocks := [(10, { pages := [(0, .good (zeros 64) (zeros 64))], claim := some 5, last := some 0 })], recs := [(5, { epoch := 4, released := false })] })] }, 3, 0, { id := { dies := 16, blocks := 1024, pagesQlc := 768, spare := 8, ratedEc := 1000 }, powered := true, rdy := true, port1 := { consent := some 0 }, taken := [{ port := 0, queue := 1, slot := 0, cmd := { img := image 64 [(0, 1, Bop.renew), (63, 1, 1)] } }], blocks := [(10, { pages := [(0, .good (zeros 64) (zeros 64))], claim := some 5, last := some 0 })], recs := [(5, { epoch := 4, released := false })] }, { port := 0, queue := 1, slot := 0, cmd := { img := image 64 [(0, 1, Bop.renew), (63, 1, 1)] } }, St.rsvdNonzero, by decide +kernel⟩,
   ⟨regs [(DDR_CFG.CAP_GIB, 16)] { State.reset with blades := [(3, { id := { dies := 16, blocks := 1024, pagesQlc := 768, spare := 8, ratedEc := 1000 }, powered := true, rdy := true, port1 := { consent := some 0 }, taken := [{ port := 0, queue := 1, slot := 0, cmd := { img := image 64 [(0, 1, Bop.release), (4, 1, 5), (8, 8, 4)] } }], blocks := [(10, { pages := [(0, .good (zeros 64) (zeros 64))], claim := some 5, last := some 0 })], recs := [(5, { epoch := 4, released := false })] })] }, 3, 0, { id := { dies := 16, blocks := 1024, pagesQlc := 768, spare := 8, ratedEc := 1000 }, powered := true, rdy := true, port1 := { consent := some 0 }, taken := [{ port := 0, queue := 1, slot := 0, cmd := { img := image 64 [(0, 1, Bop.release), (4, 1, 5), (8, 8, 4)] } }], blocks := [(10, { pages := [(0, .good (zeros 64) (zeros 64))], claim := some 5, last := some 0 })], recs := [(5, { epoch := 4, released := false })] }, { port := 0, queue := 1, slot := 0, cmd := { img := image 64 [(0, 1, Bop.release), (4, 1, 5), (8, 8, 4)] } }, by decide +kernel⟩,
   ⟨regs [(DDR_CFG.CAP_GIB, 16)] { State.reset with blades := [(3, { id := { dies := 16, blocks := 1024, pagesQlc := 768, spare := 8, ratedEc := 1000 }, powered := true, rdy := true, port1 := { consent := some 0 }, taken := [{ port := 0, queue := 1, slot := 0, cmd := { img := image 64 [(0, 1, Bop.release), (63, 1, 1)] } }], blocks := [(10, { pages := [(0, .good (zeros 64) (zeros 64))], claim := some 5, last := some 0 })], recs := [(5, { epoch := 4, released := false })] })] }, 3, 0, { id := { dies := 16, blocks := 1024, pagesQlc := 768, spare := 8, ratedEc := 1000 }, powered := true, rdy := true, port1 := { consent := some 0 }, taken := [{ port := 0, queue := 1, slot := 0, cmd := { img := image 64 [(0, 1, Bop.release), (63, 1, 1)] } }], blocks := [(10, { pages := [(0, .good (zeros 64) (zeros 64))], claim := some 5, last := some 0 })], recs := [(5, { epoch := 4, released := false })] }, { port := 0, queue := 1, slot := 0, cmd := { img := image 64 [(0, 1, Bop.release), (63, 1, 1)] } }, St.rsvdNonzero, by decide +kernel⟩⟩

theorem witness_BladeCommandsAreCarriedOut_5 :
  (∃ (s : State) (b i : Nat) (x : Blade) (t : Taken), (s.blade b = some x) ∧ (x.powered = true) ∧ (x.rdy = true) ∧ (x.fatal = false) ∧ (x.taken[i]? = some t) ∧ (t.cmd.op = Bop.epochRead) ∧ (x.mayRun s.wireNow i = true) ∧ (x.check s.wireNow t.port t.cmd = none)) ∧
  (∃ (s : State) (b i : Nat) (x : Blade) (t : Taken) (e : Nat), (s.blade b = some x) ∧ (x.powered = true) ∧ (x.rdy = true) ∧ (x.fatal = false) ∧ (x.taken[i]? = some t) ∧ (t.cmd.op = Bop.epochRead) ∧ (x.mayRun s.wireNow i = true) ∧ (x.check s.wireNow t.port t.cmd = some e)) ∧
  (∃ (s : State) (b i : Nat) (x : Blade) (t : Taken), (s.blade b = some x) ∧ (x.powered = true) ∧ (x.rdy = true) ∧ (x.fatal = false) ∧ (x.taken[i]? = some t) ∧ (t.cmd.op = Bop.identify) ∧ (x.mayRun s.wireNow i = true) ∧ (x.check s.wireNow t.port t.cmd = none)) ∧
  (∃ (s : State) (b i : Nat) (x : Blade) (t : Taken) (e : Nat), (s.blade b = some x) ∧ (x.powered = true) ∧ (x.rdy = true) ∧ (x.fatal = false) ∧ (x.taken[i]? = some t) ∧ (t.cmd.op = Bop.identify) ∧ (x.mayRun s.wireNow i = true) ∧ (x.check s.wireNow t.port t.cmd = some e)) :=
  ⟨⟨regs [(DDR_CFG.CAP_GIB, 16)] { State.reset with blades := [(3, { id := { dies := 16, blocks := 1024, pagesQlc := 768, spare := 8, ratedEc := 1000 }, powered := true, rdy := true, port1 := { consent := some 0 }, taken := [{ port := 0, queue := 1, slot := 0, cmd := { img := image 64 [(0, 1, Bop.epochRead), (4, 1, 5), (24, 4, 16)] } }], blocks := [(10, { pages := [(0, .good (zeros 64) (zeros 64))], claim := some 5, last := some 0 })], recs := [(5, { epoch := 4, released := false })] })] }, 3, 0, { id := { dies := 16, blocks := 1024, pagesQlc := 768, spare := 8, ratedEc := 1000 }, powered := true, rdy := true, port1 := { consent := some 0 }, taken := [{ port := 0, queue := 1, slot := 0, cmd := { img := image 64 [(0, 1, Bop.epochRead), (4, 1, 5), (24, 4, 16)] } }], blocks := [(10, { pages := [(0, .good (zeros 64) (zeros 64))], claim := some 5, last := some 0 })], recs := [(5, { epoch := 4, released := false })] }, { port := 0, queue := 1, slot := 0, cmd := { img := image 64 [(0, 1, Bop.epochRead), (4, 1, 5), (24, 4, 16)] } }, by decide +kernel⟩,
   ⟨regs [(DDR_CFG.CAP_GIB, 16)] { State.reset with blades := [(3, { id := { dies := 16, blocks := 1024, pagesQlc := 768, spare := 8, ratedEc := 1000 }, powered := true, rdy := true, port1 := { consent := some 0 }, taken := [{ port := 0, queue := 1, slot := 0, cmd := { img := image 64 [(0, 1, Bop.epochRead), (63, 1, 1)] } }], blocks := [(10, { pages := [(0, .good (zeros 64) (zeros 64))], claim := some 5, last := some 0 })], recs := [(5, { epoch := 4, released := false })] })] }, 3, 0, { id := { dies := 16, blocks := 1024, pagesQlc := 768, spare := 8, ratedEc := 1000 }, powered := true, rdy := true, port1 := { consent := some 0 }, taken := [{ port := 0, queue := 1, slot := 0, cmd := { img := image 64 [(0, 1, Bop.epochRead), (63, 1, 1)] } }], blocks := [(10, { pages := [(0, .good (zeros 64) (zeros 64))], claim := some 5, last := some 0 })], recs := [(5, { epoch := 4, released := false })] }, { port := 0, queue := 1, slot := 0, cmd := { img := image 64 [(0, 1, Bop.epochRead), (63, 1, 1)] } }, St.rsvdNonzero, by decide +kernel⟩,
   ⟨regs [(DDR_CFG.CAP_GIB, 16)] { State.reset with blades := [(3, { id := { dies := 16, blocks := 1024, pagesQlc := 768, spare := 8, ratedEc := 1000 }, powered := true, rdy := true, port1 := { consent := some 0 }, taken := [{ port := 0, queue := 1, slot := 0, cmd := { img := image 64 [(0, 1, Bop.identify), (24, 4, 4096)] } }], blocks := [(10, { pages := [(0, .good (zeros 64) (zeros 64))], claim := some 5, last := some 0 })], recs := [(5, { epoch := 4, released := false })] })] }, 3, 0, { id := { dies := 16, blocks := 1024, pagesQlc := 768, spare := 8, ratedEc := 1000 }, powered := true, rdy := true, port1 := { consent := some 0 }, taken := [{ port := 0, queue := 1, slot := 0, cmd := { img := image 64 [(0, 1, Bop.identify), (24, 4, 4096)] } }], blocks := [(10, { pages := [(0, .good (zeros 64) (zeros 64))], claim := some 5, last := some 0 })], recs := [(5, { epoch := 4, released := false })] }, { port := 0, queue := 1, slot := 0, cmd := { img := image 64 [(0, 1, Bop.identify), (24, 4, 4096)] } }, by decide +kernel⟩,
   ⟨regs [(DDR_CFG.CAP_GIB, 16)] { State.reset with blades := [(3, { id := { dies := 16, blocks := 1024, pagesQlc := 768, spare := 8, ratedEc := 1000 }, powered := true, rdy := true, port1 := { consent := some 0 }, taken := [{ port := 0, queue := 1, slot := 0, cmd := { img := image 64 [(0, 1, Bop.identify), (63, 1, 1)] } }], blocks := [(10, { pages := [(0, .good (zeros 64) (zeros 64))], claim := some 5, last := some 0 })], recs := [(5, { epoch := 4, released := false })] })] }, 3, 0, { id := { dies := 16, blocks := 1024, pagesQlc := 768, spare := 8, ratedEc := 1000 }, powered := true, rdy := true, port1 := { consent := some 0 }, taken := [{ port := 0, queue := 1, slot := 0, cmd := { img := image 64 [(0, 1, Bop.identify), (63, 1, 1)] } }], blocks := [(10, { pages := [(0, .good (zeros 64) (zeros 64))], claim := some 5, last := some 0 })], recs := [(5, { epoch := 4, released := false })] }, { port := 0, queue := 1, slot := 0, cmd := { img := image 64 [(0, 1, Bop.identify), (63, 1, 1)] } }, St.rsvdNonzero, by decide +kernel⟩⟩

theorem witness_BladeCommandsAreCarriedOut_6 :
  (∃ (s : State) (b i : Nat) (x : Blade) (t : Taken), (s.blade b = some x) ∧ (x.powered = true) ∧ (x.rdy = true) ∧ (x.fatal = false) ∧ (x.taken[i]? = some t) ∧ (t.cmd.op = Bop.claimList) ∧ (x.mayRun s.wireNow i = true) ∧ (x.check s.wireNow t.port t.cmd = none)) ∧
  (∃ (s : State) (b i : Nat) (x : Blade) (t : Taken) (e : Nat), (s.blade b = some x) ∧ (x.powered = true) ∧ (x.rdy = true) ∧ (x.fatal = false) ∧ (x.taken[i]? = some t) ∧ (t.cmd.op = Bop.claimList) ∧ (x.mayRun s.wireNow i = true) ∧ (x.check s.wireNow t.port t.cmd = some e)) ∧
  (∃ (s : State) (b i : Nat) (x : Blade) (t : Taken), (s.blade b = some x) ∧ (x.powered = true) ∧ (x.rdy = true) ∧ (x.fatal = false) ∧ (x.taken[i]? = some t) ∧ (t.cmd.op = Bop.ecRead) ∧ (x.mayRun s.wireNow i = true) ∧ (x.check s.wireNow t.port t.cmd = none)) ∧
  (∃ (s : State) (b i : Nat) (x : Blade) (t : Taken) (e : Nat), (s.blade b = some x) ∧ (x.powered = true) ∧ (x.rdy = true) ∧ (x.fatal = false) ∧ (x.taken[i]? = some t) ∧ (t.cmd.op = Bop.ecRead) ∧ (x.mayRun s.wireNow i = true) ∧ (x.check s.wireNow t.port t.cmd = some e)) :=
  ⟨⟨regs [(DDR_CFG.CAP_GIB, 16)] { State.reset with blades := [(3, { id := { dies := 16, blocks := 1024, pagesQlc := 768, spare := 8, ratedEc := 1000 }, powered := true, rdy := true, port1 := { consent := some 0 }, taken := [{ port := 0, queue := 1, slot := 0, cmd := { img := image 64 [(0, 1, Bop.claimList), (4, 1, 5), (24, 4, 16)] } }], blocks := [(10, { pages := [(0, .good (zeros 64) (zeros 64))], claim := some 5, last := some 0 })], recs := [(5, { epoch := 4, released := false })] })] }, 3, 0, { id := { dies := 16, blocks := 1024, pagesQlc := 768, spare := 8, ratedEc := 1000 }, powered := true, rdy := true, port1 := { consent := some 0 }, taken := [{ port := 0, queue := 1, slot := 0, cmd := { img := image 64 [(0, 1, Bop.claimList), (4, 1, 5), (24, 4, 16)] } }], blocks := [(10, { pages := [(0, .good (zeros 64) (zeros 64))], claim := some 5, last := some 0 })], recs := [(5, { epoch := 4, released := false })] }, { port := 0, queue := 1, slot := 0, cmd := { img := image 64 [(0, 1, Bop.claimList), (4, 1, 5), (24, 4, 16)] } }, by decide +kernel⟩,
   ⟨regs [(DDR_CFG.CAP_GIB, 16)] { State.reset with blades := [(3, { id := { dies := 16, blocks := 1024, pagesQlc := 768, spare := 8, ratedEc := 1000 }, powered := true, rdy := true, port1 := { consent := some 0 }, taken := [{ port := 0, queue := 1, slot := 0, cmd := { img := image 64 [(0, 1, Bop.claimList), (63, 1, 1)] } }], blocks := [(10, { pages := [(0, .good (zeros 64) (zeros 64))], claim := some 5, last := some 0 })], recs := [(5, { epoch := 4, released := false })] })] }, 3, 0, { id := { dies := 16, blocks := 1024, pagesQlc := 768, spare := 8, ratedEc := 1000 }, powered := true, rdy := true, port1 := { consent := some 0 }, taken := [{ port := 0, queue := 1, slot := 0, cmd := { img := image 64 [(0, 1, Bop.claimList), (63, 1, 1)] } }], blocks := [(10, { pages := [(0, .good (zeros 64) (zeros 64))], claim := some 5, last := some 0 })], recs := [(5, { epoch := 4, released := false })] }, { port := 0, queue := 1, slot := 0, cmd := { img := image 64 [(0, 1, Bop.claimList), (63, 1, 1)] } }, St.rsvdNonzero, by decide +kernel⟩,
   ⟨regs [(DDR_CFG.CAP_GIB, 16)] { State.reset with blades := [(3, { id := { dies := 16, blocks := 1024, pagesQlc := 768, spare := 8, ratedEc := 1000 }, powered := true, rdy := true, port1 := { consent := some 0 }, taken := [{ port := 0, queue := 1, slot := 0, cmd := { img := image 64 [(0, 1, Bop.ecRead), (24, 4, 4096)] } }], blocks := [(10, { pages := [(0, .good (zeros 64) (zeros 64))], claim := some 5, last := some 0 })], recs := [(5, { epoch := 4, released := false })] })] }, 3, 0, { id := { dies := 16, blocks := 1024, pagesQlc := 768, spare := 8, ratedEc := 1000 }, powered := true, rdy := true, port1 := { consent := some 0 }, taken := [{ port := 0, queue := 1, slot := 0, cmd := { img := image 64 [(0, 1, Bop.ecRead), (24, 4, 4096)] } }], blocks := [(10, { pages := [(0, .good (zeros 64) (zeros 64))], claim := some 5, last := some 0 })], recs := [(5, { epoch := 4, released := false })] }, { port := 0, queue := 1, slot := 0, cmd := { img := image 64 [(0, 1, Bop.ecRead), (24, 4, 4096)] } }, by decide +kernel⟩,
   ⟨regs [(DDR_CFG.CAP_GIB, 16)] { State.reset with blades := [(3, { id := { dies := 16, blocks := 1024, pagesQlc := 768, spare := 8, ratedEc := 1000 }, powered := true, rdy := true, port1 := { consent := some 0 }, taken := [{ port := 0, queue := 1, slot := 0, cmd := { img := image 64 [(0, 1, Bop.ecRead), (63, 1, 1)] } }], blocks := [(10, { pages := [(0, .good (zeros 64) (zeros 64))], claim := some 5, last := some 0 })], recs := [(5, { epoch := 4, released := false })] })] }, 3, 0, { id := { dies := 16, blocks := 1024, pagesQlc := 768, spare := 8, ratedEc := 1000 }, powered := true, rdy := true, port1 := { consent := some 0 }, taken := [{ port := 0, queue := 1, slot := 0, cmd := { img := image 64 [(0, 1, Bop.ecRead), (63, 1, 1)] } }], blocks := [(10, { pages := [(0, .good (zeros 64) (zeros 64))], claim := some 5, last := some 0 })], recs := [(5, { epoch := 4, released := false })] }, { port := 0, queue := 1, slot := 0, cmd := { img := image 64 [(0, 1, Bop.ecRead), (63, 1, 1)] } }, St.rsvdNonzero, by decide +kernel⟩⟩

theorem witness_BladeCommandsAreCarriedOut_7 :
  (∃ (s : State) (b i : Nat) (x : Blade) (t : Taken), (s.blade b = some x) ∧ (x.powered = true) ∧ (x.rdy = true) ∧ (x.fatal = false) ∧ (x.taken[i]? = some t) ∧ (t.cmd.op = Bop.wipe) ∧ (x.mayRun s.wireNow i = true) ∧ (x.check s.wireNow t.port t.cmd = none)) ∧
  (∃ (s : State) (b i : Nat) (x : Blade) (t : Taken) (e : Nat), (s.blade b = some x) ∧ (x.powered = true) ∧ (x.rdy = true) ∧ (x.fatal = false) ∧ (x.taken[i]? = some t) ∧ (t.cmd.op = Bop.wipe) ∧ (x.mayRun s.wireNow i = true) ∧ (x.check s.wireNow t.port t.cmd = some e)) ∧
  (∃ (s : State) (b i : Nat) (x : Blade) (t : Taken), (s.blade b = some x) ∧ (x.powered = true) ∧ (x.rdy = true) ∧ (x.fatal = false) ∧ (x.taken[i]? = some t) ∧ (t.cmd.op = Bop.wipeConsent) ∧ (x.mayRun s.wireNow i = true) ∧ (x.check s.wireNow t.port t.cmd = none)) ∧
  (∃ (s : State) (b i : Nat) (x : Blade) (t : Taken) (e : Nat), (s.blade b = some x) ∧ (x.powered = true) ∧ (x.rdy = true) ∧ (x.fatal = false) ∧ (x.taken[i]? = some t) ∧ (t.cmd.op = Bop.wipeConsent) ∧ (x.mayRun s.wireNow i = true) ∧ (x.check s.wireNow t.port t.cmd = some e)) :=
  ⟨⟨regs [(DDR_CFG.CAP_GIB, 16)] { State.reset with blades := [(3, { id := { dies := 16, blocks := 1024, pagesQlc := 768, spare := 8, ratedEc := 1000 }, powered := true, rdy := true, port1 := { consent := some 0 }, taken := [{ port := 0, queue := 1, slot := 0, cmd := { img := image 64 [(0, 1, Bop.wipe)] } }], blocks := [(10, { pages := [(0, .good (zeros 64) (zeros 64))], claim := some 5, last := some 0 })], recs := [(5, { epoch := 4, released := false })] })] }, 3, 0, { id := { dies := 16, blocks := 1024, pagesQlc := 768, spare := 8, ratedEc := 1000 }, powered := true, rdy := true, port1 := { consent := some 0 }, taken := [{ port := 0, queue := 1, slot := 0, cmd := { img := image 64 [(0, 1, Bop.wipe)] } }], blocks := [(10, { pages := [(0, .good (zeros 64) (zeros 64))], claim := some 5, last := some 0 })], recs := [(5, { epoch := 4, released := false })] }, { port := 0, queue := 1, slot := 0, cmd := { img := image 64 [(0, 1, Bop.wipe)] } }, by decide +kernel⟩,
   ⟨regs [(DDR_CFG.CAP_GIB, 16)] { State.reset with blades := [(3, { id := { dies := 16, blocks := 1024, pagesQlc := 768, spare := 8, ratedEc := 1000 }, powered := true, rdy := true, port1 := { consent := some 0 }, taken := [{ port := 0, queue := 1, slot := 0, cmd := { img := image 64 [(0, 1, Bop.wipe), (63, 1, 1)] } }], blocks := [(10, { pages := [(0, .good (zeros 64) (zeros 64))], claim := some 5, last := some 0 })], recs := [(5, { epoch := 4, released := false })] })] }, 3, 0, { id := { dies := 16, blocks := 1024, pagesQlc := 768, spare := 8, ratedEc := 1000 }, powered := true, rdy := true, port1 := { consent := some 0 }, taken := [{ port := 0, queue := 1, slot := 0, cmd := { img := image 64 [(0, 1, Bop.wipe), (63, 1, 1)] } }], blocks := [(10, { pages := [(0, .good (zeros 64) (zeros 64))], claim := some 5, last := some 0 })], recs := [(5, { epoch := 4, released := false })] }, { port := 0, queue := 1, slot := 0, cmd := { img := image 64 [(0, 1, Bop.wipe), (63, 1, 1)] } }, St.rsvdNonzero, by decide +kernel⟩,
   ⟨regs [(DDR_CFG.CAP_GIB, 16)] { State.reset with blades := [(3, { id := { dies := 16, blocks := 1024, pagesQlc := 768, spare := 8, ratedEc := 1000 }, powered := true, rdy := true, port1 := { consent := some 0 }, taken := [{ port := 0, queue := 1, slot := 0, cmd := { img := image 64 [(0, 1, Bop.wipeConsent)] } }], blocks := [(10, { pages := [(0, .good (zeros 64) (zeros 64))], claim := some 5, last := some 0 })], recs := [(5, { epoch := 4, released := false })] })] }, 3, 0, { id := { dies := 16, blocks := 1024, pagesQlc := 768, spare := 8, ratedEc := 1000 }, powered := true, rdy := true, port1 := { consent := some 0 }, taken := [{ port := 0, queue := 1, slot := 0, cmd := { img := image 64 [(0, 1, Bop.wipeConsent)] } }], blocks := [(10, { pages := [(0, .good (zeros 64) (zeros 64))], claim := some 5, last := some 0 })], recs := [(5, { epoch := 4, released := false })] }, { port := 0, queue := 1, slot := 0, cmd := { img := image 64 [(0, 1, Bop.wipeConsent)] } }, by decide +kernel⟩,
   ⟨regs [(DDR_CFG.CAP_GIB, 16)] { State.reset with blades := [(3, { id := { dies := 16, blocks := 1024, pagesQlc := 768, spare := 8, ratedEc := 1000 }, powered := true, rdy := true, port1 := { consent := some 0 }, taken := [{ port := 0, queue := 1, slot := 0, cmd := { img := image 64 [(0, 1, Bop.wipeConsent), (63, 1, 1)] } }], blocks := [(10, { pages := [(0, .good (zeros 64) (zeros 64))], claim := some 5, last := some 0 })], recs := [(5, { epoch := 4, released := false })] })] }, 3, 0, { id := { dies := 16, blocks := 1024, pagesQlc := 768, spare := 8, ratedEc := 1000 }, powered := true, rdy := true, port1 := { consent := some 0 }, taken := [{ port := 0, queue := 1, slot := 0, cmd := { img := image 64 [(0, 1, Bop.wipeConsent), (63, 1, 1)] } }], blocks := [(10, { pages := [(0, .good (zeros 64) (zeros 64))], claim := some 5, last := some 0 })], recs := [(5, { epoch := 4, released := false })] }, { port := 0, queue := 1, slot := 0, cmd := { img := image 64 [(0, 1, Bop.wipeConsent), (63, 1, 1)] } }, St.rsvdNonzero, by decide +kernel⟩⟩

theorem witness_BladeCommandsAreCarriedOut_8 :
  (∃ (s : State) (b i : Nat) (temp : Int) (die : Nat) (x y : Blade) (t : Taken), (s.blade b = some x) ∧ (y = { x with hotTemp := temp, hotDie := die }) ∧ (y.powered = true) ∧ (y.rdy = true) ∧ (y.fatal = false) ∧ (y.taken[i]? = some t) ∧ (t.cmd.op = Bop.health) ∧ (y.mayRun s.wireNow i = true) ∧ (y.check s.wireNow t.port t.cmd = none)) ∧
  (∃ (s : State) (b i : Nat) (temp : Int) (die : Nat) (x y : Blade) (t : Taken) (e : Nat), (s.blade b = some x) ∧ (y = { x with hotTemp := temp, hotDie := die }) ∧ (y.powered = true) ∧ (y.rdy = true) ∧ (y.fatal = false) ∧ (y.taken[i]? = some t) ∧ (t.cmd.op = Bop.health) ∧ (y.mayRun s.wireNow i = true) ∧ (y.check s.wireNow t.port t.cmd = some e)) ∧
  (∃ (s : State) (b i : Nat) (m : Medium) (x : Blade) (t : Taken) (e : Nat), (s.blade b = some x) ∧ (x.powered = true) ∧ (x.rdy = true) ∧ (x.fatal = false) ∧ (x.taken[i]? = some t) ∧ (t.cmd.op = Bop.program) ∧ (x.mayRun s.wireNow i = true) ∧ (x.check s.wireNow t.port t.cmd = some e)) :=
  ⟨⟨regs [(DDR_CFG.CAP_GIB, 16)] { State.reset with blades := [(3, { id := { dies := 16, blocks := 1024, pagesQlc := 768, spare := 8, ratedEc := 1000 }, powered := true, rdy := true, port1 := { consent := some 0 }, taken := [{ port := 0, queue := 1, slot := 0, cmd := { img := image 64 [(0, 1, Bop.health), (24, 4, 64)] } }], blocks := [(10, { pages := [(0, .good (zeros 64) (zeros 64))], claim := some 5, last := some 0 })], recs := [(5, { epoch := 4, released := false })] })] }, 3, 0, 40, 2, { id := { dies := 16, blocks := 1024, pagesQlc := 768, spare := 8, ratedEc := 1000 }, powered := true, rdy := true, port1 := { consent := some 0 }, taken := [{ port := 0, queue := 1, slot := 0, cmd := { img := image 64 [(0, 1, Bop.health), (24, 4, 64)] } }], blocks := [(10, { pages := [(0, .good (zeros 64) (zeros 64))], claim := some 5, last := some 0 })], recs := [(5, { epoch := 4, released := false })] }, { id := { dies := 16, blocks := 1024, pagesQlc := 768, spare := 8, ratedEc := 1000 }, powered := true, rdy := true, port1 := { consent := some 0 }, taken := [{ port := 0, queue := 1, slot := 0, cmd := { img := image 64 [(0, 1, Bop.health), (24, 4, 64)] } }], blocks := [(10, { pages := [(0, .good (zeros 64) (zeros 64))], claim := some 5, last := some 0 })], recs := [(5, { epoch := 4, released := false })], hotTemp := 40, hotDie := 2 }, { port := 0, queue := 1, slot := 0, cmd := { img := image 64 [(0, 1, Bop.health), (24, 4, 64)] } }, by decide +kernel⟩,
   ⟨regs [(DDR_CFG.CAP_GIB, 16)] { State.reset with blades := [(3, { id := { dies := 16, blocks := 1024, pagesQlc := 768, spare := 8, ratedEc := 1000 }, powered := true, rdy := true, port1 := { consent := some 0 }, taken := [{ port := 0, queue := 1, slot := 0, cmd := { img := image 64 [(0, 1, Bop.health), (63, 1, 1)] } }], blocks := [(10, { pages := [(0, .good (zeros 64) (zeros 64))], claim := some 5, last := some 0 })], recs := [(5, { epoch := 4, released := false })] })] }, 3, 0, 40, 2, { id := { dies := 16, blocks := 1024, pagesQlc := 768, spare := 8, ratedEc := 1000 }, powered := true, rdy := true, port1 := { consent := some 0 }, taken := [{ port := 0, queue := 1, slot := 0, cmd := { img := image 64 [(0, 1, Bop.health), (63, 1, 1)] } }], blocks := [(10, { pages := [(0, .good (zeros 64) (zeros 64))], claim := some 5, last := some 0 })], recs := [(5, { epoch := 4, released := false })] }, { id := { dies := 16, blocks := 1024, pagesQlc := 768, spare := 8, ratedEc := 1000 }, powered := true, rdy := true, port1 := { consent := some 0 }, taken := [{ port := 0, queue := 1, slot := 0, cmd := { img := image 64 [(0, 1, Bop.health), (63, 1, 1)] } }], blocks := [(10, { pages := [(0, .good (zeros 64) (zeros 64))], claim := some 5, last := some 0 })], recs := [(5, { epoch := 4, released := false })], hotTemp := 40, hotDie := 2 }, { port := 0, queue := 1, slot := 0, cmd := { img := image 64 [(0, 1, Bop.health), (63, 1, 1)] } }, St.rsvdNonzero, by decide +kernel⟩,
   ⟨regs [(DDR_CFG.CAP_GIB, 16)] { State.reset with blades := [(3, { id := { dies := 16, blocks := 1024, pagesQlc := 768, spare := 8, ratedEc := 1000 }, powered := true, rdy := true, port1 := { consent := some 0 }, taken := [{ port := 0, queue := 1, slot := 0, cmd := { img := image 64 [(0, 1, Bop.program), (63, 1, 1)] } }], blocks := [(10, { pages := [(0, .good (zeros 64) (zeros 64))], claim := some 5, last := some 0 })], recs := [(5, { epoch := 4, released := false })] })] }, 3, 0, .done 0 false, { id := { dies := 16, blocks := 1024, pagesQlc := 768, spare := 8, ratedEc := 1000 }, powered := true, rdy := true, port1 := { consent := some 0 }, taken := [{ port := 0, queue := 1, slot := 0, cmd := { img := image 64 [(0, 1, Bop.program), (63, 1, 1)] } }], blocks := [(10, { pages := [(0, .good (zeros 64) (zeros 64))], claim := some 5, last := some 0 })], recs := [(5, { epoch := 4, released := false })] }, { port := 0, queue := 1, slot := 0, cmd := { img := image 64 [(0, 1, Bop.program), (63, 1, 1)] } }, St.rsvdNonzero, by decide +kernel⟩⟩

theorem witness_BladePortsAtTheBlade :
  (∃ (s : State) (b port queue : Nat) (cmds : List PeerCmd) (x : Blade), (s.blade b = some x) ∧ (port ≤ 1) ∧ (queue ≤ 15) ∧ (x.powered = true) ∧ ((x.port port).linkUp = true) ∧ ((x.port port).en = true) ∧ (port ≠ s.portNo b)) ∧
  (∃ (s : State) (b queue : Nat) (cmds : List PeerCmd) (x : Blade) (e : Issued), (s.blade b = some x) ∧ (queue ≤ 15) ∧ (x.powered = true) ∧ ((x.port (s.portNo b)).linkUp = true) ∧ ((x.port (s.portNo b)).en = true) ∧ (s.portNo b ≤ 1) ∧ ((s.hport b).issued = [e]) ∧ (e.queue = queue) ∧ (e.slot = none) ∧ ((s.hport b).tail = []) ∧ ((s.hport b).seen = []) ∧ ((s.hport b).late = [])) ∧
  (∃ (s : State) (b port queue : Nat) (cmds : List PeerCmd) (x : Blade) (n tl : Nat) (es : List Issued), (s.blade b = some x) ∧ (port ≤ 1) ∧ (queue ≤ 15) ∧ (x.powered = true) ∧ ((x.port port).linkUp = true) ∧ ((x.port port).en = true) ∧ (port = s.portNo b) ∧ (n = min ((s.hport b).places queue) ((s.hport b).unsent queue).length) ∧ (tl = Tab.getD (s.hport b).tail queue 0) ∧ (es = placeSlots queue n tl (s.hport b).issued)) ∧
  (∃ (s : State) (b port : Nat) (x : Blade), (s.blade b = some x) ∧ (port ≤ 1) ∧ (x.powered = true) ∧ ((x.port port).linkUp = true)) :=
  ⟨⟨regs [(DDR_CFG.CAP_GIB, 16)] { State.reset with blades := [(3, { id := { dies := 16, blocks := 1024, pagesQlc := 768, spare := 8, ratedEc := 1000 }, powered := true, rdy := true, port1 := { linkUp := true, en := true }, blocks := [(10, { pages := [(0, .good (zeros 64) (zeros 64))], claim := some 5, last := some 0 })], recs := [(5, { epoch := 4, released := false })] })] }, 3, 1, 2, [⟨image 64 [(0, 1, 10), (24, 4, 4096)], [], []⟩], { id := { dies := 16, blocks := 1024, pagesQlc := 768, spare := 8, ratedEc := 1000 }, powered := true, rdy := true, port1 := { linkUp := true, en := true }, blocks := [(10, { pages := [(0, .good (zeros 64) (zeros 64))], claim := some 5, last := some 0 })], recs := [(5, { epoch := 4, released := false })] }, by decide +kernel⟩,
   ⟨regs [(DDR_CFG.CAP_GIB, 16)] { State.reset with blades := [(3, { id := { dies := 16, blocks := 1024, pagesQlc := 768, spare := 8, ratedEc := 1000 }, powered := true, rdy := true, port0 := { linkUp := true, en := true }, blocks := [(10, { pages := [(0, .good (zeros 64) (zeros 64))], claim := some 5, last := some 0 })], recs := [(5, { epoch := 4, released := false })] })], ports := [(3, { issued := [{ queue := 2, cmd := { img := image 64 [(0, 1, 10)] }, issuer := .renew 0, since := 0 }] })] }, 3, 2, [], { id := { dies := 16, blocks := 1024, pagesQlc := 768, spare := 8, ratedEc := 1000 }, powered := true, rdy := true, port0 := { linkUp := true, en := true }, blocks := [(10, { pages := [(0, .good (zeros 64) (zeros 64))], claim := some 5, last := some 0 })], recs := [(5, { epoch := 4, released := false })] }, { queue := 2, cmd := { img := image 64 [(0, 1, 10)] }, issuer := .renew 0, since := 0 }, by decide +kernel⟩,
   ⟨regs [(DDR_CFG.CAP_GIB, 16)] { State.reset with blades := [(3, { id := { dies := 16, blocks := 1024, pagesQlc := 768, spare := 8, ratedEc := 1000 }, powered := true, rdy := true, port0 := { linkUp := true, en := true }, blocks := [(10, { pages := [(0, .good (zeros 64) (zeros 64))], claim := some 5, last := some 0 })], recs := [(5, { epoch := 4, released := false })] })], ports := [(3, { issued := [{ queue := 2, cmd := { img := image 64 [(0, 1, 10)] }, issuer := .renew 0, since := 0 }] })] }, 3, 0, 2, [], { id := { dies := 16, blocks := 1024, pagesQlc := 768, spare := 8, ratedEc := 1000 }, powered := true, rdy := true, port0 := { linkUp := true, en := true }, blocks := [(10, { pages := [(0, .good (zeros 64) (zeros 64))], claim := some 5, last := some 0 })], recs := [(5, { epoch := 4, released := false })] }, 1, 0, [{ queue := 2, cmd := { img := image 64 [(0, 1, 10)] }, issuer := .renew 0, since := 0, slot := some 0 }], by decide +kernel⟩,
   ⟨regs [(DDR_CFG.CAP_GIB, 16)] { State.reset with blades := [(3, { id := { dies := 16, blocks := 1024, pagesQlc := 768, spare := 8, ratedEc := 1000 }, powered := true, rdy := true, port1 := { linkUp := true, en := true }, blocks := [(10, { pages := [(0, .good (zeros 64) (zeros 64))], claim := some 5, last := some 0 })], recs := [(5, { epoch := 4, released := false })] })] }, 3, 1, { id := { dies := 16, blocks := 1024, pagesQlc := 768, spare := 8, ratedEc := 1000 }, powered := true, rdy := true, port1 := { linkUp := true, en := true }, blocks := [(10, { pages := [(0, .good (zeros 64) (zeros 64))], claim := some 5, last := some 0 })], recs := [(5, { epoch := 4, released := false })] }, by decide +kernel⟩⟩

theorem witness_BladePortsAtTheBlade_2 :
  (∃ (s : State) (b port : Nat) (x : Blade), (s.blade b = some x) ∧ (port ≤ 1) ∧ (x.powered = true) ∧ ((x.port port).linkUp = true)) ∧
  (∃ (s : State) (b port v : Nat) (x : Blade), (s.blade b = some x) ∧ (port ≤ 1) ∧ (x.powered = true) ∧ ((x.port port).linkUp = true)) ∧
  (∃ (s : State) (b port : Nat) (perst : Bool) (x : Blade), (s.blade b = some x) ∧ (port ≤ 1)) ∧
  (∃ (s : State) (b port : Nat) (perst : Bool) (x : Blade) (y : BladePort), (s.blade b = some x) ∧ (port ≤ 1) ∧ (y = (x.emptyPort port).port port)) :=
  ⟨⟨regs [(DDR_CFG.CAP_GIB, 16)] { State.reset with blades := [(3, { id := { dies := 16, blocks := 1024, pagesQlc := 768, spare := 8, ratedEc := 1000 }, powered := true, rdy := true, port1 := { linkUp := true, en := true }, blocks := [(10, { pages := [(0, .good (zeros 64) (zeros 64))], claim := some 5, last := some 0 })], recs := [(5, { epoch := 4, released := false })] })] }, 3, 1, { id := { dies := 16, blocks := 1024, pagesQlc := 768, spare := 8, ratedEc := 1000 }, powered := true, rdy := true, port1 := { linkUp := true, en := true }, blocks := [(10, { pages := [(0, .good (zeros 64) (zeros 64))], claim := some 5, last := some 0 })], recs := [(5, { epoch := 4, released := false })] }, by decide +kernel⟩,
   ⟨regs [(DDR_CFG.CAP_GIB, 16)] { State.reset with blades := [(3, { id := { dies := 16, blocks := 1024, pagesQlc := 768, spare := 8, ratedEc := 1000 }, powered := true, rdy := true, port1 := { linkUp := true, en := true }, blocks := [(10, { pages := [(0, .good (zeros 64) (zeros 64))], claim := some 5, last := some 0 })], recs := [(5, { epoch := 4, released := false })] })] }, 3, 1, 500, { id := { dies := 16, blocks := 1024, pagesQlc := 768, spare := 8, ratedEc := 1000 }, powered := true, rdy := true, port1 := { linkUp := true, en := true }, blocks := [(10, { pages := [(0, .good (zeros 64) (zeros 64))], claim := some 5, last := some 0 })], recs := [(5, { epoch := 4, released := false })] }, by decide +kernel⟩,
   ⟨regs [(DDR_CFG.CAP_GIB, 16)] { State.reset with blades := [(3, { id := { dies := 16, blocks := 1024, pagesQlc := 768, spare := 8, ratedEc := 1000 }, powered := true, rdy := true, port1 := { linkUp := true, en := true }, blocks := [(10, { pages := [(0, .good (zeros 64) (zeros 64))], claim := some 5, last := some 0 })], recs := [(5, { epoch := 4, released := false })] })] }, 3, 1, true, { id := { dies := 16, blocks := 1024, pagesQlc := 768, spare := 8, ratedEc := 1000 }, powered := true, rdy := true, port1 := { linkUp := true, en := true }, blocks := [(10, { pages := [(0, .good (zeros 64) (zeros 64))], claim := some 5, last := some 0 })], recs := [(5, { epoch := 4, released := false })] }, by decide +kernel⟩,
   ⟨regs [(DDR_CFG.CAP_GIB, 16)] { State.reset with blades := [(3, { id := { dies := 16, blocks := 1024, pagesQlc := 768, spare := 8, ratedEc := 1000 }, powered := true, rdy := true, port1 := { linkUp := true, en := true }, blocks := [(10, { pages := [(0, .good (zeros 64) (zeros 64))], claim := some 5, last := some 0 })], recs := [(5, { epoch := 4, released := false })] })] }, 3, 1, true, { id := { dies := 16, blocks := 1024, pagesQlc := 768, spare := 8, ratedEc := 1000 }, powered := true, rdy := true, port1 := { linkUp := true, en := true }, blocks := [(10, { pages := [(0, .good (zeros 64) (zeros 64))], claim := some 5, last := some 0 })], recs := [(5, { epoch := 4, released := false })] }, { linkUp := true, en := true }, by decide +kernel⟩⟩

theorem witness_BladePortsAtTheBlade_3 :
  (∃ (s : State) (b : Nat) (whole : List Nat) (x y : Blade), (s.blade b = some x) ∧ (x.powered = true) ∧ (y = x.cut s.wireNow (Config.freeByte s.draws) whole)) ∧
  (∃ (s : State) (b : Nat) (whole : List Nat) (x : Blade), (s.blade b = some x) ∧ (x.powered = true)) ∧
  (∃ (s : State) (b : Nat) (whole : Bool) (x : Blade), (b ≤ 15) ∧ (s.blade b = some x) ∧ (x.powered = false)) ∧
  (∃ (s : State) (b : Nat) (n : NewBlade) (whole : Bool), (b ≤ 15)) :=
  ⟨⟨regs [(DDR_CFG.CAP_GIB, 16)] { State.reset with blades := [(3, { id := { dies := 16, blocks := 1024, pagesQlc := 768, spare := 8, ratedEc := 1000 }, powered := true, rdy := true, port1 := { linkUp := true, en := true }, blocks := [(10, { pages := [(0, .good (zeros 64) (zeros 64))], claim := some 5, last := some 0 })], recs := [(5, { epoch := 4, released := false })] })] }, 3, [], { id := { dies := 16, blocks := 1024, pagesQlc := 768, spare := 8, ratedEc := 1000 }, powered := true, rdy := true, port1 := { linkUp := true, en := true }, blocks := [(10, { pages := [(0, .good (zeros 64) (zeros 64))], claim := some 5, last := some 0 })], recs := [(5, { epoch := 4, released := false })] }, { id := { dies := 16, blocks := 1024, pagesQlc := 768, spare := 8, ratedEc := 1000 }, powered := true, rdy := true, port1 := { linkUp := true, en := true }, blocks := [(10, { pages := [(0, .good (zeros 64) (zeros 64))], claim := some 5, last := some 0 })], recs := [(5, { epoch := 4, released := false })] }, by decide +kernel⟩,
   ⟨regs [(DDR_CFG.CAP_GIB, 16)] { State.reset with blades := [(3, { id := { dies := 16, blocks := 1024, pagesQlc := 768, spare := 8, ratedEc := 1000 }, powered := true, rdy := true, port1 := { linkUp := true, en := true }, blocks := [(10, { pages := [(0, .good (zeros 64) (zeros 64))], claim := some 5, last := some 0 })], recs := [(5, { epoch := 4, released := false })] })] }, 3, [], { id := { dies := 16, blocks := 1024, pagesQlc := 768, spare := 8, ratedEc := 1000 }, powered := true, rdy := true, port1 := { linkUp := true, en := true }, blocks := [(10, { pages := [(0, .good (zeros 64) (zeros 64))], claim := some 5, last := some 0 })], recs := [(5, { epoch := 4, released := false })] }, by decide +kernel⟩,
   ⟨regs [(DDR_CFG.CAP_GIB, 16)] { State.reset with blades := [(3, { id := { dies := 16, blocks := 1024, pagesQlc := 768, spare := 8, ratedEc := 1000 }, powered := false, rdy := true, port1 := { linkUp := true, en := true }, blocks := [(10, { pages := [(0, .good (zeros 64) (zeros 64))], claim := some 5, last := some 0 })], recs := [(5, { epoch := 4, released := false })] })] }, 3, true, { id := { dies := 16, blocks := 1024, pagesQlc := 768, spare := 8, ratedEc := 1000 }, powered := false, rdy := true, port1 := { linkUp := true, en := true }, blocks := [(10, { pages := [(0, .good (zeros 64) (zeros 64))], claim := some 5, last := some 0 })], recs := [(5, { epoch := 4, released := false })] }, by decide +kernel⟩,
   ⟨State.reset, 3, { dies := 16, blocks := 1024, pagesQlc := 768, spare := 8, ratedEc := 1000, serial := [], ppm := 0 }, true, by decide +kernel⟩⟩

theorem witness_BladePortStatesAndPass :
  (∃ (s : State) (b : Fin 16) (t : State), (s.present b = false) ∧ (s.bldSt b = Bst.empty) ∧ (t = ({ s with pins := { s.pins with prsntN := setBitTo s.pins.prsntN b false } } : State).wr (BLD_PORT_STATUS.PRSNT b) 1) ∧ (t.bldSt b = Bst.empty)) ∧
  (∃ (s : State) (b : Fin 16), (s.present b = false) ∧ (s.bldSt b ≠ Bst.empty) ∧ ((({ s with pins := { s.pins with prsntN := setBitTo s.pins.prsntN b false } } : State).wr (BLD_PORT_STATUS.PRSNT b) 1).bldSt b ≠ Bst.empty)) ∧
  (∃ (s : State) (b : Fin 16), (s.present b = true) ∧ ((({ s with pins := { s.pins with prsntN := setBitTo s.pins.prsntN b true } } : State).wr (BLD_PORT_STATUS.PRSNT b) 0).bldSt b ≠ Bst.empty) ∧ ((({ s with pins := { s.pins with prsntN := setBitTo s.pins.prsntN b true } } : State).wr (BLD_PORT_STATUS.PRSNT b) 0).bldSt b ≠ Bst.ready)) ∧
  (∃ (s : State) (b : Fin 16) (t : State), (s.present b = true) ∧ (t = ({ s with pins := { s.pins with prsntN := setBitTo s.pins.prsntN b true } } : State).wr (BLD_PORT_STATUS.PRSNT b) 0) ∧ (t.bldSt b = Bst.empty)) :=
  ⟨⟨regs [(DDR_CFG.CAP_GIB, 16), (BLD_PORT_STATUS.STATE 3, Bst.empty), (BLD_CTL.EN, 1), (BLD_CTL.PORT_EN, 65535), (PWR_DOM.STATE 83, 1)] { State.reset with now := 10 ^ 13, ports := [(3, { timer := some 0 })], pins := { State.reset.pins with prsntN := 65535 } }, 3, ({ (regs [(DDR_CFG.CAP_GIB, 16), (BLD_PORT_STATUS.STATE 3, Bst.empty), (BLD_CTL.EN, 1), (BLD_CTL.PORT_EN, 65535), (PWR_DOM.STATE 83, 1)] { State.reset with now := 10 ^ 13, ports := [(3, { timer := some 0 })], pins := { State.reset.pins with prsntN := 65535 } }) with pins := { State.reset.pins with prsntN := 65527 } } : State).wr (BLD_PORT_STATUS.PRSNT 3) 1, ⟨by decide +kernel, by decide +kernel, by first | with_reducible rfl | decide +kernel, by decide +kernel⟩⟩,
   ⟨regs [(DDR_CFG.CAP_GIB, 16), (BLD_PORT_STATUS.STATE 3, Bst.down), (BLD_CTL.EN, 1), (BLD_CTL.PORT_EN, 65535), (PWR_DOM.STATE 83, 1)] { State.reset with now := 10 ^ 13, ports := [(3, { timer := some 0 })], pins := { State.reset.pins with prsntN := 65535 } }, 3, by decide +kernel⟩,
   ⟨regs [(DDR_CFG.CAP_GIB, 16), (BLD_PORT_STATUS.STATE 3, Bst.down), (BLD_CTL.EN, 1), (BLD_CTL.PORT_EN, 65535), (PWR_DOM.STATE 83, 1)] { State.reset with now := 10 ^ 13, ports := [(3, { timer := some 0 })], pins := { State.reset.pins with prsntN := 0 } }, 3, by decide +kernel⟩,
   ⟨regs [(DDR_CFG.CAP_GIB, 16), (BLD_PORT_STATUS.STATE 3, Bst.empty), (BLD_CTL.EN, 1), (BLD_CTL.PORT_EN, 65535), (PWR_DOM.STATE 83, 1)] { State.reset with now := 10 ^ 13, ports := [(3, { timer := some 0 })], pins := { State.reset.pins with prsntN := 0 } }, 3, ({ (regs [(DDR_CFG.CAP_GIB, 16), (BLD_PORT_STATUS.STATE 3, Bst.empty), (BLD_CTL.EN, 1), (BLD_CTL.PORT_EN, 65535), (PWR_DOM.STATE 83, 1)] { State.reset with now := 10 ^ 13, ports := [(3, { timer := some 0 })], pins := { State.reset.pins with prsntN := 0 } }) with pins := { State.reset.pins with prsntN := 8 } } : State).wr (BLD_PORT_STATUS.PRSNT 3) 0, ⟨by decide +kernel, by first | with_reducible rfl | decide +kernel, by decide +kernel⟩⟩⟩

theorem witness_BladePortStatesAndPass_2 :
  (∃ (s : State) (b : Fin 16) (t : State), (s.present b = true) ∧ (t = ({ s with pins := { s.pins with prsntN := setBitTo s.pins.prsntN b true } } : State).wr (BLD_PORT_STATUS.PRSNT b) 0) ∧ (t.bldSt b = Bst.ready)) ∧
  (∃ (s : State) (b : Fin 16), (s.bldSt b = Bst.empty) ∧ (s.present b = true) ∧ (s.portEn b = true) ∧ (s.due (s.hport b).timer = true)) ∧
  (∃ (s : State) (b : Fin 16), (s.bldSt b = Bst.reset) ∧ (s.due (s.hport b).timer = true)) ∧
  (∃ (s : State) (b : Fin 16) (port : Fin 2) (width : Fin 4) (speed32 flit : Bool) (major : Nat) (x : Blade), (s.blade b = some x) ∧ (s.bldSt b = Bst.training) ∧ (x.powered = true) ∧ (width.val ≠ 0) ∧ (flit = false ∨ width.val ≤ s.rd BLD_LINK_CFG.MIN_WIDTH ∨ (speed32 = true ∧ s.on BLD_LINK_CFG.ALLOW_32GT = false))) :=
  ⟨⟨regs [(DDR_CFG.CAP_GIB, 16), (BLD_PORT_STATUS.STATE 3, Bst.ready), (BLD_CTL.EN, 1), (BLD_CTL.PORT_EN, 65535), (PWR_DOM.STATE 83, 1)] { State.reset with now := 10 ^ 13, ports := [(3, { timer := some 0 })], pins := { State.reset.pins with prsntN := 0 } }, 3, ({ (regs [(DDR_CFG.CAP_GIB, 16), (BLD_PORT_STATUS.STATE 3, Bst.ready), (BLD_CTL.EN, 1), (BLD_CTL.PORT_EN, 65535), (PWR_DOM.STATE 83, 1)] { State.reset with now := 10 ^ 13, ports := [(3, { timer := some 0 })], pins := { State.reset.pins with prsntN := 0 } }) with pins := { State.reset.pins with prsntN := 8 } } : State).wr (BLD_PORT_STATUS.PRSNT 3) 0, ⟨by decide +kernel, by first | with_reducible rfl | decide +kernel, by decide +kernel⟩⟩,
   ⟨regs [(DDR_CFG.CAP_GIB, 16), (BLD_PORT_STATUS.STATE 3, Bst.empty), (BLD_CTL.EN, 1), (BLD_CTL.PORT_EN, 65535), (PWR_DOM.STATE 83, 1)] { State.reset with now := 10 ^ 13, ports := [(3, { timer := some 0 })], pins := { State.reset.pins with prsntN := 0 } }, 3, by decide +kernel⟩,
   ⟨regs [(DDR_CFG.CAP_GIB, 16), (BLD_PORT_STATUS.STATE 3, Bst.reset), (BLD_CTL.EN, 1), (BLD_CTL.PORT_EN, 65535), (PWR_DOM.STATE 83, 1)] { State.reset with now := 10 ^ 13, ports := [(3, { timer := some 0 })] }, 3, by decide +kernel⟩,
   ⟨regs [(DDR_CFG.CAP_GIB, 16), (BLD_PORT_STATUS.STATE 3, Bst.training), (BLD_CTL.EN, 1), (BLD_CTL.PORT_EN, 65535), (PWR_DOM.STATE 83, 1)] { State.reset with now := 10 ^ 13, ports := [(3, { timer := some 0 })], blades := [(3, { id := { dies := 16, blocks := 1024, pagesQlc := 768, spare := 8, ratedEc := 1000 }, powered := true, rdy := true, port0 := { linkUp := true, en := true }, blocks := [(10, { pages := [(0, .good (zeros 64) (zeros 64))], claim := some 5, last := some 0 })], recs := [(5, { epoch := 4, released := false })] })] }, 3, 0, 3, false, false, 1, { id := { dies := 16, blocks := 1024, pagesQlc := 768, spare := 8, ratedEc := 1000 }, powered := true, rdy := true, port0 := { linkUp := true, en := true }, blocks := [(10, { pages := [(0, .good (zeros 64) (zeros 64))], claim := some 5, last := some 0 })], recs := [(5, { epoch := 4, released := false })] }, by decide +kernel⟩⟩

theorem witness_BladePortStatesAndPass_3 :
  (∃ (s : State) (b : Fin 16) (port : Fin 2) (major : Nat) (x : Blade) (t u : State), (s.blade b = some x) ∧ (s.bldSt b = Bst.training) ∧ (x.powered = true) ∧ (s.rd BLD_LINK_CFG.MIN_WIDTH < 3) ∧ (t = s.setHport b { s.hport b with miswired := port.val != s.headNo }) ∧ (u = ((t.setBlade b (x.setPort port { x.port port with linkUp := true })).wr (BLD_PORT_STATUS.WIDTH b) 3).wr (BLD_PORT_STATUS.SPEED32 b) 0)) ∧
  (∃ (s : State) (b : Fin 16) (port : Fin 2) (width : Fin 4) (speed32 : Bool) (major : Nat) (x : Blade) (t u v : State), (s.blade b = some x) ∧ (s.bldSt b = Bst.training) ∧ (x.powered = true) ∧ (width.val ≠ 0) ∧ (s.rd BLD_LINK_CFG.MIN_WIDTH < width.val) ∧ (speed32 = true → s.on BLD_LINK_CFG.ALLOW_32GT = true) ∧ (t = (s.setHport b { s.hport b with miswired := port.val != s.headNo }).setBlade b (x.setPort port { x.port port with linkUp := true })) ∧ (u = (t.wr (BLD_PORT_STATUS.WIDTH b) width.val).wr (BLD_PORT_STATUS.SPEED32 b) (if speed32 then 1 else 0)) ∧ (v = if width.val < 3 ∨ speed32 = true then u.raise Ev.bladeDegraded (some .bld) (some b.val) [b, width.val] else u)) ∧
  (∃ (s : State) (b : Fin 16), (s.bldSt b = Bst.training) ∧ (s.due (s.hport b).timer = true)) ∧
  (∃ (s : State) (b : Fin 16), (s.bldSt b = Bst.init) ∧ (s.due (s.hport b).timer = true)) :=
  ⟨⟨regs [(DDR_CFG.CAP_GIB, 16), (BLD_PORT_STATUS.STATE 3, Bst.training), (BLD_CTL.EN, 1), (BLD_CTL.PORT_EN, 65535), (PWR_DOM.STATE 83, 1)] { State.reset with now := 10 ^ 13, ports := [(3, { timer := some 0 })], blades := [(3, { id := { dies := 16, blocks := 1024, pagesQlc := 768, spare := 8, ratedEc := 1000 }, powered := true, rdy := true, port0 := { linkUp := true, en := true }, blocks := [(10, { pages := [(0, .good (zeros 64) (zeros 64))], claim := some 5, last := some 0 })], recs := [(5, { epoch := 4, released := false })] })] }, 3, 0, 1, { id := { dies := 16, blocks := 1024, pagesQlc := 768, spare := 8, ratedEc := 1000 }, powered := true, rdy := true, port0 := { linkUp := true, en := true }, blocks := [(10, { pages := [(0, .good (zeros 64) (zeros 64))], claim := some 5, last := some 0 })], recs := [(5, { epoch := 4, released := false })] }, (regs [(DDR_CFG.CAP_GIB, 16), (BLD_PORT_STATUS.STATE 3, Bst.training), (BLD_CTL.EN, 1), (BLD_CTL.PORT_EN, 65535), (PWR_DOM.STATE 83, 1)] { State.reset with now := 10 ^ 13, ports := [(3, { timer := some 0 })], blades := [(3, { id := { dies := 16, blocks := 1024, pagesQlc := 768, spare := 8, ratedEc := 1000 }, powered := true, rdy := true, port0 := { linkUp := true, en := true }, blocks := [(10, { pages := [(0, .good (zeros 64) (zeros 64))], claim := some 5, last := some 0 })], recs := [(5, { epoch := 4, released := false })] })] }).setHport 3 { (regs [(DDR_CFG.CAP_GIB, 16), (BLD_PORT_STATUS.STATE 3, Bst.training), (BLD_CTL.EN, 1), (BLD_CTL.PORT_EN, 65535), (PWR_DOM.STATE 83, 1)] { State.reset with now := 10 ^ 13, ports := [(3, { timer := some 0 })], blades := [(3, { id := { dies := 16, blocks := 1024, pagesQlc := 768, spare := 8, ratedEc := 1000 }, powered := true, rdy := true, port0 := { linkUp := true, en := true }, blocks := [(10, { pages := [(0, .good (zeros 64) (zeros 64))], claim := some 5, last := some 0 })], recs := [(5, { epoch := 4, released := false })] })] }).hport 3 with miswired := false }, ((((regs [(DDR_CFG.CAP_GIB, 16), (BLD_PORT_STATUS.STATE 3, Bst.training), (BLD_CTL.EN, 1), (BLD_CTL.PORT_EN, 65535), (PWR_DOM.STATE 83, 1)] { State.reset with now := 10 ^ 13, ports := [(3, { timer := some 0 })], blades := [(3, { id := { dies := 16, blocks := 1024, pagesQlc := 768, spare := 8, ratedEc := 1000 }, powered := true, rdy := true, port0 := { linkUp := true, en := true }, blocks := [(10, { pages := [(0, .good (zeros 64) (zeros 64))], claim := some 5, last := some 0 })], recs := [(5, { epoch := 4, released := false })] })] }).setHport 3 { (regs [(DDR_CFG.CAP_GIB, 16), (BLD_PORT_STATUS.STATE 3, Bst.training), (BLD_CTL.EN, 1), (BLD_CTL.PORT_EN, 65535), (PWR_DOM.STATE 83, 1)] { State.reset with now := 10 ^ 13, ports := [(3, { timer := some 0 })], blades := [(3, { id := { dies := 16, blocks := 1024, pagesQlc := 768, spare := 8, ratedEc := 1000 }, powered := true, rdy := true, port0 := { linkUp := true, en := true }, blocks := [(10, { pages := [(0, .good (zeros 64) (zeros 64))], claim := some 5, last := some 0 })], recs := [(5, { epoch := 4, released := false })] })] }).hport 3 with miswired := false }).setBlade 3 (({ id := { dies := 16, blocks := 1024, pagesQlc := 768, spare := 8, ratedEc := 1000 }, powered := true, rdy := true, port0 := { linkUp := true, en := true }, blocks := [(10, { pages := [(0, .good (zeros 64) (zeros 64))], claim := some 5, last := some 0 })], recs := [(5, { epoch := 4, released := false })] } : Blade).setPort 0 { ({ id := { dies := 16, blocks := 1024, pagesQlc := 768, spare := 8, ratedEc := 1000 }, powered := true, rdy := true, port0 := { linkUp := true, en := true }, blocks := [(10, { pages := [(0, .good (zeros 64) (zeros 64))], claim := some 5, last := some 0 })], recs := [(5, { epoch := 4, released := false })] } : Blade).port 0 with linkUp := true })).wr (BLD_PORT_STATUS.WIDTH 3) 3).wr (BLD_PORT_STATUS.SPEED32 3) 0, ⟨by decide +kernel, by decide +kernel, by decide +kernel, by decide +kernel, by first | with_reducible rfl | decide +kernel, by first | with_reducible rfl | decide +kernel⟩⟩,
   ⟨regs [(DDR_CFG.CAP_GIB, 16), (BLD_PORT_STATUS.STATE 3, Bst.training), (BLD_CTL.EN, 1), (BLD_CTL.PORT_EN, 65535), (PWR_DOM.STATE 83, 1)] { State.reset with now := 10 ^ 13, ports := [(3, { timer := some 0 })], blades := [(3, { id := { dies := 16, blocks := 1024, pagesQlc := 768, spare := 8, ratedEc := 1000 }, powered := true, rdy := true, port0 := { linkUp := true, en := true }, blocks := [(10, { pages := [(0, .good (zeros 64) (zeros 64))], claim := some 5, last := some 0 })], recs := [(5, { epoch := 4, released := false })] })] }, 3, 0, 2, false, 1, { id := { dies := 16, blocks := 1024, pagesQlc := 768, spare := 8, ratedEc := 1000 }, powered := true, rdy := true, port0 := { linkUp := true, en := true }, blocks := [(10, { pages := [(0, .good (zeros 64) (zeros 64))], claim := some 5, last := some 0 })], recs := [(5, { epoch := 4, released := false })] }, ((regs [(DDR_CFG.CAP_GIB, 16), (BLD_PORT_STATUS.STATE 3, Bst.training), (BLD_CTL.EN, 1), (BLD_CTL.PORT_EN, 65535), (PWR_DOM.STATE 83, 1)] { State.reset with now := 10 ^ 13, ports := [(3, { timer := some 0 })], blades := [(3, { id := { dies := 16, blocks := 1024, pagesQlc := 768, spare := 8, ratedEc := 1000 }, powered := true, rdy := true, port0 := { linkUp := true, en := true }, blocks := [(10, { pages := [(0, .good (zeros 64) (zeros 64))], claim := some 5, last := some 0 })], recs := [(5, { epoch := 4, released := false })] })] }).setHport 3 { (regs [(DDR_CFG.CAP_GIB, 16), (BLD_PORT_STATUS.STATE 3, Bst.training), (BLD_CTL.EN, 1), (BLD_CTL.PORT_EN, 65535), (PWR_DOM.STATE 83, 1)] { State.reset with now := 10 ^ 13, ports := [(3, { timer := some 0 })], blades := [(3, { id := { dies := 16, blocks := 1024, pagesQlc := 768, spare := 8, ratedEc := 1000 }, powered := true, rdy := true, port0 := { linkUp := true, en := true }, blocks := [(10, { pages := [(0, .good (zeros 64) (zeros 64))], claim := some 5, last := some 0 })], recs := [(5, { epoch := 4, released := false })] })] }).hport 3 with miswired := false }).setBlade 3 (({ id := { dies := 16, blocks := 1024, pagesQlc := 768, spare := 8, ratedEc := 1000 }, powered := true, rdy := true, port0 := { linkUp := true, en := true }, blocks := [(10, { pages := [(0, .good (zeros 64) (zeros 64))], claim := some 5, last := some 0 })], recs := [(5, { epoch := 4, released := false })] } : Blade).setPort 0 { ({ id := { dies := 16, blocks := 1024, pagesQlc := 768, spare := 8, ratedEc := 1000 }, powered := true, rdy := true, port0 := { linkUp := true, en := true }, blocks := [(10, { pages := [(0, .good (zeros 64) (zeros 64))], claim := some 5, last := some 0 })], recs := [(5, { epoch := 4, released := false })] } : Blade).port 0 with linkUp := true }), ((((regs [(DDR_CFG.CAP_GIB, 16), (BLD_PORT_STATUS.STATE 3, Bst.training), (BLD_CTL.EN, 1), (BLD_CTL.PORT_EN, 65535), (PWR_DOM.STATE 83, 1)] { State.reset with now := 10 ^ 13, ports := [(3, { timer := some 0 })], blades := [(3, { id := { dies := 16, blocks := 1024, pagesQlc := 768, spare := 8, ratedEc := 1000 }, powered := true, rdy := true, port0 := { linkUp := true, en := true }, blocks := [(10, { pages := [(0, .good (zeros 64) (zeros 64))], claim := some 5, last := some 0 })], recs := [(5, { epoch := 4, released := false })] })] }).setHport 3 { (regs [(DDR_CFG.CAP_GIB, 16), (BLD_PORT_STATUS.STATE 3, Bst.training), (BLD_CTL.EN, 1), (BLD_CTL.PORT_EN, 65535), (PWR_DOM.STATE 83, 1)] { State.reset with now := 10 ^ 13, ports := [(3, { timer := some 0 })], blades := [(3, { id := { dies := 16, blocks := 1024, pagesQlc := 768, spare := 8, ratedEc := 1000 }, powered := true, rdy := true, port0 := { linkUp := true, en := true }, blocks := [(10, { pages := [(0, .good (zeros 64) (zeros 64))], claim := some 5, last := some 0 })], recs := [(5, { epoch := 4, released := false })] })] }).hport 3 with miswired := false }).setBlade 3 (({ id := { dies := 16, blocks := 1024, pagesQlc := 768, spare := 8, ratedEc := 1000 }, powered := true, rdy := true, port0 := { linkUp := true, en := true }, blocks := [(10, { pages := [(0, .good (zeros 64) (zeros 64))], claim := some 5, last := some 0 })], recs := [(5, { epoch := 4, released := false })] } : Blade).setPort 0 { ({ id := { dies := 16, blocks := 1024, pagesQlc := 768, spare := 8, ratedEc := 1000 }, powered := true, rdy := true, port0 := { linkUp := true, en := true }, blocks := [(10, { pages := [(0, .good (zeros 64) (zeros 64))], claim := some 5, last := some 0 })], recs := [(5, { epoch := 4, released := false })] } : Blade).port 0 with linkUp := true })).wr (BLD_PORT_STATUS.WIDTH 3) 2).wr (BLD_PORT_STATUS.SPEED32 3) 0, (((((regs [(DDR_CFG.CAP_GIB, 16), (BLD_PORT_STATUS.STATE 3, Bst.training), (BLD_CTL.EN, 1), (BLD_CTL.PORT_EN, 65535), (PWR_DOM.STATE 83, 1)] { State.reset with now := 10 ^ 13, ports := [(3, { timer := some 0 })], blades := [(3, { id := { dies := 16, blocks := 1024, pagesQlc := 768, spare := 8, ratedEc := 1000 }, powered := true, rdy := true, port0 := { linkUp := true, en := true }, blocks := [(10, { pages := [(0, .good (zeros 64) (zeros 64))], claim := some 5, last := some 0 })], recs := [(5, { epoch := 4, released := false })] })] }).setHport 3 { (regs [(DDR_CFG.CAP_GIB, 16), (BLD_PORT_STATUS.STATE 3, Bst.training), (BLD_CTL.EN, 1), (BLD_CTL.PORT_EN, 65535), (PWR_DOM.STATE 83, 1)] { State.reset with now := 10 ^ 13, ports := [(3, { timer := some 0 })], blades := [(3, { id := { dies := 16, blocks := 1024, pagesQlc := 768, spare := 8, ratedEc := 1000 }, powered := true, rdy := true, port0 := { linkUp := true, en := true }, blocks := [(10, { pages := [(0, .good (zeros 64) (zeros 64))], claim := some 5, last := some 0 })], recs := [(5, { epoch := 4, released := false })] })] }).hport 3 with miswired := false }).setBlade 3 (({ id := { dies := 16, blocks := 1024, pagesQlc := 768, spare := 8, ratedEc := 1000 }, powered := true, rdy := true, port0 := { linkUp := true, en := true }, blocks := [(10, { pages := [(0, .good (zeros 64) (zeros 64))], claim := some 5, last := some 0 })], recs := [(5, { epoch := 4, released := false })] } : Blade).setPort 0 { ({ id := { dies := 16, blocks := 1024, pagesQlc := 768, spare := 8, ratedEc := 1000 }, powered := true, rdy := true, port0 := { linkUp := true, en := true }, blocks := [(10, { pages := [(0, .good (zeros 64) (zeros 64))], claim := some 5, last := some 0 })], recs := [(5, { epoch := 4, released := false })] } : Blade).port 0 with linkUp := true })).wr (BLD_PORT_STATUS.WIDTH 3) 2).wr (BLD_PORT_STATUS.SPEED32 3) 0).raise Ev.bladeDegraded (some .bld) (some 3) [3, 2], ⟨by decide +kernel, by decide +kernel, by decide +kernel, by decide +kernel, by decide +kernel, by decide +kernel, by first | with_reducible rfl | decide +kernel, by first | with_reducible rfl | decide +kernel, by first | with_reducible rfl | decide +kernel⟩⟩,
   ⟨regs [(DDR_CFG.CAP_GIB, 16), (BLD_PORT_STATUS.STATE 3, Bst.training), (BLD_CTL.EN, 1), (BLD_CTL.PORT_EN, 65535), (PWR_DOM.STATE 83, 1)] { State.reset with now := 10 ^ 13, ports := [(3, { timer := some 0 })] }, 3, by decide +kernel⟩,
   ⟨regs [(DDR_CFG.CAP_GIB, 16), (BLD_PORT_STATUS.STATE 3, Bst.init), (BLD_CTL.EN, 1), (BLD_CTL.PORT_EN, 65535), (PWR_DOM.STATE 83, 1)] { State.reset with now := 10 ^ 13, ports := [(3, { timer := some 0 })] }, 3, by decide +kernel⟩⟩

theorem witness_BladePortStatesAndPass_4 :
  (∃ (s : State) (b : Fin 16) (x : Blade) (t : State), (s.blade b = some x) ∧ (s.bldSt b = Bst.init) ∧ (x.rdy = true) ∧ (x.powered = true) ∧ ((x.port (s.portNo b)).linkUp = true) ∧ ((s.hport b).miswired = false) ∧ (t = (s.setBld b Bst.ready none).setHport b { (s.setBld b Bst.ready none).hport b with timer := none, lastCpl := s.now })) ∧
  (∃ (s : State) (b : Fin 16) (x : Blade) (t u : State), (s.blade b = some x) ∧ (s.bldSt b = Bst.init) ∧ (x.rdy = true) ∧ (x.powered = true) ∧ ((x.port (s.portNo b)).linkUp = true) ∧ ((s.hport b).miswired = true) ∧ (t = s.raise Ev.headMiswired (some .lease) (some b.val) [b, s.portNo b]) ∧ (u = (t.setBld b Bst.ready none).setHport b { (t.setBld b Bst.ready none).hport b with timer := none, lastCpl := t.now })) ∧
  (∃ (s : State) (b : Fin 16) (x : Blade), (s.blade b = some x) ∧ (s.bldSt b = Bst.ready) ∧ (x.powered = true)) ∧
  (∃ (s : State) (b : Fin 16), (s.bldSt b = Bst.ready)) :=
  ⟨⟨regs [(DDR_CFG.CAP_GIB, 16), (BLD_PORT_STATUS.STATE 3, Bst.init), (BLD_CTL.EN, 1), (BLD_CTL.PORT_EN, 65535), (PWR_DOM.STATE 83, 1)] { State.reset with now := 10 ^ 13, ports := [(3, { timer := some 0 })], blades := [(3, { id := { dies := 16, blocks := 1024, pagesQlc := 768, spare := 8, ratedEc := 1000 }, powered := true, rdy := true, port0 := { linkUp := true, en := true }, blocks := [(10, { pages := [(0, .good (zeros 64) (zeros 64))], claim := some 5, last := some 0 })], recs := [(5, { epoch := 4, released := false })] })] }, 3, { id := { dies := 16, blocks := 1024, pagesQlc := 768, spare := 8, ratedEc := 1000 }, powered := true, rdy := true, port0 := { linkUp := true, en := true }, blocks := [(10, { pages := [(0, .good (zeros 64) (zeros 64))], claim := some 5, last := some 0 })], recs := [(5, { epoch := 4, released := false })] }, ((regs [(DDR_CFG.CAP_GIB, 16), (BLD_PORT_STATUS.STATE 3, Bst.init), (BLD_CTL.EN, 1), (BLD_CTL.PORT_EN, 65535), (PWR_DOM.STATE 83, 1)] { State.reset with now := 10 ^ 13, ports := [(3, { timer := some 0 })], blades := [(3, { id := { dies := 16, blocks := 1024, pagesQlc := 768, spare := 8, ratedEc := 1000 }, powered := true, rdy := true, port0 := { linkUp := true, en := true }, blocks := [(10, { pages := [(0, .good (zeros 64) (zeros 64))], claim := some 5, last := some 0 })], recs := [(5, { epoch := 4, released := false })] })] }).setBld 3 Bst.ready none).setHport 3 { ((regs [(DDR_CFG.CAP_GIB, 16), (BLD_PORT_STATUS.STATE 3, Bst.init), (BLD_CTL.EN, 1), (BLD_CTL.PORT_EN, 65535), (PWR_DOM.STATE 83, 1)] { State.reset with now := 10 ^ 13, ports := [(3, { timer := some 0 })], blades := [(3, { id := { dies := 16, blocks := 1024, pagesQlc := 768, spare := 8, ratedEc := 1000 }, powered := true, rdy := true, port0 := { linkUp := true, en := true }, blocks := [(10, { pages := [(0, .good (zeros 64) (zeros 64))], claim := some 5, last := some 0 })], recs := [(5, { epoch := 4, released := false })] })] }).setBld 3 Bst.ready none).hport 3 with timer := none, lastCpl := 10 ^ 13 }, ⟨by decide +kernel, by decide +kernel, by decide +kernel, by decide +kernel, by decide +kernel, by decide +kernel, by first | with_reducible rfl | decide +kernel⟩⟩,
   ⟨regs [(DDR_CFG.CAP_GIB, 16), (BLD_PORT_STATUS.STATE 3, Bst.init), (BLD_CTL.EN, 1), (BLD_CTL.PORT_EN, 65535), (PWR_DOM.STATE 83, 1)] { State.reset with now := 10 ^ 13, ports := [(3, { timer := some 0, miswired := true })], blades := [(3, { id := { dies := 16, blocks := 1024, pagesQlc := 768, spare := 8, ratedEc := 1000 }, powered := true, rdy := true, port1 := { linkUp := true, en := true }, blocks := [(10, { pages := [(0, .good (zeros 64) (zeros 64))], claim := some 5, last := some 0 })], recs := [(5, { epoch := 4, released := false })] })] }, 3, { id := { dies := 16, blocks := 1024, pagesQlc := 768, spare := 8, ratedEc := 1000 }, powered := true, rdy := true, port1 := { linkUp := true, en := true }, blocks := [(10, { pages := [(0, .good (zeros 64) (zeros 64))], claim := some 5, last := some 0 })], recs := [(5, { epoch := 4, released := false })] }, (regs [(DDR_CFG.CAP_GIB, 16), (BLD_PORT_STATUS.STATE 3, Bst.init), (BLD_CTL.EN, 1), (BLD_CTL.PORT_EN, 65535), (PWR_DOM.STATE 83, 1)] { State.reset with now := 10 ^ 13, ports := [(3, { timer := some 0, miswired := true })], blades := [(3, { id := { dies := 16, blocks := 1024, pagesQlc := 768, spare := 8, ratedEc := 1000 }, powered := true, rdy := true, port1 := { linkUp := true, en := true }, blocks := [(10, { pages := [(0, .good (zeros 64) (zeros 64))], claim := some 5, last := some 0 })], recs := [(5, { epoch := 4, released := false })] })] }).raise Ev.headMiswired (some .lease) (some 3) [3, 1], (((regs [(DDR_CFG.CAP_GIB, 16), (BLD_PORT_STATUS.STATE 3, Bst.init), (BLD_CTL.EN, 1), (BLD_CTL.PORT_EN, 65535), (PWR_DOM.STATE 83, 1)] { State.reset with now := 10 ^ 13, ports := [(3, { timer := some 0, miswired := true })], blades := [(3, { id := { dies := 16, blocks := 1024, pagesQlc := 768, spare := 8, ratedEc := 1000 }, powered := true, rdy := true, port1 := { linkUp := true, en := true }, blocks := [(10, { pages := [(0, .good (zeros 64) (zeros 64))], claim := some 5, last := some 0 })], recs := [(5, { epoch := 4, released := false })] })] }).raise Ev.headMiswired (some .lease) (some 3) [3, 1]).setBld 3 Bst.ready none).setHport 3 { (((regs [(DDR_CFG.CAP_GIB, 16), (BLD_PORT_STATUS.STATE 3, Bst.init), (BLD_CTL.EN, 1), (BLD_CTL.PORT_EN, 65535), (PWR_DOM.STATE 83, 1)] { State.reset with now := 10 ^ 13, ports := [(3, { timer := some 0, miswired := true })], blades := [(3, { id := { dies := 16, blocks := 1024, pagesQlc := 768, spare := 8, ratedEc := 1000 }, powered := true, rdy := true, port1 := { linkUp := true, en := true }, blocks := [(10, { pages := [(0, .good (zeros 64) (zeros 64))], claim := some 5, last := some 0 })], recs := [(5, { epoch := 4, released := false })] })] }).raise Ev.headMiswired (some .lease) (some 3) [3, 1]).setBld 3 Bst.ready none).hport 3 with timer := none, lastCpl := 10 ^ 13 }, ⟨by decide +kernel, by decide +kernel, by decide +kernel, by decide +kernel, by decide +kernel, by decide +kernel, by first | with_reducible rfl | decide +kernel, by first | with_reducible rfl | decide +kernel⟩⟩,
   ⟨regs [(DDR_CFG.CAP_GIB, 16), (BLD_PORT_STATUS.STATE 3, Bst.ready), (BLD_CTL.EN, 1), (BLD_CTL.PORT_EN, 65535), (PWR_DOM.STATE 83, 1)] { State.reset with now := 10 ^ 13, ports := [(3, { timer := some 0 })], blades := [(3, { id := { dies := 16, blocks := 1024, pagesQlc := 768, spare := 8, ratedEc := 1000 }, powered := true, rdy := true, port0 := { linkUp := true, en := true }, blocks := [(10, { pages := [(0, .good (zeros 64) (zeros 64))], claim := some 5, last := some 0 })], recs := [(5, { epoch := 4, released := false })] })] }, 3, { id := { dies := 16, blocks := 1024, pagesQlc := 768, spare := 8, ratedEc := 1000 }, powered := true, rdy := true, port0 := { linkUp := true, en := true }, blocks := [(10, { pages := [(0, .good (zeros 64) (zeros 64))], claim := some 5, last := some 0 })], recs := [(5, { epoch := 4, released := false })] }, by decide +kernel⟩,
   ⟨regs [(DDR_CFG.CAP_GIB, 16), (BLD_PORT_STATUS.STATE 3, Bst.ready), (BLD_CTL.EN, 1), (BLD_CTL.PORT_EN, 65535), (PWR_DOM.STATE 83, 1)] { State.reset with now := 10 ^ 13, ports := [(3, { timer := some 0 })] }, 3, by decide +kernel⟩⟩

theorem witness_BladePortStatesAndPass_5 :
  (∃ (s : State) (b : Fin 16), (s.bldSt b = Bst.ready) ∧ ((s.hport b).issued ≠ []) ∧ (s.passed ((s.hport b).lastCpl + s.rd BLD_LINK_CFG.UNREACH * mgmtTick) = true)) ∧
  (∃ (s : State) (b : Fin 16), (s.bldSt b = Bst.down) ∧ (s.due (s.hport b).timer = true) ∧ (s.present b = false)) ∧
  (∃ (s : State) (b : Fin 16), (s.bldSt b = Bst.down) ∧ (s.due (s.hport b).timer = true) ∧ (s.present b = true)) ∧
  (∃ (s : State) (b : Fin 16) (origin : Origin), (s.originThere origin.toNat = true) ∧ (s.audited false origin.toNat = false) ∧ (s.bldSt b ≠ Bst.empty)) :=
  ⟨⟨regs [(DDR_CFG.CAP_GIB, 16), (BLD_PORT_STATUS.STATE 3, Bst.ready), (BLD_CTL.EN, 1), (BLD_CTL.PORT_EN, 65535), (PWR_DOM.STATE 83, 1)] { State.reset with now := 10 ^ 13, ports := [(3, { timer := some 0, issued := [{ queue := 2, cmd := { img := [] }, issuer := .renew 0, since := 0 }] })] }, 3, by decide +kernel⟩,
   ⟨regs [(DDR_CFG.CAP_GIB, 16), (BLD_PORT_STATUS.STATE 3, Bst.down), (BLD_CTL.EN, 1), (BLD_CTL.PORT_EN, 65535), (PWR_DOM.STATE 83, 1)] { State.reset with now := 10 ^ 13, ports := [(3, { timer := some 0 })], pins := { State.reset.pins with prsntN := 65535 } }, 3, by decide +kernel⟩,
   ⟨regs [(DDR_CFG.CAP_GIB, 16), (BLD_PORT_STATUS.STATE 3, Bst.down), (BLD_CTL.EN, 1), (BLD_CTL.PORT_EN, 65535), (PWR_DOM.STATE 83, 1)] { State.reset with now := 10 ^ 13, ports := [(3, { timer := some 0 })], pins := { State.reset.pins with prsntN := 0 } }, 3, by decide +kernel⟩,
   ⟨regs [(DDR_CFG.CAP_GIB, 16), (BLD_PORT_STATUS.STATE 3, Bst.ready), (BLD_CTL.EN, 1), (BLD_CTL.PORT_EN, 65535), (PWR_DOM.STATE 83, 1)] { State.reset with now := 10 ^ 13, ports := [(3, { timer := some 0 })] }, 3, 0, by decide +kernel⟩⟩

theorem witness_BladePortStatesAndPass_6 :
  (∃ (s : State) (b : Fin 16) (origin : Origin), (s.originThere origin.toNat = true) ∧ (s.audited false origin.toNat = false) ∧ (s.bldSt b = Bst.empty)) ∧
  (∃ (s : State) (b i : Nat) (c : BCpl), ((s.hport b).cq[i]? = some c)) ∧
  (∃ (s : State) (b i : Nat) (e : Issued), ((s.hport b).issued[i]? = some e) ∧ (s.passed (e.since + s.rd BLD_LINK_CFG.CMD_TIMEOUT * mgmtTick) = true)) ∧
  (∃ (s : State) (d : DescRef) (f : Fetched) (img : List Byte) (t : State), (s.startedAt .bld d Op.pass = some f) ∧ (((List.range 16).any fun b => (s.hport b).issued.any fun e => e.issuer == .pass d) = false) ∧ ((s.dmaRead .bld f.src 64 (some d.ring)).toOption = some img) ∧ (passable (fieldAt img 0 1) = true) ∧ (inVat f.dst = true) ∧ (f.at 28 1 ≤ 15) ∧ (s.issue (f.at 28 1) 15 ⟨splice (splice img 16 (leBytes 8 f.dst)) 24 (leBytes 4 f.len), [], []⟩ (.pass d) = (true, t))) :=
  ⟨⟨regs [(DDR_CFG.CAP_GIB, 16), (BLD_PORT_STATUS.STATE 3, Bst.empty), (BLD_CTL.EN, 1), (BLD_CTL.PORT_EN, 65535), (PWR_DOM.STATE 83, 1)] { State.reset with now := 10 ^ 13, ports := [(3, { timer := some 0 })] }, 3, 0, by decide +kernel⟩,
   ⟨regs [(DDR_CFG.CAP_GIB, 16), (BLD_PORT_STATUS.STATE 3, Bst.ready), (BLD_CTL.EN, 1), (BLD_CTL.PORT_EN, 65535), (PWR_DOM.STATE 83, 1)] { State.reset with now := 10 ^ 13, ports := [(3, { timer := some 0, cq := [{ queue := 2, slot := 4, cid := 4, head := 5, phase := true, ans := { status := 0 } }], issued := [{ queue := 2, slot := some 4, cmd := { img := image 64 [(0, 1, 9), (4, 1, 5)] }, issuer := .release 5, since := 0 }] })] }, 3, 0, { queue := 2, slot := 4, cid := 4, head := 5, phase := true, ans := { status := 0 } }, by decide +kernel⟩,
   ⟨regs [(DDR_CFG.CAP_GIB, 16), (BLD_PORT_STATUS.STATE 3, Bst.ready), (BLD_CTL.EN, 1), (BLD_CTL.PORT_EN, 65535), (PWR_DOM.STATE 83, 1)] { State.reset with now := 10 ^ 13, ports := [(3, { timer := some 0, issued := [{ queue := 2, slot := some 4, cmd := { img := image 64 [(0, 1, 9), (4, 1, 5)] }, issuer := .release 5, since := 0 }] })] }, 3, 0, { queue := 2, slot := some 4, cmd := { img := image 64 [(0, 1, 9), (4, 1, 5)] }, issuer := .release 5, since := 0 }, by decide +kernel⟩,
   ⟨holds .bld [desc 0 Op.pass [(28, 1, 3), (8, 8, 8192), (16, 8, 0xD00000000000), (24, 4, 64)] .started] (regs [(DDR_CFG.CAP_GIB, 16), (BLD_PORT_STATUS.STATE 3, Bst.ready), (BLD_CTL.EN, 1), (BLD_CTL.PORT_EN, 65535), (PWR_DOM.STATE 83, 1)] { State.reset with now := 10 ^ 13, ports := [(3, { timer := some 0 })], mem := Memory.writeN [] 8192 (image 64 [(0, 1, 11)]) }), ⟨0, 0⟩, desc 0 Op.pass [(28, 1, 3), (8, 8, 8192), (16, 8, 0xD00000000000), (24, 4, 64)] .started, image 64 [(0, 1, 11)], ((holds .bld [desc 0 Op.pass [(28, 1, 3), (8, 8, 8192), (16, 8, 0xD00000000000), (24, 4, 64)] .started] (regs [(DDR_CFG.CAP_GIB, 16), (BLD_PORT_STATUS.STATE 3, Bst.ready), (BLD_CTL.EN, 1), (BLD_CTL.PORT_EN, 65535), (PWR_DOM.STATE 83, 1)] { State.reset with now := 10 ^ 13, ports := [(3, { timer := some 0 })], mem := Memory.writeN [] 8192 (image 64 [(0, 1, 11)]) })).issue 3 15 ⟨splice (splice (image 64 [(0, 1, 11)]) 16 (leBytes 8 0xD00000000000)) 24 (leBytes 4 64), [], []⟩ (.pass ⟨0, 0⟩)).2, by decide +kernel⟩⟩

theorem witness_BladePortStatesAndPass_7 :
  (∃ (s : State) (d : DescRef) (f : Fetched) (img : List Byte), (s.startedAt .bld d Op.pass = some f) ∧ (((List.range 16).any fun b => (s.hport b).issued.any fun e => e.issuer == .pass d) = false) ∧ ((s.dmaRead .bld f.src 64 (some d.ring)).toOption = some img) ∧ (passable (fieldAt img 0 1) = false)) ∧
  (∃ (s : State) (d : DescRef) (f : Fetched) (img : List Byte), (s.startedAt .bld d Op.pass = some f) ∧ (((List.range 16).any fun b => (s.hport b).issued.any fun e => e.issuer == .pass d) = false) ∧ ((s.dmaRead .bld f.src 64 (some d.ring)).toOption = some img) ∧ (passable (fieldAt img 0 1) = true) ∧ (inVat f.dst = true) ∧ (15 < f.at 28 1 ∨ s.bldSt (f.at 28 1) ≠ Bst.ready)) ∧
  (∃ (s : State) (d : DescRef) (f : Fetched) (img : List Byte), (s.startedAt .bld d Op.pass = some f) ∧ (((List.range 16).any fun b => (s.hport b).issued.any fun e => e.issuer == .pass d) = false) ∧ ((s.dmaRead .bld f.src 64 (some d.ring)).toOption = some img) ∧ (passable (fieldAt img 0 1) = true) ∧ (inVat f.dst = false)) :=
  ⟨⟨holds .bld [desc 0 Op.pass [(28, 1, 3), (8, 8, 8192), (16, 8, 0xD00000000000), (24, 4, 64)] .started] (regs [(DDR_CFG.CAP_GIB, 16), (BLD_PORT_STATUS.STATE 3, Bst.ready), (BLD_CTL.EN, 1), (BLD_CTL.PORT_EN, 65535), (PWR_DOM.STATE 83, 1)] { State.reset with now := 10 ^ 13, ports := [(3, { timer := some 0 })], mem := Memory.writeN [] 8192 (image 64 [(0, 1, 2)]) }), ⟨0, 0⟩, desc 0 Op.pass [(28, 1, 3), (8, 8, 8192), (16, 8, 0xD00000000000), (24, 4, 64)] .started, image 64 [(0, 1, 2)], by decide +kernel⟩,
   ⟨holds .bld [desc 0 Op.pass [(28, 1, 3), (8, 8, 8192), (16, 8, 0xD00000000000), (24, 4, 64)] .started] (regs [(DDR_CFG.CAP_GIB, 16), (BLD_PORT_STATUS.STATE 3, Bst.down), (BLD_CTL.EN, 1), (BLD_CTL.PORT_EN, 65535), (PWR_DOM.STATE 83, 1)] { State.reset with now := 10 ^ 13, ports := [(3, { timer := some 0 })], mem := Memory.writeN [] 8192 (image 64 [(0, 1, 11)]) }), ⟨0, 0⟩, desc 0 Op.pass [(28, 1, 3), (8, 8, 8192), (16, 8, 0xD00000000000), (24, 4, 64)] .started, image 64 [(0, 1, 11)], by decide +kernel⟩,
   ⟨holds .bld [desc 0 Op.pass [(28, 1, 3), (8, 8, 8192), (16, 8, 0x4000), (24, 4, 64)] .started] (regs [(DDR_CFG.CAP_GIB, 16), (BLD_PORT_STATUS.STATE 3, Bst.ready), (BLD_CTL.EN, 1), (BLD_CTL.PORT_EN, 65535), (PWR_DOM.STATE 83, 1)] { State.reset with now := 10 ^ 13, ports := [(3, { timer := some 0 })], mem := Memory.writeN [] 8192 (image 64 [(0, 1, 11)]) }), ⟨0, 0⟩, desc 0 Op.pass [(28, 1, 3), (8, 8, 8192), (16, 8, 0x4000), (24, 4, 64)] .started, image 64 [(0, 1, 11)], by decide +kernel⟩⟩

theorem witness_TenonLinkStates :
  (∃ (s : State) (origin : Origin), (s.admits .ten origin = true) ∧ ((s.wr TEN_CTL.EN 1).tenSt = Tst.disabled) ∧ ((s.wr TEN_CTL.EN 1).solo = false)) ∧
  (∃ (s : State) (origin : Origin) (en : Bool), (s.admits .ten origin = true)) ∧
  (∃ (s : State) (origin : Origin), (s.admits .ten origin = true) ∧ ((s.wr TEN_CTL.EN 0).tenSt = Tst.active)) ∧
  (∃ (s : State) (origin : Origin), (s.admits .ten origin = true) ∧ (s.tenSt ≠ Tst.active)) :=
  ⟨⟨regs [(TEN_STATUS.STATE, Tst.disabled), (DDR_CFG.CAP_GIB, 16), (TEN_CTL.EN, 1), (TEN_CTL.LANE_EN, 255), (TEN_CTL.MIN_WIDTH, 0), (PAR_CTL.EN, 1), (PAR_CTL.FWD_RESERVE, 64), (PAR_SHARD.STATE 5, 0), (CELL_SHARD.STATE 5, 2), (LEASE_SHARD.STATE 5, Lst.held), (SEP_SHARD.STATE 5, 2), (TEN_CTL.EN, 0)] { State.reset with now := 10 ^ 13, ten := {  } }, 0, by decide +kernel⟩,
   ⟨regs [(TEN_STATUS.STATE, Tst.disabled), (DDR_CFG.CAP_GIB, 16), (TEN_CTL.EN, 1), (TEN_CTL.LANE_EN, 255), (TEN_CTL.MIN_WIDTH, 0), (PAR_CTL.EN, 1), (PAR_CTL.FWD_RESERVE, 64), (PAR_SHARD.STATE 5, 0), (CELL_SHARD.STATE 5, 2), (LEASE_SHARD.STATE 5, Lst.held), (SEP_SHARD.STATE 5, 2), (TEN_CTL.EN, 0)] { State.reset with now := 10 ^ 13, ten := {  } }, 0, true, by decide +kernel⟩,
   ⟨regs [(TEN_STATUS.STATE, Tst.active), (DDR_CFG.CAP_GIB, 16), (TEN_CTL.EN, 1), (TEN_CTL.LANE_EN, 255), (TEN_CTL.MIN_WIDTH, 0), (PAR_CTL.EN, 1), (PAR_CTL.FWD_RESERVE, 64), (PAR_SHARD.STATE 5, 0), (CELL_SHARD.STATE 5, 2), (LEASE_SHARD.STATE 5, Lst.held), (SEP_SHARD.STATE 5, 2)] { State.reset with now := 10 ^ 13, ten := {  } }, 0, by decide +kernel⟩,
   ⟨regs [(TEN_STATUS.STATE, Tst.train), (DDR_CFG.CAP_GIB, 16), (TEN_CTL.EN, 1), (TEN_CTL.LANE_EN, 255), (TEN_CTL.MIN_WIDTH, 0), (PAR_CTL.EN, 1), (PAR_CTL.FWD_RESERVE, 64), (PAR_SHARD.STATE 5, 0), (CELL_SHARD.STATE 5, 2), (LEASE_SHARD.STATE 5, Lst.held), (SEP_SHARD.STATE 5, 2)] { State.reset with now := 10 ^ 13, ten := {  } }, 0, by decide +kernel⟩⟩

theorem witness_TenonLinkStates_2 :
  (∃ (s : State) (origin : Origin), (s.admits .ten origin = true) ∧ (s.tenSt = Tst.active)) ∧
  (∃ (s : State) (lanes : Nat), (s.tenSt = Tst.detect) ∧ (s.minWidth ≤ popCount (lanes &&& s.rd TEN_CTL.LANE_EN) 8)) ∧
  (∃ (s : State) (lanes : Nat), (s.tenSt = Tst.detect) ∧ (popCount (lanes &&& s.rd TEN_CTL.LANE_EN) 8 < s.minWidth)) ∧
  (∃ (s : State) (good use : Nat) (reversed : Bool), (s.tenSt = Tst.train) ∧ (s.lanesFit good use = true) ∧ (s.minWidth ≤ popCount use 8)) :=
  ⟨⟨regs [(TEN_STATUS.STATE, Tst.active), (DDR_CFG.CAP_GIB, 16), (TEN_CTL.EN, 1), (TEN_CTL.LANE_EN, 255), (TEN_CTL.MIN_WIDTH, 0), (PAR_CTL.EN, 1), (PAR_CTL.FWD_RESERVE, 64), (PAR_SHARD.STATE 5, 0), (CELL_SHARD.STATE 5, 2), (LEASE_SHARD.STATE 5, Lst.held), (SEP_SHARD.STATE 5, 2)] { State.reset with now := 10 ^ 13, ten := {  } }, 0, by decide +kernel⟩,
   ⟨regs [(TEN_STATUS.STATE, Tst.detect), (DDR_CFG.CAP_GIB, 16), (TEN_CTL.EN, 1), (TEN_CTL.LANE_EN, 255), (TEN_CTL.MIN_WIDTH, 0), (PAR_CTL.EN, 1), (PAR_CTL.FWD_RESERVE, 64), (PAR_SHARD.STATE 5, 0), (CELL_SHARD.STATE 5, 2), (LEASE_SHARD.STATE 5, Lst.held), (SEP_SHARD.STATE 5, 2)] { State.reset with now := 10 ^ 13, ten := {  } }, 255, by decide +kernel⟩,
   ⟨regs [(TEN_STATUS.STATE, Tst.detect), (DDR_CFG.CAP_GIB, 16), (TEN_CTL.EN, 1), (TEN_CTL.LANE_EN, 255), (TEN_CTL.MIN_WIDTH, 0), (PAR_CTL.EN, 1), (PAR_CTL.FWD_RESERVE, 64), (PAR_SHARD.STATE 5, 0), (CELL_SHARD.STATE 5, 2), (LEASE_SHARD.STATE 5, Lst.held), (SEP_SHARD.STATE 5, 2), (TEN_CTL.MIN_WIDTH, 3)] { State.reset with now := 10 ^ 13, ten := {  } }, 127, by decide +kernel⟩,
   ⟨regs [(TEN_STATUS.STATE, Tst.train), (DDR_CFG.CAP_GIB, 16), (TEN_CTL.EN, 1), (TEN_CTL.LANE_EN, 255), (TEN_CTL.MIN_WIDTH, 0), (PAR_CTL.EN, 1), (PAR_CTL.FWD_RESERVE, 64), (PAR_SHARD.STATE 5, 0), (CELL_SHARD.STATE 5, 2), (LEASE_SHARD.STATE 5, Lst.held), (SEP_SHARD.STATE 5, 2)] { State.reset with now := 10 ^ 13, ten := {  } }, 127, 15, false, by decide +kernel⟩⟩

theorem witness_TenonLinkStates_3 :
  (∃ (s : State), (s.tenSt = Tst.train) ∧ (s.due s.ten.limit = true)) ∧
  (∃ (s : State) (head : Fin 2) (time : Nat), (s.tenSt = Tst.exchange) ∧ (head.val ≠ (s.wr TEN_STATUS.PEER_HEAD head.val).headNo) ∧ (time < s.now ∨ (time = s.now ∧ (s.wr TEN_STATUS.PEER_HEAD head.val).headNo = 0))) ∧
  (∃ (s : State) (head : Fin 2) (time : Nat), (s.tenSt = Tst.exchange) ∧ (head.val ≠ (s.wr TEN_STATUS.PEER_HEAD head.val).headNo) ∧ (s.now < time ∨ (time = s.now ∧ (s.wr TEN_STATUS.PEER_HEAD head.val).headNo ≠ 0))) ∧
  (∃ (s : State) (version time : Nat) (head : Fin 2), (s.tenSt = Tst.exchange) ∧ (version ≠ 1)) :=
  ⟨⟨regs [(TEN_STATUS.STATE, Tst.train), (DDR_CFG.CAP_GIB, 16), (TEN_CTL.EN, 1), (TEN_CTL.LANE_EN, 255), (TEN_CTL.MIN_WIDTH, 0), (PAR_CTL.EN, 1), (PAR_CTL.FWD_RESERVE, 64), (PAR_SHARD.STATE 5, 0), (CELL_SHARD.STATE 5, 2), (LEASE_SHARD.STATE 5, Lst.held), (SEP_SHARD.STATE 5, 2)] { State.reset with now := 10 ^ 13, ten := { limit := some 0 } }, by decide +kernel⟩,
   ⟨regs [(TEN_STATUS.STATE, Tst.exchange), (DDR_CFG.CAP_GIB, 16), (TEN_CTL.EN, 1), (TEN_CTL.LANE_EN, 255), (TEN_CTL.MIN_WIDTH, 0), (PAR_CTL.EN, 1), (PAR_CTL.FWD_RESERVE, 64), (PAR_SHARD.STATE 5, 0), (CELL_SHARD.STATE 5, 2), (LEASE_SHARD.STATE 5, Lst.held), (SEP_SHARD.STATE 5, 2)] { State.reset with now := 10 ^ 13, ten := {  } }, 1, 5, by decide +kernel⟩,
   ⟨regs [(TEN_STATUS.STATE, Tst.exchange), (DDR_CFG.CAP_GIB, 16), (TEN_CTL.EN, 1), (TEN_CTL.LANE_EN, 255), (TEN_CTL.MIN_WIDTH, 0), (PAR_CTL.EN, 1), (PAR_CTL.FWD_RESERVE, 64), (PAR_SHARD.STATE 5, 0), (CELL_SHARD.STATE 5, 2), (LEASE_SHARD.STATE 5, Lst.held), (SEP_SHARD.STATE 5, 2)] { State.reset with now := 10 ^ 13, ten := {  } }, 1, 10 ^ 14, by decide +kernel⟩,
   ⟨regs [(TEN_STATUS.STATE, Tst.exchange), (DDR_CFG.CAP_GIB, 16), (TEN_CTL.EN, 1), (TEN_CTL.LANE_EN, 255), (TEN_CTL.MIN_WIDTH, 0), (PAR_CTL.EN, 1), (PAR_CTL.FWD_RESERVE, 64), (PAR_SHARD.STATE 5, 0), (CELL_SHARD.STATE 5, 2), (LEASE_SHARD.STATE 5, Lst.held), (SEP_SHARD.STATE 5, 2)] { State.reset with now := 10 ^ 13, ten := {  } }, 2, 5, 1, by decide +kernel⟩⟩

theorem witness_TenonLinkStates_4 :
  (∃ (s : State) (time : Nat) (head : Fin 2), (s.tenSt = Tst.exchange) ∧ (head.val = (s.wr TEN_STATUS.PEER_HEAD head.val).headNo)) ∧
  (∃ (s : State), (s.tenSt = Tst.active) ∧ (s.passed (s.ten.lastFlit + 16000) = true)) ∧
  (∃ (s : State) (good use : Nat) (reversed : Bool) (t : State), (s.tenSt = Tst.retrain) ∧ (s.lanesFit good use = true) ∧ (s.minWidth ≤ popCount use 8) ∧ (t = ((((s.setTst Tst.active none).setTen { (s.setTst Tst.active none).ten with limit := none, lastFlit := s.now }).lanesUsed use reversed)).linkChanged)) ∧
  (∃ (s : State) (good use : Nat) (reversed : Bool), (s.tenSt = Tst.retrain) ∧ (s.lanesFit good use = true) ∧ (popCount use 8 < s.minWidth)) :=
  ⟨⟨regs [(TEN_STATUS.STATE, Tst.exchange), (DDR_CFG.CAP_GIB, 16), (TEN_CTL.EN, 1), (TEN_CTL.LANE_EN, 255), (TEN_CTL.MIN_WIDTH, 0), (PAR_CTL.EN, 1), (PAR_CTL.FWD_RESERVE, 64), (PAR_SHARD.STATE 5, 0), (CELL_SHARD.STATE 5, 2), (LEASE_SHARD.STATE 5, Lst.held), (SEP_SHARD.STATE 5, 2)] { State.reset with now := 10 ^ 13, ten := {  } }, 5, 0, by decide +kernel⟩,
   ⟨regs [(TEN_STATUS.STATE, Tst.active), (DDR_CFG.CAP_GIB, 16), (TEN_CTL.EN, 1), (TEN_CTL.LANE_EN, 255), (TEN_CTL.MIN_WIDTH, 0), (PAR_CTL.EN, 1), (PAR_CTL.FWD_RESERVE, 64), (PAR_SHARD.STATE 5, 0), (CELL_SHARD.STATE 5, 2), (LEASE_SHARD.STATE 5, Lst.held), (SEP_SHARD.STATE 5, 2)] { State.reset with now := 10 ^ 13, ten := {  } }, by decide +kernel⟩,
   ⟨regs [(TEN_STATUS.STATE, Tst.retrain), (DDR_CFG.CAP_GIB, 16), (TEN_CTL.EN, 1), (TEN_CTL.LANE_EN, 255), (TEN_CTL.MIN_WIDTH, 0), (PAR_CTL.EN, 1), (PAR_CTL.FWD_RESERVE, 64), (PAR_SHARD.STATE 5, 0), (CELL_SHARD.STATE 5, 2), (LEASE_SHARD.STATE 5, Lst.held), (SEP_SHARD.STATE 5, 2)] { State.reset with now := 10 ^ 13, ten := {  } }, 255, 255, false, ((((regs [(TEN_STATUS.STATE, Tst.retrain), (DDR_CFG.CAP_GIB, 16), (TEN_CTL.EN, 1), (TEN_CTL.LANE_EN, 255), (TEN_CTL.MIN_WIDTH, 0), (PAR_CTL.EN, 1), (PAR_CTL.FWD_RESERVE, 64), (PAR_SHARD.STATE 5, 0), (CELL_SHARD.STATE 5, 2), (LEASE_SHARD.STATE 5, Lst.held), (SEP_SHARD.STATE 5, 2)] { State.reset with now := 10 ^ 13, ten := {  } }).setTst Tst.active none).setTen { lastFlit := 10 ^ 13 }).lanesUsed 255 false).linkChanged, ⟨by decide +kernel, by decide +kernel, by decide +kernel, by first | with_reducible rfl | decide +kernel⟩⟩,
   ⟨regs [(TEN_STATUS.STATE, Tst.retrain), (DDR_CFG.CAP_GIB, 16), (TEN_CTL.EN, 1), (TEN_CTL.LANE_EN, 255), (TEN_CTL.MIN_WIDTH, 0), (PAR_CTL.EN, 1), (PAR_CTL.FWD_RESERVE, 64), (PAR_SHARD.STATE 5, 0), (CELL_SHARD.STATE 5, 2), (LEASE_SHARD.STATE 5, Lst.held), (SEP_SHARD.STATE 5, 2), (TEN_CTL.MIN_WIDTH, 3)] { State.reset with now := 10 ^ 13, ten := {  } }, 127, 15, false, by decide +kernel⟩⟩

theorem witness_TenonLinkStates_5 :
  (∃ (s : State), (s.tenSt = Tst.retrain) ∧ (s.due s.ten.limit = true)) ∧
  (∃ (s : State), (s.tenSt = Tst.down) ∧ (s.on TEN_CTL.EN = true) ∧ (s.due s.ten.limit = true)) ∧
  (∃ (s : State) (lane : Fin 8), (s.tenSt = Tst.active) ∧ (s.bit TEN_STATUS.LANES lane = true)) ∧
  (∃ (s : State) (fseq ack : Fin 1024), (s.tenSt = Tst.active) ∧ (fseq.val = (s.ten.rxSeq + 1) % 1024)) :=
  ⟨⟨regs [(TEN_STATUS.STATE, Tst.retrain), (DDR_CFG.CAP_GIB, 16), (TEN_CTL.EN, 1), (TEN_CTL.LANE_EN, 255), (TEN_CTL.MIN_WIDTH, 0), (PAR_CTL.EN, 1), (PAR_CTL.FWD_RESERVE, 64), (PAR_SHARD.STATE 5, 0), (CELL_SHARD.STATE 5, 2), (LEASE_SHARD.STATE 5, Lst.held), (SEP_SHARD.STATE 5, 2)] { State.reset with now := 10 ^ 13, ten := { limit := some 0 } }, by decide +kernel⟩,
   ⟨regs [(TEN_STATUS.STATE, Tst.down), (DDR_CFG.CAP_GIB, 16), (TEN_CTL.EN, 1), (TEN_CTL.LANE_EN, 255), (TEN_CTL.MIN_WIDTH, 0), (PAR_CTL.EN, 1), (PAR_CTL.FWD_RESERVE, 64), (PAR_SHARD.STATE 5, 0), (CELL_SHARD.STATE 5, 2), (LEASE_SHARD.STATE 5, Lst.held), (SEP_SHARD.STATE 5, 2)] { State.reset with now := 10 ^ 13, ten := { limit := some 0 } }, by decide +kernel⟩,
   ⟨regs [(TEN_STATUS.STATE, Tst.active), (DDR_CFG.CAP_GIB, 16), (TEN_CTL.EN, 1), (TEN_CTL.LANE_EN, 255), (TEN_CTL.MIN_WIDTH, 0), (PAR_CTL.EN, 1), (PAR_CTL.FWD_RESERVE, 64), (PAR_SHARD.STATE 5, 0), (CELL_SHARD.STATE 5, 2), (LEASE_SHARD.STATE 5, Lst.held), (SEP_SHARD.STATE 5, 2), (TEN_STATUS.LANES, 255)] { State.reset with now := 10 ^ 13, ten := {  } }, 3, by decide +kernel⟩,
   ⟨regs [(TEN_STATUS.STATE, Tst.active), (DDR_CFG.CAP_GIB, 16), (TEN_CTL.EN, 1), (TEN_CTL.LANE_EN, 255), (TEN_CTL.MIN_WIDTH, 0), (PAR_CTL.EN, 1), (PAR_CTL.FWD_RESERVE, 64), (PAR_SHARD.STATE 5, 0), (CELL_SHARD.STATE 5, 2), (LEASE_SHARD.STATE 5, Lst.held), (SEP_SHARD.STATE 5, 2)] { State.reset with now := 10 ^ 13, ten := {  } }, 0, 7, by decide +kernel⟩⟩

theorem witness_TenonLinkStates_6 :
  (∃ (s : State) (fseq ack : Fin 1024) (nak : Bool), (s.tenSt = Tst.active) ∧ (s.ten.nakRun < 7)) ∧
  (∃ (s : State) (corrected nak : Bool) (fseq ack : Fin 1024) (t : State) (run : Nat), (s.tenSt = Tst.active) ∧ (fseq.val = (s.ten.rxSeq + 1) % 1024) ∧ (t = (if corrected then s.bump TEN_ERR.FEC_CORR 1 else s).setTen { s.ten with lastFlit := s.now, rxSeq := fseq.val, nakDue := false, nakRun := 0 }) ∧ (run = if nak then (if t.ten.ackd = ack.val then t.ten.inNakRun + 1 else 1) else 0) ∧ (run < 8)) ∧
  (∃ (s : State) (corrected nak : Bool) (fseq ack : Fin 1024) (t : State) (run : Nat), (s.tenSt = Tst.active) ∧ (fseq.val = (s.ten.rxSeq + 1) % 1024) ∧ (t = (if corrected then s.bump TEN_ERR.FEC_CORR 1 else s).setTen { s.ten with lastFlit := s.now, rxSeq := fseq.val, nakDue := false, nakRun := 0 }) ∧ (run = if nak then (if t.ten.ackd = ack.val then t.ten.inNakRun + 1 else 1) else 0) ∧ (8 ≤ run)) ∧
  (∃ (s : State) (corrected nak : Bool) (fseq ack : Fin 1024) (t : State) (run : Nat), (s.tenSt = Tst.active) ∧ (fseq.val ≠ (s.ten.rxSeq + 1) % 1024) ∧ (s.ten.nakDue = true) ∧ (t = (if corrected then s.bump TEN_ERR.FEC_CORR 1 else s).setTen { s.ten with lastFlit := s.now }) ∧ (run = if nak then (if t.ten.ackd = ack.val then t.ten.inNakRun + 1 else 1) else 0) ∧ (run < 8)) :=
  ⟨⟨regs [(TEN_STATUS.STATE, Tst.active), (DDR_CFG.CAP_GIB, 16), (TEN_CTL.EN, 1), (TEN_CTL.LANE_EN, 255), (TEN_CTL.MIN_WIDTH, 0), (PAR_CTL.EN, 1), (PAR_CTL.FWD_RESERVE, 64), (PAR_SHARD.STATE 5, 0), (CELL_SHARD.STATE 5, 2), (LEASE_SHARD.STATE 5, Lst.held), (SEP_SHARD.STATE 5, 2)] { State.reset with now := 10 ^ 13, ten := {  } }, 0, 7, false, by decide +kernel⟩,
   ⟨regs [(TEN_STATUS.STATE, Tst.active), (DDR_CFG.CAP_GIB, 16), (TEN_CTL.EN, 1), (TEN_CTL.LANE_EN, 255), (TEN_CTL.MIN_WIDTH, 0), (PAR_CTL.EN, 1), (PAR_CTL.FWD_RESERVE, 64), (PAR_SHARD.STATE 5, 0), (CELL_SHARD.STATE 5, 2), (LEASE_SHARD.STATE 5, Lst.held), (SEP_SHARD.STATE 5, 2)] { State.reset with now := 10 ^ 13, ten := {  } }, false, false, 0, 7, (regs [(TEN_STATUS.STATE, Tst.active), (DDR_CFG.CAP_GIB, 16), (TEN_CTL.EN, 1), (TEN_CTL.LANE_EN, 255), (TEN_CTL.MIN_WIDTH, 0), (PAR_CTL.EN, 1), (PAR_CTL.FWD_RESERVE, 64), (PAR_SHARD.STATE 5, 0), (CELL_SHARD.STATE 5, 2), (LEASE_SHARD.STATE 5, Lst.held), (SEP_SHARD.STATE 5, 2)] { State.reset with now := 10 ^ 13, ten := {  } }).setTen { (regs [(TEN_STATUS.STATE, Tst.active), (DDR_CFG.CAP_GIB, 16), (TEN_CTL.EN, 1), (TEN_CTL.LANE_EN, 255), (TEN_CTL.MIN_WIDTH, 0), (PAR_CTL.EN, 1), (PAR_CTL.FWD_RESERVE, 64), (PAR_SHARD.STATE 5, 0), (CELL_SHARD.STATE 5, 2), (LEASE_SHARD.STATE 5, Lst.held), (SEP_SHARD.STATE 5, 2)] { State.reset with now := 10 ^ 13, ten := {  } }).ten with lastFlit := 10 ^ 13, rxSeq := 0, nakDue := false, nakRun := 0 }, 0, ⟨by decide +kernel, by decide +kernel, by first | with_reducible rfl | decide +kernel, by decide +kernel, by decide +kernel⟩⟩,
   ⟨regs [(TEN_STATUS.STATE, Tst.active), (DDR_CFG.CAP_GIB, 16), (TEN_CTL.EN, 1), (TEN_CTL.LANE_EN, 255), (TEN_CTL.MIN_WIDTH, 0), (PAR_CTL.EN, 1), (PAR_CTL.FWD_RESERVE, 64), (PAR_SHARD.STATE 5, 0), (CELL_SHARD.STATE 5, 2), (LEASE_SHARD.STATE 5, Lst.held), (SEP_SHARD.STATE 5, 2)] { State.reset with now := 10 ^ 13, ten := { ackd := 7, inNakRun := 7 } }, false, true, 0, 7, (regs [(TEN_STATUS.STATE, Tst.active), (DDR_CFG.CAP_GIB, 16), (TEN_CTL.EN, 1), (TEN_CTL.LANE_EN, 255), (TEN_CTL.MIN_WIDTH, 0), (PAR_CTL.EN, 1), (PAR_CTL.FWD_RESERVE, 64), (PAR_SHARD.STATE 5, 0), (CELL_SHARD.STATE 5, 2), (LEASE_SHARD.STATE 5, Lst.held), (SEP_SHARD.STATE 5, 2)] { State.reset with now := 10 ^ 13, ten := { ackd := 7, inNakRun := 7 } }).setTen { (regs [(TEN_STATUS.STATE, Tst.active), (DDR_CFG.CAP_GIB, 16), (TEN_CTL.EN, 1), (TEN_CTL.LANE_EN, 255), (TEN_CTL.MIN_WIDTH, 0), (PAR_CTL.EN, 1), (PAR_CTL.FWD_RESERVE, 64), (PAR_SHARD.STATE 5, 0), (CELL_SHARD.STATE 5, 2), (LEASE_SHARD.STATE 5, Lst.held), (SEP_SHARD.STATE 5, 2)] { State.reset with now := 10 ^ 13, ten := { ackd := 7, inNakRun := 7 } }).ten with lastFlit := 10 ^ 13, rxSeq := 0, nakDue := false, nakRun := 0 }, 8, ⟨by decide +kernel, by decide +kernel, by first | with_reducible rfl | decide +kernel, by decide +kernel, by decide +kernel⟩⟩,
   ⟨regs [(TEN_STATUS.STATE, Tst.active), (DDR_CFG.CAP_GIB, 16), (TEN_CTL.EN, 1), (TEN_CTL.LANE_EN, 255), (TEN_CTL.MIN_WIDTH, 0), (PAR_CTL.EN, 1), (PAR_CTL.FWD_RESERVE, 64), (PAR_SHARD.STATE 5, 0), (CELL_SHARD.STATE 5, 2), (LEASE_SHARD.STATE 5, Lst.held), (SEP_SHARD.STATE 5, 2)] { State.reset with now := 10 ^ 13, ten := { nakDue := true } }, false, false, 5, 7, (regs [(TEN_STATUS.STATE, Tst.active), (DDR_CFG.CAP_GIB, 16), (TEN_CTL.EN, 1), (TEN_CTL.LANE_EN, 255), (TEN_CTL.MIN_WIDTH, 0), (PAR_CTL.EN, 1), (PAR_CTL.FWD_RESERVE, 64), (PAR_SHARD.STATE 5, 0), (CELL_SHARD.STATE 5, 2), (LEASE_SHARD.STATE 5, Lst.held), (SEP_SHARD.STATE 5, 2)] { State.reset with now := 10 ^ 13, ten := { nakDue := true } }).setTen { (regs [(TEN_STATUS.STATE, Tst.active), (DDR_CFG.CAP_GIB, 16), (TEN_CTL.EN, 1), (TEN_CTL.LANE_EN, 255), (TEN_CTL.MIN_WIDTH, 0), (PAR_CTL.EN, 1), (PAR_CTL.FWD_RESERVE, 64), (PAR_SHARD.STATE 5, 0), (CELL_SHARD.STATE 5, 2), (LEASE_SHARD.STATE 5, Lst.held), (SEP_SHARD.STATE 5, 2)] { State.reset with now := 10 ^ 13, ten := { nakDue := true } }).ten with lastFlit := 10 ^ 13 }, 0, ⟨by decide +kernel, by decide +kernel, by decide +kernel, by first | with_reducible rfl | decide +kernel, by decide +kernel, by decide +kernel⟩⟩⟩

theorem witness_TenonLinkStates_7 :
  (∃ (s : State) (corrected nak : Bool) (fseq ack : Fin 1024) (t : State) (run : Nat), (s.tenSt = Tst.active) ∧ (fseq.val ≠ (s.ten.rxSeq + 1) % 1024) ∧ (s.ten.nakDue = false) ∧ (t = ((if corrected then s.bump TEN_ERR.FEC_CORR 1 else s).setTen { s.ten with lastFlit := s.now }).nak) ∧ (run = if nak then (if t.ten.ackd = ack.val then t.ten.inNakRun + 1 else 1) else 0) ∧ (t.tenSt = Tst.active) ∧ (run < 8)) ∧
  (∃ (s : State) (corrected nak : Bool) (fseq ack : Fin 1024), (s.tenSt = Tst.active)) ∧
  (∃ (s : State) (fseq ack : Fin 1024) (nak : Bool), (s.tenSt = Tst.active) ∧ (s.ten.nakRun = 7)) :=
  ⟨⟨regs [(TEN_STATUS.STATE, Tst.active), (DDR_CFG.CAP_GIB, 16), (TEN_CTL.EN, 1), (TEN_CTL.LANE_EN, 255), (TEN_CTL.MIN_WIDTH, 0), (PAR_CTL.EN, 1), (PAR_CTL.FWD_RESERVE, 64), (PAR_SHARD.STATE 5, 0), (CELL_SHARD.STATE 5, 2), (LEASE_SHARD.STATE 5, Lst.held), (SEP_SHARD.STATE 5, 2)] { State.reset with now := 10 ^ 13, ten := {  } }, false, false, 5, 7, ((regs [(TEN_STATUS.STATE, Tst.active), (DDR_CFG.CAP_GIB, 16), (TEN_CTL.EN, 1), (TEN_CTL.LANE_EN, 255), (TEN_CTL.MIN_WIDTH, 0), (PAR_CTL.EN, 1), (PAR_CTL.FWD_RESERVE, 64), (PAR_SHARD.STATE 5, 0), (CELL_SHARD.STATE 5, 2), (LEASE_SHARD.STATE 5, Lst.held), (SEP_SHARD.STATE 5, 2)] { State.reset with now := 10 ^ 13, ten := {  } }).setTen { (regs [(TEN_STATUS.STATE, Tst.active), (DDR_CFG.CAP_GIB, 16), (TEN_CTL.EN, 1), (TEN_CTL.LANE_EN, 255), (TEN_CTL.MIN_WIDTH, 0), (PAR_CTL.EN, 1), (PAR_CTL.FWD_RESERVE, 64), (PAR_SHARD.STATE 5, 0), (CELL_SHARD.STATE 5, 2), (LEASE_SHARD.STATE 5, Lst.held), (SEP_SHARD.STATE 5, 2)] { State.reset with now := 10 ^ 13, ten := {  } }).ten with lastFlit := 10 ^ 13 }).nak, 0, ⟨by decide +kernel, by decide +kernel, by decide +kernel, by first | with_reducible rfl | decide +kernel, by decide +kernel, by decide +kernel, by decide +kernel⟩⟩,
   ⟨regs [(TEN_STATUS.STATE, Tst.active), (DDR_CFG.CAP_GIB, 16), (TEN_CTL.EN, 1), (TEN_CTL.LANE_EN, 255), (TEN_CTL.MIN_WIDTH, 0), (PAR_CTL.EN, 1), (PAR_CTL.FWD_RESERVE, 64), (PAR_SHARD.STATE 5, 0), (CELL_SHARD.STATE 5, 2), (LEASE_SHARD.STATE 5, Lst.held), (SEP_SHARD.STATE 5, 2)] { State.reset with now := 10 ^ 13, ten := {  } }, true, false, 0, 7, by decide +kernel⟩,
   ⟨regs [(TEN_STATUS.STATE, Tst.active), (DDR_CFG.CAP_GIB, 16), (TEN_CTL.EN, 1), (TEN_CTL.LANE_EN, 255), (TEN_CTL.MIN_WIDTH, 0), (PAR_CTL.EN, 1), (PAR_CTL.FWD_RESERVE, 64), (PAR_SHARD.STATE 5, 0), (CELL_SHARD.STATE 5, 2), (LEASE_SHARD.STATE 5, Lst.held), (SEP_SHARD.STATE 5, 2)] { State.reset with now := 10 ^ 13, ten := { nakRun := 7 } }, 0, 7, false, by decide +kernel⟩⟩

theorem witness_TenonTimeAndCredits :
  (∃ (s : State) (key n : Nat), (s.linkActive = true) ∧ (1 ≤ key) ∧ (key ≤ 8) ∧ (key ≠ 7)) ∧
  (∃ (s : State) (n : Nat) (d : DescRef) (f : Fetched) (t : State), (s.linkActive = true) ∧ (s.ten.mailOut = [d]) ∧ (s.fetchedAt .ten d = some f) ∧ (16 + alignUp f.len 16 ≤ n) ∧ (t = (s.setTen { s.ten with mailOut := [], credits := Tab.set s.ten.credits 7 (s.credit 7 + n) }).finish .ten d St.success)) ∧
  (∃ (s : State), (s.linkActive = true) ∧ (s.on TEN_TIME_STATUS.MASTER = false) ∧ (s.due s.ten.timeAt = true)) ∧
  (∃ (s : State) (t1 : Nat), (s.linkActive = true) ∧ (s.on TEN_TIME_STATUS.MASTER = true)) :=
  ⟨⟨regs [(TEN_STATUS.STATE, Tst.active), (DDR_CFG.CAP_GIB, 16), (TEN_CTL.EN, 1), (TEN_CTL.LANE_EN, 255), (TEN_CTL.MIN_WIDTH, 0), (PAR_CTL.EN, 1), (PAR_CTL.FWD_RESERVE, 64), (PAR_SHARD.STATE 5, 0), (CELL_SHARD.STATE 5, 2), (LEASE_SHARD.STATE 5, Lst.held), (SEP_SHARD.STATE 5, 2)] { State.reset with now := 10 ^ 13, ten := {  } }, 4, 9, by decide +kernel⟩,
   ⟨holds .ten [desc 0 Op.mailSend [(8, 8, 8192), (24, 4, 16), (28, 4, 77)] .started] (regs [(TEN_STATUS.STATE, Tst.active), (DDR_CFG.CAP_GIB, 16), (TEN_CTL.EN, 1), (TEN_CTL.LANE_EN, 255), (TEN_CTL.MIN_WIDTH, 0), (PAR_CTL.EN, 1), (PAR_CTL.FWD_RESERVE, 64), (PAR_SHARD.STATE 5, 0), (CELL_SHARD.STATE 5, 2), (LEASE_SHARD.STATE 5, Lst.held), (SEP_SHARD.STATE 5, 2)] { State.reset with now := 10 ^ 13, ten := { mailOut := [⟨0, 0⟩] } }), 32, ⟨0, 0⟩, desc 0 Op.mailSend [(8, 8, 8192), (24, 4, 16), (28, 4, 77)] .started, ((holds .ten [desc 0 Op.mailSend [(8, 8, 8192), (24, 4, 16), (28, 4, 77)] .started] (regs [(TEN_STATUS.STATE, Tst.active), (DDR_CFG.CAP_GIB, 16), (TEN_CTL.EN, 1), (TEN_CTL.LANE_EN, 255), (TEN_CTL.MIN_WIDTH, 0), (PAR_CTL.EN, 1), (PAR_CTL.FWD_RESERVE, 64), (PAR_SHARD.STATE 5, 0), (CELL_SHARD.STATE 5, 2), (LEASE_SHARD.STATE 5, Lst.held), (SEP_SHARD.STATE 5, 2)] { State.reset with now := 10 ^ 13, ten := { mailOut := [⟨0, 0⟩] } })).setTen { mailOut := [], credits := Tab.set [] 7 ((holds .ten [desc 0 Op.mailSend [(8, 8, 8192), (24, 4, 16), (28, 4, 77)] .started] (regs [(TEN_STATUS.STATE, Tst.active), (DDR_CFG.CAP_GIB, 16), (TEN_CTL.EN, 1), (TEN_CTL.LANE_EN, 255), (TEN_CTL.MIN_WIDTH, 0), (PAR_CTL.EN, 1), (PAR_CTL.FWD_RESERVE, 64), (PAR_SHARD.STATE 5, 0), (CELL_SHARD.STATE 5, 2), (LEASE_SHARD.STATE 5, Lst.held), (SEP_SHARD.STATE 5, 2)] { State.reset with now := 10 ^ 13, ten := { mailOut := [⟨0, 0⟩] } })).credit 7 + 32) }).finish .ten ⟨0, 0⟩ St.success, ⟨by decide +kernel, by decide +kernel, by decide +kernel, by decide +kernel, by first | with_reducible rfl | decide +kernel⟩⟩,
   ⟨regs [(TEN_STATUS.STATE, Tst.active), (DDR_CFG.CAP_GIB, 16), (TEN_CTL.EN, 1), (TEN_CTL.LANE_EN, 255), (TEN_CTL.MIN_WIDTH, 0), (PAR_CTL.EN, 1), (PAR_CTL.FWD_RESERVE, 64), (PAR_SHARD.STATE 5, 0), (CELL_SHARD.STATE 5, 2), (LEASE_SHARD.STATE 5, Lst.held), (SEP_SHARD.STATE 5, 2)] { State.reset with now := 10 ^ 13, ten := { timeAt := some 0 } }, by decide +kernel⟩,
   ⟨regs [(TEN_STATUS.STATE, Tst.active), (DDR_CFG.CAP_GIB, 16), (TEN_CTL.EN, 1), (TEN_CTL.LANE_EN, 255), (TEN_CTL.MIN_WIDTH, 0), (PAR_CTL.EN, 1), (PAR_CTL.FWD_RESERVE, 64), (PAR_SHARD.STATE 5, 0), (CELL_SHARD.STATE 5, 2), (LEASE_SHARD.STATE 5, Lst.held), (SEP_SHARD.STATE 5, 2), (TEN_TIME_STATUS.MASTER, 1)] { State.reset with now := 10 ^ 13, ten := {  } }, 9, by decide +kernel⟩⟩

theorem witness_TenonTimeAndCredits_2 :
  (∃ (s : State) (t1 t2 t3 : Nat), (s.linkActive = true) ∧ (s.on TEN_TIME_STATUS.MASTER = false) ∧ (s.ten.t1 = some t1)) ∧
  (∃ (s : State) (t1 t2 t3 : Nat) (h off : Int) (u v : State), (s.linkActive = true) ∧ (s.on TEN_TIME_STATUS.MASTER = false) ∧ (s.ten.t1 = some t1) ∧ ((h, u) = (s.received 2 1).half (((s.now : Int) - t3) - ((t2 : Int) - t1))) ∧ (off = h + toSigned (u.rd TEN_TIME_CFG.ASYM) 16) ∧ (v = ((u.wr TEN_TIME_STATUS.OFFSET (ofSigned off 32)).wr TEN_TIME_STATUS.RATE (u.wr TEN_TIME_STATUS.OFFSET (ofSigned off 32)).freeWord).draw) ∧ (¬ (u.heldShards = [] ∧ off ≤ -((u.rd TEN_TIME_CFG.STEP_MIN * mgmtTick : Nat) : Int))) ∧ (-32 ≤ off ∧ off ≤ 32)) ∧
  (∃ (s : State) (t1 t2 t3 : Nat) (h off : Int) (u v : State), (s.linkActive = true) ∧ (s.on TEN_TIME_STATUS.MASTER = false) ∧ (s.ten.t1 = some t1) ∧ ((h, u) = (s.received 2 1).half (((s.now : Int) - t3) - ((t2 : Int) - t1))) ∧ (off = h + toSigned (u.rd TEN_TIME_CFG.ASYM) 16) ∧ (v = ((u.wr TEN_TIME_STATUS.OFFSET (ofSigned off 32)).wr TEN_TIME_STATUS.RATE (u.wr TEN_TIME_STATUS.OFFSET (ofSigned off 32)).freeWord).draw) ∧ (¬ (u.heldShards = [] ∧ off ≤ -((u.rd TEN_TIME_CFG.STEP_MIN * mgmtTick : Nat) : Int))) ∧ (off < -32 ∨ 32 < off)) ∧
  (∃ (s : State) (t1 t2 t3 : Nat) (h off : Int) (u v : State), (s.linkActive = true) ∧ (s.on TEN_TIME_STATUS.MASTER = false) ∧ (s.ten.t1 = some t1) ∧ ((h, u) = (s.received 2 1).half (((s.now : Int) - t3) - ((t2 : Int) - t1))) ∧ (off = h + toSigned (u.rd TEN_TIME_CFG.ASYM) 16) ∧ (v = { (((u.wr TEN_TIME_STATUS.OFFSET (ofSigned off 32)).wr TEN_TIME_STATUS.RATE (u.wr TEN_TIME_STATUS.OFFSET (ofSigned off 32)).freeWord).draw : State) with now := (u.now + (-off).toNat) % 2 ^ 64 }) ∧ ((u.heldShards = [] ∧ off ≤ -((u.rd TEN_TIME_CFG.STEP_MIN * mgmtTick : Nat) : Int))) ∧ (off < -32)) :=
  ⟨⟨regs [(TEN_STATUS.STATE, Tst.active), (DDR_CFG.CAP_GIB, 16), (TEN_CTL.EN, 1), (TEN_CTL.LANE_EN, 255), (TEN_CTL.MIN_WIDTH, 0), (PAR_CTL.EN, 1), (PAR_CTL.FWD_RESERVE, 64), (PAR_SHARD.STATE 5, 0), (CELL_SHARD.STATE 5, 2), (LEASE_SHARD.STATE 5, Lst.held), (SEP_SHARD.STATE 5, 2)] { State.reset with now := 10 ^ 13, ten := { t1 := some 9 } }, 9, 20, 30, by decide +kernel⟩,
   ⟨regs [(TEN_STATUS.STATE, Tst.active), (DDR_CFG.CAP_GIB, 16), (TEN_CTL.EN, 1), (TEN_CTL.LANE_EN, 255), (TEN_CTL.MIN_WIDTH, 0), (PAR_CTL.EN, 1), (PAR_CTL.FWD_RESERVE, 64), (PAR_SHARD.STATE 5, 0), (CELL_SHARD.STATE 5, 2), (LEASE_SHARD.STATE 5, Lst.held), (SEP_SHARD.STATE 5, 2)] { State.reset with now := 10 ^ 13, ten := { t1 := some 9 } }, 9, 1009, (10 ^ 13 - 1000), 0, 0, (regs [(TEN_STATUS.STATE, Tst.active), (DDR_CFG.CAP_GIB, 16), (TEN_CTL.EN, 1), (TEN_CTL.LANE_EN, 255), (TEN_CTL.MIN_WIDTH, 0), (PAR_CTL.EN, 1), (PAR_CTL.FWD_RESERVE, 64), (PAR_SHARD.STATE 5, 0), (CELL_SHARD.STATE 5, 2), (LEASE_SHARD.STATE 5, Lst.held), (SEP_SHARD.STATE 5, 2)] { State.reset with now := 10 ^ 13, ten := { t1 := some 9 } }).received 2 1, ((((regs [(TEN_STATUS.STATE, Tst.active), (DDR_CFG.CAP_GIB, 16), (TEN_CTL.EN, 1), (TEN_CTL.LANE_EN, 255), (TEN_CTL.MIN_WIDTH, 0), (PAR_CTL.EN, 1), (PAR_CTL.FWD_RESERVE, 64), (PAR_SHARD.STATE 5, 0), (CELL_SHARD.STATE 5, 2), (LEASE_SHARD.STATE 5, Lst.held), (SEP_SHARD.STATE 5, 2)] { State.reset with now := 10 ^ 13, ten := { t1 := some 9 } }).received 2 1).wr TEN_TIME_STATUS.OFFSET (ofSigned (0) 32)).wr TEN_TIME_STATUS.RATE ((((regs [(TEN_STATUS.STATE, Tst.active), (DDR_CFG.CAP_GIB, 16), (TEN_CTL.EN, 1), (TEN_CTL.LANE_EN, 255), (TEN_CTL.MIN_WIDTH, 0), (PAR_CTL.EN, 1), (PAR_CTL.FWD_RESERVE, 64), (PAR_SHARD.STATE 5, 0), (CELL_SHARD.STATE 5, 2), (LEASE_SHARD.STATE 5, Lst.held), (SEP_SHARD.STATE 5, 2)] { State.reset with now := 10 ^ 13, ten := { t1 := some 9 } }).received 2 1).wr TEN_TIME_STATUS.OFFSET (ofSigned (0) 32)).freeWord)).draw, ⟨by decide +kernel, by decide +kernel, by decide +kernel, by decide +kernel, by decide +kernel, by rfl, by decide +kernel, by decide +kernel⟩⟩,
   ⟨regs [(TEN_STATUS.STATE, Tst.active), (DDR_CFG.CAP_GIB, 16), (TEN_CTL.EN, 1), (TEN_CTL.LANE_EN, 255), (TEN_CTL.MIN_WIDTH, 0), (PAR_CTL.EN, 1), (PAR_CTL.FWD_RESERVE, 64), (PAR_SHARD.STATE 5, 0), (CELL_SHARD.STATE 5, 2), (LEASE_SHARD.STATE 5, Lst.held), (SEP_SHARD.STATE 5, 2)] { State.reset with now := 10 ^ 13, ten := { t1 := some 9 } }, 9, 1009, (10 ^ 13 - 1200), 100, 100, (regs [(TEN_STATUS.STATE, Tst.active), (DDR_CFG.CAP_GIB, 16), (TEN_CTL.EN, 1), (TEN_CTL.LANE_EN, 255), (TEN_CTL.MIN_WIDTH, 0), (PAR_CTL.EN, 1), (PAR_CTL.FWD_RESERVE, 64), (PAR_SHARD.STATE 5, 0), (CELL_SHARD.STATE 5, 2), (LEASE_SHARD.STATE 5, Lst.held), (SEP_SHARD.STATE 5, 2)] { State.reset with now := 10 ^ 13, ten := { t1 := some 9 } }).received 2 1, ((((regs [(TEN_STATUS.STATE, Tst.active), (DDR_CFG.CAP_GIB, 16), (TEN_CTL.EN, 1), (TEN_CTL.LANE_EN, 255), (TEN_CTL.MIN_WIDTH, 0), (PAR_CTL.EN, 1), (PAR_CTL.FWD_RESERVE, 64), (PAR_SHARD.STATE 5, 0), (CELL_SHARD.STATE 5, 2), (LEASE_SHARD.STATE 5, Lst.held), (SEP_SHARD.STATE 5, 2)] { State.reset with now := 10 ^ 13, ten := { t1 := some 9 } }).received 2 1).wr TEN_TIME_STATUS.OFFSET (ofSigned (100) 32)).wr TEN_TIME_STATUS.RATE ((((regs [(TEN_STATUS.STATE, Tst.active), (DDR_CFG.CAP_GIB, 16), (TEN_CTL.EN, 1), (TEN_CTL.LANE_EN, 255), (TEN_CTL.MIN_WIDTH, 0), (PAR_CTL.EN, 1), (PAR_CTL.FWD_RESERVE, 64), (PAR_SHARD.STATE 5, 0), (CELL_SHARD.STATE 5, 2), (LEASE_SHARD.STATE 5, Lst.held), (SEP_SHARD.STATE 5, 2)] { State.reset with now := 10 ^ 13, ten := { t1 := some 9 } }).received 2 1).wr TEN_TIME_STATUS.OFFSET (ofSigned (100) 32)).freeWord)).draw, ⟨by decide +kernel, by decide +kernel, by decide +kernel, by decide +kernel, by decide +kernel, by rfl, by decide +kernel, by decide +kernel⟩⟩,
   ⟨regs [(TEN_STATUS.STATE, Tst.active), (DDR_CFG.CAP_GIB, 16), (TEN_CTL.EN, 1), (TEN_CTL.LANE_EN, 255), (TEN_CTL.MIN_WIDTH, 0), (PAR_CTL.EN, 1), (PAR_CTL.FWD_RESERVE, 64), (PAR_SHARD.STATE 5, 0), (CELL_SHARD.STATE 5, 2), (LEASE_SHARD.STATE 5, Lst.held), (SEP_SHARD.STATE 5, 2), (LEASE_SHARD.STATE 5, 0), (TEN_TIME_CFG.STEP_MIN, 1)] { State.reset with now := 10 ^ 13, ten := { t1 := some 9 } }, 9, 4000009, (10 ^ 13), (-2000000), (-2000000), (regs [(TEN_STATUS.STATE, Tst.active), (DDR_CFG.CAP_GIB, 16), (TEN_CTL.EN, 1), (TEN_CTL.LANE_EN, 255), (TEN_CTL.MIN_WIDTH, 0), (PAR_CTL.EN, 1), (PAR_CTL.FWD_RESERVE, 64), (PAR_SHARD.STATE 5, 0), (CELL_SHARD.STATE 5, 2), (LEASE_SHARD.STATE 5, Lst.held), (SEP_SHARD.STATE 5, 2), (LEASE_SHARD.STATE 5, 0), (TEN_TIME_CFG.STEP_MIN, 1)] { State.reset with now := 10 ^ 13, ten := { t1 := some 9 } }).received 2 1, { ((((regs [(TEN_STATUS.STATE, Tst.active), (DDR_CFG.CAP_GIB, 16), (TEN_CTL.EN, 1), (TEN_CTL.LANE_EN, 255), (TEN_CTL.MIN_WIDTH, 0), (PAR_CTL.EN, 1), (PAR_CTL.FWD_RESERVE, 64), (PAR_SHARD.STATE 5, 0), (CELL_SHARD.STATE 5, 2), (LEASE_SHARD.STATE 5, Lst.held), (SEP_SHARD.STATE 5, 2), (LEASE_SHARD.STATE 5, 0), (TEN_TIME_CFG.STEP_MIN, 1)] { State.reset with now := 10 ^ 13, ten := { t1 := some 9 } }).received 2 1).wr TEN_TIME_STATUS.OFFSET (ofSigned (-2000000) 32)).wr TEN_TIME_STATUS.RATE ((((regs [(TEN_STATUS.STATE, Tst.active), (DDR_CFG.CAP_GIB, 16), (TEN_CTL.EN, 1), (TEN_CTL.LANE_EN, 255), (TEN_CTL.MIN_WIDTH, 0), (PAR_CTL.EN, 1), (PAR_CTL.FWD_RESERVE, 64), (PAR_SHARD.STATE 5, 0), (CELL_SHARD.STATE 5, 2), (LEASE_SHARD.STATE 5, Lst.held), (SEP_SHARD.STATE 5, 2), (LEASE_SHARD.STATE 5, 0), (TEN_TIME_CFG.STEP_MIN, 1)] { State.reset with now := 10 ^ 13, ten := { t1 := some 9 } }).received 2 1).wr TEN_TIME_STATUS.OFFSET (ofSigned (-2000000) 32)).freeWord)).draw with now := 10 ^ 13 + 2000000 }, ⟨by decide +kernel, by decide +kernel, by decide +kernel, by decide +kernel, by decide +kernel, by rfl, by decide +kernel, by decide +kernel⟩⟩⟩

theorem witness_TenonTimeAndCredits_3 :
  (∃ (s : State) (t1 t2 t3 : Nat), (s.ten.t1 ≠ some t1)) ∧
  (∃ (s : State), (s.on TEN_TIME_STATUS.MASTER = false) ∧ (s.ten.slewLeft < 0) ∧ (s.passed (s.ten.slewAt + 4096) = true)) ∧
  (∃ (s : State), (s.on TEN_TIME_STATUS.MASTER = false) ∧ (0 < s.ten.slewLeft) ∧ (s.passed (s.ten.slewAt + 4096) = true)) ∧
  (∃ (s : State) (at_ : Nat), (s.ten.synced = some at_) ∧ (s.passed (at_ + 16 * mgmtTick) = true)) :=
  ⟨⟨regs [(TEN_STATUS.STATE, Tst.active), (DDR_CFG.CAP_GIB, 16), (TEN_CTL.EN, 1), (TEN_CTL.LANE_EN, 255), (TEN_CTL.MIN_WIDTH, 0), (PAR_CTL.EN, 1), (PAR_CTL.FWD_RESERVE, 64), (PAR_SHARD.STATE 5, 0), (CELL_SHARD.STATE 5, 2), (LEASE_SHARD.STATE 5, Lst.held), (SEP_SHARD.STATE 5, 2)] { State.reset with now := 10 ^ 13, ten := { t1 := some 9 } }, 8, 20, 30, by decide +kernel⟩,
   ⟨regs [(TEN_STATUS.STATE, Tst.active), (DDR_CFG.CAP_GIB, 16), (TEN_CTL.EN, 1), (TEN_CTL.LANE_EN, 255), (TEN_CTL.MIN_WIDTH, 0), (PAR_CTL.EN, 1), (PAR_CTL.FWD_RESERVE, 64), (PAR_SHARD.STATE 5, 0), (CELL_SHARD.STATE 5, 2), (LEASE_SHARD.STATE 5, Lst.held), (SEP_SHARD.STATE 5, 2)] { State.reset with now := 10 ^ 13, ten := { slewLeft := -3 } }, by decide +kernel⟩,
   ⟨regs [(TEN_STATUS.STATE, Tst.active), (DDR_CFG.CAP_GIB, 16), (TEN_CTL.EN, 1), (TEN_CTL.LANE_EN, 255), (TEN_CTL.MIN_WIDTH, 0), (PAR_CTL.EN, 1), (PAR_CTL.FWD_RESERVE, 64), (PAR_SHARD.STATE 5, 0), (CELL_SHARD.STATE 5, 2), (LEASE_SHARD.STATE 5, Lst.held), (SEP_SHARD.STATE 5, 2)] { State.reset with now := 10 ^ 13, ten := { slewLeft := 3 } }, by decide +kernel⟩,
   ⟨regs [(TEN_STATUS.STATE, Tst.active), (DDR_CFG.CAP_GIB, 16), (TEN_CTL.EN, 1), (TEN_CTL.LANE_EN, 255), (TEN_CTL.MIN_WIDTH, 0), (PAR_CTL.EN, 1), (PAR_CTL.FWD_RESERVE, 64), (PAR_SHARD.STATE 5, 0), (CELL_SHARD.STATE 5, 2), (LEASE_SHARD.STATE 5, Lst.held), (SEP_SHARD.STATE 5, 2)] { State.reset with now := 10 ^ 13, ten := { synced := some 0 } }, 0, by decide +kernel⟩⟩

theorem witness_TenonForwardingMaintenanceMail :
  (∃ (s : State) (tag k tenant : Nat) (cls : Fin 4) (shard : Fin 256) (capsule data : List (BitVec 8)) (c : NvmeCmd), (s.linkActive = true) ∧ (s.on PAR_CTL.EN = true) ∧ (s.peerRoom = true) ∧ ((s.par.cmds.any fun e => e.2.origin == some tag) = false) ∧ (s.freeContext = some k) ∧ (c = { sqe := capsule.take 64, incap := capsule.drop 64, ctx := none, cntlid := unboundCntlid, qid := 0, cls := cls.val, tenant := tenant, vol := 0, stage := .eligible, since := s.now, eligibleAt := s.now, buf := data, origin := some tag, only := some shard.val })) ∧
  (∃ (s : State) (tag status dw0 dw1 k : Nat) (data : List (BitVec 8)) (c : NvmeCmd) (f : FwdPart) (t : State), (s.linkActive = true) ∧ (t = s.received 3 (32 + alignUp data.length 16)) ∧ (t.forwarded tag = some (k, c, f)) ∧ (f.st = 1)) ∧
  (∃ (s : State) (tag status dw0 dw1 k : Nat) (data : List (BitVec 8)) (c : NvmeCmd) (f : FwdPart) (t : State), (s.linkActive = true) ∧ (t = s.received 3 (32 + alignUp data.length 16)) ∧ (t.forwarded tag = some (k, c, f)) ∧ (f.st = 3)) ∧
  (∃ (s : State) (tag status dw0 dw1 k : Nat) (data : List (BitVec 8)) (c c2 : NvmeCmd) (f : FwdPart) (t : State), (s.linkActive = true) ∧ (t = s.received 3 16) ∧ (t.forwarded tag = some (k, c, f)) ∧ (f.st = 3) ∧ (c2 = { (c.partBack { f with st := 2 } Nv.sqDeletion 0 0 []) with past := (c.partBack { f with st := 2 } Nv.sqDeletion 0 0 []).past || status != Nv.sqDeletion })) :=
  ⟨⟨regs [(TEN_STATUS.STATE, Tst.active), (DDR_CFG.CAP_GIB, 16), (TEN_CTL.EN, 1), (TEN_CTL.LANE_EN, 255), (TEN_CTL.MIN_WIDTH, 0), (PAR_CTL.EN, 1), (PAR_CTL.FWD_RESERVE, 64), (PAR_SHARD.STATE 5, 0), (CELL_SHARD.STATE 5, 2), (LEASE_SHARD.STATE 5, Lst.held), (SEP_SHARD.STATE 5, 2)] { State.reset with now := 10 ^ 13, ten := {  } }, 9, 0, 1, 2, 5, zeros 64, [], { sqe := zeros 64, incap := [], ctx := none, cntlid := unboundCntlid, qid := 0, cls := 2, tenant := 1, vol := 0, stage := .eligible, since := 10 ^ 13, eligibleAt := 10 ^ 13, buf := [], origin := some 9, only := some 5 }, by decide +kernel⟩,
   ⟨regs [(TEN_STATUS.STATE, Tst.active), (DDR_CFG.CAP_GIB, 16), (TEN_CTL.EN, 1), (TEN_CTL.LANE_EN, 255), (TEN_CTL.MIN_WIDTH, 0), (PAR_CTL.EN, 1), (PAR_CTL.FWD_RESERVE, 64), (PAR_SHARD.STATE 5, 0), (CELL_SHARD.STATE 5, 2), (LEASE_SHARD.STATE 5, Lst.held), (SEP_SHARD.STATE 5, 2)] { State.reset with now := 10 ^ 13, ten := {  }, par := { cmds := [(0, { sqe := image 64 [(0, 1, 2)], ctx := some 3, cntlid := 1, qid := 1, cls := 0, tenant := 0, vol := 0, stage := .running, since := 0, begun := true, fwds := [⟨5, 9, 1⟩] })] } }, 9, 0, 0, 0, 0, [], { sqe := image 64 [(0, 1, 2)], ctx := some 3, cntlid := 1, qid := 1, cls := 0, tenant := 0, vol := 0, stage := .running, since := 0, begun := true, fwds := [⟨5, 9, 1⟩] }, ⟨5, 9, 1⟩, (regs [(TEN_STATUS.STATE, Tst.active), (DDR_CFG.CAP_GIB, 16), (TEN_CTL.EN, 1), (TEN_CTL.LANE_EN, 255), (TEN_CTL.MIN_WIDTH, 0), (PAR_CTL.EN, 1), (PAR_CTL.FWD_RESERVE, 64), (PAR_SHARD.STATE 5, 0), (CELL_SHARD.STATE 5, 2), (LEASE_SHARD.STATE 5, Lst.held), (SEP_SHARD.STATE 5, 2)] { State.reset with now := 10 ^ 13, ten := {  }, par := { cmds := [(0, { sqe := image 64 [(0, 1, 2)], ctx := some 3, cntlid := 1, qid := 1, cls := 0, tenant := 0, vol := 0, stage := .running, since := 0, begun := true, fwds := [⟨5, 9, 1⟩] })] } }).received 3 32, ⟨by decide +kernel, by first | with_reducible rfl | decide +kernel, by decide +kernel, by decide +kernel⟩⟩,
   ⟨regs [(TEN_STATUS.STATE, Tst.active), (DDR_CFG.CAP_GIB, 16), (TEN_CTL.EN, 1), (TEN_CTL.LANE_EN, 255), (TEN_CTL.MIN_WIDTH, 0), (PAR_CTL.EN, 1), (PAR_CTL.FWD_RESERVE, 64), (PAR_SHARD.STATE 5, 0), (CELL_SHARD.STATE 5, 2), (LEASE_SHARD.STATE 5, Lst.held), (SEP_SHARD.STATE 5, 2)] { State.reset with now := 10 ^ 13, ten := {  }, par := { cmds := [(0, { sqe := image 64 [(0, 1, 2)], ctx := some 3, cntlid := 1, qid := 1, cls := 0, tenant := 0, vol := 0, stage := .running, since := 0, begun := true, fwds := [⟨5, 9, 3⟩] })] } }, 9, 0, 0, 0, 0, [], { sqe := image 64 [(0, 1, 2)], ctx := some 3, cntlid := 1, qid := 1, cls := 0, tenant := 0, vol := 0, stage := .running, since := 0, begun := true, fwds := [⟨5, 9, 3⟩] }, ⟨5, 9, 3⟩, (regs [(TEN_STATUS.STATE, Tst.active), (DDR_CFG.CAP_GIB, 16), (TEN_CTL.EN, 1), (TEN_CTL.LANE_EN, 255), (TEN_CTL.MIN_WIDTH, 0), (PAR_CTL.EN, 1), (PAR_CTL.FWD_RESERVE, 64), (PAR_SHARD.STATE 5, 0), (CELL_SHARD.STATE 5, 2), (LEASE_SHARD.STATE 5, Lst.held), (SEP_SHARD.STATE 5, 2)] { State.reset with now := 10 ^ 13, ten := {  }, par := { cmds := [(0, { sqe := image 64 [(0, 1, 2)], ctx := some 3, cntlid := 1, qid := 1, cls := 0, tenant := 0, vol := 0, stage := .running, since := 0, begun := true, fwds := [⟨5, 9, 3⟩] })] } }).received 3 32, ⟨by decide +kernel, by first | with_reducible rfl | decide +kernel, by decide +kernel, by decide +kernel⟩⟩,
   ⟨regs [(TEN_STATUS.STATE, Tst.active), (DDR_CFG.CAP_GIB, 16), (TEN_CTL.EN, 1), (TEN_CTL.LANE_EN, 255), (TEN_CTL.MIN_WIDTH, 0), (PAR_CTL.EN, 1), (PAR_CTL.FWD_RESERVE, 64), (PAR_SHARD.STATE 5, 0), (CELL_SHARD.STATE 5, 2), (LEASE_SHARD.STATE 5, Lst.held), (SEP_SHARD.STATE 5, 2)] { State.reset with now := 10 ^ 13, ten := {  }, par := { cmds := [(0, { sqe := image 64 [(0, 1, 2)], ctx := some 3, cntlid := 1, qid := 1, cls := 0, tenant := 0, vol := 0, stage := .running, since := 0, begun := true, fwds := [⟨5, 9, 3⟩] })] } }, 9, 8, 0, 0, 0, [], { sqe := image 64 [(0, 1, 2)], ctx := some 3, cntlid := 1, qid := 1, cls := 0, tenant := 0, vol := 0, stage := .running, since := 0, begun := true, fwds := [⟨5, 9, 3⟩] }, { ((({ sqe := image 64 [(0, 1, 2)], ctx := some 3, cntlid := 1, qid := 1, cls := 0, tenant := 0, vol := 0, stage := .running, since := 0, begun := true, fwds := [⟨5, 9, 3⟩] } : NvmeCmd).partBack { (⟨5, 9, 3⟩ : FwdPart) with st := 2 } Nv.sqDeletion 0 0 []) : NvmeCmd) with past := (({ sqe := image 64 [(0, 1, 2)], ctx := some 3, cntlid := 1, qid := 1, cls := 0, tenant := 0, vol := 0, stage := .running, since := 0, begun := true, fwds := [⟨5, 9, 3⟩] } : NvmeCmd).partBack { (⟨5, 9, 3⟩ : FwdPart) with st := 2 } Nv.sqDeletion 0 0 []).past || 8 != Nv.sqDeletion }, ⟨5, 9, 3⟩, (regs [(TEN_STATUS.STATE, Tst.active), (DDR_CFG.CAP_GIB, 16), (TEN_CTL.EN, 1), (TEN_CTL.LANE_EN, 255), (TEN_CTL.MIN_WIDTH, 0), (PAR_CTL.EN, 1), (PAR_CTL.FWD_RESERVE, 64), (PAR_SHARD.STATE 5, 0), (CELL_SHARD.STATE 5, 2), (LEASE_SHARD.STATE 5, Lst.held), (SEP_SHARD.STATE 5, 2)] { State.reset with now := 10 ^ 13, ten := {  }, par := { cmds := [(0, { sqe := image 64 [(0, 1, 2)], ctx := some 3, cntlid := 1, qid := 1, cls := 0, tenant := 0, vol := 0, stage := .running, since := 0, begun := true, fwds := [⟨5, 9, 3⟩] })] } }).received 3 16, ⟨by decide +kernel, by first | with_reducible rfl | decide +kernel, by decide +kernel, by decide +kernel, by decide +kernel⟩⟩⟩

theorem witness_TenonForwardingMaintenanceMail_2 :
  (∃ (s : State) (tag status dw0 dw1 : Nat) (data : List (BitVec 8)) (confirm : Bool) (t : State), (s.linkActive = true) ∧ (t = s.received 3 (if confirm then 16 else 32 + alignUp data.length 16)) ∧ (t.forwarded tag = none)) ∧
  (∃ (s : State) (tag : Nat), (s.linkActive = true) ∧ ((s.par.cmds.any fun e => e.2.origin == some tag) = false)) ∧
  (∃ (s : State) (tag k : Nat) (c : NvmeCmd), (s.linkActive = true) ∧ ((s.par.cmds.find? fun e => e.2.origin == some tag) = some (k, c)) ∧ (s.pastCommit k c = false)) ∧
  (∃ (s : State) (tag k : Nat) (c : NvmeCmd), (s.linkActive = true) ∧ ((s.par.cmds.find? fun e => e.2.origin == some tag) = some (k, c)) ∧ (s.pastCommit k c = true)) :=
  ⟨⟨regs [(TEN_STATUS.STATE, Tst.active), (DDR_CFG.CAP_GIB, 16), (TEN_CTL.EN, 1), (TEN_CTL.LANE_EN, 255), (TEN_CTL.MIN_WIDTH, 0), (PAR_CTL.EN, 1), (PAR_CTL.FWD_RESERVE, 64), (PAR_SHARD.STATE 5, 0), (CELL_SHARD.STATE 5, 2), (LEASE_SHARD.STATE 5, Lst.held), (SEP_SHARD.STATE 5, 2)] { State.reset with now := 10 ^ 13, ten := {  } }, 9, 0, 0, 0, [], false, (regs [(TEN_STATUS.STATE, Tst.active), (DDR_CFG.CAP_GIB, 16), (TEN_CTL.EN, 1), (TEN_CTL.LANE_EN, 255), (TEN_CTL.MIN_WIDTH, 0), (PAR_CTL.EN, 1), (PAR_CTL.FWD_RESERVE, 64), (PAR_SHARD.STATE 5, 0), (CELL_SHARD.STATE 5, 2), (LEASE_SHARD.STATE 5, Lst.held), (SEP_SHARD.STATE 5, 2)] { State.reset with now := 10 ^ 13, ten := {  } }).received 3 32, ⟨by decide +kernel, by first | with_reducible rfl | decide +kernel, by decide +kernel⟩⟩,
   ⟨regs [(TEN_STATUS.STATE, Tst.active), (DDR_CFG.CAP_GIB, 16), (TEN_CTL.EN, 1), (TEN_CTL.LANE_EN, 255), (TEN_CTL.MIN_WIDTH, 0), (PAR_CTL.EN, 1), (PAR_CTL.FWD_RESERVE, 64), (PAR_SHARD.STATE 5, 0), (CELL_SHARD.STATE 5, 2), (LEASE_SHARD.STATE 5, Lst.held), (SEP_SHARD.STATE 5, 2)] { State.reset with now := 10 ^ 13, ten := {  } }, 9, by decide +kernel⟩,
   ⟨regs [(TEN_STATUS.STATE, Tst.active), (DDR_CFG.CAP_GIB, 16), (TEN_CTL.EN, 1), (TEN_CTL.LANE_EN, 255), (TEN_CTL.MIN_WIDTH, 0), (PAR_CTL.EN, 1), (PAR_CTL.FWD_RESERVE, 64), (PAR_SHARD.STATE 5, 0), (CELL_SHARD.STATE 5, 2), (LEASE_SHARD.STATE 5, Lst.held), (SEP_SHARD.STATE 5, 2)] { State.reset with now := 10 ^ 13, ten := {  }, par := { cmds := [(0, { sqe := image 64 [(0, 1, 2)], ctx := some 3, cntlid := 1, qid := 1, cls := 0, tenant := 0, vol := 0, stage := .running, since := 0, begun := true, origin := some 9 })] } }, 9, 0, { sqe := image 64 [(0, 1, 2)], ctx := some 3, cntlid := 1, qid := 1, cls := 0, tenant := 0, vol := 0, stage := .running, since := 0, begun := true, origin := some 9 }, by decide +kernel⟩,
   ⟨regs [(TEN_STATUS.STATE, Tst.active), (DDR_CFG.CAP_GIB, 16), (TEN_CTL.EN, 1), (TEN_CTL.LANE_EN, 255), (TEN_CTL.MIN_WIDTH, 0), (PAR_CTL.EN, 1), (PAR_CTL.FWD_RESERVE, 64), (PAR_SHARD.STATE 5, 0), (CELL_SHARD.STATE 5, 2), (LEASE_SHARD.STATE 5, Lst.held), (SEP_SHARD.STATE 5, 2)] { State.reset with now := 10 ^ 13, ten := {  }, par := { cmds := [(0, { sqe := image 64 [(0, 1, 2)], ctx := some 3, cntlid := 1, qid := 1, cls := 0, tenant := 0, vol := 0, stage := .running, since := 0, begun := true, commit := true, origin := some 9 })] } }, 9, 0, { sqe := image 64 [(0, 1, 2)], ctx := some 3, cntlid := 1, qid := 1, cls := 0, tenant := 0, vol := 0, stage := .running, since := 0, begun := true, commit := true, origin := some 9 }, by decide +kernel⟩⟩

theorem witness_TenonForwardingMaintenanceMail_3 :
  (∃ (s : State) (at_ : Nat) (t u : State), (s.leaseU.linkOut = some at_) ∧ (s.leaseU.peerLost = false) ∧ (s.passed (at_ + s.rd TEN_FWD_CFG.FWD_WAIT * mgmtTick) = true) ∧ (t = s.setPar { s.par with cmds := Tab.mapV s.par.cmds fun _ (c : NvmeCmd) => if c.origin.isSome then { c with cut := true } else c }) ∧ (u = t.setTen { t.ten with out := t.ten.out.filter fun m => match m with | .fwdRsp _ _ _ _ _ | .cancelled _ _ => false | _ => true })) ∧
  (∃ (s : State) (tag locator count st : Nat) (shard : Fin 256), (s.linkActive = true) ∧ ((s.received 5 32).sepShardRefused shard = some st)) ∧
  (∃ (s : State) (tag locator count : Nat) (shard : Fin 256) (t : State), (s.linkActive = true) ∧ (t = s.received 5 32) ∧ (t.sepShardRefused shard = none) ∧ (((Tab.get? t.sep.byLoc (copyKey shard (t.locNow shard locator))).bind t.entryAt) = none)) ∧
  (∃ (s : State) (tag locator count h : Nat) (shard : Fin 256) (e : FEntry) (t : State), (s.linkActive = true) ∧ (t = s.received 5 32) ∧ (t.sepShardRefused shard = none) ∧ (Tab.get? t.sep.byLoc (copyKey shard (t.locNow shard locator)) = some h) ∧ (t.entryAt h = some e) ∧ (2 ^ 32 - 1 < e.refs + count)) :=
  ⟨⟨regs [(TEN_STATUS.STATE, Tst.down), (DDR_CFG.CAP_GIB, 16), (TEN_CTL.EN, 1), (TEN_CTL.LANE_EN, 255), (TEN_CTL.MIN_WIDTH, 0), (PAR_CTL.EN, 1), (PAR_CTL.FWD_RESERVE, 64), (PAR_SHARD.STATE 5, 0), (CELL_SHARD.STATE 5, 2), (LEASE_SHARD.STATE 5, Lst.held), (SEP_SHARD.STATE 5, 2)] { State.reset with now := 10 ^ 13, ten := {  }, leaseU := { linkOut := some 0 }, par := { cmds := [(0, { sqe := image 64 [(0, 1, 2)], ctx := some 3, cntlid := 1, qid := 1, cls := 0, tenant := 0, vol := 0, stage := .running, since := 0, begun := true, fwds := [⟨5, 9, 1⟩] })] } }, 0, regs [(TEN_STATUS.STATE, Tst.down), (DDR_CFG.CAP_GIB, 16), (TEN_CTL.EN, 1), (TEN_CTL.LANE_EN, 255), (TEN_CTL.MIN_WIDTH, 0), (PAR_CTL.EN, 1), (PAR_CTL.FWD_RESERVE, 64), (PAR_SHARD.STATE 5, 0), (CELL_SHARD.STATE 5, 2), (LEASE_SHARD.STATE 5, Lst.held), (SEP_SHARD.STATE 5, 2)] { State.reset with now := 10 ^ 13, ten := {  }, leaseU := { linkOut := some 0 }, par := { cmds := [(0, { sqe := image 64 [(0, 1, 2)], ctx := some 3, cntlid := 1, qid := 1, cls := 0, tenant := 0, vol := 0, stage := .running, since := 0, begun := true, fwds := [⟨5, 9, 1⟩] })] } }, regs [(TEN_STATUS.STATE, Tst.down), (DDR_CFG.CAP_GIB, 16), (TEN_CTL.EN, 1), (TEN_CTL.LANE_EN, 255), (TEN_CTL.MIN_WIDTH, 0), (PAR_CTL.EN, 1), (PAR_CTL.FWD_RESERVE, 64), (PAR_SHARD.STATE 5, 0), (CELL_SHARD.STATE 5, 2), (LEASE_SHARD.STATE 5, Lst.held), (SEP_SHARD.STATE 5, 2)] { State.reset with now := 10 ^ 13, ten := {  }, leaseU := { linkOut := some 0 }, par := { cmds := [(0, { sqe := image 64 [(0, 1, 2)], ctx := some 3, cntlid := 1, qid := 1, cls := 0, tenant := 0, vol := 0, stage := .running, since := 0, begun := true, fwds := [⟨5, 9, 1⟩] })] } }, ⟨by decide +kernel, by decide +kernel, by decide +kernel, by first | with_reducible rfl | decide +kernel, by first | with_reducible rfl | decide +kernel⟩⟩,
   ⟨regs [(TEN_STATUS.STATE, Tst.active), (DDR_CFG.CAP_GIB, 16), (TEN_CTL.EN, 1), (TEN_CTL.LANE_EN, 255), (TEN_CTL.MIN_WIDTH, 0), (PAR_CTL.EN, 1), (PAR_CTL.FWD_RESERVE, 64), (PAR_SHARD.STATE 5, 0), (CELL_SHARD.STATE 5, 2), (LEASE_SHARD.STATE 5, Lst.held), (SEP_SHARD.STATE 5, 2), (PAR_SHARD.STATE 5, 1)] { State.reset with now := 10 ^ 13, ten := {  } }, 9, 77, 1, St.sepShardNotOwned, 5, by decide +kernel⟩,
   ⟨regs [(TEN_STATUS.STATE, Tst.active), (DDR_CFG.CAP_GIB, 16), (TEN_CTL.EN, 1), (TEN_CTL.LANE_EN, 255), (TEN_CTL.MIN_WIDTH, 0), (PAR_CTL.EN, 1), (PAR_CTL.FWD_RESERVE, 64), (PAR_SHARD.STATE 5, 0), (CELL_SHARD.STATE 5, 2), (LEASE_SHARD.STATE 5, Lst.held), (SEP_SHARD.STATE 5, 2)] { State.reset with now := 10 ^ 13, ten := {  } }, 9, 77, 1, 5, (regs [(TEN_STATUS.STATE, Tst.active), (DDR_CFG.CAP_GIB, 16), (TEN_CTL.EN, 1), (TEN_CTL.LANE_EN, 255), (TEN_CTL.MIN_WIDTH, 0), (PAR_CTL.EN, 1), (PAR_CTL.FWD_RESERVE, 64), (PAR_SHARD.STATE 5, 0), (CELL_SHARD.STATE 5, 2), (LEASE_SHARD.STATE 5, Lst.held), (SEP_SHARD.STATE 5, 2)] { State.reset with now := 10 ^ 13, ten := {  } }).received 5 32, ⟨by decide +kernel, by first | with_reducible rfl | decide +kernel, by decide +kernel, by decide +kernel⟩⟩,
   ⟨regs [(TEN_STATUS.STATE, Tst.active), (DDR_CFG.CAP_GIB, 16), (TEN_CTL.EN, 1), (TEN_CTL.LANE_EN, 255), (TEN_CTL.MIN_WIDTH, 0), (PAR_CTL.EN, 1), (PAR_CTL.FWD_RESERVE, 64), (PAR_SHARD.STATE 5, 0), (CELL_SHARD.STATE 5, 2), (LEASE_SHARD.STATE 5, Lst.held), (SEP_SHARD.STATE 5, 2)] { State.reset with now := 10 ^ 13, ten := {  }, sep := { filter := [(7, [{ fp := image 32 [(0, 1, 7)], domain := 0, state := Est.valid, shard := 5, refs := 2, locator := 77, holds := 0, slot := some 56 }])], byLoc := [(5 * 2 ^ 64 + 77, 56)] } }, 9, 77, 2 ^ 32, 56, 5, { fp := image 32 [(0, 1, 7)], domain := 0, state := Est.valid, shard := 5, refs := 2, locator := 77, holds := 0, slot := some 56 }, (regs [(TEN_STATUS.STATE, Tst.active), (DDR_CFG.CAP_GIB, 16), (TEN_CTL.EN, 1), (TEN_CTL.LANE_EN, 255), (TEN_CTL.MIN_WIDTH, 0), (PAR_CTL.EN, 1), (PAR_CTL.FWD_RESERVE, 64), (PAR_SHARD.STATE 5, 0), (CELL_SHARD.STATE 5, 2), (LEASE_SHARD.STATE 5, Lst.held), (SEP_SHARD.STATE 5, 2)] { State.reset with now := 10 ^ 13, ten := {  }, sep := { filter := [(7, [{ fp := image 32 [(0, 1, 7)], domain := 0, state := Est.valid, shard := 5, refs := 2, locator := 77, holds := 0, slot := some 56 }])], byLoc := [(5 * 2 ^ 64 + 77, 56)] } }).received 5 32, ⟨by decide +kernel, by first | with_reducible rfl | decide +kernel, by decide +kernel, by decide +kernel, by decide +kernel, by decide +kernel⟩⟩⟩

theorem witness_TenonForwardingMaintenanceMail_4 :
  (∃ (s : State) (tag locator count h : Nat) (shard : Fin 256) (e : FEntry) (t : State), (s.linkActive = true) ∧ (t = s.received 5 32) ∧ (t.sepShardRefused shard = none) ∧ (Tab.get? t.sep.byLoc (copyKey shard (t.locNow shard locator)) = some h) ∧ (t.entryAt h = some e) ∧ (e.refs + count < 2 ^ 32)) ∧
  (∃ (s : State) (tag : Nat) (blade : Fin 16) (shard : Fin 256) (bands : List Nat) (ms : List Medium) (t : State), (s.linkActive = true) ∧ (t = s.received 5 (16 + alignUp (2 * bands.length) 16)) ∧ (t.liveLease shard = true) ∧ (t.cellSt shard = Cst.ready)) ∧
  (∃ (s : State) (tag : Nat) (blade : Fin 16) (shard : Fin 256) (bands : List Nat) (ms : List Medium) (t : State), (s.linkActive = true) ∧ (t = s.received 5 (16 + alignUp (2 * bands.length) 16)) ∧ (t.liveLease shard = false ∨ t.cellSt shard ≠ Cst.ready)) ∧
  (∃ (s : State) (tag : Nat) (blade : Fin 16), (s.linkActive = true)) :=
  ⟨⟨regs [(TEN_STATUS.STATE, Tst.active), (DDR_CFG.CAP_GIB, 16), (TEN_CTL.EN, 1), (TEN_CTL.LANE_EN, 255), (TEN_CTL.MIN_WIDTH, 0), (PAR_CTL.EN, 1), (PAR_CTL.FWD_RESERVE, 64), (PAR_SHARD.STATE 5, 0), (CELL_SHARD.STATE 5, 2), (LEASE_SHARD.STATE 5, Lst.held), (SEP_SHARD.STATE 5, 2)] { State.reset with now := 10 ^ 13, ten := {  }, sep := { filter := [(7, [{ fp := image 32 [(0, 1, 7)], domain := 0, state := Est.valid, shard := 5, refs := 2, locator := 77, holds := 0, slot := some 56 }])], byLoc := [(5 * 2 ^ 64 + 77, 56)] } }, 9, 77, 1, 56, 5, { fp := image 32 [(0, 1, 7)], domain := 0, state := Est.valid, shard := 5, refs := 2, locator := 77, holds := 0, slot := some 56 }, (regs [(TEN_STATUS.STATE, Tst.active), (DDR_CFG.CAP_GIB, 16), (TEN_CTL.EN, 1), (TEN_CTL.LANE_EN, 255), (TEN_CTL.MIN_WIDTH, 0), (PAR_CTL.EN, 1), (PAR_CTL.FWD_RESERVE, 64), (PAR_SHARD.STATE 5, 0), (CELL_SHARD.STATE 5, 2), (LEASE_SHARD.STATE 5, Lst.held), (SEP_SHARD.STATE 5, 2)] { State.reset with now := 10 ^ 13, ten := {  }, sep := { filter := [(7, [{ fp := image 32 [(0, 1, 7)], domain := 0, state := Est.valid, shard := 5, refs := 2, locator := 77, holds := 0, slot := some 56 }])], byLoc := [(5 * 2 ^ 64 + 77, 56)] } }).received 5 32, ⟨by decide +kernel, by first | with_reducible rfl | decide +kernel, by decide +kernel, by decide +kernel, by decide +kernel, by decide +kernel⟩⟩,
   ⟨regs [(TEN_STATUS.STATE, Tst.active), (DDR_CFG.CAP_GIB, 16), (TEN_CTL.EN, 1), (TEN_CTL.LANE_EN, 255), (TEN_CTL.MIN_WIDTH, 0), (PAR_CTL.EN, 1), (PAR_CTL.FWD_RESERVE, 64), (PAR_SHARD.STATE 5, 0), (CELL_SHARD.STATE 5, 2), (LEASE_SHARD.STATE 5, Lst.held), (SEP_SHARD.STATE 5, 2)] { State.reset with now := 10 ^ 13, ten := {  }, leaseU := { shards := [(5, { ends := 10 ^ 16 })] } }, 9, 3, 5, [], [], (regs [(TEN_STATUS.STATE, Tst.active), (DDR_CFG.CAP_GIB, 16), (TEN_CTL.EN, 1), (TEN_CTL.LANE_EN, 255), (TEN_CTL.MIN_WIDTH, 0), (PAR_CTL.EN, 1), (PAR_CTL.FWD_RESERVE, 64), (PAR_SHARD.STATE 5, 0), (CELL_SHARD.STATE 5, 2), (LEASE_SHARD.STATE 5, Lst.held), (SEP_SHARD.STATE 5, 2)] { State.reset with now := 10 ^ 13, ten := {  }, leaseU := { shards := [(5, { ends := 10 ^ 16 })] } }).received 5 16, ⟨by decide +kernel, by first | with_reducible rfl | decide +kernel, by decide +kernel, by decide +kernel⟩⟩,
   ⟨regs [(TEN_STATUS.STATE, Tst.active), (DDR_CFG.CAP_GIB, 16), (TEN_CTL.EN, 1), (TEN_CTL.LANE_EN, 255), (TEN_CTL.MIN_WIDTH, 0), (PAR_CTL.EN, 1), (PAR_CTL.FWD_RESERVE, 64), (PAR_SHARD.STATE 5, 0), (CELL_SHARD.STATE 5, 2), (LEASE_SHARD.STATE 5, Lst.held), (SEP_SHARD.STATE 5, 2)] { State.reset with now := 10 ^ 13, ten := {  } }, 9, 3, 5, [7], [], (regs [(TEN_STATUS.STATE, Tst.active), (DDR_CFG.CAP_GIB, 16), (TEN_CTL.EN, 1), (TEN_CTL.LANE_EN, 255), (TEN_CTL.MIN_WIDTH, 0), (PAR_CTL.EN, 1), (PAR_CTL.FWD_RESERVE, 64), (PAR_SHARD.STATE 5, 0), (CELL_SHARD.STATE 5, 2), (LEASE_SHARD.STATE 5, Lst.held), (SEP_SHARD.STATE 5, 2)] { State.reset with now := 10 ^ 13, ten := {  } }).received 5 32, ⟨by decide +kernel, by first | with_reducible rfl | decide +kernel, by decide +kernel⟩⟩,
   ⟨regs [(TEN_STATUS.STATE, Tst.active), (DDR_CFG.CAP_GIB, 16), (TEN_CTL.EN, 1), (TEN_CTL.LANE_EN, 255), (TEN_CTL.MIN_WIDTH, 0), (PAR_CTL.EN, 1), (PAR_CTL.FWD_RESERVE, 64), (PAR_SHARD.STATE 5, 0), (CELL_SHARD.STATE 5, 2), (LEASE_SHARD.STATE 5, Lst.held), (SEP_SHARD.STATE 5, 2)] { State.reset with now := 10 ^ 13, ten := {  } }, 9, 3, by decide +kernel⟩⟩

theorem witness_TenonForwardingMaintenanceMail_5 :
  (∃ (s : State) (tag : Nat) (ms : List Medium) (d : DescRef) (f : Fetched) (t u : State), (s.linkActive = true) ∧ (t = s.received 5 16) ∧ (t.ten.maint = [(tag, d)]) ∧ (u = t.setTen { t.ten with maint := [] }) ∧ (u.fetchedAt .cell d = some f) ∧ ((f.at 29 1).testBit 0 = true)) ∧
  (∃ (s : State) (tag : Nat) (ok : Bool) (bands : List Nat) (ms : List Medium) (t : State), (s.linkActive = true) ∧ (t = s.received 5 (16 + alignUp (2 * bands.length) 16)) ∧ ((t.ten.maint.find? fun e => e.1 == tag) = none)) ∧
  (∃ (s : State) (tag : Nat) (ok : Bool) (bands : List Nat) (ms : List Medium) (d : DescRef) (f : Fetched) (t u v : State), (s.linkActive = true) ∧ (t = s.received 5 (16 + alignUp (2 * bands.length) 16)) ∧ ((t.ten.maint.find? fun e => e.1 == tag) = some (tag, d)) ∧ (u = t.setTen { t.ten with maint := t.ten.maint.filter fun e => e.1 != tag }) ∧ (u.fetchedAt .cell d = some f) ∧ ((f.at 29 1).testBit 0 = false) ∧ (v = u.setCblade (f.at 28 1) { u.cblade (f.at 28 1) with defers := (u.cblade (f.at 28 1)).defers.filter fun e => !bands.contains e.2.2 }) ∧ ((v.ten.maint.any fun e => e.2 == d) = true)) ∧
  (∃ (s : State) (d : DescRef) (f : Fetched) (bs : List Byte) (t : State), (s.startedAt .ten d Op.mailSend = some f) ∧ (s.ten.mailOut.contains d = false) ∧ (s.linkActive = true) ∧ (f.len ≤ 4096) ∧ (0 < f.len) ∧ ((s.dmaRead .ten f.src f.len (some d.ring)).toOption = some bs) ∧ (t = s.setPhase .ten d .waiting)) :=
  ⟨⟨holds .cell [desc 0 Op.bladeAttach [(28, 1, 3), (29, 1, 1)] .started] (regs [(TEN_STATUS.STATE, Tst.active), (DDR_CFG.CAP_GIB, 16), (TEN_CTL.EN, 1), (TEN_CTL.LANE_EN, 255), (TEN_CTL.MIN_WIDTH, 0), (PAR_CTL.EN, 1), (PAR_CTL.FWD_RESERVE, 64), (PAR_SHARD.STATE 5, 0), (CELL_SHARD.STATE 5, 2), (LEASE_SHARD.STATE 5, Lst.held), (SEP_SHARD.STATE 5, 2)] { State.reset with now := 10 ^ 13, ten := { maint := [(9, ⟨0, 0⟩)] } }), 9, [], ⟨0, 0⟩, desc 0 Op.bladeAttach [(28, 1, 3), (29, 1, 1)] .started, (holds .cell [desc 0 Op.bladeAttach [(28, 1, 3), (29, 1, 1)] .started] (regs [(TEN_STATUS.STATE, Tst.active), (DDR_CFG.CAP_GIB, 16), (TEN_CTL.EN, 1), (TEN_CTL.LANE_EN, 255), (TEN_CTL.MIN_WIDTH, 0), (PAR_CTL.EN, 1), (PAR_CTL.FWD_RESERVE, 64), (PAR_SHARD.STATE 5, 0), (CELL_SHARD.STATE 5, 2), (LEASE_SHARD.STATE 5, Lst.held), (SEP_SHARD.STATE 5, 2)] { State.reset with now := 10 ^ 13, ten := { maint := [(9, ⟨0, 0⟩)] } })).received 5 16, ((holds .cell [desc 0 Op.bladeAttach [(28, 1, 3), (29, 1, 1)] .started] (regs [(TEN_STATUS.STATE, Tst.active), (DDR_CFG.CAP_GIB, 16), (TEN_CTL.EN, 1), (TEN_CTL.LANE_EN, 255), (TEN_CTL.MIN_WIDTH, 0), (PAR_CTL.EN, 1), (PAR_CTL.FWD_RESERVE, 64), (PAR_SHARD.STATE 5, 0), (CELL_SHARD.STATE 5, 2), (LEASE_SHARD.STATE 5, Lst.held), (SEP_SHARD.STATE 5, 2)] { State.reset with now := 10 ^ 13, ten := { maint := [(9, ⟨0, 0⟩)] } })).received 5 16).setTen { ((holds .cell [desc 0 Op.bladeAttach [(28, 1, 3), (29, 1, 1)] .started] (regs [(TEN_STATUS.STATE, Tst.active), (DDR_CFG.CAP_GIB, 16), (TEN_CTL.EN, 1), (TEN_CTL.LANE_EN, 255), (TEN_CTL.MIN_WIDTH, 0), (PAR_CTL.EN, 1), (PAR_CTL.FWD_RESERVE, 64), (PAR_SHARD.STATE 5, 0), (CELL_SHARD.STATE 5, 2), (LEASE_SHARD.STATE 5, Lst.held), (SEP_SHARD.STATE 5, 2)] { State.reset with now := 10 ^ 13, ten := { maint := [(9, ⟨0, 0⟩)] } })).received 5 16).ten with maint := [] }, ⟨by decide +kernel, by first | with_reducible rfl | decide +kernel, by decide +kernel, by first | with_reducible rfl | decide +kernel, by decide +kernel, by decide +kernel⟩⟩,
   ⟨regs [(TEN_STATUS.STATE, Tst.active), (DDR_CFG.CAP_GIB, 16), (TEN_CTL.EN, 1), (TEN_CTL.LANE_EN, 255), (TEN_CTL.MIN_WIDTH, 0), (PAR_CTL.EN, 1), (PAR_CTL.FWD_RESERVE, 64), (PAR_SHARD.STATE 5, 0), (CELL_SHARD.STATE 5, 2), (LEASE_SHARD.STATE 5, Lst.held), (SEP_SHARD.STATE 5, 2)] { State.reset with now := 10 ^ 13, ten := {  } }, 9, true, [], [], (regs [(TEN_STATUS.STATE, Tst.active), (DDR_CFG.CAP_GIB, 16), (TEN_CTL.EN, 1), (TEN_CTL.LANE_EN, 255), (TEN_CTL.MIN_WIDTH, 0), (PAR_CTL.EN, 1), (PAR_CTL.FWD_RESERVE, 64), (PAR_SHARD.STATE 5, 0), (CELL_SHARD.STATE 5, 2), (LEASE_SHARD.STATE 5, Lst.held), (SEP_SHARD.STATE 5, 2)] { State.reset with now := 10 ^ 13, ten := {  } }).received 5 16, ⟨by decide +kernel, by first | with_reducible rfl | decide +kernel, by decide +kernel⟩⟩,
   ⟨holds .cell [desc 0 Op.bladeAttach [(28, 1, 3)] .started] (regs [(TEN_STATUS.STATE, Tst.active), (DDR_CFG.CAP_GIB, 16), (TEN_CTL.EN, 1), (TEN_CTL.LANE_EN, 255), (TEN_CTL.MIN_WIDTH, 0), (PAR_CTL.EN, 1), (PAR_CTL.FWD_RESERVE, 64), (PAR_SHARD.STATE 5, 0), (CELL_SHARD.STATE 5, 2), (LEASE_SHARD.STATE 5, Lst.held), (SEP_SHARD.STATE 5, 2)] { State.reset with now := 10 ^ 13, ten := { maint := [(9, ⟨0, 0⟩), (10, ⟨0, 0⟩)] } }), 9, true, [], [], ⟨0, 0⟩, desc 0 Op.bladeAttach [(28, 1, 3)] .started, (holds .cell [desc 0 Op.bladeAttach [(28, 1, 3)] .started] (regs [(TEN_STATUS.STATE, Tst.active), (DDR_CFG.CAP_GIB, 16), (TEN_CTL.EN, 1), (TEN_CTL.LANE_EN, 255), (TEN_CTL.MIN_WIDTH, 0), (PAR_CTL.EN, 1), (PAR_CTL.FWD_RESERVE, 64), (PAR_SHARD.STATE 5, 0), (CELL_SHARD.STATE 5, 2), (LEASE_SHARD.STATE 5, Lst.held), (SEP_SHARD.STATE 5, 2)] { State.reset with now := 10 ^ 13, ten := { maint := [(9, ⟨0, 0⟩), (10, ⟨0, 0⟩)] } })).received 5 16, ((holds .cell [desc 0 Op.bladeAttach [(28, 1, 3)] .started] (regs [(TEN_STATUS.STATE, Tst.active), (DDR_CFG.CAP_GIB, 16), (TEN_CTL.EN, 1), (TEN_CTL.LANE_EN, 255), (TEN_CTL.MIN_WIDTH, 0), (PAR_CTL.EN, 1), (PAR_CTL.FWD_RESERVE, 64), (PAR_SHARD.STATE 5, 0), (CELL_SHARD.STATE 5, 2), (LEASE_SHARD.STATE 5, Lst.held), (SEP_SHARD.STATE 5, 2)] { State.reset with now := 10 ^ 13, ten := { maint := [(9, ⟨0, 0⟩), (10, ⟨0, 0⟩)] } })).received 5 16).setTen { ((holds .cell [desc 0 Op.bladeAttach [(28, 1, 3)] .started] (regs [(TEN_STATUS.STATE, Tst.active), (DDR_CFG.CAP_GIB, 16), (TEN_CTL.EN, 1), (TEN_CTL.LANE_EN, 255), (TEN_CTL.MIN_WIDTH, 0), (PAR_CTL.EN, 1), (PAR_CTL.FWD_RESERVE, 64), (PAR_SHARD.STATE 5, 0), (CELL_SHARD.STATE 5, 2), (LEASE_SHARD.STATE 5, Lst.held), (SEP_SHARD.STATE 5, 2)] { State.reset with now := 10 ^ 13, ten := { maint := [(9, ⟨0, 0⟩), (10, ⟨0, 0⟩)] } })).received 5 16).ten with maint := [(10, ⟨0, 0⟩)] }, (((holds .cell [desc 0 Op.bladeAttach [(28, 1, 3)] .started] (regs [(TEN_STATUS.STATE, Tst.active), (DDR_CFG.CAP_GIB, 16), (TEN_CTL.EN, 1), (TEN_CTL.LANE_EN, 255), (TEN_CTL.MIN_WIDTH, 0), (PAR_CTL.EN, 1), (PAR_CTL.FWD_RESERVE, 64), (PAR_SHARD.STATE 5, 0), (CELL_SHARD.STATE 5, 2), (LEASE_SHARD.STATE 5, Lst.held), (SEP_SHARD.STATE 5, 2)] { State.reset with now := 10 ^ 13, ten := { maint := [(9, ⟨0, 0⟩), (10, ⟨0, 0⟩)] } })).received 5 16).setTen { ((holds .cell [desc 0 Op.bladeAttach [(28, 1, 3)] .started] (regs [(TEN_STATUS.STATE, Tst.active), (DDR_CFG.CAP_GIB, 16), (TEN_CTL.EN, 1), (TEN_CTL.LANE_EN, 255), (TEN_CTL.MIN_WIDTH, 0), (PAR_CTL.EN, 1), (PAR_CTL.FWD_RESERVE, 64), (PAR_SHARD.STATE 5, 0), (CELL_SHARD.STATE 5, 2), (LEASE_SHARD.STATE 5, Lst.held), (SEP_SHARD.STATE 5, 2)] { State.reset with now := 10 ^ 13, ten := { maint := [(9, ⟨0, 0⟩), (10, ⟨0, 0⟩)] } })).received 5 16).ten with maint := [(10, ⟨0, 0⟩)] }).setCblade 3 {}, ⟨by decide +kernel, by first | with_reducible rfl | decide +kernel, by decide +kernel, by first | with_reducible rfl | decide +kernel, by decide +kernel, by decide +kernel, by first | with_reducible rfl | decide +kernel, by decide +kernel⟩⟩,
   ⟨holds .ten [desc 0 Op.mailSend [(8, 8, 8192), (24, 4, 16), (28, 4, 77)] .started] (regs [(TEN_STATUS.STATE, Tst.active), (DDR_CFG.CAP_GIB, 16), (TEN_CTL.EN, 1), (TEN_CTL.LANE_EN, 255), (TEN_CTL.MIN_WIDTH, 0), (PAR_CTL.EN, 1), (PAR_CTL.FWD_RESERVE, 64), (PAR_SHARD.STATE 5, 0), (CELL_SHARD.STATE 5, 2), (LEASE_SHARD.STATE 5, Lst.held), (SEP_SHARD.STATE 5, 2)] { State.reset with now := 10 ^ 13, ten := {  }, mem := Memory.writeN [] 8192 (image 16 [(0, 1, 7)]) }), ⟨0, 0⟩, desc 0 Op.mailSend [(8, 8, 8192), (24, 4, 16), (28, 4, 77)] .started, image 16 [(0, 1, 7)], (holds .ten [desc 0 Op.mailSend [(8, 8, 8192), (24, 4, 16), (28, 4, 77)] .started] (regs [(TEN_STATUS.STATE, Tst.active), (DDR_CFG.CAP_GIB, 16), (TEN_CTL.EN, 1), (TEN_CTL.LANE_EN, 255), (TEN_CTL.MIN_WIDTH, 0), (PAR_CTL.EN, 1), (PAR_CTL.FWD_RESERVE, 64), (PAR_SHARD.STATE 5, 0), (CELL_SHARD.STATE 5, 2), (LEASE_SHARD.STATE 5, Lst.held), (SEP_SHARD.STATE 5, 2)] { State.reset with now := 10 ^ 13, ten := {  }, mem := Memory.writeN [] 8192 (image 16 [(0, 1, 7)]) })).setPhase .ten ⟨0, 0⟩ .waiting, ⟨by decide +kernel, by decide +kernel, by decide +kernel, by decide +kernel, by decide +kernel, by decide +kernel, by first | with_reducible rfl | decide +kernel⟩⟩⟩

theorem witness_TenonForwardingMaintenanceMail_6 :
  (∃ (s : State) (d : DescRef) (f : Fetched), (s.startedAt .ten d Op.mailSend = some f) ∧ (s.ten.mailOut.contains d = false) ∧ (s.linkActive = false)) ∧
  (∃ (s : State) (d : DescRef) (f : Fetched), (s.startedAt .ten d Op.mailSend = some f) ∧ (s.ten.mailOut.contains d = false) ∧ (s.linkActive = true) ∧ (4096 < f.len)) ∧
  (∃ (s : State) (tag : Nat) (bytes : List (BitVec 8)) (d : DescRef) (f : Fetched) (t : State), (s.linkActive = true) ∧ (bytes ≠ []) ∧ (bytes.length ≤ 4096) ∧ (t = s.setTen { s.ten with mail := s.ten.mail ++ [(tag % 2 ^ 32, bytes)] }) ∧ (t.firstWaiting .ten Op.mailRecv = some (d, f))) ∧
  (∃ (s : State) (tag : Nat) (bytes : List (BitVec 8)), (s.linkActive = true) ∧ (bytes ≠ []) ∧ (bytes.length ≤ 4096) ∧ (s.firstWaiting .ten Op.mailRecv = none)) :=
  ⟨⟨holds .ten [desc 0 Op.mailSend [(8, 8, 8192), (24, 4, 16), (28, 4, 77)] .started] (regs [(TEN_STATUS.STATE, Tst.down), (DDR_CFG.CAP_GIB, 16), (TEN_CTL.EN, 1), (TEN_CTL.LANE_EN, 255), (TEN_CTL.MIN_WIDTH, 0), (PAR_CTL.EN, 1), (PAR_CTL.FWD_RESERVE, 64), (PAR_SHARD.STATE 5, 0), (CELL_SHARD.STATE 5, 2), (LEASE_SHARD.STATE 5, Lst.held), (SEP_SHARD.STATE 5, 2)] { State.reset with now := 10 ^ 13, ten := {  } }), ⟨0, 0⟩, desc 0 Op.mailSend [(8, 8, 8192), (24, 4, 16), (28, 4, 77)] .started, by decide +kernel⟩,
   ⟨holds .ten [desc 0 Op.mailSend [(8, 8, 8192), (24, 4, 5000), (28, 4, 77)] .started] (regs [(TEN_STATUS.STATE, Tst.active), (DDR_CFG.CAP_GIB, 16), (TEN_CTL.EN, 1), (TEN_CTL.LANE_EN, 255), (TEN_CTL.MIN_WIDTH, 0), (PAR_CTL.EN, 1), (PAR_CTL.FWD_RESERVE, 64), (PAR_SHARD.STATE 5, 0), (CELL_SHARD.STATE 5, 2), (LEASE_SHARD.STATE 5, Lst.held), (SEP_SHARD.STATE 5, 2)] { State.reset with now := 10 ^ 13, ten := {  } }), ⟨0, 0⟩, desc 0 Op.mailSend [(8, 8, 8192), (24, 4, 5000), (28, 4, 77)] .started, by decide +kernel⟩,
   ⟨(holds .ten [desc 0 Op.mailRecv [(16, 8, 8192), (24, 4, 4096)] .started] (regs [(TEN_STATUS.STATE, Tst.active), (DDR_CFG.CAP_GIB, 16), (TEN_CTL.EN, 1), (TEN_CTL.LANE_EN, 255), (TEN_CTL.MIN_WIDTH, 0), (PAR_CTL.EN, 1), (PAR_CTL.FWD_RESERVE, 64), (PAR_SHARD.STATE 5, 0), (CELL_SHARD.STATE 5, 2), (LEASE_SHARD.STATE 5, Lst.held), (SEP_SHARD.STATE 5, 2)] { State.reset with now := 10 ^ 13, ten := {  } })).setPhase .ten ⟨0, 0⟩ .waiting, 9, zeros 8, ⟨0, 0⟩, desc 0 Op.mailRecv [(16, 8, 8192), (24, 4, 4096)] .waiting, ((holds .ten [desc 0 Op.mailRecv [(16, 8, 8192), (24, 4, 4096)] .started] (regs [(TEN_STATUS.STATE, Tst.active), (DDR_CFG.CAP_GIB, 16), (TEN_CTL.EN, 1), (TEN_CTL.LANE_EN, 255), (TEN_CTL.MIN_WIDTH, 0), (PAR_CTL.EN, 1), (PAR_CTL.FWD_RESERVE, 64), (PAR_SHARD.STATE 5, 0), (CELL_SHARD.STATE 5, 2), (LEASE_SHARD.STATE 5, Lst.held), (SEP_SHARD.STATE 5, 2)] { State.reset with now := 10 ^ 13, ten := {  } })).setPhase .ten ⟨0, 0⟩ .waiting).setTen { ((holds .ten [desc 0 Op.mailRecv [(16, 8, 8192), (24, 4, 4096)] .started] (regs [(TEN_STATUS.STATE, Tst.active), (DDR_CFG.CAP_GIB, 16), (TEN_CTL.EN, 1), (TEN_CTL.LANE_EN, 255), (TEN_CTL.MIN_WIDTH, 0), (PAR_CTL.EN, 1), (PAR_CTL.FWD_RESERVE, 64), (PAR_SHARD.STATE 5, 0), (CELL_SHARD.STATE 5, 2), (LEASE_SHARD.STATE 5, Lst.held), (SEP_SHARD.STATE 5, 2)] { State.reset with now := 10 ^ 13, ten := {  } })).setPhase .ten ⟨0, 0⟩ .waiting).ten with mail := [(9, zeros 8)] }, ⟨by decide +kernel, by decide +kernel, by decide +kernel, by first | with_reducible rfl | decide +kernel, by decide +kernel⟩⟩,
   ⟨regs [(TEN_STATUS.STATE, Tst.active), (DDR_CFG.CAP_GIB, 16), (TEN_CTL.EN, 1), (TEN_CTL.LANE_EN, 255), (TEN_CTL.MIN_WIDTH, 0), (PAR_CTL.EN, 1), (PAR_CTL.FWD_RESERVE, 64), (PAR_SHARD.STATE 5, 0), (CELL_SHARD.STATE 5, 2), (LEASE_SHARD.STATE 5, Lst.held), (SEP_SHARD.STATE 5, 2)] { State.reset with now := 10 ^ 13, ten := {  } }, 9, zeros 8, by decide +kernel⟩⟩

theorem witness_TenonForwardingMaintenanceMail_7 :
  (∃ (s : State) (d : DescRef) (f : Fetched) (tag : Nat) (bs : List Byte) (rest : List (Nat × List Byte)) (t : State), (s.startedAt .ten d Op.mailRecv = some f) ∧ (4096 ≤ f.len) ∧ (s.ten.mail = (tag, bs) :: rest) ∧ ((s.dmaWrite .ten f.dst bs (some d.ring)).toOption = some t)) ∧
  (∃ (s : State) (d : DescRef) (f : Fetched), (s.startedAt .ten d Op.mailRecv = some f) ∧ (4096 ≤ f.len) ∧ (s.ten.mail = [])) ∧
  (∃ (s : State) (tag nn : Nat) (addr : PAddr) (value : Word) (u : UnitId), (s.linkActive = true) ∧ (peerInitiator nn = true) ∧ (inCsr addr.toNat = true) ∧ (csrUnit (addr.toNat - csrBase) = some u) ∧ ((addr.toNat - csrBase) % 8 = 0) ∧ ((s.received 6 1).bit TEN_REG_ALLOW.UNIT (unitN u) = true)) ∧
  (∃ (s : State) (tag nn : Nat) (addr : PAddr) (value : Word) (u : UnitId), (s.linkActive = true) ∧ (peerInitiator nn = true) ∧ (inCsr addr.toNat = true) ∧ (csrUnit (addr.toNat - csrBase) = some u) ∧ ((addr.toNat - csrBase) % 8 = 0) ∧ ((s.received 6 1).bit TEN_REG_ALLOW.UNIT (unitN u) = false)) :=
  ⟨⟨holds .ten [desc 0 Op.mailRecv [(16, 8, 8192), (24, 4, 4096)] .started] (regs [(TEN_STATUS.STATE, Tst.active), (DDR_CFG.CAP_GIB, 16), (TEN_CTL.EN, 1), (TEN_CTL.LANE_EN, 255), (TEN_CTL.MIN_WIDTH, 0), (PAR_CTL.EN, 1), (PAR_CTL.FWD_RESERVE, 64), (PAR_SHARD.STATE 5, 0), (CELL_SHARD.STATE 5, 2), (LEASE_SHARD.STATE 5, Lst.held), (SEP_SHARD.STATE 5, 2)] { State.reset with now := 10 ^ 13, ten := { mail := [(9, zeros 8)] } }), ⟨0, 0⟩, desc 0 Op.mailRecv [(16, 8, 8192), (24, 4, 4096)] .started, 9, zeros 8, [], (((holds .ten [desc 0 Op.mailRecv [(16, 8, 8192), (24, 4, 4096)] .started] (regs [(TEN_STATUS.STATE, Tst.active), (DDR_CFG.CAP_GIB, 16), (TEN_CTL.EN, 1), (TEN_CTL.LANE_EN, 255), (TEN_CTL.MIN_WIDTH, 0), (PAR_CTL.EN, 1), (PAR_CTL.FWD_RESERVE, 64), (PAR_SHARD.STATE 5, 0), (CELL_SHARD.STATE 5, 2), (LEASE_SHARD.STATE 5, Lst.held), (SEP_SHARD.STATE 5, 2)] { State.reset with now := 10 ^ 13, ten := { mail := [(9, zeros 8)] } })).dmaWrite .ten 8192 (zeros 8) (some 0)).toOption.getD State.reset), by decide +kernel⟩,
   ⟨holds .ten [desc 0 Op.mailRecv [(16, 8, 8192), (24, 4, 4096)] .started] (regs [(TEN_STATUS.STATE, Tst.active), (DDR_CFG.CAP_GIB, 16), (TEN_CTL.EN, 1), (TEN_CTL.LANE_EN, 255), (TEN_CTL.MIN_WIDTH, 0), (PAR_CTL.EN, 1), (PAR_CTL.FWD_RESERVE, 64), (PAR_SHARD.STATE 5, 0), (CELL_SHARD.STATE 5, 2), (LEASE_SHARD.STATE 5, Lst.held), (SEP_SHARD.STATE 5, 2)] { State.reset with now := 10 ^ 13, ten := {  } }), ⟨0, 0⟩, desc 0 Op.mailRecv [(16, 8, 8192), (24, 4, 4096)] .started, by decide +kernel⟩,
   ⟨regs [(TEN_STATUS.STATE, Tst.active), (DDR_CFG.CAP_GIB, 16), (TEN_CTL.EN, 1), (TEN_CTL.LANE_EN, 255), (TEN_CTL.MIN_WIDTH, 0), (PAR_CTL.EN, 1), (PAR_CTL.FWD_RESERVE, 64), (PAR_SHARD.STATE 5, 0), (CELL_SHARD.STATE 5, 2), (LEASE_SHARD.STATE 5, Lst.held), (SEP_SHARD.STATE 5, 2), (TEN_REG_ALLOW.UNIT, 2 ^ (unitN .ten))] { State.reset with now := 10 ^ 13, ten := {  } }, 9, 0x80, BitVec.ofNat 48 (csrBase + unitBase .ten), 5, .ten, by decide +kernel⟩,
   ⟨regs [(TEN_STATUS.STATE, Tst.active), (DDR_CFG.CAP_GIB, 16), (TEN_CTL.EN, 1), (TEN_CTL.LANE_EN, 255), (TEN_CTL.MIN_WIDTH, 0), (PAR_CTL.EN, 1), (PAR_CTL.FWD_RESERVE, 64), (PAR_SHARD.STATE 5, 0), (CELL_SHARD.STATE 5, 2), (LEASE_SHARD.STATE 5, Lst.held), (SEP_SHARD.STATE 5, 2)] { State.reset with now := 10 ^ 13, ten := {  } }, 9, 0x80, BitVec.ofNat 48 (csrBase + unitBase .ten), 5, .ten, by decide +kernel⟩⟩

theorem witness_TenonForwardingMaintenanceMail_8 :
  (∃ (s : State) (tag nn : Nat) (addr : PAddr) (u : UnitId) (t : State), (s.linkActive = true) ∧ (peerInitiator nn = true) ∧ (inCsr addr.toNat = true) ∧ (csrUnit (addr.toNat - csrBase) = some u) ∧ ((addr.toNat - csrBase) % 8 = 0) ∧ (t = if State.implemented u (addr.toNat - csrBase) then s.received 6 1 else (s.received 6 1).unitErr u (0x400 + nn) (errOffset (addr.toNat - csrBase)) 2)) ∧
  (∃ (s : State) (tag nn : Nat) (addr : PAddr) (u : UnitId), (s.linkActive = true) ∧ (peerInitiator nn = true) ∧ (inCsr addr.toNat = true) ∧ (csrUnit (addr.toNat - csrBase) = some u) ∧ ((addr.toNat - csrBase) % 8 = 0) ∧ (State.implemented u (addr.toNat - csrBase) = true) ∧ (addr.toNat - csrBase < 0x5202000 ∨ 0x5204088 ≤ addr.toNat - csrBase)) :=
  ⟨⟨regs [(TEN_STATUS.STATE, Tst.active), (DDR_CFG.CAP_GIB, 16), (TEN_CTL.EN, 1), (TEN_CTL.LANE_EN, 255), (TEN_CTL.MIN_WIDTH, 0), (PAR_CTL.EN, 1), (PAR_CTL.FWD_RESERVE, 64), (PAR_SHARD.STATE 5, 0), (CELL_SHARD.STATE 5, 2), (LEASE_SHARD.STATE 5, Lst.held), (SEP_SHARD.STATE 5, 2)] { State.reset with now := 10 ^ 13, ten := {  } }, 9, 0x80, BitVec.ofNat 48 (csrBase + TEN_STATUS.STATE.reg), .ten, (regs [(TEN_STATUS.STATE, Tst.active), (DDR_CFG.CAP_GIB, 16), (TEN_CTL.EN, 1), (TEN_CTL.LANE_EN, 255), (TEN_CTL.MIN_WIDTH, 0), (PAR_CTL.EN, 1), (PAR_CTL.FWD_RESERVE, 64), (PAR_SHARD.STATE 5, 0), (CELL_SHARD.STATE 5, 2), (LEASE_SHARD.STATE 5, Lst.held), (SEP_SHARD.STATE 5, 2)] { State.reset with now := 10 ^ 13, ten := {  } }).received 6 1, ⟨by decide +kernel, by decide +kernel, by decide +kernel, by decide +kernel, by decide +kernel, by first | with_reducible rfl | decide +kernel⟩⟩,
   ⟨regs [(TEN_STATUS.STATE, Tst.active), (DDR_CFG.CAP_GIB, 16), (TEN_CTL.EN, 1), (TEN_CTL.LANE_EN, 255), (TEN_CTL.MIN_WIDTH, 0), (PAR_CTL.EN, 1), (PAR_CTL.FWD_RESERVE, 64), (PAR_SHARD.STATE 5, 0), (CELL_SHARD.STATE 5, 2), (LEASE_SHARD.STATE 5, Lst.held), (SEP_SHARD.STATE 5, 2)] { State.reset with now := 10 ^ 13, ten := {  } }, 9, 0x80, BitVec.ofNat 48 (csrBase + TEN_STATUS.STATE.reg), .ten, by decide +kernel⟩⟩

theorem witness_LeaseRoundsExpiriesAndMessages :
  (∃ (s : State), (s.on LEASE_CTL.EN = true) ∧ (s.leaseMode ≠ Lmode.abdicated) ∧ (s.leaseU.renewAt = none)) ∧
  (∃ (s : State) (at_ : Nat), (s.on LEASE_CTL.EN = true) ∧ (s.leaseMode ≠ Lmode.abdicated) ∧ (s.leaseU.renewAt = some at_) ∧ (s.passed at_ = true)) ∧
  (∃ (s : State), (s.leaseMode = Lmode.abdicated)) ∧
  (∃ (s : State) (sh : Nat), (s.renewed sh = true) ∧ (s.passed (s.leaseX sh).ends = true)) :=
  ⟨⟨regs [(DDR_CFG.CAP_GIB, 16), (LEASE_CTL.EN, 1), (LEASE_CFG.BLADES, 0), (LEASE_HB_CFG.HB_OUT_EN, 1), (LEASE_DRILL_CFG.EN, 1), (LEASE_DRILL_CFG.DRAIN_PAR, 4), (TEN_STATUS.STATE, Tst.active), (LEASE_SHARD.STATE 5, Lst.held)] { State.reset with now := 10 ^ 13, leaseU := { shards := [(5, {  })] } }, by decide +kernel⟩,
   ⟨regs [(DDR_CFG.CAP_GIB, 16), (LEASE_CTL.EN, 1), (LEASE_CFG.BLADES, 0), (LEASE_HB_CFG.HB_OUT_EN, 1), (LEASE_DRILL_CFG.EN, 1), (LEASE_DRILL_CFG.DRAIN_PAR, 4), (TEN_STATUS.STATE, Tst.active), (LEASE_SHARD.STATE 5, Lst.held)] { State.reset with now := 10 ^ 13, leaseU := { shards := [(5, {  })], renewAt := some 9 } }, 9, by decide +kernel⟩,
   ⟨regs [(DDR_CFG.CAP_GIB, 16), (LEASE_CTL.EN, 1), (LEASE_CFG.BLADES, 0), (LEASE_HB_CFG.HB_OUT_EN, 1), (LEASE_DRILL_CFG.EN, 1), (LEASE_DRILL_CFG.DRAIN_PAR, 4), (TEN_STATUS.STATE, Tst.active), (LEASE_SHARD.STATE 5, Lst.held), (LEASE_CTL.MODE, Lmode.abdicated)] { State.reset with now := 10 ^ 13, leaseU := { shards := [(5, {  })] } }, by decide +kernel⟩,
   ⟨regs [(DDR_CFG.CAP_GIB, 16), (LEASE_CTL.EN, 1), (LEASE_CFG.BLADES, 0), (LEASE_HB_CFG.HB_OUT_EN, 1), (LEASE_DRILL_CFG.EN, 1), (LEASE_DRILL_CFG.DRAIN_PAR, 4), (TEN_STATUS.STATE, Tst.active), (LEASE_SHARD.STATE 5, Lst.held)] { State.reset with now := 10 ^ 13, leaseU := { shards := [(5, {  })] } }, 5, by decide +kernel⟩⟩

theorem witness_LeaseRoundsExpiriesAndMessages_2 :
  (∃ (s : State) (sh : Nat), (s.renewed sh = true) ∧ (s.passed (s.leaseX sh).ends = false)) ∧
  (∃ (s : State) (sh : Nat), (s.due (s.leaseX sh).tailEnd = true)) ∧
  (∃ (s : State) (sh : Nat), (s.leaseSt sh = Lst.quiet) ∧ (s.due (s.leaseX sh).quietEnd = true) ∧ (s.now < (s.leaseX sh).ends)) ∧
  (∃ (s : State) (sh : Nat), (s.leaseSt sh = Lst.quiet) ∧ (s.due (s.leaseX sh).quietEnd = true) ∧ ((s.leaseX sh).ends ≤ s.now)) :=
  ⟨⟨regs [(DDR_CFG.CAP_GIB, 16), (LEASE_CTL.EN, 1), (LEASE_CFG.BLADES, 0), (LEASE_HB_CFG.HB_OUT_EN, 1), (LEASE_DRILL_CFG.EN, 1), (LEASE_DRILL_CFG.DRAIN_PAR, 4), (TEN_STATUS.STATE, Tst.active), (LEASE_SHARD.STATE 5, Lst.held)] { State.reset with now := 10 ^ 13, leaseU := { shards := [(5, { ends := 10 ^ 14 })] } }, 5, by decide +kernel⟩,
   ⟨regs [(DDR_CFG.CAP_GIB, 16), (LEASE_CTL.EN, 1), (LEASE_CFG.BLADES, 0), (LEASE_HB_CFG.HB_OUT_EN, 1), (LEASE_DRILL_CFG.EN, 1), (LEASE_DRILL_CFG.DRAIN_PAR, 4), (TEN_STATUS.STATE, Tst.active), (LEASE_SHARD.STATE 5, Lst.unknown)] { State.reset with now := 10 ^ 13, leaseU := { shards := [(5, { tailEnd := some 0 })] } }, 5, by decide +kernel⟩,
   ⟨regs [(DDR_CFG.CAP_GIB, 16), (LEASE_CTL.EN, 1), (LEASE_CFG.BLADES, 0), (LEASE_HB_CFG.HB_OUT_EN, 1), (LEASE_DRILL_CFG.EN, 1), (LEASE_DRILL_CFG.DRAIN_PAR, 4), (TEN_STATUS.STATE, Tst.active), (LEASE_SHARD.STATE 5, Lst.quiet)] { State.reset with now := 10 ^ 13, leaseU := { shards := [(5, { quietEnd := some 0, ends := 10 ^ 14 })] } }, 5, by decide +kernel⟩,
   ⟨regs [(DDR_CFG.CAP_GIB, 16), (LEASE_CTL.EN, 1), (LEASE_CFG.BLADES, 0), (LEASE_HB_CFG.HB_OUT_EN, 1), (LEASE_DRILL_CFG.EN, 1), (LEASE_DRILL_CFG.DRAIN_PAR, 4), (TEN_STATUS.STATE, Tst.active), (LEASE_SHARD.STATE 5, Lst.quiet)] { State.reset with now := 10 ^ 13, leaseU := { shards := [(5, { quietEnd := some 0 })] } }, 5, by decide +kernel⟩⟩

theorem witness_LeaseRoundsExpiriesAndMessages_3 :
  (∃ (s : State) (sh : Nat), (s.due (s.leaseX sh).readBy = true)) ∧
  (∃ (s : State) (sh epoch left : Nat) (running : Bool) (t : State), (s.linkActive = true) ∧ (t = s.received 1 1) ∧ (t.linkActive = true) ∧ (sh < 256)) ∧
  (∃ (s : State) (ls : List (Nat × Nat × Nat)) (running : Bool) (t u : State), (t = s.received 1 1) ∧ (t.linkActive = true) ∧ (u = t.setLease { t.leaseU with note := (ls.filter fun e => e.1 < 256).foldl (fun (a : Tab Nat) e => Tab.set a e.1 e.2.1) [], peerRunning := running })) ∧
  (∃ (s : State) (sh : Nat), (s.leaseSt sh = Lst.peerHeld) ∧ (s.passed ((s.leaseX sh).noteAt + 2 * s.rd LEASE_CFG.RENEW * mgmtTick) = true)) :=
  ⟨⟨regs [(DDR_CFG.CAP_GIB, 16), (LEASE_CTL.EN, 1), (LEASE_CFG.BLADES, 0), (LEASE_HB_CFG.HB_OUT_EN, 1), (LEASE_DRILL_CFG.EN, 1), (LEASE_DRILL_CFG.DRAIN_PAR, 4), (TEN_STATUS.STATE, Tst.active), (LEASE_SHARD.STATE 5, Lst.releasing)] { State.reset with now := 10 ^ 13, leaseU := { shards := [(5, { readBy := some 0 })] } }, 5, by decide +kernel⟩,
   ⟨regs [(DDR_CFG.CAP_GIB, 16), (LEASE_CTL.EN, 1), (LEASE_CFG.BLADES, 0), (LEASE_HB_CFG.HB_OUT_EN, 1), (LEASE_DRILL_CFG.EN, 1), (LEASE_DRILL_CFG.DRAIN_PAR, 4), (TEN_STATUS.STATE, Tst.active), (LEASE_SHARD.STATE 5, Lst.unknown)] { State.reset with now := 10 ^ 13, leaseU := { shards := [(5, {  })] } }, 5, 9, 3, true, (regs [(DDR_CFG.CAP_GIB, 16), (LEASE_CTL.EN, 1), (LEASE_CFG.BLADES, 0), (LEASE_HB_CFG.HB_OUT_EN, 1), (LEASE_DRILL_CFG.EN, 1), (LEASE_DRILL_CFG.DRAIN_PAR, 4), (TEN_STATUS.STATE, Tst.active), (LEASE_SHARD.STATE 5, Lst.unknown)] { State.reset with now := 10 ^ 13, leaseU := { shards := [(5, {  })] } }).received 1 1, ⟨by decide +kernel, by first | with_reducible rfl | decide +kernel, by decide +kernel, by decide +kernel⟩⟩,
   ⟨regs [(DDR_CFG.CAP_GIB, 16), (LEASE_CTL.EN, 1), (LEASE_CFG.BLADES, 0), (LEASE_HB_CFG.HB_OUT_EN, 1), (LEASE_DRILL_CFG.EN, 1), (LEASE_DRILL_CFG.DRAIN_PAR, 4), (TEN_STATUS.STATE, Tst.active), (LEASE_SHARD.STATE 5, Lst.unknown)] { State.reset with now := 10 ^ 13, leaseU := { shards := [(5, {  })] } }, [(5, 9, 3), (6, 4, 3)], true, (regs [(DDR_CFG.CAP_GIB, 16), (LEASE_CTL.EN, 1), (LEASE_CFG.BLADES, 0), (LEASE_HB_CFG.HB_OUT_EN, 1), (LEASE_DRILL_CFG.EN, 1), (LEASE_DRILL_CFG.DRAIN_PAR, 4), (TEN_STATUS.STATE, Tst.active), (LEASE_SHARD.STATE 5, Lst.unknown)] { State.reset with now := 10 ^ 13, leaseU := { shards := [(5, {  })] } }).received 1 1, ((regs [(DDR_CFG.CAP_GIB, 16), (LEASE_CTL.EN, 1), (LEASE_CFG.BLADES, 0), (LEASE_HB_CFG.HB_OUT_EN, 1), (LEASE_DRILL_CFG.EN, 1), (LEASE_DRILL_CFG.DRAIN_PAR, 4), (TEN_STATUS.STATE, Tst.active), (LEASE_SHARD.STATE 5, Lst.unknown)] { State.reset with now := 10 ^ 13, leaseU := { shards := [(5, {  })] } }).received 1 1).setLease { ((regs [(DDR_CFG.CAP_GIB, 16), (LEASE_CTL.EN, 1), (LEASE_CFG.BLADES, 0), (LEASE_HB_CFG.HB_OUT_EN, 1), (LEASE_DRILL_CFG.EN, 1), (LEASE_DRILL_CFG.DRAIN_PAR, 4), (TEN_STATUS.STATE, Tst.active), (LEASE_SHARD.STATE 5, Lst.unknown)] { State.reset with now := 10 ^ 13, leaseU := { shards := [(5, {  })] } }).received 1 1).leaseU with note := [(5, 9), (6, 4)], peerRunning := true }, ⟨by first | with_reducible rfl | decide +kernel, by decide +kernel, by first | with_reducible rfl | decide +kernel⟩⟩,
   ⟨regs [(DDR_CFG.CAP_GIB, 16), (LEASE_CTL.EN, 1), (LEASE_CFG.BLADES, 0), (LEASE_HB_CFG.HB_OUT_EN, 1), (LEASE_DRILL_CFG.EN, 1), (LEASE_DRILL_CFG.DRAIN_PAR, 4), (TEN_STATUS.STATE, Tst.active), (LEASE_SHARD.STATE 5, Lst.peerHeld)] { State.reset with now := 10 ^ 13, leaseU := { shards := [(5, {  })] } }, 5, by decide +kernel⟩⟩

theorem witness_LeaseRoundsExpiriesAndMessages_4 :
  (∃ (s : State) (sh epoch : Nat) (t u : State), (t = s.received 1 1) ∧ (t.linkActive = true) ∧ (t.on LEASE_CTL.EN = true) ∧ (t.leaseSt sh = Lst.unknown ∨ t.leaseSt sh = Lst.peerHeld) ∧ (u = t.setLeaseX sh { t.leaseX sh with counter := max (t.leaseX sh).counter (epoch / 2) }) ∧ (u.lossNow = false) ∧ (u.drainNow = false) ∧ (u.leaseMode = Lmode.running)) ∧
  (∃ (s : State) (sh epoch : Nat) (t u : State), (t = s.received 1 1) ∧ (t.linkActive = true) ∧ (t.on LEASE_CTL.EN = true) ∧ (t.leaseSt sh = Lst.unknown ∨ t.leaseSt sh = Lst.peerHeld) ∧ (u = t.setLeaseX sh { t.leaseX sh with counter := max (t.leaseX sh).counter (epoch / 2) }) ∧ (u.lossNow = false) ∧ (u.leaseMode ≠ Lmode.running ∨ u.drainNow = true)) ∧
  (∃ (s : State) (sh epoch : Nat) (t u : State), (t = s.received 1 1) ∧ (t.linkActive = true) ∧ (t.on LEASE_CTL.EN = true) ∧ (t.leaseSt sh = Lst.unknown ∨ t.leaseSt sh = Lst.peerHeld) ∧ (u = t.setLeaseX sh { t.leaseX sh with counter := max (t.leaseX sh).counter (epoch / 2) }) ∧ (u.lossNow = true)) ∧
  (∃ (s : State) (sh epoch w : Nat) (t : State), (t = s.received 1 1) ∧ (s.linkActive = true) ∧ (t.linkActive = true) ∧ (t.givenUp sh = true)) :=
  ⟨⟨regs [(DDR_CFG.CAP_GIB, 16), (LEASE_CTL.EN, 1), (LEASE_CFG.BLADES, 0), (LEASE_HB_CFG.HB_OUT_EN, 1), (LEASE_DRILL_CFG.EN, 1), (LEASE_DRILL_CFG.DRAIN_PAR, 4), (TEN_STATUS.STATE, Tst.active), (LEASE_SHARD.STATE 5, Lst.peerHeld)] { State.reset with now := 10 ^ 13, leaseU := { shards := [(5, {  })] } }, 5, 9, (regs [(DDR_CFG.CAP_GIB, 16), (LEASE_CTL.EN, 1), (LEASE_CFG.BLADES, 0), (LEASE_HB_CFG.HB_OUT_EN, 1), (LEASE_DRILL_CFG.EN, 1), (LEASE_DRILL_CFG.DRAIN_PAR, 4), (TEN_STATUS.STATE, Tst.active), (LEASE_SHARD.STATE 5, Lst.peerHeld)] { State.reset with now := 10 ^ 13, leaseU := { shards := [(5, {  })] } }).received 1 1, ((regs [(DDR_CFG.CAP_GIB, 16), (LEASE_CTL.EN, 1), (LEASE_CFG.BLADES, 0), (LEASE_HB_CFG.HB_OUT_EN, 1), (LEASE_DRILL_CFG.EN, 1), (LEASE_DRILL_CFG.DRAIN_PAR, 4), (TEN_STATUS.STATE, Tst.active), (LEASE_SHARD.STATE 5, Lst.peerHeld)] { State.reset with now := 10 ^ 13, leaseU := { shards := [(5, {  })] } }).received 1 1).setLeaseX 5 { ((regs [(DDR_CFG.CAP_GIB, 16), (LEASE_CTL.EN, 1), (LEASE_CFG.BLADES, 0), (LEASE_HB_CFG.HB_OUT_EN, 1), (LEASE_DRILL_CFG.EN, 1), (LEASE_DRILL_CFG.DRAIN_PAR, 4), (TEN_STATUS.STATE, Tst.active), (LEASE_SHARD.STATE 5, Lst.peerHeld)] { State.reset with now := 10 ^ 13, leaseU := { shards := [(5, {  })] } }).received 1 1).leaseX 5 with counter := max (((regs [(DDR_CFG.CAP_GIB, 16), (LEASE_CTL.EN, 1), (LEASE_CFG.BLADES, 0), (LEASE_HB_CFG.HB_OUT_EN, 1), (LEASE_DRILL_CFG.EN, 1), (LEASE_DRILL_CFG.DRAIN_PAR, 4), (TEN_STATUS.STATE, Tst.active), (LEASE_SHARD.STATE 5, Lst.peerHeld)] { State.reset with now := 10 ^ 13, leaseU := { shards := [(5, {  })] } }).received 1 1).leaseX 5).counter 4 }, ⟨by first | with_reducible rfl | decide +kernel, by decide +kernel, by decide +kernel, by decide +kernel, by first | with_reducible rfl | decide +kernel, by decide +kernel, by decide +kernel, by decide +kernel⟩⟩,
   ⟨regs [(DDR_CFG.CAP_GIB, 16), (LEASE_CTL.EN, 1), (LEASE_CFG.BLADES, 0), (LEASE_HB_CFG.HB_OUT_EN, 1), (LEASE_DRILL_CFG.EN, 1), (LEASE_DRILL_CFG.DRAIN_PAR, 4), (TEN_STATUS.STATE, Tst.active), (LEASE_SHARD.STATE 5, Lst.peerHeld), (LEASE_CTL.MODE, Lmode.drained)] { State.reset with now := 10 ^ 13, leaseU := { shards := [(5, {  })] } }, 5, 9, (regs [(DDR_CFG.CAP_GIB, 16), (LEASE_CTL.EN, 1), (LEASE_CFG.BLADES, 0), (LEASE_HB_CFG.HB_OUT_EN, 1), (LEASE_DRILL_CFG.EN, 1), (LEASE_DRILL_CFG.DRAIN_PAR, 4), (TEN_STATUS.STATE, Tst.active), (LEASE_SHARD.STATE 5, Lst.peerHeld), (LEASE_CTL.MODE, Lmode.drained)] { State.reset with now := 10 ^ 13, leaseU := { shards := [(5, {  })] } }).received 1 1, ((regs [(DDR_CFG.CAP_GIB, 16), (LEASE_CTL.EN, 1), (LEASE_CFG.BLADES, 0), (LEASE_HB_CFG.HB_OUT_EN, 1), (LEASE_DRILL_CFG.EN, 1), (LEASE_DRILL_CFG.DRAIN_PAR, 4), (TEN_STATUS.STATE, Tst.active), (LEASE_SHARD.STATE 5, Lst.peerHeld), (LEASE_CTL.MODE, Lmode.drained)] { State.reset with now := 10 ^ 13, leaseU := { shards := [(5, {  })] } }).received 1 1).setLeaseX 5 { ((regs [(DDR_CFG.CAP_GIB, 16), (LEASE_CTL.EN, 1), (LEASE_CFG.BLADES, 0), (LEASE_HB_CFG.HB_OUT_EN, 1), (LEASE_DRILL_CFG.EN, 1), (LEASE_DRILL_CFG.DRAIN_PAR, 4), (TEN_STATUS.STATE, Tst.active), (LEASE_SHARD.STATE 5, Lst.peerHeld), (LEASE_CTL.MODE, Lmode.drained)] { State.reset with now := 10 ^ 13, leaseU := { shards := [(5, {  })] } }).received 1 1).leaseX 5 with counter := max (((regs [(DDR_CFG.CAP_GIB, 16), (LEASE_CTL.EN, 1), (LEASE_CFG.BLADES, 0), (LEASE_HB_CFG.HB_OUT_EN, 1), (LEASE_DRILL_CFG.EN, 1), (LEASE_DRILL_CFG.DRAIN_PAR, 4), (TEN_STATUS.STATE, Tst.active), (LEASE_SHARD.STATE 5, Lst.peerHeld), (LEASE_CTL.MODE, Lmode.drained)] { State.reset with now := 10 ^ 13, leaseU := { shards := [(5, {  })] } }).received 1 1).leaseX 5).counter 4 }, ⟨by first | with_reducible rfl | decide +kernel, by decide +kernel, by decide +kernel, by decide +kernel, by first | with_reducible rfl | decide +kernel, by decide +kernel, by decide +kernel⟩⟩,
   ⟨regs [(DDR_CFG.CAP_GIB, 16), (LEASE_CTL.EN, 1), (LEASE_CFG.BLADES, 0), (LEASE_HB_CFG.HB_OUT_EN, 1), (LEASE_DRILL_CFG.EN, 1), (LEASE_DRILL_CFG.DRAIN_PAR, 4), (TEN_STATUS.STATE, Tst.active), (LEASE_SHARD.STATE 5, Lst.peerHeld)] { State.reset with now := 10 ^ 13, leaseU := { shards := [(5, {  })] }, pending := [.abdicate 1] }, 5, 9, (regs [(DDR_CFG.CAP_GIB, 16), (LEASE_CTL.EN, 1), (LEASE_CFG.BLADES, 0), (LEASE_HB_CFG.HB_OUT_EN, 1), (LEASE_DRILL_CFG.EN, 1), (LEASE_DRILL_CFG.DRAIN_PAR, 4), (TEN_STATUS.STATE, Tst.active), (LEASE_SHARD.STATE 5, Lst.peerHeld)] { State.reset with now := 10 ^ 13, leaseU := { shards := [(5, {  })] }, pending := [.abdicate 1] }).received 1 1, ((regs [(DDR_CFG.CAP_GIB, 16), (LEASE_CTL.EN, 1), (LEASE_CFG.BLADES, 0), (LEASE_HB_CFG.HB_OUT_EN, 1), (LEASE_DRILL_CFG.EN, 1), (LEASE_DRILL_CFG.DRAIN_PAR, 4), (TEN_STATUS.STATE, Tst.active), (LEASE_SHARD.STATE 5, Lst.peerHeld)] { State.reset with now := 10 ^ 13, leaseU := { shards := [(5, {  })] }, pending := [.abdicate 1] }).received 1 1).setLeaseX 5 { ((regs [(DDR_CFG.CAP_GIB, 16), (LEASE_CTL.EN, 1), (LEASE_CFG.BLADES, 0), (LEASE_HB_CFG.HB_OUT_EN, 1), (LEASE_DRILL_CFG.EN, 1), (LEASE_DRILL_CFG.DRAIN_PAR, 4), (TEN_STATUS.STATE, Tst.active), (LEASE_SHARD.STATE 5, Lst.peerHeld)] { State.reset with now := 10 ^ 13, leaseU := { shards := [(5, {  })] }, pending := [.abdicate 1] }).received 1 1).leaseX 5 with counter := max (((regs [(DDR_CFG.CAP_GIB, 16), (LEASE_CTL.EN, 1), (LEASE_CFG.BLADES, 0), (LEASE_HB_CFG.HB_OUT_EN, 1), (LEASE_DRILL_CFG.EN, 1), (LEASE_DRILL_CFG.DRAIN_PAR, 4), (TEN_STATUS.STATE, Tst.active), (LEASE_SHARD.STATE 5, Lst.peerHeld)] { State.reset with now := 10 ^ 13, leaseU := { shards := [(5, {  })] }, pending := [.abdicate 1] }).received 1 1).leaseX 5).counter 4 }, ⟨by first | with_reducible rfl | decide +kernel, by decide +kernel, by decide +kernel, by decide +kernel, by first | with_reducible rfl | decide +kernel, by decide +kernel⟩⟩,
   ⟨regs [(DDR_CFG.CAP_GIB, 16), (LEASE_CTL.EN, 1), (LEASE_CFG.BLADES, 0), (LEASE_HB_CFG.HB_OUT_EN, 1), (LEASE_DRILL_CFG.EN, 1), (LEASE_DRILL_CFG.DRAIN_PAR, 4), (TEN_STATUS.STATE, Tst.active), (LEASE_SHARD.STATE 5, Lst.releasing)] { State.reset with now := 10 ^ 13, leaseU := { shards := [(5, { committed := true })] } }, 5, 9, 7, (regs [(DDR_CFG.CAP_GIB, 16), (LEASE_CTL.EN, 1), (LEASE_CFG.BLADES, 0), (LEASE_HB_CFG.HB_OUT_EN, 1), (LEASE_DRILL_CFG.EN, 1), (LEASE_DRILL_CFG.DRAIN_PAR, 4), (TEN_STATUS.STATE, Tst.active), (LEASE_SHARD.STATE 5, Lst.releasing)] { State.reset with now := 10 ^ 13, leaseU := { shards := [(5, { committed := true })] } }).received 1 1, ⟨by first | with_reducible rfl | decide +kernel, by decide +kernel, by decide +kernel, by decide +kernel⟩⟩⟩

theorem witness_LeaseRoundsExpiriesAndMessages_5 :
  (∃ (s : State) (sh : Nat) (t : State), (t = s.received 1 1) ∧ (t.linkActive = true) ∧ (t.givenUp sh = true)) ∧
  (∃ (s : State) (sh : Nat) (t : State), (t = ((s.received 1 1).peerGone sh).reexecForwarded (fun x => x == sh)) ∧ ((s.received 1 1).linkActive = true) ∧ (t.on LEASE_CTL.AUTO_TAKE = false)) ∧
  (∃ (s : State) (sh : Nat) (t : State), (t = ((s.received 1 1).peerGone sh).reexecForwarded (fun x => x == sh)) ∧ ((s.received 1 1).linkActive = true) ∧ (t.on LEASE_CTL.AUTO_TAKE = true) ∧ (t.on LEASE_CTL.EN = true) ∧ (t.leaseMode = Lmode.running) ∧ (t.leaseSt sh = Lst.unknown)) ∧
  (∃ (s : State) (cause : Nat) (t : State), (t = s.received 1 1) ∧ (t.linkActive = true)) :=
  ⟨⟨regs [(DDR_CFG.CAP_GIB, 16), (LEASE_CTL.EN, 1), (LEASE_CFG.BLADES, 0), (LEASE_HB_CFG.HB_OUT_EN, 1), (LEASE_DRILL_CFG.EN, 1), (LEASE_DRILL_CFG.DRAIN_PAR, 4), (TEN_STATUS.STATE, Tst.active), (LEASE_SHARD.STATE 5, Lst.releasing)] { State.reset with now := 10 ^ 13, leaseU := { shards := [(5, { committed := true })] } }, 5, (regs [(DDR_CFG.CAP_GIB, 16), (LEASE_CTL.EN, 1), (LEASE_CFG.BLADES, 0), (LEASE_HB_CFG.HB_OUT_EN, 1), (LEASE_DRILL_CFG.EN, 1), (LEASE_DRILL_CFG.DRAIN_PAR, 4), (TEN_STATUS.STATE, Tst.active), (LEASE_SHARD.STATE 5, Lst.releasing)] { State.reset with now := 10 ^ 13, leaseU := { shards := [(5, { committed := true })] } }).received 1 1, ⟨by first | with_reducible rfl | decide +kernel, by decide +kernel, by decide +kernel⟩⟩,
   ⟨regs [(DDR_CFG.CAP_GIB, 16), (LEASE_CTL.EN, 1), (LEASE_CFG.BLADES, 0), (LEASE_HB_CFG.HB_OUT_EN, 1), (LEASE_DRILL_CFG.EN, 1), (LEASE_DRILL_CFG.DRAIN_PAR, 4), (TEN_STATUS.STATE, Tst.active), (LEASE_SHARD.STATE 5, Lst.peerHeld), (LEASE_CTL.AUTO_TAKE, 0)] { State.reset with now := 10 ^ 13, leaseU := { shards := [(5, {  })] } }, 5, (((regs [(DDR_CFG.CAP_GIB, 16), (LEASE_CTL.EN, 1), (LEASE_CFG.BLADES, 0), (LEASE_HB_CFG.HB_OUT_EN, 1), (LEASE_DRILL_CFG.EN, 1), (LEASE_DRILL_CFG.DRAIN_PAR, 4), (TEN_STATUS.STATE, Tst.active), (LEASE_SHARD.STATE 5, Lst.peerHeld), (LEASE_CTL.AUTO_TAKE, 0)] { State.reset with now := 10 ^ 13, leaseU := { shards := [(5, {  })] } }).received 1 1).peerGone 5).reexecForwarded (fun x => x == 5), ⟨by first | with_reducible rfl | decide +kernel, by decide +kernel, by decide +kernel⟩⟩,
   ⟨regs [(DDR_CFG.CAP_GIB, 16), (LEASE_CTL.EN, 1), (LEASE_CFG.BLADES, 0), (LEASE_HB_CFG.HB_OUT_EN, 1), (LEASE_DRILL_CFG.EN, 1), (LEASE_DRILL_CFG.DRAIN_PAR, 4), (TEN_STATUS.STATE, Tst.active), (LEASE_SHARD.STATE 5, Lst.peerHeld), (LEASE_CTL.AUTO_TAKE, 1)] { State.reset with now := 10 ^ 13, leaseU := { shards := [(5, {  })] } }, 5, (((regs [(DDR_CFG.CAP_GIB, 16), (LEASE_CTL.EN, 1), (LEASE_CFG.BLADES, 0), (LEASE_HB_CFG.HB_OUT_EN, 1), (LEASE_DRILL_CFG.EN, 1), (LEASE_DRILL_CFG.DRAIN_PAR, 4), (TEN_STATUS.STATE, Tst.active), (LEASE_SHARD.STATE 5, Lst.peerHeld), (LEASE_CTL.AUTO_TAKE, 1)] { State.reset with now := 10 ^ 13, leaseU := { shards := [(5, {  })] } }).received 1 1).peerGone 5).reexecForwarded (fun x => x == 5), ⟨by first | with_reducible rfl | decide +kernel, by decide +kernel, by decide +kernel, by decide +kernel, by decide +kernel, by decide +kernel⟩⟩,
   ⟨regs [(DDR_CFG.CAP_GIB, 16), (LEASE_CTL.EN, 1), (LEASE_CFG.BLADES, 0), (LEASE_HB_CFG.HB_OUT_EN, 1), (LEASE_DRILL_CFG.EN, 1), (LEASE_DRILL_CFG.DRAIN_PAR, 4), (TEN_STATUS.STATE, Tst.active), (LEASE_SHARD.STATE 5, Lst.peerHeld)] { State.reset with now := 10 ^ 13, leaseU := { shards := [(5, {  })] } }, 2, (regs [(DDR_CFG.CAP_GIB, 16), (LEASE_CTL.EN, 1), (LEASE_CFG.BLADES, 0), (LEASE_HB_CFG.HB_OUT_EN, 1), (LEASE_DRILL_CFG.EN, 1), (LEASE_DRILL_CFG.DRAIN_PAR, 4), (TEN_STATUS.STATE, Tst.active), (LEASE_SHARD.STATE 5, Lst.peerHeld)] { State.reset with now := 10 ^ 13, leaseU := { shards := [(5, {  })] } }).received 1 1, ⟨by first | with_reducible rfl | decide +kernel, by decide +kernel⟩⟩⟩

theorem witness_LeaseTakeoverHeartbeatDrills :
  (∃ (s : State) (sh b : Nat), (s.leaseSt sh = Lst.winning) ∧ (s.due (Tab.get? (s.leaseX sh).ready b) = true) ∧ ((s.leaseX sh).sent.contains b = false)) ∧
  (∃ (s : State) (sh : Nat), (s.due (s.leaseX sh).takeBy = true) ∧ (s.leaseSt sh ≠ Lst.winning) ∧ (s.givenUp sh = true)) ∧
  (∃ (s : State) (sh : Nat) (t : State), (s.due (s.leaseX sh).takeBy = true) ∧ (s.leaseSt sh = Lst.winning) ∧ ((s.leaseX sh).take = none) ∧ (t = s.releaseOn sh (s.rd (LEASE_EPOCH.EPOCH sh)) (s.leaseX sh).accepts)) ∧
  (∃ (s : State) (sh : Nat) (d : DescRef) (t : State), (s.due (s.leaseX sh).takeBy = true) ∧ (s.leaseSt sh = Lst.winning) ∧ ((s.leaseX sh).take = some d) ∧ (t = s.releaseOn sh (s.rd (LEASE_EPOCH.EPOCH sh)) (s.leaseX sh).accepts)) :=
  ⟨⟨regs [(DDR_CFG.CAP_GIB, 16), (LEASE_CTL.EN, 1), (LEASE_CFG.BLADES, 0), (LEASE_HB_CFG.HB_OUT_EN, 1), (LEASE_DRILL_CFG.EN, 1), (LEASE_DRILL_CFG.DRAIN_PAR, 4), (TEN_STATUS.STATE, Tst.active), (LEASE_SHARD.STATE 5, Lst.winning), (LEASE_SHARD.BY_TAKE 5, 1)] { State.reset with now := 10 ^ 13, leaseU := { shards := [(5, { ready := [(3, 0)] })] } }, 5, 3, by decide +kernel⟩,
   ⟨regs [(DDR_CFG.CAP_GIB, 16), (LEASE_CTL.EN, 1), (LEASE_CFG.BLADES, 0), (LEASE_HB_CFG.HB_OUT_EN, 1), (LEASE_DRILL_CFG.EN, 1), (LEASE_DRILL_CFG.DRAIN_PAR, 4), (TEN_STATUS.STATE, Tst.active), (LEASE_SHARD.STATE 5, Lst.releasing)] { State.reset with now := 10 ^ 13, leaseU := { shards := [(5, { committed := true, takeBy := some 0 })] } }, 5, by decide +kernel⟩,
   ⟨regs [(DDR_CFG.CAP_GIB, 16), (LEASE_CTL.EN, 1), (LEASE_CFG.BLADES, 0), (LEASE_HB_CFG.HB_OUT_EN, 1), (LEASE_DRILL_CFG.EN, 1), (LEASE_DRILL_CFG.DRAIN_PAR, 4), (TEN_STATUS.STATE, Tst.active), (LEASE_SHARD.STATE 5, Lst.winning)] { State.reset with now := 10 ^ 13, leaseU := { shards := [(5, { takeBy := some 0 })] } }, 5, regs [(DDR_CFG.CAP_GIB, 16), (LEASE_CTL.EN, 1), (LEASE_CFG.BLADES, 0), (LEASE_HB_CFG.HB_OUT_EN, 1), (LEASE_DRILL_CFG.EN, 1), (LEASE_DRILL_CFG.DRAIN_PAR, 4), (TEN_STATUS.STATE, Tst.active), (LEASE_SHARD.STATE 5, Lst.winning)] { State.reset with now := 10 ^ 13, leaseU := { shards := [(5, { takeBy := some 0 })] } }, ⟨by decide +kernel, by decide +kernel, by decide +kernel, by first | with_reducible rfl | decide +kernel⟩⟩,
   ⟨holds .lease [desc 0 Op.take [(28, 1, 5)] .started] (regs [(DDR_CFG.CAP_GIB, 16), (LEASE_CTL.EN, 1), (LEASE_CFG.BLADES, 0), (LEASE_HB_CFG.HB_OUT_EN, 1), (LEASE_DRILL_CFG.EN, 1), (LEASE_DRILL_CFG.DRAIN_PAR, 4), (TEN_STATUS.STATE, Tst.active), (LEASE_SHARD.STATE 5, Lst.winning)] { State.reset with now := 10 ^ 13, leaseU := { shards := [(5, { takeBy := some 0, take := some ⟨0, 0⟩ })] } }), 5, ⟨0, 0⟩, holds .lease [desc 0 Op.take [(28, 1, 5)] .started] (regs [(DDR_CFG.CAP_GIB, 16), (LEASE_CTL.EN, 1), (LEASE_CFG.BLADES, 0), (LEASE_HB_CFG.HB_OUT_EN, 1), (LEASE_DRILL_CFG.EN, 1), (LEASE_DRILL_CFG.DRAIN_PAR, 4), (TEN_STATUS.STATE, Tst.active), (LEASE_SHARD.STATE 5, Lst.winning)] { State.reset with now := 10 ^ 13, leaseU := { shards := [(5, { takeBy := some 0, take := some ⟨0, 0⟩ })] } }), ⟨by decide +kernel, by decide +kernel, by decide +kernel, by first | with_reducible rfl | decide +kernel⟩⟩⟩

theorem witness_LeaseTakeoverHeartbeatDrills_2 :
  (∃ (s : State) (at_ : Nat) (p : Pins), (s.on LEASE_HB_CFG.HB_OUT_EN = true) ∧ (s.leaseMode ≠ Lmode.abdicated) ∧ (s.solo = false) ∧ (s.boot.cold = false) ∧ (s.boot.warmUntil = none) ∧ (s.leaseU.hbOutAt = some at_) ∧ (s.passed at_ = true) ∧ (p = { s.pins with hbOut := !s.pins.hbOut })) ∧
  (∃ (s : State) (p : Pins), (s.on LEASE_HB_CFG.HB_OUT_EN = true) ∧ (s.leaseMode ≠ Lmode.abdicated) ∧ (s.solo = false) ∧ (s.boot.cold = false) ∧ (s.boot.warmUntil = none) ∧ (s.leaseU.hbOutAt = none) ∧ (p = { s.pins with hbOut := !s.pins.hbOut })) ∧
  (∃ (s : State) (at_ : Nat), (s.leaseU.hbOutAt = some at_) ∧ (s.passed at_ = false)) ∧
  (∃ (s : State), (s.hbDead = true) ∧ (s.passed (s.leaseU.hbInAt + s.rd LEASE_HB_CFG.HB_LOSS) = true) ∧ (s.on LEASE_STATUS.HB_IN_OK = false ∨ (s.wr LEASE_STATUS.HB_IN_OK 0).linkActive = false)) :=
  ⟨⟨regs [(DDR_CFG.CAP_GIB, 16), (LEASE_CTL.EN, 1), (LEASE_CFG.BLADES, 0), (LEASE_HB_CFG.HB_OUT_EN, 1), (LEASE_DRILL_CFG.EN, 1), (LEASE_DRILL_CFG.DRAIN_PAR, 4), (TEN_STATUS.STATE, Tst.active), (LEASE_SHARD.STATE 5, Lst.held)] { State.reset with now := 10 ^ 13, leaseU := { shards := [(5, {  })], hbOutAt := some 0 }, boot := { State.reset.boot with cold := false } }, 0, { State.reset.pins with hbOut := !State.reset.pins.hbOut }, by decide +kernel⟩,
   ⟨regs [(DDR_CFG.CAP_GIB, 16), (LEASE_CTL.EN, 1), (LEASE_CFG.BLADES, 0), (LEASE_HB_CFG.HB_OUT_EN, 1), (LEASE_DRILL_CFG.EN, 1), (LEASE_DRILL_CFG.DRAIN_PAR, 4), (TEN_STATUS.STATE, Tst.active), (LEASE_SHARD.STATE 5, Lst.held)] { State.reset with now := 10 ^ 13, leaseU := { shards := [(5, {  })] }, boot := { State.reset.boot with cold := false } }, { State.reset.pins with hbOut := !State.reset.pins.hbOut }, by decide +kernel⟩,
   ⟨regs [(DDR_CFG.CAP_GIB, 16), (LEASE_CTL.EN, 1), (LEASE_CFG.BLADES, 0), (LEASE_HB_CFG.HB_OUT_EN, 1), (LEASE_DRILL_CFG.EN, 1), (LEASE_DRILL_CFG.DRAIN_PAR, 4), (TEN_STATUS.STATE, Tst.active), (LEASE_SHARD.STATE 5, Lst.held)] { State.reset with now := 10 ^ 13, leaseU := { shards := [(5, {  })], hbOutAt := some (10 ^ 14) } }, 10 ^ 14, by decide +kernel⟩,
   ⟨regs [(DDR_CFG.CAP_GIB, 16), (LEASE_CTL.EN, 1), (LEASE_CFG.BLADES, 0), (LEASE_HB_CFG.HB_OUT_EN, 1), (LEASE_DRILL_CFG.EN, 1), (LEASE_DRILL_CFG.DRAIN_PAR, 4), (TEN_STATUS.STATE, Tst.active), (LEASE_SHARD.STATE 5, Lst.held)] { State.reset with now := 10 ^ 13, leaseU := { shards := [(5, {  })] } }, by decide +kernel⟩⟩

theorem witness_LeaseTakeoverHeartbeatDrills_3 :
  (∃ (s : State), (s.hbDead = true) ∧ (s.passed (s.leaseU.hbInAt + s.rd LEASE_HB_CFG.HB_LOSS) = true) ∧ (s.on LEASE_STATUS.HB_IN_OK = true) ∧ ((s.wr LEASE_STATUS.HB_IN_OK 0).linkActive = true)) ∧
  (∃ (s : State), (s.hbDead = false)) ∧
  (∃ (s : State), (s.on LEASE_CTL.EN = true) ∧ (s.solo = false) ∧ (s.leaseU.peerLost = false) ∧ (s.hbDead = true) ∧ (s.linkDead = true) ∧ (s.activating = false)) ∧
  (∃ (s : State), (s.on LEASE_CTL.EN = true) ∧ (s.solo = false) ∧ (s.leaseU.peerLost = false) ∧ (s.hbDead = true) ∧ (s.linkDead = true) ∧ (s.activating = true)) :=
  ⟨⟨regs [(DDR_CFG.CAP_GIB, 16), (LEASE_CTL.EN, 1), (LEASE_CFG.BLADES, 0), (LEASE_HB_CFG.HB_OUT_EN, 1), (LEASE_DRILL_CFG.EN, 1), (LEASE_DRILL_CFG.DRAIN_PAR, 4), (TEN_STATUS.STATE, Tst.active), (LEASE_SHARD.STATE 5, Lst.held), (LEASE_STATUS.HB_IN_OK, 1)] { State.reset with now := 10 ^ 13, leaseU := { shards := [(5, {  })] } }, by decide +kernel⟩,
   ⟨regs [(DDR_CFG.CAP_GIB, 16), (LEASE_CTL.EN, 1), (LEASE_CFG.BLADES, 0), (LEASE_HB_CFG.HB_OUT_EN, 1), (LEASE_DRILL_CFG.EN, 1), (LEASE_DRILL_CFG.DRAIN_PAR, 4), (TEN_STATUS.STATE, Tst.active), (LEASE_SHARD.STATE 5, Lst.held), (LEASE_HB_CFG.HB_LOSS, 3000000)] { State.reset with now := 10 ^ 13, leaseU := { shards := [(5, {  })], hbInAt := 10 ^ 13 } }, by decide +kernel⟩,
   ⟨regs [(DDR_CFG.CAP_GIB, 16), (LEASE_CTL.EN, 1), (LEASE_CFG.BLADES, 0), (LEASE_HB_CFG.HB_OUT_EN, 1), (LEASE_DRILL_CFG.EN, 1), (LEASE_DRILL_CFG.DRAIN_PAR, 4), (TEN_STATUS.STATE, Tst.active), (LEASE_SHARD.STATE 5, Lst.held)] { State.reset with now := 10 ^ 13, leaseU := { shards := [(5, {  })], linkOut := some 0 } }, by decide +kernel⟩,
   ⟨regs [(DDR_CFG.CAP_GIB, 16), (LEASE_CTL.EN, 1), (LEASE_CFG.BLADES, 0), (LEASE_HB_CFG.HB_OUT_EN, 1), (LEASE_DRILL_CFG.EN, 1), (LEASE_DRILL_CFG.DRAIN_PAR, 4), (TEN_STATUS.STATE, Tst.active), (LEASE_SHARD.STATE 5, Lst.held)] { State.reset with now := 10 ^ 13, leaseU := { shards := [(5, {  })], linkOut := some 0 }, jig := { State.reset.jig with acts := [(1, ⟨0, 0⟩)] } }, by decide +kernel⟩⟩

theorem witness_LeaseTakeoverHeartbeatDrills_4 :
  (∃ (s : State) (origin : Origin), (s.originThere origin.toNat = true) ∧ (s.audited false origin.toNat = false) ∧ (s.on LEASE_CTL.EN = false)) ∧
  (∃ (s : State) (origin : Origin), (s.originThere origin.toNat = true) ∧ (s.audited false origin.toNat = false) ∧ (s.on LEASE_CTL.EN = true)) ∧
  (∃ (s : State), (s.due s.leaseU.wdogBy = true)) ∧
  (∃ (s : State) (origin : Origin), (s.admits .lease origin = true)) :=
  ⟨⟨State.reset, 0, by decide +kernel⟩,
   ⟨regs [(DDR_CFG.CAP_GIB, 16), (LEASE_CTL.EN, 1), (LEASE_CFG.BLADES, 0), (LEASE_HB_CFG.HB_OUT_EN, 1), (LEASE_DRILL_CFG.EN, 1), (LEASE_DRILL_CFG.DRAIN_PAR, 4), (TEN_STATUS.STATE, Tst.active), (LEASE_SHARD.STATE 5, Lst.held)] { State.reset with now := 10 ^ 13, leaseU := { shards := [(5, {  })] } }, 0, by decide +kernel⟩,
   ⟨regs [(DDR_CFG.CAP_GIB, 16), (LEASE_CTL.EN, 1), (LEASE_CFG.BLADES, 0), (LEASE_HB_CFG.HB_OUT_EN, 1), (LEASE_DRILL_CFG.EN, 1), (LEASE_DRILL_CFG.DRAIN_PAR, 4), (TEN_STATUS.STATE, Tst.active), (LEASE_SHARD.STATE 5, Lst.held)] { State.reset with now := 10 ^ 13, leaseU := { shards := [(5, {  })], wdogBy := some 0 } }, by decide +kernel⟩,
   ⟨regs [(DDR_CFG.CAP_GIB, 16), (LEASE_CTL.EN, 1), (LEASE_CFG.BLADES, 0), (LEASE_HB_CFG.HB_OUT_EN, 1), (LEASE_DRILL_CFG.EN, 1), (LEASE_DRILL_CFG.DRAIN_PAR, 4), (TEN_STATUS.STATE, Tst.active), (LEASE_SHARD.STATE 5, Lst.held)] { State.reset with now := 10 ^ 13, leaseU := { shards := [(5, {  })] } }, 0, by decide +kernel⟩⟩

theorem witness_LeaseTakeoverHeartbeatDrills_5 :
  (∃ (s : State) (c : Cool), (c = { s.cool with fatal := false })) ∧
  (∃ (s : State) (sh k p : Nat), (s.on LEASE_CTL.EN = true) ∧ (s.on LEASE_DRILL_CFG.EN = true) ∧ (s.solo = false) ∧ (k = s.now / mgmtTick) ∧ (p = s.rd LEASE_DRILL_CFG.PERIOD) ∧ (k % p = sh * p / 256) ∧ ((s.leaseX sh).drillAt ≠ k + 1) ∧ (s.linkActive = true) ∧ (s.leaseU.peerRunning = true) ∧ (s.leaseMode = Lmode.running) ∧ (s.rd (PAR_SHARD.STATE sh) = Pst.owned)) ∧
  (∃ (s : State) (sh : Nat), (s.due (s.leaseX sh).drillBy = true)) :=
  ⟨⟨regs [(DDR_CFG.CAP_GIB, 16), (LEASE_CTL.EN, 1), (LEASE_CFG.BLADES, 0), (LEASE_HB_CFG.HB_OUT_EN, 1), (LEASE_DRILL_CFG.EN, 1), (LEASE_DRILL_CFG.DRAIN_PAR, 4), (TEN_STATUS.STATE, Tst.active), (LEASE_SHARD.STATE 5, Lst.held)] { State.reset with now := 10 ^ 13, leaseU := { shards := [(5, {  })] } }, {}, by decide +kernel⟩,
   ⟨regs [(DDR_CFG.CAP_GIB, 16), (LEASE_CTL.EN, 1), (LEASE_CFG.BLADES, 0), (LEASE_HB_CFG.HB_OUT_EN, 1), (LEASE_DRILL_CFG.EN, 1), (LEASE_DRILL_CFG.DRAIN_PAR, 4), (TEN_STATUS.STATE, Tst.active), (LEASE_SHARD.STATE 5, Lst.held), (LEASE_DRILL_CFG.PERIOD, 256), (PAR_SHARD.STATE 5, 0)] { State.reset with now := 5 * mgmtTick, leaseU := { shards := [(5, {  })] } }, 5, 5, 256, by decide +kernel⟩,
   ⟨regs [(DDR_CFG.CAP_GIB, 16), (LEASE_CTL.EN, 1), (LEASE_CFG.BLADES, 0), (LEASE_HB_CFG.HB_OUT_EN, 1), (LEASE_DRILL_CFG.EN, 1), (LEASE_DRILL_CFG.DRAIN_PAR, 4), (TEN_STATUS.STATE, Tst.active), (LEASE_SHARD.STATE 5, Lst.held)] { State.reset with now := 10 ^ 13, leaseU := { shards := [(5, { drillBy := some 0 })] } }, 5, by decide +kernel⟩⟩

theorem witness_LeaseDescriptors :
  (∃ (s : State) (d : DescRef) (f : Fetched) (t : State), (s.startedAt .lease d Op.handoffBegin = some f) ∧ (s.solo = false) ∧ ((s.leaseX (f.at 28 1)).begin_ ≠ some d) ∧ (s.leaseSt (f.at 28 1) = Lst.held) ∧ (((List.range 256).filter fun k => s.leaseSt k == Lst.releasing).length < s.rd LEASE_DRILL_CFG.DRAIN_PAR) ∧ (s.linkActive = true) ∧ (t = s.setLeaseSt (f.at 28 1) Lst.releasing) ∧ (t.commitsOpen (f.at 28 1) = false)) ∧
  (∃ (s : State) (d : DescRef) (f : Fetched) (t : State), (s.startedAt .lease d Op.handoffBegin = some f) ∧ (s.solo = false) ∧ ((s.leaseX (f.at 28 1)).begin_ ≠ some d) ∧ (s.leaseSt (f.at 28 1) = Lst.held) ∧ (((List.range 256).filter fun k => s.leaseSt k == Lst.releasing).length < s.rd LEASE_DRILL_CFG.DRAIN_PAR) ∧ (s.linkActive = true) ∧ (t = s.setLeaseSt (f.at 28 1) Lst.releasing) ∧ (t.commitsOpen (f.at 28 1) = true)) ∧
  (∃ (s : State) (d : DescRef) (f : Fetched), (s.startedAt .lease d Op.handoffBegin = some f) ∧ (s.solo = false) ∧ ((s.leaseX (f.at 28 1)).begin_ ≠ some d) ∧ (s.leaseSt (f.at 28 1) = Lst.held) ∧ (s.rd LEASE_DRILL_CFG.DRAIN_PAR ≤ ((List.range 256).filter fun k => s.leaseSt k == Lst.releasing).length)) ∧
  (∃ (s : State) (d : DescRef) (f : Fetched), (s.startedAt .lease d Op.handoffBegin = some f) ∧ (s.solo = false) ∧ ((s.leaseX (f.at 28 1)).begin_ ≠ some d) ∧ (s.leaseSt (f.at 28 1) = Lst.held) ∧ (((List.range 256).filter fun k => s.leaseSt k == Lst.releasing).length < s.rd LEASE_DRILL_CFG.DRAIN_PAR) ∧ (s.linkActive = false)) :=
  ⟨⟨holds .lease [desc 0 Op.handoffBegin [(28, 1, 5)] .started] (regs [(DDR_CFG.CAP_GIB, 16), (LEASE_CTL.EN, 1), (LEASE_CFG.BLADES, 0), (LEASE_HB_CFG.HB_OUT_EN, 1), (LEASE_DRILL_CFG.EN, 1), (LEASE_DRILL_CFG.DRAIN_PAR, 4), (TEN_STATUS.STATE, Tst.active), (LEASE_SHARD.STATE 5, Lst.held)] { State.reset with now := 10 ^ 13, leaseU := { shards := [(5, {  })] } }), ⟨0, 0⟩, desc 0 Op.handoffBegin [(28, 1, 5)] .started, (holds .lease [desc 0 Op.handoffBegin [(28, 1, 5)] .started] (regs [(DDR_CFG.CAP_GIB, 16), (LEASE_CTL.EN, 1), (LEASE_CFG.BLADES, 0), (LEASE_HB_CFG.HB_OUT_EN, 1), (LEASE_DRILL_CFG.EN, 1), (LEASE_DRILL_CFG.DRAIN_PAR, 4), (TEN_STATUS.STATE, Tst.active), (LEASE_SHARD.STATE 5, Lst.held)] { State.reset with now := 10 ^ 13, leaseU := { shards := [(5, {  })] } })).setLeaseSt 5 Lst.releasing, ⟨by decide +kernel, by decide +kernel, by decide +kernel, by decide +kernel, by decide +kernel, by decide +kernel, by first | with_reducible rfl | decide +kernel, by decide +kernel⟩⟩,
   ⟨holds .lease [desc 0 Op.handoffBegin [(28, 1, 5)] .started] (regs [(DDR_CFG.CAP_GIB, 16), (LEASE_CTL.EN, 1), (LEASE_CFG.BLADES, 0), (LEASE_HB_CFG.HB_OUT_EN, 1), (LEASE_DRILL_CFG.EN, 1), (LEASE_DRILL_CFG.DRAIN_PAR, 4), (TEN_STATUS.STATE, Tst.active), (LEASE_SHARD.STATE 5, Lst.held)] { State.reset with now := 10 ^ 13, leaseU := { shards := [(5, {  })] }, par := { cmds := [(0, { sqe := image 64 [(0, 1, 1), (4, 4, 1)], ctx := some 3, cntlid := 1, qid := 1, cls := 0, tenant := 0, vol := 0, stage := .running, since := 0, begun := true, commit := true, blks := [{ block := 20480, step := .wait }] })] } }), ⟨0, 0⟩, desc 0 Op.handoffBegin [(28, 1, 5)] .started, (holds .lease [desc 0 Op.handoffBegin [(28, 1, 5)] .started] (regs [(DDR_CFG.CAP_GIB, 16), (LEASE_CTL.EN, 1), (LEASE_CFG.BLADES, 0), (LEASE_HB_CFG.HB_OUT_EN, 1), (LEASE_DRILL_CFG.EN, 1), (LEASE_DRILL_CFG.DRAIN_PAR, 4), (TEN_STATUS.STATE, Tst.active), (LEASE_SHARD.STATE 5, Lst.held)] { State.reset with now := 10 ^ 13, leaseU := { shards := [(5, {  })] }, par := { cmds := [(0, { sqe := image 64 [(0, 1, 1), (4, 4, 1)], ctx := some 3, cntlid := 1, qid := 1, cls := 0, tenant := 0, vol := 0, stage := .running, since := 0, begun := true, commit := true, blks := [{ block := 20480, step := .wait }] })] } })).setLeaseSt 5 Lst.releasing, ⟨by decide +kernel, by decide +kernel, by decide +kernel, by decide +kernel, by decide +kernel, by decide +kernel, by first | with_reducible rfl | decide +kernel, by decide +kernel⟩⟩,
   ⟨holds .lease [desc 0 Op.handoffBegin [(28, 1, 5)] .started] (regs [(DDR_CFG.CAP_GIB, 16), (LEASE_CTL.EN, 1), (LEASE_CFG.BLADES, 0), (LEASE_HB_CFG.HB_OUT_EN, 1), (LEASE_DRILL_CFG.EN, 1), (LEASE_DRILL_CFG.DRAIN_PAR, 4), (TEN_STATUS.STATE, Tst.active), (LEASE_SHARD.STATE 5, Lst.held), (LEASE_DRILL_CFG.DRAIN_PAR, 0)] { State.reset with now := 10 ^ 13, leaseU := { shards := [(5, {  })] } }), ⟨0, 0⟩, desc 0 Op.handoffBegin [(28, 1, 5)] .started, by decide +kernel⟩,
   ⟨holds .lease [desc 0 Op.handoffBegin [(28, 1, 5)] .started] (regs [(DDR_CFG.CAP_GIB, 16), (LEASE_CTL.EN, 1), (LEASE_CFG.BLADES, 0), (LEASE_HB_CFG.HB_OUT_EN, 1), (LEASE_DRILL_CFG.EN, 1), (LEASE_DRILL_CFG.DRAIN_PAR, 4), (TEN_STATUS.STATE, Tst.active), (LEASE_SHARD.STATE 5, Lst.held), (TEN_STATUS.STATE, Tst.down)] { State.reset with now := 10 ^ 13, leaseU := { shards := [(5, {  })] } }), ⟨0, 0⟩, desc 0 Op.handoffBegin [(28, 1, 5)] .started, by decide +kernel⟩⟩

theorem witness_LeaseDescriptors_2 :
  (∃ (s : State) (d : DescRef) (f : Fetched), (s.startedAt .lease d Op.handoffBegin = some f) ∧ (s.solo = false) ∧ ((s.leaseX (f.at 28 1)).begin_ = some d) ∧ (s.commitsOpen (f.at 28 1) = false)) ∧
  (∃ (s : State) (d : DescRef) (f : Fetched), (s.startedAt .lease d Op.handoffCommit = some f) ∧ (s.solo = false) ∧ ((s.leaseX (f.at 28 1)).commit ≠ some d) ∧ (s.leaseSt (f.at 28 1) ≠ Lst.releasing ∨ (s.leaseX (f.at 28 1)).committed = true ∨ (s.leaseX (f.at 28 1)).begin_ ≠ none)) ∧
  (∃ (s : State) (d : DescRef) (f : Fetched), (s.startedAt .lease d Op.handoffAbort = some f) ∧ (s.solo = false) ∧ (s.leaseSt (f.at 28 1) ≠ Lst.releasing ∨ (s.leaseX (f.at 28 1)).committed = true)) ∧
  (∃ (s : State) (d e : DescRef) (f : Fetched), (s.startedAt .lease d Op.handoffAbort = some f) ∧ (s.solo = false) ∧ (s.leaseSt (f.at 28 1) = Lst.releasing) ∧ ((s.leaseX (f.at 28 1)).committed = false) ∧ ((s.leaseX (f.at 28 1)).begin_ = some e)) :=
  ⟨⟨holds .lease [desc 0 Op.handoffBegin [(28, 1, 5)] .started] (regs [(DDR_CFG.CAP_GIB, 16), (LEASE_CTL.EN, 1), (LEASE_CFG.BLADES, 0), (LEASE_HB_CFG.HB_OUT_EN, 1), (LEASE_DRILL_CFG.EN, 1), (LEASE_DRILL_CFG.DRAIN_PAR, 4), (TEN_STATUS.STATE, Tst.active), (LEASE_SHARD.STATE 5, Lst.releasing)] { State.reset with now := 10 ^ 13, leaseU := { shards := [(5, { begin_ := some ⟨0, 0⟩ })] } }), ⟨0, 0⟩, desc 0 Op.handoffBegin [(28, 1, 5)] .started, by decide +kernel⟩,
   ⟨holds .lease [desc 0 Op.handoffCommit [(28, 1, 5)] .started] (regs [(DDR_CFG.CAP_GIB, 16), (LEASE_CTL.EN, 1), (LEASE_CFG.BLADES, 0), (LEASE_HB_CFG.HB_OUT_EN, 1), (LEASE_DRILL_CFG.EN, 1), (LEASE_DRILL_CFG.DRAIN_PAR, 4), (TEN_STATUS.STATE, Tst.active), (LEASE_SHARD.STATE 5, Lst.held)] { State.reset with now := 10 ^ 13, leaseU := { shards := [(5, {  })] } }), ⟨0, 0⟩, desc 0 Op.handoffCommit [(28, 1, 5)] .started, by decide +kernel⟩,
   ⟨holds .lease [desc 0 Op.handoffAbort [(28, 1, 5)] .started] (regs [(DDR_CFG.CAP_GIB, 16), (LEASE_CTL.EN, 1), (LEASE_CFG.BLADES, 0), (LEASE_HB_CFG.HB_OUT_EN, 1), (LEASE_DRILL_CFG.EN, 1), (LEASE_DRILL_CFG.DRAIN_PAR, 4), (TEN_STATUS.STATE, Tst.active), (LEASE_SHARD.STATE 5, Lst.held)] { State.reset with now := 10 ^ 13, leaseU := { shards := [(5, {  })] } }), ⟨0, 0⟩, desc 0 Op.handoffAbort [(28, 1, 5)] .started, by decide +kernel⟩,
   ⟨holds .lease [desc 0 Op.handoffAbort [(28, 1, 5)] .started] (regs [(DDR_CFG.CAP_GIB, 16), (LEASE_CTL.EN, 1), (LEASE_CFG.BLADES, 0), (LEASE_HB_CFG.HB_OUT_EN, 1), (LEASE_DRILL_CFG.EN, 1), (LEASE_DRILL_CFG.DRAIN_PAR, 4), (TEN_STATUS.STATE, Tst.active), (LEASE_SHARD.STATE 5, Lst.releasing)] { State.reset with now := 10 ^ 13, leaseU := { shards := [(5, { begin_ := some ⟨0, 1⟩ })] } }), ⟨0, 0⟩, ⟨0, 1⟩, desc 0 Op.handoffAbort [(28, 1, 5)] .started, by decide +kernel⟩⟩

theorem witness_LeaseDescriptors_3 :
  (∃ (s : State) (d : DescRef) (f : Fetched), (s.startedAt .lease d Op.take = some f) ∧ ((s.leaseX (f.at 28 1)).take ≠ some d) ∧ (s.leaseMode ≠ Lmode.running)) ∧
  (∃ (s : State) (d : DescRef) (f : Fetched), (s.startedAt .lease d Op.take = some f) ∧ ((s.leaseX (f.at 28 1)).take ≠ some d) ∧ (s.leaseMode = Lmode.running) ∧ (s.leaseSt (f.at 28 1) ≠ Lst.unknown)) ∧
  (∃ (s : State) (d : DescRef) (f : Fetched), (s.startedAt .lease d Op.drain = some f) ∧ (s.solo = false) ∧ (s.leaseU.drain ≠ some d) ∧ (s.leaseMode ≠ Lmode.running)) ∧
  (∃ (s : State) (d : DescRef) (f : Fetched), (s.startedAt .lease d Op.undrain = some f) ∧ (s.solo = false) ∧ (s.activating = false) ∧ (s.leaseMode ≠ Lmode.drained) ∧ (s.leaseMode ≠ Lmode.draining)) :=
  ⟨⟨holds .lease [desc 0 Op.take [(28, 1, 5)] .started] (regs [(DDR_CFG.CAP_GIB, 16), (LEASE_CTL.EN, 1), (LEASE_CFG.BLADES, 0), (LEASE_HB_CFG.HB_OUT_EN, 1), (LEASE_DRILL_CFG.EN, 1), (LEASE_DRILL_CFG.DRAIN_PAR, 4), (TEN_STATUS.STATE, Tst.active), (LEASE_SHARD.STATE 5, Lst.unknown), (LEASE_CTL.MODE, Lmode.drained)] { State.reset with now := 10 ^ 13, leaseU := { shards := [(5, {  })] } }), ⟨0, 0⟩, desc 0 Op.take [(28, 1, 5)] .started, by decide +kernel⟩,
   ⟨holds .lease [desc 0 Op.take [(28, 1, 5)] .started] (regs [(DDR_CFG.CAP_GIB, 16), (LEASE_CTL.EN, 1), (LEASE_CFG.BLADES, 0), (LEASE_HB_CFG.HB_OUT_EN, 1), (LEASE_DRILL_CFG.EN, 1), (LEASE_DRILL_CFG.DRAIN_PAR, 4), (TEN_STATUS.STATE, Tst.active), (LEASE_SHARD.STATE 5, Lst.held)] { State.reset with now := 10 ^ 13, leaseU := { shards := [(5, {  })] } }), ⟨0, 0⟩, desc 0 Op.take [(28, 1, 5)] .started, by decide +kernel⟩,
   ⟨holds .lease [desc 0 Op.drain [(28, 1, 5)] .started] (regs [(DDR_CFG.CAP_GIB, 16), (LEASE_CTL.EN, 1), (LEASE_CFG.BLADES, 0), (LEASE_HB_CFG.HB_OUT_EN, 1), (LEASE_DRILL_CFG.EN, 1), (LEASE_DRILL_CFG.DRAIN_PAR, 4), (TEN_STATUS.STATE, Tst.active), (LEASE_SHARD.STATE 5, Lst.unknown), (LEASE_CTL.MODE, Lmode.drained)] { State.reset with now := 10 ^ 13, leaseU := { shards := [(5, {  })] } }), ⟨0, 0⟩, desc 0 Op.drain [(28, 1, 5)] .started, by decide +kernel⟩,
   ⟨holds .lease [desc 0 Op.undrain [(28, 1, 5)] .started] (regs [(DDR_CFG.CAP_GIB, 16), (LEASE_CTL.EN, 1), (LEASE_CFG.BLADES, 0), (LEASE_HB_CFG.HB_OUT_EN, 1), (LEASE_DRILL_CFG.EN, 1), (LEASE_DRILL_CFG.DRAIN_PAR, 4), (TEN_STATUS.STATE, Tst.active), (LEASE_SHARD.STATE 5, Lst.unknown)] { State.reset with now := 10 ^ 13, leaseU := { shards := [(5, {  })] } }), ⟨0, 0⟩, desc 0 Op.undrain [(28, 1, 5)] .started, by decide +kernel⟩⟩

theorem witness_LeaseDescriptors_4 :
  (∃ (s : State) (d e : DescRef) (f : Fetched), (s.startedAt .lease d Op.undrain = some f) ∧ (s.solo = false) ∧ (s.activating = false) ∧ (s.leaseMode = Lmode.draining) ∧ (s.leaseU.drain = some e)) ∧
  (∃ (s : State) (d : DescRef) (f : Fetched), (s.startedAt .lease d Op.handoffBegin = some f) ∧ (s.solo = false) ∧ ((s.leaseX (f.at 28 1)).begin_ ≠ some d) ∧ (s.leaseSt (f.at 28 1) ≠ Lst.held)) ∧
  (∃ (s : State) (d : DescRef) (f : Fetched) (x : LeaseX), (s.startedAt .lease d Op.handoffCommit = some f) ∧ (s.solo = false) ∧ ((s.leaseX (f.at 28 1)).commit ≠ some d) ∧ (s.leaseSt (f.at 28 1) = Lst.releasing) ∧ ((s.leaseX (f.at 28 1)).committed = false) ∧ ((s.leaseX (f.at 28 1)).begin_ = none) ∧ (x = { s.leaseX (f.at 28 1) with committed := true, commit := some d, released := [], offered := false, readBy := some (s.now + 3200000), takeBy := some (s.inMgmt (s.rd LEASE_CFG.TAKE_LIMIT)) })) ∧
  (∃ (s : State) (d : DescRef) (f : Fetched), (s.startedAt .lease d Op.handoffAbort = some f) ∧ (s.solo = false) ∧ (s.leaseSt (f.at 28 1) = Lst.releasing) ∧ ((s.leaseX (f.at 28 1)).committed = false) ∧ ((s.leaseX (f.at 28 1)).begin_ = none)) :=
  ⟨⟨holds .lease [desc 0 Op.undrain [(28, 1, 5)] .started] (regs [(DDR_CFG.CAP_GIB, 16), (LEASE_CTL.EN, 1), (LEASE_CFG.BLADES, 0), (LEASE_HB_CFG.HB_OUT_EN, 1), (LEASE_DRILL_CFG.EN, 1), (LEASE_DRILL_CFG.DRAIN_PAR, 4), (TEN_STATUS.STATE, Tst.active), (LEASE_SHARD.STATE 5, Lst.unknown), (LEASE_CTL.MODE, Lmode.draining)] { State.reset with now := 10 ^ 13, leaseU := { shards := [(5, {  })], drain := some ⟨0, 1⟩ } }), ⟨0, 0⟩, ⟨0, 1⟩, desc 0 Op.undrain [(28, 1, 5)] .started, by decide +kernel⟩,
   ⟨holds .lease [desc 0 Op.handoffBegin [(28, 1, 5)] .started] (regs [(DDR_CFG.CAP_GIB, 16), (LEASE_CTL.EN, 1), (LEASE_CFG.BLADES, 0), (LEASE_HB_CFG.HB_OUT_EN, 1), (LEASE_DRILL_CFG.EN, 1), (LEASE_DRILL_CFG.DRAIN_PAR, 4), (TEN_STATUS.STATE, Tst.active), (LEASE_SHARD.STATE 5, Lst.quiet)] { State.reset with now := 10 ^ 13, leaseU := { shards := [(5, {  })] } }), ⟨0, 0⟩, desc 0 Op.handoffBegin [(28, 1, 5)] .started, by decide +kernel⟩,
   ⟨holds .lease [desc 0 Op.handoffCommit [(28, 1, 5)] .started] (regs [(DDR_CFG.CAP_GIB, 16), (LEASE_CTL.EN, 1), (LEASE_CFG.BLADES, 0), (LEASE_HB_CFG.HB_OUT_EN, 1), (LEASE_DRILL_CFG.EN, 1), (LEASE_DRILL_CFG.DRAIN_PAR, 4), (TEN_STATUS.STATE, Tst.active), (LEASE_SHARD.STATE 5, Lst.releasing)] { State.reset with now := 10 ^ 13, leaseU := { shards := [(5, {  })] } }), ⟨0, 0⟩, desc 0 Op.handoffCommit [(28, 1, 5)] .started, { committed := true, commit := some ⟨0, 0⟩, readBy := some (10 ^ 13 + 3200000), takeBy := some ((holds .lease [desc 0 Op.handoffCommit [(28, 1, 5)] .started] (regs [(DDR_CFG.CAP_GIB, 16), (LEASE_CTL.EN, 1), (LEASE_CFG.BLADES, 0), (LEASE_HB_CFG.HB_OUT_EN, 1), (LEASE_DRILL_CFG.EN, 1), (LEASE_DRILL_CFG.DRAIN_PAR, 4), (TEN_STATUS.STATE, Tst.active), (LEASE_SHARD.STATE 5, Lst.releasing)] { State.reset with now := 10 ^ 13, leaseU := { shards := [(5, {  })] } })).inMgmt ((holds .lease [desc 0 Op.handoffCommit [(28, 1, 5)] .started] (regs [(DDR_CFG.CAP_GIB, 16), (LEASE_CTL.EN, 1), (LEASE_CFG.BLADES, 0), (LEASE_HB_CFG.HB_OUT_EN, 1), (LEASE_DRILL_CFG.EN, 1), (LEASE_DRILL_CFG.DRAIN_PAR, 4), (TEN_STATUS.STATE, Tst.active), (LEASE_SHARD.STATE 5, Lst.releasing)] { State.reset with now := 10 ^ 13, leaseU := { shards := [(5, {  })] } })).rd LEASE_CFG.TAKE_LIMIT)) }, by decide +kernel⟩,
   ⟨holds .lease [desc 0 Op.handoffAbort [(28, 1, 5)] .started] (regs [(DDR_CFG.CAP_GIB, 16), (LEASE_CTL.EN, 1), (LEASE_CFG.BLADES, 0), (LEASE_HB_CFG.HB_OUT_EN, 1), (LEASE_DRILL_CFG.EN, 1), (LEASE_DRILL_CFG.DRAIN_PAR, 4), (TEN_STATUS.STATE, Tst.active), (LEASE_SHARD.STATE 5, Lst.releasing)] { State.reset with now := 10 ^ 13, leaseU := { shards := [(5, {  })] } }), ⟨0, 0⟩, desc 0 Op.handoffAbort [(28, 1, 5)] .started, by decide +kernel⟩⟩

theorem witness_LeaseDescriptors_5 :
  (∃ (s : State) (d : DescRef) (f : Fetched), (s.startedAt .lease d Op.take = some f) ∧ ((s.leaseX (f.at 28 1)).take ≠ some d) ∧ (s.leaseMode = Lmode.running) ∧ (s.leaseSt (f.at 28 1) = Lst.unknown)) ∧
  (∃ (s : State) (d : DescRef) (f : Fetched), (s.startedAt .lease d Op.drain = some f) ∧ (s.solo = false) ∧ (s.leaseU.drain ≠ some d) ∧ (s.leaseMode = Lmode.running)) ∧
  (∃ (s : State) (d : DescRef) (f : Fetched), (s.startedAt .lease d Op.undrain = some f) ∧ (s.solo = false) ∧ (s.activating = false) ∧ (s.leaseMode = Lmode.drained ∨ s.leaseMode = Lmode.draining) ∧ (s.leaseU.drain = none)) ∧
  (∃ (s : State) (d : DescRef) (f : Fetched) (kind sh epoch : Nat) (rest : List (Nat × Nat × Nat)), (s.startedAt .lease d Op.eventWait = some f) ∧ (s.leaseU.events = (kind, sh, epoch) :: rest)) :=
  ⟨⟨holds .lease [desc 0 Op.take [(28, 1, 5)] .started] (regs [(DDR_CFG.CAP_GIB, 16), (LEASE_CTL.EN, 1), (LEASE_CFG.BLADES, 0), (LEASE_HB_CFG.HB_OUT_EN, 1), (LEASE_DRILL_CFG.EN, 1), (LEASE_DRILL_CFG.DRAIN_PAR, 4), (TEN_STATUS.STATE, Tst.active), (LEASE_SHARD.STATE 5, Lst.unknown)] { State.reset with now := 10 ^ 13, leaseU := { shards := [(5, {  })] } }), ⟨0, 0⟩, desc 0 Op.take [(28, 1, 5)] .started, by decide +kernel⟩,
   ⟨holds .lease [desc 0 Op.drain [(28, 1, 5)] .started] (regs [(DDR_CFG.CAP_GIB, 16), (LEASE_CTL.EN, 1), (LEASE_CFG.BLADES, 0), (LEASE_HB_CFG.HB_OUT_EN, 1), (LEASE_DRILL_CFG.EN, 1), (LEASE_DRILL_CFG.DRAIN_PAR, 4), (TEN_STATUS.STATE, Tst.active), (LEASE_SHARD.STATE 5, Lst.unknown)] { State.reset with now := 10 ^ 13, leaseU := { shards := [(5, {  })] } }), ⟨0, 0⟩, desc 0 Op.drain [(28, 1, 5)] .started, by decide +kernel⟩,
   ⟨holds .lease [desc 0 Op.undrain [(28, 1, 5)] .started] (regs [(DDR_CFG.CAP_GIB, 16), (LEASE_CTL.EN, 1), (LEASE_CFG.BLADES, 0), (LEASE_HB_CFG.HB_OUT_EN, 1), (LEASE_DRILL_CFG.EN, 1), (LEASE_DRILL_CFG.DRAIN_PAR, 4), (TEN_STATUS.STATE, Tst.active), (LEASE_SHARD.STATE 5, Lst.unknown), (LEASE_CTL.MODE, Lmode.drained)] { State.reset with now := 10 ^ 13, leaseU := { shards := [(5, {  })] } }), ⟨0, 0⟩, desc 0 Op.undrain [(28, 1, 5)] .started, by decide +kernel⟩,
   ⟨holds .lease [desc 0 Op.eventWait [(28, 1, 5)] .started] (regs [(DDR_CFG.CAP_GIB, 16), (LEASE_CTL.EN, 1), (LEASE_CFG.BLADES, 0), (LEASE_HB_CFG.HB_OUT_EN, 1), (LEASE_DRILL_CFG.EN, 1), (LEASE_DRILL_CFG.DRAIN_PAR, 4), (TEN_STATUS.STATE, Tst.active), (LEASE_SHARD.STATE 5, Lst.unknown)] { State.reset with now := 10 ^ 13, leaseU := { shards := [(5, {  })], events := [(3, 5, 9)] } }), ⟨0, 0⟩, desc 0 Op.eventWait [(28, 1, 5)] .started, 3, 5, 9, [], by decide +kernel⟩⟩

theorem witness_LeaseDescriptors_6 :
  (∃ (s : State) (d : DescRef) (f : Fetched), (s.startedAt .lease d Op.eventWait = some f) ∧ (s.leaseU.events = [])) ∧
  (∃ (s : State) (d : DescRef) (f : Fetched), (s.startedAt .lease d Op.drain = some f) ∧ (s.solo = true)) :=
  ⟨⟨holds .lease [desc 0 Op.eventWait [(28, 1, 5)] .started] (regs [(DDR_CFG.CAP_GIB, 16), (LEASE_CTL.EN, 1), (LEASE_CFG.BLADES, 0), (LEASE_HB_CFG.HB_OUT_EN, 1), (LEASE_DRILL_CFG.EN, 1), (LEASE_DRILL_CFG.DRAIN_PAR, 4), (TEN_STATUS.STATE, Tst.active), (LEASE_SHARD.STATE 5, Lst.unknown)] { State.reset with now := 10 ^ 13, leaseU := { shards := [(5, {  })] } }), ⟨0, 0⟩, desc 0 Op.eventWait [(28, 1, 5)] .started, by decide +kernel⟩,
   ⟨holds .lease [desc 0 Op.drain [(28, 1, 5)] .started] (regs [(DDR_CFG.CAP_GIB, 16), (LEASE_CTL.EN, 1), (LEASE_CFG.BLADES, 0), (LEASE_HB_CFG.HB_OUT_EN, 1), (LEASE_DRILL_CFG.EN, 1), (LEASE_DRILL_CFG.DRAIN_PAR, 4), (TEN_STATUS.STATE, Tst.active), (LEASE_SHARD.STATE 5, Lst.unknown), (LEASE_CTL.SOLO, 1)] { State.reset with now := 10 ^ 13, leaseU := { shards := [(5, {  })] } }), ⟨0, 0⟩, desc 0 Op.drain [(28, 1, 5)] .started, by decide +kernel⟩⟩

theorem witness_CoolerAccessesAndFills :
  (∃ (s : State) (port : CoolPort) (addr : Nat) (store : Option (List Byte)) (r : CoolReq), (addr < s.populated) ∧ (addr % 64 + (store.getD []).length ≤ 64) ∧ (r = ⟨port, addr, store, false⟩)) ∧
  (∃ (s : State) (port : CoolPort) (addr : Nat) (store : Option (List Byte)) (r : CoolReq) (err : CoolErr), (addr < s.populated) ∧ (addr % 64 + (store.getD []).length ≤ 64) ∧ (r = ⟨port, addr, store, false⟩) ∧ (s.coolFind (addr / 64) = none ∨ ((s.coolFind (addr / 64)).map fun e => e.2.filling) = some true)) ∧
  (∃ (s : State) (port : CoolPort) (addr : Nat) (store : Option (List Byte)) (r : CoolReq) (err : CoolErr) (k : Nat) (l : CoolLine) (t : State), (addr < s.populated) ∧ (addr % 64 + (store.getD []).length ≤ 64) ∧ (r = ⟨port, addr, store, false⟩) ∧ (s.coolFind (addr / 64) = some (k, l)) ∧ (l.filling = false) ∧ (s.coolError k l err = (true, t))) ∧
  (∃ (s : State) (port : CoolPort) (addr : Nat) (store : Option (List Byte)) (r : CoolReq) (k : Nat) (l : CoolLine), (addr < s.populated) ∧ (addr % 64 + (store.getD []).length ≤ 64) ∧ (r = ⟨port, addr, store, false⟩) ∧ (s.coolFind (addr / 64) = some (k, l)) ∧ (l.filling = false) ∧ (l.dirty = true)) :=
  ⟨⟨(List.range 48).foldl (fun (s : State) r => s.mapResidue r r) (regs [(DDR_CFG.CAP_GIB, 16), (COOL_CTL.EN, 1), (COOL_STATUS.STATE, 1), (COOL_WAYMASK.MASK 0, 65535)] { State.reset with cool := { lines := [(0, { line := 0 })] } }), .core 3, 8, none, ⟨.core 3, 8, none, false⟩, by decide +kernel⟩,
   ⟨(List.range 48).foldl (fun (s : State) r => s.mapResidue r r) (regs [(DDR_CFG.CAP_GIB, 16), (COOL_CTL.EN, 1), (COOL_STATUS.STATE, 1), (COOL_WAYMASK.MASK 0, 65535)] { State.reset with cool := { lines := [] } }), .core 3, 8, none, ⟨.core 3, 8, none, false⟩, .tag, by decide +kernel⟩,
   ⟨(List.range 48).foldl (fun (s : State) r => s.mapResidue r r) (regs [(DDR_CFG.CAP_GIB, 16), (COOL_CTL.EN, 1), (COOL_STATUS.STATE, 1), (COOL_WAYMASK.MASK 0, 65535)] { State.reset with cool := { lines := [(0, { line := 0 })] } }), .core 3, 8, none, ⟨.core 3, 8, none, false⟩, .single, 0, { line := 0 }, ((List.range 48).foldl (fun (s : State) r => s.mapResidue r r) (regs [(DDR_CFG.CAP_GIB, 16), (COOL_CTL.EN, 1), (COOL_STATUS.STATE, 1), (COOL_WAYMASK.MASK 0, 65535)] { State.reset with cool := { lines := [(0, { line := 0 })] } })).bump COOL_ERR.CE 1, by decide +kernel⟩,
   ⟨(List.range 48).foldl (fun (s : State) r => s.mapResidue r r) (regs [(DDR_CFG.CAP_GIB, 16), (COOL_CTL.EN, 1), (COOL_STATUS.STATE, 1), (COOL_WAYMASK.MASK 0, 65535)] { State.reset with cool := { lines := [(0, { line := 0, dirty := true })] } }), .core 3, 8, none, ⟨.core 3, 8, none, false⟩, 0, { line := 0, dirty := true }, by decide +kernel⟩⟩

theorem witness_CoolerAccessesAndFills_2 :
  (∃ (s : State) (port : CoolPort) (addr k : Nat) (bs : List Byte) (l : CoolLine) (r : CoolReq), (addr < s.populated) ∧ (addr % 64 + bs.length ≤ 64) ∧ (s.coolFind (addr / 64) = some (k, l)) ∧ (l.filling = false) ∧ (s.coolSt ≠ Cst.draining) ∧ (r = ⟨port, addr, some bs, false⟩)) ∧
  (∃ (s : State) (port : CoolPort) (addr : Nat) (bs : List Byte) (r : CoolReq), (addr < s.populated) ∧ (addr % 64 + bs.length ≤ 64) ∧ (s.coolFind (addr / 64) = none) ∧ (s.cool.evict = []) ∧ (s.coolSt = Cst.off) ∧ (r = ⟨port, addr, some bs, false⟩)) ∧
  (∃ (s : State) (port : CoolPort) (addr k : Nat) (bs : List Byte) (r : CoolReq) (t : State), (addr < s.populated) ∧ (addr % 64 + bs.length ≤ 64) ∧ (s.coolFind (addr / 64) = none) ∧ (s.cool.evict = []) ∧ (s.noAlloc (s.partition port) (addr / 64) = false) ∧ (r = ⟨port, addr, some bs, false⟩) ∧ (r.full = false) ∧ (s.missCount (s.home (addr / 64)) < 64) ∧ (s.makeRoom (addr / 64) (s.rd (COOL_WAYMASK.MASK (s.partition port))) = some (k, t)) ∧ (t.cool.misses = s.cool.misses) ∧ (t.home (addr / 64) = s.home (addr / 64))) ∧
  (∃ (s : State) (line : Nat) (m : CoolMiss), ((s.cool.misses.find? fun x => x.line == line) = some m) ∧ (m.reqs = []) ∧ (m.prefetch = true) ∧ (s.coolSt = Cst.on) ∧ (s.cool.waiting = [])) :=
  ⟨⟨(List.range 48).foldl (fun (s : State) r => s.mapResidue r r) (regs [(DDR_CFG.CAP_GIB, 16), (COOL_CTL.EN, 1), (COOL_STATUS.STATE, 1), (COOL_WAYMASK.MASK 0, 65535)] { State.reset with cool := { lines := [(0, { line := 0 })] } }), .core 3, 8, 0, zeros 4, { line := 0 }, ⟨.core 3, 8, some (zeros 4), false⟩, by decide +kernel⟩,
   ⟨(List.range 48).foldl (fun (s : State) r => s.mapResidue r r) (regs [(DDR_CFG.CAP_GIB, 16), (COOL_CTL.EN, 1), (COOL_STATUS.STATE, 0), (COOL_WAYMASK.MASK 0, 65535)] { State.reset with cool := { lines := [] } }), .core 3, 8, zeros 4, ⟨.core 3, 8, some (zeros 4), false⟩, by decide +kernel⟩,
   ⟨(List.range 48).foldl (fun (s : State) r => s.mapResidue r r) (regs [(DDR_CFG.CAP_GIB, 16), (COOL_CTL.EN, 1), (COOL_STATUS.STATE, 1), (COOL_WAYMASK.MASK 0, 65535)] { State.reset with cool := { lines := [] } }), .core 3, 8, 0, zeros 4, ⟨.core 3, 8, some (zeros 4), false⟩, (List.range 48).foldl (fun (s : State) r => s.mapResidue r r) (regs [(DDR_CFG.CAP_GIB, 16), (COOL_CTL.EN, 1), (COOL_STATUS.STATE, 1), (COOL_WAYMASK.MASK 0, 65535)] { State.reset with cool := { lines := [] } }), by decide +kernel⟩,
   ⟨(List.range 48).foldl (fun (s : State) r => s.mapResidue r r) (regs [(DDR_CFG.CAP_GIB, 16), (COOL_CTL.EN, 1), (COOL_STATUS.STATE, 1), (COOL_WAYMASK.MASK 0, 65535)] { State.reset with cool := { misses := [{ slice := 0, line := 0, key := 0, reqs := [], prefetch := true }] } }), 0, { slice := 0, line := 0, key := 0, reqs := [], prefetch := true }, by decide +kernel⟩⟩

theorem witness_CoolerAccessesAndFills_3 :
  (∃ (s : State) (line : Nat) (m : CoolMiss) (r : CoolReq) (t : State), ((s.cool.misses.find? fun x => x.line == line) = some m) ∧ (m.reqs = [r]) ∧ (m.prefetch = false) ∧ (m.streaming = false) ∧ (r.store = none) ∧ (t = (s.setCool { s.cool with misses := s.cool.misses.filter fun x => decide (x.line ≠ line) }).serve r) ∧ (t.coolSt = Cst.on)) ∧
  (∃ (s : State) (line : Nat) (err : DramErr) (m : CoolMiss) (t u : State), ((s.cool.misses.find? fun x => x.line == line) = some m) ∧ (t = (s.ddrFound line err).setCool { (s.ddrFound line err).cool with misses := (s.ddrFound line err).cool.misses.filter fun x => decide (x.line ≠ line) }) ∧ (u = m.reqs.foldl (fun (a : State) r => a.serve r) t) ∧ (u.coolSt = Cst.on)) ∧
  (∃ (s : State) (line : Nat) (err : DramErr) (m : CoolMiss) (t u : State), ((s.cool.misses.find? fun x => x.line == line) = some m) ∧ (t = (s.ddrFound line err).setCool { (s.ddrFound line err).cool with misses := (s.ddrFound line err).cool.misses.filter fun x => decide (x.line ≠ line) }) ∧ (u = m.reqs.foldl (fun (a : State) r => a.serve r) t) ∧ (u.coolSt ≠ Cst.on)) ∧
  (∃ (s : State) (line off : Nat) (p : CoolPort) (st : Option (List Byte)) (r : CoolReq) (t : State), (s.cool.evict.contains (s.home line, line) = true) ∧ (r = ⟨p, line * 64 + off % 64, st, false⟩) ∧ (t = s.setCool { s.cool with evict := s.cool.evict.filter fun x => decide (x ≠ (s.home line, line)) }) ∧ (s.noAlloc (s.partition p) line = true)) :=
  ⟨⟨(List.range 48).foldl (fun (s : State) r => s.mapResidue r r) (regs [(DDR_CFG.CAP_GIB, 16), (COOL_CTL.EN, 1), (COOL_STATUS.STATE, 1), (COOL_WAYMASK.MASK 0, 65535)] { State.reset with cool := { misses := [{ slice := 0, line := 0, key := 0, reqs := [⟨.core 3, 8, none, false⟩] }] } }), 0, { slice := 0, line := 0, key := 0, reqs := [⟨.core 3, 8, none, false⟩] }, ⟨.core 3, 8, none, false⟩, (((List.range 48).foldl (fun (s : State) r => s.mapResidue r r) (regs [(DDR_CFG.CAP_GIB, 16), (COOL_CTL.EN, 1), (COOL_STATUS.STATE, 1), (COOL_WAYMASK.MASK 0, 65535)] { State.reset with cool := { misses := [{ slice := 0, line := 0, key := 0, reqs := [⟨.core 3, 8, none, false⟩] }] } })).setCool {}).serve ⟨.core 3, 8, none, false⟩, ⟨by decide +kernel, by decide +kernel, by decide +kernel, by decide +kernel, by decide +kernel, by first | with_reducible rfl | decide +kernel, by decide +kernel⟩⟩,
   ⟨(List.range 48).foldl (fun (s : State) r => s.mapResidue r r) (regs [(DDR_CFG.CAP_GIB, 16), (COOL_CTL.EN, 1), (COOL_STATUS.STATE, 1), (COOL_WAYMASK.MASK 0, 65535)] { State.reset with cool := { misses := [{ slice := 0, line := 0, key := 0, reqs := [⟨.core 3, 8, none, false⟩] }] } }), 0, .none, { slice := 0, line := 0, key := 0, reqs := [⟨.core 3, 8, none, false⟩] }, ((List.range 48).foldl (fun (s : State) r => s.mapResidue r r) (regs [(DDR_CFG.CAP_GIB, 16), (COOL_CTL.EN, 1), (COOL_STATUS.STATE, 1), (COOL_WAYMASK.MASK 0, 65535)] { State.reset with cool := { misses := [{ slice := 0, line := 0, key := 0, reqs := [⟨.core 3, 8, none, false⟩] }] } })).setCool {}, (((List.range 48).foldl (fun (s : State) r => s.mapResidue r r) (regs [(DDR_CFG.CAP_GIB, 16), (COOL_CTL.EN, 1), (COOL_STATUS.STATE, 1), (COOL_WAYMASK.MASK 0, 65535)] { State.reset with cool := { misses := [{ slice := 0, line := 0, key := 0, reqs := [⟨.core 3, 8, none, false⟩] }] } })).setCool {}).serve ⟨.core 3, 8, none, false⟩, ⟨by decide +kernel, by first | with_reducible rfl | decide +kernel, by first | with_reducible rfl | decide +kernel, by decide +kernel⟩⟩,
   ⟨(List.range 48).foldl (fun (s : State) r => s.mapResidue r r) (regs [(DDR_CFG.CAP_GIB, 16), (COOL_CTL.EN, 1), (COOL_STATUS.STATE, 2), (COOL_WAYMASK.MASK 0, 65535)] { State.reset with cool := { misses := [{ slice := 0, line := 0, key := 0, reqs := [⟨.core 3, 8, none, false⟩] }] } }), 0, .none, { slice := 0, line := 0, key := 0, reqs := [⟨.core 3, 8, none, false⟩] }, ((List.range 48).foldl (fun (s : State) r => s.mapResidue r r) (regs [(DDR_CFG.CAP_GIB, 16), (COOL_CTL.EN, 1), (COOL_STATUS.STATE, 2), (COOL_WAYMASK.MASK 0, 65535)] { State.reset with cool := { misses := [{ slice := 0, line := 0, key := 0, reqs := [⟨.core 3, 8, none, false⟩] }] } })).setCool {}, (((List.range 48).foldl (fun (s : State) r => s.mapResidue r r) (regs [(DDR_CFG.CAP_GIB, 16), (COOL_CTL.EN, 1), (COOL_STATUS.STATE, 2), (COOL_WAYMASK.MASK 0, 65535)] { State.reset with cool := { misses := [{ slice := 0, line := 0, key := 0, reqs := [⟨.core 3, 8, none, false⟩] }] } })).setCool {}).serve ⟨.core 3, 8, none, false⟩, ⟨by decide +kernel, by first | with_reducible rfl | decide +kernel, by first | with_reducible rfl | decide +kernel, by decide +kernel⟩⟩,
   ⟨(List.range 48).foldl (fun (s : State) r => s.mapResidue r r) (regs [(DDR_CFG.CAP_GIB, 16), (COOL_CTL.EN, 1), (COOL_STATUS.STATE, 2), (COOL_WAYMASK.MASK 0, 65535)] { State.reset with cool := { evict := [(0, 0)] } }), 0, 8, .core 3, none, ⟨.core 3, 8, none, false⟩, ((List.range 48).foldl (fun (s : State) r => s.mapResidue r r) (regs [(DDR_CFG.CAP_GIB, 16), (COOL_CTL.EN, 1), (COOL_STATUS.STATE, 2), (COOL_WAYMASK.MASK 0, 65535)] { State.reset with cool := { evict := [(0, 0)] } })).setCool { ((List.range 48).foldl (fun (s : State) r => s.mapResidue r r) (regs [(DDR_CFG.CAP_GIB, 16), (COOL_CTL.EN, 1), (COOL_STATUS.STATE, 2), (COOL_WAYMASK.MASK 0, 65535)] { State.reset with cool := { evict := [(0, 0)] } })).cool with evict := [] }, ⟨by decide +kernel, by decide +kernel, by first | with_reducible rfl | decide +kernel, by decide +kernel⟩⟩⟩

theorem witness_CoolerAccessesAndFills_4 :
  (∃ (s : State) (line off : Nat) (p : CoolPort) (st : Option (List Byte)) (r : CoolReq) (t : State), (s.cool.evict.contains (s.home line, line) = true) ∧ (r = ⟨p, line * 64 + off % 64, st, false⟩) ∧ (t = s.setCool { s.cool with evict := s.cool.evict.filter fun x => decide (x ≠ (s.home line, line)) }) ∧ (s.noAlloc (s.partition p) line = false) ∧ ((s.makeRoom line (s.rd (COOL_WAYMASK.MASK (s.partition p)))).isNone = true)) ∧
  (∃ (s : State) (line off : Nat) (p : CoolPort) (st : Option (List Byte)) (r : CoolReq), (s.cool.evict.contains (s.home line, line) = true) ∧ (r = ⟨p, line * 64 + off % 64, st, false⟩) ∧ (s.noAlloc (s.partition p) line = false) ∧ ((s.makeRoom line (s.rd (COOL_WAYMASK.MASK (s.partition p)))).isSome = true)) ∧
  (∃ (s : State) (line : Nat), (s.cool.evict.contains (s.home line, line) = true)) ∧
  (∃ (s : State) (core line k : Nat) (l : CoolLine) (t : State), (Tab.get? s.cool.l2 (line * 64 + core) = some true) ∧ (t = s.setCool { s.cool with l2 := Tab.del s.cool.l2 (line * 64 + core) }) ∧ (t.coolFind line = some (k, l)) ∧ (l.filling = false) ∧ (t.coolSt = Cst.on)) :=
  ⟨⟨(List.range 48).foldl (fun (s : State) r => s.mapResidue r r) (regs [(DDR_CFG.CAP_GIB, 16), (COOL_CTL.EN, 1), (COOL_STATUS.STATE, 1), (COOL_WAYMASK.MASK 0, 65535), (COOL_WAYMASK.MASK 0, 1)] { State.reset with cool := { evict := [(0, 0)], lines := [(0, { line := 98304, filling := true })] } }), 0, 8, .core 3, none, ⟨.core 3, 8, none, false⟩, ((List.range 48).foldl (fun (s : State) r => s.mapResidue r r) (regs [(DDR_CFG.CAP_GIB, 16), (COOL_CTL.EN, 1), (COOL_STATUS.STATE, 1), (COOL_WAYMASK.MASK 0, 65535), (COOL_WAYMASK.MASK 0, 1)] { State.reset with cool := { evict := [(0, 0)], lines := [(0, { line := 98304, filling := true })] } })).setCool { ((List.range 48).foldl (fun (s : State) r => s.mapResidue r r) (regs [(DDR_CFG.CAP_GIB, 16), (COOL_CTL.EN, 1), (COOL_STATUS.STATE, 1), (COOL_WAYMASK.MASK 0, 65535), (COOL_WAYMASK.MASK 0, 1)] { State.reset with cool := { evict := [(0, 0)], lines := [(0, { line := 98304, filling := true })] } })).cool with evict := [] }, ⟨by decide +kernel, by decide +kernel, by first | with_reducible rfl | decide +kernel, by decide +kernel, by decide +kernel⟩⟩,
   ⟨(List.range 48).foldl (fun (s : State) r => s.mapResidue r r) (regs [(DDR_CFG.CAP_GIB, 16), (COOL_CTL.EN, 1), (COOL_STATUS.STATE, 1), (COOL_WAYMASK.MASK 0, 65535)] { State.reset with cool := { evict := [(0, 0)] } }), 0, 8, .core 3, none, ⟨.core 3, 8, none, false⟩, by decide +kernel⟩,
   ⟨(List.range 48).foldl (fun (s : State) r => s.mapResidue r r) (regs [(DDR_CFG.CAP_GIB, 16), (COOL_CTL.EN, 1), (COOL_STATUS.STATE, 1), (COOL_WAYMASK.MASK 0, 65535)] { State.reset with cool := { evict := [(0, 0)] } }), 0, by decide +kernel⟩,
   ⟨(List.range 48).foldl (fun (s : State) r => s.mapResidue r r) (regs [(DDR_CFG.CAP_GIB, 16), (COOL_CTL.EN, 1), (COOL_STATUS.STATE, 1), (COOL_WAYMASK.MASK 0, 65535)] { State.reset with cool := { lines := [(0, { line := 0 })], l2 := [(3, true)] } }), 3, 0, 0, { line := 0 }, ((List.range 48).foldl (fun (s : State) r => s.mapResidue r r) (regs [(DDR_CFG.CAP_GIB, 16), (COOL_CTL.EN, 1), (COOL_STATUS.STATE, 1), (COOL_WAYMASK.MASK 0, 65535)] { State.reset with cool := { lines := [(0, { line := 0 })], l2 := [(3, true)] } })).setCool { lines := [(0, { line := 0 })] }, ⟨by decide +kernel, by first | with_reducible rfl | decide +kernel, by decide +kernel, by decide +kernel, by decide +kernel⟩⟩⟩

theorem witness_CoolerAccessesAndFills_5 :
  (∃ (s : State) (core line : Nat) (t : State), (Tab.get? s.cool.l2 (line * 64 + core) = some true) ∧ (t = s.setCool { s.cool with l2 := Tab.del s.cool.l2 (line * 64 + core) }) ∧ (t.coolFind line = none ∨ t.coolSt ≠ Cst.on ∨ ((t.coolFind line).map fun e => e.2.filling) = some true)) :=
  ⟨(List.range 48).foldl (fun (s : State) r => s.mapResidue r r) (regs [(DDR_CFG.CAP_GIB, 16), (COOL_CTL.EN, 1), (COOL_STATUS.STATE, 1), (COOL_WAYMASK.MASK 0, 65535)] { State.reset with cool := { l2 := [(3, true)] } }), 3, 0, ((List.range 48).foldl (fun (s : State) r => s.mapResidue r r) (regs [(DDR_CFG.CAP_GIB, 16), (COOL_CTL.EN, 1), (COOL_STATUS.STATE, 1), (COOL_WAYMASK.MASK 0, 65535)] { State.reset with cool := { l2 := [(3, true)] } })).setCool {}, ⟨by decide +kernel, by first | with_reducible rfl | decide +kernel, by decide +kernel⟩⟩

theorem witness_CoolerMaintenanceAndSlices :
  (∃ (s : State) (d : DescRef) (f : Fetched) (ls : List Nat), (s.startedAt .cool d Op.cleanRange = some f) ∧ (badRange f.src f.len = false) ∧ ((s.rangeLines d.ring f.src f.len).toOption = some ls)) ∧
  (∃ (s : State) (d : DescRef) (f : Fetched), (s.startedAt .cool d Op.cleanRange = some f) ∧ (badRange f.src f.len = true)) ∧
  (∃ (s : State) (d : DescRef) (f : Fetched) (ls : List Nat), (s.startedAt .cool d Op.flushRange = some f) ∧ (badRange f.src f.len = false) ∧ ((s.rangeLines d.ring f.src f.len).toOption = some ls)) ∧
  (∃ (s : State) (d : DescRef) (f : Fetched), (s.startedAt .cool d Op.cleanAll = some f)) :=
  ⟨⟨holds .cool [desc 0 Op.cleanRange [(8, 8, 64), (24, 4, 128)] .started] ((List.range 48).foldl (fun (s : State) r => s.mapResidue r r) (regs [(DDR_CFG.CAP_GIB, 16), (COOL_CTL.EN, 1), (COOL_STATUS.STATE, 1), (COOL_WAYMASK.MASK 0, 65535)] { State.reset with cool := { lines := [(0, { line := 1, dirty := true })] } })), ⟨0, 0⟩, desc 0 Op.cleanRange [(8, 8, 64), (24, 4, 128)] .started, [1, 2], by decide +kernel⟩,
   ⟨holds .cool [desc 0 Op.cleanRange [] .started] ((List.range 48).foldl (fun (s : State) r => s.mapResidue r r) (regs [(DDR_CFG.CAP_GIB, 16), (COOL_CTL.EN, 1), (COOL_STATUS.STATE, 1), (COOL_WAYMASK.MASK 0, 65535)] { State.reset with cool := { lines := [] } })), ⟨0, 0⟩, desc 0 Op.cleanRange [] .started, by decide +kernel⟩,
   ⟨holds .cool [desc 0 Op.flushRange [(8, 8, 64), (24, 4, 128)] .started] ((List.range 48).foldl (fun (s : State) r => s.mapResidue r r) (regs [(DDR_CFG.CAP_GIB, 16), (COOL_CTL.EN, 1), (COOL_STATUS.STATE, 1), (COOL_WAYMASK.MASK 0, 65535)] { State.reset with cool := { lines := [(0, { line := 1, dirty := true })] } })), ⟨0, 0⟩, desc 0 Op.flushRange [(8, 8, 64), (24, 4, 128)] .started, [1, 2], by decide +kernel⟩,
   ⟨holds .cool [desc 0 Op.cleanAll [] .started] ((List.range 48).foldl (fun (s : State) r => s.mapResidue r r) (regs [(DDR_CFG.CAP_GIB, 16), (COOL_CTL.EN, 1), (COOL_STATUS.STATE, 1), (COOL_WAYMASK.MASK 0, 65535)] { State.reset with cool := { lines := [(0, { line := 1, dirty := true })] } })), ⟨0, 0⟩, desc 0 Op.cleanAll [] .started, by decide +kernel⟩⟩

theorem witness_CoolerMaintenanceAndSlices_2 :
  (∃ (s : State) (d : DescRef) (f : Fetched), (s.startedAt .cool d Op.flushWays = some f)) ∧
  (∃ (s : State) (d : DescRef) (f : Fetched) (t : State), (s.startedAt .cool d Op.sliceRetire = some f) ∧ (s.mayRetire (f.at 28 1) (f.at 29 1) = true) ∧ (s.inFlight (s.residues (f.at 28 1)) = false) ∧ (t = s.retireSlice (f.at 28 1) (f.at 29 1))) ∧
  (∃ (s : State) (d : DescRef) (f : Fetched), (s.startedAt .cool d Op.sliceRetire = some f) ∧ (s.mayRetire (f.at 28 1) (f.at 29 1) = true) ∧ (s.inFlight (s.residues (f.at 28 1)) = true)) ∧
  (∃ (s : State) (d : DescRef) (f : Fetched) (rs : List Nat) (t u : State), (s.startedAt .cool d Op.sliceRestore = some f) ∧ (Tab.get? s.cool.retired (f.at 28 1) = some rs) ∧ (s.inFlight rs = false) ∧ (t = rs.foldl (fun (a : State) r => a.mapResidue (f.at 28 1) r) (s.flushLines fun x => rs.contains (x % 48))) ∧ (u = t.setCool { t.cool with retired := Tab.del t.cool.retired (f.at 28 1) })) :=
  ⟨⟨holds .cool [desc 0 Op.flushWays [(28, 2, 1)] .started] ((List.range 48).foldl (fun (s : State) r => s.mapResidue r r) (regs [(DDR_CFG.CAP_GIB, 16), (COOL_CTL.EN, 1), (COOL_STATUS.STATE, 1), (COOL_WAYMASK.MASK 0, 65535)] { State.reset with cool := { lines := [(0, { line := 1, dirty := true })] } })), ⟨0, 0⟩, desc 0 Op.flushWays [(28, 2, 1)] .started, by decide +kernel⟩,
   ⟨holds .cool [desc 0 Op.sliceRetire [(28, 1, 3), (29, 1, 4)] .started] ((List.range 48).foldl (fun (s : State) r => s.mapResidue r r) (regs [(DDR_CFG.CAP_GIB, 16), (COOL_CTL.EN, 1), (COOL_STATUS.STATE, 1), (COOL_WAYMASK.MASK 0, 65535)] { State.reset with cool := { lines := [] } })), ⟨0, 0⟩, desc 0 Op.sliceRetire [(28, 1, 3), (29, 1, 4)] .started, (holds .cool [desc 0 Op.sliceRetire [(28, 1, 3), (29, 1, 4)] .started] ((List.range 48).foldl (fun (s : State) r => s.mapResidue r r) (regs [(DDR_CFG.CAP_GIB, 16), (COOL_CTL.EN, 1), (COOL_STATUS.STATE, 1), (COOL_WAYMASK.MASK 0, 65535)] { State.reset with cool := { lines := [] } }))).retireSlice 3 4, ⟨by decide +kernel, by decide +kernel, by decide +kernel, by first | with_reducible rfl | decide +kernel⟩⟩,
   ⟨holds .cool [desc 0 Op.sliceRetire [(28, 1, 3), (29, 1, 4)] .started] ((List.range 48).foldl (fun (s : State) r => s.mapResidue r r) (regs [(DDR_CFG.CAP_GIB, 16), (COOL_CTL.EN, 1), (COOL_STATUS.STATE, 1), (COOL_WAYMASK.MASK 0, 65535)] { State.reset with cool := { evict := [(3, 3)] } })), ⟨0, 0⟩, desc 0 Op.sliceRetire [(28, 1, 3), (29, 1, 4)] .started, by decide +kernel⟩,
   ⟨holds .cool [desc 0 Op.sliceRestore [(28, 1, 3), (29, 1, 4)] .started] ((List.range 48).foldl (fun (s : State) r => s.mapResidue r r) (regs [(DDR_CFG.CAP_GIB, 16), (COOL_CTL.EN, 1), (COOL_STATUS.STATE, 1), (COOL_WAYMASK.MASK 0, 65535)] { State.reset with cool := { retired := [(3, [3])] } })), ⟨0, 0⟩, desc 0 Op.sliceRestore [(28, 1, 3), (29, 1, 4)] .started, [3], ((holds .cool [desc 0 Op.sliceRestore [(28, 1, 3), (29, 1, 4)] .started] ((List.range 48).foldl (fun (s : State) r => s.mapResidue r r) (regs [(DDR_CFG.CAP_GIB, 16), (COOL_CTL.EN, 1), (COOL_STATUS.STATE, 1), (COOL_WAYMASK.MASK 0, 65535)] { State.reset with cool := { retired := [(3, [3])] } }))).flushLines fun x => x % 48 == 3).mapResidue 3 3, (((holds .cool [desc 0 Op.sliceRestore [(28, 1, 3), (29, 1, 4)] .started] ((List.range 48).foldl (fun (s : State) r => s.mapResidue r r) (regs [(DDR_CFG.CAP_GIB, 16), (COOL_CTL.EN, 1), (COOL_STATUS.STATE, 1), (COOL_WAYMASK.MASK 0, 65535)] { State.reset with cool := { retired := [(3, [3])] } }))).flushLines fun x => x % 48 == 3).mapResidue 3 3).setCool { (((holds .cool [desc 0 Op.sliceRestore [(28, 1, 3), (29, 1, 4)] .started] ((List.range 48).foldl (fun (s : State) r => s.mapResidue r r) (regs [(DDR_CFG.CAP_GIB, 16), (COOL_CTL.EN, 1), (COOL_STATUS.STATE, 1), (COOL_WAYMASK.MASK 0, 65535)] { State.reset with cool := { retired := [(3, [3])] } }))).flushLines fun x => x % 48 == 3).mapResidue 3 3).cool with retired := [] }, ⟨by decide +kernel, by decide +kernel, by decide +kernel, by first | with_reducible rfl | decide +kernel, by first | with_reducible rfl | decide +kernel⟩⟩⟩

theorem witness_CoolerMaintenanceAndSlices_3 :
  (∃ (s : State) (d : DescRef) (f : Fetched), (s.startedAt .cool d Op.sliceRetire = some f) ∧ (s.mayRetire (f.at 28 1) (f.at 29 1) = false)) ∧
  (∃ (s : State) (d : DescRef) (f : Fetched) (r : Nat) (t : State), (s.startedAt .cool d Op.sliceRestore = some f) ∧ (Tab.get? s.cool.retired (f.at 28 1) = some [r]) ∧ (s.inFlight [r] = false) ∧ (t = (s.flushLines fun x => x % 48 == r).mapResidue (f.at 28 1) r) ∧ ((List.range 48).all (fun x => [r].contains x == (x == r)) = true)) ∧
  (∃ (s : State) (d : DescRef) (f : Fetched), (s.startedAt .cool d Op.sliceRestore = some f) ∧ (Tab.get? s.cool.retired (f.at 28 1) = none)) ∧
  (∃ (s : State) (origin : Origin), (s.admits .cool origin = true)) :=
  ⟨⟨holds .cool [desc 0 Op.sliceRetire [(28, 1, 3), (29, 1, 3)] .started] ((List.range 48).foldl (fun (s : State) r => s.mapResidue r r) (regs [(DDR_CFG.CAP_GIB, 16), (COOL_CTL.EN, 1), (COOL_STATUS.STATE, 1), (COOL_WAYMASK.MASK 0, 65535)] { State.reset with cool := { lines := [] } })), ⟨0, 0⟩, desc 0 Op.sliceRetire [(28, 1, 3), (29, 1, 3)] .started, by decide +kernel⟩,
   ⟨holds .cool [desc 0 Op.sliceRestore [(28, 1, 3), (29, 1, 4)] .started] ((List.range 48).foldl (fun (s : State) r => s.mapResidue r r) (regs [(DDR_CFG.CAP_GIB, 16), (COOL_CTL.EN, 1), (COOL_STATUS.STATE, 1), (COOL_WAYMASK.MASK 0, 65535)] { State.reset with cool := { retired := [(3, [3])] } })), ⟨0, 0⟩, desc 0 Op.sliceRestore [(28, 1, 3), (29, 1, 4)] .started, 3, ((holds .cool [desc 0 Op.sliceRestore [(28, 1, 3), (29, 1, 4)] .started] ((List.range 48).foldl (fun (s : State) r => s.mapResidue r r) (regs [(DDR_CFG.CAP_GIB, 16), (COOL_CTL.EN, 1), (COOL_STATUS.STATE, 1), (COOL_WAYMASK.MASK 0, 65535)] { State.reset with cool := { retired := [(3, [3])] } }))).flushLines fun x => x % 48 == 3).mapResidue 3 3, ⟨by decide +kernel, by decide +kernel, by decide +kernel, by first | with_reducible rfl | decide +kernel, by decide +kernel⟩⟩,
   ⟨holds .cool [desc 0 Op.sliceRestore [(28, 1, 3), (29, 1, 4)] .started] ((List.range 48).foldl (fun (s : State) r => s.mapResidue r r) (regs [(DDR_CFG.CAP_GIB, 16), (COOL_CTL.EN, 1), (COOL_STATUS.STATE, 1), (COOL_WAYMASK.MASK 0, 65535)] { State.reset with cool := { lines := [] } })), ⟨0, 0⟩, desc 0 Op.sliceRestore [(28, 1, 3), (29, 1, 4)] .started, by decide +kernel⟩,
   ⟨(List.range 48).foldl (fun (s : State) r => s.mapResidue r r) (regs [(DDR_CFG.CAP_GIB, 16), (COOL_CTL.EN, 1), (COOL_STATUS.STATE, 1), (COOL_WAYMASK.MASK 0, 65535)] { State.reset with cool := { lines := [] } }), 0, by decide +kernel⟩⟩

theorem witness_CoolerMaintenanceAndSlices_4 :
  (∃ (s : State) (origin : Origin), (s.admits .cool origin = true) ∧ ((s.wr COOL_CTL.EN 0).coolSt = Cst.on)) ∧
  (∃ (s : State), (s.coolSt = Cst.draining) ∧ (s.cool.misses = [])) ∧
  (∃ (s : State), (s.coolSt = Cst.draining) ∧ (s.cool.misses = []) ∧ (s.cool.enAgain = false)) ∧
  (∃ (s : State), (s.coolSt ≠ Cst.draining ∨ s.cool.misses ≠ [])) :=
  ⟨⟨(List.range 48).foldl (fun (s : State) r => s.mapResidue r r) (regs [(DDR_CFG.CAP_GIB, 16), (COOL_CTL.EN, 1), (COOL_STATUS.STATE, 1), (COOL_WAYMASK.MASK 0, 65535)] { State.reset with cool := { lines := [] } }), 0, by decide +kernel⟩,
   ⟨(List.range 48).foldl (fun (s : State) r => s.mapResidue r r) (regs [(DDR_CFG.CAP_GIB, 16), (COOL_CTL.EN, 1), (COOL_STATUS.STATE, 2), (COOL_WAYMASK.MASK 0, 65535)] { State.reset with cool := { lines := [] } }), by decide +kernel⟩,
   ⟨(List.range 48).foldl (fun (s : State) r => s.mapResidue r r) (regs [(DDR_CFG.CAP_GIB, 16), (COOL_CTL.EN, 1), (COOL_STATUS.STATE, 2), (COOL_WAYMASK.MASK 0, 65535)] { State.reset with cool := { lines := [] } }), by decide +kernel⟩,
   ⟨(List.range 48).foldl (fun (s : State) r => s.mapResidue r r) (regs [(DDR_CFG.CAP_GIB, 16), (COOL_CTL.EN, 1), (COOL_STATUS.STATE, 1), (COOL_WAYMASK.MASK 0, 65535)] { State.reset with cool := { lines := [] } }), by decide +kernel⟩⟩

theorem witness_VatPailsAndDdr :
  (∃ (s : State) (n id cls count : Nat), (cls ≤ 4) ∧ (1 ≤ count) ∧ (count ≤ 16)) ∧
  (∃ (s : State) (n id cls count : Nat), (4 < cls ∨ count = 0 ∨ 16 < count)) ∧
  (∃ (s : State) (pail : Nat) (x : Pail), (Tab.get? s.vat.pails pail = some x) ∧ ((s.vat.widx.any fun e => e.pail == pail) = false) ∧ ((match x.user with | .ring _ _ => false | _ => true) = true)) ∧
  (∃ (s : State) (pail : Nat) (x : Pail), (Tab.get? s.vat.pails pail = some x) ∧ ((s.vat.widx.any fun e => e.pail == pail) = true)) :=
  ⟨⟨regs [(DDR_CFG.CAP_GIB, 16), (VAT_CTL.EN, 1), (VAT_CTL.QUARTER_EN, 15), (VAT_STATUS.FREE, 32768), (VAT_CLASS.CEIL 1, 100)] { State.reset with now := 10 ^ 13, vat := {  } }, 7, 1, 1, 2, by decide +kernel⟩,
   ⟨regs [(DDR_CFG.CAP_GIB, 16), (VAT_CTL.EN, 1), (VAT_CTL.QUARTER_EN, 15), (VAT_STATUS.FREE, 32768), (VAT_CLASS.CEIL 1, 100)] { State.reset with now := 10 ^ 13, vat := {  } }, 7, 1, 5, 2, by decide +kernel⟩,
   ⟨regs [(DDR_CFG.CAP_GIB, 16), (VAT_CTL.EN, 1), (VAT_CTL.QUARTER_EN, 15), (VAT_STATUS.FREE, 32768), (VAT_CLASS.CEIL 1, 100)] { State.reset with now := 10 ^ 13, vat := { pails := [(9, ⟨1, .job 7 1, .background⟩)] } }, 9, ⟨1, .job 7 1, .background⟩, by decide +kernel⟩,
   ⟨regs [(DDR_CFG.CAP_GIB, 16), (VAT_CTL.EN, 1), (VAT_CTL.QUARTER_EN, 15), (VAT_STATUS.FREE, 32768), (VAT_CLASS.CEIL 1, 100)] { State.reset with now := 10 ^ 13, vat := { pails := [(9, ⟨1, .ctx 7, .writeData⟩)], widx := [{ vol := 1, block := 2, pail := 9, dseq := 3, ovf := false }] } }, 9, ⟨1, .ctx 7, .writeData⟩, by decide +kernel⟩⟩

theorem witness_VatPailsAndDdr_2 :
  (∃ (s : State) (pail n id : Nat) (x : Pail), (Tab.get? s.vat.pails pail = some x) ∧ ((s.vat.widx.any fun e => e.pail == pail) = false) ∧ (x.user = .job n id) ∧ (s.vat.waiting = [])) ∧
  (∃ (s : State) (index : Nat) (q : VatReq), (s.vat.waiting[index]? = some q) ∧ (q.alarmed = false) ∧ (s.passed (q.since + s.rd (VAT_CLASS.ALARM q.cls) * mgmtTick) = true)) ∧
  (∃ (s : State) (d : DescRef) (f : Fetched), (s.startedAt .vat d Op.pailAlloc = some f) ∧ (f.phase = .started) ∧ (f.at 28 1 ≤ 4) ∧ (1 ≤ f.at 29 1) ∧ (f.at 29 1 ≤ 16) ∧ (f.len = f.at 29 1 * 2)) ∧
  (∃ (s : State) (d : DescRef) (f : Fetched) (bs : List Byte), (s.startedAt .vat d Op.pailFree = some f) ∧ (1 ≤ f.at 29 1) ∧ (f.at 29 1 ≤ 16) ∧ (f.len = f.at 29 1 * 2) ∧ ((s.dmaRead .vat f.src (f.at 29 1 * 2) (some d.ring)).toOption = some bs) ∧ ((pailNumbers bs (f.at 29 1)).eraseDups.length = f.at 29 1) ∧ (((pailNumbers bs (f.at 29 1)).all fun p => s.ringsPail d.ring p) = true)) :=
  ⟨⟨regs [(DDR_CFG.CAP_GIB, 16), (VAT_CTL.EN, 1), (VAT_CTL.QUARTER_EN, 15), (VAT_STATUS.FREE, 32768), (VAT_CLASS.CEIL 1, 100)] { State.reset with now := 10 ^ 13, vat := { pails := [(9, ⟨1, .job 7 1, .background⟩)] } }, 9, 7, 1, ⟨1, .job 7 1, .background⟩, by decide +kernel⟩,
   ⟨regs [(DDR_CFG.CAP_GIB, 16), (VAT_CTL.EN, 1), (VAT_CTL.QUARTER_EN, 15), (VAT_STATUS.FREE, 32768), (VAT_CLASS.CEIL 1, 100)] { State.reset with now := 10 ^ 13, vat := { waiting := [⟨.job 7 1, 1, 2, 0, false⟩] } }, 0, ⟨.job 7 1, 1, 2, 0, false⟩, by decide +kernel⟩,
   ⟨holds .vat [desc 0 Op.pailAlloc [(28, 1, 1), (29, 1, 2), (24, 4, 4), (16, 8, 8192)] .started] (regs [(DDR_CFG.CAP_GIB, 16), (VAT_CTL.EN, 1), (VAT_CTL.QUARTER_EN, 15), (VAT_STATUS.FREE, 32768), (VAT_CLASS.CEIL 1, 100)] { State.reset with now := 10 ^ 13, vat := {  } }), ⟨0, 0⟩, desc 0 Op.pailAlloc [(28, 1, 1), (29, 1, 2), (24, 4, 4), (16, 8, 8192)] .started, by decide +kernel⟩,
   ⟨holds .vat [desc 0 Op.pailFree [(29, 1, 1), (24, 4, 2), (8, 8, 8192)] .started] (regs [(DDR_CFG.CAP_GIB, 16), (VAT_CTL.EN, 1), (VAT_CTL.QUARTER_EN, 15), (VAT_STATUS.FREE, 32768), (VAT_CLASS.CEIL 1, 100)] { State.reset with now := 10 ^ 13, vat := { pails := [(9, ⟨1, .ring 0 5, .software⟩)] }, mem := Memory.writeN [] 8192 (image 2 [(0, 1, 9)]) }), ⟨0, 0⟩, desc 0 Op.pailFree [(29, 1, 1), (24, 4, 2), (8, 8, 8192)] .started, image 2 [(0, 1, 9)], by decide +kernel⟩⟩

theorem witness_VatPailsAndDdr_3 :
  (∃ (s : State) (d : DescRef) (f : Fetched) (bs : List Byte), (s.startedAt .vat d Op.pailFree = some f) ∧ (1 ≤ f.at 29 1) ∧ (f.at 29 1 ≤ 16) ∧ (f.len = f.at 29 1 * 2) ∧ ((s.dmaRead .vat f.src (f.at 29 1 * 2) (some d.ring)).toOption = some bs) ∧ ((pailNumbers bs (f.at 29 1)).eraseDups.length ≠ f.at 29 1 ∨ ((pailNumbers bs (f.at 29 1)).all fun p => s.ringsPail d.ring p) = false)) ∧
  (∃ (s : State) (d : DescRef) (f : Fetched), (s.startedAt .vat d Op.pailFree = some f) ∧ (f.at 29 1 = 0 ∨ 16 < f.at 29 1)) ∧
  (∃ (s : State) (d : DescRef) (f : Fetched), (s.startedAt .vat d Op.pailAlloc = some f) ∧ (f.phase = .started) ∧ (4 < f.at 28 1)) ∧
  (∃ (s : State) (d : DescRef) (f : Fetched), (s.startedAt .vat d Op.pailAlloc = some f) ∧ (f.phase = .started) ∧ (f.at 28 1 ≤ 4) ∧ (f.at 29 1 = 0 ∨ 16 < f.at 29 1)) :=
  ⟨⟨holds .vat [desc 0 Op.pailFree [(29, 1, 1), (24, 4, 2), (8, 8, 8192)] .started] (regs [(DDR_CFG.CAP_GIB, 16), (VAT_CTL.EN, 1), (VAT_CTL.QUARTER_EN, 15), (VAT_STATUS.FREE, 32768), (VAT_CLASS.CEIL 1, 100)] { State.reset with now := 10 ^ 13, vat := { pails := [(9, ⟨1, .ring 2 5, .software⟩)] }, mem := Memory.writeN [] 8192 (image 2 [(0, 1, 9)]) }), ⟨0, 0⟩, desc 0 Op.pailFree [(29, 1, 1), (24, 4, 2), (8, 8, 8192)] .started, image 2 [(0, 1, 9)], by decide +kernel⟩,
   ⟨holds .vat [desc 0 Op.pailFree [] .started] (regs [(DDR_CFG.CAP_GIB, 16), (VAT_CTL.EN, 1), (VAT_CTL.QUARTER_EN, 15), (VAT_STATUS.FREE, 32768), (VAT_CLASS.CEIL 1, 100)] { State.reset with now := 10 ^ 13, vat := {  } }), ⟨0, 0⟩, desc 0 Op.pailFree [] .started, by decide +kernel⟩,
   ⟨holds .vat [desc 0 Op.pailAlloc [(28, 1, 9)] .started] (regs [(DDR_CFG.CAP_GIB, 16), (VAT_CTL.EN, 1), (VAT_CTL.QUARTER_EN, 15), (VAT_STATUS.FREE, 32768), (VAT_CLASS.CEIL 1, 100)] { State.reset with now := 10 ^ 13, vat := {  } }), ⟨0, 0⟩, desc 0 Op.pailAlloc [(28, 1, 9)] .started, by decide +kernel⟩,
   ⟨holds .vat [desc 0 Op.pailAlloc [] .started] (regs [(DDR_CFG.CAP_GIB, 16), (VAT_CTL.EN, 1), (VAT_CTL.QUARTER_EN, 15), (VAT_STATUS.FREE, 32768), (VAT_CLASS.CEIL 1, 100)] { State.reset with now := 10 ^ 13, vat := {  } }), ⟨0, 0⟩, desc 0 Op.pailAlloc [] .started, by decide +kernel⟩⟩

theorem witness_VatPailsAndDdr_4 :
  (∃ (s : State) (cls : Nat), (cls ≤ 4)) ∧
  (∃ (s : State) (origin : Origin), (s.admits .ddr origin = true) ∧ (s.on DDR_CFG.EN = false)) ∧
  (∃ (s : State) (origin : Origin), (s.admits .ddr origin = true) ∧ (s.on DDR_CFG.EN = true)) ∧
  (∃ (s : State) (ch : Fin 12) (fast : Bool), (s.rd (DDR_STATUS.STATE ch) = Ddr.training)) :=
  ⟨⟨regs [(DDR_CFG.CAP_GIB, 16), (VAT_CTL.EN, 1), (VAT_CTL.QUARTER_EN, 15), (VAT_STATUS.FREE, 32768), (VAT_CLASS.CEIL 1, 100)] { State.reset with now := 10 ^ 13, vat := {  } }, 1, by decide +kernel⟩,
   ⟨regs [(DDR_CFG.CAP_GIB, 16), (VAT_CTL.EN, 1), (VAT_CTL.QUARTER_EN, 15), (VAT_STATUS.FREE, 32768), (VAT_CLASS.CEIL 1, 100)] { State.reset with now := 10 ^ 13, vat := {  } }, 0, by decide +kernel⟩,
   ⟨regs [(DDR_CFG.CAP_GIB, 16), (VAT_CTL.EN, 1), (VAT_CTL.QUARTER_EN, 15), (VAT_STATUS.FREE, 32768), (VAT_CLASS.CEIL 1, 100), (DDR_CFG.EN, 1)] { State.reset with now := 10 ^ 13, vat := {  } }, 0, by decide +kernel⟩,
   ⟨regs [(DDR_CFG.CAP_GIB, 16), (VAT_CTL.EN, 1), (VAT_CTL.QUARTER_EN, 15), (VAT_STATUS.FREE, 32768), (VAT_CLASS.CEIL 1, 100), (DDR_STATUS.STATE 3, 1)] { State.reset with now := 10 ^ 13, vat := {  } }, 3, true, by decide +kernel⟩⟩

theorem witness_VatPailsAndDdr_5 :
  (∃ (s : State) (ch : Fin 12) (fast : Bool) (cause : Nat), (s.rd (DDR_STATUS.STATE ch) = Ddr.training) ∧ (cause ≠ 0)) ∧
  (∃ (s : State) (ch : Fin 12) (rank : Nat) (q : Ddr), (s.rd (DDR_STATUS.STATE ch) = Ddr.ready) ∧ (q = { s.ddr with zq := Tab.set s.ddr.zq (ch * 4 + rank) s.now })) ∧
  (∃ (s : State) (ch : Fin 12) (rank : Nat) (q : Ddr), (s.rd (DDR_STATUS.STATE ch) = Ddr.ready) ∧ (q = { s.ddr with dqs := Tab.set s.ddr.dqs (ch * 4 + rank) s.now })) ∧
  (∃ (s : State) (ch : Fin 12) (q : Ddr), (s.rd (DDR_STATUS.STATE ch) = Ddr.ready) ∧ (q = { s.ddr with refreshes := Tab.set s.ddr.refreshes ch (Tab.getD s.ddr.refreshes ch 0 + 1) })) :=
  ⟨⟨regs [(DDR_CFG.CAP_GIB, 16), (VAT_CTL.EN, 1), (VAT_CTL.QUARTER_EN, 15), (VAT_STATUS.FREE, 32768), (VAT_CLASS.CEIL 1, 100), (DDR_STATUS.STATE 3, 1)] { State.reset with now := 10 ^ 13, vat := {  } }, 3, true, 2, by decide +kernel⟩,
   ⟨regs [(DDR_CFG.CAP_GIB, 16), (VAT_CTL.EN, 1), (VAT_CTL.QUARTER_EN, 15), (VAT_STATUS.FREE, 32768), (VAT_CLASS.CEIL 1, 100), (DDR_STATUS.STATE 3, 2)] { State.reset with now := 10 ^ 13, vat := {  } }, 3, 1, { zq := [(13, 10 ^ 13)] }, by decide +kernel⟩,
   ⟨regs [(DDR_CFG.CAP_GIB, 16), (VAT_CTL.EN, 1), (VAT_CTL.QUARTER_EN, 15), (VAT_STATUS.FREE, 32768), (VAT_CLASS.CEIL 1, 100), (DDR_STATUS.STATE 3, 2)] { State.reset with now := 10 ^ 13, vat := {  } }, 3, 1, { dqs := [(13, 10 ^ 13)] }, by decide +kernel⟩,
   ⟨regs [(DDR_CFG.CAP_GIB, 16), (VAT_CTL.EN, 1), (VAT_CTL.QUARTER_EN, 15), (VAT_STATUS.FREE, 32768), (VAT_CLASS.CEIL 1, 100), (DDR_STATUS.STATE 3, 2)] { State.reset with now := 10 ^ 13, vat := {  } }, 3, { refreshes := [(3, 1)] }, by decide +kernel⟩⟩

theorem witness_VatPailsAndDdr_6 :
  (∃ (s : State) (temps : List Int) (t : State), (t = (List.range s.channels).foldl (fun s c => s.wr (DDR_STATUS.TEMP c) (ofSigned (temps.getD c 0) 8)) s) ∧ (t.ddrThrottled = false) ∧ ((temps.any fun x => decide (95 < x)) = true)) ∧
  (∃ (s : State) (temps : List Int) (t u : State), (t = (List.range s.channels).foldl (fun s c => s.wr (DDR_STATUS.TEMP c) (ofSigned (temps.getD c 0) 8)) s) ∧ (u = { t with ddr := { t.ddr with fastRefresh := temps.any fun x => decide (85 < x) } }) ∧ (u.ddrThrottled = true) ∧ ((temps.all fun x => decide (x < 90)) = true)) ∧
  (∃ (s : State) (temps : List Int) (t u : State), (t = (List.range s.channels).foldl (fun s c => s.wr (DDR_STATUS.TEMP c) (ofSigned (temps.getD c 0) 8)) s) ∧ (u = { t with ddr := { t.ddr with fastRefresh := temps.any fun x => decide (85 < x) } }) ∧ (if u.ddrThrottled then (temps.all fun x => decide (x < 90)) = false else (temps.any fun x => decide (95 < x)) = false)) ∧
  (∃ (s : State) (err : DramErr), (s.on DDR_SCRUB_CFG.EN = true) ∧ (s.rd (DDR_STATUS.STATE (s.lineChannel s.ddr.scrubLine)) = Ddr.ready)) :=
  ⟨⟨regs [(DDR_CFG.CAP_GIB, 16), (VAT_CTL.EN, 1), (VAT_CTL.QUARTER_EN, 15), (VAT_STATUS.FREE, 32768), (VAT_CLASS.CEIL 1, 100)] { State.reset with now := 10 ^ 13, vat := {  } }, [96], (List.range 12).foldl (fun s c => s.wr (DDR_STATUS.TEMP c) (ofSigned ([96].getD c 0) 8)) (regs [(DDR_CFG.CAP_GIB, 16), (VAT_CTL.EN, 1), (VAT_CTL.QUARTER_EN, 15), (VAT_STATUS.FREE, 32768), (VAT_CLASS.CEIL 1, 100)] { State.reset with now := 10 ^ 13, vat := {  } }), ⟨by first | with_reducible rfl | decide +kernel, by decide +kernel, by decide +kernel⟩⟩,
   ⟨regs [(DDR_CFG.CAP_GIB, 16), (VAT_CTL.EN, 1), (VAT_CTL.QUARTER_EN, 15), (VAT_STATUS.FREE, 32768), (VAT_CLASS.CEIL 1, 100), (DDR_STATUS.THROTTLED 0, 1)] { State.reset with now := 10 ^ 13, vat := {  } }, [80], (List.range 12).foldl (fun s c => s.wr (DDR_STATUS.TEMP c) (ofSigned ([80].getD c 0) 8)) (regs [(DDR_CFG.CAP_GIB, 16), (VAT_CTL.EN, 1), (VAT_CTL.QUARTER_EN, 15), (VAT_STATUS.FREE, 32768), (VAT_CLASS.CEIL 1, 100), (DDR_STATUS.THROTTLED 0, 1)] { State.reset with now := 10 ^ 13, vat := {  } }), { ((List.range 12).foldl (fun s c => s.wr (DDR_STATUS.TEMP c) (ofSigned ([80].getD c 0) 8)) (regs [(DDR_CFG.CAP_GIB, 16), (VAT_CTL.EN, 1), (VAT_CTL.QUARTER_EN, 15), (VAT_STATUS.FREE, 32768), (VAT_CLASS.CEIL 1, 100), (DDR_STATUS.THROTTLED 0, 1)] { State.reset with now := 10 ^ 13, vat := {  } })) with ddr := {} }, ⟨by first | with_reducible rfl | decide +kernel, by first | with_reducible rfl | decide +kernel, by decide +kernel, by decide +kernel⟩⟩,
   ⟨regs [(DDR_CFG.CAP_GIB, 16), (VAT_CTL.EN, 1), (VAT_CTL.QUARTER_EN, 15), (VAT_STATUS.FREE, 32768), (VAT_CLASS.CEIL 1, 100)] { State.reset with now := 10 ^ 13, vat := {  } }, [80], (List.range 12).foldl (fun s c => s.wr (DDR_STATUS.TEMP c) (ofSigned ([80].getD c 0) 8)) (regs [(DDR_CFG.CAP_GIB, 16), (VAT_CTL.EN, 1), (VAT_CTL.QUARTER_EN, 15), (VAT_STATUS.FREE, 32768), (VAT_CLASS.CEIL 1, 100)] { State.reset with now := 10 ^ 13, vat := {  } }), { ((List.range 12).foldl (fun s c => s.wr (DDR_STATUS.TEMP c) (ofSigned ([80].getD c 0) 8)) (regs [(DDR_CFG.CAP_GIB, 16), (VAT_CTL.EN, 1), (VAT_CTL.QUARTER_EN, 15), (VAT_STATUS.FREE, 32768), (VAT_CLASS.CEIL 1, 100)] { State.reset with now := 10 ^ 13, vat := {  } })) with ddr := {} }, ⟨by first | with_reducible rfl | decide +kernel, by first | with_reducible rfl | decide +kernel, by decide +kernel⟩⟩,
   ⟨regs [(DDR_CFG.CAP_GIB, 16), (VAT_CTL.EN, 1), (VAT_CTL.QUARTER_EN, 15), (VAT_STATUS.FREE, 32768), (VAT_CLASS.CEIL 1, 100), (DDR_STATUS.STATE 0, 2), (DDR_SCRUB_CFG.EN, 1)] { State.reset with now := 10 ^ 13, vat := {  } }, .none, by decide +kernel⟩⟩

theorem witness_SupplyDomainsAndGovernor :
  (∃ (s : State) (origin : Origin) (core : Fin 48) (div : Nat), (s.originThere origin.toNat = true) ∧ (s.audited false origin.toNat = false) ∧ (div ≤ 2)) ∧
  (∃ (s : State) (origin : Origin) (core : Fin 48) (div : Nat), (s.originThere origin.toNat = true) ∧ (s.audited false origin.toNat = false) ∧ (div ≤ 2) ∧ (s.rd (CLK_CORE.FLOOR core) ≤ 2) ∧ (s.rd (CLK_CORE.THROTTLE core) ≤ 2)) ∧
  (∃ (s : State) (origin : Origin) (core : Fin 48) (div : Nat), (s.originThere origin.toNat = true) ∧ (s.audited false origin.toNat = false) ∧ (2 < div)) ∧
  (∃ (s : State) (t : State), (s.on CLK_STATUS.PLL_LOCK = true) ∧ (t = (((((s.wr CLK_STATUS.PLL_LOCK 0).wr CLK_STATUS.REFCLK_OK 0).wr CLK_STATUS.AON_OSC 1).bump CLK_STATUS.LOSSES 1).wr PWR_RESET_CAUSE.REFCLK_SEEN 1).headStopped)) :=
  ⟨⟨regs [] { State.reset with now := 10 ^ 9 }, 5, 7, 2, by decide +kernel⟩,
   ⟨regs [(CLK_CORE.FLOOR 7, 1)] { State.reset with now := 10 ^ 9 }, 5, 7, 2, by decide +kernel⟩,
   ⟨regs [] { State.reset with now := 10 ^ 9 }, 5, 7, 3, by decide +kernel⟩,
   ⟨regs [(CLK_STATUS.PLL_LOCK, 1)] { State.reset with now := 10 ^ 9 }, (((((regs [(CLK_STATUS.PLL_LOCK, 1)] { State.reset with now := 10 ^ 9 }).wr CLK_STATUS.PLL_LOCK 0).wr CLK_STATUS.REFCLK_OK 0).wr CLK_STATUS.AON_OSC 1).bump CLK_STATUS.LOSSES 1).wr PWR_RESET_CAUSE.REFCLK_SEEN 1 |>.headStopped, ⟨by decide +kernel, by first | with_reducible rfl | decide +kernel⟩⟩⟩

theorem witness_SupplyDomainsAndGovernor_2 :
  (∃ (s : State), (s.on CLK_STATUS.PLL_LOCK = true)) ∧
  (∃ (s : State), (s.on CLK_STATUS.PLL_LOCK = false)) ∧
  (∃ (s : State) (d : Fin 96), (s.boot.stopped = true)) ∧
  (∃ (s : State) (d : Fin 96), (s.boot.stopped = false) ∧ ((s.wr (PWR_DOM.REQ_ON d) 1).domSt d = Dom.off)) :=
  ⟨⟨regs [(CLK_STATUS.PLL_LOCK, 1)] { State.reset with now := 10 ^ 9 }, by decide +kernel⟩,
   ⟨regs [(CLK_STATUS.PLL_LOCK, 0)] { State.reset with now := 10 ^ 9 }, by decide +kernel⟩,
   ⟨regs [] { State.reset with now := 10 ^ 9, boot := { State.reset.boot with stopped := true } }, 17, by decide +kernel⟩,
   ⟨regs [] { State.reset with now := 10 ^ 9 }, 17, by decide +kernel⟩⟩

theorem witness_SupplyDomainsAndGovernor_3 :
  (∃ (s : State) (d : Fin 96), (s.boot.stopped = false) ∧ ((s.wr (PWR_DOM.REQ_ON d) 1).domSt d ≠ Dom.off)) ∧
  (∃ (s : State) (origin : Origin) (d : Fin 96) (hart : Bool), (s.originThere origin.toNat = true) ∧ (s.audited false origin.toNat = false)) ∧
  (∃ (s : State) (origin : Origin) (d : Fin 96) (hart : Bool), (s.originThere origin.toNat = true) ∧ (s.audited false origin.toNat = false) ∧ (s.domSt d = Dom.on) ∧ (s.quiescent d hart = true)) ∧
  (∃ (s : State) (origin : Origin) (d : Fin 96) (hart : Bool), (s.originThere origin.toNat = true) ∧ (s.audited false origin.toNat = false) ∧ (s.domSt d = Dom.on) ∧ (s.quiescent d hart = false)) :=
  ⟨⟨regs [(PWR_DOM.STATE 17, 2)] { State.reset with now := 10 ^ 9 }, 17, by decide +kernel⟩,
   ⟨regs [(PWR_DOM.STATE 17, 2)] { State.reset with now := 10 ^ 9 }, 5, 17, true, by decide +kernel⟩,
   ⟨regs [(PWR_DOM.STATE 17, 2)] { State.reset with now := 10 ^ 9 }, 5, 17, true, by decide +kernel⟩,
   ⟨regs [(PWR_DOM.STATE 17, 2)] { State.reset with now := 10 ^ 9 }, 5, 17, false, by decide +kernel⟩⟩

theorem witness_SupplyDomainsAndGovernor_4 :
  (∃ (s : State) (origin : Origin) (d : Fin 96) (hart : Bool), (s.originThere origin.toNat = true) ∧ (s.audited false origin.toNat = false) ∧ (s.domSt d = Dom.tripped)) ∧
  (∃ (s : State) (d : Nat) (rest : List Nat), (s.sup.rampWait = d :: rest) ∧ (d < 96) ∧ (s.boot.stopped = false) ∧ (s.domCount Dom.ramp < 4)) ∧
  (∃ (s : State) (d : Nat) (rest : List Nat) (t u : State), (s.sup.rampWait = d :: rest) ∧ (s.boot.stopped = false) ∧ (s.domCount Dom.ramp < 4) ∧ (t = (s.setDom d Dom.ramp).wr (GOV_DOM_STATUS.N d) (pwrPhases d)) ∧ (u = t.wr (GOV_DOM_STATUS.CREF d) (t.rd (GOV_VREF.VREF d)))) ∧
  (∃ (s : State) (d : Nat) (rest : List Nat), (s.sup.rampWait = d :: rest) ∧ (s.boot.stopped = true)) :=
  ⟨⟨regs [(PWR_DOM.STATE 17, 4)] { State.reset with now := 10 ^ 9 }, 5, 17, false, by decide +kernel⟩,
   ⟨regs [] { State.reset with now := 10 ^ 9, sup := { rampWait := [5, 9] } }, 5, [9], by decide +kernel⟩,
   ⟨regs [] { State.reset with now := 10 ^ 9, sup := { rampWait := [5, 9] } }, 5, [9], ((regs [] { State.reset with now := 10 ^ 9, sup := { rampWait := [5, 9] } }).setDom 5 Dom.ramp).wr (GOV_DOM_STATUS.N 5) (pwrPhases 5), (((regs [] { State.reset with now := 10 ^ 9, sup := { rampWait := [5, 9] } }).setDom 5 Dom.ramp).wr (GOV_DOM_STATUS.N 5) (pwrPhases 5)).wr (GOV_DOM_STATUS.CREF 5) 0, ⟨by decide +kernel, by decide +kernel, by decide +kernel, by first | with_reducible rfl | decide +kernel, by first | with_reducible rfl | decide +kernel⟩⟩,
   ⟨regs [] { State.reset with now := 10 ^ 9, sup := { rampWait := [5, 9] }, boot := { State.reset.boot with stopped := true } }, 5, [9], by decide +kernel⟩⟩

theorem witness_SupplyDomainsAndGovernor_5 :
  (∃ (s : State) (d : Nat) (rest : List Nat), (s.sup.rampWait = d :: rest) ∧ (4 ≤ s.domCount Dom.ramp)) ∧
  (∃ (s : State) (d : Fin 96), (s.domSt d = Dom.ramp) ∧ (s.due (Tab.get? s.sup.rampBy d) = true)) ∧
  (∃ (s : State) (d : Fin 96), (s.due (Tab.get? s.sup.rampBy d) = false)) ∧
  (∃ (s : State) (d : Fin 96) (vmeas isense : BitVec 16) (jobs : List LaneJob) (u : State), (u = (((s.wr (GOV_DOM_STATUS.VMEAS d) vmeas.toNat).wr (GOV_DOM_STATUS.ISENSE d) isense.toNat).stepVref d)) ∧ (u.domSt d = Dom.ramp) ∧ (toSigned (u.rd (GOV_VREF.VREF d)) 16 - clampInt (toSigned (u.rd (GOV_BAND_LO.VALUE d)) 16) 22 2185 ≤ toSigned vmeas.toNat 16) ∧ (toSigned vmeas.toNat 16 ≤ toSigned (u.rd (GOV_VREF.VREF d)) 16 + clampInt (toSigned (u.rd (GOV_BAND_HI.VALUE d)) 16) 22 2185) ∧ (1 ≤ Tab.getD u.sup.inBand d 0)) :=
  ⟨⟨regs [(PWR_DOM.STATE 1, 1), (PWR_DOM.STATE 2, 1), (PWR_DOM.STATE 3, 1), (PWR_DOM.STATE 4, 1)] { State.reset with now := 10 ^ 9, sup := { rampWait := [5, 9] } }, 5, [9], by decide +kernel⟩,
   ⟨regs [(PWR_DOM.STATE 17, 1)] { State.reset with now := 10 ^ 9, sup := { rampBy := [(17, 256000)] } }, 17, by decide +kernel⟩,
   ⟨regs [(PWR_DOM.STATE 17, 1)] { State.reset with now := 10 ^ 9, sup := { rampBy := [(17, 10 ^ 10)] } }, 17, by decide +kernel⟩,
   ⟨regs [(PWR_DOM.STATE 17, 1), (GOV_VREF.VREF 17, 16384), (WIT_DOM.VREF 17, 16384)] { State.reset with now := 10 ^ 9, sup := { inBand := [(17, 1)] } }, 17, 16384, 0, [], (((regs [(PWR_DOM.STATE 17, 1), (GOV_VREF.VREF 17, 16384), (WIT_DOM.VREF 17, 16384)] { State.reset with now := 10 ^ 9, sup := { inBand := [(17, 1)] } }).wr (GOV_DOM_STATUS.VMEAS 17) 16384).wr (GOV_DOM_STATUS.ISENSE 17) 0).stepVref 17, ⟨by first | with_reducible rfl | decide +kernel, by decide +kernel, by decide +kernel, by decide +kernel, by decide +kernel⟩⟩⟩

theorem witness_SupplyDomainsAndGovernor_6 :
  (∃ (s : State) (d : Fin 96) (vmeas isense : BitVec 16) (jobs : List LaneJob) (u : State), (u = (((s.wr (GOV_DOM_STATUS.VMEAS d) vmeas.toNat).wr (GOV_DOM_STATUS.ISENSE d) isense.toNat).stepVref d)) ∧ (u.domSt d = Dom.ramp)) ∧
  (∃ (s : State) (d : Fin 96) (vmeas isense : BitVec 16) (jobs : List LaneJob) (u : State), (u = (((s.wr (GOV_DOM_STATUS.VMEAS d) vmeas.toNat).wr (GOV_DOM_STATUS.ISENSE d) isense.toNat).stepVref d)) ∧ (u.domSt d = Dom.off ∨ u.domSt d = Dom.tripped)) ∧
  (∃ (s : State) (d : Fin 96) (vmeas isense : BitVec 16) (jobs : List LaneJob) (u : State), (u = (((s.wr (GOV_DOM_STATUS.VMEAS d) vmeas.toNat).wr (GOV_DOM_STATUS.ISENSE d) isense.toNat).stepVref d)) ∧ (u.domSt d = Dom.on) ∧ (u.on GOV_CTL.EN = true) ∧ ((u.windowMid d : Int) - mvCode 60 ≤ toSigned vmeas.toNat 16) ∧ (toSigned vmeas.toNat 16 ≤ (u.windowMid d : Int) + mvCode 60)) ∧
  (∃ (s : State) (d : Fin 96) (vmeas isense : BitVec 16) (jobs : List LaneJob) (u : State), (u = (((s.wr (GOV_DOM_STATUS.VMEAS d) vmeas.toNat).wr (GOV_DOM_STATUS.ISENSE d) isense.toNat).stepVref d)) ∧ (u.domSt d = Dom.safe) ∧ ((u.windowMid d : Int) - mvCode 60 ≤ toSigned vmeas.toNat 16) ∧ (toSigned vmeas.toNat 16 ≤ (u.windowMid d : Int) + mvCode 60)) :=
  ⟨⟨regs [(PWR_DOM.STATE 17, 1), (GOV_VREF.VREF 17, 16384), (WIT_DOM.VREF 17, 16384)] { State.reset with now := 10 ^ 9 }, 17, 16384, 0, [], (((regs [(PWR_DOM.STATE 17, 1), (GOV_VREF.VREF 17, 16384), (WIT_DOM.VREF 17, 16384)] { State.reset with now := 10 ^ 9 }).wr (GOV_DOM_STATUS.VMEAS 17) 16384).wr (GOV_DOM_STATUS.ISENSE 17) 0).stepVref 17, ⟨by first | with_reducible rfl | decide +kernel, by decide +kernel⟩⟩,
   ⟨regs [(PWR_DOM.STATE 17, 0), (GOV_VREF.VREF 17, 16384), (WIT_DOM.VREF 17, 16384)] { State.reset with now := 10 ^ 9 }, 17, 16384, 0, [], (((regs [(PWR_DOM.STATE 17, 0), (GOV_VREF.VREF 17, 16384), (WIT_DOM.VREF 17, 16384)] { State.reset with now := 10 ^ 9 }).wr (GOV_DOM_STATUS.VMEAS 17) 16384).wr (GOV_DOM_STATUS.ISENSE 17) 0).stepVref 17, ⟨by first | with_reducible rfl | decide +kernel, by decide +kernel⟩⟩,
   ⟨regs [(PWR_DOM.STATE 17, 2), (GOV_VREF.VREF 17, 16384), (WIT_DOM.VREF 17, 16384), (GOV_CTL.EN, 1)] { State.reset with now := 10 ^ 9 }, 17, 16133, 1638, [], (((regs [(PWR_DOM.STATE 17, 2), (GOV_VREF.VREF 17, 16384), (WIT_DOM.VREF 17, 16384), (GOV_CTL.EN, 1)] { State.reset with now := 10 ^ 9 }).wr (GOV_DOM_STATUS.VMEAS 17) 16133).wr (GOV_DOM_STATUS.ISENSE 17) 1638).stepVref 17, ⟨by first | with_reducible rfl | decide +kernel, by decide +kernel, by decide +kernel, by decide +kernel, by decide +kernel⟩⟩,
   ⟨regs [(PWR_DOM.STATE 17, 3), (GOV_VREF.VREF 17, 0), (WIT_DOM.VREF 17, 0), (GOV_CTL.EN, 1)] { State.reset with now := 10 ^ 9 }, 17, 5, 1638, [], (((regs [(PWR_DOM.STATE 17, 3), (GOV_VREF.VREF 17, 0), (WIT_DOM.VREF 17, 0), (GOV_CTL.EN, 1)] { State.reset with now := 10 ^ 9 }).wr (GOV_DOM_STATUS.VMEAS 17) 5).wr (GOV_DOM_STATUS.ISENSE 17) 1638).stepVref 17, ⟨by first | with_reducible rfl | decide +kernel, by decide +kernel, by decide +kernel, by decide +kernel⟩⟩⟩

theorem witness_SupplyDomainsAndGovernor_7 :
  (∃ (s : State) (d : Fin 96) (vmeas isense : BitVec 16) (jobs : List LaneJob) (u w : State), (u = (((s.wr (GOV_DOM_STATUS.VMEAS d) vmeas.toNat).wr (GOV_DOM_STATUS.ISENSE d) isense.toNat).stepVref d)) ∧ (u.domSt d = Dom.on) ∧ (u.on GOV_CTL.EN = true) ∧ (toSigned vmeas.toNat 16 < (u.windowMid d : Int) - mvCode 60 ∨ (u.windowMid d : Int) + mvCode 60 < toSigned vmeas.toNat 16) ∧ (Tab.getD u.sup.breach d 0 = 0) ∧ (w = { u with sup := { u.sup with breach := Tab.set u.sup.breach d 1 } })) ∧
  (∃ (s : State) (d : Fin 96) (vmeas isense : BitVec 16) (jobs : List LaneJob) (u : State), (u = (((s.wr (GOV_DOM_STATUS.VMEAS d) vmeas.toNat).wr (GOV_DOM_STATUS.ISENSE d) isense.toNat).stepVref d)) ∧ (u.domSt d = Dom.safe ∨ (u.domSt d = Dom.on ∧ u.on GOV_CTL.EN = false)) ∧ (toSigned vmeas.toNat 16 < (u.windowMid d : Int) - mvCode 60 ∨ (u.windowMid d : Int) + mvCode 60 < toSigned vmeas.toNat 16) ∧ (Tab.getD u.sup.breach d 0 = 0)) ∧
  (∃ (s : State) (d : Fin 96) (vmeas isense : BitVec 16) (jobs : List LaneJob) (u : State), (u = (((s.wr (GOV_DOM_STATUS.VMEAS d) vmeas.toNat).wr (GOV_DOM_STATUS.ISENSE d) isense.toNat).stepVref d)) ∧ (u.domSt d = Dom.safe ∨ (u.domSt d = Dom.on ∧ u.on GOV_CTL.EN = false)) ∧ ((u.windowMid d : Int) - mvCode 60 ≤ toSigned vmeas.toNat 16) ∧ (toSigned vmeas.toNat 16 ≤ (u.windowMid d : Int) + mvCode 60)) ∧
  (∃ (s : State) (d : Fin 96) (vmeas isense : BitVec 16) (jobs : List LaneJob) (u : State), (u = (((s.wr (GOV_DOM_STATUS.VMEAS d) vmeas.toNat).wr (GOV_DOM_STATUS.ISENSE d) isense.toNat).stepVref d)) ∧ (u.domSt d = Dom.on ∨ u.domSt d = Dom.safe) ∧ (toSigned vmeas.toNat 16 < (u.windowMid d : Int) - mvCode 60 ∨ (u.windowMid d : Int) + mvCode 60 < toSigned vmeas.toNat 16) ∧ (1 ≤ Tab.getD u.sup.breach d 0)) :=
  ⟨⟨regs [(PWR_DOM.STATE 17, 2), (GOV_VREF.VREF 17, 16384), (WIT_DOM.VREF 17, 16384), (GOV_CTL.EN, 1)] { State.reset with now := 10 ^ 9 }, 17, 9000, 1638, [], (((regs [(PWR_DOM.STATE 17, 2), (GOV_VREF.VREF 17, 16384), (WIT_DOM.VREF 17, 16384), (GOV_CTL.EN, 1)] { State.reset with now := 10 ^ 9 }).wr (GOV_DOM_STATUS.VMEAS 17) 9000).wr (GOV_DOM_STATUS.ISENSE 17) 1638).stepVref 17, { (((regs [(PWR_DOM.STATE 17, 2), (GOV_VREF.VREF 17, 16384), (WIT_DOM.VREF 17, 16384), (GOV_CTL.EN, 1)] { State.reset with now := 10 ^ 9 }).wr (GOV_DOM_STATUS.VMEAS 17) 9000).wr (GOV_DOM_STATUS.ISENSE 17) 1638).stepVref 17 with sup := { breach := [(17, 1)] } }, ⟨by first | with_reducible rfl | decide +kernel, by decide +kernel, by decide +kernel, by decide +kernel, by decide +kernel, by first | with_reducible rfl | decide +kernel⟩⟩,
   ⟨regs [(PWR_DOM.STATE 17, 3), (GOV_VREF.VREF 17, 0), (WIT_DOM.VREF 17, 0), (GOV_CTL.EN, 1)] { State.reset with now := 10 ^ 9 }, 17, 9000, 1638, [], (((regs [(PWR_DOM.STATE 17, 3), (GOV_VREF.VREF 17, 0), (WIT_DOM.VREF 17, 0), (GOV_CTL.EN, 1)] { State.reset with now := 10 ^ 9 }).wr (GOV_DOM_STATUS.VMEAS 17) 9000).wr (GOV_DOM_STATUS.ISENSE 17) 1638).stepVref 17, ⟨by first | with_reducible rfl | decide +kernel, by decide +kernel, by decide +kernel, by decide +kernel⟩⟩,
   ⟨regs [(PWR_DOM.STATE 17, 3), (GOV_VREF.VREF 17, 0), (WIT_DOM.VREF 17, 0), (GOV_CTL.EN, 1)] { State.reset with now := 10 ^ 9 }, 17, 5, 1638, [], (((regs [(PWR_DOM.STATE 17, 3), (GOV_VREF.VREF 17, 0), (WIT_DOM.VREF 17, 0), (GOV_CTL.EN, 1)] { State.reset with now := 10 ^ 9 }).wr (GOV_DOM_STATUS.VMEAS 17) 5).wr (GOV_DOM_STATUS.ISENSE 17) 1638).stepVref 17, ⟨by first | with_reducible rfl | decide +kernel, by decide +kernel, by decide +kernel, by decide +kernel⟩⟩,
   ⟨regs [(PWR_DOM.STATE 17, 2), (GOV_VREF.VREF 17, 16384), (WIT_DOM.VREF 17, 16384), (GOV_CTL.EN, 1)] { State.reset with now := 10 ^ 9, sup := { breach := [(17, 1)] } }, 17, 9000, 1638, [], (((regs [(PWR_DOM.STATE 17, 2), (GOV_VREF.VREF 17, 16384), (WIT_DOM.VREF 17, 16384), (GOV_CTL.EN, 1)] { State.reset with now := 10 ^ 9, sup := { breach := [(17, 1)] } }).wr (GOV_DOM_STATUS.VMEAS 17) 9000).wr (GOV_DOM_STATUS.ISENSE 17) 1638).stepVref 17, ⟨by first | with_reducible rfl | decide +kernel, by decide +kernel, by decide +kernel, by decide +kernel⟩⟩⟩

theorem witness_SupplyDomainsAndGovernor_8 :
  (∃ (s : State) (d : Nat) (v i : Int), (d < 96) ∧ (clampInt (toSigned (s.rd (GOV_PLAUS_LIM.VALUE d)) 16) 22 4369 < (toSigned (s.rd (GOV_DOM_STATUS.CREF d)) 16 - (s.rd (GOV_MODEL_R.VALUE d) : Int) * i / 2 ^ 15 / (s.rd (GOV_DOM_STATUS.N d) : Int)) - v) ∧ (s.rd (GOV_PLAUS_N.VALUE d) = s.rd (GOV_DOM_STATUS.FAILS d) + 1) ∧ (s.rd (GOV_PLAUS_N.VALUE d) ≤ 255)) ∧
  (∃ (s : State) (d : Fin 96), (s.domSt d = Dom.safe)) ∧
  (∃ (s : State) (d : Fin 96), (s.domSt d = Dom.safe)) ∧
  (∃ (s : State) (d : Fin 96), (s.domSt d ≠ Dom.safe)) :=
  ⟨⟨regs [(PWR_DOM.STATE 17, 2), (GOV_VREF.VREF 17, 16384), (WIT_DOM.VREF 17, 16384), (GOV_CTL.EN, 1), (GOV_DOM_STATUS.N 17, 1), (GOV_DOM_STATUS.CREF 17, 16424), (GOV_DOM_STATUS.FAILS 17, 3)] { State.reset with now := 10 ^ 9 }, 17, 16133, 0, by decide +kernel⟩,
   ⟨regs [(PWR_DOM.STATE 17, 3), (GOV_VREF.VREF 17, 0), (WIT_DOM.VREF 17, 0), (GOV_CTL.EN, 1)] { State.reset with now := 10 ^ 9 }, 17, by decide +kernel⟩,
   ⟨regs [(PWR_DOM.STATE 17, 3), (GOV_VREF.VREF 17, 0), (WIT_DOM.VREF 17, 0), (GOV_CTL.EN, 1)] { State.reset with now := 10 ^ 9 }, 17, by decide +kernel⟩,
   ⟨regs [(PWR_DOM.STATE 17, 2), (GOV_VREF.VREF 17, 16384), (WIT_DOM.VREF 17, 16384), (GOV_CTL.EN, 1)] { State.reset with now := 10 ^ 9 }, 17, by decide +kernel⟩⟩

theorem witness_ThermalSensingWitnessPassesRetirement :
  (∃ (s : State) (temps : List Int), (temps.any (fun (t : Int) => decide (115 ≤ t)) = false)) ∧
  (∃ (s : State) (temps : List Int) (t u : State), (temps.any (fun (t : Int) => decide (115 ≤ t)) = false ∨ u.pins.thermTripN = false) ∧ (t = match hottest temps with | some m => ({ s with sup := { s.sup with sensors := temps } } : State).wr WIT_STATUS.TJ_MAX (ofSigned m 8) | none => { s with sup := { s.sup with sensors := temps } }) ∧ (u = (List.range 6).foldl (fun (s : State) c => s.throttleCluster temps c) t)) ∧
  (∃ (s : State) (temps : List Int) (m : Int) (u : State), (temps.any (fun (t : Int) => decide (115 ≤ t)) = true) ∧ (s.pins.thermTripN = true) ∧ (hottest temps = some m) ∧ (u = (List.range 6).foldl (fun (s : State) c => s.throttleCluster temps c) (({ s with sup := { s.sup with sensors := temps } } : State).wr WIT_STATUS.TJ_MAX (ofSigned m 8)))) ∧
  (∃ (s : State), (s.due s.sup.tripOff = true)) :=
  ⟨⟨regs [] { State.reset with now := 10 ^ 9 }, [40, 60], by decide +kernel⟩,
   ⟨regs [] { State.reset with now := 10 ^ 9 }, [40, 60], ({ (regs [] { State.reset with now := 10 ^ 9 }) with sup := { sensors := [40, 60] } } : State).wr WIT_STATUS.TJ_MAX 60, (List.range 6).foldl (fun (s : State) c => s.throttleCluster [40, 60] c) (({ (regs [] { State.reset with now := 10 ^ 9 }) with sup := { sensors := [40, 60] } } : State).wr WIT_STATUS.TJ_MAX 60), ⟨by decide +kernel, by first | with_reducible rfl | decide +kernel, by first | with_reducible rfl | decide +kernel⟩⟩,
   ⟨regs [] { State.reset with now := 10 ^ 9 }, [115, 60], 115, (List.range 6).foldl (fun (s : State) c => s.throttleCluster [115, 60] c) (({ (regs [] { State.reset with now := 10 ^ 9 }) with sup := { State.reset.sup with sensors := [115, 60] } } : State).wr WIT_STATUS.TJ_MAX (ofSigned 115 8)), ⟨by decide +kernel, by decide +kernel, by decide +kernel, by first | with_reducible rfl | decide +kernel⟩⟩,
   ⟨regs [(PWR_DOM.STATE 17, 2)] { State.reset with now := 10 ^ 9, sup := { tripOff := some 5 } }, by decide +kernel⟩⟩

theorem witness_ThermalSensingWitnessPassesRetirement_2 :
  (∃ (s : State) (t : State), (s.due s.sup.tripOff = true) ∧ (t = s.headStopped)) ∧
  (∃ (s : State), (s.due s.sup.tripOff = false)) ∧
  (∃ (s : State), (s.due s.sup.passAt = true)) ∧
  (∃ (s : State), (s.due s.sup.passAt = true) ∧ (s.on WIT_CTL.EN = true) ∧ (s.on WIT_STATUS.BUSY = false)) :=
  ⟨⟨regs [(PWR_DOM.STATE 17, 2)] { State.reset with now := 10 ^ 9, sup := { tripOff := some 5 } }, (regs [(PWR_DOM.STATE 17, 2)] { State.reset with now := 10 ^ 9, sup := { tripOff := some 5 } }).headStopped, ⟨by decide +kernel, by first | with_reducible rfl | decide +kernel⟩⟩,
   ⟨regs [] { State.reset with now := 10 ^ 9 }, by decide +kernel⟩,
   ⟨regs [(WIT_CTL.EN, 1)] { State.reset with now := 10 ^ 9, sup := { passAt := some 5 } }, by decide +kernel⟩,
   ⟨regs [(WIT_CTL.EN, 1)] { State.reset with now := 10 ^ 9, sup := { passAt := some 5 } }, by decide +kernel⟩⟩

theorem witness_ThermalSensingWitnessPassesRetirement_3 :
  (∃ (s : State), (s.due s.sup.passAt = false)) ∧
  (∃ (s : State) (origin : Origin), (s.admits .wit origin = true) ∧ (s.on WIT_CTL.EN = true) ∧ (s.on WIT_STATUS.BUSY = false)) ∧
  (∃ (s : State) (origin : Origin), (s.admits .wit origin = true) ∧ (s.on WIT_STATUS.BUSY = true ∨ s.on WIT_CTL.EN = false)) ∧
  (∃ (s : State) (marks : List (Nat × Int)) (t : State), (s.sup.nextMark = none) ∧ (t = { s with sup := { s.sup with late := s.sup.late.drop 8 } })) :=
  ⟨⟨regs [] { State.reset with now := 10 ^ 9 }, by decide +kernel⟩,
   ⟨regs [(WIT_CTL.EN, 1)] { State.reset with now := 10 ^ 9 }, 0, by decide +kernel⟩,
   ⟨regs [(WIT_CTL.EN, 1), (WIT_STATUS.BUSY, 1)] { State.reset with now := 10 ^ 9 }, 0, by decide +kernel⟩,
   ⟨regs [] { State.reset with now := 10 ^ 9, sup := { late := [5] } }, [(500, 60)], regs [] { State.reset with now := 10 ^ 9 }, ⟨by decide +kernel, by first | with_reducible rfl | decide +kernel⟩⟩⟩

theorem witness_ThermalSensingWitnessPassesRetirement_4 :
  (∃ (s : State) (marks : List (Nat × Int)) (m : Nat), (s.sup.nextMark = some m) ∧ (m + 8 < 384)) ∧
  (∃ (s : State) (marks : List (Nat × Int)) (m : Nat), (s.sup.nextMark = some m) ∧ (384 ≤ m + 8)) ∧
  (∃ (s : State) (core : Fin 48) (t : State), (s.bit WIT_RETIRE_CORE.REQ core = true) ∧ (t = { s with sup := { s.sup with hartsStopped := insertAsc core s.sup.hartsStopped } })) ∧
  (∃ (s : State) (core : Fin 48), (s.bit WIT_RETIRE_CORE.REQ core = true)) :=
  ⟨⟨regs [(PWR_DOM.STATE 0, 2)] { State.reset with now := 10 ^ 9, sup := { nextMark := some 0 } }, [(500, 60)], 0, by decide +kernel⟩,
   ⟨regs [(PWR_DOM.STATE 0, 2)] { State.reset with now := 10 ^ 9, sup := { nextMark := some 376 } }, [(500, 60)], 376, by decide +kernel⟩,
   ⟨regs [(WIT_RETIRE_CORE.REQ, 128), (PWR_DOM.STATE 7, 2)] { State.reset with now := 10 ^ 9 }, 7, { (regs [(WIT_RETIRE_CORE.REQ, 128), (PWR_DOM.STATE 7, 2)] { State.reset with now := 10 ^ 9 }) with sup := { hartsStopped := [7] } }, ⟨by decide +kernel, by first | with_reducible rfl | decide +kernel⟩⟩,
   ⟨regs [(WIT_RETIRE_CORE.REQ, 128), (PWR_DOM.STATE 7, 2)] { State.reset with now := 10 ^ 9 }, 7, by decide +kernel⟩⟩

theorem witness_ThermalSensingWitnessPassesRetirement_5 :
  (∃ (s : State) (core : Fin 48), (s.bit WIT_RETIRE_CORE.REQ core = false)) :=
  ⟨regs [] { State.reset with now := 10 ^ 9 }, 7, by decide +kernel⟩

theorem witness_MeterCountsCutsAndSweeps :
  (∃ (s : State) (e : MtrEvent) (q : List MtrEvent), (s.mtr.queue = e :: q) ∧ (s.on MTR_CTL.EN = true) ∧ (s.mtr.nextCut.any (· ≤ e.tick) = false)) ∧
  (∃ (s : State) (e : MtrEvent) (q : List MtrEvent) (t : State), (s.mtr.queue = e :: q) ∧ (s.on MTR_CTL.EN = true) ∧ (s.mtr.nextCut.any (· ≤ e.tick) = true) ∧ (t = s.meterCut)) ∧
  (∃ (s : State) (e : MtrEvent) (i : Nat) (l : MtrLine), (s.mtrFind e.tenant e.shard = some i) ∧ (Tab.get? s.mtr.lines i = some l) ∧ (s.mtr.lastCut ≤ e.tick ∨ s.mtr.sweepAt = none) ∧ (e.ctr < 10) ∧ (256 ≤ i)) ∧
  (∃ (s : State) (e : MtrEvent) (i : Nat) (l : MtrLine), (s.mtrFind e.tenant e.shard = some i) ∧ (Tab.get? s.mtr.lines i = some l) ∧ (e.tick < s.mtr.lastCut) ∧ (s.mtr.sweepAt.isSome = true) ∧ (l.swept = false) ∧ (e.ctr < 10) ∧ (256 ≤ i)) :=
  ⟨⟨regs [(MTR_CTL.EN, 1), (MTR_CTL.INTERVAL, 1), (DDR_CFG.CAP_GIB, 16), (MTR_REC_RING.BASE, 16), (MTR_REC_RING.LOG2_ENTRIES, 8)] { State.reset with now := 10 ^ 13, mtr := { queue := [⟨5, 3, 0, 4096, 7⟩] } }, ⟨5, 3, 0, 4096, 7⟩, [], by decide +kernel⟩,
   ⟨regs [(MTR_CTL.EN, 1), (MTR_CTL.INTERVAL, 1), (DDR_CFG.CAP_GIB, 16), (MTR_REC_RING.BASE, 16), (MTR_REC_RING.LOG2_ENTRIES, 8)] { State.reset with now := 10 ^ 13, mtr := { queue := [⟨5, 3, 0, 4096, 7⟩], nextCut := some 7 } }, ⟨5, 3, 0, 4096, 7⟩, [], (regs [(MTR_CTL.EN, 1), (MTR_CTL.INTERVAL, 1), (DDR_CFG.CAP_GIB, 16), (MTR_REC_RING.BASE, 16), (MTR_REC_RING.LOG2_ENTRIES, 8)] { State.reset with now := 10 ^ 13, mtr := { queue := [⟨5, 3, 0, 4096, 7⟩], nextCut := some 7 } }).meterCut, ⟨by decide +kernel, by decide +kernel, by decide +kernel, by first | with_reducible rfl | decide +kernel⟩⟩,
   ⟨regs [(MTR_CTL.EN, 1), (MTR_CTL.INTERVAL, 1), (DDR_CFG.CAP_GIB, 16), (MTR_REC_RING.BASE, 16), (MTR_REC_RING.LOG2_ENTRIES, 8)] { State.reset with now := 10 ^ 13, mtr := { lines := [(256 + Config.mtrProbe 5 3 0 (2 ^ State.reset.rd MTR_LINE_TABLE.LOG2_LINES) % (2 ^ State.reset.rd MTR_LINE_TABLE.LOG2_LINES - 256), { tenant := 5, shard := 3 })] } }, ⟨5, 3, 0, 4096, 7⟩, 256 + Config.mtrProbe 5 3 0 (2 ^ State.reset.rd MTR_LINE_TABLE.LOG2_LINES) % (2 ^ State.reset.rd MTR_LINE_TABLE.LOG2_LINES - 256), { tenant := 5, shard := 3 }, ⟨mtrFind_of _ 5 3 _ (get?_single _ _) rfl rfl, get?_single _ _, by decide, by decide, Nat.le_add_right _ _⟩⟩,
   ⟨regs [(MTR_CTL.EN, 1), (MTR_CTL.INTERVAL, 1), (DDR_CFG.CAP_GIB, 16), (MTR_REC_RING.BASE, 16), (MTR_REC_RING.LOG2_ENTRIES, 8)] { State.reset with now := 10 ^ 13, mtr := { lines := [(256 + Config.mtrProbe 5 3 0 (2 ^ State.reset.rd MTR_LINE_TABLE.LOG2_LINES) % (2 ^ State.reset.rd MTR_LINE_TABLE.LOG2_LINES - 256), { tenant := 5, shard := 3, swept := false })], lastCut := 9, sweepAt := some 0 } }, ⟨5, 3, 0, 4096, 7⟩, 256 + Config.mtrProbe 5 3 0 (2 ^ State.reset.rd MTR_LINE_TABLE.LOG2_LINES) % (2 ^ State.reset.rd MTR_LINE_TABLE.LOG2_LINES - 256), { tenant := 5, shard := 3, swept := false }, ⟨mtrFind_of _ 5 3 _ (get?_single _ _) rfl rfl, get?_single _ _, by decide, by decide, by decide, by decide, Nat.le_add_right _ _⟩⟩⟩

theorem witness_MeterCountsCutsAndSweeps_2 :
  (∃ (s : State) (e : MtrEvent), (s.mtrFind e.tenant e.shard = none) ∧ (s.mtrFree e.tenant e.shard = none) ∧ (s.mtr.lastCut ≤ e.tick) ∧ (e.shard < 256)) ∧
  (∃ (s : State), (s.mtr.queue = [] ∨ s.on MTR_CTL.EN = false)) ∧
  (∃ (s : State), (s.on MTR_CTL.EN = false)) ∧
  (∃ (s : State) (t : State), (s.on MTR_CTL.EN = true) ∧ (t = s.meterCut)) :=
  ⟨⟨regs [(MTR_CTL.EN, 1), (MTR_CTL.INTERVAL, 1), (DDR_CFG.CAP_GIB, 16), (MTR_REC_RING.BASE, 16), (MTR_REC_RING.LOG2_ENTRIES, 8)] { State.reset with now := 10 ^ 13, mtr := { lines := fullLines 5 3 } }, ⟨5, 3, 0, 4096, 7⟩, ⟨mtrFind_full _ 5 3 rfl (by decide), mtrFree_full _ 5 3 rfl (by decide +kernel), by decide, by decide⟩⟩,
   ⟨regs [(MTR_CTL.EN, 1), (MTR_CTL.INTERVAL, 1), (DDR_CFG.CAP_GIB, 16), (MTR_REC_RING.BASE, 16), (MTR_REC_RING.LOG2_ENTRIES, 8)] { State.reset with now := 10 ^ 13, mtr := {  } }, by decide +kernel⟩,
   ⟨State.reset, by decide +kernel⟩,
   ⟨regs [(MTR_CTL.EN, 1), (MTR_CTL.INTERVAL, 1), (DDR_CFG.CAP_GIB, 16), (MTR_REC_RING.BASE, 16), (MTR_REC_RING.LOG2_ENTRIES, 8)] { State.reset with now := 10 ^ 13, mtr := {  } }, (regs [(MTR_CTL.EN, 1), (MTR_CTL.INTERVAL, 1), (DDR_CFG.CAP_GIB, 16), (MTR_REC_RING.BASE, 16), (MTR_REC_RING.LOG2_ENTRIES, 8)] { State.reset with now := 10 ^ 13, mtr := {  } }).meterCut, ⟨by decide +kernel, by first | with_reducible rfl | decide +kernel⟩⟩⟩

theorem witness_MeterCountsCutsAndSweeps_3 :
  (∃ (s : State) (i w : Nat) (l : MtrLine), (s.on MTR_CTL.EN = true) ∧ (s.due s.mtr.nextCut = false) ∧ (Tab.get? s.mtr.lines i = some l) ∧ (Tab.get? s.mtr.capFrom l.shard = some w)) ∧
  (∃ (s : State), (s.on MTR_CTL.EN = false ∨ s.due s.mtr.nextCut = false)) ∧
  (∃ (s : State), (s.on MTR_CTL.EN = true) ∧ (s.due s.mtr.nextCut = true)) ∧
  (∃ (s : State), (s.on MTR_CTL.EN = true) ∧ (s.due s.mtr.nextCut = true) ∧ ((s.mtr.lines.all fun (e : Nat × MtrLine) => e.2.swept) = true)) :=
  ⟨⟨regs [(MTR_CTL.EN, 1), (MTR_CTL.INTERVAL, 1), (DDR_CFG.CAP_GIB, 16), (MTR_REC_RING.BASE, 16), (MTR_REC_RING.LOG2_ENTRIES, 8)] { State.reset with now := 10 ^ 13, mtr := { lines := [(300, { tenant := 5, shard := 3, capNow := 7 })], capFrom := [(3, 5)] } }, 300, 5, { tenant := 5, shard := 3, capNow := 7 }, by decide +kernel⟩,
   ⟨regs [(MTR_CTL.EN, 1), (MTR_CTL.INTERVAL, 1), (DDR_CFG.CAP_GIB, 16), (MTR_REC_RING.BASE, 16), (MTR_REC_RING.LOG2_ENTRIES, 8)] { State.reset with now := 10 ^ 13, mtr := {  } }, by decide +kernel⟩,
   ⟨regs [(MTR_CTL.EN, 1), (MTR_CTL.INTERVAL, 1), (DDR_CFG.CAP_GIB, 16), (MTR_REC_RING.BASE, 16), (MTR_REC_RING.LOG2_ENTRIES, 8)] { State.reset with now := 10 ^ 13, mtr := { len := 1600000000, nextCut := some 5 } }, by decide +kernel⟩,
   ⟨regs [(MTR_CTL.EN, 1), (MTR_CTL.INTERVAL, 1), (DDR_CFG.CAP_GIB, 16), (MTR_REC_RING.BASE, 16), (MTR_REC_RING.LOG2_ENTRIES, 8)] { State.reset with now := 10 ^ 13, mtr := { lines := [(300, { tenant := 5, shard := 3, capNow := 7 })], len := 1600000000, nextCut := some 5 } }, by decide +kernel⟩⟩

theorem witness_MeterCountsCutsAndSweeps_4 :
  (∃ (s : State) (l : MtrLine) (start : Nat) (b : Bool), (l.swept = false)) ∧
  (∃ (s : State), (s.mtr.sweepAt = none ∨ s.on MTR_CTL.EN = false ∨ (s.mtr.queue.any fun (e : MtrEvent) => e.tick < s.mtr.lastCut) = true)) ∧
  (∃ (s : State) (u : State), (s.mtr.sweepAt.isSome = true) ∧ (s.on MTR_CTL.EN = true) ∧ ((s.mtr.queue.any fun (e : MtrEvent) => e.tick < s.mtr.lastCut) = false) ∧ (s.recRoom = true) ∧ (u = ({ s with mtr := { s.mtr with ringFull := false } } : State).wr MTR_STATUS.RING_WAIT 0)) ∧
  (∃ (s : State) (u : State), (s.mtr.sweepAt.isSome = true) ∧ (s.on MTR_CTL.EN = true) ∧ ((s.mtr.queue.any fun (e : MtrEvent) => e.tick < s.mtr.lastCut) = false) ∧ ((s.mtr.lines.all fun (e : Nat × MtrLine) => e.2.swept) = true) ∧ (s.recRoom = true) ∧ (u = ({ s with mtr := { s.mtr with ringFull := false } } : State).wr MTR_STATUS.RING_WAIT 0)) :=
  ⟨⟨State.reset, { tenant := 5, shard := 3, swept := false }, 5, true, by decide +kernel⟩,
   ⟨regs [(MTR_CTL.EN, 1), (MTR_CTL.INTERVAL, 1), (DDR_CFG.CAP_GIB, 16), (MTR_REC_RING.BASE, 16), (MTR_REC_RING.LOG2_ENTRIES, 8)] { State.reset with now := 10 ^ 13, mtr := {  } }, by decide +kernel⟩,
   ⟨regs [(MTR_CTL.EN, 1), (MTR_CTL.INTERVAL, 1), (DDR_CFG.CAP_GIB, 16), (MTR_REC_RING.BASE, 16), (MTR_REC_RING.LOG2_ENTRIES, 8)] { State.reset with now := 10 ^ 13, mtr := { sweepAt := some 0 } }, (({ (regs [(MTR_CTL.EN, 1), (MTR_CTL.INTERVAL, 1), (DDR_CFG.CAP_GIB, 16), (MTR_REC_RING.BASE, 16), (MTR_REC_RING.LOG2_ENTRIES, 8)] { State.reset with now := 10 ^ 13, mtr := { sweepAt := some 0 } }) with mtr := { sweepAt := some 0, ringFull := false } } : State).wr MTR_STATUS.RING_WAIT 0), ⟨by decide +kernel, by decide +kernel, by decide +kernel, by decide +kernel, by first | with_reducible rfl | decide +kernel⟩⟩,
   ⟨regs [(MTR_CTL.EN, 1), (MTR_CTL.INTERVAL, 1), (DDR_CFG.CAP_GIB, 16), (MTR_REC_RING.BASE, 16), (MTR_REC_RING.LOG2_ENTRIES, 8)] { State.reset with now := 10 ^ 13, mtr := { sweepAt := some 0 } }, (({ (regs [(MTR_CTL.EN, 1), (MTR_CTL.INTERVAL, 1), (DDR_CFG.CAP_GIB, 16), (MTR_REC_RING.BASE, 16), (MTR_REC_RING.LOG2_ENTRIES, 8)] { State.reset with now := 10 ^ 13, mtr := { sweepAt := some 0 } }) with mtr := { sweepAt := some 0, ringFull := false } } : State).wr MTR_STATUS.RING_WAIT 0), ⟨by decide +kernel, by decide +kernel, by decide +kernel, by decide +kernel, by decide +kernel, by first | with_reducible rfl | decide +kernel⟩⟩⟩

theorem witness_MeterCountsCutsAndSweeps_5 :
  (∃ (s : State), (s.mtr.sweepAt.isSome = true) ∧ (s.on MTR_CTL.EN = true) ∧ ((s.mtr.queue.any fun (e : MtrEvent) => e.tick < s.mtr.lastCut) = false) ∧ ((s.mtr.lines.all fun (e : Nat × MtrLine) => e.2.swept) = true) ∧ (s.recRoom = false)) ∧
  (∃ (s : State), (s.mtr.sweepAt.isSome = true) ∧ (s.on MTR_CTL.EN = true) ∧ ((s.mtr.queue.any fun (e : MtrEvent) => e.tick < s.mtr.lastCut) = false) ∧ (s.recRoom = false)) ∧
  (∃ (s : State), (s.mtr.ringFull = false)) ∧
  (∃ (s : State) (i : Nat) (l : MtrLine) (rest : List (Nat × MtrLine)), (l.frozen.nonzero = true) ∧ (s.recRoom = true)) :=
  ⟨⟨regs [(MTR_CTL.EN, 1), (MTR_CTL.INTERVAL, 1), (DDR_CFG.CAP_GIB, 16), (MTR_REC_RING.BASE, 16), (MTR_REC_RING.LOG2_ENTRIES, 8), (MTR_REC_IDX.PROD, 255)] { State.reset with now := 10 ^ 13, mtr := { sweepAt := some 0 } }, by decide +kernel⟩,
   ⟨regs [(MTR_CTL.EN, 1), (MTR_CTL.INTERVAL, 1), (DDR_CFG.CAP_GIB, 16), (MTR_REC_RING.BASE, 16), (MTR_REC_RING.LOG2_ENTRIES, 8), (MTR_REC_IDX.PROD, 255)] { State.reset with now := 10 ^ 13, mtr := { sweepAt := some 0 } }, by decide +kernel⟩,
   ⟨regs [(MTR_CTL.EN, 1), (MTR_CTL.INTERVAL, 1), (DDR_CFG.CAP_GIB, 16), (MTR_REC_RING.BASE, 16), (MTR_REC_RING.LOG2_ENTRIES, 8), (MTR_REC_IDX.PROD, 255)] { State.reset with now := 10 ^ 13, mtr := { sweepAt := some 0 } }, by decide +kernel⟩,
   ⟨regs [(MTR_CTL.EN, 1), (MTR_CTL.INTERVAL, 1), (DDR_CFG.CAP_GIB, 16), (MTR_REC_RING.BASE, 16), (MTR_REC_RING.LOG2_ENTRIES, 8)] { State.reset with now := 10 ^ 13, mtr := {  } }, 300, { tenant := 5, shard := 3, frozen := { ctr := [(0, 1)] } }, [], by decide +kernel⟩⟩

theorem witness_MeterCountsCutsAndSweeps_6 :
  (∃ (s : State) (i : Nat) (l : MtrLine) (rest : List (Nat × MtrLine)), (l.frozen.nonzero = true) ∧ (s.recRoom = false)) ∧
  (∃ (s : State) (i : Nat) (l : MtrLine) (rest : List (Nat × MtrLine)) (t : State), (l.frozen.nonzero = false) ∧ (l.active.nonzero = false) ∧ (l.capNow = 0) ∧ (t = { s with mtr := { s.mtr with lines := Tab.del s.mtr.lines i } })) ∧
  (∃ (s : State) (i : Nat) (l : MtrLine) (rest : List (Nat × MtrLine)), (l.frozen.nonzero = false) ∧ (l.active.nonzero = true ∨ l.capNow ≠ 0)) ∧
  (∃ (s : State) (d : DescRef) (f : Fetched), (s.startedAt .mtr d Op.capSet = some f) ∧ (s.shardWon (f.at 28 1) = false)) :=
  ⟨⟨regs [(MTR_CTL.EN, 1), (MTR_CTL.INTERVAL, 1), (DDR_CFG.CAP_GIB, 16), (MTR_REC_RING.BASE, 16), (MTR_REC_RING.LOG2_ENTRIES, 8), (MTR_REC_IDX.PROD, 255)] { State.reset with now := 10 ^ 13, mtr := { sweepAt := some 0 } }, 300, { tenant := 5, shard := 3, frozen := { ctr := [(0, 1)] } }, [], by decide +kernel⟩,
   ⟨regs [(MTR_CTL.EN, 1), (MTR_CTL.INTERVAL, 1), (DDR_CFG.CAP_GIB, 16), (MTR_REC_RING.BASE, 16), (MTR_REC_RING.LOG2_ENTRIES, 8)] { State.reset with now := 10 ^ 13, mtr := {  } }, 300, { tenant := 5, shard := 3 }, [], ((fun (s : State) => { s with mtr := { s.mtr with lines := Tab.del s.mtr.lines 300 } }) (regs [(MTR_CTL.EN, 1), (MTR_CTL.INTERVAL, 1), (DDR_CFG.CAP_GIB, 16), (MTR_REC_RING.BASE, 16), (MTR_REC_RING.LOG2_ENTRIES, 8)] { State.reset with now := 10 ^ 13, mtr := {  } })), ⟨by decide +kernel, by decide +kernel, by decide +kernel, by first | with_reducible rfl | decide +kernel⟩⟩,
   ⟨regs [(MTR_CTL.EN, 1), (MTR_CTL.INTERVAL, 1), (DDR_CFG.CAP_GIB, 16), (MTR_REC_RING.BASE, 16), (MTR_REC_RING.LOG2_ENTRIES, 8)] { State.reset with now := 10 ^ 13, mtr := {  } }, 300, { tenant := 5, shard := 3, capNow := 7 }, [], by decide +kernel⟩,
   ⟨holds .mtr [desc 0 Op.capSet [(4, 2, 5), (28, 1, 3), (32, 8, 77)]] (regs [(MTR_CTL.EN, 1), (MTR_CTL.INTERVAL, 1), (DDR_CFG.CAP_GIB, 16), (MTR_REC_RING.BASE, 16), (MTR_REC_RING.LOG2_ENTRIES, 8)] { State.reset with now := 10 ^ 13, mtr := {  } }), ⟨0, 0⟩, desc 0 Op.capSet [(4, 2, 5), (28, 1, 3), (32, 8, 77)] .started, by decide +kernel⟩⟩

theorem witness_MeterCountsCutsAndSweeps_7 :
  (∃ (s : State) (d : DescRef) (f : Fetched), (s.startedAt .mtr d Op.capSet = some f) ∧ (s.shardWon (f.at 28 1) = true) ∧ (f.at 40 8 ≠ 0) ∧ (s.now < f.at 40 8 ∨ f.at 40 8 < Tab.getD s.mtr.capFrom (f.at 28 1) 0)) ∧
  (∃ (s : State) (d : DescRef) (f : Fetched) (i : Nat) (l : MtrLine), (s.startedAt .mtr d Op.capSet = some f) ∧ (s.shardWon (f.at 28 1) = true) ∧ (f.at 40 8 = 0) ∧ (s.mtrFind f.tenant (f.at 28 1) = some i) ∧ (Tab.get? s.mtr.lines i = some l)) ∧
  (∃ (s : State) (d : DescRef) (f : Fetched) (i : Nat) (l : MtrLine), (s.startedAt .mtr d Op.capSet = some f) ∧ (s.shardWon (f.at 28 1) = true) ∧ (f.at 40 8 ≠ 0) ∧ (f.at 40 8 = 0 ∨ f.at 40 8 ≤ s.now ∧ Tab.getD s.mtr.capFrom (f.at 28 1) 0 ≤ f.at 40 8) ∧ (s.mtrFind f.tenant (f.at 28 1) = some i) ∧ (Tab.get? s.mtr.lines i = some l)) ∧
  (∃ (s : State) (d : DescRef) (f : Fetched) (i n : Nat) (l : MtrLine), (s.startedAt .mtr d Op.capSet = some f) ∧ (s.shardWon (f.at 28 1) = true) ∧ (f.at 40 8 = 0 ∨ f.at 40 8 ≤ s.now ∧ Tab.getD s.mtr.capFrom (f.at 28 1) 0 ≤ f.at 40 8) ∧ (s.mtrFind f.tenant (f.at 28 1) = none) ∧ (s.mtrFree f.tenant (f.at 28 1) = some i) ∧ (l = { tenant := f.tenant, shard := f.at 28 1 }) ∧ (n = if f.at 40 8 = 0 then 0 else s.now / mgmtTick - f.at 40 8 / mgmtTick)) :=
  ⟨⟨holds .mtr [desc 0 Op.capSet [(4, 2, 5), (28, 1, 3), (32, 8, 77), (40, 8, 9)]] (regs [(MTR_CTL.EN, 1), (MTR_CTL.INTERVAL, 1), (DDR_CFG.CAP_GIB, 16), (MTR_REC_RING.BASE, 16), (MTR_REC_RING.LOG2_ENTRIES, 8), (LEASE_SHARD.STATE 3, 4)] { State.reset with now := 10 ^ 13, mtr := { capFrom := [(3, 10)] } }), ⟨0, 0⟩, desc 0 Op.capSet [(4, 2, 5), (28, 1, 3), (32, 8, 77), (40, 8, 9)] .started, by decide +kernel⟩,
   ⟨holds .mtr [desc 0 Op.capSet [(4, 2, 5), (28, 1, 3), (32, 8, 77)]] (regs [(MTR_CTL.EN, 1), (MTR_CTL.INTERVAL, 1), (DDR_CFG.CAP_GIB, 16), (MTR_REC_RING.BASE, 16), (MTR_REC_RING.LOG2_ENTRIES, 8), (LEASE_SHARD.STATE 3, 4)] { State.reset with now := 10 ^ 13, mtr := { lines := [(256 + Config.mtrProbe 5 3 0 (2 ^ State.reset.rd MTR_LINE_TABLE.LOG2_LINES) % (2 ^ State.reset.rd MTR_LINE_TABLE.LOG2_LINES - 256), { tenant := 5, shard := 3 })] } }), ⟨0, 0⟩, desc 0 Op.capSet [(4, 2, 5), (28, 1, 3), (32, 8, 77)] .started, 256 + Config.mtrProbe 5 3 0 (2 ^ State.reset.rd MTR_LINE_TABLE.LOG2_LINES) % (2 ^ State.reset.rd MTR_LINE_TABLE.LOG2_LINES - 256), { tenant := 5, shard := 3 }, ⟨by decide +kernel, by decide +kernel, by decide +kernel, mtrFind_of _ 5 3 _ (get?_single _ _) rfl rfl, get?_single _ _⟩⟩,
   ⟨holds .mtr [desc 0 Op.capSet [(4, 2, 5), (28, 1, 3), (32, 8, 77), (40, 8, 16000000)]] (regs [(MTR_CTL.EN, 1), (MTR_CTL.INTERVAL, 1), (DDR_CFG.CAP_GIB, 16), (MTR_REC_RING.BASE, 16), (MTR_REC_RING.LOG2_ENTRIES, 8), (LEASE_SHARD.STATE 3, 4)] { State.reset with now := 10 ^ 13, mtr := { lines := [(256 + Config.mtrProbe 5 3 0 (2 ^ State.reset.rd MTR_LINE_TABLE.LOG2_LINES) % (2 ^ State.reset.rd MTR_LINE_TABLE.LOG2_LINES - 256), { tenant := 5, shard := 3 })] } }), ⟨0, 0⟩, desc 0 Op.capSet [(4, 2, 5), (28, 1, 3), (32, 8, 77), (40, 8, 16000000)] .started, 256 + Config.mtrProbe 5 3 0 (2 ^ State.reset.rd MTR_LINE_TABLE.LOG2_LINES) % (2 ^ State.reset.rd MTR_LINE_TABLE.LOG2_LINES - 256), { tenant := 5, shard := 3 }, ⟨by decide +kernel, by decide +kernel, by decide +kernel, by decide +kernel, mtrFind_of _ 5 3 _ (get?_single _ _) rfl rfl, get?_single _ _⟩⟩,
   ⟨holds .mtr [desc 0 Op.capSet [(4, 2, 5), (28, 1, 3), (32, 8, 77)]] (regs [(MTR_CTL.EN, 1), (MTR_CTL.INTERVAL, 1), (DDR_CFG.CAP_GIB, 16), (MTR_REC_RING.BASE, 16), (MTR_REC_RING.LOG2_ENTRIES, 8), (LEASE_SHARD.STATE 3, 4)] { State.reset with now := 10 ^ 13, mtr := {  } }), ⟨0, 0⟩, desc 0 Op.capSet [(4, 2, 5), (28, 1, 3), (32, 8, 77)] .started, 256 + Config.mtrProbe 5 3 0 (2 ^ State.reset.rd MTR_LINE_TABLE.LOG2_LINES) % (2 ^ State.reset.rd MTR_LINE_TABLE.LOG2_LINES - 256), 0, { tenant := 5, shard := 3 }, ⟨by decide +kernel, by decide +kernel, by decide +kernel, by decide +kernel, mtrFree_nil _ 5 3 rfl, by decide +kernel, by decide +kernel⟩⟩⟩

theorem witness_MeterCountsCutsAndSweeps_8 :
  (∃ (s : State) (d : DescRef) (f : Fetched), (s.startedAt .mtr d Op.capSet = some f) ∧ (s.shardWon (f.at 28 1) = true) ∧ (f.at 40 8 = 0 ∨ f.at 40 8 ≤ s.now ∧ Tab.getD s.mtr.capFrom (f.at 28 1) 0 ≤ f.at 40 8) ∧ (s.mtrFind f.tenant (f.at 28 1) = none) ∧ (s.mtrFree f.tenant (f.at 28 1) = none)) ∧
  (∃ (s : State) (d : DescRef) (f : Fetched), (s.startedAt .mtr d Op.lineRead = some f) ∧ (f.len ≠ 256)) ∧
  (∃ (s : State) (d : DescRef) (f : Fetched), (s.startedAt .mtr d Op.lineRead = some f) ∧ (f.len = 256) ∧ (s.mtrFind f.tenant (f.at 28 1) = none)) ∧
  (∃ (s : State) (d : DescRef) (f : Fetched) (i : Nat) (l : MtrLine) (t : State), (s.startedAt .mtr d Op.lineRead = some f) ∧ (f.len = 256) ∧ (s.mtrFind f.tenant (f.at 28 1) = some i) ∧ (Tab.get? s.mtr.lines i = some l) ∧ ((s.dmaWrite .mtr f.dst (recordBytes (s.rd LEASE_CTL.HEAD + (if l.backdated then 4 else 0) + (if s.mtr.movedNow.contains (f.at 28 1) then 16 else 0)) l.tenant l.shard s.mtr.lastCut 0 0 l.active l.capNow) (some d.ring)).toOption = some t)) :=
  ⟨⟨holds .mtr [desc 0 Op.capSet [(4, 2, 5), (28, 1, 3), (32, 8, 77)]] (regs [(MTR_CTL.EN, 1), (MTR_CTL.INTERVAL, 1), (DDR_CFG.CAP_GIB, 16), (MTR_REC_RING.BASE, 16), (MTR_REC_RING.LOG2_ENTRIES, 8), (LEASE_SHARD.STATE 3, 4)] { State.reset with now := 10 ^ 13, mtr := { lines := fullLines 5 3 } }), ⟨0, 0⟩, desc 0 Op.capSet [(4, 2, 5), (28, 1, 3), (32, 8, 77)] .started, ⟨by decide +kernel, by decide +kernel, by decide +kernel, mtrFind_full _ 5 3 rfl (by decide), mtrFree_full _ 5 3 rfl (by decide +kernel)⟩⟩,
   ⟨holds .mtr [desc 0 Op.lineRead [(4, 2, 5), (28, 1, 3), (32, 8, 77)]] (regs [(MTR_CTL.EN, 1), (MTR_CTL.INTERVAL, 1), (DDR_CFG.CAP_GIB, 16), (MTR_REC_RING.BASE, 16), (MTR_REC_RING.LOG2_ENTRIES, 8)] { State.reset with now := 10 ^ 13, mtr := {  } }), ⟨0, 0⟩, desc 0 Op.lineRead [(4, 2, 5), (28, 1, 3), (32, 8, 77)] .started, by decide +kernel⟩,
   ⟨holds .mtr [desc 0 Op.lineRead [(4, 2, 5), (28, 1, 3), (16, 8, 8192), (24, 4, 256)]] (regs [(MTR_CTL.EN, 1), (MTR_CTL.INTERVAL, 1), (DDR_CFG.CAP_GIB, 16), (MTR_REC_RING.BASE, 16), (MTR_REC_RING.LOG2_ENTRIES, 8)] { State.reset with now := 10 ^ 13, mtr := {  } }), ⟨0, 0⟩, desc 0 Op.lineRead [(4, 2, 5), (28, 1, 3), (16, 8, 8192), (24, 4, 256)] .started, by decide +kernel⟩,
   ⟨holds .mtr [desc 0 Op.lineRead [(4, 2, 5), (28, 1, 3), (16, 8, 8192), (24, 4, 256)]] (regs [(MTR_CTL.EN, 1), (MTR_CTL.INTERVAL, 1), (DDR_CFG.CAP_GIB, 16), (MTR_REC_RING.BASE, 16), (MTR_REC_RING.LOG2_ENTRIES, 8)] { State.reset with now := 10 ^ 13, mtr := { lines := [(256 + Config.mtrProbe 5 3 0 (2 ^ State.reset.rd MTR_LINE_TABLE.LOG2_LINES) % (2 ^ State.reset.rd MTR_LINE_TABLE.LOG2_LINES - 256), { tenant := 5, shard := 3 })] } }), ⟨0, 0⟩, desc 0 Op.lineRead [(4, 2, 5), (28, 1, 3), (16, 8, 8192), (24, 4, 256)] .started, 256 + Config.mtrProbe 5 3 0 (2 ^ State.reset.rd MTR_LINE_TABLE.LOG2_LINES) % (2 ^ State.reset.rd MTR_LINE_TABLE.LOG2_LINES - 256), { tenant := 5, shard := 3 }, _, ⟨by decide +kernel, by decide +kernel, mtrFind_of _ 5 3 _ (get?_single _ _) rfl rfl, get?_single _ _, some_getD _ State.reset (by decide +kernel)⟩⟩⟩

theorem witness_TallySpillsRefillsAndIndicates :
  (∃ (s : State) (x b : Nat), (Tab.get? s.tally.bucket x = some b)) ∧
  (∃ (s : State) (slot : Nat) (rest : List Nat) (e : TallyEntry) (t : State), (s.tally.due = slot :: rest) ∧ (s.on TAL_RING.SPILL_EN = true) ∧ (s.spillRoom = true) ∧ (Tab.get? s.tally.buf slot = some e) ∧ ((s.dmaWrite .tal (s.rd TAL_RING.BASE * 4096 + s.rd TAL_RING_IDX.PROD * 256) e.bytes).toOption = some t)) ∧
  (∃ (s : State) (slot : Nat) (rest : List Nat), (s.tally.due = slot :: rest) ∧ (s.on TAL_RING.SPILL_EN = true) ∧ (s.spillRoom = true) ∧ (Tab.get? s.tally.buf slot = none)) ∧
  (∃ (s : State), (s.tally.due = [] ∨ s.on TAL_RING.SPILL_EN = false ∨ s.spillRoom = false)) :=
  ⟨⟨regs [(DDR_CFG.CAP_GIB, 16), (TAL_RING.BASE, 16), (TAL_RING.LOG2_ENTRIES, 8)] { State.reset with now := 10 ^ 9, tally := { bucket := [(7, 300)] } }, 7, 300, by decide +kernel⟩,
   ⟨regs [(DDR_CFG.CAP_GIB, 16), (TAL_RING.BASE, 16), (TAL_RING.LOG2_ENTRIES, 8), (TAL_RING.SPILL_EN, 1)] { State.reset with now := 10 ^ 9, tally := { due := [4], buf := [(4, { code := 0x0E01, flags := 0, origin := 5, supp := 0, seq := 9, time := 7, args := [], values := [], ids := [] })] } }, 4, [], { code := 0x0E01, flags := 0, origin := 5, supp := 0, seq := 9, time := 7, args := [], values := [], ids := [] }, _, ⟨rfl, by decide +kernel, by decide +kernel, get?_single _ _, some_getD _ State.reset (by decide +kernel)⟩⟩,
   ⟨regs [(DDR_CFG.CAP_GIB, 16), (TAL_RING.BASE, 16), (TAL_RING.LOG2_ENTRIES, 8), (TAL_RING.SPILL_EN, 1)] { State.reset with now := 10 ^ 9, tally := { due := [4] } }, 4, [], by decide +kernel⟩,
   ⟨regs [(DDR_CFG.CAP_GIB, 16), (TAL_RING.BASE, 16), (TAL_RING.LOG2_ENTRIES, 8)] { State.reset with now := 10 ^ 9, tally := {  } }, by decide +kernel⟩⟩

theorem witness_TallySpillsRefillsAndIndicates_2 :
  (∃ (s : State), (s.due s.tally.pulseEnd = true)) ∧
  (∃ (s : State) (t : State), (s.due s.tally.pulseEnd = false) ∧ (s.due s.tally.lowEnd = true) ∧ (s.tally.merged ≠ 0) ∧ (t = { s with tally := { s.tally with lowEnd := none, merged := 0, pulseEnd := some (s.now + 1600) }, pins := { s.pins with eventOut := true } })) ∧
  (∃ (s : State), (s.due s.tally.pulseEnd = true)) ∧
  (∃ (s : State), (s.due s.tally.pulseEnd = false) ∧ (s.due s.tally.lowEnd = true) ∧ (s.tally.merged ≠ 0)) :=
  ⟨⟨regs [(DDR_CFG.CAP_GIB, 16), (TAL_RING.BASE, 16), (TAL_RING.LOG2_ENTRIES, 8)] { State.reset with now := 10 ^ 9, tally := { pulseEnd := some 5 } }, by decide +kernel⟩,
   ⟨regs [(DDR_CFG.CAP_GIB, 16), (TAL_RING.BASE, 16), (TAL_RING.LOG2_ENTRIES, 8)] { State.reset with now := 10 ^ 9, tally := { lowEnd := some 5, merged := 3 } }, ((fun (s : State) => { s with tally := { s.tally with lowEnd := none, merged := 0, pulseEnd := some (s.now + 1600) }, pins := { s.pins with eventOut := true } }) (regs [(DDR_CFG.CAP_GIB, 16), (TAL_RING.BASE, 16), (TAL_RING.LOG2_ENTRIES, 8)] { State.reset with now := 10 ^ 9, tally := { lowEnd := some 5, merged := 3 } })), ⟨by decide +kernel, by decide +kernel, by decide +kernel, by first | with_reducible rfl | decide +kernel⟩⟩,
   ⟨regs [(DDR_CFG.CAP_GIB, 16), (TAL_RING.BASE, 16), (TAL_RING.LOG2_ENTRIES, 8)] { State.reset with now := 10 ^ 9, tally := { pulseEnd := some 5 } }, by decide +kernel⟩,
   ⟨regs [(DDR_CFG.CAP_GIB, 16), (TAL_RING.BASE, 16), (TAL_RING.LOG2_ENTRIES, 8)] { State.reset with now := 10 ^ 9, tally := { lowEnd := some 5, merged := 3 } }, by decide +kernel⟩⟩

theorem witness_TallySpillsRefillsAndIndicates_3 :
  (∃ (s : State), (s.due s.tally.pulseEnd = false) ∧ (s.due s.tally.lowEnd = true) ∧ (s.tally.merged = 0)) ∧
  (∃ (s : State), (s.due s.tally.pulseEnd = false) ∧ (s.due s.tally.lowEnd = false)) ∧
  (∃ (s : State), (s.due s.tally.lossUntil = true)) ∧
  (∃ (s : State), (s.due s.tally.lossUntil = true)) :=
  ⟨⟨regs [(DDR_CFG.CAP_GIB, 16), (TAL_RING.BASE, 16), (TAL_RING.LOG2_ENTRIES, 8)] { State.reset with now := 10 ^ 9, tally := { lowEnd := some 5 } }, by decide +kernel⟩,
   ⟨regs [(DDR_CFG.CAP_GIB, 16), (TAL_RING.BASE, 16), (TAL_RING.LOG2_ENTRIES, 8)] { State.reset with now := 10 ^ 9, tally := {  } }, by decide +kernel⟩,
   ⟨regs [(DDR_CFG.CAP_GIB, 16), (TAL_RING.BASE, 16), (TAL_RING.LOG2_ENTRIES, 8)] { State.reset with now := 10 ^ 9, tally := { lossUntil := some 5 } }, by decide +kernel⟩,
   ⟨regs [(DDR_CFG.CAP_GIB, 16), (TAL_RING.BASE, 16), (TAL_RING.LOG2_ENTRIES, 8)] { State.reset with now := 10 ^ 9, tally := { lossUntil := some 5 } }, by decide +kernel⟩⟩

theorem witness_TallySpillsRefillsAndIndicates_4 :
  (∃ (s : State), (s.due s.tally.lossUntil = false)) ∧
  (∃ (s : State), (s.on TAL_OUT_CFG.LEASE_EN = true)) ∧
  (∃ (s : State) (f : Fld), (f.lo < 64) ∧ (f.reg < 0xF614000 ∨ 0xF61C000 ≤ f.reg)) ∧
  (∃ (s : State) (x : Nat), (x < 4096)) :=
  ⟨⟨regs [(DDR_CFG.CAP_GIB, 16), (TAL_RING.BASE, 16), (TAL_RING.LOG2_ENTRIES, 8)] { State.reset with now := 10 ^ 9, tally := {  } }, by decide +kernel⟩,
   ⟨regs [(DDR_CFG.CAP_GIB, 16), (TAL_RING.BASE, 16), (TAL_RING.LOG2_ENTRIES, 8), (TAL_OUT_CFG.LEASE_EN, 1)] { State.reset with now := 10 ^ 9, tally := { merged := 3 } }, by decide +kernel⟩,
   ⟨regs [(DDR_CFG.CAP_GIB, 16), (TAL_RING.BASE, 16), (TAL_RING.LOG2_ENTRIES, 8)] { State.reset with now := 10 ^ 9, tally := {  } }, TAL_IDX.WR, by decide +kernel⟩,
   ⟨regs [(DDR_CFG.CAP_GIB, 16), (TAL_RING.BASE, 16), (TAL_RING.LOG2_ENTRIES, 8), (TAL_COUNT.SUPPRESSED 7, 9)] { State.reset with now := 10 ^ 9, tally := {  } }, 7, by decide +kernel⟩⟩

theorem witness_ManagementPortFramesAndClock :
  (∃ (s : State) (frame : List Byte), (s.on MGT_CTL.EN = false ∨ s.on MGT_STATUS.LINK = false ∨ 1522 < frame.length ∨ s.mgtAccepts (frame.take 6) = false)) ∧
  (∃ (s : State) (frame p : List Byte), (frame.length ≤ 1522) ∧ (s.on MGT_CTL.EN = true) ∧ (s.on MGT_STATUS.LINK = true) ∧ (s.mgtAccepts (frame.take 6) = true) ∧ (s.jigPayload frame = some p) ∧ (s.mgt.jigIn.length < 64)) ∧
  (∃ (s : State) (frame p : List Byte), (s.on MGT_CTL.EN = true) ∧ (s.on MGT_STATUS.LINK = true) ∧ (frame.length ≤ 1522) ∧ (s.mgtAccepts (frame.take 6) = true) ∧ (s.jigPayload frame = some p) ∧ (64 ≤ s.mgt.jigIn.length)) ∧
  (∃ (s : State) (frame : List Byte), (s.on MGT_CTL.EN = true) ∧ (s.on MGT_STATUS.LINK = true) ∧ (frame.length ≤ 1522) ∧ (s.mgtAccepts (frame.take 6) = true) ∧ (s.jigPayload frame = none) ∧ (s.mgt.fwRunning = true)) :=
  ⟨⟨regs [(DDR_CFG.CAP_GIB, 16), (MGT_CTL.EN, 1), (MGT_STATUS.LINK, 1), (MGT_MAC.MAC, 0x020304050607)] { State.reset with now := 10 ^ 9, mgt := {  } }, zeros 60, by decide +kernel⟩,
   ⟨regs [(DDR_CFG.CAP_GIB, 16), (MGT_CTL.EN, 1), (MGT_STATUS.LINK, 1), (MGT_MAC.MAC, 0x020304050607), (MGT_IPV4.VALID, 1), (MGT_IPV4.ADDR, 0x0A000001), (JIG_CFG.PORT, 0x1234)] { State.reset with now := 10 ^ 9, mgt := {  } }, (leBytes 6 0x020304050607).reverse ++ zeros 6 ++ [8, 0] ++ [0x45] ++ zeros 8 ++ [17] ++ zeros 6 ++ [10, 0, 0, 1] ++ zeros 2 ++ [0x12, 0x34] ++ [0, 48] ++ zeros 2 ++ zeros 40, zeros 40, by decide +kernel⟩,
   ⟨regs [(DDR_CFG.CAP_GIB, 16), (MGT_CTL.EN, 1), (MGT_STATUS.LINK, 1), (MGT_MAC.MAC, 0x020304050607), (MGT_IPV4.VALID, 1), (MGT_IPV4.ADDR, 0x0A000001), (JIG_CFG.PORT, 0x1234)] { State.reset with now := 10 ^ 9, mgt := { jigIn := List.replicate 64 [] } }, (leBytes 6 0x020304050607).reverse ++ zeros 6 ++ [8, 0] ++ [0x45] ++ zeros 8 ++ [17] ++ zeros 6 ++ [10, 0, 0, 1] ++ zeros 2 ++ [0x12, 0x34] ++ [0, 48] ++ zeros 2 ++ zeros 40, zeros 40, by decide +kernel⟩,
   ⟨regs [(DDR_CFG.CAP_GIB, 16), (MGT_CTL.EN, 1), (MGT_STATUS.LINK, 1), (MGT_MAC.MAC, 0x020304050607)] { State.reset with now := 10 ^ 9, mgt := { fwRunning := true } }, (leBytes 6 0x020304050607).reverse ++ zeros 54, by decide +kernel⟩⟩

theorem witness_ManagementPortFramesAndClock_2 :
  (∃ (s : State) (frame : List Byte), (s.on MGT_CTL.EN = true) ∧ (s.on MGT_STATUS.LINK = true) ∧ (frame.length ≤ 1522) ∧ (s.mgtAccepts (frame.take 6) = true) ∧ (s.jigPayload frame = none) ∧ (s.mgt.fwRunning = false) ∧ (s.islandAnswer frame = none)) ∧
  (∃ (s : State) (frame : List Byte), (s.on MGT_CTL.EN = true) ∧ (s.on MGT_STATUS.LINK = true) ∧ (frame.length ≤ 1522) ∧ (s.mgtAccepts (frame.take 6) = true) ∧ (s.jigPayload frame = none) ∧ (s.mgt.fwRunning = true) ∧ (s.firstWaiting .mgt Op.frameRxBuf = none)) ∧
  (∃ (s : State) (frame : List Byte) (d : DescRef) (f : Fetched) (t : State), (s.on MGT_CTL.EN = true) ∧ (s.on MGT_STATUS.LINK = true) ∧ (frame.length ≤ 1522) ∧ (s.mgtAccepts (frame.take 6) = true) ∧ (s.jigPayload frame = none) ∧ (s.mgt.fwRunning = true) ∧ (s.firstWaiting .mgt Op.frameRxBuf = some (d, f)) ∧ ((s.dmaWrite .mgt f.dst frame (some d.ring)).toOption = some t)) ∧
  (∃ (s : State) (frame : List Byte) (r : IslandReply), (s.on MGT_CTL.EN = true) ∧ (s.on MGT_STATUS.LINK = true) ∧ (frame.length ≤ 1522) ∧ (s.mgtAccepts (frame.take 6) = true) ∧ (s.jigPayload frame = none) ∧ (s.mgt.fwRunning = false) ∧ (s.islandAnswer frame = some r)) :=
  ⟨⟨regs [(DDR_CFG.CAP_GIB, 16), (MGT_CTL.EN, 1), (MGT_STATUS.LINK, 1), (MGT_MAC.MAC, 0x020304050607)] { State.reset with now := 10 ^ 9, mgt := {  } }, (leBytes 6 0x020304050607).reverse ++ zeros 54, by decide +kernel⟩,
   ⟨regs [(DDR_CFG.CAP_GIB, 16), (MGT_CTL.EN, 1), (MGT_STATUS.LINK, 1), (MGT_MAC.MAC, 0x020304050607)] { State.reset with now := 10 ^ 9, mgt := { fwRunning := true } }, (leBytes 6 0x020304050607).reverse ++ zeros 54, by decide +kernel⟩,
   ⟨(holds .mgt [desc 0 Op.frameRxBuf [(16, 8, 8192), (24, 4, 2048)] .started] (regs [(DDR_CFG.CAP_GIB, 16), (MGT_CTL.EN, 1), (MGT_STATUS.LINK, 1), (MGT_MAC.MAC, 0x020304050607)] { State.reset with now := 10 ^ 9, mgt := { fwRunning := true } })).setPhase .mgt ⟨0, 0⟩ .waiting, (leBytes 6 0x020304050607).reverse ++ zeros 54, ⟨0, 0⟩, { desc 0 Op.frameRxBuf [(16, 8, 8192), (24, 4, 2048)] .started with phase := .waiting }, ((((holds .mgt [desc 0 Op.frameRxBuf [(16, 8, 8192), (24, 4, 2048)] .started] (regs [(DDR_CFG.CAP_GIB, 16), (MGT_CTL.EN, 1), (MGT_STATUS.LINK, 1), (MGT_MAC.MAC, 0x020304050607)] { State.reset with now := 10 ^ 9, mgt := { fwRunning := true } })).setPhase .mgt ⟨0, 0⟩ .waiting).dmaWrite .mgt 8192 ((leBytes 6 0x020304050607).reverse ++ zeros 54) (some 0)).toOption.getD State.reset), by decide +kernel⟩,
   ⟨regs [(DDR_CFG.CAP_GIB, 16), (MGT_CTL.EN, 1), (MGT_STATUS.LINK, 1), (MGT_MAC.MAC, 0x020304050607), (MGT_IPV4.VALID, 1), (MGT_IPV4.ADDR, 0x0A000001), (JIG_CFG.PORT, 0x1234)] { State.reset with now := 10 ^ 9, mgt := {  } }, (leBytes 6 0x020304050607).reverse ++ zeros 6 ++ [8, 6] ++ zeros 6 ++ [0, 1] ++ zeros 16 ++ [10, 0, 0, 1] ++ zeros 18, .arp (zeros 6), by decide +kernel⟩⟩

theorem witness_ManagementPortFramesAndClock_3 :
  (∃ (s : State) (up gig : Bool), (s.on MGT_CTL.EN = false ∨ s.on MGT_STATUS.LINK = up)) ∧
  (∃ (s : State) (up gig : Bool) (n : Nat), (s.on MGT_CTL.EN = true) ∧ (s.on MGT_STATUS.LINK ≠ up) ∧ (n = if !up then 0 else if s.on MGT_CTL.MODE then 3 else if gig then 2 else 1)) ∧
  (∃ (s : State) (up gig : Bool), (s.on MGT_CTL.EN = true) ∧ (s.on MGT_STATUS.LINK ≠ up)) ∧
  (∃ (s : State) (d : DescRef) (f : Fetched), (s.startedAt .mgt d Op.frameTx = some f) ∧ (1522 < f.len)) :=
  ⟨⟨regs [(DDR_CFG.CAP_GIB, 16), (MGT_CTL.EN, 1), (MGT_STATUS.LINK, 1), (MGT_MAC.MAC, 0x020304050607)] { State.reset with now := 10 ^ 9, mgt := {  } }, true, true, by decide +kernel⟩,
   ⟨regs [(DDR_CFG.CAP_GIB, 16), (MGT_CTL.EN, 1), (MGT_STATUS.LINK, 1), (MGT_MAC.MAC, 0x020304050607)] { State.reset with now := 10 ^ 9, mgt := {  } }, false, true, 0, by decide +kernel⟩,
   ⟨regs [(DDR_CFG.CAP_GIB, 16), (MGT_CTL.EN, 1), (MGT_STATUS.LINK, 1), (MGT_MAC.MAC, 0x020304050607)] { State.reset with now := 10 ^ 9, mgt := {  } }, false, true, by decide +kernel⟩,
   ⟨holds .mgt [desc 0 Op.frameTx [(24, 4, 1523)] .started] (regs [(DDR_CFG.CAP_GIB, 16), (MGT_CTL.EN, 1), (MGT_STATUS.LINK, 1), (MGT_MAC.MAC, 0x020304050607)] { State.reset with now := 10 ^ 9, mgt := {  } }), ⟨0, 0⟩, desc 0 Op.frameTx [(24, 4, 1523)] .started, by decide +kernel⟩⟩

theorem witness_ManagementPortFramesAndClock_4 :
  (∃ (s : State) (d : DescRef) (f : Fetched) (bs : List Byte), (s.startedAt .mgt d Op.frameTx = some f) ∧ (f.len ≤ 1522) ∧ ((s.dmaRead .mgt f.src f.len (some d.ring)).toOption = some bs)) ∧
  (∃ (s : State) (d : DescRef) (f : Fetched), (s.startedAt .mgt d Op.frameRxBuf = some f) ∧ (f.len < 1522)) ∧
  (∃ (s : State) (d : DescRef) (f : Fetched), (s.startedAt .mgt d Op.frameRxBuf = some f) ∧ (1522 ≤ f.len)) ∧
  (∃ (s : State) (ref : Word), (s.mgt.heldSec < 2 ^ MGT_WALL_SEC.SEC.w) ∧ (s.mgt.heldNs < 2 ^ MGT_WALL_NS.NS.w) ∧ (s.mgt.heldRate < 2 ^ MGT_WALL_NS.RATE.w)) :=
  ⟨⟨holds .mgt [desc 0 Op.frameTx [(8, 8, 4096), (24, 4, 60)] .started] (regs [(DDR_CFG.CAP_GIB, 16), (MGT_CTL.EN, 1), (MGT_STATUS.LINK, 1), (MGT_MAC.MAC, 0x020304050607)] { State.reset with now := 10 ^ 9, mgt := {  } }), ⟨0, 0⟩, desc 0 Op.frameTx [(8, 8, 4096), (24, 4, 60)] .started, zeros 60, by decide +kernel⟩,
   ⟨holds .mgt [desc 0 Op.frameRxBuf [(24, 4, 1521)] .started] (regs [(DDR_CFG.CAP_GIB, 16), (MGT_CTL.EN, 1), (MGT_STATUS.LINK, 1), (MGT_MAC.MAC, 0x020304050607)] { State.reset with now := 10 ^ 9, mgt := {  } }), ⟨0, 0⟩, desc 0 Op.frameRxBuf [(24, 4, 1521)] .started, by decide +kernel⟩,
   ⟨holds .mgt [desc 0 Op.frameRxBuf [(24, 4, 1522)] .started] (regs [(DDR_CFG.CAP_GIB, 16), (MGT_CTL.EN, 1), (MGT_STATUS.LINK, 1), (MGT_MAC.MAC, 0x020304050607)] { State.reset with now := 10 ^ 9, mgt := {  } }), ⟨0, 0⟩, desc 0 Op.frameRxBuf [(24, 4, 1522)] .started, by decide +kernel⟩,
   ⟨regs [(DDR_CFG.CAP_GIB, 16), (MGT_CTL.EN, 1), (MGT_STATUS.LINK, 1), (MGT_MAC.MAC, 0x020304050607)] { State.reset with now := 10 ^ 9, mgt := { heldSec := 5, heldNs := 7 } }, 99, by decide +kernel⟩⟩

theorem witness_DrawerDescriptors :
  (∃ (s : State) (d : DescRef) (f : Fetched), (s.startedAt .drw d Op.groupWrite = some f) ∧ (groupAllowed f.origin (f.at 28 2) = false)) ∧
  (∃ (s : State) (d : DescRef) (f : Fetched), (s.startedAt .drw d Op.groupRead = some f) ∧ (groupAllowed f.origin (f.at 28 2) = false)) ∧
  (∃ (s : State) (d : DescRef) (f : Fetched), (s.startedAt .drw d Op.groupDelete = some f) ∧ (groupAllowed f.origin (f.at 28 2) = false)) ∧
  (∃ (s : State) (d : DescRef) (f : Fetched) (norOk : Bool), (s.startedAt .drw d Op.groupWrite = some f) ∧ (groupAllowed f.origin (f.at 28 2) = true) ∧ (65536 < f.len)) :=
  ⟨⟨holds .drw [desc 0 Op.groupWrite [(28, 2, 7)] .started] (regs [(DDR_CFG.CAP_GIB, 16), (DRW_STATUS.STATE, 1)] { State.reset with now := 10 ^ 9, mem := Memory.writeN [] 4096 [1, 2, 3, 4], drw := { half0 := { valid := true, seq := 1 } } }), ⟨0, 0⟩, desc 0 Op.groupWrite [(28, 2, 7)] .started, by decide +kernel⟩,
   ⟨holds .drw [desc 0 Op.groupRead [(28, 2, 7)] .started] (regs [(DDR_CFG.CAP_GIB, 16), (DRW_STATUS.STATE, 1)] { State.reset with now := 10 ^ 9, mem := Memory.writeN [] 4096 [1, 2, 3, 4], drw := { half0 := { valid := true, seq := 1 } } }), ⟨0, 0⟩, desc 0 Op.groupRead [(28, 2, 7)] .started, by decide +kernel⟩,
   ⟨holds .drw [desc 0 Op.groupDelete [(28, 2, 7)] .started] (regs [(DDR_CFG.CAP_GIB, 16), (DRW_STATUS.STATE, 1)] { State.reset with now := 10 ^ 9, mem := Memory.writeN [] 4096 [1, 2, 3, 4], drw := { half0 := { valid := true, seq := 1 } } }), ⟨0, 0⟩, desc 0 Op.groupDelete [(28, 2, 7)] .started, by decide +kernel⟩,
   ⟨holds .drw [desc 0 Op.groupWrite [(28, 2, 0x8007), (24, 4, 65537)] .started] (regs [(DDR_CFG.CAP_GIB, 16), (DRW_STATUS.STATE, 1)] { State.reset with now := 10 ^ 9, mem := Memory.writeN [] 4096 [1, 2, 3, 4], drw := { half0 := { valid := true, seq := 1 } } }), ⟨0, 0⟩, desc 0 Op.groupWrite [(28, 2, 0x8007), (24, 4, 65537)] .started, true, by decide +kernel⟩⟩

theorem witness_DrawerDescriptors_2 :
  (∃ (s : State) (d : DescRef) (f : Fetched) (norOk : Bool), (s.startedAt .drw d Op.groupWrite = some f) ∧ (groupAllowed f.origin (f.at 28 2) = true) ∧ (f.len ≤ 65536) ∧ (drwLimit < retUsed (Tab.del s.drw.ret (f.at 28 2)) + f.len + 64)) ∧
  (∃ (s : State) (d : DescRef) (f : Fetched), (s.startedAt .drw d Op.groupWrite = some f) ∧ (groupAllowed f.origin (f.at 28 2) = true) ∧ (f.len ≤ 65536) ∧ (retUsed (Tab.del s.drw.ret (f.at 28 2)) + f.len + 64 ≤ drwLimit) ∧ ((s.dmaRead .drw f.src f.len (some d.ring)).toOption.isSome = true)) ∧
  (∃ (s : State) (d : DescRef) (f : Fetched) (bs : List Byte), (s.startedAt .drw d Op.groupWrite = some f) ∧ (groupAllowed f.origin (f.at 28 2) = true) ∧ (f.len ≤ 65536) ∧ (retUsed (Tab.del s.drw.ret (f.at 28 2)) + f.len + 64 ≤ drwLimit) ∧ ((s.dmaRead .drw f.src f.len (some d.ring)).toOption = some bs)) ∧
  (∃ (s : State) (d : DescRef) (f : Fetched) (bs : List Byte) (r : GroupRec) (u : State), (s.startedAt .drw d Op.groupWrite = some f) ∧ (groupAllowed f.origin (f.at 28 2) = true) ∧ (f.len ≤ 65536) ∧ (retUsed (Tab.del s.drw.ret (f.at 28 2)) + f.len + 64 ≤ drwLimit) ∧ ((s.dmaRead .drw f.src f.len (some d.ring)).toOption = some bs) ∧ (r = { group := f.at 28 2, format := f.at 30 2, gen := s.activeHalf.nextGen (f.at 28 2), data := bs }) ∧ (u = s.drwAppend r)) :=
  ⟨⟨holds .drw [desc 0 Op.groupWrite [(28, 2, 0x8007), (30, 2, 3), (8, 8, 4096), (24, 4, 4)] .started] { State.reset with drw := { ret := (List.range 32768).map (fun i => (i, { group := i, format := 1, gen := 1, data := [] })) } }, ⟨0, 0⟩, desc 0 Op.groupWrite [(28, 2, 0x8007), (30, 2, 3), (8, 8, 4096), (24, 4, 4)] .started, true, by decide +kernel⟩,
   ⟨holds .drw [desc 0 Op.groupWrite [(28, 2, 0x8007), (30, 2, 3), (8, 8, 4096), (24, 4, 4)] .started] (regs [(DDR_CFG.CAP_GIB, 16), (DRW_STATUS.STATE, 1)] { State.reset with now := 10 ^ 9, mem := Memory.writeN [] 4096 [1, 2, 3, 4], drw := { half0 := { valid := true, seq := 1 } } }), ⟨0, 0⟩, desc 0 Op.groupWrite [(28, 2, 0x8007), (30, 2, 3), (8, 8, 4096), (24, 4, 4)] .started, by decide +kernel⟩,
   ⟨holds .drw [desc 0 Op.groupWrite [(28, 2, 0x8007), (30, 2, 3), (8, 8, 4096), (24, 4, 4)] .started] (regs [(DDR_CFG.CAP_GIB, 16), (DRW_STATUS.STATE, 1)] { State.reset with now := 10 ^ 9, mem := Memory.writeN [] 4096 [1, 2, 3, 4], drw := { half0 := { valid := true, seq := 1 } } }), ⟨0, 0⟩, desc 0 Op.groupWrite [(28, 2, 0x8007), (30, 2, 3), (8, 8, 4096), (24, 4, 4)] .started, [1, 2, 3, 4], by decide +kernel⟩,
   ⟨holds .drw [desc 0 Op.groupWrite [(28, 2, 0x8007), (30, 2, 3), (8, 8, 4096), (24, 4, 4)] .started] (regs [(DDR_CFG.CAP_GIB, 16), (DRW_STATUS.STATE, 1)] { State.reset with now := 10 ^ 9, mem := Memory.writeN [] 4096 [1, 2, 3, 4], drw := { half0 := { valid := true, seq := 1 } } }), ⟨0, 0⟩, desc 0 Op.groupWrite [(28, 2, 0x8007), (30, 2, 3), (8, 8, 4096), (24, 4, 4)] .started, [1, 2, 3, 4], { group := 0x8007, format := 3, gen := 1, data := [1, 2, 3, 4] }, (holds .drw [desc 0 Op.groupWrite [(28, 2, 0x8007), (30, 2, 3), (8, 8, 4096), (24, 4, 4)] .started] (regs [(DDR_CFG.CAP_GIB, 16), (DRW_STATUS.STATE, 1)] { State.reset with now := 10 ^ 9, mem := Memory.writeN [] 4096 [1, 2, 3, 4], drw := { half0 := { valid := true, seq := 1 } } })).drwAppend { group := 0x8007, format := 3, gen := 1, data := [1, 2, 3, 4] }, ⟨by decide +kernel, by decide +kernel, by decide +kernel, by decide +kernel, by decide +kernel, by decide +kernel, by first | with_reducible rfl | decide +kernel⟩⟩⟩

theorem witness_DrawerDescriptors_3 :
  (∃ (s : State) (d : DescRef) (f : Fetched), (s.startedAt .drw d Op.groupRead = some f) ∧ (groupAllowed f.origin (f.at 28 2) = true) ∧ (Tab.get? s.drw.ret (f.at 28 2) = none)) ∧
  (∃ (s : State) (d : DescRef) (f : Fetched) (r : GroupRec), (s.startedAt .drw d Op.groupRead = some f) ∧ (groupAllowed f.origin (f.at 28 2) = true) ∧ (Tab.get? s.drw.ret (f.at 28 2) = some r) ∧ (f.len < r.data.length)) ∧
  (∃ (s : State) (d : DescRef) (f : Fetched) (r : GroupRec) (t : State), (s.startedAt .drw d Op.groupRead = some f) ∧ (groupAllowed f.origin (f.at 28 2) = true) ∧ (Tab.get? s.drw.ret (f.at 28 2) = some r) ∧ (r.data.length ≤ f.len) ∧ ((s.dmaWrite .drw f.dst r.data (some d.ring)).toOption = some t)) ∧
  (∃ (s : State) (d : DescRef) (f : Fetched) (norOk : Bool), (s.startedAt .drw d Op.groupDelete = some f) ∧ (groupAllowed f.origin (f.at 28 2) = true) ∧ (Tab.get? s.drw.ret (f.at 28 2) = none)) :=
  ⟨⟨holds .drw [desc 0 Op.groupRead [(28, 2, 0x8007)] .started] (regs [(DDR_CFG.CAP_GIB, 16), (DRW_STATUS.STATE, 1)] { State.reset with now := 10 ^ 9, mem := Memory.writeN [] 4096 [1, 2, 3, 4], drw := { half0 := { valid := true, seq := 1 } } }), ⟨0, 0⟩, desc 0 Op.groupRead [(28, 2, 0x8007)] .started, by decide +kernel⟩,
   ⟨holds .drw [desc 0 Op.groupRead [(28, 2, 0x8007), (24, 4, 3)] .started] (regs [(DDR_CFG.CAP_GIB, 16), (DRW_STATUS.STATE, 1)] { State.reset with now := 10 ^ 9, mem := Memory.writeN [] 4096 [1, 2, 3, 4], drw := { half0 := { valid := true, seq := 1 }, ret := [(0x8007, { group := 0x8007, format := 3, gen := 1, data := [1, 2, 3, 4] })] } }), ⟨0, 0⟩, desc 0 Op.groupRead [(28, 2, 0x8007), (24, 4, 3)] .started, { group := 0x8007, format := 3, gen := 1, data := [1, 2, 3, 4] }, by decide +kernel⟩,
   ⟨holds .drw [desc 0 Op.groupRead [(28, 2, 0x8007), (24, 4, 16), (16, 8, 8192)] .started] (regs [(DDR_CFG.CAP_GIB, 16), (DRW_STATUS.STATE, 1)] { State.reset with now := 10 ^ 9, mem := Memory.writeN [] 4096 [1, 2, 3, 4], drw := { half0 := { valid := true, seq := 1 }, ret := [(0x8007, { group := 0x8007, format := 3, gen := 1, data := [1, 2, 3, 4] })] } }), ⟨0, 0⟩, desc 0 Op.groupRead [(28, 2, 0x8007), (24, 4, 16), (16, 8, 8192)] .started, { group := 0x8007, format := 3, gen := 1, data := [1, 2, 3, 4] }, (((holds .drw [desc 0 Op.groupRead [(28, 2, 0x8007), (24, 4, 16), (16, 8, 8192)] .started] (regs [(DDR_CFG.CAP_GIB, 16), (DRW_STATUS.STATE, 1)] { State.reset with now := 10 ^ 9, mem := Memory.writeN [] 4096 [1, 2, 3, 4], drw := { half0 := { valid := true, seq := 1 }, ret := [(0x8007, { group := 0x8007, format := 3, gen := 1, data := [1, 2, 3, 4] })] } })).dmaWrite .drw 8192 [1, 2, 3, 4] (some 0)).toOption.getD State.reset), by decide +kernel⟩,
   ⟨holds .drw [desc 0 Op.groupDelete [(28, 2, 0x8007)] .started] (regs [(DDR_CFG.CAP_GIB, 16), (DRW_STATUS.STATE, 1)] { State.reset with now := 10 ^ 9, mem := Memory.writeN [] 4096 [1, 2, 3, 4], drw := { half0 := { valid := true, seq := 1 } } }), ⟨0, 0⟩, desc 0 Op.groupDelete [(28, 2, 0x8007)] .started, true, by decide +kernel⟩⟩

theorem witness_DrawerDescriptors_4 :
  (∃ (s : State) (d : DescRef) (f : Fetched) (r : GroupRec), (s.startedAt .drw d Op.groupDelete = some f) ∧ (groupAllowed f.origin (f.at 28 2) = true) ∧ (Tab.get? s.drw.ret (f.at 28 2) = some r)) ∧
  (∃ (s : State) (d : DescRef) (f : Fetched) (r : GroupRec) (u : State), (s.startedAt .drw d Op.groupDelete = some f) ∧ (groupAllowed f.origin (f.at 28 2) = true) ∧ (Tab.get? s.drw.ret (f.at 28 2) = some r) ∧ (u = ({ s with drw := { s.drw with ret := Tab.del s.drw.ret (f.at 28 2) } } : State))) ∧
  (∃ (s : State) (d : DescRef) (f : Fetched) (r : GroupRec) (u : State), (s.startedAt .drw d Op.groupDelete = some f) ∧ (groupAllowed f.origin (f.at 28 2) = true) ∧ (Tab.get? s.drw.ret (f.at 28 2) = some r) ∧ (s.on DRW_STATUS.TORN = false) ∧ (s.activeHalf.used + 256 ≤ drwHalfSize) ∧ (u = ({ s with drw := { s.drw with ret := Tab.del s.drw.ret (f.at 28 2) } } : State))) ∧
  (∃ (s : State) (h : Half) (g : Nat) (r : GroupRec), (Tab.get? h.groups g = some r)) :=
  ⟨⟨holds .drw [desc 0 Op.groupDelete [(28, 2, 0x8007), (24, 4, 16), (16, 8, 8192)] .started] (regs [(DDR_CFG.CAP_GIB, 16), (DRW_STATUS.STATE, 1)] { State.reset with now := 10 ^ 9, mem := Memory.writeN [] 4096 [1, 2, 3, 4], drw := { half0 := { valid := true, seq := 1 }, ret := [(0x8007, { group := 0x8007, format := 3, gen := 1, data := [1, 2, 3, 4] })] } }), ⟨0, 0⟩, desc 0 Op.groupDelete [(28, 2, 0x8007), (24, 4, 16), (16, 8, 8192)] .started, { group := 0x8007, format := 3, gen := 1, data := [1, 2, 3, 4] }, by decide +kernel⟩,
   ⟨holds .drw [desc 0 Op.groupDelete [(28, 2, 0x8007), (24, 4, 16), (16, 8, 8192)] .started] (regs [(DDR_CFG.CAP_GIB, 16), (DRW_STATUS.STATE, 1)] { State.reset with now := 10 ^ 9, mem := Memory.writeN [] 4096 [1, 2, 3, 4], drw := { half0 := { valid := true, seq := 1 }, ret := [(0x8007, { group := 0x8007, format := 3, gen := 1, data := [1, 2, 3, 4] })] } }), ⟨0, 0⟩, desc 0 Op.groupDelete [(28, 2, 0x8007), (24, 4, 16), (16, 8, 8192)] .started, { group := 0x8007, format := 3, gen := 1, data := [1, 2, 3, 4] }, ({ (holds .drw [desc 0 Op.groupDelete [(28, 2, 0x8007), (24, 4, 16), (16, 8, 8192)] .started] (regs [(DDR_CFG.CAP_GIB, 16), (DRW_STATUS.STATE, 1)] { State.reset with now := 10 ^ 9, mem := Memory.writeN [] 4096 [1, 2, 3, 4], drw := { half0 := { valid := true, seq := 1 }, ret := [(0x8007, { group := 0x8007, format := 3, gen := 1, data := [1, 2, 3, 4] })] } })) with drw := { half0 := { valid := true, seq := 1 }, ret := [] } } : State), ⟨by decide +kernel, by decide +kernel, by decide +kernel, by first | with_reducible rfl | decide +kernel⟩⟩,
   ⟨holds .drw [desc 0 Op.groupDelete [(28, 2, 0x8007), (24, 4, 16), (16, 8, 8192)] .started] (regs [(DDR_CFG.CAP_GIB, 16), (DRW_STATUS.STATE, 1)] { State.reset with now := 10 ^ 9, mem := Memory.writeN [] 4096 [1, 2, 3, 4], drw := { half0 := { valid := true, seq := 1 }, ret := [(0x8007, { group := 0x8007, format := 3, gen := 1, data := [1, 2, 3, 4] })] } }), ⟨0, 0⟩, desc 0 Op.groupDelete [(28, 2, 0x8007), (24, 4, 16), (16, 8, 8192)] .started, { group := 0x8007, format := 3, gen := 1, data := [1, 2, 3, 4] }, ({ (holds .drw [desc 0 Op.groupDelete [(28, 2, 0x8007), (24, 4, 16), (16, 8, 8192)] .started] (regs [(DDR_CFG.CAP_GIB, 16), (DRW_STATUS.STATE, 1)] { State.reset with now := 10 ^ 9, mem := Memory.writeN [] 4096 [1, 2, 3, 4], drw := { half0 := { valid := true, seq := 1 }, ret := [(0x8007, { group := 0x8007, format := 3, gen := 1, data := [1, 2, 3, 4] })] } })) with drw := { half0 := { valid := true, seq := 1 }, ret := [] } } : State), ⟨by decide +kernel, by decide +kernel, by decide +kernel, by decide +kernel, by decide +kernel, by first | with_reducible rfl | decide +kernel⟩⟩,
   ⟨State.reset, { recs := [{ group := 0x8007, format := 3, gen := 1, data := [1, 2, 3, 4] }] }, 0x8007, { group := 0x8007, format := 3, gen := 1, data := [1, 2, 3, 4] }, by decide +kernel⟩⟩

theorem witness_ResetsBootAndPower :
  (∃ (s : State) (fuses : List (Nat × Byte)) (images : List (Nat × List Byte)), (s.pins.vddAon = false) ∧ (Memory.wf s.otp = true)) ∧
  (∃ (s : State) (fuses : List (Nat × Byte)) (images : List (Nat × List Byte)), (s.pins.vddAon = true)) ∧
  (∃ (s : State) (torn : Option (DescRef × Bool)) (k : State), (s.pins.vddAon = true) ∧ (s.pins.pwrok = true) ∧ (k = s.coldReset torn 1)) ∧
  (∃ (s : State) (torn : Option (DescRef × Bool)) (k : State), (s.pins.vddAon = true) ∧ (s.pins.resetN = true) ∧ (k = s.coldReset torn 1)) :=
  ⟨⟨regs [(PWR_DOM.STATE 17, 2)] { State.reset with now := 10 ^ 9, mem := [(4, 1)], otp := [(32, 1)], pins := { vddAon := false } }, [], [], by decide +kernel⟩,
   ⟨regs [(PWR_DOM.STATE 17, 2)] { State.reset with now := 10 ^ 9, mem := [(4, 1)], otp := [(32, 1)], pins := { vddAon := true, pwrok := true, resetN := true }, boot := { cold := false } }, [], [], by decide +kernel⟩,
   ⟨regs [(PWR_DOM.STATE 17, 2)] { State.reset with now := 10 ^ 9, mem := [(4, 1)], otp := [(32, 1)], pins := { vddAon := true, pwrok := true, resetN := true }, boot := { cold := false } }, some (⟨0, 0⟩, true), (regs [(PWR_DOM.STATE 17, 2)] { State.reset with now := 10 ^ 9, mem := [(4, 1)], otp := [(32, 1)], pins := { vddAon := true, pwrok := true, resetN := true }, boot := { cold := false } }).coldReset (some (⟨0, 0⟩, true)) 1, ⟨by decide +kernel, by decide +kernel, by first | with_reducible rfl | decide +kernel⟩⟩,
   ⟨regs [(PWR_DOM.STATE 17, 2)] { State.reset with now := 10 ^ 9, mem := [(4, 1)], otp := [(32, 1)], pins := { vddAon := true, pwrok := true, resetN := true }, boot := { cold := false } }, some (⟨0, 0⟩, true), (regs [(PWR_DOM.STATE 17, 2)] { State.reset with now := 10 ^ 9, mem := [(4, 1)], otp := [(32, 1)], pins := { vddAon := true, pwrok := true, resetN := true }, boot := { cold := false } }).coldReset (some (⟨0, 0⟩, true)) 1, ⟨by decide +kernel, by decide +kernel, by first | with_reducible rfl | decide +kernel⟩⟩⟩

theorem witness_ResetsBootAndPower_2 :
  (∃ (s : State) (torn : Option (DescRef × Bool)) (k : State), (s.pins.vddAon = true) ∧ (k = s.coldReset torn 1)) ∧
  (∃ (s : State), (s.pins.vddAon = true) ∧ (s.pins.pwrok = true)) ∧
  (∃ (s : State) (torn : Option (DescRef × Bool)), (s.pins.vddAon = false ∨ s.pins.pwrok = false)) ∧
  (∃ (s : State), (s.pins.vddAon = true) ∧ (s.pins.resetN = true)) :=
  ⟨⟨regs [(PWR_DOM.STATE 17, 2)] { State.reset with now := 10 ^ 9, mem := [(4, 1)], otp := [(32, 1)], pins := { vddAon := true, pwrok := true, resetN := true }, boot := { cold := false } }, some (⟨0, 0⟩, true), (regs [(PWR_DOM.STATE 17, 2)] { State.reset with now := 10 ^ 9, mem := [(4, 1)], otp := [(32, 1)], pins := { vddAon := true, pwrok := true, resetN := true }, boot := { cold := false } }).coldReset (some (⟨0, 0⟩, true)) 1, ⟨by decide +kernel, by first | with_reducible rfl | decide +kernel⟩⟩,
   ⟨regs [(PWR_DOM.STATE 17, 2)] { State.reset with now := 10 ^ 9, mem := [(4, 1)], otp := [(32, 1)], pins := { vddAon := true, pwrok := true, resetN := true }, boot := { cold := false } }, by decide +kernel⟩,
   ⟨regs [(PWR_DOM.STATE 17, 2)] { State.reset with now := 10 ^ 9, mem := [(4, 1)], otp := [(32, 1)], pins := { vddAon := false } }, none, by decide +kernel⟩,
   ⟨regs [(PWR_DOM.STATE 17, 2)] { State.reset with now := 10 ^ 9, mem := [(4, 1)], otp := [(32, 1)], pins := { vddAon := true, pwrok := true, resetN := true }, boot := { cold := false } }, by decide +kernel⟩⟩

theorem witness_ResetsBootAndPower_3 :
  (∃ (s : State) (torn : Option (DescRef × Bool)), (s.pins.vddAon = false ∨ s.pins.resetN = false)) ∧
  (∃ (s : State), (s.pins.vddAon = true)) ∧
  (∃ (s : State) (torn : Option (DescRef × Bool)), (s.pins.vddAon = false)) ∧
  (∃ (s : State) (headSel peerPrsntN norOk : Bool) (train : List (Bool × Nat)), (s.boot.cold = true) ∧ (s.pins.vddAon = true)) :=
  ⟨⟨regs [(PWR_DOM.STATE 17, 2)] { State.reset with now := 10 ^ 9, mem := [(4, 1)], otp := [(32, 1)], pins := { vddAon := false } }, none, by decide +kernel⟩,
   ⟨regs [(PWR_DOM.STATE 17, 2)] { State.reset with now := 10 ^ 9, mem := [(4, 1)], otp := [(32, 1)], pins := { vddAon := true, pwrok := true, resetN := true }, boot := { cold := false } }, by decide +kernel⟩,
   ⟨regs [(PWR_DOM.STATE 17, 2)] { State.reset with now := 10 ^ 9, mem := [(4, 1)], otp := [(32, 1)], pins := { vddAon := false } }, none, by decide +kernel⟩,
   ⟨regs [(PWR_DOM.STATE 17, 2)] { State.reset with now := 10 ^ 9, mem := [(4, 1)], otp := [(32, 1)], pins := { vddAon := true } }, false, false, true, [], by decide +kernel⟩⟩

theorem witness_ResetsBootAndPower_4 :
  (∃ (s : State) (headSel peerPrsntN norOk : Bool) (train : List (Bool × Nat)), (s.boot.cold = false ∨ s.pins.vddAon = false)) ∧
  (∃ (s : State) (warm norOk : Bool) (train : List (Bool × Nat)) (v : State), (v = [1, 2, 3].foldl (fun (s : State) t => s.restoreSlot t) ((((s.bootStep 2).raise Ev.reset (some .pwr)).bootOtp warm).bootStep 3))) ∧
  (∃ (s : State) (origin : Origin), (origin ≠ 0x200)) ∧
  (∃ (s : State), (s.boot.cold = true ∨ s.boot.stopped = true ∨ s.boot.warmUntil.isSome = true)) :=
  ⟨⟨regs [(PWR_DOM.STATE 17, 2)] { State.reset with now := 10 ^ 9, mem := [(4, 1)], otp := [(32, 1)], pins := { vddAon := true, pwrok := true, resetN := true }, boot := { cold := false } }, false, false, true, [], by decide +kernel⟩,
   ⟨State.reset, false, true, [], [1, 2, 3].foldl (fun (s : State) t => s.restoreSlot t) ((((State.reset.bootStep 2).raise Ev.reset (some .pwr)).bootOtp false).bootStep 3), rfl⟩,
   ⟨regs [(PWR_DOM.STATE 17, 2)] { State.reset with now := 10 ^ 9, mem := [(4, 1)], otp := [(32, 1)], pins := { vddAon := true, pwrok := true, resetN := true }, boot := { cold := false } }, 5, by decide +kernel⟩,
   ⟨regs [(PWR_DOM.STATE 17, 2)] { State.reset with now := 10 ^ 9, mem := [(4, 1)], otp := [(32, 1)] }, by decide +kernel⟩⟩

theorem witness_ResetsBootAndPower_5 :
  (∃ (s : State), (s.boot.cold = false) ∧ (s.boot.stopped = false) ∧ (s.boot.warmUntil = none)) ∧
  (∃ (s : State), (s.boot.cold = false) ∧ (s.boot.stopped = false) ∧ (s.boot.warmUntil = none)) ∧
  (∃ (s : State) (norOk : Bool) (train : List (Bool × Nat)), (s.due s.boot.warmUntil = true)) ∧
  (∃ (s : State) (norOk : Bool) (train : List (Bool × Nat)), (s.due s.boot.warmUntil = false)) :=
  ⟨⟨regs [(PWR_DOM.STATE 17, 2)] { State.reset with now := 10 ^ 9, mem := [(4, 1)], otp := [(32, 1)], pins := { vddAon := true, pwrok := true, resetN := true }, boot := { cold := false } }, by decide +kernel⟩,
   ⟨regs [(PWR_DOM.STATE 17, 2)] { State.reset with now := 10 ^ 9, mem := [(4, 1)], otp := [(32, 1)], pins := { vddAon := true, pwrok := true, resetN := true }, boot := { cold := false } }, by decide +kernel⟩,
   ⟨regs [(PWR_DOM.STATE 17, 2)] { State.reset with now := 10 ^ 9, mem := [(4, 1)], otp := [(32, 1)], boot := { warmUntil := some 5 } }, true, [], by decide +kernel⟩,
   ⟨regs [(PWR_DOM.STATE 17, 2)] { State.reset with now := 10 ^ 9, mem := [(4, 1)], otp := [(32, 1)] }, true, [], by decide +kernel⟩⟩

theorem witness_JigSessionsThroughTheIslandRing :
  (∃ (s : State) (owner t len : Nat) (x : JigSession), (s.jig.session = some x)) ∧
  (∃ (s : State) (owner t len : Nat), (s.jig.session = none) ∧ (t = 0 ∨ 3 < t)) ∧
  (∃ (s : State) (owner t len : Nat), (s.jig.session = none) ∧ (1 ≤ t) ∧ (t ≤ 3) ∧ (s.jig.recovery = true → t = 1) ∧ (imageLenOk t len = false)) ∧
  (∃ (s : State) (owner t len : Nat), (s.jig.session = none) ∧ (1 ≤ t) ∧ (t ≤ 3) ∧ (s.jig.recovery = true → t = 1) ∧ (imageLenOk t len = true) ∧ (s.jig.acts.any (fun (a : Nat × DescRef) => a.1 == t) = true)) :=
  ⟨⟨regs [(DDR_CFG.CAP_GIB, 16), (SEC_STATUS.IMAGES_OK, 1), (JIG_CFG.MGT_EN, 1)] { State.reset with now := 10 ^ 9, jig := { session := some { id := 77, type := 2, len := 100, owner := 0, idleBy := 10 ^ 12 } } }, 5, 2, 8192, { id := 77, type := 2, len := 100, owner := 0, idleBy := 10 ^ 12 }, by decide +kernel⟩,
   ⟨regs [(DDR_CFG.CAP_GIB, 16), (SEC_STATUS.IMAGES_OK, 1), (JIG_CFG.MGT_EN, 1)] { State.reset with now := 10 ^ 9, jig := {  } }, 5, 4, 8192, by decide +kernel⟩,
   ⟨regs [(DDR_CFG.CAP_GIB, 16), (SEC_STATUS.IMAGES_OK, 1), (JIG_CFG.MGT_EN, 1)] { State.reset with now := 10 ^ 9, jig := {  } }, 5, 2, 14680065, by decide +kernel⟩,
   ⟨regs [(DDR_CFG.CAP_GIB, 16), (SEC_STATUS.IMAGES_OK, 1), (JIG_CFG.MGT_EN, 1)] { State.reset with now := 10 ^ 9, jig := { acts := [(2, ⟨0, 0⟩)] } }, 5, 2, 14680064, by decide +kernel⟩⟩

theorem witness_JigSessionsThroughTheIslandRing_2 :
  (∃ (s : State) (owner t len : Nat), (s.jig.session = none) ∧ (1 ≤ t) ∧ (t ≤ 3) ∧ (s.jig.recovery = true → t = 1) ∧ (imageLenOk t len = true) ∧ (s.jig.acts.any (fun (a : Nat × DescRef) => a.1 == t) = false)) ∧
  (∃ (s : State) (d : DescRef) (f : Fetched), (s.startedAt .sec d Op.jigBegin = some f) ∧ (s.jig.recovery = false) ∧ (s.inOrder .sec d = true)) ∧
  (∃ (s : State) (d : DescRef) (f : Fetched), (s.startedAt .sec d Op.jigBlock = some f) ∧ (s.jig.recovery = false) ∧ (s.inOrder .sec d = true) ∧ (s.jigSession (s.ringOwner .sec d) (f.at 28 4) = none)) ∧
  (∃ (s : State) (d : DescRef) (f : Fetched), (s.startedAt .sec d Op.jigCommit = some f) ∧ (s.jig.recovery = false) ∧ (s.inOrder .sec d = true) ∧ (s.jigSession (s.ringOwner .sec d) (f.at 28 4) = none)) :=
  ⟨⟨regs [(DDR_CFG.CAP_GIB, 16), (SEC_STATUS.IMAGES_OK, 1), (JIG_CFG.MGT_EN, 1)] { State.reset with now := 10 ^ 9, jig := {  } }, 5, 2, 8192, by decide +kernel⟩,
   ⟨holds .sec [desc 0 Op.jigBegin [(28, 1, 2), (32, 4, 8192)] .started] (regs [(DDR_CFG.CAP_GIB, 16), (SEC_STATUS.IMAGES_OK, 1), (JIG_CFG.MGT_EN, 1)] { State.reset with now := 10 ^ 9, jig := {  } }), ⟨0, 0⟩, desc 0 Op.jigBegin [(28, 1, 2), (32, 4, 8192)] .started, by decide +kernel⟩,
   ⟨holds .sec [desc 0 Op.jigBlock [(28, 4, 77)] .started] (regs [(DDR_CFG.CAP_GIB, 16), (SEC_STATUS.IMAGES_OK, 1), (JIG_CFG.MGT_EN, 1)] { State.reset with now := 10 ^ 9, jig := { session := some { id := 77, type := 2, len := 100, owner := 5, idleBy := 10 ^ 12 } } }), ⟨0, 0⟩, desc 0 Op.jigBlock [(28, 4, 77)] .started, by decide +kernel⟩,
   ⟨holds .sec [desc 0 Op.jigCommit [(28, 4, 77)] .started] (regs [(DDR_CFG.CAP_GIB, 16), (SEC_STATUS.IMAGES_OK, 1), (JIG_CFG.MGT_EN, 1)] { State.reset with now := 10 ^ 9, jig := { session := some { id := 77, type := 2, len := 100, owner := 5, idleBy := 10 ^ 12 } } }), ⟨0, 0⟩, desc 0 Op.jigCommit [(28, 4, 77)] .started, by decide +kernel⟩⟩

theorem witness_JigSessionsThroughTheIslandRing_3 :
  (∃ (s : State) (d : DescRef) (f : Fetched), (s.startedAt .sec d Op.jigAbort = some f) ∧ (s.jig.recovery = false) ∧ (s.inOrder .sec d = true) ∧ (s.jigSession (s.ringOwner .sec d) (f.at 28 4) = none)) ∧
  (∃ (s : State) (d : DescRef) (f : Fetched), (s.startedAt .sec d Op.jigBitmap = some f) ∧ (s.jig.recovery = false) ∧ (s.inOrder .sec d = true) ∧ (s.jigSession (s.ringOwner .sec d) (f.at 28 4) = none)) ∧
  (∃ (s : State) (d : DescRef) (f : Fetched), (s.startedAt .sec d Op.jigBegin = some f) ∧ (s.jig.recovery = true ∨ s.inOrder .sec d = false)) ∧
  (∃ (s : State) (d : DescRef) (f : Fetched), (s.startedAt .sec d Op.jigBlock = some f) ∧ (s.jig.recovery = true ∨ s.inOrder .sec d = false)) :=
  ⟨⟨holds .sec [desc 0 Op.jigAbort [(28, 4, 77)] .started] (regs [(DDR_CFG.CAP_GIB, 16), (SEC_STATUS.IMAGES_OK, 1), (JIG_CFG.MGT_EN, 1)] { State.reset with now := 10 ^ 9, jig := { session := some { id := 77, type := 2, len := 100, owner := 5, idleBy := 10 ^ 12 } } }), ⟨0, 0⟩, desc 0 Op.jigAbort [(28, 4, 77)] .started, by decide +kernel⟩,
   ⟨holds .sec [desc 0 Op.jigBitmap [(28, 4, 77)] .started] (regs [(DDR_CFG.CAP_GIB, 16), (SEC_STATUS.IMAGES_OK, 1), (JIG_CFG.MGT_EN, 1)] { State.reset with now := 10 ^ 9, jig := { session := some { id := 77, type := 2, len := 100, owner := 5, idleBy := 10 ^ 12 } } }), ⟨0, 0⟩, desc 0 Op.jigBitmap [(28, 4, 77)] .started, by decide +kernel⟩,
   ⟨holds .sec [desc 0 Op.jigBegin [(28, 4, 77)] .started] (regs [(DDR_CFG.CAP_GIB, 16), (SEC_STATUS.IMAGES_OK, 1), (JIG_CFG.MGT_EN, 1)] { State.reset with now := 10 ^ 9, jig := { recovery := true } }), ⟨0, 0⟩, desc 0 Op.jigBegin [(28, 4, 77)] .started, by decide +kernel⟩,
   ⟨holds .sec [desc 0 Op.jigBlock [(28, 4, 77)] .started] (regs [(DDR_CFG.CAP_GIB, 16), (SEC_STATUS.IMAGES_OK, 1), (JIG_CFG.MGT_EN, 1)] { State.reset with now := 10 ^ 9, jig := { recovery := true } }), ⟨0, 0⟩, desc 0 Op.jigBlock [(28, 4, 77)] .started, by decide +kernel⟩⟩

theorem witness_JigSessionsThroughTheIslandRing_4 :
  (∃ (s : State) (d : DescRef) (f : Fetched), (s.startedAt .sec d Op.jigCommit = some f) ∧ (s.jig.recovery = true ∨ s.inOrder .sec d = false)) ∧
  (∃ (s : State) (d : DescRef) (f : Fetched), (s.startedAt .sec d Op.jigAbort = some f) ∧ (s.jig.recovery = true ∨ s.inOrder .sec d = false)) ∧
  (∃ (s : State) (d : DescRef) (f : Fetched), (s.startedAt .sec d Op.jigBitmap = some f) ∧ (s.jig.recovery = true ∨ s.inOrder .sec d = false)) ∧
  (∃ (s : State) (d : DescRef) (f : Fetched), (s.startedAt .sec d Op.jigActivate = some f) ∧ (s.jig.recovery = true ∨ s.inOrder .sec d = false)) :=
  ⟨⟨holds .sec [desc 0 Op.jigCommit [(28, 4, 77)] .started] (regs [(DDR_CFG.CAP_GIB, 16), (SEC_STATUS.IMAGES_OK, 1), (JIG_CFG.MGT_EN, 1)] { State.reset with now := 10 ^ 9, jig := { recovery := true } }), ⟨0, 0⟩, desc 0 Op.jigCommit [(28, 4, 77)] .started, by decide +kernel⟩,
   ⟨holds .sec [desc 0 Op.jigAbort [(28, 4, 77)] .started] (regs [(DDR_CFG.CAP_GIB, 16), (SEC_STATUS.IMAGES_OK, 1), (JIG_CFG.MGT_EN, 1)] { State.reset with now := 10 ^ 9, jig := { recovery := true } }), ⟨0, 0⟩, desc 0 Op.jigAbort [(28, 4, 77)] .started, by decide +kernel⟩,
   ⟨holds .sec [desc 0 Op.jigBitmap [(28, 4, 77)] .started] (regs [(DDR_CFG.CAP_GIB, 16), (SEC_STATUS.IMAGES_OK, 1), (JIG_CFG.MGT_EN, 1)] { State.reset with now := 10 ^ 9, jig := { recovery := true } }), ⟨0, 0⟩, desc 0 Op.jigBitmap [(28, 4, 77)] .started, by decide +kernel⟩,
   ⟨holds .sec [desc 0 Op.jigActivate [(28, 4, 77)] .started] (regs [(DDR_CFG.CAP_GIB, 16), (SEC_STATUS.IMAGES_OK, 1), (JIG_CFG.MGT_EN, 1)] { State.reset with now := 10 ^ 9, jig := { recovery := true } }), ⟨0, 0⟩, desc 0 Op.jigActivate [(28, 4, 77)] .started, by decide +kernel⟩⟩

theorem witness_JigSessionsThroughTheIslandRing_5 :
  (∃ (s : State) (x : JigSession) (off len : Nat), (off % 65536 ≠ 0 ∨ x.len ≤ off)) ∧
  (∃ (s : State) (x : JigSession) (off len : Nat), (off % 65536 = 0) ∧ (off < x.len)) ∧
  (∃ (s : State) (d : DescRef) (f : Fetched) (x : JigSession), (s.startedAt .sec d Op.jigBlock = some f) ∧ (s.jig.recovery = false) ∧ (s.inOrder .sec d = true) ∧ (s.jigSession (s.ringOwner .sec d) (f.at 28 4) = some x) ∧ ((x.queue.any fun (b : JigBlock) => b.asked == .desc d) = false) ∧ (blockFault x (f.at 32 4) f.len ≠ St.success)) ∧
  (∃ (s : State) (d : DescRef) (f : Fetched) (x : JigSession) (bs : List Byte), (s.startedAt .sec d Op.jigBlock = some f) ∧ (s.jig.recovery = false) ∧ (s.inOrder .sec d = true) ∧ (s.jigSession (s.ringOwner .sec d) (f.at 28 4) = some x) ∧ ((x.queue.any fun (b : JigBlock) => b.asked == .desc d) = false) ∧ (blockFault x (f.at 32 4) f.len = St.success) ∧ (((s.jigTouch x).dmaRead .sec f.src f.len (some d.ring)).toOption = some bs)) :=
  ⟨⟨State.reset, { id := 77, type := 2, len := 100, owner := 0, idleBy := 10 ^ 12 }, 65536, 5, by decide +kernel⟩,
   ⟨State.reset, { id := 77, type := 2, len := 100, owner := 0, idleBy := 10 ^ 12 }, 0, 100, by decide +kernel⟩,
   ⟨holds .sec [desc 0 Op.jigBlock [(28, 4, 77), (24, 4, 99)] .started] (regs [(DDR_CFG.CAP_GIB, 16), (SEC_STATUS.IMAGES_OK, 1), (JIG_CFG.MGT_EN, 1)] { State.reset with now := 10 ^ 9, jig := { session := some { id := 77, type := 2, len := 100, owner := 0, idleBy := 10 ^ 12 } } }), ⟨0, 0⟩, desc 0 Op.jigBlock [(28, 4, 77), (24, 4, 99)] .started, { id := 77, type := 2, len := 100, owner := 0, idleBy := 10 ^ 12 }, by decide +kernel⟩,
   ⟨holds .sec [desc 0 Op.jigBlock [(28, 4, 77), (8, 8, 4096), (24, 4, 100)] .started] (regs [(DDR_CFG.CAP_GIB, 16), (SEC_STATUS.IMAGES_OK, 1), (JIG_CFG.MGT_EN, 1)] { State.reset with now := 10 ^ 9, jig := { session := some { id := 77, type := 2, len := 100, owner := 0, idleBy := 10 ^ 12 } } }), ⟨0, 0⟩, desc 0 Op.jigBlock [(28, 4, 77), (8, 8, 4096), (24, 4, 100)] .started, { id := 77, type := 2, len := 100, owner := 0, idleBy := 10 ^ 12 }, zeros 100, by decide +kernel⟩⟩

theorem witness_JigSessionsThroughTheIslandRing_6 :
  (∃ (s : State) (d : DescRef) (f : Fetched) (x : JigSession), (s.startedAt .sec d Op.jigBlock = some f) ∧ (s.jig.recovery = false) ∧ (s.inOrder .sec d = true) ∧ (s.jigSession (s.ringOwner .sec d) (f.at 28 4) = some x) ∧ ((x.queue.any fun (b : JigBlock) => b.asked == .desc d) = true)) ∧
  (∃ (s : State) (d : DescRef) (f : Fetched) (x : JigSession) (bs : List Byte) (y : JigSession) (t : State), (s.startedAt .sec d Op.jigBlock = some f) ∧ (s.jig.recovery = false) ∧ (s.inOrder .sec d = true) ∧ (s.jigSession (s.ringOwner .sec d) (f.at 28 4) = some x) ∧ ((x.queue.any fun (b : JigBlock) => b.asked == .desc d) = false) ∧ (blockFault x (f.at 32 4) f.len = St.success) ∧ (t = s.jigTouch x) ∧ ((t.dmaRead .sec f.src f.len (some d.ring)).toOption = some bs) ∧ (t.jig.session = some y)) ∧
  (∃ (s : State) (ok : Bool), (s.jig.session = none ∨ (s.jig.session.map (fun (x : JigSession) => x.queue)) = some [])) ∧
  (∃ (s : State) (x y : JigSession) (b : JigBlock) (rest : List JigBlock) (u : State), (s.jig.session = some x) ∧ (x.queue = b :: rest) ∧ (s.auditRoom = true ∨ (match b.asked with | .port _ => true | .desc _ => false) = true) ∧ (u = s.setSlot' x.type { s.slotOf x.type with blocks := Tab.set (s.slotOf x.type).blocks b.index b.data }) ∧ (y = { x with queue := rest, got := b.index :: x.got.filter (fun i => i != b.index) })) :=
  ⟨⟨holds .sec [desc 0 Op.jigBlock [(28, 4, 77)] .started] (regs [(DDR_CFG.CAP_GIB, 16), (SEC_STATUS.IMAGES_OK, 1), (JIG_CFG.MGT_EN, 1)] { State.reset with now := 10 ^ 9, jig := { session := some { id := 77, type := 2, len := 100, owner := 0, queue := [⟨.desc ⟨0, 0⟩, 0, [1, 2]⟩], idleBy := 10 ^ 12 } } }), ⟨0, 0⟩, desc 0 Op.jigBlock [(28, 4, 77)] .started, { id := 77, type := 2, len := 100, owner := 0, queue := [⟨.desc ⟨0, 0⟩, 0, [1, 2]⟩], idleBy := 10 ^ 12 }, by decide +kernel⟩,
   ⟨holds .sec [desc 0 Op.jigBlock [(28, 4, 77), (8, 8, 4096), (24, 4, 100)] .started] (regs [(DDR_CFG.CAP_GIB, 16), (SEC_STATUS.IMAGES_OK, 1), (JIG_CFG.MGT_EN, 1)] { State.reset with now := 10 ^ 9, jig := { session := some { id := 77, type := 2, len := 100, owner := 0, idleBy := 10 ^ 12 } } }), ⟨0, 0⟩, desc 0 Op.jigBlock [(28, 4, 77), (8, 8, 4096), (24, 4, 100)] .started, { id := 77, type := 2, len := 100, owner := 0, idleBy := 10 ^ 12 }, zeros 100, (((holds .sec [desc 0 Op.jigBlock [(28, 4, 77), (8, 8, 4096), (24, 4, 100)] .started] (regs [(DDR_CFG.CAP_GIB, 16), (SEC_STATUS.IMAGES_OK, 1), (JIG_CFG.MGT_EN, 1)] { State.reset with now := 10 ^ 9, jig := { session := some { id := 77, type := 2, len := 100, owner := 0, idleBy := 10 ^ 12 } } })).jigTouch { id := 77, type := 2, len := 100, owner := 0, idleBy := 10 ^ 12 }).jig.session.getD { id := 77, type := 2, len := 100, owner := 0, idleBy := 10 ^ 12 }), ((holds .sec [desc 0 Op.jigBlock [(28, 4, 77), (8, 8, 4096), (24, 4, 100)] .started] (regs [(DDR_CFG.CAP_GIB, 16), (SEC_STATUS.IMAGES_OK, 1), (JIG_CFG.MGT_EN, 1)] { State.reset with now := 10 ^ 9, jig := { session := some { id := 77, type := 2, len := 100, owner := 0, idleBy := 10 ^ 12 } } })).jigTouch { id := 77, type := 2, len := 100, owner := 0, idleBy := 10 ^ 12 }), ⟨by decide +kernel, by decide +kernel, by decide +kernel, by decide +kernel, by decide +kernel, by decide +kernel, by first | with_reducible rfl | decide +kernel, by decide +kernel, by decide +kernel⟩⟩,
   ⟨regs [(DDR_CFG.CAP_GIB, 16), (SEC_STATUS.IMAGES_OK, 1), (JIG_CFG.MGT_EN, 1)] { State.reset with now := 10 ^ 9, jig := { session := some { id := 77, type := 2, len := 100, owner := 0, idleBy := 10 ^ 12 } } }, true, by decide +kernel⟩,
   ⟨regs [(DDR_CFG.CAP_GIB, 16), (SEC_STATUS.IMAGES_OK, 1), (JIG_CFG.MGT_EN, 1)] { State.reset with now := 10 ^ 9, jig := { session := some { id := 77, type := 2, len := 100, owner := 0, queue := [⟨.desc ⟨0, 0⟩, 0, [1, 2]⟩], idleBy := 10 ^ 12 } } }, { id := 77, type := 2, len := 100, owner := 0, queue := [⟨.desc ⟨0, 0⟩, 0, [1, 2]⟩], idleBy := 10 ^ 12 }, { id := 77, type := 2, len := 100, owner := 0, got := [0], idleBy := 10 ^ 12 }, ⟨.desc ⟨0, 0⟩, 0, [1, 2]⟩, [], ((regs [(DDR_CFG.CAP_GIB, 16), (SEC_STATUS.IMAGES_OK, 1), (JIG_CFG.MGT_EN, 1)] { State.reset with now := 10 ^ 9, jig := { session := some { id := 77, type := 2, len := 100, owner := 0, queue := [⟨.desc ⟨0, 0⟩, 0, [1, 2]⟩], idleBy := 10 ^ 12 } } }).setSlot' 2 { blocks := [(0, [1, 2])] }), ⟨by decide +kernel, by decide +kernel, by decide +kernel, by first | with_reducible rfl | decide +kernel, by decide +kernel⟩⟩⟩

theorem witness_JigSessionsThroughTheIslandRing_7 :
  (∃ (s : State) (x y : JigSession) (b : JigBlock) (rest : List JigBlock) (u : State), (s.jig.session = some x) ∧ (x.queue = b :: rest) ∧ (s.auditRoom = true ∨ (match b.asked with | .port _ => true | .desc _ => false) = true) ∧ (u = s.draw.setSlot' x.type { s.slotOf x.type with blocks := Tab.set (s.slotOf x.type).blocks b.index (s.freeBytes b.data.length) }) ∧ (y = { x with queue := rest, got := x.got.filter (fun i => i != b.index) })) ∧
  (∃ (s : State) (x : JigSession) (b : JigBlock) (rest : List JigBlock), (s.jig.session = some x) ∧ (x.queue = b :: rest) ∧ (s.auditRoom = true ∨ (match b.asked with | .port _ => true | .desc _ => false) = true)) ∧
  (∃ (s : State) (ok : Bool) (x : JigSession) (d : DescRef) (i : Nat) (bs : List Byte) (rest : List JigBlock), (s.jig.session = some x) ∧ (x.queue = ⟨.desc d, i, bs⟩ :: rest) ∧ (s.auditRoom = false)) ∧
  (∃ (s : State) (d : DescRef) (f : Fetched) (x : JigSession), (s.startedAt .sec d Op.jigCommit = some f) ∧ (s.jig.recovery = false) ∧ (s.inOrder .sec d = true) ∧ (s.jigSession (s.ringOwner .sec d) (f.at 28 4) = some x) ∧ (x.queue ≠ [])) :=
  ⟨⟨regs [(DDR_CFG.CAP_GIB, 16), (SEC_STATUS.IMAGES_OK, 1), (JIG_CFG.MGT_EN, 1)] { State.reset with now := 10 ^ 9, jig := { session := some { id := 77, type := 2, len := 100, owner := 0, queue := [⟨.desc ⟨0, 0⟩, 0, [1, 2]⟩], idleBy := 10 ^ 12 } } }, { id := 77, type := 2, len := 100, owner := 0, queue := [⟨.desc ⟨0, 0⟩, 0, [1, 2]⟩], idleBy := 10 ^ 12 }, { id := 77, type := 2, len := 100, owner := 0, idleBy := 10 ^ 12 }, ⟨.desc ⟨0, 0⟩, 0, [1, 2]⟩, [], ((regs [(DDR_CFG.CAP_GIB, 16), (SEC_STATUS.IMAGES_OK, 1), (JIG_CFG.MGT_EN, 1)] { State.reset with now := 10 ^ 9, jig := { session := some { id := 77, type := 2, len := 100, owner := 0, queue := [⟨.desc ⟨0, 0⟩, 0, [1, 2]⟩], idleBy := 10 ^ 12 } } }).draw.setSlot' 2 { blocks := [(0, (regs [(DDR_CFG.CAP_GIB, 16), (SEC_STATUS.IMAGES_OK, 1), (JIG_CFG.MGT_EN, 1)] { State.reset with now := 10 ^ 9, jig := { session := some { id := 77, type := 2, len := 100, owner := 0, queue := [⟨.desc ⟨0, 0⟩, 0, [1, 2]⟩], idleBy := 10 ^ 12 } } }).freeBytes 2)] }), ⟨rfl, rfl, by decide +kernel, rfl, rfl⟩⟩,
   ⟨regs [(DDR_CFG.CAP_GIB, 16), (SEC_STATUS.IMAGES_OK, 1), (JIG_CFG.MGT_EN, 1)] { State.reset with now := 10 ^ 9, jig := { session := some { id := 77, type := 2, len := 100, owner := 0, queue := [⟨.desc ⟨0, 0⟩, 0, [1, 2]⟩], idleBy := 10 ^ 12 } } }, { id := 77, type := 2, len := 100, owner := 0, queue := [⟨.desc ⟨0, 0⟩, 0, [1, 2]⟩], idleBy := 10 ^ 12 }, ⟨.desc ⟨0, 0⟩, 0, [1, 2]⟩, [], by decide +kernel⟩,
   ⟨regs [(DDR_CFG.CAP_GIB, 16), (SEC_STATUS.IMAGES_OK, 1), (JIG_CFG.MGT_EN, 1)] { State.reset with now := 10 ^ 9, jig := { session := some { id := 77, type := 2, len := 100, owner := 0, queue := [⟨.desc ⟨0, 0⟩, 0, [1, 2]⟩], idleBy := 10 ^ 12 } }, aud := { State.reset.aud with staged := List.replicate 512 ⟨0, 0, 0, 0, 0, 0, 0, 0, 0, []⟩ } }, true, { id := 77, type := 2, len := 100, owner := 0, queue := [⟨.desc ⟨0, 0⟩, 0, [1, 2]⟩], idleBy := 10 ^ 12 }, ⟨0, 0⟩, 0, [1, 2], [], by decide +kernel⟩,
   ⟨holds .sec [desc 0 Op.jigCommit [(28, 4, 77)] .started] (regs [(DDR_CFG.CAP_GIB, 16), (SEC_STATUS.IMAGES_OK, 1), (JIG_CFG.MGT_EN, 1)] { State.reset with now := 10 ^ 9, jig := { session := some { id := 77, type := 2, len := 100, owner := 0, queue := [⟨.desc ⟨0, 0⟩, 0, [1, 2]⟩], idleBy := 10 ^ 12 } } }), ⟨0, 0⟩, desc 0 Op.jigCommit [(28, 4, 77)] .started, { id := 77, type := 2, len := 100, owner := 0, queue := [⟨.desc ⟨0, 0⟩, 0, [1, 2]⟩], idleBy := 10 ^ 12 }, by decide +kernel⟩⟩

theorem witness_JigSessionsThroughTheIslandRing_8 :
  (∃ (s : State) (d : DescRef) (f : Fetched) (x : JigSession), (s.startedAt .sec d Op.jigCommit = some f) ∧ (s.jig.recovery = false) ∧ (s.inOrder .sec d = true) ∧ (s.jigSession (s.ringOwner .sec d) (f.at 28 4) = some x) ∧ (x.queue = [])) ∧
  (∃ (s : State) (x : JigSession) (i : Nat), (s.jig.session = some x) ∧ (x.missing = some i)) ∧
  (∃ (s : State) (x : JigSession), (s.jig.session = some x) ∧ (x.missing = none)) ∧
  (∃ (s : State) (d : DescRef) (f : Fetched) (x : JigSession), (s.startedAt .sec d Op.jigAbort = some f) ∧ (s.jig.recovery = false) ∧ (s.inOrder .sec d = true) ∧ (s.jigSession (s.ringOwner .sec d) (f.at 28 4) = some x) ∧ (x.queue ≠ [])) :=
  ⟨⟨holds .sec [desc 0 Op.jigCommit [(28, 4, 77)] .started] (regs [(DDR_CFG.CAP_GIB, 16), (SEC_STATUS.IMAGES_OK, 1), (JIG_CFG.MGT_EN, 1)] { State.reset with now := 10 ^ 9, jig := { session := some { id := 77, type := 2, len := 100, owner := 0, idleBy := 10 ^ 12 } } }), ⟨0, 0⟩, desc 0 Op.jigCommit [(28, 4, 77)] .started, { id := 77, type := 2, len := 100, owner := 0, idleBy := 10 ^ 12 }, by decide +kernel⟩,
   ⟨regs [(DDR_CFG.CAP_GIB, 16), (SEC_STATUS.IMAGES_OK, 1), (JIG_CFG.MGT_EN, 1)] { State.reset with now := 10 ^ 9, jig := { session := some { id := 77, type := 2, len := 100, owner := 0, idleBy := 10 ^ 12 } } }, { id := 77, type := 2, len := 100, owner := 0, idleBy := 10 ^ 12 }, 0, by decide +kernel⟩,
   ⟨regs [(DDR_CFG.CAP_GIB, 16), (SEC_STATUS.IMAGES_OK, 1), (JIG_CFG.MGT_EN, 1)] { State.reset with now := 10 ^ 9, jig := { session := some { id := 77, type := 2, len := 100, owner := 0, got := [0], idleBy := 10 ^ 12 } } }, { id := 77, type := 2, len := 100, owner := 0, got := [0], idleBy := 10 ^ 12 }, by decide +kernel⟩,
   ⟨holds .sec [desc 0 Op.jigAbort [(28, 4, 77)] .started] (regs [(DDR_CFG.CAP_GIB, 16), (SEC_STATUS.IMAGES_OK, 1), (JIG_CFG.MGT_EN, 1)] { State.reset with now := 10 ^ 9, jig := { session := some { id := 77, type := 2, len := 100, owner := 0, queue := [⟨.desc ⟨0, 0⟩, 0, [1, 2]⟩], idleBy := 10 ^ 12 } } }), ⟨0, 0⟩, desc 0 Op.jigAbort [(28, 4, 77)] .started, { id := 77, type := 2, len := 100, owner := 0, queue := [⟨.desc ⟨0, 0⟩, 0, [1, 2]⟩], idleBy := 10 ^ 12 }, by decide +kernel⟩⟩

theorem witness_JigSessionsThroughTheIslandRing_9 :
  (∃ (s : State) (d : DescRef) (f : Fetched) (x : JigSession), (s.startedAt .sec d Op.jigAbort = some f) ∧ (s.jig.recovery = false) ∧ (s.inOrder .sec d = true) ∧ (s.jigSession (s.ringOwner .sec d) (f.at 28 4) = some x) ∧ (x.queue = [])) ∧
  (∃ (s : State) (d : DescRef) (f : Fetched) (x : JigSession), (s.startedAt .sec d Op.jigBitmap = some f) ∧ (s.jig.recovery = false) ∧ (s.inOrder .sec d = true) ∧ (s.jigSession (s.ringOwner .sec d) (f.at 28 4) = some x) ∧ (f.len ≠ 48)) ∧
  (∃ (s : State) (d : DescRef) (f : Fetched) (x : JigSession) (t : State), (s.startedAt .sec d Op.jigBitmap = some f) ∧ (s.jig.recovery = false) ∧ (s.inOrder .sec d = true) ∧ (s.jigSession (s.ringOwner .sec d) (f.at 28 4) = some x) ∧ (f.len = 48) ∧ (((s.jigTouch x).dmaWrite .sec f.dst (leBytes 48 ((x.got.map fun (i : Nat) => 2 ^ i).sum)) (some d.ring)).toOption = some t)) ∧
  (∃ (s : State), (s.jig.session = none)) :=
  ⟨⟨holds .sec [desc 0 Op.jigAbort [(28, 4, 77)] .started] (regs [(DDR_CFG.CAP_GIB, 16), (SEC_STATUS.IMAGES_OK, 1), (JIG_CFG.MGT_EN, 1)] { State.reset with now := 10 ^ 9, jig := { session := some { id := 77, type := 2, len := 100, owner := 0, idleBy := 10 ^ 12 } } }), ⟨0, 0⟩, desc 0 Op.jigAbort [(28, 4, 77)] .started, { id := 77, type := 2, len := 100, owner := 0, idleBy := 10 ^ 12 }, by decide +kernel⟩,
   ⟨holds .sec [desc 0 Op.jigBitmap [(28, 4, 77)] .started] (regs [(DDR_CFG.CAP_GIB, 16), (SEC_STATUS.IMAGES_OK, 1), (JIG_CFG.MGT_EN, 1)] { State.reset with now := 10 ^ 9, jig := { session := some { id := 77, type := 2, len := 100, owner := 0, idleBy := 10 ^ 12 } } }), ⟨0, 0⟩, desc 0 Op.jigBitmap [(28, 4, 77)] .started, { id := 77, type := 2, len := 100, owner := 0, idleBy := 10 ^ 12 }, by decide +kernel⟩,
   ⟨holds .sec [desc 0 Op.jigBitmap [(28, 4, 77), (16, 8, 8192), (24, 4, 48)] .started] (regs [(DDR_CFG.CAP_GIB, 16), (SEC_STATUS.IMAGES_OK, 1), (JIG_CFG.MGT_EN, 1)] { State.reset with now := 10 ^ 9, jig := { session := some { id := 77, type := 2, len := 100, owner := 0, got := [0], idleBy := 10 ^ 12 } } }), ⟨0, 0⟩, desc 0 Op.jigBitmap [(28, 4, 77), (16, 8, 8192), (24, 4, 48)] .started, { id := 77, type := 2, len := 100, owner := 0, got := [0], idleBy := 10 ^ 12 }, ((((holds .sec [desc 0 Op.jigBitmap [(28, 4, 77), (16, 8, 8192), (24, 4, 48)] .started] (regs [(DDR_CFG.CAP_GIB, 16), (SEC_STATUS.IMAGES_OK, 1), (JIG_CFG.MGT_EN, 1)] { State.reset with now := 10 ^ 9, jig := { session := some { id := 77, type := 2, len := 100, owner := 0, got := [0], idleBy := 10 ^ 12 } } })).jigTouch { id := 77, type := 2, len := 100, owner := 0, got := [0], idleBy := 10 ^ 12 }).dmaWrite .sec 8192 (leBytes 48 1) (some 0)).toOption.getD State.reset), by decide +kernel⟩,
   ⟨regs [(DDR_CFG.CAP_GIB, 16), (SEC_STATUS.IMAGES_OK, 1), (JIG_CFG.MGT_EN, 1)] { State.reset with now := 10 ^ 9, jig := {  } }, by decide +kernel⟩⟩

theorem witness_JigSessionsThroughTheIslandRing_10 :
  (∃ (s : State) (x : JigSession), (s.jig.session = some x) ∧ (s.passed x.idleBy = false ∨ s.auditRoom = false ∧ s.jig.recovery = false)) ∧
  (∃ (s : State) (x : JigSession), (s.jig.session = some x) ∧ (s.passed x.idleBy = true) ∧ (s.auditRoom = true ∨ s.jig.recovery = true) ∧ (x.queue ≠ [])) ∧
  (∃ (s : State) (x : JigSession), (s.jig.session = some x) ∧ (s.passed x.idleBy = true) ∧ (s.auditRoom = true ∨ s.jig.recovery = true) ∧ (x.queue = [])) ∧
  (∃ (s : State) (x : JigSession), (s.jig.session = some x) ∧ (s.passed x.idleBy = true) ∧ (s.auditRoom = true ∨ s.jig.recovery = true) ∧ (x.queue = [])) :=
  ⟨⟨regs [(DDR_CFG.CAP_GIB, 16), (SEC_STATUS.IMAGES_OK, 1), (JIG_CFG.MGT_EN, 1)] { State.reset with now := 10 ^ 9, jig := { session := some { id := 77, type := 2, len := 100, owner := 0, idleBy := 10 ^ 12 } } }, { id := 77, type := 2, len := 100, owner := 0, idleBy := 10 ^ 12 }, by decide +kernel⟩,
   ⟨regs [(DDR_CFG.CAP_GIB, 16), (SEC_STATUS.IMAGES_OK, 1), (JIG_CFG.MGT_EN, 1)] { State.reset with now := 10 ^ 9, jig := { session := some { id := 77, type := 2, len := 100, owner := 0, queue := [⟨.desc ⟨0, 0⟩, 0, [1, 2]⟩], idleBy := 5 } } }, { id := 77, type := 2, len := 100, owner := 0, queue := [⟨.desc ⟨0, 0⟩, 0, [1, 2]⟩], idleBy := 5 }, by decide +kernel⟩,
   ⟨regs [(DDR_CFG.CAP_GIB, 16), (SEC_STATUS.IMAGES_OK, 1), (JIG_CFG.MGT_EN, 1)] { State.reset with now := 10 ^ 9, jig := { session := some { id := 77, type := 2, len := 100, owner := 0, idleBy := 5 } } }, { id := 77, type := 2, len := 100, owner := 0, idleBy := 5 }, by decide +kernel⟩,
   ⟨regs [(DDR_CFG.CAP_GIB, 16), (SEC_STATUS.IMAGES_OK, 1), (JIG_CFG.MGT_EN, 1)] { State.reset with now := 10 ^ 9, jig := { session := some { id := 77, type := 2, len := 100, owner := 0, idleBy := 5 } } }, { id := 77, type := 2, len := 100, owner := 0, idleBy := 5 }, by decide +kernel⟩⟩

theorem witness_JigSessionsThroughTheIslandRing_11 :
  (∃ (s : State) (d : DescRef) (f : Fetched), (s.startedAt .sec d Op.jigActivate = some f) ∧ (s.jig.recovery = false) ∧ (s.inOrder .sec d = true) ∧ (s.jig.acts = []) ∧ (f.at 28 1 = 0 ∨ 3 < f.at 28 1)) ∧
  (∃ (s : State) (d : DescRef) (f : Fetched), (s.startedAt .sec d Op.jigActivate = some f) ∧ (s.jig.recovery = false) ∧ (s.inOrder .sec d = true) ∧ (s.jig.acts = []) ∧ (f.at 28 1 = 1 ∨ f.at 28 1 = 3) ∧ (s.leaseMode ≠ Lmode.drained ∨ s.rd LEASE_STATUS.PEER ≠ 1)) ∧
  (∃ (s : State) (d : DescRef) (f : Fetched), (s.startedAt .sec d Op.jigActivate = some f) ∧ (s.jig.recovery = false) ∧ (s.inOrder .sec d = true) ∧ (s.jig.acts = []) ∧ (f.at 28 1 = 2) ∧ ((s.slotOf 2).st ≠ 2 ∨ s.jig.session.map (fun (x : JigSession) => x.type) = some 2)) ∧
  (∃ (s : State) (d : DescRef) (f : Fetched), (s.startedAt .sec d Op.jigActivate = some f) ∧ (s.jig.recovery = false) ∧ (s.inOrder .sec d = true) ∧ (s.jig.acts = []) ∧ (f.at 28 1 = 2) ∧ ((s.slotOf 2).st = 2) ∧ (s.jig.session = none)) :=
  ⟨⟨holds .sec [desc 0 Op.jigActivate [(28, 1, 4)] .started] (regs [(DDR_CFG.CAP_GIB, 16), (SEC_STATUS.IMAGES_OK, 1), (JIG_CFG.MGT_EN, 1)] { State.reset with now := 10 ^ 9, jig := {  } }), ⟨0, 0⟩, desc 0 Op.jigActivate [(28, 1, 4)] .started, by decide +kernel⟩,
   ⟨holds .sec [desc 0 Op.jigActivate [(28, 1, 3)] .started] (regs [(DDR_CFG.CAP_GIB, 16), (SEC_STATUS.IMAGES_OK, 1), (JIG_CFG.MGT_EN, 1)] { State.reset with now := 10 ^ 9, jig := {  } }), ⟨0, 0⟩, desc 0 Op.jigActivate [(28, 1, 3)] .started, by decide +kernel⟩,
   ⟨holds .sec [desc 0 Op.jigActivate [(28, 1, 2)] .started] (regs [(DDR_CFG.CAP_GIB, 16), (SEC_STATUS.IMAGES_OK, 1), (JIG_CFG.MGT_EN, 1)] { State.reset with now := 10 ^ 9, jig := {  } }), ⟨0, 0⟩, desc 0 Op.jigActivate [(28, 1, 2)] .started, by decide +kernel⟩,
   ⟨holds .sec [desc 0 Op.jigActivate [(28, 1, 2)] .started] (regs [(DDR_CFG.CAP_GIB, 16), (SEC_STATUS.IMAGES_OK, 1), (JIG_CFG.MGT_EN, 1)] { State.reset with now := 10 ^ 9, jig := { slots := [(2, { st := 2 })] } }), ⟨0, 0⟩, desc 0 Op.jigActivate [(28, 1, 2)] .started, by decide +kernel⟩⟩

theorem witness_JigSessionsThroughTheIslandRing_12 :
  (∃ (s : State) (d : DescRef) (f : Fetched), (s.startedAt .sec d Op.jigActivate = some f) ∧ (s.jig.recovery = false) ∧ (s.inOrder .sec d = true) ∧ ((s.jig.acts.any fun (a : Nat × DescRef) => a.2 == d) = true)) ∧
  (∃ (s : State) (d : DescRef) (f : Fetched), (s.startedAt .sec d Op.jigActivate = some f) ∧ (s.jig.recovery = false) ∧ (s.inOrder .sec d = true) ∧ ((s.jig.acts.any fun (a : Nat × DescRef) => a.2 == d) = false) ∧ (f.at 28 1 = 1 ∨ f.at 28 1 = 3) ∧ (s.leaseMode = Lmode.drained) ∧ (s.rd LEASE_STATUS.PEER = 1) ∧ ((s.slotOf (f.at 28 1)).st ≠ 2 ∨ s.jig.session.map (fun (x : JigSession) => x.type) = some (f.at 28 1) ∨ (s.jig.acts.any fun (a : Nat × DescRef) => a.1 == f.at 28 1) = true ∨ s.jigRingsQuiet = false)) ∧
  (∃ (s : State) (d : DescRef) (f : Fetched) (u : State), (s.startedAt .sec d Op.jigActivate = some f) ∧ (s.jig.recovery = false) ∧ (s.inOrder .sec d = true) ∧ ((s.jig.acts.any fun (a : Nat × DescRef) => a.2 == d) = false) ∧ (f.at 28 1 = 3) ∧ (s.leaseMode = Lmode.drained) ∧ (s.rd LEASE_STATUS.PEER = 1) ∧ ((s.slotOf 3).st = 2) ∧ (s.jig.session.map (fun (x : JigSession) => x.type) ≠ some 3) ∧ ((s.jig.acts.any fun (a : Nat × DescRef) => a.1 == 3) = false) ∧ (s.jigRingsQuiet = true) ∧ (u = s.setJig { s.jig with acts := s.jig.acts ++ [(3, d)] })) ∧
  (∃ (s : State) (d : DescRef) (f : Fetched) (u : State), (s.startedAt .sec d Op.jigActivate = some f) ∧ (s.jig.recovery = false) ∧ (s.inOrder .sec d = true) ∧ ((s.jig.acts.any fun (a : Nat × DescRef) => a.2 == d) = false) ∧ (f.at 28 1 = 1) ∧ (s.leaseMode = Lmode.drained) ∧ (s.rd LEASE_STATUS.PEER = 1) ∧ ((s.slotOf 1).st = 2) ∧ (s.jig.session.map (fun (x : JigSession) => x.type) ≠ some 1) ∧ ((s.jig.acts.any fun (a : Nat × DescRef) => a.1 == 1) = false) ∧ (s.jigRingsQuiet = true) ∧ (u = (s.setJig { s.jig with acts := s.jig.acts ++ [(1, d)] }).setPhase .sec d .waiting)) :=
  ⟨⟨holds .sec [desc 0 Op.jigActivate [(28, 1, 2)] .started] (regs [(DDR_CFG.CAP_GIB, 16), (SEC_STATUS.IMAGES_OK, 1), (JIG_CFG.MGT_EN, 1)] { State.reset with now := 10 ^ 9, jig := { acts := [(2, ⟨0, 0⟩)] } }), ⟨0, 0⟩, desc 0 Op.jigActivate [(28, 1, 2)] .started, by decide +kernel⟩,
   ⟨holds .sec [desc 0 Op.jigActivate [(28, 1, 3)] .started] (regs [(DDR_CFG.CAP_GIB, 16), (SEC_STATUS.IMAGES_OK, 1), (JIG_CFG.MGT_EN, 1), (LEASE_CTL.MODE, Lmode.drained), (LEASE_STATUS.PEER, 1)] { State.reset with now := 10 ^ 9, jig := {  } }), ⟨0, 0⟩, desc 0 Op.jigActivate [(28, 1, 3)] .started, by decide +kernel⟩,
   ⟨holds .sec [desc 0 Op.jigActivate [(28, 1, 3)] .started] (regs [(DDR_CFG.CAP_GIB, 16), (SEC_STATUS.IMAGES_OK, 1), (JIG_CFG.MGT_EN, 1), (LEASE_CTL.MODE, Lmode.drained), (LEASE_STATUS.PEER, 1)] { State.reset with now := 10 ^ 9, jig := { slots := [(3, { st := 2 })] } }), ⟨0, 0⟩, desc 0 Op.jigActivate [(28, 1, 3)] .started, ((holds .sec [desc 0 Op.jigActivate [(28, 1, 3)] .started] (regs [(DDR_CFG.CAP_GIB, 16), (SEC_STATUS.IMAGES_OK, 1), (JIG_CFG.MGT_EN, 1), (LEASE_CTL.MODE, Lmode.drained), (LEASE_STATUS.PEER, 1)] { State.reset with now := 10 ^ 9, jig := { slots := [(3, { st := 2 })] } })).setJig { slots := [(3, { st := 2 })], acts := [(3, ⟨0, 0⟩)] }), ⟨by decide +kernel, by decide +kernel, by decide +kernel, by decide +kernel, by decide +kernel, by decide +kernel, by decide +kernel, by decide +kernel, by decide +kernel, by decide +kernel, by decide +kernel, by first | with_reducible rfl | decide +kernel⟩⟩,
   ⟨holds .sec [desc 0 Op.jigActivate [(28, 1, 1)] .started] (regs [(DDR_CFG.CAP_GIB, 16), (SEC_STATUS.IMAGES_OK, 1), (JIG_CFG.MGT_EN, 1), (LEASE_CTL.MODE, Lmode.drained), (LEASE_STATUS.PEER, 1)] { State.reset with now := 10 ^ 9, jig := { slots := [(1, { st := 2 })] } }), ⟨0, 0⟩, desc 0 Op.jigActivate [(28, 1, 1)] .started, ((holds .sec [desc 0 Op.jigActivate [(28, 1, 1)] .started] (regs [(DDR_CFG.CAP_GIB, 16), (SEC_STATUS.IMAGES_OK, 1), (JIG_CFG.MGT_EN, 1), (LEASE_CTL.MODE, Lmode.drained), (LEASE_STATUS.PEER, 1)] { State.reset with now := 10 ^ 9, jig := { slots := [(1, { st := 2 })] } })).setJig { slots := [(1, { st := 2 })], acts := [(1, ⟨0, 0⟩)] }).setPhase .sec ⟨0, 0⟩ .waiting, ⟨by decide +kernel, by decide +kernel, by decide +kernel, by decide +kernel, by decide +kernel, by decide +kernel, by decide +kernel, by decide +kernel, by decide +kernel, by decide +kernel, by decide +kernel, by first | with_reducible rfl | decide +kernel⟩⟩⟩

theorem witness_JigSessionsThroughTheIslandRing_13 :
  (∃ (s : State) (type : Nat) (a : Nat × DescRef) (x : JigSlot) (st : Nat) (t u w : State), ((s.jig.acts.find? fun (a : Nat × DescRef) => a.1 == type) = some a) ∧ (type ≠ 1) ∧ (s.auditRoom = true) ∧ (x = s.slotOf type) ∧ (st = if s.imageOk type then St.success else St.digestMismatch) ∧ (t = s.setJig { s.jig with acts := s.jig.acts.filter (fun (b : Nat × DescRef) => b.1 != type) }) ∧ (u = ((if s.imageOk type then t.imageRuns type x (x.image x.len) else t.setSlot' type { x with st := 1 }).releaseImage type).raise Ev.jigActivate (some .jig) (some (type - 1)) [type, x.version, st]) ∧ (w = ((u.jigLast st).auditImage (u.ringOwner .sec a.2) (imagePayload type 6 st x.len x.version x.rollback (if s.imageOk type then x.meas else []))).finish .sec a.2 st 0 (if s.imageOk type then x.version else 0))) ∧
  (∃ (s : State) (type : Nat), (s.jig.acts.find? (fun (a : Nat × DescRef) => a.1 == type) = none ∨ type = 1 ∨ s.auditRoom = false)) ∧
  (∃ (s : State) (d : DescRef), (s.jig.acts = [(2, d)]) ∧ (s.auditRoom = true) ∧ (s.leaseU.lossDue = false)) :=
  ⟨⟨regs [(DDR_CFG.CAP_GIB, 16), (SEC_STATUS.IMAGES_OK, 1), (JIG_CFG.MGT_EN, 1)] { State.reset with now := 10 ^ 9, jig := { acts := [(2, ⟨0, 0⟩)] } }, 2, (2, ⟨0, 0⟩), {}, St.digestMismatch, ((regs [(DDR_CFG.CAP_GIB, 16), (SEC_STATUS.IMAGES_OK, 1), (JIG_CFG.MGT_EN, 1)] { State.reset with now := 10 ^ 9, jig := { acts := [(2, ⟨0, 0⟩)] } }).setJig {}), (((((((regs [(DDR_CFG.CAP_GIB, 16), (SEC_STATUS.IMAGES_OK, 1), (JIG_CFG.MGT_EN, 1)] { State.reset with now := 10 ^ 9, jig := { acts := [(2, ⟨0, 0⟩)] } }).setJig {}).setSlot' 2 { st := 1 }).releaseImage 2).raise Ev.jigActivate (some .jig) (some 1) [2, ({} : JigSlot).version, St.digestMismatch]))), (((((((regs [(DDR_CFG.CAP_GIB, 16), (SEC_STATUS.IMAGES_OK, 1), (JIG_CFG.MGT_EN, 1)] { State.reset with now := 10 ^ 9, jig := { acts := [(2, ⟨0, 0⟩)] } }).setJig {}).setSlot' 2 { st := 1 }).releaseImage 2).raise Ev.jigActivate (some .jig) (some 1) [2, ({} : JigSlot).version, St.digestMismatch]).jigLast St.digestMismatch).auditImage 0 (imagePayload 2 6 St.digestMismatch ({} : JigSlot).len ({} : JigSlot).version ({} : JigSlot).rollback [])).finish .sec ⟨0, 0⟩ St.digestMismatch 0 0, ⟨by decide +kernel, by decide +kernel, by decide +kernel, by decide +kernel, by decide +kernel, by first | with_reducible rfl | decide +kernel, by first | with_reducible rfl | decide +kernel, by first | with_reducible rfl | decide +kernel⟩⟩,
   ⟨regs [(DDR_CFG.CAP_GIB, 16), (SEC_STATUS.IMAGES_OK, 1), (JIG_CFG.MGT_EN, 1)] { State.reset with now := 10 ^ 9, jig := {  } }, 2, by decide +kernel⟩,
   ⟨regs [(DDR_CFG.CAP_GIB, 16), (SEC_STATUS.IMAGES_OK, 1), (JIG_CFG.MGT_EN, 1)] { State.reset with now := 10 ^ 9, jig := { acts := [(2, ⟨0, 0⟩)] } }, ⟨0, 0⟩, by decide +kernel⟩⟩

theorem witness_JigDatagramsOfTheManagementPort :
  (∃ (s : State) (p : List Byte) (rest : List (List Byte)), (s.mgt.jigIn = p :: rest) ∧ (s.jig.session = none) ∧ (jigGood p = false ∨ s.jigPortOn (fieldAt p 2 1) = false)) ∧
  (∃ (s : State), (s.mgt.jigIn = []) ∧ (s.jig.session = none)) ∧
  (∃ (s : State) (p : List Byte) (rest : List (List Byte)), (s.mgt.jigIn = p :: rest) ∧ (s.jig.session = none) ∧ (jigGood p = false ∨ s.jigPortOn (fieldAt p 2 1) = false)) ∧
  (∃ (s : State), (s.mgt.jigIn = []) ∧ (s.jig.session = none)) :=
  ⟨⟨regs [(DDR_CFG.CAP_GIB, 16), (SEC_STATUS.IMAGES_OK, 1), (JIG_CFG.MGT_EN, 1)] { State.reset with now := 10 ^ 9, jig := {  }, mgt := { jigIn := zeros 32 :: [] } }, zeros 32, [], by decide +kernel⟩,
   ⟨regs [(DDR_CFG.CAP_GIB, 16), (SEC_STATUS.IMAGES_OK, 1), (JIG_CFG.MGT_EN, 1)] { State.reset with now := 10 ^ 9, jig := {  } }, by decide +kernel⟩,
   ⟨regs [(DDR_CFG.CAP_GIB, 16), (SEC_STATUS.IMAGES_OK, 1), (JIG_CFG.MGT_EN, 1)] { State.reset with now := 10 ^ 9, jig := {  }, mgt := { jigIn := zeros 32 :: [] } }, zeros 32, [], by decide +kernel⟩,
   ⟨regs [(DDR_CFG.CAP_GIB, 16), (SEC_STATUS.IMAGES_OK, 1), (JIG_CFG.MGT_EN, 1)] { State.reset with now := 10 ^ 9, jig := {  } }, by decide +kernel⟩⟩

theorem witness_JigDatagramsOfTheManagementPort_2 :
  (∃ (s : State) (p : List Byte) (rest : List (List Byte)), (s.mgt.jigIn = p :: rest) ∧ (s.jig.session = none) ∧ (jigGood p = false ∨ s.jigPortOn (fieldAt p 2 1) = false)) ∧
  (∃ (s : State), (s.mgt.jigIn = []) ∧ (s.jig.session = none)) ∧
  (∃ (s : State) (p : List Byte) (rest : List (List Byte)), (s.mgt.jigIn = p :: rest) ∧ (s.jig.session = none) ∧ (jigGood p = false ∨ s.jigPortOn (fieldAt p 2 1) = false)) ∧
  (∃ (s : State), (s.mgt.jigIn = []) ∧ (s.jig.session = none)) :=
  ⟨⟨regs [(DDR_CFG.CAP_GIB, 16), (SEC_STATUS.IMAGES_OK, 1), (JIG_CFG.MGT_EN, 1)] { State.reset with now := 10 ^ 9, jig := {  }, mgt := { jigIn := zeros 32 :: [] } }, zeros 32, [], by decide +kernel⟩,
   ⟨regs [(DDR_CFG.CAP_GIB, 16), (SEC_STATUS.IMAGES_OK, 1), (JIG_CFG.MGT_EN, 1)] { State.reset with now := 10 ^ 9, jig := {  } }, by decide +kernel⟩,
   ⟨regs [(DDR_CFG.CAP_GIB, 16), (SEC_STATUS.IMAGES_OK, 1), (JIG_CFG.MGT_EN, 1)] { State.reset with now := 10 ^ 9, jig := {  }, mgt := { jigIn := zeros 32 :: [] } }, zeros 32, [], by decide +kernel⟩,
   ⟨regs [(DDR_CFG.CAP_GIB, 16), (SEC_STATUS.IMAGES_OK, 1), (JIG_CFG.MGT_EN, 1)] { State.reset with now := 10 ^ 9, jig := {  } }, by decide +kernel⟩⟩

theorem witness_JigDatagramsOfTheManagementPort_3 :
  (∃ (s : State) (p : List Byte) (rest : List (List Byte)), (s.mgt.jigIn = p :: rest) ∧ (s.jig.session = none) ∧ (jigGood p = false ∨ s.jigPortOn (fieldAt p 2 1) = false)) ∧
  (∃ (s : State), (s.mgt.jigIn = []) ∧ (s.jig.session = none)) ∧
  (∃ (s : State) (p : List Byte) (rest : List (List Byte)), (s.mgt.jigIn = p :: rest) ∧ (jigGood p = true) ∧ (s.jigPortOn (fieldAt p 2 1) = true) ∧ (fieldAt p 2 1 ≠ 1)) ∧
  (∃ (s : State) (p : List Byte) (rest : List (List Byte)), (s.mgt.jigIn = p :: rest) ∧ (jigGood p = true) ∧ (s.jigPortOn (fieldAt p 2 1) = true) ∧ (fieldAt p 2 1 ≠ 2)) :=
  ⟨⟨regs [(DDR_CFG.CAP_GIB, 16), (SEC_STATUS.IMAGES_OK, 1), (JIG_CFG.MGT_EN, 1)] { State.reset with now := 10 ^ 9, jig := {  }, mgt := { jigIn := zeros 32 :: [] } }, zeros 32, [], by decide +kernel⟩,
   ⟨regs [(DDR_CFG.CAP_GIB, 16), (SEC_STATUS.IMAGES_OK, 1), (JIG_CFG.MGT_EN, 1)] { State.reset with now := 10 ^ 9, jig := {  } }, by decide +kernel⟩,
   ⟨regs [(DDR_CFG.CAP_GIB, 16), (SEC_STATUS.IMAGES_OK, 1), (JIG_CFG.MGT_EN, 1)] { State.reset with now := 10 ^ 9, jig := {  }, mgt := { jigIn := dgram [(2, 1, 2)] ([]) :: [] } }, dgram [(2, 1, 2)] ([]), [], by decide +kernel⟩,
   ⟨regs [(DDR_CFG.CAP_GIB, 16), (SEC_STATUS.IMAGES_OK, 1), (JIG_CFG.MGT_EN, 1)] { State.reset with now := 10 ^ 9, jig := {  }, mgt := { jigIn := dgram [(2, 1, 1)] ([]) :: [] } }, dgram [(2, 1, 1)] ([]), [], by decide +kernel⟩⟩

theorem witness_JigDatagramsOfTheManagementPort_4 :
  (∃ (s : State) (p : List Byte) (rest : List (List Byte)), (s.mgt.jigIn = p :: rest) ∧ (jigGood p = true) ∧ (s.jigPortOn (fieldAt p 2 1) = true) ∧ (fieldAt p 2 1 ≠ 3)) ∧
  (∃ (s : State) (p : List Byte) (rest : List (List Byte)), (s.mgt.jigIn = p :: rest) ∧ (jigGood p = true) ∧ (s.jigPortOn (fieldAt p 2 1) = true) ∧ (fieldAt p 2 1 ≠ 4)) ∧
  (∃ (s : State) (p : List Byte) (rest : List (List Byte)), (s.mgt.jigIn = p :: rest) ∧ (jigGood p = true) ∧ (s.jigPortOn (fieldAt p 2 1) = true) ∧ (fieldAt p 2 1 ≠ 5)) ∧
  (∃ (s : State) (p : List Byte) (rest : List (List Byte)), (s.mgt.jigIn = p :: rest) ∧ (jigGood p = true) ∧ (s.jigPortOn 1 = true) ∧ (fieldAt p 2 1 = 1) ∧ (s.jig.session = none) ∧ (s.auditRoom = false) ∧ (s.jig.recovery = false)) :=
  ⟨⟨regs [(DDR_CFG.CAP_GIB, 16), (SEC_STATUS.IMAGES_OK, 1), (JIG_CFG.MGT_EN, 1)] { State.reset with now := 10 ^ 9, jig := {  }, mgt := { jigIn := dgram [(2, 1, 1)] ([]) :: [] } }, dgram [(2, 1, 1)] ([]), [], by decide +kernel⟩,
   ⟨regs [(DDR_CFG.CAP_GIB, 16), (SEC_STATUS.IMAGES_OK, 1), (JIG_CFG.MGT_EN, 1)] { State.reset with now := 10 ^ 9, jig := {  }, mgt := { jigIn := dgram [(2, 1, 1)] ([]) :: [] } }, dgram [(2, 1, 1)] ([]), [], by decide +kernel⟩,
   ⟨regs [(DDR_CFG.CAP_GIB, 16), (SEC_STATUS.IMAGES_OK, 1), (JIG_CFG.MGT_EN, 1)] { State.reset with now := 10 ^ 9, jig := {  }, mgt := { jigIn := dgram [(2, 1, 1)] ([]) :: [] } }, dgram [(2, 1, 1)] ([]), [], by decide +kernel⟩,
   ⟨regs [(DDR_CFG.CAP_GIB, 16), (SEC_STATUS.IMAGES_OK, 1), (JIG_CFG.MGT_EN, 1)] { State.reset with now := 10 ^ 9, jig := {  }, mgt := { jigIn := dgram [(2, 1, 1)] ([]) :: [] }, aud := { State.reset.aud with staged := List.replicate 512 ⟨0, 0, 0, 0, 0, 0, 0, 0, 0, []⟩ } }, dgram [(2, 1, 1)] ([]), [], by decide +kernel⟩⟩

theorem witness_JigDatagramsOfTheManagementPort_5 :
  (∃ (s : State) (p : List Byte) (rest : List (List Byte)), (s.mgt.jigIn = p :: rest) ∧ (jigGood p = true) ∧ (s.jigPortOn 3 = true) ∧ (fieldAt p 2 1 = 3) ∧ (s.jig.session = none) ∧ (s.auditRoom = false) ∧ (s.jig.recovery = false)) ∧
  (∃ (s : State) (p : List Byte) (rest : List (List Byte)), (s.mgt.jigIn = p :: rest) ∧ (jigGood p = true) ∧ (s.jigPortOn 4 = true) ∧ (fieldAt p 2 1 = 4) ∧ (s.jig.session = none) ∧ (s.auditRoom = false) ∧ (s.jig.recovery = false)) ∧
  (∃ (s : State) (p : List Byte) (rest : List (List Byte)) (u : State), (s.mgt.jigIn = p :: rest) ∧ (jigGood p = true) ∧ (fieldAt p 2 1 = 1) ∧ (s.jigPortOn 1 = true) ∧ (s.auditRoom = true ∨ s.jig.recovery = true) ∧ (u = ({ s with mgt := { s.mgt with jigIn := rest } } : State))) ∧
  (∃ (s : State) (p : List Byte) (rest : List (List Byte)) (u : State), (s.mgt.jigIn = p :: rest) ∧ (jigGood p = true) ∧ (fieldAt p 2 1 = 2) ∧ (s.jigPortOn 2 = true) ∧ (u = ({ s with mgt := { s.mgt with jigIn := rest } } : State)) ∧ (s.jig.session = none)) :=
  ⟨⟨regs [(DDR_CFG.CAP_GIB, 16), (SEC_STATUS.IMAGES_OK, 1), (JIG_CFG.MGT_EN, 1)] { State.reset with now := 10 ^ 9, jig := {  }, mgt := { jigIn := dgram [(2, 1, 3)] ([]) :: [] }, aud := { State.reset.aud with staged := List.replicate 512 ⟨0, 0, 0, 0, 0, 0, 0, 0, 0, []⟩ } }, dgram [(2, 1, 3)] ([]), [], by decide +kernel⟩,
   ⟨regs [(DDR_CFG.CAP_GIB, 16), (SEC_STATUS.IMAGES_OK, 1), (JIG_CFG.MGT_EN, 1)] { State.reset with now := 10 ^ 9, jig := {  }, mgt := { jigIn := dgram [(2, 1, 4)] ([]) :: [] }, aud := { State.reset.aud with staged := List.replicate 512 ⟨0, 0, 0, 0, 0, 0, 0, 0, 0, []⟩ } }, dgram [(2, 1, 4)] ([]), [], by decide +kernel⟩,
   ⟨regs [(DDR_CFG.CAP_GIB, 16), (SEC_STATUS.IMAGES_OK, 1), (JIG_CFG.MGT_EN, 1)] { State.reset with now := 10 ^ 9, jig := {  }, mgt := { jigIn := dgram [(2, 1, 1), (3, 1, 2), (12, 4, 8192)] ([]) :: [] } }, dgram [(2, 1, 1), (3, 1, 2), (12, 4, 8192)] ([]), [], ({ (regs [(DDR_CFG.CAP_GIB, 16), (SEC_STATUS.IMAGES_OK, 1), (JIG_CFG.MGT_EN, 1)] { State.reset with now := 10 ^ 9, jig := {  }, mgt := { jigIn := dgram [(2, 1, 1), (3, 1, 2), (12, 4, 8192)] ([]) :: [] } }) with mgt := { jigIn := [] } } : State), ⟨by decide +kernel, by decide +kernel, by decide +kernel, by decide +kernel, by decide +kernel, by first | with_reducible rfl | decide +kernel⟩⟩,
   ⟨regs [(DDR_CFG.CAP_GIB, 16), (SEC_STATUS.IMAGES_OK, 1), (JIG_CFG.MGT_EN, 1)] { State.reset with now := 10 ^ 9, jig := {  }, mgt := { jigIn := dgram [(2, 1, 2), (4, 4, 77)] ([]) :: [] } }, dgram [(2, 1, 2), (4, 4, 77)] ([]), [], ({ (regs [(DDR_CFG.CAP_GIB, 16), (SEC_STATUS.IMAGES_OK, 1), (JIG_CFG.MGT_EN, 1)] { State.reset with now := 10 ^ 9, jig := {  }, mgt := { jigIn := dgram [(2, 1, 2), (4, 4, 77)] ([]) :: [] } }) with mgt := { jigIn := [] } } : State), ⟨by decide +kernel, by decide +kernel, by decide +kernel, by decide +kernel, by first | with_reducible rfl | decide +kernel, by decide +kernel⟩⟩⟩

theorem witness_JigDatagramsOfTheManagementPort_6 :
  (∃ (s : State) (p : List Byte) (rest : List (List Byte)) (u : State), (s.mgt.jigIn = p :: rest) ∧ (jigGood p = true) ∧ (fieldAt p 2 1 = 3) ∧ (s.jigPortOn 3 = true) ∧ (s.auditRoom = true ∨ s.jig.recovery = true) ∧ (u = ({ s with mgt := { s.mgt with jigIn := rest } } : State)) ∧ (s.jig.session = none)) ∧
  (∃ (s : State) (p : List Byte) (rest : List (List Byte)) (u : State), (s.mgt.jigIn = p :: rest) ∧ (jigGood p = true) ∧ (fieldAt p 2 1 = 4) ∧ (s.jigPortOn 4 = true) ∧ (s.auditRoom = true ∨ s.jig.recovery = true) ∧ (u = ({ s with mgt := { s.mgt with jigIn := rest } } : State)) ∧ (s.jig.session = none)) ∧
  (∃ (s : State) (p : List Byte) (rest : List (List Byte)) (u : State), (s.mgt.jigIn = p :: rest) ∧ (jigGood p = true) ∧ (fieldAt p 2 1 = 5) ∧ (s.jigPortOn 5 = true) ∧ (u = ({ s with mgt := { s.mgt with jigIn := rest } } : State)) ∧ (u.portSession (p.take 32) = none)) ∧
  (∃ (s : State) (p : List Byte) (rest : List (List Byte)) (u : State) (x : JigSession), (s.mgt.jigIn = p :: rest) ∧ (jigGood p = true) ∧ (fieldAt p 2 1 = 5) ∧ (s.jigPortOn 5 = true) ∧ (u = ({ s with mgt := { s.mgt with jigIn := rest } } : State)) ∧ (u.portSession (p.take 32) = some x)) :=
  ⟨⟨regs [(DDR_CFG.CAP_GIB, 16), (SEC_STATUS.IMAGES_OK, 1), (JIG_CFG.MGT_EN, 1)] { State.reset with now := 10 ^ 9, jig := {  }, mgt := { jigIn := dgram [(2, 1, 3), (4, 4, 77)] ([]) :: [] } }, dgram [(2, 1, 3), (4, 4, 77)] ([]), [], ({ (regs [(DDR_CFG.CAP_GIB, 16), (SEC_STATUS.IMAGES_OK, 1), (JIG_CFG.MGT_EN, 1)] { State.reset with now := 10 ^ 9, jig := {  }, mgt := { jigIn := dgram [(2, 1, 3), (4, 4, 77)] ([]) :: [] } }) with mgt := { jigIn := [] } } : State), ⟨by decide +kernel, by decide +kernel, by decide +kernel, by decide +kernel, by decide +kernel, by first | with_reducible rfl | decide +kernel, by decide +kernel⟩⟩,
   ⟨regs [(DDR_CFG.CAP_GIB, 16), (SEC_STATUS.IMAGES_OK, 1), (JIG_CFG.MGT_EN, 1)] { State.reset with now := 10 ^ 9, jig := {  }, mgt := { jigIn := dgram [(2, 1, 4), (4, 4, 77)] ([]) :: [] } }, dgram [(2, 1, 4), (4, 4, 77)] ([]), [], ({ (regs [(DDR_CFG.CAP_GIB, 16), (SEC_STATUS.IMAGES_OK, 1), (JIG_CFG.MGT_EN, 1)] { State.reset with now := 10 ^ 9, jig := {  }, mgt := { jigIn := dgram [(2, 1, 4), (4, 4, 77)] ([]) :: [] } }) with mgt := { jigIn := [] } } : State), ⟨by decide +kernel, by decide +kernel, by decide +kernel, by decide +kernel, by decide +kernel, by first | with_reducible rfl | decide +kernel, by decide +kernel⟩⟩,
   ⟨regs [(DDR_CFG.CAP_GIB, 16), (SEC_STATUS.IMAGES_OK, 1), (JIG_CFG.MGT_EN, 1)] { State.reset with now := 10 ^ 9, jig := { session := some { id := 77, type := 2, len := 4, owner := 0x05FF, idleBy := 10 ^ 12 } }, mgt := { jigIn := dgram [(2, 1, 5), (4, 4, 78)] ([]) :: [] } }, dgram [(2, 1, 5), (4, 4, 78)] ([]), [], ({ (regs [(DDR_CFG.CAP_GIB, 16), (SEC_STATUS.IMAGES_OK, 1), (JIG_CFG.MGT_EN, 1)] { State.reset with now := 10 ^ 9, jig := { session := some { id := 77, type := 2, len := 4, owner := 0x05FF, idleBy := 10 ^ 12 } }, mgt := { jigIn := dgram [(2, 1, 5), (4, 4, 78)] ([]) :: [] } }) with mgt := { jigIn := [] } } : State), ⟨by decide +kernel, by decide +kernel, by decide +kernel, by decide +kernel, by first | with_reducible rfl | decide +kernel, by decide +kernel⟩⟩,
   ⟨regs [(DDR_CFG.CAP_GIB, 16), (SEC_STATUS.IMAGES_OK, 1), (JIG_CFG.MGT_EN, 1)] { State.reset with now := 10 ^ 9, jig := { session := some { id := 77, type := 2, len := 4, owner := 0x05FF, got := [0], idleBy := 10 ^ 12 } }, mgt := { jigIn := dgram [(2, 1, 5), (4, 4, 77)] ([]) :: [] } }, dgram [(2, 1, 5), (4, 4, 77)] ([]), [], ({ (regs [(DDR_CFG.CAP_GIB, 16), (SEC_STATUS.IMAGES_OK, 1), (JIG_CFG.MGT_EN, 1)] { State.reset with now := 10 ^ 9, jig := { session := some { id := 77, type := 2, len := 4, owner := 0x05FF, got := [0], idleBy := 10 ^ 12 } }, mgt := { jigIn := dgram [(2, 1, 5), (4, 4, 77)] ([]) :: [] } }) with mgt := { jigIn := [] } } : State), { id := 77, type := 2, len := 4, owner := 0x05FF, got := [0], idleBy := 10 ^ 12 }, ⟨by decide +kernel, by decide +kernel, by decide +kernel, by decide +kernel, by first | with_reducible rfl | decide +kernel, by decide +kernel⟩⟩⟩

theorem witness_JigDatagramsOfTheManagementPort_7 :
  (∃ (s : State) (p : List Byte) (rest : List (List Byte)) (u : State) (x : JigSession), (s.mgt.jigIn = p :: rest) ∧ (jigGood p = true) ∧ (fieldAt p 2 1 = 2) ∧ (s.jigPortOn 2 = true) ∧ (u = ({ s with mgt := { s.mgt with jigIn := rest } } : State)) ∧ (u.portSession (p.take 32) = some x) ∧ (fieldAt (p.take 32) 18 2 = (p.drop 32).length) ∧ (segOk (fieldAt (p.take 32) 12 4) (fieldAt (p.take 32) 16 2) (p.drop 32).length = true) ∧ (s.jig.parts = none) ∧ (1 < (fieldAt (p.take 32) 12 4 + 1023) / 1024)) ∧
  (∃ (s : State) (p : List Byte) (rest : List (List Byte)) (u : State) (x : JigSession), (s.mgt.jigIn = p :: rest) ∧ (jigGood p = true) ∧ (fieldAt p 2 1 = 2) ∧ (s.jigPortOn 2 = true) ∧ (u = ({ s with mgt := { s.mgt with jigIn := rest } } : State)) ∧ (u.portSession (p.take 32) = some x) ∧ (fieldAt (p.take 32) 18 2 = (p.drop 32).length) ∧ (segOk (fieldAt (p.take 32) 12 4) (fieldAt (p.take 32) 16 2) (p.drop 32).length = true) ∧ (s.jig.parts = none) ∧ (fieldAt (p.take 32) 12 4 ≤ 1024) ∧ (blockFault x (fieldAt (p.take 32) 8 4) (fieldAt (p.take 32) 12 4) = St.success)) ∧
  (∃ (s : State) (p : List Byte) (rest : List (List Byte)) (u : State) (x : JigSession), (s.mgt.jigIn = p :: rest) ∧ (jigGood p = true) ∧ (fieldAt p 2 1 = 2) ∧ (s.jigPortOn 2 = true) ∧ (u = ({ s with mgt := { s.mgt with jigIn := rest } } : State)) ∧ (u.portSession (p.take 32) = some x) ∧ (fieldAt (p.take 32) 18 2 ≠ (p.drop 32).length ∨ segOk (fieldAt (p.take 32) 12 4) (fieldAt (p.take 32) 16 2) (p.drop 32).length = false)) ∧
  (∃ (s : State) (p : List Byte) (rest : List (List Byte)) (u : State) (x y : JigSession) (t : State) (old ps : Tab (List Byte)), (s.mgt.jigIn = p :: rest) ∧ (jigGood p = true) ∧ (fieldAt p 2 1 = 2) ∧ (s.jigPortOn 2 = true) ∧ (u = ({ s with mgt := { s.mgt with jigIn := rest } } : State)) ∧ (u.portSession (p.take 32) = some x) ∧ (fieldAt (p.take 32) 18 2 = (p.drop 32).length) ∧ (segOk (fieldAt (p.take 32) 12 4) (fieldAt (p.take 32) 16 2) (p.drop 32).length = true) ∧ (t = u.jigTouch x) ∧ (t.jig.session = some y) ∧ (old = (match t.jig.parts with | some (o, l) => if o = fieldAt (p.take 32) 8 4 then l else [] | none => [])) ∧ (ps = (if (Tab.get? old (fieldAt (p.take 32) 16 2)).isSome then old else Tab.set old (fieldAt (p.take 32) 16 2) (p.drop 32))) ∧ (ps.length < (fieldAt (p.take 32) 12 4 + 1023) / 1024)) :=
  ⟨⟨regs [(DDR_CFG.CAP_GIB, 16), (SEC_STATUS.IMAGES_OK, 1), (JIG_CFG.MGT_EN, 1)] { State.reset with now := 10 ^ 9, jig := { session := some { id := 77, type := 2, len := 4, owner := 0x05FF, idleBy := 10 ^ 12 } }, mgt := { jigIn := dgram [(2, 1, 2), (4, 4, 77), (12, 4, 1025), (16, 2, 1), (18, 2, 1)] (zeros 1) :: [] } }, dgram [(2, 1, 2), (4, 4, 77), (12, 4, 1025), (16, 2, 1), (18, 2, 1)] (zeros 1), [], ({ (regs [(DDR_CFG.CAP_GIB, 16), (SEC_STATUS.IMAGES_OK, 1), (JIG_CFG.MGT_EN, 1)] { State.reset with now := 10 ^ 9, jig := { session := some { id := 77, type := 2, len := 4, owner := 0x05FF, idleBy := 10 ^ 12 } }, mgt := { jigIn := dgram [(2, 1, 2), (4, 4, 77), (12, 4, 1025), (16, 2, 1), (18, 2, 1)] (zeros 1) :: [] } }) with mgt := { jigIn := [] } } : State), { id := 77, type := 2, len := 4, owner := 0x05FF, idleBy := 10 ^ 12 }, ⟨by decide +kernel, by decide +kernel, by decide +kernel, by decide +kernel, by first | with_reducible rfl | decide +kernel, by decide +kernel, by decide +kernel, by decide +kernel, by decide +kernel, by decide +kernel⟩⟩,
   ⟨regs [(DDR_CFG.CAP_GIB, 16), (SEC_STATUS.IMAGES_OK, 1), (JIG_CFG.MGT_EN, 1)] { State.reset with now := 10 ^ 9, jig := { session := some { id := 77, type := 2, len := 4, owner := 0x05FF, idleBy := 10 ^ 12 } }, mgt := { jigIn := dgram [(2, 1, 2), (4, 4, 77), (12, 4, 4), (16, 2, 0), (18, 2, 4)] (zeros 4) :: [] } }, dgram [(2, 1, 2), (4, 4, 77), (12, 4, 4), (16, 2, 0), (18, 2, 4)] (zeros 4), [], ({ (regs [(DDR_CFG.CAP_GIB, 16), (SEC_STATUS.IMAGES_OK, 1), (JIG_CFG.MGT_EN, 1)] { State.reset with now := 10 ^ 9, jig := { session := some { id := 77, type := 2, len := 4, owner := 0x05FF, idleBy := 10 ^ 12 } }, mgt := { jigIn := dgram [(2, 1, 2), (4, 4, 77), (12, 4, 4), (16, 2, 0), (18, 2, 4)] (zeros 4) :: [] } }) with mgt := { jigIn := [] } } : State), { id := 77, type := 2, len := 4, owner := 0x05FF, idleBy := 10 ^ 12 }, ⟨by decide +kernel, by decide +kernel, by decide +kernel, by decide +kernel, by first | with_reducible rfl | decide +kernel, by decide +kernel, by decide +kernel, by decide +kernel, by decide +kernel, by decide +kernel, by decide +kernel⟩⟩,
   ⟨regs [(DDR_CFG.CAP_GIB, 16), (SEC_STATUS.IMAGES_OK, 1), (JIG_CFG.MGT_EN, 1)] { State.reset with now := 10 ^ 9, jig := { session := some { id := 77, type := 2, len := 4, owner := 0x05FF, idleBy := 10 ^ 12 } }, mgt := { jigIn := dgram [(2, 1, 2), (4, 4, 77), (12, 4, 4), (16, 2, 0), (18, 2, 3)] (zeros 3) :: [] } }, dgram [(2, 1, 2), (4, 4, 77), (12, 4, 4), (16, 2, 0), (18, 2, 3)] (zeros 3), [], ({ (regs [(DDR_CFG.CAP_GIB, 16), (SEC_STATUS.IMAGES_OK, 1), (JIG_CFG.MGT_EN, 1)] { State.reset with now := 10 ^ 9, jig := { session := some { id := 77, type := 2, len := 4, owner := 0x05FF, idleBy := 10 ^ 12 } }, mgt := { jigIn := dgram [(2, 1, 2), (4, 4, 77), (12, 4, 4), (16, 2, 0), (18, 2, 3)] (zeros 3) :: [] } }) with mgt := { jigIn := [] } } : State), { id := 77, type := 2, len := 4, owner := 0x05FF, idleBy := 10 ^ 12 }, ⟨by decide +kernel, by decide +kernel, by decide +kernel, by decide +kernel, by first | with_reducible rfl | decide +kernel, by decide +kernel, by decide +kernel⟩⟩,
   ⟨regs [(DDR_CFG.CAP_GIB, 16), (SEC_STATUS.IMAGES_OK, 1), (JIG_CFG.MGT_EN, 1)] { State.reset with now := 10 ^ 9, jig := { session := some { id := 77, type := 2, len := 4, owner := 0x05FF, idleBy := 10 ^ 12 } }, mgt := { jigIn := dgram [(2, 1, 2), (4, 4, 77), (8, 4, 0), (12, 4, 1025), (16, 2, 1), (18, 2, 1)] (zeros 1) :: [] } }, dgram [(2, 1, 2), (4, 4, 77), (8, 4, 0), (12, 4, 1025), (16, 2, 1), (18, 2, 1)] (zeros 1), [], ({ (regs [(DDR_CFG.CAP_GIB, 16), (SEC_STATUS.IMAGES_OK, 1), (JIG_CFG.MGT_EN, 1)] { State.reset with now := 10 ^ 9, jig := { session := some { id := 77, type := 2, len := 4, owner := 0x05FF, idleBy := 10 ^ 12 } }, mgt := { jigIn := dgram [(2, 1, 2), (4, 4, 77), (8, 4, 0), (12, 4, 1025), (16, 2, 1), (18, 2, 1)] (zeros 1) :: [] } }) with mgt := { jigIn := [] } } : State), { id := 77, type := 2, len := 4, owner := 0x05FF, idleBy := 10 ^ 12 }, (((({ (regs [(DDR_CFG.CAP_GIB, 16), (SEC_STATUS.IMAGES_OK, 1), (JIG_CFG.MGT_EN, 1)] { State.reset with now := 10 ^ 9, jig := { session := some { id := 77, type := 2, len := 4, owner := 0x05FF, idleBy := 10 ^ 12 } }, mgt := { jigIn := dgram [(2, 1, 2), (4, 4, 77), (8, 4, 0), (12, 4, 1025), (16, 2, 1), (18, 2, 1)] (zeros 1) :: [] } }) with mgt := { jigIn := [] } } : State)).jigTouch { id := 77, type := 2, len := 4, owner := 0x05FF, idleBy := 10 ^ 12 }).jig.session.getD { id := 77, type := 2, len := 4, owner := 0x05FF, idleBy := 10 ^ 12 }), ((({ (regs [(DDR_CFG.CAP_GIB, 16), (SEC_STATUS.IMAGES_OK, 1), (JIG_CFG.MGT_EN, 1)] { State.reset with now := 10 ^ 9, jig := { session := some { id := 77, type := 2, len := 4, owner := 0x05FF, idleBy := 10 ^ 12 } }, mgt := { jigIn := dgram [(2, 1, 2), (4, 4, 77), (8, 4, 0), (12, 4, 1025), (16, 2, 1), (18, 2, 1)] (zeros 1) :: [] } }) with mgt := { jigIn := [] } } : State)).jigTouch { id := 77, type := 2, len := 4, owner := 0x05FF, idleBy := 10 ^ 12 }), [], [(1, zeros 1)], ⟨by decide +kernel, by decide +kernel, by decide +kernel, by decide +kernel, by first | with_reducible rfl | decide +kernel, by decide +kernel, by decide +kernel, by decide +kernel, by first | with_reducible rfl | decide +kernel, by decide +kernel, by decide +kernel, by decide +kernel, by decide +kernel⟩⟩⟩

theorem witness_JigDatagramsOfTheManagementPort_8 :
  (∃ (s : State) (p : List Byte) (rest : List (List Byte)) (u : State) (x y : JigSession) (t : State) (old ps : Tab (List Byte)) (v : State), (s.mgt.jigIn = p :: rest) ∧ (jigGood p = true) ∧ (fieldAt p 2 1 = 2) ∧ (s.jigPortOn 2 = true) ∧ (u = ({ s with mgt := { s.mgt with jigIn := rest } } : State)) ∧ (u.portSession (p.take 32) = some x) ∧ (fieldAt (p.take 32) 18 2 = (p.drop 32).length) ∧ (segOk (fieldAt (p.take 32) 12 4) (fieldAt (p.take 32) 16 2) (p.drop 32).length = true) ∧ (t = u.jigTouch x) ∧ (t.jig.session = some y) ∧ (old = (match t.jig.parts with | some (o, l) => if o = fieldAt (p.take 32) 8 4 then l else [] | none => [])) ∧ (ps = (if (Tab.get? old (fieldAt (p.take 32) 16 2)).isSome then old else Tab.set old (fieldAt (p.take 32) 16 2) (p.drop 32))) ∧ ((fieldAt (p.take 32) 12 4 + 1023) / 1024 ≤ ps.length) ∧ (v = t.setJig { t.jig with parts := none }) ∧ (blockFault y (fieldAt (p.take 32) 8 4) (fieldAt (p.take 32) 12 4) ≠ St.success)) ∧
  (∃ (s : State) (p : List Byte) (rest : List (List Byte)) (u : State) (x y : JigSession) (t : State) (old ps : Tab (List Byte)) (v : State), (s.mgt.jigIn = p :: rest) ∧ (jigGood p = true) ∧ (fieldAt p 2 1 = 2) ∧ (s.jigPortOn 2 = true) ∧ (u = ({ s with mgt := { s.mgt with jigIn := rest } } : State)) ∧ (u.portSession (p.take 32) = some x) ∧ (fieldAt (p.take 32) 18 2 = (p.drop 32).length) ∧ (segOk (fieldAt (p.take 32) 12 4) (fieldAt (p.take 32) 16 2) (p.drop 32).length = true) ∧ (t = u.jigTouch x) ∧ (t.jig.session = some y) ∧ (old = (match t.jig.parts with | some (o, l) => if o = fieldAt (p.take 32) 8 4 then l else [] | none => [])) ∧ (ps = (if (Tab.get? old (fieldAt (p.take 32) 16 2)).isSome then old else Tab.set old (fieldAt (p.take 32) 16 2) (p.drop 32))) ∧ ((fieldAt (p.take 32) 12 4 + 1023) / 1024 ≤ ps.length) ∧ (v = t.setJig { t.jig with parts := none }) ∧ (blockFault y (fieldAt (p.take 32) 8 4) (fieldAt (p.take 32) 12 4) = St.success)) ∧
  (∃ (s : State) (p : List Byte) (rest : List (List Byte)) (u : State) (x : JigSession) (v : State), (s.mgt.jigIn = p :: rest) ∧ (jigGood p = true) ∧ (fieldAt p 2 1 = 3) ∧ (s.jigPortOn 3 = true) ∧ (s.auditRoom = true ∨ s.jig.recovery = true) ∧ (u = ({ s with mgt := { s.mgt with jigIn := rest } } : State)) ∧ ((match s.jig.session with | some x => !x.queue.isEmpty | none => false) = false) ∧ (u.portSession (p.take 32) = some x) ∧ (v = (u.jigCommit x).2.2.jigReply (p.take 32) (fieldAt (p.take 32) 4 4) (u.jigCommit x).1 (u.jigCommit x).2.1)) ∧
  (∃ (s : State) (p : List Byte) (rest : List (List Byte)) (u : State), (s.mgt.jigIn = p :: rest) ∧ (jigGood p = true) ∧ (fieldAt p 2 1 = 3) ∧ (s.jigPortOn 3 = true) ∧ (s.auditRoom = true ∨ s.jig.recovery = true) ∧ (u = ({ s with mgt := { s.mgt with jigIn := rest } } : State)) ∧ ((match s.jig.session with | some x => !x.queue.isEmpty | none => false) = false) ∧ (u.portSession (p.take 32) = none)) :=
  ⟨⟨regs [(DDR_CFG.CAP_GIB, 16), (SEC_STATUS.IMAGES_OK, 1), (JIG_CFG.MGT_EN, 1)] { State.reset with now := 10 ^ 9, jig := { session := some { id := 77, type := 2, len := 4, owner := 0x05FF, idleBy := 10 ^ 12 } }, mgt := { jigIn := dgram [(2, 1, 2), (4, 4, 77), (8, 4, 0), (12, 4, 3), (16, 2, 0), (18, 2, 3)] (zeros 3) :: [] } }, dgram [(2, 1, 2), (4, 4, 77), (8, 4, 0), (12, 4, 3), (16, 2, 0), (18, 2, 3)] (zeros 3), [], ({ (regs [(DDR_CFG.CAP_GIB, 16), (SEC_STATUS.IMAGES_OK, 1), (JIG_CFG.MGT_EN, 1)] { State.reset with now := 10 ^ 9, jig := { session := some { id := 77, type := 2, len := 4, owner := 0x05FF, idleBy := 10 ^ 12 } }, mgt := { jigIn := dgram [(2, 1, 2), (4, 4, 77), (8, 4, 0), (12, 4, 3), (16, 2, 0), (18, 2, 3)] (zeros 3) :: [] } }) with mgt := { jigIn := [] } } : State), { id := 77, type := 2, len := 4, owner := 0x05FF, idleBy := 10 ^ 12 }, (((({ (regs [(DDR_CFG.CAP_GIB, 16), (SEC_STATUS.IMAGES_OK, 1), (JIG_CFG.MGT_EN, 1)] { State.reset with now := 10 ^ 9, jig := { session := some { id := 77, type := 2, len := 4, owner := 0x05FF, idleBy := 10 ^ 12 } }, mgt := { jigIn := dgram [(2, 1, 2), (4, 4, 77), (8, 4, 0), (12, 4, 3), (16, 2, 0), (18, 2, 3)] (zeros 3) :: [] } }) with mgt := { jigIn := [] } } : State)).jigTouch { id := 77, type := 2, len := 4, owner := 0x05FF, idleBy := 10 ^ 12 }).jig.session.getD { id := 77, type := 2, len := 4, owner := 0x05FF, idleBy := 10 ^ 12 }), ((({ (regs [(DDR_CFG.CAP_GIB, 16), (SEC_STATUS.IMAGES_OK, 1), (JIG_CFG.MGT_EN, 1)] { State.reset with now := 10 ^ 9, jig := { session := some { id := 77, type := 2, len := 4, owner := 0x05FF, idleBy := 10 ^ 12 } }, mgt := { jigIn := dgram [(2, 1, 2), (4, 4, 77), (8, 4, 0), (12, 4, 3), (16, 2, 0), (18, 2, 3)] (zeros 3) :: [] } }) with mgt := { jigIn := [] } } : State)).jigTouch { id := 77, type := 2, len := 4, owner := 0x05FF, idleBy := 10 ^ 12 }), [], [(0, zeros 3)], (((({ (regs [(DDR_CFG.CAP_GIB, 16), (SEC_STATUS.IMAGES_OK, 1), (JIG_CFG.MGT_EN, 1)] { State.reset with now := 10 ^ 9, jig := { session := some { id := 77, type := 2, len := 4, owner := 0x05FF, idleBy := 10 ^ 12 } }, mgt := { jigIn := dgram [(2, 1, 2), (4, 4, 77), (8, 4, 0), (12, 4, 3), (16, 2, 0), (18, 2, 3)] (zeros 3) :: [] } }) with mgt := { jigIn := [] } } : State)).jigTouch { id := 77, type := 2, len := 4, owner := 0x05FF, idleBy := 10 ^ 12 }).setJig { (((({ (regs [(DDR_CFG.CAP_GIB, 16), (SEC_STATUS.IMAGES_OK, 1), (JIG_CFG.MGT_EN, 1)] { State.reset with now := 10 ^ 9, jig := { session := some { id := 77, type := 2, len := 4, owner := 0x05FF, idleBy := 10 ^ 12 } }, mgt := { jigIn := dgram [(2, 1, 2), (4, 4, 77), (8, 4, 0), (12, 4, 3), (16, 2, 0), (18, 2, 3)] (zeros 3) :: [] } }) with mgt := { jigIn := [] } } : State)).jigTouch { id := 77, type := 2, len := 4, owner := 0x05FF, idleBy := 10 ^ 12 })).jig with parts := none }), ⟨by decide +kernel, by decide +kernel, by decide +kernel, by decide +kernel, by first | with_reducible rfl | decide +kernel, by decide +kernel, by decide +kernel, by decide +kernel, by first | with_reducible rfl | decide +kernel, by decide +kernel, by decide +kernel, by decide +kernel, by decide +kernel, by first | with_reducible rfl | decide +kernel, by decide +kernel⟩⟩,
   ⟨regs [(DDR_CFG.CAP_GIB, 16), (SEC_STATUS.IMAGES_OK, 1), (JIG_CFG.MGT_EN, 1)] { State.reset with now := 10 ^ 9, jig := { session := some { id := 77, type := 2, len := 4, owner := 0x05FF, idleBy := 10 ^ 12 } }, mgt := { jigIn := dgram [(2, 1, 2), (4, 4, 77), (8, 4, 0), (12, 4, 4), (16, 2, 0), (18, 2, 4)] (zeros 4) :: [] } }, dgram [(2, 1, 2), (4, 4, 77), (8, 4, 0), (12, 4, 4), (16, 2, 0), (18, 2, 4)] (zeros 4), [], ({ (regs [(DDR_CFG.CAP_GIB, 16), (SEC_STATUS.IMAGES_OK, 1), (JIG_CFG.MGT_EN, 1)] { State.reset with now := 10 ^ 9, jig := { session := some { id := 77, type := 2, len := 4, owner := 0x05FF, idleBy := 10 ^ 12 } }, mgt := { jigIn := dgram [(2, 1, 2), (4, 4, 77), (8, 4, 0), (12, 4, 4), (16, 2, 0), (18, 2, 4)] (zeros 4) :: [] } }) with mgt := { jigIn := [] } } : State), { id := 77, type := 2, len := 4, owner := 0x05FF, idleBy := 10 ^ 12 }, (((({ (regs [(DDR_CFG.CAP_GIB, 16), (SEC_STATUS.IMAGES_OK, 1), (JIG_CFG.MGT_EN, 1)] { State.reset with now := 10 ^ 9, jig := { session := some { id := 77, type := 2, len := 4, owner := 0x05FF, idleBy := 10 ^ 12 } }, mgt := { jigIn := dgram [(2, 1, 2), (4, 4, 77), (8, 4, 0), (12, 4, 4), (16, 2, 0), (18, 2, 4)] (zeros 4) :: [] } }) with mgt := { jigIn := [] } } : State)).jigTouch { id := 77, type := 2, len := 4, owner := 0x05FF, idleBy := 10 ^ 12 }).jig.session.getD { id := 77, type := 2, len := 4, owner := 0x05FF, idleBy := 10 ^ 12 }), ((({ (regs [(DDR_CFG.CAP_GIB, 16), (SEC_STATUS.IMAGES_OK, 1), (JIG_CFG.MGT_EN, 1)] { State.reset with now := 10 ^ 9, jig := { session := some { id := 77, type := 2, len := 4, owner := 0x05FF, idleBy := 10 ^ 12 } }, mgt := { jigIn := dgram [(2, 1, 2), (4, 4, 77), (8, 4, 0), (12, 4, 4), (16, 2, 0), (18, 2, 4)] (zeros 4) :: [] } }) with mgt := { jigIn := [] } } : State)).jigTouch { id := 77, type := 2, len := 4, owner := 0x05FF, idleBy := 10 ^ 12 }), [], [(0, zeros 4)], (((({ (regs [(DDR_CFG.CAP_GIB, 16), (SEC_STATUS.IMAGES_OK, 1), (JIG_CFG.MGT_EN, 1)] { State.reset with now := 10 ^ 9, jig := { session := some { id := 77, type := 2, len := 4, owner := 0x05FF, idleBy := 10 ^ 12 } }, mgt := { jigIn := dgram [(2, 1, 2), (4, 4, 77), (8, 4, 0), (12, 4, 4), (16, 2, 0), (18, 2, 4)] (zeros 4) :: [] } }) with mgt := { jigIn := [] } } : State)).jigTouch { id := 77, type := 2, len := 4, owner := 0x05FF, idleBy := 10 ^ 12 }).setJig { (((({ (regs [(DDR_CFG.CAP_GIB, 16), (SEC_STATUS.IMAGES_OK, 1), (JIG_CFG.MGT_EN, 1)] { State.reset with now := 10 ^ 9, jig := { session := some { id := 77, type := 2, len := 4, owner := 0x05FF, idleBy := 10 ^ 12 } }, mgt := { jigIn := dgram [(2, 1, 2), (4, 4, 77), (8, 4, 0), (12, 4, 4), (16, 2, 0), (18, 2, 4)] (zeros 4) :: [] } }) with mgt := { jigIn := [] } } : State)).jigTouch { id := 77, type := 2, len := 4, owner := 0x05FF, idleBy := 10 ^ 12 })).jig with parts := none }), ⟨by decide +kernel, by decide +kernel, by decide +kernel, by decide +kernel, by first | with_reducible rfl | decide +kernel, by decide +kernel, by decide +kernel, by decide +kernel, by first | with_reducible rfl | decide +kernel, by decide +kernel, by decide +kernel, by decide +kernel, by decide +kernel, by first | with_reducible rfl | decide +kernel, by decide +kernel⟩⟩,
   ⟨regs [(DDR_CFG.CAP_GIB, 16), (SEC_STATUS.IMAGES_OK, 1), (JIG_CFG.MGT_EN, 1)] { State.reset with now := 10 ^ 9, jig := { session := some { id := 77, type := 2, len := 4, owner := 0x05FF, idleBy := 10 ^ 12 } }, mgt := { jigIn := dgram [(2, 1, 3), (4, 4, 77)] ([]) :: [] } }, dgram [(2, 1, 3), (4, 4, 77)] ([]), [], ({ (regs [(DDR_CFG.CAP_GIB, 16), (SEC_STATUS.IMAGES_OK, 1), (JIG_CFG.MGT_EN, 1)] { State.reset with now := 10 ^ 9, jig := { session := some { id := 77, type := 2, len := 4, owner := 0x05FF, idleBy := 10 ^ 12 } }, mgt := { jigIn := dgram [(2, 1, 3), (4, 4, 77)] ([]) :: [] } }) with mgt := { jigIn := [] } } : State), { id := 77, type := 2, len := 4, owner := 0x05FF, idleBy := 10 ^ 12 }, ((({ (regs [(DDR_CFG.CAP_GIB, 16), (SEC_STATUS.IMAGES_OK, 1), (JIG_CFG.MGT_EN, 1)] { State.reset with now := 10 ^ 9, jig := { session := some { id := 77, type := 2, len := 4, owner := 0x05FF, idleBy := 10 ^ 12 } }, mgt := { jigIn := dgram [(2, 1, 3), (4, 4, 77)] ([]) :: [] } }) with mgt := { jigIn := [] } } : State)).jigCommit { id := 77, type := 2, len := 4, owner := 0x05FF, idleBy := 10 ^ 12 }).2.2.jigReply ((dgram [(2, 1, 3), (4, 4, 77)] ([])).take 32) 77 ((({ (regs [(DDR_CFG.CAP_GIB, 16), (SEC_STATUS.IMAGES_OK, 1), (JIG_CFG.MGT_EN, 1)] { State.reset with now := 10 ^ 9, jig := { session := some { id := 77, type := 2, len := 4, owner := 0x05FF, idleBy := 10 ^ 12 } }, mgt := { jigIn := dgram [(2, 1, 3), (4, 4, 77)] ([]) :: [] } }) with mgt := { jigIn := [] } } : State)).jigCommit { id := 77, type := 2, len := 4, owner := 0x05FF, idleBy := 10 ^ 12 }).1 ((({ (regs [(DDR_CFG.CAP_GIB, 16), (SEC_STATUS.IMAGES_OK, 1), (JIG_CFG.MGT_EN, 1)] { State.reset with now := 10 ^ 9, jig := { session := some { id := 77, type := 2, len := 4, owner := 0x05FF, idleBy := 10 ^ 12 } }, mgt := { jigIn := dgram [(2, 1, 3), (4, 4, 77)] ([]) :: [] } }) with mgt := { jigIn := [] } } : State)).jigCommit { id := 77, type := 2, len := 4, owner := 0x05FF, idleBy := 10 ^ 12 }).2.1, ⟨by decide +kernel, by decide +kernel, by decide +kernel, by decide +kernel, by decide +kernel, by first | with_reducible rfl | decide +kernel, by decide +kernel, by decide +kernel, by first | with_reducible rfl | decide +kernel⟩⟩,
   ⟨regs [(DDR_CFG.CAP_GIB, 16), (SEC_STATUS.IMAGES_OK, 1), (JIG_CFG.MGT_EN, 1)] { State.reset with now := 10 ^ 9, jig := { session := some { id := 77, type := 2, len := 4, owner := 0x05FF, idleBy := 10 ^ 12 } }, mgt := { jigIn := dgram [(2, 1, 3), (4, 4, 78)] ([]) :: [] } }, dgram [(2, 1, 3), (4, 4, 78)] ([]), [], ({ (regs [(DDR_CFG.CAP_GIB, 16), (SEC_STATUS.IMAGES_OK, 1), (JIG_CFG.MGT_EN, 1)] { State.reset with now := 10 ^ 9, jig := { session := some { id := 77, type := 2, len := 4, owner := 0x05FF, idleBy := 10 ^ 12 } }, mgt := { jigIn := dgram [(2, 1, 3), (4, 4, 78)] ([]) :: [] } }) with mgt := { jigIn := [] } } : State), ⟨by decide +kernel, by decide +kernel, by decide +kernel, by decide +kernel, by decide +kernel, by first | with_reducible rfl | decide +kernel, by decide +kernel, by decide +kernel⟩⟩⟩

theorem witness_JigDatagramsOfTheManagementPort_9 :
  (∃ (s : State) (p : List Byte) (rest : List (List Byte)) (u : State), (s.mgt.jigIn = p :: rest) ∧ (jigGood p = true) ∧ (fieldAt p 2 1 = 4) ∧ (s.jigPortOn 4 = true) ∧ (s.auditRoom = true ∨ s.jig.recovery = true) ∧ (u = ({ s with mgt := { s.mgt with jigIn := rest } } : State)) ∧ ((match s.jig.session with | some x => !x.queue.isEmpty | none => false) = false) ∧ (u.portSession (p.take 32) = none)) ∧
  (∃ (s : State) (p : List Byte) (rest : List (List Byte)) (u : State), (s.mgt.jigIn = p :: rest) ∧ (jigGood p = true) ∧ (fieldAt p 2 1 = 2) ∧ (s.jigPortOn 2 = true) ∧ (u = ({ s with mgt := { s.mgt with jigIn := rest } } : State)) ∧ (u.portSession (p.take 32) = none)) ∧
  (∃ (s : State) (x : JigSession), (s.jig.session = some x) ∧ (x.queue ≠ [])) ∧
  (∃ (s : State) (p : List Byte) (rest : List (List Byte)) (u : State) (x : JigSession), (s.mgt.jigIn = p :: rest) ∧ (jigGood p = true) ∧ (fieldAt p 2 1 = 3) ∧ (s.jigPortOn 3 = true) ∧ (s.auditRoom = true ∨ s.jig.recovery = true) ∧ (u = ({ s with mgt := { s.mgt with jigIn := rest } } : State)) ∧ (u.portSession (p.take 32) = some x) ∧ (x.queue = []) ∧ (s.jig.recovery = false)) :=
  ⟨⟨regs [(DDR_CFG.CAP_GIB, 16), (SEC_STATUS.IMAGES_OK, 1), (JIG_CFG.MGT_EN, 1)] { State.reset with now := 10 ^ 9, jig := { session := some { id := 77, type := 2, len := 4, owner := 0x05FF, idleBy := 10 ^ 12 } }, mgt := { jigIn := dgram [(2, 1, 4), (4, 4, 78)] ([]) :: [] } }, dgram [(2, 1, 4), (4, 4, 78)] ([]), [], ({ (regs [(DDR_CFG.CAP_GIB, 16), (SEC_STATUS.IMAGES_OK, 1), (JIG_CFG.MGT_EN, 1)] { State.reset with now := 10 ^ 9, jig := { session := some { id := 77, type := 2, len := 4, owner := 0x05FF, idleBy := 10 ^ 12 } }, mgt := { jigIn := dgram [(2, 1, 4), (4, 4, 78)] ([]) :: [] } }) with mgt := { jigIn := [] } } : State), ⟨by decide +kernel, by decide +kernel, by decide +kernel, by decide +kernel, by decide +kernel, by first | with_reducible rfl | decide +kernel, by decide +kernel, by decide +kernel⟩⟩,
   ⟨regs [(DDR_CFG.CAP_GIB, 16), (SEC_STATUS.IMAGES_OK, 1), (JIG_CFG.MGT_EN, 1)] { State.reset with now := 10 ^ 9, jig := { session := some { id := 77, type := 2, len := 4, owner := 0x05FF, idleBy := 10 ^ 12 } }, mgt := { jigIn := dgram [(2, 1, 2), (4, 4, 78)] ([]) :: [] } }, dgram [(2, 1, 2), (4, 4, 78)] ([]), [], ({ (regs [(DDR_CFG.CAP_GIB, 16), (SEC_STATUS.IMAGES_OK, 1), (JIG_CFG.MGT_EN, 1)] { State.reset with now := 10 ^ 9, jig := { session := some { id := 77, type := 2, len := 4, owner := 0x05FF, idleBy := 10 ^ 12 } }, mgt := { jigIn := dgram [(2, 1, 2), (4, 4, 78)] ([]) :: [] } }) with mgt := { jigIn := [] } } : State), ⟨by decide +kernel, by decide +kernel, by decide +kernel, by decide +kernel, by first | with_reducible rfl | decide +kernel, by decide +kernel⟩⟩,
   ⟨regs [(DDR_CFG.CAP_GIB, 16), (SEC_STATUS.IMAGES_OK, 1), (JIG_CFG.MGT_EN, 1)] { State.reset with now := 10 ^ 9, jig := { session := some { id := 77, type := 2, len := 100, owner := 0, queue := [⟨.desc ⟨0, 0⟩, 0, [1, 2]⟩], idleBy := 10 ^ 12 } } }, { id := 77, type := 2, len := 100, owner := 0, queue := [⟨.desc ⟨0, 0⟩, 0, [1, 2]⟩], idleBy := 10 ^ 12 }, by decide +kernel⟩,
   ⟨regs [(DDR_CFG.CAP_GIB, 16), (SEC_STATUS.IMAGES_OK, 1), (JIG_CFG.MGT_EN, 1)] { State.reset with now := 10 ^ 9, jig := { session := some { id := 77, type := 2, len := 4, owner := 0x05FF, idleBy := 10 ^ 12 } }, mgt := { jigIn := dgram [(2, 1, 3), (4, 4, 77)] ([]) :: [] } }, dgram [(2, 1, 3), (4, 4, 77)] ([]), [], ({ (regs [(DDR_CFG.CAP_GIB, 16), (SEC_STATUS.IMAGES_OK, 1), (JIG_CFG.MGT_EN, 1)] { State.reset with now := 10 ^ 9, jig := { session := some { id := 77, type := 2, len := 4, owner := 0x05FF, idleBy := 10 ^ 12 } }, mgt := { jigIn := dgram [(2, 1, 3), (4, 4, 77)] ([]) :: [] } }) with mgt := { jigIn := [] } } : State), { id := 77, type := 2, len := 4, owner := 0x05FF, idleBy := 10 ^ 12 }, ⟨by decide +kernel, by decide +kernel, by decide +kernel, by decide +kernel, by decide +kernel, by first | with_reducible rfl | decide +kernel, by decide +kernel, by decide +kernel, by decide +kernel⟩⟩⟩

theorem witness_JigDatagramsOfTheManagementPort_10 :
  (∃ (s : State) (p : List Byte) (rest : List (List Byte)) (u : State) (x : JigSession), (s.mgt.jigIn = p :: rest) ∧ (jigGood p = true) ∧ (fieldAt p 2 1 = 4) ∧ (s.jigPortOn 4 = true) ∧ (s.auditRoom = true ∨ s.jig.recovery = true) ∧ (u = ({ s with mgt := { s.mgt with jigIn := rest } } : State)) ∧ (u.portSession (p.take 32) = some x) ∧ (x.queue = [])) ∧
  (∃ (s : State) (p : List Byte) (rest : List (List Byte)) (x : JigSession), (s.mgt.jigIn = p :: rest) ∧ (jigGood p = true) ∧ (fieldAt p 2 1 = 4) ∧ (s.portSession p = some x) ∧ (s.jig.session = some x) ∧ (x.queue ≠ [])) :=
  ⟨⟨regs [(DDR_CFG.CAP_GIB, 16), (SEC_STATUS.IMAGES_OK, 1), (JIG_CFG.MGT_EN, 1)] { State.reset with now := 10 ^ 9, jig := { session := some { id := 77, type := 2, len := 4, owner := 0x05FF, idleBy := 10 ^ 12 } }, mgt := { jigIn := dgram [(2, 1, 4), (4, 4, 77)] ([]) :: [] } }, dgram [(2, 1, 4), (4, 4, 77)] ([]), [], ({ (regs [(DDR_CFG.CAP_GIB, 16), (SEC_STATUS.IMAGES_OK, 1), (JIG_CFG.MGT_EN, 1)] { State.reset with now := 10 ^ 9, jig := { session := some { id := 77, type := 2, len := 4, owner := 0x05FF, idleBy := 10 ^ 12 } }, mgt := { jigIn := dgram [(2, 1, 4), (4, 4, 77)] ([]) :: [] } }) with mgt := { jigIn := [] } } : State), { id := 77, type := 2, len := 4, owner := 0x05FF, idleBy := 10 ^ 12 }, ⟨by decide +kernel, by decide +kernel, by decide +kernel, by decide +kernel, by decide +kernel, by first | with_reducible rfl | decide +kernel, by decide +kernel, by decide +kernel⟩⟩,
   ⟨regs [(DDR_CFG.CAP_GIB, 16), (SEC_STATUS.IMAGES_OK, 1), (JIG_CFG.MGT_EN, 1)] { State.reset with now := 10 ^ 9, jig := { session := some { id := 77, type := 2, len := 4, owner := 0x05FF, queue := [⟨.desc ⟨0, 0⟩, 0, [1, 2]⟩], idleBy := 10 ^ 12 } }, mgt := { jigIn := dgram [(2, 1, 4), (4, 4, 77)] ([]) :: [] } }, dgram [(2, 1, 4), (4, 4, 77)] ([]), [], { id := 77, type := 2, len := 4, owner := 0x05FF, queue := [⟨.desc ⟨0, 0⟩, 0, [1, 2]⟩], idleBy := 10 ^ 12 }, by decide +kernel⟩⟩

theorem witness_RingRegisterWritesDiscarded :
  (∃ (s : State) (origin : Origin) (u : UnitId) (r x : Nat) (value : Word), (r < unitRings u) ∧ (x = 0 ∨ x = 8 ∨ x = 0x10) ∧ (s.ringSt u r ≠ Rst.disabled) ∧ (s.originThere origin.toNat = true)) ∧
  (∃ (s : State) (origin : Origin) (u : UnitId) (r x : Nat) (value : Word), (unitRings u ≤ r) ∧ (r < 0x1000) ∧ (x < 0x40) ∧ (x % 8 = 0) ∧ (s.originThere origin.toNat = true)) ∧
  (∃ (s : State) (origin : Origin) (u : UnitId) (r value : Nat), (unitRings u ≤ r)) ∧
  (∃ (s : State) (u : UnitId) (o off k : Nat), (s.rd (UNIT_ERR.VALID (unitBase u)) = 0) ∧ (o < 2 ^ 16) ∧ (off < 2 ^ 24) ∧ (k < 8)) :=
  ⟨⟨regs [(RING_STATUS.STATE (unitBase .sep) 63, 1)] State.reset, 5, .sep, 63, 0x10, 99, by decide +kernel⟩,
   ⟨State.reset, 5, .sep, 64, 0x38, 99, by decide +kernel⟩,
   ⟨State.reset, 5, .sep, 64, 1, by decide +kernel⟩,
   ⟨State.reset, .sep, 5, 0x100010, 6, by decide +kernel⟩⟩

theorem witness_FrozenTally :
  (∃ (s : State) (code : Nat) (u : Option UnitId) (inst : Option Nat) (args : List Nat) (origin : Option Nat), (s.on TAL_CTL.EN = true) ∧ (s.on TAL_CTL.FREEZE = true)) ∧
  (∃ (s : State) (slot : Nat) (rest : List Nat) (e : TallyEntry), (s.on TAL_CTL.EN = true) ∧ (s.on TAL_CTL.FREEZE = true) ∧ (s.tally.due = slot :: rest) ∧ (s.on TAL_RING.SPILL_EN = true) ∧ (s.spillRoom = true) ∧ (Tab.get? s.tally.buf slot = some e) ∧ ((s.dmaWrite .tal (s.rd TAL_RING.BASE * 4096 + s.rd TAL_RING_IDX.PROD * 256) e.bytes).toOption.isSome = true)) ∧
  (∃ (s : State) (origin : Origin), (s.on TAL_CTL.EN = true) ∧ (s.on TAL_CTL.FREEZE = true) ∧ (s.originThere origin.toNat = true) ∧ (origin ≠ 0x300)) :=
  ⟨⟨regs [(TAL_CTL.FREEZE, 1), (TAL_CTL.EN, 1)] State.reset, 0x0203, none, none, [], none, by decide +kernel⟩,
   ⟨regs [(DDR_CFG.CAP_GIB, 16), (TAL_RING.BASE, 16), (TAL_RING.LOG2_ENTRIES, 8), (TAL_RING.SPILL_EN, 1), (TAL_CTL.FREEZE, 1), (TAL_CTL.EN, 1)] { State.reset with now := 10 ^ 9, tally := { due := [4], buf := [(4, { code := 0x0E01, flags := 0, origin := 5, supp := 0, seq := 9, time := 7, args := [], values := [], ids := [] })] } }, 4, [], { code := 0x0E01, flags := 0, origin := 5, supp := 0, seq := 9, time := 7, args := [], values := [], ids := [] }, by decide +kernel⟩,
   ⟨regs [(TAL_CTL.FREEZE, 1), (TAL_CTL.EN, 1)] State.reset, 5, by decide +kernel⟩⟩

theorem witness_BladeRenewAndRelease :
  (∃ (s : State) (x : Blade) (now p : Nat) (g : Nat → Byte) (m : Medium) (c : BCmd), (c.op = Bop.renew) ∧ (x.check now p c = none)) ∧
  (∃ (s : State) (x : Blade) (now p : Nat) (g : Nat → Byte) (m : Medium) (c : BCmd), (c.op = Bop.release) ∧ (x.check now p c = none)) ∧
  (∃ (s : State) (x : Blade) (now p : Nat) (g : Nat → Byte) (m : Medium) (c : BCmd) (e : Nat), (c.op = Bop.release) ∧ (c.rsvd = false) ∧ (x.epochCheck p c = some e)) ∧
  (∃ (s : State) (x : Blade) (now p : Nat) (g : Nat → Byte) (m : Medium) (c : BCmd), (bcpMutating c.op = true) ∧ (c.op ≠ 0) ∧ (c.op ≤ 0x0F) ∧ (c.rsvd = false) ∧ (c.lenOk x = true) ∧ (c.inRange x = true) ∧ (¬ ((c.op = Bop.program ∨ c.op = Bop.erase) ∧ anchorBlock c.die c.block = true)) ∧ (c.epoch = (x.epochRec c.shard).epoch) ∧ ((x.epochRec c.shard).released = true)) :=
  ⟨⟨State.reset, { id := { dies := 16, blocks := 1024, pagesQlc := 768, spare := 8, ratedEc := 1000 }, recs := [(64, ⟨6, false, 3⟩)] }, 9, 0, (fun _ => 0), (.done 0 false), { img := image 64 [(0, 1, 7), (24, 4, 512), (4, 2, 64), (48, 8, 5)], out := image 512 [(0, 8, 6)] }, by decide +kernel⟩,
   ⟨State.reset, { id := { dies := 16, blocks := 1024, pagesQlc := 768, spare := 8, ratedEc := 1000 }, recs := [(64, ⟨6, false, 3⟩)] }, 9, 0, (fun _ => 0), (.done 0 false), { img := image 64 [(0, 1, 8), (4, 1, 64), (8, 8, 6)], out := [] }, by decide +kernel⟩,
   ⟨State.reset, { id := { dies := 16, blocks := 1024, pagesQlc := 768, spare := 8, ratedEc := 1000 }, recs := [(64, ⟨6, false, 3⟩)] }, 9, 0, (fun _ => 0), (.done 0 false), { img := image 64 [(0, 1, 8), (4, 1, 64), (8, 8, 5)], out := [] }, St.epochStale, by decide +kernel⟩,
   ⟨State.reset, { id := { dies := 16, blocks := 1024, pagesQlc := 768, spare := 8, ratedEc := 1000 }, recs := [(64, ⟨6, true, 3⟩)] }, 9, 0, (fun _ => 0), (.done 0 false), { img := image 64 [(0, 1, Bop.retire), (4, 1, 64), (8, 8, 6), (6, 2, 3)], out := [] }, by decide +kernel⟩⟩

theorem witness_BladeRenewAndRelease_2 :
  (∃ (s : State) (x : Blade) (now p : Nat) (g : Nat → Byte) (m : Medium) (c : BCmd), (c.op = Bop.setEpoch) ∧ (c.rsvd = false) ∧ ((x.epochRec c.shard).released = true) ∧ (c.epoch % 2 = p) ∧ ((x.epochRec c.shard).epoch < c.epoch)) :=
  ⟨State.reset, { id := { dies := 16, blocks := 1024, pagesQlc := 768, spare := 8, ratedEc := 1000 }, recs := [(64, ⟨6, true, 3⟩)] }, 9, 0, (fun _ => 0), (.done 0 false), { img := image 64 [(0, 1, Bop.setEpoch), (1, 1, 16), (4, 1, 64), (8, 8, 8)], out := [] }, by decide +kernel⟩

theorem witness_VatErrorsAndPolicyWrites :
  (∃ (s : State) (pail : Nat), (Tab.get? s.vat.pails pail = none)) ∧
  (∃ (s : State) (pail : Nat) (p : Pail), (Tab.get? s.vat.pails pail = some p) ∧ (p.holds = .committed)) ∧
  (∃ (s : State) (pail : Nat) (p : Pail), (Tab.get? s.vat.pails pail = some p) ∧ (p.holds = .readData ∨ p.holds = .background ∨ p.holds = .software)) ∧
  (∃ (s : State) (pail k : Nat) (p : Pail) (c : NvmeCmd), (Tab.get? s.vat.pails pail = some p) ∧ (p.holds = .writeData) ∧ (p.user = .ctx k) ∧ (s.vat.widx = []) ∧ (s.par.cmds = [(k, c)]) ∧ (c.mutates = true) ∧ (c.commit = false)) :=
  ⟨⟨State.reset, 9, by decide +kernel⟩,
   ⟨{ State.reset with vat := { pails := [(9, { cls := 0, user := .ctx 0, holds := .committed })] } }, 9, { cls := 0, user := .ctx 0, holds := .committed }, by decide +kernel⟩,
   ⟨{ State.reset with vat := { pails := [(9, { cls := 0, user := .ctx 0, holds := .readData })] } }, 9, { cls := 0, user := .ctx 0, holds := .readData }, by decide +kernel⟩,
   ⟨{ State.reset with vat := { pails := [(9, { cls := 0, user := .ctx 0, holds := .writeData })] }, par := { cmds := [(0, ({ sqe := image 64 [(0, 1, Nop.write)], ctx := none, cntlid := 1, qid := 1, cls := 0, tenant := 0, vol := 0, stage := .running, since := 0, origin := some 5 } : NvmeCmd))] } }, 9, 0, { cls := 0, user := .ctx 0, holds := .writeData }, ({ sqe := image 64 [(0, 1, Nop.write)], ctx := none, cntlid := 1, qid := 1, cls := 0, tenant := 0, vol := 0, stage := .running, since := 0, origin := some 5 } : NvmeCmd), by decide +kernel⟩⟩

theorem witness_VatErrorsAndPolicyWrites_2 :
  (∃ (s : State) (pail : Nat) (p : Pail) (es : List WEntry) (t u : State), (Tab.get? s.vat.pails pail = some p) ∧ (p.holds = .writeData) ∧ (t = (s.bump VAT_ERR.UE 1).raise Ev.vatUe (some .vat) none [pail, p.cls]) ∧ (es = t.vat.widx.filter (fun (e : WEntry) => e.pail == pail)) ∧ (u = es.foldl (fun (s : State) e => s.failReads e) t)) ∧
  (∃ (s : State) (d : DescRef) (f : Fetched) (a : Nat) (u : UnitId) (r : RegRow), (s.startedAt .sec d Op.cfgWrite = some f) ∧ (s.secAnswers = true) ∧ (s.inOrder .sec d = true) ∧ (s.lifeAllows false = true) ∧ (a = f.at 28 1 * 0x1000000 + f.at 29 1 * 0x400000 + f.at 32 4) ∧ (f.at 29 1 < 4) ∧ (unitAt (f.at 28 1) (f.at 29 1) = some u) ∧ (findReg a = some r) ∧ (s.bit SEC_CFGW_MASK.UNIT (4 * f.at 28 1 + f.at 29 1) = false)) ∧
  (∃ (s : State) (d : DescRef) (f : Fetched) (a : Nat) (u : UnitId) (r : RegRow), (s.startedAt .sec d Op.cfgWrite = some f) ∧ (s.secAnswers = true) ∧ (s.inOrder .sec d = true) ∧ (s.lifeAllows false = true) ∧ (a = f.at 28 1 * 0x1000000 + f.at 29 1 * 0x400000 + f.at 32 4) ∧ (f.at 29 1 < 4) ∧ (unitAt (f.at 28 1) (f.at 29 1) = some u) ∧ (findReg a = some r) ∧ (s.bit SEC_CFGW_MASK.UNIT (4 * f.at 28 1 + f.at 29 1) = true) ∧ (r.config = true) ∧ (a ≠ SEC_CFGW_MASK.UNIT.reg) ∧ (csrUnit a = some u) ∧ (s.accepts u r a (f.at 40 8) = false)) ∧
  (∃ (s : State) (d : DescRef) (f : Fetched) (a : Nat) (u : UnitId) (r : RegRow), (s.startedAt .sec d Op.cfgWrite = some f) ∧ (s.secAnswers = true) ∧ (s.inOrder .sec d = true) ∧ (s.lifeAllows false = true) ∧ (a = f.at 28 1 * 0x1000000 + f.at 29 1 * 0x400000 + f.at 32 4) ∧ (f.at 29 1 < 4) ∧ (unitAt (f.at 28 1) (f.at 29 1) = some u) ∧ (findReg a = some r) ∧ (s.bit SEC_CFGW_MASK.UNIT (4 * f.at 28 1 + f.at 29 1) = true) ∧ (r.config = true) ∧ (a ≠ SEC_CFGW_MASK.UNIT.reg) ∧ (csrUnit a = some u) ∧ (s.accepts u r a (f.at 40 8) = true)) :=
  ⟨⟨{ State.reset with vat := { pails := [(9, { cls := 0, user := .ctx 0, holds := .writeData })] }, par := { cmds := [(0, ({ sqe := image 64 [(0, 1, Nop.write)], ctx := none, cntlid := 1, qid := 1, cls := 0, tenant := 0, vol := 0, stage := .running, since := 0, origin := some 5 } : NvmeCmd))] } }, 9, { cls := 0, user := .ctx 0, holds := .writeData }, [], (((({ State.reset with vat := { pails := [(9, { cls := 0, user := .ctx 0, holds := .writeData })] }, par := { cmds := [(0, ({ sqe := image 64 [(0, 1, Nop.write)], ctx := none, cntlid := 1, qid := 1, cls := 0, tenant := 0, vol := 0, stage := .running, since := 0, origin := some 5 } : NvmeCmd))] } }) : State).bump VAT_ERR.UE 1).raise Ev.vatUe (some .vat) none [9, 0]), (((({ State.reset with vat := { pails := [(9, { cls := 0, user := .ctx 0, holds := .writeData })] }, par := { cmds := [(0, ({ sqe := image 64 [(0, 1, Nop.write)], ctx := none, cntlid := 1, qid := 1, cls := 0, tenant := 0, vol := 0, stage := .running, since := 0, origin := some 5 } : NvmeCmd))] } }) : State).bump VAT_ERR.UE 1).raise Ev.vatUe (some .vat) none [9, 0]), ⟨by decide +kernel, by decide +kernel, by first | with_reducible rfl | decide +kernel, by decide +kernel, by first | with_reducible rfl | decide +kernel⟩⟩,
   ⟨holds .sec [desc 0 Op.cfgWrite [(28, 1, 7), (29, 1, 0), (32, 4, 0x200020), (40, 8, 1)] .started] (regs [(SEC_STATUS.IMAGES_OK, 1), (SEC_STATUS.LIFECYCLE, Life.provisioned), (SEC_STATUS.KEK, 1), (DDR_CFG.CAP_GIB, 16), (AUD_RING.LOG2_ENTRIES, 8), (VEN_CTL.LANE_EN, 65535), (VEN_CTL.EN, 1), (PWR_DOM.STATE 77, 2), (PWR_DOM.STATE 78, 2), (VEN_KEYTAB_BASE.BASE, 256)] { State.reset with sec := { kek := some (7, zeros 32) }, mem := Memory.writeN [] 8192 (image 32 [(0, 1, 7)]) }), ⟨0, 0⟩, desc 0 Op.cfgWrite [(28, 1, 7), (29, 1, 0), (32, 4, 0x200020), (40, 8, 1)] .started, 0x7200020, .carc, reg 0x7200020, by decide +kernel⟩,
   ⟨holds .sec [desc 0 Op.cfgWrite [(28, 1, 7), (29, 1, 0), (32, 4, 0x200020), (40, 8, 0)] .started] (regs [(SEC_STATUS.IMAGES_OK, 1), (SEC_STATUS.LIFECYCLE, Life.provisioned), (SEC_STATUS.KEK, 1), (DDR_CFG.CAP_GIB, 16), (AUD_RING.LOG2_ENTRIES, 8), (VEN_CTL.LANE_EN, 65535), (VEN_CTL.EN, 1), (PWR_DOM.STATE 77, 2), (PWR_DOM.STATE 78, 2), (VEN_KEYTAB_BASE.BASE, 256), (SEC_CFGW_MASK.UNIT, 2 ^ 28)] { State.reset with sec := { kek := some (7, zeros 32) }, mem := Memory.writeN [] 8192 (image 32 [(0, 1, 7)]) }), ⟨0, 0⟩, desc 0 Op.cfgWrite [(28, 1, 7), (29, 1, 0), (32, 4, 0x200020), (40, 8, 0)] .started, 0x7200020, .carc, reg 0x7200020, by decide +kernel⟩,
   ⟨holds .sec [desc 0 Op.cfgWrite [(28, 1, 7), (29, 1, 0), (32, 4, 0x200020), (40, 8, 0x5000BB800003)] .started] (regs [(SEC_STATUS.IMAGES_OK, 1), (SEC_STATUS.LIFECYCLE, Life.provisioned), (SEC_STATUS.KEK, 1), (DDR_CFG.CAP_GIB, 16), (AUD_RING.LOG2_ENTRIES, 8), (VEN_CTL.LANE_EN, 65535), (VEN_CTL.EN, 1), (PWR_DOM.STATE 77, 2), (PWR_DOM.STATE 78, 2), (VEN_KEYTAB_BASE.BASE, 256), (SEC_CFGW_MASK.UNIT, 2 ^ 28)] { State.reset with sec := { kek := some (7, zeros 32) }, mem := Memory.writeN [] 8192 (image 32 [(0, 1, 7)]) }), ⟨0, 0⟩, desc 0 Op.cfgWrite [(28, 1, 7), (29, 1, 0), (32, 4, 0x200020), (40, 8, 0x5000BB800003)] .started, 0x7200020, .carc, reg 0x7200020, by decide +kernel⟩⟩

theorem witness_StepKeepsCanonical :
(∃ (s t : State), s.Canonical ∧ Machine.step s = .next t) :=
  ⟨{ State.reset with mem := [(4, 1)], otp := [(32, 1)], csr := [(640, 2)] }, _, ⟨by decide, by decide, by decide⟩, rfl⟩

theorem witness_FusesOnlyRise :
(∃ (s t : State), Memory.wf s.otp = true ∧ Machine.step s = .next t) :=
  ⟨{ State.reset with otp := [(32, 1)] }, _, by decide, rfl⟩

theorem witness_FramesOfStoresAndCompletions :
  (∃ (s : State) (u : UnitId) (a : Nat) (bs : List Byte) (ring : Option Nat) (ps : List Nat), (Memory.wf s.mem = true) ∧ ((s.dmaAddrs u a bs.length ring).toOption = some ps) ∧ ((ps.all fun (p : Nat) => inVat p || s.rd (DDR_STATUS.STATE (s.lineChannel (p / 64))) != 3) = true)) ∧
  (∃ (s : State) (u : UnitId) (a : Nat) (bs : List Byte) (ring : Option Nat), ((s.dmaAddrs u a bs.length ring).toOption = none)) ∧
  (∃ (s : State) (u : UnitId) (a : Nat) (bs : List Byte) (ring : Option Nat) (ps : List Nat) (p : Nat), ((s.dmaAddrs u a bs.length ring).toOption = some ps) ∧ ((ps.find? fun (p : Nat) => !inVat p && s.rd (DDR_STATUS.STATE (s.lineChannel (p / 64))) == 3) = some p)) ∧
  (∃ (s : State) (u : UnitId) (d : DescRef) (f : Fetched) (status info result : Nat) (ps : List Nat), (s.fetchedAt u d = some f) ∧ ((s.dmaAddrs u (s.rd (RING_CBASE.BASE (unitBase u) d.ring) * 4096 + s.rd (RING_STATUS.CPL_IDX (unitBase u) d.ring) * 16) 16 (some d.ring)).toOption = some ps)) :=
  ⟨⟨regs [(DDR_CFG.CAP_GIB, 16)] State.reset, .sep, 4096, [1, 2], some 0, [4096, 4097], by decide +kernel⟩,
   ⟨State.reset, .sep, 0x800000000000, [1, 2], none, by decide +kernel⟩,
   ⟨regs [(DDR_CFG.CAP_GIB, 16), (DDR_STATUS.STATE (State.lineChannel State.reset 64), 3), (DDR_STATUS.STATE 4, 3)] State.reset, .sep, 4096, [1, 2], none, [4096, 4097], 4096, by decide +kernel⟩,
   ⟨holds .mtr [desc 0 Op.capSet []] (regs [(DDR_CFG.CAP_GIB, 16)] State.reset), .mtr, ⟨0, 0⟩, desc 0 Op.capSet [], 0, 0, 0, (List.range 16), by decide +kernel⟩⟩

theorem witness_FramesOfStoresAndCompletions_2 :
  (∃ (s : State) (u : UnitId) (d : DescRef) (status info result : Nat), (s.fetchedAt u d = none)) ∧
  (∃ (s : State) (origin : Origin) (addr : PAddr) (size : AccSize) (v : Word) (ce : Bool) (u : State), (Memory.wf s.mem = true) ∧ (s.originThere origin.toNat = true) ∧ (inVat addr.toNat = true) ∧ (addr.toNat % 8 + size.bytes ≤ 8) ∧ (u = (if ce then s.bump VAT_ERR.CE 1 else s))) :=
  ⟨⟨State.reset, .mtr, ⟨0, 0⟩, 0, 0, 0, by decide +kernel⟩,
   ⟨State.reset, 5, BitVec.ofNat 48 vatBase, .b4, 99, true, (State.reset.bump VAT_ERR.CE 1), ⟨by decide +kernel, by decide +kernel, by decide +kernel, by decide +kernel, by first | with_reducible rfl | decide +kernel⟩⟩⟩

end Sys2Proof.Tests
end

section
/-! The descriptors of the Rails and of their common window (R69, R84): one equation for each shared step of theirs, then what
each command does where it succeeds. -/
namespace Sys2Proof.Machine
open Sys2Proof

/-! ## The body of a context -/

theorem Ctx.qp?_eq_some {x : Ctx} {q : Qp} (h : x.body = .qp q) : x.qp? = some q := by simp [Ctx.qp?, h]

theorem Ctx.tcp?_eq_some {x : Ctx} {y : Tcp} (h : x.body = .tcp y) : x.tcp? = some y := by simp [Ctx.tcp?, h]

/-! ## Binding and moving a queue pair (R68, R69) -/

/-- The check for one more pinned context does not fire: the context is not pinned, or there is room (R70). -/
theorem pinCheck_passes {pin room : Bool} (h : pin = true → room = true) : (pin && !room) = false := by
  cases pin with
  | false => rfl
  | true => simp [h rfl]

section
variable (s : State) (r : Rail) (d : DescRef) (f : Fetched) (c : Nat)

theorem State.qpInit_bound (hl : s.lportActive (railLport r (f.at 33 1 % 8)) = true)
    (hp : (f.at 51 1).testBit 0 = true → s.pinRoom r c = true) :
    s.qpInit r d f c =
      ((s.setCtx c { rail := r, lport := railLport r (f.at 33 1 % 8), parlour := (f.at 51 1).testBit 2,
                     pin := (f.at 51 1).testBit 0, resident := false, rate := s.lineRate (railLport r (f.at 33 1 % 8)),
                     target := s.lineRate (railLport r (f.at 33 1 % 8)), body := .qp (f.initQp {}) }).cacheCtx c).finish
        (railUnit r) d St.success Qst.init := by
  simp only [State.qpInit, hl, pinCheck_passes hp, Bool.not_true, Bool.false_eq_true, if_false]

variable {q : Qp}

theorem State.qpMove_initInit (h : q.st = Qst.init) :
    s.qpMove r d f c q Qst.init = (s.setQp c (f.initQp q)).finish (railUnit r) d St.success Qst.init := by
  simp [State.qpMove, h, Qst.init, Qst.rtr, Qst.sqd]

theorem State.qpMove_initRtr (h : q.st = Qst.init) (himg : f.imgs.length = 2) :
    s.qpMove r d f c q Qst.rtr = (s.setQp c (f.rtrQp q)).finish (railUnit r) d St.success Qst.rtr := by
  simp [State.qpMove, h, himg, Qst.init, Qst.rtr, Qst.sqd]

theorem State.qpMove_rtrRts (h : q.st = Qst.rtr) (ht : timeoutOk (f.at 48 1 % 32) = true) :
    s.qpMove r d f c q Qst.rts = ((s.setQp c (f.rtsQp q)).finish (railUnit r) d St.success Qst.rts).pump c 4096 := by
  simp [State.qpMove, h, ht, Qst.init, Qst.rtr, Qst.rts]

theorem State.qpMove_rtsSqd (h : q.st = Qst.rts) :
    s.qpMove r d f c q Qst.sqd = (s.setQp c { q with st := Qst.sqd, sqd := q.sqd ++ [(d, q.sqPsn)] }).sqdDone c := by
  simp [State.qpMove, h, Qst.init, Qst.rtr, Qst.rts, Qst.sqd]

theorem State.qpMove_ofSqd {n : Nat} (h : q.st = Qst.sqd) (hn : n = Qst.rts ∨ n = Qst.sqd)
    (ht : timeoutOk (f.at 48 1 % 32) = true) :
    s.qpMove r d f c q n = ((s.setQp c (f.sqdQp q n)).finish (railUnit r) d St.success n).pump c 4096 := by
  rcases hn with rfl | rfl <;> simp [State.qpMove, h, ht, Qst.init, Qst.rtr, Qst.rts, Qst.sqd]

end

/-! ## QP_MODIFY (R69) -/

section
variable {s : State} {r : Rail} {d : DescRef} {f : Fetched} {x : Ctx} {q : Qp}

theorem exec_qpModify_unbound (hf : s.startedAt (railUnit r) d Op.qpModify = some f) (ha : s.railActive r = true)
    (hc : f.ctx < ctxCount) (hx : s.ctx f.ctx = none) (hn : f.at 32 1 = Qst.init) :
    exec (.qpModify r d) s = .next (s.qpInit r d f f.ctx) := by
  change execQpModify r d s = _
  simp [execQpModify, hf, ha, Nat.not_le.2 hc, hx, hn, Qst.init, Qst.reset]

/-- QP_MODIFY of a queue pair that is bound to its Rail and for which it does not wait already. -/
theorem exec_qpModify_bound (hf : s.startedAt (railUnit r) d Op.qpModify = some f) (ha : s.railActive r = true)
    (hc : f.ctx < ctxCount) (hx : s.ctx f.ctx = some x) (hr : x.rail = r) (hb : x.body = .qp q)
    (hw : q.sqd.any (fun e => e.1 == d) = false) :
    exec (.qpModify r d) s = .next
      (if f.at 32 1 = Qst.reset then (s.ctxReset f.ctx).finish (railUnit r) d St.success Qst.reset
      else if f.at 32 1 = Qst.err then (s.qpErr f.ctx none true).finish (railUnit r) d St.success Qst.err
      else (s.useCtx f.ctx).qpMove r d f f.ctx q (f.at 32 1)) := by
  change execQpModify r d s = _
  simp [execQpModify, hf, ha, Nat.not_le.2 hc, hx, hr, Ctx.qp?_eq_some hb, hw, apply_ite Host.Outcome.next]

/-- A move to another state than RESET and ERR. -/
theorem exec_qpModify_move (hf : s.startedAt (railUnit r) d Op.qpModify = some f) (ha : s.railActive r = true)
    (hc : f.ctx < ctxCount) (hx : s.ctx f.ctx = some x) (hr : x.rail = r) (hb : x.body = .qp q)
    (hw : q.sqd.any (fun e => e.1 == d) = false) {n : Nat} (hn : f.at 32 1 = n) (h0 : n ≠ Qst.reset) (h5 : n ≠ Qst.err) :
    exec (.qpModify r d) s = .next ((s.useCtx f.ctx).qpMove r d f f.ctx q n) := by
  rw [exec_qpModify_bound hf ha hc hx hr hb hw, hn, if_neg h0, if_neg h5]

end

/-! ## The region table (R74, R84) -/

section
variable {s : State} {d : DescRef} {f : Fetched}

theorem exec_mrRegister_ok {m : Mr} (hf : s.startedAt .railC d Op.mrRegister = some f)
    (hk : f.at 28 4 / 256 < 2 ^ s.rd RDMA_MR_TABLE.LOG2_ENTRIES)
    (hm : m = { key := f.at 28 4, base := f.src, len := f.len, pd := f.at 32 4 % 2 ^ 20,
                localWrite := (f.at 36 1).testBit 0, remoteWrite := (f.at 36 1).testBit 1,
                remoteRead := (f.at 36 1).testBit 2, odp := (f.at 36 1).testBit 3, raddr := f.at 40 8 }) :
    exec (.mrRegister d) s =
      .next ((s.setRails { s.rails with mrs := Tab.set s.rails.mrs (f.at 28 4 / 256) m }).finish .railC d St.success) := by
  subst hm
  change execMrRegister d s = _
  simp [execMrRegister, hf, Nat.not_le.2 hk]

theorem exec_mrInvalidate_begin (hf : s.startedAt .railC d Op.mrInvalidate = some f)
    (hv : s.rails.invs.any (fun v => v.desc == some d) = false) (hm : (s.mr (f.at 28 4)).isSome = true) :
    exec (.mrInvalidate d) s = .next (s.invalBegin (f.at 28 4) (some d) none) := by
  have hm' : (s.mr (f.at 28 4)).isNone = false := by rw [← Option.not_isSome, hm, Bool.not_true]
  change execMrInvalidate d s = _
  simp only [execMrInvalidate, hf, hv, hm', Bool.false_eq_true, if_false]

end

/-! ## Descriptors on an ACTIVE Rail -/

section
variable {s : State} {r : Rail} {d : DescRef} {f : Fetched} {op : Nat}

theorem State.railDesc_active (hf : s.startedAt (railUnit r) d op = some f) (ha : s.railActive r = true)
    (k : Fetched → State) : s.railDesc r d op k = .next (k f) := by
  simp [State.railDesc, hf, ha]

theorem State.postQp_bound {x : Ctx} {q : Qp} (hx : s.ctx f.ctx = some x) (hr : x.rail = r) (hb : x.body = .qp q)
    (he : q.st ≠ Qst.err) (k : State → Nat → Qp → State) : s.postQp r d f k = k (s.useCtx f.ctx) f.ctx q := by
  simp [State.postQp, hx, hr, Ctx.qp?_eq_some hb, he]

theorem exec_qpQuery_ok {x : Ctx} (hf : s.startedAt (railUnit r) d Op.qpQuery = some f) (ha : s.railActive r = true)
    (hl : f.len = 512) (hx : s.ctx f.ctx = some x) (hr : x.rail = r) {t : State}
    (hw : s.draw.dmaWrite (railUnit r) f.dst (s.freeBytes 512) (some d.ring) = .ok t) :
    exec (.qpQuery r d) s = .next (t.finish (railUnit r) d St.success) := by
  refine (State.railDesc_active hf ha _).trans ?_
  simp [hl, hx, hr, hw]

theorem exec_postSend_queued {x : Ctx} {q : Qp} {w : SendWr} (hf : s.startedAt (railUnit r) d Op.postSend = some f)
    (ha : s.railActive r = true) (hx : s.ctx f.ctx = some x) (hr : x.rail = r) (hb : x.body = .qp q)
    (hst : q.st = Qst.rts ∨ q.st = Qst.sqd) (hv : f.at 6 1 ≤ 5) (h1 : 1 ≤ f.len) (h2 : f.len ≤ 2 ^ 31)
    (hq : q.sq.any (fun w => w.owner == .desc d) = false)
    (hw : w = { owner := .desc d, verb := f.at 6 1, addr := f.src, len := f.len, lkey := f.at 32 4, raddr := f.at 40 8,
                rkey := f.at 36 4, imm := if f.at 6 1 = 2 then f.at 36 4 else f.at 48 4 }) :
    exec (.postSend r d) s =
      .next (((s.useCtx f.ctx).setQp f.ctx { q with sq := q.sq ++ [w] }).pump f.ctx 4096) := by
  subst hw
  have he : q.st ≠ Qst.err := by rcases hst with h | h <;> simp [h, Qst.rts, Qst.sqd, Qst.err]
  have hst' : ¬ (q.st ≠ Qst.rts ∧ q.st ≠ Qst.sqd) := fun h => hst.elim h.1 h.2
  have hlen : lengthOk f.len = true := by simp only [lengthOk, h1, h2, decide_true, Bool.and_self]
  refine (State.railDesc_active hf ha _).trans ?_
  rw [State.postQp_bound hx hr hb he]
  simp only [Nat.not_lt.2 hv, hlen, hst', hq, Bool.not_true, Bool.false_eq_true, if_false]

theorem exec_postRecv_queued {x : Ctx} {q : Qp} (hf : s.startedAt (railUnit r) d Op.postRecv = some f)
    (ha : s.railActive r = true) (hx : s.ctx f.ctx = some x) (hr : x.rail = r) (hb : x.body = .qp q)
    (h0 : q.st ≠ Qst.reset) (he : q.st ≠ Qst.err) (hw : q.rq.any (fun w => w.d == d) = false)
    (hk : (s.useCtx f.ctx).localCheck q (f.at 32 4) f.dst f.len true = none) :
    exec (.postRecv r d) s =
      .next ((s.useCtx f.ctx).setQp f.ctx { q with rq := q.rq ++ [⟨d, f.dst, f.len, f.at 32 4⟩] }) := by
  refine (State.railDesc_active hf ha _).trans ?_
  rw [State.postQp_bound hx hr hb he]
  simp only [h0, hw, hk, Bool.false_eq_true, if_false]

theorem exec_pktTx_sent {bs : List Byte} (hf : s.startedAt (railUnit r) d Op.pktTx = some f) (ha : s.railActive r = true)
    (h7 : f.at 6 1 ≤ 7) (hp : s.lportActive (railLport r (f.at 6 1)) = true) (h0 : 0 < f.len)
    (hm : f.len ≤ s.rd (RAIL_PORT_CFG.MTU (railLport r (f.at 6 1) / 8) (railLport r (f.at 6 1) / 4 % 2)))
    (hr : (s.dmaRead (railUnit r) f.src f.len (some d.ring)) = .ok bs) :
    exec (.pktTx r d) s = .next ((s.emit (.frame (railLport r (f.at 6 1)) (s.slowTag (railLport r (f.at 6 1)) bs) bs)).finish
      (railUnit r) d St.success) := by
  have h8 : f.at 6 1 % 8 = f.at 6 1 := Nat.mod_eq_of_lt (by omega)
  refine (State.railDesc_active hf ha _).trans ?_
  simp [h8, Nat.not_lt.2 h7, hp, Nat.ne_of_gt h0, Nat.not_lt.2 hm, hr]

theorem exec_pktRxBuf_wait (hf : s.startedAt (railUnit r) d Op.pktRxBuf = some f) (ha : s.railActive r = true)
    (hw : f.phase ≠ .waiting) (hl : 9216 ≤ f.len) :
    exec (.pktRxBuf r d) s = .next ((s.setPhase (railUnit r) d .waiting).slowDrain r) := by
  refine (State.railDesc_active hf ha _).trans ?_
  simp [hw, Nat.not_lt.2 hl]

theorem exec_tcpInstall_bound (hf : s.startedAt (railUnit r) d Op.tcpInstall = some f) (ha : s.railActive r = true)
    (hc : f.ctx < ctxCount) (hx : s.ctx f.ctx = none) (hi : f.imgs.length = 2) (h7 : f.at 57 1 ≤ 7)
    (hl : s.lportActive (railLport r (f.at 57 1)) = true)
    (hp : (f.at 49 1).testBit 3 = true → s.pinRoom r f.ctx = true) :
    exec (.tcpInstall r d) s = .next
      (((s.setCtx f.ctx { rail := r, lport := railLport r (f.at 57 1), parlour := true, pin := (f.at 49 1).testBit 3,
                          resident := false, rate := s.lineRate (railLport r (f.at 57 1)),
                          target := s.lineRate (railLport r (f.at 57 1)),
                          body := .tcp { f.tcp with tsAt := s.now } }).cacheCtx f.ctx).finish (railUnit r) d St.success) := by
  refine (State.railDesc_active hf ha _).trans ?_
  simp only [Nat.not_le.2 hc, hx, hi, Nat.not_lt.2 h7, hl, pinCheck_passes hp, ne_eq, not_true, Bool.not_true,
    Bool.false_eq_true, or_self, if_false]

theorem exec_tcpRelease_handedBack {x : Ctx} {y : Tcp} (hf : s.startedAt (railUnit r) d Op.tcpRelease = some f)
    (ha : s.railActive r = true) (hx : s.ctx f.ctx = some x) (hr : x.rail = r) (hb : x.body = .tcp y) :
    exec (.tcpRelease r d) s = .next
      ((s.tcpHandback f.ctx St.success).finish (railUnit r) d St.success 0 (y.sndNxt + y.rcvNxt * 2 ^ 32)) := by
  refine (State.railDesc_active hf ha _).trans ?_
  simp [hx, hr, Ctx.tcp?_eq_some hb]

theorem exec_odpWait_wait (hf : s.startedAt (railUnit r) d Op.odpWait = some f) (ha : s.railActive r = true)
    (hw : f.phase ≠ .waiting) :
    exec (.odpWait r d) s = .next ((s.setPhase (railUnit r) d .waiting).odpDeliver r 257) := by
  refine (State.railDesc_active hf ha _).trans ?_
  simp [hw]

end

/-- Settles O13: each clause is the equation of its command under the clause's hypotheses; QP_MODIFY of a bound queue pair goes
through the equation of its transition. -/
theorem railDescriptors : Obligations.RailDescriptors := by
  unfold Obligations.RailDescriptors
  refine ⟨?qpBind, ?qpInitInit, ?qpInitRtr, ?qpRtrRts, ?qpRtsSqd, ?qpOfSqd, ?qpReset, ?qpErr, ?query, ?mrRegister, ?mrInvalidate,
    ?postSend, ?postRecv, ?pktTx, ?pktRxBuf, ?tcpInstall, ?tcpRelease, ?odpWait⟩
  case qpBind =>
    intro s r d f hf ha hc hx hn hl hp
    rw [exec_qpModify_unbound hf ha hc hx hn, State.qpInit_bound s r d f f.ctx hl hp]
  case qpInitInit =>
    intro s r d f x q hf ha hc hx hr hb hw hst hn
    rw [exec_qpModify_move hf ha hc hx hr hb hw hn (by decide) (by decide), State.qpMove_initInit _ r d f _ hst]
  case qpInitRtr =>
    intro s r d f x q hf ha hc hx hr hb hw hst hn himg
    rw [exec_qpModify_move hf ha hc hx hr hb hw hn (by decide) (by decide), State.qpMove_initRtr _ r d f _ hst himg]
  case qpRtrRts =>
    intro s r d f x q hf ha hc hx hr hb hw hst hn ht
    rw [exec_qpModify_move hf ha hc hx hr hb hw hn (by decide) (by decide), State.qpMove_rtrRts _ r d f _ hst ht]
  case qpRtsSqd =>
    intro s r d f x q hf ha hc hx hr hb hw hst hn
    rw [exec_qpModify_move hf ha hc hx hr hb hw hn (by decide) (by decide), State.qpMove_rtsSqd _ r d f _ hst]
  case qpOfSqd =>
    intro s r d f x q hf ha hc hx hr hb hw hst hn ht
    have h0 : f.at 32 1 ≠ Qst.reset := by rcases hn with h | h <;> rw [h] <;> decide
    have h5 : f.at 32 1 ≠ Qst.err := by rcases hn with h | h <;> rw [h] <;> decide
    rw [exec_qpModify_move hf ha hc hx hr hb hw rfl h0 h5, State.qpMove_ofSqd _ r d f _ hst hn ht]
  case qpReset =>
    intro s r d f x q hf ha hc hx hr hb hw hn
    rw [exec_qpModify_bound hf ha hc hx hr hb hw, if_pos hn]
  case qpErr =>
    intro s r d f x q hf ha hc hx hr hb hw hn
    rw [exec_qpModify_bound hf ha hc hx hr hb hw, if_neg (by rw [hn]; decide), if_pos hn]
  case query =>
    intro s r d f x hf ha hl hx hr hw
    cases h : s.draw.dmaWrite (railUnit r) f.dst (s.freeBytes 512) (some d.ring) with
    | error e => simp [h, Except.toOption] at hw
    | ok t => exact ⟨t, rfl, exec_qpQuery_ok hf ha hl hx hr h⟩
  case mrRegister =>
    intro s d f m
    exact exec_mrRegister_ok
  case mrInvalidate =>
    intro s d f
    exact exec_mrInvalidate_begin
  case postSend =>
    intro s r d f x q w
    exact exec_postSend_queued
  case postRecv =>
    intro s r d f x q
    exact exec_postRecv_queued
  case pktTx =>
    intro s r d f bs hf ha h7 hp h0 hm hr
    cases h : s.dmaRead (railUnit r) f.src f.len (some d.ring) with
    | error e => simp [h, Except.toOption] at hr
    | ok b =>
      obtain rfl : b = bs := by simpa [h, Except.toOption] using hr
      exact exec_pktTx_sent hf ha h7 hp h0 hm h
  case pktRxBuf =>
    intro s r d f
    exact exec_pktRxBuf_wait
  case tcpInstall =>
    intro s r d f
    exact exec_tcpInstall_bound
  case tcpRelease =>
    intro s r d f x y
    exact exec_tcpRelease_handedBack
  case odpWait =>
    intro s r d f
    exact exec_odpWait_wait

end Sys2Proof.Machine
end

section
/-! The Separator's descriptors (R135, R136, R144, R150 to R156): one equation for each shared step of theirs, then what each
command does where it succeeds. -/
namespace Sys2Proof.Machine
open Sys2Proof

theorem eq_ok_of_toOption {ε α : Type} {x : Except ε α} {a : α} (h : x.toOption = some a) : x = .ok a := by
  cases x with
  | error e => simp [Except.toOption] at h
  | ok b => simpa [Except.toOption] using h

theorem State.tableThen_ok {s t : State} {u : UnitId} {a : Nat} {bs : List Byte} (h : s.dmaWrite u a bs = .ok t) (d : DescRef)
    (k : State → State) : s.tableThen u d a bs k = k t := by
  simp only [State.tableThen, h]

section
variable {s : State} {d : DescRef} {f : Fetched}

theorem State.sepDesc_started {op : Nat} (hf : s.startedAt .sep d op = some f) (k : Fetched → State) :
    s.sepDesc d op k = .next (k f) := by
  simp only [State.sepDesc, hf]

/-! ## DOMAIN_SET (R135, R136) -/

/-- Neither refusal of a domain in use fires: TENANT stays or the domain is not in use, and likewise for VALID. -/
theorem domainSet_not_busy {old new : List Byte} {used : Bool} (ht : domTenant new = domTenant old ∨ used = false)
    (hv : domValid new = true ∨ domValid old = false ∨ used = false) :
    ¬ ((domTenant new ≠ domTenant old ∨ (domValid old ∧ !domValid new)) ∧ used) := by
  rintro ⟨hc, rfl⟩
  simp only [Bool.true_eq_false, or_false] at ht hv
  rcases hc with hc | ⟨ho, hn⟩
  · exact hc ht
  · rcases hv with hv | hv
    · simp [hv] at hn
    · simp [hv] at ho

theorem exec_domainSet_written {new : List Byte} {t : State} (hf : s.startedAt .sep d Op.domainSet = some f) (hl : f.len = 16)
    (hr : s.dmaRead .sep f.src 16 (some d.ring) = .ok new) (hd : f.at 28 2 < 4096) (hc : domClean new = true)
    (ht : domTenant new = domTenant (s.domEntry (f.at 28 2)) ∨ s.domainUsed (f.at 28 2) = false)
    (hv : domValid new = true ∨ domValid (s.domEntry (f.at 28 2)) = false ∨ s.domainUsed (f.at 28 2) = false)
    (hw : s.dmaWrite .sep (s.rd SEP_DOMAIN_BASE.BASE * 4096 + f.at 28 2 * 16) new = .ok t) :
    exec (.domainSet d) s = .next (t.finish .sep d St.success) := by
  refine (State.sepDesc_started hf _).trans ?_
  simp only [hl, hr, hc, Nat.not_le.2 hd, domainSet_not_busy ht hv, State.tableThen_ok hw, ne_eq, not_true, Bool.true_eq_false, or_self,
    if_false]

/-! ## LOOKUP (R144, R154) -/

/-- What LOOKUP does with the Separator's answer. -/
def State.lookupDone (s : State) (d : DescRef) (hold : Bool) : SepAns → State
  | .unique => s.finish .sep d (if hold then St.entryNotFound else St.success) 0
  | .noInsert => s.finish .sep d St.success 2
  | .dup h loc _ =>
    match s.dmaWrite .sep (s.rd (RING_DBASE.BASE (unitBase .sep) d.ring) * 4096 + d.slot * 64 + 40) (leBytes 8 loc) (some d.ring) with
    | .error e => s.finishDma .sep d e
    | .ok u => u.finish .sep d St.success 1 h

theorem exec_lookup_answered {fp : List Byte} {a : SepAns} {t : State} (hf : s.startedAt .sep d Op.lookup = some f)
    (hl : f.len = 32) (hd : s.domainRefused (f.at 28 2) f.tenant = none) (hr : s.dmaRead .sep f.src 32 (some d.ring) = .ok fp)
    (hb : s.bucketsBad fp = false)
    (ha : (s.noteBuckets fp).dramLookup (f.at 28 2) fp ((f.at 30 1).testBit 0) none = (a, t)) :
    exec (.lookup d) s = .next (t.lookupDone d ((f.at 30 1).testBit 0) a) := by
  refine (State.sepDesc_started hf _).trans ?_
  simp only [hl, hd, hr, hb, ha, ne_eq, not_true, Bool.false_eq_true, if_false]
  cases a <;> rfl

/-- A key that neither the filter nor its buckets hold is UNIQUE, and counted. -/
theorem State.dramLookup_unmatched {dom : Nat} {fp : List Byte} (hold : Bool) (hf : s.filterFind dom fp = none)
    (hm : s.dramMatch dom fp = none) :
    s.dramLookup dom fp hold none = (.unique, s.wr SEP_COUNT_UNIQUE.COUNT (s.rd SEP_COUNT_UNIQUE.COUNT + 1)) := by
  simp only [State.dramLookup, State.filterLookup, hf, hm, Option.map_none, State.noMatch]

/-! ## INSERT and RELOCATE (R154, R156) -/

theorem exec_insert_indexed {fp : List Byte} {h : Nat} {e : FEntry} {t : State} (hf : s.startedAt .sep d Op.insert = some f)
    (hl : f.len = 32) (hd : s.domainRefused (f.at 28 2) f.tenant = none) (hs : s.sepShardRefused (f.at 30 1) = none)
    (hn : f.at 32 4 ≠ 0) (hr : s.dmaRead .sep f.src 32 (some d.ring) = .ok fp) (hb : s.bucketsBad fp = false)
    (hff : s.filterFind (f.at 28 2) fp = none) (hm : s.dramMatch (f.at 28 2) fp = none)
    (hi : s.indexed (f.at 30 1) (f.at 40 8) = false) (hh : s.freeSlot fp = some h)
    (he : e = { fp := fp, domain := f.at 28 2, state := Est.valid, shard := f.at 30 1, refs := f.at 32 4,
                locator := f.at 40 8, slot := some h })
    (hw : s.dmaWrite .sep (s.slotAddr h) e.bytes = .ok t) :
    exec (.insert d) s = .next (((t.setSep { t.sep with
      byLoc := Tab.set t.sep.byLoc (copyKey (f.at 30 1) (t.locNow (f.at 30 1) (f.at 40 8))) h }).entriesUp
        (f.at 30 1)).finish .sep d St.success 0 h) := by
  subst he
  refine (State.sepDesc_started hf _).trans ?_
  simp only [hl, hd, hs, hn, hr, hb, hff, hm, hi, hh, State.tableThen_ok hw, ne_eq, not_true, Option.isSome_none,
    Bool.false_eq_true, or_self, if_false]

theorem exec_relocate_moved {h : Nat} {e : FEntry} {t : State} (hf : s.startedAt .sep d Op.relocate = some f)
    (hb : s.handleBad f = false) (he : s.entryFor f = .ok (h, e)) (hv : e.state = Est.valid) (h0 : e.holds = 0)
    (ht : t = s.putEntry h { e with locator := f.at 48 8 }) :
    exec (.relocate d) s = .next ((t.setSep { t.sep with
      byLoc := Tab.set (Tab.del t.sep.byLoc (copyKey e.shard (t.locNow e.shard e.locator)))
        (copyKey e.shard (t.locNow e.shard (f.at 48 8))) h }).finish .sep d St.success) := by
  subst ht
  refine (State.sepDesc_started hf _).trans ?_
  simp only [hb, he, hv, h0, ne_eq, not_true, Bool.false_eq_true, if_false]

/-! ## REF_ADJUST (R150, R155) -/

theorem exec_refAdjust_released {h : Nat} {e : FEntry} (hf : s.startedAt .sep d Op.refAdjust = some f)
    (hw : s.refAdjusting d = false) (hb : s.handleBad f = false) (he : s.entryFor f = .ok (h, e))
    (h1 : (f.at 32 1).testBit 0 = true) (h0 : e.holds ≠ 0) :
    exec (.refAdjust d) s = .next ((s.releaseHold h).finish .sep d St.success (if e.refs + e.holds = 1 then 1 else 0)
      (refResult e.refs (e.holds - 1))) := by
  refine (State.sepDesc_started hf _).trans ?_
  simp only [hw, hb, he, h1, h0, Bool.false_eq_true, if_false, if_true]

/-- A REF_ADJUST without RELEASE_HOLD: THAW before FREEZE, then the DELTA. -/
theorem exec_refAdjust_changed {h : Nat} {e x : FEntry} (hf : s.startedAt .sep d Op.refAdjust = some f)
    (hw : s.refAdjusting d = false) (hb : s.handleBad f = false) (he : s.entryFor f = .ok (h, e))
    (h1 : (f.at 32 1).testBit 0 = false)
    (hx : x = { e with state := if (f.at 32 1).testBit 2 then Est.valid
                                else if (f.at 32 1).testBit 1 then Est.frozen else e.state }) :
    exec (.refAdjust d) s = .next ((s.putEntry h x).adjust d h x (toSigned (f.at 28 4) 32)) := by
  subst hx
  refine (State.sepDesc_started hf _).trans ?_
  simp only [hw, hb, he, h1, Bool.false_eq_true, if_false]

theorem State.sepWithdraw_kept {h : Nat} {e : FEntry} (he : s.entryAt h = some e) (h0 : e.refs + e.holds ≠ 0) :
    s.sepWithdraw h = (false, s) := by
  simp only [State.sepWithdraw, he, h0, if_false]

/-- A DELTA of 0 on an entry that something references: the entry is stored and its counts are answered. -/
theorem State.adjust_zero {h : Nat} {e x : FEntry} (hr : e.refs < 2 ^ 32) (hx : (s.putEntry h e).entryAt h = some x)
    (h0 : x.refs + x.holds ≠ 0) :
    s.adjust d h e 0 = (s.putEntry h e).finish .sep d St.success 0 (refResult e.refs e.holds) := by
  have hneg : ¬ (e.refs : Int) < 0 := by omega
  have hsat : ¬ (2 ^ 32 - 1 : Int) < e.refs := by omega
  simp only [State.adjust, Int.add_zero, hneg, hsat, Int.toNat_natCast, State.sepWithdraw_kept hx h0, Bool.false_eq_true, if_false,
    if_true]

/-! ## MERGE_SCAN (R156) -/

theorem exec_mergeScan_scanned {bs : List Byte} {t : State} (hf : s.startedAt .sep d Op.mergeScan = some f)
    (hl : f.len % 48 = 0) (hr : s.dmaRead .sep f.src f.len (some d.ring) = .ok bs)
    (hb : ((List.range (f.len / 48)).any fun i => s.bucketsBad (slice bs (48 * i) 32)) = false)
    (hw : s.dmaWrite .sep f.dst (s.mergePairs (f.at 28 4) 0 (f.len / 48) bs).2 (some d.ring) = .ok t) :
    exec (.mergeScan d) s = .next (t.finish .sep d St.success (s.mergePairs (f.at 28 4) 0 (f.len / 48) bs).1
      ((s.mergePairs (f.at 28 4) 0 (f.len / 48) bs).2.length / 16)) := by
  refine (State.sepDesc_started hf _).trans ?_
  simp only [hl, hr, hb, hw, ne_eq, not_true, Bool.false_eq_true, if_false]

/-! ## SHARD_STATE and SHARD_DROP_DONE (R153) -/

theorem exec_shardState_entered (hf : s.startedAt .sep d Op.shardState = some f) (h3 : f.at 29 1 ≤ 3)
    (hd : (s.sep.dropping.any fun x => x.1 == f.at 28 1) = false) (hn : f.at 29 1 ≠ Sst.dropping)
    (ha : f.at 29 1 = Sst.absent → s.rd (SEP_SHARD.ENTRIES (f.at 28 1)) = 0 ∧ s.partHeld (f.at 28 1) = false) :
    exec (.shardState d) s = .next ((s.enterPartition (f.at 28 1) (f.at 29 1)).finish .sep d St.success) := by
  have hfree : ¬ (f.at 29 1 = Sst.dropping ∨
      (f.at 29 1 = Sst.absent ∧ (s.rd (SEP_SHARD.ENTRIES (f.at 28 1)) ≠ 0 ∨ s.partHeld (f.at 28 1)))) := by
    rintro (h | ⟨h, hb⟩)
    · exact hn h
    · obtain ⟨h0, hp⟩ := ha h
      simp [h0, hp] at hb
  refine (State.sepDesc_started hf _).trans ?_
  simp only [Nat.not_lt.2 h3, hd, hfree, Bool.false_eq_true, if_false]

theorem State.enterPartition_loaded {sh : Nat} (h : s.sepSt sh ≠ Sst.loaded) :
    s.enterPartition sh Sst.loaded =
      ((s.wr (SEP_SHARD.STATE sh) Sst.loaded).sweepOrphans sh).raise Ev.shardLoaded (some .sep) (some sh) [sh] := by
  simp only [State.enterPartition, h, if_true, if_false]

theorem exec_shardState_dropping (hf : s.startedAt .sep d Op.shardState = some f) (hs : f.at 29 1 = Sst.dropping)
    (hd : (s.sep.dropping.any fun x => x.1 == f.at 28 1) = false) (hp : s.partHeld (f.at 28 1) = false) :
    exec (.shardState d) s = .next (((s.wr (SEP_SHARD.STATE (f.at 28 1)) Sst.dropping).setSep { s.sep with
      dropping := s.sep.dropping ++ [(f.at 28 1, some d)] }).setPhase .sep d .started) := by
  have h3 : ¬ 3 < Sst.dropping := by decide
  refine (State.sepDesc_started hf _).trans ?_
  simp only [hs, h3, hd, hp, Bool.false_eq_true, true_or, if_false, if_true]

end

/-- Settles O18: each clause is the equation of its command under the clause's hypotheses. A freeze is a change with a DELTA of
0, and a partition that becomes LOADED is one that enters a state. -/
theorem separatorDescriptors : Obligations.SeparatorDescriptors := by
  unfold Obligations.SeparatorDescriptors
  refine ⟨?domainSet, ?unmatched, ?unique, ?noInsert, ?duplicate, ?insert, ?release, ?freeze, ?change, ?relocate, ?mergeScan,
    ?loaded, ?entered, ?dropping, ?dropDone⟩
  case domainSet =>
    intro s d f new t hf hl hr hd hc ht hv hw
    exact exec_domainSet_written hf hl (eq_ok_of_toOption hr) hd hc ht hv (eq_ok_of_toOption hw)
  case unmatched =>
    rintro s d f fp t hf hl hd hr hb h0 rfl hff hm
    rw [exec_lookup_answered hf hl hd (eq_ok_of_toOption hr) hb (State.dramLookup_unmatched _ hff hm), h0]
    rfl
  case unique =>
    intro s d f fp t hf hl hd hr hb ha
    exact exec_lookup_answered hf hl hd (eq_ok_of_toOption hr) hb ha
  case noInsert =>
    intro s d f fp t hf hl hd hr hb ha
    exact exec_lookup_answered hf hl hd (eq_ok_of_toOption hr) hb ha
  case duplicate =>
    intro s d f fp h loc sh t u hf hl hd hr hb ha hw
    simp only [exec_lookup_answered hf hl hd (eq_ok_of_toOption hr) hb ha, State.lookupDone, eq_ok_of_toOption hw]
  case insert =>
    intro s d f fp h e t hf hl hd hs hn hr hb hff hm hi hh he hw
    exact exec_insert_indexed hf hl hd hs hn (eq_ok_of_toOption hr) hb hff hm hi hh he (eq_ok_of_toOption hw)
  case release =>
    intro s d f h e hf hw hb he
    exact exec_refAdjust_released hf hw hb (eq_ok_of_toOption he)
  case freeze =>
    intro s d f h e hf hw hb he h2 hz h1 hr _ hx
    have hfl : (f.at 32 1).testBit 0 = false := by rw [h2]; rfl
    have hst : ({ e with state := Est.frozen } : FEntry) =
        { e with state := if (f.at 32 1).testBit 2 then Est.valid
                          else if (f.at 32 1).testBit 1 then Est.frozen else e.state } := by rw [h2]; rfl
    have h0 : e.refs + e.holds ≠ 0 := by omega
    rw [exec_refAdjust_changed hf hw hb (eq_ok_of_toOption he) hfl hst, hz]
    exact congrArg Host.Outcome.next (State.adjust_zero hr hx h0)
  case change =>
    intro s d f h e x hf hw hb he
    exact exec_refAdjust_changed hf hw hb (eq_ok_of_toOption he)
  case relocate =>
    intro s d f h e t hf hb he
    exact exec_relocate_moved hf hb (eq_ok_of_toOption he)
  case mergeScan =>
    intro s d f bs t hf hl hr hb hw
    exact exec_mergeScan_scanned hf hl (eq_ok_of_toOption hr) hb (eq_ok_of_toOption hw)
  case loaded =>
    intro s d f hf hs hd hl
    have h3 : f.at 29 1 ≤ 3 := by rw [hs]; decide
    have hn : f.at 29 1 ≠ Sst.dropping := by rw [hs]; decide
    have ha : f.at 29 1 ≠ Sst.absent := by rw [hs]; decide
    rw [exec_shardState_entered hf h3 hd hn fun h => absurd h ha, hs, State.enterPartition_loaded hl]
  case entered =>
    intro s d f
    exact exec_shardState_entered
  case dropping =>
    intro s d f
    exact exec_shardState_dropping
  case dropDone =>
    rintro s shard d t u hf rfl rfl
    change execShardDropDone shard s = _
    simp only [execShardDropDone, hf]
    cases d <;> rfl

end Sys2Proof.Machine
end

section
/-! The Churn's descriptors and its lane faults (R162, R166 to R172): what a started descriptor that a lane takes goes on to,
then each command. -/
namespace Sys2Proof.Machine
open Sys2Proof

/-! ## Lanes and reads -/

section
variable {s : State} {d : DescRef} {f : Fetched}

theorem State.churnDesc_taken {op : Nat} (hf : s.startedAt .churn d op = some f) (hl : takesLane s.churnTurn (.desc d) = true)
    (k : Fetched → State) : s.churnDesc d op k = .next (k f) := by
  simp only [State.churnDesc, hf, hl, Bool.or_true, if_true]

/-- DICT_LOAD needs no lane. -/
theorem State.churnDesc_dictLoad (hf : s.startedAt .churn d Op.dictLoad = some f) (k : Fetched → State) :
    s.churnDesc d Op.dictLoad k = .next (k f) := by
  simp only [State.churnDesc, hf, beq_self_eq_true, Bool.true_or, if_true]

theorem State.churnRead_ok {a n : Nat} {bs : List Byte} (h : s.dmaRead .churn a n (some d.ring) = .ok bs)
    (k : List Byte → State) : s.churnRead d a n k = k bs := by
  simp only [State.churnRead, h]

theorem State.withDicts_used {ids : List Nat} {t : State} (h : s.useDicts ids = some t) (k : State → State) :
    s.withDicts d ids k = k t := by
  simp only [State.withDicts, h]

/-! ## COMPRESS and RECAST (R168, R170) -/

theorem exec_compress_taken (hf : s.startedAt .churn d Op.compress = some f) (hl : takesLane s.churnTurn (.desc d) = true)
    (hm : f.len % 4096 = 0) (h1 : 4096 ≤ f.len) (h8 : f.len ≤ 32768) (hs : vatSpan f.src f.len = true)
    (hd : inVat f.dst = true) (ho : ownerOk (f.at 36 4) = true) (hr : s.dictRefused (f.at 36 4) (f.at 32 2) = none) :
    exec (.compress d) s = .next (s.churnRead d f.src f.len fun bs => s.withDicts d [f.at 32 2] fun s =>
      s.curdOut d f (f.at 28 4) (curdCompress s.dicts (f.at 36 4) (f.at 34 1) (f.at 32 2) (blocks4k bs))) := by
  refine (State.churnDesc_taken hf hl _).trans ?_
  simp only [hm, Nat.not_lt.2 h1, Nat.not_lt.2 h8, hs, hd, ho, hr, ne_eq, not_true, Bool.not_true, Bool.or_self,
    Bool.false_eq_true, or_self, if_false]

/-- What a RECAST does once the dictionaries of its sources are there: it fails with its first source that does, or writes one
curd of the blocks they select. -/
def State.recastOut (s : State) (d : DescRef) (f : Fetched) : State :=
  match s.recastAll d.ring 0 none f.imgs with
  | .error (i, .inr e) => (s.dmaFailed .churn e).finish .churn d e.status (i + e.status % 65536 * 16)
  | .error (i, .inl e) => (s.sourceEvent d.ring e (f.imgs.getD i [])).finish .churn d e (i + e % 65536 * 16)
  | .ok (owner, blocks) => match s.dictRefused owner (f.at 32 2) with
    | some e => s.finish .churn d e
    | none => s.withDicts d [f.at 32 2] fun t =>
      t.curdOut d f (f.at 28 4) (curdCompress t.dicts owner (f.at 34 1) (f.at 32 2) blocks)

/-- A RECAST that a lane takes: the dictionaries of its sources are used, then its sources are read, then its own dictionary. -/
theorem exec_recast_taken {n : Nat} (hf : s.startedAt .churn d Op.recast = some f)
    (hl : takesLane s.churnTurn (.desc d) = true) (hn : n = (f.imgs.map fun i => popCount (fieldAt i 35 1) 8).sum)
    (h1 : 1 ≤ n) (h8 : n ≤ 8) (hd : inVat f.dst = true) :
    exec (.recast d) s = .next (s.withDicts d (f.imgs.flatMap (s.sourceDicts d.ring 15)) fun t => t.recastOut d f) := by
  subst hn
  have hrange : ¬ ((f.imgs.map fun i => popCount (fieldAt i 35 1) 8).sum = 0 ∨
      8 < (f.imgs.map fun i => popCount (fieldAt i 35 1) 8).sum) := by omega
  refine (State.churnDesc_taken hf hl _).trans ?_
  simp only [hrange, hd, Bool.not_true, Bool.false_eq_true, if_false]
  rfl

/-! ## DECOMPRESS (R166, R169) -/

/-- What a DECOMPRESS without a guard does with the answer of the checks of its curd: COMPARE before CHECK_ONLY before the
output. -/
def State.decompressOut (s : State) (d : DescRef) (f : Fetched) : Except Nat (List (List Byte)) → State
  | .error e => (s.curdEvent f.src e).finish .churn d e
  | .ok blocks =>
    if (f.at 34 1).testBit 1 then s.churnRead d f.dst 4096 fun other =>
      s.finish .churn d St.success 0 (if other = blocks.headD [] then 1 else 0)
    else if (f.at 34 1).testBit 0 then s.finish .churn d St.success
    else if f.at 28 4 < blocks.flatten.length then s.finish .churn d St.outputOverflow
    else if !vatSpan f.dst blocks.flatten.length then s.finish .churn d St.addrInvalid
    else match s.dmaWrite .churn f.dst blocks.flatten (some d.ring) with
      | .error e => s.finishDma .churn d e
      | .ok u => u.finish .churn d St.success blocks.flatten.length

theorem exec_decompress_checked {bs : List Byte} {t : State} (hf : s.startedAt .churn d Op.decompress = some f)
    (hl : takesLane s.churnTurn (.desc d) = true) (hsrc : inVat f.src = true)
    (hdst : (f.at 34 1).testBit 0 = true ∨ inVat f.dst = true) (h96 : 96 ≤ f.len) (hspan : vatSpan f.src f.len = true)
    (hblk : (f.at 34 1).testBit 1 = false ∨ f.at 32 1 ≠ 15) (hk : f.at 33 1 = 0)
    (hr : s.dmaRead .churn f.src f.len (some d.ring) = .ok bs) (hu : s.useDicts (curdDicts s.dicts bs (f.at 32 1)) = some t) :
    exec (.decompress d) s = .next (t.decompressOut d f (curdRead t.dicts bs (f.at 32 1))) := by
  have haddr : (!inVat f.src || (!(f.at 34 1).testBit 0 && !inVat f.dst)) = false := by
    rcases hdst with h | h <;> simp [hsrc, h]
  have hrange : ((f.at 34 1).testBit 1 && f.at 32 1 == 15) = false := by rcases hblk with h | h <;> simp [h]
  have hguard : guardLen (f.at 33 1) = 0 := by rw [hk]; rfl
  refine (State.churnDesc_taken hf hl _).trans ?_
  simp only [haddr, hrange, Nat.not_lt.2 h96, hspan, State.churnRead_ok hr, State.withDicts_used hu, Bool.not_true,
    Bool.false_eq_true, if_false]
  cases curdRead t.dicts bs (f.at 32 1) with
  | error e => rfl
  | ok blocks => simp only [hguard, ne_eq, not_true, false_and, and_false, if_false]; rfl

/-! ## Dictionaries (R162, R172) -/

theorem exec_dictLoad_loaded {bs : List Byte} (hf : s.startedAt .churn d Op.dictLoad = some f) (h0 : 0 < f.len)
    (hl : f.len ≤ 65536) (h1 : 1 ≤ f.at 32 2) (h8 : f.at 32 2 ≤ 8191) (hd : f.at 34 2 ≤ 4095)
    (hu : s.dictUsed (f.at 32 2) = false) (hr : s.dmaRead .churn f.src f.len (some d.ring) = .ok bs)
    (hp : (dictParse bs).toBool = true) :
    exec (.dictLoad d) s = .next (s.draw.tableThen .churn d (s.dictAddr (f.at 32 2)) (s.freeBytes 81920) fun t =>
      ((t.setChurn { t.churn with
        dicts := Tab.set t.churn.dicts (f.at 32 2) { domain := f.at 34 2, bytes := bs, form := s.draws }
        onChip := t.churn.onChip.filter (· != f.at 32 2) }).wr CHURN_STATUS.DICT_RESIDENT
          (t.churn.onChip.filter (· != f.at 32 2)).length).finish .churn d St.success) := by
  have hlen : ¬ (f.len = 0 ∨ 65536 < f.len) := by omega
  have hid : ¬ (f.at 32 2 = 0 ∨ 8191 < f.at 32 2 ∨ 4095 < f.at 34 2) := by omega
  refine (State.churnDesc_dictLoad hf _).trans ?_
  simp only [hlen, hid, hu, State.churnRead_ok hr, Bool.false_eq_true, if_false]
  cases hz : dictParse bs with
  | error e => simp [hz, Except.toBool] at hp
  | ok z => rfl

theorem exec_dictDrop_dropped (hf : s.startedAt .churn d Op.dictDrop = some f) (hs : (s.dicts (f.at 32 2)).isSome = true)
    (hu : s.dictUsed (f.at 32 2) = false) :
    exec (.dictDrop d) s = .next (((s.setChurn { s.churn with
      dicts := Tab.del s.churn.dicts (f.at 32 2)
      onChip := s.churn.onChip.filter (· != f.at 32 2) }).wr CHURN_STATUS.DICT_RESIDENT
        (s.churn.onChip.filter (· != f.at 32 2)).length).finish .churn d St.success) := by
  have hn : (s.dicts (f.at 32 2)).isNone = false := by rw [← Option.not_isSome, hs, Bool.not_true]
  change execDictDrop d s = _
  simp only [execDictDrop, hf, hn, hu, Bool.false_eq_true, if_false]

theorem exec_dictDrop_missing (hf : s.startedAt .churn d Op.dictDrop = some f) (hn : s.dicts (f.at 32 2) = none) :
    exec (.dictDrop d) s = .next (s.finish .churn d St.dictMissing) := by
  change execDictDrop d s = _
  simp only [execDictDrop, hf, hn, Option.isNone_none, if_true]

/-! ## Lane faults (R171) -/

theorem exec_churnLaneFault_desc {lane : Fin 16} (hf : (s.churnLaneFault lane).fetchedAt .churn d = some f) :
    exec (.churnLaneFault lane (.desc d)) s = .next (if f.phase = .fetched then s.churnLaneFault lane
      else (s.churnLaneFault lane).finish .churn d St.unitFault) := by
  change execChurnLaneFault lane (.desc d) s = _
  simp only [execChurnLaneFault, hf]

end

/-- Settles O20: each clause is the equation of its command under the clause's hypotheses. The three clauses of DECOMPRESS are
one equation, split over the answer of the curd's checks. -/
theorem churnDescriptors : Obligations.ChurnDescriptors := by
  unfold Obligations.ChurnDescriptors
  refine ⟨?compress, ?checkOnly, ?output, ?compare, ?recast, ?dictLoad, ?dictDrop, ?dictMissing, ?inlineFault, ?contextFault,
    ?descFault⟩
  case compress =>
    intro s d f
    exact exec_compress_taken
  case checkOnly =>
    intro s d f bs t hf hl hsrc h96 hspan hr hu hchk hcmp hk
    rw [exec_decompress_checked hf hl hsrc (.inl hchk) h96 hspan (.inl hcmp) hk (eq_ok_of_toOption hr) hu]
    cases curdRead t.dicts bs (f.at 32 1) with
    | error e => rfl
    | ok blocks => simp [State.decompressOut, hcmp, hchk]
  case output =>
    intro s d f bs t hf hl hsrc h96 hspan hr hu hchk hcmp hdst hk
    rw [exec_decompress_checked hf hl hsrc (.inr hdst) h96 hspan (.inl hcmp) hk (eq_ok_of_toOption hr) hu]
    cases curdRead t.dicts bs (f.at 32 1) with
    | error e => rfl
    | ok blocks =>
      simp only [State.decompressOut, hcmp, hchk, Bool.false_eq_true, if_false] <;> rfl
  case compare =>
    intro s d f bs t hf hl hsrc h96 hspan hr hu _ hcmp hdst hblk hk
    rw [exec_decompress_checked hf hl hsrc (.inr hdst) h96 hspan (.inr hblk) hk (eq_ok_of_toOption hr) hu]
    cases curdRead t.dicts bs (f.at 32 1) with
    | error e => rfl
    | ok blocks => simp only [State.decompressOut, hcmp, if_true]
  case recast =>
    intro s d f n hf hl hn h1 h8 hd
    exact exec_recast_taken hf hl hn h1 h8 hd
  case dictLoad =>
    intro s d f bs hf h0 hl h1 h8 hd hu hr
    exact exec_dictLoad_loaded hf h0 hl h1 h8 hd hu (eq_ok_of_toOption hr)
  case dictDrop =>
    intro s d f
    exact exec_dictDrop_dropped
  case dictMissing =>
    intro s d f
    exact exec_dictDrop_missing
  case inlineFault =>
    intro s lane k
    rfl
  case contextFault =>
    intro s lane k
    rfl
  case descFault =>
    intro s lane d f
    exact exec_churnLaneFault_desc

end Sys2Proof.Machine
end

section
/-! The Press's numbered contexts (R182, R192): what CTX_CLOSE leaves of the job of a context that the table of jobs lists twice. -/
namespace Sys2Proof.Machine
open Sys2Proof

/-- Freeing a context takes the first entry under its number out of the table of jobs. -/
theorem State.freeCtx_ctx (s : State) (c : Nat) : (s.freeCtx c).press.ctx = Tab.del s.press.ctx c := rfl

/-- A job with nothing absorbed. -/
def emptyJob : PressCtx := ⟨8, false, [], []⟩

/-- A started CTX_CLOSE of context 0. -/
def closeDesc : Fetched := ⟨0, [BitVec.ofNat 8 Op.ctxClose :: zeros 63], .started, 0⟩

/-- Ring 0 of the Press holds a CTX_CLOSE of its open context 0, whose job stands twice in the table of jobs. -/
def jobListedTwice : State :=
  ({ State.reset with press := { ctx := [(0, emptyJob), (0, emptyJob)] } }.setRing .press 0
    { fetched := [closeDesc], prod := 1 }).wr (PRESS_CTX_STATUS.STATE 0) Pst.open_

theorem freeCtx_jobListedTwice : Tab.get? (jobListedTwice.freeCtx 0).press.ctx 0 = some emptyJob := by
  rw [State.freeCtx_ctx]
  rfl

/-- Refutes O21: the clause of CTX_CLOSE says that the table of jobs lists nothing for the closed context, with no premise on
the table. `Tab.del` takes out one entry, so a job listed twice is still there after the close. In a table in canonical order,
which lists no number twice, nothing is (`Tab.get?_del_self`); the same premise is missing in the clause of a HASH with FIRST and
LAST. -/
theorem not_pressHashesAndCloses : ¬ Obligations.PressHashesAndCloses := by
  unfold Obligations.PressHashesAndCloses
  rintro ⟨-, -, -, -, ctxClose, -⟩
  have hstarted : jobListedTwice.startedAt .press ⟨0, 0⟩ Op.ctxClose = some closeDesc := by decide
  obtain ⟨-, -, hnone⟩ := ctxClose _ _ _ hstarted (by decide) (by decide) (by decide) (by decide)
  exact Option.some_ne_none _ (freeCtx_jobListedTwice.symm.trans hnone)

end Sys2Proof.Machine
end

section
/-! The legacy word feed of the Press (R193 to R197): one rule for the writes of the owner and one for those of every other
origin, then what each command does. -/
namespace Sys2Proof.Machine
open Sys2Proof

/-! ## Legacy writes (R193, R194) -/

section
variable {s : State} {o : Nat} {l : Legacy}

theorem State.legacyWrite_owner (hon : s.on PRESS_CTL.LEG_EN = true) (hl : s.press.legacy = some l) (ho : l.owner = o)
    (f : Legacy → State) : s.legacyWrite o f = f { l with idleAt := s.legacyIdleAt } := by
  simp only [State.legacyWrite, hon, hl, ho, Bool.not_true, Bool.false_eq_true, if_false, if_true]

theorem State.legacyWrite_foreign (hon : s.on PRESS_CTL.LEG_EN = true) (hl : s.press.legacy = some l) (ho : l.owner ≠ o)
    (f : Legacy → State) : s.legacyWrite o f = s.legacyRefused o l.owner := by
  simp only [State.legacyWrite, hon, hl, ho, Bool.not_true, Bool.false_eq_true, if_false]

end

theorem State.legacyRefused_press (s : State) (o owner : Nat) : (s.legacyRefused o owner).press = s.press :=
  State.raise_press ..

/-! ## Starting and releasing (R193, R195) -/

/-- The legacy context locked to an origin with an empty job, and its results zeroed. -/
def State.legacyBegun (s : State) (o alg length : Nat) : State :=
  (s.setLegacy (some { owner := o, alg := alg, length := length, idleAt := s.legacyIdleAt,
                       err := if (algOf alg).isSome then 0 else St.algInvalid })).setLegResult []

section
variable {s : State} {origin : Origin} {l : Legacy}

theorem exec_legacyStart_unlocked (hon : s.on PRESS_CTL.LEG_EN = true) (hl : s.press.legacy = none) (alg length : Nat) :
    exec (.legacyStart origin alg length) s = .next (s.legacyBegun origin.toNat alg length) := by
  change execLegacyStart origin alg length s = _
  simp only [execLegacyStart, hon, hl, Option.isNone_none, Bool.and_self, if_true]
  rfl

theorem exec_legacyStart_locked (hl : s.press.legacy = some l) (alg length : Nat) :
    exec (.legacyStart origin alg length) s =
      .next (s.legacyWrite origin.toNat fun _ => s.legacyBegun origin.toNat alg length) := by
  change execLegacyStart origin alg length s = _
  simp only [execLegacyStart, hl, Option.isNone_some, Bool.and_false, Bool.false_eq_true, if_false]
  rfl

/-- Origin 0x0200 releases the lock whoever owns it. -/
theorem exec_legacyRelease_byIsland (hon : s.on PRESS_CTL.LEG_EN = true) (hl : s.press.legacy = some l)
    (ho : origin.toNat = 0x200) : exec (.legacyRelease origin) s = .next s.legacyRelease := by
  change execLegacyRelease origin s = _
  simp only [execLegacyRelease, hon, hl, ho, Option.isSome_some, beq_self_eq_true, Bool.and_self, if_true]

theorem exec_legacyRelease_owner (hon : s.on PRESS_CTL.LEG_EN = true) (hl : s.press.legacy = some l)
    (ho : l.owner = origin.toNat) : exec (.legacyRelease origin) s = .next s.legacyRelease := by
  change execLegacyRelease origin s = _
  simp only [execLegacyRelease, State.legacyWrite_owner hon hl ho, ite_self]

end

/-! ## The job of the owner (R195, R196) -/

theorem Legacy.need_touched (l : Legacy) (t n : Nat) : Legacy.need { l with idleAt := t, fifo := n } = l.need := by
  simp only [Legacy.need]

theorem Legacy.keyed_touched (l : Legacy) (t n : Nat) : Legacy.keyed { l with idleAt := t, fifo := n } = l.keyed := by
  simp only [Legacy.keyed]

theorem Legacy.not_keyMissing {l : Legacy} (h : l.keyed = true → l.key.isSome = true) :
    ¬ (l.keyed = true ∧ l.key.isNone = true) := by
  rintro ⟨hk, hn⟩
  exact absurd (h hk) (by simp [Option.isNone_iff_eq_none.1 hn])

section
variable {s : State} {origin : Origin} {l : Legacy}
variable (hon : s.on PRESS_CTL.LEG_EN = true) (hl : s.press.legacy = some l) (ho : l.owner = origin.toNat) (he : l.err = 0)
include hon hl ho he

theorem exec_legacyKey_bound {handle : Word} {x : Alg} (ha : algOf l.alg = some x)
    (hk : s.keyCheck l.alg x handle.toNat false = none) :
    exec (.legacyKey origin handle) s = .next
      (s.setLegacy (some { l with idleAt := s.legacyIdleAt, key := (s.resolve handle.toNat).map Prod.snd })) := by
  change execLegacyKey origin handle s = _
  simp only [execLegacyKey, State.legacyWrite_owner hon hl ho, he, ha, hk, ne_eq, not_true, if_false]

theorem exec_legacyData_taken {word : Word} {drained : Nat} (hk : l.keyed = true → l.key.isSome = true)
    (hw : l.words < l.need) (hf : l.fifo - drained < 32) :
    exec (.legacyData origin word drained) s = .next
      (s.setLegacy (some { l with idleAt := s.legacyIdleAt, fifo := l.fifo - drained + 1, words := l.words + 1,
                                  data := l.data ++ leBytes 8 word.toNat })) := by
  have herr : ¬ l.err ≠ 0 := fun h => h he
  change execLegacyData origin word drained s = _
  simp only [execLegacyData, State.legacyWrite_owner hon hl ho, herr, Legacy.need_touched, Legacy.keyed_touched,
    Nat.not_le.2 hw, Legacy.not_keyMissing hk, Nat.not_le.2 hf, if_false]

theorem exec_legacyData_overrun {word : Word} {drained : Nat} (hw : l.need ≤ l.words) :
    exec (.legacyData origin word drained) s =
      .next (s.legacyError { l with idleAt := s.legacyIdleAt, fifo := l.fifo - drained } St.pressOverrun) := by
  have herr : ¬ l.err ≠ 0 := fun h => h he
  change execLegacyData origin word drained s = _
  simp only [execLegacyData, State.legacyWrite_owner hon hl ho, herr, Legacy.need_touched, hw, if_false, if_true]

theorem exec_legacyFinal_begun (hf : l.final = false) (hd : l.done = false) (hk : l.keyed = true → l.key.isSome = true)
    (hw : l.need ≤ l.words) :
    exec (.legacyFinal origin) s = .next (s.setLegacy (some { l with idleAt := s.legacyIdleAt, final := true })) := by
  have hrun : ¬ (l.err ≠ 0 ∨ l.final = true ∨ l.done = true) := by simp [he, hf, hd]
  change execLegacyFinal origin s = _
  simp only [execLegacyFinal, State.legacyWrite_owner hon hl ho, hrun, Legacy.need_touched, Legacy.keyed_touched,
    Nat.not_lt.2 hw, Legacy.not_keyMissing hk, if_false]

end

/-! ## The result (R179, R194, R195, R197) -/

section
variable {s : State} {origin : Origin} {w : Fin 8} {l : Legacy}

theorem exec_legacyHashDone_finished (hl : s.press.legacy = some l) (hf : l.final = true)
    (ht : takesLane s.pressTurn .legacy = true) :
    exec .legacyHashDone s = .next (((s.servedCtx 64).setLegacy
      (some { l with final := false, done := true, fifo := 0, key := none, data := [] })).setLegResult
        (digest l.alg (l.key.getD []) (l.data.take l.length) 64)) := by
  change execLegacyHashDone s = _
  simp only [execLegacyHashDone, hl, hf, ht, Bool.not_true, Bool.or_self, Bool.false_eq_true, if_false]

theorem State.legacyResult_owner {o n : Nat} (hon : s.on PRESS_CTL.LEG_EN = true) (hl : s.press.legacy = some l)
    (ho : l.owner = o) : s.legacyResult o n =
      if l.done then (s.setLegacy (some { l with idleAt := s.legacyIdleAt }), s.rd (PRESS_LEG_RESULT.VALUE n))
      else ((s.setLegacy (some { l with idleAt := s.legacyIdleAt, early := true,
                                        err := if l.err = 0 then St.earlyRead else l.err })).raise Ev.earlyRead
              (some .press) none [64, o] (some o), 0) := by
  simp only [State.legacyResult, hon, hl, ho, bne_self_eq_false, Bool.not_true, Bool.or_self, Bool.false_eq_true, if_false]

theorem State.legacyResult_foreign {o n : Nat} (hl : s.press.legacy = some l) (ho : l.owner ≠ o) :
    s.legacyResult o n = (s, 0) := by
  simp only [State.legacyResult, hl, bne_iff_ne.2 ho, Bool.or_true, if_true]

theorem exec_legacyResultRead : exec (.legacyResultRead origin w) s =
    .next ((s.legacyResult origin.toNat w).1.readReturn (some (s.legacyResult origin.toNat w).2)) := rfl

/-- Writes of registers at different places read back, each cut to its width. -/
theorem State.rd_foldl_wr {F : Nat → Fld} {v : Nat → Nat} (hF : ∀ a b, (F a).key = (F b).key → a = b) (s : State) (n : Nat) :
    ∀ w < n, ((List.range n).foldl (fun s w => s.wr (F w) (v w)) s).rd (F w) = v w % 2 ^ (F w).w := by
  induction n with
  | zero => intro w h; omega
  | succ n ih =>
    intro w h
    rw [List.range_succ, List.foldl_append, List.foldl_cons, List.foldl_nil]
    by_cases hw : w = n
    · rw [hw, State.rd_wr_self]
    · rw [State.rd_wr_ne _ _ fun hk => hw (hF _ _ hk), ih w (by omega)]

theorem State.rd_setLegResult (s : State) (bs : List Byte) {w : Nat} (hw : w < 8) :
    (s.setLegResult bs).rd (PRESS_LEG_RESULT.VALUE w) = fieldAt (bs ++ zeros 64) (8 * w) 8 % 2 ^ 64 :=
  State.rd_foldl_wr (F := PRESS_LEG_RESULT.VALUE) (fun a b h => by simp only [Fld.key, PRESS_LEG_RESULT.VALUE] at h; omega)
    s 8 w hw

theorem State.rd_legacyRelease (s : State) {w : Nat} (hw : w < 8) : s.legacyRelease.rd (PRESS_LEG_RESULT.VALUE w) = 0 := by
  have hz : ∀ w < 8, fieldAt ([] ++ zeros 64) (8 * w) 8 = 0 := by decide
  rw [State.legacyRelease, State.rd_setLegResult _ _ hw, hz w hw, Nat.zero_mod]

theorem exec_legacyIdleExpiry_passed (hl : s.press.legacy = some l) (hp : s.passed l.idleAt = true) :
    exec .legacyIdleExpiry s = .next (s.legacyRelease.raise Ev.legacyIdle (some .press) none [l.owner]) := by
  change execLegacyIdleExpiry s = _
  simp only [execLegacyIdleExpiry, hl, hp, if_true]

end

/-- Settles O22: each clause is the equation of its command under the clause's hypotheses; a write of another origin is one rule
for every command, and the results a release leaves are the bytes of an empty digest. -/
theorem pressLegacyWordFeed : Obligations.PressLegacyWordFeed := by
  unfold Obligations.PressLegacyWordFeed
  refine ⟨?restart, ?start, ?foreign, ?key, ?data, ?overrun, ?final, ?hashDone, ?earlyRead, ?resultRead, ?foreignRead,
    ?release, ?islandRelease, ?idle⟩
  case restart =>
    intro s origin alg length l hon hl ho
    rw [exec_legacyStart_locked hl, State.legacyWrite_owner hon hl ho]
    rfl
  case start =>
    intro s origin alg length hon hl
    exact exec_legacyStart_unlocked hon hl alg length
  case foreign =>
    intro s origin alg length l hon hl ho
    have refused := State.legacyWrite_foreign hon hl ho
    refine ⟨?_, congrArg Host.Outcome.next (refused _), congrArg Host.Outcome.next (refused _), State.legacyRefused_press ..⟩
    rw [exec_legacyStart_locked hl, refused]
  case key =>
    intro s origin handle l x hon hl ho he
    exact exec_legacyKey_bound hon hl ho he
  case data =>
    intro s origin word drained l hon hl ho he
    exact exec_legacyData_taken hon hl ho he
  case overrun =>
    intro s origin word drained l hon hl ho he
    exact exec_legacyData_overrun hon hl ho he
  case final =>
    intro s origin l hon hl ho he
    exact exec_legacyFinal_begun hon hl ho he
  case hashDone =>
    intro s l
    exact exec_legacyHashDone_finished
  case earlyRead =>
    intro s origin w l hon hl ho hd
    rw [exec_legacyResultRead, State.legacyResult_owner hon hl ho, hd, if_neg Bool.false_ne_true]
  case resultRead =>
    intro s origin w l hon hl ho hd
    rw [exec_legacyResultRead, State.legacyResult_owner hon hl ho, hd, if_pos rfl]
  case foreignRead =>
    intro s origin w l _ hl ho
    rw [exec_legacyResultRead, State.legacyResult_foreign hl ho]
  case release =>
    intro s origin l
    exact exec_legacyRelease_owner
  case islandRelease =>
    intro s origin l
    exact exec_legacyRelease_byIsland
  case idle =>
    intro s l hl hp
    exact ⟨exec_legacyIdleExpiry_passed hl hp, fun w => State.rd_legacyRelease s⟩

end Sys2Proof.Machine
end

section
/-! The Carcase's descriptors (R209, R211, R215, R217, R219, R222, R232, R233): one equation for each shared step of theirs, then
what each command does where its operands are in range. -/
namespace Sys2Proof.Machine
open Sys2Proof

/-! ## Steps with medium outcomes -/

/-- Two steps that agree whatever the Cellar's script is agree when they meet the same medium outcomes. -/
theorem State.scripted_congr {s : State} {ms : List Medium} {g h : State → State}
    (hgh : ∀ c : Cell, c.shards = s.cell.shards → g (s.setCell c) = h (s.setCell c)) : s.scripted ms g = s.scripted ms h := by
  simp only [State.scripted, hgh { s.cell with script := ms } rfl]

section
variable {s : State} {d : DescRef} {f : Fetched}

/-! ## ENCODE, DECODE, PATCH_DELTA and VERIFY (R215, R232, R233) -/

theorem State.carcStarted_taken {op : Nat} (hf : s.startedAt .carc d op = some f) (hs : carcShape f = none)
    (hl : s.carcLane = true) (k : Fetched → State) : s.carcStarted d op k = .next (k f) := by
  simp only [State.carcStarted, hf, hs, hl, if_true]

/-- The masks of the columns that a DECODE has and of those it is to solve are in range: GEOMETRY_INVALID does not fire (R233). -/
theorem decode_masks_inRange {w p avail out : Nat} (ha : avail < 2 ^ w) (ho : out < 2 ^ w) (hd : avail &&& out = 0)
    (hp : popCount out 16 ≤ p) : ¬ (2 ^ w ≤ avail ∨ 2 ^ w ≤ out ∨ avail &&& out ≠ 0 ∨ p < popCount out 16) := by
  rintro (h | h | h | h)
  · exact Nat.not_le.2 ha h
  · exact Nat.not_le.2 ho h
  · exact h hd
  · exact Nat.not_lt.2 hp h

/-- What DECODE solves from the buffers of the first K available columns: the wanted columns, their number and 0. -/
def Fetched.decodeOut (f : Fetched) (bs : List (List Byte)) : List (Nat × List Byte) × Nat × Nat :=
  (((List.range (f.at 28 1 + f.at 29 1)).filter (f.at 34 2).testBit).map fun c => (c, columnOf (f.at 28 1) f.len
    (solveData (f.at 28 1) ((((List.range (f.at 28 1 + f.at 29 1)).filter (f.at 32 2).testBit).take (f.at 28 1)).zip bs)) c),
   ((List.range (f.at 28 1 + f.at 29 1)).filter (f.at 34 2).testBit).length, 0)

/-- A DECODE whose masks are in range lacks columns, or solves the wanted ones from the first K available. -/
theorem exec_decode_masked (hf : s.startedAt .carc d Op.decode = some f) (hs : carcShape f = none) (hl : s.carcLane = true)
    (ha : f.at 32 2 < 2 ^ (f.at 28 1 + f.at 29 1)) (ho : f.at 34 2 < 2 ^ (f.at 28 1 + f.at 29 1))
    (hd : f.at 32 2 &&& f.at 34 2 = 0) (hp : popCount (f.at 34 2) 16 ≤ f.at 29 1) :
    exec (.decode d) s = .next (if popCount (f.at 32 2) 16 < f.at 28 1 then s.finish .carc d St.decodeInsufficient
      else s.carcJob d f (f.at 28 1 + f.at 29 1) (fun i => (f.at 32 2).testBit i || (f.at 34 2).testBit i)
        (((List.range (f.at 28 1 + f.at 29 1)).filter (f.at 32 2).testBit).take (f.at 28 1)) f.decodeOut) := by
  refine (State.carcStarted_taken hf hs hl _).trans ?_
  simp only [decode_masks_inRange ha ho hd hp, if_false]
  rfl

theorem exec_patchDelta_taken (hf : s.startedAt .carc d Op.patchDelta = some f) (hs : carcShape f = none)
    (hl : s.carcLane = true) (hj : f.at 30 1 < f.at 28 1) :
    exec (.patchDelta d) s = .next (s.carcJob d f (2 + 2 * f.at 29 1) (fun _ => true) (List.range (2 + f.at 29 1)) fun bs =>
      ((List.range (f.at 29 1)).map fun i => (2 + f.at 29 1 + i, xorBytes (bs.getD (2 + i) [])
        (gfScale (gfCoef i (f.at 30 1)) (xorBytes (bs.getD 0 []) (bs.getD 1 [])))), 0, 0)) := by
  refine (State.carcStarted_taken hf hs hl _).trans ?_
  simp only [Nat.not_le.2 hj, if_false]

/-! ## LOCATE (R211, R233) -/

theorem exec_locate_found (hf : s.startedAt .carc d Op.locate = some f) (hF : f.at 32 4 < 2 ^ 29) (hS : f.at 36 1 ≤ 31)
    (hp : f.at 28 1 ≤ 15) (hv : s.on (CARC_POOL.VALID (f.at 28 1)) = true)
    (hg : genValid (s.genEntry (f.at 28 1) (f.at 29 1)) = true) :
    exec (.locate d) s = .next (s.finish .carc d St.success
      (((s.lostCols (f.at 28 1) (f.at 29 1) (f.at 32 4) (f.at 36 1)).map fun c => 2 ^ c).sum +
        genW (s.genEntry (f.at 28 1) (f.at 29 1)) * 2 ^ 16)
      (((s.line (f.at 28 1) (f.at 29 1) (f.at 32 4) (f.at 36 1)).zipIdx.map fun (x : Nat × Nat) =>
        x.1 * 2 ^ (4 * x.2)).sum)) := by
  change execLocate d s = _
  simp only [execLocate, hf, Nat.not_le.2 hF, Nat.not_lt.2 hS, Nat.not_lt.2 hp, hv, hg, Bool.not_true, Bool.false_eq_true,
    or_self, if_false]

/-! ## Intents (R219) -/

/-- A region whose bit stands needs no program (R219). -/
theorem State.acquire_bitSet {sh pool frame : Nat} (h : s.carc.bits.contains (sh, pool, regionOf frame) = true) :
    (s.acquire sh pool frame).1 = some 0 := by
  simp only [State.acquire, h, if_true]

/-- What INTENT_ACQUIRE does with the answer of the intent: it completes, or it waits (R219). -/
def State.acquireThen (s : State) (d : DescRef) (f : Fetched) : State :=
  match s.acquire (f.at 29 1) (f.at 28 1) (f.at 32 4) with
  | (some n, u) => u.finish .carc d St.success n
  | (none, u) => u

theorem State.acquireThen_some {n : Nat} (h : (s.acquire (f.at 29 1) (f.at 28 1) (f.at 32 4)).1 = some n) :
    s.acquireThen d f = (s.acquire (f.at 29 1) (f.at 28 1) (f.at 32 4)).2.finish .carc d St.success n := by
  simp only [State.acquireThen]
  generalize s.acquire (f.at 29 1) (f.at 28 1) (f.at 32 4) = answer at h ⊢
  obtain ⟨a, u⟩ := answer
  obtain rfl : a = some n := h
  rfl

theorem exec_intentAcquire_room {ms : List Medium} (hf : s.startedAt .carc d Op.intentAcquire = some f)
    (hc : s.intentCheck (f.at 28 1) (f.at 29 1) (f.at 32 4) = none)
    (hr : s.carc.opens.length < 2 ^ s.rd CARC_INTENT_CFG.LOG2_ENTRIES ∨
      (Tab.get? s.carc.opens (openKey (f.at 29 1) (f.at 28 1) (regionOf (f.at 32 4)))).isSome = true) :
    exec (.intentAcquire d ms) s = .next (s.scripted ms fun t => t.acquireThen d f) := by
  have hroom : ¬ (2 ^ s.rd CARC_INTENT_CFG.LOG2_ENTRIES ≤ s.carc.opens.length ∧
      (Tab.get? s.carc.opens (openKey (f.at 29 1) (f.at 28 1) (regionOf (f.at 32 4)))).isNone = true) := by
    rintro ⟨hfull, hnone⟩
    rcases hr with h | h
    · exact Nat.not_le.2 h hfull
    · exact Option.isSome_iff_ne_none.1 h (Option.isNone_iff_eq_none.1 hnone)
  change execIntentAcquire d ms s = _
  simp only [execIntentAcquire, hf, hc, hroom, if_false]
  rfl

theorem State.giveBack_open {sh pool frame : Nat} (h : (Tab.get? s.carc.opens (openKey sh pool (regionOf frame))).isSome = true) :
    (s.giveBack sh pool frame).1 = true := by
  obtain ⟨n, hn⟩ := Option.isSome_iff_exists.1 h
  simp only [State.giveBack, hn]

theorem exec_intentRelease_checked (hf : s.startedAt .carc d Op.intentRelease = some f)
    (hc : s.intentCheck (f.at 28 1) (f.at 29 1) (f.at 32 4) = none) :
    exec (.intentRelease d) s = .next ((s.giveBack (f.at 29 1) (f.at 28 1) (f.at 32 4)).2.finish .carc d
      (if (s.giveBack (f.at 29 1) (f.at 28 1) (f.at 32 4)).1 then St.success else St.intentNotHeld)) := by
  change execIntentRelease d s = _
  simp only [execIntentRelease, hf, hc]
  rcases s.giveBack (f.at 29 1) (f.at 28 1) (f.at 32 4) with ⟨_ | _, t⟩ <;> rfl

/-! ## REBUILD_CTL (R217) -/

/-- A running, unpaused rebuild may be paused. -/
theorem State.rebuildAction_pause {b : Nat} (hr : s.carc.running.contains b = true)
    (hp : s.on (CARC_BLADE.PAUSED b) = false) : s.rebuildAction b 1 = some (s.wr (CARC_BLADE.PAUSED b) 1) := by
  simp only [State.rebuildAction, hr, hp, Bool.not_false, Bool.and_self, Nat.one_ne_zero, if_false, if_true]

/-- REBUILD_CTL of a member of a VALID pool: the answer is that of its ACTION. -/
theorem exec_rebuildCtl_member (hf : s.startedAt .carc d Op.rebuildCtl = some f) (hp : f.at 28 1 ≤ 15) (hb : f.at 29 1 ≤ 15)
    (hv : s.on (CARC_POOL.VALID (f.at 28 1)) = true)
    (hm : (s.rd (CARC_POOL.MEMBERS (f.at 28 1))).testBit (f.at 29 1) = true) :
    exec (.rebuildCtl d) s = match s.rebuildAction (f.at 29 1) (f.at 30 1) with
      | none => .next (s.finish .carc d St.rebuildState (s.carcSt (f.at 29 1)))
      | some t => .next (t.finish .carc d St.success (t.carcSt (f.at 29 1))) := by
  change execRebuildCtl d s = _
  simp only [execRebuildCtl, hf]
  exact if_neg (by simp [Nat.not_lt.2 hp, Nat.not_lt.2 hb, hv, hm])

theorem exec_rebuildCtl_allowed {t : State} (hf : s.startedAt .carc d Op.rebuildCtl = some f) (hp : f.at 28 1 ≤ 15)
    (hb : f.at 29 1 ≤ 15) (hv : s.on (CARC_POOL.VALID (f.at 28 1)) = true)
    (hm : (s.rd (CARC_POOL.MEMBERS (f.at 28 1))).testBit (f.at 29 1) = true)
    (ha : s.rebuildAction (f.at 29 1) (f.at 30 1) = some t) :
    exec (.rebuildCtl d) s = .next (t.finish .carc d St.success (t.carcSt (f.at 29 1))) := by
  simp only [exec_rebuildCtl_member hf hp hb hv hm, ha]

/-! ## GEN_SET (R209) -/

theorem genValid_of_genEntryOk {pool : Nat} {e : List Byte} (h : s.genEntryOk pool e = true) : genValid e = true := by
  simp only [State.genEntryOk, Bool.and_eq_true] at h
  obtain ⟨⟨⟨⟨⟨⟨hv, -⟩, -⟩, -⟩, -⟩, -⟩, -⟩ := h
  exact hv

/-- GEN_SET of a VALID pool whose entry was read and whose slot is free or released: it releases the slot, or writes an entry
that is in range. -/
theorem exec_genSet_read {e : List Byte} (hf : s.startedAt .carc d Op.genSet = some f) (hl : f.len = 16) (hp : f.at 28 1 ≤ 15)
    (hv : s.on (CARC_POOL.VALID (f.at 28 1)) = true) (hr : s.dmaRead .carc f.src 16 (some d.ring) = .ok e)
    (hfree : genValid (s.genEntry (f.at 28 1) (f.at 29 1)) = false ∨ (f.at 30 1).testBit 1 = true) :
    exec (.genSet d) s = .next (
      if (f.at 30 1).testBit 1 ∧ !(f.at 30 1).testBit 0 ∧ !genValid e then
        s.tableThen .carc d (s.genAddr (f.at 28 1) (f.at 29 1)) (zeros 16) fun t => t.forgetRetired.finish .carc d St.success
      else if !s.genEntryOk (f.at 28 1) e then s.finish .carc d St.genInvalid
      else s.tableThen .carc d (s.genAddr (f.at 28 1) (f.at 29 1)) e fun t =>
        (if (f.at 30 1).testBit 0 then t.forgetRetired.makeCurrent (f.at 28 1) (f.at 29 1) else t.forgetRetired).finish
          .carc d St.success) := by
  have hbusy : ¬ (genValid (s.genEntry (f.at 28 1) (f.at 29 1)) = true ∧ (!(f.at 30 1).testBit 1) = true) := by
    rintro ⟨hval, hrel⟩
    rcases hfree with h | h
    · simp [h] at hval
    · simp [h] at hrel
  change execGenSet d s = _
  simp only [execGenSet, hf, hl, hr, Nat.not_lt.2 hp, hv, hbusy, ne_eq, not_true, Bool.not_true, Bool.false_eq_true, or_self,
    if_false, apply_ite Host.Outcome.next]

/-! ## RESYNC (R222) -/

/-- What RESYNC does where its pool and shard are valid: the regions of its range that hold a frame are visited. -/
theorem exec_resync_checked {ms : List Medium} (hf : s.startedAt .carc d Op.resync = some f)
    (hc : s.intentCheck (f.at 28 1) (f.at 29 1) 0 = none) :
    exec (.resync d ms) s = .next (s.scripted ms fun t =>
      ((t.resyncRegions (f.at 29 1) (f.at 28 1) (t.rangeRegions (f.at 29 1) (f.at 28 1) (f.at 32 4) (f.at 36 4))).2.raise
        Ev.resyncDone (some .carc) (some (f.at 29 1)) [f.at 29 1]).finish .carc d St.success
          (t.rangeRegions (f.at 29 1) (f.at 28 1) (f.at 32 4) (f.at 36 4)).length
          (t.resyncRegions (f.at 29 1) (f.at 28 1) (t.rangeRegions (f.at 29 1) (f.at 28 1) (f.at 32 4) (f.at 36 4))).1) := by
  change execResync d ms s = _
  simp only [execResync, hf, hc]

/-- A Cellar without shards holds no frame. -/
theorem State.rangeRegions_noShards (h : s.cell.shards = []) (sh pool first n : Nat) : s.rangeRegions sh pool first n = [] := by
  simp [State.rangeRegions, State.cshard, h, Tab.getD, Tab.get?]

end

/-- Settles O26: each clause is the equation of its command under the clause's hypotheses. The two clauses of DECODE, and the two
of GEN_SET, are one equation, split over the columns there and over RELEASE; an intent on a region whose bit stands is the case
of an acquire that needs no program. -/
theorem carcaseDescriptors : Obligations.CarcaseDescriptors := by
  unfold Obligations.CarcaseDescriptors
  refine ⟨?encode, ?decode, ?insufficient, ?patchDelta, ?verify, ?locate, ?acquireSet, ?acquire, ?release, ?pause, ?allowed,
    ?refused, ?genWritten, ?genReleased, ?resyncNone, ?resync⟩
  case encode =>
    intro s d f hf hs hl
    exact State.carcStarted_taken hf hs hl _
  case decode =>
    intro s d f hf hs hl ha ho hd hp hk
    rw [exec_decode_masked hf hs hl ha ho hd hp, if_neg (Nat.not_lt.2 hk)]
    rfl
  case insufficient =>
    intro s d f hf hs hl ha ho hd hp hk
    rw [exec_decode_masked hf hs hl ha ho hd hp, if_pos hk]
  case patchDelta =>
    intro s d f
    exact exec_patchDelta_taken
  case verify =>
    intro s d f hf hs hl
    exact State.carcStarted_taken hf hs hl _
  case locate =>
    intro s d f
    exact exec_locate_found
  case acquireSet =>
    intro s d f ms hf hc hr hb
    rw [exec_intentAcquire_room hf hc (.inl hr)]
    exact congrArg Host.Outcome.next (State.scripted_congr fun c _ =>
      State.acquireThen_some (State.acquire_bitSet (s := s.setCell c) hb))
  case acquire =>
    intro s d f ms
    exact exec_intentAcquire_room
  case release =>
    intro s d f hf hc ho
    rw [exec_intentRelease_checked hf hc, State.giveBack_open ho, if_pos rfl]
  case pause =>
    rintro s d f t hf hp hb hv hm h1 hr hn rfl
    exact exec_rebuildCtl_allowed hf hp hb hv hm (by rw [h1, State.rebuildAction_pause hr hn])
  case allowed =>
    intro s d f t
    exact exec_rebuildCtl_allowed
  case refused =>
    intro s d f hf hp hb hv hm ha
    simp only [exec_rebuildCtl_member hf hp hb hv hm, ha]
  case genWritten =>
    intro s d f e t hf hl hp hv hr hfree hok hw
    rw [exec_genSet_read hf hl hp hv (eq_ok_of_toOption hr) hfree]
    simp only [genValid_of_genEntryOk hok, hok, State.tableThen_ok (eq_ok_of_toOption hw), Bool.not_true, Bool.false_eq_true,
      and_false, if_false]
  case genReleased =>
    intro s d f e t hf hl hp hv hr hrel hmk hval hw
    rw [exec_genSet_read hf hl hp hv (eq_ok_of_toOption hr) (.inr hrel)]
    simp only [hrel, hmk, hval, State.tableThen_ok (eq_ok_of_toOption hw), Bool.not_false, and_self, if_true]
  case resyncNone =>
    intro s d f ms hf hc hn
    rw [exec_resync_checked hf hc]
    refine congrArg Host.Outcome.next (State.scripted_congr fun c hcs => ?_)
    rw [State.rangeRegions_noShards (hcs.trans hn)]
    rfl
  case resync =>
    intro s d f ms
    exact exec_resync_checked

end Sys2Proof.Machine
end

section
/-! Rebuild, resynchronisation, the patrol and the timers of the Carcase (R217 to R227, R235, R236): what each of its own commands
does where its event takes place. -/
namespace Sys2Proof.Machine
open Sys2Proof

section
variable {s : State}

/-! ## Rebuild and the grace time (R217, R227) -/

/-- A configuration-class write that is admitted takes its effect and is journaled (R43, R409). -/
theorem State.cfgField_admitted {u : UnitId} {o : Origin} (h : s.admits u o = true) (g : Fld) (v : Nat) (eff : State → State) :
    s.cfgField u o g v eff = s.journaled (eff s) o g v := by
  simp only [State.admits, Bool.and_eq_true, Bool.not_eq_true'] at h
  obtain ⟨⟨hthere, hroom⟩, hfree⟩ := h
  simp only [State.cfgField, State.regWrite, State.audited, hthere, hroom, hfree, Bool.true_or, Bool.not_true, Bool.and_false,
    Bool.false_eq_true, if_false]
  rfl

theorem exec_rebuildStripe_running {b : Fin 16} {ms : List Medium} (he : s.on CARC_CTL.EN = true)
    (hr : s.carc.running.contains b.val = true) (hp : s.on (CARC_BLADE.PAUSED b) = false) :
    exec (.rebuildStripe b ms) s = .next (s.scripted ms fun t => ((match t.nextStripe b with
      | none => t
      | some (sh, w, st, _) => (t.rebuildStripe sh w st (if t.carcSt b = Cbs.exhausted then some b.val else none)).countStripe
          b sh w).countRebuild b).retireDone b) := by
  change execRebuildStripe b ms s = _
  unfold execRebuildStripe
  exact if_neg (by simp only [he, hr, hp, Bool.not_true, Bool.false_eq_true, or_self, not_false_eq_true])

theorem exec_graceExpiry (b : Fin 16) (s : State) :
    exec (.graceExpiry b) s = .next
      (if s.carcSt b = Cbs.absent ∧ s.due (Tab.get? s.carc.grace b) = true then s.bladeLost b Cbs.failed else s) := by
  change execGraceExpiry b s = _
  simp only [execGraceExpiry, apply_ite Host.Outcome.next]

/-! ## The intent flush and resynchronisation (R219, R222) -/

theorem exec_intentFlush_due (h : s.due s.carc.flushAt = true) (ms : List Medium) :
    exec (.intentFlush ms) s = .next (s.scripted ms fun t =>
      (t.setCarc { t.carc with flushAt := none }).flushPages.foldl State.flushPage
        (t.setCarc { t.carc with flushAt := none })) := by
  change execIntentFlush ms s = _
  simp only [execIntentFlush, h, Bool.true_eq_false, if_false]

/-- A bitmap without bits has no page to program. -/
theorem State.flushPages_noBits (h : s.carc.bits = []) : s.flushPages = [] := by
  simp only [State.flushPages, h, List.filter_nil, List.foldl_nil]

theorem exec_resyncRegion_dirty {shard : Fin 256} {pool : Fin 16} {region : Nat} (he : s.on CARC_CTL.EN = true)
    (ho : s.rd (PAR_SHARD.STATE shard) = Pst.owned) (hb : s.carc.bits.contains (shard.val, pool.val, region) = true)
    (ms : List Medium) :
    exec (.resyncRegion shard pool region ms) s = .next (s.scripted ms fun t =>
      if (t.carc.dirty.any fun x => x.1 == shard.val) = true ∧
          ¬ ((t.resyncRegion shard pool region).2.carc.dirty.any fun x => x.1 == shard.val) = true
      then (t.resyncRegion shard pool region).2.raise Ev.resyncDone (some .carc) (some shard.val) [shard.val]
      else (t.resyncRegion shard pool region).2) := by
  change execResyncRegion shard pool region ms s = _
  simp only [execResyncRegion, he, ho, hb, ne_eq, not_true, Bool.not_true, Bool.false_eq_true, or_self, if_false,
    Bool.not_eq_true', Bool.not_eq_true]

/-! ## The patrol (R224) -/

/-- The patrol visits the next stripe of its pass, or leaves one with a rebuild in progress for the end of the pass. -/
theorem exec_patrolStripe_next {x : Nat × Nat × Nat} {t u : State} {ms : List Medium} (he : s.on CARC_CTL.EN = true)
    (hp : s.on CARC_CTL.PATROL_EN = true) (hx : s.patrolStripes[s.carc.patrolAt]? = some x)
    (ht : t = s.setCarc { s.carc with patrolAt := s.carc.patrolAt + 1 })
    (hu : u = if t.rebuilding x then t.setCarc { t.carc with skipped := t.carc.skipped ++ [x] }
      else t.scripted ms fun v => v.patrolStripe x.1 x.2.1 x.2.2) :
    exec (.patrolStripe ms) s = .next
      (if u.carc.patrolAt = s.patrolStripes.length ∧ u.carc.skipped.isEmpty then u.patrolEnd else u) := by
  subst hu ht
  change execPatrolStripe ms s = _
  simp only [execPatrolStripe, he, hp, hx, Bool.not_true, Bool.false_eq_true, or_self, if_false]

/-- After its last stripe the patrol comes back to a skipped one. -/
theorem exec_patrolStripe_skipped {x : Nat × Nat × Nat} {rest : List (Nat × Nat × Nat)} (he : s.on CARC_CTL.EN = true)
    (hp : s.on CARC_CTL.PATROL_EN = true) (hx : s.patrolStripes[s.carc.patrolAt]? = none) (hs : s.carc.skipped = x :: rest)
    {u : State} {ms : List Medium}
    (hu : u = (s.setCarc { s.carc with skipped := rest }).scripted ms fun v => v.patrolStripe x.1 x.2.1 x.2.2) :
    exec (.patrolStripe ms) s = .next (if rest.isEmpty then u.patrolEnd else u) := by
  subst hu
  change execPatrolStripe ms s = _
  simp only [execPatrolStripe, he, hp, hx, hs, Bool.not_true, Bool.false_eq_true, or_self, if_false]

theorem exec_patrolStripe_end (he : s.on CARC_CTL.EN = true) (hp : s.on CARC_CTL.PATROL_EN = true)
    (hn : s.patrolStripes ≠ []) (hx : s.patrolStripes[s.carc.patrolAt]? = none) (hs : s.carc.skipped = []) (ms : List Medium) :
    exec (.patrolStripe ms) s = .next s.patrolEnd := by
  change execPatrolStripe ms s = _
  simp only [execPatrolStripe, he, hp, hx, hs, List.isEmpty_iff, hn, Bool.not_true, Bool.false_eq_true, or_self, if_false]

/-! ## Lane faults and late chunks (R235, R236) -/

theorem exec_carcLaneFault_started {lane : Fin 16} {d : DescRef} {f : Fetched}
    (hf : (s.carcLaneFault lane).fetchedAt .carc d = some f) (hp : f.phase ≠ .fetched) :
    exec (.carcLaneFault lane (.desc d)) s = .next ((s.carcLaneFault lane).finish .carc d St.unitFault) := by
  change execCarcLaneFault lane (.desc d) s = _
  simp only [execCarcLaneFault, hf, hp, if_false]

theorem exec_chunkReadTimeout_passed {k i t : Nat} {c : NvmeCmd} {b : Blk} (hb : s.blk k i = some (c, b))
    (hs : b.step = .chunk t) (hp : s.passed t = true) (ms : List Medium) :
    exec (.chunkReadTimeout k i ms) s = .next (s.scripted ms fun u => u.readMedium k i) := by
  change execChunkReadTimeout k i ms s = _
  simp only [execChunkReadTimeout, hb, hs, hp, if_true]

end

/-- Settles O27: each clause is the equation of its command under the clause's hypotheses. A flush of a bitmap without bits
programs no page, and a stripe skipped before the last of the pass does not end it. -/
theorem carcaseRebuildPatrolAndTimers : Obligations.CarcaseRebuildPatrolAndTimers := by
  unfold Obligations.CarcaseRebuildPatrolAndTimers
  refine ⟨?rebuildEnSet, ?rebuildStripe, ?graceExpiry, ?graceOver, ?flushNone, ?flush, ?patrolNext, ?patrolSkipped, ?patrolEnd,
    ?patrolSkips, ?resyncRegion, ?idleFault, ?inlineFault, ?descFault, ?chunkLate⟩
  case rebuildEnSet =>
    intro s origin ha
    exact congrArg Host.Outcome.next (State.cfgField_admitted ha _ _ _)
  case rebuildStripe =>
    intro s b ms
    exact exec_rebuildStripe_running
  case graceExpiry =>
    intro s b ha hd
    rw [exec_graceExpiry, if_pos ⟨ha, hd⟩]
  case graceOver =>
    intro s b ha
    rw [exec_graceExpiry, if_neg fun h => ha h.1]
  case flushNone =>
    intro s ms hd hb
    rw [exec_intentFlush_due hd]
    refine congrArg Host.Outcome.next (State.scripted_congr fun c _ => ?_)
    have hnone : ((s.setCell c).setCarc { (s.setCell c).carc with flushAt := none }).flushPages = [] :=
      State.flushPages_noBits hb
    rw [hnone, List.foldl_nil]
  case flush =>
    intro s ms hd
    exact exec_intentFlush_due hd ms
  case patrolNext =>
    intro s ms x t u
    exact exec_patrolStripe_next
  case patrolSkipped =>
    intro s ms x rest u he hp hx hs
    exact exec_patrolStripe_skipped he hp hx hs
  case patrolEnd =>
    intro s ms he hp hn hx hs
    exact exec_patrolStripe_end he hp hn hx hs ms
  case patrolSkips =>
    rintro s ms x t he hp hx hlt rfl hr
    rw [exec_patrolStripe_next he hp hx rfl rfl, if_pos hr]
    exact congrArg Host.Outcome.next (if_neg fun h => Nat.ne_of_lt hlt h.1)
  case resyncRegion =>
    intro s shard pool region ms he ho hb
    exact exec_resyncRegion_dirty he ho hb ms
  case idleFault =>
    intro s lane
    rfl
  case inlineFault =>
    intro s lane k
    rfl
  case descFault =>
    intro s lane d f
    exact exec_carcLaneFault_started
  case chunkLate =>
    intro s k i ms c b t hb hs hp
    exact exec_chunkReadTimeout_passed hb hs hp ms

end Sys2Proof.Machine
end

section
/-! The Cellar's own work (R249, R253 to R256, R259, R264, R265, R269, R278): what each of its programs does where its event takes
place. -/
namespace Sys2Proof.Machine
open Sys2Proof

section
variable {s : State} {shard : Fin 256} {lane : Fin 8} {pool blade : Fin 16}

/-! ## Journal pages and replicas (R249, R253, R254) -/

/-- A lane of a shard that may be mutated programs its next page where the command's condition on the lane holds. -/
theorem State.laneStep_programs {sh n : Nat} {l : Lane} {ok : Lane → Bool} (hl : Tab.get? (s.cshard sh).lanes n = some l)
    (he : s.on CELL_CTL.EN = true) (hs : s.cellSt sh = Cst.ready ∨ s.cellSt sh = Cst.releasing) (ho : ok l = true)
    (ms : List Medium) : s.laneStep sh n ok ms = s.scripted ms fun t => t.programLane sh n := by
  simp only [State.laneStep, hl]
  exact if_pos ⟨he, hs, ho⟩

theorem exec_replicaTimeout_late {page : Nat} {x : JPage} {r : PageLoc × RepSt} (hx : s.jpage shard page = some x)
    (hr : x.reps.find? (s.replicaLate blade) = some r) (ms : List Medium) :
    exec (.replicaTimeout shard page blade ms) s = .next (s.scripted ms fun t => t.failReplica shard page r.1 3) := by
  change execReplicaTimeout shard page blade ms s = _
  simp only [execReplicaTimeout, hx, hr]

/-- What a mended lane lacks is mirrored, and EV_REMIRROR_DONE raised where it lacked a page (R254). -/
def State.remirrored (s : State) (sh lane : Nat) : State :=
  match Tab.get? (s.cshard sh).lanes lane with
  | none => s
  | some l =>
    if (s.mirrorNeeds sh lane l).isEmpty then s
    else ((s.mirrorNeeds sh lane l).foldl (fun (t : State) (p : Nat × JPage) => t.mirrorPage sh p.1) s).raise
      Ev.remirrorDone (some .cell) (some sh) [sh, lane]

theorem exec_remirror_ready (h : s.cellReady shard = true) (ms : List Medium) :
    exec (.remirror shard lane ms) s = .next (s.scripted ms fun t => (t.mendLane shard lane).remirrored shard lane) := by
  change execRemirror shard lane ms s = _
  unfold execRemirror
  exact if_neg (by simp [h])

/-! ## Folds (R255, R256) -/

/-- A wheel of a pool folded and sealed. -/
def State.foldSealed (s : State) (sh pool : Nat) : State :=
  (s.foldPool sh pool).2.sealAll sh none none (s.foldPool sh pool).1.toList

theorem exec_fold_wheelful (h : s.cellReady shard = true)
    (hc : s.wheelCap pool (s.rd (CARC_POOL.CUR_GEN pool)) ≤ ((s.foldable shard pool).map fun e => e.2.payload.length).sum)
    (ms : List Medium) :
    exec (.fold shard pool ms) s = .next (s.scripted ms fun t => t.foldSealed shard pool) := by
  change execFold shard pool ms s = _
  unfold execFold
  exact if_neg (by simp [h, hc])

theorem exec_foldAgeExpiry_old {e : Nat × JRec} {es : List (Nat × JRec)} (h : s.cellReady shard = true)
    (hf : s.foldable shard pool = e :: es) (hp : s.passed (e.2.at_ + s.rd CELL_FOLD_CFG.AGE * mgmtTick) = true)
    (ms : List Medium) :
    exec (.foldAgeExpiry shard pool ms) s = .next (s.scripted ms fun t => t.foldSealed shard pool) := by
  change execFoldAgeExpiry shard pool ms s = _
  simp only [execFoldAgeExpiry, hf]
  exact if_neg (by simp [h, hp])

/-! ## Checkpoints (R259) -/

theorem exec_checkpointPeriodExpiry_due (h : s.cellReady shard = true)
    (hd : s.due (s.cshard shard).ckptAt = true ∨ s.rd CELL_CKPT_CFG.TAIL_MIB * 2 ^ 20 < (s.cshard shard).cutBytes)
    (ms : List Medium) :
    exec (.checkpointPeriodExpiry shard ms) s = .next (s.scripted ms fun t => (t.ckptStep shard).2) :=
  if_pos ⟨h, hd⟩

/-! ## Garbage collection and wear (R264, R265, R269) -/

/-- A MAIN band emptied of its live units, erased and counted. -/
def State.bandCollected (s : State) (b n : Nat) : State := (((s.emptyMain b n).2).emptyBand b n).countBands b

theorem exec_gcVictimCollect_victim {n : Nat} {y : Band} (hg : s.gcMay shard = true)
    (hv : s.victim blade shard = some (n, y))
    (hc : 100 * y.liveUnits ≤ s.rd CELL_GC_CFG.VICTIM_LIVE * s.bandPlaces blade .main ∨
      s.freeBands blade < s.rd CELL_GC_CFG.GC_LOW) (ms : List Medium) :
    exec (.gcVictimCollect blade shard ms) s = .next (s.scripted ms fun t => t.bandCollected blade n) := by
  change execGcVictimCollect blade shard ms s = _
  simp only [execGcVictimCollect, hg, hv, Bool.not_true, Bool.false_eq_true, if_false]
  exact if_pos hc

/-- Every WEAR_LEVEL_CHECK starts the blade's timer again (R269). -/
def State.wearRearmed (s : State) (b : Nat) : State :=
  s.setCblade b { s.cblade b with wlAt := some (s.inMgmt (s.rd CELL_GC_CFG.WL_PERIOD)) }

/-- Whether the spread of erase counts is too wide for the least-worn band of a blade, one of a READY shard. -/
def State.wearTooWide (s : State) (y : Band) (hi : Nat) : Prop :=
  s.on CELL_CTL.WL_EN = true ∧ s.rd CELL_GC_CFG.WL_GAP < hi - y.ec ∧ s.cellReady y.shard = true

theorem exec_wearLevelCheck_tooWide {t : State} {n hi : Nat} {y : Band} (hd : s.due (s.cblade blade).wlAt = true)
    (ht : t = s.wearRearmed blade) (hw : t.wearSpread blade = (some (n, y), hi)) (hy : t.wearTooWide y hi)
    (ms : List Medium) :
    exec (.wearLevelCheck blade ms) s = .next (t.scripted ms fun u => u.bandCollected blade n) := by
  subst ht
  rw [State.wearRearmed] at hw hy ⊢
  change execWearLevelCheck blade ms s = _
  simp only [execWearLevelCheck, hd, hw, Bool.true_eq_false, if_false]
  exact if_pos hy

theorem exec_wearLevelCheck_even {t : State} {m : Option (Nat × Band)} {hi : Nat}
    (hd : s.due (s.cblade blade).wlAt = true) (ht : t = s.wearRearmed blade) (hw : t.wearSpread blade = (m, hi))
    (hm : ∀ x, m = some x → ¬ t.wearTooWide x.2 hi) (ms : List Medium) :
    exec (.wearLevelCheck blade ms) s = .next t := by
  subst ht
  rw [State.wearRearmed] at hw hm ⊢
  change execWearLevelCheck blade ms s = _
  simp only [execWearLevelCheck, hd, hw, Bool.true_eq_false, if_false]
  cases m with
  | none => rfl
  | some x => exact if_neg (hm x rfl)

/-- Levelling switched off keeps every band, however wide the spread. -/
theorem exec_wearLevelCheck_off (hd : s.due (s.cblade blade).wlAt = true) (ho : s.on CELL_CTL.WL_EN = false)
    (ms : List Medium) : exec (.wearLevelCheck blade ms) s = .next (s.wearRearmed blade) := by
  refine exec_wearLevelCheck_even hd rfl rfl (fun x _ hwide => ?_) ms
  have hon : s.on CELL_CTL.WL_EN = true := hwide.1
  rw [ho] at hon
  contradiction

theorem exec_wheelReclaim_fewLive {wheel : Nat} {w : Wheel} (hw : s.wheel shard wheel = some w) (hg : s.gcMay shard = true)
    (hm : s.mayReclaim shard wheel = true) (hr : s.reclaiming shard wheel = false)
    (hl : 100 * w.liveBytes < s.rd CELL_GC_CFG.WHEEL_LIVE * s.wheelCap w.pool w.gen) (ms : List Medium) :
    exec (.wheelReclaim shard wheel ms) s = .next (s.scripted ms fun t => (t.reclaim shard wheel none).2) := by
  change execWheelReclaim shard wheel ms s = _
  simp only [execWheelReclaim, hw]
  exact if_pos ⟨hg, hm, hr, hl⟩

/-! ## Health (R278) -/

theorem exec_healthPeriodExpiry_due (he : s.on CELL_CTL.EN = true) (hd : s.due s.cell.healthAt = true) :
    exec .healthPeriodExpiry s = .next ((List.range 16).foldl
      (fun (t : State) b => if t.rd (CELL_BLADE.STATE b) = 0 then t else t.periodic b)
      (s.setCell { s.cell with healthAt := some (s.inMgmt (10 * s.rd CELL_HEALTH_RING.PERIOD)) })) :=
  if_neg (by simp [he, hd])

end

/-- Settles O28: each clause is the equation of its command under the clause's hypotheses. The two timers of a lane are one step
of the lane, and a wear check with levelling off is one that finds no spread too wide. -/
theorem cellarOwnWork : Obligations.CellarOwnWork := by
  unfold Obligations.CellarOwnWork
  refine ⟨?pageProgram, ?holdExpiry, ?replicaTimeout, ?remirror, ?fold, ?foldAge, ?ckptPeriod, ?ckptLate, ?gcVictim, ?wearOff,
    ?wearWide, ?wearEven, ?wheelReclaim, ?health⟩
  case pageProgram =>
    intro s shard lane ms l hl he hs hf
    exact congrArg Host.Outcome.next (State.laneStep_programs hl he hs (by simpa using hf) ms)
  case holdExpiry =>
    intro s shard lane ms l hl he hs hd
    exact congrArg Host.Outcome.next (State.laneStep_programs hl he hs hd ms)
  case replicaTimeout =>
    intro s shard page blade ms x r hx hr
    exact exec_replicaTimeout_late hx hr ms
  case remirror =>
    intro s shard lane ms h
    exact exec_remirror_ready h ms
  case fold =>
    intro s shard pool ms h hc
    exact exec_fold_wheelful h hc ms
  case foldAge =>
    intro s shard pool ms e es h hf hp
    exact exec_foldAgeExpiry_old h hf hp ms
  case ckptPeriod =>
    intro s shard ms h hd
    exact exec_checkpointPeriodExpiry_due h hd ms
  case ckptLate =>
    intro s shard hd
    exact if_pos hd
  case gcVictim =>
    intro s blade shard ms n y hg hv hc
    exact exec_gcVictimCollect_victim hg hv hc ms
  case wearOff =>
    intro s blade ms hd ho
    exact exec_wearLevelCheck_off hd ho ms
  case wearWide =>
    intro s blade ms t n hi y hd ht hw ho hg hr
    exact exec_wearLevelCheck_tooWide hd ht hw ⟨ho, hg, hr⟩ ms
  case wearEven =>
    intro s blade ms t m hi hd ht hw hm
    refine exec_wearLevelCheck_even hd ht hw (fun x hx => ?_) ms
    rintro ⟨ho, hg, hr⟩
    rcases hm x hx with hoff | hnarrow | hbusy
    · simp [hoff] at ho
    · exact Nat.not_lt.2 hnarrow hg
    · simp [hbusy] at hr
  case wheelReclaim =>
    intro s shard wheel ms w hw hg hm hr hl
    exact exec_wheelReclaim_fewLive hw hg hm hr hl ms
  case health =>
    intro s he hd
    exact exec_healthPeriodExpiry_due he hd

end Sys2Proof.Machine
end

section
/-! What a blade does with one command: the checks of R530, the equation of each opcode it carries out, and the epoch records that
RENEW and LEASE_RELEASE change (R303, R304, R306). -/
namespace Sys2Proof.Machine
open Sys2Proof

/-! ## Blades and ports of the state -/

@[simp] theorem State.blade_setBlade (s : State) (b : Nat) (x : Blade) : (s.setBlade b x).blade b = some x := Tab.get?_set_self ..

@[simp] theorem State.blade_setHport (s : State) (b k : Nat) (y : HeadPort) : (s.setHport b y).blade k = s.blade k := rfl

@[simp] theorem State.hport_setBld (s : State) (b st : Nat) (n : Option Nat) :
    (s.setBld b st n).hport b = { s.hport b with timer := n.map s.inMgmt } :=
  Tab.getD_set_self ..

/-! ## Epoch records -/

@[simp] theorem Blade.epochRec_setRec_self (x : Blade) (shard : Nat) (r : EpochRec) :
    (x.setRec shard r).epochRec shard = r :=
  Tab.getD_set_self ..

theorem Blade.epochRec_setRec_ne (x : Blade) {shard j : Nat} (r : EpochRec) (h : j ≠ shard) :
    (x.setRec shard r).epochRec j = x.epochRec j :=
  Tab.getD_set_ne _ _ _ h

/-- The shards of a list renewed one after the other. -/
def Blade.renewAll (x : Blade) (now : Nat) (shards : List Nat) : Blade :=
  shards.foldl (fun x sh => x.setRec sh { x.epochRec sh with tRenew := now }) x

theorem Blade.epochRec_renewAll (now j : Nat) (shards : List Nat) : ∀ x : Blade,
    (x.renewAll now shards).epochRec j = if j ∈ shards then { x.epochRec j with tRenew := now } else x.epochRec j := by
  induction shards with
  | nil => intro x; rfl
  | cons sh shards ih =>
    intro x
    rw [renewAll, List.foldl_cons]
    refine (ih _).trans ?_
    by_cases h : j = sh
    · subst h
      simp only [Blade.epochRec_setRec_self, List.mem_cons, true_or, if_true, ite_self]
    · simp only [Blade.epochRec_setRec_ne x _ h, List.mem_cons, h, false_or]

theorem Blade.renewAll_frame (now : Nat) (shards : List Nat) : ∀ x : Blade,
    { x.renewAll now shards with recs := x.recs } = x := by
  induction shards with
  | nil => intro x; rfl
  | cons sh shards ih =>
    intro x
    exact congrArg (fun y : Blade => { y with recs := x.recs }) (ih (x.setRec sh { x.epochRec sh with tRenew := now }))

/-! ## The mask of a set of numbers -/

/-- The sum of the powers of two a predicate names has exactly their bits: each power lies above the sum of those below it. -/
theorem testBit_maskOf (f : Nat → Bool) (n i : Nat) :
    (((List.range n).filter f).map (2 ^ ·)).sum.testBit i = (decide (i < n) && f i) := by
  induction n generalizing i with
  | zero => simp only [List.range_zero, List.filter_nil, List.map_nil, List.sum_nil, Nat.zero_testBit, Nat.not_lt_zero,
      decide_false, Bool.false_and]
  | succ n ih =>
    have hlow : (((List.range n).filter f).map (2 ^ ·)).sum < 2 ^ n := Nat.lt_pow_two_of_testBit _ fun j hj => by
      rw [ih, decide_eq_false (Nat.not_lt.2 hj), Bool.false_and]
    have hbelow : i ≠ n → decide (i < n + 1) = decide (i < n) := fun hi => decide_eq_decide.2 (by omega)
    rw [List.range_succ, List.filter_append, List.map_append, List.sum_append_nat]
    cases hf : f n with
    | false =>
      have hsame : (decide (i < n) && f i) = (decide (i < n + 1) && f i) := by
        by_cases hi : i = n
        · rw [hi, hf, Bool.and_false, Bool.and_false]
        · rw [hbelow hi]
      rw [List.filter_cons_of_neg (by rw [hf]; decide), List.filter_nil, List.map_nil, List.sum_nil, Nat.add_zero, ih, hsame]
    | true =>
      have hsum : (List.map (2 ^ ·) [n]).sum = 2 ^ n := Nat.add_zero _
      rw [List.filter_cons_of_pos hf, List.filter_nil, hsum, ← Nat.or_two_pow_eq_add_of_lt hlow, Nat.testBit_or, ih,
        Nat.testBit_two_pow]
      by_cases hi : i = n
      · rw [hi, decide_eq_true rfl, Bool.or_true, decide_eq_true (Nat.lt_succ_self n), hf, Bool.and_true]
      · rw [decide_eq_false (Ne.symm hi), Bool.or_false, hbelow hi]

/-! ## The checks of R530 -/

section
variable {x : Blade} {now p : Nat} {c : BCmd} {g : Nat → Byte} {m : Medium}

theorem Blade.run_passed (h : x.check now p c = none) : x.run now p g m c = x.carry now p g m c := by
  simp only [Blade.run, h]

theorem Blade.run_failed {e : Nat} (h : x.check now p c = some e) :
    x.run now p g m c = (⟨e, if c.op = Bop.setEpoch then (x.epochRec c.shard).epoch else 0, []⟩, x) := by
  simp only [Blade.run, h]

/-- Steps 1 to 4 of R530: a known opcode, no reserved bit, an allowed LENGTH and an address inside the geometry. -/
def BCmd.formed (x : Blade) (c : BCmd) : Prop :=
  c.op ≠ 0 ∧ c.op ≤ 0x0F ∧ c.rsvd = false ∧ c.lenOk x = true ∧ c.inRange x = true

/-- Step 5 of R530: the ownership check of the opcode. -/
def Blade.ruleCheck (x : Blade) (now p : Nat) (c : BCmd) : Option Nat :=
  if bcpMutating c.op then x.ownerCheck p c
  else if c.op = Bop.setEpoch then x.setEpochCheck now p c
  else if c.op = Bop.release then x.epochCheck p c
  else if c.op = Bop.wipe then (if x.wipeAllowed now p then none else some St.wipeNoConsent)
  else none

theorem Blade.check_eq (x : Blade) (now p : Nat) (c : BCmd) : x.check now p c =
    if c.op = 0 ∨ 0x0F < c.op then some St.opcodeInvalid
    else if c.rsvd then some St.rsvdNonzero
    else if !c.lenOk x then some St.lengthMismatch
    else if !c.inRange x then some St.addrRange
    else (x.ruleCheck now p c).or (x.ownCheck c) := by
  rw [Blade.check, ← Blade.ruleCheck]
  cases x.ruleCheck now p c <;> rfl

theorem Blade.check_formed (h : c.formed x) : x.check now p c = (x.ruleCheck now p c).or (x.ownCheck c) := by
  obtain ⟨h0, h15, hr, hl, ha⟩ := h
  have hop : ¬ (c.op = 0 ∨ 0x0F < c.op) := by omega
  simp only [Blade.check_eq, if_neg hop, hr, hl, ha, Bool.not_true, Bool.false_eq_true, if_false]

theorem Blade.ruleCheck_of_check_none (h : x.check now p c = none) : x.ruleCheck now p c = none := by
  rw [Blade.check_eq] at h
  iterate 4 (split at h; · nomatch h)
  exact (Option.or_eq_none_iff.1 h).1

/-- SET_EPOCH and LEASE_RELEASE carry no data and name no address, so only their reserved bits can be wrong before step 5. -/
theorem BCmd.formed_fence (ho : c.op = Bop.setEpoch ∨ c.op = Bop.release) (hr : c.rsvd = false) : c.formed x := by
  rcases ho with ho | ho <;>
    exact ⟨by rw [ho]; decide, by rw [ho]; decide, hr, by simp only [BCmd.lenOk, ho]; rfl,
      by simp only [BCmd.inRange, ho]; rfl⟩

/-- Step 6 of R530 concerns PROGRAM and READ alone. -/
theorem Blade.ownCheck_setEpoch (ho : c.op = Bop.setEpoch) : x.ownCheck c = none := by
  simp only [Blade.ownCheck, ho]
  rfl

theorem Blade.ruleCheck_mutating (ho : bcpMutating c.op = true) : x.ruleCheck now p c = x.ownerCheck p c := by
  simp only [Blade.ruleCheck, ho, if_true]

theorem Blade.ruleCheck_setEpoch (ho : c.op = Bop.setEpoch) : x.ruleCheck now p c = x.setEpochCheck now p c := by
  simp only [Blade.ruleCheck, ho]
  rfl

theorem Blade.ruleCheck_release (ho : c.op = Bop.release) : x.ruleCheck now p c = x.epochCheck p c := by
  simp only [Blade.ruleCheck, ho]
  rfl

/-! ## The ownership rules (R303, R304) -/

theorem Blade.epochCheck_none (h : x.epochCheck p c = none) :
    c.epoch = (x.epochRec c.shard).epoch ∧ (x.epochRec c.shard).epoch % 2 = p := by
  simp only [Blade.epochCheck] at h
  iterate 3 (split at h; · nomatch h)
  omega

theorem Blade.epochCheck_released (he : c.epoch = (x.epochRec c.shard).epoch) (hr : (x.epochRec c.shard).released = true) :
    x.epochCheck p c = some St.epochStale :=
  if_pos (.inr ⟨he, hr⟩)

/-- Away from the anchor blocks the epoch of a mutating command is checked first. -/
theorem Blade.ownerCheck_epoch {e : Nat} (ha : ¬ ((c.op = Bop.program ∨ c.op = Bop.erase) ∧ anchorBlock c.die c.block = true))
    (he : x.epochCheck p c = some e) : x.ownerCheck p c = some e := by
  simp only [Blade.ownerCheck, if_neg ha, he]

/-- After a release the port of a newer epoch installs it whatever the silence (R304, R306). -/
theorem Blade.setEpochCheck_released (hp : c.epoch % 2 = p) (hn : (x.epochRec c.shard).epoch < c.epoch)
    (hr : (x.epochRec c.shard).released = true) : x.setEpochCheck now p c = none := by
  simp only [Blade.setEpochCheck, hp, Nat.not_le.2 hn, hr, ne_eq, not_true, or_true, true_or, if_true, if_false]

/-! ## What each opcode does -/

theorem Blade.carry_read (ho : c.op = Bop.read) :
    x.carry now p g m c = x.doRead g m c := by
  simp only [Blade.carry, ho]
  rfl

theorem Blade.carry_program (ho : c.op = Bop.program) :
    x.carry now p g m c = x.doProgram m c := by
  simp only [Blade.carry, ho]
  rfl

theorem Blade.carry_erase (ho : c.op = Bop.erase) :
    x.carry now p g m c = x.doErase m c := by
  simp only [Blade.carry, ho]
  rfl

theorem Blade.carry_claim (ho : c.op = Bop.claim) :
    x.carry now p g m c = x.doClaim c := by
  simp only [Blade.carry, ho]
  rfl

theorem Blade.carry_retire (ho : c.op = Bop.retire) :
    x.carry now p g m c = x.doRetire c := by
  simp only [Blade.carry, ho]
  rfl

theorem Blade.carry_setEpoch (ho : c.op = Bop.setEpoch) :
    x.carry now p g m c = x.doSetEpoch now c := by
  simp only [Blade.carry, ho]
  rfl

theorem Blade.carry_renew (ho : c.op = Bop.renew) :
    x.carry now p g m c = x.doRenew now p c := by
  simp only [Blade.carry, ho]
  rfl

theorem Blade.carry_release (ho : c.op = Bop.release) :
    x.carry now p g m c = x.doRelease c := by
  simp only [Blade.carry, ho]
  rfl

theorem Blade.carry_epochRead (ho : c.op = Bop.epochRead) :
    x.carry now p g m c = (⟨St.success, (x.epochRec c.shard).epoch, x.epochBytes now c.shard⟩, x) := by
  simp only [Blade.carry, ho]
  rfl

theorem Blade.carry_identify (ho : c.op = Bop.identify) :
    x.carry now p g m c = (⟨St.success, 0, x.identify⟩, x) := by
  simp only [Blade.carry, ho]
  rfl

theorem Blade.carry_health (ho : c.op = Bop.health) :
    x.carry now p g m c = (⟨St.success, 0, x.health⟩, x) := by
  simp only [Blade.carry, ho]
  rfl

theorem Blade.carry_claimList (ho : c.op = Bop.claimList) :
    x.carry now p g m c = x.doClaimList c := by
  simp only [Blade.carry, ho]
  rfl

theorem Blade.carry_ecRead (ho : c.op = Bop.ecRead) :
    x.carry now p g m c = (⟨St.success, 0, (List.range x.id.blocks).flatMap fun k => leBytes 4 (x.block c.die k).ec⟩, x) := by
  simp only [Blade.carry, ho]
  rfl

theorem Blade.carry_wipe (ho : c.op = Bop.wipe) :
    x.carry now p g m c = x.doWipe p := by
  simp only [Blade.carry, ho]
  rfl

theorem Blade.carry_wipeConsent (ho : c.op = Bop.wipeConsent) :
    x.carry now p g m c = (⟨St.success, 0, []⟩, x.setPort p { x.port p with consent := some now }) := by
  simp only [Blade.carry, ho]
  rfl

/-- RENEW names its shards in RESULT and renews them (R306). -/
theorem Blade.doRenew_eq : x.doRenew now p c =
    (⟨St.success, (((List.range 64).filter (x.renews p c)).map (2 ^ ·)).sum, []⟩,
      x.renewAll now (((List.range 64).filter (x.renews p c)).map (c.shard + ·))) := by
  rw [Blade.renewAll, List.foldl_map]
  rfl

/-- The bits of RESULT are the shards renewed. -/
theorem Blade.doRenew_result_testBit (i : Nat) :
    (x.doRenew now p c).1.result.testBit i = (decide (i < 64) && x.renews p c i) := by
  rw [Blade.doRenew_eq]
  exact testBit_maskOf ..

theorem Blade.doRenew_result_lt : (x.doRenew now p c).1.result < 2 ^ 64 :=
  Nat.lt_pow_two_of_testBit _ fun i hi => by
    rw [Blade.doRenew_result_testBit, decide_eq_false (Nat.not_lt.2 hi), Bool.false_and]

theorem Blade.epochRec_doRenew_shard {i : Nat} (hi : i < 64) : (x.doRenew now p c).2.epochRec (c.shard + i) =
    if x.renews p c i then { x.epochRec (c.shard + i) with tRenew := now } else x.epochRec (c.shard + i) := by
  simp only [Blade.doRenew_eq, Blade.epochRec_renewAll, List.mem_map, List.mem_filter, List.mem_range, Nat.add_left_cancel_iff,
    exists_eq_right, hi, true_and]

theorem Blade.epochRec_doRenew_other {j : Nat} (hj : j < c.shard ∨ c.shard + 64 ≤ j) :
    (x.doRenew now p c).2.epochRec j = x.epochRec j := by
  rw [Blade.doRenew_eq, Blade.epochRec_renewAll, if_neg]
  simp only [List.mem_map, List.mem_filter, List.mem_range]
  rintro ⟨i, ⟨hi, -⟩, rfl⟩
  omega

theorem Blade.doRenew_frame : { (x.doRenew now p c).2 with recs := x.recs } = x := by
  rw [Blade.doRenew_eq]
  exact Blade.renewAll_frame ..

end

end Sys2Proof.Machine
end

section
/-! The execution of a taken blade command (R290, R293, R530): one rule for a command that passes its checks and one for a command
that fails one, then each opcode. -/
namespace Sys2Proof.Machine
open Sys2Proof

/-- The blade `x` behind BLD_b serves, and its taken command `t` of opcode `op` at place `i` may be carried out (R290). -/
structure State.Serves (s : State) (b i op : Nat) (x : Blade) (t : Taken) : Prop where
  blade : s.blade b = some x
  powered : x.powered = true
  rdy : x.rdy = true
  sound : x.fatal = false
  taken : x.taken[i]? = some t
  op : t.cmd.op = op
  mayRun : x.mayRun s.wireNow i = true

section
variable {s : State} {b i op : Nat} {m : Medium} {x : Blade} {t : Taken}

theorem State.bladeExec_served (h : s.Serves b i op x t) : s.bladeExec b i op m = ({ s with draws := s.draws + 1 } : State).answer b
    ((x.run s.wireNow t.port (Config.freeByte s.draws) m t.cmd).2.leave s.wireNow i) t
    (x.run s.wireNow t.port (Config.freeByte s.draws) m t.cmd).1 := by
  obtain ⟨hb, hp, hr, hf, ht, ho, hm⟩ := h
  simp only [State.bladeExec, State.runTaken, hb, ht, ho, hp, hr, hf, hm, beq_self_eq_true, Bool.not_false, Bool.and_self, if_true]

/-- A command that passes the checks of R530 is carried out and answered. -/
theorem State.bladeExec_passed (h : s.Serves b i op x t) (hc : x.check s.wireNow t.port t.cmd = none) {r : BAns × Blade}
    (hr : x.carry s.wireNow t.port (Config.freeByte s.draws) m t.cmd = r) :
    s.bladeExec b i op m = ({ s with draws := s.draws + 1 } : State).answer b (r.2.leave s.wireNow i) t r.1 := by
  rw [State.bladeExec_served h, Blade.run_passed hc, hr]

/-- A command that fails a check answers its status and leaves the blade; SET_EPOCH answers the epoch in force too (R304). -/
theorem State.bladeExec_failed (h : s.Serves b i op x t) {e : Nat} (hc : x.check s.wireNow t.port t.cmd = some e) :
    s.bladeExec b i op m = ({ s with draws := s.draws + 1 } : State).answer b (x.leave s.wireNow i) t
      ⟨e, if op = Bop.setEpoch then (x.epochRec t.cmd.shard).epoch else 0, []⟩ := by
  rw [State.bladeExec_served h, Blade.run_failed hc, h.op]

/-- HEALTH carries the temperature of the hottest die as it is now (R301). -/
theorem exec_bcpHealth (hb : s.blade b = some x) (temp : Int) (die : Nat) : exec (.bcpHealth b i temp die) s =
    .next ((s.setBlade b { x with hotTemp := temp, hotDie := die }).bladeExec b i Bop.health (.done 0 false)) := by
  change execBcpHealth b i temp die s = _
  simp only [execBcpHealth, hb]

/-! ## What a command that answers no data leaves -/

@[simp] theorem Blade.leave_blocks (x : Blade) (now i : Nat) : (x.leave now i).blocks = x.blocks := by
  unfold Blade.leave
  split <;> rfl

@[simp] theorem Blade.leave_recs (x : Blade) (now i : Nat) : (x.leave now i).recs = x.recs := by
  unfold Blade.leave
  split <;> rfl

/-- An answer without data puts the blade in place, and at most a completion entry on the port. -/
theorem State.answer_blade (s : State) (b : Nat) (y : Blade) (t : Taken) (e result : Nat) :
    (s.answer b y t ⟨e, result, []⟩).blade b = some y := by
  rw [State.answer]
  split
  · exact State.blade_setBlade ..
  · rw [State.blade_setHport]
    cases (s.setBlade b y).issuedAt b t.queue t.slot with
    | none => simp only [List.isEmpty_nil, Bool.not_true, Bool.and_false, Bool.false_eq_true, if_false, State.blade_setBlade]
    | some c => cases hc : c.issuer <;> simp only [hc, List.isEmpty_nil, if_true, State.blade_setBlade]

end

/-- Settles O30: each pair of clauses is the rule for a command that passes its checks, with what its opcode does, and the rule for
one that fails a check. -/
theorem bladeCommandsAreCarriedOut : Obligations.BladeCommandsAreCarriedOut := by
  unfold Obligations.BladeCommandsAreCarriedOut
  refine ⟨?read, ?readFailed, ?program, ?programFailed, ?erase, ?eraseFailed, ?claim, ?claimFailed, ?retire, ?retireFailed,
    ?setEpoch, ?setEpochFailed, ?renew, ?renewFailed, ?release, ?releaseFailed, ?epochRead, ?epochReadFailed, ?identify,
    ?identifyFailed, ?claimList, ?claimListFailed, ?ecRead, ?ecReadFailed, ?wipe, ?wipeFailed, ?wipeConsent,
    ?wipeConsentFailed, ?health, ?healthFailed, ?programFailedKeeps⟩
  case read =>
    intro s b i m x t hb hp hr hf ht ho hm hc
    exact congrArg Host.Outcome.next (State.bladeExec_passed ⟨hb, hp, hr, hf, ht, ho, hm⟩ hc (Blade.carry_read ho))
  case readFailed =>
    intro s b i m x t e hb hp hr hf ht ho hm hc
    exact congrArg Host.Outcome.next (State.bladeExec_failed ⟨hb, hp, hr, hf, ht, ho, hm⟩ hc)
  case program =>
    intro s b i m x t hb hp hr hf ht ho hm hc
    exact congrArg Host.Outcome.next (State.bladeExec_passed ⟨hb, hp, hr, hf, ht, ho, hm⟩ hc (Blade.carry_program ho))
  case programFailed =>
    intro s b i m x t e hb hp hr hf ht ho hm hc
    exact congrArg Host.Outcome.next (State.bladeExec_failed ⟨hb, hp, hr, hf, ht, ho, hm⟩ hc)
  case erase =>
    intro s b i m x t hb hp hr hf ht ho hm hc
    exact congrArg Host.Outcome.next (State.bladeExec_passed ⟨hb, hp, hr, hf, ht, ho, hm⟩ hc (Blade.carry_erase ho))
  case eraseFailed =>
    intro s b i m x t e hb hp hr hf ht ho hm hc
    exact congrArg Host.Outcome.next (State.bladeExec_failed ⟨hb, hp, hr, hf, ht, ho, hm⟩ hc)
  case claim =>
    intro s b i x t hb hp hr hf ht ho hm hc
    exact congrArg Host.Outcome.next (State.bladeExec_passed ⟨hb, hp, hr, hf, ht, ho, hm⟩ hc (Blade.carry_claim ho))
  case claimFailed =>
    intro s b i x t e hb hp hr hf ht ho hm hc
    exact congrArg Host.Outcome.next (State.bladeExec_failed ⟨hb, hp, hr, hf, ht, ho, hm⟩ hc)
  case retire =>
    intro s b i x t hb hp hr hf ht ho hm hc
    exact congrArg Host.Outcome.next (State.bladeExec_passed ⟨hb, hp, hr, hf, ht, ho, hm⟩ hc (Blade.carry_retire ho))
  case retireFailed =>
    intro s b i x t e hb hp hr hf ht ho hm hc
    exact congrArg Host.Outcome.next (State.bladeExec_failed ⟨hb, hp, hr, hf, ht, ho, hm⟩ hc)
  case setEpoch =>
    intro s b i x t hb hp hr hf ht ho hm hc
    exact congrArg Host.Outcome.next (State.bladeExec_passed ⟨hb, hp, hr, hf, ht, ho, hm⟩ hc (Blade.carry_setEpoch ho))
  case setEpochFailed =>
    intro s b i x t e hb hp hr hf ht ho hm hc
    exact congrArg Host.Outcome.next (State.bladeExec_failed ⟨hb, hp, hr, hf, ht, ho, hm⟩ hc)
  case renew =>
    intro s b i x t hb hp hr hf ht ho hm hc
    exact congrArg Host.Outcome.next (State.bladeExec_passed ⟨hb, hp, hr, hf, ht, ho, hm⟩ hc (Blade.carry_renew ho))
  case renewFailed =>
    intro s b i x t e hb hp hr hf ht ho hm hc
    exact congrArg Host.Outcome.next (State.bladeExec_failed ⟨hb, hp, hr, hf, ht, ho, hm⟩ hc)
  case release =>
    intro s b i x t hb hp hr hf ht ho hm hc
    exact congrArg Host.Outcome.next (State.bladeExec_passed ⟨hb, hp, hr, hf, ht, ho, hm⟩ hc (Blade.carry_release ho))
  case releaseFailed =>
    intro s b i x t e hb hp hr hf ht ho hm hc
    exact congrArg Host.Outcome.next (State.bladeExec_failed ⟨hb, hp, hr, hf, ht, ho, hm⟩ hc)
  case epochRead =>
    intro s b i x t hb hp hr hf ht ho hm hc
    exact congrArg Host.Outcome.next (State.bladeExec_passed ⟨hb, hp, hr, hf, ht, ho, hm⟩ hc (Blade.carry_epochRead ho))
  case epochReadFailed =>
    intro s b i x t e hb hp hr hf ht ho hm hc
    exact congrArg Host.Outcome.next (State.bladeExec_failed ⟨hb, hp, hr, hf, ht, ho, hm⟩ hc)
  case identify =>
    intro s b i x t hb hp hr hf ht ho hm hc
    exact congrArg Host.Outcome.next (State.bladeExec_passed ⟨hb, hp, hr, hf, ht, ho, hm⟩ hc (Blade.carry_identify ho))
  case identifyFailed =>
    intro s b i x t e hb hp hr hf ht ho hm hc
    exact congrArg Host.Outcome.next (State.bladeExec_failed ⟨hb, hp, hr, hf, ht, ho, hm⟩ hc)
  case claimList =>
    intro s b i x t hb hp hr hf ht ho hm hc
    exact congrArg Host.Outcome.next (State.bladeExec_passed ⟨hb, hp, hr, hf, ht, ho, hm⟩ hc (Blade.carry_claimList ho))
  case claimListFailed =>
    intro s b i x t e hb hp hr hf ht ho hm hc
    exact congrArg Host.Outcome.next (State.bladeExec_failed ⟨hb, hp, hr, hf, ht, ho, hm⟩ hc)
  case ecRead =>
    intro s b i x t hb hp hr hf ht ho hm hc
    exact congrArg Host.Outcome.next (State.bladeExec_passed ⟨hb, hp, hr, hf, ht, ho, hm⟩ hc (Blade.carry_ecRead ho))
  case ecReadFailed =>
    intro s b i x t e hb hp hr hf ht ho hm hc
    exact congrArg Host.Outcome.next (State.bladeExec_failed ⟨hb, hp, hr, hf, ht, ho, hm⟩ hc)
  case wipe =>
    intro s b i x t hb hp hr hf ht ho hm hc
    exact congrArg Host.Outcome.next (State.bladeExec_passed ⟨hb, hp, hr, hf, ht, ho, hm⟩ hc (Blade.carry_wipe ho))
  case wipeFailed =>
    intro s b i x t e hb hp hr hf ht ho hm hc
    exact congrArg Host.Outcome.next (State.bladeExec_failed ⟨hb, hp, hr, hf, ht, ho, hm⟩ hc)
  case wipeConsent =>
    intro s b i x t hb hp hr hf ht ho hm hc
    exact congrArg Host.Outcome.next (State.bladeExec_passed ⟨hb, hp, hr, hf, ht, ho, hm⟩ hc (Blade.carry_wipeConsent ho))
  case wipeConsentFailed =>
    intro s b i x t e hb hp hr hf ht ho hm hc
    exact congrArg Host.Outcome.next (State.bladeExec_failed ⟨hb, hp, hr, hf, ht, ho, hm⟩ hc)
  case health =>
    intro s b i temp die x y t hb hy hp hr hf ht ho hm hc
    subst hy
    rw [exec_bcpHealth hb, State.bladeExec_passed ⟨State.blade_setBlade .., hp, hr, hf, ht, ho, hm⟩ hc (Blade.carry_health ho)]
    rfl
  case healthFailed =>
    intro s b i temp die x y t e hb hy hp hr hf ht ho hm hc
    subst hy
    rw [exec_bcpHealth hb, State.bladeExec_failed ⟨State.blade_setBlade .., hp, hr, hf, ht, ho, hm⟩ hc]
    rfl
  case programFailedKeeps =>
    intro s b i m x t e hb hp hr hf ht ho hm hc
    refine ⟨_, congrArg Host.Outcome.next (State.bladeExec_failed ⟨hb, hp, hr, hf, ht, ho, hm⟩ hc), ?_, ?_⟩ <;>
      rw [State.answer_blade, Option.map_some]
    · rw [Blade.leave_blocks]
    · rw [Blade.leave_recs]

end Sys2Proof.Machine
end

section
/-! RENEW and LEASE_RELEASE at a blade, and what a released shard accepts (R306). -/
namespace Sys2Proof.Machine
open Sys2Proof

/-- Settles O53: a command that passes its checks is carried out, and the laws of the epoch records say what RENEW, LEASE_RELEASE
and SET_EPOCH leave; one that fails its ownership check answers that status and changes nothing. -/
theorem bladeRenewAndRelease : Obligations.BladeRenewAndRelease := by
  unfold Obligations.BladeRenewAndRelease
  refine ⟨?renew, ?release, ?releaseRefused, ?mutationStale, ?newEpoch⟩
  case renew =>
    intro x now p g m c ho hc
    rw [Blade.run_passed hc, Blade.carry_renew ho]
    refine ⟨rfl, fun i hi => ?_, Blade.doRenew_result_lt, fun i hi => ?_, fun j => Blade.epochRec_doRenew_other,
      Blade.doRenew_frame⟩
    · rw [Blade.doRenew_result_testBit, decide_eq_true hi, Bool.true_and]
      rfl
    · rw [Blade.epochRec_doRenew_shard hi, Blade.doRenew_result_testBit, decide_eq_true hi, Bool.true_and]
  case release =>
    intro x now p g m c ho hc
    have hepoch := Blade.epochCheck_none (Blade.ruleCheck_release ho ▸ Blade.ruleCheck_of_check_none hc)
    rw [Blade.run_passed hc, Blade.carry_release ho]
    exact ⟨rfl, Blade.epochRec_setRec_self .., fun j hj => Blade.epochRec_setRec_ne _ _ hj, rfl, hepoch⟩
  case releaseRefused =>
    intro x now p g m c e ho hr he
    have hcheck : x.check now p c = some e := by
      rw [Blade.check_formed (BCmd.formed_fence (.inr ho) hr), Blade.ruleCheck_release ho, he, Option.some_or]
    rw [Blade.run_failed hcheck]
    exact ⟨rfl, rfl⟩
  case mutationStale =>
    intro x now p g m c hmut h0 h15 hr hl ha hanchor he hrel
    have hcheck : x.check now p c = some St.epochStale := by
      rw [Blade.check_formed ⟨h0, h15, hr, hl, ha⟩, Blade.ruleCheck_mutating hmut,
        Blade.ownerCheck_epoch hanchor (Blade.epochCheck_released he hrel), Option.some_or]
    rw [Blade.run_failed hcheck]
    exact ⟨rfl, rfl⟩
  case newEpoch =>
    intro x now p g m c ho hr hrel hp hn
    have hcheck : x.check now p c = none := by
      rw [Blade.check_formed (BCmd.formed_fence (.inl ho) hr), Blade.ruleCheck_setEpoch ho,
        Blade.setEpochCheck_released hp hn hrel, Option.none_or, Blade.ownCheck_setEpoch ho]
    rw [Blade.run_passed hcheck, Blade.carry_setEpoch ho]
    exact ⟨hcheck, Blade.epochRec_setRec_self ..⟩

end Sys2Proof.Machine
end

section
/-! The states of a Blade Port, the completions and timeouts of blade commands, and PASS (R288, R289, R293, R311 to R316): what each
command does where its event takes place. -/
namespace Sys2Proof.Machine
open Sys2Proof

section
variable {s : State} {b : Fin 16}

/-! ## Presence (R288) -/

/-- The level of BLD_b_PRSNT_N kept, with PRSNT. -/
def State.prsntKept (s : State) (b : Fin 16) (low : Bool) : State :=
  ({ s with pins := { s.pins with prsntN := setBitTo s.pins.prsntN b (!low) } } : State).wr (BLD_PORT_STATUS.PRSNT b)
    (if low then 1 else 0)

section
variable {low : Bool} {t : State}

theorem exec_prsntChange_empty (hp : s.present b ≠ low) (ht : t = s.prsntKept b low) (he : t.bldSt b = Bst.empty) :
    exec (.prsntChange b low) s =
      .next (t.setHport b { t.hport b with timer := if low then some (t.inMgmt 160) else none }) := by
  subst ht
  change execPrsntChange b low s = _
  rw [execPrsntChange, if_neg hp]
  exact if_pos he

theorem exec_prsntChange_leaves (hp : s.present b = true) (ht : t = s.prsntKept b false) (hr : t.bldSt b = Bst.ready) :
    exec (.prsntChange b false) s = .next (t.portDown b 2) := by
  subst ht
  change execPrsntChange b false s = _
  rw [execPrsntChange, if_neg (by rw [hp]; decide)]
  exact (if_neg (by rw [← State.prsntKept, hr]; decide)).trans (if_pos ⟨hr, rfl⟩)

/-- A port that is not EMPTY keeps the level, and one that is READY stays so while its blade does not leave. -/
theorem exec_prsntChange_kept (hp : s.present b ≠ low) (he : (s.prsntKept b low).bldSt b ≠ Bst.empty)
    (hr : low = true ∨ (s.prsntKept b low).bldSt b ≠ Bst.ready) :
    exec (.prsntChange b low) s = .next (s.prsntKept b low) := by
  have hstays : ¬ ((s.prsntKept b low).bldSt b = Bst.ready ∧ (!low) = true) := by
    rintro ⟨hready, hlow⟩
    rcases hr with rfl | hr
    · exact Bool.false_ne_true hlow
    · exact hr hready
  change execPrsntChange b low s = _
  rw [execPrsntChange, if_neg hp]
  exact (if_neg he).trans (if_neg hstays)

end

/-! ## From EMPTY to READY (R288, R312, R317) -/

theorem exec_prsntDebounceExpiry_due (he : s.bldSt b = Bst.empty) (hp : s.present b = true) (hn : s.portEn b = true)
    (hd : s.due (s.hport b).timer = true) : exec (.prsntDebounceExpiry b) s = .next (s.portReset b) :=
  if_pos ⟨he, hp, hn, hd⟩

theorem exec_portResetExpiry_due (hr : s.bldSt b = Bst.reset) (hd : s.due (s.hport b).timer = true) :
    exec (.portResetExpiry b) s = .next ((s.setBld b Bst.training (some 160)).perst b true) :=
  if_pos ⟨hr, hd⟩

section
variable {x : Blade} {port : Fin 2} {width : Fin 4} {speed32 flit : Bool}

/-- Whether the port does not accept the link (R288). -/
def State.linkRefused (s : State) (width : Fin 4) (speed32 flit : Bool) : Prop :=
  flit = false ∨ width.val ≤ s.rd BLD_LINK_CFG.MIN_WIDTH ∨ (speed32 = true ∧ s.on BLD_LINK_CFG.ALLOW_32GT = false)

/-- An accepted link of a trained port: the blade port it reaches, its width and its speed are kept. -/
def State.linkKept (s : State) (b : Fin 16) (x : Blade) (port : Fin 2) (width : Fin 4) (speed32 : Bool) : State :=
  ((((s.setHport b { s.hport b with miswired := port.val != s.headNo }).setBlade b
    (x.setPort port { x.port port with linkUp := true })).wr (BLD_PORT_STATUS.WIDTH b) width.val).wr
      (BLD_PORT_STATUS.SPEED32 b) (if speed32 then 1 else 0))

theorem not_untrained (ht : s.bldSt b = Bst.training) (hp : x.powered = true) (hw : width.val ≠ 0) :
    ¬ (s.bldSt b ≠ Bst.training ∨ (!x.powered) = true ∨ width.val = 0) := by
  rw [hp]
  rintro (h | h | h)
  · exact h ht
  · exact Bool.false_ne_true h
  · exact hw h

theorem exec_bladeLinkTrained_refused (hb : s.blade b = some x) (ht : s.bldSt b = Bst.training) (hp : x.powered = true)
    (hw : width.val ≠ 0) (hr : s.linkRefused width speed32 flit) (major : Nat) :
    exec (.bladeLinkTrained b port width speed32 flit major) s = .next (s.portDown b 6) := by
  change execBladeLinkTrained b port width speed32 flit major s = _
  simp only [execBladeLinkTrained, hb]
  rw [if_neg (not_untrained ht hp hw), if_pos]
  simp only [Bool.not_eq_true']
  exact hr

theorem exec_bladeLinkTrained_accepted (hb : s.blade b = some x) (ht : s.bldSt b = Bst.training) (hp : x.powered = true)
    (hw : width.val ≠ 0) (hr : ¬ s.linkRefused width speed32 flit) (major : Nat) {t u : State}
    (hu : u = s.linkKept b x port width speed32)
    (hv : t = if width.val < 3 ∨ speed32 = true then u.raise Ev.bladeDegraded (some .bld) (some b.val) [b, width.val] else u) :
    exec (.bladeLinkTrained b port width speed32 flit major) s = .next (t.portInit b major) := by
  subst hv hu
  change execBladeLinkTrained b port width speed32 flit major s = _
  simp only [execBladeLinkTrained, hb]
  rw [if_neg (not_untrained ht hp hw), if_neg]
  · rfl
  · simp only [Bool.not_eq_true']
    exact hr

/-- The port is READY, with no timer, and no completion is awaited from before. -/
def State.bldReady (s : State) (b : Fin 16) : State :=
  (((s.setBld b Bst.ready none).setHport b { (s.setBld b Bst.ready none).hport b with timer := none, lastCpl := s.now }).raise
    Ev.bladeLink (some .bld) (some b.val) [b.val, Bst.ready]).carcReachable b

theorem exec_bladeRdySeen_init (hb : s.blade b = some x) (hi : s.bldSt b = Bst.init) (hr : x.rdy = true) (hp : x.powered = true)
    (hl : (x.port (s.portNo b)).linkUp = true) : exec (.bladeRdySeen b) s = .next
      (if (s.hport b).miswired then
        (s.raise Ev.headMiswired (some .lease) (some b.val) [b, s.portNo b]).bldReady b
      else (List.range 256).foldl (fun (s : State) sh => s.epochGiven b sh) (s.bldReady b)) := by
  change execBladeRdySeen b s = _
  simp only [execBladeRdySeen, hb, hi, hr, hp, hl, ne_eq, not_true, Bool.not_true, Bool.false_eq_true, or_self, if_false,
    State.bldReady, State.hport_setBld]
  by_cases hm : (s.hport b).miswired = true
  · simp only [hm, if_true]
  · simp only [hm, Bool.false_eq_true, if_false]

end

/-! ## To DOWN and back (R288, R289, R309) -/

theorem exec_bladeTrainingTimeout_due (ht : s.bldSt b = Bst.training) (hd : s.due (s.hport b).timer = true) :
    exec (.bladeTrainingTimeout b) s = .next (s.portDown b 6) :=
  if_pos ⟨ht, hd⟩

theorem exec_bladeRdyTimeout_due (hi : s.bldSt b = Bst.init) (hd : s.due (s.hport b).timer = true) :
    exec (.bladeRdyTimeout b) s = .next (s.portDown b 7) :=
  if_pos ⟨hi, hd⟩

theorem exec_bladeFatalSeen_ready {x : Blade} (hb : s.blade b = some x) (hr : s.bldSt b = Bst.ready) (hp : x.powered = true) :
    exec (.bladeFatalSeen b) s = .next
      ((((s.setBlade b { x with fatal := true }).raise Ev.bladeFatal (some .bld) (some b.val) [b.val]).portDown b 3).carcFailed
        b) := by
  change execBladeFatalSeen b s = _
  simp only [execBladeFatalSeen, hb, hr, hp, and_self, if_true]

theorem exec_dlDown_ready (hr : s.bldSt b = Bst.ready) : exec (.dlDown b) s = .next (s.portDown b 1) :=
  if_pos hr

theorem exec_unreachExpiry_passed (hr : s.bldSt b = Bst.ready) (hi : (s.hport b).issued ≠ [])
    (hp : s.passed ((s.hport b).lastCpl + s.rd BLD_LINK_CFG.UNREACH * mgmtTick) = true) :
    exec (.unreachExpiry b) s = .next (s.portDown b 4) :=
  if_pos ⟨hr, by rw [Bool.not_eq_true', List.isEmpty_eq_false_iff]; exact hi, hp⟩

theorem exec_portDownExpiry_due (hd : s.bldSt b = Bst.down) (ht : s.due (s.hport b).timer = true) :
    exec (.portDownExpiry b) s = .next (if s.present b = true then s.portReset b else s.setBld b Bst.empty none) := by
  rw [apply_ite Host.Outcome.next]
  exact if_pos ⟨hd, ht⟩

/-- A write outside the configuration class that need not be journaled takes its effect alone (R387). -/
theorem State.plainField_unaudited {u : UnitId} {o : Origin} (ht : s.originThere o.toNat = true)
    (ha : s.audited false o.toNat = false) (g : Fld) (v : Nat) (eff : State → State) : s.plainField u o g v eff = eff s := by
  simp only [State.plainField, State.regWrite, ht, ha, Bool.not_true, Bool.not_false, Bool.false_eq_true, if_true, if_false]

end

/-! ## Completions and timeouts (R289, R293) -/

section
variable {s : State} {b i : Nat}

theorem exec_bladeCompletion_read {c : BCpl} (hc : (s.hport b).cq[i]? = some c) : exec (.bladeCompletion b i) s =
    .next ((s.setHport b { s.hport b with cq := (s.hport b).cq.eraseIdx i }).bladeComplete b c) := by
  change execBladeCompletion b i s = _
  simp only [execBladeCompletion, hc]

theorem exec_commandTimeoutExpiry_passed {e : Issued} (he : (s.hport b).issued[i]? = some e)
    (hp : s.passed (e.since + s.rd BLD_LINK_CFG.CMD_TIMEOUT * mgmtTick) = true) : exec (.commandTimeoutExpiry b i) s =
      .next (((((s.setHport b { s.hport b with
        issued := (s.hport b).issued.eraseIdx i, late := e.lateSlot ++ (s.hport b).late }).countPort b).bump
          (BLD_PORT_ERR.TIMEOUTS b) 1).raise Ev.bladeTimeout (some .bld) (some b) [b, e.cmd.op]).bladeDeliver b e
            ⟨St.cmdTimeout, 0, []⟩) := by
  change execCommandTimeoutExpiry b i s = _
  simp only [execCommandTimeoutExpiry, he, hp, Bool.not_true, Bool.false_eq_true, if_false]

end

/-! ## PASS (R313) -/

section
variable {s : State} {d : DescRef} {f : Fetched} {img : List Byte}

/-- PASS has started, waits for no blade, and has read the image of its command. -/
structure State.PassRead (s : State) (d : DescRef) (f : Fetched) (img : List Byte) : Prop where
  started : s.startedAt .bld d Op.pass = some f
  idle : ((List.range 16).any fun b => (s.hport b).issued.any fun e => e.issuer == .pass d) = false
  read : (s.dmaRead .bld f.src 64 (some d.ring)).toOption = some img

/-- The command PASS sends: the image with the descriptor's DESTINATION and LENGTH. -/
def Fetched.passCmd (f : Fetched) (img : List Byte) : BCmd :=
  ⟨splice (splice img 16 (leBytes 8 f.dst)) 24 (leBytes 4 f.len), [], []⟩

/-- A port that is not READY takes no command (R289). -/
theorem State.issue_notReady {b : Nat} (h : s.bldSt b ≠ Bst.ready) (q : Nat) (c : BCmd) (who : Issuer) :
    s.issue b q c who = (false, s) :=
  if_pos h

theorem exec_pass_refused (h : s.PassRead d f img) (hno : passable (fieldAt img 0 1) = false) :
    exec (.pass d) s = .next (s.finish .bld d St.passRefused) := by
  change execPass d s = _
  simp only [execPass, h.started, h.idle, eq_ok_of_toOption h.read, hno, Bool.not_false, Bool.false_eq_true, if_true, if_false]

section
variable (h : s.PassRead d f img) (hok : passable (fieldAt img 0 1) = true)
include h hok

theorem exec_pass_outside (hv : inVat f.dst = false) : exec (.pass d) s = .next (s.finish .bld d St.addrInvalid) := by
  change execPass d s = _
  simp only [execPass, h.started, h.idle, eq_ok_of_toOption h.read, hok, hv, Bool.not_false, Bool.not_true, Bool.false_eq_true,
    if_true, if_false]

theorem exec_pass_sent {t : State} (hv : inVat f.dst = true) (hb : f.at 28 1 ≤ 15)
    (hi : s.issue (f.at 28 1) 15 (f.passCmd img) (.pass d) = (true, t)) : exec (.pass d) s = .next t := by
  rw [Fetched.passCmd] at hi
  change execPass d s = _
  simp only [execPass, h.started, h.idle, eq_ok_of_toOption h.read, hok, hv, Nat.not_lt.2 hb, hi, Bool.not_true,
    Bool.false_eq_true, if_false]

theorem exec_pass_unreachable (hv : inVat f.dst = true) (hb : 15 < f.at 28 1 ∨ s.bldSt (f.at 28 1) ≠ Bst.ready) :
    exec (.pass d) s = .next (s.finish .bld d St.bladeUnreachable) := by
  change execPass d s = _
  simp only [execPass, h.started, h.idle, eq_ok_of_toOption h.read, hok, hv, Bool.not_true, Bool.false_eq_true, if_false]
  by_cases h15 : 15 < f.at 28 1
  · rw [if_pos h15]
  · rw [if_neg h15, State.issue_notReady (hb.resolve_left h15)]

end

end

/-- Settles O32: each clause is the equation of its command under the clause's hypotheses. -/
theorem bladePortStatesAndPass : Obligations.BladePortStatesAndPass := by
  unfold Obligations.BladePortStatesAndPass
  refine ⟨?arrives, ?arrivesKept, ?leavesKept, ?leavesEmpty, ?leavesReady, ?debounced, ?resetOver, ?linkRefused, ?linkFull,
    ?linkFlit, ?trainingTimeout, ?rdyTimeout, ?rdy, ?rdyMiswired, ?fatal, ?dlDown, ?unreach, ?downGone, ?downPresent, ?forced,
    ?forcedEmpty, ?completion, ?timeout, ?pass, ?passRefused, ?passUnreachable, ?passOutside⟩
  case arrives =>
    intro s b t hp _ ht he
    exact exec_prsntChange_empty (by rw [hp]; decide) ht he
  case arrivesKept =>
    intro s b hp _ he
    exact exec_prsntChange_kept (by rw [hp]; decide) he (.inl rfl)
  case leavesKept =>
    intro s b hp he hr
    exact exec_prsntChange_kept (by rw [hp]; decide) he (.inr hr)
  case leavesEmpty =>
    intro s b t hp ht he
    exact exec_prsntChange_empty (by rw [hp]; decide) ht he
  case leavesReady =>
    intro s b t
    exact exec_prsntChange_leaves
  case debounced =>
    intro s b
    exact exec_prsntDebounceExpiry_due
  case resetOver =>
    intro s b
    exact exec_portResetExpiry_due
  case linkRefused =>
    intro s b port width speed32 flit major x hb ht hp hw hr
    exact exec_bladeLinkTrained_refused hb ht hp hw hr major
  case linkFull =>
    rintro s b port major x t u hb ht hp hmin rfl rfl
    refine exec_bladeLinkTrained_accepted hb ht hp (by decide) ?_ major rfl rfl
    rintro (h | h | ⟨h, -⟩)
    · exact Bool.false_ne_true h.symm
    · exact Nat.not_le.2 hmin h
    · exact Bool.false_ne_true h
  case linkFlit =>
    rintro s b port width speed32 major x t u v hb ht hp hw hmin hs rfl rfl hv
    refine exec_bladeLinkTrained_accepted hb ht hp hw ?_ major rfl hv
    rintro (h | h | ⟨h, hoff⟩)
    · exact Bool.false_ne_true h.symm
    · exact Nat.not_le.2 hmin h
    · exact Bool.false_ne_true (hoff.symm.trans (hs h))
  case trainingTimeout =>
    intro s b
    exact exec_bladeTrainingTimeout_due
  case rdyTimeout =>
    intro s b
    exact exec_bladeRdyTimeout_due
  case rdy =>
    rintro s b x t hb hi hr hp hl hm rfl
    rw [exec_bladeRdySeen_init hb hi hr hp hl, hm]
    rfl
  case rdyMiswired =>
    rintro s b x t u hb hi hr hp hl hm rfl rfl
    rw [exec_bladeRdySeen_init hb hi hr hp hl, hm]
    rfl
  case fatal =>
    intro s b x
    exact exec_bladeFatalSeen_ready
  case dlDown =>
    intro s b
    exact exec_dlDown_ready
  case unreach =>
    intro s b
    exact exec_unreachExpiry_passed
  case downGone =>
    intro s b hd ht hp
    rw [exec_portDownExpiry_due hd ht, hp, if_neg Bool.false_ne_true]
  case downPresent =>
    intro s b hd ht hp
    rw [exec_portDownExpiry_due hd ht, if_pos hp]
  case forced =>
    intro s b origin ht ha he
    exact congrArg Host.Outcome.next ((State.plainField_unaudited ht ha ..).trans (if_neg he))
  case forcedEmpty =>
    intro s b origin ht ha he
    exact congrArg Host.Outcome.next ((State.plainField_unaudited ht ha ..).trans (if_pos he))
  case completion =>
    intro s b i c
    exact exec_bladeCompletion_read
  case timeout =>
    intro s b i e
    exact exec_commandTimeoutExpiry_passed
  case pass =>
    intro s d f img t hf hw hr hok
    exact exec_pass_sent ⟨hf, hw, hr⟩ hok
  case passRefused =>
    intro s d f img hf hw hr
    exact exec_pass_refused ⟨hf, hw, hr⟩
  case passUnreachable =>
    intro s d f img hf hw hr hok
    exact exec_pass_unreachable ⟨hf, hw, hr⟩ hok
  case passOutside =>
    intro s d f img hf hw hr hok
    exact exec_pass_outside ⟨hf, hw, hr⟩ hok

end Sys2Proof.Machine
end

section
/-! The states of the Tenon link and its flits (R318 to R322): what each command does where its event takes place. -/
namespace Sys2Proof.Machine
open Sys2Proof

/-! ## Enabling and forced retraining (R318, R319) -/

section
variable {s : State} {origin : Origin}

theorem exec_tenonEnable_admitted (ha : s.admits .ten origin = true) (en : Bool) : exec (.tenonEnable origin en) s =
    .next (s.journaled (s.tenEnable en) origin TEN_CTL.EN (if en then 1 else 0)) :=
  congrArg Host.Outcome.next (State.cfgField_admitted ha ..)

theorem exec_tenonRetrain_admitted (ha : s.admits .ten origin = true) : exec (.tenonRetrain origin) s =
    .next (s.journaled (if s.tenSt = Tst.active then s.tenRetrain else s) origin TEN_CTL.RETRAIN 1) :=
  congrArg Host.Outcome.next (State.cfgField_admitted ha ..)

theorem State.tenEnable_of_disabled (hd : (s.wr TEN_CTL.EN 1).tenSt = Tst.disabled) (hs : (s.wr TEN_CTL.EN 1).solo = false) :
    s.tenEnable true = ((s.wr TEN_CTL.EN 1).setTst Tst.detect none).linkChanged :=
  if_pos ⟨hd, by rw [Bool.not_eq_true']; exact hs⟩

theorem State.tenDisable_of_active (h : (s.wr TEN_CTL.EN 0).tenSt = Tst.active) :
    s.tenEnable false = (((s.wr TEN_CTL.EN 0).tenDown 7).setTst Tst.disabled none).linkChanged :=
  congrArg (fun t : State => (t.setTst Tst.disabled none).linkChanged) (if_pos h)

end

/-! ## Exchange and retraining (R319, R320) -/

section
variable {s : State}

/-- A peer of version 1 with the other head number makes the link ACTIVE; the head whose time is ahead is the master. -/
theorem exec_tenonExchange_accepted {head : Fin 2} {time : Nat} (he : s.tenSt = Tst.exchange)
    (hh : head.val ≠ (s.wr TEN_STATUS.PEER_HEAD head.val).headNo) : exec (.tenonExchange 1 head time) s =
      .next (((s.wr TEN_STATUS.PEER_HEAD head.val).wr TEN_TIME_STATUS.MASTER
        (if time < s.now ∨ (time = s.now ∧ (s.wr TEN_STATUS.PEER_HEAD head.val).headNo = 0) then 1 else 0)).tenUp) := by
  change execTenonExchange 1 head time s = _
  simp only [execTenonExchange, he, hh, ne_eq, not_true, if_false, Bool.or_eq_true, Bool.and_eq_true, decide_eq_true_eq,
    beq_iff_eq]
  rfl

theorem exec_tenonExchange_version {version time : Nat} {head : Fin 2} (he : s.tenSt = Tst.exchange) (hv : version ≠ 1) :
    exec (.tenonExchange version head time) s = .next ((s.wr TEN_STATUS.PEER_HEAD head.val).tenDown 5) :=
  (if_neg (not_not_intro he)).trans (if_pos hv)

theorem exec_tenonExchange_conflict {time : Nat} {head : Fin 2} (he : s.tenSt = Tst.exchange)
    (hh : head.val = (s.wr TEN_STATUS.PEER_HEAD head.val).headNo) : exec (.tenonExchange 1 head time) s =
      .next (((s.wr TEN_STATUS.PEER_HEAD head.val).raise Ev.headConflict (some .ten)).tenDown 4) :=
  ((if_neg (not_not_intro he)).trans (if_neg (not_not_intro rfl))).trans (if_pos hh)

theorem exec_tenonRetrainDone_fit {good use : Nat} (hr : s.tenSt = Tst.retrain) (hf : s.lanesFit good use = true)
    (reversed : Bool) {t : State} (ht : t = (((s.setTst Tst.active none).setTen
      { (s.setTst Tst.active none).ten with limit := none, lastFlit := s.now }).lanesUsed use reversed).linkChanged) :
    exec (.tenonRetrainDone good use reversed) s =
      .next (if popCount use 8 < s.minWidth then s.tenDown 3 else t.tenPump t.ten.out.length) := by
  have hgo : ¬ (s.tenSt ≠ Tst.retrain ∨ (!s.lanesFit good use) = true) := by simp [hr, hf]
  rw [apply_ite Host.Outcome.next, ht]
  exact if_neg hgo

end

/-! ## Flits (R321, R322) -/

section
variable {s : State}

theorem State.nak_before_eighth (h : s.ten.nakRun < 7) :
    s.nak = (s.bump TEN_ERR.REPLAYS 1).setTen { s.ten with nakDue := true, nakRun := s.ten.nakRun + 1 } :=
  if_neg (show ¬ 8 ≤ s.ten.nakRun + 1 by omega)

theorem State.nak_eighth (h : s.ten.nakRun = 7) :
    s.nak = ((s.bump TEN_ERR.REPLAYS 1).setTen { s.ten with nakDue := true, nakRun := 8 }).tenRetrain := by
  simp only [State.nak, State.bump, h, Nat.reduceAdd, Nat.le_refl, if_true]

/-- FLIT_RX counts a flit whose errors FEC has corrected. -/
def State.fecCounted (s : State) (corrected : Bool) : State := if corrected then s.bump TEN_ERR.FEC_CORR 1 else s

theorem State.fecCounted_tenSt (corrected : Bool) : (s.fecCounted corrected).tenSt = s.tenSt := by
  cases corrected with
  | false => rfl
  | true => exact s.rd_wr_reg _ (by decide) (by decide) (by decide)

/-- What FLIT_RX does with a good flit's sequence number: the next one is taken, one out of sequence is NAKed once. -/
def State.flitTaken (s : State) (corrected : Bool) (fseq : Fin 1024) : State :=
  let t := (s.fecCounted corrected).setTen { s.ten with lastFlit := s.now }
  if fseq.val = (s.ten.rxSeq + 1) % 1024 then t.setTen { t.ten with rxSeq := fseq.val, nakDue := false, nakRun := 0 }
  else if s.ten.nakDue then t else t.nak

section
variable {corrected : Bool} {fseq : Fin 1024}

theorem State.flitTaken_next (h : fseq.val = (s.ten.rxSeq + 1) % 1024) : s.flitTaken corrected fseq =
    (s.fecCounted corrected).setTen { s.ten with lastFlit := s.now, rxSeq := fseq.val, nakDue := false, nakRun := 0 } :=
  if_pos h

theorem State.flitTaken_repeated (h : fseq.val ≠ (s.ten.rxSeq + 1) % 1024) (hd : s.ten.nakDue = true) :
    s.flitTaken corrected fseq = (s.fecCounted corrected).setTen { s.ten with lastFlit := s.now } :=
  (if_neg h).trans (if_pos hd)

theorem State.flitTaken_outOfSequence (h : fseq.val ≠ (s.ten.rxSeq + 1) % 1024) (hd : s.ten.nakDue = false) :
    s.flitTaken corrected fseq = ((s.fecCounted corrected).setTen { s.ten with lastFlit := s.now }).nak :=
  (if_neg h).trans (if_neg (Bool.eq_false_iff.1 hd))

end

section
variable {fseq ack : Fin 1024} {nak : Bool}

theorem exec_flitRx_bad (ha : s.tenSt = Tst.active) (corrected : Bool) :
    exec (.flitRx false corrected fseq ack nak) s = .next (((s.fecCounted corrected).bump TEN_ERR.CRC_FAIL 1).nak) :=
  if_neg (not_not_intro ha)

/-- A good flit that leaves the link ACTIVE: its ACK is taken, and the eighth NAK in a row for one flit retrains. -/
theorem exec_flitRx_good {corrected : Bool} {t : State} {run : Nat} (ha : s.tenSt = Tst.active)
    (ht : t = s.flitTaken corrected fseq) (hact : t.tenSt = Tst.active)
    (hr : run = if nak then (if t.ten.ackd = ack.val then t.ten.inNakRun + 1 else 1) else 0) :
    exec (.flitRx true corrected fseq ack nak) s =
      .next (if 8 ≤ run then (t.setTen { t.ten with ackd := ack.val, inNakRun := run }).tenRetrain
        else t.setTen { t.ten with ackd := ack.val, inNakRun := run }) := by
  subst ht
  rw [apply_ite Host.Outcome.next, hr]
  cases corrected <;>
    exact (if_neg (not_not_intro ha)).trans ((if_neg Bool.false_ne_true).trans (if_neg (not_not_intro hact)))

/-- The next flit in sequence is taken, and any NAK that was due is not. -/
theorem exec_flitRx_next {corrected : Bool} {t : State} {run : Nat} (ha : s.tenSt = Tst.active)
    (hseq : fseq.val = (s.ten.rxSeq + 1) % 1024)
    (ht : t = (s.fecCounted corrected).setTen
      { s.ten with lastFlit := s.now, rxSeq := fseq.val, nakDue := false, nakRun := 0 })
    (hr : run = if nak then (if t.ten.ackd = ack.val then t.ten.inNakRun + 1 else 1) else 0) :
    exec (.flitRx true corrected fseq ack nak) s =
      .next (if 8 ≤ run then (t.setTen { t.ten with ackd := ack.val, inNakRun := run }).tenRetrain
        else t.setTen { t.ten with ackd := ack.val, inNakRun := run }) := by
  have hact : t.tenSt = Tst.active := ht ▸ (State.fecCounted_tenSt corrected).trans ha
  exact exec_flitRx_good ha (ht.trans (State.flitTaken_next hseq).symm) hact hr

end

end

/-- Settles O33: each clause is the equation of its command under the clause's hypotheses. -/
theorem tenonLinkStates : Obligations.TenonLinkStates := by
  unfold Obligations.TenonLinkStates
  refine ⟨?enable, ?enableAny, ?disable, ?forcedElsewhere, ?forced, ?signal, ?signalFew, ?trainDone, ?trainTimeout, ?master,
    ?slave, ?version, ?conflict, ?silence, ?retrainDone, ?tooNarrow, ?retrainTimeout, ?downExpiry, ?laneBad, ?flitPlain,
    ?flitBadEarly, ?flitNext, ?flitNextEighth, ?flitAgain, ?flitAhead, ?flitBad, ?flitBadEighth⟩
  case enable =>
    intro s origin ha hd hs
    rw [exec_tenonEnable_admitted ha, State.tenEnable_of_disabled hd hs, if_pos rfl]
  case enableAny =>
    intro s origin en ha
    exact exec_tenonEnable_admitted ha en
  case disable =>
    intro s origin ha hact
    rw [exec_tenonEnable_admitted ha, State.tenDisable_of_active hact, if_neg Bool.false_ne_true]
  case forcedElsewhere =>
    intro s origin ha hact
    rw [exec_tenonRetrain_admitted ha, if_neg hact]
  case forced =>
    intro s origin ha hact
    rw [exec_tenonRetrain_admitted ha, if_pos hact]
  case signal =>
    intro s lanes hd hw
    exact if_pos ⟨hd, hw⟩
  case signalFew =>
    intro s lanes _ hw
    exact if_neg fun h => Nat.not_le.2 hw h.2
  case trainDone =>
    intro s good use reversed ht hf hw
    exact if_pos ⟨ht, hf, hw⟩
  case trainTimeout =>
    intro s ht hd
    exact if_pos ⟨ht, hd⟩
  case master =>
    intro s head time he hh htime
    rw [exec_tenonExchange_accepted he hh, if_pos htime]
  case slave =>
    intro s head time he hh htime
    rw [exec_tenonExchange_accepted he hh, if_neg]
    omega
  case version =>
    intro s version time head
    exact exec_tenonExchange_version
  case conflict =>
    intro s time head
    exact exec_tenonExchange_conflict
  case silence =>
    intro s ha hp
    exact if_pos ⟨ha, hp⟩
  case retrainDone =>
    intro s good use reversed t hr hf hw ht
    rw [exec_tenonRetrainDone_fit hr hf reversed ht, if_neg (Nat.not_lt.2 hw)]
  case tooNarrow =>
    intro s good use reversed hr hf hw
    rw [exec_tenonRetrainDone_fit hr hf reversed rfl, if_pos hw]
  case retrainTimeout =>
    intro s hr hd
    exact if_pos ⟨hr, hd⟩
  case downExpiry =>
    intro s hdown he hd
    exact if_pos ⟨hdown, he, hd⟩
  case laneBad =>
    intro s lane ha hb
    exact if_pos ⟨ha, hb⟩
  case flitPlain =>
    intro s fseq ack ha hseq
    exact exec_flitRx_next (nak := false) ha hseq rfl rfl
  case flitBadEarly =>
    intro s fseq ack nak ha hn
    exact (exec_flitRx_bad ha false).trans (congrArg Host.Outcome.next (State.nak_before_eighth hn))
  case flitNext =>
    intro s corrected nak fseq ack t run ha hseq ht hr hrun
    rw [exec_flitRx_next ha hseq ht hr, if_neg (Nat.not_le.2 hrun)]
  case flitNextEighth =>
    intro s corrected nak fseq ack t run ha hseq ht hr hrun
    rw [exec_flitRx_next ha hseq ht hr, if_pos hrun]
  case flitAgain =>
    intro s corrected nak fseq ack t run ha hseq hdue ht hr hrun
    have hact : t.tenSt = Tst.active := ht ▸ (State.fecCounted_tenSt corrected).trans ha
    rw [exec_flitRx_good ha (ht.trans (State.flitTaken_repeated hseq hdue).symm) hact hr, if_neg (Nat.not_le.2 hrun)]
  case flitAhead =>
    intro s corrected nak fseq ack t run ha hseq hdue ht hr hact hrun
    rw [exec_flitRx_good ha (ht.trans (State.flitTaken_outOfSequence hseq hdue).symm) hact hr, if_neg (Nat.not_le.2 hrun)]
  case flitBad =>
    intro s corrected nak fseq ack ha
    exact exec_flitRx_bad ha corrected
  case flitBadEighth =>
    intro s fseq ack nak ha hn
    exact (exec_flitRx_bad ha false).trans
      (congrArg Host.Outcome.next (State.nak_eighth hn))

end Sys2Proof.Machine
end

section
/-! Credits and time synchronisation over the Tenon (R324 to R326): what the link leaves unchanged when a message is given to it,
then what each command does where its event takes place. -/
namespace Sys2Proof.Machine
open Sys2Proof

/-! ## What a message given to the link leaves unchanged (R323, R324) -/

/-- The change that a message given to the link can make: the link's own state, and the parts of commands that are now with the
peer. -/
def State.SendChange (s t : State) : Prop := t = { s with ten := t.ten, par := t.par }

theorem State.SendChange.refl (s : State) : s.SendChange s := rfl

theorem State.SendChange.trans {s t u : State} (h : s.SendChange t) (k : t.SendChange u) : s.SendChange u := by
  rw [State.SendChange, k, h]

theorem State.sendChange_tenLeave (s : State) (m : TenMsg) : s.SendChange (s.tenLeave m) := by
  simp only [State.tenLeave]
  split <;> rfl

theorem State.sendChange_tenPump (n : Nat) : ∀ s : State, s.SendChange (s.tenPump n) := by
  induction n with
  | zero => exact State.SendChange.refl
  | succ n ih =>
    intro s
    simp only [State.tenPump]
    split
    · exact .refl s
    · split
      · exact .refl s
      · refine State.SendChange.trans ?_ (ih _)
        exact State.sendChange_tenLeave (s.setTen _) _

theorem State.sendChange_tenSend (s : State) (m : TenMsg) : s.SendChange (s.tenSend m) := by
  simp only [State.tenSend]
  split
  · exact .refl s
  · exact State.sendChange_tenPump _ _

theorem State.sendChange_received (s : State) (key n : Nat) : s.SendChange (s.received key n) := by
  rw [State.received]
  split
  · exact s.sendChange_tenSend _
  · exact .refl s

theorem State.received_now (s : State) (key n : Nat) : (s.received key n).now = s.now := by
  rw [s.sendChange_received key n]

theorem State.received_mem (s : State) (key n : Nat) : (s.received key n).mem = s.mem := by
  rw [s.sendChange_received key n]

/-! ## Credits (R324) -/

section
variable {s : State} {n : Nat}

/-- Credits of a class are added. -/
def State.credited (s : State) (key n : Nat) : State :=
  s.setTen { s.ten with credits := Tab.set s.ten.credits key (s.credit key + n) }

/-- The messages that `n` credits of MAIL say have been placed, the oldest first. -/
def State.mailPlaced (s : State) (n : Nat) : List DescRef :=
  (s.ten.mailOut.foldl (fun (a : List DescRef × Nat) d =>
    let size := ((s.fetchedAt .ten d).map fun f => 16 + alignUp f.len 16).getD 0
    if size ≤ a.2 then (a.1 ++ [d], a.2 - size) else (a.1, 0)) ([], n)).1

theorem State.mailPlaced_one {d : DescRef} {f : Fetched} (hm : s.ten.mailOut = [d]) (hf : s.fetchedAt .ten d = some f)
    (hn : 16 + alignUp f.len 16 ≤ n) : s.mailPlaced n = [d] := by
  simp only [State.mailPlaced, hm, List.foldl_cons, List.foldl_nil, hf, Option.map_some, Option.getD_some, hn, if_true,
    List.nil_append]

/-- Credits are added, the descriptors of placed messages complete, and waiting messages leave. -/
theorem exec_ctrlCredit_active {key : Nat} {placed : List DescRef} {t : State} (hl : s.linkActive = true) (h1 : 1 ≤ key)
    (h8 : key ≤ 8) (hp : placed = if key = 7 then (s.credited key n).mailPlaced n else [])
    (ht : t = placed.foldl (fun u d => u.finish .ten d St.success) ((s.credited key n).setTen
      { (s.credited key n).ten with mailOut := s.ten.mailOut.filter fun d => !placed.contains d })) :
    exec (.ctrlCredit key n) s = .next (t.tenPump t.ten.out.length) := by
  have hgo : ¬ ((!s.linkActive) = true ∨ key = 0 ∨ 8 < key) := by
    simp only [hl, Bool.not_true, Bool.false_eq_true, false_or]
    omega
  subst ht hp
  exact if_neg hgo

end

/-! ## The exchange of time (R325, R326) -/

section
variable {s u v : State} {off : Int}

/-- Whether the slave steps its time: it holds no lease, and its offset has reached STEP_MIN. -/
def State.stepsTime (u : State) (off : Int) : Bool :=
  u.heldShards.isEmpty && decide (off ≤ -((u.rd TEN_TIME_CFG.STEP_MIN * mgmtTick : Nat) : Int))

theorem State.stepsTime_iff : u.stepsTime off = true ↔
    u.heldShards = [] ∧ off ≤ -((u.rd TEN_TIME_CFG.STEP_MIN * mgmtTick : Nat) : Int) := by
  rw [State.stepsTime, Bool.and_eq_true, List.isEmpty_iff, decide_eq_true_eq]

/-- OFFSET is kept, and RATE is trimmed. -/
def State.offsetKept (u : State) (off : Int) : State :=
  ((u.wr TEN_TIME_STATUS.OFFSET (ofSigned off 32)).wr TEN_TIME_STATUS.RATE
    (u.wr TEN_TIME_STATUS.OFFSET (ofSigned off 32)).freeWord).draw

/-- The exchange in hand ends, with `left` ticks to slew. -/
def State.timeExchanged (v : State) (left : Int) : State :=
  v.setTen { v.ten with
    t1 := none, exchanged := true, slewLeft := left, slewAt := if v.ten.slewLeft = 0 then v.now else v.ten.slewAt }

/-- An exchange within 32 ticks sets SYNCED; another clears it. -/
def State.syncJudged (v : State) (off : Int) : State :=
  if -32 ≤ off ∧ off ≤ 32 then (v.wr TEN_TIME_STATUS.SYNCED 1).setTen { v.ten with synced := some v.now } else v.unsync

theorem State.half_mem (s : State) (d : Int) : (s.half d).2.mem = s.mem := by
  rw [State.half]
  split <;> rfl

theorem State.unsync_ten (s : State) : s.unsync.ten = { s.ten with synced := none } := by
  simp only [State.unsync]
  split
  · exact State.raise_ten ..
  · rfl

theorem State.unsync_mem (s : State) : s.unsync.mem = s.mem := by
  simp only [State.unsync]
  split
  · exact State.raise_mem ..
  · rfl

/-- Judging an exchange leaves what is kept of it, and memory. -/
theorem State.syncJudged_rest (v : State) (off : Int) : (v.syncJudged off).ten.t1 = v.ten.t1 ∧
    (v.syncJudged off).ten.exchanged = v.ten.exchanged ∧ (v.syncJudged off).mem = v.mem := by
  rw [State.syncJudged]
  split
  · exact ⟨rfl, rfl, rfl⟩
  · rw [State.unsync_ten, State.unsync_mem]
    exact ⟨rfl, rfl, rfl⟩

/-- TIME_RESP to the request in hand: the slave steps or slews, and SYNCED follows. -/
theorem exec_timeResp_inHand {t1 t2 t3 : Nat} {h : Int} (hl : s.linkActive = true)
    (hm : s.on TEN_TIME_STATUS.MASTER = false) (h1 : s.ten.t1 = some t1)
    (hu : (h, u) = (s.received 2 1).half (((s.now : Int) - t3) - ((t2 : Int) - t1)))
    (ho : off = h + toSigned (u.rd TEN_TIME_CFG.ASYM) 16) :
    exec (.timeResp t1 t2 t3) s = .next ((if u.stepsTime off = true then
        ({ u.offsetKept off with now := (u.now + (-off).toNat) % 2 ^ 64 } : State).timeExchanged 0
      else (u.offsetKept off).timeExchanged off).syncJudged off) := by
  have hgo : ¬ ((!s.linkActive) = true ∨ s.on TEN_TIME_STATUS.MASTER = true ∨ s.ten.t1 ≠ some t1) := by
    simp [hl, hm, h1]
  rw [← State.received_now s 2 1] at hu
  change execTimeResp t1 t2 t3 s = _
  simp only [execTimeResp, if_neg hgo, ← hu, ← ho, ← State.stepsTime.eq_1, ← Bool.decide_and, decide_eq_true_eq]
  rw [State.syncJudged, apply_ite Host.Outcome.next]
  cases u.stepsTime off <;> rfl

end

/-- Settles O34: each clause is the equation of its command under the clause's hypotheses; the outcomes of an exchange are those
of `exec_timeResp_inHand`. -/
theorem tenonTimeAndCredits : Obligations.TenonTimeAndCredits := by
  unfold Obligations.TenonTimeAndCredits
  refine ⟨?credit, ?placed, ?reqPeriod, ?req, ?respEnds, ?respNear, ?respFar, ?respStep, ?respOther, ?slewOn, ?slewBack,
    ?lapse⟩
  case credit =>
    intro s key n hl h1 h8 h7
    have hkept : s.ten.mailOut.filter (fun d => !([] : List DescRef).contains d) = s.ten.mailOut :=
      List.filter_eq_self.2 fun _ _ => rfl
    refine exec_ctrlCredit_active hl h1 h8 (if_neg h7).symm ?_
    rw [hkept]
    rfl
  case placed =>
    intro s n d f t hl hm hf hn ht
    have hgone : s.ten.mailOut.filter (fun e => !List.contains [d] e) = [] := by
      rw [hm, List.filter_cons_of_neg (by simp), List.filter_nil]
    refine exec_ctrlCredit_active hl (by decide) (by decide) (State.mailPlaced_one (s := s.credited 7 n) hm hf hn).symm ?_
    rw [ht, hgone]
    rfl
  case reqPeriod =>
    intro s hl hm hd
    exact if_pos ⟨hl, by rw [hm]; rfl, hd⟩
  case req =>
    intro s t1 hl hm
    exact if_pos ⟨hl, hm⟩
  case respEnds =>
    intro s t1 t2 t3 hl hm h1
    rcases hu : (s.received 2 1).half (((s.now : Int) - t3) - ((t2 : Int) - t1)) with ⟨h, u⟩
    have hmem : u.mem = s.mem := by
      rw [← State.received_mem s 2 1, ← State.half_mem (s.received 2 1), hu]
    refine ⟨_, exec_timeResp_inHand hl hm h1 hu.symm rfl, ?_⟩
    obtain ⟨h1, hx, hv⟩ := State.syncJudged_rest _ _
    rw [h1, hx, hv]
    split <;> exact ⟨rfl, rfl, hmem⟩
  case respNear =>
    rintro s t1 t2 t3 h off u v hl hm h1 hu ho rfl hslew hnear
    rw [exec_timeResp_inHand hl hm h1 hu ho, if_neg (mt State.stepsTime_iff.1 hslew), State.syncJudged, if_pos hnear]
    rfl
  case respFar =>
    rintro s t1 t2 t3 h off u v hl hm h1 hu ho rfl hslew hfar
    rw [exec_timeResp_inHand hl hm h1 hu ho, if_neg (mt State.stepsTime_iff.1 hslew), State.syncJudged, if_neg (by omega)]
    rfl
  case respStep =>
    rintro s t1 t2 t3 h off u v hl hm h1 hu ho rfl hstep hfar
    rw [exec_timeResp_inHand hl hm h1 hu ho, if_pos (State.stepsTime_iff.2 hstep), State.syncJudged, if_neg (by omega)]
    rfl
  case respOther =>
    intro s t1 t2 t3 h1
    exact if_pos (.inr (.inr h1))
  case slewOn =>
    intro s hm hneg hp
    refine (if_neg ?_).trans (if_pos hneg)
    simp [hm, hp, Int.ne_of_lt hneg]
  case slewBack =>
    intro s hm hpos hp
    refine (if_neg ?_).trans (if_neg (Int.not_lt.2 (Int.le_of_lt hpos)))
    simp [hm, hp, (Int.ne_of_lt hpos).symm]
  case lapse =>
    intro s at_ hs hp
    change execTimeSyncLapse s = _
    simp only [execTimeSyncLapse, hs, hp, if_true]

end Sys2Proof.Machine
end

section
/-! Forwarded commands, maintenance requests, mail and register accesses between the heads (R324, R327 to R330, R348, R155, R311):
what each command does where its event takes place. -/
namespace Sys2Proof.Machine
open Sys2Proof

/-! ## Forwarding (R327 to R330) -/

section
variable {s : State} {tag k : Nat} {c : NvmeCmd}

theorem exec_fwdReq_taken {cls : Fin 4} {shard : Fin 256} {capsule data : List (BitVec 8)} {tenant : Nat} {t : State}
    (hl : s.linkActive = true) (he : s.on PAR_CTL.EN = true) (hroom : s.peerRoom = true)
    (hnew : (s.par.cmds.any fun e => e.2.origin == some tag) = false) (hk : s.freeContext = some k)
    (hc : c = {
      sqe := capsule.take 64, incap := capsule.drop 64, ctx := none, cntlid := unboundCntlid, qid := 0, cls := cls.val,
      tenant := tenant, vol := 0, stage := .eligible, since := s.now, eligibleAt := s.now, buf := data, origin := some tag,
      only := some shard.val })
    (ht : t = s.setCmd k { c with vol := volOfNsid c.nsid }) :
    exec (.fwdReq tag cls tenant shard capsule data) s =
      .next (((t.setPar { t.par with ready := t.par.ready ++ [k] }).countCtxs).received 8 (alignUp data.length 16)) := by
  subst ht hc
  change execFwdReq tag cls tenant shard capsule data s = _
  simp only [execFwdReq, hl, he, hroom, hnew, hk, Bool.not_true, Bool.false_eq_true, or_self, if_false]

section
variable {status dw0 dw1 : Nat} {data : List (BitVec 8)} {f : FwdPart} {t : State}

theorem exec_fwdRsp_unknown {confirm : Bool} (hl : s.linkActive = true)
    (ht : t = s.received 3 (if confirm then 16 else 32 + alignUp data.length 16)) (hf : t.forwarded tag = none) :
    exec (.fwdRsp tag status dw0 dw1 data confirm) s = .next t := by
  subst ht
  change execFwdRsp tag status dw0 dw1 data confirm s = _
  simp only [execFwdRsp, hl, hf, Bool.not_true, Bool.false_eq_true, if_false]

/-- A completion of the owner: one that crosses a cancel shows that the part was past its commit point. -/
theorem exec_fwdRsp_completed (hl : s.linkActive = true) (ht : t = s.received 3 (32 + alignUp data.length 16))
    (hf : t.forwarded tag = some (k, c, f)) : exec (.fwdRsp tag status dw0 dw1 data false) s =
      .next (if f.st = 3 then t.setCmd k { c with past := true }
        else (t.setCmd k (c.partBack f status dw0 dw1 data)).finishIfDone k) := by
  subst ht
  change execFwdRsp tag status dw0 dw1 data false s = _
  simp only [execFwdRsp, hl, hf, Bool.not_true, Bool.false_eq_true, if_false, apply_ite Host.Outcome.next]

theorem exec_fwdRsp_confirmed {c2 : NvmeCmd} (hl : s.linkActive = true) (ht : t = s.received 3 16)
    (hf : t.forwarded tag = some (k, c, f)) (h3 : f.st = 3)
    (hc : c2 = { (c.partBack { f with st := 2 } Nv.sqDeletion 0 0 []) with
      past := (c.partBack { f with st := 2 } Nv.sqDeletion 0 0 []).past || status != Nv.sqDeletion }) :
    exec (.fwdRsp tag status dw0 dw1 data true) s = .next ((t.setCmd k c2).cutSettled k c2) := by
  subst ht hc
  change execFwdRsp tag status dw0 dw1 data true s = _
  simp only [execFwdRsp, hl, hf, h3, ne_eq, not_true, Bool.not_true, Bool.false_eq_true, if_true, if_false]

end

theorem exec_fwdCancel_gone (hl : s.linkActive = true)
    (hg : (s.par.cmds.any fun e => e.2.origin == some tag) = false) :
    exec (.fwdCancel tag) s = .next (s.tenSend (.cancelled tag true)) := by
  have hnone : (s.par.cmds.find? fun e => e.2.origin == some tag) = none := List.find?_eq_none.2 (List.any_eq_false.1 hg)
  change execFwdCancel tag s = _
  simp only [execFwdCancel, hl, hnone, Bool.not_true, Bool.false_eq_true, if_false]

/-- A cancel settles a command by its own commit point. -/
theorem exec_fwdCancel_found (hl : s.linkActive = true)
    (hf : (s.par.cmds.find? fun e => e.2.origin == some tag) = some (k, c)) :
    exec (.fwdCancel tag) s = .next (if s.pastCommit k c = true then s.setCmd k { c with cut := true }
      else (s.cancel k).tenSend (.cancelled tag false)) := by
  change execFwdCancel tag s = _
  simp only [execFwdCancel, hl, hf, Bool.not_true, Bool.false_eq_true, if_false, apply_ite Host.Outcome.next]

end

/-! ## Maintenance (R155, R311) -/

section
variable {s t : State} {tag : Nat}

section
variable {shard : Fin 256} {locator count : Nat} (hl : s.linkActive = true) (ht : t = s.received 5 32)
include hl ht

theorem exec_maintIncrement_refused {st : Nat} (hr : t.sepShardRefused shard = some st) :
    exec (.maintIncrement tag shard locator count) s = .next (t.tenSend (.incremented tag st)) := by
  subst ht
  change execMaintIncrement tag shard locator count s = _
  simp only [execMaintIncrement, hl, hr, Bool.not_true, Bool.false_eq_true, if_false]

theorem exec_maintIncrement_stale (hr : t.sepShardRefused shard = none)
    (hn : ((Tab.get? t.sep.byLoc (copyKey shard (t.locNow shard locator))).bind t.entryAt) = none) :
    exec (.maintIncrement tag shard locator count) s = .next (t.tenSend (.incremented tag St.locatorStale)) := by
  subst ht
  change execMaintIncrement tag shard locator count s = _
  simp only [execMaintIncrement, hl, hr, Bool.not_true, Bool.false_eq_true, if_false]
  cases hh : Tab.get? (s.received 5 32).sep.byLoc (copyKey shard ((s.received 5 32).locNow shard locator)) with
  | none => rfl
  | some h =>
    rw [hh, Option.bind_some] at hn
    simp only [hn]

theorem exec_maintIncrement_found {h : Nat} {e : FEntry} (hr : t.sepShardRefused shard = none)
    (hh : Tab.get? t.sep.byLoc (copyKey shard (t.locNow shard locator)) = some h) (he : t.entryAt h = some e) :
    exec (.maintIncrement tag shard locator count) s =
      .next (if 2 ^ 32 - 1 < e.refs + count then t.tenSend (.incremented tag St.countSaturated)
        else ((t.putEntry h { e with refs := e.refs + count }).journal shard
          { type := Jt.incr, epoch := 0, arg0 := e.locator, arg1 := count, done := .maint tag }).2) := by
  subst ht
  change execMaintIncrement tag shard locator count s = _
  simp only [execMaintIncrement, hl, hr, hh, he, Bool.not_true, Bool.false_eq_true, if_false, apply_ite Host.Outcome.next]

end

/-- Listed bands are erased for the peer while the shard is READY here under a live lease. -/
theorem exec_maintDeferErase_up {blade : Fin 16} {shard : Fin 256} {bands : List Nat} (hl : s.linkActive = true)
    (ht : t = s.received 5 (16 + alignUp (2 * bands.length) 16)) (ms : List Medium) :
    exec (.maintDeferErase tag blade shard bands ms) s =
      .next (if t.liveLease shard = false ∨ t.cellSt shard ≠ Cst.ready then t.tenSend (.deferErased tag [])
        else t.scripted ms fun u => (u.peerErase blade shard bands).2.tenSend
          (.deferErased tag (u.peerErase blade shard bands).1)) := by
  subst ht
  change execMaintDeferErase tag blade shard bands ms s = _
  simp only [execMaintDeferErase, hl, Bool.not_true, Bool.false_eq_true, if_false, apply_ite Host.Outcome.next, Bool.not_eq_true']

theorem exec_peerWipeConsent_up {blade : Fin 16} (hl : s.linkActive = true)
    {x : BAns × State} (hx : x = (s.received 5 16).bladeSync blade ⟨bcpImg Bop.wipeConsent 0 0 0 0 0 0 [], [], []⟩) :
    exec (.peerWipeConsent tag blade) s = .next (x.2.tenSend (.wipeConsent tag blade (x.1.status == St.success))) := by
  subst hx
  exact if_neg (by rw [hl]; decide)

section
variable {ok : Bool} {bands : List Nat} {d : DescRef} {f : Fetched} {u : State}

theorem exec_maintAck_unknown (hl : s.linkActive = true) (ht : t = s.received 5 (16 + alignUp (2 * bands.length) 16))
    (hn : (t.ten.maint.find? fun e => e.1 == tag) = none) (ms : List Medium) : exec (.maintAck tag ok bands ms) s = .next t := by
  subst ht
  change execMaintAck tag ok bands ms s = _
  simp only [execMaintAck, hl, hn, Bool.not_true, Bool.false_eq_true, if_false]

/-- An answer to a request of this head whose BLADE_ATTACH has not ended: `t` has taken the message in, `u` no longer holds the
request. -/
structure State.MaintAnswered (s t u : State) (tag : Nat) (bands : List Nat) (d : DescRef) (f : Fetched) : Prop where
  link : s.linkActive = true
  taken : t = s.received 5 (16 + alignUp (2 * bands.length) 16)
  found : (t.ten.maint.find? fun e => e.1 == tag) = some (tag, d)
  removed : u = t.setTen { t.ten with maint := t.ten.maint.filter fun e => e.1 != tag }
  fetched : u.fetchedAt .cell d = some f

theorem exec_maintAck_noConsent (h : s.MaintAnswered t u tag bands d f) (hw : (f.at 29 1).testBit 0 = true) (ms : List Medium) :
    exec (.maintAck tag false bands ms) s = .next ((u.wr (CELL_BLADE.STATE (f.at 28 1)) 0).finish .cell d St.wipeNoConsent) := by
  obtain ⟨hl, rfl, hm, rfl, hf⟩ := h
  change execMaintAck tag false bands ms s = _
  simp only [execMaintAck, hl, hm, hf, hw, Bool.not_true, Bool.false_eq_true, if_true, if_false]

theorem exec_maintAck_erased {v : State} (h : s.MaintAnswered t u tag bands d f) (hw : (f.at 29 1).testBit 0 = false)
    (hv : v = u.setCblade (f.at 28 1)
      { u.cblade (f.at 28 1) with defers := (u.cblade (f.at 28 1)).defers.filter fun e => !bands.contains e.2.2 })
    (hmore : (v.ten.maint.any fun e => e.2 == d) = true) (ms : List Medium) :
    exec (.maintAck tag ok bands ms) s = .next v := by
  obtain ⟨hl, rfl, hm, rfl, hf⟩ := h
  subst hv
  change execMaintAck tag ok bands ms s = _
  simp only [execMaintAck, hl, hm, hf, hw, hmore, Bool.not_true, Bool.false_eq_true, if_true, if_false]

end

end

/-! ## Mail (R348) -/

section
variable {s t : State} {d : DescRef} {f : Fetched}

section
variable (hf : s.startedAt .ten d Op.mailSend = some f) (hnew : s.ten.mailOut.contains d = false)
include hf hnew

theorem exec_mailSend_linkDown (hl : s.linkActive = false) : exec (.mailSend d) s = .next (s.finish .ten d St.linkDown) := by
  change execMailSend d s = _
  simp only [execMailSend, hf, hnew, hl, Bool.not_false, Bool.false_eq_true, if_true, if_false]

theorem exec_mailSend_tooLong (hl : s.linkActive = true) (hlen : 4096 < f.len) :
    exec (.mailSend d) s = .next (s.finish .ten d St.msgTooLong) := by
  change execMailSend d s = _
  simp only [execMailSend, hf, hnew, hl, hlen, Bool.not_true, Bool.false_eq_true, if_true, if_false]

theorem exec_mailSend_sent {bs : List Byte} (hl : s.linkActive = true) (hlen : f.len ≤ 4096) (hpos : 0 < f.len)
    (hr : (s.dmaRead .ten f.src f.len (some d.ring)).toOption = some bs) (ht : t = s.setPhase .ten d .waiting) :
    exec (.mailSend d) s =
      .next ((t.setTen { t.ten with mailOut := t.ten.mailOut ++ [d] }).tenSend (.mail (f.at 28 4) bs)) := by
  subst ht
  change execMailSend d s = _
  simp only [execMailSend, hf, hnew, hl, Nat.not_lt.2 hlen, Nat.ne_of_gt hpos, eq_ok_of_toOption hr, Bool.not_true,
    Bool.false_eq_true, if_false]
  rfl

end

theorem State.mailPlace_empty (hm : s.ten.mail = []) : s.mailPlace d f = s.setPhase .ten d .waiting := by
  simp only [State.mailPlace, hm]

theorem State.mailPlace_oldest {tag : Nat} {bs : List Byte} {rest : List (Nat × List Byte)} (hm : s.ten.mail = (tag, bs) :: rest)
    (hw : (s.dmaWrite .ten f.dst bs (some d.ring)).toOption = some t) : s.mailPlace d f =
      ((t.setTen { t.ten with mail := rest }).received 7 (16 + alignUp bs.length 16)).finish .ten d St.success 0
        (bs.length + tag * 2 ^ 32) := by
  simp only [State.mailPlace, hm, eq_ok_of_toOption hw]

theorem exec_mailRecv_fits (hf : s.startedAt .ten d Op.mailRecv = some f) (hlen : 4096 ≤ f.len) :
    exec (.mailRecv d) s = .next (s.mailPlace d f) := by
  change execMailRecv d s = _
  simp only [execMailRecv, hf, Nat.not_lt.2 hlen, if_false]

/-- A message of the peer is kept, and placed where a MAIL_RECV waits. -/
theorem exec_mailRx_arrived {tag : Nat} {bytes : List (BitVec 8)} (hl : s.linkActive = true) (hne : bytes ≠ [])
    (hlen : bytes.length ≤ 4096) (ht : t = s.setTen { s.ten with mail := s.ten.mail ++ [(tag % 2 ^ 32, bytes)] }) :
    exec (.mailRx tag bytes) s = .next ((t.firstWaiting .ten Op.mailRecv).elim t fun e => t.mailPlace e.1 e.2) := by
  subst ht
  change execMailRx tag bytes s = _
  simp only [execMailRx, hl, List.isEmpty_iff, hne, Nat.not_lt.2 hlen, Bool.not_true, Bool.false_eq_true, or_self, if_false]
  split
  · rename_i e he
    rw [he]
    rfl
  · rename_i he
    rw [he]
    rfl

end

/-! ## Register accesses of the peer (R42, R324) -/

section
variable {s : State} {nn : Nat} {addr : PAddr} {u : UnitId}

/-- An aligned access of an initiator in the peer head to a register of a unit. -/
structure State.PeerAccess (s : State) (nn : Nat) (addr : PAddr) (u : UnitId) : Prop where
  link : s.linkActive = true
  initiator : peerInitiator nn = true
  csr : inCsr addr.toNat = true
  unit : csrUnit (addr.toNat - csrBase) = some u
  aligned : (addr.toNat - csrBase) % 8 = 0

variable (h : s.PeerAccess nn addr u) (tag : Nat)
include h

theorem exec_peerRegWrite_aligned (value : Word) : exec (.peerRegWrite tag nn addr value) s =
    .next (if (s.received 6 1).bit TEN_REG_ALLOW.UNIT (unitN u) = true then
      ((s.received 6 1).csrStore (BitVec.ofNat 16 (0x400 + nn)) u (addr.toNat - csrBase) value.toNat).tenSend
        (.regResp tag St.success 0)
      else ((s.received 6 1).unitErr u (BitVec.ofNat 16 (0x400 + nn)).toNat (errOffset (addr.toNat - csrBase)) 3).tenSend
        (.regResp tag St.regRefused 0)) := by
  change execPeerRegWrite tag nn addr value s = _
  simp only [execPeerRegWrite, h.link, h.initiator, h.csr, h.unit, h.aligned, ne_eq, not_true, Bool.not_true, Bool.or_self,
    Bool.false_eq_true, if_false]
  cases (s.received 6 1).bit TEN_REG_ALLOW.UNIT (unitN u) <;>
    simp only [Bool.not_true, Bool.not_false, Bool.false_eq_true, if_true, if_false]

theorem exec_peerRegRead_aligned {t : State} (ht : t = if State.implemented u (addr.toNat - csrBase) then s.received 6 1
      else (s.received 6 1).unitErr u (0x400 + nn) (errOffset (addr.toNat - csrBase)) 2) :
    exec (.peerRegRead tag nn addr) s = .next ((t.csrReadBy (0x400 + nn) (addr.toNat - csrBase)).1.tenSend
      (.regResp tag St.success (t.csrReadBy (0x400 + nn) (addr.toNat - csrBase)).2)) := by
  subst ht
  change execPeerRegRead tag nn addr s = _
  simp only [execPeerRegRead, h.link, h.initiator, h.csr, h.unit, h.aligned, ne_eq, not_true, Bool.not_true, Bool.or_self,
    Bool.false_eq_true, if_false]

end

/-- A read outside the result and legacy registers of the Press does nothing and returns the register's word (R190, R194). -/
theorem State.csrReadBy_plain {a : Nat} (h : a < 0x5202000 ∨ 0x5204088 ≤ a) (s : State) (o : Nat) :
    s.csrReadBy o a = (s, s.csrWord a) := by
  have hlegacy : isLegacyReg a = false := by
    simp only [isLegacyReg, Bool.and_eq_false_iff, decide_eq_false_iff_not]
    omega
  have hpress : ¬ (0x5202000 ≤ a ∧ a < 0x5203000) := by omega
  have hresult : ¬ (0x5204040 ≤ a ∧ a < 0x5204080) := by omega
  have hstatus : a ≠ 0x5204018 := by omega
  simp only [State.csrReadBy, hlegacy, hpress, hresult, hstatus, Bool.false_and, Bool.false_eq_true, if_false]

/-- Settles O35: each clause is the equation of its command under the clause's hypotheses. A refused consent of the one request
in hand is an answer found among the requests, and leaves none; a register is implemented where no KIND 2 is recorded. -/
theorem tenonForwardingMaintenanceMail : Obligations.TenonForwardingMaintenanceMail := by
  unfold Obligations.TenonForwardingMaintenanceMail
  refine ⟨?fwdReq, ?completed, ?crossed, ?confirmed, ?rspUnknown, ?cancelGone, ?cancelSettled, ?cancelPast, ?waitOver, ?refused,
    ?stale, ?saturated, ?incremented, ?erased, ?erasedNone, ?wipeConsent, ?noConsent, ?ackUnknown, ?bandsErased, ?sent, ?linkDown,
    ?tooLong, ?placed, ?kept, ?received, ?waits, ?written, ?writeRefused, ?read, ?readPlain⟩
  case fwdReq =>
    intro s tag k tenant cls shard capsule data c hl he hroom hnew hk hc
    exact exec_fwdReq_taken hl he hroom hnew hk hc rfl
  case completed =>
    intro s tag status dw0 dw1 k data c f t hl ht hf h1
    rw [exec_fwdRsp_completed hl ht hf, if_neg (by rw [h1]; decide)]
  case crossed =>
    intro s tag status dw0 dw1 k data c f t hl ht hf h3
    rw [exec_fwdRsp_completed hl ht hf, if_pos h3]
  case confirmed =>
    intro s tag status dw0 dw1 k data c c2 f t
    exact exec_fwdRsp_confirmed
  case rspUnknown =>
    intro s tag status dw0 dw1 data confirm t
    exact exec_fwdRsp_unknown
  case cancelGone =>
    intro s tag
    exact exec_fwdCancel_gone
  case cancelSettled =>
    intro s tag k c hl hf hp
    rw [exec_fwdCancel_found hl hf, hp, if_neg Bool.false_ne_true]
  case cancelPast =>
    intro s tag k c hl hf hp
    rw [exec_fwdCancel_found hl hf, if_pos hp]
  case waitOver =>
    rintro s at_ t u ho hl hp rfl rfl
    change execFwdWaitExpiry s = _
    rw [execFwdWaitExpiry, ho]
    exact if_neg (by simp [hl, hp])
  case refused =>
    intro s tag locator count st shard hl hr
    exact exec_maintIncrement_refused hl rfl hr
  case stale =>
    intro s tag locator count shard t
    exact exec_maintIncrement_stale
  case saturated =>
    intro s tag locator count h shard e t hl ht hr hh he hsat
    rw [exec_maintIncrement_found hl ht hr hh he, if_pos hsat]
  case incremented =>
    intro s tag locator count h shard e t hl ht hr hh he hfit
    rw [exec_maintIncrement_found hl ht hr hh he, if_neg (Nat.not_lt.2 (Nat.le_sub_one_of_lt hfit))]
  case erased =>
    intro s tag blade shard bands ms t hl ht hlive hready
    rw [exec_maintDeferErase_up hl ht, if_neg (by simp [hlive, hready])]
  case erasedNone =>
    intro s tag blade shard bands ms t hl ht hdown
    rw [exec_maintDeferErase_up hl ht, if_pos hdown]
  case wipeConsent =>
    intro s tag blade hl
    exact exec_peerWipeConsent_up hl rfl
  case noConsent =>
    rintro s tag ms d f t u hl rfl hm hu hf hw
    have hmine : (s.received 5 16).ten.maint.find? (fun e => e.1 == tag) = some (tag, d) := by
      simp [hm]
    have hnone : (s.received 5 16).ten.maint.filter (fun e => e.1 != tag) = [] := by
      simp [hm]
    exact exec_maintAck_noConsent ⟨hl, rfl, hmine, hnone ▸ hu, hf⟩ hw ms
  case ackUnknown =>
    intro s tag ok bands ms t hl ht hn
    exact exec_maintAck_unknown hl ht hn ms
  case bandsErased =>
    intro s tag ok bands ms d f t u v hl ht hm hu hf hw hv hmore
    exact exec_maintAck_erased ⟨hl, ht, hm, hu, hf⟩ hw hv hmore ms
  case sent =>
    intro s d f bs t hf hnew hl hlen hpos hr
    exact exec_mailSend_sent hf hnew hl hlen hpos hr
  case linkDown =>
    intro s d f
    exact exec_mailSend_linkDown
  case tooLong =>
    intro s d f
    exact exec_mailSend_tooLong
  case placed =>
    intro s tag bytes d f t hl hne hlen ht hw
    rw [exec_mailRx_arrived hl hne hlen ht, hw]
    rfl
  case kept =>
    intro s tag bytes hl hne hlen hw
    have hw' : (s.setTen { s.ten with mail := s.ten.mail ++ [(tag % 2 ^ 32, bytes)] }).firstWaiting .ten Op.mailRecv = none := hw
    rw [exec_mailRx_arrived hl hne hlen rfl, hw']
    rfl
  case received =>
    intro s d f tag bs rest t hf hlen hm hw
    rw [exec_mailRecv_fits hf hlen, State.mailPlace_oldest hm hw]
  case waits =>
    intro s d f hf hlen hm
    rw [exec_mailRecv_fits hf hlen, State.mailPlace_empty hm]
  case written =>
    intro s tag nn addr value u hl hi hc hu ha hallow
    rw [exec_peerRegWrite_aligned ⟨hl, hi, hc, hu, ha⟩, if_pos hallow]
  case writeRefused =>
    intro s tag nn addr value u hl hi hc hu ha hallow
    rw [exec_peerRegWrite_aligned ⟨hl, hi, hc, hu, ha⟩, hallow, if_neg Bool.false_ne_true]
  case read =>
    intro s tag nn addr u t hl hi hc hu ha
    exact exec_peerRegRead_aligned ⟨hl, hi, hc, hu, ha⟩ tag
  case readPlain =>
    intro s tag nn addr u hl hi hc hu ha himpl hplain
    rw [exec_peerRegRead_aligned ⟨hl, hi, hc, hu, ha⟩ tag (if_pos himpl).symm, State.csrReadBy_plain hplain]

end Sys2Proof.Machine
end

section
/-! The rounds and expiries of the Lease unit and the peer's messages (R332 to R336, R339, R346, R350): what each command does where
its event takes place. -/
namespace Sys2Proof.Machine
open Sys2Proof

section
variable {s t : State} {sh : Nat}

/-! ## Expiries (R334, R350) -/

/-- A QUIET shard becomes HELD, unless its term ends in the same tick. -/
theorem exec_quietEnd_due (hq : s.leaseSt sh = Lst.quiet) (hd : s.due (s.leaseX sh).quietEnd = true) :
    exec (.quietEnd sh) s = .next (if (s.leaseX sh).ends ≤ s.now then s.loseHold sh
      else (s.setLeaseX sh { s.leaseX sh with quietEnd := none }).setLeaseSt sh Lst.held) := by
  rw [apply_ite Host.Outcome.next]
  exact if_pos ⟨hq, hd⟩

/-! ## The peer's messages (R336, R339, R346) -/

/-- The table of a NOTE: the epoch of each shard of the peer. -/
def noteTab (ls : List (Nat × Nat × Nat)) : Tab Nat := ls.foldl (fun (a : Tab Nat) e => Tab.set a e.1 e.2.1) []

theorem exec_note_up {ls : List (Nat × Nat × Nat)} {running : Bool} (ht : t = s.received 1 1) (hl : t.linkActive = true) :
    exec (.note ls running) s = .next ((ls.filter fun e => e.1 < 256).foldl (fun u e => u.noted e.1 e.2.1)
      (t.setLease { t.leaseU with note := noteTab (ls.filter fun e => e.1 < 256), peerRunning := running })) := by
  subst ht
  exact if_neg (by rw [hl]; decide)

/-- An OFFER of a shard that is not held here: the loss of the peer goes first, then a DRAIN. -/
theorem exec_offer_free {epoch : Nat} {u : State} (ht : t = s.received 1 1) (hl : t.linkActive = true)
    (he : t.on LEASE_CTL.EN = true) (hst : t.leaseSt sh = Lst.unknown ∨ t.leaseSt sh = Lst.peerHeld)
    (hu : u = t.setLeaseX sh { t.leaseX sh with counter := max (t.leaseX sh).counter (epoch / 2) }) :
    exec (.offer sh epoch) s = .next (if u.lossNow = true then u
      else if u.leaseMode = Lmode.running ∧ u.drainNow = false then u.startWin sh false none
      else u.tenSend (.refuse sh)) := by
  subst ht hu
  change execOffer sh epoch s = _
  rw [execOffer, if_neg]
  · simp only [apply_ite Host.Outcome.next, Bool.not_eq_true']
  · rintro (h | h | ⟨h, k⟩)
    · simp [hl] at h
    · simp [he] at h
    · exact hst.elim h k

theorem exec_lost_up (hl : (s.received 1 1).linkActive = true)
    (ht : t = ((s.received 1 1).peerGone sh).reexecForwarded (fun x => x == sh)) :
    exec (.lost sh) s = .next (if t.leaseSt sh = Lst.unknown ∧ t.on LEASE_CTL.EN = true ∧ t.on LEASE_CTL.AUTO_TAKE = true ∧
      t.leaseMode = Lmode.running then t.startWin sh true none else t) := by
  subst ht
  rw [apply_ite Host.Outcome.next]
  exact if_neg (by rw [hl]; decide)

end

/-- Settles O36: each clause is the equation of its command under the clause's hypotheses. -/
theorem leaseRoundsExpiriesAndMessages : Obligations.LeaseRoundsExpiriesAndMessages := by
  unfold Obligations.LeaseRoundsExpiriesAndMessages
  refine ⟨?firstRound, ?round, ?abdicated, ?expiry, ?expiryEarly, ?tailEnd, ?quietEnd, ?quietLost, ?readDeadline, ?noteOne, ?note,
    ?silence, ?offer, ?offerRefused, ?offerLoss, ?won, ?refuse, ?lost, ?lostTaken, ?abdicate⟩
  case firstRound =>
    intro s he hm hr
    exact if_pos ⟨he, hm, by rw [hr]⟩
  case round =>
    intro s at_ he hm hr hp
    exact if_pos ⟨he, hm, by rw [hr]; exact hp⟩
  case abdicated =>
    intro s hm
    exact if_neg fun h => h.2.1 hm
  case expiry =>
    intro s sh hr hp
    exact if_pos ⟨hr, hp⟩
  case expiryEarly =>
    intro s sh _ hp
    exact if_neg fun h => Bool.false_ne_true (hp.symm.trans h.2)
  case tailEnd =>
    intro s sh hd
    exact if_pos hd
  case quietEnd =>
    intro s sh hq hd hlt
    rw [exec_quietEnd_due hq hd, if_neg (Nat.not_le.2 hlt)]
  case quietLost =>
    intro s sh hq hd hle
    rw [exec_quietEnd_due hq hd, if_pos hle]
  case readDeadline =>
    intro s sh hd
    exact if_pos hd
  case noteOne =>
    intro s sh epoch left running t _ ht hl hsh
    have hone : [(sh, epoch, left)].filter (fun e => e.1 < 256) = [(sh, epoch, left)] :=
      List.filter_cons_of_pos (decide_eq_true hsh)
    rw [exec_note_up ht hl, hone]
    rfl
  case note =>
    rintro s ls running t u ht hl rfl
    exact exec_note_up ht hl
  case silence =>
    intro s sh hst hp
    exact if_pos ⟨hst, hp⟩
  case offer =>
    intro s sh epoch t u ht hl he hst hu hloss hdrain hrun
    rw [exec_offer_free ht hl he hst hu, hloss, if_neg Bool.false_ne_true, if_pos ⟨hrun, hdrain⟩]
  case offerRefused =>
    intro s sh epoch t u ht hl he hst hu hloss hno
    rw [exec_offer_free ht hl he hst hu, hloss, if_neg Bool.false_ne_true, if_neg]
    rintro ⟨hrun, hdrain⟩
    exact hno.elim (fun h => h hrun) fun h => Bool.false_ne_true (hdrain.symm.trans h)
  case offerLoss =>
    intro s sh epoch t u ht hl he hst hu hloss
    rw [exec_offer_free ht hl he hst hu, if_pos hloss]
  case won =>
    rintro s sh epoch w t rfl _ hl hg
    exact if_pos ⟨hl, hg⟩
  case refuse =>
    rintro s sh t rfl hl hg
    exact if_pos ⟨hl, hg⟩
  case lost =>
    intro s sh t ht hl hauto
    rw [exec_lost_up hl ht, if_neg fun h => Bool.false_ne_true (hauto.symm.trans h.2.2.1)]
  case lostTaken =>
    intro s sh t ht hl hauto he hrun hst
    rw [exec_lost_up hl ht, if_pos ⟨hst, he, hauto, hrun⟩]
  case abdicate =>
    rintro s cause t rfl hl
    exact if_pos hl

end Sys2Proof.Machine
end

section
/-! Takeovers, the heartbeat, the watchdog, abdication and drills (R338 to R342, R345): what each command does where its event takes
place. -/
namespace Sys2Proof.Machine
open Sys2Proof

section
variable {s : State} {sh : Nat}

/-! ## Takeovers (R336, R342) -/

/-- A win that is abandoned: the blades that accepted release the shard, which is UNKNOWN again. -/
def State.winAbandoned (s : State) (sh : Nat) : State :=
  ((((s.releaseOn sh (s.rd (LEASE_EPOCH.EPOCH sh)) (s.leaseX sh).accepts).setLeaseX sh
    { s.leaseX sh with takeBy := none, take := none }).setLeaseSt sh Lst.unknown).raise Ev.takeAbandoned
      (some .lease) (some sh) [sh]).endListed sh

theorem exec_takeLimitExpiry_win (hd : s.due (s.leaseX sh).takeBy = true) (hw : s.leaseSt sh = Lst.winning) :
    exec (.takeLimitExpiry sh) s = .next ((s.leaseX sh).take.elim (s.winAbandoned sh)
      fun d => (s.winAbandoned sh).finish .lease d St.quorumLost) := by
  change execTakeLimitExpiry sh s = _
  simp only [execTakeLimitExpiry, hd, hw, Bool.not_true, Bool.false_eq_true, if_true, if_false]
  cases (s.leaseX sh).take <;> simp only [Option.elim_none, Option.elim_some, State.winAbandoned]

theorem exec_takeLimitExpiry_offer (hd : s.due (s.leaseX sh).takeBy = true) (hw : s.leaseSt sh ≠ Lst.winning)
    (hg : s.givenUp sh = true) :
    exec (.takeLimitExpiry sh) s = .next (s.leaveReleased sh Lst.unknown s.now St.handoffRefused 0) :=
  (if_neg (by rw [hd]; decide)).trans ((if_neg hw).trans (if_pos hg))

/-! ## The heartbeat (R338, R339) -/

/-- HB_OUT toggles, and is due again 800,000 ticks after it was due, or after its first toggle. -/
theorem exec_hbOutToggle_due {p : Pins} (he : s.on LEASE_HB_CFG.HB_OUT_EN = true) (hm : s.leaseMode ≠ Lmode.abdicated)
    (hs : s.solo = false) (hc : s.boot.cold = false) (hw : s.boot.warmUntil = none)
    (hdue : ∀ at_, s.leaseU.hbOutAt = some at_ → s.passed at_ = true) (hp : p = { s.pins with hbOut := !s.pins.hbOut }) :
    exec .hbOutToggle s =
      .next { s.setLease { s.leaseU with hbOutAt := some (s.leaseU.hbOutAt.getD s.now + 800000) } with pins := p } := by
  subst hp
  refine if_pos ⟨he, hm, by rw [hs]; rfl, by rw [hc]; rfl, hw, ?_⟩
  split
  · rename_i at_ hat
    exact hdue at_ hat
  · rfl

theorem exec_hbLossExpiry_passed (hd : s.hbDead = true)
    (hp : s.passed (s.leaseU.hbInAt + s.rd LEASE_HB_CFG.HB_LOSS) = true) : exec .hbLossExpiry s =
      .next (if s.on LEASE_STATUS.HB_IN_OK = true ∧ (s.wr LEASE_STATUS.HB_IN_OK 0).linkActive = true then
        (s.wr LEASE_STATUS.HB_IN_OK 0).raise Ev.hbInLost (some .lease) else s.wr LEASE_STATUS.HB_IN_OK 0).peerCheck :=
  if_neg (by simp [hd, hp])

/-- Both channels silent for HB_LOSS: the peer is lost, at the end of an activation where one runs (R434). -/
theorem State.peerCheck_silent (he : s.on LEASE_CTL.EN = true) (hs : s.solo = false) (hn : s.leaseU.peerLost = false)
    (hd : s.hbDead = true) (hl : s.linkDead = true) : s.peerCheck =
      if s.activating = true then s.setLease { s.leaseU with lossDue := true } else s.peerLoss :=
  if_pos ⟨he, by rw [hs]; rfl, by rw [hn]; rfl, hd, hl⟩

/-! ## The watchdog (R340) -/

theorem exec_watchdogKick_unaudited {origin : Origin} (ht : s.originThere origin.toNat = true)
    (ha : s.audited false origin.toNat = false) : exec (.watchdogKick origin) s = .next s.kick :=
  congrArg Host.Outcome.next (State.plainField_unaudited ht ha ..)

end

/-- Settles O37: each clause is the equation of its command under the clause's hypotheses. -/
theorem leaseTakeoverHeartbeatDrills : Obligations.LeaseTakeoverHeartbeatDrills := by
  unfold Obligations.LeaseTakeoverHeartbeatDrills
  refine ⟨?silence, ?offerFails, ?winAbandoned, ?takeAbandoned, ?hbOut, ?hbOutFirst, ?hbOutEarly, ?hbIn, ?hbLoss, ?hbLossEvent,
    ?hbAlive, ?peerLost, ?peerLostLater, ?kickOff, ?kick, ?watchdog, ?abdicateWrite, ?machineCheck, ?drill, ?drillMissed⟩
  case silence =>
    intro s sh b hw hd hs
    exact if_pos ⟨hw, hd, by rw [hs]; rfl⟩
  case offerFails =>
    intro s sh
    exact exec_takeLimitExpiry_offer
  case winAbandoned =>
    rintro s sh t hd hw htake rfl
    rw [exec_takeLimitExpiry_win hd hw, htake, Option.elim_none, State.winAbandoned]
  case takeAbandoned =>
    rintro s sh d t hd hw htake rfl
    rw [exec_takeLimitExpiry_win hd hw, htake, Option.elim_some, State.winAbandoned]
  case hbOut =>
    intro s at_ p he hm hs hc hw hat hpassed hp
    have hdue : ∀ x, s.leaseU.hbOutAt = some x → s.passed x = true := by
      intro x hx
      rw [hat] at hx
      exact Option.some.inj hx ▸ hpassed
    rw [exec_hbOutToggle_due he hm hs hc hw hdue hp, hat, Option.getD_some]
  case hbOutFirst =>
    intro s p he hm hs hc hw hat hp
    have hdue : ∀ x, s.leaseU.hbOutAt = some x → s.passed x = true := by simp [hat]
    rw [exec_hbOutToggle_due he hm hs hc hw hdue hp, hat, Option.getD_none]
  case hbOutEarly =>
    intro s at_ hat hp
    refine if_neg ?_
    rw [hat]
    exact fun h => Bool.false_ne_true (hp.symm.trans h.2.2.2.2.2)
  case hbIn =>
    intro s
    rfl
  case hbLoss =>
    intro s hd hp hquiet
    rw [exec_hbLossExpiry_passed hd hp, if_neg]
    rintro ⟨hok, hl⟩
    exact hquiet.elim (fun h => Bool.false_ne_true (h.symm.trans hok)) fun h => Bool.false_ne_true (h.symm.trans hl)
  case hbLossEvent =>
    intro s hd hp hok hl
    rw [exec_hbLossExpiry_passed hd hp, if_pos ⟨hok, hl⟩]
  case hbAlive =>
    intro s hd
    exact if_pos (.inl (by rw [hd]; rfl))
  case peerLost =>
    intro s he hs hn hd hl ha
    refine congrArg Host.Outcome.next ((State.peerCheck_silent he hs hn hd hl).trans (if_neg ?_))
    rw [ha]
    exact Bool.false_ne_true
  case peerLostLater =>
    intro s he hs hn hd hl ha
    exact congrArg Host.Outcome.next ((State.peerCheck_silent he hs hn hd hl).trans (if_pos ha))
  case kickOff =>
    intro s origin ht ha he
    rw [exec_watchdogKick_unaudited ht ha, State.kick, he, if_neg Bool.false_ne_true]
  case kick =>
    intro s origin ht ha he
    rw [exec_watchdogKick_unaudited ht ha, State.kick, if_pos he]
  case watchdog =>
    intro s hd
    exact if_pos hd
  case abdicateWrite =>
    intro s origin ha
    exact congrArg Host.Outcome.next (State.cfgField_admitted ha ..)
  case machineCheck =>
    rintro s c rfl
    rfl
  case drill =>
    rintro s sh k p he hdrill hs rfl rfl hk hnew hl hpeer hm ho
    exact if_pos ⟨he, hdrill, by rw [hs]; rfl, hk, hnew, hl, hpeer, hm, ho⟩
  case drillMissed =>
    intro s sh hd
    exact if_pos hd

end Sys2Proof.Machine
end

section
/-! Uncorrectable errors of the Vat by what the pail holds (R370), and CFG_WRITE under the policy mask (R398): one rule for each,
then their cases. -/
namespace Sys2Proof.Machine
open Sys2Proof

/-! ## VAT_UE_DETECTED (R110, R370) -/

section
variable {s : State} {pail : Nat} {p : Pail}

/-- An uncorrectable error in an allocated pail, counted and recorded. -/
def State.vatUeRecorded (s : State) (pail : Nat) (p : Pail) : State :=
  (s.bump VAT_ERR.UE 1).raise Ev.vatUe (some .vat) none [pail, p.cls]

theorem State.vatUeRecorded_vat (s : State) (pail : Nat) (p : Pail) : (s.vatUeRecorded pail p).vat = s.vat :=
  State.raise_vat ..

theorem State.vatUeRecorded_par (s : State) (pail : Nat) (p : Pail) : (s.vatUeRecorded pail p).par = s.par :=
  State.raise_par ..

/-- The commands that wait for the data of a pail to be committed: the one it is allocated to, and those that wrote one of its
entries of the write index. -/
def State.uncommittedIn (s : State) (p : Pail) (es : List WEntry) : List Nat :=
  (s.par.cmds.filter fun (x : Nat × NvmeCmd) => x.2.mutates && !x.2.commit && (p.user == .ctx x.1
    || es.any fun (e : WEntry) => x.2.vol == e.vol && x.2.blks.any fun b => b.block == e.block && b.dseq == e.dseq)).map
      fun (x : Nat × NvmeCmd) => x.1

theorem State.uncommittedIn_owner {k : Nat} {c : NvmeCmd} (hc : s.par.cmds = [(k, c)]) (hp : p.user = .ctx k)
    (hm : c.mutates = true) (hn : c.commit = false) (es : List WEntry) : s.uncommittedIn p es = [k] := by
  simp [State.uncommittedIn, hc, hp, hm, hn]

theorem exec_vatUeDetected_free (hg : Tab.get? s.vat.pails pail = none) : exec (.vatUeDetected pail) s = .next s := by
  change execVatUeDetected pail s = _
  simp only [execVatUeDetected, hg]

theorem exec_vatUeDetected_committed (hg : Tab.get? s.vat.pails pail = some p) (hh : p.holds = .committed) :
    exec (.vatUeDetected pail) s = .next ((s.vatUeRecorded pail p).abdicate 2) := by
  change execVatUeDetected pail s = _
  simp only [execVatUeDetected, hg, hh]
  rfl

/-- What a read, background work or software has in a pail is not lost with it. -/
theorem exec_vatUeDetected_refetched (hg : Tab.get? s.vat.pails pail = some p)
    (hh : p.holds = .readData ∨ p.holds = .background ∨ p.holds = .software) :
    exec (.vatUeDetected pail) s = .next (s.vatUeRecorded pail p) := by
  change execVatUeDetected pail s = _
  rcases hh with hh | hh | hh <;> simp only [execVatUeDetected, hg, hh] <;> rfl

/-- The reads served from the pail's entries of the write index fail first, then the writes that put data there. -/
theorem exec_vatUeDetected_writeData {es : List WEntry} {u : State} (hg : Tab.get? s.vat.pails pail = some p)
    (hh : p.holds = .writeData) (hes : es = s.vat.widx.filter fun (e : WEntry) => e.pail == pail)
    (hu : u = es.foldl (fun (s : State) e => s.failReads e) (s.vatUeRecorded pail p)) :
    exec (.vatUeDetected pail) s = .next ((u.uncommittedIn p es).foldl (fun (s : State) k => s.failWrite k) u) := by
  rw [← s.vatUeRecorded_vat pail p] at hes
  subst hes hu
  change execVatUeDetected pail s = _
  simp only [execVatUeDetected, hg, hh]
  rfl

end

/-! ## CFG_WRITE (R398) -/

section
variable {s : State} {d : DescRef} {f : Fetched}

/-- A descriptor of the Island that needs no KEK is carried out where the Island answers, its turn has come and the lifecycle
allows it. -/
theorem State.secDesc_started {op : Nat} {keys : Bool} (hf : s.startedAt .sec d op = some f) (ha : s.secAnswers = true)
    (hi : s.inOrder .sec d = true) (hl : s.lifeAllows keys = true) (k : Fetched → State) :
    s.secDesc d op keys false k = .next (k f) := by
  simp only [State.secDesc, hf, ha, hi, hl, Bool.not_true, Bool.or_self, Bool.false_and, Bool.false_eq_true, if_false]

/-- Whether the policy refuses the register `r` at `a`, in sub-window `k` of window `n`: its unit is not named, it is no
configuration register, it is the mask itself, or it is not the unit's. -/
def State.policyRefuses (s : State) (n k a : Nat) (u : UnitId) (r : RegRow) : Bool :=
  !s.bit SEC_CFGW_MASK.UNIT (4 * n + k) || !r.config || a == SEC_CFGW_MASK.UNIT.reg || csrUnit a != some u

/-- A unit that SEC_CFGW_MASK does not name is refused, whatever the register. -/
theorem State.policyRefuses_unnamed {n k : Nat} (h : s.bit SEC_CFGW_MASK.UNIT (4 * n + k) = false) (a : Nat) (u : UnitId)
    (r : RegRow) : s.policyRefuses n k a u r = true := by
  simp only [State.policyRefuses, h, Bool.not_false, Bool.true_or]

theorem State.policyRefuses_allowed {n k a : Nat} {u : UnitId} {r : RegRow} (hb : s.bit SEC_CFGW_MASK.UNIT (4 * n + k) = true)
    (hc : r.config = true) (hm : a ≠ SEC_CFGW_MASK.UNIT.reg) (hu : csrUnit a = some u) : s.policyRefuses n k a u r = false := by
  simp [State.policyRefuses, hb, hc, hm, hu]

/-- A CFG_WRITE that names a register of a unit: refused by the policy, refused by the register, or written. -/
theorem exec_cfgWrite_register {a : Nat} {u : UnitId} {r : RegRow} (hf : s.startedAt .sec d Op.cfgWrite = some f)
    (ha : s.secAnswers = true) (hi : s.inOrder .sec d = true) (hl : s.lifeAllows false = true)
    (haddr : a = f.at 28 1 * 0x1000000 + f.at 29 1 * 0x400000 + f.at 32 4) (hk : f.at 29 1 < 4)
    (hu : unitAt (f.at 28 1) (f.at 29 1) = some u) (hr : findReg a = some r) :
    exec (.cfgWrite d) s = .next
      (if s.policyRefuses (f.at 28 1) (f.at 29 1) a u r then s.cfgRefused d a (f.at 40 8) 2
       else if !s.accepts u r a (f.at 40 8) then (s.unitErr u 0x200 (errOffset a) 7).cfgRefused d a (f.at 40 8) 3
       else ((s.csrApply 0x200 u r a (f.at 40 8)).auditWrite 0x200 (s.ringOwner .sec d) a (s.readCsr a) (f.at 40 8)).finish
         .sec d St.success) := by
  subst haddr
  refine (State.secDesc_started hf ha hi hl _).trans ?_
  simp only [hk, hu, hr, if_true]
  rfl

end

/-- Settles O54: each clause is the equation of its command under the clause's hypotheses. The clauses of CFG_WRITE are one
equation, split over the policy and over what the register accepts. -/
theorem vatErrorsAndPolicyWrites : Obligations.VatErrorsAndPolicyWrites := by
  unfold Obligations.VatErrorsAndPolicyWrites
  refine ⟨?free, ?committed, ?refetched, ?oneWrite, ?writeData, ?policy, ?register, ?written⟩
  case free =>
    intro s pail
    exact exec_vatUeDetected_free
  case committed =>
    intro s pail p
    exact exec_vatUeDetected_committed
  case refetched =>
    intro s pail p
    exact exec_vatUeDetected_refetched
  case oneWrite =>
    intro s pail k p c hg hh hp hw hc hm hn
    have hes : ([] : List WEntry) = s.vat.widx.filter fun (e : WEntry) => e.pail == pail := by rw [hw, List.filter_nil]
    have hc' : (s.vatUeRecorded pail p).par.cmds = [(k, c)] := by rw [State.vatUeRecorded_par, hc]
    rw [exec_vatUeDetected_writeData hg hh hes rfl, List.foldl_nil, State.uncommittedIn_owner hc' hp hm hn]
    rfl
  case writeData =>
    rintro s pail p es t u hg hh rfl hes hu
    exact exec_vatUeDetected_writeData hg hh (hes.trans (by rw [State.raise_vat]; rfl)) hu
  case policy =>
    intro s d f a u r hf ha hi hl haddr hk hu hr hb
    rw [exec_cfgWrite_register hf ha hi hl haddr hk hu hr, if_pos (State.policyRefuses_unnamed hb a u r), State.cfgRefused]
  case register =>
    intro s d f a u r hf ha hi hl haddr hk hu hr hb hc hm hcu hacc
    rw [exec_cfgWrite_register hf ha hi hl haddr hk hu hr, State.policyRefuses_allowed hb hc hm hcu, if_neg Bool.false_ne_true,
      hacc, Bool.not_false, if_pos rfl, State.cfgRefused]
  case written =>
    intro s d f a u r hf ha hi hl haddr hk hu hr hb hc hm hcu hacc
    rw [exec_cfgWrite_register hf ha hi hl haddr hk hu hr, State.policyRefuses_allowed hb hc hm hcu, if_neg Bool.false_ne_true,
      hacc, Bool.not_true, if_neg Bool.false_ne_true]

end Sys2Proof.Machine
end

section
/-! Requests at the Cooler's home slices, fills, the eviction buffer, write-backs and cache-block operations (R353, R355, R357 to
R360, R362): what each shared step of them changes, then what each command does where its event takes place. -/
namespace Sys2Proof.Machine
open Sys2Proof

/-! ## Serving a request (R29, R359) -/

section
variable (s : State) (r : CoolReq)

/-- What a served request does to the L2 copies is a change of the Cooler's part alone. -/
theorem State.l2After_rest : s.l2After r = { s with cool := (s.l2After r).cool } := by
  simp only [State.l2After]
  repeat' split
  all_goals rfl

theorem State.l2After_mem : (s.l2After r).mem = s.mem := by rw [s.l2After_rest r]

/-- Serving a request changes no register. -/
theorem State.serve_csr : (s.serve r).csr = s.csr := by
  simp only [State.serve]
  rw [s.l2After_rest r]
  repeat' split
  all_goals rfl

theorem State.serve_coolSt : (s.serve r).coolSt = s.coolSt := by
  simp only [State.coolSt, State.rd, s.serve_csr r]

/-- A store that is served writes exactly its bytes. -/
theorem State.serve_mem_store {bs : List Byte} (hw : r.wb = false) (hs : r.store = some bs) :
    (s.serve r).mem = Memory.writeN s.mem r.addr bs := by
  simp only [State.serve, hw, hs, Bool.false_eq_true, if_false]
  split <;> simp only [State.setCool_mem, State.l2After_mem]

end

/-! ## A request at its home slice (R355, R357, R358) -/

section
variable {s : State} (r : CoolReq) {k : Nat} {l : CoolLine}

theorem State.coolRequest_hit (hf : s.coolFind (r.addr / 64) = some (k, l)) (hl : l.filling = false) :
    s.coolRequest r = s.coolHit r k l := by
  simp only [State.coolRequest, hf, hl, Bool.false_eq_true, if_false]

theorem State.coolRequest_miss (hf : s.coolFind (r.addr / 64) = none) (he : s.cool.evict = []) :
    s.coolRequest r = s.coolMiss r := by
  simp only [State.coolRequest, hf, he, List.contains_nil, Bool.false_eq_true, if_false]

/-- A hit leaves its line in its way, unless the Cooler is DRAINING. -/
theorem State.coolHit_kept (h : s.coolSt ≠ Cst.draining) :
    s.coolHit r k l = (s.serve r).putLine k (l.touched r.store.isSome) :=
  if_neg (by rwa [State.serve_coolSt])

/-- No request allocates a way of a Cooler that is not ON (R362). -/
theorem State.noAlloc_not_on (h : s.coolSt ≠ Cst.on) (part line : Nat) : s.noAlloc part line = true := by
  simp [State.noAlloc, h]

theorem State.coolMiss_bypass (h : s.noAlloc (s.partition r.port) (r.addr / 64) = true) : s.coolMiss r = s.serve r :=
  if_pos h

/-- Making room in a set changes the Cooler's part alone. -/
theorem State.makeRoom_rest {line mask : Nat} {t : State} (h : s.makeRoom line mask = some (k, t)) :
    t = { s with cool := t.cool } := by
  simp only [State.makeRoom] at h
  repeat' split at h
  all_goals cases h
  all_goals rfl

/-- A miss register taken for a request whose line is to fill way `k`. -/
def State.takeRegister (s : State) (r : CoolReq) (k : Nat) : State :=
  (s.putLine k { line := r.addr / 64, filling := true }).setCool
    { (s.putLine k { line := r.addr / 64, filling := true }).cool with
      misses := s.cool.misses ++ [{ slice := s.home (r.addr / 64), line := r.addr / 64, key := k, reqs := [r],
                                    streaming := s.streaming r.port (r.addr / 64) }] }

theorem State.takeRegister_mem (s : State) (r : CoolReq) (k : Nat) : (s.takeRegister r k).mem = s.mem := rfl

theorem State.takeRegister_misses (s : State) (r : CoolReq) (k : Nat) : (s.takeRegister r k).cool.misses =
    s.cool.misses ++ [{ slice := s.home (r.addr / 64), line := r.addr / 64, key := k, reqs := [r],
                        streaming := s.streaming r.port (r.addr / 64) }] := rfl

/-- A miss that is not a store of a whole line takes a register and the way made free, where both can be had. -/
theorem State.coolMiss_register {t : State} (ha : s.noAlloc (s.partition r.port) (r.addr / 64) = false) (hr : r.full = false)
    (hc : s.missCount (s.home (r.addr / 64)) < 64)
    (hm : s.makeRoom (r.addr / 64) (s.rd (COOL_WAYMASK.MASK (s.partition r.port))) = some (k, t)) :
    s.coolMiss r = t.takeRegister r k := by
  simp only [State.coolMiss, ha, hr, hm, Nat.not_le.2 hc, and_false, Bool.false_eq_true, if_false]
  rfl

end

/-! ## COOLER_ACCESS (R357, R359) -/

section
variable {s t : State} {port : CoolPort} {addr : Nat} {store : Option (List Byte)} {err : CoolErr}

/-- What the error that an access meets does before it is served, and whether it goes on: an error is found only in a line that
a way holds. -/
def State.lineError (s : State) (line : Nat) (err : CoolErr) : Bool × State :=
  match s.coolFind line with
  | some (k, l) => if l.filling then (true, s) else s.coolError k l err
  | none => (true, s)

theorem State.lineError_found {line k : Nat} {l : CoolLine} (hf : s.coolFind line = some (k, l)) (hl : l.filling = false) :
    s.lineError line err = s.coolError k l err := by
  simp only [State.lineError, hf, hl, Bool.false_eq_true, if_false]

theorem State.lineError_absent {line : Nat}
    (h : s.coolFind line = none ∨ ((s.coolFind line).map fun e => e.2.filling) = some true) :
    s.lineError line err = (true, s) := by
  simp only [State.lineError]
  cases hf : s.coolFind line with
  | none => rfl
  | some e => simp_all

theorem State.lineError_none (s : State) (line : Nat) : s.lineError line .none = (true, s) := by
  simp only [State.lineError]
  cases s.coolFind line with
  | none => rfl
  | some e => exact ite_self _

/-- An access within a line of populated DRAM, after its error. -/
theorem exec_coolerAccess_lineError (ha : addr < s.populated) (hl : addr % 64 + (store.getD []).length ≤ 64) {go : Bool}
    (he : s.lineError (addr / 64) err = (go, t)) :
    exec (.coolerAccess port addr store err) s = .next (if go then
      (if store.isNone then (t.coolRequest ⟨port, addr, store, false⟩).notePrefetch port (addr / 64)
       else t.coolRequest ⟨port, addr, store, false⟩)
      else t) := by
  have hin : ¬ (s.populated ≤ addr ∨ 64 < addr % 64 + (store.getD []).length) := by omega
  refine (if_neg hin).trans ?_
  change (match s.lineError (addr / 64) err with
    | (go, u) => if !go then Host.Outcome.next u
      else if store.isNone then .next ((u.coolRequest ⟨port, addr, store, false⟩).notePrefetch port (addr / 64))
      else .next (u.coolRequest ⟨port, addr, store, false⟩)) = _
  rw [he]
  cases go with
  | false => rfl
  | true => exact (apply_ite Host.Outcome.next ..).symm

theorem exec_coolerAccess_served (ha : addr < s.populated) (hl : addr % 64 + (store.getD []).length ≤ 64)
    (he : s.lineError (addr / 64) err = (true, t)) :
    exec (.coolerAccess port addr store err) s = .next
      (if store.isNone then (t.coolRequest ⟨port, addr, store, false⟩).notePrefetch port (addr / 64)
       else t.coolRequest ⟨port, addr, store, false⟩) :=
  exec_coolerAccess_lineError ha hl he

/-- A store without an error moves no prefetcher. -/
theorem exec_coolerAccess_store {bs : List Byte} (ha : addr < s.populated) (hl : addr % 64 + bs.length ≤ 64) :
    exec (.coolerAccess port addr (some bs) .none) s = .next (s.coolRequest ⟨port, addr, some bs, false⟩) :=
  exec_coolerAccess_served ha hl (s.lineError_none _)

end

/-! ## COOLER_FILL_DONE (R357, R359, R362) -/

section
variable {s u : State} {line : Nat} {err : DramErr} {m : CoolMiss}

/-- The miss registers of a line freed. -/
def State.freeRegister (s : State) (line : Nat) : State :=
  s.setCool { s.cool with misses := s.cool.misses.filter fun x => decide (x.line ≠ line) }

/-- The line that a fill leaves in its way. -/
def CoolMiss.filled (m : CoolMiss) (line : Nat) : CoolLine :=
  { line := line, dirty := m.reqs.any fun (x : CoolReq) => x.store.isSome, pf := m.prefetch && m.reqs.isEmpty
    age := if m.prefetch then (if m.reqs.isEmpty then 3 else 0) else if m.streaming then 3 else 2 }

/-- The fill of a line with a miss register: what merged is served, and the way filled while the Cooler is ON, else emptied. -/
theorem exec_coolerFillDone_found (hm : (s.cool.misses.find? fun x => x.line == line) = some m)
    (hu : u = m.reqs.foldl (fun (a : State) r => a.serve r) ((s.ddrFound line err).freeRegister line)) :
    exec (.coolerFillDone line err) s = .next
      (if u.coolSt = Cst.on then u.putLine m.key (m.filled line)
       else u.setCool { u.cool with lines := Tab.del u.cool.lines m.key }).coolRetry := by
  subst hu
  change execCoolerFillDone line err s = _
  simp only [execCoolerFillDone, hm]
  rfl

theorem exec_coolerFillDone_on (hm : (s.cool.misses.find? fun x => x.line == line) = some m)
    (hu : u = m.reqs.foldl (fun (a : State) r => a.serve r) ((s.ddrFound line err).freeRegister line))
    (ho : u.coolSt = Cst.on) :
    exec (.coolerFillDone line err) s = .next (u.putLine m.key (m.filled line)).coolRetry := by
  rw [exec_coolerFillDone_found hm hu, if_pos ho]

theorem State.ddrFound_none (s : State) (line : Nat) : s.ddrFound line .none = s := rfl

theorem State.coolRetry_idle (h : s.cool.waiting = []) : s.coolRetry = s.setCool { s.cool with waiting := [] } := by
  simp only [State.coolRetry, h, List.foldl_nil]

end

/-! ## EVICTION_WRITE_ACCEPTED (R358) -/

section
variable {s : State} {line : Nat}

/-- A line out of the eviction buffer of its slice. -/
def State.evictTaken (s : State) (line : Nat) : State :=
  s.setCool { s.cool with evict := s.cool.evict.filter fun x => decide (x ≠ (s.home line, line)) }

theorem exec_evictionWriteAccepted_alone (he : s.cool.evict.contains (s.home line, line) = true) :
    exec (.evictionWriteAccepted line none) s = .next (s.evictTaken line).coolRetry := by
  change execEvictionWriteAccepted line none s = _
  simp only [execEvictionWriteAccepted, he, Bool.not_true, Bool.false_eq_true, if_false]
  rfl

/-- With a request that comes together with the acceptance: it is served past the Cooler, waits for a way, or is served from
the buffer. -/
theorem exec_evictionWriteAccepted_request {p : CoolPort} {off : Nat} {st : Option (List Byte)} {r : CoolReq}
    (he : s.cool.evict.contains (s.home line, line) = true) (hr : r = ⟨p, line * 64 + off % 64, st, false⟩) :
    exec (.evictionWriteAccepted line (some (p, off, st))) s = .next
      (if s.noAlloc (s.partition p) line then ((s.evictTaken line).serve r).coolRetry
       else if (s.makeRoom line (s.rd (COOL_WAYMASK.MASK (s.partition p)))).isNone then ((s.evictTaken line).coolWait r).coolRetry
       else s.reinsert r true) := by
  subst hr
  change execEvictionWriteAccepted line (some (p, off, st)) s = _
  simp only [execEvictionWriteAccepted, he, Bool.not_true, Bool.false_eq_true, if_false, apply_ite Host.Outcome.next]
  rfl

end

/-! ## L2_WRITEBACK (R357) -/

section
variable {s t : State} {core line : Nat}

/-- The copy in the Cooler becomes dirty. -/
theorem exec_l2Writeback_marked {k : Nat} {l : CoolLine} (hd : Tab.get? s.cool.l2 (line * 64 + core) = some true)
    (ht : t = s.setCool { s.cool with l2 := Tab.del s.cool.l2 (line * 64 + core) }) (hf : t.coolFind line = some (k, l))
    (hl : l.filling = false) (ho : t.coolSt = Cst.on) :
    exec (.l2Writeback core line) s = .next (t.putLine k { l with dirty := true }) := by
  subst ht
  change execL2Writeback core line s = _
  simp only [execL2Writeback, hd, hf, hl, ho, ne_eq, not_true, Bool.false_eq_true, or_self, if_false]

/-- Without a copy that can take it, the line comes as a request. -/
theorem exec_l2Writeback_sent (hd : Tab.get? s.cool.l2 (line * 64 + core) = some true)
    (ht : t = s.setCool { s.cool with l2 := Tab.del s.cool.l2 (line * 64 + core) })
    (h : t.coolFind line = none ∨ t.coolSt ≠ Cst.on ∨ ((t.coolFind line).map fun e => e.2.filling) = some true) :
    exec (.l2Writeback core line) s = .next
      (t.coolRequest ⟨.core core, line * 64, some (Memory.readN t.mem (line * 64) 64), true⟩) := by
  subst ht
  refine (if_neg fun hn => hn hd).trans ?_
  split
  next k l hf =>
    refine if_pos ?_
    rcases h with h | h | h
    · exact absurd (hf.symm.trans h) (by simp)
    · exact .inr h
    · exact .inl (by simpa [hf] using h)
  next => rfl

end

/-! ## Cleaning and flushing (R360) -/

section
variable (s : State) {p : Nat → Bool} {line : Nat}

/-- A line that is not cleaned stands where it stood, as it stood. -/
theorem State.coolFind_cleanLines (h : p line = false) : (s.cleanLines p).coolFind line = s.coolFind line := by
  have hbase : (s.cleanLines p).setBase line = s.setBase line := rfl
  have hget : ∀ k, Tab.get? (s.cleanLines p).cool.lines k =
      (Tab.get? s.cool.lines k).map fun l => if p l.line then { l with dirty := false } else l :=
    fun k => Tab.get?_mapV s.cool.lines (fun _ l => if p l.line then { l with dirty := false } else l) k
  simp only [State.coolFind, hbase, hget]
  congr
  funext w
  cases Tab.get? s.cool.lines (s.setBase line + w) with
  | none => rfl
  | some l =>
    by_cases hl : l.line = line
    · simp only [Option.map_some, hl, h, Bool.false_eq_true, if_false, if_true]
    · cases hp : p l.line <;> simp [hp, hl]

/-- A line that is cleaned has no dirty copy at either level. -/
theorem State.lineDirty_cleanLines (h : p line = true) : (s.cleanLines p).lineDirty line = false := by
  simp only [State.lineDirty, State.cleanLines, State.setCool_cool, Tab.mapV, List.any_map, Bool.or_eq_false_iff,
    List.any_eq_false, Function.comp_apply, Bool.and_eq_true, beq_iff_eq, not_and]
  constructor
  · intro e _
    by_cases hp : p e.2.line = true
    · simp [hp]
    · rw [if_neg hp]
      rintro rfl
      exact absurd h hp
  · intro e _ hk
    rw [hk, if_pos h]
    exact Bool.false_ne_true

end

/-- Settles O39: each clause is the equation of its command under the clause's hypotheses. A clause about the state after an
access goes on from there with the law of the hit, the miss or the cleaning it is about. -/
theorem coolerAccessesAndFills : Obligations.CoolerAccessesAndFills := by
  unfold Obligations.CoolerAccessesAndFills
  refine ⟨?access, ?absent, ?error, ?tagDirty, ?storeHit, ?off, ?register, ?prefetched, ?readFill, ?fill, ?fillDrained,
    ?evictBypass, ?evictWait, ?evictServed, ?evictAlone, ?l2Marked, ?l2Sent, ?cbo, ?cboCleaned, ?cboFlushed⟩
  case access =>
    rintro s port addr store r ha hl rfl
    exact exec_coolerAccess_served ha hl (s.lineError_none _)
  case absent =>
    rintro s port addr store r err ha hl rfl hf
    exact exec_coolerAccess_served ha hl (State.lineError_absent hf)
  case error =>
    rintro s port addr store r err k l t ha hl rfl hf hfill he
    exact exec_coolerAccess_served ha hl ((State.lineError_found hf hfill).trans he)
  case tagDirty =>
    rintro s port addr store r k l ha hl rfl hf hfill hd
    have he : s.coolError k l .tag = (false, (s.raise Ev.coolTag (some .cool) none [k / 32768, k / 16 % 2048, k % 16]).setCool
        { s.cool with fatal := true }) := if_pos hd
    exact exec_coolerAccess_lineError ha hl ((State.lineError_found hf hfill).trans he)
  case storeHit =>
    rintro s port addr k bs l r ha hl hf hfill hst rfl
    refine ⟨?_, State.serve_mem_store s _ rfl rfl⟩
    rw [exec_coolerAccess_store ha hl, State.coolRequest_hit ⟨port, addr, some bs, false⟩ hf hfill,
      State.coolHit_kept _ hst, CoolLine.touched, Option.isSome_some, Bool.or_true]
  case off =>
    rintro s port addr bs r ha hl hf he ho rfl
    have hon : s.coolSt ≠ Cst.on := by rw [ho]; decide
    rw [exec_coolerAccess_store ha hl, State.coolRequest_miss ⟨port, addr, some bs, false⟩ hf he,
      State.coolMiss_bypass _ (State.noAlloc_not_on hon _ _)]
  case register =>
    rintro s port addr k bs r t ha hl hf he hn rfl hr hc hm hmisses _
    have hexec : exec (.coolerAccess port addr (some bs) .none) s = .next (t.takeRegister ⟨port, addr, some bs, false⟩ k) := by
      rw [exec_coolerAccess_store ha hl, State.coolRequest_miss ⟨port, addr, some bs, false⟩ hf he,
        State.coolMiss_register ⟨port, addr, some bs, false⟩ hn hr hc hm]
    refine ⟨_, hexec, ?_, ?_, ?_⟩
    · rw [State.takeRegister_mem, State.makeRoom_rest hm]
    · rw [State.takeRegister_misses, List.length_append, hmisses, List.length_singleton]
    · simp [State.takeRegister_misses]
  case prefetched =>
    intro s line m hm hr hp hon hw
    have hu : s.freeRegister line = m.reqs.foldl (fun (a : State) r => a.serve r)
        ((s.ddrFound line .none).freeRegister line) := by rw [hr, List.foldl_nil, State.ddrFound_none]
    have hline : m.filled line = { line := line, dirty := false, pf := true, age := 3 } := by simp [CoolMiss.filled, hr, hp]
    rw [exec_coolerFillDone_on hm hu hon, hline]
    exact congrArg Host.Outcome.next (State.coolRetry_idle hw)
  case readFill =>
    intro s line m r t hm hr hp hs hrd ht hon
    have hu : (s.freeRegister line).serve r = m.reqs.foldl (fun (a : State) r => a.serve r)
        ((s.ddrFound line .none).freeRegister line) := by rw [hr, List.foldl_cons, List.foldl_nil, State.ddrFound_none]
    have hline : m.filled line = { line := line, dirty := false, pf := false, age := 2 } := by
      simp [CoolMiss.filled, hr, hp, hs, hrd]
    rw [exec_coolerFillDone_on hm (ht.trans hu) hon, hline]
  case fill =>
    rintro s line err m t u hm rfl hu hon
    exact exec_coolerFillDone_on hm hu hon
  case fillDrained =>
    rintro s line err m t u hm rfl hu hon
    exact (exec_coolerFillDone_found hm hu).trans (by rw [if_neg hon])
  case evictBypass =>
    rintro s line off p st r t he hr rfl hn
    exact (exec_evictionWriteAccepted_request he hr).trans (by rw [if_pos hn]; rfl)
  case evictWait =>
    rintro s line off p st r t he hr rfl hn hm
    rw [exec_evictionWriteAccepted_request he hr, hn, if_neg Bool.false_ne_true, if_pos hm]
    rfl
  case evictServed =>
    intro s line off p st r he hr hn hm
    rw [exec_evictionWriteAccepted_request he hr, hn, if_neg Bool.false_ne_true,
      if_neg (by rw [← Option.not_isSome, hm]; decide)]
  case evictAlone =>
    intro s line
    exact exec_evictionWriteAccepted_alone
  case l2Marked =>
    intro s core line k l t
    exact exec_l2Writeback_marked
  case l2Sent =>
    intro s core line t
    exact exec_l2Writeback_sent
  case cbo =>
    intro s addr
    exact ⟨rfl, rfl, rfl⟩
  case cboCleaned =>
    intro s addr
    exact ⟨_, rfl, rfl, rfl, s.lineDirty_cleanLines (beq_self_eq_true _),
      fun line hne => s.coolFind_cleanLines (beq_false_of_ne hne)⟩
  case cboFlushed =>
    intro s addr
    exact ⟨_, rfl, rfl, rfl, rfl, rfl, rfl⟩

end Sys2Proof.Machine
end

section
/-! Reset, the front of the queue, and the frozen Tally (R40, R477, R490, R491): the tier 1 statements. -/
namespace Sys2Proof.Machine
open Sys2Proof

/-- Settles O1: `step` looks at the queue alone. -/
theorem stepRunsTheFrontCommand : Obligations.StepRunsTheFrontCommand := fun _ _ _ => rfl

/-- Settles O55: no list of the reset state holds an entry. -/
theorem resetIsCanonical : Obligations.ResetIsCanonical := ⟨by decide, by decide, by decide⟩

/-- Settles O3: no register is written at reset, so each field reads its own reset value. -/
theorem resetState : Obligations.ResetState :=
  ⟨rfl, rfl, resetIsCanonical, fun _ _ => ⟨rfl, rfl, rfl, rfl⟩, fun _ => ⟨rfl, rfl⟩, fun _ _ => rfl⟩

/-! ## The frozen Tally (R477) -/

section
variable {s : State}

/-- A frozen Tally counts what is raised. -/
theorem State.raise_frozen (code : Nat) (u : Option UnitId) (inst : Option Nat) (args : List Nat) (origin : Option Nat)
    (he : s.on TAL_CTL.EN = true) (hf : s.on TAL_CTL.FREEZE = true) :
    s.raise code u inst args origin = s.bump (TAL_COUNT.FROZEN (evIndex code)) 1 := by
  simp only [State.raise, he, hf, Bool.not_true, Bool.false_eq_true, if_false, if_true]

/-- TALLY_SPILL of the oldest due entry (R478). -/
theorem exec_tallySpill_copied {slot : Nat} {rest : List Nat} {e : TallyEntry} {t : State} (hd : s.tally.due = slot :: rest)
    (hs : s.on TAL_RING.SPILL_EN = true) (hr : s.spillRoom = true) (hb : Tab.get? s.tally.buf slot = some e)
    (hw : s.dmaWrite .tal (s.rd TAL_RING.BASE * 4096 + s.rd TAL_RING_IDX.PROD * 256) e.bytes = .ok t) :
    exec .tallySpill s = .next { t.wr TAL_RING_IDX.PROD ((s.rd TAL_RING_IDX.PROD + 1) % 2 ^ s.rd TAL_RING.LOG2_ENTRIES) with
      tally := { t.tally with due := rest } } := by
  obtain ⟨_, _, he, _⟩ := State.dmaWrite_ok hw
  have hlog : t.rd TAL_RING.LOG2_ENTRIES = s.rd TAL_RING.LOG2_ENTRIES := by rw [he]; rfl
  change execTallySpill s = _
  simp only [execTallySpill, hd, hs, hr, Bool.not_true, Bool.or_self, Bool.false_eq_true, if_false, hb, hw, hlog]
  rfl

/-- TAL_CTL as a row of the register map (R477). -/
def talCtlRow : RegRow where
  unit := 61
  off := 0x200000
  stride := 0
  count := 1
  stride2 := 0
  count2 := 1
  config := false
  fields := [⟨0, 1, .rw, 0, 0, 1, .always⟩, ⟨1, 1, .w1s, 0, 0, 1, .always⟩, ⟨2, 1, .rw, 1, 0, 1, .always⟩]

theorem findReg_talCtl : findReg 0xF600000 = some talCtlRow := by decide +kernel

/-- The word 4 written to TAL_CTL clears FREEZE and sets EN. -/
theorem State.rowAfter_talCtl (s : State) : s.rowAfter talCtlRow 0xF600000 4 = (s.wr TAL_CTL.FREEZE 0).wr TAL_CTL.EN 1 := rfl

/-- A write of the word 4 to TAL_CTL does nothing beyond its fields. -/
theorem State.csrHook_talCtl (s t : State) (o : Origin) : s.csrHook t o .tal 0xF600000 4 = t := rfl

theorem State.accepts_talCtl (s : State) : s.accepts .tal talCtlRow 0xF600000 4 = true := by
  rfl

/-- TAL_CTL written by an initiator that is there: its fields take the word, and nothing is journaled. -/
theorem exec_csrWrite_talCtl {o : Origin} (ho : s.originThere o.toNat = true) (hne : o ≠ 0x300) :
    exec (.csrWrite o 0xF0000F600000 .b8 4) s = .next ((s.wr TAL_CTL.FREEZE 0).wr TAL_CTL.EN 1) := by
  have hn : (o.toNat == 0x300) = false := beq_false_of_ne fun h => hne (BitVec.eq_of_toNat_eq h)
  have hplain : s.audited false o.toNat = false := by simp only [State.audited, hn, Bool.false_and, Bool.or_self]
  have hstore : s.csrStore o .tal 0xF600000 4 = s.chapterWrite o .tal 0xF600000 4 := rfl
  have hchapter : s.chapterWrite o .tal 0xF600000 4 = s.csrApply o .tal talCtlRow 0xF600000 4 := by
    have hleg : isLegacyReg 0xF600000 = false := rfl
    have hcfg : talCtlRow.config = false := rfl
    simp only [State.chapterWrite, findReg_talCtl, State.regWrite, ho, State.accepts_talCtl, hcfg, hplain, hleg, Bool.false_and,
      Bool.not_false, Bool.not_true, Bool.false_eq_true, if_false, if_true]
  have hexec : exec (.csrWrite o 0xF0000F600000 .b8 4) s = .next (s.csrStore o .tal 0xF600000 4) := by
    have hin : inCsr (0xF0000F600000 : PAddr).toNat = true := rfl
    have hoff : (0xF0000F600000 : PAddr).toNat - csrBase = 0xF600000 := by decide +kernel
    have hunit : csrUnit 0xF600000 = some .tal := by decide +kernel
    have hword : (4 : Word).toNat = 4 := rfl
    have hsize : ¬ (AccSize.b8 ≠ .b8 ∨ 0xF600000 % 8 ≠ 0) := by decide
    change execCsrWrite o 0xF0000F600000 .b8 4 s = _
    simp only [execCsrWrite, hin, ho, hoff, hunit, Bool.not_true, Bool.or_self, Bool.false_eq_true, if_false]
    rw [if_neg hsize, hword]
  rw [hexec, hstore, hchapter, State.csrApply, State.rowAfter_talCtl, State.csrHook_talCtl]

end

/-- Settles O52: the equation of each step, under the clause's hypotheses. -/
theorem frozenTally : Obligations.FrozenTally := by
  unfold Obligations.FrozenTally
  refine ⟨?counted, ?spilled, ?thawed⟩
  case counted =>
    intro s code u inst args origin he hf
    exact State.raise_frozen code u inst args origin he hf
  case spilled =>
    intro s slot rest e _ _ hd hs hr hb hw
    obtain ⟨t, ht⟩ := Option.isSome_iff_exists.mp hw
    replace ht := eq_ok_of_toOption ht
    obtain ⟨_, _, he, _⟩ := State.dmaWrite_ok ht
    have htal : t.tally = s.tally := by rw [he]
    exact ⟨_, exec_tallySpill_copied hd hs hr hb ht, rfl, by rw [← htal], by rw [← htal], by rw [← htal]⟩
  case thawed =>
    intro s o _ _ ho hne
    refine ⟨_, exec_csrWrite_talCtl ho hne, ?freeze, ?en, rfl, rfl, fun f hf hlo => ?other⟩
    case freeze => rw [State.on, State.rd_wr_ne _ _ (by decide), State.rd_wr_self]; rfl
    case en => rw [State.on, State.rd_wr_self]; rfl
    rw [State.rd_wr_reg _ _ hf hlo (by decide), State.rd_wr_reg _ _ hf hlo (by decide)]

end Sys2Proof.Machine
end

section
/-! The Island's key store (R387, R389, R390, R392, R393, R395, R396): what RANDOM and the key, KEK and pairing opcodes do once
their checks pass, one equation for each. -/
namespace Sys2Proof.Machine
open Sys2Proof

section
variable {s : State} {d : DescRef} {f : Fetched}

/-! ## Shared steps -/

/-- A descriptor of the Island that needs the KEK is carried out where there is one. -/
theorem State.secDesc_started_kek {op : Nat} {keys : Bool} (hf : s.startedAt .sec d op = some f) (ha : s.secAnswers = true)
    (hi : s.inOrder .sec d = true) (hl : s.lifeAllows keys = true) (hk : s.sec.kek.isSome = true) (k : Fetched → State) :
    s.secDesc d op keys true k = .next (k f) := by
  have hn : s.sec.kek.isNone = false := by rw [← Option.not_isSome, hk]; rfl
  simp only [State.secDesc, hf, ha, hi, hl, hn, Bool.not_true, Bool.or_self, Bool.and_false, Bool.false_eq_true, if_false]

theorem State.secRead_ok {a n : Nat} {bs : List Byte} (h : (s.dmaRead .sec a n (some d.ring)).toOption = some bs)
    (k : List Byte → State) : s.secRead d a n k = k bs := by
  simp only [State.secRead, eq_ok_of_toOption h]

/-! ## RANDOM (R395) -/

theorem exec_random_drawn (hf : s.startedAt .sec d Op.random = some f) (ha : s.secAnswers = true)
    (hi : s.inOrder .sec d = true) (hl : s.lifeAllows false = true) (h0 : 0 < f.len) (h4 : f.len ≤ 4096)
    (hr : s.on SEC_RNG_STATUS.FAIL = false) :
    exec (.random d) s = .next (s.drbg.secWrite d f.dst (s.freeBytes f.len) fun t => t.finish .sec d St.success) := by
  have hlen : ¬ (f.len = 0 ∨ 4096 < f.len) := by omega
  refine (State.secDesc_started hf ha hi hl _).trans ?_
  simp only [hlen, hr, Bool.false_eq_true, if_false]

/-! ## Keys (R389, R390, R392, R396) -/

theorem exec_keyGen_installed {len tenant : Nat} (hf : s.startedAt .sec d Op.keyGen = some f) (ha : s.secAnswers = true)
    (hi : s.inOrder .sec d = true) (hl : s.lifeAllows true = true) (hk : s.sec.kek.isSome = true)
    (hL : len = if f.at 28 1 = Cls.tenant then 64 else if f.at 28 1 = Cls.domain then 32 else f.at 32 1)
    (hT : tenant = if f.at 28 1 = Cls.tenant then f.at 30 2 else f.at 34 2) (hlen : f.len = 192)
    (hs : slotOk f = true) (hkl : keyLenOk (f.at 28 1) len = true) (he : s.slotFull (f.at 28 1) (f.at 30 2) = false)
    (hg : (s.slot (f.at 28 1) (f.at 30 2)).gen < 2 ^ 32 - 1) (hr : s.on SEC_RNG_STATUS.FAIL = false) :
    exec (.keyGen d) s = .next (s.drbg.secWrite d f.dst (keyBlob (f.at 28 1) len (f.at 30 2) tenant
      (s.wrapKey (f.at 28 1) (f.at 30 2) tenant (s.freeBytes len)).1
      (s.wrapKey (f.at 28 1) (f.at 30 2) tenant (s.freeBytes len)).2) fun t =>
      t.installKey d (f.at 28 1) (f.at 30 2) tenant (s.freeBytes len)
        (s.wrapKey (f.at 28 1) (f.at 30 2) tenant (s.freeBytes len)).1
        (s.wrapKey (f.at 28 1) (f.at 30 2) tenant (s.freeBytes len)).2 fun h u => u.finish .sec d St.success 0 h) := by
  refine (State.secDesc_started_kek hf ha hi hl hk _).trans ?_
  simp only [← hL, ← hT, hlen, hs, hkl, he, Nat.not_le.2 hg, hr, ne_eq, not_true, Bool.not_true,
    Bool.or_self, Bool.false_eq_true, if_false]

/-- Outside TENANT a key goes into its slot, whose generation advances. -/
theorem State.installKey_slot {cls : Nat} (h : cls ≠ Cls.tenant) (index tenant kekId : Nat) (key wrapped : List Byte)
    (k : Nat → State → State) : s.installKey d cls index tenant key kekId wrapped k =
      k ((s.setSlot cls index ⟨some key, (s.slot cls index).gen + 1, tenant⟩).handleOf cls index)
        (s.setSlot cls index ⟨some key, (s.slot cls index).gen + 1, tenant⟩) := by
  simp only [State.installKey, h, if_false]

/-- Outside TENANT a slot is full when it holds a key. -/
theorem State.slotFull_slot {cls : Nat} (h : cls ≠ Cls.tenant) (index : Nat) :
    s.slotFull cls index = (s.slot cls index).key.isSome := by
  simp only [State.slotFull, h, if_false]

theorem exec_keyLoad_opened {b : List Byte} (hf : s.startedAt .sec d Op.keyLoad = some f) (ha : s.secAnswers = true)
    (hi : s.inOrder .sec d = true) (hl : s.lifeAllows true = true) (hk : s.sec.kek.isSome = true) (hlen : f.len = 192)
    (hs : slotOk f = true) (he : s.slotFull (f.at 28 1) (f.at 30 2) = false)
    (hg : (s.slot (f.at 28 1) (f.at 30 2)).gen < 2 ^ 32 - 1) (hb : (s.dmaRead .sec f.src 192 (some d.ring)).toOption = some b) :
    exec (.keyLoad d) s = .next (match s.openBlob (f.at 28 1) (f.at 30 2) b with
      | none => s.finish .sec d St.unwrapFail
      | some (key, tenant, w) => s.installKey d (f.at 28 1) (f.at 30 2) tenant key (fieldAt b 8 8) w fun h u =>
          u.finish .sec d St.success 0 h) := by
  refine (State.secDesc_started_kek hf ha hi hl hk _).trans ?_
  simp only [hlen, hs, he, Nat.not_le.2 hg, State.secRead_ok hb, ne_eq, not_true, Bool.not_true, Bool.false_eq_true, if_false] <;>
    rfl

theorem exec_keyDestroy_emptied (hf : s.startedAt .sec d Op.keyDestroy = some f) (ha : s.secAnswers = true)
    (hi : s.inOrder .sec d = true) (hl : s.lifeAllows true = true) (hk : s.sec.kek.isSome = true) (hs : slotOk f = true)
    (hfull : s.slotFull (f.at 28 1) (f.at 30 2) = true) :
    exec (.keyDestroy d) s = .next (if f.at 28 1 = Cls.tenant then
        s.tableThen .sec d (s.keyEntryAddr (f.at 30 2)) (zeros 128) fun t =>
          ((t.evictKey (f.at 30 2)).raise Ev.keyDestroyed (some .sec) none [f.at 28 1, f.at 30 2]).finish .sec d St.success
      else ((s.setSlot (f.at 28 1) (f.at 30 2) ⟨none, min ((s.slot (f.at 28 1) (f.at 30 2)).gen + 1) (2 ^ 32 - 1), 0⟩).raise
        Ev.keyDestroyed (some .sec) none [f.at 28 1, f.at 30 2]).finish .sec d St.success) := by
  refine (State.secDesc_started_kek hf ha hi hl hk _).trans ?_
  simp only [hs, hfull, Bool.not_true, Bool.false_eq_true, if_false]

theorem exec_keyExport_slot {key : List Byte} (hf : s.startedAt .sec d Op.keyExport = some f) (ha : s.secAnswers = true)
    (hi : s.inOrder .sec d = true) (hl : s.lifeAllows true = true) (hk : s.sec.kek.isSome = true) (hlen : f.len = 192)
    (hc : f.at 28 1 ≠ Cls.tenant) (hs : slotOk f = true) (hkey : (s.slot (f.at 28 1) (f.at 30 2)).key = some key) :
    exec (.keyExport d) s = .next (s.secWrite d f.dst (keyBlob (f.at 28 1) key.length (f.at 30 2)
      (s.slot (f.at 28 1) (f.at 30 2)).tenant
      (s.wrapKey (f.at 28 1) (f.at 30 2) (s.slot (f.at 28 1) (f.at 30 2)).tenant key).1
      (s.wrapKey (f.at 28 1) (f.at 30 2) (s.slot (f.at 28 1) (f.at 30 2)).tenant key).2) fun t => t.finish .sec d St.success) := by
  have hfull : s.slotFull (f.at 28 1) (f.at 30 2) = true := by rw [State.slotFull_slot hc, hkey]; rfl
  refine (State.secDesc_started_kek hf ha hi hl hk _).trans ?_
  simp only [hlen, hs, hfull, hc, hkey, ne_eq, not_true, Option.getD_some, Bool.not_true, Bool.false_eq_true, if_false]

theorem exec_keyExport_tenant (hf : s.startedAt .sec d Op.keyExport = some f) (ha : s.secAnswers = true)
    (hi : s.inOrder .sec d = true) (hl : s.lifeAllows true = true) (hk : s.sec.kek.isSome = true) (hlen : f.len = 192)
    (hc : f.at 28 1 = Cls.tenant) (hs : slotOk f = true) (hfull : s.slotFull Cls.tenant (f.at 30 2) = true) :
    exec (.keyExport d) s = .next (s.secWrite d f.dst (keyBlob Cls.tenant 64 (f.at 30 2) (f.at 30 2)
      (fieldAt (s.keyEntry (f.at 30 2)) 8 8) (slice (s.keyEntry (f.at 30 2)) 16 80)) fun t => t.finish .sec d St.success) := by
  refine (State.secDesc_started_kek hf ha hi hl hk _).trans ?_
  simp only [hlen, hs, hc, hfull, ne_eq, not_true, Bool.not_true, Bool.false_eq_true, if_false, if_true]

/-! ## The array KEK (R392) -/

theorem exec_kekCreate_sealed (hf : s.startedAt .sec d Op.kekCreate = some f) (ha : s.secAnswers = true)
    (hi : s.inOrder .sec d = true) (hl : s.lifeAllows true = true) (hlen : f.len = 128) (hk : s.sec.kek = none)
    (hr : s.on SEC_RNG_STATUS.FAIL = false) :
    exec (.kekCreate d) s = .next (s.drbg.secWrite d f.dst (s.sealedKek s.freeWord (s.freeBytes 32)) fun t =>
      (t.setKek s.freeWord (s.freeBytes 32)).finish .sec d St.success) := by
  refine (State.secDesc_started hf ha hi hl _).trans ?_
  simp only [hlen, hk, hr, ne_eq, not_true, Option.isSome_none, Bool.false_eq_true, if_false]

theorem exec_kekUnseal_read {b : List Byte} (hf : s.startedAt .sec d Op.kekUnseal = some f) (ha : s.secAnswers = true)
    (hi : s.inOrder .sec d = true) (hl : s.lifeAllows true = true) (hlen : f.len = 128)
    (hb : (s.dmaRead .sec f.src 128 (some d.ring)).toOption = some b) :
    exec (.kekUnseal d) s = .next (match keyUnwrap s.storageKey (b.take 48) with
      | none => s.finish .sec d St.unwrapFail
      | some x => (s.setKek (fieldAt x 0 8) (x.drop 8)).finish .sec d St.success) := by
  refine (State.secDesc_started hf ha hi hl _).trans ?_
  simp only [hlen, State.secRead_ok hb, ne_eq, not_true, if_false] <;> rfl

/-! ## Pairing (R393) -/

theorem exec_pairOffer_signed (hf : s.startedAt .sec d Op.pairOffer = some f) (ha : s.secAnswers = true)
    (hi : s.inOrder .sec d = true) (hl : s.lifeAllows true = true) (hlen : f.len = 512) (hr : s.on SEC_RNG_STATUS.FAIL = false) :
    exec (.pairOffer d) s = .next (s.drbg.secWrite d f.dst
      (s.pairMessage (x448Public (s.freeBytes 56) ++ s.ownerDigests.flatten)) fun (t : State) =>
        ({ t with sec := { t.sec with pairKey := some (s.freeBytes 56) } } : State).finish .sec d St.success) := by
  refine (State.secDesc_started hf ha hi hl _).trans ?_
  simp only [hlen, hr, ne_eq, not_true, Bool.false_eq_true, if_false]

/-- Whether an offer is to be answered: its certificate's key signed it, and its head shares an owner with this one. -/
def State.offerAccepted (s : State) (certKey : Option (List (BitVec 8))) (m : List Byte) : Bool :=
  pairSigned certKey m && s.ownerDigests.any ((List.range 4).map fun i => slice m (56 + 64 * i) 64).contains

theorem State.offerAccepted_iff {certKey : Option (List (BitVec 8))} {m : List Byte} : s.offerAccepted certKey m = true ↔
    pairSigned certKey m = true ∧ s.ownerDigests.any ((List.range 4).map fun i => slice m (56 + 64 * i) 64).contains = true := by
  simp only [State.offerAccepted, Bool.and_eq_true]

theorem exec_pairSend_answered {certKey : Option (List (BitVec 8))} {m x kek : List Byte} {id : Nat}
    (hf : s.startedAt .sec d Op.pairSend = some f) (ha : s.secAnswers = true) (hi : s.inOrder .sec d = true)
    (hl : s.lifeAllows true = true) (hlen : f.len = 512) (hr : s.on SEC_RNG_STATUS.FAIL = false) (hk : s.sec.kek = some (id, kek))
    (hm : (s.dmaRead .sec f.src 512 (some d.ring)).toOption = some m)
    (hx : (s.dmaRead .sec (f.at 32 8) (f.at 40 4) (some d.ring)).toOption = some x) :
    exec (.pairSend d certKey) s = .next (if s.offerAccepted certKey m = true then
        s.drbg.secWrite d f.dst (s.pairMessage (x448Public (s.freeBytes 56) ++ keyWrap (transferKey (x448 (s.freeBytes 56) (m.take 56))
          (m.take 56) (x448Public (s.freeBytes 56))) (leBytes 8 id ++ kek))) fun t => t.finish .sec d St.success
      else s.finish .sec d St.pairInvalid) := by
  refine (State.secDesc_started hf ha hi hl _).trans ?_
  simp only [hlen, hr, hk, State.secRead_ok hm, State.secRead_ok hx, ne_eq, not_true, Bool.false_eq_true, if_false,
    ← Bool.not_and]
  change Host.Outcome.next (if (!s.offerAccepted certKey m) = true then _ else _) = _
  cases s.offerAccepted certKey m <;> rfl

theorem exec_pairReceive_opened {certKey : Option (List (BitVec 8))} {m x priv : List Byte}
    (hf : s.startedAt .sec d Op.pairReceive = some f) (ha : s.secAnswers = true) (hi : s.inOrder .sec d = true)
    (hl : s.lifeAllows true = true) (hlen : f.len = 512) (hr : s.on SEC_RNG_STATUS.FAIL = false) (hk : s.sec.pairKey = some priv)
    (hm : (s.dmaRead .sec f.src 512 (some d.ring)).toOption = some m)
    (hx : (s.dmaRead .sec (f.at 32 8) (f.at 40 4) (some d.ring)).toOption = some x) :
    exec (.pairReceive d certKey) s = .next (State.dropPairKey (match pairSigned certKey m,
        keyUnwrap (transferKey (x448 priv (m.take 56)) (x448Public priv) (m.take 56)) (slice m 56 48) with
      | true, some x => s.secWrite d f.dst (s.sealedKek (fieldAt x 0 8) (x.drop 8)) fun (t : State) =>
          (t.setKek (fieldAt x 0 8) (x.drop 8)).finish .sec d St.success
      | _, _ => s.finish .sec d St.pairInvalid)) := by
  refine (State.secDesc_started hf ha hi hl _).trans ?_
  simp only [hlen, hr, hk, State.secRead_ok hm, State.secRead_ok hx, ne_eq, not_true, Bool.false_eq_true, if_false]
  cases pairSigned certKey m with
  | false => rfl
  | true =>
    dsimp only
    cases keyUnwrap (transferKey (x448 priv (m.take 56)) (x448Public priv) (m.take 56)) (slice m 56 48) <;> rfl

end

/-- Settles O23: each clause is the equation of its command under the clause's hypotheses. The clauses that fix a class are those of
KEY_GEN, KEY_DESTROY and KEY_EXPORT with that class put in. -/
theorem islandKeys : Obligations.IslandKeys := by
  unfold Obligations.IslandKeys
  refine ⟨?random, ?genGeneral, ?gen, ?load, ?destroyDomain, ?destroy, ?exportDomain, ?exportTenant, ?exportSlot, ?create, ?kekUnseal,
    ?offer, ?send, ?receive⟩
  case random =>
    intro s d f
    exact exec_random_drawn
  case genGeneral =>
    intro s d f hf ha hi hl hk hlen hc hs hkl hkey hg hr
    have hok : slotOk f = true := by
      simpa [slotOk, hc, slotCount, Cls.general, Cls.tenant, Cls.domain] using hs
    have hne : Cls.general ≠ Cls.tenant := by decide
    have he : s.slotFull Cls.general (f.at 30 2) = false := by rw [State.slotFull_slot hne, hkey]; rfl
    have hL : f.at 32 1 = if f.at 28 1 = Cls.tenant then 64 else if f.at 28 1 = Cls.domain then 32 else f.at 32 1 := by
      rw [hc]; rfl
    have hT : f.at 34 2 = if f.at 28 1 = Cls.tenant then f.at 30 2 else f.at 34 2 := by rw [hc]; rfl
    rw [← hc] at hkl hg he
    rw [exec_keyGen_installed hf ha hi hl hk hL hT hlen hok hkl he hg hr]
    simp only [hc, State.installKey_slot hne]
  case gen =>
    intro s d f len tenant
    exact exec_keyGen_installed
  case load =>
    intro s d f b
    exact exec_keyLoad_opened
  case destroyDomain =>
    intro s d f hf ha hi hl hk hc hs hkey
    have hne : Cls.domain ≠ Cls.tenant := by decide
    have hok : slotOk f = true := by simpa [slotOk, hc, slotCount, Cls.tenant, Cls.domain] using hs
    rw [exec_keyDestroy_emptied hf ha hi hl hk hok (by rw [hc, State.slotFull_slot hne, hkey])]
    simp only [hc, hne, if_false]
  case destroy =>
    intro s d f
    exact exec_keyDestroy_emptied
  case exportDomain =>
    rintro s d f k key hf ha hi hl hk hlen hc hs rfl hkey
    have hok : slotOk f = true := by simpa [slotOk, hc, slotCount, Cls.tenant, Cls.domain] using hs
    rw [← hc] at hkey ⊢
    exact exec_keyExport_slot hf ha hi hl hk hlen (by rw [hc]; decide) hok hkey
  case exportTenant =>
    intro s d f
    exact exec_keyExport_tenant
  case exportSlot =>
    rintro s d f k key hf ha hi hl hk hlen hc hs rfl hkey
    exact exec_keyExport_slot hf ha hi hl hk hlen hc hs hkey
  case create =>
    intro s d f
    exact exec_kekCreate_sealed
  case kekUnseal =>
    intro s d f b
    exact exec_kekUnseal_read
  case offer =>
    intro s d f
    exact exec_pairOffer_signed
  case send =>
    intro s d f certKey m x id kek hf ha hi hl hlen hr hk hm hx
    rw [exec_pairSend_answered hf ha hi hl hlen hr hk hm hx]
    simp only [State.offerAccepted_iff]
  case receive =>
    intro s d f certKey m x priv
    exact exec_pairReceive_opened

end Sys2Proof.Machine
end

section
/-! Locks, attestation, certificates, the lifecycle, entropy, the DRBG and JTAG (R385 to R387, R394, R397, R399): one equation for
each opcode and event, then what LOCK_SET and LOCK_CLEAR leave in UNIT_LOCK. -/
namespace Sys2Proof.Machine
open Sys2Proof

section
variable {s : State} {d : DescRef} {f : Fetched}

/-! ## Locks (R397) -/

theorem exec_lockSet_done (hf : s.startedAt .sec d Op.lockSet = some f) (ha : s.secAnswers = true)
    (hi : s.inOrder .sec d = true) (hl : s.lifeAllows false = true) :
    exec (.lockSet d) s = .next ((s.setLocks (f.at 48 8) 1).finish .sec d St.success) :=
  State.secDesc_started hf ha hi hl _

theorem exec_lockClear_open (hf : s.startedAt .sec d Op.lockClear = some f) (ha : s.secAnswers = true)
    (hi : s.inOrder .sec d = true) (hl : s.lifeAllows false = true) (hd : s.rd SEC_STATUS.LIFECYCLE ≠ Life.deployed) :
    exec (.lockClear d) s = .next ((s.newNonce.setLocks (f.at 48 8) 0).finish .sec d St.success) := by
  refine (State.secDesc_started hf ha hi hl _).trans ?_
  simp only [hd, ne_eq, not_false_eq_true, if_true]

theorem exec_lockClear_deployed (hf : s.startedAt .sec d Op.lockClear = some f) (ha : s.secAnswers = true)
    (hi : s.inOrder .sec d = true) (hl : s.lifeAllows false = true) (hd : s.rd SEC_STATUS.LIFECYCLE = Life.deployed)
    (hlen : f.len = 256) :
    exec (.lockClear d) s = .next (s.newNonce.secRead d f.src 256 fun t =>
      if s.tokenOk t (f.at 48 8) (s.digestsAt 0x160 0x260) then (s.newNonce.setLocks (f.at 48 8) 0).finish .sec d St.success
      else s.newNonce.tokenRejected d) := by
  refine (State.secDesc_started hf ha hi hl _).trans ?_
  simp only [hd, hlen, ne_eq, not_true, if_false]

theorem UNIT_LOCK_LOCKED_key_inj {u v : UnitId} (h : (UNIT_LOCK.LOCKED (unitBase u)).key = (UNIT_LOCK.LOCKED (unitBase v)).key) :
    u = v := by
  revert h; cases u <;> cases v <;> decide

/-- LOCKED of a unit after the same value is written to that of every unit of a list. -/
theorem State.rd_locked_foldl (us : List UnitId) (v : Nat) : ∀ (s : State) (u : UnitId),
    (us.foldl (fun s u => s.wr (UNIT_LOCK.LOCKED (unitBase u)) v) s).rd (UNIT_LOCK.LOCKED (unitBase u)) =
      if u ∈ us then v % 2 else s.rd (UNIT_LOCK.LOCKED (unitBase u)) := by
  induction us with
  | nil => intro s u; rfl
  | cons x us ih =>
    intro s u
    rw [List.foldl_cons, ih]
    by_cases hm : u ∈ us
    · simp [hm]
    · by_cases hx : u = x
      · subst hx; simp [hm, UNIT_LOCK.LOCKED]
      · have hk : (UNIT_LOCK.LOCKED (unitBase u)).key ≠ (UNIT_LOCK.LOCKED (unitBase x)).key := mt UNIT_LOCK_LOCKED_key_inj hx
        simp [hm, hx, State.rd_wr_ne _ _ hk]

/-- The header of the Tally lies below the registers that recording an event changes. -/
theorem outsideTally_locked (u : UnitId) : outsideTally (UNIT_LOCK.LOCKED (unitBase u)) :=
  ⟨by simp [UNIT_LOCK.LOCKED], by cases u <;> decide⟩

theorem State.rd_setLocks (s : State) {mask v : Nat} {u : UnitId} (hu : u ∈ allUnits)
    (hm : mask.testBit (4 * unitN u + unitK u) = true) (hv : v < 2) :
    (s.setLocks mask v).rd (UNIT_LOCK.LOCKED (unitBase u)) = v := by
  have hin : u ∈ allUnits.filter fun u => mask.testBit (4 * unitN u + unitK u) := List.mem_filter.2 ⟨hu, hm⟩
  simp only [State.setLocks]
  split
  · rw [State.rd_raise _ _ _ _ _ _ _ (outsideTally_locked u), State.rd_locked_foldl, if_pos hin, Nat.mod_eq_of_lt hv]
  · rw [State.rd_locked_foldl, if_pos hin, Nat.mod_eq_of_lt hv]

/-! ## Attestation and certificates (R399) -/

theorem exec_attest_signed {nonce : List Byte} (hf : s.startedAt .sec d Op.attest = some f) (ha : s.secAnswers = true)
    (hi : s.inOrder .sec d = true) (hl : s.lifeAllows true = true) (hlen : f.len = 512) (h1 : 1 ≤ f.at 28 1) (h64 : f.at 28 1 ≤ 64)
    (hn : (s.dmaRead .sec f.src (f.at 28 1) (some d.ring)).toOption = some nonce) :
    exec (.attest d) s = .next (s.secWrite d f.dst (s.quoteBody nonce ++ edSign s.attestKey (s.quoteBody nonce) ++ zeros 54) fun t =>
      t.finish .sec d St.success) := by
  have hc : ¬ (f.len ≠ 512 ∨ f.at 28 1 = 0 ∨ 64 < f.at 28 1) := by omega
  refine (State.secDesc_started hf ha hi hl _).trans ?_
  simp only [hc, State.secRead_ok hn, if_false]

theorem exec_certRead_written (hf : s.startedAt .sec d Op.certRead = some f) (ha : s.secAnswers = true)
    (hi : s.inOrder .sec d = true) (hl : s.lifeAllows false = true) (h3 : f.at 28 1 ≤ 3) :
    exec (.certRead d) s = .next (s.draw.secWrite d f.dst (s.freeBytes f.len) fun t => t.finish .sec d St.success) := by
  refine (State.secDesc_started hf ha hi hl _).trans ?_
  simp only [Nat.not_lt.2 h3, if_false]

/-! ## The lifecycle (R386) -/

section
variable (hf : s.startedAt .sec d Op.lifecycleAdvance = some f) (ha : s.secAnswers = true) (hi : s.inOrder .sec d = true)
  (hl : s.lifeAllows false = true)
include hf ha hi hl

theorem exec_lifecycleAdvance_refused (hs : s.lifeStep (f.at 28 1) = false) :
    exec (.lifecycleAdvance d) s = .next (s.finish .sec d St.lifecycleState) := by
  refine (State.secDesc_started hf ha hi hl _).trans ?_
  simp only [hs, Bool.not_false, if_true]

theorem exec_lifecycleAdvance_accepted (hs : s.lifeStep (f.at 28 1) = true) (hr : f.at 28 1 ≠ Life.rma)
    (hlen : f.len = 0 ∨ f.len = 256) : exec (.lifecycleAdvance d) s = .next (s.lifeAccept d (f.at 28 1) 0) := by
  refine (State.secDesc_started hf ha hi hl _).trans ?_
  simp only [hs, hr, hlen, Bool.not_true, Bool.false_eq_true, ne_eq, not_false_eq_true, if_false, if_true]

theorem exec_lifecycleAdvance_rma (hs : s.lifeStep Life.rma = true) (hr : f.at 28 1 = Life.rma) (hlen : f.len = 256) :
    exec (.lifecycleAdvance d) s = .next (s.secRead d f.src 256 fun t =>
      if s.tokenOk t 0 (s.digestsAt 0x50 0x150) then s.lifeAccept d Life.rma 2 else s.tokenRejected d) := by
  refine (State.secDesc_started hf ha hi hl _).trans ?_
  simp only [hr, hs, hlen, Bool.not_true, Bool.false_eq_true, ne_eq, not_true, if_false]

end

theorem State.lifeStep_deployed (h : s.rd SEC_STATUS.LIFECYCLE = Life.provisioned) : s.lifeStep Life.deployed = true := by
  simp [State.lifeStep, h]

/-! ## Entropy, the DRBG and JTAG (R386, R394) -/

theorem exec_entropyHealthFail_first (h : s.on SEC_RNG_STATUS.FAIL = false) (proportion : Bool) :
    exec (.entropyHealthFail proportion) s = .next (((s.wr SEC_RNG_STATUS.FAIL 1).wr SEC_RNG_STATUS.TEST
      (if proportion then 2 else 1)).raise Ev.entropyFail (some .sec) none [if proportion then 2 else 1]) :=
  if_neg (by rw [h]; decide)

theorem exec_drbgReseed_due (h : 2 ^ 20 ≤ s.sec.drbgCount) :
    exec .drbgReseed s = .next (({ s with sec := { s.sec with drbgCount := 0 } } : State).bump SEC_RNG_STATUS.RESEEDS 1) :=
  if_neg (Nat.not_lt.2 h)

/-- Whether the TAP executes an instruction: any while debug is open, boundary scan and the like always. -/
def State.tapRuns (s : State) : TapInsn → Bool
  | .other _ => s.on SEC_STATUS.DEBUG_OPEN
  | _ => true

theorem exec_jtagInstruction (x : TapInsn) :
    exec (.jtagInstruction x) s = .next { s with sec := { s.sec with tap := some (x, s.tapRuns x) } } := by
  cases x <;> rfl

end

/-- Settles O24: each clause is the equation of its command under the clause's hypotheses; what the locks read afterwards is the law
of a write to each unit of a list. -/
theorem islandLocksAttestationLifecycle : Obligations.IslandLocksAttestationLifecycle := by
  unfold Obligations.IslandLocksAttestationLifecycle
  refine ⟨?lockSet, ?clearOpen, ?clearDeployed, ?locks, ?attest, ?cert, ?deployed, ?accepted, ?rma, ?refused, ?entropy, ?reseed,
    ?jtagClosed, ?jtagOpen, ?jtag, ?bypass⟩
  case lockSet =>
    intro s d f
    exact exec_lockSet_done
  case clearOpen =>
    intro s d f
    exact exec_lockClear_open
  case clearDeployed =>
    intro s d f
    exact exec_lockClear_deployed
  case locks =>
    intro s mask v u
    exact s.rd_setLocks
  case attest =>
    intro s d f nonce
    exact exec_attest_signed
  case cert =>
    intro s d f
    exact exec_certRead_written
  case deployed =>
    intro s d f hf ha hi hl hp hd hlen
    have hr : f.at 28 1 ≠ Life.rma := by rw [hd]; decide
    rw [exec_lifecycleAdvance_accepted hf ha hi hl (by rw [hd]; exact State.lifeStep_deployed hp) hr hlen, hd]
  case accepted =>
    intro s d f
    exact exec_lifecycleAdvance_accepted
  case rma =>
    intro s d f
    exact exec_lifecycleAdvance_rma
  case refused =>
    intro s d f
    exact exec_lifecycleAdvance_refused
  case entropy =>
    intro s proportion h
    exact exec_entropyHealthFail_first h proportion
  case reseed =>
    rintro s q h rfl
    exact exec_drbgReseed_due h
  case jtagClosed =>
    rintro s v q h rfl
    rw [exec_jtagInstruction, State.tapRuns, h]
  case jtagOpen =>
    rintro s v q h rfl
    rw [exec_jtagInstruction, State.tapRuns, h]
  case jtag =>
    rintro s x ok q rfl rfl
    exact exec_jtagInstruction x
  case bypass =>
    rintro s q rfl
    exact exec_jtagInstruction .bypass

end Sys2Proof.Machine
end

section
/-! Ring jobs of the Veneer and the audit journal (R402, R406 to R408, R411 to R413): one equation for each command, then the law of
a staged SEAL. -/
namespace Sys2Proof.Machine
open Sys2Proof

section
variable {s : State} {d : DescRef} {f : Fetched}

/-! ## ENCRYPT and DECRYPT (R402, R406) -/

section
variable {op : Nat} (hf : s.startedAt .ven d op = some f) (hc : venCheck f = none) (hl : takesLane s.venTurn (.desc d) = true)
include hf hc hl

theorem State.venJob_cached {key : List Byte} {t : State} (hk : s.cached f.tenant = some (key, t)) (enc : Bool) :
    s.venJob d op enc = t.venRun d f enc key := by
  simp only [State.venJob, hf, hc, hl, hk, Bool.not_true, Bool.false_eq_true, if_false]

theorem State.venJob_missed (hk : s.cached f.tenant = none) (enc : Bool) :
    s.venJob d op enc = match s.keyMiss f.tenant (.desc d) with
      | .error e => (s.noteTable .ven (s.keyEntryAddr f.tenant) 128).finish .ven d e
      | .ok t => t := by
  simp only [State.venJob, hf, hc, hl, hk, Bool.not_true, Bool.false_eq_true, if_false] <;> rfl

end

theorem exec_keyEvict_dropped (hf : s.startedAt .ven d Op.keyEvict = some f) :
    exec (.keyEvict d) s = .next ((s.evictKey f.tenant).finish .ven d St.success) := by
  change execKeyEvict d s = _
  simp only [execKeyEvict, hf]

/-! ## Lane faults (R407) -/

theorem exec_venLaneFault_desc {lane : Fin 16} (hf : (s.venLaneFault lane).fetchedAt .ven d = some f) (hp : f.phase ≠ .fetched) :
    exec (.venLaneFault lane (.desc d)) s = .next ((s.venLaneFault lane).finish .ven d St.unitFault) := by
  change execVenLaneFault lane (.desc d) s = _
  simp only [execVenLaneFault, hf, hp, if_false]

/-! ## Entries of the journal (R408, R413) -/

section
variable {e : AudEntry} {rest : List AudEntry} (hs : s.aud.staged = e :: rest) (hr : s.audRingOk = true)
include hs hr

/-- The journal after its oldest staged entry was written as `bs`: the chain goes on from the entry's digest, and an anchor that was
due for it is kept. -/
def Audit.written (a : Audit) (e : AudEntry) (rest : List AudEntry) (bs : List Byte) : Audit :=
  { a with staged := rest, prev := audDigest bs, fullSeen := false,
           anchor := if a.anchorDue.contains e.seq then some (e.seq, audDigest bs) else a.anchor,
           anchorDue := a.anchorDue.filter (· != e.seq) }

omit hs hr in
theorem Audit.written_noAnchor {a : Audit} (h : a.anchorDue = []) (e : AudEntry) (rest : List AudEntry) (bs : List Byte) :
    a.written e rest bs = { a with staged := rest, prev := audDigest bs, fullSeen := false } := by
  simp [Audit.written, h]

theorem exec_auditEntryWrite_written {t v : State} (h16 : 16 ≤ s.audFree)
    (hw : s.dmaWrite .aud (s.rd AUD_RING.BASE * 4096 + s.rd AUD_IDX.PROD * 256) (e.bytes s.auditKey s.aud.prev) = .ok t)
    (hv : v = if t.aud.anchorDue.contains e.seq && (t.aud.anchorDue.filter (· != e.seq)).isEmpty then
        (t.setAud (t.aud.written e rest (e.bytes s.auditKey s.aud.prev))).wr SEC_CTL.SHUTDOWN 0
      else t.setAud (t.aud.written e rest (e.bytes s.auditKey s.aud.prev))) :
    exec .auditEntryWrite s =
      .next ((v.wr AUD_STATUS.STAGED rest.length).wr AUD_IDX.PROD ((s.rd AUD_IDX.PROD + 1) % v.audSize)) := by
  subst hv
  change execAuditEntryWrite s = _
  simp only [execAuditEntryWrite, hs, hr, Nat.not_lt.2 h16, hw, Bool.not_true, Bool.false_eq_true, if_false]
  rfl

theorem exec_auditEntryWrite_short (h16 : s.audFree < 16) (hseen : s.aud.fullSeen = false) :
    exec .auditEntryWrite s = .next ((s.setAud { s.aud with fullSeen := true }).raise Ev.auditFull (some .aud)) := by
  change execAuditEntryWrite s = _
  simp only [execAuditEntryWrite, hs, hr, h16, hseen, Bool.not_true, Bool.false_eq_true, if_false, if_true]

end

/-! ## Seals (R411, R412) -/

theorem exec_auditSealPeriod_due (hd : s.due s.aud.sealDue = true) (hr : s.auditRoom = true) :
    exec .auditSealPeriod s = .next (s.seal false) :=
  if_pos (by rw [hd, hr]; rfl)

theorem exec_auditSealCount_due (hd : s.rd AUD_SEAL_CFG.ENTRIES ≤ s.aud.sinceSeal) (hr : s.auditRoom = true) :
    exec .auditSealCount s = .next (s.seal false) :=
  if_pos ⟨hd, hr⟩

/-- A SEAL is one more staged entry; the next seal covers the entries after it. -/
theorem State.seal_aud (s : State) (anchor : Bool) : (s.seal anchor).aud.nextSeq = s.aud.nextSeq + 1 ∧
    (s.seal anchor).aud.firstSeq = s.aud.nextSeq + 1 ∧ (s.seal anchor).aud.sinceSeal = 0 ∧
    (s.seal anchor).aud.staged.length = s.aud.staged.length + 1 ∧ (s.seal anchor).mem = s.mem :=
  ⟨rfl, rfl, rfl, List.length_append, rfl⟩

/-- Below 64 seals since the last anchor a seal is no anchor, and is counted. -/
theorem State.seal_counted (h : s.aud.sealsSince < 63) : (s.seal false).aud.sealsSince = s.aud.sealsSince + 1 := by
  have hn : (false || decide (63 ≤ s.aud.sealsSince)) = false := by simpa using h
  change (if (false || decide (63 ≤ s.aud.sealsSince)) = true then 0 else s.aud.sealsSince + 1) = _
  rw [hn, if_neg Bool.false_ne_true]

/-- A write that is journaled although its register is no configuration register: one from JTAG in PROVISIONED (R387). -/
theorem State.plainField_audited {u : UnitId} {o : Origin} (ht : s.originThere o.toNat = true) (ha : s.audited false o.toNat = true)
    (hr : s.auditRoom = true) (g : Fld) (v : Nat) (eff : State → State) :
    s.plainField u o g v eff = s.journaled (eff s) o g v := by
  simp only [State.plainField, State.regWrite, ht, ha, hr, Bool.not_true, Bool.false_and, Bool.false_eq_true, if_false]
  rfl

theorem exec_auditShutdown_first (hs : s.on SEC_CTL.SHUTDOWN = false) (hr : s.auditRoom = true) (origin : Origin) :
    exec (.auditShutdown origin) s =
      .next (s.plainField .sec origin SEC_CTL.SHUTDOWN 1 fun s => (s.wr SEC_CTL.SHUTDOWN 1).seal true) :=
  if_neg (by rw [hs, hr]; decide)

end

/-- Settles O25: each clause is the equation of its command under the clause's hypotheses. The two clauses of AUDIT_ENTRY_WRITE with
room are one equation, without and with anchors due. -/
theorem veneerJobsAndTheAuditJournal : Obligations.VeneerJobsAndTheAuditJournal := by
  unfold Obligations.VeneerJobsAndTheAuditJournal
  refine ⟨?encrypt, ?encryptMiss, ?decrypt, ?decryptMiss, ?evict, ?laneIdle, ?laneInline, ?laneDesc, ?entry, ?entryAnchor, ?short,
    ?sealPeriod, ?sealCount, ?sealed, ?shutdown, ?shutdownJtag⟩
  case encrypt =>
    intro s d f key t hf hc hl hk
    exact congrArg Host.Outcome.next (State.venJob_cached hf hc hl hk true)
  case encryptMiss =>
    intro s d f hf hc hl hk
    exact congrArg Host.Outcome.next (State.venJob_missed hf hc hl hk true)
  case decrypt =>
    intro s d f key t hf hc hl hk
    exact congrArg Host.Outcome.next (State.venJob_cached hf hc hl hk false)
  case decryptMiss =>
    intro s d f hf hc hl hk
    exact congrArg Host.Outcome.next (State.venJob_missed hf hc hl hk false)
  case evict =>
    intro s d f
    exact exec_keyEvict_dropped
  case laneIdle =>
    intro s lane
    rfl
  case laneInline =>
    intro s lane k
    rfl
  case laneDesc =>
    intro s lane d f
    exact exec_venLaneFault_desc
  case entry =>
    rintro s e rest bs q hs hr h16 ha rfl rfl hw
    obtain ⟨t, ht⟩ := Option.isSome_iff_exists.1 hw
    have ht := eq_ok_of_toOption ht
    obtain ⟨ps, -, hst, -⟩ := State.dmaWrite_ok ht
    have haud : t.aud = s.aud := by rw [hst]
    have hsize : ∀ q, (t.setAud q).audSize = s.audSize := fun q => by rw [hst]; rfl
    refine ⟨t, ht, ?_⟩
    rw [exec_auditEntryWrite_written hs hr h16 ht rfl, haud, ha, Audit.written_noAnchor ha]
    exact congrArg (fun n => Host.Outcome.next (State.wr _ _ (_ % n))) (hsize _)
  case entryAnchor =>
    rintro s e rest bs t v q hs hr h16 rfl hw rfl hv
    exact exec_auditEntryWrite_written hs hr h16 (eq_ok_of_toOption hw) hv
  case short =>
    rintro s e rest q hs hr h16 hseen rfl
    exact exec_auditEntryWrite_short hs hr h16 hseen
  case sealPeriod =>
    intro s
    exact exec_auditSealPeriod_due
  case sealCount =>
    intro s
    exact exec_auditSealCount_due
  case sealed =>
    rintro s t hr rfl hs
    obtain ⟨hnext, hfirst, hsince, hstaged, hmem⟩ := s.seal_aud false
    exact ⟨hnext, hfirst, hsince, State.seal_counted hs, hstaged, hmem⟩
  case shutdown =>
    intro s origin hs hr ht ha
    rw [exec_auditShutdown_first hs hr, State.plainField_unaudited ht ha]
  case shutdownJtag =>
    intro s origin hs hr ht ha
    rw [exec_auditShutdown_first hs hr, State.plainField_audited ht ha hr]

end Sys2Proof.Machine
end

section
/-! The Drawer (R496, R498 to R500, R502): one equation for each way its descriptors end, what an appended record leaves, and what a
scan restores. -/
namespace Sys2Proof.Machine
open Sys2Proof

/-! ## The record appended (R498, R499) -/

theorem State.setActiveHalf_ret (s : State) (h : Half) : (s.setActiveHalf h).drw.ret = s.drw.ret := by
  simp only [State.setActiveHalf]
  split <;> rfl

theorem State.activeHalf_setActiveHalf (s : State) (h : Half) : (s.setActiveHalf h).activeHalf = h := by
  simp only [State.setActiveHalf]
  split
  · rename_i hh
    exact if_pos hh
  · rename_i hh
    exact if_neg hh

theorem State.drwCompact_ret (s : State) : s.drwCompact.drw.ret = s.drw.ret := by
  simp only [State.drwCompact, State.raise_drw, State.setActiveHalf_ret, State.wr_drw]

theorem State.drwAppend_ret (s : State) (r : GroupRec) : (s.drwAppend r).drw.ret = s.drw.ret := by
  simp only [State.drwAppend, State.setActiveHalf_ret]
  split
  · exact s.drwCompact_ret
  · rfl

theorem State.drwAppend_last (s : State) (r : GroupRec) : (s.drwAppend r).activeHalf.recs.getLast? = some r := by
  simp only [State.drwAppend, State.activeHalf_setActiveHalf, List.getLast?_append, List.getLast?_singleton, Option.some_or]

/-- A record without data takes the least that NOR programs. -/
theorem GroupRec.norSize_noData {r : GroupRec} (h : r.data = []) : r.norSize = 256 := by
  simp [GroupRec.norSize, h, alignUp]

/-- A whole half with room takes the record without a compaction. -/
theorem State.drwAppend_room {s : State} {r : GroupRec} (ht : s.on DRW_STATUS.TORN = false)
    (hu : s.activeHalf.used + r.norSize ≤ drwHalfSize) :
    s.drwAppend r = s.setActiveHalf { s.activeHalf with valid := true, recs := s.activeHalf.recs ++ [r] } := by
  simp only [State.drwAppend, ht, Nat.not_lt.2 hu, decide_false, Bool.or_self, Bool.false_eq_true, if_false]

section
variable {s : State} {d : DescRef} {f : Fetched}

/-! ## GROUP_WRITE (R496, R499, R502) -/

section
variable (hf : s.startedAt .drw d Op.groupWrite = some f)
include hf

theorem exec_groupWrite_range (ha : groupAllowed f.origin (f.at 28 2) = false) (norOk : Bool) :
    exec (.groupWrite d norOk) s = .next (s.finish .drw d St.drwGroupRange) := by
  change execGroupWrite d norOk s = _
  simp only [execGroupWrite, hf, ha, Bool.not_false, if_true]

variable (ha : groupAllowed f.origin (f.at 28 2) = true)
include ha

theorem exec_groupWrite_tooLong (hlen : 65536 < f.len) (norOk : Bool) :
    exec (.groupWrite d norOk) s = .next (s.finish .drw d St.drwTooLong) := by
  change execGroupWrite d norOk s = _
  simp only [execGroupWrite, hf, ha, hlen, Bool.not_true, Bool.false_eq_true, if_false, if_true]

variable (hlen : f.len ≤ 65536)
include hlen

theorem exec_groupWrite_noSpace (hsp : drwLimit < retUsed (Tab.del s.drw.ret (f.at 28 2)) + f.len + 64) (norOk : Bool) :
    exec (.groupWrite d norOk) s = .next (s.finish .drw d St.drwSpace) := by
  change execGroupWrite d norOk s = _
  simp only [execGroupWrite, hf, ha, Nat.not_lt.2 hlen, hsp, Bool.not_true, Bool.false_eq_true, if_false, if_true]

theorem exec_groupWrite_read {bs : List Byte} (hsp : retUsed (Tab.del s.drw.ret (f.at 28 2)) + f.len + 64 ≤ drwLimit)
    (hb : (s.dmaRead .drw f.src f.len (some d.ring)).toOption = some bs) (norOk : Bool) :
    exec (.groupWrite d norOk) s = .next (if norOk then
        (s.keepGroup (f.at 28 2) (f.at 30 2) bs).finish .drw d St.success 0 (s.activeHalf.nextGen (f.at 28 2))
      else (s.raise Ev.drwNorFail (some .drw)).finish .drw d St.drwNorFail) := by
  change execGroupWrite d norOk s = _
  simp only [execGroupWrite, hf, ha, Nat.not_lt.2 hlen, Nat.not_lt.2 hsp, eq_ok_of_toOption hb, Bool.not_true,
    Bool.false_eq_true, if_false]
  cases norOk <;> rfl

end

/-! ## GROUP_READ (R502) -/

section
variable (hf : s.startedAt .drw d Op.groupRead = some f)
include hf

theorem exec_groupRead_range (ha : groupAllowed f.origin (f.at 28 2) = false) :
    exec (.groupRead d) s = .next (s.finish .drw d St.drwGroupRange) := by
  change execGroupRead d s = _
  simp only [execGroupRead, hf, ha, Bool.not_false, if_true]

variable (ha : groupAllowed f.origin (f.at 28 2) = true)
include ha

theorem exec_groupRead_absent (hg : Tab.get? s.drw.ret (f.at 28 2) = none) :
    exec (.groupRead d) s = .next (s.finish .drw d St.drwAbsent) := by
  change execGroupRead d s = _
  simp only [execGroupRead, hf, ha, hg, Bool.not_true, Bool.false_eq_true, if_false]

variable {r : GroupRec} (hg : Tab.get? s.drw.ret (f.at 28 2) = some r)
include hg

theorem exec_groupRead_small (hlen : f.len < r.data.length) :
    exec (.groupRead d) s = .next (s.finish .drw d St.lengthMismatch) := by
  change execGroupRead d s = _
  simp only [execGroupRead, hf, ha, hg, hlen, Bool.not_true, Bool.false_eq_true, if_false, if_true]

theorem exec_groupRead_written {t : State} (hlen : r.data.length ≤ f.len)
    (hw : (s.dmaWrite .drw f.dst r.data (some d.ring)).toOption = some t) :
    exec (.groupRead d) s = .next (t.finish .drw d St.success r.format (r.data.length + r.gen * 2 ^ 32)) := by
  change execGroupRead d s = _
  simp only [execGroupRead, hf, ha, hg, Nat.not_lt.2 hlen, eq_ok_of_toOption hw, Bool.not_true, Bool.false_eq_true, if_false]

end

/-! ## GROUP_DELETE (R498, R502) -/

section
variable (hf : s.startedAt .drw d Op.groupDelete = some f)
include hf

theorem exec_groupDelete_range (ha : groupAllowed f.origin (f.at 28 2) = false) (norOk : Bool) :
    exec (.groupDelete d norOk) s = .next (s.finish .drw d St.drwGroupRange) := by
  change execGroupDelete d norOk s = _
  simp only [execGroupDelete, hf, ha, Bool.not_false, if_true]

variable (ha : groupAllowed f.origin (f.at 28 2) = true)
include ha

theorem exec_groupDelete_absent (hg : Tab.get? s.drw.ret (f.at 28 2) = none) (norOk : Bool) :
    exec (.groupDelete d norOk) s = .next (s.finish .drw d St.drwAbsent) := by
  change execGroupDelete d norOk s = _
  simp only [execGroupDelete, hf, ha, hg, Bool.not_true, Bool.false_eq_true, if_false]

/-- The group leaves the retention SRAM. -/
def State.drwForget (s : State) (g : Nat) : State := { s with drw := { s.drw with ret := Tab.del s.drw.ret g } }

theorem exec_groupDelete_present {r : GroupRec} (hg : Tab.get? s.drw.ret (f.at 28 2) = some r) (norOk : Bool) :
    exec (.groupDelete d norOk) s = .next (if norOk then
        ((s.drwForget (f.at 28 2)).drwAppend
          { r with gen := s.activeHalf.nextGen (f.at 28 2), data := [], tomb := true }).drwCounts.finish .drw d St.success
      else (s.raise Ev.drwNorFail (some .drw)).finish .drw d St.drwNorFail) := by
  change execGroupDelete d norOk s = _
  simp only [execGroupDelete, hf, ha, hg, Bool.not_true, Bool.false_eq_true, if_false]
  cases norOk <;> rfl

end

end

/-! ## What a scan restores (R500) -/

/-- One record of the scan: it takes the place of an earlier one of its group unless that has the higher GEN. -/
def keepLatest (t : Tab GroupRec) (r : GroupRec) : Tab GroupRec :=
  match Tab.get? t r.group with
  | some o => if o.gen ≤ r.gen then Tab.set t r.group r else t
  | none => Tab.set t r.group r

theorem keepLatest_cases (t : Tab GroupRec) (r : GroupRec) :
    (keepLatest t r = Tab.set t r.group r ∧ ∀ o, Tab.get? t r.group = some o → o.gen ≤ r.gen) ∨
      (keepLatest t r = t ∧ ∃ o, Tab.get? t r.group = some o ∧ r.gen ≤ o.gen) := by
  cases ho : Tab.get? t r.group with
  | none => exact .inl ⟨by simp only [keepLatest, ho], by simp⟩
  | some o =>
    by_cases hle : o.gen ≤ r.gen
    · exact .inl ⟨by simp only [keepLatest, ho, hle, if_true], by rintro _ ⟨⟩; exact hle⟩
    · exact .inr ⟨by simp only [keepLatest, ho, hle, if_false], o, rfl, by omega⟩

/-- A table that lists, of each group, a record of `rs` whose GEN none of the group's records exceeds. -/
structure ListsLatest (rs : List GroupRec) (t : Tab GroupRec) : Prop where
  sorted : Tab.sorted t = true
  listed : ∀ g r, Tab.get? t g = some r → r ∈ rs ∧ r.group = g
  latest : ∀ x ∈ rs, ∃ r, Tab.get? t x.group = some r ∧ x.gen ≤ r.gen

theorem ListsLatest.keepLatest {rs : List GroupRec} {t : Tab GroupRec} (h : ListsLatest rs t) (r : GroupRec) :
    ListsLatest (rs ++ [r]) (keepLatest t r) := by
  rcases keepLatest_cases t r with ⟨hk, hle⟩ | ⟨hk, o, ho, hlt⟩ <;> rw [hk]
  case inl =>
    refine ⟨Tab.sorted_set t _ _ h.sorted, fun g x hx => ?_, fun x hx => ?_⟩
    · by_cases hg : g = r.group
      · subst hg
        obtain rfl : r = x := by simpa using hx
        exact ⟨by simp, rfl⟩
      · rw [Tab.get?_set_ne t r hg] at hx
        exact ⟨List.mem_append_left _ (h.listed g x hx).1, (h.listed g x hx).2⟩
    · by_cases hg : x.group = r.group
      · refine ⟨r, by rw [hg, Tab.get?_set_self], ?_⟩
        rcases List.mem_append.1 hx with hx | hx
        · obtain ⟨o, ho, hgen⟩ := h.latest x hx
          exact hgen.trans (hle o (hg ▸ ho))
        · rw [List.mem_singleton.1 hx]
      · rcases List.mem_append.1 hx with hx | hx
        · rw [Tab.get?_set_ne t r hg]
          exact h.latest x hx
        · exact absurd (congrArg GroupRec.group (List.mem_singleton.1 hx)) hg
  case inr =>
    refine ⟨h.sorted, fun g x hx => ⟨List.mem_append_left _ (h.listed g x hx).1, (h.listed g x hx).2⟩, fun x hx => ?_⟩
    rcases List.mem_append.1 hx with hx | hx
    · exact h.latest x hx
    · rw [List.mem_singleton.1 hx]
      exact ⟨o, ho, hlt⟩

theorem listsLatest_foldl (rs : List GroupRec) : ∀ (pre : List GroupRec) (t : Tab GroupRec), ListsLatest pre t →
    ListsLatest (pre ++ rs) (rs.foldl keepLatest t) := by
  induction rs with
  | nil => intro pre t h; simpa using h
  | cons r rs ih =>
    intro pre t h
    have := ih _ _ (h.keepLatest r)
    rwa [List.append_assoc] at this

/-- What a filtered table lists, the table lists, and it passes the filter. -/
theorem Tab.get?_keep_some {α : Type} (p : Nat → α → Bool) (k : Nat) (v : α) : ∀ t : Tab α, Tab.sorted t = true →
    Tab.get? (Tab.keep t p) k = some v → Tab.get? t k = some v ∧ p k v = true
  | [], _, h => by simp [Tab.keep, Tab.get?] at h
  | (j, w) :: t, hs, h => by
    obtain ⟨hlt, hs⟩ := (Tab.sorted_cons j w t).1 hs
    simp only [Tab.keep, List.filter_cons] at h
    by_cases hk : k = j
    · subst hk
      split at h
      · rename_i hp
        obtain rfl : w = v := by simpa [Tab.get?] using h
        exact ⟨by simp [Tab.get?], hp⟩
      · rw [Tab.get?_none_of_lt _ _ fun e he => hlt e (List.mem_filter.1 he).1] at h
        cases h
    · have hrest : Tab.get? (Tab.keep t p) k = some v := by
        split at h
        · simpa [Tab.get?, hk, Tab.keep] using h
        · exact h
      simpa [Tab.get?, hk] using Tab.get?_keep_some p k v t hs hrest

/-- A scan restores a group from its latest sound record before the first bad header, where that is no tombstone. -/
theorem Half.groups_some {h : Half} {g : Nat} {r : GroupRec} (hg : Tab.get? h.groups g = some r) :
    r ∈ h.scanned ∧ r.group = g ∧ r.dataOk = true ∧ r.tomb = false ∧
      ∀ x ∈ h.scanned, x.group = g → x.dataOk = true → x.gen ≤ r.gen := by
  have hl := listsLatest_foldl (h.scanned.filter (·.dataOk)) [] [] ⟨rfl, by simp [Tab.get?], by simp⟩
  have hg : Tab.get? (Tab.keep ((h.scanned.filter (·.dataOk)).foldl keepLatest []) fun _ r => !r.tomb) g = some r := hg
  obtain ⟨hbest, htomb⟩ := Tab.get?_keep_some _ g r _ hl.sorted hg
  obtain ⟨hm, hgroup⟩ := hl.listed g r hbest
  obtain ⟨hm, hok⟩ := List.mem_filter.1 hm
  refine ⟨hm, hgroup, hok, by simpa using htomb, fun x hx hxg hxo => ?_⟩
  obtain ⟨o, ho, hle⟩ := hl.latest x (List.mem_filter.2 ⟨hx, hxo⟩)
  rw [hxg, hbest] at ho
  cases ho
  exact hle

/-- Settles O47: each clause is the equation of its command under the clause's hypotheses; the last one is what the fold of a scan
keeps of each group. -/
theorem drawerDescriptors : Obligations.DrawerDescriptors := by
  unfold Obligations.DrawerDescriptors
  refine ⟨?writeRange, ?readRange, ?deleteRange, ?tooLong, ?space, ?writeFails, ?write, ?written, ?readAbsent, ?readSmall, ?read,
    ?deleteAbsent, ?deleteFails, ?delete, ?deleted, ?scan⟩
  case writeRange =>
    intro s d f hf ha
    exact exec_groupWrite_range hf ha true
  case readRange =>
    intro s d f
    exact exec_groupRead_range
  case deleteRange =>
    intro s d f hf ha
    exact exec_groupDelete_range hf ha true
  case tooLong =>
    intro s d f norOk hf ha hlen
    exact exec_groupWrite_tooLong hf ha hlen norOk
  case space =>
    intro s d f norOk hf ha hlen hsp
    exact exec_groupWrite_noSpace hf ha hlen hsp norOk
  case writeFails =>
    intro s d f hf ha hlen hsp hb
    obtain ⟨bs, hb⟩ := Option.isSome_iff_exists.1 hb
    exact ⟨exec_groupWrite_read hf ha hlen hsp hb false, State.raise_drw ..⟩
  case write =>
    intro s d f bs hf ha hlen hsp hb
    exact exec_groupWrite_read hf ha hlen hsp hb true
  case written =>
    rintro s d f bs r u hf ha hlen hsp hb rfl rfl
    exact ⟨exec_groupWrite_read hf ha hlen hsp hb true, State.drwAppend_last .., State.drwAppend_ret ..⟩
  case readAbsent =>
    intro s d f
    exact exec_groupRead_absent
  case readSmall =>
    intro s d f r hf ha hg
    exact exec_groupRead_small hf ha hg
  case read =>
    intro s d f r t hf ha hg
    exact exec_groupRead_written hf ha hg
  case deleteAbsent =>
    intro s d f norOk hf ha hg
    exact exec_groupDelete_absent hf ha hg norOk
  case deleteFails =>
    intro s d f r hf ha hg
    exact exec_groupDelete_present hf ha hg false
  case delete =>
    rintro s d f r u hf ha hg rfl
    exact exec_groupDelete_present hf ha hg true
  case deleted =>
    rintro s d f r u hf ha hg ht hu rfl
    refine (exec_groupDelete_present hf ha hg true).trans ?_
    rw [if_pos rfl, State.drwAppend_room (s := s.drwForget (f.at 28 2)) ht (by rwa [GroupRec.norSize_noData rfl])]
    rfl
  case scan =>
    intro h g r hg
    obtain ⟨hm, hgroup, hok, htomb, hlatest⟩ := Half.groups_some hg
    exact ⟨hm, hgroup, hok, List.mem_takeWhile_imp hm, htomb, hlatest⟩

end Sys2Proof.Machine
end

section
/-! The Tally beyond recording (R475, R476, R478, R479): one equation for each of its commands, the layout of an entry, and what
clearing the counts leaves. -/
namespace Sys2Proof.Machine
open Sys2Proof

section
variable {s : State}

/-! ## Spilling (R478) -/

theorem exec_tallySpill_gone {slot : Nat} {rest : List Nat} (hd : s.tally.due = slot :: rest)
    (hs : s.on TAL_RING.SPILL_EN = true) (hr : s.spillRoom = true) (hb : Tab.get? s.tally.buf slot = none) :
    exec .tallySpill s = .next { s with tally := { s.tally with due := rest } } := by
  change execTallySpill s = _
  simp only [execTallySpill, hd, hs, hr, Bool.not_true, Bool.or_self, Bool.false_eq_true, if_false, hb]

theorem exec_tallySpill_waits (h : s.tally.due = [] ∨ s.on TAL_RING.SPILL_EN = false ∨ s.spillRoom = false) :
    exec .tallySpill s = .next s := by
  change execTallySpill s = _
  simp only [execTallySpill]
  split
  next => rfl
  next slot rest hd =>
    have hstop : (!s.on TAL_RING.SPILL_EN || !s.spillRoom) = true := by
      rcases h with h | h | h <;> simp_all
    rw [if_pos hstop]

/-! ## The layout of an entry (R474) -/

@[simp] theorem length_leBytes (n v : Nat) : (leBytes n v).length = n := by
  induction n generalizing v with
  | zero => rfl
  | succ n ih => rw [leBytes, List.length_cons, ih]

theorem length_flatMap_leBytes (n k : Nat) (f : Nat → Nat) :
    ((List.range n).flatMap fun i => leBytes k (f i)).length = n * k := by
  simp [List.length_flatMap]

/-- The bytes of an entry up to its CRC32C. -/
def TallyEntry.body (e : TallyEntry) : List Byte :=
  leBytes 2 e.code ++ leBytes 1 e.values.length ++ leBytes 1 e.flags ++ leBytes 2 e.origin ++ leBytes 2 e.supp ++ leBytes 8 e.seq ++
    leBytes 8 e.time ++ (List.range 4).flatMap (fun i => leBytes 8 (e.args.getD i 0)) ++
    (List.range 16).flatMap (fun i => leBytes 8 (e.values.getD i 0)) ++
    (List.range 16).flatMap (fun i => leBytes 4 (e.ids.getD i 0)) ++ zeros 4

theorem TallyEntry.bytes_eq (e : TallyEntry) : e.bytes = e.body ++ leBytes 4 (crc32c e.body) := rfl

theorem TallyEntry.length_body (e : TallyEntry) : e.body.length = 252 := by
  simp only [TallyEntry.body, List.length_append, length_leBytes, length_flatMap_leBytes, zeros, List.length_replicate]

theorem TallyEntry.take_body (e : TallyEntry) : e.body.take 2 = leBytes 2 e.code := by
  simp only [TallyEntry.body, List.append_assoc]
  exact List.take_left' (length_leBytes 2 _)

/-! ## EVENT_OUT (R479) -/

theorem exec_triggerPulseEnd_falls (h : s.due s.tally.pulseEnd = true) : exec .triggerPulseEnd s = .next { s with
    tally := { s.tally with pulseEnd := none, lowEnd := some (s.now + 1600) }, pins := { s.pins with eventOut := false } } :=
  if_pos h

theorem exec_triggerPulseEnd_low (hp : s.due s.tally.pulseEnd = false) (hl : s.due s.tally.lowEnd = true) :
    exec .triggerPulseEnd s = if s.tally.merged = 0 then .next { s with tally := { s.tally with lowEnd := none } }
      else .next (({ s with
        tally := { s.tally with lowEnd := none, merged := 0, pulseEnd := some (s.now + 1600) },
        pins := { s.pins with eventOut := true } } : State).wired 3) := by
  change execTriggerPulseEnd s = _
  simp only [execTriggerPulseEnd, hp, hl, Bool.false_eq_true, if_false, if_true]

theorem exec_triggerPulseEnd_waits (hp : s.due s.tally.pulseEnd = false) (hl : s.due s.tally.lowEnd = false) :
    exec .triggerPulseEnd s = .next s := by
  change execTriggerPulseEnd s = _
  simp only [execTriggerPulseEnd, hp, hl, Bool.false_eq_true, if_false]

theorem State.leaseLossIndication_on (s : State) (h : s.on TAL_OUT_CFG.LEASE_EN = true) :
    s.leaseLossIndication = { s.bump TAL_STATUS.TRIG_SUPP s.tally.merged with
      tally := { s.tally with
        lossUntil := some (s.inMgmt ((s.bump TAL_STATUS.TRIG_SUPP s.tally.merged).rd TAL_OUT_CFG.LOSS_HOLD)), pulseEnd := none,
        lowEnd := none, merged := 0 },
      pins := { s.pins with eventOut := true } } := by
  simp only [State.leaseLossIndication, h, Bool.not_true, Bool.false_eq_true, if_false]
  rfl

theorem exec_lossHoldExpiry_due (h : s.due s.tally.lossUntil = true) : exec .lossHoldExpiry s = .next { s with
    tally := { s.tally with lossUntil := none, lowEnd := some (s.now + 1600) }, pins := { s.pins with eventOut := false } } :=
  if_pos h

end

/-! ## The counts cleared (R476) -/

/-- What a table keeps by its keys alone reads as before; the rest is gone. -/
theorem Tab.get?_keep_key {α : Type} (p : Nat → Bool) (k : Nat) : ∀ t : Tab α,
    Tab.get? (Tab.keep t fun j _ => p j) k = if p k then Tab.get? t k else none
  | [] => by simp [Tab.keep, Tab.get?]
  | (j, v) :: t => by
    have ih := Tab.get?_keep_key p k t
    simp only [Tab.keep] at ih ⊢
    by_cases hk : k = j
    · subst hk
      cases hp : p k <;> simp_all [Tab.get?]
    · cases hp : p j <;> simp_all [Tab.get?]

/-- The state TALLY_CLEAR_COUNTS leaves. -/
def State.countsCleared (s : State) : State :=
  { s with csr := Tab.keep s.csr fun k _ => k < 0xF614000 * 64 || 0xF61C000 * 64 ≤ k }

theorem State.rd_countsCleared (s : State) (f : Fld) :
    s.countsCleared.rd f = if (f.key < 0xF614000 * 64 || 0xF61C000 * 64 ≤ f.key) = true then s.rd f else f.reset := by
  simp only [State.rd, Tab.getD]
  rw [State.countsCleared, Tab.get?_keep_key (fun k => k < 0xF614000 * 64 || 0xF61C000 * 64 ≤ k)]
  split <;> rfl

theorem State.rd_countsCleared_other (s : State) {f : Fld} (hlo : f.lo < 64) (h : f.reg < 0xF614000 ∨ 0xF61C000 ≤ f.reg) :
    s.countsCleared.rd f = s.rd f := by
  rw [State.rd_countsCleared, if_pos]
  rw [Bool.or_eq_true, Fld.key]
  exact h.imp (fun h => decide_eq_true (by omega)) fun h => decide_eq_true (by omega)

theorem State.rd_countsCleared_count (s : State) {f : Fld} (hlo : f.lo < 64) (h : 0xF614000 ≤ f.reg) (h' : f.reg < 0xF61C000) :
    s.countsCleared.rd f = f.reset := by
  rw [State.rd_countsCleared, if_neg]
  rw [Bool.or_eq_true, Fld.key, not_or]
  exact ⟨fun h => by have := of_decide_eq_true h; omega, fun h => by have := of_decide_eq_true h; omega⟩

/-- Settles O45: the equation of each command; a clause about what it leaves reads that off the equation's state. -/
theorem tallySpillsRefillsAndIndicates : Obligations.TallySpillsRefillsAndIndicates := by
  unfold Obligations.TallySpillsRefillsAndIndicates
  refine ⟨fun _ => rfl, ?refill, ?spill, ?entry, ?gone, ?waits, ?falls, ?merged, ?fallsPins, ?mergedPins, ?low, ?pulseWaits,
    ?loss, ?lossPins, ?lossWaits, ?indication, fun _ => rfl, ?others, ?counts⟩
  case refill =>
    intro s x b h
    refine ⟨_, rfl, ?_, rfl, rfl, rfl⟩
    rw [Tab.get?_mapV, h]
    rfl
  case spill =>
    intro s slot rest e t hd hs hr hb hw
    exact exec_tallySpill_copied hd hs hr hb (eq_ok_of_toOption hw)
  case entry =>
    intro e
    rw [e.bytes_eq]
    refine ⟨?_, ?_, ?_⟩
    · rw [List.length_append, e.length_body, length_leBytes]
    · rw [List.take_append_of_le_length (by rw [e.length_body]; decide), e.take_body]
    · rw [List.drop_left' e.length_body, List.take_left' e.length_body]
  case gone =>
    intro s slot rest hd hs hr hb
    exact exec_tallySpill_gone hd hs hr hb
  case waits => exact fun s h => exec_tallySpill_waits h
  case falls => exact fun s h => exec_triggerPulseEnd_falls h
  case merged =>
    rintro s t hp hl hm rfl
    exact (exec_triggerPulseEnd_low hp hl).trans (if_neg hm)
  case fallsPins =>
    intro s h
    exact ⟨_, exec_triggerPulseEnd_falls h, rfl, rfl, rfl, rfl, rfl, rfl⟩
  case mergedPins =>
    intro s hp hl hm
    refine ⟨_, (exec_triggerPulseEnd_low hp hl).trans (if_neg hm), ?_⟩
    rw [State.wired_bus]
    exact ⟨rfl, rfl, rfl, rfl, rfl, rfl⟩
  case low =>
    intro s hp hl hm
    exact (exec_triggerPulseEnd_low hp hl).trans (if_pos hm)
  case pulseWaits => exact fun s hp hl => exec_triggerPulseEnd_waits hp hl
  case loss => exact fun s h => exec_lossHoldExpiry_due h
  case lossPins =>
    intro s h
    exact ⟨_, exec_lossHoldExpiry_due h, rfl, rfl, rfl, rfl, rfl⟩
  case lossWaits =>
    intro s h
    exact if_neg (by rw [h]; exact Bool.false_ne_true)
  case indication =>
    intro s h
    have hhold : (s.bump TAL_STATUS.TRIG_SUPP s.tally.merged).rd TAL_OUT_CFG.LOSS_HOLD = s.rd TAL_OUT_CFG.LOSS_HOLD :=
      s.rd_wr_reg _ (by decide) (by decide) (by decide)
    rw [s.leaseLossIndication_on h]
    exact ⟨rfl, by rw [hhold], rfl, State.rd_wr_self ..⟩
  case others =>
    intro s f hlo h
    exact ⟨s.countsCleared, rfl, s.rd_countsCleared_other hlo h, rfl, rfl⟩
  case counts =>
    intro s x hx
    refine ⟨s.countsCleared, rfl, s.rd_countsCleared_count ?_ ?_ ?_, s.rd_countsCleared_count ?_ ?_ ?_⟩ <;>
      simp only [TAL_COUNT.SUPPRESSED, TAL_COUNT.FROZEN] <;> omega

end Sys2Proof.Machine
end

section
/-! The management port (R480 to R482, R484): a received frame by what the port makes of it, the link, the two descriptors, and the
wall clock. -/
namespace Sys2Proof.Machine
open Sys2Proof

section
variable {s : State} {d : DescRef} {f : Fetched} {frame : List Byte}

/-! ## A frame received (R480, R482) -/

theorem exec_mgtFrameRx_ignored
    (h : s.on MGT_CTL.EN = false ∨ s.on MGT_STATUS.LINK = false ∨ 1522 < frame.length ∨ s.mgtAccepts (frame.take 6) = false) :
    exec (.mgtFrameRx frame) s = .next s := by
  have hstop : (!s.on MGT_CTL.EN || !s.on MGT_STATUS.LINK || decide (mgtMaxFrame < frame.length) ||
      !s.mgtAccepts (frame.take 6)) = true := by
    rcases h with h | h | h | h <;> simp [h, mgtMaxFrame]
  exact if_pos hstop

section
variable (hen : s.on MGT_CTL.EN = true) (hlink : s.on MGT_STATUS.LINK = true) (hlen : frame.length ≤ 1522)
  (hacc : s.mgtAccepts (frame.take 6) = true)
include hen hlink hlen hacc

theorem exec_mgtFrameRx_jig {p : List Byte} (hp : s.jigPayload frame = some p) : exec (.mgtFrameRx frame) s =
    if s.mgt.jigIn.length < 64 then .next { s with mgt := { s.mgt with jigIn := s.mgt.jigIn ++ [p] } } else .next s := by
  change execMgtFrameRx frame s = _
  simp only [execMgtFrameRx, mgtMaxFrame, hen, hlink, Nat.not_lt.2 hlen, hacc, hp, Bool.not_true, decide_false, Bool.or_self,
    Bool.false_eq_true, if_false]

theorem exec_mgtFrameRx_firmware (hp : s.jigPayload frame = none) (hfw : s.mgt.fwRunning = true) :
    exec (.mgtFrameRx frame) s = .next (s.frameToFirmware frame) := by
  change execMgtFrameRx frame s = _
  simp only [execMgtFrameRx, mgtMaxFrame, hen, hlink, Nat.not_lt.2 hlen, hacc, hp, hfw, Bool.not_true, decide_false,
    Bool.or_self, Bool.false_eq_true, if_false, if_true]

theorem exec_mgtFrameRx_answered {r : IslandReply} (hp : s.jigPayload frame = none) (hfw : s.mgt.fwRunning = false)
    (hr : s.islandAnswer frame = some r) :
    exec (.mgtFrameRx frame) s = .next { s with mgt := { s.mgt with replies := r :: s.mgt.replies } } := by
  change execMgtFrameRx frame s = _
  simp only [execMgtFrameRx, mgtMaxFrame, hen, hlink, Nat.not_lt.2 hlen, hacc, hp, hfw, hr, Bool.not_true, decide_false,
    Bool.or_self, Bool.false_eq_true, if_false]

theorem exec_mgtFrameRx_lost (hp : s.jigPayload frame = none) (hfw : s.mgt.fwRunning = false)
    (hr : s.islandAnswer frame = none) : exec (.mgtFrameRx frame) s = .next s := by
  change execMgtFrameRx frame s = _
  simp only [execMgtFrameRx, mgtMaxFrame, hen, hlink, Nat.not_lt.2 hlen, hacc, hp, hfw, hr, Bool.not_true, decide_false,
    Bool.or_self, Bool.false_eq_true, if_false]

end

theorem State.frameToFirmware_dropped (h : s.firstWaiting .mgt Op.frameRxBuf = none) :
    s.frameToFirmware frame = s.bump MGT_STATUS.RX_DROP 1 := by
  rw [State.frameToFirmware, h]

theorem State.frameToFirmware_stored {t : State} (h : s.firstWaiting .mgt Op.frameRxBuf = some (d, f))
    (hw : s.dmaWrite .mgt f.dst frame (some d.ring) = .ok t) :
    s.frameToFirmware frame = t.finish .mgt d St.success frame.length s.now := by
  obtain ⟨_, _, he, _⟩ := State.dmaWrite_ok hw
  have hnow : t.now = s.now := by rw [he]
  simp only [State.frameToFirmware, h, hw, hnow]

/-! ## The link (R480, R487) -/

theorem exec_mgtLinkChange_same {up gig : Bool} (h : s.on MGT_CTL.EN = false ∨ s.on MGT_STATUS.LINK = up) :
    exec (.mgtLinkChange up gig) s = .next s := by
  have hstop : (!s.on MGT_CTL.EN || s.on MGT_STATUS.LINK == up) = true := by
    rcases h with h | h <;> simp [h]
  exact if_pos hstop

/-- MGT_STATUS.SPEED of a link that is up or down. -/
def State.mgtSpeed (s : State) (up gig : Bool) : Nat := if !up then 0 else if s.on MGT_CTL.MODE then 3 else if gig then 2 else 1

theorem State.mgtSpeed_lt (s : State) (up gig : Bool) : s.mgtSpeed up gig < 4 := by
  simp only [State.mgtSpeed]
  split
  · decide
  · split
    · decide
    · split <;> decide

theorem exec_mgtLinkChange_other {up gig : Bool} (hen : s.on MGT_CTL.EN = true) (h : s.on MGT_STATUS.LINK ≠ up) :
    exec (.mgtLinkChange up gig) s = .next (((s.wr MGT_STATUS.LINK (if up then 1 else 0)).wr MGT_STATUS.SPEED
      (s.mgtSpeed up gig)).raise Ev.mgtLink (some .mgt)) := by
  have hgo : ¬ (!s.on MGT_CTL.EN || s.on MGT_STATUS.LINK == up) = true := by simp [hen, h]
  exact if_neg hgo

/-! ## FRAME_TX and FRAME_RX_BUF (R481) -/

theorem exec_frameTx_sent {bs : List Byte} (hf : s.startedAt .mgt d Op.frameTx = some f) (hlen : f.len ≤ 1522)
    (hr : s.dmaRead .mgt f.src f.len (some d.ring) = .ok bs) :
    exec (.frameTx d) s = .next ({ s with mgt := { s.mgt with sent := bs :: s.mgt.sent } }.finish .mgt d St.success 0
      (if (f.at 28 1).testBit 0 then s.now else 0)) := by
  change execFrameTx d s = _
  simp only [execFrameTx, hf, mgtMaxFrame, Nat.not_lt.2 hlen, if_false, hr]

theorem exec_frameTx_long (hf : s.startedAt .mgt d Op.frameTx = some f) (hlen : 1522 < f.len) :
    exec (.frameTx d) s = .next (s.finish .mgt d St.frameTooLong) := by
  change execFrameTx d s = _
  simp only [execFrameTx, hf, mgtMaxFrame, hlen, if_true]

theorem exec_frameRxBuf_started (hf : s.startedAt .mgt d Op.frameRxBuf = some f) : exec (.frameRxBuf d) s =
    if f.len < 1522 then .next (s.finish .mgt d St.lengthMismatch) else .next (s.setPhase .mgt d .waiting) := by
  change execFrameRxBuf d s = _
  simp only [execFrameRxBuf, hf, mgtMaxFrame]
  rfl

end

/-! ## The wall clock (R484) -/

/-- The state MGT_WALL_REF leaves: the held values and the reference are in their registers. -/
def State.wallApplied (s : State) (ref : Nat) : State :=
  (((s.wr MGT_WALL_SEC.SEC s.mgt.heldSec).wr MGT_WALL_NS.NS s.mgt.heldNs).wr MGT_WALL_NS.RATE s.mgt.heldRate).wr MGT_WALL_REF.REF ref

theorem State.rd_wallApplied (s : State) (ref : Nat) :
    (s.wallApplied ref).rd MGT_WALL_SEC.SEC = s.mgt.heldSec % 2 ^ MGT_WALL_SEC.SEC.w ∧
    (s.wallApplied ref).rd MGT_WALL_NS.NS = s.mgt.heldNs % 2 ^ MGT_WALL_NS.NS.w ∧
    (s.wallApplied ref).rd MGT_WALL_NS.RATE = s.mgt.heldRate % 2 ^ MGT_WALL_NS.RATE.w ∧
    (s.wallApplied ref).rd MGT_WALL_REF.REF = ref % 2 ^ MGT_WALL_REF.REF.w := by
  rw [State.wallApplied]
  refine ⟨?_, ?_, ?_, State.rd_wr_self ..⟩
  · rw [State.rd_wr_ne _ _ (by decide), State.rd_wr_ne _ _ (by decide), State.rd_wr_ne _ _ (by decide), State.rd_wr_self]
  · rw [State.rd_wr_ne _ _ (by decide), State.rd_wr_ne _ _ (by decide), State.rd_wr_self]
  · rw [State.rd_wr_ne _ _ (by decide), State.rd_wr_self]

/-- Settles O46: the equation of each command under the clause's hypotheses. -/
theorem managementPortFramesAndClock : Obligations.ManagementPortFramesAndClock := by
  unfold Obligations.ManagementPortFramesAndClock
  refine ⟨?ignored, ?jig, ?jigFull, ?firmware, ?lost, ?dropped, ?stored, ?answered, ?same, ?link, ?linkReads, ?long, ?sent,
    ?short, ?waits, fun _ _ => rfl, ?clock⟩
  case ignored => exact fun s frame h => exec_mgtFrameRx_ignored h
  case jig =>
    intro s frame p hlen hen hlink hacc hp hroom
    exact (exec_mgtFrameRx_jig hen hlink hlen hacc hp).trans (if_pos hroom)
  case jigFull =>
    intro s frame p hen hlink hlen hacc hp hfull
    exact (exec_mgtFrameRx_jig hen hlink hlen hacc hp).trans (if_neg (Nat.not_lt.2 hfull))
  case firmware =>
    intro s frame hen hlink hlen hacc hp hfw
    exact exec_mgtFrameRx_firmware hen hlink hlen hacc hp hfw
  case lost =>
    intro s frame hen hlink hlen hacc hp hfw hr
    exact exec_mgtFrameRx_lost hen hlink hlen hacc hp hfw hr
  case dropped =>
    intro s frame hen hlink hlen hacc hp hfw hw
    rw [exec_mgtFrameRx_firmware hen hlink hlen hacc hp hfw, State.frameToFirmware_dropped hw]
  case stored =>
    intro s frame d f t hen hlink hlen hacc hp hfw hw ht
    rw [exec_mgtFrameRx_firmware hen hlink hlen hacc hp hfw, State.frameToFirmware_stored hw (eq_ok_of_toOption ht)]
  case answered =>
    intro s frame r hen hlink hlen hacc hp hfw hr
    exact exec_mgtFrameRx_answered hen hlink hlen hacc hp hfw hr
  case same => exact fun s up gig h => exec_mgtLinkChange_same h
  case link =>
    rintro s up gig n hen h rfl
    exact exec_mgtLinkChange_other hen h
  case linkReads =>
    intro s up gig hen h
    refine ⟨_, exec_mgtLinkChange_other hen h, ?_, ?_, by simp, by simp⟩
    · rw [State.on, State.rd_raise _ _ _ _ _ _ _ ⟨by decide, by decide⟩, State.rd_wr_ne _ _ (by decide), State.rd_wr_self]
      cases up <;> rfl
    · rw [State.rd_raise _ _ _ _ _ _ _ ⟨by decide, by decide⟩, State.rd_wr_self]
      exact (Nat.mod_eq_of_lt (s.mgtSpeed_lt up gig)).trans (by cases up <;> rfl)
  case long => exact fun s d f hf hlen => exec_frameTx_long hf hlen
  case sent => exact fun s d f bs hf hlen hr => exec_frameTx_sent hf hlen (eq_ok_of_toOption hr)
  case short => exact fun s d f hf hlen => (exec_frameRxBuf_started hf).trans (if_pos hlen)
  case waits => exact fun s d f hf hlen => (exec_frameRxBuf_started hf).trans (if_neg (Nat.not_lt.2 hlen))
  case clock =>
    intro s ref hsec hns hrate
    obtain ⟨rsec, rns, rrate, rref⟩ := s.rd_wallApplied ref.toNat
    refine ⟨s.wallApplied ref.toNat, rfl, ?_, ?_, ?_, ?_, rfl, rfl⟩
    · rw [rsec, Nat.mod_eq_of_lt hsec]
    · rw [rns, Nat.mod_eq_of_lt hns]
    · rw [rrate, Nat.mod_eq_of_lt hrate]
    · exact rref.trans (Nat.mod_eq_of_lt ref.isLt)

end Sys2Proof.Machine
end

section
/-! The Meter (R465, R467 to R471, R473, R528): events reaching their lines, the management tick, the cut, the sweep, and the two
descriptors. -/
namespace Sys2Proof.Machine
open Sys2Proof

section
variable {s : State} {d : DescRef} {f : Fetched} {e : MtrEvent} {i : Nat} {l : MtrLine}

/-! ## The line of a pair (R468) -/

theorem State.mtrPlace_own {tn sh : Nat} (hi : s.mtrFind tn sh = some i) (hl : Tab.get? s.mtr.lines i = some l) :
    s.mtrPlace tn sh = (i, l) := by
  simp only [State.mtrPlace, hi, Tab.getD, hl, Option.getD_some]

theorem State.mtrPlace_free {tn sh : Nat} (hi : s.mtrFind tn sh = none) (hf : s.mtrFree tn sh = some i) :
    s.mtrPlace tn sh = (i, { tenant := tn, shard := sh }) := by
  simp only [State.mtrPlace, hi, hf]

theorem State.mtrPlace_full {tn sh : Nat} (hi : s.mtrFind tn sh = none) (hf : s.mtrFree tn sh = none) :
    s.mtrPlace tn sh = (sh, Tab.getD s.mtr.lines sh { tenant := 0, shard := sh }) := by
  simp only [State.mtrPlace, hi, hf]

theorem State.setLine_lines_self : Tab.get? (s.setLine i l).mtr.lines i = some l := Tab.get?_set_self ..

theorem State.setLine_lines_ne {j : Nat} (h : j ≠ i) : Tab.get? (s.setLine i l).mtr.lines j = Tab.get? s.mtr.lines j :=
  Tab.get?_set_ne _ _ h

theorem MtrBank.getD_add (b : MtrBank) {ctr : Nat} (h : ctr < 10) (n : Nat) :
    Tab.getD (b.add ctr n).ctr ctr 0 = (Tab.getD b.ctr ctr 0 + n) % 2 ^ 64 := by
  simp only [MtrBank.add, h, if_true, Tab.getD, Tab.get?_set_self, Option.getD_some]

/-- An event counted since the last cut, or while no sweep runs, reaches the active bank of its pair's line. -/
theorem State.meterAdd_active (hi : s.mtrFind e.tenant e.shard = some i) (hl : Tab.get? s.mtr.lines i = some l)
    (ht : s.mtr.lastCut ≤ e.tick ∨ s.mtr.sweepAt = none) (h : 256 ≤ i) :
    s.meterAdd e = s.setLine i { l with active := l.active.add e.ctr e.amount } := by
  have hnow : (decide (e.tick < s.mtr.lastCut) && s.mtr.sweepAt.isSome) = false := by
    rcases ht with ht | ht
    · rw [decide_eq_false (Nat.not_lt.2 ht), Bool.false_and]
    · rw [ht, Option.isSome_none, Bool.and_false]
  simp only [State.meterAdd, State.mtrPlace_own hi hl, Nat.not_lt.2 h, if_false, hnow, Bool.false_eq_true]

/-- An event counted before the last cut reaches the frozen bank of a line still unswept. -/
theorem State.meterAdd_frozen (hi : s.mtrFind e.tenant e.shard = some i) (hl : Tab.get? s.mtr.lines i = some l)
    (ht : e.tick < s.mtr.lastCut) (hs : s.mtr.sweepAt.isSome = true) (hw : l.swept = false) (h : 256 ≤ i) :
    s.meterAdd e = s.setLine i { l with frozen := l.frozen.add e.ctr e.amount } := by
  simp only [State.meterAdd, State.mtrPlace_own hi hl, Nat.not_lt.2 h, if_false, ht, hs, hw, decide_true, Bool.and_self,
    if_true, Bool.false_eq_true]

theorem State.mtrOverflow_mtr (s : State) (sh : Nat) : (s.mtrOverflow sh).mtr.lastCut = s.mtr.lastCut := by
  simp only [State.mtrOverflow]
  split
  · rfl
  · rw [State.raise_mtr]
    rfl

/-- A pair without a line of its own is counted in its shard's overflow line. -/
theorem State.meterAdd_overflow (hi : s.mtrFind e.tenant e.shard = none) (hf : s.mtrFree e.tenant e.shard = none)
    (ht : s.mtr.lastCut ≤ e.tick) (h : e.shard < 256) : s.meterAdd e = (s.mtrOverflow e.shard).setLine e.shard
      { Tab.getD s.mtr.lines e.shard { tenant := 0, shard := e.shard } with
        active := (Tab.getD s.mtr.lines e.shard { tenant := 0, shard := e.shard }).active.add e.ctr e.amount } := by
  simp only [State.meterAdd, State.mtrPlace_full hi hf, h, if_true, State.mtrOverflow_mtr, Nat.not_lt.2 ht, decide_false,
    Bool.false_and, Bool.false_eq_true, if_false]

/-! ## METER_EVENT, CAP_TICK and METER_CUT (R467 to R470) -/

theorem exec_meterEvent_oldest {q : List MtrEvent} (hq : s.mtr.queue = e :: q) (hen : s.on MTR_CTL.EN = true) :
    exec .meterEvent s = .next ({ if s.mtr.nextCut.any (· ≤ e.tick) then s.meterCut else s with
      mtr := { (if s.mtr.nextCut.any (· ≤ e.tick) then s.meterCut else s).mtr with queue := q } }.meterAdd e) := by
  change execMeterEvent s = _
  simp only [execMeterEvent, hq, hen, Bool.not_true, Bool.false_eq_true, if_false]

theorem exec_meterEvent_waits (h : s.mtr.queue = [] ∨ s.on MTR_CTL.EN = false) : exec .meterEvent s = .next s := by
  change execMeterEvent s = _
  simp only [execMeterEvent]
  split
  next => rfl
  next e q hq =>
    have hoff : s.on MTR_CTL.EN = false := h.resolve_left (by rw [hq]; exact List.cons_ne_nil _ _)
    rw [hoff, Bool.not_false, if_pos rfl]

theorem State.meterCut_waits (h : s.on MTR_CTL.EN = false ∨ s.due s.mtr.nextCut = false) : s.meterCut = s := by
  have hstop : (!s.on MTR_CTL.EN || !s.due s.mtr.nextCut) = true := by
    rcases h with h | h <;> simp [h]
  exact if_pos hstop

theorem exec_capTick_on (hen : s.on MTR_CTL.EN = true) : exec .capTick s = .next { s.meterCut with
    mtr := { s.meterCut.mtr with lines := Tab.mapV s.meterCut.mtr.lines fun _ (l : MtrLine) => s.meterCut.capTicked l } } := by
  change execCapTick s = _
  simp only [execCapTick, hen, Bool.not_true, Bool.false_eq_true, if_false]

theorem State.lines_unswept_nil (hs : (s.mtr.lines.all fun (e : Nat × MtrLine) => e.2.swept) = true) :
    (s.mtr.lines.filter fun e => !e.2.swept) = [] := by
  rw [List.filter_eq_nil_iff]
  intro e he
  rw [List.all_eq_true.1 hs e he]
  decide

/-- A cut that finds no line unswept. -/
theorem State.meterCut_swept (hen : s.on MTR_CTL.EN = true) (hdue : s.due s.mtr.nextCut = true)
    (hs : (s.mtr.lines.all fun (e : Nat × MtrLine) => e.2.swept) = true) :
    s.meterCut = { s.wr MTR_STATUS.SWEEPING 1 with mtr := { s.mtr with
      lines := Tab.mapV s.mtr.lines fun _ l => l.cut s.mtr.lastCut (s.mtr.movedNow.contains l.shard)
      prevCut := s.mtr.lastCut, lastCut := s.now / s.mtr.len * s.mtr.len, len := s.mtrLen
      nextCut := some ((s.now / s.mtr.len * s.mtr.len / s.mtrLen + 1) * s.mtrLen)
      movedNow := [], ovfSeen := [], recNo := 0, sweepAt := some 0 } } := by
  simp only [State.meterCut, hen, hdue, State.lines_unswept_nil hs, Bool.not_true, Bool.or_self, Bool.false_eq_true, if_false, List.foldl_nil]

theorem MtrLine.cut_swept (h : l.swept = true) (start : Nat) (b : Bool) : (l.cut start b).frozen = l.active ∧
    (l.cut start b).active = {} ∧ (l.cut start b).capCut = l.capNow := by
  simp [MtrLine.cut, h]

theorem MtrLine.cut_carried (h : l.swept = false) (start : Nat) (b : Bool) : (l.cut start b).active = {} ∧
    (l.cut start b).carried = true ∧ (l.cut start b).start = l.start ∧ (l.cut start b).frozen = l.frozen.plus l.active ∧
    (l.cut start b).moved = (l.moved || b) := by
  simp [MtrLine.cut, h]

/-! ## METER_SWEEP (R470, R471) -/

/-- A sweep that may run starts with RING_WAIT clear where there is ring room. -/
def State.sweepReady (s : State) : State :=
  if s.recRoom then ({ s with mtr := { s.mtr with ringFull := false } } : State).wr MTR_STATUS.RING_WAIT 0 else s

theorem State.recRoom_waitCleared (s : State) :
    (({ s with mtr := { s.mtr with ringFull := false } } : State).wr MTR_STATUS.RING_WAIT 0).recRoom = s.recRoom := by
  simp only [State.recRoom]
  rw [State.rd_wr_ne _ _ (by decide), State.rd_wr_ne _ _ (by decide), State.rd_wr_ne _ _ (by decide)]
  rfl

theorem exec_meterSweep_waits (h : s.mtr.sweepAt = none ∨ s.on MTR_CTL.EN = false ∨
    (s.mtr.queue.any fun (e : MtrEvent) => e.tick < s.mtr.lastCut) = true) : exec .meterSweep s = .next s := by
  have hstop : (s.mtr.sweepAt.isNone || !s.on MTR_CTL.EN || s.mtr.queue.any (fun e => e.tick < s.mtr.lastCut)) = true := by
    rcases h with h | h | h <;> simp only [h, Option.isNone_none, Bool.not_false, Bool.or_true, Bool.true_or]
  exact if_pos hstop

theorem exec_meterSweep_runs (ha : s.mtr.sweepAt.isSome = true) (hen : s.on MTR_CTL.EN = true)
    (hq : (s.mtr.queue.any fun (e : MtrEvent) => e.tick < s.mtr.lastCut) = false) :
    exec .meterSweep s = .next (sweepFrom (s.sweepReady.mtr.lines.filter fun (e : Nat × MtrLine) => !e.2.swept) s.sweepReady) := by
  have hgo : ¬ (s.mtr.sweepAt.isNone || !s.on MTR_CTL.EN || s.mtr.queue.any (fun e => e.tick < s.mtr.lastCut)) = true := by
    rw [hq, hen, ← Option.not_isSome, ha]
    decide
  exact if_neg hgo

theorem State.sweepReady_room (h : s.recRoom = true) :
    s.sweepReady = ({ s with mtr := { s.mtr with ringFull := false } } : State).wr MTR_STATUS.RING_WAIT 0 := if_pos h

theorem State.sweepReady_full (h : s.recRoom = false) : s.sweepReady = s :=
  if_neg (by rw [h]; exact Bool.false_ne_true)

theorem sweepFrom_nil_full (h : s.recRoom = false) : sweepFrom [] s = s.sweepWait := by
  simp only [sweepFrom, h, Bool.not_false, if_true]

/-- The state the trailer ends the sweep in, `v` being the one its record leaves. -/
def State.sweepEnded (v : State) : State :=
  { ((v.wr MTR_STATUS.SWEEPING 0).wr MTR_STATUS.RING_WAIT 0).wr MTR_LAST_CUT.VALUE v.mtr.lastCut with
    mtr := { v.mtr with sweepAt := none, ringFull := false } }

theorem sweepFrom_nil_room (h : s.recRoom = true) : sweepFrom [] s =
    (s.putRecord (recordBytes (s.rd LEASE_CTL.HEAD + 32) 0 0 0 s.mtr.lastCut s.mtr.recNo {} 0)).sweepEnded := by
  simp only [sweepFrom, h, Bool.not_true, Bool.false_eq_true, if_false]
  generalize s.putRecord _ = v
  rfl

theorem State.sweepEnded_reads (v : State) : v.sweepEnded.mem = v.mem ∧ v.sweepEnded.on MTR_STATUS.SWEEPING = false ∧
    v.sweepEnded.on MTR_STATUS.RING_WAIT = false ∧ v.sweepEnded.mtr.sweepAt = none ∧
    v.sweepEnded.rd MTR_LAST_CUT.VALUE = v.mtr.lastCut % 2 ^ MTR_LAST_CUT.VALUE.w ∧
    v.sweepEnded.rd MTR_REC_IDX.PROD = v.rd MTR_REC_IDX.PROD := by
  have hrd : ∀ g, v.sweepEnded.rd g =
      (((v.wr MTR_STATUS.SWEEPING 0).wr MTR_STATUS.RING_WAIT 0).wr MTR_LAST_CUT.VALUE v.mtr.lastCut).rd g := fun _ => rfl
  simp only [State.on, hrd]
  refine ⟨rfl, ?_, ?_, rfl, State.rd_wr_self .., ?_⟩
  · rw [State.rd_wr_ne _ _ (by decide), State.rd_wr_ne _ _ (by decide), State.rd_wr_self]
    rfl
  · rw [State.rd_wr_ne _ _ (by decide), State.rd_wr_self]
    rfl
  · rw [State.rd_wr_ne _ _ (by decide), State.rd_wr_ne _ _ (by decide), State.rd_wr_ne _ _ (by decide)]

/-- With every line swept and ring room, the sweep writes its trailer. -/
theorem exec_meterSweep_trailer (ha : s.mtr.sweepAt.isSome = true) (hen : s.on MTR_CTL.EN = true)
    (hq : (s.mtr.queue.any fun (e : MtrEvent) => e.tick < s.mtr.lastCut) = false)
    (hs : (s.mtr.lines.all fun (e : Nat × MtrLine) => e.2.swept) = true) (hr : s.recRoom = true) {u : State}
    (hu : u = ({ s with mtr := { s.mtr with ringFull := false } } : State).wr MTR_STATUS.RING_WAIT 0) :
    exec .meterSweep s =
      .next (u.putRecord (recordBytes (u.rd LEASE_CTL.HEAD + 32) 0 0 0 u.mtr.lastCut u.mtr.recNo {} 0)).sweepEnded := by
  have hlines : u.mtr.lines = s.mtr.lines := by rw [hu]; rfl
  have hroom : u.recRoom = true := by rw [hu, State.recRoom_waitCleared, hr]
  rw [exec_meterSweep_runs ha hen hq, State.sweepReady_room hr, ← hu, hlines, State.lines_unswept_nil hs, sweepFrom_nil_room hroom]

theorem sweepFrom_record {rest : List (Nat × MtrLine)} (hl : l.frozen.nonzero = true) (hr : s.recRoom = true) {u : State}
    (hu : u = s.putRecord (recordBytes (s.recFlags i l) l.tenant l.shard l.start s.mtr.lastCut s.mtr.recNo l.frozen l.capCut)) :
    sweepFrom ((i, l) :: rest) s =
      sweepFrom rest ({ u with mtr := { u.mtr with recNo := u.mtr.recNo + 1 } }.setLine i { l with frozen := {}, swept := true }) := by
  subst hu
  simp only [sweepFrom, hl, hr, Bool.not_true, Bool.false_eq_true, if_false, if_true]

theorem sweepFrom_full {rest : List (Nat × MtrLine)} (hl : l.frozen.nonzero = true) (hr : s.recRoom = false) :
    sweepFrom ((i, l) :: rest) s = s.sweepWait := by
  simp only [sweepFrom, hl, hr, Bool.not_false, if_true]

theorem sweepFrom_freed {rest : List (Nat × MtrLine)} (hl : l.frozen.nonzero = false) (ha : l.active.nonzero = false)
    (hc : l.capNow = 0) {t : State} (ht : t = { s with mtr := { s.mtr with lines := Tab.del s.mtr.lines i } }) :
    sweepFrom ((i, l) :: rest) s = sweepFrom rest (t.wr MTR_STATUS.LINES t.mtr.lines.length) := by
  subst ht
  have hidle : (!l.active.nonzero && l.capNow == 0) = true := by rw [ha, hc]; rfl
  simp only [sweepFrom, hl, hidle, Bool.false_eq_true, if_false, if_true]

theorem sweepFrom_idle {rest : List (Nat × MtrLine)} (hl : l.frozen.nonzero = false)
    (ha : l.active.nonzero = true ∨ l.capNow ≠ 0) :
    sweepFrom ((i, l) :: rest) s = sweepFrom rest (s.setLine i { l with frozen := {}, swept := true }) := by
  have hbusy : (!l.active.nonzero && l.capNow == 0) = false := by
    rcases ha with ha | ha <;> simp [ha]
  simp only [sweepFrom, hl, hbusy, Bool.false_eq_true, if_false]

theorem State.sweepWait_first (h : s.mtr.ringFull = false) : s.sweepWait =
    (({ s with mtr := { s.mtr with ringFull := true } } : State).wr MTR_STATUS.RING_WAIT 1).raise Ev.mtrRingFull (some .mtr) :=
  if_neg (by rw [h]; exact Bool.false_ne_true)

theorem State.sweepWait_mem (s : State) : s.sweepWait.mem = s.mem ∧ s.sweepWait.mtr.sweepAt = s.mtr.sweepAt := by
  simp only [State.sweepWait]
  split
  · exact ⟨rfl, rfl⟩
  · rw [State.raise_mem, State.raise_mtr]
    exact ⟨rfl, rfl⟩

/-! ## CAP_SET and LINE_READ (R473) -/

theorem exec_capSet_notWon (hf : s.startedAt .mtr d Op.capSet = some f) (hw : s.shardWon (f.at 28 1) = false) :
    exec (.capSet d) s = .next (s.finish .mtr d St.mtrShardNotOwned) := by
  change execCapSet d s = _
  simp only [execCapSet, hf, hw, Bool.not_false, if_true]

section
variable (hf : s.startedAt .mtr d Op.capSet = some f) (hw : s.shardWon (f.at 28 1) = true)
include hf hw

theorem exec_capSet_badTime (h0 : f.at 40 8 ≠ 0) (ht : s.now < f.at 40 8 ∨ f.at 40 8 < Tab.getD s.mtr.capFrom (f.at 28 1) 0) :
    exec (.capSet d) s = .next (s.finish .mtr d St.timeInvalid) := by
  change execCapSet d s = _
  simp only [execCapSet, hf, hw, h0, ht, ne_eq, not_false_iff, and_self, Bool.not_true, Bool.false_eq_true, if_false, if_true]

variable (ht : f.at 40 8 = 0 ∨ f.at 40 8 ≤ s.now ∧ Tab.getD s.mtr.capFrom (f.at 28 1) 0 ≤ f.at 40 8)
include ht

theorem exec_capSet_full (hi : s.mtrFind f.tenant (f.at 28 1) = none) (hr : s.mtrFree f.tenant (f.at 28 1) = none) :
    exec (.capSet d) s = .next (s.finish .mtr d St.lineFull) := by
  have htime : ¬ (f.at 40 8 ≠ 0 ∧ (s.now < f.at 40 8 ∨ f.at 40 8 < Tab.getD s.mtr.capFrom (f.at 28 1) 0)) := by omega
  change execCapSet d s = _
  simp only [execCapSet, hf, hw, htime, hi, hr, Option.isNone_none, and_self, Bool.not_true, Bool.false_eq_true, if_false, if_true]

theorem exec_capSet_line (hp : s.mtrPlace f.tenant (f.at 28 1) = (i, l))
    (hr : (s.mtrFind f.tenant (f.at 28 1)).isSome = true ∨ (s.mtrFree f.tenant (f.at 28 1)).isSome = true) :
    exec (.capSet d) s = .next ((s.setLine i { l with
      capNow := f.at 32 8
      active := l.active.add 9 ((if f.at 40 8 = 0 then 0 else s.now / mgmtTick - f.at 40 8 / mgmtTick) * f.at 32 8)
      backdated := l.backdated || (f.at 40 8 != 0 && decide (f.at 40 8 < s.mtr.lastCut)) }).finish .mtr d St.success) := by
  have htime : ¬ (f.at 40 8 ≠ 0 ∧ (s.now < f.at 40 8 ∨ f.at 40 8 < Tab.getD s.mtr.capFrom (f.at 28 1) 0)) := by omega
  have hroom : ¬ ((s.mtrFind f.tenant (f.at 28 1)).isNone = true ∧ (s.mtrFree f.tenant (f.at 28 1)).isNone = true) := by
    rw [← Option.not_isSome, ← Option.not_isSome]
    rcases hr with hr | hr <;> simp [hr]
  change execCapSet d s = _
  simp only [execCapSet, hf, hw, htime, hroom, hp, Bool.not_true, Bool.false_eq_true, if_false]

end

section
variable (hf : s.startedAt .mtr d Op.lineRead = some f)
include hf

theorem exec_lineRead_short (hl : f.len ≠ 256) : exec (.lineRead d) s = .next (s.finish .mtr d St.lengthMismatch) := by
  change execLineRead d s = _
  simp only [execLineRead, hf, hl, ne_eq, not_false_iff, if_true]

theorem exec_lineRead_absent (hl : f.len = 256) (hi : s.mtrFind f.tenant (f.at 28 1) = none) :
    exec (.lineRead d) s = .next (s.finish .mtr d St.lineAbsent) := by
  change execLineRead d s = _
  simp only [execLineRead, hf, hl, ne_eq, not_true, if_false, hi]

theorem exec_lineRead_written {t : State} (hlen : f.len = 256) (hi : s.mtrFind f.tenant (f.at 28 1) = some i)
    (hl : Tab.get? s.mtr.lines i = some l) (hw : s.dmaWrite .mtr f.dst (recordBytes (s.rd LEASE_CTL.HEAD +
      (if l.backdated then 4 else 0) + (if s.mtr.movedNow.contains (f.at 28 1) then 16 else 0)) l.tenant l.shard s.mtr.lastCut 0 0
      l.active l.capNow) (some d.ring) = .ok t) :
    exec (.lineRead d) s = .next (t.finish .mtr d St.success) := by
  change execLineRead d s = _
  simp only [execLineRead, hf, hlen, ne_eq, not_true, if_false, hi, Tab.getD, hl, Option.getD_some, hw]

end

end

/-- Settles O44: the equation of each command, cut, sweep step and line under the clause's hypotheses. -/
theorem meterCountsCutsAndSweeps : Obligations.MeterCountsCutsAndSweeps := by
  unfold Obligations.MeterCountsCutsAndSweeps
  refine ⟨?event, ?eventCut, ?active, ?frozen, ?overflow, ?eventWaits, ?capOff, ?capCut, ?capLine, ?cutWaits, fun _ _ _ => rfl,
    ?cut, ?carried, ?sweepWaits, ?sweepRoom, ?trailer, ?trailerFull, ?sweepFull, ?waitBegins, ?record, ?recordFull, ?freed, ?idle,
    ?notWon, ?badTime, ?setNow, ?setFrom, ?setFree, ?full, ?short, ?absent, ?read⟩
  case event =>
    intro s e q hq hen hc
    refine (exec_meterEvent_oldest hq hen).trans ?_
    rw [hc, if_neg Bool.false_ne_true]
  case eventCut =>
    rintro s e q t hq hen hc rfl
    refine (exec_meterEvent_oldest hq hen).trans ?_
    rw [hc, if_pos rfl]
  case active =>
    intro s e i l hi hl ht hc h
    rw [State.meterAdd_active hi hl ht h]
    exact ⟨_, State.setLine_lines_self, MtrBank.getD_add _ hc _, rfl, fun j hj => State.setLine_lines_ne hj, rfl⟩
  case frozen =>
    intro s e i l hi hl ht hs hw hc h
    rw [State.meterAdd_frozen hi hl ht hs hw h]
    exact ⟨_, State.setLine_lines_self, MtrBank.getD_add _ hc _, rfl, hw, fun j hj => State.setLine_lines_ne hj, rfl⟩
  case overflow => exact fun s e hi hf ht h => State.meterAdd_overflow hi hf ht h
  case eventWaits => exact fun s h => exec_meterEvent_waits h
  case capOff =>
    intro s h
    exact if_pos (by rw [h]; rfl)
  case capCut =>
    rintro s t hen rfl
    exact exec_capTick_on hen
  case capLine =>
    intro s i w l hen hdue hl hw
    refine ⟨_, exec_capTick_on hen, ?_⟩
    rw [State.meterCut_waits (.inr hdue)]
    refine ⟨rfl, rfl, ?_⟩
    rw [Tab.get?_mapV, hl, Option.map_some, State.capTicked, hw]
  case cutWaits => exact fun s h => congrArg Host.Outcome.next (State.meterCut_waits h)
  case cut =>
    intro s hen hdue hs
    refine ⟨_, congrArg Host.Outcome.next (State.meterCut_swept hen hdue hs), rfl, rfl, ?_, rfl, rfl, rfl, rfl,
      fun l b h => MtrLine.cut_swept h _ b⟩
    exact beq_iff_eq.2 (State.rd_wr_self ..)
  case carried => exact fun l start b h => MtrLine.cut_carried h start b
  case sweepWaits => exact fun s h => exec_meterSweep_waits h
  case sweepRoom =>
    rintro s u ha hen hq hr rfl
    rw [exec_meterSweep_runs ha hen hq, State.sweepReady_room hr]
    rfl
  case trailer =>
    intro s u ha hen hq hs hr hu
    exact ⟨_, _, rfl, exec_meterSweep_trailer ha hen hq hs hr hu, State.sweepEnded_reads _⟩
  case trailerFull =>
    intro s ha hen hq hs hr
    refine ⟨?_, s.sweepWait_mem⟩
    rw [exec_meterSweep_runs ha hen hq, State.sweepReady_full hr, State.lines_unswept_nil hs, sweepFrom_nil_full hr]
  case sweepFull =>
    intro s ha hen hq hr
    rw [exec_meterSweep_runs ha hen hq, State.sweepReady_full hr]
  case waitBegins =>
    intro s h
    refine ⟨State.sweepWait_first h, ?_⟩
    rw [State.sweepWait_first h, State.on, State.rd_raise _ _ _ _ _ _ _ ⟨by decide, by decide⟩, State.rd_wr_self]
    rfl
  case record => exact fun s i l rest hl hr => ⟨_, rfl, sweepFrom_record hl hr rfl⟩
  case recordFull => exact fun s i l rest hl hr => sweepFrom_full hl hr
  case freed => exact fun s i l rest t hl ha hc ht => sweepFrom_freed hl ha hc ht
  case idle => exact fun s i l rest hl ha => sweepFrom_idle hl ha
  case notWon => exact fun s d f hf hw => exec_capSet_notWon hf hw
  case badTime => exact fun s d f hf hw h0 ht => exec_capSet_badTime hf hw h0 ht
  case setNow =>
    intro s d f i l hf hw h0 hi hl
    refine (exec_capSet_line hf hw (.inl h0) (State.mtrPlace_own hi hl) (.inl (by rw [hi]; rfl))).trans ?_
    simp only [h0, if_true, Nat.zero_mul, bne_self_eq_false, Bool.false_and, Bool.or_false]
  case setFrom =>
    intro s d f i l hf hw h0 ht hi hl
    refine (exec_capSet_line hf hw ht (State.mtrPlace_own hi hl) (.inl (by rw [hi]; rfl))).trans ?_
    simp only [h0, if_false, bne_iff_ne.2 h0, Bool.true_and]
  case setFree =>
    rintro s d f i n l hf hw ht hi hr rfl rfl
    refine (exec_capSet_line hf hw ht (State.mtrPlace_free hi hr) (.inr (by rw [hr]; rfl))).trans ?_
    simp only [Bool.false_or]
  case full => exact fun s d f hf hw ht hi hr => exec_capSet_full hf hw ht hi hr
  case short => exact fun s d f hf hl => exec_lineRead_short hf hl
  case absent => exact fun s d f hf hl hi => exec_lineRead_absent hf hl hi
  case read => exact fun s d f i l t hf hlen hi hl hw => exec_lineRead_written hf hlen hi hl (eq_ok_of_toOption hw)

end Sys2Proof.Machine
end

section
/-! Frames of the supply, Meter, Tally and management commands (R443): the statement is about every state, and the list of domains
that wait to ramp may name one beyond the 96 in a state that no run reaches. DOMAIN_RAMP_ADMIT then writes the register that would
be that domain's, which lies in another unit's window. -/
namespace Sys2Proof.Machine
open Sys2Proof

/-- The reset state with one domain waiting to ramp whose PWR_DOM register would stand where the Drawer's window begins. -/
def strayRamp : State := { State.reset with sup := { State.reset.sup with rampWait := [261632] } }

/-- The field of the Drawer's first register at the place of PWR_DOM_d.STATE. -/
def strayField : Fld := PWR_DOM.STATE 261632

theorem strayField_reg : strayField.reg = unitBase .drw := by decide +kernel

/-- What DOMAIN_RAMP_ADMIT leaves where the stray domain's state would stand. -/
theorem exec_domainRampAdmit_stray : (stateOf strayRamp (exec .domainRampAdmit strayRamp)).rd strayField = Dom.ramp := by
  decide +kernel

/-- Refutes O59: with domain 261,632 waiting, DOMAIN_RAMP_ADMIT changes a field at offset 0xC0_0000, which is the Drawer's. -/
theorem not_framesOfSupplyMeterTallyAndManagement : ¬ Obligations.FramesOfSupplyMeterTallyAndManagement := by
  unfold Obligations.FramesOfSupplyMeterTallyAndManagement
  rintro ⟨_, _, _, _, _, hramp, _⟩
  obtain ⟨t, hexec, _, hregs, _⟩ := hramp strayRamp
  have hwritten : t.rd strayField = Dom.ramp := by
    have h := exec_domainRampAdmit_stray
    rwa [hexec] at h
  have hkept : t.rd strayField = strayRamp.rd strayField := by
    refine hregs strayField ?_ (by decide)
    rw [strayField_reg]
    decide
  rw [hkept] at hwritten
  exact absurd hwritten (by decide)

end Sys2Proof.Machine
end

section
/-! Registers by window, and what the supply's own operations leave: the Press's loss with its power, a domain's state, every domain
off, the head stopped (R199, R441, R443, R453, R490). -/
namespace Sys2Proof.Machine
open Sys2Proof

/-! ## Registers of a window -/

/-- The registers at offsets outside `lo` to `hi` read the same in two states. -/
def State.RegsIn (lo hi : Nat) (s t : State) : Prop := ∀ g : Fld, g.lo < 64 → (g.reg < lo ∨ hi ≤ g.reg) → t.rd g = s.rd g

/-- A field starts within its 64-bit register. -/
theorem Fld.lo_lt {f : Fld} (h : Nat.blt f.lo 64 = true) : f.lo < 64 := Nat.le_of_ble_eq_true h

section
variable {lo hi : Nat} {s t u : State}

theorem State.RegsIn.of_csr (h : t.csr = s.csr) : s.RegsIn lo hi t := fun _ _ _ => by rw [State.rd, h, State.rd]

theorem State.RegsIn.refl (s : State) : s.RegsIn lo hi s := .of_csr rfl

theorem State.RegsIn.trans (h : s.RegsIn lo hi t) (k : t.RegsIn lo hi u) : s.RegsIn lo hi u :=
  fun g hlo hg => (k g hlo hg).trans (h g hlo hg)

theorem State.regsIn_wr (s : State) {f : Fld} (v : Nat) (hf : f.lo < 64) (h : lo ≤ f.reg ∧ f.reg < hi) : s.RegsIn lo hi (s.wr f v) :=
  fun g hlo hg => s.rd_wr_reg v (by omega) hlo hf

theorem State.regsIn_foldl {α : Type} {f : State → α → State} (l : List α) (h : ∀ s : State, ∀ a ∈ l, s.RegsIn lo hi (f s a)) (s : State) :
    s.RegsIn lo hi (l.foldl f s) := by
  induction l generalizing s with
  | nil => exact .refl s
  | cons a l ih =>
    exact (h s a List.mem_cons_self).trans (ih (fun s b hb => h s b (List.mem_cons_of_mem a hb)) _)

end

/-! ## The Press without power (R199) -/

/-- A change of the Press's registers and of its own state, and of nothing else. -/
structure State.PressChange (s t : State) : Prop where
  rest : t = { s with csr := t.csr, press := t.press }
  regs : s.RegsIn 0x5000000 0x6000000 t

section
variable {s t u : State}

theorem State.PressChange.refl (s : State) : s.PressChange s := ⟨rfl, .refl s⟩

theorem State.PressChange.trans (h : s.PressChange t) (k : t.PressChange u) : s.PressChange u :=
  ⟨by rw [k.rest, h.rest], h.regs.trans k.regs⟩

theorem State.PressChange.wr (h : s.PressChange t) {f : Fld} (v : Nat) (hlo : f.lo < 64)
    (hf : 0x5000000 ≤ f.reg ∧ f.reg < 0x6000000) : s.PressChange (t.wr f v) :=
  h.trans ⟨rfl, t.regsIn_wr v hlo hf⟩

theorem State.PressChange.setPress (h : s.PressChange t) (p : Press) : s.PressChange { t with press := p } :=
  h.trans ⟨rfl, .of_csr rfl⟩

theorem State.pressChange_foldl {α : Type} {f : State → α → State} (l : List α) (h : ∀ s : State, ∀ a ∈ l, s.PressChange (f s a))
    (s : State) : s.PressChange (l.foldl f s) := by
  induction l generalizing s with
  | nil => exact .refl s
  | cons a l ih =>
    exact (h s a List.mem_cons_self).trans (ih (fun s b hb => h s b (List.mem_cons_of_mem a hb)) _)

theorem State.pressChange_wr (s : State) {f : Fld} (v : Nat) (hlo : f.lo < 64) (hf : 0x5000000 ≤ f.reg ∧ f.reg < 0x6000000) :
    s.PressChange (s.wr f v) := (State.PressChange.refl s).wr v hlo hf

theorem State.pressChange_setResult (s : State) {c : Nat} (hc : c < 64) (bs : List Byte) : s.PressChange (s.setResult c bs) := by
  refine State.pressChange_foldl _ (fun s w hw => s.pressChange_wr _ (Fld.lo_lt rfl) ?_) s
  have := List.mem_range.1 hw
  simp only [PRESS_RESULT.BYTES]
  omega

theorem State.pressChange_freeCtx (s : State) {c : Nat} (hc : c < 64) : s.PressChange (s.freeCtx c) := by
  have hstatus : ∀ (t : State) (f : Fld) (v : Nat), f.reg = 0x5201000 + c * 0x8 → f.lo < 64 → t.PressChange (t.wr f v) :=
    fun t f v h hlo => t.pressChange_wr v hlo (by omega)
  have hres := ((State.PressChange.refl s).setPress { s.press with ctx := Tab.del s.press.ctx c }).trans
    (State.pressChange_setResult _ hc [])
  refine State.PressChange.wr ?_ _ (by decide) (by decide)
  refine State.PressChange.trans ?_ (hstatus _ (PRESS_CTX_STATUS.FOREIGN_READ c) 0 rfl (Fld.lo_lt rfl))
  refine State.PressChange.trans ?_ (hstatus _ (PRESS_CTX_STATUS.EARLY_READ c) 0 rfl (Fld.lo_lt rfl))
  refine State.PressChange.trans ?_ (hstatus _ (PRESS_CTX_STATUS.ERR c) 0 rfl (Fld.lo_lt rfl))
  refine State.PressChange.trans ?_ (hstatus _ (PRESS_CTX_STATUS.ALG c) 0 rfl (Fld.lo_lt rfl))
  refine State.PressChange.trans ?_ (hstatus _ (PRESS_CTX_STATUS.OWNER_RING c) 0 rfl (Fld.lo_lt rfl))
  exact hres.trans (hstatus _ (PRESS_CTX_STATUS.STATE c) Pst.free rfl (Fld.lo_lt rfl))

theorem State.pressChange_legacyRelease (s : State) : s.PressChange s.legacyRelease := by
  have hlock : s.PressChange (s.setLegacy none) :=
    (((((((State.PressChange.refl s).setPress { s.press with legacy := none }).wr _ (by decide) (by decide)).wr _ (by decide)
      (by decide)).wr _ (by decide) (by decide)).wr _ (by decide) (by decide)).wr _ (by decide) (by decide)).wr _ (by decide)
      (by decide)
  refine hlock.trans (State.pressChange_foldl _ (fun s w hw => s.pressChange_wr _ (Fld.lo_lt rfl) ?_) _)
  have := List.mem_range.1 hw
  simp only [PRESS_LEG_RESULT.VALUE]
  omega

theorem State.pressChange_pressLost (s : State) : s.PressChange s.pressLost :=
  (State.pressChange_foldl _ (fun s _ hc => s.pressChange_freeCtx (List.mem_range.1 hc)) s).trans
    (State.pressChange_legacyRelease _)

end

/-! ## Domain states (R443) -/

section
variable {s : State} {d e : Nat}

theorem PWR_DOM.state_key_ne (h : e ≠ d) : (PWR_DOM.STATE e).key ≠ (PWR_DOM.STATE d).key := by
  simp only [Fld.key, PWR_DOM.STATE]
  omega

/-- The registers of the Governor's status that count SAFE and TRIPPED domains are no domain's state. -/
theorem State.rd_setDom_ne (s : State) (d st : Nat) {g : Fld} (hk : g.key ≠ (PWR_DOM.STATE d).key)
    (hs : g.key ≠ GOV_STATUS.SAFE.key) (ht : g.key ≠ GOV_STATUS.TRIPPED.key) : (s.setDom d st).rd g = s.rd g := by
  rw [State.setDom, State.rd_wr_ne _ _ ht, State.rd_wr_ne _ _ hs, State.rd_wr_ne _ _ hk]

/-- A register below the Governor's window is not GOV_STATUS. -/
theorem State.rd_setDom_low (s : State) (d st : Nat) {g : Fld} (hk : g.key ≠ (PWR_DOM.STATE d).key) (hg : g.reg < 0xE000000)
    (hlo : g.lo < 64) : (s.setDom d st).rd g = s.rd g :=
  s.rd_setDom_ne d st hk (by simp only [Fld.key, GOV_STATUS.SAFE]; omega) (by simp only [Fld.key, GOV_STATUS.TRIPPED]; omega)

theorem State.domSt_setDom (s : State) (hd : d < 96) {st : Nat} (hst : st < 8) : (s.setDom d st).domSt d = st := by
  have hsafe : (PWR_DOM.STATE d).key ≠ GOV_STATUS.SAFE.key := by simp only [Fld.key, PWR_DOM.STATE, GOV_STATUS.SAFE]; omega
  have htrip : (PWR_DOM.STATE d).key ≠ GOV_STATUS.TRIPPED.key := by simp only [Fld.key, PWR_DOM.STATE, GOV_STATUS.TRIPPED]; omega
  rw [State.domSt, State.setDom, State.rd_wr_ne _ _ htrip, State.rd_wr_ne _ _ hsafe, State.rd_wr_self]
  exact Nat.mod_eq_of_lt hst

theorem State.domSt_setDom_ne (s : State) (he : e < 96) (h : e ≠ d) (st : Nat) : (s.setDom d st).domSt e = s.domSt e :=
  s.rd_setDom_low d st (PWR_DOM.state_key_ne h) (by simp only [PWR_DOM.STATE]; omega) (Fld.lo_lt rfl)

/-- A domain that goes off takes the Press's contents with it where the domain is the Press's. -/
theorem State.pressChange_domOff (s : State) (d : Nat) : (s.setDom d Dom.off).PressChange (s.domOff d) := by
  simp only [State.domOff]
  split
  · exact State.pressChange_pressLost _
  · exact .refl _

end

/-! ## Every domain off (R441, R453, R492) -/

/-- The first `n` domains turned off. -/
def State.domainsOff (s : State) (n : Nat) : State :=
  (List.range n).foldl (fun s d => (s.wr (PWR_DOM.STATE d) Dom.off).wr (PWR_DOM.REQ_ON d) 0) s

theorem State.domainsOff_succ (s : State) (n : Nat) :
    s.domainsOff (n + 1) = ((s.domainsOff n).wr (PWR_DOM.STATE n) Dom.off).wr (PWR_DOM.REQ_ON n) 0 := by
  simp only [State.domainsOff, List.range_succ, List.foldl_append, List.foldl_cons, List.foldl_nil]

theorem State.domSt_domainsOff (s : State) (n : Nat) : ∀ d < n, (s.domainsOff n).domSt d = Dom.off := by
  induction n with
  | zero => exact fun _ h => absurd h (Nat.not_lt_zero _)
  | succ n ih =>
    intro d hd
    have hreq : (PWR_DOM.STATE d).key ≠ (PWR_DOM.REQ_ON n).key := by simp only [Fld.key, PWR_DOM.STATE, PWR_DOM.REQ_ON]; omega
    rw [s.domainsOff_succ, State.domSt, State.rd_wr_ne _ _ hreq]
    by_cases h : d = n
    · rw [h, State.rd_wr_self]
      rfl
    · rw [State.rd_wr_ne _ _ (PWR_DOM.state_key_ne h)]
      exact ih d (by omega)

theorem State.domainsOff_rest (s : State) (n : Nat) : s.domainsOff n = { s with csr := (s.domainsOff n).csr } := by
  induction n with
  | zero => rfl
  | succ n ih =>
    rw [s.domainsOff_succ]
    generalize s.domainsOff n = t at ih ⊢
    rw [ih]
    rfl

theorem State.regsIn_domainsOff (s : State) : s.RegsIn 0xA01000 0xA01300 (s.domainsOff 96) := by
  refine State.regsIn_foldl _ (fun s d hd => ?_) s
  have hd := List.mem_range.1 hd
  refine (s.regsIn_wr _ (Fld.lo_lt rfl) ?_).trans (State.regsIn_wr _ _ (Fld.lo_lt rfl) ?_)
  · simp only [PWR_DOM.STATE]
    omega
  · simp only [PWR_DOM.REQ_ON]
    omega

/-- The state in which the Press is still to lose its contents. -/
def State.allOffButPress (s : State) : State := ((s.domainsOff 96).wr GOV_STATUS.SAFE 0).wr GOV_STATUS.TRIPPED 0

theorem State.allOffButPress_rest (s : State) : s.allOffButPress = { s with csr := s.allOffButPress.csr } := by
  have h := s.domainsOff_rest 96
  rw [State.allOffButPress]
  generalize s.domainsOff 96 = t at h ⊢
  rw [h]
  rfl

theorem State.allOff_eq (s : State) : s.allOff =
    { s.allOffButPress.pressLost with sup := { s.allOffButPress.pressLost.sup with rampBy := [], rampWait := [] } } := rfl

theorem State.allOff_rest (s : State) : ∃ c p, s.allOff =
    { s with csr := c, press := p, sup := { s.sup with rampBy := [], rampWait := [] } } := by
  have hpress := s.allOffButPress.pressChange_pressLost.rest
  have hbut := s.allOffButPress_rest
  rw [s.allOff_eq]
  generalize s.allOffButPress.pressLost = t at hpress ⊢
  generalize s.allOffButPress = b at hpress hbut
  refine ⟨t.csr, t.press, ?_⟩
  rw [hpress, hbut]

theorem State.rd_allOff_pressLost (s : State) (g : Fld) : s.allOff.rd g = s.allOffButPress.pressLost.rd g := by
  rw [s.allOff_eq]
  generalize s.allOffButPress.pressLost = t
  rfl

/-- Outside the domain registers, GOV_STATUS and the Press every register stays. -/
theorem State.rd_allOff (s : State) {g : Fld} (hlo : g.lo < 64) (hdom : g.reg < 0xA01000 ∨ 0xA01300 ≤ g.reg)
    (hgov : g.reg ≠ 0xE200008) (hpress : g.reg < 0x5000000 ∨ 0x6000000 ≤ g.reg) : s.allOff.rd g = s.rd g := by
  rw [s.rd_allOff_pressLost, s.allOffButPress.pressChange_pressLost.regs g hlo hpress, State.allOffButPress,
    State.rd_wr_reg _ _ hgov hlo (by decide), State.rd_wr_reg _ _ hgov hlo (by decide), s.regsIn_domainsOff g hlo hdom]

theorem State.domSt_allOff (s : State) {d : Nat} (hd : d < 96) : s.allOff.domSt d = Dom.off := by
  have hgov : (PWR_DOM.STATE d).reg ≠ 0xE200008 := by simp only [PWR_DOM.STATE]; omega
  have hpress : (PWR_DOM.STATE d).reg < 0x5000000 := by simp only [PWR_DOM.STATE]; omega
  rw [State.domSt, s.rd_allOff_pressLost, s.allOffButPress.pressChange_pressLost.regs _ (Fld.lo_lt rfl) (.inl hpress),
    State.allOffButPress, State.rd_wr_reg _ _ hgov (Fld.lo_lt rfl) (by decide), State.rd_wr_reg _ _ hgov (Fld.lo_lt rfl) (by decide)]
  exact s.domSt_domainsOff 96 d hd

/-! ## Blade links and the registers kept -/

theorem State.cutBladePort_rest (s : State) (b p : Nat) (x : Bool) : ∃ bl, s.cutBladePort b p x = { s with blades := bl } := by
  simp only [State.cutBladePort]
  split
  · exact ⟨_, rfl⟩
  · exact ⟨_, rfl⟩

theorem State.dropBladeLinks_rest (s : State) : ∃ bl, s.dropBladeLinks = { s with blades := bl } := by
  have hfold : ∀ (l : List Nat) (t : State), (∃ bl, t = { s with blades := bl }) →
      ∃ bl, l.foldl (fun s b => s.cutBladePort b (s.portNo b) true) t = { s with blades := bl } := by
    intro l
    induction l with
    | nil => exact fun _ h => h
    | cons b l ih =>
      rintro t ⟨bl, rfl⟩
      obtain ⟨bl', h⟩ := ({ s with blades := bl } : State).cutBladePort_rest b (({ s with blades := bl } : State).portNo b) true
      exact ih _ ⟨bl', h⟩
  exact hfold _ s ⟨s.blades, rfl⟩

theorem State.rd_dropBladeLinks (s : State) (g : Fld) : s.dropBladeLinks.rd g = s.rd g := by
  obtain ⟨bl, h⟩ := s.dropBladeLinks_rest
  rw [h]
  rfl

/-! ## The head stopped (R441, R453, R490) -/

/-- What of the head stands when it stops, before its domains are turned off. -/
def State.stoppedBase (s : State) : State :=
  { State.reset with
    now := s.now, csr := Tab.keep s.csr fun k _ => alwaysOn k
    rings := Tab.keep s.rings fun k _ => alwaysOn (k / 4096 * 0x400000 * 64)
    bus := s.bus, pins := { s.pins with perstN := 0 }, tally := s.tally, mgt := { sent := s.mgt.sent, replies := s.mgt.replies }
    drw := s.drw, boot := { s.boot with stopped := true }, aud := s.aud, sec := s.sec, otp := s.otp, sup := s.sup
    jig := s.jig, blades := s.blades, ports := Tab.mapV s.ports fun _ y => { miswired := y.miswired }
    draws := s.draws, pending := s.pending }

theorem State.headStopped_eq (s : State) : s.headStopped = s.dropBladeLinks.stoppedBase.allOff := rfl

/-- A register kept by the always-on complexes. -/
theorem State.rd_stoppedBase (s : State) {g : Fld} (h : alwaysOn g.key = true) : s.stoppedBase.rd g = s.rd g := by
  have hget := Tab.get?_keep_key (fun k => alwaysOn k) g.key s.csr
  rw [if_pos h] at hget
  exact congrArg (Option.getD · g.reset) hget

theorem State.rd_headStopped (s : State) {g : Fld} (hlo : g.lo < 64) (hk : alwaysOn g.key = true)
    (hdom : g.reg < 0xA01000 ∨ 0xA01300 ≤ g.reg) (hgov : g.reg ≠ 0xE200008) (hpress : g.reg < 0x5000000 ∨ 0x6000000 ≤ g.reg) :
    s.headStopped.rd g = s.rd g := by
  rw [s.headStopped_eq, State.rd_allOff _ hlo hdom hgov hpress, State.rd_stoppedBase _ hk, State.rd_dropBladeLinks]

theorem State.domSt_headStopped (s : State) {d : Nat} (hd : d < 96) : s.headStopped.domSt d = Dom.off := by
  rw [s.headStopped_eq, State.domSt_allOff _ hd]

theorem State.headStopped_rest (s : State) : ∃ c p b, s.headStopped = { s.stoppedBase with
    csr := c, press := p, blades := b, sup := { s.sup with rampBy := [], rampWait := [] } } := by
  obtain ⟨bl, hd⟩ := s.dropBladeLinks_rest
  rw [s.headStopped_eq, hd]
  obtain ⟨c, p, h⟩ := ({ s with blades := bl } : State).stoppedBase.allOff_rest
  exact ⟨c, p, bl, h⟩

end Sys2Proof.Machine
end

section
/-! Core dividers, loss of REFCLK, and the power domains switched, ramped, sampled, tripped and resumed (R440 to R450). -/
namespace Sys2Proof.Machine
open Sys2Proof

section
variable {s u : State} {o : Origin}

/-! ## Clocks (R440, R441) -/

theorem State.rd_coreDiv_self (s : State) (c : Nat) : (s.coreDiv c).rd (CLK_CORE.EFFECTIVE c) =
    max (s.rd (CLK_CORE.DIV c)) (max (s.rd (CLK_CORE.FLOOR c)) (s.rd (CLK_CORE.THROTTLE c))) % 2 ^ 2 := s.rd_wr_self ..

theorem exec_coreDividerWrite_taken (ht : s.originThere o.toNat = true) (ha : s.audited false o.toNat = false) (core : Fin 48)
    {div : Nat} (hd : div ≤ 2) : exec (.coreDividerWrite o core div) s = .next ((s.wr (CLK_CORE.DIV core) div).coreDiv core) := by
  change execCoreDividerWrite o core div s = _
  simp only [execCoreDividerWrite, ht, ha, Nat.not_lt.2 hd, State.plainField_unaudited ht ha, Bool.not_true, Bool.false_and,
    Bool.or_self, Bool.false_eq_true, if_false]

theorem exec_coreDividerWrite_refused (ht : s.originThere o.toNat = true) (ha : s.audited false o.toNat = false) (core : Fin 48)
    {div : Nat} (hd : 2 < div) : exec (.coreDividerWrite o core div) s =
      .next (s.unitErr .clk o.toNat (0x601000 + core.val * 8) 7) := by
  have hoff : errOffset (CLK_CORE.DIV core).reg = 0x601000 + core.val * 8 := by
    have := core.isLt
    simp only [errOffset, CLK_CORE.DIV]
    omega
  change execCoreDividerWrite o core div s = _
  simp only [execCoreDividerWrite, ht, ha, hd, State.refuseValue, hoff, Bool.not_true, Bool.false_and, Bool.or_self,
    Bool.false_eq_true, if_false, if_true]

/-- The state REFCLK's loss leaves before the head stops. -/
def State.refclkLost (s : State) : State :=
  ((((s.wr CLK_STATUS.PLL_LOCK 0).wr CLK_STATUS.REFCLK_OK 0).wr CLK_STATUS.AON_OSC 1).bump CLK_STATUS.LOSSES 1).wr
    PWR_RESET_CAUSE.REFCLK_SEEN 1

/-- What the loss of REFCLK leaves. -/
def State.refclkStopped (s : State) : State :=
  ({ s.refclkLost.headStopped with pins := { s.refclkLost.headStopped.pins with refclk := false } } : State).raise
    Ev.refclkLost (some .gov)

theorem exec_refclkLoss_locked (h : s.on CLK_STATUS.PLL_LOCK = true) : exec .refclkLoss s = .next s.refclkStopped := by
  change execRefclkLoss s = _
  simp only [execRefclkLoss, h, State.refclkStopped, State.refclkLost, Bool.not_true, Bool.false_eq_true, if_false]

/-- The registers of CLK_STATUS once REFCLK is lost. -/
theorem State.rd_refclkLost (s : State) : s.refclkLost.rd CLK_STATUS.PLL_LOCK = 0 ∧ s.refclkLost.rd CLK_STATUS.REFCLK_OK = 0 ∧
    s.refclkLost.rd CLK_STATUS.AON_OSC = 1 := by
  rw [State.refclkLost, State.bump]
  refine ⟨?_, ?_, ?_⟩
  · rw [State.rd_wr_ne _ _ (by decide), State.rd_wr_ne _ _ (by decide), State.rd_wr_ne _ _ (by decide),
      State.rd_wr_ne _ _ (by decide), State.rd_wr_self]
    rfl
  · rw [State.rd_wr_ne _ _ (by decide), State.rd_wr_ne _ _ (by decide), State.rd_wr_ne _ _ (by decide), State.rd_wr_self]
    rfl
  · rw [State.rd_wr_ne _ _ (by decide), State.rd_wr_ne _ _ (by decide), State.rd_wr_self]
    rfl

/-- What recording an event leaves of the pins other than EVENT_OUT. -/
theorem State.raise_refclk (s : State) (code : Nat) (u : Option UnitId) (inst : Option Nat) (args : List Nat)
    (origin : Option Nat) : (s.raise code u inst args origin).pins.refclk = s.pins.refclk := by
  rw [(s.raise_change code u inst args origin).pins]

theorem State.rd_refclkStopped (s : State) {g : Fld} (h : outsideTally g) :
    s.refclkStopped.rd g = s.refclkLost.headStopped.rd g := by
  rw [State.refclkStopped, State.rd_raise _ _ _ _ _ _ g h]
  generalize s.refclkLost.headStopped = t
  rfl

/-- A field of CLK_STATUS once the head has stopped. -/
theorem State.rd_refclkStopped_clk (s : State) {g : Fld} (hg : g.reg = 0x600000) (hlo : g.lo < 64) (hk : alwaysOn g.key = true) :
    s.refclkStopped.rd g = s.refclkLost.rd g := by
  rw [s.rd_refclkStopped ⟨hlo, by omega⟩, State.rd_headStopped _ hlo hk (by omega) (by omega) (by omega)]

theorem State.domSt_refclkStopped (s : State) {d : Nat} (hd : d < 96) : s.refclkStopped.domSt d = Dom.off := by
  rw [State.domSt, s.rd_refclkStopped ⟨Fld.lo_lt rfl, .inl (by simp only [PWR_DOM.STATE]; omega)⟩]
  exact s.refclkLost.domSt_headStopped hd

theorem State.refclkStopped_fields (s : State) : s.refclkStopped.boot.stopped = true ∧ s.refclkStopped.pins.refclk = false ∧
    s.refclkStopped.mem = [] ∧ s.refclkStopped.otp = s.otp := by
  obtain ⟨c, p, b, hrest⟩ := s.refclkLost.headStopped_rest
  rw [State.refclkStopped, hrest, State.raise_boot, State.raise_refclk, State.raise_mem, State.raise_otp]
  exact ⟨rfl, rfl, rfl, rfl⟩

/-! ## Domains switched (R443, R444) -/

theorem mem_insertAsc (d : Nat) : ∀ l, d ∈ insertAsc d l
  | [] => List.mem_singleton.2 rfl
  | x :: t => by
    simp only [insertAsc]
    split
    · next h => exact h ▸ List.mem_cons_self
    · split
      · exact List.mem_cons_self
      · exact List.mem_cons_of_mem x (mem_insertAsc d t)

theorem exec_domainOnRequest_off (d : Fin 96) (hs : s.boot.stopped = false) (h : (s.wr (PWR_DOM.REQ_ON d) 1).domSt d = Dom.off) :
    exec (.domainOnRequest d) s = .next { s.wr (PWR_DOM.REQ_ON d) 1 with
      sup := { s.sup with rampWait := insertAsc d s.sup.rampWait } } := by
  change execDomainOnRequest d s = _
  simp only [execDomainOnRequest, hs, h, Bool.false_eq_true, if_false, if_true]
  rfl

theorem exec_domainOnRequest_on (d : Fin 96) (hs : s.boot.stopped = false) (h : (s.wr (PWR_DOM.REQ_ON d) 1).domSt d ≠ Dom.off) :
    exec (.domainOnRequest d) s = .next (s.wr (PWR_DOM.REQ_ON d) 1) := by
  change execDomainOnRequest d s = _
  simp only [execDomainOnRequest, hs, h, Bool.false_eq_true, if_false]

theorem exec_domainOffRequest (ht : s.originThere o.toNat = true) (ha : s.audited false o.toNat = false) (d : Fin 96)
    (hart : Bool) : exec (.domainOffRequest o d hart) s = .next (s.requestOff o.toNat d hart) :=
  congrArg Host.Outcome.next (State.plainField_unaudited ht ha ..)

theorem PWR_DOM.state_key_reqOn (d e : Nat) : (PWR_DOM.STATE d).key ≠ (PWR_DOM.REQ_ON e).key := by
  simp only [Fld.key, PWR_DOM.STATE, PWR_DOM.REQ_ON]
  omega

/-- A domain read after a request that another, or the same, be off is in the state it was in. -/
theorem State.domSt_wr_reqOn (s : State) (d e v : Nat) : (s.wr (PWR_DOM.REQ_ON e) v).domSt d = s.domSt d :=
  s.rd_wr_ne v (PWR_DOM.state_key_reqOn d e)

theorem State.requestOff_quiet {d : Nat} {hart : Bool} {n : Nat} (hd : s.domSt d = Dom.on) (hq : s.quiescent d hart = true) :
    s.requestOff n d hart = (s.wr (PWR_DOM.REQ_ON d) 0).domOff d := by
  rw [State.requestOff, if_pos hd, if_pos hq]

theorem State.requestOff_busy {d : Nat} {hart : Bool} {n : Nat} (hd : s.domSt d = Dom.on) (hq : s.quiescent d hart = false)
    (hlt : d < 96) : s.requestOff n d hart = (s.wr (PWR_DOM.REFUSED d) 1).unitErr .pwr n (0xA01000 + d * 8) 8 := by
  have hoff : errOffset (0xA01000 + d * 8) = 0xA01000 + d * 8 := by
    simp only [errOffset]
    omega
  rw [State.requestOff, if_pos hd, if_neg (by rw [hq]; exact Bool.false_ne_true), hoff]

theorem State.requestOff_tripped {d : Nat} {hart : Bool} {n : Nat} (hd : s.domSt d = Dom.tripped) :
    s.requestOff n d hart = (s.wr (PWR_DOM.REQ_ON d) 0).domOff d := by
  have hon : s.domSt d ≠ Dom.on := by rw [hd]; decide
  simp only [State.requestOff, hon, if_false]
  exact if_pos ((s.domSt_wr_reqOn d d 0).trans hd)

/-- What a domain that goes off leaves. -/
theorem State.domOff_fields (s : State) {d : Nat} (hd : d < 96) : (s.domOff d).domSt d = Dom.off ∧
    (s.domOff d).rd (PWR_DOM.REQ_ON d) = s.rd (PWR_DOM.REQ_ON d) ∧ (s.domOff d).mem = s.mem ∧
    ∀ e : Fin 96, e.val ≠ d → (s.domOff d).domSt e = s.domSt e := by
  obtain ⟨hrest, hregs⟩ := s.pressChange_domOff d
  have hdom : ∀ (e : Nat) (g : Fld), e < 96 → g.reg = 0xA01000 + e * 8 → g.lo < 64 → (s.domOff d).rd g = (s.setDom d Dom.off).rd g :=
    fun e g he hg hlo => hregs g hlo (by omega)
  refine ⟨?_, ?_, ?_, fun e he => ?_⟩
  · exact (hdom d _ hd rfl (Fld.lo_lt rfl)).trans (s.domSt_setDom hd (by decide))
  · exact (hdom d _ hd rfl (Fld.lo_lt rfl)).trans
      (s.rd_setDom_low d _ (PWR_DOM.state_key_reqOn d d).symm (by simp only [PWR_DOM.REQ_ON]; omega) (Fld.lo_lt rfl))
  · rw [hrest]
    rfl
  · exact (hdom e _ e.isLt rfl (Fld.lo_lt rfl)).trans (s.domSt_setDom_ne e.isLt he _)

/-- An access error is kept in the unit's own register or recorded in the Tally. -/
theorem State.rd_unitErr (s : State) (u : UnitId) (n off kind : Nat) {g : Fld} (hlo : g.lo < 64) (hreg : g.reg ≠ unitBase u + 0x18)
    (ht : outsideTally g) : (s.unitErr u n off kind).rd g = s.rd g := by
  simp only [State.unitErr]
  split
  · rw [State.rd_wr_reg _ _ hreg hlo (Fld.lo_lt rfl), State.rd_wr_reg _ _ hreg hlo (Fld.lo_lt rfl),
      State.rd_wr_reg _ _ hreg hlo (Fld.lo_lt rfl), State.rd_wr_reg _ _ hreg hlo (Fld.lo_lt rfl)]
  · exact s.rd_raise _ _ _ _ _ g ht

/-! ## Ramps (R443, R445) -/

theorem exec_domainRampAdmit_admitted {d : Nat} {rest : List Nat} (hw : s.sup.rampWait = d :: rest) (hs : s.boot.stopped = false)
    (hc : s.domCount Dom.ramp < 4) {t : State} (ht : t = (s.setDom d Dom.ramp).wr (GOV_DOM_STATUS.N d) (pwrPhases d))
    (hu : u = t.wr (GOV_DOM_STATUS.CREF d) (t.rd (GOV_VREF.VREF d))) : exec .domainRampAdmit s = .next { u with sup := { u.sup with
      rampWait := rest, rampBy := Tab.set u.sup.rampBy d (u.now + 256000), inBand := Tab.del u.sup.inBand d } } := by
  subst ht hu
  change execDomainRampAdmit s = _
  simp only [execDomainRampAdmit, hw, Nat.not_le.2 hc, hs, decide_false, Bool.or_self, Bool.false_eq_true, if_false]

theorem exec_domainRampAdmit_waits {d : Nat} {rest : List Nat} (hw : s.sup.rampWait = d :: rest)
    (h : 4 ≤ s.domCount Dom.ramp ∨ s.boot.stopped = true) : exec .domainRampAdmit s = .next s := by
  have hstop : (decide (4 ≤ s.domCount Dom.ramp) || s.boot.stopped) = true := by
    rcases h with h | h <;> simp [h]
  change execDomainRampAdmit s = _
  simp only [execDomainRampAdmit, hw, hstop, if_true]

theorem exec_rampTimeout_not {d : Fin 96} (h : ¬ (s.domSt d = Dom.ramp ∧ s.due (Tab.get? s.sup.rampBy d) = true)) :
    exec (.rampTimeout d) s = .next s := if_neg h

/-! ## Samples (R446, R448, R450) -/

/-- The state in which a sample of a domain is looked at. -/
def State.sampled (s : State) (d : Fin 96) (vmeas isense : BitVec 16) : State :=
  ((s.wr (GOV_DOM_STATUS.VMEAS d) vmeas.toNat).wr (GOV_DOM_STATUS.ISENSE d) isense.toNat).stepVref d

/-- Whether a sample lies outside the window of R450. -/
def State.strays (s : State) (d : Nat) (v : Int) : Bool :=
  decide (v < (s.windowMid d : Int) - mvCode 60) || decide ((s.windowMid d : Int) + mvCode 60 < v)

theorem State.strays_of {d : Nat} {v : Int} (h : v < (s.windowMid d : Int) - mvCode 60 ∨ (s.windowMid d : Int) + mvCode 60 < v) :
    s.strays d v = true := by
  rcases h with h | h <;> simp [State.strays, h]

theorem State.not_strays_of {d : Nat} {v : Int} (h1 : (s.windowMid d : Int) - mvCode 60 ≤ v)
    (h2 : v ≤ (s.windowMid d : Int) + mvCode 60) : s.strays d v = false := by
  simp [State.strays, Int.not_lt.2 h1, Int.not_lt.2 h2]

/-- The sample's place noted: outside the window a first time, or inside. -/
def State.breachNoted (s : State) (d : Nat) (v : Int) : State :=
  { s with sup := { s.sup with breach := if s.strays d v then Tab.set s.sup.breach d 1 else Tab.del s.sup.breach d } }

/-- The law does not run on a SAFE domain, nor while the Governor is disabled. -/
theorem governor_idle {d : Nat} (h : u.domSt d = Dom.safe ∨ (u.domSt d = Dom.on ∧ u.on GOV_CTL.EN = false)) :
    ¬ (u.domSt d = Dom.on ∧ u.on GOV_CTL.EN = true) := by
  rintro ⟨hon, hen⟩
  rcases h with h | ⟨_, h⟩
  · exact absurd (h.symm.trans hon) (by decide)
  · exact Bool.false_ne_true (h.symm.trans hen)

section
variable {d : Fin 96} {vmeas isense : BitVec 16} (jobs : List LaneJob) (hu : u = s.sampled d vmeas isense)
include hu

theorem exec_governorSample_ramp (h : u.domSt d = Dom.ramp) :
    exec (.governorSample d vmeas isense jobs) s = .next (u.rampSample d (toSigned vmeas.toNat 16)) := by
  subst hu
  exact if_pos h

theorem exec_governorSample_dead (h : u.domSt d = Dom.off ∨ u.domSt d = Dom.tripped) :
    exec (.governorSample d vmeas isense jobs) s = .next u := by
  subst hu
  have hramp : (s.sampled d vmeas isense).domSt d ≠ Dom.ramp := by rcases h with h | h <;> rw [h] <;> decide
  have hlive : ¬ ((s.sampled d vmeas isense).domSt d = Dom.on ∨ (s.sampled d vmeas isense).domSt d = Dom.safe) := by
    rcases h with h | h <;> rw [h] <;> decide
  exact (if_neg hramp).trans (if_neg hlive)

section
variable (h : u.domSt d = Dom.on ∨ u.domSt d = Dom.safe)
include h

theorem exec_governorSample_trip (hs : u.strays d (toSigned vmeas.toNat 16) = true) (hb : 1 ≤ Tab.getD u.sup.breach d 0) :
    exec (.governorSample d vmeas isense jobs) s = .next (u.trip d jobs) := by
  subst hu
  have hramp : (s.sampled d vmeas isense).domSt d ≠ Dom.ramp := by rcases h with h | h <;> rw [h] <;> decide
  refine (if_neg hramp).trans ((if_pos h).trans (if_pos ?_))
  rw [Bool.and_eq_true]
  exact ⟨hs, decide_eq_true hb⟩

/-- A sample of a domain in ON or SAFE that trips nothing: the law runs on an ON domain while the Governor is enabled. -/
theorem exec_governorSample_stays (hs : u.strays d (toSigned vmeas.toNat 16) = false ∨ Tab.getD u.sup.breach d 0 = 0) :
    exec (.governorSample d vmeas isense jobs) s = if u.domSt d = Dom.on ∧ u.on GOV_CTL.EN = true then
      .next ((u.breachNoted d (toSigned vmeas.toNat 16)).law d (toSigned vmeas.toNat 16) (toSigned isense.toNat 16))
      else .next (u.breachNoted d (toSigned vmeas.toNat 16)) := by
  subst hu
  have hramp : (s.sampled d vmeas isense).domSt d ≠ Dom.ramp := by rcases h with h | h <;> rw [h] <;> decide
  refine (if_neg hramp).trans ((if_pos h).trans (if_neg ?_))
  rw [Bool.and_eq_true, not_and]
  intro hout hb
  rcases hs with hs | hs
  · exact absurd (hs.symm.trans hout) Bool.false_ne_true
  · have hb : 1 ≤ Tab.getD (s.sampled d vmeas isense).sup.breach d 0 := of_decide_eq_true hb
    exact absurd (hs ▸ hb) (by decide)

end

end

/-! ## What a sample and the law leave (R443, R448, R449, R451) -/

theorem State.stepVref_rest (s : State) (d : Nat) : ∃ c o, s.stepVref d = { s with csr := c, sup := { s.sup with stepOdd := o } } := by
  simp only [State.stepVref]
  split
  · exact ⟨_, _, rfl⟩
  · split
    · exact ⟨_, _, rfl⟩
    · exact ⟨_, _, rfl⟩

theorem State.rd_stepVref (s : State) (d : Nat) {g : Fld} (hv : g.key ≠ (GOV_VREF.VREF d).key)
    (hs : g.key ≠ (GOV_DOM_STATUS.STEPPING d).key) : (s.stepVref d).rd g = s.rd g := by
  simp only [State.stepVref]
  split
  · exact s.rd_wr_ne _ hs
  · split
    · rw [State.rd_wr_ne _ _ hs, State.rd_wr_ne _ _ hv]
      rfl
    · rw [State.rd_wr_ne _ _ hs]
      rfl

/-- A register of the Governor's part of a domain that a sample does not write. -/
theorem State.rd_sampled (s : State) (d : Fin 96) (vmeas isense : BitVec 16) {g : Fld} (hm : g.key ≠ (GOV_DOM_STATUS.VMEAS d).key)
    (hi : g.key ≠ (GOV_DOM_STATUS.ISENSE d).key) (hv : g.key ≠ (GOV_VREF.VREF d).key)
    (hs : g.key ≠ (GOV_DOM_STATUS.STEPPING d).key) : (s.sampled d vmeas isense).rd g = s.rd g := by
  rw [State.sampled, State.rd_stepVref _ _ hv hs, State.rd_wr_ne _ _ hi, State.rd_wr_ne _ _ hm]

theorem State.sampled_rampBy (s : State) (d : Fin 96) (vmeas isense : BitVec 16) :
    (s.sampled d vmeas isense).sup.rampBy = s.sup.rampBy := by
  obtain ⟨c, p, h⟩ := ((s.wr (GOV_DOM_STATUS.VMEAS d) vmeas.toNat).wr (GOV_DOM_STATUS.ISENSE d) isense.toNat).stepVref_rest d
  rw [State.sampled, h]
  rfl

theorem State.rd_setDom_gov (s : State) {d : Nat} (hd : d < 96) (st : Nat) {g : Fld} (hlo : g.lo < 64) (hg : 0xE201000 ≤ g.reg) :
    (s.setDom d st).rd g = s.rd g :=
  s.rd_setDom_ne d st (by simp only [Fld.key, PWR_DOM.STATE]; omega) (by simp only [Fld.key, GOV_STATUS.SAFE]; omega)
    (by simp only [Fld.key, GOV_STATUS.TRIPPED]; omega)

/-- A domain's state is no register of the Governor's. -/
theorem State.domSt_wr_gov (s : State) {d : Nat} (hd : d < 96) {f : Fld} (v : Nat) (hlo : f.lo < 64) (hf : 0xE200000 ≤ f.reg) :
    (s.wr f v).domSt d = s.domSt d :=
  s.rd_wr_reg v (by simp only [PWR_DOM.STATE]; omega) (Fld.lo_lt rfl) hlo

/-- Two samples in the band end a ramp. -/
theorem State.rampSample_ends {d : Nat} {v : Int} (hd : d < 96)
    (h1 : toSigned (u.rd (GOV_VREF.VREF d)) 16 - clampInt (toSigned (u.rd (GOV_BAND_LO.VALUE d)) 16) 22 2185 ≤ v)
    (h2 : v ≤ toSigned (u.rd (GOV_VREF.VREF d)) 16 + clampInt (toSigned (u.rd (GOV_BAND_HI.VALUE d)) 16) 22 2185)
    (hb : 1 ≤ Tab.getD u.sup.inBand d 0) : (u.rampSample d v).domSt d = Dom.on ∧ (u.rampSample d v).rd (GOV_DOM_INT.I d) = 0 ∧
      (u.rampSample d v).rd (GOV_DOM_STATUS.FAILS d) = 0 ∧ (u.rampSample d v).sup.rampBy = Tab.del u.sup.rampBy d := by
  have hne : (GOV_DOM_INT.I d).key ≠ (GOV_DOM_STATUS.FAILS d).key := by
    simp only [Fld.key, GOV_DOM_INT.I, GOV_DOM_STATUS.FAILS]
    omega
  have heq : u.rampSample d v = ((((({ u with sup := { u.sup with
      rampBy := Tab.del u.sup.rampBy d, inBand := Tab.del u.sup.inBand d } } : State).setDom d Dom.on).wr (GOV_DOM_INT.I d) 0).wr
        (GOV_DOM_STATUS.FAILS d) 0).marksDue d) := by
    simp only [State.rampSample, h1, h2, hb, and_self, if_true]
  rw [heq]
  refine ⟨?_, ?_, State.rd_wr_self .., rfl⟩
  · refine (State.domSt_wr_gov _ hd _ (Fld.lo_lt rfl) ?_).trans ((State.domSt_wr_gov _ hd _ (Fld.lo_lt rfl) ?_).trans
      (State.domSt_setDom _ hd (by decide)))
    · simp only [GOV_DOM_STATUS.FAILS]
      omega
    · simp only [GOV_DOM_INT.I]
      omega
  · exact (State.rd_wr_ne _ _ hne).trans (State.rd_wr_self ..)

theorem State.enterSafe_reads (s : State) {d : Nat} (hd : d < 96) : (s.enterSafe d).domSt d = Dom.safe ∧
    (s.enterSafe d).rd (GOV_DOM_STATUS.N d) = pwrPhases d % 2 ^ 4 ∧ (s.enterSafe d).rd (GOV_DOM_INT.I d) = s.rd (GOV_DOM_INT.I d) := by
  have hother : ∀ g : Fld, g.lo < 64 → g.reg < 0xF600000 → g.reg ≠ 0xE200008 → (s.enterSafe d).rd g =
      (((s.setDom d Dom.safe).wr (GOV_DOM_STATUS.CREF d) (s.vSafe d)).wr (GOV_DOM_STATUS.N d) (pwrPhases d)).rd g := by
    intro g hlo hreg hgov
    rw [State.enterSafe, State.rd_raise _ _ _ _ _ _ _ ⟨hlo, .inl hreg⟩, State.bump, State.rd_wr_reg _ _ hgov hlo (by decide)]
  refine ⟨?_, ?_, ?_⟩
  · rw [State.domSt, hother _ (Fld.lo_lt rfl) (by simp only [PWR_DOM.STATE]; omega) (by simp only [PWR_DOM.STATE]; omega)]
    refine (State.domSt_wr_gov _ hd _ (Fld.lo_lt rfl) ?_).trans ((State.domSt_wr_gov _ hd _ (Fld.lo_lt rfl) ?_).trans
      (State.domSt_setDom _ hd (by decide)))
    · simp only [GOV_DOM_STATUS.N]
      omega
    · simp only [GOV_DOM_STATUS.CREF]
      omega
  · rw [hother _ (Fld.lo_lt rfl) (by simp only [GOV_DOM_STATUS.N]; omega) (by simp only [GOV_DOM_STATUS.N]; omega), State.rd_wr_self]
    rfl
  · have hreg : (GOV_DOM_INT.I d).reg = 0xE201068 + d * 0x80 := rfl
    rw [hother _ (Fld.lo_lt rfl) (by omega) (by omega),
      State.rd_wr_reg _ _ (by simp only [GOV_DOM_INT.I, GOV_DOM_STATUS.N]; omega) (Fld.lo_lt rfl) (Fld.lo_lt rfl),
      State.rd_wr_reg _ _ (by simp only [GOV_DOM_INT.I, GOV_DOM_STATUS.CREF]; omega) (Fld.lo_lt rfl) (Fld.lo_lt rfl),
      State.rd_setDom_gov _ hd _ (Fld.lo_lt rfl) (by omega)]

theorem pwrPhases_lt (d : Nat) : pwrPhases d < 2 ^ 4 := by
  simp only [pwrPhases]
  split_ifs <;> decide

/-- The plausibility check fails for the last time: the domain enters SAFE. -/
theorem State.law_implausible {d : Nat} {v i : Int} (hbad : clampInt (toSigned (s.rd (GOV_PLAUS_LIM.VALUE d)) 16) 22 4369 <
      toSigned (s.rd (GOV_DOM_STATUS.CREF d)) 16 - (s.rd (GOV_MODEL_R.VALUE d) : Int) * i / 2 ^ 15 / (s.rd (GOV_DOM_STATUS.N d) : Int) - v)
    (hn : s.rd (GOV_PLAUS_N.VALUE d) = s.rd (GOV_DOM_STATUS.FAILS d) + 1) (hmax : s.rd (GOV_PLAUS_N.VALUE d) ≤ 255) :
    s.law d v i = (s.wr (GOV_DOM_STATUS.FAILS d) (s.rd (GOV_DOM_STATUS.FAILS d) + 1)).enterSafe d := by
  have hcap : min (s.rd (GOV_DOM_STATUS.FAILS d) + 1) 255 = s.rd (GOV_DOM_STATUS.FAILS d) + 1 := by omega
  have hlast : min (max 1 (s.rd (GOV_PLAUS_N.VALUE d))) 255 ≤ s.rd (GOV_DOM_STATUS.FAILS d) + 1 := by omega
  simp only [State.law, decide_eq_true hbad, Bool.true_or, if_true, hcap, hlast]

/-! ## GOV_RESUME (R449) -/

/-- The state GOV_RESUME leaves of a SAFE domain. -/
def State.resumed (s : State) (d : Fin 96) : State :=
  (((s.setDom d Dom.on).wr (GOV_DOM_STATUS.FAILS d) 0).wr (GOV_DOM_INT.I d) 0).wr (GOV_DOM_STATUS.N d)
    (((s.setDom d Dom.on).wr (GOV_DOM_STATUS.FAILS d) 0).phMax d)

theorem exec_govResume_safe {d : Fin 96} (h : s.domSt d = Dom.safe) : exec (.govResume d) s = .next (s.resumed d) := if_pos h

theorem State.resumed_reads (s : State) (d : Fin 96) : (s.resumed d).domSt d = Dom.on ∧
    (s.resumed d).rd (GOV_DOM_STATUS.FAILS d) = 0 ∧ (s.resumed d).rd (GOV_DOM_INT.I d) = 0 ∧
    (s.resumed d).rd (GOV_DOM_STATUS.N d) = s.phMax d % 16 := by
  have hd := d.isLt
  have hphMax : ((s.setDom d Dom.on).wr (GOV_DOM_STATUS.FAILS d) 0).phMax d = s.phMax d := by
    rw [State.phMax, State.phMax, State.rd_wr_reg _ _ (by simp only [GOV_PH_MAX.VALUE, GOV_DOM_STATUS.FAILS]; omega) (Fld.lo_lt rfl)
      (Fld.lo_lt rfl), State.rd_setDom_gov _ hd _ (Fld.lo_lt rfl) (by simp only [GOV_PH_MAX.VALUE]; omega)]
  rw [State.resumed, hphMax]
  refine ⟨?_, ?_, ?_, State.rd_wr_self ..⟩
  · refine (State.domSt_wr_gov _ hd _ (Fld.lo_lt rfl) ?_).trans ((State.domSt_wr_gov _ hd _ (Fld.lo_lt rfl) ?_).trans
      ((State.domSt_wr_gov _ hd _ (Fld.lo_lt rfl) ?_).trans (State.domSt_setDom _ hd (by decide))))
    · simp only [GOV_DOM_STATUS.N]
      omega
    · simp only [GOV_DOM_INT.I]
      omega
    · simp only [GOV_DOM_STATUS.FAILS]
      omega
  · rw [State.rd_wr_ne _ _ (by simp only [Fld.key, GOV_DOM_STATUS.FAILS, GOV_DOM_STATUS.N]; omega),
      State.rd_wr_ne _ _ (by simp only [Fld.key, GOV_DOM_STATUS.FAILS, GOV_DOM_INT.I]; omega), State.rd_wr_self]
    rfl
  · rw [State.rd_wr_ne _ _ (by simp only [Fld.key, GOV_DOM_INT.I, GOV_DOM_STATUS.N]; omega), State.rd_wr_self]
    rfl

end

/-- Settles O42: the equation of each command under the clause's hypotheses; a clause about what the command leaves goes on with
what its operation leaves. -/
theorem supplyDomainsAndGovernor : Obligations.SupplyDomainsAndGovernor := by
  unfold Obligations.SupplyDomainsAndGovernor
  refine ⟨?divider, ?dividerReads, ?dividerRefused, ?refclk, ?refclkReads, ?unlocked, ?onStopped, ?onOff, ?onOther, ?off, ?offQuiet,
    ?offBusy, ?offTripped, ?rampReads, ?ramp, ?rampStopped, ?rampFour, ?timeout, ?timeoutNot, ?rampEnds, ?rampSample, ?dead, ?law,
    ?safeKeeps, ?lawFirst, ?noLawFirst, ?noLaw, ?trip, ?implausible, ?resume, ?resumeReads, ?resumeNot⟩
  case divider => exact fun s o core div ht ha hd => exec_coreDividerWrite_taken ht ha core hd
  case dividerReads =>
    intro s o core div ht ha hd hfloor hthrottle
    have heffective : (CLK_CORE.DIV core).key ≠ (CLK_CORE.EFFECTIVE core).key := by
      simp only [Fld.key, CLK_CORE.DIV, CLK_CORE.EFFECTIVE]
      omega
    have hfl : (CLK_CORE.FLOOR core).key ≠ (CLK_CORE.DIV core).key := by
      simp only [Fld.key, CLK_CORE.FLOOR, CLK_CORE.DIV]
      omega
    have hth : (CLK_CORE.THROTTLE core).key ≠ (CLK_CORE.DIV core).key := by
      simp only [Fld.key, CLK_CORE.THROTTLE, CLK_CORE.DIV]
      omega
    have hdiv : div % 2 ^ (CLK_CORE.DIV core).w = div := Nat.mod_eq_of_lt (Nat.lt_succ_of_le (hd.trans (by decide)))
    refine ⟨_, exec_coreDividerWrite_taken ht ha core hd, ?_, ?_, rfl, rfl, fun f hf heff => ?_⟩
    · rw [State.coreDiv, State.rd_wr_ne _ _ heffective, State.rd_wr_self, hdiv]
    · rw [State.rd_coreDiv_self, State.rd_wr_self, State.rd_wr_ne _ _ hfl, State.rd_wr_ne _ _ hth, hdiv]
      exact Nat.mod_eq_of_lt (by omega)
    · rw [State.coreDiv, State.rd_wr_ne _ _ heff, State.rd_wr_ne _ _ hf]
  case dividerRefused => exact fun s o core div ht ha hd => exec_coreDividerWrite_refused ht ha core hd
  case refclk =>
    rintro s t h rfl
    rw [exec_refclkLoss_locked h, State.refclkStopped, State.refclkLost]
  case refclkReads =>
    intro s h
    obtain ⟨hpll, hok, hosc⟩ := s.rd_refclkLost
    obtain ⟨hstopped, hrefclk, hmem, hotp⟩ := s.refclkStopped_fields
    exact ⟨s.refclkStopped, exec_refclkLoss_locked h, fun d hd => s.domSt_refclkStopped hd,
      (s.rd_refclkStopped_clk rfl (by decide) (by decide +kernel)).trans hpll,
      (s.rd_refclkStopped_clk rfl (by decide) (by decide +kernel)).trans hok,
      (s.rd_refclkStopped_clk rfl (by decide) (by decide +kernel)).trans hosc, hstopped, hrefclk, hmem, hotp⟩
  case unlocked =>
    intro s h
    exact if_pos (by rw [h]; rfl)
  case onStopped => exact fun s d h => if_pos h
  case onOff => exact fun s d hs h => ⟨exec_domainOnRequest_off d hs h, mem_insertAsc _ _⟩
  case onOther => exact fun s d hs h => exec_domainOnRequest_on d hs h
  case off => exact fun s o d hart ht ha => exec_domainOffRequest ht ha d hart
  case offQuiet =>
    intro s o d hart ht ha hd hq
    obtain ⟨hoff, hreq, hmem, hother⟩ := (s.wr (PWR_DOM.REQ_ON d) 0).domOff_fields d.isLt
    refine ⟨_, (exec_domainOffRequest ht ha d hart).trans (congrArg _ (State.requestOff_quiet hd hq)), hoff, ?_, hmem, fun e he => ?_⟩
    · rw [hreq, State.rd_wr_self]
      rfl
    · rw [hother e (fun h => he (Fin.ext h)), State.domSt_wr_reqOn]
  case offBusy =>
    intro s o d hart ht ha hd hq
    have hlt := d.isLt
    refine ⟨(exec_domainOffRequest ht ha d hart).trans (congrArg _ (State.requestOff_busy hd hq hlt)), ?_⟩
    rw [State.domSt, State.rd_unitErr _ _ _ _ _ (Fld.lo_lt rfl) ?_ ⟨Fld.lo_lt rfl, .inl ?_⟩, State.rd_wr_ne _ _ ?_]
    · exact hd
    · simp only [Fld.key, PWR_DOM.STATE, PWR_DOM.REFUSED]
      omega
    · have hbase : unitBase .pwr = 0x800000 := rfl
      simp only [PWR_DOM.STATE, hbase]
      omega
    · simp only [PWR_DOM.STATE]
      omega
  case offTripped =>
    intro s o d hart ht ha hd
    obtain ⟨hoff, hreq, _⟩ := (s.wr (PWR_DOM.REQ_ON d) 0).domOff_fields d.isLt
    refine ⟨_, (exec_domainOffRequest ht ha d hart).trans (congrArg _ (State.requestOff_tripped hd)), hoff, ?_⟩
    rw [hreq, State.rd_wr_self]
    rfl
  case rampReads =>
    intro s d rest hw hd hs hc
    refine ⟨_, exec_domainRampAdmit_admitted hw hs hc rfl rfl, ?_, rfl, ?_, rfl⟩
    · refine (State.domSt_wr_gov _ hd _ (Fld.lo_lt rfl) ?_).trans ((State.domSt_wr_gov _ hd _ (Fld.lo_lt rfl) ?_).trans
        (State.domSt_setDom _ hd (by decide)))
      · simp only [GOV_DOM_STATUS.CREF]
        omega
      · simp only [GOV_DOM_STATUS.N]
        omega
    · refine (State.rd_wr_ne _ _ ?_).trans ((State.rd_wr_self ..).trans (Nat.mod_eq_of_lt (pwrPhases_lt d)))
      simp only [Fld.key, GOV_DOM_STATUS.CREF, GOV_DOM_STATUS.N]
      omega
  case ramp => exact fun s d rest t u hw hs hc ht hu => exec_domainRampAdmit_admitted hw hs hc ht hu
  case rampStopped => exact fun s d rest hw hs => exec_domainRampAdmit_waits hw (.inr hs)
  case rampFour => exact fun s d rest hw hc => exec_domainRampAdmit_waits hw (.inl hc)
  case timeout => exact fun s d hd hdue => if_pos ⟨hd, hdue⟩
  case timeoutNot =>
    intro s d h
    exact exec_rampTimeout_not fun hboth => Bool.false_ne_true (h.symm.trans hboth.2)
  case rampEnds =>
    intro s d vmeas isense jobs u hu hramp h1 h2 hb
    obtain ⟨hon, hi, hfails, hby⟩ := State.rampSample_ends d.isLt h1 h2 hb
    refine ⟨_, exec_governorSample_ramp jobs hu hramp, hon, hi, hfails, hby.trans ?_⟩
    rw [show u.sup.rampBy = s.sup.rampBy from (congrArg (fun u : State => u.sup.rampBy) hu).trans (s.sampled_rampBy d vmeas isense)]
  case rampSample => exact fun s d vmeas isense jobs u hu h => exec_governorSample_ramp jobs hu h
  case dead => exact fun s d vmeas isense jobs u hu h => exec_governorSample_dead jobs hu h
  case law =>
    intro s d vmeas isense jobs u hu hon hen h1 h2
    have hin := State.not_strays_of h1 h2
    refine (exec_governorSample_stays jobs hu (.inl hon) (.inl hin)).trans ((if_pos ⟨hon, hen⟩).trans ?_)
    rw [State.breachNoted, hin, if_neg Bool.false_ne_true]
  case safeKeeps =>
    intro s d vmeas isense jobs u hu hsafe h1 h2
    have hon : ¬ (u.domSt d = Dom.on ∧ u.on GOV_CTL.EN = true) := fun h => absurd (hsafe.symm.trans h.1) (by decide)
    refine ⟨_, (exec_governorSample_stays jobs hu (.inr hsafe) (.inl (State.not_strays_of h1 h2))).trans (if_neg hon), hsafe, ?_, ?_, ?_⟩
    · subst hu
      exact s.rd_sampled d vmeas isense (by simp only [Fld.key, GOV_DOM_INT.I, GOV_DOM_STATUS.VMEAS]; omega)
        (by simp only [Fld.key, GOV_DOM_INT.I, GOV_DOM_STATUS.ISENSE]; omega)
        (by simp only [Fld.key, GOV_DOM_INT.I, GOV_VREF.VREF]; omega)
        (by simp only [Fld.key, GOV_DOM_INT.I, GOV_DOM_STATUS.STEPPING]; omega)
    · subst hu
      exact s.rd_sampled d vmeas isense (by simp only [Fld.key, GOV_DOM_STATUS.N, GOV_DOM_STATUS.VMEAS]; omega)
        (by simp only [Fld.key, GOV_DOM_STATUS.N, GOV_DOM_STATUS.ISENSE]; omega)
        (by simp only [Fld.key, GOV_DOM_STATUS.N, GOV_VREF.VREF]; omega)
        (by simp only [Fld.key, GOV_DOM_STATUS.N, GOV_DOM_STATUS.STEPPING]; omega)
    · subst hu
      exact s.rd_sampled d vmeas isense (by simp only [Fld.key, GOV_DOM_STATUS.CREF, GOV_DOM_STATUS.VMEAS]; omega)
        (by simp only [Fld.key, GOV_DOM_STATUS.CREF, GOV_DOM_STATUS.ISENSE]; omega)
        (by simp only [Fld.key, GOV_DOM_STATUS.CREF, GOV_VREF.VREF]; omega)
        (by simp only [Fld.key, GOV_DOM_STATUS.CREF, GOV_DOM_STATUS.STEPPING]; omega)
  case lawFirst =>
    rintro s d vmeas isense jobs u w hu hon hen hout hb rfl
    refine (exec_governorSample_stays jobs hu (.inl hon) (.inr hb)).trans ((if_pos ⟨hon, hen⟩).trans ?_)
    rw [State.breachNoted, State.strays_of hout, if_pos rfl]
  case noLawFirst =>
    intro s d vmeas isense jobs u hu hst hout hb
    have hno : ¬ (u.domSt d = Dom.on ∧ u.on GOV_CTL.EN = true) := governor_idle hst
    refine (exec_governorSample_stays jobs hu (hst.symm.imp_left And.left) (.inr hb)).trans ((if_neg hno).trans ?_)
    rw [State.breachNoted, State.strays_of hout, if_pos rfl]
  case noLaw =>
    intro s d vmeas isense jobs u hu hst h1 h2
    have hin := State.not_strays_of h1 h2
    have hno : ¬ (u.domSt d = Dom.on ∧ u.on GOV_CTL.EN = true) := governor_idle hst
    refine (exec_governorSample_stays jobs hu (hst.symm.imp_left And.left) (.inl hin)).trans ((if_neg hno).trans ?_)
    rw [State.breachNoted, hin, if_neg Bool.false_ne_true]
  case trip => exact fun s d vmeas isense jobs u hu hst hout hb => exec_governorSample_trip jobs hu hst (State.strays_of hout) hb
  case implausible =>
    intro s d v i hd hbad hn hmax
    obtain ⟨hsafe, hphases, hint⟩ := (s.wr (GOV_DOM_STATUS.FAILS d) (s.rd (GOV_DOM_STATUS.FAILS d) + 1)).enterSafe_reads hd
    rw [State.law_implausible hbad hn hmax]
    refine ⟨rfl, hsafe, hphases.trans (Nat.mod_eq_of_lt (pwrPhases_lt d)), hint.trans (State.rd_wr_ne _ _ ?_)⟩
    simp only [Fld.key, GOV_DOM_INT.I, GOV_DOM_STATUS.FAILS]
    omega
  case resume => exact fun s d h => exec_govResume_safe h
  case resumeReads =>
    intro s d h
    obtain ⟨hon, hfails, hint, hphases⟩ := s.resumed_reads d
    exact ⟨_, exec_govResume_safe h, hon, hfails, hint, hphases, rfl⟩
  case resumeNot => exact fun s d h => if_neg h

end Sys2Proof.Machine
end

section
/-! Sensor readings and the thermal trip, the Witness's measurement passes, a core retired (R453 to R459). -/
namespace Sys2Proof.Machine
open Sys2Proof

/-! ## Changes in one unit's window, with the events they record -/

/-- A change of the registers from `lo` to `hi`, of the Drawer and of what recording events touches. -/
structure State.WindowChange (lo hi : Nat) (s t : State) : Prop where
  rest : t = { s with csr := t.csr, tally := t.tally, pins := t.pins, bus := t.bus, drw := t.drw, draws := t.draws }
  pins : t.pins = { s.pins with eventOut := t.pins.eventOut }
  rd : ∀ g : Fld, outsideTally g → (g.reg < lo ∨ hi ≤ g.reg) → t.rd g = s.rd g

section
variable {lo hi : Nat} {s t u : State}

theorem State.WindowChange.refl (s : State) : s.WindowChange lo hi s := ⟨rfl, rfl, fun _ _ _ => rfl⟩

theorem State.WindowChange.trans (h : s.WindowChange lo hi t) (k : t.WindowChange lo hi u) : s.WindowChange lo hi u :=
  ⟨by rw [k.rest, h.rest], by rw [k.pins, h.pins], fun g hg ho => (k.rd g hg ho).trans (h.rd g hg ho)⟩

theorem State.windowChange_wr (s : State) {f : Fld} (v : Nat) (hf : f.lo < 64) (h : lo ≤ f.reg ∧ f.reg < hi) :
    s.WindowChange lo hi (s.wr f v) :=
  ⟨rfl, rfl, fun _ hg ho => s.rd_wr_reg v (by omega) hg.1 hf⟩

theorem State.TallyChange.window (h : s.TallyChange t) : s.WindowChange lo hi t := by
  refine ⟨?_, h.pins, fun g hg _ => h.rd g hg⟩
  rw [h.rest]

theorem State.windowChange_raise (s : State) (code : Nat) (u : Option UnitId) (inst : Option Nat) (args : List Nat)
    (origin : Option Nat) : s.WindowChange lo hi (s.raise code u inst args origin) :=
  (s.raise_change code u inst args origin).window

theorem State.windowChange_foldl {α : Type} {f : State → α → State} (l : List α)
    (h : ∀ s : State, ∀ a ∈ l, s.WindowChange lo hi (f s a)) (s : State) : s.WindowChange lo hi (l.foldl f s) := by
  induction l generalizing s with
  | nil => exact .refl s
  | cons a l ih =>
    exact (h s a List.mem_cons_self).trans (ih (fun s b hb => h s b (List.mem_cons_of_mem a hb)) _)

theorem State.WindowChange.mem_eq (h : s.WindowChange lo hi t) : t.mem = s.mem := by rw [h.rest]

theorem State.WindowChange.sup_eq (h : s.WindowChange lo hi t) : t.sup = s.sup := by rw [h.rest]

theorem State.WindowChange.thermTripN_eq (h : s.WindowChange lo hi t) : t.pins.thermTripN = s.pins.thermTripN := by rw [h.pins]

end

/-! ## Sensor readings (R453) -/

/-- The sensors read and the hottest of them shown. -/
def State.sensed (s : State) (temps : List Int) : State :=
  match hottest temps with
  | some m => ({ s with sup := { s.sup with sensors := temps } } : State).wr WIT_STATUS.TJ_MAX (ofSigned m 8)
  | none => { s with sup := { s.sup with sensors := temps } }

/-- The six clusters throttled after a reading. -/
def State.throttled (s : State) (temps : List Int) : State := (List.range 6).foldl (fun s c => s.throttleCluster temps c) s

theorem State.sensed_of_some (s : State) {temps : List Int} {m : Int} (h : hottest temps = some m) :
    s.sensed temps = ({ s with sup := { s.sup with sensors := temps } } : State).wr WIT_STATUS.TJ_MAX (ofSigned m 8) := by
  rw [State.sensed, h]

theorem State.sensed_rest (s : State) (temps : List Int) :
    ∃ c, s.sensed temps = { s with csr := c, sup := { s.sup with sensors := temps } } := by
  rw [State.sensed]
  cases hottest temps
  · exact ⟨s.csr, rfl⟩
  · exact ⟨_, rfl⟩

theorem State.windowChange_throttleCluster (s : State) (temps : List Int) {c : Nat} (hc : c < 6) :
    s.WindowChange 0x601000 0x601180 (s.throttleCluster temps c) := by
  rw [State.throttleCluster]
  split
  · exact .refl s
  · dsimp only
    split
    · exact .refl s
    · refine .trans (State.windowChange_foldl _ (fun t i hi => ?_) s) (State.windowChange_raise ..)
      have hi := List.mem_range.1 hi
      refine .trans (t.windowChange_wr _ (Fld.lo_lt rfl) ?_) (State.windowChange_wr _ _ (Fld.lo_lt rfl) ?_)
      · simp only [CLK_CORE.THROTTLE]
        omega
      · simp only [CLK_CORE.EFFECTIVE]
        omega

theorem State.windowChange_throttled (s : State) (temps : List Int) : s.WindowChange 0x601000 0x601180 (s.throttled temps) :=
  State.windowChange_foldl _ (fun s _ hc => s.windowChange_throttleCluster temps (List.mem_range.1 hc)) s

/-- The state in which a reading of 115 degrees has tripped the head. -/
def State.tripped (s : State) : State :=
  ((({ s with pins := { s.pins with thermTripN := false } } : State).raise Ev.thermTrip (some .wit)).wr
    PWR_RESET_CAUSE.TRIP_SEEN 1).abdicate 5

theorem exec_thermalRead (temps : List Int) (s : State) : exec (.thermalRead temps) s =
    if temps.any (fun t => decide (115 ≤ t)) && ((s.sensed temps).throttled temps).pins.thermTripN then
      .next (({ ((s.sensed temps).throttled temps).tripped with sup := { ((s.sensed temps).throttled temps).tripped.sup with
        tripOff := some (((s.sensed temps).throttled temps).tripped.now + 1600000) } } : State).wired 2)
    else .next ((s.sensed temps).throttled temps) := rfl

/-- What a reading below 115 degrees leaves, and what it shows. -/
theorem State.throttled_sensed_kept (s : State) (temps : List Int) :
    ((s.sensed temps).throttled temps).sup.sensors = temps ∧
      ((s.sensed temps).throttled temps).pins.thermTripN = s.pins.thermTripN ∧
      ((s.sensed temps).throttled temps).mem = s.mem ∧ ((s.sensed temps).throttled temps).sup.tripOff = s.sup.tripOff := by
  have h := (s.sensed temps).windowChange_throttled temps
  obtain ⟨c, hc⟩ := s.sensed_rest temps
  rw [h.sup_eq, h.thermTripN_eq, h.mem_eq, hc]
  exact ⟨rfl, rfl, rfl, rfl⟩

theorem State.rd_tjMax_throttled (s : State) {temps : List Int} {m : Int} (h : hottest temps = some m) :
    ((s.sensed temps).throttled temps).rd WIT_STATUS.TJ_MAX = ofSigned m 8 % 256 := by
  rw [((s.sensed temps).windowChange_throttled temps).rd _ ⟨by decide, by decide⟩ (by decide), s.sensed_of_some h,
    State.rd_wr_self]
  rfl

/-! ## The power-off 1 ms after a trip (R453, R490) -/

theorem exec_thermalTripPoweroff (s : State) : exec .thermalTripPoweroff s =
    if s.due s.sup.tripOff then .next { s.headStopped with sup := { s.headStopped.sup with tripOff := none } } else .next s := rfl

/-! ## Measurement passes (R454, R455) -/

/-- A pass begun at mark 0. -/
def State.passBegun (s : State) : State := { s.wr WIT_STATUS.BUSY 1 with sup := { s.sup with nextMark := some 0, skipped := [] } }

theorem State.on_busy_passBegun (s : State) : s.passBegun.on WIT_STATUS.BUSY = true := by
  have h : s.passBegun.rd WIT_STATUS.BUSY = 1 := s.rd_wr_self WIT_STATUS.BUSY 1
  rw [State.on, h]
  rfl

theorem State.startPass_idle {s : State} (he : s.on WIT_CTL.EN = true) (hb : s.on WIT_STATUS.BUSY = false) :
    s.startPass = s.passBegun := by
  simp only [State.startPass, he, hb, Bool.not_true, Bool.or_false, Bool.false_eq_true, if_false]
  rfl

theorem State.startPass_stays {s : State} (h : s.on WIT_STATUS.BUSY = true ∨ s.on WIT_CTL.EN = false) : s.startPass = s := by
  rw [State.startPass]
  exact if_pos (by rcases h with h | h <;> simp [h])

theorem exec_witnessPassStart (s : State) : exec .witnessPassStart s =
    if s.due s.sup.passAt then
      .next ({ s with sup := { s.sup with passAt := some (s.inMgmt (s.rd WIT_CTL.PERIOD)) } } : State).startPass
    else .next s := rfl

theorem exec_measureNow_admitted {s : State} {origin : Origin} (ha : s.admits .wit origin = true) :
    exec (.measureNow origin) s = .next (s.journaled s.startPass origin WIT_CTL.MEASURE_NOW 1) :=
  congrArg Host.Outcome.next (State.cfgField_admitted ha ..)

/-! ## A mark measured (R455) -/

theorem State.measure_of_skipped {s : State} {m : Nat} (h : s.markSkipped m = true) (n : Nat) (t : Int) : s.measure m n t =
    { s with sup := { s.sup with skipped := if s.sup.skipped.contains m then s.sup.skipped else m :: s.sup.skipped } } :=
  if_pos h

/-- The count of a mark recorded. -/
def State.markCounted (s : State) (m n : Nat) : State :=
  ({ s with sup := { s.sup with late := s.sup.late.filter (· != m) } } : State).wr (WIT_MARK.COUNT m) n

/-- The degradation of a mark recorded after its count. -/
def State.graded (s : State) (m n : Nat) (t : Int) : State :=
  match s.markDegr m n t with
  | some g => s.wr (WIT_MARK.DEGR m) g
  | none => s.draw.wr (WIT_MARK.DEGR m) (s.freeWord % 2 ^ 20)

theorem State.measure_of_not_skipped {s : State} {m : Nat} (h : s.markSkipped m = false) (n : Nat) (t : Int) :
    s.measure m n t = ((s.markCounted m n).graded m n t).wr (WIT_MARK.EXCLUDED m) 0 := by
  rw [State.measure, h]
  rfl

theorem State.graded_cases (s : State) (m n : Nat) (t : Int) :
    ∃ v, s.graded m n t = s.wr (WIT_MARK.DEGR m) v ∨ s.graded m n t = s.draw.wr (WIT_MARK.DEGR m) v := by
  rw [State.graded]
  cases s.markDegr m n t with
  | some g => exact ⟨g, .inl rfl⟩
  | none => exact ⟨_, .inr rfl⟩

theorem State.measure_rest (s : State) (m n : Nat) (t : Int) :
    ∃ c su d, s.measure m n t = { s with csr := c, sup := su, draws := d } := by
  cases h : s.markSkipped m with
  | true => exact ⟨_, _, _, State.measure_of_skipped h n t⟩
  | false =>
    rw [State.measure_of_not_skipped h]
    obtain ⟨v, hv | hv⟩ := (s.markCounted m n).graded_cases m n t <;> rw [hv] <;> exact ⟨_, _, _, rfl⟩

theorem State.measure_now_mem_cool (s : State) (m n : Nat) (t : Int) :
    (s.measure m n t).now = s.now ∧ (s.measure m n t).mem = s.mem ∧ (s.measure m n t).cool = s.cool := by
  obtain ⟨c, su, d, h⟩ := s.measure_rest m n t
  rw [h]
  exact ⟨rfl, rfl, rfl⟩

/-- Measuring a mark changes the register of that mark alone. -/
theorem State.rd_measure_ne (s : State) {m : Nat} (n : Nat) (t : Int) {g : Fld} (hlo : g.lo < 64)
    (hg : g.reg ≠ 0xE602000 + m * 0x8) : (s.measure m n t).rd g = s.rd g := by
  cases h : s.markSkipped m with
  | true => rw [State.measure_of_skipped h]; rfl
  | false =>
    rw [State.measure_of_not_skipped h, State.rd_wr_reg _ _ hg hlo (Fld.lo_lt rfl)]
    have hcount : (s.markCounted m n).rd g = s.rd g :=
      State.rd_wr_reg _ _ hg hlo (Fld.lo_lt rfl)
    obtain ⟨v, hv | hv⟩ := (s.markCounted m n).graded_cases m n t <;> rw [hv, State.rd_wr_reg _ _ hg hlo (Fld.lo_lt rfl)]
    · exact hcount
    · exact hcount

theorem State.rd_measure_count {s : State} {m : Nat} (h : s.markSkipped m = false) (n : Nat) (t : Int) :
    (s.measure m n t).rd (WIT_MARK.COUNT m) = n % 2 ^ (WIT_MARK.COUNT m).w := by
  have hexcl : (WIT_MARK.COUNT m).key ≠ (WIT_MARK.EXCLUDED m).key := by
    simp only [Fld.key, WIT_MARK.COUNT, WIT_MARK.EXCLUDED]; omega
  have hdegr : (WIT_MARK.COUNT m).key ≠ (WIT_MARK.DEGR m).key := by
    simp only [Fld.key, WIT_MARK.COUNT, WIT_MARK.DEGR]; omega
  rw [State.measure_of_not_skipped h, State.rd_wr_ne _ _ hexcl]
  obtain ⟨v, hv | hv⟩ := (s.markCounted m n).graded_cases m n t <;> rw [hv, State.rd_wr_ne _ _ hdegr]
  · exact State.rd_wr_self _ _ _
  · exact State.rd_wr_self _ _ _

theorem markDomain_lt (m : Nat) : markDomain m < 0x300 := by
  simp only [markDomain]
  grind

/-- Whether a mark is skipped is read from registers below the Witness's marks and from the retired slices. -/
theorem State.markSkipped_of_kept {s t : State} (hrd : ∀ g : Fld, g.lo < 64 → g.reg < 0xE602000 → t.rd g = s.rd g)
    (hcool : t.cool = s.cool) (m : Nat) : t.markSkipped m = s.markSkipped m := by
  have hm := markDomain_lt m
  have hdom : t.domSt (markDomain m) = s.domSt (markDomain m) :=
    hrd _ (Fld.lo_lt rfl) (by simp only [PWR_DOM.STATE]; omega)
  have hcore : m < 192 → t.on (CLK_CORE.RETIRED (m / 4)) = s.on (CLK_CORE.RETIRED (m / 4)) := fun h => by
    rw [State.on, State.on, hrd _ (Fld.lo_lt rfl) (by simp only [CLK_CORE.RETIRED]; omega)]
  rw [State.markSkipped, State.markSkipped, State.sliceRetired, State.sliceRetired, hdom, hcool]
  by_cases h : m < 192
  · rw [hcore h]
  · simp only [h, decide_false, Bool.false_and]

/-- The marks `m` to `m + n - 1` measured. -/
def State.measureRun (s : State) (m : Nat) (marks : List (Nat × Int)) (n : Nat) : State :=
  (List.range n).foldl (fun s i => s.measure (m + i) (marks.getD i (0, 0)).1 (marks.getD i (0, 0)).2) s

theorem State.measureRun_succ (s : State) (m : Nat) (marks : List (Nat × Int)) (n : Nat) : s.measureRun m marks (n + 1) =
    (s.measureRun m marks n).measure (m + n) (marks.getD n (0, 0)).1 (marks.getD n (0, 0)).2 := by
  simp only [State.measureRun, List.range_succ, List.foldl_append, List.foldl_cons, List.foldl_nil]

theorem State.measureRun_now_mem_cool (s : State) (m : Nat) (marks : List (Nat × Int)) (n : Nat) :
    (s.measureRun m marks n).now = s.now ∧ (s.measureRun m marks n).mem = s.mem ∧ (s.measureRun m marks n).cool = s.cool := by
  induction n with
  | zero => exact ⟨rfl, rfl, rfl⟩
  | succ n ih =>
    obtain ⟨hnow, hmem, hcool⟩ := (s.measureRun m marks n).measure_now_mem_cool (m + n) (marks.getD n (0, 0)).1
      (marks.getD n (0, 0)).2
    obtain ⟨ihnow, ihmem, ihcool⟩ := ih
    rw [s.measureRun_succ]
    exact ⟨hnow.trans ihnow, hmem.trans ihmem, hcool.trans ihcool⟩

theorem State.rd_measureRun_low (s : State) (m : Nat) (marks : List (Nat × Int)) (n : Nat) (g : Fld) (hlo : g.lo < 64)
    (hg : g.reg < 0xE602000) : (s.measureRun m marks n).rd g = s.rd g := by
  induction n with
  | zero => rfl
  | succ n ih =>
    rw [s.measureRun_succ, State.rd_measure_ne _ _ _ hlo (by omega)]
    exact ih

theorem State.rd_measureRun_count (s : State) (m : Nat) (marks : List (Nat × Int)) (n : Nat) :
    ∀ i < n, s.markSkipped (m + i) = false → (s.measureRun m marks n).rd (WIT_MARK.COUNT (m + i)) =
      (marks.getD i (0, 0)).1 % 2 ^ (WIT_MARK.COUNT (m + i)).w := by
  induction n with
  | zero => exact fun _ h => absurd h (Nat.not_lt_zero _)
  | succ n ih =>
    intro i hi hs
    rw [s.measureRun_succ]
    by_cases h : i = n
    · subst h
      refine State.rd_measure_count ?_ _ _
      rw [State.markSkipped_of_kept (s.rd_measureRun_low m marks i) (s.measureRun_now_mem_cool m marks i).2.2]
      exact hs
    · rw [State.rd_measure_ne _ _ _ (Fld.lo_lt rfl) (by simp only [WIT_MARK.COUNT]; omega)]
      exact ih i (by omega) hs

theorem exec_markMeasurementDone_late {s : State} (h : s.sup.nextMark = none) (marks : List (Nat × Int)) :
    exec (.markMeasurementDone marks) s = .next ((s.sup.late.take 8).zipIdx.foldl
      (fun (s : State) (x : Nat × Nat) => s.measure x.1 (marks.getD x.2 (0, 0)).1 (marks.getD x.2 (0, 0)).2)
      { s with sup := { s.sup with late := s.sup.late.drop 8 } }) := by
  change execMarkMeasurementDone marks s = _
  rw [execMarkMeasurementDone, h]

theorem exec_markMeasurementDone_pass {s : State} {m : Nat} (h : s.sup.nextMark = some m) (marks : List (Nat × Int)) :
    exec (.markMeasurementDone marks) s =
      if m + 8 < 384 then
        .next { s.measureRun m marks 8 with sup := { (s.measureRun m marks 8).sup with nextMark := some (m + 8) } }
      else .next ({ s.measureRun m marks 8 with sup := { (s.measureRun m marks 8).sup with nextMark := none } } : State).replan := by
  change execMarkMeasurementDone marks s = _
  rw [execMarkMeasurementDone, h]
  rfl

/-! ## A core retired (R458, R459) -/

/-- The hart of a core stopped, its domain off and the core marked retired. -/
def State.coreOff (s : State) (core : Nat) : State :=
  ((({ s with sup := { s.sup with hartsStopped := insertAsc core s.sup.hartsStopped } } : State).wr (PWR_DOM.REQ_ON core) 0).setDom
    core Dom.off).wr (CLK_CORE.RETIRED core) 1

theorem exec_coreRetirement (s : State) (core : Fin 48) : exec (.coreRetirement core) s =
    if !s.bit WIT_RETIRE_CORE.REQ core then .next s else .next (s.coreOff core).countCoreEq.savePlan := rfl

theorem State.coreOff_sup_mem (s : State) (core : Nat) :
    (s.coreOff core).sup.hartsStopped = insertAsc core s.sup.hartsStopped ∧ (s.coreOff core).mem = s.mem := ⟨rfl, rfl⟩

theorem State.domSt_coreOff (s : State) {core : Nat} (hc : core < 48) : (s.coreOff core).domSt core = Dom.off := by
  have hk : (PWR_DOM.STATE core).key ≠ (CLK_CORE.RETIRED core).key := by
    simp only [Fld.key, PWR_DOM.STATE, CLK_CORE.RETIRED]; omega
  rw [State.domSt, State.coreOff, State.rd_wr_ne _ _ hk]
  exact State.domSt_setDom _ (by omega) (by decide)

theorem State.rd_reqOn_coreOff (s : State) {core : Nat} (hc : core < 48) : (s.coreOff core).rd (PWR_DOM.REQ_ON core) = 0 := by
  have hk : (PWR_DOM.REQ_ON core).key ≠ (CLK_CORE.RETIRED core).key := by
    simp only [Fld.key, PWR_DOM.REQ_ON, CLK_CORE.RETIRED]; omega
  have hst : (PWR_DOM.REQ_ON core).key ≠ (PWR_DOM.STATE core).key := by
    simp only [Fld.key, PWR_DOM.REQ_ON, PWR_DOM.STATE]; omega
  rw [State.coreOff, State.rd_wr_ne _ _ hk, State.rd_setDom_low _ _ _ hst (by simp only [PWR_DOM.REQ_ON]; omega) (Fld.lo_lt rfl),
    State.rd_wr_self]
  rfl

theorem State.rd_retired_coreOff (s : State) (core : Nat) : (s.coreOff core).rd (CLK_CORE.RETIRED core) = 1 := by
  rw [State.coreOff, State.rd_wr_self]
  rfl

/-- CORE_EQ counted: its register, and an event. -/
theorem State.windowChange_countCoreEq (s : State) : s.WindowChange 0xE600008 0xE600009 s.countCoreEq := by
  have hwr := s.windowChange_wr (lo := 0xE600008) (hi := 0xE600009) (f := WIT_STATUS.CORE_EQ) s.coreEq (Fld.lo_lt rfl) (by decide)
  simp only [State.countCoreEq]
  split
  · exact hwr.trans (State.windowChange_raise ..)
  · exact hwr

theorem State.rd_countCoreEq (s : State) : s.countCoreEq.rd WIT_STATUS.CORE_EQ = s.coreEq % 2 ^ WIT_STATUS.CORE_EQ.w := by
  simp only [State.countCoreEq]
  split
  · rw [State.rd_raise _ _ _ _ _ _ _ ⟨by decide, by decide⟩, State.rd_wr_self]
  · rw [State.rd_wr_self]

/-- Core equivalents are read from the cores' clock registers. -/
theorem State.coreEq_of_kept {s t : State} (h : ∀ g : Fld, g.lo < 64 → 0x601000 ≤ g.reg → g.reg < 0x601180 → t.rd g = s.rd g) :
    t.coreEq = s.coreEq := by
  rw [State.coreEq, State.coreEq]
  congr 1
  refine List.map_congr_left fun c hc => ?_
  have hc := List.mem_range.1 hc
  have hret := h (CLK_CORE.RETIRED c) (Fld.lo_lt rfl) (by simp only [CLK_CORE.RETIRED]; omega) (by simp only [CLK_CORE.RETIRED]; omega)
  have hfloor := h (CLK_CORE.FLOOR c) (Fld.lo_lt rfl) (by simp only [CLK_CORE.FLOOR]; omega) (by simp only [CLK_CORE.FLOOR]; omega)
  rw [State.on, State.on, hret, hfloor]

theorem State.windowChange_setActiveHalf (s : State) (h : Half) : s.WindowChange 0xE00000 0xE00009 (s.setActiveHalf h) := by
  rw [State.setActiveHalf]
  split
  · exact ⟨rfl, rfl, fun _ _ _ => rfl⟩
  · exact ⟨rfl, rfl, fun _ _ _ => rfl⟩

theorem State.windowChange_drwAppend (s : State) (r : GroupRec) : s.WindowChange 0xE00000 0xE00009 (s.drwAppend r) := by
  simp only [State.drwAppend]
  refine .trans ?_ (State.windowChange_setActiveHalf _ _)
  split
  · simp only [State.drwCompact]
    refine .trans ?_ (State.windowChange_raise ..)
    refine .trans ?_ (State.windowChange_setActiveHalf _ _)
    exact ((s.windowChange_setActiveHalf _).trans (State.windowChange_wr _ _ (by decide) (by decide))).trans
      (State.windowChange_wr _ _ (by decide) (by decide))
  · exact .refl s

theorem State.windowChange_drwCounts (s : State) : s.WindowChange 0xE00000 0xE00009 s.drwCounts :=
  (((s.windowChange_wr _ (by decide) (by decide)).trans (State.windowChange_wr _ _ (by decide) (by decide))).trans
    (State.windowChange_wr _ _ (by decide) (by decide))).trans (State.windowChange_wr _ _ (by decide) (by decide))

theorem State.windowChange_drw {lo hi : Nat} (s : State) (x : Drawer) : s.WindowChange lo hi { s with drw := x } :=
  ⟨rfl, rfl, fun _ _ _ => rfl⟩

/-- Keeping a settings group changes the Drawer and its registers. -/
theorem State.windowChange_keepGroup (s : State) (g format : Nat) (data : List Byte) :
    s.WindowChange 0xE00000 0xE00009 (s.keepGroup g format data) := by
  simp only [State.keepGroup]
  have h := s.windowChange_drwAppend { group := g, format := format, gen := s.activeHalf.nextGen g, data := data }
  generalize s.drwAppend _ = t at h ⊢
  exact (h.trans (t.windowChange_drw _)).trans (State.windowChange_drwCounts _)

/-- The plan's group kept. -/
def State.planKept (s : State) : State := s.draw.keepGroup 0x21 1 ((Config.planData s.draws).take 65536)

theorem State.windowChange_planKept (s : State) : s.WindowChange 0xE00000 0xE00009 s.planKept :=
  .trans (t := s.draw) ⟨rfl, rfl, fun _ _ _ => rfl⟩ (State.windowChange_keepGroup ..)

theorem State.savePlan_rest (s : State) : ∃ p, s.savePlan = { s.planKept with sup := { s.planKept.sup with plan := p } } := ⟨_, rfl⟩

/-- Saving the plan leaves the registers of the other units, memory and the harts. -/
theorem State.savePlan_kept (s : State) : (∀ g : Fld, outsideTally g → (g.reg < 0xE00000 ∨ 0xE00009 ≤ g.reg) → s.savePlan.rd g = s.rd g) ∧
    s.savePlan.mem = s.mem ∧ s.savePlan.sup.hartsStopped = s.sup.hartsStopped := by
  obtain ⟨p, hp⟩ := s.savePlan_rest
  have h := s.windowChange_planKept
  rw [hp]
  refine ⟨h.rd, h.mem_eq, ?_⟩
  change s.planKept.sup.hartsStopped = _
  rw [h.sup_eq]

theorem exec_coreRetirement_kept {s : State} {core : Fin 48} (h : s.bit WIT_RETIRE_CORE.REQ core = true) :
    ∃ t : State, exec (.coreRetirement core) s = .next t ∧ t.domSt core = Dom.off ∧ t.on (CLK_CORE.RETIRED core) = true ∧
      t.rd (PWR_DOM.REQ_ON core) = 0 ∧ t.sup.hartsStopped = insertAsc core s.sup.hartsStopped ∧
      t.rd WIT_STATUS.CORE_EQ = t.coreEq % 2 ^ WIT_STATUS.CORE_EQ.w ∧ t.mem = s.mem := by
  obtain ⟨hrd, hmem, hharts⟩ := (s.coreOff core).countCoreEq.savePlan_kept
  have hcount := (s.coreOff core).windowChange_countCoreEq
  have hboth : ∀ g : Fld, outsideTally g → g.reg < 0xE00000 → (s.coreOff core).countCoreEq.savePlan.rd g = (s.coreOff core).rd g :=
    fun g hg hr => (hrd g hg (.inl hr)).trans (hcount.rd g hg (.inl (by omega)))
  have hclk : (CLK_CORE.RETIRED core).reg < 0xE00000 := by simp only [CLK_CORE.RETIRED]; omega
  have hpwr : (PWR_DOM.STATE core).reg < 0xE00000 := by simp only [PWR_DOM.STATE]; omega
  refine ⟨_, by rw [exec_coreRetirement, h]; rfl, ?_, ?_, ?_, ?_, ?_, ?_⟩
  · rw [State.domSt, hboth _ ⟨Fld.lo_lt rfl, .inl (by omega)⟩ hpwr]
    exact s.domSt_coreOff core.isLt
  · rw [State.on, hboth _ ⟨Fld.lo_lt rfl, .inl (by omega)⟩ hclk, s.rd_retired_coreOff]
    rfl
  · have hreq : (PWR_DOM.REQ_ON core).reg < 0xE00000 := hpwr
    rw [hboth _ ⟨Fld.lo_lt rfl, .inl (by omega)⟩ hreq, s.rd_reqOn_coreOff core.isLt]
  · rw [hharts, hcount.sup_eq]
    exact (s.coreOff_sup_mem core).1
  · have heq : (s.coreOff core).countCoreEq.savePlan.coreEq = (s.coreOff core).coreEq :=
      State.coreEq_of_kept fun g hlo _ hg => hboth g ⟨hlo, .inl (by omega)⟩ (by omega)
    rw [hrd WIT_STATUS.CORE_EQ ⟨by decide, by decide⟩ (by decide), State.rd_countCoreEq, heq]
  · exact (hmem.trans hcount.mem_eq).trans (s.coreOff_sup_mem core).2

/-! ## The obligation -/

/-- Settles O43: each clause follows the branch its command takes, by the changes of the supply's and the Witness's operations. -/
theorem thermalSensingWitnessPassesRetirement : Obligations.ThermalSensingWitnessPassesRetirement := by
  unfold Obligations.ThermalSensingWitnessPassesRetirement
  refine ⟨?cool, ?coolState, ?trip, ?poweroff, ?poweroffState, ?poweroffEarly, ?passStart, ?passBegun, ?passEarly, ?now, ?nowStays,
    ?late, ?group, ?last, ?retireState, ?retire, ?retireOther⟩
  case cool =>
    intro s temps hcool
    obtain ⟨hsens, hpin, hmem, htrip⟩ := s.throttled_sensed_kept temps
    refine ⟨_, by rw [exec_thermalRead, hcool]; rfl, hsens, hpin, hmem, htrip, fun m hm => s.rd_tjMax_throttled hm⟩
  case coolState =>
    rintro s temps t u h ht rfl
    obtain rfl : t = s.sensed temps := ht
    rw [exec_thermalRead]
    refine if_neg ?_
    rw [Bool.and_eq_true, not_and_or]
    rcases h with h | h
    · exact .inl (by rw [h]; exact Bool.false_ne_true)
    · exact .inr (by rw [State.throttled, h]; exact Bool.false_ne_true)
  case trip =>
    rintro s temps m u hhot hpin hm rfl
    have hpins : ((s.sensed temps).throttled temps).pins.thermTripN = true := (s.throttled_sensed_kept temps).2.1.trans hpin
    rw [← s.sensed_of_some hm]
    refine ⟨_, rfl, ?_⟩
    rw [exec_thermalRead, hhot, hpins]
    rfl
  case poweroff =>
    intro s h
    obtain ⟨c, p, b, hrest⟩ := s.headStopped_rest
    have hoff : ∀ d, d < 96 → s.headStopped.domSt d = Dom.off := fun _ hd => s.domSt_headStopped hd
    rw [exec_thermalTripPoweroff, if_pos h]
    generalize s.headStopped = u at hrest hoff ⊢
    refine ⟨_, rfl, hoff, ?_, rfl, ?_⟩
    · rw [hrest]
      rfl
    · rw [hrest]
      rfl
  case poweroffState =>
    rintro s t h rfl
    rw [exec_thermalTripPoweroff, if_pos h]
  case poweroffEarly =>
    intro s h
    rw [exec_thermalTripPoweroff, h]
    rfl
  case passStart =>
    intro s h
    rw [exec_witnessPassStart, if_pos h]
  case passBegun =>
    intro s h he hb
    rw [exec_witnessPassStart, if_pos h, State.startPass_idle (s := { s with sup := { s.sup with passAt := some _ } }) he hb]
    refine ⟨_, rfl, ?_, rfl, rfl, rfl, rfl⟩
    exact State.on_busy_passBegun _
  case passEarly =>
    intro s h
    rw [exec_witnessPassStart, h]
    rfl
  case now =>
    intro s origin ha he hb
    rw [exec_measureNow_admitted ha, State.startPass_idle he hb]
    rfl
  case nowStays =>
    intro s origin ha h
    rw [exec_measureNow_admitted ha, State.startPass_stays h]
  case late =>
    rintro s marks t h rfl
    exact exec_markMeasurementDone_late h marks
  case group =>
    intro s marks m h hm
    obtain ⟨hnow, hmem, -⟩ := s.measureRun_now_mem_cool m marks 8
    refine ⟨_, rfl, ?_, hnow, hmem, s.rd_measureRun_count m marks 8⟩
    rw [exec_markMeasurementDone_pass h, if_pos hm]
    rfl
  case last =>
    intro s marks m h hm
    refine ⟨_, rfl, ?_⟩
    rw [exec_markMeasurementDone_pass h, if_neg (by omega)]
    rfl
  case retireState =>
    rintro s core t h rfl
    rw [exec_coreRetirement, h]
    rfl
  case retire =>
    intro s core h
    exact exec_coreRetirement_kept h
  case retireOther =>
    intro s core h
    rw [exec_coreRetirement, h]
    rfl

end Sys2Proof.Machine
end

section
/-! Cold and warm resets, what they clear and keep, and the boot that ends in the recovery jig (R435, R489 to R495). -/
namespace Sys2Proof.Machine
open Sys2Proof

/-! ## Registers of the always-on island kept -/

/-- The registers below the Clock's and the Power unit's end read the same in two states. -/
def State.LowRegs (s t : State) : Prop := ∀ g : Fld, g.lo < 64 → g.reg < 0xA02000 → t.rd g = s.rd g

section
variable {s t u : State}

theorem State.LowRegs.of_csr (h : t.csr = s.csr) : s.LowRegs t := fun _ _ _ => by rw [State.rd, h, State.rd]

theorem State.LowRegs.refl (s : State) : s.LowRegs s := .of_csr rfl

theorem State.LowRegs.trans (h : s.LowRegs t) (k : t.LowRegs u) : s.LowRegs u := fun g hlo hg => (k g hlo hg).trans (h g hlo hg)

theorem State.lowRegs_wr (s : State) {f : Fld} (v : Nat) (hf : f.lo < 64) (h : 0xA02000 ≤ f.reg) : s.LowRegs (s.wr f v) :=
  fun _ hlo hg => s.rd_wr_reg v (by omega) hlo hf

theorem State.LowRegs.wr (h : s.LowRegs t) {f : Fld} (v : Nat) (hf : f.lo < 64) (hr : 0xA02000 ≤ f.reg) : s.LowRegs (t.wr f v) :=
  h.trans (t.lowRegs_wr v hf hr)

theorem State.LowRegs.raise (h : s.LowRegs t) (code : Nat) (u : Option UnitId) (inst : Option Nat) (args : List Nat)
    (origin : Option Nat) : s.LowRegs (t.raise code u inst args origin) :=
  h.trans fun g hlo hg => t.rd_raise _ _ _ _ _ g ⟨hlo, .inl (by omega)⟩

theorem State.lowRegs_slotShow (s : State) (t : Nat) : s.LowRegs (s.slotShow t) := by
  have hslot : ∀ f : Fld, f.reg = 0xD200100 + (t - 1) * 0x8 ∨ f.reg = 0xD200140 + (t - 1) * 0x8 → 0xA02000 ≤ f.reg := by omega
  exact ((((State.LowRegs.refl s).wr _ (Fld.lo_lt rfl) (hslot _ (.inl rfl))).wr _ (Fld.lo_lt rfl) (hslot _ (.inl rfl))).wr _
    (Fld.lo_lt rfl) (hslot _ (.inl rfl))).wr _ (Fld.lo_lt rfl) (hslot _ (.inr rfl))

end

/-! ## A slot written -/

theorem State.slotShow_rest (s : State) (t : Nat) : ∃ c, s.slotShow t = { s with csr := c } := ⟨_, rfl⟩

theorem State.setSlot'_rest (s : State) (t : Nat) (x : JigSlot) : ∃ c j, s.setSlot' t x = { s with csr := c, jig := j } := ⟨_, _, rfl⟩

theorem State.lowRegs_setSlot' (s : State) (t : Nat) (x : JigSlot) : s.LowRegs (s.setSlot' t x) :=
  .trans (.of_csr (t := { s with jig := { s.jig with slots := Tab.set s.jig.slots t x } }) rfl) (State.lowRegs_slotShow _ t)

/-! ## Work under way torn (R500, R505) -/

theorem State.tearGroup_rest (s : State) (torn : Option (DescRef × Bool)) :
    ∃ w d, s.tearGroup torn = { s with drw := w, draws := d } := by
  simp only [State.tearGroup]
  split
  · exact ⟨_, _, rfl⟩
  · split
    · exact ⟨_, _, rfl⟩
    · rw [State.setActiveHalf]
      split
      · exact ⟨_, _, rfl⟩
      · exact ⟨_, _, rfl⟩

theorem State.tearBlock_cases (s : State) : s.tearBlock = s ∨ ∃ t x, s.tearBlock = s.draw.setSlot' t x := by
  simp only [State.tearBlock]
  split
  · split
    · exact .inr ⟨_, _, rfl⟩
    · exact .inl rfl
  · exact .inl rfl

theorem State.tearBlock_rest (s : State) : ∃ c j d, s.tearBlock = { s with csr := c, jig := j, draws := d } := by
  obtain h | ⟨t, x, h⟩ := s.tearBlock_cases
  · exact ⟨_, _, _, h⟩
  · obtain ⟨c, j, hs⟩ := s.draw.setSlot'_rest t x
    exact ⟨c, j, s.draws + 1, h.trans hs⟩

theorem State.lowRegs_tearBlock (s : State) : s.LowRegs s.tearBlock := by
  obtain h | ⟨t, x, h⟩ := s.tearBlock_cases
  · rw [h]
    exact .refl s
  · rw [h]
    exact .trans (.of_csr (t := s.draw) rfl) (State.lowRegs_setSlot' _ t x)

/-- The head as a cold reset meets it: work under way torn, the links of its blades down. -/
def State.torn (s : State) (torn : Option (DescRef × Bool)) : State := ((s.tearGroup torn).tearBlock).dropBladeLinks

theorem State.torn_rest (s : State) (torn : Option (DescRef × Bool)) :
    ∃ c j d w b, s.torn torn = { s with csr := c, jig := j, draws := d, drw := w, blades := b } := by
  obtain ⟨w, d, hg⟩ := s.tearGroup_rest torn
  obtain ⟨c, j, d', hb⟩ := (s.tearGroup torn).tearBlock_rest
  obtain ⟨b, hl⟩ := (s.tearGroup torn).tearBlock.dropBladeLinks_rest
  refine ⟨c, j, d', w, b, ?_⟩
  rw [State.torn, hl, hb, hg]

theorem State.torn_none_drw (s : State) : (s.torn none).drw = s.drw := by
  obtain ⟨c, j, d, hb⟩ := s.tearBlock_rest
  obtain ⟨b, hl⟩ := s.tearBlock.dropBladeLinks_rest
  change s.tearBlock.dropBladeLinks.drw = _
  rw [hl, hb]

theorem State.lowRegs_torn (s : State) (torn : Option (DescRef × Bool)) : s.LowRegs (s.torn torn) := by
  obtain ⟨w, d, hg⟩ := s.tearGroup_rest torn
  have hgroup : s.LowRegs (s.tearGroup torn) := .of_csr (by rw [hg])
  exact (hgroup.trans (State.lowRegs_tearBlock _)).trans fun g _ _ => State.rd_dropBladeLinks _ g

/-! ## Cold reset (R490, R491) -/

/-- The state after a cold reset but for the reset causes. -/
def State.coldBase (s : State) : State := { s.keepNor with
  boot := { cold := true, advance := s.boot.advance, before := s.wireNow }
  pins := { s.pins with hbOut := false, eventOut := false, perstN := 0, thermTripN := true } }

theorem State.coldReset_eq (s : State) (torn : Option (DescRef × Bool)) (last : Nat) : s.coldReset torn last =
    (((s.torn torn).coldBase.wr PWR_RESET_CAUSE.LAST last).wr PWR_RESET_CAUSE.REFCLK_SEEN
      ((s.torn torn).rd PWR_RESET_CAUSE.REFCLK_SEEN)).wr PWR_RESET_CAUSE.TRIP_SEEN ((s.torn torn).rd PWR_RESET_CAUSE.TRIP_SEEN) := by
  unfold State.coldReset State.coldBase State.torn
  with_reducible rfl

theorem State.coldBase_cleared (s : State) :
    s.coldBase.boot.cold = true ∧ s.coldBase.now = 0 ∧ s.coldBase.mem = [] ∧ s.coldBase.rings = [] := ⟨rfl, rfl, rfl, rfl⟩

theorem State.coldBase_kept (s : State) : s.coldBase.otp = s.otp ∧ s.coldBase.pending = s.pending ∧
    s.coldBase.drw = { half0 := s.drw.half0, half1 := s.drw.half1 } := ⟨rfl, rfl, rfl⟩

theorem State.coldReset_rest (s : State) (torn : Option (DescRef × Bool)) (last : Nat) :
    ∃ c, s.coldReset torn last = { (s.torn torn).coldBase with csr := c } := by
  rw [s.coldReset_eq]
  generalize (s.torn torn).coldBase = k
  exact ⟨_, rfl⟩

theorem State.coldReset_cleared (s : State) (torn : Option (DescRef × Bool)) (last : Nat) :
    (s.coldReset torn last).boot.cold = true ∧ (s.coldReset torn last).now = 0 ∧ (s.coldReset torn last).mem = [] ∧
      (s.coldReset torn last).rings = [] := by
  obtain ⟨c, h⟩ := s.coldReset_rest torn last
  rw [h]
  exact (s.torn torn).coldBase_cleared

theorem State.coldReset_kept (s : State) (torn : Option (DescRef × Bool)) (last : Nat) :
    (s.coldReset torn last).otp = s.otp ∧ (s.coldReset torn last).pending = s.pending ∧
      (s.coldReset torn last).drw = { half0 := (s.torn torn).drw.half0, half1 := (s.torn torn).drw.half1 } := by
  obtain ⟨c, h⟩ := s.coldReset_rest torn last
  obtain ⟨c', j, d, w, b, ht⟩ := s.torn_rest torn
  have hotp : (s.torn torn).otp = s.otp := by rw [ht]
  have hpend : (s.torn torn).pending = s.pending := by rw [ht]
  obtain ⟨hbotp, hbpend, hbdrw⟩ := (s.torn torn).coldBase_kept
  rw [h, ← hotp, ← hpend]
  generalize (s.torn torn).coldBase = k at hbotp hbpend hbdrw ⊢
  exact ⟨hbotp, hbpend, hbdrw⟩

theorem State.coldReset_halves (s : State) (last : Nat) :
    (s.coldReset none last).drw.half0 = s.drw.half0 ∧ (s.coldReset none last).drw.half1 = s.drw.half1 := by
  rw [(s.coldReset_kept none last).2.2, s.torn_none_drw]
  exact ⟨rfl, rfl⟩

theorem State.rd_coldReset_last (s : State) (torn : Option (DescRef × Bool)) (last : Nat) :
    (s.coldReset torn last).rd PWR_RESET_CAUSE.LAST = last % 2 ^ PWR_RESET_CAUSE.LAST.w := by
  rw [s.coldReset_eq, State.rd_wr_ne _ _ (by decide), State.rd_wr_ne _ _ (by decide), State.rd_wr_self]

theorem State.rd_coldReset_refclkSeen (s : State) (torn : Option (DescRef × Bool)) (last : Nat) :
    (s.coldReset torn last).rd PWR_RESET_CAUSE.REFCLK_SEEN =
      s.rd PWR_RESET_CAUSE.REFCLK_SEEN % 2 ^ PWR_RESET_CAUSE.REFCLK_SEEN.w := by
  rw [s.coldReset_eq, State.rd_wr_ne _ _ (by decide), State.rd_wr_self, s.lowRegs_torn torn _ (by decide) (by decide)]

/-- A cold reset leaves every register but the reset causes at its reset value. -/
theorem State.domSt_coldReset (s : State) (torn : Option (DescRef × Bool)) (last d : Nat) :
    (s.coldReset torn last).domSt d = Dom.off := by
  have hreg : (PWR_DOM.STATE d).reg ≠ 0xA00008 := by simp only [PWR_DOM.STATE]; omega
  rw [State.domSt, s.coldReset_eq, State.rd_wr_reg _ _ hreg (Fld.lo_lt rfl) (by decide),
    State.rd_wr_reg _ _ hreg (Fld.lo_lt rfl) (by decide), State.rd_wr_reg _ _ hreg (Fld.lo_lt rfl) (by decide)]
  rfl

/-- What a cold reset without torn work leaves, whatever it does to the balls afterwards. -/
theorem State.coldReset_none (s : State) (p : Pins) :
    ({ s.coldReset none 1 with pins := p } : State).boot.cold = true ∧ ({ s.coldReset none 1 with pins := p } : State).now = 0 ∧
      ({ s.coldReset none 1 with pins := p } : State).mem = [] ∧
      (∀ d, d < 96 → ({ s.coldReset none 1 with pins := p } : State).domSt d = Dom.off) ∧
      ({ s.coldReset none 1 with pins := p } : State).pending = s.pending ∧
      ({ s.coldReset none 1 with pins := p } : State).otp = s.otp ∧
      ({ s.coldReset none 1 with pins := p } : State).drw.half0 = s.drw.half0 ∧
      ({ s.coldReset none 1 with pins := p } : State).drw.half1 = s.drw.half1 ∧
      ({ s.coldReset none 1 with pins := p } : State).rd PWR_RESET_CAUSE.LAST = 1 := by
  obtain ⟨hcold, hnow, hmem, -⟩ := s.coldReset_cleared none 1
  obtain ⟨hotp, hpend, -⟩ := s.coldReset_kept none 1
  obtain ⟨h0, h1⟩ := s.coldReset_halves 1
  have hdom := s.domSt_coldReset none 1
  have hlast := s.rd_coldReset_last none 1
  generalize s.coldReset none 1 = k at *
  exact ⟨hcold, hnow, hmem, fun d _ => hdom d, hpend, hotp, h0, h1, hlast⟩

/-! ## VDD_AON rises: fuses and images programmed without power -/

theorem Byte.or_or_self_left (a b : Byte) : a ||| (a ||| b) = a ||| b := by rw [← BitVec.or_assoc, BitVec.or_self]

/-- The OTP with the fuses blown in addition. -/
def blownOtp (m : Memory) (fuses : List (Nat × Byte)) : Memory :=
  fuses.foldl (fun m e => if e.1 < 0x1000 then Memory.write m e.1 (Memory.read m e.1 ||| e.2) else m) m

/-- A fuse blown adds bits to its byte and leaves the other bytes. -/
theorem Memory.read_blow {m : Memory} (h : Memory.wf m = true) (a b : Nat) (v : Byte) :
    Memory.read m a ||| Memory.read (Memory.write m b (Memory.read m b ||| v)) a =
      Memory.read (Memory.write m b (Memory.read m b ||| v)) a := by
  by_cases hab : a = b
  · subst hab
    rw [Memory.read_write_self m a _ h]
    exact Byte.or_or_self_left _ _
  · rw [Memory.read_write_ne m _ hab]
    exact BitVec.or_self

/-- Blowing fuses keeps the canonical form and every fuse blown before. -/
theorem wf_read_blownOtp (fuses : List (Nat × Byte)) : ∀ m : Memory, Memory.wf m = true → Memory.wf (blownOtp m fuses) = true ∧
    ∀ a, Memory.read m a ||| Memory.read (blownOtp m fuses) a = Memory.read (blownOtp m fuses) a := by
  induction fuses with
  | nil => exact fun m h => ⟨h, fun _ => BitVec.or_self⟩
  | cons e fuses ih =>
    intro m h
    change Memory.wf (blownOtp (if e.1 < 0x1000 then _ else m) fuses) = true ∧ _
    split
    · next hlt =>
      obtain ⟨hwf, hread⟩ := ih _ (Memory.wf_write m e.1 (Memory.read m e.1 ||| e.2) h)
      have hcons : blownOtp m (e :: fuses) = blownOtp (Memory.write m e.1 (Memory.read m e.1 ||| e.2)) fuses :=
        congrArg (blownOtp · fuses) (if_pos hlt)
      refine ⟨hwf, fun a => ?_⟩
      rw [hcons, ← hread a, ← BitVec.or_assoc, Memory.read_blow h]
    · next hlt =>
      have hcons : blownOtp m (e :: fuses) = blownOtp m fuses := congrArg (blownOtp · fuses) (if_neg hlt)
      rw [hcons]
      exact ih m h

/-- Images programmed outside the head. -/
def State.imagesProgrammed (s : State) (images : List (Nat × List Byte)) : State :=
  images.foldl (fun k e => if 1 ≤ e.1 ∧ e.1 ≤ 3 then k.setSlot' e.1 (programmedSlot e.2) else k) s

theorem State.imagesProgrammed_rest (images : List (Nat × List Byte)) : ∀ s : State,
    (∃ c j, s.imagesProgrammed images = { s with csr := c, jig := j }) ∧ s.LowRegs (s.imagesProgrammed images) := by
  induction images with
  | nil => exact fun s => ⟨⟨_, _, rfl⟩, .refl s⟩
  | cons e images ih =>
    intro s
    change (∃ c j, State.imagesProgrammed (if 1 ≤ e.1 ∧ e.1 ≤ 3 then _ else s) images = _) ∧
      s.LowRegs (State.imagesProgrammed (if 1 ≤ e.1 ∧ e.1 ≤ 3 then _ else s) images)
    split
    · obtain ⟨⟨c, j, hi⟩, hlow⟩ := ih (s.setSlot' e.1 (programmedSlot e.2))
      obtain ⟨c', j', hs⟩ := s.setSlot'_rest e.1 (programmedSlot e.2)
      exact ⟨⟨c, j, by rw [hi, hs]⟩, (s.lowRegs_setSlot' e.1 _).trans hlow⟩
    · exact ih s

/-- The head without power: its fuses and images as they were programmed. -/
def State.programmed (s : State) (fuses : List (Nat × Byte)) (images : List (Nat × List Byte)) : State :=
  (((s.wr PWR_RESET_CAUSE.REFCLK_SEEN 0).wr PWR_RESET_CAUSE.TRIP_SEEN 0).blowFuses fuses).imagesProgrammed images

theorem exec_vddAonRise (s : State) (fuses : List (Nat × Byte)) (images : List (Nat × List Byte)) :
    exec (.vddAonRise fuses images) s = if s.pins.vddAon then .next s else
      .next { (s.coldReset none 0).programmed fuses images with
        pins := { ((s.coldReset none 0).programmed fuses images).pins with vddAon := true, pwrok := false } } := by
  change execVddAonRise fuses images s = _
  unfold execVddAonRise State.programmed State.imagesProgrammed
  with_reducible rfl

theorem State.programmed_rest (s : State) (fuses : List (Nat × Byte)) (images : List (Nat × List Byte)) :
    ∃ c j, s.programmed fuses images = { s with csr := c, jig := j, otp := blownOtp s.otp fuses } := by
  obtain ⟨⟨c, j, h⟩, -⟩ := State.imagesProgrammed_rest images
    (((s.wr PWR_RESET_CAUSE.REFCLK_SEEN 0).wr PWR_RESET_CAUSE.TRIP_SEEN 0).blowFuses fuses)
  exact ⟨c, j, h⟩

theorem State.domSt_programmed (s : State) (fuses : List (Nat × Byte)) (images : List (Nat × List Byte)) {d : Nat} (hd : d < 96) :
    (s.programmed fuses images).domSt d = s.domSt d := by
  obtain ⟨-, hlow⟩ := State.imagesProgrammed_rest images
    (((s.wr PWR_RESET_CAUSE.REFCLK_SEEN 0).wr PWR_RESET_CAUSE.TRIP_SEEN 0).blowFuses fuses)
  have hreg : (PWR_DOM.STATE d).reg ≠ 0xA00008 := by simp only [PWR_DOM.STATE]; omega
  rw [State.domSt, State.programmed, hlow _ (Fld.lo_lt rfl) (by simp only [PWR_DOM.STATE]; omega)]
  exact (State.rd_wr_reg _ _ hreg (Fld.lo_lt rfl) (by decide)).trans (State.rd_wr_reg _ _ hreg (Fld.lo_lt rfl) (by decide))

theorem exec_vddAonRise_off {s : State} (hv : s.pins.vddAon = false) (hwf : Memory.wf s.otp = true) (fuses : List (Nat × Byte))
    (images : List (Nat × List Byte)) : ∃ t : State, exec (.vddAonRise fuses images) s = .next t ∧ t.boot.cold = true ∧ t.now = 0 ∧
      t.mem = [] ∧ (∀ d, d < 96 → t.domSt d = Dom.off) ∧ t.pending = s.pending ∧ t.pins.vddAon = true ∧
      (∀ a, Memory.read s.otp a ||| Memory.read t.otp a = Memory.read t.otp a) := by
  obtain ⟨hcold, hnow, hmem, -⟩ := s.coldReset_cleared none 0
  obtain ⟨hotp, hpend, -⟩ := s.coldReset_kept none 0
  have hdom : ∀ d, d < 96 → ((s.coldReset none 0).programmed fuses images).domSt d = Dom.off := fun d hd =>
    ((s.coldReset none 0).domSt_programmed fuses images hd).trans (s.domSt_coldReset none 0 d)
  obtain ⟨c, j, hrest⟩ := (s.coldReset none 0).programmed_rest fuses images
  rw [exec_vddAonRise, hv]
  generalize (s.coldReset none 0).programmed fuses images = p at hdom hrest ⊢
  generalize s.coldReset none 0 = k at hcold hnow hmem hotp hpend hrest
  refine ⟨_, rfl, ?_, ?_, ?_, hdom, ?_, rfl, ?_⟩
  · rw [hrest]
    exact hcold
  · rw [hrest]
    exact hnow
  · rw [hrest]
    exact hmem
  · rw [hrest]
    exact hpend
  · rw [hrest, ← hotp]
    exact (wf_read_blownOtp fuses k.otp (hotp ▸ hwf)).2

/-! ## The boot that ends in the recovery jig (R435, R494) -/

theorem State.lowRegs_restoreSlot (s : State) (t : Nat) : s.LowRegs (s.restoreSlot t) := by
  simp only [State.restoreSlot]
  split
  · exact ((s.lowRegs_setSlot' t _).raise _ _ _ _ _).trans (.of_csr rfl)
  · exact s.lowRegs_slotShow t

theorem State.lowRegs_drwCounts (s : State) : s.LowRegs s.drwCounts :=
  ((((State.LowRegs.refl s).wr _ (by decide) (by decide)).wr _ (by decide) (by decide)).wr _ (by decide) (by decide)).wr _
    (by decide) (by decide)

theorem State.lowRegs_drwRestore (s : State) (warm : Bool) : s.LowRegs (s.drwRestore warm) := by
  have hret : ∀ (t : State) (w : Drawer), t.LowRegs ({ t with drw := w } : State) := fun _ _ => .of_csr rfl
  have hwr : ∀ (t : State) (v : Nat), t.LowRegs ((t.wr DRW_STATUS.STATE v).drwCounts) := fun t v =>
    (t.lowRegs_wr v (by decide) (by decide)).trans (State.lowRegs_drwCounts _)
  have hhalf : ∀ v, s.LowRegs (s.wr DRW_STATUS.HALF v) := fun v => s.lowRegs_wr v (by decide) (by decide)
  simp only [State.drwRestore]
  split
  · exact (hhalf _).trans (hwr _ _)
  · split
    · exact (hret s _).trans (hwr _ _)
    · exact (((hhalf _).wr _ (by decide) (by decide)).trans (hret _ _)).trans (hwr _ _)

theorem State.drwRestore_jig (s : State) (warm : Bool) : (s.drwRestore warm).jig = s.jig := by
  simp only [State.drwRestore]
  split
  · rfl
  · split <;> rfl

theorem State.lowRegs_applyEndpoint (s : State) (recovery : Bool) : s.LowRegs (s.applyEndpoint recovery) := by
  simp only [State.applyEndpoint]
  split
  · split
    · exact .refl s
    · have hmgt : ∀ m a p v, s.LowRegs ((((s.wr MGT_MAC.MAC m).wr MGT_IPV4.ADDR a).wr MGT_IPV4.PREFIX p).wr MGT_IPV4.VALID v) :=
        fun m a p v => ((((State.LowRegs.refl s).wr _ (by decide) (by decide)).wr _ (by decide) (by decide)).wr _ (by decide)
          (by decide)).wr _ (by decide) (by decide)
      split
      · exact (hmgt _ _ _ _).wr _ (by decide) (by decide)
      · exact hmgt _ _ _ _
  · split
    · exact s.lowRegs_wr _ (by decide) (by decide)
    · exact .refl s

theorem State.applyEndpoint_jig (s : State) (recovery : Bool) : (s.applyEndpoint recovery).jig = s.jig := by
  simp only [State.applyEndpoint]
  split
  · split
    · rfl
    · split <;> rfl
  · split <;> rfl

theorem State.lowRegs_auditImage (s : State) (origin : Nat) (p : List Byte) : s.LowRegs (s.auditImage origin p) := by
  rw [State.auditImage]
  split
  · exact .of_csr rfl
  · exact .trans (.of_csr (t := { s with aud := _ }) rfl) (State.lowRegs_wr _ _ (by decide) (by decide))

theorem State.auditImage_recovery (s : State) (origin : Nat) (p : List Byte) :
    (s.auditImage origin p).jig.recovery = s.jig.recovery := by
  rw [State.auditImage]
  split <;> rfl

/-- The head powered for its recovery: FAIL shown, the management port's domain on, the Jig in recovery. -/
def State.recoveryPowered (s : State) : State :=
  ((s.bootFail 1).setDom 95 Dom.on).setJig { ((s.bootFail 1).setDom 95 Dom.on).jig with recovery := true, isl := false }

theorem State.enterRecovery_eq (s : State) : s.enterRecovery =
    ((((s.recoveryPowered.drwRestore true).applyEndpoint true).wr MGT_CTL.EN 1).raise Ev.jigRecovery (some .jig)).auditImage 0x0200
      (imagePayload 1 7 St.success 0 0 0 []) := rfl

theorem State.lowRegs_enterRecovery (s : State) : s.recoveryPowered.LowRegs s.enterRecovery := by
  rw [s.enterRecovery_eq]
  exact ((((s.recoveryPowered.lowRegs_drwRestore true).trans (State.lowRegs_applyEndpoint _ true)).wr _ (by decide)
    (by decide)).raise _ _ _ _ _).trans (State.lowRegs_auditImage _ _ _)

theorem State.enterRecovery_recovery (s : State) : s.enterRecovery.jig.recovery = true := by
  rw [s.enterRecovery_eq, State.auditImage_recovery, State.raise_jig, State.wr_jig, State.applyEndpoint_jig, State.drwRestore_jig]
  rfl

theorem State.lowRegs_jigShow (s : State) : s.LowRegs s.jigShow :=
  ((((State.LowRegs.refl s).wr _ (by decide) (by decide)).wr _ (by decide) (by decide)).wr _ (by decide) (by decide)).wr _
    (by decide) (by decide)

theorem State.lowRegs_setJig (s : State) (j : Jig) : s.LowRegs (s.setJig j) :=
  .trans (.of_csr (t := { s with jig := j }) rfl) (State.lowRegs_jigShow _)

theorem State.rd_enterRecovery (s : State) {g : Fld} (hlo : g.lo < 64) (hg : g.reg < 0xA02000) :
    s.enterRecovery.rd g = ((s.bootFail 1).setDom 95 Dom.on).rd g := by
  rw [s.lowRegs_enterRecovery g hlo hg, State.recoveryPowered, State.lowRegs_setJig _ _ g hlo hg]

theorem State.rd_fail_enterRecovery (s : State) : s.enterRecovery.rd PWR_BOOT_STATUS.FAIL = 1 := by
  rw [s.rd_enterRecovery (by decide) (by decide), State.rd_setDom_ne _ _ _ (by decide) (by decide) (by decide), State.bootFail,
    State.rd_wr_self]
  rfl

theorem State.rd_step_enterRecovery (s : State) : s.enterRecovery.rd PWR_BOOT_STATUS.STEP = s.rd PWR_BOOT_STATUS.STEP := by
  rw [s.rd_enterRecovery (by decide) (by decide), State.rd_setDom_ne _ _ _ (by decide) (by decide) (by decide), State.bootFail,
    State.rd_wr_ne _ _ (by decide)]

theorem State.domSt_enterRecovery (s : State) : s.enterRecovery.domSt 95 = Dom.on := by
  rw [State.domSt, s.rd_enterRecovery (by decide) (by decide)]
  exact State.domSt_setDom _ (by decide) (by decide)

/-- The slots as step 3 of the boot finds them. -/
def State.slotsRestored (s : State) : State := [1, 2, 3].foldl (fun (s : State) t => s.restoreSlot t) s

/-- Steps 2 and 3 of the boot sequence. -/
def State.bootedOtp (s : State) (warm : Bool) : State := ((((s.bootStep 2).raise Ev.reset (some .pwr)).bootOtp warm).bootStep 3)

theorem State.slotsRestored_eq (s : State) : s.slotsRestored = ((s.restoreSlot 1).restoreSlot 2).restoreSlot 3 := by
  simp only [State.slotsRestored, List.foldl_cons, List.foldl_nil]

theorem State.lowRegs_slotsRestored (s : State) : s.LowRegs s.slotsRestored := by
  have h1 := s.lowRegs_restoreSlot 1
  have h2 := (s.restoreSlot 1).lowRegs_restoreSlot 2
  have h3 := ((s.restoreSlot 1).restoreSlot 2).lowRegs_restoreSlot 3
  rw [s.slotsRestored_eq]
  exact (h1.trans h2).trans h3

theorem State.rd_step_slotsRestored (s : State) (warm : Bool) : (s.bootedOtp warm).slotsRestored.rd PWR_BOOT_STATUS.STEP = 3 := by
  rw [State.lowRegs_slotsRestored _ _ (by decide) (by decide), State.bootedOtp, State.bootStep, State.rd_wr_self]
  rfl

theorem State.bootRun_recovery {s : State} {warm : Bool} (h : (s.bootedOtp warm).slotsRestored.imageOk 1 = false) (norOk : Bool)
    (train : List (Bool × Nat)) : s.bootRun warm norOk train = (s.bootedOtp warm).slotsRestored.enterRecovery := by
  have hbad : (!(s.bootedOtp warm).slotsRestored.imageOk 1) = true := by rw [h]; rfl
  unfold State.bootRun
  exact if_pos hbad

/-! ## Warm reset (R491, R492) -/

theorem State.dramKept_rest (s : State) : ∃ m d, s.dramKept = { s with mem := m, draws := d } := by
  have hfold : ∀ (l : List Nat) (t : State), (∃ m d, t = { s with mem := m, draws := d }) →
      ∃ m d, l.foldl (fun s l => { s.draw with mem := Memory.writeN s.mem (l * 64) (s.freeBytes 64) }) t =
        { s with mem := m, draws := d } := by
    intro l
    induction l with
    | nil => exact fun _ h => h
    | cons a l ih =>
      rintro t ⟨m, d, rfl⟩
      exact ih _ ⟨_, _, rfl⟩
  exact hfold _ _ ⟨_, _, rfl⟩

/-- Without a line in the Cooler self-refresh keeps DRAM as it stands. -/
theorem State.dramKept_mem {s : State} (h : s.cool.lines = []) : s.dramKept.mem = Memory.blankRange s.mem vatBase (2 ^ 27) := by
  simp only [State.dramKept, h, List.filter_nil, List.map_nil, List.foldl_nil]

theorem Memory.read_blankRange (m : Memory) (b n a : Nat) (h : ¬ (b ≤ a ∧ a < b + n)) :
    Memory.read (Memory.blankRange m b n) a = Memory.read m a := by
  have hget := Tab.get?_keep_key (fun k => k < b || b + n ≤ k) a m
  have hp : (decide (a < b) || decide (b + n ≤ a)) = true := by
    rw [Bool.or_eq_true, decide_eq_true_iff, decide_eq_true_iff]
    omega
  rw [if_pos hp] at hget
  exact congrArg (Option.getD · Memory.blank) hget

/-- The head as a warm reset meets it: a block under way torn, DRAM in self-refresh, the links of its blades down. -/
def State.quiesced (s : State) : State := (s.tearBlock.dramKept).dropBladeLinks

theorem State.quiesced_rest (s : State) :
    ∃ c j d m b, s.quiesced = { s with csr := c, jig := j, draws := d, mem := m, blades := b } := by
  obtain ⟨c, j, d, ht⟩ := s.tearBlock_rest
  obtain ⟨m, d', hm⟩ := s.tearBlock.dramKept_rest
  obtain ⟨b, hb⟩ := s.tearBlock.dramKept.dropBladeLinks_rest
  refine ⟨c, j, d', m, b, ?_⟩
  rw [State.quiesced, hb, hm, ht]

theorem State.lowRegs_quiesced (s : State) : s.LowRegs s.quiesced := by
  obtain ⟨m, d, hm⟩ := s.tearBlock.dramKept_rest
  have hdram : s.tearBlock.LowRegs s.tearBlock.dramKept := .of_csr (by rw [hm])
  exact (s.lowRegs_tearBlock.trans hdram).trans fun g _ _ => State.rd_dropBladeLinks _ g

theorem State.quiesced_mem {s : State} (h : s.cool.lines = []) : s.quiesced.mem = Memory.blankRange s.mem vatBase (2 ^ 27) := by
  obtain ⟨c, j, d, ht⟩ := s.tearBlock_rest
  obtain ⟨b, hb⟩ := s.tearBlock.dramKept.dropBladeLinks_rest
  have hcool : s.tearBlock.cool.lines = [] := by
    rw [ht]
    exact h
  rw [State.quiesced, hb]
  change s.tearBlock.dramKept.mem = _
  rw [State.dramKept_mem hcool, ht]

/-- What a warm reset keeps of a quiesced head, before the entropy registers and the domains. -/
def State.warmKept (s : State) : State := { s.keepNor with
  now := s.now, mem := s.mem, csr := Tab.keep s.csr (fun f _ => keepWarm f), tally := s.tally
  bus := { s.bus with imsic := [], aplic := [], ddtMode := 1, ddt := 0 }
  drw := s.drw, pins := { s.pins with perstN := 0 }, cool := { poison := s.cool.poison }
  jig := { s.keepNor.jig with isl := s.jig.acts.any fun a => a.1 == 1 }
  mgt := { sent := s.mgt.sent, replies := s.mgt.replies }
  boot := { cold := false, warmUntil := some (s.now + 160000), advance := s.boot.advance, before := s.boot.before } }

/-- The registers of the entropy source kept as well. -/
def State.entropyKept (k s : State) : State :=
  ((k.wr SEC_RNG_STATUS.FAIL (s.rd SEC_RNG_STATUS.FAIL)).wr SEC_RNG_STATUS.TEST (s.rd SEC_RNG_STATUS.TEST)).wr
    SEC_RNG_STATUS.RESEEDS (s.rd SEC_RNG_STATUS.RESEEDS)

theorem State.warmReset_eq (s : State) : s.warmReset =
    (((s.quiesced.warmKept.entropyKept s.quiesced).allOff.bump PWR_RESET_CAUSE.WARM_COUNT 1).wr PWR_RESET_CAUSE.LAST 2).wr
      PWR_BOOT_STATUS.STEP 2 := by
  unfold State.warmReset State.warmKept State.quiesced State.entropyKept
  with_reducible rfl

theorem State.entropyKept_rest (k s : State) : ∃ c, k.entropyKept s = { k with csr := c } := ⟨_, rfl⟩

theorem State.lowRegs_entropyKept (k s : State) : k.LowRegs (k.entropyKept s) :=
  (((State.LowRegs.refl k).wr _ (by decide) (by decide)).wr _ (by decide) (by decide)).wr _ (by decide) (by decide)

theorem State.rd_warmKept (s : State) {g : Fld} (h : keepWarm g.key = true) : s.warmKept.rd g = s.rd g := by
  have hget := Tab.get?_keep_key (fun k => keepWarm k) g.key s.csr
  rw [if_pos h] at hget
  exact congrArg (Option.getD · g.reset) hget

theorem State.warmReset_rest (s : State) : ∃ c p, s.warmReset = { s.quiesced.warmKept with
    csr := c, press := p, sup := { s.quiesced.warmKept.sup with rampBy := [], rampWait := [] } } := by
  obtain ⟨c, h⟩ := s.quiesced.warmKept.entropyKept_rest s.quiesced
  obtain ⟨c', p, hoff⟩ := (s.quiesced.warmKept.entropyKept s.quiesced).allOff_rest
  rw [s.warmReset_eq]
  generalize (s.quiesced.warmKept.entropyKept s.quiesced).allOff = u at hoff ⊢
  generalize s.quiesced.warmKept.entropyKept s.quiesced = e at h hoff
  generalize s.quiesced.warmKept = k at h ⊢
  rw [h] at hoff
  rw [hoff]
  exact ⟨_, p, rfl⟩

/-- What of a quiesced head a warm reset keeps and what it clears. -/
theorem State.warmKept_kept (s : State) : s.warmKept.now = s.now ∧ s.warmKept.otp = s.otp ∧ s.warmKept.drw = s.drw ∧
    s.warmKept.boot.warmUntil = some (s.now + 160000) ∧ s.warmKept.par = State.reset.par ∧ s.warmKept.rings = [] ∧
    s.warmKept.pending = s.pending ∧ s.warmKept.mem = s.mem := ⟨rfl, rfl, rfl, rfl, rfl, rfl, rfl, rfl⟩

theorem State.warmReset_kept (s : State) : s.warmReset.now = s.now ∧ s.warmReset.otp = s.otp ∧ s.warmReset.drw = s.drw ∧
    s.warmReset.boot.warmUntil = some (s.now + 160000) ∧ s.warmReset.par = State.reset.par ∧ s.warmReset.rings = [] ∧
    s.warmReset.pending = s.pending ∧ s.warmReset.mem = s.quiesced.mem := by
  obtain ⟨c, p, h⟩ := s.warmReset_rest
  obtain ⟨c', j, d, m, b, hq⟩ := s.quiesced_rest
  obtain ⟨hnow, hotp, hdrw, huntil, hpar, hrings, hpend, hmem⟩ := s.quiesced.warmKept_kept
  rw [h]
  generalize s.quiesced.warmKept = k at hnow hotp hdrw huntil hpar hrings hpend hmem ⊢
  generalize s.quiesced = q at hq hnow hotp hdrw huntil hpend hmem ⊢
  subst hq
  exact ⟨hnow, hotp, hdrw, huntil, hpar, hrings, hpend, hmem⟩

theorem State.domSt_warmReset (s : State) {d : Nat} (hd : d < 96) : s.warmReset.domSt d = Dom.off := by
  have hcause : (PWR_DOM.STATE d).reg ≠ 0xA00008 := by simp only [PWR_DOM.STATE]; omega
  have hboot : (PWR_DOM.STATE d).reg ≠ 0xA00010 := by simp only [PWR_DOM.STATE]; omega
  rw [State.domSt, s.warmReset_eq, State.bump, State.rd_wr_reg _ _ hboot (Fld.lo_lt rfl) (by decide),
    State.rd_wr_reg _ _ hcause (Fld.lo_lt rfl) (by decide), State.rd_wr_reg _ _ hcause (Fld.lo_lt rfl) (by decide)]
  exact State.domSt_allOff _ hd

theorem State.rd_last_warmReset (s : State) : s.warmReset.rd PWR_RESET_CAUSE.LAST = 2 := by
  rw [s.warmReset_eq, State.rd_wr_ne _ _ (by decide), State.rd_wr_self]
  rfl

theorem State.rd_step_warmReset (s : State) : s.warmReset.rd PWR_BOOT_STATUS.STEP = 2 := by
  rw [s.warmReset_eq, State.rd_wr_self]
  rfl

theorem State.rd_warmCount_warmReset (s : State) : s.warmReset.rd PWR_RESET_CAUSE.WARM_COUNT =
    satAdd (s.rd PWR_RESET_CAUSE.WARM_COUNT) 1 32 % 2 ^ 32 := by
  have hkept : s.quiesced.warmKept.rd PWR_RESET_CAUSE.WARM_COUNT = s.rd PWR_RESET_CAUSE.WARM_COUNT :=
    (s.quiesced.rd_warmKept (by decide)).trans (s.lowRegs_quiesced _ (by decide) (by decide))
  rw [s.warmReset_eq, State.rd_wr_ne _ _ (by decide), State.rd_wr_ne _ _ (by decide), State.bump, State.rd_wr_self,
    State.rd_allOff _ (by decide) (by decide) (by decide) (by decide), State.lowRegs_entropyKept _ _ _ (by decide) (by decide), hkept]
  rfl

theorem exec_warmReset_island {s : State} (hc : s.boot.cold = false) (hs : s.boot.stopped = false) (hw : s.boot.warmUntil = none) :
    exec (.warmReset 0x200) s = .next s.warmReset := by
  change execWarmReset 0x200 s = _
  rw [execWarmReset, if_neg (not_not_intro rfl), if_neg (by simp [hc, hs, hw])]

/-! ## The obligation -/

/-- Settles O48: cold and warm resets by what they tear, clear and keep; the boot by its branch at step 3. -/
theorem resetsBootAndPower : Obligations.ResetsBootAndPower := by
  unfold Obligations.ResetsBootAndPower
  refine ⟨?rise, ?riseOn, ?pwrokState, ?resetState, ?lossState, ?cold, ?pwrok, ?pwrokOff, ?reset, ?resetOff, ?loss, ?lossOff,
    ?release, ?releaseStays, ?recovery, ?foreign, ?warmStays, ?warmState, ?warm, ?warmEnd, ?warmEarly⟩
  case rise =>
    intro s fuses images hv hwf
    exact exec_vddAonRise_off hv hwf fuses images
  case riseOn =>
    intro s fuses images hv
    rw [exec_vddAonRise, hv]
    rfl
  case pwrokState =>
    rintro s torn k hv hp rfl
    exact if_neg (by simp [hv, hp])
  case resetState =>
    rintro s torn k hv hp rfl
    exact if_neg (by simp [hv, hp])
  case lossState =>
    rintro s torn k hv rfl
    exact if_neg (by simp [hv])
  case cold =>
    intro s torn last
    obtain ⟨hcold, hnow, hmem, hrings⟩ := s.coldReset_cleared torn last
    obtain ⟨hotp, hpend, -⟩ := s.coldReset_kept torn last
    exact ⟨hcold, hnow, hmem, hotp, hrings, hpend, s.rd_coldReset_last torn last, s.rd_coldReset_refclkSeen torn last,
      fun d _ => s.domSt_coldReset torn last d⟩
  case pwrok =>
    intro s hv hp
    obtain ⟨hcold, hnow, hmem, hdom, hpend, hotp, h0, h1, hlast⟩ := s.coldReset_none
      { (s.coldReset none 1).pins with pwrok := false }
    exact ⟨_, if_neg (by simp [hv, hp]), hcold, hnow, hmem, hdom, hpend, hotp, h0, h1, rfl, hlast⟩
  case pwrokOff =>
    intro s torn h
    exact if_pos (by rcases h with h | h <;> simp [h])
  case reset =>
    intro s hv hp
    obtain ⟨hcold, hnow, hmem, hdom, hpend, hotp, h0, h1, hlast⟩ := s.coldReset_none
      { (s.coldReset none 1).pins with resetN := false }
    exact ⟨_, if_neg (by simp [hv, hp]), hcold, hnow, hmem, hdom, hpend, hotp, h0, h1, rfl, hlast⟩
  case resetOff =>
    intro s torn h
    exact if_pos (by rcases h with h | h <;> simp [h])
  case loss =>
    intro s hv
    obtain ⟨hcold, hnow, hmem, hdom, hpend, hotp, h0, h1, -⟩ := s.coldReset_none
      { (s.coldReset none 1).pins with vddAon := false, pwrok := false }
    exact ⟨_, if_neg (by simp [hv]), hcold, hnow, hmem, hdom, hpend, hotp, h0, h1, rfl⟩
  case lossOff =>
    intro s torn h
    exact if_pos (by simp [h])
  case release =>
    intro s headSel peerPrsntN norOk train hc hv
    exact if_neg (by simp [hc, hv])
  case releaseStays =>
    intro s headSel peerPrsntN norOk train h
    exact if_pos (by rcases h with h | h <;> simp [h])
  case recovery =>
    rintro s warm norOk train v rfl hbad
    exact ⟨State.bootRun_recovery hbad norOk train, State.enterRecovery_recovery _, State.rd_fail_enterRecovery _,
      (State.rd_step_enterRecovery _).trans (s.rd_step_slotsRestored warm), State.domSt_enterRecovery _⟩
  case foreign =>
    intro s origin h
    exact if_pos h
  case warmStays =>
    intro s h
    change execWarmReset 0x200 s = _
    rw [execWarmReset, if_neg (not_not_intro rfl), if_pos h]
  case warmState =>
    intro s hc hs hw
    exact exec_warmReset_island hc hs hw
  case warm =>
    intro s hc hs hw
    obtain ⟨hnow, hotp, hdrw, huntil, hpar, hrings, hpend, hmem⟩ := s.warmReset_kept
    refine ⟨_, exec_warmReset_island hc hs hw, hnow, hotp, hdrw, huntil, fun d hd => s.domSt_warmReset hd, s.rd_last_warmReset,
      s.rd_step_warmReset, s.rd_warmCount_warmReset, hpar, hrings, hpend, fun hl a ha => ?_⟩
    rw [hmem, State.quiesced_mem hl, Memory.read_blankRange _ _ _ _ ha]
  case warmEnd =>
    intro s norOk train h
    exact if_pos h
  case warmEarly =>
    intro s norOk train h
    exact if_neg (by rw [h]; exact Bool.false_ne_true)

end Sys2Proof.Machine
end

section
/-! What completing a descriptor leaves unchanged, for the units whose own state no completion touches (R50, R410). -/
namespace Sys2Proof.Machine
open Sys2Proof

/-- A change of registers, memory with its Cooler, rings, bus, balls, Tally and audit FIFO, and of nothing else. -/
def State.Completes (s t : State) : Prop :=
  t = { s with csr := t.csr, mem := t.mem, bus := t.bus, rings := t.rings, pins := t.pins, tally := t.tally, aud := t.aud, cool := t.cool }

section
variable {s t u : State}

theorem State.Completes.refl (s : State) : s.Completes s := rfl

theorem State.Completes.trans (h : s.Completes t) (k : t.Completes u) : s.Completes u := by
  unfold State.Completes at h k ⊢
  rw [k, h]

theorem State.Completes.wr (h : s.Completes t) (f : Fld) (v : Nat) : s.Completes (t.wr f v) := h.trans rfl

theorem State.Completes.setRing (h : s.Completes t) (u : UnitId) (r : Nat) (x : Ring) : s.Completes (t.setRing u r x) := h.trans rfl

theorem State.Completes.ite {c : Prop} [Decidable c] (ht : s.Completes t) (hu : s.Completes u) : s.Completes (if c then t else u) := by
  split
  · exact ht
  · exact hu

theorem State.completes_raise (s : State) (code : Nat) (u : Option UnitId) (inst : Option Nat) (args : List Nat)
    (origin : Option Nat) : s.Completes (s.raise code u inst args origin) := by
  have h := (s.raise_change code u inst args origin).rest
  generalize s.raise code u inst args origin = t at h
  unfold State.Completes
  rw [h]

theorem State.completes_stage (s : State) (kind o via unit sub op off : Nat) (p : List Byte) :
    s.Completes (s.stage kind o via unit sub op off p) := rfl

theorem State.completes_dmaFailed (s : State) (u : UnitId) (e : DmaErr) : s.Completes (s.dmaFailed u e) := by
  cases e with
  | fault f => rfl
  | hole a => exact s.completes_raise ..
  | poison => exact .refl s
  | dram p => exact .refl s

theorem State.completes_dmaWrite {u : UnitId} {a : Nat} {bs : List Byte} {ring : Option Nat} (h : s.dmaWrite u a bs ring = .ok t) :
    s.Completes t := by
  obtain ⟨ps, -, hrest, -, -⟩ := State.dmaWrite_ok h
  unfold State.Completes
  rw [hrest]

theorem State.completes_msi (s : State) (u : UnitId) (r : Nat) : s.Completes (s.msi u r) := by
  simp only [State.msi]
  split
  · unfold State.Completes
    rw [State.msiWrite_bus]
  · exact s.completes_dmaFailed ..

theorem State.completes_ringError (s : State) (u : UnitId) (r c : Nat) : s.Completes (s.ringError u r c) := by
  simp only [State.ringError]
  split
  · exact .refl s
  · refine .ite ?_ ?_
    · exact .trans (.trans ((((State.Completes.refl s).wr _ _).wr _ _).wr _ _) (State.completes_raise ..)) (State.completes_msi ..)
    · exact .trans ((((State.Completes.refl s).wr _ _).wr _ _).wr _ _) (State.completes_raise ..)

theorem State.completes_notify (s : State) (u : UnitId) (r : Nat) : s.Completes (s.notify u r) := by
  simp only [State.notify]
  refine .ite (.refl s) (.ite (s.completes_msi u r) (.ite ?_ ?_))
  · exact (State.Completes.refl s).setRing ..
  · exact (s.completes_msi u r).setRing ..

theorem State.completes_post (s : State) (u : UnitId) (r tag status info result : Nat) (ntf : Bool) :
    s.Completes (s.post u r tag status info result ntf) := by
  simp only [State.post]
  split
  · exact (s.completes_dmaFailed u _).trans (State.completes_ringError ..)
  · next t ht =>
    have hidx : ∀ i, s.Completes (t.wr (RING_STATUS.CPL_IDX (unitBase u) r) i) := fun i => (State.completes_dmaWrite ht).wr _ i
    have hcpl : ∀ (c : Prop) [Decidable c] (i x : Nat), s.Completes (if c then (t.wr (RING_STATUS.CPL_IDX (unitBase u) r) i).wr
        (RING_STATUS.CPL_PHASE (unitBase u) r) x else t.wr (RING_STATUS.CPL_IDX (unitBase u) r) i) :=
      fun c _ i x => .ite ((hidx i).wr _ x) (hidx i)
    exact .ite (((hcpl _ _ _).setRing ..).trans (State.completes_notify ..)) ((hcpl _ _ _).setRing ..)

/-- Completing a descriptor changes no unit's own state but the audit FIFO. -/
theorem State.completes_finish (s : State) (u : UnitId) (d : DescRef) (st i r : Nat) : s.Completes (s.finish u d st i r) := by
  simp only [State.finish]
  split
  · exact .refl s
  · refine .trans (.setRing (.ite ?_ (.refl s)) _ _ _) (State.completes_post ..)
    exact s.completes_stage ..

theorem State.Completes.jig_eq (h : s.Completes t) : t.jig = s.jig := by rw [h]
theorem State.Completes.otp_eq (h : s.Completes t) : t.otp = s.otp := by rw [h]
theorem State.Completes.sup_eq (h : s.Completes t) : t.sup = s.sup := by rw [h]
theorem State.Completes.mgt_eq (h : s.Completes t) : t.mgt = s.mgt := by rw [h]
theorem State.Completes.leaseU_eq (h : s.Completes t) : t.leaseU = s.leaseU := by rw [h]

end
end Sys2Proof.Machine
end

section
/-! The Jig's sessions through an Island ring: BEGIN, blocks, commit, abort, the idle end, activations (R420 to R434). -/
namespace Sys2Proof.Machine
open Sys2Proof

/-! ## What the Jig's own operations leave -/

section
variable (s : State)

theorem State.auditImage_jig (o : Nat) (p : List Byte) : ∃ k, (s.auditImage o p).jig = { s.jig with kept := k } := by
  rw [State.auditImage]
  split
  · exact ⟨_, rfl⟩
  · exact ⟨_, rfl⟩

theorem State.auditImage_rest (o : Nat) (p : List Byte) : ∃ c j a, s.auditImage o p = { s with csr := c, jig := j, aud := a } := by
  rw [State.auditImage]
  split
  · exact ⟨_, _, _, rfl⟩
  · exact ⟨_, _, _, rfl⟩

theorem State.auditImage_session (o : Nat) (p : List Byte) : (s.auditImage o p).jig.session = s.jig.session := by
  obtain ⟨k, h⟩ := s.auditImage_jig o p
  rw [h]

theorem State.auditImage_slots (o : Nat) (p : List Byte) : (s.auditImage o p).jig.slots = s.jig.slots := by
  obtain ⟨k, h⟩ := s.auditImage_jig o p
  rw [h]

theorem State.auditImage_mem (o : Nat) (p : List Byte) : (s.auditImage o p).mem = s.mem := by
  obtain ⟨c, j, a, h⟩ := s.auditImage_rest o p
  rw [h]

theorem State.auditImage_otp (o : Nat) (p : List Byte) : (s.auditImage o p).otp = s.otp := by
  obtain ⟨c, j, a, h⟩ := s.auditImage_rest o p
  rw [h]

theorem State.slotOf_of_slots {s t : State} (h : t.jig.slots = s.jig.slots) (x : Nat) : t.slotOf x = s.slotOf x := by
  rw [State.slotOf, State.slotOf, h]

theorem State.slotOf_setSlot' (t : Nat) (x : JigSlot) : (s.setSlot' t x).slotOf t = x := Tab.getD_set_self ..

theorem State.setJig_jig (j : Jig) : (s.setJig j).jig = j := rfl

theorem State.jigLast_jig (st : Nat) : (s.jigLast st).jig = s.jig := rfl

theorem State.jigEnd_session : s.jigEnd.jig.session = none := rfl

theorem State.jigEnd_slots : s.jigEnd.jig.slots = s.jig.slots := rfl

end

/-! ## A descriptor in its turn (R426) -/

section
variable {s : State} {d : DescRef} {op : Nat} {f : Fetched}

theorem State.jigDesc_turn (hf : s.startedAt .sec d op = some f) (hr : s.jig.recovery = false) (hi : s.inOrder .sec d = true)
    (k : Fetched → State) : s.jigDesc d op k = .next (k f) := by
  simp only [State.jigDesc, hf, hr, hi, Bool.not_true, Bool.or_self, Bool.false_eq_true, if_false]

theorem State.jigDesc_stays (hf : s.startedAt .sec d op = some f) (h : s.jig.recovery = true ∨ s.inOrder .sec d = false)
    (k : Fetched → State) : s.jigDesc d op k = .next s := by
  have hc : (s.jig.recovery || !s.inOrder .sec d) = true := by rcases h with h | h <;> simp [h]
  simp only [State.jigDesc, hf, hc, if_true]

theorem State.jigOwned_foreign (hf : s.startedAt .sec d op = some f) (hr : s.jig.recovery = false) (hi : s.inOrder .sec d = true)
    (hx : s.jigSession (s.ringOwner .sec d) (f.at 28 4) = none) (k : Fetched → JigSession → State) :
    s.jigOwned d op k = .next (s.finish .sec d St.sessionInvalid) := by
  rw [State.jigOwned, State.jigDesc_turn hf hr hi, hx]

theorem State.jigOwned_owner {x : JigSession} (hf : s.startedAt .sec d op = some f) (hr : s.jig.recovery = false)
    (hi : s.inOrder .sec d = true) (hx : s.jigSession (s.ringOwner .sec d) (f.at 28 4) = some x) (k : Fetched → JigSession → State) :
    s.jigOwned d op k = .next (k f x) := by
  rw [State.jigOwned, State.jigDesc_turn hf hr hi, hx]

/-- The session a request names is the open one. -/
theorem State.session_of_jigSession {o id : Nat} {x : JigSession} (h : s.jigSession o id = some x) : s.jig.session = some x := by
  simp only [State.jigSession] at h
  split at h
  · next y hy =>
    split at h
    · rw [hy, h]
    · cases h
  · cases h

end

/-! ## BEGIN (R423, R424) -/

/-- A BEGIN refused with a status: the last status and its audit entry. -/
def State.beginRefused (s : State) (owner t len st : Nat) : State :=
  (s.jigLast st).auditImage owner (imagePayload t 1 st len 0 0 [])

theorem State.beginRefused_session (s : State) (owner t len st : Nat) : (s.beginRefused owner t len st).jig.session = s.jig.session := by
  rw [State.beginRefused, State.auditImage_session, State.jigLast_jig]

section
variable {s : State} {owner t len : Nat}

theorem State.jigBegin_busy {x : JigSession} (h : s.jig.session = some x) :
    s.jigBegin owner t len = (St.jigBusy, x.owner, s.beginRefused owner t len St.jigBusy) := by
  rw [State.jigBegin, h]
  rfl

theorem State.jigBegin_type (h : s.jig.session = none) (ht : t = 0 ∨ 3 < t) :
    s.jigBegin owner t len = (St.typeInvalid, 0, s.beginRefused owner t len St.typeInvalid) := by
  have hc : t = 0 ∨ 3 < t ∨ (s.jig.recovery = true ∧ t ≠ 1) := by omega
  rw [State.jigBegin, h]
  exact if_pos hc

section
variable (h : s.jig.session = none) (h1 : 1 ≤ t) (h3 : t ≤ 3) (hrec : s.jig.recovery = true → t = 1)
include h1 h3 hrec

theorem State.jigBegin_type_ok : ¬ (t = 0 ∨ 3 < t ∨ (s.jig.recovery = true ∧ t ≠ 1)) := by
  rintro (h0 | h0 | ⟨hr, h0⟩)
  · omega
  · omega
  · exact h0 (hrec hr)

include h

theorem State.jigBegin_tooLong (hl : imageLenOk t len = false) :
    s.jigBegin owner t len = (St.imageTooLong, 0, s.beginRefused owner t len St.imageTooLong) := by
  have hok := State.jigBegin_type_ok h1 h3 hrec
  rw [State.jigBegin, h]
  exact (if_neg hok).trans (if_pos (by rw [hl]; rfl))

theorem State.jigBegin_activating (hl : imageLenOk t len = true) (ha : s.jig.acts.any (fun a => a.1 == t) = true) :
    s.jigBegin owner t len = (St.activateBusy, 0, s.beginRefused owner t len St.activateBusy) := by
  have hok := State.jigBegin_type_ok h1 h3 hrec
  rw [State.jigBegin, h]
  exact (if_neg hok).trans ((if_neg (by rw [hl]; exact Bool.false_ne_true)).trans (if_pos ha))

end

/-- The slot of a session that opens, before the session. -/
def State.slotBegun (s : State) (t len : Nat) : State :=
  (s.drbg.setSlot' t { len := len, st := 1, blocks := (s.drbg.slotOf t).blocks }).wr (JIG_SLOT.ACTIVE (t - 1)) 0

/-- The session a BEGIN opens. -/
def State.sessionBegun (s : State) (owner t len : Nat) : JigSession :=
  { id := s.freeWord % 2 ^ 32, type := t, len := len, owner := owner
    idleBy := (s.slotBegun t len).inMgmt ((s.slotBegun t len).rd JIG_CFG.IDLE) }

/-- The state with the session a BEGIN opens. -/
def State.begun (s : State) (owner t len : Nat) : State :=
  (s.slotBegun t len).setJig { (s.slotBegun t len).jig with parts := none, session := some (s.sessionBegun owner t len) }

theorem State.jigBegin_opens (h : s.jig.session = none) (h1 : 1 ≤ t) (h3 : t ≤ 3) (hrec : s.jig.recovery = true → t = 1)
    (hl : imageLenOk t len = true) (ha : s.jig.acts.any (fun a => a.1 == t) = false) : s.jigBegin owner t len =
      (St.success, (s.sessionBegun owner t len).id,
        ((s.begun owner t len).jigLast St.success).auditImage owner (imagePayload t 1 St.success len 0 0 [])) := by
  have hok := State.jigBegin_type_ok h1 h3 hrec
  rw [State.jigBegin, h]
  exact (if_neg hok).trans ((if_neg (by rw [hl]; exact Bool.false_ne_true)).trans (if_neg (by rw [ha]; exact Bool.false_ne_true)))

theorem State.begun_rest (s : State) (owner t len : Nat) : (s.begun owner t len).jig.session = some (s.sessionBegun owner t len) ∧
    ((s.begun owner t len).slotOf t).st = 1 ∧ ((s.begun owner t len).slotOf t).len = len ∧ (s.begun owner t len).mem = s.mem ∧
    (s.begun owner t len).otp = s.otp := by
  have hslot : (s.begun owner t len).slotOf t = { len := len, st := 1, blocks := (s.drbg.slotOf t).blocks } :=
    Tab.getD_set_self ..
  rw [hslot]
  exact ⟨rfl, rfl, rfl, rfl, rfl⟩

end

/-! ## Blocks (R425) -/

theorem blockFault_range {x : JigSession} {off : Nat} (len : Nat) (h : off % 65536 ≠ 0 ∨ x.len ≤ off) :
    blockFault x off len = St.jigBlockRange := if_pos h

theorem blockFault_length {x : JigSession} {off : Nat} (len : Nat) (h : off % 65536 = 0) (hlt : off < x.len) :
    blockFault x off len = if len = min 65536 (x.len - off) then St.success else St.blockLength := by
  have hoff : off / jigBlockSize * jigBlockSize = off := by simp only [jigBlockSize]; omega
  have hrange : ¬ (off % jigBlockSize ≠ 0 ∨ x.len ≤ off) := by simp only [jigBlockSize]; omega
  rw [blockFault, if_neg hrange, blockLen, hoff, ite_not]
  rfl

section
variable {s : State} {d : DescRef} {f : Fetched} {x : JigSession}

/-- The session with its idle limit begun anew. -/
def State.touched (s : State) (x : JigSession) : JigSession := { x with idleBy := s.inMgmt (s.rd JIG_CFG.IDLE) }

theorem State.touched_kept (s : State) (x : JigSession) : (s.touched x).queue = x.queue ∧ (s.touched x).got = x.got ∧
    (s.touched x).idleBy = s.inMgmt (s.rd JIG_CFG.IDLE) := by
  unfold State.touched
  generalize s.inMgmt (s.rd JIG_CFG.IDLE) = n
  exact ⟨rfl, rfl, rfl⟩

/-- The session with a block at the end of its queue. -/
def JigSession.queued (x : JigSession) (b : JigBlock) : JigSession := { x with queue := x.queue ++ [b] }

theorem JigSession.queued_kept (x : JigSession) (b : JigBlock) : (x.queued b).queue = x.queue ++ [b] ∧ (x.queued b).got = x.got ∧
    (x.queued b).idleBy = x.idleBy := ⟨rfl, rfl, rfl⟩

theorem State.jigTouch_session (s : State) (x : JigSession) : (s.jigTouch x).jig.session = some (s.touched x) := rfl

theorem State.jigQueue_waiting (s : State) (y : JigSession) (d : DescRef) (b : JigBlock) :
    ((s.jigQueue y b).setPhase .sec d .waiting).jig.session = some (y.queued b) ∧
      ((s.jigQueue y b).setPhase .sec d .waiting).mem = s.mem ∧
      ((s.jigQueue y b).setPhase .sec d .waiting).jig.slots = s.jig.slots := ⟨rfl, rfl, rfl⟩

variable (hf : s.startedAt .sec d Op.jigBlock = some f) (hr : s.jig.recovery = false) (hi : s.inOrder .sec d = true)
  (hx : s.jigSession (s.ringOwner .sec d) (f.at 28 4) = some x)
include hf hr hi hx

theorem exec_jigBlock_queued (hq : (x.queue.any fun b => b.asked == .desc d) = true) : exec (.jigBlock d) s = .next s :=
  (State.jigOwned_owner hf hr hi hx _).trans (congrArg Host.Outcome.next (if_pos hq))

theorem exec_jigBlock_fault (hq : (x.queue.any fun b => b.asked == .desc d) = false) (hb : blockFault x (f.at 32 4) f.len ≠ St.success) :
    exec (.jigBlock d) s = .next (((s.jigTouch x).jigLast (blockFault x (f.at 32 4) f.len)).finish .sec d
      (blockFault x (f.at 32 4) f.len) 0 x.got.length) :=
  (State.jigOwned_owner hf hr hi hx _).trans
    (congrArg Host.Outcome.next ((if_neg (by rw [hq]; exact Bool.false_ne_true)).trans (if_pos hb)))

theorem exec_jigBlock_taken {bs : List Byte} (hq : (x.queue.any fun b => b.asked == .desc d) = false)
    (hb : blockFault x (f.at 32 4) f.len = St.success)
    (hd : ((s.jigTouch x).dmaRead .sec f.src f.len (some d.ring)).toOption = some bs) :
    exec (.jigBlock d) s = .next (((s.jigTouch x).jigQueue (s.touched x) ⟨.desc d, f.at 32 4 / 65536, bs⟩).setPhase .sec d .waiting) := by
  refine (State.jigOwned_owner hf hr hi hx _).trans (congrArg Host.Outcome.next ?_)
  refine (if_neg (by rw [hq]; exact Bool.false_ne_true)).trans ((if_neg (not_not_intro hb)).trans ?_)
  cases hread : (s.jigTouch x).dmaRead .sec f.src f.len (some d.ring) with
  | error e => rw [hread] at hd; cases hd
  | ok l =>
    rw [hread] at hd
    cases hd
    rfl

end

/-! ## A block written -/

/-- Whether the block being written waits for audit room: a descriptor's does. -/
def State.blockHeld (s : State) (b : JigBlock) : Bool :=
  match b.asked with
  | .desc _ => !s.auditRoom
  | .port _ => false

/-- The slot of a session with a block programmed, and the session without it in its queue. -/
def State.blockWritten (s : State) (x y : JigSession) (b : JigBlock) (data : List Byte) : State :=
  (s.setSlot' x.type { s.slotOf x.type with blocks := Tab.set (s.slotOf x.type).blocks b.index data }).setJig
    { (s.setSlot' x.type { s.slotOf x.type with blocks := Tab.set (s.slotOf x.type).blocks b.index data }).jig with session := some y }

section
variable {s : State} {x : JigSession} {b : JigBlock} {rest : List JigBlock}

theorem exec_jigBlockWritten_none (h : s.jig.session = none) (ok : Bool) : exec (.jigBlockWritten ok) s = .next s := by
  change execJigBlockWritten ok s = _
  rw [execJigBlockWritten, h]

theorem exec_jigBlockWritten_empty (h : s.jig.session = some x) (hq : x.queue = []) (ok : Bool) :
    exec (.jigBlockWritten ok) s = .next s := by
  change execJigBlockWritten ok s = _
  simp only [execJigBlockWritten, h, hq]

theorem exec_jigBlockWritten_held (h : s.jig.session = some x) (hq : x.queue = b :: rest) (hb : s.blockHeld b = true) (ok : Bool) :
    exec (.jigBlockWritten ok) s = .next s := by
  change execJigBlockWritten ok s = _
  simp only [execJigBlockWritten, h, hq]
  exact if_pos hb

theorem State.blockHeld_of_room (h : s.auditRoom = true ∨ (match b.asked with | .port _ => true | .desc _ => false) = true) :
    s.blockHeld b = false := by
  rw [State.blockHeld]
  cases hb : b.asked with
  | port hdr => rfl
  | desc d =>
    rw [hb] at h
    rcases h with h | h
    · change (!s.auditRoom) = false
      rw [h]
      rfl
    · cases h

theorem exec_jigBlockWritten_ok (h : s.jig.session = some x) (hq : x.queue = b :: rest) (hb : s.blockHeld b = false) :
    exec (.jigBlockWritten true) s =
      .next ((s.blockWritten x { x with queue := rest, got := b.index :: x.got.filter (fun i => i != b.index) } b b.data).jigAnswer
        { x with queue := rest, got := b.index :: x.got.filter (fun i => i != b.index) } b St.success) := by
  change execJigBlockWritten true s = _
  simp only [execJigBlockWritten, h, hq]
  exact if_neg (by rw [Bool.not_eq_true]; exact hb)

theorem exec_jigBlockWritten_failed (h : s.jig.session = some x) (hq : x.queue = b :: rest) (hb : s.blockHeld b = false) :
    exec (.jigBlockWritten false) s =
      .next ((s.draw.blockWritten x { x with queue := rest, got := x.got.filter (fun i => i != b.index) } b
        (s.freeBytes b.data.length)).jigAnswer { x with queue := rest, got := x.got.filter (fun i => i != b.index) } b St.norFail) := by
  change execJigBlockWritten false s = _
  simp only [execJigBlockWritten, h, hq]
  exact if_neg (by rw [Bool.not_eq_true]; exact hb)

theorem State.jigAnswer_jig_otp (s : State) (x : JigSession) (b : JigBlock) (st : Nat) :
    (s.jigAnswer x b st).jig = s.jig ∧ (s.jigAnswer x b st).otp = s.otp := by
  rw [State.jigAnswer]
  cases b.asked with
  | port hdr => exact ⟨rfl, rfl⟩
  | desc d =>
    have h := (s.jigLast st).completes_finish .sec d st 0 x.got.length
    exact ⟨h.jig_eq, h.otp_eq⟩

end

/-! ## Commit (R429, R430) -/

/-- A commit that fails: the event, the last status and the audit entry. -/
def State.commitFailed (s : State) (x : JigSession) (st : Nat) : State :=
  ((s.raise Ev.jigCommitFail (some .jig) (some (x.type - 1)) [x.type, st]).jigLast st).auditImage x.owner
    (imagePayload x.type 3 st x.len 0 0 [])

theorem State.commitFailed_kept (s : State) (x : JigSession) (st : Nat) : (s.commitFailed x st).jig.session = s.jig.session ∧
    (s.commitFailed x st).jig.slots = s.jig.slots ∧ (s.commitFailed x st).mem = s.mem := by
  have hjig : ((s.raise Ev.jigCommitFail (some .jig) (some (x.type - 1)) [x.type, st]).jigLast st).jig = s.jig := s.raise_jig ..
  rw [State.commitFailed, State.auditImage_session, State.auditImage_slots, State.auditImage_mem, hjig]
  exact ⟨rfl, rfl, s.raise_mem ..⟩

/-- A slot committed, its session ended and its refusal forgotten. -/
def State.commitDone (s : State) (t : Nat) (x : JigSlot) : State :=
  { (s.setSlot' t x).jigEnd with jig := { (s.setSlot' t x).jigEnd.jig with
    refused := (s.setSlot' t x).jigEnd.jig.refused.filter (· != t) } }

theorem State.commitDone_kept (s : State) (t : Nat) (x : JigSlot) : (s.commitDone t x).jig.session = none ∧
    (s.commitDone t x).slotOf t = x ∧ (s.commitDone t x).mem = s.mem ∧ (s.commitDone t x).otp = s.otp :=
  ⟨rfl, Tab.getD_set_self .., rfl, rfl⟩

/-- A commit that passes, on a slot with its directory entry. -/
def State.sessionCommitted (s : State) (x : JigSession) (sl : JigSlot) : State :=
  (((s.commitDone x.type sl).raise Ev.jigCommit (some .jig) (some (x.type - 1)) [x.type]).jigLast St.success).auditImage x.owner
    (imagePayload x.type 2 St.success x.len sl.version sl.rollback sl.meas)

theorem State.sessionCommitted_kept (s : State) (x : JigSession) (sl : JigSlot) : (s.sessionCommitted x sl).jig.session = none ∧
    (s.sessionCommitted x sl).slotOf x.type = sl ∧ (s.sessionCommitted x sl).mem = s.mem ∧ (s.sessionCommitted x sl).otp = s.otp := by
  obtain ⟨hsession, hslot, hmem, hotp⟩ := s.commitDone_kept x.type sl
  rw [State.sessionCommitted]
  generalize s.commitDone x.type sl = t at hsession hslot hmem hotp ⊢
  have hjig : ((t.raise Ev.jigCommit (some .jig) (some (x.type - 1)) [x.type]).jigLast St.success).jig = t.jig := t.raise_jig ..
  refine ⟨?_, ?_, ?_, ?_⟩
  · rw [State.auditImage_session, hjig, hsession]
  · rw [State.slotOf_of_slots (State.auditImage_slots ..), State.slotOf, hjig]
    exact hslot
  · rw [State.auditImage_mem]
    exact (t.raise_mem ..).trans hmem
  · rw [State.auditImage_otp]
    exact (t.raise_otp ..).trans hotp

section
variable {s : State} {x : JigSession}

theorem State.jigCommit_missing {i : Nat} (h : x.missing = some i) :
    s.jigCommit x = (St.incomplete, i * 65536, (s.jigTouch x).commitFailed x St.incomplete) := by
  rw [State.jigCommit, h]
  rfl

theorem State.jigCommit_checked (h : x.missing = none) : s.jigCommit x =
    if s.checkImage x.type x.len ((s.slotOf x.type).image x.len) ≠ St.success then
      (s.checkImage x.type x.len ((s.slotOf x.type).image x.len), 0,
        s.jigEnd.commitFailed x (s.checkImage x.type x.len ((s.slotOf x.type).image x.len)))
    else (St.success, 0, s.sessionCommitted x ((s.slotOf x.type).committed ((s.slotOf x.type).image x.len))) := by
  rw [State.jigCommit, h]
  rfl

variable {d : DescRef} {f : Fetched}

theorem exec_jigCommit_waits (hf : s.startedAt .sec d Op.jigCommit = some f) (hr : s.jig.recovery = false)
    (hi : s.inOrder .sec d = true) (hx : s.jigSession (s.ringOwner .sec d) (f.at 28 4) = some x) (hq : x.queue ≠ []) :
    exec (.jigCommit d) s = .next (s.setPhase .sec d .waiting) := by
  refine (State.jigOwned_owner hf hr hi hx _).trans (congrArg Host.Outcome.next (if_pos ?_))
  rw [Bool.not_eq_true', ← Bool.not_eq_true, List.isEmpty_iff]
  exact hq

theorem exec_jigCommit_done (hf : s.startedAt .sec d Op.jigCommit = some f) (hr : s.jig.recovery = false)
    (hi : s.inOrder .sec d = true) (hx : s.jigSession (s.ringOwner .sec d) (f.at 28 4) = some x) (hq : x.queue = []) :
    exec (.jigCommit d) s = .next ((s.jigCommit x).2.2.finish .sec d (s.jigCommit x).1 0 (s.jigCommit x).2.1) :=
  (State.jigOwned_owner hf hr hi hx _).trans (congrArg Host.Outcome.next (if_neg (by rw [hq]; exact Bool.false_ne_true)))

/-! ## Abort, bitmap and the idle end (R424) -/

theorem exec_jigAbort_waits (hf : s.startedAt .sec d Op.jigAbort = some f) (hr : s.jig.recovery = false)
    (hi : s.inOrder .sec d = true) (hx : s.jigSession (s.ringOwner .sec d) (f.at 28 4) = some x) (hq : x.queue ≠ []) :
    exec (.jigAbort d) s = .next ((s.jigTrim x).setPhase .sec d .waiting) := by
  refine (State.jigOwned_owner hf hr hi hx _).trans (congrArg Host.Outcome.next (if_pos ?_))
  rw [Bool.not_eq_true', ← Bool.not_eq_true, List.isEmpty_iff]
  exact hq

theorem exec_jigAbort_done (hf : s.startedAt .sec d Op.jigAbort = some f) (hr : s.jig.recovery = false)
    (hi : s.inOrder .sec d = true) (hx : s.jigSession (s.ringOwner .sec d) (f.at 28 4) = some x) (hq : x.queue = []) :
    exec (.jigAbort d) s = .next ((s.jigAbort x).finish .sec d St.success) :=
  (State.jigOwned_owner hf hr hi hx _).trans (congrArg Host.Outcome.next (if_neg (by rw [hq]; exact Bool.false_ne_true)))

theorem State.jigAbort_kept (s : State) (x : JigSession) :
    (s.jigAbort x).jig.session = none ∧ (s.jigAbort x).jig.slots = s.jig.slots := by
  rw [State.jigAbort, State.auditImage_session, State.auditImage_slots]
  exact ⟨rfl, rfl⟩

theorem exec_jigBitmap_length (hf : s.startedAt .sec d Op.jigBitmap = some f) (hr : s.jig.recovery = false)
    (hi : s.inOrder .sec d = true) (hx : s.jigSession (s.ringOwner .sec d) (f.at 28 4) = some x) (hl : f.len ≠ 48) :
    exec (.jigBitmap d) s = .next ((s.jigTouch x).finish .sec d St.lengthMismatch) :=
  (State.jigOwned_owner hf hr hi hx _).trans (congrArg Host.Outcome.next (if_pos hl))

theorem exec_jigBitmap_written {t : State} (hf : s.startedAt .sec d Op.jigBitmap = some f) (hr : s.jig.recovery = false)
    (hi : s.inOrder .sec d = true) (hx : s.jigSession (s.ringOwner .sec d) (f.at 28 4) = some x) (hl : f.len = 48)
    (hw : ((s.jigTouch x).dmaWrite .sec f.dst x.bitmap (some d.ring)).toOption = some t) :
    exec (.jigBitmap d) s = .next (t.finish .sec d St.success 0 x.got.length) := by
  refine (State.jigOwned_owner hf hr hi hx _).trans (congrArg Host.Outcome.next ((if_neg (not_not_intro hl)).trans ?_))
  rw [State.secWrite]
  cases hd : (s.jigTouch x).dmaWrite .sec f.dst x.bitmap (some d.ring) with
  | error e => rw [hd] at hw; cases hw
  | ok u =>
    rw [hd] at hw
    cases hw
    rfl

/-- The session ended by its idle limit. -/
def State.idleEnded (s : State) (x : JigSession) : State :=
  (s.jigEnd.raise Ev.jigIdleAbort (some .jig) none [x.type]).auditImage x.owner (imagePayload x.type 5 St.success x.len 0 0 [])

theorem exec_jigIdleExpiry_session (h : s.jig.session = some x) : exec .jigIdleExpiry s =
    if !s.passed x.idleBy ∨ (!s.auditRoom ∧ !s.jig.recovery) then .next s
    else if !x.queue.isEmpty then .next (s.jigTrim x) else .next (s.idleEnded x) := by
  change execJigIdleExpiry s = _
  rw [execJigIdleExpiry, h]
  rfl

theorem State.idle_due (hp : s.passed x.idleBy = true) (ha : s.auditRoom = true ∨ s.jig.recovery = true) :
    ¬ ((!s.passed x.idleBy) = true ∨ ((!s.auditRoom) = true ∧ (!s.jig.recovery) = true)) := by
  rcases ha with ha | ha <;> simp [hp, ha]

theorem State.idleEnded_kept (s : State) (x : JigSession) : (s.idleEnded x).jig.session = none ∧
    (s.idleEnded x).jig.slots = s.jig.slots ∧ (s.idleEnded x).mem = s.mem := by
  rw [State.idleEnded, State.auditImage_session, State.auditImage_slots, State.auditImage_mem, State.raise_jig, State.raise_mem]
  exact ⟨rfl, rfl, rfl⟩

theorem State.auditImage_staged {s : State} (h : s.jig.recovery = false) (o : Nat) (p : List Byte) :
    (s.auditImage o p).aud.staged.length = s.aud.staged.length + 1 := by
  have hstage : (s.auditImage o p) = s.stage 5 o 0xFFFF (unitN .jig) 0 0 0 p :=
    if_neg (by rw [h]; exact Bool.false_ne_true)
  rw [hstage]
  exact List.length_append

theorem State.idleEnded_staged (h : s.jig.recovery = false) (x : JigSession) :
    (s.idleEnded x).aud.staged.length = s.aud.staged.length + 1 := by
  have hrec : (s.jigEnd.raise Ev.jigIdleAbort (some .jig) none [x.type]).jig.recovery = false := by
    rw [State.raise_jig]
    exact h
  rw [State.idleEnded, State.auditImage_staged hrec, State.raise_aud]
  rfl

end

/-! ## Activations (R431 to R434) -/

/-- An activation refused with a status. -/
def State.activateRefused (s : State) (d : DescRef) (st : Nat) : State := (s.jigLast st).finish .sec d st

/-- An activation entered and its descriptor waiting. -/
def State.activateEntered (s : State) (d : DescRef) (t : Nat) : State :=
  (s.setJig { s.jig with acts := s.jig.acts ++ [(t, d)] }).setPhase .sec d .waiting

/-- The first step of an activation by its type. -/
def State.activateBegun (s : State) (d : DescRef) (t : Nat) : State :=
  if t = 2 then { s.activateEntered d t with
    sup := { (s.activateEntered d t).sup with mgmtInReset := true }, mgt := { (s.activateEntered d t).mgt with fwRunning := false } }
  else if t = 1 ∧ !(s.activateEntered d t).on SEC_CTL.SHUTDOWN then ((s.activateEntered d t).wr SEC_CTL.SHUTDOWN 1).seal true
  else s.activateEntered d t

/-- Whether a slot cannot be activated now: no committed image, a session or an activation of its type, or rings not quiet. -/
def State.activateBlocked (s : State) (t : Nat) : Prop :=
  (s.slotOf t).st ≠ 2 ∨ s.jig.session.map (·.type) = some t ∨ s.jig.acts.any (fun a => a.1 == t) = true ∨
    (t ≠ 2 ∧ (!s.jigRingsQuiet) = true)

section
variable {s : State} {d : DescRef} {f : Fetched} (hf : s.startedAt .sec d Op.jigActivate = some f) (hr : s.jig.recovery = false)
  (hi : s.inOrder .sec d = true)
include hf hr hi

theorem exec_jigActivate_waiting (ha : (s.jig.acts.any fun a => a.2 == d) = true) : exec (.jigActivate d) s = .next s :=
  (State.jigDesc_turn hf hr hi _).trans (congrArg Host.Outcome.next (if_pos ha))

variable (ha : (s.jig.acts.any fun a => a.2 == d) = false)
include ha

theorem exec_jigActivate_type (ht : f.at 28 1 = 0 ∨ 3 < f.at 28 1) :
    exec (.jigActivate d) s = .next (s.activateRefused d St.typeInvalid) :=
  (State.jigDesc_turn hf hr hi _).trans
    (congrArg Host.Outcome.next ((if_neg (by rw [ha]; exact Bool.false_ne_true)).trans (if_pos ht)))

theorem exec_jigActivate_undrained (ht : f.at 28 1 = 1 ∨ f.at 28 1 = 3) (hl : s.leaseMode ≠ Lmode.drained ∨ s.rd LEASE_STATUS.PEER ≠ 1) :
    exec (.jigActivate d) s = .next (s.activateRefused d St.notDrained) := by
  have htype : ¬ (f.at 28 1 = 0 ∨ 3 < f.at 28 1) := by omega
  refine (State.jigDesc_turn hf hr hi _).trans (congrArg Host.Outcome.next ?_)
  exact (if_neg (by rw [ha]; exact Bool.false_ne_true)).trans ((if_neg htype).trans (if_pos ⟨by omega, hl⟩))

variable (ht : 1 ≤ f.at 28 1 ∧ f.at 28 1 ≤ 3) (hl : f.at 28 1 ≠ 2 → s.leaseMode = Lmode.drained ∧ s.rd LEASE_STATUS.PEER = 1)
include ht hl

omit hf hr hi ha in
theorem exec_jigActivate_drained : ¬ (f.at 28 1 = 0 ∨ 3 < f.at 28 1) ∧
    ¬ (f.at 28 1 ≠ 2 ∧ (s.leaseMode ≠ Lmode.drained ∨ s.rd LEASE_STATUS.PEER ≠ 1)) := by
  refine ⟨by omega, ?_⟩
  rintro ⟨h2, h | h⟩
  · exact h (hl h2).1
  · exact h (hl h2).2

theorem exec_jigActivate_blocked (hb : s.activateBlocked (f.at 28 1)) :
    exec (.jigActivate d) s = .next (s.activateRefused d St.activateBusy) := by
  obtain ⟨htype, hlease⟩ := exec_jigActivate_drained ht hl
  refine (State.jigDesc_turn hf hr hi _).trans (congrArg Host.Outcome.next ?_)
  exact (if_neg (by rw [ha]; exact Bool.false_ne_true)).trans ((if_neg htype).trans ((if_neg hlease).trans (if_pos hb)))

theorem exec_jigActivate_begun (hb : ¬ s.activateBlocked (f.at 28 1)) :
    exec (.jigActivate d) s = .next (s.activateBegun d (f.at 28 1)) := by
  obtain ⟨htype, hlease⟩ := exec_jigActivate_drained ht hl
  refine (State.jigDesc_turn hf hr hi _).trans (congrArg Host.Outcome.next ?_)
  exact (if_neg (by rw [ha]; exact Bool.false_ne_true)).trans ((if_neg htype).trans ((if_neg hlease).trans (if_neg hb)))

end

theorem State.activateBegun_mgmt (s : State) (d : DescRef) : (s.activateBegun d 2).jig.acts = s.jig.acts ++ [(2, d)] ∧
    (s.activateBegun d 2).sup.mgmtInReset = true ∧ (s.activateBegun d 2).mgt.fwRunning = false ∧ (s.activateBegun d 2).mem = s.mem ∧
    (s.activateBegun d 2).jig.slots = s.jig.slots := ⟨rfl, rfl, rfl, rfl, rfl⟩

theorem State.rd_shutdown_activateEntered (s : State) (d : DescRef) (t : Nat) :
    (s.activateEntered d t).on SEC_CTL.SHUTDOWN = s.on SEC_CTL.SHUTDOWN := by
  have h : (s.activateEntered d t).rd SEC_CTL.SHUTDOWN = s.rd SEC_CTL.SHUTDOWN := by
    change (((((({ s with jig := _ } : State).wr _ _).wr _ _).wr _ _).wr _ _)).rd SEC_CTL.SHUTDOWN = _
    rw [State.rd_wr_ne _ _ (by decide), State.rd_wr_ne _ _ (by decide), State.rd_wr_ne _ _ (by decide),
      State.rd_wr_ne _ _ (by decide)]
    rfl
  rw [State.on, State.on, h]

theorem State.activateBegun_isl (s : State) (d : DescRef) : s.activateBegun d 1 =
    if s.on SEC_CTL.SHUTDOWN then s.activateEntered d 1 else ((s.activateEntered d 1).wr SEC_CTL.SHUTDOWN 1).seal true := by
  rw [State.activateBegun, if_neg (by decide), s.rd_shutdown_activateEntered]
  cases s.on SEC_CTL.SHUTDOWN
  · exact if_pos ⟨rfl, rfl⟩
  · exact if_neg fun h => Bool.false_ne_true h.2

/-! ## The end of an activation -/

/-- The state an activation ends in: the image of a slot runs, or the slot is written off. -/
def State.imageTried (s : State) (ok : Bool) (type : Nat) (x : JigSlot) : State :=
  if ok then s.imageRuns type x (x.image x.len) else s.setSlot' type { x with st := 1 }

/-- The descriptor of an activation answered, and the activation journaled. -/
def State.activationAnswered (s : State) (ok : Bool) (type : Nat) (x : JigSlot) (d : DescRef) (st : Nat) : State :=
  ((s.jigLast st).auditImage (s.ringOwner .sec d)
    (imagePayload type 6 st x.len x.version x.rollback (if ok then x.meas else []))).finish .sec d st 0 (if ok then x.version else 0)

/-- A peer lost during an activation handled after it (R434). -/
def State.lossHandled (s : State) : State :=
  if s.leaseU.lossDue ∧ !s.activating then (s.setLease { s.leaseU with lossDue := false }).peerLoss else s

theorem State.lossHandled_eq (s : State) : s.lossHandled = if s.leaseU.lossDue = true ∧ s.activating = false then
    (s.setLease { s.leaseU with lossDue := false }).peerLoss else s := by
  rw [State.lossHandled]
  exact if_congr (and_congr_right' (by rw [Bool.not_eq_true'])) rfl rfl

theorem State.lossHandled_of_not_due {s : State} (h : s.leaseU.lossDue = false) : s.lossHandled = s :=
  if_neg fun hd => Bool.false_ne_true (h.symm.trans hd.1)

/-- The activation of a type ended, before its descriptor is answered. -/
def State.activationEnded (s : State) (type : Nat) : State :=
  (((s.setJig { s.jig with acts := s.jig.acts.filter fun b => b.1 != type }).imageTried (s.imageOk type) type (s.slotOf type)).releaseImage
    type).raise Ev.jigActivate (some .jig) (some (type - 1))
    [type, (s.slotOf type).version, if s.imageOk type then St.success else St.digestMismatch]

section
variable {s : State} {type : Nat}

theorem exec_jigActivationDone_stays
    (h : s.jig.acts.find? (fun a => a.1 == type) = none ∨ type = 1 ∨ s.auditRoom = false) :
    exec (.jigActivationDone type) s = .next s := by
  change execJigActivationDone type s = _
  rw [execJigActivationDone]
  split
  · rfl
  · next a ha =>
    rcases h with h | h
    · rw [h] at ha
      cases ha
    · exact if_pos (h.imp id fun h => by rw [h]; rfl)

theorem exec_jigActivationDone_ends {a : Nat × DescRef} (ha : s.jig.acts.find? (fun a => a.1 == type) = some a) (ht : type ≠ 1)
    (hroom : s.auditRoom = true) : exec (.jigActivationDone type) s =
      .next ((s.activationEnded type).activationAnswered (s.imageOk type) type (s.slotOf type) a.2
        (if s.imageOk type then St.success else St.digestMismatch)).lossHandled := by
  have hc : ¬ (type = 1 ∨ (!s.auditRoom) = true) := by
    rw [hroom]
    exact fun h => h.elim ht Bool.false_ne_true
  change execJigActivationDone type s = _
  rw [execJigActivationDone, ha]
  exact if_neg hc

end

/-! ### What an image that begins to run leaves -/

theorem State.keepGroup_jig_leaseU (s : State) (g format : Nat) (data : List Byte) :
    (s.keepGroup g format data).jig = s.jig ∧ (s.keepGroup g format data).leaseU = s.leaseU := by
  have h := (s.windowChange_keepGroup g format data).rest
  generalize s.keepGroup g format data = t at h
  rw [h]
  exact ⟨rfl, rfl⟩

theorem State.settingsDefault_jig_leaseU (s : State) (g stored version : Nat) :
    (s.settingsDefault g stored version).jig = s.jig ∧ (s.settingsDefault g stored version).leaseU = s.leaseU := by
  obtain ⟨hjig, hlease⟩ := s.keepGroup_jig_leaseU g version []
  simp only [State.settingsDefault]
  generalize s.keepGroup g version [] = t at hjig hlease ⊢
  have hraise := t.completes_raise Ev.settingsReset (some .jig) none [g, stored, version] none
  split
  · exact ⟨hraise.jig_eq.trans hjig, hraise.leaseU_eq.trans hlease⟩
  · exact ⟨hraise.jig_eq.trans hjig, hraise.leaseU_eq.trans hlease⟩

theorem State.settingsCheck_jig_leaseU (s : State) (g version : Nat) :
    (s.settingsCheck g version).jig = s.jig ∧ (s.settingsCheck g version).leaseU = s.leaseU := by
  simp only [State.settingsCheck]
  split
  · split
    · exact ⟨rfl, rfl⟩
    · exact s.settingsDefault_jig_leaseU ..
  · split
    · exact ⟨rfl, rfl⟩
    · have h := s.completes_raise Ev.drwCorrupt (some .drw) none [g] none
      obtain ⟨hjig, hlease⟩ := (s.raise Ev.drwCorrupt (some .drw) none [g]).settingsDefault_jig_leaseU g 0xFFFF version
      exact ⟨hjig.trans h.jig_eq, hlease.trans h.leaseU_eq⟩

theorem State.settingsApply_jig_leaseU (s : State) (img : List Byte) :
    (s.settingsApply img).jig = s.jig ∧ (s.settingsApply img).leaseU = s.leaseU := by
  rw [State.settingsApply]
  generalize imgSettings img = l
  induction l generalizing s with
  | nil => exact ⟨rfl, rfl⟩
  | cons e l ih =>
    obtain ⟨hjig, hlease⟩ := s.settingsCheck_jig_leaseU e.1 e.2
    obtain ⟨ihjig, ihlease⟩ := ih (s.settingsCheck e.1 e.2)
    exact ⟨ihjig.trans hjig, ihlease.trans hlease⟩

theorem State.setMeasurement_jig_leaseU (s : State) (t : Nat) (m : List Byte) :
    (s.setMeasurement t m).jig = s.jig ∧ (s.setMeasurement t m).leaseU = s.leaseU := by
  rw [State.setMeasurement]
  generalize List.range 8 = l
  induction l generalizing s with
  | nil => exact ⟨rfl, rfl⟩
  | cons w l ih => exact ih (s.wr (SEC_MEAS.BYTES (t - 1) w) (fieldAt m (8 * w) 8))

theorem State.raiseRollback_jig_leaseU (s : State) (t n : Nat) :
    (s.raiseRollback t n).jig = s.jig ∧ (s.raiseRollback t n).leaseU = s.leaseU := by
  simp only [State.raiseRollback]
  split
  · exact ⟨rfl, rfl⟩
  · exact ⟨rfl, rfl⟩

theorem State.imageRuns_jig_leaseU (s : State) (t : Nat) (x : JigSlot) (img : List Byte) :
    (s.imageRuns t x img).jig = { s.jig with running := t :: s.jig.running.filter (· != t) } ∧
      (s.imageRuns t x img).leaseU = s.leaseU := by
  obtain ⟨hmeas, hmeasL⟩ := s.setMeasurement_jig_leaseU t x.meas
  obtain ⟨hroll, hrollL⟩ := (s.setMeasurement t x.meas).raiseRollback_jig_leaseU t x.rollback
  obtain ⟨hset, hsetL⟩ := ((s.setMeasurement t x.meas).raiseRollback t x.rollback).settingsApply_jig_leaseU img
  simp only [State.imageRuns]
  generalize ((s.setMeasurement t x.meas).raiseRollback t x.rollback).settingsApply img = u at hset hsetL ⊢
  have hjig : u.jig = s.jig := hset.trans (hroll.trans hmeas)
  refine ⟨?_, hsetL.trans (hrollL.trans hmeasL)⟩
  change { u.jig with running := t :: u.jig.running.filter (· != t) } = _
  rw [hjig]

/-! ### The end of the management firmware's activation -/

theorem State.activationAnswered_kept (s : State) (ok : Bool) (type : Nat) (x : JigSlot) (d : DescRef) (st : Nat) :
    (∃ k, (s.activationAnswered ok type x d st).jig = { s.jig with kept := k }) ∧
      (s.activationAnswered ok type x d st).sup = s.sup ∧ (s.activationAnswered ok type x d st).mgt = s.mgt ∧
      (s.activationAnswered ok type x d st).leaseU = s.leaseU := by
  have hlast : (s.jigLast st).jig = s.jig := rfl
  have hkept := (s.jigLast st).auditImage_jig (s.ringOwner .sec d)
    (imagePayload type 6 st x.len x.version x.rollback (if ok then x.meas else []))
  obtain ⟨c, j, a, hrest⟩ := (s.jigLast st).auditImage_rest (s.ringOwner .sec d)
    (imagePayload type 6 st x.len x.version x.rollback (if ok then x.meas else []))
  rw [State.activationAnswered]
  generalize (s.jigLast st).auditImage (s.ringOwner .sec d) _ = t at hkept hrest ⊢
  have h := t.completes_finish .sec d st 0 (if ok then x.version else 0)
  obtain ⟨k, hk⟩ := hkept
  refine ⟨⟨k, by rw [h.jig_eq, hk, hlast]⟩, ?_, ?_, ?_⟩
  · rw [h.sup_eq, hrest]
    rfl
  · rw [h.mgt_eq, hrest]
    rfl
  · rw [h.leaseU_eq, hrest]
    rfl

theorem State.releaseImage_jig_leaseU (s : State) (t : Nat) :
    (s.releaseImage t).jig = s.jig ∧ (s.releaseImage t).leaseU = s.leaseU := by
  rw [State.releaseImage]
  split
  · exact ⟨rfl, rfl⟩
  · exact ⟨rfl, rfl⟩

theorem State.releaseImage_mgmt {s : State} (h : s.jig.running.contains 2 = true) :
    (s.releaseImage 2).sup.mgmtInReset = false ∧ (s.releaseImage 2).mgt.fwRunning = true := by
  rw [State.releaseImage, if_pos ⟨rfl, h⟩]
  exact ⟨rfl, rfl⟩

theorem State.activationEnded_kept (s : State) (type : Nat) : (s.activationEnded type).leaseU = s.leaseU ∧
    (s.activationEnded type).jig.acts = s.jig.acts.filter (fun b => b.1 != type) := by
  have hraise := State.completes_raise (((s.setJig { s.jig with acts := s.jig.acts.filter fun b => b.1 != type }).imageTried
    (s.imageOk type) type (s.slotOf type)).releaseImage type) Ev.jigActivate (some .jig) (some (type - 1))
    [type, (s.slotOf type).version, if s.imageOk type then St.success else St.digestMismatch] none
  obtain ⟨hreljig, hrellease⟩ := ((s.setJig { s.jig with acts := s.jig.acts.filter fun b => b.1 != type }).imageTried
    (s.imageOk type) type (s.slotOf type)).releaseImage_jig_leaseU type
  rw [State.activationEnded, hraise.leaseU_eq, hraise.jig_eq, hreljig, hrellease, State.imageTried]
  cases s.imageOk type with
  | true =>
    obtain ⟨hjig, hlease⟩ := (s.setJig { s.jig with acts := s.jig.acts.filter fun b => b.1 != type }).imageRuns_jig_leaseU type
      (s.slotOf type) ((s.slotOf type).image (s.slotOf type).len)
    rw [if_pos rfl, hjig, hlease]
    exact ⟨rfl, rfl⟩
  | false => exact ⟨rfl, rfl⟩

/-- The activation of the management firmware ends with the old image written off, or with the new one running. -/
theorem State.activationEnded_mgmt (s : State) :
    (s.imageOk 2 = false → ((s.activationEnded 2).slotOf 2).st = 1 ∧ (s.activationEnded 2).jig.running = s.jig.running) ∧
    (s.imageOk 2 = true → 2 ∈ (s.activationEnded 2).jig.running ∧ (s.activationEnded 2).sup.mgmtInReset = false ∧
      (s.activationEnded 2).mgt.fwRunning = true) := by
  have hraise := State.completes_raise (((s.setJig { s.jig with acts := s.jig.acts.filter fun b => b.1 != 2 }).imageTried
    (s.imageOk 2) 2 (s.slotOf 2)).releaseImage 2) Ev.jigActivate (some .jig) (some 1)
    [2, (s.slotOf 2).version, if s.imageOk 2 then St.success else St.digestMismatch] none
  have hreljig := ((s.setJig { s.jig with acts := s.jig.acts.filter fun b => b.1 != 2 }).imageTried
    (s.imageOk 2) 2 (s.slotOf 2)).releaseImage_jig_leaseU 2 |>.1
  constructor
  · intro hok
    have hjig := hraise.jig_eq.trans hreljig
    rw [hok] at hjig
    refine ⟨?_, ?_⟩
    · rw [State.slotOf, State.activationEnded, hok, hjig]
      exact congrArg JigSlot.st (Tab.getD_set_self ..)
    · rw [State.activationEnded, hok, hjig]
      rfl
  · intro hok
    obtain ⟨hruns, -⟩ := (s.setJig { s.jig with acts := s.jig.acts.filter fun b => b.1 != 2 }).imageRuns_jig_leaseU 2
      (s.slotOf 2) ((s.slotOf 2).image (s.slotOf 2).len)
    have htried : ((s.setJig { s.jig with acts := s.jig.acts.filter fun b => b.1 != 2 }).imageTried
        (s.imageOk 2) 2 (s.slotOf 2)).jig.running = 2 :: s.jig.running.filter (· != 2) := by
      rw [State.imageTried, hok, if_pos rfl, hruns]
      rfl
    obtain ⟨hreset, hfw⟩ := State.releaseImage_mgmt (by rw [htried]; rfl)
    rw [State.activationEnded, hraise.jig_eq, hraise.sup_eq, hraise.mgt_eq, hreljig, htried, hreset, hfw]
    exact ⟨List.mem_cons_self, rfl, rfl⟩

theorem exec_jigActivationDone_mgmt {s : State} {d : DescRef} (ha : s.jig.acts = [(2, d)]) (hroom : s.auditRoom = true)
    (hdue : s.leaseU.lossDue = false) : ∃ t : State, exec (.jigActivationDone 2) s = .next t ∧ t.jig.acts = [] ∧
      (s.imageOk 2 = false → (t.slotOf 2).st = 1 ∧ t.jig.running = s.jig.running) ∧
      (s.imageOk 2 = true → 2 ∈ t.jig.running ∧ t.sup.mgmtInReset = false ∧ t.mgt.fwRunning = true) := by
  have hfind : s.jig.acts.find? (fun a => a.1 == 2) = some (2, d) := by rw [ha]; rfl
  obtain ⟨hlease, hacts⟩ := s.activationEnded_kept 2
  obtain ⟨hbad, hgood⟩ := s.activationEnded_mgmt
  obtain ⟨⟨k, hjig⟩, hsup, hmgt, hlease'⟩ := (s.activationEnded 2).activationAnswered_kept (s.imageOk 2) 2 (s.slotOf 2) d
    (if s.imageOk 2 then St.success else St.digestMismatch)
  rw [exec_jigActivationDone_ends hfind (by decide) hroom,
    State.lossHandled_of_not_due ((congrArg LeaseU.lossDue (hlease'.trans hlease)).trans hdue)]
  refine ⟨_, rfl, ?_, ?_, ?_⟩
  · rw [hjig]
    exact hacts.trans (by rw [ha]; rfl)
  · intro hok
    obtain ⟨hslot, hrun⟩ := hbad hok
    rw [State.slotOf, hjig]
    exact ⟨hslot, hrun⟩
  · intro hok
    obtain ⟨hrun, hreset, hfw⟩ := hgood hok
    rw [hjig, hsup, hmgt]
    exact ⟨hrun, hreset, hfw⟩

/-! ## The obligation -/

/-- Settles O49: each clause by the branch its request takes, and by what the Jig's operations leave. -/
theorem jigSessionsThroughTheIslandRing : Obligations.JigSessionsThroughTheIslandRing := by
  unfold Obligations.JigSessionsThroughTheIslandRing
  refine ⟨?busy, ?type, ?long, ?activating, ?opens, ?begin, ?blockForeign, ?commitForeign, ?abortForeign, ?bitmapForeign,
    ?beginStays, ?blockStays, ?commitStays, ?abortStays, ?bitmapStays, ?activateStays, ?range, ?length, ?fault, ?queued,
    ?blockWaits, ?taken, ?notWriting, ?written, ?failedState, ?failed, ?held, ?commitWaits, ?commit, ?missing, ?checked,
    ?abortWaits, ?abort, ?bitmapLength, ?bitmap, ?idleNone, ?idleEarly, ?idleTrim, ?idleState, ?idle, ?actType, ?actUndrained,
    ?actMgmtBlocked, ?actMgmt, ?actWaiting, ?actBlocked, ?actUcode, ?actIsl, ?doneState, ?doneStays, ?done⟩
  case busy =>
    intro s owner t len x h
    rw [State.jigBegin_busy h]
    exact ⟨rfl, rfl, s.beginRefused_session ..⟩
  case type =>
    intro s owner t len h ht
    rw [State.jigBegin_type h ht]
    exact ⟨rfl, (s.beginRefused_session ..).trans h⟩
  case long =>
    intro s owner t len h h1 h3 hrec hl
    rw [State.jigBegin_tooLong h h1 h3 hrec hl]
    exact ⟨rfl, (s.beginRefused_session ..).trans h⟩
  case activating =>
    intro s owner t len h h1 h3 hrec hl ha
    rw [State.jigBegin_activating h h1 h3 hrec hl ha]
    exact ⟨rfl, (s.beginRefused_session ..).trans h⟩
  case opens =>
    intro s owner t len h h1 h3 hrec hl ha
    obtain ⟨hsession, hst, hlen, hmem, hotp⟩ := s.begun_rest owner t len
    rw [State.jigBegin_opens h h1 h3 hrec hl ha]
    refine ⟨s.sessionBegun owner t len, rfl, rfl, ?_, rfl, rfl, rfl, rfl, rfl, ?_, ?_, ?_, ?_⟩
    · exact (State.auditImage_session ..).trans hsession
    · rw [State.slotOf_of_slots (State.auditImage_slots ..)]
      exact hst
    · rw [State.slotOf_of_slots (State.auditImage_slots ..)]
      exact hlen
    · exact (State.auditImage_mem ..).trans hmem
    · exact (State.auditImage_otp ..).trans hotp
  case begin =>
    intro s d f hf hr hi
    exact State.jigDesc_turn hf hr hi _
  case blockForeign =>
    intro s d f hf hr hi hx
    exact State.jigOwned_foreign hf hr hi hx _
  case commitForeign =>
    intro s d f hf hr hi hx
    exact State.jigOwned_foreign hf hr hi hx _
  case abortForeign =>
    intro s d f hf hr hi hx
    exact State.jigOwned_foreign hf hr hi hx _
  case bitmapForeign =>
    intro s d f hf hr hi hx
    exact State.jigOwned_foreign hf hr hi hx _
  case beginStays =>
    intro s d f hf h
    exact State.jigDesc_stays hf h _
  case blockStays =>
    intro s d f hf h
    exact State.jigDesc_stays hf h _
  case commitStays =>
    intro s d f hf h
    exact State.jigDesc_stays hf h _
  case abortStays =>
    intro s d f hf h
    exact State.jigDesc_stays hf h _
  case bitmapStays =>
    intro s d f hf h
    exact State.jigDesc_stays hf h _
  case activateStays =>
    intro s d f hf h
    exact State.jigDesc_stays hf h _
  case range =>
    intro x off len h
    exact blockFault_range len h
  case length =>
    intro x off len h hlt
    exact blockFault_length len h hlt
  case fault =>
    intro s d f x hf hr hi hx hq hb
    exact exec_jigBlock_fault hf hr hi hx hq hb
  case queued =>
    intro s d f x bs hf hr hi hx hq hb hd
    obtain ⟨hsession, hmem, hslots⟩ := (s.jigTouch x).jigQueue_waiting (s.touched x) d ⟨.desc d, f.at 32 4 / 65536, bs⟩
    obtain ⟨hqueue, hgot, hidle⟩ := (s.touched x).queued_kept ⟨.desc d, f.at 32 4 / 65536, bs⟩
    obtain ⟨hqueue', hgot', hidle'⟩ := s.touched_kept x
    exact ⟨_, _, exec_jigBlock_taken hf hr hi hx hq hb hd, hsession, hqueue.trans (by rw [hqueue']), hgot.trans hgot',
      hidle.trans hidle', hmem, hslots⟩
  case blockWaits =>
    intro s d f x hf hr hi hx hq
    exact exec_jigBlock_queued hf hr hi hx hq
  case taken =>
    rintro s d f x bs y t hf hr hi hx hq hb rfl hd hy
    obtain rfl : s.touched x = y := Option.some.inj ((s.jigTouch_session x).symm.trans hy)
    exact exec_jigBlock_taken hf hr hi hx hq hb hd
  case notWriting =>
    intro s ok h
    cases hs : s.jig.session with
    | none => exact exec_jigBlockWritten_none hs ok
    | some x =>
      rw [hs] at h
      exact exec_jigBlockWritten_empty hs (Option.some.inj (h.resolve_left (by simp))) ok
  case written =>
    rintro s x y b rest u h hq hroom rfl rfl
    exact exec_jigBlockWritten_ok h hq (State.blockHeld_of_room hroom)
  case failedState =>
    rintro s x y b rest u h hq hroom rfl rfl
    exact exec_jigBlockWritten_failed h hq (State.blockHeld_of_room hroom)
  case failed =>
    intro s x b rest h hq hroom
    refine ⟨_, { x with queue := rest, got := x.got.filter fun i => i != b.index },
      exec_jigBlockWritten_failed h hq (State.blockHeld_of_room hroom), ?_, rfl, rfl, ?_⟩
    · rw [(State.jigAnswer_jig_otp _ _ b _).1]
      rfl
    · rw [(State.jigAnswer_jig_otp _ _ b _).2]
      rfl
  case held =>
    intro s ok x d i bs rest h hq ha
    exact exec_jigBlockWritten_held h hq (congrArg (!·) ha) ok
  case commitWaits =>
    intro s d f x hf hr hi hx hq
    exact exec_jigCommit_waits hf hr hi hx hq
  case commit =>
    intro s d f x hf hr hi hx hq
    exact exec_jigCommit_done hf hr hi hx hq
  case missing =>
    intro s x i h hm
    obtain ⟨hsession, hslots, -⟩ := (s.jigTouch x).commitFailed_kept x St.incomplete
    rw [State.jigCommit_missing hm]
    exact ⟨rfl, rfl, congrArg Option.isSome hsession, hslots⟩
  case checked =>
    intro s x h hm
    have heq := State.jigCommit_checked (s := s) hm
    generalize s.checkImage x.type x.len ((s.slotOf x.type).image x.len) = st at heq ⊢
    cases st with
    | zero =>
      obtain ⟨hsession, hslot, hmem, hotp⟩ := s.sessionCommitted_kept x
        ((s.slotOf x.type).committed ((s.slotOf x.type).image x.len))
      rw [heq.trans (if_neg (not_not_intro rfl))]
      exact ⟨rfl, hsession, congrArg JigSlot.st hslot, (congrArg JigSlot.blocks hslot :), hmem, hotp⟩
    | succ n =>
      obtain ⟨hsession, hslots, hmem⟩ := s.jigEnd.commitFailed_kept x (n + 1)
      rw [heq.trans (if_pos (Nat.succ_ne_zero n))]
      exact ⟨rfl, hsession, hslots, hmem⟩
  case abortWaits =>
    intro s d f x hf hr hi hx hq
    exact exec_jigAbort_waits hf hr hi hx hq
  case abort =>
    intro s d f x hf hr hi hx hq
    exact ⟨exec_jigAbort_done hf hr hi hx hq, s.jigAbort_kept x⟩
  case bitmapLength =>
    intro s d f x hf hr hi hx hl
    exact exec_jigBitmap_length hf hr hi hx hl
  case bitmap =>
    intro s d f x t hf hr hi hx hl hw
    exact exec_jigBitmap_written hf hr hi hx hl hw
  case idleNone =>
    intro s h
    change execJigIdleExpiry s = _
    rw [execJigIdleExpiry, h]
  case idleEarly =>
    intro s x h hp
    rw [exec_jigIdleExpiry_session h, if_pos]
    rcases hp with hp | ⟨ha, hr⟩
    · exact .inl (by rw [hp]; rfl)
    · exact .inr ⟨by rw [ha]; rfl, by rw [hr]; rfl⟩
  case idleTrim =>
    intro s x h hp ha hq
    rw [exec_jigIdleExpiry_session h, if_neg (State.idle_due hp ha), if_pos]
    rw [Bool.not_eq_true', ← Bool.not_eq_true, List.isEmpty_iff]
    exact hq
  case idleState =>
    intro s x h hp ha hq
    rw [exec_jigIdleExpiry_session h, if_neg (State.idle_due hp ha), hq]
    rfl
  case idle =>
    intro s x h hp ha hq
    obtain ⟨hsession, hslots, hmem⟩ := s.idleEnded_kept x
    refine ⟨s.idleEnded x, ?_, hsession, hslots, hmem, fun hr => State.idleEnded_staged hr x⟩
    rw [exec_jigIdleExpiry_session h, if_neg (State.idle_due hp ha), hq]
    rfl
  case actType =>
    intro s d f hf hr hi ha ht
    exact exec_jigActivate_type hf hr hi (by rw [ha]; rfl) ht
  case actUndrained =>
    intro s d f hf hr hi ha ht hl
    exact exec_jigActivate_undrained hf hr hi (by rw [ha]; rfl) ht hl
  case actMgmtBlocked =>
    intro s d f hf hr hi ha ht hb
    refine exec_jigActivate_blocked hf hr hi (by rw [ha]; rfl) (by omega) (fun h => absurd ht h) ?_
    rw [ht]
    exact hb.imp id .inl
  case actMgmt =>
    intro s d f hf hr hi ha ht hst hses
    have hfree : ¬ s.activateBlocked (f.at 28 1) := by
      rw [State.activateBlocked, ht, hst, hses, ha]
      simp
    obtain ⟨hacts, hreset, hfw, hmem, hslots⟩ := s.activateBegun_mgmt d
    refine ⟨s.activateBegun d 2, ?_, hacts.trans (by rw [ha]; rfl), hreset, hfw, hmem, hslots⟩
    rw [exec_jigActivate_begun hf hr hi (by rw [ha]; rfl) (by omega) (fun h => absurd ht h) hfree, ht]
  case actWaiting =>
    intro s d f hf hr hi ha
    exact exec_jigActivate_waiting hf hr hi ha
  case actBlocked =>
    intro s d f hf hr hi ha ht hm hp hb
    refine exec_jigActivate_blocked hf hr hi ha (by omega) (fun _ => ⟨hm, hp⟩) ?_
    refine hb.imp id (.imp id (.imp id fun hq => ⟨by omega, ?_⟩))
    rw [hq]
    rfl
  case actUcode =>
    rintro s d f u hf hr hi ha ht hm hp hst hses hacts hq rfl
    have hfree : ¬ s.activateBlocked (f.at 28 1) := by
      rw [State.activateBlocked, ht, hst, hacts, hq]
      simp [hses]
    rw [exec_jigActivate_begun hf hr hi ha (by omega) (fun _ => ⟨hm, hp⟩) hfree, ht]
    rfl
  case actIsl =>
    rintro s d f u hf hr hi ha ht hm hp hst hses hacts hq rfl
    have hfree : ¬ s.activateBlocked (f.at 28 1) := by
      rw [State.activateBlocked, ht, hst, hacts, hq]
      simp [hses]
    rw [exec_jigActivate_begun hf hr hi ha (by omega) (fun _ => ⟨hm, hp⟩) hfree, ht, s.activateBegun_isl]
    rfl
  case doneState =>
    rintro s type a x st t u w ha ht hroom rfl rfl rfl rfl rfl
    rw [exec_jigActivationDone_ends ha ht hroom, State.lossHandled_eq]
    rfl
  case doneStays =>
    intro s type h
    exact exec_jigActivationDone_stays h
  case done =>
    intro s d ha hroom hdue
    exact exec_jigActivationDone_mgmt ha hroom hdue

end Sys2Proof.Machine
end

section
/-! O57: no step clears a fuse. For each function of the model, in the model's order, one lemma: it keeps the fuses of a
state `s₀` if the states it is given keep them. -/
namespace Sys2Proof.Machine
open Sys2Proof

/-- From `s` to `t` no fuse is cleared, and OTP stays in its canonical form. -/
structure State.FusesKept (s t : State) : Prop where
  kept : Memory.wf s.otp = true → Memory.wf t.otp = true ∧ s.OtpWithin t

/-- `FusesKept` of the state an option holds. -/
structure OptKept (s₀ : State) (o : Option State) : Prop where
  some : ∀ t, o = some t → s₀.FusesKept t

/-- `FusesKept` of the state in the pair an option holds. -/
structure OptPairKept {α : Type} (s₀ : State) (o : Option (α × State)) : Prop where
  some : ∀ p, o = some p → s₀.FusesKept p.2

/-- `FusesKept` of the state of a success. -/
structure ExcKept {ε : Type} (s₀ : State) (r : Except ε State) : Prop where
  ok : ∀ t, r = .ok t → s₀.FusesKept t

/-- `FusesKept` of the state a command leaves. -/
structure OutKept (s₀ : State) (o : Host.Outcome State Fault Refusal) : Prop where
  next : ∀ t, o = .next t → s₀.FusesKept t

/-- Used as an eliminator, it replaces a function of the model by one of which only the premises at hand are known. -/
theorem opaquely {α : Sort*} {motive : α → Prop} (of_all : ∀ a, motive a) (a : α) : motive a := of_all a

section
variable {s₀ s t u : State} {α β γ ε : Type}

namespace State.FusesKept

theorem refl (s : State) : s.FusesKept s := ⟨fun h => ⟨h, .refl s⟩⟩

theorem trans (h : s₀.FusesKept s) (k : s.FusesKept t) : s₀.FusesKept t :=
  ⟨fun w => ⟨(k.kept (h.kept w).1).1, (h.kept w).2.trans (k.kept (h.kept w).1).2⟩⟩

theorem upd (h : s₀.FusesKept s) (e : t.otp = s.otp) : s₀.FusesKept t :=
  ⟨fun w => by rw [State.OtpWithin, e]; exact h.kept w⟩

theorem wr {f : Fld} {v : Nat} (h : s₀.FusesKept s) : s₀.FusesKept (s.wr f v) := h.upd rfl

theorem ite {c : Prop} [Decidable c] (ht : s₀.FusesKept t) (hu : s₀.FusesKept u) :
    s₀.FusesKept (if c then t else u) := by
  split
  · exact ht
  · exact hu

theorem ite_snd {c : Prop} [Decidable c] {p q : α × State} (hp : s₀.FusesKept p.2) (hq : s₀.FusesKept q.2) :
    s₀.FusesKept (if c then p else q).2 := by
  split
  · exact hp
  · exact hq

theorem of_snd {p : α × State} {a : α} (e : p = (a, t)) (h : s₀.FusesKept p.2) : s₀.FusesKept t := by
  rw [e] at h
  exact h

theorem of_fst {p : State × α} {a : α} (e : p = (t, a)) (h : s₀.FusesKept p.1) : s₀.FusesKept t := by
  rw [e] at h
  exact h

theorem of_third {p : α × β × State} {a : α} {b : β} (e : p = (a, b, t)) (h : s₀.FusesKept p.2.2) :
    s₀.FusesKept t := by
  rw [e] at h
  exact h

theorem foldl {f : State → α → State} {l : List α} (h : s₀.FusesKept s)
    (hf : ∀ t a, s₀.FusesKept t → s₀.FusesKept (f t a)) : s₀.FusesKept (l.foldl f s) := by
  induction l generalizing s with
  | nil => exact h
  | cons a l ih => exact ih (hf _ _ h)

theorem foldl_snd {f : α × State → β → α × State} {l : List β} {p : α × State} (h : s₀.FusesKept p.2)
    (hf : ∀ q b, s₀.FusesKept q.2 → s₀.FusesKept (f q b).2) : s₀.FusesKept (l.foldl f p).2 := by
  induction l generalizing p with
  | nil => exact h
  | cons b l ih => exact ih (hf _ _ h)

theorem foldl_fst {f : State × α → β → State × α} {l : List β} {p : State × α} (h : s₀.FusesKept p.1)
    (hf : ∀ q b, s₀.FusesKept q.1 → s₀.FusesKept (f q b).1) : s₀.FusesKept (l.foldl f p).1 := by
  induction l generalizing p with
  | nil => exact h
  | cons b l ih => exact ih (hf _ _ h)

theorem foldl_third {f : α × γ × State → β → α × γ × State} {l : List β} {p : α × γ × State}
    (h : s₀.FusesKept p.2.2) (hf : ∀ q b, s₀.FusesKept q.2.2 → s₀.FusesKept (f q b).2.2) :
    s₀.FusesKept (l.foldl f p).2.2 := by
  induction l generalizing p with
  | nil => exact h
  | cons b l ih => exact ih (hf _ _ h)

end State.FusesKept

namespace OptKept

theorem none : OptKept s₀ none := ⟨by simp⟩

theorem of_state (h : s₀.FusesKept t) : OptKept s₀ (Option.some t) := ⟨by rintro _ ⟨⟩; exact h⟩

theorem state {o : Option State} (e : o = Option.some t) (h : OptKept s₀ o) : s₀.FusesKept t := h.some t e

theorem of_map {f : α → State} {o : Option α} (h : ∀ a, s₀.FusesKept (f a)) : OptKept s₀ (o.map f) :=
  ⟨by cases o with | none => simp | some a => rintro _ ⟨⟩; exact h a⟩

theorem bind {f : State → Option State} {o : Option State} (h : OptKept s₀ o)
    (hf : ∀ t, s₀.FusesKept t → OptKept s₀ (f t)) : OptKept s₀ (o.bind f) := by
  cases o with
  | none => exact .none
  | some t => exact hf t (h.some t rfl)

theorem map {f : State → State} {o : Option State} (h : OptKept s₀ o)
    (hf : ∀ t, s₀.FusesKept t → s₀.FusesKept (f t)) : OptKept s₀ (o.map f) := by
  cases o with
  | none => exact .none
  | some t => exact .of_state (hf t (h.some t rfl))

theorem foldl {f : Option State → α → Option State} (hf : ∀ o a, OptKept s₀ o → OptKept s₀ (f o a)) (l : List α)
    (o : Option State) (h : OptKept s₀ o) : OptKept s₀ (l.foldl f o) := by
  induction l generalizing o with
  | nil => exact h
  | cons a l ih => exact ih (f o a) (hf o a h)

end OptKept

namespace OptPairKept

theorem none : OptPairKept s₀ (Option.none : Option (α × State)) := ⟨by simp⟩

theorem of_state {a : α} (h : s₀.FusesKept t) : OptPairKept s₀ (Option.some (a, t)) := ⟨by rintro _ ⟨⟩; exact h⟩

theorem state {a : α} {o : Option (α × State)} (e : o = Option.some (a, t)) (h : OptPairKept s₀ o) : s₀.FusesKept t :=
  h.some _ e

theorem of_map {f : α → β × State} {o : Option α} (h : ∀ a, s₀.FusesKept (f a).2) : OptPairKept s₀ (o.map f) :=
  ⟨by cases o with | none => simp | some a => rintro _ ⟨⟩; exact h a⟩

theorem map_state {f : State → β} {o : Option State} (h : OptKept s₀ o) : OptPairKept s₀ (o.map fun t => (f t, t)) :=
  ⟨by cases o with | none => simp | some a => rintro _ ⟨⟩; exact h.some a rfl⟩

end OptPairKept

namespace ExcKept

theorem error {e : ε} : ExcKept s₀ (.error e : Except ε State) := ⟨by simp⟩

theorem of_state (h : s₀.FusesKept t) : ExcKept s₀ (.ok t : Except ε State) := ⟨by rintro _ ⟨⟩; exact h⟩

theorem state {r : Except ε State} (e : r = .ok t) (h : ExcKept s₀ r) : s₀.FusesKept t := h.ok t e

end ExcKept

namespace OutKept

theorem of_state (h : s₀.FusesKept t) : OutKept s₀ (.next t) := ⟨by rintro _ ⟨⟩; exact h⟩

theorem ite {c : Prop} [Decidable c] {o p : Host.Outcome State Fault Refusal} (ho : OutKept s₀ o) (hp : OutKept s₀ p) :
    OutKept s₀ (if c then o else p) := by
  split
  · exact ho
  · exact hp

theorem state {o : Host.Outcome State Fault Refusal} (e : o = .next t) (h : OutKept s₀ o) : s₀.FusesKept t := h.next t e

end OutKept

theorem State.FusesKept.stateOf {o : Host.Outcome State Fault Refusal} (h : s₀.FusesKept s) (ho : OutKept s₀ o) :
    s₀.FusesKept (Machine.stateOf s o) := by
  unfold Machine.stateOf
  split
  · exact ho.next _ rfl
  · exact h

end

/-! ## The two writes of OTP: fuses blown byte by byte, and a counter raised -/

theorem Memory.length_readN (m : Memory) (a n : Nat) : (Memory.readN m a n).length = n := by
  induction n generalizing a with
  | zero => rfl
  | succ n ih => rw [Memory.readN, List.length_cons, ih]

theorem Memory.getD_readN (m : Memory) (n a i : Nat) (h : i < n) :
    (Memory.readN m a n).getD i 0 = Memory.read m (a + i) := by
  induction n generalizing a i with
  | zero => exact absurd h (Nat.not_lt_zero _)
  | succ n ih =>
    cases i with
    | zero => rfl
    | succ i =>
      rw [Memory.readN, List.getD_cons_succ, ih _ _ (by omega)]
      congr 1
      omega

/-- Bits added to a number add bits to each of its bytes. -/
theorem getD_leBytes_or (bs : List Byte) (x i : Nat) (h : i < bs.length) :
    bs.getD i 0 ||| (leBytes bs.length (leNat bs ||| x)).getD i 0 = (leBytes bs.length (leNat bs ||| x)).getD i 0 := by
  induction bs generalizing x i with
  | nil => exact absurd h (Nat.not_lt_zero _)
  | cons b bs ih =>
    have hlow : BitVec.ofNat 8 (leNat (b :: bs) ||| x) = b ||| BitVec.ofNat 8 x := by
      rw [BitVec.ofNat_or]
      congr 1
      refine BitVec.eq_of_toNat_eq ?_
      rw [BitVec.toNat_ofNat, leNat]
      have := b.isLt
      omega
    have hhigh : (leNat (b :: bs) ||| x) / 256 = leNat bs ||| x / 256 := by
      have hdiv : ∀ y : Nat, y / 256 = y >>> 8 := fun y => (Nat.shiftRight_eq_div_pow y 8).symm
      rw [hdiv, Nat.shiftRight_or_distrib, ← hdiv, ← hdiv, leNat]
      congr 1
      have := b.isLt
      omega
    cases i with
    | zero =>
      rw [List.length_cons, leBytes, hlow]
      exact Byte.or_or_self_left _ _
    | succ i =>
      rw [List.length_cons, leBytes, hhigh]
      exact ih _ _ (Nat.lt_of_succ_lt_succ h)

/-- A number stored over bytes whose bits it holds keeps every fuse. -/
theorem Memory.read_writeN_or {m : Memory} (h : Memory.wf m = true) (a n x p : Nat) :
    Memory.read m p ||| Memory.read (Memory.writeN m a (leBytes n (leNat (Memory.readN m a n) ||| x))) p =
      Memory.read (Memory.writeN m a (leBytes n (leNat (Memory.readN m a n) ||| x))) p := by
  by_cases hp : a ≤ p ∧ p < a + n
  · obtain ⟨i, rfl⟩ : ∃ i, p = a + i := ⟨p - a, by omega⟩
    have hi : i < n := by omega
    have hbyte := getD_leBytes_or (Memory.readN m a n) x i (by rw [Memory.length_readN]; exact hi)
    rw [Memory.length_readN, Memory.getD_readN m n a i hi] at hbyte
    rw [Memory.read_writeN_in _ m a i h (by rw [length_leBytes]; exact hi)]
    exact hbyte
  · rw [Memory.read_writeN_out _ m a p (by rw [length_leBytes]; omega)]
    exact BitVec.or_self

/-- A counter of OTP raised, as `raiseRollback` writes it. -/
def State.counterRaised (s : State) (t n : Nat) : State :=
  { s with
    otp := Memory.writeN s.otp (0x270 + 32 * (t - 1))
      (leBytes 32 (leNat (Memory.readN s.otp (0x270 + 32 * (t - 1)) 32) ||| (2 ^ n - 1))) }

theorem State.FusesKept.counterRaised (s : State) (t n : Nat) : s.FusesKept (s.counterRaised t n) :=
  ⟨fun w => ⟨Memory.wf_writeN _ _ _ w, fun p => Memory.read_writeN_or w _ 32 _ p⟩⟩

section
variable {s₀ s : State}

/-! ### Register fields -/

theorem State.FusesKept.bump {f : Fld} {n : Nat} (hs : s₀.FusesKept s) : s₀.FusesKept (s.bump f n) :=
  hs.wr

theorem State.FusesKept.drop {f : Fld} {n : Nat} (hs : s₀.FusesKept s) : s₀.FusesKept (s.drop f n) :=
  hs.wr

theorem State.FusesKept.wrBit {f : Fld} {i : Nat} {b : Bool} (hs : s₀.FusesKept s) : s₀.FusesKept (s.wrBit f i b) :=
  hs.wr

/-! ### Interrupt files (R31) -/

theorem State.FusesKept.msiWrite {a identity : Nat} (hs : s₀.FusesKept s) : s₀.FusesKept (s.msiWrite a identity) := by
  unfold State.msiWrite
  extract_lets
  split
  · exact .ite (hs.upd rfl) (hs.upd rfl)
  · exact hs.upd rfl

theorem State.FusesKept.wired {source : Nat} (hs : s₀.FusesKept s) : s₀.FusesKept (s.wired source) := by
  unfold State.wired
  split
  · exact hs.msiWrite
  · exact hs

/-! ### Recording an event in the Tally (R474 to R479) -/

theorem State.FusesKept.suppress {x : Nat} (hs : s₀.FusesKept s) : s₀.FusesKept (s.suppress x) := by
  unfold State.suppress
  extract_lets s₁
  have hs₁ : s₀.FusesKept s₁ := hs.bump
  exact hs₁.upd rfl

theorem State.FusesKept.trigger {x : Nat} (hs : s₀.FusesKept s) : s₀.FusesKept (s.trigger x).2 :=
  .ite_snd hs (.ite_snd hs.bump (.ite_snd (hs.upd rfl) (.wired (hs.upd rfl))))

theorem State.FusesKept.record {code : Nat} {u : Option UnitId} {inst : Option Nat} {args : List Nat} {origin : Nat}
    (hs : s₀.FusesKept s) :
    s₀.FusesKept (s.record code u inst args origin) := by
  unfold State.record
  extract_lets
  split
  next t₁ e₁ =>
  have ht₁ : s₀.FusesKept t₁ := .of_snd e₁ hs.trigger
  extract_lets _ _ _ s2 _ _ src
  have hs2 : s₀.FusesKept s2 := .ite ht₁.bump ht₁
  have hsrc : s₀.FusesKept src := hs2.wr
  exact hsrc.upd rfl

theorem State.FusesKept.raise {code : Nat} {u : Option UnitId} {inst : Option Nat} {args : List Nat}
    {origin : Option Nat} (hs : s₀.FusesKept s) :
    s₀.FusesKept (s.raise code u inst args origin) := by
  unfold State.raise
  extract_lets
  exact .ite hs.suppress (.ite hs.bump (.ite hs.suppress (.ite hs.suppress hs.record)))

/-! ### Access errors and faults -/

theorem State.FusesKept.unitErr {u : UnitId} {origin off kind : Nat} (hs : s₀.FusesKept s) :
    s₀.FusesKept (s.unitErr u origin off kind) := by
  unfold State.unitErr
  extract_lets
  exact .ite hs.wr.wr.wr.wr hs.raise

theorem State.FusesKept.coreFault {origin addr : Nat} {store : Bool} (hs : s₀.FusesKept s) :
    s₀.FusesKept (s.coreFault origin addr store) :=
  .ite (hs.upd rfl) hs

theorem State.FusesKept.hole {origin addr : Nat} {store : Bool} (hs : s₀.FusesKept s) :
    s₀.FusesKept (s.hole origin addr store) :=
  hs.coreFault.raise

/-! ### The address map and DMA -/

theorem State.FusesKept.dmaWrite {u : UnitId} {a : Nat} {bs : List Byte} {ring : Option Nat} (hs : s₀.FusesKept s) :
    ExcKept s₀ (s.dmaWrite u a bs ring) := by
  unfold State.dmaWrite
  split
  · exact .error
  · split
    · exact .error
    · exact .of_state (hs.upd rfl)

theorem State.FusesKept.dmaFailed {u : UnitId} {x : DmaErr} (hs : s₀.FusesKept s) :
    s₀.FusesKept (s.dmaFailed u x) := by
  unfold State.dmaFailed
  extract_lets
  split
  · exact hs.upd rfl
  · exact hs.raise
  · exact hs
  · exact hs

/-! ### Rings and completions -/

theorem State.FusesKept.setRing {u : UnitId} {r : Nat} {x : Ring} (hs : s₀.FusesKept s) :
    s₀.FusesKept (s.setRing u r x) :=
  hs.upd rfl

theorem State.FusesKept.readReturn {v : Option Nat} (hs : s₀.FusesKept s) : s₀.FusesKept (s.readReturn v) :=
  hs.upd rfl

theorem State.FusesKept.msi {u : UnitId} {r : Nat} (hs : s₀.FusesKept s) : s₀.FusesKept (s.msi u r) := by
  unfold State.msi
  extract_lets
  split
  · exact hs.msiWrite
  · exact hs.dmaFailed

theorem State.FusesKept.ringError {u : UnitId} {r cause : Nat} (hs : s₀.FusesKept s) :
    s₀.FusesKept (s.ringError u r cause) := by
  unfold State.ringError
  extract_lets _ s₁ s₂
  have hs₁ : s₀.FusesKept s₁ := hs.wr.wr.wr
  have hs₂ : s₀.FusesKept s₂ := hs₁.raise
  exact .ite hs (.ite hs₂.msi hs₂)

theorem State.FusesKept.notify {u : UnitId} {r : Nat} (hs : s₀.FusesKept s) : s₀.FusesKept (s.notify u r) := by
  unfold State.notify
  extract_lets
  exact .ite hs (.ite hs.msi (.ite hs.setRing hs.msi.setRing))

theorem State.FusesKept.post {u : UnitId} {r tag status info result : Nat} {ntf : Bool} (hs : s₀.FusesKept s) :
    s₀.FusesKept (s.post u r tag status info result ntf) := by
  unfold State.post
  extract_lets
  split
  · exact hs.dmaFailed.ringError
  · next t₁ e₁ =>
      have ht₁ : s₀.FusesKept t₁ := ExcKept.state e₁ hs.dmaWrite
      extract_lets _ s₁ s₂ _ s₃
      have hs₁ : s₀.FusesKept s₁ := ht₁.wr
      have hs₂ : s₀.FusesKept s₂ := .ite hs₁.wr hs₁
      have hs₃ : s₀.FusesKept s₃ := hs₂.setRing
      exact .ite hs₃.notify hs₃

/-! ### The audit FIFO (R408 to R410) -/

theorem State.FusesKept.stage {kind origin via unit sub opcode offset : Nat} {payload : List Byte}
    (hs : s₀.FusesKept s) :
    s₀.FusesKept (s.stage kind origin via unit sub opcode offset payload) := by
  unfold State.stage
  extract_lets _ _ s₁
  have hs₁ : s₀.FusesKept s₁ := hs.upd rfl
  exact hs₁.wr

theorem State.FusesKept.auditWrite {origin via a old new : Nat} (hs : s₀.FusesKept s) :
    s₀.FusesKept (s.auditWrite origin via a old new) :=
  hs.stage

theorem State.FusesKept.auditRefused {origin via a value cause : Nat} (hs : s₀.FusesKept s) :
    s₀.FusesKept (s.auditRefused origin via a value cause) :=
  hs.stage

/-! ### Descriptors -/

theorem State.FusesKept.auditDesc {u : UnitId} {f : Fetched} {status : Nat} (hs : s₀.FusesKept s) :
    s₀.FusesKept (s.auditDesc u f status) :=
  hs.stage

theorem State.FusesKept.setPhase {u : UnitId} {d : DescRef} {p : Phase} (hs : s₀.FusesKept s) :
    s₀.FusesKept (s.setPhase u d p) :=
  hs.setRing

theorem State.FusesKept.finish {u : UnitId} {d : DescRef} {status info result : Nat} (hs : s₀.FusesKept s) :
    s₀.FusesKept (s.finish u d status info result) := by
  unfold State.finish
  split
  · exact hs
  · extract_lets s₁
    have hs₁ : s₀.FusesKept s₁ := .ite hs.auditDesc hs
    exact hs₁.setRing.post

theorem State.FusesKept.finishDma {u : UnitId} {d : DescRef} {e : DmaErr} (hs : s₀.FusesKept s) :
    s₀.FusesKept (s.finishDma u d e) :=
  hs.dmaFailed.finish

/-! ### Free values (log entry 8) -/

theorem State.FusesKept.draw (hs : s₀.FusesKept s) : s₀.FusesKept s.draw :=
  hs.upd rfl

theorem State.FusesKept.lockRefusal {u : UnitId} {o via a value : Nat} (hs : s₀.FusesKept s) :
    s₀.FusesKept (s.lockRefusal u o via a value) := by
  unfold State.lockRefusal
  extract_lets s₁
  have hs₁ : s₀.FusesKept s₁ := hs.bump.unitErr
  exact hs₁.coreFault.auditRefused

theorem State.FusesKept.regWrite {u : UnitId} {cfg : Bool} {o via a value : Nat} {eff : State → State}
    (hs : s₀.FusesKept s) (heff : ∀ (t : State), s₀.FusesKept t → s₀.FusesKept (eff t)) :
    s₀.FusesKept (s.regWrite u cfg o via a value eff) :=
  .ite hs (.ite (heff _ hs) (.ite hs (.ite hs.lockRefusal (.auditWrite (heff _ hs)))))

theorem State.FusesKept.cfgField {u : UnitId} {o : Origin} {f : Fld} {v : Nat} {eff : State → State}
    (hs : s₀.FusesKept s) (heff : ∀ (t : State), s₀.FusesKept t → s₀.FusesKept (eff t)) :
    s₀.FusesKept (s.cfgField u o f v eff) :=
  hs.regWrite heff

theorem State.FusesKept.plainField {u : UnitId} {o : Origin} {f : Fld} {v : Nat} {eff : State → State}
    (hs : s₀.FusesKept s) (heff : ∀ (t : State), s₀.FusesKept t → s₀.FusesKept (eff t)) :
    s₀.FusesKept (s.plainField u o f v eff) :=
  hs.regWrite heff

theorem State.FusesKept.refuseValue {u : UnitId} {cfg : Bool} {o via a value : Nat} (hs : s₀.FusesKept s) :
    s₀.FusesKept (s.refuseValue u cfg o via a value) := by
  unfold State.refuseValue
  extract_lets s'
  have hs' : s₀.FusesKept s' := hs.unitErr
  exact .ite hs'.auditRefused hs'

theorem State.FusesKept.logDdr {c : Nat} {ue : Bool} {l : DramLoc} (hs : s₀.FusesKept s) :
    s₀.FusesKept (s.logDdr c ue l) := by
  unfold State.logDdr
  refine .ite hs ?_
  extract_lets s₁ s₂
  have hs₁ : s₀.FusesKept s₁ := hs.wr.wr.wr.wr
  have hs₂ : s₀.FusesKept s₂ := hs₁.wr.wr.wr
  exact hs₂.wr.wr

theorem State.FusesKept.ddrCorrected {c : Nat} {l : DramLoc} (hs : s₀.FusesKept s) :
    s₀.FusesKept (s.ddrCorrected c l) := by
  unfold State.ddrCorrected
  extract_lets s₁ _ _ s₂
  have hs₁ : s₀.FusesKept s₁ := hs.logDdr.bump
  have hs₂ : s₀.FusesKept s₂ := hs₁.upd rfl
  exact .ite hs₂.raise hs₂

theorem State.FusesKept.ddrUncorrectable {c line : Nat} {l : DramLoc} (hs : s₀.FusesKept s) :
    s₀.FusesKept (s.ddrUncorrectable c line l) := by
  unfold State.ddrUncorrectable
  extract_lets s₁
  have hs₁ : s₀.FusesKept s₁ := hs.logDdr
  exact .raise (hs₁.upd rfl)

theorem State.FusesKept.ddrFound {line : Nat} {x : DramErr} (hs : s₀.FusesKept s) :
    s₀.FusesKept (s.ddrFound line x) := by
  unfold State.ddrFound
  split
  · exact hs
  · exact hs.ddrCorrected
  · exact hs.ddrUncorrectable

theorem State.FusesKept.ddrTrain (hs : s₀.FusesKept s) : s₀.FusesKept s.ddrTrain :=
  .foldl hs.wr (fun _ _ ht => ht.wr.wr)

theorem State.FusesKept.execDdrTrainingStart {origin : Origin} (hs : s₀.FusesKept s) :
    OutKept s₀ (Machine.execDdrTrainingStart origin s) :=
  .of_state (hs.cfgField (fun _ ht => .ite ht ht.ddrTrain))

theorem State.FusesKept.execDdrTrainingDone {ch : Fin 12} {fast : Bool} {cause : Nat} (hs : s₀.FusesKept s) :
    OutKept s₀ (Machine.execDdrTrainingDone ch fast cause s) :=
  .ite (.of_state hs) (.ite (.of_state hs.wr.wr) (.of_state hs.wr.wr.raise))

theorem State.FusesKept.execZqCalibration {ch : Fin 12} {rank : Nat} (hs : s₀.FusesKept s) :
    OutKept s₀ (Machine.execZqCalibration ch rank s) :=
  .ite (.of_state hs) (.of_state (hs.upd rfl))

theorem State.FusesKept.execDqsOscRead {ch : Fin 12} {rank : Nat} (hs : s₀.FusesKept s) :
    OutKept s₀ (Machine.execDqsOscRead ch rank s) :=
  .ite (.of_state hs) (.of_state (hs.upd rfl))

theorem State.FusesKept.throttleDdr {on : Bool} (hs : s₀.FusesKept s) : s₀.FusesKept (s.throttleDdr on) :=
  .raise (.foldl hs (fun _ _ ht => ht.wr))

theorem State.FusesKept.execDimmThermalRead {temps : List ℤ} (hs : s₀.FusesKept s) :
    OutKept s₀ (Machine.execDimmThermalRead temps s) :=
  .ite (.of_state (.throttleDdr (.upd (s := List.foldl (fun s c => s.wr (DDR_STATUS.TEMP c) (ofSigned (temps.getD c 0)
    8)) s (List.range s.channels)) (.foldl hs (fun _ _ ht => ht.wr)) rfl))) (.ite (.of_state (.throttleDdr (.upd (s :=
    List.foldl (fun s c => s.wr (DDR_STATUS.TEMP c) (ofSigned (temps.getD c 0) 8)) s (List.range s.channels)) (.foldl hs
    (fun _ _ ht => ht.wr)) rfl))) (.of_state (.upd (s := List.foldl (fun s c => s.wr (DDR_STATUS.TEMP c) (ofSigned
    (temps.getD c 0) 8)) s (List.range s.channels)) (.foldl hs (fun _ _ ht => ht.wr)) rfl)))

theorem State.FusesKept.execDdrRefresh {ch : Fin 12} (hs : s₀.FusesKept s) :
    OutKept s₀ (Machine.execDdrRefresh ch s) :=
  .ite (.of_state hs) (.of_state (hs.upd rfl))

theorem State.FusesKept.scrubNext (hs : s₀.FusesKept s) : s₀.FusesKept s.scrubNext :=
  .ite (hs.upd rfl) (hs.upd rfl)

theorem State.FusesKept.execDdrScrub {err : DramErr} (hs : s₀.FusesKept s) :
    OutKept s₀ (Machine.execDdrScrub err s) :=
  .ite (.of_state hs) (.of_state hs.ddrFound.scrubNext)

/-! ### X448 -/

theorem State.FusesKept.setSlot {cls index : Nat} {k : KeySlot} (hs : s₀.FusesKept s) :
    s₀.FusesKept (s.setSlot cls index k) :=
  hs.upd rfl

theorem State.FusesKept.setAud {a : Audit} (hs : s₀.FusesKept s) : s₀.FusesKept (s.setAud a) :=
  hs.upd rfl

theorem State.FusesKept.seal {anchor : Bool} (hs : s₀.FusesKept s) : s₀.FusesKept (s.seal anchor) := by
  unfold State.seal
  extract_lets _ _ _ _ s₁ _ s₂
  have hs₁ : s₀.FusesKept s₁ := hs.stage
  have hs₂ : s₀.FusesKept s₂ := hs₁.setAud
  exact hs₂.wr

theorem State.FusesKept.execAuditEntryWrite (hs : s₀.FusesKept s) : OutKept s₀ (Machine.execAuditEntryWrite s) := by
  unfold Machine.execAuditEntryWrite
  extract_lets
  split
  · exact .of_state hs
  · refine .ite (.of_state hs) ?_
    refine .ite (.of_state (.ite hs hs.setAud.raise)) ?_
    extract_lets
    split
    · exact .of_state hs
    · next t₁ e₂ =>
        have ht₁ : s₀.FusesKept t₁ := ExcKept.state e₂ hs.dmaWrite
        exact .of_state (.wr (.wr (.ite ht₁.setAud.wr ht₁.setAud)))

theorem State.FusesKept.execAuditSealPeriod (hs : s₀.FusesKept s) : OutKept s₀ (Machine.execAuditSealPeriod s) :=
  .ite (.of_state hs.seal) (.of_state hs)

theorem State.FusesKept.execAuditSealCount (hs : s₀.FusesKept s) : OutKept s₀ (Machine.execAuditSealCount s) :=
  .ite (.of_state hs.seal) (.of_state hs)

theorem State.FusesKept.execAuditShutdown {origin : Origin} (hs : s₀.FusesKept s) :
    OutKept s₀ (Machine.execAuditShutdown origin s) :=
  .ite (.of_state hs) (.of_state (hs.plainField (fun _ ht => ht.wr.seal)))

/-! ### Taking commands (R293, R294) -/

theorem State.FusesKept.setBlade {b : Nat} {x : Blade} (hs : s₀.FusesKept s) : s₀.FusesKept (s.setBlade b x) :=
  hs.upd rfl

theorem State.FusesKept.setHport {b : Nat} {y : HeadPort} (hs : s₀.FusesKept s) : s₀.FusesKept (s.setHport b y) :=
  hs.upd rfl

theorem State.FusesKept.busWrite {b a : Nat} {bs : List Byte} (hs : s₀.FusesKept s) :
    s₀.FusesKept (s.busWrite b a bs) := by
  unfold State.busWrite
  refine .ite (hs.upd rfl) ?_
  refine .ite ?_ hs.bump
  extract_lets
  refine .foldl hs (fun _ _ ht => ?_)
  extract_lets
  split
  · exact ht.dmaFailed
  · exact .ite (ht.upd rfl) ht

theorem State.FusesKept.answer {b : Nat} {x : Blade} {t : Taken} {a : BAns} (hs : s₀.FusesKept s) :
    s₀.FusesKept (s.answer b x t a) := by
  unfold State.answer
  extract_lets s₁ _ s₂
  have hs₁ : s₀.FusesKept s₁ := hs.setBlade
  have hs₂ : s₀.FusesKept s₂ := by
    unfold s₂
    split
    · split
      · exact .ite hs₁ hs₁.busWrite
      · exact hs₁
    · exact .ite hs₁.busWrite hs₁
  exact .ite hs₁ hs₂.setHport

theorem State.FusesKept.runTaken {b i : Nat} {m : Medium} (hs : s₀.FusesKept s) : s₀.FusesKept (s.runTaken b i m) := by
  unfold State.runTaken
  split
  · exact hs
  · split
    · exact hs
    · split
      exact .answer (hs.upd rfl)

theorem State.FusesKept.drainTaken {b n : Nat} (hs : s₀.FusesKept s) : s₀.FusesKept (s.drainTaken b n) := by
  induction n generalizing s b with
  | zero =>
    unfold State.drainTaken
    exact hs
  | succ n ih =>
    unfold State.drainTaken
    exact ih hs.runTaken

theorem State.FusesKept.drainFor {b : Nat} {x : Blade} {c : BCmd} (hs : s₀.FusesKept s) :
    s₀.FusesKept (s.drainFor b x c) :=
  hs.drainTaken

theorem State.FusesKept.bladeExec {b i op : Nat} {m : Medium} (hs : s₀.FusesKept s) :
    s₀.FusesKept (s.bladeExec b i op m) := by
  unfold State.bladeExec
  split
  · exact hs
  · split
    · exact hs
    · exact .ite hs.runTaken hs

theorem State.FusesKept.execBcpRead {b i : Nat} {m : Medium} (hs : s₀.FusesKept s) :
    OutKept s₀ (Machine.execBcpRead b i m s) :=
  .of_state hs.bladeExec

theorem State.FusesKept.execBcpProgram {b i : Nat} {m : Medium} (hs : s₀.FusesKept s) :
    OutKept s₀ (Machine.execBcpProgram b i m s) :=
  .of_state hs.bladeExec

theorem State.FusesKept.execBcpErase {b i : Nat} {m : Medium} (hs : s₀.FusesKept s) :
    OutKept s₀ (Machine.execBcpErase b i m s) :=
  .of_state hs.bladeExec

theorem State.FusesKept.execBcpClaim {b i : Nat} (hs : s₀.FusesKept s) : OutKept s₀ (Machine.execBcpClaim b i s) :=
  .of_state hs.bladeExec

theorem State.FusesKept.execBcpRetire {b i : Nat} (hs : s₀.FusesKept s) :
    OutKept s₀ (Machine.execBcpRetire b i s) :=
  .of_state hs.bladeExec

theorem State.FusesKept.execSetEpoch {b i : Nat} (hs : s₀.FusesKept s) : OutKept s₀ (Machine.execSetEpoch b i s) :=
  .of_state hs.bladeExec

theorem State.FusesKept.execRenew {b i : Nat} (hs : s₀.FusesKept s) : OutKept s₀ (Machine.execRenew b i s) :=
  .of_state hs.bladeExec

theorem State.FusesKept.execLeaseRelease {b i : Nat} (hs : s₀.FusesKept s) :
    OutKept s₀ (Machine.execLeaseRelease b i s) :=
  .of_state hs.bladeExec

theorem State.FusesKept.execEpochRead {b i : Nat} (hs : s₀.FusesKept s) :
    OutKept s₀ (Machine.execEpochRead b i s) :=
  .of_state hs.bladeExec

theorem State.FusesKept.execBcpIdentify {b i : Nat} (hs : s₀.FusesKept s) :
    OutKept s₀ (Machine.execBcpIdentify b i s) :=
  .of_state hs.bladeExec

theorem State.FusesKept.execBcpHealth {b i : Nat} {temp : ℤ} {die : Nat} (hs : s₀.FusesKept s) :
    OutKept s₀ (Machine.execBcpHealth b i temp die s) := by
  unfold Machine.execBcpHealth
  refine .of_state ?_
  refine .bladeExec ?_
  split
  · exact hs.setBlade
  · exact hs

theorem State.FusesKept.execClaimList {b i : Nat} (hs : s₀.FusesKept s) :
    OutKept s₀ (Machine.execClaimList b i s) :=
  .of_state hs.bladeExec

theorem State.FusesKept.execEcRead {b i : Nat} (hs : s₀.FusesKept s) : OutKept s₀ (Machine.execEcRead b i s) :=
  .of_state hs.bladeExec

theorem State.FusesKept.execWipe {b i : Nat} (hs : s₀.FusesKept s) : OutKept s₀ (Machine.execWipe b i s) :=
  .of_state hs.bladeExec

theorem State.FusesKept.execWipeConsent {b i : Nat} (hs : s₀.FusesKept s) :
    OutKept s₀ (Machine.execWipeConsent b i s) :=
  .of_state hs.bladeExec

/-! ### Doorbells and registers of BAR0 -/

theorem State.FusesKept.execBcpSqDoorbell {b port queue : Nat} {cmds : List PeerCmd} (hs : s₀.FusesKept s) :
    OutKept s₀ (Machine.execBcpSqDoorbell b port queue cmds s) := by
  unfold Machine.execBcpSqDoorbell
  extract_lets
  split
  · exact .of_state hs
  · exact .ite (.of_state hs) (.ite (.of_state hs.setBlade) (.of_state hs.setBlade.setHport))

theorem State.FusesKept.execBcpCcWrite {b port : Nat} {en : Bool} (hs : s₀.FusesKept s) :
    OutKept s₀ (Machine.execBcpCcWrite b port en s) := by
  unfold Machine.execBcpCcWrite
  split
  · exact .of_state hs
  · exact .ite (.of_state hs) (.of_state hs.setBlade)

theorem State.FusesKept.execBcpLeaseCfgWrite {b port v : Nat} (hs : s₀.FusesKept s) :
    OutKept s₀ (Machine.execBcpLeaseCfgWrite b port v s) := by
  unfold Machine.execBcpLeaseCfgWrite
  split
  · exact .of_state hs
  · exact .ite (.of_state hs) (.of_state hs.setBlade)

theorem State.FusesKept.cutBladePort {b port : Nat} {perst : Bool} (hs : s₀.FusesKept s) :
    s₀.FusesKept (s.cutBladePort b port perst) := by
  unfold State.cutBladePort
  split
  · exact hs
  · extract_lets
    exact hs.setBlade

theorem State.FusesKept.execPerstAssert {b port : Nat} {perst : Bool} (hs : s₀.FusesKept s) :
    OutKept s₀ (Machine.execPerstAssert b port perst s) :=
  .ite (.of_state hs) (.of_state hs.cutBladePort)

/-! ### Power (R298, R302) -/

theorem State.FusesKept.execBladePowerLoss {b : Nat} {whole : List Nat} (hs : s₀.FusesKept s) :
    OutKept s₀ (Machine.execBladePowerLoss b whole s) := by
  unfold Machine.execBladePowerLoss
  extract_lets
  split
  · exact .of_state hs
  · exact .ite (.of_state hs) (.of_state (.setBlade (hs.upd rfl)))

theorem State.FusesKept.execBladePowerUp {b : Nat} {fresh : Option NewBlade} {whole : Bool} (hs : s₀.FusesKept s) :
    OutKept s₀ (Machine.execBladePowerUp b fresh whole s) := by
  unfold Machine.execBladePowerUp
  refine .ite (.of_state hs) ?_
  split
  · exact .of_state hs
  · exact .ite (.of_state hs) (.of_state hs.setBlade)

/-! ### Counter lines -/

theorem State.FusesKept.setLine {i : Nat} {l : MtrLine} (hs : s₀.FusesKept s) : s₀.FusesKept (s.setLine i l) := by
  unfold State.setLine
  extract_lets _ s₁
  have hs₁ : s₀.FusesKept s₁ := hs.upd rfl
  exact hs₁.wr

theorem State.FusesKept.meterEvent {tenant shard ctr amount : Nat} (hs : s₀.FusesKept s) :
    s₀.FusesKept (s.meterEvent tenant shard ctr amount) :=
  hs.upd rfl

theorem State.FusesKept.mtrOverflow {shard : Nat} (hs : s₀.FusesKept s) : s₀.FusesKept (s.mtrOverflow shard) := by
  unfold State.mtrOverflow
  extract_lets _ _ s₁ s₂
  have hs₁ : s₀.FusesKept s₁ := hs.upd rfl
  have hs₂ : s₀.FusesKept s₂ := hs₁.wr
  exact .ite hs₂ (.raise (hs₂.upd rfl))

theorem State.FusesKept.meterStart {shard w : Nat} (hs : s₀.FusesKept s) : s₀.FusesKept (s.meterStart shard w) :=
  hs.upd rfl

theorem State.FusesKept.meterStop {shard w : Nat} (hs : s₀.FusesKept s) : s₀.FusesKept (s.meterStop shard w) :=
  hs.upd rfl

theorem State.FusesKept.capDelta {tenant shard : Nat} {up : Bool} (hs : s₀.FusesKept s) :
    s₀.FusesKept (s.capDelta tenant shard up) := by
  unfold State.capDelta
  split
  extract_lets s₁
  have hs₁ : s₀.FusesKept s₁ := .ite hs.mtrOverflow hs
  exact hs₁.setLine

/-! ### Cuts and records -/

theorem State.FusesKept.meterCut (hs : s₀.FusesKept s) : s₀.FusesKept s.meterCut := by
  unfold State.meterCut
  refine .ite hs ?_
  extract_lets _ _ s1 _ src
  have hs1 : s₀.FusesKept s1 := .foldl hs (fun _ _ ht => ht.bump.raise)
  have hsrc : s₀.FusesKept src := hs1.wr
  exact hsrc.upd rfl

theorem State.FusesKept.execMeterCut (hs : s₀.FusesKept s) : OutKept s₀ (Machine.execMeterCut s) :=
  .of_state hs.meterCut

theorem State.FusesKept.execCapTick (hs : s₀.FusesKept s) : OutKept s₀ (Machine.execCapTick s) :=
  .ite (.of_state hs) (.of_state (.upd (s := s.meterCut) hs.meterCut rfl))

theorem State.FusesKept.meterAdd {e : MtrEvent} (hs : s₀.FusesKept s) : s₀.FusesKept (s.meterAdd e) := by
  unfold State.meterAdd
  split
  extract_lets s₁
  have hs₁ : s₀.FusesKept s₁ := .ite hs.mtrOverflow hs
  exact .ite hs₁.setLine hs₁.setLine

theorem State.FusesKept.execMeterEvent (hs : s₀.FusesKept s) : OutKept s₀ (Machine.execMeterEvent s) := by
  unfold Machine.execMeterEvent
  split
  · exact .of_state hs
  · refine .ite (.of_state hs) ?_
    extract_lets t
    have ht : s₀.FusesKept t := .ite hs.meterCut hs
    exact .of_state (.meterAdd (ht.upd rfl))

theorem State.FusesKept.putRecord {bs : List Byte} (hs : s₀.FusesKept s) : s₀.FusesKept (s.putRecord bs) := by
  unfold State.putRecord
  extract_lets
  split
  · exact hs.dmaFailed
  · next t₁ e₁ =>
      have ht₁ : s₀.FusesKept t₁ := ExcKept.state e₁ hs.dmaWrite
      exact ht₁.wr

theorem State.FusesKept.sweepWait (hs : s₀.FusesKept s) : s₀.FusesKept s.sweepWait :=
  .ite hs (.raise (.wr (hs.upd rfl)))

theorem State.FusesKept.sweepFrom {l : List (Nat × MtrLine)} (hs : s₀.FusesKept s) :
    s₀.FusesKept (Machine.sweepFrom l s) := by
  induction l generalizing s with
  | nil =>
    unfold Machine.sweepFrom
    refine .ite hs.sweepWait ?_
    extract_lets t u
    have hu : s₀.FusesKept u := hs.putRecord.wr.wr
    clear_value u
    have hv : s₀.FusesKept (u.wr MTR_LAST_CUT.VALUE u.mtr.lastCut) := hu.wr
    exact hv.upd rfl
  | cons e l ih =>
    unfold Machine.sweepFrom
    refine .ite (.ite hs.sweepWait ?_) (.ite ?_ (ih hs.setLine))
    · extract_lets t mtr
      have ht : s₀.FusesKept t := hs.putRecord
      clear_value t
      exact ih (.setLine (ht.upd rfl))
    · exact ih (.wr (hs.upd rfl))

theorem State.FusesKept.execMeterSweep (hs : s₀.FusesKept s) : OutKept s₀ (Machine.execMeterSweep s) :=
  .ite (.of_state hs) (.of_state (.sweepFrom (.ite (.wr (hs.upd rfl)) hs)))

/-! ### Meter descriptors (R473) -/

theorem State.FusesKept.execCapSet {d : DescRef} (hs : s₀.FusesKept s) : OutKept s₀ (Machine.execCapSet d s) := by
  unfold Machine.execCapSet
  split
  · exact .of_state hs
  · exact .ite (.of_state hs.finish) (.ite (.of_state hs.finish) (.ite (.of_state hs.finish) (.of_state
      hs.setLine.finish)))

theorem State.FusesKept.execLineRead {d : DescRef} (hs : s₀.FusesKept s) : OutKept s₀ (Machine.execLineRead d s) := by
  unfold Machine.execLineRead
  split
  · exact .of_state hs
  · refine .ite (.of_state hs.finish) ?_
    extract_lets
    split
    · exact .of_state hs.finish
    · extract_lets
      split
      · exact .of_state hs.finishDma
      · next t₁ e₃ =>
          have ht₁ : s₀.FusesKept t₁ := ExcKept.state e₃ hs.dmaWrite
          exact .of_state ht₁.finish

theorem State.FusesKept.setVat {v : Vat} (hs : s₀.FusesKept s) : s₀.FusesKept (s.setVat v) :=
  hs.upd rfl

/-! ### Pails and grants (R364 to R366) -/

theorem State.FusesKept.countPail {c : Nat} (hs : s₀.FusesKept s) : s₀.FusesKept (s.countPail c) := by
  unfold State.countPail
  extract_lets
  exact hs.wr.wr.drop

/-- The state with a pail taken. -/
def State.pailTaken (s : State) (u : VatUser) (c p : Nat) : State :=
  ({ s.setVat { s.vat with pails := Tab.set s.vat.pails p ⟨c, u, holdsFor c u⟩ } with draws := s.draws + 1 } : State).countPail c

theorem State.takePails_zero (s : State) (u : VatUser) (c : Nat) : s.takePails u c 0 = ([], s) := by
  delta State.takePails State.takePails._f
  generalize State.pickPail = pick
  rfl

theorem State.takePails_succ (s : State) (u : VatUser) (c n : Nat) : s.takePails u c (n + 1) =
    match s.pickPail with
    | none => ([], s)
    | some p => (p :: ((s.pailTaken u c p).takePails u c n).1, ((s.pailTaken u c p).takePails u c n).2) := by
  delta State.takePails State.takePails._f
  generalize State.pickPail = pick
  rfl

theorem State.FusesKept.pailTaken {u : VatUser} {c p : Nat} (hs : s₀.FusesKept s) : s₀.FusesKept (s.pailTaken u c p) :=
  .countPail (hs.upd rfl)

theorem State.FusesKept.takePails {u : VatUser} {c n : Nat} (hs : s₀.FusesKept s) :
    s₀.FusesKept (s.takePails u c n).2 := by
  induction n generalizing s with
  | zero =>
    rw [State.takePails_zero]
    exact hs
  | succ n ih =>
    rw [State.takePails_succ]
    cases s.pickPail with
    | none => exact hs
    | some p => exact ih hs.pailTaken

theorem State.FusesKept.dropPails {ps : List Nat} (hs : s₀.FusesKept s) : s₀.FusesKept (s.dropPails ps) := by
  unfold State.dropPails
  refine .foldl hs (fun _ _ ht => ?_)
  extract_lets
  split
  · exact ht
  · exact ht.setVat.drop.wr

theorem State.FusesKept.countWaiting (hs : s₀.FusesKept s) : s₀.FusesKept s.countWaiting :=
  .foldl hs (fun _ _ ht => ht.wr)

theorem State.FusesKept.deliver {u : VatUser} {ps : List Nat} (hs : s₀.FusesKept s) :
    s₀.FusesKept (s.deliver u ps) := by
  unfold State.deliver
  split
  · split
    · exact hs
    · split
      · exact hs.dropPails.finishDma
      · next t₁ e₂ =>
          have ht₁ : s₀.FusesKept t₁ := ExcKept.state e₂ hs.dmaWrite
          exact ht₁.finish
  · exact hs

theorem State.FusesKept.vatGrantN {n : Nat} (hs : s₀.FusesKept s) : s₀.FusesKept (s.vatGrantN n) := by
  induction n generalizing s with
  | zero =>
    unfold State.vatGrantN
    exact hs
  | succ n ih =>
    unfold State.vatGrantN
    extract_lets
    split
    · exact hs
    · exact ih hs.setVat.countWaiting.takePails.deliver

theorem State.FusesKept.vatGrant (hs : s₀.FusesKept s) : s₀.FusesKept s.vatGrant :=
  hs.vatGrantN

theorem State.FusesKept.pailRequest {u : VatUser} {c n : Nat} (hs : s₀.FusesKept s) :
    s₀.FusesKept (s.pailRequest u c n) :=
  hs.setVat.countWaiting.vatGrant

theorem State.FusesKept.freePails {ps : List Nat} (hs : s₀.FusesKept s) : s₀.FusesKept (s.freePails ps) :=
  hs.dropPails.vatGrant

theorem State.FusesKept.setHolds {ps : List Nat} {h : PailHolds} (hs : s₀.FusesKept s) :
    s₀.FusesKept (s.setHolds ps h) :=
  hs.setVat

/-! ### The write index (R368, R369) -/

theorem State.FusesKept.setWidx {w : List WEntry} (hs : s₀.FusesKept s) : s₀.FusesKept (s.setWidx w) :=
  hs.setVat.wr

theorem State.FusesKept.widxInsert {vol block pail dseq : Nat} (hs : s₀.FusesKept s) :
    s₀.FusesKept (s.widxInsert vol block pail dseq) := by
  unfold State.widxInsert
  extract_lets
  exact hs.setWidx

theorem State.FusesKept.widxMap {p : WEntry → Bool} {f : WEntry → WEntry} (hs : s₀.FusesKept s) :
    s₀.FusesKept (s.widxMap p f) :=
  hs.setVat

theorem State.FusesKept.widxSupersede {vol block count dseq : Nat} (hs : s₀.FusesKept s) :
    s₀.FusesKept (s.widxSupersede vol block count dseq) :=
  hs.widxMap

theorem State.FusesKept.widxReap (hs : s₀.FusesKept s) : s₀.FusesKept s.widxReap := by
  unfold State.widxReap
  extract_lets
  exact hs.setWidx.freePails

/-! ### Commands of the Vat -/

theorem State.FusesKept.execPailRequest {n id cls count : Nat} (hs : s₀.FusesKept s) :
    OutKept s₀ (Machine.execPailRequest n id cls count s) :=
  .ite (.of_state hs) (.of_state hs.pailRequest)

theorem State.FusesKept.execPailRelease {pail : Nat} (hs : s₀.FusesKept s) :
    OutKept s₀ (Machine.execPailRelease pail s) := by
  unfold Machine.execPailRelease
  split
  · exact .of_state hs
  · refine .ite (.of_state hs.widxReap) ?_
    split
    · exact .of_state hs
    · exact .of_state hs.freePails

theorem State.FusesKept.execVatAlarmExpiry {index : Nat} (hs : s₀.FusesKept s) :
    OutKept s₀ (Machine.execVatAlarmExpiry index s) := by
  unfold Machine.execVatAlarmExpiry
  extract_lets
  split
  · exact .of_state hs
  · exact .ite (.of_state hs) (.of_state hs.setVat.raise)

theorem State.FusesKept.execPailAlloc {d : DescRef} (hs : s₀.FusesKept s) :
    OutKept s₀ (Machine.execPailAlloc d s) := by
  unfold Machine.execPailAlloc
  split
  · exact .of_state hs
  · exact .ite (.of_state hs) (.ite (.of_state hs.finish) (.ite (.of_state hs.finish) (.ite (.of_state hs.finish)
      (.of_state hs.setPhase.pailRequest))))

theorem State.FusesKept.execPailFree {d : DescRef} (hs : s₀.FusesKept s) : OutKept s₀ (Machine.execPailFree d s) := by
  unfold Machine.execPailFree
  split
  · exact .of_state hs
  · refine .ite (.of_state hs.finish) ?_
    refine .ite (.of_state hs.finish) ?_
    extract_lets
    split
    · exact .of_state hs.finishDma
    · exact .ite (.of_state hs.finish.freePails) (.of_state hs.finish)

theorem State.FusesKept.execVatPeakClear {cls : Nat} (hs : s₀.FusesKept s) :
    OutKept s₀ (Machine.execVatPeakClear cls s) :=
  .ite (.of_state hs) (.of_state hs.wr)

theorem State.FusesKept.vatRingGone {r : Nat} (hs : s₀.FusesKept s) : s₀.FusesKept (s.vatRingGone r) :=
  hs.freePails

theorem State.FusesKept.vatWithdraw {d : DescRef} (hs : s₀.FusesKept s) : s₀.FusesKept (s.vatWithdraw d) :=
  hs.setVat.countWaiting

theorem State.FusesKept.headLost (hs : s₀.FusesKept s) : s₀.FusesKept s.headLost :=
  hs.upd rfl

theorem State.FusesKept.tableWrite {u : UnitId} {a : Nat} {bs : List Byte} (hs : s₀.FusesKept s) :
    s₀.FusesKept (s.tableWrite u a bs) := by
  unfold State.tableWrite
  split
  · next e₁ => exact ExcKept.state e₁ hs.dmaWrite
  · exact hs.dmaFailed

theorem State.FusesKept.noteTable {u : UnitId} {a n : Nat} (hs : s₀.FusesKept s) :
    s₀.FusesKept (s.noteTable u a n) := by
  unfold State.noteTable
  split
  · exact hs
  · exact hs.dmaFailed

theorem State.FusesKept.tableThen {u : UnitId} {d : DescRef} {a : Nat} {bs : List Byte} {k : State → State}
    (hs : s₀.FusesKept s) (hk : ∀ (t : State), s₀.FusesKept t → s₀.FusesKept (k t)) :
    s₀.FusesKept (s.tableThen u d a bs k) := by
  unfold State.tableThen
  split
  · exact hs.finishDma
  · next t₁ e₁ =>
      have ht₁ : s₀.FusesKept t₁ := ExcKept.state e₁ hs.dmaWrite
      exact hk _ ht₁

/-! ### The key cache (R402) -/

theorem State.FusesKept.setVen {v : Ven} (hs : s₀.FusesKept s) : s₀.FusesKept (s.setVen v) :=
  hs.upd rfl

theorem State.FusesKept.setCache {c : List VenKey} (hs : s₀.FusesKept s) : s₀.FusesKept (s.setCache c) :=
  hs.setVen.wr

theorem State.FusesKept.cached {tenant : Nat} (hs : s₀.FusesKept s) : OptPairKept s₀ (s.cached tenant) :=
  .of_map (fun _ => hs.setCache)

theorem State.FusesKept.cacheKey {tenant : Nat} {key : List Byte} (hs : s₀.FusesKept s) :
    s₀.FusesKept (s.cacheKey tenant key) :=
  hs.setCache

theorem State.FusesKept.evictKey {tenant : Nat} (hs : s₀.FusesKept s) : s₀.FusesKept (s.evictKey tenant) :=
  hs.setCache

theorem State.FusesKept.keyMiss {tenant : Nat} {job : LaneJob} (hs : s₀.FusesKept s) :
    ExcKept s₀ (s.keyMiss tenant job) := by
  unfold State.keyMiss
  extract_lets
  split
  · exact .error
  · split
    · exact .error
    · split
      · exact .of_state hs
      · exact .of_state (.setVen (.ite hs.wr hs))

/-! ### Ring jobs (R406) -/

theorem State.FusesKept.venRun {d : DescRef} {f : Fetched} {enc : Bool} {key : List Byte} (hs : s₀.FusesKept s) :
    s₀.FusesKept (s.venRun d f enc key) := by
  unfold State.venRun
  split
  · exact hs.finishDma
  · split
    · exact hs.finishDma
    · next t₁ e₂ =>
        have ht₁ : s₀.FusesKept t₁ := ExcKept.state e₂ hs.dmaWrite
        exact ht₁.finish

theorem State.FusesKept.venJob {d : DescRef} {op : Nat} {enc : Bool} (hs : s₀.FusesKept s) :
    s₀.FusesKept (s.venJob d op enc) := by
  unfold State.venJob
  split
  · exact hs
  · split
    · exact hs.finish
    · refine .ite hs ?_
      split
      · next t₁ e₃ =>
          have ht₁ : s₀.FusesKept t₁ := OptPairKept.state e₃ hs.cached
          exact ht₁.venRun
      · split
        · exact hs.noteTable.finish
        · next e₄ => exact ExcKept.state e₄ hs.keyMiss

theorem State.FusesKept.execEncrypt {d : DescRef} (hs : s₀.FusesKept s) : OutKept s₀ (Machine.execEncrypt d s) :=
  .of_state hs.venJob

theorem State.FusesKept.execDecrypt {d : DescRef} (hs : s₀.FusesKept s) : OutKept s₀ (Machine.execDecrypt d s) :=
  .of_state hs.venJob

theorem State.FusesKept.execKeyEvict {d : DescRef} (hs : s₀.FusesKept s) : OutKept s₀ (Machine.execKeyEvict d s) := by
  unfold Machine.execKeyEvict
  split
  · exact .of_state hs
  · exact .of_state hs.evictKey.finish

theorem State.FusesKept.venResume {d : DescRef} {r : Except Nat (List Byte)} (hs : s₀.FusesKept s) :
    s₀.FusesKept (s.venResume d r) := by
  unfold State.venResume
  split
  · exact hs
  · split
    · exact .ite hs.venRun hs
    · exact hs.finish

/-! ### Lane faults (R407) -/

theorem State.FusesKept.venLaneFault {lane : Nat} (hs : s₀.FusesKept s) : s₀.FusesKept (s.venLaneFault lane) :=
  hs.wrBit.raise

theorem State.FusesKept.execVenLaneFault {lane : Fin 16} {job : LaneJob} (hs : s₀.FusesKept s) :
    OutKept s₀ (Machine.execVenLaneFault lane job s) := by
  unfold Machine.execVenLaneFault
  extract_lets s₁
  have hs₁ : s₀.FusesKept s₁ := hs.venLaneFault
  split
  · split
    · exact .of_state (.ite hs₁ hs₁.finish)
    · exact .of_state hs₁
  · exact .of_state hs₁

/-! ### Shards of the Cellar -/

theorem State.FusesKept.setCell {c : Cell} (hs : s₀.FusesKept s) : s₀.FusesKept (s.setCell c) :=
  hs.upd rfl

theorem State.FusesKept.setCshard {sh : Nat} {x : CShard} (hs : s₀.FusesKept s) : s₀.FusesKept (s.setCshard sh x) :=
  hs.setCell

theorem State.FusesKept.setCblade {b : Nat} {x : CBlade} (hs : s₀.FusesKept s) : s₀.FusesKept (s.setCblade b x) :=
  hs.setCell

theorem State.FusesKept.setLease {l : LeaseU} (hs : s₀.FusesKept s) : s₀.FusesKept (s.setLease l) :=
  hs.upd rfl

theorem State.FusesKept.setJrec {sh jsn : Nat} {r : JRec} (hs : s₀.FusesKept s) :
    s₀.FusesKept (s.setJrec sh jsn r) :=
  hs.setCshard

theorem State.FusesKept.setWheel {sh w : Nat} {x : Wheel} (hs : s₀.FusesKept s) :
    s₀.FusesKept (s.setWheel sh w x) :=
  hs.setCshard

/-! ### The catalogue (R257) -/

theorem State.FusesKept.placeGarbage {sh l : Nat} (hs : s₀.FusesKept s) : s₀.FusesKept (s.placeGarbage sh l) := by
  unfold State.placeGarbage
  split
  · exact hs.setWheel
  · exact hs

theorem State.FusesKept.copyGarbage {sh l : Nat} (hs : s₀.FusesKept s) : s₀.FusesKept (s.copyGarbage sh l) := by
  unfold State.copyGarbage
  extract_lets _ _ s₁
  have hs₁ : s₀.FusesKept s₁ := by
    unfold s₁
    refine .ite ?_ hs.placeGarbage
    split
    · exact hs.setJrec
    · exact hs
  exact .foldl hs₁ (fun _ _ ht => ht.placeGarbage)

theorem State.FusesKept.fwdDrop {sh l : Nat} (hs : s₀.FusesKept s) : s₀.FusesKept (s.fwdDrop sh l) := by
  unfold State.fwdDrop
  extract_lets
  split
  · exact hs
  · exact .ite hs.setCshard hs.setCshard

theorem State.FusesKept.unref {vol : Nat} {e : CatEntry} (hs : s₀.FusesKept s) : s₀.FusesKept (s.unref vol e) := by
  unfold State.unref
  refine .ite hs ?_
  extract_lets _ s1
  have hs1 : s₀.FusesKept s1 := .ite hs (.ite (hs.upd rfl) hs.copyGarbage)
  exact hs1.fwdDrop

theorem State.FusesKept.setCat {vol block : Nat} {e : Option CatEntry} (hs : s₀.FusesKept s) :
    s₀.FusesKept (s.setCat vol block e) := by
  unfold State.setCat
  extract_lets sh old t x u tenant n
  clear_value old
  have ht : s₀.FusesKept t := by
    unfold t
    split
    · exact hs.unref
    · exact hs
  have hu : s₀.FusesKept u := ht.setCshard
  clear_value u
  split
  · exact .capDelta (hu.upd rfl)
  · exact .capDelta (hu.upd rfl)
  · exact hu

theorem State.FusesKept.countUnfolded {sh : Nat} (hs : s₀.FusesKept s) : s₀.FusesKept (s.countUnfolded sh) :=
  hs.wr

/-! ### Journal records (R249, R250) -/

theorem State.FusesKept.laneAdd {sh jsn : Nat} (hs : s₀.FusesKept s) : s₀.FusesKept (s.laneAdd sh jsn) := by
  unfold State.laneAdd
  extract_lets
  split
  · exact hs
  · extract_lets
    exact hs.setCshard

theorem State.FusesKept.journal {sh : Nat} {r : JRec} (hs : s₀.FusesKept s) : s₀.FusesKept (s.journal sh r).2 := by
  unfold State.journal
  extract_lets _ _ s₁
  have hs₁ : s₀.FusesKept s₁ := hs.setCshard
  exact hs₁.laneAdd

/-! ### Contexts -/

theorem State.FusesKept.setRails {r : Rails} (hs : s₀.FusesKept s) : s₀.FusesKept (s.setRails r) :=
  hs.upd rfl

theorem State.FusesKept.setCtx {c : Nat} {x : Ctx} (hs : s₀.FusesKept s) : s₀.FusesKept (s.setCtx c x) :=
  hs.setRails

theorem State.FusesKept.dropCtx {c : Nat} (hs : s₀.FusesKept s) : s₀.FusesKept (s.dropCtx c) :=
  hs.setRails

theorem State.FusesKept.setQp {c : Nat} {q : Qp} (hs : s₀.FusesKept s) : s₀.FusesKept (s.setQp c q) := by
  unfold State.setQp
  split
  · exact hs.setCtx
  · exact hs

theorem State.FusesKept.setTcp {c : Nat} {t : Tcp} (hs : s₀.FusesKept s) : s₀.FusesKept (s.setTcp c t) := by
  unfold State.setTcp
  split
  · exact hs.setCtx
  · exact hs

theorem State.FusesKept.emit {i : TxItem} (hs : s₀.FusesKept s) : s₀.FusesKept (s.emit i) :=
  .ite hs hs.setRails

theorem State.FusesKept.sendRoce {c : Nat} {x : Ctx} {q : Qp} {p : RocePkt} (hs : s₀.FusesKept s) :
    s₀.FusesKept (s.sendRoce c x q p) :=
  hs.emit

theorem State.FusesKept.sendTcp {x : Ctx} {t : Tcp} {g : TcpSeg} {fresh : Bool} (hs : s₀.FusesKept s) :
    s₀.FusesKept (s.sendTcp x t g fresh) :=
  hs.emit

theorem State.FusesKept.unpin {ps : List (Nat × Nat × Nat)} (hs : s₀.FusesKept s) : s₀.FusesKept (s.unpin ps) :=
  .ite hs (.widxReap (.foldl hs (fun _ _ ht => ht.widxMap)))

/-! ### Residence (R70 to R72) -/

theorem State.FusesKept.countCache {r : Rail} (hs : s₀.FusesKept s) : s₀.FusesKept (s.countCache r) := by
  unfold State.countCache
  extract_lets
  exact hs.wr.wr.wr

theorem State.FusesKept.evictCtx {c : Nat} (hs : s₀.FusesKept s) : s₀.FusesKept (s.evictCtx c) := by
  unfold State.evictCtx
  split
  · exact hs
  · extract_lets s₁ _ _ _ s₂
    have hs₁ : s₀.FusesKept s₁ := hs.setCtx
    have hs₂ : s₀.FusesKept s₂ := hs₁.setRails
    refine .foldl hs₂ (fun _ _ ht => ?_)
    split
    · exact ht.setCtx
    · exact ht

theorem State.FusesKept.touch {c : Nat} (hs : s₀.FusesKept s) : s₀.FusesKept (s.touch c) := by
  unfold State.touch
  split
  · exact hs
  · extract_lets s₁
    have hs₁ : s₀.FusesKept s₁ := hs.setCtx
    exact hs₁.setRails

theorem State.FusesKept.cacheCtx {c : Nat} (hs : s₀.FusesKept s) : s₀.FusesKept (s.cacheCtx c) := by
  unfold State.cacheCtx
  split
  · exact hs
  · extract_lets s₁ s₂
    have hs₁ : s₀.FusesKept s₁ := by
      unfold s₁
      refine .ite ?_ hs
      split
      · exact hs.evictCtx
      · exact hs
    have hs₂ : s₀.FusesKept s₂ := hs₁.setCtx
    exact hs₂.setRails.touch.countCache

theorem State.FusesKept.useCtx {c : Nat} (hs : s₀.FusesKept s) : s₀.FusesKept (s.useCtx c) :=
  .ite hs.touch hs.cacheCtx

theorem State.FusesKept.dropHeld {c : Nat} (hs : s₀.FusesKept s) : s₀.FusesKept (s.dropHeld c) := by
  unfold State.dropHeld
  extract_lets s₁
  have hs₁ : s₀.FusesKept s₁ := .foldl hs (fun _ _ ht => ht.drop)
  exact hs₁.setRails

/-! ### Rate control (R79 to R81) -/

theorem State.FusesKept.cnp {c : Nat} (hs : s₀.FusesKept s) : s₀.FusesKept (s.cnp c) := by
  unfold State.cnp
  split
  · exact hs
  · extract_lets
    exact .ite hs hs.setCtx

theorem State.FusesKept.sendCnp {c : Nat} (hs : s₀.FusesKept s) : s₀.FusesKept (s.sendCnp c) := by
  unfold State.sendCnp
  split
  · exact hs
  · extract_lets
    split
    · exact hs
    · exact .ite hs.setCtx.sendRoce hs

/-! ### Invalidation (R74, R75) -/

theorem State.FusesKept.invalDone {v : Invalidate} (hs : s₀.FusesKept s) : s₀.FusesKept (s.invalDone v) := by
  unfold State.invalDone
  extract_lets s₁
  have hs₁ : s₀.FusesKept s₁ := by
    unfold s₁
    split
    · exact hs.finish
    · exact hs
  split
  · exact hs₁.finish
  · exact hs₁

theorem State.FusesKept.invalSettle (hs : s₀.FusesKept s) : s₀.FusesKept s.invalSettle := by
  unfold State.invalSettle
  extract_lets _ _ s₁
  have hs₁ : s₀.FusesKept s₁ := hs.setRails
  exact .foldl hs₁ (fun _ _ ht => ht.invalDone)

theorem State.FusesKept.invalVisible {v : Invalidate} (hs : s₀.FusesKept s) : s₀.FusesKept (s.invalVisible v) := by
  unfold State.invalVisible
  extract_lets _ _ s₁
  have hs₁ : s₀.FusesKept s₁ := hs.setRails
  exact hs₁.invalSettle

theorem State.FusesKept.invalBegin {key : Nat} {d : Option DescRef} {recv : Option (Rail × DescRef × Nat × Nat × Nat)}
    (hs : s₀.FusesKept s) :
    s₀.FusesKept (s.invalBegin key d recv) := by
  unfold State.invalBegin
  extract_lets _ _ s₁
  have hs₁ : s₀.FusesKept s₁ := hs.setRails
  exact .ite hs₁ hs₁.invalVisible

/-! ### On-demand paging (R76, R77) -/

theorem State.FusesKept.countOdp {r : Rail} (hs : s₀.FusesKept s) : s₀.FusesKept (s.countOdp r) := by
  unfold State.countOdp
  extract_lets
  exact hs.wr.wr

theorem State.FusesKept.odpDeliver {r : Rail} {n : Nat} (hs : s₀.FusesKept s) : s₀.FusesKept (s.odpDeliver r n) := by
  induction n generalizing s r with
  | zero =>
    unfold State.odpDeliver
    exact hs.countOdp
  | succ n ih =>
    unfold State.odpDeliver
    extract_lets
    split
    · exact ih hs.setRails
    · split
      · exact ih hs.setRails.finish
      · exact hs.countOdp

theorem State.FusesKept.odpFault {c iova : Nat} {resp send : Bool} (hs : s₀.FusesKept s) :
    s₀.FusesKept (s.odpFault c iova resp send) := by
  unfold State.odpFault
  split
  · exact hs
  · split
    · exact hs
    · refine .ite hs ?_
      extract_lets s₁ _ _ s₂
      have hs₁ : s₀.FusesKept s₁ := hs.setQp
      have hs₂ : s₀.FusesKept s₂ := .ite hs₁.setRails.bump hs₁.setRails
      exact hs₂.odpDeliver

theorem State.FusesKept.odpGone {r : Rail} {c : Nat} (hs : s₀.FusesKept s) : s₀.FusesKept (s.odpGone r c) := by
  unfold State.odpGone
  extract_lets _ s₁
  have hs₁ : s₀.FusesKept s₁ := hs.setRails
  exact hs₁.odpDeliver

/-! ### Errors of a queue pair (R69) -/

theorem State.FusesKept.flushQp {r : Rail} {q : Qp} {first : Option Nat} {at_ : Nat} {recv : Option Nat}
    (hs : s₀.FusesKept s) :
    s₀.FusesKept (s.flushQp r q first at_ recv) := by
  unfold State.flushQp
  extract_lets _ s₁ s₂
  have hs₁ : s₀.FusesKept s₁ := by
    unfold s₁
    refine .foldl hs (fun _ _ ht => ?_)
    split
    · exact ht.finish
    · exact ht
  have hs₂ : s₀.FusesKept s₂ := .foldl hs₁ (fun _ _ ht => ht.finish)
  exact .foldl hs₂ (fun _ _ ht => ht.finish)

theorem State.FusesKept.qpErr {c : Nat} {first : Option Nat} {modify : Bool} {at_ : Nat} {recv : Option Nat}
    (hs : s₀.FusesKept s) :
    s₀.FusesKept (s.qpErr c first modify at_ recv) := by
  unfold State.qpErr
  split
  · exact hs
  · split
    · exact hs
    · refine .ite hs ?_
      extract_lets s₁ s₂ s₃ s₄
      have hs₁ : s₀.FusesKept s₁ := hs.setCtx
      have hs₂ : s₀.FusesKept s₂ := hs₁.flushQp.unpin
      have hs₃ : s₀.FusesKept s₃ := hs₂.odpGone.invalSettle
      have hs₄ : s₀.FusesKept s₄ := .ite hs₃ hs₃.raise
      exact .ite (hs₄.upd rfl) hs₄

/-! ### Sending (R67, R69) -/

theorem State.FusesKept.pump {c n : Nat} (hs : s₀.FusesKept s) : s₀.FusesKept (s.pump c n) := by
  induction n generalizing s c with
  | zero =>
    unfold State.pump
    exact hs
  | succ n ih =>
    unfold State.pump
    split
    · exact hs
    · split
      · exact hs
      · extract_lets
        split
        · exact hs
        · extract_lets
          refine .ite hs ?_
          extract_lets
          split
          · exact hs.qpErr
          · extract_lets t₁
            have ht₁ : s₀.FusesKept t₁ := hs.dmaFailed
            split
            · exact ht₁.odpFault
            · exact ht₁.qpErr
          · exact ih (.unpin (.foldl hs.setQp (fun _ _ ht => ht.sendRoce)))

theorem State.FusesKept.resend {c from_ : Nat} (hs : s₀.FusesKept s) : s₀.FusesKept (s.resend c from_) := by
  unfold State.resend
  extract_lets s₁
  have hs₁ : s₀.FusesKept s₁ := hs.useCtx
  split
  · exact hs₁
  · split
    · exact hs₁
    · extract_lets _ s₂
      have hs₂ : s₀.FusesKept s₂ := hs₁.setQp
      refine .foldl hs₂ (fun _ _ ht => ?_)
      extract_lets
      exact .foldl ht (fun _ _ ht₁ => ht₁.sendRoce)

theorem State.FusesKept.wrDone {r : Rail} {w : SendWr} (hs : s₀.FusesKept s) : s₀.FusesKept (s.wrDone r w) := by
  unfold State.wrDone
  split
  · exact hs.finish
  · exact hs

theorem State.FusesKept.sqdDone {c : Nat} (hs : s₀.FusesKept s) : s₀.FusesKept (s.sqdDone c) := by
  unfold State.sqdDone
  split
  · exact hs
  · split
    · exact hs
    · extract_lets s₁
      have hs₁ : s₀.FusesKept s₁ := hs.setQp
      exact .foldl hs₁ (fun _ _ ht => ht.finish)

theorem State.FusesKept.acked {c psn : Nat} (hs : s₀.FusesKept s) : s₀.FusesKept (s.acked c psn) := by
  unfold State.acked
  extract_lets
  split
  · exact hs
  · split
    · exact hs
    · extract_lets _ _ s₁ s₂
      have hs₁ : s₀.FusesKept s₁ := hs.setQp
      have hs₂ : s₀.FusesKept s₂ := .foldl hs₁ (fun _ _ ht => ht.wrDone)
      exact hs₂.invalSettle.sqdDone.pump

theorem State.FusesKept.postWr {c : Nat} {w : SendWr} (hs : s₀.FusesKept s) : s₀.FusesKept (s.postWr c w) := by
  unfold State.postWr
  split
  · exact hs.unpin
  · exact .ite hs.useCtx.setQp.pump hs.unpin

/-! ### The end of a context -/

theorem State.FusesKept.ctxGone {c : Nat} (hs : s₀.FusesKept s) : s₀.FusesKept (s.ctxGone c) := by
  unfold State.ctxGone
  extract_lets s₁ _ s₂
  have hs₁ : s₀.FusesKept s₁ := hs.dropHeld.dropCtx
  have hs₂ : s₀.FusesKept s₂ := hs₁.setRails
  split
  · exact hs
  · exact hs₂.odpGone.countCache.invalSettle.unpin

/-! ### Flow control (R66) -/

theorem State.FusesKept.xoff {port : Nat} (hs : s₀.FusesKept s) : s₀.FusesKept (s.xoff port) := by
  unfold State.xoff
  extract_lets
  exact .ite (.foldl hs (fun _ _ ht => ht.setRails.emit)) hs

theorem State.FusesKept.xon {port : Nat} (hs : s₀.FusesKept s) : s₀.FusesKept (s.xon port) := by
  unfold State.xon
  refine .ite ?_ hs
  extract_lets _ s₁
  have hs₁ : s₀.FusesKept s₁ := .foldl hs (fun _ _ ht => ht.emit)
  exact hs₁.setRails

theorem State.FusesKept.rxFlush {r : Rail} (hs : s₀.FusesKept s) : s₀.FusesKept (s.rxFlush r) := by
  unfold State.rxFlush
  extract_lets _ _ s₁ s₂
  have hs₁ : s₀.FusesKept s₁ := hs.setRails
  have hs₂ : s₀.FusesKept s₂ := hs₁.wr.wr.countCache
  exact hs₂.xon.xon

/-! ### Failure of a Rail (R87) -/

theorem State.FusesKept.railFlush {r : Rail} (hs : s₀.FusesKept s) : s₀.FusesKept (s.railFlush r) := by
  unfold State.railFlush
  extract_lets
  exact .foldl hs (fun _ _ ht => .foldl ht (fun _ _ ht₁ => ht₁.finish))

theorem State.FusesKept.railErrAll {r : Rail} (hs : s₀.FusesKept s) : s₀.FusesKept (s.railErrAll r) := by
  unfold State.railErrAll
  extract_lets s₁ _ _ s₂
  have hs₁ : s₀.FusesKept s₁ := .foldl hs (fun _ _ ht => ht.qpErr)
  have hs₂ : s₀.FusesKept s₂ := hs₁.upd rfl
  exact .foldl hs₂ (fun _ _ ht => ht.ctxGone)

theorem State.FusesKept.railFailed {r : Rail} {cause : Nat} (hs : s₀.FusesKept s) :
    s₀.FusesKept (s.railFailed r cause) := by
  unfold State.railFailed
  extract_lets _ s₁ _ s₂ s₃ _ s₄ _ s₅
  have hs₁ : s₀.FusesKept s₁ := hs.wr.wr
  have hs₂ : s₀.FusesKept s₂ := hs₁.setRails
  have hs₃ : s₀.FusesKept s₃ := hs₂.railFlush.railErrAll.rxFlush
  have hs₄ : s₀.FusesKept s₄ := hs₃.setRails
  have hs₅ : s₀.FusesKept s₅ := .foldl hs₄ (fun _ _ ht => ht.invalVisible)
  exact .ite hs hs₅.invalSettle.raise

/-! ### The slow path (R86) -/

theorem State.FusesKept.slowFrame {x : Nat} {bs : List Byte} (hs : s₀.FusesKept s) :
    s₀.FusesKept (s.slowFrame x bs) := by
  unfold State.slowFrame
  extract_lets
  split
  · exact hs.setRails
  · extract_lets
    split
    · exact hs.finishDma
    · next t₁ e₂ =>
        have ht₁ : s₀.FusesKept t₁ := ExcKept.state e₂ hs.dmaWrite
        exact ht₁.finish

theorem State.FusesKept.slowDrain {r : Rail} (hs : s₀.FusesKept s) : s₀.FusesKept (s.slowDrain r) := by
  unfold State.slowDrain
  extract_lets
  split
  · exact hs
  · exact hs.setRails.slowFrame

/-! ### Responder (R67, R69, R73, R76) -/

theorem State.FusesKept.sendAck {c : Nat} {x : Ctx} {q : Qp} {psn syn : Nat} (hs : s₀.FusesKept s) :
    s₀.FusesKept (s.sendAck c x q psn syn) :=
  hs.sendRoce

theorem State.FusesKept.nakErr {c : Nat} {x : Ctx} {q : Qp} {psn syn : Nat} {recv : Option Nat}
    (hs : s₀.FusesKept s) :
    s₀.FusesKept (s.nakErr c x q psn syn recv) :=
  hs.sendAck.qpErr

theorem State.FusesKept.rnrNak {c : Nat} {x : Ctx} {q : Qp} {psn : Nat} (hs : s₀.FusesKept s) :
    s₀.FusesKept (s.rnrNak c x q psn) :=
  hs.sendAck

theorem State.FusesKept.rxDone {c : Nat} {x : Ctx} {q : Qp} {p : RocePkt} {m : RxMsg} {got : List Byte}
    (hs : s₀.FusesKept s) :
    s₀.FusesKept (s.rxDone c x q p m got) := by
  unfold State.rxDone
  extract_lets
  refine .ite hs ?_
  refine .ite (.ite hs hs.setRails) ?_
  extract_lets
  split
  · exact hs
  · extract_lets s₁
    have hs₁ : s₀.FusesKept s₁ := hs.setQp
    exact .ite hs₁.invalBegin hs₁.finish

theorem State.FusesKept.rxData {c : Nat} {x : Ctx} {q : Qp} {p : RocePkt} {wr first last : Bool}
    (hs : s₀.FusesKept s) :
    s₀.FusesKept (s.rxData c x q p wr first last) := by
  simp only [State.rxData]
  refine .ite hs.rnrNak ?_
  split
  · exact .ite hs.rnrNak hs.nakErr
  · refine .ite hs.nakErr ?_
    refine .ite hs.nakErr ?_
    refine .ite hs.nakErr ?_
    split
    · split
      · exact hs.dmaFailed.rnrNak.setQp.odpFault
      · exact hs.dmaFailed.nakErr
    · next t₁ e₂ =>
        have ht₁ : s₀.FusesKept t₁ := by
          refine ExcKept.state e₂ ?_
          split
          · exact .of_state hs
          · exact hs.dmaWrite
        exact .ite (.invalSettle (.rxDone (.ite ht₁.setQp.sendAck ht₁.setQp))) (.ite ht₁.setQp.sendAck ht₁.setQp)

theorem State.FusesKept.readReply {c : Nat} {x : Ctx} {q : Qp} {psn : Nat} {bs : List Byte} (hs : s₀.FusesKept s) :
    s₀.FusesKept (s.readReply c x q psn bs) := by
  unfold State.readReply
  extract_lets
  exact .foldl hs (fun _ _ ht => ht.sendRoce)

theorem State.FusesKept.rxRead {c : Nat} {x : Ctx} {q : Qp} {p : RocePkt} {fresh : Bool} (hs : s₀.FusesKept s) :
    s₀.FusesKept (s.rxRead c x q p fresh) := by
  unfold State.rxRead
  split
  · exact hs
  · exact hs.nakErr
  · extract_lets
    split
    · extract_lets t₁
      have ht₁ : s₀.FusesKept t₁ := hs.dmaFailed
      split
      · exact ht₁.rnrNak.setQp.odpFault
      · exact ht₁.nakErr
    · exact hs.setQp.readReply.invalSettle

theorem State.FusesKept.rxRequest {c : Nat} {x : Ctx} {q : Qp} {p : RocePkt} (hs : s₀.FusesKept s) :
    s₀.FusesKept (s.rxRequest c x q p) := by
  unfold State.rxRequest
  extract_lets
  refine .ite (.ite hs hs.setQp.sendAck) ?_
  refine .ite (.ite hs.rxRead (.ite hs.sendAck hs)) ?_
  refine .ite hs.rnrNak ?_
  refine .ite hs.rxRead ?_
  split
  · exact hs.rxData
  · exact hs.sendAck

/-! ### Requester (R67, R69) -/

theorem State.FusesKept.retryFrom {c : Nat} {q : Qp} {psn : Nat} (hs : s₀.FusesKept s) :
    s₀.FusesKept (s.retryFrom c q psn) :=
  .ite hs.qpErr hs.setQp.resend

theorem State.FusesKept.rxAck {c : Nat} {p : RocePkt} (hs : s₀.FusesKept s) : s₀.FusesKept (s.rxAck c p) := by
  unfold State.rxAck
  extract_lets _ s₁
  have hs₁ : s₀.FusesKept s₁ := hs.acked
  refine .ite hs.acked.invalSettle ?_
  refine .ite ?_ ?_
  · split
    · exact .ite hs₁.setQp hs₁
    · exact hs₁
  · refine .ite ?_ hs₁.qpErr
    split
    · exact .ite hs₁.retryFrom hs₁
    · exact hs₁

theorem State.FusesKept.pullData {k : Nat} {bs : List Byte} (hs : s₀.FusesKept s) :
    s₀.FusesKept (s.pullData k bs) := by
  unfold State.pullData
  extract_lets
  split
  · exact hs.upd rfl
  · exact hs

theorem State.FusesKept.rxReadResp {c : Nat} {x : Ctx} {p : RocePkt} (hs : s₀.FusesKept s) :
    s₀.FusesKept (s.rxReadResp c x p) := by
  simp only [State.rxReadResp]
  split
  · exact hs.acked
  · split
    · exact hs.acked
    · refine .ite hs.acked ?_
      split
      · split
        · exact hs.acked.dmaFailed.odpFault
        · exact hs.acked.dmaFailed.qpErr
      · next t₁ e₃ =>
          have ht₁ : s₀.FusesKept t₁ := by
            refine ExcKept.state e₃ ?_
            split
            · exact hs.acked.dmaWrite
            · exact .of_state hs.acked.pullData
            · exact .of_state hs.acked
          exact .ite ht₁.setQp ht₁.setQp.wrDone.acked.invalSettle

theorem State.FusesKept.roceRx {c : Nat} {p : RocePkt} (hs : s₀.FusesKept s) : s₀.FusesKept (s.roceRx c p) := by
  unfold State.roceRx
  extract_lets s₁
  have hs₁ : s₀.FusesKept s₁ := .ite hs.sendCnp hs
  split
  · exact hs
  · split
    · exact hs
    · refine .ite hs ?_
      split
      · exact hs₁
      · exact .ite hs₁.rxAck (.ite hs₁.rxReadResp hs₁.rxRequest)

/-! ### NVMe/TCP (R81 to R83) -/

theorem State.FusesKept.tcpAckNow {x : Ctx} {t : Tcp} (hs : s₀.FusesKept s) : s₀.FusesKept (s.tcpAckNow x t) :=
  hs.sendTcp

theorem State.FusesKept.tcpPump {c n : Nat} (hs : s₀.FusesKept s) : s₀.FusesKept (s.tcpPump c n) := by
  induction n generalizing s c with
  | zero =>
    unfold State.tcpPump
    exact hs
  | succ n ih =>
    unfold State.tcpPump
    split
    · exact hs
    · split
      · exact hs
      · extract_lets _ _ _ _ _ s₁
        have hs₁ : s₀.FusesKept s₁ := hs.setTcp.sendTcp
        exact .ite (.ite hs hs.setTcp) (ih hs₁.unpin)

theorem State.FusesKept.tcpSend {c : Nat} {bs : List Byte} {pins : List (Nat × Nat × Nat)} (hs : s₀.FusesKept s) :
    s₀.FusesKept (s.tcpSend c bs pins) := by
  unfold State.tcpSend
  split
  · extract_lets
    exact hs.useCtx.setTcp.tcpPump
  · exact hs.unpin

theorem State.FusesKept.tcpHandback {c status : Nat} (hs : s₀.FusesKept s) :
    s₀.FusesKept (s.tcpHandback c status) := by
  unfold State.tcpHandback
  extract_lets _ s₁ _ s₂
  have hs₁ : s₀.FusesKept s₁ := hs.ctxGone
  have hs₂ : s₀.FusesKept s₂ := hs₁.upd rfl
  split
  · exact hs
  · split
    · exact hs
    · extract_lets s₃
      have hs₃ : s₀.FusesKept s₃ := hs₂.slowFrame
      exact .foldl hs₃ (fun _ _ ht => ht.slowFrame)

theorem State.FusesKept.tcpTerm {c : Nat} {t : Tcp} {fes : Nat} {hdr : List Byte} (hs : s₀.FusesKept s) :
    s₀.FusesKept (s.tcpTerm c t fes hdr) :=
  hs.tcpSend.tcpHandback

theorem State.FusesKept.tcpPdu {c : Nat} {t : Tcp} {pdu : List Byte} (hs : s₀.FusesKept s) :
    s₀.FusesKept (s.tcpPdu c t pdu) := by
  unfold State.tcpPdu
  extract_lets
  refine .ite hs.tcpTerm ?_
  refine .ite (.ite hs.tcpTerm (.ite hs.tcpTerm (.ite hs.tcpTerm (.ite hs.tcpTerm hs.setTcp.tcpSend)))) ?_
  refine .ite hs.tcpHandback ?_
  refine .ite (.ite hs.tcpTerm hs.setRails) ?_
  refine .ite ?_ hs.tcpTerm
  extract_lets
  split
  · exact hs.tcpTerm
  · refine .ite hs.tcpTerm ?_
    refine .ite hs.tcpTerm ?_
    refine .ite hs.tcpTerm ?_
    refine .ite hs.tcpTerm ?_
    extract_lets s₁
    have hs₁ : s₀.FusesKept s₁ := hs.pullData
    exact .ite (hs₁.upd rfl) hs₁

theorem State.FusesKept.tcpPdus {c n : Nat} (hs : s₀.FusesKept s) : s₀.FusesKept (s.tcpPdus c n) := by
  induction n generalizing s c with
  | zero =>
    unfold State.tcpPdus
    exact hs
  | succ n ih =>
    unfold State.tcpPdus
    split
    · exact hs
    · refine .ite hs ?_
      extract_lets
      exact .ite hs.tcpTerm (.ite hs (ih hs.setTcp.tcpPdu))

theorem State.FusesKept.tcpResend {c : Nat} {e : TcpSent} (hs : s₀.FusesKept s) : s₀.FusesKept (s.tcpResend c e) := by
  unfold State.tcpResend
  extract_lets s₁
  have hs₁ : s₀.FusesKept s₁ := hs.useCtx
  split
  · exact hs₁
  · split
    · exact hs₁
    · extract_lets
      exact hs₁.setTcp.sendTcp

theorem State.FusesKept.tcpRecover {c : Nat} (hs : s₀.FusesKept s) : s₀.FusesKept (s.tcpRecover c) := by
  unfold State.tcpRecover
  split
  · exact .foldl hs (fun _ _ ht => ht.tcpResend)
  · exact hs

theorem State.FusesKept.tcpAck {c : Nat} {t₀ : Tcp} {g : TcpSeg} (hs : s₀.FusesKept s) :
    s₀.FusesKept (s.tcpAck c t₀ g) := by
  simp only [State.tcpAck]
  refine .ite hs ?_
  refine .ite ?_ (.tcpPump (.ite (.tcpRecover (.ite hs.setTcp.cnp hs.setTcp)) (.ite hs.setTcp.cnp hs.setTcp)))
  refine .tcpPump ?_
  split
  · exact hs.setTcp
  · exact hs.setTcp.tcpRecover

theorem State.FusesKept.tcpEce {c : Nat} {x : Ctx} {t : Tcp} (hs : s₀.FusesKept s) :
    s₀.FusesKept (s.tcpEce c x t) := by
  unfold State.tcpEce
  extract_lets
  exact .ite hs.setTcp.cnp hs

theorem State.FusesKept.tcpData {c : Nat} {x : Ctx} {t : Tcp} {g : TcpSeg} (hs : s₀.FusesKept s) :
    s₀.FusesKept (s.tcpData c x t g) := by
  unfold State.tcpData
  extract_lets
  exact hs.setTcp.tcpAckNow.tcpPdus

theorem State.FusesKept.tcpRx {c : Nat} {g : TcpSeg} {raw : List Byte} (hs : s₀.FusesKept s) :
    s₀.FusesKept (s.tcpRx c g raw) := by
  unfold State.tcpRx
  have hack := @State.FusesKept.tcpAck s₀
  revert hack
  induction State.tcpAck using opaquely with
  | of_all ack =>
  intro hack
  split
  · exact hs
  · split
    · exact hs
    · refine .ite (.ite hs.tcpHandback.slowFrame hs) (.ite hs.tcpAckNow (.ite hs.tcpHandback.slowFrame ?_))
      extract_lets u
      have hu : s₀.FusesKept u := .ite hs.tcpEce hs
      split
      · exact hu
      · extract_lets t v
        have hv : s₀.FusesKept v := hack hu.setTcp
        split
        · exact hv
        · split
          · exact hv
          · exact .ite hv hv.tcpData

/-! ### Packets and the context cache (R71, R72) -/

theorem State.FusesKept.packetRx {c : Nat} {f : Frame} (hs : s₀.FusesKept s) : s₀.FusesKept (s.packetRx c f) := by
  unfold State.packetRx
  extract_lets s₁
  have hs₁ : s₀.FusesKept s₁ := hs.touch
  split
  · exact .ite hs₁.cnp hs₁.roceRx
  · exact hs₁.tcpRx
  · exact hs₁

theorem State.FusesKept.faultQueue {c port : Nat} {f : Frame} (hs : s₀.FusesKept s) :
    s₀.FusesKept (s.faultQueue c port f) := by
  unfold State.faultQueue
  extract_lets _ _ _ _ s₁
  have hs₁ : s₀.FusesKept s₁ := hs.bump
  exact .ite hs.bump.raise hs₁.setRails.countCache

theorem State.FusesKept.packetFor {c port : Nat} {f : Frame} (hs : s₀.FusesKept s) :
    s₀.FusesKept (s.packetFor c port f) := by
  unfold State.packetFor
  split
  · exact hs
  · exact .ite hs (.ite hs.faultQueue (.ite hs.packetRx (.ite hs.cacheCtx.packetRx hs.faultQueue)))

theorem State.FusesKept.popFrame {port : Nat} (hs : s₀.FusesKept s) : OptPairKept s₀ (s.popFrame port) := by
  unfold State.popFrame
  extract_lets
  split
  · exact .none
  · exact .of_state hs.setRails.xon

theorem State.FusesKept.setSep {x : Sep} (hs : s₀.FusesKept s) : s₀.FusesKept (s.setSep x) :=
  hs.upd rfl

/-! ### Buckets and entries (R137, R139) -/

theorem State.FusesKept.noteBuckets {fp : List Byte} (hs : s₀.FusesKept s) : s₀.FusesKept (s.noteBuckets fp) :=
  hs.noteTable.noteTable

/-! ### Counts shown in registers -/

theorem State.FusesKept.countSep {sh : Nat} (hs : s₀.FusesKept s) : s₀.FusesKept (s.countSep sh) := by
  unfold State.countSep
  extract_lets
  exact hs.wr.wr

/-! ### The filter (R141) -/

theorem State.FusesKept.setFilter {i : Nat} {es : List FEntry} (hs : s₀.FusesKept s) :
    s₀.FusesKept (s.setFilter i es) :=
  hs.setSep

theorem State.FusesKept.filterAdd {e : FEntry} (hs : s₀.FusesKept s) : OptKept s₀ (s.filterAdd e) := by
  unfold State.filterAdd
  extract_lets
  split
  · exact .of_state hs.setFilter
  · split
    · exact .none
    · refine .of_state ?_
      refine .setFilter ?_
      split
      · exact .ite hs.tableWrite hs
      · exact hs

theorem State.FusesKept.filterTouch {e : FEntry} (hs : s₀.FusesKept s) : s₀.FusesKept (s.filterTouch e) := by
  unfold State.filterTouch
  extract_lets
  exact hs.setFilter

theorem State.FusesKept.filterDrop {e : FEntry} (hs : s₀.FusesKept s) : s₀.FusesKept (s.filterDrop e) := by
  unfold State.filterDrop
  extract_lets
  exact hs.setFilter

theorem State.FusesKept.putEntry {h : Nat} {e : FEntry} (hs : s₀.FusesKept s) : s₀.FusesKept (s.putEntry h e) := by
  unfold State.putEntry
  extract_lets
  split
  · exact hs.setSep
  · exact hs.tableWrite

theorem State.FusesKept.entriesUp {sh : Nat} (hs : s₀.FusesKept s) : s₀.FusesKept (s.entriesUp sh) :=
  hs.wr

theorem State.FusesKept.freeEntry {h : Nat} {e : FEntry} (hs : s₀.FusesKept s) : s₀.FusesKept (s.freeEntry h e) := by
  unfold State.freeEntry
  extract_lets _ s₁
  have hs₁ : s₀.FusesKept s₁ := hs.setSep
  exact hs₁.tableWrite.drop.countSep

theorem State.FusesKept.sepWithdraw {h : Nat} (hs : s₀.FusesKept s) : s₀.FusesKept (s.sepWithdraw h).2 := by
  unfold State.sepWithdraw
  split
  · exact hs
  · exact .ite_snd hs.freeEntry.copyGarbage hs

/-! ### Holds and PENDING entries (R144, R145) -/

theorem State.FusesKept.takeHold {e : FEntry} (hs : s₀.FusesKept s) : s₀.FusesKept (s.takeHold e) :=
  hs.filterTouch.countSep

theorem State.FusesKept.settleLoc {h : Nat} (hs : s₀.FusesKept s) : s₀.FusesKept (s.settleLoc h) := by
  unfold State.settleLoc
  split
  · exact hs
  · extract_lets
    exact .ite hs.putEntry hs

theorem State.FusesKept.releaseHold {h : Nat} (hs : s₀.FusesKept s) : s₀.FusesKept (s.releaseHold h) := by
  unfold State.releaseHold
  split
  · exact hs
  · exact .ite hs hs.putEntry.countSep.sepWithdraw.settleLoc

theorem State.FusesKept.confirmHold {h : Nat} (hs : s₀.FusesKept s) : s₀.FusesKept (s.confirmHold h) := by
  unfold State.confirmHold
  split
  · exact hs
  · exact hs.putEntry.countSep.settleLoc

theorem State.FusesKept.makePending {dom : Nat} {fp : List Byte} {sh owner : Nat} (hs : s₀.FusesKept s) :
    OptKept s₀ (s.makePending dom fp sh owner) := by
  rw [State.makePending]
  exact hs.filterAdd.map fun _ ht => ht.countSep

theorem State.FusesKept.yieldPending {dom : Nat} {fp : List Byte} {k : Nat} (hs : s₀.FusesKept s) :
    s₀.FusesKept (s.yieldPending dom fp k) := by
  unfold State.yieldPending
  split
  · exact hs
  · refine .ite hs ?_
    extract_lets s₁
    have hs₁ : s₀.FusesKept s₁ := hs.filterDrop.countSep
    split
    · exact hs₁
    · exact hs₁.upd rfl

theorem State.FusesKept.dropPending {dom : Nat} {fp : List Byte} (hs : s₀.FusesKept s) :
    s₀.FusesKept (s.dropPending dom fp) := by
  unfold State.dropPending
  split
  · exact .ite hs.filterDrop.countSep hs
  · exact hs

theorem State.FusesKept.confirmPending {dom : Nat} {fp : List Byte} {sh loc : Nat} (hs : s₀.FusesKept s) :
    s₀.FusesKept (s.confirmPending dom fp sh loc).2 := by
  unfold State.confirmPending
  split
  · exact hs
  · refine .ite_snd hs ?_
    refine .ite_snd hs.filterDrop.countSep ?_
    extract_lets
    split
    · exact hs.filterDrop.countSep
    · extract_lets _ s₁
      have hs₁ : s₀.FusesKept s₁ := hs.tableWrite.filterTouch
      exact hs₁.setSep.entriesUp.countSep

/-! ### The new-entry log (R142, R143) -/

theorem State.FusesKept.newLog {fp : List Byte} {dom sh loc : Nat} {unindexed : Bool} (hs : s₀.FusesKept s) :
    s₀.FusesKept (s.newLog fp dom sh loc unindexed) := by
  unfold State.newLog
  extract_lets
  refine .ite hs.bump.raise ?_
  extract_lets
  split
  next t₁ e₁ =>
  have ht₁ : s₀.FusesKept t₁ := .of_snd e₁ (.ite_snd hs.draw hs)
  extract_lets
  exact ht₁.tableWrite.wr

/-! ### Lookups (R144) -/

theorem State.FusesKept.matchAns {e : FEntry} {hold : Bool} (hs : s₀.FusesKept s) :
    s₀.FusesKept (s.matchAns e hold).2 := by
  unfold State.matchAns
  refine .ite_snd hs ?_
  refine .ite_snd hs ?_
  refine .ite_snd hs.raise ?_
  extract_lets s₁
  have hs₁ : s₀.FusesKept s₁ := hs.wr
  exact .ite hs₁.takeHold hs₁

theorem State.FusesKept.noMatch {dom : Nat} {fp : List Byte} {write : Option (Nat × Nat)} (hs : s₀.FusesKept s) :
    s₀.FusesKept (s.noMatch dom fp write).2 := by
  simp only [State.noMatch]
  split
  · exact hs.wr
  · refine .ite_snd hs ?_
    split
    · next t₁ e₁ =>
        have ht₁ : s₀.FusesKept t₁ := OptKept.state e₁ hs.makePending
        exact ht₁.wr
    · exact hs.raise

theorem State.FusesKept.filterLookup {dom : Nat} {fp : List Byte} {hold : Bool} (hs : s₀.FusesKept s) :
    OptPairKept s₀ (s.filterLookup dom fp hold) :=
  .of_map (fun _ => hs.filterTouch.matchAns)

theorem State.FusesKept.dramLookup {dom : Nat} {fp : List Byte} {hold : Bool} {write : Option (Nat × Nat)}
    (hs : s₀.FusesKept s) :
    s₀.FusesKept (s.dramLookup dom fp hold write).2 := by
  unfold State.dramLookup
  split
  · next e₁ => exact OptPairKept.state e₁ hs.filterLookup
  · split
    · exact hs.noMatch
    · split
      · next t₁ e₃ =>
          have ht₁ : s₀.FusesKept t₁ := OptKept.state e₃ hs.filterAdd
          exact ht₁.matchAns
      · exact hs.raise

theorem State.FusesKept.setPar {p : Par} (hs : s₀.FusesKept s) : s₀.FusesKept (s.setPar p) :=
  hs.upd rfl

theorem State.FusesKept.setCmd {k : Nat} {c : NvmeCmd} (hs : s₀.FusesKept s) : s₀.FusesKept (s.setCmd k c) :=
  hs.setPar

theorem State.FusesKept.setTen {t : Tenon} (hs : s₀.FusesKept s) : s₀.FusesKept (s.setTen t) :=
  hs.upd rfl

/-! ### Sending on the Tenon link (R323, R324) -/

theorem State.FusesKept.tenLeave {m : TenMsg} (hs : s₀.FusesKept s) : s₀.FusesKept (s.tenLeave m) := by
  unfold State.tenLeave
  extract_lets _ _ s₁
  have hs₁ : s₀.FusesKept s₁ := hs.setTen
  split
  · exact hs₁.setPar
  · exact hs₁

theorem State.FusesKept.tenPump {n : Nat} (hs : s₀.FusesKept s) : s₀.FusesKept (s.tenPump n) := by
  induction n generalizing s with
  | zero =>
    unfold State.tenPump
    exact hs
  | succ n ih =>
    unfold State.tenPump
    refine .ite hs ?_
    extract_lets
    split
    · exact hs
    · exact ih hs.setTen.tenLeave

theorem State.FusesKept.tenSend {m : TenMsg} (hs : s₀.FusesKept s) : s₀.FusesKept (s.tenSend m) := by
  unfold State.tenSend
  extract_lets _ _ s₁
  have hs₁ : s₀.FusesKept s₁ := hs.setTen
  exact .ite hs hs₁.tenPump

theorem State.FusesKept.dropQueued {c : NvmeCmd} (hs : s₀.FusesKept s) : s₀.FusesKept (s.dropQueued c) :=
  hs.setTen

/-! ### Contexts (R102) -/

theorem State.FusesKept.countCtxs (hs : s₀.FusesKept s) : s₀.FusesKept s.countCtxs := by
  unfold State.countCtxs
  extract_lets
  exact hs.wr.wr.wr

theorem State.FusesKept.setCtrl {n : Nat} {c : Ctrl} (hs : s₀.FusesKept s) : s₀.FusesKept (s.setCtrl n c) :=
  hs.setPar

theorem State.FusesKept.keepAlive {n : Nat} (hs : s₀.FusesKept s) : s₀.FusesKept (s.keepAlive n) := by
  unfold State.keepAlive
  split
  · exact hs.setCtrl
  · exact hs

theorem State.FusesKept.assign {k : Nat} {c : NvmeCmd} (hs : s₀.FusesKept s) : s₀.FusesKept (s.assign k c) := by
  unfold State.assign
  extract_lets _ _ s₁ _ s₂
  have hs₁ : s₀.FusesKept s₁ := hs.setCmd
  have hs₂ : s₀.FusesKept s₂ := hs.setCmd
  exact .ite hs₁.setPar.countCtxs (.ite hs₁.countCtxs hs₂.setPar.countCtxs)

theorem State.FusesKept.headOn {x : Nat} (hs : s₀.FusesKept s) : s₀.FusesKept (s.headOn x) :=
  hs.setPar

theorem State.FusesKept.takeCapsule {x : Nat} {bytes : List Byte} {bad : Bool} {since : Nat} (hs : s₀.FusesKept s) :
    s₀.FusesKept (s.takeCapsule x bytes bad since) := by
  unfold State.takeCapsule
  extract_lets
  split
  · exact hs
  · exact hs.headOn.assign

theorem State.FusesKept.takeWaiting {n : Nat} (hs : s₀.FusesKept s) : s₀.FusesKept (s.takeWaiting n) := by
  induction n generalizing s with
  | zero =>
    unfold State.takeWaiting
    exact hs
  | succ n ih =>
    unfold State.takeWaiting
    extract_lets
    split
    · exact hs
    · exact .ite (ih hs.setPar.takeCapsule) hs

/-! ### Responses (R106) -/

theorem State.FusesKept.sendCapsule {x : Nat} {cqe : List Byte} (hs : s₀.FusesKept s) :
    s₀.FusesKept (s.sendCapsule x cqe) := by
  unfold State.sendCapsule
  extract_lets _ s₁
  have hs₁ : s₀.FusesKept s₁ := hs.setPar
  split
  · exact hs₁
  · split
    · exact hs₁.postWr
    · exact hs₁.tcpSend

theorem State.FusesKept.respond {c : NvmeCmd} {dw0 dw1 status : Nat} (hs : s₀.FusesKept s) :
    s₀.FusesKept (s.respond c dw0 dw1 status) := by
  unfold State.respond
  split
  · exact hs
  · extract_lets
    exact hs.sendCapsule

theorem State.FusesKept.sendData {c : NvmeCmd} {data : List Byte} {pins : List (Nat × Nat × Nat)}
    (hs : s₀.FusesKept s) :
    s₀.FusesKept (s.sendData c data pins) := by
  unfold State.sendData
  extract_lets
  split
  · exact hs.unpin
  · extract_lets s₁
    have hs₁ : s₀.FusesKept s₁ := hs.setPar
    split
    · exact hs₁.unpin
    · exact .ite hs₁.unpin (.foldl hs₁ (fun _ _ ht => ht.postWr))
    · exact hs₁.tcpSend

/-! ### Releasing what a command holds -/

theorem State.FusesKept.freeCtxPails {k : Nat} (hs : s₀.FusesKept s) : s₀.FusesKept (s.freeCtxPails k) := by
  unfold State.freeCtxPails
  extract_lets
  exact hs.setVat.countWaiting.freePails

theorem State.FusesKept.unpinAll {c : NvmeCmd} (hs : s₀.FusesKept s) : s₀.FusesKept (s.unpinAll c) :=
  hs.unpin.widxReap

theorem State.FusesKept.dropHolds {c : NvmeCmd} (hs : s₀.FusesKept s) : s₀.FusesKept (s.dropHolds c) := by
  unfold State.dropHolds
  refine .foldl hs (fun _ _ ht => ?_)
  extract_lets s₁ s₂
  have hs₁ : s₀.FusesKept s₁ := by
    unfold s₁
    split
    · exact ht.releaseHold
    · exact ht
  have hs₂ : s₀.FusesKept s₂ := by
    unfold s₂
    split
    · exact hs₁.drop
    · exact hs₁
  exact .ite hs₂.dropPending hs₂

theorem State.FusesKept.withdrawWidx {c : NvmeCmd} (hs : s₀.FusesKept s) : s₀.FusesKept (s.withdrawWidx c) :=
  hs.widxMap.widxReap

theorem State.FusesKept.dropRecs {k : Nat} (hs : s₀.FusesKept s) : s₀.FusesKept (s.dropRecs k) :=
  hs.setCell

theorem State.FusesKept.dropPulls {k : Nat} (hs : s₀.FusesKept s) : s₀.FusesKept (s.dropPulls k) :=
  hs.setRails

theorem State.FusesKept.freeContextOf {k : Nat} (hs : s₀.FusesKept s) : s₀.FusesKept (s.freeContextOf k) := by
  unfold State.freeContextOf
  extract_lets _ s₁ _ s₂ _ s₃ s₄
  have hs₁ : s₀.FusesKept s₁ := by
    unfold s₁
    split
    · exact hs.dropQueued
    · exact hs
  have hs₂ : s₀.FusesKept s₂ := hs₁.setPar
  have hs₃ : s₀.FusesKept s₃ := hs₂.upd rfl
  have hs₄ : s₀.FusesKept s₄ := .ite hs₃.tenSend hs₃
  exact hs₄.takeWaiting.countCtxs

/-! ### Held commands (R119) -/

theorem State.FusesKept.countHeld {shards : List Nat} (hs : s₀.FusesKept s) : s₀.FusesKept (s.countHeld shards) :=
  .foldl hs (fun _ _ ht => ht.wr)

/-! ### Re-execution lists (R329) -/

theorem State.FusesKept.listReexec {sh k : Nat} (hs : s₀.FusesKept s) : s₀.FusesKept (s.listReexec sh k) := by
  unfold State.listReexec
  extract_lets
  exact .ite hs hs.setLease

theorem State.FusesKept.retryParts {k : Nat} {c : NvmeCmd} (hs : s₀.FusesKept s) :
    s₀.FusesKept (s.retryParts k c) := by
  unfold State.retryParts
  extract_lets
  exact .foldl hs.setCmd (fun _ _ ht => ht.listReexec)

/-! ### Cuts (R109 to R112) -/

theorem State.FusesKept.cutDone {k : Nat} {sup : Bool} (hs : s₀.FusesKept s) : s₀.FusesKept (s.cutDone k sup) :=
  hs.setPar

theorem State.FusesKept.complete {k status dw0 dw1 : Nat} {data : List Byte} (hs : s₀.FusesKept s) :
    s₀.FusesKept (s.complete k status dw0 dw1 data) := by
  unfold State.complete
  split
  · exact hs
  · extract_lets _ _ _ s₁ s₂ s₃ s₄ s₅
    have hs₁ : s₀.FusesKept s₁ := hs.dropHolds
    have hs₂ : s₀.FusesKept s₂ := .ite hs₁.meterEvent hs₁
    have hs₃ : s₀.FusesKept s₃ := .ite hs₂.unpinAll hs₂.sendData
    have hs₄ : s₀.FusesKept s₄ := hs₃.respond
    have hs₅ : s₀.FusesKept s₅ := by
      unfold s₅
      refine .ite ?_ ?_
      · split
        · exact hs₂.unpinAll.tenSend
        · exact hs₂.unpinAll.cutDone
      · split
        · exact hs₂.unpinAll.tenSend
        · exact .ite hs₄.meterEvent hs₄
    exact hs₅.freeCtxPails.freeContextOf.countHeld

theorem State.FusesKept.finishIfDone {k : Nat} (hs : s₀.FusesKept s) : s₀.FusesKept (s.finishIfDone k) := by
  unfold State.finishIfDone
  split
  · exact hs
  · refine .ite hs ?_
    refine .ite hs.retryParts ?_
    extract_lets _ _ s₁
    have hs₁ : s₀.FusesKept s₁ := .ite hs (.foldl hs (fun _ _ ht => .ite ht ht.meterEvent))
    exact .ite hs₁.complete hs₁.complete

theorem State.FusesKept.setBlk {k i : Nat} {b : Blk} (hs : s₀.FusesKept s) : s₀.FusesKept (s.setBlk k i b) := by
  unfold State.setBlk
  split
  · exact hs.setCmd
  · exact hs

theorem State.FusesKept.blkDone {k i st : Nat} (hs : s₀.FusesKept s) : s₀.FusesKept (s.blkDone k i st) := by
  unfold State.blkDone
  split
  · exact hs
  · extract_lets
    exact hs.setCmd.finishIfDone

theorem State.FusesKept.dropLocal {k : Nat} {c : NvmeCmd} (hs : s₀.FusesKept s) : s₀.FusesKept (s.dropLocal k c) :=
  hs.dropHolds.unpinAll.withdrawWidx.dropRecs.dropPulls.freeCtxPails

theorem State.FusesKept.cancel {k : Nat} (hs : s₀.FusesKept s) : s₀.FusesKept (s.cancel k) := by
  unfold State.cancel
  split
  · exact hs
  · exact hs.dropLocal.freeContextOf

theorem State.FusesKept.sendCancels {k : Nat} {silent : Bool} {c : NvmeCmd} (hs : s₀.FusesKept s) :
    s₀.FusesKept (s.sendCancels k silent c) := by
  unfold State.sendCancels
  extract_lets s₁
  have hs₁ : s₀.FusesKept s₁ := hs.setCmd
  exact .foldl hs₁ (fun _ _ ht => ht.tenSend)

theorem State.FusesKept.cutOne {silent : Bool} {k : Nat} (hs : s₀.FusesKept s) : s₀.FusesKept (s.cutOne silent k) := by
  unfold State.cutOne
  split
  · exact hs
  · refine .ite hs ?_
    refine .ite hs.sendCancels ?_
    refine .ite (.cancel (.ite hs hs.respond)) ?_
    extract_lets s₁ _ s₂
    have hs₁ : s₀.FusesKept s₁ := hs.dropLocal.dropQueued
    have hs₂ : s₀.FusesKept s₂ := hs₁.setPar.countHeld
    exact hs₂.sendCancels

theorem State.FusesKept.cutSettled {k : Nat} {c : NvmeCmd} (hs : s₀.FusesKept s) :
    s₀.FusesKept (s.cutSettled k c) :=
  .ite hs (.ite hs.finishIfDone (.ite hs.cutDone.cancel (.cancel (.cutDone (.ite hs hs.respond)))))

theorem State.FusesKept.abortCapsule {silent : Bool} {x : Nat} {bs : List Byte} (hs : s₀.FusesKept s) :
    s₀.FusesKept (s.abortCapsule silent x bs) := by
  unfold State.abortCapsule
  extract_lets s₁
  have hs₁ : s₀.FusesKept s₁ := hs.headOn
  split
  · exact .ite hs₁ hs₁.sendCapsule
  · exact hs₁

theorem State.FusesKept.cutQueues {d : Option DescRef} {cntlid : Nat} {qid : Option Nat} {silent : Bool}
    (hs : s₀.FusesKept s) :
    s₀.FusesKept (s.cutQueues d cntlid qid silent) := by
  unfold State.cutQueues
  extract_lets _ _ _ _ _ s₁ _ s₂ s₃
  have hs₁ : s₀.FusesKept s₁ := .foldl hs (fun _ _ ht => ht.abortCapsule)
  have hs₂ : s₀.FusesKept s₂ := hs₁.setPar
  have hs₃ : s₀.FusesKept s₃ := .foldl hs₂ (fun _ _ ht => ht.cutOne)
  exact hs₃.setPar.countCtxs

theorem State.FusesKept.assocEvent {cntlid cause : Nat} (hs : s₀.FusesKept s) :
    s₀.FusesKept (s.assocEvent cntlid cause) := by
  unfold State.assocEvent
  extract_lets _ s₁
  have hs₁ : s₀.FusesKept s₁ := by
    unfold s₁
    split
    · exact hs.setCtrl
    · exact hs
  exact hs₁.raise

theorem State.FusesKept.assocLoss {cntlid cause : Nat} (hs : s₀.FusesKept s) :
    s₀.FusesKept (s.assocLoss cntlid cause) :=
  .ite hs hs.cutQueues.assocEvent

/-! ### ANA states (R118, R120) -/

theorem State.FusesKept.anaDeliver {n : Nat} (hs : s₀.FusesKept s) : s₀.FusesKept (s.anaDeliver n) := by
  induction n generalizing s with
  | zero =>
    unfold State.anaDeliver
    exact hs
  | succ n ih =>
    unfold State.anaDeliver
    extract_lets
    split
    · exact hs
    · extract_lets s₁
      have hs₁ : s₀.FusesKept s₁ := hs.setPar
      split
      · exact hs
      · extract_lets s₂
        have hs₂ : s₀.FusesKept s₂ := hs₁.setCtrl
        split
        · exact ih hs₂.complete
        · exact ih hs₂

/-! ### Parts by shard (R118) -/

theorem State.FusesKept.hold {k : Nat} {c : NvmeCmd} (hs : s₀.FusesKept s) : s₀.FusesKept (s.hold k c) := by
  unfold State.hold
  extract_lets _ s₁
  have hs₁ : s₀.FusesKept s₁ := hs.setCmd
  exact hs₁.setPar.countHeld

theorem State.FusesKept.holdBegun {sh k : Nat} (hs : s₀.FusesKept s) : s₀.FusesKept (s.holdBegun sh k) := by
  unfold State.holdBegun
  split
  · exact hs
  · refine .ite hs ?_
    extract_lets s₁
    have hs₁ : s₀.FusesKept s₁ := hs.dropHolds.withdrawWidx.dropRecs.freeCtxPails
    exact hs₁.hold

theorem State.FusesKept.moveStarts {sh : Nat} (hs : s₀.FusesKept s) : s₀.FusesKept (s.moveStarts sh) := by
  unfold State.moveStarts
  extract_lets _ _ _ s₁ s₂
  have hs₁ : s₀.FusesKept s₁ := hs.setPar
  have hs₂ : s₀.FusesKept s₂ := .ite (.foldl hs₁ (fun _ _ ht => ht.holdBegun)) hs₁
  exact hs₂.countHeld

theorem State.FusesKept.moveEnds {sh : Nat} (hs : s₀.FusesKept s) : s₀.FusesKept (s.moveEnds sh) := by
  unfold State.moveEnds
  extract_lets _ s₁ _ _ s₂
  have hs₁ : s₀.FusesKept s₁ := hs.setPar
  have hs₂ : s₀.FusesKept s₂ := hs₁.setPar
  exact hs₂.countHeld

theorem State.FusesKept.setAna {sh st : Nat} (hs : s₀.FusesKept s) : s₀.FusesKept (s.setAna sh st) := by
  unfold State.setAna
  extract_lets _ s₁ _ _ s₂ s₃
  have hs₁ : s₀.FusesKept s₁ := hs.wr
  have hs₂ : s₀.FusesKept s₂ := hs₁.setPar
  have hs₃ : s₀.FusesKept s₃ := .ite hs₁ hs₂.anaDeliver
  exact .ite hs₃.moveStarts hs₃.moveEnds

/-! ### Lease states (R336, R337) -/

theorem State.FusesKept.setLeaseX {sh : Nat} {x : LeaseX} (hs : s₀.FusesKept s) : s₀.FusesKept (s.setLeaseX sh x) :=
  hs.setLease

theorem State.FusesKept.anaUpdate {sh : Nat} (hs : s₀.FusesKept s) : s₀.FusesKept (s.anaUpdate sh) :=
  .ite hs hs.setAna

/-! ### Issuing (R289 to R294, R310) -/

theorem State.FusesKept.countPort {b : Nat} (hs : s₀.FusesKept s) : s₀.FusesKept (s.countPort b) :=
  hs.wr

theorem State.FusesKept.issue {b q : Nat} {c : BCmd} {who : Issuer} (hs : s₀.FusesKept s) :
    s₀.FusesKept (s.issue b q c who).2 := by
  unfold State.issue
  refine .ite_snd hs ?_
  extract_lets
  exact hs.setHport.countPort

theorem State.FusesKept.epochRefused {b : Nat} {c : BCmd} {st : Nat} (hs : s₀.FusesKept s) :
    s₀.FusesKept (s.epochRefused b c st) := by
  unfold State.epochRefused
  extract_lets _ s₁
  have hs₁ : s₀.FusesKept s₁ := hs.bump.raise
  exact .ite (.ite hs₁.issue hs₁) hs

theorem State.FusesKept.bladeSync {b : Nat} {c : BCmd} (hs : s₀.FusesKept s) : s₀.FusesKept (s.bladeSync b c).2 := by
  unfold State.bladeSync
  extract_lets
  split
  · exact hs
  · refine .ite_snd hs ?_
    refine .ite_snd hs ?_
    extract_lets s₁
    have hs₁ : s₀.FusesKept s₁ := hs.drainFor
    split
    extract_lets src s₂ _ s₃
    have hsrc : s₀.FusesKept src := hs₁.setBlade
    have hs₂ : s₀.FusesKept s₂ := hsrc.upd rfl
    have hs₃ : s₀.FusesKept s₃ := hs₂.setCell
    exact hs₃.epochRefused

theorem State.FusesKept.scripted {ms : List Medium} {f : State → State} (hs : s₀.FusesKept s)
    (hf : ∀ (t : State), s₀.FusesKept t → s₀.FusesKept (f t)) :
    s₀.FusesKept (s.scripted ms f) := by
  unfold State.scripted
  extract_lets _ s₁
  have hs₁ : s₀.FusesKept s₁ := hf _ hs.setCell
  exact hs₁.setCell

/-! ### The cutting list (R211) -/

theorem State.FusesKept.setCarc {c : Carc} (hs : s₀.FusesKept s) : s₀.FusesKept (s.setCarc c) :=
  hs.upd rfl

/-! ### Generations (R209, R210) -/

theorem State.FusesKept.genOnline {members : Nat} (hs : s₀.FusesKept s) : s₀.FusesKept (s.genOnline members) :=
  .foldl hs (fun _ _ ht => .ite ht.wr ht)

theorem State.FusesKept.makeCurrent {pool gen : Nat} (hs : s₀.FusesKept s) :
    s₀.FusesKept (s.makeCurrent pool gen) :=
  hs.wr.genOnline

theorem State.FusesKept.newGen {pool b : Nat} (hs : s₀.FusesKept s) : s₀.FusesKept (s.newGen pool b) := by
  unfold State.newGen
  extract_lets
  refine .ite hs ?_
  refine .ite hs.raise ?_
  extract_lets
  split
  · exact hs.raise
  · extract_lets s₁
    have hs₁ : s₀.FusesKept s₁ := hs.tableWrite
    exact hs₁.makeCurrent

/-! ### The remap table (R212) -/

theorem State.FusesKept.remapPut {pool f st col blade : Nat} {lost : Bool} (hs : s₀.FusesKept s) :
    OptKept s₀ (s.remapPut pool f st col blade lost) := by
  constructor
  intro t h
  simp only [State.remapPut, Option.map_eq_some_iff] at h
  obtain ⟨a, -, rfl⟩ := h
  exact hs.tableWrite

theorem State.remapWrite_eq : State.remapWrite = fun s pool f st col blade lost =>
    match s.remapPut pool f st col blade lost with
    | some s => (St.success, s)
    | none => (St.remapFull, s) := by
  delta State.remapWrite
  exact Eq.refl _

theorem State.remapWrite_apply (s : State) (pool f st col blade : Nat) (lost : Bool) :
    s.remapWrite pool f st col blade lost = match s.remapPut pool f st col blade lost with
      | some s => (St.success, s)
      | none => (St.remapFull, s) := by
  rw [State.remapWrite_eq]

theorem State.FusesKept.remapWrite {pool f st col blade : Nat} {lost : Bool} (hs : s₀.FusesKept s) :
    s₀.FusesKept (s.remapWrite pool f st col blade lost).2 := by
  have hput := hs.remapPut (pool := pool) (f := f) (st := st) (col := col) (blade := blade) (lost := lost)
  rw [State.remapWrite_apply]
  revert hput
  induction s.remapPut pool f st col blade lost using opaquely with
  | of_all o =>
  intro hput
  cases o with
  | none => exact hs
  | some t => exact hput.some t rfl

theorem State.FusesKept.remapDrop {pool f : Nat} (hs : s₀.FusesKept s) : s₀.FusesKept (s.remapDrop pool f) :=
  .foldl hs (fun _ _ ht => .foldl ht (fun _ _ ht₁ => .ite ht₁.tableWrite ht₁))

/-! ### Intent counts (R218, R219) -/

theorem State.FusesKept.countIntents (hs : s₀.FusesKept s) : s₀.FusesKept s.countIntents :=
  hs.wr

theorem State.FusesKept.giveBack {sh pool frame : Nat} (hs : s₀.FusesKept s) :
    s₀.FusesKept (s.giveBack sh pool frame).2 := by
  unfold State.giveBack
  extract_lets
  split
  · exact hs
  · extract_lets
    exact hs.setCarc.countIntents

/-! ### Rebuild queues (R217, R228) -/

theorem State.FusesKept.countRebuild {b : Nat} (hs : s₀.FusesKept s) : s₀.FusesKept (s.countRebuild b) := by
  unfold State.countRebuild
  extract_lets _ _ s₁
  have hs₁ : s₀.FusesKept s₁ := hs.wr.wr
  exact .ite hs₁.setCarc.raise hs₁

theorem State.FusesKept.startRebuild {b : Nat} (hs : s₀.FusesKept s) : s₀.FusesKept (s.startRebuild b) := by
  unfold State.startRebuild
  extract_lets _ s₁
  have hs₁ : s₀.FusesKept s₁ := hs.setCarc
  exact hs₁.raise.countRebuild

theorem State.FusesKept.queueRebuild {b : Nat} (hs : s₀.FusesKept s) : s₀.FusesKept (s.queueRebuild b) := by
  unfold State.queueRebuild
  refine .ite hs.countRebuild ?_
  extract_lets _ s₁
  have hs₁ : s₀.FusesKept s₁ := hs.setCarc
  exact .ite hs₁.startRebuild hs₁

theorem State.FusesKept.bladeLost {b st : Nat} (hs : s₀.FusesKept s) : s₀.FusesKept (s.bladeLost b st) := by
  unfold State.bladeLost
  extract_lets s₁ _ s₂ s₃
  have hs₁ : s₀.FusesKept s₁ := hs.wr
  have hs₂ : s₀.FusesKept s₂ := hs₁.setCarc
  have hs₃ : s₀.FusesKept s₃ := .foldl hs₂ (fun _ _ ht => .ite ht.newGen ht)
  exact hs₃.queueRebuild

theorem State.FusesKept.carcUnreachable {b : Nat} (hs : s₀.FusesKept s) : s₀.FusesKept (s.carcUnreachable b) :=
  .ite hs.wr.setCarc (.ite hs.wr hs)

theorem State.FusesKept.carcReachable {b : Nat} (hs : s₀.FusesKept s) : s₀.FusesKept (s.carcReachable b) :=
  .ite hs.wr.setCarc hs

theorem State.FusesKept.carcFailed {b : Nat} (hs : s₀.FusesKept s) : s₀.FusesKept (s.carcFailed b) :=
  .ite hs.bladeLost hs

theorem State.FusesKept.carcExhausted {b : Nat} (hs : s₀.FusesKept s) : s₀.FusesKept (s.carcExhausted b) :=
  .ite hs.bladeLost hs

theorem State.FusesKept.resumeRebuilds (hs : s₀.FusesKept s) : s₀.FusesKept s.resumeRebuilds :=
  .foldl hs (fun _ _ ht => .ite ht.queueRebuild ht)

theorem State.FusesKept.retireDone {b : Nat} (hs : s₀.FusesKept s) : s₀.FusesKept (s.retireDone b) := by
  unfold State.retireDone
  refine .ite ?_ hs
  extract_lets s₁ _ s₂
  have hs₁ : s₀.FusesKept s₁ := hs.wr
  have hs₂ : s₀.FusesKept s₂ := hs₁.setCarc
  exact hs₂.wr.raise.countRebuild

/-! ### Dictionaries (R162) -/

theorem State.FusesKept.setChurn {c : Churn} (hs : s₀.FusesKept s) : s₀.FusesKept (s.setChurn c) :=
  hs.upd rfl

theorem State.FusesKept.useDict {id : Nat} (hs : s₀.FusesKept s) : OptKept s₀ (s.useDict id) := by
  unfold State.useDict
  extract_lets _ s1
  have hs1 : s₀.FusesKept s1 := .ite hs hs.wr
  split
  · exact .of_state hs
  · split
    · exact .none
    · exact .of_state hs1.setChurn.wr

theorem State.FusesKept.useDicts {ids : List Nat} (hs : s₀.FusesKept s) : OptKept s₀ (s.useDicts ids) := by
  rw [State.useDicts]
  exact OptKept.foldl (fun _ _ ho => ho.bind fun _ ht => ht.useDict) ids _ (.of_state hs)

/-! ### Descriptors (R168 to R170) -/

theorem State.FusesKept.churnDesc {d : DescRef} {op : Nat} {k : Fetched → State} (hs : s₀.FusesKept s)
    (hk : ∀ (a₀ : Fetched), s₀.FusesKept (k a₀)) :
    OutKept s₀ (s.churnDesc d op k) := by
  unfold State.churnDesc
  split
  · exact .of_state hs
  · exact .of_state (.ite (hk _) hs)

theorem State.FusesKept.churnRead {d : DescRef} {a n : Nat} {k : List Byte → State} (hs : s₀.FusesKept s)
    (hk : ∀ (a₀ : List Byte), s₀.FusesKept (k a₀)) :
    s₀.FusesKept (s.churnRead d a n k) := by
  unfold State.churnRead
  split
  · exact hk _
  · exact hs.finishDma

theorem State.FusesKept.withDicts {d : DescRef} {ids : List Nat} {k : State → State} (hs : s₀.FusesKept s)
    (hk : ∀ (t : State), s₀.FusesKept t → s₀.FusesKept (k t)) :
    s₀.FusesKept (s.withDicts d ids k) := by
  unfold State.withDicts
  split
  · next t₁ e₁ =>
      have ht₁ : s₀.FusesKept t₁ := OptKept.state e₁ hs.useDicts
      exact hk _ ht₁
  · exact hs.headLost.finish

theorem State.FusesKept.curdOut {d : DescRef} {f : Fetched} {cap : Nat} {curd : List Byte} (hs : s₀.FusesKept s) :
    s₀.FusesKept (s.curdOut d f cap curd) := by
  unfold State.curdOut
  refine .ite hs.finish ?_
  refine .ite hs.finish ?_
  extract_lets
  split
  · exact hs.finishDma
  · next t₁ e₁ =>
      have ht₁ : s₀.FusesKept t₁ := ExcKept.state e₁ hs.dmaWrite
      exact ht₁.finish

theorem State.FusesKept.execCompress {d : DescRef} (hs : s₀.FusesKept s) : OutKept s₀ (Machine.execCompress d s) := by
  unfold Machine.execCompress
  refine hs.churnDesc (fun _ => ?_)
  extract_lets
  refine .ite hs.finish ?_
  refine .ite hs.finish ?_
  refine .ite hs.finish ?_
  split
  · exact hs.finish
  · exact hs.churnRead (fun _ => hs.withDicts (fun _ ht => ht.curdOut))

theorem State.FusesKept.curdEvent {src st : Nat} (hs : s₀.FusesKept s) : s₀.FusesKept (s.curdEvent src st) :=
  .ite hs.raise hs

theorem State.FusesKept.execDecompress {d : DescRef} (hs : s₀.FusesKept s) :
    OutKept s₀ (Machine.execDecompress d s) := by
  unfold Machine.execDecompress
  refine hs.churnDesc (fun _ => ?_)
  extract_lets
  refine .ite hs.finish ?_
  refine .ite hs.finish ?_
  refine .ite hs.finish ?_
  refine .ite hs.finish ?_
  refine hs.churnRead (fun _ => ?_)
  refine hs.withDicts (fun _ ht => ?_)
  extract_lets
  split
  · exact ht.curdEvent.finish
  · refine .ite ht.finish ?_
    refine .ite (ht.churnRead (fun _ => ht.finish)) ?_
    refine .ite ht.finish ?_
    extract_lets
    refine .ite ht.finish ?_
    refine .ite ht.finish ?_
    split
    · exact ht.finishDma
    · next t₂ e₂ =>
        have ht₂ : s₀.FusesKept t₂ := ExcKept.state e₂ ht.dmaWrite
        exact ht₂.finish

theorem State.FusesKept.sourceEvent {ring e : Nat} {img : List Byte} (hs : s₀.FusesKept s) :
    s₀.FusesKept (s.sourceEvent ring e img) := by
  unfold State.sourceEvent
  split
  · exact hs.curdEvent
  · exact hs

theorem State.FusesKept.execRecast {d : DescRef} (hs : s₀.FusesKept s) : OutKept s₀ (Machine.execRecast d s) := by
  unfold Machine.execRecast
  refine hs.churnDesc (fun _ => ?_)
  extract_lets
  refine .ite hs.finish ?_
  refine .ite hs.finish ?_
  refine hs.withDicts (fun _ ht => ?_)
  split
  · exact ht.dmaFailed.finish
  · exact ht.sourceEvent.finish
  · split
    · exact ht.finish
    · exact ht.withDicts (fun _ ht₁ => ht₁.curdOut)

theorem State.FusesKept.execDictLoad {d : DescRef} (hs : s₀.FusesKept s) : OutKept s₀ (Machine.execDictLoad d s) := by
  unfold Machine.execDictLoad
  refine hs.churnDesc (fun _ => ?_)
  extract_lets
  refine .ite hs.finish ?_
  refine .ite hs.finish ?_
  refine .ite hs ?_
  refine hs.churnRead (fun _ => ?_)
  extract_lets
  split
  · exact hs.finish
  · refine hs.draw.tableThen (fun _ ht => ?_)
    extract_lets _ _ t₂
    have ht₂ : s₀.FusesKept t₂ := ht.setChurn
    exact ht₂.wr.finish

theorem State.FusesKept.execDictDrop {d : DescRef} (hs : s₀.FusesKept s) : OutKept s₀ (Machine.execDictDrop d s) := by
  unfold Machine.execDictDrop
  extract_lets
  split
  · exact .of_state hs
  · exact .ite (.of_state hs.finish) (.ite (.of_state hs) (.of_state hs.setChurn.wr.finish))

/-! ### Lane faults (R171) -/

theorem State.FusesKept.churnLaneFault {lane : Nat} (hs : s₀.FusesKept s) : s₀.FusesKept (s.churnLaneFault lane) :=
  hs.wrBit.raise

theorem State.FusesKept.execChurnLaneFault {lane : Fin 16} {job : LaneJob} (hs : s₀.FusesKept s) :
    OutKept s₀ (Machine.execChurnLaneFault lane job s) := by
  unfold Machine.execChurnLaneFault
  extract_lets s₁
  have hs₁ : s₀.FusesKept s₁ := hs.churnLaneFault
  split
  · split
    · exact .of_state (.ite hs₁ hs₁.finish)
    · exact .of_state hs₁
  · exact .of_state hs₁

/-! ### Geometry (R240, R241, R243) -/

theorem State.FusesKept.setBand {b n : Nat} {y : Band} (hs : s₀.FusesKept s) : s₀.FusesKept (s.setBand b n y) :=
  hs.setCblade

theorem State.FusesKept.dropBand {b n : Nat} (hs : s₀.FusesKept s) : s₀.FusesKept (s.dropBand b n) :=
  hs.setCblade

/-! ### Counts (R271, R278) -/

theorem State.FusesKept.countBlade {b : Nat} (hs : s₀.FusesKept s) : s₀.FusesKept (s.countBlade b) :=
  hs.wr.wr.wr

theorem State.FusesKept.countPool {p : Nat} (hs : s₀.FusesKept s) : s₀.FusesKept (s.countPool p) := by
  unfold State.countPool
  extract_lets _ _ _ _ _ _ s₁
  have hs₁ : s₀.FusesKept s₁ := hs.wr.wr
  exact .ite hs₁ hs₁.raise

theorem State.FusesKept.countBands {b : Nat} (hs : s₀.FusesKept s) : s₀.FusesKept (s.countBands b) := by
  unfold State.countBands
  extract_lets s₁
  have hs₁ : s₀.FusesKept s₁ := hs.countBlade
  split
  · exact hs₁.countPool
  · exact hs₁

/-! ### The health ring (R276, R279) -/

theorem State.FusesKept.healthEntry {body : List Byte} (hs : s₀.FusesKept s) : s₀.FusesKept (s.healthEntry body) := by
  unfold State.healthEntry
  extract_lets
  exact .ite hs.bump hs.tableWrite.wr

/-! ### Retired blocks (R270) -/

theorem State.FusesKept.retireBlock {b n die block cause : Nat} (hs : s₀.FusesKept s) :
    s₀.FusesKept (s.retireBlock b n die block cause).2 := by
  unfold State.retireBlock
  extract_lets
  split
  · exact hs
  · extract_lets s₁ _ _ _ _ s₂ s₃ s₄ s₅
    have hs₁ : s₀.FusesKept s₁ := hs.bladeSync
    have hs₂ : s₀.FusesKept s₂ := .ite hs₁.setBand.setCblade hs₁
    have hs₃ : s₀.FusesKept s₃ := hs₂.healthEntry
    have hs₄ : s₀.FusesKept s₄ := hs₃.raise
    have hs₅ : s₀.FusesKept s₅ := .ite hs₄.bladeSync hs₄
    exact hs₅.countBands

theorem State.FusesKept.metaLeaves {b : Nat} (hs : s₀.FusesKept s) : s₀.FusesKept (s.metaLeaves b) :=
  hs.setCell

theorem State.FusesKept.cellExhausted {b : Nat} (hs : s₀.FusesKept s) : s₀.FusesKept (s.cellExhausted b) :=
  .ite hs hs.wr.raise.metaLeaves.carcExhausted

/-! ### Claims (R242, R268, R272) -/

theorem State.FusesKept.claimBand {b shard : Nat} {y : Band} {no : List Nat} {n : Nat} (hs : s₀.FusesKept s) :
    s₀.FusesKept (s.claimBand b shard y no n).2 := by
  induction n generalizing s b shard y no with
  | zero =>
    unfold State.claimBand
    exact hs
  | succ n ih =>
    unfold State.claimBand
    refine .ite_snd hs ?_
    refine .ite_snd hs ?_
    extract_lets
    split
    · exact hs
    · split
      next t₁ e₂ =>
      have ht₁ : s₀.FusesKept t₁ := .of_snd e₂ hs.bladeSync
      refine .ite_snd ?_ (.ite_snd (ih ht₁) ht₁)
      extract_lets s₁ s₂
      have hs₁ : s₀.FusesKept s₁ := ht₁.setBand
      have hs₂ : s₀.FusesKept s₂ := hs₁.journal
      exact hs₂.countBands

/-! ### Programs (R246, R262) -/

theorem State.FusesKept.toBlade {b : Nat} {c : BCmd} {async : Option (Nat × Issuer)} (hs : s₀.FusesKept s) :
    s₀.FusesKept (s.toBlade b c async).2 := by
  unfold State.toBlade
  split
  · split
    next e₁ => exact .of_snd e₁ hs.bladeSync
  · refine .ite_snd hs ?_
    split
    next e₁ => exact .of_snd e₁ hs.issue

theorem State.FusesKept.putParity {b n q : Nat} {queue : Option Nat} (hs : s₀.FusesKept s) :
    s₀.FusesKept (s.putParity b n q queue) := by
  unfold State.putParity
  split
  · exact hs
  · extract_lets s₁ _ s₂
    have hs₁ : s₀.FusesKept s₁ := hs.setBand
    have hs₂ : s₀.FusesKept s₂ := hs₁.setCblade
    split
    exact hs₂.toBlade

theorem State.FusesKept.putPage {b n : Nat} {h : PageHead} {data : List Byte} {async : Option (Nat × Issuer)}
    (hs : s₀.FusesKept s) :
    s₀.FusesKept (s.putPage b n h data async).2 := by
  unfold State.putPage
  extract_lets
  split
  · exact hs
  · extract_lets
    split
    split
    next t₁ e₃ =>
    have ht₁ : s₀.FusesKept t₁ := .of_snd e₃ hs.toBlade
    refine .ite_snd ht₁ ?_
    extract_lets s₁ _ s₂
    have hs₁ : s₀.FusesKept s₁ := ht₁.setBand
    have hs₂ : s₀.FusesKept s₂ := hs₁.setCblade
    exact .ite hs₂.putParity hs₂

theorem State.FusesKept.putSummary {b n : Nat} {bytes : List Byte} {queue : Option Nat} {n₁ : Nat}
    (hs : s₀.FusesKept s) :
    s₀.FusesKept (s.putSummary b n bytes queue n₁) := by
  induction n₁ generalizing s b n bytes queue with
  | zero =>
    unfold State.putSummary
    exact hs
  | succ n ih =>
    unfold State.putSummary
    exact ih hs.putPage

theorem State.FusesKept.closeBand {b n : Nat} {failed : Bool} {queue : Option Nat} (hs : s₀.FusesKept s) :
    s₀.FusesKept (s.closeBand b n failed queue) := by
  unfold State.closeBand
  split
  · exact hs
  · refine .ite hs ?_
    extract_lets s₁ _ s₂ s₃
    have hs₁ : s₀.FusesKept s₁ := .ite hs hs.putParity
    have hs₂ : s₀.FusesKept s₂ := by
      unfold s₂
      split
      · exact hs₁.setBand
      · exact hs₁
    have hs₃ : s₀.FusesKept s₃ := hs₂.putSummary
    split
    · exact hs₃.setBand
    · exact hs₃

theorem State.FusesKept.emptyBand {b n : Nat} (hs : s₀.FusesKept s) : s₀.FusesKept (s.emptyBand b n) := by
  unfold State.emptyBand
  split
  · exact .ite hs.setBand hs
  · exact hs

theorem State.FusesKept.killUnit {l : PageLoc} (hs : s₀.FusesKept s) : s₀.FusesKept (s.killUnit l) := by
  unfold State.killUnit
  split
  · exact hs.setBand.emptyBand
  · exact hs

theorem State.FusesKept.bandFor {b shard : Nat} {y : Band} {queue : Option Nat} (hs : s₀.FusesKept s) :
    s₀.FusesKept (s.bandFor b shard y queue).2 := by
  unfold State.bandFor
  extract_lets
  split
  · exact .ite_snd hs.closeBand.emptyBand.claimBand hs
  · exact hs.claimBand

theorem State.FusesKept.writeUnit {b shard : Nat} {y : Band} {pages : List (PageHead × List Byte)} {n : Nat}
    (hs : s₀.FusesKept s) :
    s₀.FusesKept (s.writeUnit b shard y pages n).2 := by
  induction n generalizing s b shard y pages with
  | zero =>
    unfold State.writeUnit
    exact hs
  | succ n ih =>
    unfold State.writeUnit
    split
    · next e₁ => exact .of_snd e₁ hs.bandFor
    · next t₁ e₁ =>
        have ht₁ : s₀.FusesKept t₁ := .of_snd e₁ hs.bandFor
        extract_lets
        split
        next t₂ e₂ =>
        have ht₂ : s₀.FusesKept t₂ := by
          refine .of_snd e₂ ?_
          refine .foldl_snd ht₁ (fun _ _ ht => ?_)
          split
          · exact ht
          · split
            next e₄ => exact .of_snd e₄ ht.putPage
        extract_lets _ s₁ s₂
        have hs₁ : s₀.FusesKept s₁ := ht₂.setCblade
        have hs₂ : s₀.FusesKept s₂ := hs₁.closeBand
        split
        · exact .ite ht₂.closeBand ht₂
        · refine .ite_snd ?_ ht₂
          extract_lets
          split
          · exact ht₂
          · exact ih (.emptyBand (.ite hs₂.setBand.retireBlock hs₂.setBand.retireBlock.cellExhausted))

/-! ### Erases (R262, R267, R270) -/

theorem State.FusesKept.eraseBand {b n : Nat} (hs : s₀.FusesKept s) : s₀.FusesKept (s.eraseBand b n).2 := by
  unfold State.eraseBand
  split
  · exact hs
  · split
    next t₁ e₂ =>
    have ht₁ : s₀.FusesKept t₁ := by
      refine .of_snd e₂ ?_
      refine .foldl_snd hs (fun _ _ ht => ?_)
      refine .ite_snd ht ?_
      extract_lets
      split
      next t₂ e₃ =>
      have ht₂ : s₀.FusesKept t₂ := .of_snd e₃ ht.bladeSync
      extract_lets _ s₁ _ s₂
      have hs₁ : s₀.FusesKept s₁ := ht₂.setCblade
      have hs₂ : s₀.FusesKept s₂ := hs₁.setCblade
      refine .ite_snd hs₁ ?_
      refine .ite_snd ?_ hs₁
      extract_lets
      split
      next t₃ e₄ =>
      have ht₃ : s₀.FusesKept t₃ := .of_snd e₄ hs₂.retireBlock
      refine .ite_snd ?_ ht₃.cellExhausted
      extract_lets
      exact ht₃.bladeSync
    refine .ite_snd ?_ ?_
    · extract_lets s₁ _ s₂ s₃
      have hs₁ : s₀.FusesKept s₁ := ht₁.dropBand
      have hs₂ : s₀.FusesKept s₂ := hs₁.setCblade
      have hs₃ : s₀.FusesKept s₃ := hs₂.journal
      exact hs₃.countBands
    · refine .ite_snd ?_ ht₁
      extract_lets _ s₁ _ s₂
      have hs₁ : s₀.FusesKept s₁ := ht₁.setBand
      have hs₂ : s₀.FusesKept s₂ := hs₁.setCblade
      exact hs₂.journal.countBands

/-! ### Reads with level-0 repair (R204) -/

theorem State.FusesKept.readRaw {b die block page off len : Nat} {raw : Bool} (hs : s₀.FusesKept s) :
    s₀.FusesKept (s.readRaw b die block page off len raw).2 := by
  unfold State.readRaw
  extract_lets
  split
  next t₁ e₁ =>
  have ht₁ : s₀.FusesKept t₁ := .of_snd e₁ hs.bladeSync
  extract_lets
  exact ht₁.setCblade

theorem State.FusesKept.readPage {b n : Nat} {y : Band} {dpage off len : Nat} (hs : s₀.FusesKept s) :
    s₀.FusesKept (s.readPage b n y dpage off len).2 := by
  unfold State.readPage
  split
  extract_lets
  split
  · next e₂ => exact .of_snd e₂ hs.readRaw
  · next t₁ e₂ =>
      have ht₁ : s₀.FusesKept t₁ := .of_snd e₂ hs.readRaw
      refine .ite_snd ht₁ ?_
      extract_lets
      split
      next t₂ e₃ =>
      have ht₂ : s₀.FusesKept t₂ := by
        refine .of_snd e₃ ?_
        refine .foldl_snd ht₁ (fun _ _ ht => ?_)
        split
        · exact ht
        · split
          · next e₅ => exact .of_snd e₅ ht.readRaw
          · next e₅ => exact .of_snd e₅ ht.readRaw
      extract_lets
      split
      · exact ht₂.setCblade
      · exact ht₂.raise

theorem State.FusesKept.readAt {l : PageLoc} {off len : Nat} (hs : s₀.FusesKept s) :
    s₀.FusesKept (s.readAt l off len).2 :=
  hs.readPage

/-! ### Seals (R256) -/

theorem State.FusesKept.forward {sh old new : Nat} (hs : s₀.FusesKept s) : s₀.FusesKept (s.forward sh old new) := by
  unfold State.forward
  extract_lets s₁
  have hs₁ : s₀.FusesKept s₁ := .ite hs hs.placeGarbage
  split
  · exact hs₁.setCshard
  · extract_lets _ s₂ _ s₃
    have hs₂ : s₀.FusesKept s₂ := hs₁.setCshard
    have hs₃ : s₀.FusesKept s₃ := hs₂.setSep
    exact hs₃.settleLoc

theorem State.FusesKept.sealWheel {sh wheel jsn : Nat} (hs : s₀.FusesKept s) :
    s₀.FusesKept (s.sealWheel sh wheel jsn) := by
  unfold State.sealWheel
  split
  · exact hs
  · refine .ite hs ?_
    extract_lets s₁
    have hs₁ : s₀.FusesKept s₁ := hs.setWheel
    exact .countUnfolded (.foldl hs₁ (fun _ _ ht => ht.forward))

theorem State.FusesKept.freeWheel {sh old : Nat} (hs : s₀.FusesKept s) : s₀.FusesKept (s.freeWheel sh old) := by
  unfold State.freeWheel
  split
  · exact hs
  · extract_lets s₁ s₂
    have hs₁ : s₀.FusesKept s₁ := hs.journal
    have hs₂ : s₀.FusesKept s₂ := hs₁.setWheel
    exact .foldl hs₂ (fun _ _ ht => ht.killUnit)

theorem State.FusesKept.foldDone {sh : Nat} {r : JRec} (hs : s₀.FusesKept s) : s₀.FusesKept (s.foldDone sh r) := by
  unfold State.foldDone
  split
  · refine .ite hs ?_
    extract_lets s₁
    have hs₁ : s₀.FusesKept s₁ := by
      unfold s₁
      split
      · exact hs.freeWheel
      · exact hs
    split
    · exact hs₁.finish
    · exact hs₁
  · exact hs

/-! ### Secure Deallocate: steps 3 and 4 (R124, R151) -/

theorem State.FusesKept.sdBlock {vol block : Nat} (hs : s₀.FusesKept s) : s₀.FusesKept (s.sdBlock vol block).2 := by
  unfold State.sdBlock
  extract_lets s₁
  have hs₁ : s₀.FusesKept s₁ := hs.widxMap.widxReap
  split
  · exact hs₁
  · exact hs₁.setCat

theorem State.FusesKept.sdBlocks {vol n n₁ : Nat} (hs : s₀.FusesKept s) : s₀.FusesKept (s.sdBlocks vol n n₁).2 := by
  induction n₁ generalizing s vol n with
  | zero =>
    unfold State.sdBlocks
    exact hs
  | succ n ih =>
    unfold State.sdBlocks
    exact ih hs.sdBlock

theorem State.FusesKept.decrement {by_ : Nat} {c : Nat × Nat} {n : Nat} (hs : s₀.FusesKept s) :
    s₀.FusesKept (s.decrement by_ c n) := by
  unfold State.decrement
  extract_lets
  split
  · exact hs
  · refine .ite hs ?_
    extract_lets s₁
    have hs₁ : s₀.FusesKept s₁ := hs.putEntry.sepWithdraw
    exact .ite hs₁.journal hs₁

theorem State.FusesKept.sdRange {by_ vol b n : Nat} (hs : s₀.FusesKept s) :
    s₀.FusesKept (s.sdRange by_ vol b n).2.2 := by
  unfold State.sdRange
  split
  next t₁ e₁ =>
  have ht₁ : s₀.FusesKept t₁ := .of_snd e₁ hs.sdBlocks
  extract_lets
  exact .foldl ht₁ (fun _ _ ht => ht.decrement)

/-! ### Confirmation (R145, R253) -/

theorem State.FusesKept.mapBlock {c : NvmeCmd} {b : Blk} {loc copySh : Nat} (hs : s₀.FusesKept s) :
    s₀.FusesKept (s.mapBlock c b loc copySh).2 :=
  .ite_snd hs hs.setCat

theorem State.FusesKept.widxConfirmed {vol block dseq : Nat} (hs : s₀.FusesKept s) :
    s₀.FusesKept (s.widxConfirmed vol block dseq) :=
  hs.widxMap.widxSupersede.widxReap

theorem State.FusesKept.dataConfirmed {sh jsn k i : Nat} {r : JRec} (hs : s₀.FusesKept s) :
    s₀.FusesKept (s.dataConfirmed sh jsn k i r) := by
  unfold State.dataConfirmed
  extract_lets
  split
  · exact hs
  · extract_lets
    split
    next t₁ e₃ =>
    have ht₁ : s₀.FusesKept t₁ := .of_snd e₃ hs.mapBlock
    split
    next t₂ e₄ =>
    have ht₂ : s₀.FusesKept t₂ := .of_snd e₄ (.ite_snd ht₁.confirmPending ht₁)
    extract_lets s₁ s₂ s₃ s₄
    have hs₁ : s₀.FusesKept s₁ := .ite (.newLog (.ite ht₂ ht₂.wr)) ht₂
    have hs₂ : s₀.FusesKept s₂ := .ite hs₁ hs₁.copyGarbage
    have hs₃ : s₀.FusesKept s₃ := hs₂.meterEvent.meterEvent
    have hs₄ : s₀.FusesKept s₄ := hs₃.widxConfirmed
    exact hs₄.setBlk.blkDone

theorem State.FusesKept.refConfirmed {k i : Nat} {r : JRec} (hs : s₀.FusesKept s) :
    s₀.FusesKept (s.refConfirmed k i r) := by
  unfold State.refConfirmed
  split
  · exact hs
  · extract_lets s₁ s₂ s₃ s₄
    have hs₁ : s₀.FusesKept s₁ := hs.mapBlock
    have hs₂ : s₀.FusesKept s₂ := by
      unfold s₂
      split
      · exact hs₁.confirmHold
      · exact hs₁
    have hs₃ : s₀.FusesKept s₃ := hs₂.meterEvent
    have hs₄ : s₀.FusesKept s₄ := hs₃.widxConfirmed
    exact hs₄.setBlk.blkDone

theorem State.FusesKept.dropRange {vol n n₁ : Nat} (hs : s₀.FusesKept s) : s₀.FusesKept (s.dropRange vol n n₁) := by
  induction n₁ generalizing s vol n with
  | zero =>
    unfold State.dropRange
    exact hs
  | succ n ih =>
    unfold State.dropRange
    exact ih hs.setCat

theorem State.FusesKept.recDone {r : JRec} (hs : s₀.FusesKept s) : s₀.FusesKept (s.recDone r) := by
  unfold State.recDone
  split
  · exact hs
  · exact hs.finish
  · exact hs.tenSend
  · exact hs

theorem State.FusesKept.dropChunk {sh pool f st c : Nat} (hs : s₀.FusesKept s) :
    s₀.FusesKept (s.dropChunk sh pool f st c) := by
  unfold State.dropChunk
  split
  · exact hs
  · split
    · exact hs
    · exact hs.setWheel.killUnit

theorem State.FusesKept.patchSettled {sh jsn : Nat} (hs : s₀.FusesKept s) : s₀.FusesKept (s.patchSettled sh jsn) := by
  unfold State.patchSettled
  extract_lets _ s1
  have hs1 : s₀.FusesKept s1 := hs.setCshard
  split
  · exact hs
  · refine .ite hs ?_
    split
    · exact hs1.giveBack
    · exact hs1

theorem State.FusesKept.recEffect {sh jsn : Nat} {r : JRec} (hs : s₀.FusesKept s) :
    s₀.FusesKept (s.recEffect sh jsn r) := by
  unfold State.recEffect
  generalize s.recDone r = u, hs.recDone (r := r) = hu
  have hwrite := @State.FusesKept.remapWrite s₀
  have hrange := @State.FusesKept.sdRange s₀
  generalize State.remapWrite = write at hwrite ⊢
  generalize State.sdRange = range at hrange ⊢
  refine .ite ?data (.ite ?ref (.ite ?incr (.ite ?dealloc (.ite ?sdIntent (.ite ?sdDone (.ite ?defer (.ite ?sealed
    (.ite ?remap (.ite hu.patchSettled (.ite hu.remapDrop.setCshard hu))))))))))
  case data =>
    split
    · exact hu.dataConfirmed.countUnfolded
    · exact hu
  case ref =>
    split
    · exact .ite hu.refConfirmed hu
    · exact hu
  case incr =>
    split
    · split
      · exact .ite hu.refConfirmed hu
      · exact hu
    · exact hu
  case dealloc =>
    extract_lets v
    have hv : s₀.FusesKept v := hu.dropRange
    clear_value v
    split
    · exact hv.widxSupersede.widxReap.blkDone
    · exact hv
  case sdIntent =>
    split
    next e =>
    extract_lets x v
    have hv : s₀.FusesKept v := .setCshard (.of_third e (hrange hu))
    clear_value v
    split
    · split
      · exact hv.setCmd
      · exact hv
    · exact hv
  case sdDone =>
    split
    · exact hu.setCshard.blkDone
    · exact hu.setCshard
  case defer =>
    split
    · exact hu.blkDone
    · exact hu
  case sealed => exact .ite hu hu.sealWheel.foldDone
  case remap =>
    extract_lets e f st c
    split
    next h => exact .ite (.of_snd h (hwrite hu)) (.dropChunk (.of_snd h (hwrite hu)))

theorem State.FusesKept.confirmRec {sh jsn : Nat} (hs : s₀.FusesKept s) : s₀.FusesKept (s.confirmRec sh jsn) := by
  unfold State.confirmRec
  split
  · exact hs
  · exact .ite hs hs.setJrec.recEffect

/-! ### Pages (R249, R253) -/

theorem State.FusesKept.setJpage {sh p : Nat} {x : JPage} (hs : s₀.FusesKept s) :
    s₀.FusesKept (s.setJpage sh p x) :=
  hs.setCshard

theorem State.FusesKept.putReplica {sh lane p b wseq obj : Nat} {image : List Byte} (hs : s₀.FusesKept s) :
    s₀.FusesKept (s.putReplica sh lane p b wseq obj image).2 := by
  unfold State.putReplica
  refine .ite_snd hs ?_
  extract_lets
  split
  · next e₁ => exact .of_snd e₁ hs.bandFor
  · next t₁ e₁ =>
      have ht₁ : s₀.FusesKept t₁ := .of_snd e₁ hs.bandFor
      extract_lets
      split
      next t₂ e₂ =>
      have ht₂ : s₀.FusesKept t₂ := .of_snd e₂ ht₁.putPage
      exact .ite_snd ht₂ ht₂

theorem State.FusesKept.rebind {sh lane old new : Nat} (hs : s₀.FusesKept s) :
    s₀.FusesKept (s.rebind sh lane old new) := by
  unfold State.rebind
  extract_lets
  split
  · exact hs
  · exact hs.setCshard

theorem State.FusesKept.mendLane {sh lane : Nat} (hs : s₀.FusesKept s) : s₀.FusesKept (s.mendLane sh lane) := by
  unfold State.mendLane
  split
  · exact hs
  · refine .foldl hs (fun _ _ ht => ?_)
    split
    · exact ht
    · split
      · exact ht.rebind
      · exact ht

theorem State.FusesKept.settlePage {sh p : Nat} (hs : s₀.FusesKept s) : s₀.FusesKept (s.settlePage sh p) := by
  unfold State.settlePage
  split
  · exact hs
  · extract_lets
    exact .ite hs (.foldl hs (fun _ _ ht => ht.confirmRec))

theorem State.FusesKept.journalFull {sh : Nat} (hs : s₀.FusesKept s) : s₀.FusesKept (s.journalFull sh) :=
  .ite hs hs.setCell.raise

theorem State.FusesKept.committed {rs : List (Nat × JRec)} (hs : s₀.FusesKept s) : s₀.FusesKept (s.committed rs) := by
  unfold State.committed
  refine .foldl hs (fun _ _ ht => ?_)
  split
  · split
    · extract_lets s₁
      have hs₁ : s₀.FusesKept s₁ := ht.setCmd
      exact hs₁.setHolds
    · exact ht
  · exact ht

theorem State.FusesKept.retryPages {sh lane : Nat} (hs : s₀.FusesKept s) : s₀.FusesKept (s.retryPages sh lane) := by
  unfold State.retryPages
  refine .foldl hs (fun _ _ ht => ?_)
  extract_lets
  refine .foldl ht (fun _ _ ht₁ => ?_)
  split
  · next e₁ => exact .of_snd e₁ ht₁.putReplica
  · next t₃ e₁ =>
      have ht₃ : s₀.FusesKept t₃ := .of_snd e₁ ht₁.putReplica
      split
      · exact ht₃.setJpage
      · exact ht₃

theorem State.FusesKept.laneRoom {sh lane : Nat} (hs : s₀.FusesKept s) : s₀.FusesKept (s.laneRoom sh lane).2 := by
  unfold State.laneRoom
  split
  · exact hs
  · refine .foldl_snd hs (fun _ _ ht => ?_)
    split
    next e₂ => exact .of_snd e₂ ht.bandFor

theorem State.FusesKept.laneElsewhere {sh lane : Nat} (hs : s₀.FusesKept s) :
    s₀.FusesKept (s.laneElsewhere sh lane) := by
  unfold State.laneElsewhere
  split
  next t₁ e₁ =>
  have ht₁ : s₀.FusesKept t₁ := by
    refine .of_snd e₁ ?_
    refine .foldl_snd hs (fun _ _ ht => ?_)
    split
    · exact ht
    · refine .ite_snd ht ?_
      split
      next e₃ => exact .of_snd e₃ ht.laneRoom
  extract_lets
  split
  · extract_lets
    exact ht₁.setCshard
  · exact ht₁.journalFull

theorem State.FusesKept.programLane {sh lane : Nat} (hs : s₀.FusesKept s) : s₀.FusesKept (s.programLane sh lane) := by
  unfold State.programLane
  extract_lets s₁
  have hs₁ : s₀.FusesKept s₁ := hs.mendLane.retryPages
  split
  · exact hs₁
  · extract_lets
    refine .ite hs₁ ?_
    extract_lets
    split
    · next t₁ e₂ =>
        have ht₁ : s₀.FusesKept t₁ := .of_snd e₂ hs₁.laneRoom
        exact ht₁.laneElsewhere
    · next t₁ e₂ =>
        have ht₁ : s₀.FusesKept t₁ := .of_snd e₂ hs₁.laneRoom
        extract_lets _ _ _ s₂
        have hs₂ : s₀.FusesKept s₂ := ht₁.setCshard
        split
        next t₂ e₃ =>
        have ht₂ : s₀.FusesKept t₂ := by
          refine .of_snd e₃ ?_
          refine .foldl_snd hs₂ (fun _ _ ht => ?_)
          split
          · next e₄ => exact .of_snd e₄ ht.putReplica
          · next e₄ => exact .of_snd e₄ ht.putReplica
        refine .ite ht₂.journalFull ?_
        extract_lets _ _ _ s₃ _ s₄
        have hs₃ : s₀.FusesKept s₃ := ht₂.setCshard
        have hs₄ : s₀.FusesKept s₄ := hs₃.setCell
        exact hs₄.committed

theorem State.FusesKept.failReplica {sh p : Nat} {at_ : PageLoc} {cause : Nat} (hs : s₀.FusesKept s) :
    s₀.FusesKept (s.failReplica sh p at_ cause) := by
  simp only [State.failReplica]
  split
  · exact hs
  · split
    · exact hs.setJpage.raise.settlePage
    · split
      · next t₁ e₃ =>
          have ht₁ : s₀.FusesKept t₁ := .of_snd e₃ (.putReplica (.ite hs.setJpage.raise hs.setJpage.raise.rebind))
          exact ht₁.settlePage
      · next t₁ e₃ =>
          have ht₁ : s₀.FusesKept t₁ := .of_snd e₃ (.putReplica (.ite hs.setJpage.raise hs.setJpage.raise.rebind))
          split
          · exact ht₁.setJpage
          · exact ht₁

theorem State.FusesKept.endBand {b n dpage : Nat} {queue : Option Nat} (hs : s₀.FusesKept s) :
    s₀.FusesKept (s.endBand b n dpage queue) := by
  unfold State.endBand
  extract_lets _ s₁ s₂
  have hs₁ : s₀.FusesKept s₁ := hs.setCblade
  have hs₂ : s₀.FusesKept s₂ := hs₁.closeBand
  split
  · exact hs
  · split
    split
    next t₁ e₃ =>
    have ht₁ : s₀.FusesKept t₁ := .of_snd e₃ hs₂.retireBlock
    exact .ite ht₁ ht₁.cellExhausted

theorem State.FusesKept.replicaReport {sh p b status : Nat} (hs : s₀.FusesKept s) :
    s₀.FusesKept (s.replicaReport sh p b status) := by
  unfold State.replicaReport
  split
  · exact hs
  · split
    · exact hs
    · exact .ite hs.setJpage.settlePage (.ite hs.endBand.failReplica hs.failReplica)

theorem State.FusesKept.replicasLost {b : Nat} (hs : s₀.FusesKept s) : s₀.FusesKept (s.replicasLost b) :=
  .foldl hs (fun _ _ ht => .foldl ht (fun _ _ ht₁ => .foldl ht₁ (fun _ _ ht₂ => ht₂.failReplica)))

theorem State.FusesKept.readRecord {sh jsn : Nat} (hs : s₀.FusesKept s) : s₀.FusesKept (s.readRecord sh jsn).2 := by
  unfold State.readRecord
  extract_lets
  split
  · exact hs
  · extract_lets
    refine .foldl_snd hs (fun _ _ ht => ?_)
    split
    · exact ht
    · split
      · next t₁ e₃ =>
          have ht₁ : s₀.FusesKept t₁ := .of_snd e₃ ht.readAt
          split
          · exact ht₁
          · exact ht₁
      · next e₃ => exact .of_snd e₃ ht.readAt

/-! ### Reads (R208, R215, R230) -/

theorem State.FusesKept.chunkPart {l : PageLoc} {off n : Nat} (hs : s₀.FusesKept s) :
    s₀.FusesKept (s.chunkPart l off n).2 := by
  unfold State.chunkPart
  extract_lets
  split
  next e₁ =>
  refine .of_snd e₁ ?_
  refine .foldl_snd hs (fun _ _ ht => ?_)
  split
  · exact ht
  · split
    · next e₃ => exact .of_snd e₃ ht.readAt
    · next e₃ => exact .of_snd e₃ ht.readAt

theorem State.FusesKept.colRead {w : Wheel} {st c off n : Nat} (hs : s₀.FusesKept s) :
    s₀.FusesKept (s.colRead w st c off n).2 := by
  unfold State.colRead
  refine .ite_snd hs ?_
  split
  · exact hs.chunkPart
  · exact hs

theorem State.FusesKept.availCols {w : Wheel} {st off n : Nat} {no : List Nat} (hs : s₀.FusesKept s) :
    s₀.FusesKept (s.availCols w st off n no).2 := by
  unfold State.availCols
  extract_lets
  refine .foldl_snd hs (fun _ _ ht => ?_)
  refine .ite_snd ht ?_
  split
  · next e₂ => exact .of_snd e₂ ht.colRead
  · next e₂ => exact .of_snd e₂ ht.colRead

theorem State.FusesKept.decodeCols {w : Wheel} {st off n : Nat} {cols : List Nat} (hs : s₀.FusesKept s) :
    s₀.FusesKept (s.decodeCols w st off n cols).2 := by
  unfold State.decodeCols
  extract_lets
  split
  next t₁ e₁ =>
  have ht₁ : s₀.FusesKept t₁ := .of_snd e₁ hs.availCols
  exact .ite_snd ht₁ ht₁

theorem State.FusesKept.colBytes {w : Wheel} {st c off n : Nat} (hs : s₀.FusesKept s) :
    s₀.FusesKept (s.colBytes w st c off n).2 := by
  unfold State.colBytes
  split
  · next e₁ => exact .of_snd e₁ hs.colRead
  · next t₁ e₁ =>
      have ht₁ : s₀.FusesKept t₁ := .of_snd e₁ hs.colRead
      split
      · next e₂ => exact .of_snd e₂ ht₁.decodeCols
      · next e₂ => exact .of_snd e₂ ht₁.decodeCols

theorem State.FusesKept.wheelRead {w : Wheel} {n n₁ n₂ : Nat} (hs : s₀.FusesKept s) :
    s₀.FusesKept (s.wheelRead w n n₁ n₂).2 := by
  induction n generalizing s w n₁ n₂ with
  | zero =>
    unfold State.wheelRead
    exact hs
  | succ n ih =>
    unfold State.wheelRead
    refine .ite_snd hs ?_
    extract_lets
    split
    · next e₁ => exact .of_snd e₁ hs.colBytes
    · next t₁ e₁ =>
        have ht₁ : s₀.FusesKept t₁ := .of_snd e₁ hs.colBytes
        split
        · next e₂ => exact .of_snd e₂ (ih ht₁)
        · next e₂ => exact .of_snd e₂ (ih ht₁)

/-! ### Stored copies (R138, R164, R401) -/

theorem State.FusesKept.copyBytes {sh l : Nat} (hs : s₀.FusesKept s) : s₀.FusesKept (s.copyBytes sh l).2 := by
  unfold State.copyBytes
  extract_lets
  refine .ite_snd ?_ ?_
  · split
    · exact hs
    · split
      next e₂ => exact .of_snd e₂ hs.readRecord
  · split
    · exact hs
    · split
      · exact hs
      · split
        next e₃ => exact .of_snd e₃ hs.wheelRead

theorem State.FusesKept.copyCurd {sh l : Nat} (hs : s₀.FusesKept s) : s₀.FusesKept (s.copyCurd sh l).2 := by
  unfold State.copyCurd
  extract_lets
  split
  · next e₁ => exact .of_snd e₁ hs.copyBytes
  · next e₁ => exact .of_snd e₁ hs.copyBytes

theorem State.FusesKept.copyBlock {sh l : Nat} (hs : s₀.FusesKept s) : s₀.FusesKept (s.copyBlock sh l).2 := by
  unfold State.copyBlock
  extract_lets
  split
  · next t₁ e₁ =>
      have ht₁ : s₀.FusesKept t₁ := .of_snd e₁ hs.copyCurd
      split
      · exact ht₁.headLost
      · next e₂ => exact OptKept.state e₂ ht₁.useDicts
  · next e₁ => exact .of_snd e₁ hs.copyCurd

/-! ### Chunk writes (R243, R245, R264) -/

theorem State.FusesKept.takeWseq {sh : Nat} (hs : s₀.FusesKept s) : s₀.FusesKept (s.takeWseq sh).2 := by
  unfold State.takeWseq
  extract_lets
  exact hs.setCshard

theorem State.FusesKept.writeChunk {b sh : Nat} {y : Band} {obj : Nat} {jour : Bool} {data : List Byte}
    (hs : s₀.FusesKept s) :
    s₀.FusesKept (s.writeChunk b sh y obj jour data).2 := by
  unfold State.writeChunk
  split
  next t₁ e₁ =>
  have ht₁ : s₀.FusesKept t₁ := .of_snd e₁ hs.takeWseq
  extract_lets
  split
  · next e₂ => exact .of_snd e₂ ht₁.writeUnit
  · next e₂ => exact .of_snd e₂ ht₁.writeUnit

theorem State.FusesKept.setLoc {sh wheel st c : Nat} {l : PageLoc} (hs : s₀.FusesKept s) :
    s₀.FusesKept (s.setLoc sh wheel st c l) := by
  unfold State.setLoc
  split
  · exact hs
  · extract_lets s₁
    have hs₁ : s₀.FusesKept s₁ := hs.setWheel
    split
    · exact hs₁.killUnit
    · exact hs₁

/-! ### Records of map switches (R220, R251) -/

theorem State.FusesKept.journalMove {sh key : Nat} {old : Option PageLoc} {new : PageLoc} (hs : s₀.FusesKept s) :
    s₀.FusesKept (s.journalMove sh key old new) :=
  hs.journal

/-! ### The intent bitmap (R218, R219) -/

theorem State.FusesKept.putIntents {sh pool page : Nat} (hs : s₀.FusesKept s) :
    s₀.FusesKept (s.putIntents sh pool page).2 := by
  unfold State.putIntents
  extract_lets
  split
  · exact hs
  · extract_lets s₁
    have hs₁ : s₀.FusesKept s₁ := hs.mendLane
    refine .ite_snd (.foldl hs₁ (fun _ _ ht => ht.killUnit)) ?_
    split
    next t₁ e₂ =>
    have ht₁ : s₀.FusesKept t₁ := .of_snd e₂ hs₁.takeWseq
    split
    next t₂ e₃ =>
    have ht₂ : s₀.FusesKept t₂ := by
      refine .of_snd e₃ ?_
      refine .foldl_snd ht₁ (fun _ _ ht => ?_)
      split
      · next e₄ => exact .of_snd e₄ ht.writeUnit
      · next e₄ => exact .of_snd e₄ ht.writeUnit
    exact .ite_snd ht₂ (.foldl ht₂ (fun _ _ ht => ht.killUnit))

theorem State.FusesKept.clearBits {sh pool page : Nat} (hs : s₀.FusesKept s) :
    s₀.FusesKept (s.clearBits sh pool page) :=
  hs.setCarc

theorem State.FusesKept.acquire {sh pool frame : Nat} (hs : s₀.FusesKept s) :
    s₀.FusesKept (s.acquire sh pool frame).2 := by
  simp only [State.acquire]
  refine .ite_snd hs.setCarc.countIntents ?_
  split
  · next e₁ => exact .of_snd e₁ hs.setCarc.countIntents.clearBits.setCarc.putIntents
  · next t₁ e₁ =>
      have ht₁ : s₀.FusesKept t₁ := .of_snd e₁ hs.setCarc.countIntents.clearBits.setCarc.putIntents
      exact ht₁.setCarc.countIntents

/-! ### Patches (R220) -/

theorem State.FusesKept.rewriteCols {sh wheel st : Nat} {cols : List (Nat × List Byte)} (hs : s₀.FusesKept s) :
    s₀.FusesKept (s.rewriteCols sh wheel st cols).2 := by
  unfold State.rewriteCols
  split
  · exact hs
  · extract_lets
    split
    next t₁ e₂ =>
    have ht₁ : s₀.FusesKept t₁ := by
      refine .of_snd e₂ ?_
      refine .foldl_snd hs (fun _ _ ht => ?_)
      extract_lets
      split
      · next e₃ => exact .of_snd e₃ ht.writeChunk
      · next e₃ => exact .of_snd e₃ ht.writeChunk
    refine .ite_snd (.foldl ht₁ (fun _ _ ht => ht.killUnit)) ?_
    refine .foldl ht₁ (fun _ _ ht => ?_)
    extract_lets s₁
    have hs₁ : s₀.FusesKept s₁ := ht.journalMove
    exact hs₁.setLoc

theorem State.FusesKept.repairCopy {sh l : Nat} (hs : s₀.FusesKept s) : s₀.FusesKept (s.repairCopy sh l) := by
  unfold State.repairCopy
  extract_lets
  refine .ite hs ?_
  extract_lets
  split
  · exact hs
  · extract_lets
    split
    · exact hs
    · refine .foldl hs (fun _ _ ht => ?_)
      split
      · next t₂ e₃ =>
          have ht₂ : s₀.FusesKept t₂ := .of_snd e₃ ht.decodeCols
          exact ht₂.rewriteCols
      · next e₃ => exact .of_snd e₃ ht.decodeCols

theorem State.FusesKept.storedBlock {sh l : Nat} (hs : s₀.FusesKept s) : s₀.FusesKept (s.storedBlock sh l).2 := by
  unfold State.storedBlock
  split
  · next e₁ => exact .of_snd e₁ hs.copyBlock
  · next t₁ e₁ =>
      have ht₁ : s₀.FusesKept t₁ := .of_snd e₁ hs.copyBlock
      refine .ite_snd ?_ ht₁
      split
      · next e₂ => exact .of_snd e₂ ht₁.curdEvent.repairCopy.copyBlock
      · next t₂ e₂ =>
          have ht₂ : s₀.FusesKept t₂ := .of_snd e₂ ht₁.curdEvent.repairCopy.copyBlock
          exact ht₂.curdEvent

theorem State.FusesKept.patchOpen {sh wheel st j : Nat} {w : Wheel} (hs : s₀.FusesKept s) :
    s₀.FusesKept (s.patchOpen sh wheel st j w) := by
  unfold State.patchOpen
  extract_lets
  split
  · next e₁ => exact .of_snd e₁ hs.acquire
  · next t₁ e₁ =>
      have ht₁ : s₀.FusesKept t₁ := .of_snd e₁ hs.acquire
      split
      next t₂ e₂ =>
      have ht₂ : s₀.FusesKept t₂ := by
        refine .of_snd e₂ ?_
        refine .foldl_snd ht₁ (fun _ _ ht => ?_)
        split
        · next e₃ => exact .of_snd e₃ ht.bandFor
        · next e₃ => exact .of_snd e₃ ht.bandFor
      refine .ite ht₂.giveBack ?_
      extract_lets
      split
      next t₃ e₃ =>
      have ht₃ : s₀.FusesKept t₃ := .of_snd e₃ ht₂.journal
      exact ht₃.setCshard

theorem State.FusesKept.patchDrop {sh : Nat} {w : Wheel} {wrote : List PageLoc} (hs : s₀.FusesKept s) :
    s₀.FusesKept (s.patchDrop sh w wrote) := by
  unfold State.patchDrop
  extract_lets s₁
  have hs₁ : s₀.FusesKept s₁ := .foldl hs (fun _ _ ht => ht.killUnit)
  exact hs₁.setCshard.giveBack

theorem State.FusesKept.patchRun {sh : Nat} {p : Patch} {w : Wheel} {new : List Byte} (hs : s₀.FusesKept s) :
    s₀.FusesKept (s.patchRun sh p w new) := by
  unfold State.patchRun
  extract_lets
  split
  next t₁ e₁ =>
  have ht₁ : s₀.FusesKept t₁ := by
    refine .of_snd e₁ ?_
    refine .foldl_snd hs (fun _ _ ht => ?_)
    split
    · next e₂ => exact .of_snd e₂ ht.colBytes
    · next e₂ => exact .of_snd e₂ ht.colBytes
  refine .ite ht₁ ?_
  extract_lets
  split
  next t₂ e₂ =>
  have ht₂ : s₀.FusesKept t₂ := by
    refine .of_snd e₂ ?_
    refine .foldl_snd ht₁ (fun _ _ ht => ?_)
    split
    · next e₃ => exact .of_snd e₃ ht.writeChunk
    · next e₃ => exact .of_snd e₃ ht.writeChunk
  refine .ite ht₂.patchDrop ?_
  extract_lets s₁ s₂
  have hs₁ : s₀.FusesKept s₁ := .foldl ht₂ (fun _ _ ht => ht.journalMove.setLoc)
  have hs₂ : s₀.FusesKept s₂ := hs₁.journal
  exact hs₂.setCshard

theorem State.FusesKept.patch {sh wheel st j : Nat} {new : List Byte} (hs : s₀.FusesKept s) :
    s₀.FusesKept (s.patch sh wheel st j new).2 := by
  unfold State.patch
  split
  · exact hs
  · refine .ite_snd hs ?_
    split
    · exact .ite_snd hs.patchRun hs
    · split
      · next e₃ => exact .of_snd e₃ hs.colBytes
      · next t₁ e₃ =>
          have ht₁ : s₀.FusesKept t₁ := .of_snd e₃ hs.colBytes
          exact .ite_snd ht₁ ht₁.patchOpen

/-! ### New wheels (R206, R208, R256) -/

theorem State.FusesKept.writeStripe {sh pool gen frame st : Nat} {data : List (List Byte)} (hs : s₀.FusesKept s) :
    s₀.FusesKept (s.writeStripe sh pool gen frame st data).2 := by
  unfold State.writeStripe
  extract_lets
  refine .foldl_snd hs (fun _ _ ht => ?_)
  split
  · exact ht
  · refine .ite_snd (.foldl ht (fun _ _ ht₁ => ht₁.killUnit)) ?_
    refine .ite_snd ht ?_
    split
    · next e₂ => exact .of_snd e₂ ht.writeChunk
    · next t₁ e₂ =>
        have ht₁ : s₀.FusesKept t₁ := .of_snd e₂ ht.writeChunk
        exact .foldl ht₁ (fun _ _ ht₂ => ht₂.killUnit)

theorem State.FusesKept.writeStripes {sh pool gen frame n n₁ : Nat} {l : List Byte} {l₁ : List (Nat × PageLoc)}
    (hs : s₀.FusesKept s) :
    s₀.FusesKept (s.writeStripes sh pool gen frame n n₁ l l₁).2 := by
  induction n generalizing s sh pool gen frame n₁ l l₁ with
  | zero =>
    unfold State.writeStripes
    exact hs
  | succ n ih =>
    unfold State.writeStripes
    extract_lets
    split
    · next t₁ e₁ =>
        have ht₁ : s₀.FusesKept t₁ := .of_snd e₁ hs.writeStripe
        exact ih ht₁
    · next t₁ e₁ =>
        have ht₁ : s₀.FusesKept t₁ := .of_snd e₁ hs.writeStripe
        exact .foldl ht₁ (fun _ _ ht => ht.killUnit)

theorem State.FusesKept.newWheel {sh pool : Nat} {cs : List NewCurd} (hs : s₀.FusesKept s) :
    s₀.FusesKept (s.newWheel sh pool cs).2 := by
  unfold State.newWheel
  extract_lets
  split
  · exact hs
  · refine .ite_snd hs ?_
    extract_lets s₁
    have hs₁ : s₀.FusesKept s₁ := hs.setCshard
    split
    next t₁ e₂ =>
    have ht₁ : s₀.FusesKept t₁ := .of_snd e₂ (.ite_snd hs₁.acquire hs₁)
    split
    next t₂ e₃ =>
    have ht₂ : s₀.FusesKept t₂ := .of_snd e₃ (.ite_snd ht₁ ht₁.writeStripes)
    extract_lets s₂
    have hs₂ : s₀.FusesKept s₂ := .ite ht₂.giveBack ht₂
    split
    · exact hs₂.setCshard
    · extract_lets
      exact hs₂.setWheel

theorem State.FusesKept.journalSeals {sh wheel : Nat} {done : JDone} {n : Nat} {l : List (Nat × Nat)}
    (hs : s₀.FusesKept s) :
    s₀.FusesKept (s.journalSeals sh wheel done n l) := by
  induction n generalizing s sh wheel done l with
  | zero =>
    unfold State.journalSeals
    exact hs
  | succ n ih =>
    unfold State.journalSeals
    extract_lets
    split
    · exact hs
    · extract_lets s₁
      have hs₁ : s₀.FusesKept s₁ := hs.journal
      exact .ite (ih hs₁) hs₁

/-! ### Folds (R255, R256) -/

theorem State.FusesKept.recItem {sh jsn : Nat} {r : JRec} (hs : s₀.FusesKept s) :
    s₀.FusesKept (s.recItem sh jsn r).2 := by
  unfold State.recItem
  extract_lets
  split
  next e₁ => exact .of_snd e₁ hs.copyCurd

theorem State.FusesKept.foldPool {sh pool : Nat} (hs : s₀.FusesKept s) : s₀.FusesKept (s.foldPool sh pool).2 := by
  unfold State.foldPool
  extract_lets
  refine .ite_snd hs ?_
  extract_lets
  split
  next t₁ e₁ =>
  have ht₁ : s₀.FusesKept t₁ := by
    refine .of_snd e₁ ?_
    refine .foldl_snd hs (fun _ _ ht => ?_)
    split
    · next e₂ => exact .of_snd e₂ ht.recItem
    · next e₂ => exact .of_snd e₂ ht.recItem
  refine .ite_snd ht₁ ?_
  extract_lets
  split
  · next e₂ => exact .of_snd e₂ ht₁.newWheel
  · next t₂ e₂ =>
      have ht₂ : s₀.FusesKept t₂ := .of_snd e₂ ht₁.newWheel
      extract_lets _ s₁
      have hs₁ : s₀.FusesKept s₁ := ht₂.setCshard
      exact hs₁.countUnfolded

theorem State.FusesKept.foldAll {sh n : Nat} {ps : List Nat} (hs : s₀.FusesKept s) :
    s₀.FusesKept (s.foldAll sh n ps).2 := by
  induction n generalizing s ps with
  | zero =>
    rw [State.foldAll]
    exact hs
  | succ n ih =>
    cases ps with
    | nil =>
      rw [State.foldAll]
      · exact hs
      · exact Nat.succ_ne_zero n
    | cons p ps =>
      rw [State.foldAll]
      split
      · next e => exact ih (.of_snd e hs.foldPool)
      · next e => exact ih (.of_snd e hs.foldPool)

theorem State.FusesKept.sealAll {sh : Nat} {d : Option DescRef} {old : Option Nat}
    {ws : List (Nat × List (Nat × Nat))} (hs : s₀.FusesKept s) :
    s₀.FusesKept (s.sealAll sh d old ws) := by
  unfold State.sealAll
  extract_lets
  exact .foldl hs (fun _ _ ht => ht.journalSeals)

/-! ### Reclaim (R265) -/

theorem State.FusesKept.refoldCurd {sh wheel off : Nat} {w : Wheel} {no : List Nat} (hs : s₀.FusesKept s) :
    s₀.FusesKept (s.refoldCurd sh wheel off w no).2 := by
  unfold State.refoldCurd
  extract_lets
  refine .ite_snd hs ?_
  split
  · next e₁ => exact .of_snd e₁ hs.copyCurd
  · next t₁ e₁ =>
      have ht₁ : s₀.FusesKept t₁ := .of_snd e₁ hs.copyCurd
      split
      · exact ht₁
      · refine .ite_snd ht₁ ?_
        refine .ite_snd ?_ ht₁
        split
        · exact ht₁.headLost
        · next t₂ e₃ =>
            have ht₂ : s₀.FusesKept t₂ := OptKept.state e₃ ht₁.useDicts
            split
            · exact ht₂
            · exact ht₂

theorem State.FusesKept.refold {sh wheel : Nat} (hs : s₀.FusesKept s) : s₀.FusesKept (s.refold sh wheel).2 := by
  unfold State.refold
  split
  · exact hs
  · split
    next t₁ e₂ =>
    have ht₁ : s₀.FusesKept t₁ := by
      refine .of_snd e₂ ?_
      refine .foldl_snd hs (fun _ _ ht => ?_)
      split
      · exact ht
      · split
        · next e₄ => exact .of_snd e₄ ht.refoldCurd
        · next e₄ => exact .of_snd e₄ ht.refoldCurd
    split
    · exact ht₁
    · extract_lets
      refine .ite_snd ht₁ ?_
      split
      · next e₃ => exact .of_snd e₃ ht₁.newWheel
      · next e₃ => exact .of_snd e₃ ht₁.newWheel

theorem State.FusesKept.reclaim {sh wheel : Nat} {d : Option DescRef} (hs : s₀.FusesKept s) :
    s₀.FusesKept (s.reclaim sh wheel d).2 := by
  unfold State.reclaim
  split
  · next e₁ => exact .of_snd e₁ hs.refold
  · next t₁ e₁ =>
      have ht₁ : s₀.FusesKept t₁ := .of_snd e₁ hs.refold
      extract_lets s₁
      have hs₁ : s₀.FusesKept s₁ := ht₁.freeWheel
      split
      · exact hs₁.finish
      · exact hs₁
  · next t₁ _ e₁ =>
      have ht₁ : s₀.FusesKept t₁ := .of_snd e₁ hs.refold
      exact ht₁.sealAll

/-! ### Band garbage collection (R264, R269) -/

theorem State.FusesKept.moveChunk {b n : Nat} {y : Band} {u : CUnit} (hs : s₀.FusesKept s) :
    s₀.FusesKept (s.moveChunk b n y u).2 := by
  unfold State.moveChunk
  extract_lets
  split
  · exact hs.killUnit
  · refine .ite_snd hs ?_
    refine .ite_snd (.ite_snd hs hs.killUnit) ?_
    split
    · next e₂ => exact .of_snd e₂ hs.chunkPart
    · next t₁ e₂ =>
        have ht₁ : s₀.FusesKept t₁ := .of_snd e₂ hs.chunkPart
        split
        · next e₃ => exact .of_snd e₃ ht₁.writeChunk
        · next t₂ e₃ =>
            have ht₂ : s₀.FusesKept t₂ := .of_snd e₃ ht₁.writeChunk
            exact ht₂.setLoc

theorem State.FusesKept.emptyMain {b n : Nat} (hs : s₀.FusesKept s) : s₀.FusesKept (s.emptyMain b n).2 := by
  unfold State.emptyMain
  split
  · exact hs
  · refine .foldl_snd hs (fun _ _ ht => ?_)
    split
    next e₂ => exact .of_snd e₂ ht.moveChunk

/-! ### Writing it (R259) -/

theorem State.FusesKept.putMeta {sh no gen : Nat} {blades : List Nat} {data : List Byte} (hs : s₀.FusesKept s) :
    s₀.FusesKept (s.putMeta sh no gen blades data).2 := by
  unfold State.putMeta
  split
  next t₁ e₁ =>
  have ht₁ : s₀.FusesKept t₁ := .of_snd e₁ hs.takeWseq
  extract_lets
  refine .foldl_snd ht₁ (fun _ _ ht => ?_)
  split
  · exact ht
  · split
    · next e₃ => exact .of_snd e₃ ht.writeUnit
    · next e₃ => exact .of_snd e₃ ht.writeUnit

theorem State.FusesKept.putMetas {sh gen : Nat} {blades : List Nat} {n n₁ : Nat} {l : List (Nat × List PageLoc)}
    (hs : s₀.FusesKept s) :
    s₀.FusesKept (s.putMetas sh gen blades n n₁ l).2 := by
  induction n generalizing s sh gen blades n₁ l with
  | zero =>
    unfold State.putMetas
    exact hs
  | succ n ih =>
    unfold State.putMetas
    split
    · next t₁ e₁ =>
        have ht₁ : s₀.FusesKept t₁ := .of_snd e₁ hs.draw.putMeta
        exact ih ht₁
    · next e₁ => exact .of_snd e₁ hs.draw.putMeta

theorem State.FusesKept.metaRoom {b sh n : Nat} (hs : s₀.FusesKept s) : s₀.FusesKept (s.metaRoom b sh n) := by
  unfold State.metaRoom
  split
  · exact hs
  · split
    · exact .ite hs hs.closeBand.emptyBand
    · exact hs

theorem State.FusesKept.putRoot {sh gen no : Nat} {blades : List Nat} {bytes : List Byte} (hs : s₀.FusesKept s) :
    s₀.FusesKept (s.putRoot sh gen no blades bytes).2 := by
  unfold State.putRoot
  extract_lets
  split
  next t₁ e₁ =>
  have ht₁ : s₀.FusesKept t₁ := .of_snd e₁ hs.takeWseq
  extract_lets
  refine .foldl_snd ht₁ (fun _ _ ht => ?_)
  split
  · exact ht
  · split
    · next e₃ => exact .of_snd e₃ ht.metaRoom.writeUnit
    · next e₃ => exact .of_snd e₃ ht.metaRoom.writeUnit

/-! ### Anchors (R259, R260) -/

theorem State.FusesKept.appendAnchor {b n : Nat} {bytes : List Byte} (hs : s₀.FusesKept s) :
    s₀.FusesKept (s.appendAnchor b n bytes).2 := by
  unfold State.appendAnchor
  extract_lets s₁
  have hs₁ : s₀.FusesKept s₁ := by
    unfold s₁
    split
    · exact hs
    · exact hs.setBand
  split
  next e₁ => exact .of_snd e₁ hs₁.putPage

theorem State.FusesKept.eraseAnchors {b n : Nat} (hs : s₀.FusesKept s) : s₀.FusesKept (s.eraseAnchors b n) := by
  unfold State.eraseAnchors
  extract_lets _ s₁
  have hs₁ : s₀.FusesKept s₁ := .foldl hs (fun _ _ ht => ht.bladeSync)
  exact hs₁.setBand

theorem State.FusesKept.putAnchor {b sh : Nat} {bytes : List Byte} (hs : s₀.FusesKept s) :
    s₀.FusesKept (s.putAnchor b sh bytes).2 := by
  unfold State.putAnchor
  extract_lets _ _ _ s₁ s₂
  have hs₁ : s₀.FusesKept s₁ := hs.eraseAnchors.setBand
  have hs₂ : s₀.FusesKept s₂ := .foldl hs₁ (fun _ _ ht => ht.appendAnchor)
  exact .ite_snd hs.appendAnchor hs₂.appendAnchor

/-! ### Release of journal pages and the erase fence (R261 to R263) -/

theorem State.FusesKept.releasePages {sh cut : Nat} (hs : s₀.FusesKept s) : s₀.FusesKept (s.releasePages sh cut) := by
  unfold State.releasePages
  refine .foldl hs (fun _ _ ht => ?_)
  refine .ite ht ?_
  extract_lets _ s₁
  have hs₁ : s₀.FusesKept s₁ := ht.setJpage
  exact .foldl hs₁ (fun _ _ ht₁ => ht₁.killUnit)

theorem State.FusesKept.forgetBand {sh b n : Nat} (hs : s₀.FusesKept s) : s₀.FusesKept (s.forgetBand sh b n) := by
  unfold State.forgetBand
  extract_lets
  exact hs.setCshard

theorem State.FusesKept.wipeBand {b n : Nat} (hs : s₀.FusesKept s) : s₀.FusesKept (s.wipeBand b n).2 := by
  unfold State.wipeBand
  split
  · exact hs
  · split
    next t₁ e₂ =>
    have ht₁ : s₀.FusesKept t₁ := .of_snd e₂ hs.setBand.eraseBand
    exact .ite ht₁.forgetBand ht₁

theorem State.FusesKept.eraseFenced {sh : Nat} (hs : s₀.FusesKept s) : s₀.FusesKept (s.eraseFenced sh) := by
  unfold State.eraseFenced
  extract_lets
  exact .foldl hs (fun _ _ ht => ht.wipeBand)

/-! ### The checkpoint (R259) -/

theorem State.FusesKept.homeIntents {sh : Nat} {blades : List Nat} (hs : s₀.FusesKept s) :
    s₀.FusesKept (s.homeIntents sh blades) := by
  unfold State.homeIntents
  extract_lets
  exact .foldl hs (fun _ _ ht => .ite ht ht.putIntents)

theorem State.FusesKept.checkpoint {sh : Nat} (hs : s₀.FusesKept s) : s₀.FusesKept (s.checkpoint sh).2 := by
  unfold State.checkpoint
  split
  · exact hs
  · extract_lets s₁ _ _ _ s₂
    have hs₁ : s₀.FusesKept s₁ := hs.mendLane
    have hs₂ : s₀.FusesKept s₂ := hs₁.homeIntents
    refine .ite_snd hs₁ ?_
    extract_lets
    split
    · next e₂ => exact .of_snd e₂ hs₂.putMetas
    · next t₁ e₂ =>
        have ht₁ : s₀.FusesKept t₁ := .of_snd e₂ hs₂.putMetas
        extract_lets
        split
        · next e₃ => exact .of_snd e₃ ht₁.putRoot
        · next t₂ e₃ =>
            have ht₂ : s₀.FusesKept t₂ := .of_snd e₃ ht₁.putRoot
            split
            next t₃ e₄ =>
            have ht₃ : s₀.FusesKept t₃ := by
              refine .of_snd e₄ ?_
              refine .foldl_snd ht₂ (fun _ _ ht => ?_)
              split
              next e₅ => exact .of_snd e₅ ht.putAnchor
            refine .ite_snd ht₃ ?_
            extract_lets _ s₃ _ s₄ _ s₅ s₆
            have hs₃ : s₀.FusesKept s₃ := ht₃.wr
            have hs₄ : s₀.FusesKept s₄ := hs₃.setCshard
            have hs₅ : s₀.FusesKept s₅ := hs₄.setCell
            have hs₆ : s₀.FusesKept s₆ := .foldl hs₅ (fun _ _ ht => .foldl ht (fun _ _ ht₄ => ht₄.killUnit))
            exact hs₆.releasePages.eraseFenced

/-! ### Reading pages for a load -/

theorem State.FusesKept.pageAt {l : PageLoc} {y : Band} (hs : s₀.FusesKept s) : s₀.FusesKept (s.pageAt l y).2 := by
  unfold State.pageAt
  split
  split
  · next e₂ => exact .of_snd e₂ hs.readRaw
  · next e₂ => exact .of_snd e₂ hs.readRaw

theorem State.FusesKept.scanPages {b n : Nat} {y : Band} {stop : Bool} {n₁ n₂ : Nat} (hs : s₀.FusesKept s) :
    s₀.FusesKept (s.scanPages b n y stop n₁ n₂).2 := by
  induction n₁ generalizing s b n y stop n₂ with
  | zero =>
    unfold State.scanPages
    exact hs
  | succ n ih =>
    unfold State.scanPages
    split
    · next t₁ e₁ =>
        have ht₁ : s₀.FusesKept t₁ := .of_snd e₁ hs.pageAt
        exact .ite_snd ht₁ (ih ht₁)
    · next t₁ e₁ =>
        have ht₁ : s₀.FusesKept t₁ := .of_snd e₁ hs.pageAt
        exact ih ht₁

/-! ### Anchors and roots (R260, R273) -/

theorem State.FusesKept.findAnchors {sh : Nat} (hs : s₀.FusesKept s) : s₀.FusesKept (s.findAnchors sh).2 := by
  unfold State.findAnchors
  refine .foldl_snd hs (fun _ _ ht => ?_)
  refine .foldl_snd ht (fun _ _ ht₁ => ?_)
  extract_lets
  split
  next e₁ => exact .of_snd e₁ ht₁.scanPages

theorem State.FusesKept.readRoot {l : PageLoc} {n : Nat} (hs : s₀.FusesKept s) : s₀.FusesKept (s.readRoot l n).2 := by
  unfold State.readRoot
  split
  next e₁ =>
  refine .of_snd e₁ ?_
  refine .foldl_snd hs (fun _ _ ht => ?_)
  extract_lets
  split
  · exact ht
  · split
    · next e₃ => exact .of_snd e₃ ht.pageAt
    · next e₃ => exact .of_snd e₃ ht.pageAt

theorem State.FusesKept.rootWhole {r : List Byte} (hs : s₀.FusesKept s) : s₀.FusesKept (s.rootWhole r).2 := by
  unfold State.rootWhole
  extract_lets
  refine .foldl_snd hs (fun _ _ ht => ?_)
  extract_lets
  split
  next e₂ =>
  refine .of_snd e₂ ?_
  refine .foldl_snd ht (fun _ _ ht₁ => ?_)
  refine .ite_snd ht₁ ?_
  split
  · exact ht₁
  · split
    · next e₄ => exact .of_snd e₄ ht₁.pageAt
    · next e₄ => exact .of_snd e₄ ht₁.pageAt

theorem State.FusesKept.bestRoot {whole : Bool} {n : Nat} {l : List Anchor} (hs : s₀.FusesKept s) :
    s₀.FusesKept (s.bestRoot whole n l).2 := by
  induction n generalizing s whole l with
  | zero =>
    unfold State.bestRoot
    exact hs
  | succ n ih =>
    unfold State.bestRoot
    split
    · exact hs
    · split
      next t₁ e₂ =>
      have ht₁ : s₀.FusesKept t₁ := by
        refine .of_snd e₂ ?_
        refine .foldl_snd hs (fun _ _ ht => ?_)
        split
        · exact ht
        · exact ht.readRoot
      split
      · split
        next t₂ e₃ =>
        have ht₂ : s₀.FusesKept t₂ := .of_snd e₃ (.ite_snd ht₁.rootWhole ht₁)
        exact .ite_snd ht₂ (ih ht₂)
      · exact ih ht₁

/-! ### Bands claimed by a shard (R274, R275) -/

theorem State.FusesKept.scanRoots {sh : Nat} (hs : s₀.FusesKept s) : s₀.FusesKept (s.scanRoots sh).2 := by
  unfold State.scanRoots
  refine .foldl_snd hs (fun _ _ ht => ?_)
  refine .foldl_snd ht (fun _ _ ht₁ => ?_)
  extract_lets
  split
  next e₁ => exact .of_snd e₁ ht₁.scanPages

/-! ### The tail scan (R274) -/

theorem State.FusesKept.tailPages {sh hw : Nat} {set : List (Nat × Nat)} (hs : s₀.FusesKept s) :
    s₀.FusesKept (s.tailPages sh hw set).2 := by
  unfold State.tailPages
  refine .foldl_snd hs (fun _ _ ht => ?_)
  extract_lets
  split
  next e₁ => exact .of_snd e₁ ht.scanPages

theorem State.FusesKept.listFound {sh : Nat} {fs : List Found} (hs : s₀.FusesKept s) :
    s₀.FusesKept (s.listFound sh fs) := by
  unfold State.listFound
  refine .foldl hs (fun _ _ ht => ?_)
  extract_lets
  exact .ite ht ht.setBand

theorem State.FusesKept.adoptChunks {sh : Nat} {fs : List Found} (hs : s₀.FusesKept s) :
    s₀.FusesKept (s.adoptChunks sh fs) := by
  unfold State.adoptChunks
  extract_lets
  refine .foldl hs (fun _ _ ht => ?_)
  extract_lets
  refine .ite ht ?_
  split
  · exact ht
  · exact ht.setLoc

theorem State.FusesKept.adoptPages {sh : Nat} {fs : List Found} (hs : s₀.FusesKept s) :
    s₀.FusesKept (s.adoptPages sh fs) := by
  unfold State.adoptPages
  refine .foldl hs (fun _ _ ht => ?_)
  extract_lets
  split
  · exact ht.setJpage
  · exact ht.setCshard

theorem State.FusesKept.adoptBits {sh : Nat} {fs : List Found} (hs : s₀.FusesKept s) :
    s₀.FusesKept (s.adoptBits sh fs) := by
  unfold State.adoptBits
  extract_lets
  refine .foldl hs (fun _ _ ht => ?_)
  refine .ite ht ?_
  extract_lets
  exact ht.setCarc

/-! ### Replay (R251, R273) -/

theorem State.FusesKept.countLost {sh : Nat} (hs : s₀.FusesKept s) : s₀.FusesKept (s.countLost sh) :=
  hs.setCshard.wr

theorem State.FusesKept.replay {sh jsn : Nat} {r : JRec} (hs : s₀.FusesKept s) : s₀.FusesKept (s.replay sh jsn r) := by
  unfold State.replay
  extract_lets _ _ _ _ s₁ _ _ _ _ s₂ _ s₃ _ _ s₄
  have hs₁ : s₀.FusesKept s₁ := .foldl hs (fun _ _ ht => ht.setCblade)
  have hs₂ : s₀.FusesKept s₂ := .ite hs hs.setWheel
  have hs₃ : s₀.FusesKept s₃ := hs₂.setCshard
  have hs₄ : s₀.FusesKept s₄ := by
    unfold s₄
    split
    · exact .foldl hs.setWheel (fun _ _ ht => ht.killUnit)
    · exact hs
  refine .ite hs.setCat ?_
  refine .ite (.ite hs.setCat hs) ?_
  refine .ite hs.dropRange ?_
  refine .ite ?_ ?_
  · extract_lets
    split
    next t₁ e₂ =>
    have ht₁ : s₀.FusesKept t₁ := .of_third e₂ hs.sdRange
    exact ht₁.setCshard
  · refine .ite hs.setCshard ?_
    refine .ite hs₁.setCshard ?_
    refine .ite hs₃.sealWheel ?_
    refine .ite ?_ (.ite (.recEffect (.ite hs.countLost hs)) (.ite (.ite hs.dropBand hs) (.ite hs₄.recEffect hs)))
    split
    · exact hs.setLoc
    · exact hs

theorem State.FusesKept.replayAll {sh : Nat} {l : List (Nat × JRec)} (hs : s₀.FusesKept s) :
    s₀.FusesKept (s.replayAll sh l).2 := by
  induction l generalizing s sh with
  | nil =>
    unfold State.replayAll
    exact hs
  | cons a l ih =>
    unfold State.replayAll
    exact ih hs.replay

theorem State.FusesKept.redecrement {by_ : Nat} {c : Nat × Nat} {n : Nat} (hs : s₀.FusesKept s) :
    s₀.FusesKept (s.redecrement by_ c n) := by
  unfold State.redecrement
  split
  · exact hs
  · extract_lets _ s₁
    have hs₁ : s₀.FusesKept s₁ := hs.putEntry.sepWithdraw
    exact .ite hs hs₁.journal

theorem State.FusesKept.chunkThere {sh : Nat} {w : Wheel} {st c : Nat} {l : PageLoc} (hs : s₀.FusesKept s) :
    s₀.FusesKept (s.chunkThere sh w st c l).2 := by
  unfold State.chunkThere
  extract_lets
  split
  next e₁ =>
  refine .of_snd e₁ ?_
  refine .foldl_snd hs (fun _ _ ht => ?_)
  split
  · next e₂ => exact .of_snd e₂ ht.pageAt
  · next e₂ => exact .of_snd e₂ ht.pageAt

theorem State.FusesKept.settleCol {sh wheel st c : Nat} {ok : Bool} {old new : Option PageLoc} (hs : s₀.FusesKept s) :
    s₀.FusesKept (s.settleCol sh wheel st c ok old new) := by
  unfold State.settleCol
  extract_lets
  split
  · exact hs
  · extract_lets
    refine .ite hs ?_
    split
    · exact hs.setWheel
    · exact hs.setWheel.killUnit
    · exact hs

theorem State.FusesKept.settlePatches {sh : Nat} (hs : s₀.FusesKept s) : s₀.FusesKept (s.settlePatches sh) := by
  unfold State.settlePatches
  extract_lets
  refine .foldl hs (fun _ _ ht => ?_)
  extract_lets
  split
  · exact ht
  · extract_lets
    split
    next t₂ e₂ =>
    have ht₂ : s₀.FusesKept t₂ := by
      refine .of_snd e₂ ?_
      refine .foldl_snd ht (fun _ _ ht₁ => ?_)
      split
      next e₃ => exact .of_snd e₃ ht₁.chunkThere
    exact .foldl ht₂ (fun _ _ ht₁ => ht₁.settleCol)

/-! ### The whole load (R273, R275) -/

theorem State.FusesKept.countForms {cat : Tab CatEntry} {up : Bool} (hs : s₀.FusesKept s) :
    s₀.FusesKept (s.countForms cat up) :=
  .foldl hs (fun _ _ ht => ht.upd rfl)

theorem State.FusesKept.lostBits {sh : Nat} (hs : s₀.FusesKept s) : s₀.FusesKept (s.lostBits sh) := by
  unfold State.lostBits
  extract_lets
  refine .foldl hs (fun _ _ ht => ?_)
  extract_lets
  split
  next t₂ e₁ =>
  have ht₂ : s₀.FusesKept t₂ := by
    refine .of_snd e₁ ?_
    refine .foldl_snd ht (fun _ _ ht₁ => ?_)
    refine .ite_snd ht₁ ?_
    split
    · next e₂ => exact .of_snd e₂ ht₁.pageAt
    · next e₂ => exact .of_snd e₂ ht₁.pageAt
  refine .ite ht₂ ?_
  extract_lets
  exact ht₂.setCarc.raise

theorem State.FusesKept.noBitmap {sh : Nat} (hs : s₀.FusesKept s) : s₀.FusesKept (s.noBitmap sh) := by
  unfold State.noBitmap
  extract_lets
  exact .ite hs hs.setCarc.raise

theorem State.FusesKept.install {sh : Nat} {x : Snapshot} (hs : s₀.FusesKept s) : s₀.FusesKept (s.install sh x) := by
  unfold State.install
  extract_lets _ s₁ s₂ _ s₃
  have hs₁ : s₀.FusesKept s₁ := .foldl hs (fun _ _ ht => ht.setBand)
  have hs₂ : s₀.FusesKept s₂ := hs₁.setCshard
  have hs₃ : s₀.FusesKept s₃ := hs₂.setCarc
  exact hs₃.wr.wr.countForms

theorem State.FusesKept.loadTail {sh : Nat} {x : Snapshot} {full : Bool} (hs : s₀.FusesKept s) :
    s₀.FusesKept (s.loadTail sh x full).2 := by
  unfold State.loadTail
  split
  next t₁ e₁ =>
  have ht₁ : s₀.FusesKept t₁ := .of_snd e₁ hs.tailPages
  extract_lets s₁ _ _ s₂
  have hs₁ : s₀.FusesKept s₁ := ht₁.listFound.adoptPages.adoptBits
  have hs₂ : s₀.FusesKept s₂ := hs₁.setCshard
  split
  next t₂ e₂ =>
  have ht₂ : s₀.FusesKept t₂ := .of_snd e₂ hs₂.replayAll
  extract_lets s₃ s₄ _ s₅ _ s₆ s₇ s₈
  have hs₃ : s₀.FusesKept s₃ := ht₂.adoptChunks.settlePatches.lostBits
  have hs₄ : s₀.FusesKept s₄ := .ite hs₃.noBitmap hs₃
  have hs₅ : s₀.FusesKept s₅ := hs₄.setCarc
  have hs₆ : s₀.FusesKept s₆ := hs₅.setCshard
  have hs₇ : s₀.FusesKept s₇ := .foldl hs₆ (fun _ _ ht => ht.emptyBand)
  have hs₈ : s₀.FusesKept s₈ := by
    unfold s₈
    refine .foldl hs₇ (fun _ _ ht => ?_)
    extract_lets
    exact ht.redecrement
  exact hs₈.countUnfolded

theorem State.FusesKept.dropShard {sh : Nat} (hs : s₀.FusesKept s) : s₀.FusesKept (s.dropShard sh) := by
  unfold State.dropShard
  extract_lets _ s₁ _ s₂ s₃ _ s₄ _ s₅
  have hs₁ : s₀.FusesKept s₁ := hs.countForms
  have hs₂ : s₀.FusesKept s₂ := hs₁.setCell
  have hs₃ : s₀.FusesKept s₃ := hs₂.setCshard
  have hs₄ : s₀.FusesKept s₄ := hs₃.setSep
  have hs₅ : s₀.FusesKept s₅ := hs₄.setCarc.countIntents
  exact hs₅.wr.wr.wr

theorem State.FusesKept.loadShard {sh : Nat} {full : Bool} {img : Option Snapshot} (hs : s₀.FusesKept s) :
    s₀.FusesKept (s.loadShard sh full img).2 := by
  unfold State.loadShard
  extract_lets
  split
  next t₁ e₁ =>
  have ht₁ : s₀.FusesKept t₁ := .of_snd e₁ hs.findAnchors
  split
  · next t₂ e₂ =>
      have ht₂ : s₀.FusesKept t₂ := .of_snd e₂ ht₁.bestRoot
      split
      · exact ht₂
      · split
        next e₄ => exact .of_snd e₄ ht₂.install.loadTail
  · next t₂ e₂ =>
      have ht₂ : s₀.FusesKept t₂ := .of_snd e₂ ht₁.bestRoot
      refine .ite_snd ht₂ ?_
      extract_lets s₁
      have hs₁ : s₀.FusesKept s₁ := ht₂.raise
      split
      next t₃ e₃ =>
      have ht₃ : s₀.FusesKept t₃ := .of_snd e₃ hs₁.scanRoots
      split
      · next t₄ e₄ =>
          have ht₄ : s₀.FusesKept t₄ := .of_snd e₄ ht₃.bestRoot
          split
          · exact ht₄
          · split
            next e₆ => exact .of_snd e₆ ht₄.install.loadTail
      · next t₄ e₄ =>
          have ht₄ : s₀.FusesKept t₄ := .of_snd e₄ ht₃.bestRoot
          split
          next e₅ => exact .of_snd e₅ ht₄.install.loadTail

/-! ### Journal replicas -/

theorem State.FusesKept.movePage {sh p : Nat} {gone : List Nat} (hs : s₀.FusesKept s) :
    s₀.FusesKept (s.movePage sh p gone).2 := by
  unfold State.movePage
  split
  · exact hs
  · refine .ite_snd hs ?_
    extract_lets _ _ s₁
    have hs₁ : s₀.FusesKept s₁ := hs.mendLane
    refine .ite_snd hs.setJpage ?_
    extract_lets
    split
    next t₁ e₂ =>
    have ht₁ : s₀.FusesKept t₁ := .of_snd e₂ hs₁.takeWseq
    extract_lets
    split
    next t₂ e₃ =>
    have ht₂ : s₀.FusesKept t₂ := by
      refine .of_snd e₃ ?_
      refine .foldl_snd ht₁ (fun _ _ ht => ?_)
      split
      · next e₄ => exact .of_snd e₄ ht.writeUnit
      · next e₄ => exact .of_snd e₄ ht.writeUnit
    refine .ite_snd ht₂ ?_
    extract_lets _ s₂ s₃
    have hs₂ : s₀.FusesKept s₂ := ht₂.setCshard
    have hs₃ : s₀.FusesKept s₃ := hs₂.setJpage
    exact .foldl hs₃ (fun _ _ ht => ht.killUnit)

theorem State.FusesKept.moveRecords {sh : Nat} {bands : List (Nat × Nat)} {gone : List Nat} (hs : s₀.FusesKept s) :
    s₀.FusesKept (s.moveRecords sh bands gone).2 := by
  unfold State.moveRecords
  extract_lets s₁
  have hs₁ : s₀.FusesKept s₁ := .foldl hs (fun _ _ ht => .ite ht.closeBand ht)
  refine .foldl_snd hs₁ (fun _ _ ht => ?_)
  split
  next e₁ => exact .of_snd e₁ ht.movePage

/-! ### Curds rewritten (R266, points 2 and 3) -/

theorem State.FusesKept.patchRange {sh wheel n n₁ : Nat} {l : List Byte} (hs : s₀.FusesKept s) :
    s₀.FusesKept (s.patchRange sh wheel n n₁ l).2 := by
  induction n generalizing s sh wheel n₁ l with
  | zero =>
    unfold State.patchRange
    exact hs
  | succ n ih =>
    unfold State.patchRange
    refine .ite_snd hs ?_
    extract_lets
    split
    · exact hs
    · extract_lets
      split
      · next e₂ => exact .of_snd e₂ hs.colBytes
      · next t₁ e₂ =>
          have ht₁ : s₀.FusesKept t₁ := .of_snd e₂ hs.colBytes
          split
          · next t₂ e₃ =>
              have ht₂ : s₀.FusesKept t₂ := .of_snd e₃ ht₁.patch
              exact ih ht₂
          · next e₃ => exact .of_snd e₃ ht₁.patch

theorem State.FusesKept.zeroCurd {sh l n : Nat} (hs : s₀.FusesKept s) : s₀.FusesKept (s.zeroCurd sh l n).2 := by
  unfold State.zeroCurd
  extract_lets _ s₁
  have hs₁ : s₀.FusesKept s₁ := .ite hs hs.setCshard
  exact hs₁.patchRange

theorem State.FusesKept.moveRest {sh l tenant : Nat} {w : Wheel} {bs : List Byte} (hs : s₀.FusesKept s) :
    s₀.FusesKept (s.moveRest sh l tenant w bs) := by
  unfold State.moveRest
  split
  · exact hs.headLost
  · next t₁ e₁ =>
      have ht₁ : s₀.FusesKept t₁ := OptKept.state e₁ hs.useDicts
      split
      · exact ht₁
      · split
        · next e₃ => exact .of_snd e₃ ht₁.newWheel
        · next t₂ e₃ =>
            have ht₂ : s₀.FusesKept t₂ := .of_snd e₃ ht₁.newWheel
            exact ht₂.journalSeals

theorem State.FusesKept.eraseCurd {sh l : Nat} (hs : s₀.FusesKept s) : s₀.FusesKept (s.eraseCurd sh l).2 := by
  unfold State.eraseCurd
  extract_lets
  split
  · exact hs
  · split
    · exact hs
    · refine .ite_snd hs ?_
      refine .ite_snd hs ?_
      refine .ite_snd hs.zeroCurd ?_
      split
      · next e₃ => exact .of_snd e₃ hs.copyCurd
      · next t₁ e₃ =>
          have ht₁ : s₀.FusesKept t₁ := .of_snd e₃ hs.copyCurd
          refine .ite_snd (.ite_snd ht₁.zeroCurd ht₁.moveRest) ?_
          split
          · exact ht₁
          · exact ht₁.patchRange

/-! ### Step 5 (R266) -/

theorem State.FusesKept.eachOk {α : Type} {l : List α} {f : State → α → Bool × State} (hs : s₀.FusesKept s)
    (hf : ∀ (t : State) (a : α), s₀.FusesKept t → s₀.FusesKept (f t a).2) : s₀.FusesKept (s.eachOk l f).2 :=
  .foldl_snd hs fun q b hq => hf q.2 b hq

theorem State.FusesKept.clearMain {e : Nat × Nat} (hs : s₀.FusesKept s) : s₀.FusesKept (s.clearMain e).2 :=
  .emptyMain (.ite hs.closeBand hs)

theorem State.FusesKept.wipeOk {e : Nat × Nat} (hs : s₀.FusesKept s) : s₀.FusesKept (s.wipeOk e).2 := by
  unfold State.wipeOk
  split
  next e₁ => exact .of_snd e₁ hs.wipeBand

theorem State.FusesKept.sdErase {sh jsn : Nat} {cmd : Option (Nat × Nat)} (hs : s₀.FusesKept s) :
    s₀.FusesKept (s.sdErase sh jsn cmd).2 := by
  unfold State.sdErase
  extract_lets ls ts gone jb ws objs all
  split
  next moved =>
  have h₁ := State.FusesKept.of_snd moved (hs.eachOk fun _ _ h => h.moveRecords)
  split
  next erased =>
  have h₂ := State.FusesKept.of_snd erased (.ite_snd (h₁.eachOk fun _ _ h => h.eraseCurd) h₁)
  refine .ite_snd h₂ ?_
  extract_lets mb bands
  split
  next cleared =>
  have h₃ := State.FusesKept.of_snd cleared (h₂.eachOk fun _ _ h => h.clearMain)
  split
  next saved =>
  have h₄ := State.FusesKept.of_snd saved (.ite_snd (h₃.eachOk fun _ _ h => h.checkpoint) h₃)
  refine .ite_snd h₄ ?_
  split
  next wiped =>
  have h₅ := State.FusesKept.of_snd wiped (h₄.eachOk fun _ _ h => h.wipeOk)
  refine .ite_snd h₅ ?_
  extract_lets later mask s₆ s₇ x s₈ y s₉ s₁₀ s₁₁
  have h₆ : s₀.FusesKept s₆ := .foldl h₅ fun _ _ h => h.setCshard
  have h₇ : s₀.FusesKept s₇ := .foldl h₆ fun _ _ h => h.setCshard
  have h₈ : s₀.FusesKept s₈ := h₇.setCshard
  have h₉ : s₀.FusesKept s₉ := h₈.setCshard
  have h₁₀ : s₀.FusesKept s₁₀ := .foldl h₉ fun _ _ h => h.setCblade
  have h₁₁ : s₀.FusesKept s₁₁ := h₁₀.journal
  clear_value s₁₁ mask
  refine .ite_snd h₈.journal ?_
  exact h₁₁.raise

/-! ### Deferred erases (R267, R311) -/

theorem State.FusesKept.deferErased {b sh jsn n : Nat} (hs : s₀.FusesKept s) :
    s₀.FusesKept (s.deferErased b sh jsn n) := by
  unfold State.deferErased
  extract_lets _ _ _ s₁ s₂
  have hs₁ : s₀.FusesKept s₁ := hs.setCblade
  have hs₂ : s₀.FusesKept s₂ := hs₁.setCshard.raise
  exact .ite hs₂.journal hs₂

theorem State.FusesKept.eraseDeferred {b : Nat} (hs : s₀.FusesKept s) : s₀.FusesKept (s.eraseDeferred b).2 := by
  unfold State.eraseDeferred
  refine .foldl_snd hs (fun _ _ ht => ?_)
  extract_lets s₁
  have hs₁ : s₀.FusesKept s₁ := by
    unfold s₁
    split
    · exact ht
    · exact ht.setBand
  split
  next t₁ e₁ =>
  have ht₁ : s₀.FusesKept t₁ := .of_snd e₁ hs₁.wipeBand
  exact .ite_snd ht₁.deferErased ht₁

theorem State.FusesKept.finishIntents {sh : Nat} (hs : s₀.FusesKept s) : s₀.FusesKept (s.finishIntents sh) := by
  unfold State.finishIntents
  refine .foldl hs (fun _ _ ht => ?_)
  extract_lets
  exact .ite ht ht.sdErase

/-! ### Journal pages (R249, R253, R254) -/

theorem State.FusesKept.laneStep {sh lane : Nat} {ok : Lane → Bool} {ms : List Medium} (hs : s₀.FusesKept s) :
    s₀.FusesKept (s.laneStep sh lane ok ms) := by
  unfold State.laneStep
  split
  · exact hs
  · exact .ite (hs.scripted (fun _ ht => ht.programLane)) hs

theorem State.FusesKept.execJournalPageProgram {shard : Fin 256} {lane : Fin 8} {ms : List Medium}
    (hs : s₀.FusesKept s) :
    OutKept s₀ (Machine.execJournalPageProgram shard lane ms s) :=
  .of_state hs.laneStep

theorem State.FusesKept.execJournalHoldExpiry {shard : Fin 256} {lane : Fin 8} {ms : List Medium}
    (hs : s₀.FusesKept s) :
    OutKept s₀ (Machine.execJournalHoldExpiry shard lane ms s) :=
  .of_state hs.laneStep

theorem State.FusesKept.execReplicaTimeout {shard : Fin 256} {page : Nat} {blade : Fin 16} {ms : List Medium}
    (hs : s₀.FusesKept s) :
    OutKept s₀ (Machine.execReplicaTimeout shard page blade ms s) := by
  unfold Machine.execReplicaTimeout
  split
  · exact .of_state hs
  · split
    · exact .of_state (hs.scripted (fun _ ht => ht.failReplica))
    · exact .of_state hs

theorem State.FusesKept.mirrorPage {sh p : Nat} (hs : s₀.FusesKept s) : s₀.FusesKept (s.mirrorPage sh p) := by
  unfold State.mirrorPage
  split
  · exact hs
  · extract_lets
    split
    next t₁ e₂ =>
    have ht₁ : s₀.FusesKept t₁ := by
      refine .of_snd e₂ ?_
      refine .foldl_snd hs (fun _ _ ht => ?_)
      split
      · exact ht
      · exact ht.readAt
    split
    · exact ht₁
    · refine .foldl ht₁ (fun _ _ ht => ?_)
      split
      · next t₃ e₃ =>
          have ht₃ : s₀.FusesKept t₃ := .of_snd e₃ ht.writeUnit
          split
          · exact ht₃.setJpage
          · exact ht₃
      · next e₃ => exact .of_snd e₃ ht.writeUnit

theorem State.FusesKept.execRemirror {shard : Fin 256} {lane : Fin 8} {ms : List Medium} (hs : s₀.FusesKept s) :
    OutKept s₀ (Machine.execRemirror shard lane ms s) := by
  unfold Machine.execRemirror
  refine .ite (.of_state hs) ?_
  refine .of_state ?_
  refine hs.scripted (fun _ ht => ?_)
  extract_lets s₁
  have hs₁ : s₀.FusesKept s₁ := ht.mendLane
  split
  · exact hs₁
  · extract_lets _ s₂
    have hs₂ : s₀.FusesKept s₂ := .foldl hs₁ (fun _ _ ht₁ => ht₁.mirrorPage)
    exact .ite hs₁ hs₂.raise

/-! ### Folds (R255, R256) -/

theorem State.FusesKept.execFold {shard : Fin 256} {pool : Fin 16} {ms : List Medium} (hs : s₀.FusesKept s) :
    OutKept s₀ (Machine.execFold shard pool ms s) := by
  unfold Machine.execFold
  refine .ite (.of_state hs) ?_
  refine .of_state ?_
  refine hs.scripted (fun _ ht => ?_)
  split
  next t₂ e₁ =>
  have ht₂ : s₀.FusesKept t₂ := .of_snd e₁ ht.foldPool
  exact ht₂.sealAll

theorem State.FusesKept.execFoldAgeExpiry {shard : Fin 256} {pool : Fin 16} {ms : List Medium} (hs : s₀.FusesKept s) :
    OutKept s₀ (Machine.execFoldAgeExpiry shard pool ms s) := by
  unfold Machine.execFoldAgeExpiry
  split
  · exact .of_state hs
  · refine .ite (.of_state hs) ?_
    refine .of_state ?_
    refine hs.scripted (fun _ ht => ?_)
    split
    next t₂ e₂ =>
    have ht₂ : s₀.FusesKept t₂ := .of_snd e₂ ht.foldPool
    exact ht₂.sealAll

/-! ### Checkpoints (R259) -/

theorem State.FusesKept.ckptStep {sh : Nat} (hs : s₀.FusesKept s) : s₀.FusesKept (s.ckptStep sh).2 := by
  unfold State.ckptStep
  extract_lets _ s₁
  have hs₁ : s₀.FusesKept s₁ := hs.setCshard
  split
  next t₁ e₁ =>
  have ht₁ : s₀.FusesKept t₁ := .of_snd e₁ hs₁.checkpoint
  exact .ite ht₁.finishIntents ht₁

theorem State.FusesKept.execCheckpointPeriodExpiry {shard : Fin 256} {ms : List Medium} (hs : s₀.FusesKept s) :
    OutKept s₀ (Machine.execCheckpointPeriodExpiry shard ms s) :=
  .ite (.of_state (hs.scripted (fun _ ht => ht.ckptStep))) (.of_state hs)

theorem State.FusesKept.execCheckpointLateExpiry {shard : Fin 256} (hs : s₀.FusesKept s) :
    OutKept s₀ (Machine.execCheckpointLateExpiry shard s) :=
  .ite (.of_state hs.setCshard.raise) (.of_state hs)

/-! ### Garbage collection and wear (R264, R265, R269) -/

theorem State.FusesKept.execGcVictimCollect {blade : Fin 16} {shard : Fin 256} {ms : List Medium}
    (hs : s₀.FusesKept s) :
    OutKept s₀ (Machine.execGcVictimCollect blade shard ms s) := by
  unfold Machine.execGcVictimCollect
  refine .ite (.of_state hs) ?_
  split
  · exact .of_state hs
  · exact .ite (.of_state (hs.scripted (fun _ ht => ht.emptyMain.emptyBand.countBands))) (.of_state hs)

theorem State.FusesKept.execWearLevelCheck {blade : Fin 16} {ms : List Medium} (hs : s₀.FusesKept s) :
    OutKept s₀ (Machine.execWearLevelCheck blade ms s) := by
  unfold Machine.execWearLevelCheck
  refine .ite (.of_state hs) ?_
  extract_lets _ s₁
  have hs₁ : s₀.FusesKept s₁ := hs.setCblade
  split
  · exact .ite (.of_state (hs₁.scripted (fun _ ht => ht.emptyMain.emptyBand.countBands))) (.of_state hs₁)
  · exact .of_state hs₁

theorem State.FusesKept.execWheelReclaim {shard : Fin 256} {wheel : Nat} {ms : List Medium} (hs : s₀.FusesKept s) :
    OutKept s₀ (Machine.execWheelReclaim shard wheel ms s) := by
  unfold Machine.execWheelReclaim
  split
  · exact .of_state hs
  · exact .ite (.of_state (hs.scripted (fun _ ht => ht.reclaim))) (.of_state hs)

/-! ### Health (R278) -/

theorem State.FusesKept.periodic {b : Nat} (hs : s₀.FusesKept s) : s₀.FusesKept (s.periodic b) := by
  unfold State.periodic
  extract_lets
  exact hs.healthEntry

theorem State.FusesKept.execHealthPeriodExpiry (hs : s₀.FusesKept s) :
    OutKept s₀ (Machine.execHealthPeriodExpiry s) :=
  .ite (.of_state hs) (.of_state (.foldl hs.setCell (fun _ _ ht => .ite ht ht.periodic)))

theorem State.FusesKept.cellDesc {d : DescRef} {op : Nat} {k : Fetched → State} (hs : s₀.FusesKept s)
    (hk : ∀ (a₀ : Fetched), s₀.FusesKept (k a₀)) :
    OutKept s₀ (s.cellDesc d op k) := by
  unfold State.cellDesc
  split
  · exact .of_state hs
  · exact .of_state (hk _)

/-! ### Blades (R239, R267, R280) -/

theorem State.FusesKept.maintAsk {d : DescRef} {mk : Nat → TenMsg} (hs : s₀.FusesKept s) :
    s₀.FusesKept (s.maintAsk d mk) := by
  unfold State.maintAsk
  extract_lets
  exact hs.setTen.tenSend

theorem State.FusesKept.wiped {b : Nat} (hs : s₀.FusesKept s) : s₀.FusesKept (s.wiped b).2 := by
  unfold State.wiped
  extract_lets _ _ _ s₁ s₂
  have hs₁ : s₀.FusesKept s₁ := hs.setCblade
  have hs₂ : s₀.FusesKept s₂ := .foldl hs₁ (fun _ _ ht => ht.deferErased)
  exact hs₂.setCblade

theorem State.FusesKept.attached {b : Nat} {d : DescRef} {erased : Nat} (hs : s₀.FusesKept s) :
    s₀.FusesKept (s.attached b d erased) := by
  unfold State.attached
  extract_lets s₁ _ _ s₂ s₃
  have hs₁ : s₀.FusesKept s₁ := hs.wr
  have hs₂ : s₀.FusesKept s₂ := hs₁.setHport.setCblade
  have hs₃ : s₀.FusesKept s₃ := hs₂.countBands
  exact hs₃.finish

theorem State.FusesKept.execBladeAttach {d : DescRef} {ms : List Medium} (hs : s₀.FusesKept s) :
    OutKept s₀ (Machine.execBladeAttach d ms s) := by
  unfold Machine.execBladeAttach
  refine hs.cellDesc (fun _ => ?_)
  extract_lets
  refine .ite hs.finish ?_
  refine .ite hs.finish ?_
  refine .ite hs ?_
  refine hs.scripted (fun _ ht => ?_)
  refine .ite ?_ ?_
  · extract_lets
    split
    next t₂ e₁ =>
    have ht₂ : s₀.FusesKept t₂ := .of_snd e₁ ht.bladeSync
    refine .ite ?_ (.ite ht₂.setHport.wr.maintAsk ht₂.wr.finish)
    split
    next t₃ e₂ =>
    have ht₃ : s₀.FusesKept t₃ := .of_snd e₂ ht₂.wiped
    exact ht₃.attached
  · extract_lets
    split
    next t₂ e₁ =>
    have ht₂ : s₀.FusesKept t₂ := .of_snd e₁ ht.eraseDeferred
    extract_lets
    exact .ite ht₂.attached (.ite (.foldl ht₂.wr (fun _ _ ht₁ => ht₁.maintAsk)) ht₂)

theorem State.FusesKept.execBladeDetach {d : DescRef} (hs : s₀.FusesKept s) :
    OutKept s₀ (Machine.execBladeDetach d s) := by
  unfold Machine.execBladeDetach
  refine hs.cellDesc (fun _ => ?_)
  extract_lets _ s₁
  have hs₁ : s₀.FusesKept s₁ := hs.setCblade.wr
  exact .ite hs.finish (.ite hs.finish hs₁.countBands.finish)

/-! ### Lanes (R248, R280) -/

theorem State.FusesKept.countLanes {sh : Nat} (hs : s₀.FusesKept s) : s₀.FusesKept (s.countLanes sh) :=
  hs.wr

theorem State.FusesKept.execLaneSet {d : DescRef} (hs : s₀.FusesKept s) : OutKept s₀ (Machine.execLaneSet d s) := by
  unfold Machine.execLaneSet
  refine hs.cellDesc (fun _ => ?_)
  extract_lets _ _ _ _ s₁
  have hs₁ : s₀.FusesKept s₁ := hs.setCshard
  refine .ite hs.finish ?_
  refine .ite (.ite hs.finish (.finish (.countLanes (.foldl hs₁ (fun _ _ ht => ht.laneAdd))))) ?_
  split
  · exact hs.finish
  · exact hs.setCshard.countLanes.finish

/-! ### Shards (R273, R277) -/

theorem State.FusesKept.execShardLoad {d : DescRef} {img : Option Snapshot} {ms : List Medium} (hs : s₀.FusesKept s) :
    OutKept s₀ (Machine.execShardLoad d img ms s) := by
  unfold Machine.execShardLoad
  refine hs.cellDesc (fun _ => ?_)
  extract_lets
  refine .ite hs.finish ?_
  refine .ite hs.finish ?_
  refine hs.scripted (fun _ ht => ?_)
  extract_lets
  split
  · next t₂ e₁ =>
      have ht₂ : s₀.FusesKept t₂ := .of_snd e₁ ht.wr.loadShard
      exact ht₂.dropShard.wr.finish
  · next t₂ e₁ =>
      have ht₂ : s₀.FusesKept t₂ := .of_snd e₁ ht.wr.loadShard
      extract_lets s₁ s₂
      have hs₁ : s₀.FusesKept s₁ := ht₂.wr.resumeRebuilds
      have hs₂ : s₀.FusesKept s₂ := hs₁.raise.anaUpdate
      exact hs₂.finish

theorem State.FusesKept.execShardRelease {d : DescRef} {ms : List Medium} (hs : s₀.FusesKept s) :
    OutKept s₀ (Machine.execShardRelease d ms s) := by
  unfold Machine.execShardRelease
  refine hs.cellDesc (fun _ => ?_)
  extract_lets _ s₁
  have hs₁ : s₀.FusesKept s₁ := hs.wr
  refine .ite hs.finish ?_
  refine .ite hs₁ ?_
  refine hs₁.scripted (fun _ ht => ?_)
  extract_lets
  split
  · next e₁ => exact .of_snd e₁ ht.checkpoint
  · next t₂ e₁ =>
      have ht₂ : s₀.FusesKept t₂ := .of_snd e₁ ht.checkpoint
      extract_lets
      exact ht₂.dropShard.wr.anaUpdate.finish

theorem State.FusesKept.execCheckpoint {d : DescRef} {ms : List Medium} (hs : s₀.FusesKept s) :
    OutKept s₀ (Machine.execCheckpoint d ms s) := by
  unfold Machine.execCheckpoint
  refine hs.cellDesc (fun _ => ?_)
  extract_lets
  refine .ite hs ?_
  refine .ite hs.finish ?_
  refine hs.scripted (fun _ ht => ?_)
  split
  · next e₁ => exact .of_snd e₁ ht.ckptStep
  · next t₂ e₁ =>
      have ht₂ : s₀.FusesKept t₂ := .of_snd e₁ ht.ckptStep
      exact ht₂.finish

theorem State.FusesKept.execFoldNow {d : DescRef} {ms : List Medium} (hs : s₀.FusesKept s) :
    OutKept s₀ (Machine.execFoldNow d ms s) := by
  unfold Machine.execFoldNow
  refine hs.cellDesc (fun _ => ?_)
  extract_lets
  refine .ite hs ?_
  refine .ite hs.finish ?_
  refine .ite hs ?_
  refine hs.scripted (fun _ ht => ?_)
  split
  next t₂ e₁ =>
  have ht₂ : s₀.FusesKept t₂ := .of_snd e₁ ht.foldAll
  exact .ite ht₂.finish ht₂.sealAll

theorem State.FusesKept.execReclaim {d : DescRef} {ms : List Medium} (hs : s₀.FusesKept s) :
    OutKept s₀ (Machine.execReclaim d ms s) := by
  unfold Machine.execReclaim
  refine hs.cellDesc (fun _ => ?_)
  extract_lets
  exact .ite hs (.ite hs.finish (.ite hs (.ite hs.finish (.ite hs (hs.scripted (fun _ ht => ht.reclaim))))))

theorem State.FusesKept.execHealthNow {d : DescRef} (hs : s₀.FusesKept s) :
    OutKept s₀ (Machine.execHealthNow d s) := by
  unfold Machine.execHealthNow
  refine hs.cellDesc (fun _ => ?_)
  extract_lets
  exact .ite hs.finish hs.periodic.finish

theorem State.FusesKept.execTallyTokenRefill (hs : s₀.FusesKept s) : OutKept s₀ (Machine.execTallyTokenRefill s) :=
  .of_state (hs.upd rfl)

theorem State.FusesKept.execTallySpill (hs : s₀.FusesKept s) : OutKept s₀ (Machine.execTallySpill s) := by
  unfold Machine.execTallySpill
  split
  · exact .of_state hs
  · refine .ite (.of_state hs) ?_
    split
    · exact .of_state (hs.upd rfl)
    · extract_lets p
      split
      · exact .of_state hs.dmaFailed
      · next t e =>
          have ht : s₀.FusesKept t := ExcKept.state e hs.dmaWrite
          extract_lets u
          have hu : s₀.FusesKept u := ht.wr
          exact .of_state (hu.upd rfl)

theorem State.FusesKept.execTriggerPulseEnd (hs : s₀.FusesKept s) : OutKept s₀ (Machine.execTriggerPulseEnd s) :=
  .ite (.of_state (hs.upd rfl)) (.ite (.ite (.of_state (hs.upd rfl)) (.of_state (.wired (hs.upd rfl)))) (.of_state hs))

theorem State.FusesKept.leaseLossIndication (hs : s₀.FusesKept s) : s₀.FusesKept s.leaseLossIndication := by
  unfold State.leaseLossIndication
  refine .ite hs ?_
  extract_lets s1
  have hs1 : s₀.FusesKept s1 := hs.bump
  exact hs1.upd rfl

theorem State.FusesKept.execLossHoldExpiry (hs : s₀.FusesKept s) : OutKept s₀ (Machine.execLossHoldExpiry s) :=
  .ite (.of_state (hs.upd rfl)) (.of_state hs)

theorem State.FusesKept.execTallyClearCounts (hs : s₀.FusesKept s) : OutKept s₀ (Machine.execTallyClearCounts s) :=
  .of_state (hs.upd rfl)

/-! ### Counts and events -/

theorem State.FusesKept.received {key n : Nat} (hs : s₀.FusesKept s) : s₀.FusesKept (s.received key n) :=
  .ite hs.tenSend hs

theorem State.FusesKept.drainCheck (hs : s₀.FusesKept s) : s₀.FusesKept s.drainCheck := by
  unfold State.drainCheck
  refine .ite ?_ hs
  extract_lets s₁
  have hs₁ : s₀.FusesKept s₁ := hs.wr
  split
  · exact hs₁.setLease.finish
  · exact hs₁

theorem State.FusesKept.leaseEvent {kind sh epoch : Nat} (hs : s₀.FusesKept s) :
    s₀.FusesKept (s.leaseEvent kind sh epoch) := by
  unfold State.leaseEvent
  extract_lets
  split
  · exact hs.finish
  · exact .ite hs.setLease hs

theorem State.FusesKept.setLeaseSt {sh st : Nat} (hs : s₀.FusesKept s) : s₀.FusesKept (s.setLeaseSt sh st) := by
  unfold State.setLeaseSt
  extract_lets s₁ s₂
  have hs₁ : s₀.FusesKept s₁ := hs.wr
  have hs₂ : s₀.FusesKept s₂ := hs₁.wr
  exact hs₂.anaUpdate.drainCheck

/-! ### Commands to blades -/

theorem State.FusesKept.releaseOn {sh epoch : Nat} {bs : List Nat} (hs : s₀.FusesKept s) :
    s₀.FusesKept (s.releaseOn sh epoch bs) :=
  .foldl hs (fun _ _ ht => ht.issue)

theorem State.FusesKept.sendEpoch {sh b : Nat} (hs : s₀.FusesKept s) : s₀.FusesKept (s.sendEpoch sh b) := by
  unfold State.sendEpoch
  extract_lets _ s₁
  have hs₁ : s₀.FusesKept s₁ := .ite hs.wr hs
  split
  · next t₁ e₁ =>
      have ht₁ : s₀.FusesKept t₁ := .of_snd e₁ hs₁.issue
      exact ht₁.setLeaseX
  · next e₁ => exact .of_snd e₁ hs₁.issue

theorem State.FusesKept.readEpoch {sh b : Nat} (hs : s₀.FusesKept s) : s₀.FusesKept (s.readEpoch sh b) :=
  hs.issue

/-! ### Winning (R336, R341, R342) -/

theorem State.FusesKept.startWin {sh : Nat} {take : Bool} {d : Option DescRef} (hs : s₀.FusesKept s) :
    s₀.FusesKept (s.startWin sh take d) := by
  unfold State.startWin
  extract_lets _ s₁ s₂ s₃ s₄
  have hs₁ : s₀.FusesKept s₁ := hs.wr
  have hs₂ : s₀.FusesKept s₂ := hs₁.setLeaseX
  have hs₃ : s₀.FusesKept s₃ := hs₂.wr.setLeaseSt
  have hs₄ : s₀.FusesKept s₄ := hs₃.wr
  exact .ite (.foldl hs₃ (fun _ _ ht => ht.readEpoch)) (.foldl hs₄ (fun _ _ ht => ht.sendEpoch))

theorem State.FusesKept.win {sh issuedAt : Nat} (hs : s₀.FusesKept s) : s₀.FusesKept (s.win sh issuedAt) := by
  unfold State.win
  extract_lets _ _ s₁ s₂ s₃ s₄
  have hs₁ : s₀.FusesKept s₁ := hs.setLeaseX
  have hs₂ : s₀.FusesKept s₂ := hs₁.meterStart.setLeaseSt.tenSend
  have hs₃ : s₀.FusesKept s₃ := hs₂.raise
  have hs₄ : s₀.FusesKept s₄ := hs₃.leaseEvent
  split
  · exact hs₄.finish
  · exact hs₄

theorem State.FusesKept.raiseEpoch {sh epoch : Nat} (hs : s₀.FusesKept s) : s₀.FusesKept (s.raiseEpoch sh epoch) := by
  unfold State.raiseEpoch
  extract_lets _ _ s₁ s₂
  have hs₁ : s₀.FusesKept s₁ := hs.setLeaseX
  have hs₂ : s₀.FusesKept s₂ := hs₁.wr
  exact .foldl hs₂ (fun _ _ ht => ht.sendEpoch)

theorem State.FusesKept.epochAnswered {sh b : Nat} {c : BCmd} {since : Nat} {a : BAns} (hs : s₀.FusesKept s) :
    s₀.FusesKept (s.epochAnswered sh b c since a) := by
  unfold State.epochAnswered
  extract_lets _ _ _ s₁
  have hs₁ : s₀.FusesKept s₁ := hs.setLeaseX.wr
  exact .ite (.ite (.ite hs₁.win hs₁) hs) (.ite (.ite hs.raiseEpoch (.ite hs.raiseEpoch hs)) (.ite
    hs.setLeaseX.readEpoch hs))

theorem State.FusesKept.epochSeen {sh b since : Nat} {a : BAns} (hs : s₀.FusesKept s) :
    s₀.FusesKept (s.epochSeen sh b since a) := by
  unfold State.epochSeen
  refine .ite hs ?_
  extract_lets _ _ _ _ _ s₁
  have hs₁ : s₀.FusesKept s₁ := hs.setLeaseX
  exact .ite hs₁.sendEpoch hs₁

/-! ### Renewing (R332) -/

theorem State.FusesKept.renewRound (hs : s₀.FusesKept s) : s₀.FusesKept s.renewRound := by
  unfold State.renewRound
  extract_lets _ _ s₁ _ _ _ s₂ s₃
  have hs₁ : s₀.FusesKept s₁ := .ite hs.bump hs
  have hs₂ : s₀.FusesKept s₂ := hs₁.setLease
  have hs₃ : s₀.FusesKept s₃ := by
    unfold s₃
    refine .foldl hs₂ (fun _ _ ht => ?_)
    extract_lets
    exact .ite ht (.foldl ht (fun _ _ ht₁ => ht₁.issue))
  exact .ite hs₃ hs₃.tenSend

theorem State.FusesKept.renewBit {r : Round} {sh b : Nat} (hs : s₀.FusesKept s) :
    s₀.FusesKept (s.renewBit r sh b) := by
  unfold State.renewBit
  extract_lets _ _ _ s₁ s₂
  have hs₁ : s₀.FusesKept s₁ := hs.setLease
  have hs₂ : s₀.FusesKept s₂ := .ite hs₁.wr hs₁
  exact .ite hs (.ite hs₂.setLeaseX hs₂)

theorem State.FusesKept.renewAnswered {id b : Nat} {c : BCmd} {a : BAns} (hs : s₀.FusesKept s) :
    s₀.FusesKept (s.renewAnswered id b c a) := by
  unfold State.renewAnswered
  refine .ite hs ?_
  refine .foldl hs (fun _ _ ht => ?_)
  extract_lets
  refine .ite ht ?_
  refine .ite ?_ (.ite ht.sendEpoch ht)
  split
  · exact .ite ht.renewBit ht
  · exact ht

/-! ### Re-execution lists (R329) -/

theorem State.FusesKept.dropBlk {k i : Nat} {c : NvmeCmd} {b : Blk} (hs : s₀.FusesKept s) :
    s₀.FusesKept (s.dropBlk k i c b) := by
  unfold State.dropBlk
  extract_lets _ s₁
  have hs₁ : s₀.FusesKept s₁ := hs.dropHolds.withdrawWidx
  exact hs₁.setCell

theorem State.FusesKept.reexecBlocks {sh k : Nat} {c : NvmeCmd} (hs : s₀.FusesKept s) :
    s₀.FusesKept (s.reexecBlocks sh k c) := by
  unfold State.reexecBlocks
  extract_lets _ s₁ s₂
  have hs₁ : s₀.FusesKept s₁ := .foldl hs (fun _ _ ht => ht.dropBlk)
  have hs₂ : s₀.FusesKept s₂ := hs₁.unpinAll
  exact .ite hs₁.unpinAll.freeCtxPails.freeContextOf hs₂.setCmd.freeCtxPails.listReexec

theorem State.FusesKept.lapseCmd {sh k : Nat} (hs : s₀.FusesKept s) : s₀.FusesKept (s.lapseCmd sh k) := by
  unfold State.lapseCmd
  split
  · exact hs
  · extract_lets _ s₁
    have hs₁ : s₀.FusesKept s₁ := .foldl hs (fun _ _ ht => ht.dropBlk)
    exact .ite hs (.ite hs.reexecBlocks hs₁.setCmd.finishIfDone)

theorem State.FusesKept.listReads {sh : Nat} (hs : s₀.FusesKept s) : s₀.FusesKept (s.listReads sh) := by
  unfold State.listReads
  refine .foldl hs (fun _ _ ht => ?_)
  split
  · exact .ite ht.reexecBlocks ht
  · exact ht

/-! ### Leaving a shard (R333, R336, R340) -/

theorem State.FusesKept.failRecs {sh : Nat} (hs : s₀.FusesKept s) : s₀.FusesKept (s.failRecs sh) := by
  unfold State.failRecs
  refine .foldl hs (fun _ _ ht => ?_)
  refine .ite ht ?_
  split
  · exact ht.finish
  · exact ht.tenSend
  · exact ht.finish
  · exact ht

theorem State.FusesKept.dropCell {sh : Nat} (hs : s₀.FusesKept s) : s₀.FusesKept (s.dropCell sh) := by
  unfold State.dropCell
  refine .ite hs ?_
  extract_lets s₁ s₂
  have hs₁ : s₀.FusesKept s₁ := hs.failRecs
  have hs₂ : s₀.FusesKept s₂ := hs₁.widxMap.widxReap
  exact hs₂.dropShard.wr

theorem State.FusesKept.loseHold {sh : Nat} (hs : s₀.FusesKept s) : s₀.FusesKept (s.loseHold sh) := by
  unfold State.loseHold
  extract_lets _ _ s₁ s₂ s₃ s₄ s₅ s₆ s₇
  have hs₁ : s₀.FusesKept s₁ := hs.wr
  have hs₂ : s₀.FusesKept s₂ := .foldl hs₁ (fun _ _ ht => ht.lapseCmd)
  have hs₃ : s₀.FusesKept s₃ := hs₂.dropCell.setLeaseX
  have hs₄ : s₀.FusesKept s₄ := hs₃.meterStop.setLeaseSt
  have hs₅ : s₀.FusesKept s₅ := hs₄.tenSend.raise.leaseLossIndication
  have hs₆ : s₀.FusesKept s₆ := hs₅.leaseEvent
  have hs₇ : s₀.FusesKept s₇ := by
    unfold s₇
    split
    · exact hs₆.finish
    · exact hs₆
  split
  · exact hs₇.finish
  · exact hs₇

theorem State.FusesKept.leaveReleased {sh st w status epoch : Nat} (hs : s₀.FusesKept s) :
    s₀.FusesKept (s.leaveReleased sh st w status epoch) := by
  unfold State.leaveReleased
  extract_lets _ _ s₁ s₂ s₃ s₄
  have hs₁ : s₀.FusesKept s₁ := .foldl hs (fun _ _ ht => ht.lapseCmd)
  have hs₂ : s₀.FusesKept s₂ := hs₁.dropCell.setLeaseX
  have hs₃ : s₀.FusesKept s₃ := .ite hs₂.bump hs₂
  have hs₄ : s₀.FusesKept s₄ := hs₃.meterStop.setLeaseSt
  split
  · exact hs₄.finish
  · exact hs₄

theorem State.FusesKept.abdicate {cause : Nat} (hs : s₀.FusesKept s) : s₀.FusesKept (s.abdicate cause) := by
  unfold State.abdicate
  refine .ite hs ?_
  extract_lets _ s₁ s₂ _ s₃ s₄ s₅ s₆
  have hs₁ : s₀.FusesKept s₁ := .foldl hs (fun _ _ ht => ht.loseHold)
  have hs₂ : s₀.FusesKept s₂ := hs₁.wr
  have hs₃ : s₀.FusesKept s₃ := hs₂.setLease
  have hs₄ : s₀.FusesKept s₄ := hs₃.tenSend
  have hs₅ : s₀.FusesKept s₅ := .foldl hs₄ (fun _ _ ht => ht.releaseOn)
  have hs₆ : s₀.FusesKept s₆ := hs₅.raise
  split
  · exact hs₆.setLease.finish
  · exact hs₆

theorem State.FusesKept.railLost {r : Rail} {cause : Nat} (hs : s₀.FusesKept s) :
    s₀.FusesKept (s.railLost r cause) := by
  unfold State.railLost
  extract_lets s₁
  have hs₁ : s₀.FusesKept s₁ := hs.railFailed
  exact .ite hs₁.abdicate hs₁

/-! ### The peer (R329, R336, R339) -/

theorem State.FusesKept.reexecForwarded {p : Nat → Bool} (hs : s₀.FusesKept s) :
    s₀.FusesKept (s.reexecForwarded p) := by
  unfold State.reexecForwarded
  refine .foldl hs (fun _ _ ht => ?_)
  extract_lets
  split
  · exact ht
  · extract_lets _ s₁
    have hs₁ : s₀.FusesKept s₁ := ht.setCmd
    exact .ite ht (.foldl hs₁ (fun _ _ ht₁ => ht₁.listReexec))

theorem State.FusesKept.failUnsent {sh : Nat} (hs : s₀.FusesKept s) : s₀.FusesKept (s.failUnsent sh) := by
  unfold State.failUnsent
  refine .foldl hs (fun _ _ ht => ?_)
  extract_lets
  split
  · exact ht
  · extract_lets _ s₁
    have hs₁ : s₀.FusesKept s₁ := ht.dropQueued
    exact .ite ht hs₁.setCmd.finishIfDone

theorem State.FusesKept.peerGone {sh : Nat} (hs : s₀.FusesKept s) : s₀.FusesKept (s.peerGone sh) :=
  .ite hs.setLeaseSt.failUnsent hs

theorem State.FusesKept.peerLoss (hs : s₀.FusesKept s) : s₀.FusesKept s.peerLoss := by
  unfold State.peerLoss
  extract_lets _ s₁ s₂ s₃ s₄ s₅
  have hs₁ : s₀.FusesKept s₁ := hs.setLease
  have hs₂ : s₀.FusesKept s₂ := hs₁.wr
  have hs₃ : s₀.FusesKept s₃ := .foldl hs₂ (fun _ _ ht => ht.peerGone)
  have hs₄ : s₀.FusesKept s₄ := hs₃.reexecForwarded
  have hs₅ : s₀.FusesKept s₅ := hs₄.raise.leaseEvent
  exact .ite (.foldl hs₅ (fun _ _ ht => .ite ht.startWin ht)) hs₅

theorem State.FusesKept.declareLoss (hs : s₀.FusesKept s) : s₀.FusesKept s.declareLoss :=
  .ite hs.setLease hs.peerLoss

theorem State.FusesKept.peerCheck (hs : s₀.FusesKept s) : s₀.FusesKept s.peerCheck :=
  .ite hs.declareLoss hs

theorem State.FusesKept.linkChanged (hs : s₀.FusesKept s) : s₀.FusesKept s.linkChanged := by
  unfold State.linkChanged
  extract_lets _ _ s₁ _ s₂ _ _ s₃
  have hs₁ : s₀.FusesKept s₁ := hs.wr
  have hs₂ : s₀.FusesKept s₂ := hs₁.setLease
  have hs₃ : s₀.FusesKept s₃ := hs₂.wr.setLease
  exact .ite (.ite hs₃.leaseEvent hs₃) (.ite hs₂ (.foldl hs₂ (fun _ _ ht => ht.peerGone)))

/-! ### Rounds and expiries -/

theorem State.FusesKept.execRenewRound (hs : s₀.FusesKept s) : OutKept s₀ (Machine.execRenewRound s) :=
  .ite (.of_state hs.renewRound) (.of_state hs)

theorem State.FusesKept.execLeaseExpiry {sh : Nat} (hs : s₀.FusesKept s) :
    OutKept s₀ (Machine.execLeaseExpiry sh s) :=
  .ite (.of_state hs.loseHold) (.of_state hs)

theorem State.FusesKept.execLeaseTailEnd {sh : Nat} (hs : s₀.FusesKept s) :
    OutKept s₀ (Machine.execLeaseTailEnd sh s) :=
  .ite (.of_state hs.setLeaseX.listReads) (.of_state hs)

theorem State.FusesKept.execQuietEnd {sh : Nat} (hs : s₀.FusesKept s) : OutKept s₀ (Machine.execQuietEnd sh s) :=
  .ite (.ite (.of_state hs.loseHold) (.of_state hs.setLeaseX.setLeaseSt)) (.of_state hs)

theorem State.FusesKept.execReleaseReadDeadline {sh : Nat} (hs : s₀.FusesKept s) :
    OutKept s₀ (Machine.execReleaseReadDeadline sh s) :=
  .ite (.of_state hs.setLeaseX.listReads) (.of_state hs)

/-! ### The peer's messages (R336) -/

theorem State.FusesKept.noted {sh epoch : Nat} (hs : s₀.FusesKept s) : s₀.FusesKept (s.noted sh epoch) := by
  unfold State.noted
  extract_lets _ s₁ _ s₂
  have hs₁ : s₀.FusesKept s₁ := hs.setLeaseX
  have hs₂ : s₀.FusesKept s₂ := hs₁.wr
  exact .ite (.ite hs₂.setLeaseSt hs₂) hs₁

theorem State.FusesKept.execNote {shards : List (Nat × Nat × Nat)} {running : Bool} (hs : s₀.FusesKept s) :
    OutKept s₀ (Machine.execNote shards running s) :=
  .ite (.of_state hs.received) (.of_state (.foldl hs.received.setLease (fun _ _ ht => ht.noted)))

theorem State.FusesKept.execNoteSilenceExpiry {sh : Nat} (hs : s₀.FusesKept s) :
    OutKept s₀ (Machine.execNoteSilenceExpiry sh s) :=
  .ite (.of_state hs.peerGone) (.of_state hs)

theorem State.FusesKept.execOffer {sh epoch : Nat} (hs : s₀.FusesKept s) :
    OutKept s₀ (Machine.execOffer sh epoch s) :=
  .ite (.of_state hs.received) (.ite (.of_state hs.received.setLeaseX) (.ite (.of_state
    hs.received.setLeaseX.startWin) (.of_state hs.received.setLeaseX.tenSend)))

theorem State.FusesKept.execWon {sh epoch w : Nat} (hs : s₀.FusesKept s) :
    OutKept s₀ (Machine.execWon sh epoch w s) :=
  .ite (.of_state hs.received.wr.leaveReleased) (.of_state hs.received)

theorem State.FusesKept.execRefuse {sh : Nat} (hs : s₀.FusesKept s) : OutKept s₀ (Machine.execRefuse sh s) :=
  .ite (.of_state hs.received.leaveReleased.leaseEvent) (.of_state hs.received)

theorem State.FusesKept.execLost {sh : Nat} (hs : s₀.FusesKept s) : OutKept s₀ (Machine.execLost sh s) :=
  .ite (.of_state hs.received) (.ite (.of_state hs.received.peerGone.reexecForwarded.startWin) (.of_state
    hs.received.peerGone.reexecForwarded))

theorem State.FusesKept.execAbdicate {cause : Nat} (hs : s₀.FusesKept s) :
    OutKept s₀ (Machine.execAbdicate cause s) :=
  .ite (.of_state hs.received.raise.leaseEvent.declareLoss) (.of_state hs.received)

/-! ### Takeover (R341, R342) -/

theorem State.FusesKept.execTakeoverSilenceReached {sh b : Nat} (hs : s₀.FusesKept s) :
    OutKept s₀ (Machine.execTakeoverSilenceReached sh b s) :=
  .ite (.of_state hs.sendEpoch) (.of_state hs)

theorem State.FusesKept.endListed {sh : Nat} (hs : s₀.FusesKept s) : s₀.FusesKept (s.endListed sh) := by
  unfold State.endListed
  extract_lets _ _ s₁
  have hs₁ : s₀.FusesKept s₁ := hs.setLease
  refine .foldl hs₁ (fun _ _ ht => ?_)
  split
  · exact ht.assocLoss
  · exact ht

theorem State.FusesKept.execTakeLimitExpiry {sh : Nat} (hs : s₀.FusesKept s) :
    OutKept s₀ (Machine.execTakeLimitExpiry sh s) := by
  unfold Machine.execTakeLimitExpiry
  refine .ite (.of_state hs) ?_
  refine .ite ?_ (.ite (.of_state hs.leaveReleased) (.of_state hs))
  extract_lets s₁ s₂ s₃ s₄
  have hs₁ : s₀.FusesKept s₁ := hs.releaseOn
  have hs₂ : s₀.FusesKept s₂ := hs₁.setLeaseX
  have hs₃ : s₀.FusesKept s₃ := hs₂.setLeaseSt.raise
  have hs₄ : s₀.FusesKept s₄ := hs₃.endListed
  split
  · exact .of_state hs₄.finish
  · exact .of_state hs₄

/-! ### Heartbeat, watchdog, abdication (R338 to R340) -/

theorem State.FusesKept.execHbOutToggle (hs : s₀.FusesKept s) : OutKept s₀ (Machine.execHbOutToggle s) := by
  unfold Machine.execHbOutToggle
  refine .ite ?_ (.of_state hs)
  refine .of_state ?_
  extract_lets _ src₁
  have hsrc₁ : s₀.FusesKept src₁ := hs.setLease
  exact hsrc₁.upd rfl

theorem State.FusesKept.execHbInEdge (hs : s₀.FusesKept s) : OutKept s₀ (Machine.execHbInEdge s) :=
  .of_state hs.setLease.wr

theorem State.FusesKept.execHbLossExpiry (hs : s₀.FusesKept s) : OutKept s₀ (Machine.execHbLossExpiry s) :=
  .ite (.of_state hs) (.of_state (.peerCheck (.ite hs.wr.raise hs.wr)))

theorem State.FusesKept.execLinkDownHbLossExpiry (hs : s₀.FusesKept s) :
    OutKept s₀ (Machine.execLinkDownHbLossExpiry s) :=
  .of_state hs.peerCheck

theorem State.FusesKept.kick (hs : s₀.FusesKept s) : s₀.FusesKept s.kick :=
  .ite hs.setLease hs

theorem State.FusesKept.execWatchdogKick {origin : Origin} (hs : s₀.FusesKept s) :
    OutKept s₀ (Machine.execWatchdogKick origin s) :=
  .of_state (hs.plainField (fun _ ht => ht.kick))

theorem State.FusesKept.execWatchdogExpiry (hs : s₀.FusesKept s) : OutKept s₀ (Machine.execWatchdogExpiry s) :=
  .ite (.of_state hs.setLease.abdicate) (.of_state hs)

theorem State.FusesKept.execAbdicateWrite {origin : Origin} (hs : s₀.FusesKept s) :
    OutKept s₀ (Machine.execAbdicateWrite origin s) :=
  .of_state (hs.cfgField (fun _ ht => ht.wr.abdicate))

theorem State.FusesKept.execFatalMachineCheck (hs : s₀.FusesKept s) :
    OutKept s₀ (Machine.execFatalMachineCheck s) :=
  .of_state (.abdicate (hs.upd rfl))

/-! ### Drills (R345) -/

theorem State.FusesKept.execDrillDue {sh : Nat} (hs : s₀.FusesKept s) : OutKept s₀ (Machine.execDrillDue sh s) :=
  .ite (.of_state hs.setLeaseX.leaseEvent) (.of_state hs)

theorem State.FusesKept.execDrillGraceExpiry {sh : Nat} (hs : s₀.FusesKept s) :
    OutKept s₀ (Machine.execDrillGraceExpiry sh s) :=
  .ite (.of_state hs.setLeaseX.bump.raise) (.of_state hs)

/-! ### Descriptors (R344, R346, R349) -/

theorem State.FusesKept.leaseDesc {d : DescRef} {op : Nat} {k : Fetched → State} (hs : s₀.FusesKept s)
    (hk : ∀ (a₀ : Fetched), s₀.FusesKept (k a₀)) :
    OutKept s₀ (s.leaseDesc d op k) := by
  unfold State.leaseDesc
  split
  · exact .of_state hs
  · exact .ite (.of_state hs.finish) (.of_state (hk _))

theorem State.FusesKept.execHandoffBegin {d : DescRef} (hs : s₀.FusesKept s) :
    OutKept s₀ (Machine.execHandoffBegin d s) := by
  unfold Machine.execHandoffBegin
  refine hs.leaseDesc (fun _ => ?_)
  extract_lets _ _ s₁
  have hs₁ : s₀.FusesKept s₁ := hs.setLeaseSt
  exact .ite (.ite hs hs.setLeaseX.finish) (.ite hs.finish (.ite hs.finish (.ite hs.finish (.ite
    hs₁.setLeaseX.setPhase hs₁.finish))))

theorem State.FusesKept.execHandoffCommit {d : DescRef} (hs : s₀.FusesKept s) :
    OutKept s₀ (Machine.execHandoffCommit d s) := by
  unfold Machine.execHandoffCommit
  refine hs.leaseDesc (fun _ => ?_)
  extract_lets _ _ s₁
  have hs₁ : s₀.FusesKept s₁ := hs.setLeaseX
  exact .ite hs (.ite hs.finish hs₁.setPhase.releaseOn)

theorem State.FusesKept.releaseAnswered {sh b : Nat} {a : BAns} (hs : s₀.FusesKept s) :
    s₀.FusesKept (s.releaseAnswered sh b a) := by
  unfold State.releaseAnswered
  extract_lets _ _ _ s₁
  have hs₁ : s₀.FusesKept s₁ := hs.setLeaseX
  exact .ite hs (.ite hs₁.tenSend hs₁)

theorem State.FusesKept.execHandoffAbort {d : DescRef} (hs : s₀.FusesKept s) :
    OutKept s₀ (Machine.execHandoffAbort d s) := by
  unfold Machine.execHandoffAbort
  refine hs.leaseDesc (fun _ => ?_)
  extract_lets _ _ s₁ s₂
  have hs₁ : s₀.FusesKept s₁ := hs.setLeaseX.setLeaseSt
  have hs₂ : s₀.FusesKept s₂ := by
    unfold s₂
    split
    · exact hs₁.finish
    · exact hs₁
  exact .ite hs.finish hs₂.finish

theorem State.FusesKept.execTake {d : DescRef} (hs : s₀.FusesKept s) : OutKept s₀ (Machine.execTake d s) := by
  unfold Machine.execTake
  refine hs.leaseDesc (fun _ => ?_)
  extract_lets
  exact .ite hs (.ite hs.finish (.ite hs.finish hs.setPhase.startWin))

theorem State.FusesKept.execDrain {d : DescRef} (hs : s₀.FusesKept s) : OutKept s₀ (Machine.execDrain d s) :=
  hs.leaseDesc (fun _ => .ite hs (.ite hs.finish hs.wr.setLease.setPhase.drainCheck))

theorem State.FusesKept.execUndrain {d : DescRef} (hs : s₀.FusesKept s) : OutKept s₀ (Machine.execUndrain d s) := by
  simp only [Machine.execUndrain]
  refine hs.leaseDesc (fun _ => ?_)
  refine .ite hs ?_
  refine .ite hs.finish ?_
  refine .finish ?_
  split
  · exact hs.wr.setLease.finish
  · exact hs.wr.setLease

theorem State.FusesKept.execEventWait {d : DescRef} (hs : s₀.FusesKept s) :
    OutKept s₀ (Machine.execEventWait d s) := by
  unfold Machine.execEventWait
  refine hs.leaseDesc (fun _ => ?_)
  extract_lets
  split
  · exact hs.setLease.finish
  · exact hs.setPhase

/-! ### Completions and their issuers (R289, R293, R311) -/

theorem State.FusesKept.sideFailed {b n : Nat} {e : Issued} (hs : s₀.FusesKept s) :
    s₀.FusesKept (s.sideFailed b n e) := by
  unfold State.sideFailed
  extract_lets _ s₁ s₂
  have hs₁ : s₀.FusesKept s₁ := hs.setCblade
  have hs₂ : s₀.FusesKept s₂ := hs₁.closeBand
  split
  next t₁ e₁ =>
  have ht₁ : s₀.FusesKept t₁ := .of_snd e₁ hs₂.retireBlock
  exact .ite ht₁ ht₁.cellExhausted

theorem State.FusesKept.bladeDeliver {b : Nat} {e : Issued} {a : BAns} (hs : s₀.FusesKept s) :
    s₀.FusesKept (s.bladeDeliver b e a) := by
  unfold State.bladeDeliver
  extract_lets s₁
  have hs₁ : s₀.FusesKept s₁ := hs.epochRefused
  split
  · exact hs₁.finish
  · exact hs₁.renewAnswered
  · exact hs₁.epochAnswered
  · exact hs₁.releaseAnswered
  · exact hs₁.epochSeen
  · exact hs₁.replicaReport
  · exact .ite hs₁.sideFailed hs₁

theorem State.FusesKept.bladeComplete {b : Nat} {c : BCpl} (hs : s₀.FusesKept s) :
    s₀.FusesKept (s.bladeComplete b c) := by
  unfold State.bladeComplete
  extract_lets _ _ _ _ _ s₁
  have hs₁ : s₀.FusesKept s₁ := hs.setHport.countPort
  refine .ite hs.setHport ?_
  split
  · exact hs₁.bladeDeliver
  · exact hs₁

theorem State.FusesKept.execBladeCompletion {b i : Nat} (hs : s₀.FusesKept s) :
    OutKept s₀ (Machine.execBladeCompletion b i s) := by
  unfold Machine.execBladeCompletion
  extract_lets
  split
  · exact .of_state hs.setHport.bladeComplete
  · exact .of_state hs

theorem State.FusesKept.execCommandTimeoutExpiry {b i : Nat} (hs : s₀.FusesKept s) :
    OutKept s₀ (Machine.execCommandTimeoutExpiry b i s) := by
  unfold Machine.execCommandTimeoutExpiry
  extract_lets
  split
  · exact .of_state hs
  · exact .ite (.of_state hs) (.of_state hs.setHport.countPort.bump.raise.bladeDeliver)

/-! ### Port states (R288, R289) -/

theorem State.FusesKept.setBld {b st : Nat} {n : Option Nat} (hs : s₀.FusesKept s) :
    s₀.FusesKept (s.setBld b st n) :=
  hs.wr.setHport

theorem State.FusesKept.perst {b : Nat} {level : Bool} (hs : s₀.FusesKept s) : s₀.FusesKept (s.perst b level) :=
  hs.upd rfl

theorem State.FusesKept.portDown {b cause : Nat} (hs : s₀.FusesKept s) : s₀.FusesKept (s.portDown b cause) := by
  unfold State.portDown
  extract_lets s₁ s₂ s₃ _ _ s₄ s₅ s₆ s₇ s₈
  have hs₁ : s₀.FusesKept s₁ := .foldl hs (fun _ _ ht => ht.bladeComplete)
  have hs₂ : s₀.FusesKept s₂ := hs₁.setBld.wr.bump
  have hs₃ : s₀.FusesKept s₃ := hs₂.wr.wr.perst
  have hs₄ : s₀.FusesKept s₄ := hs₃.setHport.countPort
  have hs₅ : s₀.FusesKept s₅ := hs₄.cutBladePort
  have hs₆ : s₀.FusesKept s₆ := hs₅.raise.replicasLost
  have hs₇ : s₀.FusesKept s₇ := .foldl hs₆ (fun _ _ ht => ht.bladeDeliver)
  have hs₈ : s₀.FusesKept s₈ := by
    unfold s₈
    refine .foldl hs₇ (fun _ _ ht => ?_)
    extract_lets _ s₉
    have hs₉ : s₀.FusesKept s₉ := .wr (ht.upd rfl)
    exact hs₉.setHport.finish
  exact hs₈.carcUnreachable

theorem State.FusesKept.portReset {b : Nat} (hs : s₀.FusesKept s) : s₀.FusesKept (s.portReset b) :=
  hs.setBld.perst

theorem State.FusesKept.execPrsntChange {b : Fin 16} {low : Bool} (hs : s₀.FusesKept s) :
    OutKept s₀ (Machine.execPrsntChange b low s) :=
  .ite (.of_state hs) (.ite (.of_state (.setHport (.wr (hs.upd rfl)))) (.ite (.of_state (.portDown (.wr (hs.upd
    rfl)))) (.of_state (.wr (hs.upd rfl)))))

theorem State.FusesKept.execPrsntDebounceExpiry {b : Fin 16} (hs : s₀.FusesKept s) :
    OutKept s₀ (Machine.execPrsntDebounceExpiry b s) :=
  .ite (.of_state hs.portReset) (.of_state hs)

theorem State.FusesKept.execPortResetExpiry {b : Fin 16} (hs : s₀.FusesKept s) :
    OutKept s₀ (Machine.execPortResetExpiry b s) :=
  .ite (.of_state hs.setBld.perst) (.of_state hs)

theorem State.FusesKept.portInit {b major : Nat} (hs : s₀.FusesKept s) : s₀.FusesKept (s.portInit b major) := by
  unfold State.portInit
  extract_lets s₁
  have hs₁ : s₀.FusesKept s₁ := hs.setBld
  refine .ite hs₁.portDown ?_
  extract_lets
  split
  · exact hs₁
  · extract_lets
    exact hs₁.setBlade.setHport

theorem State.FusesKept.execBladeLinkTrained {b : Fin 16} {port : Fin 2} {width : Fin 4} {speed32 flit : Bool}
    {major : Nat} (hs : s₀.FusesKept s) :
    OutKept s₀ (Machine.execBladeLinkTrained b port width speed32 flit major s) := by
  unfold Machine.execBladeLinkTrained
  extract_lets _ s₁
  have hs₁ : s₀.FusesKept s₁ := hs.setHport
  split
  · exact .of_state hs
  · exact .ite (.of_state hs) (.ite (.of_state hs.portDown) (.of_state (.portInit (.ite hs₁.setBlade.wr.wr.raise
      hs₁.setBlade.wr.wr))))

theorem State.FusesKept.execBladeTrainingTimeout {b : Fin 16} (hs : s₀.FusesKept s) :
    OutKept s₀ (Machine.execBladeTrainingTimeout b s) :=
  .ite (.of_state hs.portDown) (.of_state hs)

theorem State.FusesKept.execBladeRdyTimeout {b : Fin 16} (hs : s₀.FusesKept s) :
    OutKept s₀ (Machine.execBladeRdyTimeout b s) :=
  .ite (.of_state hs.portDown) (.of_state hs)

theorem State.FusesKept.epochGiven {b sh : Nat} (hs : s₀.FusesKept s) : s₀.FusesKept (s.epochGiven b sh) := by
  unfold State.epochGiven
  split
  next t₁ e₁ =>
  have ht₁ : s₀.FusesKept t₁ := .of_snd e₁ hs.bladeSync
  refine .ite ht₁ ?_
  extract_lets _ _ s₁
  have hs₁ : s₀.FusesKept s₁ := ht₁.setLeaseX
  exact .ite hs₁.epochSeen (.ite hs₁.sendEpoch (.ite hs₁.sendEpoch hs₁))

theorem State.FusesKept.execBladeRdySeen {b : Fin 16} (hs : s₀.FusesKept s) :
    OutKept s₀ (Machine.execBladeRdySeen b s) := by
  unfold Machine.execBladeRdySeen
  extract_lets _ s₁ _ s₂ s₃
  have hs₁ : s₀.FusesKept s₁ := .ite hs.raise hs
  have hs₂ : s₀.FusesKept s₂ := hs₁.setBld.setHport
  have hs₃ : s₀.FusesKept s₃ := hs₂.raise.carcReachable
  split
  · exact .of_state hs
  · exact .ite (.of_state hs) (.of_state (.ite hs₃ (.foldl hs₃ (fun _ _ ht => ht.epochGiven))))

theorem State.FusesKept.execBladeFatalSeen {b : Fin 16} (hs : s₀.FusesKept s) :
    OutKept s₀ (Machine.execBladeFatalSeen b s) := by
  unfold Machine.execBladeFatalSeen
  split
  · exact .of_state hs
  · exact .ite (.of_state hs.setBlade.raise.portDown.carcFailed) (.of_state hs)

theorem State.FusesKept.execDlDown {b : Fin 16} (hs : s₀.FusesKept s) : OutKept s₀ (Machine.execDlDown b s) :=
  .ite (.of_state hs.portDown) (.of_state hs)

theorem State.FusesKept.execUnreachExpiry {b : Fin 16} (hs : s₀.FusesKept s) :
    OutKept s₀ (Machine.execUnreachExpiry b s) :=
  .ite (.of_state hs.portDown) (.of_state hs)

theorem State.FusesKept.execPortDownExpiry {b : Fin 16} (hs : s₀.FusesKept s) :
    OutKept s₀ (Machine.execPortDownExpiry b s) :=
  .ite (.ite (.of_state hs.portReset) (.of_state hs.setBld)) (.of_state hs)

theorem State.FusesKept.portForced {b : Nat} (hs : s₀.FusesKept s) : s₀.FusesKept (s.portForced b) :=
  .ite hs hs.portDown.portReset

theorem State.FusesKept.execPortReset {b : Fin 16} {origin : Origin} (hs : s₀.FusesKept s) :
    OutKept s₀ (Machine.execPortReset b origin s) :=
  .of_state (hs.plainField (fun _ ht => ht.portForced))

/-! ### PASS (R313) -/

theorem State.FusesKept.execPass {d : DescRef} (hs : s₀.FusesKept s) : OutKept s₀ (Machine.execPass d s) := by
  unfold Machine.execPass
  split
  · exact .of_state hs
  · refine .ite (.of_state hs) ?_
    extract_lets
    split
    · exact .of_state hs.finishDma
    · refine .ite (.of_state hs.finish) ?_
      refine .ite (.of_state hs.finish) ?_
      refine .ite (.of_state hs.finish) ?_
      extract_lets
      split
      · next t₁ e₃ =>
          have ht₁ : s₀.FusesKept t₁ := .of_snd e₃ hs.issue
          exact .of_state ht₁
      · next t₁ e₃ =>
          have ht₁ : s₀.FusesKept t₁ := .of_snd e₃ hs.issue
          exact .of_state ht₁.finish

theorem State.FusesKept.setCool {c : Cool} (hs : s₀.FusesKept s) : s₀.FusesKept (s.setCool c) :=
  hs.upd rfl

/-! ### Victims and insertion (R355) -/

theorem State.FusesKept.makeRoom {line mask : Nat} (hs : s₀.FusesKept s) : OptPairKept s₀ (s.makeRoom line mask) := by
  unfold State.makeRoom
  extract_lets
  split
  · exact .none
  · split
    · exact .of_state hs.setCool
    · split
      · split
        · exact .none
        · exact .of_state hs.setCool
      · exact .of_state hs.setCool

theorem State.FusesKept.putLine {k : Nat} {l : CoolLine} (hs : s₀.FusesKept s) : s₀.FusesKept (s.putLine k l) :=
  hs.setCool

/-! ### Serving a request -/

theorem State.FusesKept.l2After {r : CoolReq} (hs : s₀.FusesKept s) : s₀.FusesKept (s.l2After r) := by
  unfold State.l2After
  extract_lets
  split
  · split
    · exact .ite hs hs.setCool
    · exact hs.setCool
  · split
    · exact hs
    · exact hs.setCool

theorem State.FusesKept.serve {r : CoolReq} (hs : s₀.FusesKept s) : s₀.FusesKept (s.serve r) := by
  unfold State.serve
  refine .ite hs ?_
  extract_lets _ s₁ _ s₂ s₃
  have hs₁ : s₀.FusesKept s₁ := hs.l2After
  have hs₂ : s₀.FusesKept s₂ := .ite hs₁.setCool hs₁
  have hs₃ : s₀.FusesKept s₃ := by
    unfold s₃
    refine .ite ?_ hs₁
    split
    · exact hs₁.setCool
    · exact hs₁.setCool
    · exact hs₁
  split
  · exact hs₂.upd rfl
  · exact hs₃.upd rfl

theorem State.FusesKept.coolHit {r : CoolReq} {k : Nat} {l : CoolLine} (hs : s₀.FusesKept s) :
    s₀.FusesKept (s.coolHit r k l) := by
  unfold State.coolHit
  extract_lets s₁
  have hs₁ : s₀.FusesKept s₁ := hs.serve
  exact .ite hs₁.setCool hs₁.putLine

/-! ### Stride prefetch (R356) -/

theorem State.FusesKept.prefetch {part line : Nat} (hs : s₀.FusesKept s) : s₀.FusesKept (s.prefetch part line) := by
  unfold State.prefetch
  extract_lets
  refine .ite hs ?_
  extract_lets
  split
  · exact hs
  · next t₁ e₁ =>
      have ht₁ : s₀.FusesKept t₁ := OptPairKept.state e₁ hs.makeRoom
      exact ht₁.putLine.setCool

theorem State.FusesKept.notePrefetch {p : CoolPort} {line : Nat} (hs : s₀.FusesKept s) :
    s₀.FusesKept (s.notePrefetch p line) := by
  unfold State.notePrefetch
  extract_lets _ s₁
  have hs₁ : s₀.FusesKept s₁ := hs.setCool
  refine .ite hs₁ ?_
  extract_lets
  split
  · exact hs₁
  · extract_lets _ _ s₂
    have hs₂ : s₀.FusesKept s₂ := hs₁.setCool
    exact .foldl hs₂ (fun _ _ ht => ht.prefetch)

/-! ### Hits, misses and merging (R357, R358) -/

theorem State.FusesKept.coolWait {r : CoolReq} (hs : s₀.FusesKept s) : s₀.FusesKept (s.coolWait r) :=
  hs.setCool

theorem State.FusesKept.reinsert {r : CoolReq} {clean : Bool} (hs : s₀.FusesKept s) :
    s₀.FusesKept (s.reinsert r clean) := by
  unfold State.reinsert
  extract_lets
  refine .ite hs.serve ?_
  extract_lets
  split
  · exact hs.coolWait
  · next t₁ e₁ =>
      have ht₁ : s₀.FusesKept t₁ := OptPairKept.state e₁ hs.makeRoom
      extract_lets _ s₁
      have hs₁ : s₀.FusesKept s₁ := ht₁.setCool
      exact hs₁.serve.putLine

theorem State.FusesKept.coolMiss {r : CoolReq} (hs : s₀.FusesKept s) : s₀.FusesKept (s.coolMiss r) := by
  unfold State.coolMiss
  extract_lets
  refine .ite hs.serve ?_
  refine .ite hs.coolWait ?_
  extract_lets
  split
  · exact hs.coolWait
  · next t₁ e₁ =>
      have ht₁ : s₀.FusesKept t₁ := OptPairKept.state e₁ hs.makeRoom
      extract_lets _ s₁
      have hs₁ : s₀.FusesKept s₁ := ht₁.putLine
      exact .ite ht₁.serve.putLine hs₁.setCool

theorem State.FusesKept.coolMerge {r : CoolReq} (hs : s₀.FusesKept s) : s₀.FusesKept (s.coolMerge r) := by
  unfold State.coolMerge
  extract_lets
  split
  · exact hs.coolWait
  · exact .ite hs.coolWait hs.setCool

theorem State.FusesKept.coolRequest {r : CoolReq} (hs : s₀.FusesKept s) : s₀.FusesKept (s.coolRequest r) := by
  unfold State.coolRequest
  split
  · exact .ite hs.coolMerge hs.coolHit
  · exact .ite hs.reinsert hs.coolMiss

theorem State.FusesKept.coolError {k : Nat} {l : CoolLine} {x : CoolErr} (hs : s₀.FusesKept s) :
    s₀.FusesKept (s.coolError k l x).2 := by
  unfold State.coolError
  extract_lets
  split
  · exact hs
  · exact hs.bump
  · exact .ite_snd (.raise (.bump (hs.upd rfl))) hs.bump.setCool
  · exact .ite_snd hs.raise.setCool hs.bump.setCool

theorem State.FusesKept.execCoolerAccess {port : CoolPort} {addr : Nat} {store : Option (List Byte)} {err : CoolErr}
    (hs : s₀.FusesKept s) :
    OutKept s₀ (Machine.execCoolerAccess port addr store err s) := by
  unfold Machine.execCoolerAccess
  refine .ite (.of_state hs) ?_
  refine .ite ?_ ?_
  · refine .of_state ?_
    split
    · exact .ite_snd hs hs.coolError
    · exact hs
  · refine .ite ?_ ?_
    · refine .of_state ?_
      refine .notePrefetch ?_
      refine .coolRequest ?_
      split
      · exact .ite_snd hs hs.coolError
      · exact hs
    · refine .of_state ?_
      refine .coolRequest ?_
      split
      · exact .ite_snd hs hs.coolError
      · exact hs

theorem State.FusesKept.coolRetry (hs : s₀.FusesKept s) : s₀.FusesKept s.coolRetry :=
  .foldl hs.setCool (fun _ _ ht => ht.coolRequest)

theorem State.FusesKept.execCoolerFillDone {line : Nat} {err : DramErr} (hs : s₀.FusesKept s) :
    OutKept s₀ (Machine.execCoolerFillDone line err s) := by
  unfold Machine.execCoolerFillDone
  extract_lets s₁ _ s₂
  have hs₁ : s₀.FusesKept s₁ := hs.ddrFound
  have hs₂ : s₀.FusesKept s₂ := hs₁.setCool
  split
  · exact .of_state hs
  · exact .of_state (.coolRetry (.ite (.putLine (.foldl hs₂ (fun _ _ ht => ht.serve))) (.setCool (.foldl hs₂ (fun _ _
      ht => ht.serve)))))

theorem State.FusesKept.execEvictionWriteAccepted {line : Nat}
    {together : Option (CoolPort × Nat × Option (List Byte))} (hs : s₀.FusesKept s) :
    OutKept s₀ (Machine.execEvictionWriteAccepted line together s) := by
  unfold Machine.execEvictionWriteAccepted
  refine .ite (.of_state hs) ?_
  extract_lets _ out
  have hout : s₀.FusesKept out := hs.setCool
  split
  · exact .of_state hout.coolRetry
  · exact .ite (.of_state hout.serve.coolRetry) (.ite (.of_state hout.coolWait.coolRetry) (.of_state hs.reinsert))

theorem State.FusesKept.execL2Writeback {core line : Nat} (hs : s₀.FusesKept s) :
    OutKept s₀ (Machine.execL2Writeback core line s) := by
  unfold Machine.execL2Writeback
  refine .ite (.of_state hs) ?_
  extract_lets _ s₁
  have hs₁ : s₀.FusesKept s₁ := hs.setCool
  split
  · exact .ite (.of_state hs₁.coolRequest) (.of_state hs₁.putLine)
  · exact .of_state hs₁.coolRequest

/-! ### Maintenance (R360 to R363) -/

theorem State.FusesKept.cleanLines {p : Nat → Bool} (hs : s₀.FusesKept s) : s₀.FusesKept (s.cleanLines p) :=
  hs.setCool

theorem State.FusesKept.flushLines {p : Nat → Bool} (hs : s₀.FusesKept s) : s₀.FusesKept (s.flushLines p) :=
  hs.setCool

theorem State.FusesKept.execCboClean {addr : Nat} (hs : s₀.FusesKept s) :
    OutKept s₀ (Machine.execCboClean addr s) :=
  .of_state hs.cleanLines

theorem State.FusesKept.execCboFlush {addr : Nat} (hs : s₀.FusesKept s) :
    OutKept s₀ (Machine.execCboFlush addr s) :=
  .of_state hs.flushLines

theorem State.FusesKept.execCboInval {addr : Nat} (hs : s₀.FusesKept s) :
    OutKept s₀ (Machine.execCboInval addr s) :=
  .of_state hs.flushLines

theorem State.FusesKept.execCleanRange {d : DescRef} (hs : s₀.FusesKept s) :
    OutKept s₀ (Machine.execCleanRange d s) := by
  unfold Machine.execCleanRange
  split
  · exact .of_state hs
  · refine .ite (.of_state hs.finish) ?_
    split
    · exact .of_state hs.finishDma
    · exact .of_state hs.cleanLines.finish

theorem State.FusesKept.execFlushRange {d : DescRef} (hs : s₀.FusesKept s) :
    OutKept s₀ (Machine.execFlushRange d s) := by
  unfold Machine.execFlushRange
  split
  · exact .of_state hs
  · refine .ite (.of_state hs.finish) ?_
    split
    · exact .of_state hs.finishDma
    · exact .of_state hs.flushLines.finish

theorem State.FusesKept.execCleanAll {d : DescRef} (hs : s₀.FusesKept s) : OutKept s₀ (Machine.execCleanAll d s) := by
  unfold Machine.execCleanAll
  split
  · exact .of_state hs
  · exact .of_state hs.cleanLines.finish

theorem State.FusesKept.execFlushWays {d : DescRef} (hs : s₀.FusesKept s) :
    OutKept s₀ (Machine.execFlushWays d s) := by
  unfold Machine.execFlushWays
  extract_lets
  split
  · exact .of_state hs
  · exact .of_state hs.setCool.finish

theorem State.FusesKept.mapResidue {slice r : Nat} (hs : s₀.FusesKept s) : s₀.FusesKept (s.mapResidue slice r) :=
  hs.wr

theorem State.FusesKept.retireSlice {i t : Nat} (hs : s₀.FusesKept s) : s₀.FusesKept (s.retireSlice i t) := by
  unfold State.retireSlice
  extract_lets _ s₁ s₂ _ s₃ s₄
  have hs₁ : s₀.FusesKept s₁ := hs.flushLines
  have hs₂ : s₀.FusesKept s₂ := .foldl hs₁ (fun _ _ ht => ht.mapResidue)
  have hs₃ : s₀.FusesKept s₃ := hs₂.setCool
  have hs₄ : s₀.FusesKept s₄ := hs₃.wr.raise
  exact .ite hs₄.raise hs₄

theorem State.FusesKept.execSliceRetire {d : DescRef} (hs : s₀.FusesKept s) :
    OutKept s₀ (Machine.execSliceRetire d s) := by
  unfold Machine.execSliceRetire
  extract_lets
  split
  · exact .of_state hs
  · exact .ite (.of_state hs.finish) (.ite (.of_state hs.setCool) (.of_state hs.retireSlice.setCool.finish))

theorem State.FusesKept.execSliceRestore {d : DescRef} (hs : s₀.FusesKept s) :
    OutKept s₀ (Machine.execSliceRestore d s) := by
  unfold Machine.execSliceRestore
  split
  · exact .of_state hs
  · extract_lets
    split
    · exact .of_state hs.finish
    · exact .ite (.of_state hs) (.of_state (.finish (.raise (.wr (.setCool (.foldl hs.flushLines (fun _ _ ht =>
        ht.mapResidue)))))))

theorem State.FusesKept.coolDrained (hs : s₀.FusesKept s) : s₀.FusesKept s.coolDrained := by
  unfold State.coolDrained
  extract_lets _ s₁ s₂
  have hs₁ : s₀.FusesKept s₁ := hs.setCool.wr
  have hs₂ : s₀.FusesKept s₂ := hs₁.raise
  exact .ite hs₂.setCool.wr hs₂

theorem State.FusesKept.coolDisable (hs : s₀.FusesKept s) : s₀.FusesKept s.coolDisable := by
  unfold State.coolDisable
  extract_lets s₁
  have hs₁ : s₀.FusesKept s₁ := hs.wr
  exact .ite hs₁.wr hs₁.setCool

theorem State.FusesKept.execCoolerDisable {origin : Origin} (hs : s₀.FusesKept s) :
    OutKept s₀ (Machine.execCoolerDisable origin s) :=
  .of_state (hs.cfgField (fun _ ht => ht.coolDisable))

theorem State.FusesKept.execCoolerDrainDone (hs : s₀.FusesKept s) : OutKept s₀ (Machine.execCoolerDrainDone s) :=
  .ite (.of_state hs.coolDrained) (.of_state hs)

theorem State.FusesKept.coolEnable (hs : s₀.FusesKept s) : s₀.FusesKept s.coolEnable := by
  unfold State.coolEnable
  extract_lets s₁
  have hs₁ : s₀.FusesKept s₁ := hs.wr
  exact .ite hs₁.wr (.ite hs₁.setCool hs₁)

theorem State.FusesKept.setActiveHalf {h : Half} (hs : s₀.FusesKept s) : s₀.FusesKept (s.setActiveHalf h) :=
  .ite (hs.upd rfl) (hs.upd rfl)

theorem State.FusesKept.drwCounts (hs : s₀.FusesKept s) : s₀.FusesKept s.drwCounts :=
  hs.wr.wr.wr.wr

theorem State.FusesKept.drwCompact (hs : s₀.FusesKept s) : s₀.FusesKept s.drwCompact := by
  unfold State.drwCompact
  extract_lets _ s₁ s₂
  have hs₁ : s₀.FusesKept s₁ := hs.setActiveHalf
  have hs₂ : s₀.FusesKept s₂ := hs₁.wr.wr
  exact hs₂.setActiveHalf.raise

theorem State.FusesKept.drwAppend {r : GroupRec} (hs : s₀.FusesKept s) : s₀.FusesKept (s.drwAppend r) := by
  unfold State.drwAppend
  extract_lets s₁
  have hs₁ : s₀.FusesKept s₁ := .ite hs.drwCompact hs
  exact hs₁.setActiveHalf

theorem State.FusesKept.keepGroup {g format : Nat} {data : List Byte} (hs : s₀.FusesKept s) :
    s₀.FusesKept (s.keepGroup g format data) := by
  unfold State.keepGroup
  extract_lets _ s₁
  have hs₁ : s₀.FusesKept s₁ := hs.drwAppend
  exact .drwCounts (hs₁.upd rfl)

theorem State.FusesKept.execGroupWrite {d : DescRef} {norOk : Bool} (hs : s₀.FusesKept s) :
    OutKept s₀ (Machine.execGroupWrite d norOk s) := by
  unfold Machine.execGroupWrite
  split
  · exact .of_state hs
  · refine .ite (.of_state hs.finish) ?_
    refine .ite (.of_state hs.finish) ?_
    refine .ite (.of_state hs.finish) ?_
    split
    · exact .of_state hs.finishDma
    · exact .ite (.of_state hs.raise.finish) (.of_state hs.keepGroup.finish)

theorem State.FusesKept.execGroupRead {d : DescRef} (hs : s₀.FusesKept s) :
    OutKept s₀ (Machine.execGroupRead d s) := by
  unfold Machine.execGroupRead
  split
  · exact .of_state hs
  · refine .ite (.of_state hs.finish) ?_
    split
    · exact .of_state hs.finish
    · refine .ite (.of_state hs.finish) ?_
      split
      · exact .of_state hs.finishDma
      · next t₁ e₃ =>
          have ht₁ : s₀.FusesKept t₁ := ExcKept.state e₃ hs.dmaWrite
          exact .of_state ht₁.finish

theorem State.FusesKept.execGroupDelete {d : DescRef} {norOk : Bool} (hs : s₀.FusesKept s) :
    OutKept s₀ (Machine.execGroupDelete d norOk s) := by
  unfold Machine.execGroupDelete
  extract_lets
  split
  · exact .of_state hs
  · refine .ite (.of_state hs.finish) ?_
    extract_lets s₁
    have hs₁ : s₀.FusesKept s₁ := hs.upd rfl
    split
    · exact .of_state hs.finish
    · exact .ite (.of_state hs.raise.finish) (.of_state hs₁.drwAppend.drwCounts.finish)

/-! ### Restoring (R500, R501) -/

theorem State.FusesKept.drwRestore {warm : Bool} (hs : s₀.FusesKept s) : s₀.FusesKept (s.drwRestore warm) := by
  unfold State.drwRestore
  refine .ite hs.wr.wr.drwCounts ?_
  extract_lets
  split
  · exact .drwCounts (.wr (hs.upd rfl))
  · extract_lets _ s₁
    have hs₁ : s₀.FusesKept s₁ := hs.wr.wr
    exact .drwCounts (.wr (hs₁.upd rfl))

/-! ### What every opcode checks first -/

theorem State.FusesKept.secDesc {d : DescRef} {op : Nat} {keys kek : Bool} {k : Fetched → State} (hs : s₀.FusesKept s)
    (hk : ∀ (a₀ : Fetched), s₀.FusesKept (k a₀)) :
    OutKept s₀ (s.secDesc d op keys kek k) := by
  unfold State.secDesc
  split
  · exact .of_state hs
  · exact .ite (.of_state hs) (.ite (.of_state hs.finish) (.ite (.of_state hs.finish) (.of_state (hk _))))

theorem State.FusesKept.secRead {d : DescRef} {a n : Nat} {k : List Byte → State} (hs : s₀.FusesKept s)
    (hk : ∀ (a₀ : List Byte), s₀.FusesKept (k a₀)) :
    s₀.FusesKept (s.secRead d a n k) := by
  unfold State.secRead
  split
  · exact hk _
  · exact hs.finishDma

theorem State.FusesKept.secWrite {d : DescRef} {a : Nat} {bs : List Byte} {k : State → State} (hs : s₀.FusesKept s)
    (hk : ∀ (t : State), s₀.FusesKept t → s₀.FusesKept (k t)) :
    s₀.FusesKept (s.secWrite d a bs k) := by
  unfold State.secWrite
  split
  · next t₁ e₁ =>
      have ht₁ : s₀.FusesKept t₁ := ExcKept.state e₁ hs.dmaWrite
      exact hk _ ht₁
  · exact hs.finishDma

theorem State.FusesKept.drbg (hs : s₀.FusesKept s) : s₀.FusesKept s.drbg := by
  unfold State.drbg
  extract_lets src
  have hsrc : s₀.FusesKept src := hs.draw
  exact hsrc.upd rfl

theorem State.FusesKept.execRandom {d : DescRef} (hs : s₀.FusesKept s) : OutKept s₀ (Machine.execRandom d s) :=
  hs.secDesc (fun _ => .ite hs.finish (.ite hs.finish (hs.drbg.secWrite (fun _ ht => ht.finish))))

/-! ### Keys (R389 to R392, R396) -/

theorem State.FusesKept.installKey {d : DescRef} {cls index tenant : Nat} {key : List Byte} {kekId : Nat}
    {wrapped : List Byte} {k : Nat → State → State} (hs : s₀.FusesKept s) (hk : ∀ (a₀ : Nat)
    (t : State), s₀.FusesKept t → s₀.FusesKept (k a₀ t)) :
    s₀.FusesKept (s.installKey d cls index tenant key kekId wrapped k) :=
  .ite (hs.tableThen (fun _ ht => hk _ _ ht)) (hk _ _ hs.setSlot)

theorem State.FusesKept.execKeyGen {d : DescRef} (hs : s₀.FusesKept s) : OutKept s₀ (Machine.execKeyGen d s) := by
  unfold Machine.execKeyGen
  refine hs.secDesc (fun _ => ?_)
  extract_lets
  refine .ite hs.finish ?_
  refine .ite hs.finish ?_
  refine .ite hs.finish ?_
  refine .ite hs.finish ?_
  refine .ite hs.finish ?_
  split
  exact hs.drbg.secWrite (fun _ ht => ht.installKey (fun _ _ ht₁ => ht₁.finish))

theorem State.FusesKept.execKeyLoad {d : DescRef} (hs : s₀.FusesKept s) : OutKept s₀ (Machine.execKeyLoad d s) := by
  unfold Machine.execKeyLoad
  refine hs.secDesc (fun _ => ?_)
  extract_lets
  refine .ite hs.finish ?_
  refine .ite hs.finish ?_
  refine .ite hs.finish ?_
  refine .ite hs.finish ?_
  refine hs.secRead (fun _ => ?_)
  split
  · exact hs.finish
  · exact hs.installKey (fun _ _ ht => ht.finish)

theorem State.FusesKept.execKeyDestroy {d : DescRef} (hs : s₀.FusesKept s) :
    OutKept s₀ (Machine.execKeyDestroy d s) :=
  hs.secDesc (fun _ => .ite hs.finish (.ite hs.finish (.ite (hs.tableThen (fun _ ht => ht.evictKey.raise.finish))
    hs.setSlot.raise.finish)))

theorem State.FusesKept.execKeyExport {d : DescRef} (hs : s₀.FusesKept s) :
    OutKept s₀ (Machine.execKeyExport d s) := by
  unfold Machine.execKeyExport
  refine hs.secDesc (fun _ => ?_)
  extract_lets
  exact .ite hs.finish (.ite hs.finish (.ite hs.finish (hs.secWrite (fun _ ht => ht.finish))))

/-! ### The array KEK and pairing (R392, R393) -/

theorem State.FusesKept.setKek {id : Nat} {kek : List Byte} (hs : s₀.FusesKept s) :
    s₀.FusesKept (s.setKek id kek) := by
  unfold State.setKek
  extract_lets src
  have hsrc : s₀.FusesKept src := hs.wr
  exact hsrc.upd rfl

theorem State.FusesKept.execKekCreate {d : DescRef} (hs : s₀.FusesKept s) :
    OutKept s₀ (Machine.execKekCreate d s) := by
  unfold Machine.execKekCreate
  refine hs.secDesc (fun _ => ?_)
  refine .ite hs.finish ?_
  refine .ite hs.finish ?_
  refine .ite hs.finish ?_
  extract_lets
  exact hs.drbg.secWrite (fun _ ht => ht.setKek.finish)

theorem State.FusesKept.execKekUnseal {d : DescRef} (hs : s₀.FusesKept s) :
    OutKept s₀ (Machine.execKekUnseal d s) := by
  unfold Machine.execKekUnseal
  refine hs.secDesc (fun _ => ?_)
  refine .ite hs.finish ?_
  refine hs.secRead (fun _ => ?_)
  split
  · exact hs.finish
  · exact hs.setKek.finish

theorem State.FusesKept.execPairOffer {d : DescRef} (hs : s₀.FusesKept s) :
    OutKept s₀ (Machine.execPairOffer d s) := by
  unfold Machine.execPairOffer
  refine hs.secDesc (fun _ => ?_)
  refine .ite hs.finish ?_
  refine .ite hs.finish ?_
  extract_lets
  exact hs.drbg.secWrite (fun _ ht => .finish (ht.upd rfl))

theorem State.FusesKept.execPairSend {d : DescRef} {certKey : Option (List (BitVec 8))} (hs : s₀.FusesKept s) :
    OutKept s₀ (Machine.execPairSend d certKey s) := by
  unfold Machine.execPairSend
  refine hs.secDesc (fun _ => ?_)
  refine .ite hs.finish ?_
  refine .ite hs.finish ?_
  extract_lets
  split
  · exact hs.finish
  · refine hs.secRead (fun _ => ?_)
    refine hs.secRead (fun _ => ?_)
    extract_lets
    exact .ite hs.finish (hs.drbg.secWrite (fun _ ht => ht.finish))

theorem State.FusesKept.dropPairKey (hs : s₀.FusesKept s) : s₀.FusesKept s.dropPairKey :=
  hs.upd rfl

theorem State.FusesKept.execPairReceive {d : DescRef} {certKey : Option (List (BitVec 8))} (hs : s₀.FusesKept s) :
    OutKept s₀ (Machine.execPairReceive d certKey s) := by
  unfold Machine.execPairReceive
  refine hs.secDesc (fun _ => ?_)
  refine .dropPairKey ?_
  refine .ite hs.finish ?_
  refine .ite hs.finish ?_
  refine hs.secRead (fun _ => ?_)
  refine hs.secRead (fun _ => ?_)
  extract_lets
  split
  · extract_lets
    split
    · exact hs.finish
    · exact hs.secWrite (fun _ ht => ht.setKek.finish)
  · exact hs.finish

/-! ### Locks and tokens (R397) -/

theorem State.FusesKept.setLocks {mask v : Nat} (hs : s₀.FusesKept s) : s₀.FusesKept (s.setLocks mask v) := by
  unfold State.setLocks
  extract_lets _ _ s₁
  have hs₁ : s₀.FusesKept s₁ := .foldl hs (fun _ _ ht => ht.wr)
  exact .ite hs₁.raise hs₁

theorem State.FusesKept.execLockSet {d : DescRef} (hs : s₀.FusesKept s) : OutKept s₀ (Machine.execLockSet d s) :=
  hs.secDesc (fun _ => hs.setLocks.finish)

theorem State.FusesKept.newNonce (hs : s₀.FusesKept s) : s₀.FusesKept s.newNonce :=
  hs.draw.wr

theorem State.FusesKept.tokenRejected {d : DescRef} (hs : s₀.FusesKept s) : s₀.FusesKept (s.tokenRejected d) :=
  hs.raise.finish

theorem State.FusesKept.execLockClear {d : DescRef} (hs : s₀.FusesKept s) :
    OutKept s₀ (Machine.execLockClear d s) := by
  unfold Machine.execLockClear
  refine hs.secDesc (fun _ => ?_)
  extract_lets
  exact .ite hs.newNonce.setLocks.finish (.ite hs.newNonce.finish (hs.newNonce.secRead (fun _ => .ite
    hs.newNonce.setLocks.finish hs.newNonce.tokenRejected)))

/-! ### Attestation, certificates, lifecycle (R385, R386, R399) -/

theorem State.FusesKept.execAttest {d : DescRef} (hs : s₀.FusesKept s) : OutKept s₀ (Machine.execAttest d s) := by
  unfold Machine.execAttest
  refine hs.secDesc (fun _ => ?_)
  extract_lets
  refine .ite hs.finish ?_
  refine hs.secRead (fun _ => ?_)
  extract_lets
  exact hs.secWrite (fun _ ht => ht.finish)

theorem State.FusesKept.execCertRead {d : DescRef} (hs : s₀.FusesKept s) : OutKept s₀ (Machine.execCertRead d s) :=
  hs.secDesc (fun _ => .ite hs.finish (hs.draw.secWrite (fun _ ht => ht.finish)))

theorem State.FusesKept.lifeAccept {d : DescRef} {target token : Nat} (hs : s₀.FusesKept s) :
    s₀.FusesKept (s.lifeAccept d target token) := by
  unfold State.lifeAccept
  extract_lets _ _ s₁ s₂
  have hs₁ : s₀.FusesKept s₁ := hs.upd rfl
  have hs₂ : s₀.FusesKept s₂ := hs₁.stage
  exact hs₂.raise.finish

theorem State.FusesKept.execLifecycleAdvance {d : DescRef} (hs : s₀.FusesKept s) :
    OutKept s₀ (Machine.execLifecycleAdvance d s) := by
  unfold Machine.execLifecycleAdvance
  refine hs.secDesc (fun _ => ?_)
  extract_lets
  exact .ite hs.finish (.ite (.ite hs.lifeAccept hs.finish) (.ite hs.finish (hs.secRead (fun _ => .ite hs.lifeAccept
    hs.tokenRejected))))

/-! ### Entropy and JTAG (R386, R394) -/

theorem State.FusesKept.execEntropyHealthFail {proportion : Bool} (hs : s₀.FusesKept s) :
    OutKept s₀ (Machine.execEntropyHealthFail proportion s) :=
  .ite (.of_state hs) (.of_state hs.wr.wr.raise)

theorem State.FusesKept.execDrbgReseed (hs : s₀.FusesKept s) : OutKept s₀ (Machine.execDrbgReseed s) :=
  .ite (.of_state hs) (.of_state (.bump (hs.upd rfl)))

theorem State.FusesKept.execJtagInstruction {insn : TapInsn} (hs : s₀.FusesKept s) :
    OutKept s₀ (Machine.execJtagInstruction insn s) :=
  .of_state (hs.upd rfl)

theorem State.FusesKept.frameToFirmware {fr : List Byte} (hs : s₀.FusesKept s) :
    s₀.FusesKept (s.frameToFirmware fr) := by
  unfold State.frameToFirmware
  split
  · exact hs.bump
  · split
    · exact hs.finishDma
    · next t₁ e₂ =>
        have ht₁ : s₀.FusesKept t₁ := ExcKept.state e₂ hs.dmaWrite
        exact ht₁.finish

theorem State.FusesKept.execMgtFrameRx {frame : List Byte} (hs : s₀.FusesKept s) :
    OutKept s₀ (Machine.execMgtFrameRx frame s) := by
  unfold Machine.execMgtFrameRx
  refine .ite (.of_state hs) ?_
  extract_lets
  split
  · exact .ite (.of_state (hs.upd rfl)) (.of_state hs)
  · refine .ite (.of_state hs.frameToFirmware) ?_
    split
    · exact .of_state (hs.upd rfl)
    · exact .of_state hs

theorem State.FusesKept.execMgtLinkChange {up gig : Bool} (hs : s₀.FusesKept s) :
    OutKept s₀ (Machine.execMgtLinkChange up gig s) :=
  .ite (.of_state hs) (.of_state hs.wr.wr.raise)

theorem State.FusesKept.execFrameTx {d : DescRef} (hs : s₀.FusesKept s) : OutKept s₀ (Machine.execFrameTx d s) := by
  unfold Machine.execFrameTx
  extract_lets
  split
  · exact .of_state hs
  · refine .ite (.of_state hs.finish) ?_
    split
    · exact .of_state hs.finishDma
    · exact .of_state (.finish (hs.upd rfl))

theorem State.FusesKept.execFrameRxBuf {d : DescRef} (hs : s₀.FusesKept s) :
    OutKept s₀ (Machine.execFrameRxBuf d s) := by
  unfold Machine.execFrameRxBuf
  split
  · exact .of_state hs
  · exact .ite (.of_state hs.finish) (.of_state hs.setPhase)

theorem State.FusesKept.execWallClockApply {ref : Word} (hs : s₀.FusesKept s) :
    OutKept s₀ (Machine.execWallClockApply ref s) :=
  .of_state hs.wr.wr.wr.wr

/-! ### Chunk vectors (R232) -/

theorem State.FusesKept.carcStore {ring : Nat} {l : List (Nat × List Byte)} (hs : s₀.FusesKept s) :
    ExcKept s₀ (s.carcStore ring l) := by
  induction l generalizing s ring with
  | nil =>
    unfold State.carcStore
    exact .of_state hs
  | cons a l ih =>
    unfold State.carcStore
    split
    · exact .error
    · next t₁ e₁ =>
        have ht₁ : s₀.FusesKept t₁ := ExcKept.state e₁ hs.dmaWrite
        exact ih ht₁

theorem State.FusesKept.carcJob {d : DescRef} {f : Fetched} {n : Nat} {named : Nat → Bool} {reads : List Nat}
    {k : List (List Byte) → List (Nat × List Byte) × Nat × Nat} (hs : s₀.FusesKept s) :
    s₀.FusesKept (s.carcJob d f n named reads k) := by
  unfold State.carcJob
  split
  · exact hs.finish
  · exact hs.finishDma
  · split
    · exact hs.finishDma
    · split
      split
      · exact hs.finishDma
      · next t₁ e₄ =>
          have ht₁ : s₀.FusesKept t₁ := ExcKept.state e₄ hs.carcStore
          exact ht₁.finish

theorem State.FusesKept.carcStarted {d : DescRef} {op : Nat} {k : Fetched → State} (hs : s₀.FusesKept s)
    (hk : ∀ (a₀ : Fetched), s₀.FusesKept (k a₀)) :
    OutKept s₀ (s.carcStarted d op k) := by
  unfold State.carcStarted
  split
  · exact .of_state hs
  · split
    · exact .of_state hs.finish
    · exact .of_state (.ite (hk _) hs)

theorem State.FusesKept.execEncode {d : DescRef} (hs : s₀.FusesKept s) : OutKept s₀ (Machine.execEncode d s) := by
  unfold Machine.execEncode
  refine hs.carcStarted (fun _ => ?_)
  extract_lets
  exact hs.carcJob

theorem State.FusesKept.execDecode {d : DescRef} (hs : s₀.FusesKept s) : OutKept s₀ (Machine.execDecode d s) := by
  unfold Machine.execDecode
  refine hs.carcStarted (fun _ => ?_)
  extract_lets
  exact .ite hs.finish (.ite hs.finish hs.carcJob)

theorem State.FusesKept.execPatchDelta {d : DescRef} (hs : s₀.FusesKept s) :
    OutKept s₀ (Machine.execPatchDelta d s) := by
  unfold Machine.execPatchDelta
  refine hs.carcStarted (fun _ => ?_)
  extract_lets
  exact .ite hs.finish hs.carcJob

theorem State.FusesKept.execVerify {d : DescRef} (hs : s₀.FusesKept s) : OutKept s₀ (Machine.execVerify d s) := by
  unfold Machine.execVerify
  refine hs.carcStarted (fun _ => ?_)
  extract_lets
  exact hs.carcJob

/-! ### LOCATE (R211, R233) -/

theorem State.FusesKept.execLocate {d : DescRef} (hs : s₀.FusesKept s) : OutKept s₀ (Machine.execLocate d s) := by
  unfold Machine.execLocate
  split
  · exact .of_state hs
  · exact .ite (.of_state hs.finish) (.ite (.of_state hs.finish) (.ite (.of_state hs.finish) (.of_state hs.finish)))

/-! ### Intents (R219) -/

theorem State.FusesKept.execIntentAcquire {d : DescRef} {ms : List Medium} (hs : s₀.FusesKept s) :
    OutKept s₀ (Machine.execIntentAcquire d ms s) := by
  unfold Machine.execIntentAcquire
  split
  · exact .of_state hs
  · extract_lets
    split
    · exact .of_state hs.finish
    · refine .ite (.of_state hs.finish) ?_
      refine .of_state ?_
      refine hs.scripted (fun _ ht => ?_)
      split
      · next t₂ e₃ =>
          have ht₂ : s₀.FusesKept t₂ := .of_snd e₃ ht.acquire
          exact ht₂.finish
      · next e₃ => exact .of_snd e₃ ht.acquire

theorem State.FusesKept.execIntentRelease {d : DescRef} (hs : s₀.FusesKept s) :
    OutKept s₀ (Machine.execIntentRelease d s) := by
  unfold Machine.execIntentRelease
  split
  · exact .of_state hs
  · split
    · exact .of_state hs.finish
    · split
      · next t₁ e₃ =>
          have ht₁ : s₀.FusesKept t₁ := .of_snd e₃ hs.giveBack
          exact .of_state ht₁.finish
      · next t₁ e₃ =>
          have ht₁ : s₀.FusesKept t₁ := .of_snd e₃ hs.giveBack
          exact .of_state ht₁.finish

/-! ### REBUILD_CTL and GEN_SET (R209, R217) -/

theorem State.FusesKept.rebuildAction {b action : Nat} (hs : s₀.FusesKept s) :
    OptKept s₀ (s.rebuildAction b action) := by
  unfold State.rebuildAction
  extract_lets
  split
  · split
    · exact .of_state hs.startRebuild
    · exact .none
  · split
    · split
      · exact .of_state hs.wr
      · exact .none
    · split
      · split
        · exact .of_state hs.wr
        · exact .none
      · split
        · split
          · exact .of_state hs.setCarc.wr
          · exact .none
        · split
          · split
            · exact .of_state hs.bladeLost
            · exact .none
          · split
            · split
              · exact .of_state hs.bladeLost
              · exact .none
            · exact .none

theorem State.FusesKept.execRebuildCtl {d : DescRef} (hs : s₀.FusesKept s) :
    OutKept s₀ (Machine.execRebuildCtl d s) := by
  unfold Machine.execRebuildCtl
  split
  · exact .of_state hs
  · refine .ite (.of_state hs.finish) ?_
    split
    · exact .of_state hs.finish
    · next t₁ e₂ =>
        have ht₁ : s₀.FusesKept t₁ := OptKept.state e₂ hs.rebuildAction
        exact .of_state ht₁.finish

theorem State.FusesKept.forgetRetired (hs : s₀.FusesKept s) : s₀.FusesKept s.forgetRetired :=
  .foldl hs (fun _ _ ht => .ite ht.wr ht)

theorem State.FusesKept.execGenSet {d : DescRef} (hs : s₀.FusesKept s) : OutKept s₀ (Machine.execGenSet d s) := by
  unfold Machine.execGenSet
  split
  · exact .of_state hs
  · refine .ite (.of_state hs.finish) ?_
    refine .ite (.of_state hs.finish) ?_
    split
    · exact .of_state hs.finishDma
    · exact .ite (.of_state hs.finish) (.ite (.of_state (hs.tableThen (fun _ ht => ht.forgetRetired.finish))) (.ite
        (.of_state hs.finish) (.of_state (hs.tableThen (fun _ ht => .finish (.ite ht.forgetRetired.makeCurrent
        ht.forgetRetired))))))

/-! ### Stripes on the medium -/

theorem State.FusesKept.stripeCols {w : Wheel} {st : Nat} (hs : s₀.FusesKept s) :
    s₀.FusesKept (s.stripeCols w st).2 := by
  unfold State.stripeCols
  refine .foldl_snd hs (fun _ _ ht => ?_)
  split
  · next e₁ => exact .of_snd e₁ ht.colRead
  · next e₁ => exact .of_snd e₁ ht.colRead

theorem State.FusesKept.repaired {w : Wheel} {st c : Nat} {patrol : Bool} (hs : s₀.FusesKept s) :
    s₀.FusesKept (s.repaired w st c patrol) := by
  unfold State.repaired
  extract_lets s₁
  have hs₁ : s₀.FusesKept s₁ := .ite hs.bump hs
  exact hs₁.raise

theorem State.FusesKept.journalRemap {sh : Nat} {w : Wheel} {st c b : Nat} {lost : Bool} (hs : s₀.FusesKept s) :
    s₀.FusesKept (s.journalRemap sh w st c b lost) :=
  hs.journal

theorem State.FusesKept.restoreChunk {sh wheel st c : Nat} {d : List Byte} (hs : s₀.FusesKept s) :
    s₀.FusesKept (s.restoreChunk sh wheel st c d).2 := by
  unfold State.restoreChunk
  split
  · exact hs
  · extract_lets
    refine .ite_snd ?_ ?_
    · split
      · next t₁ e₂ =>
          have ht₁ : s₀.FusesKept t₁ := .of_snd e₂ hs.rewriteCols
          exact ht₁.repaired
      · next e₂ => exact .of_snd e₂ hs.rewriteCols
    · refine .ite_snd hs ?_
      extract_lets
      split
      · exact hs
      · split
        · next e₃ => exact .of_snd e₃ hs.writeChunk
        · next t₁ e₃ =>
            have ht₁ : s₀.FusesKept t₁ := .of_snd e₃ hs.writeChunk
            extract_lets s₁ s₂
            have hs₁ : s₀.FusesKept s₁ := ht₁.journalMove
            have hs₂ : s₀.FusesKept s₂ := hs₁.setLoc.journalRemap
            exact hs₂.setCarc

theorem State.FusesKept.stripeLost {sh : Nat} {w : Wheel} {st : Nat} {cols : List Nat} (hs : s₀.FusesKept s) :
    s₀.FusesKept (s.stripeLost sh w st cols) := by
  unfold State.stripeLost
  extract_lets _ s₁
  have hs₁ : s₀.FusesKept s₁ := .foldl hs (fun _ _ ht => ht.journalRemap)
  exact hs₁.countLost.raise

theorem State.FusesKept.rebuildRefold {sh wheel : Nat} {w : Wheel} (hs : s₀.FusesKept s) :
    s₀.FusesKept (s.rebuildRefold sh wheel w) :=
  .ite hs hs.reclaim

theorem State.FusesKept.rebuildStripe {sh wheel st : Nat} {evac : Option Nat} (hs : s₀.FusesKept s) :
    s₀.FusesKept (s.rebuildStripe sh wheel st evac) := by
  unfold State.rebuildStripe
  split
  · exact hs
  · extract_lets
    split
    next t₁ e₃ =>
    have ht₁ : s₀.FusesKept t₁ := .of_snd e₃ hs.stripeCols
    extract_lets
    refine .ite (.ite ht₁ ht₁.stripeLost) ?_
    refine .ite ht₁ ?_
    split
    next t₂ e₄ =>
    have ht₂ : s₀.FusesKept t₂ := by
      refine .of_snd e₄ ?_
      refine .foldl_snd ht₁ (fun _ _ ht => ?_)
      split
      next e₅ => exact .of_snd e₅ ht.restoreChunk
    exact .ite ht₂ ht₂.rebuildRefold

/-! ### Rebuild (R227 to R230) -/

theorem State.FusesKept.countStripe {b sh wheel : Nat} (hs : s₀.FusesKept s) :
    s₀.FusesKept (s.countStripe b sh wheel) := by
  unfold State.countStripe
  extract_lets
  split
  · exact hs
  · extract_lets _ _ s₁
    have hs₁ : s₀.FusesKept s₁ := hs.setCarc
    exact .ite hs₁.journal hs₁

theorem State.FusesKept.execRebuildStripe {b : Fin 16} {ms : List Medium} (hs : s₀.FusesKept s) :
    OutKept s₀ (Machine.execRebuildStripe b ms s) := by
  unfold Machine.execRebuildStripe
  refine .ite (.of_state hs) ?_
  refine .of_state ?_
  refine hs.scripted (fun _ ht => ?_)
  extract_lets s₁
  have hs₁ : s₀.FusesKept s₁ := by
    unfold s₁
    split
    · exact ht
    · exact ht.rebuildStripe.countStripe
  exact hs₁.countRebuild.retireDone

theorem State.FusesKept.rebuildOn (hs : s₀.FusesKept s) : s₀.FusesKept s.rebuildOn := by
  unfold State.rebuildOn
  extract_lets s₁
  have hs₁ : s₀.FusesKept s₁ := hs.wr
  exact .foldl hs₁ (fun _ _ ht => ht.startRebuild)

theorem State.FusesKept.execRebuildEnSet {origin : Origin} (hs : s₀.FusesKept s) :
    OutKept s₀ (Machine.execRebuildEnSet origin s) :=
  .of_state (hs.cfgField (fun _ ht => ht.rebuildOn))

theorem State.FusesKept.execGraceExpiry {b : Fin 16} (hs : s₀.FusesKept s) :
    OutKept s₀ (Machine.execGraceExpiry b s) :=
  .ite (.of_state hs.bladeLost) (.of_state hs)

/-! ### Resynchronisation (R222) -/

theorem State.FusesKept.resyncStripe {sh wheel st : Nat} (hs : s₀.FusesKept s) :
    s₀.FusesKept (s.resyncStripe sh wheel st).2 := by
  unfold State.resyncStripe
  split
  · exact hs
  · extract_lets
    split
    next t₁ e₃ =>
    have ht₁ : s₀.FusesKept t₁ := .of_snd e₃ hs.stripeCols
    split
    next t₂ e₄ =>
    have ht₂ : s₀.FusesKept t₂ := .of_snd e₄ ht₁.stripeCols
    extract_lets _ _ _ s₁ s₂ _ _ s₃
    have hs₁ : s₀.FusesKept s₁ := ht₂.setWheel
    have hs₂ : s₀.FusesKept s₂ := .foldl hs₁ (fun _ _ ht => ht.killUnit)
    have hs₃ : s₀.FusesKept s₃ := .foldl hs₂ (fun _ _ ht => ht.restoreChunk)
    exact .ite_snd ht₂ (.ite_snd hs₃ hs₃.rewriteCols)

theorem State.FusesKept.resyncRegion {sh pool region : Nat} (hs : s₀.FusesKept s) :
    s₀.FusesKept (s.resyncRegion sh pool region).2 := by
  unfold State.resyncRegion
  split
  next t₁ e₁ =>
  have ht₁ : s₀.FusesKept t₁ := by
    refine .of_snd e₁ ?_
    refine .foldl_snd hs (fun _ _ ht => ?_)
    refine .foldl_snd ht (fun _ _ ht₁ => ?_)
    split
    next e₂ => exact .of_snd e₂ ht₁.resyncStripe
  exact ht₁.setCarc

theorem State.FusesKept.execResyncRegion {shard : Fin 256} {pool : Fin 16} {region : Nat} {ms : List Medium}
    (hs : s₀.FusesKept s) :
    OutKept s₀ (Machine.execResyncRegion shard pool region ms s) := by
  unfold Machine.execResyncRegion
  refine .ite (.of_state hs) ?_
  refine .of_state ?_
  refine hs.scripted (fun _ ht => ?_)
  extract_lets _ s₁
  have hs₁ : s₀.FusesKept s₁ := ht.resyncRegion
  exact .ite hs₁.raise hs₁

theorem State.FusesKept.resyncRegions {sh pool : Nat} {rs : List Nat} (hs : s₀.FusesKept s) :
    s₀.FusesKept (s.resyncRegions sh pool rs).2 := by
  unfold State.resyncRegions
  refine .foldl_snd hs (fun _ _ ht => ?_)
  split
  next e₁ => exact .of_snd e₁ ht.resyncRegion

theorem State.FusesKept.execResync {d : DescRef} {ms : List Medium} (hs : s₀.FusesKept s) :
    OutKept s₀ (Machine.execResync d ms s) := by
  unfold Machine.execResync
  split
  · exact .of_state hs
  · extract_lets
    split
    · exact .of_state hs.finish
    · refine .of_state ?_
      refine hs.scripted (fun _ ht => ?_)
      extract_lets
      split
      next t₂ e₃ =>
      have ht₂ : s₀.FusesKept t₂ := .of_snd e₃ ht.resyncRegions
      exact ht₂.raise.finish

theorem State.FusesKept.flushPage {p : Nat × Nat × Nat} (hs : s₀.FusesKept s) : s₀.FusesKept (s.flushPage p) := by
  unfold State.flushPage
  extract_lets s1
  have hs1 : s₀.FusesKept s1 := hs.clearBits
  split
  · next e₁ => exact .of_snd e₁ hs1.putIntents
  · next t₁ e₁ =>
      have ht₁ : s₀.FusesKept t₁ := .of_snd e₁ hs1.putIntents
      exact ht₁.setCarc

theorem State.FusesKept.execIntentFlush {ms : List Medium} (hs : s₀.FusesKept s) :
    OutKept s₀ (Machine.execIntentFlush ms s) := by
  unfold Machine.execIntentFlush
  refine .ite (.of_state hs) ?_
  refine .of_state ?_
  refine hs.scripted (fun _ ht => ?_)
  extract_lets _ s₁
  have hs₁ : s₀.FusesKept s₁ := ht.setCarc
  exact .foldl hs₁ (fun _ _ ht₁ => ht₁.flushPage)

/-! ### The patrol (R224, R225) -/

theorem State.FusesKept.deepStripe {sh wheel st : Nat} (hs : s₀.FusesKept s) :
    s₀.FusesKept (s.deepStripe sh wheel st) := by
  unfold State.deepStripe
  split
  · exact hs
  · extract_lets
    refine .foldl hs (fun _ _ ht => ?_)
    split
    · next e₂ => exact .of_snd e₂ ht.copyCurd
    · next t₂ e₂ =>
        have ht₂ : s₀.FusesKept t₂ := .of_snd e₂ ht.copyCurd
        split
        · exact ht₂.headLost
        · next t₃ e₃ =>
            have ht₃ : s₀.FusesKept t₃ := OptKept.state e₃ ht₂.useDicts
            split
            · exact ht₃
            · exact .ite ht₃.curdEvent.repairCopy ht₃

theorem State.FusesKept.judgeStripe {sh wheel st : Nat} {w : Wheel} {cols : List (List Byte)} (hs : s₀.FusesKept s) :
    s₀.FusesKept (s.judgeStripe sh wheel st w cols) := by
  unfold State.judgeStripe
  extract_lets
  split
  · exact hs
  · split
    · next t₁ e₃ =>
        have ht₁ : s₀.FusesKept t₁ := .of_snd e₃ hs.rewriteCols
        exact ht₁.repaired
    · next e₃ => exact .of_snd e₃ hs.rewriteCols
  · split
    · next t₁ e₃ =>
        have ht₁ : s₀.FusesKept t₁ := .of_snd e₃ hs.rewriteCols
        exact ht₁.repaired
    · next e₃ => exact .of_snd e₃ hs.rewriteCols
  · exact hs.bump.raise

theorem State.FusesKept.patrolStripe {sh wheel st : Nat} (hs : s₀.FusesKept s) :
    s₀.FusesKept (s.patrolStripe sh wheel st) := by
  unfold State.patrolStripe
  split
  · exact hs
  · extract_lets
    split
    next t₁ e₂ =>
    have ht₁ : s₀.FusesKept t₁ := .of_snd e₂ hs.stripeCols
    extract_lets s₁
    have hs₁ : s₀.FusesKept s₁ := .ite ht₁.judgeStripe ht₁.rebuildStripe
    exact .ite hs₁.deepStripe hs₁

theorem State.FusesKept.patrolEnd (hs : s₀.FusesKept s) : s₀.FusesKept s.patrolEnd :=
  hs.setCarc.bump

theorem State.FusesKept.execPatrolStripe {ms : List Medium} (hs : s₀.FusesKept s) :
    OutKept s₀ (Machine.execPatrolStripe ms s) := by
  unfold Machine.execPatrolStripe
  refine .ite (.of_state hs) ?_
  extract_lets _ _ s₁
  have hs₁ : s₀.FusesKept s₁ := hs.setCarc
  split
  · exact .of_state (.ite (.patrolEnd (.ite hs₁.setCarc (hs₁.scripted (fun _ ht => ht.patrolStripe)))) (.ite
      hs₁.setCarc (hs₁.scripted (fun _ ht => ht.patrolStripe))))
  · exact .of_state (.ite (.patrolEnd (hs.setCarc.scripted (fun _ ht => ht.patrolStripe))) (hs.setCarc.scripted (fun _
      ht => ht.patrolStripe)))
  · exact .of_state (.ite hs hs.patrolEnd)

/-! ### Lane faults (R235) -/

theorem State.FusesKept.carcLaneFault {lane : Nat} (hs : s₀.FusesKept s) : s₀.FusesKept (s.carcLaneFault lane) :=
  hs.wrBit.raise

theorem State.FusesKept.execCarcLaneFault {lane : Fin 16} {job : LaneJob} (hs : s₀.FusesKept s) :
    OutKept s₀ (Machine.execCarcLaneFault lane job s) := by
  unfold Machine.execCarcLaneFault
  extract_lets s₁
  have hs₁ : s₀.FusesKept s₁ := hs.carcLaneFault
  split
  · split
    · exact .of_state (.ite hs₁ hs₁.finish)
    · exact .of_state hs₁
  · exact .of_state hs₁

theorem State.FusesKept.countCtx (hs : s₀.FusesKept s) : s₀.FusesKept s.countCtx :=
  hs.wr

theorem State.FusesKept.setResult {c : Nat} {bs : List Byte} (hs : s₀.FusesKept s) :
    s₀.FusesKept (s.setResult c bs) :=
  .foldl hs (fun _ _ ht => ht.wr)

theorem State.FusesKept.setPctx {c : Nat} {j : Option PressCtx} (hs : s₀.FusesKept s) :
    s₀.FusesKept (s.setPctx c j) :=
  hs.upd rfl

theorem State.FusesKept.freeCtx {c : Nat} (hs : s₀.FusesKept s) : s₀.FusesKept (s.freeCtx c) := by
  unfold State.freeCtx
  extract_lets s₁ s₂
  have hs₁ : s₀.FusesKept s₁ := hs.setPctx.setResult.wr
  have hs₂ : s₀.FusesKept s₂ := hs₁.wr.wr.wr
  exact hs₂.wr.wr.countCtx

theorem State.FusesKept.errCtx {c err : Nat} (hs : s₀.FusesKept s) : s₀.FusesKept (s.errCtx c err) :=
  hs.setPctx.setResult.wr.wr

theorem State.FusesKept.openCtx {d : DescRef} {f : Fetched} (hs : s₀.FusesKept s) : s₀.FusesKept (s.openCtx d f) := by
  unfold State.openCtx
  refine .ite ?_ hs
  extract_lets _ s₁
  have hs₁ : s₀.FusesKept s₁ := hs.setResult.wr.wr
  exact hs₁.wr.wr.countCtx

theorem State.FusesKept.hashLast {d : DescRef} {f : Fetched} {j : PressCtx} (hs : s₀.FusesKept s) :
    s₀.FusesKept (s.hashLast d f j) := by
  simp only [State.hashLast]
  split
  · exact hs.dmaFailed.errCtx.finish
  · next t₁ e₁ =>
      have ht₁ : s₀.FusesKept t₁ := by
        refine ExcKept.state e₁ ?_
        split
        · exact .of_state hs
        · exact hs.dmaWrite
      exact ht₁.setPctx.setResult.wr.finish

theorem State.FusesKept.hashError {d : DescRef} {c st : Nat} (hs : s₀.FusesKept s) :
    s₀.FusesKept (s.hashError d c st) :=
  hs.errCtx.finish

theorem State.FusesKept.servedCtx {c : Nat} (hs : s₀.FusesKept s) : s₀.FusesKept (s.servedCtx c) :=
  hs.upd rfl

theorem State.FusesKept.execHash {d : DescRef} (hs : s₀.FusesKept s) : OutKept s₀ (Machine.execHash d s) := by
  unfold Machine.execHash
  split
  · exact .of_state hs
  · refine .ite (.of_state hs) ?_
    extract_lets _ _ s₁
    have hs₁ : s₀.FusesKept s₁ := hs.openCtx.servedCtx
    split
    · exact .of_state hs.finish
    · refine .ite (.of_state hs) ?_
      refine .ite (.of_state hs₁.hashError) ?_
      refine .ite (.of_state hs₁.hashError) ?_
      extract_lets
      split
      · exact .of_state hs₁.dmaFailed.hashError
      · exact .ite (.of_state hs₁.hashLast) (.of_state hs₁.setPctx.finish)

theorem State.FusesKept.dropUnstarted {r c : Nat} (hs : s₀.FusesKept s) : s₀.FusesKept (s.dropUnstarted r c) :=
  .foldl hs (fun _ _ ht => ht.finish)

theorem State.FusesKept.execCtxClose {d : DescRef} (hs : s₀.FusesKept s) : OutKept s₀ (Machine.execCtxClose d s) := by
  unfold Machine.execCtxClose
  split
  · exact .of_state hs
  · exact .ite (.of_state hs) (.ite (.of_state hs.finish) (.ite (.of_state hs.finish) (.ite (.of_state hs.finish)
      (.of_state hs.freeCtx.finish.dropUnstarted))))

theorem State.FusesKept.pressResult {o c w : Nat} (hs : s₀.FusesKept s) : s₀.FusesKept (s.pressResult o c w).1 := by
  unfold State.pressResult
  extract_lets _ _ _ s1
  have hs1 : s₀.FusesKept s1 := .ite hs.wr.raise hs
  exact .ite hs1.wr.raise hs1

theorem State.FusesKept.execPressResultRead {origin : Origin} {c : Fin 64} {w : Fin 8} (hs : s₀.FusesKept s) :
    OutKept s₀ (Machine.execPressResultRead origin c w s) :=
  .of_state hs.pressResult.readReturn

/-! ### The legacy word feed (R193 to R197) -/

theorem State.FusesKept.setLegacy {l : Option Legacy} (hs : s₀.FusesKept s) : s₀.FusesKept (s.setLegacy l) := by
  unfold State.setLegacy
  extract_lets _ s₁ s₂
  have hs₁ : s₀.FusesKept s₁ := hs.upd rfl
  have hs₂ : s₀.FusesKept s₂ := hs₁.wr.wr.wr.wr
  split
  · exact hs₂.wr.wr
  · extract_lets s₃ s₄
    have hs₃ : s₀.FusesKept s₃ := hs₁.wr.wr.wr
    have hs₄ : s₀.FusesKept s₄ := hs₃.wr.wr
    exact hs₄.wr

theorem State.FusesKept.setLegResult {bs : List Byte} (hs : s₀.FusesKept s) : s₀.FusesKept (s.setLegResult bs) :=
  .foldl hs (fun _ _ ht => ht.wr)

theorem State.FusesKept.legacyRelease (hs : s₀.FusesKept s) : s₀.FusesKept s.legacyRelease :=
  hs.setLegacy.setLegResult

theorem State.FusesKept.legacyError {l : Legacy} {e : Nat} (hs : s₀.FusesKept s) :
    s₀.FusesKept (s.legacyError l e) :=
  hs.setLegacy.setLegResult

theorem State.FusesKept.legacyRefused {o owner : Nat} (hs : s₀.FusesKept s) :
    s₀.FusesKept (s.legacyRefused o owner) := by
  unfold State.legacyRefused
  extract_lets s₁
  have hs₁ : s₀.FusesKept s₁ := hs.wr.wr.wr
  exact hs₁.bump.raise

theorem State.FusesKept.legacyWrite {o : Nat} {f : Legacy → State} (hs : s₀.FusesKept s)
    (hf : ∀ (a₀ : Legacy), s₀.FusesKept (f a₀)) :
    s₀.FusesKept (s.legacyWrite o f) := by
  unfold State.legacyWrite
  refine .ite hs ?_
  split
  · exact hs
  · exact .ite (hf _) hs.legacyRefused

theorem State.FusesKept.execLegacyStart {origin : Origin} {alg length : Nat} (hs : s₀.FusesKept s) :
    OutKept s₀ (Machine.execLegacyStart origin alg length s) := by
  unfold Machine.execLegacyStart
  refine .ite ?_ ?_
  · refine .of_state ?_
    extract_lets
    exact hs.setLegacy.setLegResult
  · refine .of_state ?_
    refine hs.legacyWrite (fun _ => ?_)
    extract_lets
    exact hs.setLegacy.setLegResult

theorem State.FusesKept.execLegacyRelease {origin : Origin} (hs : s₀.FusesKept s) :
    OutKept s₀ (Machine.execLegacyRelease origin s) :=
  .ite (.of_state hs.legacyRelease) (.of_state (hs.legacyWrite (fun _ => hs.legacyRelease)))

theorem State.FusesKept.execLegacyKey {origin : Origin} {handle : Word} (hs : s₀.FusesKept s) :
    OutKept s₀ (Machine.execLegacyKey origin handle s) := by
  unfold Machine.execLegacyKey
  refine .of_state ?_
  refine hs.legacyWrite (fun _ => ?_)
  refine .ite hs.setLegacy ?_
  split
  · exact hs.setLegacy
  · split
    · exact hs.legacyError
    · exact hs.setLegacy

theorem State.FusesKept.execLegacyData {origin : Origin} {word : Word} {drained : Nat} (hs : s₀.FusesKept s) :
    OutKept s₀ (Machine.execLegacyData origin word drained s) := by
  unfold Machine.execLegacyData
  refine .of_state ?_
  refine hs.legacyWrite (fun _ => ?_)
  extract_lets
  exact .ite hs.setLegacy (.ite hs.legacyError (.ite hs.legacyError (.ite hs.legacyError hs.setLegacy)))

theorem State.FusesKept.execLegacyFinal {origin : Origin} (hs : s₀.FusesKept s) :
    OutKept s₀ (Machine.execLegacyFinal origin s) :=
  .of_state (hs.legacyWrite (fun _ => .ite hs.setLegacy (.ite hs.legacyError (.ite hs.legacyError hs.setLegacy))))

theorem State.FusesKept.legacyDrain (hs : s₀.FusesKept s) : s₀.FusesKept s.legacyDrain := by
  unfold State.legacyDrain
  split
  · exact .ite hs hs.setLegacy.servedCtx
  · exact hs

theorem State.FusesKept.legacyCtl {origin : Origin} {word : Nat} (hs : s₀.FusesKept s) :
    s₀.FusesKept (s.legacyCtl origin word) := by
  unfold State.legacyCtl
  extract_lets run t u v
  have hrun {t : State} {b : Bool} {o : Host.Outcome State Fault Refusal} (ht : s₀.FusesKept t) (ho : OutKept s₀ o) :
      s₀.FusesKept (run t b o) := by
    refine .ite ?_ ht
    split
    · exact ho.next _ rfl
    · exact ht
  clear_value run
  split
  · exact hrun hs hs.execLegacyStart
  · refine .ite (.ite (hrun hs hs.execLegacyRelease) (hs.legacyWrite fun _ => hs)) ?_
    have ht : s₀.FusesKept t := hs.legacyWrite fun _ => hs.setLegacy
    have hu : s₀.FusesKept u := hrun ht ht.execLegacyStart
    have hv : s₀.FusesKept v := hrun hu hu.execLegacyFinal
    exact hrun hv hv.execLegacyRelease

theorem State.FusesKept.execLegacyHashDone (hs : s₀.FusesKept s) : OutKept s₀ (Machine.execLegacyHashDone s) := by
  unfold Machine.execLegacyHashDone
  extract_lets s₁
  have hs₁ : s₀.FusesKept s₁ := hs.servedCtx
  split
  · exact .of_state hs
  · exact .ite (.of_state hs) (.of_state hs₁.setLegacy.setLegResult)

theorem State.FusesKept.legacyResult {o w : Nat} (hs : s₀.FusesKept s) : s₀.FusesKept (s.legacyResult o w).1 := by
  unfold State.legacyResult
  split
  · exact hs
  · extract_lets
    split
    · exact hs
    · split
      · dsimp only
        exact hs.setLegacy
      · dsimp only
        exact hs.setLegacy.raise

theorem State.FusesKept.execLegacyResultRead {origin : Origin} {w : Fin 8} (hs : s₀.FusesKept s) :
    OutKept s₀ (Machine.execLegacyResultRead origin w s) :=
  .of_state hs.legacyResult.readReturn

theorem State.FusesKept.execLegacyIdleExpiry (hs : s₀.FusesKept s) : OutKept s₀ (Machine.execLegacyIdleExpiry s) := by
  unfold Machine.execLegacyIdleExpiry
  split
  · exact .of_state hs
  · exact .ite (.of_state hs.legacyRelease.raise) (.of_state hs)

/-! ### Faults and power (R198, R199) -/

theorem State.FusesKept.pressLaneOut {lane : Nat} (hs : s₀.FusesKept s) : s₀.FusesKept (s.pressLaneOut lane) :=
  hs.wrBit.raise

theorem State.FusesKept.pressJobLost {d : DescRef} (hs : s₀.FusesKept s) : s₀.FusesKept (s.pressJobLost d) := by
  unfold State.pressJobLost
  split
  · exact hs
  · exact .ite hs (.ite hs.finish hs.openCtx.hashError)

theorem State.FusesKept.execPressLaneFault {lane : Fin 16} {job : LaneJob} (hs : s₀.FusesKept s) :
    OutKept s₀ (Machine.execPressLaneFault lane job s) := by
  unfold Machine.execPressLaneFault
  split
  · exact .of_state hs.pressLaneOut
  · exact .of_state hs.pressLaneOut
  · exact .of_state hs.pressLaneOut.pressJobLost
  · split
    · exact .of_state hs.pressLaneOut
    · exact .of_state hs.pressLaneOut.legacyError
  · refine .ite ?_ (.of_state (.ite hs hs.errCtx))
    split
    · exact .of_state hs
    · exact .of_state hs.legacyError

theorem State.FusesKept.pressLost (hs : s₀.FusesKept s) : s₀.FusesKept s.pressLost :=
  .legacyRelease (.foldl hs (fun _ _ ht => ht.freeCtx))

theorem State.FusesKept.pressTripped (hs : s₀.FusesKept s) : s₀.FusesKept s.pressTripped := by
  unfold State.pressTripped
  extract_lets s₁
  have hs₁ : s₀.FusesKept s₁ := .foldl hs (fun _ _ ht => .ite ht ht.errCtx)
  split
  · exact hs₁
  · exact hs₁.legacyError

theorem State.FusesKept.pressRingGone {r : Nat} (hs : s₀.FusesKept s) : s₀.FusesKept (s.pressRingGone r) :=
  .foldl hs (fun _ _ ht => .ite ht.freeCtx ht)

/-! ### Clocks (R439 to R441) -/

theorem State.FusesKept.coreDiv {c : Nat} (hs : s₀.FusesKept s) : s₀.FusesKept (s.coreDiv c) :=
  hs.wr

theorem State.FusesKept.execCoreDividerWrite {origin : Origin} {core : Fin 48} {div : Nat} (hs : s₀.FusesKept s) :
    OutKept s₀ (Machine.execCoreDividerWrite origin core div s) :=
  .ite (.of_state hs) (.ite (.of_state hs.refuseValue) (.of_state (hs.plainField (fun _ ht => ht.wr.coreDiv))))

theorem State.FusesKept.setDom {d st : Nat} (hs : s₀.FusesKept s) : s₀.FusesKept (s.setDom d st) := by
  unfold State.setDom
  extract_lets s₁
  have hs₁ : s₀.FusesKept s₁ := hs.wr
  exact hs₁.wr.wr

theorem State.FusesKept.domOff {d : Nat} (hs : s₀.FusesKept s) : s₀.FusesKept (s.domOff d) := by
  unfold State.domOff
  extract_lets s₁
  have hs₁ : s₀.FusesKept s₁ := hs.setDom
  exact .ite hs₁.pressLost hs₁

theorem State.FusesKept.dropBladeLinks (hs : s₀.FusesKept s) : s₀.FusesKept s.dropBladeLinks :=
  .foldl hs (fun _ _ ht => ht.cutBladePort)

theorem State.FusesKept.allOff (hs : s₀.FusesKept s) : s₀.FusesKept s.allOff := by
  unfold State.allOff
  extract_lets t u
  have ht : s₀.FusesKept t := .foldl hs fun _ _ h => h.wr.wr
  have hu : s₀.FusesKept u := ht.wr.wr.pressLost
  clear_value u
  exact hu.upd rfl

theorem State.FusesKept.headStopped (hs : s₀.FusesKept s) : s₀.FusesKept s.headStopped := by
  unfold State.headStopped
  extract_lets t reset pins boot k
  have ht : s₀.FusesKept t := hs.dropBladeLinks
  clear_value t
  have hk : s₀.FusesKept k := ht.upd rfl
  exact hk.allOff

theorem State.FusesKept.execRefclkLoss (hs : s₀.FusesKept s) : OutKept s₀ (Machine.execRefclkLoss s) := by
  unfold Machine.execRefclkLoss
  refine .ite (.of_state hs) ?_
  extract_lets t u
  have ht : s₀.FusesKept t := hs.wr.wr.wr.bump
  have hu : s₀.FusesKept u := ht.wr.headStopped
  clear_value u
  exact .of_state (.raise (hu.upd rfl))

/-! ### Power domains (R442 to R445) -/

theorem State.FusesKept.execDomainOnRequest {d : Fin 96} (hs : s₀.FusesKept s) :
    OutKept s₀ (Machine.execDomainOnRequest d s) :=
  .ite (.of_state hs) (.ite (.of_state (.upd (s := s.wr (PWR_DOM.REQ_ON ↑d) 1) hs.wr rfl)) (.of_state hs.wr))

theorem State.FusesKept.requestOff {origin d : Nat} {hart : Bool} (hs : s₀.FusesKept s) :
    s₀.FusesKept (s.requestOff origin d hart) := by
  unfold State.requestOff
  refine .ite (.ite hs.wr.domOff hs.wr.unitErr) ?_
  extract_lets s₁
  have hs₁ : s₀.FusesKept s₁ := hs.wr
  exact .ite hs₁.domOff (.ite (hs₁.upd rfl) hs₁)

theorem State.FusesKept.execDomainOffRequest {origin : Origin} {d : Fin 96} {hart : Bool} (hs : s₀.FusesKept s) :
    OutKept s₀ (Machine.execDomainOffRequest origin d hart s) :=
  .of_state (hs.plainField (fun _ ht => ht.requestOff))

theorem State.FusesKept.execDomainRampAdmit (hs : s₀.FusesKept s) : OutKept s₀ (Machine.execDomainRampAdmit s) := by
  unfold Machine.execDomainRampAdmit
  split
  · exact .of_state hs
  · refine .ite (.of_state hs) ?_
    extract_lets t u
    have ht : s₀.FusesKept t := hs.setDom.wr
    have hu : s₀.FusesKept u := ht.wr
    exact .of_state (hu.upd rfl)

theorem State.FusesKept.laneWorkLost {u : UnitId} {job : LaneJob} (hs : s₀.FusesKept s) :
    s₀.FusesKept (s.laneWorkLost u job) := by
  unfold State.laneWorkLost
  split
  · split
    · exact .ite hs hs.finish
    · exact hs
  · exact hs

theorem State.FusesKept.pressWorkLost {job : LaneJob} (hs : s₀.FusesKept s) : s₀.FusesKept (s.pressWorkLost job) := by
  unfold State.pressWorkLost
  split
  · exact hs.pressJobLost
  · split
    · exact hs
    · exact hs.legacyError
  · exact hs

theorem State.FusesKept.tripEffect {d : Nat} {jobs : List LaneJob} (hs : s₀.FusesKept s) :
    s₀.FusesKept (s.tripEffect d jobs) :=
  .ite (.foldl (.foldl hs (fun _ _ ht => ht.churnLaneFault)) (fun _ _ ht => ht.laneWorkLost)) (.ite (.pressTripped
    (.foldl (.foldl hs (fun _ _ ht => ht.pressLaneOut)) (fun _ _ ht => ht.pressWorkLost))) (.ite (.foldl (.foldl hs (fun
    _ _ ht => ht.pressLaneOut)) (fun _ _ ht => ht.pressWorkLost)) (.ite (.foldl (.foldl hs (fun _ _ ht =>
    ht.venLaneFault)) (fun _ _ ht => ht.laneWorkLost)) (.ite (.foldl (.foldl hs (fun _ _ ht => ht.carcLaneFault)) (fun _
    _ ht => ht.laneWorkLost)) (.ite hs.railLost (.ite hs.railLost hs.abdicate))))))

theorem State.FusesKept.trip {d : Nat} {jobs : List LaneJob} (hs : s₀.FusesKept s) : s₀.FusesKept (s.trip d jobs) := by
  unfold State.trip
  extract_lets s₁
  have hs₁ : s₀.FusesKept s₁ := hs.setDom.raise
  exact .tripEffect (hs₁.upd rfl)

theorem State.FusesKept.execRampTimeout {d : Fin 96} (hs : s₀.FusesKept s) :
    OutKept s₀ (Machine.execRampTimeout d s) :=
  .ite (.of_state hs.trip) (.of_state hs)

/-! ### Factory calibration (R461) -/

theorem State.FusesKept.retarget {d : Nat} (hs : s₀.FusesKept s) : s₀.FusesKept (s.retarget d) := by
  unfold State.retarget
  extract_lets
  exact hs.wr.wr

/-! ### The law (R446 to R452) -/

theorem State.FusesKept.stepVref {d : Nat} (hs : s₀.FusesKept s) : s₀.FusesKept (s.stepVref d) := by
  unfold State.stepVref
  extract_lets _ _ _ _ s₁
  have hs₁ : s₀.FusesKept s₁ := hs.upd rfl
  exact .ite hs.wr (.ite hs₁.wr.wr (.wr (hs.upd rfl)))

theorem State.FusesKept.enterSafe {d : Nat} (hs : s₀.FusesKept s) : s₀.FusesKept (s.enterSafe d) := by
  unfold State.enterSafe
  extract_lets s₁
  have hs₁ : s₀.FusesKept s₁ := hs.setDom.wr.wr
  exact hs₁.bump.raise

theorem State.FusesKept.lawStep {d : Nat} {vmeas : ℤ} (hs : s₀.FusesKept s) : s₀.FusesKept (s.lawStep d vmeas) := by
  unfold State.lawStep
  extract_lets
  exact hs.wr.wr.wr

theorem State.FusesKept.law {d : Nat} {vmeas isense : ℤ} (hs : s₀.FusesKept s) :
    s₀.FusesKept (s.law d vmeas isense) := by
  unfold State.law
  extract_lets _ _ _ _ _ _ _ s₁
  have hs₁ : s₀.FusesKept s₁ := hs.wr
  exact .ite hs₁.enterSafe hs₁.lawStep

theorem State.FusesKept.marksDue {d : Nat} (hs : s₀.FusesKept s) : s₀.FusesKept (s.marksDue d) :=
  hs.upd rfl

theorem State.FusesKept.rampSample {d : Nat} {vmeas : ℤ} (hs : s₀.FusesKept s) :
    s₀.FusesKept (s.rampSample d vmeas) := by
  unfold State.rampSample
  extract_lets _ _ _ _ s₁
  have hs₁ : s₀.FusesKept s₁ := hs.upd rfl
  exact .ite (.ite hs₁.setDom.wr.wr.marksDue (hs.upd rfl)) (hs.upd rfl)

theorem State.FusesKept.execGovernorSample {d : Fin 96} {vmeas isense : BitVec 16} {jobs : List LaneJob}
    (hs : s₀.FusesKept s) :
    OutKept s₀ (Machine.execGovernorSample d vmeas isense jobs s) := by
  unfold Machine.execGovernorSample
  extract_lets v t mid out sup u
  have ht : s₀.FusesKept t := hs.wr.wr.stepVref
  have hu : s₀.FusesKept u := ht.upd rfl
  exact .ite (.of_state ht.rampSample) (.ite (.ite (.of_state ht.trip) (.ite (.of_state hu.law) (.of_state hu)))
    (.of_state ht))

theorem State.FusesKept.execGovResume {d : Fin 96} (hs : s₀.FusesKept s) : OutKept s₀ (Machine.execGovResume d s) :=
  .ite (.of_state hs.setDom.wr.wr.wr) (.of_state hs)

/-! ### Thermal sensing (R453) -/

theorem State.FusesKept.throttleCluster {temps : List ℤ} {c : Nat} (hs : s₀.FusesKept s) :
    s₀.FusesKept (s.throttleCluster temps c) := by
  unfold State.throttleCluster
  extract_lets
  split
  · exact hs
  · extract_lets
    exact .ite hs (.raise (.foldl hs (fun _ _ ht => ht.wr.coreDiv)))

theorem State.FusesKept.execThermalRead {temps : List Int} (hs : s₀.FusesKept s) :
    OutKept s₀ (Machine.execThermalRead temps s) := by
  unfold Machine.execThermalRead
  extract_lets sup t u v pins w x y
  have ht : s₀.FusesKept t := hs.upd rfl
  have hu : s₀.FusesKept u := by
    unfold u
    split
    · exact ht.wr
    · exact ht
  have hv : s₀.FusesKept v := .foldl hu fun _ _ h => h.throttleCluster
  clear_value v
  have hw : s₀.FusesKept w := .raise (hv.upd rfl)
  have hy : s₀.FusesKept y := hw.wr.abdicate
  clear_value y
  exact .ite (.of_state (.wired (hy.upd rfl))) (.of_state hv)

theorem State.FusesKept.execThermalTripPoweroff (hs : s₀.FusesKept s) :
    OutKept s₀ (Machine.execThermalTripPoweroff s) := by
  unfold Machine.execThermalTripPoweroff
  refine .ite ?_ (.of_state hs)
  extract_lets t
  have ht : s₀.FusesKept t := hs.headStopped
  clear_value t
  exact .of_state (ht.upd rfl)

/-! ### Witness marks (R454 to R460) -/

theorem State.FusesKept.startPass (hs : s₀.FusesKept s) : s₀.FusesKept s.startPass := by
  unfold State.startPass
  refine .ite hs ?_
  extract_lets s₁
  have hs₁ : s₀.FusesKept s₁ := hs.wr
  exact hs₁.upd rfl

theorem State.FusesKept.execWitnessPassStart (hs : s₀.FusesKept s) : OutKept s₀ (Machine.execWitnessPassStart s) :=
  .ite (.of_state (.startPass (hs.upd rfl))) (.of_state hs)

theorem State.FusesKept.execMeasureNow {origin : Origin} (hs : s₀.FusesKept s) :
    OutKept s₀ (Machine.execMeasureNow s origin) :=
  .of_state (hs.cfgField (fun _ ht => ht.startPass))

theorem State.FusesKept.measure {m count : Nat} {temp : ℤ} (hs : s₀.FusesKept s) :
    s₀.FusesKept (s.measure m count temp) := by
  unfold State.measure
  refine .ite (hs.upd rfl) ?_
  extract_lets _ s₁ s₂
  have hs₁ : s₀.FusesKept s₁ := .wr (hs.upd rfl)
  have hs₂ : s₀.FusesKept s₂ := by
    unfold s₂
    split
    · exact hs₁.wr
    · exact hs₁.draw.wr
  exact hs₂.wr

theorem State.FusesKept.excludeOutliers {d : Nat} (hs : s₀.FusesKept s) : s₀.FusesKept (s.excludeOutliers d) := by
  unfold State.excludeOutliers
  extract_lets
  refine .foldl hs (fun _ _ ht => ?_)
  extract_lets
  exact .ite ht.wr.raise ht

theorem State.FusesKept.requestCore {c : Nat} (hs : s₀.FusesKept s) : s₀.FusesKept (s.requestCore c) :=
  .ite hs hs.wrBit.raise

theorem State.FusesKept.requestSlice {i : Nat} (hs : s₀.FusesKept s) : s₀.FusesKept (s.requestSlice i) :=
  .ite hs hs.wrBit.raise

theorem State.FusesKept.raiseFloor {c v : Nat} (hs : s₀.FusesKept s) : s₀.FusesKept (s.raiseFloor c v) :=
  hs.wr.coreDiv

theorem State.FusesKept.planNeed {d : Nat} (hs : s₀.FusesKept s) : s₀.FusesKept (s.planNeed d).2 := by
  unfold State.planNeed
  extract_lets _ _ _ _ s1
  have hs1 : s₀.FusesKept s1 := .foldl hs (fun _ _ ht => .ite ht.requestSlice ht)
  refine .ite_snd ?_ (.ite_snd hs1 (.ite_snd (.foldl hs.raise (fun _ _ ht => ht.raiseFloor)) hs))
  split
  · exact hs.raiseFloor
  · exact hs.requestCore.raiseFloor

theorem State.FusesKept.planDomain {d : Nat} (hs : s₀.FusesKept s) : s₀.FusesKept (s.planDomain d) := by
  unfold State.planDomain
  extract_lets s₁
  have hs₁ : s₀.FusesKept s₁ := hs.excludeOutliers
  refine .ite hs₁ ?_
  extract_lets
  split
  next t₁ e₁ =>
  have ht₁ : s₀.FusesKept t₁ := .of_snd e₁ (.ite_snd hs₁ (.planNeed (.ite hs₁.wr hs₁)))
  extract_lets _ s₂
  have hs₂ : s₀.FusesKept s₂ := ht₁.wr.retarget
  exact .ite hs₂.raise hs₂

theorem State.FusesKept.countCoreEq (hs : s₀.FusesKept s) : s₀.FusesKept s.countCoreEq := by
  unfold State.countCoreEq
  extract_lets _ _ s₁
  have hs₁ : s₀.FusesKept s₁ := hs.wr
  exact .ite hs₁.raise hs₁

theorem State.FusesKept.savePlan (hs : s₀.FusesKept s) : s₀.FusesKept s.savePlan := by
  unfold State.savePlan
  extract_lets s₁
  have hs₁ : s₀.FusesKept s₁ := hs.draw.keepGroup
  exact hs₁.upd rfl

theorem State.FusesKept.leaveBootMargin (hs : s₀.FusesKept s) : s₀.FusesKept s.leaveBootMargin :=
  .ite hs (.wr (.foldl hs (fun _ _ ht => ht.wr.coreDiv)))

theorem State.FusesKept.replan (hs : s₀.FusesKept s) : s₀.FusesKept s.replan := by
  unfold State.replan
  extract_lets s₁ s₂ s₃ s₄
  have hs₁ : s₀.FusesKept s₁ := hs.wr.bump.leaveBootMargin
  have hs₂ : s₀.FusesKept s₂ := .excludeOutliers (.foldl hs₁ (fun _ _ ht => ht.planDomain))
  have hs₃ : s₀.FusesKept s₃ := .ite hs₂.countCoreEq.savePlan hs₂
  have hs₄ : s₀.FusesKept s₄ := hs₃.wr.draw
  exact hs₄.wr.draw

theorem State.FusesKept.execMarkMeasurementDone {marks : List (Nat × Int)} (hs : s₀.FusesKept s) :
    OutKept s₀ (Machine.execMarkMeasurementDone marks s) := by
  unfold Machine.execMarkMeasurementDone
  split
  · exact .of_state (.foldl (hs.upd rfl) fun _ _ ht => ht.measure)
  · extract_lets t sup u
    have ht : s₀.FusesKept t := .foldl hs fun _ _ h => h.measure
    clear_value t
    have hu : s₀.FusesKept u := ht.upd rfl
    exact .ite (.of_state (ht.upd rfl)) (.of_state hu.replan)

theorem State.FusesKept.execCoreRetirement {core : Fin 48} (hs : s₀.FusesKept s) :
    OutKept s₀ (Machine.execCoreRetirement core s) :=
  .ite (.of_state hs) (.of_state (.savePlan (.countCoreEq (.wr (.setDom (.wr (hs.upd rfl)))))))

/-! ### Slots and images (R419 to R422) -/

theorem State.FusesKept.jigShow (hs : s₀.FusesKept s) : s₀.FusesKept s.jigShow := by
  unfold State.jigShow
  extract_lets
  exact hs.wr.wr.wr.wr

theorem State.FusesKept.setJig {j : Jig} (hs : s₀.FusesKept s) : s₀.FusesKept (s.setJig j) :=
  .jigShow (hs.upd rfl)

theorem State.FusesKept.slotShow {t : Nat} (hs : s₀.FusesKept s) : s₀.FusesKept (s.slotShow t) := by
  unfold State.slotShow
  extract_lets
  exact hs.wr.wr.wr.wr

theorem State.FusesKept.setSlot' {t : Nat} {x : JigSlot} (hs : s₀.FusesKept s) : s₀.FusesKept (s.setSlot' t x) :=
  .slotShow (hs.upd rfl)

theorem State.FusesKept.raiseRollback {t n : Nat} (hs : s₀.FusesKept s) : s₀.FusesKept (s.raiseRollback t n) := by
  have hraised := hs.trans (.counterRaised s t n)
  exact .ite hraised.wr hraised

/-! ### The audit entries (R430) -/

theorem State.FusesKept.auditImage {origin : Nat} {payload : List Byte} (hs : s₀.FusesKept s) :
    s₀.FusesKept (s.auditImage origin payload) :=
  .ite (hs.upd rfl) hs.stage

/-! ### Sessions (R423 to R425) -/

theorem State.FusesKept.jigLast {status : Nat} (hs : s₀.FusesKept s) : s₀.FusesKept (s.jigLast status) :=
  hs.wr

theorem State.FusesKept.jigBegin {owner t len : Nat} (hs : s₀.FusesKept s) :
    s₀.FusesKept (s.jigBegin owner t len).2.2 := by
  simp only [State.jigBegin]
  split
  · exact hs.jigLast.auditImage
  · split
    · exact hs.jigLast.auditImage
    · split
      · exact hs.jigLast.auditImage
      · split
        · exact hs.jigLast.auditImage
        · exact hs.drbg.setSlot'.wr.setJig.jigLast.auditImage

theorem State.FusesKept.jigTouch {x : JigSession} (hs : s₀.FusesKept s) : s₀.FusesKept (s.jigTouch x) :=
  hs.setJig

theorem State.FusesKept.jigQueue {x : JigSession} {b : JigBlock} (hs : s₀.FusesKept s) :
    s₀.FusesKept (s.jigQueue x b) :=
  hs.setJig

theorem State.FusesKept.jigReply {hdr : List Byte} {session status result : Nat} {payload : List Byte}
    (hs : s₀.FusesKept s) :
    s₀.FusesKept (s.jigReply hdr session status result payload) :=
  hs.upd rfl

theorem State.FusesKept.jigAnswer {x : JigSession} {b : JigBlock} {status : Nat} (hs : s₀.FusesKept s) :
    s₀.FusesKept (s.jigAnswer x b status) := by
  unfold State.jigAnswer
  split
  · exact hs.jigLast.finish
  · exact hs.jigLast.jigReply

theorem State.FusesKept.jigTrim {x : JigSession} (hs : s₀.FusesKept s) : s₀.FusesKept (s.jigTrim x) := by
  unfold State.jigTrim
  extract_lets _ s₁
  have hs₁ : s₀.FusesKept s₁ := hs.setJig
  exact .foldl hs₁ (fun _ _ ht => ht.jigAnswer)

theorem State.FusesKept.jigEnd (hs : s₀.FusesKept s) : s₀.FusesKept s.jigEnd :=
  hs.setJig

theorem State.FusesKept.execJigBlockWritten {ok : Bool} (hs : s₀.FusesKept s) :
    OutKept s₀ (Machine.execJigBlockWritten ok s) := by
  unfold Machine.execJigBlockWritten
  extract_lets s₁
  have hs₁ : s₀.FusesKept s₁ := .ite hs hs.draw
  split
  · exact .of_state hs
  · extract_lets
    split
    · exact .of_state hs
    · exact .ite (.of_state hs) (.of_state hs₁.setSlot'.setJig.jigAnswer)

/-! ### Commit, abort, idle end (R424, R429) -/

theorem State.FusesKept.jigCommit {x : JigSession} (hs : s₀.FusesKept s) : s₀.FusesKept (s.jigCommit x).2.2 := by
  unfold State.jigCommit
  extract_lets failed sl img st sl' t jig u v
  have hfailed {w : State} {c : Nat} (hw : s₀.FusesKept w) : s₀.FusesKept (failed w c) := hw.raise.jigLast.auditImage
  have ht : s₀.FusesKept t := hs.setSlot'.jigEnd
  clear_value failed t
  split
  · exact hfailed hs.jigTouch
  · have hu : s₀.FusesKept u := ht.upd rfl
    have hv : s₀.FusesKept v := hu.raise.jigLast
    clear_value v
    split
    · exact hfailed hs.jigEnd
    · exact hv.auditImage

theorem State.FusesKept.jigAbort {x : JigSession} (hs : s₀.FusesKept s) : s₀.FusesKept (s.jigAbort x) :=
  hs.jigEnd.auditImage

theorem State.FusesKept.execJigIdleExpiry (hs : s₀.FusesKept s) : OutKept s₀ (Machine.execJigIdleExpiry s) := by
  unfold Machine.execJigIdleExpiry
  split
  · exact .of_state hs
  · exact .ite (.of_state hs) (.ite (.of_state hs.jigTrim) (.of_state hs.jigEnd.raise.auditImage))

/-! ### Requests through an Island ring (R426) -/

theorem State.FusesKept.jigDesc {d : DescRef} {op : Nat} {k : Fetched → State} (hs : s₀.FusesKept s)
    (hk : ∀ (a₀ : Fetched), s₀.FusesKept (k a₀)) :
    OutKept s₀ (s.jigDesc d op k) := by
  unfold State.jigDesc
  split
  · exact .of_state hs
  · exact .ite (.of_state hs) (.of_state (hk _))

theorem State.FusesKept.jigOwned {d : DescRef} {op : Nat} {k : Fetched → JigSession → State} (hs : s₀.FusesKept s)
    (hk : ∀ (a₀ : Fetched) (a₁ : JigSession), s₀.FusesKept (k a₀ a₁)) :
    OutKept s₀ (s.jigOwned d op k) := by
  unfold State.jigOwned
  refine hs.jigDesc (fun _ => ?_)
  split
  · exact hs.finish
  · exact hk _ _

theorem State.FusesKept.execJigBegin {d : DescRef} (hs : s₀.FusesKept s) : OutKept s₀ (Machine.execJigBegin d s) := by
  unfold Machine.execJigBegin
  refine hs.jigDesc (fun _ => ?_)
  split
  next t₁ e₁ =>
  have ht₁ : s₀.FusesKept t₁ := .of_third e₁ hs.jigBegin
  exact ht₁.finish

theorem State.FusesKept.execJigBlock {d : DescRef} (hs : s₀.FusesKept s) : OutKept s₀ (Machine.execJigBlock d s) := by
  unfold Machine.execJigBlock
  refine hs.jigOwned (fun _ _ => ?_)
  refine .ite hs ?_
  extract_lets s₁
  have hs₁ : s₀.FusesKept s₁ := hs.jigTouch
  refine .ite hs₁.jigLast.finish ?_
  split
  · exact hs₁.finishDma
  · exact hs₁.jigQueue.setPhase

theorem State.FusesKept.execJigCommit {d : DescRef} (hs : s₀.FusesKept s) :
    OutKept s₀ (Machine.execJigCommit d s) := by
  unfold Machine.execJigCommit
  refine hs.jigOwned (fun _ _ => ?_)
  refine .ite hs.setPhase ?_
  split
  next t₁ e₁ =>
  have ht₁ : s₀.FusesKept t₁ := .of_third e₁ hs.jigCommit
  exact ht₁.finish

theorem State.FusesKept.execJigAbort {d : DescRef} (hs : s₀.FusesKept s) : OutKept s₀ (Machine.execJigAbort d s) :=
  hs.jigOwned (fun _ _ => .ite hs.jigTrim.setPhase hs.jigAbort.finish)

theorem State.FusesKept.execJigBitmap {d : DescRef} (hs : s₀.FusesKept s) :
    OutKept s₀ (Machine.execJigBitmap d s) := by
  unfold Machine.execJigBitmap
  refine hs.jigOwned (fun _ _ => ?_)
  extract_lets s₁
  have hs₁ : s₀.FusesKept s₁ := hs.jigTouch
  exact .ite hs₁.finish (hs₁.secWrite (fun _ ht => ht.finish))

/-! ### Requests through the management port (R427, R428) -/

theorem State.FusesKept.jigPort {op : Nat} {audit : Bool} {k : List Byte → List Byte → State → State}
    (hs : s₀.FusesKept s) (hk : ∀ (a₀ : List Byte) (a₁ : List Byte)
    (t : State), s₀.FusesKept t → s₀.FusesKept (k a₀ a₁ t)) :
    OutKept s₀ (s.jigPort op audit k) := by
  unfold State.jigPort
  extract_lets
  split
  · exact .of_state hs
  · exact .ite (.of_state (hs.upd rfl)) (.ite (.of_state hs) (.ite (.of_state hs) (.of_state (hk _ _ _ (hs.upd rfl)))))

theorem State.FusesKept.execJigPortBegin (hs : s₀.FusesKept s) : OutKept s₀ (Machine.execJigPortBegin s) := by
  unfold Machine.execJigPortBegin
  refine hs.jigPort (fun _ _ _ ht => ?_)
  split
  next t₂ e₁ =>
  have ht₂ : s₀.FusesKept t₂ := .of_third e₁ ht.jigBegin
  exact .ite ht₂.jigReply ht₂.jigReply

theorem State.FusesKept.execJigPortSegment (hs : s₀.FusesKept s) : OutKept s₀ (Machine.execJigPortSegment s) := by
  unfold Machine.execJigPortSegment
  refine hs.jigPort (fun _ _ _ ht => ?_)
  extract_lets
  split
  · exact ht.jigReply
  · extract_lets s₁ _ _ _ _ s₂
    have hs₁ : s₀.FusesKept s₁ := ht.jigTouch
    have hs₂ : s₀.FusesKept s₂ := hs₁.setJig
    exact .ite hs₁.jigReply (.ite hs₁.setJig.jigReply (.ite hs₂.jigLast.jigReply hs₂.jigQueue))

theorem State.FusesKept.execJigPortAbort (hs : s₀.FusesKept s) : OutKept s₀ (Machine.execJigPortAbort s) := by
  unfold Machine.execJigPortAbort
  split
  · refine .ite ?_ ?_
    · split
      · exact .of_state (.ite hs.jigTrim hs)
      · exact .of_state hs
    · refine hs.jigPort (fun _ _ _ ht => ?_)
      split
      · exact ht.jigReply
      · exact ht.jigAbort.jigReply
  · exact hs.jigPort (fun _ _ _ ht => ht.jigReply)

theorem State.FusesKept.execJigPortStatus (hs : s₀.FusesKept s) : OutKept s₀ (Machine.execJigPortStatus s) := by
  unfold Machine.execJigPortStatus
  refine hs.jigPort (fun _ _ _ ht => ?_)
  split
  · exact ht.jigReply
  · exact ht.jigTouch.jigReply

/-! ### Settings groups (R433, R501) -/

theorem State.FusesKept.settingsDefault {g stored version : Nat} (hs : s₀.FusesKept s) :
    s₀.FusesKept (s.settingsDefault g stored version) := by
  unfold State.settingsDefault
  extract_lets s₁ _ s₂
  have hs₁ : s₀.FusesKept s₁ := hs.keepGroup.raise
  have hs₂ : s₀.FusesKept s₂ := .ite (hs₁.upd rfl) hs₁
  exact hs₂.stage

theorem State.FusesKept.settingsCheck {g version : Nat} (hs : s₀.FusesKept s) :
    s₀.FusesKept (s.settingsCheck g version) := by
  unfold State.settingsCheck
  extract_lets
  split
  · exact .ite hs hs.settingsDefault
  · exact .ite hs hs.raise.settingsDefault

theorem State.FusesKept.settingsApply {img : List Byte} (hs : s₀.FusesKept s) :
    s₀.FusesKept (s.settingsApply img) :=
  .foldl hs (fun _ _ ht => ht.settingsCheck)

/-! ### Activation (R431 to R434) -/

theorem State.FusesKept.setMeasurement {t : Nat} {m : List Byte} (hs : s₀.FusesKept s) :
    s₀.FusesKept (s.setMeasurement t m) :=
  .foldl hs (fun _ _ ht => ht.wr)

theorem State.FusesKept.imageRuns {t : Nat} {x : JigSlot} {img : List Byte} (hs : s₀.FusesKept s) :
    s₀.FusesKept (s.imageRuns t x img) := by
  unfold State.imageRuns
  extract_lets s₁ _ s₂
  have hs₁ : s₀.FusesKept s₁ := hs.setMeasurement.raiseRollback.settingsApply
  have hs₂ : s₀.FusesKept s₂ := hs₁.wr.setJig
  exact hs₂.wr

theorem State.FusesKept.execJigActivate {d : DescRef} (hs : s₀.FusesKept s) :
    OutKept s₀ (Machine.execJigActivate d s) := by
  unfold Machine.execJigActivate
  refine State.FusesKept.jigDesc hs fun f => ?_
  extract_lets t refuse jig u
  have hrefuse (st : Nat) : s₀.FusesKept (refuse st) := hs.jigLast.finish
  have hu : s₀.FusesKept u := hs.setJig.setPhase
  refine .ite hs (.ite (hrefuse _) (.ite (hrefuse _) (.ite (hrefuse _) (.ite ?_ (.ite hu.wr.seal hu)))))
  exact hu.upd rfl

theorem State.FusesKept.releaseImage {t : Nat} (hs : s₀.FusesKept s) : s₀.FusesKept (s.releaseImage t) :=
  .ite (hs.upd rfl) hs

theorem State.FusesKept.execJigActivationDone {type : Nat} (hs : s₀.FusesKept s) :
    OutKept s₀ (Machine.execJigActivationDone type s) := by
  unfold Machine.execJigActivationDone
  extract_lets _ _ _ s₁ s₂ s₃ _ s₄
  have hs₁ : s₀.FusesKept s₁ := hs.setJig
  have hs₂ : s₀.FusesKept s₂ := .ite hs₁.imageRuns hs₁.setSlot'
  have hs₃ : s₀.FusesKept s₃ := hs₂.releaseImage
  have hs₄ : s₀.FusesKept s₄ := hs₃.raise
  split
  · exact .of_state hs
  · exact .ite (.of_state hs) (.of_state (.ite hs₄.jigLast.auditImage.finish.setLease.peerLoss
      hs₄.jigLast.auditImage.finish))

/-! ### What a reset clears and keeps (R491) -/

theorem State.FusesKept.tearGroup {torn : Option (DescRef × Bool)} (hs : s₀.FusesKept s) :
    s₀.FusesKept (s.tearGroup torn) := by
  unfold State.tearGroup
  extract_lets
  split
  · exact hs
  · split
    · exact hs
    · extract_lets
      exact hs.draw.setActiveHalf

theorem State.FusesKept.tearBlock (hs : s₀.FusesKept s) : s₀.FusesKept s.tearBlock := by
  unfold State.tearBlock
  split
  · extract_lets
    split
    · exact hs.draw.setSlot'
    · exact hs
  · exact hs

theorem State.FusesKept.keepNor (hs : s₀.FusesKept s) : s₀.FusesKept s.keepNor :=
  hs.upd rfl

theorem State.FusesKept.coldReset {torn : Option (DescRef × Bool)} {last : Nat} (hs : s₀.FusesKept s) :
    s₀.FusesKept (s.coldReset torn last) := by
  unfold State.coldReset
  extract_lets t k pins k'
  have ht : s₀.FusesKept t := hs.tearGroup.tearBlock.dropBladeLinks
  have hk : s₀.FusesKept k := ht.keepNor
  clear_value k
  have hk' : s₀.FusesKept k' := hk.upd rfl
  exact hk'.wr.wr.wr

theorem State.FusesKept.blowFuses {fuses : List (Nat × Byte)} (hs : s₀.FusesKept s) :
    s₀.FusesKept (s.blowFuses fuses) :=
  hs.trans ⟨wf_read_blownOtp fuses s.otp⟩

theorem State.FusesKept.execVddAonRise {fuses : List (Nat × Byte)} {images : List (Nat × List Byte)}
    (hs : s₀.FusesKept s) :
    OutKept s₀ (Machine.execVddAonRise fuses images s) := by
  unfold Machine.execVddAonRise
  refine .ite (.of_state hs) ?_
  extract_lets k k₁ k₂
  have hk : s₀.FusesKept k := hs.coldReset
  have hk₁ : s₀.FusesKept k₁ := hk.wr.wr.blowFuses
  have hk₂ : s₀.FusesKept k₂ := .foldl hk₁ fun _ _ h => .ite h.setSlot' h
  clear_value k₂
  exact .of_state (hk₂.upd rfl)

theorem State.FusesKept.execPwrokFall {torn : Option (DescRef × Bool)} (hs : s₀.FusesKept s) :
    OutKept s₀ (Machine.execPwrokFall torn s) := by
  unfold Machine.execPwrokFall
  refine .ite (.of_state hs) ?_
  extract_lets k
  have hk : s₀.FusesKept k := hs.coldReset
  clear_value k
  exact .of_state (hk.upd rfl)

theorem State.FusesKept.execResetNAssert {torn : Option (DescRef × Bool)} (hs : s₀.FusesKept s) :
    OutKept s₀ (Machine.execResetNAssert torn s) := by
  unfold Machine.execResetNAssert
  refine .ite (.of_state hs) ?_
  extract_lets k
  have hk : s₀.FusesKept k := hs.coldReset
  clear_value k
  exact .of_state (hk.upd rfl)

theorem State.FusesKept.execPowerLoss {torn : Option (DescRef × Bool)} (hs : s₀.FusesKept s) :
    OutKept s₀ (Machine.execPowerLoss torn s) := by
  unfold Machine.execPowerLoss
  refine .ite (.of_state hs) ?_
  extract_lets k
  have hk : s₀.FusesKept k := hs.coldReset
  clear_value k
  exact .of_state (hk.upd rfl)

theorem State.FusesKept.dramKept (hs : s₀.FusesKept s) : s₀.FusesKept s.dramKept := by
  unfold State.dramKept
  extract_lets _ s₁
  have hs₁ : s₀.FusesKept s₁ := hs.upd rfl
  refine .foldl hs₁ (fun _ _ ht => ?_)
  extract_lets src
  have hsrc : s₀.FusesKept src := ht.draw
  exact hsrc.upd rfl

theorem State.FusesKept.warmReset (hs : s₀.FusesKept s) : s₀.FusesKept s.warmReset := by
  unfold State.warmReset
  extract_lets t k bus pins jig k' u
  have ht : s₀.FusesKept t := hs.tearBlock.dramKept.dropBladeLinks
  have hk : s₀.FusesKept k := ht.keepNor
  clear_value k
  have hk' : s₀.FusesKept k' := hk.upd rfl
  have hu : s₀.FusesKept u := hk'.wr.wr.wr.allOff.bump
  exact hu.wr.wr

theorem State.FusesKept.execWarmReset {origin : Origin} (hs : s₀.FusesKept s) :
    OutKept s₀ (Machine.execWarmReset origin s) :=
  .ite (.of_state hs.unitErr) (.ite (.of_state hs) (.of_state hs.warmReset))

theorem State.FusesKept.execJigPortCommit (hs : s₀.FusesKept s) : OutKept s₀ (Machine.execJigPortCommit s) := by
  unfold Machine.execJigPortCommit
  refine .ite (.of_state hs) ?_
  refine hs.jigPort (fun _ _ _ ht => ?_)
  extract_lets
  split
  · exact ht.jigReply
  · split
    next t₂ e₂ =>
    have ht₂ : s₀.FusesKept t₂ := .of_third e₂ ht.jigCommit
    extract_lets s₁
    have hs₁ : s₀.FusesKept s₁ := ht₂.jigReply
    exact .ite hs₁.warmReset hs₁

/-! ### The boot sequence (R494, R495) -/

theorem State.FusesKept.bootStep {n : Nat} (hs : s₀.FusesKept s) : s₀.FusesKept (s.bootStep n) :=
  hs.wr

theorem State.FusesKept.bootFail {n : Nat} (hs : s₀.FusesKept s) : s₀.FusesKept (s.bootFail n) :=
  hs.wr

theorem State.FusesKept.bootIsland (hs : s₀.FusesKept s) : s₀.FusesKept s.bootIsland := by
  unfold State.bootIsland
  extract_lets s₁
  have hs₁ : s₀.FusesKept s₁ := hs.wr.wr.wr
  exact hs₁.wr.wr.wr

theorem State.FusesKept.bootOtp {warm : Bool} (hs : s₀.FusesKept s) : s₀.FusesKept (s.bootOtp warm) := by
  unfold State.bootOtp
  extract_lets _ s₁ _ s₂ s₃
  have hs₁ : s₀.FusesKept s₁ := by
    unfold s₁
    split
    · extract_lets src₁
      have hsrc₁ : s₀.FusesKept src₁ := hs.blowFuses
      exact hsrc₁.upd rfl
    · exact hs
  have hs₂ : s₀.FusesKept s₂ := hs₁.wr.wr
  have hs₃ : s₀.FusesKept s₃ := hs₂.wr
  exact .ite hs₃ hs₃.raise

theorem State.FusesKept.restoreSlot {t : Nat} (hs : s₀.FusesKept s) : s₀.FusesKept (s.restoreSlot t) := by
  unfold State.restoreSlot
  extract_lets _ _ s₁
  have hs₁ : s₀.FusesKept s₁ := hs.setSlot'.raise
  exact .ite (hs₁.upd rfl) hs.slotShow

theorem State.FusesKept.bootEntry (hs : s₀.FusesKept s) : s₀.FusesKept s.bootEntry := by
  unfold State.bootEntry
  extract_lets _ _ _ s₁ s₂ s₃
  have hs₁ : s₀.FusesKept s₁ := hs.setAud
  have hs₂ : s₀.FusesKept s₂ := hs₁.stage
  have hs₃ : s₀.FusesKept s₃ := .foldl hs₂ (fun _ _ ht => ht.stage)
  exact hs₃.upd rfl

theorem State.FusesKept.applyEndpoint {recovery : Bool} (hs : s₀.FusesKept s) :
    s₀.FusesKept (s.applyEndpoint recovery) := by
  unfold State.applyEndpoint
  split
  · refine .ite hs ?_
    extract_lets _ s₁ s₂
    have hs₁ : s₀.FusesKept s₁ := hs.wr.wr
    have hs₂ : s₀.FusesKept s₂ := hs₁.wr.wr
    exact .ite hs₂.wr hs₂
  · exact .ite hs.wr hs

theorem State.FusesKept.enterRecovery (hs : s₀.FusesKept s) : s₀.FusesKept s.enterRecovery := by
  unfold State.enterRecovery
  extract_lets s₁ _ s₂ s₃ s₄
  have hs₁ : s₀.FusesKept s₁ := hs.bootFail.setDom
  have hs₂ : s₀.FusesKept s₂ := hs₁.setJig
  have hs₃ : s₀.FusesKept s₃ := hs₂.drwRestore.applyEndpoint
  have hs₄ : s₀.FusesKept s₄ := hs₃.wr.raise
  exact hs₄.auditImage

theorem State.FusesKept.bootLayer1 (hs : s₀.FusesKept s) : s₀.FusesKept s.bootLayer1 := by
  unfold State.bootLayer1
  extract_lets _ s₁ s₂
  have hs₁ : s₀.FusesKept s₁ := hs.setMeasurement.raiseRollback.newNonce
  have hs₂ : s₀.FusesKept s₂ := hs₁.wr.wr
  exact hs₂.setJig.bump

theorem State.FusesKept.islActivated (hs : s₀.FusesKept s) : s₀.FusesKept s.islActivated := by
  unfold State.islActivated
  refine .ite ?_ hs
  extract_lets _ _ s₁
  have hs₁ : s₀.FusesKept s₁ := hs.setJig.raise
  exact hs₁.auditImage

theorem State.FusesKept.bootNumber {norOk : Bool} (hs : s₀.FusesKept s) : s₀.FusesKept (s.bootNumber norOk) := by
  have hdrawn : s₀.FusesKept (match Tab.get? s.drw.ret 1 with
      | some r => if r.data.length = 4 then ((leNat r.data + 1) % 2 ^ 32, s) else (s.freeWord % 2 ^ 32, s.draw)
      | none => (s.freeWord % 2 ^ 32, s.draw)).2 := by
    split
    · exact .ite_snd hs hs.draw
    · exact hs.draw
  unfold State.bootNumber
  split
  next n t e =>
  have ht : s₀.FusesKept t := .of_snd e hdrawn
  extract_lets boot u
  have hu : s₀.FusesKept u := ht.upd rfl
  exact .ite hu hu.keepGroup

theorem State.FusesKept.applyPlan (hs : s₀.FusesKept s) : s₀.FusesKept s.applyPlan := by
  unfold State.applyPlan
  extract_lets _ s₁ s₂ s₃
  have hs₁ : s₀.FusesKept s₁ := .foldl hs (fun _ _ ht => ht.wr)
  have hs₂ : s₀.FusesKept s₂ := by
    unfold s₂
    split
    · extract_lets s₄ s₅
      have hs₄ : s₀.FusesKept s₄ := .foldl hs₁ (fun _ _ ht => ht.wr)
      have hs₅ : s₀.FusesKept s₅ := .foldl hs₄ (fun _ _ ht => ht.wr)
      exact hs₅.wr
    · exact .wr (.foldl hs₁ (fun _ _ ht => ht.wr))
  have hs₃ : s₀.FusesKept s₃ := .foldl hs₂ (fun _ _ ht => ht.coreDiv)
  refine .foldl hs₃ (fun _ _ ht => ?_)
  extract_lets s₄
  have hs₄ : s₀.FusesKept s₄ := ht.retarget.wr
  exact hs₄.wr.wr

theorem State.FusesKept.bootDrawer {warm norOk : Bool} (hs : s₀.FusesKept s) :
    s₀.FusesKept (s.bootDrawer warm norOk) := by
  unfold State.bootDrawer
  extract_lets s₁ _ s₂ _ s₃
  have hs₁ : s₀.FusesKept s₁ := hs.bootFail.raise
  have hs₂ : s₀.FusesKept s₂ := .ite hs.drwRestore.settingsApply (.wr (.drwCounts (hs₁.upd rfl)))
  have hs₃ : s₀.FusesKept s₃ := .ite hs₂ (hs₂.upd rfl)
  exact hs₃.bootNumber.applyPlan.applyEndpoint

theorem State.FusesKept.retireAgain (hs : s₀.FusesKept s) : s₀.FusesKept s.retireAgain := by
  unfold State.retireAgain
  split
  · exact hs.wr
  · extract_lets s₁ s₂ s₃
    have hs₁ : s₀.FusesKept s₁ := hs.wr.wr
    have hs₂ : s₀.FusesKept s₂ := by
      unfold s₂
      refine .foldl hs₁ (fun _ _ ht => ?_)
      refine .ite ?_ ht
      extract_lets s₄
      have hs₄ : s₀.FusesKept s₄ := ht.wr
      exact hs₄.upd rfl
    have hs₃ : s₀.FusesKept s₃ := by
      unfold s₃
      refine .foldl hs₂ (fun _ _ ht => ?_)
      refine .ite ?_ ht
      split
      · exact ht.retireSlice
      · exact ht
    exact hs₃.wr

theorem State.FusesKept.bootDomains (hs : s₀.FusesKept s) : s₀.FusesKept s.bootDomains :=
  .foldl hs (fun _ _ ht => .ite ht ht.setDom.wr.wr)

theorem State.FusesKept.bootChannel {norOk : Bool} {c : Nat} {r : Bool × Nat} (hs : s₀.FusesKept s) :
    s₀.FusesKept (s.bootChannel norOk c r) := by
  unfold State.bootChannel
  extract_lets _ s₁
  have hs₁ : s₀.FusesKept s₁ := hs.wr.wr
  exact .ite hs.wr.wr.raise (.ite hs₁ hs₁.draw.keepGroup)

theorem State.FusesKept.bootTrain {norOk : Bool} {train : List (Bool × Nat)} (hs : s₀.FusesKept s) :
    s₀.FusesKept (s.bootTrain norOk train) := by
  unfold State.bootTrain
  extract_lets s₁ s₂
  have hs₁ : s₀.FusesKept s₁ := hs.wr
  have hs₂ : s₀.FusesKept s₂ := .foldl hs₁ (fun _ _ ht => ht.bootChannel)
  exact hs₂.wr

theorem State.FusesKept.imagePlaced {t : Nat} {img : List Byte} (hs : s₀.FusesKept s) :
    s₀.FusesKept (s.imagePlaced t img) :=
  hs.upd rfl

theorem State.FusesKept.bootImages (hs : s₀.FusesKept s) : s₀.FusesKept s.bootImages := by
  unfold State.bootImages
  refine .foldl hs (fun _ _ ht => ?_)
  extract_lets _ _ s₁ s₂
  have hs₁ : s₀.FusesKept s₁ := ht.raise.bootFail
  have hs₂ : s₀.FusesKept s₂ := .ite hs₁.wr hs₁
  exact .ite ht.imagePlaced.imageRuns (hs₂.upd rfl)

theorem State.FusesKept.bootRelease (hs : s₀.FusesKept s) : s₀.FusesKept s.bootRelease := by
  unfold State.bootRelease
  extract_lets _ s₁
  have hs₁ : s₀.FusesKept s₁ := .ite hs.setLocks hs
  exact hs₁.releaseImage.wr

theorem State.FusesKept.bootRun {warm norOk : Bool} {train : List (Bool × Nat)} (hs : s₀.FusesKept s) :
    s₀.FusesKept (s.bootRun warm norOk train) := by
  unfold State.bootRun
  extract_lets t u v w x y z failed boot z'
  have ht : s₀.FusesKept t := hs.bootStep.raise
  have hu : s₀.FusesKept u := ht.bootOtp.bootStep
  have hv : s₀.FusesKept v := .foldl hu fun _ _ h => h.restoreSlot
  clear_value v
  have hw : s₀.FusesKept w := hv.bootLayer1.bootEntry.islActivated
  have hx : s₀.FusesKept x := hw.bootStep.bootDrawer
  have hy : s₀.FusesKept y := hx.bootStep.retireAgain.bootDomains
  have hz : s₀.FusesKept z := hy.bootStep.bootTrain
  clear_value z
  have hfailed : s₀.FusesKept failed := hz.bootFail
  clear_value failed
  have hz' : s₀.FusesKept z' := hz.bootStep.bootImages.bootStep.bootRelease.bootStep
  clear_value z'
  exact .ite hv.enterRecovery (.ite (.wr (hfailed.upd rfl)) (hz'.upd rfl))

theorem State.FusesKept.execColdResetRelease {headSel peerPrsntN norOk : Bool} {train : List (Bool × Nat)}
    (hs : s₀.FusesKept s) :
    OutKept s₀ (Machine.execColdResetRelease headSel peerPrsntN norOk train s) :=
  .ite (.of_state hs) (.of_state (.bootRun (.bootIsland (hs.upd rfl))))

theorem State.FusesKept.execWarmResetEnd {norOk : Bool} {train : List (Bool × Nat)} (hs : s₀.FusesKept s) :
    OutKept s₀ (Machine.execWarmResetEnd norOk train s) :=
  .ite (.of_state (.bootRun (.bootIsland (hs.upd rfl)))) (.of_state hs)

/-! ### The Rail (R87) -/

theorem State.FusesKept.railOn {r : Rail} {origin : Nat} (hs : s₀.FusesKept s) : s₀.FusesKept (s.railOn r origin) := by
  unfold State.railOn
  extract_lets _ s₁ _ s₂
  have hs₁ : s₀.FusesKept s₁ := hs.wr
  have hs₂ : s₀.FusesKept s₂ := hs₁.setRails
  exact .ite hs₂.wr.raise hs₁

theorem State.FusesKept.execRailEnable {origin : Origin} {r : Rail} (hs : s₀.FusesKept s) :
    OutKept s₀ (Machine.execRailEnable origin r s) :=
  .of_state (hs.cfgField (fun _ ht => ht.railOn))

theorem State.FusesKept.dropWork {r : Rail} {q : Qp} (hs : s₀.FusesKept s) : s₀.FusesKept (s.dropWork r q) := by
  unfold State.dropWork
  extract_lets
  exact .foldl hs (fun _ _ ht => ht.setRing)

theorem State.FusesKept.ctxReset {c : Nat} (hs : s₀.FusesKept s) : s₀.FusesKept (s.ctxReset c) := by
  unfold State.ctxReset
  split
  · exact hs
  · extract_lets s₁
    have hs₁ : s₀.FusesKept s₁ := by
      unfold s₁
      split
      · exact .foldl hs.dropWork (fun _ _ ht => ht.finish)
      · exact hs
    exact hs₁.ctxGone

theorem State.FusesKept.railReset {r : Rail} (hs : s₀.FusesKept s) : s₀.FusesKept (s.railReset r) := by
  unfold State.railReset
  extract_lets _ _ _ _ s₁ s₂
  have hs₁ : s₀.FusesKept s₁ := hs.upd rfl
  have hs₂ : s₀.FusesKept s₂ := .rxFlush (.foldl hs₁ (fun _ _ ht => ht.ctxReset))
  exact hs₂.wr.wr.wr

theorem State.FusesKept.execRailReset {origin : Origin} {r : Rail} (hs : s₀.FusesKept s) :
    OutKept s₀ (Machine.execRailReset origin r s) :=
  .of_state (hs.cfgField (fun _ ht => ht.railReset))

theorem State.FusesKept.execRailFail {origin : Origin} {r : Rail} (hs : s₀.FusesKept s) :
    OutKept s₀ (Machine.execRailFail origin r s) :=
  .of_state (hs.cfgField (fun _ ht => ht.railLost))

theorem State.FusesKept.execRailInternalError {r : Rail} {cause : Nat} (hs : s₀.FusesKept s) :
    OutKept s₀ (Machine.execRailInternalError r cause s) :=
  .of_state (.ite hs.railLost hs)

theorem State.FusesKept.execPortLinkChange {lport : Nat} {up fec : Bool} {codewords : Nat} (hs : s₀.FusesKept s) :
    OutKept s₀ (Machine.execPortLinkChange lport up fec codewords s) :=
  .ite (.of_state hs) (.ite (.of_state hs) (.of_state (.ite hs.wrBit.wrBit.wrBit.bump hs.wrBit.wrBit.wrBit.bump.raise)))

/-! ### Frames (R66, R71) -/

theorem State.FusesKept.execRxFrame {frame : Frame} (hs : s₀.FusesKept s) :
    OutKept s₀ (Machine.execRxFrame frame s) :=
  .ite (.of_state hs) (.ite (.of_state hs.bump) (.ite (.of_state hs.bump) (.ite (.of_state hs.slowFrame) (.of_state
    hs.setRails.xoff))))

theorem State.FusesKept.execRocePacketRx {port : Nat} (hs : s₀.FusesKept s) :
    OutKept s₀ (Machine.execRocePacketRx port s) := by
  unfold Machine.execRocePacketRx
  split
  · exact .of_state hs
  · next t₁ e₁ =>
      have ht₁ : s₀.FusesKept t₁ := OptPairKept.state e₁ hs.popFrame
      split
      · exact .ite (.of_state hs) (.ite (.of_state ht₁.slowFrame) (.ite (.of_state ht₁) (.of_state ht₁.packetFor)))
      · exact .of_state hs

theorem State.FusesKept.execCnpRx {port : Nat} (hs : s₀.FusesKept s) : OutKept s₀ (Machine.execCnpRx port s) := by
  unfold Machine.execCnpRx
  split
  · exact .of_state hs
  · next t₁ e₁ =>
      have ht₁ : s₀.FusesKept t₁ := OptPairKept.state e₁ hs.popFrame
      split
      · exact .ite (.of_state (.ite ht₁ ht₁.packetFor)) (.of_state hs)
      · exact .of_state hs

theorem State.FusesKept.execTcpSegmentRx {port : Nat} (hs : s₀.FusesKept s) :
    OutKept s₀ (Machine.execTcpSegmentRx port s) := by
  unfold Machine.execTcpSegmentRx
  split
  · exact .of_state hs
  · next t₁ e₁ =>
      have ht₁ : s₀.FusesKept t₁ := OptPairKept.state e₁ hs.popFrame
      split
      · split
        · exact .of_state ht₁.packetFor
        · exact .of_state ht₁.slowFrame
      · exact .of_state hs

theorem State.FusesKept.execCtxFetchDone {c : Nat} {bad : Bool} (hs : s₀.FusesKept s) :
    OutKept s₀ (Machine.execCtxFetchDone c bad s) := by
  unfold Machine.execCtxFetchDone
  extract_lets _ s₁
  have hs₁ : s₀.FusesKept s₁ := hs.dropHeld.cacheCtx
  split
  · exact .of_state hs
  · exact .ite (.of_state hs) (.ite (.of_state hs.cacheCtx.tcpHandback.raise) (.ite (.of_state hs₁.qpErr) (.of_state
      (.foldl hs₁ (fun _ _ ht => ht.packetRx)))))

/-! ### Timers (R62, R67, R75, R78, R80 to R82) -/

theorem State.FusesKept.execRateRise {c : Nat} (hs : s₀.FusesKept s) : OutKept s₀ (Machine.execRateRise c s) := by
  unfold Machine.execRateRise
  split
  · exact .of_state hs
  · exact .ite (.of_state hs) (.of_state hs.setCtx)

theorem State.FusesKept.execLocalAckTimeout {c : Nat} (hs : s₀.FusesKept s) :
    OutKept s₀ (Machine.execLocalAckTimeout c s) := by
  unfold Machine.execLocalAckTimeout
  split
  · exact .of_state hs
  · exact .ite (.of_state hs.retryFrom) (.of_state hs)

theorem State.FusesKept.execRnrTimerExpiry {c : Nat} (hs : s₀.FusesKept s) :
    OutKept s₀ (Machine.execRnrTimerExpiry c s) := by
  unfold Machine.execRnrTimerExpiry
  split
  · exact .of_state hs
  · exact .ite (.of_state hs) (.ite (.of_state hs.qpErr) (.of_state hs.setQp.resend.pump))

theorem State.FusesKept.execMrInvalidateAck {r : Rail} {key : Nat} (hs : s₀.FusesKept s) :
    OutKept s₀ (Machine.execMrInvalidateAck r key s) := by
  unfold Machine.execMrInvalidateAck
  extract_lets
  split
  · exact .of_state hs
  · exact .of_state (.ite hs.setRails hs.setRails.invalVisible)

theorem State.FusesKept.execMrDrainLimitExpiry {key : Nat} (hs : s₀.FusesKept s) :
    OutKept s₀ (Machine.execMrDrainLimitExpiry key s) := by
  unfold Machine.execMrDrainLimitExpiry
  split
  · exact .of_state hs
  · exact .of_state (.invalSettle (.foldl hs (fun _ _ ht => ht.qpErr)))

theorem State.FusesKept.execOdpResume {r : Rail} {c : Nat} (hs : s₀.FusesKept s) :
    OutKept s₀ (Machine.execOdpResume r c s) := by
  unfold Machine.execOdpResume
  split
  · exact .of_state hs
  · split
    · exact .of_state hs
    · refine .ite (.of_state hs) ?_
      extract_lets s₁
      have hs₁ : s₀.FusesKept s₁ := hs.setQp
      split
      · exact .of_state hs
      · exact .of_state (.pump (.ite hs₁.resend hs₁))

theorem State.FusesKept.execOdpTimeoutExpiry {c : Nat} (hs : s₀.FusesKept s) :
    OutKept s₀ (Machine.execOdpTimeoutExpiry c s) := by
  unfold Machine.execOdpTimeoutExpiry
  split
  · exact .of_state hs
  · split
    · exact .of_state hs
    · exact .ite (.of_state (.ite hs.raise.qpErr hs.raise.qpErr)) (.of_state hs)

theorem State.FusesKept.tcpProbe {c : Nat} {x : Ctx} {t : Tcp} (hs : s₀.FusesKept s) :
    s₀.FusesKept (s.tcpProbe c x t) := by
  unfold State.tcpProbe
  extract_lets
  exact hs.setTcp.sendTcp.unpin

theorem State.FusesKept.execTcpRtoExpiry {c : Nat} (hs : s₀.FusesKept s) :
    OutKept s₀ (Machine.execTcpRtoExpiry c s) := by
  unfold Machine.execTcpRtoExpiry
  split
  · exact .of_state hs
  · split
    · exact .of_state hs
    · refine .ite (.of_state hs) ?_
      refine .ite (.of_state hs.tcpProbe) ?_
      refine .ite (.of_state hs.tcpHandback) ?_
      refine .of_state ?_
      split
      · exact hs.setCtx.tcpResend
      · exact hs.setCtx

/-! ### Descriptors (R84 to R86) -/

theorem State.FusesKept.railDesc {r : Rail} {d : DescRef} {op : Nat} {k : Fetched → State} (hs : s₀.FusesKept s)
    (hk : ∀ (a₀ : Fetched), s₀.FusesKept (k a₀)) :
    OutKept s₀ (s.railDesc r d op k) := by
  unfold State.railDesc
  split
  · exact .of_state hs
  · exact .of_state (.ite (hk _) hs.finish)

theorem State.FusesKept.qpInit {r : Rail} {d : DescRef} {f : Fetched} {c : Nat} (hs : s₀.FusesKept s) :
    s₀.FusesKept (s.qpInit r d f c) := by
  unfold State.qpInit
  extract_lets _ _ s₁
  have hs₁ : s₀.FusesKept s₁ := hs.setCtx
  exact .ite hs.finish (.ite hs.finish hs₁.cacheCtx.finish)

theorem State.FusesKept.qpMove {r : Rail} {d : DescRef} {f : Fetched} {c : Nat} {q : Qp} {n : Nat}
    (hs : s₀.FusesKept s) :
    s₀.FusesKept (s.qpMove r d f c q n) := by
  unfold State.qpMove
  extract_lets
  exact .ite hs.finish (.ite hs.setQp.finish (.ite hs.setQp.finish (.ite hs.setQp.finish.pump (.ite hs.setQp.sqdDone
    (.ite hs.setQp.finish.pump hs.finish)))))

theorem State.FusesKept.execQpModify {r : Rail} {d : DescRef} (hs : s₀.FusesKept s) :
    OutKept s₀ (Machine.execQpModify r d s) := by
  unfold Machine.execQpModify
  extract_lets
  split
  · exact .of_state hs
  · refine .ite (.of_state hs.finish) ?_
    refine .ite (.of_state hs.finish) ?_
    split
    · exact .ite (.of_state hs.finish) (.ite (.of_state hs.qpInit) (.of_state hs.finish))
    · refine .ite (.of_state hs.finish) ?_
      split
      · exact .of_state hs.finish
      · exact .ite (.of_state hs) (.ite (.of_state hs.ctxReset.finish) (.ite (.of_state hs.qpErr.finish) (.of_state
          hs.useCtx.qpMove)))

theorem State.FusesKept.execQpQuery {r : Rail} {d : DescRef} (hs : s₀.FusesKept s) :
    OutKept s₀ (Machine.execQpQuery r d s) := by
  unfold Machine.execQpQuery
  extract_lets
  refine hs.railDesc (fun _ => ?_)
  refine .ite hs.finish ?_
  split
  · exact hs.finish
  · refine .ite hs.finish ?_
    split
    · exact hs.finishDma
    · next t₁ e₂ =>
        have ht₁ : s₀.FusesKept t₁ := ExcKept.state e₂ hs.draw.dmaWrite
        exact ht₁.finish

theorem State.FusesKept.execMrRegister {d : DescRef} (hs : s₀.FusesKept s) :
    OutKept s₀ (Machine.execMrRegister d s) := by
  unfold Machine.execMrRegister
  extract_lets
  split
  · exact .of_state hs
  · exact .ite (.of_state hs.finish) (.of_state hs.setRails.finish)

theorem State.FusesKept.execMrInvalidate {d : DescRef} (hs : s₀.FusesKept s) :
    OutKept s₀ (Machine.execMrInvalidate d s) := by
  unfold Machine.execMrInvalidate
  split
  · exact .of_state hs
  · exact .ite (.of_state hs) (.ite (.of_state hs.finish) (.of_state hs.invalBegin))

theorem State.FusesKept.postQp {r : Rail} {d : DescRef} {f : Fetched} {k : State → Nat → Qp → State}
    (hs : s₀.FusesKept s) (hk : ∀ (t : State) (a₁ : Nat) (a₂ : Qp), s₀.FusesKept t → s₀.FusesKept (k t a₁ a₂)) :
    s₀.FusesKept (s.postQp r d f k) := by
  unfold State.postQp
  split
  · exact hs.finish
  · split
    · exact hs.finish
    · exact .ite hs.finish (.ite hs.finish (hk _ _ _ hs.useCtx))

theorem State.FusesKept.execPostSend {r : Rail} {d : DescRef} (hs : s₀.FusesKept s) :
    OutKept s₀ (Machine.execPostSend r d s) := by
  unfold Machine.execPostSend
  refine hs.railDesc (fun _ => ?_)
  refine hs.postQp (fun _ _ _ ht => ?_)
  extract_lets
  exact .ite ht.finish (.ite ht.finish (.ite ht.finish (.ite ht ht.setQp.pump)))

theorem State.FusesKept.execPostRecv {r : Rail} {d : DescRef} (hs : s₀.FusesKept s) :
    OutKept s₀ (Machine.execPostRecv r d s) := by
  unfold Machine.execPostRecv
  refine hs.railDesc (fun _ => ?_)
  refine hs.postQp (fun _ _ _ ht => ?_)
  refine .ite ht.finish ?_
  refine .ite ht ?_
  extract_lets
  split
  · extract_lets s₁
    have hs₁ : s₀.FusesKept s₁ := ht.finish
    exact .ite hs₁.qpErr hs₁
  · exact ht.setQp

theorem State.FusesKept.execPktTx {r : Rail} {d : DescRef} (hs : s₀.FusesKept s) :
    OutKept s₀ (Machine.execPktTx r d s) := by
  unfold Machine.execPktTx
  extract_lets
  refine hs.railDesc (fun _ => ?_)
  extract_lets
  refine .ite hs.finish ?_
  refine .ite hs.finish ?_
  split
  · exact hs.finishDma
  · exact hs.emit.finish

theorem State.FusesKept.execPktRxBuf {r : Rail} {d : DescRef} (hs : s₀.FusesKept s) :
    OutKept s₀ (Machine.execPktRxBuf r d s) := by
  unfold Machine.execPktRxBuf
  extract_lets
  exact hs.railDesc (fun _ => .ite hs (.ite hs.finish hs.setPhase.slowDrain))

theorem State.FusesKept.execTcpInstall {r : Rail} {d : DescRef} (hs : s₀.FusesKept s) :
    OutKept s₀ (Machine.execTcpInstall r d s) := by
  unfold Machine.execTcpInstall
  extract_lets
  refine hs.railDesc (fun _ => ?_)
  extract_lets _ _ _ _ s₁
  have hs₁ : s₀.FusesKept s₁ := hs.setCtx
  refine .ite hs.finish ?_
  split
  · exact hs.finish
  · exact .ite hs.finish (.ite hs.finish (.ite hs.finish hs₁.cacheCtx.finish))

theorem State.FusesKept.execTcpRelease {r : Rail} {d : DescRef} (hs : s₀.FusesKept s) :
    OutKept s₀ (Machine.execTcpRelease r d s) := by
  unfold Machine.execTcpRelease
  extract_lets
  refine hs.railDesc (fun _ => ?_)
  split
  · exact hs.finish
  · split
    · exact hs.finish
    · exact .ite hs.finish hs.tcpHandback.finish

theorem State.FusesKept.execOdpWait {r : Rail} {d : DescRef} (hs : s₀.FusesKept s) :
    OutKept s₀ (Machine.execOdpWait r d s) :=
  hs.railDesc (fun _ => .ite hs hs.setPhase.odpDeliver)

/-! ### Doorbells (R55, R56) -/

theorem State.FusesKept.ringRefused {u : UnitId} {r : Nat} {origin : Origin} (hs : s₀.FusesKept s) :
    s₀.FusesKept (s.ringRefused u r origin) :=
  hs.unitErr

theorem State.FusesKept.doorbellDropped {u : UnitId} {r reg : Nat} {origin : Origin} (hs : s₀.FusesKept s) :
    s₀.FusesKept (s.doorbellDropped u r reg origin) := by
  unfold State.doorbellDropped
  extract_lets s₁
  have hs₁ : s₀.FusesKept s₁ := hs.unitErr
  exact .ite hs₁.raise hs₁

theorem State.FusesKept.execDbProdWrite {origin : Origin} {u : UnitId} {ring value : Nat} (hs : s₀.FusesKept s) :
    OutKept s₀ (Machine.execDbProdWrite origin u ring value s) :=
  .ite (.of_state hs) (.ite (.of_state hs.doorbellDropped) (.ite (.of_state hs.setRing) (.ite (.of_state
    hs.setRing.ringError) (.of_state hs.setRing.setRing))))

theorem State.FusesKept.execDbCheadWrite {origin : Origin} {u : UnitId} {ring value : Nat} (hs : s₀.FusesKept s) :
    OutKept s₀ (Machine.execDbCheadWrite origin u ring value s) :=
  .ite (.of_state hs) (.ite (.of_state hs.doorbellDropped) (.ite (.of_state hs.setRing) (.ite (.of_state
    hs.setRing.ringError) (.of_state hs.setRing.setRing))))

theorem State.FusesKept.execDoorbellBadAccess {origin : Origin} {u : UnitId} {off : Nat} {size : AccSize}
    {store : Bool} (hs : s₀.FusesKept s) :
    OutKept s₀ (Machine.execDoorbellBadAccess origin u off size store s) :=
  .ite (.of_state hs) (.ite (.ite (.ite (.of_state hs.unitErr) (.of_state hs)) (.of_state hs.readReturn)) (.ite
    (.of_state hs.unitErr) (.of_state hs.unitErr.readReturn.coreFault)))

/-! ### The ring state machine (R57, R527) -/

theorem State.FusesKept.ringActivate {u : UnitId} {r : Nat} (hs : s₀.FusesKept s) :
    s₀.FusesKept (s.ringActivate u r) := by
  unfold State.ringActivate
  extract_lets _ s₁ s₂
  have hs₁ : s₀.FusesKept s₁ := hs.wr.wr.wr.wr
  have hs₂ : s₀.FusesKept s₂ := hs₁.wr.wr
  exact hs₂.setRing

theorem State.FusesKept.execRingEnable {origin : Origin} {u : UnitId} {ring : Nat} (hs : s₀.FusesKept s) :
    OutKept s₀ (Machine.execRingEnable origin u ring s) :=
  .ite (.of_state hs.ringRefused) (.ite (.of_state hs.ringActivate) (.of_state hs.ringActivate.ringError))

theorem State.FusesKept.ringGone {u : UnitId} {r : Nat} (hs : s₀.FusesKept s) : s₀.FusesKept (s.ringGone u r) := by
  unfold State.ringGone
  split
  · exact hs.vatRingGone
  · exact hs.pressRingGone
  · exact hs

theorem State.FusesKept.ringDisabled {u : UnitId} {r : Nat} (hs : s₀.FusesKept s) :
    s₀.FusesKept (s.ringDisabled u r) := by
  unfold State.ringDisabled
  extract_lets s₁
  have hs₁ : s₀.FusesKept s₁ := hs.wr.wr
  exact hs₁.setRing.ringGone

theorem State.FusesKept.withdraw {u : UnitId} {r : Nat} {f : Fetched} (hs : s₀.FusesKept s) :
    s₀.FusesKept (s.withdraw u r f) := by
  unfold State.withdraw
  extract_lets
  refine .finish ?_
  split
  · exact hs.vatWithdraw
  · exact hs.upd rfl
  · exact hs.upd rfl
  · exact hs

theorem State.FusesKept.withdrawAll {u : UnitId} {r : Nat} (hs : s₀.FusesKept s) :
    s₀.FusesKept (s.withdrawAll u r) :=
  .foldl hs (fun _ _ ht => ht.withdraw)

theorem State.FusesKept.flushFetched {u : UnitId} {r : Nat} (hs : s₀.FusesKept s) :
    s₀.FusesKept (s.flushFetched u r) :=
  .foldl hs (fun _ _ ht => ht.finish)

theorem State.FusesKept.execRingDisable {origin : Origin} {u : UnitId} {ring : Nat} (hs : s₀.FusesKept s) :
    OutKept s₀ (Machine.execRingDisable origin u ring s) :=
  .ite (.of_state hs.ringRefused) (.ite (.of_state hs.ringDisabled) (.ite (.of_state hs.wr.setRing.withdrawAll)
    (.of_state hs.ringRefused)))

theorem State.FusesKept.execRingDisableDone {u : UnitId} {ring : Nat} (hs : s₀.FusesKept s) :
    OutKept s₀ (Machine.execRingDisableDone u ring s) :=
  .ite (.of_state hs.ringDisabled) (.of_state hs)

theorem State.FusesKept.execRingStop {origin : Origin} {u : UnitId} {ring : Nat} {flush : Bool}
    (hs : s₀.FusesKept s) :
    OutKept s₀ (Machine.execRingStop origin u ring flush s) :=
  .ite (.of_state hs.ringRefused) (.ite (.of_state hs.wr.wr.wr.setRing.withdrawAll.flushFetched) (.of_state
    hs.wr.wr.wr.setRing))

/-! ### Fetching (R49, R52) -/

theorem State.FusesKept.execDescriptorFetch {u : UnitId} {ring : Nat} (hs : s₀.FusesKept s) :
    OutKept s₀ (Machine.execDescriptorFetch u ring s) := by
  unfold Machine.execDescriptorFetch
  refine .ite (.of_state hs) ?_
  extract_lets
  split
  · exact .of_state hs.dmaFailed.ringError
  · exact .of_state hs
  · exact .of_state hs.wr.setRing

theorem State.FusesKept.ringStopped {u : UnitId} {r : Nat} (hs : s₀.FusesKept s) :
    s₀.FusesKept (s.ringStopped u r) :=
  hs.wr.wr

theorem State.FusesKept.stopRest {u : UnitId} {r : Nat} (hs : s₀.FusesKept s) : s₀.FusesKept (s.stopRest u r) := by
  unfold State.stopRest
  extract_lets
  refine .ite hs.ringStopped ?_
  split
  · refine .ite hs ?_
    split
    · exact hs.post.wr.ringStopped
    · exact .ite hs.ringStopped hs
  · exact .ite hs.ringStopped hs

theorem State.FusesKept.execRingStopDone {u : UnitId} {ring : Nat} (hs : s₀.FusesKept s) :
    OutKept s₀ (Machine.execRingStopDone u ring s) :=
  .ite (.of_state hs) (.ite (.of_state (.stopRest (.ite hs.withdrawAll.flushFetched hs))) (.of_state (.ite
    hs.withdrawAll.flushFetched hs)))

theorem State.FusesKept.execRingStart {origin : Origin} {u : UnitId} {ring : Nat} (hs : s₀.FusesKept s) :
    OutKept s₀ (Machine.execRingStart origin u ring s) :=
  .ite (.of_state hs.ringRefused) (.of_state hs.wr)

/-! ### Starting (R48, R526) -/

theorem State.FusesKept.execDescriptorStart {u : UnitId} {d : DescRef} (hs : s₀.FusesKept s) :
    OutKept s₀ (Machine.execDescriptorStart u d s) := by
  unfold Machine.execDescriptorStart
  extract_lets
  split
  · exact .of_state hs
  · refine .ite (.of_state hs) ?_
    split
    · exact .of_state hs.setPhase
    · exact .ite (.of_state hs) (.of_state hs.finish)

theorem State.FusesKept.execMsiHoldoffExpiry {u : UnitId} {ring : Nat} (hs : s₀.FusesKept s) :
    OutKept s₀ (Machine.execMsiHoldoffExpiry u ring s) :=
  .ite (.of_state hs) (.ite (.of_state hs.msi.setRing) (.of_state hs.setRing))

/-! ### Pails and payload (R102, R107, R366) -/

theorem State.FusesKept.askPails {k cls n n₁ : Nat} (hs : s₀.FusesKept s) : s₀.FusesKept (s.askPails k cls n n₁) := by
  induction n generalizing s k cls n₁ with
  | zero =>
    unfold State.askPails
    exact hs
  | succ n ih =>
    unfold State.askPails
    exact .ite hs (ih hs.pailRequest)

theorem State.FusesKept.pailsReady {k n : Nat} (hs : s₀.FusesKept s) : s₀.FusesKept (s.pailsReady k n).2 := by
  unfold State.pailsReady
  split
  · exact hs
  · extract_lets
    exact .ite hs hs.setCmd.askPails

theorem State.FusesKept.pull {k : Nat} {c : NvmeCmd} {n : Nat} (hs : s₀.FusesKept s) :
    s₀.FusesKept (s.pull k c n) := by
  unfold State.pull
  extract_lets
  refine .ite hs.setCmd ?_
  extract_lets
  split
  · extract_lets _ s₁
    have hs₁ : s₀.FusesKept s₁ := hs.setCmd
    refine .ite hs₁ ?_
    split
    · refine .foldl_fst hs₁ (fun _ _ ht => ?_)
      split
      · exact ht
      · exact ht.postWr
    · exact hs₁.tcpSend
    · exact hs₁
  · exact hs.setCmd

theorem State.FusesKept.pailPut {p : Nat} {bs : List Byte} (hs : s₀.FusesKept s) : s₀.FusesKept (s.pailPut p bs) :=
  hs.upd rfl

/-! ### The plain data of a block (R34, R35, R97, R98) -/

theorem State.FusesKept.blockNow {vol block : Nat} (hs : s₀.FusesKept s) : s₀.FusesKept (s.blockNow vol block).2 := by
  unfold State.blockNow
  split
  · exact hs
  · split
    · exact hs
    · exact .ite_snd hs hs.storedBlock

/-! ### Reading (R34, R93, R96) -/

theorem State.FusesKept.readBlock {k i : Nat} {raw : List Byte} {tags : Nat × Nat} (hs : s₀.FusesKept s) :
    s₀.FusesKept (s.readBlock k i raw tags) := by
  unfold State.readBlock
  split
  · exact hs
  · extract_lets
    exact .blkDone (.setBlk (hs.upd rfl))

theorem State.FusesKept.readMedium {k i : Nat} (hs : s₀.FusesKept s) : s₀.FusesKept (s.readMedium k i) := by
  unfold State.readMedium
  split
  · exact hs
  · split
    · exact hs.readBlock
    · refine .ite hs.blkDone ?_
      extract_lets
      refine .ite hs ?_
      split
      · next t₁ e₃ =>
          have ht₁ : s₀.FusesKept t₁ := .of_snd e₃ hs.copyBytes
          exact ht₁.setBlk
      · next t₁ e₃ =>
          have ht₁ : s₀.FusesKept t₁ := .of_snd e₃ hs.copyBytes
          exact ht₁.blkDone

theorem State.FusesKept.readBegin {k i : Nat} (hs : s₀.FusesKept s) : s₀.FusesKept (s.readBegin k i) := by
  unfold State.readBegin
  split
  · exact hs
  · refine .ite hs ?_
    extract_lets
    split
    · extract_lets s₁
      have hs₁ : s₀.FusesKept s₁ := hs.widxMap
      exact hs₁.setBlk.readBlock
    · exact .ite hs.setBlk hs.readMedium

/-! ### Writing (R97, R107) -/

theorem State.FusesKept.blockData {c : NvmeCmd} {block : Nat} (hs : s₀.FusesKept s) :
    s₀.FusesKept (s.blockData c block).2 := by
  unfold State.blockData
  extract_lets
  refine .ite_snd ?_ hs
  split
  · next e₂ => exact .of_snd e₂ hs.blockNow
  · next e₂ => exact .of_snd e₂ hs.blockNow

theorem State.FusesKept.enterBlock {k i : Nat} {p : Option Nat} (hs : s₀.FusesKept s) :
    s₀.FusesKept (s.enterBlock k i p) := by
  unfold State.enterBlock
  split
  · exact hs
  · extract_lets
    split
    · next t₁ e₃ =>
        have ht₁ : s₀.FusesKept t₁ := .of_snd e₃ hs.blockData
        exact ht₁.blkDone
    · next t₁ e₃ =>
        have ht₁ : s₀.FusesKept t₁ := .of_snd e₃ hs.blockData
        extract_lets s₁
        have hs₁ : s₀.FusesKept s₁ := by
          unfold s₁
          split
          · exact ht₁.pailPut.widxInsert
          · exact ht₁
        exact hs₁.setBlk

theorem State.FusesKept.enterBlocks {k : Nat} (hs : s₀.FusesKept s) : s₀.FusesKept (s.enterBlocks k).2 := by
  unfold State.enterBlocks
  extract_lets
  split
  · exact hs
  · extract_lets
    exact .ite_snd hs (.ite_snd (.ite_snd hs hs.setCmd.bump.raise) (.ite_snd hs (.foldl hs (fun _ _ ht =>
      ht.enterBlock))))

/-! ### Deallocating (R98) -/

theorem State.FusesKept.deallocRec {k i : Nat} (hs : s₀.FusesKept s) : s₀.FusesKept (s.deallocRec k i) := by
  unfold State.deallocRec
  split
  · exact hs
  · split
    next t₁ e₂ =>
    have ht₁ : s₀.FusesKept t₁ := .of_snd e₂ hs.journal
    exact ht₁.setBlk

/-! ### Records of writes (R149, R250) -/

theorem State.FusesKept.dataRec {k i : Nat} {key curd : List Byte} (hs : s₀.FusesKept s) :
    s₀.FusesKept (s.dataRec k i key curd) := by
  unfold State.dataRec
  split
  · exact hs
  · extract_lets
    split
    next t₁ e₂ =>
    have ht₁ : s₀.FusesKept t₁ := .of_snd e₂ hs.journal
    exact ht₁.setBlk

theorem State.FusesKept.refRec {k i t locator : Nat} (hs : s₀.FusesKept s) :
    s₀.FusesKept (s.refRec k i t locator) := by
  unfold State.refRec
  extract_lets
  split
  · exact hs
  · extract_lets
    refine .ite ?_ ?_
    · split
      next t₁ e₂ =>
      have ht₁ : s₀.FusesKept t₁ := .of_snd e₂ hs.journal
      exact ht₁.setBlk
    · split
      next t₁ e₂ =>
      have ht₁ : s₀.FusesKept t₁ := .of_snd e₂ hs.journal
      split
      next t₂ e₃ =>
      have ht₂ : s₀.FusesKept t₂ := .of_snd e₃ ht₁.journal
      exact ht₂.setBlk

/-! ### Forwarding (R327, R328) -/

theorem State.FusesKept.forwardPart {k sh : Nat} (hs : s₀.FusesKept s) : s₀.FusesKept (s.forwardPart k sh) := by
  unfold State.forwardPart
  extract_lets _ _ s₁
  have hs₁ : s₀.FusesKept s₁ := hs.setTen
  split
  · exact hs
  · extract_lets s₂
    have hs₂ : s₀.FusesKept s₂ := hs₁.setCmd
    exact hs₂.tenSend

/-! ### Beginning a command -/

theorem State.FusesKept.startBlks {k : Nat} (hs : s₀.FusesKept s) : s₀.FusesKept (s.startBlks k) := by
  unfold State.startBlks
  split
  · exact hs
  · extract_lets
    exact .foldl hs (fun _ _ ht => .ite ht (.ite ht.readBegin (.ite ht.deallocRec (.ite ht.enterBlock ht))))

theorem State.FusesKept.pathRefused {k : Nat} {c : NvmeCmd} {st : Nat} (hs : s₀.FusesKept s) :
    s₀.FusesKept (s.pathRefused k c st) := by
  unfold State.pathRefused
  refine .ite hs.complete ?_
  extract_lets _ s₁
  have hs₁ : s₀.FusesKept s₁ := hs.setPar.setCmd
  exact hs₁.countHeld.finishIfDone

theorem State.FusesKept.placed {k : Nat} {c : NvmeCmd} {go : NvmeCmd → State → State} (hs : s₀.FusesKept s)
    (hgo : ∀ (a₀ : NvmeCmd) (t : State), s₀.FusesKept t → s₀.FusesKept (go a₀ t)) :
    s₀.FusesKept (s.placed k c go) := by
  unfold State.placed
  extract_lets
  exact .ite hs.pathRefused (.ite hs.hold (hgo _ _ hs))

theorem State.FusesKept.turn {k op : Nat} {f : NvmeCmd → State} (hs : s₀.FusesKept s)
    (hf : ∀ (a₀ : NvmeCmd), s₀.FusesKept (f a₀)) :
    OutKept s₀ (s.turn k op f) := by
  unfold State.turn
  split
  · exact .of_state hs
  · exact .ite (.of_state (hf _)) (.of_state hs)

/-! ### Capsules (R94, R102, R109, R113) -/

theorem State.FusesKept.capsuleCut {q : Queue} {bs : List Byte} (hs : s₀.FusesKept s) :
    s₀.FusesKept (s.capsuleCut q bs) := by
  unfold State.capsuleCut
  refine .ite hs ?_
  refine .ite (.ite hs hs.cutQueues.raise) ?_
  refine .ite ?_ hs
  extract_lets _ _ s₁
  have hs₁ : s₀.FusesKept s₁ := by
    unfold s₁
    split
    · exact hs.setCtrl
    · exact hs
  exact .ite hs₁.cutQueues.raise hs₁

theorem State.FusesKept.takeIn {x : Nat} {bs : List Byte} {bad : Bool} {at_ : Nat} (hs : s₀.FusesKept s) :
    s₀.FusesKept (s.takeIn x bs bad at_) := by
  simp only [State.takeIn]
  split
  · refine .setPar ?_
    refine .abortCapsule ?_
    split
    · exact hs.keepAlive.capsuleCut
    · exact hs
  · refine .ite ?_ ?_
    · refine .countCtxs ?_
      refine .takeWaiting ?_
      refine .setPar ?_
      split
      · exact hs.keepAlive.capsuleCut
      · exact hs
    · refine .raise ?_
      refine .countCtxs ?_
      refine .takeWaiting ?_
      refine .setPar ?_
      split
      · exact hs.keepAlive.capsuleCut
      · exact hs

theorem State.FusesKept.execCapsuleArrival (hs : s₀.FusesKept s) : OutKept s₀ (Machine.execCapsuleArrival s) := by
  unfold Machine.execCapsuleArrival
  extract_lets
  split
  · exact .of_state hs
  · exact .ite (.of_state hs) (.of_state hs.setRails.takeIn)

/-! ### Budgets (R100, R103) -/

theorem State.FusesKept.execBudgetRefill (hs : s₀.FusesKept s) : OutKept s₀ (Machine.execBudgetRefill s) :=
  .of_state hs.setPar

theorem State.FusesKept.eligible {k : Nat} {c : NvmeCmd} (hs : s₀.FusesKept s) : s₀.FusesKept (s.eligible k c) := by
  unfold State.eligible
  extract_lets s₁
  have hs₁ : s₀.FusesKept s₁ := hs.setCmd
  exact hs₁.setPar

theorem State.FusesKept.execBudgetGatePass {k : Nat} (hs : s₀.FusesKept s) :
    OutKept s₀ (Machine.execBudgetGatePass k s) := by
  unfold Machine.execBudgetGatePass
  extract_lets
  split
  · exact .of_state hs
  · refine .ite (.of_state hs) ?_
    refine .ite (.of_state hs.eligible) ?_
    split
    · exact .of_state hs
    · exact .of_state hs.setPar.eligible

/-! ### Dispatch (R104, R105) -/

theorem State.FusesKept.nextDispatch (hs : s₀.FusesKept s) : OptPairKept s₀ s.nextDispatch := by
  unfold State.nextDispatch
  extract_lets
  split
  · exact .of_state hs
  · split
    · exact .none
    · refine .of_map (fun _ => ?_)
      extract_lets
      exact hs.setPar

theorem State.FusesKept.dispatch {k : Nat} {c : NvmeCmd} (hs : s₀.FusesKept s) : s₀.FusesKept (s.dispatch k c) := by
  unfold State.dispatch
  extract_lets _ _ s₁
  have hs₁ : s₀.FusesKept s₁ := hs.setPar
  exact hs₁.setCmd

theorem State.FusesKept.execDispatch (hs : s₀.FusesKept s) : OutKept s₀ (Machine.execDispatch s) := by
  unfold Machine.execDispatch
  split
  · exact .of_state hs
  · next t₁ e₁ =>
      have ht₁ : s₀.FusesKept t₁ := by
        refine OptPairKept.state e₁ ?_
        split
        · exact hs.nextDispatch
        · exact .none
      split
      · exact .of_state ht₁
      · exact .ite (.of_state (.complete (.ite ht₁.dispatch ht₁.dispatch.noteTable))) (.of_state (.ite ht₁.dispatch
          ht₁.dispatch.noteTable))

theorem State.FusesKept.execAgeLimitExpiry {k : Nat} (hs : s₀.FusesKept s) :
    OutKept s₀ (Machine.execAgeLimitExpiry k s) := by
  unfold Machine.execAgeLimitExpiry
  split
  · exact .of_state hs
  · exact .ite (.of_state hs) (.of_state (.raise (.ite hs.setCmd.setPar.bump.meterEvent hs.setCmd.setPar.bump)))

/-! ### The NVMe commands (R93, R94, R98) -/

theorem State.FusesKept.goBlks {k : Nat} {ps : List Nat} (hs : s₀.FusesKept s) : s₀.FusesKept (s.goBlks k ps) :=
  .finishIfDone (.startBlks (.foldl hs (fun _ _ ht => ht.forwardPart)))

theorem State.FusesKept.beginPlain {k : Nat} {c : NvmeCmd} (hs : s₀.FusesKept s) :
    s₀.FusesKept (s.beginPlain k c) := by
  unfold State.beginPlain
  extract_lets
  exact hs.setCmd.goBlks

theorem State.FusesKept.runRead {k : Nat} {c : NvmeCmd} (hs : s₀.FusesKept s) : s₀.FusesKept (s.runRead k c) := by
  unfold State.runRead
  extract_lets
  refine .ite hs.complete ?_
  refine hs.placed (fun _ _ ht => ?_)
  split
  · next e₁ => exact .of_snd e₁ ht.pailsReady
  · next t₂ e₁ =>
      have ht₂ : s₀.FusesKept t₂ := .of_snd e₁ ht.pailsReady
      exact ht₂.beginPlain

theorem State.FusesKept.execNvmeRead {k : Nat} {ms : List Medium} (hs : s₀.FusesKept s) :
    OutKept s₀ (Machine.execNvmeRead k ms s) :=
  hs.turn (fun _ => hs.scripted (fun _ ht => ht.runRead))

theorem State.FusesKept.execNvmeVerify {k : Nat} {ms : List Medium} (hs : s₀.FusesKept s) :
    OutKept s₀ (Machine.execNvmeVerify k ms s) :=
  hs.turn (fun _ => hs.scripted (fun _ ht => ht.runRead))

theorem State.FusesKept.execNvmeWrite {k : Nat} (hs : s₀.FusesKept s) : OutKept s₀ (Machine.execNvmeWrite k s) := by
  unfold Machine.execNvmeWrite
  refine hs.turn (fun _ => ?_)
  extract_lets
  refine .ite hs.complete ?_
  refine hs.placed (fun _ _ ht => ?_)
  split
  · next e₁ => exact .of_snd e₁ ht.pailsReady
  · next t₂ e₁ =>
      have ht₂ : s₀.FusesKept t₂ := .of_snd e₁ ht.pailsReady
      exact ht₂.pull

theorem State.FusesKept.execNvmeFlush {k : Nat} (hs : s₀.FusesKept s) : OutKept s₀ (Machine.execNvmeFlush k s) :=
  hs.turn (fun _ => hs.setCmd.complete)

theorem State.FusesKept.execNvmeWriteZeroes {k : Nat} {ms : List Medium} (hs : s₀.FusesKept s) :
    OutKept s₀ (Machine.execNvmeWriteZeroes k ms s) := by
  unfold Machine.execNvmeWriteZeroes
  refine hs.turn (fun _ => ?_)
  refine hs.scripted (fun _ ht => ?_)
  extract_lets
  exact .ite ht.complete (ht.placed (fun _ _ ht₁ => ht₁.beginPlain))

theorem State.FusesKept.chargeRanges {k : Nat} {c : NvmeCmd} (hs : s₀.FusesKept s) :
    OptPairKept s₀ (s.chargeRanges k c) := by
  unfold State.chargeRanges
  extract_lets
  split
  · exact .of_state hs
  · exact .of_map (fun _ => hs.setPar.setCmd)

theorem State.FusesKept.execNvmeDatasetManagement {k : Nat} (hs : s₀.FusesKept s) :
    OutKept s₀ (Machine.execNvmeDatasetManagement k s) := by
  unfold Machine.execNvmeDatasetManagement
  split
  · exact .of_state hs
  · refine .ite (.of_state hs) ?_
    refine .ite (.of_state hs.complete) ?_
    refine .ite (.of_state (.ite hs.pull hs)) ?_
    refine .ite (.of_state hs) ?_
    split
    · exact .of_state hs
    · next t₁ e₂ =>
        have ht₁ : s₀.FusesKept t₁ := OptPairKept.state e₂ hs.chargeRanges
        exact .ite (.of_state ht₁.complete) (.ite (.of_state ht₁.setCmd.complete) (.ite (.of_state ht₁.complete)
          (.of_state (ht₁.placed (fun _ _ ht => ht.beginPlain)))))

theorem State.FusesKept.sdIntent {k i : Nat} (hs : s₀.FusesKept s) : s₀.FusesKept (s.sdIntent k i) := by
  unfold State.sdIntent
  split
  · exact hs
  · refine .ite hs ?_
    split
    next t₁ e₂ =>
    have ht₁ : s₀.FusesKept t₁ := .of_snd e₂ hs.journal
    exact ht₁.setBlk

theorem State.FusesKept.sdRun {k i : Nat} (hs : s₀.FusesKept s) : s₀.FusesKept (s.sdRun k i) := by
  unfold State.sdRun
  split
  · exact hs
  · split
    · split
      · next e₄ => exact .of_snd e₄ hs.sdErase
      · next t₁ e₄ =>
          have ht₁ : s₀.FusesKept t₁ := .of_snd e₄ hs.sdErase
          split
          · exact ht₁.setCmd.setBlk
          · exact ht₁
    · exact hs

theorem State.FusesKept.execSecureDeallocate {k : Nat} {ms : List Medium} (hs : s₀.FusesKept s) :
    OutKept s₀ (Machine.execSecureDeallocate k ms s) := by
  unfold Machine.execSecureDeallocate
  split
  · exact .of_state hs
  · refine .ite (.of_state hs) ?_
    refine .ite (.of_state (hs.scripted (fun _ ht => .foldl ht (fun _ _ ht₁ => ht₁.sdRun)))) ?_
    refine .ite (.of_state hs) ?_
    refine .ite (.of_state hs.complete) ?_
    refine .of_state ?_
    refine hs.placed (fun _ _ ht => ?_)
    extract_lets _ s₁ s₂
    have hs₁ : s₀.FusesKept s₁ := ht.setCmd
    have hs₂ : s₀.FusesKept s₂ := .foldl hs₁ (fun _ _ ht₁ => ht₁.forwardPart)
    exact .finishIfDone (.foldl hs₂ (fun _ _ ht₁ => ht₁.sdIntent))

theorem State.FusesKept.execNvmeAbort {k : Nat} (hs : s₀.FusesKept s) : OutKept s₀ (Machine.execNvmeAbort k s) := by
  unfold Machine.execNvmeAbort
  split
  · exact .of_state hs
  · exact .ite (.of_state hs.setCmd.complete) (.of_state hs)

theorem State.FusesKept.execNvmeKeepAlive {k : Nat} (hs : s₀.FusesKept s) :
    OutKept s₀ (Machine.execNvmeKeepAlive k s) := by
  unfold Machine.execNvmeKeepAlive
  split
  · exact .of_state hs
  · exact .ite (.of_state hs.keepAlive.complete) (.of_state hs)

theorem State.FusesKept.execNvmeAsyncEventRequest {k : Nat} (hs : s₀.FusesKept s) :
    OutKept s₀ (Machine.execNvmeAsyncEventRequest k s) := by
  unfold Machine.execNvmeAsyncEventRequest
  split
  · exact .of_state hs
  · refine .ite (.of_state hs) ?_
    split
    · exact .of_state hs.complete
    · refine .ite (.of_state hs) ?_
      refine .ite (.of_state hs.complete) ?_
      split
      · exact .of_state hs.complete.finish
      · exact .of_state hs.setCtrl.anaDeliver

/-! ### Payload (R96, R97, R107) -/

theorem State.FusesKept.execPayloadComplete {k : Nat} {ms : List Medium} (hs : s₀.FusesKept s) :
    OutKept s₀ (Machine.execPayloadComplete k ms s) := by
  unfold Machine.execPayloadComplete
  extract_lets
  split
  · exact .of_state hs
  · refine .ite (.of_state hs) ?_
    refine .ite (.of_state hs.complete) ?_
    refine .of_state ?_
    refine hs.scripted (fun _ ht => ?_)
    split
    · next e₂ => exact .of_snd e₂ ht.enterBlocks
    · next t₂ e₂ =>
        have ht₂ : s₀.FusesKept t₂ := .of_snd e₂ ht.enterBlocks
        exact .finishIfDone (.foldl ht₂ (fun _ _ ht₁ => ht₁.forwardPart))

theorem State.FusesKept.execChunkReadTimeout {k i : Nat} {ms : List Medium} (hs : s₀.FusesKept s) :
    OutKept s₀ (Machine.execChunkReadTimeout k i ms s) := by
  unfold Machine.execChunkReadTimeout
  split
  · split
    · exact .ite (.of_state (hs.scripted (fun _ ht => ht.readMedium))) (.of_state hs)
    · exact .of_state hs
  · exact .of_state hs

/-! ### Held commands, keep-alive, associations, cuts (R109 to R113, R119) -/

theorem State.FusesKept.execHoldLimitExpiry {k : Nat} (hs : s₀.FusesKept s) :
    OutKept s₀ (Machine.execHoldLimitExpiry k s) := by
  unfold Machine.execHoldLimitExpiry
  split
  · exact .of_state hs
  · exact .ite (.of_state hs.raise.pathRefused) (.of_state hs)

theorem State.FusesKept.execKeepAliveExpiry {cntlid : Nat} (hs : s₀.FusesKept s) :
    OutKept s₀ (Machine.execKeepAliveExpiry cntlid s) := by
  unfold Machine.execKeepAliveExpiry
  split
  · exact .of_state hs
  · exact .ite (.of_state hs.setCtrl.assocLoss) (.of_state hs)

theorem State.FusesKept.execAssociationLoss (hs : s₀.FusesKept s) : OutKept s₀ (Machine.execAssociationLoss s) := by
  unfold Machine.execAssociationLoss
  extract_lets
  split
  · exact .of_state hs
  · extract_lets s₁
    have hs₁ : s₀.FusesKept s₁ := hs.setPar
    split
    · exact .of_state hs₁.assocLoss
    · exact .of_state hs₁

theorem State.FusesKept.execQueueDeletionDone {i : Nat} (hs : s₀.FusesKept s) :
    OutKept s₀ (Machine.execQueueDeletionDone i s) := by
  unfold Machine.execQueueDeletionDone
  extract_lets
  split
  · exact .of_state hs
  · refine .ite (.of_state hs) ?_
    extract_lets _ s₁ s₂
    have hs₁ : s₀.FusesKept s₁ := hs.setPar
    have hs₂ : s₀.FusesKept s₂ := by
      unfold s₂
      split
      · exact hs₁.setCtrl
      · exact hs₁
    split
    · exact .of_state hs₂.finish
    · exact .of_state hs₂

/-! ### Re-execution (R329) -/

theorem State.FusesKept.rerun {sh k : Nat} {peer : Bool} (hs : s₀.FusesKept s) : s₀.FusesKept (s.rerun sh k peer) := by
  unfold State.rerun
  extract_lets _ _ s₁
  have hs₁ : s₀.FusesKept s₁ := hs.setPar
  split
  · exact hs
  · extract_lets _ s₂ _ _ s₃
    have hs₂ : s₀.FusesKept s₂ := .ite hs₁.meterEvent hs₁
    have hs₃ : s₀.FusesKept s₃ := hs₂.setCmd
    exact .ite hs₃.forwardPart (.ite hs₃.askPails.enterBlocks (.ite (.foldl hs₃ (fun _ _ ht => ht.sdIntent))
      hs₃.startBlks.finishIfDone))

theorem State.FusesKept.execReexecutionDispatch {shard : Fin 256} {ms : List Medium} (hs : s₀.FusesKept s) :
    OutKept s₀ (Machine.execReexecutionDispatch shard ms s) :=
  .ite (.of_state hs) (.of_state (hs.setLease.scripted (fun _ ht => .foldl ht (fun _ _ ht₁ => ht₁.rerun))))

/-! ### Fingerprints and lookups (R134, R144, R180, R181) -/

theorem State.FusesKept.execInlineFingerprint {k i : Nat} (hs : s₀.FusesKept s) :
    OutKept s₀ (Machine.execInlineFingerprint k i s) := by
  unfold Machine.execInlineFingerprint
  split
  · refine .ite (.of_state hs) ?_
    extract_lets
    split
    · exact .of_state hs.raise.setBlk
    · exact .of_state hs.setBlk
  · exact .of_state hs

theorem State.FusesKept.storeNew {k i : Nat} {fp : List Byte} {pend : Bool} (hs : s₀.FusesKept s) :
    s₀.FusesKept (s.storeNew k i fp pend) := by
  unfold State.storeNew
  split
  · exact hs.setBlk
  · exact hs

theorem State.FusesKept.answered {k i : Nat} {fp : List Byte} {a : SepAns} (hs : s₀.FusesKept s) :
    s₀.FusesKept (s.answered k i fp a) := by
  unfold State.answered
  split
  · exact hs.storeNew
  · exact hs.storeNew
  · split
    · exact hs
    · extract_lets s₁
      have hs₁ : s₀.FusesKept s₁ := hs.setBlk
      exact .ite hs₁ hs₁.refRec

theorem State.FusesKept.execInlineLookup {k i : Nat} (hs : s₀.FusesKept s) :
    OutKept s₀ (Machine.execInlineLookup k i s) := by
  unfold Machine.execInlineLookup
  split
  · exact .of_state hs
  · extract_lets
    split
    · refine .ite (.of_state hs) ?_
      refine .ite (.of_state hs) ?_
      refine .ite (.of_state hs.storeNew) ?_
      refine .ite (.of_state hs.raise.storeNew) ?_
      split
      · next t₁ e₄ =>
          have ht₁ : s₀.FusesKept t₁ := OptPairKept.state e₄ hs.filterLookup
          exact .of_state ht₁.answered
      · exact .ite (.of_state hs) (.of_state hs.wr.setBlk)
    · exact .of_state hs

theorem State.FusesKept.execIndexBucketReadDone {k i : Nat} (hs : s₀.FusesKept s) :
    OutKept s₀ (Machine.execIndexBucketReadDone k i s) := by
  unfold Machine.execIndexBucketReadDone
  split
  · exact .of_state hs
  · split
    · exact .ite (.of_state hs.headLost) (.of_state hs.noteBuckets.drop.yieldPending.dramLookup.answered)
    · exact .of_state hs

theorem State.FusesKept.execVerifyCompareDone {k i : Nat} {ms : List Medium} (hs : s₀.FusesKept s) :
    OutKept s₀ (Machine.execVerifyCompareDone k i ms s) := by
  unfold Machine.execVerifyCompareDone
  split
  · exact .of_state hs
  · split
    · refine .of_state ?_
      refine hs.scripted (fun _ ht => ?_)
      extract_lets
      split
      next t₃ e₃ =>
      have ht₃ : s₀.FusesKept t₃ := .of_snd e₃ ht.storedBlock
      refine .ite ht₃.refRec ?_
      extract_lets s₁
      have hs₁ : s₀.FusesKept s₁ := .ite ht₃.raise ht₃
      exact hs₁.setBlk.releaseHold.storeNew
    · exact .of_state hs

/-! ### Compression and encryption (R159, R160, R165, R401) -/

theorem State.FusesKept.execInlineCompress {k i : Nat} (hs : s₀.FusesKept s) :
    OutKept s₀ (Machine.execInlineCompress k i s) := by
  unfold Machine.execInlineCompress
  split
  · exact .of_state hs
  · refine .ite (.of_state hs) ?_
    extract_lets
    split
    · exact .of_state hs.headLost
    · next t₁ e₃ =>
        have ht₁ : s₀.FusesKept t₁ := OptKept.state e₃ hs.useDicts
        exact .of_state ht₁.setBlk

theorem State.FusesKept.keyFailed {k i st : Nat} (hs : s₀.FusesKept s) : s₀.FusesKept (s.keyFailed k i st) := by
  unfold State.keyFailed
  split
  · exact hs
  · extract_lets s₁
    have hs₁ : s₀.FusesKept s₁ := .ite hs.dropBlk hs
    exact hs₁.setBlk.blkDone

theorem State.FusesKept.venInline {k i : Nat} {key : List Byte} (hs : s₀.FusesKept s) :
    s₀.FusesKept (s.venInline k i key) := by
  unfold State.venInline
  split
  · exact hs
  · split
    · exact hs.dataRec
    · exact hs.setBlk
    · exact hs

theorem State.FusesKept.execVeneerInlineJob {k i : Nat} (hs : s₀.FusesKept s) :
    OutKept s₀ (Machine.execVeneerInlineJob k i s) := by
  unfold Machine.execVeneerInlineJob
  split
  · exact .of_state hs
  · refine .ite (.of_state hs) ?_
    split
    · next t₁ e₂ =>
        have ht₁ : s₀.FusesKept t₁ := OptPairKept.state e₂ hs.cached
        exact .of_state ht₁.venInline
    · split
      · exact .of_state hs.noteTable.keyFailed
      · next t₁ e₃ =>
          have ht₁ : s₀.FusesKept t₁ := ExcKept.state e₃ hs.keyMiss
          exact .of_state ht₁

theorem State.FusesKept.execKeyUnwrapDone {tenant : Nat} (hs : s₀.FusesKept s) :
    OutKept s₀ (Machine.execKeyUnwrapDone tenant s) := by
  simp only [Machine.execKeyUnwrapDone]
  split
  · exact .of_state hs
  · refine .of_state ?_
    refine .foldl ?_ (fun _ _ ht => ?_)
    · split
      · exact hs.setVen.cacheKey
      · exact .ite hs.setVen.raise hs.setVen
    · split
      · exact ht.venResume
      · split
        · exact .foldl ht (fun _ _ ht₁ => .ite ht₁.keyFailed ht₁)
        · exact ht
      · exact ht

/-! ### Reading (R166, R167) -/

theorem State.FusesKept.execInlineDecompress {k i : Nat} {ms : List Medium} (hs : s₀.FusesKept s) :
    OutKept s₀ (Machine.execInlineDecompress k i ms s) := by
  simp only [Machine.execInlineDecompress]
  split
  · exact .of_state hs
  · split
    · refine .ite (.of_state hs) ?_
      split
      · exact .of_state hs.headLost
      · next t₁ e₃ =>
          have ht₁ : s₀.FusesKept t₁ := OptKept.state e₃ hs.useDicts
          split
          · exact .of_state ht₁.readBlock
          · split
            · exact .ite (.of_state (.blkDone (.ite ht₁.curdEvent ht₁))) (.of_state (.scripted (.ite ht₁.curdEvent
                ht₁) (fun _ ht => ht.repairCopy.setBlk.readMedium)))
            · exact .of_state ht₁.readBlock
    · exact .of_state hs

theorem State.FusesKept.sepDesc {d : DescRef} {op : Nat} {k : Fetched → State} (hs : s₀.FusesKept s)
    (hk : ∀ (a₀ : Fetched), s₀.FusesKept (k a₀)) :
    OutKept s₀ (s.sepDesc d op k) := by
  unfold State.sepDesc
  split
  · exact .of_state hs
  · exact .of_state (hk _)

theorem State.FusesKept.execDomainSet {d : DescRef} (hs : s₀.FusesKept s) :
    OutKept s₀ (Machine.execDomainSet d s) := by
  unfold Machine.execDomainSet
  refine hs.sepDesc (fun _ => ?_)
  extract_lets
  refine .ite hs.finish ?_
  split
  · exact hs.finishDma
  · exact .ite hs.finish (.ite hs.finish (hs.tableThen (fun _ ht => ht.finish)))

theorem State.FusesKept.tierLost {d : DescRef} (hs : s₀.FusesKept s) : s₀.FusesKept (s.tierLost d) :=
  hs.headLost.finish

theorem State.FusesKept.execLookup {d : DescRef} (hs : s₀.FusesKept s) : OutKept s₀ (Machine.execLookup d s) := by
  unfold Machine.execLookup
  refine hs.sepDesc (fun _ => ?_)
  extract_lets
  refine .ite hs.finish ?_
  split
  · exact hs.finish
  · split
    · exact hs.finishDma
    · refine .ite hs.tierLost ?_
      split
      · next t₁ e₃ =>
          have ht₁ : s₀.FusesKept t₁ := .of_snd e₃ hs.noteBuckets.dramLookup
          exact ht₁.finish
      · next t₁ e₃ =>
          have ht₁ : s₀.FusesKept t₁ := .of_snd e₃ hs.noteBuckets.dramLookup
          exact ht₁.finish
      · next t₁ e₃ =>
          have ht₁ : s₀.FusesKept t₁ := .of_snd e₃ hs.noteBuckets.dramLookup
          split
          · exact ht₁.finishDma
          · next t₂ e₄ =>
              have ht₂ : s₀.FusesKept t₂ := ExcKept.state e₄ ht₁.dmaWrite
              exact ht₂.finish

theorem State.FusesKept.execInsert {d : DescRef} (hs : s₀.FusesKept s) : OutKept s₀ (Machine.execInsert d s) := by
  unfold Machine.execInsert
  refine hs.sepDesc (fun _ => ?_)
  extract_lets
  refine .ite hs.finish ?_
  extract_lets
  split
  · exact hs.finish
  · split
    · exact hs.finish
    · refine .ite hs.finish ?_
      extract_lets
      split
      · exact hs.finishDma
      · refine .ite hs.tierLost ?_
        refine .ite hs.finish ?_
        extract_lets
        split
        · exact hs.noteBuckets.finish
        · extract_lets
          refine hs.tableThen (fun _ ht => ?_)
          extract_lets _ s₁
          have hs₁ : s₀.FusesKept s₁ := ht.setSep
          exact hs₁.entriesUp.finish

theorem State.FusesKept.adjust {d : DescRef} {h : Nat} {e : FEntry} {delta : ℤ} (hs : s₀.FusesKept s) :
    s₀.FusesKept (s.adjust d h e delta) := by
  unfold State.adjust
  extract_lets
  refine .ite hs.raise.finish ?_
  refine .ite hs.finish ?_
  extract_lets
  split
  next t₁ e₁ =>
  have ht₁ : s₀.FusesKept t₁ := .of_snd e₁ hs.putEntry.sepWithdraw
  extract_lets
  exact .ite ht₁.finish (.ite hs.finish ht₁.journal)

theorem State.FusesKept.execRefAdjust {d : DescRef} (hs : s₀.FusesKept s) :
    OutKept s₀ (Machine.execRefAdjust d s) := by
  unfold Machine.execRefAdjust
  refine hs.sepDesc (fun _ => ?_)
  refine .ite hs ?_
  refine .ite hs.tierLost ?_
  extract_lets
  split
  · exact hs.finish
  · refine .ite (.ite hs.finish hs.releaseHold.finish) ?_
    extract_lets
    exact hs.putEntry.adjust

theorem State.FusesKept.execRelocate {d : DescRef} (hs : s₀.FusesKept s) : OutKept s₀ (Machine.execRelocate d s) := by
  unfold Machine.execRelocate
  refine hs.sepDesc (fun _ => ?_)
  refine .ite hs.tierLost ?_
  extract_lets
  split
  · exact hs.finish
  · refine .ite hs.finish ?_
    refine .ite hs.finish ?_
    extract_lets s₁ _ s₂
    have hs₁ : s₀.FusesKept s₁ := hs.putEntry
    have hs₂ : s₀.FusesKept s₂ := hs₁.setSep
    exact hs₂.finish

theorem State.FusesKept.execMergeScan {d : DescRef} (hs : s₀.FusesKept s) :
    OutKept s₀ (Machine.execMergeScan d s) := by
  unfold Machine.execMergeScan
  refine hs.sepDesc (fun _ => ?_)
  refine .ite hs.finish ?_
  split
  · exact hs.finishDma
  · refine .ite hs.tierLost ?_
    split
    split
    · exact hs.finishDma
    · next t₁ e₃ =>
        have ht₁ : s₀.FusesKept t₁ := ExcKept.state e₃ hs.dmaWrite
        exact ht₁.finish

theorem State.FusesKept.sweepOrphans {sh : Nat} (hs : s₀.FusesKept s) : s₀.FusesKept (s.sweepOrphans sh) := by
  unfold State.sweepOrphans
  extract_lets
  split
  exact .foldl hs.setSep (fun _ _ ht => .ite ht ht.copyGarbage)

theorem State.FusesKept.enterPartition {sh st : Nat} (hs : s₀.FusesKept s) :
    s₀.FusesKept (s.enterPartition sh st) := by
  unfold State.enterPartition
  extract_lets t₁ t₂
  have ht₁ : s₀.FusesKept t₁ := hs.wr
  have ht₂ : s₀.FusesKept t₂ := ht₁.sweepOrphans
  exact .ite (.ite ht₂ ht₂.raise) ht₁

theorem State.FusesKept.execShardState {d : DescRef} (hs : s₀.FusesKept s) :
    OutKept s₀ (Machine.execShardState d s) := by
  unfold Machine.execShardState
  refine hs.sepDesc (fun _ => ?_)
  extract_lets
  exact .ite hs.finish (.ite hs (.ite (.ite hs.setPhase hs.wr.setSep.setPhase) hs.enterPartition.finish))

theorem State.FusesKept.dropEntry {sh h : Nat} (hs : s₀.FusesKept s) : s₀.FusesKept (s.dropEntry sh h) := by
  unfold State.dropEntry
  split
  · exact .ite hs.freeEntry hs
  · exact hs

theorem State.FusesKept.execShardDropDone {shard : Nat} (hs : s₀.FusesKept s) :
    OutKept s₀ (Machine.execShardDropDone shard s) := by
  unfold Machine.execShardDropDone
  extract_lets s₁ _ s₂ s₃
  have hs₁ : s₀.FusesKept s₁ := .foldl hs (fun _ _ ht => ht.dropEntry)
  have hs₂ : s₀.FusesKept s₂ := hs₁.setSep
  have hs₃ : s₀.FusesKept s₃ := hs₂.wr.wr
  split
  · exact .of_state hs
  · split
    · exact .of_state hs₃.finish
    · exact .of_state hs₃

/-! ### Link states (R319, R320) -/

theorem State.FusesKept.unsync (hs : s₀.FusesKept s) : s₀.FusesKept s.unsync := by
  unfold State.unsync
  extract_lets _ s₁
  have hs₁ : s₀.FusesKept s₁ := hs.setTen
  exact .ite hs₁.wr.raise hs₁

theorem State.FusesKept.tenLost (hs : s₀.FusesKept s) : s₀.FusesKept s.tenLost := by
  unfold State.tenLost
  extract_lets _ _ s₁ s₂
  have hs₁ : s₀.FusesKept s₁ := hs.wr.wr.setTen
  have hs₂ : s₀.FusesKept s₂ := hs₁.upd rfl
  exact .unsync (.foldl hs₂ (fun _ _ ht => ht.finish))

theorem State.FusesKept.tenDown {cause : Nat} (hs : s₀.FusesKept s) : s₀.FusesKept (s.tenDown cause) := by
  unfold State.tenDown
  extract_lets s₁
  have hs₁ : s₀.FusesKept s₁ := hs.wr.wr.tenLost
  exact hs₁.raise.linkChanged

theorem State.FusesKept.tenRetrain (hs : s₀.FusesKept s) : s₀.FusesKept s.tenRetrain := by
  unfold State.tenRetrain
  extract_lets s₁
  have hs₁ : s₀.FusesKept s₁ := hs.wr.bump
  exact hs₁.setTen.linkChanged

theorem State.FusesKept.setTst {st : Nat} {limit : Option Nat} (hs : s₀.FusesKept s) :
    s₀.FusesKept (s.setTst st limit) :=
  hs.wr.setTen

theorem State.FusesKept.lanesUsed {use : Nat} {reversed : Bool} (hs : s₀.FusesKept s) :
    s₀.FusesKept (s.lanesUsed use reversed) :=
  hs.wr.wr.wr

theorem State.FusesKept.tenEnable {en : Bool} (hs : s₀.FusesKept s) : s₀.FusesKept (s.tenEnable en) := by
  unfold State.tenEnable
  extract_lets s₁ s₂
  have hs₁ : s₀.FusesKept s₁ := hs.wr
  have hs₂ : s₀.FusesKept s₂ := .ite hs₁.tenDown (.ite hs₁ hs₁.tenLost)
  exact .ite (.ite hs₁.setTst.linkChanged hs₁) hs₂.setTst.linkChanged

theorem State.FusesKept.execTenonEnable {origin : Origin} {en : Bool} (hs : s₀.FusesKept s) :
    OutKept s₀ (Machine.execTenonEnable origin en s) :=
  .of_state (hs.cfgField (fun _ ht => ht.tenEnable))

theorem State.FusesKept.execTenonRetrain {origin : Origin} (hs : s₀.FusesKept s) :
    OutKept s₀ (Machine.execTenonRetrain origin s) :=
  .of_state (hs.cfgField (fun _ ht => .ite ht.tenRetrain ht))

theorem State.FusesKept.execTenonSignalDetect {lanes : Nat} (hs : s₀.FusesKept s) :
    OutKept s₀ (Machine.execTenonSignalDetect lanes s) :=
  .ite (.of_state hs.setTst) (.of_state hs)

theorem State.FusesKept.execTenonTrainDone {good use : Nat} {reversed : Bool} (hs : s₀.FusesKept s) :
    OutKept s₀ (Machine.execTenonTrainDone good use reversed s) :=
  .ite (.of_state hs.setTst.lanesUsed) (.of_state hs)

theorem State.FusesKept.execTenonTrainTimeout (hs : s₀.FusesKept s) :
    OutKept s₀ (Machine.execTenonTrainTimeout s) :=
  .ite (.of_state hs.tenDown) (.of_state hs)

theorem State.FusesKept.tenUp (hs : s₀.FusesKept s) : s₀.FusesKept s.tenUp := by
  unfold State.tenUp
  extract_lets _ s₁ s₂
  have hs₁ : s₀.FusesKept s₁ := hs.setTst.setTen
  have hs₂ : s₀.FusesKept s₂ := hs₁.raise.linkChanged.tenSend
  exact hs₂.tenPump

theorem State.FusesKept.execTenonExchange {version : Nat} {head : Fin 2} {time : Nat} (hs : s₀.FusesKept s) :
    OutKept s₀ (Machine.execTenonExchange version head time s) :=
  .ite (.of_state hs) (.ite (.of_state hs.wr.tenDown) (.ite (.of_state hs.wr.raise.tenDown) (.of_state hs.wr.wr.tenUp)))

theorem State.FusesKept.execFlitSilenceExpiry (hs : s₀.FusesKept s) :
    OutKept s₀ (Machine.execFlitSilenceExpiry s) :=
  .ite (.of_state hs.tenRetrain) (.of_state hs)

theorem State.FusesKept.execTenonRetrainDone {good use : Nat} {reversed : Bool} (hs : s₀.FusesKept s) :
    OutKept s₀ (Machine.execTenonRetrainDone good use reversed s) :=
  .ite (.of_state hs) (.ite (.of_state hs.tenDown) (.of_state hs.setTst.setTen.lanesUsed.linkChanged.tenPump))

theorem State.FusesKept.execTenonRetrainTimeout (hs : s₀.FusesKept s) :
    OutKept s₀ (Machine.execTenonRetrainTimeout s) :=
  .ite (.of_state hs.tenDown) (.of_state hs)

theorem State.FusesKept.execTenonDownExpiry (hs : s₀.FusesKept s) : OutKept s₀ (Machine.execTenonDownExpiry s) :=
  .ite (.of_state hs.setTst.linkChanged) (.of_state hs)

theorem State.FusesKept.execTenonLaneErrorLimit {lane : Fin 8} (hs : s₀.FusesKept s) :
    OutKept s₀ (Machine.execTenonLaneErrorLimit lane s) :=
  .ite (.of_state hs.setTen.raise.tenRetrain) (.of_state hs)

/-! ### Flits (R321, R322) -/

theorem State.FusesKept.nak (hs : s₀.FusesKept s) : s₀.FusesKept s.nak := by
  unfold State.nak
  extract_lets _ _ s₁
  have hs₁ : s₀.FusesKept s₁ := hs.bump.setTen
  exact .ite hs₁.tenRetrain hs₁

theorem State.FusesKept.execFlitRx {good corrected : Bool} {fseq ack : Fin 1024} {nak : Bool} (hs : s₀.FusesKept s) :
    OutKept s₀ (Machine.execFlitRx good corrected fseq ack nak s) :=
  .ite (.of_state hs) (.ite (.of_state (.nak (.bump (.ite hs.bump hs)))) (.ite (.of_state (.ite (.setTen (.setTen
    (.ite hs.bump hs))) (.ite (.setTen (.ite hs.bump hs)) (.nak (.setTen (.ite hs.bump hs)))))) (.ite (.of_state
    (.tenRetrain (.setTen (.ite (.setTen (.setTen (.ite hs.bump hs))) (.ite (.setTen (.ite hs.bump hs)) (.nak (.setTen
    (.ite hs.bump hs)))))))) (.of_state (.setTen (.ite (.setTen (.setTen (.ite hs.bump hs))) (.ite (.setTen (.ite
    hs.bump hs)) (.nak (.setTen (.ite hs.bump hs))))))))))

theorem State.FusesKept.execCtrlCredit {key n : Nat} (hs : s₀.FusesKept s) :
    OutKept s₀ (Machine.execCtrlCredit key n s) :=
  .ite (.of_state hs) (.of_state (.tenPump (.foldl hs.setTen.setTen (fun _ _ ht => ht.finish))))

/-! ### Time synchronisation (R325, R326) -/

theorem State.FusesKept.execTimeReqPeriod (hs : s₀.FusesKept s) : OutKept s₀ (Machine.execTimeReqPeriod s) :=
  .ite (.of_state hs.setTen.tenSend) (.of_state hs)

theorem State.FusesKept.execTimeReq {t1 : Nat} (hs : s₀.FusesKept s) : OutKept s₀ (Machine.execTimeReq t1 s) :=
  .ite (.of_state hs.received.tenSend) (.of_state hs)

theorem State.FusesKept.half {d : ℤ} (hs : s₀.FusesKept s) : s₀.FusesKept (s.half d).2 :=
  .ite_snd hs hs.draw

theorem State.FusesKept.execTimeResp {t1 t2 t3 : Nat} (hs : s₀.FusesKept s) :
    OutKept s₀ (Machine.execTimeResp t1 t2 t3 s) := by
  unfold Machine.execTimeResp
  refine .ite (.of_state hs) ?_
  extract_lets t
  have ht : s₀.FusesKept t := hs.received
  clear_value t
  split
  next h u e =>
  have hu : s₀.FusesKept u := .of_snd e ht.half
  extract_lets off step near v w x ten y
  have hv : s₀.FusesKept v := hu.wr
  have hw : s₀.FusesKept w := hv.wr.draw
  clear_value w
  have hx : s₀.FusesKept x := .ite (hw.upd rfl) hw
  have hy : s₀.FusesKept y := hx.setTen
  exact .ite (.of_state hy.wr.setTen) (.of_state hy.unsync)

theorem State.FusesKept.execTimeSlew (hs : s₀.FusesKept s) : OutKept s₀ (Machine.execTimeSlew s) :=
  .ite (.of_state hs) (.ite (.of_state (.setTen (hs.upd rfl))) (.of_state hs.setTen))

theorem State.FusesKept.execTimeSyncLapse (hs : s₀.FusesKept s) : OutKept s₀ (Machine.execTimeSyncLapse s) := by
  unfold Machine.execTimeSyncLapse
  split
  · exact .ite (.of_state hs.unsync) (.of_state hs)
  · exact .of_state hs

/-! ### Forwarding (R112, R327 to R330) -/

theorem State.FusesKept.execFwdReq {tag : Nat} {cls : Fin 4} {tenant : Nat} {shard : Fin 256}
    {capsule data : List (BitVec 8)} (hs : s₀.FusesKept s) :
    OutKept s₀ (Machine.execFwdReq tag cls tenant shard capsule data s) := by
  unfold Machine.execFwdReq
  refine .ite (.of_state hs) ?_
  extract_lets
  split
  · exact .of_state hs
  · exact .of_state hs.setCmd.setPar.countCtxs.received

theorem State.FusesKept.execFwdRsp {tag status dw0 dw1 : Nat} {data : List (BitVec 8)} {confirm : Bool}
    (hs : s₀.FusesKept s) :
    OutKept s₀ (Machine.execFwdRsp tag status dw0 dw1 data confirm s) := by
  unfold Machine.execFwdRsp
  refine .ite (.of_state hs) ?_
  extract_lets s₁
  have hs₁ : s₀.FusesKept s₁ := hs.received
  split
  · exact .of_state hs₁
  · exact .ite (.ite (.of_state hs₁) (.of_state hs₁.setCmd.cutSettled)) (.ite (.of_state hs₁.setCmd) (.of_state
      hs₁.setCmd.finishIfDone))

theorem State.FusesKept.execFwdCancel {tag : Nat} (hs : s₀.FusesKept s) :
    OutKept s₀ (Machine.execFwdCancel tag s) := by
  unfold Machine.execFwdCancel
  refine .ite (.of_state hs) ?_
  split
  · exact .of_state hs.tenSend
  · exact .ite (.of_state hs.setCmd) (.of_state hs.cancel.tenSend)

theorem State.FusesKept.execFwdWaitExpiry (hs : s₀.FusesKept s) : OutKept s₀ (Machine.execFwdWaitExpiry s) := by
  unfold Machine.execFwdWaitExpiry
  extract_lets _ _ s₁ _ s₂
  have hs₁ : s₀.FusesKept s₁ := hs.setPar
  have hs₂ : s₀.FusesKept s₂ := hs₁.setTen
  split
  · exact .of_state hs
  · exact .ite (.of_state hs) (.of_state (.foldl hs₂ (fun _ _ ht => ht.assocLoss)))

/-! ### Maintenance (R155, R267, R308, R311) -/

theorem State.FusesKept.execMaintIncrement {tag : Nat} {shard : Fin 256} {locator count : Nat} (hs : s₀.FusesKept s) :
    OutKept s₀ (Machine.execMaintIncrement tag shard locator count s) := by
  unfold Machine.execMaintIncrement
  refine .ite (.of_state hs) ?_
  extract_lets _ s₁
  have hs₁ : s₀.FusesKept s₁ := hs.received
  split
  · exact .of_state hs₁.tenSend
  · split
    · exact .of_state hs₁.tenSend
    · split
      · exact .of_state hs₁.tenSend
      · exact .ite (.of_state hs₁.tenSend) (.of_state hs₁.putEntry.journal)

theorem State.FusesKept.peerErase {blade shard : Nat} {bands : List Nat} (hs : s₀.FusesKept s) :
    s₀.FusesKept (s.peerErase blade shard bands).2 := by
  unfold State.peerErase
  refine .foldl_snd hs (fun _ _ ht => ?_)
  extract_lets s₁
  have hs₁ : s₀.FusesKept s₁ := by
    unfold s₁
    split
    · exact ht
    · exact ht.setBand
  split
  next t₁ e₁ =>
  have ht₁ : s₀.FusesKept t₁ := .of_snd e₁ hs₁.wipeBand
  exact .ite_snd (.foldl ht₁ (fun _ _ ht₂ => ht₂.deferErased)) ht₁

theorem State.FusesKept.execMaintDeferErase {tag : Nat} {blade : Fin 16} {shard : Fin 256} {bands : List Nat}
    {ms : List Medium} (hs : s₀.FusesKept s) :
    OutKept s₀ (Machine.execMaintDeferErase tag blade shard bands ms s) := by
  unfold Machine.execMaintDeferErase
  refine .ite (.of_state hs) ?_
  refine .ite (.of_state hs.received.tenSend) ?_
  refine .of_state ?_
  refine hs.received.scripted (fun _ ht => ?_)
  split
  next t₂ e₁ =>
  have ht₂ : s₀.FusesKept t₂ := .of_snd e₁ ht.peerErase
  exact ht₂.tenSend

theorem State.FusesKept.execPeerWipeConsent {tag : Nat} {blade : Fin 16} (hs : s₀.FusesKept s) :
    OutKept s₀ (Machine.execPeerWipeConsent tag blade s) :=
  .ite (.of_state hs) (.of_state hs.received.bladeSync.tenSend)

theorem State.FusesKept.execMaintAck {tag : Nat} {ok : Bool} {bands : List Nat} {ms : List Medium}
    (hs : s₀.FusesKept s) :
    OutKept s₀ (Machine.execMaintAck tag ok bands ms s) := by
  unfold Machine.execMaintAck
  refine .ite (.of_state hs) ?_
  extract_lets s₁ _ s₂
  have hs₁ : s₀.FusesKept s₁ := hs.received
  have hs₂ : s₀.FusesKept s₂ := hs₁.setTen
  split
  · exact .of_state hs₁
  · split
    · exact .of_state hs₂
    · exact .ite (.ite hs₂.execBladeAttach (.of_state hs₂.wr.finish)) (.ite (.of_state hs₂.setCblade)
        hs₂.setCblade.execBladeAttach)

/-! ### Mail (R348) -/

theorem State.FusesKept.execMailSend {d : DescRef} (hs : s₀.FusesKept s) : OutKept s₀ (Machine.execMailSend d s) := by
  unfold Machine.execMailSend
  extract_lets
  split
  · exact .of_state hs
  · refine .ite (.of_state hs) ?_
    refine .ite (.of_state hs.finish) ?_
    refine .ite (.of_state hs.finish) ?_
    refine .ite (.of_state hs.finish) ?_
    split
    · exact .of_state hs.finishDma
    · exact .of_state hs.setPhase.setTen.tenSend

theorem State.FusesKept.mailPlace {d : DescRef} {f : Fetched} (hs : s₀.FusesKept s) :
    s₀.FusesKept (s.mailPlace d f) := by
  unfold State.mailPlace
  split
  · exact hs.setPhase
  · split
    · exact hs.finishDma
    · next t₁ e₂ =>
        have ht₁ : s₀.FusesKept t₁ := ExcKept.state e₂ hs.dmaWrite
        exact ht₁.setTen.received.finish

theorem State.FusesKept.execMailRecv {d : DescRef} (hs : s₀.FusesKept s) : OutKept s₀ (Machine.execMailRecv d s) := by
  unfold Machine.execMailRecv
  split
  · exact .of_state hs
  · exact .ite (.of_state hs.finish) (.of_state hs.mailPlace)

theorem State.FusesKept.execMailRx {tag : Nat} {bytes : List (BitVec 8)} (hs : s₀.FusesKept s) :
    OutKept s₀ (Machine.execMailRx tag bytes s) := by
  unfold Machine.execMailRx
  refine .ite (.of_state hs) ?_
  extract_lets _ s₁
  have hs₁ : s₀.FusesKept s₁ := hs.setTen
  split
  · exact .of_state hs₁.mailPlace
  · exact .of_state hs₁

/-! ### EN of a unit -/

theorem State.FusesKept.unitStarts {u : UnitId} (hs : s₀.FusesKept s) : s₀.FusesKept (s.unitStarts u) := by
  unfold State.unitStarts
  extract_lets _ _ _ _ s₁
  have hs₁ : s₀.FusesKept s₁ := hs.setLease
  split
  · exact hs.vatGrant
  · exact hs.setChurn.wr
  · exact hs.setCell
  · exact hs.upd rfl
  · exact .ite hs₁.raise hs₁
  · exact hs

theorem State.FusesKept.enableUnit {u : UnitId} (hs : s₀.FusesKept s) : s₀.FusesKept (s.enableUnit u) := by
  unfold State.enableUnit
  split
  · exact hs
  · exact .ite hs.coolEnable (.ite hs hs.wr.unitStarts)

theorem State.FusesKept.execUnitEnable {origin : Origin} {u : UnitId} (hs : s₀.FusesKept s) :
    OutKept s₀ (Machine.execUnitEnable origin u s) := by
  unfold Machine.execUnitEnable
  split
  · exact .of_state hs
  · exact .of_state (hs.cfgField (fun _ ht => ht.enableUnit))

/-! ### Uncorrectable errors of the Vat (R370) -/

theorem State.FusesKept.failWrite {k : Nat} (hs : s₀.FusesKept s) : s₀.FusesKept (s.failWrite k) := by
  unfold State.failWrite
  split
  · exact hs
  · extract_lets s₁
    have hs₁ : s₀.FusesKept s₁ := hs.dropHolds.withdrawWidx.dropRecs.dropPulls
    exact hs₁.setCmd.finishIfDone

theorem State.FusesKept.failReads {e : WEntry} (hs : s₀.FusesKept s) : s₀.FusesKept (s.failReads e) := by
  unfold State.failReads
  refine .foldl hs (fun _ _ ht => ?_)
  split
  · exact .ite ht.setCmd.finishIfDone ht
  · exact ht

theorem State.FusesKept.execVatUeDetected {pail : Nat} (hs : s₀.FusesKept s) :
    OutKept s₀ (Machine.execVatUeDetected pail s) := by
  unfold Machine.execVatUeDetected
  split
  · exact .of_state hs
  · extract_lets s₁ _ s₂
    have hs₁ : s₀.FusesKept s₁ := hs.bump.raise
    have hs₂ : s₀.FusesKept s₂ := .foldl hs₁ (fun _ _ ht => ht.failReads)
    split
    · exact .of_state hs₁.abdicate
    · exact .of_state (.foldl hs₂ (fun _ _ ht => ht.failWrite))
    · exact .of_state hs₁

/-! ### Reading -/

theorem State.FusesKept.csrReadBy {o a : Nat} (hs : s₀.FusesKept s) : s₀.FusesKept (s.csrReadBy o a).1 := by
  unfold State.csrReadBy
  extract_lets t₁
  have ht₁ : s₀.FusesKept t₁ := hs.legacyDrain
  split
  · exact hs
  · split
    · exact hs.pressResult
    · split
      · exact hs.legacyResult
      · split
        · exact ht₁
        · exact hs

theorem State.FusesKept.execCsrReadMisaligned {origin : Origin} {addr : PAddr} {size : AccSize}
    (hs : s₀.FusesKept s) :
    OutKept s₀ (Machine.execCsrReadMisaligned origin addr size s) := by
  simp only [Machine.execCsrReadMisaligned]
  refine .ite (.of_state hs) ?_
  split
  · exact .of_state hs.readReturn.hole
  · exact .ite (.of_state hs.readReturn.unitErr.coreFault) (.of_state (.readReturn (.csrReadBy (.ite hs hs.unitErr))))

/-! ### The rules of a value -/

theorem State.FusesKept.rowAfter {r : RegRow} {a word : Nat} (hs : s₀.FusesKept s) :
    s₀.FusesKept (s.rowAfter r a word) := by
  unfold State.rowAfter
  refine .foldl hs (fun _ _ ht => ?_)
  split
  · exact ht.wr
  · exact ht.wr
  · exact ht.wr
  · exact ht

/-! ### What a write does beyond its fields -/

theorem State.FusesKept.userOffset {d : Nat} (hs : s₀.FusesKept s) : s₀.FusesKept (s.userOffset d) := by
  unfold State.userOffset
  extract_lets s₁
  have hs₁ : s₀.FusesKept s₁ := hs.retarget
  exact hs₁.keepGroup

theorem State.FusesKept.railCtl {t : State} {r : Rail} {origin word : Nat} (ht : s₀.FusesKept t) :
    s₀.FusesKept (s.railCtl t r origin word) := by
  unfold State.railCtl
  extract_lets _ t₁ t₂
  have ht₁ : s₀.FusesKept t₁ := .ite ht.railOn (.ite ht.wr ht)
  have ht₂ : s₀.FusesKept t₂ := .ite ht₁.railLost ht₁
  exact .ite ht₂.railReset ht₂

theorem State.FusesKept.domRequest {t : State} {d : Nat} {origin : Origin} (ht : s₀.FusesKept t) :
    s₀.FusesKept (s.domRequest t d origin) := by
  unfold State.domRequest
  extract_lets t'
  have ht' : s₀.FusesKept t' := ht.wr
  exact .ite (ht'.stateOf ht'.execDomainOnRequest) (.ite (ht'.stateOf ht'.execDomainOffRequest) ht)

theorem State.FusesKept.csrHook {t : State} {origin : Origin} {u : UnitId} {a word : Nat} (hs : s₀.FusesKept s)
    (ht : s₀.FusesKept t) : s₀.FusesKept (s.csrHook t origin u a word) := by
  unfold State.csrHook
  extract_lets o v carc ten
  have hv : s₀.FusesKept v := by
    unfold v
    split
    · refine .ite (.ite (.ite ht.wr.coolEnable (.ite ht.wr.coolDisable ht)) (.ite ht.unitStarts ht)) ht
    · exact ht
  have hten : s₀.FusesKept ten := .ite hv.tenEnable (.ite hv.tenEnable hv)
  clear_value v
  refine .ite (hv.railCtl) (.ite (hv.railCtl) (.ite (hv.stateOf hv.execOdpResume)
    (.ite (hv.stateOf hv.execOdpResume) (.ite hv.takeWaiting.countCtxs ?_))))
  refine .ite (.ite hv.wr hv) (.ite hv.wr (.ite hv.wr (.ite hv.wr (.ite (.ite hv.wr.rebuildOn hv.wr) ?_))))
  refine .ite (.ite hv.legacyCtl hv) (.ite (hv.stateOf hv.execLegacyKey) (.ite (hv.stateOf hv.execLegacyData)
    (.ite (.ite hv.portForced hv) (.ite (.ite hten.tenRetrain hten) ?_))))
  refine .ite (.ite hv.wr.abdicate hv) (.ite (.ite hv.setLease hv) (.ite (.ite hv.kick hv) (.ite hv.wr.vatGrant
    (.ite hv.vatGrant (.ite (.ite hv.wr hv) ?_)))))
  refine .ite (.ite hv.ddrTrain hv) (.ite (.ite hv.wr.seal hv) (.ite (.ite hv hv.wr.wr) (.ite hv.coreDiv
    (.ite (hv.domRequest) ?_))))
  refine .ite (.ite (hv.stateOf hv.execWarmReset) hv) (.ite (.ite (hv.stateOf hv.execGovResume) hv)
    (.ite (.ite hv.startPass hv) (.ite hv.userOffset (.ite (.ite (hv.stateOf hv.execTallyClearCounts) hv)
    (.ite (.ite hv hv.wr.wr) ?_)))))
  exact .ite (hv.upd rfl) (.ite (.ite hv.wr.wr.raise hv) (.ite (hs.upd rfl) (.ite (hs.upd rfl)
    (.ite (hs.stateOf hs.execWallClockApply) hv))))

theorem State.FusesKept.csrApply {origin : Origin} {u : UnitId} {r : RegRow} {a word : Nat} (hs : s₀.FusesKept s) :
    s₀.FusesKept (s.csrApply origin u r a word) :=
  hs.csrHook hs.rowAfter

/-! ### The generic register write -/

theorem State.FusesKept.headerWrite {origin : Nat} {u : UnitId} {a word : Nat} (hs : s₀.FusesKept s) :
    s₀.FusesKept (s.headerWrite origin u a word) := by
  unfold State.headerWrite
  extract_lets
  exact .ite (.ite hs.wr hs) (.ite (.ite hs.wr hs) (.ite hs hs.unitErr))

theorem State.FusesKept.ringCtl {origin : Origin} {u : UnitId} {r word : Nat} (hs : s₀.FusesKept s) :
    s₀.FusesKept (s.ringCtl origin u r word) := by
  unfold State.ringCtl
  extract_lets _ _ s0 s1 s2
  have hs0 : s₀.FusesKept s0 := hs.wr
  have hs1 : s₀.FusesKept s1 := .ite (.ite (hs0.stateOf hs0.execRingEnable) (.ite hs0 hs0.ringRefused)) (.ite
    (hs0.stateOf hs0.execRingDisable) hs0)
  have hs2 : s₀.FusesKept s2 := .ite (hs1.stateOf hs1.execRingStop) hs1
  exact .ite (hs2.stateOf hs2.execRingStart) hs2

theorem State.FusesKept.ringWrite {origin : Origin} {u : UnitId} {a word : Nat} (hs : s₀.FusesKept s) :
    s₀.FusesKept (s.ringWrite origin u a word) := by
  unfold State.ringWrite
  extract_lets
  exact .ite hs.unitErr (.ite hs.unitErr (.ite hs.wr (.ite hs.wr (.ite hs.wr.wr.wr (.ite hs.ringCtl (.ite hs.wr.wr
    (.ite hs.wr (.ite hs.wr.wr.wr.wr hs))))))))

theorem State.FusesKept.chapterWrite {origin : Origin} {u : UnitId} {a word : Nat} (hs : s₀.FusesKept s) :
    s₀.FusesKept (s.chapterWrite origin u a word) := by
  unfold State.chapterWrite
  extract_lets
  split
  · exact hs.unitErr
  · exact .ite hs (.ite hs.lockRefusal (.ite hs.refuseValue (.ite hs (hs.regWrite (fun _ ht => ht.csrApply)))))

theorem State.FusesKept.csrStore {origin : Origin} {u : UnitId} {a word : Nat} (hs : s₀.FusesKept s) :
    s₀.FusesKept (s.csrStore origin u a word) := by
  unfold State.csrStore
  extract_lets
  exact .ite hs.headerWrite (.ite hs.ringWrite hs.chapterWrite)

theorem State.FusesKept.execCsrWrite {origin : Origin} {addr : PAddr} {size : AccSize} {value : Word}
    (hs : s₀.FusesKept s) :
    OutKept s₀ (Machine.execCsrWrite origin addr size value s) := by
  unfold Machine.execCsrWrite
  refine .ite (.of_state hs) ?_
  extract_lets
  split
  · exact .of_state hs.hole
  · exact .ite (.of_state hs.unitErr.coreFault) (.of_state hs.csrStore)

theorem State.FusesKept.execHoleAccess {origin : Origin} {addr : PAddr} {store : Bool} (hs : s₀.FusesKept s) :
    OutKept s₀ (Machine.execHoleAccess origin addr store s) :=
  .ite (.of_state (.hole (.ite hs hs.readReturn))) (.of_state hs)

theorem State.FusesKept.execVatWindowAccess {origin : Origin} {addr : PAddr} {size : AccSize} {store : Option Word}
    {ce : Bool} (hs : s₀.FusesKept s) :
    OutKept s₀ (Machine.execVatWindowAccess origin addr size store s ce) := by
  unfold Machine.execVatWindowAccess
  refine .ite (.of_state hs) ?_
  refine .ite (.of_state (.ite hs.unitErr.coreFault hs.unitErr.coreFault.readReturn)) ?_
  extract_lets s₁
  have hs₁ : s₀.FusesKept s₁ := .ite hs.bump hs
  split
  · exact .of_state (hs₁.upd rfl)
  · exact .of_state hs₁.readReturn

/-! ### CFG_WRITE (R398) -/

theorem State.FusesKept.cfgRefused {d : DescRef} {a value cause : Nat} (hs : s₀.FusesKept s) :
    s₀.FusesKept (s.cfgRefused d a value cause) :=
  hs.auditRefused.finish

theorem State.FusesKept.execCfgWrite {d : DescRef} (hs : s₀.FusesKept s) : OutKept s₀ (Machine.execCfgWrite d s) := by
  simp only [Machine.execCfgWrite]
  refine hs.secDesc (fun _ => ?_)
  split
  · exact .ite hs.cfgRefused (.ite hs.unitErr.cfgRefused hs.csrApply.auditWrite.finish)
  · exact hs.cfgRefused

/-! ### The peer's register accesses (R42, R324) -/

theorem State.FusesKept.execPeerRegWrite {tag nn : Nat} {addr : PAddr} {value : Word} (hs : s₀.FusesKept s) :
    OutKept s₀ (Machine.execPeerRegWrite tag nn addr value s) := by
  unfold Machine.execPeerRegWrite
  refine .ite (.of_state hs) ?_
  extract_lets s₁
  have hs₁ : s₀.FusesKept s₁ := hs.received
  split
  · exact .of_state hs₁.hole.tenSend
  · exact .ite (.of_state hs₁.unitErr.tenSend) (.ite (.of_state hs₁.unitErr.tenSend) (.of_state hs₁.csrStore.tenSend))

theorem State.FusesKept.execPeerRegRead {tag nn : Nat} {addr : PAddr} (hs : s₀.FusesKept s) :
    OutKept s₀ (Machine.execPeerRegRead tag nn addr s) := by
  unfold Machine.execPeerRegRead
  refine .ite (.of_state hs) ?_
  extract_lets s₁
  have hs₁ : s₀.FusesKept s₁ := hs.received
  split
  · exact .of_state hs₁.hole.tenSend
  · exact .ite (.of_state hs₁.unitErr.tenSend) (.of_state (.tenSend (.csrReadBy (.ite hs₁ hs₁.unitErr))))

theorem State.FusesKept.parDesc {d : DescRef} {op : Nat} {k : Fetched → State} (hs : s₀.FusesKept s)
    (hk : ∀ (a₀ : Fetched), s₀.FusesKept (k a₀)) :
    OutKept s₀ (s.parDesc d op k) := by
  unfold State.parDesc
  split
  · exact .of_state hs
  · exact .of_state (hk _)

/-! ### The tables -/

theorem State.FusesKept.execVolSet {d : DescRef} (hs : s₀.FusesKept s) : OutKept s₀ (Machine.execVolSet d s) := by
  unfold Machine.execVolSet
  refine hs.parDesc (fun _ => ?_)
  extract_lets
  refine .ite hs.finish ?_
  extract_lets
  split
  · exact hs.finishDma
  · exact .ite hs.finish (.ite hs.finish (.ite hs.finish (hs.tableThen (fun _ ht => .finish (.ite ht.setPar ht)))))

theorem State.FusesKept.execTenantSet {d : DescRef} (hs : s₀.FusesKept s) :
    OutKept s₀ (Machine.execTenantSet d s) := by
  unfold Machine.execTenantSet
  refine hs.parDesc (fun _ => ?_)
  refine .ite hs.finish ?_
  split
  · exact hs.finishDma
  · exact .ite hs.finish (hs.tableThen (fun _ ht => ht.finish))

/-! ### Queues and controllers -/

theorem State.FusesKept.execQueueBind {d : DescRef} (hs : s₀.FusesKept s) :
    OutKept s₀ (Machine.execQueueBind d s) := by
  unfold Machine.execQueueBind
  refine hs.parDesc (fun _ => ?_)
  extract_lets _ _ _ _ _ s₁ _ s₂
  have hs₁ : s₀.FusesKept s₁ := .ite hs.setCtrl hs
  have hs₂ : s₀.FusesKept s₂ := hs₁.setPar
  exact .ite hs.finish (.ite hs.finish (.ite hs.finish (.ite hs.finish hs₂.finish)))

theorem State.FusesKept.execQueueDelete {d : DescRef} (hs : s₀.FusesKept s) :
    OutKept s₀ (Machine.execQueueDelete d s) := by
  unfold Machine.execQueueDelete
  refine hs.parDesc (fun _ => ?_)
  extract_lets
  exact .ite hs.finish (.ite hs (.ite hs.finish hs.setPhase.cutQueues.raise))

theorem State.FusesKept.execCtrlReset {d : DescRef} (hs : s₀.FusesKept s) :
    OutKept s₀ (Machine.execCtrlReset d s) := by
  unfold Machine.execCtrlReset
  refine hs.parDesc (fun _ => ?_)
  extract_lets _ s₁ s₂
  have hs₁ : s₀.FusesKept s₁ := hs.setPhase.cutQueues
  have hs₂ : s₀.FusesKept s₂ := by
    unfold s₂
    split
    · exact hs₁.setCtrl
    · exact hs₁
  exact .ite hs.finish (.ite hs (.ite (.ite hs₁ hs₁.assocEvent) hs₂.raise))

/-! ### Admin commands -/

theorem State.FusesKept.execAdminFetch {d : DescRef} (hs : s₀.FusesKept s) :
    OutKept s₀ (Machine.execAdminFetch d s) := by
  unfold Machine.execAdminFetch
  refine hs.parDesc (fun _ => ?_)
  refine .ite hs.finish ?_
  extract_lets
  split
  · exact hs.setPhase
  · split
    · exact hs.setPar
    · extract_lets
      split
      · exact hs.finishDma
      · next t₁ e₃ =>
          have ht₁ : s₀.FusesKept t₁ := ExcKept.state e₃ hs.dmaWrite
          extract_lets _ s₁
          have hs₁ : s₀.FusesKept s₁ := ht₁.setCmd.setPar
          exact hs₁.finish

theorem State.FusesKept.adminSeen {c : NvmeCmd} (hs : s₀.FusesKept s) : s₀.FusesKept (s.adminSeen c) := by
  unfold State.adminSeen
  extract_lets
  split
  · exact hs
  · exact .ite hs.setCtrl.keepAlive (.ite hs.setCtrl.keepAlive (.ite hs.setCtrl hs))

theorem State.FusesKept.execAdminComplete {d : DescRef} (hs : s₀.FusesKept s) :
    OutKept s₀ (Machine.execAdminComplete d s) := by
  unfold Machine.execAdminComplete
  refine hs.parDesc (fun _ => ?_)
  extract_lets
  split
  · exact hs.finish
  · refine .ite hs ?_
    extract_lets s₁
    have hs₁ : s₀.FusesKept s₁ := .ite hs.adminSeen hs
    split
    · exact hs.finishDma
    · extract_lets s₂ s₃
      have hs₂ : s₀.FusesKept s₂ := .ite hs₁ hs₁.sendData
      have hs₃ : s₀.FusesKept s₃ := by
        unfold s₃
        split
        · exact hs₂.sendCapsule
        · exact hs₂
      exact hs₃.freeContextOf.finish

theorem State.FusesKept.execAenPost {d : DescRef} (hs : s₀.FusesKept s) : OutKept s₀ (Machine.execAenPost d s) := by
  unfold Machine.execAenPost
  refine hs.parDesc (fun _ => ?_)
  extract_lets
  split
  · exact hs.finish
  · split
    · exact hs.setPhase
    · extract_lets s₁ s₂
      have hs₁ : s₀.FusesKept s₁ := hs.setCtrl
      have hs₂ : s₀.FusesKept s₂ := by
        unfold s₂
        split
        · exact hs₁.complete
        · exact hs₁
      exact hs₂.finish

/-! ### The ANA log page (R120, R128) -/

theorem State.FusesKept.execAnaRead {d : DescRef} (hs : s₀.FusesKept s) : OutKept s₀ (Machine.execAnaRead d s) := by
  unfold Machine.execAnaRead
  refine hs.parDesc (fun _ => ?_)
  refine .ite hs.finish ?_
  extract_lets
  split
  · exact hs.finishDma
  · next t₁ e₁ =>
      have ht₁ : s₀.FusesKept t₁ := ExcKept.state e₁ hs.dmaWrite
      exact ht₁.finish

theorem State.FusesKept.execParPeakClear {origin : Origin} (hs : s₀.FusesKept s) :
    OutKept s₀ (Machine.execParPeakClear origin s) :=
  .of_state (hs.plainField (fun _ ht => ht.wr))

/-! ### One step -/

theorem State.FusesKept.exec {c : Instr} (hs : s₀.FusesKept s) : OutKept s₀ (Machine.exec c s) := by
  cases c with
  | csrWrite => exact hs.execCsrWrite
  | csrReadMisaligned => exact hs.execCsrReadMisaligned
  | holeAccess => exact hs.execHoleAccess
  | vatWindowAccess => exact hs.execVatWindowAccess
  | dbProdWrite => exact hs.execDbProdWrite
  | dbCheadWrite => exact hs.execDbCheadWrite
  | doorbellBadAccess => exact hs.execDoorbellBadAccess
  | ringEnable => exact hs.execRingEnable
  | ringDisable => exact hs.execRingDisable
  | ringDisableDone => exact hs.execRingDisableDone
  | ringStop => exact hs.execRingStop
  | ringStopDone => exact hs.execRingStopDone
  | ringStart => exact hs.execRingStart
  | descriptorFetch => exact hs.execDescriptorFetch
  | descriptorStart => exact hs.execDescriptorStart
  | msiHoldoffExpiry => exact hs.execMsiHoldoffExpiry
  | unitEnable => exact hs.execUnitEnable
  | railEnable => exact hs.execRailEnable
  | railReset => exact hs.execRailReset
  | railFail => exact hs.execRailFail
  | railInternalError => exact hs.execRailInternalError
  | portLinkChange => exact hs.execPortLinkChange
  | rxFrame => exact hs.execRxFrame
  | rocePacketRx => exact hs.execRocePacketRx
  | ctxFetchDone => exact hs.execCtxFetchDone
  | cnpRx => exact hs.execCnpRx
  | rateRise => exact hs.execRateRise
  | localAckTimeout => exact hs.execLocalAckTimeout
  | mrInvalidateAck => exact hs.execMrInvalidateAck
  | mrDrainLimitExpiry => exact hs.execMrDrainLimitExpiry
  | odpResume => exact hs.execOdpResume
  | odpTimeoutExpiry => exact hs.execOdpTimeoutExpiry
  | tcpSegmentRx => exact hs.execTcpSegmentRx
  | tcpRtoExpiry => exact hs.execTcpRtoExpiry
  | qpModify => exact hs.execQpModify
  | qpQuery => exact hs.execQpQuery
  | mrRegister => exact hs.execMrRegister
  | mrInvalidate => exact hs.execMrInvalidate
  | postSend => exact hs.execPostSend
  | postRecv => exact hs.execPostRecv
  | pktTx => exact hs.execPktTx
  | pktRxBuf => exact hs.execPktRxBuf
  | tcpInstall => exact hs.execTcpInstall
  | tcpRelease => exact hs.execTcpRelease
  | odpWait => exact hs.execOdpWait
  | capsuleArrival => exact hs.execCapsuleArrival
  | nvmeRead => exact hs.execNvmeRead
  | nvmeWrite => exact hs.execNvmeWrite
  | nvmeFlush => exact hs.execNvmeFlush
  | nvmeWriteZeroes => exact hs.execNvmeWriteZeroes
  | nvmeDatasetManagement => exact hs.execNvmeDatasetManagement
  | nvmeVerify => exact hs.execNvmeVerify
  | secureDeallocate => exact hs.execSecureDeallocate
  | nvmeAbort => exact hs.execNvmeAbort
  | nvmeKeepAlive => exact hs.execNvmeKeepAlive
  | nvmeAsyncEventRequest => exact hs.execNvmeAsyncEventRequest
  | budgetRefill => exact hs.execBudgetRefill
  | budgetGatePass => exact hs.execBudgetGatePass
  | dispatch => exact hs.execDispatch
  | ageLimitExpiry => exact hs.execAgeLimitExpiry
  | payloadComplete => exact hs.execPayloadComplete
  | holdLimitExpiry => exact hs.execHoldLimitExpiry
  | keepAliveExpiry => exact hs.execKeepAliveExpiry
  | associationLoss => exact hs.execAssociationLoss
  | queueDeletionDone => exact hs.execQueueDeletionDone
  | volSet => exact hs.execVolSet
  | tenantSet => exact hs.execTenantSet
  | queueBind => exact hs.execQueueBind
  | queueDelete => exact hs.execQueueDelete
  | ctrlReset => exact hs.execCtrlReset
  | adminFetch => exact hs.execAdminFetch
  | adminComplete => exact hs.execAdminComplete
  | aenPost => exact hs.execAenPost
  | anaRead => exact hs.execAnaRead
  | parPeakClear => exact hs.execParPeakClear
  | inlineFingerprint => exact hs.execInlineFingerprint
  | inlineLookup => exact hs.execInlineLookup
  | indexBucketReadDone => exact hs.execIndexBucketReadDone
  | verifyCompareDone => exact hs.execVerifyCompareDone
  | domainSet => exact hs.execDomainSet
  | lookup => exact hs.execLookup
  | insert => exact hs.execInsert
  | refAdjust => exact hs.execRefAdjust
  | relocate => exact hs.execRelocate
  | mergeScan => exact hs.execMergeScan
  | shardState => exact hs.execShardState
  | shardDropDone => exact hs.execShardDropDone
  | inlineCompress => exact hs.execInlineCompress
  | inlineDecompress => exact hs.execInlineDecompress
  | compress => exact hs.execCompress
  | decompress => exact hs.execDecompress
  | recast => exact hs.execRecast
  | dictLoad => exact hs.execDictLoad
  | dictDrop => exact hs.execDictDrop
  | churnLaneFault => exact hs.execChurnLaneFault
  | hash => exact hs.execHash
  | ctxClose => exact hs.execCtxClose
  | pressResultRead => exact hs.execPressResultRead
  | legacyStart => exact hs.execLegacyStart
  | legacyRelease => exact hs.execLegacyRelease
  | legacyFinal => exact hs.execLegacyFinal
  | legacyKey => exact hs.execLegacyKey
  | legacyData => exact hs.execLegacyData
  | legacyHashDone => exact hs.execLegacyHashDone
  | legacyResultRead => exact hs.execLegacyResultRead
  | legacyIdleExpiry => exact hs.execLegacyIdleExpiry
  | pressLaneFault => exact hs.execPressLaneFault
  | encode => exact hs.execEncode
  | decode => exact hs.execDecode
  | patchDelta => exact hs.execPatchDelta
  | verify => exact hs.execVerify
  | locate => exact hs.execLocate
  | intentAcquire => exact hs.execIntentAcquire
  | intentRelease => exact hs.execIntentRelease
  | rebuildCtl => exact hs.execRebuildCtl
  | resync => exact hs.execResync
  | genSet => exact hs.execGenSet
  | rebuildEnSet => exact hs.execRebuildEnSet
  | graceExpiry => exact hs.execGraceExpiry
  | chunkReadTimeout => exact hs.execChunkReadTimeout
  | intentFlush => exact hs.execIntentFlush
  | patrolStripe => exact hs.execPatrolStripe
  | rebuildStripe => exact hs.execRebuildStripe
  | resyncRegion => exact hs.execResyncRegion
  | carcLaneFault => exact hs.execCarcLaneFault
  | journalPageProgram => exact hs.execJournalPageProgram
  | journalHoldExpiry => exact hs.execJournalHoldExpiry
  | replicaTimeout => exact hs.execReplicaTimeout
  | bladeCompletion => exact hs.execBladeCompletion
  | remirror => exact hs.execRemirror
  | fold => exact hs.execFold
  | foldAgeExpiry => exact hs.execFoldAgeExpiry
  | checkpointPeriodExpiry => exact hs.execCheckpointPeriodExpiry
  | checkpointLateExpiry => exact hs.execCheckpointLateExpiry
  | gcVictimCollect => exact hs.execGcVictimCollect
  | wearLevelCheck => exact hs.execWearLevelCheck
  | wheelReclaim => exact hs.execWheelReclaim
  | healthPeriodExpiry => exact hs.execHealthPeriodExpiry
  | bladeAttach => exact hs.execBladeAttach
  | bladeDetach => exact hs.execBladeDetach
  | laneSet => exact hs.execLaneSet
  | shardLoad => exact hs.execShardLoad
  | shardRelease => exact hs.execShardRelease
  | checkpoint => exact hs.execCheckpoint
  | foldNow => exact hs.execFoldNow
  | reclaim => exact hs.execReclaim
  | healthNow => exact hs.execHealthNow
  | prsntChange => exact hs.execPrsntChange
  | prsntDebounceExpiry => exact hs.execPrsntDebounceExpiry
  | portResetExpiry => exact hs.execPortResetExpiry
  | bladeLinkTrained => exact hs.execBladeLinkTrained
  | bladeTrainingTimeout => exact hs.execBladeTrainingTimeout
  | bladeRdySeen => exact hs.execBladeRdySeen
  | bladeRdyTimeout => exact hs.execBladeRdyTimeout
  | bladeFatalSeen => exact hs.execBladeFatalSeen
  | dlDown => exact hs.execDlDown
  | unreachExpiry => exact hs.execUnreachExpiry
  | portDownExpiry => exact hs.execPortDownExpiry
  | portReset => exact hs.execPortReset
  | commandTimeoutExpiry => exact hs.execCommandTimeoutExpiry
  | pass => exact hs.execPass
  | bcpSqDoorbell => exact hs.execBcpSqDoorbell
  | bcpCcWrite => exact hs.execBcpCcWrite
  | bcpRead => exact hs.execBcpRead
  | bcpProgram => exact hs.execBcpProgram
  | bcpErase => exact hs.execBcpErase
  | bcpClaim => exact hs.execBcpClaim
  | bcpRetire => exact hs.execBcpRetire
  | setEpoch => exact hs.execSetEpoch
  | renew => exact hs.execRenew
  | leaseRelease => exact hs.execLeaseRelease
  | epochRead => exact hs.execEpochRead
  | bcpIdentify => exact hs.execBcpIdentify
  | bcpHealth => exact hs.execBcpHealth
  | claimList => exact hs.execClaimList
  | ecRead => exact hs.execEcRead
  | wipe => exact hs.execWipe
  | wipeConsent => exact hs.execWipeConsent
  | perstAssert => exact hs.execPerstAssert
  | bladePowerUp => exact hs.execBladePowerUp
  | tenonEnable => exact hs.execTenonEnable
  | tenonRetrain => exact hs.execTenonRetrain
  | tenonSignalDetect => exact hs.execTenonSignalDetect
  | tenonTrainDone => exact hs.execTenonTrainDone
  | tenonTrainTimeout => exact hs.execTenonTrainTimeout
  | tenonExchange => exact hs.execTenonExchange
  | flitSilenceExpiry => exact hs.execFlitSilenceExpiry
  | tenonRetrainDone => exact hs.execTenonRetrainDone
  | tenonRetrainTimeout => exact hs.execTenonRetrainTimeout
  | tenonDownExpiry => exact hs.execTenonDownExpiry
  | flitRx => exact hs.execFlitRx
  | ctrlCredit => exact hs.execCtrlCredit
  | timeReqPeriod => exact hs.execTimeReqPeriod
  | timeReq => exact hs.execTimeReq
  | timeResp => exact hs.execTimeResp
  | timeSlew => exact hs.execTimeSlew
  | timeSyncLapse => exact hs.execTimeSyncLapse
  | fwdReq => exact hs.execFwdReq
  | fwdRsp => exact hs.execFwdRsp
  | fwdCancel => exact hs.execFwdCancel
  | fwdWaitExpiry => exact hs.execFwdWaitExpiry
  | reexecutionDispatch => exact hs.execReexecutionDispatch
  | maintIncrement => exact hs.execMaintIncrement
  | maintDeferErase => exact hs.execMaintDeferErase
  | peerWipeConsent => exact hs.execPeerWipeConsent
  | peerRegWrite => exact hs.execPeerRegWrite
  | mailRx => exact hs.execMailRx
  | mailSend => exact hs.execMailSend
  | mailRecv => exact hs.execMailRecv
  | renewRound => exact hs.execRenewRound
  | leaseExpiry => exact hs.execLeaseExpiry
  | leaseTailEnd => exact hs.execLeaseTailEnd
  | quietEnd => exact hs.execQuietEnd
  | releaseReadDeadline => exact hs.execReleaseReadDeadline
  | note => exact hs.execNote
  | noteSilenceExpiry => exact hs.execNoteSilenceExpiry
  | offer => exact hs.execOffer
  | won => exact hs.execWon
  | refuse => exact hs.execRefuse
  | lost => exact hs.execLost
  | abdicate => exact hs.execAbdicate
  | takeLimitExpiry => exact hs.execTakeLimitExpiry
  | takeoverSilenceReached => exact hs.execTakeoverSilenceReached
  | hbOutToggle => exact hs.execHbOutToggle
  | hbInEdge => exact hs.execHbInEdge
  | hbLossExpiry => exact hs.execHbLossExpiry
  | watchdogKick => exact hs.execWatchdogKick
  | watchdogExpiry => exact hs.execWatchdogExpiry
  | abdicateWrite => exact hs.execAbdicateWrite
  | fatalMachineCheck => exact hs.execFatalMachineCheck
  | drillDue => exact hs.execDrillDue
  | drillGraceExpiry => exact hs.execDrillGraceExpiry
  | handoffBegin => exact hs.execHandoffBegin
  | handoffCommit => exact hs.execHandoffCommit
  | handoffAbort => exact hs.execHandoffAbort
  | take => exact hs.execTake
  | drain => exact hs.execDrain
  | undrain => exact hs.execUndrain
  | eventWait => exact hs.execEventWait
  | coolerAccess => exact hs.execCoolerAccess
  | coolerFillDone => exact hs.execCoolerFillDone
  | evictionWriteAccepted => exact hs.execEvictionWriteAccepted
  | l2Writeback => exact hs.execL2Writeback
  | cboClean => exact hs.execCboClean
  | cboFlush => exact hs.execCboFlush
  | cboInval => exact hs.execCboInval
  | cleanRange => exact hs.execCleanRange
  | flushRange => exact hs.execFlushRange
  | cleanAll => exact hs.execCleanAll
  | flushWays => exact hs.execFlushWays
  | sliceRetire => exact hs.execSliceRetire
  | sliceRestore => exact hs.execSliceRestore
  | coolerDisable => exact hs.execCoolerDisable
  | coolerDrainDone => exact hs.execCoolerDrainDone
  | pailRequest => exact hs.execPailRequest
  | pailRelease => exact hs.execPailRelease
  | vatAlarmExpiry => exact hs.execVatAlarmExpiry
  | vatUeDetected => exact hs.execVatUeDetected
  | pailAlloc => exact hs.execPailAlloc
  | pailFree => exact hs.execPailFree
  | vatPeakClear => exact hs.execVatPeakClear
  | ddrTrainingStart => exact hs.execDdrTrainingStart
  | ddrTrainingDone => exact hs.execDdrTrainingDone
  | zqCalibration => exact hs.execZqCalibration
  | dqsOscRead => exact hs.execDqsOscRead
  | dimmThermalRead => exact hs.execDimmThermalRead
  | ddrRefresh => exact hs.execDdrRefresh
  | ddrScrub => exact hs.execDdrScrub
  | random => exact hs.execRandom
  | keyGen => exact hs.execKeyGen
  | keyLoad => exact hs.execKeyLoad
  | keyDestroy => exact hs.execKeyDestroy
  | keyExport => exact hs.execKeyExport
  | kekCreate => exact hs.execKekCreate
  | kekUnseal => exact hs.execKekUnseal
  | pairOffer => exact hs.execPairOffer
  | pairSend => exact hs.execPairSend
  | pairReceive => exact hs.execPairReceive
  | cfgWrite => exact hs.execCfgWrite
  | lockSet => exact hs.execLockSet
  | lockClear => exact hs.execLockClear
  | attest => exact hs.execAttest
  | certRead => exact hs.execCertRead
  | lifecycleAdvance => exact hs.execLifecycleAdvance
  | entropyHealthFail => exact hs.execEntropyHealthFail
  | drbgReseed => exact hs.execDrbgReseed
  | jtagInstruction => exact hs.execJtagInstruction
  | veneerInlineJob => exact hs.execVeneerInlineJob
  | keyUnwrapDone => exact hs.execKeyUnwrapDone
  | encrypt => exact hs.execEncrypt
  | decrypt => exact hs.execDecrypt
  | keyEvict => exact hs.execKeyEvict
  | venLaneFault => exact hs.execVenLaneFault
  | auditEntryWrite => exact hs.execAuditEntryWrite
  | auditSealPeriod => exact hs.execAuditSealPeriod
  | auditSealCount => exact hs.execAuditSealCount
  | auditShutdown => exact hs.execAuditShutdown
  | jigBegin => exact hs.execJigBegin
  | jigBlock => exact hs.execJigBlock
  | jigBlockWritten => exact hs.execJigBlockWritten
  | jigCommit => exact hs.execJigCommit
  | jigAbort => exact hs.execJigAbort
  | jigActivate => exact hs.execJigActivate
  | jigActivationDone => exact hs.execJigActivationDone
  | jigBitmap => exact hs.execJigBitmap
  | jigPortBegin => exact hs.execJigPortBegin
  | jigPortSegment => exact hs.execJigPortSegment
  | jigPortCommit => exact hs.execJigPortCommit
  | jigPortAbort => exact hs.execJigPortAbort
  | jigPortStatus => exact hs.execJigPortStatus
  | jigIdleExpiry => exact hs.execJigIdleExpiry
  | coreDividerWrite => exact hs.execCoreDividerWrite
  | refclkLoss => exact hs.execRefclkLoss
  | domainOnRequest => exact hs.execDomainOnRequest
  | domainOffRequest => exact hs.execDomainOffRequest
  | domainRampAdmit => exact hs.execDomainRampAdmit
  | rampTimeout => exact hs.execRampTimeout
  | governorSample => exact hs.execGovernorSample
  | govResume => exact hs.execGovResume
  | thermalRead => exact hs.execThermalRead
  | thermalTripPoweroff => exact hs.execThermalTripPoweroff
  | witnessPassStart => exact hs.execWitnessPassStart
  | measureNow => exact hs.execMeasureNow
  | markMeasurementDone => exact hs.execMarkMeasurementDone
  | coreRetirement => exact hs.execCoreRetirement
  | meterEvent => exact hs.execMeterEvent
  | capTick => exact hs.execCapTick
  | meterCut => exact hs.execMeterCut
  | meterSweep => exact hs.execMeterSweep
  | capSet => exact hs.execCapSet
  | lineRead => exact hs.execLineRead
  | tallyTokenRefill => exact hs.execTallyTokenRefill
  | tallySpill => exact hs.execTallySpill
  | triggerPulseEnd => exact hs.execTriggerPulseEnd
  | lossHoldExpiry => exact hs.execLossHoldExpiry
  | tallyClearCounts => exact hs.execTallyClearCounts
  | mgtFrameRx => exact hs.execMgtFrameRx
  | mgtLinkChange => exact hs.execMgtLinkChange
  | frameTx => exact hs.execFrameTx
  | frameRxBuf => exact hs.execFrameRxBuf
  | wallClockApply => exact hs.execWallClockApply
  | vddAonRise => exact hs.execVddAonRise
  | pwrokFall => exact hs.execPwrokFall
  | resetNAssert => exact hs.execResetNAssert
  | coldResetRelease => exact hs.execColdResetRelease
  | warmReset => exact hs.execWarmReset
  | warmResetEnd => exact hs.execWarmResetEnd
  | powerLoss => exact hs.execPowerLoss
  | groupWrite => exact hs.execGroupWrite
  | groupRead => exact hs.execGroupRead
  | groupDelete => exact hs.execGroupDelete
  | rnrTimerExpiry => exact hs.execRnrTimerExpiry
  | tenonLaneErrorLimit => exact hs.execTenonLaneErrorLimit
  | linkDownHbLossExpiry => exact hs.execLinkDownHbLossExpiry
  | bcpLeaseCfgWrite => exact hs.execBcpLeaseCfgWrite
  | bladePowerLoss => exact hs.execBladePowerLoss
  | maintAck => exact hs.execMaintAck
  | peerRegRead => exact hs.execPeerRegRead

theorem OutKept.step (s : State) : OutKept s (Machine.step s) := by
  unfold Machine.step
  split
  · exact .of_state ((State.FusesKept.refl s).upd rfl)
  · exact State.FusesKept.exec ((State.FusesKept.refl s).upd rfl)

end

/-- Settles O57: of all the model's functions two write OTP, and both only set bits; the rest leave it, resets and power
losses too. -/
theorem fusesOnlyRise : Obligations.FusesOnlyRise := by
  intro s t hwf hstep
  exact (((OutKept.step s).next t hstep).kept hwf).2

end Sys2Proof.Machine
end
